-- ==== Sys2Proof/Word.lean ====
section
/-! DEFINITION. The word types of the Ikinus IKN8131-BG256: the 32-bit register and ring word (R17), the byte, and byte strings. -/
namespace Sys2Proof

/-- A byte of a format table (R15, R16). -/
abbrev Byte := BitVec 8

/-- A register or a ring item: 32 bits (R17). -/
abbrev Word := BitVec 32

/-- A byte string, offset 0 first (R15). -/
abbrev Bytes := List Byte

end Sys2Proof
end

