-- ==== Sys2Proof/Cmd.lean ====
section
/-! DEFINITION. The operand types of the commands. -/
namespace Sys2Proof

/-- The three requesters of the management address space (R7). -/
inductive Who where
  | dev | seif | maint
  deriving DecidableEq, Repr

/-- Who works a port of a ring: the block that owns that side (R77), or a requester through the ring's registers (R107). -/
inductive Port where
  | owner
  | reg (w : Who)
  deriving DecidableEq, Repr

/-- A task key (R109). -/
inductive Key where
  | slot (i : Nat)
  | group (g : Nat)
  | sys (n : Nat)
  deriving DecidableEq, Repr

/-- What an Announce message tells the slave clock (R479): its sourcePortIdentity, the grandmaster's data set in comparison
order, stepsRemoved, currentUtcOffset when flagged valid, and its interval in units of 2^-28 s. -/
structure AnnounceMsg where
  domain   : Nat
  src      : Nat
  gm       : List Nat
  steps    : Nat
  utc      : Option Nat
  interval : Nat
  deriving DecidableEq, Repr

/-- What the decimation chain delivers on one output edge (R294, R297): the 24-bit signed samples of VA, VB, VC, IA, IB, IC and IN, aligned in time. The
responses' coefficients stand in no rule, so the samples after them are the input. -/
structure FeSample where
  ch : List Int
  deriving DecidableEq, Repr

/-- What the ONFI parameter pages of a media set report (R558, R559, R744): LUNs, those on each of CE0 to CE3, units of 4 KiB in a page, pages in a block,
blocks in a LUN, spare bytes per 4 KiB, the times in µs, the factory bad blocks by their number over all LUNs, and the modes that every target supports, each by
its interface (0 SDR, 1 NV-DDR2, 2 NV-DDR3) and its data rate in MT/s. -/
structure NandGeom where
  luns  : Nat
  ces   : List Nat
  page  : Nat
  ppb   : Nat
  bpl   : Nat
  spare : Nat
  tBers : Nat
  tProg : Nat
  tProgSlc : Nat
  identical : Bool
  bad   : List Nat
  modes : List (Nat × Nat)
  deriving DecidableEq, Repr

/-- The service card in its slot (R699, R717): the files in its root folder, by name. -/
structure Card where
  files : List (String × Bytes) := []
  deriving DecidableEq, Repr

/-- What a power-line receiver integrates over the four slots of a half-cycle (R388). -/
structure PulseEnergy where
  e0 : Nat := 0
  e1 : Nat := 0
  e2 : Nat := 0
  e3 : Nat := 0
  deriving DecidableEq, Repr

end Sys2Proof
end

