-- ==== Sys2Proof/Syntax.lean ====
section
/-! DEFINITION. The commands the Ikinus takes: one constructor per row of spec/opcode_table.json, with its operands. -/
namespace Sys2Proof

/-- A command of the block. -/
inductive Instr where
  /-- R643: The main rails and VIO3 come up and RESET_N is high for 10 ms, so the main domain leaves reset. -/
  | powerOn (dt : Nat)
  /-- R645: RESET_N is held low for at least 1 µs and the main domain resets at once, without touching the Oasis. -/
  | resetNAssert (dt : Nat)
  /-- R675: The boot ROM checks OTP, reads the NOR, judges and applies the images, climbs the ladder, restores context and starts service. -/
  | boot (dt : Nat) (restore : Nat) (recover : Bool) (card : (Option Card)) (geom : (Option NandGeom)) (vio33 : Bool) (upTo : Fin 17)
  /-- R649: The rung-spacing timer expires and the next rung of the start ladder brings up its subsystems. -/
  | ladderRung (dt : Nat)
  /-- R10: An access falls outside every block; it ends with a bus error and an address-fault event is recorded. -/
  | addressFault (w : Who) (addr : Word)
  /-- R13: A write reaches a register field that has no row of its own, and acts according to the field's access code and the requester's rights. -/
  | registerWrite (w : Who) (addr : Word) (size : Fin 3) (v : Word)
  /-- R27: The sequencer takes an item from an ingress ring, assigns the next JSN and journals it with its stamp, class and flags. -/
  | journalInput (ring : Fin 16)
  /-- R33: The sequencer reads a wadi marker and journals a RING_LOSS entry with the ring number and the dropped count. -/
  | ringLoss (ring : Fin 16)
  /-- R51: Device time reaches a calendar, demand, balance or close boundary instant, and the sequencer starts a boundary hold. -/
  | boundaryHoldStart
  /-- R51: The boundary hold expires; the sequencer journals the boundary entries, then the buffered inputs. -/
  | boundaryHoldEnd
  /-- R43: A task requests random data; the sequencer journals a DRBG_DRAW entry and the task resumes with its data. -/
  | drbgDraw (k : Key)
  /-- R68: 2^20 entries or 6 h of stamps have passed, and the sequencer journals a CKPT entry and starts a checkpoint. -/
  | ckptCut
  /-- R68: A write of 1 to JSQ_CTL.CKPT_NOW starts a checkpoint at the next entry boundary. -/
  | jsqCkptNow (w : Who)
  /-- R704: After an update completes in mode 2, the start of local hour UPD_HOUR is reached and a CKPT entry is journaled. -/
  | updHourCkpt
  /-- R72: A checkpoint's descriptor verifies, and the durable watermark and outbox conditions are met, so it becomes the latest valid checkpoint. -/
  | ckptValid (ok : Bool)
  /-- R66: The durable watermark has not advanced for JSQ_DURSTALL.MS while entries wait, and a durability-stall event is recorded. -/
  | durabilityStall
  /-- R84: A write to QF_OPENn opens a packet and reserves its length word, or is dropped or counted on a full ring. -/
  | qfOpen (p : Port) (ring : Fin 16)
  /-- R88: A write to QF_PUSHn pushes one payload word, which is stored, dropped under the drop policy, or stalls under the stall policy. -/
  | qfPush (p : Port) (ring : Fin 16) (v : Word)
  /-- R84: A write to QF_CLOSEn writes the length word with TYPE, LENGTH and T and makes the packet visible. -/
  | qfClose (p : Port) (ring : Fin 16) (v : Word)
  /-- R95: A read of QF_POPn returns the next visible word and advances the read position, or returns the idle item. -/
  | qfPop (p : Port) (ring : Fin 16)
  /-- R96: A write of 1 to QF_CTLn.DROP skips the rest of the packet being read. -/
  | qfDrop (p : Port) (ring : Fin 16)
  /-- R78: A word frees on a stall-policy ring and the waiting producer's write completes. -/
  | ringStallRelease (ring : Fin 16)
  /-- R91: With drops pending, no packet open and a word free, the ring writes a wadi marker and clears its pending count. -/
  | wadiMarkerWrite (ring : Fin 16)
  /-- R97: A ring's stale timer reaches QF_STALEn.US; QF_IRQ.STALEn sets and a ring-stale event is recorded. -/
  | ringStale (ring : Fin 16)
  /-- R108: The dispatcher takes a journal entry and queues a task under its task key with the key's owner or home grain. -/
  | taskDispatch
  /-- R114: A grain takes the next task from the key nearest the front of its deque and runs it ahead of the gate. -/
  | taskStart (g : Fin 64)
  /-- R121: An idle grain's 16-cycle attempt fires; it chooses a victim and steals one key's whole FIFO together with its ownership. -/
  | barchanMove (g : Fin 64)
  /-- R126: A key's gate reaches a task; fences apply, then the frame is applied, parked, late or gap-abandoned, and the slot is written back and its outputs handed over. -/
  | commitTurn (k : Key)
  /-- R533: A Q11 result reaches the dispatcher and resumes the waiting task. -/
  | cipherResult
  /-- R140: All grains of a dune have been idle for IDLE_US, and the dune enters NAP. -/
  | duneNap (d : Fin 8)
  /-- R140: A dune has stayed in NAP for DEEP_MS, and it enters DEEP. -/
  | duneDeep (d : Fin 8)
  /-- R141: A sleeping dune's queue reaches the wake depth or age and it wakes, within the governor limit. -/
  | duneWake
  /-- R176: The 32-cycle quota window ends and masked high-priority requesters are unmasked. -/
  | arbWindowEnd
  /-- R182: Any write to ARB_LATMAX clears the recorded longest resolution time. -/
  | arbLatmaxClear (w : Who)
  /-- R156: The command rosters a FREE slot with an EUI-64, class, medium, group and wrapped key. -/
  | rosterAdd (src : Nat) (slot : Fin 131072) (eui : Nat) (cls : Nat) (med : Nat) (grp : Nat) (wkey : Bytes)
  /-- R156: The command decommissions a slot and cancels its pushes. -/
  | rosterDecom (src : Nat) (slot : Fin 131072)
  /-- R158: The command frees a DECOM slot once the epoch has advanced, clearing the slot and its EUI index entry. -/
  | rosterRelease (src : Nat) (slot : Fin 131072)
  /-- R156: The command changes the CLASS and BGROUP of a rostered, joining or active slot. -/
  | rosterSet (src : Nat) (slot : Fin 131072) (cls : Nat) (grp : Nat)
  /-- R241: The command fixes a close instant at which a BND_PERIOD is journaled, or is refused CLOSE_BUSY. -/
  | closeNow (src : Nat)
  /-- R257: The command produces a signed feeder readout with REASON 1 at its JSN. -/
  | readout (src : Nat)
  /-- R68: An authorized command starts a checkpoint at the next entry boundary. -/
  | cmdCkptNow (src : Nat)
  /-- R52: An authorized command ends a running boundary hold early. -/
  | holdEnd (src : Nat)
  /-- R483: An authorized command asks for a time step of NEW minus its stamp, to be applied at the next whole second. -/
  | timeSet (src : Nat) (time : Nat)
  /-- R301: The FEEDER task applies new responses, median and PGA gains to the front end. -/
  | meterSet (src : Nat) (sel : Nat) (pga0 : Nat) (pga1 : Nat) (pga2 : Nat) (pga3 : Nat)
  /-- R425: The command enters a downlink push into the slot's push queue after its checks. -/
  | push (src : Nat) (slot : Fin 131072) (id : Nat) (att : Nat) (dtype : Nat) (payload : Bytes)
  /-- R437: The command enters an endpoint image descriptor and draws its image key. -/
  | fwDeclare (src : Nat) (image : Nat) (blocks : Nat) (length : Nat) (digest : Bytes) (mask : Nat)
  /-- R437: The command stores one image block; the last block triggers the digest check. -/
  | fwLoad (src : Nat) (image : Nat) (block : Nat) (data : Bytes)
  /-- R438: The command hands a block range of a READY image to a medium's block pump. -/
  | fwSend (src : Nat) (image : Nat) (round : Nat) (med : Nat) (first : Nat) (last : Nat) (ttl : Nat)
  /-- R437: The command removes an image descriptor that no push names. -/
  | fwDelete (src : Nat) (image : Nat)
  /-- R438: Room appears in Q2 or Q4, and the pump queues the next FW_BLOCK caravan from the media. -/
  | fwBlockPump (plc : Bool)
  /-- R517: The command advances the GEN of SIGK. -/
  | keyRoll (src : Nat) (purpose : Nat)
  /-- R551: The signed command fuses the hash of OPK in OPEN and sets COMMISSIONED. -/
  | commission (src : Nat) (sig : Bytes)
  /-- R547: The signed command moves the life cycle to FIELD, burning and generating roots. -/
  | lcField (src : Nat) (sig : Bytes)
  /-- R547: The signed command moves a FIELD unit to RETURN. -/
  | lcReturn (src : Nat) (sig : Bytes)
  /-- R547: The signed command scraps the unit and burns the current root. -/
  | lcScrap (src : Nat) (sig : Bytes)
  /-- R545: The signed command in alarm hold clears LATCH and HOLD and resets into a normal start. -/
  | rearm (src : Nat) (sig : Bytes)
  /-- R245: Once ERG_CWM reaches the BND_PERIOD, the CLOSE task signs 256 slots and journals a CLOSE_CURSOR. -/
  | closeSweepStep
  /-- R280: Once ERG_CWM reaches a BND_BALANCE, the group task closes its cell, matches steps, scores and emits the result. -/
  | balanceClose (g : Fin 4096)
  /-- R304: A sample block ends at its cycle count or a minute, time-set or switch edge, and is offered to Q9 or held. -/
  | feederBlockEnd (xs : List FeSample)
  /-- R309: A reference cycle completes; P_cyc is computed and step watch runs. -/
  | feederCycle (p : Fin 3) (xs : List FeSample)
  /-- R310: A reversed-current, bypass or missing-neutral condition persists for its time and sets or clears with an MTR_EVENT. -/
  | tamperCondition (c : Fin 5) (xs : List FeSample)
  /-- R300: The settling time after an enable or switch expires and samples become settled. -/
  | settlingEnd (xs : List FeSample)
  /-- R352: A radio frame ends on a receive channel; it is checked, judged against the slot and opened on Q1. -/
  | radioFrameReceive (dt : Nat) (chan : Fin 8) (rssi : Int) (modeSw : Bool) (fcs4 : Bool) (dw : Bool) (psdu : Bytes)
  /-- R344: 400 µs after the frame end, the coordinator sends the ACK with its verdict, unless a case of R346 applies. -/
  | radioAckSend
  /-- R357: A planned poll's train start instant arrives and the long preamble or countdown train begins. -/
  | wakeTrainStart (slot : Fin 131072)
  /-- R348: The train ends and the coordinator sends the POLL. -/
  | pollSend
  /-- R363: A recovery full train of 1.1 × S starts for a slot that reached its miss limit. -/
  | fullTrainStart
  /-- R349: An expected frame does not start within 3 ms; the exchange ends and an unanswered poll journals NO_ANSWER or FULL_FAIL. -/
  | exchangeTimeout
  /-- R348: After the last ACK of an exchange with DPEND, the coordinator sends the DOWN. -/
  | radioDownSend
  /-- R351: No ACK starts within 2 ms of a DOWN, and the MAC journals NOTICE DOWN_NOACK. -/
  | radioDownNoack
  /-- R373: A held DOWN waits DN_WAIT_H hours; it is dropped and NOTICE DOWN_EXPIRED is journaled. -/
  | radioDownExpired
  /-- R374: The MAC takes a Q2 DOWN packet and holds it for its slot, replacing a waiting one. -/
  | radTxDown
  /-- R374: The MAC takes a Q2 CARAVAN packet, inserts it in the seen cache and originates it. -/
  | radTxCaravan
  /-- R374: The MAC takes a Q2 POLL_NOW packet and polls the slot at its next wake. -/
  | radTxPollNow
  /-- R368: A seen-cache entry expires 60 s after insertion. -/
  | caravanCacheExpiry (plc : Bool)
  /-- R382: An edge on ZC_A–ZC_C is stamped and accepted or ignored as a crossing, updating the prediction and the lock. -/
  | zcEdge (dt : Nat) (phase : Fin 3) (rising : Bool) (heard : PulseEnergy)
  /-- R393: A power-line frame's last symbol arrives; the PHR, Viterbi and FCS are checked, the frame is judged and opened on Q3. -/
  | plcFrameReceive (dt : Nat) (phase : Fin 3) (heard : List PulseEnergy)
  /-- R399: At crossing X + 4 the coordinator sends the short ACK with the verdict. -/
  | plcShortAckSend (phase : Fin 3)
  /-- R402: No valid short ACK arrives by X + 63, and the frame is retried in the next contention cycle. -/
  | plcAckTimeout (phase : Fin 3)
  /-- R400: A node's contention start crossing arrives; it sends or defers. -/
  | plcContend (phase : Fin 3) (r : Fin 8)
  /-- R403: The beacon period expires and a BEACON is sent on each locked phase. -/
  | plcBeacon
  /-- R408: No end-to-end ACK arrives within 60 s of a DOWN, and NOTICE DOWN_NOACK is journaled. -/
  | plcDownNoack
  /-- R408: A held power-line DOWN passes DN_WAIT_H hours and is dropped with NOTICE DOWN_EXPIRED. -/
  | plcDownExpired
  /-- R409: A Q4 DOWN packet is taken, source-routed and sent, or dropped with NOTICE ROUTE_FAIL. -/
  | plcTxDown
  /-- R409: A Q4 caravan packet is originated as a managed flood. -/
  | plcTxCaravan
  /-- R409: A Q4 REQ packet sends a REQ with MAXF 32 to the slot. -/
  | plcTxReq
  /-- R440: An Ethernet frame arriving on a port is learned and forwarded, flooded or dropped by the bridge. -/
  | bridgeFrame (dt : Nat) (port : Fin 2) (fcsOk : Bool) (frame : Bytes)
  /-- R439: A port's PHY link goes up or down and NET_IRQ.LINK sets. -/
  | portLinkChange (dt : Nat) (port : Fin 2) (up : Bool) (slow : Bool)
  /-- R443: The device port accepts a frame and answers, journals or drops it. -/
  | devicePortReceive
  /-- R456: A journaled BACK is checked and moves the acknowledged mark, freeing the outbox. -/
  | backCommit
  /-- R458: A journaled CMD datagram is authenticated and window-checked, then submitted as MGMT_CMD or refused. -/
  | cmdDatagramCheck
  /-- R463: In the head role, a batch is taken under NEXT and split into child tasks per record. -/
  | batchIngest
  /-- R464: The durable watermark passes a batch's JSN and the head unit sends its BACK. -/
  | headBackSend
  /-- R446: An output's OJSN is durable, committed and agreed, so it takes the next RSN and enters the outbox. -/
  | releaseEnter
  /-- R453: The holder sends stream records as BATCH datagrams within the window. -/
  | batchSend (diag : Bool) (n : Nat)
  /-- R453: No BACK advances the mark for RTO_MS, and the holder resends from the acknowledged mark. -/
  | batchRto (diag : Bool)
  /-- R465: Every 16 ms while Q12 stalls and Q5 is full enough, a PAUSE frame goes out; a quanta 0 ends it. -/
  | pauseSend
  /-- R469: A write of 1 to NET_MDIO.GO starts a clause 22 frame on the MDIO bus. -/
  | mdioGo (w : Who) (v : Word)
  /-- R479: A received Announce feeds the best master clock algorithm and master selection. -/
  | ptpAnnounce (dt : Nat) (m : AnnounceMsg)
  /-- R474: A Sync is accepted; the offset is measured, the servo state, step right and loop are updated. -/
  | ptpSync (dt : Nat) (src : Nat) (port : Fin 3) (origin : Int)
  /-- R481: A Delay_Req or Pdelay exchange measures path or link delay. -/
  | ptpDelayExchange (dt : Nat) (port : Fin 3) (t1 : Int) (t2 : Int) (t3 : Int) (t4 : Int)
  /-- R473: No Sync is accepted for LOSS_S, and the servo enters HOLDOVER. -/
  | ptpLoss
  /-- R478: Every 64 s while LOCKED, the frequency estimate is saved to OAS_LRATE. -/
  | lrateSave
  /-- R483: At the first whole second after an authorized set, device time steps and TIME_SET is journaled. -/
  | timeStepApply
  /-- R489: Each second the Oasis adds its temperature trim and inserts or swallows a tick when the accumulator passes its limit. -/
  | oasisTrimTick (temp : Fin 1024)
  /-- R490: After 1,024 s of measurement while LOCKED, device code corrects OAS_TRIM.STATIC. -/
  | oasisCalibrate
  /-- R491: A write of 1 to OAS_TCOMMIT.GO stages a commit of the Oasis time, or it is refused. -/
  | oasTcommit (w : Who)
  /-- R491: At the next second boundary the Oasis loads the staged time. -/
  | oasCommitApply
  /-- R492: A read of OAS_TIME0 freezes the requester's time shadows. -/
  | oasTime0Read (w : Who)
  /-- R492: A read of OAS_TIME3 returns its frozen value and releases the shadows. -/
  | oasTime3Read (w : Who)
  /-- R492: A freeze held for 2 s releases itself and sets READ_STALE. -/
  | freezeTimeout (w : Who)
  /-- R493: At each Oasis second boundary PPS_OUT is driven for 100 ms. -/
  | ppsPulse
  /-- R498: A programmed time of a CTL output arrives and the pulse fires, or is skipped when late. -/
  | ctlPulse (n : Fin 8)
  /-- R500: A qualified edge on EVT0–EVT3 is stamped and sent to Q0, or dropped when full. -/
  | evtCapture (dt : Nat) (e : Fin 4) (rising : Bool)
  /-- R530: A Q10 request is placed on an idle lane, suspends a lower-priority message, or queues. -/
  | cipherRequest
  /-- R530: A lane finishes a message, posts the Q11 result and resumes its suspended message or a more urgent one. -/
  | laneComplete (lane : Fin 16)
  /-- R524: The unwrap unit finishes and writes the key into the lane, or ends with UNWRAP_FAIL. -/
  | unwrapComplete (lane : Fin 16)
  /-- R534: A P-256 engine finishes a signature, verification or ECDH and returns its result. -/
  | eccComplete (e : Fin 2)
  /-- R528: Every 10 ms a new mask is drawn and every key cell is re-masked. -/
  | keyRemask
  /-- R539: A health test fails; the DRBG stops serving and an entropy-fault event is recorded. -/
  | trngHealthFail
  /-- R539: A full test window passes after a failure and waiting draws are served. -/
  | trngHealthPass
  /-- R541: A tamper source alarms; keys are erased, the latches set, TAMPER is journaled, the token is released and the unit resets into hold. -/
  | tamperAlarm (dt : Nat) (src : Fin 8)
  /-- R544: In alarm hold, the ROM checks a KEY_ID-0 CMD datagram, answers it and runs it. -/
  | holdCmd (addr : Nat) (port : Nat) (dgram : Bytes)
  /-- R570: Sabkha reads a Q12 packet and packs its entry into the journal stream. -/
  | mediaJournalWrite
  /-- R568: FLUSH_MS passes since the first byte of a partial unit and the unit is programmed with fill. -/
  | journalFlushTimer
  /-- R565: A page program completes and its read-back is decoded; verified units advance the map and the durable watermark. -/
  | unitVerify (region : Fin 6) (lua : Nat) (corr : Nat)
  /-- R581: A unit is read, with retry levels, rebuild or loss handling on failure. -/
  | mediaRead (region : Fin 6) (lua : Nat) (tried : Nat) (corr : Nat) (rebuilt : Bool)
  /-- R584: A page program fails; the block is replaced by copying into a fresh block and then retired. -/
  | programFail (sb : Nat) (lun : Nat)
  /-- R584: An erase fails; the block is retired and the next block is taken. -/
  | eraseFail (sb : Nat) (lun : Nat)
  /-- R578: After BG_IDLE_MS idle with few free superblocks, background collection or folding copies a victim. -/
  | bgCollection
  /-- R579: Free superblocks fall to FG_FREE; foreground collection throttles Q12. -/
  | fgCollection
  /-- R586: The patrol reads valid units in the background and refreshes weak ones. -/
  | patrolRead (corr : Nat)
  /-- R588: Every HEALTH_H hours a media-health event is recorded. -/
  | mediaHealth
  /-- R593: The recorder takes a Q14 event packet, adds its tag and stores it, folding repeats. -/
  | eventRecord
  /-- R595: A read of EVR_REWIND returns EVR_FIRST and rewinds the reader's cursor. -/
  | evrRewind (w : Who)
  /-- R595: A read of EVR_WIN returns the next word at the reader's cursor and advances it. -/
  | evrWin (w : Who)
  /-- R605: The unit samples ADDR_IN and takes position 0, waits, or waits for ENUM. -/
  | enumSample (dt : Nat) (level : Fin 3)
  /-- R605: An ENUM frame on UP gives the unit its position or marks a ring; a mismatch is a collision. -/
  | enum
  /-- R605: Every 1 ms until the DN partner names position + 1, the unit resends ENUM. -/
  | enumResend
  /-- R611: Every 1 ms the SEF hardware broadcasts a HEARTBEAT. -/
  | heartbeatSend
  /-- R618: A received heartbeat updates the peer's presence, HIGH, token and match state. -/
  | heartbeat
  /-- R618: A peer's heartbeats stop for PEER_MS and it is no longer present. -/
  | peerTimeout (p : Fin 32)
  /-- R610: A frame arrives on a Seif link; its CRC is checked and it is taken, forwarded or discarded. -/
  | linkFrameReceive (dt : Nat) (link : Fin 2) (frame : Bytes)
  /-- R609: An acknowledgement or negative acknowledgement ordered set arrives and the replay buffer is advanced or resent. -/
  | linkAck (dt : Nat) (link : Fin 2) (nack : Bool) (lseq : Fin 65536)
  /-- R609: 100 µs pass with no acknowledgement and unacknowledged frames are resent; the 16th resend takes the link down. -/
  | linkRetxTimeout (link : Fin 2)
  /-- R619: A standby checks replicated entries, stages them and processes them. -/
  | jrep
  /-- R620: The holder takes a peer's HIGH for the standby branch of the durable watermark. -/
  | jack
  /-- R620: A standby sends JACK with its HIGH at least every 200 µs while HIGH advances. -/
  | jackSend
  /-- R623: Received vote digests are compared, agreeing outputs, or making the unit odd or the triad split. -/
  | digest
  /-- R622: Every DIGEST_US, or with 1,022 waiting, the unit sends its vote digests. -/
  | digestSend
  /-- R619: A peer's request for journal, checkpoint or outbox data is answered with XFER frames. -/
  | xreq
  /-- R636: Transferred journal entries, checkpoint parts or outbox records are appended or stored. -/
  | xfer
  /-- R614: A management read over the chain is performed under Seif rights and answered with MGMT_RSP. -/
  | mgmtRd
  /-- R614: A management write over the chain is performed under Seif rights and answered with MGMT_RSP. -/
  | mgmtWr
  /-- R614: A management response reaches the tool on the maintenance port. -/
  | mgmtRsp
  /-- R612: A CMD frame is opened on Q7, forwarded to the holder, or relayed. -/
  | seifCmd
  /-- R701: A journaled IMAGE block is stored into the current transfer; the last block triggers judgement and the NOR write. -/
  | image
  /-- R629: TOKEN_N has been high 2 ms plus the unit's order slot; the unit samples it and asserts its driver if still high. -/
  | tokenClaim (dt : Nat) (high : Bool) (highFor : Nat)
  /-- R630: A present peer does not answer within CATCHUP_MS, and the holder proceeds. -/
  | catchupTimeout
  /-- R631: A write of 1 to SEF_TOKEN.KICK restarts the token watchdog. -/
  | sefKick (w : Who)
  /-- R631: 25 ms pass without a kick; the driver is released and the main domain resets 10 ms later. -/
  | tokenWatchdog
  /-- R633: A write of 1 to SEF_TOKEN.RELEASE gives up the token and starts resynchronisation. -/
  | sefRelease (w : Who)
  /-- R632: TOKEN_N has been low 50 ms with no holder, so members record a token fault and wait. -/
  | tokenFault (dt : Nat)
  /-- R634: SEF_ROLE.ACTIVE differs from the driver state and is corrected within 1 ms. -/
  | roleConflict
  /-- R636: A unit fetches journal or checkpoint from a peer, restores and returns to STANDBY. -/
  | resync
  /-- R654: VIO3 crosses V_WARN or PFAIL_N falls; the Khamsin sequence holds rings, journals SUP_WARN, flushes, writes the outage record and sends last gasps. -/
  | supplyWarning (dt : Nat) (pfail : Bool) (steps : Fin 7)
  /-- R662: VIO3 falls below V_LOCK and the Oasis bridge locks. -/
  | bridgeLock (dt : Nat)
  /-- R651: VIO3 falls below V_RESET; the main domain resets and the Oasis switches to VBAT. -/
  | supplyReset (dt : Nat)
  /-- R659: VIO3 holds above V_OK for 10 ms before reset; the bridge unlocks, SUP_DIP is journaled and the rings are released. -/
  | dipEnd (dt : Nat)
  /-- R648: A PLL loses lock; a clock fault is recorded and its links, operation or domain are taken down. -/
  | pllUnlock (dt : Nat) (n : Fin 4)
  /-- R668: The OFF_MS hold-off after a V_RESET ends and PWRON_CTL is released. -/
  | pwronHoldEnd
  /-- R669: WAKE_N low for 10 ms releases PWRON_CTL at once. -/
  | wakeN (dt : Nat)
  /-- R665: On VBAT, VBAT falls below 1.80 V and the comparator latches TIME_LOST. -/
  | vbatLatch (dt : Nat)
  /-- R664: VBAT falls below 1.50 V or Oasis power is first applied, and every OAS register resets. -/
  | oasisReset (dt : Nat)
  /-- R667: Every 64 s on VIO3 the comparator measures VBAT and flags it when low. -/
  | vbatMeasure (mv : Fin 4096)
  /-- R671: Every 10 ms the junction is read and MAX_AWAKE is lowered or raised. -/
  | thermalGovernor (tj : Int)
  /-- R693: The recovery request returns RCAUSE, LC, SVN, the pointer table and UNIT_ID. -/
  | status
  /-- R693: The recovery request writes firmware data into a slot of the NOR. -/
  | writeFw (slot : Nat) (off : Nat) (data : Bytes)
  /-- R693: The recovery request writes configuration data into the NOR. -/
  | writeCfg (off : Nat) (data : Bytes)
  /-- R693: The recovery request judges a slot and makes it the preferred slot on trial. -/
  | commitFw (slot : Nat)
  /-- R693: The recovery request judges the configuration image in the NOR. -/
  | checkCfg
  /-- R693: The recovery request resets the main domain after its answer. -/
  | restart
  /-- R693: The recovery request carries a signed life-cycle command and returns its status. -/
  | lcCmd (block : Bytes)
  /-- R710: The recovery request starts a replay from a checkpoint and journal span, comparing or exporting. -/
  | replay (order : Bytes)
  /-- R712: The recovery request reads bytes of the replay report. -/
  | replayRead (off : Nat) (len : Nat)
  /-- R76: A read of a _LO register of a 64-bit pair latches its _HI half for the next _HI read. -/
  | loRegisterRead (w : Who) (addr : Word)
  /-- R605: A Seif link completes training and comes up, setting SEF_IRQ.LINK and making the unit resend ENUM on DN. -/
  | linkTrained (dt : Nat) (link : Fin 2)
  /-- R648: An unlocked PLL regains lock, and the SGMII and Seif links it took down may run again. -/
  | pllRelock (dt : Nat) (n : Fin 4)
  /-- R384: A predicted zero crossing of a phase passes with no accepted edge, counting toward the 4 misses that lose lock. -/
  | zcMissingCrossing (phase : Fin 3) (heard : PulseEnergy)
  /-- R303: No rising crossing of any present phase arrives within the accepted period, so the front end falls back to nominal timing and sends ZC_LOST. -/
  | noZc (xs : List FeSample)
  /-- R402: The coordinator receives a short ACK to a frame it sent and ends the frame's attempts, or treats BUSY as no ACK. -/
  | plcShortAckReceive (dt : Nat) (phase : Fin 3) (heard : List PulseEnergy)
  /-- R443: Duplicate address detection of a SLAAC address ends, putting the address in use or setting NET_IRQ.DAD_FAIL. -/
  | duplicateAddressDetection (ok : Bool)
  /-- R440: A learned source address in the bridge table reaches its 300 s ageing time and is removed. -/
  | bridgeAgeing
  /-- R482: Device time reaches the AT of a leap entry; the TAI-UTC offset in force changes and device code writes OAS_UTC. -/
  | leapInstant
  /-- R576: A block or superblock erase ends and the superblock becomes free, or becomes a Khamsin reserve superblock. -/
  | eraseComplete (sb : Nat)
  /-- R469: A clause 22 MDIO frame ends, NET_MDIO.GO clears and read data is returned. -/
  | mdioFrameDone (dt : Nat) (data : Fin 65536)
  /-- R61: Device time passes the high-water boundary after a backward set, so stamps stop carrying REGRESSED and JSQ_STAT.REGRESSED clears. -/
  | regressedEnd
  /-- R466: A port receives a PAUSE frame and, with RXPAUSE set, pauses its egress, stalling Q6 for the device port. -/
  | pauseReceive (dt : Nat) (port : Fin 2) (quanta : Fin 65536)
  /-- R466: The pause time of a received PAUSE runs out and the paused egress resumes. -/
  | pauseExpiry (port : Fin 2)
  /-- R590: REPEAT_S after a full record ends and the recorder stores the short-form repeat record it has folded. -/
  | repeatWindowEnd
  deriving DecidableEq, Repr

end Sys2Proof
end

