-- ==== Sys2Proof/Machine/CfgTypes.lean ====
section
/-! DEFINITION. The sections of the configuration image as the boot ROM applies them (R684): plain data read from their
bodies, one structure per section the running unit consults after start. -/
namespace Sys2Proof.Machine

/-- The role of the unit (R2, R3). -/
inductive Role where
  | none | field | head
  deriving DecidableEq, Repr

/-- A class entry of the VALID section (R189). -/
structure ClassEnt where
  kind     : Nat := 0
  unit     : Nat := 0
  bidir    : Bool := false
  level    : Bool := false
  profile  : Bool := false
  low      : Nat := 0
  high     : Nat := 0
  modulus  : Nat := 0
  profMax  : Nat := 0
  minStep  : Nat := 0
  maxStep  : Nat := 0
  levelMin : Int := 0
  levelMax : Int := 0
  deriving DecidableEq, Repr

/-- The daylight-saving rule (R212). -/
structure Dst where
  en     : Bool := false
  save   : Int := 0
  sMonth : Nat := 0
  sWeek  : Nat := 0
  sWday  : Nat := 0
  sMin   : Nat := 0
  eMonth : Nat := 0
  eWeek  : Nat := 0
  eWday  : Nat := 0
  eMin   : Nat := 0
  deriving DecidableEq, Repr

/-- A season entry (R213). -/
structure Season where
  month : Nat
  day   : Nat
  week  : List Nat
  deriving DecidableEq, Repr

/-- A day profile (R214): start band and the switch points in use as (minute, band). -/
structure DayProf where
  startBand : Nat
  sw        : List (Nat × Nat)
  deriving DecidableEq, Repr

/-- A special day (R215). -/
structure Special where
  year    : Nat
  month   : Nat
  day     : Nat
  profile : Nat
  deriving DecidableEq, Repr

/-- The TARIFF section (R211). -/
structure Tariff where
  demLen   : Nat := 0
  inclInc  : Bool := false
  perMode  : Nat := 0
  perDay   : Nat := 0
  perHour  : Nat := 0
  perNdays : Nat := 0
  stdOff   : Int := 0
  classMask : Nat := 0
  dst      : Dst := {}
  seasons  : List Season := []
  profs    : List DayProf := []
  specials : List Special := []
  deriving DecidableEq, Repr

/-- A balance group entry (R267). -/
structure BalGroup where
  en       : Bool := false
  phase    : Bool := false
  feederRef : Bool := false
  steps    : Bool := false
  kind     : Nat := 0
  len      : Nat := 0
  grace    : Nat := 0
  feedPh   : Nat := 0
  alarm    : Nat := 0
  fixedLoss : Nat := 0
  lossPpm  : Nat := 0
  tolPpm   : Nat := 0
  coverMin : Nat := 0
  matchMs  : Nat := 0
  tolW     : Nat := 0
  tolPct   : Nat := 0
  consec   : Nat := 0
  deriving DecidableEq, Repr

/-- A field-result reference (R268). -/
structure Fref where
  sysaddr : Nat
  field   : Nat
  head    : Nat
  deriving DecidableEq, Repr

/-- The BALANCE section (R266). -/
structure Balance where
  groups : List BalGroup := []
  frefs  : List Fref := []
  deriving DecidableEq, Repr

/-- A radio class entry (R378). -/
structure RadClass where
  pollDiv  : Nat := 0
  maxF     : Nat := 0
  form     : Bool := false
  rch      : Nat := 0
  missLim  : Nat := 0
  relay    : Bool := false
  listenMs : Nat := 0
  listenFt : Nat := 0
  txCh     : Nat := 0
  txMode   : Nat := 0
  cdGapUs  : Nat := 0
  uInit    : Nat := 0
  uMin     : Nat := 0
  guardMs  : Nat := 0
  deriving DecidableEq, Repr

/-- A leap entry of the TIME section (R482): the second of device time and the offset from then on. -/
structure Leap where
  at_    : Nat
  offset : Nat
  deriving DecidableEq, Repr

/-- What the NET section gives beyond the NET registers (R467); addresses as their bytes. -/
structure NetCfg where
  ip6      : Bytes := []
  plen6    : Nat := 0
  hopLimit : Nat := 0
  plen4    : Nat := 0
  gw4      : Bytes := []
  headIp6  : Bytes := []
  headIp4  : Bytes := []
  gw6      : Bytes := []
  phyA     : Nat := 0
  phyB     : Nat := 0
  deriving DecidableEq, Repr

end Sys2Proof.Machine
end

