-- ==== Sys2Proof/Machine/CtxTypes.lean ====
section
/-! DEFINITION. The plain data of the journal, the endpoint slots and everything a checkpoint holds (R70): the types of
chapters 01 to 07, 11 and 12 of the spec. -/
namespace Sys2Proof.Machine

/-! ### The journal (R30, R35 to R38) -/

/-- The kinds of journal entry (R30). -/
inductive Kind where
  | radFrame | plcFrame | netPkt | seifFrame | mtrBlock | mtrEvent | evtCapture
  | bndDemand | bndBalance | bndTariff | bndPeriod
  | supWarn | supDip | supRestore | mgmtCmd | timeSet | timeState | drbgDraw | tamper
  | start | ckpt | closeCursor | ringLoss
  deriving DecidableEq, Repr

/-- The class of an entry (R37). -/
inductive EClass where
  | normal | dup | orphan | busy | capacity | trunc
  deriving DecidableEq, Repr

/-- The source word of an entry (R36). -/
structure Src where
  slot   : Nat := 0
  slotV  : Bool := false
  chan   : Nat := 0
  origin : Nat := 0
  deriving DecidableEq, Repr

/-- The flags of an entry (R38). -/
structure EFlags where
  timeUnsure : Bool := false
  late       : Bool := false
  regressed  : Bool := false
  held       : Bool := false
  ring       : Nat := 0
  deriving DecidableEq, Repr

/-- A journal entry (R35); length, padding and CRC follow from these fields. -/
structure Entry where
  kind    : Kind
  cls     : EClass := .normal
  jsn     : Nat
  stamp   : Nat
  src     : Src := {}
  flags   : EFlags := {}
  payload : Bytes := []
  deriving DecidableEq, Repr

/-! ### Slots (R151 to R154) -/

/-- The state of an endpoint slot (R152). -/
inductive SlotState where
  | free | rostered | joining | active | decom
  deriving DecidableEq, Repr

/-- LAST_INDEX of a slot (R151). -/
structure LastIndex where
  index     : Nat := 0
  valid     : Bool := false
  estimated : Bool := false
  rollover  : Bool := false
  deriving DecidableEq, Repr

/-- A parked frame: its sequence, its entry and the mirage record it emitted, if any (R130, R133). -/
structure Park where
  seq    : BitVec 32
  entry  : Entry
  mirage : Option Bytes := none
  deriving DecidableEq, Repr

/-- An endpoint slot with its gate entry and its fault bit (R148, R151 to R154). -/
structure Slot where
  lastSeq : BitVec 32 := 0
  dupwin  : BitVec 32 := 0
  state   : SlotState := .free
  unreach : Bool := false
  phaseUnk : Bool := false
  medium  : Nat := 0
  rekey   : Bool := false
  keyExh  : Bool := false
  group   : Nat := 0
  member  : Bool := false
  ref     : Bool := false
  short   : Nat := 0
  cls     : Nat := 0
  eui     : Nat := 0
  li      : LastIndex := {}
  drift   : Int := 0
  driftUnc : Nat := 0
  wakeS   : Nat := 0
  guard   : Nat := 0
  unPolls : Nat := 0
  unTrains : Nat := 0
  parent  : Nat := 0
  parentV : Bool := false
  hops    : Nat := 0
  phase   : Nat := 0
  quality : Nat := 0
  keyUse  : Nat := 0
  wkey    : Bytes := []
  acc     : List Nat := []
  maxDem  : Nat := 0
  maxDemBand : Nat := 0
  incSeen : Bool := false
  tamper  : Nat := 0
  driftLoss : Nat := 0
  epstat  : Nat := 0
  pushId  : Nat := 0
  pushKind : Nat := 0
  pushAtt : Nat := 0
  pushActive : Bool := false
  next    : BitVec 32 := 0
  parks   : List Park := []
  lastJsn : Nat := 0
  fault   : Bool := false
  decomEpoch : Nat := 0
  deriving DecidableEq, Repr

/-! ### Fences, tariff and billing aggregate state -/

/-- A boundary entry as the slots meet it (R131). -/
structure Fence where
  kind  : Kind
  jsn   : Nat
  stamp : Nat
  subj  : Nat
  held  : Bool := false
  initial : Bool := false
  deriving DecidableEq, Repr

/-- A band and season that came into force with a BND_TARIFF (R225). -/
structure BandMark where
  jsn    : Nat
  stamp  : Nat
  band   : Nat
  season : Nat
  deriving DecidableEq, Repr

/-- What an entry marks of the intervals of time (R237, R289): an outage; a step of time other than the first PTP step; the first PTP step, forward; the
demand interval open in JSN order at a step, or the span a forward step crosses. -/
inductive MarkKind where
  | outage | step | firstStep | openDemand
  deriving DecidableEq, Repr

/-- A span of device time that an entry marks (R237, R289). -/
structure Mark where
  jsn  : Nat
  kind : MarkKind
  a    : Nat
  b    : Nat
  deriving DecidableEq, Repr

/-- What the FEEDER task captures at a period fence (R256), or at the JSN of a READOUT (R257): the period or the JSN, and the JSN of the last interval
that updated nothing (R317). -/
structure FeederCap where
  period  : Nat
  reg     : List Nat := []
  maxDem  : Nat := 0
  band    : Nat := 0
  inc     : Bool := false
  unsureJsn : Nat := 0
  deriving DecidableEq, Repr

/-- An open period close (R242 to R245). -/
structure Close where
  subj    : Nat
  jsn     : Nat
  stamp   : Nat
  cursor  : Nat := 0
  closed  : Nat := 0
  recs    : Bytes := []
  started : Bool := false
  draw    : Option (Nat × Bytes) := none
  deriving DecidableEq, Repr

/-- An entry of the close stage (R243, R244); `none` is an entry marked NONE. -/
structure StageEnt where
  epoch : Nat
  slot  : Nat
  body  : Option Bytes
  deriving DecidableEq, Repr

/-- A CLOSE_NOW that waits (R241, R242): its close instant, or none while time is unsure. -/
structure CloseNowWait where
  jsn     : Nat
  instant : Option Nat
  deriving DecidableEq, Repr

/-! ### Balance cells (R272 to R287) -/

/-- A feeder step of a cell (R284). -/
structure FStep where
  phase   : Nat
  w       : Int
  instant : Nat
  jsn     : Nat
  deriving DecidableEq, Repr

/-- An endpoint step of a cell (R284). -/
structure EStep where
  phase   : Nat
  w       : Int
  instant : Nat
  slot    : Nat
  jsn     : Nat
  deriving DecidableEq, Repr

/-- An open cell of a balance group: one grid interval, named by its start in seconds of local
standard time (R270, R272). -/
structure Cell where
  t0       : Int
  supply   : Int := 0
  members  : Int := 0
  phSup    : List Int := [0, 0, 0]
  phMem    : List Int := [0, 0, 0]
  unkMem   : Int := 0
  lateSup  : Int := 0
  lateMem  : Int := 0
  cover    : Nat := 0
  refCover : Nat := 0
  feedCover : Nat := 0
  contrib  : Nat := 0
  skipped  : Nat := 0
  unsure   : Bool := false
  regressed : Bool := false
  fsteps   : List FStep := []
  esteps   : List EStep := []
  stepOvf  : Bool := false
  tampers  : Nat := 0
  feedTamper : Bool := false
  deriving DecidableEq, Repr

/-- The aggregate state of one balance group: its open cells, RUN (R287), the identities of the field results taken
(R463) and the members snapshotted as slots passed a BND_BALANCE fence (R280). -/
structure GroupAgg where
  group : Nat
  cells : List Cell := []
  run   : Nat := 0
  taken : List (Nat × Nat × Nat) := []
  deriving DecidableEq, Repr

/-- What a member slot was when it met a BND_BALANCE fence (R131, R280). -/
structure MemberSnap where
  fence  : Nat
  slot   : Nat
  group  : Nat
  counts : Bool
  ref    : Bool
  deriving DecidableEq, Repr

/-! ### Feeder aggregate state (R314 to R319) -/

/-- The FEEDER task's aggregate state (R314 to R319). -/
structure FeederAgg where
  reg      : List Nat := []
  rem      : List Nat := []
  demSum   : Nat := 0
  demUnsure : Bool := false
  unsureJsn : Nat := 0
  maxDem   : Nat := 0
  band     : Nat := 0
  inc      : Bool := false
  imp      : List Nat := []
  exp      : List Nat := []
  remCtr   : List Nat := []
  lastBseq : Option Nat := none
  lastJsn  : Nat := 0
  deriving DecidableEq, Repr

/-! ### Pushes and endpoint images (R424 to R438) -/

/-- The state of a push (R424 to R431). -/
inductive PushState where
  | waiting | current
  deriving DecidableEq, Repr

/-- A push in a slot's push queue (R424). -/
structure Push where
  slot    : Nat
  id      : Nat
  maxAtt  : Nat
  dtype   : Nat
  body    : Bytes
  cmdJsn  : Nat
  cmdStamp : Nat
  state   : PushState := .waiting
  attempts : Nat := 0
  dcnt    : Nat := 0
  auto    : Bool := false
  displaced : Bool := false
  deriving DecidableEq, Repr

/-- The state of an endpoint image (R436, R437). -/
inductive ImgState where
  | loading | ready | failed
  deriving DecidableEq, Repr

/-- An endpoint image descriptor with its blocks (R436, R437). -/
structure EpImage where
  image  : Nat
  blocks : Nat
  length : Nat
  digest : Bytes
  classMask : Nat
  key    : Bytes
  state  : ImgState := .loading
  data   : List (Nat × Bytes) := []
  deriving DecidableEq, Repr

/-- A block pump range (R438). -/
structure Pump where
  image  : Nat
  round  : Nat
  medium : Nat
  first  : Nat
  last   : Nat
  ttl    : Nat
  deriving DecidableEq, Repr

/-! ### Downlink counters and windows (R458, R459) -/

/-- The window of received counters under the current head-to-unit key (R458, R519). -/
structure CtrWindow where
  any  : Bool := false
  high : Nat := 0
  mask : BitVec 64 := 0
  deriving DecidableEq, Repr

/-- A named field unit or diagnostic source and its next expected number (R454, R455). -/
structure NextFor where
  sysaddr : Nat
  origin  : Nat
  diag    : Bool
  session : Nat := 0
  next    : Nat := 0
  deriving DecidableEq, Repr

/-- An authenticated CMD whose MGMT_CMD is not yet journaled (R459): the entry that carried it, its SRC_JSN, its stamp and its
command block. -/
structure Unsub where
  jsn   : Nat
  src   : Nat
  stamp : Nat
  cmd   : Bytes
  deriving DecidableEq, Repr

/-- Where a unit's own time begins: the stamp of the START that found no context or took it over, replaced by the stamp of the TIME_STATE entry that
re-establishes time when the unit started unsure; with the hash of the image in force (R272, R708). -/
structure Began where
  hash   : Bytes
  stamp  : Nat
  unsure : Bool
  deriving DecidableEq, Repr

/-- The context: everything a checkpoint holds (R70): the slots with gates and parked frames, and the aggregate state. -/
structure Ctx where
  slots     : List (Nat × Slot) := []
  fences    : List Fence := []
  bands     : List BandMark := []
  marks     : List Mark := []
  openPer   : Nat := 1
  epoch     : Nat := 1
  closes    : List Close := []
  stage     : List StageEnt := []
  caps      : List FeederCap := []
  readCaps  : List FeederCap := []
  lastRo    : Nat := 0
  began     : Option Began := none
  closeNow  : Option CloseNowWait := none
  heldPers  : List Nat := []
  nextPer   : Nat := 1
  groups    : List GroupAgg := []
  snaps     : List MemberSnap := []
  feeder    : FeederAgg := {}
  pushes    : List Push := []
  images    : List EpImage := []
  pumps     : List Pump := []
  cands     : List (Nat × Bytes) := []
  win       : CtrWindow := {}
  sigGen    : Nat := 0
  sigHist   : List (Nat × Nat) := []
  closeLast : Nat := 0
  h2uGen    : Nat := 0
  nextRsn   : Nat := 0
  acked     : Nat := 0
  nextVsn   : Nat := 0
  nextFor   : List NextFor := []
  hwb       : Nat := 0
  regr      : Bool := false
  closeEnds : List (Nat × Nat) := []
  unsubmitted : List Unsub := []
  provs     : List (Nat × Nat × Nat) := []
  deriving DecidableEq, Repr

end Sys2Proof.Machine
end

