-- ==== Sys2Proof/Machine/Bytes.lean ====
section
/-! DEFINITION. Bit fields, byte order, padding and the check codes that the formats of the spec use: little-endian
fields (R16), the CRC-32 of journal entries and images (R35), and the sparse maps in one canonical form that hold
registers, memory and slots. -/
namespace Sys2Proof.Machine

/-! ### Sparse maps in one canonical form -/

/-- The value at a key; an unlisted key holds `d key`. -/
def sget {β : Type} (d : Nat → β) : List (Nat × β) → Nat → β
  | [], k => d k
  | (a, b) :: r, k => if a = k then b else sget d r k

/-- Write a key. Keys stay strictly rising, and an entry equal to the unlisted value is not kept. -/
def sput {β : Type} [DecidableEq β] (d : Nat → β) : List (Nat × β) → Nat → β → List (Nat × β)
  | [], k, v => if v = d k then [] else [(k, v)]
  | (a, b) :: r, k, v =>
    if k < a then (if v = d k then (a, b) :: r else (k, v) :: (a, b) :: r)
    else if k = a then (if v = d k then r else (k, v) :: r)
    else (a, b) :: sput d r k v

/-- The canonical form: keys strictly rising, each above `lo`, no entry equal to the unlisted value. -/
def swfFrom {β : Type} [DecidableEq β] (d : Nat → β) : Option Nat → List (Nat × β) → Bool
  | _, [] => true
  | lo, (a, b) :: r =>
    (match lo with | none => true | some l => decide (l < a)) && decide (b ≠ d a) && swfFrom d (some a) r

/-- The canonical form of a sparse map. -/
def swf {β : Type} [DecidableEq β] (d : Nat → β) (m : List (Nat × β)) : Bool := swfFrom d none m

/-! ### Byte order -/

/-- `n` bytes of `v`, least significant first (R16). -/
def le : Nat → Nat → Bytes
  | 0, _ => []
  | n + 1, v => BitVec.ofNat 8 v :: le n (v / 256)

/-- The number that bytes spell, least significant first (R16). -/
def leVal : Bytes → Nat
  | [] => 0
  | b :: r => b.toNat + 256 * leVal r

/-- `n` bytes of `v`, most significant first (keys, EUI-64 and signature halves; R151, R253). -/
def be (n v : Nat) : Bytes := (le n v).reverse

/-- The number that bytes spell, most significant first. -/
def beVal (bs : Bytes) : Nat := leVal bs.reverse

/-- `n` bytes of a signed number in two's complement, least significant first. -/
def leI (n : Nat) (v : Int) : Bytes := le n (v % ((2 : Int) ^ (8 * n))).toNat

/-- The signed reading of an `n`-bit number. -/
def signed (n v : Nat) : Int := if v % 2 ^ n < 2 ^ (n - 1) then (v % 2 ^ n : Nat) else ((v % 2 ^ n : Nat) : Int) - (2 ^ n : Nat)

/-- Bytes `off` to `off + n - 1`; a byte past the end reads 0. -/
def sub (off n : Nat) (bs : Bytes) : Bytes :=
  let r := (bs.drop off).take n
  r ++ List.replicate (n - r.length) 0

/-- The little-endian field of `n` bytes at `off`. -/
def fld (off n : Nat) (bs : Bytes) : Nat := leVal (sub off n bs)

/-- The big-endian field of `n` bytes at `off`. -/
def fldB (off n : Nat) (bs : Bytes) : Nat := beVal (sub off n bs)

/-- The signed little-endian field of `n` bytes at `off`. -/
def fldI (off n : Nat) (bs : Bytes) : Int := signed (8 * n) (fld off n bs)

/-- Exactly `n` bytes: cut, or filled with zero bytes. -/
def fit (n : Nat) (bs : Bytes) : Bytes := sub 0 n bs

/-- Fill with zero bytes to a multiple of `m`. -/
def padTo (m : Nat) (bs : Bytes) : Bytes := bs ++ List.replicate ((m - bs.length % m) % m) 0

/-- Bits `hi` down to `lo` of a number (R15). -/
def bits (hi lo v : Nat) : Nat := v / 2 ^ lo % 2 ^ (hi + 1 - lo)

/-- Bit `k` of a number. -/
def bit (k v : Nat) : Bool := v / 2 ^ k % 2 == 1

/-- 1 or 0 at bit `k`. -/
def flag (k : Nat) (b : Bool) : Nat := if b then 2 ^ k else 0

/-- Replace bits `hi` down to `lo` of `v` by `x`. -/
def setBits (hi lo v x : Nat) : Nat := v - bits hi lo v * 2 ^ lo + x % 2 ^ (hi + 1 - lo) * 2 ^ lo

/-- Bytes to 32-bit words, little-endian within each word, unused bytes 0 (R82). -/
def toWords : Nat → Bytes → List Word
  | 0, _ => []
  | n + 1, bs => BitVec.ofNat 32 (fld 0 4 bs) :: toWords n (bs.drop 4)

/-- The words that hold a byte string. -/
def toWs (bs : Bytes) : List Word := toWords ((bs.length + 3) / 4) bs

/-- Words back to bytes, little-endian within each word. -/
def ofWs : List Word → Bytes
  | [] => []
  | w :: r => le 4 w.toNat ++ ofWs r

/-- Division rounding up. -/
def ceilDiv (a b : Nat) : Nat := (a + b - 1) / b

/-- Addition that saturates at `m`. -/
def satAdd (m a b : Nat) : Nat := if a + b ≤ m then a + b else m

/-- The signed difference of two 32-bit sequences in serial-number arithmetic (R46). -/
def serialDiff (a b : BitVec 32) : Int := (a - b).toInt

/-- Replace bytes of a byte string from an offset on. -/
def overwrite (b : Bytes) (off : Nat) (d : Bytes) : Bytes := b.take off ++ d ++ b.drop (off + d.length)

/-! ### Check codes -/

/-- One bit of the reflected CRC-32 of IEEE 802.3. -/
def crc32Bit (c : BitVec 32) : BitVec 32 := if c.getLsbD 0 then (c >>> 1) ^^^ 0xEDB88320#32 else c >>> 1

/-- One byte of the reflected CRC-32. -/
def crc32Byte (c : BitVec 32) (b : Byte) : BitVec 32 :=
  crc32Bit (crc32Bit (crc32Bit (crc32Bit (crc32Bit (crc32Bit (crc32Bit (crc32Bit (c ^^^ b.setWidth 32))))))))

/-- CRC-32 of IEEE 802.3 (R35). -/
def crc32 (bs : Bytes) : Nat := (bs.foldl crc32Byte 0xFFFFFFFF#32 ^^^ 0xFFFFFFFF#32).toNat

/-- A CRC of width `w`, most significant bit first, polynomial `poly` and start `ini`, over a bit string. -/
def crcBits {w : Nat} (poly : BitVec w) : BitVec w → List Bool → BitVec w
  | c, [] => c
  | c, b :: r => crcBits poly (if c.msb != b then (c <<< 1) ^^^ poly else c <<< 1) r

end Sys2Proof.Machine
end

