-- ==== Sys2Proof/Machine/Phy.lean ====
section
/-! DEFINITION. What frames look like on the radio and on the power line: the SUN FSK frame (R332, R333), and the power line's symbols, convolutional
code, interleaving, decoding and pulses (R386 to R393, R397, R414). -/
namespace Sys2Proof.Machine

/-- The bits of bytes, each byte least significant bit first, in ascending order (R390). -/
def bytesBitsL (bs : Bytes) : List Bool := bs.flatMap fun b => (List.range 8).map fun i => b.getLsbD i

/-- The number that bits spell, least significant first. -/
def bitsVal : List Bool → Nat
  | [] => 0
  | b :: r => (if b then 1 else 0) + 2 * bitsVal r

/-- So many low bits of a number, least significant first (R390). -/
def numBits (n v : Nat) : List Bool := (List.range n).map fun i => bit i v

/-- Bytes from bits, each byte least significant bit first. -/
def bitsBytes : Nat → List Bool → Bytes
  | 0, _ => []
  | n + 1, l => BitVec.ofNat 8 (bitsVal (l.take 8)) :: bitsBytes n (l.drop 8)

/-! ### The radio frame (R332) -/

/-- The PHR of a SUN FSK frame: mode switch, the FCS type, whitening and the PSDU's length with its FCS (R332, R334). -/
structure Phr where
  modeSwitch : Bool
  fcs4 : Bool
  dw   : Bool
  len  : Nat
  deriving DecidableEq, Repr

/-- One bit through the reflected CRC-16 of ITU-T. -/
def crc16Bit (c : BitVec 16) : BitVec 16 := if c.getLsbD 0 then (c >>> 1) ^^^ 0x8408#16 else c >>> 1

/-- The FCS of a PSDU, 4 or 2 bytes (R332). PRESUMED from IEEE 802.15.4g: the CRC-32 of IEEE 802.3, or the CRC-16 of ITU-T with initial value 0. -/
def radFcs (fcs4 : Bool) (b : Bytes) : Bytes :=
  if fcs4 then le 4 (crc32 b)
  else le 2 (b.foldl (fun (c : BitVec 16) x =>
    crc16Bit (crc16Bit (crc16Bit (crc16Bit (crc16Bit (crc16Bit (crc16Bit (crc16Bit (c ^^^ x.setWidth 16))))))))) 0#16).toNat

/-- The whitening sequence PN9 from a state of 9 bits, newest first. PRESUMED from IEEE 802.15.4g: each bit is the sum of those 9 and 4 before it. -/
def pn9 : Nat → List Bool → List Bool
  | 0, _ => []
  | n + 1, l => let b := l.getD 8 false != l.getD 3 false; b :: pn9 n ((b :: l).take 9)

/-- Whiten a PSDU, or take its whitening off (R332). -/
def whiten (b : Bytes) : Bytes :=
  bitsBytes b.length (List.zipWith (fun x y => x != y) (bytesBitsL b) (pn9 (8 * b.length) (List.replicate 9 true)))

/-- A frame on air: its channel number with its centre in Hz, its mode and power (R325, R329), preamble octets (R333), PHR and PSDU as sent, and the
elapsed times at the RF ball of its first and after its last symbol. -/
structure AirFrame where
  chan  : Nat
  hz    : Nat
  mode  : Nat
  dbm   : Nat
  pre   : Nat
  phr   : Phr
  psdu  : Bytes
  start : Nat
  stop  : Nat
  deriving DecidableEq, Repr

/-- The MAC frame of a PSDU as it came, without its FCS; none when the FCS fails (R332, R352). -/
def psduFrame (fcs4 dw : Bool) (psdu : Bytes) : Option Bytes :=
  let b := if dw then whiten psdu else psdu
  let n := b.length - (if fcs4 then 4 else 2)
  if b.drop n = radFcs fcs4 (b.take n) then some (b.take n) else none

/-! ### The symbols of the power line (R386) -/

/-- The slot of a symbol's two bits: Gray-coded (R386). -/
def slotOf (first second : Bool) : Fin 4 :=
  match first, second with
  | false, false => 0
  | false, true => 1
  | true, true => 2
  | true, false => 3

/-- The pulse centre of a slot about the predicted crossing, in µs (R386). -/
def slotCentre (k : Fin 4) : Int := 160 * (k.val : Int) - 320

/-- The four slot energies of a half-cycle (R388). -/
def slotEnergy (e : PulseEnergy) (k : Fin 4) : Nat :=
  match k with | 0 => e.e0 | 1 => e.e1 | 2 => e.e2 | 3 => e.e3

/-- The hard symbol of a half-cycle: the slot with most energy, the lowest on a tie (R388). DESIGN CHOICE for the tie. -/
def hardSlot (e : PulseEnergy) : Fin 4 :=
  let m := max (max e.e0 e.e1) (max e.e2 e.e3)
  if e.e0 = m then 0 else if e.e1 = m then 1 else if e.e2 = m then 2 else 3

/-- Whether a slot's energy exceeds its noise floor, the mean of `n` energies that add up to `sum`, by a threshold in 0.25 dB units (R388). -/
def exceeds (e sum n thr : Nat) : Bool := decide (sum ^ 40 * 10 ^ thr < (n * e) ^ 40)

/-! ### The convolutional code (R390) -/

/-- The sum of a number's bits modulo 2. -/
def parity : Nat → Nat → Bool
  | 0, _ => false
  | n + 1, v => (v % 2 == 1) != parity n (v / 2)

/-- The symbol of an encoder window of 7 bits, the newest the most significant: generators 171 and 133 octal, the first the symbol's first bit (R390).
PRESUMED: the leftmost bit of a generator taps the newest bit. -/
def convSlot (w : Nat) : Fin 4 := slotOf (parity 7 (w &&& 0o171)) (parity 7 (w &&& 0o133))

/-- Encode bits from a state of 6 bits on (R390). -/
def convFrom : Nat → List Bool → List (Fin 4)
  | _, [] => []
  | st, b :: r => let w := st + (if b then 64 else 0); convSlot w :: convFrom (w / 2) r

/-- Encode a field: its bits, 6 zero tail bits, and zero bits up to `n` symbols (R390, R391). -/
def convCode (n : Nat) (l : List Bool) : List (Fin 4) := convFrom 0 (l ++ List.replicate (n - l.length) false)

/-- A path of the decoder: the energy it gathered and its bits, newest first. -/
abbrev ConvPath := Option (Nat × List Bool)

/-- The better of two paths into a state; the first on a tie. -/
def betterPath (a b : ConvPath) : ConvPath :=
  match a, b with
  | some x, some y => if x.1 < y.1 then b else a
  | some _, none => a
  | none, _ => b

/-- One symbol of the Viterbi decoder over the 64 states: a path gathers the energy of the slot its encoder would have sent (R388, R390). -/
def viterbiStep (ps : List ConvPath) (e : PulseEnergy) : List ConvPath :=
  (List.range 64).map fun n =>
    let b := decide (32 ≤ n)
    let from_ (st : Nat) : ConvPath := (ps.getD st none).map fun x => (x.1 + slotEnergy e (convSlot (st + (if b then 64 else 0))), b :: x.2)
    betterPath (from_ (2 * n % 64)) (from_ (2 * n % 64 + 1))

/-- Decode symbols of a field that starts and, after its tail, ends in state 0: its bits, tail included, on the path of most energy. DESIGN CHOICE: the
soft metric of a path is the sum of its slots' energies. -/
def viterbi (es : List PulseEnergy) : List Bool :=
  match ((es.foldl viterbiStep ((some (0, []) : ConvPath) :: List.replicate 63 none)).getD 0 none) with
  | some x => x.2.reverse
  | none => []

/-! ### Interleaving (R391) -/

/-- A block of coded symbols in the order of sending: position `p` sends coded symbol (p mod C) × 16 + p div C (R391). -/
def interBlock {α : Type} (d : α) (l : List α) : List α :=
  let c := l.length / 16
  (List.range l.length).map fun p => l.getD (p % c * 16 + p / c) d

/-- A received block in coded order: coded symbol `j` came at position (j mod 16) × C + (j div 16) (R391). -/
def deinterBlock {α : Type} (d : α) (l : List α) : List α :=
  let c := l.length / 16
  (List.range l.length).map fun j => l.getD (j % 16 * c + j / 16) d

/-- Apply a block's order to each block of 480 symbols (R391). -/
def blocks480 {α : Type} (f : List α → List α) : Nat → List α → List α
  | 0, _ => []
  | n + 1, l => if l = [] ∨ l.length = 0 then [] else f (l.take 480) ++ blocks480 f n (l.drop 480)

/-! ### Frames on the wire (R392, R393, R397) -/

/-- N_PAD of a frame whose MPDU has so many bytes, FCS included (R393). -/
def nPad (len : Nat) : Nat := (8 * len + 6 + 15) / 16 * 16

/-- CRC-4 over bits 11 to 0 of a PHR in the order of sending (R393). DESIGN CHOICE for the order of the bits. -/
def phrCrc (v : Nat) : Nat := (crcBits 0x3#4 0#4 (numBits 12 v)).toNat

/-- The PHR of a frame: LEN, bits 11 to 8 zero, CRC-4 (R393). -/
def plcPhr (len : Nat) : Nat := len + phrCrc len * 4096

/-- LEN of a PHR that passes its check and declares a length in range; none otherwise (R393). -/
def phrLen (v : Nat) : Option Nat :=
  if bits 15 12 v = phrCrc (bits 11 0 v) ∧ 19 ≤ bits 7 0 v then some (bits 7 0 v) else none

/-- The preamble (R392). -/
def plcPreamble : List (Fin 4) := [0, 3, 0, 3, 0, 3, 0, 3]

/-- The symbols of a frame: preamble, SFD, PHR and body, for an MPDU without its FCS (R390 to R394). -/
def plcFrameSlots (mpdu : Bytes) : List (Fin 4) :=
  let m := mpdu ++ le 4 (crc32 mpdu)
  plcPreamble ++ [1, 2, 2, 1] ++ convCode 22 (numBits 16 (plcPhr m.length)) ++
    blocks480 (interBlock 0) 8 (convCode (nPad m.length) (bytesBitsL m))

/-- CHK of a short acknowledgement: CRC-8 over bits 23 to 0 and the 3 bytes of LTX, in the order of sending (R397). DESIGN CHOICE for the order of the
bits. -/
def shortChk (v ltx : Nat) : Nat := (crcBits 0x07#8 0#8 (bytesBitsL (le 3 v ++ le 3 ltx))).toNat

/-- The 32 bits of a short acknowledgement (R397). -/
def shortWord (seq verd : Nat) (dpend : Bool) (ltx : Nat) : Nat :=
  let v := seq % 65536 + verd % 8 * 65536 + flag 19 dpend
  v + shortChk v ltx * 2 ^ 24

/-- The symbols of a short acknowledgement (R392, R397). -/
def plcShortSlots (w : Nat) : List (Fin 4) :=
  plcPreamble ++ [2, 1, 1, 2] ++ interBlock 0 (convCode 48 (numBits 32 w))

/-- The 32 bits of a received short acknowledgement from its 48 symbols (R397). -/
def shortDecode (es : List PulseEnergy) : Nat := bitsVal ((viterbi ((deinterBlock {} (es.take 48)).take 38)).take 32)

/-- Whether two slot streams differ at so many places. -/
def slotsDiffer (a b : List (Fin 4)) : Nat := (List.zipWith (fun x y => if x = y then 0 else 1) a b).sum

/-- What the receiver makes of a frame's symbols from the PHR on (R390, R393, R410): whether the PHR passes, LEN, the MPDU with its FCS, and the hard symbols that
differ from the re-encoded stream. -/
structure PlcDecoded where
  len  : Option Nat
  mpdu : Bytes
  err  : Nat
  deriving DecidableEq, Repr

/-- Decode a frame's symbols from the PHR on (R390, R391, R393, R410). A symbol that is missing counts as one of no energy. -/
def plcDecode (es : List PulseEnergy) : PlcDecoded :=
  let ph := es.take 22 ++ List.replicate (22 - es.length) {}
  let v := bitsVal ((viterbi ph).take 16)
  match phrLen v with
  | none => { len := none, mpdu := [], err := 0 }
  | some len =>
    let n := nPad len
    let body := (es.drop 22).take n ++ List.replicate (n - (es.length - 22)) {}
    let coded := blocks480 (deinterBlock {}) 8 body
    let m := bitsBytes len (viterbi (coded.take (8 * len + 6)))
    let again := convCode 22 (numBits 16 v) ++ blocks480 (interBlock 0) 8 (convCode n (bytesBitsL m))
    { len := some len, mpdu := m, err := slotsDiffer ((ph ++ body).map hardSlot) again }

/-- The energy of the winning slot and of the runner-up. -/
def slotMargin (e : PulseEnergy) : Nat × Nat :=
  let l := (List.range 4).map fun k => slotEnergy e (Fin.ofNat 4 k)
  let w := hardSlot e
  (slotEnergy e w, ((List.range 4).filter fun k => k ≠ w.val).foldl (fun m k => max m (l.getD k 0)) 0)

/-- QUAL: the mean margin of the winning slot over the runner-up in 0.25 dB units, rounded down and saturating at 255 (R410). DESIGN CHOICE for the
rounding. -/
def plcQual (es : List PulseEnergy) : Nat :=
  let w := es.foldl (fun a e => a * (slotMargin e).1) 1
  let r := es.foldl (fun a e => a * (slotMargin e).2) 1
  ((List.range 255).filter fun q => decide (r ^ 40 * 10 ^ ((q + 1) * es.length) ≤ w ^ 40)).length

/-! ### The coupler (R414) -/

/-- One transmitted window: PLC_PHSEL with the times it is set and may change, PLC_TXEN and PLC_TXP with the times they are asserted and released and the
level that asserts them, in device time in units of 2^-28 s (R387, R414). -/
structure PlcWindow where
  phsel   : Nat
  selAt   : Int
  selFree : Int
  enAt    : Int
  enOff   : Int
  enHigh  : Bool
  pulseAt : Int
  pulseOff : Int
  pulseHigh : Bool
  deriving DecidableEq, Repr

end Sys2Proof.Machine
end

