-- ==== Sys2Proof/Machine/BlockTypes.lean ====
section
/-! DEFINITION. The plain data of the hardware blocks outside the checkpoint: rings, sequencer, engine array, release
path, feeder front end and event recorder (chapters 01 to 03, 08, 12 and 15 of the spec). -/
namespace Sys2Proof.Machine

/-! ### Bus replies (R7 to R11) -/

/-- What the last access of a requester was answered with. -/
inductive Reply where
  | none
  | done
  | data (w : Word)
  | busError
  | waiting
  deriving DecidableEq, Repr

/-- One value per requester (R7). -/
structure PerWho (α : Type) where
  dev   : α
  seif  : α
  maint : α
  deriving DecidableEq, Repr

/-! ### Rings (R77 to R107) -/

/-- One write of a producer at its port (R84 to R90). -/
inductive RingOp where
  | open_
  | push (w : Word)
  | close (ty : Nat)
  deriving DecidableEq, Repr

/-- The packet being written: none, a reserved length word at a position with some payload stored and perhaps cut,
or a packet whose open was dropped (R85, R89, R90). -/
inductive OpenSt where
  | closed
  | opened (pos stored : Nat) (cut : Bool)
  | dropped
  deriving DecidableEq, Repr

/-- A hardware ring; `w`, `r` and `vis` count words since reset: next to write, next to read, end of the visible words. `byReg` tells whether the
packet being written comes from device code at the ring's registers or from a hardware source or grain task, and each waiting write says the same of
itself (R79). -/
structure Ring where
  en      : Bool := false
  base    : Nat := 0
  sizeLog2 : Nat := 0
  w       : Nat := 0
  r       : Nat := 0
  vis     : Nat := 0
  opn     : OpenSt := .closed
  pend    : Nat := 0
  dropCnt : Nat := 0
  held    : Bool := false
  byReg   : Bool := false
  waiting : List (Bool × RingOp) := []
  remain  : Nat := 0
  staleT  : Nat := 0
  staleFired : Bool := false
  deriving DecidableEq, Repr

/-! ### Sequencer (R51, R52, R68, R103) -/

/-- An input held during a boundary hold: its ring and its packet, length word first (R103). -/
structure HeldIn where
  ring  : Nat
  stamp : Nat
  pkt   : List Word
  deriving DecidableEq, Repr

/-- A span of device time that has ended, with how its stamps were flagged (R38, R58, R61). -/
structure Span where
  a : Nat
  b : Nat
  unsure    : Bool
  regressed : Bool
  deriving DecidableEq, Repr

/-- A boundary hold in progress (R51): the boundary instant, the elapsed time of its end and the held inputs. -/
structure Hold where
  T     : Nat
  endAt : Nat
  items : List HeldIn := []
  deriving DecidableEq, Repr

/-! ### Erg (R108 to R145) -/

/-- How far a task has come (R115, R127). -/
inductive Phase where
  | queued | running | waitCipher | waitDraw | committing
  deriving DecidableEq, Repr

/-- What a task does besides its entry: nothing more, one record of an ingested batch (R111), a period-close sweep
(R245), or a balance close (R280). -/
inductive TaskWork where
  | entry
  | child (rec : Bytes) (rtype : Nat) (idx : Nat)
  | sweep (subj : Nat)
  deriving DecidableEq, Repr

/-- A queued task (R108). -/
structure Task where
  jsn   : Nat
  key   : Key
  entry : Entry
  work  : TaskWork := .entry
  phase : Phase := .queued
  draws : List (Nat × Bytes) := []
  since : Nat := 0
  deriving DecidableEq, Repr

/-- A poll table entry (R356): T_SYNC in units of 2^-13 s, the miss counters, the nominal wake of the next planned poll, when the
last miss was, and the time by which a joined endpoint gets its first poll with its join channel (R376). -/
structure PollEnt where
  tSync    : Option Nat := none
  miss     : Nat := 0
  ftMiss   : Nat := 0
  next     : Option Nat := none
  lastMiss : Nat := 0
  joinAt   : Option (Nat × Nat) := none
  deriving DecidableEq, Repr

/-- A checkpoint: its cut, its number, what its descriptor names (R71) and the context it holds, with the generation and the message counter of U2H (R70), the
tasks below the cut that still wait for a draw and the poll table written with it (R356). -/
structure Ckpt where
  no       : Nat
  cutJsn   : Nat
  cutStamp : Nat
  role     : Role
  cfgHash  : Bytes
  svn      : Nat
  closeNext : Option Nat
  ctx      : Ctx
  waiting  : List Task := []
  polls    : List (Nat × PollEnt) := []
  u2hGen   : Nat := 0
  u2hCtr   : Nat := 0
  deriving DecidableEq, Repr

/-- A task key with queued tasks: its owner grain and its FIFO in JSN order (R113, R114). The list of keys is kept in
deque order. -/
structure KeyQ where
  key    : Key
  owner  : Nat
  tasks  : List Task
  pinned : Bool := false
  deriving DecidableEq, Repr

/-- Dune power (R140 to R142). -/
inductive DunePwr where
  | awake | nap | deep | waking
  deriving DecidableEq, Repr

/-- One dune: power, when it entered that state, when it last turned idle, its wakes, and whether it is to enter NAP once its running tasks have
finished (R142). -/
structure Dune where
  pwr   : DunePwr := .deep
  since : Nat := 0
  idleSince : Nat := 0
  wakes : Nat := 0
  leaving : Bool := false
  deriving DecidableEq, Repr

/-- A park record spilled from the park table to the journal region of the media (R130): its slot, its sequence and the JSN of its entry. -/
structure ParkRec where
  slot : Nat
  seq  : BitVec 32
  jsn  : Nat
  deriving DecidableEq, Repr

/-! ### Release path (R118, R445 to R449) -/

/-- Where an output goes: the release stream, a MAC as a DOWN frame (R427, R447), or a timed output (R495). -/
inductive OutDest where
  | stream | down | ctl
  deriving DecidableEq, Repr

/-- An output handed over (R118): ordering JSN (R445), dependency JSN (R42), task key, place within the commit, record type and bytes. -/
structure Output where
  ojsn  : Nat
  dep   : Nat
  key   : Key
  idx   : Nat
  rtype : Nat
  bytes : Bytes
  dest  : OutDest := .stream
  deriving DecidableEq, Repr

/-- A record of the outbox (R448). -/
structure OboxRec where
  rsn   : Nat
  rtype : Nat
  bytes : Bytes
  durable : Bool := false
  deriving DecidableEq, Repr

/-- What an output ball drives: nothing but its weak pull, or a level. -/
inductive BallOut where
  | pull
  | low
  | high
  deriving DecidableEq, Repr

/-- A symbol of the 8b/10b code on a link, by the byte it stands for (R601, R608). -/
inductive LinkSym where
  | k (v : Byte)
  | d (v : Byte)
  deriving DecidableEq, Repr

/-- What has left the balls. -/
inductive Emission where
  | radio (frame : AirFrame)
  | train (chan : Nat) (slot : Nat) (first period count pollAt : Nat)
  | preamble (chan : Nat) (from_ until_ : Nat)
  | plc (phase : Nat) (slots : List (Fin 4))
  | pulse (window : PlcWindow)
  | eth (port : Nat) (ok : Bool) (frame : Bytes)
  | udp (dst : Nat) (port : Nat) (datagram : Bytes)
  | seif (link : Nat) (syms : List LinkSym)
  | ctl (n : Nat) (at_ : Nat)
  | pps (at_ : Nat)
  | recovery (resp : Bytes)
  deriving DecidableEq, Repr

/-! ### Feeder front end (R292 to R313) -/

/-- A completed block or event waiting for Q9 (R308, R313). -/
structure FePkt where
  kind    : Kind
  stamp   : Nat
  payload : Bytes
  deriving DecidableEq, Repr

/-- A step being watched on one phase (R309): candidate instant, the pre-window cycles, the post cycles seen and the block the instant lies in. -/
structure StepCand where
  instant : Nat
  pre     : List Int
  post    : List Int := []
  bseq    : Nat
  deriving DecidableEq, Repr

/-- What the front end sums over a cycle of a phase (R302, R309, R310), in the units of its samples: voltage squared, power, and the squares of the residual
current, of the displacement voltage and of the neutral current; whether a sample was unsettled. -/
structure FeAcc where
  n     : Nat := 0
  v2    : Nat := 0
  p     : Int := 0
  res2  : Nat := 0
  disp2 : Nat := 0
  in2   : Nat := 0
  uns   : Bool := false
  deriving DecidableEq, Repr

/-- What the front end sums over a sample block (R305, R306): active and reactive energy of A to C with the fraction carried in, the squares of the
voltages and of the currents, and the channels that reached full scale. -/
structure FeBlk where
  n   : Nat := 0
  e   : List Int := [0, 0, 0, 0, 0, 0]
  v2  : List Nat := [0, 0, 0]
  i2  : List Nat := [0, 0, 0, 0]
  ovr : List Nat := []
  deriving DecidableEq, Repr

/-- A tamper condition (R310): whether its last cycle met it, and the settled time, in modulator cycles, for which that has differed from what is set. -/
structure FeCond where
  holds : Bool := false
  run   : Nat := 0
  deriving DecidableEq, Repr

/-- One phase of the front end: its recent cycles' P_cyc (newest first), its step candidate, whether it is present, was for the whole block and is reversed,
its last rising crossing (modulator cycle and corrected instant), whether its voltage has been below the hysteresis since, the cycle's sums, and its cycles
counted. -/
structure FePhase where
  cycles  : List Int := []
  cand    : Option StepCand := none
  present : Bool := false
  whole   : Bool := false
  rev     : Bool := false
  rise    : Option (Nat × Nat) := none
  armed   : Bool := false
  acc     : FeAcc := {}
  done    : Nat := 0
  deriving DecidableEq, Repr

/-- The feeder front end (R292 to R313): when it was enabled and the modulator cycles since; the modulator cycle at which samples are settled; the responses,
median and PGA codes in use; the samples that the median needs and the recent scaled ones, newest first; the block in progress; what waits for Q9; the
blocks ended lately and whether they were unsettled; and the tamper conditions. -/
structure FrontEnd where
  run      : Bool := false
  t0       : Nat := 0
  mcyc     : Nat := 0
  settleM  : Nat := 0
  unsettled : Bool := false
  act      : Nat × List Nat := (0, [0, 0, 0, 0])
  raw      : List (List Int) := []
  sig      : List (List Int) := []
  fresh    : Bool := true
  start    : Nat := 0
  cyclesIn : Nat := 0
  bseq     : Nat := 0
  blk      : FeBlk := {}
  blkUnsettled : Bool := false
  noZc     : Bool := false
  gap      : Bool := false
  cut      : Option (Nat × Nat) := none
  held     : List FePkt := []
  events   : List FePkt := []
  past     : List (Nat × Bool) := []
  phases   : List FePhase := [{}, {}, {}]
  byp      : Bool := false
  neu      : Bool := false
  conds    : List FeCond := [{}, {}, {}, {}, {}]
  ovr      : List Nat := []
  freq     : Nat := 0
  deriving DecidableEq, Repr

/-! ### Event recorder (R589 to R596) -/

/-- A stored event record with its log number (R594). -/
structure LogRec where
  no    : Nat
  bytes : Bytes
  deriving DecidableEq, Repr

/-- A reader's cursor (R595): the log number of its record and the next word in it. -/
structure Cursor where
  no   : Nat := 0
  word : Nat := 0
  deriving DecidableEq, Repr

/-- Repeats being folded (R590). -/
structure Fold where
  cls   : Nat
  subj  : Nat
  start : Nat
  last  : Nat
  count : Nat
  deriving DecidableEq, Repr

/-- The event recorder and its log (R589 to R596). -/
structure Evr where
  log    : List LogRec := []
  next   : Nat := 0
  wrapped : Bool := false
  lost   : Nat := 0
  clrSer : Nat := 0
  fold   : Option Fold := none
  cur    : PerWho Cursor := ⟨{}, {}, {}⟩
  capBytes : Nat := 0
  repeatS : Nat := 0
  deriving DecidableEq, Repr

end Sys2Proof.Machine
end

