-- ==== Sys2Proof/Config.lean ====
section
/-! DEFINITION. What the spec leaves open as free values, and the cryptographic primitives it takes from other standards:
constants without a body, so that no proof can see a value of them. -/
namespace Sys2Proof.Config

/-- The value of something the spec leaves open, numbered by the plain counter of the state that the step advances. -/
opaque freeValue : Nat → Nat

/-- Severity bits SEV of an event class (R589 names the field, no rule gives a class its value). -/
opaque severity : Nat → Nat

/-- SHA-256 (FIPS 180-4). -/
opaque sha256 : Bytes → Bytes

/-- AES-CMAC under a key, 16 bytes (SP 800-38B, R209). -/
opaque cmac : Nat → Bytes → Bytes

/-- AES-256-CMAC under a 256-bit key, 16 bytes: the PRF of the KDF (SP 800-38B, R511). -/
opaque cmac256 : Nat → Bytes → Bytes

/-- AES-CCM opening: key, nonce, additional data, ciphertext with MIC; the plaintext, or none when the MIC fails (R339). -/
opaque ccmOpen : Nat → Bytes → Bytes → Bytes → Option Bytes

/-- AES-CCM sealing: key, nonce, additional data, plaintext (R339). -/
opaque ccmSeal : Nat → Bytes → Bytes → Bytes → Bytes

/-- AES-GCM opening (R451). -/
opaque gcmOpen : Nat → Bytes → Bytes → Bytes → Option Bytes

/-- AES-GCM sealing: ciphertext and tag (R451). -/
opaque gcmSeal : Nat → Bytes → Bytes → Bytes → Bytes

/-- AES key wrap (R523). -/
opaque kwWrap : Nat → Bytes → Bytes

/-- AES key unwrap; none when the integrity check fails (R524). -/
opaque kwUnwrap : Nat → Bytes → Option Bytes

/-- ECDSA P-256: private key, digest, per-signature secret; r and s, 64 bytes (R247, R253). -/
opaque ecdsaSign : Nat → Bytes → Nat → Bytes

/-- ECDSA P-256 verification: public key bytes, digest, signature (R521). -/
opaque ecdsaVerify : Bytes → Bytes → Bytes → Bool

/-- AES-CTR under a key and a nonce (R529). -/
opaque aesCtr : Nat → Bytes → Bytes → Bytes

/-- The P-256 public point of a private key, X then Y (R514). -/
opaque ecPub : Nat → Bytes

/-- The x-coordinate of the P-256 ECDH shared point of a private key and a public point (R520). -/
opaque ecdh : Nat → Bytes → Nat

/-- A root generated from the TRNG (R549), by the number of generations. -/
opaque trng : Nat → Nat

/-- Data the DRBG returns, by the state's draw counter and the length (R538). -/
opaque drbg : Nat → Nat → Bytes

/-- The two hash functions of the EUI index, keyed from the configuration image (R162): the key, which of the two, and the EUI-64. -/
opaque euiHash : Nat → Bool → Nat → Nat

/-- The servo's loop (R475 fixes its kind and time constant, not its gains): from the integral term, the offset in ns and the
Sync interval in units of 2^-28 s, the rate correction and the new integral term, both in 2^-10 ppb. -/
opaque piLoop : Int → Int → Nat → Int × Int

/-- The rate that steers device time by mains cycles (R478 fixes the averaging time, not the filter): nominal frequency, cycles
counted, device time they took, averaging hours. -/
opaque mainsRate : Nat → Nat → Nat → Nat → Int

/-- The 90° Hilbert response of the ROM that a voltage passes for reactive energy (R305), aligned in delay: the response ID and the recent samples, newest
first. -/
opaque hilbert : Nat → List Int → Int

/-- A current delayed by PHTRIM relative to voltage (R323 gives the delay, not the interpolation): PHTRIM in 1/256 modulator cycle, the decimation, and the
recent samples, newest first. -/
opaque phaseTrim : Int → Nat → List Int → Int

/-- The four vendor public keys that the ROM holds (R695); no rule gives their values. -/
opaque vendorKey : Nat → Bytes

/-- The aggregate state of a checkpoint's body (R71), whose byte layout no rule gives. -/
opaque ckptAgg : Machine.Ckpt → Bytes

/-- The checkpoint that a descriptor and the aggregate state received with it spell, but for the slots of the context store; none when they spell none. -/
opaque aggOf : Bytes → Bytes → Option Machine.Ckpt

end Sys2Proof.Config
end

