-- ==== Sys2Proof/Machine/Kdf.lean ====
section
/-! DEFINITION. The derivation tree (R511 to R513): the KDF in counter mode, the labels, and private keys of P-256. Keys are the big-endian numbers their
bytes spell. -/
namespace Sys2Proof.Machine

/-- The label that begins with "JF-" (R513), without a terminator (R511). -/
def jfLabel (t : List Nat) : Bytes := ([0x4A, 0x46, 0x2D] ++ t).map (BitVec.ofNat 8)

/-- The KDF in counter mode (R511): parent, label, context and output length in bits; block i is PRF(parent, [i] ‖ Label ‖ 0 ‖ Context ‖ [L]). -/
def kdf (parent : Nat) (label ctx : Bytes) (len : Nat) : Bytes :=
  ((List.range (ceilDiv len 128)).flatMap fun i => fit 16 (Config.cmac256 parent (be 4 (i + 1) ++ label ++ [0#8] ++ ctx ++ be 4 len))).take (len / 8)

/-- A derived symmetric key (R511, R513). -/
def kdfKey (parent : Nat) (label ctx : Bytes) (len : Nat) : Nat := beVal (kdf parent label ctx len)

/-- The order n of the group of P-256 (FIPS 186). -/
def p256Order : Nat := 0xFFFFFFFF00000000FFFFFFFFFFFFFFFFBCE6FAADA7179E84F3B9CAC2FC632551

/-- A private key of P-256: d = (V mod (n − 1)) + 1 of a 384-bit output V (R512). -/
def kdfPrivate (parent : Nat) (label ctx : Bytes) : Nat := kdfKey parent label ctx 384 % (p256Order - 1) + 1

/-- SYSADDR in a context: 4 bytes with [31:18] 0 (R513). -/
def ctxAddr (addr : Nat) : Bytes := le 4 (addr % 2 ^ 18)

/-- DIK, from the root in force (R513). -/
def dikOf (root : Nat) : Nat := kdfPrivate root (jfLabel [0x44, 0x49, 0x4B]) []

/-- RSK, the record-sealing key (R513). -/
def rskOf (sys addr : Nat) : Nat := kdfKey sys (jfLabel [0x52, 0x53, 0x4B]) (ctxAddr addr) 128

/-- SIGK of a generation (R513). -/
def sigk (sys addr gen : Nat) : Nat := kdfPrivate sys (jfLabel [0x53, 0x49, 0x47]) (ctxAddr addr ++ le 2 gen)

/-- U2H of an origin and a generation (R513). -/
def u2h (sys addr origin gen : Nat) : Nat := kdfKey sys (jfLabel [0x55, 0x32, 0x48]) (ctxAddr addr ++ le 1 origin ++ le 2 gen) 128

/-- H2U of a generation (R513). -/
def h2u (sys addr gen : Nat) : Nat := kdfKey sys (jfLabel [0x48, 0x32, 0x55]) (ctxAddr addr ++ le 2 gen) 128

/-- SKEK, the wrapping key of slot keys (R513). -/
def skek (sys addr : Nat) : Nat := kdfKey sys (jfLabel [0x53, 0x4B, 0x4B]) (ctxAddr addr) 128

/-- JKEK, the wrapping key of journaled key material (R45, R513). -/
def jkek (sys : Nat) : Nat := kdfKey sys (jfLabel [0x4A, 0x4B, 0x4B]) [] 256

/-- The join key of an endpoint of a class, from the join master key of the class (R513, R523). -/
def joinKey (sys cls eui : Nat) : Nat :=
  kdfKey (kdfKey sys (jfLabel [0x4A, 0x4D, 0x4B]) (le 1 cls) 256) (jfLabel [0x4A, 0x4B]) (be 8 eui) 128

/-- The per-signature secret k of a seed, for a context SLOT and the number of times it was derived before (R513, R752). -/
def sigSecret (seed : Bytes) (slot j : Nat) : Nat :=
  kdfPrivate (beVal seed) (jfLabel [0x4B]) (le 4 slot ++ (if j = 0 then [] else le 1 j))

/-- KEK_S, from the shared point's x-coordinate, UNIT_ID and EPK (R520). -/
def kekS (z : Nat) (unitId epk : Bytes) : Nat := kdfKey z (jfLabel [0x53, 0x45, 0x43]) (unitId ++ epk) 256

end Sys2Proof.Machine
end

