-- ==== Sys2Proof/Machine/RegMap.lean ====
section
/-! DEFINITION. The register map: the address, the access masks (R13) and the reset value (R14) of every register of the blocks of R7. -/
namespace Sys2Proof.Machine

/-- One register, or one array of registers: first address, distance, number, access masks and reset value (R13, R14). -/
structure RegDef where
  addr   : Nat
  stride : Nat
  count  : Nat
  rw     : Nat
  lk     : Nat
  w1c    : Nat
  reset  : Nat
  deriving DecidableEq, Repr

/-- SYS_STAT (R673). -/
def rSysStat : Nat := 0x40000000
/-- SYS_RSTCAUSE (R673). -/
def rSysRstcause : Nat := 0x40000004
/-- SYS_LADDER (R673). -/
def rSysLadder : Nat := 0x40000008
/-- SYS_GASP (R673). -/
def rSysGasp : Nat := 0x4000000C
/-- SYS_THERM (R673). -/
def rSysTherm : Nat := 0x40000010
/-- SYS_CLK (R673). -/
def rSysClk : Nat := 0x40000014
/-- SYS_DIP (R673). -/
def rSysDip : Nat := 0x40000018
/-- SYS_IRQ (R673). -/
def rSysIrq : Nat := 0x40000020
/-- SYS_IEN (R673). -/
def rSysIen : Nat := 0x40000024
/-- QF_CFGn (R107). -/
def rQfCfg (n : Nat) : Nat := 0x40010000 + 64 * n
/-- QF_CTLn (R107). -/
def rQfCtl (n : Nat) : Nat := 0x40010004 + 64 * n
/-- QF_STATn (R107). -/
def rQfStat (n : Nat) : Nat := 0x40010008 + 64 * n
/-- QF_CNTn (R107). -/
def rQfCnt (n : Nat) : Nat := 0x4001000C + 64 * n
/-- QF_STALEn (R107). -/
def rQfStale (n : Nat) : Nat := 0x40010010 + 64 * n
/-- QF_WPTRn (R107). -/
def rQfWptr (n : Nat) : Nat := 0x40010014 + 64 * n
/-- QF_RPTRn (R107). -/
def rQfRptr (n : Nat) : Nat := 0x40010018 + 64 * n
/-- QF_PENDn (R107). -/
def rQfPend (n : Nat) : Nat := 0x4001001C + 64 * n
/-- QF_DROPCNTn (R107). -/
def rQfDropcnt (n : Nat) : Nat := 0x40010020 + 64 * n
/-- QF_OPENn (R107). -/
def rQfOpen (n : Nat) : Nat := 0x40010028 + 64 * n
/-- QF_PUSHn (R107). -/
def rQfPush (n : Nat) : Nat := 0x4001002C + 64 * n
/-- QF_CLOSEn (R107). -/
def rQfClose (n : Nat) : Nat := 0x40010030 + 64 * n
/-- QF_POPn (R107). -/
def rQfPop (n : Nat) : Nat := 0x40010034 + 64 * n
/-- QF_IRQ (R107). -/
def rQfIrq : Nat := 0x40010400
/-- QF_IEN (R107). -/
def rQfIen : Nat := 0x40010404
/-- JSQ_CTL (R75). -/
def rJsqCtl : Nat := 0x40020000
/-- JSQ_STAT (R75). -/
def rJsqStat : Nat := 0x40020004
/-- JSQ_NEXT_LO (R75). -/
def rJsqNextLo : Nat := 0x40020008
/-- JSQ_NEXT_HI (R75). -/
def rJsqNextHi : Nat := 0x4002000C
/-- JSQ_DUR_LO (R75). -/
def rJsqDurLo : Nat := 0x40020010
/-- JSQ_DUR_HI (R75). -/
def rJsqDurHi : Nat := 0x40020014
/-- JSQ_HWB_LO (R75). -/
def rJsqHwbLo : Nat := 0x40020018
/-- JSQ_HWB_HI (R75). -/
def rJsqHwbHi : Nat := 0x4002001C
/-- JSQ_CKJSN_LO (R75). -/
def rJsqCkjsnLo : Nat := 0x40020020
/-- JSQ_CKJSN_HI (R75). -/
def rJsqCkjsnHi : Nat := 0x40020024
/-- JSQ_BHOLD (R75). -/
def rJsqBhold : Nat := 0x40020028
/-- JSQ_CKPT_CNT (R75). -/
def rJsqCkptCnt : Nat := 0x4002002C
/-- JSQ_IRQ (R75). -/
def rJsqIrq : Nat := 0x40020030
/-- JSQ_IEN (R75). -/
def rJsqIen : Nat := 0x40020034
/-- JSQ_DURSTALL (R75). -/
def rJsqDurstall : Nat := 0x40020038
/-- JSQ_LOSSCNT (R75). -/
def rJsqLosscnt : Nat := 0x4002003C
/-- ERG_CTL (R143). -/
def rErgCtl : Nat := 0x40030000
/-- ERG_STAT (R143). -/
def rErgStat : Nat := 0x40030004
/-- ERG_STEAL (R143). -/
def rErgSteal : Nat := 0x40030008
/-- ERG_PWR (R143). -/
def rErgPwr : Nat := 0x4003000C
/-- ERG_WAKE (R143). -/
def rErgWake : Nat := 0x40030010
/-- ERG_MIRAGE (R143). -/
def rErgMirage : Nat := 0x40030014
/-- ERG_CWM_LO (R143). -/
def rErgCwmLo : Nat := 0x40030018
/-- ERG_CWM_HI (R143). -/
def rErgCwmHi : Nat := 0x4003001C
/-- ERG_POOL (R143). -/
def rErgPool : Nat := 0x40030020
/-- ERG_PARK (R143). -/
def rErgPark : Nat := 0x40030024
/-- ERG_STEALCNT (R143). -/
def rErgStealcnt : Nat := 0x40030028
/-- ERG_MIRCNT (R143). -/
def rErgMircnt : Nat := 0x4003002C
/-- ERG_RETCNT (R143). -/
def rErgRetcnt : Nat := 0x40030030
/-- ERG_SPILLCNT (R143). -/
def rErgSpillcnt : Nat := 0x40030034
/-- ERG_IRQ (R143). -/
def rErgIrq : Nat := 0x40030038
/-- ERG_IEN (R143). -/
def rErgIen : Nat := 0x4003003C
/-- ERG_GSTATn (R143). -/
def rErgGstat (n : Nat) : Nat := 0x40030100 + 4 * n
/-- ERG_DSTATd (R143). -/
def rErgDstat (n : Nat) : Nat := 0x40030200 + 4 * n
/-- CPH_CTL (R555). -/
def rCphCtl : Nat := 0x40040000
/-- CPH_STAT (R555). -/
def rCphStat : Nat := 0x40040004
/-- CPH_QDEPTH (R555). -/
def rCphQdepth : Nat := 0x40040008
/-- CPH_BLKCNT (R555). -/
def rCphBlkcnt : Nat := 0x40040010
/-- CPH_SUSPCNT (R555). -/
def rCphSuspcnt : Nat := 0x40040014
/-- CPH_EXHCNT (R555). -/
def rCphExhcnt : Nat := 0x40040018
/-- CPH_AUTHCNT (R555). -/
def rCphAuthcnt : Nat := 0x4004001C
/-- CPH_SIGCNT (R555). -/
def rCphSigcnt : Nat := 0x40040020
/-- CPH_TRNG (R555). -/
def rCphTrng : Nat := 0x40040024
/-- CPH_RESEED (R555). -/
def rCphReseed : Nat := 0x40040028
/-- CPH_IRQ (R555). -/
def rCphIrq : Nat := 0x40040030
/-- CPH_IEN (R555). -/
def rCphIen : Nat := 0x40040034
/-- CPH_LANEk (R555). -/
def rCphLane (n : Nat) : Nat := 0x40040100 + 4 * n
/-- KEY_CTL (R556). -/
def rKeyCtl : Nat := 0x40050000
/-- KEY_STAT (R556). -/
def rKeyStat : Nat := 0x40050004
/-- KEY_UNITID_LO (R556). -/
def rKeyUnitidLo : Nat := 0x40050008
/-- KEY_UNITID_HI (R556). -/
def rKeyUnitidHi : Nat := 0x4005000C
/-- KEY_GEN (R556). -/
def rKeyGen : Nat := 0x40050010
/-- KEY_U2HGEN (R556). -/
def rKeyU2hgen : Nat := 0x40050014
/-- KEY_SLOTLIM (R556). -/
def rKeySlotlim : Nat := 0x40050018
/-- KEY_GCMLIM (R556). -/
def rKeyGcmlim : Nat := 0x4005001C
/-- KEY_SVN (R556). -/
def rKeySvn : Nat := 0x40050020
/-- KEY_DPUBk (R556). -/
def rKeyDpub (n : Nat) : Nat := 0x40050040 + 4 * n
/-- KEY_IRQ (R556). -/
def rKeyIrq : Nat := 0x40050080
/-- KEY_IEN (R556). -/
def rKeyIen : Nat := 0x40050084
/-- RAD_CTL (R380). -/
def rRadCtl : Nat := 0x40060000
/-- RAD_STAT (R380). -/
def rRadStat : Nat := 0x40060004
/-- RAD_BASE (R380). -/
def rRadBase : Nat := 0x40060008
/-- RAD_SPACING (R380). -/
def rRadSpacing : Nat := 0x4006000C
/-- RAD_RXCHn (R380). -/
def rRadRxch (n : Nat) : Nat := 0x40060010 + 4 * n
/-- RAD_PA (R380). -/
def rRadPa : Nat := 0x40060030
/-- RAD_PHY (R380). -/
def rRadPhy : Nat := 0x40060034
/-- RAD_DUTY (R380). -/
def rRadDuty : Nat := 0x40060038
/-- RAD_BUDGET (R380). -/
def rRadBudget : Nat := 0x4006003C
/-- RAD_DNWAIT (R380). -/
def rRadDnwait : Nat := 0x40060040
/-- RAD_FCSERR (R380). -/
def rRadFcserr : Nat := 0x40060044
/-- RAD_BADFRM (R380). -/
def rRadBadfrm : Nat := 0x40060048
/-- RAD_ACKMISS (R380). -/
def rRadAckmiss : Nat := 0x4006004C
/-- RAD_DEFERCNT (R380). -/
def rRadDefercnt : Nat := 0x40060050
/-- RAD_FLOODDUP (R380). -/
def rRadFlooddup : Nat := 0x40060054
/-- RAD_RXABORT (R380). -/
def rRadRxabort : Nat := 0x40060058
/-- RAD_FTCNT (R380). -/
def rRadFtcnt : Nat := 0x4006005C
/-- RAD_IRQ (R380). -/
def rRadIrq : Nat := 0x40060060
/-- RAD_IEN (R380). -/
def rRadIen : Nat := 0x40060064
/-- PLC_CTL (R417). -/
def rPlcCtl : Nat := 0x40070000
/-- PLC_STAT (R417). -/
def rPlcStat : Nat := 0x40070004
/-- PLC_TXCFG (R417). -/
def rPlcTxcfg : Nat := 0x40070008
/-- PLC_RXCFG (R417). -/
def rPlcRxcfg : Nat := 0x4007000C
/-- PLC_BEACON (R417). -/
def rPlcBeacon : Nat := 0x40070010
/-- PLC_DNWAIT (R417). -/
def rPlcDnwait : Nat := 0x40070014
/-- PLC_ZCTRIMp (R417). -/
def rPlcZctrim (n : Nat) : Nat := 0x40070020 + 4 * n
/-- PLC_FREQp (R417). -/
def rPlcFreq (n : Nat) : Nat := 0x40070030 + 4 * n
/-- PLC_ZCCNTp (R417). -/
def rPlcZccnt (n : Nat) : Nat := 0x40070040 + 4 * n
/-- PLC_FCSERR (R417). -/
def rPlcFcserr : Nat := 0x40070050
/-- PLC_BADFRM (R417). -/
def rPlcBadfrm : Nat := 0x40070054
/-- PLC_ACKMISS (R417). -/
def rPlcAckmiss : Nat := 0x40070058
/-- PLC_RETRYCNT (R417). -/
def rPlcRetrycnt : Nat := 0x4007005C
/-- PLC_ROUTEFAIL (R417). -/
def rPlcRoutefail : Nat := 0x40070060
/-- PLC_FLOODDUP (R417). -/
def rPlcFlooddup : Nat := 0x40070064
/-- PLC_ZCLOSS (R417). -/
def rPlcZcloss : Nat := 0x40070068
/-- PLC_IRQ (R417). -/
def rPlcIrq : Nat := 0x40070070
/-- PLC_IEN (R417). -/
def rPlcIen : Nat := 0x40070074
/-- MTR_CTL (R323). -/
def rMtrCtl : Nat := 0x40080000
/-- MTR_SEL (R323). -/
def rMtrSel : Nat := 0x40080004
/-- MTR_STAT (R323). -/
def rMtrStat : Nat := 0x40080008
/-- MTR_FREQ (R323). -/
def rMtrFreq : Nat := 0x4008000C
/-- MTR_BSEQ (R323). -/
def rMtrBseq : Nat := 0x40080010
/-- MTR_LOSTCNT (R323). -/
def rMtrLostcnt : Nat := 0x40080014
/-- MTR_LATECNT (R323). -/
def rMtrLatecnt : Nat := 0x40080018
/-- MTR_GD (R323). -/
def rMtrGd : Nat := 0x4008001C
/-- MTR_STEP0 (R323). -/
def rMtrStep0 : Nat := 0x40080020
/-- MTR_STEP1 (R323). -/
def rMtrStep1 : Nat := 0x40080024
/-- MTR_REV (R323). -/
def rMtrRev : Nat := 0x40080028
/-- MTR_BYP (R323). -/
def rMtrByp : Nat := 0x4008002C
/-- MTR_NEU (R323). -/
def rMtrNeu : Nat := 0x40080030
/-- MTR_VNOM (R323). -/
def rMtrVnom : Nat := 0x40080034
/-- MTR_IRQ (R323). -/
def rMtrIrq : Nat := 0x40080038
/-- MTR_IEN (R323). -/
def rMtrIen : Nat := 0x4008003C
/-- MTR_GAINn (R323). -/
def rMtrGain (n : Nat) : Nat := 0x40080100 + 32 * n
/-- MTR_OFSn (R323). -/
def rMtrOfs (n : Nat) : Nat := 0x40080104 + 32 * n
/-- MTR_TRIMn (R323). -/
def rMtrTrim (n : Nat) : Nat := 0x40080108 + 32 * n
/-- MTR_FSn (R323). -/
def rMtrFs (n : Nat) : Nat := 0x4008010C + 32 * n
/-- MTR_RMSn (R323). -/
def rMtrRms (n : Nat) : Nat := 0x40080110 + 32 * n
/-- MTR_PINSTp (R323). -/
def rMtrPinst (n : Nat) : Nat := 0x40080200 + 4 * n
/-- BIL_CTL (R260). -/
def rBilCtl : Nat := 0x40090000
/-- BIL_STAT (R260). -/
def rBilStat : Nat := 0x40090004
/-- BIL_EPOCH (R260). -/
def rBilEpoch : Nat := 0x40090008
/-- BIL_OPEN (R260). -/
def rBilOpen : Nat := 0x4009000C
/-- BIL_CURSOR (R260). -/
def rBilCursor : Nat := 0x40090010
/-- BIL_SIGNED (R260). -/
def rBilSigned : Nat := 0x40090014
/-- BIL_NEXTBND_LO (R260). -/
def rBilNextbndLo : Nat := 0x40090018
/-- BIL_NEXTBND_HI (R260). -/
def rBilNextbndHi : Nat := 0x4009001C
/-- BIL_LOCOFS (R260). -/
def rBilLocofs : Nat := 0x40090020
/-- BIL_DEMCFG (R260). -/
def rBilDemcfg : Nat := 0x40090024
/-- BIL_PERCFG (R260). -/
def rBilPercfg : Nat := 0x40090028
/-- BIL_SATCNT (R260). -/
def rBilSatcnt : Nat := 0x4009002C
/-- BIL_IRQ (R260). -/
def rBilIrq : Nat := 0x40090030
/-- BIL_IEN (R260). -/
def rBilIen : Nat := 0x40090034
/-- BIL_FREGm_LO (R260). -/
def rBilFregLo (n : Nat) : Nat := 0x40090100 + 8 * n
/-- BIL_FREGm_HI (R260). -/
def rBilFregHi (n : Nat) : Nat := 0x40090104 + 8 * n
/-- BIL_FMAXDEM (R260). -/
def rBilFmaxdem : Nat := 0x40090200
/-- BIL_FDEMSTAT (R260). -/
def rBilFdemstat : Nat := 0x40090204
/-- NET_CTL (R469). -/
def rNetCtl : Nat := 0x400A0000
/-- NET_STAT (R469). -/
def rNetStat : Nat := 0x400A0004
/-- NET_MACLO (R469). -/
def rNetMaclo : Nat := 0x400A0008
/-- NET_MACHI (R469). -/
def rNetMachi : Nat := 0x400A000C
/-- NET_UDP (R469). -/
def rNetUdp : Nat := 0x400A0010
/-- NET_IP4 (R469). -/
def rNetIp4 : Nat := 0x400A0014
/-- NET_WIN (R469). -/
def rNetWin : Nat := 0x400A0018
/-- NET_PAUSE (R469). -/
def rNetPause : Nat := 0x400A001C
/-- NET_NRSN_LO (R469). -/
def rNetNrsnLo : Nat := 0x400A0020
/-- NET_NRSN_HI (R469). -/
def rNetNrsnHi : Nat := 0x400A0024
/-- NET_ARSN_LO (R469). -/
def rNetArsnLo : Nat := 0x400A0028
/-- NET_ARSN_HI (R469). -/
def rNetArsnHi : Nat := 0x400A002C
/-- NET_OBOX (R469). -/
def rNetObox : Nat := 0x400A0030
/-- NET_MDIO (R469). -/
def rNetMdio : Nat := 0x400A0034
/-- NET_RXDROP (R469). -/
def rNetRxdrop : Nat := 0x400A0040
/-- NET_AUTHFAIL (R469). -/
def rNetAuthfail : Nat := 0x400A0044
/-- NET_REPLAY (R469). -/
def rNetReplay : Nat := 0x400A0048
/-- NET_RETX (R469). -/
def rNetRetx : Nat := 0x400A004C
/-- NET_PAUSECNT (R469). -/
def rNetPausecnt : Nat := 0x400A0050
/-- NET_BRDROP (R469). -/
def rNetBrdrop : Nat := 0x400A0054
/-- NET_IP6_k (R469). -/
def rNetIp6 (n : Nat) : Nat := 0x400A0060 + 4 * n
/-- NET_IRQ (R469). -/
def rNetIrq : Nat := 0x400A0070
/-- NET_IEN (R469). -/
def rNetIen : Nat := 0x400A0074
/-- TIM_CTL (R507). -/
def rTimCtl : Nat := 0x400A8000
/-- TIM_STAT (R507). -/
def rTimStat : Nat := 0x400A8004
/-- TIM_NOW_LO (R507). -/
def rTimNowLo : Nat := 0x400A8008
/-- TIM_NOW_HI (R507). -/
def rTimNowHi : Nat := 0x400A800C
/-- TIM_RATE (R507). -/
def rTimRate : Nat := 0x400A8010
/-- TIM_OFFSET (R507). -/
def rTimOffset : Nat := 0x400A8014
/-- TIM_MPD (R507). -/
def rTimMpd : Nat := 0x400A8018
/-- TIM_SERVO (R507). -/
def rTimServo : Nat := 0x400A801C
/-- TIM_LIMITS (R507). -/
def rTimLimits : Nat := 0x400A8020
/-- TIM_ALARM (R507). -/
def rTimAlarm : Nat := 0x400A8024
/-- TIM_SYNCCNT (R507). -/
def rTimSynccnt : Nat := 0x400A8028
/-- TIM_IRQ (R507). -/
def rTimIrq : Nat := 0x400A8030
/-- TIM_IEN (R507). -/
def rTimIen : Nat := 0x400A8034
/-- TIM_CTLCFGn (R507). -/
def rTimCtlcfg (n : Nat) : Nat := 0x400A8100 + 64 * n
/-- TIM_CTLWIDTHn (R507). -/
def rTimCtlwidth (n : Nat) : Nat := 0x400A8104 + 64 * n
/-- TIM_CTLSTARTn_LO (R507). -/
def rTimCtlstartLo (n : Nat) : Nat := 0x400A8108 + 64 * n
/-- TIM_CTLSTARTn_HI (R507). -/
def rTimCtlstartHi (n : Nat) : Nat := 0x400A810C + 64 * n
/-- TIM_CTLPERn_LO (R507). -/
def rTimCtlperLo (n : Nat) : Nat := 0x400A8110 + 64 * n
/-- TIM_CTLPERn_HI (R507). -/
def rTimCtlperHi (n : Nat) : Nat := 0x400A8114 + 64 * n
/-- TIM_CTLCOUNTn (R507). -/
def rTimCtlcount (n : Nat) : Nat := 0x400A8118 + 64 * n
/-- TIM_CTLDELAYn (R507). -/
def rTimCtldelay (n : Nat) : Nat := 0x400A811C + 64 * n
/-- TIM_CTLNEXTn_LO (R507). -/
def rTimCtlnextLo (n : Nat) : Nat := 0x400A8120 + 64 * n
/-- TIM_CTLNEXTn_HI (R507). -/
def rTimCtlnextHi (n : Nat) : Nat := 0x400A8124 + 64 * n
/-- TIM_CTLSKIPn (R507). -/
def rTimCtlskip (n : Nat) : Nat := 0x400A8128 + 64 * n
/-- TIM_EVTCFGe (R507). -/
def rTimEvtcfg (n : Nat) : Nat := 0x400A8300 + 16 * n
/-- TIM_EVTLASTe_LO (R507). -/
def rTimEvtlastLo (n : Nat) : Nat := 0x400A8304 + 16 * n
/-- TIM_EVTLASTe_HI (R507). -/
def rTimEvtlastHi (n : Nat) : Nat := 0x400A8308 + 16 * n
/-- TIM_EVTLOSTe (R507). -/
def rTimEvtlost (n : Nat) : Nat := 0x400A830C + 16 * n
/-- MED_CTL (R599). -/
def rMedCtl : Nat := 0x400B0000
/-- MED_STAT (R599). -/
def rMedStat : Nat := 0x400B0004
/-- MED_GEOM (R599). -/
def rMedGeom : Nat := 0x400B0008
/-- MED_CAP (R599). -/
def rMedCap : Nat := 0x400B000C
/-- MED_FREE (R599). -/
def rMedFree : Nat := 0x400B0010
/-- MED_CACHE (R599). -/
def rMedCache : Nat := 0x400B0014
/-- MED_SPARE (R599). -/
def rMedSpare : Nat := 0x400B0018
/-- MED_WEAR (R599). -/
def rMedWear : Nat := 0x400B001C
/-- MED_CORR (R599). -/
def rMedCorr : Nat := 0x400B0020
/-- MED_RETRY (R599). -/
def rMedRetry : Nat := 0x400B0024
/-- MED_REBUILD (R599). -/
def rMedRebuild : Nat := 0x400B0028
/-- MED_LOSS (R599). -/
def rMedLoss : Nat := 0x400B002C
/-- MED_PFAIL (R599). -/
def rMedPfail : Nat := 0x400B0030
/-- MED_EFAIL (R599). -/
def rMedEfail : Nat := 0x400B0034
/-- MED_REFRESH (R599). -/
def rMedRefresh : Nat := 0x400B0038
/-- MED_BADREQ (R599). -/
def rMedBadreq : Nat := 0x400B003C
/-- MED_TEMPHb (R599). -/
def rMedTemph (n : Nat) : Nat := 0x400B0040 + 4 * n
/-- MED_IRQ (R599). -/
def rMedIrq : Nat := 0x400B0060
/-- MED_IEN (R599). -/
def rMedIen : Nat := 0x400B0064
/-- MED_TOTAL (R599). -/
def rMedTotal : Nat := 0x400B0068
/-- MED_CACHEUSED (R599). -/
def rMedCacheused : Nat := 0x400B006C
/-- EVR_CTL (R600). -/
def rEvrCtl : Nat := 0x400C0000
/-- EVR_STAT (R600). -/
def rEvrStat : Nat := 0x400C0004
/-- EVR_FIRST (R600). -/
def rEvrFirst : Nat := 0x400C0008
/-- EVR_NEXT (R600). -/
def rEvrNext : Nat := 0x400C000C
/-- EVR_REWIND (R600). -/
def rEvrRewind : Nat := 0x400C0010
/-- EVR_WIN (R600). -/
def rEvrWin : Nat := 0x400C0014
/-- EVR_LOST (R600). -/
def rEvrLost : Nat := 0x400C0018
/-- EVR_BADCNT (R600). -/
def rEvrBadcnt : Nat := 0x400C001C
/-- EVR_CLRSER (R600). -/
def rEvrClrser : Nat := 0x400C0020
/-- EVR_IRQ (R600). -/
def rEvrIrq : Nat := 0x400C0030
/-- EVR_IEN (R600). -/
def rEvrIen : Nat := 0x400C0034
/-- SEF_CTL (R641). -/
def rSefCtl : Nat := 0x400D0000
/-- SEF_STAT (R641). -/
def rSefStat : Nat := 0x400D0004
/-- SEF_ROLE (R641). -/
def rSefRole : Nat := 0x400D0008
/-- SEF_TOKEN (R641). -/
def rSefToken : Nat := 0x400D000C
/-- SEF_LINK (R641). -/
def rSefLink : Nat := 0x400D0010
/-- SEF_MEMBER (R641). -/
def rSefMember : Nat := 0x400D0014
/-- SEF_PEER (R641). -/
def rSefPeer : Nat := 0x400D0018
/-- SEF_TIMING (R641). -/
def rSefTiming : Nat := 0x400D001C
/-- SEF_LAG (R641). -/
def rSefLag : Nat := 0x400D0020
/-- SEF_HIGH_LO (R641). -/
def rSefHighLo : Nat := 0x400D0028
/-- SEF_HIGH_HI (R641). -/
def rSefHighHi : Nat := 0x400D002C
/-- SEF_VSN_LO (R641). -/
def rSefVsnLo : Nat := 0x400D0030
/-- SEF_VSN_HI (R641). -/
def rSefVsnHi : Nat := 0x400D0034
/-- SEF_PACK0_LO (R641). -/
def rSefPack0Lo : Nat := 0x400D0038
/-- SEF_PACK0_HI (R641). -/
def rSefPack0Hi : Nat := 0x400D003C
/-- SEF_CRCERR (R641). -/
def rSefCrcerr : Nat := 0x400D0040
/-- SEF_RETX (R641). -/
def rSefRetx : Nat := 0x400D0044
/-- SEF_VOTEMIS (R641). -/
def rSefVotemis : Nat := 0x400D0048
/-- SEF_TAKECNT (R641). -/
def rSefTakecnt : Nat := 0x400D004C
/-- SEF_PACK1_LO (R641). -/
def rSefPack1Lo : Nat := 0x400D0050
/-- SEF_PACK1_HI (R641). -/
def rSefPack1Hi : Nat := 0x400D0054
/-- SEF_IRQ (R641). -/
def rSefIrq : Nat := 0x400D0060
/-- SEF_IEN (R641). -/
def rSefIen : Nat := 0x400D0064
/-- OAS_TIME0 (R508). -/
def rOasTime0 : Nat := 0x400E0000
/-- OAS_TIME1 (R508). -/
def rOasTime1 : Nat := 0x400E0004
/-- OAS_TIME2 (R508). -/
def rOasTime2 : Nat := 0x400E0008
/-- OAS_TIME3 (R508). -/
def rOasTime3 : Nat := 0x400E000C
/-- OAS_STG_LO (R508). -/
def rOasStgLo : Nat := 0x400E0010
/-- OAS_STG_HI (R508). -/
def rOasStgHi : Nat := 0x400E0014
/-- OAS_TCOMMIT (R508). -/
def rOasTcommit : Nat := 0x400E0018
/-- OAS_STAT (R508). -/
def rOasStat : Nat := 0x400E001C
/-- OAS_TRIM (R508). -/
def rOasTrim : Nat := 0x400E0020
/-- OAS_TCURVE (R508). -/
def rOasTcurve : Nat := 0x400E0024
/-- OAS_LRATE (R508). -/
def rOasLrate : Nat := 0x400E0028
/-- OAS_UTC (R508). -/
def rOasUtc : Nat := 0x400E002C
/-- OAS_TEMP (R508). -/
def rOasTemp : Nat := 0x400E0030
/-- OAS_PPS (R508). -/
def rOasPps : Nat := 0x400E0034
/-- OAS_PWR (R508). -/
def rOasPwr : Nat := 0x400E0100
/-- OAS_VBAT (R508). -/
def rOasVbat : Nat := 0x400E0104
/-- OAS_OUTAGE_LO (R508). -/
def rOasOutageLo : Nat := 0x400E0108
/-- OAS_OUTAGE_HI (R508). -/
def rOasOutageHi : Nat := 0x400E010C
/-- OAS_OUTJSN_LO (R508). -/
def rOasOutjsnLo : Nat := 0x400E0110
/-- OAS_OUTJSN_HI (R508). -/
def rOasOutjsnHi : Nat := 0x400E0114
/-- OAS_TAMPCFG (R508). -/
def rOasTampcfg : Nat := 0x400E0200
/-- OAS_TAMPSTAT (R508). -/
def rOasTampstat : Nat := 0x400E0204
/-- OAS_ALMCNT (R508). -/
def rOasAlmcnt : Nat := 0x400E0208
/-- OAS_CSVN (R508). -/
def rOasCsvn : Nat := 0x400E0300
/-- ARB_CTL (R183). -/
def rArbCtl : Nat := 0x400F0000
/-- ARB_POOL_LO (R183). -/
def rArbPoolLo : Nat := 0x400F0004
/-- ARB_POOL_HI (R183). -/
def rArbPoolHi : Nat := 0x400F0008
/-- ARB_STAT (R183). -/
def rArbStat : Nat := 0x400F000C
/-- ARB_FREE (R183). -/
def rArbFree : Nat := 0x400F0010
/-- ARB_DUPCNT (R183). -/
def rArbDupcnt : Nat := 0x400F0014
/-- ARB_ORPHCNT (R183). -/
def rArbOrphcnt : Nat := 0x400F0018
/-- ARB_BUSYCNT (R183). -/
def rArbBusycnt : Nat := 0x400F001C
/-- ARB_CAPCNT (R183). -/
def rArbCapcnt : Nat := 0x400F0020
/-- ARB_LATMAX (R183). -/
def rArbLatmax : Nat := 0x400F0024
/-- ARB_MASKCNT (R183). -/
def rArbMaskcnt : Nat := 0x400F0028
/-- ARB_ECC (R183). -/
def rArbEcc : Nat := 0x400F002C
/-- ARB_FAULT (R183). -/
def rArbFault : Nat := 0x400F0030
/-- ARB_IRQ (R183). -/
def rArbIrq : Nat := 0x400F0034
/-- ARB_IEN (R183). -/
def rArbIen : Nat := 0x400F0038

/-- Registers of the SYS block. -/
def regsSys : List RegDef := [
  ⟨0x40000000, 4, 1, 0x0, 0x0, 0x0, 0x0⟩,
  ⟨0x40000004, 4, 1, 0x0, 0x0, 0x0, 0x0⟩,
  ⟨0x40000008, 4, 1, 0x0, 0x3FF, 0x0, 0x32⟩,
  ⟨0x4000000C, 4, 1, 0x0, 0x7, 0x0, 0x0⟩,
  ⟨0x40000010, 4, 1, 0x0, 0xFF, 0x0, 0x73⟩,
  ⟨0x40000014, 4, 1, 0x0, 0x0, 0x1E0, 0x0⟩,
  ⟨0x40000018, 4, 1, 0x0, 0x0, 0x0, 0x0⟩,
  ⟨0x40000020, 4, 1, 0x0, 0x0, 0x1F, 0x0⟩,
  ⟨0x40000024, 4, 1, 0x1F, 0x0, 0x0, 0x0⟩]

/-- Registers of the QF block. -/
def regsQf : List RegDef := [
  ⟨0x40010000, 64, 16, 0x0, 0xF0FFFFF, 0x0, 0x0⟩,
  ⟨0x40010004, 64, 16, 0x0, 0x1, 0x0, 0x0⟩,
  ⟨0x40010008, 64, 16, 0x0, 0x0, 0x0, 0x1⟩,
  ⟨0x4001000C, 64, 16, 0x0, 0x0, 0x0, 0x0⟩,
  ⟨0x40010010, 64, 16, 0xFFFFFF, 0x0, 0x0, 0x0⟩,
  ⟨0x40010014, 64, 16, 0x0, 0x0, 0x0, 0x0⟩,
  ⟨0x40010018, 64, 16, 0x0, 0x0, 0x0, 0x0⟩,
  ⟨0x4001001C, 64, 16, 0x0, 0x0, 0x0, 0x0⟩,
  ⟨0x40010020, 64, 16, 0x0, 0x0, 0x0, 0x0⟩,
  ⟨0x40010028, 64, 16, 0x0, 0x0, 0x0, 0x0⟩,
  ⟨0x4001002C, 64, 16, 0x0, 0x0, 0x0, 0x0⟩,
  ⟨0x40010030, 64, 16, 0x0, 0x0, 0x0, 0x0⟩,
  ⟨0x40010034, 64, 16, 0x0, 0x0, 0x0, 0xF0000000⟩,
  ⟨0x40010400, 4, 1, 0x0, 0x0, 0xFFFFFFFF, 0x0⟩,
  ⟨0x40010404, 4, 1, 0xFFFFFFFF, 0x0, 0x0, 0x0⟩]

/-- Registers of the JSQ block. -/
def regsJsq : List RegDef := [
  ⟨0x40020000, 4, 1, 0x1, 0x0, 0x0, 0x0⟩,
  ⟨0x40020004, 4, 1, 0x0, 0x0, 0x0, 0x0⟩,
  ⟨0x40020008, 4, 1, 0x0, 0x0, 0x0, 0x0⟩,
  ⟨0x4002000C, 4, 1, 0x0, 0x0, 0x0, 0x0⟩,
  ⟨0x40020010, 4, 1, 0x0, 0x0, 0x0, 0x0⟩,
  ⟨0x40020014, 4, 1, 0x0, 0x0, 0x0, 0x0⟩,
  ⟨0x40020018, 4, 1, 0x0, 0x0, 0x0, 0x0⟩,
  ⟨0x4002001C, 4, 1, 0x0, 0x0, 0x0, 0x0⟩,
  ⟨0x40020020, 4, 1, 0x0, 0x0, 0x0, 0x0⟩,
  ⟨0x40020024, 4, 1, 0x0, 0x0, 0x0, 0x0⟩,
  ⟨0x40020028, 4, 1, 0x0, 0xFFFF, 0x0, 0x7D0⟩,
  ⟨0x4002002C, 4, 1, 0x0, 0x0, 0x0, 0x0⟩,
  ⟨0x40020030, 4, 1, 0x0, 0x0, 0x3F, 0x0⟩,
  ⟨0x40020034, 4, 1, 0x3F, 0x0, 0x0, 0x0⟩,
  ⟨0x40020038, 4, 1, 0xFFFF, 0x0, 0x0, 0x3E8⟩,
  ⟨0x4002003C, 4, 1, 0x0, 0x0, 0x0, 0x0⟩]

/-- Registers of the ERG block. -/
def regsErg : List RegDef := [
  ⟨0x40030000, 4, 1, 0x0, 0x7, 0x0, 0x4⟩,
  ⟨0x40030004, 4, 1, 0x0, 0x0, 0x0, 0x80000⟩,
  ⟨0x40030008, 4, 1, 0x0, 0xFFFF, 0x0, 0x802⟩,
  ⟨0x4003000C, 4, 1, 0x0, 0xFFFFFF0F, 0x0, 0x3200C801⟩,
  ⟨0x40030010, 4, 1, 0x0, 0xFFFFFFFF, 0x0, 0x640040⟩,
  ⟨0x40030014, 4, 1, 0x0, 0x1F, 0x0, 0x4⟩,
  ⟨0x40030018, 4, 1, 0x0, 0x0, 0x0, 0x0⟩,
  ⟨0x4003001C, 4, 1, 0x0, 0x0, 0x0, 0x0⟩,
  ⟨0x40030020, 4, 1, 0x0, 0x0, 0x0, 0x2008000⟩,
  ⟨0x40030024, 4, 1, 0x0, 0x0, 0x0, 0x0⟩,
  ⟨0x40030028, 4, 1, 0x0, 0x0, 0x0, 0x0⟩,
  ⟨0x4003002C, 4, 1, 0x0, 0x0, 0x0, 0x0⟩,
  ⟨0x40030030, 4, 1, 0x0, 0x0, 0x0, 0x0⟩,
  ⟨0x40030034, 4, 1, 0x0, 0x0, 0x0, 0x0⟩,
  ⟨0x40030038, 4, 1, 0x0, 0x0, 0x7, 0x0⟩,
  ⟨0x4003003C, 4, 1, 0x7, 0x0, 0x0, 0x0⟩,
  ⟨0x40030100, 4, 64, 0x0, 0x0, 0x0, 0x0⟩,
  ⟨0x40030200, 4, 8, 0x0, 0x0, 0x0, 0x2⟩]

/-- Registers of the CPH block. -/
def regsCph : List RegDef := [
  ⟨0x40040000, 4, 1, 0x0, 0x1, 0x0, 0x0⟩,
  ⟨0x40040004, 4, 1, 0x0, 0x0, 0x0, 0x0⟩,
  ⟨0x40040008, 4, 1, 0x0, 0x0, 0x0, 0x0⟩,
  ⟨0x40040010, 4, 1, 0x0, 0x0, 0x0, 0x0⟩,
  ⟨0x40040014, 4, 1, 0x0, 0x0, 0x0, 0x0⟩,
  ⟨0x40040018, 4, 1, 0x0, 0x0, 0x0, 0x0⟩,
  ⟨0x4004001C, 4, 1, 0x0, 0x0, 0x0, 0x0⟩,
  ⟨0x40040020, 4, 1, 0x0, 0x0, 0x0, 0x0⟩,
  ⟨0x40040024, 4, 1, 0x0, 0x0, 0x0, 0x0⟩,
  ⟨0x40040028, 4, 1, 0x0, 0x0, 0x0, 0x0⟩,
  ⟨0x40040030, 4, 1, 0x0, 0x0, 0xF, 0x0⟩,
  ⟨0x40040034, 4, 1, 0xF, 0x0, 0x0, 0x0⟩,
  ⟨0x40040100, 4, 16, 0x0, 0x0, 0x0, 0x0⟩]

/-- Registers of the KEY block. -/
def regsKey : List RegDef := [
  ⟨0x40050000, 4, 1, 0x0, 0x1, 0x0, 0x0⟩,
  ⟨0x40050004, 4, 1, 0x0, 0x0, 0x0, 0x0⟩,
  ⟨0x40050008, 4, 1, 0x0, 0x0, 0x0, 0x0⟩,
  ⟨0x4005000C, 4, 1, 0x0, 0x0, 0x0, 0x0⟩,
  ⟨0x40050010, 4, 1, 0x0, 0x0, 0x0, 0x0⟩,
  ⟨0x40050014, 4, 1, 0x0, 0x0, 0x0, 0x0⟩,
  ⟨0x40050018, 4, 1, 0x0, 0xFFFFFFFF, 0x0, 0xF4240⟩,
  ⟨0x4005001C, 4, 1, 0x0, 0xFFFFFFFF, 0x0, 0xFFFFFFFF⟩,
  ⟨0x40050020, 4, 1, 0x0, 0x0, 0x0, 0x0⟩,
  ⟨0x40050040, 4, 16, 0x0, 0x0, 0x0, 0x0⟩,
  ⟨0x40050080, 4, 1, 0x0, 0x0, 0x7, 0x0⟩,
  ⟨0x40050084, 4, 1, 0x7, 0x0, 0x0, 0x0⟩]

/-- Registers of the RAD block. -/
def regsRad : List RegDef := [
  ⟨0x40060000, 4, 1, 0x2, 0x1, 0x0, 0x0⟩,
  ⟨0x40060004, 4, 1, 0x0, 0x0, 0x0, 0x0⟩,
  ⟨0x40060008, 4, 1, 0x0, 0xFFFFFFFF, 0x0, 0x0⟩,
  ⟨0x4006000C, 4, 1, 0x0, 0x7FFFF, 0x0, 0x0⟩,
  ⟨0x40060010, 4, 8, 0x0, 0xFFFF, 0x0, 0x0⟩,
  ⟨0x40060030, 4, 1, 0x0, 0x3FFFF, 0x0, 0x0⟩,
  ⟨0x40060034, 4, 1, 0x0, 0xFF7FFF, 0x0, 0x4808⟩,
  ⟨0x40060038, 4, 1, 0x0, 0xFFFFFFFF, 0x0, 0x0⟩,
  ⟨0x4006003C, 4, 1, 0x0, 0x0, 0x0, 0x0⟩,
  ⟨0x40060040, 4, 1, 0x0, 0x3FFFFF, 0x0, 0x0⟩,
  ⟨0x40060044, 4, 1, 0x0, 0x0, 0x0, 0x0⟩,
  ⟨0x40060048, 4, 1, 0x0, 0x0, 0x0, 0x0⟩,
  ⟨0x4006004C, 4, 1, 0x0, 0x0, 0x0, 0x0⟩,
  ⟨0x40060050, 4, 1, 0x0, 0x0, 0x0, 0x0⟩,
  ⟨0x40060054, 4, 1, 0x0, 0x0, 0x0, 0x0⟩,
  ⟨0x40060058, 4, 1, 0x0, 0x0, 0x0, 0x0⟩,
  ⟨0x4006005C, 4, 1, 0x0, 0x0, 0x0, 0x0⟩,
  ⟨0x40060060, 4, 1, 0x0, 0x0, 0xF, 0x0⟩,
  ⟨0x40060064, 4, 1, 0xF, 0x0, 0x0, 0x0⟩]

/-- Registers of the PLC block. -/
def regsPlc : List RegDef := [
  ⟨0x40070000, 4, 1, 0x2, 0x1D, 0x0, 0x0⟩,
  ⟨0x40070004, 4, 1, 0x0, 0x0, 0x0, 0x0⟩,
  ⟨0x40070008, 4, 1, 0x0, 0x1FFFF, 0x0, 0x164A8⟩,
  ⟨0x4007000C, 4, 1, 0x0, 0x777F, 0x0, 0x7330⟩,
  ⟨0x40070010, 4, 1, 0x0, 0xFFFF, 0x0, 0x212C⟩,
  ⟨0x40070014, 4, 1, 0x0, 0x3FF, 0x0, 0x18⟩,
  ⟨0x40070020, 4, 3, 0x0, 0xFFFF, 0x0, 0x0⟩,
  ⟨0x40070030, 4, 3, 0x0, 0x0, 0x0, 0x0⟩,
  ⟨0x40070040, 4, 3, 0x0, 0x0, 0x0, 0x0⟩,
  ⟨0x40070050, 4, 1, 0x0, 0x0, 0x0, 0x0⟩,
  ⟨0x40070054, 4, 1, 0x0, 0x0, 0x0, 0x0⟩,
  ⟨0x40070058, 4, 1, 0x0, 0x0, 0x0, 0x0⟩,
  ⟨0x4007005C, 4, 1, 0x0, 0x0, 0x0, 0x0⟩,
  ⟨0x40070060, 4, 1, 0x0, 0x0, 0x0, 0x0⟩,
  ⟨0x40070064, 4, 1, 0x0, 0x0, 0x0, 0x0⟩,
  ⟨0x40070068, 4, 1, 0x0, 0x0, 0x0, 0x0⟩,
  ⟨0x40070070, 4, 1, 0x0, 0x0, 0x1F, 0x0⟩,
  ⟨0x40070074, 4, 1, 0x1F, 0x0, 0x0, 0x0⟩]

/-- Registers of the MTR block. -/
def regsMtr : List RegDef := [
  ⟨0x40080000, 4, 1, 0x0, 0x3FFFF, 0x0, 0x0⟩,
  ⟨0x40080004, 4, 1, 0xFF, 0x3F00, 0x0, 0xA00⟩,
  ⟨0x40080008, 4, 1, 0x0, 0x0, 0x0, 0x0⟩,
  ⟨0x4008000C, 4, 1, 0x0, 0x0, 0x0, 0x0⟩,
  ⟨0x40080010, 4, 1, 0x0, 0x0, 0x0, 0x0⟩,
  ⟨0x40080014, 4, 1, 0x0, 0x0, 0x0, 0x0⟩,
  ⟨0x40080018, 4, 1, 0x0, 0x0, 0x0, 0x0⟩,
  ⟨0x4008001C, 4, 1, 0x0, 0x0, 0x0, 0x0⟩,
  ⟨0x40080020, 4, 1, 0x0, 0xFFFFFFFF, 0x0, 0xA0A01F4⟩,
  ⟨0x40080024, 4, 1, 0x0, 0xFFFF, 0x0, 0xC8⟩,
  ⟨0x40080028, 4, 1, 0x0, 0xFFFFFF, 0x0, 0x3C0064⟩,
  ⟨0x4008002C, 4, 1, 0x0, 0xFF03FF, 0x0, 0xA0014⟩,
  ⟨0x40080030, 4, 1, 0x0, 0xFFFFFFF, 0x0, 0x501464⟩,
  ⟨0x40080034, 4, 1, 0x0, 0x3FFFFFFF, 0x0, 0x1F400000⟩,
  ⟨0x40080038, 4, 1, 0x0, 0x0, 0x1F, 0x0⟩,
  ⟨0x4008003C, 4, 1, 0x1F, 0x0, 0x0, 0x0⟩,
  ⟨0x40080100, 32, 7, 0x0, 0xFFFFFF, 0x0, 0x400000⟩,
  ⟨0x40080104, 32, 7, 0x0, 0xFFFFFF, 0x0, 0x0⟩,
  ⟨0x40080108, 32, 7, 0x70000, 0xFFFF, 0x0, 0x0⟩,
  ⟨0x4008010C, 32, 7, 0x0, 0xFFFFFFFF, 0x0, 0x0⟩,
  ⟨0x40080110, 32, 7, 0x0, 0x0, 0x0, 0x0⟩,
  ⟨0x40080200, 4, 3, 0x0, 0x0, 0x0, 0x0⟩]

/-- Registers of the BIL block. -/
def regsBil : List RegDef := [
  ⟨0x40090000, 4, 1, 0x0, 0x1, 0x0, 0x0⟩,
  ⟨0x40090004, 4, 1, 0x0, 0x0, 0x0, 0x0⟩,
  ⟨0x40090008, 4, 1, 0x0, 0x0, 0x0, 0x0⟩,
  ⟨0x4009000C, 4, 1, 0x0, 0x0, 0x0, 0x0⟩,
  ⟨0x40090010, 4, 1, 0x0, 0x0, 0x0, 0x0⟩,
  ⟨0x40090014, 4, 1, 0x0, 0x0, 0x0, 0x0⟩,
  ⟨0x40090018, 4, 1, 0x0, 0x0, 0x0, 0x0⟩,
  ⟨0x4009001C, 4, 1, 0x0, 0x0, 0x0, 0x0⟩,
  ⟨0x40090020, 4, 1, 0x0, 0x0, 0x0, 0x0⟩,
  ⟨0x40090024, 4, 1, 0x0, 0x1FF, 0x0, 0x0⟩,
  ⟨0x40090028, 4, 1, 0x0, 0x1FFFFF, 0x0, 0x0⟩,
  ⟨0x4009002C, 4, 1, 0x0, 0x0, 0x0, 0x0⟩,
  ⟨0x40090030, 4, 1, 0x0, 0x0, 0x1F, 0x0⟩,
  ⟨0x40090034, 4, 1, 0x1F, 0x0, 0x0, 0x0⟩,
  ⟨0x40090100, 8, 32, 0x0, 0x0, 0x0, 0x0⟩,
  ⟨0x40090104, 8, 32, 0x0, 0x0, 0x0, 0x0⟩,
  ⟨0x40090200, 4, 1, 0x0, 0x0, 0x0, 0x0⟩,
  ⟨0x40090204, 4, 1, 0x0, 0x0, 0x0, 0x0⟩]

/-- Registers of the NET block. -/
def regsNet : List RegDef := [
  ⟨0x400A0000, 4, 1, 0x100, 0xFF, 0x0, 0x0⟩,
  ⟨0x400A0004, 4, 1, 0x0, 0x0, 0x0, 0x0⟩,
  ⟨0x400A0008, 4, 1, 0x0, 0xFFFFFFFF, 0x0, 0x0⟩,
  ⟨0x400A000C, 4, 1, 0x0, 0xFFFF, 0x0, 0x0⟩,
  ⟨0x400A0010, 4, 1, 0x0, 0xFFFFFFFF, 0x0, 0xB860B860⟩,
  ⟨0x400A0014, 4, 1, 0x0, 0xFFFFFFFF, 0x0, 0x0⟩,
  ⟨0x400A0018, 4, 1, 0x0, 0xFFFF01FF, 0x0, 0xC80010⟩,
  ⟨0x400A001C, 4, 1, 0x0, 0xFFFF, 0x0, 0x3250⟩,
  ⟨0x400A0020, 4, 1, 0x0, 0x0, 0x0, 0x0⟩,
  ⟨0x400A0024, 4, 1, 0x0, 0x0, 0x0, 0x0⟩,
  ⟨0x400A0028, 4, 1, 0x0, 0x0, 0x0, 0x0⟩,
  ⟨0x400A002C, 4, 1, 0x0, 0x0, 0x0, 0x0⟩,
  ⟨0x400A0030, 4, 1, 0x0, 0x0, 0x0, 0x0⟩,
  ⟨0x400A0034, 4, 1, 0x87FFFFFF, 0x0, 0x0, 0x0⟩,
  ⟨0x400A0040, 4, 1, 0x0, 0x0, 0x0, 0x0⟩,
  ⟨0x400A0044, 4, 1, 0x0, 0x0, 0x0, 0x0⟩,
  ⟨0x400A0048, 4, 1, 0x0, 0x0, 0x0, 0x0⟩,
  ⟨0x400A004C, 4, 1, 0x0, 0x0, 0x0, 0x0⟩,
  ⟨0x400A0050, 4, 1, 0x0, 0x0, 0x0, 0x0⟩,
  ⟨0x400A0054, 4, 1, 0x0, 0x0, 0x0, 0x0⟩,
  ⟨0x400A0060, 4, 4, 0x0, 0x0, 0x0, 0x0⟩,
  ⟨0x400A0070, 4, 1, 0x0, 0x0, 0x1F, 0x0⟩,
  ⟨0x400A0074, 4, 1, 0x1F, 0x0, 0x0, 0x0⟩]

/-- Registers of the TIM block. -/
def regsTim : List RegDef := [
  ⟨0x400A8000, 4, 1, 0x0, 0x7FFF, 0x0, 0x0⟩,
  ⟨0x400A8004, 4, 1, 0x0, 0x0, 0x0, 0x0⟩,
  ⟨0x400A8008, 4, 1, 0x0, 0x0, 0x0, 0x0⟩,
  ⟨0x400A800C, 4, 1, 0x0, 0x0, 0x0, 0x0⟩,
  ⟨0x400A8010, 4, 1, 0x0, 0x0, 0x0, 0x0⟩,
  ⟨0x400A8014, 4, 1, 0x0, 0x0, 0x0, 0x0⟩,
  ⟨0x400A8018, 4, 1, 0x0, 0x0, 0x0, 0x0⟩,
  ⟨0x400A801C, 4, 1, 0x0, 0x1FFFFFF, 0x0, 0x640064⟩,
  ⟨0x400A8020, 4, 1, 0x0, 0xFFFFFFFF, 0x0, 0x180A03E8⟩,
  ⟨0x400A8024, 4, 1, 0x0, 0xFFFF, 0x0, 0x2503E8⟩,
  ⟨0x400A8028, 4, 1, 0x0, 0x0, 0x0, 0x0⟩,
  ⟨0x400A8030, 4, 1, 0x0, 0x0, 0x7F, 0x0⟩,
  ⟨0x400A8034, 4, 1, 0x7F, 0x0, 0x0, 0x0⟩,
  ⟨0x400A8100, 64, 8, 0x0, 0xFFFF3F, 0x0, 0x0⟩,
  ⟨0x400A8104, 64, 8, 0x0, 0xFFFFF, 0x0, 0x0⟩,
  ⟨0x400A8108, 64, 8, 0x0, 0xFFFFFFFF, 0x0, 0x0⟩,
  ⟨0x400A810C, 64, 8, 0x0, 0xFFFFFFFF, 0x0, 0x0⟩,
  ⟨0x400A8110, 64, 8, 0x0, 0xFFFFFFFF, 0x0, 0x0⟩,
  ⟨0x400A8114, 64, 8, 0x0, 0xFFFFFFFF, 0x0, 0x0⟩,
  ⟨0x400A8118, 64, 8, 0x0, 0xFFFFFFFF, 0x0, 0x0⟩,
  ⟨0x400A811C, 64, 8, 0x0, 0xFFFFFFFF, 0x0, 0x0⟩,
  ⟨0x400A8120, 64, 8, 0x0, 0x0, 0x0, 0x0⟩,
  ⟨0x400A8124, 64, 8, 0x0, 0x0, 0x0, 0x0⟩,
  ⟨0x400A8128, 64, 8, 0x0, 0x0, 0x0, 0x0⟩,
  ⟨0x400A8300, 16, 4, 0x0, 0xFF07, 0x0, 0x0⟩,
  ⟨0x400A8304, 16, 4, 0x0, 0x0, 0x0, 0x0⟩,
  ⟨0x400A8308, 16, 4, 0x0, 0x0, 0x0, 0x0⟩,
  ⟨0x400A830C, 16, 4, 0x0, 0x0, 0x0, 0x0⟩]

/-- Registers of the MED block. -/
def regsMed : List RegDef := [
  ⟨0x400B0000, 4, 1, 0x0, 0x7, 0x0, 0x0⟩,
  ⟨0x400B0004, 4, 1, 0x0, 0x0, 0x0, 0x0⟩,
  ⟨0x400B0008, 4, 1, 0x0, 0x0, 0x0, 0x0⟩,
  ⟨0x400B000C, 4, 1, 0x0, 0x0, 0x0, 0x0⟩,
  ⟨0x400B0010, 4, 1, 0x0, 0x0, 0x0, 0x0⟩,
  ⟨0x400B0014, 4, 1, 0x0, 0x0, 0x0, 0x0⟩,
  ⟨0x400B0018, 4, 1, 0x0, 0x0, 0x0, 0x0⟩,
  ⟨0x400B001C, 4, 1, 0x0, 0x0, 0x0, 0x0⟩,
  ⟨0x400B0020, 4, 1, 0x0, 0x0, 0x0, 0x0⟩,
  ⟨0x400B0024, 4, 1, 0x0, 0x0, 0x0, 0x0⟩,
  ⟨0x400B0028, 4, 1, 0x0, 0x0, 0x0, 0x0⟩,
  ⟨0x400B002C, 4, 1, 0x0, 0x0, 0x0, 0x0⟩,
  ⟨0x400B0030, 4, 1, 0x0, 0x0, 0x0, 0x0⟩,
  ⟨0x400B0034, 4, 1, 0x0, 0x0, 0x0, 0x0⟩,
  ⟨0x400B0038, 4, 1, 0x0, 0x0, 0x0, 0x0⟩,
  ⟨0x400B003C, 4, 1, 0x0, 0x0, 0x0, 0x0⟩,
  ⟨0x400B0040, 4, 8, 0x0, 0x0, 0x0, 0x0⟩,
  ⟨0x400B0060, 4, 1, 0x0, 0x0, 0x3F, 0x0⟩,
  ⟨0x400B0064, 4, 1, 0x3F, 0x0, 0x0, 0x0⟩,
  ⟨0x400B0068, 4, 1, 0x0, 0x0, 0x0, 0x0⟩,
  ⟨0x400B006C, 4, 1, 0x0, 0x0, 0x0, 0x0⟩]

/-- Registers of the EVR block. -/
def regsEvr : List RegDef := [
  ⟨0x400C0000, 4, 1, 0x0, 0x1, 0x0, 0x0⟩,
  ⟨0x400C0004, 4, 1, 0x0, 0x0, 0x0, 0x0⟩,
  ⟨0x400C0008, 4, 1, 0x0, 0x0, 0x0, 0x0⟩,
  ⟨0x400C000C, 4, 1, 0x0, 0x0, 0x0, 0x0⟩,
  ⟨0x400C0010, 4, 1, 0x0, 0x0, 0x0, 0x0⟩,
  ⟨0x400C0014, 4, 1, 0x0, 0x0, 0x0, 0xF0000000⟩,
  ⟨0x400C0018, 4, 1, 0x0, 0x0, 0x0, 0x0⟩,
  ⟨0x400C001C, 4, 1, 0x0, 0x0, 0x0, 0x0⟩,
  ⟨0x400C0020, 4, 1, 0x0, 0x0, 0x0, 0x0⟩,
  ⟨0x400C0030, 4, 1, 0x0, 0x0, 0x3, 0x0⟩,
  ⟨0x400C0034, 4, 1, 0x3, 0x0, 0x0, 0x0⟩]

/-- Registers of the SEF block. -/
def regsSef : List RegDef := [
  ⟨0x400D0000, 4, 1, 0x0, 0x7, 0x0, 0x0⟩,
  ⟨0x400D0004, 4, 1, 0x0, 0x0, 0x0, 0x2000⟩,
  ⟨0x400D0008, 4, 1, 0x1, 0x0, 0x0, 0x0⟩,
  ⟨0x400D000C, 4, 1, 0x0, 0x0, 0x0, 0x0⟩,
  ⟨0x400D0010, 4, 1, 0x0, 0x0, 0x0, 0x0⟩,
  ⟨0x400D0014, 4, 1, 0x0, 0x1F1F1F, 0x0, 0x3000000⟩,
  ⟨0x400D0018, 4, 1, 0x0, 0x0, 0x0, 0x0⟩,
  ⟨0x400D001C, 4, 1, 0x0, 0xFFFFFFFF, 0x0, 0x3E802814⟩,
  ⟨0x400D0020, 4, 1, 0x0, 0x1FFFFF, 0x0, 0x4000⟩,
  ⟨0x400D0028, 4, 1, 0x0, 0x0, 0x0, 0x0⟩,
  ⟨0x400D002C, 4, 1, 0x0, 0x0, 0x0, 0x0⟩,
  ⟨0x400D0030, 4, 1, 0x0, 0x0, 0x0, 0x0⟩,
  ⟨0x400D0034, 4, 1, 0x0, 0x0, 0x0, 0x0⟩,
  ⟨0x400D0038, 4, 1, 0x0, 0x0, 0x0, 0x0⟩,
  ⟨0x400D003C, 4, 1, 0x0, 0x0, 0x0, 0x0⟩,
  ⟨0x400D0040, 4, 1, 0x0, 0x0, 0x0, 0x0⟩,
  ⟨0x400D0044, 4, 1, 0x0, 0x0, 0x0, 0x0⟩,
  ⟨0x400D0048, 4, 1, 0x0, 0x0, 0x0, 0x0⟩,
  ⟨0x400D004C, 4, 1, 0x0, 0x0, 0x0, 0x0⟩,
  ⟨0x400D0050, 4, 1, 0x0, 0x0, 0x0, 0x0⟩,
  ⟨0x400D0054, 4, 1, 0x0, 0x0, 0x0, 0x0⟩,
  ⟨0x400D0060, 4, 1, 0x0, 0x0, 0x3FF, 0x0⟩,
  ⟨0x400D0064, 4, 1, 0x3FF, 0x0, 0x0, 0x0⟩]

/-- Registers of the OAS block. -/
def regsOas : List RegDef := [
  ⟨0x400E0000, 4, 1, 0x0, 0x0, 0x0, 0x0⟩,
  ⟨0x400E0004, 4, 1, 0x0, 0x0, 0x0, 0x0⟩,
  ⟨0x400E0008, 4, 1, 0x0, 0x0, 0x0, 0x0⟩,
  ⟨0x400E000C, 4, 1, 0x0, 0x0, 0x0, 0x25000000⟩,
  ⟨0x400E0010, 4, 1, 0xFFFFFFFF, 0x0, 0x0, 0x0⟩,
  ⟨0x400E0014, 4, 1, 0xFFFFFFFF, 0x0, 0x0, 0x0⟩,
  ⟨0x400E0018, 4, 1, 0x0, 0x0, 0x0, 0x0⟩,
  ⟨0x400E001C, 4, 1, 0x0, 0x0, 0x32, 0x1⟩,
  ⟨0x400E0020, 4, 1, 0xFFFFFF, 0x0, 0x0, 0x0⟩,
  ⟨0x400E0024, 4, 1, 0x0, 0xFFFFFF, 0x0, 0x1908B4⟩,
  ⟨0x400E0028, 4, 1, 0xFFFFFFFF, 0x0, 0x0, 0x0⟩,
  ⟨0x400E002C, 4, 1, 0xFF, 0x0, 0x0, 0x25⟩,
  ⟨0x400E0030, 4, 1, 0x0, 0x0, 0x0, 0x0⟩,
  ⟨0x400E0034, 4, 1, 0x3, 0x0, 0x0, 0x0⟩,
  ⟨0x400E0100, 4, 1, 0x3FFF0000, 0x0, 0x0, 0x1⟩,
  ⟨0x400E0104, 4, 1, 0x0, 0x0, 0x0, 0x0⟩,
  ⟨0x400E0108, 4, 1, 0x0, 0x0, 0x0, 0x0⟩,
  ⟨0x400E010C, 4, 1, 0x0, 0x0, 0x0, 0x0⟩,
  ⟨0x400E0110, 4, 1, 0x0, 0x0, 0x0, 0x0⟩,
  ⟨0x400E0114, 4, 1, 0x0, 0x0, 0x0, 0x0⟩,
  ⟨0x400E0200, 4, 1, 0x0, 0x7FFFF, 0x0, 0x0⟩,
  ⟨0x400E0204, 4, 1, 0x0, 0x0, 0x0, 0x0⟩,
  ⟨0x400E0208, 4, 1, 0x0, 0x0, 0x0, 0x0⟩,
  ⟨0x400E0300, 4, 1, 0x0, 0x0, 0x0, 0x0⟩]

/-- Registers of the ARB block. -/
def regsArb : List RegDef := [
  ⟨0x400F0000, 4, 1, 0x0, 0x3, 0x0, 0x0⟩,
  ⟨0x400F0004, 4, 1, 0x0, 0x1FFFF, 0x0, 0x0⟩,
  ⟨0x400F0008, 4, 1, 0x0, 0x1FFFF, 0x0, 0x1FFFF⟩,
  ⟨0x400F000C, 4, 1, 0x0, 0x0, 0x0, 0x0⟩,
  ⟨0x400F0010, 4, 1, 0x0, 0x0, 0x0, 0x0⟩,
  ⟨0x400F0014, 4, 1, 0x0, 0x0, 0x0, 0x0⟩,
  ⟨0x400F0018, 4, 1, 0x0, 0x0, 0x0, 0x0⟩,
  ⟨0x400F001C, 4, 1, 0x0, 0x0, 0x0, 0x0⟩,
  ⟨0x400F0020, 4, 1, 0x0, 0x0, 0x0, 0x0⟩,
  ⟨0x400F0024, 4, 1, 0xFFFF, 0x0, 0x0, 0x0⟩,
  ⟨0x400F0028, 4, 1, 0x0, 0x0, 0x0, 0x0⟩,
  ⟨0x400F002C, 4, 1, 0x0, 0x0, 0x0, 0x0⟩,
  ⟨0x400F0030, 4, 1, 0x0, 0x0, 0x0, 0x0⟩,
  ⟨0x400F0034, 4, 1, 0x0, 0x0, 0x7, 0x0⟩,
  ⟨0x400F0038, 4, 1, 0x7, 0x0, 0x0, 0x0⟩]

/-- The registers of the block in which an address lies (R7). -/
def blockRegs (a : Nat) : List RegDef :=
  if 0x400F0000 ≤ a then regsArb
  else if 0x400E0000 ≤ a then regsOas
  else if 0x400D0000 ≤ a then regsSef
  else if 0x400C0000 ≤ a then regsEvr
  else if 0x400B0000 ≤ a then regsMed
  else if 0x400A8000 ≤ a then regsTim
  else if 0x400A0000 ≤ a then regsNet
  else if 0x40090000 ≤ a then regsBil
  else if 0x40080000 ≤ a then regsMtr
  else if 0x40070000 ≤ a then regsPlc
  else if 0x40060000 ≤ a then regsRad
  else if 0x40050000 ≤ a then regsKey
  else if 0x40040000 ≤ a then regsCph
  else if 0x40030000 ≤ a then regsErg
  else if 0x40020000 ≤ a then regsJsq
  else if 0x40010000 ≤ a then regsQf
  else if 0x40000000 ≤ a then regsSys
  else []

/-- Whether a register definition covers an address. -/
def RegDef.covers (r : RegDef) (a : Nat) : Bool :=
  decide (r.addr ≤ a) && decide (a < r.addr + r.stride * r.count) && (a - r.addr) % r.stride == 0

/-- The register defined at an address, if any (R9). -/
def regAt (a : Nat) : Option RegDef := (blockRegs a).find? fun r => r.covers a

/-- The reset value of the register at an address; 0 where none is defined (R9, R14). -/
def regReset (a : Nat) : Word := match regAt a with | some r => BitVec.ofNat 32 r.reset | none => 0

end Sys2Proof.Machine
end

