-- ==== Sys2Proof/Machine/MacTypes.lean ====
section
/-! DEFINITION. The plain data of the arbiter, the radio MAC and the power-line MAC (chapters 04, 09 and 10 of the spec). -/
namespace Sys2Proof.Machine

/-! ### The arbiter (R173 to R182) -/

/-- A 64-bit word of the store that carries a SECDED code (R148, R172): of a slot, of its gate entry, of an EUI index cell, or of a bank's lock and
fault bits. -/
inductive StoreWord where
  | slot (i w : Nat)
  | gate (i w : Nat)
  | index (cell : Nat)
  | bits (bank w : Nat)
  deriving DecidableEq, Repr

/-- A filled cell of the EUI index (R148). Cells 4 b to 4 b + 3 are bucket `b`, in bank `b` mod 16. -/
structure IdxCell where
  cell : Nat
  eui  : Nat
  slot : Nat
  deriving DecidableEq, Repr

/-- The arbiter and the side stores: the quota window's number and the grants counted in it, of each MAC and per bank, and those already granted to
masked requests in the window after it (R176, R180); the words that hold flipped bits, with how many; the EUI index; the slots whose lock bit is set; and
whether context has been restored. -/
structure Arb where
  window : Nat := 0
  rad    : Nat := 0
  plc    : Nat := 0
  banks  : List Nat := []
  nrad   : Nat := 0
  nplc   : Nat := 0
  nbanks : List Nat := []
  flips  : List (StoreWord × Nat) := []
  index  : List IdxCell := []
  locks  : List Nat := []
  restored : Bool := false
  deriving DecidableEq, Repr

/-! ### What both MACs hold -/

/-- A DOWN held for a slot (R374, R408). -/
structure HeldDown where
  slot  : Nat
  push  : Nat
  frame : Bytes
  since : Nat
  deriving DecidableEq, Repr

/-- An entry of a seen cache (R368). -/
structure Seen where
  orig : Nat
  cid  : Nat
  at_  : Nat
  deriving DecidableEq, Repr

/-! ### The radio -/

/-- How far an exchange has come (R348). -/
inductive XStep where
  | train | polled | cont | lastAck | down | downSent
  deriving DecidableEq, Repr

/-- The exchange in progress (R348 to R351): `due` is the elapsed time of the next instant expected of it, `wake` the planned wake instant in
units of 2^-13 s. The train: its first frame, the distance of its frames, the airtime of one and their number (R360, R363); `aborted` marks
a full train that its budget cut short (R372). -/
structure Exchange where
  slot   : Nat
  full   : Bool
  wake   : Nat
  step   : XStep := .train
  due    : Nat
  from_  : Nat := 0
  period : Nat := 0
  air    : Nat := 0
  count  : Nat := 0
  aborted : Bool := false
  paid   : Nat := 0
  pt     : Nat := 0
  ptAt   : Nat := 0
  maxF   : Nat := 1
  frames : Nat := 0
  answered : Bool := false
  acked  : Bool := false
  push   : Nat := 0
  deriving DecidableEq, Repr

/-- An acknowledgement that waits for its instant (R344). -/
structure PendAck where
  chan  : Nat
  mode  : Nat
  ended : Nat
  due   : Nat
  dst   : Nat
  slot  : Option Nat
  seq   : Nat
  verd  : Nat
  cont  : Bool
  join  : Option (Nat × Nat) := none
  xch   : Bool := false
  deriving DecidableEq, Repr

/-- Transmissions of one kind at equal distances: the elapsed time of the first symbol, the distance, the airtime of each and their number. -/
structure TxSpan where
  from_  : Nat
  period : Nat := 0
  air    : Nat
  count  : Nat := 1
  deriving DecidableEq, Repr

/-- The radio (R325 to R380). The budget counts units of 2^-28 µs of airtime (R371); `txs` holds the transmissions of the last 20 s, `cutAt`
when the synthesizer last lost lock (R648). -/
structure Radio where
  polls  : List (Nat × PollEnt) := []
  downs  : List HeldDown := []
  xch    : Option Exchange := none
  acks   : List PendAck := []
  seen   : List Seen := []
  cid    : Nat := 0
  budget : Nat := 0
  budgetAt : Nat := 0
  txs    : List TxSpan := []
  cutAt  : Option Nat := none
  deriving DecidableEq, Repr

/-! ### The power line -/

/-- One phase: its accepted edges in device time, newest first by polarity, the latest edge, the half-cycles counted, crossings in and out of
prediction in a row, lock, the contention reference and the last symbol being sent, as half-cycle numbers (R382 to R384, R398); the predicted instant of the
latest crossing and the symbols still to be sent, one each half-cycle (R383, R392); the energies of each slot over the last 64 half-cycles without a sensed
pulse, newest first (R388). -/
structure PlcPhase where
  rises  : List Nat := []
  falls  : List Nat := []
  last   : Option Nat := none
  count  : Nat := 0
  good   : Nat := 0
  bad    : Nat := 0
  locked : Bool := false
  cr     : Nat := 0
  txEnd  : Nat := 0
  pred   : Option Nat := none
  sending : List (Fin 4) := []
  floor  : List PulseEnergy := []
  deriving DecidableEq, Repr

/-- A frame that waits to be sent on a phase, or that was sent and waits for its short acknowledgement since the crossing of its last symbol
(R400 to R402); the slot, push and DCNT of a DOWN; whether TIME of a BEACON is still to be written. -/
structure PlcTx where
  phase  : Nat
  prio   : Nat
  mpdu   : Bytes
  ackreq : Bool
  seq    : Nat := 0
  tries  : Nat := 0
  sentX  : Option Nat := none
  down   : Option (Nat × Nat × Nat) := none
  beacon : Bool := false
  deriving DecidableEq, Repr

/-- A short acknowledgement that waits for crossing X + 4 (R399). -/
structure PendShort where
  phase : Nat
  at_   : Nat
  seq   : Nat
  verd  : Nat
  dpend : Bool
  ltx   : Nat
  deriving DecidableEq, Repr

/-- A DOWN sent whose end-to-end acknowledgement is awaited (R408). -/
structure SentDown where
  slot  : Nat
  push  : Nat
  dcnt  : Nat
  since : Nat
  deriving DecidableEq, Repr

/-- A frame received last (R411): its phase, its end in elapsed time and its bytes. -/
structure PlcLast where
  phase : Nat
  at_   : Nat
  bytes : Bytes
  deriving DecidableEq, Repr

/-- The power-line channel (R381 to R417). -/
structure Plc where
  phases : List PlcPhase := [{}, {}, {}]
  coinc  : List Bool := [false, false, false]
  downs  : List HeldDown := []
  txq    : List PlcTx := []
  shorts : List PendShort := []
  sent   : List SentDown := []
  seen   : List Seen := []
  cid    : Nat := 0
  beaconAt : Nat := 0
  lastRx : Option PlcLast := none
  deriving DecidableEq, Repr

end Sys2Proof.Machine
end

