-- ==== Sys2Proof/Machine/MedTypes.lean ====
section
/-! DEFINITION. The plain data of the media (chapter 15 of the spec). -/
namespace Sys2Proof.Machine

/-- A verified unit (R560, R565): its address, its tag, its place among the units of its superblock's stripes and, in the JOURNAL region, its content, the
highest JSN whose entry ends in it or before it, the highest of whose entry it holds any byte and that entry's stamp; in the other regions what of theirs it
holds, by name: a checkpoint's number, RSNs, log numbers, or blocks of endpoint images. -/
structure MUnit where
  region : Nat
  lua    : Nat
  wtemp  : Int
  wseq   : Nat
  wtime  : Nat
  slc    : Bool
  sb     : Nat
  pos    : Nat := 0
  ends   : Nat := 0
  last   : Nat := 0
  stamp  : Nat := 0
  data   : Bytes := []
  holds  : List (Nat × Nat) := []
  deriving DecidableEq, Repr

/-- The state of a superblock (R562, R572, R576). -/
inductive SbState where
  | open_ | closed | erasing | reserve
  deriving DecidableEq, Repr

/-- A superblock in use: one block from each LUN (R562), the stream it takes units of, units programmed and when it closed. -/
structure Sb where
  id     : Nat
  blocks : List Nat
  region : Nat
  slc    : Bool
  st     : SbState
  used   : Nat := 0
  closedAt : Nat := 0
  deriving DecidableEq, Repr

/-- A block by its number over all LUNs: erase count, in use, retired (R564, R584). -/
structure Blk where
  erases : Nat := 0
  inUse  : Bool := false
  bad    : Bool := false
  deriving DecidableEq, Repr

/-- A journal unit being filled or waiting for its program (R568, R574): its bytes after the first 4, the offset of the first entry that
starts in it, when its first byte was placed, the highest JSN whose entry ends in it or before it, the highest of whose entry it holds any byte with that
entry's stamp, and whether it was flushed partly filled. -/
structure StUnit where
  data  : Bytes
  first : Option Nat
  since : Nat
  ends  : Nat := 0
  last  : Nat := 0
  stamp : Nat := 0
  part  : Bool := false
  deriving DecidableEq, Repr

/-- An image transfer (R701): KIND, XID, total length, and the 4 KiB blocks received. -/
structure Xfer where
  kind  : Nat
  xid   : Bytes
  total : Nat
  data  : List (Nat × Bytes) := []
  deriving DecidableEq, Repr

/-- What the media keep across resets; `board` is the media set on the board, `geom` the part of it that is in use (R597). -/
structure Nand where
  board  : Option NandGeom := none
  geom   : Option NandGeom := none
  units  : List MUnit := []
  sbs    : List Sb := []
  blks   : List (Nat × Blk) := []
  spares : List Nat := []
  spares0 : List Nat := []
  wseq   : Nat := 0
  jlua   : Nat := 0
  nextSb : Nat := 0
  corr   : Nat := 0
  retry  : Nat := 0
  rebuild : Nat := 0
  loss   : Nat := 0
  pfail  : Nat := 0
  efail  : Nat := 0
  refresh : Nat := 0
  badReq : Nat := 0
  temph  : List Nat := [0, 0, 0, 0, 0, 0, 0, 0]
  patrolAt : Nat := 0
  ckpts  : List Ckpt := []
  epochCkpts : List Ckpt := []
  csvn   : Nat := 0
  images : List (Bytes × Bytes) := []
  xfers  : List Xfer := []
  u2hMark : Nat := 0
  u2hGen : Nat := 0
  session : Nat := 0
  deriving DecidableEq, Repr

/-- Sabkha: the media and what it holds in its own SRAM (R561, R568, R574). -/
structure Med where
  nand   : Nand := {}
  run    : Bool := false
  refused : Bool := false
  fill   : Option StUnit := none
  wait   : List StUnit := []
  khamsin : Bool := false
  readOnly : Bool := false
  fgOn   : Bool := false
  bgOn   : Bool := false
  patrol : Bool := false
  idleSince : Nat := 0
  healthAt : Nat := 0
  journaled : Nat := 0
  fgCredit : Nat := 0
  patrolT : Nat := 0
  mode   : Option (Nat × Nat) := none
  iface  : Nat := 0
  rate   : Nat := 0
  ceEn   : Nat := 0
  slcPrefix : Nat := 0
  retMode : Nat := 0
  patrolD : Nat := 0
  refreshT : Nat := 0
  sparePm : Nat := 0
  peLimit : Nat := 0
  flushMs : Nat := 0
  bgIdle : Nat := 0
  bgFree : Nat := 0
  fgFree : Nat := 0
  cacheMax : Nat := 0
  jretH  : Nat := 0
  caps   : List Nat := []
  healthH : Nat := 0
  retryN : Nat := 0
  retryFa : Nat := 0
  retryP : List Bytes := []
  tt     : List Nat := []
  level  : Nat := 0
  deriving DecidableEq, Repr

end Sys2Proof.Machine
end

