-- ==== Sys2Proof/Machine/NetTypes.lean ====
section
/-! DEFINITION. The plain data of the backhaul: bridge, device port, sender and diagnostic stream (chapter 12 of the spec). -/
namespace Sys2Proof.Machine

/-- A learned source address of the bridge (R440). -/
structure BridgeEnt where
  mac  : Nat
  port : Nat
  at_  : Nat
  deriving DecidableEq, Repr

/-- A frame in the bridge, with whether its FCS is valid. -/
structure EthFrame where
  ok    : Bool
  bytes : Bytes
  deriving DecidableEq, Repr

/-- Port A or B (R439, R441, R466): its link, the end of a received PAUSE, the frames that wait for it, and the starts and lengths of frames
given to the egress that have not yet started. -/
structure NetPort where
  up     : Bool := false
  slow   : Bool := false
  pausedUntil : Nat := 0
  held   : List EthFrame := []
  queue  : List (Nat × Nat) := []
  busyTo : Nat := 0
  deriving DecidableEq, Repr

/-- The state of the IPv6 address (R443). -/
inductive DadState where
  | none | tentative | inUse | failed
  deriving DecidableEq, Repr

/-- A residence time that waits for its Follow_Up (R480). -/
structure Residence where
  ident : Bytes
  ns    : Nat
  at_   : Nat
  deriving DecidableEq, Repr

/-- A batch sent and not acknowledged (R453). -/
structure SentBatch where
  first : Nat
  count : Nat
  deriving DecidableEq, Repr

/-- A record of the diagnostic stream (R455). -/
structure DiagRec where
  esn   : Nat
  rtype : Nat
  bytes : Bytes
  deriving DecidableEq, Repr

/-- A BACK that waits for its batch to be durable (R464). -/
structure BackPend where
  jsn     : Nat
  sysaddr : Nat
  diag    : Bool
  session : Nat
  first   : Nat
  dst     : Option (Nat × Nat) := none
  deriving DecidableEq, Repr

/-- Where a received batch came from (R454): the stamp and the first 24 bytes of its datagram, source address and port. -/
structure NetSrc where
  stamp : Nat
  head  : Bytes
  addr  : Nat
  port  : Nat
  deriving DecidableEq, Repr

/-- An MDIO frame in progress (R469). -/
structure Mdio where
  write : Bool
  phyad : Nat
  regad : Nat
  data  : Nat
  start : Nat
  deriving DecidableEq, Repr

/-- The NET block. -/
structure Net where
  table   : List BridgeEnt := []
  ports   : List NetPort := [{}, {}]
  devIn   : List (Nat × Bytes) := []
  srcs    : List NetSrc := []
  addr6   : Bytes := []
  dad     : DadState := .none
  followUps : List Residence := []
  sentTo  : Nat := 0
  sent    : List SentBatch := []
  sentMax : Nat := 0
  rtoFrom : Nat := 0
  session : Nat := 0
  esn     : Nat := 0
  diag    : List DiagRec := []
  diagSent : Nat := 0
  diagMax : Nat := 0
  diagAck : Nat := 0
  sentDiag : List SentBatch := []
  rtoDiag : Nat := 0
  backs   : List BackPend := []
  backCtr : List (Nat × Nat) := []
  pausing : Bool := false
  lastPause : Nat := 0
  mdio    : Option Mdio := none
  deriving DecidableEq, Repr

end Sys2Proof.Machine
end

