-- ==== Sys2Proof/Machine/SecTypes.lean ====
section
/-! DEFINITION. The plain data of keys, cipher lanes and the life cycle (chapter 14 of the spec). -/
namespace Sys2Proof.Machine

/-- The life-cycle state (R547). -/
inductive LifeCycle where
  | blank | open_ | field | return_ | scrapped
  deriving DecidableEq, Repr

/-- A root slot of the OTP (R509): its marker and the value in it. -/
inductive Root where
  | empty
  | valid (v : Nat)
  | burned
  deriving DecidableEq, Repr

/-- The one-time-programmable memory (R509); no reset of any domain touches it. -/
structure Otp where
  roots : List Root := [.empty, .empty, .empty, .empty]
  lc    : LifeCycle := .blank
  opkHash : Bytes := []
  commissioned : Bool := false
  svn   : Nat := 0
  deriving DecidableEq, Repr

/-- A request of Q10 (R532): its operation and its payload words. -/
structure CphReq where
  op : Nat
  ws : List Word
  deriving DecidableEq, Repr

/-- What a lane's message is doing (R529, R531, R555). -/
inductive LaneStep where
  | loading | running | resuming
  deriving DecidableEq, Repr

/-- An AES lane: the running message and the suspended one (R529 to R531). -/
structure Lane where
  run  : Option (CphReq × LaneStep) := none
  susp : Option CphReq := none
  deriving DecidableEq, Repr

/-- A life-cycle transition that waits for its acknowledgement's release (R551), or, once `due`, for the TRNG health tests (R549). -/
structure LcPend where
  dst : LifeCycle
  ack : Nat
  due : Bool := false
  deriving DecidableEq, Repr

/-- Keys, lanes, engines and alarms (R509 to R557). -/
structure Sec where
  otp    : Otp := {}
  opk    : Bytes := []
  escalate : Bool := false
  maskGen : Bool := false
  mask   : Nat := 0
  lastMask : Nat := 0
  scramble : Nat := 0
  u2hGen : Nat := 0
  u2hCtr : Nat := 0
  u2hMark : Nat := 0
  lanes  : List Lane := List.replicate 16 {}
  ecc    : List (Option CphReq) := [none, none]
  waitQ  : List CphReq := []
  drbg   : Nat := 0
  calls  : Nat := 0
  lcPend : Option LcPend := none
  deriving DecidableEq, Repr

end Sys2Proof.Machine
end

