-- ==== Sys2Proof/Machine/SefTypes.lean ====
section
/-! DEFINITION. The plain data of the Seif chain, triads and the token (chapter 16 of the spec). -/
namespace Sys2Proof.Machine

/-- A link (R605 to R610): trained, disabled, LSEQ counters, the replay buffer with its resends, the frames that wait for room in it, and the
partner's position. -/
structure SefLink where
  up     : Bool := false
  dis    : Bool := false
  lseqTx : Nat := 0
  lseqRx : Nat := 0
  replay : List (Nat × Bytes) := []
  wait   : List Bytes := []
  resends : Nat := 0
  sentAt : Nat := 0
  partner : Option Nat := none
  deriving DecidableEq, Repr

/-- What the heartbeats of a unit told last (R611, R618), and the last HIGH of its JACKs (R620). -/
structure Peer where
  pos    : Nat
  unitId : Bytes
  state  : Nat
  rank   : Nat
  token  : Bool
  sysaddr : Nat
  cfg8   : Bytes
  nextJsn : Nat
  high   : Nat
  vsn    : Nat
  session : Nat
  heardAt : Nat
  link   : Nat
  present : Bool
  jack   : Nat := 0
  deriving DecidableEq, Repr

/-- A digest received from a peer (R622). -/
structure PeerVote where
  pos    : Nat
  vsn    : Nat
  digest : Bytes
  deriving DecidableEq, Repr

/-- A holder's catch-up (R630): the peers that have not yet answered, and since when. -/
structure CatchUp where
  asked : List Nat
  since : Nat
  deriving DecidableEq, Repr

/-- A resynchronisation (R636): the peer asked, its phase (0 journal asked from the last own entry, 1 checkpoint asked, 2 journal from
the cut), entries fetched and the parts of a checkpoint received. -/
structure Resync where
  peer    : Nat
  phase   : Nat
  fetched : Nat := 0
  desc    : Bytes := []
  body    : List (Nat × Bytes) := []
  records : List (Nat × Bytes) := []
  entries : List Entry := []
  deriving DecidableEq, Repr

/-- The Seif block; `inbox` holds the frames taken from the links and not yet acted on, `votes` the VSNs agreed, `unsent` the digests of outputs
released before their digest was sent. -/
structure Sef where
  on      : Bool := false
  state   : Nat := 0
  pos     : Option Nat := none
  head    : Bool := false
  ring    : Bool := false
  ringLast : Nat := 0
  links   : List SefLink := [{}, {}]
  enumAt  : Nat := 0
  hbAt    : Nat := 0
  posAt   : Nat := 0
  peers   : List Peer := []
  driver  : Bool := false
  lineLow : Bool := false
  lineSince : Nat := 0
  kickAt  : Nat := 0
  resetAt : Option Nat := none
  role    : Bool := false
  votes   : List Nat := []
  peerVotes : List PeerVote := []
  digestFrom : Nat := 0
  digestAt : Nat := 0
  splitAt : Option Nat := none
  catchUp : Option CatchUp := none
  resync  : Option Resync := none
  jackAt  : Nat := 0
  aloneAt : Nat := 0
  square  : Bool := false
  enumQ   : Option Nat := none
  inbox   : List (Nat × Bytes) := []
  unsent  : List (Nat × Bytes) := []
  agreedBelow : Nat := 0
  jackHigh : Nat := 0
  deriving DecidableEq, Repr

end Sys2Proof.Machine
end

