-- ==== Sys2Proof/Machine/SysTypes.lean ====
section
/-! DEFINITION. The plain data of supplies and start-up, the NOR, firmware update and replay (chapters 17 to 19 of the spec). -/
namespace Sys2Proof.Machine

/-- How far the main domain has come (R643, R649, R675, R691, R544, R550). -/
inductive RunPhase where
  | off | rom | ladder | service | keyless | recovery | alarmHold | scrapped
  deriving DecidableEq, Repr

/-- A Khamsin sequence (R653 to R657): when the warning came, in elapsed time, what raised it, the JSN and stamp of its SUP_WARN, the last
step completed and the gasps sent. -/
structure Khamsin where
  from_  : Nat
  pfail  : Bool
  warn   : Option (Nat × Nat) := none
  step   : Nat := 0
  net    : Bool := false
  chans  : List (Nat × Nat) := []
  deriving DecidableEq, Repr

/-- Supplies, clocks, ladder and governor; `plls` are the PLLs started and `locks` those in lock (R647), `alarms` are the tamper alarms detected on VBAT that wait to be journaled (R543), oldest first, each with its
stamp and its payload. -/
structure Sys where
  phase  : RunPhase := .off
  rails  : Bool := false
  warn   : Bool := false
  pfail  : Bool := false
  rungAt : Nat := 0
  kham   : Option Khamsin := none
  plls   : List Bool := [false, false, false, false]
  locks  : List Bool := [false, false, false, false]
  pwronAt : Option Nat := none
  vbatAt : Nat := 0
  thermAt : Nat := 0
  lowAt  : Nat := 0
  highAt : Nat := 0
  alarms : List (Nat × Bytes) := []
  deriving DecidableEq, Repr

/-- The NOR by its parts (R676, R679, R695): the two copies of the pointer table, the configuration slot and the firmware slots A and B, each as
its bytes that differ from the erased value. -/
structure Nor where
  pt0  : List (Nat × Byte) := []
  pt1  : List (Nat × Byte) := []
  cfg  : List (Nat × Byte) := []
  fwA  : List (Nat × Byte) := []
  fwB  : List (Nat × Byte) := []
  deriving DecidableEq, Repr

/-- The contents of a valid copy of the NOR pointer table (R676). -/
structure PtTable where
  copy  : Nat
  seq   : Nat
  pref  : Nat
  trial : Bool
  tries : Nat
  deriving DecidableEq, Repr

/-- The running firmware and configuration, updates and recovery (R691, R697, R698, R701, R704): `vio33` VIO18 measured at 3.3 V (R738), `img` the configuration image as the ROM read it, `secs`
the types of its sections in force, `startDue` a START entry not yet journaled, `cutJsn` the cut of the checkpoint restored (0 none), `carry` phase 1 of
R708. -/
structure Boot where
  slot   : Nat := 0
  svn    : Nat := 0
  csvn   : Nat := 0
  trial  : Bool := false
  trialJsn : Nat := 0
  fallback : Option Nat := none
  rcause : Nat := 0
  reason : Nat := 0
  updMode : Nat := 0
  updHour : Nat := 0
  cardOk : Bool := false
  updDone : Option Nat := none
  updHourAt : Option Nat := none
  erased : List (Nat × Nat) := []
  carry  : Bool := false
  restoring : Bool := false
  vio33  : Bool := false
  img    : Bytes := []
  secs   : List Nat := []
  startDue : Bool := false
  cutJsn : Nat := 0
  restartDue : Bool := false
  bcast  : Option Nat := none
  deriving DecidableEq, Repr

/-- A divergence entry of a replay report (R721). -/
structure Diverge where
  rsn   : Nat
  ojsn  : Nat
  rdig  : Bytes
  fdig  : Bytes
  subj  : Nat
  rtype : Nat
  dkind : Nat
  first : Nat
  deriving DecidableEq, Repr

/-- What a replaying station fetches over the chain (R715): the order, the peer, its step (0 the peer is not yet heard, 1 the checkpoint, 2 the records,
3 the journal), and the data received with their offsets. -/
structure Fetch where
  order : Bytes
  peer  : Nat
  step  : Nat := 0
  desc  : Bytes := []
  body  : List (Nat × Bytes) := []
  recs  : List (Nat × Bytes) := []
  jnl   : List (Nat × Bytes) := []
  deriving DecidableEq, Repr

/-- The replay report (R721), what is being fetched for it, and the service card. -/
structure Replay where
  ran    : Bool := false
  result : Nat := 0
  stop   : Nat := 0
  reason : Nat := 0
  source : Nat := 0
  ckptNo : Nat := 0
  cutJsn : Nat := 0
  lastJsn : Nat := 0
  firstRsn : Nat := 0
  outputs : Nat := 0
  compared : Nat := 0
  diverged : Nat := 0
  unref  : Nat := 0
  firstDiv : Nat := 18446744073709551615
  divs   : List Diverge := []
  fetch  : Option Fetch := none
  card   : Option Card := none
  deriving DecidableEq, Repr

end Sys2Proof.Machine
end

