-- ==== Sys2Proof/Machine/TimeTypes.lean ====
section
/-! DEFINITION. The plain data of the time subsystem: the servo, the pending step, the timed outputs and capture inputs (R473
to R502), and the Oasis clock (R488 to R493). -/
namespace Sys2Proof.Machine

/-- The servo states (R473). -/
inductive Servo where
  | free | acquire | locked | holdover
  deriving DecidableEq, Repr

/-- A step that waits for its whole second (R483, R486). -/
structure StepPend where
  delta   : Int
  source  : Nat
  replica : Bool := false
  deriving DecidableEq, Repr

/-- A master heard in Announce messages (R479): its rank, its UTC offset, its announce interval and when it was heard. -/
structure Master where
  src      : Nat
  rank     : List Nat
  utc      : Option Nat
  interval : Nat
  heard    : List Nat
  deriving DecidableEq, Repr

/-- A timed output (R494 to R499): pulses released and not yet fired, the next instance of modes 1 and 2, the programmed time
of the last pulse fired, and the elapsed time until which the output is active. -/
structure CtlOut where
  pulses : List Nat := []
  k      : Nat := 0
  last   : Nat := 0
  activeUntil : Nat := 0
  deriving DecidableEq, Repr

/-- The TIM block (R470 to R502). -/
structure Tim where
  servo    : Servo := .free
  stepUsed : Bool := false
  pend     : Option StepPend := none
  meas     : List Int := []
  lockRun  : Nat := 0
  integral : Int := 0
  masters  : List Master := []
  master   : Option Nat := none
  lastSync : Nat := 0
  mpd      : Nat := 0
  linkDelay : List Nat := [0, 0]
  mismatch : Bool := false
  lastSave : Nat := 0
  calFrom  : Option (Nat × Nat × Nat) := none
  mains    : Option (Nat × Nat) := none
  ctl      : List CtlOut := [{}, {}, {}, {}, {}, {}, {}, {}]
  ctlFrom  : Nat := 0
  evq      : List (List (Nat × Bool)) := [[], [], [], []]
  deriving DecidableEq, Repr

/-- The frozen OAS_TIME0 to OAS_TIME3 of a requester, and the elapsed time of the freeze (R492). -/
structure Shadow where
  w0 : Word
  w1 : Word
  w2 : Word
  w3 : Word
  since : Nat
  deriving DecidableEq, Repr

/-- The Oasis clock (R488 to R493). `raw` counts units of 2^-28 s, of which the clock shows whole ticks of 2^-15 s; `acc` is the
trim accumulator in 2^-20 µs. -/
structure Oasis where
  raw      : Nat := 0
  acc      : Int := 0
  stgPend  : Option Nat := none
  shadow   : PerWho (Option Shadow) := ⟨none, none, none⟩
  stale    : PerWho Bool := ⟨false, false, false⟩
  trimSec  : Nat := 0
  tempAge  : Nat := 0
  ppsSec   : Nat := 0
  ppsUntil : Nat := 0
  deriving DecidableEq, Repr

end Sys2Proof.Machine
end

