-- ==== Sys2Proof/Machine/State.lean ====
section
/-! DEFINITION. The state of the Ikinus as plain data, its faults and refusals, and the state right after reset. -/
namespace Sys2Proof.Machine

/-- Why a step stops with a fault. No command of the spec stops this block: every rule gives a next state (a bus error
is a reply), so the one reason is never raised. Safe. -/
inductive Fault where
  /-- Raised by nothing. Safe. -/
  | none
  deriving DecidableEq, Repr

/-- Why a step is refused. -/
inductive Refusal where
  /-- Raised by the dispatch for a command that has no meaning yet. Safe. -/
  | notModelled (mnemonic : String)
  deriving DecidableEq, Repr

/-- The running configuration: what the boot ROM applied from the configuration image (R675, R684). -/
structure RunCfg where
  role    : Role := .none
  hash    : Bytes := []
  sysaddr : Nat := 0
  valid   : List ClassEnt := []
  tariff  : Option Tariff := none
  balance : Option Balance := none
  radio   : List RadClass := []
  utcBase : Int := 37
  leaps   : List Leap := []
  hashKey : Nat := 0
  net     : NetCfg := {}
  deriving DecidableEq, Repr

/-- The journal sequencer (R26 to R76). `spanFrom` is the device time at which stamps began to be flagged as they are now, `spans` holds the spans
before it, newest first. -/
structure Seq where
  journal  : List Entry := []
  nextJsn  : Nat := 0
  durable  : Nat := 0
  lastDur  : Nat := 0
  stallFired : Bool := false
  hold     : Option Hold := none
  bndBase  : Nat := 0
  unsure   : Bool := false
  regressed : Bool := false
  khamsin  : Bool := false
  ckptReq  : Bool := false
  lastCkpt : Option (Nat × Nat) := none
  ckptNo   : Nat := 0
  ckpts    : List Ckpt := []
  ckptBusy : List Ckpt := []
  spanFrom : Nat := 0
  spans    : List Span := []
  holder   : Bool := false
  pos      : Nat := 0
  deriving DecidableEq, Repr

/-- The engine array (R108 to R145). -/
structure Erg where
  keys     : List KeyQ := []
  toDispatch : List Entry := []
  dispatched : Nat := 0
  dunes    : List Dune := [{}, {}, {}, {}, {}, {}, {}, {}]
  maxAwake : Nat := 8
  poolFull : Bool := false
  spilled  : List ParkRec := []
  outq     : List Output := []
  deriving DecidableEq, Repr

/-- The machine. -/
structure State where
  pending  : List Instr := []
  t        : Nat := 0
  dev      : Nat := 0
  devSub   : Nat := 0
  freeCtr  : Nat := 0
  reply    : PerWho Reply := ⟨.none, .none, .none⟩
  emitted  : List Emission := []
  regs     : List (Nat × Word) := []
  wram     : List (Nat × Byte) := []
  code     : List (Nat × Byte) := []
  latch    : List (Nat × Word) := []
  locked   : Bool := false
  cfg      : RunCfg := {}
  sysKey   : Option Nat := none
  rings    : List Ring := List.replicate 16 {}
  seq      : Seq := {}
  erg      : Erg := {}
  ctx      : Ctx := {}
  obox     : List OboxRec := []
  fe       : FrontEnd := {}
  evr      : Evr := {}
  tim      : Tim := {}
  oas      : Oasis := {}
  sec      : Sec := {}
  net      : Net := {}
  arb      : Arb := {}
  rad      : Radio := {}
  plc      : Plc := {}
  med      : Med := {}
  sef      : Sef := {}
  pow      : Sys := {}
  nor      : Nor := {}
  boot     : Boot := {}
  rpl      : Replay := {}
  deriving DecidableEq, Repr

/-- The machine right after reset. -/
def State.reset : State := {}

end Sys2Proof.Machine
end

