-- ==== Sys2Proof/Machine/Ops.lean ====
section
/-! DEFINITION. The named operations over registers, elapsed and device time, bus replies, memory and slots. -/
namespace Sys2Proof.Machine

/-! ### Registers (R8 to R14) -/

/-- The stored value of the register at an address (its reset value until something is stored, R14). -/
def State.reg (s : State) (a : Nat) : Nat := (sget regReset s.regs a).toNat

/-- Store a register. -/
def State.setReg (s : State) (a v : Nat) : State := { s with regs := sput regReset s.regs a (BitVec.ofNat 32 v) }

/-- Field `hi` to `lo` of a stored register. -/
def State.fld (s : State) (a hi lo : Nat) : Nat := bits hi lo (s.reg a)

/-- Bit `k` of a stored register. -/
def State.bitOf (s : State) (a k : Nat) : Bool := bit k (s.reg a)

/-- Hardware sets bit `k` of an interrupt register (W1C, R13). -/
def State.irq (s : State) (a k : Nat) : State := if s.bitOf a k then s else s.setReg a (s.reg a + 2 ^ k)

/-- Hardware sets or clears bit `k` of a stored register. -/
def State.setBit (s : State) (a k : Nat) (b : Bool) : State := s.setReg a (setBits k k (s.reg a) (if b then 1 else 0))

/-- Hardware writes field `hi` to `lo` of a stored register. -/
def State.setFld (s : State) (a hi lo v : Nat) : State := s.setReg a (setBits hi lo (s.reg a) v)

/-- A counter register advances by `n` and saturates at 0xFFFF_FFFF. -/
def State.count (s : State) (a n : Nat) : State := s.setReg a (satAdd 0xFFFFFFFF (s.reg a) n)

/-! ### Replies -/

/-- The value of one requester. -/
def PerWho.at {α : Type} (p : PerWho α) : Who → α
  | .dev => p.dev
  | .seif => p.seif
  | .maint => p.maint

/-- Replace the value of one requester. -/
def PerWho.put {α : Type} (p : PerWho α) (w : Who) (x : α) : PerWho α :=
  match w with
  | .dev => { p with dev := x }
  | .seif => { p with seif := x }
  | .maint => { p with maint := x }

/-- Answer a requester's access. -/
def State.answer (s : State) (w : Who) (r : Reply) : State := { s with reply := s.reply.put w r }

/-- An access ends with a bus error and nothing else (R8). -/
def State.busErr (s : State) (w : Who) : State := s.answer w .busError

/-! ### Time -/

/-- One second in units of 2^-28 s (R18). -/
def second : Nat := 268435456

/-- Milliseconds in units of 2^-28 s, rounded down. -/
def msU (n : Nat) : Nat := n * second / 1000

/-- Microseconds in units of 2^-28 s, rounded down. -/
def usU (n : Nat) : Nat := n * second / 1000000

/-- Nanoseconds in units of 2^-28 s, rounded down. -/
def nsU (n : Nat) : Nat := n * second / 1000000000

/-- The device-time counter after `dt` units at rate correction `adj` in 2^-10 ppb, over 32 further fraction bits (R470). -/
def devAfter (dev sub dt : Nat) (adj : Int) : Nat × Nat :=
  let x : Int := ((dev * 4294967296 + sub + dt * 4294967296 : Nat) : Int) + ((dt * 4294967296 : Nat) : Int) * adj / 1024000000000
  (x.toNat / 4294967296, x.toNat % 4294967296)

/-- Let `dt` units of elapsed time pass: device time moves by rate only (R471), and the Oasis clock counts (R488). -/
def State.advance (s : State) (dt : Nat) : State :=
  let d := devAfter s.dev s.devSub dt (signed 32 (s.reg rTimRate))
  { s with t := s.t + dt, dev := d.1, devSub := d.2, oas := { s.oas with raw := s.oas.raw + dt } }

/-- Let time pass until an instant of elapsed time; an instant already past leaves time where it is. -/
def State.until (s : State) (due : Nat) : State := if s.t < due then s.advance (due - s.t) else s

/-- What passes while no command waits: one unit of elapsed time. DESIGN CHOICE. -/
def State.idleTick (s : State) : State := s.advance 1

/-- The whole seconds of a device time (R18). -/
def secOf (d : Nat) : Nat := d / second

/-! ### Free values -/

/-- A fresh free value, and the state with its counter advanced. -/
def State.free (s : State) : Nat × State := (Config.freeValue s.freeCtr, { s with freeCtr := s.freeCtr + 1 })

/-! ### Memory (R7) -/

/-- What an unlisted byte of working RAM or code RAM reads as. DESIGN CHOICE: 0 (the spec gives RAM no value). -/
def ramDefault (_ : Nat) : Byte := 0

/-- Read a 32-bit word of a RAM at a byte offset. -/
def ramWord (m : List (Nat × Byte)) (a : Nat) : Word :=
  BitVec.ofNat 32 (leVal [sget ramDefault m a, sget ramDefault m (a + 1), sget ramDefault m (a + 2), sget ramDefault m (a + 3)])

/-- Write one byte of a RAM. -/
def ramPut (m : List (Nat × Byte)) (a : Nat) (b : Byte) : List (Nat × Byte) := sput ramDefault m a b

/-- Write a 32-bit word of a RAM at a byte offset, little-endian (R16). -/
def ramPutWord (m : List (Nat × Byte)) (a : Nat) (w : Word) : List (Nat × Byte) :=
  ramPut (ramPut (ramPut (ramPut m a (w.setWidth 8)) (a + 1) ((w >>> 8).setWidth 8)) (a + 2) ((w >>> 16).setWidth 8)) (a + 3)
    ((w >>> 24).setWidth 8)

/-- The base of working RAM (R7). -/
def wramBase : Nat := 0x12000000

/-- Store bytes in working RAM at a management address. -/
def State.putWram (s : State) (a : Nat) (b : Bytes) : State :=
  { s with wram := b.zipIdx.foldl (fun m p => ramPut m (a - wramBase + p.2) p.1) s.wram }

/-- The canonical form of the RAMs. -/
def Memory.wf (m : List (Nat × Byte)) : Bool := swf ramDefault m

/-! ### Slots -/

/-- Number of slots of the context store (R5). -/
def slotCount : Nat := 131072

/-- A slot that nothing has written: FREE, all bytes 0, gate entry 0 (R151, R156). -/
def freeSlot (_ : Nat) : Slot := {}

/-- Slot `i` of a context. -/
def Ctx.slot (c : Ctx) (i : Nat) : Slot := sget freeSlot c.slots i

/-- Write slot `i` of a context. -/
def Ctx.setSlot (c : Ctx) (i : Nat) (x : Slot) : Ctx := { c with slots := sput freeSlot c.slots i x }

/-- Slot `i`. -/
def State.slot (s : State) (i : Nat) : Slot := s.ctx.slot i

/-- Change the context. -/
def State.setCtx (s : State) (f : Ctx → Ctx) : State := { s with ctx := f s.ctx }

/-- Write slot `i`. -/
def State.setSlot (s : State) (i : Nat) (x : Slot) : State := { s with ctx := s.ctx.setSlot i x }

/-- The context of a checkpoint as it is restored: every fault bit cleared (R150). -/
def Ctx.unfault (c : Ctx) : Ctx := c.slots.foldl (fun a p => if p.2.fault then a.setSlot p.1 { p.2 with fault := false } else a) c

/-- Take the lock bit of slot `i` (R171). -/
def State.takeLock (s : State) (i : Nat) : State := { s with arb := { s.arb with locks := i :: s.arb.locks } }

/-- Give the lock bit of slot `i` back: every hold ends with its burst, within the step that took it (R171). -/
def State.dropLock (s : State) (i : Nat) : State := { s with arb := { s.arb with locks := s.arb.locks.erase i } }

/-- Write slot `i` under its lock bit (R129, R171). -/
def State.lockedWrite (s : State) (i : Nat) (x : Slot) : State := ((s.takeLock i).setSlot i x).dropLock i

/-! ### The EUI index (R148, R150, R162) -/

/-- The eight cells an EUI-64 may lie in: four in each of the two buckets its keyed hashes choose among 65,536 (R148, R162). -/
def euiCells (key e : Nat) : List Nat :=
  let b1 := Config.euiHash key false e % 65536
  let b2 := Config.euiHash key true e % 65536
  (List.range 4).map (fun k => 4 * b1 + k) ++ (List.range 4).map fun k => 4 * b2 + k

/-- Put an EUI-64 and its slot into the index, displacing at most `n` entries; none when that fails (R162). DESIGN CHOICE: which of the eight entries
is displaced, the one at the place that the number of displacements left names, mod 8. -/
def idxInsert (key : Nat) : Nat → List IdxCell → Nat → Nat → Option (List IdxCell)
  | n, idx, e, i =>
    match (euiCells key e).find? fun c => idx.all fun x => x.cell ≠ c with
    | some c => some (idx ++ [{ cell := c, eui := e, slot := i }])
    | none =>
      match n with
      | 0 => none
      | n + 1 =>
        let c := (euiCells key e).getD (n % 8) 0
        match idx.find? fun x => x.cell == c with
        | some y => idxInsert key n ((idx.filter fun x => x.cell ≠ c) ++ [{ cell := c, eui := e, slot := i }]) y.eui y.slot
        | none => none

/-- Entries that an insertion may displace (R162). -/
def idxMoves : Nat := 64

/-- The slot the index gives for an EUI-64, if any (R160, R162). -/
def State.findEui (s : State) (e : Nat) : Option Nat := (s.arb.index.find? fun c => c.eui == e).map (·.slot)

/-- Whether the index can place an EUI-64 (R162). -/
def State.idxPlaces (s : State) (e : Nat) : Bool := (idxInsert s.cfg.hashKey idxMoves s.arb.index e 0).isSome

/-- Enter an EUI-64 in the index (R160, R162). -/
def State.idxAdd (s : State) (e i : Nat) : State :=
  match idxInsert s.cfg.hashKey idxMoves s.arb.index e i with
  | some l => { s with arb := { s.arb with index := l } }
  | none => s

/-- Remove a slot's EUI-64 from the index (R158). -/
def State.idxDrop (s : State) (i : Nat) : State := { s with arb := { s.arb with index := s.arb.index.filter fun c => c.slot ≠ i } }

/-- Rebuild the index from the slots, in slot order (R150). -/
def State.idxRebuild (s : State) : State :=
  (s.ctx.slots.filter fun p => decide (p.2.state ≠ .free)).foldl (fun a p => a.idxAdd p.2.eui p.1) { s with arb := { s.arb with index := [], locks := [] } }

/-- Accumulator `n` of a slot (R151). -/
def Slot.accAt (x : Slot) (n : Nat) : Nat := x.acc.getD n 0

/-- Write element `n` of a list of numbers, filling with zeros. -/
def setAt {α : Type} (z : α) : List α → Nat → α → List α
  | [], 0, v => [v]
  | [], n + 1, v => z :: setAt z [] n v
  | _ :: r, 0, v => v :: r
  | a :: r, n + 1, v => a :: setAt z r n v

/-- Bytes of a slot number and of the other task keys as the 20-bit key of R109. -/
def keyNum : Key → Nat
  | .slot i => i
  | .group g => 0x40000 + g
  | .sys n => 0x80000 + n

/-- A ball that is asserted or not, with its polarity. -/
def ballLevel (active high : Bool) : BallOut := if active == high then .high else .low

/-- Append what leaves the balls. -/
def State.emit (s : State) (e : Emission) : State := { s with emitted := s.emitted ++ [e] }

/-- The configuration's class entry; KIND 0 when the VALID section is absent (R189, R190). -/
def State.classEnt (s : State) (c : Nat) : ClassEnt := s.cfg.valid.getD c {}

/-- The flag bits of an entry as its byte (R38). -/
def EFlags.byte (f : EFlags) : Nat :=
  flag 0 f.timeUnsure + flag 1 f.late + flag 2 f.regressed + flag 3 f.held + f.ring % 16 * 16

end Sys2Proof.Machine
end

