-- ==== Sys2Proof/Machine/ResetOps.lean ====
section
/-! DEFINITION. Resets of the main domain and what they leave (R14, R21, R105, R644, R651). -/
namespace Sys2Proof.Machine

/-- Whether an address lies in the OAS block, whose registers no reset of the main domain touches (R7, R14). -/
def inOas (a : Nat) : Bool := decide (0x400E0000 ≤ a) && decide (a < 0x400F0000)

/-- What the media keep of the unit's own counters (R455, R518, R526). -/
def State.nandKept (s : State) : Nand :=
  if s.med.run then { s.med.nand with u2hMark := s.sec.u2hMark, u2hGen := s.sec.u2hGen, session := s.net.session } else s.med.nand

/-- The pins and supplies of the board that a reset of the main domain does not change. -/
def Sys.kept (p : Sys) (ph : RunPhase) : Sys :=
  { phase := ph, rails := p.rails, warn := p.warn, pfail := p.pfail, pwronAt := p.pwronAt, vbatAt := p.vbatAt, alarms := p.alarms }

/-- The main domain resets for a cause of SYS_RSTCAUSE (R673): everything in it takes its reset value; the media, the OTP, the NOR and
the Oasis keep what they hold (R14, R105). -/
def State.mainReset (s : State) (ph : RunPhase) (cause : Nat) : State :=
  { State.reset with
    pending := s.pending, t := s.t, freeCtr := s.freeCtr, reply := s.reply, emitted := s.emitted,
    regs := sput regReset (s.regs.filter fun p => inOas p.1) rSysRstcause (BitVec.ofNat 32 cause),
    locked := s.locked, oas := s.oas, latch := s.latch.filter fun p => inOas p.1,
    obox := s.obox.filter fun r => r.durable,
    evr := { log := s.evr.log, next := s.evr.next, wrapped := s.evr.wrapped, lost := s.evr.lost, clrSer := s.evr.clrSer },
    sec := { otp := s.sec.otp, mask := s.sec.mask, scramble := s.sec.scramble },
    med := { nand := s.nandKept },
    sef := { lineLow := s.sef.lineLow && !s.sef.driver, lineSince := s.sef.lineSince },
    pow := s.pow.kept ph, nor := s.nor, boot := { bcast := s.boot.bcast, reason := s.boot.reason },
    rpl := { card := s.rpl.card } }

end Sys2Proof.Machine
end

