-- ==== Sys2Proof/Machine/RingOps.lean ====
section
/-! DEFINITION. The operations of the sixteen rings: opening, pushing and closing a packet under both full policies,
markers, reading, dropping, the stale timer, and whole packets of the hardware producers and consumers (R77 to R99). -/
namespace Sys2Proof.Machine

/-- Rings with the drop policy (R77). -/
def ringDrops (n : Nat) : Bool := n == 1 || n == 3 || n == 5 || n == 7 || n == 9 || n == 15

/-- Rings that feed the sequencer (R82). -/
def ringIngress (n : Nat) : Bool := n == 0 || ringDrops n

/-- Ring `n`. -/
def State.ring (s : State) (n : Nat) : Ring := s.rings.getD n {}

/-- Write ring `n`. -/
def State.setRing (s : State) (n : Nat) (r : Ring) : State := { s with rings := s.rings.set n r }

/-- Words of a ring (R100). -/
def Ring.size (r : Ring) : Nat := 2 ^ r.sizeLog2

/-- Free words of a ring. -/
def Ring.freeWords (r : Ring) : Nat := r.size - (r.w - r.r)

/-- Visible words not yet read: QF_CNTn (R99). -/
def Ring.cnt (r : Ring) : Nat := r.vis - r.r

/-- Byte offset in working RAM of the word at a position (R100, R101). -/
def Ring.addr (r : Ring) (pos : Nat) : Nat := 4 * (r.base + pos % r.size)

/-- The word at a position of a ring. -/
def State.ringWord (s : State) (r : Ring) (pos : Nat) : Word := ramWord s.wram (r.addr pos)

/-- Store a word at a position of a ring. -/
def State.putRingWord (s : State) (r : Ring) (pos : Nat) (v : Word) : State :=
  { s with wram := ramPutWord s.wram (r.addr pos) v }

/-- The length word of a packet (R80, R84). -/
def lengthWord (cut : Bool) (ty len : Nat) : Word := BitVec.ofNat 32 (0xD0000000 + flag 27 cut + ty % 256 * 65536 + len % 65536)

/-- Words became visible: the stale timer starts when none were before (R97). -/
def Ring.show (r : Ring) (now : Nat) : Ring :=
  { r with vis := r.w, staleT := if r.cnt = 0 then now else r.staleT }

/-- Write a wadi marker when one is due and may be written (R91, R93). -/
def State.wadi (s : State) (n : Nat) : State :=
  let r := s.ring n
  if ringDrops n && r.en && decide (0 < r.pend) && decide (r.opn = .closed) && decide (0 < r.freeWords) && !r.held then
    let s1 := s.putRingWord r r.w (BitVec.ofNat 32 (0xE0000000 + min r.pend 0xFFFFFF))
    let r1 := Ring.show { r with w := r.w + 1, pend := 0, dropCnt := satAdd 0xFFFFFFFF r.dropCnt r.pend } s.t
    (s1.setRing n r1).irq rQfIrq (16 + n)
  else s

/-- What a write at a producer's port came to. -/
inductive PortRes where
  | done
  | stalled
  | refused
  deriving DecidableEq, Repr

/-- Open a packet (R84, R88, R89, R92). -/
def State.ringOpen (s0 : State) (n : Nat) : PortRes × State :=
  let s := s0.wadi n
  let r := s.ring n
  if !r.en then (.done, s)
  else if r.opn ≠ .closed then (.refused, s)
  else if ringDrops n then
    if r.held || r.freeWords == 0 then (.done, s.setRing n { r with opn := .dropped, pend := r.pend + 1 })
    else (.done, s.setRing n { r with opn := .opened r.w 0 false, w := r.w + 1 })
  else if r.freeWords = 0 then (.stalled, s)
  else (.done, s.setRing n { r with opn := .opened r.w 0 false, w := r.w + 1 })

/-- Push one payload word (R87 to R90). -/
def State.ringPush (s : State) (n : Nat) (v : Word) : PortRes × State :=
  let r := s.ring n
  if !r.en then (.done, s)
  else match r.opn with
    | .closed => (.refused, s)
    | .dropped => (.done, s.setRing n { r with pend := r.pend + 1 })
    | .opened pos stored cut =>
      let full := decide (r.size - 1 < stored + 2)
      if ringDrops n then
        if cut || full || r.freeWords == 0 then
          (.done, s.setRing n { r with opn := .opened pos stored true, pend := r.pend + 1 })
        else
          (.done, (s.putRingWord r r.w v).setRing n { r with opn := .opened pos (stored + 1) cut, w := r.w + 1 })
      else if full then (.refused, s.setRing n { r with opn := .opened pos stored true })
      else if r.freeWords = 0 then (.stalled, s)
      else (.done, (s.putRingWord r r.w v).setRing n { r with opn := .opened pos (stored + 1) cut, w := r.w + 1 })

/-- Close the open packet with a TYPE (R84, R85, R89). -/
def State.ringClose (s : State) (n ty : Nat) : PortRes × State :=
  let r := s.ring n
  if !r.en then (.done, s)
  else match r.opn with
    | .closed => (.refused, s)
    | .dropped => (.done, s.setRing n { r with opn := .closed })
    | .opened pos stored cut =>
      (.done, (s.putRingWord r pos (lengthWord cut ty stored)).setRing n (Ring.show { r with opn := .closed } s.t))

/-- One write of a producer. -/
def State.ringOp (s : State) (n : Nat) : RingOp → PortRes × State
  | .open_ => s.ringOpen n
  | .push v => s.ringPush n v
  | .close ty => s.ringClose n ty

/-- Note which source opened the packet being written (R79). -/
def State.opened (s : State) (n : Nat) (reg : Bool) : RingOp → State
  | .open_ => s.setRing n { s.ring n with byReg := reg }
  | _ => s

/-- A write of device code that waited has completed: once no other waits, its access is answered (R11, R78). -/
def State.completed (s : State) (reg : Bool) (r : Reply) : State :=
  if reg && decide (s.reply.dev = .waiting) && !(s.rings.any fun x => x.waiting.any fun o => o.1) then s.answer .dev r else s

/-- Complete the waiting writes of a ring in order, until one finds no free word (R78, R79). -/
def State.ringFeed (n : Nat) : Nat → State → State
  | 0, s => s
  | k + 1, s =>
    let r := s.ring n
    match r.waiting with
    | [] => s
    | (reg, op) :: rest =>
      match s.ringOp n op with
      | (.stalled, _) => s
      | (.refused, s1) =>
        if op = .open_ then s else State.ringFeed n k ((s1.setRing n { s1.ring n with waiting := rest }).completed reg .busError)
      | (.done, s1) =>
        State.ringFeed n k (((s1.opened n reg op).setRing n { (s1.opened n reg op).ring n with waiting := rest }).completed reg .done)

/-- Complete every waiting write that finds a word. -/
def State.ringDrain (s : State) (n : Nat) : State := State.ringFeed n (s.ring n).waiting.length s

/-- The writes of one packet. -/
def packetOps (ty : Nat) (ws : List Word) : List RingOp := .open_ :: (ws.map .push ++ [.close ty])

/-- A hardware producer or a grain offers a whole packet; it waits its turn at the merge port (R78, R79). -/
def State.ringPacket (s : State) (n ty : Nat) (ws : List Word) : State :=
  let r := s.ring n
  if r.en then (s.setRing n { r with waiting := r.waiting ++ (packetOps ty ws).map fun o => (false, o) }).ringDrain n else s

/-- Whether the packet being written is the source's own (R79). -/
def Ring.mine (r : Ring) (reg : Bool) : Bool := decide (r.opn ≠ .closed) && r.byReg == reg

/-- A waiting write is put after the source's own writes at the front: they belong to the packet that holds the merge port (R79). -/
def putWait (reg : Bool) (op : RingOp) : List (Bool × RingOp) → List (Bool × RingOp)
  | [] => [(reg, op)]
  | x :: r => if x.1 = reg then x :: putWait reg op r else (reg, op) :: x :: r

/-- A write of a producer at its port (R78, R79, R107): an open waits at the merge port while another source's packet is open or waits; a push or a close
without a packet of its own is refused. -/
def State.ringPort (s : State) (n : Nat) (reg : Bool) (op : RingOp) : PortRes × State :=
  let r := s.ring n
  let queued (l : List (Bool × RingOp)) : PortRes × State := (.stalled, s.setRing n { r with waiting := l })
  if r.en = false then (.done, s)
  else if op = .open_ ∧ r.mine reg = true then (.refused, s)
  else if op = .open_ ∧ (r.opn ≠ .closed ∨ r.waiting ≠ []) then queued (r.waiting ++ [(reg, op)])
  else if op ≠ .open_ ∧ r.mine reg = false then
    (if r.waiting.any fun o => o.1 == reg then queued (r.waiting ++ [(reg, op)]) else (.refused, s))
  else if decide (op ≠ .open_) && (match r.waiting with | o :: _ => o.1 == reg | [] => false) then queued (putWait reg op r.waiting)
  else match s.ringOp n op with
    | (.stalled, _) => queued (putWait reg op r.waiting)
    | (.refused, s1) => (.refused, s1)
    | (.done, s1) => (.done, match op with | .close _ => s1.ringDrain n | o => s1.opened n reg o)

/-- Read one word of a ring: the idle item, or the next visible word (R86, R95). -/
def State.ringPop (s : State) (n : Nat) : Word × State :=
  let r := s.ring n
  if r.en && decide (r.r < r.vis) then
    let v := s.ringWord r r.r
    let rem := if r.remain = 0 then (if bits 31 28 v.toNat = 13 then bits 15 0 v.toNat else 0) else r.remain - 1
    (v, s.setRing n { r with r := r.r + 1, remain := rem, staleT := s.t, staleFired := false })
  else (0xF0000000#32, s)

/-- Skip the rest of the packet being read (R96). -/
def State.ringDropRest (s : State) (n : Nat) : State :=
  let r := s.ring n
  if r.en && decide (0 < r.remain) then s.setRing n { r with r := r.r + r.remain, remain := 0, staleT := s.t } else s

/-- What stands at a packet boundary (R80). -/
inductive Item where
  | idle
  | marker (dropped : Nat)
  | packet (cut : Bool) (ty : Nat) (ws : List Word)
  deriving DecidableEq, Repr

/-- `k` words of a ring from a position on. -/
def State.ringRun (s : State) (r : Ring) (pos : Nat) : Nat → List Word
  | 0 => []
  | k + 1 => s.ringWord r pos :: s.ringRun r (pos + 1) k

/-- What a hardware consumer finds at the head of a ring, without taking it. -/
def State.ringPeek (s : State) (n : Nat) : Item :=
  let r := s.ring n
  let p := r.r + r.remain
  if r.en && decide (p < r.vis) then
    let v := (s.ringWord r p).toNat
    if bits 31 28 v = 14 then .marker (bits 23 0 v)
    else .packet (bit 27 v) (bits 23 16 v) (s.ringRun r (p + 1) (bits 15 0 v))
  else .idle

/-- Words an item takes in its ring. -/
def Item.len : Item → Nat
  | .idle => 0
  | .marker _ => 1
  | .packet _ _ ws => ws.length + 1

/-- A hardware consumer takes the item at the head of a ring, after the rest of a packet left unread. -/
def State.ringTake (s : State) (n : Nat) : Item × State :=
  let it := s.ringPeek n
  let r := s.ring n
  match it with
  | .idle => (.idle, s)
  | it => (it, s.setRing n { r with r := r.r + r.remain + it.len, remain := 0, staleT := s.t, staleFired := false })

/-- A main-domain reset empties a ring and disables it (R105, R21). -/
def Ring.cleared : Ring := {}

/-- Whether a stall-policy ring's producer waits: QF_STATn.STALLED (R78). -/
def Ring.stalled (r : Ring) : Bool := match r.waiting with | [] => false | _ => true

/-- Whether an ingress ring can take a new packet of `k` words with its length word now (R92, R308). -/
def Ring.roomFor (r : Ring) (k : Nat) : Bool := r.en && !r.held && decide (r.opn = .closed) && decide (k + (if r.pend = 0 then 0 else 1) ≤ r.freeWords)

/-- Whether a new packet on a ring finds a word (R166). -/
def State.ringOpens (s : State) (n : Nat) : Bool := let r := (s.wadi n).ring n; r.en && !r.held && decide (0 < r.freeWords)

end Sys2Proof.Machine
end

