-- ==== Sys2Proof/Machine/Operands.lean ====
section
/-! DEFINITION. The operand forms: codes of kinds and classes, the source word, journal entries as bytes (R35) and as
ring packets (R82), slots as bytes (R151), event records (R589), and the raising of events. -/
namespace Sys2Proof.Machine

/-! ### Codes -/

/-- The code of a kind (R30). -/
def Kind.code : Kind → Nat
  | .radFrame => 0x01 | .plcFrame => 0x02 | .netPkt => 0x03 | .seifFrame => 0x04 | .mtrBlock => 0x05 | .mtrEvent => 0x06
  | .evtCapture => 0x07 | .bndDemand => 0x10 | .bndBalance => 0x11 | .bndTariff => 0x12 | .bndPeriod => 0x13
  | .supWarn => 0x20 | .supDip => 0x21 | .supRestore => 0x22 | .mgmtCmd => 0x30 | .timeSet => 0x31 | .timeState => 0x32
  | .drbgDraw => 0x38 | .tamper => 0x3C | .start => 0x40 | .ckpt => 0x41 | .closeCursor => 0x42 | .ringLoss => 0x43

/-- Every kind. -/
def Kind.all : List Kind := [.radFrame, .plcFrame, .netPkt, .seifFrame, .mtrBlock, .mtrEvent, .evtCapture, .bndDemand,
  .bndBalance, .bndTariff, .bndPeriod, .supWarn, .supDip, .supRestore, .mgmtCmd, .timeSet, .timeState, .drbgDraw, .tamper,
  .start, .ckpt, .closeCursor, .ringLoss]

/-- The kind of a code; the codes not listed are reserved (R30). -/
def Kind.ofCode (n : Nat) : Option Kind := Kind.all.find? fun k => k.code == n

/-- The value of a class (R37). -/
def EClass.code : EClass → Nat
  | .normal => 0 | .dup => 1 | .orphan => 2 | .busy => 3 | .capacity => 4 | .trunc => 5

/-- The class of a value; other values are reserved (R37). -/
def EClass.ofCode : Nat → EClass
  | 1 => .dup | 2 => .orphan | 3 => .busy | 4 => .capacity | 5 => .trunc | _ => .normal

/-- The source word (R36). -/
def Src.word (x : Src) : Nat :=
  (if x.slotV then x.slot % 131072 + 131072 else 0) + x.chan % 8 * 262144 + x.origin % 32 * 2097152

/-- The source word's fields (R36). -/
def Src.ofWord (w : Nat) : Src :=
  { slot := if bit 17 w then bits 16 0 w else 0, slotV := bit 17 w, chan := bits 20 18 w, origin := bits 25 21 w }

/-- The number of a slot state (R152). -/
def SlotState.code : SlotState → Nat
  | .free => 0 | .rostered => 1 | .joining => 2 | .active => 3 | .decom => 4

/-! ### Journal entries (R35) -/

/-- The first 32 bytes of an entry. -/
def Entry.header (e : Entry) : Bytes :=
  le 2 (36 + ceilDiv e.payload.length 4 * 4) ++ le 1 e.kind.code ++ le 1 e.cls.code ++ le 8 e.jsn ++ le 8 e.stamp ++
    le 4 e.src.word ++ le 2 e.payload.length ++ le 1 e.flags.byte ++ le 1 1 ++ le 4 0

/-- A journal entry as bytes, with its CRC (R35). -/
def Entry.bytes (e : Entry) : Bytes :=
  let b := e.header ++ padTo 4 e.payload
  b ++ le 4 (crc32 b)

/-- Flags from their byte (R38). -/
def EFlags.ofByte (b : Nat) : EFlags :=
  { timeUnsure := bit 0 b, late := bit 1 b, regressed := bit 2 b, held := bit 3 b, ring := bits 7 4 b }

/-- A journal entry from bytes; none when the length, the version, the kind or the CRC is wrong (R67). -/
def Entry.ofBytes (b : Bytes) : Option Entry :=
  let n := fld 0 2 b
  let pl := fld 24 2 b
  match Kind.ofCode (fld 2 1 b) with
  | none => none
  | some k =>
    if n = 36 + ceilDiv pl 4 * 4 ∧ n ≤ b.length ∧ fld 27 1 b = 1 ∧ fld (n - 4) 4 b = crc32 (b.take (n - 4)) then
      some { kind := k, cls := EClass.ofCode (fld 3 1 b), jsn := fld 4 8 b, stamp := fld 12 8 b, src := Src.ofWord (fld 20 4 b),
             flags := EFlags.ofByte (fld 26 1 b), payload := sub 32 pl b }
    else none

/-! ### Ring packets of the ingress rings (R82) -/

/-- An input on its way to the sequencer. -/
structure Input where
  kind    : Kind
  stamp   : Nat
  src     : Src := {}
  cls     : EClass := .normal
  payload : Bytes := []
  deriving DecidableEq, Repr

/-- The payload words of an input's packet (R82); PLEN holds 12 bits, and a longer payload, which only R700 could give, leaves them disagreeing with
LENGTH. DESIGN CHOICE. -/
def Input.words (i : Input) : List Word :=
  BitVec.ofNat 32 i.stamp :: BitVec.ofNat 32 (i.stamp / 4294967296) :: BitVec.ofNat 32 { i.src with origin := 0 }.word ::
    BitVec.ofNat 32 (i.cls.code + i.payload.length % 4096 * 65536) :: toWs i.payload

/-- The input that a packet's words carry (R82). -/
def Input.ofWords (k : Kind) (ws : List Word) : Input :=
  let w (i : Nat) : Nat := (ws.getD i 0).toNat
  let pl := bits 27 16 (w 3)
  { kind := k, stamp := w 0 + w 1 * 4294967296, src := Src.ofWord (w 2), cls := EClass.ofCode (bits 7 0 (w 3)),
    payload := sub 0 pl (ofWs (ws.drop 4)) }

/-- A packet is treated as truncated when its T bit is set, it is longer than 516 words, or its LENGTH disagrees with
its PLEN (R87). -/
def packetTrunc (cut : Bool) (ws : List Word) : Bool :=
  cut || decide (516 < ws.length) || decide (ws.length < 4) ||
    decide (ws.length ≠ 4 + ceilDiv (bits 27 16 (ws.getD 3 0).toNat) 4)

/-- A hardware producer offers an input to the sequencer on a ring (R27, R82). -/
def State.offer (s : State) (ring : Nat) (i : Input) : State := s.ringPacket ring i.kind.code i.words

/-! ### Slots as bytes (R151 to R153) -/

/-- FLAGS of a slot (R152). -/
def Slot.flagsWord (x : Slot) : Nat :=
  x.state.code + flag 3 x.unreach + flag 4 x.phaseUnk + x.medium % 4 * 32 + flag 7 x.rekey + flag 8 x.keyExh

/-- BGROUP of a slot (R153). -/
def Slot.bgroupWord (x : Slot) : Nat := x.group % 4096 + flag 12 x.member + flag 13 x.ref

/-- LAST_INDEX as its 64-bit field (R151). -/
def LastIndex.word (l : LastIndex) : Nat := l.index % 2 ^ 48 + flag 48 l.valid + flag 49 l.estimated + flag 50 l.rollover

/-- MAXDEM as its field (R151). -/
def Slot.maxDemWord (x : Slot) : Nat := x.maxDem % 2 ^ 24 + x.maxDemBand % 8 * 2 ^ 24 + flag 27 x.incSeen

/-- STATUS as its field (R151). -/
def Slot.statusWord (x : Slot) : Nat := x.tamper % 256 + x.driftLoss % 256 * 256 + x.epstat % 256 * 65536

/-- A slot as its 160 bytes (R151). -/
def Slot.bytes (x : Slot) : Bytes :=
  le 4 x.lastSeq.toNat ++ le 4 x.dupwin.toNat ++ le 2 x.flagsWord ++ le 2 x.bgroupWord ++ le 3 x.short ++ le 1 (x.cls % 16) ++
  be 8 x.eui ++ le 8 x.li.word ++ leI 2 x.drift ++ le 2 x.driftUnc ++
  le 4 (x.wakeS % 65536 + x.guard % 256 * 65536 + x.unPolls % 8 * 2 ^ 24 + x.unTrains % 8 * 2 ^ 27) ++
  le 4 (x.parent % 131072 + flag 17 x.parentV + x.hops % 8 * 2 ^ 18 + x.phase % 4 * 2 ^ 21 + x.quality % 256 * 2 ^ 24) ++
  le 4 x.keyUse ++ fit 24 x.wkey ++ ((List.range 16).flatMap fun n => le 4 (x.accAt n)) ++ le 4 x.maxDemWord ++ le 4 x.statusWord ++
  le 4 (x.pushId % 65536 + x.pushKind % 16 * 65536 + x.pushAtt % 8 * 2 ^ 20 + flag 23 x.pushActive) ++ List.replicate 12 0

/-! ### Slots from their bytes (R151 to R153) -/

/-- The slot state of a number (R152); a reserved number leaves the state as it was. DESIGN CHOICE. -/
def SlotState.ofCode (old : SlotState) (n : Nat) : SlotState :=
  match n with
  | 0 => .free | 1 => .rostered | 2 => .joining | 3 => .active | 4 => .decom | _ => old

/-- A list without the zeros at its end. -/
def dropZeros (l : List Nat) : List Nat := (l.reverse.dropWhile fun n => n == 0).reverse

/-- The slot that 160 bytes spell, beside the gate entry, parked frames and fault bit it has (R148, R151 to R154). -/
def Slot.ofBytes (x : Slot) (b : Bytes) : Slot :=
  let f := Machine.fld 8 2 b
  let g := Machine.fld 10 2 b
  let li := Machine.fld 24 8 b
  let w := Machine.fld 36 4 b
  let l := Machine.fld 40 4 b
  let d := Machine.fld 136 4 b
  let st := Machine.fld 140 4 b
  let p := Machine.fld 144 4 b
  { x with
    lastSeq := BitVec.ofNat 32 (Machine.fld 0 4 b), dupwin := BitVec.ofNat 32 (Machine.fld 4 4 b),
    state := SlotState.ofCode x.state (bits 2 0 f), unreach := bit 3 f, phaseUnk := bit 4 f, medium := bits 6 5 f, rekey := bit 7 f,
    keyExh := bit 8 f, group := bits 11 0 g, member := bit 12 g, ref := bit 13 g, short := Machine.fld 12 3 b,
    cls := Machine.fld 15 1 b % 16, eui := fldB 16 8 b,
    li := { index := bits 47 0 li, valid := bit 48 li, estimated := bit 49 li, rollover := bit 50 li },
    drift := fldI 32 2 b, driftUnc := Machine.fld 34 2 b,
    wakeS := bits 15 0 w, guard := bits 23 16 w, unPolls := bits 26 24 w, unTrains := bits 29 27 w,
    parent := bits 16 0 l, parentV := bit 17 l, hops := bits 20 18 l, phase := bits 22 21 l, quality := bits 31 24 l,
    keyUse := Machine.fld 44 4 b, wkey := (let k := sub 48 24 b; if k.all fun c => c == 0 then [] else k),
    acc := dropZeros ((List.range 16).map fun n => Machine.fld (72 + 4 * n) 4 b),
    maxDem := bits 23 0 d, maxDemBand := bits 26 24 d, incSeen := bit 27 d,
    tamper := bits 7 0 st, driftLoss := bits 15 8 st, epstat := bits 23 16 st,
    pushId := bits 15 0 p, pushKind := bits 19 16 p, pushAtt := bits 22 20 p, pushActive := bit 23 p }

/-- PARKMAP of a slot's gate: bit k set when NEXT + 1 + k is parked (R154). -/
def Slot.parkMap (x : Slot) : Nat :=
  ((List.range 31).filter fun k => x.parks.any fun p => p.seq == x.next + 1 + BitVec.ofNat 32 k).foldl (fun a k => a + 2 ^ k) 0

/-- A slot's gate entry as its 16 bytes (R154). -/
def Slot.gateBytes (x : Slot) : Bytes := le 4 x.next.toNat ++ le 4 x.parkMap ++ le 8 x.lastJsn

/-! ### Events (R589 to R593) -/

/-- The first 8 bytes of the CMAC over a record (R209). -/
def tag64 (key : Nat) (b : Bytes) : Bytes := fit 8 (Config.cmac key b)

/-- The TAG this unit writes: CMAC-64 under its record-sealing key; 0 while it holds no system key (R209, R589). -/
def State.tag (s : State) (b : Bytes) : Bytes :=
  match s.sysKey with
  | some k => tag64 (rskOf k s.cfg.sysaddr) b
  | none => List.replicate 8 0

/-- An event record up to its TAG (R589). -/
def eventBody (cls arg sysaddr origin subj stamp jsn : Nat) (unsure regr unsealed : Bool) (data : Bytes) : Bytes :=
  le 1 8 ++ le 1 (40 + (padTo 4 data).length) ++ le 1 cls ++
  le 1 (1 + flag 1 unsure + flag 2 regr + Config.severity cls % 4 * 8 + flag 5 unsealed) ++ le 4 arg ++
  le 4 (sysaddr % 2 ^ 18 + origin % 32 * 2 ^ 18) ++ le 4 subj ++ le 8 stamp ++ le 8 jsn ++ padTo 4 data

/-- SUBJ of an event: slot and index within the commit (R589). -/
def subjWord (slot : Option Nat) (eidx : Nat) : Nat :=
  (match slot with | some i => i % 131072 + 131072 | none => 0) + eidx % 256 * 2 ^ 24

/-- The unit holds a record-sealing key (R522, R589). -/
def State.sealed (s : State) : Bool := s.sysKey.isSome

/-- A block or a grain raises an event of a class with bit 6 set: one packet on Q14 (R592, R593). -/
def State.event (s : State) (cls arg : Nat) (slot : Option Nat := none) (data : Bytes := []) : State :=
  s.ringPacket 14 cls (toWs (eventBody cls arg s.cfg.sysaddr 0 (subjWord slot 0) s.dev 0 s.seq.unsure s.seq.regressed
    (!s.sealed) data))

/-- Whether a word of the store is of slot `i` or of its gate entry. -/
def StoreWord.ofSlot (i : Nat) : StoreWord → Bool
  | .slot j _ => j == i
  | .gate j _ => j == i
  | _ => false

/-- A word holds flipped bits no more. -/
def State.unflip (s : State) (w : StoreWord) : State := { s with arb := { s.arb with flips := s.arb.flips.filter fun q => q.1 ≠ w } }

/-- A word with one flipped bit is corrected in place and counted (R172). -/
def State.correctWord (s : State) (w : StoreWord) : State := let s1 := s.unflip w; s1.setFld rArbEcc 15 0 (satAdd 65535 (s1.fld rArbEcc 15 0) 1)

/-- A double-bit error in slot `i` or its gate entry: the fault bit, the count, ARB_FAULT, ARB_IRQ.UNCORR and the event (R172). -/
def State.faultSlot (s : State) (i : Nat) : State :=
  ((((s.setSlot i { s.slot i with fault := true }).setFld rArbEcc 31 16 (satAdd 65535 (s.fld rArbEcc 31 16) 1)).setReg rArbFault
    (i % 131072 + 2 ^ 31)).irq rArbIrq 1).event 0x46 (i % 131072) (some i)

/-- A slot and its gate entry are read (R172): each word with a flipped bit is corrected, or sets the slot's fault bit. Which words hold flipped bits is
the state's `arb.flips`: no command flips a bit. -/
def State.scrub (s : State) (i : Nat) : State :=
  (s.arb.flips.filter fun p => p.1.ofSlot i).foldl (fun a p => if p.2 = 1 then a.correctWord p.1 else (a.unflip p.1).faultSlot i) s

/-- Cells of the EUI index are read (R172, R181): a single flipped bit is corrected and counted. Of a double-bit error there the spec says nothing:
the cell keeps its bits. -/
def State.scrubCells (s : State) (cells : List Nat) : State :=
  (s.arb.flips.filter fun p => match p.1 with | .index c => cells.contains c && p.2 == 1 | _ => false).foldl (fun a p => a.correctWord p.1) s

/-- Look an EUI-64 up in the index: its two buckets are read (R160, R181). -/
def State.scrubIndex (s : State) (e : Nat) : State := s.scrubCells (euiCells s.cfg.hashKey e)

end Sys2Proof.Machine
end

