-- ==== Sys2Proof/Machine/Calendar.lean ====
section
/-! DEFINITION. Calendar and local time: UTC from device time (R20), dates, daylight saving (R219), day profiles and bands
(R220, R221), and the boundary instants of the demand, balance, tariff and period grids (R222 to R224, R233, R241, R270,
R271). Seconds are whole seconds of device time; UTC and local times count seconds from 2000-01-01T00:00:00. -/
namespace Sys2Proof.Machine

/-! ### UTC and dates -/

/-- TAI−UTC in force at a second (R20, R482). -/
def utcOffset (c : RunCfg) (sec : Nat) : Int :=
  c.leaps.foldl (fun o l => if l.at_ ≤ sec then (l.offset : Int) else o) c.utcBase

/-- UTC at a second of device time; an inserted leap second holds the count of the second before it. -/
def utcSec (c : RunCfg) (sec : Nat) : Int :=
  let o := utcOffset c sec
  match c.leaps.find? fun l => decide (sec < l.at_) && decide ((l.at_ : Int) - ((l.offset : Int) - o) ≤ sec) &&
      decide (o < l.offset) with
  | some l => (l.at_ : Int) - (l.offset : Int) - 1
  | none => sec - o

/-- Days in a month of a year. -/
def monthDays (y : Int) (m : Nat) : Nat :=
  if m = 2 then (if y % 4 = 0 ∧ (y % 100 ≠ 0 ∨ y % 400 = 0) then 29 else 28)
  else if m = 4 ∨ m = 6 ∨ m = 9 ∨ m = 11 then 30 else 31

/-- Day number of a date, from 2000-01-01 as day 0. -/
def dayOf (y : Int) (m d : Nat) : Int :=
  let y1 := if m ≤ 2 then y - 1 else y
  let era := y1 / 400
  let yoe := y1 - era * 400
  let mp : Int := if m > 2 then (m : Int) - 3 else (m : Int) + 9
  let doy := (153 * mp + 2) / 5 + (d : Int) - 1
  era * 146097 + (yoe * 365 + yoe / 4 - yoe / 100 + doy) - 730425

/-- The date of a day number: year, month, day. -/
def dateOf (n : Int) : Int × Nat × Nat :=
  let z := n + 730425
  let era := z / 146097
  let doe := z - era * 146097
  let yoe := (doe - doe / 1460 + doe / 36524 - doe / 146096) / 365
  let doy := doe - (365 * yoe + yoe / 4 - yoe / 100)
  let mp := (5 * doy + 2) / 153
  let d := doy - (153 * mp + 2) / 5 + 1
  let m := if mp < 10 then mp + 3 else mp - 9
  (yoe + era * 400 + (if m ≤ 2 then 1 else 0), m.toNat, d.toNat)

/-- Weekday of a day number: 0 Monday to 6 Sunday; 2000-01-01 was a Saturday. -/
def weekday (n : Int) : Nat := ((n + 5) % 7).toNat

/-- Day number of the `week`-th `wd` of a month; week 5 is the last (R212). -/
def nthWeekday (y : Int) (m week wd : Nat) : Int :=
  let first := dayOf y m 1
  let off := (wd + 7 - weekday first) % 7
  let d := off + 7 * (week - 1)
  first + (if d < monthDays y m then d else d - 7)

/-! ### Local time (R218, R219, R223) -/

/-- STD_OFFSET in minutes; 0 without a valid TARIFF section (R217). -/
def stdOffset (c : RunCfg) : Int := match c.tariff with | some t => t.stdOff | none => 0

/-- The daylight-saving rule in force (R217). -/
def dstOf (c : RunCfg) : Dst := match c.tariff with | some t => t.dst | none => {}

/-- Local standard time at a second of device time (R218). -/
def stdSec (c : RunCfg) (sec : Nat) : Int := utcSec c sec + stdOffset c * 60

/-- The start instant of daylight saving in a year, in local standard time (R219). -/
def dstStart (r : Dst) (y : Int) : Int := nthWeekday y r.sMonth r.sWeek r.sWday * 86400 + r.sMin * 60

/-- The end instant of daylight saving in a year, in local standard time (R219). -/
def dstEnd (r : Dst) (y : Int) : Int := nthWeekday y r.eMonth r.eWeek r.eWday * 86400 + r.eMin * 60 - r.save * 60

/-- The year of a local standard time with its neighbours. -/
def yearsOf (x : Int) : List Int := let y := (dateOf (x / 86400)).1; [y - 1, y, y + 1]

/-- Whether daylight saving is in force at a local standard time: it lies between a start and the end that follows it (R219). -/
def dstOn (r : Dst) (x : Int) : Bool :=
  r.en && (yearsOf x).any fun y => decide (dstStart r y ≤ x) && decide (x < dstEnd r (if r.sMonth ≤ r.eMonth then y else y + 1))

/-- The instant of a year at which the clock goes back, in local standard time: the end of daylight saving, or its start when SAVE is negative. -/
def dstTurn (r : Dst) (y : Int) : Int := if 0 < r.save then dstEnd r y else dstStart r y

/-- Local time at a local standard time, never going back: while the clock repeats times, it stands at the last time shown before the repetition, since
a repeated local time takes effect at its first occurrence only (R223). -/
def effLocal (r : Dst) (x : Int) : Int :=
  match (yearsOf x).find? fun y => r.en && decide (dstTurn r y ≤ x) && decide (x < dstTurn r y + r.save.natAbs * 60) with
  | some y => dstTurn r y + max r.save 0 * 60 - 1
  | none => x + (if dstOn r x then r.save * 60 else 0)

/-- The local offset in force at a second, in minutes: BIL_LOCOFS (R20, R217). -/
def localOffset (c : RunCfg) (sec : Nat) : Int :=
  stdOffset c + (if dstOn (dstOf c) (stdSec c sec) then (dstOf c).save else 0)

/-! ### Bands and seasons (R220, R221) -/

/-- The season in force on a date (R220). -/
def seasonOf (t : Tariff) (m d : Nat) : Nat :=
  let n := t.seasons.length
  let started := (List.range n).filter fun i =>
    match t.seasons[i]? with | some e => decide (e.month < m) || (e.month == m && decide (e.day ≤ d)) | none => false
  match started.getLast? with | some i => i | none => n - 1

/-- The day profile of a local date (R220). -/
def profileOf (t : Tariff) (day : Int) : Nat :=
  let (y, m, d) := dateOf day
  match t.specials.find? fun s => decide ((s.year : Int) + 2000 = y) && decide (s.year ≠ 127) && s.month == m && s.day == d with
  | some s => s.profile
  | none => match t.specials.find? fun s => s.year == 127 && s.month == m && s.day == d with
    | some s => s.profile
    | none => match t.seasons[seasonOf t m d]? with
      | some e => e.week.getD (weekday day) 0
      | none => 0

/-- The calendar band and season at an effective local time (R221). -/
def bandAtLocal (t : Tariff) (l : Int) : Nat × Nat :=
  let day := l / 86400
  let min := (l % 86400 / 60).toNat
  let (_, m, d) := dateOf day
  let p := t.profs.getD (profileOf t day) ⟨0, []⟩
  (p.sw.foldl (fun b s => if s.1 ≤ min then s.2 else b) p.startBand, seasonOf t m d)

/-- The calendar band and season at a second of device time; band 0 and season 0 without a calendar (R217). -/
def calBand (c : RunCfg) (sec : Nat) : Nat × Nat :=
  match c.tariff with
  | none => (0, 0)
  | some t => bandAtLocal t (effLocal t.dst (stdSec c sec))

/-! ### Boundary instants -/

/-- Whether a second starts a multiple of `m` minutes, `shift` minutes late, of local standard time (R233, R270). -/
def gridAt (c : RunCfg) (m shift sec : Nat) : Bool :=
  let x := stdSec c sec - shift * 60
  decide (0 < m) && decide (0 < sec) && x % (m * 60 : Nat) == 0 && decide (stdSec c (sec - 1) < stdSec c sec)

/-- Whether a day is a period day (R241). -/
def periodDay (t : Tariff) (day : Int) : Bool :=
  if t.perMode = 1 then (dateOf day).2.2 == t.perDay
  else if t.perMode = 2 then day % (t.perNdays : Nat) == 0 && decide (0 < t.perNdays)
  else false

/-- Whether a calendar period boundary falls at a second (R223, R241). -/
def periodAt (c : RunCfg) (sec : Nat) : Bool :=
  match c.tariff with
  | none => false
  | some t =>
    let a := effLocal t.dst (stdSec c (sec - 1))
    let b := effLocal t.dst (stdSec c sec)
    let h : Int := t.perHour * 3600
    let l := (b - h) / 86400 * 86400 + h
    decide (a < l) && periodDay t (l / 86400)

/-- The groups due at a second, ascending (R271). -/
def groupsDue (c : RunCfg) (sec : Nat) : List Nat :=
  match c.balance with
  | none => []
  | some b => (List.range b.groups.length).filter fun g =>
    match b.groups[g]? with | some e => e.en && gridAt c e.len e.grace sec | none => false

/-- The demand interval length; 0 without a valid TARIFF section (R217). -/
def demLen (c : RunCfg) : Nat := match c.tariff with | some t => t.demLen | none => 0

/-- The boundaries of a second, in the order of R53, as kind and SUBJECT; SUBJECT of a BND_PERIOD is filled in when it is
journaled. -/
def boundariesAt (c : RunCfg) (closeNow : Option Nat) (sec : Nat) : List (Kind × Nat) :=
  let dem := if gridAt c (demLen c) 0 sec then [(Kind.bndDemand, demLen c)] else []
  let due := groupsDue c sec
  let bal := if 16 < due.length then [(Kind.bndBalance, 0xFFFFFFFF)] else due.map fun g => (Kind.bndBalance, g)
  let b0 := calBand c (sec - 1)
  let b1 := calBand c sec
  let tar := if b0 ≠ b1 ∧ 0 < sec then [(Kind.bndTariff, b0.1 + b1.1 * 16 + b1.2 * 256)] else []
  let per := if periodAt c sec || closeNow == some (sec * second) then [(Kind.bndPeriod, 0)] else []
  dem ++ bal ++ tar ++ per

/-- The seconds above `lo` and up to `lo + n` that pass a test, oldest first. -/
def secsWhere (p : Nat → Bool) (lo : Nat) : Nat → List Nat
  | 0 => []
  | n + 1 => secsWhere p lo n ++ (if p (lo + n + 1) then [lo + n + 1] else [])

/-- The first second above `lo` and at most `lo + fuel` that passes a test. -/
def nextSec (p : Nat → Bool) : Nat → Nat → Option Nat
  | _, 0 => none
  | lo, fuel + 1 => if p (lo + 1) then some (lo + 1) else nextSec p (lo + 1) fuel

/-- The second of device time at a local standard time (the inverse of R218): the first second that shows it; where an offset change skips it, the second
of that change. -/
def secOfStd (c : RunCfg) (x : Int) : Nat :=
  let u := x - stdOffset c * 60
  let cand := ((c.utcBase :: c.leaps.map fun l => (l.offset : Int)).map fun o => (u + o).toNat).filter fun n => utcSec c n == u
  match cand with
  | a :: r => r.foldl min a
  | [] => match (c.leaps.map (·.at_)).find? fun n => decide (u < utcSec c n) with
    | some n => n
    | none => (u + c.utcBase).toNat

/-- Start, in local standard time, of the grid interval of `len` minutes that contains a local standard time (R270). -/
def gridStart (len : Nat) (x : Int) : Int := x - x % (len * 60 : Nat)

/-- A second rounded down to a whole multiple of `m` minutes of local standard time (R230, R234). -/
def floorStd (c : RunCfg) (m sec : Nat) : Nat := if m = 0 then sec else secOfStd c (gridStart m (stdSec c sec))

/-- The first whole minute of UTC at or after a device time (R241). -/
def minuteAtOrAfter (c : RunCfg) (d : Nat) : Nat :=
  let sec := ceilDiv d second
  ((nextSec (fun n => utcSec c n % 60 == 0) (sec - 1) 4096).getD sec) * second

end Sys2Proof.Machine
end

