-- ==== Sys2Proof/Machine/LinkOps.lean ====
section
/-! DEFINITION. Identity and membership (R514, R616, R618), the Seif links' framing and replay (R608 to R610), and the replication of a journaled
entry (R619). -/
namespace Sys2Proof.Machine

/-- The value of the root in force (R509, R513). -/
def Otp.root (o : Otp) : Option Nat := o.roots.findSome? fun r => match r with | .valid v => some v | _ => none

/-- The device identity private key (R512, R513). -/
def State.dik (s : State) : Nat := dikOf (s.sec.otp.root.getD 0)

/-- UNIT_ID: the first 8 bytes of SHA-256 over the DIK public key (R514). -/
def State.unitId (s : State) : Bytes := fit 8 (Config.sha256 (Config.ecPub s.dik))

/-- Change the Seif block. -/
def State.setSef (s : State) (f : Sef → Sef) : State := { s with sef := f s.sef }

/-! ### Members and peers (R616, R618) -/

/-- The unit is a triad member; otherwise it is a unit of one (R616, R640). -/
def State.triad (s : State) : Bool := s.bitOf rSefCtl 1

/-- The chain position of a rank (R616). -/
def State.memberPos (s : State) (r : Nat) : Nat := s.fld rSefMember (8 * r + 4) (8 * r)

/-- The unit's own rank; 3 outside a triad (R616, R641). -/
def State.rank (s : State) : Nat :=
  if s.triad then (((List.range 3).find? fun r => s.sef.pos == some (s.memberPos r)).getD 3) else 3

/-- The rank of a chain position in the triad, when it is a member's. -/
def State.rankAt (s : State) (pos : Nat) : Option Nat := if s.triad then (List.range 3).find? fun r => s.memberPos r == pos else none

/-- A peer's configuration and system address equal the unit's own (R618). -/
def State.peerMatches (s : State) (p : Peer) : Bool := decide (p.sysaddr = s.cfg.sysaddr) && decide (p.cfg8 = fit 8 s.cfg.hash)

/-- The peers of a triad that are present and count (R618, R719). -/
def State.peersPresent (s : State) : List Peer :=
  s.sef.peers.filter fun p => p.present && p.state ≠ 7 && (s.rankAt p.pos).isSome && decide (some p.pos ≠ s.sef.pos) && s.peerMatches p

/-! ### Frames on a link (R608 to R610) -/

/-- Change a link. -/
def State.setLink (s : State) (n : Nat) (f : SefLink → SefLink) : State :=
  s.setSef fun x => { x with links := match x.links[n]? with | some l => x.links.set n (f l) | none => x.links }

/-- A link: 0 UP, 1 DN. -/
def State.link (s : State) (n : Nat) : SefLink := s.sef.links.getD n {}

/-- A link carries frames: the block runs, the link is trained and no collision disabled it (R607, R609). -/
def State.linkLive (s : State) (n : Nat) : Bool := s.sef.on && (s.link n).up && !(s.link n).dis

/-- A frame without its CRC, its LSEQ still 0 (R608). -/
def sefFrame (ty hops src dst : Nat) (uid body : Bytes) : Bytes :=
  le 1 ty ++ le 1 hops ++ le 2 body.length ++ le 1 src ++ le 1 dst ++ le 2 0 ++ fit 8 uid ++ body

/-- A frame as it stands on a link (R608): K27.7, the frame bytes, K29.7. -/
def frameSyms (f : Bytes) : List LinkSym := .k 0xFB#8 :: (f.map .d ++ [.k 0xFD#8])

/-- The ordered set between frames (R608): K28.5 D16.2. -/
def idleSet : List LinkSym := [.k 0xBC#8, .d 0x50#8]

/-- The ordered set that acknowledges LSEQ or asks again from it (R609): K28.3 or K28.6, LSEQ, D21.5. -/
def ackSet (nack : Bool) (lseq : Nat) : List LinkSym := .k (if nack then 0xDC#8 else 0x7C#8) :: ((le 2 lseq).map .d ++ [.d 0xB5#8])

/-- What a live link sends while no frame and no acknowledgement is on it (R608); a dead one sends nothing (R607). -/
def SefLink.idle (l : SefLink) : List LinkSym := if l.up && !l.dis then idleSet else []

/-- Bytes in a link's replay buffer. -/
def SefLink.used (l : SefLink) : Nat := (l.replay.map fun f => f.2.length).foldl (· + ·) 0

/-- Send waiting frames while the replay buffer of 64 KiB has room (R609): each takes the next LSEQ and its CRC. -/
def State.linkPump (n : Nat) : Nat → State → State
  | 0, s => s
  | k + 1, s =>
    let l := s.link n
    match l.wait with
    | [] => s
    | f :: r =>
      if l.used + f.length + 4 ≤ 65536 then
        let g := f.take 6 ++ le 2 l.lseqTx ++ f.drop 8
        let h := g ++ le 4 (crc32 g)
        State.linkPump n k ((s.setLink n fun x => { x with wait := r, replay := x.replay ++ [(l.lseqTx, h)], lseqTx := (l.lseqTx + 1) % 65536,
                                                           sentAt := if l.replay.isEmpty then s.t else x.sentAt }).emit (.seif n (frameSyms h)))
      else s

/-- Give a frame to a link (R609, R610). -/
def State.linkPut (s : State) (n : Nat) (f : Bytes) : State :=
  if s.linkLive n then
    let s1 := s.setLink n fun x => { x with wait := x.wait ++ [f] }
    State.linkPump n (s1.link n).wait.length s1
  else s

/-- Every unit: the DSTPOS of a broadcast (R608). -/
def sefAll : Nat := 0x3F

/-- Send a frame of the unit: a broadcast on both links, a unicast on the link on which the destination's heartbeat was last heard (R610). -/
def State.sefSend (s : State) (ty dst : Nat) (body : Bytes) : State :=
  match s.sef.pos with
  | none => s
  | some p =>
    let f := sefFrame ty 0 p dst s.unitId body
    if dst = sefAll then (s.linkPut 0 f).linkPut 1 f
    else match s.sef.peers.find? fun x => x.pos == dst with
      | some x => s.linkPut x.link f
      | none => s

/-- Send a frame to some peers. -/
def State.sefSendTo (s : State) (ty : Nat) (ps : List Peer) (body : Bytes) : State := ps.foldl (fun a p => a.sefSend ty p.pos body) s

/-! ### Q8 (R77, R83, R615) -/

/-- The body length of a packet on Q8: a CMD datagram and an IMAGE block tell their own, another type takes all words. The packet has no field for it.
DEDUCED. -/
def q8Len (ty : Nat) (b : Bytes) : Nat :=
  if ty = 0x0B then 56 + Machine.fld 36 2 b
  else if ty = 0x0C then 20 + min 4096 (Machine.fld 12 4 b - Machine.fld 16 4 b)
  else b.length

/-- The link transmitters take up to `k` packets from Q8 (R77, R615). -/
def State.q8Drain : Nat → State → State
  | 0, s => s
  | k + 1, s =>
    match s.ringTake 8 with
    | (.packet _ ty (d :: ws), s1) => State.q8Drain k ((s1.ringDrain 8).sefSend ty (d.toNat % 64) ((ofWs ws).take (q8Len ty (ofWs ws))))
    | (.idle, _) => s
    | (_, s1) => State.q8Drain k (s1.ringDrain 8)

/-- Hand a frame to the link transmitters through Q8 (R615). -/
def State.q8Send (s : State) (ty dst : Nat) (body : Bytes) : State :=
  State.q8Drain 1 (s.ringPacket 8 ty (BitVec.ofNat 32 dst :: toWs body))

/-- Where a CMD datagram for a system address goes: a peer that named it in a heartbeat, the holder first (R613). -/
def State.relayTo (s : State) (sysaddr : Nat) : Option Peer :=
  let l := s.sef.peers.filter fun p => p.sysaddr == sysaddr
  match l.find? fun p => p.token with | some p => some p | none => l.head?

/-! ### Replication (R619) -/

/-- The body of a JREP frame. -/
def jrepBody (first : Nat) (es : List Entry) : Bytes := le 8 first ++ le 2 es.length ++ le 2 0 ++ es.flatMap Entry.bytes

/-- The holder replicates an entry as soon as it is journaled (R619). -/
def State.replicate (s : State) (e : Entry) : State :=
  if s.triad && s.sef.driver then s.sefSendTo 3 s.peersPresent (jrepBody e.jsn [e]) else s

end Sys2Proof.Machine
end

