-- ==== Sys2Proof/Machine/JournalOps.lean ====
section
/-! DEFINITION. The journal sequencer's operations: giving an input its entry (R27 to R38), boundary entries (R31, R51 to
R53), the hold buffer (R103), and what an entry's place in the journal alone fixes. -/
namespace Sys2Proof.Machine

/-- A fence that is a boundary entry (R31). -/
def Fence.bnd (f : Fence) : Bool := f.kind == .bndDemand || f.kind == .bndBalance || f.kind == .bndTariff || f.kind == .bndPeriod

/-- The marks of a TIME_SET entry (R237, R289): the demand interval open in JSN order, and the span a forward set crosses; the first PTP step marks only
what it crosses. -/
def Ctx.stepMarks (c : Ctx) (e : Entry) : List Mark :=
  let old := fld 0 8 e.payload
  let new := fld 8 8 e.payload
  let dem := match (c.fences.filter fun x => x.kind == .bndDemand).getLast? with | some x => x.stamp | none => old
  if fld 16 1 e.payload = 0 then (if old < new then [{ jsn := e.jsn, kind := .firstStep, a := old, b := new }] else [])
  else
    [{ jsn := e.jsn, kind := .openDemand, a := dem, b := dem + 1 }, { jsn := e.jsn, kind := .step, a := old, b := max (old + 1) new }] ++
    (if old < new then [{ jsn := e.jsn, kind := .openDemand, a := old + 1, b := new }] else [])

/-- Where the unit's own time begins, once an entry is journaled: an empty context or another image begins it anew (R272, R708). -/
def Ctx.beganAt (c : Ctx) (e : Entry) : Option Began :=
  match e.kind with
  | .start =>
    let h := e.payload.take 32
    (match c.began with
    | some b => if fld 37 8 e.payload ≠ 0 ∧ b.hash = h then some b else some { hash := h, stamp := e.stamp, unsure := e.flags.timeUnsure }
    | none => some { hash := h, stamp := e.stamp, unsure := e.flags.timeUnsure })
  | .timeState => c.began.map fun b => if fld 0 1 e.payload = 1 ∧ b.unsure = true then { b with stamp := e.stamp, unsure := false } else b
  | _ => c.began

/-- What a boundary entry's place in the journal fixes for every later task: the fences the slots meet (R131), the
band and season in force (R225), the high-water boundary (R39) and the number of the open period (R240). A READOUT is a fence of the FEEDER task (R257,
R314), and so is a START, behind which the front end is enabled anew (R319). -/
def Ctx.note (c0 : Ctx) (e : Entry) : Ctx :=
  let c : Ctx := { c0 with began := c0.beganAt e }
  let subj := fld 0 4 e.payload
  let f : Fence := { kind := e.kind, jsn := e.jsn, stamp := e.stamp, subj := subj, held := e.flags.held,
                     initial := e.kind == .bndTariff && c.bands.isEmpty && bits 3 0 subj == bits 7 4 subj }
  match e.kind with
  | .bndDemand | .bndBalance => { c with fences := c.fences ++ [f], hwb := max c.hwb e.stamp, regr := false }
  | .bndTariff =>
    { c with fences := c.fences ++ [f], hwb := max c.hwb e.stamp, regr := false,
             bands := c.bands ++ [{ jsn := e.jsn, stamp := e.stamp, band := bits 7 4 subj, season := bits 9 8 subj }] }
  | .bndPeriod =>
    { c with fences := c.fences ++ [f], hwb := max c.hwb e.stamp, regr := false, nextPer := subj + 1, heldPers := c.heldPers.filter fun x => x ≠ e.stamp }
  | .supRestore =>
    if e.flags.timeUnsure then c
    else { c with marks := c.marks ++ [{ jsn := e.jsn, kind := .outage, a := fld 0 8 e.payload, b := e.stamp }] }
  | .timeSet =>
    let old := fld 0 8 e.payload
    let new := fld 8 8 e.payload
    { c with marks := c.marks ++ c.stepMarks e, regr := decide (new < c.hwb) && (decide (new < old) || c.regr || e.flags.timeUnsure) }
  | .start => { c with fences := c.fences ++ [f] }
  | .closeCursor =>
    if 131072 ≤ fld 4 4 e.payload then { c with closeEnds := c.closeEnds ++ [(fld 0 4 e.payload, e.jsn)] } else c
  | .mgmtCmd =>
    let src := fld 0 8 e.payload
    { c with unsubmitted := c.unsubmitted.filter fun u => !(u.src == src && u.stamp == e.stamp && u.cmd == e.payload.drop 8),
             fences := if fld 8 2 e.payload = 0x11 then c.fences ++ [f] else c.fences }
  | _ => c

/-- The high-water boundary at a JSN (R39). -/
def Ctx.hwbAt (c : Ctx) (jsn : Nat) : Nat := (c.fences.filter fun f => f.bnd && decide (f.jsn < jsn)).foldl (fun m f => max m f.stamp) 0

/-- Closes open at a JSN, by the entries below it: each BND_PERIOD opens one, and its last CLOSE_CURSOR ends it (R242, R246). -/
def Ctx.closesOpenAt (c : Ctx) (jsn : Nat) : Nat :=
  (c.fences.filter fun f => f.kind == .bndPeriod && decide (f.jsn < jsn)).length - (c.closeEnds.filter fun x => decide (x.2 < jsn)).length

/-- Whether a mark below an effective JSN overlaps the span of device time from `t0` to `t1`. -/
def Ctx.marked (c : Ctx) (kinds : MarkKind → Bool) (eff t0 t1 : Nat) : Bool :=
  c.marks.any fun m => kinds m.kind && decide (m.jsn < eff) && decide (m.a < t1) && decide (t0 < m.b)

/-- Whether a step below an effective JSN met the balance interval from `t0` to its end open, or crossed its start (R289): the interval closes above the
step, so it was open there when it had begun. -/
def Ctx.stepped (c : Ctx) (eff t0 : Nat) : Bool :=
  c.marks.any fun m => decide (m.jsn < eff) && decide (t0 < m.b) && (m.kind == .step || (m.kind == .firstStep && decide (m.a < t0)))

/-- The band and season in force for an effective JSN (R225). -/
def Ctx.bandAt (c : Ctx) (eff : Nat) : Nat × Nat :=
  match (c.bands.filter fun b => decide (b.jsn < eff)).getLast? with
  | some b => (b.band, b.season)
  | none => (0, 0)

/-- The band and season in force for an effective JSN; 0 and 0 without a TARIFF section in force (R217, R225). -/
def State.bandNow (s : State) (eff : Nat) : Nat × Nat := if s.cfg.tariff.isNone then (0, 0) else s.ctx.bandAt eff

/-- The open period for an effective JSN (R227, R240). -/
def Ctx.periodAt (c : Ctx) (eff : Nat) : Nat :=
  match (c.fences.filter fun f => f.kind == .bndPeriod && decide (f.jsn < eff)).getLast? with
  | some f => f.subj + 1
  | none => 1

/-- How stamps are flagged changes (R38, R58, R61): the span so far ends at device time `b`, and the next one starts at `a`. -/
def Seq.turn (q : Seq) (b a : Nat) (unsure regressed : Bool) : Seq :=
  { q with spans := { a := q.spanFrom, b := b, unsure := q.unsure, regressed := q.regressed } :: q.spans, spanFrom := a,
           unsure := unsure, regressed := regressed }

/-- Whether a stamp was taken while time was unsure, and whether while device time was below the high-water boundary after a backward set: by the latest
span that holds it (R38, R58, R61). -/
def State.stampState (s : State) (stamp : Nat) : Bool × Bool :=
  if s.seq.spanFrom ≤ stamp ∧ stamp ≤ s.dev then (s.seq.unsure, s.seq.regressed)
  else match s.seq.spans.find? fun x => decide (x.a ≤ stamp) && decide (stamp ≤ x.b) with
    | some x => (x.unsure, x.regressed)
    | none => (s.seq.unsure, s.seq.regressed)

/-- The flags of an entry made of an input with this stamp (R38, R58, R61). -/
def State.inputFlags (s : State) (stamp : Nat) : EFlags :=
  { timeUnsure := (s.stampState stamp).1, regressed := (s.stampState stamp).2,
    late := decide (stamp < s.ctx.hwb) && decide (s.ctx.hwb ≤ s.dev) }

/-- The entry from which the next checkpoint is counted, once an entry is journaled: the latest CKPT entry, else the first START (R68). -/
def Seq.countFrom (q : Seq) (kind : Kind) (jsn stamp : Nat) : Option (Nat × Nat) :=
  if kind = .ckpt ∨ (kind = .start ∧ q.lastCkpt = none) then some (jsn, stamp) else q.lastCkpt

/-- When the durable watermark last advanced, or the first entry began to wait for it (R66). -/
def Seq.durSince (q : Seq) (now : Nat) : Nat := if q.nextJsn ≤ q.durable + 1 then now else q.lastDur

/-- Whether the stall of the entries that wait has been reported, once one more waits (R66). -/
def Seq.stallKept (q : Seq) : Bool := decide (q.durable + 1 < q.nextJsn) && q.stallFired

/-- Journal an entry: the next JSN, a packet on Q12 for the media, and its place with the dispatcher (R27, R28, R83). -/
def State.append (s : State) (kind : Kind) (cls : EClass) (src : Src) (stamp : Nat) (flags : EFlags) (payload : Bytes) : State :=
  let e : Entry := { kind := kind, cls := cls, jsn := s.seq.nextJsn, stamp := stamp,
                     src := { src with origin := s.seq.pos }, flags := flags, payload := payload }
  let s1 : State :=
    { s with seq := { s.seq with journal := s.seq.journal ++ [e], nextJsn := s.seq.nextJsn + 1,
                                 lastDur := s.seq.durSince s.t, stallFired := s.seq.stallKept,
                                 lastCkpt := s.seq.countFrom kind e.jsn stamp },
             erg := { s.erg with toDispatch := s.erg.toDispatch ++ [e] },
             ctx := s.ctx.note e }
  (s1.ringPacket 12 1 (toWs e.bytes)).replicate e

/-- Journal an input as it came (R27). -/
def State.journalInput (s : State) (i : Input) : State :=
  s.append i.kind i.cls i.src i.stamp (s.inputFlags i.stamp) i.payload

/-- Journal an entry the sequencer makes itself at device time now. -/
def State.journalOwn (s : State) (kind : Kind) (payload : Bytes) : State :=
  s.append kind .normal {} s.dev (s.inputFlags s.dev) payload

/-- The close instant of a CLOSE_NOW that waits (R241). -/
def State.closeInstant (s : State) : Option Nat := match s.ctx.closeNow with | some w => w.instant | none => none

/-- BND_PERIODs that were held as they fell (R242): calendar boundaries and a waiting close instant above the latest BND_PERIOD and at or below the
high-water boundary, which two open closes held when the journal passed them. A hold makes no entry, so a start and a take-over find it again here. -/
def State.recoverHeld (s : State) : State :=
  let ps := s.ctx.fences.filter fun f => f.kind == .bndPeriod
  let last := match ps.getLast? with | some f => secOf f.stamp | none => 0
  let passed (x : Nat) : Bool := match s.ctx.fences.find? fun f => f.bnd && decide (x * second ≤ f.stamp) with
    | some f => decide (2 ≤ s.ctx.closesOpenAt f.jsn)
    | none => false
  let held := (secsWhere (fun x => (periodAt s.cfg x || s.closeInstant == some (x * second)) && passed x) last (secOf s.ctx.hwb - last)).map (· * second)
  if ps.isEmpty ∨ held.isEmpty = true then s
  else ({ s with ctx := { s.ctx with heldPers := held } } : State).irq rBilIrq 3

/-- Whether boundaries of a second are still to be journaled; a BND_PERIOD that R242 holds is not due again. -/
def State.bndDue (s : State) (sec : Nat) : Bool :=
  !(boundariesAt s.cfg s.closeInstant sec).isEmpty && !s.ctx.heldPers.contains (sec * second)

/-- Journal one boundary entry; a BND_PERIOD that finds two closes open is held instead (R242). -/
def State.journalBoundary (s : State) (T : Nat) (held : Bool) (b : Kind × Nat) : State :=
  let fl : EFlags := { timeUnsure := s.seq.unsure, held := held }
  if b.1 = .bndPeriod then
    if 2 ≤ s.ctx.nextPer - s.ctx.epoch then
      ({ s with ctx := { s.ctx with heldPers := s.ctx.heldPers ++ [T] } } : State).irq rBilIrq 3
    else s.append .bndPeriod .normal {} T fl (le 4 s.ctx.nextPer)
  else s.append b.1 .normal {} T fl (le 4 b.2)

/-- Release the oldest BND_PERIOD held while two closes were open (R242); while time is unsure or stamps carry REGRESSED no boundary is journaled (R58,
R61). -/
def State.releaseHeldPeriod (s : State) : State :=
  match s.ctx.heldPers with
  | [] => s
  | T :: r =>
    if 2 ≤ s.ctx.nextPer - s.ctx.epoch ∨ s.seq.holder = false ∨ s.boot.restoring = true ∨ s.seq.unsure = true ∨ s.seq.regressed = true then s
    else ({ s with ctx := { s.ctx with heldPers := r } } : State).append .bndPeriod .normal {} T { timeUnsure := s.seq.unsure, held := true }
      (le 4 s.ctx.nextPer)

/-- Journal the boundary entries of an instant in the order of R53. -/
def State.journalBoundaries (s : State) (T : Nat) (held : Bool) : State :=
  let s1 := (boundariesAt s.cfg s.closeInstant (secOf T)).foldl (fun a b => a.journalBoundary T held b) s
  { s1 with seq := { s1.seq with bndBase := max s1.seq.bndBase T } }

/-- The second above which boundaries are still to be journaled: the high-water boundary; while that is 0, the device time at which the unit's first
boundaries begin (R39, R60). -/
def State.bndFrom (s : State) : Nat := secOf (if s.ctx.hwb = 0 then s.seq.bndBase else s.ctx.hwb)

/-- Journal every boundary above the high-water boundary and at or below device time `hi`, each HELD (R56, R60, R62). -/
def State.journalCrossed (s : State) (hi : Nat) : State :=
  (secsWhere s.bndDue s.bndFrom (secOf hi - s.bndFrom)).foldl (fun a x => a.journalBoundaries (x * second) true) s

/-- Journal a held input. -/
def State.journalHeld (s : State) (h : HeldIn) : State :=
  match h.pkt with
  | [] => s
  | l :: ws =>
    match Kind.ofCode (bits 23 16 l.toNat) with
    | none => s
    | some k =>
      let i := Input.ofWords k ws
      if packetTrunc (bit 27 l.toNat) ws then
        s.append k .trunc i.src i.stamp { s.inputFlags i.stamp with ring := h.ring } []
      else s.journalInput i

/-- A held supply input (R53). -/
def HeldIn.supply (h : HeldIn) : Bool :=
  match h.pkt with | l :: _ => decide (0x20 ≤ bits 23 16 l.toNat) && decide (bits 23 16 l.toNat ≤ 0x22) | [] => false

/-- Where a held input stands among those that arrived before it: a supply input before the others of its own stamp, else last (R53). -/
def placeHeld (x : HeldIn) : List HeldIn → List HeldIn
  | [] => [x]
  | y :: r => if x.supply && !y.supply && x.stamp == y.stamp then x :: y :: r else y :: placeHeld x r

/-- Held inputs in the order they are journaled: arrival order, and R53 for equal stamps. -/
def heldOrder (l : List HeldIn) : List HeldIn := l.foldl (fun a x => placeHeld x a) []

/-- End the boundary hold: the boundary entries of T, what must follow them at once, then the held inputs in arrival
order (R51, R52, R53). -/
def State.endHold (s : State) (warn : Option Input) : State :=
  match s.seq.hold with
  | none => match warn with | some w => s.journalInput w | none => s
  | some h =>
    let s0 : State := { s with seq := { s.seq with hold := none } }
    let s1 := if s.seq.unsure ∨ s.seq.regressed then s0 else s0.journalBoundaries h.T false
    let s2 := match warn with | some w => s1.journalInput w | none => s1
    (heldOrder h.items).foldl (fun a x => a.journalHeld x) s2

/-- Words of hold data in use (R103). -/
def Hold.words (h : Hold) : Nat := (h.items.map fun x => x.pkt.length).foldl (· + ·) 0

/-- A held input's index entry and its packet in hold data (R103). -/
def State.holdStore (s : State) (h : Hold) (x : HeldIn) : State :=
  (s.putWram (0x12240000 + 16 * h.items.length)
      (le 8 x.stamp ++ le 4 h.words ++ le 2 x.pkt.length ++ le 1 x.ring ++ le 1 0)).putWram (0x12250000 + 4 * h.words) (ofWs x.pkt)

/-- A full hold buffer ends the hold early (R52). -/
def State.holdFull (s : State) : State := ((s.irq rJsqIrq 2).event 0x42 0).endHold none

/-- Whether an input is the command HOLD_END (R52, R460). -/
def isHoldEnd (l : Word) (ws : List Word) : Bool :=
  bits 23 16 l.toNat == 0x30 && Machine.fld 8 2 (Input.ofWords .mgmtCmd ws).payload == 0x13

/-- Take one input packet: into the hold buffer when it is stamped at or after the boundary instant, else into the
journal; a full buffer ends the hold early (R51, R52, R103). A HOLD_END does not wait in the buffer: it has to be journaled to end the hold (R26, R52).
DEDUCED. -/
def State.takeInput (s : State) (ring : Nat) (l : Word) (ws : List Word) : State :=
  let stamp := (ws.getD 0 0).toNat + (ws.getD 1 0).toNat * 4294967296
  let x : HeldIn := { ring := ring, stamp := stamp, pkt := l :: ws }
  match s.seq.hold with
  | none => s.journalHeld x
  | some h =>
    if bits 23 16 l.toNat = 0x20 then
      if stamp < h.T then (s.journalHeld x).endHold none else s.endHold (some (Input.ofWords .supWarn ws))
    else if stamp < h.T ∨ isHoldEnd l ws = true then s.journalHeld x
    else if 442368 < h.words + ws.length + 1 then s.holdFull.journalHeld x
    else
      let s1 : State := { s.holdStore h x with seq := { s.seq with hold := some { h with items := h.items ++ [x] } } }
      if 4096 ≤ h.items.length + 1 ∨ h.words + ws.length + 1 = 442368 then s1.holdFull else s1

/-- Let time pass until device time reaches an instant. -/
def State.untilDev (s : State) (d : Nat) : State :=
  let s1 := if s.dev < d then s.advance (d - s.dev) else s
  if s1.dev < d then s1.advance (d - s1.dev + 1) else s1

/-- Journal units that may wait for their program: STAGE_MAX (R574). -/
def Med.stageMax (m : Med) : Nat := match m.nand.geom with | some g => min 64 ((g.luns - 1) * g.page) | none => 64

/-- Whole units of journal data in Q12 and in staging (R574). -/
def State.stageUnits (s : State) : Nat :=
  s.med.wait.length + ((match s.med.fill with | some u => u.data.length | none => 0) + 4 * ((s.ring 12).w - (s.ring 12).r)) / 4092

/-- The sequencer holds Q12 back: STAGE_MAX units wait (R574); with the media disabled nothing holds it back (R598). -/
def State.stageFull (s : State) : Bool := s.med.run && decide (s.med.stageMax ≤ s.stageUnits)

/-- QF_STAT12.STALLED: a write to Q12 waits, or the sequencer holds its entries back (R78, R574). -/
def State.q12Stalled (s : State) : Bool := (s.ring 12).stalled || (s.bitOf rJsqCtl 0 && s.seq.holder && s.stageFull)

/-- Whether the sequencer takes inputs now: enabled, the token holder or a unit of one (R34), and not waiting for Q12 (R574). -/
def State.seqTakes (s : State) : Bool := s.bitOf rJsqCtl 0 && s.seq.holder && !(s.ring 12).stalled && !s.stageFull

end Sys2Proof.Machine
end

