-- ==== Sys2Proof/Machine/Keys.lean ====
section
/-! DEFINITION. The system key in use, wrapping and unwrapping (R45, R523 to R525), and the nonce of CCM (R341). -/
namespace Sys2Proof.Machine

/-- The system key; a keyless unit runs no service (R522), so the number used then protects nothing. -/
def State.sys (s : State) : Nat := s.sysKey.getD 0

/-- Bytes wrapped under JKEK (R45). -/
def State.wrapJ (s : State) (b : Bytes) : Bytes := Config.kwWrap (jkek s.sys) b
/-- Bytes unwrapped under JKEK. -/
def State.unwrapJ (s : State) (b : Bytes) : Bytes := (Config.kwUnwrap (jkek s.sys) b).getD []
/-- The key in WKEY of a slot; none when the integrity check fails (R524, R525). -/
def State.slotKey (s : State) (x : Slot) : Option Nat := (Config.kwUnwrap (skek s.sys s.cfg.sysaddr) x.wkey).map beVal
/-- A 128-bit key wrapped under SKEK (R523). -/
def State.wrapS (s : State) (k : Nat) : Bytes := fit 24 (Config.kwWrap (skek s.sys s.cfg.sysaddr) (be 16 k))

/-- The 13-byte CCM nonce (R341). -/
def ccmNonce (eui counter dir : Nat) : Bytes := be 8 eui ++ le 4 counter ++ le 1 dir

end Sys2Proof.Machine
end

