-- ==== Sys2Proof/Machine/ErgOps.lean ====
section
/-! DEFINITION. The engine array's operations: task keys of an entry (R109, R110), owners and FIFOs (R113, R114), the commit
watermark (R132), outputs and deterministic events of a commit (R445, R592), and what the grains show (R143). -/
namespace Sys2Proof.Machine

/-! ### Task keys (R109 to R112) -/

/-- The groups a BND_BALANCE names: its SUBJECT, or every group due at its instant (R31, R110). -/
def balanceSubjects (c : RunCfg) (e : Entry) : List Nat :=
  let sub := fld 0 4 e.payload
  if sub = 0xFFFFFFFF then groupsDue c (secOf e.stamp) else [sub]

/-- CMD of a MGMT_CMD payload: 8-byte SRC_JSN, then the command block (R459, R460). -/
def cmdCode (e : Entry) : Nat := fld 8 2 e.payload

/-- The task keys of an entry, in the order their tasks are queued (R110). A BND_PERIOD also starts the period-close sweep. -/
def keysOf (c : RunCfg) (e : Entry) : List Key :=
  match e.kind with
  | .drbgDraw => []
  | _ =>
    if e.src.slotV then (if e.cls = .normal then [.slot e.src.slot] else [.sys 4])
    else if e.cls ≠ .normal then [.sys 4]
    else match e.kind with
      | .bndPeriod => [.sys 0, .sys 6]
      | .bndDemand | .bndTariff | .timeSet | .timeState => [.sys 0]
      | .bndBalance => (balanceSubjects c e).map .group
      | .mtrBlock | .mtrEvent => [.sys 1]
      | .supWarn | .supDip | .supRestore => [.sys 2]
      | .mgmtCmd => if cmdCode e = 0x10 then [.sys 0] else if cmdCode e = 0x30 then [.sys 1]
                    else if cmdCode e = 0x11 then [.sys 6] else [.sys 3]
      | .evtCapture => [.sys 5]
      | .netPkt => if c.role = .head then [.sys 7] else [.sys 3]
      | .seifFrame => [.sys 8]
      | .tamper => [.sys 9]
      | .start | .ckpt | .closeCursor => [.sys 10]
      | .ringLoss | .radFrame | .plcFrame | .drbgDraw => [.sys 4]

/-- INDEX of a key (R109). -/
def keyIndex : Key → Nat
  | .slot i => i
  | .group g => g
  | .sys n => n

/-- The home grain of a key (R112). -/
def homeGrain (k : Key) : Nat := keyIndex k % 64

/-- The dune of a grain (R112). -/
def duneOf (g : Nat) : Nat := g / 8

/-! ### FIFOs (R113, R114, R117) -/

/-- The queue of a key. -/
def State.keyQ (s : State) (k : Key) : Option KeyQ := s.erg.keys.find? fun q => q.key == k

/-- Tasks in the descriptor pool (R117). -/
def State.tasksUsed (s : State) : Nat := (s.erg.keys.map fun q => q.tasks.length).foldl (· + ·) 0

/-- Descriptors of the pool (R117). -/
def poolSize : Nat := 32768

/-- Note whether only the reserve is left (R117). -/
def State.poolCheck (s : State) : State :=
  let full := decide (poolSize - 512 ≤ s.tasksUsed)
  let s1 : State := { s with erg := { s.erg with poolFull := full } }
  if full && !s.erg.poolFull then s1.irq rErgIrq 0 else s1

/-- Queue a task under its key, with the key's owner or its home grain (R113). -/
def State.enqueue (s : State) (t : Task) : State :=
  let t := { t with since := s.t }
  match s.keyQ t.key with
  | some _ =>
    { s with erg := { s.erg with keys := s.erg.keys.map fun q => if q.key == t.key then { q with tasks := q.tasks ++ [t] } else q } }
  | none => { s with erg := { s.erg with keys := s.erg.keys ++ [{ key := t.key, owner := homeGrain t.key, tasks := [t] }] } }

/-- Replace the oldest task of a key. -/
def State.setHead (s : State) (k : Key) (t : Task) : State :=
  { s with erg := { s.erg with keys := s.erg.keys.map fun q => if q.key == k then { q with tasks := t :: q.tasks.drop 1 } else q } }

/-- The oldest task of a key leaves; a key whose last task commits leaves the deque (R114, R123). -/
def State.dropHead (s : State) (k : Key) : State :=
  let ks := s.erg.keys.map fun q => if q.key == k then { q with tasks := q.tasks.drop 1, pinned := (q.tasks.drop 1).any fun t => t.phase ≠ .queued } else q
  { s with erg := { s.erg with keys := ks.filter fun q => !(q.tasks.isEmpty) } }

/-- The oldest task of a key. -/
def State.headTask (s : State) (k : Key) : Option Task := match s.keyQ k with | some q => q.tasks.head? | none => none

/-- Whether a task must wait for the commit watermark itself, so that the watermark cannot wait for it (R132). -/
def Task.boundary (t : Task) : Bool :=
  match t.work with
  | .entry => t.entry.kind == .bndBalance || (t.entry.kind == .mgmtCmd && cmdCode t.entry == 0x11)
  | _ => false

/-- A period-close sweep (R110). Its steps are ordered under their CLOSE_CURSOR entries (R245, R445), so it holds the watermark back at no JSN: the
outputs of its steps wait for a watermark above its BND_PERIOD (R446). DEDUCED. -/
def Task.sweeps (t : Task) : Bool := match t.work with | .sweep _ => true | _ => false

/-- The lowest JSN among queued tasks that pass a test. -/
def State.lowestJsn (s : State) (p : Task → Bool) : Option Nat :=
  (s.erg.keys.flatMap fun q => q.tasks.filter p).foldl (fun m t => match m with | none => some t.jsn | some x => some (min x t.jsn)) none

/-- The commit watermark ERG_CWM (R132). -/
def State.cwm (s : State) : Nat :=
  match s.lowestJsn (fun t => !t.sweeps) with | some j => j - 1 | none => s.erg.dispatched

/-- The watermark for the tasks that wait for it at JSN `j`: every task below `j` has committed, and at `j` every task but those that wait for the
watermark there themselves (R132). -/
def State.cwmPast (s : State) (j : Nat) : Bool :=
  decide (j ≤ s.erg.dispatched) &&
    (match s.lowestJsn (fun t => !t.sweeps && !(t.boundary && t.jsn == j)) with | some x => decide (j < x) | none => true)

/-! ### Grains and dunes (R119, R120, R141) -/

/-- Keys owned by a grain, in deque order. -/
def State.deque (s : State) (g : Nat) : List KeyQ := s.erg.keys.filter fun q => q.owner == g

/-- Whether a key has a task to start. -/
def KeyQ.startable (q : KeyQ) : Bool := q.tasks.any fun t => t.phase == .queued

/-- Whether a grain is idle (R119). -/
def State.grainIdle (s : State) (g : Nat) : Bool := (s.deque g).all fun q => !q.startable

/-- Tasks queued with a grain (R143). -/
def State.grainTasks (s : State) (g : Nat) : Nat := ((s.deque g).map fun q => q.tasks.length).foldl (· + ·) 0

/-- The depth of a grain: tasks in the FIFOs of its stealable keys (R120). -/
def State.depth (s : State) (g : Nat) : Nat :=
  (((s.deque g).filter fun q => !q.pinned).map fun q => q.tasks.length).foldl (· + ·) 0

/-- The grains of a dune. -/
def grainsOf (d : Nat) : List Nat := (List.range 8).map fun i => 8 * d + i

/-- Tasks queued with a dune's grains. -/
def State.duneTasks (s : State) (d : Nat) : Nat := ((grainsOf d).map s.grainTasks).foldl (· + ·) 0

/-- Dune `d`. -/
def State.dune (s : State) (d : Nat) : Dune := s.erg.dunes.getD d {}

/-- Write dune `d`. -/
def State.setDune (s : State) (d : Nat) (x : Dune) : State := { s with erg := { s.erg with dunes := s.erg.dunes.set d x } }

/-- Dunes awake. -/
def State.awakeCount (s : State) : Nat := (s.erg.dunes.filter fun x => x.pwr == .awake).length

/-- A dune whose grains are all idle (R119, R140). -/
def State.duneIdle (s : State) (d : Nat) : Bool := (grainsOf d).all s.grainIdle

/-- A dune one of whose grains owns a pinned key: a task of it has started and not committed, so the dune does not sleep (R115, R140). -/
def State.dunePinned (s : State) (d : Nat) : Bool := (grainsOf d).any fun g => (s.deque g).any fun q => q.pinned

/-- A field that acts as 1 when it is 0. -/
def atLeast1 (n : Nat) : Nat := if n = 0 then 1 else n

/-- Note when a dune turned idle or stopped being idle, for IDLE_US (R140). -/
def State.noteIdle (s0 s : State) : State :=
  (List.range 8).foldl (fun a d => if s0.duneIdle d then a else if s.duneIdle d then a.setDune d { a.dune d with idleSince := s.t } else a) s

/-- The dunes that the governor's limit sends to NAP enter it once their running tasks have finished (R142). -/
def State.leaveDunes (s : State) : State :=
  (List.range 8).foldl (fun a d => if (a.dune d).leaving && !a.dunePinned d then a.setDune d { a.dune d with pwr := .nap, since := a.t, leaving := false } else a) s

/-- A dune that starts tasks: awake, and not about to nap (R142). -/
def State.duneWorks (s : State) (d : Nat) : Bool := (s.dune d).pwr == .awake && !(s.dune d).leaving

/-! ### Dispatch (R108, R110) -/

/-- The task a draw's consumer tag names (R43, R536); none names the period-close sweep. -/
def drawKey (tag : Nat) : Option Key :=
  if bits 30 24 tag = 0x42 then some (.slot (bits 23 0 tag)) else if bits 30 24 tag = 0x43 then some (.sys 3)
  else if bits 30 24 tag = 0x44 then some (.sys 6) else none

/-- Take a journaled draw to the task that asked for it (R43). -/
def State.deliverDraw (s : State) (e : Entry) : State :=
  let data := e.payload.drop 4
  match drawKey (Machine.fld 0 4 e.payload) with
  | none =>
    match s.ctx.closes with
    | c :: r =>
      if c.draw = none ∧ c.cursor / 256 = bits 23 0 (Machine.fld 0 4 e.payload) then
        { s with ctx := { s.ctx with closes := { c with draw := some (e.jsn, data) } :: r } }
      else s
    | [] => s
  | some k =>
    match s.headTask k with
    | some t => s.setHead k { t with draws := t.draws ++ [(e.jsn, data)], phase := .committing }
    | none => s

/-- What the task of an entry under one of its keys does (R110). -/
def workOf (e : Entry) (k : Key) : TaskWork := if e.kind = .bndPeriod ∧ k = .sys 6 then .sweep (Machine.fld 0 4 e.payload) else .entry

/-- Queue the tasks of one entry (R108, R110); a draw resumes the task that asked for it. -/
def State.dispatchEntry (s : State) (e : Entry) : State :=
  let s1 : State := { s with erg := { s.erg with dispatched := max s.erg.dispatched e.jsn } }
  if e.kind = .drbgDraw then s1.deliverDraw e
  else ((keysOf s.cfg e).foldl (fun a k => a.enqueue { jsn := e.jsn, key := k, entry := e, work := workOf e k }) s1).poolCheck

/-- Take the next entry from the sequencer, when Erg runs and a descriptor is free (R108, R117). -/
def State.dispatchOne (s : State) : State :=
  match s.erg.toDispatch with
  | [] => s
  | e :: r =>
    if s.bitOf rErgCtl 0 && decide (s.tasksUsed + (keysOf s.cfg e).length ≤ poolSize) then
      State.noteIdle s (({ s with erg := { s.erg with toDispatch := r } } : State).dispatchEntry e)
    else s

/-- Take up to `n` entries. -/
def State.dispatchN : Nat → State → State
  | 0, s => s
  | n + 1, s => State.dispatchN n s.dispatchOne

/-- Take every entry that waits. -/
def State.dispatchAll (s : State) : State := State.dispatchN s.erg.toDispatch.length s

/-! ### One commit -/

/-- What a commit that cannot finish waits for: a journaled draw of `n` bytes (R750), the commit watermark (R132), or descriptors for its child
tasks (R111, R117). -/
inductive WaitFor where
  | draw (tag n : Nat)
  | watermark
  | descriptors
  deriving DecidableEq, Repr

/-- A commit in progress: the state, the task's key, its effective JSN (R125), the JSN of its outputs (R445), their DEP_JSN (R42), stamp and
flags of its entry, the place of its first output among those of its JSN and key (R210), the events raised, the outputs handed over, and what it
waits for. -/
structure Com where
  s     : State
  key   : Key
  jsn   : Nat
  ojsn  : Nat
  dep   : Nat
  stamp : Nat
  flags : EFlags := {}
  origin : Nat := 0
  base  : Nat := 0
  eidx  : Nat := 0
  outs  : List Output := []
  draws : List (Nat × Bytes) := []
  wait  : Option WaitFor := none
  deriving DecidableEq, Repr

/-- Change the state of a commit. -/
def Com.upd (c : Com) (f : State → State) : Com := { c with s := f c.s }

/-- Change the context of a commit. -/
def Com.ctx (c : Com) (f : Ctx → Ctx) : Com := { c with s := { c.s with ctx := f c.s.ctx } }

/-- Hand over an output (R127, R445). -/
def Com.out (c : Com) (rtype : Nat) (bytes : Bytes) (dest : OutDest := .stream) : Com :=
  { c with outs := c.outs ++ [{ ojsn := c.ojsn, dep := c.dep, key := c.key, idx := c.base + c.outs.length, rtype := rtype, bytes := bytes, dest := dest }] }

/-- Hand over a record under this unit's TAG (R209). -/
def Com.sealed (c : Com) (rtype : Nat) (body : Bytes) : Com := c.out rtype (body ++ c.s.tag body)

/-- Raise an event of a deterministic class (R589, R592). -/
def Com.event (c : Com) (cls arg : Nat) (slot : Option Nat := none) (data : Bytes := []) : Com :=
  let body := eventBody cls arg c.s.cfg.sysaddr c.origin (subjWord slot c.eidx) c.stamp c.jsn c.flags.timeUnsure c.flags.regressed
    (!c.s.sealed) data
  { c.sealed 8 body with eidx := c.eidx + 1 }

/-- The slot a commit is about. -/
def Com.slot (c : Com) (i : Nat) : Slot := c.s.ctx.slot i

/-- Write a slot back under its lock bit (R129, R171). -/
def Com.setSlot (c : Com) (i : Nat) (x : Slot) : Com := c.upd fun s => s.lockedWrite i x

/-- Use the next draw the task has received, or wait for one (R43, R750). -/
def Com.useDraw (c : Com) (tag n : Nat) (f : Com → Bytes → Com) : Com :=
  match c.draws with
  | (j, d) :: r =>
    f { c with ojsn := max c.ojsn j, dep := max c.dep j, draws := r,
               outs := c.outs.map fun o => { o with ojsn := max o.ojsn j, dep := max o.dep j } } d
  | [] => { c with wait := some (.draw tag n) }

/-- Cells an output takes in the release queue: a header of 16 bytes and its bytes (R118). -/
def Output.cells (o : Output) : Nat := ceilDiv (16 + o.bytes.length) 64

/-- Cells in use of the release queue (R118, R449). -/
def State.cellsUsed (s : State) : Nat := (s.erg.outq.map Output.cells).foldl (· + ·) 0

/-- Whether a hand-over finds cells for its outputs (R118, R449). -/
def Com.roomForOuts (c : Com) : Bool := decide (c.s.cellsUsed + (c.outs.map Output.cells).foldl (· + ·) 0 ≤ 65536)

/-- The commit of a task is done: its outputs join the release queue (R118, R127). -/
def Com.finish (c : Com) : State := { c.s with erg := { c.s.erg with outq := c.s.erg.outq ++ c.outs } }

/-! ### What the grains and dunes show (R143) -/

/-- ERG_GSTATn. -/
def State.gstat (s : State) (g : Nat) : Nat :=
  let st := if (s.dune (duneOf g)).pwr ≠ .awake then 0
    else match (s.deque g).flatMap (fun q => q.tasks.filter fun t => t.phase ≠ .queued) with
      | [] => 1
      | ts => if ts.any (fun t => t.phase == .running) then 2 else if ts.any (fun t => t.phase == .waitCipher) then 3
              else if ts.any (fun t => t.phase == .waitDraw) then 4 else 6
  st + min 65535 (s.grainTasks g) * 256

/-- ERG_DSTATd. -/
def State.dstat (s : State) (d : Nat) : Nat :=
  (match (s.dune d).pwr with | .awake => 0 | .nap => 1 | .deep => 2 | .waking => 3) + min 65535 (s.dune d).wakes * 65536

end Sys2Proof.Machine
end

