-- ==== Sys2Proof/Machine/TariffOps.lean ====
section
/-! DEFINITION. Attribution to tariff bands and demand intervals (R225 to R239), the lateness of an input in JSN order
(R55), and the capture of a slot at a period fence (R243, R251, R252). -/
namespace Sys2Proof.Machine

/-- What attribution needs to know of the value's entry: its own stamp and flags, and the effective JSN (R125). -/
structure Ent where
  eff   : Nat
  stamp : Nat
  flags : EFlags
  deriving DecidableEq, Repr

/-- An entry whose stamp is not attributed to an instant (R59, R258). -/
def Ent.loose (e : Ent) : Bool := e.flags.timeUnsure || e.flags.regressed

/-- Whether a boundary entry journaled below the effective JSN lies strictly after an instant (R50, R55): the value is
late. A balance boundary is judged by R278 instead. -/
def Ctx.lateAt (c : Ctx) (e : Ent) (instant : Nat) : Bool :=
  !e.loose && c.fences.any fun f => decide (f.jsn < e.eff) && decide (instant < f.stamp) && !f.initial &&
    (f.kind == .bndDemand || f.kind == .bndTariff || f.kind == .bndPeriod)

/-- A class follows the calendar (R226). -/
def State.follows (s : State) (cls : Nat) : Bool :=
  match s.cfg.tariff with | some t => bit cls t.classMask | none => false

/-- Add to an accumulator of a slot, saturating (R228). DEDUCED: the addition is unsigned, so a negative value of R192 adds as its 32-bit VALUE field. -/
def Com.accAdd (c : Com) (i n : Nat) (e : Int) : Com :=
  let x := c.slot i
  let a := x.accAt n
  let v := (if e < 0 then e % 4294967296 else e).toNat
  let c1 := c.setSlot i { x with acc := setAt 0 x.acc n (satAdd 0xFFFFFFFF a v) }
  if 0xFFFFFFFF < a + v then
    (c1.upd fun s => (s.irq rBilIrq 2).count rBilSatcnt 1).event 0x0C n (some i)
  else c1

/-! ### Demand (R233 to R239) -/

/-- Demand in W of an interval's energy (R235). -/
def demandW (unit len energy : Nat) : Nat :=
  if len = 0 then 0 else if unit = 1 then energy * 60 / (len * 1000) else energy * 60 / len

/-- Whether the demand interval that ends at a device time is marked incomplete below a JSN (R237). -/
def Ctx.demandIncomplete (c : Ctx) (eff len endAt : Nat) : Bool :=
  let a := endAt - len * 60 * second
  c.marked (fun k => k == .outage || k == .openDemand) eff a endAt ||
    c.marks.any fun m => decide (m.jsn < eff) && m.kind == .firstStep && decide (m.a < a) && decide (a < m.b)

/-- Whether a demand interval is older than the 256 the CAL task keeps (R237, R238). -/
def Ctx.demandOld (c : Ctx) (eff endAt : Nat) : Bool :=
  decide (256 ≤ (c.fences.filter fun f => f.kind == .bndDemand && decide (f.jsn < eff) && decide (endAt < f.stamp)).length)

/-- Offer a demand candidate to MAXDEM (R234 to R238). -/
def Com.demandCandidate (c : Com) (i : Nat) (e : Ent) (unit endAt energy band : Nat) : Com :=
  let len := demLen c.s.cfg
  let x := c.slot i
  if e.loose || len = 0 || c.s.ctx.demandOld e.eff endAt then c
  else
    let inc := c.s.ctx.demandIncomplete e.eff len endAt
    let x1 : Slot := if inc then { x with incSeen := true } else x
    let incl := match c.s.cfg.tariff with | some t => t.inclInc | none => false
    let w := min (demandW unit len energy) 0xFFFFFF
    let x2 : Slot := if (!inc || incl) && decide (x.maxDem < w) then { x1 with maxDem := w, maxDemBand := band } else x1
    c.setSlot i x2

/-- A device time rounded down to a whole multiple of `m` minutes of local standard time (R230). -/
def floorStdDev (c : RunCfg) (m stamp : Nat) : Nat := floorStd c m (secOf stamp) * second

/-- The ends of a profile's entries in device time with the entries, oldest first (R230). -/
def profEnds (c : RunCfg) (step stamp : Nat) (prof : List Nat) : List (Nat × Nat) :=
  let tend := gridStart step (stdSec c (secOf stamp))
  prof.zipIdx.map fun p => (secOfStd c (tend - ((prof.length - 1 - p.2) * step * 60 : Nat)) * second, p.1)

/-- What attribution tells the record: band, season, whether the value moved under R50, R55 or R231. -/
structure Attrib where
  band   : Nat
  season : Nat
  late   : Bool
  byProf : Bool
  deriving DecidableEq, Repr

/-- The instant of the latest BND_PERIOD below a JSN. -/
def Ctx.lastPeriodStamp (c : Ctx) (eff : Nat) : Nat :=
  match (c.fences.filter fun f => f.kind == .bndPeriod && decide (f.jsn < eff)).getLast? with | some f => f.stamp | none => 0

/-- Attribute a value to bands and demand intervals (R225 to R239): `e` the applied and `v` the reported value, `prof` the
profile that passed R195 with its step, `cand` whether the whole value is a demand candidate (R234). -/
def Com.attribute (c : Com) (i : Nat) (t : Ent) (cls : Nat) (ce : ClassEnt) (e v : Int) (exp : Nat) (prof : Option (Nat × List Nat))
    (cand : Bool) : Attrib × Com :=
  let (b0, season) := c.s.bandNow t.eff
  let fol := c.s.follows cls
  let b := if fol then b0 else 0
  let late0 := c.s.ctx.lateAt t t.stamp
  let whole : Attrib × Com :=
    let c1 := c.accAdd i (2 * b) e
    let c2 := if cand then c1.demandCandidate i t ce.unit (floorStdDev c.s.cfg (demLen c.s.cfg) t.stamp) e.toNat b else c1
    ({ band := b, season := season, late := late0, byProf := false }, c2.accAdd i (2 * b + 1) exp)
  match prof with
  | none => whole
  | some (step, ps) =>
    if e = v ∧ t.loose = false then
      let ends := profEnds c.s.cfg step t.stamp ps
      let lp := c.s.ctx.lastPeriodStamp t.eff
      let c1 := ends.foldl (fun a p =>
        let bj := if fol then (calBand a.s.cfg (secOf p.1 - 1)).1 else 0
        let a1 := a.accAdd i (2 * bj) p.2
        if step = demLen a.s.cfg then a1.demandCandidate i t ce.unit p.1 p.2 bj else a1) c
      ({ band := b, season := season, late := late0 || (decide (0 < lp) && ends.any fun p => decide (p.1 ≤ lp)), byProf := true },
        c1.accAdd i (2 * b + 1) exp)
    else whole

/-! ### Period capture (R243, R251, R252) -/

/-- SIGKEY generation in force at a JSN: each KEY_ROLL is recorded with its JSN (R517). -/
def Ctx.sigGenAt (c : Ctx) (jsn : Nat) : Nat :=
  match (c.sigHist.filter fun p => decide (p.1 < jsn)).getLast? with | some p => p.2 | none => 0

/-- CFLAGS at capture (R252). -/
def cflags (role : Role) (x : Slot) : Nat :=
  flag 0 ((List.range 16).any fun n => x.accAt n == 0xFFFFFFFF) + flag 1 x.incSeen + flag 2 (x.state == .decom) +
  flag 3 (!x.li.valid && !x.li.estimated) + flag 4 x.keyExh + flag 5 x.unreach + flag 6 (role == .head)

/-- Bytes 0–127 of a slot's period-close record (R251). -/
def closeBody (cfg : RunCfg) (unit sigGen epoch stamp i : Nat) (x : Slot) : Bytes :=
  le 1 2 ++ le 1 1 ++ le 2 (cflags cfg.role x) ++ le 4 (cfg.sysaddr % 2 ^ 18 + x.cls % 16 * 2 ^ 18) ++ le 4 i ++ le 4 epoch ++
  be 8 x.eui ++ le 8 stamp ++ le 8 x.li.word ++ le 4 (x.next - 1).toNat ++ le 4 x.maxDemWord ++
  ((List.range 16).flatMap fun n => le 4 (x.accAt n)) ++ le 1 x.state.code ++ le 1 unit ++ le 1 (demLen cfg) ++ le 1 0 ++
  le 4 x.statusWord ++ le 4 sigGen ++ le 4 0

/-- Whether a slot is captured at a period fence (R243). -/
def State.captures (s : State) (x : Slot) : Bool :=
  let ce := s.classEnt x.cls
  (x.state ≠ .free && x.state ≠ .joining) && decide (1 ≤ ce.kind) && !ce.level

/-- Capture slot `i` for a period, or mark its stage entry NONE (R243, R244). -/
def Com.capture (c : Com) (i : Nat) (f : Fence) : Com :=
  let x := c.slot i
  if c.s.ctx.stage.any (fun g => g.epoch == f.subj && g.slot == i) then c
  else if c.s.captures x then
    let body := closeBody c.s.cfg (c.s.classEnt x.cls).unit (c.s.ctx.sigGenAt f.jsn) f.subj f.stamp i x
    (c.ctx fun k => { k with stage := k.stage ++ [{ epoch := f.subj, slot := i, body := some body }] }).setSlot i
      { x with acc := [], maxDem := 0, maxDemBand := 0, incSeen := false }
  else c.ctx fun k => { k with stage := k.stage ++ [{ epoch := f.subj, slot := i, body := none }] }

end Sys2Proof.Machine
end

