-- ==== Sys2Proof/Machine/BalanceOps.lean ====
section
/-! DEFINITION. Balance groups: grid intervals and cells (R270 to R272), contributions (R274 to R278), step tables (R284) and
the close of a cell (R280 to R290). -/
namespace Sys2Proof.Machine

/-- Sums of a group saturate at ±(2^63 − 1) (R264). -/
def sat63 (x : Int) : Int := max (-(2 ^ 63 - 1)) (min (2 ^ 63 - 1) x)

/-- The entry of a group that exists and is enabled (R261, R267). -/
def RunCfg.group (c : RunCfg) (g : Nat) : Option BalGroup :=
  match c.balance with
  | none => none
  | some b => match b.groups[g]? with | some e => if e.en then some e else none | none => none

/-- Factor from a class unit to the group unit; none for a unit not listed (R264). -/
def unitFactor (kind unit : Nat) : Option Nat :=
  if kind = 1 ∨ kind = 4 then (if unit = 0 then some 1000 else if unit = 1 then some 1 else none)
  else if kind = 2 ∨ kind = 3 then (if unit = 2 then some 1000 else if unit = 3 then some 1 else none)
  else none

/-- Start of a group's grid interval that contains a second of device time. -/
def cellOf (c : RunCfg) (e : BalGroup) (sec : Nat) : Int := gridStart e.len (stdSec c sec)

/-- Stamp of the latest BND_BALANCE of a group below a JSN. -/
def State.lastBalance (s : State) (g eff : Nat) : Option Nat :=
  match (s.ctx.fences.filter fun f => f.kind == .bndBalance && decide (f.jsn < eff) &&
      (f.subj == g || (f.subj == 0xFFFFFFFF && (groupsDue s.cfg (secOf f.stamp)).contains g))).getLast? with
  | some f => some f.stamp
  | none => none

/-- The instant in device time up to which the cells of a group are settled in JSN order: its latest BND_BALANCE, else where the unit's own time began
(R272, R280). -/
def State.balanceAt (s : State) (g eff : Nat) : Nat :=
  match s.lastBalance g eff with
  | some st => st
  | none => match s.ctx.began with | some b => b.stamp | none => 0

/-- Whether the interval from `t0` of a group is closed in JSN order, or older than every cell: its deadline lies at or below the group's latest BND_BALANCE,
or, before the first, where the unit's own time began (R271, R272, R277, R278). -/
def State.cellClosed (s : State) (e : BalGroup) (g eff : Nat) (t0 : Int) : Bool :=
  decide (t0 + (e.len * 60 : Nat) + (e.grace * 60 : Nat) ≤ stdSec s.cfg (secOf (s.balanceAt g eff)))

/-- The oldest open cell of a group: the first interval whose deadline lies above what is settled (R272, R278). -/
def State.oldestCell (s : State) (e : BalGroup) (g eff : Nat) : Int := gridStart e.len (stdSec s.cfg (secOf (s.balanceAt g eff)) - (e.grace * 60 : Nat))

/-- The newest open cell of a group, in JSN order: the interval that runs at its latest BND_BALANCE, or where the unit's own time began (R272, R277).
DESIGN CHOICE: an interval that begins after that instant opens in JSN order with the next BND_BALANCE, as R280 opens cells. -/
def State.newestCell (s : State) (e : BalGroup) (g eff : Nat) : Int := cellOf s.cfg e (secOf (s.balanceAt g eff))

/-- The aggregate state of a group. -/
def Ctx.group (c : Ctx) (g : Nat) : GroupAgg := (c.groups.find? fun a => a.group == g).getD { group := g }

/-- Write the aggregate state of a group, groups in rising order. -/
def Ctx.setGroup (c : Ctx) (a : GroupAgg) : Ctx :=
  { c with groups := (c.groups.filter fun x => decide (x.group < a.group)) ++ a :: c.groups.filter fun x => decide (a.group < x.group) }

/-- Change the cell at `t0` of a group, opening it first where it is not open (R272, R280). -/
def Com.cell (c : Com) (g : Nat) (t0 : Int) (f : Cell → Cell) : Com :=
  c.ctx fun k =>
    let a := k.group g
    let x := (a.cells.find? fun y => y.t0 == t0).getD { t0 := t0 }
    k.setGroup { a with cells := (a.cells.filter fun y => decide (y.t0 < t0)) ++ f x :: a.cells.filter fun y => decide (t0 < y.t0) }

/-- What a contribution says besides its amount (R274, R275): supply or member, phase 0–2 or 3 unknown. -/
structure Contrib where
  supply : Bool
  phase  : Nat
  cover  : Bool := true
  deriving DecidableEq, Repr

/-- Add to element `n` of three phase sums. -/
def phAdd (l : List Int) (n : Nat) (v : Int) : List Int := (List.range 3).map fun k => if k = n then sat63 (l.getD k 0 + v) else l.getD k 0

/-- Add a share to a cell (R264, R275, R277, R283). -/
def Cell.add (x : Cell) (k : Contrib) (v : Int) (o : Nat) : Cell :=
  let o := if k.cover then o else 0
  let n := satAdd 0xFFFFFFFF x.contrib 1
  if k.supply then
    { x with supply := sat63 (x.supply + v), phSup := if k.phase < 3 then phAdd x.phSup k.phase v else x.phSup,
             refCover := x.refCover + o, contrib := n }
  else
    { x with members := sat63 (x.members + v), phMem := if k.phase < 3 then phAdd x.phMem k.phase v else x.phMem,
             unkMem := if k.phase < 3 then x.unkMem else sat63 (x.unkMem + v), cover := x.cover + o, contrib := n }

/-- Add a late share to a cell (R278). -/
def Cell.late (x : Cell) (supply : Bool) (v : Int) : Cell :=
  if supply then { x with lateSup := sat63 (x.lateSup + v) } else { x with lateMem := sat63 (x.lateMem + v) }

/-- Add one share of a contribution: to its cell, or late (R277, R278). -/
def Com.share (c : Com) (e : BalGroup) (g eff : Nat) (k : Contrib) (t0 : Int) (v : Int) (o : Nat) : Com :=
  if c.s.cellClosed e g eff t0 then c.cell g (c.s.oldestCell e g eff) fun x => x.late k.supply v
  else c.cell g t0 fun x => x.add k v o

/-- The grid intervals from `t0` on, `n` of them, with their overlap in seconds with [a, b) (R277). -/
def overlaps (c : RunCfg) (len a b : Nat) : Nat → Int → List (Int × Nat)
  | 0, _ => []
  | n + 1, t0 =>
    let d0 := max a (secOfStd c t0)
    let d1 := min b (secOfStd c (t0 + (len * 60 : Nat)))
    if secOfStd c t0 < b then (t0, d1 - d0) :: overlaps c len a b n (t0 + (len * 60 : Nat)) else []

/-- Split a contribution over the grid intervals it overlaps (R277): import, export, span [a, b) in seconds; the division is toward zero, as in R281. -/
def Com.contribute (c : Com) (g : Nat) (k : Contrib) (imp exp : Int) (a b : Nat) (t : Ent) : Com :=
  match c.s.cfg.group g with
  | none => c
  | some e =>
    if t.loose then
      c.cell g (c.s.newestCell e g t.eff) fun x =>
        let y := x.add k (imp - exp) (b - a)
        { y with unsure := y.unsure || t.flags.timeUnsure, regressed := y.regressed || t.flags.regressed }
    else if b ≤ a then c.share e g t.eff k (cellOf c.s.cfg e (b - 1)) (imp - exp) 0
    else
      let parts := overlaps c.s.cfg e.len a b ((b - a) / (e.len * 60) + 2) (cellOf c.s.cfg e a)
      let last := cellOf c.s.cfg e (b - 1)
      (parts.foldl (fun (acc : Com × Int × Int) p =>
        let si := if p.1 = last then imp - acc.2.1 else (imp * (p.2 : Nat)).tdiv (b - a : Nat)
        let se := if p.1 = last then exp - acc.2.2 else (exp * (p.2 : Nat)).tdiv (b - a : Nat)
        (acc.1.share e g t.eff k p.1 (si - se) p.2, acc.2.1 + si, acc.2.2 + se)) (c, 0, 0)).1

/-- The phase of a slot's contributions (R275). -/
def Slot.balPhase (x : Slot) : Nat := if x.phaseUnk || x.medium == 0 then 3 else x.phase

/-- The role of a slot in its group: none, supply, or member (R262). -/
def Slot.balRole (x : Slot) : Option Bool := if x.ref then some true else if x.member then some false else none

/-- A slot that takes part: ACTIVE (R263); in the head role, where no join arrives, a rostered slot too (R291). DEDUCED. -/
def State.takesPart (s : State) (x : Slot) : Bool := x.state == .active || (s.cfg.role == .head && x.state == .rostered)

/-- Whether a slot's values count toward its group, with the factor to the group unit (R263, R264). -/
def State.balFactor (s : State) (x : Slot) (e : BalGroup) : Option Nat :=
  let ce := s.classEnt x.cls
  if s.takesPart x ∧ ce.kind = e.kind ∧ ce.level = false then unitFactor e.kind ce.unit else none

/-- Contribute a slot's value, or count it as skipped (R263, R274). -/
def Com.slotContrib (c : Com) (i : Nat) (imp : Int) (exp a b : Nat) (cover : Bool) (t : Ent) : Com :=
  let x := c.slot i
  match x.balRole, c.s.cfg.group x.group with
  | some sup, some e =>
    match c.s.balFactor x e with
    | some f => c.contribute x.group { supply := sup, phase := x.balPhase, cover := cover } (imp * f) (exp * f : Nat) a b t
    | none =>
      let t0 := if t.loose then c.s.newestCell e x.group t.eff else cellOf c.s.cfg e (b - 1)
      let t1 := if c.s.cellClosed e x.group t.eff t0 then c.s.oldestCell e x.group t.eff else t0
      c.cell x.group t1 fun y => { y with skipped := satAdd 65535 y.skipped 1 }
  | _, _ => c

/-- Note a READ record whose TAMPER is not 0 in the cell of its last second (R286 C). -/
def Com.tamperRead (c : Com) (i b : Nat) (t : Ent) : Com :=
  let x := c.slot i
  match x.balRole, c.s.cfg.group x.group with
  | some _, some e =>
    match c.s.balFactor x e with
    | some _ =>
      let t0 := cellOf c.s.cfg e (b - 1)
      if c.s.cellClosed e x.group t.eff t0 then c else c.cell x.group t0 fun y => { y with tampers := y.tampers + 1 }
    | none => c
  | _, _ => c

/-! ### Load steps (R284) -/

/-- Store an endpoint step in the cell of its instant (R188, R284). -/
def Com.endpointStep (c : Com) (i : Nat) (w : Int) (instant jsn : Nat) (t : Ent) : Com :=
  let x := c.slot i
  match x.balRole, c.s.cfg.group x.group with
  | some false, some e =>
    let t0 := cellOf c.s.cfg e (secOf instant)
    if !e.steps || (c.s.balFactor x e).isNone || c.s.cellClosed e x.group t.eff t0 then c
    else c.cell x.group t0 fun y =>
      if 256 ≤ y.esteps.length then { y with stepOvf := true }
      else { y with esteps := y.esteps ++ [{ phase := x.balPhase, w := w, instant := instant, slot := i, jsn := jsn }] }
  | _, _ => c

/-- The enabled groups of a configuration, as index and entry. -/
def RunCfg.groupsOn (c : RunCfg) : List (Nat × BalGroup) :=
  match c.balance with
  | none => []
  | some b => (b.groups.zipIdx.filter fun p => p.1.en).map fun p => (p.2, p.1)

/-- Store a feeder step in every group that takes its phase (R284). -/
def Com.feederStep (c : Com) (phase : Nat) (w : Int) (instant jsn eff : Nat) : Com :=
  (c.s.cfg.groupsOn.filter fun p => p.2.steps && bit phase p.2.feedPh).foldl (fun a p =>
    let t0 := cellOf a.s.cfg p.2 (secOf instant)
    if a.s.cellClosed p.2 p.1 eff t0 then a
    else a.cell p.1 t0 fun y =>
      if 64 ≤ y.fsteps.length then { y with stepOvf := true }
      else { y with fsteps := y.fsteps ++ [{ phase := phase, w := w, instant := instant, jsn := jsn }] }) c

/-- Note a feeder tamper on a phase in every group that takes it (R286 D). -/
def Com.feederTamper (c : Com) (hits : Nat → Bool) (instant eff : Nat) : Com :=
  (c.s.cfg.groupsOn.filter fun p => (List.range 3).any fun k => hits k && bit k p.2.feedPh).foldl (fun a p =>
    let t0 := cellOf a.s.cfg p.2 (secOf instant)
    if a.s.cellClosed p.2 p.1 eff t0 then a else a.cell p.1 t0 fun y => { y with feedTamper := true }) c

/-! ### The close (R280 to R290) -/

/-- Insert into a list ordered by `lt`. -/
def insertBy {α : Type} (lt : α → α → Bool) (x : α) : List α → List α
  | [] => [x]
  | y :: r => if lt x y then x :: y :: r else y :: insertBy lt x r

/-- Order a list by `lt`, keeping equal elements in their order. -/
def sortBy {α : Type} (lt : α → α → Bool) (l : List α) : List α := l.foldl (fun a x => insertBy lt x a) []

/-- Lexicographic order of two lists of numbers. -/
def lexLt : List Nat → List Nat → Bool
  | a :: r, b :: t => decide (a < b) || (a == b && lexLt r t)
  | _, _ => false

/-- Match steps greedily (R285): the feeder steps left unmatched, and the number of pairs. -/
def matchSteps (e : BalGroup) : List FStep → List EStep → List FStep × Nat
  | [], _ => ([], 0)
  | f :: r, es =>
    let dist (x : EStep) : Nat := ((x.instant : Int) - f.instant).natAbs
    let dw (x : EStep) : Nat := (x.w - f.w).natAbs
    let ok (x : EStep) : Bool := decide (x.w.sign = f.w.sign) && decide (dist x * 1000 ≤ e.matchMs * second) &&
      (x.phase == f.phase || x.phase == 3) && decide (dw x ≤ max e.tolW (f.w.natAbs * e.tolPct / 100))
    match sortBy (fun a b => lexLt [dist a, dw a, a.slot, a.jsn] [dist b, dw b, b.slot, b.jsn]) (es.filter ok) with
    | [] => let (u, n) := matchSteps e r es; (f :: u, n)
    | x :: _ => let (u, n) := matchSteps e r (es.erase x); (u, n + 1)

/-- Members and reference slots of a group as committed below a JSN (R280, R283). -/
def State.groupCounts (s : State) (g jsn : Nat) : Nat × Nat :=
  s.ctx.slots.foldl (fun a p =>
    let cur := p.2
    let (m, r) :=
      if jsn < cur.lastJsn then
        match s.ctx.snaps.find? fun x => x.fence == jsn && x.slot == p.1 && x.group == g with
        | some x => (x.counts, x.ref)
        | none => (false, false)
      else (s.takesPart cur && !cur.unreach && cur.member && !cur.ref && cur.group == g, cur.ref && cur.group == g)
    (a.1 + (if m then 1 else 0), a.2 + (if r then 1 else 0))) (0, 0)

/-- A signed ratio in millionths, clamped (R281). -/
def resPpm (residual supply : Int) : Int :=
  if 0 < supply then max (-(2 ^ 31 - 1)) (min (2 ^ 31 - 1) ((residual * 1000000).tdiv supply)) else 0

/-- Close one cell of a group at a BND_BALANCE entry: score it, which raises any event, emit the result, drop the cell (R280 to
R290). -/
def Com.closeCell (c : Com) (g : Nat) (e : BalGroup) (held : Bool) (t0 : Int) : Com :=
  let x := ((c.s.ctx.group g).cells.find? fun y => y.t0 == t0).getD { t0 := t0 }
  let run := (c.s.ctx.group g).run
  let (nm, nr) := c.s.groupCounts g c.jsn
  let secs := e.len * 60
  let loss : Int := e.fixedLoss + (max x.supply 0) * e.lossPpm / 1000000
  let residual := sat63 (x.supply - x.members - loss)
  let ppm := resPpm residual x.supply
  let phRes (p : Nat) : Int := sat63 (x.phSup.getD p 0 - x.phMem.getD p 0 -
    ((e.fixedLoss / 3 : Nat) + (max (x.phSup.getD p 0) 0) * e.lossPpm / 1000000))
  let cover := if nm = 0 then 1000000 else min 1000000 (x.cover * 1000000 / (nm * secs))
  let srcs := nr + (if e.feederRef then ((List.range 3).filter fun k => bit k e.feedPh).length else 0) +
    (match c.s.cfg.balance with | some b => (b.frefs.filter fun f => f.head == g).length | none => 0)
  let refc := if srcs = 0 then 0 else min 1000000 ((x.refCover + x.feedCover / second) * 1000000 / (srcs * secs))
  let refInc := decide (refc < 1000000)
  let incomplete := decide (cover < e.coverMin) || refInc
  let fs := sortBy (fun a b => lexLt [a.instant, a.phase, a.jsn] [b.instant, b.phase, b.jsn]) x.fsteps
  let (un, matched) := if e.steps then matchSteps e fs x.esteps else ([], 0)
  let unW : Int := (un.map fun f => f.w).foldl (· + ·) 0
  let pA := if incomplete || decide (ppm ≤ (e.tolPpm : Int)) then 0 else min 128 ((ppm - e.tolPpm) / 1000).toNat
  let pB := min 64 (16 * (un.filter fun f => decide (0 < f.w)).length)
  let pC := min 32 (8 * x.tampers)
  let pD := if x.feedTamper then 31 else 0
  let score := min 255 (pA + pB + pC + pD)
  let run1 := if incomplete then run else if e.alarm ≤ score then min 15 (run + 1) else 0
  let alarm := decide (e.consec ≤ run1) && decide (0 < e.consec)
  let start := secOfStd c.s.cfg t0 * second
  let stop := secOfStd c.s.cfg (t0 + (secs : Nat)) * second
  let outage := c.s.ctx.marked (fun k => k == .outage) c.jsn start stop
  let tstep := c.s.ctx.stepped c.jsn start
  let fl := flag 0 incomplete + flag 1 refInc + flag 2 outage + flag 3 x.unsure + flag 4 x.regressed + flag 5 tstep + flag 6 held +
    flag 7 (nm == 0) + flag 8 x.stepOvf + flag 9 e.phase + flag 10 alarm + flag 11 (x.lateSup ≠ 0 || x.lateMem ≠ 0) +
    flag 12 (c.s.cfg.role == .head)
  let phs : Bytes := (List.range 3).flatMap fun p => leI 8 (if e.phase then phRes p else 0)
  let body := le 1 4 ++ le 1 1 ++ le 2 fl ++ le 4 (c.s.cfg.sysaddr % 2 ^ 18) ++ le 2 g ++ le 1 e.kind ++
    le 1 (if e.kind = 1 ∨ e.kind = 4 then 1 else 3) ++ le 2 e.len ++ le 1 score ++ le 1 run1 ++ le 8 start ++ le 8 c.stamp ++ le 8 c.jsn ++
    leI 8 x.supply ++ leI 8 x.members ++ leI 8 loss ++ leI 8 residual ++ phs ++ leI 8 x.unkMem ++ leI 8 x.lateSup ++ leI 8 x.lateMem ++
    le 4 cover ++ le 4 refc ++ le 4 nm ++ le 4 x.contrib ++ le 2 x.skipped ++ le 1 fs.length ++ le 1 un.length ++ le 2 x.esteps.length ++
    le 2 matched ++ leI 4 unW ++ leI 4 ppm ++ List.replicate 32 0
  let c1 := c.ctx fun k =>
    let a := k.group g
    k.setGroup { a with cells := a.cells.filter fun y => y.t0 ≠ t0, run := run1 }
  (if alarm then c1.event 0x0E (g % 4096 + score * 65536) else c1).sealed 4 body

/-- The cells a BND_BALANCE of a group closes, oldest first: the interval it is the deadline of, and every interval still open whose deadline lies at or
below its own instant, those that received nothing too (R271, R272, R290). -/
def State.cellsToClose (s : State) (e : BalGroup) (g eff stamp : Nat) : List Int :=
  let due := gridStart e.len (stdSec s.cfg (secOf stamp) - (e.grace * 60 : Nat)) - (e.len * 60 : Nat)
  let old := s.oldestCell e g eff
  if due < old then (if (s.lastBalance g eff).isSome then [] else [due])
  else (List.range (((due - old) / (e.len * 60 : Nat)).toNat + 1)).map fun n => old + (n * (e.len * 60) : Nat)

/-- A group's balance close (R280). -/
def Com.balanceClose (c : Com) (g : Nat) (held : Bool) : Com :=
  match c.s.cfg.group g with
  | none => c
  | some e =>
    let c1 := (c.s.cellsToClose e g c.jsn c.stamp).foldl (fun a t0 => a.closeCell g e held t0) c
    c1.ctx fun k => { k with snaps := k.snaps.filter fun x => !(x.fence == c.jsn && x.group == g) }

end Sys2Proof.Machine
end

