-- ==== Sys2Proof/Machine/Frames.lean ====
section
/-! DEFINITION. Jafin MAC frames of the radio (R335 to R343) and the power line (R394 to R396): their fields, the
construction of a DOWN frame, and opening a sequenced frame under a slot's keys (R340 to R342, R433, R523). -/
namespace Sys2Proof.Machine

/-- A MAC frame: its bytes without the FCS and the offset of its body. -/
structure Frame where
  bytes : Bytes
  body  : Nat
  plc   : Bool
  deriving DecidableEq, Repr

/-- FC of a frame (R335). -/
def Frame.fc (f : Frame) : Nat := Machine.fld 0 2 f.bytes
/-- FTYPE (R336, R395). -/
def Frame.ftype (f : Frame) : Nat := bits 3 0 f.fc
/-- FC.SEC. -/
def Frame.sec (f : Frame) : Bool := bit 4 f.fc
/-- FC.ACKREQ. -/
def Frame.ackreq (f : Frame) : Bool := bit 5 f.fc
/-- FC.MORE. -/
def Frame.more (f : Frame) : Bool := bit 6 f.fc
/-- FC.VER. -/
def Frame.ver (f : Frame) : Nat := bits 9 8 f.fc
/-- FC.SYNC; always 0 on the power line (R394). -/
def Frame.sync (f : Frame) : Bool := bit 10 f.fc && !f.plc
/-- DST. -/
def Frame.dst (f : Frame) : Nat := Machine.fld 2 3 f.bytes
/-- SRC. -/
def Frame.src (f : Frame) : Nat := Machine.fld 5 3 f.bytes
/-- SEQ of DATA, JOIN and ACK frames: the first field of the body. -/
def Frame.seq (f : Frame) : BitVec 32 := BitVec.ofNat 32 (Machine.fld f.body 4 f.bytes)
/-- Offset of the application payload of a DATA frame (R336). -/
def Frame.payloadAt (f : Frame) : Nat := f.body + 4 + (if f.sync then 12 else 0)
/-- A DATA frame. -/
def Frame.isData (f : Frame) : Bool := f.ftype == 2
/-- A JOIN frame. -/
def Frame.isJoin (f : Frame) : Bool := f.ftype == 4
/-- EUI64 of a JOIN body. -/
def Frame.joinEui (f : Frame) : Nat := fldB (f.body + 4) 8 f.bytes
/-- CLASS of a JOIN body. -/
def Frame.joinClass (f : Frame) : Nat := Machine.fld (f.body + 12) 1 f.bytes % 16
/-- S of a JOIN body. -/
def Frame.joinS (f : Frame) : Nat := Machine.fld (f.body + 14) 2 f.bytes
/-- VERD of an ACK body (R343). -/
def Frame.verdict (f : Frame) : Nat := bits 2 0 (Machine.fld (f.body + 4) 1 f.bytes)
/-- Relays of a power-line frame's ROUTE (R394). -/
def Frame.relays (f : Frame) : List Nat :=
  if f.plc && bit 11 f.fc then (List.range (bits 2 0 (Machine.fld 15 1 f.bytes))).map fun k => Machine.fld (16 + 3 * k) 3 f.bytes else []

/-- A radio frame. -/
def radioFrame (b : Bytes) : Frame := { bytes := b, body := 8, plc := false }

/-- A power-line frame: its body follows HOP and ROUTE (R394). -/
def plcFrame (b : Bytes) : Frame :=
  { bytes := b, plc := true,
    body := if bit 11 (Machine.fld 0 2 b) then 16 + 3 * bits 2 0 (Machine.fld 15 1 b) else 15 }

/-- The frame of a RAD_FRAME or PLC_FRAME entry: its payload after the 4-byte descriptor (R30). -/
def Entry.frame (e : Entry) : Frame := if e.kind = .plcFrame then plcFrame (e.payload.drop 4) else radioFrame (e.payload.drop 4)

/-- The receive descriptor of an entry (R353, R410). -/
def Entry.desc (e : Entry) : Nat := Machine.fld 0 4 e.payload

/-- NOTICE of the descriptor (R361). -/
def Entry.isNotice (e : Entry) : Bool := bit 27 e.desc

/-- Whether an entry is a sequenced frame (R126, R339). -/
def Entry.sequenced (e : Entry) : Bool :=
  (e.kind == .radFrame || e.kind == .plcFrame) && e.cls == .normal && !e.isNotice && (e.frame.isData || e.frame.isJoin)

/-! ### Keys of a slot -/

/-- Additional authenticated data of a frame whose encrypted payload starts at an offset (R342, R396). -/
def Frame.aad (f : Frame) (at_ : Nat) : Bytes :=
  if f.plc then f.bytes.take 8 ++ (f.bytes.take at_).drop f.body else f.bytes.take at_

/-- Open a frame under one key (R340 to R342). -/
def Frame.openWith (f : Frame) (eui key : Nat) : Option Bytes :=
  if f.isJoin then
    Config.ccmOpen key (ccmNonce f.joinEui f.seq.toNat 2) (f.aad (f.body + 16)) (f.bytes.drop (f.body + 16))
  else Config.ccmOpen key (ccmNonce eui f.seq.toNat 0) (f.aad f.payloadAt) (f.bytes.drop f.payloadAt)

/-- The candidate key of a slot, wrapped under JKEK (R433). -/
def Ctx.cand (c : Ctx) (i : Nat) : Option Bytes := (c.cands.find? fun p => p.1 == i).map (·.2)

/-- The key a wrapped value under JKEK holds. -/
def State.jkey (s : State) (b : Bytes) : Nat := beVal (s.unwrapJ b)

/-- What the MIC check of a frame came to. -/
inductive Mic where
  | pass (plain : Bytes)
  | cand (plain : Bytes)
  | fail (unwrap : Bool)
  deriving DecidableEq, Repr

/-- The MIC check of a sequenced frame of slot `i` (R187, R433, R523 to R525). -/
def State.micCheck (s : State) (i : Nat) (f : Frame) : Mic :=
  let x := s.slot i
  if f.isJoin && x.state == .joining then
    match f.openWith x.eui (joinKey s.sys x.cls x.eui) with | some p => .pass p | none => .fail false
  else
    match s.slotKey x with
    | none => .fail true
    | some k =>
      match f.openWith x.eui k with
      | some p => .pass p
      | none =>
        match s.ctx.cand i with
        | some w =>
          match f.openWith x.eui (s.jkey w) with
          | some p => .cand p
          | none => .fail false
        | none => .fail false

/-! ### DOWN frames (R336, R418, R427) -/

/-- A DOWN frame from FC to MIC: FTYPE 6 with SEC and VER 0b01, on the power line with RT set, DCNT, then the sealed payload (R335, R340 to
R342, R394, R396). -/
def downFrame (ackreq rt : Bool) (dst dcnt eui key : Nat) (plain : Bytes) : Bytes :=
  let head := le 2 (6 + 16 + flag 5 ackreq + 256 + flag 11 rt) ++ le 3 dst ++ le 3 0 ++ le 4 dcnt
  head ++ Config.ccmSeal key (ccmNonce eui dcnt 1) head plain

end Sys2Proof.Machine
end

