-- ==== Sys2Proof/Machine/PushOps.lean ====
section
/-! DEFINITION. The push queue of a slot (R424 to R435): making a push current, building its DOWN, retries, completion,
rekeying and the automatic rekey. -/
namespace Sys2Proof.Machine

/-- The pushes of a slot in queue order. -/
def Ctx.pushesOf (k : Ctx) (i : Nat) : List Push := k.pushes.filter fun p => p.slot == i

/-- The current push of a slot. -/
def Ctx.current (k : Ctx) (i : Nat) : Option Push := k.pushes.find? fun p => p.slot == i && p.state == .current

/-- Change the current push of a slot. -/
def Ctx.setCurrent (k : Ctx) (i : Nat) (f : Push → Push) : Ctx :=
  { k with pushes := k.pushes.map fun p => if p.slot == i && p.state == .current then f p else p }

/-- Show the current push in the slot's PUSH field (R426). -/
def Com.showPush (c : Com) (i : Nat) : Com :=
  let x := c.slot i
  match c.s.ctx.current i with
  | some p => c.setSlot i { x with pushId := p.id, pushKind := p.dtype % 16, pushAtt := p.attempts % 8, pushActive := true }
  | none => c.setSlot i { x with pushId := 0, pushKind := 0, pushAtt := 0, pushActive := false }

/-- The push result record up to its TAG (R435). -/
def pushResult (cfg : RunCfg) (x : Slot) (p : Push) (status stamp : Nat) (trial : Bool) : Bytes :=
  le 1 5 ++ le 1 1 ++ le 1 status ++ le 1 p.attempts ++ le 4 (cfg.sysaddr % 2 ^ 18 + x.cls % 16 * 2 ^ 18) ++ le 4 p.slot ++ le 2 p.id ++
  le 1 p.dtype ++ le 1 (flag 0 trial + flag 1 p.auto) ++ be 8 x.eui ++ le 8 p.cmdStamp ++ le 8 stamp ++ le 8 p.cmdJsn ++ le 4 p.dcnt ++ le 4 0

/-- Install the candidate key in WKEY (R433). -/
def Com.install (c : Com) (i : Nat) : Com :=
  match c.s.ctx.cand i with
  | none => c
  | some w =>
    let x := c.slot i
    (c.setSlot i { x with wkey := c.s.wrapS (c.s.jkey w), keyUse := 0, rekey := false, keyExh := false }).ctx fun k =>
      { k with cands := k.cands.filter fun p => p.1 ≠ i }

/-- The slot's candidate key becomes a newly drawn one (R433). -/
def Com.setCand (c : Com) (i : Nat) (w : Bytes) : Com :=
  (c.ctx fun k => { k with cands := (k.cands.filter fun p => p.1 ≠ i) ++ [(i, w)] }).setSlot i { c.slot i with rekey := true }

/-- The payload of a push's DOWN, with the fields the unit fills itself (R418, R419, R420). -/
def State.downPayload (s : State) (p : Push) (slotKey : Nat) : Bytes :=
  let img := s.ctx.images.find? fun m => m.image == Machine.fld 0 2 p.body
  let body :=
    if p.dtype = 4 then (match s.ctx.cand p.slot with | some w => fit 16 (s.unwrapJ w) | none => List.replicate 16 0)
    else if p.dtype = 5 then
      (match img with
      | some m => le 2 m.image ++ le 2 m.blocks ++ le 4 m.length ++ fit 32 m.digest ++ fit 24 (Config.kwWrap slotKey (s.unwrapJ m.key)) ++ le 4 0
      | none => p.body)
    else p.body
  le 1 p.dtype ++ le 1 1 ++ le 2 p.id ++ body

/-- SLOT_LIMIT in force, as KEY_SLOTLIM shows it (R520, R556). -/
def State.slotLimit (s : State) : Nat := s.reg rKeySlotlim

/-- The ring of a slot's DOWN frames: Q2 for radio, Q4 for power line or both (R427). -/
def Slot.downRing (x : Slot) : Nat := if x.medium = 0 then 2 else 4

/-- What became of an attempt to send the current push. -/
inductive SendRes where
  | sent
  | exhausted
  | badKey
  deriving DecidableEq, Repr

/-- Build and hand over the DOWN of the current push, one more attempt (R427, R430, R434). -/
def Com.sendCurrent (c : Com) (i : Nat) : SendRes × Com :=
  match c.s.ctx.current i with
  | none => (.sent, c)
  | some p =>
    let x := c.slot i
    let cnt := x.keyUse + 1
    if c.s.slotLimit + (if p.dtype = 4 then 8 else 0) < cnt then (.exhausted, c.upd fun s => (s.count rCphExhcnt 1).irq rCphIrq 0)
    else match c.s.slotKey x with
      | none => (.badKey, c.upd fun s => s.irq rCphIrq 2)
      | some k =>
        let frame := downFrame true (x.downRing == 4) x.short cnt x.eui k (c.s.downPayload p k)
        let c1 := (c.setSlot i { x with keyUse := cnt }).ctx fun q =>
          q.setCurrent i fun y => { y with attempts := y.attempts + 1, dcnt := cnt, displaced := false }
        (.sent, c1.out x.downRing (le 4 i ++ le 4 p.id ++ frame) .down)

/-- The current push leaves the queue with its result record (R431). -/
def Com.pushDone (c : Com) (i status : Nat) (trial : Bool := false) : Com :=
  match c.s.ctx.current i with
  | none => c
  | some p =>
    let c1 := c.sealed 5 (pushResult c.s.cfg (c.slot i) p status c.stamp trial)
    let c2 := c1.ctx fun k => { k with pushes := k.pushes.filter fun q => !(q.slot == i && q.state == .current) }
    let c3 := if p.dtype = 4 ∧ status ≠ 0 then
        c2.setSlot i { c2.slot i with rekey := (c2.s.ctx.pushesOf i).any fun q => q.dtype == 4 }
      else c2
    c3.showPush i

/-- Make the first push of the queue that passes a test current. -/
def Com.makeCurrent (c : Com) (i : Nat) (p : Push → Bool) : Com :=
  match (c.s.ctx.pushesOf i).find? p with
  | none => c
  | some q => c.ctx fun k => { k with pushes := k.pushes.map fun y => if y = q then { y with state := .current } else y }

/-- The current push is displaced: it returns to the front of the queue with the attempts it made (R434). -/
def Com.displace (c : Com) (i : Nat) : Com :=
  c.ctx fun k =>
    match k.current i with
    | none => k
    | some p =>
      let rest := k.pushes.filter fun q => !(q.slot == i && q.state == .current)
      { k with pushes := { p with state := .waiting, displaced := true } :: rest }

/-- Enter the automatic REKEY of R434 with a drawn key. -/
def Com.autoRekey (c : Com) (i : Nat) (w : Bytes) : Com :=
  (c.setCand i w).ctx fun k =>
    { k with pushes := k.pushes ++ [{ slot := i, id := 0xFFFF, maxAtt := 7, dtype := 4, body := List.replicate 16 0, cmdJsn := c.jsn,
                                       cmdStamp := c.stamp, auto := true, state := .current }] }

/-- The current push leaves the queue: a REKEY that is done installs its key, and the push it displaced becomes current, or fails with it (R431, R433,
R434). -/
def Com.closePush (c : Com) (i status : Nat) (trial : Bool) : Com :=
  match c.s.ctx.current i with
  | none => c
  | some p =>
    let c1 := if p.dtype = 4 ∧ status = 0 then c.install i else c
    let c2 := c1.pushDone i status trial
    let disp := p.dtype == 4 && (match (c2.s.ctx.pushesOf i).head? with | some q => q.displaced | none => false)
    let c3 := if disp then c2.makeCurrent i fun q => q.displaced else c2
    if disp && status ≠ 0 then c3.pushDone i 1 else c3

/-- Send the current push, or make the next one current and send it, through the refusals of R434; `n` bounds how many
pushes one commit can pass. -/
def Com.runPushes : Nat → Com → Nat → Com
  | 0, c, _ => c
  | n + 1, c, i =>
    match c.s.ctx.current i with
    | none => if (c.s.ctx.pushesOf i).isEmpty then c.showPush i else Com.runPushes n (c.makeCurrent i fun _ => true) i
    | some p =>
      match c.sendCurrent i with
      | (.sent, c1) => c1.showPush i
      | (.badKey, c1) => Com.runPushes n ((c1.event 0x18 0 (some i)).closePush i 1 false) i
      | (.exhausted, c1) =>
        let c2 := c1.setSlot i { c1.slot i with keyExh := true }
        if p.dtype = 4 then Com.runPushes n (c2.closePush i 1 false) i
        else if (c2.slot i).rekey && (c2.s.ctx.pushesOf i).any (fun q => q.dtype == 4 && q.state == .waiting) then
          Com.runPushes n ((c2.displace i).makeCurrent i fun q => q.dtype == 4) i
        else c2.useDraw (0xC2000000 + i) 24 fun c3 w => Com.runPushes n ((c3.displace i).autoRekey i w) i

/-- Enough rounds for one commit's pushes. -/
def pushFuel (c : Com) (i : Nat) : Nat := 4 * (c.s.ctx.pushesOf i).length + 8

/-- The current push completes, and the slot's next one becomes current in the same commit (R431). -/
def Com.completePush (c : Com) (i status : Nat) (trial : Bool := false) : Com :=
  match c.s.ctx.current i with
  | none => c
  | some _ => Com.runPushes (pushFuel (c.closePush i status trial) i) (c.closePush i status trial) i

/-- A failed attempt of the current push (R430). -/
def Com.failAttempt (c : Com) (i : Nat) : Com :=
  match c.s.ctx.current i with
  | none => c
  | some p => if p.attempts < p.maxAtt then Com.runPushes (pushFuel c i) c i else c.completePush i 1

/-- An endpoint ACK reaches the slot's gate (R429). -/
def Com.pushAck (c : Com) (i : Nat) (seq verdict : Nat) : Com :=
  match c.s.ctx.current i with
  | none => c
  | some p =>
    if p.attempts = 0 ∨ seq ≠ p.dcnt then c
    else if verdict = 0 ∨ verdict = 1 then c.completePush i 0
    else if verdict = 2 then (if p.dtype = 7 then c.completePush i 4 else c.failAttempt i)
    else c

/-- A NOTICE about a DOWN reaches the slot's gate (R429). -/
def Com.pushNotice (c : Com) (i nkind id : Nat) : Com :=
  match c.s.ctx.current i with
  | none => c
  | some p =>
    if nkind = 3 ∧ id = p.id then c.failAttempt i
    else if nkind = 5 then c.failAttempt i
    else if nkind = 4 ∧ id = p.id then c.completePush i 2
    else c

/-- Every push of a slot completes CANCELLED (R429). -/
def Com.cancelPushes : Nat → Com → Nat → Com
  | 0, c, i => c.showPush i
  | n + 1, c, i =>
    match c.s.ctx.pushesOf i with
    | [] => c.showPush i
    | _ =>
      let c1 := match c.s.ctx.current i with | some _ => c | none => c.makeCurrent i fun _ => true
      Com.cancelPushes n (c1.pushDone i 3) i

/-- Length of a DOWN payload of each DTYPE that a PUSH may carry (R419); none for FW_BLOCK and reserved values. -/
def downLen (dtype : Nat) : Option Nat :=
  match dtype with
  | 1 => some 42 | 2 => some 16 | 3 => some 20 | 4 => some 20 | 5 => some 72 | 7 => some 8 | 8 => some 16 | _ => none

/-- Whether a push's fields lie in the ranges of R419. -/
def downBodyOk (dtype : Nat) (b : Bytes) : Bool :=
  let f (o n : Nat) : Nat := Machine.fld (o - 4) n b
  match dtype with
  | 1 => decide (f 16 1 ≤ 7) && decide (f 17 1 ≤ 12) &&
      (List.range 12).all fun k =>
        let w := f (18 + 2 * k) 2
        if k < f 17 1 then decide (1 ≤ bits 10 0 w) && decide (bits 10 0 w ≤ 1439) && !bit 11 w && !bit 15 w else w == 0
  | 2 => decide (f 4 1 ≤ 2) && f 5 3 == 0
  | 3 => decide (f 4 1 ≤ 3) && f 5 3 == 0 && (f 4 1 == 3 || f 16 4 == 0)
  | 5 => f 68 4 == 0
  | 7 => f 6 2 == 0
  | 8 => f 6 2 == 0
  | _ => true

/-- The PUSH command at its commit (R424, R425, R427, R433); its body is PUSH, MAX_ATT, DTYPE and the payload from offset 4. -/
def Com.cmdPush (c : Com) (i : Nat) (body : Bytes) : Nat × Com :=
  let id := Machine.fld 0 2 body
  let att := Machine.fld 2 1 body
  let dt := Machine.fld 3 1 body
  let pb := body.drop 4
  let x := c.slot i
  let imgOk := c.s.ctx.images.any fun m => m.image == Machine.fld 0 2 pb && m.state == .ready
  if id = 0 ∨ 0xF000 ≤ id then (13, c)
  else if x.state ≠ .active then (10, c)
  else if downLen dt ≠ some (pb.length + 4) ∨ att = 0 ∨ 7 < att ∨ downBodyOk dt pb = false ∨ ((dt = 5 ∨ dt = 7 ∨ dt = 8) ∧ imgOk = false) then (2, c)
  else if 4 ≤ (c.s.ctx.pushesOf i).length then (11, c)
  else if 8192 ≤ c.s.ctx.pushes.length then (12, c)
  else
    let p : Push := { slot := i, id := id, maxAtt := att, dtype := dt, body := pb, cmdJsn := c.jsn, cmdStamp := c.stamp }
    let enter (a : Com) : Com :=
      let a1 := a.ctx fun k => { k with pushes := k.pushes ++ [p] }
      match a.s.ctx.pushesOf i with | [] => Com.runPushes (pushFuel a1 i) a1 i | _ => a1
    if dt = 4 then (0, c.useDraw (0xC2000000 + i) 24 fun a w => enter (a.setCand i w)) else (0, enter c)

end Sys2Proof.Machine
end

