-- ==== Sys2Proof/Machine/Validate.lean ====
section
/-! DEFINITION. Validation, estimation and editing (chapter 05): payload decoding (R184 to R186), the checks of an index
(R192 to R196), missing intervals (R198 to R202), reading records (R204, R208), mirage comparison and retraction (R136, R457). -/
namespace Sys2Proof.Machine

/-! ### Payloads (R184 to R186) -/

/-- A decoded application payload (R185). -/
inductive Payload where
  | index (x : Nat) (step : Nat) (prof : List Nat)
  | bidir (x exp : Nat)
  | level (v : Int)
  | status (alarms : Nat)
  | step (w : Int) (offMs : Nat)
  | bad
  deriving DecidableEq, Repr

/-- Decode a payload for a class (R185, R186, R197). -/
def decodePayload (level : Bool) (p : Bytes) : Payload :=
  let n := p.length
  let f (o k : Nat) : Nat := fld o k p
  if p = [] ∨ f 1 1 ≠ 1 then .bad
  else match f 0 1 with
  | 1 =>
    let pn := f 10 1
    if n < 12 ∨ 12 < pn ∨ n ≠ 12 + 2 * pn ∨ (0 < pn ∧ (f 11 1 = 0 ∨ 60 < f 11 1)) ∨ level then .bad
    else .index (f 4 6) (f 11 1) ((List.range pn).map fun k => f (12 + 2 * k) 2)
  | 2 => if n ≠ 14 ∨ level then .bad else .bidir (f 4 6) (f 10 4)
  | 3 => if n ≠ 10 ∨ level = false then .bad else .level (fldI 4 4 p)
  | 4 => if n ≠ 6 then .bad else .status (f 4 2)
  | 5 => if n ≠ 12 then .bad else .step (fldI 4 4 p) (f 8 2)
  | _ => .bad

/-! ### Record flags (R204) -/

/-- The RFLAGS bits that a check sets. -/
structure RFlags where
  suspect  : Bool := false
  clamped  : Bool := false
  held     : Bool := false
  rollover : Bool := false
  base     : Bool := false
  reversal : Bool := false
  rangeBad : Bool := false
  profBad  : Bool := false
  decBad   : Bool := false
  deriving DecidableEq, Repr

/-- RFLAGS as their field (R204). -/
def RFlags.word (r : RFlags) (est late : Bool) (f : EFlags) : Nat :=
  flag 1 est + flag 2 (late || f.late) + flag 3 f.regressed + flag 4 f.timeUnsure + flag 5 r.suspect + flag 6 r.clamped + flag 7 r.held +
  flag 8 r.rollover + flag 9 r.base + flag 10 r.reversal + flag 11 r.rangeBad + flag 12 r.profBad + flag 13 r.decBad

/-- A record that is no demand candidate and contributes no import (R234, R274). -/
def RFlags.noValue (r : RFlags) : Bool := r.held || r.base || r.reversal || r.rangeBad || r.decBad

/-! ### The checks (R192 to R194) -/

/-- What validate answers: the applied value, the reported value, flags, LAST_INDEX and whether the slot was rebased. -/
structure Checked where
  e      : Int
  v      : Int
  flags  : RFlags := {}
  li     : LastIndex
  rebase : Bool := false
  deriving DecidableEq, Repr

/-- set_base (R192). -/
def setBase (x : Nat) : LastIndex := { index := x % 2 ^ 48, valid := true, estimated := false, rollover := false }

/-- Add to an index: modulo MODULUS, or as a plain sum of 48 bits when MODULUS is 0 (R192). -/
def addIndex (modulus idx : Nat) (e : Int) : Nat := (((idx : Int) + e) % (if modulus = 0 then 2 ^ 48 else (modulus : Int))).toNat

/-- validate of R192: class entry, LAST_INDEX, reported index and number of intervals. The value of a rollover is negative where the stored index lies a
MODULUS or more above the reported one. -/
def validate (c : ClassEnt) (li : LastIndex) (x k : Nat) : Checked :=
  if !li.valid && !li.estimated then { e := 0, v := 0, flags := { base := true }, li := setBase x }
  else if 0 < c.modulus ∧ c.modulus ≤ x then { e := 0, v := 0, flags := { held := true, rangeBad := true }, li := li }
  else
    let roll := decide (x < li.index) && decide (0 < c.modulus) && decide (c.modulus / 2 < li.index - x)
    if x < li.index ∧ roll = false then
      if li.valid then { e := 0, v := 0, flags := { held := true, reversal := true }, li := { li with valid := false, estimated := true } }
      else { e := 0, v := 0, flags := { base := true, reversal := true }, li := setBase x, rebase := true }
    else
      let v : Int := if li.index ≤ x then (x : Int) - li.index else (x : Int) + c.modulus - li.index
      let li1 : LastIndex := { li with valid := true }
      let lo : Int := (c.minStep * k : Nat)
      let hi : Int := (c.maxStep * k : Nat)
      let fl : RFlags := { rollover := roll }
      let apply (e : Int) (f : RFlags) : Checked :=
        { e := e, v := v, flags := f, li := { index := addIndex c.modulus li.index e, valid := true, estimated := e ≠ v, rollover := roll } }
      if v < lo then
        if 2 ≤ c.low then { e := 0, v := v, flags := { fl with held := true }, li := li1 } else apply v { fl with suspect := true }
      else if hi < v then
        if c.high = 0 then apply v { fl with suspect := true }
        else if c.high = 1 then apply hi { fl with clamped := true }
        else { e := 0, v := v, flags := { fl with held := true }, li := li1 }
      else apply v fl

/-! ### Reading records (R208) -/

/-- A reading record up to its TAG (R208). -/
def readingBody (cfg : RunCfg) (kind rflags i : Nat) (x : Slot) (seq : BitVec 32) (stamp index unit : Nat) (value : Int) (exp epoch : Nat)
    (band season tamper epstat : Nat) : Bytes :=
  le 1 1 ++ le 1 kind ++ le 2 rflags ++ le 4 (cfg.sysaddr % 2 ^ 18 + x.cls % 16 * 2 ^ 18) ++ le 4 i ++ le 4 seq.toNat ++ be 8 x.eui ++
  le 8 stamp ++ le 8 (index % 2 ^ 48 + unit % 16 * 2 ^ 48) ++ leI 4 value ++ le 4 exp ++ le 4 epoch ++ le 1 (band % 8 + season % 4 * 8) ++
  le 1 tamper ++ le 1 epstat ++ le 1 0

/-- A record without its PROVISIONAL flag and its TAG (R136). -/
def recordKey (b : Bytes) : Bytes := b.take 2 ++ le 1 (fld 2 1 b / 2 * 2) ++ (b.take 56).drop 3

/-- The retraction of a mirage record (R457). -/
def retraction (m : Bytes) : Bytes := le 1 7 ++ le 1 1 ++ le 2 0 ++ (m.drop 4).take 12 ++ (m.drop 56).take 8

/-- Emit a retraction (R136). -/
def Com.retract (c : Com) (mirage : Option Bytes) : Com :=
  match mirage with
  | none => c
  | some m => (c.upd fun s => s.count rErgRetcnt 1).sealed 7 (retraction m)

/-- Emit the final record of a frame, after the retraction of a mirage it differs from (R136). -/
def Com.reading (c : Com) (mirage : Option Bytes) (body : Bytes) : Com :=
  match mirage with
  | none => c.sealed 1 body
  | some m => if recordKey m = recordKey body then c.sealed 1 body else (c.retract mirage).sealed 1 body

/-- The span of a record in whole seconds: it ends at its stamp and lasts the sampling interval (R276). -/
def spanOf (x : Slot) (stamp : Nat) : Nat × Nat := (secOf stamp - x.wakeS, secOf stamp)

/-- Whether a slot's class has an index chain that can be estimated (R190, R197). -/
def State.hasIndex (s : State) (x : Slot) : Bool := let ce := s.classEnt x.cls; decide (1 ≤ ce.kind) && !ce.level

/-! ### Missing intervals (R198 to R202) -/

/-- Missing sequences not yet bracketed: how many, and the newest 64 of them in rising order (R199). -/
structure Missing where
  n    : Nat := 0
  seqs : List (BitVec 32) := []
  deriving DecidableEq, Repr

/-- Add `n` missing sequences that end just below `s`. -/
def Missing.below (m : Missing) (n : Nat) (s : BitVec 32) : Missing :=
  let k := min n 64
  let new := (List.range k).map fun j => s - BitVec.ofNat 32 (k - j)
  let all := m.seqs ++ new
  { n := m.n + n, seqs := all.drop (all.length - 64) }

/-- Seal the EST records below a bracketing frame (R198, R199, R201, R204, R232): each value and its running index. DESIGN CHOICE: where validate ended the
bracketing frame with held, base or range_bad, these records carry ESTIMATED only, since R204 gives HELD to a value that was itself held at 0; they cover
their seconds with 0. -/
def Com.estimates (c : Com) (i : Nat) (t : Ent) (seq : BitVec 32) (modulus : Nat) : List (BitVec 32 × Int) → Nat → Com
  | [], _ => c
  | (sq, v) :: r, idx =>
    let x := c.slot i
    let idx1 := addIndex modulus idx v
    let st := t.stamp - (seq - sq).toNat * x.wakeS * second
    let ce := c.s.classEnt x.cls
    let t1 : Ent := { t with stamp := st }
    let (a, c1) := c.attribute i t1 x.cls ce v v 0 none false
    let (sa, sb) := spanOf x st
    let body := readingBody c.s.cfg 1 (RFlags.word {} true a.late t.flags) i x sq st idx1 ce.unit v 0 (c.s.ctx.periodAt t.eff) a.band a.season 0 0
    Com.estimates ((c1.sealed 1 body).slotContrib i v 0 sa sb true t1) i t seq modulus r idx1

/-- Seal the EST records of missing sequences that no index frame brackets (R200). -/
def Com.unbracketed (c : Com) (i : Nat) (t : Ent) (m : Missing) : Com :=
  if c.s.hasIndex (c.slot i) then
    m.seqs.foldl (fun a sq =>
      let x := a.slot i
      let ce := a.s.classEnt x.cls
      let (at_, a1) := a.attribute i t x.cls ce 0 0 0 none false
      let (sa, sb) := spanOf x t.stamp
      let body := readingBody a.s.cfg 1 (RFlags.word { held := true } true at_.late t.flags) i x sq t.stamp x.li.index ce.unit 0 0
        (a.s.ctx.periodAt t.eff) at_.band at_.season 0 0
      (a1.sealed 1 body).slotContrib i 0 0 sa sb false t) c
  else c

/-- The profile check of R195. -/
def profileOk (ce : ClassEnt) (x : Slot) (k : Nat) (v : Int) (step : Nat) (prof : List Nat) (f : RFlags) : Bool :=
  decide (k = 1) && !f.base && !f.held && !f.reversal && decide (((prof.foldl (· + ·) 0 : Nat) : Int) = v) && decide (prof.length * step * 60 = x.wakeS) &&
  (decide (ce.profMax = 0) || prof.all fun p => decide (p ≤ ce.profMax))

/-- An index frame applied in order (R192 to R198, R230, R234, R274): the EST records of its bracket, then its READ record. DESIGN CHOICE: the record of a
first reversal carries ESTIMATED, since LAST_INDEX.ESTIMATED is 1 after it (R194, R204). DEDUCED: the split of a value divides toward zero, as R281 does. -/
def Com.indexFrame (c : Com) (i : Nat) (t : Ent) (seq : BitVec 32) (mirage : Option Bytes) (x exp0 step : Nat) (prof : List Nat)
    (bidir : Bool) (m : Missing) (tamper epstat : Nat) : Com :=
  let sl := c.slot i
  let ce := c.s.classEnt sl.cls
  let k := m.n + 1
  let ck := validate ce sl.li x k
  let q := ck.e.tdiv k
  let vals := m.seqs.zipIdx.map fun p => (p.1, if p.2 = 0 ∧ 64 < m.n then q * (k - 64 : Nat) else q)
  let c0 := if ck.rebase then c.event 0x08 seq.toNat (some i) else c
  let c1 := (c0.setSlot i { sl with li := ck.li }).estimates i t seq ce.modulus vals sl.li.index
  let value := ck.e - (k - 1 : Nat) * q
  let exp := if bidir && ce.bidir then min exp0 (ce.maxStep * k) else 0
  let f1 : RFlags := if bidir && ce.bidir && decide (ce.maxStep * k < exp0) then { ck.flags with clamped := true } else ck.flags
  let useProf := ce.profile && !prof.isEmpty
  let ok := useProf && profileOk ce sl k ck.v step prof f1
  let f2 : RFlags := if useProf && !ok then { f1 with profBad := true } else f1
  let reported := if k = 1 then ck.v else value
  let cand := decide (ce.kind = 1) && decide (k = 1) && !f2.noValue && decide (0 < demLen c.s.cfg) && decide (sl.wakeS = demLen c.s.cfg * 60)
  let (a, c2) := c1.attribute i t sl.cls ce value reported exp (if ok then some (step, prof) else none) cand
  let body := readingBody c.s.cfg 0 (f2.word ck.li.estimated a.late t.flags) i sl seq t.stamp x ce.unit value exp
    (c.s.ctx.periodAt t.eff) a.band a.season tamper epstat
  let c3 := c2.reading mirage body
  let (sa, sb) := spanOf sl t.stamp
  let c4 := if f2.noValue then c3.slotContrib i 0 exp sa sb false t
    else if a.byProf then
      let c5 := (profEnds c.s.cfg step t.stamp prof).foldl (fun y p => y.slotContrib i p.2 0 (secOf p.1 - step * 60) (secOf p.1) true t) c3
      c5.slotContrib i 0 exp sa sb true t
    else c3.slotContrib i value exp sa sb true t
  if tamper ≠ 0 then c4.tamperRead i sb t else c4

end Sys2Proof.Machine
end

