-- ==== Sys2Proof/Machine/SlotCommit.lean ====
section
/-! DEFINITION. The commit gate of an endpoint slot (R125 to R137): applying frames in sequence order, parking and mirage
records, late frames, gaps and fences, joins (R155, R156), NOTICE and ACK entries (R361 to R363, R429). -/
namespace Sys2Proof.Machine

/-- The radio class entry of a class (R378). -/
def State.radClass (s : State) (cls : Nat) : RadClass := s.cfg.radio.getD cls {}

/-- learn of R358: the slot with its drift estimate updated from a SYNC block. -/
def driftLearn (x : Slot) (rc : RadClass) (full : Bool) (prevPt curPt ticks : Nat) : Slot :=
  let e := (BitVec.ofNat 32 curPt - BitVec.ofNat 32 prevPt).toNat
  let delta : Int := (BitVec.ofNat 32 ticks - BitVec.ofNat 32 e).toInt
  if e < 60 * 8192 ∨ 2 ^ 31 ≤ e ∨ e < delta.natAbs * 1000 then x
  else
    let m : Int := (delta * 64000000).tdiv e
    let em := (128000000 + e - 1) / e
    let clampD (v : Int) : Int := max (-32768) (min 32767 v)
    if full ∨ rc.uInit ≤ x.driftUnc then { x with drift := clampD m, driftUnc := min 65535 (max rc.uMin (rc.uInit / 2 + em)) }
    else
      let dv := m - x.drift
      { x with drift := clampD (x.drift + dv.tdiv 4), driftUnc := min 65535 (max rc.uMin (x.driftUnc / 2 + dv.natAbs + em)) }

/-- What the commit of an accepted frame writes to LINK, WAKE and FLAGS, and the drift it learns (R358, R359, R405, R412). -/
def Com.linkUpdate (c : Com) (i : Nat) (e : Entry) : Com :=
  let f := e.frame
  let d := e.desc
  let x := c.slot i
  let x1 : Slot := if f.isData then { x with quality := bits 15 8 d, unPolls := 0, unTrains := 0, unreach := false } else x
  let full := !f.plc && bit 29 d && f.isData
  let x2 : Slot := if full then { x1 with driftLoss := satAdd 255 x1.driftLoss 1 } else x1
  let x3 : Slot := if f.isData && f.sync then
      driftLearn x2 (c.s.radClass x.cls) full (fld (f.body + 4) 4 f.bytes) (fld (f.body + 8) 4 f.bytes) (fld (f.body + 12) 4 f.bytes)
    else x2
  let ph := bits 17 16 d
  let x4 : Slot := if f.plc then
      let rn := f.relays.length
      { x3 with parentV := decide (0 < rn), parent := (match f.relays with | a :: _ => a - 1 | [] => x3.parent), hops := rn,
                quality := bits 15 8 d, phase := ph, phaseUnk := ph == 3 }
    else x3
  let c1 := c.setSlot i x4
  let c2 := if full then c1.event 0x11 x4.driftLoss (some i) else c1
  if f.plc && decide (x.phase ≠ 3) && decide (ph ≠ 3) && decide (x.phase ≠ ph) && !x.phaseUnk then c2.event 0x13 (x.phase + ph * 4) (some i) else c2

/-- A frame fails its MIC check under every key (R187, R525). -/
def Com.micFail (c : Com) (i seq : Nat) (unwrap : Bool) : Com :=
  let c1 := if unwrap then (c.upd fun s => s.irq rCphIrq 2).event 0x18 0 (some i) else c
  c1.event 0x06 seq (some i)

/-- A frame passed under the candidate key: it is installed, and a current REKEY completes (R433). -/
def Com.candPassed (c : Com) (i : Nat) : Com :=
  match c.s.ctx.current i with
  | some p => if p.dtype = 4 then c.completePush i 0 true else c.install i
  | none => c.install i

/-- The entry as attribution sees it, under the effective JSN (R125). -/
def entOf (e : Entry) (eff : Nat) : Ent := { eff := eff, stamp := e.stamp, flags := e.flags }

/-- A load step goes to the slot's balance group (R188, R284). -/
def Com.stepFrame (c : Com) (i : Nat) (e : Entry) (eff : Nat) (w : Int) (off : Nat) : Com :=
  c.endpointStep i w (e.stamp - msU off) e.jsn (entOf e eff)

/-- A READ or LATE record without an interval value: a failed decoding or a level (R186, R197, R202). -/
def Com.plainRecord (c : Com) (i : Nat) (e : Entry) (eff kind : Nat) (mirage : Option Bytes) (fl : RFlags) (index : Nat) (value : Int)
    (tamper epstat : Nat) : Com :=
  let x := c.slot i
  let ce := c.s.classEnt x.cls
  let t := entOf e eff
  let (b, season) := c.s.bandNow eff
  let band := if c.s.follows x.cls && !ce.level then b else 0
  let late := kind == 2 || c.s.ctx.lateAt t e.stamp
  let body := readingBody c.s.cfg kind (fl.word x.li.estimated late e.flags) i x e.frame.seq e.stamp index ce.unit value 0
    (c.s.ctx.periodAt eff) band (if ce.level then 0 else season) tamper epstat
  let c1 := c.reading mirage body
  if kind = 2 then c1
  else
    let (sa, sb) := spanOf x e.stamp
    let c2 := c1.slotContrib i 0 0 sa sb false t
    if tamper ≠ 0 then c2.tamperRead i sb t else c2

/-- A DATA frame applied in its turn: the commit, and the missing sequences that still wait for a bracket. -/
def Com.applyData (c : Com) (i : Nat) (e : Entry) (eff : Nat) (mirage : Option Bytes) (m : Missing) : Com × Missing :=
  let f := e.frame
  let seq := f.seq
  match c.s.micCheck i f with
  | .fail u => ((c.micFail i seq.toNat u).retract mirage, m)
  | r =>
    let plain := match r with | .pass p => p | .cand p => p | .fail _ => []
    let c1 := (match r with | .cand _ => c.candPassed i | _ => c).linkUpdate i e
    let x0 := c1.slot i
    let c2 := if 4 ≤ plain.length then c1.setSlot i { x0 with tamper := fld 2 1 plain, epstat := fld 3 1 plain } else c1
    let tm := if 4 ≤ plain.length then fld 2 1 plain else 0
    let ep := if 4 ≤ plain.length then fld 3 1 plain else 0
    let x := c2.slot i
    let ce := c2.s.classEnt x.cls
    if ce.kind = 0 then ((c2.event 0x09 x.cls (some i)).retract mirage, m)
    else match decodePayload ce.level plain with
      | .index v step prof => (c2.indexFrame i (entOf e eff) seq mirage v 0 step prof false m tm ep, {})
      | .bidir v exp => (c2.indexFrame i (entOf e eff) seq mirage v exp 0 [] true m tm ep, {})
      | .level v =>
        (c2.plainRecord i e eff 0 mirage { suspect := decide (v < ce.levelMin) || decide (ce.levelMax < v) } 0 v tm ep, m)
      | .status a => ((c2.event 0x07 a (some i)).retract mirage, m)
      | .step w off => ((c2.stepFrame i e eff w off).retract mirage, m)
      | .bad =>
        ((c2.plainRecord i e eff 0 mirage { held := true, decBad := true } (if ce.level then 0 else x.li.index) 0 tm ep).event 0x05
          seq.toNat (some i), m)

/-- A frame that fills an abandoned gap: a LATE record and no interval value for DATA (R48, R184, R188, R202); a JOIN that comes too late joins nothing,
and its MIC is checked like any (R156). DESIGN CHOICE: a payload that fails decoding gives a LATE record with HELD, DECODE_BAD and LAST_INDEX's index, where
R186 asks for a READ record and R202 for a LATE one. -/
def Com.applyLate (c : Com) (i : Nat) (e : Entry) : Com :=
  let f := e.frame
  let seq := f.seq
  if !f.isData then
    (match c.s.micCheck i f with
    | .fail u => c.micFail i seq.toNat u
    | .pass _ => c.linkUpdate i e
    | .cand _ => (c.candPassed i).linkUpdate i e)
  else match c.s.micCheck i f with
  | .fail u => c.micFail i seq.toNat u
  | r =>
    let plain := match r with | .pass p => p | .cand p => p | .fail _ => []
    let c1 := (match r with | .cand _ => c.candPassed i | _ => c).linkUpdate i e
    let tm := if 4 ≤ plain.length then fld 2 1 plain else 0
    let ep := if 4 ≤ plain.length then fld 3 1 plain else 0
    let x := c1.slot i
    let ce := c1.s.classEnt x.cls
    if ce.kind = 0 then c1.event 0x09 x.cls (some i)
    else match decodePayload ce.level plain with
      | .index v _ _ => c1.plainRecord i e c.jsn 2 none {} v 0 tm ep
      | .bidir v _ => c1.plainRecord i e c.jsn 2 none {} v 0 tm ep
      | .level _ => c1.plainRecord i e c.jsn 2 none {} 0 0 tm ep
      | .status a => c1.event 0x07 a (some i)
      | .step w off => c1.stepFrame i e c.jsn w off
      | .bad => (c1.plainRecord i e c.jsn 2 none { held := true, decBad := true } (if ce.level then 0 else x.li.index) 0 tm ep).event 0x05
          seq.toNat (some i)

/-! ### Joins (R155, R156, R169, R358, R523) -/

/-- What a join commit writes besides the gate: the state, the drift estimate, S and the base guard (R358, R523). -/
def Com.joinWrites (c : Com) (i : Nat) (f : Frame) : Com :=
  let x := c.slot i
  let rc := c.s.radClass x.cls
  let wk := if x.state = .joining then c.s.wrapS (joinKey c.s.sys x.cls x.eui) else x.wkey
  c.setSlot i { x with state := .active, drift := 0, driftUnc := rc.uInit, wakeS := f.joinS, guard := rc.guardMs, wkey := wk }

/-- A JOIN of an active slot, taken in its turn at the gate (R161). -/
def Com.applyJoin (c : Com) (i : Nat) (e : Entry) (mirage : Option Bytes) : Com :=
  let c0 := c.retract mirage
  match c0.s.micCheck i e.frame with
  | .fail u => c0.micFail i e.frame.seq.toNat u
  | .pass _ => (c0.linkUpdate i e).joinWrites i e.frame
  | .cand _ => ((c0.candPassed i).linkUpdate i e).joinWrites i e.frame

/-- A JOIN of a JOINING or ROSTERED slot (R155, R156). -/
def Com.joinDirect (c : Com) (i : Nat) (e : Entry) : Com :=
  let f := e.frame
  let x := c.slot i
  let done (a : Com) : Com :=
    let a1 := (a.linkUpdate i e).joinWrites i f
    a1.setSlot i { a1.slot i with next := f.seq + 1, parks := [] }
  match c.s.micCheck i f with
  | .fail u =>
    let c1 := if x.state = .joining then (c.upd fun s => s.idxDrop i).setSlot i {} else c.setSlot i { x with lastSeq := 0, dupwin := 0 }
    c1.micFail i f.seq.toNat u
  | .pass _ => done c
  | .cand _ => done (c.candPassed i)

/-! ### The gate (R126) -/

/-- One frame in its turn. -/
def Com.applyFrame (c : Com) (i : Nat) (e : Entry) (eff : Nat) (mirage : Option Bytes) (m : Missing) : Com × Missing :=
  if e.frame.isJoin then (c.applyJoin i e mirage, m) else c.applyData i e eff mirage m

/-- Sequences from `a` up to but not including `b`. -/
def seqGap (a b : BitVec 32) : Nat := (b - a).toNat

/-- Apply frames in sequence order from `next` on, estimating what is missing between them (R126, R198). -/
def Com.runFrames (c : Com) (i eff : Nat) : BitVec 32 → List (BitVec 32 × Entry × Option Bytes) → Missing → Com × Missing
  | _, [], m => (c, m)
  | next, (s, e, mir) :: r, m =>
    let g := seqGap next s
    let (c1, m1) := c.applyFrame i e eff mir (if g = 0 then m else m.below g s)
    Com.runFrames c1 i eff (s + 1) r m1

/-- Parked frames in sequence order from `next` on. -/
def Slot.parksFrom (x : Slot) (next : BitVec 32) : List Park :=
  sortBy (fun a b => decide ((a.seq - next).toNat < (b.seq - next).toNat)) x.parks

/-- Parked frames as items of runFrames. -/
def parkItems (ps : List Park) : List (BitVec 32 × Entry × Option Bytes) := ps.map fun p => (p.seq, p.entry, p.mirage)

/-- The parked frames that follow one another from `next` on, and the rest (drain, R126). -/
def drainable : BitVec 32 → List Park → List Park × List Park
  | _, [] => ([], [])
  | next, p :: r => if p.seq = next then let (a, b) := drainable (next + 1) r; (p :: a, b) else ([], p :: r)

/-- The mirage record of a frame that parks: its reading on a copy of the slot, marked PROVISIONAL (R133, R134). -/
def Com.mirageOf (c : Com) (i : Nat) (e : Entry) : Option Bytes :=
  let x := c.slot i
  let below := (x.parksFrom x.next).filter fun p => decide (seqGap x.next p.seq < seqGap x.next e.frame.seq)
  let (_, m) := (c.runFrames i c.jsn x.next (parkItems below) {})
  let (c1, _) := c.runFrames i c.jsn x.next (parkItems below) {}
  let last := match below.getLast? with | some p => p.seq + 1 | none => x.next
  let g := seqGap last e.frame.seq
  let (c2, _) := ({ c1 with outs := [] } : Com).applyFrame i e c.jsn none (if g = 0 then m else m.below g e.frame.seq)
  match (c2.outs.filter fun o => o.rtype == 1 && fld 1 1 o.bytes == 0).getLast? with
  | none => none
  | some o =>
    let b := o.bytes.take 56
    let body := b.take 2 ++ le 2 (fld 2 2 b + 1) ++ b.drop 4
    some (body ++ c.s.tag body)

/-- The park records of every slot: the entry's JSN, with slot and sequence (R130). -/
def Ctx.parkRecs (k : Ctx) : List ParkRec := k.slots.flatMap fun p => p.2.parks.map fun q => { slot := p.1, seq := q.seq, jsn := q.entry.jsn }

/-- The park records in the park table: those not spilled (R130). -/
def State.parkTable (s : State) : List ParkRec := s.ctx.parkRecs.filter fun r => !s.erg.spilled.contains r

/-- A full park table makes room: its oldest record goes to the journal region of the media (R130). DESIGN CHOICE: one record at a time. -/
def State.spillPark (s : State) : State :=
  if 65536 ≤ s.parkTable.length then
    match (sortBy (fun (a b : ParkRec) => decide (a.jsn < b.jsn)) s.parkTable).head? with
    | some r => (({ s with erg := { s.erg with spilled := s.erg.spilled ++ [r] } } : State).irq rErgIrq 1).count rErgSpillcnt 1
    | none => s
  else s

/-- A spilled park record as its 16 bytes on Q13 (R130, R570). DESIGN CHOICE: the layout, which no rule gives. -/
def ParkRec.words (r : ParkRec) : List Word := toWs (le 4 r.slot ++ le 4 r.seq.toNat ++ le 8 r.jsn)

/-- A spilled park record comes back through Q13 as its frame is released (R130): Sabkha queues it, and the sequencer takes it for the grain. -/
def State.readBack (s : State) (r : ParkRec) : State :=
  let s1 : State := { s with erg := { s.erg with spilled := s.erg.spilled.filter fun x => x ≠ r } }
  if s.ringOpens 13 then ((s1.ringPacket 13 2 r.words).ringTake 13).2 else s1

/-- The spilled records of a slot whose frames have left the gate are read back (R130). -/
def State.releaseParks (s : State) (i : Nat) : State :=
  (s.erg.spilled.filter fun r => r.slot == i && !((s.slot i).parks.any fun p => p.seq == r.seq && p.entry.jsn == r.jsn)).foldl State.readBack s

/-- Park a frame, with its mirage record when one is due (R130, R133). -/
def Com.park (c : Com) (i : Nat) (e : Entry) : Com :=
  let x := c.slot i
  let maxN := atLeast1 (c.s.fld rErgMirage 4 0)
  let mir := if c.s.bitOf rErgCtl 1 && decide (x.parks.length < maxN) then c.mirageOf i e else none
  let c1 := (c.upd State.spillPark).setSlot i { x with parks := x.parks ++ [{ seq := e.frame.seq, entry := e, mirage := mir }] }
  match mir with
  | some b => (c1.upd fun s => s.count rErgMircnt 1).out 1 b
  | none => c1

/-- Frames that were parked and now follow one another from `next` on are applied (drain, R126). -/
def Com.drain (c : Com) (i : Nat) (next : BitVec 32) : Com :=
  let (now, rest) := drainable next ((c.slot i).parksFrom (c.slot i).next)
  let (c1, _) := c.runFrames i c.jsn next (parkItems now) {}
  c1.setSlot i { c1.slot i with next := next + BitVec.ofNat 32 now.length, parks := rest }

/-- Orphan traffic (R163): the event and the count. -/
def Com.orphanFrame (c : Com) (i : Nat) (e : Entry) : Com := (c.upd fun s => s.count rArbOrphcnt 1).event 0x01 e.frame.src (some i)

/-- A sequenced frame reaches the gate as orphan traffic (R163): it gives its event and takes its place in the sequence, and no field changes but the
gate entry. The expected frame moves the gate on, and what it releases applies, since the gate reached that while the slot was live; one 32 or more beyond
abandons the gap without estimates for it. DEDUCED: a frame between parks nothing, since it has been processed. -/
def Com.orphanAtGate (c : Com) (i : Nat) (e : Entry) : Com :=
  let c0 := c.orphanFrame i e
  let x := c0.slot i
  let s := e.frame.seq
  let d := serialDiff s x.next
  if d = 0 then c0.drain i (s + 1)
  else if d < 0 ∨ d ≤ 31 then c0
  else
    let (c1, m) := c0.runFrames i c0.jsn x.next (parkItems (x.parksFrom x.next)) {}
    let c2 := c1.unbracketed i (entOf e c.jsn) m
    c2.setSlot i { c2.slot i with next := s + 1, parks := [] }

/-- A sequenced frame reaches the gate of an ACTIVE slot (R126). -/
def Com.gate (c : Com) (i : Nat) (e : Entry) : Com :=
  let x := c.slot i
  let s := e.frame.seq
  let d := serialDiff s x.next
  if d = 0 then
    let (now, rest) := drainable (s + 1) (x.parksFrom x.next)
    let (c1, _) := c.runFrames i c.jsn s ((s, e, none) :: parkItems now) {}
    c1.setSlot i { c1.slot i with next := s + 1 + BitVec.ofNat 32 now.length, parks := rest }
  else if d < 0 then c.applyLate i e
  else if d ≤ 31 then c.park i e
  else
    let (c1, m) := c.runFrames i c.jsn x.next (parkItems (x.parksFrom x.next) ++ [(s, e, none)]) {}
    let c2 := c1.unbracketed i (entOf e c.jsn) m
    c2.setSlot i { c2.slot i with next := s + 1, parks := [] }

/-! ### Fences (R131, R243) -/

/-- A period fence abandons an open gap up to the highest parked frame (R131). -/
def Com.abandon (c : Com) (i : Nat) (f : Fence) : Com :=
  let x := c.slot i
  match (x.parksFrom x.next).getLast? with
  | none => c
  | some p =>
    let (c1, m) := c.runFrames i f.jsn x.next (parkItems (x.parksFrom x.next)) {}
    let c2 := c1.unbracketed i { eff := f.jsn, stamp := f.stamp, flags := { held := f.held } } m
    c2.setSlot i { c2.slot i with next := p.seq + 1, parks := [] }

/-- Note the membership of a slot as it meets a BND_BALANCE (R131, R280). -/
def Com.snapshot (c : Com) (i : Nat) (f : Fence) : Com :=
  let x := c.slot i
  if (x.member ∨ x.ref) ∧ (f.subj = x.group ∨ f.subj = 0xFFFFFFFF) then
    c.ctx fun k => { k with snaps := k.snaps ++ [{ fence := f.jsn, slot := i, group := x.group,
                                                    counts := c.s.takesPart x && x.member && !x.ref && !x.unreach, ref := x.ref }] }
  else c

/-- One fence acts on a slot. -/
def Com.fence (c : Com) (i : Nat) (f : Fence) : Com :=
  match f.kind with
  | .bndPeriod => (c.abandon i f).capture i f
  | .bndBalance => c.snapshot i f
  | _ => c

/-- apply_fences: every fence above the slot's last JSN and below `jsn`, in JSN order (R131). -/
def Com.applyFences (c : Com) (i jsn : Nat) : Com :=
  let fs := c.s.ctx.fences.filter fun f => f.bnd && decide ((c.slot i).lastJsn < f.jsn) && decide (f.jsn < jsn)
  fs.foldl (fun a f =>
    let a1 := a.fence i f
    a1.setSlot i { a1.slot i with lastJsn := f.jsn }) c

/-! ### A slot's entries other than sequenced frames -/

/-- A NOTICE of the MAC commits (R361 to R363, R429). -/
def Com.notice (c : Com) (i : Nat) (e : Entry) : Com :=
  let f := e.frame
  let kind := fld f.body 1 f.bytes
  let id := fld (f.body + 2) 2 f.bytes
  let x := c.slot i
  match kind with
  | 1 => c.setSlot i { x with unPolls := satAdd 7 x.unPolls 1 }
  | 2 =>
    let n := satAdd 7 x.unTrains 1
    if n = 7 ∧ x.unTrains < 7 then (c.setSlot i { x with unTrains := 7, unreach := true }).event 0x12 0 (some i)
    else c.setSlot i { x with unTrains := n }
  | _ => c.pushNotice i kind id

/-- A frame entry of a slot commits (R126, R163). -/
def Com.frameEntry (c : Com) (i : Nat) (e : Entry) : Com :=
  let f := e.frame
  let x := c.slot i
  let gone := x.state == .free || x.state == .decom
  if e.isNotice then (if gone then c.orphanFrame i e else c.notice i e)
  else if f.ftype = 3 then
    if gone then c.orphanFrame i e else (if f.plc then c.linkUpdate i e else c).pushAck i f.seq.toNat f.verdict
  else if f.isData || f.isJoin then
    if gone || (f.isData && x.state == .rostered) then c.orphanAtGate i e
    else if f.isJoin && (x.state == .joining || x.state == .rostered) then c.joinDirect i e
    else c.gate i e
  else c

/-! ### Reception seen by a unit that did not receive (R160, R169, R354) -/

/-- dup_check of R168: accepted or duplicate, and the slot's window. -/
def dupCheck (x : Slot) (s : BitVec 32) : Bool × Slot :=
  let d := serialDiff s x.lastSeq
  if 0 < d then
    (true, { x with lastSeq := s, dupwin := if d ≤ 32 then (x.dupwin <<< d.toNat) ||| (1#32 <<< (d.toNat - 1)) else 0 })
  else if d = 0 then (false, x)
  else if -32 ≤ d then
    let k := (-d - 1).toNat
    if x.dupwin.getLsbD k then (false, x) else (true, { x with dupwin := x.dupwin ||| (1#32 <<< k) })
  else (false, x)

/-- A first join (R169). -/
def isFirstJoin (x : Slot) (f : Frame) : Bool := f.isJoin && x.state == .rostered && x.dupwin == 0

/-- The slot as the MAC path leaves it when it allocates it to a join (R151, R160, R169): LAST_SEQ and DUPWIN, STATE, SHORT, CLASS and EUI64, and nothing
else. -/
def joinSlot (x : Slot) (i : Nat) (f : Frame) : Slot :=
  { x with state := .joining, short := i + 1, cls := f.joinClass, eui := f.joinEui, lastSeq := f.seq, dupwin := 0xFFFFFFFF#32 }

/-- FREE slots of the join pool: ARB_FREE (R160, R161). -/
def State.poolFree (s : State) : Nat :=
  let a := s.fld rArbPoolLo 16 0
  let b := s.fld rArbPoolHi 16 0
  (b + 1 - a) - (s.ctx.slots.filter fun p => decide (a ≤ p.1) && decide (p.1 ≤ b) && decide (p.2.state ≠ .free)).length

/-- The join pool changed from holding a FREE slot to holding none (R161). -/
def State.poolNote (s0 s : State) : State := if 0 < s0.poolFree ∧ s.poolFree = 0 then s.irq rArbIrq 0 else s

/-- The poll table entry of a slot (R356). -/
def State.poll (s : State) (i : Nat) : PollEnt := sget (fun _ => {}) s.rad.polls i

/-- Write the poll table entry of a slot. -/
def State.setPoll (s : State) (i : Nat) (p : PollEnt) : State := { s with rad := { s.rad with polls := sput (fun _ => {}) s.rad.polls i p } }

/-- The instant nearest below a device time, in units of 2^-13 s, that reads as a PT (R337, R356). -/
def ptBelow (dev pt : Nat) : Nat := let n := dev / 32768; n - (n + 4294967296 - pt % 4294967296) % 4294967296

/-- Allocate a FREE slot to a join (R160): the slot's bytes and the index. -/
def State.allocJoin (s : State) (i : Nat) (f : Frame) : State := s.poolNote ((s.lockedWrite i (joinSlot (s.slot i) i f)).idxAdd f.joinEui i)

/-- The writes a unit makes for a NORMAL frame entry that it did not receive itself (R160, R169, R354, R356). DESIGN CHOICE: a NORMAL JOIN whose SRC slot
is FREE here was allocated under R160, whatever JOIN_POLICY and the pool are now. -/
def State.mirror (s : State) (e : Entry) : State :=
  if (e.kind = .radFrame ∨ e.kind = .plcFrame) ∧ e.cls = .normal ∧ e.src.slotV ∧ e.isNotice = false then
    let f := e.frame
    let i := e.src.slot
    let s0 := s.scrub i
    let x := s0.slot i
    let s1 := if f.isData && f.sync then s0.setPoll i { s0.poll i with tSync := some (ptBelow e.stamp (Machine.fld (f.body + 8) 4 f.bytes)) } else s0
    if f.isJoin && x.state == .free then s1.allocJoin i f
    else if isFirstJoin x f then s1.lockedWrite i { x with lastSeq := f.seq, dupwin := 0xFFFFFFFF#32 }
    else if (f.isData || f.isJoin) && x.state ≠ .free && x.state ≠ .decom then s1.lockedWrite i (dupCheck x f.seq).2
    else s1
  else s

end Sys2Proof.Machine
end

