-- ==== Sys2Proof/Machine/FeederOps.lean ====
section
/-! DEFINITION. The FEEDER task (R314 to R319): its fences, blocks into registers, demand and balance groups, feeder events,
and the feeder billing readout (R254, R256). -/
namespace Sys2Proof.Machine

/-- Change the FEEDER task's aggregate state. -/
def Com.feeder (c : Com) (f : FeederAgg → FeederAgg) : Com := c.ctx fun k => { k with feeder := f k.feeder }

/-- A BND_DEMAND closes the feeder's demand interval (R317). -/
def feederDemand (s : State) (f : Fence) (a : FeederAgg) : FeederAgg :=
  let cleared : FeederAgg := { a with demSum := 0, demUnsure := false }
  if a.demUnsure then { cleared with unsureJsn := f.jsn }
  else
    let d := if f.subj = 0 then 0 else a.demSum * 60 / (f.subj * 1000000)
    let inc := s.ctx.demandIncomplete f.jsn f.subj f.stamp
    let incl := match s.cfg.tariff with | some t => t.inclInc | none => false
    let b : FeederAgg := if inc then { cleared with inc := true } else cleared
    if (!inc || incl) && decide (a.maxDem < d) then { b with maxDem := d, band := (s.bandNow f.jsn).1 } else b

/-- The FEEDER task's registers as they stand at a fence (R256, R257). -/
def FeederAgg.cap (a : FeederAgg) (n : Nat) : FeederCap := { period := n, reg := a.reg, maxDem := a.maxDem, band := a.band, inc := a.inc, unsureJsn := a.unsureJsn }

/-- A BND_PERIOD captures the registers for the close readout and clears the maximum demand (R256). -/
def Ctx.feederCapture (x : Ctx) (f : Fence) : Ctx :=
  { x with caps := x.caps ++ [x.feeder.cap f.subj], feeder := { x.feeder with maxDem := 0, band := 0, inc := false } }

/-- Whether a readout sets XFLAGS.TIME_UNSURE: an interval updated nothing since the readout before it (R317). -/
def Ctx.roUnsure (x : Ctx) (cap : FeederCap) : Bool := decide (x.lastRo < cap.unsureJsn)

/-- One fence acts on the FEEDER task; a READOUT takes the registers at its JSN and changes none (R257); the first block after a START is exempt from the gap
event (R319). -/
def Com.feederFence (c : Com) (f : Fence) : Com :=
  let c1 := match f.kind with
    | .bndDemand => c.feeder (feederDemand c.s f)
    | .bndPeriod => c.ctx fun k => k.feederCapture f
    | .start => c.feeder fun a => { a with lastBseq := none }
    | .mgmtCmd => c.ctx fun k => { k with readCaps := k.readCaps ++ [k.feeder.cap f.jsn] }
    | _ => c
  c1.feeder fun a => { a with lastJsn := f.jsn }

/-- Every fence above the FEEDER task's last JSN and below `jsn` (R314); a unit in the head role has no front end (R4). -/
def Com.feederFences (c : Com) (jsn : Nat) : Com :=
  (c.s.ctx.fences.filter fun f => decide (c.s.ctx.feeder.lastJsn < f.jsn) && decide (f.jsn < jsn)).foldl Com.feederFence c

/-- Add millionths to a counter of thousandths kept with its remainder: the counter, the remainder and the whole gain (R316,
R318). -/
def addMicro (cnt rem v : Nat) : Nat × Nat × Nat := (cnt + (rem + v) / 1000, (rem + v) % 1000, (rem + v) / 1000)

/-- Add to register `m` of the FEEDER task (R316). -/
def FeederAgg.bill (a : FeederAgg) (m v : Nat) : FeederAgg :=
  let r := addMicro (a.reg.getD m 0) (a.rem.getD m 0) v
  { a with reg := setAt 0 a.reg m r.1, rem := setAt 0 a.rem m r.2.1 }

/-- Add the energy of a phase to its balance counters: the state with the whole mWh each counter gained (R318). -/
def FeederAgg.phaseEnergy (a : FeederAgg) (p : Nat) (e : Int) : FeederAgg × Nat × Nat :=
  let i := addMicro (a.imp.getD p 0) (a.remCtr.getD p 0) e.toNat
  let x := addMicro (a.exp.getD p 0) (a.remCtr.getD (3 + p) 0) (-e).toNat
  ({ a with imp := setAt 0 a.imp p i.1, exp := setAt 0 a.exp p x.1,
            remCtr := setAt 0 (setAt 0 a.remCtr p i.2.1) (3 + p) x.2.1 }, i.2.2, x.2.2)

/-- A block's contribution on one phase to one group (R274, R277, R278, R318). -/
def Com.feederContrib (c : Com) (g : Nat) (e : BalGroup) (p imp exp len : Nat) (settled : Bool) (t : Ent) : Com :=
  let k : Contrib := { supply := true, phase := p, cover := false }
  let v : Int := (imp : Int) - exp
  let t0 := if t.loose then c.s.newestCell e g t.eff else cellOf c.s.cfg e (secOf t.stamp)
  if t.loose then
    c.cell g t0 fun x =>
      let y := x.add k v 0
      { y with feedCover := y.feedCover + (if settled then len else 0), unsure := y.unsure || t.flags.timeUnsure,
               regressed := y.regressed || t.flags.regressed }
  else if c.s.cellClosed e g t.eff t0 then c.cell g (c.s.oldestCell e g t.eff) fun x => x.late true v
  else c.cell g t0 fun x =>
    let y := x.add k v 0
    { y with feedCover := y.feedCover + (if settled then len else 0) }

/-- A MTR_BLOCK commits (R315 to R319). -/
def Com.feederBlock (c : Com) (e : Entry) : Com :=
  let b := e.payload
  let t := entOf e c.jsn
  let p (n : Nat) : Int := fldI (16 + 8 * n) 8 b
  let q (n : Nat) : Int := fldI (40 + 8 * n) 8 b
  let pT := p 0 + p 1 + p 2
  let qT := q 0 + q 1 + q 2
  let band := (c.s.bandNow c.jsn).1
  let bseq := fld 4 4 b
  let settled := !(bit 0 (fld 1 1 b))
  let gap := match c.s.ctx.feeder.lastBseq with
    | some l => (bseq + 2 ^ 32 - l - 1) % 2 ^ 32
    | none => 0
  let c1 := if gap = 0 then c else c.event 0x10 gap
  let c2 := c1.feeder fun a =>
    let a1 := (a.bill (4 * band + (if pT < 0 then 1 else 0)) pT.natAbs).bill (4 * band + 2 + (if qT < 0 then 1 else 0)) qT.natAbs
    { a1 with lastBseq := some bseq, demSum := a1.demSum + pT.toNat, demUnsure := a1.demUnsure || t.loose }
  let c3 := if c2.s.ctx.lateAt t e.stamp then c2.upd fun s => s.count rMtrLatecnt 1 else c2
  (List.range 3).foldl (fun a n =>
    let r := a.s.ctx.feeder.phaseEnergy n (p n)
    let a1 := a.feeder fun _ => r.1
    (a1.s.cfg.groupsOn.filter fun g => g.2.feederRef && bit n g.2.feedPh).foldl (fun d g =>
      d.feederContrib g.1 g.2 n r.2.1 r.2.2 (fld 8 4 b) settled t) a1) c3

/-- A MTR_EVENT commits: a step goes to the balance groups, a tamper kind to the suspicion score and the event log (R284,
R286, R311). -/
def Com.feederEvent (c : Com) (e : Entry) : Com :=
  let b := e.payload
  let ty := fld 1 1 b
  let ph := fld 2 1 b
  if ty = 1 then c.feederStep ph (fldI 4 4 b) e.stamp c.jsn c.jsn
  else if 2 ≤ ty ∧ ty ≤ 7 then
    (c.event 0x0F (ty + ph * 256)).feederTamper (fun k => ph == 3 || ph == k) e.stamp c.jsn
  else c

/-! ### The readout (R254) -/

/-- Bytes 0 to 335 of a feeder billing readout (R254). -/
def readoutBody (cfg : RunCfg) (active unsure : Bool) (reason period closed stamp src gen : Nat) (x : FeederCap) (digest : Bytes) : Bytes :=
  let x : FeederCap := if cfg.role = .head then { period := x.period } else x
  le 1 3 ++ le 1 1 ++ le 2 (flag 0 active + flag 1 x.inc + flag 2 unsure) ++ le 4 (cfg.sysaddr % 2 ^ 18) ++ le 1 reason ++ le 3 0 ++
  le 4 period ++ le 4 closed ++ le 4 0 ++ le 8 stamp ++ le 8 src ++ ((List.range 32).flatMap fun m => le 8 (x.reg.getD m 0)) ++
  le 4 x.maxDem ++ le 1 (x.band % 8 + flag 3 x.inc) ++ le 1 (demLen cfg) ++ le 2 gen ++ fit 32 digest

/-- A signature whose r and s are not zero: the secret is derived again from the same seed until both are (R752). -/
def signFrom (key : Nat) (digest seed : Bytes) (ctx : Nat) : Nat → Nat → Bytes
  | 0, j => Config.ecdsaSign key digest (sigSecret seed ctx j)
  | n + 1, j =>
    let g := Config.ecdsaSign key digest (sigSecret seed ctx j)
    if beVal (g.take 32) ≠ 0 ∧ beVal (g.drop 32) ≠ 0 then g else signFrom key digest seed ctx n (j + 1)

/-- Sign bytes with SIGK of a generation (R247, R254, R752). -/
def State.signWith (s : State) (gen : Nat) (seed : Bytes) (idx : Nat) (b : Bytes) : Bytes :=
  fit 64 (signFrom (sigk s.sys s.cfg.sysaddr gen) (Config.sha256 b) seed idx 255 0)

/-- Whether the feeder front end is active: FEEDER_V (R254, R292). -/
def State.feederActive (s : State) : Bool := s.cfg.role == .field && s.bitOf rMtrCtl 0

end Sys2Proof.Machine
end

