-- ==== Sys2Proof/Machine/TimeOps.lean ====
section
/-! DEFINITION. Steps of device time (R60 to R62, R483 to R487), the servo (R473 to R478), the Oasis clock's commits and
calendar (R488 to R491) and the programmed times of the outputs (R494 to R499). -/
namespace Sys2Proof.Machine

/-! ### The Oasis clock -/

/-- The time the Oasis clock shows: whole ticks of 2^-15 s (R488). -/
def Oasis.time (o : Oasis) : Nat := o.raw / 8192 * 8192

/-- OAS_TIME0 of a time: bits 31 to 0. -/
def oasTime0 (x : Nat) : Word := BitVec.ofNat 32 x
/-- OAS_TIME1: bits 63 to 32. -/
def oasTime1 (x : Nat) : Word := BitVec.ofNat 32 (x / 2 ^ 32)
/-- OAS_TIME2: the UTC date under an offset (R508). The calendar begins with 2000: an instant before it has no date, and reads as at reset (R14). DESIGN
CHOICE. -/
def oasTime2 (x off : Nat) : Word :=
  if secOf x < off then 0#32
  else
  let day := ((secOf x : Int) - off) / 86400
  let (y, m, d) := dateOf day
  BitVec.ofNat 32 ((y - 2000).toNat % 128 + m * 128 + d * 2048 + weekday day * 65536)
/-- OAS_TIME3: the UTC time of day under an offset, 0 before 2000 as at reset (R14), and the offset (R508). -/
def oasTime3 (x off : Nat) : Word :=
  let r := (secOf x - off) % 86400
  BitVec.ofNat 32 (r % 60 + r / 60 % 60 * 64 + r / 3600 * 4096 + off % 256 * 16777216)

/-- The live values of OAS_TIME0 to OAS_TIME3, as a freeze takes them (R492). -/
def State.oasLive (s : State) : Shadow :=
  let x := s.oas.time
  let off := s.fld rOasUtc 7 0
  { w0 := oasTime0 x, w1 := oasTime1 x, w2 := oasTime2 x off, w3 := oasTime3 x off, since := s.t }

/-- The Oasis runs from VBAT: OAS_PWR.SRC (R674). -/
def State.onVbat (s : State) : Bool := s.bitOf rOasPwr 0

/-- Change the Oasis clock. -/
def State.setOas (s : State) (f : Oasis → Oasis) : State := { s with oas := f s.oas }

/-- Change the TIM block. -/
def State.setTim (s : State) (f : Tim → Tim) : State := { s with tim := f s.tim }

/-- A write of 1 to OAS_TCOMMIT.GO (R491): the staged value is refused when its FRAC is not 0, or when fewer than 2 ticks remain once GO is
synchronised, which takes up to 2 ticks; else the commit is pending. -/
def State.oasGo (s : State) : State :=
  let v := s.reg rOasStgLo + s.reg rOasStgHi * 2 ^ 32
  let (x, s1) := s.free
  let left := (secOf s.dev + 1) * second - s.dev
  if v % second ≠ 0 then s.setBit rOasStat 4 true
  else if left < (x % 3 + 2) * 8192 then s1.setBit rOasStat 5 true
  else s1.setOas fun o => { o with stgPend := some v }

/-- A read of OAS_TIME0 (R492). -/
def State.oasFreeze (s : State) (w : Who) : Word × State :=
  match s.oas.shadow.at w with
  | some x => (x.w0, s)
  | none => let x := s.oasLive; (x.w0, s.setOas fun o => { o with shadow := o.shadow.put w (some x) })

/-- A read of OAS_TIME3 (R492). -/
def State.oasRelease (s : State) (w : Who) : Word × State :=
  match s.oas.shadow.at w with
  | some x => (x.w3, s.setOas fun o => { o with shadow := o.shadow.put w none })
  | none => (s.oasLive.w3, s)

/-- Device code stages a commit of device time for the next whole second it can still reach (R487, R491); with the bridge locked
it cannot. -/
def State.oasisCommit (s : State) : State :=
  if s.locked then s
  else
    let v := (secOf (s.dev + 4 * 8192) + 1) * second
    ((s.setReg rOasStgLo (v % 2 ^ 32)).setReg rOasStgHi (v / 2 ^ 32)).setOas fun o => { o with stgPend := some v }

/-! ### The servo (R473 to R478) -/

/-- TIM_RATE takes a correction, clamped to ±MAX_PPM (R471, R475). -/
def State.setRate (s : State) (adj : Int) : State :=
  let m : Int := (s.fld rTimServo 24 16 * 1024000 : Nat)
  s.setReg rTimRate ((max (-m) (min m adj)) % 4294967296).toNat

/-- The servo enters ACQUIRE (R473); from FREE the loop starts from the rate that FREE had. DESIGN CHOICE. -/
def State.enterAcquire (s : State) : State :=
  s.setTim fun x => { x with servo := .acquire, lockRun := 0, lastSync := s.t, calFrom := none, mains := none,
                             integral := if x.servo = .free then signed 32 (s.reg rTimRate) else x.integral }

/-- The servo enters HOLDOVER with the frequency estimate it had (R473, R477). -/
def State.enterHoldover (s : State) : State :=
  ((s.setTim fun x => { x with servo := .holdover, lockRun := 0, calFrom := none }).setRate s.tim.integral |>.irq rTimIrq 1).event 0x47 0

/-- The rate in FREE: OAS_LRATE (R478). -/
def State.freeRate (s : State) : State := s.setRate (signed 32 (s.reg rOasLrate))

/-- A nominal mains cycle of the reference phase steers FREE (R478). -/
def State.mainsCycle (s : State) : State :=
  if s.tim.servo = .free ∧ s.bitOf rTimCtl 6 ∧ s.cfg.role = .field then
    match s.tim.mains with
    | none => s.setTim fun x => { x with mains := some (s.dev, 0) }
    | some (d0, n) =>
      (s.setTim fun x => { x with mains := some (d0, n + 1) }).setRate
        (Config.mainsRate (if s.bitOf rTimCtl 7 then 60 else 50) (n + 1) (s.dev - d0) (s.fld rTimLimits 31 24))
  else s

/-- FREE without a mains reference falls back to OAS_LRATE (R478). -/
def State.mainsLost (s : State) : State :=
  if s.tim.servo = .free ∧ s.tim.mains.isSome then (s.setTim fun x => { x with mains := none }).freeRate else s

/-- The median of a list of offsets; of an even number, the mean of the two in the middle, toward zero (R474). -/
def median (l : List Int) : Int :=
  let o := sortBy (fun a b => decide (a < b)) l
  (o.getD ((o.length - 1) / 2) 0 + o.getD (o.length / 2) 0).tdiv 2

/-- PTP's TAI−UTC offset is checked against the table (R482). -/
def State.checkUtc (s : State) (utc : Option Nat) : State :=
  match utc with
  | none => s
  | some v =>
    if (v : Int) = utcOffset s.cfg (secOf s.dev) then s.setTim fun x => { x with mismatch := false }
    else ((s.setTim fun x => { x with mismatch := true }).irq rTimIrq 4).event 0x49 v

/-! ### Timed outputs (R494 to R499) -/

/-- Output `n`. -/
def State.ctlOut (s : State) (n : Nat) : CtlOut := s.tim.ctl.getD n {}
/-- Write output `n`. -/
def State.setCtl (s : State) (n : Nat) (x : CtlOut) : State := s.setTim fun t => { t with ctl := t.ctl.set n x }
/-- MODE of an output. -/
def State.ctlMode (s : State) (n : Nat) : Nat := s.fld (rTimCtlcfg n) 1 0
/-- START of an output. -/
def State.ctlStart (s : State) (n : Nat) : Nat := s.reg (rTimCtlstartLo n) + s.reg (rTimCtlstartHi n) * 2 ^ 32
/-- PERIOD of an output. -/
def State.ctlPeriod (s : State) (n : Nat) : Nat := s.reg (rTimCtlperLo n) + s.reg (rTimCtlperHi n) * 2 ^ 32

/-- The programmed time of instance `k` of an output in mode 1 or 2, if it has one (R494). -/
def State.ctlInstance (s : State) (n k : Nat) : Option Nat :=
  match s.ctlMode n with
  | 1 => if k = 0 then some (s.ctlStart n) else none
  | 2 => if s.reg (rTimCtlcount n) = 0 ∨ k < s.reg (rTimCtlcount n) then some (s.ctlStart n + k * s.ctlPeriod n) else none
  | _ => none

/-- The next programmed time of an output. -/
def State.ctlNext (s : State) (n : Nat) : Option Nat :=
  if s.ctlMode n = 3 then (s.ctlOut n).pulses.head? else s.ctlInstance n (s.ctlOut n).k

/-- The first instance whose programmed time lies after an instant (R496). -/
def State.ctlFirstAfter (s : State) (n at_ : Nat) : Nat :=
  if at_ < s.ctlStart n then 0
  else if s.ctlMode n = 1 ∨ s.ctlPeriod n = 0 then 1
  else (at_ - s.ctlStart n) / s.ctlPeriod n + 1

/-- After a step the next instance lies after the new device time and after the last pulse fired (R496). -/
def State.ctlReseat (s : State) : State :=
  (List.range 8).foldl (fun a n =>
    let o := a.ctlOut n
    a.setCtl n { o with k := a.ctlFirstAfter n (max a.dev o.last) }) s

/-- A pulse is skipped or dropped (R498, R499). -/
def State.ctlSkip (s : State) (n : Nat) : State := ((s.count (rTimCtlskip n) 1).irq rTimIrq 5).event 0x4A n

/-- A released pulse joins the pending pulses of its output, the earliest first (R495, R499). -/
def State.ctlRelease (s : State) (n at_ : Nat) : State :=
  let o := s.ctlOut n
  if 8 ≤ o.pulses.length then s.ctlSkip n
  else s.setCtl n { o with pulses := sortBy (fun a b => decide (a < b)) (o.pulses ++ [at_]) }

/-- PPS_OUT: released on VBAT alone and while OAS_PPS.EN is 0, else driven (R493). -/
def State.ppsOut (s : State) : BallOut :=
  if s.onVbat || !s.bitOf rOasPps 0 then .pull else ballLevel (decide (s.t < s.oas.ppsUntil)) (s.bitOf rOasPps 1)

/-- CTLn: inert with its weak pull-down in a unit without the token and in mode 0, else driven (R494, R497). -/
def State.ctlBall (s : State) (n : Nat) : BallOut :=
  if !s.sef.driver || s.ctlMode n == 0 then .pull
  else ballLevel (decide (s.t < (s.ctlOut n).activeUntil)) (s.bitOf (rTimCtlcfg n) 2)

/-! ### Steps of device time -/

/-- The sequencer's part of a step once device time has moved from `old` to its new value: TIME_SET, TIME_STATE when time was
unsure, and the boundaries held and crossed (R60 to R62, R225, R487). DESIGN CHOICE: JSQ_IRQ.TIME_HELD tells of boundaries journaled HELD as time is
re-established, and of no others (R76). -/
def State.journalStep (s : State) (old source : Nat) : State :=
  let new := s.dev
  let regr := decide (new < s.ctx.hwb) && (decide (new < old) || s.seq.regressed || s.seq.unsure)
  let s1 : State := { s with seq := s.seq.turn old new s.seq.unsure regr }
  let s2 := s1.append .timeSet .normal {} new (s1.inputFlags new) (le 8 old ++ le 8 new ++ le 1 source)
  let wasUnsure := s2.seq.unsure
  let s3 :=
    if wasUnsure then
      let a : State := { s2 with seq := s2.seq.turn new new false regr }
      let a1 := (a.append .timeState .normal {} new (a.inputFlags new) [1]).setBit rOasStat 0 false
      a1.oasisCommit
    else s2
  let first := s3.ctx.hwb = 0
  let hwb := s3.ctx.hwb
  let s4 :=
    if wasUnsure && s3.ctx.bands.isEmpty && s3.boot.cutJsn == 0 && s3.cfg.tariff.isSome then
      let b := (calBand s3.cfg (secOf new)).1
      s3.append .bndTariff .normal {} new (s3.inputFlags new) (le 4 (b + b * 16 + (calBand s3.cfg (secOf new)).2 * 256))
    else s3
  let done (a : State) : State := a.releaseHeldPeriod
  if regr then s4
  else if first then done { s4 with seq := { s4.seq with bndBase := secOf new * second } }
  else
    let a := ({ s4 with ctx := { s4.ctx with hwb := hwb } } : State).journalCrossed new
    let b : State := { a with ctx := { a.ctx with hwb := max a.ctx.hwb s4.ctx.hwb },
                              seq := { a.seq with bndBase := max a.seq.bndBase (secOf new * second) } }
    done (if wasUnsure && decide (s4.seq.nextJsn < b.seq.nextJsn) then b.irq rJsqIrq 5 else b)

/-- Device time steps by a difference in units (R471): the block in progress ends, the outputs find their next instances, and the
step right is used (R304, R474, R483, R496). -/
def State.stepTime (s : State) (delta : Int) : State :=
  let new := ((s.dev : Int) + delta).toNat
  let s1 : State := { s with dev := new, fe := { s.fe with cut := if s.fe.run then some (s.dev, new) else s.fe.cut } }
  ((s1.setTim fun x => { x with stepUsed := true, mains := none }).irq rTimIrq 2).ctlReseat

/-- Apply a step and journal it (R483, R485); a standby only moves its counter (R486). With PTP enabled the servo enters ACQUIRE, whether or not a master
is selected now (R483). -/
def State.applyStep (s : State) (p : StepPend) : State :=
  let s0 := s.setTim fun x => { x with pend := none }
  let s1 := s0.stepTime p.delta
  if p.replica then s1
  else
    let s2 := s1.journalStep s.dev p.source
    if s2.bitOf rTimCtl 1 then s2.enterAcquire else s2

end Sys2Proof.Machine
end

