-- ==== Sys2Proof/Machine/MgmtOps.lean ====
section
/-! DEFINITION. Management commands at their commit (R156, R157, R241, R301, R424, R436 to R438, R458 to R462, R483, R484,
R517, R547, R551, R554) and their acknowledgement records (R462). -/
namespace Sys2Proof.Machine

/-! ### Statuses (R461) -/

/-- The status of a command (R461). -/
inductive Status where
  | ok | unknownCmd | badParam | wrongRole | slotInUse | inPool | euiExists | notClosed | indexFull | closeBusy | notActive
  | pushBusy | tableFull | badId | imageFull | pumpBusy | badState | notPermitted
  deriving DecidableEq, Repr

/-- Every status in code order. -/
def Status.all : List Status := [.ok, .unknownCmd, .badParam, .wrongRole, .slotInUse, .inPool, .euiExists, .notClosed, .indexFull,
  .closeBusy, .notActive, .pushBusy, .tableFull, .badId, .imageFull, .pumpBusy, .badState, .notPermitted]

/-- The code of a status (R461). -/
def Status.code (x : Status) : Nat := Status.all.idxOf x

/-- The status of a code. -/
def Status.ofCode (n : Nat) : Status := Status.all.getD n .ok

/-! ### The command block (R459, R460) -/

/-- A command block: code, BLEN, TARGET and body. -/
structure Cmd where
  code   : Nat
  blen   : Nat
  target : Nat
  body   : Bytes
  whole  : Bool
  deriving DecidableEq, Repr

/-- A command block from its bytes. -/
def Cmd.ofBytes (b : Bytes) : Cmd :=
  let n := Machine.fld 2 2 b
  { code := Machine.fld 0 2 b, blen := n, target := Machine.fld 4 4 b, body := sub 8 n b, whole := decide (8 + n ≤ b.length) }

/-- A command block as bytes. -/
def cmdBytes (code target : Nat) (body : Bytes) : Bytes := le 2 code ++ le 2 body.length ++ le 4 target ++ body

/-- The MGMT_CMD payload: SRC_JSN, then the command block (R459). -/
def mgmtPayload (srcJsn : Nat) (cmd : Bytes) : Bytes := le 8 srcJsn ++ cmd

/-- The command block of a MGMT_CMD entry. -/
def Entry.cmd (e : Entry) : Cmd := Cmd.ofBytes (e.payload.drop 8)

/-- SRC of a MGMT_CMD input: SLOT and SLOT_V of TARGET (R460). -/
def cmdSrc (target : Nat) : Src := { slot := if bit 17 target then bits 16 0 target else 0, slotV := bit 17 target }

/-- Whether a command's length is the one the tables of R460 and R551 give; a PUSH has its own (R419). -/
def cmdLenOk (code n : Nat) : Option Bool :=
  let is (m : Nat) : Option Bool := some (n == m)
  match code with
  | 0x01 => is 36 | 0x02 => is 0 | 0x03 => is 0 | 0x04 => is 4
  | 0x10 => is 0 | 0x11 => is 0 | 0x12 => is 0 | 0x13 => is 0
  | 0x20 => is 8 | 0x30 => is 8
  | 0x40 => some (decide (4 ≤ n))
  | 0x41 => is 44 | 0x42 => is 132 | 0x43 => is 12 | 0x44 => is 4
  | 0xF00 => is 4
  | 0xF01 => is 64 | 0xF02 => is 64 | 0xF03 => is 64 | 0xF04 => is 64 | 0xF05 => is 64
  | _ => none

/-- Whether a command names a slot (R460). -/
def cmdSlotV (code : Nat) : Bool := code == 1 || code == 2 || code == 3 || code == 4 || code == 0x40

/-! ### Origin (R459, R462, R554) -/

/-- Where a command came from, with KEY_ID and CTR of the datagram that carried it (R462). -/
inductive Origin where
  | backhaul (keyId ctr : Nat)
  | seif (keyId ctr : Nat)
  | maint
  deriving DecidableEq, Repr

/-- KEY_ID and CTR of a CMD datagram (R450). -/
def dgramKey (p : Bytes) : Nat × Nat := (Machine.fld 12 4 p, Machine.fld 16 8 p)

/-- The origin of a MGMT_CMD entry: the NET_PKT that SRC_JSN names; with SRC_JSN 0, the SEIF_FRAME entry of the same stamp, or the
maintenance port when there is none. DEDUCED: the entry itself names no origin. -/
def State.origin (s : State) (e : Entry) : Origin :=
  let src := Machine.fld 0 8 e.payload
  if src ≠ 0 then
    match s.seq.journal.find? fun x => x.jsn == src with
    | some x => let (k, c) := dgramKey x.payload; .backhaul k c
    | none => .backhaul 0 0
  else match (s.seq.journal.filter fun x => x.kind == .seifFrame && x.stamp == e.stamp && decide (x.jsn < e.jsn)).getLast? with
    | some x => let (k, c) := dgramKey x.payload; .seif k c
    | none => .maint

/-- ORIGIN of the acknowledgement (R462). -/
def Origin.code : Origin → Nat
  | .backhaul _ _ => 0
  | .seif _ _ => 1
  | .maint => 2

/-- KEY_ID and CTR of the acknowledgement (R462). -/
def Origin.key : Origin → Nat × Nat
  | .backhaul k c => (k, if k = 0 then 0 else c)
  | .seif k c => (k, if k = 0 then 0 else c)
  | .maint => (0, 0)

/-- Whether an origin may give a command (R552, R554). -/
def Origin.permits (o : Origin) (lc : LifeCycle) (code : Nat) : Bool :=
  let lcCmd := decide (0xF01 ≤ code) && decide (code ≤ 0xF05)
  match o with
  | .backhaul k _ => k ≠ 0 || lcCmd
  | .seif k _ => k ≠ 0 || lcCmd
  | .maint => lc == .open_ || lcCmd || code == 0x11 || code == 0x12

/-! ### Roster (R156 to R158) -/

/-- Whether a slot lies in the join pool while class joins are allowed (R157, R160). -/
def State.inPool (s : State) (i : Nat) : Bool :=
  s.bitOf rArbCtl 1 && decide (s.fld rArbPoolLo 16 0 ≤ i) && decide (i ≤ s.fld rArbPoolHi 16 0)

/-- ROSTER_ADD (R155 to R157). -/
def Com.rosterAdd (c : Com) (i : Nat) (b : Bytes) : Status × Com :=
  let x := c.slot i
  let eui := fldB 0 8 b
  let cls := Machine.fld 8 1 b
  let med := Machine.fld 9 1 b
  let grp := Machine.fld 10 2 b
  if 16 ≤ cls ∨ 3 ≤ med ∨ 2 ^ 14 ≤ grp then (.badParam, c)
  else if x.state ≠ .free then (.slotInUse, c)
  else if c.s.inPool i then (.inPool, c)
  else if (c.s.findEui eui).isSome then (.euiExists, c)
  else if c.s.idxPlaces eui = false then (.indexFull, c)
  else
    let y : Slot := { state := .rostered, medium := med, group := bits 11 0 grp, member := bit 12 grp, ref := bit 13 grp, short := i + 1,
                      cls := cls, eui := eui, wkey := sub 12 24 b, lastJsn := x.lastJsn, fault := x.fault }
    (.ok, c.upd fun s => s.poolNote ((s.lockedWrite i y).idxAdd eui i))

/-- ROSTER_DECOM (R156, R429). -/
def Com.rosterDecom (c : Com) (i : Nat) : Status × Com :=
  let x := c.slot i
  if x.state = .rostered ∨ x.state = .joining ∨ x.state = .active then
    (.ok, Com.cancelPushes 8 (c.setSlot i { x with state := .decom, decomEpoch := c.s.ctx.epoch }) i)
  else (.badState, c)

/-- ROSTER_RELEASE (R137, R156 to R158): mirage records of frames still parked are retracted, the EUI-64 leaves the index, and the slot and its gate
entry become 0. -/
def Com.rosterRelease (c : Com) (i : Nat) : Status × Com :=
  let x := c.slot i
  if x.state ≠ .decom then (.badState, c)
  else if c.s.ctx.epoch ≤ x.decomEpoch then (.notClosed, c)
  else
    let c1 := (x.parksFrom x.next).foldl (fun a p => a.retract p.mirage) c
    (.ok, (c1.upd fun s => s.idxDrop i).setSlot i { ({} : Slot) with lastJsn := x.lastJsn, fault := x.fault })

/-- ROSTER_SET (R156, R157, R191). -/
def Com.rosterSet (c : Com) (i : Nat) (b : Bytes) : Status × Com :=
  let x := c.slot i
  let cls := Machine.fld 0 1 b
  let grp := Machine.fld 2 2 b
  if 16 ≤ cls ∨ 2 ^ 14 ≤ grp then (.badParam, c)
  else if x.state = .rostered ∨ x.state = .joining ∨ x.state = .active then
    (.ok, c.setSlot i { x with cls := cls, group := bits 11 0 grp, member := bit 12 grp, ref := bit 13 grp })
  else (.badState, c)

/-! ### Close, readout, time and meter -/

/-- The close instant of a CLOSE_NOW (R241): none while time is unsure. -/
def State.closeInstantFor (s : State) (e : Entry) : Option Nat :=
  if e.flags.timeUnsure then none
  else if e.flags.regressed then some (minuteAtOrAfter s.cfg (s.ctx.hwbAt e.jsn + second))
  else some (minuteAtOrAfter s.cfg (e.stamp + second))

/-- CLOSE_NOW (R241, R242). -/
def Com.cmdCloseNow (c : Com) (e : Entry) : Status × Com :=
  if 2 ≤ c.s.ctx.closesOpenAt e.jsn ∨ c.s.ctx.closeNow.isSome then (.closeBusy, c)
  else (.ok, c.ctx fun k => { k with closeNow := some { jsn := e.jsn, instant := c.s.closeInstantFor e } })

/-- READOUT: a signed feeder readout with REASON 1, with the registers as they stood at the command's JSN (R254, R257, R517). -/
def Com.cmdReadout (c : Com) : Status × Com :=
  if c.s.cwmPast c.jsn = false then
    (.ok, { c with wait := some .watermark })
  else
    (.ok, c.useDraw 0xC4000000 40 fun c1 w =>
      let c2 := c1.feederFences (c.jsn + 1)
      let x : FeederCap := (c2.s.ctx.readCaps.find? fun f => f.period == c.jsn).getD { period := c.jsn }
      let gen := c2.s.ctx.sigGenAt c.jsn
      let body := readoutBody c2.s.cfg c2.s.feederActive (c2.s.ctx.roUnsure x || c2.flags.timeUnsure) 1 (c2.s.ctx.periodAt c.jsn) 0 c2.stamp c.jsn gen x []
      ((c2.upd fun s => s.count rCphSigcnt 1).out 3 (body ++ c2.s.signWith gen (c2.s.unwrapJ w) 131072 body)).ctx fun k =>
        { k with lastRo := max k.lastRo c.jsn, readCaps := k.readCaps.filter fun f => f.period ≠ c.jsn })

/-- TIME_SET: the step is handed to the TIM block of the unit that holds the token, whose TIME_SET entry the other units follow (R483, R484, R486). DESIGN
CHOICE: a step that waits when the token is lost is not taken over by the new holder. -/
def Com.cmdTimeSet (c : Com) (o : Origin) (b : Bytes) : Status × Com :=
  let delta : Int := (Machine.fld 0 8 b : Int) - c.stamp
  if o = .maint ∧ c.s.sec.otp.lc ≠ .open_ then (.notPermitted, c)
  else if 2 ^ 35 * second ≤ delta.natAbs then (.badParam, c)
  else
    let src := match o with | .backhaul _ _ => 1 | .seif _ _ => 3 | .maint => 2
    (.ok, c.upd fun s => if s.seq.holder then s.setTim fun x => { x with pend := some { delta := delta, source := src } } else s)

/-- Decimation of a response (R296). -/
def decimation (n : Nat) : Nat := [128, 128, 256, 256, 64, 512, 512, 1024].getD n 128

/-- Group delay of a response, in modulator cycles (R296). -/
def groupDelay (n : Nat) : Nat := [384, 512, 768, 1024, 192, 1536, 2048, 3072].getD n 384

/-- Settling time of a response, in modulator cycles (R296). -/
def settleCycles (n : Nat) : Nat := [768, 1024, 1536, 2048, 384, 3072, 4096, 6144].getD n 768

/-- Taps of a MEDIAN code (R321). -/
def medianTaps (n : Nat) : Nat := [1, 3, 5, 7].getD n 1

/-- The total correction GD_T of a SEL value, in modulator cycles (R297 to R299). -/
def gdT (sel : Nat) : Nat :=
  max (groupDelay (bits 2 0 sel)) (groupDelay (bits 5 3 sel)) + (medianTaps (bits 7 6 sel) - 1) / 2 * decimation (bits 2 0 sel)

/-- Modulator cycles as units of 2^-28 s: one cycle is 2^-10 s / 1000 (R294). -/
def modU (n : Nat) : Nat := n * second / 1024000

/-- Modulator cycles for which samples are unsettled after an enable or a switch: the settling time and MEDIAN − 1 samples (R300). -/
def settleM (sel : Nat) : Nat :=
  max (settleCycles (bits 2 0 sel)) (settleCycles (bits 5 3 sel)) + (medianTaps (bits 7 6 sel) - 1) * decimation (bits 2 0 sel)

/-- The responses, median and PGA codes that the registers hold (R323). -/
def State.feSel (s : State) : Nat × List Nat := (s.fld rMtrSel 7 0, (List.range 4).map fun n => s.fld (rMtrTrim (3 + n)) 18 16)

/-- MTR_SEL and the PGA codes take new values (R301, R323); the front end switches to them at the end of the block in progress. -/
def State.putSel (s : State) (sel : Nat) (pga : List Nat) : State :=
  (List.range 4).foldl (fun a n => a.setFld (rMtrTrim (3 + n)) 18 16 (pga.getD n 0)) (s.setFld rMtrSel 7 0 sel)

/-- METER_SET (R301, R322, R461). -/
def Com.cmdMeterSet (c : Com) (b : Bytes) : Status × Com :=
  let sel := Machine.fld 0 1 b
  let pga := (List.range 4).map fun n => Machine.fld (1 + n) 1 b
  if c.s.cfg.role = .head then (.wrongRole, c)
  else if decimation (bits 2 0 sel) ≠ decimation (bits 5 3 sel) ∨ pga.any (fun p => decide (4 < p)) then (.badParam, c)
  else (.ok, c.upd fun s => s.putSel sel pga)

/-! ### Endpoint images (R436 to R438) -/

/-- The image of a number. -/
def Ctx.image (k : Ctx) (n : Nat) : Option EpImage := k.images.find? fun m => m.image == n

/-- FW_DECLARE (R437, R567). -/
def Com.fwDeclare (c : Com) (b : Bytes) : Status × Com :=
  let img := Machine.fld 0 2 b
  let blocks := Machine.fld 2 2 b
  let len := Machine.fld 4 4 b
  let held := (c.s.ctx.images.map fun m => m.blocks).foldl (· + ·) 0
  if 16 ≤ c.s.ctx.images.length ∨ c.s.med.caps.getD 3 0 * 8192 < held + blocks then (.imageFull, c)
  else if (c.s.ctx.image img).isSome ∨ blocks = 0 ∨ 4096 < blocks ∨ len ≤ (blocks - 1) * 128 ∨ blocks * 128 < len then (.badParam, c)
  else
    (.ok, c.useDraw (0xC3000000 + img) 24 fun c1 w => c1.ctx fun k =>
      { k with images := k.images ++ [{ image := img, blocks := blocks, length := len, digest := sub 8 32 b,
                                        classMask := Machine.fld 40 2 b, key := w }] })

/-- The blocks of an image in order. -/
def EpImage.content (m : EpImage) : Bytes :=
  ((List.range m.blocks).flatMap fun n => (m.data.find? fun p => p.1 == n).map (·.2) |>.getD []).take m.length

/-- FW_LOAD: store one block; the last one triggers the digest check (R437). -/
def Com.fwLoad (c : Com) (b : Bytes) : Status × Com :=
  let img := Machine.fld 0 2 b
  let blk := Machine.fld 2 2 b
  match c.s.ctx.image img with
  | none => (.badParam, c)
  | some m =>
    if m.blocks ≤ blk then (.badParam, c)
    else if m.data.any fun p => p.1 == blk then (.ok, c)
    else
      let m1 : EpImage := { m with data := m.data ++ [(blk, sub 4 128 b)] }
      let full := decide (m1.data.length = m1.blocks)
      let good := Config.sha256 m1.content == m1.digest
      let m2 : EpImage := if full then { m1 with state := if good then .ready else .failed } else m1
      let c1 := c.ctx fun k => { k with images := k.images.map fun x => if x.image == img then m2 else x }
      (.ok, if full && !good then c1.event 0x14 img else c1)

/-- FW_SEND: hand a range to a medium's block pump (R438). -/
def Com.fwSend (c : Com) (b : Bytes) : Status × Com :=
  let img := Machine.fld 0 2 b
  let p : Pump := { image := img, round := Machine.fld 2 1 b, medium := Machine.fld 3 1 b, first := Machine.fld 4 2 b,
                    last := Machine.fld 6 2 b, ttl := Machine.fld 8 1 b }
  match c.s.ctx.image img with
  | none => (.badParam, c)
  | some m =>
    if m.state ≠ .ready ∨ 1 < p.medium ∨ 7 < p.ttl ∨ p.last < p.first ∨ m.blocks ≤ p.last then (.badParam, c)
    else if 4 ≤ (c.s.ctx.pumps.filter fun q => q.medium == p.medium).length then (.pumpBusy, c)
    else (.ok, c.ctx fun k => { k with pumps := k.pumps ++ [p] })

/-- FW_DELETE (R437). -/
def Com.fwDelete (c : Com) (b : Bytes) : Status × Com :=
  let img := Machine.fld 0 2 b
  if (c.s.ctx.image img).isNone then (.badParam, c)
  else if c.s.ctx.pushes.any fun p => (p.dtype == 5 || p.dtype == 7 || p.dtype == 8) && Machine.fld 0 2 p.body == img then (.badState, c)
  else (.ok, c.ctx fun k => { k with images := k.images.filter fun m => m.image ≠ img, pumps := k.pumps.filter fun q => q.image ≠ img })

/-! ### Keys and life cycle (R517, R547, R551) -/

/-- KEY_STAT.LC of a state (R547). -/
def LifeCycle.code : LifeCycle → Nat
  | .blank => 0 | .open_ => 1 | .field => 2 | .return_ => 3 | .scrapped => 4

/-- KEY_ROLL (R517, R551). -/
def Com.keyRoll (c : Com) (b : Bytes) : Status × Com :=
  if Machine.fld 0 1 b ≠ 4 then (.badParam, c)
  else if 65535 ≤ c.s.ctx.sigGen then (.badState, c)
  else (.ok, c.ctx fun k => { k with sigGen := k.sigGen + 1, sigHist := k.sigHist ++ [(c.jsn, k.sigGen + 1)] })

/-- The 13-byte message a security command signs (R551). -/
def State.lcMessage (s : State) (code : Nat) : Bytes := s.unitId ++ le 2 code ++ le 1 s.sec.otp.lc.code ++ le 2 (s.fld rOasAlmcnt 15 0)

/-- Whether a security command's signature verifies under OPK (R545, R551). -/
def State.lcSigned (s : State) (code : Nat) (sig : Bytes) : Bool :=
  s.sec.opk ≠ [] && Config.ecdsaVerify s.sec.opk (Config.sha256 (s.lcMessage code)) sig

/-- Where a life-cycle command leads from the present state (R547, R551); none where it is not allowed. -/
def Otp.next (o : Otp) (code : Nat) : Option LifeCycle :=
  match code, o.lc with
  | 0xF02, .open_ => if o.commissioned then some .field else none
  | 0xF02, .return_ => some .field
  | 0xF03, .field => some .return_
  | 0xF04, .scrapped => none
  | 0xF04, _ => some .scrapped
  | _, _ => none

/-- COMMISSION fuses the digest of OPK (R551). -/
def State.commission (s : State) : State :=
  { s with sec := { s.sec with otp := { s.sec.otp with opkHash := Config.sha256 s.sec.opk, commissioned := true } } }

/-- The commands 0x0F01 to 0x0F05 in service (R551): a transition runs after its acknowledgement has been released. -/
def Com.lcCmd (c : Com) (code : Nat) (sig : Bytes) : Status × Com :=
  if c.s.lcSigned code sig = false then (.notPermitted, c.upd fun s => s.irq rCphIrq 1)
  else if code = 0xF01 then
    if c.s.sec.otp.lc = .open_ then (.ok, c.upd State.commission) else (.badState, c)
  else match c.s.sec.otp.next code with
    | some t => (.ok, c.upd fun s => { s with sec := { s.sec with lcPend := some { dst := t, ack := c.jsn } } })
    | none => (.badState, c)

/-! ### The commit of a MGMT_CMD (R459 to R462) -/

/-- What a command does at its commit, once its block is whole. -/
def Com.command (c : Com) (e : Entry) (o : Origin) (m : Cmd) : Status × Com :=
  let i := bits 16 0 m.target
  match m.code with
  | 0x01 => c.rosterAdd i m.body
  | 0x02 => c.rosterDecom i
  | 0x03 => c.rosterRelease i
  | 0x04 => c.rosterSet i m.body
  | 0x10 => c.cmdCloseNow e
  | 0x11 => c.cmdReadout
  | 0x12 => (.ok, c.upd fun s => if s.seq.holder then { s with seq := { s.seq with ckptReq := true } } else s)
  | 0x13 => (.ok, c.upd fun s => if s.seq.holder then s.endHold none else s)
  | 0x20 => c.cmdTimeSet o m.body
  | 0x30 => c.cmdMeterSet m.body
  | 0x40 => let r := c.cmdPush i m.body; (Status.ofCode r.1, r.2)
  | 0x41 => c.fwDeclare m.body
  | 0x42 => c.fwLoad m.body
  | 0x43 => c.fwSend m.body
  | 0x44 => c.fwDelete m.body
  | 0xF00 => c.keyRoll m.body
  | n => c.lcCmd n m.body

/-- Whether a roster command sets a reserved bit, which is judged before every other status (R157). -/
def rosterBad (m : Cmd) : Bool :=
  (m.code == 1 && (decide (16 ≤ Machine.fld 8 1 m.body) || decide (3 ≤ Machine.fld 9 1 m.body) || decide (2 ^ 14 ≤ Machine.fld 10 2 m.body))) ||
  (m.code == 4 && (decide (16 ≤ Machine.fld 0 1 m.body) || decide (2 ^ 14 ≤ Machine.fld 2 2 m.body)))

/-- The command acknowledgement record up to its TAG (R462). -/
def ackBody (cfg : RunCfg) (st : Status) (o : Origin) (m : Cmd) (jsn : Nat) : Bytes :=
  le 1 6 ++ le 1 1 ++ le 1 st.code ++ le 1 o.code ++ le 4 (cfg.sysaddr % 2 ^ 18) ++ le 4 m.target ++ le 2 m.code ++ le 2 0 ++
  le 4 o.key.1 ++ le 4 0 ++ le 8 o.key.2 ++ le 8 jsn

/-- A MGMT_CMD entry commits (R459 to R462). -/
def Com.mgmt (c : Com) (e : Entry) : Com :=
  let m := e.cmd
  let o := c.s.origin e
  let (st, c1) :=
    match cmdLenOk m.code m.blen with
    | none => (Status.unknownCmd, c)
    | some ok =>
      if ok = false ∨ m.whole = false then (.unknownCmd, c)
      else if rosterBad m then (.badParam, c)
      else if o.permits c.s.sec.otp.lc m.code = false then (.notPermitted, c)
      else if bit 17 m.target ≠ cmdSlotV m.code then (.badParam, c)
      else c.command e o m
  c1.sealed 6 (ackBody c.s.cfg st o m e.jsn)

end Sys2Proof.Machine
end

