-- ==== Sys2Proof/Machine/ImageOps.lean ====
section
/-! DEFINITION. The NOR and its two signed images: its parts and the pointer table (R676 to R678), judging configuration images (R679 to R683)
and firmware images (R695, R696), and image transfers over the chain (R700 to R706). -/
namespace Sys2Proof.Machine

/-! ### The NOR -/

/-- An erased byte of the NOR. PRESUMED: 0xFF, as of any NOR flash. -/
def norErased (_ : Nat) : Byte := 0xFF

/-- Bytes of a part of the NOR. -/
def norBytes (m : List (Nat × Byte)) (off n : Nat) : Bytes := (List.range n).map fun i => sget norErased m (off + i)

/-- The bytes of a string that differ from the erased value, from an offset on. -/
def norListed : Nat → Bytes → List (Nat × Byte)
  | _, [] => []
  | off, b :: r => if b = norErased off then norListed (off + 1) r else (off, b) :: norListed (off + 1) r

/-- An image written into a part: every sector of 64 KiB it touches is erased first (R693, R702). -/
def norImage (m : List (Nat × Byte)) (b : Bytes) : List (Nat × Byte) :=
  norListed 0 b ++ m.filter fun p => decide (ceilDiv b.length 65536 * 65536 ≤ p.1)

/-- Bytes of an offset range erased. -/
def norErase (m : List (Nat × Byte)) (lo hi : Nat) : List (Nat × Byte) := m.filter fun p => decide (p.1 < lo) || decide (hi ≤ p.1)

/-- Program bytes from an offset on: a program only clears bits. PRESUMED: as of any NOR flash. -/
def norProgram : List (Nat × Byte) → Nat → Bytes → List (Nat × Byte)
  | m, _, [] => m
  | m, off, b :: r => norProgram (sput norErased m off (sget norErased m off &&& b)) (off + 1) r

/-- Change the NOR. -/
def State.setNor (s : State) (f : Nor → Nor) : State := { s with nor := f s.nor }

/-- Change the firmware, update and recovery state. -/
def State.setBoot (s : State) (f : Boot → Boot) : State := { s with boot := f s.boot }

/-- A firmware slot: 0 A, 1 B (R695). -/
def Nor.slot (n : Nor) (k : Nat) : List (Nat × Byte) := if k = 0 then n.fwA else n.fwB

/-- Write a firmware slot. -/
def Nor.setSlot (n : Nor) (k : Nat) (m : List (Nat × Byte)) : Nor := if k = 0 then { n with fwA := m } else { n with fwB := m }

/-! ### The pointer table (R676 to R678) -/

/-- A copy of the pointer table, when it is valid (R677). -/
def ptOf (copy : Nat) (b : Bytes) : Option PtTable :=
  if fld 0 4 b = 0x4A465054 ∧ fld 4 2 b = 1 ∧ fld 60 4 b = crc32 (b.take 60) then
    some { copy := copy, seq := fld 8 4 b, pref := fld 12 1 b % 2, trial := fld 13 1 b == 1, tries := fld 14 1 b }
  else none

/-- A copy as its 64 bytes (R676). -/
def PtTable.bytes (t : PtTable) : Bytes :=
  let b := le 4 0x4A465054 ++ le 2 1 ++ le 2 0 ++ le 4 t.seq ++ le 1 t.pref ++ le 1 (if t.trial then 1 else 0) ++ le 1 t.tries ++ List.replicate 45 0
  b ++ le 4 (crc32 b)

/-- The copy in force: the valid copy with the higher SEQ (R677). -/
def Nor.inForce (n : Nor) : Option PtTable :=
  match ptOf 0 (norBytes n.pt0 0 64), ptOf 1 (norBytes n.pt1 0 64) with
  | some a, some b => if a.seq < b.seq then some b else some a
  | some a, none => some a
  | none, b => b

/-- PREF as the ROM acts on it (R677). -/
def Nor.pref (n : Nor) : Nat := match n.inForce with | some t => t.pref | none => 0

/-- Write the pointer table into the copy not in force, SEQ one above (R678); with no valid copy, into the first with SEQ 1. -/
def Nor.writePt (n : Nor) (pref : Nat) (trial : Bool) (tries : Nat) : Nor :=
  let t : PtTable := match n.inForce with
    | some o => { copy := 1 - o.copy, seq := o.seq + 1, pref := pref, trial := trial, tries := tries }
    | none => { copy := 0, seq := 1, pref := pref, trial := trial, tries := tries }
  if t.copy = 0 then { n with pt0 := norListed 0 t.bytes } else { n with pt1 := norListed 0 t.bytes }

/-! ### Firmware images (R695, R696) -/

/-- The header checks of a firmware image: 0, or the reason of the first failure (R696). -/
def judgeFwHeader (svn : Nat) (h : Bytes) : Nat :=
  let len := fld 16 4 h
  if fld 0 4 h ≠ 0x4A464657 ∨ fld 4 2 h ≠ 1 then 1
  else if fld 6 2 h ≠ 0x4A46 ∨ fld 8 2 h ≠ 0x8131 then 2
  else if len % 4 ≠ 0 ∨ len < 4 ∨ 2097152 < len ∨ len ≤ fld 20 4 h then 3
  else if 64 < fld 12 4 h ∨ fld 12 4 h < svn then 4
  else if 3 < fld 10 1 h ∨ Config.ecdsaVerify (Config.vendorKey (fld 10 1 h)) (Config.sha256 (h.take 192)) (sub 192 64 h) = false then 5
  else 0

/-- All six checks of a firmware image (R696). -/
def judgeFw (svn : Nat) (h body : Bytes) : Nat :=
  let r := judgeFwHeader svn h
  if r ≠ 0 then r else if Config.sha256 (fit (fld 16 4 h) body) ≠ sub 32 32 h then 6 else 0

/-- The image in a firmware slot: header and body. -/
def Nor.fwImage (n : Nor) (k : Nat) : Bytes × Bytes :=
  let h := norBytes (n.slot k) 0 256
  (h, norBytes (n.slot k) 256 (min 2097152 (fld 16 4 h)))

/-- Judge a firmware slot (R696). -/
def State.judgeSlotFw (s : State) (k : Nat) : Nat := let i := s.nor.fwImage k; judgeFw s.sec.otp.svn i.1 i.2

/-! ### Configuration images (R679 to R683) -/

/-- The sections from a byte string on; none when they are not framed as R683 says. -/
def sectionsOf : Nat → Bytes → Option (List (Nat × Bytes))
  | 0, b => if b.isEmpty then some [] else none
  | n + 1, b =>
    let len := fld 2 4 b
    let all := ceilDiv (6 + len) 4 * 4
    if b.length < all ∨ ((b.take all).drop (6 + len)).any (· ≠ 0) then none
    else (sectionsOf n (b.drop all)).map fun r => (fld 0 2 b, sub 6 len b) :: r

/-- The sections of an image (R679, R683). -/
def cfgSections (img : Bytes) : Option (List (Nat × Bytes)) :=
  if fld 16 2 img ≤ 64 then sectionsOf (fld 16 2 img) ((img.take (fld 8 4 img - 64)).drop 64) else none

/-- A section of an image by its TYPE. -/
def cfgSection (img : Bytes) (ty : Nat) : Option Bytes :=
  match cfgSections img with
  | some l => (l.find? fun x => x.1 == ty).map (·.2)
  | none => none

/-- The image in the configuration slot (R679): LENGTH bytes, at least the header. -/
def Nor.cfgImage (n : Nor) : Bytes := norBytes n.cfg 0 (max 64 (min 1048576 (norBytes n.cfg 8 4 |> leVal)))

/-- Whether a SEC section is met under R521, the operator's key digest aside when the unit is not commissioned. -/
def secOk (o : Otp) (b : Bytes) : Bool :=
  fld 0 1 b == 1 && decide (fld 1 1 b ≤ 32) && decide (b.length = 80 + 112 * fld 1 1 b) &&
    (!o.commissioned || Config.sha256 (sub 16 64 b) == o.opkHash)

/-- The checks on the header of an image alone: 0, 8 or 10 (R679, R681, R706). -/
def judgeCfgHeader (img : Bytes) : Nat :=
  let len := fld 8 4 img
  if fld 0 4 img ≠ 0x4A464349 then 8
  else if len % 4 ≠ 0 ∨ len < 128 ∨ 1048576 < len then 8
  else if fld 4 2 img ≠ 1 then 10
  else 0

/-- Judge an image (R681): 0, or 8 refused, 9 rollback, 10 format change (R706). The signature is checked under the key given, else under the
image's own OPK. -/
def judgeCfg (o : Otp) (floor : Nat) (opk : Option Bytes) (img : Bytes) : Nat :=
  let h := judgeCfgHeader img
  let len := fld 8 4 img
  if h ≠ 0 then h
  else if fld 20 4 img ≠ crc32 ((img.take (len - 64)).drop 64) then 8
  else match cfgSection img 0x0E with
    | none => 8
    | some b =>
      if secOk o b = false then 8
      else if Config.ecdsaVerify (opk.getD (sub 16 64 b)) (Config.sha256 (img.take (len - 64))) (sub (len - 64) 64 img) = false then 8
      else if fld 12 4 img < floor then 9
      else match cfgSections img with
        | some l => if (l.map (·.1)).Nodup then 0 else 8
        | none => 8

/-- The highest CSVN applied, by every copy that can be read (R682). -/
def State.csvnFloor (s : State) : Nat := max (s.reg rOasCsvn) (if s.med.run then s.med.nand.csvn else 0)

/-! ### Image transfers over the chain (R700 to R706) -/

/-- Every block of a transfer has arrived. -/
def Xfer.complete (x : Xfer) : Bool := (List.range (ceilDiv x.total 4096)).all fun i => x.data.any fun p => p.1 == i

/-- The image of a complete transfer. -/
def Xfer.content (x : Xfer) : Bytes :=
  ((List.range (ceilDiv x.total 4096)).flatMap fun i => match x.data.find? fun p => p.1 == i with | some p => p.2 | none => []).take x.total

/-- Judge a whole image of a transfer (R702). -/
def State.judgeXfer (s : State) (x : Xfer) : Nat :=
  if x.kind = 0 then judgeFw s.sec.otp.svn (x.content.take 256) (x.content.drop 256)
  else judgeCfg s.sec.otp s.csvnFloor (some s.sec.opk) x.content

/-- The image-refused event (R706, R709). -/
def State.imageRefused (s : State) (kind reason : Nat) : State := s.event 0x76 (reason + 256 * kind)

/-- Replace the transfer of a kind. -/
def State.putXfer (s : State) (x : Xfer) : State :=
  { s with med := { s.med with nand := { s.med.nand with xfers := (s.med.nand.xfers.filter fun y => y.kind ≠ x.kind) ++ [x] } } }

/-- Discard the transfer of a kind. -/
def State.dropXfer (s : State) (kind : Nat) : State :=
  { s with med := { s.med with nand := { s.med.nand with xfers := s.med.nand.xfers.filter fun y => y.kind ≠ kind } } }

/-- Firmware written into a slot, which becomes the preferred one on trial (R693, R699, R702). -/
def State.installFw (s : State) (k : Nat) (img : Bytes) : State :=
  s.setNor fun n => (n.setSlot k (norImage (n.slot k) img)).writePt k true 3

/-- The last block of a transfer has arrived: judge, and write the NOR (R702); restore processing writes none. -/
def State.finishXfer (s : State) (x : Xfer) (jsn : Nat) : State :=
  let r := s.judgeXfer x
  if r ≠ 0 then (s.dropXfer x.kind).imageRefused x.kind r
  else if s.boot.restoring then s
  else
    let img := x.content
    let s1 := if x.kind = 0 then s.installFw (1 - s.boot.slot) img else s.setNor fun n => { n with cfg := norImage n.cfg img }
    ((s1.setBoot fun b => { b with updDone := some jsn, updHourAt := some s.dev }).event 0x77
      (Machine.fld 12 4 img % 256 + 256 * x.kind))

/-- One journaled IMAGE block (R701, R702). -/
def State.imageBlock (s : State) (b : Bytes) (jsn : Nat) : State :=
  let kind := Machine.fld 0 1 b
  let off := Machine.fld 16 4 b
  let total := Machine.fld 12 4 b
  let data := b.drop 20
  if s.boot.updMode ≠ 1 ∧ s.boot.updMode ≠ 2 then s.imageRefused (kind % 2) 7
  else if 1 < kind ∨ off % 4096 ≠ 0 ∨ total < off + data.length ∨ data = [] ∨ (data.length ≠ 4096 ∧ off + data.length ≠ total) then s
  else
    let start : Xfer := { kind := kind, xid := sub 4 8 b, total := total }
    let cur := (s.med.nand.xfers.find? fun x => x.kind == kind && x.xid == sub 4 8 b)
    match (match cur with | some x => some x | none => if off = 0 then some start else none) with
    | none => s
    | some x =>
      if x.data.any fun p => p.1 == off / 4096 then s
      else
        let r := if off = 0 then (if kind = 0 then judgeFwHeader s.sec.otp.svn (fit 256 data) else judgeCfgHeader data) else 0
        if r ≠ 0 then (s.dropXfer kind).imageRefused kind r
        else
          let y : Xfer := { x with data := x.data ++ [(off / 4096, data)] }
          let s1 := s.putXfer y
          if y.complete then s1.finishXfer y jsn else s1

/-- A tamper alarm aborts an update (R542, R705): the first 4 KiB of the target slot are erased and the transfers discarded. -/
def State.abortUpdate (s : State) : State :=
  let fw := s.med.nand.xfers.any fun x => x.kind == 0 && !x.complete
  let s1 := if fw then s.setNor fun n => n.setSlot (1 - s.boot.slot) (norErase (n.slot (1 - s.boot.slot)) 0 4096) else s
  (s1.dropXfer 0).dropXfer 1

/-- Whether an update is under way (R542, R705). -/
def State.updating (s : State) : Bool := s.med.nand.xfers.any fun x => !x.complete

end Sys2Proof.Machine
end

