-- ==== Sys2Proof/Machine/NetOps.lean ====
section
/-! DEFINITION. Sealed batch protocol datagrams (R450 to R452), the check of received BACK and CMD datagrams (R456, R458, R519,
R552), and what the device port sends (R442, R453). -/
namespace Sys2Proof.Machine

/-- Change the NET block. -/
def State.setNet (s : State) (f : Net → Net) : State := { s with net := f s.net }

/-! ### Datagrams (R450, R451) -/

/-- The 40-byte header of a datagram. -/
structure Dgram where
  dtype   : Nat
  stream  : Nat := 0
  count   : Nat := 0
  sysaddr : Nat
  origin  : Nat := 0
  keyId   : Nat := 0
  ctr     : Nat := 0
  first   : Nat := 0
  blen    : Nat := 0
  session : Nat := 0
  deriving DecidableEq, Repr

/-- MAGIC of a datagram (R450). -/
def dgramMagic : Nat := 0x4A465342

/-- The header as bytes. -/
def Dgram.bytes (d : Dgram) : Bytes :=
  le 4 dgramMagic ++ le 1 d.dtype ++ le 1 1 ++ le 1 d.stream ++ le 1 d.count ++ le 4 (d.sysaddr % 2 ^ 18 + d.origin % 32 * 2 ^ 18) ++
  le 4 d.keyId ++ le 8 d.ctr ++ le 8 d.first ++ le 2 d.blen ++ le 2 0 ++ le 4 d.session

/-- The header of a received datagram; none when MAGIC, VER or the length is wrong. -/
def Dgram.ofBytes (b : Bytes) : Option Dgram :=
  let w := Machine.fld 8 4 b
  let n := Machine.fld 32 2 b
  if 56 ≤ b.length ∧ Machine.fld 0 4 b = dgramMagic ∧ Machine.fld 5 1 b = 1 ∧ n % 4 = 0 ∧ n ≤ 1388 ∧ 56 + n ≤ b.length then
    some { dtype := Machine.fld 4 1 b, stream := Machine.fld 6 1 b, count := Machine.fld 7 1 b, sysaddr := bits 17 0 w,
           origin := bits 22 18 w, keyId := Machine.fld 12 4 b, ctr := Machine.fld 16 8 b, first := Machine.fld 24 8 b, blen := n,
           session := Machine.fld 36 4 b }
  else none

/-- PURPOSE of a KEY_ID (R516). -/
def keyPurpose (id : Nat) : Nat := bits 7 0 id
/-- GEN of a KEY_ID (R516). -/
def keyGen (id : Nat) : Nat := bits 23 8 id
/-- A KEY_ID. -/
def keyIdOf (purpose gen : Nat) : Nat := purpose + gen % 65536 * 256

/-- Open a datagram under a key: the nonce is KEY_ID then CTR, the additional data the header (R451). -/
def openDgram (key : Nat) (b : Bytes) : Option Bytes :=
  Config.gcmOpen key (sub 12 12 b) (b.take 40) (sub 40 (Machine.fld 32 2 b + 16) b)

/-- Seal a datagram under a key (R451). -/
def sealDgram (key : Nat) (d : Dgram) (body : Bytes) : Bytes :=
  let h := ({ d with blen := body.length } : Dgram).bytes
  h ++ Config.gcmSeal key (sub 12 12 h) h body

/-! ### The CTR window (R458, R519) -/

/-- Whether a CTR passes the window. -/
def CtrWindow.passes (w : CtrWindow) (c : Nat) : Bool :=
  if !w.any || decide (w.high < c) then true
  else if c = w.high then false
  else decide (w.high - c ≤ 64) && !(w.mask.getLsbD (w.high - c - 1))

/-- The window after it accepted a CTR. -/
def CtrWindow.accept (w : CtrWindow) (c : Nat) : CtrWindow :=
  if !w.any then { any := true, high := c, mask := 0 }
  else if w.high < c then
    let d := c - w.high
    { w with high := c, mask := if 64 < d then 0 else (w.mask <<< d) ||| (1#64 <<< (d - 1)) }
  else { w with mask := w.mask ||| (1#64 <<< (w.high - c - 1)) }

/-- What the check of a received BACK or CMD came to. -/
inductive Auth where
  | badTag
  | replayed
  | good (plain : Bytes)
  deriving DecidableEq, Repr

/-- Check a received datagram under H2U: the tag, then the window; a higher GEN becomes current with a fresh window (R458, R519). -/
def State.authH2u (s : State) (d : Dgram) (b : Bytes) : Auth × State :=
  let gen := keyGen d.keyId
  if keyPurpose d.keyId ≠ 2 ∨ bits 31 24 d.keyId ≠ 0 ∨ d.sysaddr ≠ s.cfg.sysaddr ∨ gen < s.ctx.h2uGen ∨ s.sysKey = none then (.badTag, s)
  else match openDgram (h2u s.sys s.cfg.sysaddr gen) b with
    | none => (.badTag, s)
    | some p =>
      let w : CtrWindow := if s.ctx.h2uGen < gen then {} else s.ctx.win
      if w.passes d.ctr then (.good p, { s with ctx := { s.ctx with h2uGen := gen, win := w.accept d.ctr } }) else (.replayed, s)

/-- A datagram failed its tag or its window: the counters and NET_IRQ.AUTHFAIL (R469). -/
def State.authFailed (s : State) (replay : Bool) : State :=
  (s.count (if replay then rNetReplay else rNetAuthfail) 1).irq rNetIrq 2

/-! ### Submission of commands (R458, R459) -/

/-- The MGMT_CMD input of an authenticated command. -/
def Unsub.input (u : Unsub) : Input :=
  { kind := .mgmtCmd, stamp := u.stamp, src := cmdSrc (Machine.fld 4 4 u.cmd), payload := mgmtPayload u.src u.cmd }

/-- Whether the MGMT_CMD entry of an authenticated command is in the journal (R459). -/
def State.submitted (s : State) (u : Unsub) : Bool :=
  s.seq.journal.any fun e => e.kind == .mgmtCmd && decide (u.jsn < e.jsn) && e.stamp == u.stamp && e.payload == mgmtPayload u.src u.cmd

/-- Submit an authenticated command: the holder sends it to the sequencer; every unit remembers it until it is journaled (R459). -/
def State.submit (s : State) (u : Unsub) : State :=
  if s.submitted u then s
  else
    let s1 : State := { s with ctx := { s.ctx with unsubmitted := s.ctx.unsubmitted ++ [u] } }
    if s.seq.holder then s1.offer 0 u.input else s1

/-- A holder relays a CMD datagram onto the chain when its SYSADDR is another's that a heartbeat has named (R613). -/
def State.relayCmd (s : State) (d : Dgram) (b : Bytes) : State :=
  if s.sef.driver && decide (d.sysaddr ≠ s.cfg.sysaddr) then
    match s.relayTo d.sysaddr with | some p => s.q8Send 0x0B p.pos b | none => s
  else s

/-- A CMD datagram is checked at its commit (R458, R552, R613). -/
def Com.cmdDatagram (c : Com) (e : Entry) (d : Dgram) (viaSeif : Bool) : Com :=
  let unsub (cmd : Bytes) : Unsub := { jsn := e.jsn, src := if viaSeif then 0 else e.jsn, stamp := e.stamp, cmd := cmd }
  let trim (p : Bytes) : Bytes := p.take (8 + Machine.fld 2 2 p)
  if d.keyId = 0 then
    let p := sub 40 d.blen e.payload
    if d.sysaddr = c.s.cfg.sysaddr ∧ 0xF01 ≤ Machine.fld 0 2 p ∧ Machine.fld 0 2 p ≤ 0xF05 then c.upd fun s => s.submit (unsub (trim p))
    else (c.upd fun s => (s.authFailed false).relayCmd d e.payload).event 0x16 0
  else match c.s.authH2u d e.payload with
    | (.good p, s1) => { c with s := s1.submit (unsub (trim p)) }
    | (.badTag, _) => (c.upd fun s => (s.authFailed false).relayCmd d e.payload).event 0x16 0
    | (.replayed, _) => (c.upd fun s => s.authFailed true).event 0x16 1

/-- The stream outputs of entries below a JSN that have not yet entered the stream. -/
def State.streamBelow (s : State) (cut : Nat) : Nat :=
  (s.erg.outq.filter fun o => o.dest == .stream && decide (o.ojsn < cut)).length

/-- A BACK moves an acknowledged mark: the sender's window and the resend timer follow it (R453, R455, R456). The next RSN
counts the outputs of lower entries that replay or a standby has yet to release, so that the check comes out as it did on the holder. A BACK above the next RSN
leaves the mark as it is; its CTR, which authenticated, has entered the window. DEDUCED. -/
def Com.back (c : Com) (e : Entry) (d : Dgram) : Com :=
  match c.s.authH2u d e.payload with
  | (.good _, s1) =>
    if d.stream = 1 then
      { c with s := if d.session = s1.net.session then
                      s1.setNet fun n =>
                        let mark := max n.diagAck (min d.first n.esn)
                        { n with diagAck := mark, diag := n.diag.filter (fun r => decide (mark ≤ r.esn)), diagSent := max n.diagSent mark,
                                 sentDiag := n.sentDiag.filter (fun b => decide (mark < b.first + b.count)),
                                 rtoDiag := if n.diagAck < mark then s1.t else n.rtoDiag }
                    else s1 }
    else if s1.ctx.nextRsn + s1.streamBelow e.jsn < d.first then ({ c with s := s1 } : Com).event 0x15 0
    else
      let mark := max s1.ctx.acked d.first
      let moved := decide (s1.ctx.acked < mark)
      let s2 : State := { s1 with ctx := { s1.ctx with acked := mark }, obox := s1.obox.filter fun r => decide (mark ≤ r.rsn) }
      { c with s := s2.setNet fun n => { n with sent := n.sent.filter fun b => decide (mark < b.first + b.count), sentTo := max n.sentTo mark,
                                                rtoFrom := if moved then s2.t else n.rtoFrom } }
  | (.badTag, _) => c.upd fun s => s.authFailed false
  | (.replayed, _) => c.upd fun s => s.authFailed true

/-! ### What the device port sends -/

/-- The device port transmits: NET runs, the unit holds the token or is in alarm hold, TX_INH is 0 (R442, R544). -/
def State.netTx (s : State) : Bool := s.bitOf rNetCtl 0 && (s.sef.driver || s.pow.phase == .alarmHold) && !s.bitOf rNetCtl 8

/-- Whether port A or B is in use: enabled, with its link up (R439). -/
def State.portUp (s : State) (n : Nat) : Bool :=
  s.bitOf rNetCtl 0 && s.bitOf rNetCtl (1 + n) && (match s.net.ports[n]? with | some p => p.up | none => false)

/-- Whether the egress of port A or B is paused (R466). -/
def State.portPaused (s : State) (n : Nat) : Bool := match s.net.ports[n]? with | some p => decide (s.t < p.pausedUntil) | none => false

/-- The device port is paused while an egress it sends through is (R466). -/
def State.devPaused (s : State) : Bool := (List.range 2).any fun n => s.portUp n && s.portPaused n

/-- The head address of the NET section and its port (R453, R467). -/
def State.headAddr (s : State) : Nat × Nat :=
  (if s.cfg.net.headIp6.all (· == 0) then beVal s.cfg.net.headIp4 else beVal s.cfg.net.headIp6, s.fld rNetUdp 31 16)

/-- Change port A or B. -/
def State.setPort (s : State) (n : Nat) (f : NetPort → NetPort) : State :=
  s.setNet fun x => { x with ports := match x.ports[n]? with | some p => x.ports.set n (f p) | none => x.ports }

/-- The device port takes the datagrams that wait in Q6, while it may transmit and is not paused (R442, R453, R466). A packet of TYPE 1 goes to
the head address; one of TYPE 0 names an address of 16 bytes and a port. -/
def State.q6Drain : Nat → State → State
  | 0, s => s
  | n + 1, s =>
    if s.netTx && !s.devPaused then
      match s.ringTake 6 with
      | (.packet _ ty ws, s1) =>
        let b := ofWs ws
        let len := Machine.fld 0 4 b
        let e : Emission := if ty = 1 then .udp s1.headAddr.1 s1.headAddr.2 (sub 4 len b)
          else .udp (Machine.fld 4 16 b) (Machine.fld 20 4 b) (sub 24 len b)
        State.q6Drain n ((s1.emit e).ringDrain 6)
      | _ => s
    else s

/-- A datagram goes to the device port through Q6: to the head address (TYPE 1) or to an address and a port (TYPE 0). DESIGN CHOICE: the spec
gives Q6 no packet layout. -/
def State.sendDgram (s : State) (dst : Option (Nat × Nat)) (b : Bytes) : State :=
  let ws := match dst with
    | none => BitVec.ofNat 32 b.length :: toWs b
    | some d => BitVec.ofNat 32 b.length :: (toWords 4 (le 16 d.1) ++ toWords 1 (le 4 d.2) ++ toWs b)
  State.q6Drain 64 (s.ringPacket 6 (if dst.isNone then 1 else 0) ws)

/-- The next counter of U2H, and the state with it used; at the limit GEN advances and CTR starts again at 1 (R518, R526). -/
def State.u2hNext (s : State) : (Nat × Nat) × State :=
  let c := s.sec.u2hCtr + 1
  if s.reg rKeyGcmlim < c then
    let g := s.sec.u2hGen + 1
    ((g, 1), ({ s with sec := { s.sec with u2hGen := g, u2hCtr := 1, u2hMark := 0 } } : State).count rCphExhcnt 1 |>.irq rCphIrq 0)
  else ((s.sec.u2hGen, c), { s with sec := { s.sec with u2hCtr := c, u2hMark := if c % 65536 = 0 then c else s.sec.u2hMark } })

/-! ### The diagnostic stream (R455) -/

/-- A record joins the diagnostic stream. -/
def State.diagRecord (s : State) (rtype : Nat) (b : Bytes) : State :=
  s.setNet fun n => { n with diag := n.diag ++ [{ esn := n.esn, rtype := rtype, bytes := b }], esn := n.esn + 1 }

/-- The diagnostic stream starts a new session: at every start and every time the unit takes the token (R455). -/
def State.newSession (s : State) : State :=
  s.setNet fun n => { n with session := n.session + 1, esn := 0, diag := [], diagSent := 0, diagMax := 0, diagAck := 0, sentDiag := [] }

end Sys2Proof.Machine
end

