-- ==== Sys2Proof/Machine/HeadOps.lean ====
section
/-! DEFINITION. The head role: batches taken under NEXT and split into child tasks (R111, R454, R455, R463), second-level
validation and head accumulation (R205 to R207, R259), and field results (R291). -/
namespace Sys2Proof.Machine

/-- The records of a BATCH body: RTYPE and bytes, each after its 4-byte prefix (R452). -/
def batchRecords : Nat → Bytes → List (Nat × Bytes)
  | 0, _ => []
  | n + 1, b =>
    if b.length < 4 then []
    else
      let len := Machine.fld 0 2 b
      (Machine.fld 2 1 b, sub 4 len b) :: batchRecords n (b.drop (4 + ceilDiv len 4 * 4))

/-- The FREF entry a balance result matches (R268). -/
def RunCfg.fref (c : RunCfg) (sysaddr field : Nat) : Option Nat :=
  match c.balance with
  | some b => (b.frefs.find? fun f => f.sysaddr == sysaddr && f.field == field).map (·.head)
  | none => none

/-- The task key of a record of a batch (R463). -/
def State.childKey (s : State) (rtype : Nat) (r : Bytes) : Key :=
  if rtype = 1 then (match s.findEui (fldB 16 8 r) with | some i => .slot i | none => .sys 4)
  else if rtype = 7 then
    (match s.ctx.provs.find? fun p => p.1 == Machine.fld 4 4 r % 2 ^ 18 && p.2.1 == Machine.fld 8 4 r with | some p => .slot p.2.2 | none => .sys 7)
  else if rtype = 4 then
    (match s.cfg.fref (Machine.fld 4 4 r % 2 ^ 18) (Machine.fld 8 2 r % 4096) with | some g => .group g | none => .sys 7)
  else .sys 7

/-- Queue a child task at its place in JSN order (R111, R114). -/
def State.enqueueChild (s : State) (t : Task) : State :=
  match s.keyQ t.key with
  | none => s.enqueue t
  | some _ =>
    let ins (q : KeyQ) : KeyQ :=
      { q with tasks := q.tasks.filter (fun x => decide (x.jsn ≤ t.jsn)) ++ { t with since := s.t } ::
                          q.tasks.filter fun x => decide (t.jsn < x.jsn) }
    { s with erg := { s.erg with keys := s.erg.keys.map fun q => if q.key == t.key then ins q else q } }

/-- NEXT of a source (R454, R455). -/
def Ctx.nextOf (c : Ctx) (sysaddr origin : Nat) (diag : Bool) : NextFor :=
  (c.nextFor.find? fun n => n.sysaddr == sysaddr && n.diag == diag && (n.origin == origin || !diag)).getD
    { sysaddr := sysaddr, origin := origin, diag := diag }

/-- Write NEXT of a source. -/
def Ctx.setNext (c : Ctx) (n : NextFor) : Ctx :=
  { c with nextFor := (c.nextFor.filter fun x => !(x.sysaddr == n.sysaddr && x.diag == n.diag && (x.origin == n.origin || !n.diag))) ++ [n] }

/-- A BACK for a batch waits for the batch to be durable (R464); it goes to the batch's source address and port (R454). -/
def State.owe (s : State) (e : Entry) (d : Dgram) (next : Nat) : State :=
  let mine (x : NetSrc) : Bool := x.stamp == e.stamp && x.head == e.payload.take 24
  s.setNet fun n =>
    { n with backs := n.backs ++ [{ jsn := e.jsn, sysaddr := d.sysaddr, diag := d.stream == 1, session := d.session, first := next,
                                    dst := (n.srcs.find? mine).map fun x => (x.addr, x.port) }],
             srcs := n.srcs.filter fun x => !mine x }

/-- An authenticated BATCH of the release stream (R111, R454, R463): its records become child tasks, once descriptors for them are free (R117). -/
def Com.takeBatch (c : Com) (e : Entry) (d : Dgram) (body : Bytes) : Com :=
  let n := c.s.ctx.nextOf d.sysaddr 0 false
  let recs := ((batchRecords d.count body).zipIdx.filter fun p => decide (n.next ≤ d.first + p.2))
  let take := decide (d.first ≤ n.next) && decide (n.next < d.first + d.count)
  let next := if take then d.first + d.count else n.next
  let c1 := c.ctx fun k => k.setNext { n with next := next }
  let c2 := c1.upd fun s => s.owe e d next
  if take && decide (poolSize < c.s.tasksUsed + recs.length) then { c with wait := some .descriptors }
  else if take then
    recs.foldl (fun a p => a.upd fun s =>
      s.enqueueChild { jsn := e.jsn, key := s.childKey p.1.1 p.1.2, entry := e, work := .child p.1.2 p.1.1 p.2 }) c2
  else c2

/-- An authenticated BATCH of a diagnostic stream goes into the head unit's own (R455, R463). -/
def Com.takeDiag (c : Com) (e : Entry) (d : Dgram) (body : Bytes) : Com :=
  let n0 := c.s.ctx.nextOf d.sysaddr d.origin true
  if d.session < n0.session then c
  else
    let n : NextFor := if n0.session < d.session then { n0 with session := d.session, next := 0 } else n0
    let take := decide (d.first ≤ n.next) && decide (n.next < d.first + d.count)
    let next := if take then d.first + d.count else n.next
    let recs := ((batchRecords d.count body).zipIdx.filter fun p => decide (n.next ≤ d.first + p.2))
    let c1 := (c.ctx fun k => k.setNext { n with next := next }).upd fun s => s.owe e d next
    if take then recs.foldl (fun a p => a.upd fun s => s.diagRecord p.1.1 p.1.2) c1 else c1

/-- A NET_PKT commits: BACK and CMD in either role, BATCH in the head role (R456, R458, R463). -/
def Com.netPkt (c : Com) (e : Entry) : Com :=
  match Dgram.ofBytes e.payload with
  | none => c
  | some d =>
    if d.dtype = 2 then c.back e d
    else if d.dtype = 3 then c.cmdDatagram e d false
    else if d.dtype = 1 ∧ c.s.cfg.role = .head then
      match (if keyPurpose d.keyId = 1 ∧ c.s.sysKey ≠ none then openDgram (u2h c.s.sys d.sysaddr d.origin (keyGen d.keyId)) e.payload else none) with
      | none => (c.upd fun s => s.authFailed false).event 0x1A d.sysaddr
      | some body => if d.stream = 1 then c.takeDiag e d body else c.takeBatch e d body
    else c

/-- Whether a SEIF_FRAME carries a CMD datagram; otherwise it is an IMAGE body (R612). -/
def isSeifCmd (payload : Bytes) : Bool := match Dgram.ofBytes payload with | some d => d.dtype == 3 | none => false

/-- A SEIF_FRAME commits: a CMD is checked as one of the backhaul (R613); an IMAGE block joins its transfer (R701). -/
def Com.seifFrame (c : Com) (e : Entry) : Com :=
  match Dgram.ofBytes e.payload with
  | some d => if d.dtype = 3 then c.cmdDatagram e d true else c.upd fun s => s.imageBlock e.payload c.jsn
  | none => c.upd fun s => s.imageBlock e.payload c.jsn

/-! ### Child tasks -/

/-- Seal a field record again under the head unit's key (R207). -/
def State.reseal (s : State) (r : Bytes) (slvFail : Bool) : Bytes :=
  let fl := Machine.fld 2 2 r
  let body := r.take 2 ++ le 2 (if slvFail && !(bit 14 fl) then fl + 2 ^ 14 else fl) ++ (r.take 56).drop 4
  body ++ s.tag body

/-- Whether a record's TAG is that of the system address it names (R205, R209). -/
def State.tagOk (s : State) (n : Nat) (r : Bytes) : Bool :=
  match s.sysKey with
  | some k => tag64 (rskOf k (Machine.fld 4 4 r % 2 ^ 18)) (r.take n) == sub n 8 r
  | none => false

/-- Whether a record fails the second-level checks of its head slot (R206). -/
def slvFails (x : Slot) (ce : ClassEnt) (r : Bytes) : Bool :=
  let fl := Machine.fld 2 2 r
  let seq : BitVec 32 := BitVec.ofNat 32 (Machine.fld 12 4 r)
  let d := serialDiff seq x.lastSeq
  decide (d ≤ 0) || (decide (Machine.fld 32 6 r < x.li.index) && !(bit 8 fl) && !(bit 9 fl)) ||
    decide ((ce.maxStep : Int) * d < (if ce.level then fldI 40 4 r else (Machine.fld 40 4 r : Int)))

/-- A reading record of the field reaches its head slot (R205 to R207, R259, R291, R463). -/
def Com.headReading (c : Com) (i : Nat) (e : Entry) (r : Bytes) : Com :=
  let seq := Machine.fld 12 4 r
  let fl := Machine.fld 2 2 r
  let kind := Machine.fld 1 1 r
  if c.s.tagOk 56 r = false then c.event 0x0A seq (some i)
  else if bit 0 fl then
    (c.ctx fun k => { k with provs := (k.provs.filter fun p => !(p.1 == Machine.fld 4 4 r % 2 ^ 18 && p.2.1 == Machine.fld 8 4 r)) ++
                                        [(Machine.fld 4 4 r % 2 ^ 18, Machine.fld 8 4 r, i)] }).out 1 (c.s.reseal r false)
  else
    let x := c.slot i
    let ce := c.s.classEnt x.cls
    let (fresh, y) := if kind = 2 then (true, x) else dupCheck x (BitVec.ofNat 32 seq)
    if fresh = false then c
    else
      let bad := slvFails x ce r
      let y1 : Slot := if kind = 2 ∨ ce.level then y
        else { y with li := { index := Machine.fld 32 6 r, valid := true, estimated := bit 1 fl, rollover := bit 8 fl } }
      let c1 := c.setSlot i y1
      let c2 := if bad then c1.event 0x0B seq (some i) else c1
      let band := Machine.fld 52 1 r % 8
      let c3 := if ce.level then c2 else (c2.accAdd i (2 * band) (Machine.fld 40 4 r)).accAdd i (2 * band + 1) (Machine.fld 44 4 r)
      let stamp := Machine.fld 24 8 r
      let t : Ent := { eff := c.jsn, stamp := stamp, flags := e.flags }
      let noVal := bit 7 fl || bit 9 fl || bit 10 fl || bit 11 fl || bit 13 fl
      let b := secOf stamp
      let c4 := if kind = 2 then c3
        else c3.slotContrib i (if noVal then 0 else Machine.fld 40 4 r) (Machine.fld 44 4 r) (b - y1.wakeS) b (!noVal) t
      let c5 := if kind = 0 ∧ Machine.fld 53 1 r ≠ 0 then c4.tamperRead i b t else c4
      c5.out 1 (c5.s.reseal r bad)

/-- A field balance result contributes to its head group (R265, R274, R283, R291). -/
def Com.headResult (c : Com) (g : Nat) (e : Entry) (r : Bytes) : Com :=
  let id := (Machine.fld 4 4 r % 2 ^ 18, Machine.fld 8 2 r % 4096, Machine.fld 16 8 r)
  let a := c.s.ctx.group g
  if c.s.tagOk 184 r = false ∨ a.taken.contains id then c
  else
    let v := fldI 40 8 r
    let t0 := secOf (Machine.fld 16 8 r)
    let fl := Machine.fld 2 2 r
    let t : Ent := { eff := c.jsn, stamp := Machine.fld 24 8 r, flags := e.flags }
    let cover := match c.s.cfg.group g with
      | some x => Machine.fld 12 2 r == x.len && !bit 0 fl && Machine.fld 16 8 r == secOfStd c.s.cfg (cellOf c.s.cfg x t0) * second
      | none => false
    (c.ctx fun k => k.setGroup { a with taken := a.taken ++ [id] }).contribute g { supply := true, phase := 3, cover := cover } v.toNat (-v).toNat t0
      (t0 + Machine.fld 12 2 r * 60) t

/-- A child task of an ingested batch (R463). -/
def Com.child (c : Com) (e : Entry) (rtype : Nat) (r : Bytes) : Com :=
  match c.key with
  | .slot i => if rtype = 1 then c.headReading i e r else c.out rtype r
  | .group g => c.headResult g e r
  | .sys 4 => if rtype = 1 ∧ c.s.tagOk 56 r = false then c.event 0x0A (Machine.fld 12 4 r) else c.event 0x01 (Machine.fld 8 4 r % 131072 + 1)
  | .sys _ => c.out rtype r

end Sys2Proof.Machine
end

