-- ==== Sys2Proof/Machine/EventLog.lean ====
section
/-! DEFINITION. The event log (R589 to R596): storing records in the circular log, folding repeats, and the cursors. -/
namespace Sys2Proof.Machine

/-- Bytes the log holds. -/
def Evr.used (e : Evr) : Nat := (e.log.map fun r => r.bytes.length).foldl (· + ·) 0

/-- Log number of the oldest record: EVR_FIRST (R600). -/
def Evr.first (e : Evr) : Nat := match e.log with | r :: _ => r.no | [] => e.next

/-- Discard the oldest records until `n` more bytes fit (R594): the log, and how many were discarded. -/
def Evr.makeRoom (n : Nat) : Nat → Evr → Evr × Nat
  | 0, e => (e, 0)
  | k + 1, e =>
    if e.used + n ≤ e.capBytes then (e, 0)
    else match e.log with
      | [] => (e, 0)
      | _ :: r => let x := Evr.makeRoom n k { e with log := r }; (x.1, x.2 + 1)

/-- Store a record under the next log number (R594). -/
def State.logRecord (s : State) (b : Bytes) : State :=
  let (e, lost) := Evr.makeRoom b.length s.evr.log.length s.evr
  if e.capBytes < b.length then s
  else
    let e1 : Evr := { e with log := e.log ++ [{ no := e.next, bytes := b }], next := e.next + 1, lost := satAdd 0xFFFFFFFF e.lost lost,
                             wrapped := e.wrapped || decide (0 < lost) }
    let s1 : State := { s with evr := e1 }
    if lost = 0 then s1 else s1.irq rEvrIrq 0

/-- The short form of a fold (R590). -/
def State.shortForm (s : State) (f : Fold) : Bytes :=
  le 1 8 ++ le 1 8 ++ le 1 f.cls ++ le 1 (flag 1 s.seq.unsure + flag 2 s.seq.regressed + Config.severity f.cls % 4 * 8) ++
    le 4 (f.count % 2 ^ 24 + min 255 ((f.last - f.start) / second) * 2 ^ 24)

/-- Close the fold in progress, storing its repeat record when anything was folded (R590). -/
def State.closeFold (s : State) : State :=
  match s.evr.fold with
  | none => s
  | some f =>
    let s1 : State := { s with evr := { s.evr with fold := none } }
    if f.count = 0 then s1 else (s1.logRecord (s.shortForm f)).diagRecord 8 (s.shortForm f)

/-- A record of a deterministic class enters the log when it is released (R592). -/
def State.logReleased (s : State) (b : Bytes) : State := if s.bitOf rEvrCtl 0 then s.closeFold.logRecord b else s

/-- A sealed record of another class enters the log and the diagnostic stream, or is folded (R590, R592). -/
def State.recordEvent (s : State) (cls : Nat) (b : Bytes) : State :=
  let subj := Machine.fld 12 4 b % 2 ^ 18
  let win := s.evr.repeatS * second
  let fresh : State :=
    let s1 := (s.closeFold.logRecord b).diagRecord 8 b
    if s.evr.repeatS = 0 then s1
    else { s1 with evr := { s1.evr with fold := some { cls := cls, subj := subj, start := s.t, last := s.t, count := 0 } } }
  match s.evr.fold with
  | some f =>
    if f.cls = cls ∧ f.subj = subj ∧ s.t ≤ f.start + win then
      { s with evr := { s.evr with fold := some { f with last := s.t, count := f.count + 1 } } }
    else fresh
  | none => fresh

/-- An event recorded at once, before a reset that would empty Q14. -/
def State.eventNow (s : State) (cls arg : Nat) : State :=
  if s.bitOf rEvrCtl 0 then
    let b := eventBody cls arg s.cfg.sysaddr 0 (subjWord none 0) s.dev 0 s.seq.unsure s.seq.regressed (!s.sealed) []
    s.recordEvent cls (b ++ s.tag b)
  else s

/-! ### Cursors (R595) -/

/-- A reader's cursor as it stands: on the oldest record when its own has been discarded. -/
def State.cursor (s : State) (w : Who) : Cursor :=
  let c := s.evr.cur.at w
  if c.no < s.evr.first then { no := s.evr.first, word := 0 } else c

/-- The record at a cursor. -/
def Evr.recAt (e : Evr) (c : Cursor) : Option LogRec := e.log.find? fun r => r.no == c.no

/-- Words left in the reader's current record: EVR_STAT.LEFT (R600). -/
def State.evrLeft (s : State) (w : Who) : Nat :=
  match s.evr.recAt (s.cursor w) with | some r => r.bytes.length / 4 - (s.cursor w).word | none => 0

/-- Place a reader's cursor. -/
def State.setCursor (s : State) (w : Who) (c : Cursor) : State := { s with evr := { s.evr with cur := s.evr.cur.put w c } }

/-- A read of EVR_REWIND (R595): EVR_FIRST, and the cursor on the oldest record. -/
def State.evrRewind (s : State) (w : Who) : Word × State :=
  (BitVec.ofNat 32 s.evr.first, s.setCursor w { no := s.evr.first, word := 0 })

/-- A read of EVR_WIN (R595): the next word at the cursor, or the idle item at EVR_NEXT; after a record's last word the cursor is on the
next record. -/
def State.evrWin (s : State) (w : Who) : Word × State :=
  let c := s.cursor w
  match s.evr.recAt c with
  | none => (0xF0000000#32, s.setCursor w c)
  | some r =>
    (BitVec.ofNat 32 (Machine.fld (4 * c.word) 4 r.bytes),
     s.setCursor w (if 4 * (c.word + 1) < r.bytes.length then { c with word := c.word + 1 } else { no := c.no + 1, word := 0 }))

end Sys2Proof.Machine
end

