-- ==== Sys2Proof/Machine/CommitOps.lean ====
section
/-! DEFINITION. The commit of a task under its key (R126, R127), the period-close sweep (R245 to R250), and the tasks of the system
keys (R110). -/
namespace Sys2Proof.Machine

/-! ### Draws (R43 to R45, R536, R538) -/

/-- Draw `n` journaled bytes for a consumer tag: the data wrapped under JKEK, journaled as DRBG_DRAW of the slot that asks or of none (R36, R43, R45, R536); every
65,536 generate calls the DRBG reseeds (R538). -/
def State.journalDraw (s : State) (tag n : Nat) : State :=
  let src : Src := if bits 30 24 tag = 0x42 then { slot := bits 16 0 tag, slotV := true } else {}
  let data := fit n (s.wrapJ (Config.drbg s.sec.drbg (n - 8)))
  let calls := s.sec.calls + 1
  let s1 : State := { s with sec := { s.sec with drbg := s.sec.drbg + 1, calls := if 65536 ≤ calls then 0 else calls } }
  let s2 := if 65536 ≤ calls then s1.count rCphReseed 1 else s1
  s2.append .drbgDraw .normal src s2.dev (s2.inputFlags s2.dev) (le 4 tag ++ data)

/-- Whether draws are served: the health tests pass, the sequencer may journal, and a descriptor is free (R34, R117, R539). -/
def State.drawsServed (s : State) : Bool := s.bitOf rCphTrng 0 && s.seq.holder && decide (s.tasksUsed < poolSize)

/-! ### The period-close sweep (R245 to R247) -/

/-- Apply the pending fences of slot `i` up to and including a BND_PERIOD, then sign its stage entry (R245, R247) under the SIGK generation in force at
the BND_PERIOD, whose number the record carries (R251, R517). -/
def Com.sweepSlot (x : Close) (gen : Nat) (seed : Bytes) (acc : Com × Nat × Bytes) (i : Nat) : Com × Nat × Bytes :=
  let (c, closed, recs) := acc
  let c1 := (c.applyFences i (x.jsn + 1)).upd fun s => s.releaseParks i
  match c1.s.ctx.stage.find? fun g => g.epoch == x.subj && g.slot == i with
  | some { body := some b0, .. } =>
    let b := overwrite b0 120 (le 4 gen)
    let r := b ++ c1.s.signWith gen seed i b
    ((c1.upd fun s => s.count rCphSigcnt 1).out 2 r, closed + 1, recs ++ r)
  | _ => (c1, closed, recs)

/-- The slots of a sweep step that are not FREE zeros. -/
def State.sweepSlots (s : State) (n : Nat) : List Nat := (s.ctx.slots.map (·.1)).filter fun i => decide (n ≤ i) && decide (i < n + 256)

/-- One step of the sweep under the JSN of the CLOSE_CURSOR that follows it; in the last step the readout and the completion of
the close (R245, R246). -/
def Com.sweepStep (c : Com) (x : Close) (seed : Bytes) (curJsn curStamp : Nat) : Com :=
  let n := x.cursor
  let gen := c.s.ctx.sigGenAt x.jsn
  let (c1, closed, recs) := (c.s.sweepSlots n).foldl (Com.sweepSlot x gen seed) (c, x.closed, x.recs)
  let next := n + 256
  let c2 := if x.started then c1 else c1.upd fun s => s.irq rBilIrq 0
  if next < slotCount then
    c2.ctx fun k => { k with closes := k.closes.map fun y =>
      if y.subj == x.subj then { y with cursor := next, closed := closed, recs := recs, started := true, draw := none } else y }
  else
    let c3 := c2.feederFences (x.jsn + 1)
    let cap : FeederCap := (c3.s.ctx.caps.find? fun f => f.period == x.subj).getD { period := x.subj }
    let body := readoutBody c3.s.cfg c3.s.feederActive (c3.s.ctx.roUnsure cap) 0 x.subj closed x.stamp x.jsn gen cap (Config.sha256 recs)
    let c4 := (c3.upd fun s => s.count rCphSigcnt 1).out 3 (body ++ c3.s.signWith gen seed 131072 body)
    let c5 := c4.ctx fun k =>
      { k with epoch := x.subj + 1, closes := k.closes.filter fun y => y.subj ≠ x.subj, closeLast := closed, lastRo := max k.lastRo x.jsn,
               stage := k.stage.filter fun g => g.epoch ≠ x.subj, caps := k.caps.filter fun f => f.period ≠ x.subj }
    (({ c5 with jsn := curJsn, stamp := curStamp } : Com).upd fun s => s.irq rBilIrq 1).event 0x0D x.subj

/-- The sweep of a period is done when its close is: its task commits (R114, R246). -/
def State.endSweep (s : State) (subj : Nat) : State :=
  match s.headTask (.sys 6) with
  | some t => if t.work = .sweep subj ∧ (s.ctx.closes.all fun x => x.subj ≠ subj) = true then s.dropHead (.sys 6) else s
  | none => s

/-- A commit of the CLOSE task's step, its outputs ordered under a CLOSE_CURSOR (R245, R445). -/
def State.sweepCom (s : State) (x : Close) (curJsn : Nat) : Com :=
  { s := s, key := .sys 6, jsn := x.jsn, ojsn := curJsn, dep := max x.jsn (match x.draw with | some (j, _) => j | none => 0), stamp := x.stamp }

/-- One sweep step on the holder: read the slots (R172), sign, hand over, journal the CLOSE_CURSOR, and let a held period go (R242, R245). DESIGN CHOICE:
the step waits while the fault bit of one of its slots is set, as the slot's tasks do. -/
def State.closeStep (s0 : State) (x : Close) (seed : Bytes) : Option State :=
  let s := (s0.sweepSlots x.cursor).foldl State.scrub s0
  if (s.sweepSlots x.cursor).any fun i => (s.slot i).fault then none
  else
    let c := (s.sweepCom x s.seq.nextJsn).sweepStep x seed s.seq.nextJsn s.dev
    if c.roomForOuts then
      let s1 := c.finish.journalOwn .closeCursor (le 4 x.subj ++ le 4 (x.cursor + 256))
      some ((s1.endSweep x.subj).poolCheck).leaveDunes.releaseHeldPeriod
    else none

/-! ### The system tasks -/

/-- A MODE 3 output is programmed by a boundary entry of an enabled kind (R494, R495). -/
def Com.programOutputs (c : Com) (e : Entry) : Com :=
  (List.range 8).foldl (fun a n =>
    let cfg := a.s.reg (rTimCtlcfg n)
    let on := match e.kind with
      | .bndDemand => bit 3 cfg
      | .bndTariff => bit 4 cfg && bit (8 + bits 7 4 (fld 0 4 e.payload)) cfg
      | .bndPeriod => bit 5 cfg
      | _ => false
    if bits 1 0 cfg = 3 && on then a.out n (le 8 (e.stamp + msU (a.s.reg (rTimCtldelay n)))) .ctl else a) c

/-- The CAL task (R110): boundary entries, TIME_SET, TIME_STATE and CLOSE_NOW. -/
def Com.cal (c : Com) (e : Entry) : Com :=
  match e.kind with
  | .bndDemand | .bndTariff => c.programOutputs e
  | .bndPeriod =>
    let subj := fld 0 4 e.payload
    let c1 := c.programOutputs e
    c1.ctx fun k =>
      { k with openPer := subj + 1,
               closes := k.closes ++ [{ subj := subj, jsn := e.jsn, stamp := e.stamp }],
               closeNow := match k.closeNow with | some w => if w.instant = some e.stamp then none else some w | none => none }
  | .timeState =>
    if fld 0 1 e.payload = 1 then
      c.ctx fun k =>
        { k with closeNow := match k.closeNow with
                  | some { jsn := j, instant := none } => some { jsn := j, instant := some (minuteAtOrAfter c.s.cfg (e.stamp + second)) }
                  | w => w }
    else c
  | .mgmtCmd => c.mgmt e
  | _ => c

/-- The FEEDER task (R314). -/
def Com.feederTask (c : Com) (e : Entry) : Com :=
  let c1 := c.feederFences c.jsn
  let c2 := match e.kind with
    | .mtrBlock => c1.feederBlock e
    | .mtrEvent => c1.feederEvent e
    | .mgmtCmd => c1.mgmt e
    | _ => c1
  c2.feeder fun a => { a with lastJsn := c.jsn }

/-- ORDERLY of an outage: the journal holds a SUP_WARN after the previous START and before this SUP_RESTORE, with no SUP_DIP after
it (R672). -/
def orderly (j : List Entry) (jsn : Nat) : Bool :=
  let before := j.filter fun e => decide (e.jsn < jsn)
  let starts := before.filter fun e => e.kind == .start
  let cur := match starts.getLast? with | some e => e.jsn | none => 0
  let prev := match (starts.filter fun e => decide (e.jsn < cur)).getLast? with | some e => e.jsn | none => 0
  match (before.filter fun e => decide (prev < e.jsn) && (e.kind == .supWarn || e.kind == .supDip)).getLast? with
  | some e => e.kind == .supWarn
  | none => false

/-- The SUPPLY task (R660, R672). -/
def Com.supply (c : Com) (e : Entry) : Com :=
  match e.kind with
  | .supDip => c.event 0x20 (fld 0 4 e.payload)
  | .supRestore =>
    if e.flags.timeUnsure then c.event 0x21 0
    else c.event 0x21 (min (2 ^ 31 - 1) ((e.stamp - fld 0 8 e.payload) / second) + flag 31 (orderly c.s.seq.journal e.jsn))
  | _ => c

/-- The NOTE task (R33, R37, R161, R164). -/
def Com.noteTask (c : Com) (e : Entry) : Com :=
  match e.kind with
  | .ringLoss => c.event 0x04 (fld 0 4 e.payload)
  | _ =>
    match e.cls with
    | .orphan => c.event 0x01 e.frame.src
    | .capacity => c.event 0x02 0
    | .trunc => c.event 0x03 e.flags.ring
    | _ => c

/-- The CAPTURE task (R502). -/
def Com.captureTask (c : Com) (e : Entry) : Com :=
  let n := fld 0 1 e.payload % 4
  (c.upd fun s => (s.setReg (rTimEvtlastLo n) (e.stamp % 2 ^ 32)).setReg (rTimEvtlastHi n) (e.stamp / 2 ^ 32)).event 0x17
    (n + flag 8 (fld 1 1 e.payload == 1))

/-- Whether the local standard hour of a stamp is UPD_HOUR, or UPD_HOUR is 255 (R704). -/
def State.inUpdHour (s : State) (stamp : Nat) : Bool :=
  s.boot.updHour == 255 || (stdSec s.cfg (secOf stamp) % 86400 / 3600).toNat == s.boot.updHour

/-- Whether a CKPT entry is the one at whose commit a stored image makes the unit restart (R704). -/
def State.restartsAt (s : State) (e : Entry) : Bool :=
  s.boot.updMode == 2 && (match s.boot.updDone with | some j => decide (j < e.jsn) | none => false) && !s.boot.restoring &&
    !e.flags.timeUnsure && s.inUpdHour e.stamp

/-- The MARK task: the CKPT entry that an update restart waits for (R704); a CLOSE_CURSOR whose step this unit has not made is made now, with the journaled draw (R249, R621). -/
def Com.markTask (c : Com) (e : Entry) : Com :=
  match e.kind with
  | .closeCursor =>
    match c.s.ctx.closes.find? fun x => x.subj == fld 0 4 e.payload && decide (x.cursor < fld 4 4 e.payload) with
    | some x =>
      match x.draw with
      | some (_, w) =>
        let d := (c.s.sweepCom x e.jsn).sweepStep x (c.s.unwrapJ w) e.jsn e.stamp
        { c with s := (d.s.endSweep x.subj).releaseHeldPeriod, outs := d.outs }
      | none => c
    | none => c
  | .ckpt => if c.s.restartsAt e then c.upd fun s => s.setBoot fun b => { b with restartDue := true } else c
  | _ => c

/-- The restart of an update, once the commit that makes it due is done (R704); the cause it shows is a free value. -/
def State.afterCommit (s : State) : State :=
  if s.boot.restartDue then let (v, s1) := (s.eventNow 0x78 0).free; s1.mainReset .rom (v % 8) else s

/-! ### One task (R126, R127) -/

/-- A task of a slot: fences, then the entry, then LAST_JSN (R126, R131, R155). -/
def Com.slotTask (c : Com) (i : Nat) (t : Task) : Com :=
  let e := t.entry
  let isFrame := e.kind == .radFrame || e.kind == .plcFrame
  let joining := isFrame && e.cls == .normal && !e.isNotice && e.frame.isJoin && (c.slot i).state == .joining
  let c1 := if joining then c else c.applyFences i t.jsn
  let c2 := match t.work with
    | .child r ty _ => c1.child e ty r
    | _ => if isFrame then c1.frameEntry i e else if e.kind = Kind.mgmtCmd then c1.mgmt e else c1
  (c2.setSlot i { c2.slot i with lastJsn := t.jsn }).upd fun s => s.releaseParks i

/-- What the commit of a task does (R110, R126). -/
def Com.runTask (c : Com) (t : Task) : Com :=
  let e := t.entry
  match t.key with
  | .slot i => c.slotTask i t
  | .group g =>
    (match t.work with
    | .child r ty _ => c.child e ty r
    | _ => if c.s.cwmPast t.jsn then c.balanceClose g e.flags.held else { c with wait := some .watermark })
  | .sys n =>
    match t.work with
    | .child r ty _ => c.child e ty r
    | .sweep _ => { c with wait := some .watermark }
    | .entry =>
      match n with
      | 0 => c.cal e
      | 1 => c.feederTask e
      | 2 => c.supply e
      | 3 => if e.kind = .netPkt then c.netPkt e else c.mgmt e
      | 4 => c.noteTask e
      | 5 => c.captureTask e
      | 6 => c.mgmt e
      | 7 => c.netPkt e
      | 8 => c.seifFrame e
      | 9 => c.event 0x19 (fld 1 1 e.payload)
      | _ => c.markTask e

/-- A task as a commit about to start. -/
def State.comOf (s : State) (t : Task) : Com :=
  { s := s, key := t.key, jsn := t.jsn, ojsn := t.jsn, dep := t.jsn, stamp := t.entry.stamp, flags := t.entry.flags, origin := t.entry.src.origin,
    draws := t.draws, base := match t.work with | .child _ _ n => (n + 1) * 65536 | _ => 0 }

/-- Whether a task is the INGEST of a sealed batch (R111). -/
def Task.ingests (t : Task) : Bool :=
  t.key == .sys 7 && t.work == .entry && t.entry.kind == .netPkt &&
    (match Dgram.ofBytes t.entry.payload with | some d => d.dtype == 1 | none => false)

/-- Whether the records of a batch can be queued under a key (R463). -/
def recordsKey : Key → Bool
  | .slot _ => true
  | .group _ => true
  | .sys n => n == 4

/-- A task waits at its gate while a batch of lower JSN has not made its child tasks, which may belong before it (R111, R114, R125). -/
def State.afterIngest (s : State) (t : Task) : Bool :=
  recordsKey t.key && (s.erg.keys.any fun q => q.tasks.any fun x => x.ingests && decide (x.jsn < t.jsn))

/-- A slot's tasks are not committed while its fault bit is set (R172). -/
def State.faulted (s : State) (k : Key) : Bool := match k with | .slot i => (s.slot i).fault | _ => false

/-- What the oldest task of a key waits for, if its commit cannot finish now. -/
def State.waitsFor (s : State) (k : Key) : Option WaitFor :=
  match s.headTask k with
  | some t => ((s.comOf t).runTask t).wait
  | none => none

/-- The gate of a key reads the slot of its task (R172). -/
def State.scrubKey (s : State) (k : Key) : State := match k with | .slot i => s.scrub i | _ => s

/-- The gate of a key reaches its oldest task (R127): it commits as one step, or waits for a draw, the watermark or release cells; a slot with its
fault bit set commits nothing (R172). -/
def State.commitHead (s0 : State) (k : Key) : State :=
  match s0.headTask k with
  | none => s0
  | some t =>
    let s := s0.scrubKey k
    if s.faulted k || s.afterIngest t then s
    else
      let c := (s.comOf t).runTask t
      match c.wait with
      | some (.draw _ _) => s.setHead k { t with phase := .waitDraw }
      | some _ => s.setHead k { t with phase := .committing }
      | none =>
        if c.roomForOuts then (State.noteIdle s (c.finish.dropHead k).poolCheck).leaveDunes.afterCommit else s.setHead k { t with phase := .committing }

/-! ### Working tasks off -/

/-- The queued task with the lowest JSN that can commit now. -/
def State.nextReady (s : State) : Option Key :=
  let heads := sortBy (fun a b => decide (a.2 < b.2)) (s.erg.keys.filterMap fun q => match q.tasks with | t :: _ => some (q.key, t.jsn) | [] => none)
  (heads.find? fun h => (s.waitsFor h.1).isNone && !s.faulted h.1 && !(match s.headTask h.1 with | some t => s.afterIngest t | none => true)).map (·.1)

/-- Commit every task that can, lowest JSN first. -/
def State.workOff : Nat → State → State
  | 0, s => s
  | n + 1, s =>
    match s.nextReady with
    | some k => State.workOff n (s.commitHead k)
    | none => s

/-- Take every entry that waits and commit every task that can (R74). -/
def State.settle (s : State) : State :=
  let s1 := s.dispatchAll
  State.workOff (s1.tasksUsed + 1) s1

end Sys2Proof.Machine
end

