-- ==== Sys2Proof/Machine/SeifOps.lean ====
section
/-! DEFINITION. Who takes part in a triad (R616 to R620), the votes on outputs (R621 to R627), the entry of outputs into the release
stream (R445 to R449), and the giving up of the token (R625, R631, R633). -/
namespace Sys2Proof.Machine

/-- HIGH: the highest JSN of the unit's unbroken run of entries (R620). -/
def State.high (s : State) : Nat := s.seq.nextJsn - 1

/-- Whether the unit agrees its outputs on its own digest: a unit of one always, a holder without a present peer when SOLO_OK is 1
(R624). -/
def State.agreesAlone (s : State) : Bool :=
  !s.triad || (s.peersPresent.isEmpty && s.sef.driver && s.bitOf rSefCtl 2)

/-- The unit votes: it is ACTIVE or STANDBY (R622). -/
def State.votes (s : State) : Bool := s.sef.state == 3 || s.sef.state == 4

/-! ### Stream order (R445) -/

/-- Stream order of two outputs: OJSN, then task key, then hand-over order (R445). -/
def outBefore (a b : Output) : Bool := lexLt [a.ojsn, keyNum a.key, a.idx] [b.ojsn, keyNum b.key, b.idx]

/-- The outputs that wait, in stream order. -/
def State.outOrder (s : State) : List Output := sortBy outBefore s.erg.outq

/-- The outputs whose place in the stream is fixed: those whose OJSN the commit watermark has reached, with their VSN (R132, R446, R621). -/
def State.numbered (s : State) : List (Nat × Output) :=
  ((s.outOrder.filter fun o => decide (o.ojsn ≤ s.cwm)).zipIdx).map fun p => (s.ctx.nextVsn + p.2, p.1)

/-- What a vote digest covers (R622): a record, the packet payload of a DOWN frame, or an output's number and time. -/
def Output.voted (o : Output) : Bytes :=
  match o.dest with
  | .stream => o.bytes
  | .down => o.bytes
  | .ctl => le 1 o.rtype ++ fit 8 o.bytes

/-- The vote digest (R622). -/
def Output.digest (o : Output) : Bytes := fit 8 (Config.sha256 o.voted)

/-- The present peers whose digests count: those in STANDBY, ACTIVE or SPLIT (R618, R622, R626, R627). -/
def State.voters (s : State) : List Peer := s.peersPresent.filter fun p => p.state == 3 || p.state == 4 || p.state == 6

/-- The digests of present peers for a VSN; those of a unit that is odd or not in sync are ignored (R622, R626). -/
def State.votesFor (s : State) (vsn : Nat) : List Bytes :=
  (s.sef.peerVotes.filter fun v => v.vsn == vsn && s.voters.any fun p => p.pos == v.pos).map (·.digest)

/-- Whether an output is agreed: on the unit's own digest where that is enough, else by an equal digest of a present peer (R623, R624); outputs
below the VSN at which a resynchronised unit resumed voting were agreed without it (R636). -/
def State.agreed (s : State) (vsn : Nat) (o : Output) : Bool :=
  s.agreesAlone || decide (vsn < s.sef.agreedBelow) || s.sef.votes.contains vsn || (s.votesFor vsn).contains o.digest

/-- The output of a VSN stands below the split of a unit in SPLIT (R627). -/
def State.belowSplit (s : State) (vsn : Nat) : Bool :=
  s.sef.state == 6 && (match s.sef.splitAt with | some v => decide (vsn < v) | none => false)

/-- A unit in FAULT releases nothing, one in SPLIT nothing from its VSN on; nor does one that is still SYNCING agree anything (R617, R625, R627). -/
def State.mayRelease (s : State) (vsn : Nat) : Bool := !s.triad || s.votes || s.belowSplit vsn

/-! ### Entry into the stream (R446 to R449) -/

/-- Records the outbox holds at most (R449). -/
def oboxMax : Nat := 4194304

/-- An output is sent on its way (R375, R413, R446, R447, R497): a record takes the next RSN and enters the outbox, unless
it is acknowledged already; a DOWN goes to its
MAC's ring and a programmed time to its output. -/
def State.enterOutput (s : State) (o : Output) : State :=
  let s1 : State := { s with erg := { s.erg with outq := s.erg.outq.erase o },
                             sef := { s.sef with votes := s.sef.votes.filter fun v => v ≠ s.ctx.nextVsn,
                                                 peerVotes := s.sef.peerVotes.filter (fun v => v.vsn ≠ s.ctx.nextVsn),
                                                 unsent := if s.triad && decide (s.sef.digestFrom ≤ s.ctx.nextVsn)
                                                           then s.sef.unsent ++ [(s.ctx.nextVsn, o.digest)] else s.sef.unsent },
                             ctx := { s.ctx with nextVsn := s.ctx.nextVsn + 1 } }
  match o.dest with
  | .stream =>
    { s1 with ctx := { s1.ctx with nextRsn := s1.ctx.nextRsn + 1 },
              obox := if s1.ctx.nextRsn < s1.ctx.acked then s1.obox
                      else s1.obox ++ [{ rsn := s1.ctx.nextRsn, rtype := o.rtype, bytes := o.bytes }] }
  | .down => if s1.sef.driver then s1.ringPacket o.rtype 1 (toWs o.bytes) else s1
  | .ctl => s1.ctlRelease o.rtype (Machine.fld 0 8 o.bytes)

/-- Bytes of the outbox in RECORDS. -/
def State.oboxBytes (s : State) : Nat := (s.obox.map fun r => r.bytes.length).foldl (· + ·) 0

/-- A stream output finds the outbox full: by its records, or by the cap of RECORDS (R449, R567). -/
def State.oboxFull (s : State) : Bool :=
  decide (oboxMax ≤ s.obox.length) || (s.med.run && decide (s.med.caps.getD 2 0 * 1048576 ≤ s.oboxBytes))

/-- The first output in stream order that may be released now: its DEP_JSN and its OJSN are durable, and it is agreed (R64, R446). -/
def State.nextRelease (s : State) : Option Output :=
  match s.numbered.head? with
  | some (v, o) => if s.mayRelease v && decide (o.ojsn ≤ s.seq.durable) && decide (o.dep ≤ s.seq.durable) && s.agreed v o then some o else none
  | none => none

/-! ### The token (R625, R628, R631, R633, R636) -/

/-- The state a unit enters; only a start ends SPLIT (R627). -/
def Sef.stateAfter (x : Sef) (st : Nat) : Nat := if x.state = 6 then 6 else st

/-- The driver of TOKEN_N is released (R628, R631, R633, R636, R375): the unit is no holder, its MACs discard held transmit packets and
its outputs are inert; it enters a state and resynchronises. -/
def State.dropToken (s : State) (why : Nat) (st : Nat) : State :=
  if s.sef.driver then
    let flush (a : State) (n : Nat) : State := (a.setRing n { a.ring n with r := (a.ring n).vis, remain := 0 }).ringDrain n
    let s0 := flush (flush s 2) 4
    let s1 : State := { s0 with seq := { s.seq with holder := false, hold := none }, rad := { s.rad with downs := [], acks := [], xch := none },
                                plc := { s.plc with downs := [], txq := [], shorts := [], sent := [] } }
    ((s1.setSef fun x => { x with driver := false, state := x.stateAfter st, catchUp := none, lineLow := false,
                                  lineSince := s1.t }).irq rSefIrq 4).event 0x64 why
  else s.setSef fun x => { x with state := x.stateAfter st }

end Sys2Proof.Machine
end

