-- ==== Sys2Proof/Machine/SysOps.lean ====
section
/-! DEFINITION. The erasure of keys (R541) and life-cycle transitions (R547 to R549). -/
namespace Sys2Proof.Machine

/-! ### Keys (R528, R541, R547 to R549) -/

/-- A Q11 result (R533): RES, the counter, the nonce and OUTLEN. -/
def resultWords (tag status unit cnt : Nat) (nonce : Bytes) (outLen : Nat) : List Word :=
  [BitVec.ofNat 32 (tag % 65536 + status % 256 * 65536 + unit % 256 * 2 ^ 24), BitVec.ofNat 32 cnt, BitVec.ofNat 32 (cnt / 2 ^ 32)] ++
    toWords 4 (fit 16 nonce) ++ [BitVec.ofNat 32 outLen]

/-- TAG of a request (R532). -/
def CphReq.tag (r : CphReq) : Nat := bits 15 0 (r.ws.getD 0 0).toNat

/-- Post a result on Q11 (R533). -/
def State.postResult (s : State) (r : CphReq) (status unit cnt : Nat) (nonce : Bytes) (outLen : Nat) : State :=
  s.ringPacket 11 r.op (resultWords r.tag status unit cnt nonce outLen)

/-- Every request in flight, with the unit it is on (R541). -/
def Sec.inFlight (x : Sec) : List (CphReq × Nat) :=
  (x.lanes.zipIdx.flatMap fun p => (match p.1.run with | some r => [(r.1, p.2)] | none => []) ++
    (match p.1.susp with | some r => [(r, p.2)] | none => [])) ++
  (x.ecc.zipIdx.flatMap fun p => match p.1 with | some r => [(r, 16 + p.2)] | none => []) ++
  x.waitQ.map fun r => (r, 0)

/-- The KEY block erases every key, secret and the DRBG state; requests in flight end with ERASED (R541). -/
def State.eraseKeys (s : State) : State :=
  let s1 := s.sec.inFlight.foldl (fun a p => a.postResult p.1 6 p.2 0 [] 0) s
  { s1 with sysKey := none,
            sec := { s1.sec with lanes := List.replicate 16 {}, ecc := [none, none], waitQ := [], mask := 0, scramble := 0,
                                 drbg := 0, calls := 0 } }

/-- The roots after a transition that generates the next one (R547 to R549); none when a fifth root would be needed. -/
def Otp.rollRoot (o : Otp) (new : Nat) : Option (List Root) :=
  match o.roots.findIdx? fun r => r == .empty with
  | none => none
  | some n => some ((o.roots.map fun r => match r with | .valid _ => .burned | r => r).set n (.valid new))

/-- The OTP after a transition (R547): a transition that would need a fifth root leads to SCRAPPED. -/
def Otp.transit (o : Otp) (dst : LifeCycle) (new : Nat) : Otp :=
  let burned := o.roots.map fun r => match r with | .valid _ => Root.burned | r => r
  if dst = .scrapped then { o with lc := .scrapped, roots := burned }
  else match o.rollRoot new with
    | some rs => { o with lc := dst, roots := rs }
    | none => { o with lc := .scrapped, roots := burned }

/-- The KEY block performs a transition: the next root, the thermometer, the old root, then a reset of the main domain (R548). -/
def State.transition (s : State) (dst : LifeCycle) : State :=
  let s1 : State := { s with sec := { s.sec with otp := s.sec.otp.transit dst (Config.trng s.freeCtr) }, freeCtr := s.freeCtr + 1 }
  (s1.eraseKeys.mainReset .rom 5).irq rKeyIrq 2

/-- A transition whose root must be generated waits while the TRNG health tests fail (R549). -/
def State.transitionWhen (s : State) (dst : LifeCycle) : State :=
  if s.bitOf rCphTrng 0 || dst == .scrapped || (s.sec.otp.rollRoot 0).isNone then s.transition dst
  else { s with sec := { s.sec with lcPend := some { dst := dst, ack := 0, due := true } } }

end Sys2Proof.Machine
end

