-- ==== Sys2Proof/Machine/MacOps.lean ====
section
/-! DEFINITION. What the MAC paths of the radio and the power line share: the arbiter's grants (R176, R179 to R182), the verdict of a
received frame (R149, R159 to R170), and the seen cache of caravans (R368). -/
namespace Sys2Proof.Machine

/-! ### The arbiter -/

/-- Units of 2^-28 s as fabric cycles of 5 ns (R173). -/
def cyclesAt (t : Nat) : Nat := t * 200000000 / second

/-- Number of the 32-cycle quota window an instant lies in (R176). -/
def windowAt (t : Nat) : Nat := cyclesAt t / 32

/-- A new quota window starts with the grants that wait for it (R176, R180). -/
def Arb.roll (a : Arb) (w : Nat) : Arb :=
  if a.window < w then
    let one := decide (w = a.window + 1)
    { a with window := w, rad := if one then a.nrad else 0, plc := if one then a.nplc else 0, banks := if one then a.nbanks else [],
             nrad := 0, nplc := 0, nbanks := [] }
  else a

/-- Count a grant to a MAC in a bank. -/
def Arb.grant (a : Arb) (plc : Bool) (bank : Nat) : Arb :=
  { a with rad := a.rad + (if plc then 0 else 1), plc := a.plc + (if plc then 1 else 0),
           banks := setAt 0 a.banks bank (a.banks.getD bank 0 + 1) }

/-- Count a masked request in the window after this one, where it wins its grant (R180). -/
def Arb.grantNext (a : Arb) (plc : Bool) (bank : Nat) : Arb :=
  { a with nrad := a.nrad + (if plc then 0 else 1), nplc := a.nplc + (if plc then 1 else 0),
           nbanks := setAt 0 a.nbanks bank (a.nbanks.getD bank 0 + 1) }

/-- Whether a quota masks a MAC's request in a bank (R176). -/
def Arb.masks (a : Arb) (plc : Bool) (bank : Nat) : Bool :=
  decide (4 ≤ (if plc then a.plc else a.rad)) || decide (6 ≤ a.banks.getD bank 0)

/-- A grant to a MAC for a slot: masked requests wait for the next window (R176, R180), the resolution time within the bound of R179 and
R181 is a free value, and the longest one is kept (R182). DESIGN CHOICE: ARB_MASKCNT counts each request that meets a mask, not a quota being reached. -/
def State.arbGrant (s : State) (plc lookup : Bool) (i : Nat) : State :=
  let bank := i % 16
  let a := s.arb.roll (windowAt s.t)
  let masked := a.masks plc bank
  let (v, s1) := s.free
  let ns := v % ((if lookup then 400 else 200) + 1) + (if masked then 160 else 0)
  let s2 : State := if masked then ({ s1 with arb := a.grantNext plc bank } : State).count rArbMaskcnt 1
    else { s1 with arb := a.grant plc bank }
  let s3 := if s2.fld rArbLatmax 15 0 < ns then s2.setFld rArbLatmax 15 0 ns else s2
  if 200 < ns ∧ masked = false then s3.irq rArbIrq 2 else s3

/-! ### The verdict (R149, R159 to R170) -/

/-- What the MAC path made of a frame: the verdict, the class of its entry and its slot. -/
structure Judged where
  verdict : Nat
  cls     : EClass
  slot    : Option Nat
  deriving DecidableEq, Repr

/-- The slot a short address names (R149). -/
def shortSlot (a : Nat) : Option Nat := if 1 ≤ a ∧ a ≤ slotCount then some (a - 1) else none

/-- BUSY on a slot whose fault bit is set: the frame is journaled BUSY (R166). -/
def State.judgeBusy (s : State) (i : Nat) : Judged × State := (⟨2, .busy, some i⟩, s.count rArbBusycnt 1)

/-- UNKNOWN (R149, R159, R164). -/
def State.judgeUnknown (s : State) (slot : Option Nat) : Judged × State := (⟨3, .orphan, slot⟩, s.count rArbOrphcnt 1)

/-- A frame on a slot that may pass the duplicate window (R166, R168 to R170). -/
def State.judgeSlot (s : State) (i : Nat) (f : Frame) : Judged × State :=
  let x := s.slot i
  if x.fault then s.judgeBusy i
  else if isFirstJoin x f then (⟨0, .normal, some i⟩, s.lockedWrite i { x with lastSeq := f.seq, dupwin := 0xFFFFFFFF#32 })
  else
    let d := dupCheck x f.seq
    if d.1 then (⟨0, .normal, some i⟩, s.lockedWrite i d.2) else (⟨1, .dup, some i⟩, s.count rArbDupcnt 1)

/-- The first FREE slot of the join pool from `k` on (R160). -/
def State.poolSlot (s : State) : Nat → Nat → Option Nat
  | 0, _ => none
  | n + 1, k => if s.fld rArbPoolHi 16 0 < k then none else if (s.slot k).state = .free then some k else s.poolSlot n (k + 1)

/-- CAPACITY (R161, R162). -/
def State.judgeCapacity (s : State) : Judged × State := (⟨4, .capacity, none⟩, s.count rArbCapcnt 1)

/-- A JOIN of an EUI-64 that is not in the index takes the lowest FREE slot of the pool (R160, R161, R166). -/
def State.judgePool (s : State) (f : Frame) : Judged × State :=
  match s.poolSlot (s.ctx.slots.length + 1) (s.fld rArbPoolLo 16 0) with
  | some i =>
    let s1 := s.scrub i
    if (s1.slot i).fault then s1.judgeBusy i
    else if s1.idxPlaces f.joinEui then (⟨0, .normal, some i⟩, s1.allocJoin i f)
    else s1.judgeCapacity
  | none => s.judgeCapacity

/-- A JOIN (R149, R159 to R162, R169): one whose SRC is neither a slot's short address nor the unassigned one is UNKNOWN. -/
def State.judgeJoin (s : State) (f : Frame) : Judged × State :=
  if (shortSlot f.src).isNone ∧ f.src ≠ 0xFFFFFE then s.judgeUnknown none
  else
    let s := s.scrubIndex f.joinEui
    match s.findEui f.joinEui with
    | some i =>
      let s := s.scrub i
      let st := (s.slot i).state
      if (s.slot i).fault then s.judgeBusy i
      else if st = .rostered ∨ st = .active ∨ (st = .joining ∧ s.bitOf rArbCtl 1) then s.judgeSlot i f else s.judgeUnknown none
    | none => if s.bitOf rArbCtl 1 then s.judgePool f else s.judgeUnknown none

/-- The verdict of a received frame and what it writes to the slot, once its ring packet is open (R149, R166, R352, R393). -/
def State.judgeOpen (s : State) (f : Frame) : Judged × State :=
  if f.isJoin then s.judgeJoin f
  else match shortSlot f.src with
    | none => s.judgeUnknown none
    | some i =>
      let s := s.scrub i
      let st := (s.slot i).state
      if (s.slot i).fault then s.judgeBusy i
      else if st = .free ∨ st = .decom then s.judgeUnknown (some i)
      else if f.isData then s.judgeSlot i f
      else (⟨0, .normal, some i⟩, s)

/-- Whether a MAC path gets verdicts: the arbiter serves it (ARB_CTL.EN, R183) and its ring takes a packet (R166). -/
def State.serves (s : State) (ring : Nat) : Bool := s.bitOf rArbCtl 0 && s.ringOpens ring

/-- The verdict of a received frame: BUSY when the ring refuses its packet, without touching the slot (R166). DESIGN CHOICE: BUSY too while ARB_CTL.EN is 0,
and a frame that names no slot counts in the quotas as one grant in bank 0. -/
def State.judge (s : State) (plc : Bool) (f : Frame) : Judged × State :=
  if s.serves (if plc then 3 else 1) then
    let j := s.judgeOpen f
    (j.1, if f.isData || f.isJoin then j.2.arbGrant plc f.isJoin (j.1.slot.getD 0) else j.2)
  else (⟨2, .busy, none⟩, s)

/-- The packet of a received frame on its ring (R30, R82). -/
def State.offerFrame (s : State) (plc : Bool) (j : Judged) (stamp chan desc : Nat) (frame : Bytes) : State :=
  s.offer (if plc then 3 else 1)
    { kind := if plc then .plcFrame else .radFrame, stamp := stamp, cls := j.cls,
      src := { slot := j.slot.getD 0, slotV := j.slot.isSome, chan := chan }, payload := le 4 desc ++ frame }

/-- A NOTICE of a MAC (R361, R408): a frame entry that the MAC makes itself. -/
def State.notice (s : State) (plc : Bool) (i nkind push wpt : Nat) : State :=
  let head := le 2 (15 + 256) ++ le 3 0 ++ le 3 (i + 1)
  let body := le 1 nkind ++ le 1 0 ++ le 2 push ++ le 4 wpt
  s.offer (if plc then 3 else 1)
    { kind := if plc then .plcFrame else .radFrame, stamp := s.dev, cls := .normal, src := { slot := i, slotV := true },
      payload := le 4 (2 ^ 27) ++ head ++ (if plc then List.replicate 7 0 else []) ++ body }

/-! ### Caravans (R367 to R369) -/

/-- Entries of the seen cache in force 60 s after insertion (R368). -/
def seenLive (c : List Seen) (now : Nat) : List Seen := c.filter fun x => decide (now < x.at_ + 60 * second)

/-- Whether a caravan is in the seen cache. -/
def seenHas (c : List Seen) (orig cid now : Nat) : Bool := (seenLive c now).any fun x => x.orig == orig && x.cid == cid

/-- Insert a caravan; on a full cache it replaces the oldest entry (R368). -/
def seenInsert (c : List Seen) (orig cid now : Nat) : List Seen :=
  let l := seenLive c now
  (if 4096 ≤ l.length then l.drop 1 else l) ++ [{ orig := orig, cid := cid, at_ := now }]

/-- Least length of a frame without its FCS (R352, R335 to R338, R343, R367). -/
def minFrame (f : Frame) : Nat :=
  f.body + (match f.ftype with | 2 => 4 + (if f.sync then 12 else 0) + 8 | 3 => 5 | 4 => 16 + 8 | 7 => 6 | _ => 0)

/-- ORIG, CID and HOP of a caravan's body (R367). -/
def Frame.orig (f : Frame) : Nat := Machine.fld f.body 3 f.bytes
/-- CID. -/
def Frame.cid (f : Frame) : Nat := Machine.fld (f.body + 3) 2 f.bytes
/-- HOP. -/
def Frame.hop (f : Frame) : Nat := Machine.fld (f.body + 5) 1 f.bytes
/-- INNER. -/
def Frame.inner (f : Frame) : Bytes := f.bytes.drop (f.body + 6)

/-- A caravan frame from the coordinator (R335, R367): DIR down, no hops travelled. -/
def caravanFrame (cid ttl : Nat) (inner : Bytes) : Bytes :=
  le 2 (7 + 256) ++ le 3 0xFFFFFF ++ le 3 0 ++ le 3 0 ++ le 2 cid ++ le 1 (ttl % 8) ++ inner

end Sys2Proof.Machine
end

