-- ==== Sys2Proof/Machine/MediaOps.lean ====
section
/-! DEFINITION. The media's operations: superblocks and wear (R562 to R564), journal units (R568, R573, R574), programs and verification
(R565, R571, R572), the Khamsin flush (R575), collection (R576 to R580), failures (R581 to R585) and health (R588). -/
namespace Sys2Proof.Machine

/-- Write the media. -/
def State.setMed (s : State) (f : Med → Med) : State := { s with med := f s.med }

/-- Write what the media keep. -/
def State.setNand (s : State) (f : Nand → Nand) : State := { s with med := { s.med with nand := f s.med.nand } }

/-! ### Geometry, spares and free blocks (R559, R562 to R564) -/

/-- Whether Sabkha accepts a media set, given SLC_PREFIX (R559). -/
def nandAccepted (g : NandGeom) (slc sparePm : Nat) : Bool :=
  decide (2 ≤ g.luns) && decide (g.luns ≤ 16) && g.identical && (g.page == 1 || g.page == 2 || g.page == 4) && decide (376 ≤ g.spare) &&
  decide (g.luns * g.bpl ≤ 262144) && decide (g.luns * g.bpl * g.ppb * g.page * 4096 ≤ 2 * 2 ^ 40) && decide (g.tBers ≤ 10000) &&
  decide ((if slc = 0 then g.tProg else g.tProgSlc) ≤ 2000) && decide (g.tProg ≤ 10000) &&
  decide (16 * 2 ^ 30 ≤ (g.luns - 1) * ((g.bpl - (List.range g.luns).foldl (fun m l =>
    max m (let b := (g.bad.filter fun x => x / g.bpl == l).length; b + (g.bpl - b) * sparePm / 1000)) 0)) * g.ppb * g.page * 4096)

/-- The LUNs of a media set whose chip enables are in use (CE_EN of R597), by their numbers. -/
def lunsOn (g : NandGeom) (en : Nat) : List Nat :=
  (List.range 4).flatMap fun c => if bit c en then (List.range (g.ces.getD c 0)).map fun k => (g.ces.take c).foldl (· + ·) 0 + k else []

/-- The part of a media set that the enabled chip enables select, its LUNs and blocks numbered anew in their order (R559, R597). -/
def geomOn (g : NandGeom) (en : Nat) : NandGeom :=
  let l := lunsOn g en
  { g with luns := l.length, bad := g.bad.filterMap fun b => (l.idxOf? (b / g.bpl)).map fun k => k * g.bpl + b % g.bpl }

/-- The fastest mode of the interface that every target's parameter page and RATE allow, at most 200 MT/s (R558, R744). -/
def nandMode (g : NandGeom) (iface rate : Nat) : Option (Nat × Nat) :=
  (g.modes.filter fun x => decide (x.1 = iface) && decide (x.2 ≤ min 200 (10 * rate))).foldl
    (fun m x => match m with | some y => if y.2 < x.2 then some x else some y | none => some x) none

/-- Blocks of a LUN. -/
def Nand.bpl (n : Nand) : Nat := match n.geom with | some g => g.bpl | none => 0
/-- LUNs: W. -/
def Nand.luns (n : Nand) : Nat := match n.geom with | some g => g.luns | none => 0

/-- A block by its number over all LUNs. -/
def Nand.blk (n : Nand) (b : Nat) : Blk := sget (fun _ => {}) n.blks b
/-- Write a block. -/
def Nand.setBlk (n : Nand) (b : Nat) (x : Blk) : Nand := { n with blks := sput (fun _ => {}) n.blks b x }

/-- Listed blocks of a LUN that pass a test. -/
def Nand.countBlk (n : Nand) (l : Nat) (p : Blk → Bool) : Nat := (n.blks.filter fun b => b.1 / n.bpl == l && p b.2).length

/-- Free superblocks that the blocks of a LUN allow, its spares set aside. -/
def Nand.freeOf (n : Nand) (l : Nat) : Nat := n.bpl - n.countBlk l (fun b => b.bad || b.inUse) - n.spares.getD l 0

/-- The least of a figure over the LUNs. -/
def Nand.leastOf (n : Nand) (f : Nat → Nat) : Nat := match (List.range n.luns).map f with | [] => 0 | a :: r => r.foldl min a

/-- Free superblocks: MED_FREE (R599). -/
def Nand.free (n : Nand) : Nat := n.leastOf n.freeOf

/-- All superblocks: MED_TOTAL. -/
def Nand.total (n : Nand) : Nat := n.leastOf fun l => n.bpl - n.countBlk l (fun b => b.bad) - n.spares.getD l 0

/-- Data units of a superblock (R562). -/
def Nand.sbUnits (n : Nand) : Nat := match n.geom with | some g => (g.luns - 1) * g.page * g.ppb | none => 0

/-- Data units of a stripe (R562). -/
def Nand.stripeUnits (n : Nand) : Nat := match n.geom with | some g => (g.luns - 1) * g.page | none => 1

/-- The LUN of stripe `p`'s parity page (R562). -/
def Nand.parityLun (n : Nand) (p : Nat) : Nat := p % max 1 n.luns

/-- Where a unit stands in its superblock (R562): its stripe, that is its page in each block, its LUN and its place in the page. The data pages of a stripe
follow each other by LUN, past the parity page. DESIGN CHOICE. -/
def Nand.home (n : Nand) (u : MUnit) : Nat × Nat × Nat :=
  let page := match n.geom with | some g => g.page | none => 1
  let p := u.pos / n.stripeUnits
  let d := u.pos % n.stripeUnits / page
  (p, if d < n.parityLun p then d else d + 1, u.pos % page)

/-- The 16-byte tag of a unit (R560). -/
def MUnit.tag (u : MUnit) : Bytes := le 4 u.lua ++ le 1 u.region ++ leI 1 u.wtemp ++ le 4 u.wseq ++ le 4 u.wtime ++ le 2 (flag 2 u.slc)

/-- User capacity in MiB: MED_CAP. -/
def Nand.capMib (n : Nand) : Nat := n.total * n.sbUnits / 256

/-- The first block from `b` on that is free and was never erased. -/
def Nand.freshFrom (n : Nand) : Nat → Nat → Nat → Option Nat
  | 0, _, _ => none
  | k + 1, b, hi => if hi ≤ b then none else if n.blk b = {} then some b else n.freshFrom k (b + 1) hi

/-- The free block of a LUN with the lowest erase count, then the lowest address (R564). -/
def Nand.leastWorn (n : Nand) (l : Nat) : Option Nat :=
  match n.freshFrom (n.blks.length + 1) (l * n.bpl) ((l + 1) * n.bpl) with
  | some b => some b
  | none =>
    (n.blks.filter fun b => b.1 / n.bpl == l && !b.2.bad && !b.2.inUse).foldl (fun m b => match m with
      | none => some b
      | some a => if b.2.erases < a.2.erases then some b else some a) (none : Option (Nat × Blk)) |>.map (·.1)

/-- Take the least-worn free block of each LUN from `l` on (R564). -/
def Nand.takeBlocks (n : Nand) (l : Nat) : Nat → Nand × List Nat
  | 0 => (n, [])
  | k + 1 =>
    match n.leastWorn l with
    | some b => let r := (n.setBlk b { n.blk b with inUse := true }).takeBlocks (l + 1) k; (r.1, b :: r.2)
    | none => n.takeBlocks (l + 1) k

/-- Open a superblock for a stream (R562, R564). -/
def Nand.openSb (n : Nand) (region : Nat) (slc : Bool) (st : SbState) : Nand :=
  let r := n.takeBlocks 0 n.luns
  { r.1 with sbs := r.1.sbs ++ [{ id := n.nextSb, blocks := r.2, region := region, slc := slc, st := st }], nextSb := n.nextSb + 1 }

/-- Valid units of a superblock. -/
def Nand.valid (n : Nand) (sb : Nat) : Nat := (n.units.filter fun u => u.sb == sb).length

/-- Superblocks of the SLC cache that hold data: MED_CACHEUSED. -/
def Nand.cacheUsed (n : Nand) : Nat := (n.sbs.filter fun x => x.slc && (x.st == .open_ || x.st == .closed)).length

/-- The cache target (R571). -/
def Med.cacheTarget (m : Med) : Nat :=
  if m.slcPrefix = 0 then 0
  else
    let mx := m.nand.total * m.cacheMax / 1000
    min mx (max 2 ((m.nand.free - m.fgFree) / 2))

/-- Whether a region's unit is written in SLC mode now (R571). -/
def Med.slcFor (m : Med) (region : Nat) : Bool :=
  m.slcPrefix ≠ 0 && (region == 0 || region == 1 || region == 2 || region == 4) && decide (m.nand.cacheUsed < m.cacheTarget)

/-- A closed superblock whose units are all invalid is to be erased (R576). -/
def Nand.sweepInvalid (n : Nand) : Nand :=
  { n with sbs := n.sbs.map fun x => if x.st = .closed ∧ n.valid x.id = 0 then { x with st := .erasing } else x }

/-- The superblock a stream writes to, opened when none is open. -/
def Nand.streamSb (n : Nand) (region : Nat) (slc : Bool) : Nand × Option Sb :=
  let find (m : Nand) : Option Sb := m.sbs.find? fun x => x.st == .open_ && x.region == region && x.slc == slc
  match find n with
  | some x => (n, some x)
  | none => if n.free = 0 then (n, none) else let m := n.openSb region slc .open_; (m, find m)

/-- Put a unit into a superblock; a flush fills the page with PAD units, and the stripe's last data page brings its parity page, whose units take their
WSEQ too (R560, R562). -/
def Nand.place (n : Nand) (x : Sb) (u : MUnit) (part : Bool) : Nand :=
  let page := match n.geom with | some g => g.page | none => 1
  let used := if part then ceilDiv (x.used + 1) page * page else x.used + 1
  let parity := (used / n.stripeUnits - x.used / n.stripeUnits) * page
  let y : Sb := { x with used := used, st := if n.sbUnits ≤ used ∧ x.st = .open_ then .closed else x.st,
                         closedAt := if n.sbUnits ≤ used then n.wseq else x.closedAt }
  { n with sbs := n.sbs.map fun z => if z.id = x.id then y else z,
           units := n.units ++ [{ u with sb := x.id, pos := x.used, wseq := n.wseq, slc := x.slc }],
           wseq := (n.wseq + (used - x.used) + parity) % 2 ^ 32 }

/-- A superblock of the Khamsin reserve with room (R572). -/
def Nand.reserveSb (n : Nand) : Option Sb := n.sbs.find? fun x => x.st == .reserve && decide (x.used < n.sbUnits)

/-- Superblocks of the reserve that hold data join the closed ones, and others are erased in their place before anything else (R572). -/
def Nand.renewReserve (n : Nand) (slc : Bool) : Nand :=
  let n1 : Nand := { n with sbs := n.sbs.map fun x => if x.st = .reserve ∧ 0 < x.used then { x with st := .closed, closedAt := n.wseq } else x }
  let have_ := (n1.sbs.filter fun x => x.st == .reserve || x.st == .erasing).length
  (List.range (2 - have_)).foldl (fun a _ => if a.free = 0 then a else a.openSb 1 slc .erasing) n1

/-! ### Journal units (R568, R569) -/

/-- A journal unit's 4 KiB: the offset of the first entry that starts in it, then the stream, filled with 0x00 (R568). -/
def StUnit.bytes (u : StUnit) : Bytes := fit 4096 (le 4 (u.first.getD 0xFFFFFFFF) ++ u.data)

/-- Pack an entry's bytes into the unit being filled and those after it (R568). -/
def Med.pack (now jsn stamp : Nat) : Nat → Bytes → Bool → Med → Med
  | 0, _, _, m => m
  | k + 1, b, fresh, m =>
    let u := m.fill.getD { data := [], first := none, since := now, ends := m.journaled }
    let u1 : StUnit := { u with last := jsn, stamp := stamp, first := match u.first with | some o => some o | none => if fresh then some (4 + u.data.length) else none }
    let room := 4092 - u1.data.length
    if b.length < room then { m with fill := some { u1 with data := u1.data ++ b, ends := jsn }, journaled := jsn }
    else if b.length = room then { m with fill := none, wait := m.wait ++ [{ u1 with data := u1.data ++ b, ends := jsn }], journaled := jsn }
    else Med.pack now jsn stamp k (b.drop room) false { m with fill := none, wait := m.wait ++ [{ u1 with data := u1.data ++ b.take room }] }

/-- A partly filled unit is programmed with fill (R568). -/
def Med.flushPart (m : Med) : Med :=
  match m.fill with
  | some u => { m with fill := none, wait := m.wait ++ [{ u with part := true }] }
  | none => m

/-- The unit buffers of journal staging in working RAM (R103): each unit that waits or is being filled stands in the buffer of its logical address,
modulo 64. -/
def State.stageStore (s : State) : State :=
  ((s.med.wait ++ s.med.fill.toList).zipIdx).foldl (fun a p =>
    a.putWram (0x12200000 + 4096 * ((s.med.nand.jlua + p.2) % 64)) (le 4 (p.1.first.getD 0xFFFFFFFF) ++ p.1.data)) s

/-- The oldest JSN that R73 requires: the cut of the older of the two latest valid checkpoints. -/
def Nand.keepFrom (n : Nand) : Nat := match (n.ckpts.drop (n.ckpts.length - 2)).head? with | some k => if 2 ≤ n.ckpts.length then k.cutJsn else 0 | none => 0

/-- The durable watermark reaches a JSN (R63). -/
def State.raiseDurable (s : State) (j : Nat) : State :=
  if s.seq.durable < j then { s with seq := { s.seq with durable := j, lastDur := s.t, stallFired := false } } else s

/-- Units of the JOURNAL region. -/
def Nand.jUnits (n : Nand) : List MUnit := n.units.filter fun u => u.region == 1

/-- Release the journal beyond JRET_H hours of stamps, and trim it at CAP_JNL down to what R73 requires (R569, R573). -/
def State.trimJournal (s : State) : State :=
  let n := s.med.nand
  let keep := n.keepFrom
  let old (u : MUnit) : Bool := u.region == 1 && decide (u.last < keep) && decide (u.stamp + s.med.jretH * 3600 * second < s.dev)
  let n1 : Nand := { n with units := n.units.filter fun u => !old u }
  let excess := n1.jUnits.length + 1 - s.med.caps.getD 0 0 * 256
  let cut := ((n1.jUnits.filter fun u => decide (u.last < keep)).take excess).map (·.lua)
  let n2 : Nand := { n1 with units := n1.units.filter fun u => !(u.region == 1 && cut.contains u.lua) }
  let s1 := s.setNand fun _ => n2.sweepInvalid
  if cut.isEmpty then s1
  else s1.event 0x56 0 none (le 8 (match (n1.units.filter fun u => u.region == 1 && cut.contains u.lua).getLast? with | some u => u.ends + 1 | none => 0))

/-- JOURNAL is at CAP_JNL with nothing left to trim (R569). -/
def State.journalFull (s : State) : Bool := decide (s.med.caps.getD 0 0 * 256 ≤ s.med.nand.jUnits.length)

/-- The die temperature in °C, as SYS_THERM.TJ shows it (R560, R673). -/
def State.dieTemp (s : State) : Int := (signed 10 (s.fld rSysTherm 25 16)).fdiv 4

/-- The journal unit that waits longest verifies: its map entry, and the durable watermark (R63, R565). -/
def State.verifyJournal (s : State) (u : StUnit) (rest : List StUnit) (sb : Nand × Sb) : State :=
  let m : MUnit := { region := 1, lua := sb.1.jlua, wtemp := s.dieTemp, wseq := 0, wtime := secOf s.dev % 2 ^ 32, slc := false, sb := 0,
                     ends := u.ends, last := u.last, stamp := u.stamp, data := u.bytes }
  let s1 := s.setMed fun x => { x with wait := rest, nand := { sb.1.place sb.2 m u.part with jlua := sb.1.jlua + 1 } }
  (s1.raiseDurable u.ends).trimJournal

/-! ### The Khamsin flush (R575) -/

/-- Read every packet of Q12 into staging (R568, R575). -/
def State.drainQ12 : Nat → State → State
  | 0, s => s
  | k + 1, s =>
    match s.ringTake 12 with
    | (.packet _ 1 ws, s1) =>
      let b := ofWs ws
      State.drainQ12 k ((s1.setMed fun m => Med.pack s1.t (Machine.fld 4 8 b) (Machine.fld 12 8 b) (b.length / 4092 + 2) b true m).stageStore.ringDrain 12)
    | (.idle, _) => s
    | (_, s1) => State.drainQ12 k (s1.setNand fun n => { n with badReq := satAdd 0xFFFFFFFF n.badReq 1 })

/-- Program every waiting unit into the Khamsin reserve and verify it (R572, R575); without a reserve, natively. -/
def State.flushUnits : Nat → State → State
  | 0, s => s
  | k + 1, s =>
    match s.med.wait with
    | [] => s
    | u :: rest =>
      let n := s.med.nand
      match (match n.reserveSb with | some x => (n, some x) | none => n.streamSb 1 false) with
      | (n1, some x) => State.flushUnits k (s.verifyJournal u rest (n1, x))
      | (_, none) => s

/-- The supply-warning flush: all journal data not yet verified, partial unit and Q12 included, becomes durable (R568, R575). -/
def State.khamsinFlush (s : State) : State :=
  if s.med.run && !s.med.readOnly then
    let s1 := State.drainQ12 ((s.ring 12).w - (s.ring 12).r + (s.ring 12).waiting.length + 1) s
    let s2 := s1.setMed Med.flushPart
    State.flushUnits (s2.med.wait.length + 1) s2
  else s

/-! ### Collection (R576 to R580) -/

/-- The victim: the closed superblock with the fewest valid units, then the one closed earliest (R577). -/
def Nand.victim (n : Nand) (p : Sb → Bool) : Option Sb :=
  (n.sbs.filter fun x => x.st == .closed && p x).foldl (fun m x => match m with
    | none => some x
    | some y => if n.valid x.id < n.valid y.id ∨ (n.valid x.id = n.valid y.id ∧ x.closedAt < y.closedAt) then some x else some y) none

/-- The lowest WSEQ of a superblock's units (R573). -/
def Nand.oldestOf (n : Nand) (x : Sb) : Nat :=
  match (n.units.filter fun u => u.sb == x.id).map (·.wseq) with
  | w :: r => r.foldl min w
  | [] => 0

/-- The cache superblock to fold next: the one whose oldest unit has the lowest WSEQ (R573). -/
def Nand.foldVictim (n : Nand) : Option Sb :=
  (n.sbs.filter fun x => x.st == .closed && x.slc).foldl (fun m x => match m with
    | none => some x
    | some y => if n.oldestOf x < n.oldestOf y then some x else some y) none

/-- What a unit's name stands for is still kept (R576): a checkpoint, a record of the outbox, a record of the event log, a block of an endpoint image. -/
def State.heldAlive (s : State) (region : Nat) (x : Nat × Nat) : Bool :=
  match region with
  | 2 => (s.med.nand.ckpts ++ s.med.nand.epochCkpts ++ s.seq.ckptBusy).any fun k => k.no == x.2
  | 3 => s.obox.any fun r => r.rsn == x.2
  | 4 => s.evr.log.any fun r => r.no == x.2
  | _ => s.ctx.images.any fun m => m.image == x.1 && m.data.any fun d => d.1 == x.2

/-- Units whose content has been freed or dropped become invalid (R576). -/
def State.dropDead (s : State) : State :=
  s.setNand fun n => ({ n with units := n.units.filter fun u => u.holds.isEmpty || u.holds.any fun x => s.heldAlive u.region x } : Nand).sweepInvalid

/-- Move one unit to its region's stream (R577, R580). -/
def Nand.moveUnit (n : Nand) (now : Nat) (slc : Bool) (u : MUnit) : Nand :=
  let n0 : Nand := { n with units := n.units.erase u }
  match n0.streamSb u.region slc with
  | (n1, some x) => n1.place x { u with wtime := now % 2 ^ 32 } false
  | (_, none) => n

/-- Collect a victim: every valid unit moves to the write stream of its region, oldest WSEQ first, then the victim is erased (R577, R580); a cache superblock
is folded into native ones (R573). -/
def State.collect (s : State) (v : Sb) : State :=
  let us := sortBy (fun (a b : MUnit) => decide (a.wseq < b.wseq)) (s.med.nand.units.filter fun u => u.sb == v.id)
  s.setNand fun n => (us.foldl (fun a u => a.moveUnit (secOf s.dev) (!v.slc && s.med.slcFor u.region) u) n).sweepInvalid

/-! ### Failures (R584, R585) -/

/-- The media run out of room for the Khamsin reserve and the journal that R73 requires (R585). DEDUCED: the superblocks counted are all that are good, since those
that hold that journal are not free. -/
def Nand.exhausted (n : Nand) : Bool :=
  decide (n.total < 2 + ceilDiv (n.jUnits.filter fun u => decide (n.keepFrom ≤ u.last)).length (max 1 n.sbUnits))

/-- After a retirement: SPARE_LOW and READ_ONLY (R585). -/
def State.afterRetire (s : State) (l b : Nat) : State :=
  let s1 := (s.irq rMedIrq 1).event 0x51 (l + b * 16)
  let n := s1.med.nand
  let s2 := if n.spares.getD l 0 * 10 < n.spares0.getD l 0 then s1.irq rMedIrq 4 else s1
  if n.exhausted ∧ s2.med.readOnly = false then ((s2.setMed fun m => { m with readOnly := true }).irq rMedIrq 5).event 0x55 0 else s2

/-- A block is retired and its LUN loses one spare (R563, R584). -/
def Nand.retire (n : Nand) (l b : Nat) : Nand :=
  { n.setBlk b { n.blk b with bad := true, inUse := false } with spares := n.spares.set l (n.spares.getD l 0 - 1) }

/-- Any LUN's spares below 10 % of its initial spares: MED_STAT.DEGRADED (R585). -/
def Nand.degraded (n : Nand) : Bool := (List.range n.luns).any fun l => decide (n.spares.getD l 0 * 10 < n.spares0.getD l 0)

/-! ### Reads (R581, R586) -/

/-- Age bin of a unit (R586). -/
def ageBin (wtime now : Nat) : Nat :=
  let d := (now - wtime) / 86400
  if now < wtime then 0 else if d < 1 then 0 else if d < 7 then 1 else if d < 30 then 2 else if d < 90 then 3 else if d < 180 then 4
  else if d < 365 then 5 else if d < 730 then 6 else 7

/-- Write temperature bin of a unit (R586). -/
def tempBin (t : Int) : Nat := if t < 0 then 0 else if t < 40 then 1 else if t < 80 then 2 else 3

/-- The level a read starts at (R581, R586, R587). -/
def Med.startLevel (m : Med) (u : MUnit) (now : Nat) : Nat :=
  if m.retryFa = 0 ∨ m.retMode = 0 then 0 else m.tt.getD (4 * ageBin u.wtime now + tempBin u.wtemp) 0

/-- The feature that sets the retry level in use: its address and P1 to P4; none with RETRY_FA 0 (R587). -/
def Med.feature (m : Med) : Option (Nat × Bytes) := if m.retryFa = 0 then none else some (m.retryFa, m.retryP.getD m.level [])

/-! ### Health (R588, R599) -/

/-- Erase count in per mille of PE_LIMIT. -/
def Med.wear (m : Med) (e : Nat) : Nat := e * 1000 / max 1 m.peLimit

/-- WEAR_AVG: mean erase count of the native blocks. -/
def Med.wearAvg (m : Med) : Nat := m.wear ((m.nand.blks.map fun b => b.2.erases).foldl (· + ·) 0) / max 1 (m.nand.luns * m.nand.bpl)

/-- WEAR_MAX. -/
def Med.wearMax (m : Med) : Nat := min 65535 (m.wear ((m.nand.blks.map fun b => b.2.erases).foldl max 0))

/-- SPARE_MIN. -/
def Nand.spareMin (n : Nand) : Nat := n.leastOf fun l => n.spares.getD l 0
/-- SPARE_ALL. -/
def Nand.spareAll (n : Nand) : Nat := n.spares.foldl (· + ·) 0

/-- Hours of operation in a temperature bin: the 10 ms readings counted in it (R588, R671). -/
def Nand.tempHours (n : Nand) (b : Nat) : Nat := n.temph.getD b 0 / 360000

/-- The DATA of a media-health event (R588). -/
def Med.healthData (m : Med) : Bytes :=
  let n := m.nand
  le 2 n.spareMin ++ le 2 n.spareAll ++ le 2 m.wearAvg ++ le 2 m.wearMax ++ le 4 n.corr ++ le 4 n.retry ++ le 4 n.rebuild ++ le 4 n.loss ++
  le 2 n.pfail ++ le 2 n.efail ++ (List.range 8).flatMap (fun b => le 4 (n.tempHours b)) ++ le 4 n.free

/-- A media-health event (R588). -/
def State.healthEvent (s : State) : State := s.event 0x50 0 none s.med.healthData

end Sys2Proof.Machine
end

