-- ==== Sys2Proof/Machine/BridgeOps.lean ====
section
/-! DEFINITION. The bridge (R439 to R442, R480), what the device port answers (R443, R444), and batches (R450 to R455). Layouts of Ethernet,
ARP, IPv4, IPv6, ICMPv6, UDP, PAUSE and IEEE 1588 headers follow their own standards, as R16 says. PRESUMED. -/
namespace Sys2Proof.Machine

/-! ### Egress (R440, R441, R466) -/

/-- Time a frame takes on a port, with preamble, FCS and gap. -/
def NetPort.frameTime (p : NetPort) (len : Nat) : Nat := (len + 24) * 8 * second / (if p.slow then 100000000 else 1000000000)

/-- Bytes that wait in the egress buffer of a port. -/
def NetPort.waiting (p : NetPort) (now : Nat) : Nat :=
  ((p.queue.filter fun q => decide (now < q.1)).map (·.2)).foldl (· + ·) 0 + (p.held.map fun f => f.bytes.length + 4).foldl (· + ·) 0

/-- When a frame offered now starts on the egress. -/
def NetPort.startAt (p : NetPort) (now : Nat) : Nat := max now p.busyTo

/-- Put a frame on port A or B: it starts at once when the egress is idle, waits in 16 KiB otherwise, and is dropped when they are full. -/
def State.egress (s : State) (n : Nat) (f : EthFrame) : State :=
  match s.net.ports[n]? with
  | none => s
  | some p =>
    let len := f.bytes.length + 4
    let waits := decide (s.t < p.busyTo) || s.portPaused n
    if waits && decide (16384 < p.waiting s.t + len) then s.count rNetBrdrop 1
    else if s.portPaused n then s.setPort n fun q => { q with held := q.held ++ [f] }
    else
      let at_ := p.startAt s.t
      (s.setPort n fun q => { q with queue := (q.queue.filter fun x => decide (s.t < x.1)) ++ [(at_, len)],
                                     busyTo := at_ + q.frameTime f.bytes.length }).emit (.eth n f.ok f.bytes)

/-- The egress of a port resumes: the frames that wait go out in order (R466). -/
def State.resume (s : State) (n : Nat) : State :=
  match s.net.ports[n]? with
  | none => s
  | some p =>
    let s1 := s.setPort n fun q => { q with pausedUntil := 0, held := [] }
    State.q6Drain 64 (p.held.foldl (fun a f => a.egress n f) s1)

/-! ### Learning and forwarding (R440) -/

/-- Destination of a frame. -/
def ethDst (b : Bytes) : Nat := fldB 0 6 b
/-- Source of a frame. -/
def ethSrc (b : Bytes) : Nat := fldB 6 6 b
/-- Type of a frame. -/
def ethType (b : Bytes) : Nat := fldB 12 2 b
/-- Group bit of an address. -/
def isGroup (mac : Nat) : Bool := bit 40 mac

/-- The unit's MAC address (R467). -/
def State.mac (s : State) : Nat := s.fld rNetMachi 15 0 * 2 ^ 32 + s.reg rNetMaclo

/-- Table entries younger than 300 s. -/
def State.bridgeLive (s : State) : List BridgeEnt := s.net.table.filter fun e => decide (s.t < e.at_ + 300 * second)

/-- Learn a source address on a port; with 1,024 entries in use a new one is not learned. -/
def State.learn (s : State) (mac port : Nat) : State :=
  let others := s.bridgeLive.filter fun e => e.mac ≠ mac
  if isGroup mac ∨ 1024 ≤ others.length then s
  else s.setNet fun n => { n with table := others ++ [{ mac := mac, port := port, at_ := s.t }] }

/-- The ports a frame goes to from an ingress port: 0 A, 1 B, 2 the device port (R440). The device port also takes a frame to the unit's own address when the
bridge learned that address elsewhere, as it does of the holder of a triad, whose address it shares (R443, R444). DESIGN CHOICE. -/
def State.bridgePorts (s : State) (ingress dst : Nat) : List Nat :=
  let all := (List.range 3).filter fun n => n ≠ ingress && (n == 2 || s.portUp n)
  if isGroup dst then all
  else match s.bridgeLive.find? fun e => e.mac == dst with
    | some e => all.filter fun n => n == e.port || (n == 2 && dst == s.mac)
    | none => all

/-! ### Internet checksums -/

/-- Sum of the 16-bit words of a byte string. -/
def sum16 : Bytes → Nat
  | a :: b :: r => a.toNat * 256 + b.toNat + sum16 r
  | [a] => a.toNat * 256
  | [] => 0

/-- Fold a sum to 16 bits with end-around carry. -/
def fold16 (n : Nat) : Nat := let a := n % 65536 + n / 65536; let b := a % 65536 + a / 65536; b % 65536 + b / 65536

/-- The Internet checksum of a sum. -/
def inetChk (sum : Nat) : Nat := 65535 - fold16 sum

/-- The sum over the IPv6 pseudo header. -/
def pseudo6 (src dst : Bytes) (nh len : Nat) : Nat := sum16 src + sum16 dst + len + nh

/-! ### The transparent clock (R480) -/

/-- Offset of the IEEE 1588 message of a frame for a TRANSPORT, and whether its UDP checksum must stay valid, is written 0, or is absent. -/
def ptpAt (transport : Nat) (b : Bytes) : Option Nat :=
  let port := fldB (if transport = 0 then 56 else 36) 2 b
  let udp := port == 319 || port == 320
  match transport with
  | 0 => if ethType b = 0x86DD ∧ fldB 20 1 b = 17 ∧ udp then some 62 else none
  | 1 => if ethType b = 0x0800 ∧ fldB 23 1 b = 17 ∧ udp then some 42 else none
  | 2 => if ethType b = 0x88F7 then some 14 else none
  | _ => none

/-- Replace bytes from an offset on. -/
def splice (b : Bytes) (off : Nat) (x : Bytes) : Bytes := b.take off ++ x ++ b.drop (off + x.length)

/-- Add nanoseconds to the correctionField of a message, keeping the UDP checksum valid over IPv6 and writing it 0 over IPv4. -/
def addCorrection (transport off : Nat) (b : Bytes) (ns : Int) : Bytes :=
  let old := sub (off + 8) 8 b
  let new := (leI 8 (signed 64 (beVal old) + ns * 65536)).reverse
  let b1 := splice b (off + 8) new
  match transport with
  | 0 => splice b1 60 (be 2 (inetChk ((65535 - fldB 60 2 b) + (4 * 65535 - sum16 old) + sum16 new)))
  | 1 => splice b1 40 (be 2 0)
  | _ => b1

/-- A frame passes the transparent clock: its residence time is a free value beside what it waits for the egress (R480). -/
def State.transparent (s : State) (ingress : Nat) (wait : Nat) (b : Bytes) : Bytes × State :=
  let tr := s.fld rTimCtl 5 4
  match (if s.bitOf rTimCtl 2 then ptpAt tr b else none) with
  | none => (b, s)
  | some off =>
    let (r, s1) := s.free
    let ns : Int := (r + wait * 1000000000 / second + (if s.bitOf rTimCtl 3 then s.tim.linkDelay.getD ingress 0 else 0) : Nat)
    let ty := fldB off 1 b % 16
    let ident := sub (off + 20) 12 b
    if ty = 0 ∧ bit 1 (fldB (off + 6) 1 b) = true then
      (b, s1.setNet fun n => { n with followUps := (n.followUps.filter fun f => f.ident ≠ ident) ++ [{ ident := ident, ns := ns.toNat, at_ := s.t }] })
    else if ty = 0 ∨ ty = 1 then (addCorrection tr off b ns, s1)
    else if ty = 8 then
      match s.net.followUps.find? fun f => f.ident == ident && decide (s.t ≤ f.at_ + second) with
      | some f => (addCorrection tr off b f.ns, s.setNet fun n => { n with followUps := n.followUps.filter fun g => g.ident ≠ ident })
      | none => (b, s)
    else (b, s)

/-- Forward a frame from an ingress port (R440, R441, R480). -/
def State.forward (s : State) (ingress : Nat) (f : EthFrame) : State :=
  (s.bridgePorts ingress (ethDst f.bytes)).foldl (fun a n =>
    if n = 2 then (if f.ok then a.setNet fun x => { x with devIn := x.devIn ++ [(a.dev, f.bytes)] } else a)
    else
      let wait := (match a.net.ports[n]? with | some p => p.startAt a.t | none => a.t) - a.t
      let (b, a1) := a.transparent ingress wait f.bytes
      a1.egress n { f with bytes := b }) s

/-! ### What the device port sends and answers (R442 to R444) -/

/-- The device port sends a frame of its own. -/
def State.devSend (s : State) (b : Bytes) : State := if s.netTx then (s.learn (ethSrc b) 2).forward 2 { ok := true, bytes := b } else s

/-- An Ethernet frame. -/
def ethFrame (dst src ty : Nat) (body : Bytes) : Bytes := be 6 dst ++ be 6 src ++ be 2 ty ++ body

/-- The IPv6 address in use, if any. -/
def State.ip6 (s : State) : Option Bytes := if s.net.dad = .inUse then some (fit 16 s.net.addr6) else none

/-- The IPv4 address as 4 bytes. -/
def State.ip4 (s : State) : Bytes := be 4 (s.reg rNetIp4)

/-- An IPv6 packet with its ICMPv6 checksum. -/
def icmp6 (src dst : Bytes) (hop : Nat) (msg : Bytes) : Bytes :=
  let m0 := splice msg 2 (be 2 0)
  let m := splice m0 2 (be 2 (inetChk (pseudo6 src dst 58 m0.length + sum16 m0)))
  be 4 0x60000000 ++ be 2 m.length ++ be 1 58 ++ be 1 hop ++ src ++ dst ++ m

/-- A neighbour advertisement for an address: solicited or not. -/
def State.advert (s : State) (a : Bytes) (toMac : Nat) (toIp : Bytes) (solicited : Bool) : Bytes :=
  ethFrame toMac s.mac 0x86DD (icmp6 a toIp 255
    (be 1 136 ++ be 1 0 ++ be 2 0 ++ be 4 (if solicited then 0x60000000 else 0x20000000) ++ a ++ be 1 2 ++ be 1 1 ++ be 6 s.mac))

/-- An ARP packet. -/
def arp (oper : Nat) (sha : Nat) (spa : Bytes) (tha : Nat) (tpa : Bytes) : Bytes :=
  be 2 1 ++ be 2 0x0800 ++ be 1 6 ++ be 1 4 ++ be 2 oper ++ be 6 sha ++ spa ++ be 6 tha ++ tpa

/-- The IPv6 all-nodes group. -/
def allNodes : Bytes := be 16 0xFF020000000000000000000000000001

/-- A unit that takes the token announces each address in use (R444). -/
def State.announce (s : State) : State :=
  let s1 := match s.ip6 with
    | some a => s.devSend (s.advert a 0x333300000001 allNodes false)
    | none => s
  if s.bitOf rNetCtl 5 then s1.devSend (ethFrame 0xFFFFFFFFFFFF s.mac 0x0806 (arp 1 s.mac s.ip4 0 s.ip4)) else s1

/-- A frame is dropped and counted (R443). -/
def State.rxDrop (s : State) : State := s.count rNetRxdrop 1

/-- A UDP datagram to the unit (R443): its own port is journaled, the PTP ports belong to the time subsystem, any other is dropped. -/
def State.udpIn (s : State) (stamp src : Nat) (u : Bytes) : State :=
  let dport := fldB 2 2 u
  if dport = s.fld rNetUdp 15 0 then
    let p := (u.take (fldB 4 2 u)).drop 8
    let s1 := if Machine.fld 0 4 p = dgramMagic ∧ Machine.fld 4 1 p = 1 ∧ s.cfg.role = .head then
        s.setNet fun n => { n with srcs := n.srcs ++ [{ stamp := stamp, head := p.take 24, addr := src, port := fldB 0 2 u }] }
      else s
    s1.offer 5 { kind := .netPkt, stamp := stamp, payload := p }
  else if dport = 319 ∨ dport = 320 then s
  else s.rxDrop

/-- A router advertisement gives the prefix of a SLAAC address, which is tentative until duplicate address detection ends (R443). -/
def State.routerAdvert (s : State) (opts : Bytes) : Nat → State
  | 0 => s
  | k + 1 =>
    let len := fldB 1 1 opts * 8
    if len = 0 ∨ opts.length < len then s
    else if fldB 0 1 opts = 3 ∧ fldB 2 1 opts = 64 ∧ bit 6 (fldB 3 1 opts) = true ∧ s.net.dad = .none then
      let m := be 6 s.mac
      let iid := [(m.getD 0 0) ^^^ 0x02#8, m.getD 1 0, m.getD 2 0, 0xFF#8, 0xFE#8, m.getD 3 0, m.getD 4 0, m.getD 5 0]
      s.setNet fun n => { n with addr6 := sub 16 8 opts ++ iid, dad := .tentative }
    else s.routerAdvert (opts.drop len) k

/-- An ICMPv6 message (R443, R444). -/
def State.icmp6In (s : State) (src dst m eth : Bytes) : State :=
  let from_ := ethSrc eth
  match fldB 0 1 m with
  | 128 =>
    (match s.ip6 with
    | some a => if dst = a then s.devSend (ethFrame from_ s.mac 0x86DD (icmp6 a src (max 1 s.cfg.net.hopLimit) (be 1 129 ++ m.drop 1))) else s
    | none => s)
  | 135 =>
    (match s.ip6 with
    | some a => if sub 8 16 m = a then s.devSend (s.advert a from_ src true) else s
    | none => s)
  | 134 => if s.bitOf rNetCtl 4 then s.routerAdvert (m.drop 16) 16 else s
  | _ => s

/-- An IPv6 packet (R443). -/
def State.ip6In (s : State) (stamp : Nat) (eth : Bytes) : State :=
  let p := eth.drop 14
  let len := fldB 4 2 p
  let src := sub 8 16 p
  let dst := sub 24 16 p
  let body := sub 40 len p
  let good (nh : Nat) : Bool := decide (40 + len ≤ p.length) && fold16 (pseudo6 src dst nh len + sum16 body) == 65535
  if s.bitOf rNetCtl 3 = false then s.rxDrop
  else match fldB 6 1 p with
    | 17 => if good 17 then s.udpIn stamp (beVal src) body else s.rxDrop
    | 58 => if good 58 then s.icmp6In src dst body eth else s.rxDrop
    | _ => s.rxDrop

/-- An IPv4 packet (R443): one to the unit's address or a PTP group, with the DF bit and no options; a fragment, an option or another protocol is dropped. -/
def State.ip4In (s : State) (stamp : Nat) (eth : Bytes) : State :=
  let p := eth.drop 14
  let len := fldB 2 2 p
  let frag := fldB 6 2 p
  let body := (p.take len).drop 20
  if s.bitOf rNetCtl 5 = false ∨ fldB 0 1 p ≠ 0x45 ∨ frag ≠ 0x4000 ∨ fldB 9 1 p ≠ 17 ∨ fold16 (sum16 (p.take 20)) ≠ 65535 then s.rxDrop
  else if sub 16 4 p ≠ s.ip4 ∧ sub 16 4 p ≠ be 4 0xE0000181 ∧ sub 16 4 p ≠ be 4 0xE000006B then s.rxDrop
  else if fldB 6 2 body ≠ 0 ∧ fold16 (sum16 (sub 12 8 p) + 17 + body.length + sum16 body) ≠ 65535 then s.rxDrop
  else s.udpIn stamp (fldB 12 4 p) body

/-- Whether the device port accepts a destination address (R443). -/
def State.acceptsMac (s : State) (dst : Nat) : Bool :=
  dst == s.mac || dst == 0xFFFFFFFFFFFF || dst == 0x333300000001 ||
  (match s.ip6 with | some a => dst == 0x3333FF000000 + beVal (a.drop 13) | none => false) ||
  [0x011B19000000, 0x0180C200000E, 0x01005E000181, 0x01005E00006B, 0x333300000181, 0x33330000006B].contains dst

/-- A frame reaches the device port (R440, R443): tagged frames are not accepted. -/
def State.deviceIn (s : State) (stamp : Nat) (b : Bytes) : State :=
  if s.acceptsMac (ethDst b) then
    match ethType b with
    | 0x0806 =>
      if s.bitOf rNetCtl 5 ∧ fldB 20 2 b = 1 ∧ sub 38 4 b = s.ip4 then
        s.devSend (ethFrame (ethSrc b) s.mac 0x0806 (arp 2 s.mac s.ip4 (fldB 22 6 b) (sub 28 4 b)))
      else s
    | 0x86DD => s.ip6In stamp b
    | 0x0800 => s.ip4In stamp b
    | _ => s
  else s

/-! ### PAUSE (R465, R466) -/

/-- A PAUSE frame with a quanta. -/
def State.pauseFrame (s : State) (quanta : Nat) : Bytes := fit 60 (ethFrame 0x0180C2000001 s.mac 0x8808 (be 2 1 ++ be 2 quanta))

/-- A PAUSE frame goes out on every enabled port. -/
def State.sendPause (s : State) (quanta : Nat) : State :=
  let ports := (List.range 2).filter s.portUp
  (ports.foldl (fun a n => a.emit (.eth n true (s.pauseFrame quanta))) s).count rNetPausecnt ports.length

/-! ### Batches (R450 to R455) -/

/-- A record with its prefix, padded (R452). -/
def batchRecord (rtype : Nat) (b : Bytes) : Bytes := le 2 b.length ++ le 1 rtype ++ le 1 0 ++ padTo 4 b

/-- The first records that fit one body, at most `n` of them, with the body (R450, R452). -/
def packBatch : Nat → Bytes → List (Nat × Bytes) → Nat × Bytes
  | 0, acc, _ => (0, acc)
  | _, acc, [] => (0, acc)
  | n + 1, acc, (ty, b) :: r =>
    let x := acc ++ batchRecord ty b
    if 1388 < x.length then (0, acc) else let (k, y) := packBatch n x r; (k + 1, y)

/-- Send a BATCH of a stream whose first record has a number (R450, R451, R453, R455). -/
def State.sendBatch (s : State) (diag : Bool) (first count session : Nat) (body : Bytes) : State :=
  let ((g, c), s1) := s.u2hNext
  let d : Dgram := { dtype := 1, stream := if diag then 1 else 0, count := count, sysaddr := s.cfg.sysaddr, origin := s.seq.pos,
                     keyId := keyIdOf 1 g, ctr := c, first := first, session := session }
  s1.sendDgram none (sealDgram (u2h s.sys s.cfg.sysaddr s.seq.pos g) d body)

end Sys2Proof.Machine
end

