-- ==== Sys2Proof/Machine/Backhaul.lean ====
section
/-! DEFINITION. The backhaul commands (R438 to R444, R453, R464 to R466, R469, R480). -/
namespace Sys2Proof.Machine

/-- BRIDGE_FRAME (R440, R441, R442, R480): a frame arrives on port A or B, its bytes from DST to before the FCS. -/
def execBridgeFrame (dt : Nat) (port : Fin 2) (fcsOk : Bool) (frame : Bytes) (s0 : State) : Host.Outcome State Fault Refusal :=
  let s := s0.advance dt
  if s.portUp port.val then
    if 1522 < frame.length + 4 then .next (s.count rNetBrdrop 1)
    else
      let s1 := if fcsOk then s.learn (ethSrc frame) port.val else s
      .next (s1.forward port.val { ok := fcsOk, bytes := frame })
  else .next s

/-- PORT_LINK_CHANGE (R439, R469, R648): the PHY of a port reports its link, which is up only while PLL_B is locked. -/
def execPortLinkChange (dt : Nat) (port : Fin 2) (up0 slow : Bool) (s0 : State) : Host.Outcome State Fault Refusal :=
  let s := s0.advance dt
  let up := up0 && s.pow.locks.getD 1 false
  let was := match s.net.ports[port.val]? with | some p => p.up | none => false
  let s1 := s.setPort port.val fun p => { p with up := up, slow := slow, held := if up then p.held else [], pausedUntil := if up then p.pausedUntil else 0 }
  .next (if was = up then s1 else s1.irq rNetIrq 0)

/-- DEVICE_PORT_RECEIVE (R442 to R444): the device port takes the next frame the bridge gave it. -/
def execDevicePortReceive (s : State) : Host.Outcome State Fault Refusal :=
  match s.net.devIn with
  | [] => .next s
  | (stamp, b) :: r => .next ((s.setNet fun n => { n with devIn := r }).deviceIn stamp b)

/-- HEAD_BACK_SEND (R454, R455, R464): the head unit sends the BACK of a batch that is durable. -/
def execHeadBackSend (s : State) : Host.Outcome State Fault Refusal :=
  match s.net.backs.find? fun b => decide (b.jsn ≤ s.seq.durable) with
  | some b =>
    if s.netTx then
      let ctr := match s.net.backCtr.find? fun x => x.1 == b.sysaddr with | some x => x.2 + 1 | none => 1
      let s1 := s.setNet fun n => { n with backs := n.backs.erase b, backCtr := (n.backCtr.filter fun x => x.1 ≠ b.sysaddr) ++ [(b.sysaddr, ctr)] }
      let d : Dgram := { dtype := 2, stream := if b.diag then 1 else 0, sysaddr := b.sysaddr, keyId := keyIdOf 2 0, ctr := ctr, first := b.first,
                         session := if b.diag then b.session else 0 }
      match b.dst with
      | some a => .next (s1.sendDgram (some a) (sealDgram (h2u s.sys b.sysaddr 0) d []))
      | none => .next s1
    else .next s
  | none => .next s

/-- BATCH_SEND (R450 to R453, R455): the holder sends a BATCH of at most `n` records of the release stream, or of the diagnostic stream, within
the window. -/
def execBatchSend (diag : Bool) (n : Nat) (s : State) : Host.Outcome State Fault Refusal :=
  if s.netTx && s.sysKey.isSome then
    if diag then
      let from_ := max s.net.diagSent s.net.diagAck
      let (k, body) := packBatch (min n 255) [] ((s.net.diag.filter fun r => decide (from_ ≤ r.esn)).map fun r => (r.rtype, r.bytes))
      if k = 0 ∨ s.fld rNetWin 8 0 ≤ s.net.sentDiag.length then .next s
      else
        let s1 := if from_ < s.net.diagMax then s.count rNetRetx 1 else s
        let s2 := s1.setNet fun x => { x with diagSent := from_ + k, diagMax := max x.diagMax (from_ + k),
                                              rtoDiag := if x.sentDiag.isEmpty then s.t else x.rtoDiag,
                                              sentDiag := x.sentDiag ++ [{ first := from_, count := k }] }
        .next (s2.sendBatch true from_ k s.net.session body)
    else
      let from_ := max s.net.sentTo s.ctx.acked
      let (k, body) := packBatch (min n 255) [] ((s.obox.filter fun r => decide (from_ ≤ r.rsn)).map fun r => (r.rtype, r.bytes))
      if k = 0 ∨ s.fld rNetWin 8 0 ≤ s.net.sent.length then .next s
      else
        let s1 := if from_ < s.net.sentMax then s.count rNetRetx 1 else s
        let s2 := s1.setNet fun x => { x with sentTo := from_ + k, sentMax := max x.sentMax (from_ + k),
                                              rtoFrom := if x.sent.isEmpty then s.t else x.rtoFrom,
                                              sent := x.sent ++ [{ first := from_, count := k }] }
        .next (s2.sendBatch false from_ k 0 body)
  else .next s

/-- BATCH_RTO (R453, R455): RTO_MS pass without an acknowledgement that advances a stream's mark; sending starts again from the mark. -/
def execBatchRto (diag : Bool) (s : State) : Host.Outcome State Fault Refusal :=
  let rto := msU (s.fld rNetWin 31 16)
  if diag then
    if s.net.sentDiag.isEmpty then .next s
    else
      let s1 := s.until (s.net.rtoDiag + rto)
      .next (s1.setNet fun n => { n with diagSent := n.diagAck, sentDiag := [], rtoDiag := s1.t })
  else if s.net.sent.isEmpty then .next s
  else
    let s1 := s.until (s.net.rtoFrom + rto)
    .next (s1.setNet fun n => { n with sentTo := s1.ctx.acked, sent := [], rtoFrom := s1.t })

/-- PAUSE_SEND (R465): while Q12 stalls and Q5 is full enough a PAUSE goes out every 16 ms; a quanta of 0 ends it. -/
def execPauseSend (s : State) : Host.Outcome State Fault Refusal :=
  let r := s.ring 5
  let used := (r.w - r.r) * 100
  let on := s.bitOf rNetCtl 6 && s.q12Stalled &&
    (if s.net.pausing then decide (s.fld rNetPause 15 8 * r.size < used) else r.en && decide (s.fld rNetPause 7 0 * r.size ≤ used))
  if on then
    let s1 := if s.net.pausing then s.until (s.net.lastPause + msU 16) else s.irq rNetIrq 3
    .next ((s1.setNet fun n => { n with pausing := true, lastPause := s1.t }).sendPause 0xFFFF)
  else if s.net.pausing then .next ((s.setNet fun n => { n with pausing := false }).sendPause 0)
  else .next s

/-- PAUSE_RECEIVE (R466): a port receives a PAUSE frame, `dt` later; its quanta count 512 bit times. -/
def execPauseReceive (dt : Nat) (port : Fin 2) (quanta : Fin 65536) (s0 : State) : Host.Outcome State Fault Refusal :=
  let s := s0.advance dt
  if s.bitOf rNetCtl 7 && s.portUp port.val then
    if quanta.val = 0 then .next (s.resume port.val)
    else
      let slow := match s.net.ports[port.val]? with | some p => p.slow | none => false
      .next (s.setPort port.val fun p => { p with pausedUntil := s.t + quanta.val * 512 * second / (if slow then 100000000 else 1000000000) })
  else .next s

/-- PAUSE_EXPIRY (R466): the pause of a port runs out. -/
def execPauseExpiry (port : Fin 2) (s : State) : Host.Outcome State Fault Refusal :=
  match s.net.ports[port.val]? with
  | some p => if s.t < p.pausedUntil then .next ((s.until p.pausedUntil).resume port.val) else .next (s.resume port.val)
  | none => .next s

/-- A write to NET_MDIO (R469): its fields are stored; GO starts a clause 22 frame unless one is running. -/
def State.mdioWrite (s : State) (v : Word) : State :=
  let x := v.toNat
  let busy := s.net.mdio.isSome
  let s1 := s.setReg rNetMdio (bits 26 0 x + flag 31 (busy || bit 31 x))
  if bit 31 x && !busy then
    s1.setNet fun n => { n with mdio := some { write := bit 26 x, phyad := bits 25 21 x, regad := bits 20 16 x, data := bits 15 0 x, start := s.t } }
  else s1

/-- MDIO_GO (R469, R553): device code or the maintenance port writes NET_MDIO with GO 1. -/
def execMdioGo (w : Who) (v : Word) (s : State) : Host.Outcome State Fault Refusal :=
  if w = .seif then .next (s.busErr w) else .next ((s.mdioWrite (v ||| 0x80000000#32)).answer w .done)

/-- MDIO_FRAME_DONE (R469): the clause 22 frame ends, `dt` later; a read returns what the PHY drove. -/
def execMdioFrameDone (dt : Nat) (data : Fin 65536) (s0 : State) : Host.Outcome State Fault Refusal :=
  let s := s0.advance dt
  match s.net.mdio with
  | none => .next s
  | some m =>
    let s1 := (s.setNet fun n => { n with mdio := none }).setBit rNetMdio 31 false
    .next (if m.write then s1 else s1.setFld rNetMdio 15 0 data.val)

/-- DUPLICATE_ADDRESS_DETECTION (R443): the detection of the SLAAC address ends. -/
def execDuplicateAddressDetection (ok : Bool) (s : State) : Host.Outcome State Fault Refusal :=
  if s.net.dad = .tentative then
    if ok then .next (s.setNet fun n => { n with dad := .inUse })
    else .next ((s.setNet fun n => { n with dad := .failed }).irq rNetIrq 4)
  else .next s

/-- BRIDGE_AGEING (R440): the oldest learned address reaches 300 s. -/
def execBridgeAgeing (s : State) : Host.Outcome State Fault Refusal :=
  match s.net.table.foldl (fun m e => match m with | none => some e | some x => if e.at_ < x.at_ then some e else some x) (none : Option BridgeEnt) with
  | none => .next s
  | some e => .next ((s.until (e.at_ + 300 * second)).setNet fun n => { n with table := n.table.erase e })

/-- The caravan of one block: the packet of Q2 or Q4 (R367, R374, R423, R438). On the power line INNER is a frame with the fields that a hop rewrites, like every
other (R394). DESIGN CHOICE. -/
def State.blockPacket (s : State) (p : Pump) (m : EpImage) : List Word :=
  let data := match m.data.find? fun d => d.1 == p.first with | some d => d.2 | none => []
  let plain := le 1 6 ++ le 1 1 ++ le 2 0 ++ le 2 m.image ++ le 2 p.first ++ fit 128 data
  let down := downFrame false false 0xFFFFFF (p.round * 65536 + p.first) 0xFFFFFFFFFFFFFFFF (s.jkey m.key) plain
  let inner := if p.medium = 1 then down.take 8 ++ le 3 0xFFFFFF ++ le 3 0 ++ le 1 0 ++ down.drop 8 else down
  BitVec.ofNat 32 (p.ttl % 8) :: toWs inner

/-- FW_BLOCK_PUMP (R438): room appears in Q2 or Q4 of the holder, and the oldest range of that medium queues its next block. -/
def execFwBlockPump (plc : Bool) (s : State) : Host.Outcome State Fault Refusal :=
  let med := if plc then 1 else 0
  let ring := if plc then 4 else 2
  match s.ctx.pumps.find? fun p => p.medium == med with
  | none => .next s
  | some p =>
    match s.ctx.image p.image with
    | none => .next { s with ctx := { s.ctx with pumps := s.ctx.pumps.erase p } }
    | some m =>
      let ws := s.blockPacket p m
      let r := s.ring ring
      if s.sef.driver && r.en && !r.stalled && decide (ws.length + 1 ≤ r.freeWords) then
        let s1 := s.ringPacket ring 2 ws
        .next { s1 with ctx := { s1.ctx with pumps :=
          if p.last ≤ p.first then s1.ctx.pumps.erase p else { p with first := p.first + 1 } :: s1.ctx.pumps.erase p } }
      else .next s

end Sys2Proof.Machine
end

