-- ==== Sys2Proof/Machine/PlcOps.lean ====
section
/-! DEFINITION. The power-line channel's operations: crossings, prediction and lock (R382 to R385), frame lengths on the wire (R392, R393),
MPDUs and source routes (R394, R406), short acknowledgements (R397), and frames judged at reception (R399, R407, R410). -/
namespace Sys2Proof.Machine

/-- Write the channel. -/
def State.setPlc (s : State) (f : Plc → Plc) : State := { s with plc := f s.plc }

/-- Phase `p`. -/
def State.phase (s : State) (p : Nat) : PlcPhase := s.plc.phases.getD p {}

/-- Write phase `p`. -/
def State.setPhase (s : State) (p : Nat) (x : PlcPhase) : State := s.setPlc fun y => { y with phases := y.phases.set p x }

/-- The channel runs on a phase. -/
def State.phaseOn (s : State) (p : Nat) : Bool := s.bitOf rPlcCtl 0 && s.bitOf rPlcCtl (2 + p)

/-- The channel may transmit (R413); no transmission runs during a Khamsin sequence (R654). -/
def State.plcTx (s : State) : Bool := s.bitOf rPlcCtl 0 && s.sef.driver && !s.bitOf rPlcCtl 1 && !s.seq.khamsin

/-! ### Crossings (R382 to R385) -/

/-- The mean of the last 8 full periods of a polarity; of those there are while there are fewer. -/
def meanPeriod (l : List Nat) : Option Nat :=
  match l, (l.take 9).getLast? with
  | a :: _ :: _, some z => some ((a - z) / ((l.take 9).length - 1))
  | _, _ => none

/-- The predicted next crossing of a polarity (R383). -/
def predicted (l : List Nat) : Option Nat := match l, meanPeriod l with | a :: _, some m => some (a + m) | _, _ => none

/-- The full period of a phase as its rising crossings show it. -/
def PlcPhase.period (x : PlcPhase) : Option Nat := meanPeriod x.rises

/-- Half a cycle of a phase: nominally 10 ms until it is measured. -/
def PlcPhase.half (x : PlcPhase) : Nat := (x.period.getD (msU 20)) / 2

/-- Whether the crossings of two locked phases lie less than 1 ms apart (R385). -/
def coincidentWith (x y : PlcPhase) : Bool :=
  x.locked && y.locked &&
    (match x.last, y.last with
     | some a, some b =>
       let d := (max a b - min a b) % (max 1 x.half)
       decide (d < msU 1) || decide (x.half < d + msU 1)
     | _, _ => false)

/-- Whether a phase is coincident with another (R385). -/
def State.coincident (s : State) (p : Nat) : Bool := (List.range 3).any fun q => q ≠ p && coincidentWith (s.phase p) (s.phase q)

/-- Note the coincidences after a change of a phase (R385). -/
def State.noteCoinc (s : State) : State :=
  let c := (List.range 3).map s.coincident
  let begins := (List.range 3).any fun p => c.getD p false && !(s.plc.coinc.getD p false)
  let s1 := s.setPlc fun y => { y with coinc := c }
  if begins then s1.irq rPlcIrq 4 else s1

/-- A phase loses lock: what is in progress on it is lost, and the next edge counts as its first (R384). -/
def State.loseLock (s : State) (p : Nat) : State :=
  let lostAcks := (s.plc.shorts.filter fun a => a.phase == p).length
  let s1 := s.setPhase p { (s.phase p) with rises := [], falls := [], last := none, good := 0, bad := 0, locked := false, txEnd := 0, pred := none,
                                            sending := [] }
  let s2 := s1.setPlc fun y => { y with shorts := y.shorts.filter fun a => a.phase ≠ p,
                                        txq := y.txq.map fun f => if f.phase = p then { f with sentX := none } else f }
  let s3 := (s2.irq rPlcIrq 0).count rPlcZcloss 1
  if s.plcTx then s3.count rPlcAckmiss lostAcks else s3

/-- A crossing met its prediction or not: 16 good in a row lock, 4 bad in a row lose the lock (R384). -/
def State.scoreCrossing (s : State) (p : Nat) (ok : Bool) : State :=
  let x := s.phase p
  let y := if ok then { x with good := x.good + 1, bad := 0 } else { x with good := 0, bad := x.bad + 1 }
  if y.locked then (if 4 ≤ y.bad then (s.setPhase p y).loseLock p else s.setPhase p y)
  else if 16 ≤ y.good then (s.setPhase p { y with locked := true }).irq rPlcIrq 1
  else s.setPhase p y

/-- An edge as a crossing at most: 2 ms after the last edge, 15.4 to 22.2 ms after the last of its polarity (R382). -/
def edgeOk (x : PlcPhase) (l : List Nat) (at_ : Nat) : Bool :=
  (match x.last with | some b => decide (b + msU 2 ≤ at_) | none => true) &&
    (match l with | a :: _ => decide (a + usU 15400 ≤ at_) && decide (at_ ≤ a + usU 22200) | [] => true)

/-- The lowest locked phase (R478). -/
def State.lowestLocked (s : State) : Option Nat := (List.range 3).find? fun p => (s.phase p).locked

/-! ### MPDUs (R394, R406) -/

/-- The link layer of a frame: FC, DST, SRC, then NXT, LTX, HOP and ROUTE. -/
def plcHead (fc dst src nxt hop : Nat) (route : List Nat) : Bytes :=
  le 2 fc ++ le 3 dst ++ le 3 src ++ le 3 nxt ++ le 3 0 ++ le 1 hop ++
    (if bit 11 fc then le 1 (route.length % 8) ++ route.flatMap (le 3) else [])

/-- A downward frame: RT is set when relays have to pass it on. -/
def plcDown (s : State) (fc dst src : Nat) (route : List Nat) (body : Bytes) : Bytes :=
  let fc1 := if bit 11 fc || route.isEmpty then fc else fc + 2048
  plcHead fc1 dst src (route.headD dst) (s.fld rPlcRxcfg 14 12) route ++ body

/-- The source route to a slot, nearest the coordinator first (R406): none when the walk exceeds 7 relays, meets a slot twice or meets a
parent that is not ACTIVE. -/
def State.routeUp (s : State) : Nat → Nat → List Nat → Option (List Nat)
  | 0, _, _ => none
  | n + 1, i, seen =>
    let x := s.slot i
    if x.parentV then
      if (s.slot x.parent).state ≠ .active ∨ x.parent ∈ seen then none
      else if 8 ≤ seen.length then none
      else s.routeUp n x.parent (x.parent :: seen)
    else some (seen.filter fun j => j ≠ seen.getLast?.getD 0)

/-- The relays to a slot, nearest the coordinator first (R406). -/
def State.route (s : State) (i : Nat) : Option (List Nat) := (s.routeUp 9 i [i]).map fun l => l.map (· + 1)

/-- The phases a frame for a slot is sent on: its own, or every locked one while it is unknown. DESIGN CHOICE for the unknown phase. -/
def State.slotPhases (s : State) (i : Nat) : List Nat :=
  let ph := (s.slot i).phase
  if ph < 3 then [ph] else (List.range 3).filter fun p => (s.phase p).locked

/-- Queue a frame to be sent on phases. -/
def State.plcQueue (s : State) (phases : List Nat) (f : PlcTx) : State :=
  s.setPlc fun y => { y with txq := y.txq ++ phases.map fun p => { f with phase := p } }

/-! ### Symbols (R386 to R389, R398, R414) -/

/-- The instant of the latest crossing of a phase: its edge, or its prediction where no edge came. -/
def PlcPhase.crossing (x : PlcPhase) : Option Nat :=
  match x.rises, x.falls with
  | a :: _, b :: _ => some (max a b)
  | a :: _, [] => some a
  | [], b :: _ => some b
  | [], [] => none

/-- Microseconds, signed, in units of 2^-28 s. -/
def usI (n : Int) : Int := n * second / 1000000

/-- The window of a symbol about its predicted crossing (R386, R387, R414). -/
def State.plcWindow (s : State) (p : Nat) (k : Fin 4) (x : Nat) : PlcWindow :=
  let lead : Int := s.fld rPlcTxcfg 15 8
  let width : Nat := s.fld rPlcTxcfg 6 0
  let on : Int := x + usI (slotCentre k) - usI width / 2
  { phsel := p, selAt := x + usI (-405 - lead), selFree := x + usI 245, enAt := x + usI (-400 - lead), enOff := x + usI 240,
    enHigh := s.bitOf rPlcTxcfg 16, pulseAt := on, pulseOff := on + usI width, pulseHigh := s.bitOf rPlcTxcfg 7 }

/-- The symbol of the latest crossing of a phase leaves the coupler, when one is to be sent; without leave to transmit the rest of the frame is lost (R392,
R413). -/
def State.plcSymbol (s : State) (p : Nat) : State :=
  let x := s.phase p
  match x.sending with
  | [] => s
  | k :: r =>
    if s.plcTx then (s.setPhase p { x with sending := r }).emit (.pulse (s.plcWindow p k ((x.pred <|> x.crossing).getD s.dev)))
    else s.setPhase p { x with sending := [], txEnd := min x.txEnd x.count }

/-- Whether a pulse is sensed in one of the four slots: its energy exceeds the noise floor by PLC_RXCFG.THR (R388). -/
def State.plcSensed (s : State) (p : Nat) (e : PulseEnergy) : Bool :=
  let f := (s.phase p).floor
  f ≠ [] && (List.range 4).any fun k =>
    exceeds (slotEnergy e (Fin.ofNat 4 k)) ((f.map fun y => slotEnergy y (Fin.ofNat 4 k)).sum) f.length (s.fld rPlcRxcfg 6 0)

/-- What a locked phase hears about its latest crossing, outside its own windows (R388, R389): a sensed pulse moves the contention reference 64 crossings on
(R398), silence enters the noise floor. DESIGN CHOICE: nothing is sensed before the first half-cycle has set a noise floor. -/
def State.plcHear (s : State) (p : Nat) (e : PulseEnergy) : State :=
  let x := s.phase p
  if x.locked = false ∨ x.count ≤ x.txEnd then s
  else if s.plcSensed p e then s.setPhase p { x with cr := x.count + 64 }
  else s.setPhase p { x with floor := (e :: x.floor).take 64 }

/-- Half-cycles of a frame on the wire: preamble, SFD, PHR and N_PAD (R392, R393). -/
def plcHalves (mpdu : Bytes) : Nat := 34 + nPad (mpdu.length + 4)

/-! ### Short acknowledgements (R397) -/

/-- Whether a DOWN is held for a slot. -/
def State.plcDownWaits (s : State) (i : Nat) : Bool := s.plc.downs.any fun d => d.slot == i

/-! ### Reception (R395, R399, R407, R410, R411) -/

/-- FTYPE and SEC of a frame fit (R395). -/
def plcTypeOk (f : Frame) : Bool :=
  ((f.ftype == 2 || f.ftype == 4 || f.ftype == 6) && f.sec) || ((f.ftype == 3 || f.ftype == 7 || f.ftype == 8 || f.ftype == 9) && !f.sec)

/-- The receive descriptor (R410). -/
def plcDesc (qual e phase hops verdict : Nat) (caravan : Bool) : Nat :=
  min 255 qual + (255 - 8 * e) * 256 + phase * 65536 + hops * 262144 + verdict * 2 ^ 24 + flag 28 caravan

/-- How a frame came: phase of its receiver, PHASE, QUAL and the symbols corrected. -/
structure PlcRx where
  p     : Nat
  phase : Nat
  qual  : Nat
  err   : Nat
  deriving DecidableEq, Repr

/-- The end-to-end ACK to a relayed DATA or JOIN, along the reverse of its route (R407). -/
def State.endToEnd (s : State) (r : PlcRx) (f : Frame) (j : Judged) : State :=
  if f.relays.isEmpty ∨ j.verdict = 2 then s
  else
    let dst := if f.isJoin then 0xFFFFFE else f.src
    let short := match j.slot with | some i => if j.verdict = 0 then i + 1 else 0xFFFFFE | none => 0xFFFFFE
    let dp := match j.slot with | some i => s.plcDownWaits i | none => false
    let body := le 4 f.seq.toNat ++ le 1 j.verdict ++ (if f.isJoin then le 3 short ++ be 8 f.joinEui else [])
    s.plcQueue [r.p] { phase := 0, prio := 0, ackreq := false, mpdu := plcDown s (3 + 256 + flag 7 dp) dst 0 f.relays.reverse body }

/-- A frame for the coordinator judged and opened on Q3, with what it is answered (R399, R407). -/
def State.plcTake (s : State) (r : PlcRx) (f : Frame) (caravan : Bool) : State :=
  let (j, s1) := s.judge true f
  let s2 := s1.offerFrame true j ((s.phase r.p).crossing.getD s.dev) r.phase (plcDesc r.qual r.err r.phase f.relays.length j.verdict caravan) f.bytes
  let s3 := if f.ftype = 3 then
      s2.setPlc fun y => { y with sent := y.sent.filter fun d => !(d.slot + 1 == f.src && d.dcnt == f.seq.toNat) }
    else if caravan then s2 else s2.endToEnd r f j
  if f.ackreq ∧ caravan = false then
    let ltx := Machine.fld 11 3 f.bytes
    let dp := match shortSlot ltx with | some i => s3.plcDownWaits i | none => false
    let a : PendShort := { phase := r.p, at_ := (s3.phase r.p).count + 4, seq := f.seq.toNat % 65536, verd := j.verdict, dpend := dp, ltx := ltx }
    s3.setPlc fun y => { y with shorts := y.shorts ++ [a] }
  else s3

/-- The checks on a frame, or on the INNER of a caravan (R369, R395, R399, R409). -/
def State.plcCheck : Nat → State → PlcRx → Bool → Frame → State
  | 0, s, _, _, _ => s
  | n + 1, s, r, caravan, f =>
    if plcTypeOk f = false then s.count rPlcBadfrm 1
    else if s.seq.holder = false then s
    else if f.ftype = 7 then
      if bits 7 6 f.hop = 0 ∨ seenHas s.plc.seen f.orig f.cid s.t then s.count rPlcFlooddup 1
      else State.plcCheck n (s.setPlc fun y => { y with seen := seenInsert y.seen f.orig f.cid s.t }) r true (plcFrame f.inner)
    else if (f.ftype = 2 ∨ f.ftype = 3 ∨ f.ftype = 4) ∧ (caravan ∨ Machine.fld 8 3 f.bytes = 0) then s.plcTake r f caravan
    else s

end Sys2Proof.Machine
end

