-- ==== Sys2Proof/Machine/RadioOps.lean ====
section
/-! DEFINITION. The radio's operations: airtimes (R328, R751), the duty-cycle governor (R371 to R373), the transmitter (R327), wake
schedule and trains (R355 to R363), and the end of an exchange (R349, R350, R362, R363). -/
namespace Sys2Proof.Machine

/-- Write the radio. -/
def State.setRad (s : State) (f : Radio → Radio) : State := { s with rad := f s.rad }

/-! ### Airtimes (R328, R751) -/

/-- Bit rate of a mode in bit/s (R328). -/
def modeRate (m : Nat) : Nat := [2400, 4800, 9600, 19200, 50000, 100000, 100000, 200000].getD m 2400

/-- Sensitivity of a mode in dBm (R328). -/
def modeSens (m : Nat) : Int := [-125, -122, -119, -116, -111, -107, -104, -100].getD m 0

/-- Airtime of so many octets in a mode, in units of 2^-28 s. -/
def octets (m n : Nat) : Nat := 8 * n * second / modeRate m

/-- Length of a POLL, a WAKE frame and an ACK without FCS (R336, R337, R343). -/
def pollLen : Nat := 16
/-- Length of a WAKE frame. -/
def wakeLen : Nat := 12
/-- Length of an ACK. -/
def ackLen : Nat := 13

/-- Bytes of the FCS the transmitter sends (R332). -/
def State.txFcs (s : State) : Nat := if s.bitOf rRadPhy 13 then 4 else 2

/-- Airtime of a transmitted frame with the ordinary preamble (R333, R751). -/
def State.frameAir (s : State) (m len : Nat) : Nat := octets m (s.fld rRadPhy 7 0 + 4 + len + s.txFcs)

/-- Airtime of an ACK: its own preamble (R333). -/
def State.ackAir (s : State) (m len : Nat) : Nat := octets m (s.fld rRadPhy 12 8 + 4 + len + s.txFcs)

/-- PA lead (R326). -/
def State.paLead (s : State) : Nat := usU (s.fld rRadPa 13 8)

/-! ### The duty-cycle governor (R371) -/

/-- Capacity in units of 2^-28 µs. -/
def State.dutyCap (s : State) : Nat := s.fld rRadDnwait 21 10 * s.fld rRadDuty 19 0 * second

/-- The reserve kept for ACKs. -/
def State.dutyRes (s : State) : Nat := s.dutyCap * s.fld rRadDuty 31 20 / 1000

/-- The budget at an instant, refilled since it was last charged. -/
def State.budgetAt (s : State) (t : Nat) : Nat := min s.dutyCap (s.rad.budget + (t - s.rad.budgetAt) * s.fld rRadDuty 19 0)

/-- What a transmission of this airtime is charged: from PA lead through its last symbol. -/
def State.txCost (s : State) (air : Nat) : Nat := (s.paLead + air) * 1000000

/-- Whether an ACK may be sent now. -/
def State.ackPays (s : State) (cost : Nat) : Bool := decide (cost ≤ s.budgetAt s.t)

/-- Whether any other transmission of this planned cost may start now. -/
def State.txPays (s : State) (cost : Nat) : Bool := decide (cost + s.dutyRes ≤ s.budgetAt s.t)

/-- Charge a transmission; a budget that falls to the reserve sets DUTY_EXH (R373). -/
def State.charge (s : State) (cost : Nat) : State :=
  let b0 := s.budgetAt s.t
  let s1 := s.setRad fun r => { r with budget := b0 - cost, budgetAt := s.t }
  if s.dutyRes < b0 ∧ b0 - cost ≤ s.dutyRes then s1.irq rRadIrq 0 else s1

/-! ### The transmitter (R326, R327, R331, R332) -/

/-- Whether one of these transmissions is on the air somewhere from `a` to `b`, each taken from `lead` before its first symbol to `tail` after its last. -/
def TxSpan.onAir (x : TxSpan) (lead tail a b : Nat) : Bool :=
  let k := if x.period = 0 then 0 else (a + lead - x.from_) / x.period
  [k - 1, k, k + 1].any fun n =>
    decide (n < x.count) && decide (x.from_ + n * x.period < b + lead) && decide (a < x.from_ + n * x.period + x.air + tail)

/-- The frames of a train (R360, R363). -/
def Exchange.span (x : Exchange) : TxSpan := { from_ := x.from_, period := x.period, air := x.air, count := x.count }

/-- Airtime of the POLL after a train: a long preamble goes over into its SFD (R360). -/
def State.pollAir (s : State) (rc : RadClass) (own : Bool) : Nat :=
  if own then s.frameAir rc.txMode pollLen else octets rc.txMode (4 + pollLen + s.txFcs)

/-- What the transmitter has sent and what the running train sends, its POLL included (R348). -/
def State.txSpans (s : State) : List TxSpan :=
  match s.rad.xch with
  | some x =>
    if x.step = .train then
      let rc := s.radClass (s.slot x.slot).cls
      s.rad.txs ++ [x.span] ++ (if x.aborted then [] else [{ from_ := x.due, air := s.pollAir rc (rc.form || x.full) }])
    else s.rad.txs
  | none => s.rad.txs

/-- Whether the transmitter is busy, PA lead included, somewhere in a span of elapsed time. -/
def State.txBusy (s : State) (a b : Nat) : Bool := s.txSpans.any fun x => x.onAir s.paLead 0 a b

/-- Keep a transmission; those that ended 20 s ago are forgotten, longer ago than the longest frame takes. -/
def State.noteTx (s : State) (x : TxSpan) : State :=
  s.setRad fun r => { r with txs := (r.txs.filter fun y => decide (s.t ≤ y.from_ + y.count * y.period + y.air + 20 * second)) ++ [x] }

/-- The radio may transmit: it runs, the unit holds the token and TX_INH is 0 (R375). -/
def State.radTx (s : State) : Bool := s.bitOf rRadCtl 0 && s.sef.driver && !s.bitOf rRadCtl 1

/-- A frame as the transmitter sends it: PHR, FCS and whitening as RAD_PHY says, with the ordinary preamble or the ACK's (R332, R333); a preamble of no octets
of its own follows a long preamble (R360). -/
def State.airFrame (s : State) (ch air pre : Nat) (at_ : Nat) (frame : Bytes) : AirFrame :=
  let fcs4 := s.bitOf rRadPhy 13
  let dw := s.bitOf rRadPhy 14
  let psdu := frame ++ radFcs fcs4 frame
  { chan := ch % 4096, hz := s.reg rRadBase + ch % 4096 * s.fld rRadSpacing 18 0, mode := ch / 4096, dbm := s.fld rRadPa 7 0, pre := pre,
    phr := { modeSwitch := false, fcs4 := fcs4, dw := dw, len := psdu.length }, psdu := if dw then whiten psdu else psdu, start := at_, stop := at_ + air }

/-- Send a frame now on a channel word (number and mode): emitted, charged, the transmitter busy until its last symbol. -/
def State.radSendAt (s : State) (ch air pre at_ : Nat) (frame : Bytes) : State :=
  ((s.charge (s.txCost air)).emit (.radio (s.airFrame ch air pre at_ frame))).noteTx { from_ := s.t, air := air }

/-- Send a frame with the ordinary preamble. -/
def State.radSend (s : State) (ch air : Nat) (frame : Bytes) : State := s.radSendAt ch air (s.fld rRadPhy 7 0) s.t frame

/-! ### The wake schedule (R355, R357, R360) -/

/-- An endpoint the scheduler polls: ACTIVE on the radio, of a polled class, with a sampling interval, not UNREACH (R355, R365, R379). -/
def State.pollable (s : State) (i : Nat) : Bool :=
  let x := s.slot i
  x.state == .active && x.medium ≠ 1 && !x.unreach && decide (0 < x.wakeS) && decide (0 < (s.radClass x.cls).pollDiv)

/-- WPH of a slot (R355). -/
def wph (i S : Nat) : Nat := if S = 0 then 0 else i * 40503 % S

/-- The nominal wake of a slot nearest an instant in units of 2^-13 s (R355). -/
def wakeNear (i S n : Nat) : Nat :=
  let p := S * 8192
  let o := wph i S * 8192
  if n < o then o else o + (n - o + p / 2) / p * p

/-- The first nominal wake of a slot above an instant in units of 2^-13 s. -/
def wakeAfter (i S n : Nat) : Nat :=
  let p := S * 8192
  let o := wph i S * 8192
  if n < o then o else o + ((n - o) / p + 1) * p

/-- The nominal wake of the next planned poll of a slot (R355). -/
def State.nextWake (s : State) (i : Nat) : Option Nat :=
  let p := s.poll i
  let x := s.slot i
  match p.next with
  | some w => some w
  | none => p.tSync.map fun t => wakeNear i x.wakeS t + (s.radClass x.cls).pollDiv * x.wakeS * 8192

/-- A planned poll: nominal wake, predicted wake, guard and span, in units of 2^-13 s (R357). -/
structure Plan where
  w    : Nat
  tp   : Nat
  g    : Nat
  span : Nat
  deriving DecidableEq, Repr

/-- plan_poll (R357). -/
def State.planPoll (s : State) (i : Nat) : Option Plan :=
  match s.nextWake i, (s.poll i).tSync with
  | some w, some t =>
    let x := s.slot i
    let el : Int := (w : Int) - t
    let tp := ((w : Int) - (el * x.drift).tdiv 64000000).toNat
    let g := (min ((x.guard * 8192 / 1000 : Nat) + (el * x.driftUnc).tdiv 64000000) ((x.wakeS * 8192 : Nat) : Int)).toNat
    let listen := (s.radClass x.cls).listenMs * 8192 / 1000
    some { w := w, tp := tp, g := g, span := min (2 * g + listen) (x.wakeS * 8192 * 11 / 10) }
  | _, _ => none

/-- MISS_LIM of a class (R362, R378). -/
def RadClass.lim (c : RadClass) : Nat := if c.missLim = 0 then 2 else c.missLim

/-- Whether a slot waits for a recovery full train (R356, R362). -/
def State.wantsFull (s : State) (i : Nat) : Bool :=
  s.pollable i && (s.poll i).joinAt.isNone && ((s.poll i).tSync.isNone || decide ((s.radClass (s.slot i).cls).lim ≤ (s.poll i).miss))

/-- Planned cost of the exchange after a train: its POLL, MAXF ACKs and the DOWN when one is pending (R372). -/
def State.exchangeCost (s : State) (i : Nat) (own : Bool) : Nat :=
  let rc := s.radClass (s.slot i).cls
  let down := match s.rad.downs.find? fun d => d.slot == i with | some d => s.txCost (s.frameAir rc.txMode d.frame.length) | none => 0
  (if own then s.txCost (s.pollAir rc own) else s.pollAir rc own * 1000000) + atLeast1 rc.maxF * s.txCost (s.ackAir rc.txMode ackLen) + down

/-- Frames of a countdown train whose span is given in units of 2^-28 s (R360, R363). -/
def trainFrames (span air period : Nat) : Nat := if period = 0 then 1 else ceilDiv (span - air) period + 1

/-- The train of a planned poll: distance of its frames, airtime of one and their number (R360); a long preamble is one frame. -/
def State.planTrain (s : State) (rc : RadClass) (p : Plan) : Nat × Nat × Nat :=
  let span := p.span * 32768
  if rc.form then
    let air := s.frameAir rc.txMode wakeLen
    let per := air + usU rc.cdGapUs
    (per, air, trainFrames span air per)
  else (0, span, 1)

/-- The instant the POLL after a train starts, from the train's first frame on (R348, R360). -/
def trainEnd (rc : RadClass) (full : Bool) (per air count : Nat) : Nat :=
  if rc.form || full then (count - 1) * per + air + usU rc.cdGapUs else air

/-- A train planned for another slot that overlaps the span from `a` to `b` and goes first: an earlier tp, or the same and a lower slot
(R373). -/
def State.overlapped (s : State) (i : Nat) (p : Plan) (a b : Nat) : Bool :=
  (s.ctx.slots.map (·.1)).any fun j =>
    j ≠ i && s.pollable j && !s.wantsFull j &&
      (match s.planPoll j with
       | some q =>
         let rc := s.radClass (s.slot j).cls
         let (per, air, n) := s.planTrain rc q
         let a2 := (q.tp - q.g) * 32768
         let b2 := a2 + trainEnd rc false per air n
         (decide (q.tp < p.tp) || (decide (q.tp = p.tp) && decide (j < i))) && decide (a2 < b) && decide (a < b2)
       | none => false)

/-- A poll that cannot start is deferred to the endpoint's next wake (R373). -/
def State.defer (s : State) (i w : Nat) : State :=
  (s.count rRadDefercnt 1).setPoll i { s.poll i with next := some (w + (s.slot i).wakeS * 8192) }

/-- The remaining frames of a full train that its budget pays for, from frame `k` on (R372): with what the budget holds when frame `k` starts,
what each frame costs and what refills between two. -/
def framesPaid (b res cost refill remaining : Nat) : Nat :=
  if cost ≤ refill then (if cost + res ≤ b then remaining else 0)
  else if b < cost + res then 0 else min remaining ((b - cost - res) / (cost - refill) + 1)

/-- Charge the frames of a running full train that have started (R372). -/
def State.payTrain (s : State) : State :=
  match s.rad.xch with
  | some x =>
    if x.full ∧ x.step = .train then
      let k := if s.t < x.from_ then 0 else min x.count ((s.t - x.from_) / x.period + 1)
      (s.charge ((k - x.paid) * s.txCost x.air)).setRad fun r => { r with xch := some { x with paid := k } }
    else s
  | none => s

/-- Cut a running full train at the frame that finds too little budget (R372). -/
def State.retrain (s : State) : State :=
  match s.rad.xch with
  | some x =>
    if x.full ∧ x.step = .train ∧ x.aborted = false then
      let rc := s.radClass (s.slot x.slot).cls
      let k := x.paid
      let cost := s.txCost x.air
      let n := framesPaid (s.budgetAt (x.from_ + k * x.period)) s.dutyRes cost (x.period * s.fld rRadDuty 19 0) (x.count - k)
      if k + n < x.count then
        s.setRad fun r => { r with xch := some { x with count := k + n, aborted := true, due := x.from_ + (k + n) * x.period } }
      else s.setRad fun r => { r with xch := some { x with due := x.from_ + trainEnd rc true x.period x.air x.count } }
    else s
  | none => s

/-! ### The end of an exchange (R349, R350, R362, R363) -/

/-- An exchange is completed: T_SYNC takes its PT and the next poll is planned from it (R350, R355). -/
def State.xchDone (s : State) (x : Exchange) : State :=
  (s.setPoll x.slot { s.poll x.slot with tSync := some x.ptAt, next := none }).setRad fun r => { r with xch := none }

/-- An exchange ends without completing; the endpoint is polled again at its next wake. DESIGN CHOICE. -/
def State.xchEnd (s : State) (x : Exchange) : State :=
  (s.setPoll x.slot { s.poll x.slot with next := some (wakeAfter x.slot (s.slot x.slot).wakeS x.wake) }).setRad fun r => { r with xch := none }

/-- An unanswered exchange is a miss (R362, R363). -/
def State.xchMiss (s : State) (x : Exchange) : State :=
  let p := s.poll x.slot
  let p1 := if x.full then { p with ftMiss := p.ftMiss + 1, lastMiss := s.t } else { p with miss := p.miss + 1, lastMiss := s.t }
  ((s.setPoll x.slot p1).xchEnd x).notice false x.slot (if x.full then 2 else 1) 0 (x.wake % 4294967296)

/-! ### Frames of the coordinator -/

/-- A POLL (R337). -/
def pollFrame (dst pt w maxF npw : Nat) (dpend : Bool) : Bytes :=
  le 2 (1 + 256 + flag 7 dpend) ++ le 3 dst ++ le 3 0 ++ le 4 pt ++ le 2 w ++ le 1 maxF ++ le 1 (min 63 npw)

/-- A WAKE frame (R336). -/
def wakeFrame (dst cd : Nat) : Bytes := le 2 256 ++ le 3 dst ++ le 3 0 ++ le 4 cd

/-- CD of the WAKE frame that ends at one instant, for a POLL that starts at another (R336). -/
def countdown (end_ pollAt : Nat) : Nat := (pollAt - end_ + 16384) / 32768

/-- An ACK (R343). -/
def ackFrame (a : PendAck) (dpend : Bool) : Bytes :=
  le 2 (3 + 256 + flag 7 dpend) ++ le 3 a.dst ++ le 3 0 ++ le 4 a.seq ++ le 1 (a.verd + flag 3 a.cont) ++
    (match a.join with | some (e, sh) => le 3 sh ++ be 8 e | none => [])

/-- Whether a DOWN waits for a slot (R335, R343). -/
def State.downWaits (s : State) (i : Nat) : Bool := s.rad.downs.any fun d => d.slot == i

/-! ### Reception (R352, R353, R369) -/

/-- The receive descriptor (R353). -/
def radDesc (rssi : Int) (chan mode : Nat) (fcs4 dw : Bool) (verdict : Nat) (caravan full : Bool) : Nat :=
  (rssi % 256).toNat + (min 255 (max 0 (4 * (rssi - modeSens mode)))).toNat * 256 + chan * 65536 + mode * 524288 + flag 22 fcs4 + flag 23 dw +
    verdict * 2 ^ 24 + flag 28 caravan + flag 29 full

/-- The checks of R352 on a frame without its FCS. -/
def radioFrameOk (f : Frame) : Bool :=
  f.ver == 1 && (f.ftype == 2 || f.ftype == 3 || f.ftype == 4 || f.ftype == 7) &&
    f.dst == (if f.ftype = 7 then 0xFFFFFF else 0) && decide (minFrame f ≤ f.bytes.length) && f.sec == (f.isData || f.isJoin)

/-- How a frame came: channel, mode, RSSI, FCS length, whitening, and when it started. -/
structure RxInfo where
  chan : Nat
  mode : Nat
  rssi : Int
  fcs4 : Bool
  dw   : Bool
  start : Nat
  deriving DecidableEq, Repr

/-- Whether a frame belongs to the exchange in progress (R348, R349): DATA from the polled slot in the time it has to start. -/
def Exchange.takes (x : Exchange) (f : Frame) (start : Nat) : Bool :=
  f.isData && f.src == x.slot + 1 && (x.step == .polled || x.step == .cont) && decide (start ≤ x.due)

/-- A frame judged and opened on Q1, its ACK waiting for its instant (R344, R348, R349, R352). -/
def State.radTake (s : State) (r : RxInfo) (f : Frame) (caravan : Bool) : State :=
  let x := match s.rad.xch with | some x => if !caravan && x.takes f r.start then some x else none | none => none
  let downAck := match s.rad.xch with
    | some y => decide (y.step = .downSent) && f.ftype == 3 && f.src == y.slot + 1 && !caravan && decide (r.start ≤ y.due)
    | none => false
  let full := (match s.rad.xch with | some y => y.full | none => false) && (x.isSome || downAck)
  let (j, s1) := s.judge false f
  let s2 := s1.offerFrame false j s.dev r.chan (radDesc r.rssi r.chan r.mode r.fcs4 r.dw j.verdict caravan full) f.bytes
  let acks := f.ackreq && !caravan && (f.isData || f.isJoin)
  let s3 := match x with
    | none => s2
    | some y =>
      let s4 := s2.setPoll y.slot { s2.poll y.slot with miss := 0, ftMiss := 0 }
      let y1 := { y with frames := y.frames + 1, answered := true, acked := false, step := .lastAck }
      if acks then s4.setRad fun q => { q with xch := some y1 } else s4.xchEnd y1
  let s5 := match s3.rad.xch with
    | some y => if downAck then s3.xchDone y else s3
    | none => s3
  if acks then
    let sent := match x with
      | some y => decide (y.frames + 1 < y.maxF)
      | none => f.isData && (match j.slot with | some i => decide (1 < atLeast1 (s.radClass (s.slot i).cls).maxF) | none => false)
    let cont := (j.verdict == 0 || j.verdict == 1) && f.more && sent
    let short := match j.slot with | some i => if j.verdict = 0 then i + 1 else 0xFFFFFE | none => 0xFFFFFE
    let a : PendAck :=
      { chan := r.chan, mode := r.mode, ended := s.t, due := s.t + usU 400, dst := if f.isJoin then 0xFFFFFE else f.src, slot := j.slot,
        seq := f.seq.toNat, verd := j.verdict, cont := cont, join := if f.isJoin then some (f.joinEui, short) else none, xch := x.isSome }
    s5.setRad fun q => { q with acks := q.acks ++ [a] }
  else s5

/-- The checks from step 2 of R352 on, for a frame or for the INNER of a caravan (R369). -/
def State.radCheck : Nat → State → RxInfo → Bool → Bytes → State
  | 0, s, _, _, _ => s
  | n + 1, s, r, caravan, b =>
    let f := radioFrame b
    if radioFrameOk f = false then s.count rRadBadfrm 1
    else if s.seq.holder = false then s
    else if f.ftype = 7 then
      if bits 7 6 f.hop = 0 ∨ seenHas s.rad.seen f.orig f.cid s.t then s.count rRadFlooddup 1
      else State.radCheck n (s.setRad fun q => { q with seen := seenInsert q.seen f.orig f.cid s.t }) r true f.inner
    else s.radTake r f caravan

end Sys2Proof.Machine
end

