-- ==== Sys2Proof/Machine/SectionOps.lean ====
section
/-! DEFINITION. The sections of the configuration image as the boot ROM reads them: when a section is rejected, and the registers and tables it
loads (R100 to R104, R189, R211 to R216, R266 to R269, R321, R322, R377 to R379, R415, R416, R467, R468, R503 to R506, R520, R597, R598,
R639, R640, R686 to R690). -/
namespace Sys2Proof.Machine

/-- Whether a number lies in a range. -/
def within (lo hi n : Nat) : Bool := decide (lo ≤ n) && decide (n ≤ hi)

/-- Whether a signed number lies in a range. -/
def withinI (lo hi n : Int) : Bool := decide (lo ≤ n) && decide (n ≤ hi)

/-- Whether a list of numbers rises strictly. -/
def rising : List Nat → Bool
  | a :: b :: r => decide (a < b) && rising (b :: r)
  | _ => true

/-! ### SYS, ROLE, RING, ERG (R686 to R690) -/

/-- A SYS section is accepted (R684, R687). -/
def sysOk (b : Bytes) : Bool := b.length == 32 && fld 0 1 b == 1 && decide (bits 5 4 (fld 1 1 b) ≠ 3)

/-- The ROLE that a section body gives; none when it is not valid (R688). -/
def roleOf (b : Bytes) : Option Role :=
  if b.length = 4 ∧ fld 0 1 b = 1 ∧ fld 2 2 b = 0 then
    (match fld 1 1 b with | 1 => some .field | 2 => some .head | _ => none)
  else none

/-- The default geometry of a ring: SIZE_LOG2 and base (R101). -/
def defaultRing (n : Nat) : Nat × Nat :=
  [(12, 0x60000), (14, 0x48000), (13, 0x5C000), (13, 0x5E000), (12, 0x61000), (16, 0x00000), (16, 0x10000), (15, 0x30000), (15, 0x38000),
   (14, 0x4C000), (14, 0x50000), (14, 0x54000), (16, 0x20000), (15, 0x40000), (14, 0x58000), (10, 0x62000)].getD n (8, 0)

/-- The geometry a RING section gives each ring, a later entry over an earlier one (R101, R689). -/
def ringGeometry (b : Bytes) : List (Nat × Nat) :=
  (List.range (fld 1 1 b)).foldl (fun g k =>
    let e := fld (4 + 4 * k) 4 b
    g.set (bits 3 0 e) (bits 8 4 e, bits 31 12 e)) ((List.range 16).map defaultRing)

/-- R100 and R102 for the geometry of the sixteen rings: sizes, alignment, place, no overlap. -/
def ringsFit (g : List (Nat × Nat)) : Bool :=
  g.all (fun r => within 8 16 r.1 && r.2 % 2 ^ r.1 == 0 && decide (r.2 + 2 ^ r.1 ≤ 524288)) &&
  g.zipIdx.all fun x => g.zipIdx.all fun y =>
    decide (y.2 ≤ x.2) || decide (x.1.2 + 2 ^ x.1.1 ≤ y.1.2) || decide (y.1.2 + 2 ^ y.1.1 ≤ x.1.2)

/-- A RING section is taken (R102, R689). -/
def ringOk (b : Bytes) : Bool :=
  fld 0 1 b == 1 && decide (fld 1 1 b ≤ 16) && b.length == 4 + 4 * fld 1 1 b && ringsFit (ringGeometry b)

/-- An ERG section is accepted (R690). -/
def ergOk (b : Bytes) : Bool := b.length == 16 && fld 0 1 b == 1

/-- Load several registers. -/
def State.setRegs (s : State) (l : List (Nat × Nat)) : State := l.foldl (fun a p => a.setReg p.1 p.2) s

/-- A configuration warning event about a section (R685). -/
def State.cfgWarn (s : State) (ty : Nat) : State := s.event 0x40 ty

/-- Load the SYS section (R686). -/
def State.loadSys (s : State) (b : Bytes) : State :=
  let f := Machine.fld 1 1 b
  let s1 := s.setRegs [(rArbCtl, flag 1 (bit 0 f)), (rSysGasp, flag 0 (bit 1 f) + bits 3 2 f * 2), (rJsqBhold, Machine.fld 2 2 b),
    (rArbPoolLo, Machine.fld 8 4 b % 131072), (rArbPoolHi, Machine.fld 12 4 b % 131072), (rSysLadder, Machine.fld 16 2 b % 1024),
    (rSysTherm, setBits 7 0 (s.reg rSysTherm) (Machine.fld 20 1 b))]
  let s2 := if s1.locked then s1 else s1.setFld rOasPwr 29 16 (Machine.fld 18 2 b)
  { s2 with cfg := { s2.cfg with sysaddr := Machine.fld 4 4 b % 2 ^ 18, hashKey := Machine.fld 24 8 b },
            boot := { s2.boot with updMode := bits 5 4 f, cardOk := bit 6 f, updHour := Machine.fld 21 1 b } }

/-- Give the rings their geometry and enable them (R101, R104, R689). -/
def State.loadRings (s : State) (g : List (Nat × Nat)) (on : Nat → Bool) : State :=
  { s with rings := (List.range 16).map fun n => { sizeLog2 := (g.getD n (8, 0)).1, base := (g.getD n (8, 0)).2, en := on n } }

/-- Load the ERG section (R690). -/
def State.loadErg (s : State) (b : Bytes) : State :=
  let f := Machine.fld 1 1 b
  s.setRegs [(rErgCtl, flag 1 (bit 0 f) + flag 2 (bit 1 f)), (rErgSteal, Machine.fld 2 1 b + Machine.fld 3 1 b * 256),
    (rErgPwr, Machine.fld 4 1 b % 16 + Machine.fld 6 2 b * 256 + Machine.fld 5 1 b * 2 ^ 24),
    (rErgWake, Machine.fld 8 2 b + Machine.fld 10 2 b * 65536), (rErgMirage, Machine.fld 12 1 b % 32)]

/-! ### VALID, TARIFF, BALANCE (R189, R211 to R216, R266 to R269) -/

/-- A class entry (R189). -/
def classEntOf (b : Bytes) : ClassEnt :=
  let k := fld 0 1 b
  let m := fld 2 1 b
  let a := fld 3 1 b
  { kind := if k ≤ 5 then k else 0, unit := min 4 (fld 1 1 b), bidir := bit 0 m, level := bit 1 m, profile := bit 2 m, low := bits 1 0 a,
    high := bits 3 2 a, modulus := fld 4 6 b, profMax := fld 10 2 b, minStep := fld 12 4 b, maxStep := fld 16 4 b, levelMin := fldI 20 4 b,
    levelMax := fldI 24 4 b }

/-- The VALID section (R189); none when its length is wrong. -/
def validOf (b : Bytes) : Option (List ClassEnt) :=
  if b.length = 512 then some ((List.range 16).map fun c => classEntOf (sub (32 * c) 32 b)) else none

/-- The days of a month of a year after 2000; year 127, of every year, takes in 29 February (R215). -/
def daysIn (year month : Nat) : Nat := if year = 127 then monthDays 2000 month else monthDays (2000 + year : Nat) month

/-- The tariff calendar as its section lays it out (R211 to R215). -/
def tariffOf (b : Bytes) : Tariff :=
  let d := sub 16 16 b
  { demLen := fld 1 1 b, inclInc := bit 0 (fld 2 1 b), perMode := fld 3 1 b, perDay := fld 4 1 b, perHour := fld 5 1 b, perNdays := fld 6 2 b,
    stdOff := fldI 8 2 b, classMask := fld 12 2 b,
    dst := { en := fld 0 1 d == 1, save := fldI 2 2 d, sMonth := fld 4 1 d, sWeek := fld 5 1 d, sWday := fld 6 1 d, sMin := fld 8 2 d,
             eMonth := fld 10 1 d, eWeek := fld 11 1 d, eWday := fld 12 1 d, eMin := fld 14 2 d },
    seasons := (List.range (fld 10 1 b)).map fun k =>
      let e := sub (32 + 16 * k) 16 b
      { month := fld 0 1 e, day := fld 1 1 e, week := (List.range 7).map fun w => fld (2 + w) 1 e },
    profs := (List.range 16).map fun k =>
      let e := sub (96 + 28 * k) 28 b
      { startBand := fld 0 1 e, sw := (List.range (fld 1 1 e)).map fun j => let w := fld (4 + 2 * j) 2 e; (bits 10 0 w, bits 14 12 w) },
    specials := (List.range (fld 11 1 b)).map fun k =>
      let w := fld (544 + 4 * k) 4 b
      { year := bits 6 0 w, month := bits 10 7 w, day := bits 15 11 w, profile := bits 19 16 w } }

/-- The DST rule's fields are in range (R212). -/
def dstOk (r : Dst) : Bool :=
  withinI (-120) 120 r.save && decide (r.save ≠ 0) && within 1 12 r.sMonth && within 1 5 r.sWeek && decide (r.sWday ≤ 6) && decide (r.sMin ≤ 1439) &&
  within 1 12 r.eMonth && within 1 5 r.eWeek && decide (r.eWday ≤ 6) && decide (r.eMin ≤ 1439)

/-- A TARIFF section is accepted (R216). -/
def tariffOk (b : Bytes) : Bool :=
  let t := tariffOf b
  b.length == 800 && fld 0 1 b == 1 && [0, 5, 10, 15, 30, 60].contains t.demLen && decide (t.perMode ≤ 2) &&
  (t.perMode ≠ 1 || within 1 28 t.perDay) && (t.perMode ≠ 2 || within 1 366 t.perNdays) && (t.perMode == 0 || decide (t.perHour ≤ 23)) &&
  withinI (-720) 840 t.stdOff && within 1 4 (fld 10 1 b) && decide (fld 11 1 b ≤ 64) && decide (fld 16 1 b ≤ 1) && (!t.dst.en || dstOk t.dst) &&
  rising (t.seasons.map fun x => x.month * 32 + x.day) &&
  (t.seasons.all fun x => within 1 12 x.month && within 1 (monthDays 2001 x.month) x.day && x.week.all fun w => decide (w ≤ 15)) &&
  (t.profs.all fun p => decide (p.startBand ≤ 7) && decide (p.sw.length ≤ 12) && rising (p.sw.map (·.1)) &&
    p.sw.all fun w => within 1 1439 w.1) &&
  (t.specials.all fun x => within 1 12 x.month && within 1 (daysIn x.year x.month) x.day)

/-- Load the TARIFF section (R211, R260). -/
def State.loadTariff (s : State) (b : Bytes) : State :=
  let t := tariffOf b
  let s1 := s.setRegs [(rBilDemcfg, t.demLen + flag 8 t.inclInc),
    (rBilPercfg, t.perMode % 4 + t.perDay % 32 * 4 + t.perHour % 32 * 128 + t.perNdays % 512 * 4096)]
  { s1 with cfg := { s1.cfg with tariff := some t } }

/-- A balance group entry (R267). -/
def balGroupOf (b : Bytes) : BalGroup :=
  let f := fld 0 1 b
  { en := bit 0 f, phase := bit 1 f, feederRef := bit 2 f, steps := bit 3 f, kind := fld 1 1 b, len := fld 2 2 b, grace := fld 4 2 b,
    feedPh := fld 6 1 b % 8, alarm := fld 7 1 b, fixedLoss := fld 8 4 b, lossPpm := fld 12 4 b, tolPpm := fld 16 4 b, coverMin := fld 20 4 b,
    matchMs := fld 24 2 b, tolW := fld 26 2 b, tolPct := fld 28 1 b, consec := fld 29 1 b }

/-- The BALANCE section (R266 to R268). -/
def balanceOf (b : Bytes) : Balance :=
  let n := fld 2 2 b
  { groups := (List.range n).map fun g => balGroupOf (sub (8 + 32 * g) 32 b),
    frefs := (List.range (fld 4 2 b)).map fun k =>
      let e := sub (8 + 32 * n + 8 * k) 8 b
      { sysaddr := fld 0 4 e % 2 ^ 18, field := fld 4 2 e % 4096, head := fld 6 2 e % 4096 } }

/-- The fields of an enabled group are in range (R267, R269). -/
def balGroupOk (head : Bool) (g : BalGroup) : Bool :=
  within 1 4 g.kind && [5, 10, 15, 30, 60, 1440].contains g.len && decide (g.grace ≤ 3 * g.len) && within 1 255 g.alarm &&
  decide (g.lossPpm ≤ 1000000) && decide (g.tolPpm ≤ 1000000) && decide (g.coverMin ≤ 1000000) && decide (g.matchMs ≤ 10000) &&
  decide (g.tolPct ≤ 100) && within 1 15 g.consec && (g.kind == 1 || !(g.phase || g.feederRef || g.steps)) && (!g.steps || g.feederRef) &&
  !(head && g.feederRef)

/-- A BALANCE section is accepted (R269). -/
def balanceOk (role : Role) (b : Bytes) : Bool :=
  let n := fld 2 2 b
  let m := fld 4 2 b
  fld 0 1 b == 1 && within 1 4096 n && decide (m ≤ 1024) && b.length == 8 + 32 * n + 8 * m &&
  (role == .head || m == 0) &&
  (let x := balanceOf b
   (x.groups.all fun g => (!g.en || balGroupOk (role == .head) g) && !(role == .head && g.feederRef)) && decide ((x.frefs.map fun f => (f.sysaddr, f.field)).Nodup))

/-! ### METER (R321, R322) -/

/-- A METER section is accepted (R322). -/
def meterOk (b : Bytes) : Bool :=
  let en := fld 1 1 b % 128
  let sel := fld 3 1 b
  let single := bit 0 (fld 2 1 b)
  b.length == 144 && fld 0 1 b == 1 && decimation (bits 2 0 sel) == decimation (bits 5 3 sel) && within 1 50 (fld 4 1 b) &&
  decide (bits 19 0 (fld 8 4 b) ≠ 0) && decide (bits 29 20 (fld 8 4 b) ≤ 1000) &&
  ((List.range 7).all fun n => !bit n en || decide (fld (44 + 16 * n) 4 b ≠ 0)) &&
  ((List.range 7).all fun n => decide (bits 18 16 (fld (40 + 16 * n) 4 b) ≤ 4)) &&
  (!single || (List.range 7).all fun n => !bit n en || n == 0 || n == 3 || n == 6) && decide (en % 8 ≠ 0)

/-- Load the METER section (R321): the front end itself is enabled on its rung. -/
def State.loadMeter (s : State) (b : Bytes) : State :=
  let sel := Machine.fld 3 1 b
  let m := Machine.fld 2 1 b
  let s1 := s.setRegs [(rMtrCtl, Machine.fld 1 1 b % 128 * 2 + flag 8 (bit 0 m) + flag 9 (bit 1 m) + Machine.fld 5 1 b % 8 * 1024),
    (rMtrSel, sel + Machine.fld 4 1 b % 64 * 256), (rMtrVnom, bits 29 0 (Machine.fld 8 4 b)), (rMtrStep0, Machine.fld 12 4 b),
    (rMtrStep1, Machine.fld 16 4 b % 65536), (rMtrRev, Machine.fld 20 4 b % 2 ^ 24),
    (rMtrByp, bits 9 0 (Machine.fld 24 4 b) + bits 23 16 (Machine.fld 24 4 b) * 65536), (rMtrNeu, bits 27 0 (Machine.fld 28 4 b))]
  (List.range 7).foldl (fun a n =>
    let t := Machine.fld (40 + 16 * n) 4 b
    a.setRegs [(rMtrGain n, Machine.fld (32 + 16 * n) 4 b % 2 ^ 24), (rMtrOfs n, Machine.fld (36 + 16 * n) 4 b % 2 ^ 24),
      (rMtrTrim n, if n < 3 then bits 15 0 t else bits 18 0 t), (rMtrFs n, Machine.fld (44 + 16 * n) 4 b)]) s1

/-! ### RADIO, PLC (R377 to R379, R415, R416) -/

/-- A radio class entry (R378). -/
def radClassOf (b : Bytes) : RadClass :=
  let t := fld 3 1 b
  { pollDiv := fld 0 2 b, maxF := fld 2 1 b, form := bit 0 t, rch := bits 3 1 t, missLim := bits 6 4 t, relay := bit 7 t,
    listenMs := fld 4 2 b, listenFt := fld 6 2 b, txCh := bits 11 0 (fld 8 2 b), txMode := bits 14 12 (fld 8 2 b), cdGapUs := fld 10 2 b,
    uInit := fld 12 2 b, uMin := fld 14 1 b, guardMs := fld 15 1 b }

/-- Half the least spacing of a mode in Hz, doubled twice to stay whole: the least channel spacing × 2 (R328). -/
def leastSpacing (m : Nat) : Nat := [12500, 12500, 25000, 50000, 100000, 200000, 200000, 400000].getD m 12500

/-- The enabled receive channels of a RADIO section: twice the centre in Hz, and the least spacing. -/
def rxChannels (b : Bytes) : List (Nat × Nat) :=
  (List.range 8).filterMap fun n =>
    let c := fld (12 + 2 * n) 2 b
    if bit 15 c then some (2 * (fld 4 4 b + bits 11 0 c * fld 8 4 b), leastSpacing (bits 14 12 c)) else none

/-- The channelizer can take the enabled channels (R330), in half hertz. -/
def channelsFit (l : List (Nat × Nat)) : Bool :=
  (l.all fun x => l.all fun y => decide (x.1 + x.2 ≤ y.1 - y.2 + 4000000)) &&
  l.zipIdx.all fun x => l.zipIdx.all fun y => decide (y.2 ≤ x.2) || decide (x.1.1 + x.1.2 ≤ y.1.1 - y.1.2) || decide (y.1.1 + y.1.2 ≤ x.1.1 - x.1.2)

/-- R360 for a class in the countdown form: LISTEN_MS is at least P + T_WAKE. -/
def listenOk (pre fcs : Nat) (c : RadClass) : Bool :=
  let rate := modeRate c.txMode
  !c.form || decide (16 * (pre + 4 + wakeLen + fcs) * 1000000 + c.cdGapUs * rate ≤ c.listenMs * 1000 * rate)

/-- The fields of a class in use are in range (R360, R378, R379). -/
def radClassOk (b : Bytes) (c : RadClass) : Bool :=
  within 1 32 c.maxF && within 1 1000 c.listenMs && within c.listenMs 10000 c.listenFt && within 100 65535 c.cdGapUs && within 64 65535 c.uInit &&
  within 1 255 c.uMin && within 1 255 c.guardMs && listenOk (fld 2 1 b) (if bit 4 (fld 1 1 b) then 4 else 2) c &&
  (c.pollDiv == 0 || bit 15 (fld (12 + 2 * c.rch) 2 b))

/-- A RADIO section is accepted (R330, R360, R377 to R379). -/
def radioOk (b : Bytes) : Bool :=
  b.length == 296 && fld 0 1 b == 1 && within 4 255 (fld 2 1 b) && within 4 16 (fld 3 1 b) && within 400000000 960000000 (fld 4 4 b) &&
  within 12500 400000 (fld 8 4 b) && within 1 1000000 (fld 28 4 b) && within 1 3600 (fld 32 2 b) &&
  decide (fld 34 1 b + flag 8 (bit 6 (fld 1 1 b)) ≤ 500) && decide (fld 35 1 b ≤ 63) && withinI (-20) 32 (fldI 36 1 b) &&
  withinI (-127) 127 (fldI 37 1 b) && within 1 720 (fld 38 2 b) &&
  ((rxChannels b).all fun x => within 800000000 1920000000 x.1) && channelsFit (rxChannels b) &&
  (List.range 16).all fun c =>
    let e := sub (40 + 16 * c) 16 b
    (e.all fun x => x == 0) || radClassOk b (radClassOf e)

/-- Load the RADIO section (R377): the radio itself is enabled on its rung. -/
def State.loadRadio (s : State) (b : Bytes) : State :=
  let f := Machine.fld 1 1 b
  let s1 := s.setRegs [(rRadBase, Machine.fld 4 4 b), (rRadSpacing, Machine.fld 8 4 b),
    (rRadPa, Machine.fld 36 1 b + Machine.fld 35 1 b * 256 + flag 14 (bit 0 f) + flag 15 (bit 1 f) + flag 16 (bit 2 f) + flag 17 (bit 3 f)),
    (rRadPhy, Machine.fld 2 1 b + Machine.fld 3 1 b * 256 + flag 13 (bit 4 f) + flag 14 (bit 5 f) + Machine.fld 37 1 b * 65536),
    (rRadDuty, Machine.fld 28 4 b + (Machine.fld 34 1 b + flag 8 (bit 6 f)) * 2 ^ 20), (rRadDnwait, Machine.fld 38 2 b + Machine.fld 32 2 b * 1024)]
  let s2 := (List.range 8).foldl (fun a n => a.setReg (rRadRxch n) (Machine.fld (12 + 2 * n) 2 b)) s1
  { s2 with cfg := { s2.cfg with radio := (List.range 16).map fun c => radClassOf (sub (40 + 16 * c) 16 b) } }

/-- A PLC section is accepted (R415, R416). -/
def plcOk (b : Bytes) : Bool :=
  b.length == 24 && fld 0 1 b == 1 && decide (fld 1 1 b % 8 ≠ 0) && within 10 80 (fld 2 1 b) && within 20 200 (fld 3 1 b) && within 8 96 (fld 4 1 b) &&
  decide (fld 5 1 b ≤ 7) && within 10 3600 (fld 6 2 b) && ((List.range 3).all fun p => withinI (-5000) 5000 (fldI (8 + 2 * p) 2 b)) &&
  decide (fld 14 1 b ≤ 7) && within 1 15 (fld 15 1 b) && within 1 720 (fld 16 2 b)

/-- Load the PLC section (R415): the channel itself is enabled on its rung. -/
def State.loadPlc (s : State) (b : Bytes) : State :=
  let f := Machine.fld 1 1 b
  s.setRegs [(rPlcCtl, f % 8 * 4), (rPlcTxcfg, Machine.fld 2 1 b + flag 7 (bit 3 f) + Machine.fld 3 1 b * 256 + flag 16 (bit 4 f)),
    (rPlcRxcfg, Machine.fld 4 1 b + Machine.fld 5 1 b * 256 + Machine.fld 14 1 b * 4096), (rPlcBeacon, Machine.fld 6 2 b + Machine.fld 15 1 b * 4096),
    (rPlcDnwait, Machine.fld 16 2 b), (rPlcZctrim 0, Machine.fld 8 2 b), (rPlcZctrim 1, Machine.fld 10 2 b), (rPlcZctrim 2, Machine.fld 12 2 b)]

/-! ### NET, TIME, OUT (R467, R468, R503 to R506) -/

/-- A NET section is accepted (R468). -/
def netOk (b : Bytes) : Bool :=
  let f := fld 1 1 b
  let zero (l : Bytes) : Bool := l.all fun x => x == 0
  let ip6 := sub 16 16 b
  let head6 := !zero (sub 48 16 b)
  b.length == 96 && fld 0 1 b == 1 && !bit 0 (fld 4 1 b) && decide (fld 10 1 b ≤ 31) && decide (fld 11 1 b ≤ 31) && within 1 256 (fld 12 2 b) &&
  within 10 60000 (fld 14 2 b) && (!bit 2 f || zero ip6 || within 1 128 (fld 32 1 b)) && decide (fld 33 1 b ≠ 0) &&
  (!bit 5 f || (within 1 100 (fld 34 1 b) && decide (fld 35 1 b < fld 34 1 b))) && (!bit 4 f || within 1 32 (fld 40 1 b)) &&
  (bit 0 f || bit 1 f) && (bit 2 f || bit 4 f) && (if head6 then bit 2 f else bit 4 f) && (!bit 2 f || bit 3 f || !zero ip6)

/-- Load the NET section (R467): the block itself is enabled on its rung. -/
def State.loadNet (s : State) (b : Bytes) : State :=
  let port (n : Nat) : Nat := if n = 0 then 47200 else n
  let s1 := s.setRegs [(rNetCtl, Machine.fld 1 1 b % 128 * 2), (rNetMaclo, fldB 4 6 b % 2 ^ 32), (rNetMachi, fldB 4 6 b / 2 ^ 32),
    (rNetUdp, port (Machine.fld 2 2 b) + port (Machine.fld 68 2 b) * 65536), (rNetIp4, fldB 36 4 b),
    (rNetWin, Machine.fld 12 2 b + Machine.fld 14 2 b * 65536), (rNetPause, Machine.fld 34 1 b + Machine.fld 35 1 b * 256)]
  { s1 with cfg := { s1.cfg with net := { ip6 := sub 16 16 b, plen6 := Machine.fld 32 1 b, hopLimit := Machine.fld 33 1 b, plen4 := Machine.fld 40 1 b,
                                          gw4 := sub 44 4 b, headIp6 := sub 48 16 b, headIp4 := sub 64 4 b, gw6 := sub 72 16 b,
                                          phyA := Machine.fld 10 1 b, phyB := Machine.fld 11 1 b } } }

/-- The leap entries of a TIME section (R503). -/
def leapsOf (b : Bytes) : List Leap := (List.range (fld 3 1 b)).map fun k => { at_ := fld (24 + 8 * k) 6 b, offset := fld (30 + 8 * k) 1 b }

/-- Every offset of a list differs from the one before it by one second (R504). -/
def stepsOfOne : List Nat → Bool
  | a :: b :: r => (a + 1 == b || b + 1 == a) && stepsOfOne (b :: r)
  | _ => true

/-- A TIME section is accepted (R503, R504). -/
def timeOk (b : Bytes) : Bool :=
  let f := fld 1 1 b
  b.length == 88 && fld 0 1 b == 1 && decide (bits 4 3 f ≤ 2) && decide (fld 2 1 b ≤ 127) && decide (fld 3 1 b ≤ 8) && decide (fld 4 2 b ≤ 255) &&
  within 1 500 (fld 8 2 b) && within 2 255 (fld 10 1 b) && within 1 48 (fld 11 1 b) && within 10 65535 (fld 12 2 b) && within 1 60000 (fld 14 2 b) &&
  withinI (-40) 85 (fldI 18 1 b) && rising ((leapsOf b).map fun l => l.at_) && stepsOfOne (fld 4 2 b :: (leapsOf b).map fun l => l.offset)

/-- Load the TIME section (R503): the block itself is enabled on its rung. -/
def State.loadTime (s : State) (b : Bytes) : State :=
  let f := Machine.fld 1 1 b
  let s1 := s.setRegs [(rTimCtl, bits 6 0 f * 2 + Machine.fld 2 1 b * 256), (rTimServo, Machine.fld 6 2 b + Machine.fld 8 2 b * 65536),
    (rTimLimits, Machine.fld 12 2 b + Machine.fld 10 1 b * 65536 + Machine.fld 11 1 b * 2 ^ 24),
    (rTimAlarm, setBits 15 0 (s.reg rTimAlarm) (Machine.fld 14 2 b))]
  let s2 := if s1.locked then s1 else s1.setReg rOasTcurve (Machine.fld 16 2 b + Machine.fld 18 1 b * 65536)
  { s2 with cfg := { s2.cfg with utcBase := (Machine.fld 4 2 b : Nat), leaps := leapsOf b } }

/-- Defaults without a TIME section (R504). -/
def State.defaultTime (s : State) : State :=
  let s1 := s.setRegs [(rTimCtl, 0), (rTimServo, 100 + 100 * 65536), (rTimLimits, 1000 + 10 * 65536 + 24 * 2 ^ 24),
    (rTimAlarm, setBits 15 0 (s.reg rTimAlarm) 1000)]
  let s2 := if s1.locked then s1 else s1.setReg rOasTcurve (2228 + 25 * 65536)
  { s2 with cfg := { s2.cfg with utcBase := 37, leaps := [] } }

/-- The fields of an enabled timed output are in range (R505, R506). -/
def ctlEntryOk (e : Bytes) : Bool :=
  decide (fld 0 1 e ≤ 3) && within 1 1000000 (fld 4 4 e) &&
  (fld 0 1 e ≠ 2 || (decide (msU 1 ≤ fld 16 8 e) && decide (fld 4 4 e * second < fld 16 8 e * 1000000))) && decide (fld 28 4 e ≤ 86400000)

/-- An OUT section is accepted (R506). -/
def outOk (b : Bytes) : Bool :=
  b.length == 276 && fld 0 1 b == 1 && (List.range 8).all fun n => !bit n (fld 1 1 b) || ctlEntryOk (sub (4 + 32 * n) 32 b)

/-- Load the OUT section (R505): enabled entries only. -/
def State.loadOut (s : State) (b : Bytes) : State :=
  let s1 := (List.range 8).foldl (fun a n =>
    let e := sub (4 + 32 * n) 32 b
    if bit n (Machine.fld 1 1 b) then
      a.setRegs [(rTimCtlcfg n, Machine.fld 0 1 e + flag 2 (bit 0 (Machine.fld 1 1 e)) + bits 3 1 (Machine.fld 1 1 e) * 8 + Machine.fld 2 1 e * 256 +
        Machine.fld 3 1 e * 65536), (rTimCtlwidth n, Machine.fld 4 4 e), (rTimCtlstartLo n, Machine.fld 8 4 e), (rTimCtlstartHi n, Machine.fld 12 4 e),
        (rTimCtlperLo n, Machine.fld 16 4 e), (rTimCtlperHi n, Machine.fld 20 4 e), (rTimCtlcount n, Machine.fld 24 4 e),
        (rTimCtldelay n, Machine.fld 28 4 e)]
    else a) s
  (List.range 4).foldl (fun a k =>
    let w := Machine.fld (260 + 4 * k) 4 b
    if bit k (Machine.fld 2 1 b) then a.setReg (rTimEvtcfg k) (bits 1 0 w + 4 + bits 15 8 w * 256) else a) s1

/-! ### MEDIA, SEIF, SEC (R520, R597, R598, R639, R640) -/

/-- A MEDIA section is accepted (R566, R597, R598). -/
def mediaOk (b : Bytes) : Bool :=
  let n := fld 50 1 b
  b.length == 152 && fld 0 1 b == 1 && decide (fld 1 1 b % 4 ≤ 2) && within 1 20 (fld 2 1 b) && decide (fld 3 1 b % 16 ≠ 0) && decide (fld 5 1 b ≤ 2) &&
  within 1 255 (fld 6 1 b) && within 32 90 (fld 7 1 b) && within 10 200 (fld 8 2 b) && within 100 65535 (fld 10 2 b) && within 1 60000 (fld 12 2 b) &&
  within 1 65535 (fld 14 2 b) && within 10 500 (fld 16 2 b) && within 4 255 (fld 18 2 b) && decide (fld 20 2 b ≤ 500) &&
  decide (8192 ≤ fld 24 4 b) && decide (256 ≤ fld 28 4 b) && decide (1024 ≤ fld 32 4 b) && decide (16 ≤ fld 36 4 b) &&
  within 16 65536 (fld 40 4 b) && within 1 168 (fld 49 1 b) && within 1 16 n && (List.range 32).all fun k => decide (fld (116 + k) 1 b < n)

/-- Load the MEDIA section (R597): Sabkha itself is enabled on its rung. -/
def State.loadMedia (s : State) (b : Bytes) : State :=
  let s1 := s.setReg rMedCtl (Machine.fld 5 1 b * 2)
  { s1 with
    med := { s1.med with slcPrefix := Machine.fld 4 1 b, retMode := Machine.fld 5 1 b, patrolD := Machine.fld 6 1 b, refreshT := Machine.fld 7 1 b,
                         sparePm := Machine.fld 8 2 b, peLimit := Machine.fld 10 2 b, flushMs := Machine.fld 12 2 b, bgIdle := Machine.fld 14 2 b,
                         bgFree := Machine.fld 16 2 b, fgFree := Machine.fld 18 2 b, cacheMax := Machine.fld 20 2 b, jretH := Machine.fld 22 2 b,
                         caps := (List.range 4).map fun k => Machine.fld (24 + 4 * k) 4 b, healthH := Machine.fld 49 1 b, retryN := Machine.fld 50 1 b,
                         retryFa := Machine.fld 51 1 b, retryP := (List.range 16).map fun k => sub (52 + 4 * k) 4 b, iface := Machine.fld 1 1 b % 4,
                         rate := Machine.fld 2 1 b, ceEn := Machine.fld 3 1 b % 16, tt := (List.range 32).map fun k => Machine.fld (116 + k) 1 b },
    evr := { s1.evr with capBytes := Machine.fld 40 4 b * 1048576, repeatS := Machine.fld 48 1 b } }

/-- The ranges of a SEIF section (R639, R640); the unit's own position is judged once it is known. -/
def seifOk (b : Bytes) : Bool :=
  let m := (List.range 3).map fun k => fld (2 + k) 1 b % 32
  b.length == 16 && fld 0 1 b == 1 && within 1 1000 (fld 6 2 b) && within 2 1000 (fld 8 2 b) && within 100 4000 (fld 10 2 b) &&
  within 1 1048576 (fld 12 4 b) && (!bit 0 (fld 1 1 b) || decide m.Nodup)

/-- Load the SEIF section (R639): the links are enabled on their rung. -/
def State.loadSeif (s : State) (b : Bytes) : State :=
  let f := Machine.fld 1 1 b
  s.setRegs [(rSefCtl, flag 1 (bit 0 f) + flag 2 (bit 1 f)),
    (rSefMember, setBits 20 0 (s.reg rSefMember) (Machine.fld 2 1 b % 32 + Machine.fld 3 1 b % 32 * 256 + Machine.fld 4 1 b % 32 * 65536)),
    (rSefTiming, Machine.fld 6 2 b + Machine.fld 8 2 b * 1024 + Machine.fld 10 2 b * 2 ^ 20), (rSefLag, Machine.fld 12 4 b)]

/-- Load the SEC section (R520, R557): the usage limits, the operator's key, and OAS_TAMPCFG. -/
def State.loadSec (s : State) (b : Bytes) : State :=
  let f := Machine.fld 2 1 b
  let sl := Machine.fld 8 4 b
  let gl := Machine.fld 12 4 b
  let s1 := s.setRegs [(rKeySlotlim, if sl = 0 then 1000000 else min sl (2 ^ 32 - 9)), (rKeyGcmlim, if gl = 0 then 2 ^ 32 - 1 else gl)]
  let s2 := if s1.locked then s1
    else s1.setReg rOasTampcfg (Machine.fld 4 2 b + flag 16 (bit 1 f) + flag 17 (bit 2 f) + flag 18 (bit 0 f))
  { s2 with sec := { s2.sec with opk := sub 16 64 b, escalate := bit 0 f } }

/-- SYSKEY as the unit entry of a SEC section gives it; none when no entry matches or the unwrap fails (R520, R522). -/
def State.unwrapSyskey (s : State) (b : Bytes) : Option Nat :=
  let es := (List.range (Machine.fld 1 1 b)).map fun k => sub (80 + 112 * k) 112 b
  match es.find? fun e => sub 0 8 e == s.unitId with
  | none => none
  | some e =>
    let z := Config.ecdh s.dik (sub 8 64 e)
    (Config.kwUnwrap (kekS z s.unitId (sub 8 64 e)) (sub 72 40 e)).map beVal

end Sys2Proof.Machine
end

