-- ==== Sys2Proof/Machine/Apply.lean ====
section
/-! DEFINITION. The application of a judged configuration image (R675 step 8, R684 to R690), and the image that a START entry names (R707). -/
namespace Sys2Proof.Machine

/-- The rings that a start without service needs: the device port's, the media's and the recorder's. -/
def serviceRing (n : Nat) : Bool := [5, 6, 12, 13, 14, 15].contains n

/-- The RING section, or the default geometry (R101, R102, R689). -/
def State.applyRings (s : State) (b : Option Bytes) (on : Bool) : State :=
  let enable (n : Nat) : Bool := on || n == 14
  match b with
  | some x => if ringOk x then s.loadRings (ringGeometry x) enable else (s.loadRings ((List.range 16).map defaultRing) enable).cfgWarn 3
  | none => s.loadRings ((List.range 16).map defaultRing) enable

/-- Apply one section: accepted, its fields are loaded and its type noted; otherwise a configuration warning (R685). -/
def State.applyOne (s : State) (ok : Bool) (ty : Nat) (f : State → State) : State :=
  if ok then (f s).setBoot fun b => { b with secs := b.secs ++ [ty] } else s.cfgWarn ty

/-- The radio, power-line and feeder sections: the head role ignores them with a warning (R4). -/
def State.applyField (s : State) (ok : Bool) (ty : Nat) (f : State → State) : State :=
  if s.cfg.role = .head then s.cfgWarn ty else s.applyOne ok ty f

/-- Apply a section by its type (R684, R685); SYS and RING come first and are applied apart. With VIO18 at 3.3 V the ONFI interface runs in SDR only
(R738). -/
def State.applySection (s : State) (x : Nat × Bytes) : State :=
  let b := x.2
  match x.1 with
  | 1 => s
  | 2 => s
  | 3 => s
  | 4 => s.applyOne (ergOk b) 4 fun a => a.loadErg b
  | 5 => s.applyField (radioOk b) 5 fun a => a.loadRadio b
  | 6 => s.applyField (plcOk b) 6 fun a => a.loadPlc b
  | 7 => s.applyField (meterOk b) 7 fun a => a.loadMeter b
  | 8 => if tariffOk b then s.applyOne true 8 fun a => a.loadTariff b else (s.irq rBilIrq 4).cfgWarn 8
  | 9 => s.applyOne (balanceOk s.cfg.role b) 9 fun a => { a with cfg := { a.cfg with balance := some (balanceOf b) } }
  | 10 => s.applyOne (netOk b) 10 fun a => a.loadNet b
  | 11 => s.applyOne (timeOk b) 11 fun a => a.loadTime b
  | 12 =>
    let s1 := s.applyOne (mediaOk b) 12 fun a => a.loadMedia b
    if mediaOk b && s.boot.vio33 && decide (Machine.fld 1 1 b % 4 ≠ 0) then s1.cfgWarn 12 else s1
  | 13 => s.applyOne (seifOk b) 13 fun a => a.loadSeif b
  | 14 => s.applyOne true 14 fun a => a.loadSec b
  | 15 => s.applyOne (outOk b) 15 fun a => a.loadOut b
  | 16 => match validOf b with | some v => s.applyOne true 16 fun a => { a with cfg := { a.cfg with valid := v } } | none => s.cfgWarn 16
  | n => s.cfgWarn n

/-- Apply an image that has been judged (R675 step 8): rings, SYS, then the other sections in their order. In alarm hold no ring takes inputs. -/
def State.applyImage (s : State) (img : Bytes) (hold : Bool) : State :=
  let secs := (cfgSections img).getD []
  let get (ty : Nat) : Option Bytes := (secs.find? fun x => x.1 == ty).map (·.2)
  let role := match get 2 with | some b => (roleOf b).getD .none | none => .none
  let s0 : State := { s with cfg := { role := role, hash := Config.sha256 img }, boot := { s.boot with img := img, secs := [], csvn := Machine.fld 12 4 img } }
  let s1 := s0.applyRings (get 3) (!hold)
  let s2 := match get 1 with | some b => (if sysOk b then s1.applyOne true 1 fun a => a.loadSys b else s1.cfgWarn 1) | none => s1
  let s3 := if (get 11).isNone then s2.defaultTime else s2
  let s4 := secs.foldl (fun a x => a.applySection x) s3
  if (get 11).isSome && !s4.boot.secs.contains 11 then s4.defaultTime else s4

/-! ### The image that a START names (R707) -/

/-- Every register (R7). -/
def allRegs : List RegDef :=
  regsSys ++ regsQf ++ regsJsq ++ regsErg ++ regsCph ++ regsKey ++ regsRad ++ regsPlc ++ regsMtr ++ regsBil ++ regsNet ++ regsTim ++ regsMed ++ regsEvr ++
  regsSef ++ regsOas ++ regsArb

/-- The LK fields of one register definition from another state (R13). -/
def State.lkOf (s a : State) (r : RegDef) : State :=
  if r.lk = 0 then s
  else (List.range r.count).foldl (fun b i =>
    let x := r.addr + r.stride * i
    b.setReg x ((a.reg x &&& r.lk) + (b.reg x - (b.reg x &&& r.lk)))) s

/-- The settings of another state: its configuration, its system key and its LK fields (R13, R707). -/
def State.settingsOf (s a : State) : State := allRegs.foldl (fun b r => b.lkOf a r) { s with cfg := a.cfg, sysKey := a.sysKey }

/-- The settings an image gives, from the reset values on (R675, R522). -/
def State.imageSettings (s : State) (img : Bytes) : State :=
  let a : State := ({ State.reset with sec := s.sec, boot := s.boot, locked := s.locked } : State).applyImage img true
  { a with sysKey := match cfgSection img 14 with | some b => a.unwrapSyskey b | none => none }

/-- Entries above a START are processed under the image it names (R707), when the media keep a copy. DESIGN CHOICE: without a copy they are processed under
the image in force. -/
def State.underStart (s : State) (e : Entry) : State :=
  let h := sub 0 32 e.payload
  if e.kind = .start ∧ h ≠ fit 32 s.cfg.hash then
    match s.med.nand.images.find? fun x => fit 32 x.1 == h with
    | some x => s.settingsOf (s.imageSettings x.2)
    | none => s
  else s

end Sys2Proof.Machine
end

