-- ==== Sys2Proof/Machine/Media.lean ====
section
/-! DEFINITION. The media commands (R558 to R600). -/
namespace Sys2Proof.Machine

/-- Whether Sabkha reads Q12 now (R569, R579, R585): not in READ_ONLY, not at CAP_JNL, and within the ratio of a foreground collection. -/
def State.readsQ12 (s : State) : Bool :=
  !s.med.readOnly && !s.journalFull && !(s.med.fgOn && (decide (s.med.nand.free ≤ 2) || s.med.fgCredit == 0))

/-- MEDIA_JOURNAL_WRITE (R568, R570, R574, R579, R598): Sabkha reads a Q12 packet and packs its entry into the journal stream; disabled, it
discards the entry. -/
def execMediaJournalWrite (s : State) : Host.Outcome State Fault Refusal :=
  if s.med.run && !s.readsQ12 then .next s
  else match s.ringTake 12 with
  | (.packet _ ty ws, s1) =>
    if s.med.run = false then .next (s1.ringDrain 12)
    else if ty = 1 then
      let b := ofWs ws
      let m := Med.pack s1.t (Machine.fld 4 8 b) (Machine.fld 12 8 b) (b.length / 4092 + 2) b true s1.med
      let m1 : Med := if m.fgOn then { m with fgCredit := m.fgCredit - (m.wait.length - s1.med.wait.length) } else m
      let m2 : Med := { m1 with idleSince := s1.t }
      .next ((({ s1 with med := if s1.seq.khamsin then m2.flushPart else m2 } : State).stageStore).ringDrain 12)
    else .next ((s1.setNand fun n => { n with badReq := satAdd 0xFFFFFFFF n.badReq 1 }).ringDrain 12)
  | _ => .next s

/-- JOURNAL_FLUSH_TIMER (R568): FLUSH_MS have passed since the first byte of the unit being filled. -/
def execJournalFlushTimer (s : State) : Host.Outcome State Fault Refusal :=
  match s.med.fill with
  | some u => if s.med.run then .next ((s.until (u.since + msU s.med.flushMs)).setMed Med.flushPart) else .next s
  | none => .next s

/-- The first things of a list whose sizes add up to at most `n`, each with its name. -/
def fitNames : Nat → List ((Nat × Nat) × Nat) → List (Nat × Nat)
  | _, [] => []
  | n, (x, k) :: r => if k ≤ n then x :: fitNames (n - k) r else []

/-- What a region holds that no unit holds yet, oldest first, with its sizes (R448, R565, R566). -/
def State.unheld (s : State) (region : Nat) : List ((Nat × Nat) × Nat) :=
  let all : List ((Nat × Nat) × Nat) := match region with
    | 3 => (s.obox.filter fun r => !r.durable).map fun r => ((0, r.rsn), r.bytes.length)
    | 4 => s.evr.log.map fun r => ((0, r.no), r.bytes.length)
    | 5 => s.ctx.images.flatMap fun m => m.data.map fun d => ((m.image, d.1), d.2.length)
    | _ => []
  all.filter fun x => s.med.nand.units.all fun u => u.region ≠ region || !u.holds.contains x.1

/-- What the next unit of a region holds: of the checkpoint in writing its part, of the others what comes next (R566). -/
def State.nextHolds (s : State) (region : Nat) : List (Nat × Nat) :=
  if region = 2 then (match s.seq.ckptBusy with | k :: _ => [(0, k.no)] | [] => []) else fitNames 4096 (s.unheld region)

/-- Records that a verified unit holds are durable (R448). -/
def State.markRecords (s : State) (l : List (Nat × Nat)) : State :=
  { s with obox := s.obox.map fun r => if l.any fun x => x.2 == r.rsn then { r with durable := true } else r }

/-- The superblock of the next journal unit (R568, R571, R572): during a Khamsin sequence one of the reserve. -/
def State.journalSb (s : State) : Nand × Option Sb :=
  match (if s.seq.khamsin then s.med.nand.reserveSb else none) with
  | some x => (s.med.nand, some x)
  | none => s.med.nand.streamSb 1 (s.med.slcFor 1)

/-- UNIT_VERIFY (R448, R560, R565, R571): a page program of a region completes and its read-back is decoded with `corr` corrected bits; a
unit that needs more than REFRESH_T is not verified. -/
def execUnitVerify (region : Fin 6) (lua corr : Nat) (s : State) : Host.Outcome State Fault Refusal :=
  if s.med.run then
    let s1 := s.dropDead.setNand fun n => { n with corr := satAdd 0xFFFFFFFF n.corr corr }
    if s1.med.refreshT < corr then .next s1
    else
      let r := region.val
      match (if r = 1 then s1.journalSb else s1.med.nand.streamSb r (s1.med.slcFor r)) with
      | (_, none) => .next s1
      | (n, some x) =>
        if r = 1 then
          match s1.med.wait with
          | [] => .next s1
          | u :: rest => .next (s1.verifyJournal u rest (n, x))
        else
          let u : MUnit := { region := r, lua := lua, wtemp := s1.dieTemp, wseq := 0, wtime := secOf s1.dev % 2 ^ 32, slc := false, sb := 0, holds := s1.nextHolds r }
          let n1 : Nand := { n with units := n.units.filter fun v => !(v.region == r && v.lua == lua) }
          let s2 := s1.setNand fun _ => (n1.place x u false).sweepInvalid
          .next (if r = 3 then s2.markRecords u.holds else s2)
  else .next s

/-- Sabkha's entry into foreground collection (R579). -/
def State.enterFg (s : State) : State :=
  if s.med.fgOn then s else ((s.setMed fun m => { m with fgOn := true }).irq rMedIrq 0).event 0x54 s.med.nand.free

/-- A unit by its region and address. -/
def Nand.unitAt (n : Nand) (r lua : Nat) : Option MUnit := n.units.find? fun u => u.region == r && u.lua == lua

/-- A weak unit is refreshed by rewriting it (R586). -/
def State.refresh (s : State) (u : MUnit) (corr : Nat) : State :=
  if s.med.refreshT - 16 < corr then
    s.setNand fun n => ({ n.moveUnit (secOf s.dev) (s.med.slcFor u.region) u with refresh := satAdd 0xFFFFFFFF n.refresh 1 } : Nand).sweepInvalid
  else s

/-- What a lost unit held: its checkpoint is valid no more, and the rest reads as 0x00 bytes (R72, R583). -/
def State.loseContent (s : State) (u : MUnit) : State :=
  let held (k x : Nat) : Bool := u.holds.contains (k, x)
  match u.region with
  | 2 =>
    let keep (l : List Ckpt) : List Ckpt := l.filter fun k => !held 0 k.no
    { (s.setNand fun n => { n with ckpts := keep n.ckpts, epochCkpts := keep n.epochCkpts }) with seq := { s.seq with ckpts := keep s.seq.ckpts } }
  | 3 => { s with obox := s.obox.map fun r => if held 0 r.rsn then { r with bytes := r.bytes.map fun _ => 0#8 } else r }
  | 4 => { s with evr := { s.evr with log := s.evr.log.map fun r => if held 0 r.no then { r with bytes := r.bytes.map fun _ => 0#8 } else r } }
  | 5 => s.setCtx fun k => { k with images := k.images.map fun m =>
      { m with data := m.data.map fun d => if held m.image d.1 then (d.1, d.2.map fun _ => 0#8) else d } }
  | _ => s

/-- A unit that no retry level decodes is rebuilt and rewritten to its region's stream, or lost (R582, R583). -/
def State.unreadable (s : State) (u : MUnit) (rebuilt : Bool) : State :=
  if rebuilt then
    ((s.setNand fun n => { n.moveUnit (secOf s.dev) (s.med.slcFor u.region) u with rebuild := satAdd 0xFFFFFFFF n.rebuild 1 }).irq rMedIrq 2).event 0x52 u.region
  else
    (((s.loseContent u).setNand fun n => { n with units := n.units.erase u, loss := satAdd 0xFFFFFFFF n.loss 1 }).irq rMedIrq 3).event 0x53 u.region none (le 4 u.lua)

/-- The stream of journal units from an address on, without their first 4 bytes. -/
def Nand.streamFrom (n : Nand) : Nat → Nat → Bytes
  | 0, _ => []
  | k + 1, lua => match n.unitAt 1 lua with | some u => u.data.drop 4 ++ n.streamFrom k (lua + 1) | none => []

/-- Entries that start in the first `room` bytes of a stream; LEN 0 marks the fill (R568). -/
def entriesIn : Nat → Nat → Bytes → List Entry
  | 0, _, _ => []
  | k + 1, room, b =>
    let n := Machine.fld 0 2 b
    if room = 0 ∨ n = 0 then []
    else match Entry.ofBytes b with
      | some e => e :: entriesIn k (room - n) (b.drop n)
      | none => []

/-- The entries that start in a journal unit (R568). -/
def Nand.entriesAt (n : Nand) (u : MUnit) : List Entry :=
  let o := Machine.fld 0 4 u.data
  if o = 0xFFFFFFFF then [] else entriesIn 128 (4096 - o) ((n.streamFrom 3 u.lua).drop (o - 4))

/-- The sequencer takes what is read back on Q13 (R77, R117, R570). DESIGN CHOICE: in service it has every entry of its journal, so an entry read back
changes nothing. -/
def State.drainQ13 : Nat → State → State
  | 0, s => s
  | k + 1, s =>
    if s.bitOf rJsqCtl 0 && decide (s.tasksUsed < poolSize) then
      match s.ringTake 13 with
      | (.packet _ _ _, s1) => State.drainQ13 k (s1.ringDrain 13)
      | _ => s
    else s

/-- The entries that start in a JOURNAL unit go back over Q13 (R570). -/
def State.readEntries (s : State) (u : MUnit) : State :=
  (s.med.nand.entriesAt u).foldl (fun a e => State.drainQ13 1 (a.ringPacket 13 1 (toWs e.bytes))) s

/-- MEDIA_READ (R570, R581 to R583, R586, R587): a unit is read; `tried` levels from the start level on fail, then one decodes with `corr`
corrected bits; when every level fails the unit is rebuilt, or it is lost. The entries of a JOURNAL unit are read back on Q13. -/
def execMediaRead (region : Fin 6) (lua tried corr : Nat) (rebuilt : Bool) (s0 : State) : Host.Outcome State Fault Refusal :=
  if s0.med.run then
    let s := s0.dropDead
    match s.med.nand.unitAt region.val lua with
    | none => .next s
    | some u =>
      let levels := if s.med.retryFa = 0 then 1 else atLeast1 s.med.retryN
      let back (a : State) : State := if region.val = 1 then (a.setMed fun m => { m with idleSince := a.t }).readEntries u else a
      if tried < levels then
        let s1 := (s.setNand fun n => { n with corr := satAdd 0xFFFFFFFF n.corr corr, retry := satAdd 0xFFFFFFFF n.retry (if tried = 0 then 0 else 1) }).setMed
          fun m => { m with level := (m.startLevel u (secOf s.dev) + tried) % levels }
        .next (back (if s.med.retMode = 0 then s1 else s1.refresh u corr))
      else .next (if rebuilt then back (s.unreadable u rebuilt) else s.unreadable u rebuilt)
  else .next s0

/-- PROGRAM_FAIL (R584, R585): a program in a superblock's block of a LUN fails; the least-worn free block takes its place with the same
content, and the block is retired. -/
def execProgramFail (sb lun : Nat) (s : State) : Host.Outcome State Fault Refusal :=
  match s.med.nand.sbs.find? fun x => x.id == sb with
  | some x =>
    if s.med.run && decide (lun < s.med.nand.luns) then
      let b := x.blocks.getD lun 0
      match s.med.nand.leastWorn lun with
      | some b1 =>
        let s1 := s.setNand fun n =>
          { ((n.setBlk b1 { n.blk b1 with inUse := true }).retire lun b) with
            pfail := satAdd 0xFFFFFFFF n.pfail 1, sbs := n.sbs.map fun y => if y.id = sb then { y with blocks := y.blocks.set lun b1 } else y }
        .next (s1.afterRetire lun (b % max 1 s.med.nand.bpl))
      | none =>
        let s1 := s.setNand fun n => { n.retire lun b with pfail := satAdd 0xFFFFFFFF n.pfail 1 }
        .next (s1.afterRetire lun (b % max 1 s.med.nand.bpl))
    else .next s
  | none => .next s

/-- ERASE_FAIL (R584, R585): the erase of a block fails; the block is retired, and the next is taken where it was to be used. -/
def execEraseFail (sb lun : Nat) (s : State) : Host.Outcome State Fault Refusal :=
  match s.med.nand.sbs.find? fun x => x.id == sb with
  | some x =>
    if s.med.run && decide (lun < s.med.nand.luns) && x.st == .erasing then
      let b := x.blocks.getD lun 0
      let s1 := s.setNand fun n =>
        let n1 := n.retire lun b
        let nxt := (n1.leastWorn lun).getD b
        { n1.setBlk nxt { n1.blk nxt with inUse := true, bad := (n1.blk nxt).bad } with
          efail := satAdd 0xFFFFFFFF n.efail 1, sbs := n1.sbs.map fun y => if y.id = sb then { y with blocks := y.blocks.set lun nxt } else y }
      .next (s1.afterRetire lun (b % max 1 s.med.nand.bpl))
    else .next s
  | none => .next s

/-- ERASE_COMPLETE (R564, R572, R576): the erase of a superblock ends; it becomes part of the Khamsin reserve while fewer than two are
kept, else its blocks are free. -/
def execEraseComplete (sb : Nat) (s0 : State) : Host.Outcome State Fault Refusal :=
  let s := s0.dropDead
  match s.med.nand.sbs.find? fun x => x.id == sb with
  | some x =>
    if x.st = .erasing then
      let s1 := s.setNand fun n =>
        let n1 := x.blocks.foldl (fun a b => a.setBlk b { a.blk b with erases := (a.blk b).erases + 1 }) n
        if (n.sbs.filter fun y => y.st == .reserve).length < 2 then
          { n1 with sbs := n1.sbs.map fun y => if y.id = sb then { y with st := .reserve, used := 0, slc := s.med.slcPrefix ≠ 0, region := 1 } else y }
        else
          let n2 := x.blocks.foldl (fun a b => a.setBlk b { a.blk b with inUse := false }) n1
          { n2 with sbs := n2.sbs.filter fun y => y.id ≠ sb }
      .next (s1.setMed fun m => { m with fgOn := m.fgOn && decide (m.nand.free ≤ m.fgFree) })
    else .next s
  | none => .next s

/-- BG_COLLECTION (R573, R577, R578): after BG_IDLE_MS without Q12 or Q13 packets and with few free superblocks a victim is collected, a
cache superblock folded first. -/
def execBgCollection (s0 : State) : Host.Outcome State Fault Refusal :=
  let s := s0.dropDead
  if s.med.run && !s.seq.khamsin && !s.med.readOnly && (s.ring 12).cnt == 0 && (s.ring 13).cnt == 0 &&
      decide (s.med.nand.free * 1000 < s.med.nand.total * s.med.bgFree) then
    let s1 := s.until (s.med.idleSince + msU s.med.bgIdle)
    let fold := if s1.med.cacheTarget ≤ s1.med.nand.cacheUsed then s1.med.nand.foldVictim else none
    match fold.orElse fun _ => s1.med.nand.victim fun _ => true with
    | some v => .next ((s1.collect v).setMed fun m => { m with bgOn := true })
    | none => .next s1
  else .next (s.setMed fun m => { m with bgOn := false })

/-- FG_COLLECTION (R577, R579): free superblocks have fallen to FG_FREE; a victim is collected, and Q12 is read in the ratio the victim
allows. -/
def execFgCollection (s0 : State) : Host.Outcome State Fault Refusal :=
  let s := s0.dropDead
  if s.med.run && !s.seq.khamsin && !s.med.readOnly && decide (s.med.nand.free ≤ s.med.fgFree) then
    let s1 := s.enterFg
    match s1.med.nand.victim fun _ => true with
    | some v =>
      let room := s1.med.nand.sbUnits - s1.med.nand.valid v.id
      .next ((s1.collect v).setMed fun m => { m with fgCredit := room })
    | none => .next (s1.setMed fun m => { m with fgCredit := m.nand.sbUnits })
  else .next (s.setMed fun m => { m with fgOn := m.fgOn && decide (m.nand.free ≤ m.fgFree) })

/-- PATROL_READ (R578, R586): the patrol reads the next valid unit, `corr` bits corrected, and refreshes it when it is weak; its reads are spread evenly over
PATROL_D days. DESIGN CHOICE. -/
def execPatrolRead (corr : Nat) (s0 : State) : Host.Outcome State Fault Refusal :=
  let s := s0.dropDead
  if s.med.run && !s.seq.khamsin && (s.med.retMode == 0 || s.med.retMode == 2) then
    match s.med.nand.units[s.med.nand.patrolAt % max 1 s.med.nand.units.length]? with
    | some u =>
      let s1 := (s.until (s.med.patrolT + s.med.patrolD * 86400 * second / max 1 s.med.nand.units.length)).setNand fun n =>
        { n with corr := satAdd 0xFFFFFFFF n.corr corr, patrolAt := n.patrolAt + 1 }
      .next ((s1.refresh u corr).setMed fun m => { m with patrol := true, patrolT := s1.t })
    | none => .next s
  else .next (s.setMed fun m => { m with patrol := false })

/-- MEDIA_HEALTH (R588): HEALTH_H hours have passed. -/
def execMediaHealth (s : State) : Host.Outcome State Fault Refusal :=
  if s.med.run then
    let s1 := s.until s.med.healthAt
    .next ((s1.setMed fun m => { m with healthAt := s1.t + m.healthH * 3600 * second }).healthEvent)
  else .next s

end Sys2Proof.Machine
end

