-- ==== Sys2Proof/Machine/Commit.lean ====
section
/-! DEFINITION. The commit commands: a key's commit turn (R126, R127), the close sweep (R245), balance closes (R280), the commits of
received datagrams (R456, R458, R463), and the entry of outputs into the release stream (R446). -/
namespace Sys2Proof.Machine

/-- Whether the oldest task of a key has been worked on and waits for its gate (R115, R127). -/
def State.atGate (s : State) (k : Key) : Bool :=
  match s.headTask k with | some t => t.phase == .committing || t.phase == .waitDraw | none => false

/-- Commit the oldest task of a key when it waits at its gate. -/
def State.turn (s : State) (k : Key) : State := if s.atGate k then s.commitHead k else s

/-- COMMIT_TURN (R126, R127): the gate of a key reaches its oldest task. -/
def execCommitTurn (k : Key) (s : State) : Host.Outcome State Fault Refusal := .next (s.turn k)

/-- The oldest task of a key when it passes a test. -/
def State.headIs (s : State) (k : Key) (p : Task → Bool) : Bool := match s.headTask k with | some t => p t | none => false

/-- BALANCE_CLOSE (R132, R280 to R290): the BND_BALANCE task of a group commits, once the commit watermark has reached it. -/
def execBalanceClose (g : Fin 4096) (s : State) : Host.Outcome State Fault Refusal :=
  if s.headIs (.group g.val) fun t => t.entry.kind == .bndBalance then .next (s.turn (.group g.val)) else .next s

/-- Whether a task carries a datagram of a type. -/
def Task.dgramOf (t : Task) (ty : Nat) : Bool :=
  (t.entry.kind == .netPkt || t.entry.kind == .seifFrame) && (match Dgram.ofBytes t.entry.payload with | some d => d.dtype == ty | none => false)

/-- Commit the first of some keys whose oldest task passes a test. -/
def State.turnFirst (s : State) (ks : List Key) (p : Task → Bool) : State :=
  match ks.find? fun k => s.headIs k p && s.atGate k with
  | some k => s.turn k
  | none => s

/-- BACK_COMMIT (R456): a journaled BACK commits: the acknowledged mark moves, and the outbox is freed. -/
def execBackCommit (s : State) : Host.Outcome State Fault Refusal := .next (s.turnFirst [.sys 3, .sys 7] fun t => t.dgramOf 2)

/-- CMD_DATAGRAM_CHECK (R458, R459, R552, R613): a journaled CMD datagram commits: it is submitted or refused. -/
def execCmdDatagramCheck (s : State) : Host.Outcome State Fault Refusal := .next (s.turnFirst [.sys 3, .sys 7, .sys 8] fun t => t.dgramOf 3)

/-- BATCH_INGEST (R111, R454, R455, R463): in the head role a journaled BATCH commits, split into child tasks. -/
def execBatchIngest (s : State) : Host.Outcome State Fault Refusal := .next (s.turnFirst [.sys 7] fun t => t.dgramOf 1)

/-- CLOSE_SWEEP_STEP (R132, R245 to R250): with the commit watermark at the BND_PERIOD, the sweep's task under the CLOSE key draws its seed, and with the seed
signs the next 256 slots and journals the CLOSE_CURSOR. -/
def execCloseSweepStep (s : State) : Host.Outcome State Fault Refusal :=
  match s.ctx.closes with
  | [] => .next s
  | x :: r =>
    if s.seqTakes && s.atGate (.sys 6) && s.headIs (.sys 6) (fun t => t.work == .sweep x.subj) && s.cwmPast x.jsn then
      match x.draw with
      | some (_, w) => .next ((s.closeStep x (s.unwrapJ w)).getD s)
      | none =>
        if s.drawsServed then
          let s1 := s.journalDraw (0xC1000000 + x.cursor / 256) 40
          let data := match s1.seq.journal.getLast? with | some e => e.payload.drop 4 | none => []
          .next ((if x.started then s1 else s1.irq rBilIrq 0).setCtx fun k => { k with closes := { x with draw := some (s.seq.nextJsn, data), started := true } :: r })
        else .next s
    else .next s

/-- RELEASE_ENTER (R445 to R449, R497, R551, R592, R623): the first output in stream order enters the stream once its OJSN is durable and
committed and it is agreed; a full outbox holds it back. An acknowledgement whose life-cycle transition waits lets it run. -/
def execReleaseEnter (s : State) : Host.Outcome State Fault Refusal :=
  match s.nextRelease with
  | none => .next s
  | some o =>
    if o.dest = .stream ∧ s.oboxFull = true then .next (s.irq rNetIrq 1)
    else
      let s1 := s.enterOutput o
      let s2 := if o.dest = .stream ∧ o.rtype = 8 then s1.logReleased o.bytes else s1
      match s2.sec.lcPend with
      | some p => if o.dest = .stream ∧ o.rtype = 6 ∧ o.ojsn = p.ack then .next (s2.transitionWhen p.dst) else .next s2
      | none => .next s2

end Sys2Proof.Machine
end

