-- ==== Sys2Proof/Machine/Journal.lean ====
section
/-! DEFINITION. The journal commands: inputs, ring losses, the boundary hold, draws, checkpoints and the durability stall (R26 to
R76). -/
namespace Sys2Proof.Machine

/-- Whether the sequencer takes items from a ring now: it runs and holds the token, Q12 does not wait, and the descriptor pool
leaves the ring its share (R34, R117). -/
def State.takesFrom (s : State) (n : Nat) : Bool :=
  s.seqTakes && ringIngress n && (if n = 0 then decide (s.tasksUsed < poolSize) else !s.erg.poolFull)

/-- The sequencer has taken an item from a ring (R27, R33): a packet becomes an input, a wadi marker a RING_LOSS entry. -/
def State.takeItem (s : State) (ring : Nat) : Item → State
  | .packet cut ty ws => s.takeInput ring (lengthWord cut ty ws.length) ws
  | .marker d => ((s.count rJsqLosscnt d).irq rJsqIrq 3).journalOwn .ringLoss (le 1 ring ++ le 3 d)
  | .idle => s

/-- JOURNAL_INPUT (R26 to R38, R51, R52, R87, R103): the sequencer takes the packet at the head of an ingress ring. -/
def execJournalInput (ring : Fin 16) (s : State) : Host.Outcome State Fault Refusal :=
  if s.takesFrom ring.val then
    match s.ringTake ring.val with
    | (.packet cut ty ws, s1) => .next (s1.takeItem ring.val (.packet cut ty ws))
    | _ => .next s
  else .next s

/-- RING_LOSS (R33): the sequencer takes the wadi marker at the head of an ingress ring. -/
def execRingLoss (ring : Fin 16) (s : State) : Host.Outcome State Fault Refusal :=
  if s.takesFrom ring.val then
    match s.ringTake ring.val with
    | (.marker d, s1) => .next (s1.takeItem ring.val (.marker d))
    | _ => .next s
  else .next s

/-- The next boundary instant above the boundaries already journaled, in seconds, within the range of device time (R18, R39, R51). -/
def State.nextBoundarySec (s : State) : Option Nat :=
  if s.cfg.tariff.isNone && s.cfg.balance.isNone && s.closeInstant.isNone then none
  else nextSec s.bndDue s.bndFrom (2 ^ 36 - s.bndFrom)

/-- HOLD_MS as it acts (R75). -/
def State.holdUnits (s : State) : Nat := msU (min 60000 (s.fld rJsqBhold 15 0))

/-- BOUNDARY_HOLD_START (R51, R52): device time reaches the next boundary instant; the hold starts, or the boundaries are journaled
at once when HOLD_MS is 0 or a supply warning runs. -/
def execBoundaryHoldStart (s : State) : Host.Outcome State Fault Refusal :=
  if s.bitOf rJsqCtl 0 && s.seq.holder && s.seq.hold.isNone && !s.seq.unsure && !s.seq.regressed then
    match s.nextBoundarySec with
    | none => .next s
    | some x =>
      let T := x * second
      let s1 := s.untilDev T
      if s1.seq.khamsin ∨ s1.holdUnits = 0 then .next (s1.journalBoundaries T false)
      else .next { s1 with seq := { s1.seq with hold := some { T := T, endAt := s1.t + s1.holdUnits } } }
  else .next s

/-- BOUNDARY_HOLD_END (R51, R53): the hold expires; the boundary entries are journaled, then the held inputs. -/
def execBoundaryHoldEnd (s : State) : Host.Outcome State Fault Refusal :=
  match s.seq.hold with
  | none => .next s
  | some h => .next ((s.until h.endAt).endHold none)

/-- DRBG_DRAW (R43, R45, R536, R538, R539): the sequencer journals the draw that the oldest task of a key waits for; its data reaches
the task when the dispatcher takes the entry. -/
def execDrbgDraw (k : Key) (s : State) : Host.Outcome State Fault Refusal :=
  match s.waitsFor k with
  | some (.draw tag n) =>
    if s.drawsServed && s.seqTakes then .next (s.journalDraw tag n) else .next s
  | _ => .next s

/-! ### Checkpoints (R68 to R74) -/

/-- The state once every task below a cut has committed that can, taken on a copy (R69). -/
def State.atCut (s : State) : State := s.settle

/-- The tasks below a cut that still wait on the copy. -/
def State.leftTasks (s : State) : List Task := s.erg.keys.flatMap fun q => q.tasks

/-- All outputs below a cut that have not yet been released: the votes number them below the checkpoint's next VSN (R621). -/
def State.outputsBelow (s : State) (cut : Nat) : Nat := (s.erg.outq.filter fun o => decide (o.ojsn < cut)).length

/-- The checkpoint whose CKPT entry has the next JSN (R69 to R71). -/
def State.ckptHere (s : State) (no stamp : Nat) : Ckpt :=
  let c := s.atCut
  let cut := s.seq.nextJsn
  { no := no, cutJsn := cut, cutStamp := stamp, role := s.cfg.role, cfgHash := s.cfg.hash, svn := s.boot.svn,
    closeNext := (c.ctx.closes.head?).map (·.cursor),
    ctx := { c.ctx with nextRsn := s.ctx.nextRsn + c.streamBelow cut, nextVsn := s.ctx.nextVsn + c.outputsBelow cut },
    waiting := c.leftTasks, polls := s.rad.polls, u2hGen := s.sec.u2hGen, u2hCtr := s.sec.u2hCtr }

/-- Bytes of the context store's snapshot in a checkpoint's body: 131,072 slots of 160 bytes (R71, R151). -/
def snapLen : Nat := 20971520

/-- A checkpoint's body (R71): the slots of the context store in order, then the aggregate state, whose layout no rule gives. -/
def Ckpt.body (k : Ckpt) : Bytes := ((List.range slotCount).flatMap fun i => (k.ctx.slot i).bytes) ++ Config.ckptAgg k

/-- A context with the slots that a snapshot spells (R71, R151). -/
def Ctx.withSnapshot (c : Ctx) (b : Bytes) : Ctx :=
  (List.range slotCount).foldl (fun a i => a.setSlot i ((a.slot i).ofBytes (sub (160 * i) 160 b))) c

/-- The checkpoint that a descriptor and a body spell (R71). -/
def ckptOf (desc body : Bytes) : Option Ckpt :=
  (Config.aggOf desc (body.drop snapLen)).map fun k => { k with ctx := k.ctx.withSnapshot (body.take snapLen) }

/-- The descriptor of a checkpoint (R71). -/
def Ckpt.desc (k : Ckpt) : Bytes :=
  le 4 0x4A46434B ++ le 2 1 ++ le 1 (match k.role with | .head => 2 | .field => 1 | .none => 0) ++ le 1 0 ++ le 8 k.cutJsn ++ le 8 k.cutStamp ++
  le 4 k.ctx.epoch ++ le 4 (k.closeNext.getD 0xFFFFFFFF) ++ le 8 k.ctx.hwb ++ fit 32 k.cfgHash ++ le 4 k.svn ++ le 4 (Config.ckptAgg k).length ++
  fit 32 (Config.sha256 k.body) ++ le 4 k.no ++ List.replicate 12 0

/-- The unit writes a checkpoint (R69, R72): it is busy until it is valid. -/
def State.beginCkpt (s : State) (k : Ckpt) : State :=
  { s with seq := { s.seq with ckptNo := k.no, ckptReq := false, ckptBusy := s.seq.ckptBusy ++ [k] } }

/-- A checkpoint cut here (R68 to R71). -/
def State.cutCkpt (s : State) : State :=
  let no := s.seq.ckptNo + 1
  (s.beginCkpt (s.ckptHere no s.dev)).journalOwn .ckpt (le 4 no)

/-- CKPT_CUT (R68, R654): no checkpoint starts during a Khamsin sequence; a checkpoint asked for is cut at this entry boundary; otherwise one is due 2^20 entries or 6 h of stamps after the
previous one. -/
def execCkptCut (s : State) : Host.Outcome State Fault Refusal :=
  if s.seqTakes && !s.seq.khamsin then
    if s.seq.ckptReq then .next s.cutCkpt
    else match s.seq.lastCkpt with
      | none => .next s
      | some (j, st) =>
        if j + 2 ^ 20 < s.seq.nextJsn then .next s.cutCkpt else .next (s.untilDev (st + 21600 * second)).cutCkpt
  else .next s

/-- JSQ_CKPT_NOW (R68, R553): a write of 1 to JSQ_CTL.CKPT_NOW starts a checkpoint at the next entry boundary. -/
def execJsqCkptNow (w : Who) (s : State) : Host.Outcome State Fault Refusal :=
  if w = .dev then .next (({ s with seq := { s.seq with ckptReq := s.seq.ckptReq || s.seq.holder } } : State).answer w .done)
  else .next (s.busErr w)

/-- DURABILITY_STALL (R66): the durable watermark has not advanced for JSQ_DURSTALL.MS while entries wait. -/
def execDurabilityStall (s : State) : Host.Outcome State Fault Refusal :=
  if s.seq.durable + 1 < s.seq.nextJsn ∧ s.seq.stallFired = false then
    let s1 := s.until (s.seq.lastDur + msU (atLeast1 (s.fld rJsqDurstall 15 0)))
    .next ((({ s1 with seq := { s1.seq with stallFired := true } } : State).irq rJsqIrq 4).event 0x43
      ((s1.t - s1.seq.lastDur) * 1000 / second))
  else .next s

end Sys2Proof.Machine
end

