-- ==== Sys2Proof/Machine/CipherOps.lean ====
section
/-! DEFINITION. The cipher lanes and engines: placing a request (R530), the key it names (R524, R526, R532), its result (R526, R527, R533)
and what its completion frees (R530, R531). -/
namespace Sys2Proof.Machine

/-- Write keys, lanes and engines. -/
def State.setSec (s : State) (f : Sec → Sec) : State := { s with sec := f s.sec }

/-- Word `n` of a request (R532). -/
def CphReq.word (r : CphReq) (n : Nat) : Nat := (r.ws.getD n 0).toNat
/-- PRIO. -/
def CphReq.prio (r : CphReq) : Nat := bits 17 16 (r.word 0)
/-- KSRC. -/
def CphReq.ksrc (r : CphReq) : Nat := bits 2 0 (r.word 1)
/-- The wrapped value of a length. -/
def CphReq.wrapped (r : CphReq) (n : Nat) : Bytes := sub 0 n (ofWs (r.ws.drop 7))
/-- AAD bytes. -/
def CphReq.aadLen (r : CphReq) : Nat := bits 15 0 (r.word 6)
/-- Message bytes. -/
def CphReq.msgLen (r : CphReq) : Nat := bits 31 16 (r.word 6)
/-- An operation of the P-256 engines. -/
def CphReq.onEcc (r : CphReq) : Bool := r.op == 9 || r.op == 10
/-- An operation of a lane. -/
def CphReq.onLane (r : CphReq) : Bool := decide (1 ≤ r.op) && decide (r.op ≤ 11) && r.op ≠ 8 && !r.onEcc
/-- The key comes through the unwrap unit (R524, R531). -/
def CphReq.unwraps (r : CphReq) : Bool := decide (1 ≤ r.ksrc) && decide (r.ksrc ≤ 4)

/-- Bytes of working RAM at a management address. -/
def State.wramBytes (s : State) (a n : Nat) : Bytes := (List.range n).map fun k => sget ramDefault s.wram (a - wramBase + k)

/-! ### Keys (R511 to R526, R532) -/

/-- What the key of a request comes to. -/
inductive KeyRes where
  | key (k : Nat)
  | unwrapFail
  | noKey
  deriving DecidableEq, Repr

/-- The key of a request (R524, R525, R532). -/
def State.reqKey (s : State) (r : CphReq) : KeyRes :=
  if s.sysKey.isNone then .noKey
  else
    let addr := bits 17 0 (r.word 2)
    let gen := bits 31 16 (r.word 1)
    let opt (o : Option Nat) : KeyRes := match o with | some k => .key k | none => .unwrapFail
    match r.ksrc with
    | 0 => match bits 15 8 (r.word 1) with
      | 1 => .key (u2h s.sys addr (bits 22 18 (r.word 2)) gen)
      | 2 => .key (h2u s.sys addr gen)
      | 3 => .key (rskOf s.sys addr)
      | 4 => .key (sigk s.sys addr gen)
      | _ => .noKey
    | 1 => opt (s.slotKey (s.slot (bits 16 0 (r.word 2))))
    | 2 => opt ((Config.kwUnwrap (skek s.sys s.cfg.sysaddr) (r.wrapped 24)).map beVal)
    | 3 => opt ((Config.kwUnwrap (jkek s.sys) (r.wrapped 24)).map beVal)
    | 4 => let x := s.slot (bits 16 0 (r.word 2)); .key (joinKey s.sys x.cls x.eui)
    | _ => .noKey

/-! ### Results (R526, R527, R532, R533) -/

/-- A finished request: its status, counter, nonce and output, with the blocks it took. -/
structure CphRes where
  status : Nat
  cnt    : Nat := 0
  nonce  : Bytes := []
  out    : Bytes := []
  blocks : Nat := 0
  deriving DecidableEq, Repr

/-- The CCM nonce of a request (R341, R532). -/
def State.reqNonce (s : State) (r : CphReq) (enc : Bool) : Bytes :=
  let eui := if bit 20 (r.word 0) then 2 ^ 64 - 1 else (s.slot (bits 16 0 (r.word 2))).eui
  ccmNonce eui (r.word 3) (if bit 19 (r.word 0) then 2 else if enc then 1 else 0)

/-- AES blocks of a CCM message: CBC-MAC blocks and counter blocks (R529). -/
def ccmBlocks (aad msg : Nat) : Nat := 1 + (if aad = 0 then 0 else ceilDiv (aad + 2) 16) + 2 * ceilDiv msg 16 + 1

/-- A CMAC check: the message ends with the 8 bytes to be checked. DESIGN CHOICE for where they stand. -/
def cmacChk (k : Nat) (m : Bytes) : Bool := tag64 k (m.take (m.length - 8)) == m.drop (m.length - 8)

/-- A GCM request on the unit's own U2H, whose counter the key cells hold (R526). -/
def State.ownU2h (s : State) (r : CphReq) : Bool :=
  r.ksrc == 0 && bits 15 8 (r.word 1) == 1 && bits 17 0 (r.word 2) == s.cfg.sysaddr % 2 ^ 18 && bits 22 18 (r.word 2) == s.seq.pos

/-- The counter of a GCM_ENC (R526): the next one of the unit's own U2H; of another key R526 names none, so its value is free. -/
def State.gcmCounter (s : State) (r : CphReq) : Nat × State :=
  if s.ownU2h r then (s.sec.u2hCtr + 1, s) else let x := s.free; (x.1 % 2 ^ 64, x.2)

/-- The counter of the unit's own U2H is used; every 65,536 messages it goes to the media (R526). -/
def State.gcmUsed (s : State) (r : CphReq) (c : Nat) : State :=
  if s.ownU2h r then s.setSec fun x => { x with u2hCtr := c, u2hMark := if c % 65536 = 0 then c else x.u2hMark } else s

/-- U2H is exhausted: GEN advances and CTR starts again at 1 (R518). -/
def State.gcmExhausted (s : State) (r : CphReq) : State :=
  if s.ownU2h r then s.setSec fun x => { x with u2hGen := x.u2hGen + 1, u2hCtr := 0, u2hMark := 0 } else s

/-- The result of a request of a lane under its key, and the state with the counters it moves (R526, R527, R532). -/
def State.laneResult (s : State) (r : CphReq) (k : Nat) : CphRes × State :=
  let inp := s.wramBytes (r.word 4) (r.aadLen + r.msgLen)
  let aad := inp.take r.aadLen
  let msg := inp.drop r.aadLen
  let bulk := ceilDiv r.msgLen 16
  match r.op with
  | 1 =>
    let n := s.reqNonce r true
    let grace := if bit 18 (r.word 0) then 8 else 0
    if s.reg rKeySlotlim + grace < r.word 3 ∧ r.ksrc ≠ 0 ∧ bit 20 (r.word 0) = false then ({ status := 2 }, (s.count rCphExhcnt 1).irq rCphIrq 0)
    else ({ status := 0, cnt := r.word 3, nonce := n, out := Config.ccmSeal k n aad msg, blocks := ccmBlocks r.aadLen r.msgLen }, s)
  | 2 =>
    let n := s.reqNonce r false
    match Config.ccmOpen k n aad msg with
    | some p => ({ status := 0, cnt := r.word 3, nonce := n, out := p, blocks := ccmBlocks r.aadLen (r.msgLen - 8) }, s)
    | none => ({ status := 1, cnt := r.word 3, nonce := n, blocks := ccmBlocks r.aadLen (r.msgLen - 8) }, (s.count rCphAuthcnt 1).irq rCphIrq 1)
  | 3 =>
    let (c, s0) := s.gcmCounter r
    let n := le 4 (keyIdOf (bits 15 8 (r.word 1)) (bits 31 16 (r.word 1))) ++ le 8 c
    if s.reg rKeyGcmlim < c then ({ status := 2 }, (s0.gcmExhausted r).count rCphExhcnt 1 |>.irq rCphIrq 0)
    else ({ status := 0, cnt := c, nonce := n, out := Config.gcmSeal k n aad msg, blocks := bulk + 2 }, s0.gcmUsed r c)
  | 4 =>
    let c := Machine.fld 16 8 aad
    let n := sub 12 4 aad ++ le 8 c
    match Config.gcmOpen k n aad msg with
    | some p => ({ status := 0, cnt := c, nonce := n, out := p, blocks := bulk + 1 }, s)
    | none => ({ status := 1, cnt := c, nonce := n, blocks := bulk + 1 }, (s.count rCphAuthcnt 1).irq rCphIrq 1)
  | 5 => ({ status := 0, out := Config.cmac k inp, blocks := ceilDiv inp.length 16 + 1 }, s)
  | 6 =>
    if cmacChk k inp then ({ status := 0, blocks := ceilDiv inp.length 16 + 1 }, s)
    else ({ status := 1, blocks := ceilDiv inp.length 16 + 1 }, (s.count rCphAuthcnt 1).irq rCphIrq 1)
  | 7 => ({ status := 0, out := fit 24 (Config.kwWrap (skek s.sys s.cfg.sysaddr) (be 16 k)), blocks := 12 }, s)
  | _ => ({ status := 0, cnt := r.word 3, out := Config.aesCtr k (s.reqNonce r true) msg, blocks := bulk }, s)

/-- The result of a request of an ECC engine (R534, R535, R752). -/
def State.eccResult (s : State) (r : CphReq) : CphRes × State :=
  if r.op = 9 then
    match (if s.sysKey.isNone then none else Config.kwUnwrap (jkek s.sys) (r.wrapped 40)) with
    | none => if s.sysKey.isNone then ({ status := 4 }, s) else ({ status := 3 }, s.irq rCphIrq 2)
    | some seed =>
      let key := sigk s.sys (bits 17 0 (r.word 2)) (bits 31 16 (r.word 1))
      ({ status := 0, cnt := r.word 3, out := fit 64 (signFrom key (s.wramBytes (r.word 4) 32) seed (r.word 3) 255 0) }, s.count rCphSigcnt 1)
  else
    let b := s.wramBytes (r.word 4) 160
    if Config.ecdsaVerify (b.take 64) ((b.drop 64).take 32) (b.drop 96) then ({ status := 0 }, s)
    else ({ status := 1 }, (s.count rCphAuthcnt 1).irq rCphIrq 1)

/-- Post a finished request: its output at DST, its blocks counted, its result on Q11 (R533). -/
def State.finishReq (s : State) (r : CphReq) (unit : Nat) (x : CphRes) : State :=
  let s1 := if x.status = 0 then s.putWram (r.word 5) x.out else s
  (s1.count rCphBlkcnt x.blocks).postResult r x.status unit x.cnt x.nonce (if x.status = 0 then x.out.length else 0)

/-! ### Placing (R530, R531) -/

/-- Insert into the queue by priority, then arrival (R530). -/
def queueReq (r : CphReq) : List CphReq → List CphReq
  | [] => [r]
  | x :: rest => if r.prio < x.prio then r :: x :: rest else x :: queueReq r rest

/-- Lane `k`. -/
def Sec.lane (x : Sec) (k : Nat) : Lane := x.lanes.getD k {}

/-- The lane a request suspends: the highest running priority number above its own with an empty suspend slot, then the lowest lane (R530). -/
def Sec.suspendable (x : Sec) (p : Nat) : Option Nat :=
  (List.range 16).foldl (fun m k => match (x.lane k).run, (x.lane k).susp with
    | some (r, _), none =>
      if p < r.prio then (match m with
        | none => some k
        | some j => match (x.lane j).run with | some (q, _) => if q.prio < r.prio then some k else some j | none => some k) else m
    | _, _ => m) none

/-- place of R530 for a request of a lane. -/
def State.placeLane (s : State) (r : CphReq) : State :=
  match (List.range 16).find? fun k => (s.sec.lane k).run.isNone with
  | some k => s.setSec fun x => { x with lanes := x.lanes.set k { x.lane k with run := some (r, .loading) } }
  | none =>
    match s.sec.suspendable r.prio with
    | some k =>
      (s.setSec fun x => { x with lanes := x.lanes.set k { run := some (r, .loading), susp := (x.lane k).run.map (·.1) } }).count rCphSuspcnt 1
    | none => s.setSec fun x => { x with waitQ := queueReq r x.waitQ }

/-- place of R530 for a request of an ECC engine: the two engines, else the queue (R534). -/
def State.placeEcc (s : State) (r : CphReq) : State :=
  match (List.range 2).find? fun k => ((s.sec.ecc.getD k none)).isNone with
  | some k => s.setSec fun x => { x with ecc := x.ecc.set k (some r) }
  | none => s.setSec fun x => { x with waitQ := queueReq r x.waitQ }

/-- A lane is free of its message: it resumes its suspended one, unless a more urgent request waits (R530). -/
def State.nextOnLane (s : State) (k : Nat) : State :=
  let l := s.sec.lane k
  let q := s.sec.waitQ.find? CphReq.onLane
  let takeQ (r : CphReq) (susp : Option CphReq) : State :=
    s.setSec fun x => { x with lanes := x.lanes.set k { run := some (r, .loading), susp := susp }, waitQ := x.waitQ.erase r }
  match l.susp, q with
  | some p, some r =>
    if r.prio < p.prio then takeQ r (some p) else s.setSec fun x => { x with lanes := x.lanes.set k { run := some (p, .resuming), susp := none } }
  | some p, none => s.setSec fun x => { x with lanes := x.lanes.set k { run := some (p, .resuming), susp := none } }
  | none, some r => takeQ r none
  | none, none => s.setSec fun x => { x with lanes := x.lanes.set k {} }

/-- An ECC engine is free: it takes the next queued request of its kind. -/
def State.nextOnEcc (s : State) (k : Nat) : State :=
  match s.sec.waitQ.find? CphReq.onEcc with
  | some r => s.setSec fun x => { x with ecc := x.ecc.set k (some r), waitQ := x.waitQ.erase r }
  | none => s.setSec fun x => { x with ecc := x.ecc.set k none }

end Sys2Proof.Machine
end

