-- ==== Sys2Proof/Machine/SecureOps.lean ====
section
/-! DEFINITION. Tamper alarms (R540 to R546) and the security commands that alarm hold runs (R544, R545, R551). -/
namespace Sys2Proof.Machine

/-- SEV of a source; for sources 6 and 7 code 0 acts as 1 (R540). -/
def State.tamperSev (s : State) (n : Nat) : Nat :=
  let v := s.fld rOasTampcfg (2 * n + 1) (2 * n)
  if 6 ≤ n ∧ v = 0 then 1 else v

/-- Whether a source can alarm now (R540, R550): it is not off, and those of the main domain only while it is powered; JTAG only while it is
closed. -/
def State.canAlarm (s : State) (n : Nat) : Bool :=
  s.tamperSev n ≠ 0 && (n == 0 || n == 1 || n == 2 || n == 5 || !s.onVbat) && !(n == 6 && s.sec.otp.lc == .open_)

/-- Whether any latched source is severe. -/
def State.severeLatched (s : State) : Bool := (List.range 8).any fun n => s.bitOf rOasTampstat n && decide (2 ≤ s.tamperSev n)

/-- The alarm's Oasis bits: HOLD, LATCH and LIVE of the source, and one more in OAS_ALMCNT (R541, R557). -/
def State.latchAlarm (s : State) (n : Nat) : State :=
  let s1 := ((s.setBit rOasTampstat n true).setBit rOasTampstat 8 true).setBit rOasTampstat (16 + n) true
  s1.setReg rOasAlmcnt (satAdd 0xFFFF (s1.fld rOasAlmcnt 15 0) 1)

/-- The TAMPER payload (R543). -/
def State.tamperPayload (s : State) (vbat erased aborted : Bool) : Bytes :=
  let esc := s.sec.otp.lc == .field && s.severeLatched && s.bitOf rOasTampcfg 18
  le 1 1 ++ le 1 (s.fld rOasTampstat 7 0) ++ le 1 (if s.severeLatched then 1 else 0) ++ le 1 s.sec.otp.lc.code ++ le 2 (s.fld rOasAlmcnt 15 0) ++
  le 1 (if vbat then 1 else 0) ++ le 1 (flag 0 erased + flag 1 aborted + flag 2 esc) ++ le 8 s.oas.time

/-- An alarm detected on main: keys erased, latched, the TAMPER entry journaled and flushed by a holder, or a local alarm event recorded
by a unit without the token; an update aborted; the token released; the main domain reset into alarm hold (R541, R542). DESIGN CHOICE: a boundary hold in
progress ends before the TAMPER entry is journaled; R51 and R52 name no such case. -/
def State.alarmOnMain (s : State) (n : Nat) : State :=
  let s1 := (s.eraseKeys.irq rKeyIrq 0).latchAlarm n
  let aborted := s1.updating
  let s2 := if s1.bitOf rJsqCtl 0 && s1.seq.holder then
      ((s1.endHold none).journalOwn .tamper (s1.tamperPayload false true aborted)).khamsinFlush
    else if s1.bitOf rEvrCtl 0 then
      let b := eventBody 0x4C (s1.fld rOasTampstat 7 0) s1.cfg.sysaddr 0 0 s1.dev 0 s1.seq.unsure s1.seq.regressed (!s1.sealed) []
      s1.recordEvent 0x4C (b ++ s1.tag b)
    else s1
  ((s2.abortUpdate).dropToken 3 5).mainReset .rom 4

/-- An alarm detected on VBAT: the same Oasis bits; its TAMPER entry waits for the first start after the re-arm (R541, R543). -/
def State.alarmOnVbat (s : State) (n : Nat) : State :=
  let s1 := s.latchAlarm n
  { s1 with pow := { s1.pow with alarms := s1.pow.alarms ++ [(s1.oas.time, s1.tamperPayload true false false)] } }

/-- A valid REARM clears LATCH and HOLD and resets the main domain into a normal start (R545); the cause that reset shows is a free value. -/
def State.rearm (s : State) : State :=
  let (v, s1) := s.free
  ((s1.setReg rOasTampstat 0).mainReset .rom (v % 8))

/-- What alarm hold makes of a security command: its status, the state it leaves the life cycle in and what it does after the answer
(R544, R545, R551). -/
def State.holdCommand (s : State) (code : Nat) (sig : Bytes) : Status × LifeCycle × (State → State) :=
  let lc := s.sec.otp.lc
  if code < 0xF01 ∨ 0xF05 < code then (.notPermitted, lc, id)
  else if s.lcSigned code sig = false then (.notPermitted, lc, id)
  else if code = 0xF05 then (.ok, lc, State.rearm)
  else match s.sec.otp.next code with
    | some t => (.ok, (s.sec.otp.transit t 0).lc, fun x => x.transitionWhen t)
    | none => (.badState, lc, id)

/-- A unit that holds an operator's key. -/
def State.withOpk (s : State) (k : Bytes) : State := { s with sec := { s.sec with opk := k } }

/-- What a unit without service, outside alarm hold, makes of a security command under an OPK: its status, and what it then does (R522, R551, R692).
REARM is accepted only in alarm hold. -/
def State.directCommand (s : State) (k : Bytes) (code : Nat) (sig : Bytes) : Status × (State → State) :=
  if code < 0xF01 ∨ 0xF05 < code then (.notPermitted, id)
  else if (s.withOpk k).lcSigned code sig = false then (.notPermitted, id)
  else if code = 0xF01 then
    if s.sec.otp.lc = .open_ then (.ok, fun x => (x.withOpk k).commission.withOpk x.sec.opk) else (.badState, id)
  else match s.sec.otp.next code with
    | some t => (.ok, fun x => x.transitionWhen t)
    | none => (.badState, id)

/-- The 16-byte hold answer (R544). -/
def State.holdAnswer (s : State) (code : Nat) (st : Status) (lc : LifeCycle) : Bytes :=
  le 4 0x4A46484F ++ le 2 code ++ le 1 st.code ++ le 1 lc.code ++ s.unitId

end Sys2Proof.Machine
end

