-- ==== Sys2Proof/Machine/Flags.lean ====
section
/-! DEFINITION. The status words: what each read-only register that follows the machine's state shows (the register tables of chapters 01 to
19 of the spec). Other registers read as stored. -/
namespace Sys2Proof.Machine

/-- Bits of a Bool list from bit `lo` up. -/
def flagsFrom (lo : Nat) (l : List Bool) : Nat := (l.zipIdx.map fun p => flag (lo + p.2) p.1).foldl (· + ·) 0

/-- Which of `n` registers, `stride` apart from `base`, an address is. -/
def nth (base stride n a : Nat) : Option Nat :=
  if base ≤ a ∧ a < base + stride * n ∧ (a - base) % stride = 0 then some ((a - base) / stride) else none

/-- Low half of a 64-bit value. -/
def lo32 (v : Nat) : Nat := v % 2 ^ 32
/-- High half of a 64-bit value. -/
def hi32 (v : Nat) : Nat := v / 2 ^ 32 % 2 ^ 32

/-! ### System, rings, sequencer, Erg, context store (R75, R107, R145, R183, R673) -/

/-- SYS_STAT (R673). -/
def State.sysStat (s : State) : Nat :=
  flag 0 s.pow.warn + flag 1 s.pow.kham.isSome + (match s.pow.kham with | some k => k.step % 8 | none => 0) * 4 + flag 5 s.pow.pfail

/-- QF_STATn (R107). -/
def State.qfStat (s : State) (n : Nat) : Nat :=
  let r := s.ring n
  flag 0 (r.cnt == 0) + flag 1 (r.en && r.freeWords == 0) + flag 2 (decide (r.opn ≠ .closed)) +
  flag 3 (match r.opn with | .opened _ _ c => c | .dropped => true | .closed => false) + flag 4 (decide (0 < r.pend)) + flag 5 r.held + flag 6 (if n = 12 then s.q12Stalled else r.stalled) +
  flag 7 (!ringDrops n)

/-- QF_WPTRn and QF_RPTRn of a position (R107). -/
def Ring.ptr (r : Ring) (pos : Nat) : Nat := pos % r.size % 65536 + flag 16 (pos / r.size % 2 == 1)

/-- A ring's register at an offset (R107). -/
def State.qfReg (s : State) (n off : Nat) : Option Nat :=
  let r := s.ring n
  match off with
  | 0x00 => some (r.base % 2 ^ 20 + r.sizeLog2 % 16 * 2 ^ 24)
  | 0x04 => some (flag 0 r.en)
  | 0x08 => some (s.qfStat n)
  | 0x0C => some r.cnt
  | 0x14 => some (r.ptr r.w)
  | 0x18 => some (r.ptr r.r)
  | 0x1C => some (min 0xFFFFFF r.pend)
  | 0x20 => some r.dropCnt
  | _ => none

/-- JSQ_STAT (R76). -/
def State.jsqStat (s : State) : Nat :=
  flagsFrom 0 [s.bitOf rJsqCtl 0, s.seq.hold.isSome, s.seq.unsure, s.seq.regressed, !s.seq.ckptBusy.isEmpty, !s.ctx.closes.isEmpty, s.seq.khamsin] +
  (match s.seq.hold with | some h => min 4096 h.items.length | none => 0) * 65536

/-- ERG_STAT (R145). -/
def State.ergStat (s : State) : Nat :=
  flagsFrom 0 [s.bitOf rErgCtl 0, s.erg.poolFull, !s.erg.spilled.isEmpty] + flagsFrom 8 (s.erg.dunes.map fun d => d.pwr == .awake) +
  s.erg.maxAwake % 16 * 65536

/-- Park records in the park table: what ERG_PARK counts (R130, R145). -/
def State.parksUsed (s : State) : Nat := s.parkTable.length

/-- Slots in state ACTIVE: ARB_STAT.ACTIVE (R183). -/
def State.activeSlots (s : State) : Nat := (s.ctx.slots.filter fun p => p.2.state == .active).length

/-! ### Billing and feeder (R261, R323, R324) -/

/-- BIL_STAT (R261). -/
def State.bilStat (s : State) : Nat :=
  let b := s.bandNow s.seq.nextJsn
  let dst := match s.cfg.tariff with | some t => t.dst.en && dstOn t.dst (stdSec s.cfg (secOf s.dev)) | none => false
  b.1 % 8 + b.2 % 4 * 8 + flagsFrom 5 [dst, !s.ctx.closes.isEmpty, !s.ctx.heldPers.isEmpty, s.cfg.tariff.isSome]

/-- BIL_CURSOR (R261). -/
def State.bilCursor (s : State) : Nat := match s.ctx.closes with | c :: _ => c.cursor % 2 ^ 18 + 2 ^ 31 | [] => 0

/-- BIL_SIGNED: records signed in the open close, else in the last one (R261). -/
def State.bilSigned (s : State) : Nat := match s.ctx.closes with | c :: _ => c.closed | [] => s.ctx.closeLast

/-- The next calendar boundary as BIL_NEXTBND shows it; 0 when none (R261). -/
def State.nextBnd (s : State) : Nat :=
  if s.seq.unsure then 0 else match s.nextBoundarySec with | some x => x * second | none => 0

/-- MTR_STAT (R323). -/
def State.mtrStat (s : State) : Nat :=
  flagsFrom 0 [s.fe.run, s.fe.unsettled, s.fe.noZc] + flagsFrom 3 (s.fe.phases.map fun p => p.present) + min 8 s.fe.held.length * 64 +
  min 16 s.fe.events.length * 1024 + flagsFrom 15 (s.fe.phases.map fun p => p.rev) + flag 18 s.fe.byp + flag 19 s.fe.neu +
  flagsFrom 20 ((List.range 7).map fun n => s.fe.ovr.contains n)

/-- A feeder billing register (R324): it reads 0 in the head role (R292). -/
def State.feederReg (s : State) (a : Nat) : Option Nat :=
  let f : FeederAgg := if s.cfg.role = .head then {} else s.ctx.feeder
  match a - 0x40090000 with
  | 0x200 => some (lo32 f.maxDem)
  | 0x204 => some (f.band % 8 + flag 3 f.inc)
  | _ =>
    match nth (rBilFregLo 0) 8 32 a, nth (rBilFregHi 0) 8 32 a with
    | some m, _ => some (lo32 (f.reg.getD m 0))
    | none, some m => some (hi32 (f.reg.getD m 0))
    | none, none => none

/-! ### Radio and power line (R379, R417) -/

/-- RAD_STAT (R379); no frame is half received between two commands. -/
def State.radStat (s : State) : Nat :=
  let full := match s.rad.xch with | some x => x.full && x.step == .train | none => false
  flagsFrom 0 [s.bitOf rRadCtl 0, s.txBusy s.t (s.t + 1), s.sef.driver, full] +
  flag 12 (s.bitOf rRadCtl 0 && decide (s.budgetAt s.t ≤ s.dutyRes)) + min 4096 s.rad.downs.length * 65536

/-- PLC_STAT (R417). -/
def State.plcStat (s : State) : Nat :=
  flag 0 (s.bitOf rPlcCtl 0) + flagsFrom 1 (s.plc.phases.map fun p => p.locked) +
  flagsFrom 4 (s.plc.phases.map fun p => p.sending ≠ []) + flagsFrom 10 s.plc.coinc + flag 13 s.sef.driver +
  min 4096 s.plc.downs.length * 16384

/-- PLC_FREQp: the frequency of a locked phase in mHz (R417). -/
def State.plcFreq (s : State) (p : Nat) : Nat :=
  let x := s.phase p
  if x.locked then (match x.period with | some d => if d = 0 then 0 else 1000 * second / d | none => 0) else 0

/-! ### Backhaul and time (R469, R507, R508) -/

/-- NET_STAT (R469). -/
def State.netStat (s : State) : Nat :=
  let p (n : Nat) : NetPort := s.net.ports.getD n {}
  flagsFrom 0 [(p 0).up, (p 1).up, (p 0).up && (p 0).slow, (p 1).up && (p 1).slow, s.sef.driver, s.net.pausing,
    (List.range 2).any s.portPaused, s.oboxFull, s.net.dad == .inUse]

/-- TIM_STAT (R507). -/
def State.timStat (s : State) : Nat :=
  (match s.tim.servo with | .free => 0 | .acquire => 1 | .locked => 2 | .holdover => 3) +
  flagsFrom 2 [s.seq.unsure, s.tim.stepUsed, s.tim.mismatch, s.tim.master.isSome, s.tim.pend.isSome]

/-- A CTL register at an offset of its group (R507). -/
def State.ctlReg (s : State) (n off : Nat) : Option Nat :=
  match off with
  | 0x00 => some (s.reg (rTimCtlcfg n) % 2 ^ 24 + flag 24 (decide (s.t < (s.ctlOut n).activeUntil)))
  | 0x20 => some (lo32 ((s.ctlNext n).getD 0))
  | 0x24 => some (hi32 ((s.ctlNext n).getD 0))
  | _ => none

/-- OAS_STAT as a requester reads it (R492, R508). -/
def State.oasStat (s : State) (w : Who) : Nat :=
  let r := s.reg rOasStat
  flag 0 (bit 0 r) + flag 1 (s.oas.stale.at w) + flag 2 (s.oas.shadow.at w).isSome + flag 3 s.oas.stgPend.isSome + flag 4 (bit 4 r) + flag 5 (bit 5 r)

/-! ### Ciphers and keys (R555, R556) -/

/-- CPH_LANEk (R555). -/
def Lane.word (l : Lane) : Nat :=
  match l.run with
  | some (r, st) => (match st with | .loading => 1 | .running => 2 | .resuming => 3) + r.prio % 4 * 4 + r.op % 256 * 256
  | none => 0

/-- KEY_STAT (R556). -/
def State.keyStat (s : State) : Nat :=
  let root := (s.sec.otp.roots.findIdx? fun r => match r with | .valid _ => true | _ => false).getD 0
  s.sec.otp.lc.code + root % 4 * 8 + flagsFrom 5 [s.sysKey.isSome, s.bitOf rOasTampstat 8, s.sec.otp.commissioned, s.sec.otp.lc == .open_, s.sec.maskGen]

/-! ### Media and events (R599, R600) -/

/-- MED_STAT (R599). -/
def State.medStat (s : State) : Nat :=
  let m := s.med
  flagsFrom 0 [m.run, m.run, m.bgOn, m.fgOn, m.khamsin, m.patrol, m.run && m.nand.degraded, m.readOnly, m.refused]

/-- A MED register of the media's figures (R599). -/
def State.medReg (s : State) (a : Nat) : Option Nat :=
  let m := s.med
  let n := m.nand
  let on (v : Nat) : Option Nat := some (if m.run then v else 0)
  match a % 256 with
  | 0x04 => some s.medStat
  | 0x08 => on (match n.geom with | some g => g.luns % 32 + (match g.page with | 2 => 1 | 4 => 2 | _ => 0) * 32 + g.ppb % 4096 * 256 | none => 0)
  | 0x0C => on n.capMib
  | 0x10 => on n.free
  | 0x14 => on m.cacheTarget
  | 0x18 => on (n.spareMin % 65536 + min 65535 n.spareAll * 65536)
  | 0x1C => on (min 65535 m.wearAvg + m.wearMax * 65536)
  | 0x20 => on n.corr
  | 0x24 => on n.retry
  | 0x28 => on n.rebuild
  | 0x2C => on n.loss
  | 0x30 => on n.pfail
  | 0x34 => on n.efail
  | 0x38 => on n.refresh
  | 0x3C => on n.badReq
  | 0x68 => on n.total
  | 0x6C => on n.cacheUsed
  | off => if 0x40 ≤ off ∧ off < 0x60 ∧ off % 4 = 0 then on (n.tempHours ((off - 0x40) / 4)) else none

/-! ### The Seif chain (R617, R618, R641) -/

/-- SEF_STAT (R641). -/
def State.sefStat (s : State) : Nat :=
  flagsFrom 0 [s.sef.on, s.sef.pos.isSome, s.sef.head, s.sef.ring] + (s.sef.pos.getD 0) % 32 * 16 + s.sef.state % 8 * 512 +
  flagsFrom 12 [s.sef.driver, !s.sef.lineLow] + s.sef.ringLast % 32 * 2 ^ 14

/-- Watchdog time left in ms (R631, R641). -/
def State.wdLeft (s : State) : Nat := if s.sef.driver then 25 - min 25 ((s.t - s.sef.kickAt) * 1000 / second) else 0

/-- SEF_LINK (R641). -/
def State.sefLink (s : State) : Nat :=
  let l (n : Nat) : SefLink := s.sef.links.getD n {}
  flagsFrom 0 [(l 0).up, (l 1).up, (l 0).dis, (l 1).dis] + ((l 0).partner.getD 0) % 32 * 256 + ((l 1).partner.getD 0) % 32 * 65536

/-- The holder's NEXT_JSN, as the heartbeats tell it (R618). -/
def State.holderNext (s : State) : Option Nat :=
  if s.sef.driver then some s.seq.nextJsn else (s.peersPresent.find? fun p => p.token).map (·.nextJsn)

/-- A unit with this HIGH is in sync with the holder (R618). -/
def State.inSyncAt (s : State) (high : Nat) : Bool :=
  match s.holderNext with | some n => decide (n - 1 - high ≤ s.fld rSefLag 20 0) | none => false

/-- SEF_PEER: the unit itself counts as present and matching. (R641). DEDUCED: the table speaks of ranks, not of peers. -/
def State.sefPeer (s : State) : Nat :=
  ((List.range 3).map fun r =>
    if s.triad && s.rank == r then
      flag r true + flag (3 + r) (s.sef.state == 3 || s.sef.state == 4) + flag (6 + r) s.sef.driver + flag (9 + r) true
    else match (if s.triad then s.sef.peers.find? fun p => p.pos == s.memberPos r else none) with
      | some p => flag r p.present + flag (3 + r) (p.present && s.peerMatches p && (p.token || s.inSyncAt p.high)) +
          flag (6 + r) (p.present && p.token) + flag (9 + r) (s.peerMatches p)
      | none => 0).foldl (· + ·) 0

/-- The last JACK of the peer of lower (0) or higher (1) rank (R620, R641). -/
def State.packOf (s : State) (k : Nat) : Nat :=
  let ranks := (List.range 3).filter fun r => r ≠ s.rank
  if s.triad then
    match s.sef.peers.find? fun p => p.pos == s.memberPos (ranks.getD k 0) with
    | some p => p.jack
    | none => 0
  else 0

/-- SEF_MEMBER (R641). -/
def State.sefMember (s : State) : Nat := s.reg rSefMember % 2 ^ 24 + s.rank % 4 * 2 ^ 24

/-! ### By address -/

/-- What a status register shows now; none where the register reads as stored. -/
def State.liveReg (s : State) (w : Who) (a : Nat) : Option Nat :=
  if a < 0x40010000 then (if a = rSysStat then some s.sysStat else if a = rSysClk then some (s.reg rSysClk - bits 4 1 (s.reg rSysClk) * 2 + flagsFrom 1 s.pow.locks) else none)
  else if a < 0x40020000 then
    (if a < 0x40010400 then s.qfReg ((a - 0x40010000) / 64) ((a - 0x40010000) % 64) else none)
  else if a < 0x40030000 then
    (match a - 0x40020000 with
    | 0x04 => some s.jsqStat
    | 0x08 => some (lo32 s.seq.nextJsn)
    | 0x0C => some (hi32 s.seq.nextJsn)
    | 0x10 => some (lo32 s.seq.durable)
    | 0x14 => some (hi32 s.seq.durable)
    | 0x18 => some (lo32 s.ctx.hwb)
    | 0x1C => some (hi32 s.ctx.hwb)
    | 0x20 => some (lo32 (match s.seq.ckpts.getLast? with | some k => k.cutJsn | none => 0))
    | 0x24 => some (hi32 (match s.seq.ckpts.getLast? with | some k => k.cutJsn | none => 0))
    | 0x2C => some (match s.seq.ckpts.getLast? with | some k => k.no | none => 0)
    | _ => none)
  else if a < 0x40040000 then
    (match a - 0x40030000 with
    | 0x04 => some s.ergStat
    | 0x18 => some (lo32 s.cwm)
    | 0x1C => some (hi32 s.cwm)
    | 0x20 => some (poolSize - min poolSize s.tasksUsed + 0x200 * 65536)
    | 0x24 => some (min 65536 s.parksUsed)
    | _ =>
      match nth (rErgGstat 0) 4 64 a, nth (rErgDstat 0) 4 8 a with
      | some g, _ => some (s.gstat g)
      | none, some d => some (s.dstat d)
      | none, none => none)
  else if a < 0x40050000 then
    (match a - 0x40040000 with
    | 0x04 => some (flagsFrom 0 (s.sec.lanes.map fun l => l.run.isSome) + flagsFrom 16 (s.sec.lanes.map fun l => l.susp.isSome))
    | 0x08 => some (min 65535 s.sec.waitQ.length)
    | _ => (nth (rCphLane 0) 4 16 a).map fun k => (s.sec.lane k).word)
  else if a < 0x40060000 then
    (if s.pow.phase = .off then none else
    match a - 0x40050000 with
    | 0x04 => some s.keyStat
    | 0x08 => some (beVal (s.unitId.drop 4))
    | 0x0C => some (beVal (s.unitId.take 4))
    | 0x10 => some (s.ctx.sigGen % 65536 + s.ctx.h2uGen % 65536 * 65536)
    | 0x14 => some (s.sec.u2hGen % 65536)
    | 0x20 => some (s.sec.otp.svn % 128)
    | _ => (nth (rKeyDpub 0) 4 16 a).map fun k => fldB (4 * k) 4 (Config.ecPub s.dik))
  else if a < 0x40070000 then
    (if a = rRadStat then some s.radStat else if a = rRadBudget then some (min 0xFFFFFFFF (s.budgetAt s.t / second)) else none)
  else if a < 0x40080000 then
    (if a = rPlcStat then some s.plcStat else (nth (rPlcFreq 0) 4 3 a).map s.plcFreq)
  else if a < 0x40090000 then
    (if a = rMtrStat then some s.mtrStat else if a = rMtrFreq then some (if s.fe.noZc then 0 else s.fe.freq)
     else if a = rMtrBseq then some (s.fe.bseq % 2 ^ 32)
     else if a = rMtrGd then some (if s.fe.run then gdT s.fe.act.1 else 0) else none)
  else if a < 0x400A0000 then
    (match a - 0x40090000 with
    | 0x04 => some s.bilStat
    | 0x08 => some (if s.arb.restored then lo32 s.ctx.epoch else 0)
    | 0x0C => some (if s.arb.restored then lo32 s.ctx.openPer else 0)
    | 0x10 => some s.bilCursor
    | 0x14 => some (s.bilSigned % 2 ^ 18)
    | 0x18 => some (lo32 s.nextBnd)
    | 0x1C => some (hi32 s.nextBnd)
    | 0x20 => some ((localOffset s.cfg (secOf s.dev)) % 65536).toNat
    | _ => s.feederReg a)
  else if a < 0x400A8000 then
    (match a - 0x400A0000 with
    | 0x04 => some s.netStat
    | 0x20 => some (lo32 s.ctx.nextRsn)
    | 0x24 => some (hi32 s.ctx.nextRsn)
    | 0x28 => some (lo32 s.ctx.acked)
    | 0x2C => some (hi32 s.ctx.acked)
    | 0x30 => some (min 4194304 s.obox.length)
    | _ => (nth (rNetIp6 0) 4 4 a).map fun k => if s.net.dad = .inUse then fldB (4 * k) 4 s.net.addr6 else 0)
  else if a < 0x400B0000 then
    (match a - 0x400A8000 with
    | 0x04 => some s.timStat
    | 0x08 => some (lo32 s.dev)
    | 0x0C => some (hi32 s.dev)
    | 0x24 => some (s.reg rTimAlarm % 65536 + ((utcOffset s.cfg (secOf s.dev)) % 256).toNat * 65536)
    | off => if 0x100 ≤ off ∧ off < 0x300 then s.ctlReg ((off - 0x100) / 64) ((off - 0x100) % 64) else none)
  else if a < 0x400C0000 then s.medReg (a - 0x400B0000)
  else if a < 0x400D0000 then
    (match a - 0x400C0000 with
    | 0x04 => some (flag 0 (s.bitOf rEvrCtl 0) + flag 1 s.evr.wrapped + min 255 (s.evrLeft w) * 4)
    | 0x08 => some (lo32 s.evr.first)
    | 0x0C => some (lo32 s.evr.next)
    | 0x18 => some s.evr.lost
    | 0x20 => some (lo32 s.evr.clrSer)
    | _ => none)
  else if a < 0x400E0000 then
    (match a - 0x400D0000 with
    | 0x04 => some s.sefStat
    | 0x08 => some (flag 0 s.sef.role)
    | 0x0C => some (s.wdLeft * 256)
    | 0x10 => some s.sefLink
    | 0x14 => some s.sefMember
    | 0x18 => some s.sefPeer
    | 0x28 => some (lo32 s.high)
    | 0x2C => some (hi32 s.high)
    | 0x30 => some (lo32 s.ctx.nextVsn)
    | 0x34 => some (hi32 s.ctx.nextVsn)
    | 0x38 => some (lo32 (s.packOf 0))
    | 0x3C => some (hi32 (s.packOf 0))
    | 0x50 => some (lo32 (s.packOf 1))
    | 0x54 => some (hi32 (s.packOf 1))
    | _ => none)
  else if a < 0x400F0000 then
    (let x := (s.oas.shadow.at w).getD s.oasLive
    match a - 0x400E0000 with
    | 0x00 => some x.w0.toNat
    | 0x04 => some x.w1.toNat
    | 0x08 => some x.w2.toNat
    | 0x0C => some x.w3.toNat
    | 0x1C => some (s.oasStat w)
    | 0x100 => some (s.reg rOasPwr - bits 4 4 (s.reg rOasPwr) * 16 + flag 4 s.locked)
    | _ => none)
  else if a = rArbStat then some (s.activeSlots + flag 18 (s.poolFree == 0))
  else if a = rArbFree then some (if s.arb.restored then s.poolFree else 0)
  else none

/-- The value a register shows to a requester, before the latches of R76. -/
def State.regShows (s : State) (w : Who) (a : Nat) : Nat := (s.liveReg w a).getD (s.reg a)

end Sys2Proof.Machine
end

