-- ==== Sys2Proof/Machine/RegOps.lean ====
section
/-! DEFINITION. Accesses to the management address space: its areas (R7, R10), the requesters' rights (R323, R491, R553), reads with the
latches of R76, and what a write does by the access codes (R8 to R13). -/
namespace Sys2Proof.Machine

/-- An area of the management address space (R7). -/
inductive Area where
  | rom | ctx | wram | code | regs | none
  deriving DecidableEq, Repr

/-- The area an address lies in (R7). DESIGN CHOICE: R7 gives the register blocks bases and no sizes; each lies in its 64 KiB, so the last, ARB, ends at
0x40100000: from there on an access falls outside every block (R10), and below it an address of no register reads 0. -/
def areaOf (a : Nat) : Area :=
  if a < 0x10000 then .rom
  else if 0x10000000 ≤ a ∧ a < 0x11400000 then .ctx
  else if 0x12000000 ≤ a ∧ a < 0x12400000 then .wram
  else if 0x13000000 ≤ a ∧ a < 0x13200000 then .code
  else if 0x40000000 ≤ a ∧ a < 0x40100000 then .regs
  else .none

/-- The number of a requester in an address-fault event. DESIGN CHOICE: the order in which R7 names them. -/
def whoNum : Who → Nat
  | .dev => 0 | .seif => 1 | .maint => 2

/-- An access outside every block: a bus error and an address-fault event (R10). -/
def State.addressFault (s : State) (w : Who) (a : Nat) : State := (s.busErr w).event 0x41 a none (le 1 (whoNum w))

/-- The _LO registers of the 64-bit pairs (R76). -/
def loRegs : List Nat := [rJsqNextLo, rJsqDurLo, rJsqHwbLo, rJsqCkjsnLo, rErgCwmLo, rKeyUnitidLo, rBilNextbndLo, rNetNrsnLo, rNetArsnLo,
  rTimNowLo, rSefHighLo, rSefVsnLo, rSefPack0Lo, rSefPack1Lo, rOasStgLo, rOasOutageLo, rOasOutjsnLo]

/-- Whether an address is the _LO register of a 64-bit pair (R76). -/
def isLo (a : Nat) : Bool :=
  loRegs.contains a || (nth (rBilFregLo 0) 8 32 a).isSome || (nth (rTimCtlstartLo 0) 64 8 a).isSome || (nth (rTimCtlperLo 0) 64 8 a).isSome ||
  (nth (rTimCtlnextLo 0) 64 8 a).isSome || (nth (rTimEvtlastLo 0) 16 4 a).isSome

/-- Read a register of a block (R9, R76, R492, R595): the value, and what the read does. -/
def State.regRead (s : State) (w : Who) (a : Nat) : Word × State :=
  if a = rOasTime0 then s.oasFreeze w
  else if a = rOasTime3 then s.oasRelease w
  else if a = rEvrRewind then s.evrRewind w
  else if a = rEvrWin then s.evrWin w
  else if (regAt a).isNone then (0, s)
  else if isLo a then
    (BitVec.ofNat 32 (s.regShows w a),
     { s with latch := (s.latch.filter fun p => p.1 ≠ a + 4) ++ [(a + 4, BitVec.ofNat 32 (s.regShows w (a + 4)))] })
  else match s.latch.find? fun p => p.1 == a with
    | some p => (p.2, { s with latch := s.latch.filter fun q => q.1 ≠ a })
    | none => (BitVec.ofNat 32 (s.regShows w a), s)

/-- Registers of a ring that only device code may reach (R107). -/
def ringPortReg (a : Nat) : Bool :=
  decide (0x40010000 ≤ a) && decide (a < 0x40010400) && (a % 64 == 0x28 || a % 64 == 0x2C || a % 64 == 0x30 || a % 64 == 0x34)

/-- A read over the Seif chain, or of a register from the maintenance port (R8, R10, R11, R107, R553): the answer, and what the read does. -/
def State.chainRead (s : State) (w : Who) (a : Nat) : Reply × State :=
  match areaOf a with
  | .regs =>
    if a % 4 ≠ 0 ∨ (inOas a = true ∧ s.locked = true) ∨ ringPortReg a = true then (.busError, s)
    else let r := s.regRead w a; (.data r.1, r.2)
  | .none => (.busError, s.addressFault w a)
  | _ => (.busError, s)

/-! ### Writes -/

/-- The _IRQ registers (R553). -/
def irqRegs : List Nat := [rSysIrq, rQfIrq, rJsqIrq, rErgIrq, rCphIrq, rKeyIrq, rRadIrq, rPlcIrq, rMtrIrq, rBilIrq, rNetIrq, rTimIrq, rMedIrq,
  rEvrIrq, rSefIrq, rArbIrq]

/-- The _IEN registers (R553). -/
def ienRegs : List Nat := [rSysIen, rQfIen, rJsqIen, rErgIen, rCphIen, rKeyIen, rRadIen, rPlcIen, rMtrIen, rBilIen, rNetIen, rTimIen, rMedIen,
  rEvrIen, rSefIen, rArbIen]

/-- Write a register by masks: read-write bits take the value, write-1-to-clear bits clear (R13). -/
def State.maskWrite (s : State) (a : Nat) (v : Word) (rw w1c : Nat) : State :=
  let old : Word := BitVec.ofNat 32 (s.reg a)
  let m : Word := BitVec.ofNat 32 rw
  let c : Word := BitVec.ofNat 32 w1c
  s.setReg a (((old &&& ~~~ m) ||| (v &&& m)) &&& ~~~ (v &&& c)).toNat

/-- LK fields are writable until the boot ROM has applied the configuration image (R13). -/
def State.lkOpen (s : State) : Bool := [RunPhase.off, .rom, .recovery, .scrapped].contains s.pow.phase

/-- A write of 1 to OAS_STAT.READ_STALE clears the writer's own bit (R492, R553). -/
def State.clearStale (s : State) (w : Who) (v : Word) : State :=
  if v.getLsbD 1 then s.setOas fun o => { o with stale := o.stale.put w false } else s

/-- A write by the Seif management frames or the maintenance port to a defined register: within the rights of R553, or none. -/
def State.chainFields (s : State) (w : Who) (a : Nat) (v : Word) : Option State :=
  if a = rRadCtl ∨ a = rPlcCtl then some (s.maskWrite a v 0x2 0)
  else if a = rNetCtl then some (s.maskWrite a v 0x100 0)
  else if irqRegs.contains a then some (s.maskWrite a v 0 (match regAt a with | some d => d.w1c | none => 0))
  else if ienRegs.contains a then some (s.maskWrite a v (match regAt a with | some d => d.rw | none => 0) 0)
  else if a = rOasStat then (if v.getLsbD 4 || v.getLsbD 5 then none else some (s.clearStale w v))
  else if a = rArbLatmax then some (s.setReg rArbLatmax 0)
  else none

/-- A write over the Seif chain, or from the maintenance port except to NET_MDIO (R8 to R11, R107, R553): its answer and effect. -/
def State.chainWrite (s : State) (w : Who) (a : Nat) (v : Word) : Reply × State :=
  match areaOf a with
  | .regs =>
    if a % 4 ≠ 0 ∨ (inOas a = true ∧ s.locked = true) then (.busError, s)
    else if (regAt a).isNone then (.done, s)
    else match s.chainFields w a v with
      | some s1 => (.done, s1)
      | none => (.busError, s)
  | .none => (.busError, s.addressFault w a)
  | _ => (.busError, s)

end Sys2Proof.Machine
end

