-- ==== Sys2Proof/Machine/RecoveryOps.lean ====
section
/-! DEFINITION. The service card (R699) and the entry into recovery mode (R691, R692). -/
namespace Sys2Proof.Machine

/-- A file of a card by its name (R699). -/
def Card.file (c : Option Card) (n : String) : Option Bytes :=
  match c with | some x => (x.files.find? fun f => f.1 == n).map (·.2) | none => none

/-- A firmware image in bytes: its header and its body of LENGTH bytes (R695). -/
def fwTrim (b : Bytes) : Bytes := b.take (256 + min 2097152 (fld 16 4 b))

/-- The image in a firmware slot, header and body. -/
def Nor.fwBytes (n : Nor) (k : Nat) : Bytes := (n.fwImage k).1 ++ (n.fwImage k).2

/-- A configuration image in bytes: LENGTH of them (R679). -/
def cfgTrim (b : Bytes) : Bytes := b.take (max 64 (min 1048576 (fld 8 4 b)))

/-- Whether a configuration image sets CARD_OK (R686, R687). -/
def cardOkOf (img : Bytes) : Bool :=
  match cfgSection img 1 with
  | some b => b.length == 32 && fld 0 1 b == 1 && decide (bits 5 4 (fld 1 1 b) ≠ 3) && bit 6 (fld 1 1 b)
  | none => false

/-- The firmware file of the card (R699, R703): a passing image that differs from both slots goes to the slot PREF does not name. -/
def State.cardFw (s : State) (c : Option Card) : Option State :=
  match Card.file c "IKN8131.FW" with
  | some f =>
    let img := fwTrim f
    if judgeFw s.sec.otp.svn (img.take 256) (img.drop 256) = 0 ∧ img ≠ s.nor.fwBytes 0 ∧ img ≠ s.nor.fwBytes 1 then
      let k := 1 - s.nor.pref
      some ((s.installFw k img).setBoot fun b => { b with bcast := some k })
    else none
  | none => none

/-- The configuration file of the card (R699): a passing image whose hash differs from that of the image in NOR replaces it. -/
def State.cardCfg (s : State) (c : Option Card) : Option State :=
  match Card.file c "IKN8131.CFG" with
  | some f =>
    let img := cfgTrim f
    if judgeCfg s.sec.otp s.csvnFloor none img = 0 ∧ Config.sha256 img ≠ Config.sha256 s.nor.cfgImage then
      some (s.setNor fun n => { n with cfg := norImage n.cfg img })
    else none
  | none => none

/-- Service-card delivery (R699): after a write the ROM resets the main domain. The cause that reset shows is a free value. -/
def State.deliverCard (s : State) : Option State :=
  let c := s.rpl.card
  let reset (x : State) : State := let (v, y) := x.free; y.mainReset .rom (v % 8)
  match s.cardFw c with
  | some a => some (reset ((a.cardCfg c).getD a))
  | none => (s.cardCfg c).map reset

/-- The ROM enters recovery (R691, R692): no subsystem is enabled, and the service card is read once. -/
def State.enterRecovery (s : State) (cause : Nat) : State :=
  let s1 := ((s.mainReset .recovery (s.reg rSysRstcause)).setBit rSysClk 0 true).setBoot fun b => { b with rcause := cause, reason := cause }
  (s1.deliverCard).getD s1

end Sys2Proof.Machine
end

