-- ==== Sys2Proof/Machine/SeifLink.lean ====
section
/-! DEFINITION. The commands of enumeration and of the Seif links (R605 to R610). -/
namespace Sys2Proof.Machine

/-! ### Enumeration (R605 to R607) -/

/-- Send ENUM with the unit's position on DN; ENUM is not forwarded. DESIGN CHOICE: with HOPS 0 and DSTPOS 0x3F. -/
def State.sendEnum (s : State) : State :=
  match s.sef.pos with
  | some p => ((s.linkPut 1 (sefFrame 1 0 p sefAll s.unitId (le 4 p))).setSef fun x => { x with enumAt := s.t })
  | none => s

/-- A collision (R607): the link on which the frame arrived is disabled until the next start. -/
def State.collision (s : State) (link pos : Nat) : State :=
  ((s.setLink link fun l => { l with dis := true }).irq rSefIrq 1).event 0x61 (link + pos % 32 * 256)

/-- Take a chain position (R605); a triad's unit whose position is no member's enters configuration wait (R640). -/
def State.takePos (s : State) (p : Nat) (head : Bool) : State :=
  if s.bitOf rSefCtl 1 && (s.rankAt p).isNone then s.enterRecovery 3 else
  let s1 := s.setSef fun x => { x with pos := some p, head := head, posAt := s.t, aloneAt := s.t, state := max 1 x.state, hbAt := s.t }
  let s2 : State := { s1 with seq := { s1.seq with pos := p } }
  ((s2.irq rSefIrq 0).event 0x60 (p + flag 8 head + flag 9 s.sef.ring)).sendEnum

/-- The level of ADDR_OUT (R605): low until the unit has a position, from then on a 1 kHz square wave, which starts low. DESIGN CHOICE. -/
def State.addrOut (s : State) : BallOut := ballLevel (s.sef.pos.isSome && decide ((s.t - s.sef.posAt) / usU 500 % 2 = 1)) true

/-- ENUM_SAMPLE (R605): `dt` later ADDR_IN is seen static low (0), static high for 2 ms (1) or carrying a square wave (2). -/
def execEnumSample (dt : Nat) (level : Fin 3) (s : State) : Host.Outcome State Fault Refusal :=
  let s1 := s.advance dt
  if s1.sef.on && s1.sef.pos.isNone then
    match level.val with
    | 0 => .next s1
    | 1 => .next (s1.takePos 0 true)
    | _ =>
      match s1.sef.enumQ with
      | some q => .next (if q = 31 then s1.collision 0 q else s1.takePos (q + 1) false)
      | none => .next (s1.setSef fun x => { x with square := true })
  else .next s1

/-! ### Frames waiting for their command -/

/-- SFTYPE of a frame. -/
def sefType (f : Bytes) : Nat := Machine.fld 0 1 f
/-- SRCPOS of a frame. -/
def sefSrc (f : Bytes) : Nat := Machine.fld 4 1 f % 32
/-- Body of a frame. -/
def sefBody (f : Bytes) : Bytes := sub 16 (Machine.fld 2 2 f) f

/-- The first taken frame of a type, and the state without it. -/
def State.takeFrame (s : State) (ty : Nat) : Option ((Nat × Bytes) × State) :=
  match s.sef.inbox.find? fun x => sefType x.2 == ty with
  | some x => some (x, s.setSef fun y => { y with inbox := y.inbox.erase x })
  | none => none

/-- ENUM (R605 to R607): an ENUM frame on UP gives the unit its position, marks a ring at the head, or is a collision. -/
def execEnum (s : State) : Host.Outcome State Fault Refusal :=
  match s.takeFrame 1 with
  | none => .next s
  | some ((link, f), s1) =>
    let q := Machine.fld 0 1 (sefBody f) % 32
    if link ≠ 0 then .next s1
    else if q = 31 then .next (s1.collision 0 q)
    else if s1.sef.head then .next (s1.setSef fun x => { x with ring := true, ringLast := q })
    else match s1.sef.pos with
      | some p => .next (if q + 1 = p then s1 else s1.collision 0 q)
      | none => .next (if s1.sef.square then s1.takePos (q + 1) false
                       else s1.setSef fun x => { x with enumQ := some (x.enumQ.getD q) })

/-- Whether the DN partner's heartbeat has named position + 1 (R605). -/
def State.enumDone (s : State) : Bool :=
  match s.sef.pos, (s.link 1).partner with | some p, some q => q == p + 1 | _, _ => false

/-- ENUM_RESEND (R605): every 1 ms until the DN partner names position + 1. -/
def execEnumResend (s : State) : Host.Outcome State Fault Refusal :=
  if s.sef.on && s.sef.pos.isSome && !s.enumDone then .next (s.until (s.sef.enumAt + msU 1)).sendEnum else .next s

/-- LINK_TRAINED (R605, R609): `dt` later a link completes training and comes up; ENUM is sent again when it is DN. Both directions' LSEQ start
at 0. DESIGN CHOICE. -/
def execLinkTrained (dt : Nat) (link : Fin 2) (s : State) : Host.Outcome State Fault Refusal :=
  let s1 := s.advance dt
  if s1.sef.on && s1.pow.locks.getD 1 false && !(s1.link link.val).dis && !(s1.link link.val).up then
    let s2 := (s1.setLink link.val fun l => { up := true, partner := l.partner }).irq rSefIrq 2
    .next (if link.val = 1 then s2.sendEnum else s2)
  else .next s1

/-! ### Reception (R607 to R610) -/

/-- A frame in order on a link (R607, R610): discarded, taken, forwarded, or both. An IMAGE body of more than 2,048 bytes (R700) exceeds the packet that R82
gives Q7: it is offered whole and the sequencer treats it as truncated (R87). DESIGN CHOICE. -/
def State.linkTake (s : State) (link : Nat) (f : Bytes) : State :=
  let ty := sefType f
  let src := sefSrc f
  let dst := Machine.fld 5 1 f % 64
  if s.sef.pos = some src then (if sub 8 8 f = s.unitId then s else s.collision link src)
  else if ty = 0 ∨ 0x0C < ty then s
  else if 31 ≤ Machine.fld 1 1 f % 32 then s
  else
    let mine := decide (dst = sefAll) || s.sef.pos == some dst
    let onward := decide (ty ≠ 1) && (decide (dst = sefAll) || !(s.sef.pos == some dst))
    let s1 := if mine then
        (if ty = 0x0C then (if s.seq.holder then s.offer 7 { kind := .seifFrame, stamp := s.dev, payload := sefBody f } else s)
         else s.setSef fun x => { x with inbox := x.inbox ++ [(link, f)] })
      else s
    if onward then s1.linkPut (1 - link) (f.take 1 ++ le 1 (Machine.fld 1 1 f + 1) ++ f.drop 2) else s1

/-- LINK_FRAME_RECEIVE (R607 to R610, R612): `dt` later a frame, its CRC included, arrives on a link. -/
def execLinkFrameReceive (dt : Nat) (link : Fin 2) (frame : Bytes) (s : State) : Host.Outcome State Fault Refusal :=
  let s1 := s.advance dt
  let l := s1.link link.val
  let n := frame.length - 4
  let last := (l.lseqRx + 65535) % 65536
  if s1.linkLive link.val = false then .next s1
  else if frame.length < 20 ∨ Machine.fld n 4 frame ≠ crc32 (frame.take n) ∨ n ≠ 16 + Machine.fld 2 2 frame then
    .next ((s1.count rSefCrcerr 1).emit (.seif link.val (ackSet true last)))
  else if Machine.fld 6 2 frame ≠ l.lseqRx then .next (s1.emit (.seif link.val (ackSet false last)))
  else
    let s2 := (s1.setLink link.val fun x => { x with lseqRx := (x.lseqRx + 1) % 65536 }).emit (.seif link.val (ackSet false l.lseqRx))
    .next (s2.linkTake link.val (frame.take n))

/-! ### Acknowledgements and resends (R609) -/

/-- The frames up to an acknowledged LSEQ leave the replay buffer. -/
def State.linkAcked (s : State) (n lseq : Nat) : State :=
  let l := s.link n
  match l.replay.findIdx? fun x => x.1 == lseq with
  | some i => State.linkPump n l.wait.length (s.setLink n fun x => { x with replay := x.replay.drop (i + 1), resends := 0, sentAt := s.t })
  | none => s

/-- Resend from the first unacknowledged frame; after the 16th resend of a frame the link goes down. -/
def State.linkResend (s : State) (n : Nat) : State :=
  let l := s.link n
  if l.replay.isEmpty then s
  else
    let s1 := ((l.replay.foldl (fun a f => a.emit (.seif n (frameSyms f.2))) s).count rSefRetx l.replay.length).setLink n fun x =>
      { x with resends := x.resends + 1, sentAt := s.t }
    if 16 ≤ l.resends + 1 then
      ((s1.setLink n fun x => { dis := x.dis }).irq rSefIrq 2).event 0x62 n
    else s1

/-- LINK_ACK (R609): `dt` later an acknowledgement, or with `nack` a negative one, names the highest LSEQ received in order. -/
def execLinkAck (dt : Nat) (link : Fin 2) (nack : Bool) (lseq : Fin 65536) (s : State) : Host.Outcome State Fault Refusal :=
  let s1 := s.advance dt
  if s1.linkLive link.val then
    let s2 := s1.linkAcked link.val lseq.val
    .next (if nack then s2.linkResend link.val else s2)
  else .next s1

/-- LINK_RETX_TIMEOUT (R609): 100 µs pass with no acknowledgement. -/
def execLinkRetxTimeout (link : Fin 2) (s : State) : Host.Outcome State Fault Refusal :=
  if s.linkLive link.val && !(s.link link.val).replay.isEmpty then
    .next ((s.until ((s.link link.val).sentAt + usU 100)).linkResend link.val)
  else .next s

end Sys2Proof.Machine
end

