-- ==== Sys2Proof/Machine/StartOps.lean ====
section
/-! DEFINITION. The entries the sequencer journals at a start (R56, R58, R225, R543). -/
namespace Sys2Proof.Machine

/-- Payload of START (R30). DESIGN CHOICE: a cut JSN of 0 when no checkpoint was restored. -/
def State.startPayload (s : State) : Bytes :=
  fit 32 s.cfg.hash ++ le 4 s.boot.svn ++ le 1 (match s.cfg.role with | .head => 2 | .field => 1 | .none => 0) ++ le 8 s.boot.cutJsn

/-- SUP_RESTORE: the stamp of the last valid entry before the start (R56). -/
def State.journalRestore (s : State) (last : Option Nat) : State :=
  match last with | some x => s.journalOwn .supRestore (le 8 x) | none => s

/-- The alarms found on VBAT, journaled at the first start after their re-arm with the instants of their detection (R543). -/
def State.journalVbatAlarm (s : State) : State :=
  s.pow.alarms.foldl (fun a x => a.append .tamper .normal {} x.1 (a.inputFlags x.1) x.2) { s with pow := { s.pow with alarms := [] } }

/-- The first BND_TARIFF of a unit that restored no checkpoint, with the START stamp (R225); none without a TARIFF section (R217). -/
def State.journalFirstBand (s : State) : State :=
  if s.boot.cutJsn = 0 ∧ s.cfg.tariff.isSome then
    let b := calBand s.cfg (secOf s.dev)
    s.append .bndTariff .normal {} s.dev (s.inputFlags s.dev) (le 4 (b.1 + b.1 * 16 + b.2 * 256))
  else s

/-- The boundaries that fell during the outage (R56): above the high-water boundary that stood before the start's own BND_TARIFF. -/
def State.journalOutage (s : State) (hwb : Nat) : State :=
  let a := ({ s with ctx := { s.ctx with hwb := hwb } } : State).journalCrossed s.dev
  { a with ctx := { a.ctx with hwb := max a.ctx.hwb s.ctx.hwb }, seq := { a.seq with bndBase := max a.seq.bndBase (secOf s.dev * second) } }

/-- START and what follows it before the first external input (R56, R58); BND_PERIODs held before the start are found again (R242). -/
def State.journalStart (s : State) : State :=
  let last := (s.seq.journal.getLast?).map (·.stamp)
  let s1 := (s.append .start .normal {} s.dev (s.inputFlags s.dev) s.startPayload).setBoot fun b => { b with startDue := false, trialJsn := s.seq.nextJsn }
  if s.seq.unsure then ((s1.journalOwn .timeState [0]).journalRestore last).journalVbatAlarm
  else
    let s2 := s1.journalFirstBand.recoverHeld.releaseHeldPeriod
    let s3 := if last.isSome then s2.journalOutage s1.ctx.hwb else { s2 with seq := { s2.seq with bndBase := secOf s2.dev * second } }
    (s3.journalRestore last).journalVbatAlarm

end Sys2Proof.Machine
end

