-- ==== Sys2Proof/Machine/SyncOps.lean ====
section
/-! DEFINITION. Entries a unit takes verbatim from another or from its own media (R34, R74, R354, R486, R619), the frames of a transfer (R611, R636),
votes (R622 to R627), and the new holder's catch-up (R630). -/
namespace Sys2Proof.Machine

/-! ### Adopting entries -/

/-- What a TIME_SET or TIME_STATE that the unit did not make now does to its time state (R61, R486): a replicated TIME_SET becomes a step, and
one that comes before an earlier one was applied adds to it; one processed at a restore was applied before. -/
def State.adoptTime (s : State) (e : Entry) (step : Bool) : State :=
  match e.kind with
  | .timeSet =>
    let old := Machine.fld 0 8 e.payload
    let new := Machine.fld 8 8 e.payload
    let regr := decide (new < s.ctx.hwb) && (decide (new < old) || s.seq.regressed || s.seq.unsure)
    let s1 : State := { s with seq := s.seq.turn old new s.seq.unsure regr }
    let before := match s1.tim.pend with | some p => if p.replica then p.delta else 0 | none => 0
    if step then
      s1.setTim fun x => { x with pend := some { delta := before + new - old, source := Machine.fld 16 1 e.payload, replica := true } }
    else s1.setTim fun x => { x with pend := none }
  | .timeState => { s with seq := s.seq.turn e.stamp e.stamp (Machine.fld 0 1 e.payload ≠ 1) s.seq.regressed }
  | _ => s

/-- A JOIN that another unit allocated to a slot that is not FREE here yet: the release that freed it comes first (R160). -/
def State.joinWaits (s : State) (e : Entry) : Bool :=
  e.kind != .drbgDraw && e.cls == .normal && e.src.slotV && !e.isNotice && (e.kind == .radFrame || e.kind == .plcFrame) && e.frame.isJoin &&
    (s.slot e.src.slot).state == .decom

/-- What an adopted entry does before its tasks run (R34, R68, R354): the MAC's writes, the time state, the checkpoint of a CKPT entry. A draw is
taken once everything below it that can commit has. -/
def State.adoptEffects (s : State) (e : Entry) (step : Bool) : State :=
  let s0 := if e.kind = .drbgDraw ∨ s.joinWaits e = true then s.settle else s
  let s1 := if e.kind = .ckpt ∧ step then s0.beginCkpt (s0.ckptHere (Machine.fld 0 4 e.payload) e.stamp) else s0
  (s1.mirror e).adoptTime e step

/-- Take an entry verbatim into the journal and to the dispatcher; a replicated one also goes to the media (R34, R619). -/
def State.adopt (s : State) (e : Entry) (toMedia : Bool) : State :=
  let s1 := s.adoptEffects e toMedia
  let s2 : State :=
    { s1 with seq := { s1.seq with journal := s1.seq.journal ++ [e], nextJsn := e.jsn + 1,
                                   lastDur := s1.seq.durSince s1.t, stallFired := s1.seq.stallKept,
                                   lastCkpt := s1.seq.countFrom e.kind e.jsn e.stamp },
              erg := { s1.erg with toDispatch := s1.erg.toDispatch ++ [e] },
              ctx := s1.ctx.note e }
  if toMedia then s2.ringPacket 12 1 (toWs e.bytes) else s2

/-- Take the entries that continue the journal (R619, R630, R636). -/
def State.adoptAll (s : State) (es : List Entry) : State :=
  es.foldl (fun a e => if e.jsn = a.seq.nextJsn then a.adopt e true else a) s

/-- Journal entries back to back; the run ends at the first that fails its checks (R67, R611, R619). -/
def entriesOver : Nat → Bytes → List Entry
  | 0, _ => []
  | k + 1, b => match Entry.ofBytes b with | some e => e :: entriesOver k (b.drop (Machine.fld 0 2 b)) | none => []

/-- The entries of a byte string. -/
def entriesOf (b : Bytes) : List Entry := entriesOver (b.length / 36 + 1) b

/-! ### Transfers (R611, R619, R636) -/

/-- The body of an XFER frame. -/
def xferBody (part off : Nat) (data : Bytes) : Bytes := le 1 part ++ List.replicate 7 0 ++ le 8 off ++ data

/-- Ask a peer for a part (R611). -/
def State.xreq (s : State) (pos part from_ : Nat) : State := s.sefSend 6 pos (le 1 part ++ List.replicate 7 0 ++ le 8 from_)

/-- Entries packed into the data of XFER frames, at most 8,176 bytes each, with the JSN of the first. -/
def packEntries (es : List Entry) : List (Nat × Bytes) :=
  (es.foldl (fun acc e => match acc with
    | (j, b) :: r => if b.length + e.bytes.length ≤ 8176 then (j, b ++ e.bytes) :: r else (e.jsn, e.bytes) :: acc
    | [] => [(e.jsn, e.bytes)]) []).reverse

/-- A byte string in pieces of 8,176 bytes with their offsets. -/
def pieces : Nat → Nat → Bytes → List (Nat × Bytes)
  | 0, _, _ => []
  | k + 1, off, b => if b.isEmpty then [] else (off, b.take 8176) :: pieces k (off + 8176) (b.drop 8176)

/-- All pieces of a byte string. -/
def piecesOf (b : Bytes) : List (Nat × Bytes) := pieces (b.length / 8176 + 1) 0 b

/-- Send the frames of one part. -/
def State.sendParts (s : State) (pos part : Nat) (l : List (Nat × Bytes)) : State :=
  l.foldl (fun a x => a.sefSend 7 pos (xferBody part x.1 x.2)) s

/-- Answer an XREQ (R619, R636): journal entries from a JSN on, or the latest valid checkpoint with the outbox records from the acknowledged mark
to its next RSN; for part 3, every outbox record from an RSN on (R719), in the form of a reference entry of R717 (DESIGN CHOICE); then the end. -/
def State.answerXreq (s : State) (pos part from_ : Nat) : State :=
  let s1 :=
    if part = 3 then
      s.sendParts pos 3 (piecesOf ((s.obox.filter fun r => decide (from_ ≤ r.rsn)).flatMap fun r => le 8 r.rsn ++ batchRecord r.rtype r.bytes))
    else if part = 0 then s.sendParts pos 0 (packEntries (s.seq.journal.filter fun e => decide (from_ ≤ e.jsn)))
    else match s.seq.ckpts.getLast? with
      | some k =>
        let recs := (s.obox.filter fun r => decide (s.ctx.acked ≤ r.rsn) && decide (r.rsn < k.ctx.nextRsn)).flatMap fun r => batchRecord r.rtype r.bytes
        ((s.sendParts pos 1 [(0, k.desc)]).sendParts pos 2 (piecesOf k.body)).sendParts pos 3 (piecesOf recs)
      | none => s
  s1.sefSend 7 pos (xferBody 4 0 [])

/-! ### Votes (R622 to R627) -/

/-- The first output of the unit that its peers' digests decide against: its VSN, and whether the unit alone is odd (R625) or none agree
(R627). A present peer whose digests do not count is as the absent third. DESIGN CHOICE. -/
def State.dissent (s : State) : Option (Nat × Bool) :=
  s.numbered.findSome? fun x =>
    let ds := s.votesFor x.1
    if s.agreed x.1 x.2 then none
    else match ds with
      | [a, b] => if a = b then some (x.1, true) else some (x.1, false)
      | [_] => if s.voters.length = 1 then some (x.1, false) else none
      | _ => none

/-- Keep what is agreed now (R623); of a unit in SPLIT, what lies below its split (R627). -/
def State.latchVotes (s : State) : State :=
  let v := (s.numbered.filter fun x => (s.votes || s.belowSplit x.1) && s.agreed x.1 x.2).map (·.1)
  s.setSef fun y => { y with votes := y.votes ++ v.filter fun n => !y.votes.contains n }

/-- Compare the votes held: outputs are agreed, the unit turns out odd, or the triad splits (R623 to R627). -/
def State.judgeVotes (s : State) : State :=
  if s.triad && !s.votes then s.latchVotes
  else if s.triad then
    let s1 := s.latchVotes
    match s1.dissent with
    | none => s1
    | some (v, true) => (((s1.dropToken 2 5).count rSefVotemis 1).irq rSefIrq 7).event 0x67 (v % 2 ^ 32)
    | some (v, false) => ((s1.setSef fun x => { x with state := 6, splitAt := some v }).irq rSefIrq 8).event 0x68 (v % 2 ^ 32)
  else s

/-! ### Taking the token (R628 to R630) -/

/-- The new holder has caught up (R630): it may journal, replicates to each peer from the peer's HIGH + 1, announces its addresses, starts a new
diagnostic session, journals START when it has just started, resends from the acknowledged mark and submits the commands not yet journaled in SRC_JSN order; programmed times before now do
not fire (R444, R455, R456, R459, R497). -/
def State.takeDuties (s : State) : State :=
  let s1 : State := { s with seq := { s.seq with holder := true }, sef := { s.sef with catchUp := none },
                             tim := { s.tim with ctlFrom := s.dev } }
  let s2 := s1.peersPresent.foldl (fun a p => (packEntries (a.seq.journal.filter fun e => decide (p.high < e.jsn))).foldl (fun b x =>
    b.sefSend 3 p.pos (le 8 x.1 ++ le 2 (entriesOf x.2).length ++ le 2 0 ++ x.2)) a) s1
  let s3 := s2.announce.newSession.setNet fun n => { n with sentTo := s2.ctx.acked, sent := [] }
  let s4 := if s3.boot.startDue then s3.journalStart else s3.recoverHeld.releaseHeldPeriod
  (sortBy (fun (a b : Unsub) => decide (a.src < b.src)) s4.ctx.unsubmitted).foldl (fun a u => a.offer 0 u.input) s4

/-- A unit asserts its driver (R630). -/
def State.takeToken (s : State) : State :=
  let peers := s.peersPresent
  let s1 := s.setSef fun x => { x with driver := true, state := 4, lineLow := true, lineSince := s.t, kickAt := s.t,
                                       catchUp := if peers.isEmpty then none else some { asked := peers.map (·.pos), since := s.t } }
  let s2 := ((s1.count rSefTakecnt 1).irq rSefIrq 3).event 0x63 (s.high % 2 ^ 32)
  if peers.isEmpty then s2.takeDuties else peers.foldl (fun a p => a.xreq p.pos 0 (s.high + 1)) s2

/-- The members that may claim the token now, as this unit knows them: their HIGH and rank (R629, R635, R637). -/
def State.claimants (s : State) : List (Nat × Nat) :=
  (s.high, s.rank) :: (s.peersPresent.filter fun p => p.state == 3 || p.state == 1).map fun p => (p.high, p.rank)

/-- The unit's place among the claimants: HIGH, highest first, then rank (R629). -/
def State.claimOrder (s : State) : Nat :=
  (s.claimants.filter fun c => decide (s.high < c.1) || (decide (c.1 = s.high) && decide (c.2 < s.rank))).length

/-- Whether the unit may claim (R629, R635, R637). -/
def State.mayClaim (s : State) : Bool :=
  s.pow.phase == .service && !s.sef.driver &&
  (!s.triad ||
   (decide (s.rank < 3) &&
    (s.sef.state == 3 ||
     (s.sef.state == 1 && s.sef.pos.isSome && decide (s.sef.posAt + msU (s.fld rSefTiming 19 10) ≤ s.t) &&
      (!s.peersPresent.isEmpty || (s.bitOf rSefCtl 2 && decide (s.sef.aloneAt + 3 * msU (s.fld rSefTiming 19 10) ≤ s.t)))))))

end Sys2Proof.Machine
end

