-- ==== Sys2Proof/Machine/Seif.lean ====
section
/-! DEFINITION. The commands of heartbeats, replication, votes, management over the chain, the token and resynchronisation (R611 to R637). -/
namespace Sys2Proof.Machine

/-! ### Heartbeats (R611, R618) -/

/-- The body of the unit's HEARTBEAT (R611). -/
def State.heartbeat (s : State) : Bytes :=
  le 1 s.sef.state ++ le 1 (if s.rank = 3 then 0xFF else s.rank) ++ le 1 (if s.sef.driver then 1 else 0) ++ le 1 0 ++ le 4 s.cfg.sysaddr ++
  fit 8 s.cfg.hash ++ le 8 s.seq.nextJsn ++ le 8 s.high ++ le 8 s.ctx.nextVsn ++ le 4 s.net.session

/-- The IMAGE frames of a firmware image completed on this unit (R700, R703). -/
def imageFrames (img : Bytes) : List Bytes :=
  (List.range (ceilDiv img.length 4096)).map fun i =>
    le 1 0 ++ List.replicate 3 0 ++ fit 8 (Config.sha256 img) ++ le 4 img.length ++ le 4 (4096 * i) ++ (img.drop (4096 * i)).take 4096

/-- A firmware image completed from the card or, in OPEN, the maintenance port is broadcast once when UPD_MODE is 1 or 2 (R703). -/
def State.broadcastImage (s : State) : State :=
  match s.boot.bcast with
  | some k =>
    let s1 := s.setBoot fun b => { b with bcast := none }
    if s.boot.updMode = 1 ∨ s.boot.updMode = 2 then
      let i := s.nor.fwImage k
      (imageFrames (i.1 ++ i.2)).foldl (fun a b => a.q8Send 0x0C sefAll b) s1
    else s1
  | none => s

/-- HEARTBEAT_SEND (R611): every 1 ms an enumerated unit broadcasts HEARTBEAT. -/
def execHeartbeatSend (s : State) : Host.Outcome State Fault Refusal :=
  if s.sef.on && s.sef.pos.isSome then
    let s1 := s.until (s.sef.hbAt + msU 1)
    .next ((s1.setSef fun x => { x with hbAt := s1.t }).sefSend 2 sefAll s1.heartbeat).broadcastImage
  else .next s

/-- What a HEARTBEAT says of its sender. -/
def peerOf (f : Bytes) (link now : Nat) (old : Option Peer) : Peer :=
  let b := sefBody f
  { pos := sefSrc f, unitId := sub 8 8 f, state := Machine.fld 0 1 b, rank := Machine.fld 1 1 b, token := Machine.fld 2 1 b == 1,
    sysaddr := Machine.fld 4 4 b, cfg8 := sub 8 8 b, nextJsn := Machine.fld 16 8 b, high := Machine.fld 24 8 b, vsn := Machine.fld 32 8 b,
    session := Machine.fld 40 4 b, heardAt := now, link := link, present := true, jack := match old with | some p => p.jack | none => 0 }

/-- A taken HEARTBEAT (R605, R610, R618): a received heartbeat updates its sender's presence, HIGH, token and match; a member that newly mismatches is
recorded. -/
def State.heartbeatIn (s1 : State) (link : Nat) (f : Bytes) : State :=
    let old := s1.sef.peers.find? fun p => p.pos == sefSrc f
    let p := peerOf f link s1.t old
    let s2 := if Machine.fld 1 1 f % 32 = 0 then s1.setLink link fun l => { l with partner := some p.pos } else s1
    let s3 := s2.setSef fun x => { x with peers := (x.peers.filter fun q => q.pos ≠ p.pos) ++ [p], lineLow := x.lineLow || p.token }
    let member := (s3.rankAt p.pos).isSome && s3.sef.pos ≠ some p.pos
    let was := match old with | some q => s3.peerMatches q | none => true
    if member && was && !s3.peerMatches p && p.state ≠ 7 then s3.event 0x6C p.pos else s3

/-- PEER_TIMEOUT (R618): a peer's heartbeats stop for PEER_MS. -/
def execPeerTimeout (p : Fin 32) (s : State) : Host.Outcome State Fault Refusal :=
  match s.sef.peers.find? fun q => q.pos == p.val && q.present with
  | none => .next s
  | some q =>
    let s1 := s.until (q.heardAt + msU (s.fld rSefTiming 19 10))
    let s2 := s1.setSef fun x => { x with peers := x.peers.map fun y => if y.pos = p.val then { y with present := false } else y }
    let s3 := if s2.peersPresent.isEmpty && !s1.peersPresent.isEmpty then s2.setSef fun x => { x with aloneAt := s1.t } else s2
    .next s3.judgeVotes

/-! ### Replication (R619, R620) -/

/-- The peer that holds the token. -/
def State.holderPeer (s : State) : Option Peer := s.peersPresent.find? fun p => p.token

/-- A unit that takes the holder's entries as they come: STANDBY or SPLIT, without the driver (R619, R627). -/
def State.standsBy (s : State) : Bool := s.triad && !s.sef.driver && (s.sef.state == 3 || s.sef.state == 6)

/-- JREP (R34, R354, R619, R636): a standby takes the entries that continue its journal, and asks the holder from its HIGH + 1 on when there is a
gap; a resynchronising unit keeps them for later. -/
def execJrep (s : State) : Host.Outcome State Fault Refusal :=
  match s.takeFrame 3 with
  | none => .next s
  | some ((_, f), s1) =>
    let es := (entriesOf ((sefBody f).drop 12)).take (Machine.fld 8 2 (sefBody f))
    if s1.standsBy then
      let s2 := s1.adoptAll es
      match es.getLast?, s2.holderPeer with
      | some e, some p => .next (if s2.seq.nextJsn ≤ e.jsn then s2.xreq p.pos 0 (s2.high + 1) else s2)
      | _, _ => .next s2
    else match s1.sef.resync with
      | some r => .next (s1.setSef fun x => { x with resync := some { r with entries := r.entries ++ es } })
      | none => .next s1

/-- JACK (R63, R620): the holder takes a peer's HIGH for the standby branch of the durable watermark. -/
def execJack (s : State) : Host.Outcome State Fault Refusal :=
  match s.takeFrame 4 with
  | none => .next s
  | some ((_, f), s1) =>
    let h := Machine.fld 0 8 (sefBody f)
    let s2 := s1.setSef fun x => { x with peers := x.peers.map fun p => if p.pos = sefSrc f then { p with jack := h } else p }
    if s2.triad && s2.sef.driver && s2.peersPresent.any fun p => p.pos == sefSrc f then .next (s2.raiseDurable (min h s2.high)) else .next s2

/-- JACK_SEND (R620, R627): at least every 200 µs while HIGH advances a standby sends its HIGH to the holder. -/
def execJackSend (s : State) : Host.Outcome State Fault Refusal :=
  match s.holderPeer with
  | some p =>
    if s.standsBy && decide (s.sef.jackHigh < s.high) then
      let s1 := s.until (s.sef.jackAt + usU 200)
      .next ((s1.setSef fun x => { x with jackAt := s1.t, jackHigh := s1.high }).sefSend 4 p.pos (le 8 s1.high))
    else .next s
  | none => .next s

/-! ### Votes (R622 to R627) -/

/-- Digests the vote table holds for outputs that await agreement (R118). -/
def voteMax : Nat := 65536

/-- DIGEST (R118, R623 to R627): received vote digests are compared; the vote table holds those of the next 65,536 outputs. -/
def execDigest (s : State) : Host.Outcome State Fault Refusal :=
  match s.takeFrame 5 with
  | none => .next s
  | some ((_, f), s1) =>
    let b := sefBody f
    let new : List PeerVote := (List.range (Machine.fld 8 2 b)).map fun i => { pos := sefSrc f, vsn := Machine.fld 0 8 b + i, digest := sub (12 + 8 * i) 8 b }
    let keep := new.filter fun v => decide (s1.ctx.nextVsn ≤ v.vsn) && decide (v.vsn < s1.ctx.nextVsn + voteMax)
    let s2 := s1.setSef fun x =>
      { x with peerVotes := (x.peerVotes.filter fun v => !(keep.any fun w => w.pos == v.pos && w.vsn == v.vsn)) ++ keep }
    .next s2.judgeVotes

/-- The digests that wait to be sent: of outputs already released, then of those numbered (R621, R622). -/
def State.digestsDue (s : State) : List (Nat × Bytes) :=
  s.sef.unsent ++ (s.numbered.filter fun x => decide (s.sef.digestFrom ≤ x.1)).map fun x => (x.1, x.2.digest)

/-- DIGEST_SEND (R622): every DIGEST_US, or as soon as 1,022 wait, the unit sends its digests to every present peer. -/
def execDigestSend (s : State) : Host.Outcome State Fault Refusal :=
  if s.triad && s.votes then
    let s1 := if 1022 ≤ s.digestsDue.length then s else s.until (s.sef.digestAt + usU (s.fld rSefTiming 31 20))
    let ds := s1.digestsDue.take 1022
    match ds with
    | [] => .next (s1.setSef fun x => { x with digestAt := s1.t })
    | d :: _ =>
      let body := le 8 d.1 ++ le 2 ds.length ++ le 2 0 ++ ds.flatMap (·.2)
      let s2 := s1.sefSendTo 5 s1.peersPresent body
      .next (s2.setSef fun x => { x with digestAt := s1.t, unsent := x.unsent.drop ds.length,
                                         digestFrom := max x.digestFrom (d.1 + ds.length) }).judgeVotes
  else .next s

/-! ### Transfers (R619, R630, R636) -/

/-- XREQ (R619, R636, R719): a peer's request is answered with XFER frames; that of a replaying station only in STANDBY or ACTIVE. -/
def execXreq (s : State) : Host.Outcome State Fault Refusal :=
  match s.takeFrame 6 with
  | none => .next s
  | some ((_, f), s1) =>
    let replays := s1.sef.peers.any fun p => p.pos == sefSrc f && p.state == 7
    .next (if replays && !s1.votes then s1 else s1.answerXreq (sefSrc f) (Machine.fld 0 1 (sefBody f)) (Machine.fld 8 8 (sefBody f)))

/-- The bytes of a checkpoint's parts, in offset order. -/
def assemble (l : List (Nat × Bytes)) : Bytes := (sortBy (fun (a b : Nat × Bytes) => decide (a.1 < b.1)) l).flatMap (·.2)

/-- The bytes of a journal unit that hold entries below a cut, after its first 4 (R568). -/
def keptBytes (cut : Nat) (b : Bytes) : Bytes :=
  let o := Machine.fld 0 4 b
  if o = 0xFFFFFFFF then []
  else (b.drop 4).take (o - 4 + (((entriesIn 128 (4096 - o) (b.drop o)).filter fun e => decide (e.jsn < cut)).map fun e => e.bytes.length).foldl (· + ·) 0)

/-- The journal unit that a cut falls into, filled again from its bytes below the cut (R568, R636). -/
def refill (now cut : Nat) (b : Bytes) : StUnit :=
  let o := Machine.fld 0 4 b
  let d := keptBytes cut b
  { data := d, first := if o < 4 + d.length then some o else none, since := now, ends := cut - 1, last := cut - 1 }

/-- Discard the journal units and the staging above a cut (R636); below it everything stays, unless the unit's journal does not reach it. -/
def Med.cutJournal (m : Med) (now cut : Nat) (reaches : Bool) : Med :=
  let js := sortBy (fun (a b : MUnit) => decide (a.lua < b.lua)) m.nand.jUnits
  let keep (lua : Nat) : Nand := { m.nand with units := m.nand.units.filter fun u => u.region ≠ 1 || decide (u.lua < lua), jlua := lua }
  let st := m.wait ++ m.fill.toList
  if reaches = false then { m with nand := { m.nand with units := m.nand.units.filter fun u => u.region ≠ 1 }.sweepInvalid, wait := [], fill := none, journaled := cut - 1 }
  else match js.find? fun u => decide (cut ≤ u.last) with
    | some u => { m with nand := (keep u.lua).sweepInvalid, wait := [], fill := some (refill now cut u.data), journaled := cut - 1 }
    | none =>
      match st.find? fun u => decide (cut ≤ u.last) with
      | some u => { m with wait := m.wait.filter fun x => decide (x.last < cut), fill := some (refill now cut u.bytes), journaled := cut - 1 }
      | none => m

/-- The unit's own journal is discarded above a cut (R636); entries of Q12 go to staging first. A journal that ends below the cut goes whole: an unbroken
run begins at the cut (R67, R620). DEDUCED. -/
def State.cutJournal (s : State) (cut : Nat) : State :=
  let reaches := decide (cut ≤ s.seq.nextJsn)
  let s1 := if s.med.run then (State.drainQ12 ((s.ring 12).w - (s.ring 12).r + (s.ring 12).waiting.length + 1) s).setMed fun m => m.cutJournal s.t cut reaches else s
  let old (l : List Ckpt) : List Ckpt := if reaches then l.filter fun k => decide (k.cutJsn < cut) else []
  { (s1.setNand fun n => { n with ckpts := old n.ckpts, epochCkpts := old n.epochCkpts }) with
    seq := { s1.seq with journal := if reaches then s1.seq.journal.filter fun e => decide (e.jsn < cut) else [], nextJsn := cut,
                         durable := min s1.seq.durable (cut - 1), ckpts := old s1.seq.ckpts, ckptBusy := [] } }

/-- A transferred checkpoint is installed (R636, R74): its context, the outbox records below its next RSN, and the journal up to its CUT_JSN; it is the
unit's own latest from then on. -/
def State.installCkpt (s0 : State) (k : Ckpt) (recs : List (Nat × Bytes)) : State :=
  let first := k.ctx.nextRsn - recs.length
  let box : List OboxRec := recs.zipIdx.map fun p => { rsn := first + p.2, rtype := p.1.1, bytes := p.1.2 }
  let s := s0.cutJournal k.cutJsn
  let s1 : State :=
    { (s.setNand fun n => { n with ckpts := (n.ckpts ++ [k]).drop (n.ckpts.length - 1) }) with
      ctx := k.ctx.unfault, obox := box, rad := { s.rad with polls := k.polls },
      seq := { s.seq with ckpts := (s.seq.ckpts ++ [k]).drop (s.seq.ckpts.length - 1), ckptNo := k.no, lastCkpt := some (k.cutJsn, k.cutStamp) },
      erg := { s.erg with keys := [], toDispatch := [], dispatched := k.cutJsn - 1, outq := [], spilled := [] } }
  s1.idxRebuild

/-- The tasks a checkpoint left waiting are queued again (R69, R74). -/
def State.requeue (s : State) (l : List Task) : State := l.foldl (fun a t => a.enqueue t) s

/-- A part of a transfer for a resynchronising unit (R636): journal entries, the checkpoint's parts, the end. -/
def State.resyncPart (s : State) (r : Resync) (part off : Nat) (data : Bytes) : State :=
  match part with
  | 0 =>
    let es := entriesOf data
    if r.phase = 0 then
      match s.seq.journal.getLast?, es with
      | some o, e :: rest =>
        if e.bytes = o.bytes then
          let s1 := s.adoptAll rest
          s1.setSef fun x => { x with resync := some { r with phase := 3, fetched := r.fetched + rest.length } }
        else ((s.setSef fun x => { x with resync := some { r with phase := 1 } }).event 0x69 1).xreq r.peer 1 0
      | none, e :: _ =>
        if e.jsn = s.seq.nextJsn then (s.adoptAll es).setSef fun x => { x with resync := some { r with phase := 3, fetched := r.fetched + es.length } }
        else ((s.setSef fun x => { x with resync := some { r with phase := 1 } }).event 0x69 1).xreq r.peer 1 0
      | _, [] => s
    else if r.phase = 2 ∨ r.phase = 3 then
      let s1 := s.adoptAll es
      s1.setSef fun x => { x with resync := some { r with fetched := r.fetched + (s1.seq.nextJsn - s.seq.nextJsn) } }
    else s
  | 1 => s.setSef fun x => { x with resync := some { r with desc := data } }
  | 2 => s.setSef fun x => { x with resync := some { r with body := r.body ++ [(off, data)] } }
  | 3 => s.setSef fun x => { x with resync := some { r with records := r.records ++ [(off, data)] } }
  | _ => s

/-- In sync with the holder again: STANDBY, voting from the holder's VSN on (R636). A unit that started without the token journals no START, and an
alarm found on VBAT is recorded in its own event log (R34, R542, R543). -/
def State.resyncDone (s : State) (r : Resync) : State :=
  let v := match s.holderPeer with | some p => p.vsn | none => s.ctx.nextVsn
  let s1 := ((s.setSef fun x => { x with state := 3, resync := none, agreedBelow := v, digestFrom := v, unsent := [], peerVotes := [], jackHigh := 0 }).irq rSefIrq 9).event
    0x6A (min (2 ^ 32 - 1) r.fetched)
  let s2 := s1.setBoot fun b => { b with startDue := false, trialJsn := if b.startDue then s1.seq.nextJsn else b.trialJsn }
  s2.pow.alarms.foldl (fun a x => a.event 0x4C (Machine.fld 1 1 x.2)) { s2 with pow := { s2.pow with alarms := [] } }

/-- The end of a transfer for a resynchronising unit (R636): a prefix that does not match asks for the checkpoint; a checkpoint is installed when it
carries the unit's own CONFIG_HASH, and refused otherwise; a journal part takes the live entries kept meanwhile, and is asked for again while the unit
is not in sync. -/
def State.resyncEnd (s : State) (r : Resync) : State :=
  if r.phase = 0 then ((s.setSef fun x => { x with resync := some { r with phase := 1 } }).event 0x69 1).xreq r.peer 1 0
  else if r.phase = 1 then
    let body := assemble r.body
    if r.desc = [] then s
    else if sub 40 32 r.desc ≠ fit 32 s.cfg.hash then (s.setSef fun x => { x with resync := none }).event 0x6C r.peer
    else if fit 32 (Config.sha256 body) ≠ sub 80 32 r.desc then (s.setSef fun x => { x with resync := some { r with desc := [], body := [], records := [] } }).xreq r.peer 1 0
    else match ckptOf r.desc body with
      | some k =>
        let recs := assemble r.records
        let s1 := (s.installCkpt k (batchRecords recs.length recs)).requeue k.waiting
        (s1.setSef fun x => { x with resync := some { r with phase := 2, desc := [], body := [], records := [] } }).xreq r.peer 0 k.cutJsn
      | none => s
  else
    let s1 := s.adoptAll r.entries
    let r1 : Resync := { r with fetched := r.fetched + (s1.seq.nextJsn - s.seq.nextJsn), entries := [] }
    if s1.inSyncAt s1.high then s1.resyncDone r1
    else (s1.setSef fun x => { x with resync := some { r1 with phase := 3 } }).xreq r.peer 0 (s1.high + 1)

/-- A silent or answering peer leaves the catch-up; with the last one the new holder takes up its duties (R630). -/
def State.catchUpFrom (s : State) (c : CatchUp) (pos : Nat) : State :=
  let left := c.asked.filter (· ≠ pos)
  if left.isEmpty then s.takeDuties else s.setSef fun x => { x with catchUp := some { c with asked := left } }

/-- A taken XFER (R619, R630, R636): transferred entries, checkpoint parts or outbox records are appended or stored. -/
def State.xferIn (s1 : State) (f : Bytes) : State :=
    let b := sefBody f
    let part := Machine.fld 0 1 b
    match s1.sef.catchUp, s1.sef.resync with
    | some c, _ =>
      if c.asked.contains (sefSrc f) then
        (if part = 0 then s1.adoptAll (entriesOf (b.drop 16)) else if part = 4 then s1.catchUpFrom c (sefSrc f) else s1)
      else s1
    | none, some r =>
      if r.peer = sefSrc f then (if part = 4 then s1.resyncEnd r else s1.resyncPart r part (Machine.fld 8 8 b) (b.drop 16)) else s1
    | none, none => (if part = 0 ∧ s1.standsBy = true then s1.adoptAll (entriesOf (b.drop 16)) else s1)

/-! ### Management and commands over the chain (R612 to R614) -/

/-- Answer a management access (R611, R614). -/
def State.mgmtAnswer (s : State) (pos tag : Nat) (r : Reply) : State :=
  let (st, v) := match r with | .data w => (0, w.toNat) | .done => (0, 0) | _ => (1, 0)
  s.sefSend 0x0A pos (le 4 tag ++ le 1 st ++ List.replicate 3 0 ++ le 4 v)

/-- MGMT_RD (R553, R614): a management read under the rights of the Seif management frames. -/
def execMgmtRd (s : State) : Host.Outcome State Fault Refusal :=
  match s.takeFrame 8 with
  | none => .next s
  | some ((_, f), s1) =>
    let r := s1.chainRead .seif (Machine.fld 0 4 (sefBody f))
    .next (r.2.mgmtAnswer (sefSrc f) (Machine.fld 4 4 (sefBody f)) r.1)

/-- MGMT_WR (R553, R614): a management write under the rights of the Seif management frames. -/
def execMgmtWr (s : State) : Host.Outcome State Fault Refusal :=
  match s.takeFrame 9 with
  | none => .next s
  | some ((_, f), s1) =>
    let r := s1.chainWrite .seif (Machine.fld 0 4 (sefBody f)) (BitVec.ofNat 32 (Machine.fld 4 4 (sefBody f)))
    .next (r.2.mgmtAnswer (sefSrc f) (Machine.fld 8 4 (sefBody f)) r.1)

/-- MGMT_RSP (R614): a response reaches the tool on the maintenance port. -/
def execMgmtRsp (s : State) : Host.Outcome State Fault Refusal :=
  match s.takeFrame 0x0A with
  | none => .next s
  | some ((_, f), s1) =>
    let b := sefBody f
    .next (s1.answer .maint (if Machine.fld 4 1 b = 1 then .busError else .data (BitVec.ofNat 32 (Machine.fld 8 4 b))))

/-- SEIF_CMD (R612, R613): a CMD frame is opened on Q7 by the holder, forwarded to it by another unit of its triad, or relayed along the chain when its
SYSADDR is another's. -/
def execSeifCmd (s : State) : Host.Outcome State Fault Refusal :=
  match s.takeFrame 0x0B with
  | none => .next s
  | some ((_, f), s1) =>
    let b := sefBody f
    if Machine.fld 8 4 b % 2 ^ 18 ≠ s1.cfg.sysaddr then
      match s1.relayTo (Machine.fld 8 4 b % 2 ^ 18) with
      | some p => .next (s1.q8Send 0x0B p.pos b)
      | none => .next s1
    else if s1.sef.driver then .next (if s1.seq.holder then s1.offer 7 { kind := .seifFrame, stamp := s1.dev, payload := b } else s1)
    else match s1.holderPeer with
      | some p => .next (s1.q8Send 0x0B p.pos b)
      | none => .next s1

/-- IMAGE (R700 to R702): a journaled IMAGE block commits. -/
def execImage (s : State) : Host.Outcome State Fault Refusal :=
  .next (s.turnFirst [.sys 8] fun t => t.entry.kind == .seifFrame && !isSeifCmd t.entry.payload)

/-! ### The token (R628 to R635) -/

/-- TOKEN_CLAIM (R629, R630, R637): `dt` later the unit samples TOKEN_N, which has been high for `highFor`; after 2 ms and its order's slot it asserts its
driver if the line is still high. -/
def execTokenClaim (dt : Nat) (high : Bool) (highFor : Nat) (s : State) : Host.Outcome State Fault Refusal :=
  let s1 := s.advance dt
  if s1.mayClaim then
    let o := if s1.triad then s1.claimOrder else 0
    if high = false then .next (s1.setSef fun x => { x with lineLow := true, lineSince := s1.t })
    else if msU (2 + o) ≤ highFor then .next s1.takeToken else .next s1
  else .next s1

/-- CATCHUP_TIMEOUT (R630): peers that do not answer within CATCHUP_MS are recorded, and the holder proceeds. -/
def execCatchupTimeout (s : State) : Host.Outcome State Fault Refusal :=
  match s.sef.catchUp with
  | none => .next s
  | some c =>
    let s1 := s.until (c.since + msU (s.fld rSefTiming 9 0))
    .next (c.asked.foldl (fun a p => a.event 0x6B p) s1).takeDuties

/-- SEF_KICK (R553, R631): device code restarts the token watchdog. -/
def execSefKick (w : Who) (s : State) : Host.Outcome State Fault Refusal :=
  if w = .dev then .next ((s.setSef fun x => { x with kickAt := s.t }).answer w .done) else .next (s.busErr w)

/-- TOKEN_WATCHDOG (R631): 25 ms pass without a kick and the driver is released; given again, the main domain resets 10 ms after that. -/
def execTokenWatchdog (s : State) : Host.Outcome State Fault Refusal :=
  match s.sef.resetAt with
  | some r => .next ((s.until r).mainReset .rom 3)
  | none =>
    if s.sef.driver then
      let s1 := (s.until (s.sef.kickAt + msU 25)).dropToken 0 2
      .next (s1.setSef fun x => { x with resetAt := some (s1.t + msU 10) })
    else .next s

/-- SEF_RELEASE (R553, R633): a holder gives the token up. -/
def execSefRelease (w : Who) (s : State) : Host.Outcome State Fault Refusal :=
  if w = .dev then .next ((if s.sef.driver then s.dropToken 1 2 else s).answer w .done) else .next (s.busErr w)

/-- TOKEN_FAULT (R632): `dt` later TOKEN_N has been low for 50 ms, and no present member's heartbeat shows the token. -/
def execTokenFault (dt : Nat) (s : State) : Host.Outcome State Fault Refusal :=
  let s1 := s.advance dt
  if s1.triad && s1.sef.on && !s1.sef.driver && !(s1.sef.peers.any fun p => p.present && p.token && (s1.rankAt p.pos).isSome) then
    .next (((s1.setSef fun x => { x with lineLow := true }).irq rSefIrq 5).event 0x65 0)
  else .next s1

/-- ROLE_CONFLICT (R634): SEF_ROLE.ACTIVE differs from the driver state; it is recorded and corrected. -/
def execRoleConflict (s : State) : Host.Outcome State Fault Refusal :=
  if s.sef.role ≠ s.sef.driver then
    .next (((s.setSef fun x => { x with role := x.driver }).irq rSefIrq 6).event 0x66 (if s.sef.driver then 1 else 0))
  else .next s

/-! ### Resynchronisation (R636) -/

/-- The peer a resynchronising unit asks: the holder, or a standby in sync (R636). -/
def State.resyncPeer (s : State) : Option Peer :=
  match s.holderPeer with
  | some p => some p
  | none => s.peersPresent.find? fun p => p.state == 3

/-- RESYNC (R636): at start with a holder present, after FAULT, or after the token was released, the unit asks for the journal from its own last
entry on. -/
def execResync (s : State) : Host.Outcome State Fault Refusal :=
  let start := s.sef.state == 1 && s.sef.pos.isSome && s.holderPeer.isSome && decide (s.sef.posAt + msU (s.fld rSefTiming 19 10) ≤ s.t)
  if s.triad && s.pow.phase == .service && !s.sef.driver && s.sef.resync.isNone && (start || s.sef.state == 5 || s.sef.state == 2) then
    match s.resyncPeer with
    | some p =>
      .next (((s.setSef fun x => { x with state := 2, resync := some { peer := p.pos, phase := 0 } }).event 0x69 0).xreq p.pos 0
        (match s.seq.journal.getLast? with | some e => e.jsn | none => 0))
    | none => .next s
  else .next s

end Sys2Proof.Machine
end

