-- ==== Sys2Proof/Machine/RestoreOps.lean ====
section
/-! DEFINITION. Restoring context at start: journal recovery (R67), the checkpoint and the journal from its cut (R74, R356, R707), and a context taken
over under CARRY (R708). -/
namespace Sys2Proof.Machine

/-- The entries the journal units hold, in LUA order (R568). -/
def Nand.journalRaw (n : Nand) : List Entry :=
  (sortBy (fun (a b : MUnit) => decide (a.lua < b.lua)) n.jUnits).flatMap fun u => n.entriesAt u

/-- The entries up to the first break of the JSN run (R67). -/
def runOf : List Entry → List Entry
  | a :: b :: r => if b.jsn = a.jsn + 1 then a :: runOf (b :: r) else [a]
  | l => l

/-- The media's journal up to its last valid entry (R67). -/
def State.mediaJournal (s : State) : List Entry := if s.med.run then runOf s.med.nand.journalRaw else []

/-- The last valid JSN of a journal; 0 for none. -/
def lastJsnOf (j : List Entry) : Nat := match j.getLast? with | some e => e.jsn | none => 0

/-- The highest checkpoint number a journal names. -/
def lastCkptNo (j : List Entry) : Nat := (j.filter fun e => e.kind == .ckpt).foldl (fun m e => max m (fld 0 4 e.payload)) 0

/-- The entry from which the next checkpoint is counted in a journal: its latest CKPT entry, else its first START (R68). -/
def ckptCountFrom (j : List Entry) : Option (Nat × Nat) :=
  match (j.filter fun e => e.kind == .ckpt).getLast?, j.find? fun e => e.kind == .start with
  | some e, _ => some (e.jsn, e.stamp)
  | none, some e => some (e.jsn, e.stamp)
  | none, none => none

/-- An entry of the journal comes back through Q13 to the sequencer (R77, R570). -/
def State.takeBack (s : State) (e : Entry) : State :=
  match (s.ringPacket 13 1 (toWs e.bytes)).ringTake 13 with
  | (.packet _ _ ws, s1) => { s1 with seq := { s1.seq with journal := s1.seq.journal ++ (Entry.ofBytes (ofWs ws)).toList } }
  | _ => { s with seq := { s.seq with journal := s.seq.journal ++ [e] } }

/-- Journal recovery (R67): what lies past the first break is truncated, and the next JSN follows the last valid one. -/
def State.recoverJournal (s : State) : State :=
  let j := s.mediaJournal
  let last := lastJsnOf j
  let s1 := s.setMed fun m => if m.run then { m with journaled := last, nand := { m.nand with units := m.nand.units.filter fun u => u.region ≠ 1 || decide (u.ends ≤ last) } } else m
  let s2 := j.foldl State.takeBack { s1 with seq := { s1.seq with journal := [] } }
  { s2 with seq := { s2.seq with nextJsn := last + 1, durable := last, lastDur := s2.t, ckptNo := lastCkptNo j, lastCkpt := ckptCountFrom j,
                                 ckpts := s2.med.nand.ckpts },
            erg := { s2.erg with dispatched := last } }

/-- The checkpoint with the highest cut of a list. -/
def latestCkpt (l : List Ckpt) : Option Ckpt :=
  l.foldl (fun m k => match m with | none => some k | some x => if x.cutJsn < k.cutJsn then some k else some x) none

/-- The valid checkpoints that the media hold, those kept per epoch among them (R72, R73, R716), with their CKPT entry in the journal. -/
def State.keptCkpts (s : State) : List Ckpt :=
  if s.med.run then (s.med.nand.epochCkpts ++ s.med.nand.ckpts).filter fun k => decide (k.cutJsn ≤ lastJsnOf s.mediaJournal) else []

/-- The latest valid checkpoint that matches the running image (R74). -/
def State.matchingCkpt (s : State) : Option Ckpt := latestCkpt (s.keptCkpts.filter fun k => k.cfgHash == s.cfg.hash)

/-- The phase of R708 that an image with this CARRY and role starts in when no checkpoint matches it: 1, 2, or 0 for an empty context. -/
def State.carryPhase (s : State) (carry : Bytes) (role : Role) : Nat :=
  match latestCkpt s.keptCkpts with
  | some k =>
    if k.cfgHash ≠ carry then 0
    else if lastJsnOf s.mediaJournal ≤ k.cutJsn then 2
    else if k.role = role ∧ (s.med.nand.images.any fun x => x.1 == k.cfgHash) = true then 1
    else 0
  | none => 0

/-- Miss counters of the poll table from the slots (R356). -/
def State.loadMisses (s : State) : State :=
  { s with rad := { s.rad with polls := s.rad.polls.map fun p => (p.1, { p.2 with miss := (s.slot p.1).unPolls, ftMiss := (s.slot p.1).unTrains }) } }

/-- A checkpoint's context takes the place of the unit's own (R74, R356, R448): its outbox entries below its next RSN come from the outbox. -/
def State.loadCkpt (s : State) (k : Ckpt) : State :=
  let s1 : State :=
    { s with ctx := k.ctx.unfault, obox := s.obox.filter fun r => decide (r.rsn < k.ctx.nextRsn),
             rad := { s.rad with polls := k.polls },
             seq := { s.seq with journal := s.seq.journal.filter fun e => decide (e.jsn < k.cutJsn), nextJsn := k.cutJsn,
                                 ckptNo := max s.seq.ckptNo k.no, lastCkpt := some (k.cutJsn, k.cutStamp) },
             erg := { s.erg with keys := [], toDispatch := [], dispatched := k.cutJsn - 1, outq := [], spilled := [] },
             boot := { s.boot with cutJsn := k.cutJsn } }
  s1.idxRebuild

/-- Process entries as restore processing does, each under the image that the latest START below it names, with the dunes of rung 10 but without ERG_CTL.EN (R675, R707): an entry is taken once everything below
it that can commit has, so the MAC's writes come between the commits as they did (R160, R354). -/
def State.processAll (s : State) (es : List Entry) : State :=
  let s1 := es.foldl (fun a e => ((a.adopt e false).settle).underStart e) ((s.setBit rErgCtl 0 true).setBoot fun b => { b with restoring := true }).settle
  let s2 := if s1.cfg.hash = s.cfg.hash then s1 else s1.settingsOf s
  (s2.setBit rErgCtl 0 false).setBoot fun b => { b with restoring := false }

/-- Restore a checkpoint and process the journal from its cut (R74, R707). -/
def State.restoreFrom (s : State) (k : Ckpt) : State :=
  let es := s.seq.journal.filter fun e => decide (k.cutJsn ≤ e.jsn)
  (((s.loadCkpt k).requeue k.waiting).processAll es).loadMisses

/-- The context of a start (R707, R708): from the checkpoint that matches, else taken over under CARRY, else empty with a checkpoint-mismatch event. -/
def State.chooseContext (s : State) : State :=
  let s1 := s.recoverJournal
  match s1.matchingCkpt with
  | some k => s1.restoreFrom k
  | none =>
    match s1.carryPhase (sub 24 32 s1.boot.img) s1.cfg.role, latestCkpt s1.keptCkpts with
    | 2, some k => (s1.restoreFrom k).event 0x79 (Machine.fld 0 4 k.cfgHash)
    | _, _ => ({ s1 with obox := [] } : State).event 0x44 0

/-- Context is restored at a start; ARB_FREE is loaded then (R183, R707). -/
def State.restoreContext (s : State) : State := let s1 := s.chooseContext; { s1 with arb := { s1.arb with restored := true } }

end Sys2Proof.Machine
end

