-- ==== Sys2Proof/Machine/BootOps.lean ====
section
/-! DEFINITION. What the boot ROM does at a start (R675 to R709): the choice of a firmware slot, the application of the sections, the rungs of the start
ladder (R649), the mount of the media, and the beginning of service. -/
namespace Sys2Proof.Machine

/-! ### Choosing a firmware slot (R697) -/

/-- choose_slot (R697): the slot, none when neither passes; whether the trial was given up; the NOR with its pointer table written. -/
def State.chooseSlot (s : State) : Option Nat × Bool × State :=
  let p := s.nor.pref
  let pick (a : State) (first : Nat) : Option Nat :=
    if a.judgeSlotFw first = 0 then some first else if a.judgeSlotFw (1 - first) = 0 then some (1 - first) else none
  match s.nor.inForce with
  | some t =>
    if t.trial ∧ t.tries = 0 then
      let s1 := s.setNor fun n => n.writePt (1 - p) false 0
      (pick s1 (1 - p), true, s1)
    else if t.trial then
      let s1 := s.setNor fun n => n.writePt p true (t.tries - 1)
      (pick s1 p, false, s1)
    else (pick s p, false, s)
  | none => (pick s p, false, s)

/-- Code RAM holding the bytes of an image from address 0 on (R7, R695). -/
def codeOf (b : Bytes) : List (Nat × Byte) := (b.zipIdx.filter fun x => decide (x.1 ≠ 0)).map fun x => (x.2, x.1)

/-- The body of the chosen slot is loaded at code RAM offset 0 (R675, R695). -/
def State.loadFw (s : State) (k : Nat) (gaveUp : Bool) (pref : Nat) : State :=
  let i := s.nor.fwImage k
  let t := s.nor.inForce
  let s1 : State := { s with code := codeOf i.2 }
  s1.setBoot fun b => { b with slot := k, svn := Machine.fld 12 4 i.1, trial := (match t with | some x => x.trial && x.pref == k | none => false),
                               fallback := if k = pref then none else some (k + flag 8 gaveUp) }

/-- The start delay (R649): UNIT_ID byte 7 [4:0] in ms. -/
def State.startDelay (s : State) : Nat := Machine.fld 7 1 s.unitId % 32

/-- Whether a section is in force. -/
def State.hasSec (s : State) (ty : Nat) : Bool := s.boot.secs.contains ty

/-! ### The media (R559, R561, R563, R585, R596, R682) -/

/-- First format of a media set (R563, R572): its bad blocks, its spares, and the two superblocks of the Khamsin reserve. -/
def Nand.format (n : Nand) (g : NandGeom) (sparePm : Nat) (slc : Bool) : Nand :=
  let good (l : Nat) : Nat := g.bpl - (g.bad.filter fun b => b / g.bpl == l).length
  let sp := (List.range g.luns).map fun l => good l * sparePm / 1000
  let n1 : Nand := { n with spares := sp, spares0 := sp, blks := (sortBy (fun (a b : Nat) => decide (a < b)) g.bad).map fun b => (b, { bad := true }) }
  (n1.openSb 1 slc .reserve).openSb 1 slc .reserve

/-- The event log is cleared when EVR_CLR exceeds EVR_CLRSER (R596). -/
def State.clearLog (s : State) (ser : Nat) : State :=
  if s.evr.clrSer < ser then
    let old := s.evr
    let s1 : State := { s with evr := { old with log := [], fold := none, clrSer := ser } }
    let b := eventBody 0x57 old.log.length s1.cfg.sysaddr 0 (subjWord none 0) s1.dev 0 s1.seq.unsure s1.seq.regressed (!s1.sealed)
      (le 4 old.first ++ le 4 old.next ++ le 4 ser)
    s1.logRecord (b ++ s1.tag b)
  else s

/-- Sabkha mounts (R558, R559, R561, R563, R572, R585, R744): of an accepted set the fastest mode is taken; it is formatted at its first use with its chip
enables, and otherwise the Khamsin reserve is renewed; a refused one leaves Sabkha disabled. -/
def State.mount (s : State) : State :=
  let refuse : State := (s.setMed fun m => { m with refused := true }).cfgWarn 12
  match s.med.nand.board with
  | some b =>
    let g := geomOn b s.med.ceEn
    if nandAccepted g s.med.slcPrefix s.med.sparePm then
      let s1 := s.setMed fun m =>
        let n := if m.nand.geom = some g then m.nand.renewReserve (m.slcPrefix ≠ 0)
          else Nand.format { board := some b, geom := some g } g m.sparePm (m.slcPrefix ≠ 0)
        { m with nand := n, run := true, idleSince := s.t, patrolT := s.t, mode := nandMode g m.iface m.rate, readOnly := n.exhausted }
      if s1.med.readOnly then (s1.irq rMedIrq 5).event 0x55 0 else s1
    else refuse
  | none => refuse

/-- Start under another image's copy (R708): phase 1 takes over the settings of the image it replaces. -/
def State.carryOver (s : State) : State :=
  let carry := sub 24 32 s.boot.img
  if s.matchingCkpt.isNone && s.carryPhase carry s.cfg.role == 1 then
    match s.med.nand.images.find? fun x => x.1 == carry with
    | some x =>
      let s1 := (s.applyImage x.2 false).setBoot fun b => { b with carry := true }
      { s1 with sysKey := match cfgSection x.2 14 with | some b => s1.unwrapSyskey b | none => none }
    | none => s
  else s

/-! ### The rungs (R649) -/

/-- Start a PLL: it locks (R647). -/
def State.lockPll (s : State) (n : Nat) : State := { s with pow := { s.pow with plls := s.pow.plls.set n true, locks := s.pow.locks.set n true } }

/-- A PLL stops with its last user (R647). -/
def State.stopPll (s : State) (n : Nat) : State := { s with pow := { s.pow with plls := s.pow.plls.set n false, locks := s.pow.locks.set n false } }

/-- Rung 5 (R522, R528, R538, R541): lanes, keys and engines; the DRBG is instantiated and SYSKEY unwrapped, or the unit is keyless
and enables no subsystem beyond media, device port and maintenance port. -/
def State.rungKeys (s : State) : State :=
  let s1 := (s.setBit rCphCtl 0 true).setBit rKeyCtl 0 true
  let s2 : State := { s1 with freeCtr := s1.freeCtr + 3,
                              sec := { s1.sec with mask := Config.trng s1.freeCtr, scramble := Config.trng (s1.freeCtr + 1), lastMask := s1.t,
                                                   drbg := Config.trng (s1.freeCtr + 2), calls := 0 } }
  let k := match cfgSection s2.boot.img 14 with | some b => s2.unwrapSyskey b | none => none
  match k with
  | some v => { s2 with sysKey := some v }
  | none => { (s2.irq rKeyIrq 1).setBit rArbCtl 0 false with rings := s2.rings.zipIdx.map fun x => if serviceRing x.2 then x.1 else { x.1 with en := false } }

/-- Rung 6 (R561, R596, R681, R682, R708): the media mount, the event log may be cleared, the second CSVN check is made and a context may have to be
taken over. -/
def State.rungMedia (s : State) : State :=
  let s1 := s.setBit rEvrCtl 0 true
  if s1.hasSec 12 then
    let s2 := (s1.setBit rMedCtl 0 true).mount
    let s3 := if s2.med.run = false then { s2 with evr := { s2.evr with capBytes := 0 } } else s2.clearLog (match cfgSection s2.boot.img 12 with | some b => Machine.fld 44 4 b | none => 0)
    if s3.med.run ∧ s3.boot.csvn < s3.med.nand.csvn then s3.enterRecovery 3
    else if s3.med.run then s3.carryOver else s3
  else s1

/-- Rung 7: PLL_B and the device port with its static addresses (R443, R467). -/
def State.rungNet (s : State) : State :=
  let s1 := if s.hasSec 10 || s.hasSec 13 then s.lockPll 1 else s
  if s1.hasSec 10 then
    let ip6 := s1.cfg.net.ip6
    let static := s1.bitOf rNetCtl 3 && ip6.any fun x => x ≠ 0
    (s1.setBit rNetCtl 0 true).setNet fun n => if static then { n with addr6 := ip6, dad := .inUse } else n
  else s1

/-- Rung 10: the first MIN_AWAKE dunes wake (R649). -/
def State.rungDunes (s : State) : State :=
  (List.range (min 8 (atLeast1 (s.fld rErgPwr 3 0)))).foldl (fun a d => a.setDune d { a.dune d with pwr := .awake, since := a.t, idleSince := a.t }) s

/-- The front end is enabled (R292, R300, R303): its samples have to settle, and no phase is present yet. -/
def State.feEnable (s : State) : State :=
  { s with fe := { run := true, t0 := s.t, settleM := settleM (s.fld rMtrSel 7 0), unsettled := true, act := s.feSel, blkUnsettled := true } }

/-- What a rung brings up. The rungs whose subsystems are disabled step nothing; a keyless unit brings up the media and the device port only (R522). -/
def State.rung (s : State) (k : Nat) : State :=
  let keyed := s.sysKey.isSome
  match k with
  | 1 => s.lockPll 0
  | 2 => s.setBit rArbCtl 0 true
  | 5 => s.rungKeys
  | 6 => s.rungMedia
  | 7 => s.rungNet
  | 9 => if keyed && s.hasSec 13 then (s.setBit rSefCtl 0 true).setSef fun x => { x with on := true, state := 1 } else s
  | 10 => if keyed then s.rungDunes else s
  | 11 => if keyed then (s.setBit rTimCtl 0 true).freeRate else s
  | 12 =>
    if keyed && s.hasSec 7 then
      ((s.setBit rMtrCtl 0 true).lockPll 3).feEnable
    else s
  | 13 => if keyed && s.hasSec 6 then (s.setBit rPlcCtl 0 true).setPlc fun p => { p with beaconAt := s.t } else s
  | 14 =>
    if keyed && s.hasSec 5 then
      let s1 := (s.setBit rRadCtl 0 true).lockPll 2
      s1.setRad fun r => { r with budget := s1.dutyCap, budgetAt := s1.t }
    else s
  | _ => s

/-! ### Service (R472, R488, R588, R675, R682, R698, R709) -/

/-- The front end's block in progress starts anew in the device time that is seeded (R304, R472). DESIGN CHOICE: what it took before has no device time and
is not reported. -/
def FrontEnd.reseed (f : FrontEnd) : FrontEnd :=
  { f with fresh := true, cyclesIn := 0, blk := {}, blkUnsettled := f.unsettled, past := [], phases := f.phases.map fun p => { p with cand := none, rise := none } }

/-- Seed device time (R472): from the Oasis clock at its next second edge, or, with TIME_LOST set, from the last valid entry's stamp. -/
def State.seedTime (s : State) : State :=
  if s.bitOf rOasStat 0 then
    ({ s with dev := (match s.seq.journal.getLast? with | some e => e.stamp | none => 0), devSub := 0, fe := s.fe.reseed } : State).oasisCommit
  else
    let s1 := s.advance ((second - s.oas.raw % second) % second)
    { s1 with dev := s1.oas.raw / second * second, devSub := 0, fe := s1.fe.reseed }

/-- OAS_UTC at a start (R488): the offset in force at device time. -/
def State.startUtc (s : State) : State :=
  let off := (s.cfg.leaps.filter fun l => decide (l.at_ * second ≤ s.dev)).foldl (fun _ l => (l.offset : Int)) s.cfg.utcBase
  if s.locked then s else s.setReg rOasUtc (off.toNat % 256)

/-- Both copies of the highest CSVN are raised to the running image's (R682). -/
def State.raiseCsvn (s : State) : State :=
  let c := s.boot.csvn
  let s1 := if s.locked then s else s.setReg rOasCsvn (max (s.reg rOasCsvn) c)
  if s1.med.run then s1.setNand fun n => { n with csvn := max n.csvn c } else s1.cfgWarn 12

/-- The media keep a copy of each image that a kept checkpoint names, and of the running one (R708). -/
def State.keepImages (s : State) : State :=
  s.setMed fun m =>
    if m.run then
      let named := m.nand.images.filter fun x => (m.nand.ckpts ++ m.nand.epochCkpts).any fun k => k.cfgHash == x.1
      { m with nand := { m.nand with images := if named.any fun x => x.1 == s.cfg.hash then named else named ++ [(s.cfg.hash, s.boot.img)] } }
    else m

/-- Events that the first start of device code records (R588, R697, R709). -/
def State.startEvents (s : State) : State :=
  let s1 := match s.boot.fallback with | some a => s.event 0x75 a | none => s
  let s2 := if s1.boot.reason = 0 then s1 else s1.event 0x7B s1.boot.reason
  let s3 := s2.setBoot fun b => { b with fallback := none, reason := 0 }
  if s3.med.run then (s3.setMed fun m => { m with healthAt := s3.t + m.healthH * 3600 * second }).healthEvent else s3

/-- The counter of U2H and the session go on from what the media kept (R455, R518, R526). -/
def State.resumeCounters (s : State) : State :=
  let n := s.med.nand
  let s1 : State := if s.med.run then { s with sec := { s.sec with u2hGen := n.u2hGen, u2hMark := n.u2hMark, u2hCtr := if n.session = 0 then 0 else n.u2hMark + 65536 },
                                               net := { s.net with session := n.session } } else s
  s1.newSession

/-- Rung 16 (R56, R58, R472, R675): time is seeded, the sequencer and the grains are enabled, and a unit of one journals START and what follows it; a
triad's unit journals them when it takes the token (R34, R67). -/
def State.enterService (s : State) : State :=
  let s0 := s.seedTime.startUtc
  let last := match s0.seq.journal.getLast? with | some e => e.stamp | none => 0
  let regr := s0.ctx.regr && decide (s0.dev < s0.ctx.hwb)
  let s1 : State := { s0 with seq := { s0.seq with unsure := s0.bitOf rOasStat 0, regressed := regr, spanFrom := s0.dev, spans := [],
                                                   bndBase := last, holder := !s0.triad },
                              pow := { s0.pow with phase := .service } }
  let s2 := (((s1.setBit rErgCtl 0 true).setBit rJsqCtl 0 true).setBit rBilCtl 0 true).ctlReseat
  let s3 := s2.resumeCounters.raiseCsvn.keepImages.startEvents
  if s3.triad then s3.setBoot fun b => { b with startDue := true } else s3.journalStart

/-- Phase 1 of R708 ends with a CKPT entry, whose checkpoint the unit waits for. -/
def State.carryCut (s : State) : State := (s.seedTime.resumeCounters).cutCkpt

/-- The top of the ladder: service, a keyless unit, or phase 1 of R708. -/
def State.topRung (s : State) : State :=
  if s.sysKey.isNone then { s with pow := { s.pow with phase := .keyless } }
  else
    let s1 := s.restoreContext
    if s1.boot.carry then s1.carryCut else s1.enterService

/-- Take the next rung in its slot (R649). In alarm hold only rungs 1, 7 and 8 step, and the ladder ends there (R675). -/
def State.climb (s : State) (wait : Nat) : State :=
  let k := s.fld rSysLadder 20 16 + 1
  let step (n : Nat) : State :=
    let s1 := s.until (s.pow.rungAt + n * usU (max 10 (s.fld rSysLadder 9 0)))
    let s2 := if k + n - 1 = 16 then s1.advance wait else s1
    ({ s2 with pow := { s2.pow with rungAt := s2.t } } : State).setFld rSysLadder 20 16 (k + n - 1)
  match s.pow.phase with
  | .ladder => if 16 < k then s else if k = 16 then (step 1).topRung else (step 1).rung k
  | .alarmHold => if k = 1 then (step 1).rung 1 else if k = 2 then (step 6).rung 7 else if k = 8 then step 1 else s
  | _ => s

/-- Climb a number of rungs. -/
def State.climbTo (wait : Nat) : Nat → State → State
  | 0, s => s
  | n + 1, s => State.climbTo wait n (s.climb wait)

end Sys2Proof.Machine
end

