-- ==== Sys2Proof/Machine/Boot.lean ====
section
/-! DEFINITION. The commands of start-up: BOOT, LADDER_RUNG, UPD_HOUR_CKPT and CKPT_VALID (R72, R649, R675, R698, R704). -/
namespace Sys2Proof.Machine

/-- The board at a start: the service card in its slot, the media set and VIO18 (R558, R699, R738). A media set that differs is a blank one. -/
def State.seeBoard (s : State) (card : Option Card) (geom : Option NandGeom) (vio33 : Bool) : State :=
  let s1 : State := { s with rpl := { s.rpl with card := card } }
  let s2 := (s1.setBit rSysClk 0 true).setBoot fun b => { b with vio33 := vio33 }
  match geom with
  | some g =>
    if s2.med.nand.board = some g then s2
    else { s2 with med := { s2.med with nand := { board := some g } }, obox := [], evr := {} }
  | none => s2

/-- Whether the image read is refused at step 5, or leaves the unit without a role, or has its SEIF section rejected: configuration wait (R3, R640, R681,
R691). -/
def State.configWait (s : State) (img : Bytes) : Bool :=
  judgeCfg s.sec.otp s.csvnFloor none img ≠ 0 ||
  (match cfgSection img 2 with | some b => (roleOf b).isNone | none => true) ||
  (match cfgSection img 13 with | some b => !seifOk b | none => false)

/-- Step 8 (R557, R655, R670, R675): the sections are applied, the outage record's ORDERLY is taken over, and PWRON_CTL is released when time is lost. -/
def State.applyAll (s : State) (img : Bytes) (hold : Bool) : State :=
  let s1 := s.applyImage img hold
  let s2 := if s1.bitOf rOasStat 0 then ({ s1 with pow := { s1.pow with pwronAt := none } } : State).setBit rOasPwr 2 false else s1
  let s3 := (s2.setBit rSysRstcause 3 (s2.bitOf rOasPwr 3)).setBit rOasPwr 3 false
  s3.setFld rSysLadder 14 10 s3.startDelay

/-- Start the ladder after the start delay (R649). -/
def State.startLadder (s : State) (ph : RunPhase) : State :=
  { s with pow := { s.pow with phase := ph, rungAt := s.t + msU s.startDelay } }

/-- The start of alarm hold at step 8 (R544, R546, R675): a severe alarm in FIELD with ESCALATE leads to RETURN first; the device port comes up when the
image gives it. -/
def State.holdStart (s : State) (img : Bytes) : State :=
  let bad := s.configWait img
  let s1 := if bad then s else s.applyAll img true
  if s1.sec.otp.lc = .field ∧ s1.severeLatched = true ∧ s1.bitOf rOasTampcfg 18 = true then s1.transitionWhen .return_
  else if bad then { s1 with pow := { s1.pow with phase := .alarmHold, rungAt := s1.t }, regs := (s1.setFld rSysLadder 20 16 8).regs }
  else s1.startLadder .alarmHold

/-- The boot ROM's steps 2 to 8 (R675); alarm hold takes precedence over recovery (R692). -/
def State.bootRom (s : State) (recover : Bool) : State :=
  if s.sec.otp.lc = .blank then s.transitionWhen .open_
  else if s.sec.otp.lc = .scrapped then { s with pow := { s.pow with phase := .scrapped } }
  else
    let img := s.nor.cfgImage
    let held := s.bitOf rOasTampstat 8
    if recover && !held then s.enterRecovery 1
    else if s.configWait img then (if held then s.holdStart img else s.enterRecovery 3)
    else match (if cardOkOf img || s.sec.otp.lc == .open_ then s.deliverCard else none) with
      | some a => a
      | none =>
        match s.chooseSlot with
        | (none, _, a) => if held then a.holdStart img else a.enterRecovery 2
        | (some k, gaveUp, a) =>
          let b := a.loadFw k gaveUp s.nor.pref
          if held then b.holdStart img else (b.applyAll img false).startLadder .ladder

/-- BOOT (R675): `dt` after reset release the ROM has done steps 1 to 8; the ladder is then climbed to rung `upTo`, rung 16 after `restore`. `recover` is
RECOVER_N low for 10 ms. A reset within it (a first start, a card's delivery) ends it. -/
def execBoot (dt restore : Nat) (recover : Bool) (card : Option Card) (geom : Option NandGeom) (vio33 : Bool) (upTo : Fin 17) (s : State) :
    Host.Outcome State Fault Refusal :=
  let s1 := s.advance dt
  if s1.pow.phase = .rom then .next (((s1.seeBoard card geom vio33).bootRom recover).climbTo restore upTo.val) else .next s1

/-- LADDER_RUNG (R649): the next rung in its slot; rung 16 comes `dt` later, when restore has ended (R675). -/
def execLadderRung (dt : Nat) (s : State) : Host.Outcome State Fault Refusal := .next (s.climb dt)

/-! ### Checkpoints that become valid (R72, R448, R698, R704, R716) -/

/-- UPD_HOUR_CKPT (R704): in mode 2, once an update has completed, a CKPT entry is journaled at the first entry boundary at or after the start of the
next local hour UPD_HOUR in which time is sure. -/
def execUpdHourCkpt (s : State) : Host.Outcome State Fault Refusal :=
  match s.boot.updHourAt with
  | some since =>
    if s.boot.updMode = 2 ∧ s.boot.updHour < 24 ∧ s.seqTakes = true ∧ s.seq.khamsin = false then
      let s1 := match nextSec (fun x => (stdSec s.cfg x).emod 86400 == (s.boot.updHour : Int) * 3600) (secOf since) 90000 with
        | some x => s.untilDev (x * second)
        | none => s
      if s1.seq.unsure then .next (s1.setBoot fun b => { b with updHourAt := some s1.dev })
      else .next ((s1.setBoot fun b => { b with updHourAt := none }).cutCkpt)
    else .next s
  | none => .next s

/-- The conditions for the oldest checkpoint in writing: its CKPT entry durable, and every outbox entry below its next RSN (R72, R448). -/
def State.ckptReady (s : State) (k : Ckpt) : Bool :=
  s.med.run && decide (k.cutJsn ≤ s.seq.durable) && decide (k.ctx.nextRsn ≤ s.ctx.nextRsn) &&
  s.obox.all fun r => decide (k.ctx.nextRsn ≤ r.rsn) || r.durable

/-- The first start of a trial image is confirmed (R698): TRIAL 0, the anti-rollback bits burned. -/
def State.confirmTrial (s : State) (k : Ckpt) : State :=
  if s.boot.trial && decide (0 < s.boot.trialJsn) && decide (s.boot.trialJsn < k.cutJsn) then
    let s1 := (s.setNor fun n => n.writePt s.boot.slot false 0).setBoot fun b => { b with trial := false }
    if s1.sec.otp.svn < s1.boot.svn then
      ({ s1 with sec := { s1.sec with otp := { s1.sec.otp with svn := s1.boot.svn } } } : State).event 0x7A s1.boot.svn
    else s1
  else s

/-- Bytes a checkpoint takes in the CKPT region. -/
def Ckpt.size (k : Ckpt) : Nat := 128 + snapLen + (Config.ckptAgg k).length

/-- The oldest epoch checkpoints go first when CKPT reaches CAP_CKP (R716). -/
def capEpochs (cap used : Nat) : List Ckpt → List Ckpt
  | [] => []
  | k :: r => if cap < used + ((k :: r).map Ckpt.size).foldl (· + ·) 0 then capEpochs cap used r else k :: r

/-- A checkpoint becomes the latest valid one (R72, R73): the two latest are kept, and one for each billing epoch, the first cut after that epoch's
BND_PERIOD, while its cut lies in the retained journal and CKPT has room for it (R716). -/
def Nand.addCkpt (n : Nand) (k : Ckpt) (cap : Nat) : Nand :=
  let l := n.ckpts ++ [k]
  let ep := if (n.ckpts ++ n.epochCkpts).any fun x => x.ctx.nextPer == k.ctx.nextPer then n.epochCkpts else n.epochCkpts ++ [k]
  let oldest := match n.jUnits with | u :: _ => (n.jUnits.foldl (fun m x => min m x.ends) u.ends) | [] => 0
  let two := l.drop (l.length - 2)
  { n with ckpts := two, epochCkpts := capEpochs cap ((two.map Ckpt.size).foldl (· + ·) 0) (ep.filter fun x => decide (oldest ≤ x.cutJsn)) }

/-- CKPT_VALID (R72, R448, R698, R708): the oldest checkpoint in writing is verified, or with `ok` false fails. Phase 1 of a context taken over ends with
a reset of the main domain. -/
def execCkptValid (ok : Bool) (s : State) : Host.Outcome State Fault Refusal :=
  match s.seq.ckptBusy with
  | [] => .next s
  | k :: r =>
    if ok = false then .next (({ s with seq := { s.seq with ckptBusy := r } } : State).irq rJsqIrq 1)
    else if s.ckptReady k then
      let s1 : State := { s with seq := { s.seq with ckptBusy := r, ckpts := (s.seq.ckpts ++ [k]).drop (s.seq.ckpts.length - 1) } }
      let s2 := ((s1.setNand fun n => n.addCkpt k (s.med.caps.getD 1 0 * 1048576)).keepImages.trimJournal).irq rJsqIrq 0
      if s2.boot.carry then let (v, a) := s2.free; .next (a.mainReset .rom (v % 8))
      else .next (s2.confirmTrial k)
    else .next s

end Sys2Proof.Machine
end

