-- ==== Sys2Proof/Machine/Erg.lean ====
section
/-! DEFINITION. The engine array's commands: dispatch, starting tasks, barchan moves and dune power (R108 to R145). -/
namespace Sys2Proof.Machine

/-- TASK_DISPATCH (R108 to R114, R117): the dispatcher takes the next journal entry and queues its tasks, or resumes the task its draw
is for. -/
def execTaskDispatch (s : State) : Host.Outcome State Fault Refusal := .next s.dispatchOne

/-! ### Starting a task (R114, R115, R128) -/

/-- Byte address in working RAM of the buffer a grain puts its cipher messages in. DESIGN CHOICE: the spec gives none. -/
def grainBuf (g : Nat) : Nat := 0x121C0000 + 4096 * g


/-- The Q10 request that opens a sequenced frame in run-ahead (R128, R530, R532). -/
def State.micRequest (s : State) (g i : Nat) (t : Task) : State :=
  let f := t.entry.frame
  let at_ := if f.isJoin then f.body + 16 else f.payloadAt
  let aad := f.aad at_
  let msg := f.bytes.drop at_
  let join := f.isJoin && (s.slot i).state == .joining
  let w (n : Nat) : Word := BitVec.ofNat 32 n
  (s.putWram (grainBuf g) (aad ++ msg)).ringPacket 10 2
    [w (t.jsn % 65536 + 65536 + flag 19 f.isJoin), w (if join then 4 else 1), w i, w f.seq.toNat, w (grainBuf g), w (grainBuf g + 2048),
     w (aad.length + msg.length * 65536)]

/-- Change the task of a key with a JSN. -/
def KeyQ.mark (q : KeyQ) (jsn : Nat) (ph : Phase) : KeyQ :=
  { q with tasks := q.tasks.map (fun t => if t.jsn = jsn ∧ t.phase = .queued then { t with phase := ph } else t), pinned := true }

/-- A grain starts a task of a key (R115): the key is pinned; a sequenced frame waits for its cipher result, any other work is done and
waits for the gate. -/
def State.startTask (s : State) (g : Nat) (k : Key) (t : Task) : State :=
  let cipher := t.entry.sequenced && t.work == .entry && s.bitOf rCphCtl 0
  let ph : Phase := if cipher then .waitCipher else .committing
  let s1 : State := { s with erg := { s.erg with keys := s.erg.keys.map fun q => if q.key == k then q.mark t.jsn ph else q } }
  match k with
  | .slot i => if cipher then s1.micRequest g i t else s1
  | _ => s1

/-- The task a grain takes next: the first queued task of the key nearest the front of its deque (R114). -/
def State.nextStart (s : State) (g : Nat) : Option (Key × Task) :=
  match (s.deque g).find? fun q => q.startable with
  | some q => (q.tasks.find? fun t => t.phase == .queued).map fun t => (q.key, t)
  | none => none

/-- TASK_START (R114, R115, R128): a grain of an awake dune takes the next task from the key nearest the front of its deque. -/
def execTaskStart (g : Fin 64) (s : State) : Host.Outcome State Fault Refusal :=
  if s.duneWorks (duneOf g.val) = true ∧ s.bitOf rErgCtl 0 = true then
    match s.nextStart g.val with
    | some (k, t) => .next (State.noteIdle s (s.startTask g.val k t))
    | none => .next s
  else .next s

/-! ### Barchan moves (R119 to R123) -/

/-- The deepest of some grains with at least a depth; ties to the lowest grain (R121). -/
def State.deepest (s : State) (gs : List Nat) (min_ : Nat) : Option Nat :=
  (gs.filter fun g => decide (min_ ≤ s.depth g)).foldl (fun m g => match m with
    | none => some g
    | some x => if s.depth x < s.depth g then some g else some x) none

/-- The victim of a thief (R121). -/
def State.victim (s : State) (thief : Nat) : Option Nat :=
  let d := duneOf thief
  match s.deepest ((grainsOf d).filter fun g => g ≠ thief) (atLeast1 (s.fld rErgSteal 7 0)) with
  | some v => some v
  | none =>
    if s.bitOf rErgCtl 2 then
      (List.range 7).findSome? fun k => s.deepest (grainsOf ((d + 1 + k) % 8)) (atLeast1 (s.fld rErgSteal 15 8))
    else none

/-- The JSN of a key's oldest task. -/
def KeyQ.oldest (q : KeyQ) : Nat := match q.tasks with | t :: _ => t.jsn | [] => 0

/-- The stealable key of a victim whose oldest task has the lowest JSN (R120, R121). DESIGN CHOICE: between keys whose oldest tasks have the same JSN
(children of one batch, groups of one BND_BALANCE) the first in deque order, since R121 names no tie rule there. -/
def State.stealKey (s : State) (v : Nat) : Option KeyQ :=
  (sortBy (fun a b => decide (a.oldest < b.oldest)) ((s.deque v).filter fun q => !q.pinned && !q.tasks.isEmpty)).head?

/-- BARCHAN_MOVE (R119 to R123): an idle grain's attempt takes the whole FIFO and the ownership of one key of its victim. -/
def execBarchanMove (g : Fin 64) (s : State) : Host.Outcome State Fault Refusal :=
  if s.duneWorks (duneOf g.val) = true ∧ s.bitOf rErgCtl 0 = true ∧ s.grainIdle g.val = true then
    match s.victim g.val with
    | none => .next s
    | some v =>
      match s.stealKey v with
      | none => .next s
      | some q =>
        let s1 : State := { s with erg := { s.erg with keys := (s.erg.keys.filter fun x => x.key ≠ q.key) ++ [{ q with owner := g.val }] } }
        .next (State.noteIdle s (s1.count rErgStealcnt 1))
  else .next s

/-! ### Dune power (R140 to R142, R650) -/

/-- DUNE_NAP (R140): the grains of a dune have been idle for IDLE_US, none owns a pinned key, and more than MIN_AWAKE dunes are awake. -/
def execDuneNap (d : Fin 8) (s : State) : Host.Outcome State Fault Refusal :=
  if (s.dune d.val).pwr = .awake ∧ s.duneIdle d.val = true ∧ s.dunePinned d.val = false ∧ min 8 (atLeast1 (s.fld rErgPwr 3 0)) < s.awakeCount ∧ s.fld rErgPwr 23 8 ≠ 0 then
    let s1 := s.until ((s.dune d.val).idleSince + usU (s.fld rErgPwr 23 8))
    .next (s1.setDune d.val { s1.dune d.val with pwr := .nap, since := s1.t, leaving := false })
  else .next s

/-- DUNE_DEEP (R140): a dune has stayed in NAP for DEEP_MS. -/
def execDuneDeep (d : Fin 8) (s : State) : Host.Outcome State Fault Refusal :=
  if (s.dune d.val).pwr = .nap ∧ s.fld rErgPwr 31 24 ≠ 0 ∧ s.fld rErgPwr 23 8 ≠ 0 then
    let s1 := s.until ((s.dune d.val).since + msU (s.fld rErgPwr 31 24))
    .next (s1.setDune d.val { s1.dune d.val with pwr := .deep, since := s1.t })
  else .next s

/-- A dune that sleeps. -/
def State.asleep (s : State) (d : Nat) : Bool := (s.dune d).pwr == .nap || (s.dune d).pwr == .deep

/-- When the oldest task queued with a dune's grains was queued. -/
def State.oldestQueued (s : State) (d : Nat) : Option Nat :=
  ((grainsOf d).flatMap fun g => (s.deque g).flatMap fun q => q.tasks.map fun t => t.since).foldl
    (fun m x => match m with | none => some x | some y => some (min x y)) none

/-- The instant at which a sleeping dune qualifies to wake: now by depth, or when its oldest task has waited US (R141). -/
def State.wakeDue (s : State) (d : Nat) : Option Nat :=
  if !s.asleep d then none
  else if atLeast1 (s.fld rErgWake 15 0) ≤ s.duneTasks d then some s.t
  else (s.oldestQueued d).map fun x => max s.t (x + usU (atLeast1 (s.fld rErgWake 31 16)))

/-- The sleeping dune that wakes next: first to qualify, then the most queued tasks, then the lowest index (R141). -/
def State.nextDuneWake (s : State) : Option (Nat × Nat) :=
  let c := (List.range 8).filterMap fun d => (s.wakeDue d).map fun x => (d, x)
  (sortBy (fun a b => lexLt [a.2, poolSize - s.duneTasks a.1, a.1] [b.2, poolSize - s.duneTasks b.1, b.1]) c).head?

/-- The spacing of SYS_LADDER as it acts (R673). -/
def State.spacing (s : State) : Nat := usU (max 10 (s.fld rSysLadder 9 0))

/-- The earliest instant of the next dune wake: the spacing after the last wake and the last rung (R650). -/
def State.wakeFrom (s : State) : Nat :=
  ((s.erg.dunes.filter fun x => x.pwr == .awake && decide (0 < x.wakes)).map fun x => x.since).foldl max s.pow.rungAt + s.spacing

/-- DUNE_WAKE (R141, R647, R650): a sleeping dune that qualifies wakes, in 2 µs from NAP and 30 µs from DEEP, while fewer than the
governor's limit are awake. -/
def execDuneWake (s : State) : Host.Outcome State Fault Refusal :=
  if s.awakeCount < s.erg.maxAwake ∧ s.bitOf rErgCtl 0 = true then
    match s.nextDuneWake with
    | none => .next s
    | some (d, due) =>
      let s1 := s.until (max due s.wakeFrom)
      let s2 := s1.advance (usU (if (s.dune d).pwr = .nap then 2 else 30))
      .next (s2.setDune d { pwr := .awake, since := s2.t, idleSince := s2.t, wakes := (s2.dune d).wakes + 1 })
  else .next s

end Sys2Proof.Machine
end

