-- ==== Sys2Proof/Machine/Events.lean ====
section
/-! DEFINITION. The event recorder's commands (R590, R593, R595). -/
namespace Sys2Proof.Machine

/-- EVENT_RECORD (R590, R592, R593): the recorder takes a Q14 packet, adds the tag and stores it; a packet of a deterministic class
is refused and counted. -/
def execEventRecord (s : State) : Host.Outcome State Fault Refusal :=
  if s.bitOf rEvrCtl 0 then
    match s.ringTake 14 with
    | (.packet _ ty ws, s1) =>
      if bit 6 ty then
        let body := fit (Machine.fld 1 1 (ofWs ws) - 8) (ofWs ws)
        .next ((s1.recordEvent ty (body ++ s1.tag body)).ringDrain 14)
      else .next ((s1.count rEvrBadcnt 1).ringDrain 14)
    | _ => .next s
  else .next s

/-- EVR_REWIND (R595): a read returns EVR_FIRST and moves the reader's cursor to the oldest record. -/
def execEvrRewind (w : Who) (s : State) : Host.Outcome State Fault Refusal :=
  let r := s.evrRewind w
  .next (r.2.answer w (.data r.1))

/-- EVR_WIN (R595): a read returns the next word of the record at the reader's cursor and moves on. -/
def execEvrWin (w : Who) (s : State) : Host.Outcome State Fault Refusal :=
  let r := s.evrWin w
  .next (r.2.answer w (.data r.1))

/-- REPEAT_WINDOW_END (R590): REPEAT_S after a full record the repeats folded into it are stored. -/
def execRepeatWindowEnd (s : State) : Host.Outcome State Fault Refusal :=
  match s.evr.fold with
  | none => .next s
  | some f => .next (s.until (f.start + s.evr.repeatS * second)).closeFold

end Sys2Proof.Machine
end

