-- ==== Sys2Proof/Machine/Signal.lean ====
section
/-! DEFINITION. The feeder front end from the decimated samples on: delivery to Q9 (R308, R313), the median (R298), scaling (R305, R323), cycles (R302, R309),
blocks (R303 to R307), tamper conditions (R310) and settling (R300). -/
namespace Sys2Proof.Machine

/-- Change the front end. -/
def State.setFe (s : State) (f : FrontEnd → FrontEnd) : State := { s with fe := f s.fe }

/-- Phase `p` of the front end. -/
def State.fePhase (s : State) (p : Nat) : FePhase := s.fe.phases.getD p {}

/-- Write a phase of the front end. -/
def State.setFePhase (s : State) (p : Nat) (x : FePhase) : State := s.setFe fun f => { f with phases := f.phases.set p x }

/-- The correction GD_T in units of 2^-28 s (R299). -/
def State.gdU (s : State) : Nat := modU (gdT s.fe.act.1)

/-- Modulator cycles of an output sample: the decimation of the response in use (R296, R297). -/
def State.feDec (s : State) : Nat := decimation (bits 2 0 s.fe.act.1)

/-- BLK_CYC as it acts (R323). -/
def State.blkCyc (s : State) : Nat := min 50 (atLeast1 (s.fld rMtrSel 13 8))

/-- The nominal period of FNOM, in units of 2^-28 s (R303). -/
def State.nominalPeriod (s : State) : Nat := if s.bitOf rMtrCtl 9 then second / 60 else second / 50

/-! ### Delivery (R308, R313) -/

/-- A packet of the front end as an input. -/
def FePkt.input (p : FePkt) : Input := { kind := p.kind, stamp := p.stamp, payload := p.payload }

/-- Offer held packets to Q9, oldest first, while it has room (R308): what is left, and the state. -/
def State.feOffer : List FePkt → State → List FePkt × State
  | [], s => ([], s)
  | p :: r, s =>
    if (s.ring 9).roomFor (p.input.words.length + 1) then State.feOffer r (s.offer 9 p.input) else (p :: r, s)

/-- Offer every held block and event (R308, R313). -/
def State.feDrain (s : State) : State :=
  let (h, s1) := State.feOffer s.fe.held s
  let (e, s2) := State.feOffer s1.fe.events s1
  s2.setFe fun x => { x with held := h, events := e }

/-- A block or an event is dropped (R308, R313). -/
def State.feLost (s : State) : State := (s.count rMtrLostcnt 1).irq rMtrIrq 0

/-- A completed block goes to Q9, to the holding buffer of 8, or is dropped (R308). A unit without the token journals no input (R34). -/
def State.feBlock (s0 : State) (p : FePkt) : State :=
  if s0.seq.holder = false then s0
  else
    let s := s0.feDrain
    if s.fe.held.isEmpty && (s.ring 9).roomFor (p.input.words.length + 1) then s.offer 9 p.input
    else if s.fe.held.length < 8 then s.setFe fun x => { x with held := x.held ++ [p] }
    else s.feLost.setFe fun x => { x with gap := true }

/-- An event goes to Q9, to the event buffer of 16, or is dropped (R313). -/
def State.feEventPkt (s : State) (p : FePkt) : State :=
  if s.seq.holder = false then s
  else if s.fe.events.isEmpty && (s.ring 9).roomFor (p.input.words.length + 1) then s.offer 9 p.input
  else if s.fe.events.length < 16 then s.setFe fun x => { x with events := x.events ++ [p] }
  else s.feLost

/-- Whether a block, by its BSEQ, held an unsettled sample: the block in progress, or one ended lately (R312). -/
def State.feUnsettledIn (s : State) (bseq : Nat) : Bool :=
  if bseq = s.fe.bseq then s.fe.blkUnsettled else match s.fe.past.find? fun b => b.1 == bseq with | some b => b.2 | none => false

/-- Send an event of an instant in a block (R312). -/
def State.feEvent (s : State) (ty ph : Nat) (dp v1 v2 : Int) (instant bseq : Nat) : State :=
  s.feEventPkt { kind := .mtrEvent, stamp := instant,
                 payload := le 1 1 ++ le 1 ty ++ le 1 ph ++ le 1 (flag 0 (s.feUnsettledIn bseq)) ++ leI 4 dp ++ leI 4 v1 ++ leI 4 v2 ++ le 4 bseq ++ le 4 0 }

/-! ### The median and the scaling (R298, R305, R323) -/

/-- The median of samples (R298). -/
def medianOf (l : List Int) : Int := (sortBy (fun a b => decide (a < b)) l).getD (l.length / 2) 0

/-- The largest number whose square is at most `n`, below 2^64. -/
def isqrt (n : Nat) : Nat := (List.range 64).foldl (fun r k => if (r + 2 ^ (63 - k)) * (r + 2 ^ (63 - k)) ≤ n then r + 2 ^ (63 - k) else r) 0

/-- A root mean square: sum of squares over samples, in a unit of 1 over `unit`; whole units, rounded down. -/
def rmsOf (sum n unit : Nat) : Nat := if n = 0 then 0 else isqrt (sum / (n * (unit * unit)))

/-- A channel is enabled (R323). -/
def State.feOn (s : State) (k : Nat) : Bool := s.bitOf rMtrCtl (k + 1)

/-- A channel's sample scaled to the primary side (R305, R323): (sample − OFS) × GAIN × FS; a current's also × 16 ÷ PGA gain. In units of 2^-45 mV, and of
2^-49 mA. DESIGN CHOICE: the scaling is exact. -/
def State.feScale (s : State) (k : Nat) (y : Int) : Int :=
  if s.feOn k then
    (y - signed 24 (s.fld (rMtrOfs k) 23 0)) * (s.fld (rMtrGain k) 23 0 : Nat) * (s.reg (rMtrFs k) : Nat) *
      (if k < 3 then 1 else ((2 ^ (4 - s.fe.act.2.getD (k - 3) 0) : Nat) : Int))
  else 0

/-- One unit of a voltage sample is 2^-45 mV. -/
def vUnit : Nat := 2 ^ 45
/-- One unit of a current sample is 2^-49 mA. -/
def iUnit : Nat := 2 ^ 49
/-- Units of voltage × current in a µW. -/
def pUnit : Nat := vUnit * iUnit
/-- Units of power × modulator cycles in a µWh. -/
def eUnit : Nat := pUnit * 3600 * 1024000

/-- The samples after the median and scaled, with their delayed currents: what the sums take (R298, R305, R323). -/
def State.feTake (s : State) (x : FeSample) : State :=
  let raw := (x.ch :: s.fe.raw).take (medianTaps (bits 7 6 s.fe.act.1))
  let y := (List.range 7).map fun k => s.feScale k (medianOf (raw.map fun r => r.getD k 0))
  s.setFe fun f => { f with raw := raw, sig := (y :: f.sig).take 256 }

/-- The present scaled sample of a channel; a current's delayed by PHTRIM (R323). -/
def State.feNow (s : State) (k : Nat) : Int :=
  let h := s.fe.sig.map fun y => y.getD k 0
  let trim := signed 16 (s.fld (rMtrTrim k) 15 0)
  if k < 3 ∨ trim = 0 then h.headD 0 else Config.phaseTrim trim s.feDec h

/-- The present sample of a voltage after the Hilbert response (R305). -/
def State.feQuad (s : State) (p : Nat) : Int := Config.hilbert (bits 2 0 s.fe.act.1) (s.fe.sig.map fun y => y.getD p 0)

/-! ### Load steps (R309) -/

/-- A window length of MTR_STEP0 as it acts (R323). -/
def windowCyc (n : Nat) : Nat := min 100 (atLeast1 n)

/-- Sum of a list. -/
def sumI (l : List Int) : Int := l.foldl (· + ·) 0

/-- Mean of a list, toward zero. -/
def meanI (l : List Int) : Int := (sumI l).tdiv l.length

/-- The mean of one list less the mean of another, over a common denominator: the numerator. The means are not rounded before they are compared (R309, DEDUCED). -/
def meanDiff (l m : List Int) : Int := sumI l * m.length - sumI m * l.length

/-- What step_watch of a phase does with a completed cycle that began at the instant `start` (R309): the phase, and the step it emits, if any, as the
candidate, its change and the mean after it. No cycle with an unsettled sample is used (R300). -/
def stepWatch (s : State) (x : FePhase) (pc : Int) (uns : Bool) (start : Nat) : FePhase × Option (StepCand × Int × Int) :=
  let min_ := s.fld rMtrStep0 15 0
  let pre := windowCyc (s.fld rMtrStep0 23 16)
  let post := windowCyc (s.fld rMtrStep0 31 24)
  let seen : List Int := (pc :: x.cycles).take 101
  if uns then ({ x with cycles := [], cand := none }, none)
  else match x.cand with
    | some c =>
      let ps := c.post ++ [pc]
      if ps.length < post then ({ x with cycles := seen, cand := some { c with post := ps } }, none)
      else
        let hi := ps.foldl max pc
        let lo := ps.foldl min pc
        let dp := (meanDiff ps c.pre).tdiv (ps.length * c.pre.length)
        if (s.fld rMtrStep1 15 0 : Int) < hi - lo ∨ dp.natAbs < min_ then ({ x with cycles := seen, cand := none }, none)
        else ({ x with cycles := seen, cand := none }, some (c, dp, meanI ps))
    | none =>
      let before := x.cycles.take pre
      if min_ = 0 ∨ before.length < pre ∨ (meanDiff [pc] before).natAbs < min_ * before.length then ({ x with cycles := seen }, none)
      else
        ({ x with cycles := seen, cand := some { instant := start, pre := before, bseq := if s.fe.start ≤ start then s.fe.bseq else (s.fe.bseq + 2 ^ 32 - 1) % 2 ^ 32 } },
          none)

/-! ### Cycles (R302, R303, R309, R310) -/

/-- Whether a crossing interval in modulator cycles counts: 15.4 to 22.2 ms (R302). -/
def riseOk (dm : Nat) : Bool := decide (154 * 1024000 ≤ dm * 10000) && decide (dm * 10000 ≤ 222 * 1024000)

/-- The reference phase: the first present phase (R303). -/
def FrontEnd.refPhase (x : FrontEnd) : Option Nat := (List.range 3).find? fun p => match x.phases[p]? with | some y => y.present | none => false

/-- A cycle met a tamper condition or did not (R310). -/
def State.feHolds (s : State) (c : Nat) (on : Bool) : State :=
  s.setFe fun f => { f with conds := f.conds.set c { f.conds.getD c {} with holds := on } }

/-- Phases present. -/
def FrontEnd.presentCount (x : FrontEnd) : Nat := (x.phases.filter fun p => p.present).length

/-- Primary full scale of a current channel at its gain, in mA (R323). -/
def State.feFull (s : State) (k : Nat) : Nat := s.reg (rMtrFs k) / 2 ^ (s.fe.act.2.getD (k - 3) 0)

/-- The smallest full scale of the enabled current channels (R310). -/
def State.feLeastFull (s : State) : Nat := (((List.range 4).map (· + 3)).filter s.feOn).foldl (fun m k => min m (s.feFull k)) (2 ^ 32)

/-- What a cycle of the reference phase says of bypass and of the missing neutral (R310). DESIGN CHOICE: the cycle they are judged over is the reference
phase's, and a current's full scale is that at its gain. -/
def State.feJudge (s : State) (a : FeAcc) : State :=
  let byp := decide (s.feLeastFull * s.fld rMtrByp 9 0 ≤ rmsOf a.res2 a.n iUnit * 1000)
  let neu := decide (s.fld rMtrVnom 19 0 * s.fld rMtrNeu 9 0 ≤ rmsOf a.disp2 a.n vUnit * 1000) && decide (2 ≤ s.fe.presentCount) &&
    decide (rmsOf a.in2 a.n iUnit * 1000 < s.feFull 6 * s.fld rMtrNeu 19 10)
  (s.feHolds 3 byp).feHolds 4 neu

/-- The front end counts all phases as lost, or one as back (R303): MTR_STAT.NO_ZC, MTR_IRQ.NO_ZC, and the events at the sample's instant. -/
def State.feZc (s : State) (stamp : Nat) : State :=
  if s.fe.refPhase.isNone && !s.fe.noZc then
    let s1 := (s.setFe fun f => { f with noZc := true }).irq rMtrIrq 4
    ((((s1.feHolds 3 false).feHolds 4 false)).feEvent 9 3 0 0 0 stamp s1.fe.bseq).mainsLost
  else if s.fe.refPhase.isSome && s.fe.noZc then (s.setFe fun f => { f with noZc := false }).feEvent 10 3 0 0 0 stamp s.fe.bseq
  else s

/-- A counted cycle of a phase ends (R302, R303, R309): its RMS voltage tells whether the phase is present, its mean power goes to step_watch. -/
def State.feCycle (s : State) (p m m0 start stamp : Nat) : State :=
  let x := s.fePhase p
  let a := x.acc
  let pc : Int := a.p.tdiv ((a.n : Int) * (pUnit : Int) * 1000000)
  let ok := decide (s.fld rMtrVnom 19 0 * s.fld rMtrVnom 29 20 ≤ rmsOf a.v2 a.n vUnit * 1000)
  let (x1, step) := if ok then stepWatch s x pc a.uns start else ({ x with cycles := [], cand := none }, none)
  let s1 := (s.setFePhase p { x1 with present := ok, whole := x1.whole && ok, done := x1.done + 1 }).feHolds p (ok && decide (pc ≤ -(s.fld rMtrRev 15 0 : Int)))
  let s2 := s1.feZc stamp
  let s3 := match step with
    | some (c, dp, mean) => (s2.irq rMtrIrq 3).feEvent 1 p dp (meanI c.pre) mean c.instant c.bseq
    | none => s2
  if s3.fe.refPhase = some p then
    ((s3.setFe fun f => { f with cyclesIn := f.cyclesIn + 1, freq := 1000 * 1024000 / (m - m0) }).feJudge a).mainsCycle
  else s3

/-- One phase at a sample (R302): a rising crossing is the first sample at or above zero after one at or below −2 % of VNOM. DESIGN CHOICE: the crossing stands at
that sample's instant, and the hysteresis at one side. -/
def State.feRise (s : State) (stamp p : Nat) : State :=
  let x := s.fePhase p
  let v := s.feNow p
  let m := s.fe.mcyc
  if x.armed = true ∧ 0 ≤ v then
    let s1 := match x.rise with
      | some (m0, start) => if riseOk (m - m0) then s.feCycle p m m0 start stamp else s
      | none => s
    s1.setFePhase p { s1.fePhase p with rise := some (m, stamp), armed := false, acc := {} }
  else if v * 50 ≤ -((s.fld rMtrVnom 19 0 * vUnit : Nat) : Int) then s.setFePhase p { x with armed := true }
  else s

/-- A phase without a crossing for 22.2 ms is present no more (R302, R303). -/
def State.feMissing (s : State) (p : Nat) : State :=
  let x := s.fePhase p
  match x.rise with
  | some (m0, _) =>
    if 222 * 1024000 < (s.fe.mcyc - m0) * 10000 then
      (s.setFePhase p { x with present := false, whole := false, rise := none, cycles := [], cand := none, acc := {} }).feHolds p false
    else s
  | none => s

/-! ### Blocks (R303 to R308) -/

/-- The next whole minute of UTC after an instant (R304). -/
def State.minuteAfter (s : State) (d : Nat) : Nat := minuteAtOrAfter s.cfg (d + 1)

/-- Whether a switch of response, median or gain waits (R300, R301): the registers hold others than are in use. -/
def State.switchDue (s : State) : Bool := s.feSel ≠ s.fe.act

/-- Whether the block in progress ends before the present sample (R301, R303, R304): the device time of its end and whether it ends early. A TIME_SET ends it
in the old time scale; a switch ends the block it is made in. -/
def State.blockDue (s : State) (stamp : Nat) : Option (Nat × Bool) :=
  let full := if s.fe.noZc then decide (s.fe.start + s.blkCyc * s.nominalPeriod ≤ stamp) else decide (s.blkCyc ≤ s.fe.cyclesIn)
  match s.fe.cut with
  | some (old, new) => some (stamp + old - new, !full)
  | none => if full then some (stamp, false) else if s.minuteAfter s.fe.start ≤ stamp ∨ s.switchDue = true then some (stamp, true) else none

/-- A switch takes effect (R299 to R301): samples are unsettled from here. -/
def State.feSwitch (s : State) : State :=
  if s.switchDue then
    s.setFe fun f => { f with act := s.feSel, unsettled := true, blkUnsettled := true, settleM := f.mcyc + settleM s.feSel.1,
                              phases := f.phases.map fun p => { p with cand := none } }
  else s

/-- BFLAGS of the block in progress (R307). -/
def State.blockFlags (s : State) (short : Bool) : Nat :=
  flag 0 s.fe.blkUnsettled + flag 1 short + flag 2 s.fe.noZc + flag 3 (!s.fe.blk.ovr.isEmpty) + flag 4 s.fe.gap

/-- PH_OK of the block in progress: the phases present for all of it (R306). -/
def State.blockPhases (s : State) : Nat := ((List.range 3).map fun p => flag p (s.fePhase p).whole).foldl (· + ·) 0

/-- RMS of a channel over the block in progress, in mV or mA (R306). -/
def FeBlk.rms (b : FeBlk) (k : Nat) : Nat := if k < 3 then rmsOf (b.v2.getD k 0) b.n vUnit else rmsOf (b.i2.getD (k - 3) 0) b.n iUnit

/-- The MTR_BLOCK payload of the block in progress (R306). -/
def State.blockPayload (s : State) (len : Nat) (short : Bool) : Bytes :=
  let b := s.fe.blk
  le 1 1 ++ le 1 (s.blockFlags short) ++ le 1 (min 50 s.fe.cyclesIn) ++ le 1 s.blockPhases ++ le 4 s.fe.bseq ++ le 4 len ++
    le 4 (if s.fe.noZc then 0 else s.fe.freq) ++ ((List.range 6).flatMap fun k => leI 8 ((b.e.getD k 0).tdiv (eUnit : Int))) ++
    ((List.range 7).flatMap fun k => le 4 (b.rms k)) ++ le 4 0

/-- The registers that show the last block (R323). -/
def State.showBlock (s : State) (b : FeBlk) (len : Nat) : State :=
  let s1 := (List.range 7).foldl (fun a n => a.setReg (rMtrRms n) (b.rms n % 2 ^ 32)) s
  (List.range 3).foldl (fun a n =>
    let w : Int := if len = 0 then 0 else ((b.e.getD n 0).tdiv (eUnit : Int) * 3600 * (second : Int)).tdiv ((len : Int) * 1000000)
    a.setReg (rMtrPinst n) (w % 4294967296).toNat) s1

/-- A sample block ends (R304 to R308): it is offered, and the next starts with the present sample, its energies from the carried fractions. -/
def State.endBlock (s : State) (stop stamp : Nat) (short : Bool) : State :=
  let b := s.fe.blk
  let len := stop - s.fe.start
  let s1 := (s.setFe fun x => { x with gap := false }).feBlock { kind := .mtrBlock, stamp := s.fe.start, payload := s.blockPayload len short }
  let s2 := s1.setFe fun x =>
    { x with start := stamp, cyclesIn := 0, bseq := (x.bseq + 1) % 2 ^ 32, cut := none, past := ((x.bseq, x.blkUnsettled) :: x.past).take 256,
             blk := { e := b.e.map fun v => v.tmod (eUnit : Int) }, blkUnsettled := x.unsettled, ovr := b.ovr,
             phases := x.phases.map fun p => { p with whole := p.present } }
  (s2.showBlock b len).feSwitch

/-- The block in progress ends when it is due (R304); the first block of an enable starts with its first sample. -/
def State.feEdge (s : State) (stamp : Nat) : State :=
  if s.fe.fresh then s.setFe fun f => { f with fresh := false, start := stamp, cut := none, phases := f.phases.map fun p => { p with whole := p.present } }
  else match s.blockDue stamp with
    | some (stop, short) => s.endBlock stop stamp short
    | none => s

/-! ### One sample -/

/-- A channel is at full scale (R293, R294). -/
def fullScale (v : Int) : Bool := decide (v ≤ -8388608) || decide (8388607 ≤ v)

/-- Channels at full scale (R307, R312, R323). DESIGN CHOICE: one event per channel and block, at the sample where the channel first reaches it. -/
def State.feOver (s : State) (x : FeSample) (stamp : Nat) : State :=
  (List.range 7).foldl (fun a n =>
    if a.feOn n && fullScale (x.ch.getD n 0) && !a.fe.blk.ovr.contains n then
      ((a.setFe fun f => { f with blk := { f.blk with ovr := f.blk.ovr ++ [n] } }).irq rMtrIrq 1).feEvent 8 3 0 n 0 stamp a.fe.bseq
    else a) s

/-- The present sample's part of a phase's cycle sums (R302, R309, R310). -/
def State.feAccOf (s : State) (p : Nat) (a : FeAcc) : FeAcc :=
  let v := s.feNow p
  let i (k : Nat) : Int := s.feNow (3 + k)
  let d := s.feNow 0 + s.feNow 1 + s.feNow 2
  { n := a.n + 1, v2 := a.v2 + v.natAbs * v.natAbs, p := a.p + v * i p, res2 := a.res2 + (i 0 + i 1 + i 2 - i 3).natAbs ^ 2, disp2 := a.disp2 + d.natAbs ^ 2,
    in2 := a.in2 + (i 3).natAbs ^ 2, uns := a.uns || s.fe.unsettled }

/-- The present sample joins the sums of the cycles and of the block (R302, R305, R306); an absent phase adds no energy. -/
def State.feAdd (s : State) : State :=
  let b := s.fe.blk
  let d : Int := (s.feDec : Nat)
  let on (p : Nat) : Bool := (s.fePhase p).present
  let b1 : FeBlk :=
    { b with n := b.n + 1,
             e := (List.range 6).map fun k => b.e.getD k 0 + (if on (k % 3) then (if k < 3 then s.feNow k else s.feQuad (k - 3)) * s.feNow (3 + k % 3) * d else 0),
             v2 := (List.range 3).map fun k => b.v2.getD k 0 + (s.feNow k).natAbs ^ 2,
             i2 := (List.range 4).map fun k => b.i2.getD k 0 + (s.feNow (3 + k)).natAbs ^ 2 }
  s.setFe fun f => { f with blk := b1, blkUnsettled := f.blkUnsettled || f.unsettled,
                            phases := f.phases.zipIdx.map fun p => { p.1 with acc := s.feAccOf p.2 p.1.acc } }

/-- Whether a condition can be evaluated (R310, R323): 0 to 2 reversed current on A to C, 3 bypass, 4 missing neutral. -/
def State.condOn (s : State) (c : Nat) : Bool :=
  if c < 3 then s.bitOf rMtrCtl (4 + c) && !s.bitOf rMtrCtl (10 + c) && decide (0 < s.fld rMtrRev 15 0)
  else if c = 3 then decide (s.fld rMtrCtl 7 4 = 15) && decide (0 < s.fld rMtrByp 9 0)
  else decide (s.fld rMtrCtl 3 1 = 7) && decide (0 < s.fld rMtrNeu 9 0)

/-- The persistence time of a condition, in seconds (R310, R323). -/
def State.condSecs (s : State) (c : Nat) : Nat :=
  atLeast1 (if c < 3 then s.fld rMtrRev 23 16 else if c = 3 then s.fld rMtrByp 23 16 else s.fld rMtrNeu 27 20)

/-- Whether a condition is set now. -/
def State.condSet (s : State) (c : Nat) : Bool := if c < 3 then (s.fePhase c).rev else if c = 3 then s.fe.byp else s.fe.neu

/-- Set or clear a condition. -/
def State.putCond (s : State) (c : Nat) (on : Bool) : State :=
  if c < 3 then s.setFePhase c { s.fePhase c with rev := on }
  else if c = 3 then s.setFe fun f => { f with byp := on } else s.setFe fun f => { f with neu := on }

/-- ETYPE of a condition's transition (R312). -/
def condEvent (c : Nat) (on : Bool) : Nat := (if c < 3 then 2 else if c = 3 then 4 else 6) + (if on then 0 else 1)

/-- A condition's persistence timer at the present sample (R300, R310): it runs over settled samples while the condition differs from what is set, and sets or
clears it with an MTR_EVENT. -/
def State.feCond (s : State) (stamp c : Nat) : State :=
  let x := s.fe.conds.getD c {}
  let put (n : Nat) (a : State) : State := a.setFe fun f => { f with conds := f.conds.set c { f.conds.getD c {} with run := n } }
  if s.condOn c = false ∨ x.holds = s.condSet c then put 0 s
  else if s.fe.unsettled then s
  else if x.run + s.feDec < s.condSecs c * 1024000 then put (x.run + s.feDec) s
  else
    let s1 := ((put 0 s).putCond c x.holds).irq rMtrIrq 2
    s1.feEvent (condEvent c x.holds) (if c < 3 then c else 3) 0 (if c < 3 then (s.fePhase c).cycles.headD 0 else 0) 0 stamp s.fe.bseq

/-- The time of the next output sample passes: the modulator runs on from the enable (R294), and settling ends (R300). -/
def State.feClock (s : State) : State :=
  let m := s.fe.mcyc + s.feDec
  (s.until (s.fe.t0 + modU m)).setFe fun f => { f with mcyc := m, unsettled := f.unsettled && decide (m < f.settleM) }

/-- The corrected device time of the sample that leaves the chain (R299). -/
def State.feStamp (s : State) : Nat := s.dev - (s.t - (s.fe.t0 + modU s.fe.mcyc)) - s.gdU

/-- The crossings of a sample (R302, R303, R309): each phase in turn, then whether every phase is lost or one is back. -/
def State.feCross (s : State) (stamp : Nat) : State :=
  ((List.range 3).foldl (fun a p => (a.feRise stamp p).feMissing p) s).feZc stamp

/-- What a sample adds to the block it belongs to: full scale, the sums and the conditions' timers (R305 to R307, R310). -/
def State.feRest (s : State) (x : FeSample) (stamp : Nat) : State :=
  (List.range 5).foldl (fun a c => a.feCond stamp c) (s.feOver x stamp).feAdd

/-- The front end takes one decimated sample (R294 to R310). -/
def State.feSample (s : State) (x : FeSample) : State :=
  if s.fe.run then
    let s1 := s.feClock.feTake x
    let st := s1.feStamp
    ((s1.feCross st).feEdge st).feRest x st
  else s

/-- Samples arrive until what a test asks for has come about. -/
def State.feRun (stop : State → State → Bool) : List FeSample → State → State
  | [], s => s
  | x :: r, s => let s1 := s.feSample x; if stop s s1 then s1 else State.feRun stop r s1

end Sys2Proof.Machine
end

