-- ==== Sys2Proof/Machine/Feeder.lean ====
section
/-! DEFINITION. The feeder front end's commands: decimated samples arrive until a block ends (R304), a cycle is counted (R302, R309), a tamper condition sets
or clears (R310), samples are settled (R300) or every phase is lost (R303). -/
namespace Sys2Proof.Machine

/-- FEEDER_BLOCK_END (R301, R303 to R308): samples arrive, to the first after which a sample block has ended. -/
def execFeederBlockEnd (xs : List FeSample) (s : State) : Host.Outcome State Fault Refusal :=
  .next (s.feRun (fun a b => decide (a.fe.bseq ≠ b.fe.bseq)) xs)

/-- FEEDER_CYCLE (R302, R303, R309): samples arrive, to the rising crossing that completes a cycle of a phase. -/
def execFeederCycle (p : Fin 3) (xs : List FeSample) (s : State) : Host.Outcome State Fault Refusal :=
  .next (s.feRun (fun a b => decide ((a.fePhase p.val).done ≠ (b.fePhase p.val).done)) xs)

/-- NO_ZC (R303): samples arrive, to the first without a rising crossing of any phase within the accepted period. -/
def execNoZc (xs : List FeSample) (s : State) : Host.Outcome State Fault Refusal := .next (s.feRun (fun a b => !a.fe.noZc && b.fe.noZc) xs)

/-- TAMPER_CONDITION (R300, R310): samples arrive, to the first after which a condition has held, or been absent, for its persistence time. -/
def execTamperCondition (c : Fin 5) (xs : List FeSample) (s : State) : Host.Outcome State Fault Refusal :=
  .next (s.feRun (fun a b => decide (a.condSet c.val ≠ b.condSet c.val)) xs)

/-- SETTLING_END (R300): samples arrive, to the first that no longer depends on an input from before an enable or a switch. -/
def execSettlingEnd (xs : List FeSample) (s : State) : Host.Outcome State Fault Refusal := .next (s.feRun (fun a b => a.fe.unsettled && !b.fe.unsettled) xs)

end Sys2Proof.Machine
end

