-- ==== Sys2Proof/Machine/MgmtCmd.lean ====
section
/-! DEFINITION. The management commands (R52, R68, R156, R241, R254, R301, R425, R437, R438, R483, R517, R545, R547, R551): each is given as a
MGMT_CMD input (R459, R460), journaled, dispatched and committed under its task key. -/
namespace Sys2Proof.Machine

/-- Work off a key's queue up to a JSN: draws are journaled as the commits ask for them, and a commit that waits for the watermark or for
release cells is left waiting. -/
def State.workKey (k : Key) (j : Nat) : Nat → State → State
  | 0, s => s
  | n + 1, s =>
    match s.headTask k with
    | none => s
    | some t =>
      if j < t.jsn then s
      else match s.waitsFor k with
        | some (.draw tag m) => if s.drawsServed && s.seqTakes then State.workKey k j n (s.journalDraw tag m).dispatchAll else s.commitHead k
        | some _ => s.commitHead k
        | none =>
          let s1 := s.commitHead k
          if s1.tasksUsed < s.tasksUsed then State.workKey k j n s1 else s1

/-- The input that submits a command (R30, R77, R459, R460): it goes to Q0 with the stamp of the frame that carried it when an authenticated CMD waits for
it or SRC_JSN names its NET_PKT, else it comes from the maintenance port's receiver on Q15 now. -/
def State.cmdInput (s : State) (src code target : Nat) (body : Bytes) : Nat × Input :=
  let cmd := cmdBytes code target body
  let i (stamp : Nat) : Input := { kind := .mgmtCmd, stamp := stamp, src := cmdSrc target, payload := mgmtPayload src cmd }
  match s.ctx.unsubmitted.find? fun u => u.src == src && u.cmd == cmd with
  | some u => (0, i u.stamp)
  | none =>
    if src = 0 then (15, i s.dev)
    else (0, i (match s.seq.journal.find? fun e => e.jsn == src with | some e => e.stamp | none => s.dev))

/-- The sequencer takes up to `k` items of a ring while it takes any (R27, R33). -/
def State.takeItems (n : Nat) : Nat → State → State
  | 0, s => s
  | k + 1, s =>
    if s.takesFrom n then
      match s.ringTake n with
      | (.idle, _) => s
      | (it, s1) => State.takeItems n k (s1.takeItem n it)
    else s

/-- A command is given: its packet goes through its ring to the sequencer, in turn with what stands in the ring before it; its entry is dispatched, and
its key's queue is worked off up to it. A command the sequencer does not take now waits in the ring, or in a boundary hold with the other inputs
(R27, R51, R77). -/
def State.giveCommand (s : State) (src code target : Nat) (body : Bytes) : State :=
  let (n, i) := s.cmdInput src code target body
  let s0 := s.offer n i
  let s1 := (State.takeItems n ((s0.ring n).cnt + 1) s0).dispatchAll
  match (s1.seq.journal.drop s.seq.journal.length).find? fun e => e.kind == .mgmtCmd && e.payload == i.payload with
  | some e => (keysOf s1.cfg e).foldl (fun a k => State.workKey k e.jsn (2 * a.tasksUsed + 4) a) s1
  | none => s1

/-- TARGET of a command that names a slot (R460). -/
def slotTarget (i : Nat) : Nat := i % 131072 + 131072

/-- A security command (R522, R544, R551): in alarm hold the ROM runs it and a keyless unit runs it unjournaled, else it is an ordinary command. -/
def State.giveSecurity (s : State) (src code : Nat) (sig : Bytes) : State :=
  if s.pow.phase = .alarmHold then (s.holdCommand code (fit 64 sig)).2.2 s
  else if s.pow.phase = .keyless then (s.directCommand s.sec.opk code (fit 64 sig)).2 s
  else s.giveCommand src code 0 (fit 64 sig)

/-- ROSTER_ADD (R156, R460). -/
def execRosterAdd (src : Nat) (i : Fin 131072) (eui cls med grp : Nat) (wkey : Bytes) (s : State) : Host.Outcome State Fault Refusal :=
  .next (s.giveCommand src 0x01 (slotTarget i.val) (be 8 eui ++ le 1 cls ++ le 1 med ++ le 2 grp ++ fit 24 wkey))

/-- ROSTER_DECOM (R156). -/
def execRosterDecom (src : Nat) (i : Fin 131072) (s : State) : Host.Outcome State Fault Refusal :=
  .next (s.giveCommand src 0x02 (slotTarget i.val) [])

/-- ROSTER_RELEASE (R156, R158). -/
def execRosterRelease (src : Nat) (i : Fin 131072) (s : State) : Host.Outcome State Fault Refusal :=
  .next (s.giveCommand src 0x03 (slotTarget i.val) [])

/-- ROSTER_SET (R156, R157). -/
def execRosterSet (src : Nat) (i : Fin 131072) (cls grp : Nat) (s : State) : Host.Outcome State Fault Refusal :=
  .next (s.giveCommand src 0x04 (slotTarget i.val) (le 1 cls ++ le 1 0 ++ le 2 grp))

/-- CLOSE_NOW (R241, R242). -/
def execCloseNow (src : Nat) (s : State) : Host.Outcome State Fault Refusal := .next (s.giveCommand src 0x10 0 [])

/-- READOUT (R254, R257). -/
def execReadout (src : Nat) (s : State) : Host.Outcome State Fault Refusal := .next (s.giveCommand src 0x11 0 [])

/-- CKPT_NOW (R68, R460). -/
def execCmdCkptNow (src : Nat) (s : State) : Host.Outcome State Fault Refusal := .next (s.giveCommand src 0x12 0 [])

/-- HOLD_END (R26, R52): the command is journaled; its commit ends the boundary hold. -/
def execHoldEnd (src : Nat) (s : State) : Host.Outcome State Fault Refusal := .next (s.giveCommand src 0x13 0 [])

/-- TIME_SET (R483, R484). -/
def execTimeSet (src time : Nat) (s : State) : Host.Outcome State Fault Refusal := .next (s.giveCommand src 0x20 0 (le 8 time))

/-- METER_SET (R301, R322). -/
def execMeterSet (src sel pga0 pga1 pga2 pga3 : Nat) (s : State) : Host.Outcome State Fault Refusal :=
  .next (s.giveCommand src 0x30 0 (le 1 sel ++ le 1 pga0 ++ le 1 pga1 ++ le 1 pga2 ++ le 1 pga3 ++ le 3 0))

/-- PUSH (R424, R425). -/
def execPush (src : Nat) (i : Fin 131072) (id att dtype : Nat) (payload : Bytes) (s : State) : Host.Outcome State Fault Refusal :=
  .next (s.giveCommand src 0x40 (slotTarget i.val) (le 2 id ++ le 1 att ++ le 1 dtype ++ payload))

/-- FW_DECLARE (R436, R437). -/
def execFwDeclare (src image blocks length : Nat) (digest : Bytes) (mask : Nat) (s : State) : Host.Outcome State Fault Refusal :=
  .next (s.giveCommand src 0x41 0 (le 2 image ++ le 2 blocks ++ le 4 length ++ fit 32 digest ++ le 2 mask ++ le 2 0))

/-- FW_LOAD (R437). -/
def execFwLoad (src image block : Nat) (data : Bytes) (s : State) : Host.Outcome State Fault Refusal :=
  .next (s.giveCommand src 0x42 0 (le 2 image ++ le 2 block ++ fit 128 data))

/-- FW_SEND (R438). -/
def execFwSend (src image round med first last ttl : Nat) (s : State) : Host.Outcome State Fault Refusal :=
  .next (s.giveCommand src 0x43 0 (le 2 image ++ le 1 round ++ le 1 med ++ le 2 first ++ le 2 last ++ le 1 ttl ++ le 3 0))

/-- FW_DELETE (R437). -/
def execFwDelete (src image : Nat) (s : State) : Host.Outcome State Fault Refusal :=
  .next (s.giveCommand src 0x44 0 (le 2 image ++ le 2 0))

/-- KEY_ROLL (R517). -/
def execKeyRoll (src purpose : Nat) (s : State) : Host.Outcome State Fault Refusal :=
  .next (s.giveCommand src 0xF00 0 (le 1 purpose ++ le 3 0))

/-- COMMISSION (R551). -/
def execCommission (src : Nat) (sig : Bytes) (s : State) : Host.Outcome State Fault Refusal := .next (s.giveSecurity src 0xF01 sig)

/-- LC_FIELD (R547, R551). -/
def execLcField (src : Nat) (sig : Bytes) (s : State) : Host.Outcome State Fault Refusal := .next (s.giveSecurity src 0xF02 sig)

/-- LC_RETURN (R547, R551). -/
def execLcReturn (src : Nat) (sig : Bytes) (s : State) : Host.Outcome State Fault Refusal := .next (s.giveSecurity src 0xF03 sig)

/-- LC_SCRAP (R547, R551). -/
def execLcScrap (src : Nat) (sig : Bytes) (s : State) : Host.Outcome State Fault Refusal := .next (s.giveSecurity src 0xF04 sig)

/-- REARM (R545). -/
def execRearm (src : Nat) (sig : Bytes) (s : State) : Host.Outcome State Fault Refusal := .next (s.giveSecurity src 0xF05 sig)

end Sys2Proof.Machine
end

