-- ==== Sys2Proof/Machine/Radio.lean ====
section
/-! DEFINITION. The radio commands (R325 to R380). -/
namespace Sys2Proof.Machine

/-- Airtime of a waiting ACK. -/
def State.ackTime (s : State) (a : PendAck) : Nat := s.ackAir a.mode (if a.join.isSome then ackLen + 11 else ackLen)

/-- Whether a waiting ACK goes out at its instant: the radio may transmit, the transmitter is not busy and the budget holds the ACK's airtime (R346, R347). -/
def State.ackGoes (s : State) (a : PendAck) : Bool :=
  s.radTx && !s.txBusy (s.t - s.paLead) (s.t + s.ackTime a) && s.ackPays (s.txCost (s.ackTime a))

/-- Whether the receive channels are blind somewhere from `a` to `b`: from the start of PA ramp-up, for an ACK from the start of the turn-around 60 µs before,
until 50 µs after the last symbol (R327, R345). An ACK and a DOWN that wait ramp up before their instant. -/
def State.blind (s : State) (a b : Nat) : Bool :=
  (s.txSpans.any fun x => x.onAir s.paLead (usU 50) a b) ||
    (s.rad.acks.any fun k => ((s.until k.due).payTrain).ackGoes k && (TxSpan.onAir { from_ := k.due, air := s.ackTime k } (s.paLead + usU 60) (usU 50) a b)) ||
    (match s.rad.xch with
     | some x => decide (x.step = .down) && s.radTx && s.downWaits x.slot && (TxSpan.onAir { from_ := x.due, air := 1 } s.paLead (usU 50) a b)
     | none => false)

/-- RADIO_FRAME_RECEIVE (R327, R332, R334, R344, R348, R352, R353, R369): a frame ends on a receive channel, `dt` later. One that began while the receivers
were blind is not received; one that a transmission cuts is counted. -/
def execRadioFrameReceive (dt : Nat) (chan : Fin 8) (rssi : Int) (modeSw fcs4 dw : Bool) (psdu : Bytes) (s : State) :
    Host.Outcome State Fault Refusal :=
  let s1 := s.advance dt
  if s1.bitOf rRadCtl 0 && s1.bitOf (rRadRxch chan.val) 15 then
    let mode := s1.fld (rRadRxch chan.val) 14 12
    let start := s1.t - octets mode (8 + psdu.length)
    if s1.blind start (start + 1) || (match s1.rad.cutAt with | some c => decide (start ≤ c) | none => false) then .next s1
    else if s1.blind start s1.t then .next (s1.count rRadRxabort 1)
    else if modeSw ∨ psdu.length < 11 ∨ 511 < psdu.length then .next (s1.count rRadBadfrm 1)
    else
      match psduFrame fcs4 dw psdu with
      | none => .next (s1.count rRadFcserr 1)
      | some b => .next (State.radCheck 64 s1 { chan := chan.val, mode := mode, rssi := rssi, fcs4 := fcs4, dw := dw, start := start } false b)
  else .next s1

/-- The acknowledgement whose instant comes first: the earlier instant, then the lower channel (R347). -/
def firstAck (l : List PendAck) : Option PendAck :=
  l.foldl (fun m a => match m with
    | none => some a
    | some b => if a.due < b.due ∨ (a.due = b.due ∧ a.chan < b.chan) then some a else some b) none

/-- The exchange ends because its DATA got no ACK (R349, R350). -/
def State.ackLost (s : State) (a : PendAck) : State :=
  match s.rad.xch with | some x => if a.xch then s.xchEnd x else s | none => s

/-- When an ACK that leaves the antenna at an instant leaves the RF ball: RAD_PHY.ACK_TRIM takes out the delay of what lies between, positive for earlier
(R344). DESIGN CHOICE for the sign. -/
def State.ackBall (s : State) (t : Nat) : Nat := ((t : Int) - signed 8 (s.fld rRadPhy 23 16) * second / 10000000).toNat

/-- RADIO_ACK_SEND (R343 to R347, R348, R350, R371, R376): the instant of the earliest waiting ACK comes. -/
def execRadioAckSend (s : State) : Host.Outcome State Fault Refusal :=
  match firstAck s.rad.acks with
  | none => .next s
  | some a =>
    let s1 := ((s.until a.due).setRad fun r => { r with acks := r.acks.erase a }).payTrain
    if s1.radTx = false then .next (s1.ackLost a)
    else
      let dpend := match a.slot with | some i => s1.downWaits i | none => false
      let frame := ackFrame a dpend
      let air := s1.ackTime a
      if s1.ackGoes a = false then .next (((s1.count rRadAckmiss 1).irq rRadIrq 1).ackLost a)
      else
        let ch := s1.fld (rRadRxch a.chan) 11 0 + a.mode * 4096
        let s2 := (s1.radSendAt ch air (s1.fld rRadPhy 12 8) (s1.ackBall s1.t) frame).retrain
        let s3 := match a.join, a.slot with
          | some _, some i => if a.verd = 0 then s2.setPoll i { s2.poll i with joinAt := some (s2.t + second, ch) } else s2
          | _, _ => s2
        match s3.rad.xch with
        | some x =>
          if a.xch then
            let x1 := { x with acked := true }
            let end_ := s3.t + air
            if a.cont then .next (s3.setRad fun r => { r with xch := some { x1 with step := .cont, due := end_ + usU 4000 } })
            else if dpend then .next (s3.setRad fun r => { r with xch := some { x1 with step := .down, due := end_ + usU 1000 } })
            else .next (s3.xchDone x1)
          else .next s3
        | none => .next s3

/-- WAKE_TRAIN_START (R355, R357, R360, R371 to R373): the train start of a slot's planned poll comes; the train begins, or the poll is
deferred. -/
def execWakeTrainStart (i : Fin 131072) (s : State) : Host.Outcome State Fault Refusal :=
  if s.radTx && s.pollable i.val && !s.wantsFull i.val && (s.poll i.val).joinAt.isNone then
    match s.planPoll i.val with
    | none => .next s
    | some p =>
      let s1 := s.untilDev ((p.tp - p.g) * 32768)
      let rc := s1.radClass (s1.slot i.val).cls
      let (per, air, n) := s1.planTrain rc p
      let end_ := s1.t + trainEnd rc false per air n
      let cost := n * s1.txCost air
      if s1.rad.xch.isSome || s1.txBusy (s1.t - s1.paLead) end_ || s1.overlapped i.val p s1.dev (s1.dev + (end_ - s1.t)) ||
          !s1.txPays (cost + s1.exchangeCost i.val rc.form) then .next (s1.defer i.val p.w)
      else
        let x : Exchange := { slot := i.val, full := false, wake := p.w, due := end_, from_ := s1.t, period := per, air := air, count := n,
                              maxF := atLeast1 rc.maxF }
        let ch := rc.txCh + rc.txMode * 4096
        let s2 := (s1.charge cost).emit (if rc.form then .train ch i.val s1.t per n end_ else .preamble ch s1.t end_)
        .next (s2.setRad fun r => { r with xch := some x })
  else .next s

/-- FULL_TRAIN_START (R363, R366, R371, R372): the slot that waits longest since its last miss gets its recovery full train at the first
free instant. -/
def execFullTrainStart (s : State) : Host.Outcome State Fault Refusal :=
  let waiting := sortBy (fun (a b : Nat × Nat) => decide (a.1 < b.1) || (decide (a.1 = b.1) && decide (a.2 < b.2)))
    (((s.ctx.slots.map (·.1)).filter s.wantsFull).map fun i => ((s.poll i).lastMiss, i))
  match waiting with
  | [] => .next s
  | (_, i) :: _ =>
    let x := s.slot i
    let rc := s.radClass x.cls
    let air := s.frameAir rc.txMode wakeLen
    let per := msU rc.listenFt - air - s.ackAir rc.txMode ackLen
    let n := trainFrames (x.wakeS * second * 11 / 10) air per
    if s.radTx && s.rad.xch.isNone && !s.txBusy (s.t - s.paLead) (s.t + air) && s.txPays (s.txCost air) && decide (0 < per) then
      let e : Exchange := { slot := i, full := true, wake := (s.nextWake i).getD (s.dev / 32768), due := s.t + trainEnd rc true per air n,
                            from_ := s.t, period := per, air := air, count := n, maxF := atLeast1 rc.maxF }
      let s1 := s.setRad fun r => { r with xch := some e }
      .next (((s1.retrain).count rRadFtcnt 1).irq rRadIrq 2)
    else .next s

/-- The POLL of an exchange leaves now (R337, R348). -/
def State.sendPoll (s : State) (x : Exchange) (ch air : Nat) : State :=
  let e := s.slot x.slot
  let rc := s.radClass e.cls
  let at_ := (s.dev + air) / 32768
  let pre := if rc.form || x.full then s.fld rRadPhy 7 0 else 0
  let frame := pollFrame (x.slot + 1) at_ (wph x.slot e.wakeS) (atLeast1 rc.maxF) rc.pollDiv (s.downWaits x.slot)
  (s.radSendAt ch air pre s.t frame).setRad fun r =>
    { r with xch := some { x with step := .polled, due := s.t + air + usU 3000, pt := at_ % 4294967296, ptAt := at_, maxF := atLeast1 rc.maxF } }

/-- The first POLL of a joined endpoint: the entry whose time runs out first (R376). -/
def State.joinedFirst (s : State) : Option (Nat × Nat × Nat) :=
  s.rad.polls.foldl (fun m p => match p.2.joinAt with
    | none => m
    | some (d, ch) =>
      if s.pollable p.1 then (match m with | some (_, d0, _) => if d < d0 then some (p.1, d, ch) else m | none => some (p.1, d, ch)) else m) none

/-- POLL_SEND (R337, R348, R360, R372, R376): the train ends and the POLL goes out, or a full train that its budget cut short ends without
one; while no exchange runs, a joined endpoint gets its first POLL without a train. -/
def execPollSend (s : State) : Host.Outcome State Fault Refusal :=
  match s.rad.xch with
  | some x =>
    if x.step = .train then
      let s1 := (s.until x.due).payTrain
      let rc := s1.radClass (s1.slot x.slot).cls
      let ch := rc.txCh + rc.txMode * 4096
      let s2 := if x.full then s1.emit (.train ch x.slot x.from_ x.period x.count (x.from_ + trainEnd rc true x.period x.air x.count)) else s1
      let s3 := (s2.noteTx x.span).setRad fun r => { r with xch := none }
      if x.aborted then .next s3
      else if s3.radTx then .next (s3.sendPoll x ch (s3.pollAir rc (rc.form || x.full)))
      else if x.full then .next s3
      else .next (s3.defer x.slot x.wake)
    else .next s
  | none =>
    match s.joinedFirst with
    | none => .next s
    | some (i, _, ch) =>
      let air := s.frameAir (ch / 4096) pollLen
      if s.radTx && !s.txBusy (s.t - s.paLead) (s.t + air) && s.txPays (s.exchangeCost i true) then
        let s1 := s.setPoll i { s.poll i with joinAt := none }
        .next (s1.sendPoll { slot := i, full := false, wake := s.dev / 32768, due := s.t } ch air)
      else .next s

/-- EXCHANGE_TIMEOUT (R349, R350, R362, R363): the frame an exchange expects does not start in time. -/
def execExchangeTimeout (s : State) : Host.Outcome State Fault Refusal :=
  match s.rad.xch with
  | some x =>
    match x.step with
    | .polled => .next ((s.until x.due).xchMiss x)
    | .cont => .next (let s1 := s.until x.due; if x.acked then s1.xchDone x else s1.xchEnd x)
    | _ => .next s
  | none => .next s

/-- RADIO_DOWN_SEND (R348, R351): 1,000 µs after the last ACK the DOWN goes out; it is attempted once. -/
def execRadioDownSend (s : State) : Host.Outcome State Fault Refusal :=
  match s.rad.xch with
  | some x =>
    if x.step = .down then
      let s1 := s.until x.due
      let rc := s1.radClass (s1.slot x.slot).cls
      match s1.rad.downs.find? fun d => d.slot == x.slot with
      | some d =>
        let air := s1.frameAir rc.txMode d.frame.length
        if s1.radTx && !s1.txBusy (s1.t - s1.paLead) (s1.t + air) && s1.txPays (s1.txCost air) then
          let s2 := s1.radSend (rc.txCh + rc.txMode * 4096) air d.frame
          .next (s2.setRad fun r => { r with downs := r.downs.filter fun y => y.slot ≠ x.slot,
                                             xch := some { x with step := .downSent, push := d.push, due := s2.t + air + usU 2000 } })
        else .next (s1.xchDone x)
      | none => .next (s1.xchDone x)
    else .next s
  | none => .next s

/-- RADIO_DOWN_NOACK (R351): no ACK starts within 2 ms of the DOWN's end. -/
def execRadioDownNoack (s : State) : Host.Outcome State Fault Refusal :=
  match s.rad.xch with
  | some x =>
    if x.step = .downSent then
      let s1 := s.until x.due
      .next ((s1.notice false x.slot 3 x.push (x.wake % 4294967296)).xchDone x)
    else .next s
  | none => .next s

/-- The DOWN held longest. -/
def oldestDown (l : List HeldDown) : Option HeldDown :=
  l.foldl (fun m d => match m with | none => some d | some b => if d.since < b.since then some d else some b) none

/-- RADIO_DOWN_EXPIRED (R373): the DOWN held longest has waited RAD_DNWAIT.HOURS. -/
def execRadioDownExpired (s : State) : Host.Outcome State Fault Refusal :=
  match oldestDown s.rad.downs with
  | none => .next s
  | some d =>
    let s1 := s.until (d.since + s.fld rRadDnwait 9 0 * 3600 * second)
    let s2 := s1.setRad fun r => { r with downs := r.downs.erase d }
    .next (s2.notice false d.slot 4 d.push ((s2.nextWake d.slot).getD (s2.dev / 32768) % 4294967296))

/-- The Q2 packet of a TYPE, if it stands at the head: its words; a packet of no TYPE of R374 is discarded and counted (R374). -/
def State.radPacket (s : State) (ty : Nat) : Option (List Word) × State :=
  if s.bitOf rRadCtl 0 then
    match s.ringPeek 2 with
    | .packet _ t ws =>
      if t = ty then (some ws, s) else if t = 1 ∨ t = 2 ∨ t = 3 then (none, s) else (none, (s.ringTake 2).2.count rRadBadfrm 1)
    | _ => (none, s)
  else (none, s)

/-- DOWN frames a MAC holds at most (R374). -/
def downMax : Nat := 4096

/-- RAD_TX_DOWN (R374): the DOWN is held for its slot and replaces a waiting one; when 4,096 are held the packet waits. -/
def execRadTxDown (s : State) : Host.Outcome State Fault Refusal :=
  match s.radPacket 1 with
  | (none, s1) => .next s1
  | (some ws, s1) =>
    let i := bits 16 0 (ws.getD 0 0).toNat
    let rest := s1.rad.downs.filter fun d => d.slot ≠ i
    if downMax ≤ rest.length then .next (s1.irq rRadIrq 3)
    else
      let d : HeldDown := { slot := i, push := bits 15 0 (ws.getD 1 0).toNat, frame := ofWs (ws.drop 2), since := s1.t }
      let s2 := (s1.ringTake 2).2.setRad fun r => { r with downs := rest ++ [d] }
      .next (if rest.length + 1 = downMax then s2.irq rRadIrq 3 else s2)

/-- The radio class whose TX channel carries a frame of no class of its own: that of the slot it is addressed to, else the lowest class in
use. DESIGN CHOICE. -/
def State.caravanClass (s : State) (inner : Bytes) : RadClass :=
  match shortSlot (radioFrame inner).dst with
  | some i => s.radClass (s.slot i).cls
  | none => (s.cfg.radio.find? fun c => c ≠ {}).getD {}

/-- RAD_TX_CARAVAN (R367, R368, R369, R374, R375): the caravan goes out under the next CID, or waits in Q2 for the transmitter. -/
def execRadTxCaravan (s : State) : Host.Outcome State Fault Refusal :=
  match s.radPacket 2 with
  | (none, s1) => .next s1
  | (some ws, s1) =>
    let inner := ofWs (ws.drop 1)
    let rc := s1.caravanClass inner
    let cid := (s1.rad.cid + 1) % 65536
    let frame := caravanFrame cid (bits 2 0 (ws.getD 0 0).toNat) inner
    let air := s1.frameAir rc.txMode frame.length
    if s1.radTx && s1.rad.xch.isNone && !s1.txBusy (s1.t - s1.paLead) (s1.t + air) && s1.txPays (s1.txCost air) then
      let s2 := (s1.ringTake 2).2.setRad fun r => { r with cid := cid, seen := seenInsert r.seen 0 cid s1.t }
      .next (s2.radSend (rc.txCh + rc.txMode * 4096) air frame)
    else .next s1

/-- RAD_TX_POLL_NOW (R355, R374): the slot is polled at its next wake. -/
def execRadTxPollNow (s : State) : Host.Outcome State Fault Refusal :=
  match s.radPacket 3 with
  | (none, s1) => .next s1
  | (some ws, s1) =>
    let i := bits 16 0 (ws.getD 0 0).toNat
    let s2 := (s1.ringTake 2).2
    .next (s2.setPoll i { s2.poll i with next := some (wakeAfter i (s2.slot i).wakeS (s2.dev / 32768)) })

/-! ### The balls RF_PAEN and RF_LNAEN (R21, R326, R727) -/

/-- RF_PAEN: asserted from RAD_PA.LEAD_US before the first preamble symbol until 2 µs after the last symbol (R326); off until the radio is enabled (R21). -/
def State.rfPaen (s : State) : BallOut :=
  if s.bitOf rRadCtl 0 then ballLevel (s.txSpans.any fun x => x.onAir s.paLead (usU 2) s.t (s.t + 1)) (s.bitOf rRadPa 16) else .pull

/-- RF_LNAEN: asserted whenever the receiver runs and the transmitter does not (R326). -/
def State.rfLnaen (s : State) : BallOut :=
  if s.bitOf rRadCtl 0 then ballLevel (!s.txBusy s.t (s.t + 1)) (s.bitOf rRadPa 17) else .pull

/-- CARAVAN_CACHE_EXPIRY (R368, R409): 60 s after its insertion the oldest entry of a seen cache expires. -/
def execCaravanCacheExpiry (plc : Bool) (s : State) : Host.Outcome State Fault Refusal :=
  match (if plc then s.plc.seen else s.rad.seen) with
  | [] => .next s
  | x :: _ =>
    let s1 := s.until (x.at_ + 60 * second)
    if plc then .next { s1 with plc := { s1.plc with seen := seenLive s1.plc.seen s1.t } }
    else .next { s1 with rad := { s1.rad with seen := seenLive s1.rad.seen s1.t } }

end Sys2Proof.Machine
end

