-- ==== Sys2Proof/Machine/Plc.lean ====
section
/-! DEFINITION. The power-line commands (R381 to R417). -/
namespace Sys2Proof.Machine

/-- The feeder front end gives no reference phase, so the power line does (R478). -/
def State.plcRef (s : State) (p : Nat) : Bool := !s.fe.run && s.lowestLocked == some p

/-- With the front end off and no phase locked, FREE has no mains reference (R478). -/
def State.mainsCheck (s : State) : State := if !s.fe.run && s.lowestLocked.isNone then s.mainsLost else s

/-- ZC_EDGE (R382 to R385, R388, R392, R478): an edge on ZC_A to ZC_C, `dt` later; accepted as a crossing or ignored. `heard` is what the phase's receiver
integrated about the crossing before it. -/
def execZcEdge (dt : Nat) (phase : Fin 3) (rising : Bool) (heard : PulseEnergy) (s : State) : Host.Outcome State Fault Refusal :=
  let s1 := s.advance dt
  let p := phase.val
  if s1.phaseOn p then
    let at_ := ((s1.dev : Int) - signed 16 (s1.fld (rPlcZctrim p) 15 0) * second / 10000000).toNat
    let l := if rising then (s1.phase p).rises else (s1.phase p).falls
    if edgeOk (s1.phase p) l at_ then
      let s2 := s1.plcHear p heard
      let x := s2.phase p
      let y : PlcPhase := { x with rises := if rising then (at_ :: x.rises).take 9 else x.rises, last := some at_, count := x.count + 1,
                                   falls := if rising then x.falls else (at_ :: x.falls).take 9, pred := predicted l }
      let s3 := (s2.setPhase p y).setReg (rPlcZccnt p) ((s2.reg (rPlcZccnt p) + 1) % 4294967296)
      let s4 := match predicted l with
        | some q => s3.scoreCrossing p (decide (q ≤ at_ + usU 100) && decide (at_ ≤ q + usU 100))
        | none => s3
      let s5 := (s4.plcSymbol p).noteCoinc.mainsCheck
      .next (if rising && s5.plcRef p then s5.mainsCycle else s5)
    else .next s1
  else .next s1

/-- ZC_MISSING_CROSSING (R383, R384, R388, R392): the next predicted crossing of a phase passes with no accepted edge; the prediction runs on from it, and
with it the half-cycles. -/
def execZcMissingCrossing (phase : Fin 3) (heard : PulseEnergy) (s : State) : Host.Outcome State Fault Refusal :=
  let p := phase.val
  let x := s.phase p
  let rise : Option Bool := match predicted x.rises, predicted x.falls with
    | some a, some b => some (decide (a < b))
    | some _, none => some true
    | none, some _ => some false
    | none, none => none
  match rise with
  | none => .next s
  | some r =>
    if s.phaseOn p then
      let q := ((if r then predicted x.rises else predicted x.falls)).getD 0
      let s1 := (s.untilDev (q + usU 100)).plcHear p heard
      let x1 := s1.phase p
      let y : PlcPhase := { x1 with rises := if r then (q :: x1.rises).take 9 else x1.rises, count := x1.count + 1,
                                    falls := if r then x1.falls else (q :: x1.falls).take 9, pred := some q }
      .next (((s1.setPhase p y).scoreCrossing p false).plcSymbol p).noteCoinc.mainsCheck
    else .next s

/-- PLC_FRAME_RECEIVE (R384, R388 to R393, R395, R398, R399, R409 to R411): the last symbol of a frame arrives on a phase, `dt` later; `heard` is what its
receiver integrated in each half-cycle from the PHR's first symbol on. A frame whose symbols meet the phase's own windows is lost (R389). -/
def execPlcFrameReceive (dt : Nat) (phase : Fin 3) (heard : List PulseEnergy) (s : State) : Host.Outcome State Fault Refusal :=
  let s1 := s.advance dt
  let p := phase.val
  let x := s1.phase p
  if s1.phaseOn p && x.locked then
    let s2 := s1.setPhase p { x with cr := x.count + 64 }
    let d := plcDecode heard
    match d.len with
    | none => .next (s2.count rPlcBadfrm 1)
    | some len =>
      let bytes := d.mpdu.take (len - 4)
      if x.count < x.txEnd + (34 + nPad len) ∧ 0 < x.txEnd then .next s2
      else if d.mpdu.drop (len - 4) ≠ le 4 (crc32 bytes) then .next (s2.count rPlcFcserr 1)
      else
        let again := match s2.plc.lastRx with
          | some l => l.phase ≠ p && l.bytes == bytes && decide (s2.t < l.at_ + msU 2) && coincidentWith x (s2.phase l.phase)
          | none => false
        if again then .next s2
        else
          let s3 := s2.setPlc fun y => { y with lastRx := some { phase := p, at_ := s2.t, bytes := bytes } }
          let r : PlcRx := { p := p, phase := if s3.coincident p then 3 else p, qual := plcQual (heard.take (22 + nPad len)), err := d.err }
          .next (State.plcCheck 16 s3 r false (plcFrame bytes))
  else .next s1

/-- PLC_SHORT_ACK_SEND (R397 to R399, R413): crossing X + 4 of a phase comes and the short ACK goes out. -/
def execPlcShortAckSend (phase : Fin 3) (s : State) : Host.Outcome State Fault Refusal :=
  let p := phase.val
  let x := s.phase p
  match s.plc.shorts.find? fun a => a.phase == p && decide (a.at_ ≤ x.count) with
  | none => .next s
  | some a =>
    let s1 := s.setPlc fun y => { y with shorts := y.shorts.erase a }
    if s1.plcTx = false then .next s1
    else if x.locked = false ∨ x.sending ≠ [] then .next (s1.count rPlcAckmiss 1)
    else
      let slots := plcShortSlots (shortWord a.seq a.verd a.dpend a.ltx)
      let s2 := s1.setPhase p { x with txEnd := x.count + 59, cr := x.count + 63, sending := slots }
      .next ((s2.emit (.plc p slots)).plcSymbol p)

/-- PLC_SHORT_ACK_RECEIVE (R397, R398, R402): a short ACK arrives, whose 48 symbols its receiver heard; when CHK fits the coordinator's LTX it ends the attempts of the frame it
acknowledges, unless it says BUSY. -/
def execPlcShortAckReceive (dt : Nat) (phase : Fin 3) (heard : List PulseEnergy) (s : State) : Host.Outcome State Fault Refusal :=
  let s1 := s.advance dt
  let p := phase.val
  let x := s1.phase p
  if s1.phaseOn p && x.locked then
    let s2 := s1.setPhase p { x with cr := x.count + 4 }
    let v := shortDecode heard
    if bits 31 24 v = shortChk (bits 23 0 v) 0 ∧ bits 18 16 v ≠ 2 then
      .next (s2.setPlc fun y =>
        { y with txq := y.txq.filter fun f =>
            !(f.phase == p && f.seq % 65536 == bits 15 0 v && (match f.sentX with | some X => decide (x.count ≤ X + 63) | none => false)) })
    else .next s2
  else .next s1

/-- PLC_ACK_TIMEOUT (R402): no valid short ACK came by X + 63; the frame is retried, up to RETRY times. -/
def execPlcAckTimeout (phase : Fin 3) (s : State) : Host.Outcome State Fault Refusal :=
  let p := phase.val
  let due (f : PlcTx) : Bool := f.phase == p && (match f.sentX with | some X => decide (X + 63 ≤ (s.phase p).count) | none => false)
  match s.plc.txq.find? due with
  | none => .next s
  | some f =>
    if f.tries < s.fld rPlcRxcfg 10 8 then
      .next ((s.setPlc fun y => { y with txq := y.txq.map fun g => if g = f then { f with sentX := none, tries := f.tries + 1 } else g }).count
        rPlcRetrycnt 1)
    else .next (s.setPlc fun y => { y with txq := y.txq.erase f })

/-- With nothing sent by CR + 32 the contention reference moves on (R400). -/
def PlcPhase.rollCr (x : PlcPhase) : PlcPhase := { x with cr := x.cr + (x.count - x.cr) / 32 * 32 }

/-- The frame of a phase that contends next: the lowest priority number, then the oldest. -/
def State.contender (s : State) (p : Nat) : Option PlcTx :=
  (s.plc.txq.filter fun f => f.phase == p && f.sentX.isNone).foldl (fun m f => match m with
    | none => some f
    | some g => if f.prio < g.prio then some f else some g) none

/-- A frame goes out at this crossing (R392, R398, R402, R403, R408). -/
def State.plcSend (s : State) (p : Nat) (f : PlcTx) : State :=
  let x := s.phase p
  let n := plcHalves f.mpdu
  let X := x.count + n - 1
  let end_ := (n - 1) * x.half
  let mpdu := if f.beacon then f.mpdu.take 15 ++ le 8 (x.crossing.getD s.dev + end_) ++ f.mpdu.drop 23 else f.mpdu
  let slots := plcFrameSlots mpdu
  let s1 := ((s.setPhase p { x with txEnd := X, cr := X + 64, sending := slots }).emit (.plc p slots)).plcSymbol p
  let s2 := s1.setPlc fun y =>
    { y with txq := if f.ackreq then y.txq.map fun g => if g = f then { f with sentX := some X } else g else y.txq.erase f }
  match f.down with
  | some (slot, push, dcnt) =>
    if f.tries = 0 then
      s2.setPlc fun y => { y with downs := y.downs.filter fun d => d.slot ≠ slot,
                                  sent := (y.sent.filter fun d => d.slot ≠ slot) ++ [{ slot := slot, push := push, dcnt := dcnt, since := s.t + end_ }] }
    else s2
  | none => s2

/-- PLC_CONTEND (R384, R398, R400, R401, R413): the contention start of a phase comes with the random number drawn; nothing sensed since CR, the
frame goes out; a pulse sensed since then has moved CR on, and the frame is deferred. -/
def execPlcContend (phase : Fin 3) (r : Fin 8) (s : State) : Host.Outcome State Fault Refusal :=
  let p := phase.val
  let x := (s.phase p).rollCr
  match s.contender p with
  | none => .next s
  | some f =>
    let s1 := s.setPhase p x
    if s.plcTx && s.phaseOn p && x.locked && x.sending.isEmpty && decide (x.cr + 8 * f.prio + r.val = x.count) then .next (s1.plcSend p f)
    else .next s1

/-- PLC_BEACON (R401, R403, R413): the beacon period expires; a BEACON is queued on each locked phase. -/
def execPlcBeacon (s : State) : Host.Outcome State Fault Refusal :=
  if s.bitOf rPlcCtl 0 then
    let s1 := s.until s.plc.beaconAt
    let s2 := s1.setPlc fun y => { y with beaconAt := s1.t + s1.fld rPlcBeacon 11 0 * second }
    if s2.plcTx then
      let seq := (s2.fld rPlcBeacon 31 16 + 1) % 65536
      let s3 := s2.setFld rPlcBeacon 31 16 seq
      let body := le 8 0 ++ le 1 0 ++ le 1 (s3.fld rPlcBeacon 15 12) ++ le 2 seq
      let mpdu := plcHead (8 + 256) 0xFFFFFF 0 0xFFFFFF (s3.fld rPlcRxcfg 14 12) [] ++ body
      .next (s3.plcQueue ((List.range 3).filter fun p => (s3.phase p).locked) { phase := 0, prio := 2, ackreq := false, mpdu := mpdu, beacon := true })
    else .next s2
  else .next s

/-- PLC_DOWN_NOACK (R408): no end-to-end ACK came within 60 s of the DOWN's last symbol. -/
def execPlcDownNoack (s : State) : Host.Outcome State Fault Refusal :=
  match s.plc.sent with
  | [] => .next s
  | d :: r =>
    let s1 := (s.until (d.since + 60 * second)).setPlc fun y => { y with sent := r }
    .next (s1.notice true d.slot 3 d.push 0)

/-- PLC_DOWN_EXPIRED (R408): the DOWN held longest has waited PLC_DNWAIT.HOURS. -/
def execPlcDownExpired (s : State) : Host.Outcome State Fault Refusal :=
  match oldestDown s.plc.downs with
  | none => .next s
  | some d =>
    let s1 := s.until (d.since + s.fld rPlcDnwait 9 0 * 3600 * second)
    let s2 := s1.setPlc fun y =>
      { y with downs := y.downs.erase d,
               txq := y.txq.filter fun f => match f.down with | some (i, _, _) => i ≠ d.slot || f.sentX.isSome | none => true }
    .next (s2.notice true d.slot 4 d.push 0)

/-- The Q4 packet of a TYPE, if it stands at the head; a packet of no TYPE of R374 is discarded and counted (R374, R409). -/
def State.plcPacket (s : State) (ty : Nat) : Option (List Word) × State :=
  if s.bitOf rPlcCtl 0 then
    match s.ringPeek 4 with
    | .packet _ t ws =>
      if t = ty then (some ws, s) else if t = 1 ∨ t = 2 ∨ t = 3 then (none, s) else (none, (s.ringTake 4).2.count rPlcBadfrm 1)
    | _ => (none, s)
  else (none, s)

/-- A route walk failed: the frame is dropped (R406). -/
def State.routeFail (s : State) (i push : Nat) : State := ((s.count rPlcRoutefail 1).irq rPlcIrq 2).notice true i 5 push 0

/-- PLC_TX_DOWN (R374, R406, R408, R409): the DOWN is held for its slot, source-routed and sent as contention allows; it replaces a waiting one. -/
def execPlcTxDown (s : State) : Host.Outcome State Fault Refusal :=
  match s.plcPacket 1 with
  | (none, s1) => .next s1
  | (some ws, s1) =>
    let i := bits 16 0 (ws.getD 0 0).toNat
    let push := bits 15 0 (ws.getD 1 0).toNat
    let rest := s1.plc.downs.filter fun d => d.slot ≠ i
    if downMax ≤ rest.length then .next (s1.irq rPlcIrq 3)
    else
      let s2 := (s1.ringTake 4).2.setPlc fun y =>
        { y with downs := rest, txq := y.txq.filter fun f => match f.down with | some (k, _, _) => k ≠ i || f.sentX.isSome | none => true }
      match s2.route i with
      | none => .next (s2.routeFail i push)
      | some relays =>
        let b := ofWs (ws.drop 2)
        let fc := Machine.fld 0 2 b
        let dcnt := Machine.fld 8 4 b
        let f : PlcTx := { phase := 0, prio := 1, ackreq := bit 5 fc, seq := dcnt, down := some (i, push, dcnt),
                           mpdu := plcDown s2 fc (Machine.fld 2 3 b) (Machine.fld 5 3 b) relays (b.drop 8) }
        let d : HeldDown := { slot := i, push := push, frame := b, since := s2.t }
        let s3 := (s2.setPlc fun y => { y with downs := y.downs ++ [d] }).plcQueue (s2.slotPhases i) f
        .next (if rest.length + 1 = downMax then s3.irq rPlcIrq 3 else s3)

/-- PLC_TX_CARAVAN (R367 to R369, R401, R409): the caravan is flooded on each locked phase under the next CID. -/
def execPlcTxCaravan (s : State) : Host.Outcome State Fault Refusal :=
  match s.plcPacket 2 with
  | (none, s1) => .next s1
  | (some ws, s1) =>
    if s1.plcTx then
      let cid := (s1.plc.cid + 1) % 65536
      let s2 := (s1.ringTake 4).2.setPlc fun y => { y with cid := cid, seen := seenInsert y.seen 0 cid s1.t }
      let body := le 3 0 ++ le 2 cid ++ le 1 (bits 2 0 (ws.getD 0 0).toNat) ++ ofWs (ws.drop 1)
      let mpdu := plcHead (7 + 256) 0xFFFFFF 0 0xFFFFFF (s2.fld rPlcRxcfg 14 12) [] ++ body
      .next (s2.plcQueue ((List.range 3).filter fun p => (s2.phase p).locked) { phase := 0, prio := 3, ackreq := false, mpdu := mpdu })
    else .next s1

/-- PLC_TX_REQ (R395, R401, R406, R409): a REQ with MAXF 32 goes to the slot. -/
def execPlcTxReq (s : State) : Host.Outcome State Fault Refusal :=
  match s.plcPacket 3 with
  | (none, s1) => .next s1
  | (some ws, s1) =>
    let i := bits 16 0 (ws.getD 0 0).toNat
    let s2 := (s1.ringTake 4).2
    match s2.route i with
    | none => .next (s2.routeFail i 0)
    | some relays =>
      .next (s2.plcQueue (s2.slotPhases i)
        { phase := 0, prio := 1, ackreq := true, mpdu := plcDown s2 (9 + 256 + 32) (i + 1) 0 relays (le 1 32 ++ le 3 0) })

end Sys2Proof.Machine
end

