-- ==== Sys2Proof/Machine/Recovery.lean ====
section
/-! DEFINITION. The requests of the recovery protocol but for replay (R544, R550, R691 to R694). -/
namespace Sys2Proof.Machine

/-- An answer of the recovery protocol (R693): 0xA5, OP + 0x80, LEN, DATA with the status byte first, CRC-32 over OP, LEN and DATA. -/
def recFrame (op status : Nat) (data : Bytes) : Bytes :=
  let d := le 1 status ++ data
  let b := le 1 (op + 0x80) ++ le 2 d.length ++ d
  le 1 0xA5 ++ b ++ le 4 (crc32 b)

/-- The ROM answers a request. -/
def State.recAnswer (s : State) (op status : Nat) (data : Bytes := []) : State := s.emit (.recovery (recFrame op status data))

/-- The ROM answers the requests of recovery mode (R692). -/
def State.inRecovery (s : State) : Bool := s.pow.phase == .recovery

/-! ### STATUS -/

/-- The pointer table in force as it stands in the NOR; with no valid copy its bytes in the answer are a free value. -/
def State.ptAnswer (s : State) : Bytes × State :=
  match s.nor.inForce with
  | some t => (norBytes (if t.copy = 0 then s.nor.pt0 else s.nor.pt1) 0 64, s)
  | none => let (v, s1) := s.free; (le 64 v, s1)

/-- DATA of a STATUS answer after its status byte (R693). -/
def State.statusData (s : State) (pt : Bytes) : Bytes :=
  le 1 s.boot.rcause ++ le 1 s.sec.otp.lc.code ++ le 1 s.sec.otp.svn ++ pt ++ s.unitId

/-- Whether STATUS is answered: in recovery, in alarm hold, in SCRAPPED (R544, R550, R693, R712). -/
def State.tellsStatus (s : State) : Bool := s.inRecovery || s.pow.phase == .alarmHold || s.pow.phase == .scrapped

/-- STATUS (R693). -/
def execStatus (s : State) : Host.Outcome State Fault Refusal :=
  if s.tellsStatus then let (pt, s1) := s.ptAnswer; .next (s1.recAnswer 1 0 (s.statusData pt)) else .next s

/-! ### Writing the NOR -/

/-- The sectors of 64 KiB that a write touches. -/
def sectorsOf (off n : Nat) : List Nat := (List.range (ceilDiv (off % 65536 + n) 65536)).map fun i => off / 65536 + i

/-- Erase the sectors of a part that this session has not yet erased, then program the bytes (R693). `part`: 0 slot A, 1 slot B, 2 configuration. -/
def writePart (m : List (Nat × Byte)) (erased : List (Nat × Nat)) (part off : Nat) (data : Bytes) : List (Nat × Byte) :=
  let fresh := (sectorsOf off data.length).filter fun k => !erased.contains (part, k)
  norProgram (fresh.foldl (fun a k => norErase a (65536 * k) (65536 * (k + 1))) m) off data

/-- Note the sectors a write touched. -/
def State.noteErased (s : State) (part off n : Nat) : State :=
  s.setBoot fun b => { b with erased := b.erased ++ ((sectorsOf off n).map fun k => (part, k)).filter fun x => !b.erased.contains x }

/-- Bytes of a firmware slot: header and the longest body, in whole sectors. -/
def fwSlotBytes : Nat := 33 * 65536

/-- WRITE_FW (R693): 1 to 4,096 bytes at an offset of a slot; refused for the slot PREF names while that slot passes R696. -/
def execWriteFw (slot off : Nat) (data : Bytes) (s : State) : Host.Outcome State Fault Refusal :=
  if s.inRecovery then
    if data.length = 0 ∨ 4096 < data.length then .next (s.recAnswer 2 2)
    else if 1 < slot ∨ fwSlotBytes < off + data.length ∨ (slot = s.nor.pref ∧ s.judgeSlotFw slot = 0) then .next (s.recAnswer 2 1)
    else
      let s1 := s.setNor fun n => n.setSlot slot (writePart (n.slot slot) s.boot.erased slot off data)
      .next ((s1.noteErased slot off data.length).recAnswer 2 0)
  else .next s

/-- WRITE_CFG (R693). -/
def execWriteCfg (off : Nat) (data : Bytes) (s : State) : Host.Outcome State Fault Refusal :=
  if s.inRecovery then
    if data.length = 0 ∨ 4096 < data.length then .next (s.recAnswer 3 2)
    else if 1048576 < off + data.length then .next (s.recAnswer 3 1)
    else
      let s1 := s.setNor fun n => { n with cfg := writePart n.cfg s.boot.erased 2 off data }
      .next ((s1.noteErased 2 off data.length).recAnswer 3 0)
  else .next s

/-- COMMIT_FW (R693, R703): the slot is judged; when it passes it becomes the preferred one on trial, and in OPEN is broadcast at the next service. -/
def execCommitFw (slot : Nat) (s : State) : Host.Outcome State Fault Refusal :=
  if s.inRecovery then
    if 1 < slot then .next (s.recAnswer 4 1 (le 1 1))
    else
      let r := s.judgeSlotFw slot
      if r ≠ 0 then .next (s.recAnswer 4 1 (le 1 r))
      else
        let s1 := s.setNor fun n => n.writePt slot true 3
        let s2 := if s1.sec.otp.lc = .open_ then s1.setBoot fun b => { b with bcast := some slot } else s1
        .next (s2.recAnswer 4 0 (le 1 0))
  else .next s

/-- CHECK_CFG (R693): the image in the configuration slot is judged under R681. -/
def execCheckCfg (s : State) : Host.Outcome State Fault Refusal :=
  if s.inRecovery then
    let r := judgeCfg s.sec.otp s.csvnFloor none s.nor.cfgImage
    .next (s.recAnswer 5 (if r = 0 then 0 else 1) (le 1 r))
  else .next s

/-- RESTART (R693, R694): the main domain resets after the answer; the cause that it shows is a free value. -/
def execRestart (s : State) : Host.Outcome State Fault Refusal :=
  if s.inRecovery then let (v, s1) := (s.recAnswer 6 0).free; .next (s1.mainReset .rom (v % 8)) else .next s

/-! ### LC_CMD -/

/-- OPK in recovery: that of the image in the NOR, when it passes R681. -/
def State.recoveryOpk (s : State) : Bytes :=
  if judgeCfg s.sec.otp s.csvnFloor none s.nor.cfgImage = 0 then
    match cfgSection s.nor.cfgImage 14 with | some b => sub 16 64 b | none => []
  else []

/-- What recovery mode makes of a security command (R551, R692). -/
def State.recoveryCommand (s : State) (code : Nat) (sig : Bytes) : Status × (State → State) := s.directCommand s.recoveryOpk code sig

/-- LC_CMD (R544, R551, R693): a command block of a security command; it runs after its answer. -/
def execLcCmd (block : Bytes) (s : State) : Host.Outcome State Fault Refusal :=
  let code := Machine.fld 0 2 block
  let sig := fit 64 (block.drop 8)
  let reply (r : Status × (State → State)) : State := r.2 (s.recAnswer 7 (if r.1 = .ok then 0 else 1) (le 1 r.1.code))
  if s.inRecovery || s.pow.phase == .alarmHold then
    if block.length ≠ 72 ∨ Machine.fld 2 2 block ≠ 64 then .next (s.recAnswer 7 2)
    else if s.inRecovery then .next (reply (s.recoveryCommand code sig))
    else let r := s.holdCommand code sig; .next (reply (r.1, r.2.2))
  else .next s

end Sys2Proof.Machine
end

