-- ==== Sys2Proof/Machine/Rings.lean ====
section
/-! DEFINITION. The ring commands (R77 to R107). -/
namespace Sys2Proof.Machine

/-- Rings whose producer side is grains, so that device code may write them through their registers (R77, R107). -/
def ringByGrains (n : Nat) : Bool := n == 2 || n == 4 || n == 6 || n == 8 || n == 10 || n == 14

/-- A write at a ring's producer registers (R107): only device code may make it; on a side that a hardware block owns it is
ignored; a refused write is a bus error (R87, R107); a write that finds no word waits (R78). -/
def State.portWrite (s : State) (p : Port) (n : Nat) (op : RingOp) : State :=
  match p with
  | .owner => (s.ringPort n false op).2
  | .reg w =>
    if w ≠ .dev then s.busErr w
    else if ringByGrains n then
      let r := s.ringPort n true op
      r.2.answer w (match r.1 with | .done => .done | .stalled => .waiting | .refused => .busError)
    else s.answer w .done

/-- QF_OPEN (R78, R84, R88, R89, R91, R92). -/
def execQfOpen (p : Port) (ring : Fin 16) (s : State) : Host.Outcome State Fault Refusal := .next (s.portWrite p ring.val .open_)

/-- QF_PUSH (R78, R87 to R90). -/
def execQfPush (p : Port) (ring : Fin 16) (v : Word) (s : State) : Host.Outcome State Fault Refusal := .next (s.portWrite p ring.val (.push v))

/-- QF_CLOSE (R84, R85, R89): TYPE is bits 23 to 16 of the value. -/
def execQfClose (p : Port) (ring : Fin 16) (v : Word) (s : State) : Host.Outcome State Fault Refusal :=
  .next (s.portWrite p ring.val (.close (bits 23 16 v.toNat)))

/-- QF_POP (R86, R95, R99, R107): the next visible word, or the idle item. Every ring's consumer side is a hardware block (R77), so at the registers
device code reads the idle item. -/
def execQfPop (p : Port) (ring : Fin 16) (s : State) : Host.Outcome State Fault Refusal :=
  match p with
  | .owner =>
    let r := s.ringPop ring.val
    .next (r.2.answer .dev (.data r.1))
  | .reg w => if w ≠ .dev then .next (s.busErr w) else .next (s.answer w (.data 0xF0000000#32))

/-- A write of 1 to QF_CTLn.DROP (R96, R107). -/
def State.portDrop (s : State) (p : Port) (n : Nat) : State :=
  match p with
  | .owner => s.ringDropRest n
  | .reg w => if w ≠ .dev then s.busErr w else s.answer w .done

/-- QF_DROP (R96, R107): the rest of the packet being read is skipped. -/
def execQfDrop (p : Port) (ring : Fin 16) (s : State) : Host.Outcome State Fault Refusal := .next (s.portDrop p ring.val)

/-- The captures queued on an input go to Q0 while it takes them (R501). -/
def State.evDrain (e : Nat) : Nat → State → State
  | 0, s => s
  | k + 1, s =>
    match s.tim.evq.getD e [] with
    | [] => s
    | c :: r =>
      if (s.ring 0).stalled then s
      else
        let i : Input := { kind := .evtCapture, stamp := c.1, payload := le 1 e ++ le 1 (if c.2 then 1 else 0) }
        State.evDrain e k (({ s with tim := { s.tim with evq := s.tim.evq.set e r } } : State).offer 0 i)

/-- RING_STALL_RELEASE (R78, R11, R501): a word frees on a stall-policy ring, and the producers that wait complete their writes in
order. -/
def execRingStallRelease (ring : Fin 16) (s : State) : Host.Outcome State Fault Refusal :=
  if ringDrops ring.val then .next s
  else
    let s1 := s.ringDrain ring.val
    if ring.val = 0 then .next ((List.range 4).foldl (fun a e => State.evDrain e 8 a) s1) else .next s1

/-- WADI_MARKER_WRITE (R91, R93): with drops pending, no packet open and a word free, the ring writes a wadi marker. -/
def execWadiMarkerWrite (ring : Fin 16) (s : State) : Host.Outcome State Fault Refusal :=
  .next (s.wadi ring.val)

/-- RING_STALE (R97, R98): the stale timer of a ring reaches QF_STALEn.US. -/
def execRingStale (ring : Fin 16) (s : State) : Host.Outcome State Fault Refusal :=
  let r := s.ring ring.val
  let us := s.fld (rQfStale ring.val) 23 0
  if us ≠ 0 ∧ 0 < r.cnt ∧ r.staleFired = false then
    let s1 := s.until (r.staleT + usU us)
    .next (((s1.setRing ring.val { s1.ring ring.val with staleFired := true }).irq rQfIrq ring.val).event 0x45 ring.val)
  else .next s

end Sys2Proof.Machine
end

