-- ==== Sys2Proof/Machine/Time.lean ====
section
/-! DEFINITION. The time commands: PTP (R473 to R482), steps (R483), the Oasis clock (R488 to R493), timed outputs (R494 to R499)
and capture inputs (R500, R501). -/
namespace Sys2Proof.Machine

/-- An Announce as a rank: the data set of the best master clock algorithm, then steps removed, then the port (R479). -/
def rankOf (m : AnnounceMsg) : List Nat := m.gm ++ [m.steps, m.src]

/-- A master that announced itself twice within four of its intervals qualifies, as IEEE 1588 has it (R479). -/
def Master.qualified (m : Master) (now : Nat) : Bool :=
  decide (2 ≤ (m.heard.filter fun t => decide (now ≤ t + 4 * m.interval)).length)

/-- The best qualified master. -/
def Tim.best (x : Tim) (now : Nat) : Option Master :=
  (sortBy (fun a b => lexLt a.rank b.rank) (x.masters.filter fun m => m.qualified now)).head?

/-- Select the best qualified master (R473, R477, R479). -/
def State.selectMaster (s : State) : State :=
  match s.tim.best s.t with
  | some m =>
    if s.tim.master = some m.src then s else (s.setTim fun x => { x with master := some m.src }).enterAcquire
  | none =>
    let s1 := s.setTim fun x => { x with master := none }
    if s.tim.servo = .acquire ∨ s.tim.servo = .locked then s1.enterHoldover else s1

/-- PTP_ANNOUNCE (R479, R482): a received Announce feeds the best master clock algorithm; other domains are ignored. -/
def execPtpAnnounce (dt : Nat) (m : AnnounceMsg) (s0 : State) : Host.Outcome State Fault Refusal :=
  let s := s0.advance dt
  if s.bitOf rTimCtl 1 && m.domain == s.fld rTimCtl 14 8 && decide (m.steps < 255) then
    let heard := match s.tim.masters.find? fun x => x.src == m.src with | some x => x.heard.drop (x.heard.length - 1) | none => []
    let e : Master := { src := m.src, rank := rankOf m, utc := m.utc, interval := m.interval, heard := heard ++ [s.t] }
    let s1 := (s.setTim fun x => { x with masters := (x.masters.filter fun y => y.src ≠ m.src) ++ [e] }).selectMaster
    .next (if s1.tim.servo = .locked ∧ s1.tim.master = some m.src then s1.checkUtc m.utc else s1)
  else .next s

/-- Device time in nanoseconds of the PTP epoch, 1970-01-01 TAI (R18, R479). -/
def ptpNow (dev : Nat) : Int := (dev * 1000000000 / second : Nat) + (946684800000000000 : Int)

/-- Nanoseconds as units of 2^-28 s, toward zero. -/
def unitsOfNs (n : Int) : Int := (n * (second : Int)).tdiv 1000000000

/-- The step right of a start: after the first eight measurements, step by their median or not (R474). DESIGN CHOICE: a boundary hold that runs then
ends first, as it does before a TIME_SET entry of any other source would have to wait for it (R51, R483). -/
def State.stepRight (s : State) : State :=
  if s.tim.stepUsed ∨ s.tim.servo ≠ .acquire ∨ s.tim.meas.length < 8 then s
  else
    let m := median s.tim.meas
    let us := s.fld rTimServo 15 0
    if s.seq.unsure ∨ (0 < us ∧ us * 1000 ≤ m.natAbs) then
      let s1 := s.endHold none
      let s2 := s1.stepTime (-(unitsOfNs m))
      if s2.seq.holder then s2.journalStep s1.dev 0 else s2
    else s.setTim fun x => { x with stepUsed := true }

/-- PTP_SYNC (R473 to R476, R481, R482): a Sync of the master, with the origin time in ns corrected by its correctionField, that
came in by port A, port B or, without a bridge, none. -/
def execPtpSync (dt src : Nat) (port : Fin 3) (origin : Int) (s0 : State) : Host.Outcome State Fault Refusal :=
  let s := (s0.advance dt).selectMaster
  if s.bitOf rTimCtl 1 && s.tim.master == some src then
    let p2p := s.bitOf rTimCtl 3
    let delay := if p2p then s.tim.linkDelay.getD port.val 0 else s.tim.mpd
    let off := ptpNow s.dev - origin - delay
    let sat := max (-(2 ^ 31)) (min (2 ^ 31 - 1) off)
    let interval := s.t - s.tim.lastSync
    let s1 := ((s.count rTimSynccnt 1).setReg rTimOffset (sat % 4294967296).toNat).setReg rTimMpd delay
    let s2 := s1.setTim fun x => { x with lastSync := s.t,
                                          meas := if x.servo = .acquire ∧ x.stepUsed = false then x.meas ++ [off] else x.meas }
    let s3 := s2.stepRight
    let (adj, integral) := Config.piLoop s3.tim.integral (ptpNow s3.dev - origin - delay) interval
    let s4 := (s3.setTim fun x => { x with integral := integral }).setRate adj
    let run := if off.natAbs < s.fld rTimLimits 15 0 then s4.tim.lockRun + 1 else 0
    let s5 := s4.setTim fun x => { x with lockRun := min 16 run }
    let s6 := if s5.tim.servo = .acquire ∧ 16 ≤ run then
        (((s5.setTim fun x => { x with servo := .locked, lastSave := s.t, calFrom := some (s5.t, s5.dev, s5.oas.raw) }).irq rTimIrq 0).checkUtc
          (match s5.tim.masters.find? fun m => m.src == src with | some m => m.utc | none => none))
      else s5
    if s.tim.stepUsed && decide (s.fld rTimAlarm 15 0 * 1000000 < off.natAbs) then
      .next ((s6.irq rTimIrq 3).event 0x48 ((off.tdiv 1000000) % 4294967296).toNat)
    else .next s6
  else .next s

/-- PTP_DELAY_EXCHANGE (R481): the four times of a Delay_Req exchange of the device port (port 2) or a Pdelay exchange of port A
or B, in ns: sent, received, answered or sent back, received back. -/
def execPtpDelayExchange (dt : Nat) (port : Fin 3) (t1 t2 t3 t4 : Int) (s0 : State) : Host.Outcome State Fault Refusal :=
  let s := s0.advance dt
  let p2p := s.bitOf rTimCtl 3
  if port.val = 2 then
    if s.bitOf rTimCtl 1 && !p2p && s.sef.driver then
      let d := (((t2 - t1) + (t4 - t3)) / 2).toNat
      .next ((s.setTim fun x => { x with mpd := d }).setReg rTimMpd d)
    else .next s
  else if p2p then
    let d := (((t4 - t1) - (t3 - t2)) / 2).toNat
    .next (s.setTim fun x => { x with linkDelay := x.linkDelay.set port.val d })
  else .next s

/-- PTP_LOSS (R473, R477): no Sync is accepted for LOSS_S. -/
def execPtpLoss (s : State) : Host.Outcome State Fault Refusal :=
  if s.tim.servo = .acquire ∨ s.tim.servo = .locked then
    let s1 := s.until (s.tim.lastSync + s.fld rTimLimits 23 16 * second)
    .next ((s1.setTim fun x => { x with master := none }).enterHoldover)
  else .next s

/-- LRATE_SAVE (R478): every 64 s while LOCKED the frequency estimate is saved in the Oasis. -/
def execLrateSave (s : State) : Host.Outcome State Fault Refusal :=
  if s.tim.servo = .locked then
    let s1 := s.until (s.tim.lastSave + 64 * second)
    let s2 := s1.setTim fun x => { x with lastSave := s1.t }
    .next (if s2.locked then s2 else s2.setReg rOasLrate (s2.tim.integral % 4294967296).toNat)
  else .next s

/-- TIME_STEP_APPLY (R483 to R486): at the first whole second outside a boundary hold, device time steps; a
standby's own step waits for no hold (R486). -/
def execTimeStepApply (s : State) : Host.Outcome State Fault Refusal :=
  match s.tim.pend with
  | none => .next s
  | some p =>
    let sec := secOf s.dev + 1
    let holdAt := !p.replica && (s.seq.hold.isSome || (!s.seq.unsure && !s.seq.regressed && !(boundariesAt s.cfg s.closeInstant sec).isEmpty &&
      decide (0 < s.fld rJsqBhold 15 0)))
    if holdAt then .next s
    else
      let s1 := s.untilDev (sec * second)
      .next (({ s1 with dev := sec * second } : State).applyStep p)

/-- LEAP_INSTANT (R482, R488): device time reaches the AT of a leap entry, and device code writes OAS_UTC. -/
def execLeapInstant (s : State) : Host.Outcome State Fault Refusal :=
  match s.cfg.leaps.find? fun l => decide (s.dev < l.at_ * second) with
  | none => .next s
  | some l =>
    let s1 := s.untilDev (l.at_ * second)
    .next (if s1.locked then s1 else s1.setReg rOasUtc (l.offset % 256))

/-- REGRESSED_END (R61): device time passes the high-water boundary after a backward set. -/
def execRegressedEnd (s : State) : Host.Outcome State Fault Refusal :=
  if s.seq.regressed then
    let s1 := s.untilDev s.ctx.hwb
    .next ({ s1 with seq := s1.seq.turn s1.dev s1.dev s1.seq.unsure false } : State).releaseHeldPeriod
  else .next s

/-! ### The Oasis clock -/

/-- The elapsed time of the Oasis second after `done`: now, when that second has begun. -/
def State.oasSecondAt (s : State) (done : Nat) : State :=
  if done < secOf s.oas.raw then s else s.until (s.t + ((secOf s.oas.raw + 1) * second - s.oas.raw))

/-- The Oasis trim in 2^-20 ppm: STATIC − K × (T − T0)² (R489, R508). -/
def State.oasTrim (s : State) : Int :=
  let d := signed 10 (s.fld rOasTemp 9 0) - 4 * signed 8 (s.fld rOasTcurve 23 16)
  signed 24 (s.fld rOasTrim 23 0) * 1024 - (s.fld rOasTcurve 15 0 : Int) * d * d

/-- OASIS_TRIM_TICK (R489): each second the trim is added, and a tick of 2^-15 s inserted or swallowed. `temp` is the die
temperature that the Oasis measures when a measurement is due. -/
def execOasisTrimTick (temp : Fin 1024) (s0 : State) : Host.Outcome State Fault Refusal :=
  let s := s0.oasSecondAt s0.oas.trimSec
  let due := if s.onVbat then 64 else 4
  let age := s.oas.tempAge + 1
  let s1 := if due ≤ age then s.setReg rOasTemp temp.val else s
  let acc := s1.oas.acc + s1.oasTrim
  let lim : Int := 32000000
  let (raw, acc1) := if lim ≤ acc then (s1.oas.raw + 8192, acc - lim) else if acc ≤ -lim then (s1.oas.raw - 8192, acc + lim) else (s1.oas.raw, acc)
  .next (s1.setOas fun o => { o with raw := raw, acc := acc1, trimSec := secOf o.raw, tempAge := if due ≤ age then 0 else age })

/-- OASIS_CALIBRATE (R490): after 1,024 s of measurement while LOCKED, device code corrects STATIC, and realigns the clock when it
is more than 1 ms off. -/
def execOasisCalibrate (s : State) : Host.Outcome State Fault Refusal :=
  match s.tim.calFrom with
  | none => .next s
  | some (t0, d0, r0) =>
    if s.tim.servo = .locked ∧ s.locked = false then
      let s1 := s.until (t0 + 1024 * second)
      let dd : Int := (s1.dev : Int) - d0
      let dr : Int := (s1.oas.raw : Int) - r0
      let corr := if dd = 0 then 0 else ((dd - dr) * 1024000000).tdiv dd
      let s2 := s1.setReg rOasTrim ((signed 24 (s1.fld rOasTrim 23 0) + corr) % 16777216).toNat
      let s3 := s2.setTim fun x => { x with calFrom := some (s2.t, s2.dev, s2.oas.raw) }
      .next (if msU 1 < ((s3.oas.time : Int) - s3.dev).natAbs then s3.oasisCommit else s3)
    else .next s

/-- Whether a requester reaches an Oasis register now: a locked bridge answers a bus error (R11). -/
def State.oasReach (s : State) (w : Who) (f : State → State) : Host.Outcome State Fault Refusal :=
  if s.locked then .next (s.busErr w) else .next (f s)

/-- OAS_TCOMMIT (R491): a write of 1 to GO stages a commit, or is refused; only device code may make it. -/
def execOasTcommit (w : Who) (s : State) : Host.Outcome State Fault Refusal :=
  if w ≠ .dev then .next (s.busErr w) else s.oasReach w fun s => s.oasGo.answer w .done

/-- OAS_COMMIT_APPLY (R491): at the next second boundary the clock loads the staged time and clears its sub-second count. -/
def execOasCommitApply (s : State) : Host.Outcome State Fault Refusal :=
  match s.oas.stgPend with
  | none => .next s
  | some v =>
    let s1 := if s.locked then s.until (s.t + ((secOf s.oas.raw + 1) * second - s.oas.raw)) else s.untilDev ((secOf s.dev + 1) * second)
    .next (s1.setOas fun o => { o with raw := v, stgPend := none, trimSec := secOf v, ppsSec := secOf v - 1 })

/-- OAS_TIME0_READ (R492): freezes the requester's shadows, unless they are frozen, and answers the frozen value. -/
def execOasTime0Read (w : Who) (s : State) : Host.Outcome State Fault Refusal :=
  s.oasReach w fun s => let r := s.oasFreeze w; r.2.answer w (.data r.1)

/-- OAS_TIME3_READ (R492): answers the frozen value and releases the shadows; without a freeze, the live value. -/
def execOasTime3Read (w : Who) (s : State) : Host.Outcome State Fault Refusal :=
  s.oasReach w fun s => let r := s.oasRelease w; r.2.answer w (.data r.1)

/-- FREEZE_TIMEOUT (R492): a freeze held for 2 s releases itself and sets the requester's READ_STALE. -/
def execFreezeTimeout (w : Who) (s : State) : Host.Outcome State Fault Refusal :=
  match s.oas.shadow.at w with
  | none => .next s
  | some x =>
    .next ((s.until (x.since + 2 * second)).setOas fun o => { o with shadow := o.shadow.put w none, stale := o.stale.put w true })

/-- PPS_PULSE (R493): at each Oasis second boundary PPS_OUT is driven for 100 ms, while the main domain is powered. -/
def execPpsPulse (s0 : State) : Host.Outcome State Fault Refusal :=
  let s := s0.oasSecondAt s0.oas.ppsSec
  let s1 := s.setOas fun o => { o with ppsSec := secOf o.raw }
  if s1.bitOf rOasPps 0 && !s1.onVbat then .next ((s1.setOas fun o => { o with ppsUntil := s1.t + msU 100 }).emit (.pps s1.dev))
  else .next s1

/-! ### Timed outputs and captures -/

/-- A pulse of an output fires (R494, R499). -/
def State.ctlFire (s : State) (n p : Nat) : State :=
  let o := s.ctlOut n
  (s.setCtl n { o with last := p, activeUntil := s.t + usU (s.fld (rTimCtlwidth n) 19 0) }).emit (.ctl n s.dev)

/-- CTL_PULSE (R494 to R499): the next programmed time of an output arrives; the pulse fires, or is skipped when it is late.
A unit without the token, and modes 1 and 2 while time is unsure, fire nothing. -/
def execCtlPulse (n : Fin 8) (s : State) : Host.Outcome State Fault Refusal :=
  match s.ctlNext n.val with
  | none => .next s
  | some p =>
    let s1 := s.untilDev p
    let o := s1.ctlOut n.val
    let s2 := s1.setCtl n.val (if s1.ctlMode n.val = 3 then { o with pulses := o.pulses.drop 1 } else { o with k := o.k + 1 })
    if s.sef.driver = false ∨ p < s.tim.ctlFrom ∨ (s.ctlMode n.val ≠ 3 ∧ s.seq.unsure = true) then .next s2
    else if s1.dev ≤ p + msU (s.fld (rTimCtlcfg n.val) 23 16) then .next (s2.ctlFire n.val p)
    else .next (s2.ctlSkip n.val)

/-- A capture as an input (R30, R500). -/
def captureInput (e : Nat) (c : Nat × Bool) : Input :=
  { kind := .evtCapture, stamp := c.1, payload := le 1 e ++ le 1 (if c.2 then 1 else 0) }

/-- Whether Q0 makes its producers wait. -/
def State.q0Stalled (s : State) : Bool := (s.ring 0).stalled

/-- EVT_CAPTURE (R500, R501): a qualified edge on EVTe after `dt` is stamped and sent to Q0, queued while Q0 stalls, or dropped. -/
def execEvtCapture (dt : Nat) (e : Fin 4) (rising : Bool) (s0 : State) : Host.Outcome State Fault Refusal :=
  let s := s0.advance dt
  let edge := s.fld (rTimEvtcfg e.val) 1 0
  if s.bitOf (rTimEvtcfg e.val) 2 && (edge == (if rising then 0 else 1) || decide (2 ≤ edge)) then
    let c := (s.dev, rising)
    let s1 := s.advance (nsU (s.fld (rTimEvtcfg e.val) 15 8 * 100))
    let q := s1.tim.evq.getD e.val []
    if s1.sef.driver = false then .next s1
    else if q.isEmpty && !s1.q0Stalled then .next (s1.offer 0 (captureInput e.val c))
    else if q.length < 8 then .next (s1.setTim fun x => { x with evq := x.evq.set e.val (q ++ [c]) })
    else .next ((s1.count (rTimEvtlost e.val) 1).irq rTimIrq 6)
  else .next s

end Sys2Proof.Machine
end

