-- ==== Sys2Proof/Machine/RegWrite.lean ====
section
/-! DEFINITION. REGISTER_WRITE: one write of a requester at any address of the management address space (R7 to R13, R107, R323, R469, R491,
R508, R553, R641). -/
namespace Sys2Proof.Machine

/-- Write one byte of the context store (R5, R147, R151): slot i stands at 160 × i. -/
def State.ctxPut (s : State) (off : Nat) (v : Byte) : State :=
  let i := off / 160
  let x := s.slot i
  s.setSlot i (x.ofBytes (overwrite x.bytes (off % 160) [v]))

/-! ### Writes of device code -/

/-- Write bytes of working RAM at an offset. -/
def State.wramPut (s : State) : Nat → Bytes → State
  | _, [] => s
  | off, b :: r => State.wramPut { s with wram := ramPut s.wram off b } (off + 1) r

/-- Write bytes of the context store at an offset. -/
def State.ctxPutAll (s : State) : Nat → Bytes → State
  | _, [] => s
  | off, b :: r => State.ctxPutAll (s.ctxPut off b) (off + 1) r

/-- A write of device code to a register of ring `n` (R13, R96, R107): BASE, SIZE_LOG2 and EN while LK fields are writable, the ports, DROP
and the stale timeout. -/
def State.devRing (s : State) (n off : Nat) (v : Word) : State :=
  let x := v.toNat
  let r := s.ring n
  if off = 0x00 then (if s.lkOpen then s.setRing n { r with base := bits 19 0 x, sizeLog2 := bits 27 24 x } else s).answer .dev .done
  else if off = 0x04 then
    let s1 := if s.lkOpen then s.setRing n { r with en := bit 0 x } else s
    if bit 1 x then s1.portDrop (.reg .dev) n else s1.answer .dev .done
  else if off = 0x10 then (s.maskWrite (rQfStale n) v 0xFFFFFF 0).answer .dev .done
  else if off = 0x28 then s.portWrite (.reg .dev) n .open_
  else if off = 0x2C then s.portWrite (.reg .dev) n (.push v)
  else if off = 0x30 then s.portWrite (.reg .dev) n (.close (bits 23 16 x))
  else s.answer .dev .done

/-- The plain effect of a write of device code on a register: read-write fields, LK fields while they are writable, and write-1-to-clear bits
(R13). -/
def State.devMask (s : State) (d : RegDef) (a : Nat) (v : Word) : State :=
  s.maskWrite a v (d.rw + if s.lkOpen then d.lk else 0) d.w1c

/-- A write of device code to SEF_TOKEN (R631, R633): KICK restarts the watchdog, RELEASE gives up the token. -/
def State.devToken (s : State) (v : Word) : State :=
  let s1 := if v.getLsbD 0 then s.setSef fun x => { x with kickAt := s.t } else s
  if v.getLsbD 1 && s1.sef.driver then s1.dropToken 1 2 else s1

/-- A write of device code to a register that is not a ring's (R13). -/
def State.devReg (s : State) (a : Nat) (v : Word) : State :=
  match regAt a with
  | none => s
  | some d =>
    if a = rJsqCtl then
      let s1 := s.devMask d a v
      { s1 with seq := { s1.seq with ckptReq := s1.seq.ckptReq || (v.getLsbD 1 && s1.seq.holder) } }
    else if (nth (rMtrTrim 0) 32 3 a).isSome then s.devMask { d with rw := 0 } a v
    else if a = rNetMdio then s.mdioWrite v
    else if a = rSefRole then s.setSef fun x => { x with role := v.getLsbD 0 }
    else if a = rSefToken then s.devToken v
    else if a = rOasTcommit then (if v.getLsbD 0 then s.oasGo else s)
    else if a = rOasStat then (s.devMask { d with w1c := 0x30 } a v).clearStale .dev v
    else if a = rOasLrate then
      let s1 := s.devMask d a v
      if s1.tim.servo = .free then s1.freeRate else s1
    else if a = rArbLatmax then s.setReg rArbLatmax 0
    else s.devMask d a v

/-- A write of device code (R8 to R11, R553). -/
def State.devWrite (s : State) (a : Nat) (bs : Bytes) (v : Word) : State :=
  match areaOf a with
  | .none => s.addressFault .dev a
  | .rom | .code => s.busErr .dev
  | .ctx => (s.poolNote (s.ctxPutAll (a - 0x10000000) bs)).answer .dev .done
  | .wram => (s.wramPut (a - 0x12000000) bs).answer .dev .done
  | .regs =>
    if bs.length ≠ 4 ∨ a % 4 ≠ 0 ∨ (inOas a = true ∧ s.locked = true) then s.busErr .dev
    else if 0x40010000 ≤ a ∧ a < 0x40010400 then s.devRing ((a - 0x40010000) / 64) ((a - 0x40010000) % 64) v
    else (s.poolNote (s.devReg a v)).answer .dev .done

/-- A write of the Seif management frames or the maintenance port (R8, R10, R107, R553); NET_MDIO is open to the maintenance port (R469). -/
def State.farWrite (s : State) (w : Who) (a len : Nat) (v : Word) : State :=
  if areaOf a = .regs ∧ len ≠ 4 then s.busErr w
  else if w = .maint ∧ a = rNetMdio then (s.mdioWrite v).answer w .done
  else let r := s.chainWrite w a v; (s.poolNote r.2).answer w r.1

/-- REGISTER_WRITE (R8 to R13, R553): a write of 1, 2 or 4 bytes. One whose bytes do not all lie in one area falls outside every block (R10). -/
def execRegisterWrite (w : Who) (addr : Word) (size : Fin 3) (v : Word) (s : State) : Host.Outcome State Fault Refusal :=
  let a := addr.toNat
  let len := 2 ^ size.val
  if areaOf a ≠ areaOf (a + len - 1) then .next (s.addressFault w a)
  else match w with
    | .dev => .next (s.devWrite a (le len v.toNat) v)
    | .seif => .next (s.farWrite .seif a len v)
    | .maint => .next (s.farWrite .maint a len v)

end Sys2Proof.Machine
end

