-- ==== Sys2Proof/Machine/Regs.lean ====
section
/-! DEFINITION. The commands of the management address space that are not writes (R10, R76). -/
namespace Sys2Proof.Machine

/-- ADDRESS_FAULT (R10): an access of a requester falls outside every block. -/
def execAddressFault (w : Who) (addr : Word) (s : State) : Host.Outcome State Fault Refusal :=
  if areaOf addr.toNat = .none then .next (s.addressFault w addr.toNat) else .next s

/-- LO_REGISTER_READ (R8, R11, R76): a read of a _LO register latches its _HI half, and the next read of that _HI register returns the latched
half. -/
def execLoRegisterRead (w : Who) (addr : Word) (s : State) : Host.Outcome State Fault Refusal :=
  let a := addr.toNat
  if isLo a || (4 ≤ a && isLo (a - 4)) then
    if inOas a && s.locked then .next (s.busErr w)
    else
      let r := s.regRead w a
      .next (r.2.answer w (.data r.1))
  else .next s

end Sys2Proof.Machine
end

