-- ==== Sys2Proof/Machine/ReplayOps.lean ====
section
/-! DEFINITION. Replay (R710 to R722): its sources, the refusals, the comparison, the run over a span of the journal, and the report. -/
namespace Sys2Proof.Machine

/-! ### The order (R710) -/

/-- RFLAGS of an order. -/
def rplFlag (o : Bytes) (k : Nat) : Bool := bit k (fld 1 1 o)

/-- SOURCE of an order. -/
def rplSource (o : Bytes) : Nat := fld 0 1 o

/-- END_JSN of an order. -/
def rplEnd (o : Bytes) : Nat := fld 8 8 o

/-! ### Sources (R715 to R719) -/

/-- A checkpoint that a source offers: its number, cut and configuration hash, and the checkpoint itself when its BODY_HASH holds (R72). -/
structure SrcCkpt where
  no   : Nat
  cut  : Nat
  hash : Bytes
  ckpt : Option Ckpt

/-- What a source supplies (R715): its checkpoints, the journal entries in the order they stand there, whether something after them is no entry, the
images and the reference records by RSN. -/
structure RplSrc where
  ckpts  : List SrcCkpt
  jnl    : List Entry
  broken : Bool
  imgs   : List Bytes
  refs   : List (Nat × Nat × Bytes)

/-- A checkpoint's descriptor and body as a source offers it (R71, R717). -/
def srcCkptOf (desc body : Bytes) : Option SrcCkpt :=
  if desc.length = 128 ∧ fld 0 4 desc = 0x4A46434B then
    some { no := fld 112 4 desc, cut := fld 8 8 desc, hash := sub 40 32 desc,
           ckpt := if fit 32 (Config.sha256 body) = sub 80 32 desc then ckptOf desc body else none }
  else none

/-- The entries of a byte string, and whether bytes that are no entry follow them. -/
def jnlOf (b : Bytes) : List Entry × Bool :=
  let es := entriesOf b
  (es, decide ((es.map fun e => e.bytes.length).foldl (· + ·) 0 < b.length))

/-- Reference entries (R717): RSN, then a record in the form of R452. -/
def refsOver : Nat → Bytes → List (Nat × Nat × Bytes)
  | 0, _ => []
  | n + 1, b =>
    if b.length < 12 then []
    else (fld 0 8 b, fld 10 1 b, sub 12 (fld 8 2 b) b) :: refsOver n (b.drop (12 + ceilDiv (fld 8 2 b) 4 * 4))

/-- The reference entries of a byte string. -/
def refsOf (b : Bytes) : List (Nat × Nat × Bytes) := refsOver (b.length / 12 + 1) b

/-- A record as a reference entry (R717). -/
def refEntry (rsn rtype : Nat) (b : Bytes) : Bytes := le 8 rsn ++ batchRecord rtype b

/-- The name of the nth image file of the card (R717). -/
def cardImgName (n : Nat) : String := "IKNRPL.C" ++ toString (n / 10) ++ toString (n % 10)

/-- The card's files (R717). -/
def cardSrc (c : Option Card) : Option RplSrc :=
  match Card.file c "IKNRPL.CKP", Card.file c "IKNRPL.JNL" with
  | some k, some j =>
    let (es, bad) := jnlOf j
    some { ckpts := (srcCkptOf (k.take 128) (k.drop 128)).toList, jnl := es, broken := bad,
           imgs := (List.range 16).filterMap fun n => (Card.file c (cardImgName n)).map cfgTrim,
           refs := match Card.file c "IKNRPL.REF" with | some r => refsOf r | none => [] }
  | _, _ => none

/-- The unit's own media (R715): read with the settings of a MEDIA section of the image in the NOR; none when the set is not accepted. -/
def State.ownMedia (s : State) : Option State :=
  if judgeCfg s.sec.otp 0 none s.nor.cfgImage ≠ 0 then none
  else match cfgSection s.nor.cfgImage 12, s.med.nand.geom with
    | some b, some g =>
      let a := s.loadMedia b
      if mediaOk b && decide (s.med.nand.board.map (fun x => geomOn x a.med.ceEn) = some g) && nandAccepted g a.med.slcPrefix a.med.sparePm then some (a.setMed fun m => { m with run := true }) else none
    | _, _ => none

/-- SOURCE 0. -/
def State.ownSrc (s : State) : Option RplSrc :=
  s.ownMedia.map fun a =>
    { ckpts := a.keptCkpts.map fun k => { no := k.no, cut := k.cutJsn, hash := fit 32 k.cfgHash, ckpt := some k },
      jnl := a.med.nand.journalRaw, broken := false, imgs := s.nor.cfgImage :: a.med.nand.images.map (·.2),
      refs := s.obox.map fun r => (r.rsn, r.rtype, r.bytes) }

/-- SOURCE 2, once everything has been fetched. -/
def State.chainSrc (s : State) (f : Fetch) : RplSrc :=
  let (es, bad) := jnlOf (assemble f.jnl)
  { ckpts := (srcCkptOf f.desc (assemble f.body)).toList, jnl := es, broken := bad, imgs := [s.nor.cfgImage], refs := refsOf (assemble f.recs) }

/-- The image a hash names. -/
def RplSrc.img (x : RplSrc) (h : Bytes) : Option Bytes := x.imgs.find? fun b => fit 32 (Config.sha256 b) == h

/-- The checkpoint an order names: by its number, or the latest whose image is at hand (R710). -/
def RplSrc.pick (x : RplSrc) (no : Nat) : Option SrcCkpt :=
  if no = 0xFFFFFFFF then
    (x.ckpts.filter fun k => (x.img k.hash).isSome).foldl (fun m k => match m with | some y => if y.cut < k.cut then some k else m | none => some k) none
  else x.ckpts.find? fun k => k.no == no

/-! ### Refusals (R711) -/

/-- The SVN of the firmware the station runs: that of the slot its next start would take. -/
def State.stationSvn (s : State) : Option Nat :=
  match s.chooseSlot.1 with | some k => some (Machine.fld 12 4 (s.nor.fwImage k).1) | none => none

/-- SYSKEY as an image gives it to this station (R522). -/
def State.imgKey (s : State) (img : Bytes) : Option Nat :=
  match cfgSection img 14 with | some b => s.unwrapSyskey b | none => none

/-- Reason 1 of R711, 0 when it does not hold. -/
def State.refusedAtOnce (s : State) (o : Bytes) : Nat :=
  if s.inRecovery = false then 1
  else if rplFlag o 2 && rplSource o ≠ 0 then 1
  else if (rplSource o = 1 ∨ rplFlag o 2 = true) ∧ s.rpl.card = none then 1
  else 0

/-- What the checks of R711 come to on a source: a refusal, or the checkpoint, its image and the system key. -/
inductive SrcJudged where
  | refused (reason : Nat)
  | ready (k : Ckpt) (img : Bytes) (key : Nat)

/-- Reasons 2 to 6 of R711. -/
def State.judgeSource (s : State) (o : Bytes) (src : Option RplSrc) : SrcJudged :=
  match src with
  | none => .refused 2
  | some x =>
    match x.pick (Machine.fld 4 4 o) with
    | none => .refused 2
    | some k =>
      if rplEnd o ≠ 0 ∧ rplEnd o < k.cut then .refused 2
      else match k.ckpt with
        | none => .refused 3
        | some c =>
          match x.img k.hash with
          | none => .refused 4
          | some img =>
            if judgeCfg s.sec.otp 0 none img ≠ 0 then .refused 4
            else match s.imgKey img with
              | none => .refused 5
              | some key => if s.stationSvn = some c.svn then .ready c img key else .refused 6

/-! ### Comparison (R720) -/

/-- The system address of a record. -/
def recAddr (b : Bytes) : Nat := (if fld 0 1 b = 8 then fld 8 4 b else fld 4 4 b) % 2 ^ 18

/-- Whether a reference record is authentic (R720): a SIG for period-close records and readouts, else a TAG. -/
def authentic (sys rtype : Nat) (b : Bytes) : Bool :=
  let sig (n gen : Nat) : Bool := Config.ecdsaVerify (Config.ecPub (sigk sys (recAddr b) gen)) (Config.sha256 (b.take n)) (sub n 64 b)
  if rtype = 2 then b.length == 192 && sig 128 (fld 120 4 b)
  else if rtype = 3 then b.length == 400 && sig 336 (fld 302 2 b)
  else decide (8 ≤ b.length) && tag64 (rskOf sys (recAddr b)) (b.take (b.length - 8)) == b.drop (b.length - 8)

/-- Offset of the first byte in which two strings of one length differ. -/
def firstDiff (a b : Bytes) : Nat := ((a.zip b).takeWhile fun p => p.1 == p.2).length

/-- SUBJ of a divergence entry (R721): the slot of a record with a SLOT field. -/
def recSubj (rtype : Nat) (b : Bytes) : Nat :=
  if [1, 2, 5, 7].contains rtype then fld 8 4 b % 131072 + 131072
  else if rtype = 8 then fld 12 4 b % 2 ^ 18
  else 0

/-- The divergence entry of an output and its reference (R720, R721). -/
def divergence (sys rsn : Nat) (o : Output) (rtype : Nat) (ref : Bytes) : Diverge :=
  { rsn := rsn, ojsn := o.ojsn, rdig := o.digest, fdig := fit 8 (Config.sha256 ref), subj := recSubj o.rtype o.bytes, rtype := o.rtype,
    dkind := if authentic sys rtype ref then 0 else 1, first := if o.bytes.length = ref.length then firstDiff o.bytes ref else 0xFFFF }

/-- A 32-bit counter of the report goes up, saturating. -/
def sat1 (n : Nat) : Nat := satAdd 0xFFFFFFFF n 1

/-- A regenerated record is compared with the reference of its RSN (R720). -/
def Replay.compare (r : Replay) (sys rsn : Nat) (o : Output) (refs : List (Nat × Nat × Bytes)) : Replay :=
  match refs.find? fun x => x.1 == rsn with
  | none => { r with unref := sat1 r.unref }
  | some (_, ty, ref) =>
    let r1 := { r with compared := sat1 r.compared }
    if o.bytes = ref then r1
    else { r1 with diverged := sat1 r.diverged, firstDiv := if r.diverged = 0 then rsn else r.firstDiv,
                   divs := if r.divs.length < 4096 then r.divs ++ [divergence sys rsn o ty ref] else r.divs }

/-- An entry of IKNRPL.OUT (R722). -/
def outEntry (vsn rsn : Nat) (o : Output) : Bytes :=
  let (kind, n) := match o.dest with | .stream => (0, rsn) | .down => (1, 2 ^ 64 - 1) | .ctl => (2, 2 ^ 64 - 1)
  le 8 vsn ++ le 8 n ++ le 1 kind ++ le 1 0 ++ le 2 o.voted.length ++ padTo 4 o.voted

/-! ### The run (R713, R714) -/

/-- A replay under way on a scratch copy of the machine: the report so far, what ended it, and IKNRPL.OUT. -/
structure RplRun where
  s    : State
  rep  : Replay
  stop : Option Nat := none
  out  : Bytes := []

/-- Release the next numbered output: without durability and without agreement (R713), compared when the order says so. -/
def RplRun.releaseOne (x : RplRun) (o : Bytes) (refs : List (Nat × Nat × Bytes)) : RplRun :=
  match x.s.numbered.head? with
  | none => x
  | some (vsn, u) =>
    let rsn := x.s.ctx.nextRsn
    let s1 := { x.s.enterOutput u with obox := [] }
    let y : RplRun := { x with s := s1, out := x.out ++ outEntry vsn rsn u }
    if u.dest = .stream then
      let r1 := { x.rep with outputs := sat1 x.rep.outputs }
      let r2 := if rplFlag o 0 then r1.compare x.s.sys rsn u refs else r1
      { y with rep := r2, stop := if rplFlag o 1 && decide (x.rep.diverged < r2.diverged) then some 1 else x.stop }
    else y

/-- Release up to `n` outputs, unless a stop comes first. -/
def RplRun.releaseN (o : Bytes) (refs : List (Nat × Nat × Bytes)) : Nat → RplRun → RplRun
  | 0, x => x
  | n + 1, x => if x.stop.isSome then x else RplRun.releaseN o refs n (x.releaseOne o refs)

/-- Release everything the commit watermark lets go. -/
def RplRun.release (x : RplRun) (o : Bytes) (refs : List (Nat × Nat × Bytes)) : RplRun := RplRun.releaseN o refs x.s.erg.outq.length x

/-- The scratch machine runs under an image (R714): its sections are loaded, and the grains are on. -/
def State.underImage (s : State) (img : Bytes) (key : Nat) : State := (({ s.applyImage img true with sysKey := some key } : State).setBit rErgCtl 0 true)

/-- What ends a replay before an entry (R714): a broken run, a START with another SVN or a missing image, an unwrap that fails. -/
def RplRun.stopsAt (x : RplRun) (src : RplSrc) (e : Entry) : Option Nat :=
  if e.jsn ≠ x.s.seq.nextJsn then some 2
  else match e.kind with
    | .start =>
      if x.s.boot.svn ≠ fld 32 4 e.payload then some 3
      else (match src.img (sub 0 32 e.payload) with
        | none => some 4
        | some img => if judgeCfg x.s.sec.otp 0 none img ≠ 0 then some 4 else if (x.s.imgKey img).isNone then some 5 else none)
    | .drbgDraw =>
      if bit 31 (fld 0 4 e.payload) && (Config.kwUnwrap (jkek x.s.sys) (e.payload.drop 4)).isNone then some 5 else none
    | _ => none

/-- After a START the entries above it run under the image it names (R707). -/
def State.afterStart (s : State) (src : RplSrc) (e : Entry) : State :=
  if e.kind = .start ∧ sub 0 32 e.payload ≠ fit 32 s.cfg.hash then
    match src.img (sub 0 32 e.payload) with
    | some img => match s.imgKey img with | some k => s.underImage img k | none => s
    | none => s
  else s

/-- Process one entry (R707, R714). -/
def RplRun.entry (x : RplRun) (o : Bytes) (src : RplSrc) (e : Entry) : RplRun :=
  if x.stop.isSome then x
  else if rplEnd o ≠ 0 ∧ rplEnd o < e.jsn then { x with stop := some 0 }
  else match x.stopsAt src e with
    | some n => { x with stop := some n }
    | none =>
      let s1 := (((x.s.adopt e false).settle).afterStart src e)
      ({ x with s := s1, rep := { x.rep with lastJsn := e.jsn } } : RplRun).release o src.refs

/-- The scratch machine at the checkpoint (R74, R713). -/
def State.replayStart (s : State) (k : Ckpt) (img : Bytes) (key : Nat) : State :=
  let a := (s.underImage img key).setBoot fun b => { b with restoring := true, svn := k.svn }
  { (a.loadCkpt k).requeue k.waiting with obox := [] }

/-- RESULT of an ended replay (R721). -/
def Replay.ended (r : Replay) (stop : Nat) : Replay :=
  { r with stop := stop, result := if 0 < r.diverged then 1 else if [2, 3, 4, 5].contains stop then 2 else 0 }

/-- Replay a span (R714, R720): the report and IKNRPL.OUT. -/
def State.runReplay (s : State) (o : Bytes) (src : RplSrc) (k : Ckpt) (img : Bytes) (key : Nat) (rep : Replay) : Replay × Bytes :=
  let x0 := ({ s := s.replayStart k img key, rep := rep } : RplRun).release o src.refs
  let x := (src.jnl.filter fun e => decide (k.cutJsn ≤ e.jsn)).foldl (fun a e => a.entry o src e) x0
  let stop := match x.stop with
    | some n => n
    | none => if src.broken && (decide (rplEnd o = 0) || decide (x.rep.lastJsn < rplEnd o)) then 2 else 0
  (x.rep.ended stop, x.out)

/-! ### The report (R721) -/

/-- A divergence entry in bytes (R721). -/
def Diverge.bytes (d : Diverge) : Bytes :=
  le 8 d.rsn ++ le 8 d.ojsn ++ fit 8 d.rdig ++ fit 8 d.fdig ++ le 4 d.subj ++ le 1 d.rtype ++ le 1 d.dkind ++ le 2 d.first

/-- The report in bytes (R721). -/
def Replay.bytes (r : Replay) : Bytes :=
  le 4 0x4A465250 ++ le 1 1 ++ le 1 r.result ++ le 1 r.stop ++ le 1 r.reason ++ le 1 r.source ++ List.replicate 3 0 ++ le 4 r.ckptNo ++ le 8 r.cutJsn ++
  le 8 r.lastJsn ++ le 8 r.firstRsn ++ le 4 r.outputs ++ le 4 r.compared ++ le 4 r.diverged ++ le 4 r.unref ++ le 8 r.firstDiv ++
  r.divs.flatMap Diverge.bytes

/-- Write a file of the card. -/
def cardWrite (c : Card) (n : String) (b : Bytes) : Card := { c with files := (c.files.filter fun f => f.1 ≠ n) ++ [(n, b)] }

/-- Change the card when one is present. -/
def State.onCard (s : State) (f : Card → Card) : State := { s with rpl := { s.rpl with card := s.rpl.card.map f } }

/-- A report takes the place of the station's; the card stays. -/
def State.setReport (s : State) (r : Replay) : State := { s with rpl := { r with ran := true, card := s.rpl.card, fetch := none } }

/-! ### EXPORT (R718) -/

/-- The entries EXPORT writes: from the cut to END_JSN or the last valid entry. -/
def exportSpan (o : Bytes) (src : RplSrc) (cut : Nat) : List Entry :=
  (runOf (src.jnl.filter fun e => decide (cut ≤ e.jsn))).filter fun e => rplEnd o = 0 || decide (e.jsn ≤ rplEnd o)

/-- The images EXPORT writes: those that the checkpoint or a START in the span names. -/
def exportImgs (src : RplSrc) (k : Ckpt) (es : List Entry) : List Bytes :=
  ((fit 32 k.cfgHash :: (es.filter fun e => e.kind == .start).map fun e => sub 0 32 e.payload).eraseDups).filterMap src.img

/-- The files of an EXPORT (R718). -/
def exportCard (c : Card) (o : Bytes) (src : RplSrc) (k : Ckpt) : Card :=
  let es := exportSpan o src k.cutJsn
  let c1 := cardWrite (cardWrite c "IKNRPL.CKP" (k.desc ++ k.body)) "IKNRPL.JNL" (es.flatMap Entry.bytes)
  let c2 := ((exportImgs src k es).take 16).zipIdx.foldl (fun a p => cardWrite a (cardImgName p.2) p.1) c1
  cardWrite c2 "IKNRPL.REF" ((src.refs.filter fun r => decide (k.ctx.nextRsn ≤ r.1)).flatMap fun r => refEntry r.1 r.2.1 r.2.2)

/-! ### A whole replay -/

/-- A replay from a source that stands ready (R711 to R722). -/
def State.replayFrom (s : State) (o : Bytes) (src : Option RplSrc) : State :=
  let blank : Replay := { source := rplSource o }
  match s.judgeSource o src, src with
  | .refused n, _ => s.setReport { blank with result := 3, reason := n }
  | .ready k img key, some x =>
    let rep : Replay := { blank with ckptNo := k.no, cutJsn := k.cutJsn, firstRsn := k.ctx.nextRsn }
    if rplFlag o 2 then
      (s.setReport ({ rep with lastJsn := lastJsnOf (exportSpan o x k.cutJsn) }.ended 6)).onCard fun c => exportCard c o x k
    else
      let (r, out) := s.runReplay o x k img key rep
      ((s.setReport r).onCard fun c => cardWrite c "IKNRPL.OUT" out).onCard fun c => cardWrite c "IKNRPL.DIV" r.bytes
  | .ready _ _ _, none => s

/-- A replay from the chain starts by joining it (R719). -/
def State.replayChain (s : State) (o : Bytes) : State :=
  let s1 := ((s.setBit rSefCtl 0 true).lockPll 1).setSef fun x => { x with on := true, state := 7 }
  { s1 with rpl := { ran := true, result := 4, source := 2, card := s.rpl.card, fetch := some { order := o, peer := Machine.fld 2 1 o % 32 } } }

/-- A replay from the chain ends: the station leaves the chain. -/
def State.leaveChain (s : State) : State := ((s.setBit rSefCtl 0 false).stopPll 1).setSef fun x => { x with on := false, state := 0 }

/-! ### Fetching over the chain (R636, R715, R719) -/

/-- Change what is being fetched. -/
def State.setFetch (s : State) (f : Fetch) : State := { s with rpl := { s.rpl with fetch := some f } }

/-- The peer is heard: its latest checkpoint is asked for. -/
def State.fetchHeard (s : State) (f : Fetch) (pos : Nat) : State :=
  if f.step = 0 ∧ pos = f.peer then (s.setFetch { f with step := 1 }).xreq f.peer 1 0 else s

/-- The end of a part: the next is asked for, or the replay runs. -/
def State.fetchEnd (s : State) (f : Fetch) : State :=
  match f.step with
  | 1 =>
    match s.judgeSource f.order (some (s.chainSrc f)) with
    | .refused n => (s.setReport { source := 2, result := 3, reason := n }).leaveChain
    | .ready k _ _ => (s.setFetch { f with step := 2 }).xreq f.peer 3 k.ctx.nextRsn
  | 2 => (s.setFetch { f with step := 3 }).xreq f.peer 0 (Machine.fld 8 8 f.desc)
  | 3 => (s.replayFrom f.order (some (s.chainSrc f))).leaveChain
  | _ => s

/-- A part of a transfer for a replaying station. -/
def State.fetchPart (s : State) (f : Fetch) (part off : Nat) (data : Bytes) : State :=
  match f.step, part with
  | _, 4 => s.fetchEnd f
  | 1, 1 => s.setFetch { f with desc := data }
  | 1, 2 => s.setFetch { f with body := f.body ++ [(off, data)] }
  | 2, 3 => s.setFetch { f with recs := f.recs ++ [(off, data)] }
  | 3, 0 => s.setFetch { f with jnl := f.jnl ++ [(off, data)] }
  | _, _ => s

end Sys2Proof.Machine
end

