-- ==== Sys2Proof/Machine/Replay.lean ====
section
/-! DEFINITION. The replay requests (R710 to R712), and the two chain frames that a replaying station also waits for: HEARTBEAT and XFER. -/
namespace Sys2Proof.Machine

/-- REPLAY (R710, R711): the order is answered at once with a status and a refusal reason; from the chain the replay runs once everything has been
fetched. -/
def execReplay (order : Bytes) (s : State) : Host.Outcome State Fault Refusal :=
  if s.tellsStatus then
    if order.length ≠ 16 then .next (s.recAnswer 8 2)
    else if s.refusedAtOnce order ≠ 0 then
      .next ((s.setReport { source := rplSource order, result := 3, reason := 1 }).recAnswer 8 1 (le 1 1))
    else if rplSource order = 2 then .next ((s.replayChain order).recAnswer 8 0 (le 1 0))
    else
      let s1 := s.replayFrom order (if rplSource order = 0 then s.ownSrc else if rplSource order = 1 then cardSrc s.rpl.card else none)
      .next (s1.recAnswer 8 (if s1.rpl.result = 3 then 1 else 0) (le 1 s1.rpl.reason))
  else .next s

/-- REPLAY_READ (R712): bytes of the report after the status. -/
def execReplayRead (off len : Nat) (s : State) : Host.Outcome State Fault Refusal :=
  if s.inRecovery then
    if len = 0 ∨ 4096 < len then .next (s.recAnswer 9 2)
    else if s.rpl.ran then .next (s.recAnswer 9 0 ((s.rpl.bytes.drop off).take len))
    else .next (s.recAnswer 9 1)
  else .next s

/-- HEARTBEAT (R605, R610, R611, R618, R719). -/
def execHeartbeat (s : State) : Host.Outcome State Fault Refusal :=
  match s.takeFrame 2 with
  | none => .next s
  | some ((link, f), s1) =>
    let s2 := s1.heartbeatIn link f
    .next (match s2.rpl.fetch with | some x => s2.fetchHeard x (sefSrc f) | none => s2)

/-- XFER (R619, R630, R636, R719). -/
def execXfer (s : State) : Host.Outcome State Fault Refusal :=
  match s.takeFrame 7 with
  | none => .next s
  | some ((_, f), s1) =>
    match s1.rpl.fetch with
    | some x =>
      let b := sefBody f
      .next (if x.peer = sefSrc f then s1.fetchPart x (Machine.fld 0 1 b) (Machine.fld 8 8 b) (b.drop 16) else s1)
    | none => .next (s1.xferIn f)

end Sys2Proof.Machine
end

