-- ==== Sys2Proof/Machine/Secure.lean ====
section
/-! DEFINITION. The commands of cipher lanes, keys, randomness and tamper (R524 to R557). -/
namespace Sys2Proof.Machine

/-- CIPHER_REQUEST (R530, R532, R534, R537): a Q10 request is placed; an unknown operation ends with BAD_REQ, and a hash is done at once. -/
def execCipherRequest (s : State) : Host.Outcome State Fault Refusal :=
  if s.bitOf rCphCtl 0 then
    match s.ringTake 10 with
    | (.packet _ op ws, s1) =>
      let r : CphReq := { op := op, ws := ws }
      let s2 := s1.ringDrain 10
      if r.onLane then .next (s2.placeLane r)
      else if r.onEcc then .next (s2.placeEcc r)
      else if op = 8 then .next (s2.finishReq r 18 { status := 0, out := fit 32 (Config.sha256 (s2.wramBytes (r.word 4) (r.aadLen + r.msgLen))) })
      else .next (s2.postResult r 5 0 0 [] 0)
    | _ => .next s
  else .next s

/-- UNWRAP_COMPLETE (R524, R525, R531): the unwrap unit writes the key into the lane, or the request ends with UNWRAP_FAIL. -/
def execUnwrapComplete (lane : Fin 16) (s : State) : Host.Outcome State Fault Refusal :=
  match (s.sec.lane lane.val).run with
  | some (r, st) =>
    if r.unwraps && st ≠ .running then
      match s.reqKey r with
      | .key _ => .next (s.setSec fun x => { x with lanes := x.lanes.set lane.val { x.lane lane.val with run := some (r, .running) } })
      | .unwrapFail => .next (((s.irq rCphIrq 2).finishReq r lane.val { status := 3 }).nextOnLane lane.val)
      | .noKey => .next ((s.finishReq r lane.val { status := 4 }).nextOnLane lane.val)
    else .next s
  | none => .next s

/-- LANE_COMPLETE (R526, R527, R530, R531, R533): a lane finishes its message, posts the result and takes up the next. -/
def execLaneComplete (lane : Fin 16) (s : State) : Host.Outcome State Fault Refusal :=
  match (s.sec.lane lane.val).run with
  | some (r, st) =>
    if r.unwraps && st ≠ .running then .next s
    else match s.reqKey r with
      | .key k => let (x, s1) := s.laneResult r k; .next ((s1.finishReq r lane.val x).nextOnLane lane.val)
      | .unwrapFail => .next (((s.irq rCphIrq 2).finishReq r lane.val { status := 3 }).nextOnLane lane.val)
      | .noKey => .next ((s.finishReq r lane.val { status := 4 }).nextOnLane lane.val)
  | none => .next s

/-- ECC_COMPLETE (R533 to R535, R752): a P-256 engine finishes. -/
def execEccComplete (e : Fin 2) (s : State) : Host.Outcome State Fault Refusal :=
  match s.sec.ecc.getD e.val none with
  | some r => let (x, s1) := s.eccResult r; .next ((s1.finishReq r (16 + e.val) x).nextOnEcc e.val)
  | none => .next s

/-- CIPHER_RESULT (R115, R533): the dispatcher takes a Q11 result and resumes the task that waits for its TAG. -/
def execCipherResult (s : State) : Host.Outcome State Fault Refusal :=
  match s.ringTake 11 with
  | (.packet _ _ ws, s1) =>
    let tag := bits 15 0 (ws.getD 0 0).toNat
    let resume (t : Task) : Task := if t.phase = .waitCipher ∧ t.jsn % 65536 = tag then { t with phase := .committing } else t
    .next ({ s1 with erg := { s1.erg with keys := s1.erg.keys.map fun q => { q with tasks := q.tasks.map resume } } } : State)
  | _ => .next s

/-- KEY_REMASK (R528): every 10 ms a new mask is drawn and every key cell is masked anew. -/
def execKeyRemask (s : State) : Host.Outcome State Fault Refusal :=
  if s.bitOf rKeyCtl 0 then
    let s1 := s.until (s.sec.lastMask + msU 10)
    .next ({ s1 with freeCtr := s1.freeCtr + 1,
                     sec := { s1.sec with mask := Config.trng s1.freeCtr, maskGen := !s1.sec.maskGen, lastMask := s1.t } } : State)
  else .next s

/-- TRNG_HEALTH_FAIL (R539). -/
def execTrngHealthFail (s : State) : Host.Outcome State Fault Refusal :=
  if s.pow.phase = .off then .next s else
  let s1 := (s.setBit rCphTrng 0 false).setFld rCphTrng 31 16 (satAdd 0xFFFF (s.fld rCphTrng 31 16) 1)
  .next ((s1.irq rCphIrq 3).event 0x4B 0)

/-- Serve the draw a key's oldest task waits for, unless its entry is already journaled (R43, R539). -/
def State.serveDraw (s : State) (k : Key) : State :=
  match s.headTask k with
  | some t =>
    if t.phase = .waitDraw then
      match s.waitsFor k with
      | some (.draw tag n) =>
        if s.erg.toDispatch.any fun e => e.kind == .drbgDraw && Machine.fld 0 4 e.payload == tag then s else s.journalDraw tag n
      | _ => s
    else s
  | none => s

/-- A life-cycle transition waits for the TRNG. -/
def Sec.dueTransition (x : Sec) : Option LifeCycle := match x.lcPend with | some p => if p.due then some p.dst else none | none => none

/-- TRNG_HEALTH_PASS (R539, R549): a full test window passes after a start or a failure; a life-cycle transition that waits runs, and the draws that wait
are served. -/
def execTrngHealthPass (s : State) : Host.Outcome State Fault Refusal :=
  if s.pow.phase = .off then .next s
  else
    let s1 := s.setBit rCphTrng 0 true
    match s1.sec.dueTransition with
    | some t => .next (s1.transition t)
    | none => if s1.drawsServed && s1.seqTakes then .next ((s1.erg.keys.map (·.key)).foldl State.serveDraw s1) else .next s1

/-- TAMPER_ALARM (R540 to R543): a tamper source alarms, `dt` later. -/
def execTamperAlarm (dt : Nat) (src : Fin 8) (s : State) : Host.Outcome State Fault Refusal :=
  let s1 := s.advance dt
  if s1.canAlarm src.val then .next (if s1.onVbat then s1.alarmOnVbat src.val else s1.alarmOnMain src.val) else .next s1

/-- HOLD_CMD (R544, R545, R551, R552): in alarm hold the ROM checks a CMD datagram with KEY_ID 0 from an address and port, answers it there
and runs it. -/
def execHoldCmd (addr port : Nat) (dgram : Bytes) (s : State) : Host.Outcome State Fault Refusal :=
  if s.pow.phase = .alarmHold ∧ s.bitOf rNetCtl 0 = true then
    match Dgram.ofBytes dgram with
    | some d =>
      if d.dtype = 3 ∧ d.keyId = 0 ∧ d.sysaddr = s.cfg.sysaddr then
        let p := sub 40 d.blen dgram
        let code := Machine.fld 0 2 p
        let (st, lc, run) := s.holdCommand code (sub 8 64 p)
        .next (run (s.emit (.udp addr port (s.holdAnswer code st lc))))
      else .next s
    | none => .next s
  else .next s

end Sys2Proof.Machine
end

