-- ==== Sys2Proof/Machine/Slots.lean ====
section
/-! DEFINITION. The commands of the context-store arbiter (R173 to R182). -/
namespace Sys2Proof.Machine

/-- ARB_WINDOW_END (R176): the quota window ends; the counts start again and masked requesters are unmasked. -/
def execArbWindowEnd (s : State) : Host.Outcome State Fault Refusal :=
  let w := max s.arb.window (windowAt s.t)
  let s1 := s.until (ceilDiv ((w + 1) * 32 * second) 200000000)
  .next { s1 with arb := s1.arb.roll (w + 1) }

/-- ARB_LATMAX_CLEAR (R182, R183, R553): any write of any requester clears the longest resolution time. -/
def execArbLatmaxClear (w : Who) (s : State) : Host.Outcome State Fault Refusal := .next ((s.setReg rArbLatmax 0).answer w .done)

end Sys2Proof.Machine
end

