-- ==== Sys2Proof/Machine/Supply.lean ====
section
/-! DEFINITION. The commands of supplies, clocks, PWRON_CTL and the thermal governor (R642 to R674). -/
namespace Sys2Proof.Machine

/-- Change supplies, clocks and governor. -/
def State.setPow (s : State) (f : Sys → Sys) : State := { s with pow := f s.pow }

/-! ### Reset (R643, R645, R651, R662, R663) -/

/-- POWER_ON (R643, R646, R662, R663): `dt` later the rails have been in range, VIO3 above 3.05 V and RESET_N high for 10 ms; the main domain leaves reset,
the bridge unlocks and the Oasis runs on VIO3. -/
def execPowerOn (dt : Nat) (s : State) : Host.Outcome State Fault Refusal :=
  let s1 := s.advance dt
  if s1.pow.phase = .off then
    let s2 := s1.setPow fun p => { p with phase := .rom, rails := true, warn := false, pfail := false, vbatAt := if p.rails then p.vbatAt else s1.t }
    .next ((({ s2 with locked := false } : State).setBit rOasPwr 0 false).setBit rSysClk 0 true)
  else .next s1

/-- RESET_N_ASSERT (R645): `dt` later RESET_N is low for at least 1 µs; the main domain resets at once, and the Oasis is untouched. -/
def execResetNAssert (dt : Nat) (s : State) : Host.Outcome State Fault Refusal := .next ((s.advance dt).mainReset .off 1)

/-- SUPPLY_RESET (R651, R663, R668): `dt` later VIO3 falls below V_RESET: the bridge is locked, the main domain resets, the Oasis switches to VBAT and
holds PWRON_CTL low for OFF_MS. -/
def execSupplyReset (dt : Nat) (s : State) : Host.Outcome State Fault Refusal :=
  let s1 := s.advance dt
  let s2 := ({ s1 with locked := true } : State).mainReset .off 2
  let off := min 10000 (s2.fld rOasPwr 29 16)
  let s3 := (s2.setPow fun p => { p with rails := false, warn := true, pwronAt := if off = 0 then none else some (s2.t + msU off) }).setBit rOasPwr 0 true
  .next (if off = 0 then s3 else s3.setBit rOasPwr 2 true)

/-- BRIDGE_LOCK (R654, R662): `dt` later VIO3 falls below V_LOCK. -/
def execBridgeLock (dt : Nat) (s : State) : Host.Outcome State Fault Refusal := .next ({ s.advance dt with locked := true } : State)

/-! ### The Khamsin sequence (R652 to R659) -/

/-- The rings a warning holds (R92). -/
def heldRings : List Nat := [1, 3, 5, 7, 9, 15]

/-- The sequencer takes what waits on Q0. -/
def State.drainQ0 : Nat → State → State
  | 0, s => s
  | n + 1, s =>
    if s.seqTakes && decide (s.tasksUsed < poolSize) then
      match s.ringTake 0 with
      | (.packet cut ty ws, s1) => State.drainQ0 n ((s1.takeInput 0 (lengthWord cut ty ws.length) ws).ringDrain 0)
      | _ => s
    else s

/-- A supply entry goes through Q0 into the journal at once (R53, R654, R659). -/
def State.journalSupply (s : State) (k : Kind) (payload : Bytes) : State :=
  let s1 := s.offer 0 { kind := k, stamp := s.dev, payload := payload }
  State.drainQ0 ((s1.ring 0).w - (s1.ring 0).r + 1) s1

/-- Change the Khamsin sequence. -/
def State.setKham (s : State) (f : Khamsin → Khamsin) : State := s.setPow fun p => { p with kham := p.kham.map f }

/-- Step 1 (R92, R654): the ingress rings hold, KHAMSIN sets, power-line transmission stops. -/
def State.khamHold (s : State) : State :=
  let s1 := heldRings.foldl (fun a n => if (a.ring n).en then a.setRing n { a.ring n with held := true } else a) s
  let s2 : State := { s1 with seq := { s1.seq with khamsin := true }, med := { s1.med with khamsin := s1.med.run },
                              plc := { s1.plc with phases := s1.plc.phases.map fun p => { p with txEnd := min p.txEnd p.count, sending := [] } } }
  s2.irq rSysIrq 0

/-- Step 2 (R654): the holder journals SUP_WARN; with staging full the flush comes first, so that it finds room (R574). -/
def State.khamJournal (s : State) (pfail : Bool) : State :=
  let s1 := if s.stageFull then s.khamsinFlush else s
  let s2 := s1.journalSupply .supWarn [if pfail then 1 else 0]
  match (s2.seq.journal.filter fun e => e.kind == .supWarn && decide (s.seq.nextJsn ≤ e.jsn)).getLast? with
  | some e => s2.setKham fun k => { k with warn := some (e.jsn, e.stamp) }
  | none => s2

/-- Step 3 (R575): the flush; MED_STAT.KHAMSIN reads 0 once no journal unit waits unverified. -/
def State.khamFlush (s : State) : State :=
  let s1 := s.khamsinFlush
  s1.setMed fun m => { m with khamsin := m.khamsin && !(m.wait.isEmpty && m.fill.isNone) }

/-- Step 4 (R655): the outage record, while the bridge is open; ORDERLY when step 3 has verified. -/
def State.khamRecord (s : State) : State :=
  if s.locked then s
  else
    let j := match s.pow.kham with | some k => k.warn | none => none
    let s1 := match j with
      | some (jsn, stamp) => (((s.setReg rOasOutageLo (stamp % 2 ^ 32)).setReg rOasOutageHi (stamp / 2 ^ 32)).setReg rOasOutjsnLo (jsn % 2 ^ 32)).setReg
          rOasOutjsnHi (jsn / 2 ^ 32)
      | none => s
    let ok := match j with | some (jsn, _) => decide (jsn ≤ s.seq.durable) | none => s.med.wait.isEmpty && s.med.fill.isNone
    s1.setBit rOasPwr 3 ok

/-- An event record of the supplies enters the log and the diagnostic stream, and with `once` a datagram of its own is sent once (R455, R656, R659). -/
def State.gaspRecord (s : State) (cls arg : Nat) (data : Bytes) : State :=
  let b := eventBody cls arg s.cfg.sysaddr 0 (subjWord none 0) s.dev 0 s.seq.unsure s.seq.regressed (!s.sealed) data
  let r := b ++ s.tag b
  let s1 := (if s.bitOf rEvrCtl 0 then s.closeFold.logRecord r else s).diagRecord 8 r
  s1.sendBatch true s.net.esn 1 s1.net.session (batchRecord 8 r)

/-- Step 5 (R656): the backhaul last gasp, of a holder that may transmit. -/
def State.khamNet (s : State) : State :=
  if s.bitOf rSysGasp 0 && s.netTx then
    match s.pow.kham with
    | some k => (s.gaspRecord 0x70 (if k.pfail then 1 else 0) (le 8 (match k.warn with | some w => w.1 | none => 0) ++ le 8 s.seq.durable)).setKham
        fun x => { x with net := true }
    | none => s
  else s

/-- The channels of the radio last gasp in order, each with its mode (R657): distinct TX channels of the polled classes, the WAKE's airtime at most 5 ms,
at most RAD_N of them. -/
def State.gaspChans (s : State) : List (Nat × Nat) :=
  let cs := ((s.cfg.radio.filter fun c => decide (0 < c.pollDiv)).map fun c => (c.txCh, c.txMode)).foldl
    (fun (acc : List (Nat × Nat)) c => if acc.any fun x => x.1 == c.1 then acc else acc ++ [c]) []
  (cs.filter fun c => decide (s.frameAir c.2 wakeLen ≤ msU 5)).take (min 2 (s.fld rSysGasp 2 1))

/-- Send a broadcast WAKE on a channel, when the radio may send it and the budget, the ACK reserve included, pays (R346, R371, R657). -/
def State.gaspWake (s : State) (cd : Nat) (c : Nat × Nat) : Bool × State :=
  let air := s.frameAir c.2 wakeLen
  if s.radTx && !s.txBusy s.t (s.t + air) && s.ackPays (s.txCost air) then
    (true, (s.radSend (c.1 + c.2 * 4096) air (wakeFrame 0xFFFFFF cd)).advance (air + s.paLead))
  else (false, s)

/-- Step 6 (R657): the radio last gasp. -/
def State.khamRadio (s : State) : State :=
  s.gaspChans.foldl (fun a c =>
    match a.gaspWake 0xFFFFFFFF c with
    | (true, b) => b.setKham fun k => { k with chans := k.chans ++ [c] }
    | (false, b) => b) s

/-- One step of the sequence. -/
def State.khamStep (s : State) (pfail : Bool) (n : Nat) : State :=
  let s1 := match n with
    | 1 => s.khamHold
    | 2 => s.khamJournal pfail
    | 3 => s.khamFlush
    | 4 => s.khamRecord
    | 5 => s.khamNet
    | _ => s.khamRadio
  s1.setKham fun k => { k with step := n }

/-- SUPPLY_WARNING (R651 to R657): `dt` later VIO3 crosses V_WARN, or PFAIL_N falls. The first warning starts the sequence, of which `steps` steps run
before the supply changes again; further warnings journal nothing. It runs once the sequencer is in service. -/
def execSupplyWarning (dt : Nat) (pfail : Bool) (steps : Fin 7) (s : State) : Host.Outcome State Fault Refusal :=
  let s1 := s.advance dt
  let s2 := s1.setPow fun p => { p with warn := true, pfail := p.pfail || pfail }
  if s2.pow.kham.isSome || !s2.bitOf rJsqCtl 0 then .next s2
  else
    let s3 := s2.setPow fun p => { p with kham := some { from_ := s2.t, pfail := pfail } }
    .next ((List.range steps.val).foldl (fun a n => a.khamStep pfail (n + 1)) s3)

/-- DIP_END (R659, R660): `dt` later VIO3 has stayed above V_OK for 10 ms with PFAIL_N high. The bridge unlocks, SUP_DIP is journaled, restoration notices
follow the gasps that were sent, the rings are released and KHAMSIN clears. -/
def execDipEnd (dt : Nat) (s : State) : Host.Outcome State Fault Refusal :=
  let s1 := s.advance dt
  if s1.pow.phase = .off ∨ s1.pow.warn = false then .next s1
  else
    let s2 : State := { s1 with locked := false, pow := { s1.pow with warn := false, pfail := false } }
    match s1.pow.kham with
    | none => .next s2
    | some k =>
      let us := (s2.t - k.from_) * 1000000 / second
      let s3 := ((s2.journalSupply .supDip (le 4 (min us (2 ^ 32 - 1)))).setReg rSysDip (min us (2 ^ 32 - 1))).irq rSysIrq 1
      let s4 := if k.net ∧ s3.netTx = true then s3.gaspRecord 0x71 (min us (2 ^ 32 - 1)) [] else s3
      let s5 := k.chans.foldl (fun a c => (a.gaspWake 0xFFFFFFFE c).2) s4
      let s6 := heldRings.foldl (fun a n => (a.setRing n { a.ring n with held := false }).wadi n) s5
      .next ({ s6 with seq := { s6.seq with khamsin := false }, med := { s6.med with khamsin := false, nand := s6.med.nand.renewReserve (s6.med.slcPrefix ≠ 0) }, pow := { s6.pow with kham := none } } : State)

/-! ### Clocks (R646 to R648) -/

/-- A transmission in progress stops now, and the exchange with it; what is being received is lost (R648). -/
def State.txStop (s : State) : State :=
  let cut (x : TxSpan) : TxSpan := { x with count := if x.period = 0 then x.count else min x.count ((s.t - x.from_) / x.period + 1),
                                            air := if x.period = 0 then min x.air (s.t - x.from_) else x.air }
  s.setRad fun r => { r with txs := (r.txs ++ (match r.xch with | some x => if x.step = .train then [x.span] else [] | none => [])).map cut, xch := none, cutAt := some s.t }


/-- PLL_UNLOCK (R648): `dt` later PLL_A (0), PLL_B (1), the radio (2) or the feeder (3) synthesizer loses lock. -/
def execPllUnlock (dt : Nat) (n : Fin 4) (s : State) : Host.Outcome State Fault Refusal :=
  let s1 := s.advance dt
  if s1.pow.locks.getD n.val false = false then .next s1
  else
    let s2 := ((s1.setPow fun p => { p with locks := p.locks.set n.val false }).setBit rSysClk (5 + n.val) true).irq rSysIrq 4
    match n.val with
    | 0 => .next ((s2.eventNow 0x74 0).mainReset .rom 6)
    | 1 =>
      let s3 := (s2.event 0x74 1).setNet fun x => { x with ports := x.ports.map fun p => { p with up := false } }
      .next ((List.range 2).foldl (fun a l => if (a.link l).up then (a.setLink l fun x => { dis := x.dis }).irq rSefIrq 2 else a) s3)
    | 2 => .next (((s2.event 0x74 2).payTrain).txStop)
    | _ => .next (s2.event 0x74 3)

/-- PLL_RELOCK (R647, R648): `dt` later an unlocked PLL that runs regains lock. -/
def execPllRelock (dt : Nat) (n : Fin 4) (s : State) : Host.Outcome State Fault Refusal :=
  let s1 := s.advance dt
  .next (if s1.pow.plls.getD n.val false then s1.setPow fun p => { p with locks := p.locks.set n.val true } else s1)

/-! ### PWRON_CTL and VBAT (R663 to R669) -/

/-- PWRON_CTL is released (R668, R669). -/
def State.pwronFree (s : State) : State := (s.setPow fun p => { p with pwronAt := none }).setBit rOasPwr 2 false

/-- PWRON_HOLD_END (R668): OFF_MS after a V_RESET. -/
def execPwronHoldEnd (s : State) : Host.Outcome State Fault Refusal :=
  match s.pow.pwronAt with
  | some d => .next (s.until d).pwronFree
  | none => .next s

/-- WAKE_N (R669): `dt` later WAKE_N has been low for 10 ms. -/
def execWakeN (dt : Nat) (s : State) : Host.Outcome State Fault Refusal := .next (s.advance dt).pwronFree

/-- VBAT_LATCH (R665, R669): `dt` later, on VBAT, VBAT falls below 1.80 V. -/
def execVbatLatch (dt : Nat) (s : State) : Host.Outcome State Fault Refusal :=
  let s1 := s.advance dt
  .next (if s1.onVbat then (s1.setBit rOasStat 0 true).pwronFree else s1)

/-- OASIS_RESET (R14, R664, R669): `dt` later VBAT falls below 1.50 V while it feeds the Oasis, or Oasis power is first applied; every OAS register resets. -/
def execOasisReset (dt : Nat) (s : State) : Host.Outcome State Fault Refusal :=
  let s1 := s.advance dt
  .next (if s1.onVbat then
    ({ s1 with regs := s1.regs.filter (fun p => !(inOas p.1)), latch := s1.latch.filter (fun p => !(inOas p.1)), oas := {} } : State).pwronFree
  else s1)

/-- VBAT_MEASURE (R667): every 64 s on VIO3 the comparator reads VBAT, in mV. -/
def execVbatMeasure (mv : Fin 4096) (s : State) : Host.Outcome State Fault Refusal :=
  if s.onVbat then .next s
  else
    let s1 := s.until (s.pow.vbatAt + 64 * second)
    let s2 := (s1.setPow fun p => { p with vbatAt := s1.t }).setReg rOasVbat mv.val
    .next (if mv.val < 2200 then ((s2.setBit rOasPwr 1 true).irq rSysIrq 2).event 0x72 mv.val else s2)

/-! ### The thermal governor (R142, R671) -/

/-- T_HI as it acts (R673). -/
def State.tHi (s : State) : Int := let v := s.fld rSysTherm 7 0; if 85 ≤ v ∧ v ≤ 120 then v else 115

/-- The dune with the fewest queued tasks among those awake and not about to nap. DESIGN CHOICE: among equals the lowest index, since R142 names no tie
rule. -/
def State.leastDune (s : State) : Option Nat :=
  (sortBy (fun a b => decide (s.duneTasks a < s.duneTasks b)) ((List.range 8).filter s.duneWorks)).head?

/-- The dunes with the fewest queued tasks are to enter NAP while more work than are allowed awake (R142). -/
def State.napExcess : Nat → State → State
  | 0, s => s
  | k + 1, s =>
    if s.erg.maxAwake < ((List.range 8).filter s.duneWorks).length then
      match s.leastDune with
      | some d => State.napExcess k (s.setDune d { s.dune d with leaving := true })
      | none => s
    else s

/-- The dunes that were to nap stay, as far as the limit lets them (R142). -/
def State.stayDunes (s : State) : State := (List.range 8).foldl (fun a d => a.setDune d { a.dune d with leaving := false }) s

/-- Change MAX_AWAKE (R142, R671). -/
def State.setMaxAwake (s : State) (n : Nat) (tj : Int) : State :=
  if n = s.erg.maxAwake then s
  else
    let s1 : State := { s with erg := { s.erg with maxAwake := n } }
    let s2 := (State.napExcess 8 s1.stayDunes).leaveDunes
    (if n < s.erg.maxAwake then s2.irq rErgIrq 2 else s2).event 0x73 (n + ((tj.fdiv 4) % 256).toNat * 256)

/-- The bin of a temperature in which hours of operation are counted (R588). -/
def hoursBin (c : Int) : Nat :=
  if c < -20 then 0 else if c < 0 then 1 else if c < 20 then 2 else if c < 40 then 3 else if c < 60 then 4 else if c < 80 then 5 else if c < 100 then 6 else 7

/-- THERMAL_GOVERNOR (R671): every 10 ms the junction temperature is read, in 0.25 °C. -/
def execThermalGovernor (tj : Int) (s : State) : Host.Outcome State Fault Refusal :=
  if s.pow.phase = .off then .next s
  else
    let s1 := s.until (s.pow.thermAt + msU 10)
    let s2 := ((s1.setPow fun p => { p with thermAt := s1.t }).setFld rSysTherm 25 16 (tj % 1024).toNat).setMed fun m =>
      if m.run then { m with nand := { m.nand with temph := m.nand.temph.set (hoursBin (tj.fdiv 4)) (m.nand.temph.getD (hoursBin (tj.fdiv 4)) 0 + 1) } } else m
    let hot := decide (4 * s2.tHi ≤ tj)
    let cool := decide (tj < 4 * (s2.tHi - 5))
    let m := s2.erg.maxAwake
    if 500 ≤ tj then
      .next (((s2.setPow fun p => { p with lowAt := s2.t, highAt := s2.t }).setMaxAwake 1 tj).irq rSysIrq 3)
    else if hot then
      let s3 := s2.setPow fun p => { p with highAt := s2.t }
      .next (if s2.pow.lowAt + msU 100 ≤ s2.t then (s3.setPow fun p => { p with lowAt := s2.t }).setMaxAwake (max 1 (m - 1)) tj else s3)
    else if cool then
      let s3 := s2.setPow fun p => { p with lowAt := s2.t }
      .next (if s2.pow.highAt + second ≤ s2.t then (s3.setPow fun p => { p with highAt := s2.t }).setMaxAwake (min 8 (m + 1)) tj else s3)
    else .next (s2.setPow fun p => { p with lowAt := s2.t, highAt := s2.t })

end Sys2Proof.Machine
end

