-- ==== Sys2Proof/Machine/Dispatch.lean ====
section
/-! DEFINITION. The dispatch of every command to its meaning: one arm per constructor of Instr. -/
namespace Sys2Proof.Machine

/-- The effect of a command on everything but the queue of waiting commands. -/
def exec (i : Instr) (s : State) : Host.Outcome State Fault Refusal :=
  match i with
  | .powerOn dt => Sys2Proof.Machine.execPowerOn dt s
  | .resetNAssert dt => Sys2Proof.Machine.execResetNAssert dt s
  | .boot dt restore recover card geom vio33 upTo => Sys2Proof.Machine.execBoot dt restore recover card geom vio33 upTo s
  | .ladderRung dt => Sys2Proof.Machine.execLadderRung dt s
  | .addressFault w addr => Sys2Proof.Machine.execAddressFault w addr s
  | .registerWrite w addr size v => Sys2Proof.Machine.execRegisterWrite w addr size v s
  | .journalInput ring => Sys2Proof.Machine.execJournalInput ring s
  | .ringLoss ring => Sys2Proof.Machine.execRingLoss ring s
  | .boundaryHoldStart => Sys2Proof.Machine.execBoundaryHoldStart s
  | .boundaryHoldEnd => Sys2Proof.Machine.execBoundaryHoldEnd s
  | .drbgDraw k => Sys2Proof.Machine.execDrbgDraw k s
  | .ckptCut => Sys2Proof.Machine.execCkptCut s
  | .jsqCkptNow w => Sys2Proof.Machine.execJsqCkptNow w s
  | .updHourCkpt => Sys2Proof.Machine.execUpdHourCkpt s
  | .ckptValid ok => Sys2Proof.Machine.execCkptValid ok s
  | .durabilityStall => Sys2Proof.Machine.execDurabilityStall s
  | .qfOpen p ring => Sys2Proof.Machine.execQfOpen p ring s
  | .qfPush p ring v => Sys2Proof.Machine.execQfPush p ring v s
  | .qfClose p ring v => Sys2Proof.Machine.execQfClose p ring v s
  | .qfPop p ring => Sys2Proof.Machine.execQfPop p ring s
  | .qfDrop p ring => Sys2Proof.Machine.execQfDrop p ring s
  | .ringStallRelease ring => Sys2Proof.Machine.execRingStallRelease ring s
  | .wadiMarkerWrite ring => Sys2Proof.Machine.execWadiMarkerWrite ring s
  | .ringStale ring => Sys2Proof.Machine.execRingStale ring s
  | .taskDispatch => Sys2Proof.Machine.execTaskDispatch s
  | .taskStart g => Sys2Proof.Machine.execTaskStart g s
  | .barchanMove g => Sys2Proof.Machine.execBarchanMove g s
  | .commitTurn k => Sys2Proof.Machine.execCommitTurn k s
  | .cipherResult => Sys2Proof.Machine.execCipherResult s
  | .duneNap d => Sys2Proof.Machine.execDuneNap d s
  | .duneDeep d => Sys2Proof.Machine.execDuneDeep d s
  | .duneWake => Sys2Proof.Machine.execDuneWake s
  | .arbWindowEnd => Sys2Proof.Machine.execArbWindowEnd s
  | .arbLatmaxClear w => Sys2Proof.Machine.execArbLatmaxClear w s
  | .rosterAdd src slot eui cls med grp wkey => Sys2Proof.Machine.execRosterAdd src slot eui cls med grp wkey s
  | .rosterDecom src slot => Sys2Proof.Machine.execRosterDecom src slot s
  | .rosterRelease src slot => Sys2Proof.Machine.execRosterRelease src slot s
  | .rosterSet src slot cls grp => Sys2Proof.Machine.execRosterSet src slot cls grp s
  | .closeNow src => Sys2Proof.Machine.execCloseNow src s
  | .readout src => Sys2Proof.Machine.execReadout src s
  | .cmdCkptNow src => Sys2Proof.Machine.execCmdCkptNow src s
  | .holdEnd src => Sys2Proof.Machine.execHoldEnd src s
  | .timeSet src time => Sys2Proof.Machine.execTimeSet src time s
  | .meterSet src sel pga0 pga1 pga2 pga3 => Sys2Proof.Machine.execMeterSet src sel pga0 pga1 pga2 pga3 s
  | .push src slot id att dtype payload => Sys2Proof.Machine.execPush src slot id att dtype payload s
  | .fwDeclare src image blocks length digest mask => Sys2Proof.Machine.execFwDeclare src image blocks length digest mask s
  | .fwLoad src image block data => Sys2Proof.Machine.execFwLoad src image block data s
  | .fwSend src image round med first last ttl => Sys2Proof.Machine.execFwSend src image round med first last ttl s
  | .fwDelete src image => Sys2Proof.Machine.execFwDelete src image s
  | .fwBlockPump plc => Sys2Proof.Machine.execFwBlockPump plc s
  | .keyRoll src purpose => Sys2Proof.Machine.execKeyRoll src purpose s
  | .commission src sig => Sys2Proof.Machine.execCommission src sig s
  | .lcField src sig => Sys2Proof.Machine.execLcField src sig s
  | .lcReturn src sig => Sys2Proof.Machine.execLcReturn src sig s
  | .lcScrap src sig => Sys2Proof.Machine.execLcScrap src sig s
  | .rearm src sig => Sys2Proof.Machine.execRearm src sig s
  | .closeSweepStep => Sys2Proof.Machine.execCloseSweepStep s
  | .balanceClose g => Sys2Proof.Machine.execBalanceClose g s
  | .feederBlockEnd xs => Sys2Proof.Machine.execFeederBlockEnd xs s
  | .feederCycle p xs => Sys2Proof.Machine.execFeederCycle p xs s
  | .tamperCondition c xs => Sys2Proof.Machine.execTamperCondition c xs s
  | .settlingEnd xs => Sys2Proof.Machine.execSettlingEnd xs s
  | .radioFrameReceive dt chan rssi modeSw fcs4 dw psdu => Sys2Proof.Machine.execRadioFrameReceive dt chan rssi modeSw fcs4 dw psdu s
  | .radioAckSend => Sys2Proof.Machine.execRadioAckSend s
  | .wakeTrainStart slot => Sys2Proof.Machine.execWakeTrainStart slot s
  | .pollSend => Sys2Proof.Machine.execPollSend s
  | .fullTrainStart => Sys2Proof.Machine.execFullTrainStart s
  | .exchangeTimeout => Sys2Proof.Machine.execExchangeTimeout s
  | .radioDownSend => Sys2Proof.Machine.execRadioDownSend s
  | .radioDownNoack => Sys2Proof.Machine.execRadioDownNoack s
  | .radioDownExpired => Sys2Proof.Machine.execRadioDownExpired s
  | .radTxDown => Sys2Proof.Machine.execRadTxDown s
  | .radTxCaravan => Sys2Proof.Machine.execRadTxCaravan s
  | .radTxPollNow => Sys2Proof.Machine.execRadTxPollNow s
  | .caravanCacheExpiry plc => Sys2Proof.Machine.execCaravanCacheExpiry plc s
  | .zcEdge dt phase rising heard => Sys2Proof.Machine.execZcEdge dt phase rising heard s
  | .plcFrameReceive dt phase heard => Sys2Proof.Machine.execPlcFrameReceive dt phase heard s
  | .plcShortAckSend phase => Sys2Proof.Machine.execPlcShortAckSend phase s
  | .plcAckTimeout phase => Sys2Proof.Machine.execPlcAckTimeout phase s
  | .plcContend phase r => Sys2Proof.Machine.execPlcContend phase r s
  | .plcBeacon => Sys2Proof.Machine.execPlcBeacon s
  | .plcDownNoack => Sys2Proof.Machine.execPlcDownNoack s
  | .plcDownExpired => Sys2Proof.Machine.execPlcDownExpired s
  | .plcTxDown => Sys2Proof.Machine.execPlcTxDown s
  | .plcTxCaravan => Sys2Proof.Machine.execPlcTxCaravan s
  | .plcTxReq => Sys2Proof.Machine.execPlcTxReq s
  | .bridgeFrame dt port fcsOk frame => Sys2Proof.Machine.execBridgeFrame dt port fcsOk frame s
  | .portLinkChange dt port up slow => Sys2Proof.Machine.execPortLinkChange dt port up slow s
  | .devicePortReceive => Sys2Proof.Machine.execDevicePortReceive s
  | .backCommit => Sys2Proof.Machine.execBackCommit s
  | .cmdDatagramCheck => Sys2Proof.Machine.execCmdDatagramCheck s
  | .batchIngest => Sys2Proof.Machine.execBatchIngest s
  | .headBackSend => Sys2Proof.Machine.execHeadBackSend s
  | .releaseEnter => Sys2Proof.Machine.execReleaseEnter s
  | .batchSend diag n => Sys2Proof.Machine.execBatchSend diag n s
  | .batchRto diag => Sys2Proof.Machine.execBatchRto diag s
  | .pauseSend => Sys2Proof.Machine.execPauseSend s
  | .mdioGo w v => Sys2Proof.Machine.execMdioGo w v s
  | .ptpAnnounce dt m => Sys2Proof.Machine.execPtpAnnounce dt m s
  | .ptpSync dt src port origin => Sys2Proof.Machine.execPtpSync dt src port origin s
  | .ptpDelayExchange dt port t1 t2 t3 t4 => Sys2Proof.Machine.execPtpDelayExchange dt port t1 t2 t3 t4 s
  | .ptpLoss => Sys2Proof.Machine.execPtpLoss s
  | .lrateSave => Sys2Proof.Machine.execLrateSave s
  | .timeStepApply => Sys2Proof.Machine.execTimeStepApply s
  | .oasisTrimTick temp => Sys2Proof.Machine.execOasisTrimTick temp s
  | .oasisCalibrate => Sys2Proof.Machine.execOasisCalibrate s
  | .oasTcommit w => Sys2Proof.Machine.execOasTcommit w s
  | .oasCommitApply => Sys2Proof.Machine.execOasCommitApply s
  | .oasTime0Read w => Sys2Proof.Machine.execOasTime0Read w s
  | .oasTime3Read w => Sys2Proof.Machine.execOasTime3Read w s
  | .freezeTimeout w => Sys2Proof.Machine.execFreezeTimeout w s
  | .ppsPulse => Sys2Proof.Machine.execPpsPulse s
  | .ctlPulse n => Sys2Proof.Machine.execCtlPulse n s
  | .evtCapture dt e rising => Sys2Proof.Machine.execEvtCapture dt e rising s
  | .cipherRequest => Sys2Proof.Machine.execCipherRequest s
  | .laneComplete lane => Sys2Proof.Machine.execLaneComplete lane s
  | .unwrapComplete lane => Sys2Proof.Machine.execUnwrapComplete lane s
  | .eccComplete e => Sys2Proof.Machine.execEccComplete e s
  | .keyRemask => Sys2Proof.Machine.execKeyRemask s
  | .trngHealthFail => Sys2Proof.Machine.execTrngHealthFail s
  | .trngHealthPass => Sys2Proof.Machine.execTrngHealthPass s
  | .tamperAlarm dt src => Sys2Proof.Machine.execTamperAlarm dt src s
  | .holdCmd addr port dgram => Sys2Proof.Machine.execHoldCmd addr port dgram s
  | .mediaJournalWrite => Sys2Proof.Machine.execMediaJournalWrite s
  | .journalFlushTimer => Sys2Proof.Machine.execJournalFlushTimer s
  | .unitVerify region lua corr => Sys2Proof.Machine.execUnitVerify region lua corr s
  | .mediaRead region lua tried corr rebuilt => Sys2Proof.Machine.execMediaRead region lua tried corr rebuilt s
  | .programFail sb lun => Sys2Proof.Machine.execProgramFail sb lun s
  | .eraseFail sb lun => Sys2Proof.Machine.execEraseFail sb lun s
  | .bgCollection => Sys2Proof.Machine.execBgCollection s
  | .fgCollection => Sys2Proof.Machine.execFgCollection s
  | .patrolRead corr => Sys2Proof.Machine.execPatrolRead corr s
  | .mediaHealth => Sys2Proof.Machine.execMediaHealth s
  | .eventRecord => Sys2Proof.Machine.execEventRecord s
  | .evrRewind w => Sys2Proof.Machine.execEvrRewind w s
  | .evrWin w => Sys2Proof.Machine.execEvrWin w s
  | .enumSample dt level => Sys2Proof.Machine.execEnumSample dt level s
  | .enum => Sys2Proof.Machine.execEnum s
  | .enumResend => Sys2Proof.Machine.execEnumResend s
  | .heartbeatSend => Sys2Proof.Machine.execHeartbeatSend s
  | .heartbeat => Sys2Proof.Machine.execHeartbeat s
  | .peerTimeout p => Sys2Proof.Machine.execPeerTimeout p s
  | .linkFrameReceive dt link frame => Sys2Proof.Machine.execLinkFrameReceive dt link frame s
  | .linkAck dt link nack lseq => Sys2Proof.Machine.execLinkAck dt link nack lseq s
  | .linkRetxTimeout link => Sys2Proof.Machine.execLinkRetxTimeout link s
  | .jrep => Sys2Proof.Machine.execJrep s
  | .jack => Sys2Proof.Machine.execJack s
  | .jackSend => Sys2Proof.Machine.execJackSend s
  | .digest => Sys2Proof.Machine.execDigest s
  | .digestSend => Sys2Proof.Machine.execDigestSend s
  | .xreq => Sys2Proof.Machine.execXreq s
  | .xfer => Sys2Proof.Machine.execXfer s
  | .mgmtRd => Sys2Proof.Machine.execMgmtRd s
  | .mgmtWr => Sys2Proof.Machine.execMgmtWr s
  | .mgmtRsp => Sys2Proof.Machine.execMgmtRsp s
  | .seifCmd => Sys2Proof.Machine.execSeifCmd s
  | .image => Sys2Proof.Machine.execImage s
  | .tokenClaim dt high highFor => Sys2Proof.Machine.execTokenClaim dt high highFor s
  | .catchupTimeout => Sys2Proof.Machine.execCatchupTimeout s
  | .sefKick w => Sys2Proof.Machine.execSefKick w s
  | .tokenWatchdog => Sys2Proof.Machine.execTokenWatchdog s
  | .sefRelease w => Sys2Proof.Machine.execSefRelease w s
  | .tokenFault dt => Sys2Proof.Machine.execTokenFault dt s
  | .roleConflict => Sys2Proof.Machine.execRoleConflict s
  | .resync => Sys2Proof.Machine.execResync s
  | .supplyWarning dt pfail steps => Sys2Proof.Machine.execSupplyWarning dt pfail steps s
  | .bridgeLock dt => Sys2Proof.Machine.execBridgeLock dt s
  | .supplyReset dt => Sys2Proof.Machine.execSupplyReset dt s
  | .dipEnd dt => Sys2Proof.Machine.execDipEnd dt s
  | .pllUnlock dt n => Sys2Proof.Machine.execPllUnlock dt n s
  | .pwronHoldEnd => Sys2Proof.Machine.execPwronHoldEnd s
  | .wakeN dt => Sys2Proof.Machine.execWakeN dt s
  | .vbatLatch dt => Sys2Proof.Machine.execVbatLatch dt s
  | .oasisReset dt => Sys2Proof.Machine.execOasisReset dt s
  | .vbatMeasure mv => Sys2Proof.Machine.execVbatMeasure mv s
  | .thermalGovernor tj => Sys2Proof.Machine.execThermalGovernor tj s
  | .status => Sys2Proof.Machine.execStatus s
  | .writeFw slot off data => Sys2Proof.Machine.execWriteFw slot off data s
  | .writeCfg off data => Sys2Proof.Machine.execWriteCfg off data s
  | .commitFw slot => Sys2Proof.Machine.execCommitFw slot s
  | .checkCfg => Sys2Proof.Machine.execCheckCfg s
  | .restart => Sys2Proof.Machine.execRestart s
  | .lcCmd block => Sys2Proof.Machine.execLcCmd block s
  | .replay order => Sys2Proof.Machine.execReplay order s
  | .replayRead off len => Sys2Proof.Machine.execReplayRead off len s
  | .loRegisterRead w addr => Sys2Proof.Machine.execLoRegisterRead w addr s
  | .linkTrained dt link => Sys2Proof.Machine.execLinkTrained dt link s
  | .pllRelock dt n => Sys2Proof.Machine.execPllRelock dt n s
  | .zcMissingCrossing phase heard => Sys2Proof.Machine.execZcMissingCrossing phase heard s
  | .noZc xs => Sys2Proof.Machine.execNoZc xs s
  | .plcShortAckReceive dt phase heard => Sys2Proof.Machine.execPlcShortAckReceive dt phase heard s
  | .duplicateAddressDetection ok => Sys2Proof.Machine.execDuplicateAddressDetection ok s
  | .bridgeAgeing => Sys2Proof.Machine.execBridgeAgeing s
  | .leapInstant => Sys2Proof.Machine.execLeapInstant s
  | .eraseComplete sb => Sys2Proof.Machine.execEraseComplete sb s
  | .mdioFrameDone dt data => Sys2Proof.Machine.execMdioFrameDone dt data s
  | .regressedEnd => Sys2Proof.Machine.execRegressedEnd s
  | .pauseReceive dt port quanta => Sys2Proof.Machine.execPauseReceive dt port quanta s
  | .pauseExpiry port => Sys2Proof.Machine.execPauseExpiry port s
  | .repeatWindowEnd => Sys2Proof.Machine.execRepeatWindowEnd s

end Sys2Proof.Machine
end

