-- ==== Sys2Proof/Safety.lean ====
section
/-! DEFINITION. What holds of the block in every run, and the terms in which claims say what a command leaves as it was. -/
namespace Sys2Proof.Machine

/-- The invariant of the stored state: registers, working RAM and code RAM are in their canonical form (addresses strictly rising, nothing
listed that reads as unlisted does), and there are the sixteen rings Q0 to Q15 (R77). -/
def State.Inv (s : State) : Prop :=
  swf regReset s.regs = true ∧ Memory.wf s.wram = true ∧ Memory.wf s.code = true ∧ s.rings.length = 16

/-- A unit that takes inputs, holds none back and has no task and no restart waiting, with room for outputs. -/
structure State.Quiet (s : State) : Prop where
  takes  : s.seqTakes = true
  hold   : s.seq.hold = none
  queue  : s.erg.toDispatch = []
  keys   : s.erg.keys = []
  run    : s.bitOf rErgCtl 0 = true
  cells  : s.cellsUsed ≤ 60000
  stays  : s.boot.restartDue = false
  clean  : s.arb.flips = []

/-- Slot `i` has met every boundary fence there is: none lies above the last JSN it was worked at (R131). -/
def State.Fenced (s : State) (i : Nat) : Prop := ∀ f ∈ s.ctx.fences, f.bnd = true → f.jsn ≤ (s.slot i).lastJsn

/-- A ring that a packet of `k` payload words can pass at once: enabled, empty, not held, with no loss to mark, and large enough (R77, R89, R92). -/
structure State.RingFree (s : State) (n k : Nat) : Prop where
  en     : (s.ring n).en = true
  held   : (s.ring n).held = false
  opn    : (s.ring n).opn = .closed
  pend   : (s.ring n).pend = 0
  idle   : (s.ring n).waiting = []
  empty  : (s.ring n).r = (s.ring n).w ∧ (s.ring n).vis = (s.ring n).w ∧ (s.ring n).remain = 0
  fits   : k + 2 ≤ (s.ring n).size

/-- Stamp of the input that submits a command (R30): the frame's that carried it, else now. -/
def State.givenStamp (s : State) (src code target : Nat) (body : Bytes) : Nat := (s.cmdInput src code target body).2.stamp

/-- A producer at its own port of a ring, and which source it is (R79, R107): the hardware producer or a grain, or device code at the registers of a
ring that grains write. -/
def writesAs (p : Port) (ring : Nat) (reg : Bool) : Prop := p = .owner ∧ reg = false ∨ p = .reg .dev ∧ ringByGrains ring = true ∧ reg = true

/-- The answers once a port's access is answered; a hardware block's own access gets none (R11). -/
def State.told (s : State) (p : Port) (r : Reply) : PerWho Reply := match p with | .owner => s.reply | .reg w => s.reply.put w r

/-- What a ring's hardware consumer takes in `k` takings, one after another. -/
def ringTakes (n : Nat) : Nat → State → List Item
  | 0, _ => []
  | k + 1, s => (s.ringTake n).1 :: ringTakes n k (s.ringTake n).2

/-- The ring on which a command is submitted (R77). -/
def State.givenRing (s : State) (src code target : Nat) (body : Bytes) : Nat := (s.cmdInput src code target body).1

/-- The origin of a command given now (R459, R462). -/
def State.givenOrigin (s : State) (src code target : Nat) (body : Bytes) : Origin :=
  s.origin { kind := .mgmtCmd, jsn := s.seq.nextJsn, stamp := s.givenStamp src code target body, payload := le 8 src }

/-- A command given to a quiet unit with SRC_JSN 0 (the maintenance port or the chain) or the JSN of an earlier entry, on a free ring that the sequencer
takes from, by an origin that may give it (R77, R459, R552, R554). -/
structure State.Given (s : State) (src code target : Nat) (body : Bytes) : Prop where
  quiet  : s.Quiet
  inv    : s.Inv
  permit : (s.givenOrigin src code target body).permits s.sec.otp.lc code = true
  known  : src = 0 ∨ src < s.seq.nextJsn
  wide   : src < 2 ^ 64
  stamps : s.givenStamp src code target body < 2 ^ 64
  takes  : s.takesFrom (s.givenRing src code target body) = true
  ring   : s.RingFree (s.givenRing src code target body) (4 + (16 + body.length + 3) / 4)
  short  : body.length ≤ 2032

/-- A slot's task has been committed with this JSN, and nothing else of the slot changes (R126). -/
def State.stampSlot (s : State) (i j : Nat) : State := s.setSlot i { s.slot i with lastJsn := j }

/-- The state with another context. -/
def State.withCtx (s : State) (f : Ctx → Ctx) : State := { s with ctx := f s.ctx }

/-- Every stored register but those listed reads in `t` as in `s`. -/
def SameRegs (s t : State) (but : List Nat) : Prop := ∀ a, a ∉ but → t.reg a = s.reg a

/-- Every ring but those listed is in `t` as in `s`. -/
def SameRings (s t : State) (but : List Nat) : Prop := ∀ n, n ∉ but → t.ring n = s.ring n

/-- A byte of working RAM lies in a ring's words (R100, R101). -/
def Ring.holds (r : Ring) (a : Nat) : Prop := 4 * r.base ≤ a ∧ a < 4 * (r.base + r.size)

/-- Every byte of working RAM outside the words of the rings listed reads in `t` as in `s`. -/
def SameRam (s t : State) (rings : List Nat) : Prop :=
  ∀ a, (∀ n ∈ rings, ¬ (s.ring n).holds a) → sget ramDefault t.wram a = sget ramDefault s.wram a

/-- What a management command leaves that takes one entry: from `s`, with its own effect already in `u`, the command is journaled as MGMT_CMD
and its acknowledgement of status `st` follows the outputs `outs` into the release queue (R459, R462); the command's packet has passed its ring, and
the entry's packet goes to Q12 and, on a triad's driver, over the chain. -/
def Commanded (s u t : State) (src code target : Nat) (body : Bytes) (st : Nat) (outs : List Output) : Prop :=
  ∃ e o, e.kind = .mgmtCmd ∧ e.cls = .normal ∧ e.jsn = s.seq.nextJsn ∧ e.stamp = s.givenStamp src code target body ∧
    e.payload = le 8 src ++ (le 2 code ++ le 2 body.length ++ le 4 target ++ body) ∧
    o.rtype = 6 ∧ o.ojsn = e.jsn ∧ o.dest = .stream ∧ o.bytes.take 3 = le 1 6 ++ le 1 1 ++ le 1 st ∧
    t.seq.journal = s.seq.journal ++ [e] ∧ t.seq.nextJsn = s.seq.nextJsn + 1 ∧ t.erg.outq = s.erg.outq ++ outs ++ [o] ∧ t.erg.keys = [] ∧
    SameRings s t [s.givenRing src code target body, 12] ∧ SameRam s t [s.givenRing src code target body, 12] ∧
    t = { u with seq := { u.seq with journal := t.seq.journal, nextJsn := t.seq.nextJsn, lastDur := t.seq.lastDur, stallFired := t.seq.stallFired,
                                     lastCkpt := t.seq.lastCkpt },
                 ctx := { u.ctx with unsubmitted := t.ctx.unsubmitted },
                 erg := { u.erg with keys := [], dispatched := t.erg.dispatched, poolFull := t.erg.poolFull, dunes := t.erg.dunes, outq := t.erg.outq },
                 rings := t.rings, wram := t.wram, sef := t.sef, emitted := t.emitted }

end Sys2Proof.Machine
end

