-- ==== Sys2Proof/Certificates/Slice0/Obligations.lean ====
section
/-! DEFINITION. The statements for the provers, each from the rules of spec/ that its docstring cites. -/
open Sys2Proof Sys2Proof.Machine

/-- A step takes the command at the front of the queue and runs it with the queue's rest (the block's rule of one step). -/
def Obligations.StepRunsFrontCommand : Prop :=
  ∀ (c : Instr) (rest : List Instr) (s : State),
    step { s with pending := c :: rest } = exec c { s with pending := rest }

/-- On an empty queue one unit of elapsed time passes and nothing else happens than that the clocks move (the model's choice, assumption 1; the clocks
by R470 and R488). -/
def Obligations.EmptyQueuePassesTime : Prop :=
  ∀ s : State, s.pending = [] →
    ∃ t, step s = .next t ∧ t.t = s.t + 1 ∧ t.oas = { s.oas with raw := s.oas.raw + 1 } ∧
      t.dev * 4294967296 + t.devSub =
        (((s.dev * 4294967296 + s.devSub + 4294967296 : Nat) : Int) + 4294967296 * signed 32 (s.reg rTimRate) / 1024000000000).toNat ∧
      t = { s with t := t.t, dev := t.dev, devSub := t.devSub, oas := t.oas }

/-- The stored state keeps its form in every step: registers, working RAM and code RAM stay in canonical form, and the sixteen rings stay sixteen
(R7, R14, R77). -/
def Obligations.StepKeepsStoredForm : Prop :=
  ∀ s t : State, s.Inv → step s = .next t → t.Inv

/-- Reset has the stored form: it lists nothing, and there are sixteen rings. -/
def Obligations.ResetHasStoredForm : Prop := State.reset.Inv

/-- The block never stops: every command, in every state, answers a next state (a refused access is a bus error, R8, R13; a refused command is a
status byte, R459). And no command of any kind touches the commands that wait behind it, turns elapsed time back, or takes back what has left the
balls: the queue after a step is the queue's rest, elapsed time is not less, and the list of what was sent only grows at its end. -/
def Obligations.StepKeepsQueueTimeAndSent : Prop :=
  (∀ (c : Instr) (s : State), ∃ t, exec c s = .next t) ∧
  ∀ s : State, ∃ t, step s = .next t ∧ t.pending = s.pending.tail ∧ s.t ≤ t.t ∧ s.emitted <+: t.emitted

/-- The five ring commands at a producer's own port (a hardware producer, or device code on a ring that grains write) and at the consumer's, each with all it changes: with no other source's packet open or waiting, an open reserves the next word for the length word; a push
stores its word at the next position; a close writes the length word (T, TYPE, LENGTH) at the reserved position and makes the packet visible; a pop
returns the next visible word and advances the read position; DROP moves the read position past the packet being read (R79, R84, R85, R95, R96). -/
def Obligations.RingCommandsMoveOnePacket : Prop :=
  (∀ (p : Port) (reg : Bool) (ring : Fin 16) (s : State) (r : Ring), writesAs p ring reg → s.ring ring = r → r.en = true → r.opn = .closed → r.waiting = [] → r.pend = 0 → r.held = false → 0 < r.freeWords →
    exec (.qfOpen p ring) s = .next { s with reply := s.told p .done, rings := s.rings.set ring { r with opn := .opened r.w 0 false, w := r.w + 1, byReg := reg } }) ∧
  (∀ (p : Port) (reg : Bool) (ring : Fin 16) (v : Word) (s : State) (r : Ring) (pos k : Nat), writesAs p ring reg → s.Inv → s.ring ring = r → r.en = true → r.opn = .opened pos k false → r.byReg = reg →
    (∀ o ∈ r.waiting.head?, o.1 ≠ reg) → k + 2 ≤ r.size - 1 → 0 < r.freeWords →
    ∃ t, exec (.qfPush p ring v) s = .next t ∧ t.ringWord r r.w = v ∧
      t = { s with wram := t.wram, reply := s.told p .done, rings := s.rings.set ring { r with opn := .opened pos (k + 1) false, w := r.w + 1 } } ∧
      ∀ a, a < r.addr r.w ∨ r.addr r.w + 3 < a → sget ramDefault t.wram a = sget ramDefault s.wram a) ∧
  (∀ (p : Port) (reg : Bool) (ring : Fin 16) (v : Word) (s : State) (r : Ring) (pos k : Nat) (cut : Bool), writesAs p ring reg → s.Inv → s.ring ring = r → r.en = true →
    r.opn = .opened pos k cut → r.byReg = reg → r.waiting = [] →
    ∃ t, exec (.qfClose p ring v) s = .next t ∧
      t.ringWord r pos = BitVec.ofNat 32 (0xD0000000 + (if cut then 2 ^ 27 else 0) + bits 23 16 v.toNat * 65536 + k % 65536) ∧
      t = { s with wram := t.wram, reply := s.told p .done, rings := s.rings.set ring { r with opn := .closed, vis := r.w, staleT := if r.cnt = 0 then s.t else r.staleT } } ∧
      ∀ a, a < r.addr pos ∨ r.addr pos + 3 < a → sget ramDefault t.wram a = sget ramDefault s.wram a) ∧
  (∀ (ring : Fin 16) (s : State) (r : Ring), s.ring ring = r → r.en = true → r.r < r.vis →
    ∃ k, exec (.qfPop .owner ring) s =
      .next { s with reply := { s.reply with dev := .data (s.ringWord r r.r) },
                     rings := s.rings.set ring { r with r := r.r + 1, remain := k, staleT := s.t, staleFired := false } } ∧
      (0 < r.remain → k + 1 = r.remain) ∧
      (r.remain = 0 → k = if bits 31 28 (s.ringWord r r.r).toNat = 13 then bits 15 0 (s.ringWord r r.r).toNat else 0)) ∧
  (∀ (ring : Fin 16) (s : State) (r : Ring), s.ring ring = r → r.en = true → 0 < r.remain →
    exec (.qfDrop .owner ring) s = .next { s with rings := s.rings.set ring { r with r := r.r + r.remain, remain := 0, staleT := s.t } })

/-- Full rings (R77 to R79, R87 to R92, R97, R98). On a drop-policy ring an open that finds the ring held or no word is dropped and counted, and no word of that packet is stored; a push past the ring's size less one word, or one that finds no word, is dropped and cuts the
packet. On a stall-policy ring a write that finds no word, and an open while another source's packet is open, wait and store nothing; a push that waits completes when a word is free, and device code's write ends with it. With drops pending, no packet open and a word free, a ring that is not held writes a marker with the count saturated at
0xFF_FFFF, adds the count to QF_DROPn, clears the pending count and sets QF_IRQ.DROPn. When the stale timer reaches QF_STALEn.US, QF_IRQ.STALEn sets and a ring-stale event is raised, once between reads; with US 0 or nothing visible it does not fire. -/
def Obligations.FullRingDropsOrStalls : Prop :=
  (∀ (p : Port) (reg : Bool) (ring : Fin 16) (s : State) (r : Ring), writesAs p ring reg → s.ring ring = r → ringDrops ring = true → r.en = true → r.opn = .closed → r.waiting = [] →
    r.held = true ∨ r.freeWords = 0 →
    exec (.qfOpen p ring) s = .next { s with reply := s.told p .done, rings := s.rings.set ring { r with opn := .dropped, pend := r.pend + 1, byReg := reg } }) ∧
  (∀ (p : Port) (reg : Bool) (ring : Fin 16) (v : Word) (s : State) (r : Ring), writesAs p ring reg → s.ring ring = r → r.en = true → r.opn = .dropped → r.byReg = reg → (∀ o ∈ r.waiting.head?, o.1 ≠ reg) →
    exec (.qfPush p ring v) s = .next { s with reply := s.told p .done, rings := s.rings.set ring { r with pend := r.pend + 1 } }) ∧
  (∀ (p : Port) (reg : Bool) (ring : Fin 16) (v : Word) (s : State) (r : Ring) (pos k : Nat) (cut : Bool), writesAs p ring reg → s.ring ring = r → ringDrops ring = true → r.en = true →
    r.opn = .opened pos k cut → r.byReg = reg → (∀ o ∈ r.waiting.head?, o.1 ≠ reg) → (cut = true ∨ r.freeWords = 0 ∨ r.size - 1 < k + 2) →
    exec (.qfPush p ring v) s = .next { s with reply := s.told p .done, rings := s.rings.set ring { r with opn := .opened pos k true, pend := r.pend + 1 } }) ∧
  (∀ (p : Port) (reg : Bool) (ring : Fin 16) (s : State) (r : Ring), writesAs p ring reg → s.ring ring = r → ringDrops ring = false → r.en = true → r.waiting = [] →
    r.opn = .closed ∧ r.freeWords = 0 ∨ r.opn ≠ .closed ∧ r.byReg ≠ reg →
    exec (.qfOpen p ring) s = .next { s with reply := s.told p .waiting, rings := s.rings.set ring { r with waiting := [(reg, .open_)] } }) ∧
  (∀ (p : Port) (reg : Bool) (ring : Fin 16) (v : Word) (s : State) (r : Ring) (pos k : Nat) (cut : Bool), writesAs p ring reg → s.ring ring = r → ringDrops ring = false → r.en = true →
    r.opn = .opened pos k cut → r.byReg = reg → r.waiting = [] → k + 2 ≤ r.size - 1 → r.freeWords = 0 →
    exec (.qfPush p ring v) s = .next { s with reply := s.told p .waiting, rings := s.rings.set ring { r with waiting := [(reg, .push v)] } }) ∧
  (∀ (ring : Fin 16) (s : State) (r : Ring), s.Inv → s.ring ring = r → ringDrops ring = true → r.en = true → 0 < r.pend → r.opn = .closed →
    0 < r.freeWords → r.held = false →
    ∃ t, exec (.wadiMarkerWrite ring) s = .next t ∧
      t.ringWord r r.w = BitVec.ofNat 32 (0xE0000000 + min r.pend 0xFFFFFF) ∧
      t.ring ring = { r with w := r.w + 1, vis := r.w + 1, pend := 0, dropCnt := min 0xFFFFFFFF (r.dropCnt + r.pend),
                             staleT := if r.cnt = 0 then s.t else r.staleT } ∧
      t.bitOf rQfIrq (16 + ring) = true ∧ SameRegs s t [rQfIrq] ∧ SameRings s t [ring] ∧
      t = { s with regs := t.regs, wram := t.wram, rings := t.rings } ∧
      ∀ a, a < r.addr r.w ∨ r.addr r.w + 3 < a → sget ramDefault t.wram a = sget ramDefault s.wram a) ∧
  (∀ (ring : Fin 16) (reg : Bool) (v : Word) (s : State) (r : Ring) (pos k : Nat) (cut : Bool), s.Inv → s.ring ring = r → ringDrops ring = false →
    (ring.val = 0 → ∀ e, s.tim.evq.getD e [] = []) → r.en = true → r.opn = .opened pos k cut → k + 2 ≤ r.size - 1 → 0 < r.freeWords → r.waiting = [(reg, .push v)] →
    (∀ m : Nat, m ≠ ring.val → ∀ o ∈ (s.ring m).waiting, o.1 = false) →
    ∃ t, exec (.ringStallRelease ring) s = .next t ∧ t.ringWord r r.w = v ∧
      t = { s with wram := t.wram, reply := if reg = true ∧ s.reply.dev = .waiting then { s.reply with dev := .done } else s.reply,
                   rings := s.rings.set ring { r with opn := .opened pos (k + 1) cut, w := r.w + 1, waiting := [] } } ∧
      ∀ a, a < r.addr r.w ∨ r.addr r.w + 3 < a → sget ramDefault t.wram a = sget ramDefault s.wram a) ∧
  (∀ (ring : Fin 16) (s s1 : State), s.Inv → s.fld (rQfStale ring) 23 0 ≠ 0 → 0 < (s.ring ring).cnt → (s.ring ring).staleFired = false →
    s1 = s.until ((s.ring ring).staleT + usU (s.fld (rQfStale ring) 23 0)) →
    ∃ u, exec (.ringStale ring) s = .next (u.event 0x45 ring) ∧ u.bitOf rQfIrq ring = true ∧ SameRegs s1 u [rQfIrq] ∧
      u = { s1 with regs := u.regs, rings := s1.rings.set ring { s1.ring ring with staleFired := true } }) ∧
  (∀ (ring : Fin 16) (s : State), s.fld (rQfStale ring) 23 0 = 0 ∨ (s.ring ring).cnt = 0 ∨ (s.ring ring).staleFired = true →
    exec (.ringStale ring) s = .next s)

/-- A read of an empty ring, or one positioned at an unwritten length word, or of a ring not enabled, returns the idle item and changes nothing
else (R86). -/
def Obligations.EmptyRingReadsIdle : Prop :=
  ∀ (ring : Fin 16) (s : State), (s.ring ring).en = false ∨ (s.ring ring).vis ≤ (s.ring ring).r →
    exec (.qfPop .owner ring) s = .next { s with reply := { s.reply with dev := .data 0xF0000000#32 } }

/-- Rights at a ring's registers (R107): neither the Seif chain nor the maintenance port works a ring's data registers, each of its accesses is a bus
error and changes nothing; device code's writes on the side that a hardware block owns are ignored, and, since every ring's consumer is a hardware block, its reads
return the idle item and its DROP does nothing. -/
def Obligations.RingRegisterRights : Prop :=
  ∀ (w : Who) (ring : Fin 16) (v : Word) (s : State),
    (w ≠ .dev →
      exec (.qfOpen (.reg w) ring) s = .next { s with reply := s.reply.put w .busError } ∧
      exec (.qfPush (.reg w) ring v) s = .next { s with reply := s.reply.put w .busError } ∧
      exec (.qfClose (.reg w) ring v) s = .next { s with reply := s.reply.put w .busError } ∧
      exec (.qfPop (.reg w) ring) s = .next { s with reply := s.reply.put w .busError } ∧
      exec (.qfDrop (.reg w) ring) s = .next { s with reply := s.reply.put w .busError }) ∧
    (w = .dev → ringByGrains ring = false →
      exec (.qfOpen (.reg w) ring) s = .next { s with reply := { s.reply with dev := .done } } ∧
      exec (.qfPush (.reg w) ring v) s = .next { s with reply := { s.reply with dev := .done } } ∧
      exec (.qfClose (.reg w) ring v) s = .next { s with reply := { s.reply with dev := .done } }) ∧
    (w = .dev →
      exec (.qfPop (.reg w) ring) s = .next { s with reply := { s.reply with dev := .data 0xF0000000#32 } } ∧
      exec (.qfDrop (.reg w) ring) s = .next { s with reply := { s.reply with dev := .done } })

/-- The one operation that journals (R27, R28, R35, R36): the entry takes the next JSN and the unit's position as ORIGIN, joins the end of the journal
and waits for the dispatcher, and its packet goes to Q12. Of the rest, registers and every ring but Q12 are as before, no byte of working RAM
outside Q12 changes, a unit that is no triad driver sends nothing (R619), and with no write of device code waiting on Q12 no access is answered. -/
def Obligations.JournalingAddsOneEntry : Prop :=
  ∀ (s t : State) (kind : Kind) (cls : EClass) (src : Src) (stamp : Nat) (flags : EFlags) (payload : Bytes) (e : Entry), s.Inv →
    t = s.append kind cls src stamp flags payload →
    e = { kind := kind, cls := cls, jsn := s.seq.nextJsn, stamp := stamp, src := { src with origin := s.seq.pos }, flags := flags, payload := payload } →
    t.seq.journal = s.seq.journal ++ [e] ∧ t.seq.nextJsn = s.seq.nextJsn + 1 ∧
    t.erg = { s.erg with toDispatch := s.erg.toDispatch ++ [e] } ∧
    t.regs = s.regs ∧ SameRings s t [12] ∧ SameRam s t [12] ∧
    (s.triad = false ∨ s.sef.driver = false → t.sef = s.sef ∧ t.emitted = s.emitted) ∧
    ((∀ o ∈ (s.ring 12).waiting, o.1 = false) → t.reply = s.reply) ∧
    t = { s with seq := { s.seq with journal := t.seq.journal, nextJsn := t.seq.nextJsn, lastDur := t.seq.lastDur, stallFired := t.seq.stallFired,
                                     lastCkpt := t.seq.lastCkpt },
                 erg := t.erg, ctx := s.ctx.note e, rings := t.rings, wram := t.wram, sef := t.sef, emitted := t.emitted, reply := t.reply }

/-- An event is one packet offered to Q14 (R592, R593): every register, every other ring, every byte of working RAM outside Q14, the journal and all
else are as before, but for the answer to a write of device code that waited on Q14; nothing happens while Q14 is disabled. -/
def Obligations.EventTouchesQ14Only : Prop :=
  ∀ (s t : State) (cls arg : Nat) (slot : Option Nat) (data : Bytes), s.Inv → t = s.event cls arg slot data →
    ((s.ring 14).en = false → t = s) ∧ t.regs = s.regs ∧ SameRings s t [14] ∧ SameRam s t [14] ∧
    ((∀ o ∈ (s.ring 14).waiting, o.1 = false) → t.reply = s.reply) ∧ t = { s with rings := t.rings, wram := t.wram, reply := t.reply }

/-- What goes into a ring comes out in order (R80, R81, R84, R85): packets offered one after another to an enabled, empty ring that has room for all of them are the packets its consumer then takes, each with its TYPE,
its words in order and T 0, and the ring is empty again after the last. -/
def Obligations.RingDeliversPacket : Prop :=
  ∀ (n : Fin 16) (s t : State) (r : Ring) (ps : List (Nat × List Word)), s.Inv → s.ring n = r → r.en = true → r.opn = .closed → r.pend = 0 → r.held = false →
    r.waiting = [] → r.remain = 0 → r.vis = r.w → r.r = r.w → (∀ p ∈ ps, p.2.length + 2 ≤ r.size ∧ p.2.length < 65536) → (ps.map fun p => p.2.length + 1).foldl (· + ·) 0 ≤ r.size →
    t = ps.foldl (fun a p => a.ringPacket n p.1 p.2) s →
    ringTakes n ps.length t = ps.map (fun p => Item.packet false (p.1 % 256) p.2) ∧ ringTakes n (ps.length + 1) t = ps.map (fun p => Item.packet false (p.1 % 256) p.2) ++ [.idle]

/-- The sequencer's taking of an input (R26, R27, R37, R51, R52, R103): from an ingress ring it takes, outside a hold, a whole packet becomes one entry with the packet's
KIND, class, source and stamp, a truncated packet an entry of class TRUNC with no payload and the ring in its flags; in a hold, an input stamped at or after the
boundary instant, but SUP_WARN and HOLD_END, waits in the hold buffer with its index entry and its words in working RAM, and the input that fills the buffer ends the hold. -/
def Obligations.InputBecomesEntry : Prop :=
  (∀ (ring : Fin 16) (s u : State) (cut : Bool) (k : Kind) (ty : Nat) (ws : List Word) (i : Input),
    s.takesFrom ring = true → s.seq.hold = none → s.ringPeek ring = .packet cut ty ws → u = (s.ringTake ring).2 → ty < 256 → Kind.ofCode ty = some k →
    ws.length < 65536 → i = Input.ofWords k ws →
    ∃ t e, exec (.journalInput ring) s = .next t ∧ t.seq.journal = s.seq.journal ++ [e] ∧ t.seq.nextJsn = s.seq.nextJsn + 1 ∧ e.kind = k ∧ e.jsn = s.seq.nextJsn ∧ e.stamp = i.stamp ∧
      e.src = { i.src with origin := s.seq.pos } ∧
      (packetTrunc cut ws = false → e.cls = i.cls ∧ e.payload = i.payload ∧ t = u.append k i.cls i.src i.stamp (u.inputFlags i.stamp) i.payload) ∧
      (packetTrunc cut ws = true → e.cls = .trunc ∧ e.payload = [] ∧ e.flags.ring = ring.val ∧ t = u.append k .trunc i.src i.stamp { u.inputFlags i.stamp with ring := ring } [])) ∧
  (∀ (ring : Fin 16) (s u : State) (h : Hold) (cut : Bool) (ty : Nat) (ws : List Word) (x : HeldIn),
    s.takesFrom ring = true → s.ringPeek ring = .packet cut ty ws → u = (s.ringTake ring).2 → s.seq.hold = some h → ty < 256 → ty ≠ 0x20 → ws.length < 65536 →
    x = { ring := ring, stamp := (ws.getD 0 0).toNat + (ws.getD 1 0).toNat * 4294967296, pkt := lengthWord cut ty ws.length :: ws } →
    isHoldEnd (lengthWord cut ty ws.length) ws = false → h.T ≤ x.stamp → h.words + ws.length + 1 ≤ 442368 →
    ∃ v, v = { u.holdStore h x with seq := { s.seq with hold := some { h with items := h.items ++ [x] } } } ∧
      (h.items.length + 1 < 4096 → h.words + ws.length + 1 < 442368 → exec (.journalInput ring) s = .next v) ∧
      (4096 ≤ h.items.length + 1 ∨ h.words + ws.length + 1 = 442368 → exec (.journalInput ring) s = .next (((v.irq rJsqIrq 2).event 0x42 0).endHold none)))

/-- A wadi marker read from an input ring becomes a RING_LOSS entry with the ring number and the dropped count, stamped now; JSQ_LOSSCNT counts the
dropped words and JSQ_IRQ.LOSS sets (R33). No other register changes. -/
def Obligations.MarkerBecomesRingLoss : Prop :=
  ∀ (ring : Fin 16) (s u : State) (d : Nat), s.Inv → s.takesFrom ring = true → s.ringPeek ring = .marker d → u = (s.ringTake ring).2 →
    ∃ v, exec (.ringLoss ring) s = .next (v.append .ringLoss .normal {} s.dev (s.inputFlags s.dev) (le 1 ring ++ le 3 d)) ∧
      v = { u with regs := v.regs } ∧ v.reg rJsqLosscnt = min 0xFFFFFFFF (s.reg rJsqLosscnt + d) ∧ v.bitOf rJsqIrq 3 = true ∧
      SameRegs s v [rJsqLosscnt, rJsqIrq]

/-- Boundaries (R31, R38, R51, R52, R53, R75, R242): at a boundary instant T, with the unit the holder, no hold running and time sure, a hold of HOLD_MS (at most 60,000 ms)
starts, journaling nothing; with HOLD_MS 0 or in a supply warning the boundary entries of T are journaled at once; when a hold expires its boundary entries are journaled and then the
inputs it buffered, each non-supply input in arrival order and the supply entries of a stamp before the others of that stamp. A boundary entry is stamped at T with its SUBJECT; a BND_PERIOD closes the epoch after the last one
journaled, and while two closes are open it is not journaled but held. -/
def Obligations.BoundaryHoldStartsAndEnds : Prop :=
  (∀ (s s1 : State) (x : Nat), s.bitOf rJsqCtl 0 = true → s.seq.holder = true → s.seq.hold = none → s.seq.unsure = false → s.seq.regressed = false →
    s.nextBoundarySec = some x → s1 = s.untilDev (x * second) →
    (s.seq.khamsin = false → s1.fld rJsqBhold 15 0 ≠ 0 →
      exec .boundaryHoldStart s =
        .next { s1 with seq := { s1.seq with hold := some { T := x * second, endAt := s1.t + min 60000 (s1.fld rJsqBhold 15 0) * 268435456 / 1000, items := [] } } }) ∧
    (s.seq.khamsin = true ∨ s1.fld rJsqBhold 15 0 = 0 → exec .boundaryHoldStart s = .next (s1.journalBoundaries (x * second) false))) ∧
  (∀ (s s1 u : State) (h : Hold), s.seq.hold = some h → s1 = s.until h.endAt → s1.seq.unsure = false → s1.seq.regressed = false →
    u = ({ s1 with seq := { s1.seq with hold := none } } : State).journalBoundaries h.T false →
    ∃ l : List HeldIn, exec .boundaryHoldEnd s = .next (l.foldl (fun a x => a.journalHeld x) u) ∧ l.Perm h.items ∧
      l.filter (fun x => !x.supply) = h.items.filter (fun x => !x.supply) ∧ l.Pairwise (fun a b => a.stamp = b.stamp → b.supply = true → a.supply = true)) ∧
  (∀ (s : State) (T : Nat) (held : Bool) (k : Kind) (subj : Nat),
    (k ≠ .bndPeriod → s.journalBoundary T held (k, subj) =
      s.append k .normal {} T { timeUnsure := s.seq.unsure, held := held } (le 4 subj)) ∧
    (s.ctx.nextPer - s.ctx.epoch < 2 → s.journalBoundary T held (.bndPeriod, subj) =
      s.append .bndPeriod .normal {} T { timeUnsure := s.seq.unsure, held := held } (le 4 s.ctx.nextPer)) ∧
    (2 ≤ s.ctx.nextPer - s.ctx.epoch → ∃ t, s.journalBoundary T held (.bndPeriod, subj) = t ∧
      t = { s with ctx := { s.ctx with heldPers := s.ctx.heldPers ++ [T] }, regs := t.regs }))

/-- A draw (R36, R43, R45, R538): for the task that waits for `n` bytes under a consumer tag, the sequencer journals DRBG_DRAW with the tag and the DRBG's data
wrapped under the journal key-encryption key, of the slot that a slot's tag names, and the DRBG's state moves on; the DRBG itself gives the data only here. On its 65,536th call it reseeds. -/
def Obligations.DrawIsJournaledWrapped : Prop :=
  ∀ (k : Key) (s : State) (tag n : Nat) (src : Src), s.waitsFor k = some (.draw tag n) → s.drawsServed = true → s.seqTakes = true → s.Inv →
    src = (if bits 30 24 tag = 0x42 then { slot := bits 16 0 tag, slotV := true } else {}) →
    ∃ u, exec (.drbgDraw k) s = .next (u.append .drbgDraw .normal src s.dev (s.inputFlags s.dev) (le 4 tag ++ fit n (s.wrapJ (Config.drbg s.sec.drbg (n - 8))))) ∧
      u = { s with regs := u.regs, sec := { s.sec with drbg := s.sec.drbg + 1, calls := if s.sec.calls + 1 < 65536 then s.sec.calls + 1 else 0 } } ∧
      u.reg rCphReseed = (if s.sec.calls + 1 < 65536 then s.reg rCphReseed else min 4294967295 (s.reg rCphReseed + 1)) ∧ SameRegs s u [rCphReseed]

/-- Checkpoints are cut (R68, R69, R553): asked for, at the next entry boundary; otherwise 2^20 entries after the latest CKPT or the first START, or 6 h of stamps after it; each cut journals
CKPT with the next checkpoint number and adds one checkpoint in writing whose cut is that entry's JSN; the request is served by it. A write of 1 to
JSQ_CTL.CKPT_NOW by device code on the holder asks for one, by the chain or the maintenance port it is a bus error; at the start of local hour UPD_HOUR after an update one is cut (R704). -/
def Obligations.CheckpointIsCut : Prop :=
  (∀ (s u : State), s.seqTakes = true → s.seq.khamsin = false → s.seq.ckptReq = true ∨ (∃ j st, s.seq.lastCkpt = some (j, st) ∧ j + 1048576 < s.seq.nextJsn) →
    u = { s with seq := { s.seq with ckptNo := s.seq.ckptNo + 1, ckptReq := false, ckptBusy := s.seq.ckptBusy ++ [s.ckptHere (s.seq.ckptNo + 1) s.dev] } } →
    exec .ckptCut s = .next (u.append .ckpt .normal {} s.dev (s.inputFlags s.dev) (le 4 (s.seq.ckptNo + 1)))) ∧
  (∀ (s s1 u : State) (j st : Nat), s.seqTakes = true → s.seq.khamsin = false → s.seq.ckptReq = false → s.seq.lastCkpt = some (j, st) →
    s.seq.nextJsn ≤ j + 1048576 → s1 = s.untilDev (st + 21600 * second) →
    u = { s1 with seq := { s1.seq with ckptNo := s1.seq.ckptNo + 1, ckptReq := false, ckptBusy := s1.seq.ckptBusy ++ [s1.ckptHere (s1.seq.ckptNo + 1) s1.dev] } } →
    exec .ckptCut s = .next (u.append .ckpt .normal {} s1.dev (s1.inputFlags s1.dev) (le 4 (s1.seq.ckptNo + 1)))) ∧
  (∀ s : State, exec (.jsqCkptNow .dev) s = .next { s with seq := { s.seq with ckptReq := s.seq.ckptReq || s.seq.holder }, reply := { s.reply with dev := .done } }) ∧
  (∀ (w : Who) (s : State), w ≠ .dev → exec (.jsqCkptNow w) s = .next { s with reply := s.reply.put w .busError }) ∧
  (∀ (s s1 u : State) (since x : Nat), s.boot.updHourAt = some since → s.boot.updMode = 2 → s.boot.updHour < 24 → s.seqTakes = true → s.seq.khamsin = false →
    secOf since < x → x ≤ secOf since + 90000 → (stdSec s.cfg x).emod 86400 = s.boot.updHour * 3600 → (∀ y, secOf since < y → y < x → (stdSec s.cfg y).emod 86400 ≠ s.boot.updHour * 3600) →
    s1 = s.untilDev (x * second) → s1.seq.unsure = false → u = { s1 with boot := { s1.boot with updHourAt := none } } →
    exec .updHourCkpt s = .next u.cutCkpt)

/-- Checkpoints and the durable watermark (R66, R72, R448, R708): a checkpoint whose CKPT entry is durable and whose outbox records are in the media becomes the latest valid one when its descriptor verifies, the one before it is
kept, and JSQ_IRQ.CKPT_DONE sets; one that fails verification is dropped and sets JSQ_IRQ bit 1, with everything else as it was; the first checkpoint of a context taken over resets the main domain. While entries wait and the durable watermark has stood for JSQ_DURSTALL.MS, JSQ_IRQ bit 4 sets and a durability-stall event tells the stall's length in ms;
it happens once until the watermark moves, and never while nothing waits. -/
def Obligations.CheckpointBecomesValid : Prop :=
  (∀ (s : State) (k : Ckpt) (r : List Ckpt), s.Inv → s.seq.ckptBusy = k :: r →
    ∃ t, exec (.ckptValid false) s = .next t ∧ t = { s with regs := t.regs, seq := { s.seq with ckptBusy := r } } ∧
      t.bitOf rJsqIrq 1 = true ∧ SameRegs s t [rJsqIrq]) ∧
  (∀ (s : State) (k : Ckpt) (r : List Ckpt), s.Inv → s.seq.ckptBusy = k :: r → s.ckptReady k = true → s.boot.carry = false → s.boot.trial = false →
    ∃ t, exec (.ckptValid true) s = .next t ∧ t.seq.ckpts.getLast? = some k ∧ t.seq.ckpts.length = min 2 (s.seq.ckpts.length + 1) ∧
      t.bitOf rJsqIrq 0 = true ∧ SameRegs s t [rJsqIrq] ∧
      SameRings s t [14] ∧ SameRam s t [14] ∧ t = { s with regs := t.regs, med := t.med, rings := t.rings, wram := t.wram, reply := t.reply, seq := { s.seq with ckptBusy := r, ckpts := t.seq.ckpts } }) ∧
  (∀ (s : State) (k : Ckpt) (r : List Ckpt), s.seq.ckptBusy = k :: r → s.ckptReady k = true → s.boot.carry = true →
    ∃ t, exec (.ckptValid true) s = .next t ∧ t.pow.phase = .rom ∧ t.freeCtr = s.freeCtr + 1 ∧ t.sec.otp = s.sec.otp) ∧
  (∀ (s s1 : State), s.Inv → s.seq.durable + 1 < s.seq.nextJsn → s.seq.stallFired = false →
    s1 = s.until (s.seq.lastDur + max 1 (s.fld rJsqDurstall 15 0) * 268435456 / 1000) →
    ∃ u, exec .durabilityStall s = .next (u.event 0x43 ((s1.t - s.seq.lastDur) * 1000 / 268435456)) ∧
      u = { s1 with regs := u.regs, seq := { s1.seq with stallFired := true } } ∧ u.bitOf rJsqIrq 4 = true ∧ SameRegs s1 u [rJsqIrq]) ∧
  (∀ s : State, s.seq.nextJsn ≤ s.seq.durable + 1 ∨ s.seq.stallFired = true → exec .durabilityStall s = .next s)

/-- The slave clock (R473 to R479, R481). A Sync of the master that the best master clock algorithm selects now, once the step right of the start is used, counts in TIM_SYNCCNT, puts the
offset (arrival time less origin time less delay) in TIM_OFFSET, clamped to 32 bits, and the delay in TIM_MPD, sets TIM_RATE to the loop's correction clamped to ±MAX_PPM and leaves device
time, the journal and the slots alone; a Sync of another master does nothing. Without a Sync for LOSS_S the servo enters HOLDOVER with the frequency estimate it had and reports a PTP loss.
An Announce in the unit's domain with fewer than 255 steps removed is entered among the masters heard; a Delay_Req exchange of the holder gives the mean path delay, shown in TIM_MPD, and a
Pdelay exchange the link delay of its port; every 64 s while LOCKED the frequency estimate is stored in OAS_LRATE. An event's packet may also let a waiting write of device code to Q14 answer. -/
def Obligations.SyncSteersRateOnly : Prop :=
  (∀ (dt src : Nat) (port : Fin 3) (origin off : Int) (s s1 : State) (delay run : Nat), s.Inv → s1 = s.advance dt → s.bitOf rTimCtl 1 = true →
    (s1.tim.best s1.t).map (·.src) = some src → s.tim.master = some src → s.tim.stepUsed = true →
    delay = (if s.bitOf rTimCtl 3 then s.tim.linkDelay.getD port 0 else s.tim.mpd) → delay < 4294967296 →
    off = ptpNow s1.dev - origin - delay → run = (if off.natAbs < s.fld rTimLimits 15 0 then s.tim.lockRun + 1 else 0) →
    ∃ t, exec (.ptpSync dt src port origin) s = .next t ∧ t.t = s1.t ∧ t.dev = s1.dev ∧ t.devSub = s1.devSub ∧ t.oas = s1.oas ∧ t.tim.lastSync = s1.t ∧
      t.reg rTimSynccnt = min 4294967295 (s.reg rTimSynccnt + 1) ∧ t.reg rTimMpd = delay ∧
      signed 32 (t.reg rTimOffset) = max (-2147483648) (min 2147483647 off) ∧
      signed 32 (t.reg rTimRate) = max (-((s.fld rTimServo 24 16 * 1024000 : Nat) : Int)) (min ((s.fld rTimServo 24 16 * 1024000 : Nat) : Int)
        (Config.piLoop s.tim.integral off (s1.t - s.tim.lastSync)).1) ∧
      t.tim.integral = (Config.piLoop s.tim.integral off (s1.t - s.tim.lastSync)).2 ∧ t.tim.meas = s.tim.meas ∧ t.tim.master = some src ∧
      t.tim.servo = (if s.tim.servo = .acquire ∧ 16 ≤ run then .locked else s.tim.servo) ∧
      (s.tim.servo = .acquire ∧ 16 ≤ run → t.bitOf rTimIrq 0 = true) ∧
      (s.fld rTimAlarm 15 0 * 1000000 < off.natAbs → t.bitOf rTimIrq 3 = true) ∧
      SameRegs s t [rTimSynccnt, rTimOffset, rTimMpd, rTimRate, rTimIrq] ∧ SameRings s t [14] ∧ SameRam s t [14] ∧
      t = { s with t := t.t, dev := t.dev, devSub := t.devSub, oas := t.oas, tim := t.tim, regs := t.regs, rings := t.rings, wram := t.wram, reply := t.reply }) ∧
  (∀ (dt src : Nat) (port : Fin 3) (origin : Int) (s s1 : State), s1 = (s.advance dt).selectMaster → s1.tim.master ≠ some src →
    exec (.ptpSync dt src port origin) s = .next s1) ∧
  (∀ s : State, s.Inv → s.tim.servo = .acquire ∨ s.tim.servo = .locked →
    ∃ t, exec .ptpLoss s = .next t ∧ t.tim.servo = .holdover ∧ t.tim.master = none ∧ t.tim.integral = s.tim.integral ∧ t.bitOf rTimIrq 1 = true ∧
      SameRegs s t [rTimRate, rTimIrq] ∧ t.seq = s.seq ∧ t.ctx = s.ctx ∧ t.t = max s.t (s.tim.lastSync + s.fld rTimLimits 23 16 * 268435456)) ∧
  (∀ (dt : Nat) (m : AnnounceMsg) (s s1 : State), s1 = s.advance dt →
    (s.bitOf rTimCtl 1 = true → m.domain = s.fld rTimCtl 14 8 → m.steps < 255 →
      ∃ t, exec (.ptpAnnounce dt m) s = .next t ∧
        (∃ e ∈ t.tim.masters, e.src = m.src ∧ e.rank = m.gm ++ [m.steps, m.src] ∧ e.utc = m.utc ∧ e.heard.getLast? = some s1.t) ∧
        (∀ e ∈ s.tim.masters, e.src ≠ m.src → e ∈ t.tim.masters) ∧ t.seq = s.seq ∧ t.ctx = s.ctx ∧ t.dev = s1.dev) ∧
    (s.bitOf rTimCtl 1 = false ∨ m.domain ≠ s.fld rTimCtl 14 8 ∨ 255 ≤ m.steps → exec (.ptpAnnounce dt m) s = .next s1)) ∧
  (∀ (dt : Nat) (t1 t2 t3 t4 : Int) (s s1 : State), s1 = s.advance dt → s.bitOf rTimCtl 1 = true → s.bitOf rTimCtl 3 = false → s.sef.driver = true →
    exec (.ptpDelayExchange dt 2 t1 t2 t3 t4) s =
      .next (({ s1 with tim := { s1.tim with mpd := (((t2 - t1) + (t4 - t3)) / 2).toNat } } : State).setReg rTimMpd (((t2 - t1) + (t4 - t3)) / 2).toNat)) ∧
  (∀ (dt : Nat) (port : Fin 3) (t1 t2 t3 t4 : Int) (s s1 : State), s1 = s.advance dt → port.val ≠ 2 → s.bitOf rTimCtl 3 = true →
    exec (.ptpDelayExchange dt port t1 t2 t3 t4) s =
      .next { s1 with tim := { s1.tim with linkDelay := s1.tim.linkDelay.set port (((t4 - t1) - (t3 - t2)) / 2).toNat } }) ∧
  (∀ s s1 : State, s.Inv → s.tim.servo = .locked → s1 = s.until (s.tim.lastSave + 64 * 268435456) →
    ∃ t, exec .lrateSave s = .next t ∧ (s.locked = false → t.reg rOasLrate = (s.tim.integral % 4294967296).toNat) ∧ (s.locked = true → t.regs = s.regs) ∧
      SameRegs s t [rOasLrate] ∧ t = { s1 with regs := t.regs, tim := { s1.tim with lastSave := s1.t } })

/-- An authorized step of time (R60 to R62, R471, R483, R496) is taken at the next whole second outside a hold: device time moves by the difference, the old and the new time and the source
are journaled as TIME_SET stamped with the new time, TIM_IRQ bit 2 sets, no step stays pending and the outputs' next instances lie after the new time. A time below the high-water boundary marks
what follows REGRESSED when the step is backward or time was REGRESSED before, until device time reaches that boundary; a standby's step of a replicated TIME_SET only moves its counter (R486). At a
leap's instant OAS_UTC takes the new offset, unless the bridge is locked (R482, R488). -/
def Obligations.TimeStepIsJournaled : Prop :=
  (∀ (s s1 : State) (p : StepPend), s.Inv → s.tim.pend = some p → p.replica = false → s.seq.hold = none → s.fld rJsqBhold 15 0 = 0 → s.seq.unsure = false →
    s1 = s.untilDev ((secOf s.dev + 1) * second) →
    ∃ t e, exec .timeStepApply s = .next t ∧ t.dev = (((secOf s.dev + 1) * 268435456 : Nat) + p.delta).toNat ∧ t.tim.pend = none ∧ t.tim.stepUsed = true ∧
      t.bitOf rTimIrq 2 = true ∧
      t.seq.regressed = (decide (t.dev < s.ctx.hwb) && (decide (t.dev < (secOf s.dev + 1) * 268435456) || s.seq.regressed)) ∧
      (s.seq.journal ++ [e]) <+: t.seq.journal ∧ e.kind = .timeSet ∧ e.jsn = s.seq.nextJsn ∧ e.stamp = t.dev ∧
      e.payload = le 8 ((secOf s.dev + 1) * 268435456) ++ le 8 t.dev ++ le 1 p.source) ∧
  (∀ (s s1 : State) (p : StepPend), s.tim.pend = some p → p.replica = true → s1 = s.untilDev ((secOf s.dev + 1) * second) →
    ∃ t, exec .timeStepApply s = .next t ∧ t.dev = (((secOf s.dev + 1) * 268435456 : Nat) + p.delta).toNat ∧ t.tim.pend = none ∧ t.seq = s.seq ∧ t.ctx = s.ctx ∧
      t.rings = s.rings) ∧
  (∀ s s1 : State, s.seq.regressed = true → s1 = s.untilDev s.ctx.hwb →
    ∃ t, exec .regressedEnd s = .next t ∧ t.seq.regressed = false ∧ t.dev = s1.dev ∧
      (s.ctx.heldPers = [] → t = { s1 with seq := s1.seq.turn s1.dev s1.dev s1.seq.unsure false })) ∧
  (∀ (s s1 : State) (l : Leap), s.Inv → s.cfg.leaps.find? (fun l => decide (s.dev < l.at_ * second)) = some l → s1 = s.untilDev (l.at_ * second) →
    ∃ t, exec .leapInstant s = .next t ∧ (s.locked = false → t.reg rOasUtc = l.offset % 256) ∧ (s.locked = true → t.regs = s.regs) ∧ SameRegs s t [rOasUtc] ∧
      t = { s1 with regs := t.regs })

/-- The Oasis clock (R489 to R491). Each second the trim is added to the accumulator, and only when that passes 32,000,000 units of 2^-20 µs is a tick of 2^-15 s inserted or swallowed; a
staged commit loads the clock and clears its sub-second count at the second boundary; while LOCKED, 1,024 s of measurement correct STATIC. A commit is staged only for a whole second, with enough
ticks left for GO to be synchronised, and only by device code. -/
def Obligations.OasisKeepsAndTakesTime : Prop :=
  (∀ (temp : Fin 1024) (s s1 s2 : State), s1 = s.oasSecondAt s.oas.trimSec →
    s2 = (if (if s1.onVbat then 64 else 4) ≤ s1.oas.tempAge + 1 then s1.setReg rOasTemp temp else s1) →
    ∃ t, exec (.oasisTrimTick temp) s = .next t ∧
      (-32000000 < s2.oas.acc + s2.oasTrim → s2.oas.acc + s2.oasTrim < 32000000 → t.oas.raw = s2.oas.raw ∧ t.oas.acc = s2.oas.acc + s2.oasTrim) ∧
      (32000000 ≤ s2.oas.acc + s2.oasTrim → t.oas.raw = s2.oas.raw + 8192 ∧ t.oas.acc = s2.oas.acc + s2.oasTrim - 32000000) ∧
      (s2.oas.acc + s2.oasTrim ≤ -32000000 → t.oas.raw = s2.oas.raw - 8192 ∧ t.oas.acc = s2.oas.acc + s2.oasTrim + 32000000) ∧
      t = { s2 with oas := { s2.oas with raw := t.oas.raw, acc := t.oas.acc, trimSec := secOf s2.oas.raw,
                                         tempAge := if (if s1.onVbat then 64 else 4) ≤ s1.oas.tempAge + 1 then 0 else s1.oas.tempAge + 1 } }) ∧
  (∀ (s s1 : State) (t0 d0 r0 : Nat), s.Inv → s.tim.calFrom = some (t0, d0, r0) → s.tim.servo = .locked → s.locked = false → s1 = s.until (t0 + 1024 * 268435456) →
    ∃ t, exec .oasisCalibrate s = .next t ∧ t.tim.calFrom = some (s1.t, s1.dev, s1.oas.raw) ∧
      t.reg rOasTrim = ((signed 24 (s.fld rOasTrim 23 0) + (if s1.dev = d0 then 0 else
        ((((s1.dev : Int) - d0) - ((s1.oas.raw : Int) - r0)) * 1024000000).tdiv ((s1.dev : Int) - d0))) % 16777216).toNat ∧
      SameRegs s t [rOasTrim, rOasStgLo, rOasStgHi] ∧ t = { s1 with regs := t.regs, tim := t.tim, oas := t.oas }) ∧
  (∀ (s s1 : State) (v : Nat), s.oas.stgPend = some v →
    s1 = (if s.locked then s.until (s.t + ((secOf s.oas.raw + 1) * second - s.oas.raw)) else s.untilDev ((secOf s.dev + 1) * second)) →
    exec .oasCommitApply s = .next { s1 with oas := { s1.oas with raw := v, stgPend := none, trimSec := v / 268435456, ppsSec := v / 268435456 - 1 } }) ∧
  (∀ s : State, s.Inv → s.locked = false → s.reg rOasStgLo % 268435456 = 0 → 4 * 8192 ≤ (secOf s.dev + 1) * 268435456 - s.dev →
    exec (.oasTcommit .dev) s =
      .next { s with freeCtr := s.freeCtr + 1, reply := { s.reply with dev := .done },
                     oas := { s.oas with stgPend := some (s.reg rOasStgLo + s.reg rOasStgHi * 2 ^ 32) } }) ∧
  (∀ s : State, s.locked = false → s.reg rOasStgLo % 268435456 = 0 → (secOf s.dev + 1) * 268435456 - s.dev < 2 * 8192 →
    exec (.oasTcommit .dev) s = .next ((({ s with freeCtr := s.freeCtr + 1 } : State).setReg rOasStat (setBits 5 5 (s.reg rOasStat) 1)).answer .dev .done)) ∧
  (∀ s : State, s.locked = false → s.reg rOasStgLo % 268435456 ≠ 0 →
    exec (.oasTcommit .dev) s = .next ((s.setReg rOasStat (setBits 4 4 (s.reg rOasStat) 1)).answer .dev .done)) ∧
  (∀ (w : Who) (s : State), w ≠ .dev → exec (.oasTcommit w) s = .next { s with reply := s.reply.put w .busError })

/-- Reading the Oasis time (R492): a read of OAS_TIME0 answers the low word and freezes the requester's own shadows, other requesters' are as they were; until it is released every
read of OAS_TIME0 answers the frozen word; a read of OAS_TIME3 answers the frozen value and releases, and without a freeze the live value; a freeze held for 2 s releases itself and sets that
requester's READ_STALE; over a locked bridge an access is a bus error (R11). -/
def Obligations.OasisShadowsFreezePerRequester : Prop :=
  (∀ (w : Who) (s : State), s.locked = false → s.oas.shadow.at w = none →
    exec (.oasTime0Read w) s =
      .next { s with oas := { s.oas with shadow := s.oas.shadow.put w (some s.oasLive) },
                     reply := s.reply.put w (.data (BitVec.ofNat 32 (s.oas.raw / 8192 * 8192))) } ∧
    exec (.oasTime3Read w) s = .next { s with reply := s.reply.put w (.data s.oasLive.w3) } ∧ exec (.freezeTimeout w) s = .next s) ∧
  (∀ (w : Who) (s : State) (x : Shadow), s.locked = false → s.oas.shadow.at w = some x →
    exec (.oasTime0Read w) s = .next { s with reply := s.reply.put w (.data x.w0) } ∧
    exec (.oasTime3Read w) s = .next { s with oas := { s.oas with shadow := s.oas.shadow.put w none }, reply := s.reply.put w (.data x.w3) } ∧
    exec (.freezeTimeout w) s =
      .next { s.until (x.since + 2 * 268435456) with
                oas := { (s.until (x.since + 2 * 268435456)).oas with shadow := s.oas.shadow.put w none, stale := s.oas.stale.put w true } }) ∧
  (∀ (w v : Who) (s t : State), exec (.oasTime0Read w) s = .next t → v ≠ w → t.oas.shadow.at v = s.oas.shadow.at v) ∧
  (∀ (w : Who) (s : State), s.locked = true →
    exec (.oasTime0Read w) s = .next { s with reply := s.reply.put w .busError } ∧
    exec (.oasTime3Read w) s = .next { s with reply := s.reply.put w .busError } ∧
    exec (.oasTcommit w) s = .next { s with reply := s.reply.put w .busError })

/-- What leaves and enters on the time pins. At each Oasis second PPS_OUT is driven for 100 ms while it is enabled and the main domain is powered (R493). A programmed time of a CTL output fires
the pulse on the holder when it is not late by more than LATE_MS, and otherwise counts it as skipped (R498); a unit without the token fires nothing (R497). A qualified edge of an EVT input is
stamped at the edge and, with nothing queued before it, goes to Q0 as EVT_CAPTURE; up to eight wait while Q0 stalls, and a ninth is lost and counted (R500, R501). -/
def Obligations.PulsesAndCaptures : Prop :=
  (∀ s s1 : State, s1 = s.oasSecondAt s.oas.ppsSec →
    (s.bitOf rOasPps 0 = true → s.onVbat = false →
      exec .ppsPulse s = .next { s1 with oas := { s1.oas with ppsSec := s1.oas.raw / 268435456, ppsUntil := s1.t + 26843545 },
                                         emitted := s1.emitted ++ [.pps s1.dev] }) ∧
    (s.bitOf rOasPps 0 = false ∨ s.onVbat = true → exec .ppsPulse s = .next { s1 with oas := { s1.oas with ppsSec := s1.oas.raw / 268435456 } })) ∧
  (∀ (n : Fin 8) (s s1 : State) (p : Nat), s.ctlNext n = some p → s1 = s.untilDev p → s.sef.driver = true → s.tim.ctlFrom ≤ p → s.ctlMode n = 3 ∨ s.seq.unsure = false →
    s.tim.ctl.length = 8 → s1.dev ≤ p + s.fld (rTimCtlcfg n) 23 16 * 268435456 / 1000 →
    ∃ t, exec (.ctlPulse n) s = .next t ∧ t.emitted = s.emitted ++ [.ctl n s1.dev] ∧ (t.ctlOut n).last = p ∧
      (t.ctlOut n).activeUntil = s1.t + s.fld (rTimCtlwidth n) 19 0 * 268435456 / 1000000 ∧
      (s.ctlMode n = 3 → (t.ctlOut n).pulses = (s.ctlOut n).pulses.drop 1) ∧ (s.ctlMode n ≠ 3 → (t.ctlOut n).k = (s.ctlOut n).k + 1) ∧
      (∀ m, m ≠ n.val → t.ctlOut m = s.ctlOut m) ∧ t = { s1 with tim := { s1.tim with ctl := t.tim.ctl }, emitted := t.emitted }) ∧
  (∀ (n : Fin 8) (s s1 : State) (p : Nat), s.Inv → s.ctlNext n = some p → s1 = s.untilDev p → s.sef.driver = true → s.tim.ctlFrom ≤ p → s.ctlMode n = 3 ∨ s.seq.unsure = false →
    p + s.fld (rTimCtlcfg n) 23 16 * 268435456 / 1000 < s1.dev →
    ∃ t, exec (.ctlPulse n) s = .next t ∧ t.emitted = s.emitted ∧ t.reg (rTimCtlskip n) = min 4294967295 (s.reg (rTimCtlskip n) + 1) ∧ t.bitOf rTimIrq 5 = true ∧
      SameRegs s t [rTimCtlskip n, rTimIrq]) ∧
  (∀ (n : Fin 8) (s : State) (p : Nat), s.ctlNext n = some p → s.sef.driver = false ∨ p < s.tim.ctlFrom ∨ (s.ctlMode n ≠ 3 ∧ s.seq.unsure = true) →
    ∃ t, exec (.ctlPulse n) s = .next t ∧ t.emitted = s.emitted ∧ t.regs = s.regs ∧ t.rings = s.rings) ∧
  (∀ (dt : Nat) (e : Fin 4) (rising : Bool) (s s1 s2 : State), s1 = s.advance dt → s.bitOf (rTimEvtcfg e) 2 = true →
    s.fld (rTimEvtcfg e) 1 0 = (if rising then 0 else 1) ∨ 2 ≤ s.fld (rTimEvtcfg e) 1 0 → s.sef.driver = true →
    s2 = s1.advance (s.fld (rTimEvtcfg e) 15 8 * 100 * 268435456 / 1000000000) →
    (s.tim.evq.getD e [] = [] → (s.ring 0).stalled = false →
      exec (.evtCapture dt e rising) s =
        .next (s2.offer 0 { kind := .evtCapture, stamp := s1.dev, payload := le 1 e ++ le 1 (if rising then 1 else 0) })) ∧
    (s.tim.evq.getD e [] ≠ [] ∨ (s.ring 0).stalled = true → (s.tim.evq.getD e []).length < 8 →
      exec (.evtCapture dt e rising) s = .next { s2 with tim := { s2.tim with evq := s.tim.evq.set e (s.tim.evq.getD e [] ++ [(s1.dev, rising)]) } }) ∧
    (8 ≤ (s.tim.evq.getD e []).length →
      exec (.evtCapture dt e rising) s = .next ((s2.count (rTimEvtlost e) 1).irq rTimIrq 6)))

/-- Dispatch (R108, R110, R112, R113): the dispatcher takes the next journal entry; for an entry with one task key the task joins the end of that key's FIFO, whose owner stays as it was; a key with
no FIFO gets one with its home grain (INDEX mod 64) as owner; a DRBG_DRAW entry instead hands its data to the waiting task its consumer tag names (R43). Other keys keep their FIFOs; outside the
engine array nothing but ERG_IRQ.POOL may change. -/
def Obligations.DispatchQueuesUnderKey : Prop :=
  (∀ (s : State) (e : Entry) (r : List Entry) (k : Key), s.Inv → s.erg.toDispatch = e :: r → e.kind ≠ .drbgDraw → keysOf s.cfg e = [k] → s.bitOf rErgCtl 0 = true →
    s.tasksUsed + 1 ≤ 32768 →
    ∃ t x, exec .taskDispatch s = .next t ∧ t.erg.toDispatch = r ∧ t.erg.dispatched = max s.erg.dispatched e.jsn ∧
      x.jsn = e.jsn ∧ x.key = k ∧ x.entry = e ∧ x.phase = .queued ∧ x.work = workOf e k ∧ x.since = s.t ∧
      (s.keyQ k = none → t.keyQ k = some { key := k, owner := keyIndex k % 64, tasks := [x] }) ∧
      (∀ q, s.keyQ k = some q → t.keyQ k = some { q with tasks := q.tasks ++ [x] }) ∧
      (∀ k', k' ≠ k → t.keyQ k' = s.keyQ k') ∧
      SameRegs s t [rErgIrq] ∧ t = { s with regs := t.regs, erg := { s.erg with keys := t.erg.keys, toDispatch := r, dispatched := t.erg.dispatched, dunes := t.erg.dunes, poolFull := t.erg.poolFull } }) ∧
  (∀ (s : State) (e : Entry) (r : List Entry) (k : Key) (x : Task), s.erg.toDispatch = e :: r → e.kind = .drbgDraw → drawKey (fld 0 4 e.payload) = some k → s.headTask k = some x →
    s.bitOf rErgCtl 0 = true → s.tasksUsed ≤ 32768 →
    ∃ t, exec .taskDispatch s = .next t ∧ t.headTask k = some { x with draws := x.draws ++ [(e.jsn, e.payload.drop 4)], phase := .committing } ∧
      (∀ k', k' ≠ k → t.keyQ k' = s.keyQ k') ∧
      t = { s with erg := { s.erg with keys := t.erg.keys, toDispatch := r, dispatched := max s.erg.dispatched e.jsn, dunes := t.erg.dunes } })

/-- Starting and moving tasks (R114, R115, R120 to R123, R128, R142): a grain of a working dune starts the first queued task of the key nearest the front of its deque, which pins the key; a task that
needs no cipher waits for the gate, and a sequenced frame waits for its cipher result, whose request goes to Q10; an idle grain's attempt takes the whole FIFO of its victim's stealable key together
with its ownership, counted in ERG_STEALCNT, and no task leaves its FIFO or changes its place in it. A dune that the governor sends to NAP starts and takes nothing more. -/
def Obligations.TasksStartAndMoveWhole : Prop :=
  (∀ (g : Fin 64) (s : State) (k : Key) (x : Task), (s.dune (g.val / 8)).pwr = .awake → (s.dune (g.val / 8)).leaving = false → s.bitOf rErgCtl 0 = true → s.nextStart g = some (k, x) →
    (x.entry.sequenced = false ∨ x.work ≠ .entry →
      ∃ t, exec (.taskStart g) s = .next t ∧
        t.erg.keys = s.erg.keys.map (fun q => if q.key == k then
          { q with tasks := q.tasks.map (fun y => if y.jsn = x.jsn ∧ y.phase = .queued then { y with phase := .committing } else y), pinned := true } else q) ∧
        t = { s with erg := { s.erg with keys := t.erg.keys, dunes := t.erg.dunes } }) ∧
    (x.entry.sequenced = true → x.work = .entry → s.bitOf rCphCtl 0 = true → s.Inv →
      ∃ t, exec (.taskStart g) s = .next t ∧
        t.erg.keys = s.erg.keys.map (fun q => if q.key == k then
          { q with tasks := q.tasks.map (fun y => if y.jsn = x.jsn ∧ y.phase = .queued then { y with phase := .waitCipher } else y), pinned := true } else q) ∧
        t.regs = s.regs ∧ SameRings s t [10] ∧ (∀ i, k = .slot i → t.rings = (s.micRequest g i x).rings) ∧
        t = { s with erg := { s.erg with keys := t.erg.keys, dunes := t.erg.dunes }, rings := t.rings, wram := t.wram, reply := t.reply })) ∧
  (∀ (g : Fin 64) (s : State) (v : Nat) (q : KeyQ), s.Inv → (s.dune (g.val / 8)).pwr = .awake → (s.dune (g.val / 8)).leaving = false → s.bitOf rErgCtl 0 = true → s.grainIdle g = true →
    s.victim g = some v → s.stealKey v = some q →
    ∃ t, exec (.barchanMove g) s = .next t ∧ t.erg.keys = (s.erg.keys.filter fun x => x.key ≠ q.key) ++ [{ q with owner := g }] ∧
      t.reg rErgStealcnt = min 4294967295 (s.reg rErgStealcnt + 1) ∧ SameRegs s t [rErgStealcnt] ∧
      t = { s with regs := t.regs, erg := { s.erg with keys := t.erg.keys, dunes := t.erg.dunes } }) ∧
  (∀ (g : Fin 64) (s : State), (s.dune (g.val / 8)).leaving = true → exec (.taskStart g) s = .next s ∧ exec (.barchanMove g) s = .next s)

/-- Dune power (R140, R141, R647): an idle dune naps once its grains have been idle for IDLE_US while more than MIN_AWAKE dunes are awake and none of its keys is pinned; a napping dune goes to DEEP
after DEEP_MS; a dune that qualifies wakes in 2 µs from NAP or 30 µs from DEEP, only while fewer dunes than the governor's limit are awake. Nothing but that dune and the time that passes changes. -/
def Obligations.DunesSleepAndWake : Prop :=
  (∀ (d : Fin 8) (s s1 : State), (s.dune d).pwr = .awake → s.duneIdle d = true → s.dunePinned d = false → min 8 (max 1 (s.fld rErgPwr 3 0)) < s.awakeCount → s.fld rErgPwr 23 8 ≠ 0 →
    s1 = s.until ((s.dune d).idleSince + s.fld rErgPwr 23 8 * 268435456 / 1000000) →
    exec (.duneNap d) s = .next { s1 with erg := { s1.erg with dunes := s1.erg.dunes.set d { s1.dune d with pwr := .nap, since := s1.t, leaving := false } } }) ∧
  (∀ (d : Fin 8) (s s1 : State), (s.dune d).pwr = .nap → s.fld rErgPwr 31 24 ≠ 0 → s.fld rErgPwr 23 8 ≠ 0 →
    s1 = s.until ((s.dune d).since + s.fld rErgPwr 31 24 * 268435456 / 1000) →
    exec (.duneDeep d) s = .next { s1 with erg := { s1.erg with dunes := s1.erg.dunes.set d { s1.dune d with pwr := .deep, since := s1.t } } }) ∧
  (∀ (s s1 s2 : State) (d due : Nat), s.awakeCount < s.erg.maxAwake → s.bitOf rErgCtl 0 = true → s.nextDuneWake = some (d, due) → s1 = s.until (max due s.wakeFrom) →
    s2 = s1.advance ((if (s.dune d).pwr = .nap then 2 else 30) * 268435456 / 1000000) →
    exec .duneWake s = .next { s2 with erg := { s2.erg with dunes := s2.erg.dunes.set d { pwr := .awake, since := s2.t, idleSince := s2.t, wakes := (s2.dune d).wakes + 1 } } }) ∧
  (∀ s : State, s.erg.maxAwake ≤ s.awakeCount → exec .duneWake s = .next s)

/-- A commit turn (R111, R126, R127, R132, R445): when a key's gate reaches its oldest task, and it waits for nothing, the task's work is done in one step on the state its gate finds, its outputs join the
release queue in the order it handed them over, and it alone leaves its FIFO. A task whose work waits for a draw, or for the watermark, stays at its gate with nothing changed. Shown whole for the tasks that
are one event each: a RING_LOSS entry raises ring loss with its payload, an orphan entry orphan traffic with its source, each as one record of type 8 under this unit's TAG. -/
def Obligations.CommitTurnHandsOver : Prop :=
  (∀ (s : State) (x : Task), s.headTask (.sys 4) = some x → x.key = .sys 4 → x.phase = .committing → x.work = .entry → x.entry.kind = .ringLoss ∨ x.entry.cls = .orphan →
    x.draws = [] → s.afterIngest x = false → s.cellsUsed + 4 ≤ 65536 → s.boot.restartDue = false → s.Inv →
    ∃ t o, exec (.commitTurn (.sys 4)) s = .next t ∧ t.erg.outq = s.erg.outq ++ [o] ∧ o.ojsn = x.jsn ∧ o.dep = x.jsn ∧ o.key = .sys 4 ∧ o.idx = 0 ∧ o.rtype = 8 ∧ o.dest = .stream ∧
      (x.entry.kind = .ringLoss → o.bytes.take 4 = le 1 8 ++ le 1 40 ++ le 1 0x04 ++ (o.bytes.drop 3).take 1 ∧ (o.bytes.drop 4).take 4 = le 4 (fld 0 4 x.entry.payload)) ∧
      (x.entry.kind ≠ .ringLoss → (o.bytes.drop 2).take 1 = le 1 0x01 ∧ (o.bytes.drop 4).take 4 = le 4 x.entry.frame.src) ∧
      (∀ k' q, k' ≠ Key.sys 4 → s.keyQ k' = some q → q.tasks ≠ [] → t.keyQ k' = some q) ∧ SameRegs s t [rErgIrq] ∧ t.seq = s.seq ∧ t.ctx = s.ctx ∧ t.rings = s.rings ∧ t.wram = s.wram) ∧
  (∀ (k : Key) (s : State) (x : Task) (c : Com), s.headTask k = some x → x.phase = .committing ∨ x.phase = .waitDraw → s.arb.flips = [] → s.faulted k = false → s.afterIngest x = false →
    c = (s.comOf x).runTask x →
    (c.wait = none → c.roomForOuts = true → c.s.boot.restartDue = false →
      ∃ t, exec (.commitTurn k) s = .next t ∧ t.erg.outq = c.s.erg.outq ++ c.outs ∧ t.ctx = c.s.ctx ∧ t.seq = c.s.seq ∧ t.rings = c.s.rings ∧ t.obox = c.s.obox ∧
        t.erg.keys = (c.s.dropHead k).erg.keys) ∧
    (c.wait = none → c.roomForOuts = false → exec (.commitTurn k) s = .next (s.setHead k { x with phase := .committing })) ∧
    (∀ tag n, c.wait = some (.draw tag n) → exec (.commitTurn k) s = .next (s.setHead k { x with phase := .waitDraw })) ∧
    (c.wait = some .watermark ∨ c.wait = some .descriptors → exec (.commitTurn k) s = .next (s.setHead k { x with phase := .committing })))

/-- The arbiter's window and clear (R176, R180, R182, R183): the 32-cycle quota window ends at its instant, and the grants that waited for the next window are the counts it starts with; any write of any
requester to ARB_LATMAX clears it, and no other register. -/
def Obligations.ArbiterWindowAndClear : Prop :=
  (∀ (s s1 : State) (w : Nat), w = max s.arb.window (windowAt s.t) → s1 = s.until (ceilDiv ((w + 1) * 32 * 268435456) 200000000) →
    exec .arbWindowEnd s = .next { s1 with arb := { s.arb with window := w + 1, rad := if w = s.arb.window then s.arb.nrad else 0, plc := if w = s.arb.window then s.arb.nplc else 0,
                                                               banks := if w = s.arb.window then s.arb.nbanks else [], nrad := 0, nplc := 0, nbanks := [] } }) ∧
  (∀ (w : Who) (s : State), s.Inv →
    ∃ t, exec (.arbLatmaxClear w) s = .next t ∧ t.reg rArbLatmax = 0 ∧ t.reply.at w = .done ∧ SameRegs s t [rArbLatmax] ∧
      t = { s with regs := t.regs, reply := s.reply.put w .done })

/-- Cipher requests (R115, R524, R525, R527, R530 to R535, R537). A request of a lane goes to the lowest idle lane and starts loading; with none idle it suspends the message of the highest priority number
above its own; with no lane to suspend it joins the queue behind those at least as urgent; a P-256 request goes to the lowest idle engine; a hash is done at once; an unknown operation ends with BAD_REQ.
With its key unwrapped into the lane a message runs; a lane that finishes a message posts the result on Q11 and takes up what is next. Opening a message whose check fails gives AUTH_FAIL, counts it and
writes no output; sealing past the slot's message limit gives EXHAUSTED. The dispatcher takes a result and resumes the task that waits for its TAG: that task, and no other, goes to its gate. -/
def Obligations.CipherRequestIsPlaced : Prop :=
  (∀ (s s1 s2 : State) (cut : Bool) (op : Nat) (ws : List Word) (r : CphReq), s.bitOf rCphCtl 0 = true → s.ringTake 10 = (.packet cut op ws, s1) → s2 = s1.ringDrain 10 → r = { op := op, ws := ws } →
    (1 ≤ op → op ≤ 11 → op ≠ 8 → op ≠ 9 → op ≠ 10 →
      (∀ k, ((List.range 16).find? fun k => (s2.sec.lane k).run.isNone) = some k →
        exec .cipherRequest s = .next { s2 with sec := { s2.sec with lanes := s2.sec.lanes.set k { s2.sec.lane k with run := some (r, .loading) } } }) ∧
      (((List.range 16).find? fun k => (s2.sec.lane k).run.isNone) = none →
        (∀ k, s2.sec.suspendable r.prio = some k →
          exec .cipherRequest s = .next (({ s2 with sec := { s2.sec with lanes := s2.sec.lanes.set k { run := some (r, .loading), susp := (s2.sec.lane k).run.map (·.1) } } } : State).count rCphSuspcnt 1)) ∧
        (s2.sec.suspendable r.prio = none → exec .cipherRequest s = .next { s2 with sec := { s2.sec with waitQ := queueReq r s2.sec.waitQ } }))) ∧
    (op = 9 ∨ op = 10 →
      (∀ k, ((List.range 2).find? fun k => (s2.sec.ecc.getD k none).isNone) = some k → exec .cipherRequest s = .next { s2 with sec := { s2.sec with ecc := s2.sec.ecc.set k (some r) } }) ∧
      (((List.range 2).find? fun k => (s2.sec.ecc.getD k none).isNone) = none → exec .cipherRequest s = .next { s2 with sec := { s2.sec with waitQ := queueReq r s2.sec.waitQ } })) ∧
    (op = 8 → exec .cipherRequest s = .next (s2.finishReq r 18 { status := 0, out := fit 32 (Config.sha256 (s2.wramBytes (r.word 4) (r.aadLen + r.msgLen))) })) ∧
    (op = 0 ∨ 11 < op → exec .cipherRequest s = .next (s2.postResult r 5 0 0 [] 0))) ∧
  (∀ (x : Sec) (p k : Nat), x.suspendable p = some k →
    ∃ r st, (x.lane k).run = some (r, st) ∧ (x.lane k).susp = none ∧ p < r.prio ∧
      ∀ j < 16, ∀ r' st', (x.lane j).run = some (r', st') → (x.lane j).susp = none → r'.prio ≤ r.prio) ∧
  (∀ (lane : Fin 16) (s : State) (r : CphReq) (st : LaneStep), (s.sec.lane lane).run = some (r, st) → r.unwraps = true → st ≠ .running →
    (∀ key, s.reqKey r = .key key →
      exec (.unwrapComplete lane) s = .next { s with sec := { s.sec with lanes := s.sec.lanes.set lane { s.sec.lane lane with run := some (r, .running) } } }) ∧
    (s.reqKey r = .unwrapFail →
      exec (.unwrapComplete lane) s = .next ((((s.irq rCphIrq 2).count rCphBlkcnt 0).postResult r 3 lane 0 [] 0).nextOnLane lane)) ∧
    (s.reqKey r = .noKey → exec (.unwrapComplete lane) s = .next (((s.count rCphBlkcnt 0).postResult r 4 lane 0 [] 0).nextOnLane lane))) ∧
  (∀ (lane : Fin 16) (s : State) (r : CphReq) (key : Nat), (s.sec.lane lane).run = some (r, .running) → s.reqKey r = .key key →
    (r.op = 2 → r.aadLen = 0 →
      exec (.laneComplete lane) s = .next (match Config.ccmOpen key (s.reqNonce r false) [] (s.wramBytes (r.word 4) r.msgLen) with
        | some p =>
          (((s.putWram (r.word 5) p).count rCphBlkcnt (ccmBlocks 0 (r.msgLen - 8))).postResult r 0 lane (r.word 3) (s.reqNonce r false) p.length).nextOnLane lane
        | none =>
          ((((s.count rCphAuthcnt 1).irq rCphIrq 1).count rCphBlkcnt (ccmBlocks 0 (r.msgLen - 8))).postResult r 1 lane (r.word 3) (s.reqNonce r false) 0).nextOnLane lane)) ∧
    (r.op = 1 → r.ksrc ≠ 0 → bit 20 (r.word 0) = false → s.reg rKeySlotlim + (if bit 18 (r.word 0) then 8 else 0) < r.word 3 →
      exec (.laneComplete lane) s = .next (((((s.count rCphExhcnt 1).irq rCphIrq 0).count rCphBlkcnt 0).postResult r 2 lane 0 [] 0).nextOnLane lane))) ∧
  (∀ (e : Fin 2) (s : State) (r : CphReq), s.sec.ecc.getD e none = some r →
    (r.op = 10 → ∀ ok : Bool, ok = Config.ecdsaVerify ((s.wramBytes (r.word 4) 160).take 64) (((s.wramBytes (r.word 4) 160).drop 64).take 32) ((s.wramBytes (r.word 4) 160).drop 96) →
      exec (.eccComplete e) s =
        .next ((((if ok then s else (s.count rCphAuthcnt 1).irq rCphIrq 1).count rCphBlkcnt 0).postResult r (if ok then 0 else 1) (16 + e) 0 [] 0).nextOnEcc e)) ∧
    (r.op = 9 → ∀ seed out : Bytes, s.sysKey.isSome = true → Config.kwUnwrap (jkek s.sys) (r.wrapped 40) = some seed →
      out = fit 64 (signFrom (sigk s.sys (bits 17 0 (r.word 2)) (bits 31 16 (r.word 1))) (s.wramBytes (r.word 4) 32) seed (r.word 3) 255 0) →
      exec (.eccComplete e) s =
        .next (((((s.count rCphSigcnt 1).putWram (r.word 5) out).count rCphBlkcnt 0).postResult r 0 (16 + e) (r.word 3) [] out.length).nextOnEcc e))) ∧
  (∀ (s s1 : State) (cut : Bool) (ty : Nat) (ws : List Word) (tag : Nat), s.ringTake 11 = (.packet cut ty ws, s1) → tag = (ws.getD 0 0).toNat % 65536 →
    exec .cipherResult s = .next { s1 with erg := { s1.erg with keys := s1.erg.keys.map fun q =>
      { q with tasks := q.tasks.map fun x => if x.phase = .waitCipher ∧ x.jsn % 65536 = tag then { x with phase := .committing } else x } } })

/-- Randomness (R528, R539, R549): every 10 ms a new mask is drawn, and nothing but the mask moves; a failed health test takes the DRBG out of service, counts it and raises an entropy-fault event; a full window passed
puts it back, runs a life-cycle transition that waited for it, and with no draw and no transition waiting changes nothing else. -/
def Obligations.MaskAndHealthTests : Prop :=
  (∀ s s1 : State, s.bitOf rKeyCtl 0 = true → s1 = s.until (s.sec.lastMask + 2684354) →
    exec .keyRemask s =
      .next { s1 with freeCtr := s1.freeCtr + 1, sec := { s1.sec with mask := Config.trng s1.freeCtr, maskGen := !s1.sec.maskGen, lastMask := s1.t } }) ∧
  (∀ s : State, s.Inv → s.pow.phase ≠ .off →
    ∃ u, exec .trngHealthFail s = .next (u.event 0x4B 0) ∧ u.bitOf rCphTrng 0 = false ∧ u.fld rCphTrng 31 16 = min 65535 (s.fld rCphTrng 31 16 + 1) ∧ u.bitOf rCphIrq 3 = true ∧
      SameRegs s u [rCphTrng, rCphIrq] ∧ u = { s with regs := u.regs }) ∧
  (∀ s : State, s.Inv → s.pow.phase ≠ .off → s.sec.lcPend = none → s.erg.keys = [] →
    ∃ t, exec .trngHealthPass s = .next t ∧ t.bitOf rCphTrng 0 = true ∧ SameRegs s t [rCphTrng] ∧ t = { s with regs := t.regs }) ∧
  (∀ (s : State) (p : LcPend), s.pow.phase ≠ .off → s.sec.lcPend = some p → p.due = true → exec .trngHealthPass s = .next ((s.setBit rCphTrng 0 true).transition p.dst))

/-- A tamper alarm on main power (R541, R542): the keys, lanes and engines are empty, the driver is released and the main domain resets into the ROM with cause 4; the Oasis latches the source with LIVE and HOLD and OAS_ALMCNT counts it, and the OTP is as it was (shown for a unit that writes no
record of it). On VBAT the same Oasis bits are set and the alarm waits with the instant of its detection and its record (R543). A source that is off changes nothing. -/
def Obligations.TamperErasesAndHolds : Prop :=
  (∀ (dt : Nat) (src : Fin 8) (s s1 : State), s.Inv → s1 = s.advance dt → s1.canAlarm src = true → s1.onVbat = false →
    ∃ t, exec (.tamperAlarm dt src) s = .next t ∧ t.sysKey = none ∧ t.sec.lanes = List.replicate 16 {} ∧ t.sec.ecc = [none, none] ∧ t.sec.waitQ = [] ∧ t.sec.opk = [] ∧
      t.pow.phase = .rom ∧ t.reg rSysRstcause = 4 ∧ t.sef.driver = false ∧ t.seq = {} ∧ t.wram = [] ∧
      ((s.seq.holder = false ∨ s.bitOf rJsqCtl 0 = false) → s.bitOf rEvrCtl 0 = false →
        t.bitOf rOasTampstat src = true ∧ t.bitOf rOasTampstat 8 = true ∧ t.bitOf rOasTampstat (16 + src) = true ∧
        t.fld rOasAlmcnt 15 0 = min 65535 (s.fld rOasAlmcnt 15 0 + 1) ∧ t.sec.otp = s.sec.otp)) ∧
  (∀ (dt : Nat) (src : Fin 8) (s s1 : State), s.Inv → s1 = s.advance dt → s1.canAlarm src = true → s1.onVbat = true →
    ∃ t, exec (.tamperAlarm dt src) s = .next t ∧ t.bitOf rOasTampstat src = true ∧ t.bitOf rOasTampstat 8 = true ∧ t.bitOf rOasTampstat (16 + src) = true ∧
      t.fld rOasAlmcnt 15 0 = min 65535 (s.fld rOasAlmcnt 15 0 + 1) ∧ SameRegs s t [rOasTampstat, rOasAlmcnt] ∧
      t = { s1 with regs := t.regs, pow := { s1.pow with alarms := s.pow.alarms ++ [(s1.oas.time, t.tamperPayload true false false)] } }) ∧
  (∀ (dt : Nat) (src : Fin 8) (s : State), (s.advance dt).canAlarm src = false → exec (.tamperAlarm dt src) s = .next (s.advance dt))

/-- Alarm hold (R544, R545, R551): the ROM answers a KEY_ID-0 CMD datagram addressed to the unit with the 16-byte hold answer at the address and port it came from; a code outside 0xF01 to 0xF05, or one whose signature does not verify, is NOT_PERMITTED and changes nothing else; a
transition that the life cycle does not allow is BAD_STATE. Under a signature that verifies REARM clears LATCH, LIVE and HOLD and resets the main domain. -/
def Obligations.AlarmHoldAnswers : Prop :=
  ∀ (addr port : Nat) (dgram : Bytes) (s : State) (d : Dgram) (code : Nat), s.pow.phase = .alarmHold → s.bitOf rNetCtl 0 = true → Dgram.ofBytes dgram = some d → d.dtype = 3 → d.keyId = 0 →
    d.sysaddr = s.cfg.sysaddr → code = fld 0 2 (sub 40 d.blen dgram) →
    (code < 0xF01 ∨ 0xF05 < code ∨ s.lcSigned code (sub 8 64 (sub 40 d.blen dgram)) = false →
      exec (.holdCmd addr port dgram) s =
        .next { s with emitted := s.emitted ++ [.udp addr port (le 4 0x4A46484F ++ le 2 code ++ le 1 Status.notPermitted.code ++ le 1 s.sec.otp.lc.code ++ s.unitId)] }) ∧
    (0xF01 ≤ code → code ≤ 0xF04 → s.lcSigned code (sub 8 64 (sub 40 d.blen dgram)) = true → s.sec.otp.next code = none →
      exec (.holdCmd addr port dgram) s =
        .next { s with emitted := s.emitted ++ [.udp addr port (le 4 0x4A46484F ++ le 2 code ++ le 1 Status.badState.code ++ le 1 s.sec.otp.lc.code ++ s.unitId)] }) ∧
    (code = 0xF05 → s.lcSigned code (sub 8 64 (sub 40 d.blen dgram)) = true → s.Inv →
      ∃ t, exec (.holdCmd addr port dgram) s = .next t ∧ t.reg rOasTampstat = 0 ∧ t.pow.phase = .rom ∧ t.sysKey = none ∧ t.sec.otp = s.sec.otp ∧
        t.emitted = s.emitted ++ [.udp addr port (le 4 0x4A46484F ++ le 2 code ++ le 1 Status.ok.code ++ le 1 s.sec.otp.lc.code ++ s.unitId)])

/-- The roster commands (R137, R156 to R158, R459, R462), given to a quiet unit by an origin that may give them, each journaled and acknowledged: ROSTER_ADD makes a FREE slot outside the join pool ROSTERED with its EUI-64 (entered in the index), class, medium, group and wrapped key, or is
refused INDEX_FULL when the index cannot place the EUI-64; ROSTER_SET changes CLASS and BGROUP only; ROSTER_DECOM decommissions a slot that has no pushes; ROSTER_RELEASE frees a DECOM slot once the epoch has advanced, retracting the mirage records of frames still parked, and answers NOT_CLOSED before. No other slot changes. -/
def Obligations.RosterCommandsChangeOneSlot : Prop :=
  (∀ (src : Nat) (i : Fin 131072) (eui cls med grp : Nat) (wkey body : Bytes) (s : State), s.Given src 0x01 (i + 131072) body → s.Fenced i → cls < 16 → med < 3 → grp < 2 ^ 14 → eui < 2 ^ 64 →
    (s.slot i).state = .free → (s.slot i).fault = false → s.inPool i = false → s.findEui eui = none → (∀ r ∈ s.erg.spilled, r.slot ≠ i) →
    body = be 8 eui ++ le 1 cls ++ le 1 med ++ le 2 grp ++ fit 24 wkey →
    ∃ t, exec (.rosterAdd src i eui cls med grp wkey) s = .next t ∧
      (s.idxPlaces eui = true →
        Commanded s ((s.poolNote ((s.setSlot i { state := .rostered, medium := med, group := grp % 4096, member := bit 12 grp, ref := bit 13 grp, short := i + 1, cls := cls, eui := eui,
                                                 wkey := fit 24 wkey, lastJsn := (s.slot i).lastJsn }).idxAdd eui i)).stampSlot i s.seq.nextJsn) t src 0x01 (i + 131072) body 0 []) ∧
      (s.idxPlaces eui = false → Commanded s (s.stampSlot i s.seq.nextJsn) t src 0x01 (i + 131072) body 8 [])) ∧
  (∀ (src : Nat) (i : Fin 131072) (cls grp : Nat) (s : State), s.Given src 0x04 (i + 131072) (le 1 cls ++ le 1 0 ++ le 2 grp) → s.Fenced i → cls < 16 → grp < 2 ^ 14 →
    (s.slot i).state = .rostered ∨ (s.slot i).state = .joining ∨ (s.slot i).state = .active → (s.slot i).fault = false → (∀ r ∈ s.erg.spilled, r.slot ≠ i) →
    ∃ t, exec (.rosterSet src i cls grp) s = .next t ∧
      Commanded s ((s.setSlot i { s.slot i with cls := cls, group := grp % 4096, member := bit 12 grp, ref := bit 13 grp }).stampSlot i s.seq.nextJsn) t src 0x04 (i + 131072)
        (le 1 cls ++ le 1 0 ++ le 2 grp) 0 []) ∧
  (∀ (src : Nat) (i : Fin 131072) (s : State), s.Given src 0x02 (i + 131072) [] → s.Fenced i → (s.slot i).state = .rostered ∨ (s.slot i).state = .joining ∨ (s.slot i).state = .active →
    (s.slot i).fault = false → s.ctx.pushesOf i = [] → (∀ r ∈ s.erg.spilled, r.slot ≠ i) →
    ∃ t v, exec (.rosterDecom src i) s = .next t ∧ v = s.setSlot i { s.slot i with state := .decom, decomEpoch := s.ctx.epoch } ∧
      Commanded s ((v.setSlot i { v.slot i with pushId := 0, pushKind := 0, pushAtt := 0, pushActive := false }).stampSlot i s.seq.nextJsn) t src 0x02 (i + 131072) [] 0 []) ∧
  (∀ (src : Nat) (i : Fin 131072) (s : State), s.Given src 0x03 (i + 131072) [] → s.Fenced i → (s.slot i).state = .decom → (s.slot i).fault = false → (s.slot i).parks.length ≤ 1024 →
    (∀ r ∈ s.erg.spilled, r.slot ≠ i) →
    ∃ t, exec (.rosterRelease src i) s = .next t ∧
      ((s.slot i).decomEpoch < s.ctx.epoch → ∃ r outs,
        Commanded s (({ (s.idxDrop i) with regs := r } : State).setSlot i { lastJsn := (s.slot i).lastJsn } |>.stampSlot i s.seq.nextJsn) t src 0x03 (i + 131072) [] 0 outs ∧
        SameRegs s t [rErgRetcnt] ∧ outs.length = ((s.slot i).parks.filter fun p => p.mirage.isSome).length ∧ ∀ o ∈ outs, o.rtype = 7 ∧ o.ojsn = s.seq.nextJsn) ∧
      (s.ctx.epoch ≤ (s.slot i).decomEpoch → Commanded s (s.stampSlot i s.seq.nextJsn) t src 0x03 (i + 131072) [] 7 []))

/-- The unit's own commands (R26, R52, R68, R241, R301, R459, R483, R517), given to a quiet unit by an origin that may give them: CLOSE_NOW fixes the close instant at the first whole minute of UTC one second or more after its stamp, none while its stamp is unsure, and is refused CLOSE_BUSY while another waits; CKPT_NOW asks for a checkpoint; TIME_SET leaves a step of NEW minus
its stamp pending, with the origin as source; METER_SET writes MTR_SEL and the PGA codes; KEY_ROLL advances SIGK by one generation. Each is journaled and acknowledged, and changes nothing else. HOLD_END is journaled at once, before the inputs that the hold keeps, and its commit ends the hold. -/
def Obligations.UnitCommandsTakeEffect : Prop :=
  (∀ (src st : Nat) (s : State), s.Given src 0x10 0 [] → st = s.givenStamp src 0x10 0 [] → s.ctx.closesOpenAt s.seq.nextJsn < 2 →
    ∃ t, exec (.closeNow src) s = .next t ∧
      (s.ctx.closeNow = none → s.stampState st = (false, false) →
        Commanded s (s.withCtx fun k => { k with closeNow := some { jsn := s.seq.nextJsn, instant := some (minuteAtOrAfter s.cfg (st + second)) } }) t src 0x10 0 [] 0 []) ∧
      (s.ctx.closeNow = none → (s.stampState st).1 = true → Commanded s (s.withCtx fun k => { k with closeNow := some { jsn := s.seq.nextJsn, instant := none } }) t src 0x10 0 [] 0 []) ∧
      (s.ctx.closeNow ≠ none → Commanded s s t src 0x10 0 [] 9 [])) ∧
  (∀ (src : Nat) (s : State), s.Given src 0x12 0 [] →
    ∃ t, exec (.cmdCkptNow src) s = .next t ∧ Commanded s { s with seq := { s.seq with ckptReq := true } } t src 0x12 0 [] 0 []) ∧
  (∀ (src time st : Nat) (s : State) (o : Origin), s.Given src 0x20 0 (le 8 time) → st = s.givenStamp src 0x20 0 (le 8 time) → o = s.givenOrigin src 0x20 0 (le 8 time) →
    o ≠ .maint ∨ s.sec.otp.lc = .open_ → time < 2 ^ 64 → ((time : Int) - st).natAbs < 2 ^ 35 * 2 ^ 28 →
    ∃ t, exec (.timeSet src time) s = .next t ∧
      Commanded s { s with tim := { s.tim with pend := some { delta := (time : Int) - st, source := if o.code = 0 then 1 else if o.code = 1 then 3 else 2 } } } t src 0x20 0 (le 8 time) 0 []) ∧
  (∀ (src sel p0 p1 p2 p3 : Nat) (body : Bytes) (s : State), body = le 1 sel ++ le 1 p0 ++ le 1 p1 ++ le 1 p2 ++ le 1 p3 ++ le 3 0 → s.Given src 0x30 0 body →
    s.cfg.role ≠ .head → sel < 256 → p0 < 256 → p1 < 256 → p2 < 256 → p3 < 256 → (∀ f ∈ s.ctx.fences, f.jsn ≤ s.ctx.feeder.lastJsn) →
    ∃ t, exec (.meterSet src sel p0 p1 p2 p3) s = .next t ∧
      (decimation (sel % 8) = decimation (sel / 8 % 8) → p0 ≤ 4 → p1 ≤ 4 → p2 ≤ 4 → p3 ≤ 4 →
        Commanded s ((s.putSel sel [p0, p1, p2, p3]).withCtx fun k => { k with feeder := { k.feeder with lastJsn := s.seq.nextJsn } }) t src 0x30 0 body 0 []) ∧
      (decimation (sel % 8) ≠ decimation (sel / 8 % 8) ∨ 4 < p0 ∨ 4 < p1 ∨ 4 < p2 ∨ 4 < p3 →
        Commanded s (s.withCtx fun k => { k with feeder := { k.feeder with lastJsn := s.seq.nextJsn } }) t src 0x30 0 body 2 [])) ∧
  (∀ (src p : Nat) (s : State), s.Given src 0xF00 0 (le 1 p ++ le 3 0) → p < 256 →
    ∃ t, exec (.keyRoll src p) s = .next t ∧
      (p = 4 → s.ctx.sigGen < 65535 →
        Commanded s (s.withCtx fun k => { k with sigGen := k.sigGen + 1, sigHist := k.sigHist ++ [(s.seq.nextJsn, k.sigGen + 1)] }) t src 0xF00 0 (le 1 p ++ le 3 0) 0 []) ∧
      (p ≠ 4 → Commanded s s t src 0xF00 0 (le 1 p ++ le 3 0) 2 [])) ∧
  (∀ (src : Nat) (s : State), s.Given src 0x13 0 [] → ∃ t, exec (.holdEnd src) s = .next t ∧ Commanded s s t src 0x13 0 [] 0 []) ∧
  (∀ (src : Nat) (s s0 : State) (h : Hold), s0.Given src 0x13 0 [] → s = { s0 with seq := { s0.seq with hold := some h } } →
    ∃ t e l, exec (.holdEnd src) s = .next t ∧ t.seq.hold = none ∧ t.seq.journal = s.seq.journal ++ e :: l ∧ e.kind = .mgmtCmd ∧ e.jsn = s.seq.nextJsn)

/-- Pushes and endpoint images (R424, R425, R427, R437, R438), given to a quiet unit: a PUSH joins the end of the slot's queue of fewer than 4, or is refused NOT_ACTIVE; FW_LOAD stores one block of an image, whose last block makes it READY when its digest is right and FAILED with an event when not; FW_SEND hands a range of a READY image to its medium's pump; FW_DELETE
removes an image that no push names, with its ranges. Each is acknowledged and changes nothing else. With room in its MAC's ring, a pump queues its next block there and moves on by one block. -/
def Obligations.PushAndImageCommands : Prop :=
  (∀ (src : Nat) (i : Fin 131072) (id att dt : Nat) (payload body : Bytes) (s : State), body = le 2 id ++ le 1 att ++ le 1 dt ++ payload → s.Given src 0x40 (i + 131072) body → s.Fenced i →
    0 < id → id < 0xF000 → (s.slot i).fault = false → dt < 256 → (∀ r ∈ s.erg.spilled, r.slot ≠ i) →
    ∃ t, exec (.push src i id att dt payload) s = .next t ∧
      ((s.slot i).state = .active → dt ≠ 4 → downLen dt = some (payload.length + 4) → 0 < att → att ≤ 7 → downBodyOk dt payload = true →
        (dt = 5 ∨ dt = 7 ∨ dt = 8 → (s.ctx.images.any fun m => m.image == fld 0 2 payload && m.state == .ready) = true) →
        s.ctx.pushesOf i ≠ [] → (s.ctx.pushesOf i).length < 4 → s.ctx.pushes.length < 8192 →
        Commanded s ((s.withCtx fun k => { k with pushes := k.pushes ++ [{ slot := i, id := id, maxAtt := att, dtype := dt, body := payload, cmdJsn := s.seq.nextJsn,
                                                                            cmdStamp := s.givenStamp src 0x40 (i + 131072) body }] }).stampSlot i s.seq.nextJsn) t src 0x40 (i + 131072) body 0 []) ∧
      ((s.slot i).state ≠ .active → Commanded s (s.stampSlot i s.seq.nextJsn) t src 0x40 (i + 131072) body 10 [])) ∧
  (∀ (src image block : Nat) (data body content : Bytes) (s : State) (m : EpImage), body = le 2 image ++ le 2 block ++ fit 128 data → s.Given src 0x42 0 body → image < 65536 → block < 65536 →
    s.ctx.image image = some m → block < m.blocks → (m.data.any fun p => p.1 == block) = false → content = ({ m with data := m.data ++ [(block, fit 128 data)] } : EpImage).content →
    ∃ t, exec (.fwLoad src image block data) s = .next t ∧
      (m.data.length + 1 ≠ m.blocks →
        Commanded s (s.withCtx fun k => { k with images := k.images.map fun x => if x.image == image then { m with data := m.data ++ [(block, fit 128 data)] } else x }) t src 0x42 0 body 0 []) ∧
      (m.data.length + 1 = m.blocks → Config.sha256 content = m.digest →
        Commanded s (s.withCtx fun k => { k with images := k.images.map fun x => if x.image == image then { m with data := m.data ++ [(block, fit 128 data)], state := .ready } else x }) t src 0x42 0 body 0 []) ∧
      (m.data.length + 1 = m.blocks → Config.sha256 content ≠ m.digest → ∃ o, o.rtype = 8 ∧ o.ojsn = s.seq.nextJsn ∧ (o.bytes.drop 2).take 1 = le 1 0x14 ∧ (o.bytes.drop 4).take 4 = le 4 image ∧
        Commanded s (s.withCtx fun k => { k with images := k.images.map fun x => if x.image == image then { m with data := m.data ++ [(block, fit 128 data)], state := .failed } else x }) t src 0x42 0 body 0 [o])) ∧
  (∀ (src image round med first last ttl : Nat) (body : Bytes) (s : State) (m : EpImage), body = le 2 image ++ le 1 round ++ le 1 med ++ le 2 first ++ le 2 last ++ le 1 ttl ++ le 3 0 → s.Given src 0x43 0 body →
    image < 65536 → round < 256 → med ≤ 1 → first ≤ last → last < m.blocks → last < 65536 → ttl ≤ 7 →
    s.ctx.image image = some m → m.state = .ready →
    ∃ t, exec (.fwSend src image round med first last ttl) s = .next t ∧
      ((s.ctx.pumps.filter fun q => q.medium == med).length < 4 →
        Commanded s (s.withCtx fun k => { k with pumps := k.pumps ++ [{ image := image, round := round, medium := med, first := first, last := last, ttl := ttl }] }) t src 0x43 0 body 0 []) ∧
      (4 ≤ (s.ctx.pumps.filter fun q => q.medium == med).length → Commanded s s t src 0x43 0 body 15 [])) ∧
  (∀ (src image : Nat) (s : State) (m : EpImage), s.Given src 0x44 0 (le 2 image ++ le 2 0) → image < 65536 → s.ctx.image image = some m →
    ∃ t, exec (.fwDelete src image) s = .next t ∧
      ((s.ctx.pushes.any fun p => (p.dtype == 5 || p.dtype == 7 || p.dtype == 8) && fld 0 2 p.body == image) = false →
        Commanded s (s.withCtx fun k => { k with images := k.images.filter fun x => x.image ≠ image, pumps := k.pumps.filter fun q => q.image ≠ image }) t src 0x44 0 (le 2 image ++ le 2 0) 0 []) ∧
      ((s.ctx.pushes.any fun p => (p.dtype == 5 || p.dtype == 7 || p.dtype == 8) && fld 0 2 p.body == image) = true → Commanded s s t src 0x44 0 (le 2 image ++ le 2 0) 16 [])) ∧
  (∀ (plc : Bool) (s : State) (p : Pump) (m : EpImage) (ring : Nat) (ws : List Word), s.ctx.pumps.find? (fun q => q.medium == (if plc then 1 else 0)) = some p → s.ctx.image p.image = some m →
    ring = (if plc then 4 else 2) → ws = s.blockPacket p m → s.sef.driver = true → (s.ring ring).en = true → (s.ring ring).stalled = false → ws.length + 1 ≤ (s.ring ring).freeWords →
    exec (.fwBlockPump plc) s = .next { s.ringPacket ring 2 ws with ctx := { s.ctx with pumps := if p.last ≤ p.first then s.ctx.pumps.erase p else { p with first := p.first + 1 } :: s.ctx.pumps.erase p } })

/-- Commands that use a draw (R43, R257, R437, R750): on a quiet unit that serves draws, READOUT and FW_DECLARE each journal their MGMT_CMD and the DRBG_DRAW they wait for, and then commit: READOUT hands over one feeder readout record and its acknowledgement, both under the draw's JSN, and counts one signature; FW_DECLARE enters the image as LOADING with the
journaled draw as its wrapped key. -/
def Obligations.DrawingCommandsWaitForTheirDraw : Prop :=
  (∀ (src : Nat) (s s1 : State), s.Given src 0x11 0 [] → s.drawsServed = true → s1 = s.journalInput (s.cmdInput src 0x11 0 []).2 → s1.seqTakes = true → s.sec.calls + 1 < 65536 →
    ∃ t e d r a, exec (.readout src) s = .next t ∧ t.seq.journal = s.seq.journal ++ [e, d] ∧ e.kind = .mgmtCmd ∧ d.kind = .drbgDraw ∧ d.jsn = s.seq.nextJsn + 1 ∧
      d.payload = le 4 0xC4000000 ++ fit 40 (s.wrapJ (Config.drbg s.sec.drbg 32)) ∧ t.erg.outq = s.erg.outq ++ [r, a] ∧ r.rtype = 3 ∧ a.rtype = 6 ∧ r.ojsn = d.jsn ∧ a.ojsn = d.jsn ∧
      t.erg.keys = [] ∧ t.reg rCphSigcnt = min 4294967295 (s.reg rCphSigcnt + 1) ∧ SameRegs s t [rCphSigcnt]) ∧
  (∀ (src image blocks length mask : Nat) (digest body : Bytes) (s s1 : State), body = le 2 image ++ le 2 blocks ++ le 4 length ++ fit 32 digest ++ le 2 mask ++ le 2 0 → s.Given src 0x41 0 body →
    image < 65536 → 0 < blocks → blocks ≤ 4096 → (blocks - 1) * 128 < length → length ≤ blocks * 128 → mask < 65536 →
    s.ctx.image image = none → s.ctx.images.length < 16 → (s.ctx.images.map fun m => m.blocks).foldl (· + ·) 0 + blocks ≤ s.med.caps.getD 3 0 * 8192 → s.drawsServed = true →
    s1 = s.journalInput (s.cmdInput src 0x41 0 body).2 → s1.seqTakes = true → s.sec.calls + 1 < 65536 →
    ∃ t e d a, exec (.fwDeclare src image blocks length digest mask) s = .next t ∧ t.seq.journal = s.seq.journal ++ [e, d] ∧ e.kind = .mgmtCmd ∧ d.kind = .drbgDraw ∧ d.jsn = s.seq.nextJsn + 1 ∧
      t.ctx.images = s.ctx.images ++ [{ image := image, blocks := blocks, length := length, digest := fit 32 digest, classMask := mask, key := d.payload.drop 4 }] ∧
      t.erg.outq = s.erg.outq ++ [a] ∧ a.rtype = 6 ∧ a.ojsn = d.jsn ∧ t.erg.keys = [] ∧ t.regs = s.regs)

/-- The life-cycle commands (R522, R547, R551, R552) in service on a quiet unit: under a signature that OPK verifies, COMMISSION in OPEN fuses the hash of OPK, and LC_FIELD, LC_RETURN and LC_SCRAP leave their transition waiting for the release of the acknowledgement; any other signature is refused NOT_PERMITTED and sets CPH_IRQ.AUTH. In alarm hold and on a keyless unit LC_FIELD, LC_RETURN and LC_SCRAP, signed,
run at once and nothing is journaled. REARM, signed, in alarm hold clears LATCH, LIVE and HOLD and resets the main domain into the ROM. -/
def Obligations.LifeCycleCommandsNeedTheirSignature : Prop :=
  (∀ (src : Nat) (sig : Bytes) (s : State), s.Given src 0xF01 0 (fit 64 sig) → s.pow.phase ≠ .alarmHold → s.pow.phase ≠ .keyless → s.sec.otp.lc = .open_ →
    ∃ t, exec (.commission src sig) s = .next t ∧
      (s.lcSigned 0xF01 (fit 64 sig) = true → Commanded s s.commission t src 0xF01 0 (fit 64 sig) 0 []) ∧
      (s.lcSigned 0xF01 (fit 64 sig) = false → Commanded s (s.irq rCphIrq 1) t src 0xF01 0 (fit 64 sig) 17 [])) ∧
  (∀ (src : Nat) (sig : Bytes) (s : State) (c : Instr) (code : Nat) (dst : LifeCycle),
    (c = .lcField src sig ∧ code = 0xF02 ∧ dst = .field ∧ (s.sec.otp.lc = .return_ ∨ s.sec.otp.lc = .open_ ∧ s.sec.otp.commissioned = true)) ∨
    (c = .lcReturn src sig ∧ code = 0xF03 ∧ dst = .return_ ∧ s.sec.otp.lc = .field) ∨
    (c = .lcScrap src sig ∧ code = 0xF04 ∧ dst = .scrapped ∧ s.sec.otp.lc ≠ .scrapped) →
    (s.pow.phase ≠ .alarmHold → s.pow.phase ≠ .keyless → s.Given src code 0 (fit 64 sig) →
      ∃ t, exec c s = .next t ∧
        (s.lcSigned code (fit 64 sig) = true → Commanded s { s with sec := { s.sec with lcPend := some { dst := dst, ack := s.seq.nextJsn } } } t src code 0 (fit 64 sig) 0 []) ∧
        (s.lcSigned code (fit 64 sig) = false → Commanded s (s.irq rCphIrq 1) t src code 0 (fit 64 sig) 17 [])) ∧
    (s.pow.phase = .alarmHold ∨ s.pow.phase = .keyless →
      (s.lcSigned code (fit 64 sig) = true → exec c s = .next (s.transitionWhen dst)) ∧ (s.lcSigned code (fit 64 sig) = false → exec c s = .next s))) ∧
  (∀ (src : Nat) (sig : Bytes) (s : State), s.Inv → s.pow.phase = .alarmHold →
    ∃ t, exec (.rearm src sig) s = .next t ∧
      (s.lcSigned 0xF05 (fit 64 sig) = true → t.reg rOasTampstat = 0 ∧ t.pow.phase = .rom ∧ t.sec.otp = s.sec.otp ∧ t.freeCtr = s.freeCtr + 1 ∧ t.emitted = s.emitted) ∧
      (s.lcSigned 0xF05 (fit 64 sig) = false → t = s))

/-- The feeder front end (R300 to R313): its five commands each hand it samples until the first after which what they name has come about, one sample after another, and change nothing but the front end, Q9, the time that passes, its own registers and FREE's rate. A block that is due ends before the present sample as one MTR_BLOCK of 96 bytes stamped with its
first sample, with its flags, BSEQ and energies and its LEN to the next block's first sample, which starts there with the next BSEQ and the fractions carried; it goes to Q9, to the holding buffer of 8, or is dropped and counted. A rising crossing in the accepted period completes a cycle of its phase, whose RMS voltage tells whether the phase is present and whose
mean power goes to step watch unless a sample was unsettled; a step found sets MTR_IRQ.STEP. A tamper condition that has differed from what is set for its settled time sets or clears with one event. Settling ends at its sample; when no phase is left present the front end counts nominal time and sends ZC_LOST. An event is one MTR_EVENT of 24 bytes for Q9, for the buffer
of 16, or dropped and counted. -/
def Obligations.FeederReportsBlocksStepsAndTamper : Prop :=
  (∀ (xs : List FeSample) (p : Fin 3) (q : Fin 5) (s : State) (c : Instr), s.Inv → c ∈ [.feederBlockEnd xs, .feederCycle p xs, .noZc xs, .tamperCondition q xs, .settlingEnd xs] →
    ∃ t, exec c s = .next t ∧ (s.fe.run = false → t = s) ∧ SameRings s t [9] ∧ SameRam s t [9] ∧
      SameRegs s t ([rMtrIrq, rMtrLostcnt, rTimRate, rQfIrq] ++ (List.range 7).map rMtrRms ++ (List.range 3).map rMtrPinst) ∧
      t = { s with t := t.t, dev := t.dev, devSub := t.devSub, oas := { s.oas with raw := t.oas.raw }, regs := t.regs, rings := t.rings, wram := t.wram, reply := t.reply, fe := t.fe,
                   tim := { s.tim with mains := t.tim.mains } }) ∧
  (∀ (x : FeSample) (xs : List FeSample) (s s1 s2 : State) (st stop : Nat) (short : Bool), s.fe.run = true → s1 = s.feClock.feTake x → st = s1.feStamp → s2 = s1.feCross st → s2.fe.fresh = false →
    s2.blockDue st = some (stop, short) →
    ∃ (u : State) (p : FePkt), exec (.feederBlockEnd (x :: xs)) s = .next (u.feRest x st) ∧ p.kind = .mtrBlock ∧ p.stamp = s2.fe.start ∧ p.payload.length = 96 ∧ fld 1 1 p.payload = s2.blockFlags short ∧
      fld 4 4 p.payload = s2.fe.bseq % 2 ^ 32 ∧ fld 8 4 p.payload = (stop - s2.fe.start) % 2 ^ 32 ∧
      (∀ k, k < 6 → (p.payload.drop (16 + 8 * k)).take 8 = leI 8 ((s2.fe.blk.e.getD k 0).tdiv (eUnit : Int))) ∧
      u.fe.start = st ∧ u.fe.bseq = (s2.fe.bseq + 1) % 2 ^ 32 ∧ u.fe.cyclesIn = 0 ∧ u.fe.blk.e = s2.fe.blk.e.map (fun v => v.tmod (eUnit : Int)) ∧
      (s2.seq.holder = true → s2.fe.held = [] → s2.fe.events = [] → (s2.ring 9).roomFor (p.input.words.length + 1) = true →
        u.rings = (s2.offer 9 p.input).rings ∧ u.wram = (s2.offer 9 p.input).wram ∧ u.fe.held = [] ∧ u.fe.gap = false) ∧
      (s2.seq.holder = true → (∀ k, 0 < k → (s2.ring 9).roomFor k = false) → s2.fe.held.length < 8 → u.rings = s2.rings ∧ u.fe.held = s2.fe.held ++ [p]) ∧
      (s2.seq.holder = true → (∀ k, 0 < k → (s2.ring 9).roomFor k = false) → 8 ≤ s2.fe.held.length → s.Inv →
        u.rings = s2.rings ∧ u.fe.held = s2.fe.held ∧ u.fe.gap = true ∧ u.reg rMtrLostcnt = min 4294967295 (s2.reg rMtrLostcnt + 1) ∧ u.bitOf rMtrIrq 0 = true)) ∧
  (∀ (p : Fin 3) (x : FeSample) (xs : List FeSample) (s s1 : State) (st m0 start : Nat) (a : FeAcc) (ok : Bool) (pc : Int), s.fe.run = true → s.fe.phases.length = 3 → s1 = s.feClock.feTake x → st = s1.feStamp →
    (s.fePhase p).armed = true → 0 ≤ s1.feNow p → (s.fePhase p).rise = some (m0, start) → riseOk (s1.fe.mcyc - m0) = true → a = (s.fePhase p).acc →
    ok = decide (s.fld rMtrVnom 19 0 * s.fld rMtrVnom 29 20 ≤ rmsOf a.v2 a.n vUnit * 1000) → pc = a.p.tdiv ((a.n : Int) * (pUnit : Int) * 1000000) →
    ∃ t, exec (.feederCycle p (x :: xs)) s = .next t ∧ (t.fePhase p).done = (s.fePhase p).done + 1 ∧ (t.fePhase p).present = ok ∧ (t.fePhase p).rise = some (s1.fe.mcyc, st) ∧ (t.fePhase p).armed = false ∧
      (ok = false ∨ a.uns = true → (t.fePhase p).cycles = [] ∧ (t.fePhase p).cand = none) ∧
      (ok = true → a.uns = false → (t.fePhase p).cycles = (pc :: (s.fePhase p).cycles).take 101) ∧
      (ok = true → (stepWatch s1 (s.fePhase p) pc a.uns start).2 ≠ none → s.Inv → t.bitOf rMtrIrq 3 = true)) ∧
  (∀ (s : State) (x : FePhase) (c : StepCand) (pc dp : Int) (start : Nat), x.cand = some c → c.post.length + 1 = windowCyc (s.fld rMtrStep0 31 24) →
    dp = (meanDiff (c.post ++ [pc]) c.pre).tdiv ((c.post.length + 1) * c.pre.length) →
    stepWatch s x pc false start = ({ x with cycles := (pc :: x.cycles).take 101, cand := none },
      if (s.fld rMtrStep1 15 0 : Int) < (c.post ++ [pc]).foldl max pc - (c.post ++ [pc]).foldl min pc ∨ dp.natAbs < s.fld rMtrStep0 15 0 then none else some (c, dp, meanI (c.post ++ [pc])))) ∧
  (∀ (c : Fin 5) (x : FeSample) (xs : List FeSample) (s s1 s3 : State) (st : Nat) (on : Bool), s.Inv → s.fe.run = true → s.fe.phases.length = 3 → s1 = s.feClock.feTake x → st = s1.feStamp →
    s3 = (((s1.feCross st).feEdge st).feOver x st).feAdd → s3.condOn c = true → s3.fe.unsettled = false → on = (s3.fe.conds.getD c {}).holds → on = !s.condSet c →
    s.condSecs c * 1024000 ≤ (s3.fe.conds.getD c {}).run + s3.feDec →
    ∃ t, exec (.tamperCondition c (x :: xs)) s = .next t ∧ t.condSet c = on ∧ (t.fe.conds.getD c {}).run = 0 ∧ t.bitOf rMtrIrq 2 = true ∧
      ∃ (u : State) (v : Int), s3.feCond st c = u.feEvent (condEvent c on) (if c.val < 3 then c else 3) 0 v 0 st s3.fe.bseq ∧ (3 ≤ c.val → v = 0) ∧ u.condSet c = on ∧ (∀ c' : Fin 5, c' ≠ c → u.condSet c' = s3.condSet c') ∧
        SameRegs s3 u [rMtrIrq] ∧ u = { s3 with regs := u.regs, fe := { s3.fe with phases := u.fe.phases, byp := u.fe.byp, neu := u.fe.neu, conds := u.fe.conds } }) ∧
  (∀ (x : FeSample) (xs : List FeSample) (s : State), s.fe.run = true → s.fe.unsettled = true → s.fe.settleM ≤ s.fe.mcyc + s.feDec → s.switchDue = false →
    ∃ t, exec (.settlingEnd (x :: xs)) s = .next t ∧ t.fe.unsettled = false ∧ t.fe.mcyc = s.fe.mcyc + s.feDec) ∧
  (∀ (x : FeSample) (xs : List FeSample) (s s1 : State) (st : Nat), s.Inv → s.fe.run = true → s.fe.noZc = false → s1 = s.feClock.feTake x → st = s1.feStamp →
    ((List.range 3).foldl (fun a p => (a.feRise st p).feMissing p) s1).fe.refPhase = none →
    ∃ t, exec (.noZc (x :: xs)) s = .next t ∧ t.fe.noZc = true ∧ t.bitOf rMtrIrq 4 = true) ∧
  (∀ (s : State) (ty ph instant bseq : Nat) (dp v1 v2 : Int), s.seq.holder = true →
    ∃ p, p.kind = .mtrEvent ∧ p.stamp = instant ∧ p.payload = le 1 1 ++ le 1 ty ++ le 1 ph ++ le 1 (flag 0 (s.feUnsettledIn bseq)) ++ leI 4 dp ++ leI 4 v1 ++ leI 4 v2 ++ le 4 bseq ++ le 4 0 ∧
      (s.fe.events = [] → (s.ring 9).roomFor (p.input.words.length + 1) = true → s.feEvent ty ph dp v1 v2 instant bseq = s.offer 9 p.input) ∧
      ((s.ring 9).roomFor (p.input.words.length + 1) = false → s.fe.events.length < 16 → s.feEvent ty ph dp v1 v2 instant bseq = { s with fe := { s.fe with events := s.fe.events ++ [p] } }) ∧
      ((s.ring 9).roomFor (p.input.words.length + 1) = false → 16 ≤ s.fe.events.length → s.Inv →
        (s.feEvent ty ph dp v1 v2 instant bseq).reg rMtrLostcnt = min 4294967295 (s.reg rMtrLostcnt + 1) ∧ (s.feEvent ty ph dp v1 v2 instant bseq).fe = s.fe))

/-- Entry into the release stream (R445 to R449, R551). What may enter is one output only: durable and committed, and first in stream order of all that the commit watermark has reached; it takes the next RSN and enters the outbox, or, acknowledged before, only the number. A full outbox holds it back and
sets NET_IRQ.OBOX_FULL; a DOWN goes to its MAC's ring and takes no RSN; the release of an acknowledgement that a life-cycle transition waits for runs the transition. -/
def Obligations.OnlyTheFirstDurableOutputEnters : Prop :=
  (∀ (s : State) (o : Output), s.nextRelease = some o → o ∈ s.erg.outq ∧ o.ojsn ≤ s.seq.durable ∧ o.dep ≤ s.seq.durable ∧ o.ojsn ≤ s.cwm ∧
    ∀ p ∈ s.erg.outq, p.ojsn ≤ s.cwm → outBefore p o = false) ∧
  (∀ (s : State) (o : Output), s.nextRelease = some o → o.dest = .stream → s.oboxFull = false → o.rtype ≠ 8 ∨ s.bitOf rEvrCtl 0 = false → s.sec.lcPend = none →
    ∃ t, exec .releaseEnter s = .next t ∧ t.erg.outq = s.erg.outq.erase o ∧
      t.obox = (if s.ctx.nextRsn < s.ctx.acked then s.obox else s.obox ++ [{ rsn := s.ctx.nextRsn, rtype := o.rtype, bytes := o.bytes }]) ∧
      t = { s with erg := { s.erg with outq := t.erg.outq }, sef := t.sef, obox := t.obox, ctx := { s.ctx with nextRsn := s.ctx.nextRsn + 1, nextVsn := s.ctx.nextVsn + 1 } }) ∧
  (∀ (s : State) (o : Output), s.nextRelease = some o → o.dest = .stream → s.oboxFull = false → o.rtype = 8 → s.bitOf rEvrCtl 0 = true → s.sec.lcPend = none →
    ∃ u : State, exec .releaseEnter s = .next (u.logReleased o.bytes) ∧ u.obox = (if s.ctx.nextRsn < s.ctx.acked then s.obox else s.obox ++ [{ rsn := s.ctx.nextRsn, rtype := 8, bytes := o.bytes }]) ∧
      u = { s with erg := { s.erg with outq := s.erg.outq.erase o }, sef := u.sef, obox := u.obox, ctx := { s.ctx with nextRsn := s.ctx.nextRsn + 1, nextVsn := s.ctx.nextVsn + 1 } }) ∧
  (∀ (s : State) (o : Output), s.nextRelease = some o → o.dest ≠ .stream → s.sec.lcPend = none →
    ∃ u : State, u = { s with erg := { s.erg with outq := s.erg.outq.erase o }, sef := u.sef, ctx := { s.ctx with nextVsn := s.ctx.nextVsn + 1 } } ∧
      (o.dest = .down → s.sef.driver = true → exec .releaseEnter s = .next (u.ringPacket o.rtype 1 (toWs o.bytes))) ∧ (o.dest = .down → s.sef.driver = false → exec .releaseEnter s = .next u) ∧
      (o.dest = .ctl → exec .releaseEnter s = .next (u.ctlRelease o.rtype (fld 0 8 o.bytes)))) ∧
  (∀ (s : State) (o : Output), s.nextRelease = some o → o.dest = .stream → s.oboxFull = true → exec .releaseEnter s = .next (s.irq rNetIrq 1)) ∧
  (∀ (s : State) (o : Output) (p : LcPend), s.nextRelease = some o → o.dest = .stream → o.rtype = 6 → s.oboxFull = false → s.sec.lcPend = some p → o.ojsn = p.ack →
    ∃ u : State, exec .releaseEnter s = .next (u.transitionWhen p.dst) ∧ u.ctx.nextRsn = s.ctx.nextRsn + 1 ∧ u.sec = s.sec) ∧
  (∀ s : State, s.nextRelease = none → exec .releaseEnter s = .next s)

/-- Batches and their acknowledgement (R453 to R455, R464). With the window not full the holder sends, from the sending position or the acknowledged mark if that is higher, the records that fit; each resend counts in NET_RETX; the stream, its outbox and the mark stay as they are. With the window full nothing
is sent. RTO_MS without an advance of the mark takes the sending position back to the mark. A head unit sends the BACK of a batch that is durable, carrying NEXT, to the batch's source, and of no other. -/
def Obligations.BatchesGoOutWithinTheWindow : Prop :=
  (∀ (n k from_ : Nat) (body : Bytes) (s : State), s.Inv → s.netTx = true → s.sysKey.isSome = true → from_ = max s.net.sentTo s.ctx.acked →
    packBatch (min n 255) [] ((s.obox.filter fun r => decide (from_ ≤ r.rsn)).map fun r => (r.rtype, r.bytes)) = (k, body) → 0 < k → s.net.sent.length < s.fld rNetWin 8 0 →
    ∃ t, exec (.batchSend false n) s = .next t ∧ t.net.sent = s.net.sent ++ [{ first := from_, count := k }] ∧ t.net.sentTo = from_ + k ∧ t.net.sentMax = max s.net.sentMax (from_ + k) ∧
      t.reg rNetRetx = (if from_ < s.net.sentMax then min 4294967295 (s.reg rNetRetx + 1) else s.reg rNetRetx) ∧
      t = { s with regs := t.regs, rings := t.rings, wram := t.wram, reply := t.reply, emitted := t.emitted, net := t.net, sec := { s.sec with u2hGen := t.sec.u2hGen, u2hCtr := t.sec.u2hCtr, u2hMark := t.sec.u2hMark } }) ∧
  (∀ (diag : Bool) (n : Nat) (s : State), s.netTx = true → s.fld rNetWin 8 0 ≤ (if diag then s.net.sentDiag.length else s.net.sent.length) → exec (.batchSend diag n) s = .next s) ∧
  (∀ (n k from_ : Nat) (body : Bytes) (s : State), s.netTx = true → s.sysKey.isSome = true → from_ = max s.net.diagSent s.net.diagAck →
    packBatch (min n 255) [] ((s.net.diag.filter fun r => decide (from_ ≤ r.esn)).map fun r => (r.rtype, r.bytes)) = (k, body) → 0 < k → s.net.sentDiag.length < s.fld rNetWin 8 0 →
    ∃ t, exec (.batchSend true n) s = .next t ∧ t.net.sentDiag = s.net.sentDiag ++ [{ first := from_, count := k }] ∧ t.net.diagSent = from_ + k ∧ t.net.diag = s.net.diag ∧ t.net.sent = s.net.sent ∧
      t = { s with regs := t.regs, rings := t.rings, wram := t.wram, reply := t.reply, emitted := t.emitted, net := t.net, sec := { s.sec with u2hGen := t.sec.u2hGen, u2hCtr := t.sec.u2hCtr, u2hMark := t.sec.u2hMark } }) ∧
  (∀ s s1 : State, s.net.sent ≠ [] → s1 = s.until (s.net.rtoFrom + s.fld rNetWin 31 16 * 268435456 / 1000) →
    exec (.batchRto false) s = .next { s1 with net := { s1.net with sentTo := s.ctx.acked, sent := [], rtoFrom := s1.t } }) ∧
  (∀ s s1 : State, s.net.sentDiag ≠ [] → s1 = s.until (s.net.rtoDiag + s.fld rNetWin 31 16 * 268435456 / 1000) →
    exec (.batchRto true) s = .next { s1 with net := { s1.net with diagSent := s.net.diagAck, sentDiag := [], rtoDiag := s1.t } }) ∧
  (∀ (s : State) (b : BackPend) (a : Nat × Nat), (s.net.backs.find? fun b => decide (b.jsn ≤ s.seq.durable)) = some b → s.netTx = true → b.dst = some a →
    ∃ (u : State) (d : Dgram), exec .headBackSend s = .next (u.sendDgram (some a) (sealDgram (h2u s.sys b.sysaddr 0) d [])) ∧ d.dtype = 2 ∧ d.sysaddr = b.sysaddr ∧ d.first = b.first ∧ (b.diag = false → d.stream = 0 ∧ d.session = 0) ∧
      (b.diag = true → d.stream = 1 ∧ d.session = b.session) ∧ u.net.backs = s.net.backs.erase b ∧ u = { s with net := { s.net with backs := u.net.backs, backCtr := u.net.backCtr } }) ∧
  (∀ s : State, (∀ b ∈ s.net.backs, s.seq.durable < b.jsn) → exec .headBackSend s = .next s)

/-- Received datagrams at their commit (R454, R456, R458, R463). A BACK of the release stream that authenticates moves the acknowledged mark to the greater of its FIRST and the mark and frees the outbox below it, unless FIRST exceeds the next RSN, which records an acknowledgement fault; one that does not changes no mark. A CMD that
authenticates waits as MGMT_CMD for the sequencer; on the holder it goes to Q0; one that fails is refused with an event and counted. In the head role a BATCH under the sender's key moves NEXT by R454, queues one child task per new record under the record's key, owes its BACK with NEXT, and one with a failed tag changes neither. -/
def Obligations.DatagramsActAtTheirCommit : Prop :=
  (∀ (s : State) (x : Task) (d : Dgram), s.Inv → s.headTask (.sys 3) = some x → x.key = .sys 3 → x.work = .entry → x.phase = .committing → x.entry.kind = .netPkt → Dgram.ofBytes x.entry.payload = some d →
    d.dtype = 2 → d.stream = 0 → s.cellsUsed ≤ 60000 → s.boot.restartDue = false → x.draws = [] →
    ∃ t, exec .backCommit s = .next t ∧ SameRegs s t [rErgIrq, rNetAuthfail, rNetReplay, rNetIrq] ∧ t.seq = s.seq ∧ t.rings = s.rings ∧ t.ctx.nextRsn = s.ctx.nextRsn ∧
      match s.authH2u d x.entry.payload with
      | (.good _, _) =>
        if s.ctx.nextRsn + s.streamBelow x.entry.jsn < d.first then
          t.ctx.acked = s.ctx.acked ∧ t.obox = s.obox ∧ ∃ o, t.erg.outq = s.erg.outq ++ [o] ∧ o.rtype = 8 ∧ (o.bytes.drop 2).take 1 = le 1 0x15
        else t.ctx.acked = max s.ctx.acked d.first ∧ t.obox = s.obox.filter (fun r => decide (max s.ctx.acked d.first ≤ r.rsn)) ∧ t.erg.outq = s.erg.outq
      | (.badTag, _) => t.ctx = s.ctx ∧ t.obox = s.obox ∧ t.erg.outq = s.erg.outq ∧ t.reg rNetAuthfail = min 4294967295 (s.reg rNetAuthfail + 1)
      | (.replayed, _) => t.ctx = s.ctx ∧ t.obox = s.obox ∧ t.erg.outq = s.erg.outq ∧ t.reg rNetReplay = min 4294967295 (s.reg rNetReplay + 1)) ∧
  (∀ (s : State) (x : Task) (d : Dgram), s.Inv → s.headTask (.sys 3) = some x → x.key = .sys 3 → x.work = .entry → x.phase = .committing → x.entry.kind = .netPkt → Dgram.ofBytes x.entry.payload = some d →
    d.dtype = 3 → d.keyId ≠ 0 → s.cellsUsed ≤ 60000 → s.boot.restartDue = false → x.draws = [] →
    ∃ t, exec .cmdDatagramCheck s = .next t ∧ t.ctx.slots = s.ctx.slots ∧
      match s.authH2u d x.entry.payload with
      | (.good p, s1) => SameRegs s t [rErgIrq] ∧ t.erg.outq = s.erg.outq ∧ t.ctx.win = s1.ctx.win ∧
          ∃ c : Unsub, c = { jsn := x.entry.jsn, src := x.entry.jsn, stamp := x.entry.stamp, cmd := p.take (8 + fld 2 2 p) } ∧
            (s1.submitted c = false → t.ctx.unsubmitted = s.ctx.unsubmitted ++ [c] ∧ (s.seq.holder = true → t.rings = (s.offer 0 c.input).rings) ∧ (s.seq.holder = false → t.rings = s.rings)) ∧
            (s1.submitted c = true → t.ctx.unsubmitted = s.ctx.unsubmitted ∧ t.rings = s.rings)
      | (.badTag, _) => t.ctx = s.ctx ∧ (∃ o, t.erg.outq = s.erg.outq ++ [o] ∧ o.rtype = 8 ∧ (o.bytes.drop 2).take 1 = le 1 0x16 ∧ (o.bytes.drop 4).take 4 = le 4 0) ∧
          (s.sef.driver = false ∨ d.sysaddr = s.cfg.sysaddr → SameRegs s t [rErgIrq, rNetAuthfail, rNetIrq] ∧ t.reg rNetAuthfail = min 4294967295 (s.reg rNetAuthfail + 1) ∧ t.seq = s.seq ∧ t.rings = s.rings)
      | (.replayed, _) => SameRegs s t [rErgIrq, rNetReplay, rNetIrq] ∧ t.seq = s.seq ∧ t.rings = s.rings ∧ t.ctx = s.ctx ∧ t.reg rNetReplay = min 4294967295 (s.reg rNetReplay + 1) ∧
          ∃ o, t.erg.outq = s.erg.outq ++ [o] ∧ o.rtype = 8 ∧ (o.bytes.drop 2).take 1 = le 1 0x16 ∧ (o.bytes.drop 4).take 4 = le 4 1) ∧
  (∀ (s : State) (x : Task) (d : Dgram) (n : NextFor), s.Inv → s.cfg.role = .head → s.headTask (.sys 7) = some x → x.key = .sys 7 → x.work = .entry → x.phase = .committing → x.entry.kind = .netPkt →
    Dgram.ofBytes x.entry.payload = some d → d.dtype = 1 → d.stream = 0 → keyPurpose d.keyId = 1 → s.sysKey ≠ none → s.cellsUsed ≤ 60000 → s.boot.restartDue = false → x.draws = [] → n = s.ctx.nextOf d.sysaddr 0 false →
    s.tasksUsed + d.count ≤ 32768 →
    ∃ t, exec .batchIngest s = .next t ∧ t.seq = s.seq ∧ t.rings = s.rings ∧ t.obox = s.obox ∧ t.ctx.slots = s.ctx.slots ∧
      match openDgram (u2h s.sys d.sysaddr d.origin (keyGen d.keyId)) x.entry.payload with
      | some body => ∃ m b, (d.first ≤ n.next → n.next < d.first + d.count → ∀ p ∈ (batchRecords d.count body).zipIdx, n.next ≤ d.first + p.2 →
            ∃ q y, t.keyQ (s.childKey p.1.1 p.1.2) = some q ∧ y ∈ q.tasks ∧ y.jsn = x.jsn ∧ y.entry = x.entry ∧ y.work = .child p.1.2 p.1.1 p.2) ∧
          (t.ctx.nextOf d.sysaddr 0 false).next = m ∧ m = (if d.first ≤ n.next ∧ n.next < d.first + d.count then d.first + d.count else n.next) ∧
          t.net.backs = s.net.backs ++ [b] ∧ b.jsn = x.entry.jsn ∧ b.sysaddr = d.sysaddr ∧ b.first = m ∧ b.diag = false ∧ t.erg.outq = s.erg.outq
      | none => t.ctx = s.ctx ∧ t.net.backs = s.net.backs ∧ ∃ o, t.erg.outq = s.erg.outq ++ [o] ∧ o.rtype = 8 ∧ (o.bytes.drop 2).take 1 = le 1 0x1A ∧ (o.bytes.drop 4).take 4 = le 4 d.sysaddr)

/-- Closes (R132, R242, R245 to R247, R251, R280, R284). The sweep's task under the CLOSE key waits at its gate for the commit watermark to reach its BND_PERIOD. A sweep step first draws its seed and journals it, which starts the sweep; with the seed it signs the stage entries of the next 256 slots under the SIGK generation in force at the BND_PERIOD, moves the
cursor, counts what it signed and journals the CLOSE_CURSOR with the new cursor; its outputs are ordered under that entry. The last step adds the feeder readout and the close event, and ends the close: the epoch advances and its task leaves the queue. A group whose BND_BALANCE the watermark has reached gives one balance result for each cell it closes, oldest
first, and those cells leave the group; before that it waits. -/
def Obligations.ClosesSweepAndScore : Prop :=
  (∀ (s : State) (x : Close) (r : List Close), s.Inv → s.ctx.closes = x :: r → s.seqTakes = true → s.atGate (.sys 6) = true → s.headIs (.sys 6) (fun t => t.work == .sweep x.subj) = true → s.cwmPast x.jsn = true →
    x.draw = none → s.drawsServed = true → s.sec.calls + 1 < 65536 →
    ∃ t e, exec .closeSweepStep s = .next t ∧ t.seq.journal = s.seq.journal ++ [e] ∧ e.kind = .drbgDraw ∧ e.jsn = s.seq.nextJsn ∧
      e.payload = le 4 (0xC1000000 + x.cursor / 256) ++ fit 40 (s.wrapJ (Config.drbg s.sec.drbg 32)) ∧
      t.ctx.closes = { x with draw := some (e.jsn, e.payload.drop 4), started := true } :: r ∧ t.erg.outq = s.erg.outq ∧ (x.started = false → t.bitOf rBilIrq 0 = true) ∧ SameRegs s t [rBilIrq]) ∧
  (∀ (s : State) (x : Close) (r : List Close) (j gen : Nat) (w : Bytes) (L : List Nat) (R : List Bytes), s.Inv → s.ctx.closes = x :: r → s.seqTakes = true → s.atGate (.sys 6) = true →
    s.headIs (.sys 6) (fun t => t.work == .sweep x.subj) = true → s.cwmPast x.jsn = true → x.draw = some (j, w) → s.ctx.heldPers = [] → s.cellsUsed ≤ 60000 → s.arb.flips = [] → (∀ y ∈ r, y.subj ≠ x.subj) →
    L = s.sweepSlots x.cursor → L.length ≤ 256 → (∀ g ∈ s.ctx.stage, ∀ b, g.body = some b → b.length ≤ 1024) → (∀ i ∈ L, (s.slot i).fault = false ∧ ∀ f ∈ s.ctx.fences, f.bnd = true → f.jsn ≤ x.jsn → f.jsn ≤ (s.slot i).lastJsn) →
    (∀ p ∈ s.erg.spilled, p.slot ∉ L) → gen = s.ctx.sigGenAt x.jsn →
    R = L.filterMap (fun i => (s.ctx.stage.find? fun g => g.epoch == x.subj && g.slot == i).bind fun g => g.body.map fun b => overwrite b 120 (le 4 gen) ++ s.signWith gen (s.unwrapJ w) i (overwrite b 120 (le 4 gen))) →
    ∃ t e O, exec .closeSweepStep s = .next t ∧ t.seq.journal = s.seq.journal ++ [e] ∧ e.kind = .closeCursor ∧ e.jsn = s.seq.nextJsn ∧ e.payload = le 4 x.subj ++ le 4 (x.cursor + 256) ∧
      t.erg.outq = s.erg.outq ++ O ∧ (∀ o ∈ O, o.ojsn = e.jsn ∧ o.key = .sys 6 ∧ o.dep = max x.jsn j) ∧ (x.started = false → t.bitOf rBilIrq 0 = true) ∧ SameRegs s t [rBilIrq, rCphSigcnt, rErgIrq] ∧ t.ctx.slots = s.ctx.slots ∧
      (x.cursor + 256 < 131072 → t.ctx.closes = { x with cursor := x.cursor + 256, closed := x.closed + R.length, recs := x.recs ++ R.flatten, started := true, draw := none } :: r ∧
        O.map (·.bytes) = R ∧ (∀ o ∈ O, o.rtype = 2) ∧ t.reg rCphSigcnt = min 4294967295 (s.reg rCphSigcnt + R.length)) ∧
      (131072 ≤ x.cursor + 256 → t.ctx.closes = r ∧ t.ctx.epoch = x.subj + 1 ∧ t.ctx.closeLast = x.closed + R.length ∧ t.bitOf rBilIrq 1 = true ∧
        (∀ k, k ∈ t.ctx.stage → k.epoch ≠ x.subj) ∧ ∃ p q, O.map (·.bytes) = R ++ [p, q] ∧ O.map (·.rtype) = R.map (fun _ => 2) ++ [3, 8] ∧ p.take 2 = le 1 3 ++ le 1 1 ∧ (q.drop 2).take 1 = le 1 0x0D ∧
          (q.drop 4).take 4 = le 4 x.subj ∧ t.reg rCphSigcnt = min 4294967295 (s.reg rCphSigcnt + R.length + 1))) ∧
  (∀ (g : Fin 4096) (s : State) (x : Task) (e : BalGroup) (l : List Int), s.Inv → s.headTask (.group g) = some x → x.key = .group g → x.work = .entry → x.phase = .committing → x.entry.kind = .bndBalance → s.cfg.group g = some e →
    s.cwmPast x.jsn = true → s.afterIngest x = false → s.cellsUsed ≤ 60000 → s.boot.restartDue = false → x.draws = [] → l = s.cellsToClose e g x.jsn x.entry.stamp → l.length ≤ 256 →
    ∃ t O, exec (.balanceClose g) s = .next t ∧ t.erg.outq = s.erg.outq ++ O ∧ (∀ o ∈ O, (o.rtype = 4 ∨ o.rtype = 8) ∧ o.ojsn = x.jsn ∧ o.key = .group g) ∧
      (O.filter fun o => o.rtype == 4).map (fun o => (o.bytes.drop 16).take 8) = l.map (fun t0 => le 8 (secOfStd s.cfg t0 * 268435456)) ∧
      (∀ o ∈ O, o.rtype = 4 → o.bytes.take 2 = le 1 4 ++ le 1 1 ∧ (o.bytes.drop 8).take 2 = le 2 g ∧ (o.bytes.drop 24).take 8 = le 8 x.entry.stamp) ∧
      (t.ctx.group g).cells = (s.ctx.group g).cells.filter (fun y => !l.contains y.t0) ∧ (∀ g', g' ≠ g.val → t.ctx.group g' = s.ctx.group g') ∧ SameRegs s t [rErgIrq] ∧ t.seq = s.seq ∧ t.ctx.slots = s.ctx.slots) ∧
  (∀ (g : Fin 4096) (s : State) (x : Task), s.headTask (.group g) = some x → x.key = .group g → x.work = .entry → x.phase = .committing → x.entry.kind = .bndBalance → s.cwmPast x.jsn = false → s.afterIngest x = false →
    exec (.balanceClose g) s = .next (s.setHead (.group g) x))

/-- Accesses to the management address space (R8 to R10, R13, R76, R553). An access outside every block is a bus error and an address-fault event that names requester and address. Device code writes the bytes of working RAM it names and no other. A write at an undefined register address is ignored; in an _IRQ register the 1s of any requester clear
write-1-to-clear bits, and an _IEN register takes its read-write bits; any other register is closed to the chain and the maintenance port with a bus error, and takes from device code its read-write fields, its LK fields while they are open, and its write-1-to-clear bits. A read of a _LO register latches its _HI half, which the next read of that _HI register returns whatever happens between. -/
def Obligations.RegisterAccessesFollowTheMap : Prop :=
  (∀ (w : Who) (addr : Word) (s : State), areaOf addr.toNat = .none →
    ∃ n, exec (.addressFault w addr) s = .next (({ s with reply := s.reply.put w .busError } : State).event 0x41 addr.toNat none (le 1 n)) ∧ n < 3) ∧
  (∀ (addr : Word) (size : Fin 3) (v : Word) (s : State) (o : Nat), s.Inv → o = addr.toNat - 0x12000000 → areaOf addr.toNat = .wram → areaOf (addr.toNat + 2 ^ size.val - 1) = .wram →
    ∃ t, exec (.registerWrite .dev addr size v) s = .next t ∧ (∀ k, k < 2 ^ size.val → sget ramDefault t.wram (o + k) = (le 4 v.toNat).getD k 0) ∧
      (∀ a, a < o ∨ o + 2 ^ size.val ≤ a → sget ramDefault t.wram a = sget ramDefault s.wram a) ∧ t = { s with wram := t.wram, reply := { s.reply with dev := .done } }) ∧
  (∀ (w : Who) (addr : Word) (v : Word) (s : State), areaOf addr.toNat = .regs → addr.toNat % 4 = 0 → regAt addr.toNat = none → (0x40010400 ≤ addr.toNat ∨ addr.toNat < 0x40010000) → inOas addr.toNat = false →
    exec (.registerWrite w addr 2 v) s = .next { s with reply := s.reply.put w .done }) ∧
  (∀ (w : Who) (addr : Word) (v : Word) (s : State) (d : RegDef), s.Inv → addr.toNat ∈ irqRegs → regAt addr.toNat = some d →
    ∃ t, exec (.registerWrite w addr 2 v) s = .next t ∧ t.reg addr.toNat = (BitVec.ofNat 32 (s.reg addr.toNat) &&& ~~~ (v &&& BitVec.ofNat 32 d.w1c)).toNat ∧
      SameRegs s t [addr.toNat] ∧ t = { s with regs := t.regs, reply := s.reply.put w .done }) ∧
  (∀ (w : Who) (addr : Word) (v : Word) (s : State) (d : RegDef), s.Inv → addr.toNat ∈ ienRegs → regAt addr.toNat = some d →
    ∃ t, exec (.registerWrite w addr 2 v) s = .next t ∧
      t.reg addr.toNat = ((BitVec.ofNat 32 (s.reg addr.toNat) &&& ~~~ (BitVec.ofNat 32 d.rw)) ||| (v &&& BitVec.ofNat 32 d.rw)).toNat ∧
      SameRegs s t [addr.toNat] ∧ t = { s with regs := t.regs, reply := s.reply.put w .done }) ∧
  (∀ (w : Who) (addr : Word) (v : Word) (s : State) (d : RegDef), w ≠ .dev → areaOf addr.toNat = .regs → addr.toNat % 4 = 0 → regAt addr.toNat = some d → addr.toNat ∉ irqRegs → addr.toNat ∉ ienRegs →
    addr.toNat ∉ [rRadCtl, rPlcCtl, rNetCtl, rOasStat, rArbLatmax, rNetMdio] → exec (.registerWrite w addr 2 v) s = .next { s with reply := s.reply.put w .busError }) ∧
  (∀ (addr v : Word) (s : State) (d : RegDef) (m : Nat), s.Inv → areaOf addr.toNat = .regs → addr.toNat % 4 = 0 → regAt addr.toNat = some d → (0x40010400 ≤ addr.toNat ∨ addr.toNat < 0x40010000) → (inOas addr.toNat = true → s.locked = false) →
    (nth (rMtrTrim 0) 32 3 addr.toNat).isNone = true → addr.toNat ∉ [rJsqCtl, rNetMdio, rSefRole, rSefToken, rOasTcommit, rOasStat, rOasLrate, rArbLatmax] → m = d.rw + (if s.lkOpen then d.lk else 0) →
    ∃ t, exec (.registerWrite .dev addr 2 v) s = .next t ∧ SameRegs s t [addr.toNat, rArbIrq] ∧ t = { s with regs := t.regs, reply := { s.reply with dev := .done } } ∧
      t.reg addr.toNat = (((BitVec.ofNat 32 (s.reg addr.toNat) &&& ~~~ (BitVec.ofNat 32 m)) ||| (v &&& BitVec.ofNat 32 m)) &&& ~~~ (v &&& BitVec.ofNat 32 d.w1c)).toNat) ∧
  (∀ (w : Who) (addr : Word) (s : State), isLo addr.toNat = true → inOas addr.toNat = true → s.locked = true → exec (.loRegisterRead w addr) s = .next { s with reply := s.reply.put w .busError }) ∧
  (∀ (w x : Who) (addr : Word) (s : State), isLo addr.toNat = true → (inOas addr.toNat = true → s.locked = false) →
    ∃ t, exec (.loRegisterRead w addr) s = .next t ∧ t.reply.at w = .data (BitVec.ofNat 32 (s.regShows w addr.toNat)) ∧ t = { s with latch := t.latch, reply := t.reply } ∧
      ∀ u : State, u.latch = t.latch → u.locked = s.locked → ∃ v, exec (.loRegisterRead x (addr + 4)) u = .next v ∧ v.reply.at x = .data (BitVec.ofNat 32 (s.regShows w (addr.toNat + 4))) ∧
        v = { u with latch := v.latch, reply := v.reply })

/-- The event recorder (R590, R592 to R595). An event packet of a class with bit 6 set is stored under the next log number with this unit's tag, and joins the diagnostic stream; one of the class and subject of the record before it within REPEAT_S is folded, and stores nothing; one of a deterministic class is refused and counted. At the end of the
window the repeats are stored as one 8-byte record. A read of EVR_REWIND answers EVR_FIRST and sets the reader's own cursor there; a read of EVR_WIN answers the word at the cursor and moves on, and the idle item past the last record. -/
def Obligations.EventsAreLoggedFoldedAndRead : Prop :=
  (∀ (s s1 : State) (cut : Bool) (ty : Nat) (ws : List Word) (b : Bytes), s.bitOf rEvrCtl 0 = true → s.ringTake 14 = (.packet cut ty ws, s1) → bit 6 ty = true → s.evr.fold = none →
    b = fit (fld 1 1 (ofWs ws) - 8) (ofWs ws) → b.length + 8 ≤ s.evr.capBytes → s.evr.used + b.length + 8 ≤ s.evr.capBytes → (s1.ring 14).waiting = [] →
    ∃ t, exec .eventRecord s = .next t ∧ t.evr.log = s.evr.log ++ [{ no := s.evr.next, bytes := b ++ s.tag b }] ∧ t.evr.next = s.evr.next + 1 ∧ t.evr.lost = min 4294967295 s.evr.lost ∧
      t.net.diag = s.net.diag ++ [{ esn := s.net.esn, rtype := 8, bytes := b ++ s.tag b }] ∧ t.regs = s.regs ∧ t = { s1 with evr := t.evr, net := t.net }) ∧
  (∀ (s s1 : State) (cut : Bool) (ty : Nat) (ws : List Word) (f : Fold), s.bitOf rEvrCtl 0 = true → s.ringTake 14 = (.packet cut ty ws, s1) → bit 6 ty = true → s.evr.fold = some f → f.cls = ty →
    fld 12 4 (ofWs ws) % 2 ^ 18 = f.subj → s.t ≤ f.start + s.evr.repeatS * 268435456 → 4 ≤ ws.length → 24 ≤ fld 1 1 (ofWs ws) → (s1.ring 14).waiting = [] →
    exec .eventRecord s = .next { s1 with evr := { s1.evr with fold := some { f with last := s.t, count := f.count + 1 } } }) ∧
  (∀ (s s1 : State) (cut : Bool) (ty : Nat) (ws : List Word), s.bitOf rEvrCtl 0 = true → s.ringTake 14 = (.packet cut ty ws, s1) → bit 6 ty = false → (s1.ring 14).waiting = [] →
    exec .eventRecord s = .next (s1.count rEvrBadcnt 1)) ∧
  (∀ (s s1 : State) (f : Fold), s.evr.fold = some f → 0 < f.count → s1 = s.until (f.start + s.evr.repeatS * 268435456) → s.evr.used + 8 ≤ s.evr.capBytes →
    ∃ t r, exec .repeatWindowEnd s = .next t ∧ t.evr.fold = none ∧ t.evr.log = s.evr.log ++ [{ no := s.evr.next, bytes := r }] ∧ r.length = 8 ∧ r.take 3 = le 1 8 ++ le 1 8 ++ le 1 f.cls ∧
      fld 4 3 r = f.count % 2 ^ 24 ∧ fld 7 1 r = min 255 ((f.last - f.start) / 268435456) ∧ t = { s1 with evr := t.evr, net := t.net }) ∧
  (∀ (s s1 : State) (f : Fold), s.evr.fold = some f → f.count = 0 → s1 = s.until (f.start + s.evr.repeatS * 268435456) →
    exec .repeatWindowEnd s = .next { s1 with evr := { s1.evr with fold := none } }) ∧
  (∀ (w v : Who) (s : State), v ≠ w →
    (∃ t, exec (.evrRewind w) s = .next t ∧ t.reply.at w = .data (BitVec.ofNat 32 s.evr.first) ∧ t.evr.cur.at w = { no := s.evr.first, word := 0 } ∧ t.evr.cur.at v = s.evr.cur.at v ∧
      t = { s with reply := t.reply, evr := { s.evr with cur := t.evr.cur } }) ∧
    (∀ r : LogRec, s.evr.recAt (s.cursor w) = some r →
      ∃ t, exec (.evrWin w) s = .next t ∧ t.reply.at w = .data (BitVec.ofNat 32 (fld (4 * (s.cursor w).word) 4 r.bytes)) ∧
        t.evr.cur.at w = (if 4 * ((s.cursor w).word + 1) < r.bytes.length then { no := (s.cursor w).no, word := (s.cursor w).word + 1 } else { no := (s.cursor w).no + 1, word := 0 }) ∧
        t.evr.cur.at v = s.evr.cur.at v ∧ t = { s with reply := t.reply, evr := { s.evr with cur := t.evr.cur } }) ∧
    (s.evr.recAt (s.cursor w) = none → ∃ t, exec (.evrWin w) s = .next t ∧ t.reply.at w = .data 0xF0000000#32 ∧ t = { s with reply := t.reply, evr := { s.evr with cur := t.evr.cur } }))

/-- The journal's way to the media (R63, R103, R448, R565, R568, R570, R576, R598). With the media disabled an entry read from Q12 is discarded; enabled, an entry that fits is packed behind the unit being filled, which stands in its buffer of working RAM and which FLUSH_MS closes with fill; a packet of another TYPE is counted and discarded. The oldest waiting journal
unit that verifies raises the durable watermark to the last JSN it ends and never lowers it; a unit with more than REFRESH_T corrected bits verifies nothing; a unit of another region holds what of its region no unit held yet, and one of RECORDS makes its outbox records durable. Every media command first drops the units whose content is gone. -/
def Obligations.JournalUnitsBecomeDurable : Prop :=
  (∀ (s s1 : State) (cut : Bool) (ty : Nat) (ws : List Word), s.ringTake 12 = (.packet cut ty ws, s1) → (s1.ring 12).waiting = [] →
    (s.med.run = false → exec .mediaJournalWrite s = .next s1) ∧
    (s.med.run = true → s.readsQ12 = true → ty ≠ 1 →
      exec .mediaJournalWrite s = .next { s1 with med := { s1.med with nand := { s1.med.nand with badReq := satAdd 4294967295 s.med.nand.badReq 1 } } }) ∧
    (∀ u : StUnit, s.med.run = true → s.readsQ12 = true → ty = 1 → s.med.fgOn = false → s.seq.khamsin = false → s.med.fill = some u → u.data.length + (ofWs ws).length < 4092 →
      ∃ f t, exec .mediaJournalWrite s = .next t ∧ t.wram = (State.stageStore { s1 with med := t.med }).wram ∧
        t = { s1 with wram := t.wram, med := { s1.med with fill := some { u with first := some f, data := u.data ++ ofWs ws, ends := fld 4 8 (ofWs ws), last := fld 4 8 (ofWs ws), stamp := fld 12 8 (ofWs ws) },
                                                           journaled := fld 4 8 (ofWs ws), idleSince := s1.t } } ∧
        (u.first = none → f = 4 + u.data.length) ∧ (∀ g, u.first = some g → f = g))) ∧
  (∀ s : State, s.med.run = true → s.readsQ12 = false → exec .mediaJournalWrite s = .next s) ∧
  (∀ (s s1 : State) (u : StUnit), s.med.fill = some u → s.med.run = true → s1 = s.until (u.since + s.med.flushMs * 268435456 / 1000) →
    exec .journalFlushTimer s = .next { s1 with med := { s1.med with fill := none, wait := s1.med.wait ++ [{ u with part := true }] } }) ∧
  (∀ s s0 : State, s0 = s.dropDead → (∀ u ∈ s0.med.nand.units, u ∈ s.med.nand.units ∧ (u.holds = [] ∨ ∃ x ∈ u.holds, s.heldAlive u.region x = true)) ∧
    (∀ u ∈ s.med.nand.units, u.holds = [] ∨ (∃ x ∈ u.holds, s.heldAlive u.region x = true) → u ∈ s0.med.nand.units) ∧
    (∀ x ∈ s0.med.nand.sbs, x ∈ s.med.nand.sbs ∨ x.st = .erasing ∧ ∃ y ∈ s.med.nand.sbs, y.id = x.id ∧ y.st = .closed) ∧
    s0 = { s with med := { s.med with nand := { s.med.nand with units := s0.med.nand.units, sbs := s0.med.nand.sbs } } }) ∧
  (∀ (lua corr : Nat) (s s0 : State) (u : StUnit) (r : List StUnit), s.Inv → s0 = s.dropDead → s.med.run = true → corr ≤ s.med.refreshT → s.med.wait = u :: r → s.seq.khamsin = false →
    (∃ x ∈ s0.med.nand.sbs, x.st = .open_ ∧ x.region = 1 ∧ x.slc = s0.med.slcFor 1) →
    ∃ t, exec (.unitVerify 1 lua corr) s = .next t ∧ t.seq.durable = max s.seq.durable u.ends ∧ t.med.wait = r ∧ t.med.nand.jlua = s.med.nand.jlua + 1 ∧ t.regs = s.regs ∧ SameRings s t [14] ∧ SameRam s t [14] ∧
      (∀ m ∈ t.med.nand.units, m.region = 1 → m ∈ s0.med.nand.units ∨ m.lua = s.med.nand.jlua ∧ m.data = u.bytes ∧ m.ends = u.ends ∧ m.last = u.last ∧ m.wtemp = s.dieTemp) ∧
      t = { s with med := t.med, seq := { s.seq with durable := t.seq.durable, lastDur := t.seq.lastDur, stallFired := t.seq.stallFired }, rings := t.rings, wram := t.wram, reply := t.reply }) ∧
  (∀ (region : Fin 6) (lua corr : Nat) (s s0 : State), s0 = s.dropDead → s.med.run = true → s.med.refreshT < corr →
    exec (.unitVerify region lua corr) s = .next { s0 with med := { s0.med with nand := { s0.med.nand with corr := satAdd 4294967295 s.med.nand.corr corr } } }) ∧
  (∀ (region : Fin 6) (lua corr : Nat) (s s0 : State), s0 = s.dropDead → s.med.run = true → corr ≤ s.med.refreshT → region.val ≠ 1 →
    (∃ x ∈ s0.med.nand.sbs, x.st = .open_ ∧ x.region = region ∧ x.slc = s0.med.slcFor region) →
    ∃ t w, exec (.unitVerify region lua corr) s = .next t ∧ w ∈ t.med.nand.units ∧ w.region = region ∧ w.lua = lua ∧ w.holds = s0.nextHolds region ∧
      t.obox = s.obox.map (fun r => if region.val = 3 ∧ (s0.nextHolds 3).any (fun x => x.2 == r.rsn) then { r with durable := true } else r) ∧
      t = { s0 with med := { s0.med with nand := t.med.nand }, obox := t.obox })

/-- Reads, failures, collection and health (R570, R577 to R588). A unit that decodes counts its corrected bits and, of the journal, its entries are read back on Q13; one that no level decodes is rebuilt, or lost: it leaves the map and what it held reads as zeros. A failed program puts the least-worn free block in the failed block's place and retires that one; an erase
that ends gives the Khamsin reserve its superblock first and frees the blocks otherwise. Collection in the background or the foreground loses no unit and makes none. The patrol goes unit by unit, spread evenly over PATROL_D days; health is reported every HEALTH_H hours. -/
def Obligations.MediaReadsFailuresAndCollection : Prop :=
  (∀ (region : Fin 6) (lua tried corr levels : Nat) (rb : Bool) (s s0 : State) (u : MUnit), s.Inv → s0 = s.dropDead → s.med.run = true → s0.med.nand.unitAt region lua = some u → levels = (if s.med.retryFa = 0 then 1 else max 1 s.med.retryN) →
    (tried < levels → ∃ v w : State,
      v = { s0 with med := { s0.med with nand := { s0.med.nand with corr := satAdd 4294967295 s.med.nand.corr corr, retry := satAdd 4294967295 s.med.nand.retry (if tried = 0 then 0 else 1) },
                                         level := (s.med.startLevel u (secOf s.dev) + tried) % levels } } ∧
      w = (if s.med.retMode = 0 then v else v.refresh u corr) ∧ (region.val ≠ 1 → exec (.mediaRead region lua tried corr rb) s = .next w) ∧
      (region.val = 1 → exec (.mediaRead region lua tried corr rb) s = .next (State.readEntries { w with med := { w.med with idleSince := w.t } } u))) ∧
    (levels ≤ tried → rb = false →
      ∃ v w : State, exec (.mediaRead region lua tried corr rb) s = .next (v.event 0x53 u.region none (le 4 u.lua)) ∧ v.bitOf rMedIrq 3 = true ∧ SameRegs s v [rMedIrq] ∧ w = s0.loseContent u ∧
        (u.region = 3 → w.obox = s.obox.map fun r => if u.holds.contains (0, r.rsn) then { r with bytes := r.bytes.map fun _ => 0#8 } else r) ∧
        (u.region = 2 → ∀ k ∈ w.seq.ckpts, u.holds.contains (0, k.no) = false) ∧ (u.region < 2 → w = s0) ∧
        v = { w with regs := v.regs, med := { w.med with nand := { w.med.nand with units := s0.med.nand.units.erase u, loss := satAdd 4294967295 s.med.nand.loss 1 } } }) ∧
    (levels ≤ tried → region.val ≠ 1 → rb = true →
      ∃ v : State, exec (.mediaRead region lua tried corr rb) s = .next (v.event 0x52 u.region) ∧ v.bitOf rMedIrq 2 = true ∧ v.med.nand.rebuild = satAdd 4294967295 s.med.nand.rebuild 1 ∧
        (∃ m : MUnit, m ∈ v.med.nand.units ∧ m.region = u.region ∧ m.lua = u.lua ∧ m.data = u.data ∧ m.holds = u.holds))) ∧
  (∀ (sb lun b1 : Nat) (s : State) (x : Sb), s.Inv → (s.med.nand.sbs.find? fun x => x.id == sb) = some x → s.med.run = true → lun < s.med.nand.luns → s.med.nand.leastWorn lun = some b1 →
    ∃ t, exec (.programFail sb lun) s = .next t ∧ t.med.nand.pfail = satAdd 4294967295 s.med.nand.pfail 1 ∧ t.bitOf rMedIrq 1 = true ∧
      t.med.nand.sbs = s.med.nand.sbs.map (fun y => if y.id = sb then { y with blocks := y.blocks.set lun b1 } else y) ∧
      t.med.nand.blks = ((s.med.nand.setBlk b1 { s.med.nand.blk b1 with inUse := true }).retire lun (x.blocks.getD lun 0)).blks ∧ t.med.nand.units = s.med.nand.units ∧
      SameRegs s t [rMedIrq] ∧ t = { s with regs := t.regs, rings := t.rings, wram := t.wram, reply := t.reply, med := { s.med with nand := t.med.nand, readOnly := t.med.readOnly } }) ∧
  (∀ (sb lun : Nat) (s : State) (x : Sb), s.Inv → (s.med.nand.sbs.find? fun x => x.id == sb) = some x → s.med.run = true → lun < s.med.nand.luns → x.st = .erasing →
    ∃ t, exec (.eraseFail sb lun) s = .next t ∧ t.med.nand.efail = satAdd 4294967295 s.med.nand.efail 1 ∧ t.bitOf rMedIrq 1 = true ∧ t.med.nand.units = s.med.nand.units ∧
      t.med.nand.spares = s.med.nand.spares.set lun (s.med.nand.spares.getD lun 0 - 1) ∧
      SameRegs s t [rMedIrq] ∧ t = { s with regs := t.regs, rings := t.rings, wram := t.wram, reply := t.reply, med := { s.med with nand := t.med.nand, readOnly := t.med.readOnly } }) ∧
  (∀ (sb : Nat) (s s0 : State) (x : Sb), s0 = s.dropDead → (s0.med.nand.sbs.find? fun x => x.id == sb) = some x → x.st = .erasing →
    ∃ t, exec (.eraseComplete sb) s = .next t ∧ t.med.nand.units = s0.med.nand.units ∧ t = { s0 with med := { s0.med with nand := t.med.nand, fgOn := t.med.fgOn } } ∧
      ((s0.med.nand.sbs.filter fun y => y.st == .reserve).length < 2 →
        t.med.nand.sbs = s0.med.nand.sbs.map (fun y => if y.id = sb then { y with st := .reserve, used := 0, slc := s.med.slcPrefix ≠ 0, region := 1 } else y)) ∧
      (2 ≤ (s0.med.nand.sbs.filter fun y => y.st == .reserve).length → t.med.nand.sbs = s0.med.nand.sbs.filter fun y => y.id ≠ sb)) ∧
  (∀ (s s0 : State) (c : Instr), s0 = s.dropDead →
    (c = .bgCollection ∧ s.med.run = true ∧ s.seq.khamsin = false ∧ s.med.readOnly = false ∧ (s.ring 12).cnt = 0 ∧ (s.ring 13).cnt = 0 ∧ s0.med.nand.free * 1000 < s0.med.nand.total * s.med.bgFree) ∨
    (c = .fgCollection ∧ s.med.run = true ∧ s.seq.khamsin = false ∧ s.med.readOnly = false ∧ s0.med.nand.free ≤ s.med.fgFree) → (∃ v ∈ s0.med.nand.sbs, v.st = .closed) →
    ∃ t, exec c s = .next t ∧ (c = .bgCollection → t.med.bgOn = true) ∧ (c = .fgCollection → t.med.fgOn = true) ∧
      (∀ r l, (∃ u ∈ t.med.nand.units, u.region = r ∧ u.lua = l) ↔ ∃ u ∈ s0.med.nand.units, u.region = r ∧ u.lua = l) ∧ t.seq = s.seq ∧ t.ctx = s.ctx ∧ t.obox = s.obox) ∧
  (∀ (corr : Nat) (s s0 s1 : State) (u : MUnit), s0 = s.dropDead → s.med.run = true → s.seq.khamsin = false → s.med.retMode = 0 ∨ s.med.retMode = 2 →
    s0.med.nand.units[s.med.nand.patrolAt % max 1 s0.med.nand.units.length]? = some u → corr ≤ s.med.refreshT - 16 →
    s1 = s0.until (s.med.patrolT + s.med.patrolD * 86400 * 268435456 / max 1 s0.med.nand.units.length) →
    exec (.patrolRead corr) s = .next { s1 with med := { s1.med with patrol := true, patrolT := s1.t, nand := { s1.med.nand with corr := satAdd 4294967295 s.med.nand.corr corr, patrolAt := s.med.nand.patrolAt + 1 } } }) ∧
  (∀ s s1 : State, s.med.run = true → s1 = s.until s.med.healthAt →
    exec .mediaHealth s = .next (({ s1 with med := { s1.med with healthAt := s1.t + s.med.healthH * 3600 * 268435456 } } : State).event 0x50 0 none s.med.healthData))

/-- The ports and the device port (R439 to R441, R443, R465, R466, R469, R553). A frame on a port that is in use is learned from; it goes to the port its address was learned on, and, with a group or an unknown address, to every other port in use and the device port; one longer than 1,522 bytes is dropped and counted. A port whose link changes sets
NET_IRQ.LINK. A learned address goes after 300 s. PAUSE frames go out while Q12 stalls and Q5 is full enough, counted, and a quanta of 0 ends them; a received PAUSE pauses the port for its quanta of 512 bit times, and what waited goes out when it ends. A frame the device port does not accept is discarded; an ARP request for the unit's IPv4 address is answered with its MAC
address; a whole UDP datagram to the unit's port, in a valid IPv4 packet, becomes a NET_PKT packet of Q5 with the frame's stamp; an IPv4 packet with IPv4 off is dropped and counted. A write of GO, open to device code and the maintenance port, starts a clause 22 frame, which clears GO when it ends and returns what was read. The outcome of
duplicate address detection puts a tentative address in use or sets NET_IRQ.DAD_FAIL. -/
def Obligations.BridgeAndPausePorts : Prop :=
  (∀ (dt : Nat) (port : Fin 2) (ok : Bool) (frame : Bytes) (s s1 : State), s1 = s.advance dt →
    (s1.portUp port = false → exec (.bridgeFrame dt port ok frame) s = .next s1) ∧
    (s1.portUp port = true → 1518 < frame.length → exec (.bridgeFrame dt port ok frame) s = .next (s1.count rNetBrdrop 1)) ∧
    (∀ (T : List BridgeEnt) (e : BridgeEnt), s1.portUp port = true → frame.length ≤ 1518 → ok = true → isGroup (ethSrc frame) = false → isGroup (ethDst frame) = false →
      T = (s1.bridgeLive.filter fun e => e.mac ≠ ethSrc frame) ++ [{ mac := ethSrc frame, port := port, at_ := s1.t }] → T.length ≤ 1024 → T.find? (fun e => e.mac == ethDst frame) = some e → e.port = 2 →
      exec (.bridgeFrame dt port ok frame) s = .next { s1 with net := { s1.net with table := T, devIn := s1.net.devIn ++ [(s1.dev, frame)] } }) ∧
    (∀ p : NetPort, s1.portUp port = true → frame.length ≤ 1518 → s1.portUp (1 - port) = true → s1.net.ports[1 - port.val]? = some p → p.pausedUntil ≤ s1.t → p.busyTo ≤ s1.t → s.bitOf rTimCtl 2 = false →
      ∃ t, (isGroup (ethDst frame) = true ∨ ethSrc frame ≠ ethDst frame ∧ (∀ e ∈ s.net.table, e.mac ≠ ethDst frame) → exec (.bridgeFrame dt port ok frame) s = .next t ∧
          t.net.devIn = s.net.devIn ++ (if ok then [(s1.dev, frame)] else [])) ∧
        (∀ e, isGroup (ethDst frame) = false → ethSrc frame ≠ ethDst frame → ethDst frame ≠ s.mac → s1.bridgeLive.find? (fun e => e.mac == ethDst frame) = some e → e.port = 1 - port.val →
          exec (.bridgeFrame dt port ok frame) s = .next { t with net := { t.net with devIn := s.net.devIn } }) ∧
        t.emitted = s.emitted ++ [.eth (1 - port) ok frame] ∧ t = { s1 with net := { s1.net with table := t.net.table, ports := t.net.ports, devIn := t.net.devIn }, emitted := t.emitted })) ∧
  (∀ (dt : Nat) (port : Fin 2) (up slow : Bool) (s s1 : State) (p : NetPort) (now : Bool), s.Inv → s1 = s.advance dt → s.net.ports[port.val]? = some p → now = (up && s.pow.locks.getD 1 false) →
    ∃ t, exec (.portLinkChange dt port up slow) s = .next t ∧
      t.net.ports = s.net.ports.set port { p with up := now, slow := slow, held := if now then p.held else [], pausedUntil := if now then p.pausedUntil else 0 } ∧
      (p.up ≠ now → t.bitOf rNetIrq 0 = true ∧ SameRegs s t [rNetIrq]) ∧ (p.up = now → t.regs = s.regs) ∧ t = { s1 with regs := t.regs, net := { s1.net with ports := t.net.ports } }) ∧
  (∀ (s s1 : State) (e : BridgeEnt) (r : List BridgeEnt), s.net.table = e :: r → (∀ x ∈ r, e.at_ ≤ x.at_) → s1 = s.until (e.at_ + 300 * second) →
    exec .bridgeAgeing s = .next { s1 with net := { s1.net with table := r } }) ∧
  (∀ s : State, s.Inv → s.bitOf rNetCtl 6 = true → s.q12Stalled = true →
    (s.net.pausing = false → (s.ring 5).en = true → s.fld rNetPause 7 0 * (s.ring 5).size ≤ ((s.ring 5).w - (s.ring 5).r) * 100 →
      ∃ t, exec .pauseSend s = .next t ∧ t.emitted = s.emitted ++ ((List.range 2).filter s.portUp).map (fun n => Emission.eth n true (s.pauseFrame 0xFFFF)) ∧ t.bitOf rNetIrq 3 = true ∧
        t.reg rNetPausecnt = min 4294967295 (s.reg rNetPausecnt + ((List.range 2).filter s.portUp).length) ∧ SameRegs s t [rNetIrq, rNetPausecnt] ∧
        t = { s with regs := t.regs, emitted := t.emitted, net := { s.net with pausing := true, lastPause := s.t } }) ∧
    (∀ s1 : State, s.net.pausing = true → s.fld rNetPause 15 8 * (s.ring 5).size < ((s.ring 5).w - (s.ring 5).r) * 100 → s1 = s.until (s.net.lastPause + 16 * 268435456 / 1000) →
      ∃ t, exec .pauseSend s = .next t ∧ t.emitted = s.emitted ++ ((List.range 2).filter s.portUp).map (fun n => Emission.eth n true (s.pauseFrame 0xFFFF)) ∧
        t.reg rNetPausecnt = min 4294967295 (s.reg rNetPausecnt + ((List.range 2).filter s.portUp).length) ∧ SameRegs s t [rNetPausecnt] ∧
        t = { s1 with regs := t.regs, emitted := t.emitted, net := { s1.net with pausing := true, lastPause := s1.t } })) ∧
  (∀ s : State, s.bitOf rNetCtl 6 = false ∨ s.q12Stalled = false ∨ (s.net.pausing = true ∧ ((s.ring 5).w - (s.ring 5).r) * 100 ≤ s.fld rNetPause 15 8 * (s.ring 5).size) →
    (s.net.pausing = false → exec .pauseSend s = .next s) ∧
    (s.net.pausing = true → ∃ t, exec .pauseSend s = .next t ∧ t.emitted = s.emitted ++ ((List.range 2).filter s.portUp).map (fun n => Emission.eth n true (s.pauseFrame 0)) ∧
      t = { s with regs := t.regs, emitted := t.emitted, net := { s.net with pausing := false } })) ∧
  (∀ (dt : Nat) (port : Fin 2) (quanta : Fin 65536) (s s1 : State) (p : NetPort), s1 = s.advance dt → s.net.ports[port.val]? = some p →
    (s.bitOf rNetCtl 7 = false ∨ s.portUp port = false → exec (.pauseReceive dt port quanta) s = .next s1) ∧
    (s.bitOf rNetCtl 7 = true → s.portUp port = true → quanta.val = 0 → exec (.pauseReceive dt port quanta) s = .next (s1.resume port)) ∧
    (s.bitOf rNetCtl 7 = true → s.portUp port = true → quanta.val ≠ 0 →
      exec (.pauseReceive dt port quanta) s = .next { s1 with net := { s1.net with ports := s1.net.ports.set port { p with pausedUntil := s1.t + quanta.val * 512 * 268435456 / (if p.slow then 100000000 else 1000000000) } } })) ∧
  (∀ (port : Fin 2) (s s1 : State) (p : NetPort) (f : EthFrame), s.net.ports[port.val]? = some p → s.t < p.pausedUntil → s1 = s.until p.pausedUntil → s.netTx = false →
    (p.held = [] → exec (.pauseExpiry port) s = .next { s1 with net := { s1.net with ports := s1.net.ports.set port { p with pausedUntil := 0 } } }) ∧
    (p.held = [f] → p.busyTo ≤ s1.t →
      ∃ t, exec (.pauseExpiry port) s = .next t ∧ t.emitted = s.emitted ++ [.eth port f.ok f.bytes] ∧
        t = { s1 with emitted := t.emitted, net := { s1.net with ports := t.net.ports } } ∧ ∃ q : NetPort, t.net.ports[port.val]? = some q ∧ q.held = [] ∧ q.pausedUntil = 0)) ∧
  (∀ (s s1 : State) (stamp : Nat) (b : Bytes) (r : List (Nat × Bytes)), s.net.devIn = (stamp, b) :: r → s1 = { s with net := { s.net with devIn := r } } →
    (s.acceptsMac (ethDst b) = false → exec .devicePortReceive s = .next s1) ∧
    (s.acceptsMac (ethDst b) = true → ethType b = 0x0806 → s.bitOf rNetCtl 5 = true → fldB 20 2 b = 1 → sub 38 4 b = s.ip4 →
      exec .devicePortReceive s = .next (s1.devSend (be 6 (ethSrc b) ++ be 6 s.mac ++ be 2 0x0806 ++
        (be 2 1 ++ be 2 0x0800 ++ be 1 6 ++ be 1 4 ++ be 2 2 ++ be 6 s.mac ++ s.ip4 ++ be 6 (fldB 22 6 b) ++ sub 28 4 b)))) ∧
    (∀ p body : Bytes, s.acceptsMac (ethDst b) = true → ethType b = 0x0800 → s.bitOf rNetCtl 5 = true → p = b.drop 14 → fldB 0 1 p = 0x45 → fldB 6 2 p = 0x4000 → fldB 9 1 p = 17 → fold16 (sum16 (p.take 20)) = 65535 →
      sub 16 4 p = s.ip4 → body = (p.take (fldB 2 2 p)).drop 20 → fldB 6 2 body = 0 → fldB 2 2 body = s.fld rNetUdp 15 0 → s.cfg.role ≠ .head →
      exec .devicePortReceive s = .next (s1.offer 5 { kind := .netPkt, stamp := stamp, payload := (body.take (fldB 4 2 body)).drop 8 })) ∧
    (s.acceptsMac (ethDst b) = true → ethType b = 0x0800 → s.bitOf rNetCtl 5 = false → exec .devicePortReceive s = .next (s1.count rNetRxdrop 1))) ∧
  (∀ s : State, s.net.devIn = [] → exec .devicePortReceive s = .next s) ∧
  (∀ (v : Word) (s : State), exec (.mdioGo .seif v) s = .next { s with reply := { s.reply with seif := .busError } }) ∧
  (∀ (w : Who) (v : Word) (s : State), s.Inv → w ≠ .seif → s.net.mdio = none →
    ∃ t, exec (.mdioGo w v) s = .next t ∧ t.reg rNetMdio = bits 26 0 v.toNat + 2147483648 ∧ SameRegs s t [rNetMdio] ∧
      t = { s with regs := t.regs, reply := s.reply.put w .done, net := { s.net with mdio := some { write := bit 26 v.toNat, phyad := bits 25 21 v.toNat, regad := bits 20 16 v.toNat, data := bits 15 0 v.toNat, start := s.t } } }) ∧
  (∀ (dt : Nat) (data : Fin 65536) (s s1 : State) (m : Mdio), s.Inv → s1 = s.advance dt → s.net.mdio = some m →
    ∃ t, exec (.mdioFrameDone dt data) s = .next t ∧ t.bitOf rNetMdio 31 = false ∧ (m.write = false → t.fld rNetMdio 15 0 = data) ∧ (m.write = true → t.fld rNetMdio 15 0 = s.fld rNetMdio 15 0) ∧
      t.fld rNetMdio 30 16 = s.fld rNetMdio 30 16 ∧ SameRegs s t [rNetMdio] ∧ t = { s1 with regs := t.regs, net := { s1.net with mdio := none } }) ∧
  (∀ s : State, s.Inv → s.net.dad = .tentative →
    exec (.duplicateAddressDetection true) s = .next { s with net := { s.net with dad := .inUse } } ∧
    ∃ t, exec (.duplicateAddressDetection false) s = .next t ∧ t.bitOf rNetIrq 4 = true ∧ SameRegs s t [rNetIrq] ∧ t = { s with regs := t.regs, net := { s.net with dad := .failed } }) ∧
  (∀ (ok : Bool) (s : State), s.net.dad ≠ .tentative → exec (.duplicateAddressDetection ok) s = .next s)

/-- Reception and acknowledgement on the radio (R166, R327, R332, R334, R343 to R347, R352, R368). A channel that is off hears nothing, nor is a frame received that began while the receivers were blind; one that a transmission cuts counts in RAD_RXABORT, one of a bad length in RAD_BADFRM and one with a bad FCS in RAD_FCSERR. Outside an exchange, the holder opens a DATA frame
that passes the checks on Q1 as RAD_FRAME with its verdict: ACCEPTED when its sequence is new in the slot's window, which then holds it, DUPLICATE when not, UNKNOWN without a slot, BUSY on a faulted slot or when Q1 has no room; no other slot changes, and an ACK with that verdict waits 400 µs when asked for. The ACK leaves at its instant with its PHR and FCS, or is not sent and
counted in RAD_ACKMISS while the transmitter is busy or the budget empty, or not sent without the token. A seen-cache entry goes 60 s after its insertion. -/
def Obligations.RadioReceivesAndAcknowledges : Prop :=
  (∀ (dt : Nat) (chan : Fin 8) (rssi : Int) (sw f4 dw : Bool) (psdu : Bytes) (s s1 : State) (start : Nat), s1 = s.advance dt →
    start = s1.t - 8 * (8 + psdu.length) * 268435456 / modeRate (s.fld (rRadRxch chan) 14 12) →
    (s.bitOf rRadCtl 0 = false ∨ s.bitOf (rRadRxch chan) 15 = false ∨ s1.blind start (start + 1) = true → exec (.radioFrameReceive dt chan rssi sw f4 dw psdu) s = .next s1) ∧
    (s.bitOf rRadCtl 0 = true → s.bitOf (rRadRxch chan) 15 = true → s1.blind start (start + 1) = false → (∀ c, s.rad.cutAt = some c → c < start) →
      (s1.blind start s1.t = true → exec (.radioFrameReceive dt chan rssi sw f4 dw psdu) s = .next (s1.count rRadRxabort 1)) ∧
      (s1.blind start s1.t = false → sw = true ∨ psdu.length < 11 ∨ 511 < psdu.length → exec (.radioFrameReceive dt chan rssi sw f4 dw psdu) s = .next (s1.count rRadBadfrm 1)) ∧
      (s1.blind start s1.t = false → sw = false → 11 ≤ psdu.length → psdu.length ≤ 511 → psduFrame f4 dw psdu = none → exec (.radioFrameReceive dt chan rssi sw f4 dw psdu) s = .next (s1.count rRadFcserr 1)) ∧
      (∀ (bytes : Bytes) (f : Frame) (v : Nat) (c : EClass) (sl : Option Nat), s1.blind start s1.t = false → sw = false → 11 ≤ psdu.length → psdu.length ≤ 511 → psduFrame f4 dw psdu = some bytes → f = radioFrame bytes →
        radioFrameOk f = true → f.ftype = 2 → s.seq.holder = true → s.rad.xch = none → s.arb.flips = [] →
        (s1.serves 1 = false ∧ v = 2 ∧ c = .busy ∧ sl = none) ∨
        (s1.serves 1 = true ∧ (f.src = 0 ∨ 131072 < f.src) ∧ v = 3 ∧ c = .orphan ∧ sl = none) ∨
        (s1.serves 1 = true ∧ 0 < f.src ∧ f.src ≤ 131072 ∧ (s.slot (f.src - 1)).fault = true ∧ v = 2 ∧ c = .busy ∧ sl = some (f.src - 1)) ∨
        (s1.serves 1 = true ∧ 0 < f.src ∧ f.src ≤ 131072 ∧ (s.slot (f.src - 1)).fault = false ∧ ((s.slot (f.src - 1)).state = .free ∨ (s.slot (f.src - 1)).state = .decom) ∧ v = 3 ∧ c = .orphan ∧ sl = some (f.src - 1)) ∨
        (s1.serves 1 = true ∧ 0 < f.src ∧ f.src ≤ 131072 ∧ (s.slot (f.src - 1)).state ≠ .free ∧ (s.slot (f.src - 1)).state ≠ .decom ∧ (s.slot (f.src - 1)).fault = false ∧ sl = some (f.src - 1) ∧
          ((dupCheck (s.slot (f.src - 1)) f.seq).1 = true ∧ v = 0 ∧ c = .normal ∨ (dupCheck (s.slot (f.src - 1)) f.seq).1 = false ∧ v = 1 ∧ c = .dup)) →
        ∃ t desc, exec (.radioFrameReceive dt chan rssi sw f4 dw psdu) s = .next t ∧
          t.rings = (s1.offer 1 { kind := .radFrame, stamp := s1.dev, cls := c, src := { slot := sl.getD 0, slotV := sl.isSome, chan := chan }, payload := le 4 desc ++ bytes }).rings ∧
          t.wram = (s1.offer 1 { kind := .radFrame, stamp := s1.dev, cls := c, src := { slot := sl.getD 0, slotV := sl.isSome, chan := chan }, payload := le 4 desc ++ bytes }).wram ∧
          bits 26 24 desc = v ∧ t.ctx = (if v = 0 then (s1.setSlot (f.src - 1) (dupCheck (s.slot (f.src - 1)) f.seq).2).ctx else s1.ctx) ∧
          (f.ackreq = false → t.rad = s1.rad) ∧
          (f.ackreq = true → ∃ a : PendAck, t.rad = { s1.rad with acks := s1.rad.acks ++ [a] } ∧ a.due = s1.t + usU 400 ∧ a.verd = v ∧ a.slot = sl ∧ a.dst = f.src ∧ a.seq = f.seq.toNat ∧ a.chan = chan) ∧
          SameRegs s t [rArbDupcnt, rArbOrphcnt, rArbBusycnt, rArbMaskcnt, rArbLatmax, rArbIrq, rQfIrq] ∧ t.seq = s.seq ∧ t.emitted = s.emitted ∧ t.t = s1.t))) ∧
  (∀ (s s1 : State) (a : PendAck) (dpend : Bool) (air ch : Nat) (frame : Bytes), s.Inv → s.rad.acks = [a] → s.rad.xch = none → s1 = s.until a.due → ch = s.fld (rRadRxch a.chan) 11 0 + a.mode * 4096 →
    dpend = (match a.slot with | some i => s.downWaits i | none => false) →
    frame = le 2 (3 + 256 + flag 7 dpend) ++ le 3 a.dst ++ le 3 0 ++ le 4 a.seq ++ le 1 (a.verd + flag 3 a.cont) ++ (match a.join with | some (e, sh) => le 3 sh ++ be 8 e | none => []) →
    air = s.ackAir a.mode frame.length →
    (s.radTx = false → exec .radioAckSend s = .next { s1 with rad := { s1.rad with acks := [] } }) ∧
    (s.radTx = true → s1.txBusy (s1.t - s1.paLead) (s1.t + air) = true ∨ s1.ackPays (s1.txCost air) = false →
      ∃ t, exec .radioAckSend s = .next t ∧ t.reg rRadAckmiss = min 4294967295 (s.reg rRadAckmiss + 1) ∧ t.bitOf rRadIrq 1 = true ∧ SameRegs s t [rRadAckmiss, rRadIrq] ∧
        t = { s1 with regs := t.regs, rad := { s1.rad with acks := [] } }) ∧
    (s.radTx = true → s1.txBusy (s1.t - s1.paLead) (s1.t + air) = false → s1.ackPays (s1.txCost air) = true →
      ∃ t, exec .radioAckSend s = .next t ∧ t.emitted = s.emitted ++ [.radio (s1.airFrame ch air (s.fld rRadPhy 12 8) (s1.ackBall s1.t) frame)] ∧ SameRegs s t [rRadIrq] ∧
        (∃ l, t.rad.txs = l ++ [{ from_ := s1.t, air := air }] ∧ ∀ x ∈ l, x ∈ s.rad.txs) ∧ (a.join = none ∨ a.verd ≠ 0 → t.rad.polls = s.rad.polls) ∧
        (∀ i, a.join ≠ none → a.verd = 0 → a.slot = some i → t.rad.polls = (s1.setPoll i { s.poll i with joinAt := some (s1.t + 268435456, ch) }).rad.polls) ∧
        t = { s1 with regs := t.regs, emitted := t.emitted, rad := { s1.rad with acks := [], polls := t.rad.polls, budget := s1.budgetAt s1.t - s1.txCost air, budgetAt := s1.t, txs := t.rad.txs } })) ∧
  (∀ (s : State) (ch air pre at_ : Nat) (frame : Bytes) (x : AirFrame), x = s.airFrame ch air pre at_ frame → x.chan = ch % 4096 ∧ x.mode = ch / 4096 ∧ x.hz = s.reg rRadBase + ch % 4096 * s.fld rRadSpacing 18 0 ∧
    x.pre = pre ∧ x.phr.modeSwitch = false ∧ x.phr.len = frame.length + (if s.bitOf rRadPhy 13 then 4 else 2) ∧ x.stop = at_ + air ∧ psduFrame x.phr.fcs4 x.phr.dw x.psdu = some frame) ∧
  (∀ s : State, s.rad.acks = [] → exec .radioAckSend s = .next s) ∧
  (∀ (s s1 : State) (x : Seen) (r : List Seen), s.rad.seen = x :: r → s1 = s.until (x.at_ + 60 * 268435456) →
    exec (.caravanCacheExpiry false) s = .next { s1 with rad := { s1.rad with seen := r.filter fun y => decide (s1.t < y.at_ + 60 * 268435456) } }) ∧
  (∀ (s s1 : State) (x : Seen) (r : List Seen), s.plc.seen = x :: r → s1 = s.until (x.at_ + 60 * 268435456) →
    exec (.caravanCacheExpiry true) s = .next { s1 with plc := { s1.plc with seen := r.filter fun y => decide (s1.t < y.at_ + 60 * 268435456) } })

/-- Polling (R348, R349, R355, R357, R361 to R363, R371 to R373). A planned poll's train starts at its instant, or is deferred by one wake and counted while another exchange runs; a slot that misses too long gets a recovery full train, counted; the train ends with the POLL, which expects its answer 3 ms after its end. An unanswered poll counts a miss, ends the exchange and offers the notice NO_ANSWER or FULL_FAIL on Q1,
and plans the next wake; an exchange whose CONT is not used ends completed, and the next poll is planned from its PT. -/
def Obligations.PollsRunTheirExchange : Prop :=
  (∀ (i : Fin 131072) (s : State), s.radTx = false ∨ s.pollable i = false ∨ s.planPoll i = none → exec (.wakeTrainStart i) s = .next s) ∧
  (∀ (i : Fin 131072) (s s1 : State) (p : Plan) (rc : RadClass), s.radTx = true → s.pollable i = true → s.wantsFull i = false → (s.poll i).joinAt = none → s.planPoll i = some p →
    s1 = s.untilDev ((p.tp - p.g) * 32768) → rc = s.radClass (s.slot i).cls →
    (s.rad.xch.isSome = true →
      exec (.wakeTrainStart i) s = .next ((s1.count rRadDefercnt 1).setPoll i { s.poll i with next := some (p.w + (s.slot i).wakeS * 8192) })) ∧
    (∀ (per air n end_ : Nat), s.rad.xch = none → s1.planTrain rc p = (per, air, n) → end_ = s1.t + trainEnd rc false per air n → s1.txBusy (s1.t - s1.paLead) end_ = false →
      s1.overlapped i p s1.dev (s1.dev + (end_ - s1.t)) = false → s1.txPays (n * s1.txCost air + s1.exchangeCost i rc.form) = true →
      ∃ t x, exec (.wakeTrainStart i) s = .next t ∧ t.rad.xch = some x ∧ x.slot = i ∧ x.full = false ∧ x.wake = p.w ∧ x.step = .train ∧ x.due = end_ ∧ x.from_ = s1.t ∧ x.period = per ∧ x.air = air ∧ x.count = n ∧ x.maxF = max 1 rc.maxF ∧
        t.emitted = s.emitted ++ [if rc.form then .train (rc.txCh + rc.txMode * 4096) i s1.t per n end_ else .preamble (rc.txCh + rc.txMode * 4096) s1.t end_] ∧
        t.rad.budget = s1.budgetAt s1.t - n * s1.txCost air ∧ SameRegs s t [rRadIrq] ∧
        t = { s1 with regs := t.regs, emitted := t.emitted, rad := { s1.rad with xch := some x, budget := t.rad.budget, budgetAt := s1.t } })) ∧
  (∀ (s : State) (i air per n : Nat) (rc : RadClass), s.Inv → (s.ctx.slots.map (·.1)).filter s.wantsFull = [i] → s.radTx = true → s.rad.xch = none → rc = s.radClass (s.slot i).cls → air = s.frameAir rc.txMode 12 →
    per = msU rc.listenFt - air - s.ackAir rc.txMode 13 → 0 < per → n = trainFrames ((s.slot i).wakeS * second * 11 / 10) air per →
    s.txBusy (s.t - s.paLead) (s.t + air) = false → s.txPays (s.txCost air) = true →
    ∃ t x, exec .fullTrainStart s = .next t ∧ t.rad.xch = some x ∧ x.slot = i ∧ x.full = true ∧ x.step = .train ∧ x.from_ = s.t ∧ x.period = per ∧ x.count ≤ n ∧ (x.aborted = false → x.count = n) ∧
      t.reg rRadFtcnt = min 4294967295 (s.reg rRadFtcnt + 1) ∧ t.bitOf rRadIrq 2 = true ∧ SameRegs s t [rRadFtcnt, rRadIrq] ∧ t = { s with regs := t.regs, rad := { s.rad with xch := some x } }) ∧
  (∀ s : State, (s.ctx.slots.map (·.1)).filter s.wantsFull = [] → exec .fullTrainStart s = .next s) ∧
  (∀ (s s1 : State) (x : Exchange) (rc : RadClass) (air at_ : Nat), s.rad.xch = some x → x.step = .train → x.full = false → x.aborted = false → s.radTx = true → s1 = s.until x.due → rc = s.radClass (s.slot x.slot).cls →
    air = s.pollAir rc rc.form → at_ = (s1.dev + air) / 32768 →
    ∃ t, exec .pollSend s = .next t ∧ t.emitted = s.emitted ++ [.radio (s1.airFrame (rc.txCh + rc.txMode * 4096) air (if rc.form then s.fld rRadPhy 7 0 else 0) s1.t (le 2 (257 + flag 7 (s.downWaits x.slot)) ++ le 3 (x.slot + 1) ++ le 3 0 ++ le 4 at_ ++
        le 2 (wph x.slot (s.slot x.slot).wakeS) ++ le 1 (max 1 rc.maxF) ++ le 1 (min 63 rc.pollDiv)))] ∧ (∃ l, t.rad.txs = l ++ [{ from_ := s1.t, air := air }]) ∧
      t.rad.xch = some { x with step := .polled, due := s1.t + air + usU 3000, pt := at_ % 4294967296, ptAt := at_, maxF := max 1 rc.maxF } ∧ SameRegs s t [rRadIrq] ∧
      t = { s1 with regs := t.regs, emitted := t.emitted, rad := { s1.rad with xch := t.rad.xch, budget := t.rad.budget, budgetAt := s1.t, txs := t.rad.txs } }) ∧
  (∀ (s s1 s2 s3 : State) (x : Exchange), s.rad.xch = some x → s1 = s.until x.due →
    (x.step = .polled → s2 = s1.setPoll x.slot (if x.full then { s.poll x.slot with ftMiss := (s.poll x.slot).ftMiss + 1, lastMiss := s1.t } else { s.poll x.slot with miss := (s.poll x.slot).miss + 1, lastMiss := s1.t }) →
      s3 = s2.setPoll x.slot { s2.poll x.slot with next := some (wakeAfter x.slot (s.slot x.slot).wakeS x.wake) } →
      exec .exchangeTimeout s = .next (({ s3 with rad := { s3.rad with xch := none } } : State).notice false x.slot (if x.full then 2 else 1) 0 (x.wake % 4294967296))) ∧
    (x.step = .cont → x.acked = true → s3 = s1.setPoll x.slot { s.poll x.slot with tSync := some x.ptAt, next := none } →
      exec .exchangeTimeout s = .next { s3 with rad := { s3.rad with xch := none } })) ∧
  (∀ s : State, s.rad.xch = none → exec .exchangeTimeout s = .next s)

/-- What Q2 brings and what goes down (R348, R351, R355, R367, R368, R373, R374). A DOWN of Q2 is held for its slot in place of a waiting one; it leaves at its instant in an exchange, once, and its acknowledgement is awaited for 2 ms, after which the notice DOWN_NOACK is offered on Q1; when the budget does not pay it stays held and the exchange is complete.
One held DN_WAIT_H hours is dropped with the notice DOWN_EXPIRED. A CARAVAN leaves under the next CID and enters the seen cache; a POLL_NOW plans its slot's poll at the next wake; a packet of another TYPE is discarded and counted. -/
def Obligations.Q2DrivesTheTransmitter : Prop :=
  (∀ (s s1 : State) (cut : Bool) (ty : Nat) (ws : List Word), s.bitOf rRadCtl 0 = true → s.ringPeek 2 = .packet cut ty ws → s1 = (s.ringTake 2).2 →
    (∀ (i : Nat) (rest : List HeldDown), ty = 1 → i = bits 16 0 (ws.getD 0 0).toNat → rest = s.rad.downs.filter (fun d => d.slot ≠ i) → rest.length + 1 < 4096 →
      exec .radTxDown s = .next { s1 with rad := { s1.rad with downs := rest ++ [{ slot := i, push := bits 15 0 (ws.getD 1 0).toNat, frame := ofWs (ws.drop 2), since := s.t }] } }) ∧
    (ty = 1 → 4096 ≤ (s.rad.downs.filter fun d => d.slot ≠ bits 16 0 (ws.getD 0 0).toNat).length → exec .radTxDown s = .next (s.irq rRadIrq 3)) ∧
    (∀ i : Nat, ty = 3 → i = bits 16 0 (ws.getD 0 0).toNat →
      exec .radTxPollNow s = .next (s1.setPoll i { s.poll i with next := some (wakeAfter i (s.slot i).wakeS (s.dev / 32768)) })) ∧
    (∀ (inner frame : Bytes) (rc : RadClass) (air cid : Nat), ty = 2 → inner = ofWs (ws.drop 1) → rc = s.caravanClass inner → cid = (s.rad.cid + 1) % 65536 →
      frame = le 2 263 ++ le 3 0xFFFFFF ++ le 3 0 ++ le 3 0 ++ le 2 cid ++ le 1 (bits 2 0 (ws.getD 0 0).toNat) ++ inner → air = s.frameAir rc.txMode frame.length →
      (s.rad.xch.isSome = true ∨ s.radTx = false → exec .radTxCaravan s = .next s) ∧
      (s.radTx = true → s.rad.xch = none → s.txBusy (s.t - s.paLead) (s.t + air) = false → s.txPays (s.txCost air) = true →
        ∃ t, exec .radTxCaravan s = .next t ∧ t.emitted = s1.emitted ++ [.radio (s1.airFrame (rc.txCh + rc.txMode * 4096) air (s.fld rRadPhy 7 0) s.t frame)] ∧ t.rad.cid = cid ∧ t.rad.seen = seenInsert s.rad.seen 0 cid s.t ∧
          t.rad.budget = s.budgetAt s.t - s.txCost air ∧ t.rad.downs = s.rad.downs ∧ t.rad.polls = s.rad.polls ∧ t.rings = s1.rings ∧ t.ctx = s.ctx ∧ t.seq = s.seq)) ∧
    (ty ≠ 1 → ty ≠ 2 → ty ≠ 3 → exec .radTxDown s = .next (s1.count rRadBadfrm 1) ∧ exec .radTxCaravan s = .next (s1.count rRadBadfrm 1) ∧ exec .radTxPollNow s = .next (s1.count rRadBadfrm 1))) ∧
  (∀ (s s1 s3 : State) (x : Exchange) (rc : RadClass), s.rad.xch = some x → x.step = .down → s1 = s.until x.due → rc = s.radClass (s.slot x.slot).cls →
    s3 = s1.setPoll x.slot { s.poll x.slot with tSync := some x.ptAt, next := none } →
    ((s.rad.downs.find? fun d => d.slot == x.slot) = none ∨ s.radTx = false → exec .radioDownSend s = .next { s3 with rad := { s3.rad with xch := none } }) ∧
    (∀ (d : HeldDown) (air : Nat), (s.rad.downs.find? fun d => d.slot == x.slot) = some d → s.radTx = true → air = s.frameAir rc.txMode d.frame.length →
      s1.txBusy (s1.t - s1.paLead) (s1.t + air) = false → s1.txPays (s1.txCost air) = true →
      ∃ t, exec .radioDownSend s = .next t ∧ t.emitted = s.emitted ++ [.radio (s1.airFrame (rc.txCh + rc.txMode * 4096) air (s.fld rRadPhy 7 0) s1.t d.frame)] ∧ t.rad.downs = s.rad.downs.filter (fun y => y.slot ≠ x.slot) ∧
        t.rad.xch = some { x with step := .downSent, push := d.push, due := s1.t + air + usU 2000 } ∧ SameRegs s t [rRadIrq] ∧
        t = { s1 with regs := t.regs, emitted := t.emitted, rad := { s1.rad with xch := t.rad.xch, downs := t.rad.downs, budget := t.rad.budget, budgetAt := s1.t, txs := t.rad.txs } })) ∧
  (∀ (s s1 s2 : State) (x : Exchange), s.rad.xch = some x → x.step = .downSent → s1 = s.until x.due → s2 = s1.notice false x.slot 3 x.push (x.wake % 4294967296) →
    exec .radioDownNoack s = .next { s2.setPoll x.slot { s.poll x.slot with tSync := some x.ptAt, next := none } with rad := { (s2.setPoll x.slot { s.poll x.slot with tSync := some x.ptAt, next := none }).rad with xch := none } }) ∧
  (∀ s : State, s.rad.xch = none → exec .radioDownSend s = .next s ∧ exec .radioDownNoack s = .next s) ∧
  (∀ (s s1 : State) (d : HeldDown), s.rad.downs = [d] → s1 = s.until (d.since + s.fld rRadDnwait 9 0 * 3600 * 268435456) →
    exec .radioDownExpired s = .next (({ s1 with rad := { s1.rad with downs := [] } } : State).notice false d.slot 4 d.push ((s.nextWake d.slot).getD (s1.dev / 32768) % 4294967296))) ∧
  (∀ s : State, s.rad.downs = [] → exec .radioDownExpired s = .next s)

/-- Crossings and reception on the power line (R382 to R385, R388, R389, R393, R395, R397 to R399, R402, R410). An edge of a phase that is on counts as a crossing or changes nothing; 16 crossings within 100 µs of their prediction lock the phase and set PLC_IRQ.ZC_LOCK, 4 in a row that miss it, or that no edge meets, lose the lock, clear its history and count in PLC_ZCLOSS. At each crossing a sensed pulse moves the contention
reference, silence enters the noise floor, and the next symbol of a frame being sent leaves the coupler. A frame on a locked phase with a bad PHR or FCS is counted, one that met the phase's own windows or came on a coincident phase before is dropped; the holder opens a DATA frame for the coordinator on Q3 as PLC_FRAME with its verdict, and a short ACK with it waits for crossing X + 4 when asked for. The short ACK
goes out from that crossing while the phase is locked and free, or is counted as missed, or not sent without the token; one received ends the frame it acknowledges unless it says BUSY. -/
def Obligations.PowerLineCrossingsAndReception : Prop :=
  (∀ (dt : Nat) (phase : Fin 3) (rising : Bool) (heard : PulseEnergy) (s s1 : State) (x h : PlcPhase) (l : List Nat) (at_ : Nat), s.Inv → s1 = s.advance dt → s.plc.phases[phase.val]? = some x → l = (if rising then x.rises else x.falls) →
    at_ = ((s1.dev : Int) - signed 16 (s.fld (rPlcZctrim phase) 15 0) * 268435456 / 10000000).toNat →
    h = (if x.locked = false ∨ x.count ≤ x.txEnd then x else if s.plcSensed phase heard then { x with cr := x.count + 64 } else { x with floor := (heard :: x.floor).take 64 }) →
    (s.phaseOn phase = false ∨ edgeOk x l at_ = false → exec (.zcEdge dt phase rising heard) s = .next s1) ∧
    (∀ (ok : Bool) (y z : PlcPhase), s.phaseOn phase = true → edgeOk x l at_ = true →
      (predicted l = none ∨ ∃ q, predicted l = some q ∧ ok = (decide (q ≤ at_ + usU 100) && decide (at_ ≤ q + usU 100))) →
      y = { h with rises := if rising then (at_ :: x.rises).take 9 else x.rises, falls := if rising then x.falls else (at_ :: x.falls).take 9, last := some at_, count := x.count + 1, pred := predicted l,
                   good := if predicted l = none then x.good else if ok then x.good + 1 else 0, bad := if predicted l = none then x.bad else if ok then 0 else x.bad + 1 } →
      z = (if predicted l = none then y else if x.locked = true ∧ 4 ≤ y.bad then { y with rises := [], falls := [], last := none, good := 0, bad := 0, locked := false, txEnd := 0, pred := none, sending := [] }
           else if x.locked = false ∧ 16 ≤ y.good then { y with locked := true } else y) →
      ∃ t, exec (.zcEdge dt phase rising heard) s = .next t ∧ t.reg (rPlcZccnt phase) = (s.reg (rPlcZccnt phase) + 1) % 4294967296 ∧
        (z.sending = [] → t.plc.phases = s.plc.phases.set phase z ∧ t.emitted = s.emitted) ∧
        (∀ k r, z.sending = k :: r → s.plcTx = true → t.plc.phases = s.plc.phases.set phase { z with sending := r } ∧
          ∃ w : PlcWindow, t.emitted = s.emitted ++ [.pulse w] ∧ w = s.plcWindow phase k ((z.pred <|> z.crossing).getD s1.dev)) ∧
        (∀ k r, z.sending = k :: r → s.plcTx = false → t.plc.phases = s.plc.phases.set phase { z with sending := [], txEnd := min z.txEnd z.count } ∧ t.emitted = s.emitted) ∧
        (z.locked = x.locked → SameRegs s t [rPlcZccnt phase, rPlcIrq, rTimRate] ∧ t.plc.shorts = s.plc.shorts ∧ t.plc.txq = s.plc.txq) ∧
        (x.locked = false → z.locked = true → t.bitOf rPlcIrq 1 = true ∧ SameRegs s t [rPlcZccnt phase, rPlcIrq, rTimRate]) ∧
        (x.locked = true → z.locked = false → t.bitOf rPlcIrq 0 = true ∧ t.reg rPlcZcloss = min 4294967295 (s.reg rPlcZcloss + 1) ∧
          t.plc.shorts = s.plc.shorts.filter (fun a => a.phase ≠ phase.val) ∧ t.plc.txq = s.plc.txq.map (fun f => if f.phase = phase.val then { f with sentX := none } else f) ∧
          SameRegs s t [rPlcZccnt phase, rPlcIrq, rPlcZcloss, rPlcAckmiss, rTimRate]) ∧
        (s.fe.run = true ∨ s.tim.servo ≠ .free → t.tim = s.tim ∧ t.reg rTimRate = s.reg rTimRate) ∧
        t = { s1 with regs := t.regs, emitted := t.emitted, tim := t.tim, plc := { s.plc with phases := t.plc.phases, coinc := t.plc.coinc, shorts := t.plc.shorts, txq := t.plc.txq } })) ∧
  (∀ (phase : Fin 3) (heard : PulseEnergy) (rise : Bool) (s s1 : State) (x : PlcPhase) (q : Nat), s.Inv → s.plc.phases[phase.val]? = some x → s.phaseOn phase = true →
    (rise = true ∧ predicted x.rises = some q ∧ (∀ r, predicted x.falls = some r → q < r)) ∨ (rise = false ∧ predicted x.falls = some q ∧ (∀ r, predicted x.rises = some r → q ≤ r)) → s1 = s.untilDev (q + usU 100) →
    ∃ t y, exec (.zcMissingCrossing phase heard) s = .next t ∧ t.plc.phases = s.plc.phases.set phase y ∧ y.count = x.count + 1 ∧
      (x.sending = [] → y.sending = [] ∧ t.emitted = s.emitted) ∧
      (x.locked = false ∨ x.bad < 3 → y.rises = (if rise then (q :: x.rises).take 9 else x.rises) ∧ y.falls = (if rise then x.falls else (q :: x.falls).take 9) ∧ y.good = 0 ∧ y.bad = x.bad + 1 ∧ y.pred = some q ∧ y.locked = x.locked ∧
        SameRegs s t [rPlcIrq, rTimRate] ∧ (∀ k r, x.sending = k :: r → s.plcTx = true → y.sending = r ∧ ∃ w : PlcWindow, t.emitted = s.emitted ++ [.pulse w] ∧ w = s.plcWindow phase k q)) ∧
      (x.locked = true → 3 ≤ x.bad → t.bitOf rPlcIrq 0 = true ∧ t.reg rPlcZcloss = min 4294967295 (s.reg rPlcZcloss + 1) ∧ y.locked = false ∧ y.rises = [] ∧ y.falls = [] ∧ y.sending = [] ∧ t.emitted = s.emitted) ∧
      t = { s1 with regs := t.regs, plc := t.plc, tim := t.tim, emitted := t.emitted }) ∧
  (∀ (phase : Fin 3) (heard : PulseEnergy) (s : State), s.phaseOn phase = false → exec (.zcMissingCrossing phase heard) s = .next s) ∧
  (∀ (phase : Fin 3) (heard : PulseEnergy) (s : State), predicted (s.phase phase).rises = none → predicted (s.phase phase).falls = none → exec (.zcMissingCrossing phase heard) s = .next s) ∧
  (∀ (dt : Nat) (phase : Fin 3) (heard : List PulseEnergy) (s s1 s2 : State) (x : PlcPhase) (d : PlcDecoded), s1 = s.advance dt → s.plc.phases[phase.val]? = some x → d = plcDecode heard →
    s2 = { s1 with plc := { s1.plc with phases := s1.plc.phases.set phase { x with cr := x.count + 64 } } } →
    (s.phaseOn phase = false ∨ x.locked = false → exec (.plcFrameReceive dt phase heard) s = .next s1) ∧
    (s.phaseOn phase = true → x.locked = true → d.len = none → exec (.plcFrameReceive dt phase heard) s = .next (s2.count rPlcBadfrm 1)) ∧
    (∀ (len : Nat) (bytes : Bytes), s.phaseOn phase = true → x.locked = true → d.len = some len → bytes = d.mpdu.take (len - 4) →
      (0 < x.txEnd → x.count < x.txEnd + (34 + nPad len) → exec (.plcFrameReceive dt phase heard) s = .next s2) ∧
      (x.txEnd = 0 ∨ x.txEnd + (34 + nPad len) ≤ x.count → d.mpdu.drop (len - 4) ≠ le 4 (crc32 bytes) → exec (.plcFrameReceive dt phase heard) s = .next (s2.count rPlcFcserr 1)) ∧
      (∀ l, x.txEnd = 0 ∨ x.txEnd + (34 + nPad len) ≤ x.count → d.mpdu.drop (len - 4) = le 4 (crc32 bytes) → s.plc.lastRx = some l → l.phase ≠ phase.val → l.bytes = bytes → s1.t < l.at_ + msU 2 → coincidentWith x (s.phase l.phase) = true →
        exec (.plcFrameReceive dt phase heard) s = .next s2) ∧
      (∀ (f : Frame) (ph v : Nat) (c : EClass) (sl : Option Nat), x.txEnd = 0 ∨ x.txEnd + (34 + nPad len) ≤ x.count → d.mpdu.drop (len - 4) = le 4 (crc32 bytes) →
        (∀ l, s.plc.lastRx = some l → l.phase = phase.val ∨ l.bytes ≠ bytes ∨ l.at_ + msU 2 ≤ s1.t) → s.arb.flips = [] → s.seq.holder = true →
        f = plcFrame bytes → plcTypeOk f = true → f.ftype = 2 → fld 8 3 bytes = 0 → f.relays = [] → ph = (if s.coincident phase then 3 else phase.val) →
        (s1.serves 3 = false ∧ v = 2 ∧ c = .busy ∧ sl = none) ∨ (s1.serves 3 = true ∧ (f.src = 0 ∨ 131072 < f.src) ∧ v = 3 ∧ c = .orphan ∧ sl = none) ∨
        (s1.serves 3 = true ∧ 0 < f.src ∧ f.src ≤ 131072 ∧ (s.slot (f.src - 1)).fault = true ∧ v = 2 ∧ c = .busy ∧ sl = some (f.src - 1)) ∨
        (s1.serves 3 = true ∧ 0 < f.src ∧ f.src ≤ 131072 ∧ (s.slot (f.src - 1)).fault = false ∧ ((s.slot (f.src - 1)).state = .free ∨ (s.slot (f.src - 1)).state = .decom) ∧ v = 3 ∧ c = .orphan ∧ sl = some (f.src - 1)) ∨
        (s1.serves 3 = true ∧ 0 < f.src ∧ f.src ≤ 131072 ∧ (s.slot (f.src - 1)).state ≠ .free ∧ (s.slot (f.src - 1)).state ≠ .decom ∧ (s.slot (f.src - 1)).fault = false ∧ sl = some (f.src - 1) ∧
          ((dupCheck (s.slot (f.src - 1)) f.seq).1 = true ∧ v = 0 ∧ c = .normal ∨ (dupCheck (s.slot (f.src - 1)) f.seq).1 = false ∧ v = 1 ∧ c = .dup)) →
        ∃ (t u : State) (desc : Nat), exec (.plcFrameReceive dt phase heard) s = .next t ∧ bits 26 24 desc = v ∧ bits 17 16 desc = ph ∧ bits 7 0 desc = min 255 (plcQual (heard.take (22 + nPad len))) ∧
          u = s1.offer 3 { kind := .plcFrame, stamp := x.crossing.getD s1.dev, cls := c, src := { slot := sl.getD 0, slotV := sl.isSome, chan := ph }, payload := le 4 desc ++ bytes } ∧ t.rings = u.rings ∧ t.wram = u.wram ∧
          t.ctx = (if v = 0 then (s1.setSlot (f.src - 1) (dupCheck (s.slot (f.src - 1)) f.seq).2).ctx else s1.ctx) ∧ t.plc.phases = s2.plc.phases ∧
          (f.ackreq = true → ∃ a : PendShort, t.plc.shorts = s.plc.shorts ++ [a] ∧ a.phase = phase ∧ a.at_ = x.count + 4 ∧ a.verd = v ∧ a.seq = f.seq.toNat % 65536 ∧ a.ltx = fld 11 3 bytes) ∧
          (f.ackreq = false → t.plc.shorts = s.plc.shorts) ∧ t.plc.txq = s.plc.txq ∧ t.plc.sent = s.plc.sent ∧
          SameRegs s t [rArbDupcnt, rArbOrphcnt, rArbMaskcnt, rArbLatmax, rArbIrq, rQfIrq] ∧ t.seq = s.seq ∧ t.emitted = s.emitted))) ∧
  (∀ (phase : Fin 3) (s : State) (x : PlcPhase) (a : PendShort) (before after : List PendShort), s.plc.phases[phase.val]? = some x → s.plc.shorts = before ++ a :: after → (∀ b ∈ before, b.phase ≠ phase.val ∨ x.count < b.at_) →
    a.phase = phase.val → a.at_ ≤ x.count →
    (s.plcTx = false → exec (.plcShortAckSend phase) s = .next { s with plc := { s.plc with shorts := before ++ after } }) ∧
    (s.plcTx = true → x.locked = false ∨ x.sending ≠ [] → exec (.plcShortAckSend phase) s = .next (({ s with plc := { s.plc with shorts := before ++ after } } : State).count rPlcAckmiss 1)) ∧
    (s.plcTx = true → x.locked = true → x.sending = [] →
      ∃ (k : Fin 4) (r : List (Fin 4)), plcShortSlots (shortWord a.seq a.verd a.dpend a.ltx) = k :: r ∧
        exec (.plcShortAckSend phase) s = .next { s with plc := { s.plc with shorts := before ++ after, phases := s.plc.phases.set phase { x with txEnd := x.count + 59, cr := x.count + 63, sending := r } },
                                                         emitted := s.emitted ++ [.plc phase (k :: r), .pulse (s.plcWindow phase k ((x.pred <|> x.crossing).getD s.dev))] })) ∧
  (∀ (phase : Fin 3) (s : State), (∀ b ∈ s.plc.shorts, b.phase ≠ phase.val ∨ (s.phase phase).count < b.at_) → exec (.plcShortAckSend phase) s = .next s) ∧
  (∀ (dt : Nat) (phase : Fin 3) (heard : List PulseEnergy) (w : Nat) (s s1 : State) (x : PlcPhase), s1 = s.advance dt → s.plc.phases[phase.val]? = some x → w = shortDecode heard →
    (s.phaseOn phase = false ∨ x.locked = false → exec (.plcShortAckReceive dt phase heard) s = .next s1) ∧
    (s.phaseOn phase = true → x.locked = true → bits 31 24 w ≠ shortChk (bits 23 0 w) 0 ∨ bits 18 16 w = 2 →
      exec (.plcShortAckReceive dt phase heard) s = .next { s1 with plc := { s1.plc with phases := s1.plc.phases.set phase { x with cr := x.count + 4 } } }) ∧
    (s.phaseOn phase = true → x.locked = true → bits 31 24 w = shortChk (bits 23 0 w) 0 → bits 18 16 w ≠ 2 →
      ∃ t, exec (.plcShortAckReceive dt phase heard) s = .next t ∧ t = { s1 with plc := { s1.plc with phases := s1.plc.phases.set phase { x with cr := x.count + 4 }, txq := t.plc.txq } } ∧
        (∀ f, f ∈ t.plc.txq ↔ f ∈ s.plc.txq ∧ ¬ (f.phase = phase.val ∧ f.seq % 65536 = bits 15 0 w ∧ ∃ X, f.sentX = some X ∧ x.count ≤ X + 63))))

/-- Transmission on the power line (R374, R386, R387, R398, R400 to R403, R406, R408, R409, R413, R414). The contender of a phase goes out from its contention crossing while the phase is locked and free, as the symbols of its coded frame, one window at each crossing with the selector, enable and pulse times of PLC_TXCFG; at any other crossing it waits. Without its short ACK by X + 63 it is sent again up to RETRY times, counted, and
then given up. A BEACON is queued on every locked phase each period by the unit that drives. A DOWN of Q4 is held and source-routed to its slot, or dropped with the notice ROUTE_FAIL; without its end-to-end ACK within 60 s the notice is DOWN_NOACK, and after DN_WAIT_H hours unsent DOWN_EXPIRED. A CARAVAN is flooded under the next CID, a REQ routed to its slot. -/
def Obligations.PowerLineTransmission : Prop :=
  (∀ (phase : Fin 3) (r : Fin 8) (s : State) (x y : PlcPhase) (f : PlcTx), s.plc.phases[phase.val]? = some x → y = { x with cr := x.cr + (x.count - x.cr) / 32 * 32 } → s.contender phase = some f →
    (s.plcTx = false ∨ s.phaseOn phase = false ∨ x.locked = false ∨ x.sending ≠ [] ∨ x.count ≠ y.cr + 8 * f.prio + r.val →
      exec (.plcContend phase r) s = .next { s with plc := { s.plc with phases := s.plc.phases.set phase y } }) ∧
    (∀ (n : Nat) (mpdu : Bytes), s.plcTx = true → s.phaseOn phase = true → x.locked = true → x.sending = [] → x.count = y.cr + 8 * f.prio + r.val → n = 34 + nPad (f.mpdu.length + 4) →
      mpdu = (if f.beacon then f.mpdu.take 15 ++ le 8 (x.crossing.getD s.dev + (n - 1) * x.half) ++ f.mpdu.drop 23 else f.mpdu) →
      ∃ (t : State) (k : Fin 4) (rest : List (Fin 4)) (w : PlcWindow), exec (.plcContend phase r) s = .next t ∧ plcFrameSlots mpdu = k :: rest ∧ t.emitted = s.emitted ++ [.plc phase (k :: rest), .pulse w] ∧
        w = s.plcWindow phase k ((x.pred <|> x.crossing).getD s.dev) ∧
        t.plc.phases = s.plc.phases.set phase { y with txEnd := x.count + n - 1, cr := x.count + n - 1 + 64, sending := rest } ∧
        t.plc.txq = (if f.ackreq then s.plc.txq.map (fun g => if g = f then { f with sentX := some (x.count + n - 1) } else g) else s.plc.txq.erase f) ∧
        (f.down = none ∨ f.tries ≠ 0 → t.plc.sent = s.plc.sent ∧ t.plc.downs = s.plc.downs) ∧
        (∀ i p d, f.down = some (i, p, d) → f.tries = 0 → t.plc.downs = s.plc.downs.filter (fun h => h.slot ≠ i) ∧
          t.plc.sent = s.plc.sent.filter (fun h => h.slot ≠ i) ++ [{ slot := i, push := p, dcnt := d, since := s.t + (n - 1) * x.half }]) ∧
        t = { s with emitted := t.emitted, plc := { s.plc with phases := t.plc.phases, txq := t.plc.txq, sent := t.plc.sent, downs := t.plc.downs } })) ∧
  (∀ (phase : Fin 3) (r : Fin 8) (s : State), s.contender phase = none → exec (.plcContend phase r) s = .next s) ∧
  (∀ (phase : Fin 3) (k : Fin 4) (s : State) (X lead width : Nat) (w : PlcWindow), w = s.plcWindow phase k X → lead = s.fld rPlcTxcfg 15 8 → width = s.fld rPlcTxcfg 6 0 →
    w.phsel = phase ∧ w.selAt = X + (-405 - (lead : Int)) * 268435456 / 1000000 ∧ w.selFree = X + 245 * 268435456 / 1000000 ∧ w.enAt = X + (-400 - (lead : Int)) * 268435456 / 1000000 ∧ w.enOff = X + 240 * 268435456 / 1000000 ∧
      w.enHigh = s.bitOf rPlcTxcfg 16 ∧ w.pulseHigh = s.bitOf rPlcTxcfg 7 ∧ w.pulseAt = X + (160 * (k.val : Int) - 320) * 268435456 / 1000000 - (width : Int) * 268435456 / 1000000 / 2 ∧ w.pulseOff = w.pulseAt + (width : Int) * 268435456 / 1000000) ∧
  (∀ (phase : Fin 3) (s : State) (f : PlcTx) (X : Nat) (before after : List PlcTx), s.plc.txq = before ++ f :: after → (∀ g ∈ before, g.phase ≠ phase.val ∨ ∀ Y, g.sentX = some Y → (s.phase phase).count < Y + 63) →
    f.phase = phase.val → f.sentX = some X → X + 63 ≤ (s.phase phase).count →
    (f.tries < s.fld rPlcRxcfg 10 8 → exec (.plcAckTimeout phase) s =
      .next (({ s with plc := { s.plc with txq := s.plc.txq.map fun g => if g = f then { f with sentX := none, tries := f.tries + 1 } else g } } : State).count rPlcRetrycnt 1)) ∧
    (s.fld rPlcRxcfg 10 8 ≤ f.tries → exec (.plcAckTimeout phase) s = .next { s with plc := { s.plc with txq := before ++ after } })) ∧
  (∀ (phase : Fin 3) (s : State), (∀ f ∈ s.plc.txq, f.sentX = none) → exec (.plcAckTimeout phase) s = .next s) ∧
  (∀ s : State, s.bitOf rPlcCtl 0 = false → exec .plcBeacon s = .next s) ∧
  (∀ s s1 : State, s.Inv → s.bitOf rPlcCtl 0 = true → s1 = s.until s.plc.beaconAt →
    (s.plcTx = false → exec .plcBeacon s = .next { s1 with plc := { s1.plc with beaconAt := s1.t + s.fld rPlcBeacon 11 0 * 268435456 } }) ∧
    (s.plcTx = true →
      ∃ t, exec .plcBeacon s = .next t ∧ t.fld rPlcBeacon 31 16 = (s.fld rPlcBeacon 31 16 + 1) % 65536 ∧ t.fld rPlcBeacon 15 0 = s.fld rPlcBeacon 15 0 ∧ SameRegs s t [rPlcBeacon] ∧
        (∃ q : List PlcTx, t.plc.txq = s.plc.txq ++ q ∧ q.map (·.phase) = (List.range 3).filter (fun p => (s.phase p).locked) ∧ ∀ f ∈ q, f.beacon = true ∧ f.prio = 2 ∧ f.ackreq = false ∧ f.mpdu.length = 27 ∧
          f.mpdu.drop 25 = le 2 ((s.fld rPlcBeacon 31 16 + 1) % 65536)) ∧
        t = { s1 with regs := t.regs, plc := { s1.plc with beaconAt := s1.t + s.fld rPlcBeacon 11 0 * 268435456, txq := t.plc.txq } })) ∧
  (∀ (s s1 : State) (d : SentDown) (r : List SentDown), s.plc.sent = d :: r → s1 = s.until (d.since + 60 * 268435456) →
    exec .plcDownNoack s = .next (({ s1 with plc := { s1.plc with sent := r } } : State).notice true d.slot 3 d.push 0)) ∧
  (∀ (s s1 : State) (d : HeldDown) (before after : List HeldDown), s.plc.downs = before ++ d :: after → (∀ h ∈ before, d.since < h.since) → (∀ h ∈ after, d.since ≤ h.since) → s1 = s.until (d.since + s.fld rPlcDnwait 9 0 * 3600 * 268435456) →
    exec .plcDownExpired s = .next (({ s1 with plc := { s1.plc with downs := before ++ after, txq := s1.plc.txq.filter fun f => match f.down with | some (i, _, _) => i ≠ d.slot || f.sentX.isSome | none => true } } : State).notice true d.slot 4 d.push 0)) ∧
  (∀ s : State, s.plc.sent = [] → exec .plcDownNoack s = .next s) ∧ (∀ s : State, s.plc.downs = [] → exec .plcDownExpired s = .next s) ∧
  (∀ (s s1 : State) (cut : Bool) (ty i : Nat) (ws : List Word), s.bitOf rPlcCtl 0 = true → s.ringPeek 4 = .packet cut ty ws → s1 = (s.ringTake 4).2 → i = bits 16 0 (ws.getD 0 0).toNat →
    (∀ (u : State) (rest : List HeldDown) (b : Bytes), ty = 1 → rest = s.plc.downs.filter (fun d => d.slot ≠ i) → b = ofWs (ws.drop 2) →
      u = { s1 with plc := { s1.plc with downs := rest, txq := s1.plc.txq.filter fun f => match f.down with | some (k, _, _) => k ≠ i || f.sentX.isSome | none => true } } →
      (4096 ≤ rest.length → exec .plcTxDown s = .next (s.irq rPlcIrq 3)) ∧
      (rest.length < 4096 → u.route i = none → exec .plcTxDown s = .next (((u.count rPlcRoutefail 1).irq rPlcIrq 2).notice true i 5 (bits 15 0 (ws.getD 1 0).toNat) 0)) ∧
      (∀ relays, rest.length < 4096 → u.route i = some relays →
        ∃ (t v : State) (f : PlcTx), exec .plcTxDown s = .next t ∧ v = { u with plc := { u.plc with downs := rest ++ [{ slot := i, push := bits 15 0 (ws.getD 1 0).toNat, frame := b, since := u.t }], txq := u.plc.txq ++ (u.slotPhases i).map fun p => { f with phase := p } } } ∧
          t = (if rest.length = 4095 then v.irq rPlcIrq 3 else v) ∧
          f.prio = 1 ∧ f.seq = fld 8 4 b ∧ f.down = some (i, bits 15 0 (ws.getD 1 0).toNat, fld 8 4 b) ∧ f.ackreq = bit 5 (fld 0 2 b) ∧ f.tries = 0 ∧ f.sentX = none ∧
          f.mpdu = plcHead (if bit 11 (fld 0 2 b) || relays.isEmpty then fld 0 2 b else fld 0 2 b + 2048) (fld 2 3 b) (fld 5 3 b) (relays.headD (fld 2 3 b)) (u.fld rPlcRxcfg 14 12) relays ++ b.drop 8)) ∧
    (∀ cid : Nat, ty = 2 → cid = (s.plc.cid + 1) % 65536 →
      (s.plcTx = false → exec .plcTxCaravan s = .next s) ∧
      (s.plcTx = true →
        ∃ (t : State) (f : PlcTx), exec .plcTxCaravan s = .next t ∧ t = { s1 with plc := { s1.plc with cid := cid, seen := seenInsert s1.plc.seen 0 cid s.t, txq := s1.plc.txq ++ ((List.range 3).filter fun p => (s1.phase p).locked).map fun p => { f with phase := p } } } ∧
          f.prio = 3 ∧ f.ackreq = false ∧ f.mpdu.drop 15 = le 3 0 ++ le 2 cid ++ le 1 (bits 2 0 (ws.getD 0 0).toNat) ++ ofWs (ws.drop 1))) ∧
    (ty = 3 →
      (s1.route i = none → exec .plcTxReq s = .next (((s1.count rPlcRoutefail 1).irq rPlcIrq 2).notice true i 5 0 0)) ∧
      (∀ relays, s1.route i = some relays →
        ∃ (t : State) (f : PlcTx), exec .plcTxReq s = .next t ∧ t = { s1 with plc := { s1.plc with txq := s1.plc.txq ++ (s1.slotPhases i).map fun p => { f with phase := p } } } ∧ f.prio = 1 ∧ f.ackreq = true ∧
          f.mpdu = plcHead (if relays.isEmpty then 297 else 2345) (i + 1) 0 (relays.headD (i + 1)) (s1.fld rPlcRxcfg 14 12) relays ++ le 1 32 ++ le 3 0)) ∧
    (ty ≠ 1 → ty ≠ 2 → ty ≠ 3 → exec .plcTxDown s = .next (s1.count rPlcBadfrm 1) ∧ exec .plcTxCaravan s = .next (s1.count rPlcBadfrm 1) ∧ exec .plcTxReq s = .next (s1.count rPlcBadfrm 1)))

/-- Enumeration and the Seif links (R605 to R610). A unit without a position samples ADDR_IN: static high makes it the head at position 0, a square wave with ENUM(q) gives it q + 1; it sets SEF_IRQ.ENUM, records the event and sends ENUM with its position on DN, then every 1 ms until its DN partner names position + 1, and again when DN trains. ENUM on UP marks the ring at the head; one that does not fit is a collision,
which disables the link and is recorded; a triad's unit whose position is no member's enters configuration wait. A frame that arrives in order is acknowledged and taken, forwarded with HOPS + 1, both, or discarded; one with a bad CRC counts and is asked for again. An acknowledgement empties the replay buffer up to its LSEQ; a negative one, or 100 µs without one, resends and counts what is left, and the 16th resend brings the link down. -/
def Obligations.SeifLinksCarryFrames : Prop :=
  (∀ (dt : Nat) (level : Fin 3) (s s1 : State), s1 = s.advance dt →
    (s.sef.on = false ∨ s.sef.pos ≠ none ∨ level = 0 → exec (.enumSample dt level) s = .next s1) ∧
    (s.sef.on = true → s.sef.pos = none → level = 2 → s.sef.enumQ = none → exec (.enumSample dt level) s = .next { s1 with sef := { s1.sef with square := true } }) ∧
    (∀ (p : Nat) (h : Bool) (u : State), s.sef.on = true → s.sef.pos = none →
      (level = 1 ∧ p = 0 ∧ h = true) ∨ (level = 2 ∧ h = false ∧ ∃ q, s.sef.enumQ = some q ∧ q ≠ 31 ∧ p = q + 1) →
      u = { s1 with sef := { s1.sef with pos := some p, head := h, posAt := s1.t, aloneAt := s1.t, state := max 1 s1.sef.state, hbAt := s1.t }, seq := { s1.seq with pos := p } } →
      (s.bitOf rSefCtl 1 = false ∨ s.rankAt p ≠ none → exec (.enumSample dt level) s = .next (((u.irq rSefIrq 0).event 0x60 (p + flag 8 h + flag 9 s.sef.ring)).sendEnum)) ∧
      (s.bitOf rSefCtl 1 = true → s.rankAt p = none → exec (.enumSample dt level) s = .next (s1.enterRecovery 3))) ∧
    (s.sef.on = true → s.sef.pos = none → level = 2 → s.sef.enumQ = some 31 → exec (.enumSample dt level) s = .next (((s1.setLink 0 fun l => { l with dis := true }).irq rSefIrq 1).event 0x61 (31 * 256)))) ∧
  (∀ (s s1 : State) (p : Nat) (f : Bytes) (l : SefLink), s.sef.on = true → s.sef.pos = some p → s.enumDone = false → s1 = s.until (s.sef.enumAt + msU 1) → s.sef.links[1]? = some l →
    (l.up = false ∨ l.dis = true → exec .enumResend s = .next { s1 with sef := { s1.sef with enumAt := s1.t } }) ∧
    (l.up = true → l.dis = false → l.wait = [] → l.used + 24 ≤ 65536 → f = le 1 1 ++ le 1 0 ++ le 2 4 ++ le 1 p ++ le 1 0x3F ++ le 2 l.lseqTx ++ fit 8 s.unitId ++ le 4 p →
      exec .enumResend s = .next { s1 with sef := { s1.sef with links := s.sef.links.set 1 { l with replay := l.replay ++ [(l.lseqTx, f ++ le 4 (crc32 f))], lseqTx := (l.lseqTx + 1) % 65536, sentAt := if l.replay = [] then s1.t else l.sentAt }, enumAt := s1.t },
                                           emitted := s.emitted ++ [.seif 1 (.k 0xFB :: ((f ++ le 4 (crc32 f)).map .d ++ [.k 0xFD]))] })) ∧
  (∀ s : State, s.sef.on = false ∨ s.sef.pos = none ∨ s.enumDone = true → exec .enumResend s = .next s) ∧
  (∀ (dt : Nat) (link : Fin 2) (s s1 u : State) (l : SefLink), s1 = s.advance dt → s.sef.links[link.val]? = some l →
    (s.sef.on = false ∨ s.pow.locks.getD 1 false = false ∨ l.dis = true ∨ l.up = true → exec (.linkTrained dt link) s = .next s1) ∧
    (s.sef.on = true → s.pow.locks.getD 1 false = true → l.dis = false → l.up = false →
      u = ({ s1 with sef := { s1.sef with links := s.sef.links.set link.val { up := true, partner := l.partner } } } : State).irq rSefIrq 2 →
      exec (.linkTrained dt link) s = .next (if link.val = 1 then u.sendEnum else u))) ∧
  (∀ s : State, (∀ x ∈ s.sef.inbox, sefType x.2 ≠ 1) → exec .enum s = .next s) ∧
  (∀ (s s1 : State) (link q : Nat) (f : Bytes) (a r : List (Nat × Bytes)), s.sef.inbox = a ++ (link, f) :: r → (∀ x ∈ a, sefType x.2 ≠ 1) → sefType f = 1 → q = fld 0 1 (sefBody f) % 32 → s1 = { s with sef := { s.sef with inbox := a ++ r } } →
    (link ≠ 0 → exec .enum s = .next s1) ∧
    (link = 0 → q = 31 ∨ (s.sef.head = false ∧ ∃ p, s.sef.pos = some p ∧ q + 1 ≠ p) → exec .enum s = .next (((s1.setLink 0 fun l => { l with dis := true }).irq rSefIrq 1).event 0x61 (q * 256))) ∧
    (link = 0 → q ≠ 31 → s.sef.head = true → exec .enum s = .next { s1 with sef := { s1.sef with ring := true, ringLast := q } }) ∧
    (link = 0 → q ≠ 31 → s.sef.head = false → s.sef.pos = some (q + 1) → exec .enum s = .next s1) ∧
    (link = 0 → q ≠ 31 → s.sef.head = false → s.sef.pos = none → s.sef.square = false → exec .enum s = .next { s1 with sef := { s1.sef with enumQ := some (s.sef.enumQ.getD q) } }) ∧
    (link = 0 → q ≠ 31 → s.sef.head = false → s.sef.pos = none → s.sef.square = true → s.bitOf rSefCtl 1 = true → s.rankAt (q + 1) = none → exec .enum s = .next (s1.enterRecovery 3)) ∧
    (∀ u : State, link = 0 → q ≠ 31 → s.sef.head = false → s.sef.pos = none → s.sef.square = true → s.bitOf rSefCtl 1 = false ∨ s.rankAt (q + 1) ≠ none →
      u = { s1 with sef := { s1.sef with pos := some (q + 1), head := false, posAt := s.t, aloneAt := s.t, state := max 1 s.sef.state, hbAt := s.t }, seq := { s.seq with pos := q + 1 } } →
      exec .enum s = .next (((u.irq rSefIrq 0).event 0x60 (q + 1 + flag 9 s.sef.ring)).sendEnum))) ∧
  (∀ (dt : Nat) (link : Fin 2) (frame f : Bytes) (s s1 u : State) (l : SefLink) (n src dst hops : Nat), s1 = s.advance dt → s.sef.links[link.val]? = some l → n = frame.length - 4 → f = frame.take n →
    src = sefSrc f → dst = fld 5 1 f % 64 → hops = fld 1 1 f →
    (s.linkLive link = false → exec (.linkFrameReceive dt link frame) s = .next s1) ∧
    (s.linkLive link = true → frame.length < 20 ∨ fld n 4 frame ≠ crc32 f ∨ n ≠ 16 + fld 2 2 frame →
      exec (.linkFrameReceive dt link frame) s = .next (({ s1 with emitted := s.emitted ++ [.seif link.val (.k 0xDC :: ((le 2 ((l.lseqRx + 65535) % 65536)).map .d ++ [.d 0xB5]))] } : State).count rSefCrcerr 1)) ∧
    (s.linkLive link = true → 20 ≤ frame.length → fld n 4 frame = crc32 f → n = 16 + fld 2 2 frame →
      (fld 6 2 frame ≠ l.lseqRx → exec (.linkFrameReceive dt link frame) s = .next { s1 with emitted := s.emitted ++ [.seif link.val (.k 0x7C :: ((le 2 ((l.lseqRx + 65535) % 65536)).map .d ++ [.d 0xB5]))] }) ∧
      (fld 6 2 frame = l.lseqRx → u = { s1 with sef := { s1.sef with links := s.sef.links.set link.val { l with lseqRx := (l.lseqRx + 1) % 65536 } }, emitted := s.emitted ++ [.seif link.val (.k 0x7C :: ((le 2 l.lseqRx).map .d ++ [.d 0xB5]))] } →
        (s.sef.pos = some src → sub 8 8 f = s.unitId → exec (.linkFrameReceive dt link frame) s = .next u) ∧
        (s.sef.pos = some src → sub 8 8 f ≠ s.unitId →
          exec (.linkFrameReceive dt link frame) s = .next (((u.setLink link.val fun x => { x with dis := true }).irq rSefIrq 1).event 0x61 (link.val + src % 32 * 256))) ∧
        (s.sef.pos ≠ some src → sefType f = 0 ∨ 12 < sefType f ∨ 31 ≤ hops % 32 → exec (.linkFrameReceive dt link frame) s = .next u) ∧
        (s.sef.pos ≠ some src → 1 ≤ sefType f → sefType f ≤ 11 → hops % 32 < 31 → s.sef.pos = some dst ∧ dst ≠ 63 ∨ dst = 63 ∧ sefType f = 1 →
          exec (.linkFrameReceive dt link frame) s = .next { u with sef := { u.sef with inbox := s.sef.inbox ++ [(link.val, f)] } }) ∧
        (s.sef.pos ≠ some src → 2 ≤ sefType f → sefType f ≤ 12 → hops % 32 < 31 → s.sef.pos ≠ some dst → dst ≠ 63 →
          exec (.linkFrameReceive dt link frame) s = .next (u.linkPut (1 - link.val) (f.take 1 ++ le 1 (hops + 1) ++ f.drop 2))) ∧
        (s.sef.pos ≠ some src → 2 ≤ sefType f → sefType f ≤ 11 → hops % 32 < 31 → dst = 63 →
          exec (.linkFrameReceive dt link frame) s = .next (({ u with sef := { u.sef with inbox := s.sef.inbox ++ [(link.val, f)] } } : State).linkPut (1 - link.val) (f.take 1 ++ le 1 (hops + 1) ++ f.drop 2))) ∧
        (s.sef.pos ≠ some src → sefType f = 12 → hops % 32 < 31 → s.sef.pos = some dst → dst ≠ 63 →
          exec (.linkFrameReceive dt link frame) s = .next (if s.seq.holder then u.offer 7 { kind := .seifFrame, stamp := s1.dev, payload := sefBody f } else u)) ∧
        (∀ v : State, s.sef.pos ≠ some src → sefType f = 12 → hops % 32 < 31 → dst = 63 → v = (if s.seq.holder then u.offer 7 { kind := .seifFrame, stamp := s1.dev, payload := sefBody f } else u) →
          exec (.linkFrameReceive dt link frame) s = .next (v.linkPut (1 - link.val) (f.take 1 ++ le 1 (hops + 1) ++ f.drop 2)))))) ∧
  (∀ (dt : Nat) (link : Fin 2) (nack : Bool) (lseq : Fin 65536) (s s1 : State) (l : SefLink), s1 = s.advance dt → s.sef.links[link.val]? = some l →
    (s.linkLive link = false → exec (.linkAck dt link nack lseq) s = .next s1) ∧
    (∀ (a b : List (Nat × Bytes)) (f : Bytes), s.linkLive link = true → nack = false ∨ b = [] → l.replay = a ++ (lseq.val, f) :: b → (∀ x ∈ a, x.1 ≠ lseq.val) → l.wait = [] →
      exec (.linkAck dt link nack lseq) s = .next { s1 with sef := { s1.sef with links := s.sef.links.set link.val { l with replay := b, resends := 0, sentAt := s1.t } } })) ∧
  (∀ (c : Instr) (dt : Nat) (link : Fin 2) (lseq : Fin 65536) (s s1 : State) (l : SefLink), s.sef.links[link.val]? = some l → s.linkLive link = true → l.replay ≠ [] →
    (c = .linkAck dt link true lseq ∧ s1 = s.advance dt ∧ ∀ x ∈ l.replay, x.1 ≠ lseq.val) ∨ (c = .linkRetxTimeout link ∧ s1 = s.until (l.sentAt + usU 100)) →
    (l.resends < 15 →
      exec c s = .next (({ s1 with sef := { s1.sef with links := s.sef.links.set link.val { l with resends := l.resends + 1, sentAt := s1.t } }, emitted := s.emitted ++ l.replay.map fun x => Emission.seif link.val (.k 0xFB :: (x.2.map .d ++ [.k 0xFD])) } : State).count rSefRetx l.replay.length)) ∧
    (15 ≤ l.resends →
      exec c s = .next (((({ s1 with sef := { s1.sef with links := s.sef.links.set link.val { dis := l.dis } }, emitted := s.emitted ++ l.replay.map fun x => Emission.seif link.val (.k 0xFB :: (x.2.map .d ++ [.k 0xFD])) } : State).count rSefRetx l.replay.length).irq rSefIrq 2).event 0x62 link.val))) ∧
  (∀ (link : Fin 2) (s : State), s.linkLive link = false ∨ (s.link link).replay = [] → exec (.linkRetxTimeout link) s = .next s)

/-- Management, commands and images over the chain (R553, R612 to R614, R700 to R702). MGMT_RD and MGMT_WR access a register under the rights of the Seif management frames and are answered with MGMT_RSP, which carries the tag, the status and the value; a MGMT_RSP reaches the tool on the maintenance port. A CMD for the unit's own system address is opened on Q7 by the holder and forwarded to it by another unit; one for an address a heartbeat named is relayed, both as packets of Q8; any other is discarded.
A journaled IMAGE block changes nothing but an image-refused event unless UPD_MODE is 1 or 2; a new block joins its transfer, one that is set already or foreign is ignored; the last one writes an image that passes to the NOR, firmware to the slot not running, preferred on trial, and discards one that fails. -/
def Obligations.ChainManagementCommandsAndImages : Prop :=
  (∀ (s s1 : State) (link tag st v : Nat) (f : Bytes) (a r : List (Nat × Bytes)) (x : Reply × State), s.sef.inbox = a ++ (link, f) :: r → (∀ y ∈ a, sefType y.2 ≠ sefType f) → s1 = { s with sef := { s.sef with inbox := a ++ r } } →
    (sefType f = 8 ∧ x = s1.chainRead .seif (fld 0 4 (sefBody f)) ∧ tag = fld 4 4 (sefBody f)) ∨ (sefType f = 9 ∧ x = s1.chainWrite .seif (fld 0 4 (sefBody f)) (BitVec.ofNat 32 (fld 4 4 (sefBody f))) ∧ tag = fld 8 4 (sefBody f)) →
    (∃ w, x.1 = .data w ∧ st = 0 ∧ v = w.toNat) ∨ (x.1 = .done ∧ st = 0 ∧ v = 0) ∨ (x.1 = .busError ∧ st = 1 ∧ v = 0) →
    exec (if sefType f = 8 then .mgmtRd else .mgmtWr) s = .next (x.2.sefSend 0x0A (sefSrc f) (le 4 tag ++ le 1 st ++ [0, 0, 0] ++ le 4 v))) ∧
  (∀ (s s1 : State) (link : Nat) (f : Bytes) (a r : List (Nat × Bytes)), s.sef.inbox = a ++ (link, f) :: r → (∀ y ∈ a, sefType y.2 ≠ 10) → s1 = { s with sef := { s.sef with inbox := a ++ r } } → sefType f = 10 →
    exec .mgmtRsp s = .next { s1 with reply := { s.reply with maint := if fld 4 1 (sefBody f) = 1 then .busError else .data (BitVec.ofNat 32 (fld 8 4 (sefBody f))) } }) ∧
  (∀ (s s1 : State) (link a : Nat) (f b : Bytes) (l r : List (Nat × Bytes)), s.sef.inbox = l ++ (link, f) :: r → (∀ y ∈ l, sefType y.2 ≠ 11) → s1 = { s with sef := { s.sef with inbox := l ++ r } } → sefType f = 11 → b = sefBody f → a = fld 8 4 b % 2 ^ 18 →
    (a = s.cfg.sysaddr → s.sef.driver = true → s.seq.holder = true → exec .seifCmd s = .next (s1.offer 7 { kind := .seifFrame, stamp := s.dev, payload := b })) ∧
    (∀ p : Peer, a = s.cfg.sysaddr → s.sef.driver = false → s.holderPeer = some p → exec .seifCmd s = .next (State.q8Drain 1 (s1.ringPacket 8 11 (BitVec.ofNat 32 p.pos :: toWs b)))) ∧
    (∀ p : Peer, a ≠ s.cfg.sysaddr → s.relayTo a = some p → exec .seifCmd s = .next (State.q8Drain 1 (s1.ringPacket 8 11 (BitVec.ofNat 32 p.pos :: toWs b)))) ∧
    ((a ≠ s.cfg.sysaddr ∧ ∀ p ∈ s.sef.peers, p.sysaddr ≠ a) ∨ (a = s.cfg.sysaddr ∧ s.sef.driver = false ∧ s.holderPeer = none) ∨ (a = s.cfg.sysaddr ∧ s.sef.driver = true ∧ s.seq.holder = false) → exec .seifCmd s = .next s1)) ∧
  (∀ s : State, ((∀ x ∈ s.sef.inbox, sefType x.2 ≠ 8) → exec .mgmtRd s = .next s) ∧ ((∀ x ∈ s.sef.inbox, sefType x.2 ≠ 9) → exec .mgmtWr s = .next s) ∧
    ((∀ x ∈ s.sef.inbox, sefType x.2 ≠ 10) → exec .mgmtRsp s = .next s) ∧ ((∀ x ∈ s.sef.inbox, sefType x.2 ≠ 11) → exec .seifCmd s = .next s)) ∧
  (∀ (s : State) (x : Task) (b data : Bytes) (kind off total : Nat), s.headTask (.sys 8) = some x → x.key = .sys 8 → x.work = .entry → x.phase = .committing → x.entry.kind = .seifFrame → isSeifCmd x.entry.payload = false →
    s.cellsUsed ≤ 60000 → s.boot.restartDue = false → x.draws = [] → b = x.entry.payload → kind = fld 0 1 b → total = fld 12 4 b → off = fld 16 4 b → data = b.drop 20 →
    ∃ t, exec .image s = .next t ∧ t.seq = s.seq ∧ t.ctx = s.ctx ∧ t.erg.outq = s.erg.outq ∧ t.med = { s.med with nand := { s.med.nand with xfers := t.med.nand.xfers } } ∧
      (s.boot.updMode ≠ 1 → s.boot.updMode ≠ 2 →
        t.med = s.med ∧ t.nor = s.nor ∧ t.boot = s.boot ∧ t.rings = (s.event 0x76 (7 + 256 * (kind % 2))).rings ∧ t.wram = (s.event 0x76 (7 + 256 * (kind % 2))).wram) ∧
      (s.boot.updMode = 1 ∨ s.boot.updMode = 2 → kind ≤ 1 → off % 4096 = 0 → off + data.length ≤ total → data ≠ [] → data.length = 4096 ∨ off + data.length = total →
        ((∀ z ∈ s.med.nand.xfers, ¬ (z.kind = kind ∧ z.xid = sub 4 8 b)) →
          (off ≠ 0 → t.med = s.med ∧ t.nor = s.nor ∧ t.rings = s.rings) ∧
          (off = 0 → kind = 0 → judgeFwHeader s.sec.otp.svn (fit 256 data) = 0 → 4096 < total →
            t.med.nand.xfers = (s.med.nand.xfers.filter fun z => z.kind ≠ kind) ++ [{ kind := kind, xid := sub 4 8 b, total := total, data := [(0, data)] }] ∧ t.nor = s.nor ∧ t.rings = s.rings) ∧
          (off = 0 → kind = 0 → judgeFwHeader s.sec.otp.svn (fit 256 data) ≠ 0 →
            t.med.nand.xfers = s.med.nand.xfers.filter (fun z => z.kind ≠ kind) ∧ t.nor = s.nor ∧ t.rings = (s.event 0x76 (judgeFwHeader s.sec.otp.svn (fit 256 data) + 256 * kind)).rings)) ∧
        (∀ z y : Xfer, (s.med.nand.xfers.find? fun w => w.kind == kind && w.xid == sub 4 8 b) = some z → y = { z with data := z.data ++ [(off / 4096, data)] } →
          ((∃ p ∈ z.data, p.1 = off / 4096) → t.med = s.med ∧ t.nor = s.nor ∧ t.rings = s.rings) ∧
          ((∀ p ∈ z.data, p.1 ≠ off / 4096) → off ≠ 0 →
            (y.complete = false → t.med.nand.xfers = (s.med.nand.xfers.filter fun w => w.kind ≠ kind) ++ [y] ∧ t.nor = s.nor ∧ t.rings = s.rings) ∧
            (y.complete = true → s.judgeXfer y ≠ 0 → t.med.nand.xfers = s.med.nand.xfers.filter (fun w => w.kind ≠ kind) ∧ t.nor = s.nor ∧ t.rings = (s.event 0x76 (s.judgeXfer y + 256 * kind)).rings) ∧
            (y.complete = true → s.judgeXfer y = 0 → s.boot.restoring = false →
              t.nor = (if kind = 0 then (s.nor.setSlot (1 - s.boot.slot) (norImage (s.nor.slot (1 - s.boot.slot)) y.content)).writePt (1 - s.boot.slot) true 3 else { s.nor with cfg := norImage s.nor.cfg y.content }) ∧
              t.boot.updDone = some x.jsn ∧ t.boot.updHourAt = some s.dev))))) ∧
  (∀ s : State, s.headTask (.sys 8) = none → exec .image s = .next s)

/-- Heartbeats and replication (R605, R610, R611, R618 to R620, R630, R636). Every 1 ms an enumerated unit broadcasts HEARTBEAT; one received makes its sender a present peer with what the frame says, heard on that link, and a member that newly mismatches is recorded; without one for PEER_MS the peer is no longer present. A standby takes the JREP entries that continue its journal and asks the holder from its HIGH + 1 on over a gap; it sends JACK with its HIGH after 200 µs while HIGH advances.
The holder takes a present peer's JACK into the durable watermark. An XREQ is answered in XFER frames from the JSN asked on and an end; XFER entries are appended where they continue the journal, and a resynchronising unit's first returned entry that matches its own last one is followed by the rest, while another makes it ask for a checkpoint. -/
def Obligations.HeartbeatsAndReplication : Prop :=
  (∀ (s s1 u : State) (p : Nat) (hb : Bytes), s.sef.on = true → s.sef.pos = some p → s1 = s.until (s.sef.hbAt + msU 1) → u = ((({ s1 with sef := { s1.sef with hbAt := s1.t } } : State).linkPut 0 (sefFrame 2 0 p 0x3F s.unitId hb)).linkPut 1 (sefFrame 2 0 p 0x3F s.unitId hb)) →
    hb = le 1 s.sef.state ++ le 1 (if s.rank = 3 then 0xFF else s.rank) ++ le 1 (if s.sef.driver then 1 else 0) ++ le 1 0 ++ le 4 s.cfg.sysaddr ++ fit 8 s.cfg.hash ++ le 8 s.seq.nextJsn ++ le 8 s.high ++ le 8 s.ctx.nextVsn ++ le 4 s.net.session →
    (s.boot.bcast = none → exec .heartbeatSend s = .next u) ∧
    (∀ (k : Nat) (v : State), s.boot.bcast = some k → v = { u with boot := { u.boot with bcast := none } } →
      (s.boot.updMode ≠ 1 → s.boot.updMode ≠ 2 → exec .heartbeatSend s = .next v) ∧
      (s.boot.updMode = 1 ∨ s.boot.updMode = 2 → exec .heartbeatSend s = .next ((imageFrames ((s.nor.fwImage k).1 ++ (s.nor.fwImage k).2)).foldl (fun a b => State.q8Drain 1 (a.ringPacket 8 12 (BitVec.ofNat 32 63 :: toWs b))) v)))) ∧
  (∀ s : State, s.sef.on = false ∨ s.sef.pos = none → exec .heartbeatSend s = .next s) ∧
  (∀ (s : State) (link : Nat) (f b : Bytes) (a r : List (Nat × Bytes)) (p : Peer), s.sef.inbox = a ++ (link, f) :: r → (∀ x ∈ a, sefType x.2 ≠ 2) → sefType f = 2 → s.rpl.fetch = none → b = sefBody f →
    p = { pos := sefSrc f, unitId := sub 8 8 f, state := fld 0 1 b, rank := fld 1 1 b, token := fld 2 1 b == 1, sysaddr := fld 4 4 b, cfg8 := sub 8 8 b, nextJsn := fld 16 8 b, high := fld 24 8 b, vsn := fld 32 8 b,
          session := fld 40 4 b, heardAt := s.t, link := link, present := true, jack := match s.sef.peers.find? fun q => q.pos == sefSrc f with | some q => q.jack | none => 0 } →
    ∃ (t : State), exec .heartbeat s = .next t ∧ t.sef.inbox = a ++ r ∧ t.sef.peers = (s.sef.peers.filter fun q => q.pos ≠ p.pos) ++ [p] ∧
      (fld 1 1 f % 32 ≠ 0 → t.sef.links = s.sef.links) ∧ (∀ l, fld 1 1 f % 32 = 0 → s.sef.links[link]? = some l → t.sef.links = s.sef.links.set link { l with partner := some p.pos }) ∧
      t.seq = s.seq ∧ t.ctx = s.ctx ∧ t.erg = s.erg ∧ t.emitted = s.emitted ∧ t.sef.driver = s.sef.driver ∧ t.sef.state = s.sef.state ∧
      (s.peerMatches p = true ∨ s.rankAt p.pos = none ∨ s.sef.pos = some p.pos ∨ p.state = 7 ∨ (∃ q, (s.sef.peers.find? fun q => q.pos == p.pos) = some q ∧ s.peerMatches q = false) → t.rings = s.rings ∧ t.regs = s.regs) ∧
      (s.peerMatches p = false → s.rankAt p.pos ≠ none → s.sef.pos ≠ some p.pos → p.state ≠ 7 → (∀ q, (s.sef.peers.find? fun q => q.pos == p.pos) = some q → s.peerMatches q = true) → t.rings = (s.event 0x6C p.pos).rings)) ∧
  (∀ (p : Fin 32) (s s1 u : State) (q : Peer), (s.sef.peers.find? fun x => x.pos == p.val && x.present) = some q → s1 = s.until (q.heardAt + msU (s.fld rSefTiming 19 10)) →
    u = { s1 with sef := { s1.sef with peers := s.sef.peers.map fun y => if y.pos = p.val then { y with present := false } else y } } →
    (u.peersPresent = [] → s.peersPresent ≠ [] → exec (.peerTimeout p) s = .next (({ u with sef := { u.sef with aloneAt := s1.t } } : State).judgeVotes)) ∧
    (u.peersPresent ≠ [] ∨ s.peersPresent = [] → exec (.peerTimeout p) s = .next u.judgeVotes)) ∧
  (∀ (p : Fin 32) (s : State), (∀ q ∈ s.sef.peers, q.pos = p.val → q.present = false) → exec (.peerTimeout p) s = .next s) ∧
  (∀ (s s1 : State) (link : Nat) (f : Bytes) (a r : List (Nat × Bytes)) (es : List Entry), s.sef.inbox = a ++ (link, f) :: r → (∀ x ∈ a, sefType x.2 ≠ 3) → s1 = { s with sef := { s.sef with inbox := a ++ r } } → sefType f = 3 → es = (entriesOf ((sefBody f).drop 12)).take (fld 8 2 (sefBody f)) →
    (∀ u : State, s.standsBy = true → u = s1.adoptAll es →
      (es = [] ∨ u.holderPeer = none → exec .jrep s = .next u) ∧
      (∀ (e : Entry) (p : Peer), es.getLast? = some e → u.holderPeer = some p →
        (e.jsn < u.seq.nextJsn → exec .jrep s = .next u) ∧ (u.seq.nextJsn ≤ e.jsn → exec .jrep s = .next (u.sefSend 6 p.pos (le 1 0 ++ List.replicate 7 0 ++ le 8 (u.high + 1))))) ∧
      ((∀ x ∈ es, x.jsn ≠ s.seq.nextJsn) → u = s1) ∧
      (∀ e : Entry, es = [e] → e.jsn = s.seq.nextJsn → e.kind ≠ .drbgDraw → e.kind ≠ .ckpt → s.joinWaits e = false → u.seq.journal = s.seq.journal ++ [e] ∧ u.seq.nextJsn = s.seq.nextJsn + 1 ∧ u.erg.toDispatch = s.erg.toDispatch ++ [e])) ∧
    (∀ y : Resync, s.standsBy = false → s.sef.resync = some y → exec .jrep s = .next { s1 with sef := { s1.sef with resync := some { y with entries := y.entries ++ es } } }) ∧
    (s.standsBy = false → s.sef.resync = none → exec .jrep s = .next s1)) ∧
  (∀ (s s1 : State) (link h : Nat) (f : Bytes) (a r : List (Nat × Bytes)), s.sef.inbox = a ++ (link, f) :: r → (∀ x ∈ a, sefType x.2 ≠ 4) → sefType f = 4 → h = fld 0 8 (sefBody f) →
    s1 = { s with sef := { s.sef with inbox := a ++ r, peers := s.sef.peers.map fun p => if p.pos = sefSrc f then { p with jack := h } else p } } →
    (s.triad = true → s.sef.driver = true → (∃ p ∈ s1.peersPresent, p.pos = sefSrc f) → exec .jack s = .next (s1.raiseDurable (min h s.high))) ∧
    (s.triad = false ∨ s.sef.driver = false ∨ (∀ p ∈ s1.peersPresent, p.pos ≠ sefSrc f) → exec .jack s = .next s1)) ∧
  (∀ (s s1 : State) (p : Peer), s.holderPeer = some p → s.triad = true → s.sef.driver = false → s.sef.state = 3 ∨ s.sef.state = 6 → s1 = s.until (s.sef.jackAt + usU 200) →
    (s.sef.jackHigh < s.high → exec .jackSend s = .next (({ s1 with sef := { s1.sef with jackAt := s1.t, jackHigh := s.high } } : State).sefSend 4 p.pos (le 8 s.high))) ∧
    (s.high ≤ s.sef.jackHigh → exec .jackSend s = .next s)) ∧
  (∀ s : State, s.holderPeer = none ∨ s.sef.driver = true ∨ (s.sef.state ≠ 3 ∧ s.sef.state ≠ 6) → exec .jackSend s = .next s) ∧
  (∀ (s s1 : State) (link src from_ : Nat) (f b end_ : Bytes) (part : Nat → Nat → Bytes → Bytes) (a r : List (Nat × Bytes)), s.sef.inbox = a ++ (link, f) :: r → (∀ x ∈ a, sefType x.2 ≠ 6) → s1 = { s with sef := { s.sef with inbox := a ++ r } } → sefType f = 6 → b = sefBody f →
    src = sefSrc f → from_ = fld 8 8 b → part = (fun n off d => le 1 n ++ List.replicate 7 0 ++ le 8 off ++ d) → end_ = part 4 0 [] →
    (s.votes = false → (∃ p ∈ s.sef.peers, p.pos = src ∧ p.state = 7) → exec .xreq s = .next s1) ∧
    (s.votes = true ∨ (∀ p ∈ s.sef.peers, p.pos = src → p.state ≠ 7) →
      (fld 0 1 b = 0 → exec .xreq s = .next (((packEntries (s.seq.journal.filter fun e => decide (from_ ≤ e.jsn))).foldl (fun u x => u.sefSend 7 src (part 0 x.1 x.2)) s1).sefSend 7 src end_)) ∧
      (fld 0 1 b = 0 → (∀ e ∈ s.seq.journal, e.jsn < from_) → exec .xreq s = .next (s1.sefSend 7 src end_)) ∧
      (∀ e : Entry, fld 0 1 b = 0 → (s.seq.journal.filter fun x => decide (from_ ≤ x.jsn)) = [e] → exec .xreq s = .next ((s1.sefSend 7 src (part 0 e.jsn e.bytes)).sefSend 7 src end_)) ∧
      (fld 0 1 b = 3 → exec .xreq s = .next (((piecesOf ((s.obox.filter fun o => decide (from_ ≤ o.rsn)).flatMap fun o => le 8 o.rsn ++ batchRecord o.rtype o.bytes)).foldl (fun u x => u.sefSend 7 src (part 3 x.1 x.2)) s1).sefSend 7 src end_)) ∧
      (fld 0 1 b ≠ 0 → fld 0 1 b ≠ 3 → s.seq.ckpts = [] → exec .xreq s = .next (s1.sefSend 7 src end_)) ∧
      (∀ k : Ckpt, fld 0 1 b ≠ 0 → fld 0 1 b ≠ 3 → s.seq.ckpts.getLast? = some k →
        exec .xreq s = .next (((piecesOf ((s.obox.filter fun o => decide (s.ctx.acked ≤ o.rsn) && decide (o.rsn < k.ctx.nextRsn)).flatMap fun o => batchRecord o.rtype o.bytes)).foldl (fun u x => u.sefSend 7 src (part 3 x.1 x.2))
          ((piecesOf k.body).foldl (fun u x => u.sefSend 7 src (part 2 x.1 x.2)) (s1.sefSend 7 src (part 1 0 k.desc)))).sefSend 7 src end_)))) ∧
  (∀ (s s1 : State) (link : Nat) (f b : Bytes) (a r : List (Nat × Bytes)) (es : List Entry), s.sef.inbox = a ++ (link, f) :: r → (∀ x ∈ a, sefType x.2 ≠ 7) → s1 = { s with sef := { s.sef with inbox := a ++ r } } → sefType f = 7 → b = sefBody f → es = entriesOf (b.drop 16) → s.rpl.fetch = none →
    (s.sef.catchUp = none → s.sef.resync = none → s.standsBy = true → fld 0 1 b = 0 → exec .xfer s = .next (s1.adoptAll es)) ∧
    (∀ c : CatchUp, s.sef.catchUp = some c → sefSrc f ∈ c.asked → fld 0 1 b = 0 → exec .xfer s = .next (s1.adoptAll es)) ∧
    (∀ c : CatchUp, s.sef.catchUp = some c → fld 0 1 b = 4 → sefSrc f ∈ c.asked → (∃ p ∈ c.asked, p ≠ sefSrc f) →
      exec .xfer s = .next { s1 with sef := { s1.sef with catchUp := some { c with asked := c.asked.filter fun p => p ≠ sefSrc f } } }) ∧
    (∀ (y : Resync) (o e : Entry) (rest : List Entry), s.sef.catchUp = none → s.sef.resync = some y → y.peer = sefSrc f → y.phase = 0 → fld 0 1 b = 0 → s.seq.journal.getLast? = some o → es = e :: rest →
      (e.bytes = o.bytes → exec .xfer s = .next ((s1.adoptAll rest).setSef fun x => { x with resync := some { y with phase := 3, fetched := y.fetched + rest.length } })) ∧
      (e.bytes ≠ o.bytes → exec .xfer s = .next ((({ s1 with sef := { s1.sef with resync := some { y with phase := 1 } } } : State).event 0x69 1).sefSend 6 y.peer (le 1 1 ++ List.replicate 7 0 ++ le 8 0)))) ∧
    (∀ y : Resync, s.sef.catchUp = none → s.sef.resync = some y → y.peer = sefSrc f → fld 0 1 b = 2 → exec .xfer s = .next { s1 with sef := { s1.sef with resync := some { y with body := y.body ++ [(fld 8 8 b, b.drop 16)] } } })) ∧
  (∀ s : State, ((∀ x ∈ s.sef.inbox, sefType x.2 ≠ 2) → exec .heartbeat s = .next s) ∧ ((∀ x ∈ s.sef.inbox, sefType x.2 ≠ 3) → exec .jrep s = .next s) ∧ ((∀ x ∈ s.sef.inbox, sefType x.2 ≠ 4) → exec .jack s = .next s) ∧
    ((∀ x ∈ s.sef.inbox, sefType x.2 ≠ 6) → exec .xreq s = .next s) ∧ ((∀ x ∈ s.sef.inbox, sefType x.2 ≠ 7) → exec .xfer s = .next s))

/-- Votes and the token (R542, R622 to R637). Every DIGEST_US, or at once with 1,022 waiting, a voting unit sends its digests to every present peer; an equal digest of a present peer agrees an output. A unit whose digest differs from two equal ones releases its driver, enters FAULT, counts and records the vote loss; a disagreement of two, or of three, is SPLIT. A unit that may claim asserts its driver when TOKEN_N has been high for 2 ms and 1 ms more for each better claimant, and stays otherwise. It enters ACTIVE, counts the claim and takes up its duties or asks each peer from its HIGH + 1 on; peers that stay silent for CATCHUP_MS are recorded.
Without a kick, which only device code gives, the driver is released after 25 ms and the main domain resets 10 ms later. A release command releases it too; the unit is SYNCING and its held transmit packets are gone. A line low without a holder, and a role that differs from the driver, are recorded, the role corrected. A unit that is to resynchronise asks the holder, or a standby in sync, from its last entry on. -/
def Obligations.VotesAndToken : Prop :=
  (∀ (s s1 : State) (d : Nat × Bytes) (ds : List (Nat × Bytes)), s.triad = true → s.votes = true → s1 = (if 1022 ≤ s.digestsDue.length then s else s.until (s.sef.digestAt + usU (s.fld rSefTiming 31 20))) → s.digestsDue.take 1022 = d :: ds →
    exec .digestSend s = .next ((s1.sefSendTo 5 s.peersPresent (le 8 d.1 ++ le 2 (ds.length + 1) ++ le 2 0 ++ d.2 ++ ds.flatMap (·.2))).setSef fun x =>
      { x with digestAt := s1.t, unsent := s.sef.unsent.drop (ds.length + 1), digestFrom := max s.sef.digestFrom (d.1 + (ds.length + 1)) }).judgeVotes) ∧
  (∀ s s1 : State, s.triad = true → s.votes = true → s.digestsDue = [] → s1 = s.until (s.sef.digestAt + usU (s.fld rSefTiming 31 20)) → exec .digestSend s = .next { s1 with sef := { s1.sef with digestAt := s1.t } }) ∧
  (∀ s : State, s.triad = false ∨ s.votes = false → exec .digestSend s = .next s) ∧
  (∀ (s s1 : State) (link v : Nat) (f b : Bytes) (a r : List (Nat × Bytes)) (o : Output) (d : Bytes), s.sef.inbox = a ++ (link, f) :: r → (∀ x ∈ a, sefType x.2 ≠ 5) → sefType f = 5 → b = sefBody f → fld 8 2 b = 1 → fld 0 8 b = s.ctx.nextVsn → v = s.ctx.nextVsn → d = sub 12 8 b →
    s.numbered = [(v, o)] → s.sef.peerVotes = [] → s.triad = true → s.votes = true → v ∉ s.sef.votes → s.sef.agreedBelow ≤ v → (∃ p ∈ s.peersPresent, p.pos = sefSrc f ∧ (p.state = 3 ∨ p.state = 4 ∨ p.state = 6)) →
    s1 = { s with sef := { s.sef with inbox := a ++ r, peerVotes := [{ pos := sefSrc f, vsn := v, digest := d }] } } →
    (d = o.digest → exec .digest s = .next { s1 with sef := { s1.sef with votes := s.sef.votes ++ [v] } }) ∧
    (d ≠ o.digest → 1 < s.voters.length → exec .digest s = .next s1) ∧
    (d ≠ o.digest → s.voters.length = 1 → exec .digest s = .next ((({ s1 with sef := { s1.sef with state := 6, splitAt := some v } } : State).irq rSefIrq 8).event 0x68 (v % 2 ^ 32)))) ∧
  (∀ (s s1 : State) (link v : Nat) (f b : Bytes) (a r : List (Nat × Bytes)) (o : Output) (d : Bytes) (w : PeerVote), s.sef.inbox = a ++ (link, f) :: r → (∀ x ∈ a, sefType x.2 ≠ 5) → sefType f = 5 → b = sefBody f → fld 8 2 b = 1 → fld 0 8 b = s.ctx.nextVsn → v = s.ctx.nextVsn → d = sub 12 8 b →
    s.numbered = [(v, o)] → s.sef.peerVotes = [w] → w.vsn = v → w.pos ≠ sefSrc f → w.digest ≠ o.digest → d ≠ o.digest → s.triad = true → s.votes = true → v ∉ s.sef.votes → s.sef.agreedBelow ≤ v →
    (∃ p ∈ s.peersPresent, p.pos = sefSrc f ∧ (p.state = 3 ∨ p.state = 4 ∨ p.state = 6)) → (∃ p ∈ s.peersPresent, p.pos = w.pos ∧ (p.state = 3 ∨ p.state = 4 ∨ p.state = 6)) →
    s1 = { s with sef := { s.sef with inbox := a ++ r, peerVotes := [w, { pos := sefSrc f, vsn := v, digest := d }] } } →
    (w.digest = d → exec .digest s = .next ((((s1.dropToken 2 5).count rSefVotemis 1).irq rSefIrq 7).event 0x67 (v % 2 ^ 32))) ∧
    (w.digest ≠ d → exec .digest s = .next ((({ s1 with sef := { s1.sef with state := 6, splitAt := some v } } : State).irq rSefIrq 8).event 0x68 (v % 2 ^ 32)))) ∧
  (∀ s : State, (∀ x ∈ s.sef.inbox, sefType x.2 ≠ 5) → exec .digest s = .next s) ∧
  (∀ (dt highFor o : Nat) (high : Bool) (s s1 u : State), s1 = s.advance dt → o = (if s.triad then s1.claimOrder else 0) →
    (s1.mayClaim = false → exec (.tokenClaim dt high highFor) s = .next s1) ∧
    (s1.mayClaim = true → high = false → exec (.tokenClaim dt high highFor) s = .next { s1 with sef := { s1.sef with lineLow := true, lineSince := s1.t } }) ∧
    (s1.mayClaim = true → high = true → highFor < msU (2 + o) → exec (.tokenClaim dt high highFor) s = .next s1) ∧
    (s1.mayClaim = true → high = true → msU (2 + o) ≤ highFor →
      u = (((({ s1 with sef := { s1.sef with driver := true, state := 4, lineLow := true, lineSince := s1.t, kickAt := s1.t, catchUp := if s.peersPresent = [] then none else some { asked := s.peersPresent.map (·.pos), since := s1.t } } } : State).count rSefTakecnt 1).irq rSefIrq 3).event 0x63 (s.high % 2 ^ 32)) →
      exec (.tokenClaim dt high highFor) s = .next (if s.peersPresent = [] then u.takeDuties else s.peersPresent.foldl (fun a p => a.sefSend 6 p.pos (le 1 0 ++ List.replicate 7 0 ++ le 8 (s.high + 1))) u))) ∧
  (∀ (s s1 : State) (c : CatchUp), s.sef.catchUp = some c → s1 = s.until (c.since + msU (s.fld rSefTiming 9 0)) → exec .catchupTimeout s = .next (c.asked.foldl (fun a p => a.event 0x6B p) s1).takeDuties) ∧
  (∀ s : State, s.sef.catchUp = none → exec .catchupTimeout s = .next s) ∧
  (∀ (w : Who) (s : State), w ≠ .dev → exec (.sefKick w) s = .next { s with reply := s.reply.put w .busError } ∧ exec (.sefRelease w) s = .next { s with reply := s.reply.put w .busError }) ∧
  (∀ s : State, exec (.sefKick .dev) s = .next { s with sef := { s.sef with kickAt := s.t }, reply := { s.reply with dev := .done } }) ∧
  (∀ s : State, s.sef.driver = false → exec (.sefRelease .dev) s = .next { s with reply := { s.reply with dev := .done } }) ∧
  (∀ (c : Instr) (s s1 : State) (why : Nat), s.Inv → s.sef.driver = true → s.sef.resetAt = none → (c = .sefRelease .dev ∧ s1 = s ∧ why = 1) ∨ (c = .tokenWatchdog ∧ s1 = s.until (s.sef.kickAt + msU 25) ∧ why = 0) →
    ∃ t, exec c s = .next t ∧ t.sef.driver = false ∧ t.seq = { s.seq with holder := false, hold := none } ∧ t.sef.state = (if s.sef.state = 6 then 6 else 2) ∧ t.sef.catchUp = none ∧ t.bitOf rSefIrq 4 = true ∧ t.radTx = false ∧ t.plcTx = false ∧ (s.pow.phase ≠ .alarmHold → t.netTx = false) ∧
      t.rad = { s.rad with downs := [], acks := [], xch := none } ∧ t.plc = { s.plc with downs := [], txq := [], shorts := [], sent := [] } ∧ t.sef.resetAt = (if why = 0 then some (s1.t + msU 10) else none) ∧
      SameRings s t [2, 4, 14] ∧ t.ctx = s.ctx ∧ t.obox = s.obox ∧ t.erg = s.erg ∧ t.emitted = s.emitted ∧ t.t = s1.t) ∧
  (∀ (s : State) (r : Nat), s.sef.resetAt = some r → exec .tokenWatchdog s = .next ((s.until r).mainReset .rom 3)) ∧
  (∀ s : State, s.sef.driver = false → s.sef.resetAt = none → exec .tokenWatchdog s = .next s) ∧
  (∀ (dt : Nat) (s s1 : State), s1 = s.advance dt →
    (s.triad = true → s.sef.on = true → s.sef.driver = false → (∀ p ∈ s.sef.peers, p.present = false ∨ p.token = false ∨ s.rankAt p.pos = none) →
      exec (.tokenFault dt) s = .next ((({ s1 with sef := { s1.sef with lineLow := true } } : State).irq rSefIrq 5).event 0x65 0)) ∧
    (s.triad = false ∨ s.sef.on = false ∨ s.sef.driver = true ∨ (∃ p ∈ s.sef.peers, p.present = true ∧ p.token = true ∧ s.rankAt p.pos ≠ none) → exec (.tokenFault dt) s = .next s1)) ∧
  (∀ s : State, (s.sef.role ≠ s.sef.driver → exec .roleConflict s = .next ((({ s with sef := { s.sef with role := s.sef.driver } } : State).irq rSefIrq 6).event 0x66 (if s.sef.driver then 1 else 0))) ∧
    (s.sef.role = s.sef.driver → exec .roleConflict s = .next s)) ∧
  (∀ (s : State) (p : Peer) (j : Nat), s.triad = true → s.pow.phase = .service → s.sef.driver = false → s.sef.resync = none → s.sef.state = 5 ∨ s.sef.state = 2 ∨ (s.sef.state = 1 ∧ s.sef.pos ≠ none ∧ s.holderPeer ≠ none ∧ s.sef.posAt + msU (s.fld rSefTiming 19 10) ≤ s.t) →
    s.holderPeer = some p ∨ (s.holderPeer = none ∧ (s.peersPresent.find? fun q => q.state == 3) = some p) → j = (match s.seq.journal.getLast? with | some e => e.jsn | none => 0) →
    exec .resync s = .next ((({ s with sef := { s.sef with state := 2, resync := some { peer := p.pos, phase := 0 } } } : State).event 0x69 0).sefSend 6 p.pos (le 1 0 ++ List.replicate 7 0 ++ le 8 j))) ∧
  (∀ s : State, s.triad = false ∨ s.pow.phase ≠ .service ∨ s.sef.driver = true ∨ s.sef.resync ≠ none ∨ (s.sef.state ≠ 1 ∧ s.sef.state ≠ 2 ∧ s.sef.state ≠ 5) ∨ (s.holderPeer = none ∧ ∀ p ∈ s.peersPresent, p.state ≠ 3) → exec .resync s = .next s)

/-- The supply warning and its end (R92, R651 to R657, R659). Only the first warning of a unit in service starts the sequence. Step 1 holds the six ingress rings that are enabled, sets KHAMSIN and SYS_IRQ.WARN and ends power-line transmission; step 2 journals SUP_WARN, whose first byte names what warned; step 4 writes the outage record, its stamp and JSN, with ORDERLY when it is durable, unless the bridge has locked; the last gasps go out only where SYS_GASP asks.
A dip's end unlocks the bridge and, when a sequence runs, journals SUP_DIP with the time in µs that SYS_DIP shows, sets SYS_IRQ.DIP, releases the rings and clears KHAMSIN. The bridge locks at V_LOCK. -/
def Obligations.SupplyWarningAndDip : Prop :=
  (∀ (dt : Nat) (pfail : Bool) (steps : Fin 7) (s s1 : State), s1 = s.advance dt → s.pow.kham ≠ none ∨ s.bitOf rJsqCtl 0 = false →
    exec (.supplyWarning dt pfail steps) s = .next { s1 with pow := { s1.pow with warn := true, pfail := s.pow.pfail || pfail } }) ∧
  (∀ (dt : Nat) (pfail : Bool) (s s1 : State), s.Inv → s1 = s.advance dt → s.pow.kham = none → s.bitOf rJsqCtl 0 = true →
    ∃ t, exec (.supplyWarning dt pfail 1) s = .next t ∧ t.pow = { s.pow with warn := true, pfail := s.pow.pfail || pfail, kham := some { from_ := s1.t, pfail := pfail, step := 1 } } ∧
      (∀ n, t.ring n = if [1, 3, 5, 7, 9, 15].contains n && (s.ring n).en then { s.ring n with held := true } else s.ring n) ∧ t.bitOf rSysIrq 0 = true ∧ SameRegs s t [rSysIrq] ∧
      t = { s1 with regs := t.regs, rings := t.rings, pow := t.pow, seq := { s1.seq with khamsin := true }, med := { s1.med with khamsin := s1.med.run },
                    plc := { s1.plc with phases := s1.plc.phases.map fun p => { p with txEnd := min p.txEnd p.count, sending := [] } } }) ∧
  (∀ (dt : Nat) (pfail : Bool) (s s1 : State) (r : Ring), s.Inv → s1 = s.advance dt → s.pow.kham = none → s.seqTakes = true → s.tasksUsed < 32768 → s.seq.hold = none → s.ring 0 = r → r.en = true → r.opn = .closed → r.pend = 0 → r.held = false → r.waiting = [] → r.remain = 0 →
    r.vis = r.w → r.r = r.w → 16 ≤ r.size →
    ∃ t e, exec (.supplyWarning dt pfail 2) s = .next t ∧ t.seq.journal = s.seq.journal ++ [e] ∧ t.seq.nextJsn = s.seq.nextJsn + 1 ∧ e.kind = .supWarn ∧ e.jsn = s.seq.nextJsn ∧ e.stamp = s1.dev % 2 ^ 64 ∧ e.payload = [if pfail then 1 else 0] ∧
      t.pow.kham = some { from_ := s1.t, pfail := pfail, warn := some (e.jsn, e.stamp), step := 2 } ∧ t.seq.khamsin = true ∧ t.erg.toDispatch = s.erg.toDispatch ++ [e] ∧ t.med = { s.med with khamsin := s.med.run } ∧ t.oas = s1.oas ∧ t.obox = s.obox) ∧
  (∀ (dt j st : Nat) (pfail : Bool) (s u : State) (k : Khamsin), s.Inv → s.pow.kham = none → s.bitOf rJsqCtl 0 = true → exec (.supplyWarning dt pfail 3) s = .next u → u.pow.kham = some k → k.warn = some (j, st) →
    (u.locked = true → exec (.supplyWarning dt pfail 4) s = .next { u with pow := { u.pow with kham := some { k with step := 4 } } }) ∧
    (u.locked = false →
      ∃ t, exec (.supplyWarning dt pfail 4) s = .next t ∧ t.reg rOasOutageLo = st % 4294967296 ∧ t.reg rOasOutageHi = st / 4294967296 % 4294967296 ∧ t.reg rOasOutjsnLo = j % 4294967296 ∧ t.reg rOasOutjsnHi = j / 4294967296 % 4294967296 ∧
        t.bitOf rOasPwr 3 = decide (j ≤ u.seq.durable) ∧ (∀ n, n ≠ 3 → n < 32 → t.bitOf rOasPwr n = u.bitOf rOasPwr n) ∧ SameRegs u t [rOasOutageLo, rOasOutageHi, rOasOutjsnLo, rOasOutjsnHi, rOasPwr] ∧
        t = { u with regs := t.regs, pow := { u.pow with kham := some { k with step := 4 } } })) ∧
  (∀ (dt : Nat) (pfail : Bool) (s u : State) (k : Khamsin), s.pow.kham = none → s.bitOf rJsqCtl 0 = true →
    (exec (.supplyWarning dt pfail 4) s = .next u → u.pow.kham = some k → u.bitOf rSysGasp 0 = false ∨ u.netTx = false → exec (.supplyWarning dt pfail 5) s = .next { u with pow := { u.pow with kham := some { k with step := 5 } } }) ∧
    (∀ (j st : Nat) (v : State), exec (.supplyWarning dt pfail 4) s = .next u → u.pow.kham = some k → k.warn = some (j, st) → u.bitOf rSysGasp 0 = true → u.netTx = true → v = u.gaspRecord 0x70 (if k.pfail then 1 else 0) (le 8 j ++ le 8 u.seq.durable) →
      exec (.supplyWarning dt pfail 5) s = .next { v with pow := { v.pow with kham := some { k with net := true, step := 5 } } }) ∧
    (exec (.supplyWarning dt pfail 5) s = .next u → u.pow.kham = some k → u.fld rSysGasp 2 1 = 0 → exec (.supplyWarning dt pfail 6) s = .next { u with pow := { u.pow with kham := some { k with step := 6 } } })) ∧
  (∀ (dt : Nat) (s s1 : State), s1 = s.advance dt →
    exec (.bridgeLock dt) s = .next { s1 with locked := true } ∧
    (s.pow.phase = .off ∨ s.pow.warn = false → exec (.dipEnd dt) s = .next s1) ∧
    (s.pow.phase ≠ .off → s.pow.warn = true → s.pow.kham = none → exec (.dipEnd dt) s = .next { s1 with locked := false, pow := { s1.pow with warn := false, pfail := false } }) ∧
    (∀ (k : Khamsin) (us : Nat) (r : Ring), s.Inv → s.pow.phase ≠ .off → s.pow.warn = true → s.pow.kham = some k → k.net = false → k.chans = [] → us = min 4294967295 ((s1.t - k.from_) * 1000000 / 268435456) → s.seqTakes = true → s.tasksUsed < 32768 → s.seq.hold = none →
      s.ring 0 = r → r.en = true → r.opn = .closed → r.pend = 0 → r.held = false → r.waiting = [] → r.remain = 0 → r.vis = r.w → r.r = r.w → 16 ≤ r.size →
      ∃ t e, exec (.dipEnd dt) s = .next t ∧ t.seq.journal = s.seq.journal ++ [e] ∧ t.seq.nextJsn = s.seq.nextJsn + 1 ∧ e.kind = .supDip ∧ e.jsn = s.seq.nextJsn ∧ e.stamp = s1.dev % 2 ^ 64 ∧ e.payload = le 4 us ∧ t.reg rSysDip = us ∧ t.bitOf rSysIrq 1 = true ∧
        t.locked = false ∧ t.pow = { s.pow with warn := false, pfail := false, kham := none } ∧ t.seq.khamsin = false ∧ t.med = { s.med with khamsin := false, nand := s.med.nand.renewReserve (s.med.slcPrefix ≠ 0) } ∧ (∀ n ∈ [1, 3, 5, 7, 9, 15], (t.ring n).held = false)))

/-- Resets, clocks, the Oasis supply and the governor (R142, R643, R645, R648, R651, R663, R665, R667 to R669, R671). At power-on the main domain leaves reset with the bridge unlocked and the Oasis on VIO3. RESET_N and V_RESET put the main domain to its reset values, their cause in SYS_RSTCAUSE, and leave every OAS register but OAS_PWR's SRC and HOLD; V_RESET locks the bridge, puts the Oasis on VBAT and holds PWRON_CTL for OFF_MS. A PLL that loses lock shows it and raises CLK_FAULT; PLL_A resets the main domain, PLL_B brings the links down, the radio
synthesizer ends the exchange. PWRON_CTL is released after OFF_MS, by WAKE_N, below 1.80 V on VBAT, which latches TIME_LOST, and when the Oasis resets to its reset values. A VBAT reading below 2.20 V is flagged and recorded. The governor lowers MAX_AWAKE by 1 every 100 ms while TJ is at T_HI or above, raises it every second while 5 °C below, and sets it to 1 at 125 °C. -/
def Obligations.ResetsClocksAndSupplies : Prop :=
  (∀ (dt : Nat) (s s1 : State), s1 = s.advance dt →
    (s.pow.phase ≠ .off → exec (.powerOn dt) s = .next s1) ∧
    (s.pow.phase = .off →
      exec (.powerOn dt) s = .next ((({ s1 with locked := false, pow := { s1.pow with phase := .rom, rails := true, warn := false, pfail := false, vbatAt := if s.pow.rails then s.pow.vbatAt else s1.t } } : State).setBit rOasPwr 0 false).setBit rSysClk 0 true))) ∧
  (∀ (c : Instr) (dt off : Nat) (s s1 : State), s.Inv → s1 = s.advance dt → off = min 10000 (s.fld rOasPwr 29 16) → c = .resetNAssert dt ∨ c = .supplyReset dt →
    ∃ t, exec c s = .next t ∧ t.pow.phase = .off ∧ t.reg rSysRstcause = (if c = .resetNAssert dt then 1 else 2) ∧ (∀ a, inOas a = true → a ≠ rOasPwr → t.reg a = s.reg a) ∧ (∀ a, inOas a = false → a ≠ rSysRstcause → t.reg a = (regReset a).toNat) ∧
      t.oas = s1.oas ∧ t.t = s1.t ∧ t.dev = 0 ∧ t.rings = List.replicate 16 {} ∧ t.seq = {} ∧ t.erg = {} ∧ t.ctx = {} ∧ t.cfg = {} ∧ t.wram = [] ∧ t.code = [] ∧ t.sysKey = none ∧ t.sef.driver = false ∧ t.sef.on = false ∧
      t.obox = s.obox.filter (fun r => r.durable) ∧ t.nor = s.nor ∧ t.sec.otp = s.sec.otp ∧ t.med.run = false ∧ t.med.nand.units = s.med.nand.units ∧ t.med.nand.ckpts = s.med.nand.ckpts ∧ t.evr.log = s.evr.log ∧ t.emitted = s.emitted ∧
      (c = .resetNAssert dt → t.reg rOasPwr = s.reg rOasPwr ∧ t.locked = s.locked ∧ t.pow.rails = s.pow.rails ∧ t.pow.pwronAt = s.pow.pwronAt) ∧
      (c = .supplyReset dt → t.locked = true ∧ t.pow.rails = false ∧ t.bitOf rOasPwr 0 = true ∧ t.fld rOasPwr 29 16 = s.fld rOasPwr 29 16 ∧
        (off ≠ 0 → t.pow.pwronAt = some (s1.t + msU off) ∧ t.bitOf rOasPwr 2 = true) ∧ (off = 0 → t.pow.pwronAt = none ∧ t.bitOf rOasPwr 2 = s.bitOf rOasPwr 2))) ∧
  (∀ (dt : Nat) (n : Fin 4) (s s1 : State), s1 = s.advance dt →
    (s.pow.locks.getD n.val false = false → exec (.pllUnlock dt n) s = .next s1) ∧
    (s.Inv → n = 0 → s.pow.locks.getD 0 false = true → ∃ t, exec (.pllUnlock dt n) s = .next t ∧ t.pow.phase = .rom ∧ t.reg rSysRstcause = 6 ∧ (∀ a, inOas a = true → t.reg a = s.reg a) ∧ t.rings = List.replicate 16 {} ∧ t.seq = {} ∧ t.ctx = {} ∧ t.sef.driver = false ∧ t.nor = s.nor ∧ t.locked = s.locked) ∧
    (∀ a b : SefLink, s.Inv → n = 1 → s.pow.locks.getD 1 false = true → s.sef.links = [a, b] →
      ∃ t, exec (.pllUnlock dt n) s = .next t ∧ t.pow.locks = s.pow.locks.set 1 false ∧ t.net.ports = s.net.ports.map (fun p => { p with up := false }) ∧ t.sef.links = [if a.up then { dis := a.dis } else a, if b.up then { dis := b.dis } else b] ∧
        t.bitOf rSysClk 6 = true ∧ t.bitOf rSysIrq 4 = true ∧ (a.up = true ∨ b.up = true → t.bitOf rSefIrq 2 = true) ∧ SameRegs s t [rSysClk, rSysIrq, rSefIrq] ∧ SameRings s t [14] ∧ t.seq = s.seq ∧ t.ctx = s.ctx) ∧
    (n = 2 → s.pow.locks.getD 2 false = true →
      ∃ t, exec (.pllUnlock dt n) s = .next t ∧ t = ((((({ s1 with pow := { s1.pow with locks := s.pow.locks.set 2 false } } : State).setBit rSysClk 7 true).irq rSysIrq 4).event 0x74 2).payTrain).txStop ∧ t.rad.xch = none ∧ t.rad.cutAt = some s1.t ∧ t.rad.acks = s.rad.acks ∧ t.emitted = s.emitted) ∧
    (n = 3 → s.pow.locks.getD 3 false = true → exec (.pllUnlock dt n) s = .next (((({ s1 with pow := { s1.pow with locks := s.pow.locks.set 3 false } } : State).setBit rSysClk 8 true).irq rSysIrq 4).event 0x74 3)) ∧
    (s.pow.plls.getD n.val false = false → exec (.pllRelock dt n) s = .next s1) ∧ (s.pow.plls.getD n.val false = true → exec (.pllRelock dt n) s = .next { s1 with pow := { s1.pow with locks := s.pow.locks.set n.val true } })) ∧
  (∀ (s : State) (d : Nat), s.pow.pwronAt = some d → exec .pwronHoldEnd s = .next (({ s.until d with pow := { s.pow with pwronAt := none } } : State).setBit rOasPwr 2 false)) ∧
  (∀ s : State, s.pow.pwronAt = none → exec .pwronHoldEnd s = .next s) ∧
  (∀ (dt : Nat) (s s1 : State), s1 = s.advance dt →
    exec (.wakeN dt) s = .next (({ s1 with pow := { s1.pow with pwronAt := none } } : State).setBit rOasPwr 2 false) ∧
    (s.bitOf rOasPwr 0 = false → exec (.vbatLatch dt) s = .next s1 ∧ exec (.oasisReset dt) s = .next s1) ∧
    (s.Inv → s.bitOf rOasPwr 0 = true →
      (∃ t, exec (.vbatLatch dt) s = .next t ∧ t.bitOf rOasStat 0 = true ∧ t.bitOf rOasPwr 2 = false ∧ t.bitOf rOasPwr 0 = true ∧ SameRegs s t [rOasStat, rOasPwr] ∧ t = { s1 with regs := t.regs, pow := { s1.pow with pwronAt := none } }) ∧
      (∃ t, exec (.oasisReset dt) s = .next t ∧ (∀ a, inOas a = true → t.reg a = (regReset a).toNat) ∧ (∀ a, inOas a = false → t.reg a = s.reg a) ∧ t.oas = {} ∧
        t = { s1 with regs := t.regs, latch := t.latch, oas := {}, pow := { s1.pow with pwronAt := none } }))) ∧
  (∀ (mv : Fin 4096) (s s1 : State), s1 = s.until (s.pow.vbatAt + 64 * 268435456) →
    (s.bitOf rOasPwr 0 = true → exec (.vbatMeasure mv) s = .next s) ∧
    (s.bitOf rOasPwr 0 = false → 2200 ≤ mv.val → exec (.vbatMeasure mv) s = .next (({ s1 with pow := { s1.pow with vbatAt := s1.t } } : State).setReg rOasVbat mv.val)) ∧
    (s.bitOf rOasPwr 0 = false → mv.val < 2200 →
      exec (.vbatMeasure mv) s = .next ((((({ s1 with pow := { s1.pow with vbatAt := s1.t } } : State).setReg rOasVbat mv.val).setBit rOasPwr 1 true).irq rSysIrq 2).event 0x72 mv.val))) ∧
  (∀ (tj hi : Int) (s s1 : State) (v : Nat), s.Inv → s1 = s.until (s.pow.thermAt + msU 10) → v = s.fld rSysTherm 7 0 → hi = (if 85 ≤ v ∧ v ≤ 120 then (v : Int) else 115) →
    (s.pow.phase = .off → exec (.thermalGovernor tj) s = .next s) ∧
    (s.pow.phase ≠ .off →
      ∃ t, exec (.thermalGovernor tj) s = .next t ∧ t.fld rSysTherm 25 16 = (tj % 1024).toNat ∧ t.fld rSysTherm 7 0 = v ∧ SameRegs s t [rSysTherm, rSysIrq, rErgIrq] ∧ SameRings s t [14] ∧ t.seq = s.seq ∧ t.ctx = s.ctx ∧ t.obox = s.obox ∧ t.emitted = s.emitted ∧
        (s.med.run = true → t.med.nand.temph = s.med.nand.temph.set (hoursBin (tj.fdiv 4)) (s.med.nand.temph.getD (hoursBin (tj.fdiv 4)) 0 + 1)) ∧ (s.med.run = false → t.med = s.med) ∧
        (500 ≤ tj → t.erg.maxAwake = 1 ∧ t.bitOf rSysIrq 3 = true) ∧
        (tj < 500 → 4 * hi ≤ tj → t.erg.maxAwake = (if s.pow.lowAt + msU 100 ≤ s1.t then max 1 (s.erg.maxAwake - 1) else s.erg.maxAwake) ∧ t.pow.highAt = s1.t) ∧
        (tj < 500 → tj < 4 * (hi - 5) → t.erg.maxAwake = (if s.pow.highAt + 268435456 ≤ s1.t then min 8 (s.erg.maxAwake + 1) else s.erg.maxAwake) ∧ t.pow.lowAt = s1.t) ∧
        (tj < 500 → 4 * (hi - 5) ≤ tj → tj < 4 * hi → t.erg.maxAwake = s.erg.maxAwake ∧ t.pow.lowAt = s1.t ∧ t.pow.highAt = s1.t)))

/-- Start-up (R3, R183, R484, R522, R547, R640, R647, R649, R675, R681, R691, R692, R697, R699). After a reset the ROM sees the board; a BLANK part is opened, a SCRAPPED one stays, RECOVER_N leads to recovery unless the unit is held, an image that is refused or gives no role to configuration wait, a card to its delivery, no passing slot to recovery; otherwise the slot's body is loaded, the sections
are applied and the ladder starts after the delay. Each rung comes a rung time after the one before: PLL_A, the arbiter, keys, media, the device port, the chain, dunes, time, the front end, the power line and the radio, those whose sections and keys there are. At rung 16, once restore has ended, a keyless unit stays without service; another is in service, the
holder with its START journaled unless it is a triad's. BOOT up to a rung is BOOT up to the one before and that rung. -/
def Obligations.TheUnitStartsByItsLadder : Prop :=
  (∀ (dt restore : Nat) (recover vio33 : Bool) (card : Option Card) (geom : Option NandGeom) (s s1 a b : State) (img : Bytes), s.Inv → s1 = s.advance dt →
    a = ({ s1 with rpl := { s1.rpl with card := card }, boot := { s1.boot with vio33 := vio33 } } : State).setBit rSysClk 0 true →
    b = (if geom = none ∨ geom = s.med.nand.board then a else { a with med := { a.med with nand := { board := geom } }, obox := [], evr := {} }) → img = s.nor.cfgImage →
    (s.pow.phase ≠ .rom → exec (.boot dt restore recover card geom vio33 0) s = .next s1) ∧
    (s.pow.phase = .rom → s.sec.otp.lc = .blank → exec (.boot dt restore recover card geom vio33 0) s = .next (b.transitionWhen .open_)) ∧
    (s.pow.phase = .rom → s.sec.otp.lc = .scrapped → exec (.boot dt restore recover card geom vio33 0) s = .next { b with pow := { b.pow with phase := .scrapped } }) ∧
    (s.pow.phase = .rom → s.sec.otp.lc ≠ .blank → s.sec.otp.lc ≠ .scrapped → s.bitOf rOasTampstat 8 = false →
      (recover = true → exec (.boot dt restore recover card geom vio33 0) s = .next (b.enterRecovery 1)) ∧
      (recover = true → card = none → ∃ t, exec (.boot dt restore recover card geom vio33 0) s = .next t ∧ t.pow.phase = .recovery ∧ t.boot.rcause = 1 ∧ t.boot.reason = 1 ∧ t.sysKey = none ∧ t.rings = List.replicate 16 {} ∧ t.sef.on = false ∧ t.nor = s.nor ∧ t.oas = s1.oas) ∧
      (recover = false → b.configWait img = true → exec (.boot dt restore recover card geom vio33 0) s = .next (b.enterRecovery 3)) ∧
      (judgeCfg s.sec.otp b.csvnFloor none img ≠ 0 → b.configWait img = true) ∧ (cfgSection img 2 = none → b.configWait img = true) ∧ (∀ w, cfgSection img 13 = some w → seifOk w = false → b.configWait img = true) ∧
      (∀ d, recover = false → b.configWait img = false → cardOkOf img = true ∨ s.sec.otp.lc = .open_ → b.deliverCard = some d → exec (.boot dt restore recover card geom vio33 0) s = .next d) ∧
      (recover = false → b.configWait img = false → (cardOkOf img = false ∧ s.sec.otp.lc ≠ .open_) ∨ b.deliverCard = none →
        (∀ (w : State) (g : Bool), b.chooseSlot = (none, g, w) → exec (.boot dt restore recover card geom vio33 0) s = .next (w.enterRecovery 2)) ∧
        (∀ (k : Nat) (w : State) (g : Bool), b.chooseSlot = (some k, g, w) →
          ∃ t, exec (.boot dt restore recover card geom vio33 0) s = .next t ∧ t.pow.phase = .ladder ∧ t.pow.rungAt = s1.t + msU (fld 7 1 s.unitId % 32) ∧ t.boot.slot = k ∧ t.boot.svn = fld 12 4 (w.nor.fwImage k).1 ∧ t.code = codeOf (w.nor.fwImage k).2 ∧
            t.boot.fallback = (if k = s.nor.pref then none else some (k + flag 8 g)) ∧ t.boot.img = img ∧ t.nor = w.nor ∧ t.seq.journal = s.seq.journal))) ∧
    (s.pow.phase = .rom → s.sec.otp.lc ≠ .blank → s.sec.otp.lc ≠ .scrapped → s.bitOf rOasTampstat 8 = true → b.configWait img = true →
      (s.sec.otp.lc ≠ .field → ∃ t, exec (.boot dt restore recover card geom vio33 0) s = .next t ∧ t.pow.phase = .alarmHold ∧ t.pow.rungAt = s1.t) ∧
      (s.sec.otp.lc = .field → s.severeLatched = true → s.bitOf rOasTampcfg 18 = true → exec (.boot dt restore recover card geom vio33 0) s = .next (b.transitionWhen .return_)))) ∧
  (∀ (dt restore : Nat) (recover vio33 : Bool) (card : Option Card) (geom : Option NandGeom) (k l : Fin 17) (s u : State), s.pow.phase = .rom → l.val = k.val + 1 → exec (.boot dt restore recover card geom vio33 k) s = .next u →
    exec (.boot dt restore recover card geom vio33 l) s = exec (.ladderRung restore) u) ∧
  (∀ (dt : Nat) (s : State), (s.pow.phase ≠ .ladder ∧ s.pow.phase ≠ .alarmHold) ∨ (s.pow.phase = .ladder ∧ 16 ≤ s.fld rSysLadder 20 16) → exec (.ladderRung dt) s = .next s) ∧
  (∀ (dt k : Nat) (s s1 u : State), s.Inv → s.pow.phase = .ladder → k = s.fld rSysLadder 20 16 + 1 → s1 = s.until (s.pow.rungAt + usU (max 10 (s.fld rSysLadder 9 0))) →
    u = ({ s1 with pow := { s1.pow with rungAt := s1.t } } : State).setFld rSysLadder 20 16 k →
    (k = 1 → exec (.ladderRung dt) s = .next { u with pow := { u.pow with plls := s.pow.plls.set 0 true, locks := s.pow.locks.set 0 true } }) ∧
    (k = 2 → exec (.ladderRung dt) s = .next (u.setBit rArbCtl 0 true)) ∧
    (k = 3 ∨ k = 4 ∨ k = 8 ∨ k = 15 → exec (.ladderRung dt) s = .next u) ∧
    (k = 5 → exec (.ladderRung dt) s = .next u.rungKeys ∧ u.rungKeys.bitOf rKeyCtl 0 = true ∧ u.rungKeys.bitOf rCphCtl 0 = true ∧
      (cfgSection s.boot.img 14 = none → u.rungKeys.sysKey = s.sysKey ∧ u.rungKeys.bitOf rKeyIrq 1 = true ∧ u.rungKeys.bitOf rArbCtl 0 = false)) ∧
    (k = 6 → exec (.ladderRung dt) s = .next u.rungMedia) ∧ (k = 6 → s.hasSec 12 = false → u.rungMedia = u.setBit rEvrCtl 0 true) ∧
    (k = 7 → exec (.ladderRung dt) s = .next u.rungNet) ∧ (k = 7 → s.hasSec 10 = true → u.rungNet.bitOf rNetCtl 0 = true ∧ u.rungNet.pow.locks = s.pow.locks.set 1 true) ∧
    (k = 9 ∨ k = 10 ∨ k = 11 ∨ k = 12 ∨ k = 13 ∨ k = 14 → s.sysKey = none → exec (.ladderRung dt) s = .next u) ∧
    (s.sysKey ≠ none →
      (k = 9 → exec (.ladderRung dt) s = .next (if s.hasSec 13 then { u.setBit rSefCtl 0 true with sef := { s.sef with on := true, state := 1 } } else u)) ∧
      (k = 10 → ∃ t, exec (.ladderRung dt) s = .next t ∧ ∀ d < min 8 (atLeast1 (s.fld rErgPwr 3 0)), d < s.erg.dunes.length → (t.dune d).pwr = .awake) ∧
      (k = 11 → exec (.ladderRung dt) s = .next (u.setBit rTimCtl 0 true).freeRate) ∧
      (k = 12 → s.hasSec 7 = false → exec (.ladderRung dt) s = .next u) ∧
      (k = 12 → s.hasSec 7 = true → ∃ t, exec (.ladderRung dt) s = .next t ∧ t.bitOf rMtrCtl 0 = true ∧ t.pow.locks = s.pow.locks.set 3 true ∧ t.fe.run = true ∧ t.fe.t0 = s1.t ∧ t.fe.unsettled = true) ∧
      (k = 13 → exec (.ladderRung dt) s = .next (if s.hasSec 6 then { u.setBit rPlcCtl 0 true with plc := { s.plc with beaconAt := s1.t } } else u)) ∧
      (k = 14 → s.hasSec 5 = false → exec (.ladderRung dt) s = .next u) ∧
      (k = 14 → s.hasSec 5 = true → ∃ t, exec (.ladderRung dt) s = .next t ∧ t.bitOf rRadCtl 0 = true ∧ t.pow.locks = s.pow.locks.set 2 true ∧ t.rad = { s.rad with budget := t.dutyCap, budgetAt := s1.t })) ∧
    (∀ s2 v : State, k = 16 → s2 = s1.advance dt → v = ({ s2 with pow := { s2.pow with rungAt := s2.t } } : State).setFld rSysLadder 20 16 16 →
      (s.sysKey = none → exec (.ladderRung dt) s = .next { v with pow := { v.pow with phase := .keyless } }) ∧
      (s.sysKey ≠ none → v.restoreContext.boot.carry = true → exec (.ladderRung dt) s = .next v.restoreContext.carryCut) ∧
      (s.sysKey ≠ none → v.restoreContext.boot.carry = false →
        ∃ t, exec (.ladderRung dt) s = .next t ∧ t = v.restoreContext.enterService ∧ t.pow.phase = .service ∧ t.seq.holder = !s.triad ∧
          (s.triad = true → t.boot.startDue = true) ∧ (s.triad = false → ∃ e ∈ t.seq.journal, e.kind = .start ∧ e.jsn = v.restoreContext.seq.nextJsn)))) ∧
  (∀ (dt k : Nat) (s s1 u : State), s.pow.phase = .alarmHold → k = s.fld rSysLadder 20 16 + 1 → s1 = s.until (s.pow.rungAt + usU (max 10 (s.fld rSysLadder 9 0))) → u = ({ s1 with pow := { s1.pow with rungAt := s1.t } } : State).setFld rSysLadder 20 16 k →
    (k = 1 → exec (.ladderRung dt) s = .next { u with pow := { u.pow with plls := s.pow.plls.set 0 true, locks := s.pow.locks.set 0 true } }) ∧ (k = 8 → exec (.ladderRung dt) s = .next u) ∧ (k ≠ 1 → k ≠ 2 → k ≠ 8 → exec (.ladderRung dt) s = .next s) ∧
    (k = 2 → ∃ t, exec (.ladderRung dt) s = .next t ∧ t.t = (s.until (s.pow.rungAt + 6 * usU (max 10 (s.fld rSysLadder 9 0)))).t ∧ t.pow.phase = .alarmHold ∧ t.pow.rungAt = t.t ∧ (s.hasSec 10 = true → t.pow.locks = s.pow.locks.set 1 true)))

/-- The recovery protocol (R544, R550, R551, R691 to R696, R703, R710 to R712, R719, R721). In recovery the ROM answers each request with one frame: 0xA5, the request's code plus 0x80, the length, the status and the data, and a CRC-32. STATUS, which alarm hold and SCRAPPED answer too, tells the cause, the life cycle, the SVN, the pointer table and UNIT_ID. WRITE_FW and WRITE_CFG take 1 to 4,096 bytes into a part
whose sectors are erased once, refuse what lies outside it and the preferred slot that passes. COMMIT_FW makes a slot that passes the preferred one on trial, CHECK_CFG judges the image, RESTART resets, LC_CMD runs a signed security command after its answer. REPLAY refuses at once, joins the chain, or replays and reports; REPLAY_READ reads the report. Anywhere else the requests
change nothing. -/
def Obligations.RecoveryAnswersItsRequests : Prop :=
  (∀ fr : Nat → Nat → Bytes → Emission, fr = (fun op st d => .recovery (le 1 0xA5 ++ (le 1 (op + 128) ++ le 2 (le 1 st ++ d).length ++ (le 1 st ++ d)) ++ le 4 (crc32 (le 1 (op + 128) ++ le 2 (le 1 st ++ d).length ++ (le 1 st ++ d))))) →
    (∀ s : State, s.pow.phase ≠ .recovery → s.pow.phase ≠ .alarmHold → s.pow.phase ≠ .scrapped → exec .status s = .next s ∧ ∀ o, exec (.replay o) s = .next s) ∧
    (∀ s : State, s.pow.phase ≠ .recovery → s.pow.phase ≠ .alarmHold → ∀ b, exec (.lcCmd b) s = .next s) ∧
    (∀ s : State, s.pow.phase ≠ .recovery →
      (∀ k o d, exec (.writeFw k o d) s = .next s) ∧ (∀ o d, exec (.writeCfg o d) s = .next s) ∧ (∀ k, exec (.commitFw k) s = .next s) ∧ exec .checkCfg s = .next s ∧ exec .restart s = .next s ∧ ∀ o l, exec (.replayRead o l) s = .next s) ∧
    (∀ s : State, s.pow.phase = .recovery ∨ s.pow.phase = .alarmHold ∨ s.pow.phase = .scrapped →
      ∃ pt : Bytes, pt.length = 64 ∧ (∀ tbl, s.nor.inForce = some tbl → pt = norBytes (if tbl.copy = 0 then s.nor.pt0 else s.nor.pt1) 0 64) ∧
        exec .status s = .next { s with freeCtr := if s.nor.inForce = none then s.freeCtr + 1 else s.freeCtr,
                                        emitted := s.emitted ++ [fr 1 0 (le 1 s.boot.rcause ++ le 1 s.sec.otp.lc.code ++ le 1 s.sec.otp.svn ++ pt ++ s.unitId)] }) ∧
    (∀ (slot off : Nat) (data : Bytes) (s : State), s.pow.phase = .recovery →
      (data.length = 0 ∨ 4096 < data.length → exec (.writeFw slot off data) s = .next { s with emitted := s.emitted ++ [fr 2 2 []] } ∧ exec (.writeCfg off data) s = .next { s with emitted := s.emitted ++ [fr 3 2 []] }) ∧
      (1 ≤ data.length → data.length ≤ 4096 →
        (1 < slot ∨ 2162688 < off + data.length ∨ (slot = s.nor.pref ∧ s.judgeSlotFw slot = 0) → exec (.writeFw slot off data) s = .next { s with emitted := s.emitted ++ [fr 2 1 []] }) ∧
        (1048576 < off + data.length → exec (.writeCfg off data) s = .next { s with emitted := s.emitted ++ [fr 3 1 []] }) ∧
        (slot ≤ 1 → off + data.length ≤ 2162688 → slot ≠ s.nor.pref ∨ s.judgeSlotFw slot ≠ 0 →
          ∃ t, exec (.writeFw slot off data) s = .next t ∧ t = { s with nor := t.nor, boot := { s.boot with erased := t.boot.erased }, emitted := s.emitted ++ [fr 2 0 []] } ∧ t.nor.cfg = s.nor.cfg ∧ t.nor.pt0 = s.nor.pt0 ∧ t.nor.pt1 = s.nor.pt1 ∧
            t.nor.slot (1 - slot) = s.nor.slot (1 - slot) ∧
            (swf norErased (s.nor.slot slot) = true → (∀ i d, data[i]? = some d → (slot, (off + i) / 65536) ∉ s.boot.erased → sget norErased (t.nor.slot slot) (off + i) = d) ∧
              (∀ i d, data[i]? = some d → (slot, (off + i) / 65536) ∈ s.boot.erased → sget norErased (t.nor.slot slot) (off + i) = sget norErased (s.nor.slot slot) (off + i) &&& d)) ∧
            (∀ i < data.length, (slot, (off + i) / 65536) ∈ t.boot.erased)) ∧
        (off + data.length ≤ 1048576 →
          ∃ t, exec (.writeCfg off data) s = .next t ∧ t = { s with nor := { s.nor with cfg := t.nor.cfg }, boot := { s.boot with erased := t.boot.erased }, emitted := s.emitted ++ [fr 3 0 []] } ∧
            (swf norErased s.nor.cfg = true → ∀ i d, data[i]? = some d → (2, (off + i) / 65536) ∉ s.boot.erased → sget norErased t.nor.cfg (off + i) = d)))) ∧
    (∀ (slot : Nat) (s : State), s.pow.phase = .recovery →
      (1 < slot → exec (.commitFw slot) s = .next { s with emitted := s.emitted ++ [fr 4 1 (le 1 1)] }) ∧
      (slot ≤ 1 → s.judgeSlotFw slot ≠ 0 → exec (.commitFw slot) s = .next { s with emitted := s.emitted ++ [fr 4 1 (le 1 (s.judgeSlotFw slot))] }) ∧
      (slot ≤ 1 → s.judgeSlotFw slot = 0 →
        exec (.commitFw slot) s = .next { s with nor := s.nor.writePt slot true 3, boot := { s.boot with bcast := if s.sec.otp.lc = .open_ then some slot else s.boot.bcast }, emitted := s.emitted ++ [fr 4 0 (le 1 0)] })) ∧
    (∀ (s : State) (r : Nat), s.pow.phase = .recovery → r = judgeCfg s.sec.otp s.csvnFloor none s.nor.cfgImage → exec .checkCfg s = .next { s with emitted := s.emitted ++ [fr 5 (if r = 0 then 0 else 1) (le 1 r)] }) ∧
    (∀ s : State, s.pow.phase = .recovery → ∃ v, v < 8 ∧ exec .restart s = .next (({ s with freeCtr := s.freeCtr + 1, emitted := s.emitted ++ [fr 6 0 []] } : State).mainReset .rom v)) ∧
    (∀ (block sig : Bytes) (code : Nat) (s u : State), s.pow.phase = .recovery ∨ s.pow.phase = .alarmHold → code = fld 0 2 block → sig = fit 64 (block.drop 8) → u = (if s.pow.phase = .recovery then s.withOpk s.recoveryOpk else s) →
      (block.length ≠ 72 ∨ fld 2 2 block ≠ 64 → exec (.lcCmd block) s = .next { s with emitted := s.emitted ++ [fr 7 2 []] }) ∧
      (block.length = 72 → fld 2 2 block = 64 → code < 0xF01 ∨ 0xF05 < code ∨ u.lcSigned code sig = false → exec (.lcCmd block) s = .next { s with emitted := s.emitted ++ [fr 7 1 (le 1 Status.notPermitted.code)] }) ∧
      (block.length = 72 → fld 2 2 block = 64 → 0xF02 ≤ code → code ≤ 0xF04 → u.lcSigned code sig = true →
        (s.sec.otp.next code = none → exec (.lcCmd block) s = .next { s with emitted := s.emitted ++ [fr 7 1 (le 1 Status.badState.code)] }) ∧
        (∀ l, s.sec.otp.next code = some l → exec (.lcCmd block) s = .next (({ s with emitted := s.emitted ++ [fr 7 0 (le 1 Status.ok.code)] } : State).transitionWhen l))) ∧
      (block.length = 72 → fld 2 2 block = 64 → s.pow.phase = .recovery → code = 0xF01 → u.lcSigned code sig = true →
        (s.sec.otp.lc ≠ .open_ → exec (.lcCmd block) s = .next { s with emitted := s.emitted ++ [fr 7 1 (le 1 Status.badState.code)] }) ∧
        (s.sec.otp.lc = .open_ → exec (.lcCmd block) s = .next ((({ s with emitted := s.emitted ++ [fr 7 0 (le 1 Status.ok.code)] } : State).withOpk s.recoveryOpk).commission.withOpk s.sec.opk))) ∧
      (block.length = 72 → fld 2 2 block = 64 → s.pow.phase = .alarmHold → code = 0xF05 → u.lcSigned code sig = true → exec (.lcCmd block) s = .next (({ s with emitted := s.emitted ++ [fr 7 0 (le 1 Status.ok.code)] } : State).rearm))) ∧
    (∀ (o : Bytes) (s : State), s.pow.phase = .recovery ∨ s.pow.phase = .alarmHold ∨ s.pow.phase = .scrapped →
      (o.length ≠ 16 → exec (.replay o) s = .next { s with emitted := s.emitted ++ [fr 8 2 []] }) ∧
      (o.length = 16 → s.pow.phase ≠ .recovery ∨ (bit 2 (fld 1 1 o) = true ∧ fld 0 1 o ≠ 0) ∨ ((fld 0 1 o = 1 ∨ bit 2 (fld 1 1 o) = true) ∧ s.rpl.card = none) →
        exec (.replay o) s = .next { s with rpl := { ran := true, source := fld 0 1 o, result := 3, reason := 1, card := s.rpl.card }, emitted := s.emitted ++ [fr 8 1 (le 1 1)] }) ∧
      (s.Inv → o.length = 16 → s.pow.phase = .recovery → fld 0 1 o = 2 → bit 2 (fld 1 1 o) = false →
        ∃ t, exec (.replay o) s = .next t ∧ t.rpl = { ran := true, result := 4, source := 2, card := s.rpl.card, fetch := some { order := o, peer := fld 2 1 o % 32 } } ∧ t.sef.on = true ∧ t.sef.state = 7 ∧ t.pow.locks = s.pow.locks.set 1 true ∧
          SameRegs s t [rSefCtl] ∧ t.emitted = s.emitted ++ [fr 8 0 (le 1 0)]) ∧
      (∀ src : Option RplSrc, o.length = 16 → s.pow.phase = .recovery → (fld 0 1 o = 0 ∧ (bit 2 (fld 1 1 o) = true → s.rpl.card ≠ none) ∧ src = s.ownSrc) ∨ (fld 0 1 o = 1 ∧ bit 2 (fld 1 1 o) = false ∧ s.rpl.card ≠ none ∧ src = cardSrc s.rpl.card) ∨ (2 < fld 0 1 o ∧ bit 2 (fld 1 1 o) = false ∧ src = none) →
        (∀ n, s.judgeSource o src = .refused n → exec (.replay o) s = .next { s with rpl := { ran := true, source := fld 0 1 o, result := 3, reason := n, card := s.rpl.card }, emitted := s.emitted ++ [fr 8 1 (le 1 n)] }) ∧
        (∀ (k : Ckpt) (img : Bytes) (key : Nat) (x : RplSrc) (r : Replay × Bytes), s.judgeSource o src = .ready k img key → src = some x → bit 2 (fld 1 1 o) = false →
          r = s.runReplay o x k img key { source := fld 0 1 o, ckptNo := k.no, cutJsn := k.cutJsn, firstRsn := k.ctx.nextRsn } →
          ∃ t, exec (.replay o) s = .next t ∧ t = { s with rpl := t.rpl, emitted := t.emitted } ∧ t.rpl = { r.1 with ran := true, fetch := none, card := t.rpl.card } ∧
            t.rpl.card = s.rpl.card.map (fun c => cardWrite (cardWrite c "IKNRPL.OUT" r.2) "IKNRPL.DIV" r.1.bytes) ∧ t.emitted = s.emitted ++ [fr 8 (if r.1.result = 3 then 1 else 0) (le 1 r.1.reason)]) ∧
        (∀ (k : Ckpt) (img : Bytes) (key : Nat) (x : RplSrc), s.judgeSource o src = .ready k img key → src = some x → bit 2 (fld 1 1 o) = true →
          ∃ t, exec (.replay o) s = .next t ∧ t = { s with rpl := t.rpl, emitted := s.emitted ++ [fr 8 0 (le 1 0)] } ∧ t.rpl.stop = 6 ∧ t.rpl.result = 0 ∧ t.rpl.ckptNo = k.no ∧ t.rpl.cutJsn = k.cutJsn ∧ t.rpl.card = s.rpl.card.map (fun c => exportCard c o x k)))) ∧
    (∀ (off len : Nat) (s : State), s.pow.phase = .recovery →
      (len = 0 ∨ 4096 < len → exec (.replayRead off len) s = .next { s with emitted := s.emitted ++ [fr 9 2 []] }) ∧
      (1 ≤ len → len ≤ 4096 → s.rpl.ran = false → exec (.replayRead off len) s = .next { s with emitted := s.emitted ++ [fr 9 1 []] }) ∧
      (1 ≤ len → len ≤ 4096 → s.rpl.ran = true → exec (.replayRead off len) s = .next { s with emitted := s.emitted ++ [fr 9 0 ((s.rpl.bytes.drop off).take len)] }))) ∧
  (∀ (s s1 : State) (link : Nat) (f : Bytes) (a r : List (Nat × Bytes)) (x : Fetch), s.sef.inbox = a ++ (link, f) :: r → (∀ y ∈ a, sefType y.2 ≠ sefType f) → s1 = { s with sef := { s.sef with inbox := a ++ r } } → s.rpl.fetch = some x →
    (sefType f = 2 → x.step = 0 → sefSrc f = x.peer →
      ∃ t, exec .heartbeat s = .next t ∧ t.rpl.fetch = some { x with step := 1 } ∧ t = (({ s1.heartbeatIn link f with rpl := { s.rpl with fetch := some { x with step := 1 } } } : State).sefSend 6 x.peer (le 1 1 ++ List.replicate 7 0 ++ le 8 0))) ∧
    (sefType f = 7 → sefSrc f ≠ x.peer → exec .xfer s = .next s1) ∧
    (sefType f = 7 → sefSrc f = x.peer → x.step = 1 → fld 0 1 (sefBody f) = 1 → exec .xfer s = .next { s1 with rpl := { s.rpl with fetch := some { x with desc := (sefBody f).drop 16 } } }) ∧
    (sefType f = 7 → sefSrc f = x.peer → x.step = 2 → fld 0 1 (sefBody f) = 4 →
      exec .xfer s = .next (({ s1 with rpl := { s.rpl with fetch := some { x with step := 3 } } } : State).sefSend 6 x.peer (le 1 0 ++ List.replicate 7 0 ++ le 8 (fld 8 8 x.desc)))) ∧
    (sefType f = 7 → sefSrc f = x.peer → x.step = 3 → fld 0 1 (sefBody f) = 4 → exec .xfer s = .next (s1.replayFrom x.order (some (s1.chainSrc x))).leaveChain))
end

