-- ==== Sys2Proof/Laws/Bytes.lean ====
section
/-! SUPPORT. Reading fields back from the bytes they were written to. -/
namespace Sys2Proof.Machine

@[simp] theorem le_length (n v : Nat) : (le n v).length = n := by
  induction n generalizing v with
  | zero => rfl
  | succ n ih => simp [le, ih]

@[simp] theorem be_length (n v : Nat) : (be n v).length = n := by simp [be]

@[simp] theorem sub_length (o n : Nat) (b : Bytes) : (sub o n b).length = n := by
  simp only [sub, List.length_append, List.length_replicate, List.length_take]
  omega

@[simp] theorem fit_length (n : Nat) (b : Bytes) : (fit n b).length = n := sub_length 0 n b

/-- Bytes written little-endian spell the number, cut to their width. -/
@[simp] theorem leVal_le (n v : Nat) : leVal (le n v) = v % 256 ^ n := by
  induction n generalizing v with
  | zero => simp [le, leVal, Nat.mod_one]
  | succ n ih =>
    simp only [le, leVal, ih, BitVec.toNat_ofNat]
    rw [show 256 ^ (n + 1) = 256 * 256 ^ n from Nat.pow_succ', Nat.mod_mul (a := 256) (b := 256 ^ n)]

/-- A field past the first part of a byte string lies in the rest. -/
theorem sub_append_right (a b : Bytes) (o n : Nat) (h : a.length ≤ o) : sub o n (a ++ b) = sub (o - a.length) n b := by
  unfold sub
  rw [List.drop_append_of_le_length_or a b o h]
where
  List.drop_append_of_le_length_or (a b : Bytes) (o : Nat) (h : a.length ≤ o) : (a ++ b).drop o = b.drop (o - a.length) := by
    rw [List.drop_append, List.drop_eq_nil_of_le h, List.nil_append]

theorem fld_append_right (a b : Bytes) (o n : Nat) (h : a.length ≤ o) : fld o n (a ++ b) = fld (o - a.length) n b := by
  unfold fld
  rw [sub_append_right a b o n h]

/-- A field that a byte string begins with. -/
theorem sub_append_left (a b : Bytes) (n : Nat) (h : a.length = n) : sub 0 n (a ++ b) = a := by
  subst h
  simp [sub]

@[simp] theorem fld_le_append (n v : Nat) (b : Bytes) : fld 0 n (le n v ++ b) = v % 256 ^ n := by
  unfold fld
  rw [sub_append_left _ _ _ (le_length n v), leVal_le]

@[simp] theorem fld_le (n v : Nat) : fld 0 n (le n v) = v % 256 ^ n := by
  have := fld_le_append n v []
  rwa [List.append_nil] at this

end Sys2Proof.Machine
end

