-- ==== Sys2Proof/Laws/Sparse.lean ====
section
/-! SUPPORT. The laws of the sparse maps that hold registers, memory and slots: reading after writing, and that writing keeps the
canonical form. -/
namespace Sys2Proof.Machine

section
variable {β : Type} [DecidableEq β] (d : Nat → β)

theorem swfFrom_none_of_some {l : Nat} {m : List (Nat × β)} (h : swfFrom d (some l) m = true) : swfFrom d none m = true := by
  cases m with
  | nil => rfl
  | cons p r => simp [swfFrom] at h ⊢; exact ⟨h.1.2, h.2⟩

theorem swfFrom_weaken {k l : Nat} {m : List (Nat × β)} (hk : k ≤ l) (h : swfFrom d (some l) m = true) :
    swfFrom d (some k) m = true := by
  cases m with
  | nil => rfl
  | cons p r =>
    simp only [swfFrom, Bool.and_eq_true, decide_eq_true_eq] at h ⊢
    exact ⟨⟨by omega, h.1.2⟩, h.2⟩

/-- A key below every listed key reads as unlisted. -/
theorem sget_below {l : Nat} {m : List (Nat × β)} (h : swfFrom d (some l) m = true) : ∀ k, k ≤ l → sget d m k = d k := by
  induction m generalizing l with
  | nil => intro k _; rfl
  | cons p r ih =>
    intro k hk
    simp only [swfFrom, Bool.and_eq_true, decide_eq_true_eq] at h
    have hne : ¬ p.1 = k := by omega
    simp only [sget, hne, if_false]
    exact ih h.2 k (by omega)

omit [DecidableEq β] in
theorem sget_nil (k : Nat) : sget d [] k = d k := rfl

theorem swfFrom_sput {m : List (Nat × β)} {lo : Option Nat} (h : swfFrom d lo m = true) (k : Nat) (v : β)
    (hk : ∀ l, lo = some l → l < k) : swfFrom d lo (sput d m k v) = true := by
  induction m generalizing lo with
  | nil =>
    simp only [sput]
    split
    · rfl
    · rename_i hv
      cases lo with
      | none => simp [swfFrom, hv]
      | some l => simp [swfFrom, hv, hk l rfl]
  | cons p r ih =>
    obtain ⟨a, b⟩ := p
    simp only [swfFrom, Bool.and_eq_true, decide_eq_true_eq] at h
    simp only [sput]
    split
    · rename_i hka
      split
      · simp only [swfFrom, Bool.and_eq_true, decide_eq_true_eq]; exact h
      · rename_i hv
        simp only [swfFrom, Bool.and_eq_true, decide_eq_true_eq]
        exact ⟨⟨by cases lo with | none => rfl | some l => simpa using hk l rfl, hv⟩, ⟨hka, h.1.2⟩, h.2⟩
    · split
      · rename_i hka
        subst hka
        split
        · have hr := h.2
          cases lo with
          | none => exact swfFrom_none_of_some d hr
          | some l => exact swfFrom_weaken d (Nat.le_of_lt (hk l rfl)) hr
        · rename_i hv
          simp only [swfFrom, Bool.and_eq_true, decide_eq_true_eq]
          exact ⟨⟨by cases lo with | none => rfl | some l => simpa using hk l rfl, hv⟩, h.2⟩
      · rename_i h1 h2
        simp only [swfFrom, Bool.and_eq_true, decide_eq_true_eq]
        exact ⟨h.1, ih h.2 (by intro l hl; cases hl; omega)⟩

/-- Writing a key keeps the canonical form. -/
theorem swf_sput {m : List (Nat × β)} (h : swf d m = true) (k : Nat) (v : β) : swf d (sput d m k v) = true :=
  swfFrom_sput d h k v (by intro l hl; cases hl)

theorem sget_sputFrom {m : List (Nat × β)} {lo : Option Nat} (h : swfFrom d lo m = true) (k : Nat) (v : β) (j : Nat) :
    sget d (sput d m k v) j = if j = k then v else sget d m j := by
  induction m generalizing lo with
  | nil =>
    simp only [sput]
    split
    · rename_i hv; split
      · rename_i hj; subst hj; simp [sget, hv]
      · rfl
    · by_cases hj : j = k
      · subst hj; simp [sget]
      · simp [sget, hj, Ne.symm hj]
  | cons p r ih =>
    obtain ⟨a, b⟩ := p
    simp only [swfFrom, Bool.and_eq_true, decide_eq_true_eq] at h
    simp only [sput]
    split
    · rename_i hka
      have hlow : ∀ i, i < a → sget d ((a, b) :: r) i = d i := by
        intro i hi
        have h1 : ¬ a = i := by omega
        simp only [sget, h1, if_false]
        exact sget_below d h.2 i (by omega)
      split
      · rename_i hv
        by_cases hj : j = k
        · subst hj; simp [hlow j hka, hv]
        · simp [hj]
      · by_cases hj : j = k
        · subst hj; simp [sget]
        · have : ¬ k = j := fun e => hj e.symm
          simp [sget, hj, this]
    · split
      · rename_i hka
        subst hka
        split
        · rename_i hv
          by_cases hj : j = k
          · subst hj; simp [sget_below d h.2 j (Nat.le_refl _), hv]
          · have : ¬ k = j := fun e => hj e.symm
            simp [sget, hj, this]
        · by_cases hj : j = k
          · subst hj; simp [sget]
          · have : ¬ k = j := fun e => hj e.symm
            simp [sget, hj, this]
      · rename_i h1 h2
        by_cases ha : a = j
        · have hj : ¬ j = k := by omega
          simp [sget, ha, hj]
        · simp only [sget, ha, if_false]
          exact ih h.2

/-- Reading after writing, on a canonical map. -/
theorem sget_sput {m : List (Nat × β)} (h : swf d m = true) (k : Nat) (v : β) (j : Nat) :
    sget d (sput d m k v) j = if j = k then v else sget d m j := sget_sputFrom d h k v j

theorem swfFrom_filter {m : List (Nat × β)} {lo : Option Nat} (h : swfFrom d lo m = true) (p : Nat × β → Bool) :
    swfFrom d lo (m.filter p) = true := by
  induction m generalizing lo with
  | nil => rfl
  | cons q r ih =>
    obtain ⟨a, b⟩ := q
    simp only [swfFrom, Bool.and_eq_true, decide_eq_true_eq] at h
    simp only [List.filter_cons]
    split
    · simp only [swfFrom, Bool.and_eq_true, decide_eq_true_eq]
      exact ⟨h.1, ih h.2⟩
    · cases lo with
      | none => exact ih (swfFrom_none_of_some d h.2)
      | some l =>
        have hl : l < a := by simpa using h.1.1
        exact ih (swfFrom_weaken d (Nat.le_of_lt hl) h.2)

/-- Dropping entries keeps the canonical form. -/
theorem swf_filter {m : List (Nat × β)} (h : swf d m = true) (p : Nat × β → Bool) : swf d (m.filter p) = true :=
  swfFrom_filter d h p

end

/-- Every memory operation keeps the canonical form: one byte. -/
theorem ramPut_wf {m : List (Nat × Byte)} (h : Memory.wf m = true) (a : Nat) (b : Byte) : Memory.wf (ramPut m a b) = true :=
  swf_sput ramDefault h a b

/-- Every memory operation keeps the canonical form: one word. -/
theorem ramPutWord_wf {m : List (Nat × Byte)} (h : Memory.wf m = true) (a : Nat) (w : Word) :
    Memory.wf (ramPutWord m a w) = true :=
  ramPut_wf (ramPut_wf (ramPut_wf (ramPut_wf h _ _) _ _) _ _) _ _

/-- Reading a byte of RAM after writing one. -/
theorem ramPut_get {m : List (Nat × Byte)} (h : Memory.wf m = true) (a : Nat) (b : Byte) (x : Nat) :
    sget ramDefault (ramPut m a b) x = if x = a then b else sget ramDefault m x := sget_sput ramDefault h a b x

/-- Reading a byte of RAM after writing a word: bytes outside the four are as they were. -/
theorem ramPutWord_outside {m : List (Nat × Byte)} (h : Memory.wf m = true) (a : Nat) (w : Word) (x : Nat)
    (hx : x < a ∨ a + 3 < x) : sget ramDefault (ramPutWord m a w) x = sget ramDefault m x := by
  unfold ramPutWord
  rw [ramPut_get (ramPut_wf (ramPut_wf (ramPut_wf h _ _) _ _) _ _), ramPut_get (ramPut_wf (ramPut_wf h _ _) _ _),
    ramPut_get (ramPut_wf h _ _), ramPut_get h]
  have h0 : ¬ x = a := by omega
  have h1 : ¬ x = a + 1 := by omega
  have h2 : ¬ x = a + 2 := by omega
  have h3 : ¬ x = a + 3 := by omega
  simp [h0, h1, h2, h3]

end Sys2Proof.Machine
end

