-- ==== Sys2Proof/Laws/Keeps.lean ====
section
/-! SUPPORT. What every command keeps, as one relation from a state to a later one: the rest of the queue, the order of elapsed time, what has
already left the balls, and the invariant of the stored state. -/
namespace Sys2Proof.Machine

/-- From `o` on to `s`: the queue is as it was, elapsed time has not gone back, what was emitted is still emitted, and the invariant holds if it
held. -/
structure Keeps (o s : State) : Prop where
  queue : s.pending = o.pending
  time  : o.t ≤ s.t
  sent  : o.emitted <+: s.emitted
  inv   : o.Inv → s.Inv

/-- An outcome that is a next state, kept from `o`. -/
structure KeepsO (o : State) (r : Host.Outcome State Fault Refusal) : Prop where
  next_keeps : ∀ t, r = .next t → Keeps o t
  answers : ∃ t, r = .next t

/-- A state, if one is answered, that is kept from `o`. -/
structure KeepsP (o : State) (r : Option State) : Prop where
  some_keeps : ∀ t, r = some t → Keeps o t

theorem Keeps.refl (s : State) : Keeps s s := ⟨rfl, Nat.le_refl _, List.prefix_rfl, id⟩

theorem KeepsO.next {o s : State} (h : Keeps o s) : KeepsO o (.next s) := by
  exact ⟨fun t ht => by cases ht; exact h, s, rfl⟩

/-- An update of any other field keeps. -/
theorem Keeps.upd {o s : State} {dev devSub freeCtr reply latch locked cfg sysKey seq erg ctx obox fe evr tim oas sec net arb rad plc med sef pow nor boot rpl} (h : Keeps o s) :
    Keeps o (State.mk s.pending s.t dev devSub freeCtr reply s.emitted s.regs s.wram s.code latch locked cfg sysKey s.rings seq erg ctx obox fe evr tim oas sec net arb rad plc med sef pow nor boot rpl) :=
  ⟨h.queue, h.time, h.sent, h.inv⟩

theorem Keeps.foldl {α : Type} {o s : State} {f : State → α → State} {l : List α} (h : Keeps o s)
    (hf : ∀ x a, Keeps o x → Keeps o (f x a)) : Keeps o (l.foldl f s) := by
  induction l generalizing s with
  | nil => exact h
  | cons a r ih => exact ih (hf s a h)

theorem KeepsP.none (o : State) : KeepsP o none := ⟨fun _ h => nomatch h⟩

theorem KeepsP.some {o s : State} (h : Keeps o s) : KeepsP o (some s) := ⟨fun t ht => by cases ht; exact h⟩

theorem Keeps.getD {o s : State} {r : Option State} (hr : KeepsP o r) (h : Keeps o s) : Keeps o (r.getD s) := by
  cases r with
  | none => exact h
  | some t => exact hr.some_keeps t rfl

theorem Keeps.ite {o a b : State} {c : Prop} [Decidable c] (ha : Keeps o a) (hb : Keeps o b) :
    Keeps o (if c then a else b) := by split <;> assumption

theorem Keeps.iteCom {o : State} {a b : Com} {c : Prop} [Decidable c] (ha : Keeps o a.s) (hb : Keeps o b.s) :
    Keeps o (if c then a else b).s := by split <;> assumption

theorem Keeps.iteSnd {α : Type} {o : State} {a b : α × State} {c : Prop} [Decidable c] (ha : Keeps o a.2) (hb : Keeps o b.2) :
    Keeps o (if c then a else b).2 := by split <;> assumption

theorem Keeps.iteSndCom {α : Type} {o : State} {a b : α × Com} {c : Prop} [Decidable c] (ha : Keeps o a.2.s) (hb : Keeps o b.2.s) :
    Keeps o (if c then a else b).2.s := by split <;> assumption

theorem KeepsO.ite {o : State} {a b : Host.Outcome State Fault Refusal} {c : Prop} [Decidable c] (ha : KeepsO o a) (hb : KeepsO o b) :
    KeepsO o (if c then a else b) := by split <;> assumption

theorem Keeps.foldlCom {α : Type} {o : State} {c : Com} {f : Com → α → Com} {l : List α} (h : Keeps o c.s)
    (hf : ∀ x a, Keeps o x.s → Keeps o (f x a).s) : Keeps o (l.foldl f c).s := by
  induction l generalizing c with
  | nil => exact h
  | cons a r ih => exact ih (hf c a h)

theorem Keeps.foldlFst {α β : Type} {o : State} {p : State × β} {f : State × β → α → State × β} {l : List α} (h : Keeps o p.1)
    (hf : ∀ x a, Keeps o x.1 → Keeps o (f x a).1) : Keeps o (l.foldl f p).1 := by
  induction l generalizing p with
  | nil => exact h
  | cons a r ih => exact ih (hf p a h)

theorem Keeps.foldlComFst {α β : Type} {o : State} {p : Com × β} {f : Com × β → α → Com × β} {l : List α} (h : Keeps o p.1.s)
    (hf : ∀ x a, Keeps o x.1.s → Keeps o (f x a).1.s) : Keeps o (l.foldl f p).1.s := by
  induction l generalizing p with
  | nil => exact h
  | cons a r ih => exact ih (hf p a h)

theorem State.setReg_keeps {o s : State} {a v : Nat} (h : Keeps o s) : Keeps o (s.setReg a v) :=
  ⟨h.queue, h.time, h.sent, fun i => ⟨swf_sput _ (h.inv i).1 _ _, (h.inv i).2⟩⟩

theorem State.advance_keeps {o s : State} {dt : Nat} (h : Keeps o s) : Keeps o (s.advance dt) :=
  ⟨h.queue, Nat.le_trans h.time (Nat.le_add_right _ _), h.sent, h.inv⟩

theorem State.emit_keeps {o s : State} {e : Emission} (h : Keeps o s) : Keeps o (s.emit e) :=
  ⟨h.queue, h.time, h.sent.trans (List.prefix_append _ _), h.inv⟩

theorem State.setRing_keeps {o s : State} {n : Nat} {r : Ring} (h : Keeps o s) : Keeps o (s.setRing n r) :=
  ⟨h.queue, h.time, h.sent, fun i => ⟨(h.inv i).1, (h.inv i).2.1, (h.inv i).2.2.1, by
    show (s.rings.set n r).length = 16
    rw [List.length_set]; exact (h.inv i).2.2.2⟩⟩

theorem State.putRingWord_keeps {o s : State} {r : Ring} {pos : Nat} {v : Word} (h : Keeps o s) : Keeps o (s.putRingWord r pos v) :=
  ⟨h.queue, h.time, h.sent, fun i => ⟨(h.inv i).1, ramPutWord_wf (h.inv i).2.1 _ _, (h.inv i).2.2⟩⟩

theorem State.mainReset_keeps {o s : State} {ph : RunPhase} {cause : Nat} (h : Keeps o s) : Keeps o (s.mainReset ph cause) :=
  ⟨h.queue, h.time, h.sent, fun i => ⟨swf_sput _ (swf_filter _ (h.inv i).1 _) _ _, rfl, rfl, rfl⟩⟩

theorem zipIdx_swf (l : Bytes) (n : Nat) (lo : Option Nat) (h : ∀ k, lo = some k → k < n) :
    swfFrom ramDefault lo (((l.zipIdx n).filter fun x => decide (x.1 ≠ 0)).map fun x => (x.2, x.1)) = true := by
  induction l generalizing n lo with
  | nil => rfl
  | cons a r ih =>
    rw [List.zipIdx_cons, List.filter_cons]
    split
    · rename_i ha
      simp only [List.map_cons, swfFrom, Bool.and_eq_true]
      refine ⟨⟨?_, ?_⟩, ih (n + 1) (some n) (by intro k hk; cases hk; omega)⟩
      · cases lo with
        | none => rfl
        | some k => exact decide_eq_true (h k rfl)
      · exact decide_eq_true (by simpa [ramDefault] using ha)
    · exact ih (n + 1) lo (by intro k hk; have := h k hk; omega)

theorem foldl_ramPut_wf {α : Type} (l : List α) (f : α → Nat) (g : α → Byte) {m : List (Nat × Byte)} (h : Memory.wf m = true) :
    Memory.wf (l.foldl (fun m p => ramPut m (f p) (g p)) m) = true := by
  induction l generalizing m with
  | nil => exact h
  | cons a r ih => exact ih (ramPut_wf h _ _)

end Sys2Proof.Machine
end

