-- ==== Sys2Proof/Laws/KeepsErg.lean ====
section
/-! SUPPORT. The relation of Laws/Keeps.lean for registers, rings, the journal, the engine array and the commits: one lemma per operation. -/
namespace Sys2Proof.Machine

set_option linter.unusedTactic false
set_option linter.unusedVariables false

variable {k0 : State}

theorem State.irq_keeps {s : State} {a k : Nat} (hs : Keeps k0 s) : Keeps k0 (State.irq s a k) := by
  unfold State.irq
  try (conv => zeta)
  repeat' first
    | with_reducible assumption | with_reducible apply State.setReg_keeps | with_reducible apply Keeps.ite

theorem State.setBit_keeps {s : State} {a k : Nat} {b : Bool} (hs : Keeps k0 s) : Keeps k0 (State.setBit s a k b) := by
  unfold State.setBit
  try (conv => zeta)
  repeat' first
    | with_reducible assumption | with_reducible apply State.setReg_keeps

theorem State.setFld_keeps {s : State} {a hi lo v : Nat} (hs : Keeps k0 s) : Keeps k0 (State.setFld s a hi lo v) := by
  unfold State.setFld
  try (conv => zeta)
  repeat' first
    | with_reducible assumption | with_reducible apply State.setReg_keeps

theorem State.count_keeps {s : State} {a n : Nat} (hs : Keeps k0 s) : Keeps k0 (State.count s a n) := by
  unfold State.count
  try (conv => zeta)
  repeat' first
    | with_reducible assumption | with_reducible apply State.setReg_keeps

theorem State.answer_keeps {s : State} {w : Who} {r : Reply} (hs : Keeps k0 s) : Keeps k0 (State.answer s w r) := by
  unfold State.answer
  try (conv => zeta)
  repeat' first
    | with_reducible assumption | fail_if_no_progress (with_reducible apply Keeps.upd)

theorem State.busErr_keeps {s : State} {w : Who} (hs : Keeps k0 s) : Keeps k0 (State.busErr s w) := by
  unfold State.busErr
  try (conv => zeta)
  repeat' first
    | with_reducible assumption | with_reducible apply State.answer_keeps

theorem State.until_keeps {s : State} {due : Nat} (hs : Keeps k0 s) : Keeps k0 (State.until s due) := by
  unfold State.until
  try (conv => zeta)
  repeat' first
    | with_reducible assumption | with_reducible apply State.advance_keeps | with_reducible apply Keeps.ite

theorem State.idleTick_keeps {s : State} (hs : Keeps k0 s) : Keeps k0 (State.idleTick s) := by
  unfold State.idleTick
  try (conv => zeta)
  repeat' first
    | with_reducible assumption | with_reducible apply State.advance_keeps

theorem State.free_keeps {s : State} (hs : Keeps k0 s) : Keeps k0 (State.free s).2 := by
  unfold State.free
  try (conv => zeta)
  repeat' first
    | with_reducible assumption | fail_if_no_progress (with_reducible apply Keeps.upd)

theorem State.putWram_keeps {k0 s : State} {a : Nat} {b : Bytes} (hs : Keeps k0 s) : Keeps k0 (s.putWram a b) := by
  refine ⟨hs.queue, hs.time, hs.sent, fun i => ⟨(hs.inv i).1, ?_, (hs.inv i).2.2⟩⟩
  exact foldl_ramPut_wf _ _ _ (hs.inv i).2.1

theorem State.setCtx_keeps {s : State} {f : Ctx → Ctx} (hs : Keeps k0 s) : Keeps k0 (State.setCtx s f) := by
  unfold State.setCtx
  try (conv => zeta)
  repeat' first
    | with_reducible assumption | fail_if_no_progress (with_reducible apply Keeps.upd)

theorem State.setSlot_keeps {s : State} {i : Nat} {x : Slot} (hs : Keeps k0 s) : Keeps k0 (State.setSlot s i x) := by
  unfold State.setSlot
  try (conv => zeta)
  repeat' first
    | with_reducible assumption | fail_if_no_progress (with_reducible apply Keeps.upd)

theorem State.takeLock_keeps {s : State} {i : Nat} (hs : Keeps k0 s) : Keeps k0 (State.takeLock s i) := by
  unfold State.takeLock
  try (conv => zeta)
  repeat' first
    | with_reducible assumption | fail_if_no_progress (with_reducible apply Keeps.upd)

theorem State.dropLock_keeps {s : State} {i : Nat} (hs : Keeps k0 s) : Keeps k0 (State.dropLock s i) := by
  unfold State.dropLock
  try (conv => zeta)
  repeat' first
    | with_reducible assumption | fail_if_no_progress (with_reducible apply Keeps.upd)

theorem State.lockedWrite_keeps {s : State} {i : Nat} {x : Slot} (hs : Keeps k0 s) : Keeps k0 (State.lockedWrite s i x) := by
  unfold State.lockedWrite
  try (conv => zeta)
  repeat' first
    | with_reducible assumption | with_reducible apply State.dropLock_keeps | with_reducible apply State.setSlot_keeps
    | with_reducible apply State.takeLock_keeps

theorem State.idxAdd_keeps {s : State} {e i : Nat} (hs : Keeps k0 s) : Keeps k0 (State.idxAdd s e i) := by
  unfold State.idxAdd
  try (conv => zeta)
  repeat' first
    | with_reducible assumption | fail_if_no_progress (with_reducible apply Keeps.upd) | split

theorem State.idxDrop_keeps {s : State} {i : Nat} (hs : Keeps k0 s) : Keeps k0 (State.idxDrop s i) := by
  unfold State.idxDrop
  try (conv => zeta)
  repeat' first
    | with_reducible assumption | fail_if_no_progress (with_reducible apply Keeps.upd)

theorem State.idxRebuild_keeps {s : State} (hs : Keeps k0 s) : Keeps k0 (State.idxRebuild s) := by
  unfold State.idxRebuild
  try (conv => zeta)
  repeat' first
    | with_reducible assumption | fail_if_no_progress (with_reducible apply Keeps.upd)
    | (with_reducible apply Keeps.foldl) <;> (try (intro x a hx; try beta_reduce; try (conv => zeta))) | with_reducible apply State.idxAdd_keeps

theorem State.wadi_keeps {s : State} {n : Nat} (hs : Keeps k0 s) : Keeps k0 (State.wadi s n) := by
  unfold State.wadi
  try (conv => zeta)
  repeat' first
    | with_reducible assumption | with_reducible apply State.irq_keeps | with_reducible apply State.putRingWord_keeps
    | with_reducible apply State.setRing_keeps | with_reducible apply Keeps.ite

theorem State.ringOpen_keeps {s0 : State} {n : Nat} (hs0 : Keeps k0 s0) : Keeps k0 (State.ringOpen s0 n).2 := by
  unfold State.ringOpen
  try (conv => zeta)
  repeat' first
    | with_reducible assumption | with_reducible apply State.setRing_keeps | with_reducible apply State.wadi_keeps
    | with_reducible apply Keeps.iteSnd

theorem State.ringPush_keeps {s : State} {n : Nat} {v : Word} (hs : Keeps k0 s) : Keeps k0 (State.ringPush s n v).2 := by
  unfold State.ringPush
  try (conv => zeta)
  repeat' first
    | with_reducible assumption | with_reducible apply State.putRingWord_keeps | with_reducible apply State.setRing_keeps
    | with_reducible apply Keeps.iteSnd | split

theorem State.ringClose_keeps {s : State} {n ty : Nat} (hs : Keeps k0 s) : Keeps k0 (State.ringClose s n ty).2 := by
  unfold State.ringClose
  try (conv => zeta)
  repeat' first
    | with_reducible assumption | with_reducible apply State.putRingWord_keeps | with_reducible apply State.setRing_keeps
    | with_reducible apply Keeps.iteSnd | split

theorem State.ringOp_keeps {s : State} {n : Nat} {p0 : RingOp} (hs : Keeps k0 s) : Keeps k0 (State.ringOp s n p0).2 := by
  unfold State.ringOp
  try (conv => zeta)
  repeat' first
    | with_reducible assumption | with_reducible apply State.ringClose_keeps | with_reducible apply State.ringOpen_keeps
    | with_reducible apply State.ringPush_keeps | split

theorem State.ringOp_keeps_eq {s : State} {n : Nat} {p0 : RingOp} {y0 : PortRes} {y1 : State} (hs : Keeps k0 s) (heq0 : State.ringOp s n p0 = (y0,
    y1)) : Keeps k0 y1 := by
  have hh := State.ringOp_keeps (k0 := k0) (s := s) (n := n) (p0 := p0) hs
  rw [heq0] at hh; exact hh

theorem State.opened_keeps {s : State} {n : Nat} {reg : Bool} {p0 : RingOp} (hs : Keeps k0 s) : Keeps k0 (State.opened s n reg p0) := by
  unfold State.opened
  try (conv => zeta)
  repeat' first
    | with_reducible assumption | with_reducible apply State.setRing_keeps | split

theorem State.completed_keeps {s : State} {reg : Bool} {r : Reply} (hs : Keeps k0 s) : Keeps k0 (State.completed s reg r) := by
  unfold State.completed
  try (conv => zeta)
  repeat' first
    | with_reducible assumption | with_reducible apply State.answer_keeps | with_reducible apply Keeps.ite

theorem State.ringFeed_keeps {n p0 : Nat} {p1 : State} (hp1 : Keeps k0 p1) : Keeps k0 (State.ringFeed n p0 p1) := by
  induction p0 generalizing p1 with
  | zero =>
    unfold State.ringFeed
    try (conv => zeta)
    repeat' first
      | with_reducible assumption
  | succ n ih =>
    unfold State.ringFeed
    try (conv => zeta)
    repeat' first
      | with_reducible assumption | apply ih | with_reducible apply State.completed_keeps | with_reducible apply State.opened_keeps
      | with_reducible refine State.ringOp_keeps_eq ?_ (by assumption) | with_reducible apply State.setRing_keeps | with_reducible apply Keeps.ite
      | split

theorem State.ringDrain_keeps {s : State} {n : Nat} (hs : Keeps k0 s) : Keeps k0 (State.ringDrain s n) := by
  unfold State.ringDrain
  try (conv => zeta)
  repeat' first
    | with_reducible assumption | with_reducible apply State.ringFeed_keeps

theorem State.ringPacket_keeps {s : State} {n ty : Nat} {ws : List Word} (hs : Keeps k0 s) : Keeps k0 (State.ringPacket s n ty ws) := by
  unfold State.ringPacket
  try (conv => zeta)
  repeat' first
    | with_reducible assumption | with_reducible apply State.ringDrain_keeps | with_reducible apply State.setRing_keeps
    | with_reducible apply Keeps.ite

theorem State.ringPort_keeps {s : State} {n : Nat} {reg : Bool} {op : RingOp} (hs : Keeps k0 s) : Keeps k0 (State.ringPort s n reg op).2 := by
  unfold State.ringPort
  try (conv => zeta)
  repeat' first
    | with_reducible assumption | with_reducible apply State.opened_keeps | with_reducible apply State.ringDrain_keeps
    | with_reducible refine State.ringOp_keeps_eq ?_ (by assumption) | with_reducible apply State.setRing_keeps | with_reducible apply Keeps.iteSnd
    | split

theorem State.ringPop_keeps {s : State} {n : Nat} (hs : Keeps k0 s) : Keeps k0 (State.ringPop s n).2 := by
  unfold State.ringPop
  try (conv => zeta)
  repeat' first
    | with_reducible assumption | with_reducible apply State.setRing_keeps | with_reducible apply Keeps.iteSnd

theorem State.ringDropRest_keeps {s : State} {n : Nat} (hs : Keeps k0 s) : Keeps k0 (State.ringDropRest s n) := by
  unfold State.ringDropRest
  try (conv => zeta)
  repeat' first
    | with_reducible assumption | with_reducible apply State.setRing_keeps | with_reducible apply Keeps.ite

theorem State.ringTake_keeps {s : State} {n : Nat} (hs : Keeps k0 s) : Keeps k0 (State.ringTake s n).2 := by
  unfold State.ringTake
  try (conv => zeta)
  repeat' first
    | with_reducible assumption | with_reducible apply State.setRing_keeps | split

theorem State.ringTake_keeps_eq {s : State} {n : Nat} {y0 : Item} {y1 : State} (hs : Keeps k0 s) (heq0 : State.ringTake s n = (y0, y1)) : Keeps k0
    y1 := by
  have hh := State.ringTake_keeps (k0 := k0) (s := s) (n := n) hs
  rw [heq0] at hh; exact hh

theorem State.offer_keeps {s : State} {ring : Nat} {i : Input} (hs : Keeps k0 s) : Keeps k0 (State.offer s ring i) := by
  unfold State.offer
  try (conv => zeta)
  repeat' first
    | with_reducible assumption | with_reducible apply State.ringPacket_keeps

theorem State.event_keeps {s : State} {cls arg : Nat} {slot : Option Nat} {data : Bytes} (hs : Keeps k0 s) : Keeps k0 (State.event s cls arg slot
    data) := by
  unfold State.event
  try (conv => zeta)
  repeat' first
    | with_reducible assumption | with_reducible apply State.ringPacket_keeps

theorem State.unflip_keeps {s : State} {w : StoreWord} (hs : Keeps k0 s) : Keeps k0 (State.unflip s w) := by
  unfold State.unflip
  try (conv => zeta)
  repeat' first
    | with_reducible assumption | fail_if_no_progress (with_reducible apply Keeps.upd)

theorem State.correctWord_keeps {s : State} {w : StoreWord} (hs : Keeps k0 s) : Keeps k0 (State.correctWord s w) := by
  unfold State.correctWord
  try (conv => zeta)
  repeat' first
    | with_reducible assumption | with_reducible apply State.setFld_keeps | with_reducible apply State.unflip_keeps

theorem State.faultSlot_keeps {s : State} {i : Nat} (hs : Keeps k0 s) : Keeps k0 (State.faultSlot s i) := by
  unfold State.faultSlot
  try (conv => zeta)
  repeat' first
    | with_reducible assumption | with_reducible apply State.event_keeps | with_reducible apply State.irq_keeps
    | with_reducible apply State.setFld_keeps | with_reducible apply State.setReg_keeps | with_reducible apply State.setSlot_keeps

theorem State.scrub_keeps {s : State} {i : Nat} (hs : Keeps k0 s) : Keeps k0 (State.scrub s i) := by
  unfold State.scrub
  try (conv => zeta)
  repeat' first
    | with_reducible assumption | (with_reducible apply Keeps.foldl) <;> (try (intro x a hx; try beta_reduce; try (conv => zeta)))
    | with_reducible apply State.correctWord_keeps | with_reducible apply State.faultSlot_keeps | with_reducible apply State.unflip_keeps
    | with_reducible apply Keeps.ite

theorem State.scrubCells_keeps {s : State} {cells : List Nat} (hs : Keeps k0 s) : Keeps k0 (State.scrubCells s cells) := by
  unfold State.scrubCells
  try (conv => zeta)
  repeat' first
    | with_reducible assumption | (with_reducible apply Keeps.foldl) <;> (try (intro x a hx; try beta_reduce; try (conv => zeta)))
    | with_reducible apply State.correctWord_keeps

theorem State.scrubIndex_keeps {s : State} {e : Nat} (hs : Keeps k0 s) : Keeps k0 (State.scrubIndex s e) := by
  unfold State.scrubIndex
  try (conv => zeta)
  repeat' first
    | with_reducible assumption | with_reducible apply State.scrubCells_keeps

theorem State.setSef_keeps {s : State} {f : Sef → Sef} (hs : Keeps k0 s) : Keeps k0 (State.setSef s f) := by
  unfold State.setSef
  try (conv => zeta)
  repeat' first
    | with_reducible assumption | fail_if_no_progress (with_reducible apply Keeps.upd)

theorem State.setLink_keeps {s : State} {n : Nat} {f : SefLink → SefLink} (hs : Keeps k0 s) : Keeps k0 (State.setLink s n f) := by
  unfold State.setLink
  try (conv => zeta)
  repeat' first
    | with_reducible assumption | with_reducible apply State.setSef_keeps

theorem State.linkPump_keeps {n p0 : Nat} {p1 : State} (hp1 : Keeps k0 p1) : Keeps k0 (State.linkPump n p0 p1) := by
  induction p0 generalizing p1 with
  | zero =>
    unfold State.linkPump
    try (conv => zeta)
    repeat' first
      | with_reducible assumption
  | succ n ih =>
    unfold State.linkPump
    try (conv => zeta)
    repeat' first
      | with_reducible assumption | apply ih | with_reducible apply State.emit_keeps | with_reducible apply State.setLink_keeps
      | with_reducible apply Keeps.ite | split

theorem State.linkPut_keeps {s : State} {n : Nat} {f : Bytes} (hs : Keeps k0 s) : Keeps k0 (State.linkPut s n f) := by
  unfold State.linkPut
  try (conv => zeta)
  repeat' first
    | with_reducible assumption | with_reducible apply State.linkPump_keeps | with_reducible apply State.setLink_keeps
    | with_reducible apply Keeps.ite

theorem State.sefSend_keeps {s : State} {ty dst : Nat} {body : Bytes} (hs : Keeps k0 s) : Keeps k0 (State.sefSend s ty dst body) := by
  unfold State.sefSend
  try (conv => zeta)
  repeat' first
    | with_reducible assumption | with_reducible apply State.linkPut_keeps | with_reducible apply Keeps.ite | split

theorem State.sefSendTo_keeps {s : State} {ty : Nat} {ps : List Peer} {body : Bytes} (hs : Keeps k0 s) : Keeps k0 (State.sefSendTo s ty ps body) := by
  unfold State.sefSendTo
  try (conv => zeta)
  repeat' first
    | with_reducible assumption | (with_reducible apply Keeps.foldl) <;> (try (intro x a hx; try beta_reduce; try (conv => zeta)))
    | with_reducible apply State.sefSend_keeps

theorem State.q8Drain_keeps {p0 : Nat} {p1 : State} (hp1 : Keeps k0 p1) : Keeps k0 (State.q8Drain p0 p1) := by
  induction p0 generalizing p1 with
  | zero =>
    unfold State.q8Drain
    try (conv => zeta)
    repeat' first
      | with_reducible assumption
  | succ n ih =>
    unfold State.q8Drain
    try (conv => zeta)
    repeat' first
      | with_reducible assumption | apply ih | with_reducible apply State.ringDrain_keeps
      | with_reducible refine State.ringTake_keeps_eq ?_ (by assumption) | with_reducible apply State.sefSend_keeps | split

theorem State.q8Send_keeps {s : State} {ty dst : Nat} {body : Bytes} (hs : Keeps k0 s) : Keeps k0 (State.q8Send s ty dst body) := by
  unfold State.q8Send
  try (conv => zeta)
  repeat' first
    | with_reducible assumption | with_reducible apply State.q8Drain_keeps | with_reducible apply State.ringPacket_keeps

theorem State.replicate_keeps {s : State} {e : Entry} (hs : Keeps k0 s) : Keeps k0 (State.replicate s e) := by
  unfold State.replicate
  try (conv => zeta)
  repeat' first
    | with_reducible assumption | with_reducible apply State.sefSendTo_keeps | with_reducible apply Keeps.ite

theorem State.append_keeps {s : State} {kind : Kind} {cls : EClass} {src : Src} {stamp : Nat} {flags : EFlags} {payload : Bytes} (hs : Keeps k0 s)
    : Keeps k0 (State.append s kind cls src stamp flags payload) := by
  unfold State.append
  try (conv => zeta)
  repeat' first
    | with_reducible assumption | fail_if_no_progress (with_reducible apply Keeps.upd) | with_reducible apply State.replicate_keeps
    | with_reducible apply State.ringPacket_keeps

theorem State.journalInput_keeps {s : State} {i : Input} (hs : Keeps k0 s) : Keeps k0 (State.journalInput s i) := by
  unfold State.journalInput
  try (conv => zeta)
  repeat' first
    | with_reducible assumption | with_reducible apply State.append_keeps

theorem State.journalOwn_keeps {s : State} {kind : Kind} {payload : Bytes} (hs : Keeps k0 s) : Keeps k0 (State.journalOwn s kind payload) := by
  unfold State.journalOwn
  try (conv => zeta)
  repeat' first
    | with_reducible assumption | with_reducible apply State.append_keeps

theorem State.recoverHeld_keeps {s : State} (hs : Keeps k0 s) : Keeps k0 (State.recoverHeld s) := by
  unfold State.recoverHeld
  try (conv => zeta)
  repeat' first
    | with_reducible assumption | fail_if_no_progress (with_reducible apply Keeps.upd) | with_reducible apply State.irq_keeps
    | with_reducible apply Keeps.ite

theorem State.journalBoundary_keeps {s : State} {T : Nat} {held : Bool} {b : Kind × Nat} (hs : Keeps k0 s) : Keeps k0 (State.journalBoundary s T
    held b) := by
  unfold State.journalBoundary
  try (conv => zeta)
  repeat' first
    | with_reducible assumption | fail_if_no_progress (with_reducible apply Keeps.upd) | with_reducible apply State.append_keeps
    | with_reducible apply State.irq_keeps | with_reducible apply Keeps.ite

theorem State.releaseHeldPeriod_keeps {s : State} (hs : Keeps k0 s) : Keeps k0 (State.releaseHeldPeriod s) := by
  unfold State.releaseHeldPeriod
  try (conv => zeta)
  repeat' first
    | with_reducible assumption | fail_if_no_progress (with_reducible apply Keeps.upd) | with_reducible apply State.append_keeps
    | with_reducible apply Keeps.ite | split

theorem State.journalBoundaries_keeps {s : State} {T : Nat} {held : Bool} (hs : Keeps k0 s) : Keeps k0 (State.journalBoundaries s T held) := by
  unfold State.journalBoundaries
  try (conv => zeta)
  repeat' first
    | with_reducible assumption | fail_if_no_progress (with_reducible apply Keeps.upd)
    | (with_reducible apply Keeps.foldl) <;> (try (intro x a hx; try beta_reduce; try (conv => zeta)))
    | with_reducible apply State.journalBoundary_keeps

theorem State.journalCrossed_keeps {s : State} {hi : Nat} (hs : Keeps k0 s) : Keeps k0 (State.journalCrossed s hi) := by
  unfold State.journalCrossed
  try (conv => zeta)
  repeat' first
    | with_reducible assumption | (with_reducible apply Keeps.foldl) <;> (try (intro x a hx; try beta_reduce; try (conv => zeta)))
    | with_reducible apply State.journalBoundaries_keeps

theorem State.journalHeld_keeps {s : State} {h : HeldIn} (hs : Keeps k0 s) : Keeps k0 (State.journalHeld s h) := by
  unfold State.journalHeld
  try (conv => zeta)
  repeat' first
    | with_reducible assumption | with_reducible apply State.append_keeps | with_reducible apply State.journalInput_keeps
    | with_reducible apply Keeps.ite | split

theorem State.endHold_keeps {s : State} {warn : Option Input} (hs : Keeps k0 s) : Keeps k0 (State.endHold s warn) := by
  unfold State.endHold
  try (conv => zeta)
  repeat' first
    | with_reducible assumption | fail_if_no_progress (with_reducible apply Keeps.upd)
    | (with_reducible apply Keeps.foldl) <;> (try (intro x a hx; try beta_reduce; try (conv => zeta)))
    | with_reducible apply State.journalBoundaries_keeps | with_reducible apply State.journalHeld_keeps
    | with_reducible apply State.journalInput_keeps | with_reducible apply Keeps.ite | split

theorem State.holdStore_keeps {s : State} {h : Hold} {x : HeldIn} (hs : Keeps k0 s) : Keeps k0 (State.holdStore s h x) := by
  unfold State.holdStore
  try (conv => zeta)
  repeat' first
    | with_reducible assumption | with_reducible apply State.putWram_keeps

theorem State.holdFull_keeps {s : State} (hs : Keeps k0 s) : Keeps k0 (State.holdFull s) := by
  unfold State.holdFull
  try (conv => zeta)
  repeat' first
    | with_reducible assumption | with_reducible apply State.endHold_keeps | with_reducible apply State.event_keeps
    | with_reducible apply State.irq_keeps

theorem State.takeInput_keeps {s : State} {ring : Nat} {l : Word} {ws : List Word} (hs : Keeps k0 s) : Keeps k0 (State.takeInput s ring l ws) := by
  unfold State.takeInput
  try (conv => zeta)
  repeat' first
    | with_reducible assumption | fail_if_no_progress (with_reducible apply Keeps.upd) | with_reducible apply State.endHold_keeps
    | with_reducible apply State.holdFull_keeps | with_reducible apply State.holdStore_keeps | with_reducible apply State.journalHeld_keeps
    | with_reducible apply Keeps.ite | split

theorem State.untilDev_keeps {s : State} {d : Nat} (hs : Keeps k0 s) : Keeps k0 (State.untilDev s d) := by
  unfold State.untilDev
  try (conv => zeta)
  repeat' first
    | with_reducible assumption | with_reducible apply State.advance_keeps | with_reducible apply Keeps.ite

theorem State.poolCheck_keeps {s : State} (hs : Keeps k0 s) : Keeps k0 (State.poolCheck s) := by
  unfold State.poolCheck
  try (conv => zeta)
  repeat' first
    | with_reducible assumption | fail_if_no_progress (with_reducible apply Keeps.upd) | with_reducible apply State.irq_keeps
    | with_reducible apply Keeps.ite

theorem State.enqueue_keeps {s : State} {t : Task} (hs : Keeps k0 s) : Keeps k0 (State.enqueue s t) := by
  unfold State.enqueue
  try (conv => zeta)
  repeat' first
    | with_reducible assumption | fail_if_no_progress (with_reducible apply Keeps.upd) | split

theorem State.setHead_keeps {s : State} {k : Key} {t : Task} (hs : Keeps k0 s) : Keeps k0 (State.setHead s k t) := by
  unfold State.setHead
  try (conv => zeta)
  repeat' first
    | with_reducible assumption | fail_if_no_progress (with_reducible apply Keeps.upd)

theorem State.dropHead_keeps {s : State} {k : Key} (hs : Keeps k0 s) : Keeps k0 (State.dropHead s k) := by
  unfold State.dropHead
  try (conv => zeta)
  repeat' first
    | with_reducible assumption | fail_if_no_progress (with_reducible apply Keeps.upd)

theorem State.setDune_keeps {s : State} {d : Nat} {x : Dune} (hs : Keeps k0 s) : Keeps k0 (State.setDune s d x) := by
  unfold State.setDune
  try (conv => zeta)
  repeat' first
    | with_reducible assumption | fail_if_no_progress (with_reducible apply Keeps.upd)

theorem State.noteIdle_keeps {s0 s : State} (hs0 : Keeps k0 s0) (hs : Keeps k0 s) : Keeps k0 (State.noteIdle s0 s) := by
  unfold State.noteIdle
  try (conv => zeta)
  repeat' first
    | with_reducible assumption | (with_reducible apply Keeps.foldl) <;> (try (intro x a hx; try beta_reduce; try (conv => zeta)))
    | with_reducible apply State.setDune_keeps | with_reducible apply Keeps.ite

theorem State.leaveDunes_keeps {s : State} (hs : Keeps k0 s) : Keeps k0 (State.leaveDunes s) := by
  unfold State.leaveDunes
  try (conv => zeta)
  repeat' first
    | with_reducible assumption | (with_reducible apply Keeps.foldl) <;> (try (intro x a hx; try beta_reduce; try (conv => zeta)))
    | with_reducible apply State.setDune_keeps | with_reducible apply Keeps.ite

theorem State.deliverDraw_keeps {s : State} {e : Entry} (hs : Keeps k0 s) : Keeps k0 (State.deliverDraw s e) := by
  unfold State.deliverDraw
  try (conv => zeta)
  repeat' first
    | with_reducible assumption | fail_if_no_progress (with_reducible apply Keeps.upd) | with_reducible apply State.setHead_keeps
    | with_reducible apply Keeps.ite | split

theorem State.dispatchEntry_keeps {s : State} {e : Entry} (hs : Keeps k0 s) : Keeps k0 (State.dispatchEntry s e) := by
  unfold State.dispatchEntry
  try (conv => zeta)
  repeat' first
    | with_reducible assumption | fail_if_no_progress (with_reducible apply Keeps.upd)
    | (with_reducible apply Keeps.foldl) <;> (try (intro x a hx; try beta_reduce; try (conv => zeta))) | with_reducible apply State.deliverDraw_keeps
    | with_reducible apply State.enqueue_keeps | with_reducible apply State.poolCheck_keeps | with_reducible apply Keeps.ite

theorem State.dispatchOne_keeps {s : State} (hs : Keeps k0 s) : Keeps k0 (State.dispatchOne s) := by
  unfold State.dispatchOne
  try (conv => zeta)
  repeat' first
    | with_reducible assumption | fail_if_no_progress (with_reducible apply Keeps.upd) | with_reducible apply State.dispatchEntry_keeps
    | with_reducible apply State.noteIdle_keeps | with_reducible apply Keeps.ite | split

theorem State.dispatchN_keeps {p0 : Nat} {p1 : State} (hp1 : Keeps k0 p1) : Keeps k0 (State.dispatchN p0 p1) := by
  induction p0 generalizing p1 with
  | zero =>
    unfold State.dispatchN
    try (conv => zeta)
    repeat' first
      | with_reducible assumption
  | succ n ih =>
    unfold State.dispatchN
    try (conv => zeta)
    repeat' first
      | with_reducible assumption | apply ih | with_reducible apply State.dispatchOne_keeps

theorem State.dispatchAll_keeps {s : State} (hs : Keeps k0 s) : Keeps k0 (State.dispatchAll s) := by
  unfold State.dispatchAll
  try (conv => zeta)
  repeat' first
    | with_reducible assumption | with_reducible apply State.dispatchN_keeps

theorem Com.upd_keeps {k0 : State} {c : Com} {f : State → State} (hc : Keeps k0 c.s) (hf : ∀ x, Keeps k0 x → Keeps k0 (f x)) :
    Keeps k0 (c.upd f).s := hf _ hc

theorem Com.ctx_keeps {c : Com} {f : Ctx → Ctx} (hc : Keeps k0 c.s) : Keeps k0 (Com.ctx c f).s := by
  unfold Com.ctx
  try (conv => zeta)
  repeat' first
    | with_reducible assumption | fail_if_no_progress (with_reducible apply Keeps.upd)

theorem Com.out_keeps {c : Com} {rtype : Nat} {bytes : Bytes} {dest : OutDest} (hc : Keeps k0 c.s) : Keeps k0 (Com.out c rtype bytes dest).s := by
  unfold Com.out
  try (conv => zeta)
  repeat' first
    | with_reducible assumption

theorem Com.sealed_keeps {c : Com} {rtype : Nat} {body : Bytes} (hc : Keeps k0 c.s) : Keeps k0 (Com.sealed c rtype body).s := by
  unfold Com.sealed
  try (conv => zeta)
  repeat' first
    | with_reducible assumption | with_reducible apply Com.out_keeps

theorem Com.event_keeps {c : Com} {cls arg : Nat} {slot : Option Nat} {data : Bytes} (hc : Keeps k0 c.s) : Keeps k0 (Com.event c cls arg slot
    data).s := by
  unfold Com.event
  try (conv => zeta)
  repeat' first
    | with_reducible assumption | with_reducible apply Com.sealed_keeps

theorem Com.setSlot_keeps {c : Com} {i : Nat} {x : Slot} (hc : Keeps k0 c.s) : Keeps k0 (Com.setSlot c i x).s := by
  unfold Com.setSlot
  try (conv => zeta)
  repeat' first
    | with_reducible assumption | (intro x; try beta_reduce; try (conv => zeta)) | with_reducible apply Com.upd_keeps
    | with_reducible apply State.lockedWrite_keeps

theorem Com.useDraw_keeps {k0 : State} {c : Com} {tag n : Nat} {f : Com → Bytes → Com} (hc : Keeps k0 c.s)
    (hf : ∀ x b, Keeps k0 x.s → Keeps k0 (f x b).s) : Keeps k0 (c.useDraw tag n f).s := by
  unfold Com.useDraw
  split
  · exact hf _ _ hc
  · exact hc

theorem Com.finish_keeps {c : Com} (hc : Keeps k0 c.s) : Keeps k0 (Com.finish c) := by
  unfold Com.finish
  try (conv => zeta)
  repeat' first
    | with_reducible assumption | fail_if_no_progress (with_reducible apply Keeps.upd)

theorem Com.accAdd_keeps {c : Com} {i n : Nat} {e : Int} (hc : Keeps k0 c.s) : Keeps k0 (Com.accAdd c i n e).s := by
  unfold Com.accAdd
  try (conv => zeta)
  repeat' first
    | with_reducible assumption | (intro x; try beta_reduce; try (conv => zeta)) | with_reducible apply Com.event_keeps
    | with_reducible apply Com.setSlot_keeps | with_reducible apply Com.upd_keeps | with_reducible apply State.count_keeps
    | with_reducible apply State.irq_keeps | with_reducible apply Keeps.iteCom

theorem Com.demandCandidate_keeps {c : Com} {i : Nat} {e : Ent} {unit endAt energy band : Nat} (hc : Keeps k0 c.s) : Keeps k0 (Com.demandCandidate
    c i e unit endAt energy band).s := by
  unfold Com.demandCandidate
  try (conv => zeta)
  repeat' first
    | with_reducible assumption | with_reducible apply Com.setSlot_keeps | with_reducible apply Keeps.iteCom

theorem Com.attribute_keeps {c : Com} {i : Nat} {t : Ent} {cls : Nat} {ce : ClassEnt} {e v : Int} {exp : Nat} {prof : Option (Nat × List Nat)}
    {cand : Bool} (hc : Keeps k0 c.s) : Keeps k0 (Com.attribute c i t cls ce e v exp prof cand).2.s := by
  unfold Com.attribute
  try (conv => zeta)
  repeat' first
    | with_reducible assumption | (with_reducible apply Keeps.foldlCom) <;> (try (intro x a hx; try beta_reduce; try (conv => zeta)))
    | with_reducible apply Com.accAdd_keeps | with_reducible apply Com.demandCandidate_keeps | with_reducible apply Keeps.iteCom
    | with_reducible apply Keeps.iteSndCom | split

theorem Com.capture_keeps {c : Com} {i : Nat} {f : Fence} (hc : Keeps k0 c.s) : Keeps k0 (Com.capture c i f).s := by
  unfold Com.capture
  try (conv => zeta)
  repeat' first
    | with_reducible assumption | with_reducible apply Com.ctx_keeps | with_reducible apply Com.setSlot_keeps | with_reducible apply Keeps.iteCom

theorem Com.cell_keeps {c : Com} {g : Nat} {t0 : Int} {f : Cell → Cell} (hc : Keeps k0 c.s) : Keeps k0 (Com.cell c g t0 f).s := by
  unfold Com.cell
  try (conv => zeta)
  repeat' first
    | with_reducible assumption | with_reducible apply Com.ctx_keeps

theorem Com.share_keeps {c : Com} {e : BalGroup} {g eff : Nat} {k : Contrib} {t0 v : Int} {o : Nat} (hc : Keeps k0 c.s) : Keeps k0 (Com.share c e g
    eff k t0 v o).s := by
  unfold Com.share
  try (conv => zeta)
  repeat' first
    | with_reducible assumption | with_reducible apply Com.cell_keeps | with_reducible apply Keeps.iteCom

theorem Com.contribute_keeps {c : Com} {g : Nat} {k : Contrib} {imp exp : Int} {a b : Nat} {t : Ent} (hc : Keeps k0 c.s) : Keeps k0 (Com.contribute
    c g k imp exp a b t).s := by
  unfold Com.contribute
  try (conv => zeta)
  repeat' first
    | with_reducible assumption | (with_reducible apply Keeps.foldlComFst) <;> (try (intro x a hx; try beta_reduce; try (conv => zeta)))
    | with_reducible apply Com.cell_keeps | with_reducible apply Com.share_keeps | with_reducible apply Keeps.iteCom | split

theorem Com.slotContrib_keeps {c : Com} {i : Nat} {imp : Int} {exp a b : Nat} {cover : Bool} {t : Ent} (hc : Keeps k0 c.s) : Keeps k0
    (Com.slotContrib c i imp exp a b cover t).s := by
  unfold Com.slotContrib
  try (conv => zeta)
  repeat' first
    | with_reducible assumption | with_reducible apply Com.cell_keeps | with_reducible apply Com.contribute_keeps | split

theorem Com.tamperRead_keeps {c : Com} {i b : Nat} {t : Ent} (hc : Keeps k0 c.s) : Keeps k0 (Com.tamperRead c i b t).s := by
  unfold Com.tamperRead
  try (conv => zeta)
  repeat' first
    | with_reducible assumption | with_reducible apply Com.cell_keeps | with_reducible apply Keeps.iteCom | split

theorem Com.endpointStep_keeps {c : Com} {i : Nat} {w : Int} {instant jsn : Nat} {t : Ent} (hc : Keeps k0 c.s) : Keeps k0 (Com.endpointStep c i w
    instant jsn t).s := by
  unfold Com.endpointStep
  try (conv => zeta)
  repeat' first
    | with_reducible assumption | with_reducible apply Com.cell_keeps | with_reducible apply Keeps.iteCom | split

theorem Com.feederStep_keeps {c : Com} {phase : Nat} {w : Int} {instant jsn eff : Nat} (hc : Keeps k0 c.s) : Keeps k0 (Com.feederStep c phase w
    instant jsn eff).s := by
  unfold Com.feederStep
  try (conv => zeta)
  repeat' first
    | with_reducible assumption | (with_reducible apply Keeps.foldlCom) <;> (try (intro x a hx; try beta_reduce; try (conv => zeta)))
    | with_reducible apply Com.cell_keeps | with_reducible apply Keeps.iteCom

theorem Com.feederTamper_keeps {c : Com} {hits : Nat → Bool} {instant eff : Nat} (hc : Keeps k0 c.s) : Keeps k0 (Com.feederTamper c hits instant
    eff).s := by
  unfold Com.feederTamper
  try (conv => zeta)
  repeat' first
    | with_reducible assumption | (with_reducible apply Keeps.foldlCom) <;> (try (intro x a hx; try beta_reduce; try (conv => zeta)))
    | with_reducible apply Com.cell_keeps | with_reducible apply Keeps.iteCom

theorem Com.closeCell_keeps {c : Com} {g : Nat} {e : BalGroup} {held : Bool} {t0 : Int} (hc : Keeps k0 c.s) : Keeps k0 (Com.closeCell c g e held
    t0).s := by
  unfold Com.closeCell
  try (conv => zeta)
  repeat' first
    | with_reducible assumption | with_reducible apply Com.ctx_keeps | with_reducible apply Com.event_keeps | with_reducible apply Com.sealed_keeps
    | with_reducible apply Keeps.iteCom

theorem Com.balanceClose_keeps {c : Com} {g : Nat} {held : Bool} (hc : Keeps k0 c.s) : Keeps k0 (Com.balanceClose c g held).s := by
  unfold Com.balanceClose
  try (conv => zeta)
  repeat' first
    | with_reducible assumption | (with_reducible apply Keeps.foldlCom) <;> (try (intro x a hx; try beta_reduce; try (conv => zeta)))
    | with_reducible apply Com.closeCell_keeps | with_reducible apply Com.ctx_keeps | split

theorem Com.showPush_keeps {c : Com} {i : Nat} (hc : Keeps k0 c.s) : Keeps k0 (Com.showPush c i).s := by
  unfold Com.showPush
  try (conv => zeta)
  repeat' first
    | with_reducible assumption | with_reducible apply Com.setSlot_keeps | split

theorem Com.install_keeps {c : Com} {i : Nat} (hc : Keeps k0 c.s) : Keeps k0 (Com.install c i).s := by
  unfold Com.install
  try (conv => zeta)
  repeat' first
    | with_reducible assumption | with_reducible apply Com.ctx_keeps | with_reducible apply Com.setSlot_keeps | split

theorem Com.setCand_keeps {c : Com} {i : Nat} {w : Bytes} (hc : Keeps k0 c.s) : Keeps k0 (Com.setCand c i w).s := by
  unfold Com.setCand
  try (conv => zeta)
  repeat' first
    | with_reducible assumption | with_reducible apply Com.ctx_keeps | with_reducible apply Com.setSlot_keeps

theorem Com.sendCurrent_keeps {c : Com} {i : Nat} (hc : Keeps k0 c.s) : Keeps k0 (Com.sendCurrent c i).2.s := by
  unfold Com.sendCurrent
  try (conv => zeta)
  repeat' first
    | with_reducible assumption | (intro x; try beta_reduce; try (conv => zeta)) | with_reducible apply Com.ctx_keeps
    | with_reducible apply Com.out_keeps | with_reducible apply Com.setSlot_keeps | with_reducible apply Com.upd_keeps
    | with_reducible apply State.count_keeps | with_reducible apply State.irq_keeps | with_reducible apply Keeps.iteSndCom | split

theorem Com.sendCurrent_keeps_eq {c : Com} {i : Nat} {y0 : SendRes} {y1 : Com} (hc : Keeps k0 c.s) (heq0 : Com.sendCurrent c i = (y0, y1)) : Keeps
    k0 y1.s := by
  have hh := Com.sendCurrent_keeps (k0 := k0) (c := c) (i := i) hc
  rw [heq0] at hh; exact hh

theorem Com.pushDone_keeps {c : Com} {i status : Nat} {trial : Bool} (hc : Keeps k0 c.s) : Keeps k0 (Com.pushDone c i status trial).s := by
  unfold Com.pushDone
  try (conv => zeta)
  repeat' first
    | with_reducible assumption | with_reducible apply Com.ctx_keeps | with_reducible apply Com.sealed_keeps | with_reducible apply Com.setSlot_keeps
    | with_reducible apply Com.showPush_keeps | with_reducible apply Keeps.iteCom | split

theorem Com.makeCurrent_keeps {c : Com} {i : Nat} {p : Push → Bool} (hc : Keeps k0 c.s) : Keeps k0 (Com.makeCurrent c i p).s := by
  unfold Com.makeCurrent
  try (conv => zeta)
  repeat' first
    | with_reducible assumption | with_reducible apply Com.ctx_keeps | split

theorem Com.displace_keeps {c : Com} {i : Nat} (hc : Keeps k0 c.s) : Keeps k0 (Com.displace c i).s := by
  unfold Com.displace
  try (conv => zeta)
  repeat' first
    | with_reducible assumption | with_reducible apply Com.ctx_keeps

theorem Com.autoRekey_keeps {c : Com} {i : Nat} {w : Bytes} (hc : Keeps k0 c.s) : Keeps k0 (Com.autoRekey c i w).s := by
  unfold Com.autoRekey
  try (conv => zeta)
  repeat' first
    | with_reducible assumption | with_reducible apply Com.ctx_keeps | with_reducible apply Com.setCand_keeps

theorem Com.closePush_keeps {c : Com} {i status : Nat} {trial : Bool} (hc : Keeps k0 c.s) : Keeps k0 (Com.closePush c i status trial).s := by
  unfold Com.closePush
  try (conv => zeta)
  repeat' first
    | with_reducible assumption | with_reducible apply Com.install_keeps | with_reducible apply Com.makeCurrent_keeps
    | with_reducible apply Com.pushDone_keeps | with_reducible apply Keeps.iteCom | split

theorem Com.runPushes_keeps {k0 : State} {n : Nat} {c : Com} {i : Nat} (hc : Keeps k0 c.s) : Keeps k0 (Com.runPushes n c i).s := by
  induction n generalizing c with
  | zero => exact hc
  | succ n ih =>
    unfold Com.runPushes
    split
    · split
      · exact Com.showPush_keeps hc
      · exact ih (Com.makeCurrent_keeps hc)
    · split
      · rename_i h
        exact Com.showPush_keeps (Com.sendCurrent_keeps_eq hc h)
      · rename_i h
        exact ih (Com.closePush_keeps (Com.event_keeps (Com.sendCurrent_keeps_eq hc h)))
      · rename_i h
        have h1 := Com.sendCurrent_keeps_eq hc h
        conv => zeta
        split
        · exact ih (Com.closePush_keeps (Com.setSlot_keeps h1))
        · split
          · exact ih (Com.makeCurrent_keeps (Com.displace_keeps (Com.setSlot_keeps h1)))
          · exact Com.useDraw_keeps (Com.setSlot_keeps h1) fun x b hx => ih (Com.autoRekey_keeps (Com.displace_keeps hx))

theorem Com.completePush_keeps {c : Com} {i status : Nat} {trial : Bool} (hc : Keeps k0 c.s) : Keeps k0 (Com.completePush c i status trial).s := by
  unfold Com.completePush
  try (conv => zeta)
  repeat' first
    | with_reducible assumption | with_reducible apply Com.closePush_keeps | with_reducible apply Com.runPushes_keeps | split

theorem Com.failAttempt_keeps {c : Com} {i : Nat} (hc : Keeps k0 c.s) : Keeps k0 (Com.failAttempt c i).s := by
  unfold Com.failAttempt
  try (conv => zeta)
  repeat' first
    | with_reducible assumption | with_reducible apply Com.completePush_keeps | with_reducible apply Com.runPushes_keeps
    | with_reducible apply Keeps.iteCom | split

theorem Com.pushAck_keeps {c : Com} {i seq verdict : Nat} (hc : Keeps k0 c.s) : Keeps k0 (Com.pushAck c i seq verdict).s := by
  unfold Com.pushAck
  try (conv => zeta)
  repeat' first
    | with_reducible assumption | with_reducible apply Com.completePush_keeps | with_reducible apply Com.failAttempt_keeps
    | with_reducible apply Keeps.iteCom | split

theorem Com.pushNotice_keeps {c : Com} {i nkind id : Nat} (hc : Keeps k0 c.s) : Keeps k0 (Com.pushNotice c i nkind id).s := by
  unfold Com.pushNotice
  try (conv => zeta)
  repeat' first
    | with_reducible assumption | with_reducible apply Com.completePush_keeps | with_reducible apply Com.failAttempt_keeps
    | with_reducible apply Keeps.iteCom | split

theorem Com.cancelPushes_keeps {p0 : Nat} {p1 : Com} {p2 : Nat} (hp1 : Keeps k0 p1.s) : Keeps k0 (Com.cancelPushes p0 p1 p2).s := by
  induction p0 generalizing p1 p2 with
  | zero =>
    unfold Com.cancelPushes
    try (conv => zeta)
    repeat' first
      | with_reducible assumption | with_reducible apply Com.showPush_keeps
  | succ n ih =>
    unfold Com.cancelPushes
    try (conv => zeta)
    repeat' first
      | with_reducible assumption | apply ih | with_reducible apply Com.makeCurrent_keeps | with_reducible apply Com.pushDone_keeps
      | with_reducible apply Com.showPush_keeps | split

theorem Com.cmdPush_keeps {c : Com} {i : Nat} {body : Bytes} (hc : Keeps k0 c.s) : Keeps k0 (Com.cmdPush c i body).2.s := by
  unfold Com.cmdPush
  try (conv => zeta)
  repeat' first
    | with_reducible assumption | (intro x; try beta_reduce; try (conv => zeta)) | with_reducible apply Com.ctx_keeps
    | with_reducible apply Com.runPushes_keeps | with_reducible apply Com.setCand_keeps | with_reducible apply Com.useDraw_keeps
    | with_reducible apply Keeps.iteSndCom | split

theorem Com.retract_keeps {c : Com} {mirage : Option Bytes} (hc : Keeps k0 c.s) : Keeps k0 (Com.retract c mirage).s := by
  unfold Com.retract
  try (conv => zeta)
  repeat' first
    | with_reducible assumption | (intro x; try beta_reduce; try (conv => zeta)) | with_reducible apply Com.sealed_keeps
    | with_reducible apply Com.upd_keeps | with_reducible apply State.count_keeps | split

theorem Com.reading_keeps {c : Com} {mirage : Option Bytes} {body : Bytes} (hc : Keeps k0 c.s) : Keeps k0 (Com.reading c mirage body).s := by
  unfold Com.reading
  try (conv => zeta)
  repeat' first
    | with_reducible assumption | with_reducible apply Com.retract_keeps | with_reducible apply Com.sealed_keeps | with_reducible apply Keeps.iteCom
    | split

theorem Com.estimates_keeps {k0 : State} {c : Com} {i : Nat} {t : Ent} {seq : BitVec 32} {modulus : Nat} {l : List (BitVec 32 × Int)}
    {idx : Nat} (hc : Keeps k0 c.s) : Keeps k0 (c.estimates i t seq modulus l idx).s := by
  induction l generalizing c idx with
  | nil => exact hc
  | cons a r ih =>
    obtain ⟨sq, v⟩ := a
    unfold Com.estimates
    dsimp only
    exact ih (Com.slotContrib_keeps (Com.sealed_keeps (Com.attribute_keeps hc)))

theorem Com.unbracketed_keeps {c : Com} {i : Nat} {t : Ent} {m : Missing} (hc : Keeps k0 c.s) : Keeps k0 (Com.unbracketed c i t m).s := by
  unfold Com.unbracketed
  try (conv => zeta)
  repeat' first
    | with_reducible assumption | (with_reducible apply Keeps.foldlCom) <;> (try (intro x a hx; try beta_reduce; try (conv => zeta)))
    | with_reducible apply Com.attribute_keeps | with_reducible apply Com.sealed_keeps | with_reducible apply Com.slotContrib_keeps
    | with_reducible apply Keeps.iteCom

theorem Com.indexFrame_keeps {c : Com} {i : Nat} {t : Ent} {seq : BitVec 32} {mirage : Option Bytes} {x exp0 step : Nat} {prof : List Nat} {bidir :
    Bool} {m : Missing} {tamper epstat : Nat} (hc : Keeps k0 c.s) : Keeps k0 (Com.indexFrame c i t seq mirage x exp0 step prof bidir m tamper
    epstat).s := by
  unfold Com.indexFrame
  try (conv => zeta)
  repeat' first
    | with_reducible assumption | (with_reducible apply Keeps.foldlCom) <;> (try (intro x a hx; try beta_reduce; try (conv => zeta)))
    | with_reducible apply Com.attribute_keeps | with_reducible apply Com.estimates_keeps | with_reducible apply Com.event_keeps
    | with_reducible apply Com.reading_keeps | with_reducible apply Com.setSlot_keeps | with_reducible apply Com.slotContrib_keeps
    | with_reducible apply Com.tamperRead_keeps | with_reducible apply Keeps.iteCom

theorem Com.linkUpdate_keeps {c : Com} {i : Nat} {e : Entry} (hc : Keeps k0 c.s) : Keeps k0 (Com.linkUpdate c i e).s := by
  unfold Com.linkUpdate
  try (conv => zeta)
  repeat' first
    | with_reducible assumption | with_reducible apply Com.event_keeps | with_reducible apply Com.setSlot_keeps | with_reducible apply Keeps.iteCom

theorem Com.micFail_keeps {c : Com} {i seq : Nat} {unwrap : Bool} (hc : Keeps k0 c.s) : Keeps k0 (Com.micFail c i seq unwrap).s := by
  unfold Com.micFail
  try (conv => zeta)
  repeat' first
    | with_reducible assumption | (intro x; try beta_reduce; try (conv => zeta)) | with_reducible apply Com.event_keeps
    | with_reducible apply Com.upd_keeps | with_reducible apply State.irq_keeps | with_reducible apply Keeps.iteCom

theorem Com.candPassed_keeps {c : Com} {i : Nat} (hc : Keeps k0 c.s) : Keeps k0 (Com.candPassed c i).s := by
  unfold Com.candPassed
  try (conv => zeta)
  repeat' first
    | with_reducible assumption | with_reducible apply Com.completePush_keeps | with_reducible apply Com.install_keeps
    | with_reducible apply Keeps.iteCom | split

theorem Com.stepFrame_keeps {c : Com} {i : Nat} {e : Entry} {eff : Nat} {w : Int} {off : Nat} (hc : Keeps k0 c.s) : Keeps k0 (Com.stepFrame c i e
    eff w off).s := by
  unfold Com.stepFrame
  try (conv => zeta)
  repeat' first
    | with_reducible assumption | with_reducible apply Com.endpointStep_keeps

theorem Com.plainRecord_keeps {c : Com} {i : Nat} {e : Entry} {eff kind : Nat} {mirage : Option Bytes} {fl : RFlags} {index : Nat} {value : Int}
    {tamper epstat : Nat} (hc : Keeps k0 c.s) : Keeps k0 (Com.plainRecord c i e eff kind mirage fl index value tamper epstat).s := by
  unfold Com.plainRecord
  try (conv => zeta)
  repeat' first
    | with_reducible assumption | with_reducible apply Com.reading_keeps | with_reducible apply Com.slotContrib_keeps
    | with_reducible apply Com.tamperRead_keeps | with_reducible apply Keeps.iteCom

theorem Com.applyData_keeps {c : Com} {i : Nat} {e : Entry} {eff : Nat} {mirage : Option Bytes} {m : Missing} (hc : Keeps k0 c.s) : Keeps k0
    (Com.applyData c i e eff mirage m).1.s := by
  unfold Com.applyData
  try (conv => zeta)
  repeat' first
    | with_reducible assumption | with_reducible apply Com.candPassed_keeps | with_reducible apply Com.event_keeps
    | with_reducible apply Com.indexFrame_keeps | with_reducible apply Com.linkUpdate_keeps | with_reducible apply Com.micFail_keeps
    | with_reducible apply Com.plainRecord_keeps | with_reducible apply Com.retract_keeps | with_reducible apply Com.setSlot_keeps
    | with_reducible apply Com.stepFrame_keeps | split

theorem Com.applyLate_keeps {c : Com} {i : Nat} {e : Entry} (hc : Keeps k0 c.s) : Keeps k0 (Com.applyLate c i e).s := by
  unfold Com.applyLate
  try (conv => zeta)
  repeat' first
    | with_reducible assumption | with_reducible apply Com.candPassed_keeps | with_reducible apply Com.event_keeps
    | with_reducible apply Com.linkUpdate_keeps | with_reducible apply Com.micFail_keeps | with_reducible apply Com.plainRecord_keeps
    | with_reducible apply Com.stepFrame_keeps | with_reducible apply Keeps.iteCom | split

theorem Com.joinWrites_keeps {c : Com} {i : Nat} {f : Frame} (hc : Keeps k0 c.s) : Keeps k0 (Com.joinWrites c i f).s := by
  unfold Com.joinWrites
  try (conv => zeta)
  repeat' first
    | with_reducible assumption | with_reducible apply Com.setSlot_keeps

theorem Com.applyJoin_keeps {c : Com} {i : Nat} {e : Entry} {mirage : Option Bytes} (hc : Keeps k0 c.s) : Keeps k0 (Com.applyJoin c i e mirage).s
    := by
  unfold Com.applyJoin
  try (conv => zeta)
  repeat' first
    | with_reducible assumption | with_reducible apply Com.candPassed_keeps | with_reducible apply Com.joinWrites_keeps
    | with_reducible apply Com.linkUpdate_keeps | with_reducible apply Com.micFail_keeps | with_reducible apply Com.retract_keeps | split

theorem Com.joinDirect_keeps {c : Com} {i : Nat} {e : Entry} (hc : Keeps k0 c.s) : Keeps k0 (Com.joinDirect c i e).s := by
  unfold Com.joinDirect
  try (conv => zeta)
  repeat' first
    | with_reducible assumption | (intro x; try beta_reduce; try (conv => zeta)) | with_reducible apply Com.candPassed_keeps
    | with_reducible apply Com.joinWrites_keeps | with_reducible apply Com.linkUpdate_keeps | with_reducible apply Com.micFail_keeps
    | with_reducible apply Com.setSlot_keeps | with_reducible apply Com.upd_keeps | with_reducible apply State.idxDrop_keeps
    | with_reducible apply Keeps.iteCom | split

theorem Com.applyFrame_keeps {c : Com} {i : Nat} {e : Entry} {eff : Nat} {mirage : Option Bytes} {m : Missing} (hc : Keeps k0 c.s) : Keeps k0
    (Com.applyFrame c i e eff mirage m).1.s := by
  unfold Com.applyFrame
  try (conv => zeta)
  repeat' first
    | with_reducible assumption | with_reducible apply Com.applyData_keeps | with_reducible apply Com.applyJoin_keeps | split

theorem Com.runFrames_keeps {k0 : State} {c : Com} {i eff : Nat} {next : BitVec 32} {l : List (BitVec 32 × Entry × Option Bytes)}
    {m : Missing} (hc : Keeps k0 c.s) : Keeps k0 (c.runFrames i eff next l m).1.s := by
  induction l generalizing c next m with
  | nil => exact hc
  | cons a r ih =>
    obtain ⟨s, e, mir⟩ := a
    unfold Com.runFrames
    dsimp only
    exact ih (Com.applyFrame_keeps hc)
theorem Com.runFrames_keeps_eq {k0 : State} {c : Com} {i eff : Nat} {next : BitVec 32} {l : List (BitVec 32 × Entry × Option Bytes)}
    {m : Missing} {y0 : Com} {y1 : Missing} (hc : Keeps k0 c.s) (heq0 : c.runFrames i eff next l m = (y0, y1)) : Keeps k0 y0.s := by
  have hh := Com.runFrames_keeps (i := i) (eff := eff) (next := next) (l := l) (m := m) hc
  rw [heq0] at hh; exact hh

theorem State.spillPark_keeps {s : State} (hs : Keeps k0 s) : Keeps k0 (State.spillPark s) := by
  unfold State.spillPark
  try (conv => zeta)
  repeat' first
    | with_reducible assumption | fail_if_no_progress (with_reducible apply Keeps.upd) | with_reducible apply State.count_keeps
    | with_reducible apply State.irq_keeps | with_reducible apply Keeps.ite | split

theorem State.readBack_keeps {s : State} {r : ParkRec} (hs : Keeps k0 s) : Keeps k0 (State.readBack s r) := by
  unfold State.readBack
  try (conv => zeta)
  repeat' first
    | with_reducible assumption | fail_if_no_progress (with_reducible apply Keeps.upd) | with_reducible apply State.ringPacket_keeps
    | with_reducible apply State.ringTake_keeps | with_reducible apply Keeps.ite

theorem State.releaseParks_keeps {s : State} {i : Nat} (hs : Keeps k0 s) : Keeps k0 (State.releaseParks s i) := by
  unfold State.releaseParks
  try (conv => zeta)
  repeat' first
    | with_reducible assumption | (with_reducible apply Keeps.foldl) <;> (try (intro x a hx; try beta_reduce; try (conv => zeta)))
    | with_reducible apply State.readBack_keeps

theorem Com.park_keeps {c : Com} {i : Nat} {e : Entry} (hc : Keeps k0 c.s) : Keeps k0 (Com.park c i e).s := by
  unfold Com.park
  try (conv => zeta)
  repeat' first
    | with_reducible assumption | (intro x; try beta_reduce; try (conv => zeta)) | with_reducible apply Com.out_keeps
    | with_reducible apply Com.setSlot_keeps | with_reducible apply Com.upd_keeps | with_reducible apply State.count_keeps
    | with_reducible apply State.spillPark_keeps | split

theorem Com.drain_keeps {c : Com} {i : Nat} {next : BitVec 32} (hc : Keeps k0 c.s) : Keeps k0 (Com.drain c i next).s := by
  unfold Com.drain
  try (conv => zeta)
  repeat' first
    | with_reducible assumption | with_reducible apply Com.runFrames_keeps | with_reducible apply Com.setSlot_keeps

theorem Com.orphanFrame_keeps {c : Com} {i : Nat} {e : Entry} (hc : Keeps k0 c.s) : Keeps k0 (Com.orphanFrame c i e).s := by
  unfold Com.orphanFrame
  try (conv => zeta)
  repeat' first
    | with_reducible assumption | (intro x; try beta_reduce; try (conv => zeta)) | with_reducible apply Com.event_keeps
    | with_reducible apply Com.upd_keeps | with_reducible apply State.count_keeps

theorem Com.orphanAtGate_keeps {c : Com} {i : Nat} {e : Entry} (hc : Keeps k0 c.s) : Keeps k0 (Com.orphanAtGate c i e).s := by
  unfold Com.orphanAtGate
  try (conv => zeta)
  repeat' first
    | with_reducible assumption | with_reducible apply Com.drain_keeps | with_reducible apply Com.orphanFrame_keeps
    | with_reducible apply Com.runFrames_keeps | with_reducible apply Com.setSlot_keeps | with_reducible apply Com.unbracketed_keeps
    | with_reducible apply Keeps.iteCom

theorem Com.gate_keeps {c : Com} {i : Nat} {e : Entry} (hc : Keeps k0 c.s) : Keeps k0 (Com.gate c i e).s := by
  unfold Com.gate
  try (conv => zeta)
  repeat' first
    | with_reducible assumption | with_reducible apply Com.applyLate_keeps | with_reducible apply Com.park_keeps
    | with_reducible apply Com.runFrames_keeps | with_reducible apply Com.setSlot_keeps | with_reducible apply Com.unbracketed_keeps
    | with_reducible apply Keeps.iteCom

theorem Com.abandon_keeps {c : Com} {i : Nat} {f : Fence} (hc : Keeps k0 c.s) : Keeps k0 (Com.abandon c i f).s := by
  unfold Com.abandon
  try (conv => zeta)
  repeat' first
    | with_reducible assumption | with_reducible apply Com.runFrames_keeps | with_reducible apply Com.setSlot_keeps
    | with_reducible apply Com.unbracketed_keeps | split

theorem Com.snapshot_keeps {c : Com} {i : Nat} {f : Fence} (hc : Keeps k0 c.s) : Keeps k0 (Com.snapshot c i f).s := by
  unfold Com.snapshot
  try (conv => zeta)
  repeat' first
    | with_reducible assumption | with_reducible apply Com.ctx_keeps | with_reducible apply Keeps.iteCom

theorem Com.fence_keeps {c : Com} {i : Nat} {f : Fence} (hc : Keeps k0 c.s) : Keeps k0 (Com.fence c i f).s := by
  unfold Com.fence
  try (conv => zeta)
  repeat' first
    | with_reducible assumption | with_reducible apply Com.abandon_keeps | with_reducible apply Com.capture_keeps
    | with_reducible apply Com.snapshot_keeps | split

theorem Com.applyFences_keeps {c : Com} {i jsn : Nat} (hc : Keeps k0 c.s) : Keeps k0 (Com.applyFences c i jsn).s := by
  unfold Com.applyFences
  try (conv => zeta)
  repeat' first
    | with_reducible assumption | (with_reducible apply Keeps.foldlCom) <;> (try (intro x a hx; try beta_reduce; try (conv => zeta)))
    | with_reducible apply Com.fence_keeps | with_reducible apply Com.setSlot_keeps

theorem Com.notice_keeps {c : Com} {i : Nat} {e : Entry} (hc : Keeps k0 c.s) : Keeps k0 (Com.notice c i e).s := by
  unfold Com.notice
  try (conv => zeta)
  repeat' first
    | with_reducible assumption | with_reducible apply Com.event_keeps | with_reducible apply Com.pushNotice_keeps
    | with_reducible apply Com.setSlot_keeps | with_reducible apply Keeps.iteCom | split

theorem Com.frameEntry_keeps {c : Com} {i : Nat} {e : Entry} (hc : Keeps k0 c.s) : Keeps k0 (Com.frameEntry c i e).s := by
  unfold Com.frameEntry
  try (conv => zeta)
  repeat' first
    | with_reducible assumption | with_reducible apply Com.gate_keeps | with_reducible apply Com.joinDirect_keeps
    | with_reducible apply Com.linkUpdate_keeps | with_reducible apply Com.notice_keeps | with_reducible apply Com.orphanAtGate_keeps
    | with_reducible apply Com.orphanFrame_keeps | with_reducible apply Com.pushAck_keeps | with_reducible apply Keeps.iteCom

theorem State.poolNote_keeps {s0 s : State} (hs0 : Keeps k0 s0) (hs : Keeps k0 s) : Keeps k0 (State.poolNote s0 s) := by
  unfold State.poolNote
  try (conv => zeta)
  repeat' first
    | with_reducible assumption | with_reducible apply State.irq_keeps | with_reducible apply Keeps.ite

theorem State.setPoll_keeps {s : State} {i : Nat} {p : PollEnt} (hs : Keeps k0 s) : Keeps k0 (State.setPoll s i p) := by
  unfold State.setPoll
  try (conv => zeta)
  repeat' first
    | with_reducible assumption | fail_if_no_progress (with_reducible apply Keeps.upd)

theorem State.allocJoin_keeps {s : State} {i : Nat} {f : Frame} (hs : Keeps k0 s) : Keeps k0 (State.allocJoin s i f) := by
  unfold State.allocJoin
  try (conv => zeta)
  repeat' first
    | with_reducible assumption | with_reducible apply State.idxAdd_keeps | with_reducible apply State.lockedWrite_keeps
    | with_reducible apply State.poolNote_keeps

theorem State.mirror_keeps {s : State} {e : Entry} (hs : Keeps k0 s) : Keeps k0 (State.mirror s e) := by
  unfold State.mirror
  try (conv => zeta)
  repeat' first
    | with_reducible assumption | with_reducible apply State.allocJoin_keeps | with_reducible apply State.lockedWrite_keeps
    | with_reducible apply State.scrub_keeps | with_reducible apply State.setPoll_keeps | with_reducible apply Keeps.ite

theorem Com.feeder_keeps {c : Com} {f : FeederAgg → FeederAgg} (hc : Keeps k0 c.s) : Keeps k0 (Com.feeder c f).s := by
  unfold Com.feeder
  try (conv => zeta)
  repeat' first
    | with_reducible assumption | with_reducible apply Com.ctx_keeps

theorem Com.feederFence_keeps {c : Com} {f : Fence} (hc : Keeps k0 c.s) : Keeps k0 (Com.feederFence c f).s := by
  unfold Com.feederFence
  try (conv => zeta)
  repeat' first
    | with_reducible assumption | with_reducible apply Com.ctx_keeps | with_reducible apply Com.feeder_keeps | split

theorem Com.feederFences_keeps {c : Com} {jsn : Nat} (hc : Keeps k0 c.s) : Keeps k0 (Com.feederFences c jsn).s := by
  unfold Com.feederFences
  try (conv => zeta)
  repeat' first
    | with_reducible assumption | (with_reducible apply Keeps.foldlCom) <;> (try (intro x a hx; try beta_reduce; try (conv => zeta)))
    | with_reducible apply Com.feederFence_keeps

theorem Com.feederContrib_keeps {c : Com} {g : Nat} {e : BalGroup} {p imp exp len : Nat} {settled : Bool} {t : Ent} (hc : Keeps k0 c.s) : Keeps k0
    (Com.feederContrib c g e p imp exp len settled t).s := by
  unfold Com.feederContrib
  try (conv => zeta)
  repeat' first
    | with_reducible assumption | with_reducible apply Com.cell_keeps | with_reducible apply Keeps.iteCom

theorem Com.feederBlock_keeps {c : Com} {e : Entry} (hc : Keeps k0 c.s) : Keeps k0 (Com.feederBlock c e).s := by
  unfold Com.feederBlock
  try (conv => zeta)
  repeat' first
    | with_reducible assumption | (intro x; try beta_reduce; try (conv => zeta))
    | (with_reducible apply Keeps.foldlCom) <;> (try (intro x a hx; try beta_reduce; try (conv => zeta))) | with_reducible apply Com.event_keeps
    | with_reducible apply Com.feeder_keeps | with_reducible apply Com.feederContrib_keeps | with_reducible apply Com.upd_keeps
    | with_reducible apply State.count_keeps | with_reducible apply Keeps.iteCom

theorem Com.feederEvent_keeps {c : Com} {e : Entry} (hc : Keeps k0 c.s) : Keeps k0 (Com.feederEvent c e).s := by
  unfold Com.feederEvent
  try (conv => zeta)
  repeat' first
    | with_reducible assumption | with_reducible apply Com.event_keeps | with_reducible apply Com.feederStep_keeps
    | with_reducible apply Com.feederTamper_keeps | with_reducible apply Keeps.iteCom

theorem State.setOas_keeps {s : State} {f : Oasis → Oasis} (hs : Keeps k0 s) : Keeps k0 (State.setOas s f) := by
  unfold State.setOas
  try (conv => zeta)
  repeat' first
    | with_reducible assumption | fail_if_no_progress (with_reducible apply Keeps.upd)

theorem State.setTim_keeps {s : State} {f : Tim → Tim} (hs : Keeps k0 s) : Keeps k0 (State.setTim s f) := by
  unfold State.setTim
  try (conv => zeta)
  repeat' first
    | with_reducible assumption | fail_if_no_progress (with_reducible apply Keeps.upd)

theorem State.oasGo_keeps {s : State} (hs : Keeps k0 s) : Keeps k0 (State.oasGo s) := by
  unfold State.oasGo
  try (conv => zeta)
  repeat' first
    | with_reducible assumption | with_reducible apply State.free_keeps | with_reducible apply State.setBit_keeps
    | with_reducible apply State.setOas_keeps | with_reducible apply Keeps.ite

theorem State.oasFreeze_keeps {s : State} {w : Who} (hs : Keeps k0 s) : Keeps k0 (State.oasFreeze s w).2 := by
  unfold State.oasFreeze
  try (conv => zeta)
  repeat' first
    | with_reducible assumption | with_reducible apply State.setOas_keeps | split

theorem State.oasRelease_keeps {s : State} {w : Who} (hs : Keeps k0 s) : Keeps k0 (State.oasRelease s w).2 := by
  unfold State.oasRelease
  try (conv => zeta)
  repeat' first
    | with_reducible assumption | with_reducible apply State.setOas_keeps | split

theorem State.oasisCommit_keeps {s : State} (hs : Keeps k0 s) : Keeps k0 (State.oasisCommit s) := by
  unfold State.oasisCommit
  try (conv => zeta)
  repeat' first
    | with_reducible assumption | with_reducible apply State.setOas_keeps | with_reducible apply State.setReg_keeps | with_reducible apply Keeps.ite

theorem State.setRate_keeps {s : State} {adj : Int} (hs : Keeps k0 s) : Keeps k0 (State.setRate s adj) := by
  unfold State.setRate
  try (conv => zeta)
  repeat' first
    | with_reducible assumption | with_reducible apply State.setReg_keeps

theorem State.enterAcquire_keeps {s : State} (hs : Keeps k0 s) : Keeps k0 (State.enterAcquire s) := by
  unfold State.enterAcquire
  try (conv => zeta)
  repeat' first
    | with_reducible assumption | with_reducible apply State.setTim_keeps

theorem State.enterHoldover_keeps {s : State} (hs : Keeps k0 s) : Keeps k0 (State.enterHoldover s) := by
  unfold State.enterHoldover
  try (conv => zeta)
  repeat' first
    | with_reducible assumption | with_reducible apply State.event_keeps | with_reducible apply State.irq_keeps
    | with_reducible apply State.setRate_keeps | with_reducible apply State.setTim_keeps

theorem State.freeRate_keeps {s : State} (hs : Keeps k0 s) : Keeps k0 (State.freeRate s) := by
  unfold State.freeRate
  try (conv => zeta)
  repeat' first
    | with_reducible assumption | with_reducible apply State.setRate_keeps

theorem State.mainsCycle_keeps {s : State} (hs : Keeps k0 s) : Keeps k0 (State.mainsCycle s) := by
  unfold State.mainsCycle
  try (conv => zeta)
  repeat' first
    | with_reducible assumption | with_reducible apply State.setRate_keeps | with_reducible apply State.setTim_keeps | with_reducible apply Keeps.ite
    | split

theorem State.mainsLost_keeps {s : State} (hs : Keeps k0 s) : Keeps k0 (State.mainsLost s) := by
  unfold State.mainsLost
  try (conv => zeta)
  repeat' first
    | with_reducible assumption | with_reducible apply State.freeRate_keeps | with_reducible apply State.setTim_keeps
    | with_reducible apply Keeps.ite

theorem State.checkUtc_keeps {s : State} {utc : Option Nat} (hs : Keeps k0 s) : Keeps k0 (State.checkUtc s utc) := by
  unfold State.checkUtc
  try (conv => zeta)
  repeat' first
    | with_reducible assumption | with_reducible apply State.event_keeps | with_reducible apply State.irq_keeps
    | with_reducible apply State.setTim_keeps | with_reducible apply Keeps.ite | split

theorem State.setCtl_keeps {s : State} {n : Nat} {x : CtlOut} (hs : Keeps k0 s) : Keeps k0 (State.setCtl s n x) := by
  unfold State.setCtl
  try (conv => zeta)
  repeat' first
    | with_reducible assumption | with_reducible apply State.setTim_keeps

theorem State.ctlReseat_keeps {s : State} (hs : Keeps k0 s) : Keeps k0 (State.ctlReseat s) := by
  unfold State.ctlReseat
  try (conv => zeta)
  repeat' first
    | with_reducible assumption | (with_reducible apply Keeps.foldl) <;> (try (intro x a hx; try beta_reduce; try (conv => zeta)))
    | with_reducible apply State.setCtl_keeps

theorem State.ctlSkip_keeps {s : State} {n : Nat} (hs : Keeps k0 s) : Keeps k0 (State.ctlSkip s n) := by
  unfold State.ctlSkip
  try (conv => zeta)
  repeat' first
    | with_reducible assumption | with_reducible apply State.count_keeps | with_reducible apply State.event_keeps
    | with_reducible apply State.irq_keeps

theorem State.ctlRelease_keeps {s : State} {n at_ : Nat} (hs : Keeps k0 s) : Keeps k0 (State.ctlRelease s n at_) := by
  unfold State.ctlRelease
  try (conv => zeta)
  repeat' first
    | with_reducible assumption | with_reducible apply State.ctlSkip_keeps | with_reducible apply State.setCtl_keeps | with_reducible apply Keeps.ite

theorem State.journalStep_keeps {s : State} {old source : Nat} (hs : Keeps k0 s) : Keeps k0 (State.journalStep s old source) := by
  unfold State.journalStep
  try (conv => zeta)
  repeat' first
    | with_reducible assumption | fail_if_no_progress (with_reducible apply Keeps.upd) | with_reducible apply State.append_keeps
    | with_reducible apply State.irq_keeps | with_reducible apply State.journalCrossed_keeps | with_reducible apply State.oasisCommit_keeps
    | with_reducible apply State.releaseHeldPeriod_keeps | with_reducible apply State.setBit_keeps | with_reducible apply Keeps.ite

theorem State.stepTime_keeps {s : State} {delta : Int} (hs : Keeps k0 s) : Keeps k0 (State.stepTime s delta) := by
  unfold State.stepTime
  try (conv => zeta)
  repeat' first
    | with_reducible assumption | fail_if_no_progress (with_reducible apply Keeps.upd) | with_reducible apply State.ctlReseat_keeps
    | with_reducible apply State.irq_keeps | with_reducible apply State.setTim_keeps

theorem State.applyStep_keeps {s : State} {p : StepPend} (hs : Keeps k0 s) : Keeps k0 (State.applyStep s p) := by
  unfold State.applyStep
  try (conv => zeta)
  repeat' first
    | with_reducible assumption | with_reducible apply State.enterAcquire_keeps | with_reducible apply State.journalStep_keeps
    | with_reducible apply State.setTim_keeps | with_reducible apply State.stepTime_keeps | with_reducible apply Keeps.ite

theorem Com.rosterAdd_keeps {c : Com} {i : Nat} {b : Bytes} (hc : Keeps k0 c.s) : Keeps k0 (Com.rosterAdd c i b).2.s := by
  unfold Com.rosterAdd
  try (conv => zeta)
  repeat' first
    | with_reducible assumption | (intro x; try beta_reduce; try (conv => zeta)) | with_reducible apply Com.upd_keeps
    | with_reducible apply State.idxAdd_keeps | with_reducible apply State.lockedWrite_keeps | with_reducible apply State.poolNote_keeps
    | with_reducible apply Keeps.iteSndCom

theorem Com.rosterDecom_keeps {c : Com} {i : Nat} (hc : Keeps k0 c.s) : Keeps k0 (Com.rosterDecom c i).2.s := by
  unfold Com.rosterDecom
  try (conv => zeta)
  repeat' first
    | with_reducible assumption | with_reducible apply Com.cancelPushes_keeps | with_reducible apply Com.setSlot_keeps
    | with_reducible apply Keeps.iteSndCom

theorem Com.rosterRelease_keeps {c : Com} {i : Nat} (hc : Keeps k0 c.s) : Keeps k0 (Com.rosterRelease c i).2.s := by
  unfold Com.rosterRelease
  try (conv => zeta)
  repeat' first
    | with_reducible assumption | (intro x; try beta_reduce; try (conv => zeta))
    | (with_reducible apply Keeps.foldlCom) <;> (try (intro x a hx; try beta_reduce; try (conv => zeta))) | with_reducible apply Com.retract_keeps
    | with_reducible apply Com.setSlot_keeps | with_reducible apply Com.upd_keeps | with_reducible apply State.idxDrop_keeps
    | with_reducible apply Keeps.iteSndCom

theorem Com.rosterSet_keeps {c : Com} {i : Nat} {b : Bytes} (hc : Keeps k0 c.s) : Keeps k0 (Com.rosterSet c i b).2.s := by
  unfold Com.rosterSet
  try (conv => zeta)
  repeat' first
    | with_reducible assumption | with_reducible apply Com.setSlot_keeps | with_reducible apply Keeps.iteSndCom

theorem Com.cmdCloseNow_keeps {c : Com} {e : Entry} (hc : Keeps k0 c.s) : Keeps k0 (Com.cmdCloseNow c e).2.s := by
  unfold Com.cmdCloseNow
  try (conv => zeta)
  repeat' first
    | with_reducible assumption | with_reducible apply Com.ctx_keeps | with_reducible apply Keeps.iteSndCom

theorem Com.cmdReadout_keeps {c : Com} (hc : Keeps k0 c.s) : Keeps k0 (Com.cmdReadout c).2.s := by
  unfold Com.cmdReadout
  try (conv => zeta)
  repeat' first
    | with_reducible assumption | (intro x; try beta_reduce; try (conv => zeta)) | with_reducible apply Com.ctx_keeps
    | with_reducible apply Com.feederFences_keeps | with_reducible apply Com.out_keeps | with_reducible apply Com.upd_keeps
    | with_reducible apply Com.useDraw_keeps | with_reducible apply State.count_keeps | with_reducible apply Keeps.iteSndCom

theorem Com.cmdTimeSet_keeps {c : Com} {o : Origin} {b : Bytes} (hc : Keeps k0 c.s) : Keeps k0 (Com.cmdTimeSet c o b).2.s := by
  unfold Com.cmdTimeSet
  try (conv => zeta)
  repeat' first
    | with_reducible assumption | (intro x; try beta_reduce; try (conv => zeta)) | with_reducible apply Com.upd_keeps
    | with_reducible apply State.setTim_keeps | with_reducible apply Keeps.ite | with_reducible apply Keeps.iteSndCom

theorem State.putSel_keeps {s : State} {sel : Nat} {pga : List Nat} (hs : Keeps k0 s) : Keeps k0 (State.putSel s sel pga) := by
  unfold State.putSel
  try (conv => zeta)
  repeat' first
    | with_reducible assumption | (with_reducible apply Keeps.foldl) <;> (try (intro x a hx; try beta_reduce; try (conv => zeta)))
    | with_reducible apply State.setFld_keeps

theorem Com.cmdMeterSet_keeps {c : Com} {b : Bytes} (hc : Keeps k0 c.s) : Keeps k0 (Com.cmdMeterSet c b).2.s := by
  unfold Com.cmdMeterSet
  try (conv => zeta)
  repeat' first
    | with_reducible assumption | (intro x; try beta_reduce; try (conv => zeta)) | with_reducible apply Com.upd_keeps
    | with_reducible apply State.putSel_keeps | with_reducible apply Keeps.iteSndCom

theorem Com.fwDeclare_keeps {c : Com} {b : Bytes} (hc : Keeps k0 c.s) : Keeps k0 (Com.fwDeclare c b).2.s := by
  unfold Com.fwDeclare
  try (conv => zeta)
  repeat' first
    | with_reducible assumption | (intro x; try beta_reduce; try (conv => zeta)) | with_reducible apply Com.ctx_keeps
    | with_reducible apply Com.useDraw_keeps | with_reducible apply Keeps.iteSndCom

theorem Com.fwLoad_keeps {c : Com} {b : Bytes} (hc : Keeps k0 c.s) : Keeps k0 (Com.fwLoad c b).2.s := by
  unfold Com.fwLoad
  try (conv => zeta)
  repeat' first
    | with_reducible assumption | with_reducible apply Com.ctx_keeps | with_reducible apply Com.event_keeps | with_reducible apply Keeps.iteCom
    | with_reducible apply Keeps.iteSndCom | split

theorem Com.fwSend_keeps {c : Com} {b : Bytes} (hc : Keeps k0 c.s) : Keeps k0 (Com.fwSend c b).2.s := by
  unfold Com.fwSend
  try (conv => zeta)
  repeat' first
    | with_reducible assumption | with_reducible apply Com.ctx_keeps | with_reducible apply Keeps.iteSndCom | split

theorem Com.fwDelete_keeps {c : Com} {b : Bytes} (hc : Keeps k0 c.s) : Keeps k0 (Com.fwDelete c b).2.s := by
  unfold Com.fwDelete
  try (conv => zeta)
  repeat' first
    | with_reducible assumption | with_reducible apply Com.ctx_keeps | with_reducible apply Keeps.iteSndCom

theorem Com.keyRoll_keeps {c : Com} {b : Bytes} (hc : Keeps k0 c.s) : Keeps k0 (Com.keyRoll c b).2.s := by
  unfold Com.keyRoll
  try (conv => zeta)
  repeat' first
    | with_reducible assumption | with_reducible apply Com.ctx_keeps | with_reducible apply Keeps.iteSndCom

theorem State.commission_keeps {s : State} (hs : Keeps k0 s) : Keeps k0 (State.commission s) := by
  unfold State.commission
  try (conv => zeta)
  repeat' first
    | with_reducible assumption | fail_if_no_progress (with_reducible apply Keeps.upd)

theorem Com.lcCmd_keeps {c : Com} {code : Nat} {sig : Bytes} (hc : Keeps k0 c.s) : Keeps k0 (Com.lcCmd c code sig).2.s := by
  unfold Com.lcCmd
  try (conv => zeta)
  repeat' first
    | with_reducible assumption | (intro x; try beta_reduce; try (conv => zeta)) | fail_if_no_progress (with_reducible apply Keeps.upd)
    | with_reducible apply Com.upd_keeps | with_reducible apply State.commission_keeps | with_reducible apply State.irq_keeps
    | with_reducible apply Keeps.iteSndCom | split

theorem Com.command_keeps {c : Com} {e : Entry} {o : Origin} {m : Cmd} (hc : Keeps k0 c.s) : Keeps k0 (Com.command c e o m).2.s := by
  unfold Com.command
  try (conv => zeta)
  repeat' first
    | with_reducible assumption | (intro x; try beta_reduce; try (conv => zeta)) | fail_if_no_progress (with_reducible apply Keeps.upd)
    | with_reducible apply Com.cmdCloseNow_keeps | with_reducible apply Com.cmdMeterSet_keeps | with_reducible apply Com.cmdPush_keeps
    | with_reducible apply Com.cmdReadout_keeps | with_reducible apply Com.cmdTimeSet_keeps | with_reducible apply Com.fwDeclare_keeps
    | with_reducible apply Com.fwDelete_keeps | with_reducible apply Com.fwLoad_keeps | with_reducible apply Com.fwSend_keeps
    | with_reducible apply Com.keyRoll_keeps | with_reducible apply Com.lcCmd_keeps | with_reducible apply Com.rosterAdd_keeps
    | with_reducible apply Com.rosterDecom_keeps | with_reducible apply Com.rosterRelease_keeps | with_reducible apply Com.rosterSet_keeps
    | with_reducible apply Com.upd_keeps | with_reducible apply State.endHold_keeps | with_reducible apply Keeps.ite | split

theorem Com.mgmt_keeps {c : Com} {e : Entry} (hc : Keeps k0 c.s) : Keeps k0 (Com.mgmt c e).s := by
  unfold Com.mgmt
  try (conv => zeta)
  repeat' first
    | with_reducible assumption | with_reducible apply Com.command_keeps | with_reducible apply Com.sealed_keeps
    | with_reducible apply Keeps.iteSndCom | split

theorem State.setNor_keeps {s : State} {f : Nor → Nor} (hs : Keeps k0 s) : Keeps k0 (State.setNor s f) := by
  unfold State.setNor
  try (conv => zeta)
  repeat' first
    | with_reducible assumption | fail_if_no_progress (with_reducible apply Keeps.upd)

theorem State.setBoot_keeps {s : State} {f : Boot → Boot} (hs : Keeps k0 s) : Keeps k0 (State.setBoot s f) := by
  unfold State.setBoot
  try (conv => zeta)
  repeat' first
    | with_reducible assumption | fail_if_no_progress (with_reducible apply Keeps.upd)

theorem State.imageRefused_keeps {s : State} {kind reason : Nat} (hs : Keeps k0 s) : Keeps k0 (State.imageRefused s kind reason) := by
  unfold State.imageRefused
  try (conv => zeta)
  repeat' first
    | with_reducible assumption | with_reducible apply State.event_keeps

theorem State.putXfer_keeps {s : State} {x : Xfer} (hs : Keeps k0 s) : Keeps k0 (State.putXfer s x) := by
  unfold State.putXfer
  try (conv => zeta)
  repeat' first
    | with_reducible assumption | fail_if_no_progress (with_reducible apply Keeps.upd)

theorem State.dropXfer_keeps {s : State} {kind : Nat} (hs : Keeps k0 s) : Keeps k0 (State.dropXfer s kind) := by
  unfold State.dropXfer
  try (conv => zeta)
  repeat' first
    | with_reducible assumption | fail_if_no_progress (with_reducible apply Keeps.upd)

theorem State.installFw_keeps {s : State} {k : Nat} {img : Bytes} (hs : Keeps k0 s) : Keeps k0 (State.installFw s k img) := by
  unfold State.installFw
  try (conv => zeta)
  repeat' first
    | with_reducible assumption | with_reducible apply State.setNor_keeps

theorem State.finishXfer_keeps {s : State} {x : Xfer} {jsn : Nat} (hs : Keeps k0 s) : Keeps k0 (State.finishXfer s x jsn) := by
  unfold State.finishXfer
  try (conv => zeta)
  repeat' first
    | with_reducible assumption | with_reducible apply State.dropXfer_keeps | with_reducible apply State.event_keeps
    | with_reducible apply State.imageRefused_keeps | with_reducible apply State.installFw_keeps | with_reducible apply State.setBoot_keeps
    | with_reducible apply State.setNor_keeps | with_reducible apply Keeps.ite

theorem State.imageBlock_keeps {s : State} {b : Bytes} {jsn : Nat} (hs : Keeps k0 s) : Keeps k0 (State.imageBlock s b jsn) := by
  unfold State.imageBlock
  try (conv => zeta)
  repeat' first
    | with_reducible assumption | with_reducible apply State.dropXfer_keeps | with_reducible apply State.finishXfer_keeps
    | with_reducible apply State.imageRefused_keeps | with_reducible apply State.putXfer_keeps | with_reducible apply Keeps.ite | split

theorem State.abortUpdate_keeps {s : State} (hs : Keeps k0 s) : Keeps k0 (State.abortUpdate s) := by
  unfold State.abortUpdate
  try (conv => zeta)
  repeat' first
    | with_reducible assumption | with_reducible apply State.dropXfer_keeps | with_reducible apply State.setNor_keeps
    | with_reducible apply Keeps.ite

theorem State.setNet_keeps {s : State} {f : Net → Net} (hs : Keeps k0 s) : Keeps k0 (State.setNet s f) := by
  unfold State.setNet
  try (conv => zeta)
  repeat' first
    | with_reducible assumption | fail_if_no_progress (with_reducible apply Keeps.upd)

theorem State.authH2u_keeps {s : State} {d : Dgram} {b : Bytes} (hs : Keeps k0 s) : Keeps k0 (State.authH2u s d b).2 := by
  unfold State.authH2u
  try (conv => zeta)
  repeat' first
    | with_reducible assumption | fail_if_no_progress (with_reducible apply Keeps.upd) | with_reducible apply Keeps.iteSnd | split

theorem State.authH2u_keeps_eq {s : State} {d : Dgram} {b : Bytes} {y0 : Auth} {y1 : State} (hs : Keeps k0 s) (heq0 : State.authH2u s d b = (y0,
    y1)) : Keeps k0 y1 := by
  have hh := State.authH2u_keeps (k0 := k0) (s := s) (d := d) (b := b) hs
  rw [heq0] at hh; exact hh

theorem State.authFailed_keeps {s : State} {replay : Bool} (hs : Keeps k0 s) : Keeps k0 (State.authFailed s replay) := by
  unfold State.authFailed
  try (conv => zeta)
  repeat' first
    | with_reducible assumption | with_reducible apply State.count_keeps | with_reducible apply State.irq_keeps

theorem State.submit_keeps {s : State} {u : Unsub} (hs : Keeps k0 s) : Keeps k0 (State.submit s u) := by
  unfold State.submit
  try (conv => zeta)
  repeat' first
    | with_reducible assumption | fail_if_no_progress (with_reducible apply Keeps.upd) | with_reducible apply State.offer_keeps
    | with_reducible apply Keeps.ite

theorem State.relayCmd_keeps {s : State} {d : Dgram} {b : Bytes} (hs : Keeps k0 s) : Keeps k0 (State.relayCmd s d b) := by
  unfold State.relayCmd
  try (conv => zeta)
  repeat' first
    | with_reducible assumption | with_reducible apply State.q8Send_keeps | with_reducible apply Keeps.ite | split

theorem Com.cmdDatagram_keeps {c : Com} {e : Entry} {d : Dgram} {viaSeif : Bool} (hc : Keeps k0 c.s) : Keeps k0 (Com.cmdDatagram c e d viaSeif).s
    := by
  unfold Com.cmdDatagram
  try (conv => zeta)
  repeat' first
    | with_reducible assumption | (intro x; try beta_reduce; try (conv => zeta)) | with_reducible apply Com.event_keeps
    | with_reducible apply Com.upd_keeps | with_reducible apply State.authFailed_keeps
    | with_reducible refine State.authH2u_keeps_eq ?_ (by assumption) | with_reducible apply State.relayCmd_keeps
    | with_reducible apply State.submit_keeps | with_reducible apply Keeps.iteCom | split

theorem Com.back_keeps {c : Com} {e : Entry} {d : Dgram} (hc : Keeps k0 c.s) : Keeps k0 (Com.back c e d).s := by
  unfold Com.back
  try (conv => zeta)
  repeat' first
    | with_reducible assumption | (intro x; try beta_reduce; try (conv => zeta)) | fail_if_no_progress (with_reducible apply Keeps.upd)
    | with_reducible apply Com.event_keeps | with_reducible apply Com.upd_keeps | with_reducible apply State.authFailed_keeps
    | with_reducible refine State.authH2u_keeps_eq ?_ (by assumption) | with_reducible apply State.setNet_keeps | with_reducible apply Keeps.ite
    | with_reducible apply Keeps.iteCom | split

theorem State.setPort_keeps {s : State} {n : Nat} {f : NetPort → NetPort} (hs : Keeps k0 s) : Keeps k0 (State.setPort s n f) := by
  unfold State.setPort
  try (conv => zeta)
  repeat' first
    | with_reducible assumption | with_reducible apply State.setNet_keeps

theorem State.q6Drain_keeps {p0 : Nat} {p1 : State} (hp1 : Keeps k0 p1) : Keeps k0 (State.q6Drain p0 p1) := by
  induction p0 generalizing p1 with
  | zero =>
    unfold State.q6Drain
    try (conv => zeta)
    repeat' first
      | with_reducible assumption
  | succ n ih =>
    unfold State.q6Drain
    try (conv => zeta)
    repeat' first
      | with_reducible assumption | apply ih | with_reducible apply State.emit_keeps | with_reducible apply State.ringDrain_keeps
      | with_reducible refine State.ringTake_keeps_eq ?_ (by assumption) | with_reducible apply Keeps.ite | split

theorem State.sendDgram_keeps {s : State} {dst : Option (Nat × Nat)} {b : Bytes} (hs : Keeps k0 s) : Keeps k0 (State.sendDgram s dst b) := by
  unfold State.sendDgram
  try (conv => zeta)
  repeat' first
    | with_reducible assumption | with_reducible apply State.q6Drain_keeps | with_reducible apply State.ringPacket_keeps

theorem State.u2hNext_keeps {s : State} (hs : Keeps k0 s) : Keeps k0 (State.u2hNext s).2 := by
  unfold State.u2hNext
  try (conv => zeta)
  repeat' first
    | with_reducible assumption | fail_if_no_progress (with_reducible apply Keeps.upd) | with_reducible apply State.count_keeps
    | with_reducible apply State.irq_keeps | with_reducible apply Keeps.iteSnd

theorem State.diagRecord_keeps {s : State} {rtype : Nat} {b : Bytes} (hs : Keeps k0 s) : Keeps k0 (State.diagRecord s rtype b) := by
  unfold State.diagRecord
  try (conv => zeta)
  repeat' first
    | with_reducible assumption | with_reducible apply State.setNet_keeps

theorem State.newSession_keeps {s : State} (hs : Keeps k0 s) : Keeps k0 (State.newSession s) := by
  unfold State.newSession
  try (conv => zeta)
  repeat' first
    | with_reducible assumption | with_reducible apply State.setNet_keeps

theorem State.enqueueChild_keeps {s : State} {t : Task} (hs : Keeps k0 s) : Keeps k0 (State.enqueueChild s t) := by
  unfold State.enqueueChild
  try (conv => zeta)
  repeat' first
    | with_reducible assumption | fail_if_no_progress (with_reducible apply Keeps.upd) | with_reducible apply State.enqueue_keeps | split

theorem State.owe_keeps {s : State} {e : Entry} {d : Dgram} {next : Nat} (hs : Keeps k0 s) : Keeps k0 (State.owe s e d next) := by
  unfold State.owe
  try (conv => zeta)
  repeat' first
    | with_reducible assumption | with_reducible apply State.setNet_keeps

theorem Com.takeBatch_keeps {c : Com} {e : Entry} {d : Dgram} {body : Bytes} (hc : Keeps k0 c.s) : Keeps k0 (Com.takeBatch c e d body).s := by
  unfold Com.takeBatch
  try (conv => zeta)
  repeat' first
    | with_reducible assumption | (intro x; try beta_reduce; try (conv => zeta))
    | (with_reducible apply Keeps.foldlCom) <;> (try (intro x a hx; try beta_reduce; try (conv => zeta))) | with_reducible apply Com.ctx_keeps
    | with_reducible apply Com.upd_keeps | with_reducible apply State.enqueueChild_keeps | with_reducible apply State.owe_keeps
    | with_reducible apply Keeps.iteCom

theorem Com.takeDiag_keeps {c : Com} {e : Entry} {d : Dgram} {body : Bytes} (hc : Keeps k0 c.s) : Keeps k0 (Com.takeDiag c e d body).s := by
  unfold Com.takeDiag
  try (conv => zeta)
  repeat' first
    | with_reducible assumption | (intro x; try beta_reduce; try (conv => zeta))
    | (with_reducible apply Keeps.foldlCom) <;> (try (intro x a hx; try beta_reduce; try (conv => zeta))) | with_reducible apply Com.ctx_keeps
    | with_reducible apply Com.upd_keeps | with_reducible apply State.diagRecord_keeps | with_reducible apply State.owe_keeps
    | with_reducible apply Keeps.iteCom

theorem Com.netPkt_keeps {c : Com} {e : Entry} (hc : Keeps k0 c.s) : Keeps k0 (Com.netPkt c e).s := by
  unfold Com.netPkt
  try (conv => zeta)
  repeat' first
    | with_reducible assumption | (intro x; try beta_reduce; try (conv => zeta)) | with_reducible apply Com.back_keeps
    | with_reducible apply Com.cmdDatagram_keeps | with_reducible apply Com.event_keeps | with_reducible apply Com.takeBatch_keeps
    | with_reducible apply Com.takeDiag_keeps | with_reducible apply Com.upd_keeps | with_reducible apply State.authFailed_keeps
    | with_reducible apply Keeps.iteCom | split

theorem Com.seifFrame_keeps {c : Com} {e : Entry} (hc : Keeps k0 c.s) : Keeps k0 (Com.seifFrame c e).s := by
  unfold Com.seifFrame
  try (conv => zeta)
  repeat' first
    | with_reducible assumption | (intro x; try beta_reduce; try (conv => zeta)) | with_reducible apply Com.cmdDatagram_keeps
    | with_reducible apply Com.upd_keeps | with_reducible apply State.imageBlock_keeps | with_reducible apply Keeps.iteCom | split

theorem Com.headReading_keeps {c : Com} {i : Nat} {e : Entry} {r : Bytes} (hc : Keeps k0 c.s) : Keeps k0 (Com.headReading c i e r).s := by
  unfold Com.headReading
  try (conv => zeta)
  repeat' first
    | with_reducible assumption | with_reducible apply Com.accAdd_keeps | with_reducible apply Com.ctx_keeps | with_reducible apply Com.event_keeps
    | with_reducible apply Com.out_keeps | with_reducible apply Com.setSlot_keeps | with_reducible apply Com.slotContrib_keeps
    | with_reducible apply Com.tamperRead_keeps | with_reducible apply Keeps.iteCom

theorem Com.headResult_keeps {c : Com} {g : Nat} {e : Entry} {r : Bytes} (hc : Keeps k0 c.s) : Keeps k0 (Com.headResult c g e r).s := by
  unfold Com.headResult
  try (conv => zeta)
  repeat' first
    | with_reducible assumption | with_reducible apply Com.contribute_keeps | with_reducible apply Com.ctx_keeps | with_reducible apply Keeps.iteCom

theorem Com.child_keeps {c : Com} {e : Entry} {rtype : Nat} {r : Bytes} (hc : Keeps k0 c.s) : Keeps k0 (Com.child c e rtype r).s := by
  unfold Com.child
  try (conv => zeta)
  repeat' first
    | with_reducible assumption | with_reducible apply Com.event_keeps | with_reducible apply Com.headReading_keeps
    | with_reducible apply Com.headResult_keeps | with_reducible apply Com.out_keeps | with_reducible apply Keeps.iteCom | split

theorem State.logRecord_keeps {s : State} {b : Bytes} (hs : Keeps k0 s) : Keeps k0 (State.logRecord s b) := by
  unfold State.logRecord
  try (conv => zeta)
  repeat' first
    | with_reducible assumption | fail_if_no_progress (with_reducible apply Keeps.upd) | with_reducible apply State.irq_keeps
    | with_reducible apply Keeps.ite

theorem State.closeFold_keeps {s : State} (hs : Keeps k0 s) : Keeps k0 (State.closeFold s) := by
  unfold State.closeFold
  try (conv => zeta)
  repeat' first
    | with_reducible assumption | fail_if_no_progress (with_reducible apply Keeps.upd) | with_reducible apply State.diagRecord_keeps
    | with_reducible apply State.logRecord_keeps | with_reducible apply Keeps.ite | split

theorem State.logReleased_keeps {s : State} {b : Bytes} (hs : Keeps k0 s) : Keeps k0 (State.logReleased s b) := by
  unfold State.logReleased
  try (conv => zeta)
  repeat' first
    | with_reducible assumption | with_reducible apply State.closeFold_keeps | with_reducible apply State.logRecord_keeps
    | with_reducible apply Keeps.ite

theorem State.recordEvent_keeps {s : State} {cls : Nat} {b : Bytes} (hs : Keeps k0 s) : Keeps k0 (State.recordEvent s cls b) := by
  unfold State.recordEvent
  try (conv => zeta)
  repeat' first
    | with_reducible assumption | fail_if_no_progress (with_reducible apply Keeps.upd) | with_reducible apply State.closeFold_keeps
    | with_reducible apply State.diagRecord_keeps | with_reducible apply State.logRecord_keeps | with_reducible apply Keeps.ite | split

theorem State.eventNow_keeps {s : State} {cls arg : Nat} (hs : Keeps k0 s) : Keeps k0 (State.eventNow s cls arg) := by
  unfold State.eventNow
  try (conv => zeta)
  repeat' first
    | with_reducible assumption | with_reducible apply State.recordEvent_keeps | with_reducible apply Keeps.ite

theorem State.setCursor_keeps {s : State} {w : Who} {c : Cursor} (hs : Keeps k0 s) : Keeps k0 (State.setCursor s w c) := by
  unfold State.setCursor
  try (conv => zeta)
  repeat' first
    | with_reducible assumption | fail_if_no_progress (with_reducible apply Keeps.upd)

theorem State.evrRewind_keeps {s : State} {w : Who} (hs : Keeps k0 s) : Keeps k0 (State.evrRewind s w).2 := by
  unfold State.evrRewind
  try (conv => zeta)
  repeat' first
    | with_reducible assumption | with_reducible apply State.setCursor_keeps

theorem State.evrWin_keeps {s : State} {w : Who} (hs : Keeps k0 s) : Keeps k0 (State.evrWin s w).2 := by
  unfold State.evrWin
  try (conv => zeta)
  repeat' first
    | with_reducible assumption | with_reducible apply State.setCursor_keeps | split

theorem State.journalDraw_keeps {s : State} {tag n : Nat} (hs : Keeps k0 s) : Keeps k0 (State.journalDraw s tag n) := by
  unfold State.journalDraw
  try (conv => zeta)
  repeat' first
    | with_reducible assumption | fail_if_no_progress (with_reducible apply Keeps.upd) | with_reducible apply State.append_keeps
    | with_reducible apply State.count_keeps | with_reducible apply Keeps.ite

theorem Com.sweepSlot_keeps {k0 : State} {x : Close} {gen : Nat} {seed : Bytes} {acc : Com × Nat × Bytes} {i : Nat} (h : Keeps k0 acc.1.s) :
    Keeps k0 (Com.sweepSlot x gen seed acc i).1.s := by
  unfold Com.sweepSlot
  obtain ⟨c, n, b⟩ := acc
  dsimp only
  have h1 : Keeps k0 ((c.applyFences i (x.jsn + 1)).upd fun s => s.releaseParks i).s :=
    Com.upd_keeps (Com.applyFences_keeps h) fun y hy => State.releaseParks_keeps hy
  split
  · refine Com.out_keeps (Com.upd_keeps h1 fun y hy => State.count_keeps hy)
  · exact h1

theorem Com.sweepStep_keeps {c : Com} {x : Close} {seed : Bytes} {curJsn curStamp : Nat} (hc : Keeps k0 c.s) : Keeps k0 (Com.sweepStep c x seed
    curJsn curStamp).s := by
  unfold Com.sweepStep
  try (conv => zeta)
  repeat' first
    | with_reducible assumption | (intro x; try beta_reduce; try (conv => zeta))
    | (with_reducible apply Keeps.foldlComFst) <;> (try (intro x a hx; try beta_reduce; try (conv => zeta))) | with_reducible apply Com.ctx_keeps
    | with_reducible apply Com.event_keeps | with_reducible apply Com.feederFences_keeps | with_reducible apply Com.out_keeps
    | with_reducible apply Com.sweepSlot_keeps | with_reducible apply Com.upd_keeps | with_reducible apply State.count_keeps
    | with_reducible apply State.irq_keeps | with_reducible apply Keeps.iteCom

theorem State.endSweep_keeps {s : State} {subj : Nat} (hs : Keeps k0 s) : Keeps k0 (State.endSweep s subj) := by
  unfold State.endSweep
  try (conv => zeta)
  repeat' first
    | with_reducible assumption | with_reducible apply State.dropHead_keeps | with_reducible apply Keeps.ite | split

theorem State.sweepCom_keeps {s : State} {x : Close} {curJsn : Nat} (hs : Keeps k0 s) : Keeps k0 (State.sweepCom s x curJsn).s := by
  unfold State.sweepCom
  try (conv => zeta)
  repeat' first
    | with_reducible assumption

theorem State.closeStep_keeps {s0 : State} {x : Close} {seed : Bytes} (hs0 : Keeps k0 s0) : KeepsP k0 (State.closeStep s0 x seed) := by
  unfold State.closeStep
  try (conv => zeta)
  repeat' first
    | with_reducible assumption | with_reducible exact KeepsP.none _ | with_reducible apply KeepsP.some
    | (with_reducible apply Keeps.foldl) <;> (try (intro x a hx; try beta_reduce; try (conv => zeta))) | with_reducible apply Com.finish_keeps
    | with_reducible apply Com.sweepStep_keeps | with_reducible apply State.endSweep_keeps | with_reducible apply State.journalOwn_keeps
    | with_reducible apply State.leaveDunes_keeps | with_reducible apply State.poolCheck_keeps | with_reducible apply State.releaseHeldPeriod_keeps
    | with_reducible apply State.scrub_keeps | with_reducible apply State.sweepCom_keeps | split

theorem Com.programOutputs_keeps {c : Com} {e : Entry} (hc : Keeps k0 c.s) : Keeps k0 (Com.programOutputs c e).s := by
  unfold Com.programOutputs
  try (conv => zeta)
  repeat' first
    | with_reducible assumption | (with_reducible apply Keeps.foldlCom) <;> (try (intro x a hx; try beta_reduce; try (conv => zeta)))
    | with_reducible apply Com.out_keeps | with_reducible apply Keeps.iteCom

theorem Com.cal_keeps {c : Com} {e : Entry} (hc : Keeps k0 c.s) : Keeps k0 (Com.cal c e).s := by
  unfold Com.cal
  try (conv => zeta)
  repeat' first
    | with_reducible assumption | with_reducible apply Com.ctx_keeps | with_reducible apply Com.mgmt_keeps
    | with_reducible apply Com.programOutputs_keeps | with_reducible apply Keeps.iteCom | split

theorem Com.feederTask_keeps {c : Com} {e : Entry} (hc : Keeps k0 c.s) : Keeps k0 (Com.feederTask c e).s := by
  unfold Com.feederTask
  try (conv => zeta)
  repeat' first
    | with_reducible assumption | with_reducible apply Com.feeder_keeps | with_reducible apply Com.feederBlock_keeps
    | with_reducible apply Com.feederEvent_keeps | with_reducible apply Com.feederFences_keeps | with_reducible apply Com.mgmt_keeps | split

theorem Com.supply_keeps {c : Com} {e : Entry} (hc : Keeps k0 c.s) : Keeps k0 (Com.supply c e).s := by
  unfold Com.supply
  try (conv => zeta)
  repeat' first
    | with_reducible assumption | with_reducible apply Com.event_keeps | with_reducible apply Keeps.iteCom | split

theorem Com.noteTask_keeps {c : Com} {e : Entry} (hc : Keeps k0 c.s) : Keeps k0 (Com.noteTask c e).s := by
  unfold Com.noteTask
  try (conv => zeta)
  repeat' first
    | with_reducible assumption | with_reducible apply Com.event_keeps | split

theorem Com.captureTask_keeps {c : Com} {e : Entry} (hc : Keeps k0 c.s) : Keeps k0 (Com.captureTask c e).s := by
  unfold Com.captureTask
  try (conv => zeta)
  repeat' first
    | with_reducible assumption | (intro x; try beta_reduce; try (conv => zeta)) | with_reducible apply Com.event_keeps
    | with_reducible apply Com.upd_keeps | with_reducible apply State.setReg_keeps

theorem Com.markTask_keeps {c : Com} {e : Entry} (hc : Keeps k0 c.s) : Keeps k0 (Com.markTask c e).s := by
  unfold Com.markTask
  try (conv => zeta)
  repeat' first
    | with_reducible assumption | (intro x; try beta_reduce; try (conv => zeta)) | with_reducible apply Com.sweepStep_keeps
    | with_reducible apply Com.upd_keeps | with_reducible apply State.endSweep_keeps | with_reducible apply State.releaseHeldPeriod_keeps
    | with_reducible apply State.setBoot_keeps | with_reducible apply State.sweepCom_keeps | with_reducible apply Keeps.iteCom | split

theorem State.afterCommit_keeps {s : State} (hs : Keeps k0 s) : Keeps k0 (State.afterCommit s) := by
  unfold State.afterCommit
  try (conv => zeta)
  repeat' first
    | with_reducible assumption | with_reducible apply State.eventNow_keeps | with_reducible apply State.free_keeps
    | with_reducible apply State.mainReset_keeps | with_reducible apply Keeps.ite

theorem Com.slotTask_keeps {c : Com} {i : Nat} {t : Task} (hc : Keeps k0 c.s) : Keeps k0 (Com.slotTask c i t).s := by
  unfold Com.slotTask
  try (conv => zeta)
  repeat' first
    | with_reducible assumption | (intro x; try beta_reduce; try (conv => zeta)) | with_reducible apply Com.applyFences_keeps
    | with_reducible apply Com.child_keeps | with_reducible apply Com.frameEntry_keeps | with_reducible apply Com.mgmt_keeps
    | with_reducible apply Com.setSlot_keeps | with_reducible apply Com.upd_keeps | with_reducible apply State.releaseParks_keeps
    | with_reducible apply Keeps.iteCom | split

theorem Com.runTask_keeps {c : Com} {t : Task} (hc : Keeps k0 c.s) : Keeps k0 (Com.runTask c t).s := by
  unfold Com.runTask
  try (conv => zeta)
  repeat' first
    | with_reducible assumption | with_reducible apply Com.balanceClose_keeps | with_reducible apply Com.cal_keeps
    | with_reducible apply Com.captureTask_keeps | with_reducible apply Com.child_keeps | with_reducible apply Com.event_keeps
    | with_reducible apply Com.feederTask_keeps | with_reducible apply Com.markTask_keeps | with_reducible apply Com.mgmt_keeps
    | with_reducible apply Com.netPkt_keeps | with_reducible apply Com.noteTask_keeps | with_reducible apply Com.seifFrame_keeps
    | with_reducible apply Com.slotTask_keeps | with_reducible apply Com.supply_keeps | with_reducible apply Keeps.iteCom | split

theorem State.comOf_keeps {s : State} {t : Task} (hs : Keeps k0 s) : Keeps k0 (State.comOf s t).s := by
  unfold State.comOf
  try (conv => zeta)
  repeat' first
    | with_reducible assumption

theorem State.scrubKey_keeps {s : State} {k : Key} (hs : Keeps k0 s) : Keeps k0 (State.scrubKey s k) := by
  unfold State.scrubKey
  try (conv => zeta)
  repeat' first
    | with_reducible assumption | with_reducible apply State.scrub_keeps | split

theorem State.commitHead_keeps {s0 : State} {k : Key} (hs0 : Keeps k0 s0) : Keeps k0 (State.commitHead s0 k) := by
  unfold State.commitHead
  try (conv => zeta)
  repeat' first
    | with_reducible assumption | with_reducible apply Com.finish_keeps | with_reducible apply Com.runTask_keeps
    | with_reducible apply State.afterCommit_keeps | with_reducible apply State.comOf_keeps | with_reducible apply State.dropHead_keeps
    | with_reducible apply State.leaveDunes_keeps | with_reducible apply State.noteIdle_keeps | with_reducible apply State.poolCheck_keeps
    | with_reducible apply State.scrubKey_keeps | with_reducible apply State.setHead_keeps | with_reducible apply Keeps.ite | split

theorem State.workOff_keeps {p0 : Nat} {p1 : State} (hp1 : Keeps k0 p1) : Keeps k0 (State.workOff p0 p1) := by
  induction p0 generalizing p1 with
  | zero =>
    unfold State.workOff
    try (conv => zeta)
    repeat' first
      | with_reducible assumption
  | succ n ih =>
    unfold State.workOff
    try (conv => zeta)
    repeat' first
      | with_reducible assumption | apply ih | with_reducible apply State.commitHead_keeps | split

theorem State.settle_keeps {s : State} (hs : Keeps k0 s) : Keeps k0 (State.settle s) := by
  unfold State.settle
  try (conv => zeta)
  repeat' first
    | with_reducible assumption | with_reducible apply State.dispatchAll_keeps | with_reducible apply State.workOff_keeps

end Sys2Proof.Machine
end

