-- ==== Sys2Proof/Laws/KeepsMac.lean ====
section
/-! SUPPORT. The relation of Laws/Keeps.lean for the chain's senders, SYS and the two MACs: one lemma per operation. -/
namespace Sys2Proof.Machine

set_option linter.unusedTactic false
set_option linter.unusedVariables false

variable {k0 : State}

theorem State.enterOutput_keeps {s : State} {o : Output} (hs : Keeps k0 s) : Keeps k0 (State.enterOutput s o) := by
  unfold State.enterOutput
  try (conv => zeta)
  repeat' first
    | with_reducible assumption | fail_if_no_progress (with_reducible apply Keeps.upd) | with_reducible apply State.ctlRelease_keeps
    | with_reducible apply State.ringPacket_keeps | with_reducible apply Keeps.ite | split

theorem State.dropToken_keeps {s : State} {why st : Nat} (hs : Keeps k0 s) : Keeps k0 (State.dropToken s why st) := by
  unfold State.dropToken
  try (conv => zeta)
  repeat' first
    | with_reducible assumption | fail_if_no_progress (with_reducible apply Keeps.upd) | with_reducible apply State.event_keeps
    | with_reducible apply State.irq_keeps | with_reducible apply State.ringDrain_keeps | with_reducible apply State.setRing_keeps
    | with_reducible apply State.setSef_keeps | with_reducible apply Keeps.ite

theorem State.postResult_keeps {s : State} {r : CphReq} {status unit cnt : Nat} {nonce : Bytes} {outLen : Nat} (hs : Keeps k0 s) : Keeps k0
    (State.postResult s r status unit cnt nonce outLen) := by
  unfold State.postResult
  try (conv => zeta)
  repeat' first
    | with_reducible assumption | with_reducible apply State.ringPacket_keeps

theorem State.eraseKeys_keeps {s : State} (hs : Keeps k0 s) : Keeps k0 (State.eraseKeys s) := by
  unfold State.eraseKeys
  try (conv => zeta)
  repeat' first
    | with_reducible assumption | fail_if_no_progress (with_reducible apply Keeps.upd)
    | (with_reducible apply Keeps.foldl) <;> (try (intro x a hx; try beta_reduce; try (conv => zeta))) | with_reducible apply State.postResult_keeps

theorem State.transition_keeps {s : State} {dst : LifeCycle} (hs : Keeps k0 s) : Keeps k0 (State.transition s dst) := by
  unfold State.transition
  try (conv => zeta)
  repeat' first
    | with_reducible assumption | fail_if_no_progress (with_reducible apply Keeps.upd) | with_reducible apply State.eraseKeys_keeps
    | with_reducible apply State.irq_keeps | with_reducible apply State.mainReset_keeps

theorem State.transitionWhen_keeps {s : State} {dst : LifeCycle} (hs : Keeps k0 s) : Keeps k0 (State.transitionWhen s dst) := by
  unfold State.transitionWhen
  try (conv => zeta)
  repeat' first
    | with_reducible assumption | fail_if_no_progress (with_reducible apply Keeps.upd) | with_reducible apply State.transition_keeps
    | with_reducible apply Keeps.ite

theorem State.arbGrant_keeps {s : State} {plc lookup : Bool} {i : Nat} (hs : Keeps k0 s) : Keeps k0 (State.arbGrant s plc lookup i) := by
  unfold State.arbGrant
  try (conv => zeta)
  repeat' first
    | with_reducible assumption | fail_if_no_progress (with_reducible apply Keeps.upd) | with_reducible apply State.count_keeps
    | with_reducible apply State.free_keeps | with_reducible apply State.irq_keeps | with_reducible apply State.setFld_keeps
    | with_reducible apply Keeps.ite

theorem State.judgeBusy_keeps {s : State} {i : Nat} (hs : Keeps k0 s) : Keeps k0 (State.judgeBusy s i).2 := by
  unfold State.judgeBusy
  try (conv => zeta)
  repeat' first
    | with_reducible assumption | with_reducible apply State.count_keeps

theorem State.judgeUnknown_keeps {s : State} {slot : Option Nat} (hs : Keeps k0 s) : Keeps k0 (State.judgeUnknown s slot).2 := by
  unfold State.judgeUnknown
  try (conv => zeta)
  repeat' first
    | with_reducible assumption | with_reducible apply State.count_keeps

theorem State.judgeSlot_keeps {s : State} {i : Nat} {f : Frame} (hs : Keeps k0 s) : Keeps k0 (State.judgeSlot s i f).2 := by
  unfold State.judgeSlot
  try (conv => zeta)
  repeat' first
    | with_reducible assumption | with_reducible apply State.count_keeps | with_reducible apply State.judgeBusy_keeps
    | with_reducible apply State.lockedWrite_keeps | with_reducible apply Keeps.iteSnd

theorem State.judgeCapacity_keeps {s : State} (hs : Keeps k0 s) : Keeps k0 (State.judgeCapacity s).2 := by
  unfold State.judgeCapacity
  try (conv => zeta)
  repeat' first
    | with_reducible assumption | with_reducible apply State.count_keeps

theorem State.judgePool_keeps {s : State} {f : Frame} (hs : Keeps k0 s) : Keeps k0 (State.judgePool s f).2 := by
  unfold State.judgePool
  try (conv => zeta)
  repeat' first
    | with_reducible assumption | with_reducible apply State.allocJoin_keeps | with_reducible apply State.judgeBusy_keeps
    | with_reducible apply State.judgeCapacity_keeps | with_reducible apply State.scrub_keeps | with_reducible apply Keeps.iteSnd | split

theorem State.judgeJoin_keeps {s : State} {f : Frame} (hs : Keeps k0 s) : Keeps k0 (State.judgeJoin s f).2 := by
  unfold State.judgeJoin
  try (conv => zeta)
  repeat' first
    | with_reducible assumption | with_reducible apply State.judgeBusy_keeps | with_reducible apply State.judgePool_keeps
    | with_reducible apply State.judgeSlot_keeps | with_reducible apply State.judgeUnknown_keeps | with_reducible apply State.scrub_keeps
    | with_reducible apply State.scrubIndex_keeps | with_reducible apply Keeps.iteSnd | split

theorem State.judgeOpen_keeps {s : State} {f : Frame} (hs : Keeps k0 s) : Keeps k0 (State.judgeOpen s f).2 := by
  unfold State.judgeOpen
  try (conv => zeta)
  repeat' first
    | with_reducible assumption | with_reducible apply State.judgeBusy_keeps | with_reducible apply State.judgeJoin_keeps
    | with_reducible apply State.judgeSlot_keeps | with_reducible apply State.judgeUnknown_keeps | with_reducible apply State.scrub_keeps
    | with_reducible apply Keeps.iteSnd | split

theorem State.judge_keeps {s : State} {plc : Bool} {f : Frame} (hs : Keeps k0 s) : Keeps k0 (State.judge s plc f).2 := by
  unfold State.judge
  try (conv => zeta)
  repeat' first
    | with_reducible assumption | with_reducible apply State.arbGrant_keeps | with_reducible apply State.judgeOpen_keeps
    | with_reducible apply Keeps.ite | with_reducible apply Keeps.iteSnd

theorem State.offerFrame_keeps {s : State} {plc : Bool} {j : Judged} {stamp chan desc : Nat} {frame : Bytes} (hs : Keeps k0 s) : Keeps k0
    (State.offerFrame s plc j stamp chan desc frame) := by
  unfold State.offerFrame
  try (conv => zeta)
  repeat' first
    | with_reducible assumption | with_reducible apply State.offer_keeps

theorem State.notice_keeps {s : State} {plc : Bool} {i nkind push wpt : Nat} (hs : Keeps k0 s) : Keeps k0 (State.notice s plc i nkind push wpt) := by
  unfold State.notice
  try (conv => zeta)
  repeat' first
    | with_reducible assumption | with_reducible apply State.offer_keeps

theorem State.setRad_keeps {s : State} {f : Radio → Radio} (hs : Keeps k0 s) : Keeps k0 (State.setRad s f) := by
  unfold State.setRad
  try (conv => zeta)
  repeat' first
    | with_reducible assumption | fail_if_no_progress (with_reducible apply Keeps.upd)

theorem State.charge_keeps {s : State} {cost : Nat} (hs : Keeps k0 s) : Keeps k0 (State.charge s cost) := by
  unfold State.charge
  try (conv => zeta)
  repeat' first
    | with_reducible assumption | with_reducible apply State.irq_keeps | with_reducible apply State.setRad_keeps | with_reducible apply Keeps.ite

theorem State.noteTx_keeps {s : State} {x : TxSpan} (hs : Keeps k0 s) : Keeps k0 (State.noteTx s x) := by
  unfold State.noteTx
  try (conv => zeta)
  repeat' first
    | with_reducible assumption | with_reducible apply State.setRad_keeps

theorem State.radSendAt_keeps {s : State} {ch air pre at_ : Nat} {frame : Bytes} (hs : Keeps k0 s) : Keeps k0 (State.radSendAt s ch air pre at_
    frame) := by
  unfold State.radSendAt
  try (conv => zeta)
  repeat' first
    | with_reducible assumption | with_reducible apply State.charge_keeps | with_reducible apply State.emit_keeps
    | with_reducible apply State.noteTx_keeps

theorem State.radSend_keeps {s : State} {ch air : Nat} {frame : Bytes} (hs : Keeps k0 s) : Keeps k0 (State.radSend s ch air frame) := by
  unfold State.radSend
  try (conv => zeta)
  repeat' first
    | with_reducible assumption | with_reducible apply State.radSendAt_keeps

theorem State.defer_keeps {s : State} {i w : Nat} (hs : Keeps k0 s) : Keeps k0 (State.defer s i w) := by
  unfold State.defer
  try (conv => zeta)
  repeat' first
    | with_reducible assumption | with_reducible apply State.count_keeps | with_reducible apply State.setPoll_keeps

theorem State.payTrain_keeps {s : State} (hs : Keeps k0 s) : Keeps k0 (State.payTrain s) := by
  unfold State.payTrain
  try (conv => zeta)
  repeat' first
    | with_reducible assumption | with_reducible apply State.charge_keeps | with_reducible apply State.setRad_keeps | with_reducible apply Keeps.ite
    | split

theorem State.retrain_keeps {s : State} (hs : Keeps k0 s) : Keeps k0 (State.retrain s) := by
  unfold State.retrain
  try (conv => zeta)
  repeat' first
    | with_reducible assumption | with_reducible apply State.setRad_keeps | with_reducible apply Keeps.ite | split

theorem State.xchDone_keeps {s : State} {x : Exchange} (hs : Keeps k0 s) : Keeps k0 (State.xchDone s x) := by
  unfold State.xchDone
  try (conv => zeta)
  repeat' first
    | with_reducible assumption | with_reducible apply State.setPoll_keeps | with_reducible apply State.setRad_keeps

theorem State.xchEnd_keeps {s : State} {x : Exchange} (hs : Keeps k0 s) : Keeps k0 (State.xchEnd s x) := by
  unfold State.xchEnd
  try (conv => zeta)
  repeat' first
    | with_reducible assumption | with_reducible apply State.setPoll_keeps | with_reducible apply State.setRad_keeps

theorem State.xchMiss_keeps {s : State} {x : Exchange} (hs : Keeps k0 s) : Keeps k0 (State.xchMiss s x) := by
  unfold State.xchMiss
  try (conv => zeta)
  repeat' first
    | with_reducible assumption | with_reducible apply State.notice_keeps | with_reducible apply State.setPoll_keeps
    | with_reducible apply State.xchEnd_keeps

theorem State.radTake_keeps {s : State} {r : RxInfo} {f : Frame} {caravan : Bool} (hs : Keeps k0 s) : Keeps k0 (State.radTake s r f caravan) := by
  unfold State.radTake
  try (conv => zeta)
  repeat' first
    | with_reducible assumption | with_reducible apply State.judge_keeps | with_reducible apply State.offerFrame_keeps
    | with_reducible apply State.setPoll_keeps | with_reducible apply State.setRad_keeps | with_reducible apply State.xchDone_keeps
    | with_reducible apply State.xchEnd_keeps | with_reducible apply Keeps.ite | split

theorem State.radCheck_keeps {p0 : Nat} {p1 : State} {p2 : RxInfo} {p3 : Bool} {p4 : Bytes} (hp1 : Keeps k0 p1) : Keeps k0 (State.radCheck p0 p1 p2
    p3 p4) := by
  induction p0 generalizing p1 p2 p3 p4 with
  | zero =>
    unfold State.radCheck
    try (conv => zeta)
    repeat' first
      | with_reducible assumption
  | succ n ih =>
    unfold State.radCheck
    try (conv => zeta)
    repeat' first
      | with_reducible assumption | apply ih | with_reducible apply State.count_keeps | with_reducible apply State.radTake_keeps
      | with_reducible apply State.setRad_keeps | with_reducible apply Keeps.ite

theorem State.setPlc_keeps {s : State} {f : Plc → Plc} (hs : Keeps k0 s) : Keeps k0 (State.setPlc s f) := by
  unfold State.setPlc
  try (conv => zeta)
  repeat' first
    | with_reducible assumption | fail_if_no_progress (with_reducible apply Keeps.upd)

theorem State.setPhase_keeps {s : State} {p : Nat} {x : PlcPhase} (hs : Keeps k0 s) : Keeps k0 (State.setPhase s p x) := by
  unfold State.setPhase
  try (conv => zeta)
  repeat' first
    | with_reducible assumption | with_reducible apply State.setPlc_keeps

theorem State.noteCoinc_keeps {s : State} (hs : Keeps k0 s) : Keeps k0 (State.noteCoinc s) := by
  unfold State.noteCoinc
  try (conv => zeta)
  repeat' first
    | with_reducible assumption | with_reducible apply State.irq_keeps | with_reducible apply State.setPlc_keeps | with_reducible apply Keeps.ite

theorem State.loseLock_keeps {s : State} {p : Nat} (hs : Keeps k0 s) : Keeps k0 (State.loseLock s p) := by
  unfold State.loseLock
  try (conv => zeta)
  repeat' first
    | with_reducible assumption | with_reducible apply State.count_keeps | with_reducible apply State.irq_keeps
    | with_reducible apply State.setPhase_keeps | with_reducible apply State.setPlc_keeps | with_reducible apply Keeps.ite

theorem State.scoreCrossing_keeps {s : State} {p : Nat} {ok : Bool} (hs : Keeps k0 s) : Keeps k0 (State.scoreCrossing s p ok) := by
  unfold State.scoreCrossing
  try (conv => zeta)
  repeat' first
    | with_reducible assumption | with_reducible apply State.irq_keeps | with_reducible apply State.loseLock_keeps
    | with_reducible apply State.setPhase_keeps | with_reducible apply Keeps.ite

theorem State.plcQueue_keeps {s : State} {phases : List Nat} {f : PlcTx} (hs : Keeps k0 s) : Keeps k0 (State.plcQueue s phases f) := by
  unfold State.plcQueue
  try (conv => zeta)
  repeat' first
    | with_reducible assumption | with_reducible apply State.setPlc_keeps

theorem State.plcSymbol_keeps {s : State} {p : Nat} (hs : Keeps k0 s) : Keeps k0 (State.plcSymbol s p) := by
  unfold State.plcSymbol
  try (conv => zeta)
  repeat' first
    | with_reducible assumption | with_reducible apply State.emit_keeps | with_reducible apply State.setPhase_keeps | with_reducible apply Keeps.ite
    | split

theorem State.plcHear_keeps {s : State} {p : Nat} {e : PulseEnergy} (hs : Keeps k0 s) : Keeps k0 (State.plcHear s p e) := by
  unfold State.plcHear
  try (conv => zeta)
  repeat' first
    | with_reducible assumption | with_reducible apply State.setPhase_keeps | with_reducible apply Keeps.ite

theorem State.endToEnd_keeps {s : State} {r : PlcRx} {f : Frame} {j : Judged} (hs : Keeps k0 s) : Keeps k0 (State.endToEnd s r f j) := by
  unfold State.endToEnd
  try (conv => zeta)
  repeat' first
    | with_reducible assumption | with_reducible apply State.plcQueue_keeps | with_reducible apply Keeps.ite

theorem State.plcTake_keeps {s : State} {r : PlcRx} {f : Frame} {caravan : Bool} (hs : Keeps k0 s) : Keeps k0 (State.plcTake s r f caravan) := by
  unfold State.plcTake
  try (conv => zeta)
  repeat' first
    | with_reducible assumption | with_reducible apply State.endToEnd_keeps | with_reducible apply State.judge_keeps
    | with_reducible apply State.offerFrame_keeps | with_reducible apply State.setPlc_keeps | with_reducible apply Keeps.ite

theorem State.plcCheck_keeps {p0 : Nat} {p1 : State} {p2 : PlcRx} {p3 : Bool} {p4 : Frame} (hp1 : Keeps k0 p1) : Keeps k0 (State.plcCheck p0 p1 p2
    p3 p4) := by
  induction p0 generalizing p1 p2 p3 p4 with
  | zero =>
    unfold State.plcCheck
    try (conv => zeta)
    repeat' first
      | with_reducible assumption
  | succ n ih =>
    unfold State.plcCheck
    try (conv => zeta)
    repeat' first
      | with_reducible assumption | apply ih | with_reducible apply State.count_keeps | with_reducible apply State.plcTake_keeps
      | with_reducible apply State.setPlc_keeps | with_reducible apply Keeps.ite

end Sys2Proof.Machine
end

