-- ==== Sys2Proof/Laws/KeepsSec.lean ====
section
/-! SUPPORT. The relation of Laws/Keeps.lean for the media, the bridge, the sections, the links, the cipher subsystem and the journal commands: one lemma per operation. -/
namespace Sys2Proof.Machine

set_option linter.unusedTactic false
set_option linter.unusedVariables false

variable {k0 : State}

theorem State.setMed_keeps {s : State} {f : Med → Med} (hs : Keeps k0 s) : Keeps k0 (State.setMed s f) := by
  unfold State.setMed
  try (conv => zeta)
  repeat' first
    | with_reducible assumption | fail_if_no_progress (with_reducible apply Keeps.upd)

theorem State.setNand_keeps {s : State} {f : Nand → Nand} (hs : Keeps k0 s) : Keeps k0 (State.setNand s f) := by
  unfold State.setNand
  try (conv => zeta)
  repeat' first
    | with_reducible assumption | fail_if_no_progress (with_reducible apply Keeps.upd)

theorem State.stageStore_keeps {s : State} (hs : Keeps k0 s) : Keeps k0 (State.stageStore s) := by
  unfold State.stageStore
  try (conv => zeta)
  repeat' first
    | with_reducible assumption | (with_reducible apply Keeps.foldl) <;> (try (intro x a hx; try beta_reduce; try (conv => zeta)))
    | with_reducible apply State.putWram_keeps

theorem State.raiseDurable_keeps {s : State} {j : Nat} (hs : Keeps k0 s) : Keeps k0 (State.raiseDurable s j) := by
  unfold State.raiseDurable
  try (conv => zeta)
  repeat' first
    | with_reducible assumption | fail_if_no_progress (with_reducible apply Keeps.upd) | with_reducible apply Keeps.ite

theorem State.trimJournal_keeps {s : State} (hs : Keeps k0 s) : Keeps k0 (State.trimJournal s) := by
  unfold State.trimJournal
  try (conv => zeta)
  repeat' first
    | with_reducible assumption | with_reducible apply State.event_keeps | with_reducible apply State.setNand_keeps | with_reducible apply Keeps.ite

theorem State.verifyJournal_keeps {s : State} {u : StUnit} {rest : List StUnit} {sb : Nand × Sb} (hs : Keeps k0 s) : Keeps k0 (State.verifyJournal
    s u rest sb) := by
  unfold State.verifyJournal
  try (conv => zeta)
  repeat' first
    | with_reducible assumption | with_reducible apply State.raiseDurable_keeps | with_reducible apply State.setMed_keeps
    | with_reducible apply State.trimJournal_keeps

theorem State.drainQ12_keeps {p0 : Nat} {p1 : State} (hp1 : Keeps k0 p1) : Keeps k0 (State.drainQ12 p0 p1) := by
  induction p0 generalizing p1 with
  | zero =>
    unfold State.drainQ12
    try (conv => zeta)
    repeat' first
      | with_reducible assumption
  | succ n ih =>
    unfold State.drainQ12
    try (conv => zeta)
    repeat' first
      | with_reducible assumption | apply ih | with_reducible apply State.ringDrain_keeps
      | with_reducible refine State.ringTake_keeps_eq ?_ (by assumption) | with_reducible apply State.setMed_keeps
      | with_reducible apply State.setNand_keeps | with_reducible apply State.stageStore_keeps | split

theorem State.flushUnits_keeps {p0 : Nat} {p1 : State} (hp1 : Keeps k0 p1) : Keeps k0 (State.flushUnits p0 p1) := by
  induction p0 generalizing p1 with
  | zero =>
    unfold State.flushUnits
    try (conv => zeta)
    repeat' first
      | with_reducible assumption
  | succ n ih =>
    unfold State.flushUnits
    try (conv => zeta)
    repeat' first
      | with_reducible assumption | apply ih | with_reducible apply State.verifyJournal_keeps | split

theorem State.khamsinFlush_keeps {s : State} (hs : Keeps k0 s) : Keeps k0 (State.khamsinFlush s) := by
  unfold State.khamsinFlush
  try (conv => zeta)
  repeat' first
    | with_reducible assumption | with_reducible apply State.drainQ12_keeps | with_reducible apply State.flushUnits_keeps
    | with_reducible apply State.setMed_keeps | with_reducible apply Keeps.ite

theorem State.dropDead_keeps {s : State} (hs : Keeps k0 s) : Keeps k0 (State.dropDead s) := by
  unfold State.dropDead
  try (conv => zeta)
  repeat' first
    | with_reducible assumption | with_reducible apply State.setNand_keeps

theorem State.collect_keeps {s : State} {v : Sb} (hs : Keeps k0 s) : Keeps k0 (State.collect s v) := by
  unfold State.collect
  try (conv => zeta)
  repeat' first
    | with_reducible assumption | with_reducible apply State.setNand_keeps

theorem State.afterRetire_keeps {s : State} {l b : Nat} (hs : Keeps k0 s) : Keeps k0 (State.afterRetire s l b) := by
  unfold State.afterRetire
  try (conv => zeta)
  repeat' first
    | with_reducible assumption | with_reducible apply State.event_keeps | with_reducible apply State.irq_keeps
    | with_reducible apply State.setMed_keeps | with_reducible apply Keeps.ite

theorem State.healthEvent_keeps {s : State} (hs : Keeps k0 s) : Keeps k0 (State.healthEvent s) := by
  unfold State.healthEvent
  try (conv => zeta)
  repeat' first
    | with_reducible assumption | with_reducible apply State.event_keeps

theorem State.egress_keeps {s : State} {n : Nat} {f : EthFrame} (hs : Keeps k0 s) : Keeps k0 (State.egress s n f) := by
  unfold State.egress
  try (conv => zeta)
  repeat' first
    | with_reducible assumption | with_reducible apply State.count_keeps | with_reducible apply State.emit_keeps
    | with_reducible apply State.setPort_keeps | with_reducible apply Keeps.ite | split

theorem State.resume_keeps {s : State} {n : Nat} (hs : Keeps k0 s) : Keeps k0 (State.resume s n) := by
  unfold State.resume
  try (conv => zeta)
  repeat' first
    | with_reducible assumption | (with_reducible apply Keeps.foldl) <;> (try (intro x a hx; try beta_reduce; try (conv => zeta)))
    | with_reducible apply State.egress_keeps | with_reducible apply State.q6Drain_keeps | with_reducible apply State.setPort_keeps | split

theorem State.learn_keeps {s : State} {mac port : Nat} (hs : Keeps k0 s) : Keeps k0 (State.learn s mac port) := by
  unfold State.learn
  try (conv => zeta)
  repeat' first
    | with_reducible assumption | with_reducible apply State.setNet_keeps | with_reducible apply Keeps.ite

theorem State.transparent_keeps {s : State} {ingress wait : Nat} {b : Bytes} (hs : Keeps k0 s) : Keeps k0 (State.transparent s ingress wait b).2 := by
  unfold State.transparent
  try (conv => zeta)
  repeat' first
    | with_reducible assumption | with_reducible apply State.free_keeps | with_reducible apply State.setNet_keeps | with_reducible apply Keeps.iteSnd
    | split

theorem State.forward_keeps {s : State} {ingress : Nat} {f : EthFrame} (hs : Keeps k0 s) : Keeps k0 (State.forward s ingress f) := by
  unfold State.forward
  try (conv => zeta)
  repeat' first
    | with_reducible assumption | (with_reducible apply Keeps.foldl) <;> (try (intro x a hx; try beta_reduce; try (conv => zeta)))
    | with_reducible apply State.egress_keeps | with_reducible apply State.setNet_keeps | with_reducible apply State.transparent_keeps
    | with_reducible apply Keeps.ite

theorem State.devSend_keeps {s : State} {b : Bytes} (hs : Keeps k0 s) : Keeps k0 (State.devSend s b) := by
  unfold State.devSend
  try (conv => zeta)
  repeat' first
    | with_reducible assumption | with_reducible apply State.forward_keeps | with_reducible apply State.learn_keeps | with_reducible apply Keeps.ite

theorem State.announce_keeps {s : State} (hs : Keeps k0 s) : Keeps k0 (State.announce s) := by
  unfold State.announce
  try (conv => zeta)
  repeat' first
    | with_reducible assumption | with_reducible apply State.devSend_keeps | with_reducible apply Keeps.ite | split

theorem State.rxDrop_keeps {s : State} (hs : Keeps k0 s) : Keeps k0 (State.rxDrop s) := by
  unfold State.rxDrop
  try (conv => zeta)
  repeat' first
    | with_reducible assumption | with_reducible apply State.count_keeps

theorem State.udpIn_keeps {s : State} {stamp src : Nat} {u : Bytes} (hs : Keeps k0 s) : Keeps k0 (State.udpIn s stamp src u) := by
  unfold State.udpIn
  try (conv => zeta)
  repeat' first
    | with_reducible assumption | with_reducible apply State.offer_keeps | with_reducible apply State.rxDrop_keeps
    | with_reducible apply State.setNet_keeps | with_reducible apply Keeps.ite

theorem State.routerAdvert_keeps {k0 s : State} {opts : Bytes} {k : Nat} (hs : Keeps k0 s) : Keeps k0 (s.routerAdvert opts k) := by
  induction k generalizing s opts with
  | zero => exact hs
  | succ n ih =>
    unfold State.routerAdvert
    dsimp only
    split
    · exact hs
    · split
      · exact State.setNet_keeps hs
      · exact ih hs

theorem State.icmp6In_keeps {s : State} {src dst m eth : Bytes} (hs : Keeps k0 s) : Keeps k0 (State.icmp6In s src dst m eth) := by
  unfold State.icmp6In
  try (conv => zeta)
  repeat' first
    | with_reducible assumption | with_reducible apply State.devSend_keeps | with_reducible apply State.routerAdvert_keeps
    | with_reducible apply Keeps.ite | split

theorem State.ip6In_keeps {s : State} {stamp : Nat} {eth : Bytes} (hs : Keeps k0 s) : Keeps k0 (State.ip6In s stamp eth) := by
  unfold State.ip6In
  try (conv => zeta)
  repeat' first
    | with_reducible assumption | with_reducible apply State.icmp6In_keeps | with_reducible apply State.rxDrop_keeps
    | with_reducible apply State.udpIn_keeps | with_reducible apply Keeps.ite | split

theorem State.ip4In_keeps {s : State} {stamp : Nat} {eth : Bytes} (hs : Keeps k0 s) : Keeps k0 (State.ip4In s stamp eth) := by
  unfold State.ip4In
  try (conv => zeta)
  repeat' first
    | with_reducible assumption | with_reducible apply State.rxDrop_keeps | with_reducible apply State.udpIn_keeps | with_reducible apply Keeps.ite

theorem State.deviceIn_keeps {s : State} {stamp : Nat} {b : Bytes} (hs : Keeps k0 s) : Keeps k0 (State.deviceIn s stamp b) := by
  unfold State.deviceIn
  try (conv => zeta)
  repeat' first
    | with_reducible assumption | with_reducible apply State.devSend_keeps | with_reducible apply State.ip4In_keeps
    | with_reducible apply State.ip6In_keeps | with_reducible apply Keeps.ite | split

theorem State.sendPause_keeps {s : State} {quanta : Nat} (hs : Keeps k0 s) : Keeps k0 (State.sendPause s quanta) := by
  unfold State.sendPause
  try (conv => zeta)
  repeat' first
    | with_reducible assumption | (with_reducible apply Keeps.foldl) <;> (try (intro x a hx; try beta_reduce; try (conv => zeta)))
    | with_reducible apply State.count_keeps | with_reducible apply State.emit_keeps

theorem State.sendBatch_keeps {s : State} {diag : Bool} {first count session : Nat} {body : Bytes} (hs : Keeps k0 s) : Keeps k0 (State.sendBatch s
    diag first count session body) := by
  unfold State.sendBatch
  try (conv => zeta)
  repeat' first
    | with_reducible assumption | with_reducible apply State.sendDgram_keeps | with_reducible apply State.u2hNext_keeps

theorem State.setRegs_keeps {s : State} {l : List (Nat × Nat)} (hs : Keeps k0 s) : Keeps k0 (State.setRegs s l) := by
  unfold State.setRegs
  try (conv => zeta)
  repeat' first
    | with_reducible assumption | (with_reducible apply Keeps.foldl) <;> (try (intro x a hx; try beta_reduce; try (conv => zeta)))
    | with_reducible apply State.setReg_keeps

theorem State.cfgWarn_keeps {s : State} {ty : Nat} (hs : Keeps k0 s) : Keeps k0 (State.cfgWarn s ty) := by
  unfold State.cfgWarn
  try (conv => zeta)
  repeat' first
    | with_reducible assumption | with_reducible apply State.event_keeps

theorem State.loadSys_keeps {s : State} {b : Bytes} (hs : Keeps k0 s) : Keeps k0 (State.loadSys s b) := by
  unfold State.loadSys
  try (conv => zeta)
  repeat' first
    | with_reducible assumption | fail_if_no_progress (with_reducible apply Keeps.upd) | with_reducible apply State.setFld_keeps
    | with_reducible apply State.setRegs_keeps | with_reducible apply Keeps.ite

theorem State.loadRings_keeps {k0 s : State} {g : List (Nat × Nat)} {on : Nat → Bool} (hs : Keeps k0 s) :
    Keeps k0 (s.loadRings g on) := by
  refine ⟨hs.queue, hs.time, hs.sent, fun i => ⟨(hs.inv i).1, (hs.inv i).2.1, (hs.inv i).2.2.1, ?_⟩⟩
  show (List.map _ (List.range 16)).length = 16
  rw [List.length_map, List.length_range]

theorem State.loadErg_keeps {s : State} {b : Bytes} (hs : Keeps k0 s) : Keeps k0 (State.loadErg s b) := by
  unfold State.loadErg
  try (conv => zeta)
  repeat' first
    | with_reducible assumption | with_reducible apply State.setRegs_keeps

theorem State.loadTariff_keeps {s : State} {b : Bytes} (hs : Keeps k0 s) : Keeps k0 (State.loadTariff s b) := by
  unfold State.loadTariff
  try (conv => zeta)
  repeat' first
    | with_reducible assumption | fail_if_no_progress (with_reducible apply Keeps.upd) | with_reducible apply State.setRegs_keeps

theorem State.loadMeter_keeps {s : State} {b : Bytes} (hs : Keeps k0 s) : Keeps k0 (State.loadMeter s b) := by
  unfold State.loadMeter
  try (conv => zeta)
  repeat' first
    | with_reducible assumption | (with_reducible apply Keeps.foldl) <;> (try (intro x a hx; try beta_reduce; try (conv => zeta)))
    | with_reducible apply State.setRegs_keeps

theorem State.loadRadio_keeps {s : State} {b : Bytes} (hs : Keeps k0 s) : Keeps k0 (State.loadRadio s b) := by
  unfold State.loadRadio
  try (conv => zeta)
  repeat' first
    | with_reducible assumption | fail_if_no_progress (with_reducible apply Keeps.upd)
    | (with_reducible apply Keeps.foldl) <;> (try (intro x a hx; try beta_reduce; try (conv => zeta))) | with_reducible apply State.setReg_keeps
    | with_reducible apply State.setRegs_keeps

theorem State.loadPlc_keeps {s : State} {b : Bytes} (hs : Keeps k0 s) : Keeps k0 (State.loadPlc s b) := by
  unfold State.loadPlc
  try (conv => zeta)
  repeat' first
    | with_reducible assumption | with_reducible apply State.setRegs_keeps

theorem State.loadNet_keeps {s : State} {b : Bytes} (hs : Keeps k0 s) : Keeps k0 (State.loadNet s b) := by
  unfold State.loadNet
  try (conv => zeta)
  repeat' first
    | with_reducible assumption | fail_if_no_progress (with_reducible apply Keeps.upd) | with_reducible apply State.setRegs_keeps

theorem State.loadTime_keeps {s : State} {b : Bytes} (hs : Keeps k0 s) : Keeps k0 (State.loadTime s b) := by
  unfold State.loadTime
  try (conv => zeta)
  repeat' first
    | with_reducible assumption | fail_if_no_progress (with_reducible apply Keeps.upd) | with_reducible apply State.setReg_keeps
    | with_reducible apply State.setRegs_keeps | with_reducible apply Keeps.ite

theorem State.defaultTime_keeps {s : State} (hs : Keeps k0 s) : Keeps k0 (State.defaultTime s) := by
  unfold State.defaultTime
  try (conv => zeta)
  repeat' first
    | with_reducible assumption | fail_if_no_progress (with_reducible apply Keeps.upd) | with_reducible apply State.setReg_keeps
    | with_reducible apply State.setRegs_keeps | with_reducible apply Keeps.ite

theorem State.loadOut_keeps {s : State} {b : Bytes} (hs : Keeps k0 s) : Keeps k0 (State.loadOut s b) := by
  unfold State.loadOut
  try (conv => zeta)
  repeat' first
    | with_reducible assumption | (with_reducible apply Keeps.foldl) <;> (try (intro x a hx; try beta_reduce; try (conv => zeta)))
    | with_reducible apply State.setReg_keeps | with_reducible apply State.setRegs_keeps | with_reducible apply Keeps.ite

theorem State.loadMedia_keeps {s : State} {b : Bytes} (hs : Keeps k0 s) : Keeps k0 (State.loadMedia s b) := by
  unfold State.loadMedia
  try (conv => zeta)
  repeat' first
    | with_reducible assumption | fail_if_no_progress (with_reducible apply Keeps.upd) | with_reducible apply State.setReg_keeps

theorem State.loadSeif_keeps {s : State} {b : Bytes} (hs : Keeps k0 s) : Keeps k0 (State.loadSeif s b) := by
  unfold State.loadSeif
  try (conv => zeta)
  repeat' first
    | with_reducible assumption | with_reducible apply State.setRegs_keeps

theorem State.loadSec_keeps {s : State} {b : Bytes} (hs : Keeps k0 s) : Keeps k0 (State.loadSec s b) := by
  unfold State.loadSec
  try (conv => zeta)
  repeat' first
    | with_reducible assumption | fail_if_no_progress (with_reducible apply Keeps.upd) | with_reducible apply State.setReg_keeps
    | with_reducible apply State.setRegs_keeps | with_reducible apply Keeps.ite

theorem State.applyRings_keeps {s : State} {b : Option Bytes} {on : Bool} (hs : Keeps k0 s) : Keeps k0 (State.applyRings s b on) := by
  unfold State.applyRings
  try (conv => zeta)
  repeat' first
    | with_reducible assumption | with_reducible apply State.cfgWarn_keeps | with_reducible apply State.loadRings_keeps
    | with_reducible apply Keeps.ite | split

theorem State.applyOne_keeps {s : State} {ok : Bool} {ty : Nat} {f : State → State} (hs : Keeps k0 s) (hf : ∀ x, Keeps k0 x → Keeps k0 (f x)) :
    Keeps k0 (State.applyOne s ok ty f) := by
  unfold State.applyOne
  try (conv => zeta)
  repeat' first
    | with_reducible assumption | apply hf | with_reducible apply State.cfgWarn_keeps | with_reducible apply State.setBoot_keeps
    | with_reducible apply Keeps.ite

theorem State.applyField_keeps {s : State} {ok : Bool} {ty : Nat} {f : State → State} (hs : Keeps k0 s) (hf : ∀ x, Keeps k0 x → Keeps k0 (f x)) :
    Keeps k0 (State.applyField s ok ty f) := by
  unfold State.applyField
  try (conv => zeta)
  repeat' first
    | with_reducible assumption | with_reducible apply State.applyOne_keeps | with_reducible apply State.cfgWarn_keeps
    | with_reducible apply Keeps.ite

theorem State.applySection_keeps {s : State} {x : Nat × Bytes} (hs : Keeps k0 s) : Keeps k0 (State.applySection s x) := by
  unfold State.applySection
  try (conv => zeta)
  repeat' first
    | with_reducible assumption | (intro x; try beta_reduce; try (conv => zeta)) | fail_if_no_progress (with_reducible apply Keeps.upd)
    | with_reducible apply State.applyField_keeps | with_reducible apply State.applyOne_keeps | with_reducible apply State.cfgWarn_keeps
    | with_reducible apply State.irq_keeps | with_reducible apply State.loadErg_keeps | with_reducible apply State.loadMedia_keeps
    | with_reducible apply State.loadMeter_keeps | with_reducible apply State.loadNet_keeps | with_reducible apply State.loadOut_keeps
    | with_reducible apply State.loadPlc_keeps | with_reducible apply State.loadRadio_keeps | with_reducible apply State.loadSec_keeps
    | with_reducible apply State.loadSeif_keeps | with_reducible apply State.loadTariff_keeps | with_reducible apply State.loadTime_keeps
    | with_reducible apply Keeps.ite | split

theorem State.applyImage_keeps {s : State} {img : Bytes} {hold : Bool} (hs : Keeps k0 s) : Keeps k0 (State.applyImage s img hold) := by
  unfold State.applyImage
  try (conv => zeta)
  repeat' first
    | with_reducible assumption | (intro x; try beta_reduce; try (conv => zeta)) | fail_if_no_progress (with_reducible apply Keeps.upd)
    | (with_reducible apply Keeps.foldl) <;> (try (intro x a hx; try beta_reduce; try (conv => zeta))) | with_reducible apply State.applyOne_keeps
    | with_reducible apply State.applyRings_keeps | with_reducible apply State.applySection_keeps | with_reducible apply State.cfgWarn_keeps
    | with_reducible apply State.defaultTime_keeps | with_reducible apply State.loadSys_keeps | with_reducible apply Keeps.ite | split

theorem State.lkOf_keeps {k0 s a : State} {r : RegDef} (hs : Keeps k0 s) : Keeps k0 (s.lkOf a r) := by
  unfold State.lkOf
  split
  · exact hs
  · exact Keeps.foldl hs fun x i hx => State.setReg_keeps hx

theorem State.settingsOf_keeps {k0 s a : State} (hs : Keeps k0 s) : Keeps k0 (s.settingsOf a) :=
  Keeps.foldl (Keeps.upd hs) fun x i hx => State.lkOf_keeps hx



theorem State.underStart_keeps {s : State} {e : Entry} (hs : Keeps k0 s) : Keeps k0 (State.underStart s e) := by
  unfold State.underStart
  try (conv => zeta)
  repeat' first
    | with_reducible assumption | with_reducible apply State.settingsOf_keeps | with_reducible apply Keeps.ite | split

theorem execBridgeFrame_keeps {dt : Nat} {port : Fin 2} {fcsOk : Bool} {frame : Bytes} {s0 : State} (hs0 : Keeps k0 s0) : KeepsO k0
    (execBridgeFrame dt port fcsOk frame s0) := by
  unfold execBridgeFrame
  try (conv => zeta)
  repeat' first
    | with_reducible assumption | with_reducible apply KeepsO.next | with_reducible apply State.advance_keeps
    | with_reducible apply State.count_keeps | with_reducible apply State.forward_keeps | with_reducible apply State.learn_keeps
    | with_reducible apply Keeps.ite | with_reducible apply KeepsO.ite

theorem execPortLinkChange_keeps {dt : Nat} {port : Fin 2} {up0 slow : Bool} {s0 : State} (hs0 : Keeps k0 s0) : KeepsO k0 (execPortLinkChange dt
    port up0 slow s0) := by
  unfold execPortLinkChange
  try (conv => zeta)
  repeat' first
    | with_reducible assumption | with_reducible apply KeepsO.next | with_reducible apply State.advance_keeps | with_reducible apply State.irq_keeps
    | with_reducible apply State.setPort_keeps | with_reducible apply Keeps.ite

theorem execDevicePortReceive_keeps {s : State} (hs : Keeps k0 s) : KeepsO k0 (execDevicePortReceive s) := by
  unfold execDevicePortReceive
  try (conv => zeta)
  repeat' first
    | with_reducible assumption | with_reducible apply KeepsO.next | with_reducible apply State.deviceIn_keeps
    | with_reducible apply State.setNet_keeps | split

theorem execHeadBackSend_keeps {s : State} (hs : Keeps k0 s) : KeepsO k0 (execHeadBackSend s) := by
  unfold execHeadBackSend
  try (conv => zeta)
  repeat' first
    | with_reducible assumption | with_reducible apply KeepsO.next | with_reducible apply State.sendDgram_keeps
    | with_reducible apply State.setNet_keeps | with_reducible apply KeepsO.ite | split

theorem execBatchSend_keeps {diag : Bool} {n : Nat} {s : State} (hs : Keeps k0 s) : KeepsO k0 (execBatchSend diag n s) := by
  unfold execBatchSend
  try (conv => zeta)
  repeat' first
    | with_reducible assumption | with_reducible apply KeepsO.next | with_reducible apply State.count_keeps
    | with_reducible apply State.sendBatch_keeps | with_reducible apply State.setNet_keeps | with_reducible apply Keeps.ite
    | with_reducible apply KeepsO.ite

theorem execBatchRto_keeps {diag : Bool} {s : State} (hs : Keeps k0 s) : KeepsO k0 (execBatchRto diag s) := by
  unfold execBatchRto
  try (conv => zeta)
  repeat' first
    | with_reducible assumption | with_reducible apply KeepsO.next | with_reducible apply State.setNet_keeps | with_reducible apply State.until_keeps
    | with_reducible apply KeepsO.ite

theorem execPauseSend_keeps {s : State} (hs : Keeps k0 s) : KeepsO k0 (execPauseSend s) := by
  unfold execPauseSend
  try (conv => zeta)
  repeat' first
    | with_reducible assumption | with_reducible apply KeepsO.next | with_reducible apply State.irq_keeps
    | with_reducible apply State.sendPause_keeps | with_reducible apply State.setNet_keeps | with_reducible apply State.until_keeps
    | with_reducible apply Keeps.ite | with_reducible apply KeepsO.ite

theorem execPauseReceive_keeps {dt : Nat} {port : Fin 2} {quanta : Fin 65536} {s0 : State} (hs0 : Keeps k0 s0) : KeepsO k0 (execPauseReceive dt
    port quanta s0) := by
  unfold execPauseReceive
  try (conv => zeta)
  repeat' first
    | with_reducible assumption | with_reducible apply KeepsO.next | with_reducible apply State.advance_keeps
    | with_reducible apply State.resume_keeps | with_reducible apply State.setPort_keeps | with_reducible apply KeepsO.ite

theorem execPauseExpiry_keeps {port : Fin 2} {s : State} (hs : Keeps k0 s) : KeepsO k0 (execPauseExpiry port s) := by
  unfold execPauseExpiry
  try (conv => zeta)
  repeat' first
    | with_reducible assumption | with_reducible apply KeepsO.next | with_reducible apply State.resume_keeps | with_reducible apply State.until_keeps
    | with_reducible apply KeepsO.ite | split

theorem State.mdioWrite_keeps {s : State} {v : Word} (hs : Keeps k0 s) : Keeps k0 (State.mdioWrite s v) := by
  unfold State.mdioWrite
  try (conv => zeta)
  repeat' first
    | with_reducible assumption | with_reducible apply State.setNet_keeps | with_reducible apply State.setReg_keeps | with_reducible apply Keeps.ite

theorem execMdioGo_keeps {w : Who} {v : Word} {s : State} (hs : Keeps k0 s) : KeepsO k0 (execMdioGo w v s) := by
  unfold execMdioGo
  try (conv => zeta)
  repeat' first
    | with_reducible assumption | with_reducible apply KeepsO.next | with_reducible apply State.answer_keeps
    | with_reducible apply State.busErr_keeps | with_reducible apply State.mdioWrite_keeps | with_reducible apply KeepsO.ite

theorem execMdioFrameDone_keeps {dt : Nat} {data : Fin 65536} {s0 : State} (hs0 : Keeps k0 s0) : KeepsO k0 (execMdioFrameDone dt data s0) := by
  unfold execMdioFrameDone
  try (conv => zeta)
  repeat' first
    | with_reducible assumption | with_reducible apply KeepsO.next | with_reducible apply State.advance_keeps
    | with_reducible apply State.setBit_keeps | with_reducible apply State.setFld_keeps | with_reducible apply State.setNet_keeps
    | with_reducible apply Keeps.ite | split

theorem execDuplicateAddressDetection_keeps {ok : Bool} {s : State} (hs : Keeps k0 s) : KeepsO k0 (execDuplicateAddressDetection ok s) := by
  unfold execDuplicateAddressDetection
  try (conv => zeta)
  repeat' first
    | with_reducible assumption | with_reducible apply KeepsO.next | with_reducible apply State.irq_keeps | with_reducible apply State.setNet_keeps
    | with_reducible apply KeepsO.ite

theorem execBridgeAgeing_keeps {s : State} (hs : Keeps k0 s) : KeepsO k0 (execBridgeAgeing s) := by
  unfold execBridgeAgeing
  try (conv => zeta)
  repeat' first
    | with_reducible assumption | with_reducible apply KeepsO.next | with_reducible apply State.setNet_keeps | with_reducible apply State.until_keeps
    | split

theorem execFwBlockPump_keeps {plc : Bool} {s : State} (hs : Keeps k0 s) : KeepsO k0 (execFwBlockPump plc s) := by
  unfold execFwBlockPump
  try (conv => zeta)
  repeat' first
    | with_reducible assumption | with_reducible apply KeepsO.next | fail_if_no_progress (with_reducible apply Keeps.upd)
    | with_reducible apply State.ringPacket_keeps | with_reducible apply KeepsO.ite | split

theorem State.cardFw_keeps {s : State} {c : Option Card} (hs : Keeps k0 s) : KeepsP k0 (State.cardFw s c) := by
  unfold State.cardFw
  try (conv => zeta)
  repeat' first
    | with_reducible assumption | with_reducible exact KeepsP.none _ | with_reducible apply KeepsP.some | with_reducible apply State.installFw_keeps
    | with_reducible apply State.setBoot_keeps | split

theorem State.cardFw_keeps_eq {s : State} {c : Option Card} {y0 : State} (hs : Keeps k0 s) (heq0 : State.cardFw s c = some y0) : Keeps k0 y0 :=
  (State.cardFw_keeps (k0 := k0) (s := s) (c := c) hs).some_keeps _ heq0

theorem State.cardCfg_keeps {s : State} {c : Option Card} (hs : Keeps k0 s) : KeepsP k0 (State.cardCfg s c) := by
  unfold State.cardCfg
  try (conv => zeta)
  repeat' first
    | with_reducible assumption | with_reducible exact KeepsP.none _ | with_reducible apply KeepsP.some | with_reducible apply State.setNor_keeps
    | split

theorem State.cardCfg_keeps_eq {s : State} {c : Option Card} {y0 : State} (hs : Keeps k0 s) (heq0 : State.cardCfg s c = some y0) : Keeps k0 y0 :=
  (State.cardCfg_keeps (k0 := k0) (s := s) (c := c) hs).some_keeps _ heq0

theorem State.deliverCard_keeps {k0 s : State} (hs : Keeps k0 s) : KeepsP k0 s.deliverCard := by
  unfold State.deliverCard
  extract_lets c reset
  have hr : ∀ x, Keeps k0 x → Keeps k0 (reset x) := fun x hx => State.mainReset_keeps (State.free_keeps hx)
  clear_value reset
  split
  · rename_i a ha
    have h1 := State.cardFw_keeps_eq hs ha
    exact KeepsP.some (hr _ (Keeps.getD (State.cardCfg_keeps h1) h1))
  · refine ⟨fun t ht => ?_⟩
    cases hc : s.cardCfg c with
    | none => rw [hc] at ht; cases ht
    | some x => rw [hc] at ht; cases ht; exact hr x (State.cardCfg_keeps_eq hs hc)
theorem State.deliverCard_keeps_eq {k0 s y : State} (hs : Keeps k0 s) (h : s.deliverCard = some y) : Keeps k0 y :=
  (State.deliverCard_keeps hs).some_keeps _ h

theorem State.enterRecovery_keeps {s : State} {cause : Nat} (hs : Keeps k0 s) : Keeps k0 (State.enterRecovery s cause) := by
  unfold State.enterRecovery
  try (conv => zeta)
  repeat' first
    | with_reducible assumption | with_reducible apply State.deliverCard_keeps | with_reducible apply State.mainReset_keeps
    | with_reducible apply State.setBit_keeps | with_reducible apply State.setBoot_keeps | with_reducible apply Keeps.getD

theorem State.sendEnum_keeps {s : State} (hs : Keeps k0 s) : Keeps k0 (State.sendEnum s) := by
  unfold State.sendEnum
  try (conv => zeta)
  repeat' first
    | with_reducible assumption | with_reducible apply State.linkPut_keeps | with_reducible apply State.setSef_keeps | split

theorem State.collision_keeps {s : State} {link pos : Nat} (hs : Keeps k0 s) : Keeps k0 (State.collision s link pos) := by
  unfold State.collision
  try (conv => zeta)
  repeat' first
    | with_reducible assumption | with_reducible apply State.event_keeps | with_reducible apply State.irq_keeps
    | with_reducible apply State.setLink_keeps

theorem State.takePos_keeps {s : State} {p : Nat} {head : Bool} (hs : Keeps k0 s) : Keeps k0 (State.takePos s p head) := by
  unfold State.takePos
  try (conv => zeta)
  repeat' first
    | with_reducible assumption | fail_if_no_progress (with_reducible apply Keeps.upd) | with_reducible apply State.enterRecovery_keeps
    | with_reducible apply State.event_keeps | with_reducible apply State.irq_keeps | with_reducible apply State.sendEnum_keeps
    | with_reducible apply State.setSef_keeps | with_reducible apply Keeps.ite

theorem execEnumSample_keeps {dt : Nat} {level : Fin 3} {s : State} (hs : Keeps k0 s) : KeepsO k0 (execEnumSample dt level s) := by
  unfold execEnumSample
  try (conv => zeta)
  repeat' first
    | with_reducible assumption | with_reducible apply KeepsO.next | with_reducible apply State.advance_keeps
    | with_reducible apply State.collision_keeps | with_reducible apply State.setSef_keeps | with_reducible apply State.takePos_keeps
    | with_reducible apply Keeps.ite | with_reducible apply KeepsO.ite | split

theorem State.takeFrame_keeps_eq {k0 s : State} {ty : Nat} {x : Nat × Bytes} {z : State} (hs : Keeps k0 s)
    (heq0 : s.takeFrame ty = some (x, z)) : Keeps k0 z := by
  unfold State.takeFrame at heq0
  split at heq0
  · cases heq0; exact Keeps.upd hs
  · cases heq0

theorem execEnum_keeps {s : State} (hs : Keeps k0 s) : KeepsO k0 (execEnum s) := by
  unfold execEnum
  try (conv => zeta)
  repeat' first
    | with_reducible assumption | with_reducible apply KeepsO.next | with_reducible apply State.collision_keeps
    | with_reducible apply State.setSef_keeps | with_reducible refine State.takeFrame_keeps_eq ?_ (by assumption)
    | with_reducible apply State.takePos_keeps | with_reducible apply Keeps.ite | with_reducible apply KeepsO.ite | split

theorem execEnumResend_keeps {s : State} (hs : Keeps k0 s) : KeepsO k0 (execEnumResend s) := by
  unfold execEnumResend
  try (conv => zeta)
  repeat' first
    | with_reducible assumption | with_reducible apply KeepsO.next | with_reducible apply State.sendEnum_keeps
    | with_reducible apply State.until_keeps | with_reducible apply KeepsO.ite

theorem execLinkTrained_keeps {dt : Nat} {link : Fin 2} {s : State} (hs : Keeps k0 s) : KeepsO k0 (execLinkTrained dt link s) := by
  unfold execLinkTrained
  try (conv => zeta)
  repeat' first
    | with_reducible assumption | with_reducible apply KeepsO.next | with_reducible apply State.advance_keeps | with_reducible apply State.irq_keeps
    | with_reducible apply State.sendEnum_keeps | with_reducible apply State.setLink_keeps | with_reducible apply Keeps.ite
    | with_reducible apply KeepsO.ite

theorem State.linkTake_keeps {s : State} {link : Nat} {f : Bytes} (hs : Keeps k0 s) : Keeps k0 (State.linkTake s link f) := by
  unfold State.linkTake
  try (conv => zeta)
  repeat' first
    | with_reducible assumption | with_reducible apply State.collision_keeps | with_reducible apply State.linkPut_keeps
    | with_reducible apply State.offer_keeps | with_reducible apply State.setSef_keeps | with_reducible apply Keeps.ite

theorem execLinkFrameReceive_keeps {dt : Nat} {link : Fin 2} {frame : Bytes} {s : State} (hs : Keeps k0 s) : KeepsO k0 (execLinkFrameReceive dt
    link frame s) := by
  unfold execLinkFrameReceive
  try (conv => zeta)
  repeat' first
    | with_reducible assumption | with_reducible apply KeepsO.next | with_reducible apply State.advance_keeps
    | with_reducible apply State.count_keeps | with_reducible apply State.emit_keeps | with_reducible apply State.linkTake_keeps
    | with_reducible apply State.setLink_keeps | with_reducible apply KeepsO.ite

theorem State.linkAcked_keeps {s : State} {n lseq : Nat} (hs : Keeps k0 s) : Keeps k0 (State.linkAcked s n lseq) := by
  unfold State.linkAcked
  try (conv => zeta)
  repeat' first
    | with_reducible assumption | with_reducible apply State.linkPump_keeps | with_reducible apply State.setLink_keeps | split

theorem State.linkResend_keeps {s : State} {n : Nat} (hs : Keeps k0 s) : Keeps k0 (State.linkResend s n) := by
  unfold State.linkResend
  try (conv => zeta)
  repeat' first
    | with_reducible assumption | (with_reducible apply Keeps.foldl) <;> (try (intro x a hx; try beta_reduce; try (conv => zeta)))
    | with_reducible apply State.count_keeps | with_reducible apply State.emit_keeps | with_reducible apply State.event_keeps
    | with_reducible apply State.irq_keeps | with_reducible apply State.setLink_keeps | with_reducible apply Keeps.ite

theorem execLinkAck_keeps {dt : Nat} {link : Fin 2} {nack : Bool} {lseq : Fin 65536} {s : State} (hs : Keeps k0 s) : KeepsO k0 (execLinkAck dt link
    nack lseq s) := by
  unfold execLinkAck
  try (conv => zeta)
  repeat' first
    | with_reducible assumption | with_reducible apply KeepsO.next | with_reducible apply State.advance_keeps
    | with_reducible apply State.linkAcked_keeps | with_reducible apply State.linkResend_keeps | with_reducible apply Keeps.ite
    | with_reducible apply KeepsO.ite

theorem execLinkRetxTimeout_keeps {link : Fin 2} {s : State} (hs : Keeps k0 s) : KeepsO k0 (execLinkRetxTimeout link s) := by
  unfold execLinkRetxTimeout
  try (conv => zeta)
  repeat' first
    | with_reducible assumption | with_reducible apply KeepsO.next | with_reducible apply State.linkResend_keeps
    | with_reducible apply State.until_keeps | with_reducible apply KeepsO.ite

theorem execRadioFrameReceive_keeps {dt : Nat} {chan : Fin 8} {rssi : Int} {modeSw fcs4 dw : Bool} {psdu : Bytes} {s : State} (hs : Keeps k0 s) :
    KeepsO k0 (execRadioFrameReceive dt chan rssi modeSw fcs4 dw psdu s) := by
  unfold execRadioFrameReceive
  try (conv => zeta)
  repeat' first
    | with_reducible assumption | with_reducible apply KeepsO.next | with_reducible apply State.advance_keeps
    | with_reducible apply State.count_keeps | with_reducible apply State.radCheck_keeps | with_reducible apply KeepsO.ite | split

theorem State.ackLost_keeps {s : State} {a : PendAck} (hs : Keeps k0 s) : Keeps k0 (State.ackLost s a) := by
  unfold State.ackLost
  try (conv => zeta)
  repeat' first
    | with_reducible assumption | with_reducible apply State.xchEnd_keeps | with_reducible apply Keeps.ite | split

theorem execRadioAckSend_keeps {s : State} (hs : Keeps k0 s) : KeepsO k0 (execRadioAckSend s) := by
  unfold execRadioAckSend
  try (conv => zeta)
  repeat' first
    | with_reducible assumption | with_reducible apply KeepsO.next | with_reducible apply State.ackLost_keeps
    | with_reducible apply State.count_keeps | with_reducible apply State.irq_keeps | with_reducible apply State.payTrain_keeps
    | with_reducible apply State.radSendAt_keeps | with_reducible apply State.retrain_keeps | with_reducible apply State.setPoll_keeps
    | with_reducible apply State.setRad_keeps | with_reducible apply State.until_keeps | with_reducible apply State.xchDone_keeps
    | with_reducible apply Keeps.ite | with_reducible apply KeepsO.ite | split

theorem execWakeTrainStart_keeps {i : Fin 131072} {s : State} (hs : Keeps k0 s) : KeepsO k0 (execWakeTrainStart i s) := by
  unfold execWakeTrainStart
  try (conv => zeta)
  repeat' first
    | with_reducible assumption | with_reducible apply KeepsO.next | with_reducible apply State.charge_keeps | with_reducible apply State.defer_keeps
    | with_reducible apply State.emit_keeps | with_reducible apply State.setRad_keeps | with_reducible apply State.untilDev_keeps
    | with_reducible apply KeepsO.ite | split

theorem execFullTrainStart_keeps {s : State} (hs : Keeps k0 s) : KeepsO k0 (execFullTrainStart s) := by
  unfold execFullTrainStart
  try (conv => zeta)
  repeat' first
    | with_reducible assumption | with_reducible apply KeepsO.next | with_reducible apply State.count_keeps | with_reducible apply State.irq_keeps
    | with_reducible apply State.retrain_keeps | with_reducible apply State.setRad_keeps | with_reducible apply KeepsO.ite | split

theorem State.sendPoll_keeps {s : State} {x : Exchange} {ch air : Nat} (hs : Keeps k0 s) : Keeps k0 (State.sendPoll s x ch air) := by
  unfold State.sendPoll
  try (conv => zeta)
  repeat' first
    | with_reducible assumption | with_reducible apply State.radSendAt_keeps | with_reducible apply State.setRad_keeps

theorem execPollSend_keeps {s : State} (hs : Keeps k0 s) : KeepsO k0 (execPollSend s) := by
  unfold execPollSend
  try (conv => zeta)
  repeat' first
    | with_reducible assumption | with_reducible apply KeepsO.next | with_reducible apply State.defer_keeps | with_reducible apply State.emit_keeps
    | with_reducible apply State.noteTx_keeps | with_reducible apply State.payTrain_keeps | with_reducible apply State.sendPoll_keeps
    | with_reducible apply State.setPoll_keeps | with_reducible apply State.setRad_keeps | with_reducible apply State.until_keeps
    | with_reducible apply Keeps.ite | with_reducible apply KeepsO.ite | split

theorem execExchangeTimeout_keeps {s : State} (hs : Keeps k0 s) : KeepsO k0 (execExchangeTimeout s) := by
  unfold execExchangeTimeout
  try (conv => zeta)
  repeat' first
    | with_reducible assumption | with_reducible apply KeepsO.next | with_reducible apply State.until_keeps
    | with_reducible apply State.xchDone_keeps | with_reducible apply State.xchEnd_keeps | with_reducible apply State.xchMiss_keeps
    | with_reducible apply Keeps.ite | split

theorem execRadioDownSend_keeps {s : State} (hs : Keeps k0 s) : KeepsO k0 (execRadioDownSend s) := by
  unfold execRadioDownSend
  try (conv => zeta)
  repeat' first
    | with_reducible assumption | with_reducible apply KeepsO.next | with_reducible apply State.radSend_keeps
    | with_reducible apply State.setRad_keeps | with_reducible apply State.until_keeps | with_reducible apply State.xchDone_keeps
    | with_reducible apply KeepsO.ite | split

theorem execRadioDownNoack_keeps {s : State} (hs : Keeps k0 s) : KeepsO k0 (execRadioDownNoack s) := by
  unfold execRadioDownNoack
  try (conv => zeta)
  repeat' first
    | with_reducible assumption | with_reducible apply KeepsO.next | with_reducible apply State.notice_keeps | with_reducible apply State.until_keeps
    | with_reducible apply State.xchDone_keeps | with_reducible apply KeepsO.ite | split

theorem execRadioDownExpired_keeps {s : State} (hs : Keeps k0 s) : KeepsO k0 (execRadioDownExpired s) := by
  unfold execRadioDownExpired
  try (conv => zeta)
  repeat' first
    | with_reducible assumption | with_reducible apply KeepsO.next | with_reducible apply State.notice_keeps
    | with_reducible apply State.setRad_keeps | with_reducible apply State.until_keeps | split

theorem State.radPacket_keeps {s : State} {ty : Nat} (hs : Keeps k0 s) : Keeps k0 (State.radPacket s ty).2 := by
  unfold State.radPacket
  try (conv => zeta)
  repeat' first
    | with_reducible assumption | with_reducible apply State.count_keeps | with_reducible apply State.ringTake_keeps
    | with_reducible apply Keeps.iteSnd | split

theorem State.radPacket_keeps_eq {s : State} {ty : Nat} {y0 : Option (List Word)} {y1 : State} (hs : Keeps k0 s) (heq0 : State.radPacket s ty =
    (y0, y1)) : Keeps k0 y1 := by
  have hh := State.radPacket_keeps (k0 := k0) (s := s) (ty := ty) hs
  rw [heq0] at hh; exact hh

theorem execRadTxDown_keeps {s : State} (hs : Keeps k0 s) : KeepsO k0 (execRadTxDown s) := by
  unfold execRadTxDown
  try (conv => zeta)
  repeat' first
    | with_reducible assumption | with_reducible apply KeepsO.next | with_reducible apply State.irq_keeps
    | with_reducible refine State.radPacket_keeps_eq ?_ (by assumption) | with_reducible apply State.ringTake_keeps
    | with_reducible apply State.setRad_keeps | with_reducible apply Keeps.ite | with_reducible apply KeepsO.ite | split

theorem execRadTxCaravan_keeps {s : State} (hs : Keeps k0 s) : KeepsO k0 (execRadTxCaravan s) := by
  unfold execRadTxCaravan
  try (conv => zeta)
  repeat' first
    | with_reducible assumption | with_reducible apply KeepsO.next | with_reducible refine State.radPacket_keeps_eq ?_ (by assumption)
    | with_reducible apply State.radSend_keeps | with_reducible apply State.ringTake_keeps | with_reducible apply State.setRad_keeps
    | with_reducible apply KeepsO.ite | split

theorem execRadTxPollNow_keeps {s : State} (hs : Keeps k0 s) : KeepsO k0 (execRadTxPollNow s) := by
  unfold execRadTxPollNow
  try (conv => zeta)
  repeat' first
    | with_reducible assumption | with_reducible apply KeepsO.next | with_reducible refine State.radPacket_keeps_eq ?_ (by assumption)
    | with_reducible apply State.ringTake_keeps | with_reducible apply State.setPoll_keeps | split

theorem execCaravanCacheExpiry_keeps {plc : Bool} {s : State} (hs : Keeps k0 s) : KeepsO k0 (execCaravanCacheExpiry plc s) := by
  unfold execCaravanCacheExpiry
  try (conv => zeta)
  repeat' first
    | with_reducible assumption | with_reducible apply KeepsO.next | fail_if_no_progress (with_reducible apply Keeps.upd)
    | with_reducible apply State.until_keeps | with_reducible apply KeepsO.ite | split

theorem State.setSec_keeps {s : State} {f : Sec → Sec} (hs : Keeps k0 s) : Keeps k0 (State.setSec s f) := by
  unfold State.setSec
  try (conv => zeta)
  repeat' first
    | with_reducible assumption | fail_if_no_progress (with_reducible apply Keeps.upd)

theorem State.gcmCounter_keeps {s : State} {r : CphReq} (hs : Keeps k0 s) : Keeps k0 (State.gcmCounter s r).2 := by
  unfold State.gcmCounter
  try (conv => zeta)
  repeat' first
    | with_reducible assumption | with_reducible apply State.free_keeps | with_reducible apply Keeps.iteSnd

theorem State.gcmUsed_keeps {s : State} {r : CphReq} {c : Nat} (hs : Keeps k0 s) : Keeps k0 (State.gcmUsed s r c) := by
  unfold State.gcmUsed
  try (conv => zeta)
  repeat' first
    | with_reducible assumption | with_reducible apply State.setSec_keeps | with_reducible apply Keeps.ite

theorem State.gcmExhausted_keeps {s : State} {r : CphReq} (hs : Keeps k0 s) : Keeps k0 (State.gcmExhausted s r) := by
  unfold State.gcmExhausted
  try (conv => zeta)
  repeat' first
    | with_reducible assumption | with_reducible apply State.setSec_keeps | with_reducible apply Keeps.ite

theorem State.laneResult_keeps {s : State} {r : CphReq} {k : Nat} (hs : Keeps k0 s) : Keeps k0 (State.laneResult s r k).2 := by
  unfold State.laneResult
  try (conv => zeta)
  repeat' first
    | with_reducible assumption | with_reducible apply State.count_keeps | with_reducible apply State.gcmCounter_keeps
    | with_reducible apply State.gcmExhausted_keeps | with_reducible apply State.gcmUsed_keeps | with_reducible apply State.irq_keeps
    | with_reducible apply Keeps.iteSnd | split

theorem State.eccResult_keeps {s : State} {r : CphReq} (hs : Keeps k0 s) : Keeps k0 (State.eccResult s r).2 := by
  unfold State.eccResult
  try (conv => zeta)
  repeat' first
    | with_reducible assumption | with_reducible apply State.count_keeps | with_reducible apply State.irq_keeps | with_reducible apply Keeps.iteSnd
    | split

theorem State.finishReq_keeps {s : State} {r : CphReq} {unit : Nat} {x : CphRes} (hs : Keeps k0 s) : Keeps k0 (State.finishReq s r unit x) := by
  unfold State.finishReq
  try (conv => zeta)
  repeat' first
    | with_reducible assumption | with_reducible apply State.count_keeps | with_reducible apply State.postResult_keeps
    | with_reducible apply State.putWram_keeps | with_reducible apply Keeps.ite

theorem State.placeLane_keeps {s : State} {r : CphReq} (hs : Keeps k0 s) : Keeps k0 (State.placeLane s r) := by
  unfold State.placeLane
  try (conv => zeta)
  repeat' first
    | with_reducible assumption | with_reducible apply State.count_keeps | with_reducible apply State.setSec_keeps | split

theorem State.placeEcc_keeps {s : State} {r : CphReq} (hs : Keeps k0 s) : Keeps k0 (State.placeEcc s r) := by
  unfold State.placeEcc
  try (conv => zeta)
  repeat' first
    | with_reducible assumption | with_reducible apply State.setSec_keeps | split

theorem State.nextOnLane_keeps {s : State} {k : Nat} (hs : Keeps k0 s) : Keeps k0 (State.nextOnLane s k) := by
  unfold State.nextOnLane
  try (conv => zeta)
  repeat' first
    | with_reducible assumption | with_reducible apply State.setSec_keeps | with_reducible apply Keeps.ite | split

theorem State.nextOnEcc_keeps {s : State} {k : Nat} (hs : Keeps k0 s) : Keeps k0 (State.nextOnEcc s k) := by
  unfold State.nextOnEcc
  try (conv => zeta)
  repeat' first
    | with_reducible assumption | with_reducible apply State.setSec_keeps | split

theorem State.latchAlarm_keeps {s : State} {n : Nat} (hs : Keeps k0 s) : Keeps k0 (State.latchAlarm s n) := by
  unfold State.latchAlarm
  try (conv => zeta)
  repeat' first
    | with_reducible assumption | with_reducible apply State.setBit_keeps | with_reducible apply State.setReg_keeps

theorem State.alarmOnMain_keeps {s : State} {n : Nat} (hs : Keeps k0 s) : Keeps k0 (State.alarmOnMain s n) := by
  unfold State.alarmOnMain
  try (conv => zeta)
  repeat' first
    | with_reducible assumption | with_reducible apply State.abortUpdate_keeps | with_reducible apply State.dropToken_keeps
    | with_reducible apply State.endHold_keeps | with_reducible apply State.eraseKeys_keeps | with_reducible apply State.irq_keeps
    | with_reducible apply State.journalOwn_keeps | with_reducible apply State.khamsinFlush_keeps | with_reducible apply State.latchAlarm_keeps
    | with_reducible apply State.mainReset_keeps | with_reducible apply State.recordEvent_keeps | with_reducible apply Keeps.ite

theorem State.alarmOnVbat_keeps {s : State} {n : Nat} (hs : Keeps k0 s) : Keeps k0 (State.alarmOnVbat s n) := by
  unfold State.alarmOnVbat
  try (conv => zeta)
  repeat' first
    | with_reducible assumption | fail_if_no_progress (with_reducible apply Keeps.upd) | with_reducible apply State.latchAlarm_keeps

theorem State.rearm_keeps {s : State} (hs : Keeps k0 s) : Keeps k0 (State.rearm s) := by
  unfold State.rearm
  try (conv => zeta)
  repeat' first
    | with_reducible assumption | with_reducible apply State.free_keeps | with_reducible apply State.mainReset_keeps
    | with_reducible apply State.setReg_keeps

theorem State.holdCommand_keeps {k0 s x : State} {code : Nat} {sig : Bytes} (hx : Keeps k0 x) :
    Keeps k0 ((s.holdCommand code sig).2.2 x) := by
  unfold State.holdCommand
  dsimp only
  split
  · exact hx
  · split
    · exact hx
    · split
      · exact State.rearm_keeps hx
      · split
        · exact State.transitionWhen_keeps hx
        · exact hx

theorem State.withOpk_keeps {s : State} {k : Bytes} (hs : Keeps k0 s) : Keeps k0 (State.withOpk s k) := by
  unfold State.withOpk
  try (conv => zeta)
  repeat' first
    | with_reducible assumption | fail_if_no_progress (with_reducible apply Keeps.upd)

theorem State.directCommand_keeps {k0 s x : State} {k : Bytes} {code : Nat} {sig : Bytes} (hx : Keeps k0 x) :
    Keeps k0 ((s.directCommand k code sig).2 x) := by
  unfold State.directCommand
  split
  · exact hx
  · split
    · exact hx
    · split
      · split
        · exact State.withOpk_keeps (State.commission_keeps (State.withOpk_keeps hx))
        · exact hx
      · split
        · exact State.transitionWhen_keeps hx
        · exact hx

theorem execMediaJournalWrite_keeps {s : State} (hs : Keeps k0 s) : KeepsO k0 (execMediaJournalWrite s) := by
  unfold execMediaJournalWrite
  try (conv => zeta)
  repeat' first
    | with_reducible assumption | with_reducible apply KeepsO.next | fail_if_no_progress (with_reducible apply Keeps.upd)
    | with_reducible apply State.ringDrain_keeps | with_reducible refine State.ringTake_keeps_eq ?_ (by assumption)
    | with_reducible apply State.setNand_keeps | with_reducible apply State.stageStore_keeps | with_reducible apply KeepsO.ite | split

theorem execJournalFlushTimer_keeps {s : State} (hs : Keeps k0 s) : KeepsO k0 (execJournalFlushTimer s) := by
  unfold execJournalFlushTimer
  try (conv => zeta)
  repeat' first
    | with_reducible assumption | with_reducible apply KeepsO.next | with_reducible apply State.setMed_keeps | with_reducible apply State.until_keeps
    | with_reducible apply KeepsO.ite | split

theorem State.markRecords_keeps {s : State} {l : List (Nat × Nat)} (hs : Keeps k0 s) : Keeps k0 (State.markRecords s l) := by
  unfold State.markRecords
  try (conv => zeta)
  repeat' first
    | with_reducible assumption | fail_if_no_progress (with_reducible apply Keeps.upd)

theorem execUnitVerify_keeps {region : Fin 6} {lua corr : Nat} {s : State} (hs : Keeps k0 s) : KeepsO k0 (execUnitVerify region lua corr s) := by
  unfold execUnitVerify
  try (conv => zeta)
  repeat' first
    | with_reducible assumption | with_reducible apply KeepsO.next | with_reducible apply State.dropDead_keeps
    | with_reducible apply State.markRecords_keeps | with_reducible apply State.setNand_keeps | with_reducible apply State.verifyJournal_keeps
    | with_reducible apply Keeps.ite | with_reducible apply KeepsO.ite | split

theorem State.enterFg_keeps {s : State} (hs : Keeps k0 s) : Keeps k0 (State.enterFg s) := by
  unfold State.enterFg
  try (conv => zeta)
  repeat' first
    | with_reducible assumption | with_reducible apply State.event_keeps | with_reducible apply State.irq_keeps
    | with_reducible apply State.setMed_keeps | with_reducible apply Keeps.ite

theorem State.refresh_keeps {s : State} {u : MUnit} {corr : Nat} (hs : Keeps k0 s) : Keeps k0 (State.refresh s u corr) := by
  unfold State.refresh
  try (conv => zeta)
  repeat' first
    | with_reducible assumption | with_reducible apply State.setNand_keeps | with_reducible apply Keeps.ite

theorem State.loseContent_keeps {s : State} {u : MUnit} (hs : Keeps k0 s) : Keeps k0 (State.loseContent s u) := by
  unfold State.loseContent
  try (conv => zeta)
  repeat' first
    | with_reducible assumption | fail_if_no_progress (with_reducible apply Keeps.upd) | with_reducible apply State.setCtx_keeps
    | with_reducible apply State.setNand_keeps | split

theorem State.unreadable_keeps {s : State} {u : MUnit} {rebuilt : Bool} (hs : Keeps k0 s) : Keeps k0 (State.unreadable s u rebuilt) := by
  unfold State.unreadable
  try (conv => zeta)
  repeat' first
    | with_reducible assumption | with_reducible apply State.event_keeps | with_reducible apply State.irq_keeps
    | with_reducible apply State.loseContent_keeps | with_reducible apply State.setNand_keeps | with_reducible apply Keeps.ite

theorem State.drainQ13_keeps {p0 : Nat} {p1 : State} (hp1 : Keeps k0 p1) : Keeps k0 (State.drainQ13 p0 p1) := by
  induction p0 generalizing p1 with
  | zero =>
    unfold State.drainQ13
    try (conv => zeta)
    repeat' first
      | with_reducible assumption
  | succ n ih =>
    unfold State.drainQ13
    try (conv => zeta)
    repeat' first
      | with_reducible assumption | apply ih | with_reducible apply State.ringDrain_keeps
      | with_reducible refine State.ringTake_keeps_eq ?_ (by assumption) | with_reducible apply Keeps.ite | split

theorem State.readEntries_keeps {s : State} {u : MUnit} (hs : Keeps k0 s) : Keeps k0 (State.readEntries s u) := by
  unfold State.readEntries
  try (conv => zeta)
  repeat' first
    | with_reducible assumption | (with_reducible apply Keeps.foldl) <;> (try (intro x a hx; try beta_reduce; try (conv => zeta)))
    | with_reducible apply State.drainQ13_keeps | with_reducible apply State.ringPacket_keeps

theorem execMediaRead_keeps {region : Fin 6} {lua tried corr : Nat} {rebuilt : Bool} {s0 : State} (hs0 : Keeps k0 s0) : KeepsO k0 (execMediaRead
    region lua tried corr rebuilt s0) := by
  unfold execMediaRead
  try (conv => zeta)
  repeat' first
    | with_reducible assumption | with_reducible apply KeepsO.next | with_reducible apply State.dropDead_keeps
    | with_reducible apply State.readEntries_keeps | with_reducible apply State.refresh_keeps | with_reducible apply State.setMed_keeps
    | with_reducible apply State.setNand_keeps | with_reducible apply State.unreadable_keeps | with_reducible apply Keeps.ite
    | with_reducible apply KeepsO.ite | split

theorem execProgramFail_keeps {sb lun : Nat} {s : State} (hs : Keeps k0 s) : KeepsO k0 (execProgramFail sb lun s) := by
  unfold execProgramFail
  try (conv => zeta)
  repeat' first
    | with_reducible assumption | with_reducible apply KeepsO.next | with_reducible apply State.afterRetire_keeps
    | with_reducible apply State.setNand_keeps | with_reducible apply KeepsO.ite | split

theorem execEraseFail_keeps {sb lun : Nat} {s : State} (hs : Keeps k0 s) : KeepsO k0 (execEraseFail sb lun s) := by
  unfold execEraseFail
  try (conv => zeta)
  repeat' first
    | with_reducible assumption | with_reducible apply KeepsO.next | with_reducible apply State.afterRetire_keeps
    | with_reducible apply State.setNand_keeps | with_reducible apply KeepsO.ite | split

theorem execEraseComplete_keeps {sb : Nat} {s0 : State} (hs0 : Keeps k0 s0) : KeepsO k0 (execEraseComplete sb s0) := by
  unfold execEraseComplete
  try (conv => zeta)
  repeat' first
    | with_reducible assumption | with_reducible apply KeepsO.next | with_reducible apply State.dropDead_keeps
    | with_reducible apply State.setMed_keeps | with_reducible apply State.setNand_keeps | with_reducible apply KeepsO.ite | split

theorem execBgCollection_keeps {s0 : State} (hs0 : Keeps k0 s0) : KeepsO k0 (execBgCollection s0) := by
  unfold execBgCollection
  try (conv => zeta)
  repeat' first
    | with_reducible assumption | with_reducible apply KeepsO.next | with_reducible apply State.collect_keeps
    | with_reducible apply State.dropDead_keeps | with_reducible apply State.setMed_keeps | with_reducible apply State.until_keeps
    | with_reducible apply KeepsO.ite | split

theorem execFgCollection_keeps {s0 : State} (hs0 : Keeps k0 s0) : KeepsO k0 (execFgCollection s0) := by
  unfold execFgCollection
  try (conv => zeta)
  repeat' first
    | with_reducible assumption | with_reducible apply KeepsO.next | with_reducible apply State.collect_keeps
    | with_reducible apply State.dropDead_keeps | with_reducible apply State.enterFg_keeps | with_reducible apply State.setMed_keeps
    | with_reducible apply KeepsO.ite | split

theorem execPatrolRead_keeps {corr : Nat} {s0 : State} (hs0 : Keeps k0 s0) : KeepsO k0 (execPatrolRead corr s0) := by
  unfold execPatrolRead
  try (conv => zeta)
  repeat' first
    | with_reducible assumption | with_reducible apply KeepsO.next | with_reducible apply State.dropDead_keeps
    | with_reducible apply State.refresh_keeps | with_reducible apply State.setMed_keeps | with_reducible apply State.setNand_keeps
    | with_reducible apply State.until_keeps | with_reducible apply KeepsO.ite | split

theorem execMediaHealth_keeps {s : State} (hs : Keeps k0 s) : KeepsO k0 (execMediaHealth s) := by
  unfold execMediaHealth
  try (conv => zeta)
  repeat' first
    | with_reducible assumption | with_reducible apply KeepsO.next | with_reducible apply State.healthEvent_keeps
    | with_reducible apply State.setMed_keeps | with_reducible apply State.until_keeps | with_reducible apply KeepsO.ite

theorem State.journalRestore_keeps {s : State} {last : Option Nat} (hs : Keeps k0 s) : Keeps k0 (State.journalRestore s last) := by
  unfold State.journalRestore
  try (conv => zeta)
  repeat' first
    | with_reducible assumption | with_reducible apply State.journalOwn_keeps | split

theorem State.journalVbatAlarm_keeps {s : State} (hs : Keeps k0 s) : Keeps k0 (State.journalVbatAlarm s) := by
  unfold State.journalVbatAlarm
  try (conv => zeta)
  repeat' first
    | with_reducible assumption | fail_if_no_progress (with_reducible apply Keeps.upd)
    | (with_reducible apply Keeps.foldl) <;> (try (intro x a hx; try beta_reduce; try (conv => zeta))) | with_reducible apply State.append_keeps

theorem State.journalFirstBand_keeps {s : State} (hs : Keeps k0 s) : Keeps k0 (State.journalFirstBand s) := by
  unfold State.journalFirstBand
  try (conv => zeta)
  repeat' first
    | with_reducible assumption | with_reducible apply State.append_keeps | with_reducible apply Keeps.ite

theorem State.journalOutage_keeps {s : State} {hwb : Nat} (hs : Keeps k0 s) : Keeps k0 (State.journalOutage s hwb) := by
  unfold State.journalOutage
  try (conv => zeta)
  repeat' first
    | with_reducible assumption | fail_if_no_progress (with_reducible apply Keeps.upd) | with_reducible apply State.journalCrossed_keeps

theorem State.journalStart_keeps {s : State} (hs : Keeps k0 s) : Keeps k0 (State.journalStart s) := by
  unfold State.journalStart
  try (conv => zeta)
  repeat' first
    | with_reducible assumption | fail_if_no_progress (with_reducible apply Keeps.upd) | with_reducible apply State.append_keeps
    | with_reducible apply State.journalFirstBand_keeps | with_reducible apply State.journalOutage_keeps
    | with_reducible apply State.journalOwn_keeps | with_reducible apply State.journalRestore_keeps
    | with_reducible apply State.journalVbatAlarm_keeps | with_reducible apply State.recoverHeld_keeps
    | with_reducible apply State.releaseHeldPeriod_keeps | with_reducible apply State.setBoot_keeps | with_reducible apply Keeps.ite

theorem State.takeItem_keeps {s : State} {ring : Nat} {p0 : Item} (hs : Keeps k0 s) : Keeps k0 (State.takeItem s ring p0) := by
  unfold State.takeItem
  try (conv => zeta)
  repeat' first
    | with_reducible assumption | with_reducible apply State.count_keeps | with_reducible apply State.irq_keeps
    | with_reducible apply State.journalOwn_keeps | with_reducible apply State.takeInput_keeps | split

theorem execJournalInput_keeps {ring : Fin 16} {s : State} (hs : Keeps k0 s) : KeepsO k0 (execJournalInput ring s) := by
  unfold execJournalInput
  try (conv => zeta)
  repeat' first
    | with_reducible assumption | with_reducible apply KeepsO.next | with_reducible refine State.ringTake_keeps_eq ?_ (by assumption)
    | with_reducible apply State.takeItem_keeps | with_reducible apply KeepsO.ite | split

theorem execRingLoss_keeps {ring : Fin 16} {s : State} (hs : Keeps k0 s) : KeepsO k0 (execRingLoss ring s) := by
  unfold execRingLoss
  try (conv => zeta)
  repeat' first
    | with_reducible assumption | with_reducible apply KeepsO.next | with_reducible refine State.ringTake_keeps_eq ?_ (by assumption)
    | with_reducible apply State.takeItem_keeps | with_reducible apply KeepsO.ite | split

theorem execBoundaryHoldStart_keeps {s : State} (hs : Keeps k0 s) : KeepsO k0 (execBoundaryHoldStart s) := by
  unfold execBoundaryHoldStart
  try (conv => zeta)
  repeat' first
    | with_reducible assumption | with_reducible apply KeepsO.next | fail_if_no_progress (with_reducible apply Keeps.upd)
    | with_reducible apply State.journalBoundaries_keeps | with_reducible apply State.untilDev_keeps | with_reducible apply KeepsO.ite | split

theorem execBoundaryHoldEnd_keeps {s : State} (hs : Keeps k0 s) : KeepsO k0 (execBoundaryHoldEnd s) := by
  unfold execBoundaryHoldEnd
  try (conv => zeta)
  repeat' first
    | with_reducible assumption | with_reducible apply KeepsO.next | with_reducible apply State.endHold_keeps
    | with_reducible apply State.until_keeps | split

theorem execDrbgDraw_keeps {k : Key} {s : State} (hs : Keeps k0 s) : KeepsO k0 (execDrbgDraw k s) := by
  unfold execDrbgDraw
  try (conv => zeta)
  repeat' first
    | with_reducible assumption | with_reducible apply KeepsO.next | with_reducible apply State.journalDraw_keeps | with_reducible apply KeepsO.ite
    | split

theorem State.atCut_keeps {s : State} (hs : Keeps k0 s) : Keeps k0 (State.atCut s) := by
  unfold State.atCut
  try (conv => zeta)
  repeat' first
    | with_reducible assumption | with_reducible apply State.settle_keeps

theorem State.beginCkpt_keeps {s : State} {k : Ckpt} (hs : Keeps k0 s) : Keeps k0 (State.beginCkpt s k) := by
  unfold State.beginCkpt
  try (conv => zeta)
  repeat' first
    | with_reducible assumption | fail_if_no_progress (with_reducible apply Keeps.upd)

theorem State.cutCkpt_keeps {s : State} (hs : Keeps k0 s) : Keeps k0 (State.cutCkpt s) := by
  unfold State.cutCkpt
  try (conv => zeta)
  repeat' first
    | with_reducible assumption | with_reducible apply State.beginCkpt_keeps | with_reducible apply State.journalOwn_keeps

theorem execCkptCut_keeps {s : State} (hs : Keeps k0 s) : KeepsO k0 (execCkptCut s) := by
  unfold execCkptCut
  try (conv => zeta)
  repeat' first
    | with_reducible assumption | with_reducible apply KeepsO.next | with_reducible apply State.cutCkpt_keeps
    | with_reducible apply State.untilDev_keeps | with_reducible apply KeepsO.ite | split

theorem execJsqCkptNow_keeps {w : Who} {s : State} (hs : Keeps k0 s) : KeepsO k0 (execJsqCkptNow w s) := by
  unfold execJsqCkptNow
  try (conv => zeta)
  repeat' first
    | with_reducible assumption | with_reducible apply KeepsO.next | fail_if_no_progress (with_reducible apply Keeps.upd)
    | with_reducible apply State.answer_keeps | with_reducible apply State.busErr_keeps | with_reducible apply KeepsO.ite

theorem execDurabilityStall_keeps {s : State} (hs : Keeps k0 s) : KeepsO k0 (execDurabilityStall s) := by
  unfold execDurabilityStall
  try (conv => zeta)
  repeat' first
    | with_reducible assumption | with_reducible apply KeepsO.next | fail_if_no_progress (with_reducible apply Keeps.upd)
    | with_reducible apply State.event_keeps | with_reducible apply State.irq_keeps | with_reducible apply State.until_keeps
    | with_reducible apply KeepsO.ite

theorem State.adoptTime_keeps {s : State} {e : Entry} {step : Bool} (hs : Keeps k0 s) : Keeps k0 (State.adoptTime s e step) := by
  unfold State.adoptTime
  try (conv => zeta)
  repeat' first
    | with_reducible assumption | fail_if_no_progress (with_reducible apply Keeps.upd) | with_reducible apply State.setTim_keeps
    | with_reducible apply Keeps.ite | split

theorem State.adoptEffects_keeps {s : State} {e : Entry} {step : Bool} (hs : Keeps k0 s) : Keeps k0 (State.adoptEffects s e step) := by
  unfold State.adoptEffects
  try (conv => zeta)
  repeat' first
    | with_reducible assumption | with_reducible apply State.adoptTime_keeps | with_reducible apply State.beginCkpt_keeps
    | with_reducible apply State.mirror_keeps | with_reducible apply State.settle_keeps | with_reducible apply Keeps.ite

theorem State.adopt_keeps {s : State} {e : Entry} {toMedia : Bool} (hs : Keeps k0 s) : Keeps k0 (State.adopt s e toMedia) := by
  unfold State.adopt
  try (conv => zeta)
  repeat' first
    | with_reducible assumption | fail_if_no_progress (with_reducible apply Keeps.upd) | with_reducible apply State.adoptEffects_keeps
    | with_reducible apply State.ringPacket_keeps | with_reducible apply Keeps.ite

theorem State.adoptAll_keeps {s : State} {es : List Entry} (hs : Keeps k0 s) : Keeps k0 (State.adoptAll s es) := by
  unfold State.adoptAll
  try (conv => zeta)
  repeat' first
    | with_reducible assumption | (with_reducible apply Keeps.foldl) <;> (try (intro x a hx; try beta_reduce; try (conv => zeta)))
    | with_reducible apply State.adopt_keeps | with_reducible apply Keeps.ite

theorem State.xreq_keeps {s : State} {pos part from_ : Nat} (hs : Keeps k0 s) : Keeps k0 (State.xreq s pos part from_) := by
  unfold State.xreq
  try (conv => zeta)
  repeat' first
    | with_reducible assumption | with_reducible apply State.sefSend_keeps

theorem State.sendParts_keeps {s : State} {pos part : Nat} {l : List (Nat × Bytes)} (hs : Keeps k0 s) : Keeps k0 (State.sendParts s pos part l) := by
  unfold State.sendParts
  try (conv => zeta)
  repeat' first
    | with_reducible assumption | (with_reducible apply Keeps.foldl) <;> (try (intro x a hx; try beta_reduce; try (conv => zeta)))
    | with_reducible apply State.sefSend_keeps

theorem State.answerXreq_keeps {s : State} {pos part from_ : Nat} (hs : Keeps k0 s) : Keeps k0 (State.answerXreq s pos part from_) := by
  unfold State.answerXreq
  try (conv => zeta)
  repeat' first
    | with_reducible assumption | with_reducible apply State.sefSend_keeps | with_reducible apply State.sendParts_keeps
    | with_reducible apply Keeps.ite | split

theorem State.latchVotes_keeps {s : State} (hs : Keeps k0 s) : Keeps k0 (State.latchVotes s) := by
  unfold State.latchVotes
  try (conv => zeta)
  repeat' first
    | with_reducible assumption | with_reducible apply State.setSef_keeps

theorem State.judgeVotes_keeps {s : State} (hs : Keeps k0 s) : Keeps k0 (State.judgeVotes s) := by
  unfold State.judgeVotes
  try (conv => zeta)
  repeat' first
    | with_reducible assumption | with_reducible apply State.count_keeps | with_reducible apply State.dropToken_keeps
    | with_reducible apply State.event_keeps | with_reducible apply State.irq_keeps | with_reducible apply State.latchVotes_keeps
    | with_reducible apply State.setSef_keeps | with_reducible apply Keeps.ite | split

theorem State.takeDuties_keeps {s : State} (hs : Keeps k0 s) : Keeps k0 (State.takeDuties s) := by
  unfold State.takeDuties
  try (conv => zeta)
  repeat' first
    | with_reducible assumption | fail_if_no_progress (with_reducible apply Keeps.upd)
    | (with_reducible apply Keeps.foldl) <;> (try (intro x a hx; try beta_reduce; try (conv => zeta))) | with_reducible apply State.announce_keeps
    | with_reducible apply State.journalStart_keeps | with_reducible apply State.newSession_keeps | with_reducible apply State.offer_keeps
    | with_reducible apply State.recoverHeld_keeps | with_reducible apply State.releaseHeldPeriod_keeps | with_reducible apply State.sefSend_keeps
    | with_reducible apply State.setNet_keeps | with_reducible apply Keeps.ite

theorem State.takeToken_keeps {s : State} (hs : Keeps k0 s) : Keeps k0 (State.takeToken s) := by
  unfold State.takeToken
  try (conv => zeta)
  repeat' first
    | with_reducible assumption | (with_reducible apply Keeps.foldl) <;> (try (intro x a hx; try beta_reduce; try (conv => zeta)))
    | with_reducible apply State.count_keeps | with_reducible apply State.event_keeps | with_reducible apply State.irq_keeps
    | with_reducible apply State.setSef_keeps | with_reducible apply State.takeDuties_keeps | with_reducible apply State.xreq_keeps
    | with_reducible apply Keeps.ite

theorem State.addressFault_keeps {s : State} {w : Who} {a : Nat} (hs : Keeps k0 s) : Keeps k0 (State.addressFault s w a) := by
  unfold State.addressFault
  try (conv => zeta)
  repeat' first
    | with_reducible assumption | with_reducible apply State.busErr_keeps | with_reducible apply State.event_keeps

theorem State.regRead_keeps {s : State} {w : Who} {a : Nat} (hs : Keeps k0 s) : Keeps k0 (State.regRead s w a).2 := by
  unfold State.regRead
  try (conv => zeta)
  repeat' first
    | with_reducible assumption | fail_if_no_progress (with_reducible apply Keeps.upd) | with_reducible apply State.evrRewind_keeps
    | with_reducible apply State.evrWin_keeps | with_reducible apply State.oasFreeze_keeps | with_reducible apply State.oasRelease_keeps
    | with_reducible apply Keeps.iteSnd | split

theorem State.chainRead_keeps {s : State} {w : Who} {a : Nat} (hs : Keeps k0 s) : Keeps k0 (State.chainRead s w a).2 := by
  unfold State.chainRead
  try (conv => zeta)
  repeat' first
    | with_reducible assumption | with_reducible apply State.addressFault_keeps | with_reducible apply State.regRead_keeps
    | with_reducible apply Keeps.iteSnd | split

theorem State.maskWrite_keeps {s : State} {a : Nat} {v : Word} {rw w1c : Nat} (hs : Keeps k0 s) : Keeps k0 (State.maskWrite s a v rw w1c) := by
  unfold State.maskWrite
  try (conv => zeta)
  repeat' first
    | with_reducible assumption | with_reducible apply State.setReg_keeps

theorem State.clearStale_keeps {s : State} {w : Who} {v : Word} (hs : Keeps k0 s) : Keeps k0 (State.clearStale s w v) := by
  unfold State.clearStale
  try (conv => zeta)
  repeat' first
    | with_reducible assumption | with_reducible apply State.setOas_keeps | with_reducible apply Keeps.ite

theorem State.chainFields_keeps {s : State} {w : Who} {a : Nat} {v : Word} (hs : Keeps k0 s) : KeepsP k0 (State.chainFields s w a v) := by
  unfold State.chainFields
  try (conv => zeta)
  repeat' first
    | with_reducible assumption | with_reducible exact KeepsP.none _ | with_reducible apply KeepsP.some | with_reducible apply State.clearStale_keeps
    | with_reducible apply State.maskWrite_keeps | with_reducible apply State.setReg_keeps | split

theorem State.chainFields_keeps_eq {s : State} {w : Who} {a : Nat} {v : Word} {y0 : State} (hs : Keeps k0 s) (heq0 : State.chainFields s w a v =
    some y0) : Keeps k0 y0 :=
  (State.chainFields_keeps (k0 := k0) (s := s) (w := w) (a := a) (v := v) hs).some_keeps _ heq0

theorem State.chainWrite_keeps {s : State} {w : Who} {a : Nat} {v : Word} (hs : Keeps k0 s) : Keeps k0 (State.chainWrite s w a v).2 := by
  unfold State.chainWrite
  try (conv => zeta)
  repeat' first
    | with_reducible assumption | with_reducible apply State.addressFault_keeps | with_reducible refine State.chainFields_keeps_eq ?_ (by assumption)
    | with_reducible apply Keeps.iteSnd | split

theorem State.turn_keeps {s : State} {k : Key} (hs : Keeps k0 s) : Keeps k0 (State.turn s k) := by
  unfold State.turn
  try (conv => zeta)
  repeat' first
    | with_reducible assumption | with_reducible apply State.commitHead_keeps | with_reducible apply Keeps.ite

theorem execCommitTurn_keeps {k : Key} {s : State} (hs : Keeps k0 s) : KeepsO k0 (execCommitTurn k s) := by
  unfold execCommitTurn
  try (conv => zeta)
  repeat' first
    | with_reducible assumption | with_reducible apply KeepsO.next | with_reducible apply State.turn_keeps

theorem execBalanceClose_keeps {g : Fin 4096} {s : State} (hs : Keeps k0 s) : KeepsO k0 (execBalanceClose g s) := by
  unfold execBalanceClose
  try (conv => zeta)
  repeat' first
    | with_reducible assumption | with_reducible apply KeepsO.next | with_reducible apply State.turn_keeps | with_reducible apply KeepsO.ite

theorem State.turnFirst_keeps {s : State} {ks : List Key} {p : Task → Bool} (hs : Keeps k0 s) : Keeps k0 (State.turnFirst s ks p) := by
  unfold State.turnFirst
  try (conv => zeta)
  repeat' first
    | with_reducible assumption | with_reducible apply State.turn_keeps | split

theorem execBackCommit_keeps {s : State} (hs : Keeps k0 s) : KeepsO k0 (execBackCommit s) := by
  unfold execBackCommit
  try (conv => zeta)
  repeat' first
    | with_reducible assumption | with_reducible apply KeepsO.next | with_reducible apply State.turnFirst_keeps

theorem execCmdDatagramCheck_keeps {s : State} (hs : Keeps k0 s) : KeepsO k0 (execCmdDatagramCheck s) := by
  unfold execCmdDatagramCheck
  try (conv => zeta)
  repeat' first
    | with_reducible assumption | with_reducible apply KeepsO.next | with_reducible apply State.turnFirst_keeps

theorem execBatchIngest_keeps {s : State} (hs : Keeps k0 s) : KeepsO k0 (execBatchIngest s) := by
  unfold execBatchIngest
  try (conv => zeta)
  repeat' first
    | with_reducible assumption | with_reducible apply KeepsO.next | with_reducible apply State.turnFirst_keeps

theorem execCloseSweepStep_keeps {s : State} (hs : Keeps k0 s) : KeepsO k0 (execCloseSweepStep s) := by
  unfold execCloseSweepStep
  try (conv => zeta)
  repeat' first
    | with_reducible assumption | with_reducible apply KeepsO.next | with_reducible apply State.closeStep_keeps
    | with_reducible apply State.irq_keeps | with_reducible apply State.journalDraw_keeps | with_reducible apply State.setCtx_keeps
    | with_reducible apply Keeps.getD | with_reducible apply Keeps.ite | with_reducible apply KeepsO.ite | split

theorem execReleaseEnter_keeps {s : State} (hs : Keeps k0 s) : KeepsO k0 (execReleaseEnter s) := by
  unfold execReleaseEnter
  try (conv => zeta)
  repeat' first
    | with_reducible assumption | with_reducible apply KeepsO.next | with_reducible apply State.enterOutput_keeps
    | with_reducible apply State.irq_keeps | with_reducible apply State.logReleased_keeps | with_reducible apply State.transitionWhen_keeps
    | with_reducible apply Keeps.ite | with_reducible apply KeepsO.ite | split

end Sys2Proof.Machine
end

