-- ==== Sys2Proof/Laws/KeepsStart.lean ====
section
/-! SUPPORT. The relation of Laws/Keeps.lean for the Seif commands and the start: one lemma per operation. -/
namespace Sys2Proof.Machine

set_option linter.unusedTactic false
set_option linter.unusedVariables false

variable {k0 : State}

theorem State.broadcastImage_keeps {s : State} (hs : Keeps k0 s) : Keeps k0 (State.broadcastImage s) := by
  unfold State.broadcastImage
  try (conv => zeta)
  repeat' first
    | with_reducible assumption | (with_reducible apply Keeps.foldl) <;> (try (intro x a hx; try beta_reduce; try (conv => zeta)))
    | with_reducible apply State.q8Send_keeps | with_reducible apply State.setBoot_keeps | with_reducible apply Keeps.ite | split

theorem execHeartbeatSend_keeps {s : State} (hs : Keeps k0 s) : KeepsO k0 (execHeartbeatSend s) := by
  unfold execHeartbeatSend
  try (conv => zeta)
  repeat' first
    | with_reducible assumption | with_reducible apply KeepsO.next | with_reducible apply State.broadcastImage_keeps
    | with_reducible apply State.sefSend_keeps | with_reducible apply State.setSef_keeps | with_reducible apply State.until_keeps
    | with_reducible apply KeepsO.ite

theorem State.heartbeatIn_keeps {s1 : State} {link : Nat} {f : Bytes} (hs1 : Keeps k0 s1) : Keeps k0 (State.heartbeatIn s1 link f) := by
  unfold State.heartbeatIn
  try (conv => zeta)
  repeat' first
    | with_reducible assumption | with_reducible apply State.event_keeps | with_reducible apply State.setLink_keeps
    | with_reducible apply State.setSef_keeps | with_reducible apply Keeps.ite

theorem execPeerTimeout_keeps {p : Fin 32} {s : State} (hs : Keeps k0 s) : KeepsO k0 (execPeerTimeout p s) := by
  unfold execPeerTimeout
  try (conv => zeta)
  repeat' first
    | with_reducible assumption | with_reducible apply KeepsO.next | with_reducible apply State.judgeVotes_keeps
    | with_reducible apply State.setSef_keeps | with_reducible apply State.until_keeps | with_reducible apply Keeps.ite | split

theorem execJrep_keeps {s : State} (hs : Keeps k0 s) : KeepsO k0 (execJrep s) := by
  unfold execJrep
  try (conv => zeta)
  repeat' first
    | with_reducible assumption | with_reducible apply KeepsO.next | with_reducible apply State.adoptAll_keeps
    | with_reducible apply State.setSef_keeps | with_reducible refine State.takeFrame_keeps_eq ?_ (by assumption)
    | with_reducible apply State.xreq_keeps | with_reducible apply Keeps.ite | with_reducible apply KeepsO.ite | split

theorem execJack_keeps {s : State} (hs : Keeps k0 s) : KeepsO k0 (execJack s) := by
  unfold execJack
  try (conv => zeta)
  repeat' first
    | with_reducible assumption | with_reducible apply KeepsO.next | with_reducible apply State.raiseDurable_keeps
    | with_reducible apply State.setSef_keeps | with_reducible refine State.takeFrame_keeps_eq ?_ (by assumption) | with_reducible apply KeepsO.ite
    | split

theorem execJackSend_keeps {s : State} (hs : Keeps k0 s) : KeepsO k0 (execJackSend s) := by
  unfold execJackSend
  try (conv => zeta)
  repeat' first
    | with_reducible assumption | with_reducible apply KeepsO.next | with_reducible apply State.sefSend_keeps
    | with_reducible apply State.setSef_keeps | with_reducible apply State.until_keeps | with_reducible apply KeepsO.ite | split

theorem execDigest_keeps {s : State} (hs : Keeps k0 s) : KeepsO k0 (execDigest s) := by
  unfold execDigest
  try (conv => zeta)
  repeat' first
    | with_reducible assumption | with_reducible apply KeepsO.next | with_reducible apply State.judgeVotes_keeps
    | with_reducible apply State.setSef_keeps | with_reducible refine State.takeFrame_keeps_eq ?_ (by assumption) | split

theorem execDigestSend_keeps {s : State} (hs : Keeps k0 s) : KeepsO k0 (execDigestSend s) := by
  unfold execDigestSend
  try (conv => zeta)
  repeat' first
    | with_reducible assumption | with_reducible apply KeepsO.next | with_reducible apply State.judgeVotes_keeps
    | with_reducible apply State.sefSendTo_keeps | with_reducible apply State.setSef_keeps | with_reducible apply State.until_keeps
    | with_reducible apply Keeps.ite | with_reducible apply KeepsO.ite | split

theorem execXreq_keeps {s : State} (hs : Keeps k0 s) : KeepsO k0 (execXreq s) := by
  unfold execXreq
  try (conv => zeta)
  repeat' first
    | with_reducible assumption | with_reducible apply KeepsO.next | with_reducible apply State.answerXreq_keeps
    | with_reducible refine State.takeFrame_keeps_eq ?_ (by assumption) | with_reducible apply Keeps.ite | split

theorem State.cutJournal_keeps {s : State} {cut : Nat} (hs : Keeps k0 s) : Keeps k0 (State.cutJournal s cut) := by
  unfold State.cutJournal
  try (conv => zeta)
  repeat' first
    | with_reducible assumption | fail_if_no_progress (with_reducible apply Keeps.upd) | with_reducible apply State.drainQ12_keeps
    | with_reducible apply State.setMed_keeps | with_reducible apply State.setNand_keeps | with_reducible apply Keeps.ite

theorem State.installCkpt_keeps {s0 : State} {k : Ckpt} {recs : List (Nat × Bytes)} (hs0 : Keeps k0 s0) : Keeps k0 (State.installCkpt s0 k recs) := by
  unfold State.installCkpt
  try (conv => zeta)
  repeat' first
    | with_reducible assumption | fail_if_no_progress (with_reducible apply Keeps.upd) | with_reducible apply State.cutJournal_keeps
    | with_reducible apply State.idxRebuild_keeps | with_reducible apply State.setNand_keeps

theorem State.requeue_keeps {s : State} {l : List Task} (hs : Keeps k0 s) : Keeps k0 (State.requeue s l) := by
  unfold State.requeue
  try (conv => zeta)
  repeat' first
    | with_reducible assumption | (with_reducible apply Keeps.foldl) <;> (try (intro x a hx; try beta_reduce; try (conv => zeta)))
    | with_reducible apply State.enqueue_keeps

theorem State.resyncPart_keeps {s : State} {r : Resync} {part off : Nat} {data : Bytes} (hs : Keeps k0 s) : Keeps k0 (State.resyncPart s r part off
    data) := by
  unfold State.resyncPart
  try (conv => zeta)
  repeat' first
    | with_reducible assumption | with_reducible apply State.adoptAll_keeps | with_reducible apply State.event_keeps
    | with_reducible apply State.setSef_keeps | with_reducible apply State.xreq_keeps | with_reducible apply Keeps.ite | split

theorem State.resyncDone_keeps {s : State} {r : Resync} (hs : Keeps k0 s) : Keeps k0 (State.resyncDone s r) := by
  unfold State.resyncDone
  try (conv => zeta)
  repeat' first
    | with_reducible assumption | fail_if_no_progress (with_reducible apply Keeps.upd)
    | (with_reducible apply Keeps.foldl) <;> (try (intro x a hx; try beta_reduce; try (conv => zeta))) | with_reducible apply State.event_keeps
    | with_reducible apply State.irq_keeps | with_reducible apply State.setBoot_keeps | with_reducible apply State.setSef_keeps

theorem State.resyncEnd_keeps {s : State} {r : Resync} (hs : Keeps k0 s) : Keeps k0 (State.resyncEnd s r) := by
  unfold State.resyncEnd
  try (conv => zeta)
  repeat' first
    | with_reducible assumption | with_reducible apply State.adoptAll_keeps | with_reducible apply State.event_keeps
    | with_reducible apply State.installCkpt_keeps | with_reducible apply State.requeue_keeps | with_reducible apply State.resyncDone_keeps
    | with_reducible apply State.setSef_keeps | with_reducible apply State.xreq_keeps | with_reducible apply Keeps.ite | split

theorem State.catchUpFrom_keeps {s : State} {c : CatchUp} {pos : Nat} (hs : Keeps k0 s) : Keeps k0 (State.catchUpFrom s c pos) := by
  unfold State.catchUpFrom
  try (conv => zeta)
  repeat' first
    | with_reducible assumption | with_reducible apply State.setSef_keeps | with_reducible apply State.takeDuties_keeps
    | with_reducible apply Keeps.ite

theorem State.xferIn_keeps {s1 : State} {f : Bytes} (hs1 : Keeps k0 s1) : Keeps k0 (State.xferIn s1 f) := by
  unfold State.xferIn
  try (conv => zeta)
  repeat' first
    | with_reducible assumption | with_reducible apply State.adoptAll_keeps | with_reducible apply State.catchUpFrom_keeps
    | with_reducible apply State.resyncEnd_keeps | with_reducible apply State.resyncPart_keeps | with_reducible apply Keeps.ite | split

theorem State.mgmtAnswer_keeps {s : State} {pos tag : Nat} {r : Reply} (hs : Keeps k0 s) : Keeps k0 (State.mgmtAnswer s pos tag r) := by
  unfold State.mgmtAnswer
  try (conv => zeta)
  repeat' first
    | with_reducible assumption | with_reducible apply State.sefSend_keeps

theorem execMgmtRd_keeps {s : State} (hs : Keeps k0 s) : KeepsO k0 (execMgmtRd s) := by
  unfold execMgmtRd
  try (conv => zeta)
  repeat' first
    | with_reducible assumption | with_reducible apply KeepsO.next | with_reducible apply State.chainRead_keeps
    | with_reducible apply State.mgmtAnswer_keeps | with_reducible refine State.takeFrame_keeps_eq ?_ (by assumption) | split

theorem execMgmtWr_keeps {s : State} (hs : Keeps k0 s) : KeepsO k0 (execMgmtWr s) := by
  unfold execMgmtWr
  try (conv => zeta)
  repeat' first
    | with_reducible assumption | with_reducible apply KeepsO.next | with_reducible apply State.chainWrite_keeps
    | with_reducible apply State.mgmtAnswer_keeps | with_reducible refine State.takeFrame_keeps_eq ?_ (by assumption) | split

theorem execMgmtRsp_keeps {s : State} (hs : Keeps k0 s) : KeepsO k0 (execMgmtRsp s) := by
  unfold execMgmtRsp
  try (conv => zeta)
  repeat' first
    | with_reducible assumption | with_reducible apply KeepsO.next | with_reducible apply State.answer_keeps
    | with_reducible refine State.takeFrame_keeps_eq ?_ (by assumption) | split

theorem execSeifCmd_keeps {s : State} (hs : Keeps k0 s) : KeepsO k0 (execSeifCmd s) := by
  unfold execSeifCmd
  try (conv => zeta)
  repeat' first
    | with_reducible assumption | with_reducible apply KeepsO.next | with_reducible apply State.offer_keeps | with_reducible apply State.q8Send_keeps
    | with_reducible refine State.takeFrame_keeps_eq ?_ (by assumption) | with_reducible apply Keeps.ite | with_reducible apply KeepsO.ite | split

theorem execImage_keeps {s : State} (hs : Keeps k0 s) : KeepsO k0 (execImage s) := by
  unfold execImage
  try (conv => zeta)
  repeat' first
    | with_reducible assumption | with_reducible apply KeepsO.next | with_reducible apply State.turnFirst_keeps

theorem execTokenClaim_keeps {dt : Nat} {high : Bool} {highFor : Nat} {s : State} (hs : Keeps k0 s) : KeepsO k0 (execTokenClaim dt high highFor s)
    := by
  unfold execTokenClaim
  try (conv => zeta)
  repeat' first
    | with_reducible assumption | with_reducible apply KeepsO.next | with_reducible apply State.advance_keeps
    | with_reducible apply State.setSef_keeps | with_reducible apply State.takeToken_keeps | with_reducible apply KeepsO.ite

theorem execCatchupTimeout_keeps {s : State} (hs : Keeps k0 s) : KeepsO k0 (execCatchupTimeout s) := by
  unfold execCatchupTimeout
  try (conv => zeta)
  repeat' first
    | with_reducible assumption | with_reducible apply KeepsO.next
    | (with_reducible apply Keeps.foldl) <;> (try (intro x a hx; try beta_reduce; try (conv => zeta))) | with_reducible apply State.event_keeps
    | with_reducible apply State.takeDuties_keeps | with_reducible apply State.until_keeps | split

theorem execSefKick_keeps {w : Who} {s : State} (hs : Keeps k0 s) : KeepsO k0 (execSefKick w s) := by
  unfold execSefKick
  try (conv => zeta)
  repeat' first
    | with_reducible assumption | with_reducible apply KeepsO.next | with_reducible apply State.answer_keeps
    | with_reducible apply State.busErr_keeps | with_reducible apply State.setSef_keeps | with_reducible apply KeepsO.ite

theorem execTokenWatchdog_keeps {s : State} (hs : Keeps k0 s) : KeepsO k0 (execTokenWatchdog s) := by
  unfold execTokenWatchdog
  try (conv => zeta)
  repeat' first
    | with_reducible assumption | with_reducible apply KeepsO.next | with_reducible apply State.dropToken_keeps
    | with_reducible apply State.mainReset_keeps | with_reducible apply State.setSef_keeps | with_reducible apply State.until_keeps
    | with_reducible apply KeepsO.ite | split

theorem execSefRelease_keeps {w : Who} {s : State} (hs : Keeps k0 s) : KeepsO k0 (execSefRelease w s) := by
  unfold execSefRelease
  try (conv => zeta)
  repeat' first
    | with_reducible assumption | with_reducible apply KeepsO.next | with_reducible apply State.answer_keeps
    | with_reducible apply State.busErr_keeps | with_reducible apply State.dropToken_keeps | with_reducible apply Keeps.ite
    | with_reducible apply KeepsO.ite

theorem execTokenFault_keeps {dt : Nat} {s : State} (hs : Keeps k0 s) : KeepsO k0 (execTokenFault dt s) := by
  unfold execTokenFault
  try (conv => zeta)
  repeat' first
    | with_reducible assumption | with_reducible apply KeepsO.next | with_reducible apply State.advance_keeps
    | with_reducible apply State.event_keeps | with_reducible apply State.irq_keeps | with_reducible apply State.setSef_keeps
    | with_reducible apply KeepsO.ite

theorem execRoleConflict_keeps {s : State} (hs : Keeps k0 s) : KeepsO k0 (execRoleConflict s) := by
  unfold execRoleConflict
  try (conv => zeta)
  repeat' first
    | with_reducible assumption | with_reducible apply KeepsO.next | with_reducible apply State.event_keeps | with_reducible apply State.irq_keeps
    | with_reducible apply State.setSef_keeps | with_reducible apply KeepsO.ite

theorem execResync_keeps {s : State} (hs : Keeps k0 s) : KeepsO k0 (execResync s) := by
  unfold execResync
  try (conv => zeta)
  repeat' first
    | with_reducible assumption | with_reducible apply KeepsO.next | with_reducible apply State.event_keeps | with_reducible apply State.setSef_keeps
    | with_reducible apply State.xreq_keeps | with_reducible apply KeepsO.ite | split

theorem State.takeBack_keeps {s : State} {e : Entry} (hs : Keeps k0 s) : Keeps k0 (State.takeBack s e) := by
  unfold State.takeBack
  try (conv => zeta)
  repeat' first
    | with_reducible assumption | fail_if_no_progress (with_reducible apply Keeps.upd) | with_reducible apply State.ringPacket_keeps
    | with_reducible refine State.ringTake_keeps_eq ?_ (by assumption) | split

theorem State.recoverJournal_keeps {s : State} (hs : Keeps k0 s) : Keeps k0 (State.recoverJournal s) := by
  unfold State.recoverJournal
  try (conv => zeta)
  repeat' first
    | with_reducible assumption | fail_if_no_progress (with_reducible apply Keeps.upd)
    | (with_reducible apply Keeps.foldl) <;> (try (intro x a hx; try beta_reduce; try (conv => zeta))) | with_reducible apply State.setMed_keeps
    | with_reducible apply State.takeBack_keeps

theorem State.loadMisses_keeps {s : State} (hs : Keeps k0 s) : Keeps k0 (State.loadMisses s) := by
  unfold State.loadMisses
  try (conv => zeta)
  repeat' first
    | with_reducible assumption | fail_if_no_progress (with_reducible apply Keeps.upd)

theorem State.loadCkpt_keeps {s : State} {k : Ckpt} (hs : Keeps k0 s) : Keeps k0 (State.loadCkpt s k) := by
  unfold State.loadCkpt
  try (conv => zeta)
  repeat' first
    | with_reducible assumption | fail_if_no_progress (with_reducible apply Keeps.upd) | with_reducible apply State.idxRebuild_keeps

theorem State.processAll_keeps {s : State} {es : List Entry} (hs : Keeps k0 s) : Keeps k0 (State.processAll s es) := by
  unfold State.processAll
  try (conv => zeta)
  repeat' first
    | with_reducible assumption | (with_reducible apply Keeps.foldl) <;> (try (intro x a hx; try beta_reduce; try (conv => zeta)))
    | with_reducible apply State.adopt_keeps | with_reducible apply State.setBit_keeps | with_reducible apply State.setBoot_keeps
    | with_reducible apply State.settingsOf_keeps | with_reducible apply State.settle_keeps | with_reducible apply State.underStart_keeps
    | with_reducible apply Keeps.ite

theorem State.restoreFrom_keeps {s : State} {k : Ckpt} (hs : Keeps k0 s) : Keeps k0 (State.restoreFrom s k) := by
  unfold State.restoreFrom
  try (conv => zeta)
  repeat' first
    | with_reducible assumption | with_reducible apply State.loadCkpt_keeps | with_reducible apply State.loadMisses_keeps
    | with_reducible apply State.processAll_keeps | with_reducible apply State.requeue_keeps

theorem State.chooseContext_keeps {s : State} (hs : Keeps k0 s) : Keeps k0 (State.chooseContext s) := by
  unfold State.chooseContext
  try (conv => zeta)
  repeat' first
    | with_reducible assumption | fail_if_no_progress (with_reducible apply Keeps.upd) | with_reducible apply State.event_keeps
    | with_reducible apply State.recoverJournal_keeps | with_reducible apply State.restoreFrom_keeps | split

theorem State.restoreContext_keeps {s : State} (hs : Keeps k0 s) : Keeps k0 (State.restoreContext s) := by
  unfold State.restoreContext
  try (conv => zeta)
  repeat' first
    | with_reducible assumption | fail_if_no_progress (with_reducible apply Keeps.upd) | with_reducible apply State.chooseContext_keeps

theorem State.chooseSlot_keeps {s : State} (hs : Keeps k0 s) : Keeps k0 (State.chooseSlot s).2.2 := by
  unfold State.chooseSlot
  try (conv => zeta)
  repeat' first
    | with_reducible assumption | with_reducible apply State.setNor_keeps | split

theorem State.chooseSlot_keeps_eq {s : State} {y0 : Option Nat} {y1 : Bool} {y2 : State} (hs : Keeps k0 s) (heq0 : State.chooseSlot s = (y0, y1,
    y2)) : Keeps k0 y2 := by
  have hh := State.chooseSlot_keeps (k0 := k0) (s := s) hs
  rw [heq0] at hh; exact hh

theorem codeOf_wf (b : Bytes) : Memory.wf (codeOf b) = true := zipIdx_swf b 0 none (by intro k h; cases h)
theorem Keeps.setCode {o s : State} {m : List (Nat × Byte)} (h : Keeps o s) (hm : Memory.wf m = true) : Keeps o { s with code := m } :=
  ⟨h.queue, h.time, h.sent, fun i => ⟨(h.inv i).1, (h.inv i).2.1, hm, (h.inv i).2.2.2⟩⟩
theorem State.loadFw_keeps {k0 s : State} {k : Nat} {gaveUp : Bool} {pref : Nat} (hs : Keeps k0 s) :
    Keeps k0 (s.loadFw k gaveUp pref) := by
  unfold State.loadFw
  exact State.setBoot_keeps (Keeps.setCode hs (codeOf_wf _))

theorem State.clearLog_keeps {s : State} {ser : Nat} (hs : Keeps k0 s) : Keeps k0 (State.clearLog s ser) := by
  unfold State.clearLog
  try (conv => zeta)
  repeat' first
    | with_reducible assumption | fail_if_no_progress (with_reducible apply Keeps.upd) | with_reducible apply State.logRecord_keeps
    | with_reducible apply Keeps.ite

theorem State.mount_keeps {s : State} (hs : Keeps k0 s) : Keeps k0 (State.mount s) := by
  unfold State.mount
  try (conv => zeta)
  repeat' first
    | with_reducible assumption | with_reducible apply State.cfgWarn_keeps | with_reducible apply State.event_keeps
    | with_reducible apply State.irq_keeps | with_reducible apply State.setMed_keeps | with_reducible apply Keeps.ite | split

theorem State.carryOver_keeps {s : State} (hs : Keeps k0 s) : Keeps k0 (State.carryOver s) := by
  unfold State.carryOver
  try (conv => zeta)
  repeat' first
    | with_reducible assumption | fail_if_no_progress (with_reducible apply Keeps.upd) | with_reducible apply State.applyImage_keeps
    | with_reducible apply State.setBoot_keeps | with_reducible apply Keeps.ite | split

theorem State.lockPll_keeps {s : State} {n : Nat} (hs : Keeps k0 s) : Keeps k0 (State.lockPll s n) := by
  unfold State.lockPll
  try (conv => zeta)
  repeat' first
    | with_reducible assumption | fail_if_no_progress (with_reducible apply Keeps.upd)

theorem State.stopPll_keeps {s : State} {n : Nat} (hs : Keeps k0 s) : Keeps k0 (State.stopPll s n) := by
  unfold State.stopPll
  try (conv => zeta)
  repeat' first
    | with_reducible assumption | fail_if_no_progress (with_reducible apply Keeps.upd)

theorem State.rungKeys_keeps {k0 s : State} (hs : Keeps k0 s) : Keeps k0 s.rungKeys := by
  unfold State.rungKeys
  extract_lets s1 q s2 k
  have h2 : Keeps k0 s2 := Keeps.upd (State.setBit_keeps (State.setBit_keeps hs))
  clear_value k s2
  split
  · exact Keeps.upd h2
  · have h3 : Keeps k0 ((s2.irq rKeyIrq 1).setBit rArbCtl 0 false) := State.setBit_keeps (State.irq_keeps h2)
    refine ⟨h3.queue, h3.time, h3.sent, fun i => ⟨(h3.inv i).1, (h3.inv i).2.1, (h3.inv i).2.2.1, ?_⟩⟩
    show (List.map _ s2.rings.zipIdx).length = 16
    rw [List.length_map, List.length_zipIdx]
    exact (h2.inv i).2.2.2

theorem State.rungMedia_keeps {s : State} (hs : Keeps k0 s) : Keeps k0 (State.rungMedia s) := by
  unfold State.rungMedia
  try (conv => zeta)
  repeat' first
    | with_reducible assumption | fail_if_no_progress (with_reducible apply Keeps.upd) | with_reducible apply State.carryOver_keeps
    | with_reducible apply State.clearLog_keeps | with_reducible apply State.enterRecovery_keeps | with_reducible apply State.mount_keeps
    | with_reducible apply State.setBit_keeps | with_reducible apply Keeps.ite

theorem State.rungNet_keeps {s : State} (hs : Keeps k0 s) : Keeps k0 (State.rungNet s) := by
  unfold State.rungNet
  try (conv => zeta)
  repeat' first
    | with_reducible assumption | with_reducible apply State.lockPll_keeps | with_reducible apply State.setBit_keeps
    | with_reducible apply State.setNet_keeps | with_reducible apply Keeps.ite

theorem State.rungDunes_keeps {s : State} (hs : Keeps k0 s) : Keeps k0 (State.rungDunes s) := by
  unfold State.rungDunes
  try (conv => zeta)
  repeat' first
    | with_reducible assumption | (with_reducible apply Keeps.foldl) <;> (try (intro x a hx; try beta_reduce; try (conv => zeta)))
    | with_reducible apply State.setDune_keeps

theorem State.feEnable_keeps {s : State} (hs : Keeps k0 s) : Keeps k0 (State.feEnable s) := by
  unfold State.feEnable
  try (conv => zeta)
  repeat' first
    | with_reducible assumption | fail_if_no_progress (with_reducible apply Keeps.upd)

theorem State.rung_keeps {s : State} {k : Nat} (hs : Keeps k0 s) : Keeps k0 (State.rung s k) := by
  unfold State.rung
  try (conv => zeta)
  repeat' first
    | with_reducible assumption | with_reducible apply State.feEnable_keeps | with_reducible apply State.freeRate_keeps
    | with_reducible apply State.lockPll_keeps | with_reducible apply State.rungDunes_keeps | with_reducible apply State.rungKeys_keeps
    | with_reducible apply State.rungMedia_keeps | with_reducible apply State.rungNet_keeps | with_reducible apply State.setBit_keeps
    | with_reducible apply State.setPlc_keeps | with_reducible apply State.setRad_keeps | with_reducible apply State.setSef_keeps
    | with_reducible apply Keeps.ite | split

theorem State.seedTime_keeps {s : State} (hs : Keeps k0 s) : Keeps k0 (State.seedTime s) := by
  unfold State.seedTime
  try (conv => zeta)
  repeat' first
    | with_reducible assumption | fail_if_no_progress (with_reducible apply Keeps.upd) | with_reducible apply State.advance_keeps
    | with_reducible apply State.oasisCommit_keeps | with_reducible apply Keeps.ite

theorem State.startUtc_keeps {s : State} (hs : Keeps k0 s) : Keeps k0 (State.startUtc s) := by
  unfold State.startUtc
  try (conv => zeta)
  repeat' first
    | with_reducible assumption | with_reducible apply State.setReg_keeps | with_reducible apply Keeps.ite

theorem State.raiseCsvn_keeps {s : State} (hs : Keeps k0 s) : Keeps k0 (State.raiseCsvn s) := by
  unfold State.raiseCsvn
  try (conv => zeta)
  repeat' first
    | with_reducible assumption | with_reducible apply State.cfgWarn_keeps | with_reducible apply State.setNand_keeps
    | with_reducible apply State.setReg_keeps | with_reducible apply Keeps.ite

theorem State.keepImages_keeps {s : State} (hs : Keeps k0 s) : Keeps k0 (State.keepImages s) := by
  unfold State.keepImages
  try (conv => zeta)
  repeat' first
    | with_reducible assumption | with_reducible apply State.setMed_keeps

theorem State.startEvents_keeps {s : State} (hs : Keeps k0 s) : Keeps k0 (State.startEvents s) := by
  unfold State.startEvents
  try (conv => zeta)
  repeat' first
    | with_reducible assumption | with_reducible apply State.event_keeps | with_reducible apply State.healthEvent_keeps
    | with_reducible apply State.setBoot_keeps | with_reducible apply State.setMed_keeps | with_reducible apply Keeps.ite | split

theorem State.resumeCounters_keeps {s : State} (hs : Keeps k0 s) : Keeps k0 (State.resumeCounters s) := by
  unfold State.resumeCounters
  try (conv => zeta)
  repeat' first
    | with_reducible assumption | fail_if_no_progress (with_reducible apply Keeps.upd) | with_reducible apply State.newSession_keeps
    | with_reducible apply Keeps.ite

theorem State.enterService_keeps {s : State} (hs : Keeps k0 s) : Keeps k0 (State.enterService s) := by
  unfold State.enterService
  try (conv => zeta)
  repeat' first
    | with_reducible assumption | fail_if_no_progress (with_reducible apply Keeps.upd) | with_reducible apply State.ctlReseat_keeps
    | with_reducible apply State.journalStart_keeps | with_reducible apply State.keepImages_keeps | with_reducible apply State.raiseCsvn_keeps
    | with_reducible apply State.resumeCounters_keeps | with_reducible apply State.seedTime_keeps | with_reducible apply State.setBit_keeps
    | with_reducible apply State.setBoot_keeps | with_reducible apply State.startEvents_keeps | with_reducible apply State.startUtc_keeps
    | with_reducible apply Keeps.ite

theorem State.carryCut_keeps {s : State} (hs : Keeps k0 s) : Keeps k0 (State.carryCut s) := by
  unfold State.carryCut
  try (conv => zeta)
  repeat' first
    | with_reducible assumption | with_reducible apply State.cutCkpt_keeps | with_reducible apply State.resumeCounters_keeps
    | with_reducible apply State.seedTime_keeps

theorem State.topRung_keeps {s : State} (hs : Keeps k0 s) : Keeps k0 (State.topRung s) := by
  unfold State.topRung
  try (conv => zeta)
  repeat' first
    | with_reducible assumption | fail_if_no_progress (with_reducible apply Keeps.upd) | with_reducible apply State.carryCut_keeps
    | with_reducible apply State.enterService_keeps | with_reducible apply State.restoreContext_keeps | with_reducible apply Keeps.ite

theorem State.climb_keeps {s : State} {wait : Nat} (hs : Keeps k0 s) : Keeps k0 (State.climb s wait) := by
  unfold State.climb
  try (conv => zeta)
  repeat' first
    | with_reducible assumption | fail_if_no_progress (with_reducible apply Keeps.upd) | with_reducible apply State.advance_keeps
    | with_reducible apply State.rung_keeps | with_reducible apply State.setFld_keeps | with_reducible apply State.topRung_keeps
    | with_reducible apply State.until_keeps | with_reducible apply Keeps.ite | split

theorem State.climbTo_keeps {wait p0 : Nat} {p1 : State} (hp1 : Keeps k0 p1) : Keeps k0 (State.climbTo wait p0 p1) := by
  induction p0 generalizing p1 with
  | zero =>
    unfold State.climbTo
    try (conv => zeta)
    repeat' first
      | with_reducible assumption
  | succ n ih =>
    unfold State.climbTo
    try (conv => zeta)
    repeat' first
      | with_reducible assumption | apply ih | with_reducible apply State.climb_keeps

theorem State.seeBoard_keeps {s : State} {card : Option Card} {geom : Option NandGeom} {vio33 : Bool} (hs : Keeps k0 s) : Keeps k0 (State.seeBoard
    s card geom vio33) := by
  unfold State.seeBoard
  try (conv => zeta)
  repeat' first
    | with_reducible assumption | fail_if_no_progress (with_reducible apply Keeps.upd) | with_reducible apply State.setBit_keeps
    | with_reducible apply State.setBoot_keeps | with_reducible apply Keeps.ite | split

theorem State.applyAll_keeps {s : State} {img : Bytes} {hold : Bool} (hs : Keeps k0 s) : Keeps k0 (State.applyAll s img hold) := by
  unfold State.applyAll
  try (conv => zeta)
  repeat' first
    | with_reducible assumption | fail_if_no_progress (with_reducible apply Keeps.upd) | with_reducible apply State.applyImage_keeps
    | with_reducible apply State.setBit_keeps | with_reducible apply State.setFld_keeps | with_reducible apply Keeps.ite

theorem State.startLadder_keeps {s : State} {ph : RunPhase} (hs : Keeps k0 s) : Keeps k0 (State.startLadder s ph) := by
  unfold State.startLadder
  try (conv => zeta)
  repeat' first
    | with_reducible assumption | fail_if_no_progress (with_reducible apply Keeps.upd)

theorem State.holdStart_keeps {k0 s : State} {img : Bytes} (hs : Keeps k0 s) : Keeps k0 (s.holdStart img) := by
  unfold State.holdStart
  extract_lets bad s1
  have h1 : Keeps k0 s1 := by
    show Keeps k0 (if bad = true then s else s.applyAll img true)
    exact Keeps.ite hs (State.applyAll_keeps hs)
  clear_value s1
  split
  · exact State.transitionWhen_keeps h1
  · split
    · exact Keeps.upd (State.setFld_keeps (a := rSysLadder) (hi := 20) (lo := 16) (v := 8) h1)
    · exact State.startLadder_keeps h1

theorem State.bootRom_keeps {k0 s : State} {recover : Bool} (hs : Keeps k0 s) : Keeps k0 (s.bootRom recover) := by
  unfold State.bootRom
  extract_lets img held
  split
  · exact State.transitionWhen_keeps hs
  split
  · exact Keeps.upd hs
  split
  · exact State.enterRecovery_keeps hs
  split
  · exact Keeps.ite (State.holdStart_keeps hs) (State.enterRecovery_keeps hs)
  split
  · rename_i a ha
    split at ha
    · exact State.deliverCard_keeps_eq hs ha
    · cases ha
  · split
    · rename_i h
      have h1 := State.chooseSlot_keeps_eq hs h
      exact Keeps.ite (State.holdStart_keeps h1) (State.enterRecovery_keeps h1)
    · rename_i h
      have h1 := State.chooseSlot_keeps_eq hs h
      exact Keeps.ite (State.holdStart_keeps (State.loadFw_keeps h1)) (State.startLadder_keeps (State.applyAll_keeps (State.loadFw_keeps h1)))

theorem execBoot_keeps {dt restore : Nat} {recover : Bool} {card : Option Card} {geom : Option NandGeom} {vio33 : Bool} {upTo : Fin 17} {s : State}
    (hs : Keeps k0 s) : KeepsO k0 (execBoot dt restore recover card geom vio33 upTo s) := by
  unfold execBoot
  try (conv => zeta)
  repeat' first
    | with_reducible assumption | with_reducible apply KeepsO.next | with_reducible apply State.advance_keeps
    | with_reducible apply State.bootRom_keeps | with_reducible apply State.climbTo_keeps | with_reducible apply State.seeBoard_keeps
    | with_reducible apply KeepsO.ite

theorem execLadderRung_keeps {dt : Nat} {s : State} (hs : Keeps k0 s) : KeepsO k0 (execLadderRung dt s) := by
  unfold execLadderRung
  try (conv => zeta)
  repeat' first
    | with_reducible assumption | with_reducible apply KeepsO.next | with_reducible apply State.climb_keeps

theorem execUpdHourCkpt_keeps {s : State} (hs : Keeps k0 s) : KeepsO k0 (execUpdHourCkpt s) := by
  unfold execUpdHourCkpt
  try (conv => zeta)
  repeat' first
    | with_reducible assumption | with_reducible apply KeepsO.next | with_reducible apply State.cutCkpt_keeps
    | with_reducible apply State.setBoot_keeps | with_reducible apply State.untilDev_keeps | with_reducible apply KeepsO.ite | split

theorem State.confirmTrial_keeps {s : State} {k : Ckpt} (hs : Keeps k0 s) : Keeps k0 (State.confirmTrial s k) := by
  unfold State.confirmTrial
  try (conv => zeta)
  repeat' first
    | with_reducible assumption | fail_if_no_progress (with_reducible apply Keeps.upd) | with_reducible apply State.event_keeps
    | with_reducible apply State.setBoot_keeps | with_reducible apply State.setNor_keeps | with_reducible apply Keeps.ite

theorem execCkptValid_keeps {ok : Bool} {s : State} (hs : Keeps k0 s) : KeepsO k0 (execCkptValid ok s) := by
  unfold execCkptValid
  try (conv => zeta)
  repeat' first
    | with_reducible assumption | with_reducible apply KeepsO.next | fail_if_no_progress (with_reducible apply Keeps.upd)
    | with_reducible apply State.confirmTrial_keeps | with_reducible apply State.free_keeps | with_reducible apply State.irq_keeps
    | with_reducible apply State.keepImages_keeps | with_reducible apply State.mainReset_keeps | with_reducible apply State.setNand_keeps
    | with_reducible apply State.trimJournal_keeps | with_reducible apply KeepsO.ite | split

end Sys2Proof.Machine
end

