-- ==== Sys2Proof/Laws/KeepsCmds.lean ====
section
/-! SUPPORT. The relation of Laws/Keeps.lean for the other commands: one lemma per operation. -/
namespace Sys2Proof.Machine

set_option linter.unusedTactic false
set_option linter.unusedVariables false

variable {k0 : State}

theorem execTaskDispatch_keeps {s : State} (hs : Keeps k0 s) : KeepsO k0 (execTaskDispatch s) := by
  unfold execTaskDispatch
  try (conv => zeta)
  repeat' first
    | with_reducible assumption | with_reducible apply KeepsO.next | with_reducible apply State.dispatchOne_keeps

theorem State.micRequest_keeps {s : State} {g i : Nat} {t : Task} (hs : Keeps k0 s) : Keeps k0 (State.micRequest s g i t) := by
  unfold State.micRequest
  try (conv => zeta)
  repeat' first
    | with_reducible assumption | with_reducible apply State.putWram_keeps | with_reducible apply State.ringPacket_keeps

theorem State.startTask_keeps {s : State} {g : Nat} {k : Key} {t : Task} (hs : Keeps k0 s) : Keeps k0 (State.startTask s g k t) := by
  unfold State.startTask
  try (conv => zeta)
  repeat' first
    | with_reducible assumption | fail_if_no_progress (with_reducible apply Keeps.upd) | with_reducible apply State.micRequest_keeps
    | with_reducible apply Keeps.ite | split

theorem execTaskStart_keeps {g : Fin 64} {s : State} (hs : Keeps k0 s) : KeepsO k0 (execTaskStart g s) := by
  unfold execTaskStart
  try (conv => zeta)
  repeat' first
    | with_reducible assumption | with_reducible apply KeepsO.next | with_reducible apply State.noteIdle_keeps
    | with_reducible apply State.startTask_keeps | with_reducible apply KeepsO.ite | split

theorem execBarchanMove_keeps {g : Fin 64} {s : State} (hs : Keeps k0 s) : KeepsO k0 (execBarchanMove g s) := by
  unfold execBarchanMove
  try (conv => zeta)
  repeat' first
    | with_reducible assumption | with_reducible apply KeepsO.next | fail_if_no_progress (with_reducible apply Keeps.upd)
    | with_reducible apply State.count_keeps | with_reducible apply State.noteIdle_keeps | with_reducible apply KeepsO.ite | split

theorem execDuneNap_keeps {d : Fin 8} {s : State} (hs : Keeps k0 s) : KeepsO k0 (execDuneNap d s) := by
  unfold execDuneNap
  try (conv => zeta)
  repeat' first
    | with_reducible assumption | with_reducible apply KeepsO.next | with_reducible apply State.setDune_keeps
    | with_reducible apply State.until_keeps | with_reducible apply KeepsO.ite

theorem execDuneDeep_keeps {d : Fin 8} {s : State} (hs : Keeps k0 s) : KeepsO k0 (execDuneDeep d s) := by
  unfold execDuneDeep
  try (conv => zeta)
  repeat' first
    | with_reducible assumption | with_reducible apply KeepsO.next | with_reducible apply State.setDune_keeps
    | with_reducible apply State.until_keeps | with_reducible apply KeepsO.ite

theorem execDuneWake_keeps {s : State} (hs : Keeps k0 s) : KeepsO k0 (execDuneWake s) := by
  unfold execDuneWake
  try (conv => zeta)
  repeat' first
    | with_reducible assumption | with_reducible apply KeepsO.next | with_reducible apply State.advance_keeps
    | with_reducible apply State.setDune_keeps | with_reducible apply State.until_keeps | with_reducible apply KeepsO.ite | split

theorem execEventRecord_keeps {s : State} (hs : Keeps k0 s) : KeepsO k0 (execEventRecord s) := by
  unfold execEventRecord
  try (conv => zeta)
  repeat' first
    | with_reducible assumption | with_reducible apply KeepsO.next | with_reducible apply State.count_keeps
    | with_reducible apply State.recordEvent_keeps | with_reducible apply State.ringDrain_keeps
    | with_reducible refine State.ringTake_keeps_eq ?_ (by assumption) | with_reducible apply KeepsO.ite | split

theorem execEvrRewind_keeps {w : Who} {s : State} (hs : Keeps k0 s) : KeepsO k0 (execEvrRewind w s) := by
  unfold execEvrRewind
  try (conv => zeta)
  repeat' first
    | with_reducible assumption | with_reducible apply KeepsO.next | with_reducible apply State.answer_keeps
    | with_reducible apply State.evrRewind_keeps

theorem execEvrWin_keeps {w : Who} {s : State} (hs : Keeps k0 s) : KeepsO k0 (execEvrWin w s) := by
  unfold execEvrWin
  try (conv => zeta)
  repeat' first
    | with_reducible assumption | with_reducible apply KeepsO.next | with_reducible apply State.answer_keeps
    | with_reducible apply State.evrWin_keeps

theorem execRepeatWindowEnd_keeps {s : State} (hs : Keeps k0 s) : KeepsO k0 (execRepeatWindowEnd s) := by
  unfold execRepeatWindowEnd
  try (conv => zeta)
  repeat' first
    | with_reducible assumption | with_reducible apply KeepsO.next | with_reducible apply State.closeFold_keeps
    | with_reducible apply State.until_keeps | split

theorem State.setFe_keeps {s : State} {f : FrontEnd → FrontEnd} (hs : Keeps k0 s) : Keeps k0 (State.setFe s f) := by
  unfold State.setFe
  try (conv => zeta)
  repeat' first
    | with_reducible assumption | fail_if_no_progress (with_reducible apply Keeps.upd)

theorem State.setFePhase_keeps {s : State} {p : Nat} {x : FePhase} (hs : Keeps k0 s) : Keeps k0 (State.setFePhase s p x) := by
  unfold State.setFePhase
  try (conv => zeta)
  repeat' first
    | with_reducible assumption | with_reducible apply State.setFe_keeps

theorem State.feOffer_keeps {p0 : List FePkt} {p1 : State} (hp1 : Keeps k0 p1) : Keeps k0 (State.feOffer p0 p1).2 := by
  induction p0 generalizing p1 with
  | nil =>
    unfold State.feOffer
    try (conv => zeta)
    repeat' first
      | with_reducible assumption
  | cons a r ih =>
    unfold State.feOffer
    try (conv => zeta)
    repeat' first
      | with_reducible assumption | apply ih | with_reducible apply State.offer_keeps | with_reducible apply Keeps.iteSnd

theorem State.feDrain_keeps {s : State} (hs : Keeps k0 s) : Keeps k0 (State.feDrain s) := by
  unfold State.feDrain
  try (conv => zeta)
  repeat' first
    | with_reducible assumption | with_reducible apply State.feOffer_keeps | with_reducible apply State.setFe_keeps

theorem State.feLost_keeps {s : State} (hs : Keeps k0 s) : Keeps k0 (State.feLost s) := by
  unfold State.feLost
  try (conv => zeta)
  repeat' first
    | with_reducible assumption | with_reducible apply State.count_keeps | with_reducible apply State.irq_keeps

theorem State.feBlock_keeps {s0 : State} {p : FePkt} (hs0 : Keeps k0 s0) : Keeps k0 (State.feBlock s0 p) := by
  unfold State.feBlock
  try (conv => zeta)
  repeat' first
    | with_reducible assumption | with_reducible apply State.feDrain_keeps | with_reducible apply State.feLost_keeps
    | with_reducible apply State.offer_keeps | with_reducible apply State.setFe_keeps | with_reducible apply Keeps.ite

theorem State.feEventPkt_keeps {s : State} {p : FePkt} (hs : Keeps k0 s) : Keeps k0 (State.feEventPkt s p) := by
  unfold State.feEventPkt
  try (conv => zeta)
  repeat' first
    | with_reducible assumption | with_reducible apply State.feLost_keeps | with_reducible apply State.offer_keeps
    | with_reducible apply State.setFe_keeps | with_reducible apply Keeps.ite

theorem State.feEvent_keeps {s : State} {ty ph : Nat} {dp v1 v2 : Int} {instant bseq : Nat} (hs : Keeps k0 s) : Keeps k0 (State.feEvent s ty ph dp
    v1 v2 instant bseq) := by
  unfold State.feEvent
  try (conv => zeta)
  repeat' first
    | with_reducible assumption | with_reducible apply State.feEventPkt_keeps

theorem State.feTake_keeps {s : State} {x : FeSample} (hs : Keeps k0 s) : Keeps k0 (State.feTake s x) := by
  unfold State.feTake
  try (conv => zeta)
  repeat' first
    | with_reducible assumption | with_reducible apply State.setFe_keeps

theorem State.feHolds_keeps {s : State} {c : Nat} {on : Bool} (hs : Keeps k0 s) : Keeps k0 (State.feHolds s c on) := by
  unfold State.feHolds
  try (conv => zeta)
  repeat' first
    | with_reducible assumption | with_reducible apply State.setFe_keeps

theorem State.feJudge_keeps {s : State} {a : FeAcc} (hs : Keeps k0 s) : Keeps k0 (State.feJudge s a) := by
  unfold State.feJudge
  try (conv => zeta)
  repeat' first
    | with_reducible assumption | with_reducible apply State.feHolds_keeps

theorem State.feZc_keeps {s : State} {stamp : Nat} (hs : Keeps k0 s) : Keeps k0 (State.feZc s stamp) := by
  unfold State.feZc
  try (conv => zeta)
  repeat' first
    | with_reducible assumption | with_reducible apply State.feEvent_keeps | with_reducible apply State.feHolds_keeps
    | with_reducible apply State.irq_keeps | with_reducible apply State.mainsLost_keeps | with_reducible apply State.setFe_keeps
    | with_reducible apply Keeps.ite

theorem State.feCycle_keeps {s : State} {p m m0 start stamp : Nat} (hs : Keeps k0 s) : Keeps k0 (State.feCycle s p m m0 start stamp) := by
  unfold State.feCycle
  try (conv => zeta)
  repeat' first
    | with_reducible assumption | with_reducible apply State.feEvent_keeps | with_reducible apply State.feHolds_keeps
    | with_reducible apply State.feJudge_keeps | with_reducible apply State.feZc_keeps | with_reducible apply State.irq_keeps
    | with_reducible apply State.mainsCycle_keeps | with_reducible apply State.setFe_keeps | with_reducible apply State.setFePhase_keeps
    | with_reducible apply Keeps.ite | split

theorem State.feRise_keeps {s : State} {stamp p : Nat} (hs : Keeps k0 s) : Keeps k0 (State.feRise s stamp p) := by
  unfold State.feRise
  try (conv => zeta)
  repeat' first
    | with_reducible assumption | with_reducible apply State.feCycle_keeps | with_reducible apply State.setFePhase_keeps
    | with_reducible apply Keeps.ite | split

theorem State.feMissing_keeps {s : State} {p : Nat} (hs : Keeps k0 s) : Keeps k0 (State.feMissing s p) := by
  unfold State.feMissing
  try (conv => zeta)
  repeat' first
    | with_reducible assumption | with_reducible apply State.feHolds_keeps | with_reducible apply State.setFePhase_keeps
    | with_reducible apply Keeps.ite | split

theorem State.feSwitch_keeps {s : State} (hs : Keeps k0 s) : Keeps k0 (State.feSwitch s) := by
  unfold State.feSwitch
  try (conv => zeta)
  repeat' first
    | with_reducible assumption | with_reducible apply State.setFe_keeps | with_reducible apply Keeps.ite

theorem State.showBlock_keeps {s : State} {b : FeBlk} {len : Nat} (hs : Keeps k0 s) : Keeps k0 (State.showBlock s b len) := by
  unfold State.showBlock
  try (conv => zeta)
  repeat' first
    | with_reducible assumption | (with_reducible apply Keeps.foldl) <;> (try (intro x a hx; try beta_reduce; try (conv => zeta)))
    | with_reducible apply State.setReg_keeps

theorem State.endBlock_keeps {s : State} {stop stamp : Nat} {short : Bool} (hs : Keeps k0 s) : Keeps k0 (State.endBlock s stop stamp short) := by
  unfold State.endBlock
  try (conv => zeta)
  repeat' first
    | with_reducible assumption | with_reducible apply State.feBlock_keeps | with_reducible apply State.feSwitch_keeps
    | with_reducible apply State.setFe_keeps | with_reducible apply State.showBlock_keeps

theorem State.feEdge_keeps {s : State} {stamp : Nat} (hs : Keeps k0 s) : Keeps k0 (State.feEdge s stamp) := by
  unfold State.feEdge
  try (conv => zeta)
  repeat' first
    | with_reducible assumption | with_reducible apply State.endBlock_keeps | with_reducible apply State.setFe_keeps | with_reducible apply Keeps.ite
    | split

theorem State.feOver_keeps {s : State} {x : FeSample} {stamp : Nat} (hs : Keeps k0 s) : Keeps k0 (State.feOver s x stamp) := by
  unfold State.feOver
  try (conv => zeta)
  repeat' first
    | with_reducible assumption | (with_reducible apply Keeps.foldl) <;> (try (intro x a hx; try beta_reduce; try (conv => zeta)))
    | with_reducible apply State.feEvent_keeps | with_reducible apply State.irq_keeps | with_reducible apply State.setFe_keeps
    | with_reducible apply Keeps.ite

theorem State.feAdd_keeps {s : State} (hs : Keeps k0 s) : Keeps k0 (State.feAdd s) := by
  unfold State.feAdd
  try (conv => zeta)
  repeat' first
    | with_reducible assumption | with_reducible apply State.setFe_keeps

theorem State.putCond_keeps {s : State} {c : Nat} {on : Bool} (hs : Keeps k0 s) : Keeps k0 (State.putCond s c on) := by
  unfold State.putCond
  try (conv => zeta)
  repeat' first
    | with_reducible assumption | with_reducible apply State.setFe_keeps | with_reducible apply State.setFePhase_keeps
    | with_reducible apply Keeps.ite

theorem State.feCond_keeps {s : State} {stamp c : Nat} (hs : Keeps k0 s) : Keeps k0 (State.feCond s stamp c) := by
  unfold State.feCond
  try (conv => zeta)
  repeat' first
    | with_reducible assumption | with_reducible apply State.feEvent_keeps | with_reducible apply State.irq_keeps
    | with_reducible apply State.putCond_keeps | with_reducible apply State.setFe_keeps | with_reducible apply Keeps.ite

theorem State.feClock_keeps {s : State} (hs : Keeps k0 s) : Keeps k0 (State.feClock s) := by
  unfold State.feClock
  try (conv => zeta)
  repeat' first
    | with_reducible assumption | with_reducible apply State.setFe_keeps | with_reducible apply State.until_keeps

theorem State.feCross_keeps {s : State} {stamp : Nat} (hs : Keeps k0 s) : Keeps k0 (State.feCross s stamp) := by
  unfold State.feCross
  try (conv => zeta)
  repeat' first
    | with_reducible assumption | (with_reducible apply Keeps.foldl) <;> (try (intro x a hx; try beta_reduce; try (conv => zeta)))
    | with_reducible apply State.feMissing_keeps | with_reducible apply State.feRise_keeps | with_reducible apply State.feZc_keeps

theorem State.feRest_keeps {s : State} {x : FeSample} {stamp : Nat} (hs : Keeps k0 s) : Keeps k0 (State.feRest s x stamp) := by
  unfold State.feRest
  try (conv => zeta)
  repeat' first
    | with_reducible assumption | (with_reducible apply Keeps.foldl) <;> (try (intro x a hx; try beta_reduce; try (conv => zeta)))
    | with_reducible apply State.feAdd_keeps | with_reducible apply State.feCond_keeps | with_reducible apply State.feOver_keeps

theorem State.feSample_keeps {s : State} {x : FeSample} (hs : Keeps k0 s) : Keeps k0 (State.feSample s x) := by
  unfold State.feSample
  try (conv => zeta)
  repeat' first
    | with_reducible assumption | with_reducible apply State.feClock_keeps | with_reducible apply State.feCross_keeps
    | with_reducible apply State.feEdge_keeps | with_reducible apply State.feRest_keeps | with_reducible apply State.feTake_keeps
    | with_reducible apply Keeps.ite

theorem State.feRun_keeps {stop : State → State → Bool} {p0 : List FeSample} {p1 : State} (hp1 : Keeps k0 p1) : Keeps k0 (State.feRun stop p0 p1)
    := by
  induction p0 generalizing p1 with
  | nil =>
    unfold State.feRun
    try (conv => zeta)
    repeat' first
      | with_reducible assumption
  | cons a r ih =>
    unfold State.feRun
    try (conv => zeta)
    repeat' first
      | with_reducible assumption | apply ih | with_reducible apply State.feSample_keeps | with_reducible apply Keeps.ite

theorem execFeederBlockEnd_keeps {xs : List FeSample} {s : State} (hs : Keeps k0 s) : KeepsO k0 (execFeederBlockEnd xs s) := by
  unfold execFeederBlockEnd
  try (conv => zeta)
  repeat' first
    | with_reducible assumption | with_reducible apply KeepsO.next | with_reducible apply State.feRun_keeps

theorem execFeederCycle_keeps {p : Fin 3} {xs : List FeSample} {s : State} (hs : Keeps k0 s) : KeepsO k0 (execFeederCycle p xs s) := by
  unfold execFeederCycle
  try (conv => zeta)
  repeat' first
    | with_reducible assumption | with_reducible apply KeepsO.next | with_reducible apply State.feRun_keeps

theorem execNoZc_keeps {xs : List FeSample} {s : State} (hs : Keeps k0 s) : KeepsO k0 (execNoZc xs s) := by
  unfold execNoZc
  try (conv => zeta)
  repeat' first
    | with_reducible assumption | with_reducible apply KeepsO.next | with_reducible apply State.feRun_keeps

theorem execTamperCondition_keeps {c : Fin 5} {xs : List FeSample} {s : State} (hs : Keeps k0 s) : KeepsO k0 (execTamperCondition c xs s) := by
  unfold execTamperCondition
  try (conv => zeta)
  repeat' first
    | with_reducible assumption | with_reducible apply KeepsO.next | with_reducible apply State.feRun_keeps

theorem execSettlingEnd_keeps {xs : List FeSample} {s : State} (hs : Keeps k0 s) : KeepsO k0 (execSettlingEnd xs s) := by
  unfold execSettlingEnd
  try (conv => zeta)
  repeat' first
    | with_reducible assumption | with_reducible apply KeepsO.next | with_reducible apply State.feRun_keeps

theorem State.workKey_keeps {k : Key} {j p0 : Nat} {p1 : State} (hp1 : Keeps k0 p1) : Keeps k0 (State.workKey k j p0 p1) := by
  induction p0 generalizing p1 with
  | zero =>
    unfold State.workKey
    try (conv => zeta)
    repeat' first
      | with_reducible assumption
  | succ n ih =>
    unfold State.workKey
    try (conv => zeta)
    repeat' first
      | with_reducible assumption | apply ih | with_reducible apply State.commitHead_keeps | with_reducible apply State.dispatchAll_keeps
      | with_reducible apply State.journalDraw_keeps | with_reducible apply Keeps.ite | split

theorem State.takeItems_keeps {n p0 : Nat} {p1 : State} (hp1 : Keeps k0 p1) : Keeps k0 (State.takeItems n p0 p1) := by
  induction p0 generalizing p1 with
  | zero =>
    unfold State.takeItems
    try (conv => zeta)
    repeat' first
      | with_reducible assumption
  | succ n ih =>
    unfold State.takeItems
    try (conv => zeta)
    repeat' first
      | with_reducible assumption | apply ih | with_reducible refine State.ringTake_keeps_eq ?_ (by assumption)
      | with_reducible apply State.takeItem_keeps | with_reducible apply Keeps.ite | split

theorem State.giveCommand_keeps {s : State} {src code target : Nat} {body : Bytes} (hs : Keeps k0 s) : Keeps k0 (State.giveCommand s src code
    target body) := by
  unfold State.giveCommand
  try (conv => zeta)
  repeat' first
    | with_reducible assumption | (with_reducible apply Keeps.foldl) <;> (try (intro x a hx; try beta_reduce; try (conv => zeta)))
    | with_reducible apply State.dispatchAll_keeps | with_reducible apply State.offer_keeps | with_reducible apply State.takeItems_keeps
    | with_reducible apply State.workKey_keeps | split

theorem State.giveSecurity_keeps {s : State} {src code : Nat} {sig : Bytes} (hs : Keeps k0 s) : Keeps k0 (State.giveSecurity s src code sig) := by
  unfold State.giveSecurity
  try (conv => zeta)
  repeat' first
    | with_reducible assumption | with_reducible apply State.directCommand_keeps | with_reducible apply State.giveCommand_keeps
    | with_reducible apply State.holdCommand_keeps | with_reducible apply Keeps.ite

theorem execRosterAdd_keeps {src : Nat} {i : Fin 131072} {eui cls med grp : Nat} {wkey : Bytes} {s : State} (hs : Keeps k0 s) : KeepsO k0
    (execRosterAdd src i eui cls med grp wkey s) := by
  unfold execRosterAdd
  try (conv => zeta)
  repeat' first
    | with_reducible assumption | with_reducible apply KeepsO.next | with_reducible apply State.giveCommand_keeps

theorem execRosterDecom_keeps {src : Nat} {i : Fin 131072} {s : State} (hs : Keeps k0 s) : KeepsO k0 (execRosterDecom src i s) := by
  unfold execRosterDecom
  try (conv => zeta)
  repeat' first
    | with_reducible assumption | with_reducible apply KeepsO.next | with_reducible apply State.giveCommand_keeps

theorem execRosterRelease_keeps {src : Nat} {i : Fin 131072} {s : State} (hs : Keeps k0 s) : KeepsO k0 (execRosterRelease src i s) := by
  unfold execRosterRelease
  try (conv => zeta)
  repeat' first
    | with_reducible assumption | with_reducible apply KeepsO.next | with_reducible apply State.giveCommand_keeps

theorem execRosterSet_keeps {src : Nat} {i : Fin 131072} {cls grp : Nat} {s : State} (hs : Keeps k0 s) : KeepsO k0 (execRosterSet src i cls grp s)
    := by
  unfold execRosterSet
  try (conv => zeta)
  repeat' first
    | with_reducible assumption | with_reducible apply KeepsO.next | with_reducible apply State.giveCommand_keeps

theorem execCloseNow_keeps {src : Nat} {s : State} (hs : Keeps k0 s) : KeepsO k0 (execCloseNow src s) := by
  unfold execCloseNow
  try (conv => zeta)
  repeat' first
    | with_reducible assumption | with_reducible apply KeepsO.next | with_reducible apply State.giveCommand_keeps

theorem execReadout_keeps {src : Nat} {s : State} (hs : Keeps k0 s) : KeepsO k0 (execReadout src s) := by
  unfold execReadout
  try (conv => zeta)
  repeat' first
    | with_reducible assumption | with_reducible apply KeepsO.next | with_reducible apply State.giveCommand_keeps

theorem execCmdCkptNow_keeps {src : Nat} {s : State} (hs : Keeps k0 s) : KeepsO k0 (execCmdCkptNow src s) := by
  unfold execCmdCkptNow
  try (conv => zeta)
  repeat' first
    | with_reducible assumption | with_reducible apply KeepsO.next | with_reducible apply State.giveCommand_keeps

theorem execHoldEnd_keeps {src : Nat} {s : State} (hs : Keeps k0 s) : KeepsO k0 (execHoldEnd src s) := by
  unfold execHoldEnd
  try (conv => zeta)
  repeat' first
    | with_reducible assumption | with_reducible apply KeepsO.next | with_reducible apply State.giveCommand_keeps

theorem execTimeSet_keeps {src time : Nat} {s : State} (hs : Keeps k0 s) : KeepsO k0 (execTimeSet src time s) := by
  unfold execTimeSet
  try (conv => zeta)
  repeat' first
    | with_reducible assumption | with_reducible apply KeepsO.next | with_reducible apply State.giveCommand_keeps

theorem execMeterSet_keeps {src sel pga0 pga1 pga2 pga3 : Nat} {s : State} (hs : Keeps k0 s) : KeepsO k0 (execMeterSet src sel pga0 pga1 pga2 pga3
    s) := by
  unfold execMeterSet
  try (conv => zeta)
  repeat' first
    | with_reducible assumption | with_reducible apply KeepsO.next | with_reducible apply State.giveCommand_keeps

theorem execPush_keeps {src : Nat} {i : Fin 131072} {id att dtype : Nat} {payload : Bytes} {s : State} (hs : Keeps k0 s) : KeepsO k0 (execPush src
    i id att dtype payload s) := by
  unfold execPush
  try (conv => zeta)
  repeat' first
    | with_reducible assumption | with_reducible apply KeepsO.next | with_reducible apply State.giveCommand_keeps

theorem execFwDeclare_keeps {src image blocks length : Nat} {digest : Bytes} {mask : Nat} {s : State} (hs : Keeps k0 s) : KeepsO k0 (execFwDeclare
    src image blocks length digest mask s) := by
  unfold execFwDeclare
  try (conv => zeta)
  repeat' first
    | with_reducible assumption | with_reducible apply KeepsO.next | with_reducible apply State.giveCommand_keeps

theorem execFwLoad_keeps {src image block : Nat} {data : Bytes} {s : State} (hs : Keeps k0 s) : KeepsO k0 (execFwLoad src image block data s) := by
  unfold execFwLoad
  try (conv => zeta)
  repeat' first
    | with_reducible assumption | with_reducible apply KeepsO.next | with_reducible apply State.giveCommand_keeps

theorem execFwSend_keeps {src image round med first last ttl : Nat} {s : State} (hs : Keeps k0 s) : KeepsO k0 (execFwSend src image round med first
    last ttl s) := by
  unfold execFwSend
  try (conv => zeta)
  repeat' first
    | with_reducible assumption | with_reducible apply KeepsO.next | with_reducible apply State.giveCommand_keeps

theorem execFwDelete_keeps {src image : Nat} {s : State} (hs : Keeps k0 s) : KeepsO k0 (execFwDelete src image s) := by
  unfold execFwDelete
  try (conv => zeta)
  repeat' first
    | with_reducible assumption | with_reducible apply KeepsO.next | with_reducible apply State.giveCommand_keeps

theorem execKeyRoll_keeps {src purpose : Nat} {s : State} (hs : Keeps k0 s) : KeepsO k0 (execKeyRoll src purpose s) := by
  unfold execKeyRoll
  try (conv => zeta)
  repeat' first
    | with_reducible assumption | with_reducible apply KeepsO.next | with_reducible apply State.giveCommand_keeps

theorem execCommission_keeps {src : Nat} {sig : Bytes} {s : State} (hs : Keeps k0 s) : KeepsO k0 (execCommission src sig s) := by
  unfold execCommission
  try (conv => zeta)
  repeat' first
    | with_reducible assumption | with_reducible apply KeepsO.next | with_reducible apply State.giveSecurity_keeps

theorem execLcField_keeps {src : Nat} {sig : Bytes} {s : State} (hs : Keeps k0 s) : KeepsO k0 (execLcField src sig s) := by
  unfold execLcField
  try (conv => zeta)
  repeat' first
    | with_reducible assumption | with_reducible apply KeepsO.next | with_reducible apply State.giveSecurity_keeps

theorem execLcReturn_keeps {src : Nat} {sig : Bytes} {s : State} (hs : Keeps k0 s) : KeepsO k0 (execLcReturn src sig s) := by
  unfold execLcReturn
  try (conv => zeta)
  repeat' first
    | with_reducible assumption | with_reducible apply KeepsO.next | with_reducible apply State.giveSecurity_keeps

theorem execLcScrap_keeps {src : Nat} {sig : Bytes} {s : State} (hs : Keeps k0 s) : KeepsO k0 (execLcScrap src sig s) := by
  unfold execLcScrap
  try (conv => zeta)
  repeat' first
    | with_reducible assumption | with_reducible apply KeepsO.next | with_reducible apply State.giveSecurity_keeps

theorem execRearm_keeps {src : Nat} {sig : Bytes} {s : State} (hs : Keeps k0 s) : KeepsO k0 (execRearm src sig s) := by
  unfold execRearm
  try (conv => zeta)
  repeat' first
    | with_reducible assumption | with_reducible apply KeepsO.next | with_reducible apply State.giveSecurity_keeps

theorem State.mainsCheck_keeps {s : State} (hs : Keeps k0 s) : Keeps k0 (State.mainsCheck s) := by
  unfold State.mainsCheck
  try (conv => zeta)
  repeat' first
    | with_reducible assumption | with_reducible apply State.mainsLost_keeps | with_reducible apply Keeps.ite

theorem execZcEdge_keeps {dt : Nat} {phase : Fin 3} {rising : Bool} {heard : PulseEnergy} {s : State} (hs : Keeps k0 s) : KeepsO k0 (execZcEdge dt
    phase rising heard s) := by
  unfold execZcEdge
  try (conv => zeta)
  repeat' first
    | with_reducible assumption | with_reducible apply KeepsO.next | with_reducible apply State.advance_keeps
    | with_reducible apply State.mainsCheck_keeps | with_reducible apply State.mainsCycle_keeps | with_reducible apply State.noteCoinc_keeps
    | with_reducible apply State.plcHear_keeps | with_reducible apply State.plcSymbol_keeps | with_reducible apply State.scoreCrossing_keeps
    | with_reducible apply State.setPhase_keeps | with_reducible apply State.setReg_keeps | with_reducible apply Keeps.ite
    | with_reducible apply KeepsO.ite | split

theorem execZcMissingCrossing_keeps {phase : Fin 3} {heard : PulseEnergy} {s : State} (hs : Keeps k0 s) : KeepsO k0 (execZcMissingCrossing phase
    heard s) := by
  unfold execZcMissingCrossing
  try (conv => zeta)
  repeat' first
    | with_reducible assumption | with_reducible apply KeepsO.next | with_reducible apply State.mainsCheck_keeps
    | with_reducible apply State.noteCoinc_keeps | with_reducible apply State.plcHear_keeps | with_reducible apply State.plcSymbol_keeps
    | with_reducible apply State.scoreCrossing_keeps | with_reducible apply State.setPhase_keeps | with_reducible apply State.untilDev_keeps
    | with_reducible apply KeepsO.ite | split

theorem execPlcFrameReceive_keeps {dt : Nat} {phase : Fin 3} {heard : List PulseEnergy} {s : State} (hs : Keeps k0 s) : KeepsO k0
    (execPlcFrameReceive dt phase heard s) := by
  unfold execPlcFrameReceive
  try (conv => zeta)
  repeat' first
    | with_reducible assumption | with_reducible apply KeepsO.next | with_reducible apply State.advance_keeps
    | with_reducible apply State.count_keeps | with_reducible apply State.plcCheck_keeps | with_reducible apply State.setPhase_keeps
    | with_reducible apply State.setPlc_keeps | with_reducible apply KeepsO.ite | split

theorem execPlcShortAckSend_keeps {phase : Fin 3} {s : State} (hs : Keeps k0 s) : KeepsO k0 (execPlcShortAckSend phase s) := by
  unfold execPlcShortAckSend
  try (conv => zeta)
  repeat' first
    | with_reducible assumption | with_reducible apply KeepsO.next | with_reducible apply State.count_keeps | with_reducible apply State.emit_keeps
    | with_reducible apply State.plcSymbol_keeps | with_reducible apply State.setPhase_keeps | with_reducible apply State.setPlc_keeps
    | with_reducible apply KeepsO.ite | split

theorem execPlcShortAckReceive_keeps {dt : Nat} {phase : Fin 3} {heard : List PulseEnergy} {s : State} (hs : Keeps k0 s) : KeepsO k0
    (execPlcShortAckReceive dt phase heard s) := by
  unfold execPlcShortAckReceive
  try (conv => zeta)
  repeat' first
    | with_reducible assumption | with_reducible apply KeepsO.next | with_reducible apply State.advance_keeps
    | with_reducible apply State.setPhase_keeps | with_reducible apply State.setPlc_keeps | with_reducible apply KeepsO.ite

theorem execPlcAckTimeout_keeps {phase : Fin 3} {s : State} (hs : Keeps k0 s) : KeepsO k0 (execPlcAckTimeout phase s) := by
  unfold execPlcAckTimeout
  try (conv => zeta)
  repeat' first
    | with_reducible assumption | with_reducible apply KeepsO.next | with_reducible apply State.count_keeps | with_reducible apply State.setPlc_keeps
    | with_reducible apply KeepsO.ite | split

theorem State.plcSend_keeps {s : State} {p : Nat} {f : PlcTx} (hs : Keeps k0 s) : Keeps k0 (State.plcSend s p f) := by
  unfold State.plcSend
  try (conv => zeta)
  repeat' first
    | with_reducible assumption | with_reducible apply State.emit_keeps | with_reducible apply State.plcSymbol_keeps
    | with_reducible apply State.setPhase_keeps | with_reducible apply State.setPlc_keeps | with_reducible apply Keeps.ite | split

theorem execPlcContend_keeps {phase : Fin 3} {r : Fin 8} {s : State} (hs : Keeps k0 s) : KeepsO k0 (execPlcContend phase r s) := by
  unfold execPlcContend
  try (conv => zeta)
  repeat' first
    | with_reducible assumption | with_reducible apply KeepsO.next | with_reducible apply State.plcSend_keeps
    | with_reducible apply State.setPhase_keeps | with_reducible apply KeepsO.ite | split

theorem execPlcBeacon_keeps {s : State} (hs : Keeps k0 s) : KeepsO k0 (execPlcBeacon s) := by
  unfold execPlcBeacon
  try (conv => zeta)
  repeat' first
    | with_reducible assumption | with_reducible apply KeepsO.next | with_reducible apply State.plcQueue_keeps
    | with_reducible apply State.setFld_keeps | with_reducible apply State.setPlc_keeps | with_reducible apply State.until_keeps
    | with_reducible apply KeepsO.ite

theorem execPlcDownNoack_keeps {s : State} (hs : Keeps k0 s) : KeepsO k0 (execPlcDownNoack s) := by
  unfold execPlcDownNoack
  try (conv => zeta)
  repeat' first
    | with_reducible assumption | with_reducible apply KeepsO.next | with_reducible apply State.notice_keeps
    | with_reducible apply State.setPlc_keeps | with_reducible apply State.until_keeps | split

theorem execPlcDownExpired_keeps {s : State} (hs : Keeps k0 s) : KeepsO k0 (execPlcDownExpired s) := by
  unfold execPlcDownExpired
  try (conv => zeta)
  repeat' first
    | with_reducible assumption | with_reducible apply KeepsO.next | with_reducible apply State.notice_keeps
    | with_reducible apply State.setPlc_keeps | with_reducible apply State.until_keeps | split

theorem State.plcPacket_keeps {s : State} {ty : Nat} (hs : Keeps k0 s) : Keeps k0 (State.plcPacket s ty).2 := by
  unfold State.plcPacket
  try (conv => zeta)
  repeat' first
    | with_reducible assumption | with_reducible apply State.count_keeps | with_reducible apply State.ringTake_keeps
    | with_reducible apply Keeps.iteSnd | split

theorem State.plcPacket_keeps_eq {s : State} {ty : Nat} {y0 : Option (List Word)} {y1 : State} (hs : Keeps k0 s) (heq0 : State.plcPacket s ty =
    (y0, y1)) : Keeps k0 y1 := by
  have hh := State.plcPacket_keeps (k0 := k0) (s := s) (ty := ty) hs
  rw [heq0] at hh; exact hh

theorem State.routeFail_keeps {s : State} {i push : Nat} (hs : Keeps k0 s) : Keeps k0 (State.routeFail s i push) := by
  unfold State.routeFail
  try (conv => zeta)
  repeat' first
    | with_reducible assumption | with_reducible apply State.count_keeps | with_reducible apply State.irq_keeps
    | with_reducible apply State.notice_keeps

theorem execPlcTxDown_keeps {s : State} (hs : Keeps k0 s) : KeepsO k0 (execPlcTxDown s) := by
  unfold execPlcTxDown
  try (conv => zeta)
  repeat' first
    | with_reducible assumption | with_reducible apply KeepsO.next | with_reducible apply State.irq_keeps
    | with_reducible refine State.plcPacket_keeps_eq ?_ (by assumption) | with_reducible apply State.plcQueue_keeps
    | with_reducible apply State.ringTake_keeps | with_reducible apply State.routeFail_keeps | with_reducible apply State.setPlc_keeps
    | with_reducible apply Keeps.ite | with_reducible apply KeepsO.ite | split

theorem execPlcTxCaravan_keeps {s : State} (hs : Keeps k0 s) : KeepsO k0 (execPlcTxCaravan s) := by
  unfold execPlcTxCaravan
  try (conv => zeta)
  repeat' first
    | with_reducible assumption | with_reducible apply KeepsO.next | with_reducible refine State.plcPacket_keeps_eq ?_ (by assumption)
    | with_reducible apply State.plcQueue_keeps | with_reducible apply State.ringTake_keeps | with_reducible apply State.setPlc_keeps
    | with_reducible apply KeepsO.ite | split

theorem execPlcTxReq_keeps {s : State} (hs : Keeps k0 s) : KeepsO k0 (execPlcTxReq s) := by
  unfold execPlcTxReq
  try (conv => zeta)
  repeat' first
    | with_reducible assumption | with_reducible apply KeepsO.next | with_reducible refine State.plcPacket_keeps_eq ?_ (by assumption)
    | with_reducible apply State.plcQueue_keeps | with_reducible apply State.ringTake_keeps | with_reducible apply State.routeFail_keeps | split

theorem State.recAnswer_keeps {s : State} {op status : Nat} {data : Bytes} (hs : Keeps k0 s) : Keeps k0 (State.recAnswer s op status data) := by
  unfold State.recAnswer
  try (conv => zeta)
  repeat' first
    | with_reducible assumption | with_reducible apply State.emit_keeps

theorem State.ptAnswer_keeps {s : State} (hs : Keeps k0 s) : Keeps k0 (State.ptAnswer s).2 := by
  unfold State.ptAnswer
  try (conv => zeta)
  repeat' first
    | with_reducible assumption | with_reducible apply State.free_keeps | split

theorem execStatus_keeps {s : State} (hs : Keeps k0 s) : KeepsO k0 (execStatus s) := by
  unfold execStatus
  try (conv => zeta)
  repeat' first
    | with_reducible assumption | with_reducible apply KeepsO.next | with_reducible apply State.ptAnswer_keeps
    | with_reducible apply State.recAnswer_keeps | with_reducible apply KeepsO.ite

theorem State.noteErased_keeps {s : State} {part off n : Nat} (hs : Keeps k0 s) : Keeps k0 (State.noteErased s part off n) := by
  unfold State.noteErased
  try (conv => zeta)
  repeat' first
    | with_reducible assumption | with_reducible apply State.setBoot_keeps

theorem execWriteFw_keeps {slot off : Nat} {data : Bytes} {s : State} (hs : Keeps k0 s) : KeepsO k0 (execWriteFw slot off data s) := by
  unfold execWriteFw
  try (conv => zeta)
  repeat' first
    | with_reducible assumption | with_reducible apply KeepsO.next | with_reducible apply State.noteErased_keeps
    | with_reducible apply State.recAnswer_keeps | with_reducible apply State.setNor_keeps | with_reducible apply KeepsO.ite

theorem execWriteCfg_keeps {off : Nat} {data : Bytes} {s : State} (hs : Keeps k0 s) : KeepsO k0 (execWriteCfg off data s) := by
  unfold execWriteCfg
  try (conv => zeta)
  repeat' first
    | with_reducible assumption | with_reducible apply KeepsO.next | with_reducible apply State.noteErased_keeps
    | with_reducible apply State.recAnswer_keeps | with_reducible apply State.setNor_keeps | with_reducible apply KeepsO.ite

theorem execCommitFw_keeps {slot : Nat} {s : State} (hs : Keeps k0 s) : KeepsO k0 (execCommitFw slot s) := by
  unfold execCommitFw
  try (conv => zeta)
  repeat' first
    | with_reducible assumption | with_reducible apply KeepsO.next | with_reducible apply State.recAnswer_keeps
    | with_reducible apply State.setBoot_keeps | with_reducible apply State.setNor_keeps | with_reducible apply Keeps.ite
    | with_reducible apply KeepsO.ite

theorem execCheckCfg_keeps {s : State} (hs : Keeps k0 s) : KeepsO k0 (execCheckCfg s) := by
  unfold execCheckCfg
  try (conv => zeta)
  repeat' first
    | with_reducible assumption | with_reducible apply KeepsO.next | with_reducible apply State.recAnswer_keeps | with_reducible apply KeepsO.ite

theorem execRestart_keeps {s : State} (hs : Keeps k0 s) : KeepsO k0 (execRestart s) := by
  unfold execRestart
  try (conv => zeta)
  repeat' first
    | with_reducible assumption | with_reducible apply KeepsO.next | with_reducible apply State.free_keeps
    | with_reducible apply State.mainReset_keeps | with_reducible apply State.recAnswer_keeps | with_reducible apply KeepsO.ite

theorem State.recoveryCommand_keeps {k0 s x : State} {code : Nat} {sig : Bytes} (hx : Keeps k0 x) :
    Keeps k0 ((s.recoveryCommand code sig).2 x) := State.directCommand_keeps hx

theorem execLcCmd_keeps {block : Bytes} {s : State} (hs : Keeps k0 s) : KeepsO k0 (execLcCmd block s) := by
  unfold execLcCmd
  try (conv => zeta)
  repeat' first
    | with_reducible assumption | with_reducible apply KeepsO.next | with_reducible apply State.holdCommand_keeps
    | with_reducible apply State.recAnswer_keeps | with_reducible apply State.recoveryCommand_keeps | with_reducible apply KeepsO.ite

theorem State.portWrite_keeps {s : State} {p : Port} {n : Nat} {op : RingOp} (hs : Keeps k0 s) : Keeps k0 (State.portWrite s p n op) := by
  unfold State.portWrite
  try (conv => zeta)
  repeat' first
    | with_reducible assumption | with_reducible apply State.answer_keeps | with_reducible apply State.busErr_keeps
    | with_reducible apply State.ringPort_keeps | with_reducible apply Keeps.ite | split

theorem execQfOpen_keeps {p : Port} {ring : Fin 16} {s : State} (hs : Keeps k0 s) : KeepsO k0 (execQfOpen p ring s) := by
  unfold execQfOpen
  try (conv => zeta)
  repeat' first
    | with_reducible assumption | with_reducible apply KeepsO.next | with_reducible apply State.portWrite_keeps

theorem execQfPush_keeps {p : Port} {ring : Fin 16} {v : Word} {s : State} (hs : Keeps k0 s) : KeepsO k0 (execQfPush p ring v s) := by
  unfold execQfPush
  try (conv => zeta)
  repeat' first
    | with_reducible assumption | with_reducible apply KeepsO.next | with_reducible apply State.portWrite_keeps

theorem execQfClose_keeps {p : Port} {ring : Fin 16} {v : Word} {s : State} (hs : Keeps k0 s) : KeepsO k0 (execQfClose p ring v s) := by
  unfold execQfClose
  try (conv => zeta)
  repeat' first
    | with_reducible assumption | with_reducible apply KeepsO.next | with_reducible apply State.portWrite_keeps

theorem execQfPop_keeps {p : Port} {ring : Fin 16} {s : State} (hs : Keeps k0 s) : KeepsO k0 (execQfPop p ring s) := by
  unfold execQfPop
  try (conv => zeta)
  repeat' first
    | with_reducible assumption | with_reducible apply KeepsO.next | with_reducible apply State.answer_keeps
    | with_reducible apply State.busErr_keeps | with_reducible apply State.ringPop_keeps | with_reducible apply KeepsO.ite | split

theorem State.portDrop_keeps {s : State} {p : Port} {n : Nat} (hs : Keeps k0 s) : Keeps k0 (State.portDrop s p n) := by
  unfold State.portDrop
  try (conv => zeta)
  repeat' first
    | with_reducible assumption | with_reducible apply State.answer_keeps | with_reducible apply State.busErr_keeps
    | with_reducible apply State.ringDropRest_keeps | with_reducible apply Keeps.ite | split

theorem execQfDrop_keeps {p : Port} {ring : Fin 16} {s : State} (hs : Keeps k0 s) : KeepsO k0 (execQfDrop p ring s) := by
  unfold execQfDrop
  try (conv => zeta)
  repeat' first
    | with_reducible assumption | with_reducible apply KeepsO.next | with_reducible apply State.portDrop_keeps

theorem State.evDrain_keeps {e p0 : Nat} {p1 : State} (hp1 : Keeps k0 p1) : Keeps k0 (State.evDrain e p0 p1) := by
  induction p0 generalizing p1 with
  | zero =>
    unfold State.evDrain
    try (conv => zeta)
    repeat' first
      | with_reducible assumption
  | succ n ih =>
    unfold State.evDrain
    try (conv => zeta)
    repeat' first
      | with_reducible assumption | apply ih | fail_if_no_progress (with_reducible apply Keeps.upd) | with_reducible apply State.offer_keeps
      | with_reducible apply Keeps.ite | split

theorem execRingStallRelease_keeps {ring : Fin 16} {s : State} (hs : Keeps k0 s) : KeepsO k0 (execRingStallRelease ring s) := by
  unfold execRingStallRelease
  try (conv => zeta)
  repeat' first
    | with_reducible assumption | with_reducible apply KeepsO.next
    | (with_reducible apply Keeps.foldl) <;> (try (intro x a hx; try beta_reduce; try (conv => zeta))) | with_reducible apply State.evDrain_keeps
    | with_reducible apply State.ringDrain_keeps | with_reducible apply KeepsO.ite

theorem execWadiMarkerWrite_keeps {ring : Fin 16} {s : State} (hs : Keeps k0 s) : KeepsO k0 (execWadiMarkerWrite ring s) := by
  unfold execWadiMarkerWrite
  try (conv => zeta)
  repeat' first
    | with_reducible assumption | with_reducible apply KeepsO.next | with_reducible apply State.wadi_keeps

theorem execRingStale_keeps {ring : Fin 16} {s : State} (hs : Keeps k0 s) : KeepsO k0 (execRingStale ring s) := by
  unfold execRingStale
  try (conv => zeta)
  repeat' first
    | with_reducible assumption | with_reducible apply KeepsO.next | with_reducible apply State.event_keeps | with_reducible apply State.irq_keeps
    | with_reducible apply State.setRing_keeps | with_reducible apply State.until_keeps | with_reducible apply KeepsO.ite

theorem State.selectMaster_keeps {s : State} (hs : Keeps k0 s) : Keeps k0 (State.selectMaster s) := by
  unfold State.selectMaster
  try (conv => zeta)
  repeat' first
    | with_reducible assumption | with_reducible apply State.enterAcquire_keeps | with_reducible apply State.enterHoldover_keeps
    | with_reducible apply State.setTim_keeps | with_reducible apply Keeps.ite | split

theorem execPtpAnnounce_keeps {dt : Nat} {m : AnnounceMsg} {s0 : State} (hs0 : Keeps k0 s0) : KeepsO k0 (execPtpAnnounce dt m s0) := by
  unfold execPtpAnnounce
  try (conv => zeta)
  repeat' first
    | with_reducible assumption | with_reducible apply KeepsO.next | with_reducible apply State.advance_keeps
    | with_reducible apply State.checkUtc_keeps | with_reducible apply State.selectMaster_keeps | with_reducible apply State.setTim_keeps
    | with_reducible apply Keeps.ite | with_reducible apply KeepsO.ite

theorem State.stepRight_keeps {s : State} (hs : Keeps k0 s) : Keeps k0 (State.stepRight s) := by
  unfold State.stepRight
  try (conv => zeta)
  repeat' first
    | with_reducible assumption | with_reducible apply State.endHold_keeps | with_reducible apply State.journalStep_keeps
    | with_reducible apply State.setTim_keeps | with_reducible apply State.stepTime_keeps | with_reducible apply Keeps.ite

theorem execPtpSync_keeps {dt src : Nat} {port : Fin 3} {origin : Int} {s0 : State} (hs0 : Keeps k0 s0) : KeepsO k0 (execPtpSync dt src port origin
    s0) := by
  unfold execPtpSync
  try (conv => zeta)
  repeat' first
    | with_reducible assumption | with_reducible apply KeepsO.next | with_reducible apply State.advance_keeps
    | with_reducible apply State.checkUtc_keeps | with_reducible apply State.count_keeps | with_reducible apply State.event_keeps
    | with_reducible apply State.irq_keeps | with_reducible apply State.selectMaster_keeps | with_reducible apply State.setRate_keeps
    | with_reducible apply State.setReg_keeps | with_reducible apply State.setTim_keeps | with_reducible apply State.stepRight_keeps
    | with_reducible apply Keeps.ite | with_reducible apply KeepsO.ite

theorem execPtpDelayExchange_keeps {dt : Nat} {port : Fin 3} {t1 t2 t3 t4 : Int} {s0 : State} (hs0 : Keeps k0 s0) : KeepsO k0 (execPtpDelayExchange
    dt port t1 t2 t3 t4 s0) := by
  unfold execPtpDelayExchange
  try (conv => zeta)
  repeat' first
    | with_reducible assumption | with_reducible apply KeepsO.next | with_reducible apply State.advance_keeps
    | with_reducible apply State.setReg_keeps | with_reducible apply State.setTim_keeps | with_reducible apply KeepsO.ite

theorem execPtpLoss_keeps {s : State} (hs : Keeps k0 s) : KeepsO k0 (execPtpLoss s) := by
  unfold execPtpLoss
  try (conv => zeta)
  repeat' first
    | with_reducible assumption | with_reducible apply KeepsO.next | with_reducible apply State.enterHoldover_keeps
    | with_reducible apply State.setTim_keeps | with_reducible apply State.until_keeps | with_reducible apply KeepsO.ite

theorem execLrateSave_keeps {s : State} (hs : Keeps k0 s) : KeepsO k0 (execLrateSave s) := by
  unfold execLrateSave
  try (conv => zeta)
  repeat' first
    | with_reducible assumption | with_reducible apply KeepsO.next | with_reducible apply State.setReg_keeps
    | with_reducible apply State.setTim_keeps | with_reducible apply State.until_keeps | with_reducible apply Keeps.ite
    | with_reducible apply KeepsO.ite

theorem execTimeStepApply_keeps {s : State} (hs : Keeps k0 s) : KeepsO k0 (execTimeStepApply s) := by
  unfold execTimeStepApply
  try (conv => zeta)
  repeat' first
    | with_reducible assumption | with_reducible apply KeepsO.next | fail_if_no_progress (with_reducible apply Keeps.upd)
    | with_reducible apply State.applyStep_keeps | with_reducible apply State.untilDev_keeps | with_reducible apply KeepsO.ite | split

theorem execLeapInstant_keeps {s : State} (hs : Keeps k0 s) : KeepsO k0 (execLeapInstant s) := by
  unfold execLeapInstant
  try (conv => zeta)
  repeat' first
    | with_reducible assumption | with_reducible apply KeepsO.next | with_reducible apply State.setReg_keeps
    | with_reducible apply State.untilDev_keeps | with_reducible apply Keeps.ite | split

theorem execRegressedEnd_keeps {s : State} (hs : Keeps k0 s) : KeepsO k0 (execRegressedEnd s) := by
  unfold execRegressedEnd
  try (conv => zeta)
  repeat' first
    | with_reducible assumption | with_reducible apply KeepsO.next | fail_if_no_progress (with_reducible apply Keeps.upd)
    | with_reducible apply State.releaseHeldPeriod_keeps | with_reducible apply State.untilDev_keeps | with_reducible apply KeepsO.ite

theorem State.oasSecondAt_keeps {s : State} {done : Nat} (hs : Keeps k0 s) : Keeps k0 (State.oasSecondAt s done) := by
  unfold State.oasSecondAt
  try (conv => zeta)
  repeat' first
    | with_reducible assumption | with_reducible apply State.until_keeps | with_reducible apply Keeps.ite

theorem execOasisTrimTick_keeps {temp : Fin 1024} {s0 : State} (hs0 : Keeps k0 s0) : KeepsO k0 (execOasisTrimTick temp s0) := by
  unfold execOasisTrimTick
  try (conv => zeta)
  repeat' first
    | with_reducible assumption | with_reducible apply KeepsO.next | with_reducible apply State.oasSecondAt_keeps
    | with_reducible apply State.setOas_keeps | with_reducible apply State.setReg_keeps | with_reducible apply Keeps.ite

theorem execOasisCalibrate_keeps {s : State} (hs : Keeps k0 s) : KeepsO k0 (execOasisCalibrate s) := by
  unfold execOasisCalibrate
  try (conv => zeta)
  repeat' first
    | with_reducible assumption | with_reducible apply KeepsO.next | with_reducible apply State.oasisCommit_keeps
    | with_reducible apply State.setReg_keeps | with_reducible apply State.setTim_keeps | with_reducible apply State.until_keeps
    | with_reducible apply Keeps.ite | with_reducible apply KeepsO.ite | split

theorem State.oasReach_keeps {k0 s : State} {w : Who} {f : State → State} (hs : Keeps k0 s) (hf : Keeps k0 (f s)) :
    KeepsO k0 (s.oasReach w f) := by
  unfold State.oasReach
  split
  · exact KeepsO.next (State.busErr_keeps hs)
  · exact KeepsO.next hf

theorem execOasTcommit_keeps {w : Who} {s : State} (hs : Keeps k0 s) : KeepsO k0 (execOasTcommit w s) := by
  unfold execOasTcommit
  try (conv => zeta)
  repeat' first
    | with_reducible assumption | with_reducible apply KeepsO.next | with_reducible apply State.answer_keeps
    | with_reducible apply State.busErr_keeps | with_reducible apply State.oasGo_keeps | with_reducible apply State.oasReach_keeps
    | with_reducible apply KeepsO.ite

theorem execOasCommitApply_keeps {s : State} (hs : Keeps k0 s) : KeepsO k0 (execOasCommitApply s) := by
  unfold execOasCommitApply
  try (conv => zeta)
  repeat' first
    | with_reducible assumption | with_reducible apply KeepsO.next | with_reducible apply State.setOas_keeps | with_reducible apply State.until_keeps
    | with_reducible apply State.untilDev_keeps | with_reducible apply Keeps.ite | split

theorem execOasTime0Read_keeps {w : Who} {s : State} (hs : Keeps k0 s) : KeepsO k0 (execOasTime0Read w s) := by
  unfold execOasTime0Read
  try (conv => zeta)
  repeat' first
    | with_reducible assumption | with_reducible apply State.answer_keeps | with_reducible apply State.oasFreeze_keeps
    | with_reducible apply State.oasReach_keeps

theorem execOasTime3Read_keeps {w : Who} {s : State} (hs : Keeps k0 s) : KeepsO k0 (execOasTime3Read w s) := by
  unfold execOasTime3Read
  try (conv => zeta)
  repeat' first
    | with_reducible assumption | with_reducible apply State.answer_keeps | with_reducible apply State.oasReach_keeps
    | with_reducible apply State.oasRelease_keeps

theorem execFreezeTimeout_keeps {w : Who} {s : State} (hs : Keeps k0 s) : KeepsO k0 (execFreezeTimeout w s) := by
  unfold execFreezeTimeout
  try (conv => zeta)
  repeat' first
    | with_reducible assumption | with_reducible apply KeepsO.next | with_reducible apply State.setOas_keeps | with_reducible apply State.until_keeps
    | split

theorem execPpsPulse_keeps {s0 : State} (hs0 : Keeps k0 s0) : KeepsO k0 (execPpsPulse s0) := by
  unfold execPpsPulse
  try (conv => zeta)
  repeat' first
    | with_reducible assumption | with_reducible apply KeepsO.next | with_reducible apply State.emit_keeps
    | with_reducible apply State.oasSecondAt_keeps | with_reducible apply State.setOas_keeps | with_reducible apply KeepsO.ite

theorem State.ctlFire_keeps {s : State} {n p : Nat} (hs : Keeps k0 s) : Keeps k0 (State.ctlFire s n p) := by
  unfold State.ctlFire
  try (conv => zeta)
  repeat' first
    | with_reducible assumption | with_reducible apply State.emit_keeps | with_reducible apply State.setCtl_keeps

theorem execCtlPulse_keeps {n : Fin 8} {s : State} (hs : Keeps k0 s) : KeepsO k0 (execCtlPulse n s) := by
  unfold execCtlPulse
  try (conv => zeta)
  repeat' first
    | with_reducible assumption | with_reducible apply KeepsO.next | with_reducible apply State.ctlFire_keeps
    | with_reducible apply State.ctlSkip_keeps | with_reducible apply State.setCtl_keeps | with_reducible apply State.untilDev_keeps
    | with_reducible apply KeepsO.ite | split

theorem execEvtCapture_keeps {dt : Nat} {e : Fin 4} {rising : Bool} {s0 : State} (hs0 : Keeps k0 s0) : KeepsO k0 (execEvtCapture dt e rising s0) := by
  unfold execEvtCapture
  try (conv => zeta)
  repeat' first
    | with_reducible assumption | with_reducible apply KeepsO.next | with_reducible apply State.advance_keeps
    | with_reducible apply State.count_keeps | with_reducible apply State.irq_keeps | with_reducible apply State.offer_keeps
    | with_reducible apply State.setTim_keeps | with_reducible apply KeepsO.ite

theorem State.ctxPut_keeps {s : State} {off : Nat} {v : Byte} (hs : Keeps k0 s) : Keeps k0 (State.ctxPut s off v) := by
  unfold State.ctxPut
  try (conv => zeta)
  repeat' first
    | with_reducible assumption | with_reducible apply State.setSlot_keeps

theorem State.wramPut_keeps {k0 s : State} {off : Nat} {b : Bytes} (hs : Keeps k0 s) : Keeps k0 (s.wramPut off b) := by
  induction b generalizing s off with
  | nil => exact hs
  | cons x r ih =>
    refine ih (s := { s with wram := ramPut s.wram off x }) ⟨hs.queue, hs.time, hs.sent, fun i => ⟨(hs.inv i).1, ?_, (hs.inv i).2.2⟩⟩
    exact ramPut_wf (hs.inv i).2.1 _ _

theorem State.ctxPutAll_keeps {k0 s : State} {off : Nat} {b : Bytes} (hs : Keeps k0 s) : Keeps k0 (s.ctxPutAll off b) := by
  induction b generalizing s off with
  | nil => exact hs
  | cons x r ih => exact ih (State.ctxPut_keeps hs)

theorem State.devRing_keeps {s : State} {n off : Nat} {v : Word} (hs : Keeps k0 s) : Keeps k0 (State.devRing s n off v) := by
  unfold State.devRing
  try (conv => zeta)
  repeat' first
    | with_reducible assumption | with_reducible apply State.answer_keeps | with_reducible apply State.maskWrite_keeps
    | with_reducible apply State.portDrop_keeps | with_reducible apply State.portWrite_keeps | with_reducible apply State.setRing_keeps
    | with_reducible apply Keeps.ite

theorem State.devMask_keeps {s : State} {d : RegDef} {a : Nat} {v : Word} (hs : Keeps k0 s) : Keeps k0 (State.devMask s d a v) := by
  unfold State.devMask
  try (conv => zeta)
  repeat' first
    | with_reducible assumption | with_reducible apply State.maskWrite_keeps

theorem State.devToken_keeps {s : State} {v : Word} (hs : Keeps k0 s) : Keeps k0 (State.devToken s v) := by
  unfold State.devToken
  try (conv => zeta)
  repeat' first
    | with_reducible assumption | with_reducible apply State.dropToken_keeps | with_reducible apply State.setSef_keeps
    | with_reducible apply Keeps.ite

theorem State.devReg_keeps {s : State} {a : Nat} {v : Word} (hs : Keeps k0 s) : Keeps k0 (State.devReg s a v) := by
  unfold State.devReg
  try (conv => zeta)
  repeat' first
    | with_reducible assumption | fail_if_no_progress (with_reducible apply Keeps.upd) | with_reducible apply State.clearStale_keeps
    | with_reducible apply State.devMask_keeps | with_reducible apply State.devToken_keeps | with_reducible apply State.freeRate_keeps
    | with_reducible apply State.mdioWrite_keeps | with_reducible apply State.oasGo_keeps | with_reducible apply State.setReg_keeps
    | with_reducible apply State.setSef_keeps | with_reducible apply Keeps.ite | split

theorem State.devWrite_keeps {s : State} {a : Nat} {bs : Bytes} {v : Word} (hs : Keeps k0 s) : Keeps k0 (State.devWrite s a bs v) := by
  unfold State.devWrite
  try (conv => zeta)
  repeat' first
    | with_reducible assumption | with_reducible apply State.addressFault_keeps | with_reducible apply State.answer_keeps
    | with_reducible apply State.busErr_keeps | with_reducible apply State.ctxPutAll_keeps | with_reducible apply State.devReg_keeps
    | with_reducible apply State.devRing_keeps | with_reducible apply State.poolNote_keeps | with_reducible apply State.wramPut_keeps
    | with_reducible apply Keeps.ite | split

theorem State.farWrite_keeps {s : State} {w : Who} {a len : Nat} {v : Word} (hs : Keeps k0 s) : Keeps k0 (State.farWrite s w a len v) := by
  unfold State.farWrite
  try (conv => zeta)
  repeat' first
    | with_reducible assumption | with_reducible apply State.answer_keeps | with_reducible apply State.busErr_keeps
    | with_reducible apply State.chainWrite_keeps | with_reducible apply State.mdioWrite_keeps | with_reducible apply State.poolNote_keeps
    | with_reducible apply Keeps.ite

theorem execRegisterWrite_keeps {w : Who} {addr : Word} {size : Fin 3} {v : Word} {s : State} (hs : Keeps k0 s) : KeepsO k0 (execRegisterWrite w
    addr size v s) := by
  unfold execRegisterWrite
  try (conv => zeta)
  repeat' first
    | with_reducible assumption | with_reducible apply KeepsO.next | with_reducible apply State.addressFault_keeps
    | with_reducible apply State.devWrite_keeps | with_reducible apply State.farWrite_keeps | with_reducible apply KeepsO.ite | split

theorem execAddressFault_keeps {w : Who} {addr : Word} {s : State} (hs : Keeps k0 s) : KeepsO k0 (execAddressFault w addr s) := by
  unfold execAddressFault
  try (conv => zeta)
  repeat' first
    | with_reducible assumption | with_reducible apply KeepsO.next | with_reducible apply State.addressFault_keeps | with_reducible apply KeepsO.ite

theorem execLoRegisterRead_keeps {w : Who} {addr : Word} {s : State} (hs : Keeps k0 s) : KeepsO k0 (execLoRegisterRead w addr s) := by
  unfold execLoRegisterRead
  try (conv => zeta)
  repeat' first
    | with_reducible assumption | with_reducible apply KeepsO.next | with_reducible apply State.answer_keeps
    | with_reducible apply State.busErr_keeps | with_reducible apply State.regRead_keeps | with_reducible apply KeepsO.ite

theorem State.ownMedia_keeps {s : State} (hs : Keeps k0 s) : KeepsP k0 (State.ownMedia s) := by
  unfold State.ownMedia
  try (conv => zeta)
  repeat' first
    | with_reducible assumption | with_reducible exact KeepsP.none _ | with_reducible apply KeepsP.some | with_reducible apply State.loadMedia_keeps
    | with_reducible apply State.setMed_keeps | split

theorem State.underImage_keeps {s : State} {img : Bytes} {key : Nat} (hs : Keeps k0 s) : Keeps k0 (State.underImage s img key) := by
  unfold State.underImage
  try (conv => zeta)
  repeat' first
    | with_reducible assumption | fail_if_no_progress (with_reducible apply Keeps.upd) | with_reducible apply State.applyImage_keeps
    | with_reducible apply State.setBit_keeps

theorem State.afterStart_keeps {s : State} {src : RplSrc} {e : Entry} (hs : Keeps k0 s) : Keeps k0 (State.afterStart s src e) := by
  unfold State.afterStart
  try (conv => zeta)
  repeat' first
    | with_reducible assumption | with_reducible apply State.underImage_keeps | with_reducible apply Keeps.ite | split

theorem State.replayStart_keeps {s : State} {k : Ckpt} {img : Bytes} {key : Nat} (hs : Keeps k0 s) : Keeps k0 (State.replayStart s k img key) := by
  unfold State.replayStart
  try (conv => zeta)
  repeat' first
    | with_reducible assumption | fail_if_no_progress (with_reducible apply Keeps.upd) | with_reducible apply State.loadCkpt_keeps
    | with_reducible apply State.requeue_keeps | with_reducible apply State.setBoot_keeps | with_reducible apply State.underImage_keeps

theorem State.onCard_keeps {s : State} {f : Card → Card} (hs : Keeps k0 s) : Keeps k0 (State.onCard s f) := by
  unfold State.onCard
  try (conv => zeta)
  repeat' first
    | with_reducible assumption | fail_if_no_progress (with_reducible apply Keeps.upd)

theorem State.setReport_keeps {s : State} {r : Replay} (hs : Keeps k0 s) : Keeps k0 (State.setReport s r) := by
  unfold State.setReport
  try (conv => zeta)
  repeat' first
    | with_reducible assumption | fail_if_no_progress (with_reducible apply Keeps.upd)

theorem State.replayFrom_keeps {s : State} {o : Bytes} {src : Option RplSrc} (hs : Keeps k0 s) : Keeps k0 (State.replayFrom s o src) := by
  unfold State.replayFrom
  try (conv => zeta)
  repeat' first
    | with_reducible assumption | with_reducible apply State.onCard_keeps | with_reducible apply State.setReport_keeps
    | with_reducible apply Keeps.ite | split

theorem State.replayChain_keeps {s : State} {o : Bytes} (hs : Keeps k0 s) : Keeps k0 (State.replayChain s o) := by
  unfold State.replayChain
  try (conv => zeta)
  repeat' first
    | with_reducible assumption | fail_if_no_progress (with_reducible apply Keeps.upd) | with_reducible apply State.lockPll_keeps
    | with_reducible apply State.setBit_keeps | with_reducible apply State.setSef_keeps

theorem State.leaveChain_keeps {s : State} (hs : Keeps k0 s) : Keeps k0 (State.leaveChain s) := by
  unfold State.leaveChain
  try (conv => zeta)
  repeat' first
    | with_reducible assumption | with_reducible apply State.setBit_keeps | with_reducible apply State.setSef_keeps
    | with_reducible apply State.stopPll_keeps

theorem State.setFetch_keeps {s : State} {f : Fetch} (hs : Keeps k0 s) : Keeps k0 (State.setFetch s f) := by
  unfold State.setFetch
  try (conv => zeta)
  repeat' first
    | with_reducible assumption | fail_if_no_progress (with_reducible apply Keeps.upd)

theorem State.fetchHeard_keeps {s : State} {f : Fetch} {pos : Nat} (hs : Keeps k0 s) : Keeps k0 (State.fetchHeard s f pos) := by
  unfold State.fetchHeard
  try (conv => zeta)
  repeat' first
    | with_reducible assumption | with_reducible apply State.setFetch_keeps | with_reducible apply State.xreq_keeps | with_reducible apply Keeps.ite

theorem State.fetchEnd_keeps {s : State} {f : Fetch} (hs : Keeps k0 s) : Keeps k0 (State.fetchEnd s f) := by
  unfold State.fetchEnd
  try (conv => zeta)
  repeat' first
    | with_reducible assumption | with_reducible apply State.leaveChain_keeps | with_reducible apply State.replayFrom_keeps
    | with_reducible apply State.setFetch_keeps | with_reducible apply State.setReport_keeps | with_reducible apply State.xreq_keeps | split

theorem State.fetchPart_keeps {s : State} {f : Fetch} {part off : Nat} {data : Bytes} (hs : Keeps k0 s) : Keeps k0 (State.fetchPart s f part off
    data) := by
  unfold State.fetchPart
  try (conv => zeta)
  repeat' first
    | with_reducible assumption | with_reducible apply State.fetchEnd_keeps | with_reducible apply State.setFetch_keeps | split

theorem execReplay_keeps {order : Bytes} {s : State} (hs : Keeps k0 s) : KeepsO k0 (execReplay order s) := by
  unfold execReplay
  try (conv => zeta)
  repeat' first
    | with_reducible assumption | with_reducible apply KeepsO.next | with_reducible apply State.recAnswer_keeps
    | with_reducible apply State.replayChain_keeps | with_reducible apply State.replayFrom_keeps | with_reducible apply State.setReport_keeps
    | with_reducible apply KeepsO.ite

theorem execReplayRead_keeps {off len : Nat} {s : State} (hs : Keeps k0 s) : KeepsO k0 (execReplayRead off len s) := by
  unfold execReplayRead
  try (conv => zeta)
  repeat' first
    | with_reducible assumption | with_reducible apply KeepsO.next | with_reducible apply State.recAnswer_keeps | with_reducible apply KeepsO.ite

theorem execHeartbeat_keeps {s : State} (hs : Keeps k0 s) : KeepsO k0 (execHeartbeat s) := by
  unfold execHeartbeat
  try (conv => zeta)
  repeat' first
    | with_reducible assumption | with_reducible apply KeepsO.next | with_reducible apply State.fetchHeard_keeps
    | with_reducible apply State.heartbeatIn_keeps | with_reducible refine State.takeFrame_keeps_eq ?_ (by assumption) | split

theorem execXfer_keeps {s : State} (hs : Keeps k0 s) : KeepsO k0 (execXfer s) := by
  unfold execXfer
  try (conv => zeta)
  repeat' first
    | with_reducible assumption | with_reducible apply KeepsO.next | with_reducible apply State.fetchPart_keeps
    | with_reducible refine State.takeFrame_keeps_eq ?_ (by assumption) | with_reducible apply State.xferIn_keeps | with_reducible apply Keeps.ite
    | split

theorem execCipherRequest_keeps {s : State} (hs : Keeps k0 s) : KeepsO k0 (execCipherRequest s) := by
  unfold execCipherRequest
  try (conv => zeta)
  repeat' first
    | with_reducible assumption | with_reducible apply KeepsO.next | with_reducible apply State.finishReq_keeps
    | with_reducible apply State.placeEcc_keeps | with_reducible apply State.placeLane_keeps | with_reducible apply State.postResult_keeps
    | with_reducible apply State.ringDrain_keeps | with_reducible refine State.ringTake_keeps_eq ?_ (by assumption) | with_reducible apply KeepsO.ite
    | split

theorem execUnwrapComplete_keeps {lane : Fin 16} {s : State} (hs : Keeps k0 s) : KeepsO k0 (execUnwrapComplete lane s) := by
  unfold execUnwrapComplete
  try (conv => zeta)
  repeat' first
    | with_reducible assumption | with_reducible apply KeepsO.next | with_reducible apply State.finishReq_keeps
    | with_reducible apply State.irq_keeps | with_reducible apply State.nextOnLane_keeps | with_reducible apply State.setSec_keeps
    | with_reducible apply KeepsO.ite | split

theorem execLaneComplete_keeps {lane : Fin 16} {s : State} (hs : Keeps k0 s) : KeepsO k0 (execLaneComplete lane s) := by
  unfold execLaneComplete
  try (conv => zeta)
  repeat' first
    | with_reducible assumption | with_reducible apply KeepsO.next | with_reducible apply State.finishReq_keeps
    | with_reducible apply State.irq_keeps | with_reducible apply State.laneResult_keeps | with_reducible apply State.nextOnLane_keeps
    | with_reducible apply KeepsO.ite | split

theorem execEccComplete_keeps {e : Fin 2} {s : State} (hs : Keeps k0 s) : KeepsO k0 (execEccComplete e s) := by
  unfold execEccComplete
  try (conv => zeta)
  repeat' first
    | with_reducible assumption | with_reducible apply KeepsO.next | with_reducible apply State.eccResult_keeps
    | with_reducible apply State.finishReq_keeps | with_reducible apply State.nextOnEcc_keeps | split

theorem execCipherResult_keeps {s : State} (hs : Keeps k0 s) : KeepsO k0 (execCipherResult s) := by
  unfold execCipherResult
  try (conv => zeta)
  repeat' first
    | with_reducible assumption | with_reducible apply KeepsO.next | fail_if_no_progress (with_reducible apply Keeps.upd)
    | with_reducible refine State.ringTake_keeps_eq ?_ (by assumption) | split

theorem execKeyRemask_keeps {s : State} (hs : Keeps k0 s) : KeepsO k0 (execKeyRemask s) := by
  unfold execKeyRemask
  try (conv => zeta)
  repeat' first
    | with_reducible assumption | with_reducible apply KeepsO.next | fail_if_no_progress (with_reducible apply Keeps.upd)
    | with_reducible apply State.until_keeps | with_reducible apply KeepsO.ite

theorem execTrngHealthFail_keeps {s : State} (hs : Keeps k0 s) : KeepsO k0 (execTrngHealthFail s) := by
  unfold execTrngHealthFail
  try (conv => zeta)
  repeat' first
    | with_reducible assumption | with_reducible apply KeepsO.next | with_reducible apply State.event_keeps | with_reducible apply State.irq_keeps
    | with_reducible apply State.setBit_keeps | with_reducible apply State.setFld_keeps | with_reducible apply KeepsO.ite

theorem State.serveDraw_keeps {s : State} {k : Key} (hs : Keeps k0 s) : Keeps k0 (State.serveDraw s k) := by
  unfold State.serveDraw
  try (conv => zeta)
  repeat' first
    | with_reducible assumption | with_reducible apply State.journalDraw_keeps | with_reducible apply Keeps.ite | split

theorem execTrngHealthPass_keeps {s : State} (hs : Keeps k0 s) : KeepsO k0 (execTrngHealthPass s) := by
  unfold execTrngHealthPass
  try (conv => zeta)
  repeat' first
    | with_reducible assumption | with_reducible apply KeepsO.next
    | (with_reducible apply Keeps.foldl) <;> (try (intro x a hx; try beta_reduce; try (conv => zeta))) | with_reducible apply State.serveDraw_keeps
    | with_reducible apply State.setBit_keeps | with_reducible apply State.transition_keeps | with_reducible apply KeepsO.ite | split

theorem execTamperAlarm_keeps {dt : Nat} {src : Fin 8} {s : State} (hs : Keeps k0 s) : KeepsO k0 (execTamperAlarm dt src s) := by
  unfold execTamperAlarm
  try (conv => zeta)
  repeat' first
    | with_reducible assumption | with_reducible apply KeepsO.next | with_reducible apply State.advance_keeps
    | with_reducible apply State.alarmOnMain_keeps | with_reducible apply State.alarmOnVbat_keeps | with_reducible apply Keeps.ite
    | with_reducible apply KeepsO.ite

theorem execHoldCmd_keeps {k0 : State} {addr port : Nat} {dgram : Bytes} {s : State} (hs : Keeps k0 s) :
    KeepsO k0 (execHoldCmd addr port dgram s) := by
  unfold execHoldCmd
  split
  · split
    · split
      · dsimp only
        exact KeepsO.next (State.holdCommand_keeps (State.emit_keeps hs))
      · exact KeepsO.next hs
    · exact KeepsO.next hs
  · exact KeepsO.next hs

theorem execArbWindowEnd_keeps {s : State} (hs : Keeps k0 s) : KeepsO k0 (execArbWindowEnd s) := by
  unfold execArbWindowEnd
  try (conv => zeta)
  repeat' first
    | with_reducible assumption | with_reducible apply KeepsO.next | fail_if_no_progress (with_reducible apply Keeps.upd)
    | with_reducible apply State.until_keeps

theorem execArbLatmaxClear_keeps {w : Who} {s : State} (hs : Keeps k0 s) : KeepsO k0 (execArbLatmaxClear w s) := by
  unfold execArbLatmaxClear
  try (conv => zeta)
  repeat' first
    | with_reducible assumption | with_reducible apply KeepsO.next | with_reducible apply State.answer_keeps
    | with_reducible apply State.setReg_keeps

theorem State.setPow_keeps {s : State} {f : Sys → Sys} (hs : Keeps k0 s) : Keeps k0 (State.setPow s f) := by
  unfold State.setPow
  try (conv => zeta)
  repeat' first
    | with_reducible assumption | fail_if_no_progress (with_reducible apply Keeps.upd)

theorem execPowerOn_keeps {dt : Nat} {s : State} (hs : Keeps k0 s) : KeepsO k0 (execPowerOn dt s) := by
  unfold execPowerOn
  try (conv => zeta)
  repeat' first
    | with_reducible assumption | with_reducible apply KeepsO.next | fail_if_no_progress (with_reducible apply Keeps.upd)
    | with_reducible apply State.advance_keeps | with_reducible apply State.setBit_keeps | with_reducible apply State.setPow_keeps
    | with_reducible apply KeepsO.ite

theorem execResetNAssert_keeps {dt : Nat} {s : State} (hs : Keeps k0 s) : KeepsO k0 (execResetNAssert dt s) := by
  unfold execResetNAssert
  try (conv => zeta)
  repeat' first
    | with_reducible assumption | with_reducible apply KeepsO.next | with_reducible apply State.advance_keeps
    | with_reducible apply State.mainReset_keeps

theorem execSupplyReset_keeps {dt : Nat} {s : State} (hs : Keeps k0 s) : KeepsO k0 (execSupplyReset dt s) := by
  unfold execSupplyReset
  try (conv => zeta)
  repeat' first
    | with_reducible assumption | with_reducible apply KeepsO.next | fail_if_no_progress (with_reducible apply Keeps.upd)
    | with_reducible apply State.advance_keeps | with_reducible apply State.mainReset_keeps | with_reducible apply State.setBit_keeps
    | with_reducible apply State.setPow_keeps | with_reducible apply Keeps.ite

theorem execBridgeLock_keeps {dt : Nat} {s : State} (hs : Keeps k0 s) : KeepsO k0 (execBridgeLock dt s) := by
  unfold execBridgeLock
  try (conv => zeta)
  repeat' first
    | with_reducible assumption | with_reducible apply KeepsO.next | fail_if_no_progress (with_reducible apply Keeps.upd)
    | with_reducible apply State.advance_keeps

theorem State.drainQ0_keeps {p0 : Nat} {p1 : State} (hp1 : Keeps k0 p1) : Keeps k0 (State.drainQ0 p0 p1) := by
  induction p0 generalizing p1 with
  | zero =>
    unfold State.drainQ0
    try (conv => zeta)
    repeat' first
      | with_reducible assumption
  | succ n ih =>
    unfold State.drainQ0
    try (conv => zeta)
    repeat' first
      | with_reducible assumption | apply ih | with_reducible apply State.ringDrain_keeps
      | with_reducible refine State.ringTake_keeps_eq ?_ (by assumption) | with_reducible apply State.takeInput_keeps
      | with_reducible apply Keeps.ite | split

theorem State.journalSupply_keeps {s : State} {k : Kind} {payload : Bytes} (hs : Keeps k0 s) : Keeps k0 (State.journalSupply s k payload) := by
  unfold State.journalSupply
  try (conv => zeta)
  repeat' first
    | with_reducible assumption | with_reducible apply State.drainQ0_keeps | with_reducible apply State.offer_keeps

theorem State.setKham_keeps {s : State} {f : Khamsin → Khamsin} (hs : Keeps k0 s) : Keeps k0 (State.setKham s f) := by
  unfold State.setKham
  try (conv => zeta)
  repeat' first
    | with_reducible assumption | with_reducible apply State.setPow_keeps

theorem State.khamHold_keeps {s : State} (hs : Keeps k0 s) : Keeps k0 (State.khamHold s) := by
  unfold State.khamHold
  try (conv => zeta)
  repeat' first
    | with_reducible assumption | fail_if_no_progress (with_reducible apply Keeps.upd)
    | (with_reducible apply Keeps.foldl) <;> (try (intro x a hx; try beta_reduce; try (conv => zeta))) | with_reducible apply State.irq_keeps
    | with_reducible apply State.setRing_keeps | with_reducible apply Keeps.ite

theorem State.khamJournal_keeps {s : State} {pfail : Bool} (hs : Keeps k0 s) : Keeps k0 (State.khamJournal s pfail) := by
  unfold State.khamJournal
  try (conv => zeta)
  repeat' first
    | with_reducible assumption | with_reducible apply State.journalSupply_keeps | with_reducible apply State.khamsinFlush_keeps
    | with_reducible apply State.setKham_keeps | with_reducible apply Keeps.ite | split

theorem State.khamFlush_keeps {s : State} (hs : Keeps k0 s) : Keeps k0 (State.khamFlush s) := by
  unfold State.khamFlush
  try (conv => zeta)
  repeat' first
    | with_reducible assumption | with_reducible apply State.khamsinFlush_keeps | with_reducible apply State.setMed_keeps

theorem State.khamRecord_keeps {s : State} (hs : Keeps k0 s) : Keeps k0 (State.khamRecord s) := by
  unfold State.khamRecord
  try (conv => zeta)
  repeat' first
    | with_reducible assumption | with_reducible apply State.setBit_keeps | with_reducible apply State.setReg_keeps | with_reducible apply Keeps.ite
    | split

theorem State.gaspRecord_keeps {s : State} {cls arg : Nat} {data : Bytes} (hs : Keeps k0 s) : Keeps k0 (State.gaspRecord s cls arg data) := by
  unfold State.gaspRecord
  try (conv => zeta)
  repeat' first
    | with_reducible assumption | with_reducible apply State.closeFold_keeps | with_reducible apply State.diagRecord_keeps
    | with_reducible apply State.logRecord_keeps | with_reducible apply State.sendBatch_keeps | with_reducible apply Keeps.ite

theorem State.khamNet_keeps {s : State} (hs : Keeps k0 s) : Keeps k0 (State.khamNet s) := by
  unfold State.khamNet
  try (conv => zeta)
  repeat' first
    | with_reducible assumption | with_reducible apply State.gaspRecord_keeps | with_reducible apply State.setKham_keeps
    | with_reducible apply Keeps.ite | split

theorem State.gaspWake_keeps {s : State} {cd : Nat} {c : Nat × Nat} (hs : Keeps k0 s) : Keeps k0 (State.gaspWake s cd c).2 := by
  unfold State.gaspWake
  try (conv => zeta)
  repeat' first
    | with_reducible assumption | with_reducible apply State.advance_keeps | with_reducible apply State.radSend_keeps
    | with_reducible apply Keeps.iteSnd

theorem State.gaspWake_keeps_eq {s : State} {cd : Nat} {c : Nat × Nat} {y0 : Bool} {y1 : State} (hs : Keeps k0 s) (heq0 : State.gaspWake s cd c =
    (y0, y1)) : Keeps k0 y1 := by
  have hh := State.gaspWake_keeps (k0 := k0) (s := s) (cd := cd) (c := c) hs
  rw [heq0] at hh; exact hh

theorem State.khamRadio_keeps {s : State} (hs : Keeps k0 s) : Keeps k0 (State.khamRadio s) := by
  unfold State.khamRadio
  try (conv => zeta)
  repeat' first
    | with_reducible assumption | (with_reducible apply Keeps.foldl) <;> (try (intro x a hx; try beta_reduce; try (conv => zeta)))
    | with_reducible refine State.gaspWake_keeps_eq ?_ (by assumption) | with_reducible apply State.setKham_keeps | split

theorem State.khamStep_keeps {s : State} {pfail : Bool} {n : Nat} (hs : Keeps k0 s) : Keeps k0 (State.khamStep s pfail n) := by
  unfold State.khamStep
  try (conv => zeta)
  repeat' first
    | with_reducible assumption | with_reducible apply State.khamFlush_keeps | with_reducible apply State.khamHold_keeps
    | with_reducible apply State.khamJournal_keeps | with_reducible apply State.khamNet_keeps | with_reducible apply State.khamRadio_keeps
    | with_reducible apply State.khamRecord_keeps | with_reducible apply State.setKham_keeps | split

theorem execSupplyWarning_keeps {dt : Nat} {pfail : Bool} {steps : Fin 7} {s : State} (hs : Keeps k0 s) : KeepsO k0 (execSupplyWarning dt pfail
    steps s) := by
  unfold execSupplyWarning
  try (conv => zeta)
  repeat' first
    | with_reducible assumption | with_reducible apply KeepsO.next
    | (with_reducible apply Keeps.foldl) <;> (try (intro x a hx; try beta_reduce; try (conv => zeta))) | with_reducible apply State.advance_keeps
    | with_reducible apply State.khamStep_keeps | with_reducible apply State.setPow_keeps | with_reducible apply KeepsO.ite

theorem execDipEnd_keeps {dt : Nat} {s : State} (hs : Keeps k0 s) : KeepsO k0 (execDipEnd dt s) := by
  unfold execDipEnd
  try (conv => zeta)
  repeat' first
    | with_reducible assumption | with_reducible apply KeepsO.next | fail_if_no_progress (with_reducible apply Keeps.upd)
    | (with_reducible apply Keeps.foldl) <;> (try (intro x a hx; try beta_reduce; try (conv => zeta))) | with_reducible apply State.advance_keeps
    | with_reducible apply State.gaspRecord_keeps | with_reducible apply State.gaspWake_keeps | with_reducible apply State.irq_keeps
    | with_reducible apply State.journalSupply_keeps | with_reducible apply State.setReg_keeps | with_reducible apply State.setRing_keeps
    | with_reducible apply State.wadi_keeps | with_reducible apply Keeps.ite | with_reducible apply KeepsO.ite | split

theorem State.txStop_keeps {s : State} (hs : Keeps k0 s) : Keeps k0 (State.txStop s) := by
  unfold State.txStop
  try (conv => zeta)
  repeat' first
    | with_reducible assumption | with_reducible apply State.setRad_keeps

theorem execPllUnlock_keeps {dt : Nat} {n : Fin 4} {s : State} (hs : Keeps k0 s) : KeepsO k0 (execPllUnlock dt n s) := by
  unfold execPllUnlock
  try (conv => zeta)
  repeat' first
    | with_reducible assumption | with_reducible apply KeepsO.next
    | (with_reducible apply Keeps.foldl) <;> (try (intro x a hx; try beta_reduce; try (conv => zeta))) | with_reducible apply State.advance_keeps
    | with_reducible apply State.event_keeps | with_reducible apply State.eventNow_keeps | with_reducible apply State.irq_keeps
    | with_reducible apply State.mainReset_keeps | with_reducible apply State.payTrain_keeps | with_reducible apply State.setBit_keeps
    | with_reducible apply State.setLink_keeps | with_reducible apply State.setNet_keeps | with_reducible apply State.setPow_keeps
    | with_reducible apply State.txStop_keeps | with_reducible apply Keeps.ite | with_reducible apply KeepsO.ite | split

theorem execPllRelock_keeps {dt : Nat} {n : Fin 4} {s : State} (hs : Keeps k0 s) : KeepsO k0 (execPllRelock dt n s) := by
  unfold execPllRelock
  try (conv => zeta)
  repeat' first
    | with_reducible assumption | with_reducible apply KeepsO.next | with_reducible apply State.advance_keeps
    | with_reducible apply State.setPow_keeps | with_reducible apply Keeps.ite

theorem State.pwronFree_keeps {s : State} (hs : Keeps k0 s) : Keeps k0 (State.pwronFree s) := by
  unfold State.pwronFree
  try (conv => zeta)
  repeat' first
    | with_reducible assumption | with_reducible apply State.setBit_keeps | with_reducible apply State.setPow_keeps

theorem execPwronHoldEnd_keeps {s : State} (hs : Keeps k0 s) : KeepsO k0 (execPwronHoldEnd s) := by
  unfold execPwronHoldEnd
  try (conv => zeta)
  repeat' first
    | with_reducible assumption | with_reducible apply KeepsO.next | with_reducible apply State.pwronFree_keeps
    | with_reducible apply State.until_keeps | split

theorem execWakeN_keeps {dt : Nat} {s : State} (hs : Keeps k0 s) : KeepsO k0 (execWakeN dt s) := by
  unfold execWakeN
  try (conv => zeta)
  repeat' first
    | with_reducible assumption | with_reducible apply KeepsO.next | with_reducible apply State.advance_keeps
    | with_reducible apply State.pwronFree_keeps

theorem execVbatLatch_keeps {dt : Nat} {s : State} (hs : Keeps k0 s) : KeepsO k0 (execVbatLatch dt s) := by
  unfold execVbatLatch
  try (conv => zeta)
  repeat' first
    | with_reducible assumption | with_reducible apply KeepsO.next | with_reducible apply State.advance_keeps
    | with_reducible apply State.pwronFree_keeps | with_reducible apply State.setBit_keeps | with_reducible apply Keeps.ite

theorem execOasisReset_keeps {k0 : State} {dt : Nat} {s : State} (hs : Keeps k0 s) : KeepsO k0 (execOasisReset dt s) := by
  have h := State.advance_keeps (dt := dt) hs
  unfold execOasisReset
  repeat' first
    | with_reducible apply KeepsO.next
    | with_reducible assumption
    | with_reducible apply State.pwronFree_keeps
    | split
  all_goals first
    | with_reducible assumption
    | exact ⟨h.queue, h.time, h.sent, fun i => ⟨swf_filter _ (h.inv i).1 _, (h.inv i).2⟩⟩

theorem execVbatMeasure_keeps {mv : Fin 4096} {s : State} (hs : Keeps k0 s) : KeepsO k0 (execVbatMeasure mv s) := by
  unfold execVbatMeasure
  try (conv => zeta)
  repeat' first
    | with_reducible assumption | with_reducible apply KeepsO.next | with_reducible apply State.event_keeps | with_reducible apply State.irq_keeps
    | with_reducible apply State.setBit_keeps | with_reducible apply State.setPow_keeps | with_reducible apply State.setReg_keeps
    | with_reducible apply State.until_keeps | with_reducible apply Keeps.ite | with_reducible apply KeepsO.ite

theorem State.napExcess_keeps {p0 : Nat} {p1 : State} (hp1 : Keeps k0 p1) : Keeps k0 (State.napExcess p0 p1) := by
  induction p0 generalizing p1 with
  | zero =>
    unfold State.napExcess
    try (conv => zeta)
    repeat' first
      | with_reducible assumption
  | succ n ih =>
    unfold State.napExcess
    try (conv => zeta)
    repeat' first
      | with_reducible assumption | apply ih | with_reducible apply State.setDune_keeps | with_reducible apply Keeps.ite | split

theorem State.stayDunes_keeps {s : State} (hs : Keeps k0 s) : Keeps k0 (State.stayDunes s) := by
  unfold State.stayDunes
  try (conv => zeta)
  repeat' first
    | with_reducible assumption | (with_reducible apply Keeps.foldl) <;> (try (intro x a hx; try beta_reduce; try (conv => zeta)))
    | with_reducible apply State.setDune_keeps

theorem State.setMaxAwake_keeps {s : State} {n : Nat} {tj : Int} (hs : Keeps k0 s) : Keeps k0 (State.setMaxAwake s n tj) := by
  unfold State.setMaxAwake
  try (conv => zeta)
  repeat' first
    | with_reducible assumption | fail_if_no_progress (with_reducible apply Keeps.upd) | with_reducible apply State.event_keeps
    | with_reducible apply State.irq_keeps | with_reducible apply State.leaveDunes_keeps | with_reducible apply State.napExcess_keeps
    | with_reducible apply State.stayDunes_keeps | with_reducible apply Keeps.ite

theorem execThermalGovernor_keeps {tj : Int} {s : State} (hs : Keeps k0 s) : KeepsO k0 (execThermalGovernor tj s) := by
  unfold execThermalGovernor
  try (conv => zeta)
  repeat' first
    | with_reducible assumption | with_reducible apply KeepsO.next | with_reducible apply State.irq_keeps | with_reducible apply State.setFld_keeps
    | with_reducible apply State.setMaxAwake_keeps | with_reducible apply State.setMed_keeps | with_reducible apply State.setPow_keeps
    | with_reducible apply State.until_keeps | with_reducible apply Keeps.ite | with_reducible apply KeepsO.ite

end Sys2Proof.Machine
end

