-- ==== Sys2Proof/Laws/KeepsStep.lean ====
section
/-! SUPPORT. The relation of Laws/Keeps.lean for every command, and the step: one lemma per operation. -/
namespace Sys2Proof.Machine

set_option linter.unusedTactic false
set_option linter.unusedVariables false

variable {k0 : State}

theorem exec_keeps {i : Instr} {s : State} (hs : Keeps k0 s) : KeepsO k0 (exec i s) := by
  unfold exec
  try (conv => zeta)
  repeat' first
    | with_reducible assumption | with_reducible apply execAddressFault_keeps | with_reducible apply execArbLatmaxClear_keeps
    | with_reducible apply execArbWindowEnd_keeps | with_reducible apply execBackCommit_keeps | with_reducible apply execBalanceClose_keeps
    | with_reducible apply execBarchanMove_keeps | with_reducible apply execBatchIngest_keeps | with_reducible apply execBatchRto_keeps
    | with_reducible apply execBatchSend_keeps | with_reducible apply execBgCollection_keeps | with_reducible apply execBoot_keeps
    | with_reducible apply execBoundaryHoldEnd_keeps | with_reducible apply execBoundaryHoldStart_keeps | with_reducible apply execBridgeAgeing_keeps
    | with_reducible apply execBridgeFrame_keeps | with_reducible apply execBridgeLock_keeps | with_reducible apply execCaravanCacheExpiry_keeps
    | with_reducible apply execCatchupTimeout_keeps | with_reducible apply execCheckCfg_keeps | with_reducible apply execCipherRequest_keeps
    | with_reducible apply execCipherResult_keeps | with_reducible apply execCkptCut_keeps | with_reducible apply execCkptValid_keeps
    | with_reducible apply execCloseNow_keeps | with_reducible apply execCloseSweepStep_keeps | with_reducible apply execCmdCkptNow_keeps
    | with_reducible apply execCmdDatagramCheck_keeps | with_reducible apply execCommission_keeps | with_reducible apply execCommitFw_keeps
    | with_reducible apply execCommitTurn_keeps | with_reducible apply execCtlPulse_keeps | with_reducible apply execDevicePortReceive_keeps
    | with_reducible apply execDigest_keeps | with_reducible apply execDigestSend_keeps | with_reducible apply execDipEnd_keeps
    | with_reducible apply execDrbgDraw_keeps | with_reducible apply execDuneDeep_keeps | with_reducible apply execDuneNap_keeps
    | with_reducible apply execDuneWake_keeps | with_reducible apply execDuplicateAddressDetection_keeps
    | with_reducible apply execDurabilityStall_keeps | with_reducible apply execEccComplete_keeps | with_reducible apply execEnum_keeps
    | with_reducible apply execEnumResend_keeps | with_reducible apply execEnumSample_keeps | with_reducible apply execEraseComplete_keeps
    | with_reducible apply execEraseFail_keeps | with_reducible apply execEventRecord_keeps | with_reducible apply execEvrRewind_keeps
    | with_reducible apply execEvrWin_keeps | with_reducible apply execEvtCapture_keeps | with_reducible apply execExchangeTimeout_keeps
    | with_reducible apply execFeederBlockEnd_keeps | with_reducible apply execFeederCycle_keeps | with_reducible apply execFgCollection_keeps
    | with_reducible apply execFreezeTimeout_keeps | with_reducible apply execFullTrainStart_keeps | with_reducible apply execFwBlockPump_keeps
    | with_reducible apply execFwDeclare_keeps | with_reducible apply execFwDelete_keeps | with_reducible apply execFwLoad_keeps
    | with_reducible apply execFwSend_keeps | with_reducible apply execHeadBackSend_keeps | with_reducible apply execHeartbeat_keeps
    | with_reducible apply execHeartbeatSend_keeps | with_reducible apply execHoldCmd_keeps | with_reducible apply execHoldEnd_keeps
    | with_reducible apply execImage_keeps | with_reducible apply execJack_keeps | with_reducible apply execJackSend_keeps
    | with_reducible apply execJournalFlushTimer_keeps | with_reducible apply execJournalInput_keeps | with_reducible apply execJrep_keeps
    | with_reducible apply execJsqCkptNow_keeps | with_reducible apply execKeyRemask_keeps | with_reducible apply execKeyRoll_keeps
    | with_reducible apply execLadderRung_keeps | with_reducible apply execLaneComplete_keeps | with_reducible apply execLcCmd_keeps
    | with_reducible apply execLcField_keeps | with_reducible apply execLcReturn_keeps | with_reducible apply execLcScrap_keeps
    | with_reducible apply execLeapInstant_keeps | with_reducible apply execLinkAck_keeps | with_reducible apply execLinkFrameReceive_keeps
    | with_reducible apply execLinkRetxTimeout_keeps | with_reducible apply execLinkTrained_keeps | with_reducible apply execLoRegisterRead_keeps
    | with_reducible apply execLrateSave_keeps | with_reducible apply execMdioFrameDone_keeps | with_reducible apply execMdioGo_keeps
    | with_reducible apply execMediaHealth_keeps | with_reducible apply execMediaJournalWrite_keeps | with_reducible apply execMediaRead_keeps
    | with_reducible apply execMeterSet_keeps | with_reducible apply execMgmtRd_keeps | with_reducible apply execMgmtRsp_keeps
    | with_reducible apply execMgmtWr_keeps | with_reducible apply execNoZc_keeps | with_reducible apply execOasCommitApply_keeps
    | with_reducible apply execOasTcommit_keeps | with_reducible apply execOasTime0Read_keeps | with_reducible apply execOasTime3Read_keeps
    | with_reducible apply execOasisCalibrate_keeps | with_reducible apply execOasisReset_keeps | with_reducible apply execOasisTrimTick_keeps
    | with_reducible apply execPatrolRead_keeps | with_reducible apply execPauseExpiry_keeps | with_reducible apply execPauseReceive_keeps
    | with_reducible apply execPauseSend_keeps | with_reducible apply execPeerTimeout_keeps | with_reducible apply execPlcAckTimeout_keeps
    | with_reducible apply execPlcBeacon_keeps | with_reducible apply execPlcContend_keeps | with_reducible apply execPlcDownExpired_keeps
    | with_reducible apply execPlcDownNoack_keeps | with_reducible apply execPlcFrameReceive_keeps
    | with_reducible apply execPlcShortAckReceive_keeps | with_reducible apply execPlcShortAckSend_keeps
    | with_reducible apply execPlcTxCaravan_keeps | with_reducible apply execPlcTxDown_keeps | with_reducible apply execPlcTxReq_keeps
    | with_reducible apply execPllRelock_keeps | with_reducible apply execPllUnlock_keeps | with_reducible apply execPollSend_keeps
    | with_reducible apply execPortLinkChange_keeps | with_reducible apply execPowerOn_keeps | with_reducible apply execPpsPulse_keeps
    | with_reducible apply execProgramFail_keeps | with_reducible apply execPtpAnnounce_keeps | with_reducible apply execPtpDelayExchange_keeps
    | with_reducible apply execPtpLoss_keeps | with_reducible apply execPtpSync_keeps | with_reducible apply execPush_keeps
    | with_reducible apply execPwronHoldEnd_keeps | with_reducible apply execQfClose_keeps | with_reducible apply execQfDrop_keeps
    | with_reducible apply execQfOpen_keeps | with_reducible apply execQfPop_keeps | with_reducible apply execQfPush_keeps
    | with_reducible apply execRadTxCaravan_keeps | with_reducible apply execRadTxDown_keeps | with_reducible apply execRadTxPollNow_keeps
    | with_reducible apply execRadioAckSend_keeps | with_reducible apply execRadioDownExpired_keeps | with_reducible apply execRadioDownNoack_keeps
    | with_reducible apply execRadioDownSend_keeps | with_reducible apply execRadioFrameReceive_keeps | with_reducible apply execReadout_keeps
    | with_reducible apply execRearm_keeps | with_reducible apply execRegisterWrite_keeps | with_reducible apply execRegressedEnd_keeps
    | with_reducible apply execReleaseEnter_keeps | with_reducible apply execRepeatWindowEnd_keeps | with_reducible apply execReplay_keeps
    | with_reducible apply execReplayRead_keeps | with_reducible apply execResetNAssert_keeps | with_reducible apply execRestart_keeps
    | with_reducible apply execResync_keeps | with_reducible apply execRingLoss_keeps | with_reducible apply execRingStale_keeps
    | with_reducible apply execRingStallRelease_keeps | with_reducible apply execRoleConflict_keeps | with_reducible apply execRosterAdd_keeps
    | with_reducible apply execRosterDecom_keeps | with_reducible apply execRosterRelease_keeps | with_reducible apply execRosterSet_keeps
    | with_reducible apply execSefKick_keeps | with_reducible apply execSefRelease_keeps | with_reducible apply execSeifCmd_keeps
    | with_reducible apply execSettlingEnd_keeps | with_reducible apply execStatus_keeps | with_reducible apply execSupplyReset_keeps
    | with_reducible apply execSupplyWarning_keeps | with_reducible apply execTamperAlarm_keeps | with_reducible apply execTamperCondition_keeps
    | with_reducible apply execTaskDispatch_keeps | with_reducible apply execTaskStart_keeps | with_reducible apply execThermalGovernor_keeps
    | with_reducible apply execTimeSet_keeps | with_reducible apply execTimeStepApply_keeps | with_reducible apply execTokenClaim_keeps
    | with_reducible apply execTokenFault_keeps | with_reducible apply execTokenWatchdog_keeps | with_reducible apply execTrngHealthFail_keeps
    | with_reducible apply execTrngHealthPass_keeps | with_reducible apply execUnitVerify_keeps | with_reducible apply execUnwrapComplete_keeps
    | with_reducible apply execUpdHourCkpt_keeps | with_reducible apply execVbatLatch_keeps | with_reducible apply execVbatMeasure_keeps
    | with_reducible apply execWadiMarkerWrite_keeps | with_reducible apply execWakeN_keeps | with_reducible apply execWakeTrainStart_keeps
    | with_reducible apply execWriteCfg_keeps | with_reducible apply execWriteFw_keeps | with_reducible apply execXfer_keeps
    | with_reducible apply execXreq_keeps | with_reducible apply execZcEdge_keeps | with_reducible apply execZcMissingCrossing_keeps | split

theorem step_keeps {s c r} (h : s.pending = c :: r) : KeepsO { s with pending := r } (step s) := by
  unfold step
  rw [h]
  exact exec_keeps (Keeps.refl _)

end Sys2Proof.Machine
end

