-- ==== Sys2Proof/Laws/State.lean ====
section
/-! SUPPORT. What each shared update of the state leaves as it was: one lemma per field and update, and the reads of registers and rings after a
write. -/
namespace Sys2Proof.Machine

section
variable (s : State)

@[simp] theorem State.setReg_pending (a v : Nat) : (s.setReg a v).pending = s.pending := rfl
@[simp] theorem State.setReg_t (a v : Nat) : (s.setReg a v).t = s.t := rfl
@[simp] theorem State.setReg_dev (a v : Nat) : (s.setReg a v).dev = s.dev := rfl
@[simp] theorem State.setReg_devSub (a v : Nat) : (s.setReg a v).devSub = s.devSub := rfl
@[simp] theorem State.setReg_freeCtr (a v : Nat) : (s.setReg a v).freeCtr = s.freeCtr := rfl
@[simp] theorem State.setReg_reply (a v : Nat) : (s.setReg a v).reply = s.reply := rfl
@[simp] theorem State.setReg_emitted (a v : Nat) : (s.setReg a v).emitted = s.emitted := rfl
@[simp] theorem State.setReg_wram (a v : Nat) : (s.setReg a v).wram = s.wram := rfl
@[simp] theorem State.setReg_code (a v : Nat) : (s.setReg a v).code = s.code := rfl
@[simp] theorem State.setReg_latch (a v : Nat) : (s.setReg a v).latch = s.latch := rfl
@[simp] theorem State.setReg_locked (a v : Nat) : (s.setReg a v).locked = s.locked := rfl
@[simp] theorem State.setReg_cfg (a v : Nat) : (s.setReg a v).cfg = s.cfg := rfl
@[simp] theorem State.setReg_sysKey (a v : Nat) : (s.setReg a v).sysKey = s.sysKey := rfl
@[simp] theorem State.setReg_rings (a v : Nat) : (s.setReg a v).rings = s.rings := rfl
@[simp] theorem State.setReg_seq (a v : Nat) : (s.setReg a v).seq = s.seq := rfl
@[simp] theorem State.setReg_erg (a v : Nat) : (s.setReg a v).erg = s.erg := rfl
@[simp] theorem State.setReg_ctx (a v : Nat) : (s.setReg a v).ctx = s.ctx := rfl
@[simp] theorem State.setReg_obox (a v : Nat) : (s.setReg a v).obox = s.obox := rfl
@[simp] theorem State.setReg_fe (a v : Nat) : (s.setReg a v).fe = s.fe := rfl
@[simp] theorem State.setReg_evr (a v : Nat) : (s.setReg a v).evr = s.evr := rfl
@[simp] theorem State.setReg_tim (a v : Nat) : (s.setReg a v).tim = s.tim := rfl
@[simp] theorem State.setReg_oas (a v : Nat) : (s.setReg a v).oas = s.oas := rfl
@[simp] theorem State.setReg_sec (a v : Nat) : (s.setReg a v).sec = s.sec := rfl
@[simp] theorem State.setReg_net (a v : Nat) : (s.setReg a v).net = s.net := rfl
@[simp] theorem State.setReg_arb (a v : Nat) : (s.setReg a v).arb = s.arb := rfl
@[simp] theorem State.setReg_rad (a v : Nat) : (s.setReg a v).rad = s.rad := rfl
@[simp] theorem State.setReg_plc (a v : Nat) : (s.setReg a v).plc = s.plc := rfl
@[simp] theorem State.setReg_med (a v : Nat) : (s.setReg a v).med = s.med := rfl
@[simp] theorem State.setReg_sef (a v : Nat) : (s.setReg a v).sef = s.sef := rfl
@[simp] theorem State.setReg_pow (a v : Nat) : (s.setReg a v).pow = s.pow := rfl
@[simp] theorem State.setReg_nor (a v : Nat) : (s.setReg a v).nor = s.nor := rfl
@[simp] theorem State.setReg_boot (a v : Nat) : (s.setReg a v).boot = s.boot := rfl
@[simp] theorem State.setReg_rpl (a v : Nat) : (s.setReg a v).rpl = s.rpl := rfl

@[simp] theorem State.irq_pending (a k : Nat) : (s.irq a k).pending = s.pending := by unfold State.irq; split <;> rfl
@[simp] theorem State.irq_t (a k : Nat) : (s.irq a k).t = s.t := by unfold State.irq; split <;> rfl
@[simp] theorem State.irq_dev (a k : Nat) : (s.irq a k).dev = s.dev := by unfold State.irq; split <;> rfl
@[simp] theorem State.irq_devSub (a k : Nat) : (s.irq a k).devSub = s.devSub := by unfold State.irq; split <;> rfl
@[simp] theorem State.irq_freeCtr (a k : Nat) : (s.irq a k).freeCtr = s.freeCtr := by unfold State.irq; split <;> rfl
@[simp] theorem State.irq_reply (a k : Nat) : (s.irq a k).reply = s.reply := by unfold State.irq; split <;> rfl
@[simp] theorem State.irq_emitted (a k : Nat) : (s.irq a k).emitted = s.emitted := by unfold State.irq; split <;> rfl
@[simp] theorem State.irq_wram (a k : Nat) : (s.irq a k).wram = s.wram := by unfold State.irq; split <;> rfl
@[simp] theorem State.irq_code (a k : Nat) : (s.irq a k).code = s.code := by unfold State.irq; split <;> rfl
@[simp] theorem State.irq_latch (a k : Nat) : (s.irq a k).latch = s.latch := by unfold State.irq; split <;> rfl
@[simp] theorem State.irq_locked (a k : Nat) : (s.irq a k).locked = s.locked := by unfold State.irq; split <;> rfl
@[simp] theorem State.irq_cfg (a k : Nat) : (s.irq a k).cfg = s.cfg := by unfold State.irq; split <;> rfl
@[simp] theorem State.irq_sysKey (a k : Nat) : (s.irq a k).sysKey = s.sysKey := by unfold State.irq; split <;> rfl
@[simp] theorem State.irq_rings (a k : Nat) : (s.irq a k).rings = s.rings := by unfold State.irq; split <;> rfl
@[simp] theorem State.irq_seq (a k : Nat) : (s.irq a k).seq = s.seq := by unfold State.irq; split <;> rfl
@[simp] theorem State.irq_erg (a k : Nat) : (s.irq a k).erg = s.erg := by unfold State.irq; split <;> rfl
@[simp] theorem State.irq_ctx (a k : Nat) : (s.irq a k).ctx = s.ctx := by unfold State.irq; split <;> rfl
@[simp] theorem State.irq_obox (a k : Nat) : (s.irq a k).obox = s.obox := by unfold State.irq; split <;> rfl
@[simp] theorem State.irq_fe (a k : Nat) : (s.irq a k).fe = s.fe := by unfold State.irq; split <;> rfl
@[simp] theorem State.irq_evr (a k : Nat) : (s.irq a k).evr = s.evr := by unfold State.irq; split <;> rfl
@[simp] theorem State.irq_tim (a k : Nat) : (s.irq a k).tim = s.tim := by unfold State.irq; split <;> rfl
@[simp] theorem State.irq_oas (a k : Nat) : (s.irq a k).oas = s.oas := by unfold State.irq; split <;> rfl
@[simp] theorem State.irq_sec (a k : Nat) : (s.irq a k).sec = s.sec := by unfold State.irq; split <;> rfl
@[simp] theorem State.irq_net (a k : Nat) : (s.irq a k).net = s.net := by unfold State.irq; split <;> rfl
@[simp] theorem State.irq_arb (a k : Nat) : (s.irq a k).arb = s.arb := by unfold State.irq; split <;> rfl
@[simp] theorem State.irq_rad (a k : Nat) : (s.irq a k).rad = s.rad := by unfold State.irq; split <;> rfl
@[simp] theorem State.irq_plc (a k : Nat) : (s.irq a k).plc = s.plc := by unfold State.irq; split <;> rfl
@[simp] theorem State.irq_med (a k : Nat) : (s.irq a k).med = s.med := by unfold State.irq; split <;> rfl
@[simp] theorem State.irq_sef (a k : Nat) : (s.irq a k).sef = s.sef := by unfold State.irq; split <;> rfl
@[simp] theorem State.irq_pow (a k : Nat) : (s.irq a k).pow = s.pow := by unfold State.irq; split <;> rfl
@[simp] theorem State.irq_nor (a k : Nat) : (s.irq a k).nor = s.nor := by unfold State.irq; split <;> rfl
@[simp] theorem State.irq_boot (a k : Nat) : (s.irq a k).boot = s.boot := by unfold State.irq; split <;> rfl
@[simp] theorem State.irq_rpl (a k : Nat) : (s.irq a k).rpl = s.rpl := by unfold State.irq; split <;> rfl

@[simp] theorem State.setBit_pending (a k : Nat) (b : Bool) : (s.setBit a k b).pending = s.pending := rfl
@[simp] theorem State.setBit_t (a k : Nat) (b : Bool) : (s.setBit a k b).t = s.t := rfl
@[simp] theorem State.setBit_dev (a k : Nat) (b : Bool) : (s.setBit a k b).dev = s.dev := rfl
@[simp] theorem State.setBit_devSub (a k : Nat) (b : Bool) : (s.setBit a k b).devSub = s.devSub := rfl
@[simp] theorem State.setBit_freeCtr (a k : Nat) (b : Bool) : (s.setBit a k b).freeCtr = s.freeCtr := rfl
@[simp] theorem State.setBit_reply (a k : Nat) (b : Bool) : (s.setBit a k b).reply = s.reply := rfl
@[simp] theorem State.setBit_emitted (a k : Nat) (b : Bool) : (s.setBit a k b).emitted = s.emitted := rfl
@[simp] theorem State.setBit_wram (a k : Nat) (b : Bool) : (s.setBit a k b).wram = s.wram := rfl
@[simp] theorem State.setBit_code (a k : Nat) (b : Bool) : (s.setBit a k b).code = s.code := rfl
@[simp] theorem State.setBit_latch (a k : Nat) (b : Bool) : (s.setBit a k b).latch = s.latch := rfl
@[simp] theorem State.setBit_locked (a k : Nat) (b : Bool) : (s.setBit a k b).locked = s.locked := rfl
@[simp] theorem State.setBit_cfg (a k : Nat) (b : Bool) : (s.setBit a k b).cfg = s.cfg := rfl
@[simp] theorem State.setBit_sysKey (a k : Nat) (b : Bool) : (s.setBit a k b).sysKey = s.sysKey := rfl
@[simp] theorem State.setBit_rings (a k : Nat) (b : Bool) : (s.setBit a k b).rings = s.rings := rfl
@[simp] theorem State.setBit_seq (a k : Nat) (b : Bool) : (s.setBit a k b).seq = s.seq := rfl
@[simp] theorem State.setBit_erg (a k : Nat) (b : Bool) : (s.setBit a k b).erg = s.erg := rfl
@[simp] theorem State.setBit_ctx (a k : Nat) (b : Bool) : (s.setBit a k b).ctx = s.ctx := rfl
@[simp] theorem State.setBit_obox (a k : Nat) (b : Bool) : (s.setBit a k b).obox = s.obox := rfl
@[simp] theorem State.setBit_fe (a k : Nat) (b : Bool) : (s.setBit a k b).fe = s.fe := rfl
@[simp] theorem State.setBit_evr (a k : Nat) (b : Bool) : (s.setBit a k b).evr = s.evr := rfl
@[simp] theorem State.setBit_tim (a k : Nat) (b : Bool) : (s.setBit a k b).tim = s.tim := rfl
@[simp] theorem State.setBit_oas (a k : Nat) (b : Bool) : (s.setBit a k b).oas = s.oas := rfl
@[simp] theorem State.setBit_sec (a k : Nat) (b : Bool) : (s.setBit a k b).sec = s.sec := rfl
@[simp] theorem State.setBit_net (a k : Nat) (b : Bool) : (s.setBit a k b).net = s.net := rfl
@[simp] theorem State.setBit_arb (a k : Nat) (b : Bool) : (s.setBit a k b).arb = s.arb := rfl
@[simp] theorem State.setBit_rad (a k : Nat) (b : Bool) : (s.setBit a k b).rad = s.rad := rfl
@[simp] theorem State.setBit_plc (a k : Nat) (b : Bool) : (s.setBit a k b).plc = s.plc := rfl
@[simp] theorem State.setBit_med (a k : Nat) (b : Bool) : (s.setBit a k b).med = s.med := rfl
@[simp] theorem State.setBit_sef (a k : Nat) (b : Bool) : (s.setBit a k b).sef = s.sef := rfl
@[simp] theorem State.setBit_pow (a k : Nat) (b : Bool) : (s.setBit a k b).pow = s.pow := rfl
@[simp] theorem State.setBit_nor (a k : Nat) (b : Bool) : (s.setBit a k b).nor = s.nor := rfl
@[simp] theorem State.setBit_boot (a k : Nat) (b : Bool) : (s.setBit a k b).boot = s.boot := rfl
@[simp] theorem State.setBit_rpl (a k : Nat) (b : Bool) : (s.setBit a k b).rpl = s.rpl := rfl

@[simp] theorem State.setFld_pending (a hi lo v : Nat) : (s.setFld a hi lo v).pending = s.pending := rfl
@[simp] theorem State.setFld_t (a hi lo v : Nat) : (s.setFld a hi lo v).t = s.t := rfl
@[simp] theorem State.setFld_dev (a hi lo v : Nat) : (s.setFld a hi lo v).dev = s.dev := rfl
@[simp] theorem State.setFld_devSub (a hi lo v : Nat) : (s.setFld a hi lo v).devSub = s.devSub := rfl
@[simp] theorem State.setFld_freeCtr (a hi lo v : Nat) : (s.setFld a hi lo v).freeCtr = s.freeCtr := rfl
@[simp] theorem State.setFld_reply (a hi lo v : Nat) : (s.setFld a hi lo v).reply = s.reply := rfl
@[simp] theorem State.setFld_emitted (a hi lo v : Nat) : (s.setFld a hi lo v).emitted = s.emitted := rfl
@[simp] theorem State.setFld_wram (a hi lo v : Nat) : (s.setFld a hi lo v).wram = s.wram := rfl
@[simp] theorem State.setFld_code (a hi lo v : Nat) : (s.setFld a hi lo v).code = s.code := rfl
@[simp] theorem State.setFld_latch (a hi lo v : Nat) : (s.setFld a hi lo v).latch = s.latch := rfl
@[simp] theorem State.setFld_locked (a hi lo v : Nat) : (s.setFld a hi lo v).locked = s.locked := rfl
@[simp] theorem State.setFld_cfg (a hi lo v : Nat) : (s.setFld a hi lo v).cfg = s.cfg := rfl
@[simp] theorem State.setFld_sysKey (a hi lo v : Nat) : (s.setFld a hi lo v).sysKey = s.sysKey := rfl
@[simp] theorem State.setFld_rings (a hi lo v : Nat) : (s.setFld a hi lo v).rings = s.rings := rfl
@[simp] theorem State.setFld_seq (a hi lo v : Nat) : (s.setFld a hi lo v).seq = s.seq := rfl
@[simp] theorem State.setFld_erg (a hi lo v : Nat) : (s.setFld a hi lo v).erg = s.erg := rfl
@[simp] theorem State.setFld_ctx (a hi lo v : Nat) : (s.setFld a hi lo v).ctx = s.ctx := rfl
@[simp] theorem State.setFld_obox (a hi lo v : Nat) : (s.setFld a hi lo v).obox = s.obox := rfl
@[simp] theorem State.setFld_fe (a hi lo v : Nat) : (s.setFld a hi lo v).fe = s.fe := rfl
@[simp] theorem State.setFld_evr (a hi lo v : Nat) : (s.setFld a hi lo v).evr = s.evr := rfl
@[simp] theorem State.setFld_tim (a hi lo v : Nat) : (s.setFld a hi lo v).tim = s.tim := rfl
@[simp] theorem State.setFld_oas (a hi lo v : Nat) : (s.setFld a hi lo v).oas = s.oas := rfl
@[simp] theorem State.setFld_sec (a hi lo v : Nat) : (s.setFld a hi lo v).sec = s.sec := rfl
@[simp] theorem State.setFld_net (a hi lo v : Nat) : (s.setFld a hi lo v).net = s.net := rfl
@[simp] theorem State.setFld_arb (a hi lo v : Nat) : (s.setFld a hi lo v).arb = s.arb := rfl
@[simp] theorem State.setFld_rad (a hi lo v : Nat) : (s.setFld a hi lo v).rad = s.rad := rfl
@[simp] theorem State.setFld_plc (a hi lo v : Nat) : (s.setFld a hi lo v).plc = s.plc := rfl
@[simp] theorem State.setFld_med (a hi lo v : Nat) : (s.setFld a hi lo v).med = s.med := rfl
@[simp] theorem State.setFld_sef (a hi lo v : Nat) : (s.setFld a hi lo v).sef = s.sef := rfl
@[simp] theorem State.setFld_pow (a hi lo v : Nat) : (s.setFld a hi lo v).pow = s.pow := rfl
@[simp] theorem State.setFld_nor (a hi lo v : Nat) : (s.setFld a hi lo v).nor = s.nor := rfl
@[simp] theorem State.setFld_boot (a hi lo v : Nat) : (s.setFld a hi lo v).boot = s.boot := rfl
@[simp] theorem State.setFld_rpl (a hi lo v : Nat) : (s.setFld a hi lo v).rpl = s.rpl := rfl

@[simp] theorem State.count_pending (a n : Nat) : (s.count a n).pending = s.pending := rfl
@[simp] theorem State.count_t (a n : Nat) : (s.count a n).t = s.t := rfl
@[simp] theorem State.count_dev (a n : Nat) : (s.count a n).dev = s.dev := rfl
@[simp] theorem State.count_devSub (a n : Nat) : (s.count a n).devSub = s.devSub := rfl
@[simp] theorem State.count_freeCtr (a n : Nat) : (s.count a n).freeCtr = s.freeCtr := rfl
@[simp] theorem State.count_reply (a n : Nat) : (s.count a n).reply = s.reply := rfl
@[simp] theorem State.count_emitted (a n : Nat) : (s.count a n).emitted = s.emitted := rfl
@[simp] theorem State.count_wram (a n : Nat) : (s.count a n).wram = s.wram := rfl
@[simp] theorem State.count_code (a n : Nat) : (s.count a n).code = s.code := rfl
@[simp] theorem State.count_latch (a n : Nat) : (s.count a n).latch = s.latch := rfl
@[simp] theorem State.count_locked (a n : Nat) : (s.count a n).locked = s.locked := rfl
@[simp] theorem State.count_cfg (a n : Nat) : (s.count a n).cfg = s.cfg := rfl
@[simp] theorem State.count_sysKey (a n : Nat) : (s.count a n).sysKey = s.sysKey := rfl
@[simp] theorem State.count_rings (a n : Nat) : (s.count a n).rings = s.rings := rfl
@[simp] theorem State.count_seq (a n : Nat) : (s.count a n).seq = s.seq := rfl
@[simp] theorem State.count_erg (a n : Nat) : (s.count a n).erg = s.erg := rfl
@[simp] theorem State.count_ctx (a n : Nat) : (s.count a n).ctx = s.ctx := rfl
@[simp] theorem State.count_obox (a n : Nat) : (s.count a n).obox = s.obox := rfl
@[simp] theorem State.count_fe (a n : Nat) : (s.count a n).fe = s.fe := rfl
@[simp] theorem State.count_evr (a n : Nat) : (s.count a n).evr = s.evr := rfl
@[simp] theorem State.count_tim (a n : Nat) : (s.count a n).tim = s.tim := rfl
@[simp] theorem State.count_oas (a n : Nat) : (s.count a n).oas = s.oas := rfl
@[simp] theorem State.count_sec (a n : Nat) : (s.count a n).sec = s.sec := rfl
@[simp] theorem State.count_net (a n : Nat) : (s.count a n).net = s.net := rfl
@[simp] theorem State.count_arb (a n : Nat) : (s.count a n).arb = s.arb := rfl
@[simp] theorem State.count_rad (a n : Nat) : (s.count a n).rad = s.rad := rfl
@[simp] theorem State.count_plc (a n : Nat) : (s.count a n).plc = s.plc := rfl
@[simp] theorem State.count_med (a n : Nat) : (s.count a n).med = s.med := rfl
@[simp] theorem State.count_sef (a n : Nat) : (s.count a n).sef = s.sef := rfl
@[simp] theorem State.count_pow (a n : Nat) : (s.count a n).pow = s.pow := rfl
@[simp] theorem State.count_nor (a n : Nat) : (s.count a n).nor = s.nor := rfl
@[simp] theorem State.count_boot (a n : Nat) : (s.count a n).boot = s.boot := rfl
@[simp] theorem State.count_rpl (a n : Nat) : (s.count a n).rpl = s.rpl := rfl

@[simp] theorem State.answer_pending (w : Who) (r : Reply) : (s.answer w r).pending = s.pending := rfl
@[simp] theorem State.answer_t (w : Who) (r : Reply) : (s.answer w r).t = s.t := rfl
@[simp] theorem State.answer_dev (w : Who) (r : Reply) : (s.answer w r).dev = s.dev := rfl
@[simp] theorem State.answer_devSub (w : Who) (r : Reply) : (s.answer w r).devSub = s.devSub := rfl
@[simp] theorem State.answer_freeCtr (w : Who) (r : Reply) : (s.answer w r).freeCtr = s.freeCtr := rfl
@[simp] theorem State.answer_emitted (w : Who) (r : Reply) : (s.answer w r).emitted = s.emitted := rfl
@[simp] theorem State.answer_regs (w : Who) (r : Reply) : (s.answer w r).regs = s.regs := rfl
@[simp] theorem State.answer_wram (w : Who) (r : Reply) : (s.answer w r).wram = s.wram := rfl
@[simp] theorem State.answer_code (w : Who) (r : Reply) : (s.answer w r).code = s.code := rfl
@[simp] theorem State.answer_latch (w : Who) (r : Reply) : (s.answer w r).latch = s.latch := rfl
@[simp] theorem State.answer_locked (w : Who) (r : Reply) : (s.answer w r).locked = s.locked := rfl
@[simp] theorem State.answer_cfg (w : Who) (r : Reply) : (s.answer w r).cfg = s.cfg := rfl
@[simp] theorem State.answer_sysKey (w : Who) (r : Reply) : (s.answer w r).sysKey = s.sysKey := rfl
@[simp] theorem State.answer_rings (w : Who) (r : Reply) : (s.answer w r).rings = s.rings := rfl
@[simp] theorem State.answer_seq (w : Who) (r : Reply) : (s.answer w r).seq = s.seq := rfl
@[simp] theorem State.answer_erg (w : Who) (r : Reply) : (s.answer w r).erg = s.erg := rfl
@[simp] theorem State.answer_ctx (w : Who) (r : Reply) : (s.answer w r).ctx = s.ctx := rfl
@[simp] theorem State.answer_obox (w : Who) (r : Reply) : (s.answer w r).obox = s.obox := rfl
@[simp] theorem State.answer_fe (w : Who) (r : Reply) : (s.answer w r).fe = s.fe := rfl
@[simp] theorem State.answer_evr (w : Who) (r : Reply) : (s.answer w r).evr = s.evr := rfl
@[simp] theorem State.answer_tim (w : Who) (r : Reply) : (s.answer w r).tim = s.tim := rfl
@[simp] theorem State.answer_oas (w : Who) (r : Reply) : (s.answer w r).oas = s.oas := rfl
@[simp] theorem State.answer_sec (w : Who) (r : Reply) : (s.answer w r).sec = s.sec := rfl
@[simp] theorem State.answer_net (w : Who) (r : Reply) : (s.answer w r).net = s.net := rfl
@[simp] theorem State.answer_arb (w : Who) (r : Reply) : (s.answer w r).arb = s.arb := rfl
@[simp] theorem State.answer_rad (w : Who) (r : Reply) : (s.answer w r).rad = s.rad := rfl
@[simp] theorem State.answer_plc (w : Who) (r : Reply) : (s.answer w r).plc = s.plc := rfl
@[simp] theorem State.answer_med (w : Who) (r : Reply) : (s.answer w r).med = s.med := rfl
@[simp] theorem State.answer_sef (w : Who) (r : Reply) : (s.answer w r).sef = s.sef := rfl
@[simp] theorem State.answer_pow (w : Who) (r : Reply) : (s.answer w r).pow = s.pow := rfl
@[simp] theorem State.answer_nor (w : Who) (r : Reply) : (s.answer w r).nor = s.nor := rfl
@[simp] theorem State.answer_boot (w : Who) (r : Reply) : (s.answer w r).boot = s.boot := rfl
@[simp] theorem State.answer_rpl (w : Who) (r : Reply) : (s.answer w r).rpl = s.rpl := rfl

@[simp] theorem State.busErr_pending (w : Who) : (s.busErr w).pending = s.pending := rfl
@[simp] theorem State.busErr_t (w : Who) : (s.busErr w).t = s.t := rfl
@[simp] theorem State.busErr_dev (w : Who) : (s.busErr w).dev = s.dev := rfl
@[simp] theorem State.busErr_devSub (w : Who) : (s.busErr w).devSub = s.devSub := rfl
@[simp] theorem State.busErr_freeCtr (w : Who) : (s.busErr w).freeCtr = s.freeCtr := rfl
@[simp] theorem State.busErr_emitted (w : Who) : (s.busErr w).emitted = s.emitted := rfl
@[simp] theorem State.busErr_regs (w : Who) : (s.busErr w).regs = s.regs := rfl
@[simp] theorem State.busErr_wram (w : Who) : (s.busErr w).wram = s.wram := rfl
@[simp] theorem State.busErr_code (w : Who) : (s.busErr w).code = s.code := rfl
@[simp] theorem State.busErr_latch (w : Who) : (s.busErr w).latch = s.latch := rfl
@[simp] theorem State.busErr_locked (w : Who) : (s.busErr w).locked = s.locked := rfl
@[simp] theorem State.busErr_cfg (w : Who) : (s.busErr w).cfg = s.cfg := rfl
@[simp] theorem State.busErr_sysKey (w : Who) : (s.busErr w).sysKey = s.sysKey := rfl
@[simp] theorem State.busErr_rings (w : Who) : (s.busErr w).rings = s.rings := rfl
@[simp] theorem State.busErr_seq (w : Who) : (s.busErr w).seq = s.seq := rfl
@[simp] theorem State.busErr_erg (w : Who) : (s.busErr w).erg = s.erg := rfl
@[simp] theorem State.busErr_ctx (w : Who) : (s.busErr w).ctx = s.ctx := rfl
@[simp] theorem State.busErr_obox (w : Who) : (s.busErr w).obox = s.obox := rfl
@[simp] theorem State.busErr_fe (w : Who) : (s.busErr w).fe = s.fe := rfl
@[simp] theorem State.busErr_evr (w : Who) : (s.busErr w).evr = s.evr := rfl
@[simp] theorem State.busErr_tim (w : Who) : (s.busErr w).tim = s.tim := rfl
@[simp] theorem State.busErr_oas (w : Who) : (s.busErr w).oas = s.oas := rfl
@[simp] theorem State.busErr_sec (w : Who) : (s.busErr w).sec = s.sec := rfl
@[simp] theorem State.busErr_net (w : Who) : (s.busErr w).net = s.net := rfl
@[simp] theorem State.busErr_arb (w : Who) : (s.busErr w).arb = s.arb := rfl
@[simp] theorem State.busErr_rad (w : Who) : (s.busErr w).rad = s.rad := rfl
@[simp] theorem State.busErr_plc (w : Who) : (s.busErr w).plc = s.plc := rfl
@[simp] theorem State.busErr_med (w : Who) : (s.busErr w).med = s.med := rfl
@[simp] theorem State.busErr_sef (w : Who) : (s.busErr w).sef = s.sef := rfl
@[simp] theorem State.busErr_pow (w : Who) : (s.busErr w).pow = s.pow := rfl
@[simp] theorem State.busErr_nor (w : Who) : (s.busErr w).nor = s.nor := rfl
@[simp] theorem State.busErr_boot (w : Who) : (s.busErr w).boot = s.boot := rfl
@[simp] theorem State.busErr_rpl (w : Who) : (s.busErr w).rpl = s.rpl := rfl

@[simp] theorem State.emit_pending (e : Emission) : (s.emit e).pending = s.pending := rfl
@[simp] theorem State.emit_t (e : Emission) : (s.emit e).t = s.t := rfl
@[simp] theorem State.emit_dev (e : Emission) : (s.emit e).dev = s.dev := rfl
@[simp] theorem State.emit_devSub (e : Emission) : (s.emit e).devSub = s.devSub := rfl
@[simp] theorem State.emit_freeCtr (e : Emission) : (s.emit e).freeCtr = s.freeCtr := rfl
@[simp] theorem State.emit_reply (e : Emission) : (s.emit e).reply = s.reply := rfl
@[simp] theorem State.emit_regs (e : Emission) : (s.emit e).regs = s.regs := rfl
@[simp] theorem State.emit_wram (e : Emission) : (s.emit e).wram = s.wram := rfl
@[simp] theorem State.emit_code (e : Emission) : (s.emit e).code = s.code := rfl
@[simp] theorem State.emit_latch (e : Emission) : (s.emit e).latch = s.latch := rfl
@[simp] theorem State.emit_locked (e : Emission) : (s.emit e).locked = s.locked := rfl
@[simp] theorem State.emit_cfg (e : Emission) : (s.emit e).cfg = s.cfg := rfl
@[simp] theorem State.emit_sysKey (e : Emission) : (s.emit e).sysKey = s.sysKey := rfl
@[simp] theorem State.emit_rings (e : Emission) : (s.emit e).rings = s.rings := rfl
@[simp] theorem State.emit_seq (e : Emission) : (s.emit e).seq = s.seq := rfl
@[simp] theorem State.emit_erg (e : Emission) : (s.emit e).erg = s.erg := rfl
@[simp] theorem State.emit_ctx (e : Emission) : (s.emit e).ctx = s.ctx := rfl
@[simp] theorem State.emit_obox (e : Emission) : (s.emit e).obox = s.obox := rfl
@[simp] theorem State.emit_fe (e : Emission) : (s.emit e).fe = s.fe := rfl
@[simp] theorem State.emit_evr (e : Emission) : (s.emit e).evr = s.evr := rfl
@[simp] theorem State.emit_tim (e : Emission) : (s.emit e).tim = s.tim := rfl
@[simp] theorem State.emit_oas (e : Emission) : (s.emit e).oas = s.oas := rfl
@[simp] theorem State.emit_sec (e : Emission) : (s.emit e).sec = s.sec := rfl
@[simp] theorem State.emit_net (e : Emission) : (s.emit e).net = s.net := rfl
@[simp] theorem State.emit_arb (e : Emission) : (s.emit e).arb = s.arb := rfl
@[simp] theorem State.emit_rad (e : Emission) : (s.emit e).rad = s.rad := rfl
@[simp] theorem State.emit_plc (e : Emission) : (s.emit e).plc = s.plc := rfl
@[simp] theorem State.emit_med (e : Emission) : (s.emit e).med = s.med := rfl
@[simp] theorem State.emit_sef (e : Emission) : (s.emit e).sef = s.sef := rfl
@[simp] theorem State.emit_pow (e : Emission) : (s.emit e).pow = s.pow := rfl
@[simp] theorem State.emit_nor (e : Emission) : (s.emit e).nor = s.nor := rfl
@[simp] theorem State.emit_boot (e : Emission) : (s.emit e).boot = s.boot := rfl
@[simp] theorem State.emit_rpl (e : Emission) : (s.emit e).rpl = s.rpl := rfl

@[simp] theorem State.advance_pending (dt : Nat) : (s.advance dt).pending = s.pending := rfl
@[simp] theorem State.advance_freeCtr (dt : Nat) : (s.advance dt).freeCtr = s.freeCtr := rfl
@[simp] theorem State.advance_reply (dt : Nat) : (s.advance dt).reply = s.reply := rfl
@[simp] theorem State.advance_emitted (dt : Nat) : (s.advance dt).emitted = s.emitted := rfl
@[simp] theorem State.advance_regs (dt : Nat) : (s.advance dt).regs = s.regs := rfl
@[simp] theorem State.advance_wram (dt : Nat) : (s.advance dt).wram = s.wram := rfl
@[simp] theorem State.advance_code (dt : Nat) : (s.advance dt).code = s.code := rfl
@[simp] theorem State.advance_latch (dt : Nat) : (s.advance dt).latch = s.latch := rfl
@[simp] theorem State.advance_locked (dt : Nat) : (s.advance dt).locked = s.locked := rfl
@[simp] theorem State.advance_cfg (dt : Nat) : (s.advance dt).cfg = s.cfg := rfl
@[simp] theorem State.advance_sysKey (dt : Nat) : (s.advance dt).sysKey = s.sysKey := rfl
@[simp] theorem State.advance_rings (dt : Nat) : (s.advance dt).rings = s.rings := rfl
@[simp] theorem State.advance_seq (dt : Nat) : (s.advance dt).seq = s.seq := rfl
@[simp] theorem State.advance_erg (dt : Nat) : (s.advance dt).erg = s.erg := rfl
@[simp] theorem State.advance_ctx (dt : Nat) : (s.advance dt).ctx = s.ctx := rfl
@[simp] theorem State.advance_obox (dt : Nat) : (s.advance dt).obox = s.obox := rfl
@[simp] theorem State.advance_fe (dt : Nat) : (s.advance dt).fe = s.fe := rfl
@[simp] theorem State.advance_evr (dt : Nat) : (s.advance dt).evr = s.evr := rfl
@[simp] theorem State.advance_tim (dt : Nat) : (s.advance dt).tim = s.tim := rfl
@[simp] theorem State.advance_sec (dt : Nat) : (s.advance dt).sec = s.sec := rfl
@[simp] theorem State.advance_net (dt : Nat) : (s.advance dt).net = s.net := rfl
@[simp] theorem State.advance_arb (dt : Nat) : (s.advance dt).arb = s.arb := rfl
@[simp] theorem State.advance_rad (dt : Nat) : (s.advance dt).rad = s.rad := rfl
@[simp] theorem State.advance_plc (dt : Nat) : (s.advance dt).plc = s.plc := rfl
@[simp] theorem State.advance_med (dt : Nat) : (s.advance dt).med = s.med := rfl
@[simp] theorem State.advance_sef (dt : Nat) : (s.advance dt).sef = s.sef := rfl
@[simp] theorem State.advance_pow (dt : Nat) : (s.advance dt).pow = s.pow := rfl
@[simp] theorem State.advance_nor (dt : Nat) : (s.advance dt).nor = s.nor := rfl
@[simp] theorem State.advance_boot (dt : Nat) : (s.advance dt).boot = s.boot := rfl
@[simp] theorem State.advance_rpl (dt : Nat) : (s.advance dt).rpl = s.rpl := rfl

@[simp] theorem State.until_pending (d : Nat) : (s.until d).pending = s.pending := by unfold State.until; split <;> rfl
@[simp] theorem State.until_freeCtr (d : Nat) : (s.until d).freeCtr = s.freeCtr := by unfold State.until; split <;> rfl
@[simp] theorem State.until_reply (d : Nat) : (s.until d).reply = s.reply := by unfold State.until; split <;> rfl
@[simp] theorem State.until_emitted (d : Nat) : (s.until d).emitted = s.emitted := by unfold State.until; split <;> rfl
@[simp] theorem State.until_regs (d : Nat) : (s.until d).regs = s.regs := by unfold State.until; split <;> rfl
@[simp] theorem State.until_wram (d : Nat) : (s.until d).wram = s.wram := by unfold State.until; split <;> rfl
@[simp] theorem State.until_code (d : Nat) : (s.until d).code = s.code := by unfold State.until; split <;> rfl
@[simp] theorem State.until_latch (d : Nat) : (s.until d).latch = s.latch := by unfold State.until; split <;> rfl
@[simp] theorem State.until_locked (d : Nat) : (s.until d).locked = s.locked := by unfold State.until; split <;> rfl
@[simp] theorem State.until_cfg (d : Nat) : (s.until d).cfg = s.cfg := by unfold State.until; split <;> rfl
@[simp] theorem State.until_sysKey (d : Nat) : (s.until d).sysKey = s.sysKey := by unfold State.until; split <;> rfl
@[simp] theorem State.until_rings (d : Nat) : (s.until d).rings = s.rings := by unfold State.until; split <;> rfl
@[simp] theorem State.until_seq (d : Nat) : (s.until d).seq = s.seq := by unfold State.until; split <;> rfl
@[simp] theorem State.until_erg (d : Nat) : (s.until d).erg = s.erg := by unfold State.until; split <;> rfl
@[simp] theorem State.until_ctx (d : Nat) : (s.until d).ctx = s.ctx := by unfold State.until; split <;> rfl
@[simp] theorem State.until_obox (d : Nat) : (s.until d).obox = s.obox := by unfold State.until; split <;> rfl
@[simp] theorem State.until_fe (d : Nat) : (s.until d).fe = s.fe := by unfold State.until; split <;> rfl
@[simp] theorem State.until_evr (d : Nat) : (s.until d).evr = s.evr := by unfold State.until; split <;> rfl
@[simp] theorem State.until_tim (d : Nat) : (s.until d).tim = s.tim := by unfold State.until; split <;> rfl
@[simp] theorem State.until_sec (d : Nat) : (s.until d).sec = s.sec := by unfold State.until; split <;> rfl
@[simp] theorem State.until_net (d : Nat) : (s.until d).net = s.net := by unfold State.until; split <;> rfl
@[simp] theorem State.until_arb (d : Nat) : (s.until d).arb = s.arb := by unfold State.until; split <;> rfl
@[simp] theorem State.until_rad (d : Nat) : (s.until d).rad = s.rad := by unfold State.until; split <;> rfl
@[simp] theorem State.until_plc (d : Nat) : (s.until d).plc = s.plc := by unfold State.until; split <;> rfl
@[simp] theorem State.until_med (d : Nat) : (s.until d).med = s.med := by unfold State.until; split <;> rfl
@[simp] theorem State.until_sef (d : Nat) : (s.until d).sef = s.sef := by unfold State.until; split <;> rfl
@[simp] theorem State.until_pow (d : Nat) : (s.until d).pow = s.pow := by unfold State.until; split <;> rfl
@[simp] theorem State.until_nor (d : Nat) : (s.until d).nor = s.nor := by unfold State.until; split <;> rfl
@[simp] theorem State.until_boot (d : Nat) : (s.until d).boot = s.boot := by unfold State.until; split <;> rfl
@[simp] theorem State.until_rpl (d : Nat) : (s.until d).rpl = s.rpl := by unfold State.until; split <;> rfl

@[simp] theorem State.untilDev_pending (d : Nat) : (s.untilDev d).pending = s.pending := by unfold State.untilDev; split <;> dsimp only <;> split <;> rfl
@[simp] theorem State.untilDev_freeCtr (d : Nat) : (s.untilDev d).freeCtr = s.freeCtr := by unfold State.untilDev; split <;> dsimp only <;> split <;> rfl
@[simp] theorem State.untilDev_reply (d : Nat) : (s.untilDev d).reply = s.reply := by unfold State.untilDev; split <;> dsimp only <;> split <;> rfl
@[simp] theorem State.untilDev_emitted (d : Nat) : (s.untilDev d).emitted = s.emitted := by unfold State.untilDev; split <;> dsimp only <;> split <;> rfl
@[simp] theorem State.untilDev_regs (d : Nat) : (s.untilDev d).regs = s.regs := by unfold State.untilDev; split <;> dsimp only <;> split <;> rfl
@[simp] theorem State.untilDev_wram (d : Nat) : (s.untilDev d).wram = s.wram := by unfold State.untilDev; split <;> dsimp only <;> split <;> rfl
@[simp] theorem State.untilDev_code (d : Nat) : (s.untilDev d).code = s.code := by unfold State.untilDev; split <;> dsimp only <;> split <;> rfl
@[simp] theorem State.untilDev_latch (d : Nat) : (s.untilDev d).latch = s.latch := by unfold State.untilDev; split <;> dsimp only <;> split <;> rfl
@[simp] theorem State.untilDev_locked (d : Nat) : (s.untilDev d).locked = s.locked := by unfold State.untilDev; split <;> dsimp only <;> split <;> rfl
@[simp] theorem State.untilDev_cfg (d : Nat) : (s.untilDev d).cfg = s.cfg := by unfold State.untilDev; split <;> dsimp only <;> split <;> rfl
@[simp] theorem State.untilDev_sysKey (d : Nat) : (s.untilDev d).sysKey = s.sysKey := by unfold State.untilDev; split <;> dsimp only <;> split <;> rfl
@[simp] theorem State.untilDev_rings (d : Nat) : (s.untilDev d).rings = s.rings := by unfold State.untilDev; split <;> dsimp only <;> split <;> rfl
@[simp] theorem State.untilDev_seq (d : Nat) : (s.untilDev d).seq = s.seq := by unfold State.untilDev; split <;> dsimp only <;> split <;> rfl
@[simp] theorem State.untilDev_erg (d : Nat) : (s.untilDev d).erg = s.erg := by unfold State.untilDev; split <;> dsimp only <;> split <;> rfl
@[simp] theorem State.untilDev_ctx (d : Nat) : (s.untilDev d).ctx = s.ctx := by unfold State.untilDev; split <;> dsimp only <;> split <;> rfl
@[simp] theorem State.untilDev_obox (d : Nat) : (s.untilDev d).obox = s.obox := by unfold State.untilDev; split <;> dsimp only <;> split <;> rfl
@[simp] theorem State.untilDev_fe (d : Nat) : (s.untilDev d).fe = s.fe := by unfold State.untilDev; split <;> dsimp only <;> split <;> rfl
@[simp] theorem State.untilDev_evr (d : Nat) : (s.untilDev d).evr = s.evr := by unfold State.untilDev; split <;> dsimp only <;> split <;> rfl
@[simp] theorem State.untilDev_tim (d : Nat) : (s.untilDev d).tim = s.tim := by unfold State.untilDev; split <;> dsimp only <;> split <;> rfl
@[simp] theorem State.untilDev_sec (d : Nat) : (s.untilDev d).sec = s.sec := by unfold State.untilDev; split <;> dsimp only <;> split <;> rfl
@[simp] theorem State.untilDev_net (d : Nat) : (s.untilDev d).net = s.net := by unfold State.untilDev; split <;> dsimp only <;> split <;> rfl
@[simp] theorem State.untilDev_arb (d : Nat) : (s.untilDev d).arb = s.arb := by unfold State.untilDev; split <;> dsimp only <;> split <;> rfl
@[simp] theorem State.untilDev_rad (d : Nat) : (s.untilDev d).rad = s.rad := by unfold State.untilDev; split <;> dsimp only <;> split <;> rfl
@[simp] theorem State.untilDev_plc (d : Nat) : (s.untilDev d).plc = s.plc := by unfold State.untilDev; split <;> dsimp only <;> split <;> rfl
@[simp] theorem State.untilDev_med (d : Nat) : (s.untilDev d).med = s.med := by unfold State.untilDev; split <;> dsimp only <;> split <;> rfl
@[simp] theorem State.untilDev_sef (d : Nat) : (s.untilDev d).sef = s.sef := by unfold State.untilDev; split <;> dsimp only <;> split <;> rfl
@[simp] theorem State.untilDev_pow (d : Nat) : (s.untilDev d).pow = s.pow := by unfold State.untilDev; split <;> dsimp only <;> split <;> rfl
@[simp] theorem State.untilDev_nor (d : Nat) : (s.untilDev d).nor = s.nor := by unfold State.untilDev; split <;> dsimp only <;> split <;> rfl
@[simp] theorem State.untilDev_boot (d : Nat) : (s.untilDev d).boot = s.boot := by unfold State.untilDev; split <;> dsimp only <;> split <;> rfl
@[simp] theorem State.untilDev_rpl (d : Nat) : (s.untilDev d).rpl = s.rpl := by unfold State.untilDev; split <;> dsimp only <;> split <;> rfl

@[simp] theorem State.setRing_pending (n : Nat) (r : Ring) : (s.setRing n r).pending = s.pending := rfl
@[simp] theorem State.setRing_t (n : Nat) (r : Ring) : (s.setRing n r).t = s.t := rfl
@[simp] theorem State.setRing_dev (n : Nat) (r : Ring) : (s.setRing n r).dev = s.dev := rfl
@[simp] theorem State.setRing_devSub (n : Nat) (r : Ring) : (s.setRing n r).devSub = s.devSub := rfl
@[simp] theorem State.setRing_freeCtr (n : Nat) (r : Ring) : (s.setRing n r).freeCtr = s.freeCtr := rfl
@[simp] theorem State.setRing_reply (n : Nat) (r : Ring) : (s.setRing n r).reply = s.reply := rfl
@[simp] theorem State.setRing_emitted (n : Nat) (r : Ring) : (s.setRing n r).emitted = s.emitted := rfl
@[simp] theorem State.setRing_regs (n : Nat) (r : Ring) : (s.setRing n r).regs = s.regs := rfl
@[simp] theorem State.setRing_wram (n : Nat) (r : Ring) : (s.setRing n r).wram = s.wram := rfl
@[simp] theorem State.setRing_code (n : Nat) (r : Ring) : (s.setRing n r).code = s.code := rfl
@[simp] theorem State.setRing_latch (n : Nat) (r : Ring) : (s.setRing n r).latch = s.latch := rfl
@[simp] theorem State.setRing_locked (n : Nat) (r : Ring) : (s.setRing n r).locked = s.locked := rfl
@[simp] theorem State.setRing_cfg (n : Nat) (r : Ring) : (s.setRing n r).cfg = s.cfg := rfl
@[simp] theorem State.setRing_sysKey (n : Nat) (r : Ring) : (s.setRing n r).sysKey = s.sysKey := rfl
@[simp] theorem State.setRing_seq (n : Nat) (r : Ring) : (s.setRing n r).seq = s.seq := rfl
@[simp] theorem State.setRing_erg (n : Nat) (r : Ring) : (s.setRing n r).erg = s.erg := rfl
@[simp] theorem State.setRing_ctx (n : Nat) (r : Ring) : (s.setRing n r).ctx = s.ctx := rfl
@[simp] theorem State.setRing_obox (n : Nat) (r : Ring) : (s.setRing n r).obox = s.obox := rfl
@[simp] theorem State.setRing_fe (n : Nat) (r : Ring) : (s.setRing n r).fe = s.fe := rfl
@[simp] theorem State.setRing_evr (n : Nat) (r : Ring) : (s.setRing n r).evr = s.evr := rfl
@[simp] theorem State.setRing_tim (n : Nat) (r : Ring) : (s.setRing n r).tim = s.tim := rfl
@[simp] theorem State.setRing_oas (n : Nat) (r : Ring) : (s.setRing n r).oas = s.oas := rfl
@[simp] theorem State.setRing_sec (n : Nat) (r : Ring) : (s.setRing n r).sec = s.sec := rfl
@[simp] theorem State.setRing_net (n : Nat) (r : Ring) : (s.setRing n r).net = s.net := rfl
@[simp] theorem State.setRing_arb (n : Nat) (r : Ring) : (s.setRing n r).arb = s.arb := rfl
@[simp] theorem State.setRing_rad (n : Nat) (r : Ring) : (s.setRing n r).rad = s.rad := rfl
@[simp] theorem State.setRing_plc (n : Nat) (r : Ring) : (s.setRing n r).plc = s.plc := rfl
@[simp] theorem State.setRing_med (n : Nat) (r : Ring) : (s.setRing n r).med = s.med := rfl
@[simp] theorem State.setRing_sef (n : Nat) (r : Ring) : (s.setRing n r).sef = s.sef := rfl
@[simp] theorem State.setRing_pow (n : Nat) (r : Ring) : (s.setRing n r).pow = s.pow := rfl
@[simp] theorem State.setRing_nor (n : Nat) (r : Ring) : (s.setRing n r).nor = s.nor := rfl
@[simp] theorem State.setRing_boot (n : Nat) (r : Ring) : (s.setRing n r).boot = s.boot := rfl
@[simp] theorem State.setRing_rpl (n : Nat) (r : Ring) : (s.setRing n r).rpl = s.rpl := rfl

@[simp] theorem State.putRingWord_pending (r : Ring) (p : Nat) (v : Word) : (s.putRingWord r p v).pending = s.pending := rfl
@[simp] theorem State.putRingWord_t (r : Ring) (p : Nat) (v : Word) : (s.putRingWord r p v).t = s.t := rfl
@[simp] theorem State.putRingWord_dev (r : Ring) (p : Nat) (v : Word) : (s.putRingWord r p v).dev = s.dev := rfl
@[simp] theorem State.putRingWord_devSub (r : Ring) (p : Nat) (v : Word) : (s.putRingWord r p v).devSub = s.devSub := rfl
@[simp] theorem State.putRingWord_freeCtr (r : Ring) (p : Nat) (v : Word) : (s.putRingWord r p v).freeCtr = s.freeCtr := rfl
@[simp] theorem State.putRingWord_reply (r : Ring) (p : Nat) (v : Word) : (s.putRingWord r p v).reply = s.reply := rfl
@[simp] theorem State.putRingWord_emitted (r : Ring) (p : Nat) (v : Word) : (s.putRingWord r p v).emitted = s.emitted := rfl
@[simp] theorem State.putRingWord_regs (r : Ring) (p : Nat) (v : Word) : (s.putRingWord r p v).regs = s.regs := rfl
@[simp] theorem State.putRingWord_code (r : Ring) (p : Nat) (v : Word) : (s.putRingWord r p v).code = s.code := rfl
@[simp] theorem State.putRingWord_latch (r : Ring) (p : Nat) (v : Word) : (s.putRingWord r p v).latch = s.latch := rfl
@[simp] theorem State.putRingWord_locked (r : Ring) (p : Nat) (v : Word) : (s.putRingWord r p v).locked = s.locked := rfl
@[simp] theorem State.putRingWord_cfg (r : Ring) (p : Nat) (v : Word) : (s.putRingWord r p v).cfg = s.cfg := rfl
@[simp] theorem State.putRingWord_sysKey (r : Ring) (p : Nat) (v : Word) : (s.putRingWord r p v).sysKey = s.sysKey := rfl
@[simp] theorem State.putRingWord_rings (r : Ring) (p : Nat) (v : Word) : (s.putRingWord r p v).rings = s.rings := rfl
@[simp] theorem State.putRingWord_seq (r : Ring) (p : Nat) (v : Word) : (s.putRingWord r p v).seq = s.seq := rfl
@[simp] theorem State.putRingWord_erg (r : Ring) (p : Nat) (v : Word) : (s.putRingWord r p v).erg = s.erg := rfl
@[simp] theorem State.putRingWord_ctx (r : Ring) (p : Nat) (v : Word) : (s.putRingWord r p v).ctx = s.ctx := rfl
@[simp] theorem State.putRingWord_obox (r : Ring) (p : Nat) (v : Word) : (s.putRingWord r p v).obox = s.obox := rfl
@[simp] theorem State.putRingWord_fe (r : Ring) (p : Nat) (v : Word) : (s.putRingWord r p v).fe = s.fe := rfl
@[simp] theorem State.putRingWord_evr (r : Ring) (p : Nat) (v : Word) : (s.putRingWord r p v).evr = s.evr := rfl
@[simp] theorem State.putRingWord_tim (r : Ring) (p : Nat) (v : Word) : (s.putRingWord r p v).tim = s.tim := rfl
@[simp] theorem State.putRingWord_oas (r : Ring) (p : Nat) (v : Word) : (s.putRingWord r p v).oas = s.oas := rfl
@[simp] theorem State.putRingWord_sec (r : Ring) (p : Nat) (v : Word) : (s.putRingWord r p v).sec = s.sec := rfl
@[simp] theorem State.putRingWord_net (r : Ring) (p : Nat) (v : Word) : (s.putRingWord r p v).net = s.net := rfl
@[simp] theorem State.putRingWord_arb (r : Ring) (p : Nat) (v : Word) : (s.putRingWord r p v).arb = s.arb := rfl
@[simp] theorem State.putRingWord_rad (r : Ring) (p : Nat) (v : Word) : (s.putRingWord r p v).rad = s.rad := rfl
@[simp] theorem State.putRingWord_plc (r : Ring) (p : Nat) (v : Word) : (s.putRingWord r p v).plc = s.plc := rfl
@[simp] theorem State.putRingWord_med (r : Ring) (p : Nat) (v : Word) : (s.putRingWord r p v).med = s.med := rfl
@[simp] theorem State.putRingWord_sef (r : Ring) (p : Nat) (v : Word) : (s.putRingWord r p v).sef = s.sef := rfl
@[simp] theorem State.putRingWord_pow (r : Ring) (p : Nat) (v : Word) : (s.putRingWord r p v).pow = s.pow := rfl
@[simp] theorem State.putRingWord_nor (r : Ring) (p : Nat) (v : Word) : (s.putRingWord r p v).nor = s.nor := rfl
@[simp] theorem State.putRingWord_boot (r : Ring) (p : Nat) (v : Word) : (s.putRingWord r p v).boot = s.boot := rfl
@[simp] theorem State.putRingWord_rpl (r : Ring) (p : Nat) (v : Word) : (s.putRingWord r p v).rpl = s.rpl := rfl

@[simp] theorem State.setSlot_pending (i : Nat) (x : Slot) : (s.setSlot i x).pending = s.pending := rfl
@[simp] theorem State.setSlot_t (i : Nat) (x : Slot) : (s.setSlot i x).t = s.t := rfl
@[simp] theorem State.setSlot_dev (i : Nat) (x : Slot) : (s.setSlot i x).dev = s.dev := rfl
@[simp] theorem State.setSlot_devSub (i : Nat) (x : Slot) : (s.setSlot i x).devSub = s.devSub := rfl
@[simp] theorem State.setSlot_freeCtr (i : Nat) (x : Slot) : (s.setSlot i x).freeCtr = s.freeCtr := rfl
@[simp] theorem State.setSlot_reply (i : Nat) (x : Slot) : (s.setSlot i x).reply = s.reply := rfl
@[simp] theorem State.setSlot_emitted (i : Nat) (x : Slot) : (s.setSlot i x).emitted = s.emitted := rfl
@[simp] theorem State.setSlot_regs (i : Nat) (x : Slot) : (s.setSlot i x).regs = s.regs := rfl
@[simp] theorem State.setSlot_wram (i : Nat) (x : Slot) : (s.setSlot i x).wram = s.wram := rfl
@[simp] theorem State.setSlot_code (i : Nat) (x : Slot) : (s.setSlot i x).code = s.code := rfl
@[simp] theorem State.setSlot_latch (i : Nat) (x : Slot) : (s.setSlot i x).latch = s.latch := rfl
@[simp] theorem State.setSlot_locked (i : Nat) (x : Slot) : (s.setSlot i x).locked = s.locked := rfl
@[simp] theorem State.setSlot_cfg (i : Nat) (x : Slot) : (s.setSlot i x).cfg = s.cfg := rfl
@[simp] theorem State.setSlot_sysKey (i : Nat) (x : Slot) : (s.setSlot i x).sysKey = s.sysKey := rfl
@[simp] theorem State.setSlot_rings (i : Nat) (x : Slot) : (s.setSlot i x).rings = s.rings := rfl
@[simp] theorem State.setSlot_seq (i : Nat) (x : Slot) : (s.setSlot i x).seq = s.seq := rfl
@[simp] theorem State.setSlot_erg (i : Nat) (x : Slot) : (s.setSlot i x).erg = s.erg := rfl
@[simp] theorem State.setSlot_obox (i : Nat) (x : Slot) : (s.setSlot i x).obox = s.obox := rfl
@[simp] theorem State.setSlot_fe (i : Nat) (x : Slot) : (s.setSlot i x).fe = s.fe := rfl
@[simp] theorem State.setSlot_evr (i : Nat) (x : Slot) : (s.setSlot i x).evr = s.evr := rfl
@[simp] theorem State.setSlot_tim (i : Nat) (x : Slot) : (s.setSlot i x).tim = s.tim := rfl
@[simp] theorem State.setSlot_oas (i : Nat) (x : Slot) : (s.setSlot i x).oas = s.oas := rfl
@[simp] theorem State.setSlot_sec (i : Nat) (x : Slot) : (s.setSlot i x).sec = s.sec := rfl
@[simp] theorem State.setSlot_net (i : Nat) (x : Slot) : (s.setSlot i x).net = s.net := rfl
@[simp] theorem State.setSlot_arb (i : Nat) (x : Slot) : (s.setSlot i x).arb = s.arb := rfl
@[simp] theorem State.setSlot_rad (i : Nat) (x : Slot) : (s.setSlot i x).rad = s.rad := rfl
@[simp] theorem State.setSlot_plc (i : Nat) (x : Slot) : (s.setSlot i x).plc = s.plc := rfl
@[simp] theorem State.setSlot_med (i : Nat) (x : Slot) : (s.setSlot i x).med = s.med := rfl
@[simp] theorem State.setSlot_sef (i : Nat) (x : Slot) : (s.setSlot i x).sef = s.sef := rfl
@[simp] theorem State.setSlot_pow (i : Nat) (x : Slot) : (s.setSlot i x).pow = s.pow := rfl
@[simp] theorem State.setSlot_nor (i : Nat) (x : Slot) : (s.setSlot i x).nor = s.nor := rfl
@[simp] theorem State.setSlot_boot (i : Nat) (x : Slot) : (s.setSlot i x).boot = s.boot := rfl
@[simp] theorem State.setSlot_rpl (i : Nat) (x : Slot) : (s.setSlot i x).rpl = s.rpl := rfl

@[simp] theorem State.until_raw (d : Nat) : (s.until d).oas = { s.oas with raw := s.oas.raw + (d - s.t) } := by
  unfold State.until
  split
  · rfl
  · rename_i h
    rw [Nat.sub_eq_zero_of_le (Nat.le_of_not_lt h)]
    rfl

@[simp] theorem State.until_t (d : Nat) : (s.until d).t = max s.t d := by
  unfold State.until
  split
  · show s.t + (d - s.t) = max s.t d
    omega
  · omega

/-- Letting time pass moves the clocks only. -/
theorem State.until_eq (d : Nat) : s.until d =
    { s with t := max s.t d, dev := (s.until d).dev, devSub := (s.until d).devSub, oas := { s.oas with raw := s.oas.raw + (d - s.t) } } := by
  rw [← State.until_t, ← State.until_raw]
  unfold State.until
  split <;> rfl

/-- A flag set in a register changes registers only. -/
theorem State.irq_eq (a k : Nat) : s.irq a k = { s with regs := (s.irq a k).regs } := by unfold State.irq; split <;> rfl

/-! ### Registers -/

theorem State.reg_lt (a : Nat) : s.reg a < 2 ^ 32 := (sget regReset s.regs a).isLt

/-- A register reads the value stored; every other reads as before. -/
theorem State.reg_setReg {s : State} (h : swf regReset s.regs = true) (a v b : Nat) :
    (s.setReg a v).reg b = if b = a then v % 2 ^ 32 else s.reg b := by
  unfold State.reg State.setReg
  simp only [sget_sput regReset h]
  split <;> simp

theorem State.reg_setReg_other {s : State} (h : swf regReset s.regs = true) {a b : Nat} (v : Nat) (n : b ≠ a) :
    (s.setReg a v).reg b = s.reg b := by rw [State.reg_setReg h, if_neg n]

theorem State.setReg_wf {s : State} (h : swf regReset s.regs = true) (a v : Nat) : swf regReset (s.setReg a v).regs = true :=
  swf_sput _ h _ _

theorem State.irq_wf {s : State} (h : swf regReset s.regs = true) (a k : Nat) : swf regReset (s.irq a k).regs = true := by
  unfold State.irq
  split
  · exact h
  · exact State.setReg_wf h _ _

theorem State.reg_irq_other {s : State} (h : swf regReset s.regs = true) {a b : Nat} (k : Nat) (n : b ≠ a) :
    (s.irq a k).reg b = s.reg b := by
  unfold State.irq
  split
  · rfl
  · exact State.reg_setReg_other h _ n

/-- Hardware setting an interrupt flag leaves it 1. -/
theorem State.irq_set {s : State} (h : swf regReset s.regs = true) {a k : Nat} (hk : k < 32) : (s.irq a k).bitOf a k = true := by
  unfold State.irq
  by_cases hb : s.bitOf a k = true
  · rw [if_pos hb, hb]
  · rw [if_neg hb]
    unfold State.bitOf at hb ⊢
    rw [State.reg_setReg h, if_pos rfl]
    have hl := s.reg_lt a
    simp only [bit, beq_iff_eq] at hb ⊢
    have e : s.reg a / 2 ^ k % 2 = 0 := by omega
    have hp : 0 < 2 ^ k := Nat.two_pow_pos k
    have h1 : s.reg a + 2 ^ k < 2 ^ 32 := by
      obtain ⟨m, hm⟩ : ∃ m, 32 = k + 1 + m := ⟨31 - k, by omega⟩
      rw [hm] at hl ⊢
      have hq : s.reg a / 2 ^ k < 2 * 2 ^ m := by
        rw [Nat.div_lt_iff_lt_mul hp]
        calc _ < _ := hl
          _ = _ := by rw [Nat.pow_add, Nat.pow_succ]; ring
      calc _ < (s.reg a / 2 ^ k + 2) * 2 ^ k := by have := Nat.lt_div_mul_add (a := s.reg a) hp; nlinarith
        _ ≤ (2 * 2 ^ m) * 2 ^ k := Nat.mul_le_mul_right _ (by omega)
        _ = 2 ^ (k + 1 + m) := by rw [Nat.pow_add, Nat.pow_succ]; ring
    rw [Nat.mod_eq_of_lt h1, Nat.add_div_right _ hp]
    omega

/-! ### Rings -/

theorem State.ring_setRing {s : State} {n : Nat} (h : n < s.rings.length) (r : Ring) (m : Nat) :
    (s.setRing n r).ring m = if m = n then r else s.ring m := by
  unfold State.ring State.setRing
  simp only [List.getD_eq_getElem?_getD, List.getElem?_set]
  by_cases e : n = m
  · subst e; simp [h]
  · rw [if_neg e, if_neg (fun x => e x.symm)]

/-! ### Packets -/

/-- From `s` to `t` only rings, working RAM, registers and the answer that device code waits for may differ. -/
def RingFrame (s t : State) : Prop := t = { s with regs := t.regs, wram := t.wram, rings := t.rings, reply := t.reply }

theorem RingFrame.refl : RingFrame s s := rfl

theorem RingFrame.trans {a b c : State} (h : RingFrame a b) (k : RingFrame b c) : RingFrame a c := by
  unfold RingFrame at *
  rw [k, h]

theorem wadi_frame (n : Nat) : RingFrame s (s.wadi n) := by
  unfold State.wadi RingFrame
  extract_lets
  split
  · rw [State.irq_eq]; rfl
  · rfl

theorem ringOp_frame (n : Nat) (op : RingOp) : RingFrame s (s.ringOp n op).2 := by
  cases op with
  | open_ =>
    have w := wadi_frame s n
    simp only [State.ringOp, State.ringOpen]
    repeat' split
    all_goals first | exact w | exact w.trans rfl
  | push v =>
    simp only [State.ringOp, State.ringPush]
    repeat' split
    all_goals rfl
  | close ty =>
    simp only [State.ringOp, State.ringClose]
    repeat' split
    all_goals rfl

theorem opened_frame (n : Nat) (reg : Bool) (op : RingOp) : RingFrame s (s.opened n reg op) := by
  cases op <;> rfl

theorem completed_frame (reg : Bool) (r : Reply) : RingFrame s (s.completed reg r) := by
  unfold State.completed
  split <;> rfl

theorem ringFeed_frame (n k : Nat) : RingFrame s (State.ringFeed n k s) := by
  induction k generalizing s with
  | zero => rfl
  | succ k ih =>
    unfold State.ringFeed
    extract_lets
    split
    · rfl
    · rename_i op rest _
      have f := ringOp_frame s n op
      split
      · rfl
      · rename_i s1 e
        rw [e] at f
        split
        · rfl
        · exact RingFrame.trans (b := s1) f (RingFrame.trans (b := s1.setRing n _) rfl (RingFrame.trans (completed_frame _ _ _) (ih _)))
      · rename_i s1 e
        rw [e] at f
        exact RingFrame.trans (b := s1) f (RingFrame.trans (opened_frame _ _ _ _) (RingFrame.trans (b := (s1.opened n _ op).setRing n _) rfl
          (RingFrame.trans (completed_frame _ _ _) (ih _))))

/-- Offering a packet to a ring changes rings, working RAM, registers and an answer that waits on a ring only. -/
theorem State.ringPacket_frame (n ty : Nat) (ws : List Word) : RingFrame s (s.ringPacket n ty ws) := by
  unfold State.ringPacket
  extract_lets
  split
  · exact RingFrame.trans (b := s.setRing n _) rfl (ringFeed_frame _ _ _)
  · rfl

@[simp] theorem State.ringPacket_pending (n ty : Nat) (ws : List Word) : (s.ringPacket n ty ws).pending = s.pending := by have h := s.ringPacket_frame n ty ws; unfold RingFrame at h; rw [h]
@[simp] theorem State.ringPacket_t (n ty : Nat) (ws : List Word) : (s.ringPacket n ty ws).t = s.t := by have h := s.ringPacket_frame n ty ws; unfold RingFrame at h; rw [h]
@[simp] theorem State.ringPacket_dev (n ty : Nat) (ws : List Word) : (s.ringPacket n ty ws).dev = s.dev := by have h := s.ringPacket_frame n ty ws; unfold RingFrame at h; rw [h]
@[simp] theorem State.ringPacket_devSub (n ty : Nat) (ws : List Word) : (s.ringPacket n ty ws).devSub = s.devSub := by have h := s.ringPacket_frame n ty ws; unfold RingFrame at h; rw [h]
@[simp] theorem State.ringPacket_freeCtr (n ty : Nat) (ws : List Word) : (s.ringPacket n ty ws).freeCtr = s.freeCtr := by have h := s.ringPacket_frame n ty ws; unfold RingFrame at h; rw [h]
@[simp] theorem State.ringPacket_emitted (n ty : Nat) (ws : List Word) : (s.ringPacket n ty ws).emitted = s.emitted := by have h := s.ringPacket_frame n ty ws; unfold RingFrame at h; rw [h]
@[simp] theorem State.ringPacket_code (n ty : Nat) (ws : List Word) : (s.ringPacket n ty ws).code = s.code := by have h := s.ringPacket_frame n ty ws; unfold RingFrame at h; rw [h]
@[simp] theorem State.ringPacket_latch (n ty : Nat) (ws : List Word) : (s.ringPacket n ty ws).latch = s.latch := by have h := s.ringPacket_frame n ty ws; unfold RingFrame at h; rw [h]
@[simp] theorem State.ringPacket_locked (n ty : Nat) (ws : List Word) : (s.ringPacket n ty ws).locked = s.locked := by have h := s.ringPacket_frame n ty ws; unfold RingFrame at h; rw [h]
@[simp] theorem State.ringPacket_cfg (n ty : Nat) (ws : List Word) : (s.ringPacket n ty ws).cfg = s.cfg := by have h := s.ringPacket_frame n ty ws; unfold RingFrame at h; rw [h]
@[simp] theorem State.ringPacket_sysKey (n ty : Nat) (ws : List Word) : (s.ringPacket n ty ws).sysKey = s.sysKey := by have h := s.ringPacket_frame n ty ws; unfold RingFrame at h; rw [h]
@[simp] theorem State.ringPacket_seq (n ty : Nat) (ws : List Word) : (s.ringPacket n ty ws).seq = s.seq := by have h := s.ringPacket_frame n ty ws; unfold RingFrame at h; rw [h]
@[simp] theorem State.ringPacket_erg (n ty : Nat) (ws : List Word) : (s.ringPacket n ty ws).erg = s.erg := by have h := s.ringPacket_frame n ty ws; unfold RingFrame at h; rw [h]
@[simp] theorem State.ringPacket_ctx (n ty : Nat) (ws : List Word) : (s.ringPacket n ty ws).ctx = s.ctx := by have h := s.ringPacket_frame n ty ws; unfold RingFrame at h; rw [h]
@[simp] theorem State.ringPacket_obox (n ty : Nat) (ws : List Word) : (s.ringPacket n ty ws).obox = s.obox := by have h := s.ringPacket_frame n ty ws; unfold RingFrame at h; rw [h]
@[simp] theorem State.ringPacket_fe (n ty : Nat) (ws : List Word) : (s.ringPacket n ty ws).fe = s.fe := by have h := s.ringPacket_frame n ty ws; unfold RingFrame at h; rw [h]
@[simp] theorem State.ringPacket_evr (n ty : Nat) (ws : List Word) : (s.ringPacket n ty ws).evr = s.evr := by have h := s.ringPacket_frame n ty ws; unfold RingFrame at h; rw [h]
@[simp] theorem State.ringPacket_tim (n ty : Nat) (ws : List Word) : (s.ringPacket n ty ws).tim = s.tim := by have h := s.ringPacket_frame n ty ws; unfold RingFrame at h; rw [h]
@[simp] theorem State.ringPacket_oas (n ty : Nat) (ws : List Word) : (s.ringPacket n ty ws).oas = s.oas := by have h := s.ringPacket_frame n ty ws; unfold RingFrame at h; rw [h]
@[simp] theorem State.ringPacket_sec (n ty : Nat) (ws : List Word) : (s.ringPacket n ty ws).sec = s.sec := by have h := s.ringPacket_frame n ty ws; unfold RingFrame at h; rw [h]
@[simp] theorem State.ringPacket_net (n ty : Nat) (ws : List Word) : (s.ringPacket n ty ws).net = s.net := by have h := s.ringPacket_frame n ty ws; unfold RingFrame at h; rw [h]
@[simp] theorem State.ringPacket_arb (n ty : Nat) (ws : List Word) : (s.ringPacket n ty ws).arb = s.arb := by have h := s.ringPacket_frame n ty ws; unfold RingFrame at h; rw [h]
@[simp] theorem State.ringPacket_rad (n ty : Nat) (ws : List Word) : (s.ringPacket n ty ws).rad = s.rad := by have h := s.ringPacket_frame n ty ws; unfold RingFrame at h; rw [h]
@[simp] theorem State.ringPacket_plc (n ty : Nat) (ws : List Word) : (s.ringPacket n ty ws).plc = s.plc := by have h := s.ringPacket_frame n ty ws; unfold RingFrame at h; rw [h]
@[simp] theorem State.ringPacket_med (n ty : Nat) (ws : List Word) : (s.ringPacket n ty ws).med = s.med := by have h := s.ringPacket_frame n ty ws; unfold RingFrame at h; rw [h]
@[simp] theorem State.ringPacket_sef (n ty : Nat) (ws : List Word) : (s.ringPacket n ty ws).sef = s.sef := by have h := s.ringPacket_frame n ty ws; unfold RingFrame at h; rw [h]
@[simp] theorem State.ringPacket_pow (n ty : Nat) (ws : List Word) : (s.ringPacket n ty ws).pow = s.pow := by have h := s.ringPacket_frame n ty ws; unfold RingFrame at h; rw [h]
@[simp] theorem State.ringPacket_nor (n ty : Nat) (ws : List Word) : (s.ringPacket n ty ws).nor = s.nor := by have h := s.ringPacket_frame n ty ws; unfold RingFrame at h; rw [h]
@[simp] theorem State.ringPacket_boot (n ty : Nat) (ws : List Word) : (s.ringPacket n ty ws).boot = s.boot := by have h := s.ringPacket_frame n ty ws; unfold RingFrame at h; rw [h]
@[simp] theorem State.ringPacket_rpl (n ty : Nat) (ws : List Word) : (s.ringPacket n ty ws).rpl = s.rpl := by have h := s.ringPacket_frame n ty ws; unfold RingFrame at h; rw [h]

@[simp] theorem State.event_pending (cls arg : Nat) (slot : Option Nat) (data : Bytes) : (s.event cls arg slot data).pending = s.pending := State.ringPacket_pending _ _ _ _
@[simp] theorem State.event_t (cls arg : Nat) (slot : Option Nat) (data : Bytes) : (s.event cls arg slot data).t = s.t := State.ringPacket_t _ _ _ _
@[simp] theorem State.event_dev (cls arg : Nat) (slot : Option Nat) (data : Bytes) : (s.event cls arg slot data).dev = s.dev := State.ringPacket_dev _ _ _ _
@[simp] theorem State.event_devSub (cls arg : Nat) (slot : Option Nat) (data : Bytes) : (s.event cls arg slot data).devSub = s.devSub := State.ringPacket_devSub _ _ _ _
@[simp] theorem State.event_freeCtr (cls arg : Nat) (slot : Option Nat) (data : Bytes) : (s.event cls arg slot data).freeCtr = s.freeCtr := State.ringPacket_freeCtr _ _ _ _
@[simp] theorem State.event_emitted (cls arg : Nat) (slot : Option Nat) (data : Bytes) : (s.event cls arg slot data).emitted = s.emitted := State.ringPacket_emitted _ _ _ _
@[simp] theorem State.event_code (cls arg : Nat) (slot : Option Nat) (data : Bytes) : (s.event cls arg slot data).code = s.code := State.ringPacket_code _ _ _ _
@[simp] theorem State.event_latch (cls arg : Nat) (slot : Option Nat) (data : Bytes) : (s.event cls arg slot data).latch = s.latch := State.ringPacket_latch _ _ _ _
@[simp] theorem State.event_locked (cls arg : Nat) (slot : Option Nat) (data : Bytes) : (s.event cls arg slot data).locked = s.locked := State.ringPacket_locked _ _ _ _
@[simp] theorem State.event_cfg (cls arg : Nat) (slot : Option Nat) (data : Bytes) : (s.event cls arg slot data).cfg = s.cfg := State.ringPacket_cfg _ _ _ _
@[simp] theorem State.event_sysKey (cls arg : Nat) (slot : Option Nat) (data : Bytes) : (s.event cls arg slot data).sysKey = s.sysKey := State.ringPacket_sysKey _ _ _ _
@[simp] theorem State.event_seq (cls arg : Nat) (slot : Option Nat) (data : Bytes) : (s.event cls arg slot data).seq = s.seq := State.ringPacket_seq _ _ _ _
@[simp] theorem State.event_erg (cls arg : Nat) (slot : Option Nat) (data : Bytes) : (s.event cls arg slot data).erg = s.erg := State.ringPacket_erg _ _ _ _
@[simp] theorem State.event_ctx (cls arg : Nat) (slot : Option Nat) (data : Bytes) : (s.event cls arg slot data).ctx = s.ctx := State.ringPacket_ctx _ _ _ _
@[simp] theorem State.event_obox (cls arg : Nat) (slot : Option Nat) (data : Bytes) : (s.event cls arg slot data).obox = s.obox := State.ringPacket_obox _ _ _ _
@[simp] theorem State.event_fe (cls arg : Nat) (slot : Option Nat) (data : Bytes) : (s.event cls arg slot data).fe = s.fe := State.ringPacket_fe _ _ _ _
@[simp] theorem State.event_evr (cls arg : Nat) (slot : Option Nat) (data : Bytes) : (s.event cls arg slot data).evr = s.evr := State.ringPacket_evr _ _ _ _
@[simp] theorem State.event_tim (cls arg : Nat) (slot : Option Nat) (data : Bytes) : (s.event cls arg slot data).tim = s.tim := State.ringPacket_tim _ _ _ _
@[simp] theorem State.event_oas (cls arg : Nat) (slot : Option Nat) (data : Bytes) : (s.event cls arg slot data).oas = s.oas := State.ringPacket_oas _ _ _ _
@[simp] theorem State.event_sec (cls arg : Nat) (slot : Option Nat) (data : Bytes) : (s.event cls arg slot data).sec = s.sec := State.ringPacket_sec _ _ _ _
@[simp] theorem State.event_net (cls arg : Nat) (slot : Option Nat) (data : Bytes) : (s.event cls arg slot data).net = s.net := State.ringPacket_net _ _ _ _
@[simp] theorem State.event_arb (cls arg : Nat) (slot : Option Nat) (data : Bytes) : (s.event cls arg slot data).arb = s.arb := State.ringPacket_arb _ _ _ _
@[simp] theorem State.event_rad (cls arg : Nat) (slot : Option Nat) (data : Bytes) : (s.event cls arg slot data).rad = s.rad := State.ringPacket_rad _ _ _ _
@[simp] theorem State.event_plc (cls arg : Nat) (slot : Option Nat) (data : Bytes) : (s.event cls arg slot data).plc = s.plc := State.ringPacket_plc _ _ _ _
@[simp] theorem State.event_med (cls arg : Nat) (slot : Option Nat) (data : Bytes) : (s.event cls arg slot data).med = s.med := State.ringPacket_med _ _ _ _
@[simp] theorem State.event_sef (cls arg : Nat) (slot : Option Nat) (data : Bytes) : (s.event cls arg slot data).sef = s.sef := State.ringPacket_sef _ _ _ _
@[simp] theorem State.event_pow (cls arg : Nat) (slot : Option Nat) (data : Bytes) : (s.event cls arg slot data).pow = s.pow := State.ringPacket_pow _ _ _ _
@[simp] theorem State.event_nor (cls arg : Nat) (slot : Option Nat) (data : Bytes) : (s.event cls arg slot data).nor = s.nor := State.ringPacket_nor _ _ _ _
@[simp] theorem State.event_boot (cls arg : Nat) (slot : Option Nat) (data : Bytes) : (s.event cls arg slot data).boot = s.boot := State.ringPacket_boot _ _ _ _
@[simp] theorem State.event_rpl (cls arg : Nat) (slot : Option Nat) (data : Bytes) : (s.event cls arg slot data).rpl = s.rpl := State.ringPacket_rpl _ _ _ _

end

end Sys2Proof.Machine
end

