-- ==== Sys2Proof/Laws/Packets.lean ====
section
/-! SUPPORT. What offering a packet to a ring, replicating an entry and journaling one can change, said once for every command that does so. -/
namespace Sys2Proof.Machine

/-! ### Sending on the Seif links -/

/-- From `s` to `t` only the Seif block and what was sent may differ. -/
def SefFrame (s t : State) : Prop := t = { s with sef := t.sef, emitted := t.emitted }

theorem SefFrame.trans {a b c : State} (h : SefFrame a b) (k : SefFrame b c) : SefFrame a c := by
  unfold SefFrame at *
  rw [k, h]

theorem linkPump_frame (n k : Nat) (s : State) : SefFrame s (State.linkPump n k s) := by
  induction k generalizing s with
  | zero => rfl
  | succ k ih =>
    unfold State.linkPump
    extract_lets
    split
    · rfl
    · split
      · exact Eq.trans (ih _) rfl
      · rfl

theorem linkPut_frame (n : Nat) (s : State) (f : Bytes) : SefFrame s (s.linkPut n f) := by
  unfold State.linkPut
  split
  · exact Eq.trans (linkPump_frame _ _ _) rfl
  · rfl

theorem sefSend_frame (s : State) (ty dst : Nat) (b : Bytes) : SefFrame s (s.sefSend ty dst b) := by
  unfold State.sefSend
  split
  · rfl
  · extract_lets
    split
    · exact (linkPut_frame _ _ _).trans (linkPut_frame _ _ _)
    · split
      · exact linkPut_frame _ _ _
      · rfl

theorem sefSendTo_frame (ps : List Peer) (s : State) (ty : Nat) (b : Bytes) : SefFrame s (s.sefSendTo ty ps b) := by
  unfold State.sefSendTo
  induction ps generalizing s with
  | nil => rfl
  | cons p r ih => exact (sefSend_frame _ _ _ _).trans (ih _)

theorem replicate_frame (s : State) (e : Entry) : SefFrame s (s.replicate e) := by
  unfold State.replicate
  split
  · exact sefSendTo_frame _ _ _ _
  · rfl

/-! ### Words of RAM -/

theorem ramPutWord_byte {m : List (Nat × Byte)} (h : Memory.wf m = true) (a k : Nat) (v : Word) (hk : k < 4) :
    sget ramDefault (ramPutWord m a v) (a + k) = (v >>> (8 * k)).setWidth 8 := by
  have w1 := ramPut_wf h a (v.setWidth 8)
  have w2 := ramPut_wf w1 (a + 1) ((v >>> 8).setWidth 8)
  have w3 := ramPut_wf w2 (a + 2) ((v >>> 16).setWidth 8)
  unfold ramPutWord
  rw [ramPut_get w3, ramPut_get w2, ramPut_get w1, ramPut_get h]
  obtain rfl | rfl | rfl | rfl : k = 0 ∨ k = 1 ∨ k = 2 ∨ k = 3 := by omega
  · simp
  · simp
  · simp
  · simp

/-- A word of RAM reads as it was written. -/
theorem ramWord_put {m : List (Nat × Byte)} (h : Memory.wf m = true) (a : Nat) (v : Word) : ramWord (ramPutWord m a v) a = v := by
  have e0 := ramPutWord_byte h a 0 v (by omega)
  have e1 := ramPutWord_byte h a 1 v (by omega)
  have e2 := ramPutWord_byte h a 2 v (by omega)
  have e3 := ramPutWord_byte h a 3 v (by omega)
  unfold ramWord
  rw [Nat.add_zero] at e0
  rw [e0, e1, e2, e3]
  apply BitVec.eq_of_toNat_eq
  simp [leVal, Nat.shiftRight_eq_div_pow]
  have := v.isLt
  omega

/-- Another word of RAM reads as before. -/
theorem ramWord_put_other {m : List (Nat × Byte)} (h : Memory.wf m = true) {a b : Nat} (v : Word) (n : b + 3 < a ∨ a + 3 < b) :
    ramWord (ramPutWord m a v) b = ramWord m b := by
  unfold ramWord
  rw [ramPutWord_outside h _ _ _ (by omega), ramPutWord_outside h _ _ _ (by omega), ramPutWord_outside h _ _ _ (by omega),
    ramPutWord_outside h _ _ _ (by omega)]

theorem ring_put_outside {m : List (Nat × Byte)} (h : Memory.wf m = true) (r : Ring) (p : Nat) (v : Word) (a : Nat) (ha : ¬ r.holds a) :
    sget ramDefault (ramPutWord m (r.addr p) v) a = sget ramDefault m a := by
  apply ramPutWord_outside h
  unfold Ring.holds at ha
  have : p % r.size < r.size := Nat.mod_lt _ (Nat.two_pow_pos _)
  unfold Ring.addr
  omega

/-! ### A packet offered to a ring -/

/-- From `s` to `t` only ring `n` with its words may differ, and where the ring lies does not. -/
structure OnlyRing (n : Nat) (s t : State) : Prop where
  frame : RingFrame s t
  regs  : t.regs = s.regs
  rings : SameRings s t [n]
  len   : t.rings.length = s.rings.length
  place : (t.ring n).base = (s.ring n).base ∧ (t.ring n).sizeLog2 = (s.ring n).sizeLog2
  ram   : ∀ a, ¬ (s.ring n).holds a → sget ramDefault t.wram a = sget ramDefault s.wram a
  wf    : Memory.wf t.wram = true

theorem OnlyRing.refl (n : Nat) {s : State} (h : Memory.wf s.wram = true) : OnlyRing n s s :=
  ⟨rfl, rfl, fun _ _ => rfl, rfl, ⟨rfl, rfl⟩, fun _ _ => rfl, h⟩

theorem OnlyRing.trans {n : Nat} {a b c : State} (h : OnlyRing n a b) (k : OnlyRing n b c) : OnlyRing n a c := by
  refine ⟨RingFrame.trans h.frame k.frame, k.regs.trans h.regs, fun m hm => (k.rings m hm).trans (h.rings m hm), k.len.trans h.len,
    ⟨k.place.1.trans h.place.1, k.place.2.trans h.place.2⟩, ?_, k.wf⟩
  intro x hx
  rw [k.ram x, h.ram x hx]
  unfold Ring.holds Ring.size at *
  rw [h.place.1, h.place.2]
  exact hx

theorem OnlyRing.set {n : Nat} {s : State} (hn : n < s.rings.length) (w : Memory.wf s.wram = true) {r : Ring}
    (hb : r.base = (s.ring n).base) (hs : r.sizeLog2 = (s.ring n).sizeLog2) : OnlyRing n s (s.setRing n r) := by
  refine ⟨rfl, rfl, ?_, by simp [State.setRing], ?_, fun _ _ => rfl, w⟩
  · intro m hm
    rw [State.ring_setRing hn, if_neg (by simpa using hm)]
  · rw [State.ring_setRing hn, if_pos rfl]
    exact ⟨hb, hs⟩

theorem OnlyRing.put {n : Nat} {s : State} (w : Memory.wf s.wram = true) (p : Nat) (v : Word) :
    OnlyRing n s (s.putRingWord (s.ring n) p v) :=
  ⟨rfl, rfl, fun _ _ => rfl, rfl, ⟨rfl, rfl⟩, ring_put_outside w _ _ _, ramPutWord_wf w _ _⟩

/-- A write at a port of a ring with the stall policy, or of any ring with no drops pending. -/
theorem ringOp_only {n : Nat} {s : State} (hn : n < s.rings.length) (w : Memory.wf s.wram = true) (hd : ringDrops n = false) (op : RingOp) :
    OnlyRing n s (s.ringOp n op).2 := by
  have hw : s.wadi n = s := by
    unfold State.wadi
    rw [if_neg]
    simp [hd]
  have put2 : ∀ (p : Nat) (v : Word) (r : Ring), r.base = (s.ring n).base → r.sizeLog2 = (s.ring n).sizeLog2 →
      OnlyRing n s ((s.putRingWord (s.ring n) p v).setRing n r) := fun p v r hb hs =>
    (OnlyRing.put w p v).trans (OnlyRing.set (s := s.putRingWord (s.ring n) p v) hn (ramPutWord_wf w _ _) hb hs)
  cases op with
  | open_ =>
    simp only [State.ringOp, State.ringOpen, hw]
    repeat' split
    all_goals first | exact OnlyRing.refl _ w | exact OnlyRing.set hn w rfl rfl
  | push v =>
    simp only [State.ringOp, State.ringPush]
    repeat' split
    all_goals first | exact OnlyRing.refl _ w | exact OnlyRing.set hn w rfl rfl | exact put2 _ _ _ rfl rfl
  | close ty =>
    simp only [State.ringOp, State.ringClose]
    repeat' split
    all_goals first | exact OnlyRing.refl _ w | exact OnlyRing.set hn w rfl rfl | exact put2 _ _ _ rfl rfl

theorem OnlyRing.opened {n : Nat} {s : State} (hn : n < s.rings.length) (w : Memory.wf s.wram = true) (reg : Bool) (op : RingOp) :
    OnlyRing n s (s.opened n reg op) := by
  cases op with
  | open_ => exact OnlyRing.set hn w rfl rfl
  | push v => exact OnlyRing.refl _ w
  | close ty => exact OnlyRing.refl _ w

theorem OnlyRing.completed {n : Nat} {s : State} (w : Memory.wf s.wram = true) (reg : Bool) (r : Reply) : OnlyRing n s (s.completed reg r) := by
  unfold State.completed
  split
  · exact ⟨rfl, rfl, fun _ _ => rfl, rfl, ⟨rfl, rfl⟩, fun _ _ => rfl, w⟩
  · exact OnlyRing.refl _ w

theorem ringFeed_only {n : Nat} (hd : ringDrops n = false) (k : Nat) {s : State} (hn : n < s.rings.length) (w : Memory.wf s.wram = true) :
    OnlyRing n s (State.ringFeed n k s) := by
  induction k generalizing s with
  | zero => exact OnlyRing.refl _ w
  | succ k ih =>
    unfold State.ringFeed
    extract_lets
    split
    · exact OnlyRing.refl _ w
    · rename_i reg op rest _
      have f := ringOp_only hn w hd op
      have next : ∀ s1 r, OnlyRing n s s1 →
          OnlyRing n s (State.ringFeed n k ((s1.setRing n { s1.ring n with waiting := rest }).completed reg r)) := by
        intro s1 r f
        have h1 : n < s1.rings.length := by rw [f.len]; exact hn
        have f2 := f.trans (OnlyRing.set (r := { s1.ring n with waiting := rest }) h1 f.wf rfl rfl)
        have f3 := f2.trans (OnlyRing.completed f2.wf reg r)
        exact f3.trans (ih (by rw [f3.len]; exact hn) f3.wf)
      split
      · exact OnlyRing.refl _ w
      · rename_i s1 e
        rw [e] at f
        split
        · exact OnlyRing.refl _ w
        · exact next _ _ f
      · rename_i s1 e
        rw [e] at f
        exact next _ _ (f.trans (OnlyRing.opened (by rw [f.len]; exact hn) f.wf reg op))

/-- A packet offered to a ring with the stall policy changes that ring and its words only. -/
theorem ringPacket_only {n : Nat} (hd : ringDrops n = false) {s : State} (hn : n < s.rings.length) (w : Memory.wf s.wram = true) (ty : Nat)
    (ws : List Word) : OnlyRing n s (s.ringPacket n ty ws) := by
  unfold State.ringPacket
  extract_lets r
  split
  · have f := OnlyRing.set (s := s) (r := { r with waiting := r.waiting ++ (packetOps ty ws).map fun o => (false, o) }) hn w rfl rfl
    exact f.trans (ringFeed_only hd _ (by rw [f.len]; exact hn) f.wf)
  · exact OnlyRing.refl _ w

end Sys2Proof.Machine
end

