-- ==== Sys2Proof/Laws/Rings.lean ====
section
/-! SUPPORT. A packet that meets a free ring passes it: what it leaves there, and that the consumer takes from it what the producer put in (R80 to R86). -/
namespace Sys2Proof.Machine

/-! ### Bytes and words -/

@[simp] theorem toWords_length (n : Nat) (b : Bytes) : (toWords n b).length = n := by
  induction n generalizing b with
  | zero => rfl
  | succ n ih => simp [toWords, ih]

@[simp] theorem toWs_length (b : Bytes) : (toWs b).length = (b.length + 3) / 4 := toWords_length _ _

theorem le_leVal (b : Bytes) : le b.length (leVal b) = b := by
  induction b with
  | nil => rfl
  | cons x r ih =>
    have h : x.toNat < 256 := x.isLt
    simp only [List.length_cons, le, leVal]
    congr 1
    · apply BitVec.eq_of_toNat_eq
      simp
      exact h
    · rw [Nat.add_mul_div_left _ _ (by decide), Nat.div_eq_of_lt h, Nat.zero_add, ih]

theorem leVal_lt (b : Bytes) : leVal b < 256 ^ b.length := by
  induction b with
  | nil => decide
  | cons x r ih =>
    have h : x.toNat < 256 := x.isLt
    simp only [List.length_cons, leVal, Nat.pow_succ']
    omega

/-- Words made of bytes spell the bytes again, and zeros to the end of the last word. -/
theorem ofWs_toWords (n : Nat) (b : Bytes) (h : b.length ≤ 4 * n) : ofWs (toWords n b) = b ++ List.replicate (4 * n - b.length) 0 := by
  induction n generalizing b with
  | zero =>
    have : b = [] := List.eq_nil_of_length_eq_zero (by omega)
    subst this
    rfl
  | succ n ih =>
    simp only [toWords, ofWs]
    rw [ih _ (by simp; omega)]
    have e : le 4 (BitVec.ofNat 32 (fld 0 4 b)).toNat = sub 0 4 b := by
      have l := leVal_lt (sub 0 4 b)
      have k := le_leVal (sub 0 4 b)
      rw [sub_length] at l k
      rw [BitVec.toNat_ofNat, Nat.mod_eq_of_lt (by exact l)]
      exact k
    rw [e]
    unfold sub
    rw [List.drop_zero, List.append_assoc]
    by_cases c : 4 ≤ b.length
    · rw [List.length_take, Nat.min_eq_left c, Nat.sub_self, List.replicate_zero, List.nil_append, ← List.append_assoc, List.take_append_drop]
      congr 2
      simp
      omega
    · rw [List.take_of_length_le (by omega), List.drop_eq_nil_of_le (by omega), List.nil_append, List.replicate_append_replicate]
      congr 2
      simp
      omega

theorem ofWs_toWs (b : Bytes) : ∃ k, ofWs (toWs b) = b ++ List.replicate k 0 := ⟨_, ofWs_toWords _ b (by omega)⟩

/-! ### The words of an input -/

@[simp] theorem Input.words_length (i : Input) : i.words.length = 4 + (i.payload.length + 3) / 4 := by
  simp [Input.words]
  omega

theorem Src.ofWord_word (x : Src) (h1 : x.slotV = true → x.slot < 131072) (h2 : x.slotV = false → x.slot = 0) (h3 : x.chan < 8) (h4 : x.origin < 32) :
    Src.ofWord x.word = x := by
  obtain ⟨sl, v, ch, og⟩ := x
  unfold Src.ofWord Src.word
  simp only at h1 h2 h3 h4 ⊢
  cases v with
  | true =>
    have := h1 rfl
    simp [bits, bit]
    split
    all_goals omega
  | false =>
    have := h2 rfl
    simp [bits, bit]
    split
    all_goals omega

/-- The sequencer reads from an input's words the input (R82), if its parts fit their fields. -/
theorem Input.ofWords_words (i : Input) (k : Kind) (hk : k = i.kind) (h1 : i.stamp < 2 ^ 64) (h2 : i.payload.length < 4096)
    (h3 : i.src.slotV = true → i.src.slot < 131072) (h4 : i.src.slotV = false → i.src.slot = 0) (h5 : i.src.chan < 8) (h6 : i.src.origin = 0) :
    Input.ofWords k i.words = i := by
  obtain ⟨kind, stamp, src, cls, payload⟩ := i
  simp only at *
  subst hk
  have hs : { src with origin := 0 } = src := by
    obtain ⟨a, b, c, d⟩ := src
    simp only at h6
    rw [h6]
  have hw : src.word < 2 ^ 32 := by
    unfold Src.word
    split
    all_goals omega
  have e2 := Src.ofWord_word src h3 h4 h5 (by omega)
  have e3 : bits 27 16 (cls.code + payload.length % 4096 * 65536) = payload.length := by
    unfold bits EClass.code
    cases cls
    all_goals simp
    all_goals omega
  have e4 : EClass.ofCode (bits 7 0 (cls.code + payload.length % 4096 * 65536)) = cls := by
    have : bits 7 0 (cls.code + payload.length % 4096 * 65536) = cls.code := by
      unfold bits EClass.code
      cases cls
      all_goals simp
      all_goals omega
    rw [this]
    cases cls
    all_goals rfl
  have hc : cls.code + payload.length % 4096 * 65536 < 2 ^ 32 := by
    unfold EClass.code
    cases cls
    all_goals simp
    all_goals omega
  obtain ⟨z, hz⟩ := ofWs_toWs payload
  unfold Input.ofWords Input.words
  simp only [List.getD_cons_zero, List.getD_cons_succ, List.drop_succ_cons, List.drop_zero, BitVec.toNat_ofNat, hs]
  rw [Nat.mod_eq_of_lt hw, Nat.mod_eq_of_lt hc, e2, e3, e4, hz]
  congr 1
  · omega
  · rw [sub_append_left _ _ _ rfl]

theorem Input.words_whole (i : Input) (h : i.payload.length ≤ 2048) : packetTrunc false i.words = false := by
  have hc : i.cls.code + i.payload.length % 4096 * 65536 < 2 ^ 32 := by
    unfold EClass.code
    cases i.cls
    all_goals simp
    all_goals omega
  have e3 : bits 27 16 (i.cls.code + i.payload.length % 4096 * 65536) = i.payload.length := by
    unfold bits EClass.code
    cases i.cls
    all_goals simp
    all_goals omega
  have g : (i.words.getD 3 0).toNat = i.cls.code + i.payload.length % 4096 * 65536 := by
    unfold Input.words
    simp only [List.getD_cons_zero, List.getD_cons_succ, BitVec.toNat_ofNat]
    exact Nat.mod_eq_of_lt hc
  unfold packetTrunc
  rw [g, e3, Input.words_length]
  unfold ceilDiv
  simp
  omega

/-! ### A free ring -/

/-- Words stored in a ring one after another from a position on. -/
def putRun (r : Ring) (m : List (Nat × Byte)) (p : Nat) : List Word → List (Nat × Byte)
  | [] => m
  | v :: ws => putRun r (ramPutWord m (r.addr p) v) (p + 1) ws

theorem putRun_wf (r : Ring) {m : List (Nat × Byte)} (h : Memory.wf m = true) (p : Nat) (ws : List Word) : Memory.wf (putRun r m p ws) = true := by
  induction ws generalizing m p with
  | nil => exact h
  | cons v ws ih => exact ih (ramPutWord_wf h _ _) _

theorem putRun_outside (r : Ring) {m : List (Nat × Byte)} (h : Memory.wf m = true) (p : Nat) (ws : List Word) (a : Nat) (ha : ¬ r.holds a) :
    sget ramDefault (putRun r m p ws) a = sget ramDefault m a := by
  induction ws generalizing m p with
  | nil => rfl
  | cons v ws ih =>
    show sget ramDefault (putRun r (ramPutWord m (r.addr p) v) (p + 1) ws) a = _
    rw [ih (ramPutWord_wf h _ _), ring_put_outside h r p v a ha]

/-- Two positions of a ring less than its size apart lie in different words. -/
theorem addr_apart (r : Ring) (p q : Nat) (h : p < q) (k : q < p + r.size) : r.addr p + 3 < r.addr q ∨ r.addr q + 3 < r.addr p := by
  have : p % r.size ≠ q % r.size := by
    intro e
    have h1 := Nat.sub_mod_eq_zero_of_mod_eq e.symm
    rw [Nat.mod_eq_of_lt (by omega)] at h1
    omega
  unfold Ring.addr
  omega

theorem putRun_word_other (r : Ring) {m : List (Nat × Byte)} (h : Memory.wf m = true) (p : Nat) (ws : List Word) (q : Nat)
    (hq : q < p) (hs : p + ws.length ≤ q + r.size) : ramWord (putRun r m p ws) (r.addr q) = ramWord m (r.addr q) := by
  induction ws generalizing m p with
  | nil => rfl
  | cons v ws ih =>
    simp only [List.length_cons] at hs
    show ramWord (putRun r (ramPutWord m (r.addr p) v) (p + 1) ws) (r.addr q) = _
    rw [ih (ramPutWord_wf h _ _) _ (by omega) (by omega)]
    apply ramWord_put_other h
    have := addr_apart r q p hq (by omega)
    omega

/-- The words of a run are read back as they were stored. -/
theorem ringRun_putRun (r : Ring) (s : State) {m : List (Nat × Byte)} (h : Memory.wf m = true) (p : Nat) (ws : List Word)
    (hs : ws.length ≤ r.size) (hm : ∀ i, i < ws.length → ramWord s.wram (r.addr (p + i)) = ramWord (putRun r m p ws) (r.addr (p + i))) :
    s.ringRun r p ws.length = ws := by
  induction ws generalizing m p with
  | nil => rfl
  | cons v ws ih =>
    simp only [List.length_cons] at hs hm ⊢
    have h0 : s.ringWord r p = v := by
      have := hm 0 (by omega)
      rw [Nat.add_zero] at this
      unfold State.ringWord
      rw [this]
      show ramWord (putRun r (ramPutWord m (r.addr p) v) (p + 1) ws) (r.addr p) = v
      rw [putRun_word_other r (ramPutWord_wf h _ _) _ _ _ (by omega) (by omega), ramWord_put h]
    unfold State.ringRun
    rw [h0, ih (ramPutWord_wf h _ _) (p + 1) (by omega)]
    intro i hi
    have := hm (i + 1) (by omega)
    rw [show p + 1 + i = p + (i + 1) by omega]
    exact this

theorem lengthWord_fields (ty len : Nat) (hl : len < 65536) :
    bits 31 28 (lengthWord false ty len).toNat = 13 ∧ bit 27 (lengthWord false ty len).toNat = false ∧
    bits 23 16 (lengthWord false ty len).toNat = ty % 256 ∧ bits 15 0 (lengthWord false ty len).toNat = len := by
  have e : (lengthWord false ty len).toNat = 0xD0000000 + ty % 256 * 65536 + len := by
    unfold lengthWord flag
    rw [BitVec.toNat_ofNat]
    simp
    omega
  rw [e]
  refine ⟨?_, ?_, ?_, ?_⟩
  all_goals simp [bits, bit]
  all_goals omega

/-- What a packet of words leaves in a free ring. -/
def Ring.passed (r : Ring) (t : Nat) (k : Nat) : Ring :=
  { r with opn := .closed, w := r.w + (k + 1), vis := r.w + (k + 1), staleT := t, byReg := false, waiting := [] }

theorem completed_false (s : State) (x : Reply) : s.completed false x = s := rfl

@[simp] theorem ringDrops_em (n : Nat) {α : Type} (a : α) : (if ringDrops n then a else a) = a := by split <;> rfl

theorem setRing_setRing (s : State) (n : Nat) (a b : Ring) : (s.setRing n a).setRing n b = s.setRing n b := by
  unfold State.setRing
  simp

theorem ring_of_set {s : State} {n : Nat} (hn : n < s.rings.length) (a : Ring) : (s.setRing n a).ring n = a := by
  rw [State.ring_setRing hn, if_pos rfl]

theorem putRun_congr {r q : Ring} (hb : q.base = r.base) (hs : q.sizeLog2 = r.sizeLog2) (m : List (Nat × Byte)) (p : Nat) (ws : List Word) :
    putRun q m p ws = putRun r m p ws := by
  induction ws generalizing m p with
  | nil => rfl
  | cons v ws ih =>
    have : q.addr p = r.addr p := by
      unfold Ring.addr Ring.size
      rw [hb, hs]
    show putRun q (ramPutWord m (q.addr p) v) (p + 1) ws = putRun r (ramPutWord m (r.addr p) v) (p + 1) ws
    rw [ih, this]

theorem wadi_none {s : State} {n : Nat} (h : (s.ring n).pend = 0) : s.wadi n = s := by
  unfold State.wadi
  simp [h]

/-- A write that completes at once leaves the waiting list and nothing more. -/
theorem ringFeed_done {n k : Nat} {s s1 : State} {op : RingOp} {rest : List (Bool × RingOp)} (hw : (s.ring n).waiting = (false, op) :: rest)
    (h : s.ringOp n op = (.done, s1)) :
    State.ringFeed n (k + 1) s = State.ringFeed n k ((s1.opened n false op).setRing n { (s1.opened n false op).ring n with waiting := rest }) := by
  rw [State.ringFeed]
  simp only [hw, h, completed_false]

theorem ringFeed_push (n : Nat) (m : Nat) (r : Ring) (ws : List Word) (rest : List (Bool × RingOp)) (pos st : Nat) (s : State) (hn : n < s.rings.length)
    (he : r.en = true) (hw : r.w = pos + 1 + st) (hr : r.r = pos) (hf : st + ws.length + 2 ≤ r.size) :
    State.ringFeed n (ws.length + m) (s.setRing n { r with opn := .opened pos st false, waiting := ws.map (fun v => (false, .push v)) ++ rest }) =
      State.ringFeed n m (({ s with wram := putRun r s.wram r.w ws } : State).setRing n
        { r with opn := .opened pos (st + ws.length) false, w := r.w + ws.length, waiting := rest }) := by
  induction ws generalizing r st s with
  | nil => simp [putRun]
  | cons v ws ih =>
    simp only [List.length_cons, Ring.size] at hf
    have hfull : ¬ (2 ^ r.sizeLog2 - 1 < st + 2) := by omega
    have hfree : ¬ (2 ^ r.sizeLog2 - (r.w - r.r) = 0) := by omega
    have hp : (s.setRing n { r with opn := .opened pos st false, waiting := (false, RingOp.push v) :: (ws.map (fun v => (false, RingOp.push v)) ++ rest) }).ringOp n (.push v) =
        (.done, ({ s with wram := ramPutWord s.wram (r.addr r.w) v } : State).setRing n
          { r with opn := .opened pos (st + 1) false, w := r.w + 1, waiting := (false, RingOp.push v) :: (ws.map (fun v => (false, RingOp.push v)) ++ rest) }) := by
      unfold State.ringOp State.ringPush
      simp only [ring_of_set hn, he, Ring.freeWords, Ring.size]
      unfold State.putRingWord State.setRing Ring.addr Ring.size
      cases ringDrops n
      all_goals simp [hfull, hfree]
    rw [List.length_cons, show ws.length + 1 + m = (ws.length + m) + 1 by omega, List.map_cons, List.cons_append]
    rw [ringFeed_done (op := .push v) (rest := ws.map (fun v => (false, RingOp.push v)) ++ rest) (by rw [ring_of_set hn]) hp]
    show State.ringFeed n (ws.length + m) ((State.setRing _ n _).setRing n _) = _
    have hn1 : n < ({ s with wram := ramPutWord s.wram (r.addr r.w) v } : State).rings.length := hn
    show State.ringFeed n (ws.length + m) ((State.setRing _ n _).setRing n { State.ring (State.setRing _ n _) n with waiting := _ }) = _
    rw [ring_of_set hn1, setRing_setRing]
    have := ih { r with w := r.w + 1 } (st + 1) { s with wram := ramPutWord s.wram (r.addr r.w) v } hn1 he (by simp only; omega) hr
      (by simp only [Ring.size]; omega)
    simp only at this
    have er : putRun r s.wram r.w (v :: ws) = putRun { r with w := r.w + 1 } (ramPutWord s.wram (r.addr r.w) v) (r.w + 1) ws :=
      (putRun_congr (r := r) (q := { r with w := r.w + 1 }) rfl rfl _ _ _).symm
    rw [this, er, show r.w + 1 + ws.length = r.w + (ws.length + 1) by omega, show st + 1 + ws.length = st + (ws.length + 1) by omega]

/-- A packet offered to a free ring passes it: its words stand there from the write position on, the length word in front, and nothing else changes. -/
theorem ringPacket_free {s : State} {n : Nat} (hn : n < s.rings.length) (ty : Nat) (ws : List Word) (f : s.RingFree n ws.length) :
    s.ringPacket n ty ws =
      { s with rings := s.rings.set n ((s.ring n).passed s.t ws.length),
               wram := ramPutWord (putRun (s.ring n) s.wram ((s.ring n).w + 1) ws) ((s.ring n).addr (s.ring n).w) (lengthWord false ty ws.length) } := by
  obtain ⟨en, held, opn, pend, idle, ⟨e1, e2, e3⟩, fits⟩ := f
  unfold State.ringPacket
  generalize s.ring n = r at *
  simp only [Ring.size] at fits
  have hfree : ¬ (2 ^ r.sizeLog2 - (r.w - r.r) = 0) := by omega
  have hl : (packetOps ty ws).map (fun o => (false, o)) = (false, RingOp.open_) :: (ws.map (fun v => (false, RingOp.push v)) ++ [(false, RingOp.close ty)]) := by
    unfold packetOps
    simp
  extract_lets
  rw [if_pos en, idle, List.nil_append, hl]
  unfold State.ringDrain
  rw [ring_of_set hn]
  have hlen : ((false, RingOp.open_) :: (ws.map (fun v => (false, RingOp.push v)) ++ [(false, RingOp.close ty)])).length = (ws.length + 1) + 1 := by simp
  rw [hlen]
  generalize hrest : ws.map (fun v => (false, RingOp.push v)) ++ [(false, RingOp.close ty)] = rest at *
  have ho : (s.setRing n { r with waiting := (false, RingOp.open_) :: rest }).ringOp n .open_ =
      (.done, s.setRing n { r with opn := .opened r.w 0 false, w := r.w + 1, waiting := (false, RingOp.open_) :: rest }) := by
    show State.ringOpen _ n = _
    unfold State.ringOpen
    rw [wadi_none (by rw [ring_of_set hn]; exact pend)]
    simp only [ring_of_set hn, en, opn, held, Ring.freeWords, Ring.size, setRing_setRing]
    cases ringDrops n
    all_goals simp [hfree]
  rw [ringFeed_done (op := .open_) (rest := rest) (by rw [ring_of_set hn]) ho]
  show State.ringFeed n (ws.length + 1) ((State.setRing (State.setRing _ n _) n { State.ring (State.setRing _ n _) n with byReg := false }).setRing n
    { State.ring (State.setRing (State.setRing _ n _) n { State.ring (State.setRing _ n _) n with byReg := false }) n with waiting := _ }) = _
  have hn1 : ∀ a : Ring, n < (s.setRing n a).rings.length := fun a => by simpa [State.setRing] using hn
  rw [ring_of_set hn, ring_of_set (hn1 _), setRing_setRing, setRing_setRing]
  rw [← hrest]
  have hp := ringFeed_push n 1 { r with opn := .opened r.w 0 false, w := r.w + 1, byReg := false } ws [(false, RingOp.close ty)] r.w 0 s hn en rfl e1
    (by simp only [Ring.size]; omega)
  simp only at hp
  rw [hp]
  have hq := putRun_congr (r := r) (q := { r with opn := .opened r.w 0 false, w := r.w + 1, byReg := false }) rfl rfl s.wram (r.w + 1) ws
  rw [hq]
  simp only [Nat.zero_add]
  generalize putRun r s.wram (r.w + 1) ws = m1
  have hn2 : n < ({ s with wram := m1 } : State).rings.length := hn
  have hc : (({ s with wram := m1 } : State).setRing n { r with opn := .opened r.w ws.length false, w := r.w + 1 + ws.length, byReg := false, waiting := [(false, RingOp.close ty)] }).ringOp n
      (.close ty) = (.done, ({ s with wram := ramPutWord m1 (r.addr r.w) (lengthWord false ty ws.length) } : State).setRing n
        (Ring.show { r with opn := .closed, w := r.w + 1 + ws.length, byReg := false, waiting := [(false, RingOp.close ty)] } s.t)) := by
    show State.ringClose _ n ty = _
    unfold State.ringClose
    simp only [ring_of_set hn2, en]
    unfold State.putRingWord State.setRing Ring.addr Ring.size
    simp
  rw [ringFeed_done (op := .close ty) (rest := []) (by rw [ring_of_set hn2]) hc]
  have hn3 : n < ({ s with wram := ramPutWord m1 (r.addr r.w) (lengthWord false ty ws.length) } : State).rings.length := hn
  show ((State.setRing _ n _).setRing n { State.ring (State.setRing _ n _) n with waiting := [] }) = _
  rw [ring_of_set hn3, setRing_setRing]
  unfold State.setRing Ring.show Ring.passed Ring.cnt
  simp only [e1, e2, Nat.sub_self, if_true, show r.w + 1 + ws.length = r.w + (ws.length + 1) by omega]

/-- The consumer of a free ring finds the packet that passed it. -/
theorem ringTake_passed {s s1 : State} {n : Nat} (hn : n < s.rings.length) (w : Memory.wf s.wram = true) {ty : Nat} {ws : List Word}
    (f : s.RingFree n ws.length) (hl : ws.length < 65536) (h1 : s1 = s.ringPacket n ty ws) :
    s1.ringTake n = (.packet false (ty % 256) ws, s1.setRing n { s1.ring n with r := (s.ring n).w + (ws.length + 1), remain := 0, staleT := s1.t, staleFired := false }) := by
  have e := ringPacket_free hn ty ws f
  obtain ⟨en, held, opn, pend, idle, ⟨e1, e2, e3⟩, fits⟩ := f
  rw [e] at h1
  have hr : s1.ring n = (s.ring n).passed s.t ws.length := by
    rw [h1]
    exact ring_of_set hn _
  generalize hq : s.ring n = r at *
  have hb : (r.passed s.t ws.length).addr = r.addr := rfl
  have hwf := putRun_wf r w (r.w + 1) ws
  have hlw : s1.ringWord (r.passed s.t ws.length) r.w = lengthWord false ty ws.length := by
    unfold State.ringWord
    rw [hb, h1, ramWord_put hwf]
  have hrun : s1.ringRun (r.passed s.t ws.length) (r.w + 1) ws.length = ws := by
    have hsz : (r.passed s.t ws.length).size = r.size := rfl
    apply ringRun_putRun (r.passed s.t ws.length) s1 w
    · rw [hsz]; omega
    · intro i hi
      rw [hb, putRun_congr (r := r) (q := r.passed s.t ws.length) rfl rfl, h1]
      apply ramWord_put_other hwf
      have := addr_apart r r.w (r.w + 1 + i) (by omega) (by omega)
      omega
  obtain ⟨l1, l2, l3, l4⟩ := lengthWord_fields ty ws.length hl
  have hp : s1.ringPeek n = .packet false (ty % 256) ws := by
    unfold State.ringPeek
    rw [hr]
    have z : (r.passed s.t ws.length).r + (r.passed s.t ws.length).remain = r.w := by
      show r.r + r.remain = r.w
      omega
    simp only [z, hlw, l1, l2, l3, l4, hrun]
    unfold Ring.passed
    simp [en]
  unfold State.ringTake
  rw [hp, hr]
  simp only
  have z : (r.passed s.t ws.length).r + (r.passed s.t ws.length).remain + (Item.packet false (ty % 256) ws).len = r.w + (ws.length + 1) := by
    show r.r + r.remain + (ws.length + 1) = _
    omega
  rw [z]

end Sys2Proof.Machine
end

