-- ==== Sys2Proof/Laws/Mgmt.lean ====
section
/-! SUPPORT. What journaling an entry does to the fields of the state, and what a management command does on a unit that has nothing else to do: it is
journaled, dispatched and committed, and its outputs join the release queue. -/
namespace Sys2Proof.Machine

/-! ### Journaling -/

theorem ringOp_regs {n : Nat} (hd : ringDrops n = false) (s : State) (op : RingOp) : (s.ringOp n op).2.regs = s.regs := by
  have hw : s.wadi n = s := by
    unfold State.wadi
    rw [if_neg]
    simp [hd]
  cases op with
  | open_ =>
    simp only [State.ringOp, State.ringOpen, hw]
    repeat' split
    all_goals rfl
  | push v =>
    simp only [State.ringOp, State.ringPush]
    repeat' split
    all_goals rfl
  | close ty =>
    simp only [State.ringOp, State.ringClose]
    repeat' split
    all_goals rfl

theorem ringFeed_regs {n : Nat} (hd : ringDrops n = false) (k : Nat) (s : State) : (State.ringFeed n k s).regs = s.regs := by
  induction k generalizing s with
  | zero => rfl
  | succ k ih =>
    unfold State.ringFeed
    extract_lets
    split
    · rfl
    · rename_i reg op rest _
      have f := ringOp_regs hd s op
      have hc : ∀ (a : State) (r : Reply), (a.completed reg r).regs = a.regs := by
        intro a r
        unfold State.completed
        split <;> rfl
      have ho : ∀ a : State, (a.opened n reg op).regs = a.regs := by
        intro a
        cases op <;> rfl
      split
      · rfl
      · rename_i s1 e
        rw [e] at f
        split
        · rfl
        · rw [ih, hc]
          exact f
      · rename_i s1 e
        rw [e] at f
        rw [ih, hc]
        exact (ho s1).trans f

theorem ringPacket_regs {n : Nat} (hd : ringDrops n = false) (s : State) (ty : Nat) (ws : List Word) : (s.ringPacket n ty ws).regs = s.regs := by
  unfold State.ringPacket
  extract_lets
  split
  · exact ringFeed_regs hd _ _
  · rfl

theorem ringOp_reply (s : State) (n : Nat) (op : RingOp) : (s.ringOp n op).2.reply = s.reply := by
  have hw : (s.wadi n).reply = s.reply := by
    unfold State.wadi
    extract_lets
    split
    · rw [State.irq_reply]
      rfl
    · rfl
  cases op with
  | open_ =>
    simp only [State.ringOp, State.ringOpen]
    repeat' split
    all_goals exact hw
  | push v =>
    simp only [State.ringOp, State.ringPush]
    repeat' split
    all_goals rfl
  | close ty =>
    simp only [State.ringOp, State.ringClose]
    repeat' split
    all_goals rfl

theorem waiting_set (s : State) (n : Nat) (a : Ring) (o : Bool × RingOp) (h : o ∈ ((s.setRing n a).ring n).waiting) : o ∈ a.waiting := by
  by_cases hn : n < s.rings.length
  · rwa [ring_of_set hn] at h
  · unfold State.setRing State.ring at h
    rw [List.getD_eq_default _ _ (by simpa using hn)] at h
    cases h

/-- With no write of device code among those that wait, completing them answers none. -/
theorem ringFeed_reply (n k : Nat) (s : State) (h : ∀ o ∈ (s.ring n).waiting, o.1 = false) : (State.ringFeed n k s).reply = s.reply := by
  induction k generalizing s with
  | zero => rfl
  | succ k ih =>
    unfold State.ringFeed
    extract_lets r
    split
    · rfl
    · rename_i reg op rest hw
      have f := ringOp_reply s n op
      have hr : reg = false := h (reg, op) (by rw [show (s.ring n).waiting = _ from hw]; simp)
      have ho : ∀ o ∈ rest, o.1 = false := fun o ho => h o (by rw [show (s.ring n).waiting = _ from hw]; simp [ho])
      subst hr
      split
      · rfl
      · rename_i s1 e
        rw [e] at f
        split
        · rfl
        · rw [completed_false, ih _ (fun o h => ho o (waiting_set _ _ _ _ h))]
          exact f
      · rename_i s1 e
        rw [e] at f
        rw [completed_false, ih _ (fun o h => ho o (waiting_set _ _ _ _ h))]
        refine Eq.trans ?_ f
        cases op <;> rfl

theorem ringPacket_reply {s : State} {n : Nat} (ty : Nat) (ws : List Word) (h : ∀ o ∈ (s.ring n).waiting, o.1 = false) :
    (s.ringPacket n ty ws).reply = s.reply := by
  unfold State.ringPacket
  extract_lets r
  split
  · refine Eq.trans (ringFeed_reply _ _ _ ?_) rfl
    intro o ho
    have := waiting_set _ _ _ _ ho
    simp only [List.mem_append, List.mem_map] at this
    rcases this with h1 | ⟨x, _, rfl⟩
    · exact h o h1
    · rfl
  · rfl

/-- The entry that journaling makes. -/
def State.entryOf (s : State) (kind : Kind) (cls : EClass) (src : Src) (stamp : Nat) (flags : EFlags) (payload : Bytes) : Entry :=
  { kind := kind, cls := cls, jsn := s.seq.nextJsn, stamp := stamp, src := { src with origin := s.seq.pos }, flags := flags, payload := payload }

/-- Journaling an entry, field by field: all but the rings, working RAM, an answer that waited, the Seif block and what was sent is named. -/
theorem append_form (s : State) (kind : Kind) (cls : EClass) (src : Src) (stamp : Nat) (flags : EFlags) (payload : Bytes) :
    ∃ r w se em rp q, s.append kind cls src stamp flags payload =
        { s with seq := q, erg := { s.erg with toDispatch := s.erg.toDispatch ++ [s.entryOf kind cls src stamp flags payload] },
                 ctx := s.ctx.note (s.entryOf kind cls src stamp flags payload), rings := r, wram := w, sef := se, emitted := em, reply := rp } ∧
      q = { s.seq with journal := s.seq.journal ++ [s.entryOf kind cls src stamp flags payload], nextJsn := s.seq.nextJsn + 1,
                       lastDur := q.lastDur, stallFired := q.stallFired, lastCkpt := q.lastCkpt } ∧
      (Memory.wf s.wram = true → 12 < s.rings.length → (∀ n, n ≠ 12 → (s.append kind cls src stamp flags payload).ring n = s.ring n) ∧
        ∀ a, ¬ (s.ring 12).holds a → sget ramDefault w a = sget ramDefault s.wram a) ∧
      ((∀ o ∈ (s.ring 12).waiting, o.1 = false) → rp = s.reply) := by
  unfold State.append
  extract_lets e _ _ s1
  have p : RingFrame s1 (s1.ringPacket 12 1 (toWs e.bytes)) := State.ringPacket_frame _ _ _ _
  have g := ringPacket_regs (n := 12) rfl s1 1 (toWs e.bytes)
  have o := fun (h : 12 < s1.rings.length) (w : Memory.wf s1.wram = true) => ringPacket_only (n := 12) rfl h w 1 (toWs e.bytes)
  have y := ringPacket_reply (s := s1) (n := 12) 1 (toWs e.bytes)
  generalize s1.ringPacket 12 1 (toWs e.bytes) = s2 at *
  have f := replicate_frame s2 e
  generalize s2.replicate e = s3 at *
  unfold RingFrame at p
  unfold SefFrame at f
  refine ⟨s2.rings, s2.wram, s3.sef, s3.emitted, s2.reply, s1.seq, ?_, rfl, ?_, y⟩
  · rw [f, p, g]
    rfl
  · intro h w
    refine ⟨?_, ?_⟩
    · intro n hn
      rw [f]
      exact (o w h).rings n (by simpa using hn)
    · intro a ha
      exact (o w h).ram a ha

/-! ### A command on a quiet unit -/

/-- The task of an entry under a key, as the dispatcher queues it. -/
def State.taskOf (s : State) (k : Key) (e : Entry) : Task := { jsn := e.jsn, key := k, entry := e, work := workOf e k, since := s.t }

/-- From `s` to `b` an entry was journaled that came over ring `n`, and its one task queued: nothing else but what journaling moves, ring `n` and the
dunes' clocks. -/
structure Queued (s b : State) (n : Nat) (k : Key) (e : Entry) : Prop where
  form : ∃ r w se em q d, b =
    { s with seq := q, ctx := s.ctx.note e, rings := r, wram := w, sef := se, emitted := em,
             erg := { s.erg with keys := [{ key := k, owner := homeGrain k, tasks := [s.taskOf k e] }], toDispatch := [],
                                 dispatched := max s.erg.dispatched e.jsn, poolFull := false, dunes := d } } ∧
    q = { s.seq with journal := s.seq.journal ++ [e], nextJsn := s.seq.nextJsn + 1, lastDur := q.lastDur, stallFired := q.stallFired,
                     lastCkpt := q.lastCkpt }
  rings : SameRings s b [n, 12]
  ram   : SameRam s b [n, 12]

theorem noteIdle_form (s0 s : State) : ∃ d, State.noteIdle s0 s = { s with erg := { s.erg with dunes := d } } := by
  unfold State.noteIdle
  generalize List.range 8 = l
  induction l using List.reverseRecOn with
  | nil => exact ⟨s.erg.dunes, rfl⟩
  | append_singleton l a ih =>
    obtain ⟨d, h⟩ := ih
    rw [List.foldl_append, h]
    simp only [List.foldl_cons, List.foldl_nil]
    split
    · exact ⟨d, rfl⟩
    · split
      · exact ⟨_, rfl⟩
      · exact ⟨d, rfl⟩

theorem leaveDunes_form (s : State) : ∃ d, s.leaveDunes = { s with erg := { s.erg with dunes := d } } := by
  unfold State.leaveDunes
  generalize List.range 8 = l
  induction l using List.reverseRecOn with
  | nil => exact ⟨s.erg.dunes, rfl⟩
  | append_singleton l a ih =>
    obtain ⟨d, h⟩ := ih
    rw [List.foldl_append, h]
    simp only [List.foldl_cons, List.foldl_nil]
    split
    · exact ⟨_, rfl⟩
    · exact ⟨d, rfl⟩

theorem dispatch_quiet {s : State} {e : Entry} {k : Key} (hq : s.erg.toDispatch = [e]) (hk : s.erg.keys = []) (hr : s.bitOf rErgCtl 0 = true)
    (he : e.kind ≠ .drbgDraw) (h1 : keysOf s.cfg e = [k]) :
    ∃ d, s.dispatchAll =
      { s with erg := { s.erg with keys := [{ key := k, owner := homeGrain k, tasks := [s.taskOf k e] }], toDispatch := [],
                                   dispatched := max s.erg.dispatched e.jsn, poolFull := false, dunes := d } } := by
  unfold State.dispatchAll
  rw [hq]
  show ∃ d, State.dispatchN 0 s.dispatchOne = _
  unfold State.dispatchOne
  rw [hq]
  have u : s.tasksUsed = 0 := by unfold State.tasksUsed; rw [hk]; rfl
  simp only [hr, u, h1, Bool.true_and]
  rw [if_pos (by simp [poolSize])]
  have e1 : ({ s with erg := { s.erg with toDispatch := [] } } : State).dispatchEntry e =
      { s with erg := { s.erg with keys := [{ key := k, owner := homeGrain k, tasks := [s.taskOf k e] }], toDispatch := [],
                                   dispatched := max s.erg.dispatched e.jsn, poolFull := false } } := by
    unfold State.dispatchEntry
    simp only [if_neg he, h1, List.foldl_cons, List.foldl_nil]
    unfold State.enqueue State.keyQ
    simp only [hk, List.find?_nil, List.nil_append]
    unfold State.poolCheck State.tasksUsed
    simp [poolSize]
    rfl
  rw [e1]
  exact noteIdle_form s _

/-- The entry of a command given now. -/
def State.givenEntry (s : State) (src code target : Nat) (body : Bytes) : Entry :=
  s.entryOf .mgmtCmd .normal (cmdSrc target) (s.givenStamp src code target body) (s.inputFlags (s.givenStamp src code target body))
    (mgmtPayload src (cmdBytes code target body))

@[simp] theorem mgmtPayload_length (src code target : Nat) (body : Bytes) : (mgmtPayload src (cmdBytes code target body)).length = 16 + body.length := by
  simp [mgmtPayload, cmdBytes]
  omega

theorem cmdInput_form (s : State) (src code target : Nat) (body : Bytes) :
    (s.cmdInput src code target body).2 =
      { kind := .mgmtCmd, stamp := s.givenStamp src code target body, src := cmdSrc target, payload := mgmtPayload src (cmdBytes code target body) } ∧
    (s.givenRing src code target body = 0 ∨ s.givenRing src code target body = 15) := by
  unfold State.givenStamp State.givenRing State.cmdInput
  extract_lets
  split
  · exact ⟨rfl, .inl rfl⟩
  · split
    · exact ⟨rfl, .inr rfl⟩
    · exact ⟨rfl, .inl rfl⟩

/-- A ring that is empty and closed gives its consumer nothing. -/
theorem ringTake_empty {s : State} {n : Nat} (h : (s.ring n).vis ≤ (s.ring n).r + (s.ring n).remain) : s.ringTake n = (.idle, s) := by
  unfold State.ringTake State.ringPeek
  simp only
  rw [if_neg]
  simp
  omega

/-- The sequencer takes the one packet that passed a free ring, and no more. -/
theorem takeItems_free {s : State} {n : Nat} {i : Input} (v : s.Inv) (hn : n = 0 ∨ n = 15) (hh : s.seq.hold = none) (f : s.RingFree n i.words.length)
    (ht : s.takesFrom n = true) (h1 : i.stamp < 2 ^ 64) (h2 : i.payload.length ≤ 2048) (h3 : i.src.slotV = true → i.src.slot < 131072)
    (h4 : i.src.slotV = false → i.src.slot = 0) (h5 : i.src.chan < 8) (h6 : i.src.origin = 0) (m : Nat) :
    ∃ u : State, State.takeItems n (m + 1) (s.offer n i) = u.journalInput i ∧ u = { s with rings := u.rings, wram := u.wram } ∧ u.rings.length = 16 ∧
      Memory.wf u.wram = true ∧ (∀ k, k ≠ n → u.ring k = s.ring k) ∧ ∀ a, ¬ (s.ring n).holds a → sget ramDefault u.wram a = sget ramDefault s.wram a := by
  obtain ⟨_, hw, _, hl⟩ := v
  have hnl : n < s.rings.length := by omega
  have ho : s.offer n i = s.ringPacket n i.kind.code i.words := rfl
  have e1 := ringPacket_free hnl i.kind.code i.words f
  have hlen : i.words.length < 65536 := by rw [Input.words_length]; omega
  have e2 := ringTake_passed (ty := i.kind.code) hnl hw f hlen rfl
  rw [← ho] at e1 e2
  generalize hs1 : s.offer n i = s1 at *
  have k1 : s1.rings.length = 16 := by rw [e1]; simpa using hl
  have r1 : ∀ k, k ≠ n → s1.ring k = s.ring k := by
    intro k hk
    rw [e1]
    exact (State.ring_setRing (s := s) hnl _ _).trans (if_neg hk)
  have w1 : Memory.wf s1.wram = true := by
    rw [e1]
    exact ramPutWord_wf (putRun_wf _ hw _ _) _ _
  have a1 : ∀ a, ¬ (s.ring n).holds a → sget ramDefault s1.wram a = sget ramDefault s.wram a := by
    intro a ha
    rw [e1]
    exact (ring_put_outside (putRun_wf _ hw _ _) _ _ _ a ha).trans (putRun_outside _ hw _ _ a ha)
  have hn1 : n < s1.rings.length := by omega
  obtain ⟨u, hu⟩ : ∃ u, u = s1.setRing n { s1.ring n with r := (s.ring n).w + (i.words.length + 1), remain := 0, staleT := s1.t, staleFired := false } := ⟨_, rfl⟩
  rw [← hu] at e2
  have un : u.ring n = { s1.ring n with r := (s.ring n).w + (i.words.length + 1), remain := 0, staleT := s1.t, staleFired := false } := by
    rw [hu]
    exact ring_of_set hn1 _
  have uw : u.wram = s1.wram := by rw [hu]; rfl
  have ur : ∀ k, k ≠ n → u.ring k = s1.ring k := by
    intro k hk
    rw [hu]
    exact (State.ring_setRing hn1 _ _).trans (if_neg hk)
  have ul : u.rings.length = 16 := by rw [hu]; simpa [State.setRing] using k1
  have uf : u = { s with rings := u.rings, wram := u.wram } := by
    rw [hu, e1]
    rfl
  have hj : u.takeItem n (.packet false (i.kind.code % 256) i.words) = u.journalInput i := by
    obtain ⟨_, l2, l3, _⟩ := lengthWord_fields (i.kind.code % 256) i.words.length hlen
    have hk : Kind.ofCode (i.kind.code % 256 % 256) = some i.kind := by cases i.kind <;> rfl
    have hhu : u.seq.hold = none := by rw [uf]; exact hh
    unfold State.takeItem State.takeInput
    simp only [hhu]
    unfold State.journalHeld
    simp only [l2, l3, hk]
    rw [Input.words_whole i h2, Input.ofWords_words i i.kind rfl h1 (by omega) h3 h4 h5 h6]
    rfl
  have ht1 : s1.takesFrom n = true := by
    rw [← ht]
    have hr : s1.ring 12 = s.ring 12 := r1 12 (by omega)
    unfold State.takesFrom State.seqTakes State.stageFull State.stageUnits
    rw [hr, e1]
    rfl
  refine ⟨u, ?_, uf, ul, by rw [uw]; exact w1, fun k hk => (ur k hk).trans (r1 k hk), fun a ha => by rw [uw]; exact a1 a ha⟩
  rw [State.takeItems, if_pos ht1, e2]
  simp only
  rw [hj]
  cases m with
  | zero => rfl
  | succ m =>
    rw [State.takeItems]
    split
    · obtain ⟨r, w, se, em, rp, q, _, _, hx, _⟩ := append_form u i.kind i.cls i.src i.stamp (u.inputFlags i.stamp) i.payload
      have hun := (hx (by rw [uw]; exact w1) (by omega)).1 n (by omega)
      have ej : u.journalInput i = u.append i.kind i.cls i.src i.stamp (u.inputFlags i.stamp) i.payload := rfl
      rw [← ej] at hun
      have hp : (s1.ring n).vis = (s.ring n).w + (i.words.length + 1) := by
        rw [e1]
        have := ring_of_set hnl ((s.ring n).passed s.t i.words.length)
        unfold State.setRing at this
        exact congrArg Ring.vis this
      rw [ringTake_empty (by rw [hun, un]; simp only [hp]; omega)]
    · rfl

theorem giveCommand_quiet {s : State} {src code target : Nat} {body : Bytes} (g : s.Given src code target body) {k : Key}
    (hk : keysOf s.cfg (s.givenEntry src code target body) = [k]) :
    ∃ b, Queued s b (s.givenRing src code target body) k (s.givenEntry src code target body) ∧
      s.giveCommand src code target body = State.workKey k s.seq.nextJsn 6 b := by
  have q := g.quiet
  obtain ⟨ci, cr⟩ := cmdInput_form s src code target body
  obtain ⟨i, hi⟩ : ∃ i, i = (s.cmdInput src code target body).2 := ⟨_, rfl⟩
  have hci : s.cmdInput src code target body = (s.givenRing src code target body, i) := by rw [hi]; rfl
  generalize hn : s.givenRing src code target body = n at *
  generalize hst : s.givenStamp src code target body = st at *
  have hf : s.RingFree n i.words.length := by
    have := g.ring
    rw [hn] at this
    rw [Input.words_length, hi, ci, mgmtPayload_length]
    exact this
  obtain ⟨u, ht, uf, ul, uw, ur, ua⟩ := takeItems_free (i := i) g.inv cr q.hold hf (by have := g.takes; rwa [hn] at this)
    (by have := g.stamps; rw [hst] at this; rw [hi, ci]; exact this) (by have := g.short; rw [hi, ci, mgmtPayload_length]; omega)
    (by rw [hi, ci]; unfold cmdSrc bits; intro h; simp only at h ⊢; rw [if_pos h]; omega)
    (by rw [hi, ci]; unfold cmdSrc; intro h; simp only at h ⊢; rw [h]; rfl)
    (by rw [hi, ci]; exact Nat.zero_lt_succ 7) (by rw [hi, ci]; rfl) ((s.offer n i).ring n).cnt
  obtain ⟨e, he⟩ : ∃ e, e = s.givenEntry src code target body := ⟨_, rfl⟩
  rw [← he] at hk ⊢
  have ee : u.entryOf i.kind i.cls i.src i.stamp (u.inputFlags i.stamp) i.payload = e := by
    rw [he, hi, ci]
    unfold State.givenEntry
    rw [hst, uf]
    rfl
  obtain ⟨r, w, se, em, rp, q1, ha, hq1, hx, hy⟩ := append_form u i.kind i.cls i.src i.stamp (u.inputFlags i.stamp) i.payload
  have ej : u.journalInput i = u.append i.kind i.cls i.src i.stamp (u.inputFlags i.stamp) i.payload := rfl
  rw [← ej] at ha hx
  rw [ee] at ha hq1
  have hrp : rp = s.reply := by
    have h12 : (s.ring 12).waiting = [] := by
      have h := q.takes
      unfold State.seqTakes Ring.stalled at h
      cases hw : (s.ring 12).waiting with
      | nil => rfl
      | cons a b => rw [hw] at h; simp at h
    rw [hy (by rw [ur 12 (by omega), h12]; simp), uf]
  have ek : e.kind = .mgmtCmd := by rw [he]; rfl
  have un : u.erg.toDispatch = [] := by rw [uf]; exact q.queue
  obtain ⟨d, hd⟩ := dispatch_quiet (s := u.journalInput i) (e := e) (k := k)
    (by rw [ha, un]; rfl) (by rw [ha, uf]; exact q.keys) (by rw [ha, uf]; exact q.run) (by rw [ek]; decide) (by rw [ha, uf]; exact hk)
  obtain ⟨x1, x2⟩ := hx uw (by omega)
  have hj : (u.journalInput i).dispatchAll.seq.journal = s.seq.journal ++ [e] := by rw [hd, ha, hq1, uf]
  have hc : (u.journalInput i).dispatchAll.cfg = s.cfg := by rw [hd, ha, uf]
  have ep : e.payload = i.payload := by rw [he, hi, ci]; rfl
  have ejs : e.jsn = s.seq.nextJsn := by rw [he]; rfl
  refine ⟨(u.journalInput i).dispatchAll, ⟨⟨r, w, se, em, q1, d, ?_, ?_⟩, ?_, ?_⟩, ?_⟩
  · rw [hd, ha, hrp, uf]
    rfl
  · rw [hq1, uf]
  · intro m hm
    simp only [List.mem_cons, List.not_mem_nil, or_false, not_or] at hm
    rw [hd]
    exact (x1 m hm.2).trans (ur m hm.1)
  · intro a h
    have h12 := h 12 (by simp)
    rw [hd, ha]
    exact (x2 a (by rw [ur 12 (by omega)]; exact h12)).trans (ua a (h n (by simp)))
  · unfold State.giveCommand
    rw [hci]
    simp only [ht]
    have hf : (((u.journalInput i).dispatchAll.seq.journal.drop s.seq.journal.length).find? fun e => e.kind == .mgmtCmd && e.payload == i.payload) = some e := by
      rw [hj]
      simp [ek, ep]
    rw [hf]
    simp only
    rw [hc, hk, List.foldl_cons, List.foldl_nil, ejs]
    congr 1
    rw [hd]
    unfold State.tasksUsed
    simp

/-- A key whose one task commits without waiting: the task leaves, its outputs join the release queue. -/
theorem workKey_commits {b : State} {k : Key} {x : Task} {o : Nat} {c : Com} (hb : b.erg.keys = [{ key := k, owner := o, tasks := [x] }]) (n : Nat)
    (hc : c = (b.comOf x).runTask x) (hw : c.wait = none) (hr : c.roomForOuts = true) (hf : b.faulted k = false) (ha : b.arb.flips = []) (hk : c.s.erg.keys = b.erg.keys)
    (hd : c.s.boot.restartDue = false) :
    ∃ d, State.workKey k x.jsn (n + 2) b =
      { c.s with erg := { c.s.erg with outq := c.s.erg.outq ++ c.outs, keys := [], poolFull := false, dunes := d } } := by
  have hh : b.headTask k = some x := by
    unfold State.headTask State.keyQ
    rw [hb]
    simp
  have hwf : b.waitsFor k = none := by
    unfold State.waitsFor
    rw [hh]
    simp only [← hc, hw]
  have hk' : c.s.erg.keys = [{ key := k, owner := o, tasks := [x] }] := by rw [hk, hb]
  have e1 : (c.finish.dropHead k).poolCheck = { c.s with erg := { c.s.erg with outq := c.s.erg.outq ++ c.outs, keys := [], poolFull := false } } := by
    unfold Com.finish State.dropHead
    simp only [hk']
    simp
    unfold State.poolCheck State.tasksUsed
    simp [poolSize]
  obtain ⟨d0, e2⟩ := noteIdle_form b (c.finish.dropHead k).poolCheck
  obtain ⟨d, e4⟩ := leaveDunes_form (State.noteIdle b (c.finish.dropHead k).poolCheck)
  have e3 : b.commitHead k = { c.s with erg := { c.s.erg with outq := c.s.erg.outq ++ c.outs, keys := [], poolFull := false, dunes := d } } := by
    have hs : b.scrubKey k = b := by
      unfold State.scrubKey State.scrub
      rw [ha]
      cases k <;> rfl
    have hi : b.afterIngest x = false := by
      unfold State.afterIngest
      rw [hb]
      simp
    unfold State.commitHead
    rw [hh]
    simp only [hs, hf, hi, Bool.or_self, ← hc, hw, hr, if_true]
    rw [e4, e2, e1]
    unfold State.afterCommit
    simp [hd]
  refine ⟨d, ?_⟩
  unfold State.workKey
  rw [hh]
  simp only [if_neg (Nat.lt_irrefl _), hwf, e3]
  rw [if_pos (by unfold State.tasksUsed; rw [hb]; simp)]
  unfold State.workKey State.headTask State.keyQ
  simp

/-- The command block of an entry as it was given. -/
theorem cmd_given {e : Entry} {src code target : Nat} {body : Bytes} (h : e.payload = mgmtPayload src (cmdBytes code target body))
    (h1 : code < 65536) (h2 : target < 2 ^ 32) (h3 : body.length < 65536) :
    e.cmd = { code := code, blen := body.length, target := target, body := body, whole := true } := by
  have d : e.payload.drop 8 = le 2 code ++ (le 2 body.length ++ (le 4 target ++ body)) := by
    rw [h]
    unfold mgmtPayload cmdBytes
    rw [List.drop_append_of_le_length (by simp), List.drop_eq_nil_of_le (by simp)]
    simp
  unfold Entry.cmd Cmd.ofBytes
  rw [d]
  have f0 : fld 0 2 (le 2 code ++ (le 2 body.length ++ (le 4 target ++ body))) = code := by
    rw [fld_le_append]; omega
  have f2 : fld 2 2 (le 2 code ++ (le 2 body.length ++ (le 4 target ++ body))) = body.length := by
    rw [fld_append_right _ _ _ _ (by simp)]
    simp only [le_length, Nat.sub_self, fld_le_append]; omega
  have f4 : fld 4 4 (le 2 code ++ (le 2 body.length ++ (le 4 target ++ body))) = target := by
    rw [fld_append_right _ _ _ _ (by simp), fld_append_right _ _ _ _ (by simp)]
    simp only [le_length, Nat.sub_self, Nat.reduceSub, fld_le_append]; omega
  have f8 : sub 8 body.length (le 2 code ++ (le 2 body.length ++ (le 4 target ++ body))) = body := by
    rw [sub_append_right _ _ _ _ (by simp), sub_append_right _ _ _ _ (by simp), sub_append_right _ _ _ _ (by simp)]
    simp [sub]
  simp only [f0, f2, f4, f8]
  simp
  omega

theorem note_mgmt {s : State} {e : Entry} (h : e.kind = .mgmtCmd) (hr : fld 8 2 e.payload ≠ 0x11) :
    s.ctx.note e = { s.ctx with unsubmitted := (s.ctx.note e).unsubmitted } := by
  have hb : s.ctx.beganAt e = s.ctx.began := by
    unfold Ctx.beganAt
    rw [h]
  unfold Ctx.note
  rw [h, hb]
  simp only [if_neg hr]

/-- The origin of a command is the same once its entry is journaled. -/
theorem origin_given {s b : State} {n : Nat} {k : Key} {src code target : Nat} {body : Bytes} (g : s.Given src code target body)
    (hb : Queued s b n k (s.givenEntry src code target body)) : b.origin (s.givenEntry src code target body) = s.givenOrigin src code target body := by
  obtain ⟨r, w, se, em, q, d, hb, hq⟩ := hb.form
  have hw := g.wide
  have hk := g.known
  unfold State.givenOrigin
  generalize he : s.givenEntry src code target body = e at *
  have ek : e.kind = .mgmtCmd := by rw [← he]; rfl
  have ej : e.jsn = s.seq.nextJsn := by rw [← he]; rfl
  have es : e.stamp = s.givenStamp src code target body := by rw [← he]; rfl
  have ep : e.payload = le 8 src ++ cmdBytes code target body := by rw [← he]; rfl
  have hj : b.seq.journal = s.seq.journal ++ [e] := by rw [hb, hq]
  unfold State.origin
  rw [hj, ep, es, ej]
  have h8 : fld 0 8 (le 8 src ++ cmdBytes code target body) = src := by
    rw [fld_le_append]
    omega
  have h8' : fld 0 8 (le 8 src) = src := by
    rw [fld_le]
    omega
  simp only [h8, h8']
  by_cases hs : src = 0
  · simp [hs, List.filter_append, ek]
  · rcases hk with k1 | k1
    · exact absurd k1 hs
    · have : (e.jsn == src) = false := by
        rw [ej]
        simp
        omega
      simp only [ne_eq, hs, not_false_eq_true, if_true, List.find?_append]
      cases hf : List.find? (fun x => x.jsn == src) s.seq.journal with
      | some y => rfl
      | none => simp [this]

/-- A command that passes every check runs, and its acknowledgement follows. -/
theorem mgmt_runs {c c1 : Com} {e : Entry} {m : Cmd} {st : Status} (hm : e.cmd = m) (hl : cmdLenOk m.code m.blen = some true) (hw : m.whole = true)
    (hb : rosterBad m = false) (hp : (c.s.origin e).permits c.s.sec.otp.lc m.code = true) (hv : bit 17 m.target = cmdSlotV m.code)
    (hc : c.command e (c.s.origin e) m = (st, c1)) : c.mgmt e = c1.sealed 6 (ackBody c.s.cfg st (c.s.origin e) m e.jsn) := by
  unfold Com.mgmt
  simp only [hm, hl, hw, hb, hp, hv, hc]
  simp

/-- Once a command's entry is journaled only the waiting commands of the context differ. -/
theorem queued_ctx {s b : State} {n : Nat} {k : Key} {src code target : Nat} {body : Bytes} (hb : Queued s b n k (s.givenEntry src code target body))
    (hne : fld 8 2 (s.givenEntry src code target body).payload ≠ 0x11) : b.ctx = { s.ctx with unsubmitted := b.ctx.unsubmitted } := by
  obtain ⟨r, w, se, em, q, d, hbf, hq⟩ := hb.form
  have : b.ctx = s.ctx.note (s.givenEntry src code target body) := by rw [hbf]
  rw [this]
  exact note_mgmt (s := s) rfl hne

/-- What a command's commit leaves in its state: its own effect in `u`, with what journaling and dispatching moved kept from `b`. -/
def State.moved (u b : State) : State :=
  { u with seq := { u.seq with journal := b.seq.journal, nextJsn := b.seq.nextJsn, lastDur := b.seq.lastDur, stallFired := b.seq.stallFired, lastCkpt := b.seq.lastCkpt },
           ctx := { u.ctx with unsubmitted := b.ctx.unsubmitted },
           erg := { u.erg with keys := b.erg.keys, dispatched := b.erg.dispatched, poolFull := b.erg.poolFull, dunes := b.erg.dunes },
           rings := b.rings, wram := b.wram, sef := b.sef, emitted := b.emitted }

/-- What is left when a given command commits without waiting: the entry, its acknowledgement, and the command's own effect `u`. -/
theorem given_commits {s : State} {src code target : Nat} {body : Bytes} (g : s.Given src code target body) {k : Key} {st : Nat} {outs : List Output} {u : State}
    (hk : keysOf s.cfg (s.givenEntry src code target body) = [k]) (hne : fld 8 2 (s.givenEntry src code target body).payload ≠ 0x11)
    (hf : s.faulted k = false)
    (hrun : ∀ b, Queued s b (s.givenRing src code target body) k (s.givenEntry src code target body) →
      ∃ c1 o, (b.comOf (s.taskOf k (s.givenEntry src code target body))).runTask (s.taskOf k (s.givenEntry src code target body)) = c1 ∧ c1.wait = none ∧ c1.outs = outs ++ [o] ∧
        o.rtype = 6 ∧ o.ojsn = s.seq.nextJsn ∧ o.dest = .stream ∧
        o.bytes.take 3 = le 1 6 ++ le 1 1 ++ le 1 st ∧ o.cells ≤ 16 ∧ (outs.map Output.cells).foldl (· + ·) 0 ≤ 4096 ∧ c1.s = u.moved b)
    (hu : u.erg.outq = s.erg.outq ∧ u.boot.restartDue = false) :
    Commanded s u (s.giveCommand src code target body) src code target body st outs := by
  obtain ⟨b, hb, hg⟩ := giveCommand_quiet g hk
  obtain ⟨c1, o, h1, h2, h3, h4, h5, h6, h7, h8, h9, h10⟩ := hrun b hb
  obtain ⟨r, w, se, em, q, d, hbf, hq⟩ := hb.form
  have hbk : b.erg.keys = [{ key := k, owner := homeGrain k, tasks := [s.taskOf k (s.givenEntry src code target body)] }] := by rw [hbf]
  have fold : ∀ (l : List Nat) (n : Nat), l.foldl (· + ·) n = n + l.foldl (· + ·) 0 := by
    intro l
    induction l with
    | nil => simp
    | cons x r ih => intro n; simp only [List.foldl_cons]; rw [ih, ih (0 + x)]; omega
  have room : c1.roomForOuts = true := by
    unfold Com.roomForOuts
    have e1 : c1.s.cellsUsed = s.cellsUsed := by unfold State.cellsUsed; rw [h10]; show (u.erg.outq.map _).foldl _ _ = _; rw [hu.1]
    rw [e1, h3, List.map_append, List.foldl_append]
    have := g.quiet.cells
    simp only [List.map_cons, List.map_nil, List.foldl_cons, List.foldl_nil]
    simp
    omega
  have hfb : b.faulted k = false := by
    cases k with
    | slot i =>
      have := queued_ctx hb hne
      unfold State.faulted State.slot Ctx.slot at *
      rw [this]; exact hf
    | _ => rfl
  obtain ⟨d2, e2⟩ := workKey_commits (c := c1) hbk 4 h1.symm h2 room hfb (by rw [hbf]; exact g.quiet.clean) (by rw [h10]; rfl) (by rw [h10]; exact hu.2)
  rw [hg]
  have ej : (s.taskOf k (s.givenEntry src code target body)).jsn = s.seq.nextJsn := rfl
  rw [ej] at e2
  rw [e2]
  have ur : ({ c1.s with erg := { c1.s.erg with outq := c1.s.erg.outq ++ c1.outs, keys := [], poolFull := false, dunes := d2 } } : State).rings = b.rings := by rw [h10]; rfl
  have uw : ({ c1.s with erg := { c1.s.erg with outq := c1.s.erg.outq ++ c1.outs, keys := [], poolFull := false, dunes := d2 } } : State).wram = b.wram := by rw [h10]; rfl
  refine ⟨s.givenEntry src code target body, o, rfl, rfl, rfl, rfl, ?_, h4, h5, h6, h7, ?_, ?_, ?_, rfl, ?_, ?_, ?_⟩
  · show mgmtPayload src (cmdBytes code target body) = _
    simp [mgmtPayload, cmdBytes]
  · show c1.s.seq.journal = _
    rw [h10]; show b.seq.journal = _; rw [hbf, hq]
  · show c1.s.seq.nextJsn = _
    rw [h10]; show b.seq.nextJsn = _; rw [hbf, hq]
  · show c1.s.erg.outq ++ c1.outs = _
    rw [h10, h3]; show u.erg.outq ++ _ = _; rw [hu.1]; simp
  · intro m hm
    unfold State.ring; rw [ur]; exact hb.rings m hm
  · intro a ha
    rw [uw]; exact hb.ram a ha
  · rw [h10]; rfl

/-- The CMD task of a given command runs it and seals its acknowledgement. -/
theorem cmdTask_runs {s b u : State} {src code target : Nat} {body : Bytes} (g : s.Given src code target body) {n : Nat} {st : Status}
    (hb : Queued s b n (.sys 3) (s.givenEntry src code target body)) (hc1 : code < 65536) (ht : target < 2 ^ 32) (hl : cmdLenOk code body.length = some true)
    (hr : rosterBad { code := code, blen := body.length, target := target, body := body, whole := true } = false) (hv : bit 17 target = cmdSlotV code)
    (hcmd : ∃ c1, (b.comOf (s.taskOf (.sys 3) (s.givenEntry src code target body))).command (s.givenEntry src code target body) (s.givenOrigin src code target body)
      { code := code, blen := body.length, target := target, body := body, whole := true } = (st, c1) ∧ c1.s = u.moved b ∧ c1.outs = [] ∧ c1.wait = none ∧ c1.ojsn = s.seq.nextJsn) :
    ∃ c1 o, (b.comOf (s.taskOf (.sys 3) (s.givenEntry src code target body))).runTask (s.taskOf (.sys 3) (s.givenEntry src code target body)) = c1 ∧ c1.wait = none ∧ c1.outs = [] ++ [o] ∧
        o.rtype = 6 ∧ o.ojsn = s.seq.nextJsn ∧ o.dest = .stream ∧
        o.bytes.take 3 = le 1 6 ++ le 1 1 ++ le 1 st.code ∧ o.cells ≤ 16 ∧ (([] : List Output).map Output.cells).foldl (· + ·) 0 ≤ 4096 ∧ c1.s = u.moved b := by
  obtain ⟨c1, e1, e2, e3, e4, e5⟩ := hcmd
  have hcg := cmd_given (e := s.givenEntry src code target body) rfl hc1 ht (by have := g.short; omega)
  have ho := origin_given g hb
  have hlc : b.sec = s.sec := by obtain ⟨r, w, se, em, q, d, hbf, hq⟩ := hb.form; rw [hbf]
  have key := mgmt_runs (c := b.comOf (s.taskOf (.sys 3) (s.givenEntry src code target body))) (c1 := c1) (st := st) hcg hl rfl hr
    (by show (b.origin _).permits b.sec.otp.lc _ = true; rw [ho, hlc]; exact g.permit) hv (by show Com.command _ _ (b.origin _) _ = _; rw [ho]; exact e1)
  have rt : (b.comOf (s.taskOf (.sys 3) (s.givenEntry src code target body))).runTask (s.taskOf (.sys 3) (s.givenEntry src code target body)) =
      (b.comOf (s.taskOf (.sys 3) (s.givenEntry src code target body))).mgmt (s.givenEntry src code target body) := by
    have ek : (s.givenEntry src code target body).kind = .mgmtCmd := rfl
    generalize s.givenEntry src code target body = e at *
    have wk : workOf e (.sys 3) = .entry := by unfold workOf; rw [if_neg (by rw [ek]; decide)]
    unfold State.taskOf
    rw [wk]
    unfold Com.runTask
    simp only
    rw [if_neg (by rw [ek]; decide)]
  obtain ⟨bd, hbd⟩ : ∃ bd, bd = ackBody b.cfg st (b.origin (s.givenEntry src code target body)) { code := code, blen := body.length, target := target, body := body, whole := true }
    (s.givenEntry src code target body).jsn := ⟨_, rfl⟩
  rw [rt, key]
  have kb : (b.comOf (s.taskOf (.sys 3) (s.givenEntry src code target body))).s = b := rfl
  rw [kb, ← hbd]
  refine ⟨_, { ojsn := c1.ojsn, dep := c1.dep, key := c1.key, idx := c1.base + c1.outs.length, rtype := 6, bytes := bd ++ c1.s.tag bd, dest := .stream }, rfl, e4, ?_, rfl, e5, rfl, ?_, ?_, by simp, e2⟩
  · show c1.outs ++ [_] = _; rw [e3]
  · rw [hbd]
    rw [List.take_append_of_le_length (by simp [ackBody])]
    unfold ackBody
    simp only [List.append_assoc]
    rw [← List.append_assoc, ← List.append_assoc, List.take_append_of_le_length (by simp), List.take_of_length_le (by simp)]
    simp only [List.append_assoc]
  · have hl : (bd ++ c1.s.tag bd).length ≤ 64 := by
      have tl : (c1.s.tag bd).length = 8 := by unfold State.tag; split <;> simp [tag64, fit]
      rw [List.length_append, tl, hbd]; simp [ackBody]
    unfold Output.cells ceilDiv
    have : (16 + (bd ++ c1.s.tag bd).length + 64 - 1) / 64 ≤ 16 := by omega
    exact this

/-- The code in the entry of a given command. -/
theorem given_code (s : State) (src code target : Nat) (body : Bytes) (h : code < 65536) : fld 8 2 (s.givenEntry src code target body).payload = code ∧ cmdCode (s.givenEntry src code target body) = code := by
  have : fld 8 2 (s.givenEntry src code target body).payload = code := by
    show fld 8 2 (le 8 src ++ (le 2 code ++ le 2 body.length ++ le 4 target ++ body)) = code
    rw [fld_append_right _ _ _ _ (by simp)]
    simp only [le_length, Nat.sub_self, List.append_assoc, fld_le_append]
    omega
  exact ⟨this, this⟩

/-- A command that is none of CLOSE_NOW, READOUT and METER_SET and names no slot runs under the CMD key. -/
theorem keysOf_cmd (s : State) (src code : Nat) (body : Bytes) (h : code < 65536) (h1 : code ≠ 0x10) (h2 : code ≠ 0x30) (h3 : code ≠ 0x11) :
    keysOf s.cfg (s.givenEntry src code 0 body) = [.sys 3] := by
  have hc := (given_code s src code 0 body h).2
  have ek : (s.givenEntry src code 0 body).kind = .mgmtCmd := rfl
  have es : (s.givenEntry src code 0 body).src.slotV = false := rfl
  have ec : (s.givenEntry src code 0 body).cls = .normal := rfl
  generalize s.givenEntry src code 0 body = e at *
  unfold keysOf
  rw [ek]
  simp [es, ec, hc, h1, h2, h3]

end Sys2Proof.Machine
end

