-- ==== Sys2Proof/Machine/Balls.lean ====
section
/-! DEFINITION. What each ball shows (R21, R727 to R730): during a reset of the main domain, until its subsystem is enabled, and then. -/
namespace Sys2Proof.Machine

/-- The signals of R727, one name for each row that acts alike. -/
inductive Ball where
  | sgaTx | sgbTx | sgRx | seifTx | seifRx | mdc | mdio | addrIn | addrOut | tokenN
  | nfCe | nfRb | nfWp | nfCleAle | nfWe | nfData | qspiClk | qspiCs | qspiIo | sdClk | sdData | sdCd
  | feeder | vrefCap | plcRx | zc | plcTx | rfIo | rfPaen | rfLnaen | xt26 | ctl (n : Nat) | evt (n : Nat)
  | uartTx | uartRx | inputN | tckTrst | tmsTdi | tdo | x32 | pwronCtl | wakeN | ppsOut | tampIn | meshOut | meshIn
  deriving DecidableEq, Repr

/-- What a ball shows: `run` while its function drives or reads it. -/
inductive BallState where
  | electricalIdle | termination | pullUp | pullDown | low | high | highZ | released | off | noPull | run
  deriving DecidableEq, Repr

/-- A ball that its block drives, or leaves to its weak pull-down (R21). -/
def BallOut.shown : BallOut → BallState
  | .pull => .pullDown
  | .low => .low
  | .high => .high

/-- What a ball of the main domain shows while the main domain is in reset (R727). -/
def ballInReset : Ball → BallState
  | .sgaTx | .sgbTx | .seifTx => .electricalIdle
  | .sgRx | .seifRx => .termination
  | .mdc | .addrIn | .nfWp | .nfCleAle | .qspiClk | .sdClk | .zc | .plcTx | .rfPaen | .rfLnaen | .ctl _ | .evt _ | .tckTrst => .pullDown
  | .mdio | .nfData | .feeder | .plcRx | .tdo => .highZ
  | .addrOut => .low
  | .tokenN => .released
  | .nfCe | .nfRb | .nfWe | .qspiCs | .qspiIo | .sdData | .sdCd | .uartTx | .uartRx | .inputN | .tmsTdi => .pullUp
  | .vrefCap | .rfIo | .xt26 => .off
  | .x32 | .pwronCtl | .wakeN | .ppsOut | .tampIn | .meshOut | .meshIn => .run

/-- A ball once its subsystem is enabled, else its state until then. -/
def shownWhen (on : Bool) (idle : BallState) : BallState := if on then .run else idle

/-- What a ball of the main domain shows outside reset (R605, R629, R675, R727). -/
def State.mainBall (s : State) : Ball → BallState
  | .sgaTx => shownWhen (s.bitOf rNetCtl 0) .electricalIdle
  | .sgbTx => shownWhen (s.bitOf rNetCtl 0 && decide (8 ≤ s.fld rSysLadder 20 16)) .electricalIdle
  | .seifTx => shownWhen (s.bitOf rSefCtl 0) .electricalIdle
  | .sgRx | .seifRx => .termination
  | .mdc => shownWhen (s.bitOf rNetCtl 0) .low
  | .mdio => shownWhen (s.bitOf rNetCtl 0) .highZ
  | .addrIn | .zc | .tckTrst => .pullDown
  | .addrOut => s.addrOut.shown
  | .tokenN => if s.sef.driver then .low else .released
  | .nfCe | .nfWe => shownWhen (s.bitOf rMedCtl 0) .high
  | .nfWp | .nfCleAle => shownWhen (s.bitOf rMedCtl 0) .low
  | .nfData => shownWhen (s.bitOf rMedCtl 0) .highZ
  | .qspiClk => .run
  | .qspiCs | .uartTx => .high
  | .sdClk => .low
  | .nfRb | .qspiIo | .sdData | .sdCd | .uartRx | .inputN | .tmsTdi => .pullUp
  | .feeder => shownWhen (s.bitOf rMtrCtl 0) .highZ
  | .vrefCap => shownWhen (s.bitOf rMtrCtl 0) .off
  | .plcRx => shownWhen (s.bitOf rPlcCtl 0) .highZ
  | .plcTx => shownWhen (s.bitOf rPlcCtl 0) .pullDown
  | .rfIo => shownWhen (s.bitOf rRadCtl 0) .off
  | .rfPaen => s.rfPaen.shown
  | .rfLnaen => s.rfLnaen.shown
  | .xt26 => .run
  | .ctl n => (s.ctlBall n).shown
  | .evt n => shownWhen (s.bitOf rTimCtl 0 && s.bitOf (rTimEvtcfg n) 2) .pullDown
  | .tdo => shownWhen (s.sec.otp.lc == .open_) .highZ
  | .x32 | .pwronCtl | .wakeN | .ppsOut | .tampIn | .meshOut | .meshIn => .run

/-- What a ball of the Oasis domain shows, whatever the main domain does (R493, R668, R727, R729); none for another ball. -/
def State.oasisBall (s : State) : Ball → Option BallState
  | .x32 => some .run
  | .pwronCtl => some (if s.bitOf rOasPwr 2 then .low else .released)
  | .wakeN | .tampIn => some .pullUp
  | .ppsOut => some (match s.ppsOut with | .pull => .released | .low => .low | .high => .high)
  | .meshOut => some (if 0 < s.tamperSev 2 then .run else .low)
  | .meshIn => some .noPull
  | _ => none

/-- What a ball shows (R727, R730): TOKEN_N and ADDR_IN are high impedance while VIO3 is absent. -/
def State.ball (s : State) (b : Ball) : BallState :=
  match s.oasisBall b with
  | some x => x
  | none =>
    if s.pow.rails = false ∧ (b = .tokenN ∨ b = .addrIn) then .highZ
    else if s.pow.phase = .off then ballInReset b
    else s.mainBall b

end Sys2Proof.Machine
end

