-- ==== Sys2Proof/WellFormed.lean ====
section
/-! DEFINITION. Which operands a command can carry: each field within the width that the spec gives it. -/
namespace Sys2Proof

/-- A task key names a slot, a group or a system key (R109). -/
def Key.wf : Key → Bool
  | .slot i => decide (i < 131072)
  | .group g => decide (g < 4096)
  | .sys n => decide (n < 11)

/-- A media set's report (R558, R559): at least one LUN, unit, page and block, the LUNs of four chip enables, and bad blocks that exist. -/
def NandGeom.wf (g : NandGeom) : Bool :=
  decide (0 < g.luns) && decide (g.ces.length = 4) && decide (g.ces.foldl (· + ·) 0 = g.luns) && decide (0 < g.page) && decide (0 < g.ppb) && decide (0 < g.bpl) && g.bad.all fun b => decide (b < g.luns * g.bpl)

/-- A sample of the front end (R294): seven channels of 24 signed bits. -/
def FeSample.wf (x : FeSample) : Bool := decide (x.ch.length = 7) && x.ch.all fun v => decide (-8388608 ≤ v) && decide (v ≤ 8388607)

/-- An Announce message (R479): an 8-bit domain, 16-bit steps removed. -/
def AnnounceMsg.wf (m : AnnounceMsg) : Bool := decide (m.domain < 256) && decide (m.steps < 65536)

/-- Whether a command's operands lie within their fields. -/
def Instr.wf : Instr → Bool
  | .powerOn _ | .resetNAssert _ | .ladderRung _ => true
  | .boot _ restore _ _ geom _ _ => decide (restore < 2 ^ 64) && (geom.all NandGeom.wf)
  | .addressFault _ _ | .registerWrite _ _ _ _ | .journalInput _ | .ringLoss _ | .boundaryHoldStart | .boundaryHoldEnd => true
  | .drbgDraw k => k.wf
  | .ckptCut | .jsqCkptNow _ | .updHourCkpt | .ckptValid _ | .durabilityStall => true
  | .qfOpen _ _ | .qfPush _ _ _ | .qfClose _ _ _ | .qfPop _ _ | .qfDrop _ _ | .ringStallRelease _ | .wadiMarkerWrite _ | .ringStale _ => true
  | .taskDispatch | .taskStart _ | .barchanMove _ => true
  | .commitTurn k => k.wf
  | .cipherResult | .duneNap _ | .duneDeep _ | .duneWake | .arbWindowEnd | .arbLatmaxClear _ => true
  | .rosterAdd src _ eui cls med grp wkey =>
    decide (src < 2 ^ 64) && decide (eui < 2 ^ 64) && decide (cls < 256) && decide (med < 256) && decide (grp < 65536) && decide (wkey.length = 24)
  | .rosterDecom src _ | .rosterRelease src _ => decide (src < 2 ^ 64)
  | .rosterSet src _ cls grp => decide (src < 2 ^ 64) && decide (cls < 256) && decide (grp < 65536)
  | .closeNow src | .readout src | .cmdCkptNow src | .holdEnd src => decide (src < 2 ^ 64)
  | .timeSet src time => decide (src < 2 ^ 64) && decide (time < 2 ^ 64)
  | .meterSet src sel p0 p1 p2 p3 =>
    decide (src < 2 ^ 64) && decide (sel < 256) && decide (p0 < 256) && decide (p1 < 256) && decide (p2 < 256) && decide (p3 < 256)
  | .push src _ id att dtype payload =>
    decide (src < 2 ^ 64) && decide (id < 65536) && decide (att < 256) && decide (dtype < 256) && decide (payload.length ≤ 1376)
  | .fwDeclare src img blocks length dg mask =>
    decide (src < 2 ^ 64) && decide (img < 65536) && decide (blocks < 65536) && decide (length < 2 ^ 32) && decide (dg.length = 32) && decide (mask < 65536)
  | .fwLoad src img block data => decide (src < 2 ^ 64) && decide (img < 65536) && decide (block < 65536) && decide (data.length = 128)
  | .fwSend src img round med first last ttl =>
    decide (src < 2 ^ 64) && decide (img < 65536) && decide (round < 256) && decide (med < 256) && decide (first < 65536) && decide (last < 65536) && decide (ttl < 256)
  | .fwDelete src img => decide (src < 2 ^ 64) && decide (img < 65536)
  | .fwBlockPump _ => true
  | .keyRoll src purpose => decide (src < 2 ^ 64) && decide (purpose < 256)
  | .commission src sig | .lcField src sig | .lcReturn src sig | .lcScrap src sig | .rearm src sig => decide (src < 2 ^ 64) && decide (sig.length = 64)
  | .closeSweepStep | .balanceClose _ => true
  | .feederBlockEnd xs | .feederCycle _ xs | .tamperCondition _ xs | .settlingEnd xs | .noZc xs => xs.all FeSample.wf
  | .radioFrameReceive _ _ rssi _ _ _ psdu => decide (-128 ≤ rssi) && decide (rssi ≤ 127) && decide (psdu.length ≤ 2047)
  | .radioAckSend => true
  | .wakeTrainStart _ | .pollSend | .fullTrainStart | .exchangeTimeout | .radioDownSend | .radioDownNoack | .radioDownExpired | .radTxDown | .radTxCaravan | .radTxPollNow => true
  | .caravanCacheExpiry _ | .zcEdge _ _ _ _ => true
  | .plcFrameReceive _ _ heard => decide (heard.length ≤ 2070)
  | .plcShortAckReceive _ _ heard => decide (heard.length = 48)
  | .plcShortAckSend _ | .plcAckTimeout _ | .plcContend _ _ | .plcBeacon | .plcDownNoack | .plcDownExpired | .plcTxDown | .plcTxCaravan | .plcTxReq => true
  | .bridgeFrame _ _ _ frame => decide (frame.length ≤ 2048)
  | .portLinkChange _ _ _ _ | .devicePortReceive | .backCommit | .cmdDatagramCheck | .batchIngest | .headBackSend | .releaseEnter => true
  | .batchSend _ n => decide (n ≤ 255)
  | .batchRto _ | .pauseSend | .mdioGo _ _ => true
  | .ptpAnnounce _ m => m.wf
  | .ptpSync _ _ _ _ | .ptpDelayExchange _ _ _ _ _ _ | .ptpLoss | .lrateSave | .timeStepApply | .oasisTrimTick _ | .oasisCalibrate | .oasTcommit _ | .oasCommitApply => true
  | .oasTime0Read _ | .oasTime3Read _ | .freezeTimeout _ | .ppsPulse | .ctlPulse _ | .evtCapture _ _ _ => true
  | .cipherRequest | .laneComplete _ | .unwrapComplete _ | .eccComplete _ | .keyRemask | .trngHealthFail | .trngHealthPass | .tamperAlarm _ _ => true
  | .holdCmd addr port dgram => decide (addr < 2 ^ 128) && decide (port < 65536) && decide (dgram.length ≤ 1500)
  | .mediaJournalWrite | .journalFlushTimer => true
  | .unitVerify _ lua corr => decide (lua < 2 ^ 32) && decide (corr < 32768)
  | .mediaRead _ lua _ corr _ => decide (lua < 2 ^ 32) && decide (corr < 32768)
  | .programFail _ _ | .eraseFail _ _ | .bgCollection | .fgCollection => true
  | .patrolRead corr => decide (corr < 32768)
  | .mediaHealth | .eventRecord | .evrRewind _ | .evrWin _ => true
  | .enumSample _ _ | .enum | .enumResend | .heartbeatSend | .heartbeat | .peerTimeout _ => true
  | .linkFrameReceive _ _ frame => decide (frame.length ≤ 8212)
  | .linkAck _ _ _ _ | .linkRetxTimeout _ | .jrep | .jack | .jackSend | .digest | .digestSend | .xreq | .xfer | .mgmtRd | .mgmtWr | .mgmtRsp | .seifCmd | .image => true
  | .tokenClaim _ _ _ | .catchupTimeout | .sefKick _ | .tokenWatchdog | .sefRelease _ | .tokenFault _ | .roleConflict | .resync => true
  | .supplyWarning _ _ _ | .bridgeLock _ | .supplyReset _ | .dipEnd _ | .pllUnlock _ _ | .pwronHoldEnd | .wakeN _ | .vbatLatch _ | .oasisReset _ | .vbatMeasure _ | .thermalGovernor _ => true
  | .status => true
  | .writeFw slot off data => decide (slot < 256) && decide (off < 2 ^ 32) && decide (data.length ≤ 4104)
  | .writeCfg off data => decide (off < 2 ^ 32) && decide (data.length ≤ 4104)
  | .commitFw slot => decide (slot < 256)
  | .checkCfg | .restart => true
  | .lcCmd block => decide (block.length ≤ 4104)
  | .replay order => decide (order.length ≤ 4104)
  | .replayRead off len => decide (off < 2 ^ 32) && decide (len < 65536)
  | .loRegisterRead _ _ | .linkTrained _ _ | .pllRelock _ _ | .zcMissingCrossing _ _ | .duplicateAddressDetection _ | .bridgeAgeing | .leapInstant => true
  | .eraseComplete _ | .mdioFrameDone _ _ | .regressedEnd | .pauseReceive _ _ _ | .pauseExpiry _ | .repeatWindowEnd => true

end Sys2Proof
end

