-- ==== Sys2Proof/Tests/Slice0.lean ====
section
/-! SUPPORT. Tests: the checks of WellFormed each refuse an ill-formed command, a few values are worked out from the spec by hand, and small states
meet the hypotheses of the statements, clause by clause. A clause whose hypothesis asks what an opaque function of Config answers (a signature, a digest, an
unwrapped key) has no closed witness and is not here. -/
namespace Sys2Proof.Machine
set_option maxRecDepth 10000
set_option Elab.async false
set_option linter.all false

/-! ### Small states -/

/-- Sixteen enabled, empty rings. -/
def tRings : List Ring := (List.range 16).map fun i => { en := true, base := 4096 * i, sizeLog2 := 12 }
/-- A unit of one in SERVICE: clocks locked, rings enabled, engines running, a system key, both ports up. -/
def tServe : State :=
  (((((((((({ State.reset with
      t := 1000 * 268435456, dev := 1000 * 268435456, rings := tRings, sysKey := some 7, seq := { holder := true, nextJsn := 9, durable := 4, lastCkpt := some (1, 1) },
      cfg := { role := .field, sysaddr := 5, radio := List.replicate 16 { pollDiv := 1, maxF := 4, listenMs := 10, listenFt := 500 } }, sec := { State.reset.sec with otp := { State.reset.sec.otp with lc := .field } },
      net := { ports := [{ up := true }, { up := true }] }, med := { run := true, caps := [8, 8, 8, 8, 8] }, rad := { budget := 10 ^ 30 },
      erg := { State.reset.erg with dispatched := 8, dunes := List.replicate 8 { pwr := .awake } },
      sef := { on := true, driver := true, pos := some 0, links := [{ up := true }, { up := true }] },
      pow := { State.reset.pow with phase := .service, rails := true, locks := [true, true, true, true] } } : State).setBit rJsqCtl 0 true).setBit rErgCtl 0 true).setBit rTimCtl 1 true).setReg rNetCtl 7).setBit rRadCtl 0 true).setReg rPlcCtl 0x1D).setBit rCphTrng 0 true).setBit rOasPwr 0 false).setFld rRadDuty 19 0 100000).setFld rRadDnwait 21 10 3600
/-- The unit with an active endpoint in slot 0. -/
def tJoined : State := (tServe.setSlot 0 { state := .active, cls := 1, wakeS := 60 }).setPoll 0 { tSync := some 8000000 }
/-- What a power-line receiver hears of given slots: most energy in the slot sent. -/
def tHeard (l : List (Fin 4)) : List PulseEnergy := l.map fun k => { e0 := if k = 0 then 9 else 1, e1 := if k = 1 then 9 else 1, e2 := if k = 2 then 9 else 1, e3 := if k = 3 then 9 else 1 }
/-- The unit in the head role. -/
def tHead : State := { tServe with cfg := { tServe.cfg with role := .head } }
/-- A unit in recovery mode. -/
def tRec : State := { State.reset with pow := { State.reset.pow with phase := .recovery, rails := true } }
/-- The unit in the alarm hold. -/
def tHold : State := { tServe with pow := { tServe.pow with phase := .alarmHold } }
/-- A journal entry of a radio frame. -/
def tEntry : Entry := { kind := .radFrame, jsn := 8, stamp := 5, payload := [1, 2, 3] }
/-- A frame of the chain, of a type and a body. -/
def tSef (t : Nat) (b : Bytes) : Bytes := le 1 t ++ le 1 0 ++ le 2 b.length ++ le 1 1 ++ le 11 0 ++ b ++ le 4 0
/-- A datagram of a type and a body. -/
def tDg (t : Nat) (b : Bytes) : Bytes := le 4 dgramMagic ++ le 1 t ++ le 1 1 ++ le 1 0 ++ le 1 1 ++ le 24 0 ++ le 2 b.length ++ le 6 0 ++ b ++ le 16 0
/-- A media set of one LUN. -/
def tGeom : NandGeom := { luns := 1, ces := [1, 0, 0, 0], page := 16384, ppb := 64, bpl := 40, spare := 1024, tBers := 1, tProg := 1, tProgSlc := 1, identical := false, bad := [], modes := [] }
/-- A journaled unit of the media. -/
def tUnit : MUnit := { region := 2, lua := 3, wtemp := 0, wseq := 0, wtime := 0, slc := false, sb := 0 }
/-- A superblock. -/
def tSb (id region : Nat) (st : SbState) : Sb := { id := id, blocks := [id], region := region, slc := false, st := st }
/-- The unit with media on its board. -/
def tMed : State := { tServe with med := { tServe.med with refreshT := 50, fgFree := 100, bgFree := 1000, patrolD := 1, nand := { board := some tGeom, geom := some tGeom, units := [tUnit, { tUnit with lua := 4, sb := 2 }], sbs := [tSb 0 2 .open_, tSb 1 1 .open_, tSb 2 2 .closed, tSb 3 2 .erasing] } } }
/-- A present peer. -/
def tPeer (pos state : Nat) (token : Bool) : Peer :=
  { pos := pos, unitId := [], state := state, rank := pos, token := token, sysaddr := 5, cfg8 := fit 8 [], nextJsn := 9, high := 8, vsn := 0, session := 0, heardAt := 0, link := 0, present := true }
/-- A triad with this unit as holder. -/
def tTri : State := let s := (tServe.setBit rSefCtl 1 true).setReg rSefMember 0x020100
  { s with sef := { s.sef with state := 4, peers := [tPeer 1 3 false, tPeer 2 3 false] } }
/-- A triad with this unit as a standby. -/
def tStandby : State := { tTri with sef := { tTri.sef with state := 3, driver := false, peers := [tPeer 1 4 true, tPeer 2 3 false] }, seq := { tTri.seq with holder := false } }
/-- A link frame. -/
def tFrm (ty dst : Nat) : Bytes := let f := le 1 ty ++ le 1 0 ++ le 2 4 ++ le 1 1 ++ le 1 dst ++ le 2 0 ++ le 8 0 ++ le 4 7; f ++ le 4 (crc32 f)
/-- The unit at a rung of its ladder. -/
def tRung (p : RunPhase) (k : Nat) : State := let s := tServe.setFld rSysLadder 20 16 k; { s with pow := { s.pow with phase := p } }
/-- A unit in its ROM, life cycle OPEN. -/
def tRom : State := { State.reset with pow := { State.reset.pow with phase := .rom, rails := true }, sec := { State.reset.sec with otp := { State.reset.sec.otp with lc := .open_ } } }
/-- The unit in life cycle OPEN. -/
def tOpen : State := { tServe with sec := { tServe.sec with otp := { tServe.sec.otp with lc := .open_ } } }
/-- The next state that an outcome answers. -/
def tNext (o : Host.Outcome State Fault Refusal) : State := match o with | .next s => s | _ => State.reset
/-- Whether an outcome is a next state. -/
def tIsNext (o : Host.Outcome State Fault Refusal) : Bool := match o with | .next _ => true | _ => false
theorem tNext_eq (o : Host.Outcome State Fault Refusal) (h : tIsNext o = true) : o = .next (tNext o) := by
  cases o with
  | next s => rfl
  | fault f => cases h
  | refused r => cases h
/-- The unit after a supply warning of `k` steps. -/
def tWarned (g : Nat) (n : Bool) (k : Fin 7) : State := tNext (exec (.supplyWarning 1 true k) ({ tServe.setFld rSysGasp 2 0 g with locked := n }))
/-- What a unit holds of the warning. -/
def tWarn (s : State) : Khamsin := s.pow.kham.getD { from_ := 0, pfail := false }

/-! ### Each check of WellFormed refuses an ill-formed command -/

theorem test_wf_key : (Instr.drbgDraw (.slot 131072)).wf = false ∧ (Instr.drbgDraw (.group 4096)).wf = false ∧ (Instr.commitTurn (.sys 11)).wf = false ∧
    (Instr.commitTurn (.slot 131071)).wf = true := by decide

theorem test_wf_geometry : tGeom.wf = true ∧ ({ tGeom with luns := 0, ces := [0, 0, 0, 0] } : NandGeom).wf = false ∧ ({ tGeom with ces := [1] } : NandGeom).wf = false ∧
    ({ tGeom with ces := [1, 1, 0, 0] } : NandGeom).wf = false ∧ ({ tGeom with page := 0 } : NandGeom).wf = false ∧ ({ tGeom with ppb := 0 } : NandGeom).wf = false ∧
    ({ tGeom with bpl := 0 } : NandGeom).wf = false ∧ ({ tGeom with bad := [40] } : NandGeom).wf = false := by decide

theorem test_wf_boot : (Instr.boot 0 (2 ^ 64) false none none false 0).wf = false ∧ (Instr.boot 0 0 false none (some { tGeom with page := 0 }) false 0).wf = false ∧
    (Instr.boot 0 0 false none none false 0).wf = true := by decide

theorem test_wf_roster : (Instr.rosterAdd (2 ^ 64) 0 0 0 0 0 (List.replicate 24 0)).wf = false ∧ (Instr.rosterAdd 0 0 (2 ^ 64) 0 0 0 (List.replicate 24 0)).wf = false ∧
    (Instr.rosterAdd 0 0 0 256 0 0 (List.replicate 24 0)).wf = false ∧ (Instr.rosterAdd 0 0 0 0 256 0 (List.replicate 24 0)).wf = false ∧
    (Instr.rosterAdd 0 0 0 0 0 65536 (List.replicate 24 0)).wf = false ∧ (Instr.rosterAdd 0 0 0 0 0 0 []).wf = false ∧
    (Instr.rosterDecom (2 ^ 64) 0).wf = false ∧ (Instr.rosterRelease (2 ^ 64) 0).wf = false ∧ (Instr.rosterSet (2 ^ 64) 0 0 0).wf = false ∧
    (Instr.rosterSet 0 0 256 0).wf = false ∧ (Instr.rosterSet 0 0 0 65536).wf = false := by decide

theorem test_wf_unit : (Instr.closeNow (2 ^ 64)).wf = false ∧ (Instr.readout (2 ^ 64)).wf = false ∧ (Instr.cmdCkptNow (2 ^ 64)).wf = false ∧
    (Instr.holdEnd (2 ^ 64)).wf = false ∧ (Instr.timeSet (2 ^ 64) 0).wf = false ∧ (Instr.timeSet 0 (2 ^ 64)).wf = false ∧
    (Instr.meterSet (2 ^ 64) 0 0 0 0 0).wf = false ∧ (Instr.meterSet 0 256 0 0 0 0).wf = false ∧ (Instr.meterSet 0 0 256 0 0 0).wf = false ∧
    (Instr.meterSet 0 0 0 256 0 0).wf = false ∧ (Instr.meterSet 0 0 0 0 256 0).wf = false ∧ (Instr.meterSet 0 0 0 0 0 256).wf = false ∧
    (Instr.keyRoll (2 ^ 64) 0).wf = false ∧ (Instr.keyRoll 0 256).wf = false := by decide

theorem test_wf_push : (Instr.push (2 ^ 64) 0 0 0 0 []).wf = false ∧ (Instr.push 0 0 65536 0 0 []).wf = false ∧ (Instr.push 0 0 0 256 0 []).wf = false ∧
    (Instr.push 0 0 0 0 256 []).wf = false ∧ (Instr.push 0 0 0 0 0 (List.replicate 1377 0)).wf = false := by decide +kernel

theorem test_wf_image : (Instr.fwDeclare (2 ^ 64) 0 0 0 (List.replicate 32 0) 0).wf = false ∧ (Instr.fwDeclare 0 65536 0 0 (List.replicate 32 0) 0).wf = false ∧
    (Instr.fwDeclare 0 0 65536 0 (List.replicate 32 0) 0).wf = false ∧ (Instr.fwDeclare 0 0 0 (2 ^ 32) (List.replicate 32 0) 0).wf = false ∧
    (Instr.fwDeclare 0 0 0 0 [] 0).wf = false ∧ (Instr.fwDeclare 0 0 0 0 (List.replicate 32 0) 65536).wf = false ∧
    (Instr.fwLoad (2 ^ 64) 0 0 (List.replicate 128 0)).wf = false ∧ (Instr.fwLoad 0 65536 0 (List.replicate 128 0)).wf = false ∧
    (Instr.fwLoad 0 0 65536 (List.replicate 128 0)).wf = false ∧ (Instr.fwLoad 0 0 0 []).wf = false ∧
    (Instr.fwDelete (2 ^ 64) 0).wf = false ∧ (Instr.fwDelete 0 65536).wf = false := by decide

theorem test_wf_send : (Instr.fwSend (2 ^ 64) 0 0 0 0 0 0).wf = false ∧ (Instr.fwSend 0 65536 0 0 0 0 0).wf = false ∧ (Instr.fwSend 0 0 256 0 0 0 0).wf = false ∧
    (Instr.fwSend 0 0 0 256 0 0 0).wf = false ∧ (Instr.fwSend 0 0 0 0 65536 0 0).wf = false ∧ (Instr.fwSend 0 0 0 0 0 65536 0).wf = false ∧
    (Instr.fwSend 0 0 0 0 0 0 256).wf = false := by decide

theorem test_wf_signed : (Instr.commission (2 ^ 64) (List.replicate 64 0)).wf = false ∧ (Instr.commission 0 []).wf = false ∧ (Instr.lcField 0 []).wf = false ∧
    (Instr.lcReturn 0 []).wf = false ∧ (Instr.lcScrap 0 []).wf = false ∧ (Instr.rearm 0 []).wf = false := by decide

theorem test_wf_sample : (FeSample.mk (List.replicate 7 8388607)).wf = true ∧ (Instr.feederBlockEnd [⟨[]⟩]).wf = false ∧
    (Instr.feederCycle 0 [⟨List.replicate 7 8388608⟩]).wf = false ∧ (Instr.tamperCondition 0 [⟨List.replicate 7 (-8388609)⟩]).wf = false ∧
    (Instr.settlingEnd [⟨[]⟩]).wf = false ∧ (Instr.noZc [⟨[]⟩]).wf = false := by decide

theorem test_wf_receive : (Instr.radioFrameReceive 0 0 128 false false false []).wf = false ∧ (Instr.radioFrameReceive 0 0 (-129) false false false []).wf = false ∧
    (Instr.radioFrameReceive 0 0 0 false false false (List.replicate 2048 0)).wf = false ∧ (Instr.plcFrameReceive 0 0 (List.replicate 2071 ⟨0, 0, 0, 0⟩)).wf = false ∧
    (Instr.plcShortAckReceive 0 0 []).wf = false ∧ (Instr.bridgeFrame 0 0 true (List.replicate 2049 0)).wf = false ∧
    (Instr.linkFrameReceive 0 0 (List.replicate 8213 0)).wf = false ∧ (Instr.batchSend false 256).wf = false := by decide +kernel

theorem test_wf_announce : (Instr.ptpAnnounce 0 { domain := 256, src := 0, gm := [], steps := 0, utc := none, interval := 0 }).wf = false ∧
    (Instr.ptpAnnounce 0 { domain := 0, src := 0, gm := [], steps := 65536, utc := none, interval := 0 }).wf = false := by decide

theorem test_wf_media : (Instr.holdCmd (2 ^ 128) 0 []).wf = false ∧ (Instr.holdCmd 0 65536 []).wf = false ∧ (Instr.holdCmd 0 0 (List.replicate 1501 0)).wf = false ∧
    (Instr.unitVerify 0 (2 ^ 32) 0).wf = false ∧ (Instr.unitVerify 0 0 32768).wf = false ∧ (Instr.mediaRead 0 (2 ^ 32) 0 0 false).wf = false ∧
    (Instr.mediaRead 0 0 0 32768 false).wf = false ∧ (Instr.patrolRead 32768).wf = false := by decide +kernel

theorem test_wf_recovery : (Instr.writeFw 256 0 []).wf = false ∧ (Instr.writeFw 0 (2 ^ 32) []).wf = false ∧ (Instr.writeFw 0 0 (List.replicate 4105 0)).wf = false ∧
    (Instr.writeCfg (2 ^ 32) []).wf = false ∧ (Instr.writeCfg 0 (List.replicate 4105 0)).wf = false ∧ (Instr.commitFw 256).wf = false ∧
    (Instr.lcCmd (List.replicate 4105 0)).wf = false ∧ (Instr.replay (List.replicate 4105 0)).wf = false ∧ (Instr.replayRead (2 ^ 32) 0).wf = false ∧
    (Instr.replayRead 0 65536).wf = false := by decide +kernel

/-! ### Values worked out by hand from the spec -/

/-- CRC-32 of IEEE 802.3 (R35): its published check value. -/
theorem test_crc32 : crc32 [0x31, 0x32, 0x33, 0x34, 0x35, 0x36, 0x37, 0x38, 0x39] = 0xCBF43926 := by decide +kernel

/-- The slot centres of R386: 00 first, then 01, 11, 10, 160 µs apart. -/
theorem test_plc_slots : slotCentre (slotOf false false) = -320 ∧ slotCentre (slotOf false true) = -160 ∧ slotCentre (slotOf true true) = 0 ∧
    slotCentre (slotOf true false) = 160 := by decide

/-- A short address 1 is slot 0, 0x2_0000 the last slot, and 0 and 0xFF_FFFE no slot (R149). -/
theorem test_short_slot : shortSlot 0 = none ∧ shortSlot 1 = some 0 ∧ shortSlot 0x20000 = some 0x1FFFF ∧ shortSlot 0xFFFFFE = none := by decide

/-- A rollover of a class of modulus 1000 adds modulo it, and a step back beyond it is a reversal (R192). -/
theorem test_validate : (validate { modulus := 1000, maxStep := 100 } { index := 990, valid := true } 20 1).e = 30 ∧
    (validate { modulus := 1000, maxStep := 100 } { index := 990, valid := true } 20 1).flags.rollover = true ∧
    (validate { modulus := 1000, maxStep := 100 } { index := 990, valid := true } 900 1).flags.reversal = true := by decide

/-! ### States that meet the hypotheses of the statements -/

theorem witness_EmptyQueuePassesTime :
    ∃ (s : State), s.pending = [] := by refine ⟨({ tServe with pending := [] } : State), ?_⟩ <;> first | with_reducible rfl | decide +kernel

theorem witness_StepKeepsStoredForm :
    ∃ (s : State) (t : State), s.Inv ∧ step s = .next t := by refine ⟨tServe, tNext (step tServe), ?_, ?_⟩ <;> first | with_reducible rfl | decide +kernel | (constructor <;> decide +kernel)

/-- Of the witness below. -/
def tRingCommandsMoveOnePacket_0a : Ring := ({ ({ ({ ({ ({ ({ sizeLog2 := 6, w := 3, vis := 3 } : Ring) with en := true } : Ring) with opn := .closed } : Ring) with waiting := [] } : Ring) with pend := 0 } : Ring) with held := false } : Ring)

/-- Of the witness below. -/
def tRingCommandsMoveOnePacket_1a : Ring := ({ ({ ({ ({ sizeLog2 := 6, w := 3, vis := 3 } : Ring) with en := true } : Ring) with opn := .opened (1 : Nat) (1 : Nat) false } : Ring) with byReg := (false : Bool) } : Ring)

/-- Of the witness below. -/
def tRingCommandsMoveOnePacket_2a : Ring := ({ ({ ({ ({ ({ sizeLog2 := 6, w := 3, vis := 3 } : Ring) with en := true } : Ring) with opn := .opened (1 : Nat) (1 : Nat) (true : Bool) } : Ring) with byReg := (false : Bool) } : Ring) with waiting := [] } : Ring)

theorem witness_RingCommandsMoveOnePacket :
    (∃ (p : Port) (reg : Bool) (ring : Fin 16) (s : State) (r : Ring), writesAs p ring reg ∧ s.ring ring = r ∧ r.en = true ∧ r.opn = .closed ∧ r.waiting = [] ∧ r.pend = 0 ∧ r.held = false ∧ 0 < r.freeWords) ∧
    (∃ (p : Port) (reg : Bool) (ring : Fin 16) (v : Word) (s : State) (r : Ring) (pos : Nat) (k : Nat), writesAs p ring reg ∧ s.Inv ∧ s.ring ring = r ∧ r.en = true ∧ r.opn = .opened pos k false ∧ r.byReg = reg ∧ (∀ o ∈ r.waiting.head?, o.1 ≠ reg) ∧ k + 2 ≤ r.size - 1 ∧ 0 < r.freeWords) ∧
    (∃ (p : Port) (reg : Bool) (ring : Fin 16) (v : Word) (s : State) (r : Ring) (pos : Nat) (k : Nat) (cut : Bool), writesAs p ring reg ∧ s.Inv ∧ s.ring ring = r ∧ r.en = true ∧ r.opn = .opened pos k cut ∧ r.byReg = reg ∧ r.waiting = []) ∧
    (∃ (ring : Fin 16) (s : State) (r : Ring), s.ring ring = r ∧ r.en = true ∧ r.r < r.vis) ∧
    (∃ (ring : Fin 16) (s : State) (r : Ring), s.ring ring = r ∧ r.en = true ∧ 0 < r.remain) := ⟨by refine ⟨(.owner : Port), (false : Bool), (0 : Fin 16), ((tServe.setRing (0 : Fin 16) tRingCommandsMoveOnePacket_0a) : State), tRingCommandsMoveOnePacket_0a, ?_, ?_, ?_, ?_, ?_, ?_, ?_, ?_⟩ <;> first | with_reducible rfl | decide +kernel | (constructor <;> decide +kernel),
    by refine ⟨(.owner : Port), (false : Bool), (0 : Fin 16), (0 : Word), ((tServe.setRing (0 : Fin 16) tRingCommandsMoveOnePacket_1a) : State), tRingCommandsMoveOnePacket_1a, (1 : Nat), (1 : Nat), ?_, ?_, ?_, ?_, ?_, ?_, ?_, ?_, ?_⟩ <;> first | with_reducible rfl | decide +kernel | (constructor <;> decide +kernel),
    by refine ⟨(.owner : Port), (false : Bool), (0 : Fin 16), (0x1234 : Word), ((tServe.setRing (0 : Fin 16) tRingCommandsMoveOnePacket_2a) : State), tRingCommandsMoveOnePacket_2a, (1 : Nat), (1 : Nat), (true : Bool), ?_, ?_, ?_, ?_, ?_, ?_, ?_⟩ <;> first | with_reducible rfl | decide +kernel | (constructor <;> decide +kernel),
    by refine ⟨(0 : Fin 16), ((tServe.setRing (0 : Fin 16) ({ ({ sizeLog2 := 6, w := 3, vis := 3 } : Ring) with en := true } : Ring)) : State), ({ ({ sizeLog2 := 6, w := 3, vis := 3 } : Ring) with en := true } : Ring), ?_, ?_, ?_⟩ <;> first | with_reducible rfl | decide +kernel,
    by refine ⟨(0 : Fin 16), ((tServe.setRing (0 : Fin 16) ({ ({ ({ sizeLog2 := 6, w := 3, vis := 3 } : Ring) with en := true } : Ring) with remain := 1 } : Ring)) : State), ({ ({ ({ sizeLog2 := 6, w := 3, vis := 3 } : Ring) with en := true } : Ring) with remain := 1 } : Ring), ?_, ?_, ?_⟩ <;> first | with_reducible rfl | decide +kernel⟩

/-- Of the witness below. -/
def tFullRingDropsOrStalls_0a : Ring := ({ ({ ({ ({ ({ sizeLog2 := 6, w := 3, vis := 3 } : Ring) with en := true } : Ring) with opn := .closed } : Ring) with waiting := [] } : Ring) with held := true } : Ring)

/-- Of the witness below. -/
def tFullRingDropsOrStalls_1a : Ring := ({ ({ ({ ({ sizeLog2 := 6, w := 3, vis := 3 } : Ring) with en := true } : Ring) with opn := .dropped } : Ring) with byReg := (false : Bool) } : Ring)

/-- Of the witness below. -/
def tFullRingDropsOrStalls_2a : Ring := ({ ({ ({ ({ sizeLog2 := 6, w := 3, vis := 3 } : Ring) with en := true } : Ring) with opn := .opened (1 : Nat) (1 : Nat) (true : Bool) } : Ring) with byReg := (false : Bool) } : Ring)

/-- Of the witness below. -/
def tFullRingDropsOrStalls_3a : Ring := ({ ({ ({ ({ sizeLog2 := 6, w := 64 } : Ring) with en := true } : Ring) with waiting := [] } : Ring) with opn := .closed } : Ring)

/-- Of the witness below. -/
def tFullRingDropsOrStalls_4a : Ring := ({ ({ ({ ({ ({ sizeLog2 := 6, w := 64 } : Ring) with en := true } : Ring) with opn := .opened (1 : Nat) (1 : Nat) (true : Bool) } : Ring) with byReg := (false : Bool) } : Ring) with waiting := [] } : Ring)

/-- Of the witness below. -/
def tFullRingDropsOrStalls_5a : Ring := ({ ({ ({ ({ ({ sizeLog2 := 6, w := 3, vis := 3 } : Ring) with en := true } : Ring) with pend := 1 } : Ring) with opn := .closed } : Ring) with held := false } : Ring)

theorem witness_FullRingDropsOrStalls_1 :
    (∃ (p : Port) (reg : Bool) (ring : Fin 16) (s : State) (r : Ring), writesAs p ring reg ∧ s.ring ring = r ∧ ringDrops ring = true ∧ r.en = true ∧ r.opn = .closed ∧ r.waiting = [] ∧ (r.held = true ∨ r.freeWords = 0)) ∧
    (∃ (p : Port) (reg : Bool) (ring : Fin 16) (v : Word) (s : State) (r : Ring), writesAs p ring reg ∧ s.ring ring = r ∧ r.en = true ∧ r.opn = .dropped ∧ r.byReg = reg ∧ (∀ o ∈ r.waiting.head?, o.1 ≠ reg)) ∧
    (∃ (p : Port) (reg : Bool) (ring : Fin 16) (v : Word) (s : State) (r : Ring) (pos : Nat) (k : Nat) (cut : Bool), writesAs p ring reg ∧ s.ring ring = r ∧ ringDrops ring = true ∧ r.en = true ∧ r.opn = .opened pos k cut ∧ r.byReg = reg ∧ (∀ o ∈ r.waiting.head?, o.1 ≠ reg) ∧ (cut = true ∨ r.freeWords = 0 ∨ r.size - 1 < k + 2)) ∧
    (∃ (p : Port) (reg : Bool) (ring : Fin 16) (s : State) (r : Ring), writesAs p ring reg ∧ s.ring ring = r ∧ ringDrops ring = false ∧ r.en = true ∧ r.waiting = [] ∧ (r.opn = .closed ∧ r.freeWords = 0 ∨ r.opn ≠ .closed ∧ r.byReg ≠ reg)) ∧
    (∃ (p : Port) (reg : Bool) (ring : Fin 16) (v : Word) (s : State) (r : Ring) (pos : Nat) (k : Nat) (cut : Bool), writesAs p ring reg ∧ s.ring ring = r ∧ ringDrops ring = false ∧ r.en = true ∧ r.opn = .opened pos k cut ∧ r.byReg = reg ∧ r.waiting = [] ∧ k + 2 ≤ r.size - 1 ∧ r.freeWords = 0) ∧
    (∃ (ring : Fin 16) (s : State) (r : Ring), s.Inv ∧ s.ring ring = r ∧ ringDrops ring = true ∧ r.en = true ∧ 0 < r.pend ∧ r.opn = .closed ∧ 0 < r.freeWords ∧ r.held = false) := ⟨by refine ⟨(.owner : Port), (false : Bool), (1 : Fin 16), ((tServe.setRing (1 : Fin 16) tFullRingDropsOrStalls_0a) : State), tFullRingDropsOrStalls_0a, ?_, ?_, ?_, ?_, ?_, ?_, ?_⟩ <;> first | with_reducible rfl | decide +kernel | (constructor <;> decide +kernel),
    by refine ⟨(.owner : Port), (false : Bool), (0 : Fin 16), (0x1234 : Word), ((tServe.setRing (0 : Fin 16) tFullRingDropsOrStalls_1a) : State), tFullRingDropsOrStalls_1a, ?_, ?_, ?_, ?_, ?_, ?_⟩ <;> first | with_reducible rfl | decide +kernel | (constructor <;> decide +kernel),
    by refine ⟨(.owner : Port), (false : Bool), (1 : Fin 16), (0 : Word), ((tServe.setRing (1 : Fin 16) tFullRingDropsOrStalls_2a) : State), tFullRingDropsOrStalls_2a, (1 : Nat), (1 : Nat), (true : Bool), ?_, ?_, ?_, ?_, ?_, ?_, ?_, ?_⟩ <;> first | with_reducible rfl | decide +kernel | (constructor <;> decide +kernel),
    by refine ⟨(.owner : Port), (false : Bool), (0 : Fin 16), ((tServe.setRing (0 : Fin 16) tFullRingDropsOrStalls_3a) : State), tFullRingDropsOrStalls_3a, ?_, ?_, ?_, ?_, ?_, ?_⟩ <;> first | with_reducible rfl | decide +kernel | (constructor <;> decide +kernel),
    by refine ⟨(.owner : Port), (false : Bool), (0 : Fin 16), (0 : Word), ((tServe.setRing (0 : Fin 16) tFullRingDropsOrStalls_4a) : State), tFullRingDropsOrStalls_4a, (1 : Nat), (1 : Nat), (true : Bool), ?_, ?_, ?_, ?_, ?_, ?_, ?_, ?_, ?_⟩ <;> first | with_reducible rfl | decide +kernel | (constructor <;> decide +kernel),
    by refine ⟨(1 : Fin 16), ((tServe.setRing (1 : Fin 16) tFullRingDropsOrStalls_5a) : State), tFullRingDropsOrStalls_5a, ?_, ?_, ?_, ?_, ?_, ?_, ?_, ?_⟩ <;> first | with_reducible rfl | decide +kernel | (unfold State.Inv; decide +kernel)⟩

/-- Of the witness below. -/
def tFullRingDropsOrStalls_7a : State := ((((((tServe.ringPacket 3 1 [0, 0]) : State).setFld (rQfStale (3 : Fin 16)) 23 0 1) : State).setRing (3 : Fin 16) { ((((tServe.ringPacket 3 1 [0, 0]) : State).setFld (rQfStale (3 : Fin 16)) 23 0 1) : State).ring (3 : Fin 16) with staleFired := false }) : State)

theorem witness_FullRingDropsOrStalls_2 :
    (∃ (ring : Fin 16) (s : State) (s1 : State), s.Inv ∧ s.fld (rQfStale ring) 23 0 ≠ 0 ∧ 0 < (s.ring ring).cnt ∧ (s.ring ring).staleFired = false ∧ s1 = s.until ((s.ring ring).staleT + usU (s.fld (rQfStale ring) 23 0))) ∧
    (∃ (ring : Fin 16) (s : State), (s.fld (rQfStale ring) 23 0 = 0 ∨ (s.ring ring).cnt = 0 ∨ (s.ring ring).staleFired = true)) := ⟨by refine ⟨(3 : Fin 16), tFullRingDropsOrStalls_7a, (tFullRingDropsOrStalls_7a.until ((tFullRingDropsOrStalls_7a.ring (3 : Fin 16)).staleT + usU (tFullRingDropsOrStalls_7a.fld (rQfStale (3 : Fin 16)) 23 0)) : State), ?_, ?_, ?_, ?_, ?_⟩ <;> first | with_reducible rfl | decide +kernel | (unfold State.Inv; decide +kernel),
    by refine ⟨(0 : Fin 16), ((tServe.setFld (rQfStale (0 : Fin 16)) 23 0 (0)) : State), ?_⟩ <;> first | with_reducible rfl | decide +kernel⟩

theorem witness_EmptyRingReadsIdle :
    ∃ (ring : Fin 16) (s : State), ((s.ring ring).en = false ∨ (s.ring ring).vis ≤ (s.ring ring).r) := by refine ⟨(0 : Fin 16), ((tServe.setRing (0 : Fin 16) { tServe.ring (0 : Fin 16) with en := false }) : State), ?_⟩ <;> first | with_reducible rfl | decide +kernel

theorem witness_RingRegisterRights :
    (∃ (w : Who) (ring : Fin 16) (v : Word) (s : State), w ≠ .dev) ∧
    (∃ (w : Who) (ring : Fin 16) (v : Word) (s : State), w = .dev ∧ ringByGrains ring = false) ∧
    (∃ (w : Who) (ring : Fin 16) (v : Word) (s : State), w = .dev) := ⟨by refine ⟨(.seif : Who), (0 : Fin 16), (0x1234 : Word), tServe, ?_⟩ <;> first | with_reducible rfl | decide +kernel,
    by refine ⟨(.dev : Who), (0 : Fin 16), (0x1234 : Word), tServe, ?_, ?_⟩ <;> first | with_reducible rfl | decide +kernel,
    by refine ⟨(.dev : Who), (0 : Fin 16), (0x1234 : Word), tServe, ?_⟩ <;> first | with_reducible rfl | decide +kernel⟩

theorem witness_JournalingAddsOneEntry :
    (∃ (s : State) (t : State) (kind : Kind) (cls : EClass) (src : Src) (stamp : Nat) (flags : EFlags) (payload : Bytes) (e : Entry), s.Inv ∧ t = s.append kind cls src stamp flags payload ∧ e = { kind := kind, cls := cls, jsn := s.seq.nextJsn, stamp := stamp, src := { src with origin := s.seq.pos }, flags := flags, payload := payload } ∧ (s.triad = false ∨ s.sef.driver = false)) ∧
    (∃ (s : State) (t : State) (kind : Kind) (cls : EClass) (src : Src) (stamp : Nat) (flags : EFlags) (payload : Bytes) (e : Entry), s.Inv ∧ t = s.append kind cls src stamp flags payload ∧ e = { kind := kind, cls := cls, jsn := s.seq.nextJsn, stamp := stamp, src := { src with origin := s.seq.pos }, flags := flags, payload := payload } ∧ (∀ o ∈ (s.ring 12).waiting, o.1 = false)) := ⟨by refine ⟨tServe, (tServe.append (.radFrame : Kind) (.normal : EClass) ({} : Src) (1 : Nat) ({} : EFlags) ([1, 2, 3] : Bytes) : State), (.radFrame : Kind), (.normal : EClass), ({} : Src), (1 : Nat), ({} : EFlags), ([1, 2, 3] : Bytes), ({ kind := (.radFrame : Kind), cls := (.normal : EClass), jsn := tServe.seq.nextJsn, stamp := (1 : Nat), src := { ({} : Src) with origin := tServe.seq.pos }, flags := ({} : EFlags), payload := ([1, 2, 3] : Bytes) } : Entry), ?_, ?_, ?_, ?_⟩ <;> first | with_reducible rfl | decide +kernel | (unfold State.Inv; decide +kernel),
    by refine ⟨tServe, (tServe.append (.radFrame : Kind) (.normal : EClass) ({} : Src) (1 : Nat) ({} : EFlags) ([1, 2, 3] : Bytes) : State), (.radFrame : Kind), (.normal : EClass), ({} : Src), (1 : Nat), ({} : EFlags), ([1, 2, 3] : Bytes), ({ kind := (.radFrame : Kind), cls := (.normal : EClass), jsn := tServe.seq.nextJsn, stamp := (1 : Nat), src := { ({} : Src) with origin := tServe.seq.pos }, flags := ({} : EFlags), payload := ([1, 2, 3] : Bytes) } : Entry), ?_, ?_, ?_, ?_⟩ <;> first | with_reducible rfl | decide +kernel | (unfold State.Inv; decide +kernel)⟩

theorem witness_EventTouchesQ14Only :
    (∃ (s : State) (t : State) (cls : Nat) (arg : Nat) (slot : Option Nat) (data : Bytes), s.Inv ∧ t = s.event cls arg slot data ∧ (s.ring 14).en = false) ∧
    (∃ (s : State) (t : State) (cls : Nat) (arg : Nat) (slot : Option Nat) (data : Bytes), s.Inv ∧ t = s.event cls arg slot data ∧ (∀ o ∈ (s.ring 14).waiting, o.1 = false)) := ⟨by refine ⟨((tServe.setRing 14 { tServe.ring 14 with en := false }) : State), (((tServe.setRing 14 { tServe.ring 14 with en := false }) : State).event (1 : Nat) (1 : Nat) (none : Option Nat) ([1, 2, 3] : Bytes) : State), (1 : Nat), (1 : Nat), (none : Option Nat), ([1, 2, 3] : Bytes), ?_, ?_, ?_⟩ <;> first | with_reducible rfl | decide +kernel | (unfold State.Inv; decide +kernel),
    by refine ⟨tServe, (tServe.event (1 : Nat) (1 : Nat) (none : Option Nat) ([1, 2, 3] : Bytes) : State), (1 : Nat), (1 : Nat), (none : Option Nat), ([1, 2, 3] : Bytes), ?_, ?_, ?_⟩ <;> first | with_reducible rfl | decide +kernel | (unfold State.Inv; decide +kernel)⟩

/-- Of the witness below. -/
def tRingDeliversPacket_a : State := ((tServe.setRing (0 : Fin 16) ({ ({ ({ ({ ({ ({ ({ sizeLog2 := 6 } : Ring) with en := true } : Ring) with opn := .closed } : Ring) with pend := 0 } : Ring) with held := false } : Ring) with waiting := [] } : Ring) with remain := 0 } : Ring)) : State)

theorem witness_RingDeliversPacket :
    ∃ (n : Fin 16) (s : State) (t : State) (r : Ring) (ps : List (Nat × List Word)), s.Inv ∧ s.ring n = r ∧ r.en = true ∧ r.opn = .closed ∧ r.pend = 0 ∧ r.held = false ∧ r.waiting = [] ∧ r.remain = 0 ∧ r.vis = r.w ∧ r.r = r.w ∧ (∀ p ∈ ps, p.2.length + 2 ≤ r.size ∧ p.2.length < 65536) ∧ (ps.map fun p => p.2.length + 1).foldl (· + ·) 0 ≤ r.size ∧ t = ps.foldl (fun a p => a.ringPacket n p.1 p.2) s := by refine ⟨(0 : Fin 16), tRingDeliversPacket_a, (([] : List (Nat × List Word)).foldl (fun a p => a.ringPacket (0 : Fin 16) p.1 p.2) tRingDeliversPacket_a : State), ({ ({ ({ ({ ({ ({ ({ sizeLog2 := 6 } : Ring) with en := true } : Ring) with opn := .closed } : Ring) with pend := 0 } : Ring) with held := false } : Ring) with waiting := [] } : Ring) with remain := 0 } : Ring), ([] : List (Nat × List Word)), ?_, ?_, ?_, ?_, ?_, ?_, ?_, ?_, ?_, ?_, ?_, ?_, ?_⟩ <;> first | with_reducible rfl | decide +kernel | (unfold State.Inv; decide +kernel)

/-- Of the witness below. -/
def tInputBecomesEntry_1a : State := ({ ((tServe.ringPacket (0 : Fin 16) (1 : Nat) ([0, 0, 0, 0] : List Word)) : State) with seq.hold := some ({ T := 0, endAt := 0 } : Hold) } : State)

theorem witness_InputBecomesEntry :
    (∃ (ring : Fin 16) (s : State) (u : State) (cut : Bool) (k : Kind) (ty : Nat) (ws : List Word) (i : Input), s.takesFrom ring = true ∧ s.seq.hold = none ∧ s.ringPeek ring = .packet cut ty ws ∧ u = (s.ringTake ring).2 ∧ ty < 256 ∧ Kind.ofCode ty = some k ∧ ws.length < 65536 ∧ i = Input.ofWords k ws) ∧
    (∃ (ring : Fin 16) (s : State) (u : State) (h : Hold) (cut : Bool) (ty : Nat) (ws : List Word) (x : HeldIn), s.takesFrom ring = true ∧ s.ringPeek ring = .packet cut ty ws ∧ u = (s.ringTake ring).2 ∧ s.seq.hold = some h ∧ ty < 256 ∧ ty ≠ 0x20 ∧ ws.length < 65536 ∧ x = { ring := ring, stamp := (ws.getD 0 0).toNat + (ws.getD 1 0).toNat * 4294967296, pkt := lengthWord cut ty ws.length :: ws } ∧ isHoldEnd (lengthWord cut ty ws.length) ws = false ∧ h.T ≤ x.stamp ∧ h.words + ws.length + 1 ≤ 442368) := ⟨by refine ⟨(0 : Fin 16), ((({ tServe with seq.hold := none } : State).ringPacket (0 : Fin 16) (1 : Nat) ([0, 0, 0, 0] : List Word)) : State), ((((({ tServe with seq.hold := none } : State).ringPacket (0 : Fin 16) (1 : Nat) ([0, 0, 0, 0] : List Word)) : State).ringTake (0 : Fin 16)).2 : State), (false : Bool), ((Kind.ofCode (1 : Nat)).getD .radFrame : Kind), (1 : Nat), ([0, 0, 0, 0] : List Word), (Input.ofWords ((Kind.ofCode (1 : Nat)).getD .radFrame : Kind) ([0, 0, 0, 0] : List Word) : Input), ?_, ?_, ?_, ?_, ?_, ?_, ?_, ?_⟩ <;> first | with_reducible rfl | decide +kernel,
    by refine ⟨(0 : Fin 16), tInputBecomesEntry_1a, ((tInputBecomesEntry_1a.ringTake (0 : Fin 16)).2 : State), ({ T := 0, endAt := 0 } : Hold), (false : Bool), (1 : Nat), ([0, 0, 0, 0] : List Word), ({ ring := (0 : Fin 16), stamp := (([0, 0, 0, 0] : List Word).getD 0 0).toNat + (([0, 0, 0, 0] : List Word).getD 1 0).toNat * 4294967296, pkt := lengthWord (false : Bool) (1 : Nat) ([0, 0, 0, 0] : List Word).length :: ([0, 0, 0, 0] : List Word) } : HeldIn), ?_, ?_, ?_, ?_, ?_, ?_, ?_, ?_, ?_, ?_, ?_⟩ <;> first | with_reducible rfl | decide +kernel⟩

theorem witness_MarkerBecomesRingLoss :
    ∃ (ring : Fin 16) (s : State) (u : State) (d : Nat), s.Inv ∧ s.takesFrom ring = true ∧ s.ringPeek ring = .marker d ∧ u = (s.ringTake ring).2 := by refine ⟨(1 : Fin 16), (((tServe.setRing (1 : Fin 16) { tServe.ring (1 : Fin 16) with pend := (1 : Nat) }).wadi (1 : Fin 16)) : State), (((((tServe.setRing (1 : Fin 16) { tServe.ring (1 : Fin 16) with pend := (1 : Nat) }).wadi (1 : Fin 16)) : State).ringTake (1 : Fin 16)).2 : State), (1 : Nat), ?_, ?_, ?_, ?_⟩ <;> first | with_reducible rfl | decide +kernel | (unfold State.Inv; decide +kernel)

/-- Of the witness below. -/
def tBoundaryHoldStartsAndEnds_0_0a : State := ({ ({ ({ ({ ({ ((({ tServe with ctx.closeNow := some { jsn := 1, instant := some (1003 * 268435456) }, seq.bndBase := 1000 * 268435456 } : State).setBit rJsqCtl 0 true) : State) with seq.holder := true } : State) with seq.hold := none } : State) with seq.unsure := false } : State) with seq.regressed := false } : State) with seq.khamsin := false } : State)

/-- Of the witness below. -/
def tBoundaryHoldStartsAndEnds_0_1a : State := ({ ({ ({ ({ ({ ((({ tServe with ctx.closeNow := some { jsn := 1, instant := some (1003 * 268435456) }, seq.bndBase := 1000 * 268435456 } : State).setBit rJsqCtl 0 true) : State) with seq.holder := true } : State) with seq.hold := none } : State) with seq.unsure := false } : State) with seq.regressed := false } : State) with seq.khamsin := true } : State)

/-- Of the witness below. -/
def tBoundaryHoldStartsAndEnds_1a : State := (({ tServe with seq.hold := some ({ T := 0, endAt := 0 } : Hold) } : State).until ({ T := 0, endAt := 0 } : Hold).endAt : State)

theorem witness_BoundaryHoldStartsAndEnds :
    (∃ (s : State) (s1 : State) (x : Nat), s.bitOf rJsqCtl 0 = true ∧ s.seq.holder = true ∧ s.seq.hold = none ∧ s.seq.unsure = false ∧ s.seq.regressed = false ∧ s.nextBoundarySec = some x ∧ s1 = s.untilDev (x * second) ∧ s.seq.khamsin = false ∧ s1.fld rJsqBhold 15 0 ≠ 0) ∧
    (∃ (s : State) (s1 : State) (x : Nat), s.bitOf rJsqCtl 0 = true ∧ s.seq.holder = true ∧ s.seq.hold = none ∧ s.seq.unsure = false ∧ s.seq.regressed = false ∧ s.nextBoundarySec = some x ∧ s1 = s.untilDev (x * second) ∧ (s.seq.khamsin = true ∨ s1.fld rJsqBhold 15 0 = 0)) ∧
    (∃ (s : State) (s1 : State) (u : State) (h : Hold), s.seq.hold = some h ∧ s1 = s.until h.endAt ∧ s1.seq.unsure = false ∧ s1.seq.regressed = false ∧ u = ({ s1 with seq := { s1.seq with hold := none } } : State).journalBoundaries h.T false) ∧
    (∃ (s : State) (T : Nat) (held : Bool) (k : Kind) (subj : Nat), k ≠ .bndPeriod) ∧
    (∃ (s : State) (T : Nat) (held : Bool) (k : Kind) (subj : Nat), s.ctx.nextPer - s.ctx.epoch < 2) ∧
    (∃ (s : State) (T : Nat) (held : Bool) (k : Kind) (subj : Nat), 2 ≤ s.ctx.nextPer - s.ctx.epoch) := ⟨by refine ⟨tBoundaryHoldStartsAndEnds_0_0a, (tBoundaryHoldStartsAndEnds_0_0a.untilDev (((tBoundaryHoldStartsAndEnds_0_0a.nextBoundarySec).getD 0 : Nat) * second) : State), ((tBoundaryHoldStartsAndEnds_0_0a.nextBoundarySec).getD 0 : Nat), ?_, ?_, ?_, ?_, ?_, ?_, ?_, ?_, ?_⟩ <;> first | with_reducible rfl | decide +kernel,
    by refine ⟨tBoundaryHoldStartsAndEnds_0_1a, (tBoundaryHoldStartsAndEnds_0_1a.untilDev (((tBoundaryHoldStartsAndEnds_0_1a.nextBoundarySec).getD 0 : Nat) * second) : State), ((tBoundaryHoldStartsAndEnds_0_1a.nextBoundarySec).getD 0 : Nat), ?_, ?_, ?_, ?_, ?_, ?_, ?_, ?_⟩ <;> first | with_reducible rfl | decide +kernel,
    by refine ⟨({ tServe with seq.hold := some ({ T := 0, endAt := 0 } : Hold) } : State), tBoundaryHoldStartsAndEnds_1a, (({ tBoundaryHoldStartsAndEnds_1a with seq := { tBoundaryHoldStartsAndEnds_1a.seq with hold := none } } : State).journalBoundaries ({ T := 0, endAt := 0 } : Hold).T false : State), ({ T := 0, endAt := 0 } : Hold), ?_, ?_, ?_, ?_, ?_⟩ <;> first | with_reducible rfl | decide +kernel,
    by refine ⟨tServe, (1 : Nat), (true : Bool), (.radFrame : Kind), (1 : Nat), ?_⟩ <;> first | with_reducible rfl | decide +kernel,
    by refine ⟨tServe, (1 : Nat), (true : Bool), (.radFrame : Kind), (1 : Nat), ?_⟩ <;> first | with_reducible rfl | decide +kernel,
    by refine ⟨({ tServe with ctx.nextPer := 3, ctx.epoch := 1 } : State), (1 : Nat), (true : Bool), (.radFrame : Kind), (1 : Nat), ?_⟩ <;> first | with_reducible rfl | decide +kernel⟩

theorem witness_DrawIsJournaledWrapped :
    ∃ (k : Key) (s : State) (tag : Nat) (n : Nat) (src : Src), s.waitsFor k = some (.draw tag n) ∧ s.drawsServed = true ∧ s.seqTakes = true ∧ s.Inv ∧ src = (if bits 30 24 tag = 0x42 then { slot := bits 16 0 tag, slotV := true } else {}) := by refine ⟨((.sys 6) : Key), ({ tServe with erg.keys := [{ key := .sys 6, owner := 0, tasks := [{ jsn := 8, key := .sys 6, entry := { kind := .mgmtCmd, jsn := 8, stamp := 5, payload := mgmtPayload 0 (cmdBytes 0x11 0 []) }, phase := .committing }] }] } : State), (0xC4000000 : Nat), (40 : Nat), ((if bits 30 24 (0xC4000000 : Nat) = 0x42 then { slot := bits 16 0 (0xC4000000 : Nat), slotV := true } else {}) : Src), ?_, ?_, ?_, ?_, ?_⟩ <;> first | with_reducible rfl | decide +kernel | (unfold State.Inv; decide +kernel)

/-- Of the witness below. -/
def tCheckpointIsCut_0a : State := ({ ({ ({ tServe with seq.khamsin := false } : State) with seq.ckptReq := true } : State) with seq := { ({ ({ tServe with seq.khamsin := false } : State) with seq.ckptReq := true } : State).seq with ckptNo := ({ ({ tServe with seq.khamsin := false } : State) with seq.ckptReq := true } : State).seq.ckptNo + 1, ckptReq := false, ckptBusy := ({ ({ tServe with seq.khamsin := false } : State) with seq.ckptReq := true } : State).seq.ckptBusy ++ [({ ({ tServe with seq.khamsin := false } : State) with seq.ckptReq := true } : State).ckptHere (({ ({ tServe with seq.khamsin := false } : State) with seq.ckptReq := true } : State).seq.ckptNo + 1) ({ ({ tServe with seq.khamsin := false } : State) with seq.ckptReq := true } : State).dev] } } : State)

/-- Of the witness below. -/
def tCheckpointIsCut_1a : State := ({ ({ ({ tServe with seq.khamsin := false } : State) with seq.ckptReq := false } : State) with seq.lastCkpt := some ((1 : Nat), (1 : Nat)) } : State)

/-- Of the witness below. -/
def tCheckpointIsCut_1b : State := ({ (tCheckpointIsCut_1a.untilDev ((1 : Nat) + 21600 * second) : State) with seq := { (tCheckpointIsCut_1a.untilDev ((1 : Nat) + 21600 * second) : State).seq with ckptNo := (tCheckpointIsCut_1a.untilDev ((1 : Nat) + 21600 * second) : State).seq.ckptNo + 1, ckptReq := false, ckptBusy := (tCheckpointIsCut_1a.untilDev ((1 : Nat) + 21600 * second) : State).seq.ckptBusy ++ [(tCheckpointIsCut_1a.untilDev ((1 : Nat) + 21600 * second) : State).ckptHere ((tCheckpointIsCut_1a.untilDev ((1 : Nat) + 21600 * second) : State).seq.ckptNo + 1) (tCheckpointIsCut_1a.untilDev ((1 : Nat) + 21600 * second) : State).dev] } } : State)

theorem witness_CheckpointIsCut :
    (∃ (s : State) (u : State), s.seqTakes = true ∧ s.seq.khamsin = false ∧ (s.seq.ckptReq = true ∨ (∃ j st, s.seq.lastCkpt = some (j, st) ∧ j + 1048576 < s.seq.nextJsn)) ∧ u = { s with seq := { s.seq with ckptNo := s.seq.ckptNo + 1, ckptReq := false, ckptBusy := s.seq.ckptBusy ++ [s.ckptHere (s.seq.ckptNo + 1) s.dev] } }) ∧
    (∃ (s : State) (s1 : State) (u : State) (j : Nat) (st : Nat), s.seqTakes = true ∧ s.seq.khamsin = false ∧ s.seq.ckptReq = false ∧ s.seq.lastCkpt = some (j, st) ∧ s.seq.nextJsn ≤ j + 1048576 ∧ s1 = s.untilDev (st + 21600 * second) ∧ u = { s1 with seq := { s1.seq with ckptNo := s1.seq.ckptNo + 1, ckptReq := false, ckptBusy := s1.seq.ckptBusy ++ [s1.ckptHere (s1.seq.ckptNo + 1) s1.dev] } }) ∧
    (∃ (w : Who) (s : State), w ≠ .dev) := ⟨by refine ⟨({ ({ tServe with seq.khamsin := false } : State) with seq.ckptReq := true } : State), tCheckpointIsCut_0a, ?_, ?_, ?_, ?_⟩ <;> first | with_reducible rfl | decide +kernel | (constructor <;> decide +kernel),
    by refine ⟨tCheckpointIsCut_1a, (tCheckpointIsCut_1a.untilDev ((1 : Nat) + 21600 * second) : State), tCheckpointIsCut_1b, (1 : Nat), (1 : Nat), ?_, ?_, ?_, ?_, ?_, ?_, ?_⟩ <;> first | with_reducible rfl | decide +kernel,
    by refine ⟨(.seif : Who), tServe, ?_⟩ <;> first | with_reducible rfl | decide +kernel⟩

theorem witness_CheckpointBecomesValid :
    (∃ (s : State) (k : Ckpt) (r : List Ckpt), s.Inv ∧ s.seq.ckptBusy = k :: r) ∧
    (∃ (s : State) (k : Ckpt) (r : List Ckpt), s.Inv ∧ s.seq.ckptBusy = k :: r ∧ s.ckptReady k = true ∧ s.boot.carry = false ∧ s.boot.trial = false) ∧
    (∃ (s : State) (k : Ckpt) (r : List Ckpt), s.seq.ckptBusy = k :: r ∧ s.ckptReady k = true ∧ s.boot.carry = true) ∧
    (∃ (s : State) (s1 : State), s.Inv ∧ s.seq.durable + 1 < s.seq.nextJsn ∧ s.seq.stallFired = false ∧ s1 = s.until (s.seq.lastDur + max 1 (s.fld rJsqDurstall 15 0) * 268435456 / 1000)) ∧
    (∃ (s : State), (s.seq.nextJsn ≤ s.seq.durable + 1 ∨ s.seq.stallFired = true)) := ⟨by refine ⟨({ tServe with seq.ckptBusy := ({ no := 0, cutJsn := 0, cutStamp := 0, role := .none, cfgHash := [], svn := 0, closeNext := none, ctx := {} } : Ckpt) :: ([] : List Ckpt) } : State), ({ no := 0, cutJsn := 0, cutStamp := 0, role := .none, cfgHash := [], svn := 0, closeNext := none, ctx := {} } : Ckpt), ([] : List Ckpt), ?_, ?_⟩ <;> first | with_reducible rfl | decide +kernel | (unfold State.Inv; decide +kernel),
    by refine ⟨({ ({ ({ tServe with seq.ckptBusy := ({ no := 0, cutJsn := 0, cutStamp := 0, role := .none, cfgHash := [], svn := 0, closeNext := none, ctx := {} } : Ckpt) :: ([] : List Ckpt) } : State) with boot.carry := false } : State) with boot.trial := false } : State), ({ no := 0, cutJsn := 0, cutStamp := 0, role := .none, cfgHash := [], svn := 0, closeNext := none, ctx := {} } : Ckpt), ([] : List Ckpt), ?_, ?_, ?_, ?_, ?_⟩ <;> first | with_reducible rfl | decide +kernel | (unfold State.Inv; decide +kernel),
    by refine ⟨({ ({ tServe with seq.ckptBusy := ({ no := 0, cutJsn := 0, cutStamp := 0, role := .none, cfgHash := [], svn := 0, closeNext := none, ctx := {} } : Ckpt) :: ([] : List Ckpt) } : State) with boot.carry := true } : State), ({ no := 0, cutJsn := 0, cutStamp := 0, role := .none, cfgHash := [], svn := 0, closeNext := none, ctx := {} } : Ckpt), ([] : List Ckpt), ?_, ?_, ?_⟩ <;> first | with_reducible rfl | decide +kernel,
    by refine ⟨({ tServe with seq.stallFired := false } : State), (({ tServe with seq.stallFired := false } : State).until (({ tServe with seq.stallFired := false } : State).seq.lastDur + max 1 (({ tServe with seq.stallFired := false } : State).fld rJsqDurstall 15 0) * 268435456 / 1000) : State), ?_, ?_, ?_, ?_⟩ <;> first | with_reducible rfl | decide +kernel | (unfold State.Inv; decide +kernel),
    by refine ⟨tRec, ?_⟩ <;> first | with_reducible rfl | decide +kernel⟩

theorem witness_SyncSteersRateOnly_1 :
    (∃ (dt : Nat) (src : Nat) (port : Fin 3) (origin : Int) (s : State) (s1 : State), s1 = (s.advance dt).selectMaster ∧ s1.tim.master ≠ some src) ∧
    (∃ (s : State), s.Inv ∧ (s.tim.servo = .acquire ∨ s.tim.servo = .locked)) ∧
    (∃ (dt : Nat) (m : AnnounceMsg) (s : State) (s1 : State), s1 = s.advance dt ∧ s.bitOf rTimCtl 1 = true ∧ m.domain = s.fld rTimCtl 14 8 ∧ m.steps < 255) ∧
    (∃ (dt : Nat) (m : AnnounceMsg) (s : State) (s1 : State), s1 = s.advance dt ∧ (s.bitOf rTimCtl 1 = false ∨ m.domain ≠ s.fld rTimCtl 14 8 ∨ 255 ≤ m.steps)) ∧
    (∃ (dt : Nat) (t1 : Int) (t2 : Int) (t3 : Int) (t4 : Int) (s : State) (s1 : State), s1 = s.advance dt ∧ s.bitOf rTimCtl 1 = true ∧ s.bitOf rTimCtl 3 = false ∧ s.sef.driver = true) ∧
    (∃ (dt : Nat) (port : Fin 3) (t1 : Int) (t2 : Int) (t3 : Int) (t4 : Int) (s : State) (s1 : State), s1 = s.advance dt ∧ port.val ≠ 2 ∧ s.bitOf rTimCtl 3 = true) := ⟨by refine ⟨(1 : Nat), (1 : Nat), (0 : Fin 3), (5 : Int), tServe, ((tServe.advance (1 : Nat)).selectMaster : State), ?_, ?_⟩ <;> first | with_reducible rfl | decide +kernel,
    by refine ⟨({ tServe with tim.servo := .acquire } : State), ?_, ?_⟩ <;> first | with_reducible rfl | decide +kernel | (unfold State.Inv; decide +kernel),
    by refine ⟨(1 : Nat), ({ ({ domain := 0, src := 0, gm := [], steps := 0, utc := none, interval := 0 } : AnnounceMsg) with domain := ((tServe.setBit rTimCtl 1 true) : State).fld rTimCtl 14 8 } : AnnounceMsg), ((tServe.setBit rTimCtl 1 true) : State), (((tServe.setBit rTimCtl 1 true) : State).advance (1 : Nat) : State), ?_, ?_, ?_, ?_⟩ <;> first | with_reducible rfl | decide +kernel,
    by refine ⟨(1 : Nat), ({ domain := 0, src := 0, gm := [], steps := 0, utc := none, interval := 0 } : AnnounceMsg), ((tServe.setBit rTimCtl 1 false) : State), (((tServe.setBit rTimCtl 1 false) : State).advance (1 : Nat) : State), ?_, ?_⟩ <;> first | with_reducible rfl | decide +kernel,
    by refine ⟨(1 : Nat), (5 : Int), (5 : Int), (5 : Int), (5 : Int), ({ ((((tServe.setBit rTimCtl 1 true) : State).setBit rTimCtl 3 false) : State) with sef.driver := true } : State), (({ ((((tServe.setBit rTimCtl 1 true) : State).setBit rTimCtl 3 false) : State) with sef.driver := true } : State).advance (1 : Nat) : State), ?_, ?_, ?_, ?_⟩ <;> first | with_reducible rfl | decide +kernel,
    by refine ⟨(1 : Nat), (0 : Fin 3), (5 : Int), (5 : Int), (5 : Int), (5 : Int), ((tServe.setBit rTimCtl 3 true) : State), (((tServe.setBit rTimCtl 3 true) : State).advance (1 : Nat) : State), ?_, ?_, ?_⟩ <;> first | with_reducible rfl | decide +kernel⟩

theorem witness_SyncSteersRateOnly_2 :
    ∃ (s : State) (s1 : State), s.Inv ∧ s.tim.servo = .locked ∧ s1 = s.until (s.tim.lastSave + 64 * 268435456) := by refine ⟨({ tServe with tim.servo := .locked } : State), (({ tServe with tim.servo := .locked } : State).until (({ tServe with tim.servo := .locked } : State).tim.lastSave + 64 * 268435456) : State), ?_, ?_, ?_⟩ <;> first | with_reducible rfl | decide +kernel | (unfold State.Inv; decide +kernel)

/-- Of the witness below. -/
def tTimeStepIsJournaled_0a : State := ({ ((({ ({ tServe with tim.pend := some ({ ({ delta := 0, source := 0 } : StepPend) with replica := false } : StepPend) } : State) with seq.hold := none } : State).setFld rJsqBhold 15 0 (0)) : State) with seq.unsure := false } : State)

/-- Of the witness below. -/
def tTimeStepIsJournaled_1a : State := ({ tServe with tim.pend := some ({ ({ delta := 0, source := 0 } : StepPend) with replica := true } : StepPend) } : State)

theorem witness_TimeStepIsJournaled :
    (∃ (s : State) (s1 : State) (p : StepPend), s.Inv ∧ s.tim.pend = some p ∧ p.replica = false ∧ s.seq.hold = none ∧ s.fld rJsqBhold 15 0 = 0 ∧ s.seq.unsure = false ∧ s1 = s.untilDev ((secOf s.dev + 1) * second)) ∧
    (∃ (s : State) (s1 : State) (p : StepPend), s.tim.pend = some p ∧ p.replica = true ∧ s1 = s.untilDev ((secOf s.dev + 1) * second)) ∧
    (∃ (s : State) (s1 : State), s.seq.regressed = true ∧ s1 = s.untilDev s.ctx.hwb) ∧
    (∃ (s : State) (s1 : State) (l : Leap), s.Inv ∧ s.cfg.leaps.find? (fun l => decide (s.dev < l.at_ * second)) = some l ∧ s1 = s.untilDev (l.at_ * second)) := ⟨by refine ⟨tTimeStepIsJournaled_0a, (tTimeStepIsJournaled_0a.untilDev ((secOf tTimeStepIsJournaled_0a.dev + 1) * second) : State), ({ ({ delta := 0, source := 0 } : StepPend) with replica := false } : StepPend), ?_, ?_, ?_, ?_, ?_, ?_, ?_⟩ <;> first | with_reducible rfl | decide +kernel | (unfold State.Inv; decide +kernel),
    by refine ⟨tTimeStepIsJournaled_1a, (tTimeStepIsJournaled_1a.untilDev ((secOf tTimeStepIsJournaled_1a.dev + 1) * second) : State), ({ ({ delta := 0, source := 0 } : StepPend) with replica := true } : StepPend), ?_, ?_, ?_⟩ <;> first | with_reducible rfl | decide +kernel,
    by refine ⟨({ tServe with seq.regressed := true } : State), (({ tServe with seq.regressed := true } : State).untilDev ({ tServe with seq.regressed := true } : State).ctx.hwb : State), ?_, ?_⟩ <;> first | with_reducible rfl | decide +kernel,
    by refine ⟨({ tServe with cfg.leaps := [⟨2000, 38⟩] } : State), (({ tServe with cfg.leaps := [⟨2000, 38⟩] } : State).untilDev ((⟨2000, 38⟩ : Leap).at_ * second) : State), (⟨2000, 38⟩ : Leap), ?_, ?_, ?_⟩ <;> first | with_reducible rfl | decide +kernel | (unfold State.Inv; decide +kernel)⟩

/-- Of the witness below. -/
def tOasisKeepsAndTakesTime_1a : State := ({ ({ ({ tServe with tim.calFrom := some ((1 : Nat), (1 : Nat), (1 : Nat)) } : State) with tim.servo := .locked } : State) with locked := false } : State)

/-- Of the witness below. -/
def tOasisKeepsAndTakesTime_2a : State := ((if ({ tServe with oas.stgPend := some (1 : Nat) } : State).locked then ({ tServe with oas.stgPend := some (1 : Nat) } : State).until (({ tServe with oas.stgPend := some (1 : Nat) } : State).t + ((secOf ({ tServe with oas.stgPend := some (1 : Nat) } : State).oas.raw + 1) * second - ({ tServe with oas.stgPend := some (1 : Nat) } : State).oas.raw)) else ({ tServe with oas.stgPend := some (1 : Nat) } : State).untilDev ((secOf ({ tServe with oas.stgPend := some (1 : Nat) } : State).dev + 1) * second)) : State)

theorem witness_OasisKeepsAndTakesTime_1 :
    (∃ (temp : Fin 1024) (s : State) (s1 : State) (s2 : State), s1 = s.oasSecondAt s.oas.trimSec ∧ s2 = (if (if s1.onVbat then 64 else 4) ≤ s1.oas.tempAge + 1 then s1.setReg rOasTemp temp else s1)) ∧
    (∃ (s : State) (s1 : State) (t0 : Nat) (d0 : Nat) (r0 : Nat), s.Inv ∧ s.tim.calFrom = some (t0, d0, r0) ∧ s.tim.servo = .locked ∧ s.locked = false ∧ s1 = s.until (t0 + 1024 * 268435456)) ∧
    (∃ (s : State) (s1 : State) (v : Nat), s.oas.stgPend = some v ∧ s1 = (if s.locked then s.until (s.t + ((secOf s.oas.raw + 1) * second - s.oas.raw)) else s.untilDev ((secOf s.dev + 1) * second))) ∧
    (∃ (s : State), s.Inv ∧ s.locked = false ∧ s.reg rOasStgLo % 268435456 = 0 ∧ 4 * 8192 ≤ (secOf s.dev + 1) * 268435456 - s.dev) ∧
    (∃ (s : State), s.locked = false ∧ s.reg rOasStgLo % 268435456 = 0 ∧ (secOf s.dev + 1) * 268435456 - s.dev < 2 * 8192) ∧
    (∃ (s : State), s.locked = false ∧ s.reg rOasStgLo % 268435456 ≠ 0) := ⟨by refine ⟨(0 : Fin 1024), tServe, (tServe.oasSecondAt tServe.oas.trimSec : State), ((if (if (tServe.oasSecondAt tServe.oas.trimSec : State).onVbat then 64 else 4) ≤ (tServe.oasSecondAt tServe.oas.trimSec : State).oas.tempAge + 1 then (tServe.oasSecondAt tServe.oas.trimSec : State).setReg rOasTemp (0 : Fin 1024) else (tServe.oasSecondAt tServe.oas.trimSec : State)) : State), ?_, ?_⟩ <;> first | with_reducible rfl | decide +kernel,
    by refine ⟨tOasisKeepsAndTakesTime_1a, (tOasisKeepsAndTakesTime_1a.until ((1 : Nat) + 1024 * 268435456) : State), (1 : Nat), (1 : Nat), (1 : Nat), ?_, ?_, ?_, ?_, ?_⟩ <;> first | with_reducible rfl | decide +kernel | (unfold State.Inv; decide +kernel),
    by refine ⟨({ tServe with oas.stgPend := some (1 : Nat) } : State), tOasisKeepsAndTakesTime_2a, (1 : Nat), ?_, ?_⟩ <;> first | with_reducible rfl | decide +kernel,
    by refine ⟨({ tServe with locked := false } : State), ?_, ?_, ?_, ?_⟩ <;> first | with_reducible rfl | decide +kernel | (unfold State.Inv; decide +kernel),
    by refine ⟨({ ({ tServe with dev := 1001 * 268435456 - 5 } : State) with locked := false } : State), ?_, ?_, ?_⟩ <;> first | with_reducible rfl | decide +kernel,
    by refine ⟨({ ((tServe.setReg rOasStgLo 5) : State) with locked := false } : State), ?_, ?_⟩ <;> first | with_reducible rfl | decide +kernel⟩

theorem witness_OasisKeepsAndTakesTime_2 :
    ∃ (w : Who) (s : State), w ≠ .dev := by refine ⟨(.seif : Who), tServe, ?_⟩ <;> first | with_reducible rfl | decide +kernel

theorem witness_OasisShadowsFreezePerRequester :
    (∃ (w : Who) (s : State), s.locked = false ∧ s.oas.shadow.at w = none) ∧
    (∃ (w : Who) (s : State) (x : Shadow), s.locked = false ∧ s.oas.shadow.at w = some x) ∧
    (∃ (w : Who) (v : Who) (s : State) (t : State), exec (.oasTime0Read w) s = .next t ∧ v ≠ w) ∧
    (∃ (w : Who) (s : State), s.locked = true) := ⟨by refine ⟨(.dev : Who), ({ tServe with locked := false } : State), ?_, ?_⟩ <;> first | with_reducible rfl | decide +kernel,
    by refine ⟨(.dev : Who), ({ tServe with oas.shadow := ⟨some ⟨0, 0, 0, 0, 0⟩, none, none⟩ } : State), ((({ tServe with oas.shadow := ⟨some ⟨0, 0, 0, 0, 0⟩, none, none⟩ } : State).oas.shadow.at (.dev : Who)).getD { w0 := 0, w1 := 0, w2 := 0, w3 := 0, since := 0 } : Shadow), ?_, ?_⟩ <;> first | with_reducible rfl | decide +kernel,
    by refine ⟨.dev, .seif, tServe, tNext (exec (.oasTime0Read .dev) tServe), ?_, ?_⟩ <;> first | with_reducible rfl | decide +kernel | (constructor <;> decide +kernel),
    by refine ⟨(.dev : Who), ({ tServe with locked := true } : State), ?_⟩ <;> first | with_reducible rfl | decide +kernel⟩

/-- Of the witness below. -/
def tPulsesAndCaptures_1a : State := ({ ({ (tServe.setFld (rTimCtlcfg 0) 1 0 3) with tim.ctl := [{ pulses := [1001 * 268435456] }, {}, {}, {}, {}, {}, {}, {}] } : State) with sef.driver := true } : State)

/-- Of the witness below. -/
def tPulsesAndCaptures_2a : State := ({ ({ ((tServe.setFld (rTimCtlcfg 0) 1 0 3).setFld (rTimCtlcfg 0) 23 16 5) with tim.ctl := [{ pulses := [900 * 268435456] }, {}, {}, {}, {}, {}, {}, {}] } : State) with sef.driver := true } : State)

/-- Of the witness below. -/
def tPulsesAndCaptures_3a : State := ({ ({ (tServe.setFld (rTimCtlcfg 0) 1 0 3) with tim.ctl := [{ pulses := [1001 * 268435456] }, {}, {}, {}, {}, {}, {}, {}] } : State) with sef.driver := false } : State)

/-- Of the witness below. -/
def tPulsesAndCaptures_4_0a : State := ({ ((((tServe.setBit (rTimEvtcfg (0 : Fin 4)) 2 true) : State).setFld (rTimEvtcfg (0 : Fin 4)) 1 0 ((if (true : Bool) then 0 else 1))) : State) with sef.driver := true } : State)

theorem witness_PulsesAndCaptures_1 :
    (∃ (s : State) (s1 : State), s1 = s.oasSecondAt s.oas.ppsSec ∧ s.bitOf rOasPps 0 = true ∧ s.onVbat = false) ∧
    (∃ (s : State) (s1 : State), s1 = s.oasSecondAt s.oas.ppsSec ∧ (s.bitOf rOasPps 0 = false ∨ s.onVbat = true)) ∧
    (∃ (n : Fin 8) (s : State) (s1 : State) (p : Nat), s.ctlNext n = some p ∧ s1 = s.untilDev p ∧ s.sef.driver = true ∧ s.tim.ctlFrom ≤ p ∧ (s.ctlMode n = 3 ∨ s.seq.unsure = false) ∧ s.tim.ctl.length = 8 ∧ s1.dev ≤ p + s.fld (rTimCtlcfg n) 23 16 * 268435456 / 1000) ∧
    (∃ (n : Fin 8) (s : State) (s1 : State) (p : Nat), s.Inv ∧ s.ctlNext n = some p ∧ s1 = s.untilDev p ∧ s.sef.driver = true ∧ s.tim.ctlFrom ≤ p ∧ (s.ctlMode n = 3 ∨ s.seq.unsure = false) ∧ p + s.fld (rTimCtlcfg n) 23 16 * 268435456 / 1000 < s1.dev) ∧
    (∃ (n : Fin 8) (s : State) (p : Nat), s.ctlNext n = some p ∧ (s.sef.driver = false ∨ p < s.tim.ctlFrom ∨ (s.ctlMode n ≠ 3 ∧ s.seq.unsure = true))) ∧
    (∃ (dt : Nat) (e : Fin 4) (rising : Bool) (s : State) (s1 : State) (s2 : State), s1 = s.advance dt ∧ s.bitOf (rTimEvtcfg e) 2 = true ∧ (s.fld (rTimEvtcfg e) 1 0 = (if rising then 0 else 1) ∨ 2 ≤ s.fld (rTimEvtcfg e) 1 0) ∧ s.sef.driver = true ∧ s2 = s1.advance (s.fld (rTimEvtcfg e) 15 8 * 100 * 268435456 / 1000000000) ∧ s.tim.evq.getD e [] = [] ∧ (s.ring 0).stalled = false) := ⟨by refine ⟨((tServe.setBit rOasPps 0 true) : State), (((tServe.setBit rOasPps 0 true) : State).oasSecondAt ((tServe.setBit rOasPps 0 true) : State).oas.ppsSec : State), ?_, ?_, ?_⟩ <;> first | with_reducible rfl | decide +kernel,
    by refine ⟨((tServe.setBit rOasPps 0 false) : State), (((tServe.setBit rOasPps 0 false) : State).oasSecondAt ((tServe.setBit rOasPps 0 false) : State).oas.ppsSec : State), ?_, ?_⟩ <;> first | with_reducible rfl | decide +kernel,
    by refine ⟨(0 : Fin 8), tPulsesAndCaptures_1a, (tPulsesAndCaptures_1a.untilDev ((tPulsesAndCaptures_1a.ctlNext (0 : Fin 8)).getD 0 : Nat) : State), ((tPulsesAndCaptures_1a.ctlNext (0 : Fin 8)).getD 0 : Nat), ?_, ?_, ?_, ?_, ?_, ?_, ?_⟩ <;> first | with_reducible rfl | decide +kernel,
    by refine ⟨(0 : Fin 8), tPulsesAndCaptures_2a, (tPulsesAndCaptures_2a.untilDev ((tPulsesAndCaptures_2a.ctlNext (0 : Fin 8)).getD 0 : Nat) : State), ((tPulsesAndCaptures_2a.ctlNext (0 : Fin 8)).getD 0 : Nat), ?_, ?_, ?_, ?_, ?_, ?_, ?_⟩ <;> first | with_reducible rfl | decide +kernel | (unfold State.Inv; decide +kernel),
    by refine ⟨(0 : Fin 8), tPulsesAndCaptures_3a, ((tPulsesAndCaptures_3a.ctlNext (0 : Fin 8)).getD 0 : Nat), ?_, ?_⟩ <;> first | with_reducible rfl | decide +kernel,
    by refine ⟨(1 : Nat), (0 : Fin 4), (true : Bool), tPulsesAndCaptures_4_0a, (tPulsesAndCaptures_4_0a.advance (1 : Nat) : State), ((tPulsesAndCaptures_4_0a.advance (1 : Nat) : State).advance (tPulsesAndCaptures_4_0a.fld (rTimEvtcfg (0 : Fin 4)) 15 8 * 100 * 268435456 / 1000000000) : State), ?_, ?_, ?_, ?_, ?_, ?_, ?_⟩ <;> first | with_reducible rfl | decide +kernel⟩

/-- Of the witness below. -/
def tPulsesAndCaptures_4_1a : State := ({ ((((({ (tServe.setBit (rTimEvtcfg 0) 2 true) with tim.evq := [[5], [], [], []] } : State).setBit (rTimEvtcfg (0 : Fin 4)) 2 true) : State).setFld (rTimEvtcfg (0 : Fin 4)) 1 0 ((if (true : Bool) then 0 else 1))) : State) with sef.driver := true } : State)

/-- Of the witness below. -/
def tPulsesAndCaptures_4_2a : State := ({ ((((({ (tServe.setBit (rTimEvtcfg 0) 2 true) with tim.evq := [List.replicate 8 5, [], [], []] } : State).setBit (rTimEvtcfg (0 : Fin 4)) 2 true) : State).setFld (rTimEvtcfg (0 : Fin 4)) 1 0 ((if (true : Bool) then 0 else 1))) : State) with sef.driver := true } : State)

theorem witness_PulsesAndCaptures_2 :
    (∃ (dt : Nat) (e : Fin 4) (rising : Bool) (s : State) (s1 : State) (s2 : State), s1 = s.advance dt ∧ s.bitOf (rTimEvtcfg e) 2 = true ∧ (s.fld (rTimEvtcfg e) 1 0 = (if rising then 0 else 1) ∨ 2 ≤ s.fld (rTimEvtcfg e) 1 0) ∧ s.sef.driver = true ∧ s2 = s1.advance (s.fld (rTimEvtcfg e) 15 8 * 100 * 268435456 / 1000000000) ∧ (s.tim.evq.getD e [] ≠ [] ∨ (s.ring 0).stalled = true) ∧ (s.tim.evq.getD e []).length < 8) ∧
    (∃ (dt : Nat) (e : Fin 4) (rising : Bool) (s : State) (s1 : State) (s2 : State), s1 = s.advance dt ∧ s.bitOf (rTimEvtcfg e) 2 = true ∧ (s.fld (rTimEvtcfg e) 1 0 = (if rising then 0 else 1) ∨ 2 ≤ s.fld (rTimEvtcfg e) 1 0) ∧ s.sef.driver = true ∧ s2 = s1.advance (s.fld (rTimEvtcfg e) 15 8 * 100 * 268435456 / 1000000000) ∧ 8 ≤ (s.tim.evq.getD e []).length) := ⟨by refine ⟨(1 : Nat), (0 : Fin 4), (true : Bool), tPulsesAndCaptures_4_1a, (tPulsesAndCaptures_4_1a.advance (1 : Nat) : State), ((tPulsesAndCaptures_4_1a.advance (1 : Nat) : State).advance (tPulsesAndCaptures_4_1a.fld (rTimEvtcfg (0 : Fin 4)) 15 8 * 100 * 268435456 / 1000000000) : State), ?_, ?_, ?_, ?_, ?_, ?_, ?_⟩ <;> first | with_reducible rfl | decide +kernel,
    by refine ⟨(1 : Nat), (0 : Fin 4), (true : Bool), tPulsesAndCaptures_4_2a, (tPulsesAndCaptures_4_2a.advance (1 : Nat) : State), ((tPulsesAndCaptures_4_2a.advance (1 : Nat) : State).advance (tPulsesAndCaptures_4_2a.fld (rTimEvtcfg (0 : Fin 4)) 15 8 * 100 * 268435456 / 1000000000) : State), ?_, ?_, ?_, ?_, ?_, ?_⟩ <;> first | with_reducible rfl | decide +kernel⟩

/-- Of the witness below. -/
def tDispatchQueuesUnderKey_1a : State := ((({ ({ tServe with erg.toDispatch := ({ ({ tEntry with kind := .drbgDraw, payload := le 4 0x44000000 ++ [1, 2] } : Entry) with kind := .drbgDraw } : Entry) :: ([] : List Entry) } : State) with erg.keys := [{ key := ((drawKey (fld 0 4 ({ ({ tEntry with kind := .drbgDraw, payload := le 4 0x44000000 ++ [1, 2] } : Entry) with kind := .drbgDraw } : Entry).payload)).getD (.slot 0) : Key), owner := 0, tasks := [({ ({ jsn := 8, key := .slot 0, entry := tEntry, phase := .committing } : Task) with key := ((drawKey (fld 0 4 ({ ({ tEntry with kind := .drbgDraw, payload := le 4 0x44000000 ++ [1, 2] } : Entry) with kind := .drbgDraw } : Entry).payload)).getD (.slot 0) : Key) } : Task)] }] } : State).setBit rErgCtl 0 true) : State)

theorem witness_DispatchQueuesUnderKey :
    (∃ (s : State) (e : Entry) (r : List Entry) (k : Key), s.Inv ∧ s.erg.toDispatch = e :: r ∧ e.kind ≠ .drbgDraw ∧ keysOf s.cfg e = [k] ∧ s.bitOf rErgCtl 0 = true ∧ s.tasksUsed + 1 ≤ 32768) ∧
    (∃ (s : State) (e : Entry) (r : List Entry) (k : Key) (x : Task), s.erg.toDispatch = e :: r ∧ e.kind = .drbgDraw ∧ drawKey (fld 0 4 e.payload) = some k ∧ s.headTask k = some x ∧ s.bitOf rErgCtl 0 = true ∧ s.tasksUsed ≤ 32768) := ⟨by refine ⟨((({ tServe with erg.toDispatch := tEntry :: ([] : List Entry) } : State).setBit rErgCtl 0 true) : State), tEntry, ([] : List Entry), ((.sys 4) : Key), ?_, ?_, ?_, ?_, ?_, ?_⟩ <;> first | with_reducible rfl | decide +kernel | (unfold State.Inv; decide +kernel),
    by refine ⟨tDispatchQueuesUnderKey_1a, ({ ({ tEntry with kind := .drbgDraw, payload := le 4 0x44000000 ++ [1, 2] } : Entry) with kind := .drbgDraw } : Entry), ([] : List Entry), ((drawKey (fld 0 4 ({ ({ tEntry with kind := .drbgDraw, payload := le 4 0x44000000 ++ [1, 2] } : Entry) with kind := .drbgDraw } : Entry).payload)).getD (.slot 0) : Key), ({ ({ jsn := 8, key := .slot 0, entry := tEntry, phase := .committing } : Task) with key := ((drawKey (fld 0 4 ({ ({ tEntry with kind := .drbgDraw, payload := le 4 0x44000000 ++ [1, 2] } : Entry) with kind := .drbgDraw } : Entry).payload)).getD (.slot 0) : Key) } : Task), ?_, ?_, ?_, ?_, ?_, ?_⟩ <;> first | with_reducible rfl | decide +kernel⟩

/-- Of the witness below. -/
def tTasksStartAndMoveWhole_0_0a : State := ({ ((({ ({ tServe with erg.dunes := tServe.erg.dunes.set ((0 : Fin 64).val / 8) { tServe.dune ((0 : Fin 64).val / 8) with pwr := .awake } } : State) with erg.dunes := ({ tServe with erg.dunes := tServe.erg.dunes.set ((0 : Fin 64).val / 8) { tServe.dune ((0 : Fin 64).val / 8) with pwr := .awake } } : State).erg.dunes.set ((0 : Fin 64).val / 8) { ({ tServe with erg.dunes := tServe.erg.dunes.set ((0 : Fin 64).val / 8) { tServe.dune ((0 : Fin 64).val / 8) with pwr := .awake } } : State).dune ((0 : Fin 64).val / 8) with leaving := false } } : State).setBit rErgCtl 0 true) : State) with erg.keys := [{ key := ((.slot 0) : Key), owner := (0 : Fin 64), tasks := [({ ({ jsn := 8, key := .slot 0, entry := tEntry, phase := .committing } : Task) with key := ((.slot 0) : Key), phase := .queued } : Task)] }] } : State)

/-- Of the witness below. -/
def tTasksStartAndMoveWhole_0_1a : State := ((({ ((({ ({ tServe with erg.dunes := tServe.erg.dunes.set ((0 : Fin 64).val / 8) { tServe.dune ((0 : Fin 64).val / 8) with pwr := .awake } } : State) with erg.dunes := ({ tServe with erg.dunes := tServe.erg.dunes.set ((0 : Fin 64).val / 8) { tServe.dune ((0 : Fin 64).val / 8) with pwr := .awake } } : State).erg.dunes.set ((0 : Fin 64).val / 8) { ({ tServe with erg.dunes := tServe.erg.dunes.set ((0 : Fin 64).val / 8) { tServe.dune ((0 : Fin 64).val / 8) with pwr := .awake } } : State).dune ((0 : Fin 64).val / 8) with leaving := false } } : State).setBit rErgCtl 0 true) : State) with erg.keys := [{ key := ((.slot 0) : Key), owner := (0 : Fin 64), tasks := [({ ({ ({ jsn := 8, key := .slot 0, entry := { tEntry with payload := [0, 0, 0, 0, 2, 0] ++ List.replicate 40 0 } } : Task) with key := ((.slot 0) : Key), phase := .queued } : Task) with work := .entry } : Task)] }] } : State).setBit rCphCtl 0 true) : State)

/-- Of the witness below. -/
def tTasksStartAndMoveWhole_1a : State := ((({ ({ ({ tServe with erg.keys := [{ key := .slot 5, owner := 1, tasks := List.replicate 40 { jsn := 8, key := .slot 5, entry := tEntry } }] } : State) with erg.dunes := ({ tServe with erg.keys := [{ key := .slot 5, owner := 1, tasks := List.replicate 40 { jsn := 8, key := .slot 5, entry := tEntry } }] } : State).erg.dunes.set ((0 : Fin 64).val / 8) { ({ tServe with erg.keys := [{ key := .slot 5, owner := 1, tasks := List.replicate 40 { jsn := 8, key := .slot 5, entry := tEntry } }] } : State).dune ((0 : Fin 64).val / 8) with pwr := .awake } } : State) with erg.dunes := ({ ({ tServe with erg.keys := [{ key := .slot 5, owner := 1, tasks := List.replicate 40 { jsn := 8, key := .slot 5, entry := tEntry } }] } : State) with erg.dunes := ({ tServe with erg.keys := [{ key := .slot 5, owner := 1, tasks := List.replicate 40 { jsn := 8, key := .slot 5, entry := tEntry } }] } : State).erg.dunes.set ((0 : Fin 64).val / 8) { ({ tServe with erg.keys := [{ key := .slot 5, owner := 1, tasks := List.replicate 40 { jsn := 8, key := .slot 5, entry := tEntry } }] } : State).dune ((0 : Fin 64).val / 8) with pwr := .awake } } : State).erg.dunes.set ((0 : Fin 64).val / 8) { ({ ({ tServe with erg.keys := [{ key := .slot 5, owner := 1, tasks := List.replicate 40 { jsn := 8, key := .slot 5, entry := tEntry } }] } : State) with erg.dunes := ({ tServe with erg.keys := [{ key := .slot 5, owner := 1, tasks := List.replicate 40 { jsn := 8, key := .slot 5, entry := tEntry } }] } : State).erg.dunes.set ((0 : Fin 64).val / 8) { ({ tServe with erg.keys := [{ key := .slot 5, owner := 1, tasks := List.replicate 40 { jsn := 8, key := .slot 5, entry := tEntry } }] } : State).dune ((0 : Fin 64).val / 8) with pwr := .awake } } : State).dune ((0 : Fin 64).val / 8) with leaving := false } } : State).setBit rErgCtl 0 true) : State)

theorem witness_TasksStartAndMoveWhole :
    (∃ (g : Fin 64) (s : State) (k : Key) (x : Task), (s.dune (g.val / 8)).pwr = .awake ∧ (s.dune (g.val / 8)).leaving = false ∧ s.bitOf rErgCtl 0 = true ∧ s.nextStart g = some (k, x) ∧ (x.entry.sequenced = false ∨ x.work ≠ .entry)) ∧
    (∃ (g : Fin 64) (s : State) (k : Key) (x : Task), (s.dune (g.val / 8)).pwr = .awake ∧ (s.dune (g.val / 8)).leaving = false ∧ s.bitOf rErgCtl 0 = true ∧ s.nextStart g = some (k, x) ∧ x.entry.sequenced = true ∧ x.work = .entry ∧ s.bitOf rCphCtl 0 = true ∧ s.Inv) ∧
    (∃ (g : Fin 64) (s : State) (v : Nat) (q : KeyQ), s.Inv ∧ (s.dune (g.val / 8)).pwr = .awake ∧ (s.dune (g.val / 8)).leaving = false ∧ s.bitOf rErgCtl 0 = true ∧ s.grainIdle g = true ∧ s.victim g = some v ∧ s.stealKey v = some q) ∧
    (∃ (g : Fin 64) (s : State), (s.dune (g.val / 8)).leaving = true) := ⟨by refine ⟨(0 : Fin 64), tTasksStartAndMoveWhole_0_0a, ((.slot 0) : Key), ({ ({ jsn := 8, key := .slot 0, entry := tEntry, phase := .committing } : Task) with key := ((.slot 0) : Key), phase := .queued } : Task), ?_, ?_, ?_, ?_, ?_⟩ <;> first | with_reducible rfl | decide +kernel,
    by refine ⟨(0 : Fin 64), tTasksStartAndMoveWhole_0_1a, ((.slot 0) : Key), ({ ({ ({ jsn := 8, key := .slot 0, entry := { tEntry with payload := [0, 0, 0, 0, 2, 0] ++ List.replicate 40 0 } } : Task) with key := ((.slot 0) : Key), phase := .queued } : Task) with work := .entry } : Task), ?_, ?_, ?_, ?_, ?_, ?_, ?_, ?_⟩ <;> first | with_reducible rfl | decide +kernel | (unfold State.Inv; decide +kernel),
    by refine ⟨(0 : Fin 64), tTasksStartAndMoveWhole_1a, ((tTasksStartAndMoveWhole_1a.victim (0 : Fin 64)).getD 0 : Nat), ((tTasksStartAndMoveWhole_1a.stealKey ((tTasksStartAndMoveWhole_1a.victim (0 : Fin 64)).getD 0 : Nat)).getD { key := (.slot 0), owner := 0, tasks := [] } : KeyQ), ?_, ?_, ?_, ?_, ?_, ?_, ?_⟩ <;> first | with_reducible rfl | decide +kernel | (unfold State.Inv; decide +kernel),
    by refine ⟨(0 : Fin 64), ({ tServe with erg.dunes := tServe.erg.dunes.set ((0 : Fin 64).val / 8) { tServe.dune ((0 : Fin 64).val / 8) with leaving := true } } : State), ?_⟩ <;> first | with_reducible rfl | decide +kernel⟩

/-- Of the witness below. -/
def tDunesSleepAndWake_0a : State := ((({ tServe with erg.dunes := tServe.erg.dunes.set (0 : Fin 8) { tServe.dune (0 : Fin 8) with pwr := .awake } } : State).setFld rErgPwr 23 8 1) : State)

/-- Of the witness below. -/
def tDunesSleepAndWake_1a : State := ((((({ tServe with erg.dunes := tServe.erg.dunes.set (0 : Fin 8) { tServe.dune (0 : Fin 8) with pwr := .nap } } : State).setFld rErgPwr 31 24 1) : State).setFld rErgPwr 23 8 1) : State)

/-- Of the witness below. -/
def tDunesSleepAndWake_2a : State := ((({ tServe with erg.maxAwake := 8, erg.dunes := List.replicate 8 {}, erg.keys := [{ key := .slot 5, owner := 1, tasks := List.replicate 40 { jsn := 8, key := .slot 5, entry := tEntry } }] } : State).setBit rErgCtl 0 true) : State)

/-- Of the witness below. -/
def tDunesSleepAndWake_2b : State := (tDunesSleepAndWake_2a.until (max (((tDunesSleepAndWake_2a.nextDuneWake.getD (0, 0)).2) : Nat) tDunesSleepAndWake_2a.wakeFrom) : State)

theorem witness_DunesSleepAndWake :
    (∃ (d : Fin 8) (s : State) (s1 : State), (s.dune d).pwr = .awake ∧ s.duneIdle d = true ∧ s.dunePinned d = false ∧ min 8 (max 1 (s.fld rErgPwr 3 0)) < s.awakeCount ∧ s.fld rErgPwr 23 8 ≠ 0 ∧ s1 = s.until ((s.dune d).idleSince + s.fld rErgPwr 23 8 * 268435456 / 1000000)) ∧
    (∃ (d : Fin 8) (s : State) (s1 : State), (s.dune d).pwr = .nap ∧ s.fld rErgPwr 31 24 ≠ 0 ∧ s.fld rErgPwr 23 8 ≠ 0 ∧ s1 = s.until ((s.dune d).since + s.fld rErgPwr 31 24 * 268435456 / 1000)) ∧
    (∃ (s : State) (s1 : State) (s2 : State) (d : Nat) (due : Nat), s.awakeCount < s.erg.maxAwake ∧ s.bitOf rErgCtl 0 = true ∧ s.nextDuneWake = some (d, due) ∧ s1 = s.until (max due s.wakeFrom) ∧ s2 = s1.advance ((if (s.dune d).pwr = .nap then 2 else 30) * 268435456 / 1000000)) ∧
    (∃ (s : State), s.erg.maxAwake ≤ s.awakeCount) := ⟨by refine ⟨(0 : Fin 8), tDunesSleepAndWake_0a, (tDunesSleepAndWake_0a.until ((tDunesSleepAndWake_0a.dune (0 : Fin 8)).idleSince + tDunesSleepAndWake_0a.fld rErgPwr 23 8 * 268435456 / 1000000) : State), ?_, ?_, ?_, ?_, ?_, ?_⟩ <;> first | with_reducible rfl | decide +kernel,
    by refine ⟨(0 : Fin 8), tDunesSleepAndWake_1a, (tDunesSleepAndWake_1a.until ((tDunesSleepAndWake_1a.dune (0 : Fin 8)).since + tDunesSleepAndWake_1a.fld rErgPwr 31 24 * 268435456 / 1000) : State), ?_, ?_, ?_, ?_⟩ <;> first | with_reducible rfl | decide +kernel,
    by refine ⟨tDunesSleepAndWake_2a, tDunesSleepAndWake_2b, (tDunesSleepAndWake_2b.advance ((if (tDunesSleepAndWake_2a.dune (((tDunesSleepAndWake_2a.nextDuneWake.getD (0, 0)).1) : Nat)).pwr = .nap then 2 else 30) * 268435456 / 1000000) : State), (((tDunesSleepAndWake_2a.nextDuneWake.getD (0, 0)).1) : Nat), (((tDunesSleepAndWake_2a.nextDuneWake.getD (0, 0)).2) : Nat), ?_, ?_, ?_, ?_, ?_⟩ <;> first | with_reducible rfl | decide +kernel,
    by refine ⟨tServe, ?_⟩ <;> first | with_reducible rfl | decide +kernel⟩

/-- Of the witness below. -/
def tCommitTurnHandsOver_1_0a : State := ({ ({ tServe with erg.keys := [{ key := ((.slot 0) : Key), owner := 0, tasks := [({ ({ ({ jsn := 8, key := .slot 0, entry := tEntry, phase := .committing } : Task) with key := ((.slot 0) : Key) } : Task) with phase := .committing } : Task)] }] } : State) with arb.flips := [] } : State)

/-- Of the witness below. -/
def tCommitTurnHandsOver_1_2a : State := ({ tServe with erg.keys := [{ key := .sys 6, owner := 0, tasks := [{ jsn := 8, key := .sys 6, entry := { kind := .mgmtCmd, jsn := 8, stamp := 5, payload := mgmtPayload 0 (cmdBytes 0x11 0 []) }, phase := .committing }] }] } : State)

/-- Of the witness below. -/
def tCommitTurnHandsOver_1_3a : State := ({ ({ tServe with erg.keys := [{ key := ((.group 0) : Key), owner := 0, tasks := [({ ({ ({ jsn := 8, key := .slot 0, entry := tEntry, phase := .committing } : Task) with key := ((.group 0) : Key) } : Task) with phase := .committing } : Task)] }] } : State) with arb.flips := [] } : State)

theorem witness_CommitTurnHandsOver :
    (∃ (s : State) (x : Task), s.headTask (.sys 4) = some x ∧ x.key = .sys 4 ∧ x.phase = .committing ∧ x.work = .entry ∧ (x.entry.kind = .ringLoss ∨ x.entry.cls = .orphan) ∧ x.draws = [] ∧ s.afterIngest x = false ∧ s.cellsUsed + 4 ≤ 65536 ∧ s.boot.restartDue = false ∧ s.Inv) ∧
    (∃ (k : Key) (s : State) (x : Task) (c : Com), s.headTask k = some x ∧ (x.phase = .committing ∨ x.phase = .waitDraw) ∧ s.arb.flips = [] ∧ s.faulted k = false ∧ s.afterIngest x = false ∧ c = (s.comOf x).runTask x ∧ c.wait = none ∧ c.roomForOuts = true ∧ c.s.boot.restartDue = false) ∧
    (∃ (k : Key) (s : State) (x : Task) (c : Com) (tag : Nat) (n : Nat), s.headTask k = some x ∧ (x.phase = .committing ∨ x.phase = .waitDraw) ∧ s.arb.flips = [] ∧ s.faulted k = false ∧ s.afterIngest x = false ∧ c = (s.comOf x).runTask x ∧ c.wait = some (.draw tag n)) ∧
    (∃ (k : Key) (s : State) (x : Task) (c : Com), s.headTask k = some x ∧ (x.phase = .committing ∨ x.phase = .waitDraw) ∧ s.arb.flips = [] ∧ s.faulted k = false ∧ s.afterIngest x = false ∧ c = (s.comOf x).runTask x ∧ (c.wait = some .watermark ∨ c.wait = some .descriptors)) := ⟨by refine ⟨({ ({ tServe with erg.keys := [{ key := (.sys 4), owner := 0, tasks := [({ ({ ({ ({ ({ ({ ({ jsn := 8, key := .slot 0, entry := tEntry, phase := .committing } : Task) with key := (.sys 4) } : Task) with key := .sys 4 } : Task) with phase := .committing } : Task) with work := .entry } : Task) with entry.kind := .ringLoss } : Task) with draws := [] } : Task)] }] } : State) with boot.restartDue := false } : State), ({ ({ ({ ({ ({ ({ ({ jsn := 8, key := .slot 0, entry := tEntry, phase := .committing } : Task) with key := (.sys 4) } : Task) with key := .sys 4 } : Task) with phase := .committing } : Task) with work := .entry } : Task) with entry.kind := .ringLoss } : Task) with draws := [] } : Task), ?_, ?_, ?_, ?_, ?_, ?_, ?_, ?_, ?_, ?_⟩ <;> first | with_reducible rfl | decide +kernel | (unfold State.Inv; decide +kernel),
    by refine ⟨((.slot 0) : Key), tCommitTurnHandsOver_1_0a, ({ ({ ({ jsn := 8, key := .slot 0, entry := tEntry, phase := .committing } : Task) with key := ((.slot 0) : Key) } : Task) with phase := .committing } : Task), ((tCommitTurnHandsOver_1_0a.comOf ({ ({ ({ jsn := 8, key := .slot 0, entry := tEntry, phase := .committing } : Task) with key := ((.slot 0) : Key) } : Task) with phase := .committing } : Task)).runTask ({ ({ ({ jsn := 8, key := .slot 0, entry := tEntry, phase := .committing } : Task) with key := ((.slot 0) : Key) } : Task) with phase := .committing } : Task) : Com), ?_, ?_, ?_, ?_, ?_, ?_, ?_, ?_, ?_⟩ <;> first | with_reducible rfl | decide +kernel,
    by refine ⟨((.sys 6) : Key), tCommitTurnHandsOver_1_2a, ({ ({ (((tCommitTurnHandsOver_1_2a.headTask (.sys 6)).getD { jsn := 8, key := .slot 0, entry := tEntry }) : Task) with key := ((.sys 6) : Key) } : Task) with phase := .committing } : Task), ((tCommitTurnHandsOver_1_2a.comOf ({ ({ (((tCommitTurnHandsOver_1_2a.headTask (.sys 6)).getD { jsn := 8, key := .slot 0, entry := tEntry }) : Task) with key := ((.sys 6) : Key) } : Task) with phase := .committing } : Task)).runTask ({ ({ (((tCommitTurnHandsOver_1_2a.headTask (.sys 6)).getD { jsn := 8, key := .slot 0, entry := tEntry }) : Task) with key := ((.sys 6) : Key) } : Task) with phase := .committing } : Task) : Com), (0xC4000000 : Nat), (40 : Nat), ?_, ?_, ?_, ?_, ?_, ?_, ?_⟩ <;> first | with_reducible rfl | decide +kernel,
    by refine ⟨((.group 0) : Key), tCommitTurnHandsOver_1_3a, ({ ({ ({ jsn := 8, key := .slot 0, entry := tEntry, phase := .committing } : Task) with key := ((.group 0) : Key) } : Task) with phase := .committing } : Task), ((tCommitTurnHandsOver_1_3a.comOf ({ ({ ({ jsn := 8, key := .slot 0, entry := tEntry, phase := .committing } : Task) with key := ((.group 0) : Key) } : Task) with phase := .committing } : Task)).runTask ({ ({ ({ jsn := 8, key := .slot 0, entry := tEntry, phase := .committing } : Task) with key := ((.group 0) : Key) } : Task) with phase := .committing } : Task) : Com), ?_, ?_, ?_, ?_, ?_, ?_, ?_⟩ <;> first | with_reducible rfl | decide +kernel⟩

theorem witness_ArbiterWindowAndClear :
    (∃ (s : State) (s1 : State) (w : Nat), w = max s.arb.window (windowAt s.t) ∧ s1 = s.until (ceilDiv ((w + 1) * 32 * 268435456) 200000000)) ∧
    (∃ (w : Who) (s : State), s.Inv) := ⟨by refine ⟨tServe, (tServe.until (ceilDiv (((max tServe.arb.window (windowAt tServe.t) : Nat) + 1) * 32 * 268435456) 200000000) : State), (max tServe.arb.window (windowAt tServe.t) : Nat), ?_, ?_⟩ <;> first | with_reducible rfl | decide +kernel,
    by refine ⟨(.dev : Who), tServe, ?_⟩ <;> first | with_reducible rfl | decide +kernel | (unfold State.Inv; decide +kernel)⟩

/-- Of the witness below. -/
def tCipherRequestIsPlaced_0_0_0a : State := ((((((tServe.setBit rCphCtl 0 true) : State).ringPacket 10 (1 : Nat) ([0, 0, 0, 0] : List Word)) : State).ringTake 10).2 : State)

/-- Of the witness below. -/
def tCipherRequestIsPlaced_0_0_1_0a : State := ((((({ tServe with sec.lanes := List.replicate 16 { run := some ({ op := 0, ws := [0x30000, 1, 0, 0, 0, 0, 0] }, .running) } } : State).setBit rCphCtl 0 true) : State).ringPacket 10 (1 : Nat) ([0, 0, 0, 0, 0, 0, 0] : List Word)) : State)

/-- Of the witness below. -/
def tCipherRequestIsPlaced_0_0_1_1a : State := ((((({ tServe with sec.lanes := List.replicate 16 { run := some ({ op := 0, ws := [0, 1, 0, 0, 0, 0, 0] }, .running) } } : State).setBit rCphCtl 0 true) : State).ringPacket 10 (1 : Nat) ([0, 0, 0, 0, 0, 0, 0] : List Word)) : State)

/-- Of the witness below. -/
def tCipherRequestIsPlaced_0_1_0a : State := ((((((tServe.setBit rCphCtl 0 true) : State).ringPacket 10 (9 : Nat) ([0, 0, 0, 0] : List Word)) : State).ringTake 10).2 : State)

/-- Of the witness below. -/
def tCipherRequestIsPlaced_0_1_1a : State := ((((({ tServe with sec.ecc := [some { op := 4, ws := [] }, some { op := 4, ws := [] }] } : State).setBit rCphCtl 0 true) : State).ringPacket 10 (9 : Nat) ([0, 0, 0, 0] : List Word)) : State)

/-- Of the witness below. -/
def tCipherRequestIsPlaced_0_2a : State := ((((((tServe.setBit rCphCtl 0 true) : State).ringPacket 10 (8 : Nat) ([0, 0, 0, 0] : List Word)) : State).ringTake 10).2 : State)

theorem witness_CipherRequestIsPlaced_1 :
    (∃ (s : State) (s1 : State) (s2 : State) (cut : Bool) (op : Nat) (ws : List Word) (r : CphReq) (k : Nat), s.bitOf rCphCtl 0 = true ∧ s.ringTake 10 = (.packet cut op ws, s1) ∧ s2 = s1.ringDrain 10 ∧ r = { op := op, ws := ws } ∧ 1 ≤ op ∧ op ≤ 11 ∧ op ≠ 8 ∧ op ≠ 9 ∧ op ≠ 10 ∧ ((List.range 16).find? fun k => (s2.sec.lane k).run.isNone) = some k) ∧
    (∃ (s : State) (s1 : State) (s2 : State) (cut : Bool) (op : Nat) (ws : List Word) (r : CphReq) (k : Nat), s.bitOf rCphCtl 0 = true ∧ s.ringTake 10 = (.packet cut op ws, s1) ∧ s2 = s1.ringDrain 10 ∧ r = { op := op, ws := ws } ∧ 1 ≤ op ∧ op ≤ 11 ∧ op ≠ 8 ∧ op ≠ 9 ∧ op ≠ 10 ∧ ((List.range 16).find? fun k => (s2.sec.lane k).run.isNone) = none ∧ s2.sec.suspendable r.prio = some k) ∧
    (∃ (s : State) (s1 : State) (s2 : State) (cut : Bool) (op : Nat) (ws : List Word) (r : CphReq), s.bitOf rCphCtl 0 = true ∧ s.ringTake 10 = (.packet cut op ws, s1) ∧ s2 = s1.ringDrain 10 ∧ r = { op := op, ws := ws } ∧ 1 ≤ op ∧ op ≤ 11 ∧ op ≠ 8 ∧ op ≠ 9 ∧ op ≠ 10 ∧ ((List.range 16).find? fun k => (s2.sec.lane k).run.isNone) = none ∧ s2.sec.suspendable r.prio = none) ∧
    (∃ (s : State) (s1 : State) (s2 : State) (cut : Bool) (op : Nat) (ws : List Word) (r : CphReq) (k : Nat), s.bitOf rCphCtl 0 = true ∧ s.ringTake 10 = (.packet cut op ws, s1) ∧ s2 = s1.ringDrain 10 ∧ r = { op := op, ws := ws } ∧ (op = 9 ∨ op = 10) ∧ ((List.range 2).find? fun k => (s2.sec.ecc.getD k none).isNone) = some k) ∧
    (∃ (s : State) (s1 : State) (s2 : State) (cut : Bool) (op : Nat) (ws : List Word) (r : CphReq), s.bitOf rCphCtl 0 = true ∧ s.ringTake 10 = (.packet cut op ws, s1) ∧ s2 = s1.ringDrain 10 ∧ r = { op := op, ws := ws } ∧ (op = 9 ∨ op = 10) ∧ ((List.range 2).find? fun k => (s2.sec.ecc.getD k none).isNone) = none) ∧
    (∃ (s : State) (s1 : State) (s2 : State) (cut : Bool) (op : Nat) (ws : List Word) (r : CphReq), s.bitOf rCphCtl 0 = true ∧ s.ringTake 10 = (.packet cut op ws, s1) ∧ s2 = s1.ringDrain 10 ∧ r = { op := op, ws := ws } ∧ op = 8) := ⟨by refine ⟨((((tServe.setBit rCphCtl 0 true) : State).ringPacket 10 (1 : Nat) ([0, 0, 0, 0] : List Word)) : State), tCipherRequestIsPlaced_0_0_0a, (tCipherRequestIsPlaced_0_0_0a.ringDrain 10 : State), (false : Bool), (1 : Nat), ([0, 0, 0, 0] : List Word), ({ op := (1 : Nat), ws := ([0, 0, 0, 0] : List Word) } : CphReq), (0 : Nat), ?_, ?_, ?_, ?_, ?_, ?_, ?_, ?_, ?_, ?_⟩ <;> first | with_reducible rfl | decide +kernel,
    by refine ⟨tCipherRequestIsPlaced_0_0_1_0a, ((tCipherRequestIsPlaced_0_0_1_0a.ringTake 10).2 : State), (((tCipherRequestIsPlaced_0_0_1_0a.ringTake 10).2 : State).ringDrain 10 : State), (false : Bool), (1 : Nat), ([0, 0, 0, 0, 0, 0, 0] : List Word), ({ op := (1 : Nat), ws := ([0, 0, 0, 0, 0, 0, 0] : List Word) } : CphReq), (((((tCipherRequestIsPlaced_0_0_1_0a.ringTake 10).2 : State).ringDrain 10 : State).sec.suspendable ({ op := (1 : Nat), ws := ([0, 0, 0, 0, 0, 0, 0] : List Word) } : CphReq).prio).getD 0 : Nat), ?_, ?_, ?_, ?_, ?_, ?_, ?_, ?_, ?_, ?_, ?_⟩ <;> first | with_reducible rfl | decide +kernel,
    by refine ⟨tCipherRequestIsPlaced_0_0_1_1a, ((tCipherRequestIsPlaced_0_0_1_1a.ringTake 10).2 : State), (((tCipherRequestIsPlaced_0_0_1_1a.ringTake 10).2 : State).ringDrain 10 : State), (false : Bool), (1 : Nat), ([0, 0, 0, 0, 0, 0, 0] : List Word), ({ op := (1 : Nat), ws := ([0, 0, 0, 0, 0, 0, 0] : List Word) } : CphReq), ?_, ?_, ?_, ?_, ?_, ?_, ?_, ?_, ?_, ?_, ?_⟩ <;> first | with_reducible rfl | decide +kernel,
    by refine ⟨((((tServe.setBit rCphCtl 0 true) : State).ringPacket 10 (9 : Nat) ([0, 0, 0, 0] : List Word)) : State), tCipherRequestIsPlaced_0_1_0a, (tCipherRequestIsPlaced_0_1_0a.ringDrain 10 : State), (false : Bool), (9 : Nat), ([0, 0, 0, 0] : List Word), ({ op := (9 : Nat), ws := ([0, 0, 0, 0] : List Word) } : CphReq), (0 : Nat), ?_, ?_, ?_, ?_, ?_, ?_⟩ <;> first | with_reducible rfl | decide +kernel,
    by refine ⟨tCipherRequestIsPlaced_0_1_1a, ((tCipherRequestIsPlaced_0_1_1a.ringTake 10).2 : State), (((tCipherRequestIsPlaced_0_1_1a.ringTake 10).2 : State).ringDrain 10 : State), (false : Bool), (9 : Nat), ([0, 0, 0, 0] : List Word), ({ op := (9 : Nat), ws := ([0, 0, 0, 0] : List Word) } : CphReq), ?_, ?_, ?_, ?_, ?_, ?_⟩ <;> first | with_reducible rfl | decide +kernel,
    by refine ⟨((((tServe.setBit rCphCtl 0 true) : State).ringPacket 10 (8 : Nat) ([0, 0, 0, 0] : List Word)) : State), tCipherRequestIsPlaced_0_2a, (tCipherRequestIsPlaced_0_2a.ringDrain 10 : State), (false : Bool), (8 : Nat), ([0, 0, 0, 0] : List Word), ({ op := (8 : Nat), ws := ([0, 0, 0, 0] : List Word) } : CphReq), ?_, ?_, ?_, ?_, ?_⟩ <;> first | with_reducible rfl | decide +kernel⟩

/-- Of the witness below. -/
def tCipherRequestIsPlaced_0_3a : State := ((((((tServe.setBit rCphCtl 0 true) : State).ringPacket 10 (0 : Nat) ([0, 0, 0, 0] : List Word)) : State).ringTake 10).2 : State)

/-- Of the witness below. -/
def tCipherRequestIsPlaced_4_0a : State := ({ tServe with sec.ecc := [some { op := 10, ws := [0, 0, 0, 0, 0, 0, 0, 0, 0, 0, 0, 0, 0, 0, 0, 0, 0, 0] }, none] } : State)

theorem witness_CipherRequestIsPlaced_2 :
    (∃ (s : State) (s1 : State) (s2 : State) (cut : Bool) (op : Nat) (ws : List Word) (r : CphReq), s.bitOf rCphCtl 0 = true ∧ s.ringTake 10 = (.packet cut op ws, s1) ∧ s2 = s1.ringDrain 10 ∧ r = { op := op, ws := ws } ∧ (op = 0 ∨ 11 < op)) ∧
    (∃ (x : Sec) (p : Nat) (k : Nat), x.suspendable p = some k) ∧
    (∃ (lane : Fin 16) (s : State) (r : CphReq) (st : LaneStep), (s.sec.lane lane).run = some (r, st) ∧ r.unwraps = true ∧ st ≠ .running ∧ s.reqKey r = .noKey) ∧
    (∃ (e : Fin 2) (s : State) (r : CphReq) (ok : Bool), s.sec.ecc.getD e none = some r ∧ r.op = 10 ∧ ok = Config.ecdsaVerify ((s.wramBytes (r.word 4) 160).take 64) (((s.wramBytes (r.word 4) 160).drop 64).take 32) ((s.wramBytes (r.word 4) 160).drop 96)) ∧
    (∃ (s : State) (s1 : State) (cut : Bool) (ty : Nat) (ws : List Word) (tag : Nat), s.ringTake 11 = (.packet cut ty ws, s1) ∧ tag = (ws.getD 0 0).toNat % 65536) := ⟨by refine ⟨((((tServe.setBit rCphCtl 0 true) : State).ringPacket 10 (0 : Nat) ([0, 0, 0, 0] : List Word)) : State), tCipherRequestIsPlaced_0_3a, (tCipherRequestIsPlaced_0_3a.ringDrain 10 : State), (false : Bool), (0 : Nat), ([0, 0, 0, 0] : List Word), ({ op := (0 : Nat), ws := ([0, 0, 0, 0] : List Word) } : CphReq), ?_, ?_, ?_, ?_, ?_⟩ <;> first | with_reducible rfl | decide +kernel,
    by refine ⟨({ tServe.sec with lanes := List.replicate 16 { run := some ({ op := 0, ws := [0x30000, 1, 0, 0, 0, 0, 0] }, .running) } } : Sec), (0 : Nat), ((({ tServe.sec with lanes := List.replicate 16 { run := some ({ op := 0, ws := [0x30000, 1, 0, 0, 0, 0, 0] }, .running) } } : Sec).suspendable (0 : Nat)).getD 0 : Nat), ?_⟩ <;> first | with_reducible rfl | decide +kernel,
    by refine ⟨(0 : Fin 16), ({ tServe with sysKey := none, sec.lanes := [{ run := some (({ op := 0, ws := [0x30000, 1, 0, 0, 0, 0, 0] } : CphReq), .loading) }] } : State), ({ op := 0, ws := [0x30000, 1, 0, 0, 0, 0, 0] } : CphReq), (.loading : LaneStep), ?_, ?_, ?_, ?_⟩ <;> first | with_reducible rfl | decide +kernel,
    by refine ⟨(0 : Fin 2), tCipherRequestIsPlaced_4_0a, ({ op := 10, ws := [0, 0, 0, 0, 0, 0, 0, 0, 0, 0, 0, 0, 0, 0, 0, 0, 0, 0] } : CphReq), (Config.ecdsaVerify ((tCipherRequestIsPlaced_4_0a.wramBytes (({ op := 10, ws := [0, 0, 0, 0, 0, 0, 0, 0, 0, 0, 0, 0, 0, 0, 0, 0, 0, 0] } : CphReq).word 4) 160).take 64) (((tCipherRequestIsPlaced_4_0a.wramBytes (({ op := 10, ws := [0, 0, 0, 0, 0, 0, 0, 0, 0, 0, 0, 0, 0, 0, 0, 0, 0, 0] } : CphReq).word 4) 160).drop 64).take 32) ((tCipherRequestIsPlaced_4_0a.wramBytes (({ op := 10, ws := [0, 0, 0, 0, 0, 0, 0, 0, 0, 0, 0, 0, 0, 0, 0, 0, 0, 0] } : CphReq).word 4) 160).drop 96) : Bool), ?_, ?_, ?_⟩ <;> first | with_reducible rfl | decide +kernel,
    by refine ⟨((tServe.ringPacket 11 (1 : Nat) ([0, 0, 0, 0] : List Word)) : State), ((((tServe.ringPacket 11 (1 : Nat) ([0, 0, 0, 0] : List Word)) : State).ringTake 11).2 : State), (false : Bool), (1 : Nat), ([0, 0, 0, 0] : List Word), ((([0, 0, 0, 0] : List Word).getD 0 0).toNat % 65536 : Nat), ?_, ?_⟩ <;> first | with_reducible rfl | decide +kernel⟩

theorem witness_MaskAndHealthTests :
    (∃ (s : State) (s1 : State), s.bitOf rKeyCtl 0 = true ∧ s1 = s.until (s.sec.lastMask + 2684354)) ∧
    (∃ (s : State), s.Inv ∧ s.pow.phase ≠ .off) ∧
    (∃ (s : State), s.Inv ∧ s.pow.phase ≠ .off ∧ s.sec.lcPend = none ∧ s.erg.keys = []) ∧
    (∃ (s : State) (p : LcPend), s.pow.phase ≠ .off ∧ s.sec.lcPend = some p ∧ p.due = true) := ⟨by refine ⟨((tServe.setBit rKeyCtl 0 true) : State), (((tServe.setBit rKeyCtl 0 true) : State).until (((tServe.setBit rKeyCtl 0 true) : State).sec.lastMask + 2684354) : State), ?_, ?_⟩ <;> first | with_reducible rfl | decide +kernel,
    by refine ⟨tServe, ?_, ?_⟩ <;> first | with_reducible rfl | decide +kernel | (unfold State.Inv; decide +kernel),
    by refine ⟨({ ({ tServe with sec.lcPend := none } : State) with erg.keys := [] } : State), ?_, ?_, ?_, ?_⟩ <;> first | with_reducible rfl | decide +kernel | (unfold State.Inv; decide +kernel),
    by refine ⟨({ tServe with sec.lcPend := some ({ ({ dst := .blank, ack := 0 } : LcPend) with due := true } : LcPend) } : State), ({ ({ dst := .blank, ack := 0 } : LcPend) with due := true } : LcPend), ?_, ?_, ?_⟩ <;> first | with_reducible rfl | decide +kernel⟩

theorem witness_TamperErasesAndHolds :
    (∃ (dt : Nat) (src : Fin 8) (s : State) (s1 : State), s.Inv ∧ s1 = s.advance dt ∧ s1.canAlarm src = true ∧ s1.onVbat = false) ∧
    (∃ (dt : Nat) (src : Fin 8) (s : State) (s1 : State), s.Inv ∧ s1 = s.advance dt ∧ s1.canAlarm src = true ∧ s1.onVbat = true) ∧
    (∃ (dt : Nat) (src : Fin 8) (s : State), (s.advance dt).canAlarm src = false) := ⟨by refine ⟨(1 : Nat), (0 : Fin 8), ((tServe.setReg rOasTampcfg 0xAAAA) : State), (((tServe.setReg rOasTampcfg 0xAAAA) : State).advance (1 : Nat) : State), ?_, ?_, ?_, ?_⟩ <;> first | with_reducible rfl | decide +kernel | (unfold State.Inv; decide +kernel),
    by refine ⟨(1 : Nat), (0 : Fin 8), (((tServe.setReg rOasTampcfg 0xAAAA).setBit rOasPwr 0 true) : State), ((((tServe.setReg rOasTampcfg 0xAAAA).setBit rOasPwr 0 true) : State).advance (1 : Nat) : State), ?_, ?_, ?_, ?_⟩ <;> first | with_reducible rfl | decide +kernel | (unfold State.Inv; decide +kernel),
    by refine ⟨(1 : Nat), (0 : Fin 8), tServe, ?_⟩ <;> first | with_reducible rfl | decide +kernel⟩

theorem witness_AlarmHoldAnswers :
    ∃ (addr : Nat) (port : Nat) (dgram : Bytes) (s : State) (d : Dgram) (code : Nat), s.pow.phase = .alarmHold ∧ s.bitOf rNetCtl 0 = true ∧ Dgram.ofBytes dgram = some d ∧ d.dtype = 3 ∧ d.keyId = 0 ∧ d.sysaddr = s.cfg.sysaddr ∧ code = fld 0 2 (sub 40 d.blen dgram) ∧ (code < 0xF01 ∨ 0xF05 < code ∨ s.lcSigned code (sub 8 64 (sub 40 d.blen dgram)) = false) := by refine ⟨(1 : Nat), (1 : Nat), ((tDg 3 (List.replicate 8 0)) : Bytes), ((({ tRec with pow.phase := .alarmHold } : State).setBit rNetCtl 0 true) : State), ((Dgram.ofBytes ((tDg 3 (List.replicate 8 0)) : Bytes)).getD { dtype := 0, sysaddr := 0 } : Dgram), (fld 0 2 (sub 40 ((Dgram.ofBytes ((tDg 3 (List.replicate 8 0)) : Bytes)).getD { dtype := 0, sysaddr := 0 } : Dgram).blen ((tDg 3 (List.replicate 8 0)) : Bytes)) : Nat), ?_, ?_, ?_, ?_, ?_, ?_, ?_, ?_⟩ <;> first | with_reducible rfl | decide +kernel

theorem witness_RosterCommandsChangeOneSlot :
    (∃ (src : Nat) (i : Fin 131072) (eui : Nat) (cls : Nat) (med : Nat) (grp : Nat) (wkey : Bytes) (body : Bytes) (s : State), s.Given src 0x01 (i + 131072) body ∧ s.Fenced i ∧ cls < 16 ∧ med < 3 ∧ grp < 2 ^ 14 ∧ eui < 2 ^ 64 ∧ (s.slot i).state = .free ∧ (s.slot i).fault = false ∧ s.inPool i = false ∧ s.findEui eui = none ∧ (∀ r ∈ s.erg.spilled, r.slot ≠ i) ∧ body = be 8 eui ++ le 1 cls ++ le 1 med ++ le 2 grp ++ fit 24 wkey) ∧
    (∃ (src : Nat) (i : Fin 131072) (cls : Nat) (grp : Nat) (s : State), s.Given src 0x04 (i + 131072) (le 1 cls ++ le 1 0 ++ le 2 grp) ∧ s.Fenced i ∧ cls < 16 ∧ grp < 2 ^ 14 ∧ ((s.slot i).state = .rostered ∨ (s.slot i).state = .joining ∨ (s.slot i).state = .active) ∧ (s.slot i).fault = false ∧ (∀ r ∈ s.erg.spilled, r.slot ≠ i)) ∧
    (∃ (src : Nat) (i : Fin 131072) (s : State), s.Given src 0x02 (i + 131072) [] ∧ s.Fenced i ∧ ((s.slot i).state = .rostered ∨ (s.slot i).state = .joining ∨ (s.slot i).state = .active) ∧ (s.slot i).fault = false ∧ s.ctx.pushesOf i = [] ∧ (∀ r ∈ s.erg.spilled, r.slot ≠ i)) ∧
    (∃ (src : Nat) (i : Fin 131072) (s : State), s.Given src 0x03 (i + 131072) [] ∧ s.Fenced i ∧ (s.slot i).state = .decom ∧ (s.slot i).fault = false ∧ (s.slot i).parks.length ≤ 1024 ∧ (∀ r ∈ s.erg.spilled, r.slot ≠ i)) := ⟨by refine ⟨(0 : Nat), (0 : Fin 131072), (1 : Nat), (1 : Nat), (1 : Nat), (1 : Nat), ([1, 2, 3] : Bytes), (be 8 (1 : Nat) ++ le 1 (1 : Nat) ++ le 1 (1 : Nat) ++ le 2 (1 : Nat) ++ fit 24 ([1, 2, 3] : Bytes) : Bytes), ((((tOpen.setSlot (0 : Fin 131072) { tOpen.slot (0 : Fin 131072) with state := .free }) : State).setSlot (0 : Fin 131072) { ((tOpen.setSlot (0 : Fin 131072) { tOpen.slot (0 : Fin 131072) with state := .free }) : State).slot (0 : Fin 131072) with fault := false }) : State), ?_, ?_, ?_, ?_, ?_, ?_, ?_, ?_, ?_, ?_, ?_, ?_⟩ <;> first | with_reducible rfl | decide +kernel | (unfold State.Fenced; decide +kernel) | (refine ⟨?_, ?_, ?_, ?_, ?_, ?_, ?_, ?_, ?_⟩ <;> first | decide +kernel | (unfold State.Inv; decide +kernel) | (constructor <;> decide +kernel)),
    by refine ⟨(0 : Nat), (0 : Fin 131072), (1 : Nat), (1 : Nat), ((((tOpen.setSlot (0 : Fin 131072) { tOpen.slot (0 : Fin 131072) with state := .rostered }) : State).setSlot (0 : Fin 131072) { ((tOpen.setSlot (0 : Fin 131072) { tOpen.slot (0 : Fin 131072) with state := .rostered }) : State).slot (0 : Fin 131072) with fault := false }) : State), ?_, ?_, ?_, ?_, ?_, ?_, ?_⟩ <;> first | with_reducible rfl | decide +kernel | (unfold State.Fenced; decide +kernel) | (refine ⟨?_, ?_, ?_, ?_, ?_, ?_, ?_, ?_, ?_⟩ <;> first | decide +kernel | (unfold State.Inv; decide +kernel) | (constructor <;> decide +kernel)),
    by refine ⟨(0 : Nat), (0 : Fin 131072), ((((tOpen.setSlot (0 : Fin 131072) { tOpen.slot (0 : Fin 131072) with state := .rostered }) : State).setSlot (0 : Fin 131072) { ((tOpen.setSlot (0 : Fin 131072) { tOpen.slot (0 : Fin 131072) with state := .rostered }) : State).slot (0 : Fin 131072) with fault := false }) : State), ?_, ?_, ?_, ?_, ?_, ?_⟩ <;> first | with_reducible rfl | decide +kernel | (unfold State.Fenced; decide +kernel) | (refine ⟨?_, ?_, ?_, ?_, ?_, ?_, ?_, ?_, ?_⟩ <;> first | decide +kernel | (unfold State.Inv; decide +kernel) | (constructor <;> decide +kernel)),
    by refine ⟨(0 : Nat), (0 : Fin 131072), ((((tOpen.setSlot (0 : Fin 131072) { tOpen.slot (0 : Fin 131072) with state := .decom }) : State).setSlot (0 : Fin 131072) { ((tOpen.setSlot (0 : Fin 131072) { tOpen.slot (0 : Fin 131072) with state := .decom }) : State).slot (0 : Fin 131072) with fault := false }) : State), ?_, ?_, ?_, ?_, ?_, ?_⟩ <;> first | with_reducible rfl | decide +kernel | (unfold State.Fenced; decide +kernel) | (refine ⟨?_, ?_, ?_, ?_, ?_, ?_, ?_, ?_, ?_⟩ <;> first | decide +kernel | (unfold State.Inv; decide +kernel) | (constructor <;> decide +kernel))⟩

theorem witness_UnitCommandsTakeEffect_1 :
    (∃ (src : Nat) (st : Nat) (s : State), s.Given src 0x10 0 [] ∧ st = s.givenStamp src 0x10 0 [] ∧ s.ctx.closesOpenAt s.seq.nextJsn < 2) ∧
    (∃ (src : Nat) (s : State), s.Given src 0x12 0 []) ∧
    (∃ (src : Nat) (time : Nat) (st : Nat) (s : State) (o : Origin), s.Given src 0x20 0 (le 8 time) ∧ st = s.givenStamp src 0x20 0 (le 8 time) ∧ o = s.givenOrigin src 0x20 0 (le 8 time) ∧ (o ≠ .maint ∨ s.sec.otp.lc = .open_) ∧ time < 2 ^ 64 ∧ ((time : Int) - st).natAbs < 2 ^ 35 * 2 ^ 28) ∧
    (∃ (src : Nat) (sel : Nat) (p0 : Nat) (p1 : Nat) (p2 : Nat) (p3 : Nat) (body : Bytes) (s : State), body = le 1 sel ++ le 1 p0 ++ le 1 p1 ++ le 1 p2 ++ le 1 p3 ++ le 3 0 ∧ s.Given src 0x30 0 body ∧ s.cfg.role ≠ .head ∧ sel < 256 ∧ p0 < 256 ∧ p1 < 256 ∧ p2 < 256 ∧ p3 < 256 ∧ (∀ f ∈ s.ctx.fences, f.jsn ≤ s.ctx.feeder.lastJsn)) ∧
    (∃ (src : Nat) (p : Nat) (s : State), s.Given src 0xF00 0 (le 1 p ++ le 3 0) ∧ p < 256) ∧
    (∃ (src : Nat) (s : State), s.Given src 0x13 0 []) := ⟨by refine ⟨(0 : Nat), (tOpen.givenStamp (0 : Nat) 0x10 0 [] : Nat), tOpen, ?_, ?_, ?_⟩ <;> first | with_reducible rfl | decide +kernel | (refine ⟨?_, ?_, ?_, ?_, ?_, ?_, ?_, ?_, ?_⟩ <;> first | decide +kernel | (unfold State.Inv; decide +kernel) | (constructor <;> decide +kernel)),
    by refine ⟨(0 : Nat), tOpen, ?_⟩ <;> first | with_reducible rfl | decide +kernel | (refine ⟨?_, ?_, ?_, ?_, ?_, ?_, ?_, ?_, ?_⟩ <;> first | decide +kernel | (unfold State.Inv; decide +kernel) | (constructor <;> decide +kernel)),
    by refine ⟨(0 : Nat), (1 : Nat), (tOpen.givenStamp (0 : Nat) 0x20 0 (le 8 (1 : Nat)) : Nat), tOpen, (tOpen.givenOrigin (0 : Nat) 0x20 0 (le 8 (1 : Nat)) : Origin), ?_, ?_, ?_, ?_, ?_, ?_⟩ <;> first | with_reducible rfl | decide +kernel | (refine ⟨?_, ?_, ?_, ?_, ?_, ?_, ?_, ?_, ?_⟩ <;> first | decide +kernel | (unfold State.Inv; decide +kernel) | (constructor <;> decide +kernel)),
    by refine ⟨(0 : Nat), (1 : Nat), (1 : Nat), (1 : Nat), (1 : Nat), (1 : Nat), (le 1 (1 : Nat) ++ le 1 (1 : Nat) ++ le 1 (1 : Nat) ++ le 1 (1 : Nat) ++ le 1 (1 : Nat) ++ le 3 0 : Bytes), tOpen, ?_, ?_, ?_, ?_, ?_, ?_, ?_, ?_, ?_⟩ <;> first | with_reducible rfl | decide +kernel | (refine ⟨?_, ?_, ?_, ?_, ?_, ?_, ?_, ?_, ?_⟩ <;> first | decide +kernel | (unfold State.Inv; decide +kernel) | (constructor <;> decide +kernel)),
    by refine ⟨(0 : Nat), (1 : Nat), tOpen, ?_, ?_⟩ <;> first | with_reducible rfl | decide +kernel | (refine ⟨?_, ?_, ?_, ?_, ?_, ?_, ?_, ?_, ?_⟩ <;> first | decide +kernel | (unfold State.Inv; decide +kernel) | (constructor <;> decide +kernel)),
    by refine ⟨(0 : Nat), tOpen, ?_⟩ <;> first | with_reducible rfl | decide +kernel | (refine ⟨?_, ?_, ?_, ?_, ?_, ?_, ?_, ?_, ?_⟩ <;> first | decide +kernel | (unfold State.Inv; decide +kernel) | (constructor <;> decide +kernel))⟩

theorem witness_UnitCommandsTakeEffect_2 :
    ∃ (src : Nat) (s : State) (s0 : State) (h : Hold), s0.Given src 0x13 0 [] ∧ s = { s0 with seq := { s0.seq with hold := some h } } := by refine ⟨(0 : Nat), ({ tOpen with seq := { tOpen.seq with hold := some ({ T := 0, endAt := 0 } : Hold) } } : State), tOpen, ({ T := 0, endAt := 0 } : Hold), ?_, ?_⟩ <;> first | with_reducible rfl | decide +kernel | (refine ⟨?_, ?_, ?_, ?_, ?_, ?_, ?_, ?_, ?_⟩ <;> first | decide +kernel | (unfold State.Inv; decide +kernel) | (constructor <;> decide +kernel))

/-- Of the witness below. -/
def tPushAndImageCommands_1a : Bytes := (({ ((({ tOpen with ctx.images := [{ image := (1 : Nat), blocks := 2, length := 200, digest := [], classMask := 1, key := [] }] } : State).ctx.image (1 : Nat)).getD { image := 0, blocks := 0, length := 0, digest := [], classMask := 0, key := [] } : EpImage) with data := ((({ tOpen with ctx.images := [{ image := (1 : Nat), blocks := 2, length := 200, digest := [], classMask := 1, key := [] }] } : State).ctx.image (1 : Nat)).getD { image := 0, blocks := 0, length := 0, digest := [], classMask := 0, key := [] } : EpImage).data ++ [((1 : Nat), fit 128 ([1, 2, 3] : Bytes))] } : EpImage).content : Bytes)

/-- Of the witness below. -/
def tPushAndImageCommands_1b : State := ({ tOpen with ctx.images := [{ image := (1 : Nat), blocks := 2, length := 200, digest := [], classMask := 1, key := [] }] } : State)

/-- Of the witness below. -/
def tPushAndImageCommands_2a : State := ({ tOpen with ctx.images := [{ image := (1 : Nat), blocks := 2, length := 200, digest := [], classMask := 1, key := [], state := .ready }] } : State)

/-- Of the witness below. -/
def tPushAndImageCommands_3a : State := ({ tOpen with ctx.images := [{ image := (1 : Nat), blocks := 2, length := 200, digest := [], classMask := 1, key := [], state := .ready }] } : State)

theorem witness_PushAndImageCommands :
    (∃ (src : Nat) (i : Fin 131072) (id : Nat) (att : Nat) (dt : Nat) (payload : Bytes) (body : Bytes) (s : State), body = le 2 id ++ le 1 att ++ le 1 dt ++ payload ∧ s.Given src 0x40 (i + 131072) body ∧ s.Fenced i ∧ 0 < id ∧ id < 0xF000 ∧ (s.slot i).fault = false ∧ dt < 256 ∧ (∀ r ∈ s.erg.spilled, r.slot ≠ i)) ∧
    (∃ (src : Nat) (image : Nat) (block : Nat) (data : Bytes) (body : Bytes) (content : Bytes) (s : State) (m : EpImage), body = le 2 image ++ le 2 block ++ fit 128 data ∧ s.Given src 0x42 0 body ∧ image < 65536 ∧ block < 65536 ∧ s.ctx.image image = some m ∧ block < m.blocks ∧ (m.data.any fun p => p.1 == block) = false ∧ content = ({ m with data := m.data ++ [(block, fit 128 data)] } : EpImage).content) ∧
    (∃ (src : Nat) (image : Nat) (round : Nat) (med : Nat) (first : Nat) (last : Nat) (ttl : Nat) (body : Bytes) (s : State) (m : EpImage), body = le 2 image ++ le 1 round ++ le 1 med ++ le 2 first ++ le 2 last ++ le 1 ttl ++ le 3 0 ∧ s.Given src 0x43 0 body ∧ image < 65536 ∧ round < 256 ∧ med ≤ 1 ∧ first ≤ last ∧ last < m.blocks ∧ last < 65536 ∧ ttl ≤ 7 ∧ s.ctx.image image = some m ∧ m.state = .ready) ∧
    (∃ (src : Nat) (image : Nat) (s : State) (m : EpImage), s.Given src 0x44 0 (le 2 image ++ le 2 0) ∧ image < 65536 ∧ s.ctx.image image = some m) := ⟨by refine ⟨(0 : Nat), (0 : Fin 131072), (1 : Nat), (1 : Nat), (1 : Nat), ([1, 2, 3] : Bytes), (le 2 (1 : Nat) ++ le 1 (1 : Nat) ++ le 1 (1 : Nat) ++ ([1, 2, 3] : Bytes) : Bytes), ((tOpen.setSlot (0 : Fin 131072) { tOpen.slot (0 : Fin 131072) with fault := false }) : State), ?_, ?_, ?_, ?_, ?_, ?_, ?_, ?_⟩ <;> first | with_reducible rfl | decide +kernel | (unfold State.Fenced; decide +kernel) | (refine ⟨?_, ?_, ?_, ?_, ?_, ?_, ?_, ?_, ?_⟩ <;> first | decide +kernel | (unfold State.Inv; decide +kernel) | (constructor <;> decide +kernel)),
    by refine ⟨(0 : Nat), (1 : Nat), (1 : Nat), ([1, 2, 3] : Bytes), (le 2 (1 : Nat) ++ le 2 (1 : Nat) ++ fit 128 ([1, 2, 3] : Bytes) : Bytes), tPushAndImageCommands_1a, tPushAndImageCommands_1b, ((tPushAndImageCommands_1b.ctx.image (1 : Nat)).getD { image := 0, blocks := 0, length := 0, digest := [], classMask := 0, key := [] } : EpImage), ?_, ?_, ?_, ?_, ?_, ?_, ?_, ?_⟩ <;> first | with_reducible rfl | decide +kernel | (refine ⟨?_, ?_, ?_, ?_, ?_, ?_, ?_, ?_, ?_⟩ <;> first | decide +kernel | (unfold State.Inv; decide +kernel) | (constructor <;> decide +kernel)),
    by refine ⟨(0 : Nat), (1 : Nat), (1 : Nat), (1 : Nat), (1 : Nat), (1 : Nat), (1 : Nat), (le 2 (1 : Nat) ++ le 1 (1 : Nat) ++ le 1 (1 : Nat) ++ le 2 (1 : Nat) ++ le 2 (1 : Nat) ++ le 1 (1 : Nat) ++ le 3 0 : Bytes), tPushAndImageCommands_2a, ((tPushAndImageCommands_2a.ctx.image (1 : Nat)).getD { image := 0, blocks := 0, length := 0, digest := [], classMask := 0, key := [] } : EpImage), ?_, ?_, ?_, ?_, ?_, ?_, ?_, ?_, ?_, ?_, ?_⟩ <;> first | with_reducible rfl | decide +kernel | (refine ⟨?_, ?_, ?_, ?_, ?_, ?_, ?_, ?_, ?_⟩ <;> first | decide +kernel | (unfold State.Inv; decide +kernel) | (constructor <;> decide +kernel)),
    by refine ⟨(0 : Nat), (1 : Nat), tPushAndImageCommands_3a, ((tPushAndImageCommands_3a.ctx.image (1 : Nat)).getD { image := 0, blocks := 0, length := 0, digest := [], classMask := 0, key := [] } : EpImage), ?_, ?_, ?_⟩ <;> first | with_reducible rfl | decide +kernel | (refine ⟨?_, ?_, ?_, ?_, ?_, ?_, ?_, ?_, ?_⟩ <;> first | decide +kernel | (unfold State.Inv; decide +kernel) | (constructor <;> decide +kernel))⟩

theorem witness_DrawingCommandsWaitForTheirDraw :
    (∃ (src : Nat) (s : State) (s1 : State), s.Given src 0x11 0 [] ∧ s.drawsServed = true ∧ s1 = s.journalInput (s.cmdInput src 0x11 0 []).2 ∧ s1.seqTakes = true ∧ s.sec.calls + 1 < 65536) ∧
    (∃ (src : Nat) (image : Nat) (blocks : Nat) (length : Nat) (mask : Nat) (digest : Bytes) (body : Bytes) (s : State) (s1 : State), body = le 2 image ++ le 2 blocks ++ le 4 length ++ fit 32 digest ++ le 2 mask ++ le 2 0 ∧ s.Given src 0x41 0 body ∧ image < 65536 ∧ 0 < blocks ∧ blocks ≤ 4096 ∧ (blocks - 1) * 128 < length ∧ length ≤ blocks * 128 ∧ mask < 65536 ∧ s.ctx.image image = none ∧ s.ctx.images.length < 16 ∧ (s.ctx.images.map fun m => m.blocks).foldl (· + ·) 0 + blocks ≤ s.med.caps.getD 3 0 * 8192 ∧ s.drawsServed = true ∧ s1 = s.journalInput (s.cmdInput src 0x41 0 body).2 ∧ s1.seqTakes = true ∧ s.sec.calls + 1 < 65536) := ⟨by refine ⟨(0 : Nat), tOpen, (tOpen.journalInput (tOpen.cmdInput (0 : Nat) 0x11 0 []).2 : State), ?_, ?_, ?_, ?_, ?_⟩ <;> first | with_reducible rfl | decide +kernel | (refine ⟨?_, ?_, ?_, ?_, ?_, ?_, ?_, ?_, ?_⟩ <;> first | decide +kernel | (unfold State.Inv; decide +kernel) | (constructor <;> decide +kernel)),
    by refine ⟨(0 : Nat), (1 : Nat), (1 : Nat), (1 : Nat), (1 : Nat), ([1, 2, 3] : Bytes), (le 2 (1 : Nat) ++ le 2 (1 : Nat) ++ le 4 (1 : Nat) ++ fit 32 ([1, 2, 3] : Bytes) ++ le 2 (1 : Nat) ++ le 2 0 : Bytes), ({ tOpen with med.caps := [8, 8, 8, 8, 8] } : State), (({ tOpen with med.caps := [8, 8, 8, 8, 8] } : State).journalInput (({ tOpen with med.caps := [8, 8, 8, 8, 8] } : State).cmdInput (0 : Nat) 0x41 0 (le 2 (1 : Nat) ++ le 2 (1 : Nat) ++ le 4 (1 : Nat) ++ fit 32 ([1, 2, 3] : Bytes) ++ le 2 (1 : Nat) ++ le 2 0 : Bytes)).2 : State), ?_, ?_, ?_, ?_, ?_, ?_, ?_, ?_, ?_, ?_, ?_, ?_, ?_, ?_, ?_⟩ <;> first | with_reducible rfl | decide +kernel | (refine ⟨?_, ?_, ?_, ?_, ?_, ?_, ?_, ?_, ?_⟩ <;> first | decide +kernel | (unfold State.Inv; decide +kernel) | (constructor <;> decide +kernel))⟩

theorem witness_LifeCycleCommandsNeedTheirSignature :
    (∃ (src : Nat) (sig : Bytes) (s : State), s.Given src 0xF01 0 (fit 64 sig) ∧ s.pow.phase ≠ .alarmHold ∧ s.pow.phase ≠ .keyless ∧ s.sec.otp.lc = .open_) ∧
    (∃ (src : Nat) (sig : Bytes) (s : State) (c : Instr) (code : Nat) (dst : LifeCycle), ((c = .lcField src sig ∧ code = 0xF02 ∧ dst = .field ∧ (s.sec.otp.lc = .return_ ∨ s.sec.otp.lc = .open_ ∧ s.sec.otp.commissioned = true)) ∨ (c = .lcReturn src sig ∧ code = 0xF03 ∧ dst = .return_ ∧ s.sec.otp.lc = .field) ∨ (c = .lcScrap src sig ∧ code = 0xF04 ∧ dst = .scrapped ∧ s.sec.otp.lc ≠ .scrapped)) ∧ s.pow.phase ≠ .alarmHold ∧ s.pow.phase ≠ .keyless ∧ s.Given src code 0 (fit 64 sig)) ∧
    (∃ (src : Nat) (sig : Bytes) (s : State) (c : Instr) (code : Nat) (dst : LifeCycle), ((c = .lcField src sig ∧ code = 0xF02 ∧ dst = .field ∧ (s.sec.otp.lc = .return_ ∨ s.sec.otp.lc = .open_ ∧ s.sec.otp.commissioned = true)) ∨ (c = .lcReturn src sig ∧ code = 0xF03 ∧ dst = .return_ ∧ s.sec.otp.lc = .field) ∨ (c = .lcScrap src sig ∧ code = 0xF04 ∧ dst = .scrapped ∧ s.sec.otp.lc ≠ .scrapped)) ∧ (s.pow.phase = .alarmHold ∨ s.pow.phase = .keyless) ∧ s.lcSigned code (fit 64 sig) = false) ∧
    (∃ (src : Nat) (sig : Bytes) (s : State), s.Inv ∧ s.pow.phase = .alarmHold) := ⟨by refine ⟨(0 : Nat), ([1, 2, 3] : Bytes), ({ tOpen with sec.otp.lc := .open_ } : State), ?_, ?_, ?_, ?_⟩ <;> first | with_reducible rfl | decide +kernel | (refine ⟨?_, ?_, ?_, ?_, ?_, ?_, ?_, ?_, ?_⟩ <;> first | decide +kernel | (unfold State.Inv; decide +kernel) | (constructor <;> decide +kernel)),
    by refine ⟨(1 : Nat), ([1, 2, 3] : Bytes), ({ tServe with sec.otp.lc := .field } : State), ((.lcReturn (1 : Nat) ([1, 2, 3] : Bytes)) : Instr), (0xF03 : Nat), (.return_ : LifeCycle), ?_, ?_, ?_, ?_⟩ <;> first | with_reducible rfl | decide +kernel | (refine ⟨?_, ?_, ?_, ?_, ?_, ?_, ?_, ?_, ?_⟩ <;> first | decide +kernel | (unfold State.Inv; decide +kernel) | (constructor <;> decide +kernel)),
    by refine ⟨(1 : Nat), ([1, 2, 3] : Bytes), ({ ({ tServe with sec.otp.lc := .field } : State) with pow.phase := .alarmHold } : State), ((.lcReturn (1 : Nat) ([1, 2, 3] : Bytes)) : Instr), (0xF03 : Nat), (.return_ : LifeCycle), ?_, ?_, ?_⟩ <;> first | with_reducible rfl | decide +kernel,
    by refine ⟨(1 : Nat), ([1, 2, 3] : Bytes), ({ tServe with pow.phase := .alarmHold } : State), ?_, ?_⟩ <;> first | with_reducible rfl | decide +kernel | (unfold State.Inv; decide +kernel)⟩

/-- Of the witness below. -/
def tFeederReportsBlocksStepsAndTamper_1a : State := ({ ({ tServe with fe.run := true, fe.fresh := false, fe.noZc := true, fe.start := 100 * 268435456, fe.phases := [{}, {}, {}], fe.cut := some (5, 5) } : State) with fe.run := true } : State)

/-- Of the witness below. -/
def tFeederReportsBlocksStepsAndTamper_1b : State := ((tFeederReportsBlocksStepsAndTamper_1a.feClock.feTake (⟨[1, 2, 3, 4, 5, 6, 7]⟩ : FeSample) : State).feCross ((tFeederReportsBlocksStepsAndTamper_1a.feClock.feTake (⟨[1, 2, 3, 4, 5, 6, 7]⟩ : FeSample) : State).feStamp : Nat) : State)

/-- Of the witness below. -/
def tFeederReportsBlocksStepsAndTamper_2a : State := ({ ({ ({ ({ tServe with fe.run := true, fe.mcyc := 20000, fe.phases := List.replicate 3 { armed := true, rise := some (0, 7), acc := {} } } : State) with fe.run := true } : State) with fe.phases := ({ ({ tServe with fe.run := true, fe.mcyc := 20000, fe.phases := List.replicate 3 { armed := true, rise := some (0, 7), acc := {} } } : State) with fe.run := true } : State).fe.phases.set (0 : Fin 3) { ({ ({ tServe with fe.run := true, fe.mcyc := 20000, fe.phases := List.replicate 3 { armed := true, rise := some (0, 7), acc := {} } } : State) with fe.run := true } : State).fePhase (0 : Fin 3) with armed := true } } : State) with fe.phases := ({ ({ ({ tServe with fe.run := true, fe.mcyc := 20000, fe.phases := List.replicate 3 { armed := true, rise := some (0, 7), acc := {} } } : State) with fe.run := true } : State) with fe.phases := ({ ({ tServe with fe.run := true, fe.mcyc := 20000, fe.phases := List.replicate 3 { armed := true, rise := some (0, 7), acc := {} } } : State) with fe.run := true } : State).fe.phases.set (0 : Fin 3) { ({ ({ tServe with fe.run := true, fe.mcyc := 20000, fe.phases := List.replicate 3 { armed := true, rise := some (0, 7), acc := {} } } : State) with fe.run := true } : State).fePhase (0 : Fin 3) with armed := true } } : State).fe.phases.set (0 : Fin 3) { ({ ({ ({ tServe with fe.run := true, fe.mcyc := 20000, fe.phases := List.replicate 3 { armed := true, rise := some (0, 7), acc := {} } } : State) with fe.run := true } : State) with fe.phases := ({ ({ tServe with fe.run := true, fe.mcyc := 20000, fe.phases := List.replicate 3 { armed := true, rise := some (0, 7), acc := {} } } : State) with fe.run := true } : State).fe.phases.set (0 : Fin 3) { ({ ({ tServe with fe.run := true, fe.mcyc := 20000, fe.phases := List.replicate 3 { armed := true, rise := some (0, 7), acc := {} } } : State) with fe.run := true } : State).fePhase (0 : Fin 3) with armed := true } } : State).fePhase (0 : Fin 3) with rise := some ((0 : Nat), (7 : Nat)) } } : State)

/-- Of the witness below. -/
def tFeederReportsBlocksStepsAndTamper_4a : State := ({ ({ ((tServe.setBit rMtrCtl 4 true).setFld rMtrRev 15 0 5) with fe.run := true, fe.phases := List.replicate 3 { rev := true }, fe.conds := List.replicate 5 { run := 10 ^ 12 } } : State) with fe.run := true } : State)

/-- Of the witness below. -/
def tFeederReportsBlocksStepsAndTamper_4b : State := (((((tFeederReportsBlocksStepsAndTamper_4a.feClock.feTake (⟨[1, 2, 3, 4, 5, 6, 7]⟩ : FeSample) : State).feCross ((tFeederReportsBlocksStepsAndTamper_4a.feClock.feTake (⟨[1, 2, 3, 4, 5, 6, 7]⟩ : FeSample) : State).feStamp : Nat)).feEdge ((tFeederReportsBlocksStepsAndTamper_4a.feClock.feTake (⟨[1, 2, 3, 4, 5, 6, 7]⟩ : FeSample) : State).feStamp : Nat)).feOver (⟨[1, 2, 3, 4, 5, 6, 7]⟩ : FeSample) ((tFeederReportsBlocksStepsAndTamper_4a.feClock.feTake (⟨[1, 2, 3, 4, 5, 6, 7]⟩ : FeSample) : State).feStamp : Nat)).feAdd : State)

theorem witness_FeederReportsBlocksStepsAndTamper_1 :
    (∃ (xs : List FeSample) (p : Fin 3) (q : Fin 5) (s : State) (c : Instr), s.Inv ∧ c ∈ [.feederBlockEnd xs, .feederCycle p xs, .noZc xs, .tamperCondition q xs, .settlingEnd xs]) ∧
    (∃ (x : FeSample) (xs : List FeSample) (s : State) (s1 : State) (s2 : State) (st : Nat) (stop : Nat) (short : Bool), s.fe.run = true ∧ s1 = s.feClock.feTake x ∧ st = s1.feStamp ∧ s2 = s1.feCross st ∧ s2.fe.fresh = false ∧ s2.blockDue st = some (stop, short)) ∧
    (∃ (p : Fin 3) (x : FeSample) (xs : List FeSample) (s : State) (s1 : State) (st : Nat) (m0 : Nat) (start : Nat) (a : FeAcc) (ok : Bool) (pc : Int), s.fe.run = true ∧ s.fe.phases.length = 3 ∧ s1 = s.feClock.feTake x ∧ st = s1.feStamp ∧ (s.fePhase p).armed = true ∧ 0 ≤ s1.feNow p ∧ (s.fePhase p).rise = some (m0, start) ∧ riseOk (s1.fe.mcyc - m0) = true ∧ a = (s.fePhase p).acc ∧ ok = decide (s.fld rMtrVnom 19 0 * s.fld rMtrVnom 29 20 ≤ rmsOf a.v2 a.n vUnit * 1000) ∧ pc = a.p.tdiv ((a.n : Int) * (pUnit : Int) * 1000000)) ∧
    (∃ (s : State) (x : FePhase) (c : StepCand) (pc : Int) (dp : Int) (start : Nat), x.cand = some c ∧ c.post.length + 1 = windowCyc (s.fld rMtrStep0 31 24) ∧ dp = (meanDiff (c.post ++ [pc]) c.pre).tdiv ((c.post.length + 1) * c.pre.length)) ∧
    (∃ (c : Fin 5) (x : FeSample) (xs : List FeSample) (s : State) (s1 : State) (s3 : State) (st : Nat) (on : Bool), s.Inv ∧ s.fe.run = true ∧ s.fe.phases.length = 3 ∧ s1 = s.feClock.feTake x ∧ st = s1.feStamp ∧ s3 = (((s1.feCross st).feEdge st).feOver x st).feAdd ∧ s3.condOn c = true ∧ s3.fe.unsettled = false ∧ on = (s3.fe.conds.getD c {}).holds ∧ on = !s.condSet c ∧ s.condSecs c * 1024000 ≤ (s3.fe.conds.getD c {}).run + s3.feDec) ∧
    (∃ (x : FeSample) (xs : List FeSample) (s : State), s.fe.run = true ∧ s.fe.unsettled = true ∧ s.fe.settleM ≤ s.fe.mcyc + s.feDec ∧ s.switchDue = false) := ⟨by refine ⟨([] : List FeSample), (0 : Fin 3), (0 : Fin 5), tServe, ((.feederBlockEnd ([] : List FeSample)) : Instr), ?_, ?_⟩ <;> first | with_reducible rfl | decide +kernel | (unfold State.Inv; decide +kernel),
    by refine ⟨(⟨[1, 2, 3, 4, 5, 6, 7]⟩ : FeSample), ([] : List FeSample), tFeederReportsBlocksStepsAndTamper_1a, (tFeederReportsBlocksStepsAndTamper_1a.feClock.feTake (⟨[1, 2, 3, 4, 5, 6, 7]⟩ : FeSample) : State), tFeederReportsBlocksStepsAndTamper_1b, ((tFeederReportsBlocksStepsAndTamper_1a.feClock.feTake (⟨[1, 2, 3, 4, 5, 6, 7]⟩ : FeSample) : State).feStamp : Nat), (((tFeederReportsBlocksStepsAndTamper_1b.blockDue ((tFeederReportsBlocksStepsAndTamper_1a.feClock.feTake (⟨[1, 2, 3, 4, 5, 6, 7]⟩ : FeSample) : State).feStamp : Nat)).getD (0, false)).1 : Nat), (((tFeederReportsBlocksStepsAndTamper_1b.blockDue ((tFeederReportsBlocksStepsAndTamper_1a.feClock.feTake (⟨[1, 2, 3, 4, 5, 6, 7]⟩ : FeSample) : State).feStamp : Nat)).getD (0, false)).2 : Bool), ?_, ?_, ?_, ?_, ?_, ?_⟩ <;> first | with_reducible rfl | decide +kernel,
    by refine ⟨(0 : Fin 3), (⟨[1, 2, 3, 4, 5, 6, 7]⟩ : FeSample), ([] : List FeSample), tFeederReportsBlocksStepsAndTamper_2a, (tFeederReportsBlocksStepsAndTamper_2a.feClock.feTake (⟨[1, 2, 3, 4, 5, 6, 7]⟩ : FeSample) : State), ((tFeederReportsBlocksStepsAndTamper_2a.feClock.feTake (⟨[1, 2, 3, 4, 5, 6, 7]⟩ : FeSample) : State).feStamp : Nat), (0 : Nat), (7 : Nat), ((tFeederReportsBlocksStepsAndTamper_2a.fePhase (0 : Fin 3)).acc : FeAcc), (decide (tFeederReportsBlocksStepsAndTamper_2a.fld rMtrVnom 19 0 * tFeederReportsBlocksStepsAndTamper_2a.fld rMtrVnom 29 20 ≤ rmsOf ((tFeederReportsBlocksStepsAndTamper_2a.fePhase (0 : Fin 3)).acc : FeAcc).v2 ((tFeederReportsBlocksStepsAndTamper_2a.fePhase (0 : Fin 3)).acc : FeAcc).n vUnit * 1000) : Bool), (((tFeederReportsBlocksStepsAndTamper_2a.fePhase (0 : Fin 3)).acc : FeAcc).p.tdiv ((((tFeederReportsBlocksStepsAndTamper_2a.fePhase (0 : Fin 3)).acc : FeAcc).n : Int) * (pUnit : Int) * 1000000) : Int), ?_, ?_, ?_, ?_, ?_, ?_, ?_, ?_, ?_, ?_, ?_⟩ <;> first | with_reducible rfl | decide +kernel,
    by refine ⟨((tServe.setFld rMtrStep0 31 24 1) : State), ({ ({ cand := some ({ instant := 5, pre := [1], bseq := 0 } : StepCand) } : FePhase) with cand := some ({ instant := 5, pre := [1], bseq := 0 } : StepCand) } : FePhase), ({ instant := 5, pre := [1], bseq := 0 } : StepCand), (5 : Int), ((meanDiff (({ instant := 5, pre := [1], bseq := 0 } : StepCand).post ++ [(5 : Int)]) ({ instant := 5, pre := [1], bseq := 0 } : StepCand).pre).tdiv ((({ instant := 5, pre := [1], bseq := 0 } : StepCand).post.length + 1) * ({ instant := 5, pre := [1], bseq := 0 } : StepCand).pre.length) : Int), (1 : Nat), ?_, ?_, ?_⟩ <;> first | with_reducible rfl | decide +kernel,
    by refine ⟨(0 : Fin 5), (⟨[1, 2, 3, 4, 5, 6, 7]⟩ : FeSample), ([] : List FeSample), tFeederReportsBlocksStepsAndTamper_4a, (tFeederReportsBlocksStepsAndTamper_4a.feClock.feTake (⟨[1, 2, 3, 4, 5, 6, 7]⟩ : FeSample) : State), tFeederReportsBlocksStepsAndTamper_4b, ((tFeederReportsBlocksStepsAndTamper_4a.feClock.feTake (⟨[1, 2, 3, 4, 5, 6, 7]⟩ : FeSample) : State).feStamp : Nat), ((tFeederReportsBlocksStepsAndTamper_4b.fe.conds.getD (0 : Fin 5) {}).holds : Bool), ?_, ?_, ?_, ?_, ?_, ?_, ?_, ?_, ?_, ?_, ?_⟩ <;> first | with_reducible rfl | decide +kernel | (unfold State.Inv; decide +kernel),
    by refine ⟨(⟨[1, 2, 3, 4, 5, 6, 7]⟩ : FeSample), ([] : List FeSample), ({ ({ tServe with fe.run := true } : State) with fe.unsettled := true } : State), ?_, ?_, ?_, ?_⟩ <;> first | with_reducible rfl | decide +kernel⟩

/-- Of the witness below. -/
def tFeederReportsBlocksStepsAndTamper_6a : State := (({ ({ tServe with fe.run := true } : State) with fe.noZc := false } : State).feClock.feTake (⟨[1, 2, 3, 4, 5, 6, 7]⟩ : FeSample) : State)

theorem witness_FeederReportsBlocksStepsAndTamper_2 :
    (∃ (x : FeSample) (xs : List FeSample) (s : State) (s1 : State) (st : Nat), s.Inv ∧ s.fe.run = true ∧ s.fe.noZc = false ∧ s1 = s.feClock.feTake x ∧ st = s1.feStamp ∧ ((List.range 3).foldl (fun a p => (a.feRise st p).feMissing p) s1).fe.refPhase = none) ∧
    (∃ (s : State) (ty : Nat) (ph : Nat) (instant : Nat) (bseq : Nat) (dp : Int) (v1 : Int) (v2 : Int), s.seq.holder = true) := ⟨by refine ⟨(⟨[1, 2, 3, 4, 5, 6, 7]⟩ : FeSample), ([] : List FeSample), ({ ({ tServe with fe.run := true } : State) with fe.noZc := false } : State), tFeederReportsBlocksStepsAndTamper_6a, (tFeederReportsBlocksStepsAndTamper_6a.feStamp : Nat), ?_, ?_, ?_, ?_, ?_, ?_⟩ <;> first | with_reducible rfl | decide +kernel | (unfold State.Inv; decide +kernel),
    by refine ⟨({ tServe with seq.holder := true } : State), (1 : Nat), (1 : Nat), (1 : Nat), (1 : Nat), (5 : Int), (5 : Int), (5 : Int), ?_⟩ <;> first | with_reducible rfl | decide +kernel⟩

/-- Of the witness below. -/
def tOnlyTheFirstDurableOutputEnters_0a : State := ({ tServe with erg.outq := [{ ojsn := 2, dep := 2, key := .slot 0, idx := 0, rtype := 2, bytes := List.replicate 40 1 }] } : State)

/-- Of the witness below. -/
def tOnlyTheFirstDurableOutputEnters_1a : State := ({ ({ tServe with erg.outq := [{ ojsn := 2, dep := 2, key := .slot 0, idx := 0, rtype := 2, bytes := List.replicate 40 1 }] } : State) with sec.lcPend := none } : State)

/-- Of the witness below. -/
def tOnlyTheFirstDurableOutputEnters_2a : State := ({ ((({ tServe with erg.outq := [{ ojsn := 2, dep := 2, key := .slot 0, idx := 0, rtype := 8, bytes := List.replicate 40 1 }] } : State).setBit rEvrCtl 0 true) : State) with sec.lcPend := none } : State)

/-- Of the witness below. -/
def tOnlyTheFirstDurableOutputEnters_3a : State := ({ ({ tServe with erg.outq := [{ ojsn := 2, dep := 2, key := .slot 0, idx := 0, rtype := 2, bytes := List.replicate 40 1, dest := .down }] } : State) with sec.lcPend := none } : State)

/-- Of the witness below. -/
def tOnlyTheFirstDurableOutputEnters_4a : State := ({ tServe with med.caps := [], erg.outq := [{ ojsn := 2, dep := 2, key := .slot 0, idx := 0, rtype := 2, bytes := List.replicate 40 1 }] } : State)

/-- Of the witness below. -/
def tOnlyTheFirstDurableOutputEnters_5a : State := ({ ({ tServe with sec.lcPend := some ({ dst := .field, ack := 2 } : LcPend), erg.outq := [{ ojsn := 2, dep := 2, key := .slot 0, idx := 0, rtype := 6, bytes := List.replicate 40 1 }] } : State) with sec.lcPend := some ({ dst := .field, ack := 2 } : LcPend) } : State)

theorem witness_OnlyTheFirstDurableOutputEnters_1 :
    (∃ (s : State) (o : Output), s.nextRelease = some o ∧ o ∈ s.erg.outq ∧ o.ojsn ≤ s.seq.durable ∧ o.dep ≤ s.seq.durable ∧ o.ojsn ≤ s.cwm ∧ ∀ p ∈ s.erg.outq, p.ojsn ≤ s.cwm) ∧
    (∃ (s : State) (o : Output), s.nextRelease = some o ∧ o.dest = .stream ∧ s.oboxFull = false ∧ (o.rtype ≠ 8 ∨ s.bitOf rEvrCtl 0 = false) ∧ s.sec.lcPend = none) ∧
    (∃ (s : State) (o : Output), s.nextRelease = some o ∧ o.dest = .stream ∧ s.oboxFull = false ∧ o.rtype = 8 ∧ s.bitOf rEvrCtl 0 = true ∧ s.sec.lcPend = none) ∧
    (∃ (s : State) (o : Output), s.nextRelease = some o ∧ o.dest ≠ .stream ∧ s.sec.lcPend = none) ∧
    (∃ (s : State) (o : Output), s.nextRelease = some o ∧ o.dest = .stream ∧ s.oboxFull = true) ∧
    (∃ (s : State) (o : Output) (p : LcPend), s.nextRelease = some o ∧ o.dest = .stream ∧ o.rtype = 6 ∧ s.oboxFull = false ∧ s.sec.lcPend = some p ∧ o.ojsn = p.ack) := ⟨by refine ⟨tOnlyTheFirstDurableOutputEnters_0a, ((tOnlyTheFirstDurableOutputEnters_0a.nextRelease).getD { ojsn := 0, dep := 0, key := (.slot 0), idx := 0, rtype := 0, bytes := [] } : Output), ?_, ?_⟩ <;> first | with_reducible rfl | decide +kernel,
    by refine ⟨tOnlyTheFirstDurableOutputEnters_1a, ((tOnlyTheFirstDurableOutputEnters_1a.nextRelease).getD { ojsn := 0, dep := 0, key := (.slot 0), idx := 0, rtype := 0, bytes := [] } : Output), ?_, ?_, ?_, ?_, ?_⟩ <;> first | with_reducible rfl | decide +kernel,
    by refine ⟨tOnlyTheFirstDurableOutputEnters_2a, ((tOnlyTheFirstDurableOutputEnters_2a.nextRelease).getD { ojsn := 0, dep := 0, key := (.slot 0), idx := 0, rtype := 0, bytes := [] } : Output), ?_, ?_, ?_, ?_, ?_, ?_⟩ <;> first | with_reducible rfl | decide +kernel,
    by refine ⟨tOnlyTheFirstDurableOutputEnters_3a, ((tOnlyTheFirstDurableOutputEnters_3a.nextRelease).getD { ojsn := 0, dep := 0, key := (.slot 0), idx := 0, rtype := 0, bytes := [] } : Output), ?_, ?_, ?_⟩ <;> first | with_reducible rfl | decide +kernel,
    by refine ⟨tOnlyTheFirstDurableOutputEnters_4a, ((tOnlyTheFirstDurableOutputEnters_4a.nextRelease).getD { ojsn := 0, dep := 0, key := (.slot 0), idx := 0, rtype := 0, bytes := [] } : Output), ?_, ?_, ?_⟩ <;> first | with_reducible rfl | decide +kernel,
    by refine ⟨tOnlyTheFirstDurableOutputEnters_5a, ((tOnlyTheFirstDurableOutputEnters_5a.nextRelease).getD { ojsn := 0, dep := 0, key := (.slot 0), idx := 0, rtype := 0, bytes := [] } : Output), ({ dst := .field, ack := 2 } : LcPend), ?_, ?_, ?_, ?_, ?_, ?_⟩ <;> first | with_reducible rfl | decide +kernel⟩

theorem witness_OnlyTheFirstDurableOutputEnters_2 :
    ∃ (s : State), s.nextRelease = none := by refine ⟨tServe, ?_⟩ <;> first | with_reducible rfl | decide +kernel

theorem witness_BatchesGoOutWithinTheWindow_1 :
    (∃ (n : Nat) (k : Nat) (from_ : Nat) (body : Bytes) (s : State), s.Inv ∧ s.netTx = true ∧ s.sysKey.isSome = true ∧ from_ = max s.net.sentTo s.ctx.acked ∧ packBatch (min n 255) [] ((s.obox.filter fun r => decide (from_ ≤ r.rsn)).map fun r => (r.rtype, r.bytes)) = (k, body) ∧ 0 < k ∧ s.net.sent.length < s.fld rNetWin 8 0) ∧
    (∃ (diag : Bool) (n : Nat) (s : State), s.netTx = true ∧ s.fld rNetWin 8 0 ≤ (if diag then s.net.sentDiag.length else s.net.sent.length)) ∧
    (∃ (n : Nat) (k : Nat) (from_ : Nat) (body : Bytes) (s : State), s.netTx = true ∧ s.sysKey.isSome = true ∧ from_ = max s.net.diagSent s.net.diagAck ∧ packBatch (min n 255) [] ((s.net.diag.filter fun r => decide (from_ ≤ r.esn)).map fun r => (r.rtype, r.bytes)) = (k, body) ∧ 0 < k ∧ s.net.sentDiag.length < s.fld rNetWin 8 0) ∧
    (∃ (s : State) (s1 : State), s.net.sent ≠ [] ∧ s1 = s.until (s.net.rtoFrom + s.fld rNetWin 31 16 * 268435456 / 1000)) ∧
    (∃ (s : State) (s1 : State), s.net.sentDiag ≠ [] ∧ s1 = s.until (s.net.rtoDiag + s.fld rNetWin 31 16 * 268435456 / 1000)) ∧
    (∃ (s : State) (b : BackPend) (a : Nat × Nat), (s.net.backs.find? fun b => decide (b.jsn ≤ s.seq.durable)) = some b ∧ s.netTx = true ∧ b.dst = some a) := ⟨by refine ⟨(1 : Nat), (1 : Nat), (max ({ (tServe.setFld rNetWin 8 0 4) with obox := [{ rsn := 0, rtype := 2, bytes := [1, 2, 3, 4] }] } : State).net.sentTo ({ (tServe.setFld rNetWin 8 0 4) with obox := [{ rsn := 0, rtype := 2, bytes := [1, 2, 3, 4] }] } : State).ctx.acked : Nat), ((packBatch (min (1 : Nat) 255) [] ((({ (tServe.setFld rNetWin 8 0 4) with obox := [{ rsn := 0, rtype := 2, bytes := [1, 2, 3, 4] }] } : State).obox.filter fun r => decide ((max ({ (tServe.setFld rNetWin 8 0 4) with obox := [{ rsn := 0, rtype := 2, bytes := [1, 2, 3, 4] }] } : State).net.sentTo ({ (tServe.setFld rNetWin 8 0 4) with obox := [{ rsn := 0, rtype := 2, bytes := [1, 2, 3, 4] }] } : State).ctx.acked : Nat) ≤ r.rsn)).map fun r => (r.rtype, r.bytes))).2 : Bytes), ({ (tServe.setFld rNetWin 8 0 4) with obox := [{ rsn := 0, rtype := 2, bytes := [1, 2, 3, 4] }] } : State), ?_, ?_, ?_, ?_, ?_, ?_, ?_⟩ <;> first | with_reducible rfl | decide +kernel | (unfold State.Inv; decide +kernel),
    by refine ⟨(true : Bool), (1 : Nat), ((tServe.setReg rNetWin 0) : State), ?_, ?_⟩ <;> first | with_reducible rfl | decide +kernel,
    by refine ⟨(1 : Nat), (1 : Nat), (max ({ (tServe.setFld rNetWin 8 0 4) with net.diag := [{ esn := 0, rtype := 2, bytes := [1, 2, 3, 4] }] } : State).net.diagSent ({ (tServe.setFld rNetWin 8 0 4) with net.diag := [{ esn := 0, rtype := 2, bytes := [1, 2, 3, 4] }] } : State).net.diagAck : Nat), ((packBatch (min (1 : Nat) 255) [] ((({ (tServe.setFld rNetWin 8 0 4) with net.diag := [{ esn := 0, rtype := 2, bytes := [1, 2, 3, 4] }] } : State).net.diag.filter fun r => decide ((max ({ (tServe.setFld rNetWin 8 0 4) with net.diag := [{ esn := 0, rtype := 2, bytes := [1, 2, 3, 4] }] } : State).net.diagSent ({ (tServe.setFld rNetWin 8 0 4) with net.diag := [{ esn := 0, rtype := 2, bytes := [1, 2, 3, 4] }] } : State).net.diagAck : Nat) ≤ r.esn)).map fun r => (r.rtype, r.bytes))).2 : Bytes), ({ (tServe.setFld rNetWin 8 0 4) with net.diag := [{ esn := 0, rtype := 2, bytes := [1, 2, 3, 4] }] } : State), ?_, ?_, ?_, ?_, ?_, ?_⟩ <;> first | with_reducible rfl | decide +kernel,
    by refine ⟨({ tServe with net.sent := [{ first := 0, count := 1 }] } : State), (({ tServe with net.sent := [{ first := 0, count := 1 }] } : State).until (({ tServe with net.sent := [{ first := 0, count := 1 }] } : State).net.rtoFrom + ({ tServe with net.sent := [{ first := 0, count := 1 }] } : State).fld rNetWin 31 16 * 268435456 / 1000) : State), ?_, ?_⟩ <;> first | with_reducible rfl | decide +kernel,
    by refine ⟨({ tServe with net.sentDiag := [{ first := 0, count := 1 }] } : State), (({ tServe with net.sentDiag := [{ first := 0, count := 1 }] } : State).until (({ tServe with net.sentDiag := [{ first := 0, count := 1 }] } : State).net.rtoDiag + ({ tServe with net.sentDiag := [{ first := 0, count := 1 }] } : State).fld rNetWin 31 16 * 268435456 / 1000) : State), ?_, ?_⟩ <;> first | with_reducible rfl | decide +kernel,
    by refine ⟨({ tServe with net.backs := [({ ({ jsn := 2, sysaddr := 5, diag := false, session := 0, first := 0, dst := some (1, 2) } : BackPend) with dst := some ((0, 0) : Nat × Nat) } : BackPend)] } : State), ({ ({ jsn := 2, sysaddr := 5, diag := false, session := 0, first := 0, dst := some (1, 2) } : BackPend) with dst := some ((0, 0) : Nat × Nat) } : BackPend), ((0, 0) : Nat × Nat), ?_, ?_, ?_⟩ <;> first | with_reducible rfl | decide +kernel⟩

theorem witness_BatchesGoOutWithinTheWindow_2 :
    ∃ (s : State), (∀ b ∈ s.net.backs, s.seq.durable < b.jsn) := by refine ⟨tServe, ?_⟩ <;> first | with_reducible rfl | decide +kernel

/-- Of the witness below. -/
def tDatagramsActAtTheirCommit_0a : State := ({ ({ tServe with erg.keys := [{ key := (.sys 3), owner := 0, tasks := [({ ({ ({ ({ ({ ({ ({ jsn := 8, key := .sys 3, entry := { kind := .netPkt, jsn := 8, stamp := 5, payload := (le 4 dgramMagic ++ le 1 2 ++ le 1 1 ++ le 1 0 ++ le 1 1 ++ le 4 5 ++ le 4 65536 ++ le 16 0 ++ le 2 8 ++ le 6 0 ++ le 24 0) }, phase := .committing } : Task) with key := (.sys 3) } : Task) with key := .sys 3 } : Task) with work := .entry } : Task) with phase := .committing } : Task) with entry.kind := .netPkt } : Task) with draws := [] } : Task)] }] } : State) with boot.restartDue := false } : State)

/-- Of the witness below. -/
def tDatagramsActAtTheirCommit_1a : State := ({ ({ tServe with erg.keys := [{ key := (.sys 3), owner := 0, tasks := [({ ({ ({ ({ ({ ({ ({ jsn := 8, key := .sys 3, entry := { kind := .netPkt, jsn := 8, stamp := 5, payload := (le 4 dgramMagic ++ le 1 3 ++ le 1 1 ++ le 1 0 ++ le 1 1 ++ le 4 5 ++ le 4 65536 ++ le 16 0 ++ le 2 8 ++ le 6 0 ++ le 24 0) }, phase := .committing } : Task) with key := (.sys 3) } : Task) with key := .sys 3 } : Task) with work := .entry } : Task) with phase := .committing } : Task) with entry.kind := .netPkt } : Task) with draws := [] } : Task)] }] } : State) with boot.restartDue := false } : State)

/-- Of the witness below. -/
def tDatagramsActAtTheirCommit_2a : State := ({ ({ ({ tServe with cfg.role := .head } : State) with erg.keys := [{ key := (.sys 7), owner := 0, tasks := [({ ({ ({ ({ ({ ({ ({ jsn := 8, key := .sys 7, entry := { kind := .netPkt, jsn := 8, stamp := 5, payload := (le 4 dgramMagic ++ le 1 1 ++ le 1 1 ++ le 1 0 ++ le 1 1 ++ le 4 5 ++ le 4 1 ++ le 16 0 ++ le 2 8 ++ le 6 0 ++ le 24 0) }, phase := .committing } : Task) with key := (.sys 7) } : Task) with key := .sys 7 } : Task) with work := .entry } : Task) with phase := .committing } : Task) with entry.kind := .netPkt } : Task) with draws := [] } : Task)] }] } : State) with boot.restartDue := false } : State)

theorem witness_DatagramsActAtTheirCommit :
    (∃ (s : State) (x : Task) (d : Dgram), s.Inv ∧ s.headTask (.sys 3) = some x ∧ x.key = .sys 3 ∧ x.work = .entry ∧ x.phase = .committing ∧ x.entry.kind = .netPkt ∧ Dgram.ofBytes x.entry.payload = some d ∧ d.dtype = 2 ∧ d.stream = 0 ∧ s.cellsUsed ≤ 60000 ∧ s.boot.restartDue = false ∧ x.draws = []) ∧
    (∃ (s : State) (x : Task) (d : Dgram), s.Inv ∧ s.headTask (.sys 3) = some x ∧ x.key = .sys 3 ∧ x.work = .entry ∧ x.phase = .committing ∧ x.entry.kind = .netPkt ∧ Dgram.ofBytes x.entry.payload = some d ∧ d.dtype = 3 ∧ d.keyId ≠ 0 ∧ s.cellsUsed ≤ 60000 ∧ s.boot.restartDue = false ∧ x.draws = []) ∧
    (∃ (s : State) (x : Task) (d : Dgram) (n : NextFor), s.Inv ∧ s.cfg.role = .head ∧ s.headTask (.sys 7) = some x ∧ x.key = .sys 7 ∧ x.work = .entry ∧ x.phase = .committing ∧ x.entry.kind = .netPkt ∧ Dgram.ofBytes x.entry.payload = some d ∧ d.dtype = 1 ∧ d.stream = 0 ∧ keyPurpose d.keyId = 1 ∧ s.sysKey ≠ none ∧ s.cellsUsed ≤ 60000 ∧ s.boot.restartDue = false ∧ x.draws = [] ∧ n = s.ctx.nextOf d.sysaddr 0 false ∧ s.tasksUsed + d.count ≤ 32768) := ⟨by refine ⟨tDatagramsActAtTheirCommit_0a, ({ ({ ({ ({ ({ ({ ({ jsn := 8, key := .sys 3, entry := { kind := .netPkt, jsn := 8, stamp := 5, payload := (le 4 dgramMagic ++ le 1 2 ++ le 1 1 ++ le 1 0 ++ le 1 1 ++ le 4 5 ++ le 4 65536 ++ le 16 0 ++ le 2 8 ++ le 6 0 ++ le 24 0) }, phase := .committing } : Task) with key := (.sys 3) } : Task) with key := .sys 3 } : Task) with work := .entry } : Task) with phase := .committing } : Task) with entry.kind := .netPkt } : Task) with draws := [] } : Task), ((Dgram.ofBytes ({ ({ ({ ({ ({ ({ ({ jsn := 8, key := .sys 3, entry := { kind := .netPkt, jsn := 8, stamp := 5, payload := (le 4 dgramMagic ++ le 1 2 ++ le 1 1 ++ le 1 0 ++ le 1 1 ++ le 4 5 ++ le 4 65536 ++ le 16 0 ++ le 2 8 ++ le 6 0 ++ le 24 0) }, phase := .committing } : Task) with key := (.sys 3) } : Task) with key := .sys 3 } : Task) with work := .entry } : Task) with phase := .committing } : Task) with entry.kind := .netPkt } : Task) with draws := [] } : Task).entry.payload).getD { dtype := 0, sysaddr := 0 } : Dgram), ?_, ?_, ?_, ?_, ?_, ?_, ?_, ?_, ?_, ?_, ?_, ?_⟩ <;> first | with_reducible rfl | decide +kernel | (unfold State.Inv; decide +kernel),
    by refine ⟨tDatagramsActAtTheirCommit_1a, ({ ({ ({ ({ ({ ({ ({ jsn := 8, key := .sys 3, entry := { kind := .netPkt, jsn := 8, stamp := 5, payload := (le 4 dgramMagic ++ le 1 3 ++ le 1 1 ++ le 1 0 ++ le 1 1 ++ le 4 5 ++ le 4 65536 ++ le 16 0 ++ le 2 8 ++ le 6 0 ++ le 24 0) }, phase := .committing } : Task) with key := (.sys 3) } : Task) with key := .sys 3 } : Task) with work := .entry } : Task) with phase := .committing } : Task) with entry.kind := .netPkt } : Task) with draws := [] } : Task), ((Dgram.ofBytes ({ ({ ({ ({ ({ ({ ({ jsn := 8, key := .sys 3, entry := { kind := .netPkt, jsn := 8, stamp := 5, payload := (le 4 dgramMagic ++ le 1 3 ++ le 1 1 ++ le 1 0 ++ le 1 1 ++ le 4 5 ++ le 4 65536 ++ le 16 0 ++ le 2 8 ++ le 6 0 ++ le 24 0) }, phase := .committing } : Task) with key := (.sys 3) } : Task) with key := .sys 3 } : Task) with work := .entry } : Task) with phase := .committing } : Task) with entry.kind := .netPkt } : Task) with draws := [] } : Task).entry.payload).getD { dtype := 0, sysaddr := 0 } : Dgram), ?_, ?_, ?_, ?_, ?_, ?_, ?_, ?_, ?_, ?_, ?_, ?_⟩ <;> first | with_reducible rfl | decide +kernel | (unfold State.Inv; decide +kernel),
    by refine ⟨tDatagramsActAtTheirCommit_2a, ({ ({ ({ ({ ({ ({ ({ jsn := 8, key := .sys 7, entry := { kind := .netPkt, jsn := 8, stamp := 5, payload := (le 4 dgramMagic ++ le 1 1 ++ le 1 1 ++ le 1 0 ++ le 1 1 ++ le 4 5 ++ le 4 1 ++ le 16 0 ++ le 2 8 ++ le 6 0 ++ le 24 0) }, phase := .committing } : Task) with key := (.sys 7) } : Task) with key := .sys 7 } : Task) with work := .entry } : Task) with phase := .committing } : Task) with entry.kind := .netPkt } : Task) with draws := [] } : Task), ((Dgram.ofBytes ({ ({ ({ ({ ({ ({ ({ jsn := 8, key := .sys 7, entry := { kind := .netPkt, jsn := 8, stamp := 5, payload := (le 4 dgramMagic ++ le 1 1 ++ le 1 1 ++ le 1 0 ++ le 1 1 ++ le 4 5 ++ le 4 1 ++ le 16 0 ++ le 2 8 ++ le 6 0 ++ le 24 0) }, phase := .committing } : Task) with key := (.sys 7) } : Task) with key := .sys 7 } : Task) with work := .entry } : Task) with phase := .committing } : Task) with entry.kind := .netPkt } : Task) with draws := [] } : Task).entry.payload).getD { dtype := 0, sysaddr := 0 } : Dgram), (tDatagramsActAtTheirCommit_2a.ctx.nextOf ((Dgram.ofBytes ({ ({ ({ ({ ({ ({ ({ jsn := 8, key := .sys 7, entry := { kind := .netPkt, jsn := 8, stamp := 5, payload := (le 4 dgramMagic ++ le 1 1 ++ le 1 1 ++ le 1 0 ++ le 1 1 ++ le 4 5 ++ le 4 1 ++ le 16 0 ++ le 2 8 ++ le 6 0 ++ le 24 0) }, phase := .committing } : Task) with key := (.sys 7) } : Task) with key := .sys 7 } : Task) with work := .entry } : Task) with phase := .committing } : Task) with entry.kind := .netPkt } : Task) with draws := [] } : Task).entry.payload).getD { dtype := 0, sysaddr := 0 } : Dgram).sysaddr 0 false : NextFor), ?_, ?_, ?_, ?_, ?_, ?_, ?_, ?_, ?_, ?_, ?_, ?_, ?_, ?_, ?_, ?_, ?_⟩ <;> first | with_reducible rfl | decide +kernel | (unfold State.Inv; decide +kernel)⟩

/-- Of the witness below. -/
def tClosesSweepAndScore_1a : State := ({ ({ ({ ({ tServe with ctx.closes := [({ ({ subj := 1, jsn := 7, stamp := 5, draw := some (6, [1, 2, 3]) } : Close) with draw := some ((6 : Nat), ([1, 2, 3] : Bytes)) } : Close)], erg.keys := [{ key := .sys 6, owner := 0, tasks := [{ jsn := 7, key := .sys 6, entry := { kind := .bndPeriod, jsn := 7, stamp := 5 }, work := .sweep 1, phase := .committing }] }] } : State) with ctx.closes := ({ ({ subj := 1, jsn := 7, stamp := 5, draw := some (6, [1, 2, 3]) } : Close) with draw := some ((6 : Nat), ([1, 2, 3] : Bytes)) } : Close) :: ([] : List Close) } : State) with ctx.heldPers := [] } : State) with arb.flips := [] } : State)

/-- Of the witness below. -/
def tClosesSweepAndScore_1b : List Bytes := ((tClosesSweepAndScore_1a.sweepSlots ({ ({ subj := 1, jsn := 7, stamp := 5, draw := some (6, [1, 2, 3]) } : Close) with draw := some ((6 : Nat), ([1, 2, 3] : Bytes)) } : Close).cursor : List Nat).filterMap (fun i => (tClosesSweepAndScore_1a.ctx.stage.find? fun g => g.epoch == ({ ({ subj := 1, jsn := 7, stamp := 5, draw := some (6, [1, 2, 3]) } : Close) with draw := some ((6 : Nat), ([1, 2, 3] : Bytes)) } : Close).subj && g.slot == i).bind fun g => g.body.map fun b => overwrite b 120 (le 4 (tClosesSweepAndScore_1a.ctx.sigGenAt ({ ({ subj := 1, jsn := 7, stamp := 5, draw := some (6, [1, 2, 3]) } : Close) with draw := some ((6 : Nat), ([1, 2, 3] : Bytes)) } : Close).jsn : Nat)) ++ tClosesSweepAndScore_1a.signWith (tClosesSweepAndScore_1a.ctx.sigGenAt ({ ({ subj := 1, jsn := 7, stamp := 5, draw := some (6, [1, 2, 3]) } : Close) with draw := some ((6 : Nat), ([1, 2, 3] : Bytes)) } : Close).jsn : Nat) (tClosesSweepAndScore_1a.unwrapJ ([1, 2, 3] : Bytes)) i (overwrite b 120 (le 4 (tClosesSweepAndScore_1a.ctx.sigGenAt ({ ({ subj := 1, jsn := 7, stamp := 5, draw := some (6, [1, 2, 3]) } : Close) with draw := some ((6 : Nat), ([1, 2, 3] : Bytes)) } : Close).jsn : Nat)))) : List Bytes)

/-- Of the witness below. -/
def tClosesSweepAndScore_2a : State := ({ ({ ({ tHead with cfg.balance := some { groups := [{ en := true, len := 900 }] } } : State) with erg.keys := [{ key := (.group (0 : Fin 4096)), owner := 0, tasks := [({ ({ ({ ({ ({ ({ ({ jsn := 8, key := .group 0, entry := { kind := .bndBalance, jsn := 8, stamp := 5, payload := le 4 0 }, phase := .committing } : Task) with key := (.group (0 : Fin 4096)) } : Task) with key := .group (0 : Fin 4096) } : Task) with work := .entry } : Task) with phase := .committing } : Task) with entry.kind := .bndBalance } : Task) with draws := [] } : Task)] }] } : State) with boot.restartDue := false } : State)

/-- Of the witness below. -/
def tClosesSweepAndScore_3a : State := ({ ({ tHead with erg.dispatched := 2, seq.nextJsn := 9 } : State) with erg.keys := [{ key := (.group (0 : Fin 4096)), owner := 0, tasks := [({ ({ ({ ({ ({ ({ jsn := 8, key := .group 0, entry := { kind := .bndBalance, jsn := 8, stamp := 5, payload := le 4 0 }, phase := .committing } : Task) with key := (.group (0 : Fin 4096)) } : Task) with key := .group (0 : Fin 4096) } : Task) with work := .entry } : Task) with phase := .committing } : Task) with entry.kind := .bndBalance } : Task)] }] } : State)

theorem witness_ClosesSweepAndScore :
    (∃ (s : State) (x : Close) (r : List Close), s.Inv ∧ s.ctx.closes = x :: r ∧ s.seqTakes = true ∧ s.atGate (.sys 6) = true ∧ s.headIs (.sys 6) (fun t => t.work == .sweep x.subj) = true ∧ s.cwmPast x.jsn = true ∧ x.draw = none ∧ s.drawsServed = true ∧ s.sec.calls + 1 < 65536) ∧
    (∃ (s : State) (x : Close) (r : List Close) (j : Nat) (gen : Nat) (w : Bytes) (L : List Nat) (R : List Bytes), s.Inv ∧ s.ctx.closes = x :: r ∧ s.seqTakes = true ∧ s.atGate (.sys 6) = true ∧ s.headIs (.sys 6) (fun t => t.work == .sweep x.subj) = true ∧ s.cwmPast x.jsn = true ∧ x.draw = some (j, w) ∧ s.ctx.heldPers = [] ∧ s.cellsUsed ≤ 60000 ∧ s.arb.flips = [] ∧ (∀ y ∈ r, y.subj ≠ x.subj) ∧ L = s.sweepSlots x.cursor ∧ L.length ≤ 256 ∧ (∀ g ∈ s.ctx.stage, ∀ b, g.body = some b → b.length ≤ 1024) ∧ (∀ i ∈ L, (s.slot i).fault = false ∧ ∀ f ∈ s.ctx.fences, f.bnd = true → f.jsn ≤ x.jsn → f.jsn ≤ (s.slot i).lastJsn) ∧ (∀ p ∈ s.erg.spilled, p.slot ∉ L) ∧ gen = s.ctx.sigGenAt x.jsn ∧ R = L.filterMap (fun i => (s.ctx.stage.find? fun g => g.epoch == x.subj && g.slot == i).bind fun g => g.body.map fun b => overwrite b 120 (le 4 gen) ++ s.signWith gen (s.unwrapJ w) i (overwrite b 120 (le 4 gen)))) ∧
    (∃ (g : Fin 4096) (s : State) (x : Task) (e : BalGroup) (l : List Int), s.Inv ∧ s.headTask (.group g) = some x ∧ x.key = .group g ∧ x.work = .entry ∧ x.phase = .committing ∧ x.entry.kind = .bndBalance ∧ s.cfg.group g = some e ∧ s.cwmPast x.jsn = true ∧ s.afterIngest x = false ∧ s.cellsUsed ≤ 60000 ∧ s.boot.restartDue = false ∧ x.draws = [] ∧ l = s.cellsToClose e g x.jsn x.entry.stamp ∧ l.length ≤ 256) ∧
    (∃ (g : Fin 4096) (s : State) (x : Task), s.headTask (.group g) = some x ∧ x.key = .group g ∧ x.work = .entry ∧ x.phase = .committing ∧ x.entry.kind = .bndBalance ∧ s.cwmPast x.jsn = false ∧ s.afterIngest x = false) := ⟨by refine ⟨({ ({ tServe with ctx.closes := [({ ({ subj := 1, jsn := 7, stamp := 5 } : Close) with draw := none } : Close)], erg.keys := [{ key := .sys 6, owner := 0, tasks := [{ jsn := 7, key := .sys 6, entry := { kind := .bndPeriod, jsn := 7, stamp := 5 }, work := .sweep 1, phase := .committing }] }] } : State) with ctx.closes := ({ ({ subj := 1, jsn := 7, stamp := 5 } : Close) with draw := none } : Close) :: ([] : List Close) } : State), ({ ({ subj := 1, jsn := 7, stamp := 5 } : Close) with draw := none } : Close), ([] : List Close), ?_, ?_, ?_, ?_, ?_, ?_, ?_, ?_, ?_⟩ <;> first | with_reducible rfl | decide +kernel | (unfold State.Inv; decide +kernel),
    by refine ⟨tClosesSweepAndScore_1a, ({ ({ subj := 1, jsn := 7, stamp := 5, draw := some (6, [1, 2, 3]) } : Close) with draw := some ((6 : Nat), ([1, 2, 3] : Bytes)) } : Close), ([] : List Close), (6 : Nat), (tClosesSweepAndScore_1a.ctx.sigGenAt ({ ({ subj := 1, jsn := 7, stamp := 5, draw := some (6, [1, 2, 3]) } : Close) with draw := some ((6 : Nat), ([1, 2, 3] : Bytes)) } : Close).jsn : Nat), ([1, 2, 3] : Bytes), (tClosesSweepAndScore_1a.sweepSlots ({ ({ subj := 1, jsn := 7, stamp := 5, draw := some (6, [1, 2, 3]) } : Close) with draw := some ((6 : Nat), ([1, 2, 3] : Bytes)) } : Close).cursor : List Nat), tClosesSweepAndScore_1b, ?_, ?_, ?_, ?_, ?_, ?_, ?_, ?_, ?_, ?_, ?_, ?_, ?_, ?_, ?_, ?_, ?_, ?_⟩ <;> first | with_reducible rfl | decide +kernel | (unfold State.Inv; decide +kernel),
    by refine ⟨(0 : Fin 4096), tClosesSweepAndScore_2a, ({ ({ ({ ({ ({ ({ ({ jsn := 8, key := .group 0, entry := { kind := .bndBalance, jsn := 8, stamp := 5, payload := le 4 0 }, phase := .committing } : Task) with key := (.group (0 : Fin 4096)) } : Task) with key := .group (0 : Fin 4096) } : Task) with work := .entry } : Task) with phase := .committing } : Task) with entry.kind := .bndBalance } : Task) with draws := [] } : Task), ((tClosesSweepAndScore_2a.cfg.group (0 : Fin 4096)).getD {} : BalGroup), (tClosesSweepAndScore_2a.cellsToClose ((tClosesSweepAndScore_2a.cfg.group (0 : Fin 4096)).getD {} : BalGroup) (0 : Fin 4096) ({ ({ ({ ({ ({ ({ ({ jsn := 8, key := .group 0, entry := { kind := .bndBalance, jsn := 8, stamp := 5, payload := le 4 0 }, phase := .committing } : Task) with key := (.group (0 : Fin 4096)) } : Task) with key := .group (0 : Fin 4096) } : Task) with work := .entry } : Task) with phase := .committing } : Task) with entry.kind := .bndBalance } : Task) with draws := [] } : Task).jsn ({ ({ ({ ({ ({ ({ ({ jsn := 8, key := .group 0, entry := { kind := .bndBalance, jsn := 8, stamp := 5, payload := le 4 0 }, phase := .committing } : Task) with key := (.group (0 : Fin 4096)) } : Task) with key := .group (0 : Fin 4096) } : Task) with work := .entry } : Task) with phase := .committing } : Task) with entry.kind := .bndBalance } : Task) with draws := [] } : Task).entry.stamp : List Int), ?_, ?_, ?_, ?_, ?_, ?_, ?_, ?_, ?_, ?_, ?_, ?_, ?_, ?_⟩ <;> first | with_reducible rfl | decide +kernel | (unfold State.Inv; decide +kernel),
    by refine ⟨(0 : Fin 4096), tClosesSweepAndScore_3a, ({ ({ ({ ({ ({ ({ jsn := 8, key := .group 0, entry := { kind := .bndBalance, jsn := 8, stamp := 5, payload := le 4 0 }, phase := .committing } : Task) with key := (.group (0 : Fin 4096)) } : Task) with key := .group (0 : Fin 4096) } : Task) with work := .entry } : Task) with phase := .committing } : Task) with entry.kind := .bndBalance } : Task), ?_, ?_, ?_, ?_, ?_, ?_, ?_⟩ <;> first | with_reducible rfl | decide +kernel⟩

theorem witness_RegisterAccessesFollowTheMap_1 :
    (∃ (w : Who) (addr : Word) (s : State), areaOf addr.toNat = .none) ∧
    (∃ (addr : Word) (size : Fin 3) (v : Word) (s : State) (o : Nat), s.Inv ∧ o = addr.toNat - 0x12000000 ∧ areaOf addr.toNat = .wram ∧ areaOf (addr.toNat + 2 ^ size.val - 1) = .wram) ∧
    (∃ (w : Who) (addr : Word) (v : Word) (s : State), areaOf addr.toNat = .regs ∧ addr.toNat % 4 = 0 ∧ regAt addr.toNat = none ∧ (0x40010400 ≤ addr.toNat ∨ addr.toNat < 0x40010000) ∧ inOas addr.toNat = false) ∧
    (∃ (w : Who) (addr : Word) (v : Word) (s : State) (d : RegDef), s.Inv ∧ addr.toNat ∈ irqRegs ∧ regAt addr.toNat = some d) ∧
    (∃ (w : Who) (addr : Word) (v : Word) (s : State) (d : RegDef), s.Inv ∧ addr.toNat ∈ ienRegs ∧ regAt addr.toNat = some d) ∧
    (∃ (w : Who) (addr : Word) (v : Word) (s : State) (d : RegDef), w ≠ .dev ∧ areaOf addr.toNat = .regs ∧ addr.toNat % 4 = 0 ∧ regAt addr.toNat = some d ∧ addr.toNat ∉ irqRegs ∧ addr.toNat ∉ ienRegs ∧ addr.toNat ∉ [rRadCtl, rPlcCtl, rNetCtl, rOasStat, rArbLatmax, rNetMdio]) := ⟨by refine ⟨(.dev : Who), (0x50000000 : Word), tServe, ?_⟩ <;> first | with_reducible rfl | decide +kernel,
    by refine ⟨(301989888 : Word), (0 : Fin 3), (1 : Word), tServe, ((301989888 : Word).toNat - 0x12000000 : Nat), ?_, ?_, ?_, ?_⟩ <;> first | with_reducible rfl | decide +kernel | (unfold State.Inv; decide +kernel),
    by refine ⟨(.dev : Who), (0x40000FFC : Word), (0 : Word), tServe, ?_, ?_, ?_, ?_, ?_⟩ <;> first | with_reducible rfl | decide +kernel,
    by refine ⟨(.dev : Who), ((BitVec.ofNat 32 rQfIrq) : Word), (0x1234 : Word), tServe, ((regAt ((BitVec.ofNat 32 rQfIrq) : Word).toNat).getD { addr := 0, stride := 0, count := 0, rw := 0, lk := 0, w1c := 0, reset := 0 } : RegDef), ?_, ?_, ?_⟩ <;> first | with_reducible rfl | decide +kernel | (unfold State.Inv; decide +kernel),
    by refine ⟨(.dev : Who), ((BitVec.ofNat 32 rQfIen) : Word), (0x1234 : Word), tServe, ((regAt ((BitVec.ofNat 32 rQfIen) : Word).toNat).getD { addr := 0, stride := 0, count := 0, rw := 0, lk := 0, w1c := 0, reset := 0 } : RegDef), ?_, ?_, ?_⟩ <;> first | with_reducible rfl | decide +kernel | (unfold State.Inv; decide +kernel),
    by refine ⟨(.seif : Who), (0x40000000 : Word), (0 : Word), tServe, ((regAt (0x40000000 : Word).toNat).getD { addr := 0, stride := 0, count := 0, rw := 0, lk := 0, w1c := 0, reset := 0 } : RegDef), ?_, ?_, ?_, ?_, ?_, ?_, ?_⟩ <;> first | with_reducible rfl | decide +kernel⟩

theorem witness_RegisterAccessesFollowTheMap_2 :
    (∃ (addr : Word) (v : Word) (s : State) (d : RegDef) (m : Nat), s.Inv ∧ areaOf addr.toNat = .regs ∧ addr.toNat % 4 = 0 ∧ regAt addr.toNat = some d ∧ (0x40010400 ≤ addr.toNat ∨ addr.toNat < 0x40010000) ∧ (inOas addr.toNat = true → s.locked = false) ∧ (nth (rMtrTrim 0) 32 3 addr.toNat).isNone = true ∧ addr.toNat ∉ [rJsqCtl, rNetMdio, rSefRole, rSefToken, rOasTcommit, rOasStat, rOasLrate, rArbLatmax] ∧ m = d.rw + (if s.lkOpen then d.lk else 0)) ∧
    (∃ (w : Who) (addr : Word) (s : State), isLo addr.toNat = true ∧ inOas addr.toNat = true ∧ s.locked = true) ∧
    (∃ (w : Who) (x : Who) (addr : Word) (s : State), isLo addr.toNat = true ∧ (inOas addr.toNat = true → s.locked = false)) := ⟨by refine ⟨(1073808384 : Word), (0 : Word), tServe, ((regAt (1073808384 : Word).toNat).getD { addr := 0, stride := 0, count := 0, rw := 0, lk := 0, w1c := 0, reset := 0 } : RegDef), (((regAt (1073808384 : Word).toNat).getD { addr := 0, stride := 0, count := 0, rw := 0, lk := 0, w1c := 0, reset := 0 } : RegDef).rw + (if tServe.lkOpen then ((regAt (1073808384 : Word).toNat).getD { addr := 0, stride := 0, count := 0, rw := 0, lk := 0, w1c := 0, reset := 0 } : RegDef).lk else 0) : Nat), ?_, ?_, ?_, ?_, ?_, ?_, ?_, ?_, ?_⟩ <;> first | with_reducible rfl | decide +kernel | (unfold State.Inv; decide +kernel),
    by refine ⟨(.dev : Who), ((BitVec.ofNat 32 rOasStgLo) : Word), ({ tServe with locked := true } : State), ?_, ?_, ?_⟩ <;> first | with_reducible rfl | decide +kernel,
    by refine ⟨(.dev : Who), (.dev : Who), ((BitVec.ofNat 32 rTimNowLo) : Word), tServe, ?_, ?_⟩ <;> first | with_reducible rfl | decide +kernel⟩

/-- Of the witness below. -/
def tEventsAreLoggedFoldedAndRead_0a : State := ({ ((((({ (tServe.setReg rEvrCtl 1) with evr.capBytes := 100000 } : State).setBit rEvrCtl 0 true) : State).ringPacket 14 (0x41 : Nat) ((toWs (le 1 8 ++ le 1 40 ++ le 1 0x41 ++ List.replicate 29 0)) : List Word)) : State) with evr.fold := none } : State)

/-- Of the witness below. -/
def tEventsAreLoggedFoldedAndRead_1a : State := ({ ((((({ (tServe.setReg rEvrCtl 1) with evr.capBytes := 100000, evr.repeatS := 10 } : State).setBit rEvrCtl 0 true) : State).ringPacket 14 (0x41 : Nat) ((toWs (le 1 8 ++ le 1 24 ++ le 1 0x41 ++ List.replicate 13 0)) : List Word)) : State) with evr.fold := some ({ ({ ({ cls := 0x41, subj := 0, start := 1000 * 268435456, last := 0, count := 0 } : Fold) with cls := (0x41 : Nat) } : Fold) with subj := fld 12 4 (ofWs ((toWs (le 1 8 ++ le 1 24 ++ le 1 0x41 ++ List.replicate 13 0)) : List Word)) % 2 ^ 18 } : Fold) } : State)

/-- Of the witness below. -/
def tEventsAreLoggedFoldedAndRead_3a : State := ({ ({ (tServe.setReg rEvrCtl 1) with evr.capBytes := 100000 } : State) with evr.fold := some ({ ({ cls := 0, subj := 0, start := 0, last := 0, count := 0 } : Fold) with count := 1 } : Fold) } : State)

/-- Of the witness below. -/
def tEventsAreLoggedFoldedAndRead_4a : State := ({ tServe with evr.fold := some ({ ({ cls := 0, subj := 0, start := 0, last := 0, count := 0 } : Fold) with count := 0 } : Fold) } : State)

theorem witness_EventsAreLoggedFoldedAndRead_1 :
    (∃ (s : State) (s1 : State) (cut : Bool) (ty : Nat) (ws : List Word) (b : Bytes), s.bitOf rEvrCtl 0 = true ∧ s.ringTake 14 = (.packet cut ty ws, s1) ∧ bit 6 ty = true ∧ s.evr.fold = none ∧ b = fit (fld 1 1 (ofWs ws) - 8) (ofWs ws) ∧ b.length + 8 ≤ s.evr.capBytes ∧ s.evr.used + b.length + 8 ≤ s.evr.capBytes ∧ (s1.ring 14).waiting = []) ∧
    (∃ (s : State) (s1 : State) (cut : Bool) (ty : Nat) (ws : List Word) (f : Fold), s.bitOf rEvrCtl 0 = true ∧ s.ringTake 14 = (.packet cut ty ws, s1) ∧ bit 6 ty = true ∧ s.evr.fold = some f ∧ f.cls = ty ∧ fld 12 4 (ofWs ws) % 2 ^ 18 = f.subj ∧ s.t ≤ f.start + s.evr.repeatS * 268435456 ∧ 4 ≤ ws.length ∧ 24 ≤ fld 1 1 (ofWs ws) ∧ (s1.ring 14).waiting = []) ∧
    (∃ (s : State) (s1 : State) (cut : Bool) (ty : Nat) (ws : List Word), s.bitOf rEvrCtl 0 = true ∧ s.ringTake 14 = (.packet cut ty ws, s1) ∧ bit 6 ty = false ∧ (s1.ring 14).waiting = []) ∧
    (∃ (s : State) (s1 : State) (f : Fold), s.evr.fold = some f ∧ 0 < f.count ∧ s1 = s.until (f.start + s.evr.repeatS * 268435456) ∧ s.evr.used + 8 ≤ s.evr.capBytes) ∧
    (∃ (s : State) (s1 : State) (f : Fold), s.evr.fold = some f ∧ f.count = 0 ∧ s1 = s.until (f.start + s.evr.repeatS * 268435456)) ∧
    (∃ (w : Who) (v : Who) (s : State) (r : LogRec), v ≠ w ∧ s.evr.recAt (s.cursor w) = some r) := ⟨by refine ⟨tEventsAreLoggedFoldedAndRead_0a, ((tEventsAreLoggedFoldedAndRead_0a.ringTake 14).2 : State), (false : Bool), (0x41 : Nat), ((toWs (le 1 8 ++ le 1 40 ++ le 1 0x41 ++ List.replicate 29 0)) : List Word), (fit (fld 1 1 (ofWs ((toWs (le 1 8 ++ le 1 40 ++ le 1 0x41 ++ List.replicate 29 0)) : List Word)) - 8) (ofWs ((toWs (le 1 8 ++ le 1 40 ++ le 1 0x41 ++ List.replicate 29 0)) : List Word)) : Bytes), ?_, ?_, ?_, ?_, ?_, ?_, ?_, ?_⟩ <;> first | with_reducible rfl | decide +kernel,
    by refine ⟨tEventsAreLoggedFoldedAndRead_1a, ((tEventsAreLoggedFoldedAndRead_1a.ringTake 14).2 : State), (false : Bool), (0x41 : Nat), ((toWs (le 1 8 ++ le 1 24 ++ le 1 0x41 ++ List.replicate 13 0)) : List Word), ({ ({ ({ cls := 0x41, subj := 0, start := 1000 * 268435456, last := 0, count := 0 } : Fold) with cls := (0x41 : Nat) } : Fold) with subj := fld 12 4 (ofWs ((toWs (le 1 8 ++ le 1 24 ++ le 1 0x41 ++ List.replicate 13 0)) : List Word)) % 2 ^ 18 } : Fold), ?_, ?_, ?_, ?_, ?_, ?_, ?_, ?_, ?_, ?_⟩ <;> first | with_reducible rfl | decide +kernel,
    by refine ⟨((((tServe.setBit rEvrCtl 0 true) : State).ringPacket 14 (0x01 : Nat) ([0, 0, 0, 0] : List Word)) : State), ((((((tServe.setBit rEvrCtl 0 true) : State).ringPacket 14 (0x01 : Nat) ([0, 0, 0, 0] : List Word)) : State).ringTake 14).2 : State), (false : Bool), (0x01 : Nat), ([0, 0, 0, 0] : List Word), ?_, ?_, ?_, ?_⟩ <;> first | with_reducible rfl | decide +kernel,
    by refine ⟨tEventsAreLoggedFoldedAndRead_3a, (tEventsAreLoggedFoldedAndRead_3a.until (({ ({ cls := 0, subj := 0, start := 0, last := 0, count := 0 } : Fold) with count := 1 } : Fold).start + tEventsAreLoggedFoldedAndRead_3a.evr.repeatS * 268435456) : State), ({ ({ cls := 0, subj := 0, start := 0, last := 0, count := 0 } : Fold) with count := 1 } : Fold), ?_, ?_, ?_, ?_⟩ <;> first | with_reducible rfl | decide +kernel,
    by refine ⟨tEventsAreLoggedFoldedAndRead_4a, (tEventsAreLoggedFoldedAndRead_4a.until (({ ({ cls := 0, subj := 0, start := 0, last := 0, count := 0 } : Fold) with count := 0 } : Fold).start + tEventsAreLoggedFoldedAndRead_4a.evr.repeatS * 268435456) : State), ({ ({ cls := 0, subj := 0, start := 0, last := 0, count := 0 } : Fold) with count := 0 } : Fold), ?_, ?_, ?_⟩ <;> first | with_reducible rfl | decide +kernel,
    by refine ⟨(.dev : Who), (.seif : Who), ({ tServe with evr.log := [{ no := 0, bytes := [1, 2, 3, 4] }], evr.next := 1 } : State), ((({ tServe with evr.log := [{ no := 0, bytes := [1, 2, 3, 4] }], evr.next := 1 } : State).evr.recAt (({ tServe with evr.log := [{ no := 0, bytes := [1, 2, 3, 4] }], evr.next := 1 } : State).cursor (.dev : Who))).getD { no := 0, bytes := [] } : LogRec), ?_, ?_⟩ <;> first | with_reducible rfl | decide +kernel⟩

theorem witness_EventsAreLoggedFoldedAndRead_2 :
    ∃ (w : Who) (v : Who) (s : State), v ≠ w ∧ s.evr.recAt (s.cursor w) = none := by refine ⟨(.dev : Who), (.seif : Who), tServe, ?_, ?_⟩ <;> first | with_reducible rfl | decide +kernel

/-- Of the witness below. -/
def tJournalUnitsBecomeDurable_0_2a : State := ({ ({ ({ ({ ((tMed.ringPacket 12 (1 : Nat) ([0, 0, 0, 0] : List Word)) : State) with med.run := true } : State) with med.fgOn := false } : State) with seq.khamsin := false } : State) with med.fill := some ({ data := [], first := none, since := 0 } : StUnit) } : State)

/-- Of the witness below. -/
def tJournalUnitsBecomeDurable_2a : State := ({ ({ tMed with med.fill := some ({ data := [], first := none, since := 0 } : StUnit) } : State) with med.run := true } : State)

theorem witness_JournalUnitsBecomeDurable_1 :
    (∃ (s : State) (s1 : State) (cut : Bool) (ty : Nat) (ws : List Word), s.ringTake 12 = (.packet cut ty ws, s1) ∧ (s1.ring 12).waiting = [] ∧ s.med.run = false) ∧
    (∃ (s : State) (s1 : State) (cut : Bool) (ty : Nat) (ws : List Word), s.ringTake 12 = (.packet cut ty ws, s1) ∧ (s1.ring 12).waiting = [] ∧ s.med.run = true ∧ s.readsQ12 = true ∧ ty ≠ 1) ∧
    (∃ (s : State) (s1 : State) (cut : Bool) (ty : Nat) (ws : List Word) (u : StUnit), s.ringTake 12 = (.packet cut ty ws, s1) ∧ (s1.ring 12).waiting = [] ∧ s.med.run = true ∧ s.readsQ12 = true ∧ ty = 1 ∧ s.med.fgOn = false ∧ s.seq.khamsin = false ∧ s.med.fill = some u ∧ u.data.length + (ofWs ws).length < 4092) ∧
    (∃ (s : State), s.med.run = true ∧ s.readsQ12 = false) ∧
    (∃ (s : State) (s1 : State) (u : StUnit), s.med.fill = some u ∧ s.med.run = true ∧ s1 = s.until (u.since + s.med.flushMs * 268435456 / 1000)) ∧
    (∃ (s : State) (s0 : State) (u : MUnit), s0 = s.dropDead ∧ u ∈ s0.med.nand.units) := ⟨by refine ⟨({ ((tMed.ringPacket 12 (1 : Nat) ([0, 0, 0, 0] : List Word)) : State) with med.run := false } : State), ((({ ((tMed.ringPacket 12 (1 : Nat) ([0, 0, 0, 0] : List Word)) : State) with med.run := false } : State).ringTake 12).2 : State), (false : Bool), (1 : Nat), ([0, 0, 0, 0] : List Word), ?_, ?_, ?_⟩ <;> first | with_reducible rfl | decide +kernel,
    by refine ⟨({ ((tMed.ringPacket 12 (2 : Nat) ([0, 0, 0, 0] : List Word)) : State) with med.run := true } : State), ((({ ((tMed.ringPacket 12 (2 : Nat) ([0, 0, 0, 0] : List Word)) : State) with med.run := true } : State).ringTake 12).2 : State), (false : Bool), (2 : Nat), ([0, 0, 0, 0] : List Word), ?_, ?_, ?_, ?_, ?_⟩ <;> first | with_reducible rfl | decide +kernel,
    by refine ⟨tJournalUnitsBecomeDurable_0_2a, ((tJournalUnitsBecomeDurable_0_2a.ringTake 12).2 : State), (false : Bool), (1 : Nat), ([0, 0, 0, 0] : List Word), ({ data := [], first := none, since := 0 } : StUnit), ?_, ?_, ?_, ?_, ?_, ?_, ?_, ?_, ?_⟩ <;> first | with_reducible rfl | decide +kernel,
    by refine ⟨({ ({ tMed with med.readOnly := true } : State) with med.run := true } : State), ?_, ?_⟩ <;> first | with_reducible rfl | decide +kernel,
    by refine ⟨tJournalUnitsBecomeDurable_2a, (tJournalUnitsBecomeDurable_2a.until (({ data := [], first := none, since := 0 } : StUnit).since + tJournalUnitsBecomeDurable_2a.med.flushMs * 268435456 / 1000) : State), ({ data := [], first := none, since := 0 } : StUnit), ?_, ?_, ?_⟩ <;> first | with_reducible rfl | decide +kernel,
    by refine ⟨tMed, (tMed.dropDead : State), tUnit, ?_, ?_⟩ <;> first | with_reducible rfl | decide +kernel⟩

/-- Of the witness below. -/
def tJournalUnitsBecomeDurable_4a : State := ({ ({ ({ tMed with med.run := true } : State) with med.wait := ({ data := [], first := none, since := 0 } : StUnit) :: ([] : List StUnit) } : State) with seq.khamsin := false } : State)

theorem witness_JournalUnitsBecomeDurable_2 :
    (∃ (s : State) (s0 : State) (u : MUnit), s0 = s.dropDead ∧ (u.holds = [] ∨ (∃ x ∈ u.holds, s.heldAlive u.region x = true)) ∧ u ∈ s.med.nand.units) ∧
    (∃ (s : State) (s0 : State) (x : Sb), s0 = s.dropDead ∧ x ∈ s0.med.nand.sbs) ∧
    (∃ (lua : Nat) (corr : Nat) (s : State) (s0 : State) (u : StUnit) (r : List StUnit), s.Inv ∧ s0 = s.dropDead ∧ s.med.run = true ∧ corr ≤ s.med.refreshT ∧ s.med.wait = u :: r ∧ s.seq.khamsin = false ∧ (∃ x ∈ s0.med.nand.sbs, x.st = .open_ ∧ x.region = 1 ∧ x.slc = s0.med.slcFor 1)) ∧
    (∃ (region : Fin 6) (lua : Nat) (corr : Nat) (s : State) (s0 : State), s0 = s.dropDead ∧ s.med.run = true ∧ s.med.refreshT < corr) ∧
    (∃ (region : Fin 6) (lua : Nat) (corr : Nat) (s : State) (s0 : State), s0 = s.dropDead ∧ s.med.run = true ∧ corr ≤ s.med.refreshT ∧ region.val ≠ 1 ∧ (∃ x ∈ s0.med.nand.sbs, x.st = .open_ ∧ x.region = region ∧ x.slc = s0.med.slcFor region)) := ⟨by refine ⟨tMed, (tMed.dropDead : State), ({ tUnit with holds := [] } : MUnit), ?_, ?_, ?_⟩ <;> first | with_reducible rfl | decide +kernel,
    by refine ⟨tMed, (tMed.dropDead : State), ((tSb 0 2 .open_) : Sb), ?_, ?_⟩ <;> first | with_reducible rfl | decide +kernel,
    by refine ⟨(1 : Nat), (0 : Nat), tJournalUnitsBecomeDurable_4a, (tJournalUnitsBecomeDurable_4a.dropDead : State), ({ data := [], first := none, since := 0 } : StUnit), ([] : List StUnit), ?_, ?_, ?_, ?_, ?_, ?_, ?_⟩ <;> first | with_reducible rfl | decide +kernel | (unfold State.Inv; decide +kernel),
    by refine ⟨(0 : Fin 6), (1 : Nat), (60 : Nat), ({ tMed with med.run := true } : State), (({ tMed with med.run := true } : State).dropDead : State), ?_, ?_, ?_⟩ <;> first | with_reducible rfl | decide +kernel,
    by refine ⟨(2 : Fin 6), (1 : Nat), (0 : Nat), ({ tMed with med.run := true } : State), (({ tMed with med.run := true } : State).dropDead : State), ?_, ?_, ?_, ?_, ?_⟩ <;> first | with_reducible rfl | decide +kernel⟩

theorem witness_MediaReadsFailuresAndCollection_1 :
    (∃ (region : Fin 6) (lua : Nat) (tried : Nat) (corr : Nat) (levels : Nat) (rb : Bool) (s : State) (s0 : State) (u : MUnit), s.Inv ∧ s0 = s.dropDead ∧ s.med.run = true ∧ s0.med.nand.unitAt region lua = some u ∧ levels = (if s.med.retryFa = 0 then 1 else max 1 s.med.retryN) ∧ tried < levels) ∧
    (∃ (region : Fin 6) (lua : Nat) (tried : Nat) (corr : Nat) (levels : Nat) (rb : Bool) (s : State) (s0 : State) (u : MUnit), s.Inv ∧ s0 = s.dropDead ∧ s.med.run = true ∧ s0.med.nand.unitAt region lua = some u ∧ levels = (if s.med.retryFa = 0 then 1 else max 1 s.med.retryN) ∧ levels ≤ tried ∧ rb = false) ∧
    (∃ (region : Fin 6) (lua : Nat) (tried : Nat) (corr : Nat) (levels : Nat) (rb : Bool) (s : State) (s0 : State) (u : MUnit), s.Inv ∧ s0 = s.dropDead ∧ s.med.run = true ∧ s0.med.nand.unitAt region lua = some u ∧ levels = (if s.med.retryFa = 0 then 1 else max 1 s.med.retryN) ∧ levels ≤ tried ∧ region.val ≠ 1 ∧ rb = true) ∧
    (∃ (sb : Nat) (lun : Nat) (b1 : Nat) (s : State) (x : Sb), s.Inv ∧ (s.med.nand.sbs.find? fun x => x.id == sb) = some x ∧ s.med.run = true ∧ lun < s.med.nand.luns ∧ s.med.nand.leastWorn lun = some b1) ∧
    (∃ (sb : Nat) (lun : Nat) (s : State) (x : Sb), s.Inv ∧ (s.med.nand.sbs.find? fun x => x.id == sb) = some x ∧ s.med.run = true ∧ lun < s.med.nand.luns ∧ x.st = .erasing) ∧
    (∃ (sb : Nat) (s : State) (s0 : State) (x : Sb), s0 = s.dropDead ∧ (s0.med.nand.sbs.find? fun x => x.id == sb) = some x ∧ x.st = .erasing) := ⟨by refine ⟨(2 : Fin 6), (3 : Nat), (0 : Nat), (1 : Nat), ((if ({ tMed with med.run := true } : State).med.retryFa = 0 then 1 else max 1 ({ tMed with med.run := true } : State).med.retryN) : Nat), (true : Bool), ({ tMed with med.run := true } : State), (({ tMed with med.run := true } : State).dropDead : State), (((({ tMed with med.run := true } : State).dropDead : State).med.nand.unitAt (2 : Fin 6) (3 : Nat)).getD { region := 0, lua := 0, wtemp := 0, wseq := 0, wtime := 0, slc := false, sb := 0 } : MUnit), ?_, ?_, ?_, ?_, ?_, ?_⟩ <;> first | with_reducible rfl | decide +kernel | (unfold State.Inv; decide +kernel),
    by refine ⟨(2 : Fin 6), (3 : Nat), (1 : Nat), (1 : Nat), ((if ({ tMed with med.run := true } : State).med.retryFa = 0 then 1 else max 1 ({ tMed with med.run := true } : State).med.retryN) : Nat), (false : Bool), ({ tMed with med.run := true } : State), (({ tMed with med.run := true } : State).dropDead : State), (((({ tMed with med.run := true } : State).dropDead : State).med.nand.unitAt (2 : Fin 6) (3 : Nat)).getD { region := 0, lua := 0, wtemp := 0, wseq := 0, wtime := 0, slc := false, sb := 0 } : MUnit), ?_, ?_, ?_, ?_, ?_, ?_, ?_⟩ <;> first | with_reducible rfl | decide +kernel | (unfold State.Inv; decide +kernel),
    by refine ⟨(2 : Fin 6), (3 : Nat), (1 : Nat), (1 : Nat), ((if ({ tMed with med.run := true } : State).med.retryFa = 0 then 1 else max 1 ({ tMed with med.run := true } : State).med.retryN) : Nat), (true : Bool), ({ tMed with med.run := true } : State), (({ tMed with med.run := true } : State).dropDead : State), (((({ tMed with med.run := true } : State).dropDead : State).med.nand.unitAt (2 : Fin 6) (3 : Nat)).getD { region := 0, lua := 0, wtemp := 0, wseq := 0, wtime := 0, slc := false, sb := 0 } : MUnit), ?_, ?_, ?_, ?_, ?_, ?_, ?_, ?_⟩ <;> first | with_reducible rfl | decide +kernel | (unfold State.Inv; decide +kernel),
    by refine ⟨(0 : Nat), (0 : Nat), ((({ tMed with med.run := true } : State).med.nand.leastWorn (0 : Nat)).getD 0 : Nat), ({ tMed with med.run := true } : State), ((tSb 0 2 .open_) : Sb), ?_, ?_, ?_, ?_, ?_⟩ <;> first | with_reducible rfl | decide +kernel | (unfold State.Inv; decide +kernel),
    by refine ⟨(3 : Nat), (0 : Nat), ({ tMed with med.run := true } : State), ({ ((tSb 3 2 .erasing) : Sb) with st := .erasing } : Sb), ?_, ?_, ?_, ?_, ?_⟩ <;> first | with_reducible rfl | decide +kernel | (unfold State.Inv; decide +kernel),
    by refine ⟨(3 : Nat), tMed, (tMed.dropDead : State), ({ ((tSb 3 2 .erasing) : Sb) with st := .erasing } : Sb), ?_, ?_, ?_⟩ <;> first | with_reducible rfl | decide +kernel⟩

/-- Of the witness below. -/
def tMediaReadsFailuresAndCollection_4a : State := ({ ({ ({ tMed with med.run := true } : State) with seq.khamsin := false } : State) with med.readOnly := false } : State)

/-- Of the witness below. -/
def tMediaReadsFailuresAndCollection_5a : State := (({ ({ ({ tMed with med.run := true } : State) with seq.khamsin := false } : State) with med.retMode := 0 } : State).dropDead : State)

theorem witness_MediaReadsFailuresAndCollection_2 :
    (∃ (s : State) (s0 : State) (c : Instr), s0 = s.dropDead ∧ ((c = .bgCollection ∧ s.med.run = true ∧ s.seq.khamsin = false ∧ s.med.readOnly = false ∧ (s.ring 12).cnt = 0 ∧ (s.ring 13).cnt = 0 ∧ s0.med.nand.free * 1000 < s0.med.nand.total * s.med.bgFree) ∨ (c = .fgCollection ∧ s.med.run = true ∧ s.seq.khamsin = false ∧ s.med.readOnly = false ∧ s0.med.nand.free ≤ s.med.fgFree)) ∧ (∃ v ∈ s0.med.nand.sbs, v.st = .closed)) ∧
    (∃ (corr : Nat) (s : State) (s0 : State) (s1 : State) (u : MUnit), s0 = s.dropDead ∧ s.med.run = true ∧ s.seq.khamsin = false ∧ (s.med.retMode = 0 ∨ s.med.retMode = 2) ∧ s0.med.nand.units[s.med.nand.patrolAt % max 1 s0.med.nand.units.length]? = some u ∧ corr ≤ s.med.refreshT - 16 ∧ s1 = s0.until (s.med.patrolT + s.med.patrolD * 86400 * 268435456 / max 1 s0.med.nand.units.length)) ∧
    (∃ (s : State) (s1 : State), s.med.run = true ∧ s1 = s.until s.med.healthAt) := ⟨by refine ⟨tMediaReadsFailuresAndCollection_4a, (tMediaReadsFailuresAndCollection_4a.dropDead : State), (.fgCollection : Instr), ?_, ?_, ?_⟩ <;> first | with_reducible rfl | decide +kernel,
    by refine ⟨(0 : Nat), ({ ({ ({ tMed with med.run := true } : State) with seq.khamsin := false } : State) with med.retMode := 0 } : State), tMediaReadsFailuresAndCollection_5a, (tMediaReadsFailuresAndCollection_5a.until (({ ({ ({ tMed with med.run := true } : State) with seq.khamsin := false } : State) with med.retMode := 0 } : State).med.patrolT + ({ ({ ({ tMed with med.run := true } : State) with seq.khamsin := false } : State) with med.retMode := 0 } : State).med.patrolD * 86400 * 268435456 / max 1 tMediaReadsFailuresAndCollection_5a.med.nand.units.length) : State), ((tMediaReadsFailuresAndCollection_5a.med.nand.units[({ ({ ({ tMed with med.run := true } : State) with seq.khamsin := false } : State) with med.retMode := 0 } : State).med.nand.patrolAt % max 1 tMediaReadsFailuresAndCollection_5a.med.nand.units.length]?).getD { region := 0, lua := 0, wtemp := 0, wseq := 0, wtime := 0, slc := false, sb := 0 } : MUnit), ?_, ?_, ?_, ?_, ?_, ?_, ?_⟩ <;> first | with_reducible rfl | decide +kernel,
    by refine ⟨({ tMed with med.run := true } : State), (({ tMed with med.run := true } : State).until ({ tMed with med.run := true } : State).med.healthAt : State), ?_, ?_⟩ <;> first | with_reducible rfl | decide +kernel⟩

theorem witness_BridgeAndPausePorts_1 :
    (∃ (dt : Nat) (port : Fin 2) (ok : Bool) (frame : Bytes) (s : State) (s1 : State), s1 = s.advance dt ∧ s1.portUp port = false) ∧
    (∃ (dt : Nat) (port : Fin 2) (ok : Bool) (frame : Bytes) (s : State) (s1 : State), s1 = s.advance dt ∧ s1.portUp port = true ∧ 1518 < frame.length) ∧
    (∃ (dt : Nat) (port : Fin 2) (ok : Bool) (frame : Bytes) (s : State) (s1 : State) (T : List BridgeEnt) (e : BridgeEnt), s1 = s.advance dt ∧ s1.portUp port = true ∧ frame.length ≤ 1518 ∧ ok = true ∧ isGroup (ethSrc frame) = false ∧ isGroup (ethDst frame) = false ∧ T = (s1.bridgeLive.filter fun e => e.mac ≠ ethSrc frame) ++ [{ mac := ethSrc frame, port := port, at_ := s1.t }] ∧ T.length ≤ 1024 ∧ T.find? (fun e => e.mac == ethDst frame) = some e ∧ e.port = 2) ∧
    (∃ (dt : Nat) (port : Fin 2) (ok : Bool) (frame : Bytes) (s : State) (s1 : State) (p : NetPort), s1 = s.advance dt ∧ s1.portUp port = true ∧ frame.length ≤ 1518 ∧ s1.portUp (1 - port) = true ∧ s1.net.ports[1 - port.val]? = some p ∧ p.pausedUntil ≤ s1.t ∧ p.busyTo ≤ s1.t ∧ s.bitOf rTimCtl 2 = false) ∧
    (∃ (dt : Nat) (port : Fin 2) (up : Bool) (slow : Bool) (s : State) (s1 : State) (p : NetPort) (now : Bool), s.Inv ∧ s1 = s.advance dt ∧ s.net.ports[port.val]? = some p ∧ now = (up && s.pow.locks.getD 1 false)) ∧
    (∃ (s : State) (s1 : State) (e : BridgeEnt) (r : List BridgeEnt), s.net.table = e :: r ∧ (∀ x ∈ r, e.at_ ≤ x.at_) ∧ s1 = s.until (e.at_ + 300 * second)) := ⟨by refine ⟨(1 : Nat), (0 : Fin 2), (true : Bool), ([1, 2, 3] : Bytes), tRec, (tRec.advance (1 : Nat) : State), ?_, ?_⟩ <;> first | with_reducible rfl | decide +kernel,
    by refine ⟨(1 : Nat), (0 : Fin 2), (true : Bool), ((List.replicate 1519 0) : Bytes), tServe, (tServe.advance (1 : Nat) : State), ?_, ?_, ?_⟩ <;> first | with_reducible rfl | decide +kernel,
    by refine ⟨0, 0, true, (([2, 0, 0, 0, 0, 1, 2, 0, 0, 0, 0, 7] ++ [8, 0] ++ List.replicate 40 0) : Bytes), ({ tServe with net.table := [{ mac := 2199023255553, port := 2, at_ := 1000 * 268435456 }] } : State), (({ tServe with net.table := [{ mac := 2199023255553, port := 2, at_ := 1000 * 268435456 }] } : State)).advance 0, ((((({ tServe with net.table := [{ mac := 2199023255553, port := 2, at_ := 1000 * 268435456 }] } : State)).advance 0).bridgeLive.filter fun e => e.mac ≠ ethSrc (([2, 0, 0, 0, 0, 1, 2, 0, 0, 0, 0, 7] ++ [8, 0] ++ List.replicate 40 0) : Bytes)) ++ [{ mac := ethSrc (([2, 0, 0, 0, 0, 1, 2, 0, 0, 0, 0, 7] ++ [8, 0] ++ List.replicate 40 0) : Bytes), port := 0, at_ := ((({ tServe with net.table := [{ mac := 2199023255553, port := 2, at_ := 1000 * 268435456 }] } : State)).advance 0).t }]), { mac := 2199023255553, port := 2, at_ := 1000 * 268435456 }, ?_, ?_, ?_, ?_, ?_, ?_, ?_, ?_, ?_, ?_⟩ <;> first | with_reducible rfl | decide +kernel,
    by refine ⟨(1 : Nat), (0 : Fin 2), (true : Bool), ([1, 2, 3] : Bytes), ((tServe.setBit rTimCtl 2 false) : State), (((tServe.setBit rTimCtl 2 false) : State).advance (1 : Nat) : State), (((((tServe.setBit rTimCtl 2 false) : State).advance (1 : Nat) : State).net.ports[1 - (0 : Fin 2).val]?).getD {} : NetPort), ?_, ?_, ?_, ?_, ?_, ?_, ?_, ?_⟩ <;> first | with_reducible rfl | decide +kernel,
    by refine ⟨(1 : Nat), (0 : Fin 2), (true : Bool), (true : Bool), tServe, (tServe.advance (1 : Nat) : State), ((tServe.net.ports[(0 : Fin 2).val]?).getD {} : NetPort), (((true : Bool) && tServe.pow.locks.getD 1 false) : Bool), ?_, ?_, ?_, ?_⟩ <;> first | with_reducible rfl | decide +kernel | (unfold State.Inv; decide +kernel),
    by refine ⟨({ tServe with net.table := ({ mac := 0, port := 0, at_ := 0 } : BridgeEnt) :: ([] : List BridgeEnt) } : State), (({ tServe with net.table := ({ mac := 0, port := 0, at_ := 0 } : BridgeEnt) :: ([] : List BridgeEnt) } : State).until (({ mac := 0, port := 0, at_ := 0 } : BridgeEnt).at_ + 300 * second) : State), ({ mac := 0, port := 0, at_ := 0 } : BridgeEnt), ([] : List BridgeEnt), ?_, ?_, ?_⟩ <;> first | with_reducible rfl | decide +kernel⟩

/-- Of the witness below. -/
def tBridgeAndPausePorts_3_0a : State := ((({ ((({ ((tServe.setBit rNetCtl 6 true).setReg rNetPause 0) with net.pausing := false, rings := tServe.rings.set 12 { (tServe.ring 12) with waiting := [(true, .open_)] } } : State).setBit rNetCtl 6 true) : State) with net.pausing := false } : State).setRing 5 { ({ ((({ ((tServe.setBit rNetCtl 6 true).setReg rNetPause 0) with net.pausing := false, rings := tServe.rings.set 12 { (tServe.ring 12) with waiting := [(true, .open_)] } } : State).setBit rNetCtl 6 true) : State) with net.pausing := false } : State).ring 5 with en := true }) : State)

/-- Of the witness below. -/
def tBridgeAndPausePorts_3_1a : State := ({ ((({ ((tServe.setBit rNetCtl 6 true).setReg rNetPause 0) with net.pausing := true, rings := (tServe.rings.set 5 { (tServe.ring 5) with w := 50 }).set 12 { (tServe.ring 12) with waiting := [(true, .open_)] } } : State).setBit rNetCtl 6 true) : State) with net.pausing := true } : State)

theorem witness_BridgeAndPausePorts_2 :
    (∃ (s : State), s.Inv ∧ s.bitOf rNetCtl 6 = true ∧ s.q12Stalled = true ∧ s.net.pausing = false ∧ (s.ring 5).en = true ∧ s.fld rNetPause 7 0 * (s.ring 5).size ≤ ((s.ring 5).w - (s.ring 5).r) * 100) ∧
    (∃ (s : State) (s1 : State), s.Inv ∧ s.bitOf rNetCtl 6 = true ∧ s.q12Stalled = true ∧ s.net.pausing = true ∧ s.fld rNetPause 15 8 * (s.ring 5).size < ((s.ring 5).w - (s.ring 5).r) * 100 ∧ s1 = s.until (s.net.lastPause + 16 * 268435456 / 1000)) ∧
    (∃ (s : State), (s.bitOf rNetCtl 6 = false ∨ s.q12Stalled = false ∨ (s.net.pausing = true ∧ ((s.ring 5).w - (s.ring 5).r) * 100 ≤ s.fld rNetPause 15 8 * (s.ring 5).size)) ∧ s.net.pausing = false) ∧
    (∃ (s : State), (s.bitOf rNetCtl 6 = false ∨ s.q12Stalled = false ∨ (s.net.pausing = true ∧ ((s.ring 5).w - (s.ring 5).r) * 100 ≤ s.fld rNetPause 15 8 * (s.ring 5).size)) ∧ s.net.pausing = true) ∧
    (∃ (dt : Nat) (port : Fin 2) (quanta : Fin 65536) (s : State) (s1 : State) (p : NetPort), s1 = s.advance dt ∧ s.net.ports[port.val]? = some p ∧ (s.bitOf rNetCtl 7 = false ∨ s.portUp port = false)) ∧
    (∃ (dt : Nat) (port : Fin 2) (quanta : Fin 65536) (s : State) (s1 : State) (p : NetPort), s1 = s.advance dt ∧ s.net.ports[port.val]? = some p ∧ s.bitOf rNetCtl 7 = true ∧ s.portUp port = true ∧ quanta.val = 0) := ⟨by refine ⟨tBridgeAndPausePorts_3_0a, ?_, ?_, ?_, ?_, ?_, ?_⟩ <;> first | with_reducible rfl | decide +kernel | (unfold State.Inv; decide +kernel),
    by refine ⟨tBridgeAndPausePorts_3_1a, (tBridgeAndPausePorts_3_1a.until (tBridgeAndPausePorts_3_1a.net.lastPause + 16 * 268435456 / 1000) : State), ?_, ?_, ?_, ?_, ?_, ?_⟩ <;> first | with_reducible rfl | decide +kernel | (unfold State.Inv; decide +kernel),
    by refine ⟨({ ((tServe.setBit rNetCtl 6 false) : State) with net.pausing := false } : State), ?_, ?_⟩ <;> first | with_reducible rfl | decide +kernel,
    by refine ⟨({ ((tServe.setBit rNetCtl 6 false) : State) with net.pausing := true } : State), ?_, ?_⟩ <;> first | with_reducible rfl | decide +kernel,
    by refine ⟨(1 : Nat), (0 : Fin 2), (0 : Fin 65536), ((tServe.setBit rNetCtl 7 false) : State), (((tServe.setBit rNetCtl 7 false) : State).advance (1 : Nat) : State), ((((tServe.setBit rNetCtl 7 false) : State).net.ports[(0 : Fin 2).val]?).getD {} : NetPort), ?_, ?_, ?_⟩ <;> first | with_reducible rfl | decide +kernel,
    by refine ⟨(1 : Nat), (0 : Fin 2), (0 : Fin 65536), ((tServe.setBit rNetCtl 7 true) : State), (((tServe.setBit rNetCtl 7 true) : State).advance (1 : Nat) : State), ((((tServe.setBit rNetCtl 7 true) : State).net.ports[(0 : Fin 2).val]?).getD {} : NetPort), ?_, ?_, ?_, ?_, ?_⟩ <;> first | with_reducible rfl | decide +kernel⟩

/-- Of the witness below. -/
def tBridgeAndPausePorts_6_0a : State := ({ (tServe.setBit rNetCtl 8 true) with net.ports := [({ up := true, pausedUntil := 1001 * 268435456 } : NetPort), {}] } : State)

/-- Of the witness below. -/
def tBridgeAndPausePorts_6_1a : State := ({ (tServe.setBit rNetCtl 8 true) with net.ports := [({ up := true, pausedUntil := 1001 * 268435456, held := [({ ok := false, bytes := [] } : EthFrame)] } : NetPort), {}] } : State)

/-- Of the witness below. -/
def tBridgeAndPausePorts_7_1a : State := ((({ tServe with net.devIn := ((1 : Nat), ((List.replicate 6 0xFF ++ [2, 0, 0, 0, 0, 7] ++ [8, 6, 0, 1, 8, 0, 6, 4, 0, 1] ++ List.replicate 40 0) : Bytes)) :: ([] : List (Nat × Bytes)) } : State).setBit rNetCtl 5 true) : State)

/-- Of the witness below. -/
def tBridgeAndPausePorts_7_2a : State := ((({ ((tServe.setReg rNetUdp 0) : State) with net.devIn := ((1 : Nat), ((List.replicate 6 0xFF ++ [2, 0, 0, 0, 0, 7] ++ [8, 0, 0x45, 0, 0, 28, 0, 0, 0x40, 0, 64, 17, 0x3A, 0xD2, 0, 0, 0, 0, 0, 0, 0, 0, 0, 0, 0, 0, 0, 8, 0, 0]) : Bytes)) :: ([] : List (Nat × Bytes)) } : State).setBit rNetCtl 5 true) : State)

/-- Of the witness below. -/
def tBridgeAndPausePorts_7_2b : Bytes := ((List.replicate 6 0xFF ++ [2, 0, 0, 0, 0, 7] ++ [8, 0, 0x45, 0, 0, 28, 0, 0, 0x40, 0, 64, 17, 0x3A, 0xD2, 0, 0, 0, 0, 0, 0, 0, 0, 0, 0, 0, 0, 0, 8, 0, 0]) : Bytes)

theorem witness_BridgeAndPausePorts_3 :
    (∃ (dt : Nat) (port : Fin 2) (quanta : Fin 65536) (s : State) (s1 : State) (p : NetPort), s1 = s.advance dt ∧ s.net.ports[port.val]? = some p ∧ s.bitOf rNetCtl 7 = true ∧ s.portUp port = true ∧ quanta.val ≠ 0) ∧
    (∃ (port : Fin 2) (s : State) (s1 : State) (p : NetPort) (f : EthFrame), s.net.ports[port.val]? = some p ∧ s.t < p.pausedUntil ∧ s1 = s.until p.pausedUntil ∧ s.netTx = false ∧ p.held = []) ∧
    (∃ (port : Fin 2) (s : State) (s1 : State) (p : NetPort) (f : EthFrame), s.net.ports[port.val]? = some p ∧ s.t < p.pausedUntil ∧ s1 = s.until p.pausedUntil ∧ s.netTx = false ∧ p.held = [f] ∧ p.busyTo ≤ s1.t) ∧
    (∃ (s : State) (s1 : State) (stamp : Nat) (b : Bytes) (r : List (Nat × Bytes)), s.net.devIn = (stamp, b) :: r ∧ s1 = { s with net := { s.net with devIn := r } } ∧ s.acceptsMac (ethDst b) = false) ∧
    (∃ (s : State) (s1 : State) (stamp : Nat) (b : Bytes) (r : List (Nat × Bytes)), s.net.devIn = (stamp, b) :: r ∧ s1 = { s with net := { s.net with devIn := r } } ∧ s.acceptsMac (ethDst b) = true ∧ ethType b = 0x0806 ∧ s.bitOf rNetCtl 5 = true ∧ fldB 20 2 b = 1 ∧ sub 38 4 b = s.ip4) ∧
    (∃ (s : State) (s1 : State) (stamp : Nat) (b : Bytes) (r : List (Nat × Bytes)) (p : Bytes) (body : Bytes), s.net.devIn = (stamp, b) :: r ∧ s1 = { s with net := { s.net with devIn := r } } ∧ s.acceptsMac (ethDst b) = true ∧ ethType b = 0x0800 ∧ s.bitOf rNetCtl 5 = true ∧ p = b.drop 14 ∧ fldB 0 1 p = 0x45 ∧ fldB 6 2 p = 0x4000 ∧ fldB 9 1 p = 17 ∧ fold16 (sum16 (p.take 20)) = 65535 ∧ sub 16 4 p = s.ip4 ∧ body = (p.take (fldB 2 2 p)).drop 20 ∧ fldB 6 2 body = 0 ∧ fldB 2 2 body = s.fld rNetUdp 15 0 ∧ s.cfg.role ≠ .head) := ⟨by refine ⟨(1 : Nat), (0 : Fin 2), (1 : Fin 65536), ((tServe.setBit rNetCtl 7 true) : State), (((tServe.setBit rNetCtl 7 true) : State).advance (1 : Nat) : State), ((((tServe.setBit rNetCtl 7 true) : State).net.ports[(0 : Fin 2).val]?).getD {} : NetPort), ?_, ?_, ?_, ?_, ?_⟩ <;> first | with_reducible rfl | decide +kernel,
    by refine ⟨(0 : Fin 2), tBridgeAndPausePorts_6_0a, (tBridgeAndPausePorts_6_0a.until ({ up := true, pausedUntil := 1001 * 268435456 } : NetPort).pausedUntil : State), ({ up := true, pausedUntil := 1001 * 268435456 } : NetPort), ({ ok := false, bytes := [] } : EthFrame), ?_, ?_, ?_, ?_, ?_⟩ <;> first | with_reducible rfl | decide +kernel,
    by refine ⟨(0 : Fin 2), tBridgeAndPausePorts_6_1a, (tBridgeAndPausePorts_6_1a.until ({ up := true, pausedUntil := 1001 * 268435456, held := [({ ok := false, bytes := [] } : EthFrame)] } : NetPort).pausedUntil : State), ({ up := true, pausedUntil := 1001 * 268435456, held := [({ ok := false, bytes := [] } : EthFrame)] } : NetPort), ({ ok := false, bytes := [] } : EthFrame), ?_, ?_, ?_, ?_, ?_, ?_⟩ <;> first | with_reducible rfl | decide +kernel,
    by refine ⟨({ tServe with net.devIn := ((1 : Nat), ([1, 2, 3] : Bytes)) :: ([] : List (Nat × Bytes)) } : State), ({ ({ tServe with net.devIn := ((1 : Nat), ([1, 2, 3] : Bytes)) :: ([] : List (Nat × Bytes)) } : State) with net := { ({ tServe with net.devIn := ((1 : Nat), ([1, 2, 3] : Bytes)) :: ([] : List (Nat × Bytes)) } : State).net with devIn := ([] : List (Nat × Bytes)) } } : State), (1 : Nat), ([1, 2, 3] : Bytes), ([] : List (Nat × Bytes)), ?_, ?_, ?_⟩ <;> first | with_reducible rfl | decide +kernel,
    by refine ⟨tBridgeAndPausePorts_7_1a, ({ tBridgeAndPausePorts_7_1a with net := { tBridgeAndPausePorts_7_1a.net with devIn := ([] : List (Nat × Bytes)) } } : State), (1 : Nat), ((List.replicate 6 0xFF ++ [2, 0, 0, 0, 0, 7] ++ [8, 6, 0, 1, 8, 0, 6, 4, 0, 1] ++ List.replicate 40 0) : Bytes), ([] : List (Nat × Bytes)), ?_, ?_, ?_, ?_, ?_, ?_, ?_⟩ <;> first | with_reducible rfl | decide +kernel,
    by refine ⟨tBridgeAndPausePorts_7_2a, ({ tBridgeAndPausePorts_7_2a with net := { tBridgeAndPausePorts_7_2a.net with devIn := ([] : List (Nat × Bytes)) } } : State), (1 : Nat), tBridgeAndPausePorts_7_2b, ([] : List (Nat × Bytes)), (tBridgeAndPausePorts_7_2b.drop 14 : Bytes), (((tBridgeAndPausePorts_7_2b.drop 14 : Bytes).take (fldB 2 2 (tBridgeAndPausePorts_7_2b.drop 14 : Bytes))).drop 20 : Bytes), ?_, ?_, ?_, ?_, ?_, ?_, ?_, ?_, ?_, ?_, ?_, ?_, ?_, ?_, ?_⟩ <;> first | with_reducible rfl | decide +kernel⟩

/-- Of the witness below. -/
def tBridgeAndPausePorts_7_3a : State := ((({ tServe with net.devIn := ((1 : Nat), ((List.replicate 6 0xFF ++ [2, 0, 0, 0, 0, 7] ++ [8, 0] ++ List.replicate 46 0) : Bytes)) :: ([] : List (Nat × Bytes)) } : State).setBit rNetCtl 5 false) : State)

theorem witness_BridgeAndPausePorts_4 :
    (∃ (s : State) (s1 : State) (stamp : Nat) (b : Bytes) (r : List (Nat × Bytes)), s.net.devIn = (stamp, b) :: r ∧ s1 = { s with net := { s.net with devIn := r } } ∧ s.acceptsMac (ethDst b) = true ∧ ethType b = 0x0800 ∧ s.bitOf rNetCtl 5 = false) ∧
    (∃ (s : State), s.net.devIn = []) ∧
    (∃ (w : Who) (v : Word) (s : State), s.Inv ∧ w ≠ .seif ∧ s.net.mdio = none) ∧
    (∃ (dt : Nat) (data : Fin 65536) (s : State) (s1 : State) (m : Mdio), s.Inv ∧ s1 = s.advance dt ∧ s.net.mdio = some m) ∧
    (∃ (s : State), s.Inv ∧ s.net.dad = .tentative) ∧
    (∃ (ok : Bool) (s : State), s.net.dad ≠ .tentative) := ⟨by refine ⟨tBridgeAndPausePorts_7_3a, ({ tBridgeAndPausePorts_7_3a with net := { tBridgeAndPausePorts_7_3a.net with devIn := ([] : List (Nat × Bytes)) } } : State), (1 : Nat), ((List.replicate 6 0xFF ++ [2, 0, 0, 0, 0, 7] ++ [8, 0] ++ List.replicate 46 0) : Bytes), ([] : List (Nat × Bytes)), ?_, ?_, ?_, ?_, ?_⟩ <;> first | with_reducible rfl | decide +kernel,
    by refine ⟨({ tServe with net.devIn := [] } : State), ?_⟩ <;> first | with_reducible rfl | decide +kernel,
    by refine ⟨(.dev : Who), (0x1234 : Word), ({ tServe with net.mdio := none } : State), ?_, ?_, ?_⟩ <;> first | with_reducible rfl | decide +kernel | (unfold State.Inv; decide +kernel),
    by refine ⟨(1 : Nat), (0 : Fin 65536), ({ tServe with net.mdio := some ({ write := false, phyad := 0, regad := 0, data := 0, start := 0 } : Mdio) } : State), (({ tServe with net.mdio := some ({ write := false, phyad := 0, regad := 0, data := 0, start := 0 } : Mdio) } : State).advance (1 : Nat) : State), ({ write := false, phyad := 0, regad := 0, data := 0, start := 0 } : Mdio), ?_, ?_, ?_⟩ <;> first | with_reducible rfl | decide +kernel | (unfold State.Inv; decide +kernel),
    by refine ⟨({ tServe with net.dad := .tentative } : State), ?_, ?_⟩ <;> first | with_reducible rfl | decide +kernel | (unfold State.Inv; decide +kernel),
    by refine ⟨(true : Bool), tServe, ?_⟩ <;> first | with_reducible rfl | decide +kernel⟩

/-- Of the witness below. -/
def tRadioReceivesAndAcknowledges_0_1_0a : State := ((((({ tServe with rad.txs := [{ from_ := 1000 * 268435456 - 3, air := 100 * 268435456 }] } : State).setBit rRadCtl 0 true) : State).setBit (rRadRxch (0 : Fin 8)) 15 true) : State)

/-- Of the witness below. -/
def tRadioReceivesAndAcknowledges_0_1_3a : Bytes := ((([0x12, 1, 0, 0, 0, 5, 0, 0] ++ List.replicate 20 0) ++ radFcs false ([0x12, 1, 0, 0, 0, 5, 0, 0] ++ List.replicate 20 0)) : Bytes)

/-- Of the witness below. -/
def tRadioReceivesAndAcknowledges_0_1_3b : State := ({ ({ ({ ((((tServe.setBit rRadCtl 0 true) : State).setBit (rRadRxch (0 : Fin 8)) 15 true) : State) with seq.holder := true } : State) with rad.xch := none } : State) with arb.flips := [] } : State)

/-- Of the witness below. -/
def tRadioReceivesAndAcknowledges_1_0a : State := ({ ({ tRec with rad.acks := [({ chan := 0, mode := 0, ended := 0, due := 0, dst := 0, slot := none, seq := 0, verd := 0, cont := false } : PendAck)] } : State) with rad.xch := none } : State)

/-- Of the witness below. -/
def tRadioReceivesAndAcknowledges_1_0b : Bytes := (le 2 (3 + 256 + flag 7 ((match ({ chan := 0, mode := 0, ended := 0, due := 0, dst := 0, slot := none, seq := 0, verd := 0, cont := false } : PendAck).slot with | some i => tRadioReceivesAndAcknowledges_1_0a.downWaits i | none => false) : Bool)) ++ le 3 ({ chan := 0, mode := 0, ended := 0, due := 0, dst := 0, slot := none, seq := 0, verd := 0, cont := false } : PendAck).dst ++ le 3 0 ++ le 4 ({ chan := 0, mode := 0, ended := 0, due := 0, dst := 0, slot := none, seq := 0, verd := 0, cont := false } : PendAck).seq ++ le 1 (({ chan := 0, mode := 0, ended := 0, due := 0, dst := 0, slot := none, seq := 0, verd := 0, cont := false } : PendAck).verd + flag 3 ({ chan := 0, mode := 0, ended := 0, due := 0, dst := 0, slot := none, seq := 0, verd := 0, cont := false } : PendAck).cont) ++ (match ({ chan := 0, mode := 0, ended := 0, due := 0, dst := 0, slot := none, seq := 0, verd := 0, cont := false } : PendAck).join with | some (e, sh) => le 3 sh ++ be 8 e | none => []) : Bytes)

theorem witness_RadioReceivesAndAcknowledges_1 :
    (∃ (dt : Nat) (chan : Fin 8) (rssi : Int) (sw : Bool) (f4 : Bool) (dw : Bool) (psdu : Bytes) (s : State) (s1 : State) (start : Nat), s1 = s.advance dt ∧ start = s1.t - 8 * (8 + psdu.length) * 268435456 / modeRate (s.fld (rRadRxch chan) 14 12) ∧ (s.bitOf rRadCtl 0 = false ∨ s.bitOf (rRadRxch chan) 15 = false ∨ s1.blind start (start + 1) = true)) ∧
    (∃ (dt : Nat) (chan : Fin 8) (rssi : Int) (sw : Bool) (f4 : Bool) (dw : Bool) (psdu : Bytes) (s : State) (s1 : State) (start : Nat), s1 = s.advance dt ∧ start = s1.t - 8 * (8 + psdu.length) * 268435456 / modeRate (s.fld (rRadRxch chan) 14 12) ∧ s.bitOf rRadCtl 0 = true ∧ s.bitOf (rRadRxch chan) 15 = true ∧ s1.blind start (start + 1) = false ∧ (∀ c, s.rad.cutAt = some c → c < start) ∧ s1.blind start s1.t = true) ∧
    (∃ (dt : Nat) (chan : Fin 8) (rssi : Int) (sw : Bool) (f4 : Bool) (dw : Bool) (psdu : Bytes) (s : State) (s1 : State) (start : Nat), s1 = s.advance dt ∧ start = s1.t - 8 * (8 + psdu.length) * 268435456 / modeRate (s.fld (rRadRxch chan) 14 12) ∧ s.bitOf rRadCtl 0 = true ∧ s.bitOf (rRadRxch chan) 15 = true ∧ s1.blind start (start + 1) = false ∧ (∀ c, s.rad.cutAt = some c → c < start) ∧ s1.blind start s1.t = false ∧ (sw = true ∨ psdu.length < 11 ∨ 511 < psdu.length)) ∧
    (∃ (dt : Nat) (chan : Fin 8) (rssi : Int) (sw : Bool) (f4 : Bool) (dw : Bool) (psdu : Bytes) (s : State) (s1 : State) (start : Nat), s1 = s.advance dt ∧ start = s1.t - 8 * (8 + psdu.length) * 268435456 / modeRate (s.fld (rRadRxch chan) 14 12) ∧ s.bitOf rRadCtl 0 = true ∧ s.bitOf (rRadRxch chan) 15 = true ∧ s1.blind start (start + 1) = false ∧ (∀ c, s.rad.cutAt = some c → c < start) ∧ s1.blind start s1.t = false ∧ sw = false ∧ 11 ≤ psdu.length ∧ psdu.length ≤ 511 ∧ psduFrame f4 dw psdu = none) ∧
    (∃ (dt : Nat) (chan : Fin 8) (rssi : Int) (sw : Bool) (f4 : Bool) (dw : Bool) (psdu : Bytes) (s : State) (s1 : State) (start : Nat) (bytes : Bytes) (f : Frame) (v : Nat) (c : EClass) (sl : Option Nat), s1 = s.advance dt ∧ start = s1.t - 8 * (8 + psdu.length) * 268435456 / modeRate (s.fld (rRadRxch chan) 14 12) ∧ s.bitOf rRadCtl 0 = true ∧ s.bitOf (rRadRxch chan) 15 = true ∧ s1.blind start (start + 1) = false ∧ (∀ c, s.rad.cutAt = some c → c < start) ∧ s1.blind start s1.t = false ∧ sw = false ∧ 11 ≤ psdu.length ∧ psdu.length ≤ 511 ∧ psduFrame f4 dw psdu = some bytes ∧ f = radioFrame bytes ∧ radioFrameOk f = true ∧ f.ftype = 2 ∧ s.seq.holder = true ∧ s.rad.xch = none ∧ s.arb.flips = [] ∧ ((s1.ringOpens 1 = false ∧ v = 2 ∧ c = .busy ∧ sl = none) ∨ (s1.ringOpens 1 = true ∧ (f.src = 0 ∨ 131072 < f.src) ∧ v = 3 ∧ c = .orphan ∧ sl = none) ∨ (s1.ringOpens 1 = true ∧ 0 < f.src ∧ f.src ≤ 131072 ∧ (s.slot (f.src - 1)).fault = true ∧ v = 2 ∧ c = .busy ∧ sl = some (f.src - 1)) ∨ (s1.ringOpens 1 = true ∧ 0 < f.src ∧ f.src ≤ 131072 ∧ (s.slot (f.src - 1)).fault = false ∧ ((s.slot (f.src - 1)).state = .free ∨ (s.slot (f.src - 1)).state = .decom) ∧ v = 3 ∧ c = .orphan ∧ sl = some (f.src - 1)) ∨ (s1.ringOpens 1 = true ∧ 0 < f.src ∧ f.src ≤ 131072 ∧ (s.slot (f.src - 1)).state ≠ .free ∧ (s.slot (f.src - 1)).state ≠ .decom ∧ (s.slot (f.src - 1)).fault = false ∧ sl = some (f.src - 1) ∧ ((dupCheck (s.slot (f.src - 1)) f.seq).1 = true ∧ v = 0 ∧ c = .normal ∨ (dupCheck (s.slot (f.src - 1)) f.seq).1 = false ∧ v = 1 ∧ c = .dup)))) ∧
    (∃ (s : State) (s1 : State) (a : PendAck) (dpend : Bool) (air : Nat) (ch : Nat) (frame : Bytes), s.Inv ∧ s.rad.acks = [a] ∧ s.rad.xch = none ∧ s1 = s.until a.due ∧ ch = s.fld (rRadRxch a.chan) 11 0 + a.mode * 4096 ∧ dpend = (match a.slot with | some i => s.downWaits i | none => false) ∧ frame = le 2 (3 + 256 + flag 7 dpend) ++ le 3 a.dst ++ le 3 0 ++ le 4 a.seq ++ le 1 (a.verd + flag 3 a.cont) ++ (match a.join with | some (e, sh) => le 3 sh ++ be 8 e | none => []) ∧ air = s.ackAir a.mode frame.length ∧ s.radTx = false) := ⟨by refine ⟨(1 : Nat), (0 : Fin 8), (5 : Int), (true : Bool), (true : Bool), (true : Bool), ([1, 2, 3] : Bytes), ((tServe.setBit rRadCtl 0 false) : State), (((tServe.setBit rRadCtl 0 false) : State).advance (1 : Nat) : State), ((((tServe.setBit rRadCtl 0 false) : State).advance (1 : Nat) : State).t - 8 * (8 + ([1, 2, 3] : Bytes).length) * 268435456 / modeRate (((tServe.setBit rRadCtl 0 false) : State).fld (rRadRxch (0 : Fin 8)) 14 12) : Nat), ?_, ?_, ?_⟩ <;> first | with_reducible rfl | decide +kernel,
    by refine ⟨(0 : Nat), (0 : Fin 8), (5 : Int), (true : Bool), (true : Bool), (true : Bool), ((List.replicate 12 0) : Bytes), tRadioReceivesAndAcknowledges_0_1_0a, (tRadioReceivesAndAcknowledges_0_1_0a.advance (0 : Nat) : State), ((tRadioReceivesAndAcknowledges_0_1_0a.advance (0 : Nat) : State).t - 8 * (8 + ((List.replicate 12 0) : Bytes).length) * 268435456 / modeRate (tRadioReceivesAndAcknowledges_0_1_0a.fld (rRadRxch (0 : Fin 8)) 14 12) : Nat), ?_, ?_, ?_, ?_, ?_, ?_, ?_⟩ <;> first | with_reducible rfl | decide +kernel,
    by refine ⟨(1 : Nat), (0 : Fin 8), (5 : Int), (true : Bool), (true : Bool), (true : Bool), ([1, 2, 3] : Bytes), ((((tServe.setBit rRadCtl 0 true) : State).setBit (rRadRxch (0 : Fin 8)) 15 true) : State), (((((tServe.setBit rRadCtl 0 true) : State).setBit (rRadRxch (0 : Fin 8)) 15 true) : State).advance (1 : Nat) : State), ((((((tServe.setBit rRadCtl 0 true) : State).setBit (rRadRxch (0 : Fin 8)) 15 true) : State).advance (1 : Nat) : State).t - 8 * (8 + ([1, 2, 3] : Bytes).length) * 268435456 / modeRate (((((tServe.setBit rRadCtl 0 true) : State).setBit (rRadRxch (0 : Fin 8)) 15 true) : State).fld (rRadRxch (0 : Fin 8)) 14 12) : Nat), ?_, ?_, ?_, ?_, ?_, ?_, ?_, ?_⟩ <;> first | with_reducible rfl | decide +kernel,
    by refine ⟨(1 : Nat), (0 : Fin 8), (5 : Int), (false : Bool), (true : Bool), (true : Bool), ((List.replicate 11 0) : Bytes), ((((tServe.setBit rRadCtl 0 true) : State).setBit (rRadRxch (0 : Fin 8)) 15 true) : State), (((((tServe.setBit rRadCtl 0 true) : State).setBit (rRadRxch (0 : Fin 8)) 15 true) : State).advance (1 : Nat) : State), ((((((tServe.setBit rRadCtl 0 true) : State).setBit (rRadRxch (0 : Fin 8)) 15 true) : State).advance (1 : Nat) : State).t - 8 * (8 + ((List.replicate 11 0) : Bytes).length) * 268435456 / modeRate (((((tServe.setBit rRadCtl 0 true) : State).setBit (rRadRxch (0 : Fin 8)) 15 true) : State).fld (rRadRxch (0 : Fin 8)) 14 12) : Nat), ?_, ?_, ?_, ?_, ?_, ?_, ?_, ?_, ?_, ?_, ?_⟩ <;> first | with_reducible rfl | decide +kernel,
    by refine ⟨(0 : Nat), (0 : Fin 8), (5 : Int), (false : Bool), (false : Bool), (false : Bool), tRadioReceivesAndAcknowledges_0_1_3a, tRadioReceivesAndAcknowledges_0_1_3b, (tRadioReceivesAndAcknowledges_0_1_3b.advance (0 : Nat) : State), ((tRadioReceivesAndAcknowledges_0_1_3b.advance (0 : Nat) : State).t - 8 * (8 + tRadioReceivesAndAcknowledges_0_1_3a.length) * 268435456 / modeRate (tRadioReceivesAndAcknowledges_0_1_3b.fld (rRadRxch (0 : Fin 8)) 14 12) : Nat), ((psduFrame (false : Bool) (false : Bool) tRadioReceivesAndAcknowledges_0_1_3a).getD [] : Bytes), (radioFrame ((psduFrame (false : Bool) (false : Bool) tRadioReceivesAndAcknowledges_0_1_3a).getD [] : Bytes) : Frame), (3 : Nat), (.orphan : EClass), ((some 4) : Option Nat), ?_, ?_, ?_, ?_, ?_, ?_, ?_, ?_, ?_, ?_, ?_, ?_, ?_, ?_, ?_, ?_, ?_, ?_⟩ <;> first | with_reducible rfl | decide +kernel,
    by refine ⟨tRadioReceivesAndAcknowledges_1_0a, (tRadioReceivesAndAcknowledges_1_0a.until ({ chan := 0, mode := 0, ended := 0, due := 0, dst := 0, slot := none, seq := 0, verd := 0, cont := false } : PendAck).due : State), ({ chan := 0, mode := 0, ended := 0, due := 0, dst := 0, slot := none, seq := 0, verd := 0, cont := false } : PendAck), ((match ({ chan := 0, mode := 0, ended := 0, due := 0, dst := 0, slot := none, seq := 0, verd := 0, cont := false } : PendAck).slot with | some i => tRadioReceivesAndAcknowledges_1_0a.downWaits i | none => false) : Bool), (tRadioReceivesAndAcknowledges_1_0a.ackAir ({ chan := 0, mode := 0, ended := 0, due := 0, dst := 0, slot := none, seq := 0, verd := 0, cont := false } : PendAck).mode tRadioReceivesAndAcknowledges_1_0b.length : Nat), (tRadioReceivesAndAcknowledges_1_0a.fld (rRadRxch ({ chan := 0, mode := 0, ended := 0, due := 0, dst := 0, slot := none, seq := 0, verd := 0, cont := false } : PendAck).chan) 11 0 + ({ chan := 0, mode := 0, ended := 0, due := 0, dst := 0, slot := none, seq := 0, verd := 0, cont := false } : PendAck).mode * 4096 : Nat), tRadioReceivesAndAcknowledges_1_0b, ?_, ?_, ?_, ?_, ?_, ?_, ?_, ?_, ?_⟩ <;> first | with_reducible rfl | decide +kernel | (unfold State.Inv; decide +kernel)⟩

/-- Of the witness below. -/
def tRadioReceivesAndAcknowledges_1_1a : State := ({ ({ ({ tServe with rad.budget := 0, rad.budgetAt := 1000 * 268435456 } : State) with rad.acks := [({ chan := 0, mode := 0, ended := 0, due := 0, dst := 0, slot := none, seq := 0, verd := 0, cont := false } : PendAck)] } : State) with rad.xch := none } : State)

/-- Of the witness below. -/
def tRadioReceivesAndAcknowledges_1_1b : Bytes := (le 2 (3 + 256 + flag 7 ((match ({ chan := 0, mode := 0, ended := 0, due := 0, dst := 0, slot := none, seq := 0, verd := 0, cont := false } : PendAck).slot with | some i => tRadioReceivesAndAcknowledges_1_1a.downWaits i | none => false) : Bool)) ++ le 3 ({ chan := 0, mode := 0, ended := 0, due := 0, dst := 0, slot := none, seq := 0, verd := 0, cont := false } : PendAck).dst ++ le 3 0 ++ le 4 ({ chan := 0, mode := 0, ended := 0, due := 0, dst := 0, slot := none, seq := 0, verd := 0, cont := false } : PendAck).seq ++ le 1 (({ chan := 0, mode := 0, ended := 0, due := 0, dst := 0, slot := none, seq := 0, verd := 0, cont := false } : PendAck).verd + flag 3 ({ chan := 0, mode := 0, ended := 0, due := 0, dst := 0, slot := none, seq := 0, verd := 0, cont := false } : PendAck).cont) ++ (match ({ chan := 0, mode := 0, ended := 0, due := 0, dst := 0, slot := none, seq := 0, verd := 0, cont := false } : PendAck).join with | some (e, sh) => le 3 sh ++ be 8 e | none => []) : Bytes)

/-- Of the witness below. -/
def tRadioReceivesAndAcknowledges_1_2a : State := ({ ({ tServe with rad.acks := [({ chan := 0, mode := 0, ended := 0, due := 0, dst := 0, slot := none, seq := 0, verd := 0, cont := false } : PendAck)] } : State) with rad.xch := none } : State)

/-- Of the witness below. -/
def tRadioReceivesAndAcknowledges_1_2b : Bytes := (le 2 (3 + 256 + flag 7 ((match ({ chan := 0, mode := 0, ended := 0, due := 0, dst := 0, slot := none, seq := 0, verd := 0, cont := false } : PendAck).slot with | some i => tRadioReceivesAndAcknowledges_1_2a.downWaits i | none => false) : Bool)) ++ le 3 ({ chan := 0, mode := 0, ended := 0, due := 0, dst := 0, slot := none, seq := 0, verd := 0, cont := false } : PendAck).dst ++ le 3 0 ++ le 4 ({ chan := 0, mode := 0, ended := 0, due := 0, dst := 0, slot := none, seq := 0, verd := 0, cont := false } : PendAck).seq ++ le 1 (({ chan := 0, mode := 0, ended := 0, due := 0, dst := 0, slot := none, seq := 0, verd := 0, cont := false } : PendAck).verd + flag 3 ({ chan := 0, mode := 0, ended := 0, due := 0, dst := 0, slot := none, seq := 0, verd := 0, cont := false } : PendAck).cont) ++ (match ({ chan := 0, mode := 0, ended := 0, due := 0, dst := 0, slot := none, seq := 0, verd := 0, cont := false } : PendAck).join with | some (e, sh) => le 3 sh ++ be 8 e | none => []) : Bytes)

theorem witness_RadioReceivesAndAcknowledges_2 :
    (∃ (s : State) (s1 : State) (a : PendAck) (dpend : Bool) (air : Nat) (ch : Nat) (frame : Bytes), s.Inv ∧ s.rad.acks = [a] ∧ s.rad.xch = none ∧ s1 = s.until a.due ∧ ch = s.fld (rRadRxch a.chan) 11 0 + a.mode * 4096 ∧ dpend = (match a.slot with | some i => s.downWaits i | none => false) ∧ frame = le 2 (3 + 256 + flag 7 dpend) ++ le 3 a.dst ++ le 3 0 ++ le 4 a.seq ++ le 1 (a.verd + flag 3 a.cont) ++ (match a.join with | some (e, sh) => le 3 sh ++ be 8 e | none => []) ∧ air = s.ackAir a.mode frame.length ∧ s.radTx = true ∧ (s1.txBusy (s1.t - s1.paLead) (s1.t + air) = true ∨ s1.ackPays (s1.txCost air) = false)) ∧
    (∃ (s : State) (s1 : State) (a : PendAck) (dpend : Bool) (air : Nat) (ch : Nat) (frame : Bytes), s.Inv ∧ s.rad.acks = [a] ∧ s.rad.xch = none ∧ s1 = s.until a.due ∧ ch = s.fld (rRadRxch a.chan) 11 0 + a.mode * 4096 ∧ dpend = (match a.slot with | some i => s.downWaits i | none => false) ∧ frame = le 2 (3 + 256 + flag 7 dpend) ++ le 3 a.dst ++ le 3 0 ++ le 4 a.seq ++ le 1 (a.verd + flag 3 a.cont) ++ (match a.join with | some (e, sh) => le 3 sh ++ be 8 e | none => []) ∧ air = s.ackAir a.mode frame.length ∧ s.radTx = true ∧ s1.txBusy (s1.t - s1.paLead) (s1.t + air) = false ∧ s1.ackPays (s1.txCost air) = true) ∧
    (∃ (s : State) (ch : Nat) (air : Nat) (pre : Nat) (at_ : Nat) (frame : Bytes) (x : AirFrame), x = s.airFrame ch air pre at_ frame) ∧
    (∃ (s : State), s.rad.acks = []) ∧
    (∃ (s : State) (s1 : State) (x : Seen) (r : List Seen), s.rad.seen = x :: r ∧ s1 = s.until (x.at_ + 60 * 268435456)) ∧
    (∃ (s : State) (s1 : State) (x : Seen) (r : List Seen), s.plc.seen = x :: r ∧ s1 = s.until (x.at_ + 60 * 268435456)) := ⟨by refine ⟨tRadioReceivesAndAcknowledges_1_1a, (tRadioReceivesAndAcknowledges_1_1a.until ({ chan := 0, mode := 0, ended := 0, due := 0, dst := 0, slot := none, seq := 0, verd := 0, cont := false } : PendAck).due : State), ({ chan := 0, mode := 0, ended := 0, due := 0, dst := 0, slot := none, seq := 0, verd := 0, cont := false } : PendAck), ((match ({ chan := 0, mode := 0, ended := 0, due := 0, dst := 0, slot := none, seq := 0, verd := 0, cont := false } : PendAck).slot with | some i => tRadioReceivesAndAcknowledges_1_1a.downWaits i | none => false) : Bool), (tRadioReceivesAndAcknowledges_1_1a.ackAir ({ chan := 0, mode := 0, ended := 0, due := 0, dst := 0, slot := none, seq := 0, verd := 0, cont := false } : PendAck).mode tRadioReceivesAndAcknowledges_1_1b.length : Nat), (tRadioReceivesAndAcknowledges_1_1a.fld (rRadRxch ({ chan := 0, mode := 0, ended := 0, due := 0, dst := 0, slot := none, seq := 0, verd := 0, cont := false } : PendAck).chan) 11 0 + ({ chan := 0, mode := 0, ended := 0, due := 0, dst := 0, slot := none, seq := 0, verd := 0, cont := false } : PendAck).mode * 4096 : Nat), tRadioReceivesAndAcknowledges_1_1b, ?_, ?_, ?_, ?_, ?_, ?_, ?_, ?_, ?_, ?_⟩ <;> first | with_reducible rfl | decide +kernel | (unfold State.Inv; decide +kernel),
    by refine ⟨tRadioReceivesAndAcknowledges_1_2a, (tRadioReceivesAndAcknowledges_1_2a.until ({ chan := 0, mode := 0, ended := 0, due := 0, dst := 0, slot := none, seq := 0, verd := 0, cont := false } : PendAck).due : State), ({ chan := 0, mode := 0, ended := 0, due := 0, dst := 0, slot := none, seq := 0, verd := 0, cont := false } : PendAck), ((match ({ chan := 0, mode := 0, ended := 0, due := 0, dst := 0, slot := none, seq := 0, verd := 0, cont := false } : PendAck).slot with | some i => tRadioReceivesAndAcknowledges_1_2a.downWaits i | none => false) : Bool), (tRadioReceivesAndAcknowledges_1_2a.ackAir ({ chan := 0, mode := 0, ended := 0, due := 0, dst := 0, slot := none, seq := 0, verd := 0, cont := false } : PendAck).mode tRadioReceivesAndAcknowledges_1_2b.length : Nat), (tRadioReceivesAndAcknowledges_1_2a.fld (rRadRxch ({ chan := 0, mode := 0, ended := 0, due := 0, dst := 0, slot := none, seq := 0, verd := 0, cont := false } : PendAck).chan) 11 0 + ({ chan := 0, mode := 0, ended := 0, due := 0, dst := 0, slot := none, seq := 0, verd := 0, cont := false } : PendAck).mode * 4096 : Nat), tRadioReceivesAndAcknowledges_1_2b, ?_, ?_, ?_, ?_, ?_, ?_, ?_, ?_, ?_, ?_, ?_⟩ <;> first | with_reducible rfl | decide +kernel | (unfold State.Inv; decide +kernel),
    by refine ⟨tServe, (1 : Nat), (1 : Nat), (1 : Nat), (1 : Nat), ([1, 2, 3] : Bytes), (tServe.airFrame (1 : Nat) (1 : Nat) (1 : Nat) (1 : Nat) ([1, 2, 3] : Bytes) : AirFrame), ?_⟩ <;> first | with_reducible rfl | decide +kernel,
    by refine ⟨({ tServe with rad.acks := [] } : State), ?_⟩ <;> first | with_reducible rfl | decide +kernel,
    by refine ⟨({ tServe with rad.seen := ({ orig := 0, cid := 0, at_ := 0 } : Seen) :: ([] : List Seen) } : State), (({ tServe with rad.seen := ({ orig := 0, cid := 0, at_ := 0 } : Seen) :: ([] : List Seen) } : State).until (({ orig := 0, cid := 0, at_ := 0 } : Seen).at_ + 60 * 268435456) : State), ({ orig := 0, cid := 0, at_ := 0 } : Seen), ([] : List Seen), ?_, ?_⟩ <;> first | with_reducible rfl | decide +kernel,
    by refine ⟨({ tServe with plc.seen := ({ orig := 0, cid := 0, at_ := 0 } : Seen) :: ([] : List Seen) } : State), (({ tServe with plc.seen := ({ orig := 0, cid := 0, at_ := 0 } : Seen) :: ([] : List Seen) } : State).until (({ orig := 0, cid := 0, at_ := 0 } : Seen).at_ + 60 * 268435456) : State), ({ orig := 0, cid := 0, at_ := 0 } : Seen), ([] : List Seen), ?_, ?_⟩ <;> first | with_reducible rfl | decide +kernel⟩

/-- Of the witness below. -/
def tPollsRunTheirExchange_1_1a : State := (({ tJoined with rad.xch := none } : State).untilDev ((((({ tJoined with rad.xch := none } : State).planPoll (0 : Fin 131072)).getD { w := 0, tp := 0, g := 0, span := 0 } : Plan).tp - ((({ tJoined with rad.xch := none } : State).planPoll (0 : Fin 131072)).getD { w := 0, tp := 0, g := 0, span := 0 } : Plan).g) * 32768) : State)

/-- Of the witness below. -/
def tPollsRunTheirExchange_4a : State := ({ tServe with rad.xch := some ({ ({ ({ ({ slot := 0, full := false, wake := 0, due := 0 } : Exchange) with step := .train } : Exchange) with full := false } : Exchange) with aborted := false } : Exchange) } : State)

/-- Of the witness below. -/
def tPollsRunTheirExchange_4b : State := (tPollsRunTheirExchange_4a.until ({ ({ ({ ({ slot := 0, full := false, wake := 0, due := 0 } : Exchange) with step := .train } : Exchange) with full := false } : Exchange) with aborted := false } : Exchange).due : State)

/-- Of the witness below. -/
def tPollsRunTheirExchange_5_0a : State := ({ tServe with rad.xch := some ({ ({ slot := 0, full := false, wake := 0, due := 0 } : Exchange) with step := .polled } : Exchange) } : State)

/-- Of the witness below. -/
def tPollsRunTheirExchange_5_0b : State := (tPollsRunTheirExchange_5_0a.until ({ ({ slot := 0, full := false, wake := 0, due := 0 } : Exchange) with step := .polled } : Exchange).due : State)

/-- Of the witness below. -/
def tPollsRunTheirExchange_5_0c : State := (tPollsRunTheirExchange_5_0b.setPoll ({ ({ slot := 0, full := false, wake := 0, due := 0 } : Exchange) with step := .polled } : Exchange).slot (if ({ ({ slot := 0, full := false, wake := 0, due := 0 } : Exchange) with step := .polled } : Exchange).full then { tPollsRunTheirExchange_5_0a.poll ({ ({ slot := 0, full := false, wake := 0, due := 0 } : Exchange) with step := .polled } : Exchange).slot with ftMiss := (tPollsRunTheirExchange_5_0a.poll ({ ({ slot := 0, full := false, wake := 0, due := 0 } : Exchange) with step := .polled } : Exchange).slot).ftMiss + 1, lastMiss := tPollsRunTheirExchange_5_0b.t } else { tPollsRunTheirExchange_5_0a.poll ({ ({ slot := 0, full := false, wake := 0, due := 0 } : Exchange) with step := .polled } : Exchange).slot with miss := (tPollsRunTheirExchange_5_0a.poll ({ ({ slot := 0, full := false, wake := 0, due := 0 } : Exchange) with step := .polled } : Exchange).slot).miss + 1, lastMiss := tPollsRunTheirExchange_5_0b.t }) : State)

/-- Of the witness below. -/
def tPollsRunTheirExchange_5_0d : State := (tPollsRunTheirExchange_5_0c.setPoll ({ ({ slot := 0, full := false, wake := 0, due := 0 } : Exchange) with step := .polled } : Exchange).slot { tPollsRunTheirExchange_5_0c.poll ({ ({ slot := 0, full := false, wake := 0, due := 0 } : Exchange) with step := .polled } : Exchange).slot with next := some (wakeAfter ({ ({ slot := 0, full := false, wake := 0, due := 0 } : Exchange) with step := .polled } : Exchange).slot (tPollsRunTheirExchange_5_0a.slot ({ ({ slot := 0, full := false, wake := 0, due := 0 } : Exchange) with step := .polled } : Exchange).slot).wakeS ({ ({ slot := 0, full := false, wake := 0, due := 0 } : Exchange) with step := .polled } : Exchange).wake) } : State)

theorem witness_PollsRunTheirExchange_1 :
    (∃ (i : Fin 131072) (s : State), (s.radTx = false ∨ s.pollable i = false ∨ s.planPoll i = none)) ∧
    (∃ (i : Fin 131072) (s : State) (s1 : State) (p : Plan) (rc : RadClass), s.radTx = true ∧ s.pollable i = true ∧ s.wantsFull i = false ∧ (s.poll i).joinAt = none ∧ s.planPoll i = some p ∧ s1 = s.untilDev ((p.tp - p.g) * 32768) ∧ rc = s.radClass (s.slot i).cls ∧ s.rad.xch.isSome = true) ∧
    (∃ (i : Fin 131072) (s : State) (s1 : State) (p : Plan) (rc : RadClass) (per : Nat) (air : Nat) (n : Nat) (end_ : Nat), s.radTx = true ∧ s.pollable i = true ∧ s.wantsFull i = false ∧ (s.poll i).joinAt = none ∧ s.planPoll i = some p ∧ s1 = s.untilDev ((p.tp - p.g) * 32768) ∧ rc = s.radClass (s.slot i).cls ∧ s.rad.xch = none ∧ s1.planTrain rc p = (per, air, n) ∧ end_ = s1.t + trainEnd rc false per air n ∧ s1.txBusy (s1.t - s1.paLead) end_ = false ∧ s1.overlapped i p s1.dev (s1.dev + (end_ - s1.t)) = false ∧ s1.txPays (n * s1.txCost air + s1.exchangeCost i rc.form) = true) ∧
    (∃ (s : State), (s.ctx.slots.map (·.1)).filter s.wantsFull = []) ∧
    (∃ (s : State) (s1 : State) (x : Exchange) (rc : RadClass) (air : Nat) (at_ : Nat), s.rad.xch = some x ∧ x.step = .train ∧ x.full = false ∧ x.aborted = false ∧ s.radTx = true ∧ s1 = s.until x.due ∧ rc = s.radClass (s.slot x.slot).cls ∧ air = s.pollAir rc rc.form ∧ at_ = (s1.dev + air) / 32768) ∧
    (∃ (s : State) (s1 : State) (s2 : State) (s3 : State) (x : Exchange), s.rad.xch = some x ∧ s1 = s.until x.due ∧ x.step = .polled ∧ s2 = s1.setPoll x.slot (if x.full then { s.poll x.slot with ftMiss := (s.poll x.slot).ftMiss + 1, lastMiss := s1.t } else { s.poll x.slot with miss := (s.poll x.slot).miss + 1, lastMiss := s1.t }) ∧ s3 = s2.setPoll x.slot { s2.poll x.slot with next := some (wakeAfter x.slot (s.slot x.slot).wakeS x.wake) }) := ⟨by refine ⟨(0 : Fin 131072), tServe, ?_⟩ <;> first | with_reducible rfl | decide +kernel,
    by refine ⟨(0 : Fin 131072), ({ tJoined with rad.xch := some { slot := 3, full := false, wake := 0, due := 0 } } : State), (({ tJoined with rad.xch := some { slot := 3, full := false, wake := 0, due := 0 } } : State).untilDev ((((({ tJoined with rad.xch := some { slot := 3, full := false, wake := 0, due := 0 } } : State).planPoll (0 : Fin 131072)).getD { w := 0, tp := 0, g := 0, span := 0 } : Plan).tp - ((({ tJoined with rad.xch := some { slot := 3, full := false, wake := 0, due := 0 } } : State).planPoll (0 : Fin 131072)).getD { w := 0, tp := 0, g := 0, span := 0 } : Plan).g) * 32768) : State), ((({ tJoined with rad.xch := some { slot := 3, full := false, wake := 0, due := 0 } } : State).planPoll (0 : Fin 131072)).getD { w := 0, tp := 0, g := 0, span := 0 } : Plan), (({ tJoined with rad.xch := some { slot := 3, full := false, wake := 0, due := 0 } } : State).radClass (({ tJoined with rad.xch := some { slot := 3, full := false, wake := 0, due := 0 } } : State).slot (0 : Fin 131072)).cls : RadClass), ?_, ?_, ?_, ?_, ?_, ?_, ?_, ?_⟩ <;> first | with_reducible rfl | decide +kernel,
    by refine ⟨(0 : Fin 131072), ({ tJoined with rad.xch := none } : State), tPollsRunTheirExchange_1_1a, ((({ tJoined with rad.xch := none } : State).planPoll (0 : Fin 131072)).getD { w := 0, tp := 0, g := 0, span := 0 } : Plan), (({ tJoined with rad.xch := none } : State).radClass (({ tJoined with rad.xch := none } : State).slot (0 : Fin 131072)).cls : RadClass), ((tPollsRunTheirExchange_1_1a.planTrain (({ tJoined with rad.xch := none } : State).radClass (({ tJoined with rad.xch := none } : State).slot (0 : Fin 131072)).cls : RadClass) ((({ tJoined with rad.xch := none } : State).planPoll (0 : Fin 131072)).getD { w := 0, tp := 0, g := 0, span := 0 } : Plan)).1 : Nat), ((tPollsRunTheirExchange_1_1a.planTrain (({ tJoined with rad.xch := none } : State).radClass (({ tJoined with rad.xch := none } : State).slot (0 : Fin 131072)).cls : RadClass) ((({ tJoined with rad.xch := none } : State).planPoll (0 : Fin 131072)).getD { w := 0, tp := 0, g := 0, span := 0 } : Plan)).2.1 : Nat), ((tPollsRunTheirExchange_1_1a.planTrain (({ tJoined with rad.xch := none } : State).radClass (({ tJoined with rad.xch := none } : State).slot (0 : Fin 131072)).cls : RadClass) ((({ tJoined with rad.xch := none } : State).planPoll (0 : Fin 131072)).getD { w := 0, tp := 0, g := 0, span := 0 } : Plan)).2.2 : Nat), (tPollsRunTheirExchange_1_1a.t + trainEnd (({ tJoined with rad.xch := none } : State).radClass (({ tJoined with rad.xch := none } : State).slot (0 : Fin 131072)).cls : RadClass) false ((tPollsRunTheirExchange_1_1a.planTrain (({ tJoined with rad.xch := none } : State).radClass (({ tJoined with rad.xch := none } : State).slot (0 : Fin 131072)).cls : RadClass) ((({ tJoined with rad.xch := none } : State).planPoll (0 : Fin 131072)).getD { w := 0, tp := 0, g := 0, span := 0 } : Plan)).1 : Nat) ((tPollsRunTheirExchange_1_1a.planTrain (({ tJoined with rad.xch := none } : State).radClass (({ tJoined with rad.xch := none } : State).slot (0 : Fin 131072)).cls : RadClass) ((({ tJoined with rad.xch := none } : State).planPoll (0 : Fin 131072)).getD { w := 0, tp := 0, g := 0, span := 0 } : Plan)).2.1 : Nat) ((tPollsRunTheirExchange_1_1a.planTrain (({ tJoined with rad.xch := none } : State).radClass (({ tJoined with rad.xch := none } : State).slot (0 : Fin 131072)).cls : RadClass) ((({ tJoined with rad.xch := none } : State).planPoll (0 : Fin 131072)).getD { w := 0, tp := 0, g := 0, span := 0 } : Plan)).2.2 : Nat) : Nat), ?_, ?_, ?_, ?_, ?_, ?_, ?_, ?_, ?_, ?_, ?_, ?_, ?_⟩ <;> first | with_reducible rfl | decide +kernel,
    by refine ⟨tServe, ?_⟩ <;> first | with_reducible rfl | decide +kernel,
    by refine ⟨tPollsRunTheirExchange_4a, tPollsRunTheirExchange_4b, ({ ({ ({ ({ slot := 0, full := false, wake := 0, due := 0 } : Exchange) with step := .train } : Exchange) with full := false } : Exchange) with aborted := false } : Exchange), (tPollsRunTheirExchange_4a.radClass (tPollsRunTheirExchange_4a.slot ({ ({ ({ ({ slot := 0, full := false, wake := 0, due := 0 } : Exchange) with step := .train } : Exchange) with full := false } : Exchange) with aborted := false } : Exchange).slot).cls : RadClass), (tPollsRunTheirExchange_4a.pollAir (tPollsRunTheirExchange_4a.radClass (tPollsRunTheirExchange_4a.slot ({ ({ ({ ({ slot := 0, full := false, wake := 0, due := 0 } : Exchange) with step := .train } : Exchange) with full := false } : Exchange) with aborted := false } : Exchange).slot).cls : RadClass) (tPollsRunTheirExchange_4a.radClass (tPollsRunTheirExchange_4a.slot ({ ({ ({ ({ slot := 0, full := false, wake := 0, due := 0 } : Exchange) with step := .train } : Exchange) with full := false } : Exchange) with aborted := false } : Exchange).slot).cls : RadClass).form : Nat), ((tPollsRunTheirExchange_4b.dev + (tPollsRunTheirExchange_4a.pollAir (tPollsRunTheirExchange_4a.radClass (tPollsRunTheirExchange_4a.slot ({ ({ ({ ({ slot := 0, full := false, wake := 0, due := 0 } : Exchange) with step := .train } : Exchange) with full := false } : Exchange) with aborted := false } : Exchange).slot).cls : RadClass) (tPollsRunTheirExchange_4a.radClass (tPollsRunTheirExchange_4a.slot ({ ({ ({ ({ slot := 0, full := false, wake := 0, due := 0 } : Exchange) with step := .train } : Exchange) with full := false } : Exchange) with aborted := false } : Exchange).slot).cls : RadClass).form : Nat)) / 32768 : Nat), ?_, ?_, ?_, ?_, ?_, ?_, ?_, ?_, ?_⟩ <;> first | with_reducible rfl | decide +kernel,
    by refine ⟨tPollsRunTheirExchange_5_0a, tPollsRunTheirExchange_5_0b, tPollsRunTheirExchange_5_0c, tPollsRunTheirExchange_5_0d, ({ ({ slot := 0, full := false, wake := 0, due := 0 } : Exchange) with step := .polled } : Exchange), ?_, ?_, ?_, ?_, ?_⟩ <;> first | with_reducible rfl | decide +kernel⟩

/-- Of the witness below. -/
def tPollsRunTheirExchange_5_1a : State := ({ tServe with rad.xch := some ({ ({ ({ slot := 0, full := false, wake := 0, due := 0 } : Exchange) with step := .cont } : Exchange) with acked := true } : Exchange) } : State)

/-- Of the witness below. -/
def tPollsRunTheirExchange_5_1b : State := (tPollsRunTheirExchange_5_1a.until ({ ({ ({ slot := 0, full := false, wake := 0, due := 0 } : Exchange) with step := .cont } : Exchange) with acked := true } : Exchange).due : State)

/-- Of the witness below. -/
def tPollsRunTheirExchange_5_1c : State := (tPollsRunTheirExchange_5_1b.setPoll ({ ({ ({ slot := 0, full := false, wake := 0, due := 0 } : Exchange) with step := .cont } : Exchange) with acked := true } : Exchange).slot { tPollsRunTheirExchange_5_1a.poll ({ ({ ({ slot := 0, full := false, wake := 0, due := 0 } : Exchange) with step := .cont } : Exchange) with acked := true } : Exchange).slot with tSync := some ({ ({ ({ slot := 0, full := false, wake := 0, due := 0 } : Exchange) with step := .cont } : Exchange) with acked := true } : Exchange).ptAt, next := none } : State)

theorem witness_PollsRunTheirExchange_2 :
    (∃ (s : State) (s1 : State) (s2 : State) (s3 : State) (x : Exchange), s.rad.xch = some x ∧ s1 = s.until x.due ∧ x.step = .cont ∧ x.acked = true ∧ s3 = s1.setPoll x.slot { s.poll x.slot with tSync := some x.ptAt, next := none }) ∧
    (∃ (s : State), s.rad.xch = none) := ⟨by refine ⟨tPollsRunTheirExchange_5_1a, tPollsRunTheirExchange_5_1b, tServe, tPollsRunTheirExchange_5_1c, ({ ({ ({ slot := 0, full := false, wake := 0, due := 0 } : Exchange) with step := .cont } : Exchange) with acked := true } : Exchange), ?_, ?_, ?_, ?_, ?_⟩ <;> first | with_reducible rfl | decide +kernel,
    by refine ⟨({ tServe with rad.xch := none } : State), ?_⟩ <;> first | with_reducible rfl | decide +kernel⟩

/-- Of the witness below. -/
def tQ2DrivesTheTransmitter_0_1a : State := ((((({ tServe with rad.downs := (List.range 4096).map fun k => { slot := k + 1, push := 0, frame := [], since := 0 } } : State).setBit rRadCtl 0 true) : State).ringPacket 2 (1 : Nat) ([0, 0, 0, 0] : List Word)) : State)

/-- Of the witness below. -/
def tQ2DrivesTheTransmitter_0_3_0a : State := ((((({ tServe with rad.xch := some { slot := 3, full := false, wake := 0, due := 0 } } : State).setBit rRadCtl 0 true) : State).ringPacket 2 (2 : Nat) ([0, 0, 0, 0] : List Word)) : State)

/-- Of the witness below. -/
def tQ2DrivesTheTransmitter_0_3_0b : Bytes := (le 2 263 ++ le 3 0xFFFFFF ++ le 3 0 ++ le 3 0 ++ le 2 ((tQ2DrivesTheTransmitter_0_3_0a.rad.cid + 1) % 65536 : Nat) ++ le 1 (bits 2 0 (([0, 0, 0, 0] : List Word).getD 0 0).toNat) ++ (ofWs (([0, 0, 0, 0] : List Word).drop 1) : Bytes) : Bytes)

/-- Of the witness below. -/
def tQ2DrivesTheTransmitter_0_3_1a : State := ({ ((((tServe.setBit rRadCtl 0 true) : State).ringPacket 2 (2 : Nat) ([0, 0, 0, 0] : List Word)) : State) with rad.xch := none } : State)

/-- Of the witness below. -/
def tQ2DrivesTheTransmitter_0_3_1b : Bytes := (le 2 263 ++ le 3 0xFFFFFF ++ le 3 0 ++ le 3 0 ++ le 2 ((tQ2DrivesTheTransmitter_0_3_1a.rad.cid + 1) % 65536 : Nat) ++ le 1 (bits 2 0 (([0, 0, 0, 0] : List Word).getD 0 0).toNat) ++ (ofWs (([0, 0, 0, 0] : List Word).drop 1) : Bytes) : Bytes)

theorem witness_Q2DrivesTheTransmitter_1 :
    (∃ (s : State) (s1 : State) (cut : Bool) (ty : Nat) (ws : List Word) (i : Nat) (rest : List HeldDown), s.bitOf rRadCtl 0 = true ∧ s.ringPeek 2 = .packet cut ty ws ∧ s1 = (s.ringTake 2).2 ∧ ty = 1 ∧ i = bits 16 0 (ws.getD 0 0).toNat ∧ rest = s.rad.downs.filter (fun d => d.slot ≠ i) ∧ rest.length + 1 < 4096) ∧
    (∃ (s : State) (s1 : State) (cut : Bool) (ty : Nat) (ws : List Word), s.bitOf rRadCtl 0 = true ∧ s.ringPeek 2 = .packet cut ty ws ∧ s1 = (s.ringTake 2).2 ∧ ty = 1 ∧ 4096 ≤ (s.rad.downs.filter fun d => d.slot ≠ bits 16 0 (ws.getD 0 0).toNat).length) ∧
    (∃ (s : State) (s1 : State) (cut : Bool) (ty : Nat) (ws : List Word) (i : Nat), s.bitOf rRadCtl 0 = true ∧ s.ringPeek 2 = .packet cut ty ws ∧ s1 = (s.ringTake 2).2 ∧ ty = 3 ∧ i = bits 16 0 (ws.getD 0 0).toNat) ∧
    (∃ (s : State) (s1 : State) (cut : Bool) (ty : Nat) (ws : List Word) (inner : Bytes) (frame : Bytes) (rc : RadClass) (air : Nat) (cid : Nat), s.bitOf rRadCtl 0 = true ∧ s.ringPeek 2 = .packet cut ty ws ∧ s1 = (s.ringTake 2).2 ∧ ty = 2 ∧ inner = ofWs (ws.drop 1) ∧ rc = s.caravanClass inner ∧ cid = (s.rad.cid + 1) % 65536 ∧ frame = le 2 263 ++ le 3 0xFFFFFF ++ le 3 0 ++ le 3 0 ++ le 2 cid ++ le 1 (bits 2 0 (ws.getD 0 0).toNat) ++ inner ∧ air = s.frameAir rc.txMode frame.length ∧ (s.rad.xch.isSome = true ∨ s.radTx = false)) ∧
    (∃ (s : State) (s1 : State) (cut : Bool) (ty : Nat) (ws : List Word) (inner : Bytes) (frame : Bytes) (rc : RadClass) (air : Nat) (cid : Nat), s.bitOf rRadCtl 0 = true ∧ s.ringPeek 2 = .packet cut ty ws ∧ s1 = (s.ringTake 2).2 ∧ ty = 2 ∧ inner = ofWs (ws.drop 1) ∧ rc = s.caravanClass inner ∧ cid = (s.rad.cid + 1) % 65536 ∧ frame = le 2 263 ++ le 3 0xFFFFFF ++ le 3 0 ++ le 3 0 ++ le 2 cid ++ le 1 (bits 2 0 (ws.getD 0 0).toNat) ++ inner ∧ air = s.frameAir rc.txMode frame.length ∧ s.radTx = true ∧ s.rad.xch = none ∧ s.txBusy (s.t - s.paLead) (s.t + air) = false ∧ s.txPays (s.txCost air) = true) ∧
    (∃ (s : State) (s1 : State) (cut : Bool) (ty : Nat) (ws : List Word), s.bitOf rRadCtl 0 = true ∧ s.ringPeek 2 = .packet cut ty ws ∧ s1 = (s.ringTake 2).2 ∧ ty ≠ 1 ∧ ty ≠ 2 ∧ ty ≠ 3) := ⟨by refine ⟨((((tServe.setBit rRadCtl 0 true) : State).ringPacket 2 (1 : Nat) ([0, 0, 0, 0] : List Word)) : State), ((((((tServe.setBit rRadCtl 0 true) : State).ringPacket 2 (1 : Nat) ([0, 0, 0, 0] : List Word)) : State).ringTake 2).2 : State), (false : Bool), (1 : Nat), ([0, 0, 0, 0] : List Word), (bits 16 0 (([0, 0, 0, 0] : List Word).getD 0 0).toNat : Nat), (((((tServe.setBit rRadCtl 0 true) : State).ringPacket 2 (1 : Nat) ([0, 0, 0, 0] : List Word)) : State).rad.downs.filter (fun d => d.slot ≠ (bits 16 0 (([0, 0, 0, 0] : List Word).getD 0 0).toNat : Nat)) : List HeldDown), ?_, ?_, ?_, ?_, ?_, ?_, ?_⟩ <;> first | with_reducible rfl | decide +kernel,
    by refine ⟨tQ2DrivesTheTransmitter_0_1a, ((tQ2DrivesTheTransmitter_0_1a.ringTake 2).2 : State), (false : Bool), (1 : Nat), ([0, 0, 0, 0] : List Word), ?_, ?_, ?_, ?_, ?_⟩ <;> first | with_reducible rfl | decide +kernel,
    by refine ⟨((((tServe.setBit rRadCtl 0 true) : State).ringPacket 2 (3 : Nat) ([0, 0, 0, 0] : List Word)) : State), ((((((tServe.setBit rRadCtl 0 true) : State).ringPacket 2 (3 : Nat) ([0, 0, 0, 0] : List Word)) : State).ringTake 2).2 : State), (false : Bool), (3 : Nat), ([0, 0, 0, 0] : List Word), (bits 16 0 (([0, 0, 0, 0] : List Word).getD 0 0).toNat : Nat), ?_, ?_, ?_, ?_, ?_⟩ <;> first | with_reducible rfl | decide +kernel,
    by refine ⟨tQ2DrivesTheTransmitter_0_3_0a, ((tQ2DrivesTheTransmitter_0_3_0a.ringTake 2).2 : State), (false : Bool), (2 : Nat), ([0, 0, 0, 0] : List Word), (ofWs (([0, 0, 0, 0] : List Word).drop 1) : Bytes), tQ2DrivesTheTransmitter_0_3_0b, (tQ2DrivesTheTransmitter_0_3_0a.caravanClass (ofWs (([0, 0, 0, 0] : List Word).drop 1) : Bytes) : RadClass), (tQ2DrivesTheTransmitter_0_3_0a.frameAir (tQ2DrivesTheTransmitter_0_3_0a.caravanClass (ofWs (([0, 0, 0, 0] : List Word).drop 1) : Bytes) : RadClass).txMode tQ2DrivesTheTransmitter_0_3_0b.length : Nat), ((tQ2DrivesTheTransmitter_0_3_0a.rad.cid + 1) % 65536 : Nat), ?_, ?_, ?_, ?_, ?_, ?_, ?_, ?_, ?_, ?_⟩ <;> first | with_reducible rfl | decide +kernel,
    by refine ⟨tQ2DrivesTheTransmitter_0_3_1a, ((tQ2DrivesTheTransmitter_0_3_1a.ringTake 2).2 : State), (false : Bool), (2 : Nat), ([0, 0, 0, 0] : List Word), (ofWs (([0, 0, 0, 0] : List Word).drop 1) : Bytes), tQ2DrivesTheTransmitter_0_3_1b, (tQ2DrivesTheTransmitter_0_3_1a.caravanClass (ofWs (([0, 0, 0, 0] : List Word).drop 1) : Bytes) : RadClass), (tQ2DrivesTheTransmitter_0_3_1a.frameAir (tQ2DrivesTheTransmitter_0_3_1a.caravanClass (ofWs (([0, 0, 0, 0] : List Word).drop 1) : Bytes) : RadClass).txMode tQ2DrivesTheTransmitter_0_3_1b.length : Nat), ((tQ2DrivesTheTransmitter_0_3_1a.rad.cid + 1) % 65536 : Nat), ?_, ?_, ?_, ?_, ?_, ?_, ?_, ?_, ?_, ?_, ?_, ?_, ?_⟩ <;> first | with_reducible rfl | decide +kernel,
    by refine ⟨((((tServe.setBit rRadCtl 0 true) : State).ringPacket 2 (0 : Nat) ([0, 0, 0, 0] : List Word)) : State), ((((((tServe.setBit rRadCtl 0 true) : State).ringPacket 2 (0 : Nat) ([0, 0, 0, 0] : List Word)) : State).ringTake 2).2 : State), (false : Bool), (0 : Nat), ([0, 0, 0, 0] : List Word), ?_, ?_, ?_, ?_, ?_, ?_⟩ <;> first | with_reducible rfl | decide +kernel⟩

/-- Of the witness below. -/
def tQ2DrivesTheTransmitter_1_0a : State := ({ tServe with rad.xch := some ({ ({ slot := 0, full := false, wake := 0, due := 0 } : Exchange) with step := .down } : Exchange) } : State)

/-- Of the witness below. -/
def tQ2DrivesTheTransmitter_1_0b : State := (tQ2DrivesTheTransmitter_1_0a.until ({ ({ slot := 0, full := false, wake := 0, due := 0 } : Exchange) with step := .down } : Exchange).due : State)

/-- Of the witness below. -/
def tQ2DrivesTheTransmitter_1_1a : State := ({ ({ tServe with rad.xch := some ({ ({ slot := 3, full := false, wake := 0, due := 1000 * 268435456, step := .down, push := 1 } : Exchange) with step := .down } : Exchange), rad.downs := [({ slot := 3, push := 1, frame := List.replicate 20 0, since := 5 } : HeldDown)] } : State) with rad.xch := some ({ ({ slot := 3, full := false, wake := 0, due := 1000 * 268435456, step := .down, push := 1 } : Exchange) with step := .down } : Exchange) } : State)

/-- Of the witness below. -/
def tQ2DrivesTheTransmitter_1_1b : State := (tQ2DrivesTheTransmitter_1_1a.until ({ ({ slot := 3, full := false, wake := 0, due := 1000 * 268435456, step := .down, push := 1 } : Exchange) with step := .down } : Exchange).due : State)

/-- Of the witness below. -/
def tQ2DrivesTheTransmitter_1_1c : State := (tQ2DrivesTheTransmitter_1_1b.setPoll ({ ({ slot := 3, full := false, wake := 0, due := 1000 * 268435456, step := .down, push := 1 } : Exchange) with step := .down } : Exchange).slot { tQ2DrivesTheTransmitter_1_1a.poll ({ ({ slot := 3, full := false, wake := 0, due := 1000 * 268435456, step := .down, push := 1 } : Exchange) with step := .down } : Exchange).slot with tSync := some ({ ({ slot := 3, full := false, wake := 0, due := 1000 * 268435456, step := .down, push := 1 } : Exchange) with step := .down } : Exchange).ptAt, next := none } : State)

/-- Of the witness below. -/
def tQ2DrivesTheTransmitter_2a : State := ({ tServe with rad.xch := some ({ ({ slot := 0, full := false, wake := 0, due := 0 } : Exchange) with step := .downSent } : Exchange) } : State)

/-- Of the witness below. -/
def tQ2DrivesTheTransmitter_2b : State := (tQ2DrivesTheTransmitter_2a.until ({ ({ slot := 0, full := false, wake := 0, due := 0 } : Exchange) with step := .downSent } : Exchange).due : State)

theorem witness_Q2DrivesTheTransmitter_2 :
    (∃ (s : State) (s1 : State) (s3 : State) (x : Exchange) (rc : RadClass), s.rad.xch = some x ∧ x.step = .down ∧ s1 = s.until x.due ∧ rc = s.radClass (s.slot x.slot).cls ∧ s3 = s1.setPoll x.slot { s.poll x.slot with tSync := some x.ptAt, next := none } ∧ ((s.rad.downs.find? fun d => d.slot == x.slot) = none ∨ s.radTx = false)) ∧
    (∃ (s : State) (s1 : State) (s3 : State) (x : Exchange) (rc : RadClass) (d : HeldDown) (air : Nat), s.rad.xch = some x ∧ x.step = .down ∧ s1 = s.until x.due ∧ rc = s.radClass (s.slot x.slot).cls ∧ s3 = s1.setPoll x.slot { s.poll x.slot with tSync := some x.ptAt, next := none } ∧ (s.rad.downs.find? fun d => d.slot == x.slot) = some d ∧ s.radTx = true ∧ air = s.frameAir rc.txMode d.frame.length ∧ s1.txBusy (s1.t - s1.paLead) (s1.t + air) = false ∧ s1.txPays (s1.txCost air) = true) ∧
    (∃ (s : State) (s1 : State) (s2 : State) (x : Exchange), s.rad.xch = some x ∧ x.step = .downSent ∧ s1 = s.until x.due ∧ s2 = s1.notice false x.slot 3 x.push (x.wake % 4294967296)) ∧
    (∃ (s : State), s.rad.xch = none) ∧
    (∃ (s : State) (s1 : State) (d : HeldDown), s.rad.downs = [d] ∧ s1 = s.until (d.since + s.fld rRadDnwait 9 0 * 3600 * 268435456)) ∧
    (∃ (s : State), s.rad.downs = []) := ⟨by refine ⟨tQ2DrivesTheTransmitter_1_0a, tQ2DrivesTheTransmitter_1_0b, (tQ2DrivesTheTransmitter_1_0b.setPoll ({ ({ slot := 0, full := false, wake := 0, due := 0 } : Exchange) with step := .down } : Exchange).slot { tQ2DrivesTheTransmitter_1_0a.poll ({ ({ slot := 0, full := false, wake := 0, due := 0 } : Exchange) with step := .down } : Exchange).slot with tSync := some ({ ({ slot := 0, full := false, wake := 0, due := 0 } : Exchange) with step := .down } : Exchange).ptAt, next := none } : State), ({ ({ slot := 0, full := false, wake := 0, due := 0 } : Exchange) with step := .down } : Exchange), (tQ2DrivesTheTransmitter_1_0a.radClass (tQ2DrivesTheTransmitter_1_0a.slot ({ ({ slot := 0, full := false, wake := 0, due := 0 } : Exchange) with step := .down } : Exchange).slot).cls : RadClass), ?_, ?_, ?_, ?_, ?_, ?_⟩ <;> first | with_reducible rfl | decide +kernel,
    by refine ⟨tQ2DrivesTheTransmitter_1_1a, tQ2DrivesTheTransmitter_1_1b, tQ2DrivesTheTransmitter_1_1c, ({ ({ slot := 3, full := false, wake := 0, due := 1000 * 268435456, step := .down, push := 1 } : Exchange) with step := .down } : Exchange), (tQ2DrivesTheTransmitter_1_1a.radClass (tQ2DrivesTheTransmitter_1_1a.slot ({ ({ slot := 3, full := false, wake := 0, due := 1000 * 268435456, step := .down, push := 1 } : Exchange) with step := .down } : Exchange).slot).cls : RadClass), ({ slot := 3, push := 1, frame := List.replicate 20 0, since := 5 } : HeldDown), (tQ2DrivesTheTransmitter_1_1a.frameAir (tQ2DrivesTheTransmitter_1_1a.radClass (tQ2DrivesTheTransmitter_1_1a.slot ({ ({ slot := 3, full := false, wake := 0, due := 1000 * 268435456, step := .down, push := 1 } : Exchange) with step := .down } : Exchange).slot).cls : RadClass).txMode ({ slot := 3, push := 1, frame := List.replicate 20 0, since := 5 } : HeldDown).frame.length : Nat), ?_, ?_, ?_, ?_, ?_, ?_, ?_, ?_, ?_, ?_⟩ <;> first | with_reducible rfl | decide +kernel,
    by refine ⟨tQ2DrivesTheTransmitter_2a, tQ2DrivesTheTransmitter_2b, (tQ2DrivesTheTransmitter_2b.notice false ({ ({ slot := 0, full := false, wake := 0, due := 0 } : Exchange) with step := .downSent } : Exchange).slot 3 ({ ({ slot := 0, full := false, wake := 0, due := 0 } : Exchange) with step := .downSent } : Exchange).push (({ ({ slot := 0, full := false, wake := 0, due := 0 } : Exchange) with step := .downSent } : Exchange).wake % 4294967296) : State), ({ ({ slot := 0, full := false, wake := 0, due := 0 } : Exchange) with step := .downSent } : Exchange), ?_, ?_, ?_, ?_⟩ <;> first | with_reducible rfl | decide +kernel,
    by refine ⟨({ tServe with rad.xch := none } : State), ?_⟩ <;> first | with_reducible rfl | decide +kernel,
    by refine ⟨({ tServe with rad.downs := [({ slot := 0, push := 0, frame := [], since := 0 } : HeldDown)] } : State), (({ tServe with rad.downs := [({ slot := 0, push := 0, frame := [], since := 0 } : HeldDown)] } : State).until (({ slot := 0, push := 0, frame := [], since := 0 } : HeldDown).since + ({ tServe with rad.downs := [({ slot := 0, push := 0, frame := [], since := 0 } : HeldDown)] } : State).fld rRadDnwait 9 0 * 3600 * 268435456) : State), ({ slot := 0, push := 0, frame := [], since := 0 } : HeldDown), ?_, ?_⟩ <;> first | with_reducible rfl | decide +kernel,
    by refine ⟨({ tServe with rad.downs := [] } : State), ?_⟩ <;> first | with_reducible rfl | decide +kernel⟩

/-- Of the witness below. -/
def tPowerLineCrossingsAndReception_0_0a : PlcPhase := ((if ((tRec.plc.phases[(0 : Fin 3).val]?).getD {} : PlcPhase).locked = false ∨ ((tRec.plc.phases[(0 : Fin 3).val]?).getD {} : PlcPhase).count ≤ ((tRec.plc.phases[(0 : Fin 3).val]?).getD {} : PlcPhase).txEnd then ((tRec.plc.phases[(0 : Fin 3).val]?).getD {} : PlcPhase) else if tRec.plcSensed (0 : Fin 3) ({} : PulseEnergy) then { ((tRec.plc.phases[(0 : Fin 3).val]?).getD {} : PlcPhase) with cr := ((tRec.plc.phases[(0 : Fin 3).val]?).getD {} : PlcPhase).count + 64 } else { ((tRec.plc.phases[(0 : Fin 3).val]?).getD {} : PlcPhase) with floor := (({} : PulseEnergy) :: ((tRec.plc.phases[(0 : Fin 3).val]?).getD {} : PlcPhase).floor).take 64 }) : PlcPhase)

/-- Of the witness below. -/
def tPowerLineCrossingsAndReception_0_1a : PlcPhase := ((if ((tServe.plc.phases[(0 : Fin 3).val]?).getD {} : PlcPhase).locked = false ∨ ((tServe.plc.phases[(0 : Fin 3).val]?).getD {} : PlcPhase).count ≤ ((tServe.plc.phases[(0 : Fin 3).val]?).getD {} : PlcPhase).txEnd then ((tServe.plc.phases[(0 : Fin 3).val]?).getD {} : PlcPhase) else if tServe.plcSensed (0 : Fin 3) ({} : PulseEnergy) then { ((tServe.plc.phases[(0 : Fin 3).val]?).getD {} : PlcPhase) with cr := ((tServe.plc.phases[(0 : Fin 3).val]?).getD {} : PlcPhase).count + 64 } else { ((tServe.plc.phases[(0 : Fin 3).val]?).getD {} : PlcPhase) with floor := (({} : PulseEnergy) :: ((tServe.plc.phases[(0 : Fin 3).val]?).getD {} : PlcPhase).floor).take 64 }) : PlcPhase)

/-- Of the witness below. -/
def tPowerLineCrossingsAndReception_0_1b : PlcPhase := ({ tPowerLineCrossingsAndReception_0_1a with rises := if (true : Bool) then (((((tServe.advance (1 : Nat) : State).dev : Int) - signed 16 (tServe.fld (rPlcZctrim (0 : Fin 3)) 15 0) * 268435456 / 10000000).toNat : Nat) :: ((tServe.plc.phases[(0 : Fin 3).val]?).getD {} : PlcPhase).rises).take 9 else ((tServe.plc.phases[(0 : Fin 3).val]?).getD {} : PlcPhase).rises, falls := if (true : Bool) then ((tServe.plc.phases[(0 : Fin 3).val]?).getD {} : PlcPhase).falls else (((((tServe.advance (1 : Nat) : State).dev : Int) - signed 16 (tServe.fld (rPlcZctrim (0 : Fin 3)) 15 0) * 268435456 / 10000000).toNat : Nat) :: ((tServe.plc.phases[(0 : Fin 3).val]?).getD {} : PlcPhase).falls).take 9, last := some ((((tServe.advance (1 : Nat) : State).dev : Int) - signed 16 (tServe.fld (rPlcZctrim (0 : Fin 3)) 15 0) * 268435456 / 10000000).toNat : Nat), count := ((tServe.plc.phases[(0 : Fin 3).val]?).getD {} : PlcPhase).count + 1, pred := predicted ((if (true : Bool) then ((tServe.plc.phases[(0 : Fin 3).val]?).getD {} : PlcPhase).rises else ((tServe.plc.phases[(0 : Fin 3).val]?).getD {} : PlcPhase).falls) : List Nat), good := if predicted ((if (true : Bool) then ((tServe.plc.phases[(0 : Fin 3).val]?).getD {} : PlcPhase).rises else ((tServe.plc.phases[(0 : Fin 3).val]?).getD {} : PlcPhase).falls) : List Nat) = none then ((tServe.plc.phases[(0 : Fin 3).val]?).getD {} : PlcPhase).good else if (true : Bool) then ((tServe.plc.phases[(0 : Fin 3).val]?).getD {} : PlcPhase).good + 1 else 0, bad := if predicted ((if (true : Bool) then ((tServe.plc.phases[(0 : Fin 3).val]?).getD {} : PlcPhase).rises else ((tServe.plc.phases[(0 : Fin 3).val]?).getD {} : PlcPhase).falls) : List Nat) = none then ((tServe.plc.phases[(0 : Fin 3).val]?).getD {} : PlcPhase).bad else if (true : Bool) then 0 else ((tServe.plc.phases[(0 : Fin 3).val]?).getD {} : PlcPhase).bad + 1 } : PlcPhase)

/-- Of the witness below. -/
def tPowerLineCrossingsAndReception_0_1c : PlcPhase := ((if predicted ((if (true : Bool) then ((tServe.plc.phases[(0 : Fin 3).val]?).getD {} : PlcPhase).rises else ((tServe.plc.phases[(0 : Fin 3).val]?).getD {} : PlcPhase).falls) : List Nat) = none then tPowerLineCrossingsAndReception_0_1b else if ((tServe.plc.phases[(0 : Fin 3).val]?).getD {} : PlcPhase).locked = true ∧ 4 ≤ tPowerLineCrossingsAndReception_0_1b.bad then { tPowerLineCrossingsAndReception_0_1b with rises := [], falls := [], last := none, good := 0, bad := 0, locked := false, txEnd := 0, pred := none, sending := [] } else if ((tServe.plc.phases[(0 : Fin 3).val]?).getD {} : PlcPhase).locked = false ∧ 16 ≤ tPowerLineCrossingsAndReception_0_1b.good then { tPowerLineCrossingsAndReception_0_1b with locked := true } else tPowerLineCrossingsAndReception_0_1b) : PlcPhase)

/-- Of the witness below. -/
def tPowerLineCrossingsAndReception_1a : State := ({ tServe with plc.phases := [({ locked := true, count := 500, rises := [268435456 * 1000 - 100, 268435456 * 1000 - 100 - 5368709], falls := [268435456 * 1000 - 100 - 2684354, 268435456 * 1000 - 100 - 8053063] } : PlcPhase), {}, {}] } : State)

/-- Of the witness below. -/
def tPowerLineCrossingsAndReception_1b : PlcPhase := ({ locked := true, count := 500, rises := [268435456 * 1000 - 100, 268435456 * 1000 - 100 - 5368709], falls := [268435456 * 1000 - 100 - 2684354, 268435456 * 1000 - 100 - 8053063] } : PlcPhase)

theorem witness_PowerLineCrossingsAndReception_1 :
    (∃ (dt : Nat) (phase : Fin 3) (rising : Bool) (heard : PulseEnergy) (s : State) (s1 : State) (x : PlcPhase) (h : PlcPhase) (l : List Nat) (at_ : Nat), s.Inv ∧ s1 = s.advance dt ∧ s.plc.phases[phase.val]? = some x ∧ l = (if rising then x.rises else x.falls) ∧ at_ = ((s1.dev : Int) - signed 16 (s.fld (rPlcZctrim phase) 15 0) * 268435456 / 10000000).toNat ∧ h = (if x.locked = false ∨ x.count ≤ x.txEnd then x else if s.plcSensed phase heard then { x with cr := x.count + 64 } else { x with floor := (heard :: x.floor).take 64 }) ∧ (s.phaseOn phase = false ∨ edgeOk x l at_ = false)) ∧
    (∃ (dt : Nat) (phase : Fin 3) (rising : Bool) (heard : PulseEnergy) (s : State) (s1 : State) (x : PlcPhase) (h : PlcPhase) (l : List Nat) (at_ : Nat) (ok : Bool) (y : PlcPhase) (z : PlcPhase), s.Inv ∧ s1 = s.advance dt ∧ s.plc.phases[phase.val]? = some x ∧ l = (if rising then x.rises else x.falls) ∧ at_ = ((s1.dev : Int) - signed 16 (s.fld (rPlcZctrim phase) 15 0) * 268435456 / 10000000).toNat ∧ h = (if x.locked = false ∨ x.count ≤ x.txEnd then x else if s.plcSensed phase heard then { x with cr := x.count + 64 } else { x with floor := (heard :: x.floor).take 64 }) ∧ s.phaseOn phase = true ∧ edgeOk x l at_ = true ∧ (predicted l = none ∨ ∃ q, predicted l = some q ∧ ok = (decide (q ≤ at_ + usU 100) && decide (at_ ≤ q + usU 100))) ∧ y = { h with rises := if rising then (at_ :: x.rises).take 9 else x.rises, falls := if rising then x.falls else (at_ :: x.falls).take 9, last := some at_, count := x.count + 1, pred := predicted l, good := if predicted l = none then x.good else if ok then x.good + 1 else 0, bad := if predicted l = none then x.bad else if ok then 0 else x.bad + 1 } ∧ z = (if predicted l = none then y else if x.locked = true ∧ 4 ≤ y.bad then { y with rises := [], falls := [], last := none, good := 0, bad := 0, locked := false, txEnd := 0, pred := none, sending := [] } else if x.locked = false ∧ 16 ≤ y.good then { y with locked := true } else y)) ∧
    (∃ (phase : Fin 3) (heard : PulseEnergy) (rise : Bool) (s : State) (s1 : State) (x : PlcPhase) (q : Nat), s.Inv ∧ s.plc.phases[phase.val]? = some x ∧ s.phaseOn phase = true ∧ ((rise = true ∧ predicted x.rises = some q ∧ (∀ r, predicted x.falls = some r → q < r)) ∨ (rise = false ∧ predicted x.falls = some q ∧ (∀ r, predicted x.rises = some r → q ≤ r))) ∧ s1 = s.untilDev (q + usU 100)) ∧
    (∃ (phase : Fin 3) (heard : PulseEnergy) (s : State), s.phaseOn phase = false) ∧
    (∃ (phase : Fin 3) (heard : PulseEnergy) (s : State), predicted (s.phase phase).rises = none ∧ predicted (s.phase phase).falls = none) ∧
    (∃ (dt : Nat) (phase : Fin 3) (heard : List PulseEnergy) (s : State) (s1 : State) (s2 : State) (x : PlcPhase) (d : PlcDecoded), s1 = s.advance dt ∧ s.plc.phases[phase.val]? = some x ∧ d = plcDecode heard ∧ s2 = { s1 with plc := { s1.plc with phases := s1.plc.phases.set phase { x with cr := x.count + 64 } } } ∧ (s.phaseOn phase = false ∨ x.locked = false)) := ⟨by refine ⟨(1 : Nat), (0 : Fin 3), (true : Bool), ({} : PulseEnergy), tRec, (tRec.advance (1 : Nat) : State), ((tRec.plc.phases[(0 : Fin 3).val]?).getD {} : PlcPhase), tPowerLineCrossingsAndReception_0_0a, ((if (true : Bool) then ((tRec.plc.phases[(0 : Fin 3).val]?).getD {} : PlcPhase).rises else ((tRec.plc.phases[(0 : Fin 3).val]?).getD {} : PlcPhase).falls) : List Nat), ((((tRec.advance (1 : Nat) : State).dev : Int) - signed 16 (tRec.fld (rPlcZctrim (0 : Fin 3)) 15 0) * 268435456 / 10000000).toNat : Nat), ?_, ?_, ?_, ?_, ?_, ?_, ?_⟩ <;> first | with_reducible rfl | decide +kernel | (unfold State.Inv; decide +kernel),
    by refine ⟨(1 : Nat), (0 : Fin 3), (true : Bool), ({} : PulseEnergy), tServe, (tServe.advance (1 : Nat) : State), ((tServe.plc.phases[(0 : Fin 3).val]?).getD {} : PlcPhase), tPowerLineCrossingsAndReception_0_1a, ((if (true : Bool) then ((tServe.plc.phases[(0 : Fin 3).val]?).getD {} : PlcPhase).rises else ((tServe.plc.phases[(0 : Fin 3).val]?).getD {} : PlcPhase).falls) : List Nat), ((((tServe.advance (1 : Nat) : State).dev : Int) - signed 16 (tServe.fld (rPlcZctrim (0 : Fin 3)) 15 0) * 268435456 / 10000000).toNat : Nat), (true : Bool), tPowerLineCrossingsAndReception_0_1b, tPowerLineCrossingsAndReception_0_1c, ?_, ?_, ?_, ?_, ?_, ?_, ?_, ?_, ?_, ?_, ?_⟩ <;> first | with_reducible rfl | decide +kernel | (unfold State.Inv; decide +kernel),
    by refine ⟨(0 : Fin 3), ({} : PulseEnergy), (false : Bool), tPowerLineCrossingsAndReception_1a, (tPowerLineCrossingsAndReception_1a.untilDev (((predicted tPowerLineCrossingsAndReception_1b.falls).getD 0 : Nat) + usU 100) : State), tPowerLineCrossingsAndReception_1b, ((predicted tPowerLineCrossingsAndReception_1b.falls).getD 0 : Nat), ?_, ?_, ?_, ?_, ?_⟩ <;> first | with_reducible rfl | decide +kernel | (unfold State.Inv; decide +kernel),
    by refine ⟨(0 : Fin 3), ({} : PulseEnergy), tRec, ?_⟩ <;> first | with_reducible rfl | decide +kernel,
    by refine ⟨(0 : Fin 3), ({} : PulseEnergy), tServe, ?_, ?_⟩ <;> first | with_reducible rfl | decide +kernel,
    by refine ⟨(1 : Nat), (0 : Fin 3), ([] : List PulseEnergy), ({ tServe with plc.phases := [({} : PlcPhase), {}, {}] } : State), (({ tServe with plc.phases := [({} : PlcPhase), {}, {}] } : State).advance (1 : Nat) : State), ({ (({ tServe with plc.phases := [({} : PlcPhase), {}, {}] } : State).advance (1 : Nat) : State) with plc := { (({ tServe with plc.phases := [({} : PlcPhase), {}, {}] } : State).advance (1 : Nat) : State).plc with phases := (({ tServe with plc.phases := [({} : PlcPhase), {}, {}] } : State).advance (1 : Nat) : State).plc.phases.set (0 : Fin 3) { ({} : PlcPhase) with cr := ({} : PlcPhase).count + 64 } } } : State), ({} : PlcPhase), (plcDecode ([] : List PulseEnergy) : PlcDecoded), ?_, ?_, ?_, ?_, ?_⟩ <;> first | with_reducible rfl | decide +kernel⟩

/-- Of the witness below. -/
def tPowerLineCrossingsAndReception_4_1a : State := ({ tServe with plc.phases := [({ locked := true, count := 500, rises := [268435456 * 1000 - 100, 268435456 * 1000 - 100 - 5368709], falls := [268435456 * 1000 - 100 - 2684354, 268435456 * 1000 - 100 - 8053063] } : PlcPhase), {}, {}] } : State)

/-- Of the witness below. -/
def tPowerLineCrossingsAndReception_4_1b : State := ({ (tPowerLineCrossingsAndReception_4_1a.advance (1 : Nat) : State) with plc := { (tPowerLineCrossingsAndReception_4_1a.advance (1 : Nat) : State).plc with phases := (tPowerLineCrossingsAndReception_4_1a.advance (1 : Nat) : State).plc.phases.set (0 : Fin 3) { ({ locked := true, count := 500, rises := [268435456 * 1000 - 100, 268435456 * 1000 - 100 - 5368709], falls := [268435456 * 1000 - 100 - 2684354, 268435456 * 1000 - 100 - 8053063] } : PlcPhase) with cr := ({ locked := true, count := 500, rises := [268435456 * 1000 - 100, 268435456 * 1000 - 100 - 5368709], falls := [268435456 * 1000 - 100 - 2684354, 268435456 * 1000 - 100 - 8053063] } : PlcPhase).count + 64 } } } : State)

/-- Of the witness below. -/
def tPowerLineCrossingsAndReception_5_2a : State := ({ ({ tServe with plc.phases := [({ locked := true, count := 500, rises := [268435456 * 1000 - 100, 268435456 * 1000 - 100 - 5368709], falls := [268435456 * 1000 - 100 - 2684354, 268435456 * 1000 - 100 - 8053063] } : PlcPhase), {}, {}], plc.shorts := [({ ({ phase := 0, at_ := 400, seq := 1, verd := 0, dpend := false, ltx := 3 } : PendShort) with phase := (0 : Fin 3).val } : PendShort)] } : State) with plc.shorts := ([] : List PendShort) ++ ({ ({ phase := 0, at_ := 400, seq := 1, verd := 0, dpend := false, ltx := 3 } : PendShort) with phase := (0 : Fin 3).val } : PendShort) :: ([] : List PendShort) } : State)

theorem witness_PowerLineCrossingsAndReception_2 :
    (∃ (dt : Nat) (phase : Fin 3) (heard : List PulseEnergy) (s : State) (s1 : State) (s2 : State) (x : PlcPhase) (d : PlcDecoded), s1 = s.advance dt ∧ s.plc.phases[phase.val]? = some x ∧ d = plcDecode heard ∧ s2 = { s1 with plc := { s1.plc with phases := s1.plc.phases.set phase { x with cr := x.count + 64 } } } ∧ s.phaseOn phase = true ∧ x.locked = true ∧ d.len = none) ∧
    (∃ (phase : Fin 3) (s : State) (x : PlcPhase) (a : PendShort) (before : List PendShort) (after : List PendShort), s.plc.phases[phase.val]? = some x ∧ s.plc.shorts = before ++ a :: after ∧ (∀ b ∈ before, b.phase ≠ phase.val ∨ x.count < b.at_) ∧ a.phase = phase.val ∧ a.at_ ≤ x.count ∧ s.plcTx = false) ∧
    (∃ (phase : Fin 3) (s : State) (x : PlcPhase) (a : PendShort) (before : List PendShort) (after : List PendShort), s.plc.phases[phase.val]? = some x ∧ s.plc.shorts = before ++ a :: after ∧ (∀ b ∈ before, b.phase ≠ phase.val ∨ x.count < b.at_) ∧ a.phase = phase.val ∧ a.at_ ≤ x.count ∧ s.plcTx = true ∧ (x.locked = false ∨ x.sending ≠ [])) ∧
    (∃ (phase : Fin 3) (s : State) (x : PlcPhase) (a : PendShort) (before : List PendShort) (after : List PendShort), s.plc.phases[phase.val]? = some x ∧ s.plc.shorts = before ++ a :: after ∧ (∀ b ∈ before, b.phase ≠ phase.val ∨ x.count < b.at_) ∧ a.phase = phase.val ∧ a.at_ ≤ x.count ∧ s.plcTx = true ∧ x.locked = true ∧ x.sending = []) ∧
    (∃ (phase : Fin 3) (s : State), (∀ b ∈ s.plc.shorts, b.phase ≠ phase.val ∨ (s.phase phase).count < b.at_)) ∧
    (∃ (dt : Nat) (phase : Fin 3) (heard : List PulseEnergy) (w : Nat) (s : State) (s1 : State) (x : PlcPhase), s1 = s.advance dt ∧ s.plc.phases[phase.val]? = some x ∧ w = shortDecode heard ∧ (s.phaseOn phase = false ∨ x.locked = false)) := ⟨by refine ⟨(1 : Nat), (0 : Fin 3), ([] : List PulseEnergy), tPowerLineCrossingsAndReception_4_1a, (tPowerLineCrossingsAndReception_4_1a.advance (1 : Nat) : State), tPowerLineCrossingsAndReception_4_1b, ({ locked := true, count := 500, rises := [268435456 * 1000 - 100, 268435456 * 1000 - 100 - 5368709], falls := [268435456 * 1000 - 100 - 2684354, 268435456 * 1000 - 100 - 8053063] } : PlcPhase), (plcDecode ([] : List PulseEnergy) : PlcDecoded), ?_, ?_, ?_, ?_, ?_, ?_, ?_⟩ <;> first | with_reducible rfl | decide +kernel,
    by refine ⟨(0 : Fin 3), ({ ({ (tServe.setReg rPlcCtl 0) with plc.phases := [({} : PlcPhase), {}, {}] } : State) with plc.shorts := ([] : List PendShort) ++ ({ ({ phase := 0, at_ := 0, seq := 0, verd := 0, dpend := false, ltx := 0 } : PendShort) with phase := (0 : Fin 3).val } : PendShort) :: ([] : List PendShort) } : State), ({} : PlcPhase), ({ ({ phase := 0, at_ := 0, seq := 0, verd := 0, dpend := false, ltx := 0 } : PendShort) with phase := (0 : Fin 3).val } : PendShort), ([] : List PendShort), ([] : List PendShort), ?_, ?_, ?_, ?_, ?_, ?_⟩ <;> first | with_reducible rfl | decide +kernel,
    by refine ⟨(0 : Fin 3), ({ ({ tServe with plc.phases := [({} : PlcPhase), {}, {}] } : State) with plc.shorts := ([] : List PendShort) ++ ({ ({ phase := 0, at_ := 0, seq := 0, verd := 0, dpend := false, ltx := 0 } : PendShort) with phase := (0 : Fin 3).val } : PendShort) :: ([] : List PendShort) } : State), ({} : PlcPhase), ({ ({ phase := 0, at_ := 0, seq := 0, verd := 0, dpend := false, ltx := 0 } : PendShort) with phase := (0 : Fin 3).val } : PendShort), ([] : List PendShort), ([] : List PendShort), ?_, ?_, ?_, ?_, ?_, ?_, ?_⟩ <;> first | with_reducible rfl | decide +kernel,
    by refine ⟨(0 : Fin 3), tPowerLineCrossingsAndReception_5_2a, ({ locked := true, count := 500, rises := [268435456 * 1000 - 100, 268435456 * 1000 - 100 - 5368709], falls := [268435456 * 1000 - 100 - 2684354, 268435456 * 1000 - 100 - 8053063] } : PlcPhase), ({ ({ phase := 0, at_ := 400, seq := 1, verd := 0, dpend := false, ltx := 3 } : PendShort) with phase := (0 : Fin 3).val } : PendShort), ([] : List PendShort), ([] : List PendShort), ?_, ?_, ?_, ?_, ?_, ?_, ?_, ?_⟩ <;> first | with_reducible rfl | decide +kernel,
    by refine ⟨(0 : Fin 3), tServe, ?_⟩ <;> first | with_reducible rfl | decide +kernel,
    by refine ⟨(1 : Nat), (0 : Fin 3), ([] : List PulseEnergy), (shortDecode ([] : List PulseEnergy) : Nat), ({ tServe with plc.phases := [({} : PlcPhase), {}, {}] } : State), (({ tServe with plc.phases := [({} : PlcPhase), {}, {}] } : State).advance (1 : Nat) : State), ({} : PlcPhase), ?_, ?_, ?_, ?_⟩ <;> first | with_reducible rfl | decide +kernel⟩

/-- Of the witness below. -/
def tPowerLineCrossingsAndReception_7_1a : State := ({ tServe with plc.phases := [({ locked := true, count := 500, rises := [268435456 * 1000 - 100, 268435456 * 1000 - 100 - 5368709], falls := [268435456 * 1000 - 100 - 2684354, 268435456 * 1000 - 100 - 8053063] } : PlcPhase), {}, {}] } : State)

theorem witness_PowerLineCrossingsAndReception_3 :
    ∃ (dt : Nat) (phase : Fin 3) (heard : List PulseEnergy) (w : Nat) (s : State) (s1 : State) (x : PlcPhase), s1 = s.advance dt ∧ s.plc.phases[phase.val]? = some x ∧ w = shortDecode heard ∧ s.phaseOn phase = true ∧ x.locked = true ∧ (bits 31 24 w ≠ shortChk (bits 23 0 w) 0 ∨ bits 18 16 w = 2) := by refine ⟨(1 : Nat), (0 : Fin 3), ((tHeard ((plcShortSlots (shortWord 3 0 false 7)).drop 12)) : List PulseEnergy), (shortDecode ((tHeard ((plcShortSlots (shortWord 3 0 false 7)).drop 12)) : List PulseEnergy) : Nat), tPowerLineCrossingsAndReception_7_1a, (tPowerLineCrossingsAndReception_7_1a.advance (1 : Nat) : State), ({ locked := true, count := 500, rises := [268435456 * 1000 - 100, 268435456 * 1000 - 100 - 5368709], falls := [268435456 * 1000 - 100 - 2684354, 268435456 * 1000 - 100 - 8053063] } : PlcPhase), ?_, ?_, ?_, ?_, ?_, ?_⟩ <;> first | with_reducible rfl | decide +kernel

/-- Of the witness below. -/
def tPowerLineTransmission_0_0a : PlcPhase := ({ locked := true, count := 500, rises := [268435456 * 1000 - 100, 268435456 * 1000 - 100 - 5368709], falls := [268435456 * 1000 - 100 - 2684354, 268435456 * 1000 - 100 - 8053063] } : PlcPhase)

/-- Of the witness below. -/
def tPowerLineTransmission_0_1a : State := ({ tServe with plc.phases := [({ locked := true, count := 500, cr := 492, rises := [268435456 * 1000 - 100, 268435456 * 1000 - 100 - 5368709], falls := [268435456 * 1000 - 100 - 2684354, 268435456 * 1000 - 100 - 8053063] } : PlcPhase), {}, {}], plc.txq := [({ phase := 0, prio := 1, mpdu := List.replicate 20 0, ackreq := true } : PlcTx)] } : State)

/-- Of the witness below. -/
def tPowerLineTransmission_0_1b : PlcPhase := ({ locked := true, count := 500, cr := 492, rises := [268435456 * 1000 - 100, 268435456 * 1000 - 100 - 5368709], falls := [268435456 * 1000 - 100 - 2684354, 268435456 * 1000 - 100 - 8053063] } : PlcPhase)

/-- Of the witness below. -/
def tPowerLineTransmission_0_1c : Bytes := ((if ({ phase := 0, prio := 1, mpdu := List.replicate 20 0, ackreq := true } : PlcTx).beacon then ({ phase := 0, prio := 1, mpdu := List.replicate 20 0, ackreq := true } : PlcTx).mpdu.take 15 ++ le 8 (tPowerLineTransmission_0_1b.crossing.getD tPowerLineTransmission_0_1a.dev + ((34 + nPad (({ phase := 0, prio := 1, mpdu := List.replicate 20 0, ackreq := true } : PlcTx).mpdu.length + 4) : Nat) - 1) * tPowerLineTransmission_0_1b.half) ++ ({ phase := 0, prio := 1, mpdu := List.replicate 20 0, ackreq := true } : PlcTx).mpdu.drop 23 else ({ phase := 0, prio := 1, mpdu := List.replicate 20 0, ackreq := true } : PlcTx).mpdu) : Bytes)

/-- Of the witness below. -/
def tPowerLineTransmission_3_0a : State := ({ ({ (tServe.setFld rPlcRxcfg 10 8 4) with plc.phases := [{ locked := true, count := 500, rises := [268435456 * 1000 - 100, 268435456 * 1000 - 100 - 5368709], falls := [268435456 * 1000 - 100 - 2684354, 268435456 * 1000 - 100 - 8053063] }, {}, {}], plc.txq := [({ ({ ({ phase := 0, prio := 1, mpdu := List.replicate 20 0, ackreq := true, sentX := some 400, tries := 0 } : PlcTx) with phase := (0 : Fin 3).val } : PlcTx) with sentX := some (400 : Nat) } : PlcTx)] } : State) with plc.txq := ([] : List PlcTx) ++ ({ ({ ({ phase := 0, prio := 1, mpdu := List.replicate 20 0, ackreq := true, sentX := some 400, tries := 0 } : PlcTx) with phase := (0 : Fin 3).val } : PlcTx) with sentX := some (400 : Nat) } : PlcTx) :: ([] : List PlcTx) } : State)

/-- Of the witness below. -/
def tPowerLineTransmission_3_1a : State := ({ ({ (tServe.setFld rPlcRxcfg 10 8 4) with plc.phases := [{ locked := true, count := 500, rises := [268435456 * 1000 - 100, 268435456 * 1000 - 100 - 5368709], falls := [268435456 * 1000 - 100 - 2684354, 268435456 * 1000 - 100 - 8053063] }, {}, {}], plc.txq := [({ ({ ({ phase := 0, prio := 1, mpdu := List.replicate 20 0, ackreq := true, sentX := some 400, tries := 7 } : PlcTx) with phase := (0 : Fin 3).val } : PlcTx) with sentX := some (400 : Nat) } : PlcTx)] } : State) with plc.txq := ([] : List PlcTx) ++ ({ ({ ({ phase := 0, prio := 1, mpdu := List.replicate 20 0, ackreq := true, sentX := some 400, tries := 7 } : PlcTx) with phase := (0 : Fin 3).val } : PlcTx) with sentX := some (400 : Nat) } : PlcTx) :: ([] : List PlcTx) } : State)

theorem witness_PowerLineTransmission_1 :
    (∃ (phase : Fin 3) (r : Fin 8) (s : State) (x : PlcPhase) (y : PlcPhase) (f : PlcTx), s.plc.phases[phase.val]? = some x ∧ y = { x with cr := x.cr + (x.count - x.cr) / 32 * 32 } ∧ s.contender phase = some f ∧ (s.plcTx = false ∨ s.phaseOn phase = false ∨ x.locked = false ∨ x.sending ≠ [] ∨ x.count ≠ y.cr + 8 * f.prio + r.val)) ∧
    (∃ (phase : Fin 3) (r : Fin 8) (s : State) (x : PlcPhase) (y : PlcPhase) (f : PlcTx) (n : Nat) (mpdu : Bytes), s.plc.phases[phase.val]? = some x ∧ y = { x with cr := x.cr + (x.count - x.cr) / 32 * 32 } ∧ s.contender phase = some f ∧ s.plcTx = true ∧ s.phaseOn phase = true ∧ x.locked = true ∧ x.sending = [] ∧ x.count = y.cr + 8 * f.prio + r.val ∧ n = 34 + nPad (f.mpdu.length + 4) ∧ mpdu = (if f.beacon then f.mpdu.take 15 ++ le 8 (x.crossing.getD s.dev + (n - 1) * x.half) ++ f.mpdu.drop 23 else f.mpdu)) ∧
    (∃ (phase : Fin 3) (r : Fin 8) (s : State), s.contender phase = none) ∧
    (∃ (phase : Fin 3) (k : Fin 4) (s : State) (X : Nat) (lead : Nat) (width : Nat) (w : PlcWindow), w = s.plcWindow phase k X ∧ lead = s.fld rPlcTxcfg 15 8 ∧ width = s.fld rPlcTxcfg 6 0) ∧
    (∃ (phase : Fin 3) (s : State) (f : PlcTx) (X : Nat) (before : List PlcTx) (after : List PlcTx), s.plc.txq = before ++ f :: after ∧ (∀ g ∈ before, g.phase ≠ phase.val ∨ ∀ Y, g.sentX = some Y → (s.phase phase).count < Y + 63) ∧ f.phase = phase.val ∧ f.sentX = some X ∧ X + 63 ≤ (s.phase phase).count ∧ f.tries < s.fld rPlcRxcfg 10 8) ∧
    (∃ (phase : Fin 3) (s : State) (f : PlcTx) (X : Nat) (before : List PlcTx) (after : List PlcTx), s.plc.txq = before ++ f :: after ∧ (∀ g ∈ before, g.phase ≠ phase.val ∨ ∀ Y, g.sentX = some Y → (s.phase phase).count < Y + 63) ∧ f.phase = phase.val ∧ f.sentX = some X ∧ X + 63 ≤ (s.phase phase).count ∧ s.fld rPlcRxcfg 10 8 ≤ f.tries) := ⟨by refine ⟨(0 : Fin 3), (0 : Fin 8), ({ tServe with plc.phases := [tPowerLineTransmission_0_0a, {}, {}], plc.txq := [({ phase := 0, prio := 1, mpdu := List.replicate 20 0, ackreq := true } : PlcTx)] } : State), tPowerLineTransmission_0_0a, ({ tPowerLineTransmission_0_0a with cr := tPowerLineTransmission_0_0a.cr + (tPowerLineTransmission_0_0a.count - tPowerLineTransmission_0_0a.cr) / 32 * 32 } : PlcPhase), ({ phase := 0, prio := 1, mpdu := List.replicate 20 0, ackreq := true } : PlcTx), ?_, ?_, ?_, ?_⟩ <;> first | with_reducible rfl | decide +kernel,
    by refine ⟨(0 : Fin 3), (0 : Fin 8), tPowerLineTransmission_0_1a, tPowerLineTransmission_0_1b, ({ tPowerLineTransmission_0_1b with cr := tPowerLineTransmission_0_1b.cr + (tPowerLineTransmission_0_1b.count - tPowerLineTransmission_0_1b.cr) / 32 * 32 } : PlcPhase), ({ phase := 0, prio := 1, mpdu := List.replicate 20 0, ackreq := true } : PlcTx), (34 + nPad (({ phase := 0, prio := 1, mpdu := List.replicate 20 0, ackreq := true } : PlcTx).mpdu.length + 4) : Nat), tPowerLineTransmission_0_1c, ?_, ?_, ?_, ?_, ?_, ?_, ?_, ?_, ?_, ?_⟩ <;> first | with_reducible rfl | decide +kernel,
    by refine ⟨(0 : Fin 3), (0 : Fin 8), tServe, ?_⟩ <;> first | with_reducible rfl | decide +kernel,
    by refine ⟨(0 : Fin 3), (0 : Fin 4), tServe, (1 : Nat), (tServe.fld rPlcTxcfg 15 8 : Nat), (tServe.fld rPlcTxcfg 6 0 : Nat), (tServe.plcWindow (0 : Fin 3) (0 : Fin 4) (1 : Nat) : PlcWindow), ?_, ?_, ?_⟩ <;> first | with_reducible rfl | decide +kernel,
    by refine ⟨(0 : Fin 3), tPowerLineTransmission_3_0a, ({ ({ ({ phase := 0, prio := 1, mpdu := List.replicate 20 0, ackreq := true, sentX := some 400, tries := 0 } : PlcTx) with phase := (0 : Fin 3).val } : PlcTx) with sentX := some (400 : Nat) } : PlcTx), (400 : Nat), ([] : List PlcTx), ([] : List PlcTx), ?_, ?_, ?_, ?_, ?_, ?_⟩ <;> first | with_reducible rfl | decide +kernel,
    by refine ⟨(0 : Fin 3), tPowerLineTransmission_3_1a, ({ ({ ({ phase := 0, prio := 1, mpdu := List.replicate 20 0, ackreq := true, sentX := some 400, tries := 7 } : PlcTx) with phase := (0 : Fin 3).val } : PlcTx) with sentX := some (400 : Nat) } : PlcTx), (400 : Nat), ([] : List PlcTx), ([] : List PlcTx), ?_, ?_, ?_, ?_, ?_, ?_⟩ <;> first | with_reducible rfl | decide +kernel⟩

/-- Of the witness below. -/
def tPowerLineTransmission_7a : State := ({ tServe with plc.sent := ({ slot := 0, push := 0, dcnt := 0, since := 0 } : SentDown) :: ([] : List SentDown) } : State)

/-- Of the witness below. -/
def tPowerLineTransmission_8a : State := ({ tServe with plc.downs := ([] : List HeldDown) ++ ({ slot := 0, push := 0, frame := [], since := 0 } : HeldDown) :: ([] : List HeldDown) } : State)

theorem witness_PowerLineTransmission_2 :
    (∃ (phase : Fin 3) (s : State), (∀ f ∈ s.plc.txq, f.sentX = none)) ∧
    (∃ (s : State), s.bitOf rPlcCtl 0 = false) ∧
    (∃ (s : State) (s1 : State), s.Inv ∧ s.bitOf rPlcCtl 0 = true ∧ s1 = s.until s.plc.beaconAt ∧ s.plcTx = false) ∧
    (∃ (s : State) (s1 : State), s.Inv ∧ s.bitOf rPlcCtl 0 = true ∧ s1 = s.until s.plc.beaconAt ∧ s.plcTx = true) ∧
    (∃ (s : State) (s1 : State) (d : SentDown) (r : List SentDown), s.plc.sent = d :: r ∧ s1 = s.until (d.since + 60 * 268435456)) ∧
    (∃ (s : State) (s1 : State) (d : HeldDown) (before : List HeldDown) (after : List HeldDown), s.plc.downs = before ++ d :: after ∧ (∀ h ∈ before, d.since < h.since) ∧ (∀ h ∈ after, d.since ≤ h.since) ∧ s1 = s.until (d.since + s.fld rPlcDnwait 9 0 * 3600 * 268435456)) := ⟨by refine ⟨(0 : Fin 3), tServe, ?_⟩ <;> first | with_reducible rfl | decide +kernel,
    by refine ⟨((tServe.setBit rPlcCtl 0 false) : State), ?_⟩ <;> first | with_reducible rfl | decide +kernel,
    by refine ⟨((tRec.setBit rPlcCtl 0 true) : State), (((tRec.setBit rPlcCtl 0 true) : State).until ((tRec.setBit rPlcCtl 0 true) : State).plc.beaconAt : State), ?_, ?_, ?_, ?_⟩ <;> first | with_reducible rfl | decide +kernel | (unfold State.Inv; decide +kernel),
    by refine ⟨((tServe.setBit rPlcCtl 0 true) : State), (((tServe.setBit rPlcCtl 0 true) : State).until ((tServe.setBit rPlcCtl 0 true) : State).plc.beaconAt : State), ?_, ?_, ?_, ?_⟩ <;> first | with_reducible rfl | decide +kernel | (unfold State.Inv; decide +kernel),
    by refine ⟨tPowerLineTransmission_7a, (tPowerLineTransmission_7a.until (({ slot := 0, push := 0, dcnt := 0, since := 0 } : SentDown).since + 60 * 268435456) : State), ({ slot := 0, push := 0, dcnt := 0, since := 0 } : SentDown), ([] : List SentDown), ?_, ?_⟩ <;> first | with_reducible rfl | decide +kernel,
    by refine ⟨tPowerLineTransmission_8a, (tPowerLineTransmission_8a.until (({ slot := 0, push := 0, frame := [], since := 0 } : HeldDown).since + tPowerLineTransmission_8a.fld rPlcDnwait 9 0 * 3600 * 268435456) : State), ({ slot := 0, push := 0, frame := [], since := 0 } : HeldDown), ([] : List HeldDown), ([] : List HeldDown), ?_, ?_, ?_, ?_⟩ <;> first | with_reducible rfl | decide +kernel⟩

/-- Of the witness below. -/
def tPowerLineTransmission_11_0_0a : State := ((((({ tServe with plc.downs := (List.range 4096).map fun k => { slot := k + 1, push := 0, frame := [], since := 0 } } : State).setBit rPlcCtl 0 true) : State).ringPacket 4 (1 : Nat) ([0, 0, 0, 0] : List Word)) : State)

/-- Of the witness below. -/
def tPowerLineTransmission_11_0_0b : State := ({ ((tPowerLineTransmission_11_0_0a.ringTake 4).2 : State) with plc := { ((tPowerLineTransmission_11_0_0a.ringTake 4).2 : State).plc with downs := (tPowerLineTransmission_11_0_0a.plc.downs.filter (fun d => d.slot ≠ (bits 16 0 (([0, 0, 0, 0] : List Word).getD 0 0).toNat : Nat)) : List HeldDown), txq := ((tPowerLineTransmission_11_0_0a.ringTake 4).2 : State).plc.txq.filter fun f => match f.down with | some (k, _, _) => k ≠ (bits 16 0 (([0, 0, 0, 0] : List Word).getD 0 0).toNat : Nat) || f.sentX.isSome | none => true } } : State)

/-- Of the witness below. -/
def tPowerLineTransmission_11_0_1a : State := ((((((tServe.setSlot 0 { state := .active, parentV := true, parent := 5 }) : State).setBit rPlcCtl 0 true) : State).ringPacket 4 (1 : Nat) ([0, 0, 0, 0] : List Word)) : State)

/-- Of the witness below. -/
def tPowerLineTransmission_11_0_1b : State := ({ ((tPowerLineTransmission_11_0_1a.ringTake 4).2 : State) with plc := { ((tPowerLineTransmission_11_0_1a.ringTake 4).2 : State).plc with downs := (tPowerLineTransmission_11_0_1a.plc.downs.filter (fun d => d.slot ≠ (bits 16 0 (([0, 0, 0, 0] : List Word).getD 0 0).toNat : Nat)) : List HeldDown), txq := ((tPowerLineTransmission_11_0_1a.ringTake 4).2 : State).plc.txq.filter fun f => match f.down with | some (k, _, _) => k ≠ (bits 16 0 (([0, 0, 0, 0] : List Word).getD 0 0).toNat : Nat) || f.sentX.isSome | none => true } } : State)

/-- Of the witness below. -/
def tPowerLineTransmission_11_0_2a : State := ((((((tServe.setBit rPlcCtl 0 true) : State).ringPacket 4 (1 : Nat) ([0, 0, 0, 0] : List Word)) : State).ringTake 4).2 : State)

/-- Of the witness below. -/
def tPowerLineTransmission_11_0_2b : State := ({ tPowerLineTransmission_11_0_2a with plc := { tPowerLineTransmission_11_0_2a.plc with downs := (((((tServe.setBit rPlcCtl 0 true) : State).ringPacket 4 (1 : Nat) ([0, 0, 0, 0] : List Word)) : State).plc.downs.filter (fun d => d.slot ≠ (bits 16 0 (([0, 0, 0, 0] : List Word).getD 0 0).toNat : Nat)) : List HeldDown), txq := tPowerLineTransmission_11_0_2a.plc.txq.filter fun f => match f.down with | some (k, _, _) => k ≠ (bits 16 0 (([0, 0, 0, 0] : List Word).getD 0 0).toNat : Nat) || f.sentX.isSome | none => true } } : State)

/-- Of the witness below. -/
def tPowerLineTransmission_11_1_0a : State := ((((((tServe.setReg rPlcCtl 3) : State).setBit rPlcCtl 0 true) : State).ringPacket 4 (2 : Nat) ([0, 0, 0, 0] : List Word)) : State)

theorem witness_PowerLineTransmission_3 :
    (∃ (s : State), s.plc.sent = []) ∧
    (∃ (s : State), s.plc.downs = []) ∧
    (∃ (s : State) (s1 : State) (cut : Bool) (ty : Nat) (i : Nat) (ws : List Word) (u : State) (rest : List HeldDown) (b : Bytes), s.bitOf rPlcCtl 0 = true ∧ s.ringPeek 4 = .packet cut ty ws ∧ s1 = (s.ringTake 4).2 ∧ i = bits 16 0 (ws.getD 0 0).toNat ∧ ty = 1 ∧ rest = s.plc.downs.filter (fun d => d.slot ≠ i) ∧ b = ofWs (ws.drop 2) ∧ u = { s1 with plc := { s1.plc with downs := rest, txq := s1.plc.txq.filter fun f => match f.down with | some (k, _, _) => k ≠ i || f.sentX.isSome | none => true } } ∧ 4096 ≤ rest.length) ∧
    (∃ (s : State) (s1 : State) (cut : Bool) (ty : Nat) (i : Nat) (ws : List Word) (u : State) (rest : List HeldDown) (b : Bytes), s.bitOf rPlcCtl 0 = true ∧ s.ringPeek 4 = .packet cut ty ws ∧ s1 = (s.ringTake 4).2 ∧ i = bits 16 0 (ws.getD 0 0).toNat ∧ ty = 1 ∧ rest = s.plc.downs.filter (fun d => d.slot ≠ i) ∧ b = ofWs (ws.drop 2) ∧ u = { s1 with plc := { s1.plc with downs := rest, txq := s1.plc.txq.filter fun f => match f.down with | some (k, _, _) => k ≠ i || f.sentX.isSome | none => true } } ∧ rest.length < 4096 ∧ u.route i = none) ∧
    (∃ (s : State) (s1 : State) (cut : Bool) (ty : Nat) (i : Nat) (ws : List Word) (u : State) (rest : List HeldDown) (b : Bytes) (relays : List Nat), s.bitOf rPlcCtl 0 = true ∧ s.ringPeek 4 = .packet cut ty ws ∧ s1 = (s.ringTake 4).2 ∧ i = bits 16 0 (ws.getD 0 0).toNat ∧ ty = 1 ∧ rest = s.plc.downs.filter (fun d => d.slot ≠ i) ∧ b = ofWs (ws.drop 2) ∧ u = { s1 with plc := { s1.plc with downs := rest, txq := s1.plc.txq.filter fun f => match f.down with | some (k, _, _) => k ≠ i || f.sentX.isSome | none => true } } ∧ rest.length < 4096 ∧ u.route i = some relays) ∧
    (∃ (s : State) (s1 : State) (cut : Bool) (ty : Nat) (i : Nat) (ws : List Word) (cid : Nat), s.bitOf rPlcCtl 0 = true ∧ s.ringPeek 4 = .packet cut ty ws ∧ s1 = (s.ringTake 4).2 ∧ i = bits 16 0 (ws.getD 0 0).toNat ∧ ty = 2 ∧ cid = (s.plc.cid + 1) % 65536 ∧ s.plcTx = false) := ⟨by refine ⟨({ tServe with plc.sent := [] } : State), ?_⟩ <;> first | with_reducible rfl | decide +kernel,
    by refine ⟨({ tServe with plc.downs := [] } : State), ?_⟩ <;> first | with_reducible rfl | decide +kernel,
    by refine ⟨tPowerLineTransmission_11_0_0a, ((tPowerLineTransmission_11_0_0a.ringTake 4).2 : State), (false : Bool), (1 : Nat), (bits 16 0 (([0, 0, 0, 0] : List Word).getD 0 0).toNat : Nat), ([0, 0, 0, 0] : List Word), tPowerLineTransmission_11_0_0b, (tPowerLineTransmission_11_0_0a.plc.downs.filter (fun d => d.slot ≠ (bits 16 0 (([0, 0, 0, 0] : List Word).getD 0 0).toNat : Nat)) : List HeldDown), (ofWs (([0, 0, 0, 0] : List Word).drop 2) : Bytes), ?_, ?_, ?_, ?_, ?_, ?_, ?_, ?_, ?_⟩ <;> first | with_reducible rfl | decide +kernel,
    by refine ⟨tPowerLineTransmission_11_0_1a, ((tPowerLineTransmission_11_0_1a.ringTake 4).2 : State), (false : Bool), (1 : Nat), (bits 16 0 (([0, 0, 0, 0] : List Word).getD 0 0).toNat : Nat), ([0, 0, 0, 0] : List Word), tPowerLineTransmission_11_0_1b, (tPowerLineTransmission_11_0_1a.plc.downs.filter (fun d => d.slot ≠ (bits 16 0 (([0, 0, 0, 0] : List Word).getD 0 0).toNat : Nat)) : List HeldDown), (ofWs (([0, 0, 0, 0] : List Word).drop 2) : Bytes), ?_, ?_, ?_, ?_, ?_, ?_, ?_, ?_, ?_, ?_⟩ <;> first | with_reducible rfl | decide +kernel,
    by refine ⟨((((tServe.setBit rPlcCtl 0 true) : State).ringPacket 4 (1 : Nat) ([0, 0, 0, 0] : List Word)) : State), tPowerLineTransmission_11_0_2a, (false : Bool), (1 : Nat), (bits 16 0 (([0, 0, 0, 0] : List Word).getD 0 0).toNat : Nat), ([0, 0, 0, 0] : List Word), tPowerLineTransmission_11_0_2b, (((((tServe.setBit rPlcCtl 0 true) : State).ringPacket 4 (1 : Nat) ([0, 0, 0, 0] : List Word)) : State).plc.downs.filter (fun d => d.slot ≠ (bits 16 0 (([0, 0, 0, 0] : List Word).getD 0 0).toNat : Nat)) : List HeldDown), (ofWs (([0, 0, 0, 0] : List Word).drop 2) : Bytes), ((tPowerLineTransmission_11_0_2b.route (bits 16 0 (([0, 0, 0, 0] : List Word).getD 0 0).toNat : Nat)).getD [] : List Nat), ?_, ?_, ?_, ?_, ?_, ?_, ?_, ?_, ?_, ?_⟩ <;> first | with_reducible rfl | decide +kernel,
    by refine ⟨tPowerLineTransmission_11_1_0a, ((tPowerLineTransmission_11_1_0a.ringTake 4).2 : State), (false : Bool), (2 : Nat), (bits 16 0 (([0, 0, 0, 0] : List Word).getD 0 0).toNat : Nat), ([0, 0, 0, 0] : List Word), ((tPowerLineTransmission_11_1_0a.plc.cid + 1) % 65536 : Nat), ?_, ?_, ?_, ?_, ?_, ?_, ?_⟩ <;> first | with_reducible rfl | decide +kernel⟩

/-- Of the witness below. -/
def tPowerLineTransmission_11_2_0a : State := ((((((tServe.setSlot 0 { state := .active, parentV := true, parent := 5 }) : State).setBit rPlcCtl 0 true) : State).ringPacket 4 (3 : Nat) ([0, 0, 0, 0] : List Word)) : State)

/-- Of the witness below. -/
def tPowerLineTransmission_11_2_1a : State := ((((((tServe.setBit rPlcCtl 0 true) : State).ringPacket 4 (3 : Nat) ([0, 0, 0, 0] : List Word)) : State).ringTake 4).2 : State)

theorem witness_PowerLineTransmission_4 :
    (∃ (s : State) (s1 : State) (cut : Bool) (ty : Nat) (i : Nat) (ws : List Word) (cid : Nat), s.bitOf rPlcCtl 0 = true ∧ s.ringPeek 4 = .packet cut ty ws ∧ s1 = (s.ringTake 4).2 ∧ i = bits 16 0 (ws.getD 0 0).toNat ∧ ty = 2 ∧ cid = (s.plc.cid + 1) % 65536 ∧ s.plcTx = true) ∧
    (∃ (s : State) (s1 : State) (cut : Bool) (ty : Nat) (i : Nat) (ws : List Word), s.bitOf rPlcCtl 0 = true ∧ s.ringPeek 4 = .packet cut ty ws ∧ s1 = (s.ringTake 4).2 ∧ i = bits 16 0 (ws.getD 0 0).toNat ∧ ty = 3 ∧ s1.route i = none) ∧
    (∃ (s : State) (s1 : State) (cut : Bool) (ty : Nat) (i : Nat) (ws : List Word) (relays : List Nat), s.bitOf rPlcCtl 0 = true ∧ s.ringPeek 4 = .packet cut ty ws ∧ s1 = (s.ringTake 4).2 ∧ i = bits 16 0 (ws.getD 0 0).toNat ∧ ty = 3 ∧ s1.route i = some relays) ∧
    (∃ (s : State) (s1 : State) (cut : Bool) (ty : Nat) (i : Nat) (ws : List Word), s.bitOf rPlcCtl 0 = true ∧ s.ringPeek 4 = .packet cut ty ws ∧ s1 = (s.ringTake 4).2 ∧ i = bits 16 0 (ws.getD 0 0).toNat ∧ ty ≠ 1 ∧ ty ≠ 2 ∧ ty ≠ 3) := ⟨by refine ⟨((((tServe.setBit rPlcCtl 0 true) : State).ringPacket 4 (2 : Nat) ([0, 0, 0, 0] : List Word)) : State), ((((((tServe.setBit rPlcCtl 0 true) : State).ringPacket 4 (2 : Nat) ([0, 0, 0, 0] : List Word)) : State).ringTake 4).2 : State), (false : Bool), (2 : Nat), (bits 16 0 (([0, 0, 0, 0] : List Word).getD 0 0).toNat : Nat), ([0, 0, 0, 0] : List Word), ((((((tServe.setBit rPlcCtl 0 true) : State).ringPacket 4 (2 : Nat) ([0, 0, 0, 0] : List Word)) : State).plc.cid + 1) % 65536 : Nat), ?_, ?_, ?_, ?_, ?_, ?_, ?_⟩ <;> first | with_reducible rfl | decide +kernel,
    by refine ⟨tPowerLineTransmission_11_2_0a, ((tPowerLineTransmission_11_2_0a.ringTake 4).2 : State), (false : Bool), (3 : Nat), (bits 16 0 (([0, 0, 0, 0] : List Word).getD 0 0).toNat : Nat), ([0, 0, 0, 0] : List Word), ?_, ?_, ?_, ?_, ?_, ?_⟩ <;> first | with_reducible rfl | decide +kernel,
    by refine ⟨((((tServe.setBit rPlcCtl 0 true) : State).ringPacket 4 (3 : Nat) ([0, 0, 0, 0] : List Word)) : State), tPowerLineTransmission_11_2_1a, (false : Bool), (3 : Nat), (bits 16 0 (([0, 0, 0, 0] : List Word).getD 0 0).toNat : Nat), ([0, 0, 0, 0] : List Word), ((tPowerLineTransmission_11_2_1a.route (bits 16 0 (([0, 0, 0, 0] : List Word).getD 0 0).toNat : Nat)).getD [] : List Nat), ?_, ?_, ?_, ?_, ?_, ?_⟩ <;> first | with_reducible rfl | decide +kernel,
    by refine ⟨((((tServe.setBit rPlcCtl 0 true) : State).ringPacket 4 (0 : Nat) ([0, 0, 0, 0] : List Word)) : State), ((((((tServe.setBit rPlcCtl 0 true) : State).ringPacket 4 (0 : Nat) ([0, 0, 0, 0] : List Word)) : State).ringTake 4).2 : State), (false : Bool), (0 : Nat), (bits 16 0 (([0, 0, 0, 0] : List Word).getD 0 0).toNat : Nat), ([0, 0, 0, 0] : List Word), ?_, ?_, ?_, ?_, ?_, ?_, ?_⟩ <;> first | with_reducible rfl | decide +kernel⟩

/-- Of the witness below. -/
def tSeifLinksCarryFrames_0_2_0a : State := (((({ ({ tServe with sef.on := true } : State) with sef.pos := none } : State).setBit rSefCtl 1 false) : State).advance (1 : Nat) : State)

/-- Of the witness below. -/
def tSeifLinksCarryFrames_0_2_1a : State := ((({ ({ ({ tTri with sef.pos := none, sef.enumQ := some 6 } : State) with sef.on := true } : State) with sef.pos := none } : State).setBit rSefCtl 1 true) : State)

/-- Of the witness below. -/
def tSeifLinksCarryFrames_0_2_1b : State := ({ (tSeifLinksCarryFrames_0_2_1a.advance (1 : Nat) : State) with sef := { (tSeifLinksCarryFrames_0_2_1a.advance (1 : Nat) : State).sef with pos := some (7 : Nat), head := (false : Bool), posAt := (tSeifLinksCarryFrames_0_2_1a.advance (1 : Nat) : State).t, aloneAt := (tSeifLinksCarryFrames_0_2_1a.advance (1 : Nat) : State).t, state := max 1 (tSeifLinksCarryFrames_0_2_1a.advance (1 : Nat) : State).sef.state, hbAt := (tSeifLinksCarryFrames_0_2_1a.advance (1 : Nat) : State).t }, seq := { (tSeifLinksCarryFrames_0_2_1a.advance (1 : Nat) : State).seq with pos := (7 : Nat) } } : State)

theorem witness_SeifLinksCarryFrames_1 :
    (∃ (dt : Nat) (level : Fin 3) (s : State) (s1 : State), s1 = s.advance dt ∧ (s.sef.on = false ∨ s.sef.pos ≠ none ∨ level = 0)) ∧
    (∃ (dt : Nat) (level : Fin 3) (s : State) (s1 : State), s1 = s.advance dt ∧ s.sef.on = true ∧ s.sef.pos = none ∧ level = 2 ∧ s.sef.enumQ = none) ∧
    (∃ (dt : Nat) (level : Fin 3) (s : State) (s1 : State) (p : Nat) (h : Bool) (u : State), s1 = s.advance dt ∧ s.sef.on = true ∧ s.sef.pos = none ∧ ((level = 1 ∧ p = 0 ∧ h = true) ∨ (level = 2 ∧ h = false ∧ ∃ q, s.sef.enumQ = some q ∧ q ≠ 31 ∧ p = q + 1)) ∧ u = { s1 with sef := { s1.sef with pos := some p, head := h, posAt := s1.t, aloneAt := s1.t, state := max 1 s1.sef.state, hbAt := s1.t }, seq := { s1.seq with pos := p } } ∧ (s.bitOf rSefCtl 1 = false ∨ s.rankAt p ≠ none)) ∧
    (∃ (dt : Nat) (level : Fin 3) (s : State) (s1 : State) (p : Nat) (h : Bool) (u : State), s1 = s.advance dt ∧ s.sef.on = true ∧ s.sef.pos = none ∧ ((level = 1 ∧ p = 0 ∧ h = true) ∨ (level = 2 ∧ h = false ∧ ∃ q, s.sef.enumQ = some q ∧ q ≠ 31 ∧ p = q + 1)) ∧ u = { s1 with sef := { s1.sef with pos := some p, head := h, posAt := s1.t, aloneAt := s1.t, state := max 1 s1.sef.state, hbAt := s1.t }, seq := { s1.seq with pos := p } } ∧ s.bitOf rSefCtl 1 = true ∧ s.rankAt p = none) ∧
    (∃ (dt : Nat) (level : Fin 3) (s : State) (s1 : State), s1 = s.advance dt ∧ s.sef.on = true ∧ s.sef.pos = none ∧ level = 2 ∧ s.sef.enumQ = some 31) ∧
    (∃ (s : State) (s1 : State) (p : Nat) (f : Bytes) (l : SefLink), s.sef.on = true ∧ s.sef.pos = some p ∧ s.enumDone = false ∧ s1 = s.until (s.sef.enumAt + msU 1) ∧ s.sef.links[1]? = some l ∧ (l.up = false ∨ l.dis = true)) := ⟨by refine ⟨(1 : Nat), (0 : Fin 3), ({ tServe with sef.on := false } : State), (({ tServe with sef.on := false } : State).advance (1 : Nat) : State), ?_, ?_⟩ <;> first | with_reducible rfl | decide +kernel,
    by refine ⟨(1 : Nat), (2 : Fin 3), ({ ({ ({ tServe with sef.on := true } : State) with sef.pos := none } : State) with sef.enumQ := none } : State), (({ ({ ({ tServe with sef.on := true } : State) with sef.pos := none } : State) with sef.enumQ := none } : State).advance (1 : Nat) : State), ?_, ?_, ?_, ?_, ?_⟩ <;> first | with_reducible rfl | decide +kernel,
    by refine ⟨(1 : Nat), (1 : Fin 3), ((({ ({ tServe with sef.on := true } : State) with sef.pos := none } : State).setBit rSefCtl 1 false) : State), tSeifLinksCarryFrames_0_2_0a, (0 : Nat), (true : Bool), ({ tSeifLinksCarryFrames_0_2_0a with sef := { tSeifLinksCarryFrames_0_2_0a.sef with pos := some (0 : Nat), head := (true : Bool), posAt := tSeifLinksCarryFrames_0_2_0a.t, aloneAt := tSeifLinksCarryFrames_0_2_0a.t, state := max 1 tSeifLinksCarryFrames_0_2_0a.sef.state, hbAt := tSeifLinksCarryFrames_0_2_0a.t }, seq := { tSeifLinksCarryFrames_0_2_0a.seq with pos := (0 : Nat) } } : State), ?_, ?_, ?_, ?_, ?_, ?_⟩ <;> first | with_reducible rfl | decide +kernel,
    by refine ⟨(1 : Nat), (2 : Fin 3), tSeifLinksCarryFrames_0_2_1a, (tSeifLinksCarryFrames_0_2_1a.advance (1 : Nat) : State), (7 : Nat), (false : Bool), tSeifLinksCarryFrames_0_2_1b, ?_, ?_, ?_, ?_, ?_, ?_, ?_⟩ <;> first | with_reducible rfl | decide +kernel,
    by refine ⟨(1 : Nat), (2 : Fin 3), ({ ({ ({ tServe with sef.on := true } : State) with sef.pos := none } : State) with sef.enumQ := some 31 } : State), (({ ({ ({ tServe with sef.on := true } : State) with sef.pos := none } : State) with sef.enumQ := some 31 } : State).advance (1 : Nat) : State), ?_, ?_, ?_, ?_, ?_⟩ <;> first | with_reducible rfl | decide +kernel,
    by refine ⟨({ ({ tRec with sef.on := true } : State) with sef.pos := some (1 : Nat) } : State), (({ ({ tRec with sef.on := true } : State) with sef.pos := some (1 : Nat) } : State).until (({ ({ tRec with sef.on := true } : State) with sef.pos := some (1 : Nat) } : State).sef.enumAt + msU 1) : State), (1 : Nat), ([1, 2, 3] : Bytes), ((({ ({ tRec with sef.on := true } : State) with sef.pos := some (1 : Nat) } : State).sef.links[1]?).getD {} : SefLink), ?_, ?_, ?_, ?_, ?_, ?_⟩ <;> first | with_reducible rfl | decide +kernel⟩

/-- Of the witness below. -/
def tSeifLinksCarryFrames_3_1a : State := (({ (({ ({ tServe with sef.links := [{}, {}] } : State) with sef.on := true } : State).advance (1 : Nat) : State) with sef := { (({ ({ tServe with sef.links := [{}, {}] } : State) with sef.on := true } : State).advance (1 : Nat) : State).sef with links := ({ ({ tServe with sef.links := [{}, {}] } : State) with sef.on := true } : State).sef.links.set (0 : Fin 2).val { up := true, partner := ((({ ({ tServe with sef.links := [{}, {}] } : State) with sef.on := true } : State).sef.links[(0 : Fin 2).val]?).getD {} : SefLink).partner } } } : State).irq rSefIrq 2 : State)

/-- Of the witness below. -/
def tSeifLinksCarryFrames_5_0a : State := ({ tServe with sef.inbox := ([] : List (Nat × Bytes)) ++ ((1 : Nat), ((tSef 1 (List.replicate 64 0)) : Bytes)) :: ([] : List (Nat × Bytes)) } : State)

theorem witness_SeifLinksCarryFrames_2 :
    (∃ (s : State) (s1 : State) (p : Nat) (f : Bytes) (l : SefLink), s.sef.on = true ∧ s.sef.pos = some p ∧ s.enumDone = false ∧ s1 = s.until (s.sef.enumAt + msU 1) ∧ s.sef.links[1]? = some l ∧ l.up = true ∧ l.dis = false ∧ l.wait = [] ∧ l.used + 24 ≤ 65536 ∧ f = le 1 1 ++ le 1 0 ++ le 2 4 ++ le 1 p ++ le 1 0x3F ++ le 2 l.lseqTx ++ fit 8 s.unitId ++ le 4 p) ∧
    (∃ (s : State), (s.sef.on = false ∨ s.sef.pos = none ∨ s.enumDone = true)) ∧
    (∃ (dt : Nat) (link : Fin 2) (s : State) (s1 : State) (u : State) (l : SefLink), s1 = s.advance dt ∧ s.sef.links[link.val]? = some l ∧ (s.sef.on = false ∨ s.pow.locks.getD 1 false = false ∨ l.dis = true ∨ l.up = true)) ∧
    (∃ (dt : Nat) (link : Fin 2) (s : State) (s1 : State) (u : State) (l : SefLink), s1 = s.advance dt ∧ s.sef.links[link.val]? = some l ∧ s.sef.on = true ∧ s.pow.locks.getD 1 false = true ∧ l.dis = false ∧ l.up = false ∧ u = ({ s1 with sef := { s1.sef with links := s.sef.links.set link.val { up := true, partner := l.partner } } } : State).irq rSefIrq 2) ∧
    (∃ (s : State), (∀ x ∈ s.sef.inbox, sefType x.2 ≠ 1)) ∧
    (∃ (s : State) (s1 : State) (link : Nat) (q : Nat) (f : Bytes) (a : List (Nat × Bytes)) (r : List (Nat × Bytes)), s.sef.inbox = a ++ (link, f) :: r ∧ (∀ x ∈ a, sefType x.2 ≠ 1) ∧ sefType f = 1 ∧ q = fld 0 1 (sefBody f) % 32 ∧ s1 = { s with sef := { s.sef with inbox := a ++ r } } ∧ link ≠ 0) := ⟨by refine ⟨({ ({ tServe with sef.on := true } : State) with sef.pos := some (1 : Nat) } : State), (({ ({ tServe with sef.on := true } : State) with sef.pos := some (1 : Nat) } : State).until (({ ({ tServe with sef.on := true } : State) with sef.pos := some (1 : Nat) } : State).sef.enumAt + msU 1) : State), (1 : Nat), (le 1 1 ++ le 1 0 ++ le 2 4 ++ le 1 (1 : Nat) ++ le 1 0x3F ++ le 2 ((({ ({ tServe with sef.on := true } : State) with sef.pos := some (1 : Nat) } : State).sef.links[1]?).getD {} : SefLink).lseqTx ++ fit 8 ({ ({ tServe with sef.on := true } : State) with sef.pos := some (1 : Nat) } : State).unitId ++ le 4 (1 : Nat) : Bytes), ((({ ({ tServe with sef.on := true } : State) with sef.pos := some (1 : Nat) } : State).sef.links[1]?).getD {} : SefLink), ?_, ?_, ?_, ?_, ?_, ?_, ?_, ?_, ?_, ?_⟩ <;> first | with_reducible rfl | decide +kernel,
    by refine ⟨({ tServe with sef.on := false } : State), ?_⟩ <;> first | with_reducible rfl | decide +kernel,
    by refine ⟨(1 : Nat), (0 : Fin 2), ({ tServe with sef.on := false } : State), (({ tServe with sef.on := false } : State).advance (1 : Nat) : State), tServe, ((({ tServe with sef.on := false } : State).sef.links[(0 : Fin 2).val]?).getD {} : SefLink), ?_, ?_, ?_⟩ <;> first | with_reducible rfl | decide +kernel,
    by refine ⟨(1 : Nat), (0 : Fin 2), ({ ({ tServe with sef.links := [{}, {}] } : State) with sef.on := true } : State), (({ ({ tServe with sef.links := [{}, {}] } : State) with sef.on := true } : State).advance (1 : Nat) : State), tSeifLinksCarryFrames_3_1a, ((({ ({ tServe with sef.links := [{}, {}] } : State) with sef.on := true } : State).sef.links[(0 : Fin 2).val]?).getD {} : SefLink), ?_, ?_, ?_, ?_, ?_, ?_, ?_⟩ <;> first | with_reducible rfl | decide +kernel,
    by refine ⟨tServe, ?_⟩ <;> first | with_reducible rfl | decide +kernel,
    by refine ⟨tSeifLinksCarryFrames_5_0a, ({ tSeifLinksCarryFrames_5_0a with sef := { tSeifLinksCarryFrames_5_0a.sef with inbox := ([] : List (Nat × Bytes)) ++ ([] : List (Nat × Bytes)) } } : State), (1 : Nat), (fld 0 1 (sefBody ((tSef 1 (List.replicate 64 0)) : Bytes)) % 32 : Nat), ((tSef 1 (List.replicate 64 0)) : Bytes), ([] : List (Nat × Bytes)), ([] : List (Nat × Bytes)), ?_, ?_, ?_, ?_, ?_, ?_⟩ <;> first | with_reducible rfl | decide +kernel⟩

/-- Of the witness below. -/
def tSeifLinksCarryFrames_5_1a : State := ({ tServe with sef.inbox := ([] : List (Nat × Bytes)) ++ ((0 : Nat), ((tSef 1 (List.replicate 64 0)) : Bytes)) :: ([] : List (Nat × Bytes)) } : State)

/-- Of the witness below. -/
def tSeifLinksCarryFrames_5_2a : State := ({ ({ tServe with sef.inbox := ([] : List (Nat × Bytes)) ++ ((0 : Nat), ((tSef 1 (List.replicate 64 0)) : Bytes)) :: ([] : List (Nat × Bytes)) } : State) with sef.head := true } : State)

/-- Of the witness below. -/
def tSeifLinksCarryFrames_5_3a : State := ({ ({ ({ tServe with sef.inbox := ([] : List (Nat × Bytes)) ++ ((0 : Nat), ((tSef 1 (List.replicate 64 0)) : Bytes)) :: ([] : List (Nat × Bytes)) } : State) with sef.head := false } : State) with sef.pos := some ((fld 0 1 (sefBody ((tSef 1 (List.replicate 64 0)) : Bytes)) % 32 : Nat) + 1) } : State)

/-- Of the witness below. -/
def tSeifLinksCarryFrames_5_4a : State := ({ ({ ({ ({ tServe with sef.inbox := ([] : List (Nat × Bytes)) ++ ((0 : Nat), ((tSef 1 (List.replicate 64 0)) : Bytes)) :: ([] : List (Nat × Bytes)) } : State) with sef.head := false } : State) with sef.pos := none } : State) with sef.square := false } : State)

/-- Of the witness below. -/
def tSeifLinksCarryFrames_5_5a : State := ((({ ({ ({ ({ tServe with sef.inbox := ([] : List (Nat × Bytes)) ++ ((0 : Nat), ((tSef 1 (List.replicate 64 0)) : Bytes)) :: ([] : List (Nat × Bytes)) } : State) with sef.head := false } : State) with sef.pos := none } : State) with sef.square := true } : State).setBit rSefCtl 1 true) : State)

/-- Of the witness below. -/
def tSeifLinksCarryFrames_5_6a : State := ((({ ({ ({ ({ tServe with sef.inbox := ([] : List (Nat × Bytes)) ++ ((0 : Nat), ((tSef 1 (List.replicate 64 0)) : Bytes)) :: ([] : List (Nat × Bytes)) } : State) with sef.head := false } : State) with sef.pos := none } : State) with sef.square := true } : State).setBit rSefCtl 1 false) : State)

/-- Of the witness below. -/
def tSeifLinksCarryFrames_5_6b : State := ({ tSeifLinksCarryFrames_5_6a with sef := { tSeifLinksCarryFrames_5_6a.sef with inbox := ([] : List (Nat × Bytes)) ++ ([] : List (Nat × Bytes)) } } : State)

theorem witness_SeifLinksCarryFrames_3 :
    (∃ (s : State) (s1 : State) (link : Nat) (q : Nat) (f : Bytes) (a : List (Nat × Bytes)) (r : List (Nat × Bytes)), s.sef.inbox = a ++ (link, f) :: r ∧ (∀ x ∈ a, sefType x.2 ≠ 1) ∧ sefType f = 1 ∧ q = fld 0 1 (sefBody f) % 32 ∧ s1 = { s with sef := { s.sef with inbox := a ++ r } } ∧ link = 0 ∧ (q = 31 ∨ (s.sef.head = false ∧ ∃ p, s.sef.pos = some p ∧ q + 1 ≠ p))) ∧
    (∃ (s : State) (s1 : State) (link : Nat) (q : Nat) (f : Bytes) (a : List (Nat × Bytes)) (r : List (Nat × Bytes)), s.sef.inbox = a ++ (link, f) :: r ∧ (∀ x ∈ a, sefType x.2 ≠ 1) ∧ sefType f = 1 ∧ q = fld 0 1 (sefBody f) % 32 ∧ s1 = { s with sef := { s.sef with inbox := a ++ r } } ∧ link = 0 ∧ q ≠ 31 ∧ s.sef.head = true) ∧
    (∃ (s : State) (s1 : State) (link : Nat) (q : Nat) (f : Bytes) (a : List (Nat × Bytes)) (r : List (Nat × Bytes)), s.sef.inbox = a ++ (link, f) :: r ∧ (∀ x ∈ a, sefType x.2 ≠ 1) ∧ sefType f = 1 ∧ q = fld 0 1 (sefBody f) % 32 ∧ s1 = { s with sef := { s.sef with inbox := a ++ r } } ∧ link = 0 ∧ q ≠ 31 ∧ s.sef.head = false ∧ s.sef.pos = some (q + 1)) ∧
    (∃ (s : State) (s1 : State) (link : Nat) (q : Nat) (f : Bytes) (a : List (Nat × Bytes)) (r : List (Nat × Bytes)), s.sef.inbox = a ++ (link, f) :: r ∧ (∀ x ∈ a, sefType x.2 ≠ 1) ∧ sefType f = 1 ∧ q = fld 0 1 (sefBody f) % 32 ∧ s1 = { s with sef := { s.sef with inbox := a ++ r } } ∧ link = 0 ∧ q ≠ 31 ∧ s.sef.head = false ∧ s.sef.pos = none ∧ s.sef.square = false) ∧
    (∃ (s : State) (s1 : State) (link : Nat) (q : Nat) (f : Bytes) (a : List (Nat × Bytes)) (r : List (Nat × Bytes)), s.sef.inbox = a ++ (link, f) :: r ∧ (∀ x ∈ a, sefType x.2 ≠ 1) ∧ sefType f = 1 ∧ q = fld 0 1 (sefBody f) % 32 ∧ s1 = { s with sef := { s.sef with inbox := a ++ r } } ∧ link = 0 ∧ q ≠ 31 ∧ s.sef.head = false ∧ s.sef.pos = none ∧ s.sef.square = true ∧ s.bitOf rSefCtl 1 = true ∧ s.rankAt (q + 1) = none) ∧
    (∃ (s : State) (s1 : State) (link : Nat) (q : Nat) (f : Bytes) (a : List (Nat × Bytes)) (r : List (Nat × Bytes)) (u : State), s.sef.inbox = a ++ (link, f) :: r ∧ (∀ x ∈ a, sefType x.2 ≠ 1) ∧ sefType f = 1 ∧ q = fld 0 1 (sefBody f) % 32 ∧ s1 = { s with sef := { s.sef with inbox := a ++ r } } ∧ link = 0 ∧ q ≠ 31 ∧ s.sef.head = false ∧ s.sef.pos = none ∧ s.sef.square = true ∧ (s.bitOf rSefCtl 1 = false ∨ s.rankAt (q + 1) ≠ none) ∧ u = { s1 with sef := { s1.sef with pos := some (q + 1), head := false, posAt := s.t, aloneAt := s.t, state := max 1 s.sef.state, hbAt := s.t }, seq := { s.seq with pos := q + 1 } }) := ⟨by refine ⟨tSeifLinksCarryFrames_5_1a, ({ tSeifLinksCarryFrames_5_1a with sef := { tSeifLinksCarryFrames_5_1a.sef with inbox := ([] : List (Nat × Bytes)) ++ ([] : List (Nat × Bytes)) } } : State), (0 : Nat), (fld 0 1 (sefBody ((tSef 1 (List.replicate 64 0)) : Bytes)) % 32 : Nat), ((tSef 1 (List.replicate 64 0)) : Bytes), ([] : List (Nat × Bytes)), ([] : List (Nat × Bytes)), ?_, ?_, ?_, ?_, ?_, ?_, ?_⟩ <;> first | with_reducible rfl | decide +kernel,
    by refine ⟨tSeifLinksCarryFrames_5_2a, ({ tSeifLinksCarryFrames_5_2a with sef := { tSeifLinksCarryFrames_5_2a.sef with inbox := ([] : List (Nat × Bytes)) ++ ([] : List (Nat × Bytes)) } } : State), (0 : Nat), (fld 0 1 (sefBody ((tSef 1 (List.replicate 64 0)) : Bytes)) % 32 : Nat), ((tSef 1 (List.replicate 64 0)) : Bytes), ([] : List (Nat × Bytes)), ([] : List (Nat × Bytes)), ?_, ?_, ?_, ?_, ?_, ?_, ?_, ?_⟩ <;> first | with_reducible rfl | decide +kernel,
    by refine ⟨tSeifLinksCarryFrames_5_3a, ({ tSeifLinksCarryFrames_5_3a with sef := { tSeifLinksCarryFrames_5_3a.sef with inbox := ([] : List (Nat × Bytes)) ++ ([] : List (Nat × Bytes)) } } : State), (0 : Nat), (fld 0 1 (sefBody ((tSef 1 (List.replicate 64 0)) : Bytes)) % 32 : Nat), ((tSef 1 (List.replicate 64 0)) : Bytes), ([] : List (Nat × Bytes)), ([] : List (Nat × Bytes)), ?_, ?_, ?_, ?_, ?_, ?_, ?_, ?_, ?_⟩ <;> first | with_reducible rfl | decide +kernel,
    by refine ⟨tSeifLinksCarryFrames_5_4a, ({ tSeifLinksCarryFrames_5_4a with sef := { tSeifLinksCarryFrames_5_4a.sef with inbox := ([] : List (Nat × Bytes)) ++ ([] : List (Nat × Bytes)) } } : State), (0 : Nat), (fld 0 1 (sefBody ((tSef 1 (List.replicate 64 0)) : Bytes)) % 32 : Nat), ((tSef 1 (List.replicate 64 0)) : Bytes), ([] : List (Nat × Bytes)), ([] : List (Nat × Bytes)), ?_, ?_, ?_, ?_, ?_, ?_, ?_, ?_, ?_, ?_⟩ <;> first | with_reducible rfl | decide +kernel,
    by refine ⟨tSeifLinksCarryFrames_5_5a, ({ tSeifLinksCarryFrames_5_5a with sef := { tSeifLinksCarryFrames_5_5a.sef with inbox := ([] : List (Nat × Bytes)) ++ ([] : List (Nat × Bytes)) } } : State), (0 : Nat), (fld 0 1 (sefBody ((tSef 1 (List.replicate 64 0)) : Bytes)) % 32 : Nat), ((tSef 1 (List.replicate 64 0)) : Bytes), ([] : List (Nat × Bytes)), ([] : List (Nat × Bytes)), ?_, ?_, ?_, ?_, ?_, ?_, ?_, ?_, ?_, ?_, ?_, ?_⟩ <;> first | with_reducible rfl | decide +kernel,
    by refine ⟨tSeifLinksCarryFrames_5_6a, tSeifLinksCarryFrames_5_6b, (0 : Nat), (fld 0 1 (sefBody ((tSef 1 (List.replicate 64 0)) : Bytes)) % 32 : Nat), ((tSef 1 (List.replicate 64 0)) : Bytes), ([] : List (Nat × Bytes)), ([] : List (Nat × Bytes)), ({ tSeifLinksCarryFrames_5_6b with sef := { tSeifLinksCarryFrames_5_6b.sef with pos := some ((fld 0 1 (sefBody ((tSef 1 (List.replicate 64 0)) : Bytes)) % 32 : Nat) + 1), head := false, posAt := tSeifLinksCarryFrames_5_6a.t, aloneAt := tSeifLinksCarryFrames_5_6a.t, state := max 1 tSeifLinksCarryFrames_5_6a.sef.state, hbAt := tSeifLinksCarryFrames_5_6a.t }, seq := { tSeifLinksCarryFrames_5_6a.seq with pos := (fld 0 1 (sefBody ((tSef 1 (List.replicate 64 0)) : Bytes)) % 32 : Nat) + 1 } } : State), ?_, ?_, ?_, ?_, ?_, ?_, ?_, ?_, ?_, ?_, ?_, ?_⟩ <;> first | with_reducible rfl | decide +kernel⟩

/-- Of the witness below. -/
def tSeifLinksCarryFrames_6_2_1_3a : State := ({ tServe with sef.pos := some (fld 5 1 (((tFrm 1 63) : Bytes).take (((tFrm 1 63) : Bytes).length - 4 : Nat) : Bytes) % 64 : Nat) } : State)

/-- Of the witness below. -/
def tSeifLinksCarryFrames_6_2_1_3b : State := ({ (tSeifLinksCarryFrames_6_2_1_3a.advance (0 : Nat) : State) with sef := { (tSeifLinksCarryFrames_6_2_1_3a.advance (0 : Nat) : State).sef with links := tSeifLinksCarryFrames_6_2_1_3a.sef.links.set (0 : Fin 2).val { ((tSeifLinksCarryFrames_6_2_1_3a.sef.links[(0 : Fin 2).val]?).getD {} : SefLink) with lseqRx := (((tSeifLinksCarryFrames_6_2_1_3a.sef.links[(0 : Fin 2).val]?).getD {} : SefLink).lseqRx + 1) % 65536 } }, emitted := tSeifLinksCarryFrames_6_2_1_3a.emitted ++ [.seif (0 : Fin 2).val (.k 0x7C :: ((le 2 ((tSeifLinksCarryFrames_6_2_1_3a.sef.links[(0 : Fin 2).val]?).getD {} : SefLink).lseqRx).map .d ++ [.d 0xB5]))] } : State)

theorem witness_SeifLinksCarryFrames_4 :
    (∃ (dt : Nat) (link : Fin 2) (frame : Bytes) (f : Bytes) (s : State) (s1 : State) (u : State) (l : SefLink) (n : Nat) (src : Nat) (dst : Nat) (hops : Nat), s1 = s.advance dt ∧ s.sef.links[link.val]? = some l ∧ n = frame.length - 4 ∧ f = frame.take n ∧ src = sefSrc f ∧ dst = fld 5 1 f % 64 ∧ hops = fld 1 1 f ∧ s.linkLive link = false) ∧
    (∃ (dt : Nat) (link : Fin 2) (frame : Bytes) (f : Bytes) (s : State) (s1 : State) (u : State) (l : SefLink) (n : Nat) (src : Nat) (dst : Nat) (hops : Nat), s1 = s.advance dt ∧ s.sef.links[link.val]? = some l ∧ n = frame.length - 4 ∧ f = frame.take n ∧ src = sefSrc f ∧ dst = fld 5 1 f % 64 ∧ hops = fld 1 1 f ∧ s.linkLive link = true ∧ (frame.length < 20 ∨ fld n 4 frame ≠ crc32 f ∨ n ≠ 16 + fld 2 2 frame)) ∧
    (∃ (dt : Nat) (link : Fin 2) (frame : Bytes) (f : Bytes) (s : State) (s1 : State) (u : State) (l : SefLink) (n : Nat) (src : Nat) (dst : Nat) (hops : Nat), s1 = s.advance dt ∧ s.sef.links[link.val]? = some l ∧ n = frame.length - 4 ∧ f = frame.take n ∧ src = sefSrc f ∧ dst = fld 5 1 f % 64 ∧ hops = fld 1 1 f ∧ s.linkLive link = true ∧ 20 ≤ frame.length ∧ fld n 4 frame = crc32 f ∧ n = 16 + fld 2 2 frame ∧ fld 6 2 frame ≠ l.lseqRx) ∧
    (∃ (dt : Nat) (link : Fin 2) (frame : Bytes) (f : Bytes) (s : State) (s1 : State) (u : State) (l : SefLink) (n : Nat) (src : Nat) (dst : Nat) (hops : Nat), s1 = s.advance dt ∧ s.sef.links[link.val]? = some l ∧ n = frame.length - 4 ∧ f = frame.take n ∧ src = sefSrc f ∧ dst = fld 5 1 f % 64 ∧ hops = fld 1 1 f ∧ s.linkLive link = true ∧ 20 ≤ frame.length ∧ fld n 4 frame = crc32 f ∧ n = 16 + fld 2 2 frame ∧ fld 6 2 frame = l.lseqRx ∧ u = { s1 with sef := { s1.sef with links := s.sef.links.set link.val { l with lseqRx := (l.lseqRx + 1) % 65536 } }, emitted := s.emitted ++ [.seif link.val (.k 0x7C :: ((le 2 l.lseqRx).map .d ++ [.d 0xB5]))] } ∧ s.sef.pos ≠ some src ∧ (sefType f = 0 ∨ 12 < sefType f ∨ 31 ≤ hops % 32)) ∧
    (∃ (dt : Nat) (link : Fin 2) (frame : Bytes) (f : Bytes) (s : State) (s1 : State) (u : State) (l : SefLink) (n : Nat) (src : Nat) (dst : Nat) (hops : Nat), s1 = s.advance dt ∧ s.sef.links[link.val]? = some l ∧ n = frame.length - 4 ∧ f = frame.take n ∧ src = sefSrc f ∧ dst = fld 5 1 f % 64 ∧ hops = fld 1 1 f ∧ s.linkLive link = true ∧ 20 ≤ frame.length ∧ fld n 4 frame = crc32 f ∧ n = 16 + fld 2 2 frame ∧ fld 6 2 frame = l.lseqRx ∧ u = { s1 with sef := { s1.sef with links := s.sef.links.set link.val { l with lseqRx := (l.lseqRx + 1) % 65536 } }, emitted := s.emitted ++ [.seif link.val (.k 0x7C :: ((le 2 l.lseqRx).map .d ++ [.d 0xB5]))] } ∧ s.sef.pos ≠ some src ∧ 1 ≤ sefType f ∧ sefType f ≤ 11 ∧ hops % 32 < 31 ∧ (s.sef.pos = some dst ∧ dst ≠ 63 ∨ dst = 63 ∧ sefType f = 1)) ∧
    (∃ (dt : Nat) (link : Fin 2) (frame : Bytes) (f : Bytes) (s : State) (s1 : State) (u : State) (l : SefLink) (n : Nat) (src : Nat) (dst : Nat) (hops : Nat), s1 = s.advance dt ∧ s.sef.links[link.val]? = some l ∧ n = frame.length - 4 ∧ f = frame.take n ∧ src = sefSrc f ∧ dst = fld 5 1 f % 64 ∧ hops = fld 1 1 f ∧ s.linkLive link = true ∧ 20 ≤ frame.length ∧ fld n 4 frame = crc32 f ∧ n = 16 + fld 2 2 frame ∧ fld 6 2 frame = l.lseqRx ∧ u = { s1 with sef := { s1.sef with links := s.sef.links.set link.val { l with lseqRx := (l.lseqRx + 1) % 65536 } }, emitted := s.emitted ++ [.seif link.val (.k 0x7C :: ((le 2 l.lseqRx).map .d ++ [.d 0xB5]))] } ∧ s.sef.pos ≠ some src ∧ 2 ≤ sefType f ∧ sefType f ≤ 12 ∧ hops % 32 < 31 ∧ s.sef.pos ≠ some dst ∧ dst ≠ 63) := ⟨by refine ⟨(1 : Nat), (0 : Fin 2), ([1, 2, 3] : Bytes), (([1, 2, 3] : Bytes).take (([1, 2, 3] : Bytes).length - 4 : Nat) : Bytes), tRec, (tRec.advance (1 : Nat) : State), tServe, ((tRec.sef.links[(0 : Fin 2).val]?).getD {} : SefLink), (([1, 2, 3] : Bytes).length - 4 : Nat), (sefSrc (([1, 2, 3] : Bytes).take (([1, 2, 3] : Bytes).length - 4 : Nat) : Bytes) : Nat), (fld 5 1 (([1, 2, 3] : Bytes).take (([1, 2, 3] : Bytes).length - 4 : Nat) : Bytes) % 64 : Nat), (fld 1 1 (([1, 2, 3] : Bytes).take (([1, 2, 3] : Bytes).length - 4 : Nat) : Bytes) : Nat), ?_, ?_, ?_, ?_, ?_, ?_, ?_, ?_⟩ <;> first | with_reducible rfl | decide +kernel,
    by refine ⟨(1 : Nat), (0 : Fin 2), ([1, 2, 3] : Bytes), (([1, 2, 3] : Bytes).take (([1, 2, 3] : Bytes).length - 4 : Nat) : Bytes), tServe, (tServe.advance (1 : Nat) : State), tServe, ((tServe.sef.links[(0 : Fin 2).val]?).getD {} : SefLink), (([1, 2, 3] : Bytes).length - 4 : Nat), (sefSrc (([1, 2, 3] : Bytes).take (([1, 2, 3] : Bytes).length - 4 : Nat) : Bytes) : Nat), (fld 5 1 (([1, 2, 3] : Bytes).take (([1, 2, 3] : Bytes).length - 4 : Nat) : Bytes) % 64 : Nat), (fld 1 1 (([1, 2, 3] : Bytes).take (([1, 2, 3] : Bytes).length - 4 : Nat) : Bytes) : Nat), ?_, ?_, ?_, ?_, ?_, ?_, ?_, ?_, ?_⟩ <;> first | with_reducible rfl | decide +kernel,
    by refine ⟨(0 : Nat), (0 : Fin 2), ((tFrm 1 3) : Bytes), (((tFrm 1 3) : Bytes).take (((tFrm 1 3) : Bytes).length - 4 : Nat) : Bytes), ({ tServe with sef.links := [{ up := true, lseqRx := 3 }, {}] } : State), (({ tServe with sef.links := [{ up := true, lseqRx := 3 }, {}] } : State).advance (0 : Nat) : State), tServe, ((({ tServe with sef.links := [{ up := true, lseqRx := 3 }, {}] } : State).sef.links[(0 : Fin 2).val]?).getD {} : SefLink), (((tFrm 1 3) : Bytes).length - 4 : Nat), (sefSrc (((tFrm 1 3) : Bytes).take (((tFrm 1 3) : Bytes).length - 4 : Nat) : Bytes) : Nat), (fld 5 1 (((tFrm 1 3) : Bytes).take (((tFrm 1 3) : Bytes).length - 4 : Nat) : Bytes) % 64 : Nat), (fld 1 1 (((tFrm 1 3) : Bytes).take (((tFrm 1 3) : Bytes).length - 4 : Nat) : Bytes) : Nat), ?_, ?_, ?_, ?_, ?_, ?_, ?_, ?_, ?_, ?_, ?_, ?_⟩ <;> first | with_reducible rfl | decide +kernel,
    by refine ⟨(0 : Nat), (0 : Fin 2), ((tFrm 0 3) : Bytes), (((tFrm 0 3) : Bytes).take (((tFrm 0 3) : Bytes).length - 4 : Nat) : Bytes), tServe, (tServe.advance (0 : Nat) : State), ({ (tServe.advance (0 : Nat) : State) with sef := { (tServe.advance (0 : Nat) : State).sef with links := tServe.sef.links.set (0 : Fin 2).val { ((tServe.sef.links[(0 : Fin 2).val]?).getD {} : SefLink) with lseqRx := (((tServe.sef.links[(0 : Fin 2).val]?).getD {} : SefLink).lseqRx + 1) % 65536 } }, emitted := tServe.emitted ++ [.seif (0 : Fin 2).val (.k 0x7C :: ((le 2 ((tServe.sef.links[(0 : Fin 2).val]?).getD {} : SefLink).lseqRx).map .d ++ [.d 0xB5]))] } : State), ((tServe.sef.links[(0 : Fin 2).val]?).getD {} : SefLink), (((tFrm 0 3) : Bytes).length - 4 : Nat), (sefSrc (((tFrm 0 3) : Bytes).take (((tFrm 0 3) : Bytes).length - 4 : Nat) : Bytes) : Nat), (fld 5 1 (((tFrm 0 3) : Bytes).take (((tFrm 0 3) : Bytes).length - 4 : Nat) : Bytes) % 64 : Nat), (fld 1 1 (((tFrm 0 3) : Bytes).take (((tFrm 0 3) : Bytes).length - 4 : Nat) : Bytes) : Nat), ?_, ?_, ?_, ?_, ?_, ?_, ?_, ?_, ?_, ?_, ?_, ?_, ?_, ?_, ?_⟩ <;> first | with_reducible rfl | decide +kernel,
    by refine ⟨(0 : Nat), (0 : Fin 2), ((tFrm 1 63) : Bytes), (((tFrm 1 63) : Bytes).take (((tFrm 1 63) : Bytes).length - 4 : Nat) : Bytes), tSeifLinksCarryFrames_6_2_1_3a, (tSeifLinksCarryFrames_6_2_1_3a.advance (0 : Nat) : State), tSeifLinksCarryFrames_6_2_1_3b, ((tSeifLinksCarryFrames_6_2_1_3a.sef.links[(0 : Fin 2).val]?).getD {} : SefLink), (((tFrm 1 63) : Bytes).length - 4 : Nat), (sefSrc (((tFrm 1 63) : Bytes).take (((tFrm 1 63) : Bytes).length - 4 : Nat) : Bytes) : Nat), (fld 5 1 (((tFrm 1 63) : Bytes).take (((tFrm 1 63) : Bytes).length - 4 : Nat) : Bytes) % 64 : Nat), (fld 1 1 (((tFrm 1 63) : Bytes).take (((tFrm 1 63) : Bytes).length - 4 : Nat) : Bytes) : Nat), ?_, ?_, ?_, ?_, ?_, ?_, ?_, ?_, ?_, ?_, ?_, ?_, ?_, ?_, ?_, ?_, ?_, ?_⟩ <;> first | with_reducible rfl | decide +kernel,
    by refine ⟨(0 : Nat), (0 : Fin 2), ((tFrm 3 9) : Bytes), (((tFrm 3 9) : Bytes).take (((tFrm 3 9) : Bytes).length - 4 : Nat) : Bytes), tServe, (tServe.advance (0 : Nat) : State), ({ (tServe.advance (0 : Nat) : State) with sef := { (tServe.advance (0 : Nat) : State).sef with links := tServe.sef.links.set (0 : Fin 2).val { ((tServe.sef.links[(0 : Fin 2).val]?).getD {} : SefLink) with lseqRx := (((tServe.sef.links[(0 : Fin 2).val]?).getD {} : SefLink).lseqRx + 1) % 65536 } }, emitted := tServe.emitted ++ [.seif (0 : Fin 2).val (.k 0x7C :: ((le 2 ((tServe.sef.links[(0 : Fin 2).val]?).getD {} : SefLink).lseqRx).map .d ++ [.d 0xB5]))] } : State), ((tServe.sef.links[(0 : Fin 2).val]?).getD {} : SefLink), (((tFrm 3 9) : Bytes).length - 4 : Nat), (sefSrc (((tFrm 3 9) : Bytes).take (((tFrm 3 9) : Bytes).length - 4 : Nat) : Bytes) : Nat), (fld 5 1 (((tFrm 3 9) : Bytes).take (((tFrm 3 9) : Bytes).length - 4 : Nat) : Bytes) % 64 : Nat), (fld 1 1 (((tFrm 3 9) : Bytes).take (((tFrm 3 9) : Bytes).length - 4 : Nat) : Bytes) : Nat), ?_, ?_, ?_, ?_, ?_, ?_, ?_, ?_, ?_, ?_, ?_, ?_, ?_, ?_, ?_, ?_, ?_, ?_, ?_⟩ <;> first | with_reducible rfl | decide +kernel⟩

/-- Of the witness below. -/
def tSeifLinksCarryFrames_6_2_1_6a : State := ({ tServe with sef.pos := some (fld 5 1 (((tFrm 12 0) : Bytes).take (((tFrm 12 0) : Bytes).length - 4 : Nat) : Bytes) % 64 : Nat) } : State)

/-- Of the witness below. -/
def tSeifLinksCarryFrames_6_2_1_6b : State := ({ (tSeifLinksCarryFrames_6_2_1_6a.advance (0 : Nat) : State) with sef := { (tSeifLinksCarryFrames_6_2_1_6a.advance (0 : Nat) : State).sef with links := tSeifLinksCarryFrames_6_2_1_6a.sef.links.set (0 : Fin 2).val { ((tSeifLinksCarryFrames_6_2_1_6a.sef.links[(0 : Fin 2).val]?).getD {} : SefLink) with lseqRx := (((tSeifLinksCarryFrames_6_2_1_6a.sef.links[(0 : Fin 2).val]?).getD {} : SefLink).lseqRx + 1) % 65536 } }, emitted := tSeifLinksCarryFrames_6_2_1_6a.emitted ++ [.seif (0 : Fin 2).val (.k 0x7C :: ((le 2 ((tSeifLinksCarryFrames_6_2_1_6a.sef.links[(0 : Fin 2).val]?).getD {} : SefLink).lseqRx).map .d ++ [.d 0xB5]))] } : State)

/-- Of the witness below. -/
def tSeifLinksCarryFrames_6_2_1_7a : State := ({ (tServe.advance (0 : Nat) : State) with sef := { (tServe.advance (0 : Nat) : State).sef with links := tServe.sef.links.set (0 : Fin 2).val { ((tServe.sef.links[(0 : Fin 2).val]?).getD {} : SefLink) with lseqRx := (((tServe.sef.links[(0 : Fin 2).val]?).getD {} : SefLink).lseqRx + 1) % 65536 } }, emitted := tServe.emitted ++ [.seif (0 : Fin 2).val (.k 0x7C :: ((le 2 ((tServe.sef.links[(0 : Fin 2).val]?).getD {} : SefLink).lseqRx).map .d ++ [.d 0xB5]))] } : State)

theorem witness_SeifLinksCarryFrames_5 :
    (∃ (dt : Nat) (link : Fin 2) (frame : Bytes) (f : Bytes) (s : State) (s1 : State) (u : State) (l : SefLink) (n : Nat) (src : Nat) (dst : Nat) (hops : Nat), s1 = s.advance dt ∧ s.sef.links[link.val]? = some l ∧ n = frame.length - 4 ∧ f = frame.take n ∧ src = sefSrc f ∧ dst = fld 5 1 f % 64 ∧ hops = fld 1 1 f ∧ s.linkLive link = true ∧ 20 ≤ frame.length ∧ fld n 4 frame = crc32 f ∧ n = 16 + fld 2 2 frame ∧ fld 6 2 frame = l.lseqRx ∧ u = { s1 with sef := { s1.sef with links := s.sef.links.set link.val { l with lseqRx := (l.lseqRx + 1) % 65536 } }, emitted := s.emitted ++ [.seif link.val (.k 0x7C :: ((le 2 l.lseqRx).map .d ++ [.d 0xB5]))] } ∧ s.sef.pos ≠ some src ∧ 2 ≤ sefType f ∧ sefType f ≤ 11 ∧ hops % 32 < 31 ∧ dst = 63) ∧
    (∃ (dt : Nat) (link : Fin 2) (frame : Bytes) (f : Bytes) (s : State) (s1 : State) (u : State) (l : SefLink) (n : Nat) (src : Nat) (dst : Nat) (hops : Nat), s1 = s.advance dt ∧ s.sef.links[link.val]? = some l ∧ n = frame.length - 4 ∧ f = frame.take n ∧ src = sefSrc f ∧ dst = fld 5 1 f % 64 ∧ hops = fld 1 1 f ∧ s.linkLive link = true ∧ 20 ≤ frame.length ∧ fld n 4 frame = crc32 f ∧ n = 16 + fld 2 2 frame ∧ fld 6 2 frame = l.lseqRx ∧ u = { s1 with sef := { s1.sef with links := s.sef.links.set link.val { l with lseqRx := (l.lseqRx + 1) % 65536 } }, emitted := s.emitted ++ [.seif link.val (.k 0x7C :: ((le 2 l.lseqRx).map .d ++ [.d 0xB5]))] } ∧ s.sef.pos ≠ some src ∧ sefType f = 12 ∧ hops % 32 < 31 ∧ s.sef.pos = some dst ∧ dst ≠ 63) ∧
    (∃ (dt : Nat) (link : Fin 2) (frame : Bytes) (f : Bytes) (s : State) (s1 : State) (u : State) (l : SefLink) (n : Nat) (src : Nat) (dst : Nat) (hops : Nat) (v : State), s1 = s.advance dt ∧ s.sef.links[link.val]? = some l ∧ n = frame.length - 4 ∧ f = frame.take n ∧ src = sefSrc f ∧ dst = fld 5 1 f % 64 ∧ hops = fld 1 1 f ∧ s.linkLive link = true ∧ 20 ≤ frame.length ∧ fld n 4 frame = crc32 f ∧ n = 16 + fld 2 2 frame ∧ fld 6 2 frame = l.lseqRx ∧ u = { s1 with sef := { s1.sef with links := s.sef.links.set link.val { l with lseqRx := (l.lseqRx + 1) % 65536 } }, emitted := s.emitted ++ [.seif link.val (.k 0x7C :: ((le 2 l.lseqRx).map .d ++ [.d 0xB5]))] } ∧ s.sef.pos ≠ some src ∧ sefType f = 12 ∧ hops % 32 < 31 ∧ dst = 63 ∧ v = (if s.seq.holder then u.offer 7 { kind := .seifFrame, stamp := s1.dev, payload := sefBody f } else u)) ∧
    (∃ (dt : Nat) (link : Fin 2) (nack : Bool) (lseq : Fin 65536) (s : State) (s1 : State) (l : SefLink), s1 = s.advance dt ∧ s.sef.links[link.val]? = some l ∧ s.linkLive link = false) ∧
    (∃ (dt : Nat) (link : Fin 2) (nack : Bool) (lseq : Fin 65536) (s : State) (s1 : State) (l : SefLink) (a : List (Nat × Bytes)) (b : List (Nat × Bytes)) (f : Bytes), s1 = s.advance dt ∧ s.sef.links[link.val]? = some l ∧ s.linkLive link = true ∧ (nack = false ∨ b = []) ∧ l.replay = a ++ (lseq.val, f) :: b ∧ (∀ x ∈ a, x.1 ≠ lseq.val) ∧ l.wait = []) ∧
    (∃ (c : Instr) (dt : Nat) (link : Fin 2) (lseq : Fin 65536) (s : State) (s1 : State) (l : SefLink), s.sef.links[link.val]? = some l ∧ s.linkLive link = true ∧ l.replay ≠ [] ∧ ((c = .linkAck dt link true lseq ∧ s1 = s.advance dt ∧ ∀ x ∈ l.replay, x.1 ≠ lseq.val) ∨ (c = .linkRetxTimeout link ∧ s1 = s.until (l.sentAt + usU 100))) ∧ l.resends < 15) := ⟨by refine ⟨(0 : Nat), (0 : Fin 2), ((tFrm 3 63) : Bytes), (((tFrm 3 63) : Bytes).take (((tFrm 3 63) : Bytes).length - 4 : Nat) : Bytes), tServe, (tServe.advance (0 : Nat) : State), ({ (tServe.advance (0 : Nat) : State) with sef := { (tServe.advance (0 : Nat) : State).sef with links := tServe.sef.links.set (0 : Fin 2).val { ((tServe.sef.links[(0 : Fin 2).val]?).getD {} : SefLink) with lseqRx := (((tServe.sef.links[(0 : Fin 2).val]?).getD {} : SefLink).lseqRx + 1) % 65536 } }, emitted := tServe.emitted ++ [.seif (0 : Fin 2).val (.k 0x7C :: ((le 2 ((tServe.sef.links[(0 : Fin 2).val]?).getD {} : SefLink).lseqRx).map .d ++ [.d 0xB5]))] } : State), ((tServe.sef.links[(0 : Fin 2).val]?).getD {} : SefLink), (((tFrm 3 63) : Bytes).length - 4 : Nat), (sefSrc (((tFrm 3 63) : Bytes).take (((tFrm 3 63) : Bytes).length - 4 : Nat) : Bytes) : Nat), (fld 5 1 (((tFrm 3 63) : Bytes).take (((tFrm 3 63) : Bytes).length - 4 : Nat) : Bytes) % 64 : Nat), (fld 1 1 (((tFrm 3 63) : Bytes).take (((tFrm 3 63) : Bytes).length - 4 : Nat) : Bytes) : Nat), ?_, ?_, ?_, ?_, ?_, ?_, ?_, ?_, ?_, ?_, ?_, ?_, ?_, ?_, ?_, ?_, ?_, ?_⟩ <;> first | with_reducible rfl | decide +kernel,
    by refine ⟨(0 : Nat), (0 : Fin 2), ((tFrm 12 0) : Bytes), (((tFrm 12 0) : Bytes).take (((tFrm 12 0) : Bytes).length - 4 : Nat) : Bytes), tSeifLinksCarryFrames_6_2_1_6a, (tSeifLinksCarryFrames_6_2_1_6a.advance (0 : Nat) : State), tSeifLinksCarryFrames_6_2_1_6b, ((tSeifLinksCarryFrames_6_2_1_6a.sef.links[(0 : Fin 2).val]?).getD {} : SefLink), (((tFrm 12 0) : Bytes).length - 4 : Nat), (sefSrc (((tFrm 12 0) : Bytes).take (((tFrm 12 0) : Bytes).length - 4 : Nat) : Bytes) : Nat), (fld 5 1 (((tFrm 12 0) : Bytes).take (((tFrm 12 0) : Bytes).length - 4 : Nat) : Bytes) % 64 : Nat), (fld 1 1 (((tFrm 12 0) : Bytes).take (((tFrm 12 0) : Bytes).length - 4 : Nat) : Bytes) : Nat), ?_, ?_, ?_, ?_, ?_, ?_, ?_, ?_, ?_, ?_, ?_, ?_, ?_, ?_, ?_, ?_, ?_, ?_⟩ <;> first | with_reducible rfl | decide +kernel,
    by refine ⟨(0 : Nat), (0 : Fin 2), ((tFrm 12 63) : Bytes), (((tFrm 12 63) : Bytes).take (((tFrm 12 63) : Bytes).length - 4 : Nat) : Bytes), tServe, (tServe.advance (0 : Nat) : State), tSeifLinksCarryFrames_6_2_1_7a, ((tServe.sef.links[(0 : Fin 2).val]?).getD {} : SefLink), (((tFrm 12 63) : Bytes).length - 4 : Nat), (sefSrc (((tFrm 12 63) : Bytes).take (((tFrm 12 63) : Bytes).length - 4 : Nat) : Bytes) : Nat), (fld 5 1 (((tFrm 12 63) : Bytes).take (((tFrm 12 63) : Bytes).length - 4 : Nat) : Bytes) % 64 : Nat), (fld 1 1 (((tFrm 12 63) : Bytes).take (((tFrm 12 63) : Bytes).length - 4 : Nat) : Bytes) : Nat), ((if tServe.seq.holder then tSeifLinksCarryFrames_6_2_1_7a.offer 7 { kind := .seifFrame, stamp := (tServe.advance (0 : Nat) : State).dev, payload := sefBody (((tFrm 12 63) : Bytes).take (((tFrm 12 63) : Bytes).length - 4 : Nat) : Bytes) } else tSeifLinksCarryFrames_6_2_1_7a) : State), ?_, ?_, ?_, ?_, ?_, ?_, ?_, ?_, ?_, ?_, ?_, ?_, ?_, ?_, ?_, ?_, ?_, ?_⟩ <;> first | with_reducible rfl | decide +kernel,
    by refine ⟨(1 : Nat), (0 : Fin 2), (true : Bool), (0 : Fin 65536), tRec, (tRec.advance (1 : Nat) : State), ((tRec.sef.links[(0 : Fin 2).val]?).getD {} : SefLink), ?_, ?_, ?_⟩ <;> first | with_reducible rfl | decide +kernel,
    by refine ⟨(1 : Nat), (0 : Fin 2), (false : Bool), (4 : Fin 65536), ({ tServe with sef.links := [{ up := true, replay := [(4, [1, 2, 3])], resends := 0 }, {}] } : State), (({ tServe with sef.links := [{ up := true, replay := [(4, [1, 2, 3])], resends := 0 }, {}] } : State).advance (1 : Nat) : State), ((({ tServe with sef.links := [{ up := true, replay := [(4, [1, 2, 3])], resends := 0 }, {}] } : State).sef.links[(0 : Fin 2).val]?).getD {} : SefLink), ([] : List (Nat × Bytes)), ([] : List (Nat × Bytes)), ([1, 2, 3] : Bytes), ?_, ?_, ?_, ?_, ?_, ?_, ?_⟩ <;> first | with_reducible rfl | decide +kernel,
    by refine ⟨((.linkRetxTimeout (0 : Fin 2)) : Instr), (1 : Nat), (0 : Fin 2), (0 : Fin 65536), ({ tServe with sef.links := [{ up := true, replay := [(4, [1, 2, 3])], resends := 0 }, {}] } : State), ((({ tServe with sef.links := [{ up := true, replay := [(4, [1, 2, 3])], resends := 0 }, {}] } : State).until (((({ tServe with sef.links := [{ up := true, replay := [(4, [1, 2, 3])], resends := 0 }, {}] } : State).sef.links[(0 : Fin 2).val]?).getD {} : SefLink).sentAt + usU 100)) : State), ((({ tServe with sef.links := [{ up := true, replay := [(4, [1, 2, 3])], resends := 0 }, {}] } : State).sef.links[(0 : Fin 2).val]?).getD {} : SefLink), ?_, ?_, ?_, ?_, ?_⟩ <;> first | with_reducible rfl | decide +kernel⟩

theorem witness_SeifLinksCarryFrames_6 :
    (∃ (c : Instr) (dt : Nat) (link : Fin 2) (lseq : Fin 65536) (s : State) (s1 : State) (l : SefLink), s.sef.links[link.val]? = some l ∧ s.linkLive link = true ∧ l.replay ≠ [] ∧ ((c = .linkAck dt link true lseq ∧ s1 = s.advance dt ∧ ∀ x ∈ l.replay, x.1 ≠ lseq.val) ∨ (c = .linkRetxTimeout link ∧ s1 = s.until (l.sentAt + usU 100))) ∧ 15 ≤ l.resends) ∧
    (∃ (link : Fin 2) (s : State), (s.linkLive link = false ∨ (s.link link).replay = [])) := ⟨by refine ⟨((.linkRetxTimeout (0 : Fin 2)) : Instr), (1 : Nat), (0 : Fin 2), (0 : Fin 65536), ({ tServe with sef.links := [{ up := true, replay := [(4, [1, 2, 3])], resends := 15 }, {}] } : State), ((({ tServe with sef.links := [{ up := true, replay := [(4, [1, 2, 3])], resends := 15 }, {}] } : State).until (((({ tServe with sef.links := [{ up := true, replay := [(4, [1, 2, 3])], resends := 15 }, {}] } : State).sef.links[(0 : Fin 2).val]?).getD {} : SefLink).sentAt + usU 100)) : State), ((({ tServe with sef.links := [{ up := true, replay := [(4, [1, 2, 3])], resends := 15 }, {}] } : State).sef.links[(0 : Fin 2).val]?).getD {} : SefLink), ?_, ?_, ?_, ?_, ?_⟩ <;> first | with_reducible rfl | decide +kernel,
    by refine ⟨(0 : Fin 2), tServe, ?_⟩ <;> first | with_reducible rfl | decide +kernel⟩

/-- Of the witness below. -/
def tChainManagementCommandsAndImages_2_2a : State := ({ tServe with sef.peers := [{ tPeer 4 4 true with sysaddr := 9 }], sef.inbox := [(0, ((tSef 11 (le 8 0 ++ le 4 9 ++ le 4 0)) : Bytes))] } : State)

theorem witness_ChainManagementCommandsAndImages_1 :
    (∃ (s : State) (s1 : State) (link : Nat) (f : Bytes) (a : List (Nat × Bytes)) (r : List (Nat × Bytes)), s.sef.inbox = a ++ (link, f) :: r ∧ (∀ y ∈ a, sefType y.2 ≠ 10) ∧ s1 = { s with sef := { s.sef with inbox := a ++ r } } ∧ sefType f = 10) ∧
    (∃ (s : State) (s1 : State) (link : Nat) (a : Nat) (f : Bytes) (b : Bytes) (l : List (Nat × Bytes)) (r : List (Nat × Bytes)), s.sef.inbox = l ++ (link, f) :: r ∧ (∀ y ∈ l, sefType y.2 ≠ 11) ∧ s1 = { s with sef := { s.sef with inbox := l ++ r } } ∧ sefType f = 11 ∧ b = sefBody f ∧ a = fld 8 4 b % 2 ^ 18 ∧ a = s.cfg.sysaddr ∧ s.sef.driver = true ∧ s.seq.holder = true) ∧
    (∃ (s : State) (s1 : State) (link : Nat) (a : Nat) (f : Bytes) (b : Bytes) (l : List (Nat × Bytes)) (r : List (Nat × Bytes)) (p : Peer), s.sef.inbox = l ++ (link, f) :: r ∧ (∀ y ∈ l, sefType y.2 ≠ 11) ∧ s1 = { s with sef := { s.sef with inbox := l ++ r } } ∧ sefType f = 11 ∧ b = sefBody f ∧ a = fld 8 4 b % 2 ^ 18 ∧ a = s.cfg.sysaddr ∧ s.sef.driver = false ∧ s.holderPeer = some p) ∧
    (∃ (s : State) (s1 : State) (link : Nat) (a : Nat) (f : Bytes) (b : Bytes) (l : List (Nat × Bytes)) (r : List (Nat × Bytes)) (p : Peer), s.sef.inbox = l ++ (link, f) :: r ∧ (∀ y ∈ l, sefType y.2 ≠ 11) ∧ s1 = { s with sef := { s.sef with inbox := l ++ r } } ∧ sefType f = 11 ∧ b = sefBody f ∧ a = fld 8 4 b % 2 ^ 18 ∧ a ≠ s.cfg.sysaddr ∧ s.relayTo a = some p) ∧
    (∃ (s : State) (s1 : State) (link : Nat) (a : Nat) (f : Bytes) (b : Bytes) (l : List (Nat × Bytes)) (r : List (Nat × Bytes)), s.sef.inbox = l ++ (link, f) :: r ∧ (∀ y ∈ l, sefType y.2 ≠ 11) ∧ s1 = { s with sef := { s.sef with inbox := l ++ r } } ∧ sefType f = 11 ∧ b = sefBody f ∧ a = fld 8 4 b % 2 ^ 18 ∧ ((a ≠ s.cfg.sysaddr ∧ ∀ p ∈ s.sef.peers, p.sysaddr ≠ a) ∨ (a = s.cfg.sysaddr ∧ s.sef.driver = false ∧ s.holderPeer = none) ∨ (a = s.cfg.sysaddr ∧ s.sef.driver = true ∧ s.seq.holder = false))) ∧
    (∃ (s : State), (∀ x ∈ s.sef.inbox, sefType x.2 ≠ 8)) := ⟨by refine ⟨({ tServe with sef.inbox := [(0, ((tSef 10 (List.replicate 16 0)) : Bytes))] } : State), ({ ({ tServe with sef.inbox := [(0, ((tSef 10 (List.replicate 16 0)) : Bytes))] } : State) with sef := { ({ tServe with sef.inbox := [(0, ((tSef 10 (List.replicate 16 0)) : Bytes))] } : State).sef with inbox := ([] : List (Nat × Bytes)) ++ ([] : List (Nat × Bytes)) } } : State), (0 : Nat), ((tSef 10 (List.replicate 16 0)) : Bytes), ([] : List (Nat × Bytes)), ([] : List (Nat × Bytes)), ?_, ?_, ?_, ?_⟩ <;> first | with_reducible rfl | decide +kernel,
    by refine ⟨({ tServe with sef.inbox := [(0, ((tSef 11 (le 8 0 ++ le 4 5 ++ le 4 0)) : Bytes))] } : State), ({ ({ tServe with sef.inbox := [(0, ((tSef 11 (le 8 0 ++ le 4 5 ++ le 4 0)) : Bytes))] } : State) with sef := { ({ tServe with sef.inbox := [(0, ((tSef 11 (le 8 0 ++ le 4 5 ++ le 4 0)) : Bytes))] } : State).sef with inbox := ([] : List (Nat × Bytes)) ++ ([] : List (Nat × Bytes)) } } : State), (0 : Nat), ((fld 8 4 (sefBody ((tSef 11 (le 8 0 ++ le 4 5 ++ le 4 0)) : Bytes) : Bytes) % 2 ^ 18) : Nat), ((tSef 11 (le 8 0 ++ le 4 5 ++ le 4 0)) : Bytes), (sefBody ((tSef 11 (le 8 0 ++ le 4 5 ++ le 4 0)) : Bytes) : Bytes), ([] : List (Nat × Bytes)), ([] : List (Nat × Bytes)), ?_, ?_, ?_, ?_, ?_, ?_, ?_, ?_, ?_⟩ <;> first | with_reducible rfl | decide +kernel,
    by refine ⟨({ tStandby with sef.inbox := [(0, ((tSef 11 (le 8 0 ++ le 4 5 ++ le 4 0)) : Bytes))] } : State), ({ ({ tStandby with sef.inbox := [(0, ((tSef 11 (le 8 0 ++ le 4 5 ++ le 4 0)) : Bytes))] } : State) with sef := { ({ tStandby with sef.inbox := [(0, ((tSef 11 (le 8 0 ++ le 4 5 ++ le 4 0)) : Bytes))] } : State).sef with inbox := ([] : List (Nat × Bytes)) ++ ([] : List (Nat × Bytes)) } } : State), (0 : Nat), ((fld 8 4 (sefBody ((tSef 11 (le 8 0 ++ le 4 5 ++ le 4 0)) : Bytes) : Bytes) % 2 ^ 18) : Nat), ((tSef 11 (le 8 0 ++ le 4 5 ++ le 4 0)) : Bytes), (sefBody ((tSef 11 (le 8 0 ++ le 4 5 ++ le 4 0)) : Bytes) : Bytes), ([] : List (Nat × Bytes)), ([] : List (Nat × Bytes)), ((tPeer 1 4 true) : Peer), ?_, ?_, ?_, ?_, ?_, ?_, ?_, ?_, ?_⟩ <;> first | with_reducible rfl | decide +kernel,
    by refine ⟨tChainManagementCommandsAndImages_2_2a, ({ tChainManagementCommandsAndImages_2_2a with sef := { tChainManagementCommandsAndImages_2_2a.sef with inbox := ([] : List (Nat × Bytes)) ++ ([] : List (Nat × Bytes)) } } : State), (0 : Nat), ((fld 8 4 (sefBody ((tSef 11 (le 8 0 ++ le 4 9 ++ le 4 0)) : Bytes) : Bytes) % 2 ^ 18) : Nat), ((tSef 11 (le 8 0 ++ le 4 9 ++ le 4 0)) : Bytes), (sefBody ((tSef 11 (le 8 0 ++ le 4 9 ++ le 4 0)) : Bytes) : Bytes), ([] : List (Nat × Bytes)), ([] : List (Nat × Bytes)), ({ tPeer 4 4 true with sysaddr := 9 } : Peer), ?_, ?_, ?_, ?_, ?_, ?_, ?_, ?_⟩ <;> first | with_reducible rfl | decide +kernel,
    by refine ⟨({ tServe with sef.inbox := [(0, ((tSef 11 (le 8 0 ++ le 4 9 ++ le 4 0)) : Bytes))] } : State), ({ ({ tServe with sef.inbox := [(0, ((tSef 11 (le 8 0 ++ le 4 9 ++ le 4 0)) : Bytes))] } : State) with sef := { ({ tServe with sef.inbox := [(0, ((tSef 11 (le 8 0 ++ le 4 9 ++ le 4 0)) : Bytes))] } : State).sef with inbox := ([] : List (Nat × Bytes)) ++ ([] : List (Nat × Bytes)) } } : State), (0 : Nat), ((fld 8 4 (sefBody ((tSef 11 (le 8 0 ++ le 4 9 ++ le 4 0)) : Bytes) : Bytes) % 2 ^ 18) : Nat), ((tSef 11 (le 8 0 ++ le 4 9 ++ le 4 0)) : Bytes), (sefBody ((tSef 11 (le 8 0 ++ le 4 9 ++ le 4 0)) : Bytes) : Bytes), ([] : List (Nat × Bytes)), ([] : List (Nat × Bytes)), ?_, ?_, ?_, ?_, ?_, ?_, ?_⟩ <;> first | with_reducible rfl | decide +kernel,
    by refine ⟨tServe, ?_⟩ <;> first | with_reducible rfl | decide +kernel⟩

/-- Of the witness below. -/
def tChainManagementCommandsAndImages_4a : Bytes := (({ ({ ({ ({ ({ ({ ({ jsn := 8, key := .sys 8, entry := { kind := .seifFrame, jsn := 8, stamp := 5, payload := (List.replicate 40 0) }, phase := .committing } : Task) with key := (.sys 8) } : Task) with key := .sys 8 } : Task) with work := .entry } : Task) with phase := .committing } : Task) with entry.kind := .seifFrame } : Task) with draws := [] } : Task).entry.payload : Bytes)

theorem witness_ChainManagementCommandsAndImages_2 :
    (∃ (s : State), (∀ x ∈ s.sef.inbox, sefType x.2 ≠ 9)) ∧
    (∃ (s : State), (∀ x ∈ s.sef.inbox, sefType x.2 ≠ 10)) ∧
    (∃ (s : State), (∀ x ∈ s.sef.inbox, sefType x.2 ≠ 11)) ∧
    (∃ (s : State) (x : Task) (b : Bytes) (data : Bytes) (kind : Nat) (off : Nat) (total : Nat), s.headTask (.sys 8) = some x ∧ x.key = .sys 8 ∧ x.work = .entry ∧ x.phase = .committing ∧ x.entry.kind = .seifFrame ∧ isSeifCmd x.entry.payload = false ∧ s.cellsUsed ≤ 60000 ∧ s.boot.restartDue = false ∧ x.draws = [] ∧ b = x.entry.payload ∧ kind = fld 0 1 b ∧ total = fld 12 4 b ∧ off = fld 16 4 b ∧ data = b.drop 20) ∧
    (∃ (s : State), s.headTask (.sys 8) = none) := ⟨by refine ⟨tServe, ?_⟩ <;> first | with_reducible rfl | decide +kernel,
    by refine ⟨tServe, ?_⟩ <;> first | with_reducible rfl | decide +kernel,
    by refine ⟨tServe, ?_⟩ <;> first | with_reducible rfl | decide +kernel,
    by refine ⟨({ ({ tServe with erg.keys := [{ key := (.sys 8), owner := 0, tasks := [({ ({ ({ ({ ({ ({ ({ jsn := 8, key := .sys 8, entry := { kind := .seifFrame, jsn := 8, stamp := 5, payload := (List.replicate 40 0) }, phase := .committing } : Task) with key := (.sys 8) } : Task) with key := .sys 8 } : Task) with work := .entry } : Task) with phase := .committing } : Task) with entry.kind := .seifFrame } : Task) with draws := [] } : Task)] }] } : State) with boot.restartDue := false } : State), ({ ({ ({ ({ ({ ({ ({ jsn := 8, key := .sys 8, entry := { kind := .seifFrame, jsn := 8, stamp := 5, payload := (List.replicate 40 0) }, phase := .committing } : Task) with key := (.sys 8) } : Task) with key := .sys 8 } : Task) with work := .entry } : Task) with phase := .committing } : Task) with entry.kind := .seifFrame } : Task) with draws := [] } : Task), tChainManagementCommandsAndImages_4a, (tChainManagementCommandsAndImages_4a.drop 20 : Bytes), (fld 0 1 tChainManagementCommandsAndImages_4a : Nat), (fld 16 4 tChainManagementCommandsAndImages_4a : Nat), (fld 12 4 tChainManagementCommandsAndImages_4a : Nat), ?_, ?_, ?_, ?_, ?_, ?_, ?_, ?_, ?_, ?_, ?_, ?_, ?_, ?_⟩ <;> first | with_reducible rfl | decide +kernel,
    by refine ⟨tServe, ?_⟩ <;> first | with_reducible rfl | decide +kernel⟩

/-- Of the witness below. -/
def tHeartbeatsAndReplication_0_0a : State := ({ ({ ({ tServe with sef.on := true } : State) with sef.pos := some (1 : Nat) } : State) with boot.bcast := none } : State)

/-- Of the witness below. -/
def tHeartbeatsAndReplication_0_0b : State := (((({ (tHeartbeatsAndReplication_0_0a.until (tHeartbeatsAndReplication_0_0a.sef.hbAt + msU 1) : State) with sef := { (tHeartbeatsAndReplication_0_0a.until (tHeartbeatsAndReplication_0_0a.sef.hbAt + msU 1) : State).sef with hbAt := (tHeartbeatsAndReplication_0_0a.until (tHeartbeatsAndReplication_0_0a.sef.hbAt + msU 1) : State).t } } : State).linkPut 0 (sefFrame 2 0 (1 : Nat) 0x3F tHeartbeatsAndReplication_0_0a.unitId (le 1 tHeartbeatsAndReplication_0_0a.sef.state ++ le 1 (if tHeartbeatsAndReplication_0_0a.rank = 3 then 0xFF else tHeartbeatsAndReplication_0_0a.rank) ++ le 1 (if tHeartbeatsAndReplication_0_0a.sef.driver then 1 else 0) ++ le 1 0 ++ le 4 tHeartbeatsAndReplication_0_0a.cfg.sysaddr ++ fit 8 tHeartbeatsAndReplication_0_0a.cfg.hash ++ le 8 tHeartbeatsAndReplication_0_0a.seq.nextJsn ++ le 8 tHeartbeatsAndReplication_0_0a.high ++ le 8 tHeartbeatsAndReplication_0_0a.ctx.nextVsn ++ le 4 tHeartbeatsAndReplication_0_0a.net.session : Bytes))).linkPut 1 (sefFrame 2 0 (1 : Nat) 0x3F tHeartbeatsAndReplication_0_0a.unitId (le 1 tHeartbeatsAndReplication_0_0a.sef.state ++ le 1 (if tHeartbeatsAndReplication_0_0a.rank = 3 then 0xFF else tHeartbeatsAndReplication_0_0a.rank) ++ le 1 (if tHeartbeatsAndReplication_0_0a.sef.driver then 1 else 0) ++ le 1 0 ++ le 4 tHeartbeatsAndReplication_0_0a.cfg.sysaddr ++ fit 8 tHeartbeatsAndReplication_0_0a.cfg.hash ++ le 8 tHeartbeatsAndReplication_0_0a.seq.nextJsn ++ le 8 tHeartbeatsAndReplication_0_0a.high ++ le 8 tHeartbeatsAndReplication_0_0a.ctx.nextVsn ++ le 4 tHeartbeatsAndReplication_0_0a.net.session : Bytes))) : State)

/-- Of the witness below. -/
def tHeartbeatsAndReplication_0_0c : Bytes := (le 1 tHeartbeatsAndReplication_0_0a.sef.state ++ le 1 (if tHeartbeatsAndReplication_0_0a.rank = 3 then 0xFF else tHeartbeatsAndReplication_0_0a.rank) ++ le 1 (if tHeartbeatsAndReplication_0_0a.sef.driver then 1 else 0) ++ le 1 0 ++ le 4 tHeartbeatsAndReplication_0_0a.cfg.sysaddr ++ fit 8 tHeartbeatsAndReplication_0_0a.cfg.hash ++ le 8 tHeartbeatsAndReplication_0_0a.seq.nextJsn ++ le 8 tHeartbeatsAndReplication_0_0a.high ++ le 8 tHeartbeatsAndReplication_0_0a.ctx.nextVsn ++ le 4 tHeartbeatsAndReplication_0_0a.net.session : Bytes)

/-- Of the witness below. -/
def tHeartbeatsAndReplication_0_1_0a : State := ({ ({ ({ tServe with sef.on := true } : State) with sef.pos := some (1 : Nat) } : State) with boot.bcast := some (1 : Nat) } : State)

/-- Of the witness below. -/
def tHeartbeatsAndReplication_0_1_0b : State := (((({ (tHeartbeatsAndReplication_0_1_0a.until (tHeartbeatsAndReplication_0_1_0a.sef.hbAt + msU 1) : State) with sef := { (tHeartbeatsAndReplication_0_1_0a.until (tHeartbeatsAndReplication_0_1_0a.sef.hbAt + msU 1) : State).sef with hbAt := (tHeartbeatsAndReplication_0_1_0a.until (tHeartbeatsAndReplication_0_1_0a.sef.hbAt + msU 1) : State).t } } : State).linkPut 0 (sefFrame 2 0 (1 : Nat) 0x3F tHeartbeatsAndReplication_0_1_0a.unitId (le 1 tHeartbeatsAndReplication_0_1_0a.sef.state ++ le 1 (if tHeartbeatsAndReplication_0_1_0a.rank = 3 then 0xFF else tHeartbeatsAndReplication_0_1_0a.rank) ++ le 1 (if tHeartbeatsAndReplication_0_1_0a.sef.driver then 1 else 0) ++ le 1 0 ++ le 4 tHeartbeatsAndReplication_0_1_0a.cfg.sysaddr ++ fit 8 tHeartbeatsAndReplication_0_1_0a.cfg.hash ++ le 8 tHeartbeatsAndReplication_0_1_0a.seq.nextJsn ++ le 8 tHeartbeatsAndReplication_0_1_0a.high ++ le 8 tHeartbeatsAndReplication_0_1_0a.ctx.nextVsn ++ le 4 tHeartbeatsAndReplication_0_1_0a.net.session : Bytes))).linkPut 1 (sefFrame 2 0 (1 : Nat) 0x3F tHeartbeatsAndReplication_0_1_0a.unitId (le 1 tHeartbeatsAndReplication_0_1_0a.sef.state ++ le 1 (if tHeartbeatsAndReplication_0_1_0a.rank = 3 then 0xFF else tHeartbeatsAndReplication_0_1_0a.rank) ++ le 1 (if tHeartbeatsAndReplication_0_1_0a.sef.driver then 1 else 0) ++ le 1 0 ++ le 4 tHeartbeatsAndReplication_0_1_0a.cfg.sysaddr ++ fit 8 tHeartbeatsAndReplication_0_1_0a.cfg.hash ++ le 8 tHeartbeatsAndReplication_0_1_0a.seq.nextJsn ++ le 8 tHeartbeatsAndReplication_0_1_0a.high ++ le 8 tHeartbeatsAndReplication_0_1_0a.ctx.nextVsn ++ le 4 tHeartbeatsAndReplication_0_1_0a.net.session : Bytes))) : State)

/-- Of the witness below. -/
def tHeartbeatsAndReplication_0_1_0c : Bytes := (le 1 tHeartbeatsAndReplication_0_1_0a.sef.state ++ le 1 (if tHeartbeatsAndReplication_0_1_0a.rank = 3 then 0xFF else tHeartbeatsAndReplication_0_1_0a.rank) ++ le 1 (if tHeartbeatsAndReplication_0_1_0a.sef.driver then 1 else 0) ++ le 1 0 ++ le 4 tHeartbeatsAndReplication_0_1_0a.cfg.sysaddr ++ fit 8 tHeartbeatsAndReplication_0_1_0a.cfg.hash ++ le 8 tHeartbeatsAndReplication_0_1_0a.seq.nextJsn ++ le 8 tHeartbeatsAndReplication_0_1_0a.high ++ le 8 tHeartbeatsAndReplication_0_1_0a.ctx.nextVsn ++ le 4 tHeartbeatsAndReplication_0_1_0a.net.session : Bytes)

/-- Of the witness below. -/
def tHeartbeatsAndReplication_0_1_1a : State := ({ ({ ({ ({ tServe with sef.on := true } : State) with sef.pos := some (1 : Nat) } : State) with boot.bcast := some (1 : Nat) } : State) with boot.updMode := 1 } : State)

/-- Of the witness below. -/
def tHeartbeatsAndReplication_0_1_1b : State := (((({ (tHeartbeatsAndReplication_0_1_1a.until (tHeartbeatsAndReplication_0_1_1a.sef.hbAt + msU 1) : State) with sef := { (tHeartbeatsAndReplication_0_1_1a.until (tHeartbeatsAndReplication_0_1_1a.sef.hbAt + msU 1) : State).sef with hbAt := (tHeartbeatsAndReplication_0_1_1a.until (tHeartbeatsAndReplication_0_1_1a.sef.hbAt + msU 1) : State).t } } : State).linkPut 0 (sefFrame 2 0 (1 : Nat) 0x3F tHeartbeatsAndReplication_0_1_1a.unitId (le 1 tHeartbeatsAndReplication_0_1_1a.sef.state ++ le 1 (if tHeartbeatsAndReplication_0_1_1a.rank = 3 then 0xFF else tHeartbeatsAndReplication_0_1_1a.rank) ++ le 1 (if tHeartbeatsAndReplication_0_1_1a.sef.driver then 1 else 0) ++ le 1 0 ++ le 4 tHeartbeatsAndReplication_0_1_1a.cfg.sysaddr ++ fit 8 tHeartbeatsAndReplication_0_1_1a.cfg.hash ++ le 8 tHeartbeatsAndReplication_0_1_1a.seq.nextJsn ++ le 8 tHeartbeatsAndReplication_0_1_1a.high ++ le 8 tHeartbeatsAndReplication_0_1_1a.ctx.nextVsn ++ le 4 tHeartbeatsAndReplication_0_1_1a.net.session : Bytes))).linkPut 1 (sefFrame 2 0 (1 : Nat) 0x3F tHeartbeatsAndReplication_0_1_1a.unitId (le 1 tHeartbeatsAndReplication_0_1_1a.sef.state ++ le 1 (if tHeartbeatsAndReplication_0_1_1a.rank = 3 then 0xFF else tHeartbeatsAndReplication_0_1_1a.rank) ++ le 1 (if tHeartbeatsAndReplication_0_1_1a.sef.driver then 1 else 0) ++ le 1 0 ++ le 4 tHeartbeatsAndReplication_0_1_1a.cfg.sysaddr ++ fit 8 tHeartbeatsAndReplication_0_1_1a.cfg.hash ++ le 8 tHeartbeatsAndReplication_0_1_1a.seq.nextJsn ++ le 8 tHeartbeatsAndReplication_0_1_1a.high ++ le 8 tHeartbeatsAndReplication_0_1_1a.ctx.nextVsn ++ le 4 tHeartbeatsAndReplication_0_1_1a.net.session : Bytes))) : State)

/-- Of the witness below. -/
def tHeartbeatsAndReplication_0_1_1c : Bytes := (le 1 tHeartbeatsAndReplication_0_1_1a.sef.state ++ le 1 (if tHeartbeatsAndReplication_0_1_1a.rank = 3 then 0xFF else tHeartbeatsAndReplication_0_1_1a.rank) ++ le 1 (if tHeartbeatsAndReplication_0_1_1a.sef.driver then 1 else 0) ++ le 1 0 ++ le 4 tHeartbeatsAndReplication_0_1_1a.cfg.sysaddr ++ fit 8 tHeartbeatsAndReplication_0_1_1a.cfg.hash ++ le 8 tHeartbeatsAndReplication_0_1_1a.seq.nextJsn ++ le 8 tHeartbeatsAndReplication_0_1_1a.high ++ le 8 tHeartbeatsAndReplication_0_1_1a.ctx.nextVsn ++ le 4 tHeartbeatsAndReplication_0_1_1a.net.session : Bytes)

/-- Of the witness below. -/
def tHeartbeatsAndReplication_2a : State := ({ ({ tServe with sef.inbox := ([] : List (Nat × Bytes)) ++ ((0 : Nat), ((tSef 2 (List.replicate 64 0)) : Bytes)) :: ([] : List (Nat × Bytes)) } : State) with rpl.fetch := none } : State)

/-- Of the witness below. -/
def tHeartbeatsAndReplication_3_0a : State := (({ tTri with sef.peers := [tPeer 1 3 false] } : State).until ((((({ tTri with sef.peers := [tPeer 1 3 false] } : State).sef.peers.find? fun x => x.pos == (1 : Fin 32).val && x.present)).getD { pos := 0, unitId := [], state := 0, rank := 0, token := false, sysaddr := 0, cfg8 := [], nextJsn := 0, high := 0, vsn := 0, session := 0, heardAt := 0, link := 0, present := false } : Peer).heardAt + msU (({ tTri with sef.peers := [tPeer 1 3 false] } : State).fld rSefTiming 19 10)) : State)

theorem witness_HeartbeatsAndReplication_1 :
    (∃ (s : State) (s1 : State) (u : State) (p : Nat) (hb : Bytes), s.sef.on = true ∧ s.sef.pos = some p ∧ s1 = s.until (s.sef.hbAt + msU 1) ∧ u = ((({ s1 with sef := { s1.sef with hbAt := s1.t } } : State).linkPut 0 (sefFrame 2 0 p 0x3F s.unitId hb)).linkPut 1 (sefFrame 2 0 p 0x3F s.unitId hb)) ∧ hb = le 1 s.sef.state ++ le 1 (if s.rank = 3 then 0xFF else s.rank) ++ le 1 (if s.sef.driver then 1 else 0) ++ le 1 0 ++ le 4 s.cfg.sysaddr ++ fit 8 s.cfg.hash ++ le 8 s.seq.nextJsn ++ le 8 s.high ++ le 8 s.ctx.nextVsn ++ le 4 s.net.session ∧ s.boot.bcast = none) ∧
    (∃ (s : State) (s1 : State) (u : State) (p : Nat) (hb : Bytes) (k : Nat) (v : State), s.sef.on = true ∧ s.sef.pos = some p ∧ s1 = s.until (s.sef.hbAt + msU 1) ∧ u = ((({ s1 with sef := { s1.sef with hbAt := s1.t } } : State).linkPut 0 (sefFrame 2 0 p 0x3F s.unitId hb)).linkPut 1 (sefFrame 2 0 p 0x3F s.unitId hb)) ∧ hb = le 1 s.sef.state ++ le 1 (if s.rank = 3 then 0xFF else s.rank) ++ le 1 (if s.sef.driver then 1 else 0) ++ le 1 0 ++ le 4 s.cfg.sysaddr ++ fit 8 s.cfg.hash ++ le 8 s.seq.nextJsn ++ le 8 s.high ++ le 8 s.ctx.nextVsn ++ le 4 s.net.session ∧ s.boot.bcast = some k ∧ v = { u with boot := { u.boot with bcast := none } } ∧ s.boot.updMode ≠ 1 ∧ s.boot.updMode ≠ 2) ∧
    (∃ (s : State) (s1 : State) (u : State) (p : Nat) (hb : Bytes) (k : Nat) (v : State), s.sef.on = true ∧ s.sef.pos = some p ∧ s1 = s.until (s.sef.hbAt + msU 1) ∧ u = ((({ s1 with sef := { s1.sef with hbAt := s1.t } } : State).linkPut 0 (sefFrame 2 0 p 0x3F s.unitId hb)).linkPut 1 (sefFrame 2 0 p 0x3F s.unitId hb)) ∧ hb = le 1 s.sef.state ++ le 1 (if s.rank = 3 then 0xFF else s.rank) ++ le 1 (if s.sef.driver then 1 else 0) ++ le 1 0 ++ le 4 s.cfg.sysaddr ++ fit 8 s.cfg.hash ++ le 8 s.seq.nextJsn ++ le 8 s.high ++ le 8 s.ctx.nextVsn ++ le 4 s.net.session ∧ s.boot.bcast = some k ∧ v = { u with boot := { u.boot with bcast := none } } ∧ (s.boot.updMode = 1 ∨ s.boot.updMode = 2)) ∧
    (∃ (s : State), (s.sef.on = false ∨ s.sef.pos = none)) ∧
    (∃ (s : State) (link : Nat) (f : Bytes) (b : Bytes) (a : List (Nat × Bytes)) (r : List (Nat × Bytes)) (p : Peer), s.sef.inbox = a ++ (link, f) :: r ∧ (∀ x ∈ a, sefType x.2 ≠ 2) ∧ sefType f = 2 ∧ s.rpl.fetch = none ∧ b = sefBody f ∧ p = { pos := sefSrc f, unitId := sub 8 8 f, state := fld 0 1 b, rank := fld 1 1 b, token := fld 2 1 b == 1, sysaddr := fld 4 4 b, cfg8 := sub 8 8 b, nextJsn := fld 16 8 b, high := fld 24 8 b, vsn := fld 32 8 b, session := fld 40 4 b, heardAt := s.t, link := link, present := true, jack := match s.sef.peers.find? fun q => q.pos == sefSrc f with | some q => q.jack | none => 0 }) ∧
    (∃ (p : Fin 32) (s : State) (s1 : State) (u : State) (q : Peer), (s.sef.peers.find? fun x => x.pos == p.val && x.present) = some q ∧ s1 = s.until (q.heardAt + msU (s.fld rSefTiming 19 10)) ∧ u = { s1 with sef := { s1.sef with peers := s.sef.peers.map fun y => if y.pos = p.val then { y with present := false } else y } } ∧ u.peersPresent = [] ∧ s.peersPresent ≠ []) := ⟨by refine ⟨tHeartbeatsAndReplication_0_0a, (tHeartbeatsAndReplication_0_0a.until (tHeartbeatsAndReplication_0_0a.sef.hbAt + msU 1) : State), tHeartbeatsAndReplication_0_0b, (1 : Nat), tHeartbeatsAndReplication_0_0c, ?_, ?_, ?_, ?_, ?_, ?_⟩ <;> first | with_reducible rfl | decide +kernel | (constructor <;> decide +kernel),
    by refine ⟨tHeartbeatsAndReplication_0_1_0a, (tHeartbeatsAndReplication_0_1_0a.until (tHeartbeatsAndReplication_0_1_0a.sef.hbAt + msU 1) : State), tHeartbeatsAndReplication_0_1_0b, (1 : Nat), tHeartbeatsAndReplication_0_1_0c, (1 : Nat), ({ tHeartbeatsAndReplication_0_1_0b with boot := { tHeartbeatsAndReplication_0_1_0b.boot with bcast := none } } : State), ?_, ?_, ?_, ?_, ?_, ?_, ?_, ?_, ?_⟩ <;> first | with_reducible rfl | decide +kernel | (constructor <;> decide +kernel),
    by refine ⟨tHeartbeatsAndReplication_0_1_1a, (tHeartbeatsAndReplication_0_1_1a.until (tHeartbeatsAndReplication_0_1_1a.sef.hbAt + msU 1) : State), tHeartbeatsAndReplication_0_1_1b, (1 : Nat), tHeartbeatsAndReplication_0_1_1c, (1 : Nat), ({ tHeartbeatsAndReplication_0_1_1b with boot := { tHeartbeatsAndReplication_0_1_1b.boot with bcast := none } } : State), ?_, ?_, ?_, ?_, ?_, ?_, ?_, ?_⟩ <;> first | with_reducible rfl | decide +kernel | (constructor <;> decide +kernel),
    by refine ⟨({ tServe with sef.on := false } : State), ?_⟩ <;> first | with_reducible rfl | decide +kernel,
    by refine ⟨tHeartbeatsAndReplication_2a, (0 : Nat), ((tSef 2 (List.replicate 64 0)) : Bytes), (sefBody ((tSef 2 (List.replicate 64 0)) : Bytes) : Bytes), ([] : List (Nat × Bytes)), ([] : List (Nat × Bytes)), ({ pos := sefSrc ((tSef 2 (List.replicate 64 0)) : Bytes), unitId := sub 8 8 ((tSef 2 (List.replicate 64 0)) : Bytes), state := fld 0 1 (sefBody ((tSef 2 (List.replicate 64 0)) : Bytes) : Bytes), rank := fld 1 1 (sefBody ((tSef 2 (List.replicate 64 0)) : Bytes) : Bytes), token := fld 2 1 (sefBody ((tSef 2 (List.replicate 64 0)) : Bytes) : Bytes) == 1, sysaddr := fld 4 4 (sefBody ((tSef 2 (List.replicate 64 0)) : Bytes) : Bytes), cfg8 := sub 8 8 (sefBody ((tSef 2 (List.replicate 64 0)) : Bytes) : Bytes), nextJsn := fld 16 8 (sefBody ((tSef 2 (List.replicate 64 0)) : Bytes) : Bytes), high := fld 24 8 (sefBody ((tSef 2 (List.replicate 64 0)) : Bytes) : Bytes), vsn := fld 32 8 (sefBody ((tSef 2 (List.replicate 64 0)) : Bytes) : Bytes), session := fld 40 4 (sefBody ((tSef 2 (List.replicate 64 0)) : Bytes) : Bytes), heardAt := tHeartbeatsAndReplication_2a.t, link := (0 : Nat), present := true, jack := match tHeartbeatsAndReplication_2a.sef.peers.find? fun q => q.pos == sefSrc ((tSef 2 (List.replicate 64 0)) : Bytes) with | some q => q.jack | none => 0 } : Peer), ?_, ?_, ?_, ?_, ?_, ?_⟩ <;> first | with_reducible rfl | decide +kernel,
    by refine ⟨(1 : Fin 32), ({ tTri with sef.peers := [tPeer 1 3 false] } : State), tHeartbeatsAndReplication_3_0a, ({ tHeartbeatsAndReplication_3_0a with sef := { tHeartbeatsAndReplication_3_0a.sef with peers := ({ tTri with sef.peers := [tPeer 1 3 false] } : State).sef.peers.map fun y => if y.pos = (1 : Fin 32).val then { y with present := false } else y } } : State), (((({ tTri with sef.peers := [tPeer 1 3 false] } : State).sef.peers.find? fun x => x.pos == (1 : Fin 32).val && x.present)).getD { pos := 0, unitId := [], state := 0, rank := 0, token := false, sysaddr := 0, cfg8 := [], nextJsn := 0, high := 0, vsn := 0, session := 0, heardAt := 0, link := 0, present := false } : Peer), ?_, ?_, ?_, ?_, ?_⟩ <;> first | with_reducible rfl | decide +kernel⟩

/-- Of the witness below. -/
def tHeartbeatsAndReplication_3_1a : State := (tTri.until ((((tTri.sef.peers.find? fun x => x.pos == (1 : Fin 32).val && x.present)).getD { pos := 0, unitId := [], state := 0, rank := 0, token := false, sysaddr := 0, cfg8 := [], nextJsn := 0, high := 0, vsn := 0, session := 0, heardAt := 0, link := 0, present := false } : Peer).heardAt + msU (tTri.fld rSefTiming 19 10)) : State)

/-- Of the witness below. -/
def tHeartbeatsAndReplication_5_0_0a : State := ({ ({ tStandby with sef.inbox := [(0, ((tSef 3 (le 12 0)) : Bytes))] } : State) with sef := { ({ tStandby with sef.inbox := [(0, ((tSef 3 (le 12 0)) : Bytes))] } : State).sef with inbox := ([] : List (Nat × Bytes)) ++ ([] : List (Nat × Bytes)) } } : State)

/-- Of the witness below. -/
def tHeartbeatsAndReplication_5_0_1_0a : State := ({ tStandby with sef.inbox := [(0, ((tSef 3 (le 8 9 ++ le 2 1 ++ le 2 0 ++ Entry.bytes { tEntry with jsn := 9 })) : Bytes))] } : State)

/-- Of the witness below. -/
def tHeartbeatsAndReplication_5_0_1_0b : State := ({ tHeartbeatsAndReplication_5_0_1_0a with sef := { tHeartbeatsAndReplication_5_0_1_0a.sef with inbox := ([] : List (Nat × Bytes)) ++ ([] : List (Nat × Bytes)) } } : State)

/-- Of the witness below. -/
def tHeartbeatsAndReplication_5_0_1_0c : State := (tHeartbeatsAndReplication_5_0_1_0b.adoptAll ((entriesOf ((sefBody ((tSef 3 (le 8 9 ++ le 2 1 ++ le 2 0 ++ Entry.bytes { tEntry with jsn := 9 })) : Bytes)).drop 12)).take (fld 8 2 (sefBody ((tSef 3 (le 8 9 ++ le 2 1 ++ le 2 0 ++ Entry.bytes { tEntry with jsn := 9 })) : Bytes))) : List Entry) : State)

/-- Of the witness below. -/
def tHeartbeatsAndReplication_5_0_1_1a : State := ({ tStandby with sef.inbox := [(0, ((tSef 3 (le 8 9 ++ le 2 1 ++ le 2 0 ++ Entry.bytes { tEntry with jsn := 19 })) : Bytes))] } : State)

/-- Of the witness below. -/
def tHeartbeatsAndReplication_5_0_1_1b : State := ({ tHeartbeatsAndReplication_5_0_1_1a with sef := { tHeartbeatsAndReplication_5_0_1_1a.sef with inbox := ([] : List (Nat × Bytes)) ++ ([] : List (Nat × Bytes)) } } : State)

/-- Of the witness below. -/
def tHeartbeatsAndReplication_5_0_1_1c : State := (tHeartbeatsAndReplication_5_0_1_1b.adoptAll ((entriesOf ((sefBody ((tSef 3 (le 8 9 ++ le 2 1 ++ le 2 0 ++ Entry.bytes { tEntry with jsn := 19 })) : Bytes)).drop 12)).take (fld 8 2 (sefBody ((tSef 3 (le 8 9 ++ le 2 1 ++ le 2 0 ++ Entry.bytes { tEntry with jsn := 19 })) : Bytes))) : List Entry) : State)

/-- Of the witness below. -/
def tHeartbeatsAndReplication_5_0_2a : State := ({ ({ tStandby with sef.inbox := [(0, ((tSef 3 (le 12 0)) : Bytes))] } : State) with sef := { ({ tStandby with sef.inbox := [(0, ((tSef 3 (le 12 0)) : Bytes))] } : State).sef with inbox := ([] : List (Nat × Bytes)) ++ ([] : List (Nat × Bytes)) } } : State)

theorem witness_HeartbeatsAndReplication_2 :
    (∃ (p : Fin 32) (s : State) (s1 : State) (u : State) (q : Peer), (s.sef.peers.find? fun x => x.pos == p.val && x.present) = some q ∧ s1 = s.until (q.heardAt + msU (s.fld rSefTiming 19 10)) ∧ u = { s1 with sef := { s1.sef with peers := s.sef.peers.map fun y => if y.pos = p.val then { y with present := false } else y } } ∧ (u.peersPresent ≠ [] ∨ s.peersPresent = [])) ∧
    (∃ (p : Fin 32) (s : State), (∀ q ∈ s.sef.peers, q.pos = p.val → q.present = false)) ∧
    (∃ (s : State) (s1 : State) (link : Nat) (f : Bytes) (a : List (Nat × Bytes)) (r : List (Nat × Bytes)) (es : List Entry) (u : State), s.sef.inbox = a ++ (link, f) :: r ∧ (∀ x ∈ a, sefType x.2 ≠ 3) ∧ s1 = { s with sef := { s.sef with inbox := a ++ r } } ∧ sefType f = 3 ∧ es = (entriesOf ((sefBody f).drop 12)).take (fld 8 2 (sefBody f)) ∧ s.standsBy = true ∧ u = s1.adoptAll es ∧ (es = [] ∨ u.holderPeer = none)) ∧
    (∃ (s : State) (s1 : State) (link : Nat) (f : Bytes) (a : List (Nat × Bytes)) (r : List (Nat × Bytes)) (es : List Entry) (u : State) (e : Entry) (p : Peer), s.sef.inbox = a ++ (link, f) :: r ∧ (∀ x ∈ a, sefType x.2 ≠ 3) ∧ s1 = { s with sef := { s.sef with inbox := a ++ r } } ∧ sefType f = 3 ∧ es = (entriesOf ((sefBody f).drop 12)).take (fld 8 2 (sefBody f)) ∧ s.standsBy = true ∧ u = s1.adoptAll es ∧ es.getLast? = some e ∧ u.holderPeer = some p ∧ e.jsn < u.seq.nextJsn) ∧
    (∃ (s : State) (s1 : State) (link : Nat) (f : Bytes) (a : List (Nat × Bytes)) (r : List (Nat × Bytes)) (es : List Entry) (u : State) (e : Entry) (p : Peer), s.sef.inbox = a ++ (link, f) :: r ∧ (∀ x ∈ a, sefType x.2 ≠ 3) ∧ s1 = { s with sef := { s.sef with inbox := a ++ r } } ∧ sefType f = 3 ∧ es = (entriesOf ((sefBody f).drop 12)).take (fld 8 2 (sefBody f)) ∧ s.standsBy = true ∧ u = s1.adoptAll es ∧ es.getLast? = some e ∧ u.holderPeer = some p ∧ u.seq.nextJsn ≤ e.jsn) ∧
    (∃ (s : State) (s1 : State) (link : Nat) (f : Bytes) (a : List (Nat × Bytes)) (r : List (Nat × Bytes)) (es : List Entry) (u : State), s.sef.inbox = a ++ (link, f) :: r ∧ (∀ x ∈ a, sefType x.2 ≠ 3) ∧ s1 = { s with sef := { s.sef with inbox := a ++ r } } ∧ sefType f = 3 ∧ es = (entriesOf ((sefBody f).drop 12)).take (fld 8 2 (sefBody f)) ∧ s.standsBy = true ∧ u = s1.adoptAll es ∧ (∀ x ∈ es, x.jsn ≠ s.seq.nextJsn)) := ⟨by refine ⟨(1 : Fin 32), tTri, tHeartbeatsAndReplication_3_1a, ({ tHeartbeatsAndReplication_3_1a with sef := { tHeartbeatsAndReplication_3_1a.sef with peers := tTri.sef.peers.map fun y => if y.pos = (1 : Fin 32).val then { y with present := false } else y } } : State), (((tTri.sef.peers.find? fun x => x.pos == (1 : Fin 32).val && x.present)).getD { pos := 0, unitId := [], state := 0, rank := 0, token := false, sysaddr := 0, cfg8 := [], nextJsn := 0, high := 0, vsn := 0, session := 0, heardAt := 0, link := 0, present := false } : Peer), ?_, ?_, ?_, ?_⟩ <;> first | with_reducible rfl | decide +kernel,
    by refine ⟨(0 : Fin 32), tServe, ?_⟩ <;> first | with_reducible rfl | decide +kernel,
    by refine ⟨({ tStandby with sef.inbox := [(0, ((tSef 3 (le 12 0)) : Bytes))] } : State), tHeartbeatsAndReplication_5_0_0a, (0 : Nat), ((tSef 3 (le 12 0)) : Bytes), ([] : List (Nat × Bytes)), ([] : List (Nat × Bytes)), ((entriesOf ((sefBody ((tSef 3 (le 12 0)) : Bytes)).drop 12)).take (fld 8 2 (sefBody ((tSef 3 (le 12 0)) : Bytes))) : List Entry), (tHeartbeatsAndReplication_5_0_0a.adoptAll ((entriesOf ((sefBody ((tSef 3 (le 12 0)) : Bytes)).drop 12)).take (fld 8 2 (sefBody ((tSef 3 (le 12 0)) : Bytes))) : List Entry) : State), ?_, ?_, ?_, ?_, ?_, ?_, ?_, ?_⟩ <;> first | with_reducible rfl | decide +kernel,
    by refine ⟨tHeartbeatsAndReplication_5_0_1_0a, tHeartbeatsAndReplication_5_0_1_0b, (0 : Nat), ((tSef 3 (le 8 9 ++ le 2 1 ++ le 2 0 ++ Entry.bytes { tEntry with jsn := 9 })) : Bytes), ([] : List (Nat × Bytes)), ([] : List (Nat × Bytes)), ((entriesOf ((sefBody ((tSef 3 (le 8 9 ++ le 2 1 ++ le 2 0 ++ Entry.bytes { tEntry with jsn := 9 })) : Bytes)).drop 12)).take (fld 8 2 (sefBody ((tSef 3 (le 8 9 ++ le 2 1 ++ le 2 0 ++ Entry.bytes { tEntry with jsn := 9 })) : Bytes))) : List Entry), tHeartbeatsAndReplication_5_0_1_0c, ((((entriesOf ((sefBody ((tSef 3 (le 8 9 ++ le 2 1 ++ le 2 0 ++ Entry.bytes { tEntry with jsn := 9 })) : Bytes)).drop 12)).take (fld 8 2 (sefBody ((tSef 3 (le 8 9 ++ le 2 1 ++ le 2 0 ++ Entry.bytes { tEntry with jsn := 9 })) : Bytes))) : List Entry).getLast?).getD { kind := .radFrame, jsn := 0, stamp := 0 } : Entry), ((tHeartbeatsAndReplication_5_0_1_0c.holderPeer).getD { pos := 0, unitId := [], state := 0, rank := 0, token := false, sysaddr := 0, cfg8 := [], nextJsn := 0, high := 0, vsn := 0, session := 0, heardAt := 0, link := 0, present := false } : Peer), ?_, ?_, ?_, ?_, ?_, ?_, ?_, ?_, ?_, ?_⟩ <;> first | with_reducible rfl | decide +kernel,
    by refine ⟨tHeartbeatsAndReplication_5_0_1_1a, tHeartbeatsAndReplication_5_0_1_1b, (0 : Nat), ((tSef 3 (le 8 9 ++ le 2 1 ++ le 2 0 ++ Entry.bytes { tEntry with jsn := 19 })) : Bytes), ([] : List (Nat × Bytes)), ([] : List (Nat × Bytes)), ((entriesOf ((sefBody ((tSef 3 (le 8 9 ++ le 2 1 ++ le 2 0 ++ Entry.bytes { tEntry with jsn := 19 })) : Bytes)).drop 12)).take (fld 8 2 (sefBody ((tSef 3 (le 8 9 ++ le 2 1 ++ le 2 0 ++ Entry.bytes { tEntry with jsn := 19 })) : Bytes))) : List Entry), tHeartbeatsAndReplication_5_0_1_1c, ((((entriesOf ((sefBody ((tSef 3 (le 8 9 ++ le 2 1 ++ le 2 0 ++ Entry.bytes { tEntry with jsn := 19 })) : Bytes)).drop 12)).take (fld 8 2 (sefBody ((tSef 3 (le 8 9 ++ le 2 1 ++ le 2 0 ++ Entry.bytes { tEntry with jsn := 19 })) : Bytes))) : List Entry).getLast?).getD { kind := .radFrame, jsn := 0, stamp := 0 } : Entry), ((tHeartbeatsAndReplication_5_0_1_1c.holderPeer).getD { pos := 0, unitId := [], state := 0, rank := 0, token := false, sysaddr := 0, cfg8 := [], nextJsn := 0, high := 0, vsn := 0, session := 0, heardAt := 0, link := 0, present := false } : Peer), ?_, ?_, ?_, ?_, ?_, ?_, ?_, ?_, ?_, ?_⟩ <;> first | with_reducible rfl | decide +kernel,
    by refine ⟨({ tStandby with sef.inbox := [(0, ((tSef 3 (le 12 0)) : Bytes))] } : State), tHeartbeatsAndReplication_5_0_2a, (0 : Nat), ((tSef 3 (le 12 0)) : Bytes), ([] : List (Nat × Bytes)), ([] : List (Nat × Bytes)), ((entriesOf ((sefBody ((tSef 3 (le 12 0)) : Bytes)).drop 12)).take (fld 8 2 (sefBody ((tSef 3 (le 12 0)) : Bytes))) : List Entry), (tHeartbeatsAndReplication_5_0_2a.adoptAll ((entriesOf ((sefBody ((tSef 3 (le 12 0)) : Bytes)).drop 12)).take (fld 8 2 (sefBody ((tSef 3 (le 12 0)) : Bytes))) : List Entry) : State), ?_, ?_, ?_, ?_, ?_, ?_, ?_, ?_⟩ <;> first | with_reducible rfl | decide +kernel⟩

/-- Of the witness below. -/
def tHeartbeatsAndReplication_5_0_3a : State := ({ tStandby with sef.inbox := [(0, ((tSef 3 (le 8 9 ++ le 2 1 ++ le 2 0 ++ Entry.bytes { tEntry with jsn := 9 })) : Bytes))] } : State)

/-- Of the witness below. -/
def tHeartbeatsAndReplication_5_0_3b : State := ({ tHeartbeatsAndReplication_5_0_3a with sef := { tHeartbeatsAndReplication_5_0_3a.sef with inbox := ([] : List (Nat × Bytes)) ++ ([] : List (Nat × Bytes)) } } : State)

/-- Of the witness below. -/
def tHeartbeatsAndReplication_5_1a : State := ({ ({ tServe with sef.inbox := ([] : List (Nat × Bytes)) ++ ((0 : Nat), ((tSef 3 (List.replicate 64 0)) : Bytes)) :: ([] : List (Nat × Bytes)) } : State) with sef.resync := some ({ peer := 0, phase := 0 } : Resync) } : State)

/-- Of the witness below. -/
def tHeartbeatsAndReplication_5_2a : State := ({ ({ tServe with sef.inbox := ([] : List (Nat × Bytes)) ++ ((0 : Nat), ((tSef 3 (List.replicate 64 0)) : Bytes)) :: ([] : List (Nat × Bytes)) } : State) with sef.resync := none } : State)

/-- Of the witness below. -/
def tHeartbeatsAndReplication_6_1a : State := ({ tServe with sef.inbox := ([] : List (Nat × Bytes)) ++ ((0 : Nat), ((tSef 4 (List.replicate 64 0)) : Bytes)) :: ([] : List (Nat × Bytes)) } : State)

theorem witness_HeartbeatsAndReplication_3 :
    (∃ (s : State) (s1 : State) (link : Nat) (f : Bytes) (a : List (Nat × Bytes)) (r : List (Nat × Bytes)) (es : List Entry) (u : State) (e : Entry), s.sef.inbox = a ++ (link, f) :: r ∧ (∀ x ∈ a, sefType x.2 ≠ 3) ∧ s1 = { s with sef := { s.sef with inbox := a ++ r } } ∧ sefType f = 3 ∧ es = (entriesOf ((sefBody f).drop 12)).take (fld 8 2 (sefBody f)) ∧ s.standsBy = true ∧ u = s1.adoptAll es ∧ es = [e] ∧ e.jsn = s.seq.nextJsn ∧ e.kind ≠ .drbgDraw ∧ e.kind ≠ .ckpt ∧ s.joinWaits e = false) ∧
    (∃ (s : State) (s1 : State) (link : Nat) (f : Bytes) (a : List (Nat × Bytes)) (r : List (Nat × Bytes)) (es : List Entry) (y : Resync), s.sef.inbox = a ++ (link, f) :: r ∧ (∀ x ∈ a, sefType x.2 ≠ 3) ∧ s1 = { s with sef := { s.sef with inbox := a ++ r } } ∧ sefType f = 3 ∧ es = (entriesOf ((sefBody f).drop 12)).take (fld 8 2 (sefBody f)) ∧ s.standsBy = false ∧ s.sef.resync = some y) ∧
    (∃ (s : State) (s1 : State) (link : Nat) (f : Bytes) (a : List (Nat × Bytes)) (r : List (Nat × Bytes)) (es : List Entry), s.sef.inbox = a ++ (link, f) :: r ∧ (∀ x ∈ a, sefType x.2 ≠ 3) ∧ s1 = { s with sef := { s.sef with inbox := a ++ r } } ∧ sefType f = 3 ∧ es = (entriesOf ((sefBody f).drop 12)).take (fld 8 2 (sefBody f)) ∧ s.standsBy = false ∧ s.sef.resync = none) ∧
    (∃ (s : State) (s1 : State) (link : Nat) (h : Nat) (f : Bytes) (a : List (Nat × Bytes)) (r : List (Nat × Bytes)), s.sef.inbox = a ++ (link, f) :: r ∧ (∀ x ∈ a, sefType x.2 ≠ 4) ∧ sefType f = 4 ∧ h = fld 0 8 (sefBody f) ∧ s1 = { s with sef := { s.sef with inbox := a ++ r, peers := s.sef.peers.map fun p => if p.pos = sefSrc f then { p with jack := h } else p } } ∧ s.triad = true ∧ s.sef.driver = true ∧ (∃ p ∈ s1.peersPresent, p.pos = sefSrc f)) ∧
    (∃ (s : State) (s1 : State) (link : Nat) (h : Nat) (f : Bytes) (a : List (Nat × Bytes)) (r : List (Nat × Bytes)), s.sef.inbox = a ++ (link, f) :: r ∧ (∀ x ∈ a, sefType x.2 ≠ 4) ∧ sefType f = 4 ∧ h = fld 0 8 (sefBody f) ∧ s1 = { s with sef := { s.sef with inbox := a ++ r, peers := s.sef.peers.map fun p => if p.pos = sefSrc f then { p with jack := h } else p } } ∧ (s.triad = false ∨ s.sef.driver = false ∨ (∀ p ∈ s1.peersPresent, p.pos ≠ sefSrc f))) ∧
    (∃ (s : State) (s1 : State) (p : Peer), s.holderPeer = some p ∧ s.triad = true ∧ s.sef.driver = false ∧ (s.sef.state = 3 ∨ s.sef.state = 6) ∧ s1 = s.until (s.sef.jackAt + usU 200) ∧ s.sef.jackHigh < s.high) := ⟨by refine ⟨tHeartbeatsAndReplication_5_0_3a, tHeartbeatsAndReplication_5_0_3b, (0 : Nat), ((tSef 3 (le 8 9 ++ le 2 1 ++ le 2 0 ++ Entry.bytes { tEntry with jsn := 9 })) : Bytes), ([] : List (Nat × Bytes)), ([] : List (Nat × Bytes)), ((entriesOf ((sefBody ((tSef 3 (le 8 9 ++ le 2 1 ++ le 2 0 ++ Entry.bytes { tEntry with jsn := 9 })) : Bytes)).drop 12)).take (fld 8 2 (sefBody ((tSef 3 (le 8 9 ++ le 2 1 ++ le 2 0 ++ Entry.bytes { tEntry with jsn := 9 })) : Bytes))) : List Entry), (tHeartbeatsAndReplication_5_0_3b.adoptAll ((entriesOf ((sefBody ((tSef 3 (le 8 9 ++ le 2 1 ++ le 2 0 ++ Entry.bytes { tEntry with jsn := 9 })) : Bytes)).drop 12)).take (fld 8 2 (sefBody ((tSef 3 (le 8 9 ++ le 2 1 ++ le 2 0 ++ Entry.bytes { tEntry with jsn := 9 })) : Bytes))) : List Entry) : State), ({ ((((entriesOf ((sefBody ((tSef 3 (le 8 9 ++ le 2 1 ++ le 2 0 ++ Entry.bytes { tEntry with jsn := 9 })) : Bytes)).drop 12)).take (fld 8 2 (sefBody ((tSef 3 (le 8 9 ++ le 2 1 ++ le 2 0 ++ Entry.bytes { tEntry with jsn := 9 })) : Bytes))) : List Entry).headD tEntry) : Entry) with jsn := tHeartbeatsAndReplication_5_0_3a.seq.nextJsn } : Entry), ?_, ?_, ?_, ?_, ?_, ?_, ?_, ?_, ?_, ?_, ?_, ?_⟩ <;> first | with_reducible rfl | decide +kernel,
    by refine ⟨tHeartbeatsAndReplication_5_1a, ({ tHeartbeatsAndReplication_5_1a with sef := { tHeartbeatsAndReplication_5_1a.sef with inbox := ([] : List (Nat × Bytes)) ++ ([] : List (Nat × Bytes)) } } : State), (0 : Nat), ((tSef 3 (List.replicate 64 0)) : Bytes), ([] : List (Nat × Bytes)), ([] : List (Nat × Bytes)), ((entriesOf ((sefBody ((tSef 3 (List.replicate 64 0)) : Bytes)).drop 12)).take (fld 8 2 (sefBody ((tSef 3 (List.replicate 64 0)) : Bytes))) : List Entry), ({ peer := 0, phase := 0 } : Resync), ?_, ?_, ?_, ?_, ?_, ?_, ?_⟩ <;> first | with_reducible rfl | decide +kernel,
    by refine ⟨tHeartbeatsAndReplication_5_2a, ({ tHeartbeatsAndReplication_5_2a with sef := { tHeartbeatsAndReplication_5_2a.sef with inbox := ([] : List (Nat × Bytes)) ++ ([] : List (Nat × Bytes)) } } : State), (0 : Nat), ((tSef 3 (List.replicate 64 0)) : Bytes), ([] : List (Nat × Bytes)), ([] : List (Nat × Bytes)), ((entriesOf ((sefBody ((tSef 3 (List.replicate 64 0)) : Bytes)).drop 12)).take (fld 8 2 (sefBody ((tSef 3 (List.replicate 64 0)) : Bytes))) : List Entry), ?_, ?_, ?_, ?_, ?_, ?_, ?_⟩ <;> first | with_reducible rfl | decide +kernel,
    by refine ⟨({ tTri with sef.inbox := [(0, ((tSef 4 (le 8 3)) : Bytes))] } : State), ({ ({ tTri with sef.inbox := [(0, ((tSef 4 (le 8 3)) : Bytes))] } : State) with sef := { ({ tTri with sef.inbox := [(0, ((tSef 4 (le 8 3)) : Bytes))] } : State).sef with inbox := ([] : List (Nat × Bytes)) ++ ([] : List (Nat × Bytes)), peers := ({ tTri with sef.inbox := [(0, ((tSef 4 (le 8 3)) : Bytes))] } : State).sef.peers.map fun p => if p.pos = sefSrc ((tSef 4 (le 8 3)) : Bytes) then { p with jack := (fld 0 8 (sefBody ((tSef 4 (le 8 3)) : Bytes)) : Nat) } else p } } : State), (0 : Nat), (fld 0 8 (sefBody ((tSef 4 (le 8 3)) : Bytes)) : Nat), ((tSef 4 (le 8 3)) : Bytes), ([] : List (Nat × Bytes)), ([] : List (Nat × Bytes)), ?_, ?_, ?_, ?_, ?_, ?_, ?_, ?_⟩ <;> first | with_reducible rfl | decide +kernel,
    by refine ⟨tHeartbeatsAndReplication_6_1a, ({ tHeartbeatsAndReplication_6_1a with sef := { tHeartbeatsAndReplication_6_1a.sef with inbox := ([] : List (Nat × Bytes)) ++ ([] : List (Nat × Bytes)), peers := tHeartbeatsAndReplication_6_1a.sef.peers.map fun p => if p.pos = sefSrc ((tSef 4 (List.replicate 64 0)) : Bytes) then { p with jack := (fld 0 8 (sefBody ((tSef 4 (List.replicate 64 0)) : Bytes)) : Nat) } else p } } : State), (0 : Nat), (fld 0 8 (sefBody ((tSef 4 (List.replicate 64 0)) : Bytes)) : Nat), ((tSef 4 (List.replicate 64 0)) : Bytes), ([] : List (Nat × Bytes)), ([] : List (Nat × Bytes)), ?_, ?_, ?_, ?_, ?_, ?_⟩ <;> first | with_reducible rfl | decide +kernel,
    by refine ⟨({ ({ ({ tStandby with sef.jackHigh := 1 } : State) with sef.driver := false } : State) with sef.state := 3 } : State), (({ ({ ({ tStandby with sef.jackHigh := 1 } : State) with sef.driver := false } : State) with sef.state := 3 } : State).until (({ ({ ({ tStandby with sef.jackHigh := 1 } : State) with sef.driver := false } : State) with sef.state := 3 } : State).sef.jackAt + usU 200) : State), ((tPeer 1 4 true) : Peer), ?_, ?_, ?_, ?_, ?_, ?_⟩ <;> first | with_reducible rfl | decide +kernel⟩

/-- Of the witness below. -/
def tHeartbeatsAndReplication_7_1a : State := ({ ({ ({ tStandby with sef.jackHigh := 100 } : State) with sef.driver := false } : State) with sef.state := 3 } : State)

/-- Of the witness below. -/
def tHeartbeatsAndReplication_9_0a : State := ({ tTri with sef.state := 2, sef.peers := [tPeer 1 7 false], sef.inbox := [(0, ((tSef 6 (List.replicate 64 0)) : Bytes))] } : State)

theorem witness_HeartbeatsAndReplication_4 :
    (∃ (s : State) (s1 : State) (p : Peer), s.holderPeer = some p ∧ s.triad = true ∧ s.sef.driver = false ∧ (s.sef.state = 3 ∨ s.sef.state = 6) ∧ s1 = s.until (s.sef.jackAt + usU 200) ∧ s.high ≤ s.sef.jackHigh) ∧
    (∃ (s : State), (s.holderPeer = none ∨ s.sef.driver = true ∨ (s.sef.state ≠ 3 ∧ s.sef.state ≠ 6))) ∧
    (∃ (s : State) (s1 : State) (link : Nat) (src : Nat) (from_ : Nat) (f : Bytes) (b : Bytes) (end_ : Bytes) (part : Nat → Nat → Bytes → Bytes) (a : List (Nat × Bytes)) (r : List (Nat × Bytes)), s.sef.inbox = a ++ (link, f) :: r ∧ (∀ x ∈ a, sefType x.2 ≠ 6) ∧ s1 = { s with sef := { s.sef with inbox := a ++ r } } ∧ sefType f = 6 ∧ b = sefBody f ∧ src = sefSrc f ∧ from_ = fld 8 8 b ∧ part = (fun n off d => le 1 n ++ List.replicate 7 0 ++ le 8 off ++ d) ∧ end_ = part 4 0 [] ∧ s.votes = false ∧ (∃ p ∈ s.sef.peers, p.pos = src ∧ p.state = 7)) ∧
    (∃ (s : State) (s1 : State) (link : Nat) (src : Nat) (from_ : Nat) (f : Bytes) (b : Bytes) (end_ : Bytes) (part : Nat → Nat → Bytes → Bytes) (a : List (Nat × Bytes)) (r : List (Nat × Bytes)), s.sef.inbox = a ++ (link, f) :: r ∧ (∀ x ∈ a, sefType x.2 ≠ 6) ∧ s1 = { s with sef := { s.sef with inbox := a ++ r } } ∧ sefType f = 6 ∧ b = sefBody f ∧ src = sefSrc f ∧ from_ = fld 8 8 b ∧ part = (fun n off d => le 1 n ++ List.replicate 7 0 ++ le 8 off ++ d) ∧ end_ = part 4 0 [] ∧ (s.votes = true ∨ (∀ p ∈ s.sef.peers, p.pos = src → p.state ≠ 7)) ∧ fld 0 1 b = 0) ∧
    (∃ (s : State) (s1 : State) (link : Nat) (src : Nat) (from_ : Nat) (f : Bytes) (b : Bytes) (end_ : Bytes) (part : Nat → Nat → Bytes → Bytes) (a : List (Nat × Bytes)) (r : List (Nat × Bytes)), s.sef.inbox = a ++ (link, f) :: r ∧ (∀ x ∈ a, sefType x.2 ≠ 6) ∧ s1 = { s with sef := { s.sef with inbox := a ++ r } } ∧ sefType f = 6 ∧ b = sefBody f ∧ src = sefSrc f ∧ from_ = fld 8 8 b ∧ part = (fun n off d => le 1 n ++ List.replicate 7 0 ++ le 8 off ++ d) ∧ end_ = part 4 0 [] ∧ (s.votes = true ∨ (∀ p ∈ s.sef.peers, p.pos = src → p.state ≠ 7)) ∧ fld 0 1 b = 0 ∧ (∀ e ∈ s.seq.journal, e.jsn < from_)) ∧
    (∃ (s : State) (s1 : State) (link : Nat) (src : Nat) (from_ : Nat) (f : Bytes) (b : Bytes) (end_ : Bytes) (part : Nat → Nat → Bytes → Bytes) (a : List (Nat × Bytes)) (r : List (Nat × Bytes)) (e : Entry), s.sef.inbox = a ++ (link, f) :: r ∧ (∀ x ∈ a, sefType x.2 ≠ 6) ∧ s1 = { s with sef := { s.sef with inbox := a ++ r } } ∧ sefType f = 6 ∧ b = sefBody f ∧ src = sefSrc f ∧ from_ = fld 8 8 b ∧ part = (fun n off d => le 1 n ++ List.replicate 7 0 ++ le 8 off ++ d) ∧ end_ = part 4 0 [] ∧ (s.votes = true ∨ (∀ p ∈ s.sef.peers, p.pos = src → p.state ≠ 7)) ∧ fld 0 1 b = 0 ∧ (s.seq.journal.filter fun x => decide (from_ ≤ x.jsn)) = [e]) := ⟨by refine ⟨tHeartbeatsAndReplication_7_1a, (tHeartbeatsAndReplication_7_1a.until (tHeartbeatsAndReplication_7_1a.sef.jackAt + usU 200) : State), ((tPeer 1 4 true) : Peer), ?_, ?_, ?_, ?_, ?_, ?_⟩ <;> first | with_reducible rfl | decide +kernel,
    by refine ⟨tServe, ?_⟩ <;> first | with_reducible rfl | decide +kernel,
    by refine ⟨tHeartbeatsAndReplication_9_0a, ({ tHeartbeatsAndReplication_9_0a with sef := { tHeartbeatsAndReplication_9_0a.sef with inbox := ([] : List (Nat × Bytes)) ++ ([] : List (Nat × Bytes)) } } : State), (0 : Nat), (sefSrc ((tSef 6 (List.replicate 64 0)) : Bytes) : Nat), (fld 8 8 (sefBody ((tSef 6 (List.replicate 64 0)) : Bytes) : Bytes) : Nat), ((tSef 6 (List.replicate 64 0)) : Bytes), (sefBody ((tSef 6 (List.replicate 64 0)) : Bytes) : Bytes), (((fun n off d => le 1 n ++ List.replicate 7 0 ++ le 8 off ++ d) : Nat → Nat → Bytes → Bytes) 4 0 [] : Bytes), ((fun n off d => le 1 n ++ List.replicate 7 0 ++ le 8 off ++ d) : Nat → Nat → Bytes → Bytes), ([] : List (Nat × Bytes)), ([] : List (Nat × Bytes)), ?_, ?_, ?_, ?_, ?_, ?_, ?_, ?_, ?_, ?_, ?_⟩ <;> first | with_reducible rfl | decide +kernel,
    by refine ⟨({ tTri with sef.inbox := [(0, ((tSef 6 (List.replicate 64 0)) : Bytes))] } : State), ({ ({ tTri with sef.inbox := [(0, ((tSef 6 (List.replicate 64 0)) : Bytes))] } : State) with sef := { ({ tTri with sef.inbox := [(0, ((tSef 6 (List.replicate 64 0)) : Bytes))] } : State).sef with inbox := ([] : List (Nat × Bytes)) ++ ([] : List (Nat × Bytes)) } } : State), (0 : Nat), (sefSrc ((tSef 6 (List.replicate 64 0)) : Bytes) : Nat), (fld 8 8 (sefBody ((tSef 6 (List.replicate 64 0)) : Bytes) : Bytes) : Nat), ((tSef 6 (List.replicate 64 0)) : Bytes), (sefBody ((tSef 6 (List.replicate 64 0)) : Bytes) : Bytes), (((fun n off d => le 1 n ++ List.replicate 7 0 ++ le 8 off ++ d) : Nat → Nat → Bytes → Bytes) 4 0 [] : Bytes), ((fun n off d => le 1 n ++ List.replicate 7 0 ++ le 8 off ++ d) : Nat → Nat → Bytes → Bytes), ([] : List (Nat × Bytes)), ([] : List (Nat × Bytes)), ?_, ?_, ?_, ?_, ?_, ?_, ?_, ?_, ?_, ?_, ?_⟩ <;> first | with_reducible rfl | decide +kernel,
    by refine ⟨({ tTri with sef.inbox := [(0, ((tSef 6 (List.replicate 64 0)) : Bytes))] } : State), ({ ({ tTri with sef.inbox := [(0, ((tSef 6 (List.replicate 64 0)) : Bytes))] } : State) with sef := { ({ tTri with sef.inbox := [(0, ((tSef 6 (List.replicate 64 0)) : Bytes))] } : State).sef with inbox := ([] : List (Nat × Bytes)) ++ ([] : List (Nat × Bytes)) } } : State), (0 : Nat), (sefSrc ((tSef 6 (List.replicate 64 0)) : Bytes) : Nat), (fld 8 8 (sefBody ((tSef 6 (List.replicate 64 0)) : Bytes) : Bytes) : Nat), ((tSef 6 (List.replicate 64 0)) : Bytes), (sefBody ((tSef 6 (List.replicate 64 0)) : Bytes) : Bytes), (((fun n off d => le 1 n ++ List.replicate 7 0 ++ le 8 off ++ d) : Nat → Nat → Bytes → Bytes) 4 0 [] : Bytes), ((fun n off d => le 1 n ++ List.replicate 7 0 ++ le 8 off ++ d) : Nat → Nat → Bytes → Bytes), ([] : List (Nat × Bytes)), ([] : List (Nat × Bytes)), ?_, ?_, ?_, ?_, ?_, ?_, ?_, ?_, ?_, ?_, ?_, ?_⟩ <;> first | with_reducible rfl | decide +kernel,
    by refine ⟨({ tTri with sef.inbox := [(0, ((tSef 6 (List.replicate 64 0)) : Bytes))], seq.journal := [tEntry] } : State), ({ ({ tTri with sef.inbox := [(0, ((tSef 6 (List.replicate 64 0)) : Bytes))], seq.journal := [tEntry] } : State) with sef := { ({ tTri with sef.inbox := [(0, ((tSef 6 (List.replicate 64 0)) : Bytes))], seq.journal := [tEntry] } : State).sef with inbox := ([] : List (Nat × Bytes)) ++ ([] : List (Nat × Bytes)) } } : State), (0 : Nat), (sefSrc ((tSef 6 (List.replicate 64 0)) : Bytes) : Nat), (fld 8 8 (sefBody ((tSef 6 (List.replicate 64 0)) : Bytes) : Bytes) : Nat), ((tSef 6 (List.replicate 64 0)) : Bytes), (sefBody ((tSef 6 (List.replicate 64 0)) : Bytes) : Bytes), (((fun n off d => le 1 n ++ List.replicate 7 0 ++ le 8 off ++ d) : Nat → Nat → Bytes → Bytes) 4 0 [] : Bytes), ((fun n off d => le 1 n ++ List.replicate 7 0 ++ le 8 off ++ d) : Nat → Nat → Bytes → Bytes), ([] : List (Nat × Bytes)), ([] : List (Nat × Bytes)), tEntry, ?_, ?_, ?_, ?_, ?_, ?_, ?_, ?_, ?_, ?_, ?_, ?_⟩ <;> first | with_reducible rfl | decide +kernel⟩

/-- Of the witness below. -/
def tHeartbeatsAndReplication_9_1_5a : State := ({ tTri with sef.inbox := [(0, ((tSef 6 (le 8 1 ++ le 8 0)) : Bytes))], seq.ckpts := [({ no := 1, cutJsn := 2, cutStamp := 3, role := .field, cfgHash := [], svn := 0, closeNext := none, ctx := {} } : Ckpt)] } : State)

/-- Of the witness below. -/
def tHeartbeatsAndReplication_10_1a : State := ({ tTri with sef.inbox := [(0, ((tSef 7 (le 16 0)) : Bytes))], sef.catchUp := some ({ asked := [1, 2], since := 0 } : CatchUp) } : State)

/-- Of the witness below. -/
def tHeartbeatsAndReplication_10_2a : State := ({ tTri with sef.inbox := [(0, ((tSef 7 (le 16 4)) : Bytes))], sef.catchUp := some ({ asked := [1, 2], since := 0 } : CatchUp) } : State)

theorem witness_HeartbeatsAndReplication_5 :
    (∃ (s : State) (s1 : State) (link : Nat) (src : Nat) (from_ : Nat) (f : Bytes) (b : Bytes) (end_ : Bytes) (part : Nat → Nat → Bytes → Bytes) (a : List (Nat × Bytes)) (r : List (Nat × Bytes)), s.sef.inbox = a ++ (link, f) :: r ∧ (∀ x ∈ a, sefType x.2 ≠ 6) ∧ s1 = { s with sef := { s.sef with inbox := a ++ r } } ∧ sefType f = 6 ∧ b = sefBody f ∧ src = sefSrc f ∧ from_ = fld 8 8 b ∧ part = (fun n off d => le 1 n ++ List.replicate 7 0 ++ le 8 off ++ d) ∧ end_ = part 4 0 [] ∧ (s.votes = true ∨ (∀ p ∈ s.sef.peers, p.pos = src → p.state ≠ 7)) ∧ fld 0 1 b = 3) ∧
    (∃ (s : State) (s1 : State) (link : Nat) (src : Nat) (from_ : Nat) (f : Bytes) (b : Bytes) (end_ : Bytes) (part : Nat → Nat → Bytes → Bytes) (a : List (Nat × Bytes)) (r : List (Nat × Bytes)), s.sef.inbox = a ++ (link, f) :: r ∧ (∀ x ∈ a, sefType x.2 ≠ 6) ∧ s1 = { s with sef := { s.sef with inbox := a ++ r } } ∧ sefType f = 6 ∧ b = sefBody f ∧ src = sefSrc f ∧ from_ = fld 8 8 b ∧ part = (fun n off d => le 1 n ++ List.replicate 7 0 ++ le 8 off ++ d) ∧ end_ = part 4 0 [] ∧ (s.votes = true ∨ (∀ p ∈ s.sef.peers, p.pos = src → p.state ≠ 7)) ∧ fld 0 1 b ≠ 0 ∧ fld 0 1 b ≠ 3 ∧ s.seq.ckpts = []) ∧
    (∃ (s : State) (s1 : State) (link : Nat) (src : Nat) (from_ : Nat) (f : Bytes) (b : Bytes) (end_ : Bytes) (part : Nat → Nat → Bytes → Bytes) (a : List (Nat × Bytes)) (r : List (Nat × Bytes)) (k : Ckpt), s.sef.inbox = a ++ (link, f) :: r ∧ (∀ x ∈ a, sefType x.2 ≠ 6) ∧ s1 = { s with sef := { s.sef with inbox := a ++ r } } ∧ sefType f = 6 ∧ b = sefBody f ∧ src = sefSrc f ∧ from_ = fld 8 8 b ∧ part = (fun n off d => le 1 n ++ List.replicate 7 0 ++ le 8 off ++ d) ∧ end_ = part 4 0 [] ∧ (s.votes = true ∨ (∀ p ∈ s.sef.peers, p.pos = src → p.state ≠ 7)) ∧ fld 0 1 b ≠ 0 ∧ fld 0 1 b ≠ 3 ∧ s.seq.ckpts.getLast? = some k) ∧
    (∃ (s : State) (s1 : State) (link : Nat) (f : Bytes) (b : Bytes) (a : List (Nat × Bytes)) (r : List (Nat × Bytes)) (es : List Entry), s.sef.inbox = a ++ (link, f) :: r ∧ (∀ x ∈ a, sefType x.2 ≠ 7) ∧ s1 = { s with sef := { s.sef with inbox := a ++ r } } ∧ sefType f = 7 ∧ b = sefBody f ∧ es = entriesOf (b.drop 16) ∧ s.rpl.fetch = none ∧ s.sef.catchUp = none ∧ s.sef.resync = none ∧ s.standsBy = true ∧ fld 0 1 b = 0) ∧
    (∃ (s : State) (s1 : State) (link : Nat) (f : Bytes) (b : Bytes) (a : List (Nat × Bytes)) (r : List (Nat × Bytes)) (es : List Entry) (c : CatchUp), s.sef.inbox = a ++ (link, f) :: r ∧ (∀ x ∈ a, sefType x.2 ≠ 7) ∧ s1 = { s with sef := { s.sef with inbox := a ++ r } } ∧ sefType f = 7 ∧ b = sefBody f ∧ es = entriesOf (b.drop 16) ∧ s.rpl.fetch = none ∧ s.sef.catchUp = some c ∧ sefSrc f ∈ c.asked ∧ fld 0 1 b = 0) ∧
    (∃ (s : State) (s1 : State) (link : Nat) (f : Bytes) (b : Bytes) (a : List (Nat × Bytes)) (r : List (Nat × Bytes)) (es : List Entry) (c : CatchUp), s.sef.inbox = a ++ (link, f) :: r ∧ (∀ x ∈ a, sefType x.2 ≠ 7) ∧ s1 = { s with sef := { s.sef with inbox := a ++ r } } ∧ sefType f = 7 ∧ b = sefBody f ∧ es = entriesOf (b.drop 16) ∧ s.rpl.fetch = none ∧ s.sef.catchUp = some c ∧ fld 0 1 b = 4 ∧ sefSrc f ∈ c.asked ∧ (∃ p ∈ c.asked, p ≠ sefSrc f)) := ⟨by refine ⟨({ tTri with sef.inbox := [(0, ((tSef 6 (le 8 3 ++ le 8 0)) : Bytes))] } : State), ({ ({ tTri with sef.inbox := [(0, ((tSef 6 (le 8 3 ++ le 8 0)) : Bytes))] } : State) with sef := { ({ tTri with sef.inbox := [(0, ((tSef 6 (le 8 3 ++ le 8 0)) : Bytes))] } : State).sef with inbox := ([] : List (Nat × Bytes)) ++ ([] : List (Nat × Bytes)) } } : State), (0 : Nat), (sefSrc ((tSef 6 (le 8 3 ++ le 8 0)) : Bytes) : Nat), (fld 8 8 (sefBody ((tSef 6 (le 8 3 ++ le 8 0)) : Bytes) : Bytes) : Nat), ((tSef 6 (le 8 3 ++ le 8 0)) : Bytes), (sefBody ((tSef 6 (le 8 3 ++ le 8 0)) : Bytes) : Bytes), (((fun n off d => le 1 n ++ List.replicate 7 0 ++ le 8 off ++ d) : Nat → Nat → Bytes → Bytes) 4 0 [] : Bytes), ((fun n off d => le 1 n ++ List.replicate 7 0 ++ le 8 off ++ d) : Nat → Nat → Bytes → Bytes), ([] : List (Nat × Bytes)), ([] : List (Nat × Bytes)), ?_, ?_, ?_, ?_, ?_, ?_, ?_, ?_, ?_, ?_, ?_⟩ <;> first | with_reducible rfl | decide +kernel,
    by refine ⟨({ tTri with sef.inbox := [(0, ((tSef 6 [1, 0, 0, 0, 0, 0, 0, 0]) : Bytes))] } : State), ({ ({ tTri with sef.inbox := [(0, ((tSef 6 [1, 0, 0, 0, 0, 0, 0, 0]) : Bytes))] } : State) with sef := { ({ tTri with sef.inbox := [(0, ((tSef 6 [1, 0, 0, 0, 0, 0, 0, 0]) : Bytes))] } : State).sef with inbox := ([] : List (Nat × Bytes)) ++ ([] : List (Nat × Bytes)) } } : State), (0 : Nat), (sefSrc ((tSef 6 [1, 0, 0, 0, 0, 0, 0, 0]) : Bytes) : Nat), (fld 8 8 (sefBody ((tSef 6 [1, 0, 0, 0, 0, 0, 0, 0]) : Bytes) : Bytes) : Nat), ((tSef 6 [1, 0, 0, 0, 0, 0, 0, 0]) : Bytes), (sefBody ((tSef 6 [1, 0, 0, 0, 0, 0, 0, 0]) : Bytes) : Bytes), (((fun n off d => le 1 n ++ List.replicate 7 0 ++ le 8 off ++ d) : Nat → Nat → Bytes → Bytes) 4 0 [] : Bytes), ((fun n off d => le 1 n ++ List.replicate 7 0 ++ le 8 off ++ d) : Nat → Nat → Bytes → Bytes), ([] : List (Nat × Bytes)), ([] : List (Nat × Bytes)), ?_, ?_, ?_, ?_, ?_, ?_, ?_, ?_, ?_, ?_, ?_, ?_, ?_⟩ <;> first | with_reducible rfl | decide +kernel,
    by refine ⟨tHeartbeatsAndReplication_9_1_5a, ({ tHeartbeatsAndReplication_9_1_5a with sef := { tHeartbeatsAndReplication_9_1_5a.sef with inbox := ([] : List (Nat × Bytes)) ++ ([] : List (Nat × Bytes)) } } : State), (0 : Nat), (sefSrc ((tSef 6 (le 8 1 ++ le 8 0)) : Bytes) : Nat), (fld 8 8 (sefBody ((tSef 6 (le 8 1 ++ le 8 0)) : Bytes) : Bytes) : Nat), ((tSef 6 (le 8 1 ++ le 8 0)) : Bytes), (sefBody ((tSef 6 (le 8 1 ++ le 8 0)) : Bytes) : Bytes), (((fun n off d => le 1 n ++ List.replicate 7 0 ++ le 8 off ++ d) : Nat → Nat → Bytes → Bytes) 4 0 [] : Bytes), ((fun n off d => le 1 n ++ List.replicate 7 0 ++ le 8 off ++ d) : Nat → Nat → Bytes → Bytes), ([] : List (Nat × Bytes)), ([] : List (Nat × Bytes)), ({ no := 1, cutJsn := 2, cutStamp := 3, role := .field, cfgHash := [], svn := 0, closeNext := none, ctx := {} } : Ckpt), ?_, ?_, ?_, ?_, ?_, ?_, ?_, ?_, ?_, ?_, ?_, ?_, ?_⟩ <;> first | with_reducible rfl | decide +kernel,
    by refine ⟨({ tStandby with sef.inbox := [(0, ((tSef 7 (le 16 0)) : Bytes))] } : State), ({ ({ tStandby with sef.inbox := [(0, ((tSef 7 (le 16 0)) : Bytes))] } : State) with sef := { ({ tStandby with sef.inbox := [(0, ((tSef 7 (le 16 0)) : Bytes))] } : State).sef with inbox := ([] : List (Nat × Bytes)) ++ ([] : List (Nat × Bytes)) } } : State), (0 : Nat), ((tSef 7 (le 16 0)) : Bytes), (sefBody ((tSef 7 (le 16 0)) : Bytes) : Bytes), ([] : List (Nat × Bytes)), ([] : List (Nat × Bytes)), (entriesOf ((sefBody ((tSef 7 (le 16 0)) : Bytes) : Bytes).drop 16) : List Entry), ?_, ?_, ?_, ?_, ?_, ?_, ?_, ?_, ?_, ?_, ?_⟩ <;> first | with_reducible rfl | decide +kernel,
    by refine ⟨tHeartbeatsAndReplication_10_1a, ({ tHeartbeatsAndReplication_10_1a with sef := { tHeartbeatsAndReplication_10_1a.sef with inbox := ([] : List (Nat × Bytes)) ++ ([] : List (Nat × Bytes)) } } : State), (0 : Nat), ((tSef 7 (le 16 0)) : Bytes), (sefBody ((tSef 7 (le 16 0)) : Bytes) : Bytes), ([] : List (Nat × Bytes)), ([] : List (Nat × Bytes)), (entriesOf ((sefBody ((tSef 7 (le 16 0)) : Bytes) : Bytes).drop 16) : List Entry), ({ asked := [1, 2], since := 0 } : CatchUp), ?_, ?_, ?_, ?_, ?_, ?_, ?_, ?_, ?_, ?_⟩ <;> first | with_reducible rfl | decide +kernel,
    by refine ⟨tHeartbeatsAndReplication_10_2a, ({ tHeartbeatsAndReplication_10_2a with sef := { tHeartbeatsAndReplication_10_2a.sef with inbox := ([] : List (Nat × Bytes)) ++ ([] : List (Nat × Bytes)) } } : State), (0 : Nat), ((tSef 7 (le 16 4)) : Bytes), (sefBody ((tSef 7 (le 16 4)) : Bytes) : Bytes), ([] : List (Nat × Bytes)), ([] : List (Nat × Bytes)), (entriesOf ((sefBody ((tSef 7 (le 16 4)) : Bytes) : Bytes).drop 16) : List Entry), ({ asked := [1, 2], since := 0 } : CatchUp), ?_, ?_, ?_, ?_, ?_, ?_, ?_, ?_, ?_, ?_, ?_⟩ <;> first | with_reducible rfl | decide +kernel⟩

/-- Of the witness below. -/
def tHeartbeatsAndReplication_10_3_0a : State := ({ tStandby with sef.inbox := [(0, ((tSef 7 (le 16 0 ++ tEntry.bytes)) : Bytes))], sef.resync := some ({ ({ ({ peer := 1, phase := 0 } : Resync) with peer := sefSrc ((tSef 7 (le 16 0 ++ tEntry.bytes)) : Bytes) } : Resync) with phase := 0 } : Resync), seq.journal := [{ tEntry with jsn := 8 }] } : State)

/-- Of the witness below. -/
def tHeartbeatsAndReplication_10_3_1a : State := ({ tStandby with sef.inbox := [(0, ((tSef 7 (le 16 0 ++ tEntry.bytes)) : Bytes))], sef.resync := some ({ ({ ({ peer := 1, phase := 0 } : Resync) with peer := sefSrc ((tSef 7 (le 16 0 ++ tEntry.bytes)) : Bytes) } : Resync) with phase := 0 } : Resync), seq.journal := [{ tEntry with jsn := 7 }] } : State)

/-- Of the witness below. -/
def tHeartbeatsAndReplication_10_4a : State := ({ ({ ({ ({ tServe with sef.inbox := ([] : List (Nat × Bytes)) ++ ((0 : Nat), ((tSef 7 [2, 0, 0, 0, 0, 0, 0, 0]) : Bytes)) :: ([] : List (Nat × Bytes)) } : State) with rpl.fetch := none } : State) with sef.catchUp := none } : State) with sef.resync := some ({ ({ peer := 0, phase := 0 } : Resync) with peer := sefSrc ((tSef 7 [2, 0, 0, 0, 0, 0, 0, 0]) : Bytes) } : Resync) } : State)

theorem witness_HeartbeatsAndReplication_6 :
    (∃ (s : State) (s1 : State) (link : Nat) (f : Bytes) (b : Bytes) (a : List (Nat × Bytes)) (r : List (Nat × Bytes)) (es : List Entry) (y : Resync) (o : Entry) (e : Entry) (rest : List Entry), s.sef.inbox = a ++ (link, f) :: r ∧ (∀ x ∈ a, sefType x.2 ≠ 7) ∧ s1 = { s with sef := { s.sef with inbox := a ++ r } } ∧ sefType f = 7 ∧ b = sefBody f ∧ es = entriesOf (b.drop 16) ∧ s.rpl.fetch = none ∧ s.sef.catchUp = none ∧ s.sef.resync = some y ∧ y.peer = sefSrc f ∧ y.phase = 0 ∧ fld 0 1 b = 0 ∧ s.seq.journal.getLast? = some o ∧ es = e :: rest ∧ e.bytes = o.bytes) ∧
    (∃ (s : State) (s1 : State) (link : Nat) (f : Bytes) (b : Bytes) (a : List (Nat × Bytes)) (r : List (Nat × Bytes)) (es : List Entry) (y : Resync) (o : Entry) (e : Entry) (rest : List Entry), s.sef.inbox = a ++ (link, f) :: r ∧ (∀ x ∈ a, sefType x.2 ≠ 7) ∧ s1 = { s with sef := { s.sef with inbox := a ++ r } } ∧ sefType f = 7 ∧ b = sefBody f ∧ es = entriesOf (b.drop 16) ∧ s.rpl.fetch = none ∧ s.sef.catchUp = none ∧ s.sef.resync = some y ∧ y.peer = sefSrc f ∧ y.phase = 0 ∧ fld 0 1 b = 0 ∧ s.seq.journal.getLast? = some o ∧ es = e :: rest ∧ e.bytes ≠ o.bytes) ∧
    (∃ (s : State) (s1 : State) (link : Nat) (f : Bytes) (b : Bytes) (a : List (Nat × Bytes)) (r : List (Nat × Bytes)) (es : List Entry) (y : Resync), s.sef.inbox = a ++ (link, f) :: r ∧ (∀ x ∈ a, sefType x.2 ≠ 7) ∧ s1 = { s with sef := { s.sef with inbox := a ++ r } } ∧ sefType f = 7 ∧ b = sefBody f ∧ es = entriesOf (b.drop 16) ∧ s.rpl.fetch = none ∧ s.sef.catchUp = none ∧ s.sef.resync = some y ∧ y.peer = sefSrc f ∧ fld 0 1 b = 2) ∧
    (∃ (s : State), (∀ x ∈ s.sef.inbox, sefType x.2 ≠ 2)) ∧
    (∃ (s : State), (∀ x ∈ s.sef.inbox, sefType x.2 ≠ 3)) ∧
    (∃ (s : State), (∀ x ∈ s.sef.inbox, sefType x.2 ≠ 4)) := ⟨by refine ⟨tHeartbeatsAndReplication_10_3_0a, ({ tHeartbeatsAndReplication_10_3_0a with sef := { tHeartbeatsAndReplication_10_3_0a.sef with inbox := ([] : List (Nat × Bytes)) ++ ([] : List (Nat × Bytes)) } } : State), (0 : Nat), ((tSef 7 (le 16 0 ++ tEntry.bytes)) : Bytes), (sefBody ((tSef 7 (le 16 0 ++ tEntry.bytes)) : Bytes) : Bytes), ([] : List (Nat × Bytes)), ([] : List (Nat × Bytes)), (entriesOf ((sefBody ((tSef 7 (le 16 0 ++ tEntry.bytes)) : Bytes) : Bytes).drop 16) : List Entry), ({ ({ ({ peer := 1, phase := 0 } : Resync) with peer := sefSrc ((tSef 7 (le 16 0 ++ tEntry.bytes)) : Bytes) } : Resync) with phase := 0 } : Resync), ((tHeartbeatsAndReplication_10_3_0a.seq.journal.getLast?).getD { kind := .radFrame, jsn := 0, stamp := 0 } : Entry), (((entriesOf ((sefBody ((tSef 7 (le 16 0 ++ tEntry.bytes)) : Bytes) : Bytes).drop 16) : List Entry)).headD { kind := .radFrame, jsn := 0, stamp := 0 } : Entry), (((entriesOf ((sefBody ((tSef 7 (le 16 0 ++ tEntry.bytes)) : Bytes) : Bytes).drop 16) : List Entry)).drop 1 : List Entry), ?_, ?_, ?_, ?_, ?_, ?_, ?_, ?_, ?_, ?_, ?_, ?_, ?_, ?_, ?_⟩ <;> first | with_reducible rfl | decide +kernel,
    by refine ⟨tHeartbeatsAndReplication_10_3_1a, ({ tHeartbeatsAndReplication_10_3_1a with sef := { tHeartbeatsAndReplication_10_3_1a.sef with inbox := ([] : List (Nat × Bytes)) ++ ([] : List (Nat × Bytes)) } } : State), (0 : Nat), ((tSef 7 (le 16 0 ++ tEntry.bytes)) : Bytes), (sefBody ((tSef 7 (le 16 0 ++ tEntry.bytes)) : Bytes) : Bytes), ([] : List (Nat × Bytes)), ([] : List (Nat × Bytes)), (entriesOf ((sefBody ((tSef 7 (le 16 0 ++ tEntry.bytes)) : Bytes) : Bytes).drop 16) : List Entry), ({ ({ ({ peer := 1, phase := 0 } : Resync) with peer := sefSrc ((tSef 7 (le 16 0 ++ tEntry.bytes)) : Bytes) } : Resync) with phase := 0 } : Resync), ((tHeartbeatsAndReplication_10_3_1a.seq.journal.getLast?).getD { kind := .radFrame, jsn := 0, stamp := 0 } : Entry), (((entriesOf ((sefBody ((tSef 7 (le 16 0 ++ tEntry.bytes)) : Bytes) : Bytes).drop 16) : List Entry)).headD { kind := .radFrame, jsn := 0, stamp := 0 } : Entry), (((entriesOf ((sefBody ((tSef 7 (le 16 0 ++ tEntry.bytes)) : Bytes) : Bytes).drop 16) : List Entry)).drop 1 : List Entry), ?_, ?_, ?_, ?_, ?_, ?_, ?_, ?_, ?_, ?_, ?_, ?_, ?_, ?_, ?_⟩ <;> first | with_reducible rfl | decide +kernel,
    by refine ⟨tHeartbeatsAndReplication_10_4a, ({ tHeartbeatsAndReplication_10_4a with sef := { tHeartbeatsAndReplication_10_4a.sef with inbox := ([] : List (Nat × Bytes)) ++ ([] : List (Nat × Bytes)) } } : State), (0 : Nat), ((tSef 7 [2, 0, 0, 0, 0, 0, 0, 0]) : Bytes), (sefBody ((tSef 7 [2, 0, 0, 0, 0, 0, 0, 0]) : Bytes) : Bytes), ([] : List (Nat × Bytes)), ([] : List (Nat × Bytes)), (entriesOf ((sefBody ((tSef 7 [2, 0, 0, 0, 0, 0, 0, 0]) : Bytes) : Bytes).drop 16) : List Entry), ({ ({ peer := 0, phase := 0 } : Resync) with peer := sefSrc ((tSef 7 [2, 0, 0, 0, 0, 0, 0, 0]) : Bytes) } : Resync), ?_, ?_, ?_, ?_, ?_, ?_, ?_, ?_, ?_, ?_, ?_⟩ <;> first | with_reducible rfl | decide +kernel,
    by refine ⟨tServe, ?_⟩ <;> first | with_reducible rfl | decide +kernel,
    by refine ⟨tServe, ?_⟩ <;> first | with_reducible rfl | decide +kernel,
    by refine ⟨tServe, ?_⟩ <;> first | with_reducible rfl | decide +kernel⟩

theorem witness_HeartbeatsAndReplication_7 :
    (∃ (s : State), (∀ x ∈ s.sef.inbox, sefType x.2 ≠ 6)) ∧
    (∃ (s : State), (∀ x ∈ s.sef.inbox, sefType x.2 ≠ 7)) := ⟨by refine ⟨tServe, ?_⟩ <;> first | with_reducible rfl | decide +kernel,
    by refine ⟨tServe, ?_⟩ <;> first | with_reducible rfl | decide +kernel⟩

theorem witness_VotesAndToken_1 :
    (∃ (s : State) (s1 : State) (d : Nat × Bytes) (ds : List (Nat × Bytes)), s.triad = true ∧ s.votes = true ∧ s1 = (if 1022 ≤ s.digestsDue.length then s else s.until (s.sef.digestAt + usU (s.fld rSefTiming 31 20))) ∧ s.digestsDue.take 1022 = d :: ds) ∧
    (∃ (s : State) (s1 : State), s.triad = true ∧ s.votes = true ∧ s.digestsDue = [] ∧ s1 = s.until (s.sef.digestAt + usU (s.fld rSefTiming 31 20))) ∧
    (∃ (s : State), (s.triad = false ∨ s.votes = false)) ∧
    (∃ (s : State), (∀ x ∈ s.sef.inbox, sefType x.2 ≠ 5)) ∧
    (∃ (dt : Nat) (highFor : Nat) (o : Nat) (high : Bool) (s : State) (s1 : State) (u : State), s1 = s.advance dt ∧ o = (if s.triad then s1.claimOrder else 0) ∧ s1.mayClaim = false) ∧
    (∃ (dt : Nat) (highFor : Nat) (o : Nat) (high : Bool) (s : State) (s1 : State) (u : State), s1 = s.advance dt ∧ o = (if s.triad then s1.claimOrder else 0) ∧ s1.mayClaim = true ∧ high = false) := ⟨by refine ⟨({ tTri with sef.unsent := [(1, [1, 2])] } : State), ((if 1022 ≤ ({ tTri with sef.unsent := [(1, [1, 2])] } : State).digestsDue.length then ({ tTri with sef.unsent := [(1, [1, 2])] } : State) else ({ tTri with sef.unsent := [(1, [1, 2])] } : State).until (({ tTri with sef.unsent := [(1, [1, 2])] } : State).sef.digestAt + usU (({ tTri with sef.unsent := [(1, [1, 2])] } : State).fld rSefTiming 31 20))) : State), ((({ tTri with sef.unsent := [(1, [1, 2])] } : State).digestsDue.take 1022).headD (0, []) : Nat × Bytes), ((({ tTri with sef.unsent := [(1, [1, 2])] } : State).digestsDue.take 1022).drop 1 : List (Nat × Bytes)), ?_, ?_, ?_, ?_⟩ <;> first | with_reducible rfl | decide +kernel,
    by refine ⟨tTri, (tTri.until (tTri.sef.digestAt + usU (tTri.fld rSefTiming 31 20)) : State), ?_, ?_, ?_, ?_⟩ <;> first | with_reducible rfl | decide +kernel,
    by refine ⟨tServe, ?_⟩ <;> first | with_reducible rfl | decide +kernel,
    by refine ⟨tServe, ?_⟩ <;> first | with_reducible rfl | decide +kernel,
    by refine ⟨(1 : Nat), (1 : Nat), ((if tServe.triad then (tServe.advance (1 : Nat) : State).claimOrder else 0) : Nat), (true : Bool), tServe, (tServe.advance (1 : Nat) : State), tServe, ?_, ?_, ?_⟩ <;> first | with_reducible rfl | decide +kernel,
    by refine ⟨(1 : Nat), (1 : Nat), ((if ({ tServe with sef.driver := false } : State).triad then (({ tServe with sef.driver := false } : State).advance (1 : Nat) : State).claimOrder else 0) : Nat), (false : Bool), ({ tServe with sef.driver := false } : State), (({ tServe with sef.driver := false } : State).advance (1 : Nat) : State), tServe, ?_, ?_, ?_, ?_⟩ <;> first | with_reducible rfl | decide +kernel⟩

/-- Of the witness below. -/
def tVotesAndToken_6_3a : State := ((((({ (({ tServe with sef.driver := false } : State).advance (1 : Nat) : State) with sef := { (({ tServe with sef.driver := false } : State).advance (1 : Nat) : State).sef with driver := true, state := 4, lineLow := true, lineSince := (({ tServe with sef.driver := false } : State).advance (1 : Nat) : State).t, kickAt := (({ tServe with sef.driver := false } : State).advance (1 : Nat) : State).t, catchUp := if ({ tServe with sef.driver := false } : State).peersPresent = [] then none else some { asked := ({ tServe with sef.driver := false } : State).peersPresent.map (·.pos), since := (({ tServe with sef.driver := false } : State).advance (1 : Nat) : State).t } } } : State).count rSefTakecnt 1).irq rSefIrq 3).event 0x63 (({ tServe with sef.driver := false } : State).high % 2 ^ 32)) : State)

theorem witness_VotesAndToken_2 :
    (∃ (dt : Nat) (highFor : Nat) (o : Nat) (high : Bool) (s : State) (s1 : State) (u : State), s1 = s.advance dt ∧ o = (if s.triad then s1.claimOrder else 0) ∧ s1.mayClaim = true ∧ high = true ∧ highFor < msU (2 + o)) ∧
    (∃ (dt : Nat) (highFor : Nat) (o : Nat) (high : Bool) (s : State) (s1 : State) (u : State), s1 = s.advance dt ∧ o = (if s.triad then s1.claimOrder else 0) ∧ s1.mayClaim = true ∧ high = true ∧ msU (2 + o) ≤ highFor ∧ u = (((({ s1 with sef := { s1.sef with driver := true, state := 4, lineLow := true, lineSince := s1.t, kickAt := s1.t, catchUp := if s.peersPresent = [] then none else some { asked := s.peersPresent.map (·.pos), since := s1.t } } } : State).count rSefTakecnt 1).irq rSefIrq 3).event 0x63 (s.high % 2 ^ 32))) ∧
    (∃ (s : State) (s1 : State) (c : CatchUp), s.sef.catchUp = some c ∧ s1 = s.until (c.since + msU (s.fld rSefTiming 9 0))) ∧
    (∃ (s : State), s.sef.catchUp = none) ∧
    (∃ (w : Who) (s : State), w ≠ .dev) ∧
    (∃ (s : State), s.sef.driver = false) := ⟨by refine ⟨(1 : Nat), (1 : Nat), ((if ({ tServe with sef.driver := false } : State).triad then (({ tServe with sef.driver := false } : State).advance (1 : Nat) : State).claimOrder else 0) : Nat), (true : Bool), ({ tServe with sef.driver := false } : State), (({ tServe with sef.driver := false } : State).advance (1 : Nat) : State), tServe, ?_, ?_, ?_, ?_, ?_⟩ <;> first | with_reducible rfl | decide +kernel,
    by refine ⟨(1 : Nat), ((10 ^ 12) : Nat), ((if ({ tServe with sef.driver := false } : State).triad then (({ tServe with sef.driver := false } : State).advance (1 : Nat) : State).claimOrder else 0) : Nat), (true : Bool), ({ tServe with sef.driver := false } : State), (({ tServe with sef.driver := false } : State).advance (1 : Nat) : State), tVotesAndToken_6_3a, ?_, ?_, ?_, ?_, ?_, ?_⟩ <;> first | with_reducible rfl | decide +kernel | (constructor <;> decide +kernel),
    by refine ⟨({ tServe with sef.catchUp := some ({ asked := [], since := 0 } : CatchUp) } : State), (({ tServe with sef.catchUp := some ({ asked := [], since := 0 } : CatchUp) } : State).until (({ asked := [], since := 0 } : CatchUp).since + msU (({ tServe with sef.catchUp := some ({ asked := [], since := 0 } : CatchUp) } : State).fld rSefTiming 9 0)) : State), ({ asked := [], since := 0 } : CatchUp), ?_, ?_⟩ <;> first | with_reducible rfl | decide +kernel,
    by refine ⟨({ tServe with sef.catchUp := none } : State), ?_⟩ <;> first | with_reducible rfl | decide +kernel,
    by refine ⟨(.seif : Who), tServe, ?_⟩ <;> first | with_reducible rfl | decide +kernel,
    by refine ⟨({ tServe with sef.driver := false } : State), ?_⟩ <;> first | with_reducible rfl | decide +kernel⟩

/-- Of the witness below. -/
def tVotesAndToken_15_0a : State := ({ ({ ({ tTri with sef.driver := false, sef.peers := [] } : State) with sef.on := true } : State) with sef.driver := false } : State)

theorem witness_VotesAndToken_3 :
    (∃ (c : Instr) (s : State) (s1 : State) (why : Nat), s.Inv ∧ s.sef.driver = true ∧ s.sef.resetAt = none ∧ ((c = .sefRelease .dev ∧ s1 = s ∧ why = 1) ∨ (c = .tokenWatchdog ∧ s1 = s.until (s.sef.kickAt + msU 25) ∧ why = 0))) ∧
    (∃ (s : State) (r : Nat), s.sef.resetAt = some r) ∧
    (∃ (s : State), s.sef.driver = false ∧ s.sef.resetAt = none) ∧
    (∃ (dt : Nat) (s : State) (s1 : State), s1 = s.advance dt ∧ s.triad = true ∧ s.sef.on = true ∧ s.sef.driver = false ∧ (∀ p ∈ s.sef.peers, p.present = false ∨ p.token = false ∨ s.rankAt p.pos = none)) ∧
    (∃ (dt : Nat) (s : State) (s1 : State), s1 = s.advance dt ∧ (s.triad = false ∨ s.sef.on = false ∨ s.sef.driver = true ∨ (∃ p ∈ s.sef.peers, p.present = true ∧ p.token = true ∧ s.rankAt p.pos ≠ none))) ∧
    (∃ (s : State), s.sef.role ≠ s.sef.driver) := ⟨by refine ⟨(.tokenWatchdog : Instr), ({ ({ tServe with sef.driver := true } : State) with sef.resetAt := none } : State), (({ ({ tServe with sef.driver := true } : State) with sef.resetAt := none } : State).until (({ ({ tServe with sef.driver := true } : State) with sef.resetAt := none } : State).sef.kickAt + msU 25) : State), (0 : Nat), ?_, ?_, ?_, ?_⟩ <;> first | with_reducible rfl | decide +kernel | (unfold State.Inv; decide +kernel),
    by refine ⟨({ tServe with sef.resetAt := some (1 : Nat) } : State), (1 : Nat), ?_⟩ <;> first | with_reducible rfl | decide +kernel,
    by refine ⟨({ ({ tServe with sef.driver := false } : State) with sef.resetAt := none } : State), ?_, ?_⟩ <;> first | with_reducible rfl | decide +kernel,
    by refine ⟨(1 : Nat), tVotesAndToken_15_0a, (tVotesAndToken_15_0a.advance (1 : Nat) : State), ?_, ?_, ?_, ?_, ?_⟩ <;> first | with_reducible rfl | decide +kernel,
    by refine ⟨(1 : Nat), tServe, (tServe.advance (1 : Nat) : State), ?_, ?_⟩ <;> first | with_reducible rfl | decide +kernel,
    by refine ⟨tServe, ?_⟩ <;> first | with_reducible rfl | decide +kernel⟩

/-- Of the witness below. -/
def tVotesAndToken_17a : State := ({ ({ ({ ({ ({ tStandby with sef.state := 5 } : State) with pow.phase := .service } : State) with sef.driver := false } : State) with sef.resync := none } : State) with sef.state := 5 } : State)

theorem witness_VotesAndToken_4 :
    (∃ (s : State), s.sef.role = s.sef.driver) ∧
    (∃ (s : State) (p : Peer) (j : Nat), s.triad = true ∧ s.pow.phase = .service ∧ s.sef.driver = false ∧ s.sef.resync = none ∧ (s.sef.state = 5 ∨ s.sef.state = 2 ∨ (s.sef.state = 1 ∧ s.sef.pos ≠ none ∧ s.holderPeer ≠ none ∧ s.sef.posAt + msU (s.fld rSefTiming 19 10) ≤ s.t)) ∧ (s.holderPeer = some p ∨ (s.holderPeer = none ∧ (s.peersPresent.find? fun q => q.state == 3) = some p)) ∧ j = (match s.seq.journal.getLast? with | some e => e.jsn | none => 0)) ∧
    (∃ (s : State), (s.triad = false ∨ s.pow.phase ≠ .service ∨ s.sef.driver = true ∨ s.sef.resync ≠ none ∨ (s.sef.state ≠ 1 ∧ s.sef.state ≠ 2 ∧ s.sef.state ≠ 5) ∨ (s.holderPeer = none ∧ ∀ p ∈ s.peersPresent, p.state ≠ 3))) := ⟨by refine ⟨tRec, ?_⟩ <;> first | with_reducible rfl | decide +kernel,
    by refine ⟨tVotesAndToken_17a, ((tPeer 1 4 true) : Peer), ((match tVotesAndToken_17a.seq.journal.getLast? with | some e => e.jsn | none => 0) : Nat), ?_, ?_, ?_, ?_, ?_, ?_, ?_⟩ <;> first | with_reducible rfl | decide +kernel,
    by refine ⟨tServe, ?_⟩ <;> first | with_reducible rfl | decide +kernel⟩

/-- Of the witness below. -/
def tSupplyWarningAndDip_2a : State := ((({ ({ tServe with pow.kham := none } : State) with seq.hold := none } : State).setRing 0 ({ ({ ({ ({ ({ ({ ({ sizeLog2 := 6 } : Ring) with en := true } : Ring) with opn := .closed } : Ring) with pend := 0 } : Ring) with held := false } : Ring) with waiting := [] } : Ring) with remain := 0 } : Ring)) : State)

theorem witness_SupplyWarningAndDip_1 :
    (∃ (dt : Nat) (pfail : Bool) (steps : Fin 7) (s : State) (s1 : State), s1 = s.advance dt ∧ (s.pow.kham ≠ none ∨ s.bitOf rJsqCtl 0 = false)) ∧
    (∃ (dt : Nat) (pfail : Bool) (s : State) (s1 : State), s.Inv ∧ s1 = s.advance dt ∧ s.pow.kham = none ∧ s.bitOf rJsqCtl 0 = true) ∧
    (∃ (dt : Nat) (pfail : Bool) (s : State) (s1 : State) (r : Ring), s.Inv ∧ s1 = s.advance dt ∧ s.pow.kham = none ∧ s.seqTakes = true ∧ s.tasksUsed < 32768 ∧ s.seq.hold = none ∧ s.ring 0 = r ∧ r.en = true ∧ r.opn = .closed ∧ r.pend = 0 ∧ r.held = false ∧ r.waiting = [] ∧ r.remain = 0 ∧ r.vis = r.w ∧ r.r = r.w ∧ 16 ≤ r.size) ∧
    (∃ (dt : Nat) (j : Nat) (st : Nat) (pfail : Bool) (s : State) (u : State) (k : Khamsin), s.Inv ∧ s.pow.kham = none ∧ s.bitOf rJsqCtl 0 = true ∧ exec (.supplyWarning dt pfail 3) s = .next u ∧ u.pow.kham = some k ∧ k.warn = some (j, st) ∧ u.locked = true) ∧
    (∃ (dt : Nat) (j : Nat) (st : Nat) (pfail : Bool) (s : State) (u : State) (k : Khamsin), s.Inv ∧ s.pow.kham = none ∧ s.bitOf rJsqCtl 0 = true ∧ exec (.supplyWarning dt pfail 3) s = .next u ∧ u.pow.kham = some k ∧ k.warn = some (j, st) ∧ u.locked = false) ∧
    (∃ (dt : Nat) (pfail : Bool) (s : State) (u : State) (k : Khamsin), s.pow.kham = none ∧ s.bitOf rJsqCtl 0 = true ∧ exec (.supplyWarning dt pfail 4) s = .next u ∧ u.pow.kham = some k ∧ (u.bitOf rSysGasp 0 = false ∨ u.netTx = false)) := ⟨by refine ⟨(1 : Nat), (true : Bool), (0 : Fin 7), tRec, (tRec.advance (1 : Nat) : State), ?_, ?_⟩ <;> first | with_reducible rfl | decide +kernel,
    by refine ⟨(1 : Nat), (true : Bool), ((({ tServe with pow.kham := none } : State).setBit rJsqCtl 0 true) : State), (((({ tServe with pow.kham := none } : State).setBit rJsqCtl 0 true) : State).advance (1 : Nat) : State), ?_, ?_, ?_, ?_⟩ <;> first | with_reducible rfl | decide +kernel | (unfold State.Inv; decide +kernel),
    by refine ⟨(1 : Nat), (true : Bool), tSupplyWarningAndDip_2a, (tSupplyWarningAndDip_2a.advance (1 : Nat) : State), ({ ({ ({ ({ ({ ({ ({ sizeLog2 := 6 } : Ring) with en := true } : Ring) with opn := .closed } : Ring) with pend := 0 } : Ring) with held := false } : Ring) with waiting := [] } : Ring) with remain := 0 } : Ring), ?_, ?_, ?_, ?_, ?_, ?_, ?_, ?_, ?_, ?_, ?_, ?_, ?_, ?_, ?_, ?_⟩ <;> first | with_reducible rfl | decide +kernel | (unfold State.Inv; decide +kernel),
    by refine ⟨1, (((tWarn (tWarned 0 true 3))).warn.getD (0, 0)).1, (((tWarn (tWarned 0 true 3))).warn.getD (0, 0)).2, true, { tServe.setFld rSysGasp 2 0 0 with locked := true }, (tWarned 0 true 3), (tWarn (tWarned 0 true 3)), ?_, ?_, ?_, ?_, ?_, ?_, ?_⟩ <;> first | with_reducible rfl | decide +kernel | (constructor <;> decide +kernel),
    by refine ⟨1, (((tWarn (tWarned 0 false 3))).warn.getD (0, 0)).1, (((tWarn (tWarned 0 false 3))).warn.getD (0, 0)).2, true, { tServe.setFld rSysGasp 2 0 0 with locked := false }, (tWarned 0 false 3), (tWarn (tWarned 0 false 3)), ?_, ?_, ?_, ?_, ?_, ?_, ?_⟩ <;> first | with_reducible rfl | decide +kernel | (constructor <;> decide +kernel),
    by refine ⟨1, true, { tServe.setFld rSysGasp 2 0 0 with locked := false }, (tWarned 0 false 4), (tWarn (tWarned 0 false 4)), ?_, ?_, ?_, ?_, ?_⟩ <;> first | with_reducible rfl | decide +kernel | (constructor <;> decide +kernel)⟩

/-- Of the witness below. -/
def tSupplyWarningAndDip_5_3a : State := ((({ ({ ({ tServe with pow.warn := true } : State) with pow.kham := some ({ ({ ({ from_ := 0, pfail := false } : Khamsin) with net := false } : Khamsin) with chans := [] } : Khamsin) } : State) with seq.hold := none } : State).setRing 0 ({ ({ ({ ({ ({ ({ ({ sizeLog2 := 6 } : Ring) with en := true } : Ring) with opn := .closed } : Ring) with pend := 0 } : Ring) with held := false } : Ring) with waiting := [] } : Ring) with remain := 0 } : Ring)) : State)

theorem witness_SupplyWarningAndDip_2 :
    (∃ (dt : Nat) (pfail : Bool) (s : State) (u : State) (k : Khamsin) (j : Nat) (st : Nat) (v : State), s.pow.kham = none ∧ s.bitOf rJsqCtl 0 = true ∧ exec (.supplyWarning dt pfail 4) s = .next u ∧ u.pow.kham = some k ∧ k.warn = some (j, st) ∧ u.bitOf rSysGasp 0 = true ∧ u.netTx = true ∧ v = u.gaspRecord 0x70 (if k.pfail then 1 else 0) (le 8 j ++ le 8 u.seq.durable)) ∧
    (∃ (dt : Nat) (pfail : Bool) (s : State) (u : State) (k : Khamsin), s.pow.kham = none ∧ s.bitOf rJsqCtl 0 = true ∧ exec (.supplyWarning dt pfail 5) s = .next u ∧ u.pow.kham = some k ∧ u.fld rSysGasp 2 1 = 0) ∧
    (∃ (dt : Nat) (s : State) (s1 : State), s1 = s.advance dt ∧ (s.pow.phase = .off ∨ s.pow.warn = false)) ∧
    (∃ (dt : Nat) (s : State) (s1 : State), s1 = s.advance dt ∧ s.pow.phase ≠ .off ∧ s.pow.warn = true ∧ s.pow.kham = none) ∧
    (∃ (dt : Nat) (s : State) (s1 : State) (k : Khamsin) (us : Nat) (r : Ring), s1 = s.advance dt ∧ s.Inv ∧ s.pow.phase ≠ .off ∧ s.pow.warn = true ∧ s.pow.kham = some k ∧ k.net = false ∧ k.chans = [] ∧ us = min 4294967295 ((s1.t - k.from_) * 1000000 / 268435456) ∧ s.seqTakes = true ∧ s.tasksUsed < 32768 ∧ s.seq.hold = none ∧ s.ring 0 = r ∧ r.en = true ∧ r.opn = .closed ∧ r.pend = 0 ∧ r.held = false ∧ r.waiting = [] ∧ r.remain = 0 ∧ r.vis = r.w ∧ r.r = r.w ∧ 16 ≤ r.size) := ⟨by refine ⟨1, true, { tServe.setFld rSysGasp 2 0 7 with locked := false }, (tWarned 7 false 4), (tWarn (tWarned 7 false 4)), (((tWarn (tWarned 7 false 4))).warn.getD (0, 0)).1, (((tWarn (tWarned 7 false 4))).warn.getD (0, 0)).2, ((tWarned 7 false 4)).gaspRecord 0x70 (if (tWarn (tWarned 7 false 4)).pfail then 1 else 0) (le 8 ((((tWarn (tWarned 7 false 4))).warn.getD (0, 0)).1) ++ le 8 ((tWarned 7 false 4)).seq.durable), ?_, ?_, ?_, ?_, ?_, ?_, ?_, ?_⟩ <;> first | with_reducible rfl | decide +kernel | (constructor <;> decide +kernel),
    by refine ⟨1, true, { tServe.setFld rSysGasp 2 0 0 with locked := false }, (tWarned 0 false 5), (tWarn (tWarned 0 false 5)), ?_, ?_, ?_, ?_, ?_⟩ <;> first | with_reducible rfl | decide +kernel | (constructor <;> decide +kernel),
    by refine ⟨(1 : Nat), ({ tServe with pow.phase := .off } : State), (({ tServe with pow.phase := .off } : State).advance (1 : Nat) : State), ?_, ?_⟩ <;> first | with_reducible rfl | decide +kernel,
    by refine ⟨(1 : Nat), ({ ({ tServe with pow.warn := true } : State) with pow.kham := none } : State), (({ ({ tServe with pow.warn := true } : State) with pow.kham := none } : State).advance (1 : Nat) : State), ?_, ?_, ?_, ?_⟩ <;> first | with_reducible rfl | decide +kernel,
    by refine ⟨(1 : Nat), tSupplyWarningAndDip_5_3a, (tSupplyWarningAndDip_5_3a.advance (1 : Nat) : State), ({ ({ ({ from_ := 0, pfail := false } : Khamsin) with net := false } : Khamsin) with chans := [] } : Khamsin), (min 4294967295 (((tSupplyWarningAndDip_5_3a.advance (1 : Nat) : State).t - ({ ({ ({ from_ := 0, pfail := false } : Khamsin) with net := false } : Khamsin) with chans := [] } : Khamsin).from_) * 1000000 / 268435456) : Nat), ({ ({ ({ ({ ({ ({ ({ sizeLog2 := 6 } : Ring) with en := true } : Ring) with opn := .closed } : Ring) with pend := 0 } : Ring) with held := false } : Ring) with waiting := [] } : Ring) with remain := 0 } : Ring), ?_, ?_, ?_, ?_, ?_, ?_, ?_, ?_, ?_, ?_, ?_, ?_, ?_, ?_, ?_, ?_, ?_, ?_, ?_, ?_, ?_⟩ <;> first | with_reducible rfl | decide +kernel | (unfold State.Inv; decide +kernel)⟩

theorem witness_ResetsClocksAndSupplies_1 :
    (∃ (dt : Nat) (s : State) (s1 : State), s1 = s.advance dt ∧ s.pow.phase ≠ .off) ∧
    (∃ (dt : Nat) (s : State) (s1 : State), s1 = s.advance dt ∧ s.pow.phase = .off) ∧
    (∃ (c : Instr) (dt : Nat) (off : Nat) (s : State) (s1 : State), s.Inv ∧ s1 = s.advance dt ∧ off = min 10000 (s.fld rOasPwr 29 16) ∧ (c = .resetNAssert dt ∨ c = .supplyReset dt)) ∧
    (∃ (dt : Nat) (n : Fin 4) (s : State) (s1 : State), s1 = s.advance dt ∧ s.pow.locks.getD n.val false = false) ∧
    (∃ (dt : Nat) (n : Fin 4) (s : State) (s1 : State), s1 = s.advance dt ∧ s.Inv ∧ n = 0 ∧ s.pow.locks.getD 0 false = true) ∧
    (∃ (dt : Nat) (n : Fin 4) (s : State) (s1 : State) (a : SefLink) (b : SefLink), s1 = s.advance dt ∧ s.Inv ∧ n = 1 ∧ s.pow.locks.getD 1 false = true ∧ s.sef.links = [a, b]) := ⟨by refine ⟨(1 : Nat), tServe, (tServe.advance (1 : Nat) : State), ?_, ?_⟩ <;> first | with_reducible rfl | decide +kernel,
    by refine ⟨(1 : Nat), ({ tServe with pow.phase := .off } : State), (({ tServe with pow.phase := .off } : State).advance (1 : Nat) : State), ?_, ?_⟩ <;> first | with_reducible rfl | decide +kernel,
    by refine ⟨((.resetNAssert (1 : Nat)) : Instr), (1 : Nat), (min 10000 (tServe.fld rOasPwr 29 16) : Nat), tServe, (tServe.advance (1 : Nat) : State), ?_, ?_, ?_, ?_⟩ <;> first | with_reducible rfl | decide +kernel | (unfold State.Inv; decide +kernel),
    by refine ⟨(1 : Nat), (0 : Fin 4), tRec, (tRec.advance (1 : Nat) : State), ?_, ?_⟩ <;> first | with_reducible rfl | decide +kernel,
    by refine ⟨(1 : Nat), (0 : Fin 4), tServe, (tServe.advance (1 : Nat) : State), ?_, ?_, ?_, ?_⟩ <;> first | with_reducible rfl | decide +kernel | (unfold State.Inv; decide +kernel),
    by refine ⟨(1 : Nat), (1 : Fin 4), ({ tServe with sef.links := [({} : SefLink), ({} : SefLink)] } : State), (({ tServe with sef.links := [({} : SefLink), ({} : SefLink)] } : State).advance (1 : Nat) : State), ({} : SefLink), ({} : SefLink), ?_, ?_, ?_, ?_, ?_⟩ <;> first | with_reducible rfl | decide +kernel | (unfold State.Inv; decide +kernel)⟩

theorem witness_ResetsClocksAndSupplies_2 :
    (∃ (dt : Nat) (n : Fin 4) (s : State) (s1 : State), s1 = s.advance dt ∧ n = 2 ∧ s.pow.locks.getD 2 false = true) ∧
    (∃ (dt : Nat) (n : Fin 4) (s : State) (s1 : State), s1 = s.advance dt ∧ n = 3 ∧ s.pow.locks.getD 3 false = true) ∧
    (∃ (dt : Nat) (n : Fin 4) (s : State) (s1 : State), s1 = s.advance dt ∧ s.pow.plls.getD n.val false = false) ∧
    (∃ (dt : Nat) (n : Fin 4) (s : State) (s1 : State), s1 = s.advance dt ∧ s.pow.plls.getD n.val false = true) ∧
    (∃ (s : State) (d : Nat), s.pow.pwronAt = some d) ∧
    (∃ (s : State), s.pow.pwronAt = none) := ⟨by refine ⟨(1 : Nat), (2 : Fin 4), tServe, (tServe.advance (1 : Nat) : State), ?_, ?_, ?_⟩ <;> first | with_reducible rfl | decide +kernel,
    by refine ⟨(1 : Nat), (3 : Fin 4), tServe, (tServe.advance (1 : Nat) : State), ?_, ?_, ?_⟩ <;> first | with_reducible rfl | decide +kernel,
    by refine ⟨(1 : Nat), (0 : Fin 4), tServe, (tServe.advance (1 : Nat) : State), ?_, ?_⟩ <;> first | with_reducible rfl | decide +kernel,
    by refine ⟨(1 : Nat), (0 : Fin 4), ({ tServe with pow.plls := [true, true, true, true] } : State), (({ tServe with pow.plls := [true, true, true, true] } : State).advance (1 : Nat) : State), ?_, ?_⟩ <;> first | with_reducible rfl | decide +kernel,
    by refine ⟨({ tServe with pow.pwronAt := some (1 : Nat) } : State), (1 : Nat), ?_⟩ <;> first | with_reducible rfl | decide +kernel,
    by refine ⟨({ tServe with pow.pwronAt := none } : State), ?_⟩ <;> first | with_reducible rfl | decide +kernel⟩

theorem witness_ResetsClocksAndSupplies_3 :
    (∃ (dt : Nat) (s : State) (s1 : State), s1 = s.advance dt ∧ s.bitOf rOasPwr 0 = false) ∧
    (∃ (dt : Nat) (s : State) (s1 : State), s1 = s.advance dt ∧ s.Inv ∧ s.bitOf rOasPwr 0 = true) ∧
    (∃ (mv : Fin 4096) (s : State) (s1 : State), s1 = s.until (s.pow.vbatAt + 64 * 268435456) ∧ s.bitOf rOasPwr 0 = true) ∧
    (∃ (mv : Fin 4096) (s : State) (s1 : State), s1 = s.until (s.pow.vbatAt + 64 * 268435456) ∧ s.bitOf rOasPwr 0 = false ∧ 2200 ≤ mv.val) ∧
    (∃ (mv : Fin 4096) (s : State) (s1 : State), s1 = s.until (s.pow.vbatAt + 64 * 268435456) ∧ s.bitOf rOasPwr 0 = false ∧ mv.val < 2200) ∧
    (∃ (tj : Int) (hi : Int) (s : State) (s1 : State) (v : Nat), s.Inv ∧ s1 = s.until (s.pow.thermAt + msU 10) ∧ v = s.fld rSysTherm 7 0 ∧ hi = (if 85 ≤ v ∧ v ≤ 120 then (v : Int) else 115) ∧ s.pow.phase = .off) := ⟨by refine ⟨(1 : Nat), ((tServe.setBit rOasPwr 0 false) : State), (((tServe.setBit rOasPwr 0 false) : State).advance (1 : Nat) : State), ?_, ?_⟩ <;> first | with_reducible rfl | decide +kernel,
    by refine ⟨(1 : Nat), ((tServe.setBit rOasPwr 0 true) : State), (((tServe.setBit rOasPwr 0 true) : State).advance (1 : Nat) : State), ?_, ?_, ?_⟩ <;> first | with_reducible rfl | decide +kernel | (unfold State.Inv; decide +kernel),
    by refine ⟨(0 : Fin 4096), ((tServe.setBit rOasPwr 0 true) : State), (((tServe.setBit rOasPwr 0 true) : State).until (((tServe.setBit rOasPwr 0 true) : State).pow.vbatAt + 64 * 268435456) : State), ?_, ?_⟩ <;> first | with_reducible rfl | decide +kernel,
    by refine ⟨(3000 : Fin 4096), ((tServe.setBit rOasPwr 0 false) : State), (((tServe.setBit rOasPwr 0 false) : State).until (((tServe.setBit rOasPwr 0 false) : State).pow.vbatAt + 64 * 268435456) : State), ?_, ?_, ?_⟩ <;> first | with_reducible rfl | decide +kernel,
    by refine ⟨(0 : Fin 4096), ((tServe.setBit rOasPwr 0 false) : State), (((tServe.setBit rOasPwr 0 false) : State).until (((tServe.setBit rOasPwr 0 false) : State).pow.vbatAt + 64 * 268435456) : State), ?_, ?_, ?_⟩ <;> first | with_reducible rfl | decide +kernel,
    by refine ⟨(5 : Int), ((if 85 ≤ (({ tServe with pow.phase := .off } : State).fld rSysTherm 7 0 : Nat) ∧ (({ tServe with pow.phase := .off } : State).fld rSysTherm 7 0 : Nat) ≤ 120 then ((({ tServe with pow.phase := .off } : State).fld rSysTherm 7 0 : Nat) : Int) else 115) : Int), ({ tServe with pow.phase := .off } : State), (({ tServe with pow.phase := .off } : State).until (({ tServe with pow.phase := .off } : State).pow.thermAt + msU 10) : State), (({ tServe with pow.phase := .off } : State).fld rSysTherm 7 0 : Nat), ?_, ?_, ?_, ?_, ?_⟩ <;> first | with_reducible rfl | decide +kernel | (unfold State.Inv; decide +kernel)⟩

theorem witness_ResetsClocksAndSupplies_4 :
    ∃ (tj : Int) (hi : Int) (s : State) (s1 : State) (v : Nat), s.Inv ∧ s1 = s.until (s.pow.thermAt + msU 10) ∧ v = s.fld rSysTherm 7 0 ∧ hi = (if 85 ≤ v ∧ v ≤ 120 then (v : Int) else 115) ∧ s.pow.phase ≠ .off := by refine ⟨(5 : Int), ((if 85 ≤ (tServe.fld rSysTherm 7 0 : Nat) ∧ (tServe.fld rSysTherm 7 0 : Nat) ≤ 120 then ((tServe.fld rSysTherm 7 0 : Nat) : Int) else 115) : Int), tServe, (tServe.until (tServe.pow.thermAt + msU 10) : State), (tServe.fld rSysTherm 7 0 : Nat), ?_, ?_, ?_, ?_, ?_⟩ <;> first | with_reducible rfl | decide +kernel | (unfold State.Inv; decide +kernel)

/-- Of the witness below. -/
def tTheUnitStartsByItsLadder_0_0a : State := (({ (tServe.advance (0 : Nat) : State) with rpl := { (tServe.advance (0 : Nat) : State).rpl with card := (none : Option Card) }, boot := { (tServe.advance (0 : Nat) : State).boot with vio33 := (false : Bool) } } : State).setBit rSysClk 0 true : State)

/-- Of the witness below. -/
def tTheUnitStartsByItsLadder_0_1a : State := (({ (({ ({ tServe with pow.phase := .rom } : State) with sec.otp.lc := .blank } : State).advance (0 : Nat) : State) with rpl := { (({ ({ tServe with pow.phase := .rom } : State) with sec.otp.lc := .blank } : State).advance (0 : Nat) : State).rpl with card := (none : Option Card) }, boot := { (({ ({ tServe with pow.phase := .rom } : State) with sec.otp.lc := .blank } : State).advance (0 : Nat) : State).boot with vio33 := (false : Bool) } } : State).setBit rSysClk 0 true : State)

/-- Of the witness below. -/
def tTheUnitStartsByItsLadder_0_2a : State := (({ (({ ({ tServe with pow.phase := .rom } : State) with sec.otp.lc := .scrapped } : State).advance (0 : Nat) : State) with rpl := { (({ ({ tServe with pow.phase := .rom } : State) with sec.otp.lc := .scrapped } : State).advance (0 : Nat) : State).rpl with card := (none : Option Card) }, boot := { (({ ({ tServe with pow.phase := .rom } : State) with sec.otp.lc := .scrapped } : State).advance (0 : Nat) : State).boot with vio33 := (false : Bool) } } : State).setBit rSysClk 0 true : State)

/-- Of the witness below. -/
def tTheUnitStartsByItsLadder_0_3_0a : State := (({ (((({ tServe with pow.phase := .rom } : State).setBit rOasTampstat 8 false) : State).advance (0 : Nat) : State) with rpl := { (((({ tServe with pow.phase := .rom } : State).setBit rOasTampstat 8 false) : State).advance (0 : Nat) : State).rpl with card := (none : Option Card) }, boot := { (((({ tServe with pow.phase := .rom } : State).setBit rOasTampstat 8 false) : State).advance (0 : Nat) : State).boot with vio33 := (false : Bool) } } : State).setBit rSysClk 0 true : State)

/-- Of the witness below. -/
def tTheUnitStartsByItsLadder_0_3_1a : State := (({ (((({ tServe with pow.phase := .rom } : State).setBit rOasTampstat 8 false) : State).advance (0 : Nat) : State) with rpl := { (((({ tServe with pow.phase := .rom } : State).setBit rOasTampstat 8 false) : State).advance (0 : Nat) : State).rpl with card := (none : Option Card) }, boot := { (((({ tServe with pow.phase := .rom } : State).setBit rOasTampstat 8 false) : State).advance (0 : Nat) : State).boot with vio33 := (false : Bool) } } : State).setBit rSysClk 0 true : State)

theorem witness_TheUnitStartsByItsLadder_1 :
    (∃ (dt : Nat) (restore : Nat) (recover : Bool) (vio33 : Bool) (card : Option Card) (geom : Option NandGeom) (s : State) (s1 : State) (a : State) (b : State) (img : Bytes), s.Inv ∧ s1 = s.advance dt ∧ a = ({ s1 with rpl := { s1.rpl with card := card }, boot := { s1.boot with vio33 := vio33 } } : State).setBit rSysClk 0 true ∧ b = (if geom = none ∨ geom = s.med.nand.board then a else { a with med := { a.med with nand := { board := geom } }, obox := [], evr := {} }) ∧ img = s.nor.cfgImage ∧ s.pow.phase ≠ .rom) ∧
    (∃ (dt : Nat) (restore : Nat) (recover : Bool) (vio33 : Bool) (card : Option Card) (geom : Option NandGeom) (s : State) (s1 : State) (a : State) (b : State) (img : Bytes), s.Inv ∧ s1 = s.advance dt ∧ a = ({ s1 with rpl := { s1.rpl with card := card }, boot := { s1.boot with vio33 := vio33 } } : State).setBit rSysClk 0 true ∧ b = (if geom = none ∨ geom = s.med.nand.board then a else { a with med := { a.med with nand := { board := geom } }, obox := [], evr := {} }) ∧ img = s.nor.cfgImage ∧ s.pow.phase = .rom ∧ s.sec.otp.lc = .blank) ∧
    (∃ (dt : Nat) (restore : Nat) (recover : Bool) (vio33 : Bool) (card : Option Card) (geom : Option NandGeom) (s : State) (s1 : State) (a : State) (b : State) (img : Bytes), s.Inv ∧ s1 = s.advance dt ∧ a = ({ s1 with rpl := { s1.rpl with card := card }, boot := { s1.boot with vio33 := vio33 } } : State).setBit rSysClk 0 true ∧ b = (if geom = none ∨ geom = s.med.nand.board then a else { a with med := { a.med with nand := { board := geom } }, obox := [], evr := {} }) ∧ img = s.nor.cfgImage ∧ s.pow.phase = .rom ∧ s.sec.otp.lc = .scrapped) ∧
    (∃ (dt : Nat) (restore : Nat) (recover : Bool) (vio33 : Bool) (card : Option Card) (geom : Option NandGeom) (s : State) (s1 : State) (a : State) (b : State) (img : Bytes), s.Inv ∧ s1 = s.advance dt ∧ a = ({ s1 with rpl := { s1.rpl with card := card }, boot := { s1.boot with vio33 := vio33 } } : State).setBit rSysClk 0 true ∧ b = (if geom = none ∨ geom = s.med.nand.board then a else { a with med := { a.med with nand := { board := geom } }, obox := [], evr := {} }) ∧ img = s.nor.cfgImage ∧ s.pow.phase = .rom ∧ s.sec.otp.lc ≠ .blank ∧ s.sec.otp.lc ≠ .scrapped ∧ s.bitOf rOasTampstat 8 = false ∧ recover = true) ∧
    (∃ (dt : Nat) (restore : Nat) (recover : Bool) (vio33 : Bool) (card : Option Card) (geom : Option NandGeom) (s : State) (s1 : State) (a : State) (b : State) (img : Bytes), s.Inv ∧ s1 = s.advance dt ∧ a = ({ s1 with rpl := { s1.rpl with card := card }, boot := { s1.boot with vio33 := vio33 } } : State).setBit rSysClk 0 true ∧ b = (if geom = none ∨ geom = s.med.nand.board then a else { a with med := { a.med with nand := { board := geom } }, obox := [], evr := {} }) ∧ img = s.nor.cfgImage ∧ s.pow.phase = .rom ∧ s.sec.otp.lc ≠ .blank ∧ s.sec.otp.lc ≠ .scrapped ∧ s.bitOf rOasTampstat 8 = false ∧ recover = true ∧ card = none) ∧
    (∃ (dt : Nat) (restore : Nat) (recover : Bool) (vio33 : Bool) (card : Option Card) (geom : Option NandGeom) (k : Fin 17) (l : Fin 17) (s : State) (u : State), s.pow.phase = .rom ∧ l.val = k.val + 1 ∧ exec (.boot dt restore recover card geom vio33 k) s = .next u) := ⟨by refine ⟨(0 : Nat), (0 : Nat), (false : Bool), (false : Bool), (none : Option Card), (none : Option NandGeom), tServe, (tServe.advance (0 : Nat) : State), tTheUnitStartsByItsLadder_0_0a, ((if (none : Option NandGeom) = none ∨ (none : Option NandGeom) = tServe.med.nand.board then tTheUnitStartsByItsLadder_0_0a else { tTheUnitStartsByItsLadder_0_0a with med := { tTheUnitStartsByItsLadder_0_0a.med with nand := { board := (none : Option NandGeom) } }, obox := [], evr := {} }) : State), (tServe.nor.cfgImage : Bytes), ?_, ?_, ?_, ?_, ?_, ?_⟩ <;> first | with_reducible rfl | decide +kernel | (unfold State.Inv; decide +kernel),
    by refine ⟨(0 : Nat), (0 : Nat), (false : Bool), (false : Bool), (none : Option Card), (none : Option NandGeom), ({ ({ tServe with pow.phase := .rom } : State) with sec.otp.lc := .blank } : State), (({ ({ tServe with pow.phase := .rom } : State) with sec.otp.lc := .blank } : State).advance (0 : Nat) : State), tTheUnitStartsByItsLadder_0_1a, ((if (none : Option NandGeom) = none ∨ (none : Option NandGeom) = ({ ({ tServe with pow.phase := .rom } : State) with sec.otp.lc := .blank } : State).med.nand.board then tTheUnitStartsByItsLadder_0_1a else { tTheUnitStartsByItsLadder_0_1a with med := { tTheUnitStartsByItsLadder_0_1a.med with nand := { board := (none : Option NandGeom) } }, obox := [], evr := {} }) : State), (({ ({ tServe with pow.phase := .rom } : State) with sec.otp.lc := .blank } : State).nor.cfgImage : Bytes), ?_, ?_, ?_, ?_, ?_, ?_, ?_⟩ <;> first | with_reducible rfl | decide +kernel | (unfold State.Inv; decide +kernel),
    by refine ⟨(0 : Nat), (0 : Nat), (false : Bool), (false : Bool), (none : Option Card), (none : Option NandGeom), ({ ({ tServe with pow.phase := .rom } : State) with sec.otp.lc := .scrapped } : State), (({ ({ tServe with pow.phase := .rom } : State) with sec.otp.lc := .scrapped } : State).advance (0 : Nat) : State), tTheUnitStartsByItsLadder_0_2a, ((if (none : Option NandGeom) = none ∨ (none : Option NandGeom) = ({ ({ tServe with pow.phase := .rom } : State) with sec.otp.lc := .scrapped } : State).med.nand.board then tTheUnitStartsByItsLadder_0_2a else { tTheUnitStartsByItsLadder_0_2a with med := { tTheUnitStartsByItsLadder_0_2a.med with nand := { board := (none : Option NandGeom) } }, obox := [], evr := {} }) : State), (({ ({ tServe with pow.phase := .rom } : State) with sec.otp.lc := .scrapped } : State).nor.cfgImage : Bytes), ?_, ?_, ?_, ?_, ?_, ?_, ?_⟩ <;> first | with_reducible rfl | decide +kernel | (unfold State.Inv; decide +kernel),
    by refine ⟨(0 : Nat), (0 : Nat), (true : Bool), (false : Bool), (none : Option Card), (none : Option NandGeom), ((({ tServe with pow.phase := .rom } : State).setBit rOasTampstat 8 false) : State), (((({ tServe with pow.phase := .rom } : State).setBit rOasTampstat 8 false) : State).advance (0 : Nat) : State), tTheUnitStartsByItsLadder_0_3_0a, ((if (none : Option NandGeom) = none ∨ (none : Option NandGeom) = ((({ tServe with pow.phase := .rom } : State).setBit rOasTampstat 8 false) : State).med.nand.board then tTheUnitStartsByItsLadder_0_3_0a else { tTheUnitStartsByItsLadder_0_3_0a with med := { tTheUnitStartsByItsLadder_0_3_0a.med with nand := { board := (none : Option NandGeom) } }, obox := [], evr := {} }) : State), (((({ tServe with pow.phase := .rom } : State).setBit rOasTampstat 8 false) : State).nor.cfgImage : Bytes), ?_, ?_, ?_, ?_, ?_, ?_, ?_, ?_, ?_, ?_⟩ <;> first | with_reducible rfl | decide +kernel | (unfold State.Inv; decide +kernel),
    by refine ⟨(0 : Nat), (0 : Nat), (true : Bool), (false : Bool), (none : Option Card), (none : Option NandGeom), ((({ tServe with pow.phase := .rom } : State).setBit rOasTampstat 8 false) : State), (((({ tServe with pow.phase := .rom } : State).setBit rOasTampstat 8 false) : State).advance (0 : Nat) : State), tTheUnitStartsByItsLadder_0_3_1a, ((if (none : Option NandGeom) = none ∨ (none : Option NandGeom) = ((({ tServe with pow.phase := .rom } : State).setBit rOasTampstat 8 false) : State).med.nand.board then tTheUnitStartsByItsLadder_0_3_1a else { tTheUnitStartsByItsLadder_0_3_1a with med := { tTheUnitStartsByItsLadder_0_3_1a.med with nand := { board := (none : Option NandGeom) } }, obox := [], evr := {} }) : State), (((({ tServe with pow.phase := .rom } : State).setBit rOasTampstat 8 false) : State).nor.cfgImage : Bytes), ?_, ?_, ?_, ?_, ?_, ?_, ?_, ?_, ?_, ?_, ?_⟩ <;> first | with_reducible rfl | decide +kernel | (unfold State.Inv; decide +kernel),
    by refine ⟨(0 : Nat), (1 : Nat), (true : Bool), (true : Bool), (none : Option Card), (none : Option NandGeom), (0 : Fin 17), (1 : Fin 17), ({ tRom with pow.phase := .rom } : State), ((match exec (.boot (0 : Nat) (1 : Nat) (true : Bool) (none : Option Card) (none : Option NandGeom) (true : Bool) (0 : Fin 17)) ({ tRom with pow.phase := .rom } : State) with | .next u => u | _ => ({ tRom with pow.phase := .rom } : State)) : State), ?_, ?_, ?_⟩ <;> first | with_reducible rfl | decide +kernel | (constructor <;> decide +kernel)⟩

/-- Of the witness below. -/
def tTheUnitStartsByItsLadder_3_0a : State := (({ ((tRung .ladder 0) : State) with pow.phase := .ladder } : State).until (({ ((tRung .ladder 0) : State) with pow.phase := .ladder } : State).pow.rungAt + usU (max 10 (({ ((tRung .ladder 0) : State) with pow.phase := .ladder } : State).fld rSysLadder 9 0))) : State)

/-- Of the witness below. -/
def tTheUnitStartsByItsLadder_3_1a : State := (({ ((tRung .ladder 1) : State) with pow.phase := .ladder } : State).until (({ ((tRung .ladder 1) : State) with pow.phase := .ladder } : State).pow.rungAt + usU (max 10 (({ ((tRung .ladder 1) : State) with pow.phase := .ladder } : State).fld rSysLadder 9 0))) : State)

/-- Of the witness below. -/
def tTheUnitStartsByItsLadder_3_2a : State := (({ ((tRung .ladder 2) : State) with pow.phase := .ladder } : State).until (({ ((tRung .ladder 2) : State) with pow.phase := .ladder } : State).pow.rungAt + usU (max 10 (({ ((tRung .ladder 2) : State) with pow.phase := .ladder } : State).fld rSysLadder 9 0))) : State)

/-- Of the witness below. -/
def tTheUnitStartsByItsLadder_3_3_3a : State := (({ ((tRung .ladder 4) : State) with pow.phase := .ladder } : State).until (({ ((tRung .ladder 4) : State) with pow.phase := .ladder } : State).pow.rungAt + usU (max 10 (({ ((tRung .ladder 4) : State) with pow.phase := .ladder } : State).fld rSysLadder 9 0))) : State)

/-- Of the witness below. -/
def tTheUnitStartsByItsLadder_3_4a : State := (({ ((tRung .ladder 5) : State) with pow.phase := .ladder } : State).until (({ ((tRung .ladder 5) : State) with pow.phase := .ladder } : State).pow.rungAt + usU (max 10 (({ ((tRung .ladder 5) : State) with pow.phase := .ladder } : State).fld rSysLadder 9 0))) : State)

theorem witness_TheUnitStartsByItsLadder_2 :
    (∃ (dt : Nat) (s : State), ((s.pow.phase ≠ .ladder ∧ s.pow.phase ≠ .alarmHold) ∨ (s.pow.phase = .ladder ∧ 16 ≤ s.fld rSysLadder 20 16))) ∧
    (∃ (dt : Nat) (k : Nat) (s : State) (s1 : State) (u : State), s.Inv ∧ s.pow.phase = .ladder ∧ k = s.fld rSysLadder 20 16 + 1 ∧ s1 = s.until (s.pow.rungAt + usU (max 10 (s.fld rSysLadder 9 0))) ∧ u = ({ s1 with pow := { s1.pow with rungAt := s1.t } } : State).setFld rSysLadder 20 16 k ∧ k = 1) ∧
    (∃ (dt : Nat) (k : Nat) (s : State) (s1 : State) (u : State), s.Inv ∧ s.pow.phase = .ladder ∧ k = s.fld rSysLadder 20 16 + 1 ∧ s1 = s.until (s.pow.rungAt + usU (max 10 (s.fld rSysLadder 9 0))) ∧ u = ({ s1 with pow := { s1.pow with rungAt := s1.t } } : State).setFld rSysLadder 20 16 k ∧ k = 2) ∧
    (∃ (dt : Nat) (k : Nat) (s : State) (s1 : State) (u : State), s.Inv ∧ s.pow.phase = .ladder ∧ k = s.fld rSysLadder 20 16 + 1 ∧ s1 = s.until (s.pow.rungAt + usU (max 10 (s.fld rSysLadder 9 0))) ∧ u = ({ s1 with pow := { s1.pow with rungAt := s1.t } } : State).setFld rSysLadder 20 16 k ∧ (k = 3 ∨ k = 4 ∨ k = 8 ∨ k = 15)) ∧
    (∃ (dt : Nat) (k : Nat) (s : State) (s1 : State) (u : State), s.Inv ∧ s.pow.phase = .ladder ∧ k = s.fld rSysLadder 20 16 + 1 ∧ s1 = s.until (s.pow.rungAt + usU (max 10 (s.fld rSysLadder 9 0))) ∧ u = ({ s1 with pow := { s1.pow with rungAt := s1.t } } : State).setFld rSysLadder 20 16 k ∧ k = 5 ∧ cfgSection s.boot.img 14 = none) ∧
    (∃ (dt : Nat) (k : Nat) (s : State) (s1 : State) (u : State), s.Inv ∧ s.pow.phase = .ladder ∧ k = s.fld rSysLadder 20 16 + 1 ∧ s1 = s.until (s.pow.rungAt + usU (max 10 (s.fld rSysLadder 9 0))) ∧ u = ({ s1 with pow := { s1.pow with rungAt := s1.t } } : State).setFld rSysLadder 20 16 k ∧ k = 6) := ⟨by refine ⟨(0 : Nat), ((tRung .ladder 16) : State), ?_⟩ <;> first | with_reducible rfl | decide +kernel,
    by refine ⟨(0 : Nat), (({ ((tRung .ladder 0) : State) with pow.phase := .ladder } : State).fld rSysLadder 20 16 + 1 : Nat), ({ ((tRung .ladder 0) : State) with pow.phase := .ladder } : State), tTheUnitStartsByItsLadder_3_0a, (({ tTheUnitStartsByItsLadder_3_0a with pow := { tTheUnitStartsByItsLadder_3_0a.pow with rungAt := tTheUnitStartsByItsLadder_3_0a.t } } : State).setFld rSysLadder 20 16 (({ ((tRung .ladder 0) : State) with pow.phase := .ladder } : State).fld rSysLadder 20 16 + 1 : Nat) : State), ?_, ?_, ?_, ?_, ?_, ?_⟩ <;> first | with_reducible rfl | decide +kernel | (unfold State.Inv; decide +kernel),
    by refine ⟨(0 : Nat), (({ ((tRung .ladder 1) : State) with pow.phase := .ladder } : State).fld rSysLadder 20 16 + 1 : Nat), ({ ((tRung .ladder 1) : State) with pow.phase := .ladder } : State), tTheUnitStartsByItsLadder_3_1a, (({ tTheUnitStartsByItsLadder_3_1a with pow := { tTheUnitStartsByItsLadder_3_1a.pow with rungAt := tTheUnitStartsByItsLadder_3_1a.t } } : State).setFld rSysLadder 20 16 (({ ((tRung .ladder 1) : State) with pow.phase := .ladder } : State).fld rSysLadder 20 16 + 1 : Nat) : State), ?_, ?_, ?_, ?_, ?_, ?_⟩ <;> first | with_reducible rfl | decide +kernel | (unfold State.Inv; decide +kernel),
    by refine ⟨(0 : Nat), (({ ((tRung .ladder 2) : State) with pow.phase := .ladder } : State).fld rSysLadder 20 16 + 1 : Nat), ({ ((tRung .ladder 2) : State) with pow.phase := .ladder } : State), tTheUnitStartsByItsLadder_3_2a, (({ tTheUnitStartsByItsLadder_3_2a with pow := { tTheUnitStartsByItsLadder_3_2a.pow with rungAt := tTheUnitStartsByItsLadder_3_2a.t } } : State).setFld rSysLadder 20 16 (({ ((tRung .ladder 2) : State) with pow.phase := .ladder } : State).fld rSysLadder 20 16 + 1 : Nat) : State), ?_, ?_, ?_, ?_, ?_, ?_⟩ <;> first | with_reducible rfl | decide +kernel | (unfold State.Inv; decide +kernel),
    by refine ⟨(0 : Nat), (({ ((tRung .ladder 4) : State) with pow.phase := .ladder } : State).fld rSysLadder 20 16 + 1 : Nat), ({ ((tRung .ladder 4) : State) with pow.phase := .ladder } : State), tTheUnitStartsByItsLadder_3_3_3a, (({ tTheUnitStartsByItsLadder_3_3_3a with pow := { tTheUnitStartsByItsLadder_3_3_3a.pow with rungAt := tTheUnitStartsByItsLadder_3_3_3a.t } } : State).setFld rSysLadder 20 16 (({ ((tRung .ladder 4) : State) with pow.phase := .ladder } : State).fld rSysLadder 20 16 + 1 : Nat) : State), ?_, ?_, ?_, ?_, ?_, ?_, ?_⟩ <;> first | with_reducible rfl | decide +kernel | (unfold State.Inv; decide +kernel),
    by refine ⟨(0 : Nat), (({ ((tRung .ladder 5) : State) with pow.phase := .ladder } : State).fld rSysLadder 20 16 + 1 : Nat), ({ ((tRung .ladder 5) : State) with pow.phase := .ladder } : State), tTheUnitStartsByItsLadder_3_4a, (({ tTheUnitStartsByItsLadder_3_4a with pow := { tTheUnitStartsByItsLadder_3_4a.pow with rungAt := tTheUnitStartsByItsLadder_3_4a.t } } : State).setFld rSysLadder 20 16 (({ ((tRung .ladder 5) : State) with pow.phase := .ladder } : State).fld rSysLadder 20 16 + 1 : Nat) : State), ?_, ?_, ?_, ?_, ?_, ?_⟩ <;> first | with_reducible rfl | decide +kernel | (unfold State.Inv; decide +kernel)⟩

/-- Of the witness below. -/
def tTheUnitStartsByItsLadder_3_5a : State := (({ ((tRung .ladder 5) : State) with pow.phase := .ladder } : State).until (({ ((tRung .ladder 5) : State) with pow.phase := .ladder } : State).pow.rungAt + usU (max 10 (({ ((tRung .ladder 5) : State) with pow.phase := .ladder } : State).fld rSysLadder 9 0))) : State)

/-- Of the witness below. -/
def tTheUnitStartsByItsLadder_3_6a : State := (({ ((tRung .ladder 6) : State) with pow.phase := .ladder } : State).until (({ ((tRung .ladder 6) : State) with pow.phase := .ladder } : State).pow.rungAt + usU (max 10 (({ ((tRung .ladder 6) : State) with pow.phase := .ladder } : State).fld rSysLadder 9 0))) : State)

/-- Of the witness below. -/
def tTheUnitStartsByItsLadder_3_7a : State := (({ ({ tRung .ladder 6 with boot.secs := [10] } : State) with pow.phase := .ladder } : State).until (({ ({ tRung .ladder 6 with boot.secs := [10] } : State) with pow.phase := .ladder } : State).pow.rungAt + usU (max 10 (({ ({ tRung .ladder 6 with boot.secs := [10] } : State) with pow.phase := .ladder } : State).fld rSysLadder 9 0))) : State)

/-- Of the witness below. -/
def tTheUnitStartsByItsLadder_3_8a : State := ({ ({ ({ tRung .ladder 8 with sysKey := none } : State) with pow.phase := .ladder } : State) with sysKey := none } : State)

/-- Of the witness below. -/
def tTheUnitStartsByItsLadder_3_8b : State := (tTheUnitStartsByItsLadder_3_8a.until (tTheUnitStartsByItsLadder_3_8a.pow.rungAt + usU (max 10 (tTheUnitStartsByItsLadder_3_8a.fld rSysLadder 9 0))) : State)

/-- Of the witness below. -/
def tTheUnitStartsByItsLadder_3_9_0a : State := (({ ((tRung .ladder 8) : State) with pow.phase := .ladder } : State).until (({ ((tRung .ladder 8) : State) with pow.phase := .ladder } : State).pow.rungAt + usU (max 10 (({ ((tRung .ladder 8) : State) with pow.phase := .ladder } : State).fld rSysLadder 9 0))) : State)

/-- Of the witness below. -/
def tTheUnitStartsByItsLadder_3_9_1a : State := (({ ((tRung .ladder 9) : State) with pow.phase := .ladder } : State).until (({ ((tRung .ladder 9) : State) with pow.phase := .ladder } : State).pow.rungAt + usU (max 10 (({ ((tRung .ladder 9) : State) with pow.phase := .ladder } : State).fld rSysLadder 9 0))) : State)

theorem witness_TheUnitStartsByItsLadder_3 :
    (∃ (dt : Nat) (k : Nat) (s : State) (s1 : State) (u : State), s.Inv ∧ s.pow.phase = .ladder ∧ k = s.fld rSysLadder 20 16 + 1 ∧ s1 = s.until (s.pow.rungAt + usU (max 10 (s.fld rSysLadder 9 0))) ∧ u = ({ s1 with pow := { s1.pow with rungAt := s1.t } } : State).setFld rSysLadder 20 16 k ∧ k = 6 ∧ s.hasSec 12 = false) ∧
    (∃ (dt : Nat) (k : Nat) (s : State) (s1 : State) (u : State), s.Inv ∧ s.pow.phase = .ladder ∧ k = s.fld rSysLadder 20 16 + 1 ∧ s1 = s.until (s.pow.rungAt + usU (max 10 (s.fld rSysLadder 9 0))) ∧ u = ({ s1 with pow := { s1.pow with rungAt := s1.t } } : State).setFld rSysLadder 20 16 k ∧ k = 7) ∧
    (∃ (dt : Nat) (k : Nat) (s : State) (s1 : State) (u : State), s.Inv ∧ s.pow.phase = .ladder ∧ k = s.fld rSysLadder 20 16 + 1 ∧ s1 = s.until (s.pow.rungAt + usU (max 10 (s.fld rSysLadder 9 0))) ∧ u = ({ s1 with pow := { s1.pow with rungAt := s1.t } } : State).setFld rSysLadder 20 16 k ∧ k = 7 ∧ s.hasSec 10 = true) ∧
    (∃ (dt : Nat) (k : Nat) (s : State) (s1 : State) (u : State), s.Inv ∧ s.pow.phase = .ladder ∧ k = s.fld rSysLadder 20 16 + 1 ∧ s1 = s.until (s.pow.rungAt + usU (max 10 (s.fld rSysLadder 9 0))) ∧ u = ({ s1 with pow := { s1.pow with rungAt := s1.t } } : State).setFld rSysLadder 20 16 k ∧ (k = 9 ∨ k = 10 ∨ k = 11 ∨ k = 12 ∨ k = 13 ∨ k = 14) ∧ s.sysKey = none) ∧
    (∃ (dt : Nat) (k : Nat) (s : State) (s1 : State) (u : State), s.Inv ∧ s.pow.phase = .ladder ∧ k = s.fld rSysLadder 20 16 + 1 ∧ s1 = s.until (s.pow.rungAt + usU (max 10 (s.fld rSysLadder 9 0))) ∧ u = ({ s1 with pow := { s1.pow with rungAt := s1.t } } : State).setFld rSysLadder 20 16 k ∧ s.sysKey ≠ none ∧ k = 9) ∧
    (∃ (dt : Nat) (k : Nat) (s : State) (s1 : State) (u : State), s.Inv ∧ s.pow.phase = .ladder ∧ k = s.fld rSysLadder 20 16 + 1 ∧ s1 = s.until (s.pow.rungAt + usU (max 10 (s.fld rSysLadder 9 0))) ∧ u = ({ s1 with pow := { s1.pow with rungAt := s1.t } } : State).setFld rSysLadder 20 16 k ∧ s.sysKey ≠ none ∧ k = 10) := ⟨by refine ⟨(0 : Nat), (({ ((tRung .ladder 5) : State) with pow.phase := .ladder } : State).fld rSysLadder 20 16 + 1 : Nat), ({ ((tRung .ladder 5) : State) with pow.phase := .ladder } : State), tTheUnitStartsByItsLadder_3_5a, (({ tTheUnitStartsByItsLadder_3_5a with pow := { tTheUnitStartsByItsLadder_3_5a.pow with rungAt := tTheUnitStartsByItsLadder_3_5a.t } } : State).setFld rSysLadder 20 16 (({ ((tRung .ladder 5) : State) with pow.phase := .ladder } : State).fld rSysLadder 20 16 + 1 : Nat) : State), ?_, ?_, ?_, ?_, ?_, ?_, ?_⟩ <;> first | with_reducible rfl | decide +kernel | (unfold State.Inv; decide +kernel),
    by refine ⟨(0 : Nat), (({ ((tRung .ladder 6) : State) with pow.phase := .ladder } : State).fld rSysLadder 20 16 + 1 : Nat), ({ ((tRung .ladder 6) : State) with pow.phase := .ladder } : State), tTheUnitStartsByItsLadder_3_6a, (({ tTheUnitStartsByItsLadder_3_6a with pow := { tTheUnitStartsByItsLadder_3_6a.pow with rungAt := tTheUnitStartsByItsLadder_3_6a.t } } : State).setFld rSysLadder 20 16 (({ ((tRung .ladder 6) : State) with pow.phase := .ladder } : State).fld rSysLadder 20 16 + 1 : Nat) : State), ?_, ?_, ?_, ?_, ?_, ?_⟩ <;> first | with_reducible rfl | decide +kernel | (unfold State.Inv; decide +kernel),
    by refine ⟨(0 : Nat), (({ ({ tRung .ladder 6 with boot.secs := [10] } : State) with pow.phase := .ladder } : State).fld rSysLadder 20 16 + 1 : Nat), ({ ({ tRung .ladder 6 with boot.secs := [10] } : State) with pow.phase := .ladder } : State), tTheUnitStartsByItsLadder_3_7a, (({ tTheUnitStartsByItsLadder_3_7a with pow := { tTheUnitStartsByItsLadder_3_7a.pow with rungAt := tTheUnitStartsByItsLadder_3_7a.t } } : State).setFld rSysLadder 20 16 (({ ({ tRung .ladder 6 with boot.secs := [10] } : State) with pow.phase := .ladder } : State).fld rSysLadder 20 16 + 1 : Nat) : State), ?_, ?_, ?_, ?_, ?_, ?_, ?_⟩ <;> first | with_reducible rfl | decide +kernel | (unfold State.Inv; decide +kernel),
    by refine ⟨(0 : Nat), (tTheUnitStartsByItsLadder_3_8a.fld rSysLadder 20 16 + 1 : Nat), tTheUnitStartsByItsLadder_3_8a, tTheUnitStartsByItsLadder_3_8b, (({ tTheUnitStartsByItsLadder_3_8b with pow := { tTheUnitStartsByItsLadder_3_8b.pow with rungAt := tTheUnitStartsByItsLadder_3_8b.t } } : State).setFld rSysLadder 20 16 (tTheUnitStartsByItsLadder_3_8a.fld rSysLadder 20 16 + 1 : Nat) : State), ?_, ?_, ?_, ?_, ?_, ?_, ?_⟩ <;> first | with_reducible rfl | decide +kernel | (unfold State.Inv; decide +kernel),
    by refine ⟨(0 : Nat), (({ ((tRung .ladder 8) : State) with pow.phase := .ladder } : State).fld rSysLadder 20 16 + 1 : Nat), ({ ((tRung .ladder 8) : State) with pow.phase := .ladder } : State), tTheUnitStartsByItsLadder_3_9_0a, (({ tTheUnitStartsByItsLadder_3_9_0a with pow := { tTheUnitStartsByItsLadder_3_9_0a.pow with rungAt := tTheUnitStartsByItsLadder_3_9_0a.t } } : State).setFld rSysLadder 20 16 (({ ((tRung .ladder 8) : State) with pow.phase := .ladder } : State).fld rSysLadder 20 16 + 1 : Nat) : State), ?_, ?_, ?_, ?_, ?_, ?_, ?_⟩ <;> first | with_reducible rfl | decide +kernel | (unfold State.Inv; decide +kernel),
    by refine ⟨(0 : Nat), (({ ((tRung .ladder 9) : State) with pow.phase := .ladder } : State).fld rSysLadder 20 16 + 1 : Nat), ({ ((tRung .ladder 9) : State) with pow.phase := .ladder } : State), tTheUnitStartsByItsLadder_3_9_1a, (({ tTheUnitStartsByItsLadder_3_9_1a with pow := { tTheUnitStartsByItsLadder_3_9_1a.pow with rungAt := tTheUnitStartsByItsLadder_3_9_1a.t } } : State).setFld rSysLadder 20 16 (({ ((tRung .ladder 9) : State) with pow.phase := .ladder } : State).fld rSysLadder 20 16 + 1 : Nat) : State), ?_, ?_, ?_, ?_, ?_, ?_, ?_⟩ <;> first | with_reducible rfl | decide +kernel | (unfold State.Inv; decide +kernel)⟩

/-- Of the witness below. -/
def tTheUnitStartsByItsLadder_3_9_2a : State := (({ ((tRung .ladder 10) : State) with pow.phase := .ladder } : State).until (({ ((tRung .ladder 10) : State) with pow.phase := .ladder } : State).pow.rungAt + usU (max 10 (({ ((tRung .ladder 10) : State) with pow.phase := .ladder } : State).fld rSysLadder 9 0))) : State)

/-- Of the witness below. -/
def tTheUnitStartsByItsLadder_3_9_3a : State := (({ ((tRung .ladder 11) : State) with pow.phase := .ladder } : State).until (({ ((tRung .ladder 11) : State) with pow.phase := .ladder } : State).pow.rungAt + usU (max 10 (({ ((tRung .ladder 11) : State) with pow.phase := .ladder } : State).fld rSysLadder 9 0))) : State)

/-- Of the witness below. -/
def tTheUnitStartsByItsLadder_3_9_4a : State := (({ ({ tRung .ladder 11 with boot.secs := [7] } : State) with pow.phase := .ladder } : State).until (({ ({ tRung .ladder 11 with boot.secs := [7] } : State) with pow.phase := .ladder } : State).pow.rungAt + usU (max 10 (({ ({ tRung .ladder 11 with boot.secs := [7] } : State) with pow.phase := .ladder } : State).fld rSysLadder 9 0))) : State)

/-- Of the witness below. -/
def tTheUnitStartsByItsLadder_3_9_5a : State := (({ ((tRung .ladder 12) : State) with pow.phase := .ladder } : State).until (({ ((tRung .ladder 12) : State) with pow.phase := .ladder } : State).pow.rungAt + usU (max 10 (({ ((tRung .ladder 12) : State) with pow.phase := .ladder } : State).fld rSysLadder 9 0))) : State)

/-- Of the witness below. -/
def tTheUnitStartsByItsLadder_3_9_6a : State := (({ ((tRung .ladder 13) : State) with pow.phase := .ladder } : State).until (({ ((tRung .ladder 13) : State) with pow.phase := .ladder } : State).pow.rungAt + usU (max 10 (({ ((tRung .ladder 13) : State) with pow.phase := .ladder } : State).fld rSysLadder 9 0))) : State)

/-- Of the witness below. -/
def tTheUnitStartsByItsLadder_3_9_7a : State := (({ ({ tRung .ladder 13 with boot.secs := [5] } : State) with pow.phase := .ladder } : State).until (({ ({ tRung .ladder 13 with boot.secs := [5] } : State) with pow.phase := .ladder } : State).pow.rungAt + usU (max 10 (({ ({ tRung .ladder 13 with boot.secs := [5] } : State) with pow.phase := .ladder } : State).fld rSysLadder 9 0))) : State)

theorem witness_TheUnitStartsByItsLadder_4 :
    (∃ (dt : Nat) (k : Nat) (s : State) (s1 : State) (u : State), s.Inv ∧ s.pow.phase = .ladder ∧ k = s.fld rSysLadder 20 16 + 1 ∧ s1 = s.until (s.pow.rungAt + usU (max 10 (s.fld rSysLadder 9 0))) ∧ u = ({ s1 with pow := { s1.pow with rungAt := s1.t } } : State).setFld rSysLadder 20 16 k ∧ s.sysKey ≠ none ∧ k = 11) ∧
    (∃ (dt : Nat) (k : Nat) (s : State) (s1 : State) (u : State), s.Inv ∧ s.pow.phase = .ladder ∧ k = s.fld rSysLadder 20 16 + 1 ∧ s1 = s.until (s.pow.rungAt + usU (max 10 (s.fld rSysLadder 9 0))) ∧ u = ({ s1 with pow := { s1.pow with rungAt := s1.t } } : State).setFld rSysLadder 20 16 k ∧ s.sysKey ≠ none ∧ k = 12 ∧ s.hasSec 7 = false) ∧
    (∃ (dt : Nat) (k : Nat) (s : State) (s1 : State) (u : State), s.Inv ∧ s.pow.phase = .ladder ∧ k = s.fld rSysLadder 20 16 + 1 ∧ s1 = s.until (s.pow.rungAt + usU (max 10 (s.fld rSysLadder 9 0))) ∧ u = ({ s1 with pow := { s1.pow with rungAt := s1.t } } : State).setFld rSysLadder 20 16 k ∧ s.sysKey ≠ none ∧ k = 12 ∧ s.hasSec 7 = true) ∧
    (∃ (dt : Nat) (k : Nat) (s : State) (s1 : State) (u : State), s.Inv ∧ s.pow.phase = .ladder ∧ k = s.fld rSysLadder 20 16 + 1 ∧ s1 = s.until (s.pow.rungAt + usU (max 10 (s.fld rSysLadder 9 0))) ∧ u = ({ s1 with pow := { s1.pow with rungAt := s1.t } } : State).setFld rSysLadder 20 16 k ∧ s.sysKey ≠ none ∧ k = 13) ∧
    (∃ (dt : Nat) (k : Nat) (s : State) (s1 : State) (u : State), s.Inv ∧ s.pow.phase = .ladder ∧ k = s.fld rSysLadder 20 16 + 1 ∧ s1 = s.until (s.pow.rungAt + usU (max 10 (s.fld rSysLadder 9 0))) ∧ u = ({ s1 with pow := { s1.pow with rungAt := s1.t } } : State).setFld rSysLadder 20 16 k ∧ s.sysKey ≠ none ∧ k = 14 ∧ s.hasSec 5 = false) ∧
    (∃ (dt : Nat) (k : Nat) (s : State) (s1 : State) (u : State), s.Inv ∧ s.pow.phase = .ladder ∧ k = s.fld rSysLadder 20 16 + 1 ∧ s1 = s.until (s.pow.rungAt + usU (max 10 (s.fld rSysLadder 9 0))) ∧ u = ({ s1 with pow := { s1.pow with rungAt := s1.t } } : State).setFld rSysLadder 20 16 k ∧ s.sysKey ≠ none ∧ k = 14 ∧ s.hasSec 5 = true) := ⟨by refine ⟨(0 : Nat), (({ ((tRung .ladder 10) : State) with pow.phase := .ladder } : State).fld rSysLadder 20 16 + 1 : Nat), ({ ((tRung .ladder 10) : State) with pow.phase := .ladder } : State), tTheUnitStartsByItsLadder_3_9_2a, (({ tTheUnitStartsByItsLadder_3_9_2a with pow := { tTheUnitStartsByItsLadder_3_9_2a.pow with rungAt := tTheUnitStartsByItsLadder_3_9_2a.t } } : State).setFld rSysLadder 20 16 (({ ((tRung .ladder 10) : State) with pow.phase := .ladder } : State).fld rSysLadder 20 16 + 1 : Nat) : State), ?_, ?_, ?_, ?_, ?_, ?_, ?_⟩ <;> first | with_reducible rfl | decide +kernel | (unfold State.Inv; decide +kernel),
    by refine ⟨(0 : Nat), (({ ((tRung .ladder 11) : State) with pow.phase := .ladder } : State).fld rSysLadder 20 16 + 1 : Nat), ({ ((tRung .ladder 11) : State) with pow.phase := .ladder } : State), tTheUnitStartsByItsLadder_3_9_3a, (({ tTheUnitStartsByItsLadder_3_9_3a with pow := { tTheUnitStartsByItsLadder_3_9_3a.pow with rungAt := tTheUnitStartsByItsLadder_3_9_3a.t } } : State).setFld rSysLadder 20 16 (({ ((tRung .ladder 11) : State) with pow.phase := .ladder } : State).fld rSysLadder 20 16 + 1 : Nat) : State), ?_, ?_, ?_, ?_, ?_, ?_, ?_, ?_⟩ <;> first | with_reducible rfl | decide +kernel | (unfold State.Inv; decide +kernel),
    by refine ⟨(0 : Nat), (({ ({ tRung .ladder 11 with boot.secs := [7] } : State) with pow.phase := .ladder } : State).fld rSysLadder 20 16 + 1 : Nat), ({ ({ tRung .ladder 11 with boot.secs := [7] } : State) with pow.phase := .ladder } : State), tTheUnitStartsByItsLadder_3_9_4a, (({ tTheUnitStartsByItsLadder_3_9_4a with pow := { tTheUnitStartsByItsLadder_3_9_4a.pow with rungAt := tTheUnitStartsByItsLadder_3_9_4a.t } } : State).setFld rSysLadder 20 16 (({ ({ tRung .ladder 11 with boot.secs := [7] } : State) with pow.phase := .ladder } : State).fld rSysLadder 20 16 + 1 : Nat) : State), ?_, ?_, ?_, ?_, ?_, ?_, ?_, ?_⟩ <;> first | with_reducible rfl | decide +kernel | (unfold State.Inv; decide +kernel),
    by refine ⟨(0 : Nat), (({ ((tRung .ladder 12) : State) with pow.phase := .ladder } : State).fld rSysLadder 20 16 + 1 : Nat), ({ ((tRung .ladder 12) : State) with pow.phase := .ladder } : State), tTheUnitStartsByItsLadder_3_9_5a, (({ tTheUnitStartsByItsLadder_3_9_5a with pow := { tTheUnitStartsByItsLadder_3_9_5a.pow with rungAt := tTheUnitStartsByItsLadder_3_9_5a.t } } : State).setFld rSysLadder 20 16 (({ ((tRung .ladder 12) : State) with pow.phase := .ladder } : State).fld rSysLadder 20 16 + 1 : Nat) : State), ?_, ?_, ?_, ?_, ?_, ?_, ?_⟩ <;> first | with_reducible rfl | decide +kernel | (unfold State.Inv; decide +kernel),
    by refine ⟨(0 : Nat), (({ ((tRung .ladder 13) : State) with pow.phase := .ladder } : State).fld rSysLadder 20 16 + 1 : Nat), ({ ((tRung .ladder 13) : State) with pow.phase := .ladder } : State), tTheUnitStartsByItsLadder_3_9_6a, (({ tTheUnitStartsByItsLadder_3_9_6a with pow := { tTheUnitStartsByItsLadder_3_9_6a.pow with rungAt := tTheUnitStartsByItsLadder_3_9_6a.t } } : State).setFld rSysLadder 20 16 (({ ((tRung .ladder 13) : State) with pow.phase := .ladder } : State).fld rSysLadder 20 16 + 1 : Nat) : State), ?_, ?_, ?_, ?_, ?_, ?_, ?_, ?_⟩ <;> first | with_reducible rfl | decide +kernel | (unfold State.Inv; decide +kernel),
    by refine ⟨(0 : Nat), (({ ({ tRung .ladder 13 with boot.secs := [5] } : State) with pow.phase := .ladder } : State).fld rSysLadder 20 16 + 1 : Nat), ({ ({ tRung .ladder 13 with boot.secs := [5] } : State) with pow.phase := .ladder } : State), tTheUnitStartsByItsLadder_3_9_7a, (({ tTheUnitStartsByItsLadder_3_9_7a with pow := { tTheUnitStartsByItsLadder_3_9_7a.pow with rungAt := tTheUnitStartsByItsLadder_3_9_7a.t } } : State).setFld rSysLadder 20 16 (({ ({ tRung .ladder 13 with boot.secs := [5] } : State) with pow.phase := .ladder } : State).fld rSysLadder 20 16 + 1 : Nat) : State), ?_, ?_, ?_, ?_, ?_, ?_, ?_, ?_⟩ <;> first | with_reducible rfl | decide +kernel | (unfold State.Inv; decide +kernel)⟩

/-- Of the witness below. -/
def tTheUnitStartsByItsLadder_3_10_0a : State := ({ ({ ({ tRung .ladder 15 with sysKey := none } : State) with pow.phase := .ladder } : State) with sysKey := none } : State)

/-- Of the witness below. -/
def tTheUnitStartsByItsLadder_3_10_0b : State := (tTheUnitStartsByItsLadder_3_10_0a.until (tTheUnitStartsByItsLadder_3_10_0a.pow.rungAt + usU (max 10 (tTheUnitStartsByItsLadder_3_10_0a.fld rSysLadder 9 0))) : State)

/-- Of the witness below. -/
def tTheUnitStartsByItsLadder_3_10_1a : State := (({ ({ tRung .ladder 15 with boot.carry := true } : State) with pow.phase := .ladder } : State).until (({ ({ tRung .ladder 15 with boot.carry := true } : State) with pow.phase := .ladder } : State).pow.rungAt + usU (max 10 (({ ({ tRung .ladder 15 with boot.carry := true } : State) with pow.phase := .ladder } : State).fld rSysLadder 9 0))) : State)

/-- Of the witness below. -/
def tTheUnitStartsByItsLadder_3_10_2a : State := (({ ((tRung .ladder 15) : State) with pow.phase := .ladder } : State).until (({ ((tRung .ladder 15) : State) with pow.phase := .ladder } : State).pow.rungAt + usU (max 10 (({ ((tRung .ladder 15) : State) with pow.phase := .ladder } : State).fld rSysLadder 9 0))) : State)

/-- Of the witness below. -/
def tTheUnitStartsByItsLadder_4_0a : State := (({ ((tRung .alarmHold 0) : State) with pow.phase := .alarmHold } : State).until (({ ((tRung .alarmHold 0) : State) with pow.phase := .alarmHold } : State).pow.rungAt + usU (max 10 (({ ((tRung .alarmHold 0) : State) with pow.phase := .alarmHold } : State).fld rSysLadder 9 0))) : State)

/-- Of the witness below. -/
def tTheUnitStartsByItsLadder_4_1a : State := (({ ((tRung .alarmHold 7) : State) with pow.phase := .alarmHold } : State).until (({ ((tRung .alarmHold 7) : State) with pow.phase := .alarmHold } : State).pow.rungAt + usU (max 10 (({ ((tRung .alarmHold 7) : State) with pow.phase := .alarmHold } : State).fld rSysLadder 9 0))) : State)

/-- Of the witness below. -/
def tTheUnitStartsByItsLadder_4_2a : State := (({ ((tRung .alarmHold 3) : State) with pow.phase := .alarmHold } : State).until (({ ((tRung .alarmHold 3) : State) with pow.phase := .alarmHold } : State).pow.rungAt + usU (max 10 (({ ((tRung .alarmHold 3) : State) with pow.phase := .alarmHold } : State).fld rSysLadder 9 0))) : State)

theorem witness_TheUnitStartsByItsLadder_5 :
    (∃ (dt : Nat) (k : Nat) (s : State) (s1 : State) (u : State) (s2 : State) (v : State), s.Inv ∧ s.pow.phase = .ladder ∧ k = s.fld rSysLadder 20 16 + 1 ∧ s1 = s.until (s.pow.rungAt + usU (max 10 (s.fld rSysLadder 9 0))) ∧ u = ({ s1 with pow := { s1.pow with rungAt := s1.t } } : State).setFld rSysLadder 20 16 k ∧ k = 16 ∧ s2 = s1.advance dt ∧ v = ({ s2 with pow := { s2.pow with rungAt := s2.t } } : State).setFld rSysLadder 20 16 16 ∧ s.sysKey = none) ∧
    (∃ (dt : Nat) (k : Nat) (s : State) (s1 : State) (u : State) (s2 : State) (v : State), s.Inv ∧ s.pow.phase = .ladder ∧ k = s.fld rSysLadder 20 16 + 1 ∧ s1 = s.until (s.pow.rungAt + usU (max 10 (s.fld rSysLadder 9 0))) ∧ u = ({ s1 with pow := { s1.pow with rungAt := s1.t } } : State).setFld rSysLadder 20 16 k ∧ k = 16 ∧ s2 = s1.advance dt ∧ v = ({ s2 with pow := { s2.pow with rungAt := s2.t } } : State).setFld rSysLadder 20 16 16 ∧ s.sysKey ≠ none ∧ v.restoreContext.boot.carry = true) ∧
    (∃ (dt : Nat) (k : Nat) (s : State) (s1 : State) (u : State) (s2 : State) (v : State), s.Inv ∧ s.pow.phase = .ladder ∧ k = s.fld rSysLadder 20 16 + 1 ∧ s1 = s.until (s.pow.rungAt + usU (max 10 (s.fld rSysLadder 9 0))) ∧ u = ({ s1 with pow := { s1.pow with rungAt := s1.t } } : State).setFld rSysLadder 20 16 k ∧ k = 16 ∧ s2 = s1.advance dt ∧ v = ({ s2 with pow := { s2.pow with rungAt := s2.t } } : State).setFld rSysLadder 20 16 16 ∧ s.sysKey ≠ none ∧ v.restoreContext.boot.carry = false) ∧
    (∃ (dt : Nat) (k : Nat) (s : State) (s1 : State) (u : State), s.pow.phase = .alarmHold ∧ k = s.fld rSysLadder 20 16 + 1 ∧ s1 = s.until (s.pow.rungAt + usU (max 10 (s.fld rSysLadder 9 0))) ∧ u = ({ s1 with pow := { s1.pow with rungAt := s1.t } } : State).setFld rSysLadder 20 16 k ∧ k = 1) ∧
    (∃ (dt : Nat) (k : Nat) (s : State) (s1 : State) (u : State), s.pow.phase = .alarmHold ∧ k = s.fld rSysLadder 20 16 + 1 ∧ s1 = s.until (s.pow.rungAt + usU (max 10 (s.fld rSysLadder 9 0))) ∧ u = ({ s1 with pow := { s1.pow with rungAt := s1.t } } : State).setFld rSysLadder 20 16 k ∧ k = 8) ∧
    (∃ (dt : Nat) (k : Nat) (s : State) (s1 : State) (u : State), s.pow.phase = .alarmHold ∧ k = s.fld rSysLadder 20 16 + 1 ∧ s1 = s.until (s.pow.rungAt + usU (max 10 (s.fld rSysLadder 9 0))) ∧ u = ({ s1 with pow := { s1.pow with rungAt := s1.t } } : State).setFld rSysLadder 20 16 k ∧ k ≠ 1 ∧ k ≠ 2 ∧ k ≠ 8) := ⟨by refine ⟨(0 : Nat), (tTheUnitStartsByItsLadder_3_10_0a.fld rSysLadder 20 16 + 1 : Nat), tTheUnitStartsByItsLadder_3_10_0a, tTheUnitStartsByItsLadder_3_10_0b, (({ tTheUnitStartsByItsLadder_3_10_0b with pow := { tTheUnitStartsByItsLadder_3_10_0b.pow with rungAt := tTheUnitStartsByItsLadder_3_10_0b.t } } : State).setFld rSysLadder 20 16 (tTheUnitStartsByItsLadder_3_10_0a.fld rSysLadder 20 16 + 1 : Nat) : State), (tTheUnitStartsByItsLadder_3_10_0b.advance (0 : Nat) : State), (({ (tTheUnitStartsByItsLadder_3_10_0b.advance (0 : Nat) : State) with pow := { (tTheUnitStartsByItsLadder_3_10_0b.advance (0 : Nat) : State).pow with rungAt := (tTheUnitStartsByItsLadder_3_10_0b.advance (0 : Nat) : State).t } } : State).setFld rSysLadder 20 16 16 : State), ?_, ?_, ?_, ?_, ?_, ?_, ?_, ?_, ?_⟩ <;> first | with_reducible rfl | decide +kernel | (unfold State.Inv; decide +kernel),
    by refine ⟨(0 : Nat), (({ ({ tRung .ladder 15 with boot.carry := true } : State) with pow.phase := .ladder } : State).fld rSysLadder 20 16 + 1 : Nat), ({ ({ tRung .ladder 15 with boot.carry := true } : State) with pow.phase := .ladder } : State), tTheUnitStartsByItsLadder_3_10_1a, (({ tTheUnitStartsByItsLadder_3_10_1a with pow := { tTheUnitStartsByItsLadder_3_10_1a.pow with rungAt := tTheUnitStartsByItsLadder_3_10_1a.t } } : State).setFld rSysLadder 20 16 (({ ({ tRung .ladder 15 with boot.carry := true } : State) with pow.phase := .ladder } : State).fld rSysLadder 20 16 + 1 : Nat) : State), (tTheUnitStartsByItsLadder_3_10_1a.advance (0 : Nat) : State), (({ (tTheUnitStartsByItsLadder_3_10_1a.advance (0 : Nat) : State) with pow := { (tTheUnitStartsByItsLadder_3_10_1a.advance (0 : Nat) : State).pow with rungAt := (tTheUnitStartsByItsLadder_3_10_1a.advance (0 : Nat) : State).t } } : State).setFld rSysLadder 20 16 16 : State), ?_, ?_, ?_, ?_, ?_, ?_, ?_, ?_, ?_, ?_⟩ <;> first | with_reducible rfl | decide +kernel | (unfold State.Inv; decide +kernel),
    by refine ⟨(0 : Nat), (({ ((tRung .ladder 15) : State) with pow.phase := .ladder } : State).fld rSysLadder 20 16 + 1 : Nat), ({ ((tRung .ladder 15) : State) with pow.phase := .ladder } : State), tTheUnitStartsByItsLadder_3_10_2a, (({ tTheUnitStartsByItsLadder_3_10_2a with pow := { tTheUnitStartsByItsLadder_3_10_2a.pow with rungAt := tTheUnitStartsByItsLadder_3_10_2a.t } } : State).setFld rSysLadder 20 16 (({ ((tRung .ladder 15) : State) with pow.phase := .ladder } : State).fld rSysLadder 20 16 + 1 : Nat) : State), (tTheUnitStartsByItsLadder_3_10_2a.advance (0 : Nat) : State), (({ (tTheUnitStartsByItsLadder_3_10_2a.advance (0 : Nat) : State) with pow := { (tTheUnitStartsByItsLadder_3_10_2a.advance (0 : Nat) : State).pow with rungAt := (tTheUnitStartsByItsLadder_3_10_2a.advance (0 : Nat) : State).t } } : State).setFld rSysLadder 20 16 16 : State), ?_, ?_, ?_, ?_, ?_, ?_, ?_, ?_, ?_, ?_⟩ <;> first | with_reducible rfl | decide +kernel | (unfold State.Inv; decide +kernel),
    by refine ⟨(0 : Nat), (({ ((tRung .alarmHold 0) : State) with pow.phase := .alarmHold } : State).fld rSysLadder 20 16 + 1 : Nat), ({ ((tRung .alarmHold 0) : State) with pow.phase := .alarmHold } : State), tTheUnitStartsByItsLadder_4_0a, (({ tTheUnitStartsByItsLadder_4_0a with pow := { tTheUnitStartsByItsLadder_4_0a.pow with rungAt := tTheUnitStartsByItsLadder_4_0a.t } } : State).setFld rSysLadder 20 16 (({ ((tRung .alarmHold 0) : State) with pow.phase := .alarmHold } : State).fld rSysLadder 20 16 + 1 : Nat) : State), ?_, ?_, ?_, ?_, ?_⟩ <;> first | with_reducible rfl | decide +kernel,
    by refine ⟨(0 : Nat), (({ ((tRung .alarmHold 7) : State) with pow.phase := .alarmHold } : State).fld rSysLadder 20 16 + 1 : Nat), ({ ((tRung .alarmHold 7) : State) with pow.phase := .alarmHold } : State), tTheUnitStartsByItsLadder_4_1a, (({ tTheUnitStartsByItsLadder_4_1a with pow := { tTheUnitStartsByItsLadder_4_1a.pow with rungAt := tTheUnitStartsByItsLadder_4_1a.t } } : State).setFld rSysLadder 20 16 (({ ((tRung .alarmHold 7) : State) with pow.phase := .alarmHold } : State).fld rSysLadder 20 16 + 1 : Nat) : State), ?_, ?_, ?_, ?_, ?_⟩ <;> first | with_reducible rfl | decide +kernel,
    by refine ⟨(0 : Nat), (({ ((tRung .alarmHold 3) : State) with pow.phase := .alarmHold } : State).fld rSysLadder 20 16 + 1 : Nat), ({ ((tRung .alarmHold 3) : State) with pow.phase := .alarmHold } : State), tTheUnitStartsByItsLadder_4_2a, (({ tTheUnitStartsByItsLadder_4_2a with pow := { tTheUnitStartsByItsLadder_4_2a.pow with rungAt := tTheUnitStartsByItsLadder_4_2a.t } } : State).setFld rSysLadder 20 16 (({ ((tRung .alarmHold 3) : State) with pow.phase := .alarmHold } : State).fld rSysLadder 20 16 + 1 : Nat) : State), ?_, ?_, ?_, ?_, ?_, ?_, ?_⟩ <;> first | with_reducible rfl | decide +kernel⟩

/-- Of the witness below. -/
def tTheUnitStartsByItsLadder_4_3a : State := (({ ((tRung .alarmHold 1) : State) with pow.phase := .alarmHold } : State).until (({ ((tRung .alarmHold 1) : State) with pow.phase := .alarmHold } : State).pow.rungAt + usU (max 10 (({ ((tRung .alarmHold 1) : State) with pow.phase := .alarmHold } : State).fld rSysLadder 9 0))) : State)

theorem witness_TheUnitStartsByItsLadder_6 :
    ∃ (dt : Nat) (k : Nat) (s : State) (s1 : State) (u : State), s.pow.phase = .alarmHold ∧ k = s.fld rSysLadder 20 16 + 1 ∧ s1 = s.until (s.pow.rungAt + usU (max 10 (s.fld rSysLadder 9 0))) ∧ u = ({ s1 with pow := { s1.pow with rungAt := s1.t } } : State).setFld rSysLadder 20 16 k ∧ k = 2 := by refine ⟨(0 : Nat), (({ ((tRung .alarmHold 1) : State) with pow.phase := .alarmHold } : State).fld rSysLadder 20 16 + 1 : Nat), ({ ((tRung .alarmHold 1) : State) with pow.phase := .alarmHold } : State), tTheUnitStartsByItsLadder_4_3a, (({ tTheUnitStartsByItsLadder_4_3a with pow := { tTheUnitStartsByItsLadder_4_3a.pow with rungAt := tTheUnitStartsByItsLadder_4_3a.t } } : State).setFld rSysLadder 20 16 (({ ((tRung .alarmHold 1) : State) with pow.phase := .alarmHold } : State).fld rSysLadder 20 16 + 1 : Nat) : State), ?_, ?_, ?_, ?_, ?_⟩ <;> first | with_reducible rfl | decide +kernel

theorem witness_RecoveryAnswersItsRequests_1 :
    (∃ (fr : Nat → Nat → Bytes → Emission) (s : State), fr = (fun op st d => .recovery (le 1 0xA5 ++ (le 1 (op + 128) ++ le 2 (le 1 st ++ d).length ++ (le 1 st ++ d)) ++ le 4 (crc32 (le 1 (op + 128) ++ le 2 (le 1 st ++ d).length ++ (le 1 st ++ d))))) ∧ s.pow.phase ≠ .recovery ∧ s.pow.phase ≠ .alarmHold ∧ s.pow.phase ≠ .scrapped) ∧
    (∃ (fr : Nat → Nat → Bytes → Emission) (s : State) (b : Bytes), fr = (fun op st d => .recovery (le 1 0xA5 ++ (le 1 (op + 128) ++ le 2 (le 1 st ++ d).length ++ (le 1 st ++ d)) ++ le 4 (crc32 (le 1 (op + 128) ++ le 2 (le 1 st ++ d).length ++ (le 1 st ++ d))))) ∧ s.pow.phase ≠ .recovery ∧ s.pow.phase ≠ .alarmHold) ∧
    (∃ (fr : Nat → Nat → Bytes → Emission) (s : State) (k : Nat) (o : Nat) (d : Bytes), fr = (fun op st d => .recovery (le 1 0xA5 ++ (le 1 (op + 128) ++ le 2 (le 1 st ++ d).length ++ (le 1 st ++ d)) ++ le 4 (crc32 (le 1 (op + 128) ++ le 2 (le 1 st ++ d).length ++ (le 1 st ++ d))))) ∧ s.pow.phase ≠ .recovery) ∧
    (∃ (fr : Nat → Nat → Bytes → Emission) (s : State) (o : Nat) (d : Bytes), fr = (fun op st d => .recovery (le 1 0xA5 ++ (le 1 (op + 128) ++ le 2 (le 1 st ++ d).length ++ (le 1 st ++ d)) ++ le 4 (crc32 (le 1 (op + 128) ++ le 2 (le 1 st ++ d).length ++ (le 1 st ++ d))))) ∧ s.pow.phase ≠ .recovery) ∧
    (∃ (fr : Nat → Nat → Bytes → Emission) (s : State) (k : Nat), fr = (fun op st d => .recovery (le 1 0xA5 ++ (le 1 (op + 128) ++ le 2 (le 1 st ++ d).length ++ (le 1 st ++ d)) ++ le 4 (crc32 (le 1 (op + 128) ++ le 2 (le 1 st ++ d).length ++ (le 1 st ++ d))))) ∧ s.pow.phase ≠ .recovery) ∧
    (∃ (fr : Nat → Nat → Bytes → Emission) (s : State), fr = (fun op st d => .recovery (le 1 0xA5 ++ (le 1 (op + 128) ++ le 2 (le 1 st ++ d).length ++ (le 1 st ++ d)) ++ le 4 (crc32 (le 1 (op + 128) ++ le 2 (le 1 st ++ d).length ++ (le 1 st ++ d))))) ∧ (s.pow.phase = .recovery ∨ s.pow.phase = .alarmHold ∨ s.pow.phase = .scrapped)) := ⟨by refine ⟨((fun op st d => .recovery (le 1 0xA5 ++ (le 1 (op + 128) ++ le 2 (le 1 st ++ d).length ++ (le 1 st ++ d)) ++ le 4 (crc32 (le 1 (op + 128) ++ le 2 (le 1 st ++ d).length ++ (le 1 st ++ d))))) : Nat → Nat → Bytes → Emission), tServe, ?_, ?_, ?_, ?_⟩ <;> first | with_reducible rfl | decide +kernel,
    by refine ⟨((fun op st d => .recovery (le 1 0xA5 ++ (le 1 (op + 128) ++ le 2 (le 1 st ++ d).length ++ (le 1 st ++ d)) ++ le 4 (crc32 (le 1 (op + 128) ++ le 2 (le 1 st ++ d).length ++ (le 1 st ++ d))))) : Nat → Nat → Bytes → Emission), tServe, ([1, 2, 3] : Bytes), ?_, ?_, ?_⟩ <;> first | with_reducible rfl | decide +kernel,
    by refine ⟨((fun op st d => .recovery (le 1 0xA5 ++ (le 1 (op + 128) ++ le 2 (le 1 st ++ d).length ++ (le 1 st ++ d)) ++ le 4 (crc32 (le 1 (op + 128) ++ le 2 (le 1 st ++ d).length ++ (le 1 st ++ d))))) : Nat → Nat → Bytes → Emission), tServe, 1, 1, [1, 2, 3], ?_, ?_⟩ <;> first | with_reducible rfl | decide +kernel,
    by refine ⟨((fun op st d => .recovery (le 1 0xA5 ++ (le 1 (op + 128) ++ le 2 (le 1 st ++ d).length ++ (le 1 st ++ d)) ++ le 4 (crc32 (le 1 (op + 128) ++ le 2 (le 1 st ++ d).length ++ (le 1 st ++ d))))) : Nat → Nat → Bytes → Emission), tServe, 1, [1, 2, 3], ?_, ?_⟩ <;> first | with_reducible rfl | decide +kernel,
    by refine ⟨((fun op st d => .recovery (le 1 0xA5 ++ (le 1 (op + 128) ++ le 2 (le 1 st ++ d).length ++ (le 1 st ++ d)) ++ le 4 (crc32 (le 1 (op + 128) ++ le 2 (le 1 st ++ d).length ++ (le 1 st ++ d))))) : Nat → Nat → Bytes → Emission), tServe, (1 : Nat), ?_, ?_⟩ <;> first | with_reducible rfl | decide +kernel,
    by refine ⟨((fun op st d => .recovery (le 1 0xA5 ++ (le 1 (op + 128) ++ le 2 (le 1 st ++ d).length ++ (le 1 st ++ d)) ++ le 4 (crc32 (le 1 (op + 128) ++ le 2 (le 1 st ++ d).length ++ (le 1 st ++ d))))) : Nat → Nat → Bytes → Emission), ({ tServe with pow.phase := .recovery } : State), ?_, ?_⟩ <;> first | with_reducible rfl | decide +kernel⟩

theorem witness_RecoveryAnswersItsRequests_2 :
    (∃ (fr : Nat → Nat → Bytes → Emission) (slot : Nat) (off : Nat) (data : Bytes) (s : State), fr = (fun op st d => .recovery (le 1 0xA5 ++ (le 1 (op + 128) ++ le 2 (le 1 st ++ d).length ++ (le 1 st ++ d)) ++ le 4 (crc32 (le 1 (op + 128) ++ le 2 (le 1 st ++ d).length ++ (le 1 st ++ d))))) ∧ s.pow.phase = .recovery ∧ (data.length = 0 ∨ 4096 < data.length)) ∧
    (∃ (fr : Nat → Nat → Bytes → Emission) (slot : Nat) (off : Nat) (data : Bytes) (s : State), fr = (fun op st d => .recovery (le 1 0xA5 ++ (le 1 (op + 128) ++ le 2 (le 1 st ++ d).length ++ (le 1 st ++ d)) ++ le 4 (crc32 (le 1 (op + 128) ++ le 2 (le 1 st ++ d).length ++ (le 1 st ++ d))))) ∧ s.pow.phase = .recovery ∧ 1 ≤ data.length ∧ data.length ≤ 4096 ∧ (1 < slot ∨ 2162688 < off + data.length ∨ (slot = s.nor.pref ∧ s.judgeSlotFw slot = 0))) ∧
    (∃ (fr : Nat → Nat → Bytes → Emission) (slot : Nat) (off : Nat) (data : Bytes) (s : State), fr = (fun op st d => .recovery (le 1 0xA5 ++ (le 1 (op + 128) ++ le 2 (le 1 st ++ d).length ++ (le 1 st ++ d)) ++ le 4 (crc32 (le 1 (op + 128) ++ le 2 (le 1 st ++ d).length ++ (le 1 st ++ d))))) ∧ s.pow.phase = .recovery ∧ 1 ≤ data.length ∧ data.length ≤ 4096 ∧ 1048576 < off + data.length) ∧
    (∃ (fr : Nat → Nat → Bytes → Emission) (slot : Nat) (off : Nat) (data : Bytes) (s : State), fr = (fun op st d => .recovery (le 1 0xA5 ++ (le 1 (op + 128) ++ le 2 (le 1 st ++ d).length ++ (le 1 st ++ d)) ++ le 4 (crc32 (le 1 (op + 128) ++ le 2 (le 1 st ++ d).length ++ (le 1 st ++ d))))) ∧ s.pow.phase = .recovery ∧ 1 ≤ data.length ∧ data.length ≤ 4096 ∧ slot ≤ 1 ∧ off + data.length ≤ 2162688 ∧ (slot ≠ s.nor.pref ∨ s.judgeSlotFw slot ≠ 0)) ∧
    (∃ (fr : Nat → Nat → Bytes → Emission) (slot : Nat) (off : Nat) (data : Bytes) (s : State), fr = (fun op st d => .recovery (le 1 0xA5 ++ (le 1 (op + 128) ++ le 2 (le 1 st ++ d).length ++ (le 1 st ++ d)) ++ le 4 (crc32 (le 1 (op + 128) ++ le 2 (le 1 st ++ d).length ++ (le 1 st ++ d))))) ∧ s.pow.phase = .recovery ∧ 1 ≤ data.length ∧ data.length ≤ 4096 ∧ off + data.length ≤ 1048576) ∧
    (∃ (fr : Nat → Nat → Bytes → Emission) (slot : Nat) (s : State), fr = (fun op st d => .recovery (le 1 0xA5 ++ (le 1 (op + 128) ++ le 2 (le 1 st ++ d).length ++ (le 1 st ++ d)) ++ le 4 (crc32 (le 1 (op + 128) ++ le 2 (le 1 st ++ d).length ++ (le 1 st ++ d))))) ∧ s.pow.phase = .recovery ∧ 1 < slot) := ⟨by refine ⟨((fun op st d => .recovery (le 1 0xA5 ++ (le 1 (op + 128) ++ le 2 (le 1 st ++ d).length ++ (le 1 st ++ d)) ++ le 4 (crc32 (le 1 (op + 128) ++ le 2 (le 1 st ++ d).length ++ (le 1 st ++ d))))) : Nat → Nat → Bytes → Emission), (1 : Nat), (1 : Nat), ([] : Bytes), ({ tServe with pow.phase := .recovery } : State), ?_, ?_, ?_⟩ <;> first | with_reducible rfl | decide +kernel,
    by refine ⟨((fun op st d => .recovery (le 1 0xA5 ++ (le 1 (op + 128) ++ le 2 (le 1 st ++ d).length ++ (le 1 st ++ d)) ++ le 4 (crc32 (le 1 (op + 128) ++ le 2 (le 1 st ++ d).length ++ (le 1 st ++ d))))) : Nat → Nat → Bytes → Emission), (2 : Nat), (0 : Nat), ([1] : Bytes), ({ tRec with pow.phase := .recovery } : State), ?_, ?_, ?_, ?_, ?_⟩ <;> first | with_reducible rfl | decide +kernel,
    by refine ⟨((fun op st d => .recovery (le 1 0xA5 ++ (le 1 (op + 128) ++ le 2 (le 1 st ++ d).length ++ (le 1 st ++ d)) ++ le 4 (crc32 (le 1 (op + 128) ++ le 2 (le 1 st ++ d).length ++ (le 1 st ++ d))))) : Nat → Nat → Bytes → Emission), (1 : Nat), (1048576 : Nat), ([1, 2, 3] : Bytes), ({ tServe with pow.phase := .recovery } : State), ?_, ?_, ?_, ?_, ?_⟩ <;> first | with_reducible rfl | decide +kernel,
    by refine ⟨((fun op st d => .recovery (le 1 0xA5 ++ (le 1 (op + 128) ++ le 2 (le 1 st ++ d).length ++ (le 1 st ++ d)) ++ le 4 (crc32 (le 1 (op + 128) ++ le 2 (le 1 st ++ d).length ++ (le 1 st ++ d))))) : Nat → Nat → Bytes → Emission), (1 : Nat), (1 : Nat), ([1, 2, 3] : Bytes), ({ tServe with pow.phase := .recovery } : State), ?_, ?_, ?_, ?_, ?_, ?_, ?_⟩ <;> first | with_reducible rfl | decide +kernel,
    by refine ⟨((fun op st d => .recovery (le 1 0xA5 ++ (le 1 (op + 128) ++ le 2 (le 1 st ++ d).length ++ (le 1 st ++ d)) ++ le 4 (crc32 (le 1 (op + 128) ++ le 2 (le 1 st ++ d).length ++ (le 1 st ++ d))))) : Nat → Nat → Bytes → Emission), (1 : Nat), (1 : Nat), ([1, 2, 3] : Bytes), ({ tServe with pow.phase := .recovery } : State), ?_, ?_, ?_, ?_, ?_⟩ <;> first | with_reducible rfl | decide +kernel,
    by refine ⟨((fun op st d => .recovery (le 1 0xA5 ++ (le 1 (op + 128) ++ le 2 (le 1 st ++ d).length ++ (le 1 st ++ d)) ++ le 4 (crc32 (le 1 (op + 128) ++ le 2 (le 1 st ++ d).length ++ (le 1 st ++ d))))) : Nat → Nat → Bytes → Emission), (2 : Nat), ({ tServe with pow.phase := .recovery } : State), ?_, ?_, ?_⟩ <;> first | with_reducible rfl | decide +kernel⟩

theorem witness_RecoveryAnswersItsRequests_3 :
    (∃ (fr : Nat → Nat → Bytes → Emission) (slot : Nat) (s : State), fr = (fun op st d => .recovery (le 1 0xA5 ++ (le 1 (op + 128) ++ le 2 (le 1 st ++ d).length ++ (le 1 st ++ d)) ++ le 4 (crc32 (le 1 (op + 128) ++ le 2 (le 1 st ++ d).length ++ (le 1 st ++ d))))) ∧ s.pow.phase = .recovery ∧ slot ≤ 1 ∧ s.judgeSlotFw slot ≠ 0) ∧
    (∃ (fr : Nat → Nat → Bytes → Emission) (s : State) (r : Nat), fr = (fun op st d => .recovery (le 1 0xA5 ++ (le 1 (op + 128) ++ le 2 (le 1 st ++ d).length ++ (le 1 st ++ d)) ++ le 4 (crc32 (le 1 (op + 128) ++ le 2 (le 1 st ++ d).length ++ (le 1 st ++ d))))) ∧ s.pow.phase = .recovery ∧ r = judgeCfg s.sec.otp s.csvnFloor none s.nor.cfgImage) ∧
    (∃ (fr : Nat → Nat → Bytes → Emission) (s : State), fr = (fun op st d => .recovery (le 1 0xA5 ++ (le 1 (op + 128) ++ le 2 (le 1 st ++ d).length ++ (le 1 st ++ d)) ++ le 4 (crc32 (le 1 (op + 128) ++ le 2 (le 1 st ++ d).length ++ (le 1 st ++ d))))) ∧ s.pow.phase = .recovery) ∧
    (∃ (fr : Nat → Nat → Bytes → Emission) (block : Bytes) (sig : Bytes) (code : Nat) (s : State) (u : State), fr = (fun op st d => .recovery (le 1 0xA5 ++ (le 1 (op + 128) ++ le 2 (le 1 st ++ d).length ++ (le 1 st ++ d)) ++ le 4 (crc32 (le 1 (op + 128) ++ le 2 (le 1 st ++ d).length ++ (le 1 st ++ d))))) ∧ (s.pow.phase = .recovery ∨ s.pow.phase = .alarmHold) ∧ code = fld 0 2 block ∧ sig = fit 64 (block.drop 8) ∧ u = (if s.pow.phase = .recovery then s.withOpk s.recoveryOpk else s) ∧ (block.length ≠ 72 ∨ fld 2 2 block ≠ 64)) ∧
    (∃ (fr : Nat → Nat → Bytes → Emission) (block : Bytes) (sig : Bytes) (code : Nat) (s : State) (u : State), fr = (fun op st d => .recovery (le 1 0xA5 ++ (le 1 (op + 128) ++ le 2 (le 1 st ++ d).length ++ (le 1 st ++ d)) ++ le 4 (crc32 (le 1 (op + 128) ++ le 2 (le 1 st ++ d).length ++ (le 1 st ++ d))))) ∧ (s.pow.phase = .recovery ∨ s.pow.phase = .alarmHold) ∧ code = fld 0 2 block ∧ sig = fit 64 (block.drop 8) ∧ u = (if s.pow.phase = .recovery then s.withOpk s.recoveryOpk else s) ∧ block.length = 72 ∧ fld 2 2 block = 64 ∧ (code < 0xF01 ∨ 0xF05 < code ∨ u.lcSigned code sig = false)) ∧
    (∃ (fr : Nat → Nat → Bytes → Emission) (o : Bytes) (s : State), fr = (fun op st d => .recovery (le 1 0xA5 ++ (le 1 (op + 128) ++ le 2 (le 1 st ++ d).length ++ (le 1 st ++ d)) ++ le 4 (crc32 (le 1 (op + 128) ++ le 2 (le 1 st ++ d).length ++ (le 1 st ++ d))))) ∧ (s.pow.phase = .recovery ∨ s.pow.phase = .alarmHold ∨ s.pow.phase = .scrapped) ∧ o.length ≠ 16) := ⟨by refine ⟨((fun op st d => .recovery (le 1 0xA5 ++ (le 1 (op + 128) ++ le 2 (le 1 st ++ d).length ++ (le 1 st ++ d)) ++ le 4 (crc32 (le 1 (op + 128) ++ le 2 (le 1 st ++ d).length ++ (le 1 st ++ d))))) : Nat → Nat → Bytes → Emission), (1 : Nat), ({ tServe with pow.phase := .recovery } : State), ?_, ?_, ?_, ?_⟩ <;> first | with_reducible rfl | decide +kernel,
    by refine ⟨((fun op st d => .recovery (le 1 0xA5 ++ (le 1 (op + 128) ++ le 2 (le 1 st ++ d).length ++ (le 1 st ++ d)) ++ le 4 (crc32 (le 1 (op + 128) ++ le 2 (le 1 st ++ d).length ++ (le 1 st ++ d))))) : Nat → Nat → Bytes → Emission), ({ tServe with pow.phase := .recovery } : State), (judgeCfg ({ tServe with pow.phase := .recovery } : State).sec.otp ({ tServe with pow.phase := .recovery } : State).csvnFloor none ({ tServe with pow.phase := .recovery } : State).nor.cfgImage : Nat), ?_, ?_, ?_⟩ <;> first | with_reducible rfl | decide +kernel,
    by refine ⟨((fun op st d => .recovery (le 1 0xA5 ++ (le 1 (op + 128) ++ le 2 (le 1 st ++ d).length ++ (le 1 st ++ d)) ++ le 4 (crc32 (le 1 (op + 128) ++ le 2 (le 1 st ++ d).length ++ (le 1 st ++ d))))) : Nat → Nat → Bytes → Emission), ({ tServe with pow.phase := .recovery } : State), ?_, ?_⟩ <;> first | with_reducible rfl | decide +kernel,
    by refine ⟨((fun op st d => .recovery (le 1 0xA5 ++ (le 1 (op + 128) ++ le 2 (le 1 st ++ d).length ++ (le 1 st ++ d)) ++ le 4 (crc32 (le 1 (op + 128) ++ le 2 (le 1 st ++ d).length ++ (le 1 st ++ d))))) : Nat → Nat → Bytes → Emission), ([1, 2, 3] : Bytes), (fit 64 (([1, 2, 3] : Bytes).drop 8) : Bytes), (fld 0 2 ([1, 2, 3] : Bytes) : Nat), ({ tServe with pow.phase := .recovery } : State), ((if ({ tServe with pow.phase := .recovery } : State).pow.phase = .recovery then ({ tServe with pow.phase := .recovery } : State).withOpk ({ tServe with pow.phase := .recovery } : State).recoveryOpk else ({ tServe with pow.phase := .recovery } : State)) : State), ?_, ?_, ?_, ?_, ?_, ?_⟩ <;> first | with_reducible rfl | decide +kernel,
    by refine ⟨((fun op st d => .recovery (le 1 0xA5 ++ (le 1 (op + 128) ++ le 2 (le 1 st ++ d).length ++ (le 1 st ++ d)) ++ le 4 (crc32 (le 1 (op + 128) ++ le 2 (le 1 st ++ d).length ++ (le 1 st ++ d))))) : Nat → Nat → Bytes → Emission), ((le 2 0xF06 ++ le 2 64 ++ List.replicate 68 0) : Bytes), (fit 64 (((le 2 0xF06 ++ le 2 64 ++ List.replicate 68 0) : Bytes).drop 8) : Bytes), (fld 0 2 ((le 2 0xF06 ++ le 2 64 ++ List.replicate 68 0) : Bytes) : Nat), ({ tRec with pow.phase := .recovery } : State), ((if ({ tRec with pow.phase := .recovery } : State).pow.phase = .recovery then ({ tRec with pow.phase := .recovery } : State).withOpk ({ tRec with pow.phase := .recovery } : State).recoveryOpk else ({ tRec with pow.phase := .recovery } : State)) : State), ?_, ?_, ?_, ?_, ?_, ?_, ?_, ?_⟩ <;> first | with_reducible rfl | decide +kernel,
    by refine ⟨((fun op st d => .recovery (le 1 0xA5 ++ (le 1 (op + 128) ++ le 2 (le 1 st ++ d).length ++ (le 1 st ++ d)) ++ le 4 (crc32 (le 1 (op + 128) ++ le 2 (le 1 st ++ d).length ++ (le 1 st ++ d))))) : Nat → Nat → Bytes → Emission), ([1, 2, 3] : Bytes), ({ tServe with pow.phase := .recovery } : State), ?_, ?_, ?_⟩ <;> first | with_reducible rfl | decide +kernel⟩

/-- Of the witness below. -/
def tRecoveryAnswersItsRequests_1_0a : State := ({ tRec with sef.inbox := [(0, ((tSef 2 (le 64 0)) : Bytes))], rpl.fetch := some ({ ({ ({ order := [], peer := 1, step := 0 } : Fetch) with step := 0 } : Fetch) with peer := sefSrc ((tSef 2 (le 64 0)) : Bytes) } : Fetch) } : State)

theorem witness_RecoveryAnswersItsRequests_4 :
    (∃ (fr : Nat → Nat → Bytes → Emission) (o : Bytes) (s : State), fr = (fun op st d => .recovery (le 1 0xA5 ++ (le 1 (op + 128) ++ le 2 (le 1 st ++ d).length ++ (le 1 st ++ d)) ++ le 4 (crc32 (le 1 (op + 128) ++ le 2 (le 1 st ++ d).length ++ (le 1 st ++ d))))) ∧ (s.pow.phase = .recovery ∨ s.pow.phase = .alarmHold ∨ s.pow.phase = .scrapped) ∧ o.length = 16 ∧ (s.pow.phase ≠ .recovery ∨ (bit 2 (fld 1 1 o) = true ∧ fld 0 1 o ≠ 0) ∨ ((fld 0 1 o = 1 ∨ bit 2 (fld 1 1 o) = true) ∧ s.rpl.card = none))) ∧
    (∃ (fr : Nat → Nat → Bytes → Emission) (o : Bytes) (s : State), fr = (fun op st d => .recovery (le 1 0xA5 ++ (le 1 (op + 128) ++ le 2 (le 1 st ++ d).length ++ (le 1 st ++ d)) ++ le 4 (crc32 (le 1 (op + 128) ++ le 2 (le 1 st ++ d).length ++ (le 1 st ++ d))))) ∧ (s.pow.phase = .recovery ∨ s.pow.phase = .alarmHold ∨ s.pow.phase = .scrapped) ∧ s.Inv ∧ o.length = 16 ∧ s.pow.phase = .recovery ∧ fld 0 1 o = 2 ∧ bit 2 (fld 1 1 o) = false) ∧
    (∃ (fr : Nat → Nat → Bytes → Emission) (off : Nat) (len : Nat) (s : State), fr = (fun op st d => .recovery (le 1 0xA5 ++ (le 1 (op + 128) ++ le 2 (le 1 st ++ d).length ++ (le 1 st ++ d)) ++ le 4 (crc32 (le 1 (op + 128) ++ le 2 (le 1 st ++ d).length ++ (le 1 st ++ d))))) ∧ s.pow.phase = .recovery ∧ (len = 0 ∨ 4096 < len)) ∧
    (∃ (fr : Nat → Nat → Bytes → Emission) (off : Nat) (len : Nat) (s : State), fr = (fun op st d => .recovery (le 1 0xA5 ++ (le 1 (op + 128) ++ le 2 (le 1 st ++ d).length ++ (le 1 st ++ d)) ++ le 4 (crc32 (le 1 (op + 128) ++ le 2 (le 1 st ++ d).length ++ (le 1 st ++ d))))) ∧ s.pow.phase = .recovery ∧ 1 ≤ len ∧ len ≤ 4096 ∧ s.rpl.ran = false) ∧
    (∃ (fr : Nat → Nat → Bytes → Emission) (off : Nat) (len : Nat) (s : State), fr = (fun op st d => .recovery (le 1 0xA5 ++ (le 1 (op + 128) ++ le 2 (le 1 st ++ d).length ++ (le 1 st ++ d)) ++ le 4 (crc32 (le 1 (op + 128) ++ le 2 (le 1 st ++ d).length ++ (le 1 st ++ d))))) ∧ s.pow.phase = .recovery ∧ 1 ≤ len ∧ len ≤ 4096 ∧ s.rpl.ran = true) ∧
    (∃ (s : State) (s1 : State) (link : Nat) (f : Bytes) (a : List (Nat × Bytes)) (r : List (Nat × Bytes)) (x : Fetch), s.sef.inbox = a ++ (link, f) :: r ∧ (∀ y ∈ a, sefType y.2 ≠ sefType f) ∧ s1 = { s with sef := { s.sef with inbox := a ++ r } } ∧ s.rpl.fetch = some x ∧ sefType f = 2 ∧ x.step = 0 ∧ sefSrc f = x.peer) := ⟨by refine ⟨((fun op st d => .recovery (le 1 0xA5 ++ (le 1 (op + 128) ++ le 2 (le 1 st ++ d).length ++ (le 1 st ++ d)) ++ le 4 (crc32 (le 1 (op + 128) ++ le 2 (le 1 st ++ d).length ++ (le 1 st ++ d))))) : Nat → Nat → Bytes → Emission), ((List.replicate 16 0) : Bytes), ({ tServe with pow.phase := .alarmHold } : State), ?_, ?_, ?_, ?_⟩ <;> first | with_reducible rfl | decide +kernel,
    by refine ⟨((fun op st d => .recovery (le 1 0xA5 ++ (le 1 (op + 128) ++ le 2 (le 1 st ++ d).length ++ (le 1 st ++ d)) ++ le 4 (crc32 (le 1 (op + 128) ++ le 2 (le 1 st ++ d).length ++ (le 1 st ++ d))))) : Nat → Nat → Bytes → Emission), ((2 :: List.replicate 15 0) : Bytes), ({ ({ tRec with pow.phase := .recovery } : State) with pow.phase := .recovery } : State), ?_, ?_, ?_, ?_, ?_, ?_, ?_⟩ <;> first | with_reducible rfl | decide +kernel | (unfold State.Inv; decide +kernel),
    by refine ⟨((fun op st d => .recovery (le 1 0xA5 ++ (le 1 (op + 128) ++ le 2 (le 1 st ++ d).length ++ (le 1 st ++ d)) ++ le 4 (crc32 (le 1 (op + 128) ++ le 2 (le 1 st ++ d).length ++ (le 1 st ++ d))))) : Nat → Nat → Bytes → Emission), (1 : Nat), (0 : Nat), ({ tServe with pow.phase := .recovery } : State), ?_, ?_, ?_⟩ <;> first | with_reducible rfl | decide +kernel,
    by refine ⟨((fun op st d => .recovery (le 1 0xA5 ++ (le 1 (op + 128) ++ le 2 (le 1 st ++ d).length ++ (le 1 st ++ d)) ++ le 4 (crc32 (le 1 (op + 128) ++ le 2 (le 1 st ++ d).length ++ (le 1 st ++ d))))) : Nat → Nat → Bytes → Emission), (1 : Nat), (1 : Nat), ({ ({ tServe with pow.phase := .recovery } : State) with rpl.ran := false } : State), ?_, ?_, ?_, ?_, ?_⟩ <;> first | with_reducible rfl | decide +kernel,
    by refine ⟨((fun op st d => .recovery (le 1 0xA5 ++ (le 1 (op + 128) ++ le 2 (le 1 st ++ d).length ++ (le 1 st ++ d)) ++ le 4 (crc32 (le 1 (op + 128) ++ le 2 (le 1 st ++ d).length ++ (le 1 st ++ d))))) : Nat → Nat → Bytes → Emission), (1 : Nat), (1 : Nat), ({ ({ tServe with pow.phase := .recovery } : State) with rpl.ran := true } : State), ?_, ?_, ?_, ?_, ?_⟩ <;> first | with_reducible rfl | decide +kernel,
    by refine ⟨tRecoveryAnswersItsRequests_1_0a, ({ tRecoveryAnswersItsRequests_1_0a with sef := { tRecoveryAnswersItsRequests_1_0a.sef with inbox := ([] : List (Nat × Bytes)) ++ ([] : List (Nat × Bytes)) } } : State), (0 : Nat), ((tSef 2 (le 64 0)) : Bytes), ([] : List (Nat × Bytes)), ([] : List (Nat × Bytes)), ({ ({ ({ order := [], peer := 1, step := 0 } : Fetch) with step := 0 } : Fetch) with peer := sefSrc ((tSef 2 (le 64 0)) : Bytes) } : Fetch), ?_, ?_, ?_, ?_, ?_, ?_, ?_⟩ <;> first | with_reducible rfl | decide +kernel⟩

/-- Of the witness below. -/
def tRecoveryAnswersItsRequests_1_1a : State := ({ tRec with sef.inbox := [(0, ((tSef 7 (le 16 0)) : Bytes))], rpl.fetch := some ({ order := [], peer := 3, step := 0 } : Fetch) } : State)

/-- Of the witness below. -/
def tRecoveryAnswersItsRequests_1_2a : State := ({ tRec with sef.inbox := [(0, ((tSef 7 (le 16 1)) : Bytes))], rpl.fetch := some ({ ({ ({ order := [], peer := 1, step := 1 } : Fetch) with peer := sefSrc ((tSef 7 (le 16 1)) : Bytes) } : Fetch) with step := 1 } : Fetch) } : State)

/-- Of the witness below. -/
def tRecoveryAnswersItsRequests_1_3a : State := ({ tRec with sef.inbox := [(0, ((tSef 7 (le 16 4)) : Bytes))], rpl.fetch := some ({ ({ ({ order := [], peer := 1, step := 2 } : Fetch) with peer := sefSrc ((tSef 7 (le 16 4)) : Bytes) } : Fetch) with step := 2 } : Fetch) } : State)

/-- Of the witness below. -/
def tRecoveryAnswersItsRequests_1_4a : State := ({ tRec with sef.inbox := [(0, ((tSef 7 (le 16 4)) : Bytes))], rpl.fetch := some ({ ({ ({ order := [], peer := 1, step := 3 } : Fetch) with peer := sefSrc ((tSef 7 (le 16 4)) : Bytes) } : Fetch) with step := 3 } : Fetch) } : State)

theorem witness_RecoveryAnswersItsRequests_5 :
    (∃ (s : State) (s1 : State) (link : Nat) (f : Bytes) (a : List (Nat × Bytes)) (r : List (Nat × Bytes)) (x : Fetch), s.sef.inbox = a ++ (link, f) :: r ∧ (∀ y ∈ a, sefType y.2 ≠ sefType f) ∧ s1 = { s with sef := { s.sef with inbox := a ++ r } } ∧ s.rpl.fetch = some x ∧ sefType f = 7 ∧ sefSrc f ≠ x.peer) ∧
    (∃ (s : State) (s1 : State) (link : Nat) (f : Bytes) (a : List (Nat × Bytes)) (r : List (Nat × Bytes)) (x : Fetch), s.sef.inbox = a ++ (link, f) :: r ∧ (∀ y ∈ a, sefType y.2 ≠ sefType f) ∧ s1 = { s with sef := { s.sef with inbox := a ++ r } } ∧ s.rpl.fetch = some x ∧ sefType f = 7 ∧ sefSrc f = x.peer ∧ x.step = 1 ∧ fld 0 1 (sefBody f) = 1) ∧
    (∃ (s : State) (s1 : State) (link : Nat) (f : Bytes) (a : List (Nat × Bytes)) (r : List (Nat × Bytes)) (x : Fetch), s.sef.inbox = a ++ (link, f) :: r ∧ (∀ y ∈ a, sefType y.2 ≠ sefType f) ∧ s1 = { s with sef := { s.sef with inbox := a ++ r } } ∧ s.rpl.fetch = some x ∧ sefType f = 7 ∧ sefSrc f = x.peer ∧ x.step = 2 ∧ fld 0 1 (sefBody f) = 4) ∧
    (∃ (s : State) (s1 : State) (link : Nat) (f : Bytes) (a : List (Nat × Bytes)) (r : List (Nat × Bytes)) (x : Fetch), s.sef.inbox = a ++ (link, f) :: r ∧ (∀ y ∈ a, sefType y.2 ≠ sefType f) ∧ s1 = { s with sef := { s.sef with inbox := a ++ r } } ∧ s.rpl.fetch = some x ∧ sefType f = 7 ∧ sefSrc f = x.peer ∧ x.step = 3 ∧ fld 0 1 (sefBody f) = 4) := ⟨by refine ⟨tRecoveryAnswersItsRequests_1_1a, ({ tRecoveryAnswersItsRequests_1_1a with sef := { tRecoveryAnswersItsRequests_1_1a.sef with inbox := ([] : List (Nat × Bytes)) ++ ([] : List (Nat × Bytes)) } } : State), (0 : Nat), ((tSef 7 (le 16 0)) : Bytes), ([] : List (Nat × Bytes)), ([] : List (Nat × Bytes)), ({ order := [], peer := 3, step := 0 } : Fetch), ?_, ?_, ?_, ?_, ?_, ?_⟩ <;> first | with_reducible rfl | decide +kernel,
    by refine ⟨tRecoveryAnswersItsRequests_1_2a, ({ tRecoveryAnswersItsRequests_1_2a with sef := { tRecoveryAnswersItsRequests_1_2a.sef with inbox := ([] : List (Nat × Bytes)) ++ ([] : List (Nat × Bytes)) } } : State), (0 : Nat), ((tSef 7 (le 16 1)) : Bytes), ([] : List (Nat × Bytes)), ([] : List (Nat × Bytes)), ({ ({ ({ order := [], peer := 1, step := 1 } : Fetch) with peer := sefSrc ((tSef 7 (le 16 1)) : Bytes) } : Fetch) with step := 1 } : Fetch), ?_, ?_, ?_, ?_, ?_, ?_, ?_, ?_⟩ <;> first | with_reducible rfl | decide +kernel,
    by refine ⟨tRecoveryAnswersItsRequests_1_3a, ({ tRecoveryAnswersItsRequests_1_3a with sef := { tRecoveryAnswersItsRequests_1_3a.sef with inbox := ([] : List (Nat × Bytes)) ++ ([] : List (Nat × Bytes)) } } : State), (0 : Nat), ((tSef 7 (le 16 4)) : Bytes), ([] : List (Nat × Bytes)), ([] : List (Nat × Bytes)), ({ ({ ({ order := [], peer := 1, step := 2 } : Fetch) with peer := sefSrc ((tSef 7 (le 16 4)) : Bytes) } : Fetch) with step := 2 } : Fetch), ?_, ?_, ?_, ?_, ?_, ?_, ?_, ?_⟩ <;> first | with_reducible rfl | decide +kernel,
    by refine ⟨tRecoveryAnswersItsRequests_1_4a, ({ tRecoveryAnswersItsRequests_1_4a with sef := { tRecoveryAnswersItsRequests_1_4a.sef with inbox := ([] : List (Nat × Bytes)) ++ ([] : List (Nat × Bytes)) } } : State), (0 : Nat), ((tSef 7 (le 16 4)) : Bytes), ([] : List (Nat × Bytes)), ([] : List (Nat × Bytes)), ({ ({ ({ order := [], peer := 1, step := 3 } : Fetch) with peer := sefSrc ((tSef 7 (le 16 4)) : Bytes) } : Fetch) with step := 3 } : Fetch), ?_, ?_, ?_, ?_, ?_, ?_, ?_, ?_⟩ <;> first | with_reducible rfl | decide +kernel⟩

end Sys2Proof.Machine
end

section
/-! SUPPORT. The step's law with the queue's rest as its start, and the statements it settles. -/
namespace Sys2Proof.Machine

/-- Both branches of a step, from the state without the command it takes. -/
theorem step_keeps_tail (s : State) : KeepsO { s with pending := s.pending.tail } (step s) := by
  cases h : s.pending with
  | cons c r => exact step_keeps h
  | nil =>
    have hstep : step s = .next s.idleTick := by unfold step; rw [h]
    have hrest : ({ s with pending := ([] : List Instr).tail } : State) = s := by rw [List.tail_nil, ← h]
    rw [hstep, hrest]
    exact .next (State.advance_keeps (Keeps.refl s))

/-- Settles O3: what every step keeps includes the stored form. -/
theorem stepKeepsStoredForm : Obligations.StepKeepsStoredForm := fun s t hs ht => ((step_keeps_tail s).next_keeps t ht).inv hs

/-- Settles O4. -/
theorem resetHasStoredForm : Obligations.ResetHasStoredForm := ⟨rfl, rfl, rfl, rfl⟩

/-- Settles O5: every command answers a next state, and a step keeps its queue's rest, the order of time and what was sent. -/
theorem stepKeepsQueueTimeAndSent : Obligations.StepKeepsQueueTimeAndSent := by
  refine ⟨fun c s => (exec_keeps (Keeps.refl s)).answers, fun s => ?_⟩
  obtain ⟨t, ht⟩ := (step_keeps_tail s).answers
  have k := (step_keeps_tail s).next_keeps t ht
  exact ⟨t, ht, k.queue, k.time, k.sent⟩

end Sys2Proof.Machine
end

section
/-! SUPPORT. Reads of the Oasis time (R492): the frozen shadows of one requester, and what a locked bridge leaves. -/
namespace Sys2Proof.Machine

theorem PerWho.at_put {α : Type} (p : PerWho α) (w v : Who) (x : α) : (p.put w x).at v = if v = w then x else p.at v := by
  cases w <;> cases v <;> rfl

theorem PerWho.at_put_self {α : Type} (p : PerWho α) (w : Who) (x : α) : (p.put w x).at w = x := by
  rw [PerWho.at_put, if_pos rfl]

theorem State.oasReach_open {s : State} (h : s.locked = false) (w : Who) (f : State → State) : s.oasReach w f = .next (f s) := by
  unfold State.oasReach
  rw [if_neg (by simp [h])]

theorem State.oasReach_locked {s : State} (h : s.locked = true) (w : Who) (f : State → State) :
    s.oasReach w f = .next { s with reply := s.reply.put w .busError } := by
  unfold State.oasReach
  rw [if_pos h]
  rfl

section
variable {s : State} {w : Who}

theorem State.oasFreeze_live (h : s.oas.shadow.at w = none) :
    s.oasFreeze w = (s.oasLive.w0, { s with oas := { s.oas with shadow := s.oas.shadow.put w (some s.oasLive) } }) := by
  unfold State.oasFreeze
  rw [h]
  rfl

theorem State.oasFreeze_frozen {x : Shadow} (h : s.oas.shadow.at w = some x) : s.oasFreeze w = (x.w0, s) := by
  unfold State.oasFreeze
  rw [h]

theorem State.oasRelease_live (h : s.oas.shadow.at w = none) : s.oasRelease w = (s.oasLive.w3, s) := by
  unfold State.oasRelease
  rw [h]

theorem State.oasRelease_frozen {x : Shadow} (h : s.oas.shadow.at w = some x) :
    s.oasRelease w = (x.w3, { s with oas := { s.oas with shadow := s.oas.shadow.put w none } }) := by
  unfold State.oasRelease
  rw [h]
  rfl

theorem State.oasFreeze_shadow_other {v : Who} (h : v ≠ w) : (s.oasFreeze w).2.oas.shadow.at v = s.oas.shadow.at v := by
  cases e : s.oas.shadow.at w with
  | none => rw [State.oasFreeze_live e]; exact (PerWho.at_put _ _ _ _).trans (if_neg h)
  | some x => rw [State.oasFreeze_frozen e]

theorem State.until_oas_shadow (s : State) (due : Nat) : (s.until due).oas.shadow = s.oas.shadow := by
  unfold State.until
  split <;> rfl

theorem State.until_oas_stale (s : State) (due : Nat) : (s.until due).oas.stale = s.oas.stale := by
  unfold State.until
  split <;> rfl

theorem exec_oasTime0Read : exec (.oasTime0Read w) s =
    s.oasReach w fun s => (s.oasFreeze w).2.answer w (.data (s.oasFreeze w).1) := rfl

theorem exec_oasTime3Read : exec (.oasTime3Read w) s =
    s.oasReach w fun s => (s.oasRelease w).2.answer w (.data (s.oasRelease w).1) := rfl

theorem exec_oasTime0Read_open (h : s.locked = false) :
    exec (.oasTime0Read w) s = .next ((s.oasFreeze w).2.answer w (.data (s.oasFreeze w).1)) := by rw [exec_oasTime0Read, State.oasReach_open h]

theorem exec_oasTime3Read_open (h : s.locked = false) :
    exec (.oasTime3Read w) s = .next ((s.oasRelease w).2.answer w (.data (s.oasRelease w).1)) := by rw [exec_oasTime3Read, State.oasReach_open h]

theorem exec_oasTime0Read_locked (h : s.locked = true) :
    exec (.oasTime0Read w) s = .next { s with reply := s.reply.put w .busError } := by rw [exec_oasTime0Read, State.oasReach_locked h]

theorem exec_oasTime3Read_locked (h : s.locked = true) :
    exec (.oasTime3Read w) s = .next { s with reply := s.reply.put w .busError } := by rw [exec_oasTime3Read, State.oasReach_locked h]

theorem exec_oasTcommit_locked (h : s.locked = true) :
    exec (.oasTcommit w) s = .next { s with reply := s.reply.put w .busError } := by
  change execOasTcommit w s = _
  unfold execOasTcommit
  split
  · rfl
  · exact State.oasReach_locked h _ _

theorem exec_freezeTimeout_live (h : s.oas.shadow.at w = none) : exec (.freezeTimeout w) s = .next s := by
  change execFreezeTimeout w s = _
  unfold execFreezeTimeout
  rw [h]

theorem exec_freezeTimeout_frozen {x : Shadow} (h : s.oas.shadow.at w = some x) :
    exec (.freezeTimeout w) s = .next { s.until (x.since + 2 * 268435456) with
      oas := { (s.until (x.since + 2 * 268435456)).oas with shadow := s.oas.shadow.put w none, stale := s.oas.stale.put w true } } := by
  change execFreezeTimeout w s = _
  unfold execFreezeTimeout
  rw [h, ← State.until_oas_shadow s (x.since + 2 * 268435456), ← State.until_oas_stale s (x.since + 2 * 268435456)]
  rfl

end

/-- Settles O22, by whether the bridge is locked and whether the requester's shadows are frozen. -/
theorem oasisShadowsFreezePerRequester : Obligations.OasisShadowsFreezePerRequester := by
  refine ⟨fun w s hs hw => ⟨?_, ?_, exec_freezeTimeout_live hw⟩, fun w s x hs hw => ⟨?_, ?_, exec_freezeTimeout_frozen hw⟩,
    fun w v s t ht hv => ?_, fun w s hs => ⟨exec_oasTime0Read_locked hs, exec_oasTime3Read_locked hs, exec_oasTcommit_locked hs⟩⟩
  · rw [exec_oasTime0Read_open hs, State.oasFreeze_live hw]; rfl
  · rw [exec_oasTime3Read_open hs, State.oasRelease_live hw]; rfl
  · rw [exec_oasTime0Read_open hs, State.oasFreeze_frozen hw]; rfl
  · rw [exec_oasTime3Read_open hs, State.oasRelease_frozen hw]; rfl
  · cases hs : s.locked with
    | true => rw [exec_oasTime0Read_locked hs] at ht; cases ht; rfl
    | false => rw [exec_oasTime0Read_open hs] at ht; cases ht; exact State.oasFreeze_shadow_other hv

end Sys2Proof.Machine
end

section
/-! SUPPORT. The management address space: its areas, bytes of working RAM after a write, and a register after a write by its masks (R7 to R13). -/
namespace Sys2Proof.Machine

/-! ### Areas -/

theorem areaOf_eq_regs_iff (a : Nat) : areaOf a = .regs ↔ 0x40000000 ≤ a ∧ a < 0x40100000 := by
  unfold areaOf
  split_ifs <;> simp <;> omega

/-- A word at a register address ends in the register area, which ends at a word boundary. -/
theorem areaOf_word_end {a : Nat} (h : areaOf a = .regs) (h4 : a % 4 = 0) : areaOf (a + 4 - 1) = .regs := by
  rw [areaOf_eq_regs_iff] at h ⊢
  omega

/-! ### Bytes of working RAM -/

theorem le_getD {n k : Nat} (v : Nat) (h : k < n) : (le n v).getD k 0 = BitVec.ofNat 8 (v / 256 ^ k) := by
  induction n generalizing v k with
  | zero => omega
  | succ n ih =>
    cases k with
    | zero => simp [le]
    | succ k =>
      rw [le, List.getD_cons_succ, ih _ (by omega), Nat.div_div_eq_div_mul, Nat.pow_succ']

theorem State.wramPut_frame (s : State) (off : Nat) (bs : Bytes) : s.wramPut off bs = { s with wram := (s.wramPut off bs).wram } := by
  induction bs generalizing s off with
  | nil => rfl
  | cons b r ih => exact ih _ _

/-- A byte of working RAM after a write of bytes: the byte written there, else as before. -/
theorem State.wramPut_get {s : State} (h : Memory.wf s.wram = true) (off : Nat) (bs : Bytes) (a : Nat) :
    sget ramDefault (s.wramPut off bs).wram a =
      if off ≤ a ∧ a < off + bs.length then bs.getD (a - off) 0 else sget ramDefault s.wram a := by
  induction bs generalizing s off with
  | nil => rw [if_neg (by simp)]; rfl
  | cons b r ih =>
    rw [State.wramPut, ih (ramPut_wf h _ _), List.length_cons]
    by_cases hin : off + 1 ≤ a ∧ a < off + 1 + r.length
    · rw [if_pos hin, if_pos (by omega), show a - off = a - (off + 1) + 1 by omega, List.getD_cons_succ]
    · rw [if_neg hin, ramPut_get h]
      by_cases e : a = off
      · subst e; simp
      · rw [if_neg e, if_neg (by omega)]

/-! ### The join pool's note -/

theorem State.poolNote_of_poolFree_eq {s0 s : State} (h : s.poolFree = s0.poolFree) : s0.poolNote s = s :=
  if_neg (by omega)

@[simp] theorem State.poolNote_refl (s : State) : s.poolNote s = s := State.poolNote_of_poolFree_eq rfl

theorem State.poolNote_frame (s0 s : State) : s0.poolNote s = { s with regs := (s0.poolNote s).regs } := by
  unfold State.poolNote
  split
  · exact State.irq_eq _ _ _
  · rfl

theorem State.poolNote_reg_other {s : State} (h : swf regReset s.regs = true) (s0 : State) {b : Nat} (n : b ≠ rArbIrq) :
    (s0.poolNote s).reg b = s.reg b := by
  unfold State.poolNote
  split
  · exact State.reg_irq_other h _ n
  · rfl

/-- Only the two bounds of the join pool, of all registers, move its number of FREE slots. -/
theorem State.poolFree_setReg {s : State} (h : swf regReset s.regs = true) {a : Nat} (v : Nat) (hlo : a ≠ rArbPoolLo) (hhi : a ≠ rArbPoolHi) :
    (s.setReg a v).poolFree = s.poolFree := by
  unfold State.poolFree State.fld
  rw [State.reg_setReg_other h v hlo.symm, State.reg_setReg_other h v hhi.symm, State.setReg_ctx]

/-! ### Writing a register by its masks -/

section
variable {s : State} (h : swf regReset s.regs = true) (a : Nat) (v : Word) (rw w1c : Nat)
include h

theorem State.reg_maskWrite : (s.maskWrite a v rw w1c).reg a =
    (((BitVec.ofNat 32 (s.reg a) &&& ~~~ (BitVec.ofNat 32 rw)) ||| (v &&& BitVec.ofNat 32 rw)) &&& ~~~ (v &&& BitVec.ofNat 32 w1c)).toNat := by
  unfold State.maskWrite
  rw [State.reg_setReg h, if_pos rfl, Nat.mod_eq_of_lt (BitVec.isLt _)]

theorem State.reg_maskWrite_other {b : Nat} (n : b ≠ a) : (s.maskWrite a v rw w1c).reg b = s.reg b :=
  State.reg_setReg_other h _ n

theorem State.maskWrite_wf : swf regReset (s.maskWrite a v rw w1c).regs = true := State.setReg_wf h _ _

theorem State.poolNote_maskWrite (hlo : a ≠ rArbPoolLo) (hhi : a ≠ rArbPoolHi) :
    s.poolNote (s.maskWrite a v rw w1c) = s.maskWrite a v rw w1c :=
  State.poolNote_of_poolFree_eq (State.poolFree_setReg h _ hlo hhi)

end

/-! ### Which registers a write meets by their masks alone -/

/-- A word address of a register whose write by device code does no more than its masks say: no ring's, no trim's, none of those with an
effect of their own. -/
def MaskedReg (a : Nat) : Prop :=
  areaOf a = .regs ∧ a % 4 = 0 ∧ (0x40010400 ≤ a ∨ a < 0x40010000) ∧ (nth (rMtrTrim 0) 32 3 a).isNone = true ∧
    a ∉ [rJsqCtl, rNetMdio, rSefRole, rSefToken, rOasTcommit, rOasStat, rOasLrate, rArbLatmax]

/-- A masked register that lies outside the Oasis, moves no bound of the join pool, and is none of the three control registers of which every requester
may write a bit. -/
def OpenReg (a : Nat) : Prop :=
  MaskedReg a ∧ inOas a = false ∧ a ∉ [rArbPoolLo, rArbPoolHi, rRadCtl, rPlcCtl, rNetCtl]

theorem irqRegs_open : ∀ a ∈ irqRegs, OpenReg a ∧ ∀ d ∈ regAt a, d.rw = 0 ∧ d.lk = 0 := by
  unfold OpenReg MaskedReg
  decide

theorem ienRegs_open : ∀ a ∈ ienRegs, OpenReg a ∧ a ∉ irqRegs ∧ ∀ d ∈ regAt a, d.lk = 0 ∧ d.w1c = 0 := by
  unfold OpenReg MaskedReg
  decide

/-! ### Writes of a word to a register -/

section
variable {w : Who} {addr v : Word} {s : State}

theorem exec_registerWrite_devWord (hr : areaOf addr.toNat = .regs) (h4 : addr.toNat % 4 = 0) :
    exec (.registerWrite .dev addr 2 v) s = .next (s.devWrite addr.toNat (le 4 v.toNat) v) :=
  if_neg fun hn => hn (hr.trans (areaOf_word_end hr h4).symm)

theorem exec_registerWrite_farWord (hw : w ≠ .dev) (hr : areaOf addr.toNat = .regs) (h4 : addr.toNat % 4 = 0) :
    exec (.registerWrite w addr 2 v) s = .next (s.farWrite w addr.toNat 4 v) := by
  have hend := areaOf_word_end hr h4
  cases w with
  | dev => exact absurd rfl hw
  | seif => exact if_neg fun hn => hn (hr.trans hend.symm)
  | maint => exact if_neg fun hn => hn (hr.trans hend.symm)

/-- A write of device code outside the rings' registers, where no locked bridge is in the way. -/
theorem State.devWrite_reg {a : Nat} (hr : areaOf a = .regs) (h4 : a % 4 = 0) (hq : 0x40010400 ≤ a ∨ a < 0x40010000)
    (ho : inOas a = true → s.locked = false) (x : Nat) : s.devWrite a (le 4 x) v = (s.poolNote (s.devReg a v)).answer .dev .done := by
  have hopen : ¬ ((le 4 x).length ≠ 4 ∨ a % 4 ≠ 0 ∨ inOas a = true ∧ s.locked = true) := by
    rintro (hl | hm | ⟨hi, hl⟩)
    · exact hl (le_length 4 x)
    · exact hm h4
    · simp [ho hi] at hl
  unfold State.devWrite
  rw [hr]
  dsimp only
  rw [if_neg hopen, if_neg (by omega)]

theorem State.devReg_undefined {a : Nat} (hd : regAt a = none) : s.devReg a v = s := by
  unfold State.devReg
  rw [hd]

theorem State.devReg_masked {a : Nat} {d : RegDef} (hm : MaskedReg a) (hd : regAt a = some d) : s.devReg a v = s.devMask d a v := by
  obtain ⟨-, -, -, htrim, hsp⟩ := hm
  simp only [List.mem_cons, List.not_mem_nil, or_false, not_or] at hsp
  obtain ⟨h1, h2, h3, h4, h5, h6, h7, h8⟩ := hsp
  have htrim' : ¬ (nth (rMtrTrim 0) 32 3 a).isSome = true := by simpa using htrim
  unfold State.devReg
  rw [hd]
  dsimp only
  rw [if_neg h1, if_neg htrim', if_neg h2, if_neg h3, if_neg h4, if_neg h5, if_neg h6, if_neg h7, if_neg h8]

theorem exec_registerWrite_masked {d : RegDef} (hm : MaskedReg addr.toNat) (ho : inOas addr.toNat = true → s.locked = false)
    (hd : regAt addr.toNat = some d) :
    exec (.registerWrite .dev addr 2 v) s = .next ((s.poolNote (s.devMask d addr.toNat v)).answer .dev .done) := by
  have ⟨hr, h4, hq, _⟩ := hm
  rw [exec_registerWrite_devWord hr h4, State.devWrite_reg hr h4 hq ho, State.devReg_masked hm hd]

/-- A word write of another requester than device code, and not the maintenance port's to NET_MDIO: the chain's rights decide. -/
theorem State.farWrite_reg {a : Nat} (hmdio : a ≠ rNetMdio) :
    s.farWrite w a 4 v = (s.poolNote (s.chainWrite w a v).2).answer w (s.chainWrite w a v).1 := by
  unfold State.farWrite
  rw [if_neg (fun h => h.2 rfl), if_neg (fun h => hmdio h.2)]

theorem State.chainWrite_undefined {a : Nat} (hr : areaOf a = .regs) (h4 : a % 4 = 0) (ho : inOas a = false) (hd : regAt a = none) :
    s.chainWrite w a v = (.done, s) := by
  unfold State.chainWrite
  rw [hr]
  simp [h4, ho, hd]

theorem State.chainWrite_open {a : Nat} {s1 : State} (hr : areaOf a = .regs) (h4 : a % 4 = 0) (ho : inOas a = false)
    (hd : (regAt a).isSome = true) (hf : s.chainFields w a v = some s1) : s.chainWrite w a v = (.done, s1) := by
  unfold State.chainWrite
  rw [hr]
  simp [h4, ho, Option.isSome_iff_ne_none.1 hd, hf]

theorem State.chainWrite_closed {a : Nat} (hr : areaOf a = .regs) (hd : (regAt a).isSome = true) (hf : s.chainFields w a v = none) :
    s.chainWrite w a v = (.busError, s) := by
  unfold State.chainWrite
  rw [hr]
  dsimp only
  split
  · rfl
  · rw [if_neg (by simpa [Option.isSome_iff_ne_none] using hd), hf]

/-- No requester but device code may write a register that R553 does not open. -/
theorem State.chainFields_closed {a : Nat} (hirq : a ∉ irqRegs) (hien : a ∉ ienRegs) (hrad : a ≠ rRadCtl) (hplc : a ≠ rPlcCtl)
    (hnet : a ≠ rNetCtl) (hstat : a ≠ rOasStat) (hlat : a ≠ rArbLatmax) : s.chainFields w a v = none := by
  unfold State.chainFields
  rw [if_neg (by rintro (h | h) <;> contradiction), if_neg hnet, if_neg (by simpa using hirq), if_neg (by simpa using hien), if_neg hstat,
    if_neg hlat]

theorem State.chainFields_irq {a : Nat} {d : RegDef} (hm : a ∈ irqRegs) (ho : OpenReg a) (hd : regAt a = some d) :
    s.chainFields w a v = some (s.maskWrite a v 0 d.w1c) := by
  have hc := ho.2.2
  simp only [List.mem_cons, List.not_mem_nil, or_false, not_or] at hc
  obtain ⟨-, -, hrad, hplc, hnet⟩ := hc
  unfold State.chainFields
  rw [if_neg (by rintro (h | h) <;> contradiction), if_neg hnet, if_pos (by simpa using hm), hd]

theorem State.chainFields_ien {a : Nat} {d : RegDef} (hm : a ∈ ienRegs) (hirq : a ∉ irqRegs) (ho : OpenReg a) (hd : regAt a = some d) :
    s.chainFields w a v = some (s.maskWrite a v d.rw 0) := by
  have hc := ho.2.2
  simp only [List.mem_cons, List.not_mem_nil, or_false, not_or] at hc
  obtain ⟨-, -, hrad, hplc, hnet⟩ := hc
  unfold State.chainFields
  rw [if_neg (by rintro (h | h) <;> contradiction), if_neg hnet, if_neg (by simpa using hirq), if_pos (by simpa using hm), hd]

/-- Where the chain's rights to an open register are device code's masks, every requester's write is that one write. -/
theorem exec_registerWrite_open {d : RegDef} {rw w1c : Nat} (hwf : swf regReset s.regs = true) (ho : OpenReg addr.toNat)
    (hd : regAt addr.toNat = some d) (hdev : s.devMask d addr.toNat v = s.maskWrite addr.toNat v rw w1c)
    (hfar : s.chainFields w addr.toNat v = some (s.maskWrite addr.toNat v rw w1c)) :
    exec (.registerWrite w addr 2 v) s = .next ((s.maskWrite addr.toNat v rw w1c).answer w .done) := by
  obtain ⟨hm, hoas, hc⟩ := ho
  have ⟨hr, h4, _, _, hsp⟩ := hm
  simp only [List.mem_cons, List.not_mem_nil, or_false, not_or] at hsp hc
  have hpool := State.poolNote_maskWrite hwf addr.toNat v rw w1c hc.1 hc.2.1
  by_cases hw : w = .dev
  · subst hw
    rw [exec_registerWrite_masked hm (by simp [hoas]) hd, hdev, hpool]
  · rw [exec_registerWrite_farWord hw hr h4, State.farWrite_reg hsp.2.1, State.chainWrite_open hr h4 hoas (by simp [hd]) hfar, hpool]

theorem exec_registerWrite_irq {d : RegDef} (hwf : swf regReset s.regs = true) (hm : addr.toNat ∈ irqRegs) (hd : regAt addr.toNat = some d) :
    exec (.registerWrite w addr 2 v) s = .next ((s.maskWrite addr.toNat v 0 d.w1c).answer w .done) := by
  obtain ⟨ho, hmask⟩ := irqRegs_open _ hm
  obtain ⟨hrw, hlk⟩ := hmask d hd
  exact exec_registerWrite_open hwf ho hd (by simp [State.devMask, hrw, hlk]) (State.chainFields_irq hm ho hd)

theorem exec_registerWrite_ien {d : RegDef} (hwf : swf regReset s.regs = true) (hm : addr.toNat ∈ ienRegs) (hd : regAt addr.toNat = some d) :
    exec (.registerWrite w addr 2 v) s = .next ((s.maskWrite addr.toNat v d.rw 0).answer w .done) := by
  obtain ⟨ho, hirq, hmask⟩ := ienRegs_open _ hm
  obtain ⟨hlk, hw1c⟩ := hmask d hd
  exact exec_registerWrite_open hwf ho hd (by simp [State.devMask, hlk, hw1c]) (State.chainFields_ien hm hirq ho hd)

theorem exec_registerWrite_undefined (hr : areaOf addr.toNat = .regs) (h4 : addr.toNat % 4 = 0) (hd : regAt addr.toNat = none)
    (hq : 0x40010400 ≤ addr.toNat ∨ addr.toNat < 0x40010000) (ho : inOas addr.toNat = false) :
    exec (.registerWrite w addr 2 v) s = .next (s.answer w .done) := by
  by_cases hw : w = .dev
  · subst hw
    rw [exec_registerWrite_devWord hr h4, State.devWrite_reg hr h4 hq (by simp [ho]), State.devReg_undefined hd, State.poolNote_refl]
  · have hmdio : addr.toNat ≠ rNetMdio := by
      intro e
      rw [e] at hd
      exact absurd hd (by decide)
    rw [exec_registerWrite_farWord hw hr h4, State.farWrite_reg hmdio, State.chainWrite_undefined hr h4 ho hd, State.poolNote_refl]

theorem exec_registerWrite_closed {d : RegDef} (hw : w ≠ .dev) (hr : areaOf addr.toNat = .regs) (h4 : addr.toNat % 4 = 0)
    (hd : regAt addr.toNat = some d) (hirq : addr.toNat ∉ irqRegs) (hien : addr.toNat ∉ ienRegs)
    (hc : addr.toNat ∉ [rRadCtl, rPlcCtl, rNetCtl, rOasStat, rArbLatmax, rNetMdio]) :
    exec (.registerWrite w addr 2 v) s = .next (s.busErr w) := by
  simp only [List.mem_cons, List.not_mem_nil, or_false, not_or] at hc
  obtain ⟨hrad, hplc, hnet, hstat, hlat, hmdio⟩ := hc
  rw [exec_registerWrite_farWord hw hr h4, State.farWrite_reg hmdio,
    State.chainWrite_closed hr (by simp [hd]) (State.chainFields_closed hirq hien hrad hplc hnet hstat hlat), State.poolNote_refl]
  rfl

end

end Sys2Proof.Machine
end

section
/-! SUPPORT. Reads of the 64-bit pairs (R76): a read of the _LO half latches the _HI half for the next read of it. -/
namespace Sys2Proof.Machine

/-- The addresses of an array of `n` registers. -/
def nthAddrs (base stride n : Nat) : List Nat := (List.range n).map fun k => base + stride * k

theorem mem_nthAddrs {base stride n a : Nat} (h : (nth base stride n a).isSome = true) : a ∈ nthAddrs base stride n := by
  unfold nth at h
  split at h
  · rename_i hc
    obtain ⟨hlo, hhi, hmod⟩ := hc
    have hk : stride * ((a - base) / stride) = a - base := Nat.mul_div_cancel' (Nat.dvd_of_mod_eq_zero hmod)
    exact List.mem_map.2 ⟨(a - base) / stride, List.mem_range.2 (Nat.div_lt_of_lt_mul (by omega)), by omega⟩
  · cases h

/-- Every address of a _LO register. -/
def loAddrs : List Nat := loRegs ++ nthAddrs (rBilFregLo 0) 8 32 ++ nthAddrs (rTimCtlstartLo 0) 64 8 ++ nthAddrs (rTimCtlperLo 0) 64 8 ++
  nthAddrs (rTimCtlnextLo 0) 64 8 ++ nthAddrs (rTimEvtlastLo 0) 16 4

theorem mem_loAddrs {a : Nat} (h : isLo a = true) : a ∈ loAddrs := by
  simp only [isLo, Bool.or_eq_true, List.contains_iff_mem] at h
  simp only [loAddrs, List.mem_append]
  obtain ((((hl | h1) | h2) | h3) | h4) | h5 := h
  · simp [hl]
  · simp [mem_nthAddrs h1]
  · simp [mem_nthAddrs h2]
  · simp [mem_nthAddrs h3]
  · simp [mem_nthAddrs h4]
  · simp [mem_nthAddrs h5]

/-- The registers whose read does something of its own. -/
def readEffectRegs : List Nat := [rOasTime0, rOasTime3, rEvrRewind, rEvrWin]

/-- A pair is defined whole, in one block, its halves are read without an effect of their own, and a _HI half is no _LO half. -/
theorem loAddrs_pair : ∀ a ∈ loAddrs, a < 2 ^ 31 ∧ (regAt a).isNone = false ∧ (regAt (a + 4)).isNone = false ∧ isLo (a + 4) = false ∧
    inOas (a + 4) = inOas a ∧ a ∉ readEffectRegs ∧ a + 4 ∉ readEffectRegs := by
  decide

section
variable {s : State} {w : Who} {a : Nat}

/-- The latches after a read of the _LO register at `a`: its _HI half is the last of them. -/
def State.latchHi (s : State) (w : Who) (a : Nat) : List (Nat × Word) :=
  (s.latch.filter fun p => p.1 ≠ a + 4) ++ [(a + 4, BitVec.ofNat 32 (s.regShows w (a + 4)))]

theorem State.latchHi_find : (s.latchHi w a).find? (fun p => p.1 == a + 4) = some (a + 4, BitVec.ofNat 32 (s.regShows w (a + 4))) := by
  have hnone : (s.latch.filter fun p => p.1 ≠ a + 4).find? (fun p => p.1 == a + 4) = none := by
    rw [List.find?_eq_none]
    intro p hp
    simpa using (List.mem_filter.1 hp).2
  rw [State.latchHi, List.find?_append, hnone]
  simp

theorem State.regRead_lo (h : isLo a = true) : s.regRead w a = (BitVec.ofNat 32 (s.regShows w a), { s with latch := s.latchHi w a }) := by
  obtain ⟨-, hd, -, -, -, heff, -⟩ := loAddrs_pair a (mem_loAddrs h)
  simp only [readEffectRegs, List.mem_cons, List.not_mem_nil, or_false, not_or] at heff
  obtain ⟨h1, h2, h3, h4⟩ := heff
  unfold State.regRead
  rw [if_neg h1, if_neg h2, if_neg h3, if_neg h4, if_neg (by simp [hd]), if_pos h]
  rfl

theorem State.regRead_hi {p : Nat × Word} (h : isLo a = true) (hp : s.latch.find? (fun p => p.1 == a + 4) = some p) :
    s.regRead w (a + 4) = (p.2, { s with latch := s.latch.filter fun q => q.1 ≠ a + 4 }) := by
  obtain ⟨-, -, hd, hlo, -, -, heff⟩ := loAddrs_pair a (mem_loAddrs h)
  simp only [readEffectRegs, List.mem_cons, List.not_mem_nil, or_false, not_or] at heff
  obtain ⟨h1, h2, h3, h4⟩ := heff
  unfold State.regRead
  rw [if_neg h1, if_neg h2, if_neg h3, if_neg h4, if_neg (by simp [hd]), if_neg (by simp [hlo]), hp]

end

section
variable {s : State} {w : Who} {addr : Word}

/-- The _HI register's address is four above, without a wrap. -/
theorem isLo_toNat_add (h : isLo addr.toNat = true) : (addr + 4).toNat = addr.toNat + 4 := by
  have hlt := (loAddrs_pair _ (mem_loAddrs h)).1
  rw [BitVec.toNat_add]
  exact Nat.mod_eq_of_lt (by simp; omega)

theorem exec_loRegisterRead_locked (h : isLo addr.toNat = true) (ho : inOas addr.toNat = true) (hl : s.locked = true) :
    exec (.loRegisterRead w addr) s = .next (s.busErr w) := by
  change execLoRegisterRead w addr s = _
  simp [execLoRegisterRead, h, ho, hl]

theorem exec_loRegisterRead_lo (h : isLo addr.toNat = true) (ho : inOas addr.toNat = true → s.locked = false) :
    exec (.loRegisterRead w addr) s =
      .next (({ s with latch := s.latchHi w addr.toNat } : State).answer w (.data (BitVec.ofNat 32 (s.regShows w addr.toNat)))) := by
  change execLoRegisterRead w addr s = _
  have hreach : ¬ (inOas addr.toNat && s.locked) = true := by
    rw [Bool.and_eq_true]
    rintro ⟨hi, hl⟩
    simp [ho hi] at hl
  unfold execLoRegisterRead
  dsimp only
  rw [if_pos (by simp [h]), if_neg hreach, State.regRead_lo h]

theorem exec_loRegisterRead_hi {p : Nat × Word} (h : isLo addr.toNat = true) (ho : inOas addr.toNat = true → s.locked = false)
    (hp : s.latch.find? (fun p => p.1 == addr.toNat + 4) = some p) :
    exec (.loRegisterRead w (addr + 4)) s =
      .next (({ s with latch := s.latch.filter fun q => q.1 ≠ addr.toNat + 4 } : State).answer w (.data p.2)) := by
  change execLoRegisterRead w (addr + 4) s = _
  obtain ⟨-, -, -, -, hoas, -, -⟩ := loAddrs_pair _ (mem_loAddrs h)
  have hreach : ¬ (inOas (addr.toNat + 4) && s.locked) = true := by
    rw [Bool.and_eq_true, hoas]
    rintro ⟨hi, hl⟩
    simp [ho hi] at hl
  unfold execLoRegisterRead
  rw [isLo_toNat_add h]
  dsimp only
  rw [if_pos (by simp [h]), if_neg hreach, State.regRead_hi h hp]

end

end Sys2Proof.Machine
end

section
/-! SUPPORT. The statement on accesses to the management address space: one lemma per kind of access. -/
namespace Sys2Proof.Machine

section
variable {w : Who} {addr v : Word} {s : State}

theorem exec_addressFault_outside (h : areaOf addr.toNat = .none) : exec (.addressFault w addr) s =
    .next (({ s with reply := s.reply.put w .busError } : State).event 0x41 addr.toNat none (le 1 (whoNum w))) :=
  if_pos h

theorem whoNum_lt (w : Who) : whoNum w < 3 := by cases w <;> decide

theorem exec_registerWrite_wram {size : Fin 3} (h : areaOf addr.toNat = .wram) (hend : areaOf (addr.toNat + 2 ^ size.val - 1) = .wram) :
    exec (.registerWrite .dev addr size v) s =
      .next ((s.wramPut (addr.toNat - 0x12000000) (le (2 ^ size.val) v.toNat)).answer .dev .done) := by
  have hdev : s.devWrite addr.toNat (le (2 ^ size.val) v.toNat) v =
      (s.wramPut (addr.toNat - 0x12000000) (le (2 ^ size.val) v.toNat)).answer .dev .done := by
    unfold State.devWrite
    rw [h]
  rw [← hdev]
  exact if_neg fun hn => hn (h.trans hend.symm)

/-- A write of device code to working RAM: the bytes named, and no other. -/
theorem registerWrite_wram_bytes {size : Fin 3} {o : Nat} (hs : s.Inv) (hoff : o = addr.toNat - 0x12000000) (h : areaOf addr.toNat = .wram)
    (hend : areaOf (addr.toNat + 2 ^ size.val - 1) = .wram) :
    ∃ t, exec (.registerWrite .dev addr size v) s = .next t ∧
      (∀ k, k < 2 ^ size.val → sget ramDefault t.wram (o + k) = (le 4 v.toNat).getD k 0) ∧
      (∀ a, a < o ∨ o + 2 ^ size.val ≤ a → sget ramDefault t.wram a = sget ramDefault s.wram a) ∧
      t = { s with wram := t.wram, reply := { s.reply with dev := .done } } := by
  obtain ⟨-, hram, -, -⟩ := hs
  have hsize : 2 ^ size.val ≤ 2 ^ 2 := Nat.pow_le_pow_right (by omega) (by omega)
  refine ⟨_, exec_registerWrite_wram h hend, fun k hk => ?_, fun a ha => ?_, ?_⟩
  · rw [State.answer_wram, ← hoff, State.wramPut_get hram, if_pos (by rw [le_length]; omega), Nat.add_sub_cancel_left, le_getD _ hk,
      le_getD _ (by omega)]
  · rw [State.answer_wram, ← hoff, State.wramPut_get hram, if_neg (by rw [le_length]; omega)]
  · rw [State.wramPut_frame]
    rfl

/-- What a write by masks leaves once it is answered: the register as the masks say, and nothing else but the answer. -/
theorem maskWrite_answered (hwf : swf regReset s.regs = true) (a : Nat) (rw w1c : Nat) (x : Word)
    (hx : ((BitVec.ofNat 32 (s.reg a) &&& ~~~ (BitVec.ofNat 32 rw)) ||| (v &&& BitVec.ofNat 32 rw)) &&& ~~~ (v &&& BitVec.ofNat 32 w1c) = x) :
    ((s.maskWrite a v rw w1c).answer w .done).reg a = x.toNat ∧ SameRegs s ((s.maskWrite a v rw w1c).answer w .done) [a] ∧
      (s.maskWrite a v rw w1c).answer w .done =
        { s with regs := ((s.maskWrite a v rw w1c).answer w .done).regs, reply := s.reply.put w .done } := by
  refine ⟨?_, fun b hb => State.reg_maskWrite_other hwf a v rw w1c (by simpa using hb), rfl⟩
  rw [← hx]
  exact State.reg_maskWrite hwf a v rw w1c

/-- Device code's write of a masked register: the join pool's bounds are such registers, so a write may also note that the pool has run out. -/
theorem registerWrite_masked {d : RegDef} {m : Nat} (hs : s.Inv) (hm : MaskedReg addr.toNat) (hd : regAt addr.toNat = some d)
    (ho : inOas addr.toNat = true → s.locked = false) (hmask : m = d.rw + (if s.lkOpen then d.lk else 0)) :
    ∃ t, exec (.registerWrite .dev addr 2 v) s = .next t ∧ SameRegs s t [addr.toNat, rArbIrq] ∧
      t = { s with regs := t.regs, reply := { s.reply with dev := .done } } ∧
      t.reg addr.toNat = (((BitVec.ofNat 32 (s.reg addr.toNat) &&& ~~~ (BitVec.ofNat 32 m)) ||| (v &&& BitVec.ofNat 32 m)) &&&
        ~~~ (v &&& BitVec.ofNat 32 d.w1c)).toNat := by
  obtain ⟨hwf, -, -, -⟩ := hs
  have hdev : s.devMask d addr.toNat v = s.maskWrite addr.toNat v m d.w1c := by rw [hmask]; rfl
  have hwf' := State.maskWrite_wf hwf addr.toNat v m d.w1c
  refine ⟨_, exec_registerWrite_masked hm ho hd, fun b hb => ?_, ?_, ?_⟩
  · simp only [List.mem_cons, List.not_mem_nil, or_false, not_or] at hb
    exact (State.poolNote_reg_other (hdev ▸ hwf') s hb.2).trans (hdev ▸ State.reg_maskWrite_other hwf addr.toNat v m d.w1c hb.1)
  · rw [State.poolNote_frame]
    rfl
  · change (s.poolNote (s.devMask d addr.toNat v)).reg addr.toNat = _
    rw [hdev, ← State.reg_maskWrite hwf]
    by_cases e : addr.toNat = rArbIrq
    · rw [State.poolNote_maskWrite hwf _ v m d.w1c (by rw [e]; decide) (by rw [e]; decide)]
    · exact State.poolNote_reg_other hwf' s e

theorem registerWrite_irq {d : RegDef} (hs : s.Inv) (hm : addr.toNat ∈ irqRegs) (hd : regAt addr.toNat = some d) :
    ∃ t, exec (.registerWrite w addr 2 v) s = .next t ∧
      t.reg addr.toNat = (BitVec.ofNat 32 (s.reg addr.toNat) &&& ~~~ (v &&& BitVec.ofNat 32 d.w1c)).toNat ∧
      SameRegs s t [addr.toNat] ∧ t = { s with regs := t.regs, reply := s.reply.put w .done } :=
  ⟨_, exec_registerWrite_irq hs.1 hm hd, maskWrite_answered hs.1 _ 0 d.w1c _
    (by simp only [BitVec.not_zero, BitVec.and_allOnes, BitVec.and_zero, BitVec.or_zero])⟩

theorem registerWrite_ien {d : RegDef} (hs : s.Inv) (hm : addr.toNat ∈ ienRegs) (hd : regAt addr.toNat = some d) :
    ∃ t, exec (.registerWrite w addr 2 v) s = .next t ∧
      t.reg addr.toNat = ((BitVec.ofNat 32 (s.reg addr.toNat) &&& ~~~ (BitVec.ofNat 32 d.rw)) ||| (v &&& BitVec.ofNat 32 d.rw)).toNat ∧
      SameRegs s t [addr.toNat] ∧ t = { s with regs := t.regs, reply := s.reply.put w .done } :=
  ⟨_, exec_registerWrite_ien hs.1 hm hd, maskWrite_answered hs.1 _ d.rw 0 _
    (by simp only [BitVec.not_zero, BitVec.and_allOnes, BitVec.and_zero])⟩

/-- The latched half is what the next read of the _HI register answers, whatever else has happened. -/
theorem loRegisterRead_latches (x : Who) (h : isLo addr.toNat = true) (ho : inOas addr.toNat = true → s.locked = false) :
    ∃ t, exec (.loRegisterRead w addr) s = .next t ∧ t.reply.at w = .data (BitVec.ofNat 32 (s.regShows w addr.toNat)) ∧
      t = { s with latch := t.latch, reply := t.reply } ∧
      ∀ u : State, u.latch = t.latch → u.locked = s.locked → ∃ v, exec (.loRegisterRead x (addr + 4)) u = .next v ∧
        v.reply.at x = .data (BitVec.ofNat 32 (s.regShows w (addr.toNat + 4))) ∧ v = { u with latch := v.latch, reply := v.reply } := by
  refine ⟨_, exec_loRegisterRead_lo h ho, PerWho.at_put_self _ _ _, rfl, fun u hlatch hlocked => ?_⟩
  have hfind := State.latchHi_find (s := s) (w := w) (a := addr.toNat)
  rw [← show u.latch = s.latchHi w addr.toNat from hlatch] at hfind
  exact ⟨_, exec_loRegisterRead_hi h (fun hi => hlocked.trans (ho hi)) hfind, PerWho.at_put_self _ _ _, rfl⟩

end

/-- Settles O43: each kind of access by its own lemma above. -/
theorem registerAccessesFollowTheMap : Obligations.RegisterAccessesFollowTheMap :=
  ⟨fun w _ _ h => ⟨whoNum w, exec_addressFault_outside h, whoNum_lt w⟩,
   fun _ _ _ _ _ hs ho h hend => registerWrite_wram_bytes hs ho h hend,
   fun _ _ _ _ hr h4 hd hq ho => exec_registerWrite_undefined hr h4 hd hq ho,
   fun _ _ _ _ _ hs hm hd => registerWrite_irq hs hm hd,
   fun _ _ _ _ _ hs hm hd => registerWrite_ien hs hm hd,
   fun _ _ _ _ _ hw hr h4 hd hirq hien hc => exec_registerWrite_closed hw hr h4 hd hirq hien hc,
   fun _ _ _ _ _ hs hr h4 hd hq ho htrim hsp hmask => registerWrite_masked hs ⟨hr, h4, hq, htrim, hsp⟩ hd ho hmask,
   fun _ _ _ h ho hl => exec_loRegisterRead_locked h ho hl,
   fun _ x _ _ h ho => loRegisterRead_latches x h ho⟩

end Sys2Proof.Machine
end

section
/-! SUPPORT. What the sequencer finds at the head of an ingress ring, and the entry that it makes of it (R26 to R33, R82). -/
namespace Sys2Proof.Machine

/-! ### The item at a ring's head -/

/-- The fields of a packet's length word, cut or whole. -/
theorem lengthWord_kind_cut (cut : Bool) {ty : Nat} (len : Nat) (h : ty < 256) :
    bits 23 16 (lengthWord cut ty len).toNat = ty ∧ bit 27 (lengthWord cut ty len).toNat = cut := by
  unfold lengthWord
  rw [BitVec.toNat_ofNat]
  cases cut <;> simp [flag, bits, bit] <;> omega

/-- Taking an item from a ring changes that ring only, and the item is the one peeked at. -/
theorem ringTake_fst (s : State) (n : Nat) : (s.ringTake n).1 = s.ringPeek n := by
  unfold State.ringTake
  dsimp only
  split
  · rename_i h; rw [h]
  · rfl

theorem ringTake_frame (s : State) (n : Nat) : (s.ringTake n).2 = { s with rings := (s.ringTake n).2.rings } := by
  unfold State.ringTake
  dsimp only
  split <;> rfl

theorem ringTake_eq {s : State} {n : Nat} {it : Item} (h : s.ringPeek n = it) : s.ringTake n = (it, (s.ringTake n).2) := by
  rw [← h, ← ringTake_fst]

@[simp] theorem ringTake_seq (s : State) (n : Nat) : (s.ringTake n).2.seq = s.seq := by rw [ringTake_frame]
@[simp] theorem ringTake_regs (s : State) (n : Nat) : (s.ringTake n).2.regs = s.regs := by rw [ringTake_frame]
@[simp] theorem ringTake_dev (s : State) (n : Nat) : (s.ringTake n).2.dev = s.dev := by rw [ringTake_frame]
@[simp] theorem ringTake_ctx (s : State) (n : Nat) : (s.ringTake n).2.ctx = s.ctx := by rw [ringTake_frame]

/-! ### The entry -/

section
variable (s : State) (kind : Kind) (cls : EClass) (src : Src) (stamp : Nat) (flags : EFlags) (payload : Bytes)

theorem append_journal : (s.append kind cls src stamp flags payload).seq.journal = s.seq.journal ++ [s.entryOf kind cls src stamp flags payload] := by
  obtain ⟨_, _, _, _, _, q, h, hq, _⟩ := append_form s kind cls src stamp flags payload
  rw [h, hq]

theorem append_nextJsn : (s.append kind cls src stamp flags payload).seq.nextJsn = s.seq.nextJsn + 1 := by
  obtain ⟨_, _, _, _, _, q, h, hq, _⟩ := append_form s kind cls src stamp flags payload
  rw [h, hq]

/-- The one entry that joins the journal, part by part, where only the sequencer of `s` is known. -/
theorem append_adds {s u : State} (h : u.seq = s.seq) : ∃ e,
    (u.append kind cls src stamp flags payload).seq.journal = s.seq.journal ++ [e] ∧
    (u.append kind cls src stamp flags payload).seq.nextJsn = s.seq.nextJsn + 1 ∧ e.kind = kind ∧ e.jsn = s.seq.nextJsn ∧ e.stamp = stamp ∧
    e.src = { src with origin := s.seq.pos } ∧ e.cls = cls ∧ e.payload = payload ∧ e.flags = flags := by
  rw [append_journal, append_nextJsn, State.entryOf, h]
  exact ⟨_, rfl, rfl, rfl, rfl, rfl, rfl, rfl, rfl, rfl⟩

end

theorem inputFlags_congr {s u : State} (hq : u.seq = s.seq) (hd : u.dev = s.dev) (hc : u.ctx = s.ctx) (stamp : Nat) :
    u.inputFlags stamp = s.inputFlags stamp := by
  unfold State.inputFlags State.stampState
  rw [hq, hd, hc]

theorem journalHeld_whole {s : State} {ring : Nat} {stamp : Nat} {cut : Bool} {ty : Nat} {ws : List Word} {k : Kind} (ht : ty < 256)
    (hk : Kind.ofCode ty = some k) (h : packetTrunc cut ws = false) :
    s.journalHeld { ring := ring, stamp := stamp, pkt := lengthWord cut ty ws.length :: ws } = s.journalInput (Input.ofWords k ws) := by
  obtain ⟨hty, hcut⟩ := lengthWord_kind_cut cut ws.length ht
  unfold State.journalHeld
  simp only [hty, hcut, hk]
  rw [if_neg (by simp [h])]

theorem journalHeld_cut {s : State} {ring : Nat} {stamp : Nat} {cut : Bool} {ty : Nat} {ws : List Word} {k : Kind} (ht : ty < 256)
    (hk : Kind.ofCode ty = some k) (h : packetTrunc cut ws = true) :
    s.journalHeld { ring := ring, stamp := stamp, pkt := lengthWord cut ty ws.length :: ws } =
      s.append k .trunc (Input.ofWords k ws).src (Input.ofWords k ws).stamp
        { s.inputFlags (Input.ofWords k ws).stamp with ring := ring } [] := by
  obtain ⟨hty, hcut⟩ := lengthWord_kind_cut cut ws.length ht
  unfold State.journalHeld
  simp only [hty, hcut, hk]
  rw [if_pos h]

end Sys2Proof.Machine
end

section
/-! SUPPORT. The commands that take an input or a wadi marker from an ingress ring (R26 to R33, R51, R52, R103). -/
namespace Sys2Proof.Machine

section
variable {s : State} {ring : Fin 16}

theorem exec_journalInput_packet {cut : Bool} {ty : Nat} {ws : List Word} (ht : s.takesFrom ring = true)
    (hp : s.ringPeek ring = .packet cut ty ws) :
    exec (.journalInput ring) s = .next ((s.ringTake ring).2.takeInput ring (lengthWord cut ty ws.length) ws) := by
  change execJournalInput ring s = _
  unfold execJournalInput
  rw [if_pos ht, ringTake_eq hp]
  rfl

theorem exec_ringLoss_marker {d : Nat} (ht : s.takesFrom ring = true) (hp : s.ringPeek ring = .marker d) :
    exec (.ringLoss ring) s =
      .next ((((s.ringTake ring).2.count rJsqLosscnt d).irq rJsqIrq 3).journalOwn .ringLoss (le 1 ring ++ le 3 d)) := by
  change execRingLoss ring s = _
  unfold execRingLoss
  rw [if_pos ht, ringTake_eq hp]
  rfl

theorem takeInput_noHold {u : State} (h : u.seq.hold = none) (n : Nat) (l : Word) (ws : List Word) :
    u.takeInput n l ws = u.journalHeld { ring := n, stamp := (ws.getD 0 0).toNat + (ws.getD 1 0).toNat * 4294967296, pkt := l :: ws } := by
  unfold State.takeInput
  rw [h]

/-- In a hold an input at or after the boundary instant joins the buffer; the one that fills it ends the hold. -/
theorem takeInput_held {u : State} {h : Hold} {n : Nat} {l : Word} {ws : List Word} {x : HeldIn} (hh : u.seq.hold = some h)
    (hx : x = { ring := n, stamp := (ws.getD 0 0).toNat + (ws.getD 1 0).toNat * 4294967296, pkt := l :: ws })
    (hk : bits 23 16 l.toNat ≠ 0x20) (he : isHoldEnd l ws = false) (hT : h.T ≤ x.stamp) (hw : h.words + ws.length + 1 ≤ 442368) :
    u.takeInput n l ws =
      if 4096 ≤ h.items.length + 1 ∨ h.words + ws.length + 1 = 442368 then
        ({ u.holdStore h x with seq := { u.seq with hold := some { h with items := h.items ++ [x] } } } : State).holdFull
      else { u.holdStore h x with seq := { u.seq with hold := some { h with items := h.items ++ [x] } } } := by
  subst hx
  unfold State.takeInput
  rw [hh]
  dsimp only
  rw [if_neg hk, if_neg (by simp only [he]; simpa using hT), if_neg (by omega)]

end

/-- Settles O13: outside a hold by whether the packet is whole, in a hold by whether the input fills the buffer. -/
theorem inputBecomesEntry : Obligations.InputBecomesEntry := by
  refine ⟨fun ring s u cut k ty ws i ht hh hp hu hty hk _ hi => ?_, fun ring s u h cut ty ws x ht hp hu hh hty hsw _ hx he hT hw => ?_⟩
  · subst hu hi
    rw [exec_journalInput_packet ht hp, takeInput_noHold (by rw [ringTake_seq]; exact hh)]
    cases hc : packetTrunc cut ws with
    | false =>
      rw [journalHeld_whole hty hk hc]
      obtain ⟨e, hj, hn, h1, h2, h3, h4, hcls, hpay, -⟩ := append_adds k (Input.ofWords k ws).cls (Input.ofWords k ws).src
        (Input.ofWords k ws).stamp _ (Input.ofWords k ws).payload (ringTake_seq s ring)
      exact ⟨_, e, rfl, hj, hn, h1, h2, h3, h4, fun _ => ⟨hcls, hpay, rfl⟩, nofun⟩
    | true =>
      rw [journalHeld_cut hty hk hc]
      obtain ⟨e, hj, hn, h1, h2, h3, h4, hcls, hpay, hfl⟩ := append_adds k .trunc (Input.ofWords k ws).src
        (Input.ofWords k ws).stamp { (s.ringTake ring).2.inputFlags (Input.ofWords k ws).stamp with ring := ring } [] (ringTake_seq s ring)
      exact ⟨_, e, rfl, hj, hn, h1, h2, h3, h4, nofun, fun _ => ⟨hcls, hpay, congrArg EFlags.ring hfl, rfl⟩⟩
  · have hkind : bits 23 16 (lengthWord cut ty ws.length).toNat ≠ 0x20 := by rw [(lengthWord_kind_cut cut ws.length hty).1]; exact hsw
    subst hu
    rw [exec_journalInput_packet ht hp, takeInput_held (by rw [ringTake_seq]; exact hh) hx hkind he hT hw, ringTake_seq]
    refine ⟨_, rfl, fun h1 h2 => ?_, fun h1 => ?_⟩
    · rw [if_neg (by omega)]
    · rw [if_pos h1]
      rfl

theorem satAdd_eq_min (m a b : Nat) : satAdd m a b = min m (a + b) := by
  unfold satAdd
  split <;> omega

/-- A counter register after it has advanced. -/
theorem State.reg_count {s : State} (h : swf regReset s.regs = true) (a n : Nat) : (s.count a n).reg a = min 0xFFFFFFFF (s.reg a + n) := by
  unfold State.count
  rw [State.reg_setReg h, if_pos rfl, satAdd_eq_min, Nat.mod_eq_of_lt (by omega)]

theorem State.reg_count_other {s : State} (h : swf regReset s.regs = true) {a b : Nat} (n : Nat) (ne : b ≠ a) : (s.count a n).reg b = s.reg b :=
  State.reg_setReg_other h _ ne

theorem State.count_wf {s : State} (h : swf regReset s.regs = true) (a n : Nat) : swf regReset (s.count a n).regs = true :=
  State.setReg_wf h _ _

theorem State.reg_of_regs {s u : State} (h : u.regs = s.regs) (a : Nat) : u.reg a = s.reg a := by
  unfold State.reg
  rw [h]

/-- Settles O14: the count and the flag move two registers, and what the entry says is as it was before. -/
theorem markerBecomesRingLoss : Obligations.MarkerBecomesRingLoss := by
  intro ring s u d hs ht hp hu
  have hreg : ∀ a, u.reg a = s.reg a := State.reg_of_regs (by rw [hu]; exact ringTake_regs _ _)
  have hwf : swf regReset u.regs = true := by rw [hu, ringTake_regs]; exact hs.1
  have hcwf := State.count_wf hwf rJsqLosscnt d
  have hfl : ((u.count rJsqLosscnt d).irq rJsqIrq 3).inputFlags s.dev = s.inputFlags s.dev :=
    inputFlags_congr (by simp [hu]) (by simp [hu]) (by simp [hu]) _
  refine ⟨(u.count rJsqLosscnt d).irq rJsqIrq 3, ?_, State.irq_eq _ _ _, ?_, State.irq_set hcwf (by decide), fun a ha => ?_⟩
  · rw [exec_ringLoss_marker ht hp, ← hu, ← hfl]
    have hdev : ((u.count rJsqLosscnt d).irq rJsqIrq 3).dev = s.dev := by simp [hu]
    rw [← hdev]
    rfl
  · rw [State.reg_irq_other hcwf _ (by decide), State.reg_count hwf, hreg]
  · simp only [List.mem_cons, List.not_mem_nil, or_false, not_or] at ha
    rw [State.reg_irq_other hcwf _ ha.2, State.reg_count_other hwf _ ha.1, hreg]

end Sys2Proof.Machine
end

section
/-! SUPPORT. The boundary hold: its start, the order of the inputs it buffers, and the boundary entries of an instant (R31, R38, R51 to R53, R75, R242). -/
namespace Sys2Proof.Machine

/-! ### The order of held inputs -/

/-- No supply input stands behind another input of its stamp. -/
def SupplyFirst (l : List HeldIn) : Prop := l.Pairwise fun a b => a.stamp = b.stamp → b.supply = true → a.supply = true

theorem placeHeld_perm (x : HeldIn) (l : List HeldIn) : (placeHeld x l).Perm (x :: l) := by
  induction l with
  | nil => exact .refl _
  | cons y r ih =>
    unfold placeHeld
    split
    · exact .refl _
    · exact (ih.cons y).trans (.swap x y r)

/-- The other inputs keep their order of arrival. -/
theorem placeHeld_filter (x : HeldIn) (l : List HeldIn) :
    (placeHeld x l).filter (fun z => !z.supply) = (l ++ [x]).filter fun z => !z.supply := by
  induction l with
  | nil => rfl
  | cons y r ih =>
    unfold placeHeld
    split
    · rename_i h
      simp only [Bool.and_eq_true, Bool.not_eq_true'] at h
      rw [List.filter_append, List.filter_cons_of_neg (by simp [h.1.1])]
      simp [h.1.1]
    · rw [List.cons_append, List.filter_cons, List.filter_cons, ih]

theorem placeHeld_supplyFirst (x : HeldIn) {l : List HeldIn} (h : SupplyFirst l) : SupplyFirst (placeHeld x l) := by
  induction l with
  | nil => exact List.pairwise_singleton _ _
  | cons y r ih =>
    obtain ⟨hy, hr⟩ := List.pairwise_cons.1 h
    unfold placeHeld
    split
    · rename_i hc
      simp only [Bool.and_eq_true] at hc
      exact List.pairwise_cons.2 ⟨fun _ _ _ _ => hc.1.1, h⟩
    · rename_i hc
      refine List.pairwise_cons.2 ⟨fun z hz hst hs => ?_, ih hr⟩
      rcases List.mem_cons.1 ((placeHeld_perm x r).mem_iff.1 hz) with rfl | hm
      · simpa [hst, hs] using hc
      · exact hy z hm hst hs

theorem heldOrder_snoc (l : List HeldIn) (x : HeldIn) : heldOrder (l ++ [x]) = placeHeld x (heldOrder l) := List.foldl_append ..

theorem heldOrder_perm (l : List HeldIn) : (heldOrder l).Perm l := by
  induction l using List.reverseRecOn with
  | nil => exact .refl _
  | append_singleton l x ih =>
    rw [heldOrder_snoc]
    exact (placeHeld_perm _ _).trans ((ih.cons x).trans (List.perm_append_singleton x l).symm)

theorem heldOrder_filter (l : List HeldIn) : (heldOrder l).filter (fun z => !z.supply) = l.filter fun z => !z.supply := by
  induction l using List.reverseRecOn with
  | nil => rfl
  | append_singleton l x ih => rw [heldOrder_snoc, placeHeld_filter, List.filter_append, List.filter_append, ih]

theorem heldOrder_supplyFirst (l : List HeldIn) : SupplyFirst (heldOrder l) := by
  induction l using List.reverseRecOn with
  | nil => exact .nil
  | append_singleton l x ih =>
    rw [heldOrder_snoc]
    exact placeHeld_supplyFirst x ih

/-! ### Start and end of a hold -/

/-- A hold of a millisecond or more takes time. -/
theorem holdUnits_eq_zero_iff (s : State) : s.holdUnits = 0 ↔ s.fld rJsqBhold 15 0 = 0 := by
  unfold State.holdUnits msU second
  omega

section
variable {s : State} {x : Nat}

theorem exec_boundaryHoldStart (hrun : s.bitOf rJsqCtl 0 = true) (hholder : s.seq.holder = true) (hnone : s.seq.hold = none)
    (hsure : s.seq.unsure = false) (hregr : s.seq.regressed = false) (hx : s.nextBoundarySec = some x) :
    exec .boundaryHoldStart s =
      if (s.untilDev (x * second)).seq.khamsin ∨ (s.untilDev (x * second)).holdUnits = 0 then
        .next ((s.untilDev (x * second)).journalBoundaries (x * second) false)
      else .next { s.untilDev (x * second) with
        seq := { (s.untilDev (x * second)).seq with hold := some { T := x * second, endAt := (s.untilDev (x * second)).t + (s.untilDev (x * second)).holdUnits } } } := by
  change execBoundaryHoldStart s = _
  unfold execBoundaryHoldStart
  rw [if_pos (by simp [hrun, hholder, hnone, hsure, hregr]), hx]

/-- A hold that ends with time sure: its boundary entries, then its inputs in their order. -/
theorem endHold_sure {h : Hold} (hh : s.seq.hold = some h) (hsure : s.seq.unsure = false) (hregr : s.seq.regressed = false) :
    s.endHold none = (heldOrder h.items).foldl (fun a x => a.journalHeld x)
      (({ s with seq := { s.seq with hold := none } } : State).journalBoundaries h.T false) := by
  unfold State.endHold
  rw [hh]
  dsimp only
  rw [if_neg (by simp [hsure, hregr])]

theorem exec_boundaryHoldEnd {h : Hold} (hh : s.seq.hold = some h) : exec .boundaryHoldEnd s = .next ((s.until h.endAt).endHold none) := by
  change execBoundaryHoldEnd s = _
  unfold execBoundaryHoldEnd
  rw [hh]

end

/-! ### Boundary entries -/

section
variable (s : State) (T : Nat) (held : Bool)

theorem journalBoundary_other {k : Kind} (h : k ≠ .bndPeriod) (subj : Nat) :
    s.journalBoundary T held (k, subj) = s.append k .normal {} T { timeUnsure := s.seq.unsure, held := held } (le 4 subj) := if_neg h

theorem journalBoundary_period (h : s.ctx.nextPer - s.ctx.epoch < 2) (subj : Nat) :
    s.journalBoundary T held (.bndPeriod, subj) =
      s.append .bndPeriod .normal {} T { timeUnsure := s.seq.unsure, held := held } (le 4 s.ctx.nextPer) := by
  unfold State.journalBoundary
  dsimp only
  rw [if_pos rfl, if_neg (by omega)]

theorem journalBoundary_heldPeriod (h : 2 ≤ s.ctx.nextPer - s.ctx.epoch) (subj : Nat) :
    s.journalBoundary T held (.bndPeriod, subj) =
      ({ s with ctx := { s.ctx with heldPers := s.ctx.heldPers ++ [T] } } : State).irq rBilIrq 3 := by
  unfold State.journalBoundary
  dsimp only
  rw [if_pos rfl, if_pos h]

end

/-- Settles O15: the start by whether a hold is due, the end by the order of what it buffered, an entry by its kind. -/
theorem boundaryHoldStartsAndEnds : Obligations.BoundaryHoldStartsAndEnds := by
  refine ⟨fun s s1 x hrun hholder hnone hsure hregr hx hs1 => ?_, fun s s1 u h hh hs1 hsure hregr hu => ?_,
    fun s T held k subj => ⟨fun hk => journalBoundary_other s T held hk subj, fun hc => journalBoundary_period s T held hc subj,
      fun hc => ⟨_, journalBoundary_heldPeriod s T held hc subj, State.irq_eq _ _ _⟩⟩⟩
  · have hk : s1.seq.khamsin = s.seq.khamsin := by rw [hs1, State.untilDev_seq]
    rw [exec_boundaryHoldStart hrun hholder hnone hsure hregr hx, ← hs1, hk]
    refine ⟨fun h1 h2 => ?_, fun h => if_pos (h.imp_right (holdUnits_eq_zero_iff s1).2)⟩
    rw [if_neg (by simp [h1, h2, holdUnits_eq_zero_iff])]
    rfl
  · subst hs1
    rw [exec_boundaryHoldEnd hh, endHold_sure (by rw [State.until_seq]; exact hh) hsure hregr, ← hu]
    exact ⟨_, rfl, heldOrder_perm _, heldOrder_filter _, heldOrder_supplyFirst _⟩

end Sys2Proof.Machine
end

section
/-! SUPPORT. Draws, and checkpoints as they are asked for and cut (R43, R45, R68, R69, R538, R704). -/
namespace Sys2Proof.Machine

/-! ### Draws -/

/-- The DRBG after one more call (R538). -/
def State.drawn (s : State) : State :=
  let s1 : State := { s with sec := { s.sec with drbg := s.sec.drbg + 1, calls := if 65536 ≤ s.sec.calls + 1 then 0 else s.sec.calls + 1 } }
  if 65536 ≤ s.sec.calls + 1 then s1.count rCphReseed 1 else s1

theorem journalDraw_eq (s : State) (tag n : Nat) :
    s.journalDraw tag n = s.drawn.append .drbgDraw .normal (if bits 30 24 tag = 0x42 then { slot := bits 16 0 tag, slotV := true } else {}) s.drawn.dev
      (s.drawn.inputFlags s.drawn.dev) (le 4 tag ++ fit n (s.wrapJ (Config.drbg s.sec.drbg (n - 8)))) := rfl

theorem drawn_few {s : State} (h : s.sec.calls + 1 < 65536) :
    s.drawn = { s with sec := { s.sec with drbg := s.sec.drbg + 1, calls := s.sec.calls + 1 } } := by
  unfold State.drawn
  rw [if_neg (by omega), if_neg (by omega)]

theorem drawn_reseeds {s : State} (h : 65536 ≤ s.sec.calls + 1) :
    s.drawn = State.count { s with sec := { s.sec with drbg := s.sec.drbg + 1, calls := 0 } } rCphReseed 1 := by
  unfold State.drawn
  rw [if_pos h, if_pos h]

/-- A call moves the DRBG's two counters and at most one register. -/
theorem drawn_frame (s : State) : s.drawn =
    { s with regs := s.drawn.regs, sec := { s.sec with drbg := s.sec.drbg + 1, calls := if s.sec.calls + 1 < 65536 then s.sec.calls + 1 else 0 } } := by
  by_cases h : s.sec.calls + 1 < 65536
  · rw [drawn_few h, if_pos h]
  · rw [drawn_reseeds (by omega), if_neg h]
    rfl

/-- The counter of reseeds counts one call in 65,536. -/
theorem drawn_reg {s : State} (hwf : swf regReset s.regs = true) :
    s.drawn.reg rCphReseed = (if s.sec.calls + 1 < 65536 then s.reg rCphReseed else min 4294967295 (s.reg rCphReseed + 1)) ∧
      SameRegs s s.drawn [rCphReseed] := by
  by_cases h : s.sec.calls + 1 < 65536
  · rw [drawn_few h, if_pos h]
    exact ⟨rfl, fun _ _ => rfl⟩
  · rw [drawn_reseeds (by omega), if_neg h]
    exact ⟨State.reg_count hwf _ _, fun a ha => State.reg_count_other hwf _ (by simpa using ha)⟩

theorem exec_drbgDraw {k : Key} {s : State} {tag n : Nat} (hw : s.waitsFor k = some (.draw tag n)) (hd : s.drawsServed = true)
    (hs : s.seqTakes = true) : exec (.drbgDraw k) s = .next (s.journalDraw tag n) := by
  change execDrbgDraw k s = _
  unfold execDrbgDraw
  rw [hw]
  dsimp only
  rw [if_pos (by simp [hd, hs])]

/-- Settles O16: the entry is made beside one call of the DRBG. -/
theorem drawIsJournaledWrapped : Obligations.DrawIsJournaledWrapped := by
  intro k s tag n src hw hd hs hi hsrc
  have hf := drawn_frame s
  obtain ⟨hr, hsame⟩ := drawn_reg hi.1
  have hdev : s.drawn.dev = s.dev := by rw [hf]
  have hfl : s.drawn.inputFlags s.dev = s.inputFlags s.dev := inputFlags_congr (by rw [hf]) hdev (by rw [hf]) _
  refine ⟨s.drawn, ?_, hf, hr, hsame⟩
  rw [exec_drbgDraw hw hd hs, journalDraw_eq, hdev, hfl, hsrc]

/-! ### Checkpoints -/

/-- A cut journals CKPT beside a checkpoint in writing, and serves the request. -/
theorem cutCkpt_eq (s : State) :
    s.cutCkpt = State.append { s with seq := { s.seq with ckptNo := s.seq.ckptNo + 1, ckptReq := false,
                                                          ckptBusy := s.seq.ckptBusy ++ [s.ckptHere (s.seq.ckptNo + 1) s.dev] } }
      .ckpt .normal {} s.dev (s.inputFlags s.dev) (le 4 (s.seq.ckptNo + 1)) := rfl

section
variable {s : State} (ht : s.seqTakes = true) (hk : s.seq.khamsin = false)
include ht hk

theorem exec_ckptCut_asked (h : s.seq.ckptReq = true) : exec .ckptCut s = .next s.cutCkpt := by
  change execCkptCut s = _
  unfold execCkptCut
  rw [if_pos (by simp [ht, hk]), if_pos h]

theorem exec_ckptCut_due (h : s.seq.ckptReq = false) {j st : Nat} (hl : s.seq.lastCkpt = some (j, st)) :
    exec .ckptCut s = if j + 1048576 < s.seq.nextJsn then .next s.cutCkpt else .next (s.untilDev (st + 21600 * second)).cutCkpt := by
  change execCkptCut s = _
  unfold execCkptCut
  rw [if_pos (by simp [ht, hk]), if_neg (by simp [h]), hl]
  rfl

end

/-- The first number above `lo`, within the fuel, that satisfies `p`. -/
theorem nextSec_first {p : Nat → Bool} {lo fuel x : Nat} (hlo : lo < x) (hhi : x ≤ lo + fuel) (hx : p x = true)
    (hfirst : ∀ y, lo < y → y < x → p y = false) : nextSec p lo fuel = some x := by
  induction fuel generalizing lo with
  | zero => omega
  | succ n ih =>
    unfold nextSec
    by_cases e : lo + 1 = x
    · rw [e, if_pos hx]
    · rw [if_neg (by simp [hfirst (lo + 1) (by omega) (by omega)])]
      exact ih (by omega) (by omega) fun y hy => hfirst y (by omega)

theorem exec_updHourCkpt {s : State} {since x : Nat} (ha : s.boot.updHourAt = some since) (hm : s.boot.updMode = 2) (hh : s.boot.updHour < 24)
    (ht : s.seqTakes = true) (hk : s.seq.khamsin = false)
    (hx : nextSec (fun x => (stdSec s.cfg x).emod 86400 == (s.boot.updHour : Int) * 3600) (secOf since) 90000 = some x)
    (hu : (s.untilDev (x * second)).seq.unsure = false) :
    exec .updHourCkpt s = .next ((s.untilDev (x * second)).setBoot fun b => { b with updHourAt := none }).cutCkpt := by
  change execUpdHourCkpt s = _
  unfold execUpdHourCkpt
  rw [ha]
  -- The wait is kept opaque: unfolded, it would have the kernel count the units of its seconds.
  obtain ⟨f, hf⟩ : ∃ f, s.untilDev = f := ⟨_, rfl⟩
  rw [hf] at hu ⊢
  dsimp -zeta only
  rw [if_pos ⟨hm, hh, ht, hk⟩, hx]
  dsimp only
  rw [hu]
  rfl

/-- Settles O17: by what makes a checkpoint due, who asks for one, and the hour of an update. -/
theorem checkpointIsCut : Obligations.CheckpointIsCut := by
  refine ⟨fun s u ht hk hdue hu => ?_, fun s s1 u j st ht hk hr hl hj hs1 hu => ?_, fun s => rfl, fun w s hw => ?_,
    fun s s1 u since x ha hm hh ht hk hlo hhi hx hfirst hs1 hsure hu => ?_⟩
  · rw [hu, ← cutCkpt_eq]
    by_cases hr : s.seq.ckptReq = true
    · exact exec_ckptCut_asked ht hk hr
    · obtain ⟨j, st, hl, hj⟩ := hdue.resolve_left hr
      rw [exec_ckptCut_due ht hk (by simpa using hr) hl, if_pos hj]
  · rw [hu, ← cutCkpt_eq, exec_ckptCut_due ht hk hr hl, if_neg (by omega), hs1]
  · exact if_neg hw
  · subst hs1
    rw [exec_updHourCkpt ha hm hh ht hk (nextSec_first hlo hhi (by simpa using hx) fun y h1 h2 => by simpa using hfirst y h1 h2) hsure, hu]
    rfl

end Sys2Proof.Machine
end

section
/-! SUPPORT. What an event and the trimming of the journal change, and how a checkpoint in writing ends (R66, R72, R569, R573, R592, R708). -/
namespace Sys2Proof.Machine

/-! ### Events -/

/-- An event changes Q14 with its words, and an answer that waits there. -/
theorem event_only {s : State} (hs : s.Inv) (cls arg : Nat) (slot : Option Nat) (data : Bytes) : OnlyRing 14 s (s.event cls arg slot data) := by
  obtain ⟨-, hw, -, hl⟩ := hs
  exact ringPacket_only rfl (by omega) hw _ _

theorem OnlyRing.ram_same {n : Nat} {s t : State} (h : OnlyRing n s t) : SameRam s t [n] := fun a ha => h.ram a (ha n (by simp))

theorem event_regs (s : State) (cls arg : Nat) (slot : Option Nat) (data : Bytes) : (s.event cls arg slot data).regs = s.regs :=
  ringPacket_regs rfl _ _ _

/-- An event leaves registers and all else but rings, working RAM and answers. -/
theorem event_frame (s : State) (cls arg : Nat) (slot : Option Nat) (data : Bytes) :
    s.event cls arg slot data = { s with rings := (s.event cls arg slot data).rings, wram := (s.event cls arg slot data).wram,
                                         reply := (s.event cls arg slot data).reply } := by
  have h : RingFrame s (s.event cls arg slot data) := State.ringPacket_frame _ _ _ _
  unfold RingFrame at h
  rw [event_regs] at h
  exact h

/-- A flag set beside changes that no register sees: the flag is 1, and every other register is as before. -/
theorem State.irq_flag {s u : State} (hr : u.regs = s.regs) (hwf : swf regReset s.regs = true) {a k : Nat} (hk : k < 32) :
    (u.irq a k).bitOf a k = true ∧ SameRegs s (u.irq a k) [a] := by
  have hu : swf regReset u.regs = true := hr ▸ hwf
  refine ⟨State.irq_set hu hk, fun b hb => ?_⟩
  rw [State.reg_irq_other hu _ (by simpa using hb), State.reg_of_regs hr]

/-! ### The media, with an event at most -/

/-- From `s` to `t` the media may differ, and rings, working RAM and answers. -/
def MedFrame (s t : State) : Prop := t = { s with med := t.med, rings := t.rings, wram := t.wram, reply := t.reply }

theorem MedFrame.trans {a b c : State} (h : MedFrame a b) (k : MedFrame b c) : MedFrame a c := by
  unfold MedFrame at *
  rw [k, h]

/-- Trimming moves the media, and may raise one event. -/
theorem trimJournal_form (s : State) : ∃ n : Nand, s.trimJournal = (s.setNand fun _ => n) ∨
    ∃ data, s.trimJournal = (s.setNand fun _ => n).event 0x56 0 none data := by
  unfold State.trimJournal
  extract_lets n keep old n1 excess cut n2 s1
  refine ⟨n2.sweepInvalid, ?_⟩
  split
  · exact .inl rfl
  · exact .inr ⟨_, rfl⟩

theorem trimJournal_frame (s : State) : MedFrame s s.trimJournal := by
  obtain ⟨n, h | ⟨data, h⟩⟩ := trimJournal_form s
  · rw [h]
    rfl
  · rw [h]
    have e : MedFrame (s.setNand fun _ => n) ((s.setNand fun _ => n).event 0x56 0 none data) := by
      unfold MedFrame
      exact (event_frame (s.setNand fun _ => n) 0x56 0 none data).trans (by rw [State.event_med])
    exact MedFrame.trans (b := s.setNand fun _ => n) rfl e

/-- Of the rings and working RAM only Q14 can move. -/
theorem trimJournal_rings {s : State} (hs : s.Inv) : SameRings s s.trimJournal [14] ∧ SameRam s s.trimJournal [14] := by
  obtain ⟨n, h | ⟨data, h⟩⟩ := trimJournal_form s
  · rw [h]
    exact ⟨fun _ _ => rfl, fun _ _ => rfl⟩
  · have e := event_only (s := s.setNand fun _ => n) hs 0x56 0 none data
    rw [h]
    exact ⟨e.rings, e.ram_same⟩

/-! ### A checkpoint in writing -/

/-- What is left once the checkpoint `k` is the latest valid one, before its interrupt (R72, R73, R708). -/
def State.ckptKept (s : State) (k : Ckpt) (r : List Ckpt) : State :=
  (State.setNand { s with seq := { s.seq with ckptBusy := r, ckpts := (s.seq.ckpts ++ [k]).drop (s.seq.ckpts.length - 1) } }
    fun n => n.addCkpt k (s.med.caps.getD 1 0 * 1048576)).keepImages.trimJournal

theorem ckptKept_frame (s : State) (k : Ckpt) (r : List Ckpt) :
    MedFrame { s with seq := { s.seq with ckptBusy := r, ckpts := (s.seq.ckpts ++ [k]).drop (s.seq.ckpts.length - 1) } } (s.ckptKept k r) :=
  MedFrame.trans (b := State.keepImages _) rfl (trimJournal_frame _)

theorem ckptKept_rings {s : State} (hs : s.Inv) (k : Ckpt) (r : List Ckpt) :
    SameRings s (s.ckptKept k r) [14] ∧ SameRam s (s.ckptKept k r) [14] :=
  trimJournal_rings (s := State.keepImages _) hs

section
variable {s : State} {k : Ckpt} {r : List Ckpt} (hb : s.seq.ckptBusy = k :: r)
include hb

theorem exec_ckptValid_failed : exec (.ckptValid false) s = .next (State.irq { s with seq := { s.seq with ckptBusy := r } } rJsqIrq 1) := by
  change execCkptValid false s = _
  unfold execCkptValid
  rw [hb]
  rfl

theorem exec_ckptValid_ready (hr : s.ckptReady k = true) :
    exec (.ckptValid true) s =
      if ((s.ckptKept k r).irq rJsqIrq 0).boot.carry then
        .next ((((s.ckptKept k r).irq rJsqIrq 0).free.2).mainReset .rom (((s.ckptKept k r).irq rJsqIrq 0).free.1 % 8))
      else .next (((s.ckptKept k r).irq rJsqIrq 0).confirmTrial k) := by
  change execCkptValid true s = _
  unfold execCkptValid
  rw [hb]
  dsimp only
  rw [if_neg (by decide), if_pos hr]
  rfl

end

theorem confirmTrial_none {s : State} (h : s.boot.trial = false) (k : Ckpt) : s.confirmTrial k = s := by
  unfold State.confirmTrial
  rw [if_neg (by simp [h])]

/-- The two latest are kept: the new one, and the one before it. -/
theorem latest_two {α : Type} (l : List α) (k : α) :
    ((l ++ [k]).drop (l.length - 1)).getLast? = some k ∧ ((l ++ [k]).drop (l.length - 1)).length = min 2 (l.length + 1) := by
  rw [List.drop_append_of_le_length (by omega)]
  refine ⟨by simp, ?_⟩
  simp
  omega

/-! ### The durability stall -/

section
variable {s : State}

theorem exec_durabilityStall_due (hw : s.seq.durable + 1 < s.seq.nextJsn) (hf : s.seq.stallFired = false) {s1 : State}
    (h1 : s1 = s.until (s.seq.lastDur + max 1 (s.fld rJsqDurstall 15 0) * 268435456 / 1000)) :
    exec .durabilityStall s = .next ((State.irq { s1 with seq := { s1.seq with stallFired := true } } rJsqIrq 4).event 0x43
      ((s1.t - s.seq.lastDur) * 1000 / 268435456)) := by
  have hms : msU (atLeast1 (s.fld rJsqDurstall 15 0)) = max 1 (s.fld rJsqDurstall 15 0) * 268435456 / 1000 := by
    unfold msU second atLeast1
    split
    · simp [*]
    · rw [Nat.max_eq_right (by omega)]
  have hq : s1.seq.lastDur = s.seq.lastDur := by rw [h1, State.until_seq]
  change execDurabilityStall s = _
  unfold execDurabilityStall
  rw [if_pos ⟨hw, hf⟩, hms, ← h1, ← hq]
  rfl

theorem exec_durabilityStall_idle (h : s.seq.nextJsn ≤ s.seq.durable + 1 ∨ s.seq.stallFired = true) : exec .durabilityStall s = .next s := by
  refine if_neg ?_
  rintro ⟨hw, hf⟩
  rcases h with h | h
  · omega
  · rw [hf] at h
    cases h

end

/-- Settles O18: a checkpoint by how its verification ends, the stall by whether it is due. -/
theorem checkpointBecomesValid : Obligations.CheckpointBecomesValid := by
  refine ⟨fun s k r hs hb => ?_, fun s k r hs hb hr hc ht => ?_, fun s k r hb hr hc => ?_, fun s s1 hs hw hf h1 => ?_,
    fun s h => exec_durabilityStall_idle h⟩
  · exact ⟨_, exec_ckptValid_failed hb, State.irq_eq _ _ _, State.irq_flag (by rfl) hs.1 (by decide)⟩
  · obtain ⟨hrings, hram⟩ := ckptKept_rings hs k r
    obtain ⟨hlast, hlen⟩ := latest_two s.seq.ckpts k
    have hf : MedFrame _ (s.ckptKept k r) := ckptKept_frame s k r
    unfold MedFrame at hf
    have hboot : (s.ckptKept k r).boot = s.boot := by rw [hf]
    have hseq : (s.ckptKept k r).seq = { s.seq with ckptBusy := r, ckpts := (s.seq.ckpts ++ [k]).drop (s.seq.ckpts.length - 1) } := by rw [hf]
    obtain ⟨hirq, hsame⟩ := State.irq_flag (s := s) (u := s.ckptKept k r) (a := rJsqIrq) (k := 0) (by rw [hf]) hs.1 (by decide)
    rw [exec_ckptValid_ready hb hr, State.irq_boot, hboot, if_neg (by simp [hc]), confirmTrial_none (by rw [State.irq_boot, hboot]; exact ht)]
    refine ⟨_, rfl, by rw [State.irq_seq, hseq]; exact hlast, by rw [State.irq_seq, hseq]; exact hlen, hirq, hsame, fun n hn => ?_, fun a ha => ?_, ?_⟩
    · unfold State.ring
      rw [State.irq_rings]
      exact hrings n hn
    · rw [State.irq_wram]
      exact hram a ha
    · rw [State.irq_seq, State.irq_med, State.irq_rings, State.irq_wram, State.irq_reply, State.irq_eq, hseq]
      generalize (State.irq _ _ _).regs = x
      rw [hf]
  · have hf : MedFrame _ (s.ckptKept k r) := ckptKept_frame s k r
    unfold MedFrame at hf
    have hboot : (s.ckptKept k r).boot = s.boot := by rw [hf]
    rw [exec_ckptValid_ready hb hr, State.irq_boot, hboot, if_pos hc]
    refine ⟨_, rfl, rfl, ?_, ?_⟩
    · show (State.irq _ _ _).freeCtr + 1 = _
      rw [State.irq_freeCtr, hf]
    · show (State.irq _ _ _).sec.otp = _
      rw [State.irq_sec, hf]
  · exact ⟨_, exec_durabilityStall_due hw hf h1, State.irq_eq _ _ _,
      State.irq_flag (by rfl) (by rw [h1, State.until_regs]; exact hs.1) (by decide)⟩

end Sys2Proof.Machine
end

section
/-! SUPPORT. Sabkha's reading of Q12: an entry packed behind the unit being filled, its buffer in working RAM, and the unit closed with fill (R63, R103,
R568, R570, R598). -/
namespace Sys2Proof.Machine

/-- With no write waiting, completing the writes that wait does nothing. -/
theorem ringDrain_idle {s : State} {n : Nat} (h : (s.ring n).waiting = []) : s.ringDrain n = s := by
  unfold State.ringDrain
  rw [h]
  rfl

/-- Storing the staged units writes working RAM only. -/
theorem stageStore_frame (s : State) : s.stageStore = { s with wram := s.stageStore.wram } := by
  have hfold : ∀ (l : List (StUnit × Nat)) (f : StUnit × Nat → Nat) (g : StUnit × Nat → Bytes) (a : State),
      l.foldl (fun a p => a.putWram (f p) (g p)) a = { a with wram := (l.foldl (fun a p => a.putWram (f p) (g p)) a).wram } := by
    intro l f g
    induction l with
    | nil => exact fun _ => rfl
    | cons p l ih => exact fun a => ih (a.putWram (f p) (g p))
  exact hfold _ _ _ _

/-- The unit being filled once the bytes `b` of an entry that fits are packed behind its data (R568). -/
def StUnit.packed (u : StUnit) (jsn stamp : Nat) (b : Bytes) : StUnit :=
  { u with first := some (u.first.getD (4 + u.data.length)), data := u.data ++ b, ends := jsn, last := jsn, stamp := stamp }

/-- An entry that fits joins the unit being filled. -/
theorem pack_fits {m : Med} {u : StUnit} {b : Bytes} (hu : m.fill = some u) (hfit : u.data.length + b.length < 4092) (now jsn stamp k : Nat) :
    Med.pack now jsn stamp (k + 1) b true m = { m with fill := some (u.packed jsn stamp b), journaled := jsn } := by
  unfold Med.pack
  rw [hu]
  dsimp only [Option.getD_some]
  rw [if_pos (by omega)]
  cases hf : u.first <;> simp [StUnit.packed, hf]

section
variable {s s1 : State} {cut : Bool} {ty : Nat} {ws : List Word} (hq : s.ringTake 12 = (.packet cut ty ws, s1))
  (hidle : (s1.ring 12).waiting = [])

theorem exec_mediaJournalWrite_held (hr : s.med.run = true) (hn : s.readsQ12 = false) : exec .mediaJournalWrite s = .next s := by
  refine if_pos ?_
  simp [hr, hn]

include hq hidle

theorem exec_mediaJournalWrite_off (hr : s.med.run = false) : exec .mediaJournalWrite s = .next s1 := by
  change execMediaJournalWrite s = _
  unfold execMediaJournalWrite
  rw [if_neg (by simp [hr]), hq]
  dsimp only
  rw [if_pos hr, ringDrain_idle hidle]

theorem exec_mediaJournalWrite_other (hr : s.med.run = true) (hn : s.readsQ12 = true) (ht : ty ≠ 1) :
    exec .mediaJournalWrite s = .next (s1.setNand fun n => { n with badReq := satAdd 0xFFFFFFFF n.badReq 1 }) := by
  change execMediaJournalWrite s = _
  unfold execMediaJournalWrite
  rw [if_neg (by simp [hn]), hq]
  dsimp only
  rw [if_neg (by simp [hr]), if_neg ht, ringDrain_idle (by exact hidle)]

/-- The media once an entry that fits has been packed, outside a collection. -/
theorem exec_mediaJournalWrite_fits {u : StUnit} (hr : s.med.run = true) (hn : s.readsQ12 = true) (ht : ty = 1) (hfg : s.med.fgOn = false)
    (hk : s.seq.khamsin = false) (hu : s.med.fill = some u) (hfit : u.data.length + (ofWs ws).length < 4092) :
    exec .mediaJournalWrite s = .next (State.stageStore { s1 with med := { s1.med with
      fill := some (u.packed (fld 4 8 (ofWs ws)) (fld 12 8 (ofWs ws)) (ofWs ws)), journaled := fld 4 8 (ofWs ws), idleSince := s1.t } }) := by
  have h1 : s1 = (s.ringTake 12).2 := by rw [hq]
  have hmed : s1.med = s.med := by rw [h1, ringTake_frame]
  have hseq : s1.seq = s.seq := by rw [h1, ringTake_seq]
  change execMediaJournalWrite s = _
  unfold execMediaJournalWrite
  rw [if_neg (by simp [hn]), hq]
  dsimp only
  rw [if_neg (by simp [hr]), if_pos ht, pack_fits (hmed ▸ hu) hfit]
  dsimp only
  rw [if_neg (by rw [hseq, hk]; decide), if_neg (by rw [hmed, hfg]; decide), ringDrain_idle]
  rw [stageStore_frame]
  exact hidle

end

theorem exec_journalFlushTimer {s : State} {u : StUnit} (hu : s.med.fill = some u) (hr : s.med.run = true) :
    exec .journalFlushTimer s = .next ((s.until (u.since + msU s.med.flushMs)).setMed Med.flushPart) := by
  change execJournalFlushTimer s = _
  unfold execJournalFlushTimer
  rw [hu]
  exact if_pos hr

theorem flushPart_fill {m : Med} {u : StUnit} (hu : m.fill = some u) :
    m.flushPart = { m with fill := none, wait := m.wait ++ [{ u with part := true }] } := by
  unfold Med.flushPart
  rw [hu]

end Sys2Proof.Machine
end

section
/-! SUPPORT. Units whose content is gone, and a unit that verifies: its place in an open superblock and what it makes durable (R448, R560, R562, R565,
R576). -/
namespace Sys2Proof.Machine

/-! ### Units whose content is gone -/

/-- A superblock after the sweep is as it was, or was closed and is to be erased. -/
theorem mem_sweepInvalid {n : Nand} {x : Sb} (h : x ∈ n.sweepInvalid.sbs) :
    x ∈ n.sbs ∨ x.st = .erasing ∧ ∃ y ∈ n.sbs, y.id = x.id ∧ y.st = .closed := by
  obtain ⟨y, hy, rfl⟩ := List.mem_map.1 h
  split
  · rename_i hc
    exact .inr ⟨rfl, y, hy, rfl, hc.1⟩
  · exact .inl hy

theorem mem_dropDead_units (s : State) (u : MUnit) :
    u ∈ s.dropDead.med.nand.units ↔ u ∈ s.med.nand.units ∧ (u.holds = [] ∨ ∃ x ∈ u.holds, s.heldAlive u.region x = true) := by
  show u ∈ (s.med.nand.units.filter _) ↔ _
  simp

theorem mem_dropDead_sbs {s : State} {x : Sb} (h : x ∈ s.dropDead.med.nand.sbs) :
    x ∈ s.med.nand.sbs ∨ x.st = .erasing ∧ ∃ y ∈ s.med.nand.sbs, y.id = x.id ∧ y.st = .closed :=
  mem_sweepInvalid (n := { s.med.nand with units := s.dropDead.med.nand.units }) h

theorem dropDead_frame (s : State) : s.dropDead =
    { s with med := { s.med with nand := { s.med.nand with units := s.dropDead.med.nand.units, sbs := s.dropDead.med.nand.sbs } } } := rfl

/-! ### A stream's open superblock -/

/-- A stream with a superblock open writes there. -/
theorem streamSb_open {n : Nand} {region : Nat} {slc : Bool} (h : ∃ x ∈ n.sbs, x.st = .open_ ∧ x.region = region ∧ x.slc = slc) :
    ∃ x, n.streamSb region slc = (n, some x) := by
  obtain ⟨x, hx, h1, h2, h3⟩ := h
  have hsome : (n.sbs.find? fun x => x.st == .open_ && x.region == region && x.slc == slc).isSome = true := by
    rw [List.find?_isSome]
    exact ⟨x, hx, by simp [h1, h2, h3]⟩
  obtain ⟨y, hy⟩ := Option.isSome_iff_exists.1 hsome
  unfold Nand.streamSb
  dsimp only
  rw [hy]
  exact ⟨y, rfl⟩

/-- The state in which a read-back with `corr` corrected bits is judged (R448, R576). -/
def State.corrected (s : State) (corr : Nat) : State := s.dropDead.setNand fun n => { n with corr := satAdd 0xFFFFFFFF n.corr corr }

section
variable {s : State} {region : Fin 6} {lua corr : Nat} (hrun : s.med.run = true)
include hrun

theorem exec_unitVerify_weak (hc : s.med.refreshT < corr) : exec (.unitVerify region lua corr) s = .next (s.corrected corr) := by
  change execUnitVerify region lua corr s = _
  unfold execUnitVerify
  rw [if_pos hrun]
  exact if_pos hc

variable (hc : corr ≤ s.med.refreshT)
include hc

theorem exec_unitVerify_journal {u : StUnit} {r : List StUnit} {x : Sb} (hw : s.med.wait = u :: r) (hk : s.seq.khamsin = false)
    (hx : (s.corrected corr).med.nand.streamSb 1 ((s.corrected corr).med.slcFor 1) = ((s.corrected corr).med.nand, some x)) :
    exec (.unitVerify 1 lua corr) s = .next ((s.corrected corr).verifyJournal u r ((s.corrected corr).med.nand, x)) := by
  have hj : (s.corrected corr).journalSb = ((s.corrected corr).med.nand, some x) := by
    unfold State.journalSb
    rw [if_neg (show ¬ (s.corrected corr).seq.khamsin = true from fun h => by cases hk.symm.trans h)]
    exact hx
  have hwait : (s.corrected corr).med.wait = u :: r := hw
  change execUnitVerify 1 lua corr s = _
  unfold execUnitVerify
  rw [if_pos hrun]
  extract_lets s1 region
  rw [if_neg (show ¬ s1.med.refreshT < corr by exact Nat.not_lt.2 hc), if_pos (show region = 1 from rfl), show s1.journalSb = _ from hj]
  dsimp only
  rw [if_pos (show region = 1 from rfl), show s1.med.wait = _ from hw]
  rfl

/-- The unit that a verified program of a region other than the journal makes. -/
def State.unitOf (s : State) (region lua : Nat) : MUnit :=
  { region := region, lua := lua, wtemp := s.dieTemp, wseq := 0, wtime := secOf s.dev % 2 ^ 32, slc := false, sb := 0, holds := s.nextHolds region }

/-- A verified unit takes the place of the unit of its region and address. -/
def State.verifyOther (s : State) (x : Sb) (u : MUnit) : State :=
  s.setNand fun n => (({ n with units := n.units.filter fun v => !(v.region == u.region && v.lua == u.lua) } : Nand).place x u false).sweepInvalid

theorem exec_unitVerify_other {x : Sb} (hne : region.val ≠ 1)
    (hx : (s.corrected corr).med.nand.streamSb region ((s.corrected corr).med.slcFor region) = ((s.corrected corr).med.nand, some x)) :
    exec (.unitVerify region lua corr) s =
      .next (if region.val = 3 then ((s.corrected corr).verifyOther x ((s.corrected corr).unitOf region lua)).markRecords ((s.corrected corr).nextHolds region)
             else (s.corrected corr).verifyOther x ((s.corrected corr).unitOf region lua)) := by
  change execUnitVerify region lua corr s = _
  unfold execUnitVerify
  rw [if_pos hrun]
  extract_lets s1 r
  rw [if_neg (show ¬ s1.med.refreshT < corr by exact Nat.not_lt.2 hc), if_neg (show ¬ r = 1 from hne), show s1.med.nand.streamSb r (s1.med.slcFor r) = _ from hx]
  dsimp only
  rw [if_neg (show ¬ r = 1 from hne)]
  rfl

end

/-- The superblock that is open before the corrected bits are counted is open after. -/
theorem corrected_streamSb {s : State} (corr : Nat) {region : Nat}
    (h : ∃ x ∈ s.dropDead.med.nand.sbs, x.st = .open_ ∧ x.region = region ∧ x.slc = s.dropDead.med.slcFor region) :
    ∃ x, (s.corrected corr).med.nand.streamSb region ((s.corrected corr).med.slcFor region) = ((s.corrected corr).med.nand, some x) :=
  streamSb_open h

/-! ### A journal unit becomes durable -/

/-- Trimming the journal drops units of the media and sweeps superblocks; the rest of the media stays. -/
theorem trimJournal_med (s : State) : ∃ us sbs, (∀ m ∈ us, m ∈ s.med.nand.units) ∧
    s.trimJournal.med = { s.med with nand := { s.med.nand with units := us, sbs := sbs } } := by
  unfold State.trimJournal
  extract_lets n keep old n1 excess cut n2 s1
  have hus : ∀ m ∈ n2.units, m ∈ s.med.nand.units := fun m hm => (List.mem_filter.1 (List.mem_filter.1 hm).1).1
  refine ⟨n2.units, n2.sweepInvalid.sbs, hus, ?_⟩
  split
  · rfl
  · rw [State.event_med]
    rfl

theorem raiseDurable_form (s : State) (j : Nat) : ∃ l f,
    s.raiseDurable j = { s with seq := { s.seq with durable := max s.seq.durable j, lastDur := l, stallFired := f } } := by
  unfold State.raiseDurable
  split
  · exact ⟨_, _, by rw [Nat.max_eq_right (by omega)]⟩
  · exact ⟨_, _, by rw [Nat.max_eq_left (by omega)]⟩

/-- The media with a verified journal unit in its superblock, before the journal is trimmed. -/
def State.journalPlaced (s : State) (u : StUnit) (rest : List StUnit) (x : Sb) : Med :=
  { s.med with wait := rest,
               nand := { s.med.nand.place x { region := 1, lua := s.med.nand.jlua, wtemp := s.dieTemp, wseq := 0, wtime := secOf s.dev % 2 ^ 32,
                                              slc := false, sb := 0, ends := u.ends, last := u.last, stamp := u.stamp, data := u.bytes } u.part with
                           jlua := s.med.nand.jlua + 1 } }

/-- A verified journal unit raises the durable watermark to the last JSN it ends; its media are trimmed. -/
theorem verifyJournal_form (s : State) (u : StUnit) (rest : List StUnit) (x : Sb) : ∃ l f,
    s.verifyJournal u rest (s.med.nand, x) =
      State.trimJournal { s with med := s.journalPlaced u rest x,
                                 seq := { s.seq with durable := max s.seq.durable u.ends, lastDur := l, stallFired := f } } := by
  obtain ⟨l, f, h⟩ := raiseDurable_form { s with med := s.journalPlaced u rest x } u.ends
  exact ⟨l, f, congrArg State.trimJournal h⟩

/-- A unit of the media with a journal unit placed is an old one or the new one. -/
theorem mem_journalPlaced {s : State} {u : StUnit} {rest : List StUnit} {x : Sb} {m : MUnit} (h : m ∈ (s.journalPlaced u rest x).nand.units) :
    m ∈ s.med.nand.units ∨ m.lua = s.med.nand.jlua ∧ m.data = u.bytes ∧ m.ends = u.ends ∧ m.last = u.last ∧ m.wtemp = s.dieTemp := by
  rcases List.mem_append.1 h with h | h
  · exact .inl h
  · rw [List.mem_singleton.1 h]
    exact .inr ⟨rfl, rfl, rfl, rfl, rfl⟩

theorem verifyJournal_durable {s : State} (hs : s.Inv) (u : StUnit) (rest : List StUnit) (x : Sb) {t : State}
    (ht : t = s.verifyJournal u rest (s.med.nand, x)) :
    t.seq.durable = max s.seq.durable u.ends ∧ t.med.wait = rest ∧ t.med.nand.jlua = s.med.nand.jlua + 1 ∧ t.regs = s.regs ∧
      SameRings s t [14] ∧ SameRam s t [14] ∧
      (∀ m ∈ t.med.nand.units, m ∈ s.med.nand.units ∨
        m.lua = s.med.nand.jlua ∧ m.data = u.bytes ∧ m.ends = u.ends ∧ m.last = u.last ∧ m.wtemp = s.dieTemp) ∧
      t = { s with med := t.med, seq := { s.seq with durable := t.seq.durable, lastDur := t.seq.lastDur, stallFired := t.seq.stallFired },
                   rings := t.rings, wram := t.wram, reply := t.reply } := by
  obtain ⟨l, f, h⟩ := verifyJournal_form s u rest x
  rw [h] at ht
  generalize ha : ({ s with med := s.journalPlaced u rest x, seq := { s.seq with durable := max s.seq.durable u.ends, lastDur := l, stallFired := f } } : State) = a at ht
  obtain ⟨us, sbs, hus, hmed⟩ := trimJournal_med a
  have hai : a.Inv := ha ▸ hs
  obtain ⟨hrings, hram⟩ := trimJournal_rings hai
  have hf : MedFrame a a.trimJournal := trimJournal_frame a
  unfold MedFrame at hf
  rw [← ht] at hmed hrings hram hf
  subst ha
  refine ⟨by rw [hf], by rw [hmed]; rfl, by rw [hmed]; rfl, by rw [hf], hrings, hram, fun m hm => ?_, ?_⟩
  · rw [hmed] at hm
    exact mem_journalPlaced (hus m hm)
  · conv_lhs => rw [hf]
    rw [hf]

/-! ### A unit of another region -/

theorem mem_verifyOther (s : State) (x : Sb) (u : MUnit) : ∃ w ∈ (s.verifyOther x u).med.nand.units, w.region = u.region ∧ w.lua = u.lua ∧ w.holds = u.holds :=
  ⟨_, List.mem_append_right _ (List.mem_singleton_self _), rfl, rfl, rfl⟩

/-- Settles O45: what is read from Q12 by the state of the media, a unit by its region and its corrected bits. -/
theorem journalUnitsBecomeDurable : Obligations.JournalUnitsBecomeDurable := by
  refine ⟨fun s s1 cut ty ws hq hidle => ⟨fun hr => exec_mediaJournalWrite_off hq hidle hr, fun hr hn ht => ?_, fun u hr hn ht hfg hk hu hfit => ?_⟩,
    fun s hr hn => exec_mediaJournalWrite_held hr hn, fun s s1 u hu hr h1 => ?_, fun s s0 h0 => ?_,
    fun lua corr s s0 u r hs h0 hr hc hw hk hx => ?_, fun region lua corr s s0 h0 hr hc => ?_, fun region lua corr s s0 h0 hr hc hne hx => ?_⟩
  · have hmed : s1.med = s.med := by rw [show s1 = (s.ringTake 12).2 by rw [hq], ringTake_frame]
    rw [exec_mediaJournalWrite_other hq hidle hr hn ht, ← hmed]
    rfl
  · refine ⟨u.first.getD (4 + u.data.length), _, exec_mediaJournalWrite_fits hq hidle hr hn ht hfg hk hu hfit, ?_, ?_,
      fun h => by rw [h]; rfl, fun g h => by rw [h]; rfl⟩
    · rw [stageStore_frame]
    · rw [stageStore_frame]
      rfl
  · have hmed : s1.med = s.med := by rw [h1, State.until_med]
    rw [exec_journalFlushTimer hu hr, State.setMed, show s.until (u.since + msU s.med.flushMs) = s1 from h1.symm, flushPart_fill (hmed ▸ hu)]
  · subst h0
    refine ⟨fun u hu => (mem_dropDead_units s u).1 hu, fun u hu h => (mem_dropDead_units s u).2 ⟨hu, h⟩, fun x hx => mem_dropDead_sbs hx, dropDead_frame s⟩
  · subst h0
    obtain ⟨x, hx⟩ := corrected_streamSb corr hx
    obtain ⟨h1, h2, h3, h4, h5, h6, h7, h8⟩ := verifyJournal_durable (s := s.corrected corr) hs u r x rfl
    exact ⟨_, exec_unitVerify_journal hr hc hw hk hx, h1, h2, h3, h4, h5, h6, fun m hm _ => h7 m hm, h8⟩
  · subst h0
    exact exec_unitVerify_weak hr hc
  · subst h0
    obtain ⟨x, hx⟩ := corrected_streamSb corr hx
    obtain ⟨w, hw, h1, h2, h3⟩ := mem_verifyOther (s.corrected corr) x ((s.corrected corr).unitOf region lua)
    rw [exec_unitVerify_other hr hc hne hx]
    by_cases h : region.val = 3
    · rw [if_pos h]
      refine ⟨_, w, rfl, hw, h1, h2, h3, ?_, rfl⟩
      simp only [h, true_and]
      rfl
    · rw [if_neg h]
      refine ⟨_, w, rfl, hw, h1, h2, h3, ?_, rfl⟩
      simp only [h, false_and, if_false, List.map_id']
      rfl

end Sys2Proof.Machine
end

section
/-! SUPPORT. A management command of the unit on a quiet unit: what is left when the task of its key runs it (R459, R462). -/
namespace Sys2Proof.Machine

/-! ### The acknowledgement record -/

theorem tag_length (s : State) (b : Bytes) : (s.tag b).length = 8 := by
  unfold State.tag tag64
  split <;> simp

theorem ackBody_length (cfg : RunCfg) (st : Status) (o : Origin) (m : Cmd) (jsn : Nat) : (ackBody cfg st o m jsn).length = 40 := by
  simp [ackBody]

/-- An acknowledgement begins with its type, its version and its status (R462). -/
theorem ackBody_take (cfg : RunCfg) (st : Status) (o : Origin) (m : Cmd) (jsn : Nat) (t : Bytes) :
    (ackBody cfg st o m jsn ++ t).take 3 = le 1 6 ++ le 1 1 ++ le 1 st.code := by
  unfold ackBody
  simp only [List.append_assoc]
  rw [← List.append_assoc, ← List.append_assoc, List.take_append_of_le_length (by simp), List.take_of_length_le (by simp)]
  simp only [List.append_assoc]

/-! ### The command's task -/

section
variable {s b : State} {src code target : Nat} {body : Bytes} {n : Nat} {k : Key}

/-- Once a command's entry is journaled and queued, the state is the one before, moved on. -/
theorem queued_moved (g : s.Given src code target body) (hb : Queued s b n k (s.givenEntry src code target body)) (hc : code < 65536)
    (h11 : code ≠ 0x11) : b = s.moved b := by
  have hctx := queued_ctx hb (by rw [(given_code s src code target body hc).1]; exact h11)
  obtain ⟨r, w, se, em, q, d, hbf, hq⟩ := hb.form
  have hseq : b.seq = q := by rw [hbf]
  have herg : b.erg = { s.erg with keys := b.erg.keys, dispatched := b.erg.dispatched, poolFull := b.erg.poolFull, dunes := b.erg.dunes } := by
    rw [hbf, ← g.quiet.queue]
  have hbs : b.seq = { s.seq with journal := b.seq.journal, nextJsn := b.seq.nextJsn, lastDur := b.seq.lastDur, stallFired := b.seq.stallFired,
                                  lastCkpt := b.seq.lastCkpt } := by rw [hseq, hq]
  unfold State.moved
  rw [← herg, ← hctx, ← hbs, hbf]

/-- A command's task under any key, as its commit begins. -/
def State.givenCom (s b : State) (k : Key) (src code target : Nat) (body : Bytes) : Com := b.comOf (s.taskOf k (s.givenEntry src code target body))

/-- The command block of a command given now. -/
def givenCmd (code target : Nat) (body : Bytes) : Cmd := { code := code, blen := body.length, target := target, body := body, whole := true }

/-- A command that is well formed: its length is the table's, no reserved bit is set, and it names a slot if it must. -/
structure CmdFits (code target : Nat) (body : Bytes) : Prop where
  short  : code < 65536
  word   : target < 2 ^ 32
  len    : cmdLenOk code body.length = some true
  roster : rosterBad (givenCmd code target body) = false
  slot   : bit 17 target = cmdSlotV code

/-- A command that is well formed runs, and one acknowledgement of its status is handed over last. -/
theorem mgmt_acks {c c1 : Com} {e : Entry} {st : Status} (hp : e.payload = mgmtPayload src (cmdBytes code target body)) (hs : body.length ≤ 2032)
    (hfit : CmdFits code target body) (hper : (c.s.origin e).permits c.s.sec.otp.lc code = true)
    (hc : c.command e (c.s.origin e) (givenCmd code target body) = (st, c1)) :
    ∃ o : Output, c.mgmt e = { c1 with outs := c1.outs ++ [o] } ∧ o.rtype = 6 ∧ o.ojsn = c1.ojsn ∧ o.dest = .stream ∧
      o.bytes.take 3 = le 1 6 ++ le 1 1 ++ le 1 st.code ∧ o.cells ≤ 16 := by
  have hcmd : e.cmd = givenCmd code target body := cmd_given hp hfit.short hfit.word (by omega)
  refine ⟨_, mgmt_runs hcmd hfit.len rfl hfit.roster hper hfit.slot hc, rfl, rfl, rfl, ackBody_take _ _ _ _ _ _, ?_⟩
  unfold Output.cells ceilDiv
  simp only [List.length_append, ackBody_length, tag_length]
  decide

/-- A command's origin, once its entry and perhaps its draw are journaled. -/
theorem origin_journaled {l : List Entry} (hj : b.seq.journal = s.seq.journal ++ l) (hl : ∀ x ∈ l, x.kind ≠ .seifFrame ∧ s.seq.nextJsn ≤ x.jsn)
    (hw : src < 2 ^ 64) (hk : src = 0 ∨ src < s.seq.nextJsn) : b.origin (s.givenEntry src code target body) = s.givenOrigin src code target body := by
  have hpay : fld 0 8 (s.givenEntry src code target body).payload = src := by
    show fld 0 8 (le 8 src ++ cmdBytes code target body) = src
    rw [fld_le_append]
    omega
  have hle : fld 0 8 (le 8 src) = src := by
    rw [fld_le]
    omega
  unfold State.givenOrigin State.origin
  simp only [hpay, hle, hj]
  by_cases h0 : src = 0
  · have hnone : l.filter (fun x => x.kind == .seifFrame && x.stamp == s.givenStamp src code target body && decide (x.jsn < s.seq.nextJsn)) = [] :=
      List.filter_eq_nil_iff.2 fun x hx => by simp [(hl x hx).1]
    rw [if_neg (not_not.2 h0), if_neg (not_not.2 h0), List.filter_append]
    show (match (_ ++ l.filter fun x => x.kind == .seifFrame && x.stamp == s.givenStamp src code target body && decide (x.jsn < s.seq.nextJsn)).getLast? with
      | some x => _ | none => _) = _
    rw [hnone, List.append_nil]
    rfl
  · have hnone : l.find? (fun x => x.jsn == src) = none := List.find?_eq_none.2 fun x hx => by
      have := (hl x hx).2
      simp only [beq_iff_eq]
      omega
    rw [if_pos h0, if_pos h0, List.find?_append, hnone, Option.or_none]

/-- A given command that is well formed runs, and one acknowledgement of its status is handed over last. -/
theorem mgmt_given (g : s.Given src code target body) (hb : Queued s b n k (s.givenEntry src code target body)) (hfit : CmdFits code target body)
    {st : Status} {c1 : Com} (hc : (s.givenCom b k src code target body).command (s.givenEntry src code target body) (s.givenOrigin src code target body)
      (givenCmd code target body) = (st, c1)) :
    ∃ o : Output, (s.givenCom b k src code target body).mgmt (s.givenEntry src code target body) = { c1 with outs := c1.outs ++ [o] } ∧ o.rtype = 6 ∧
      o.ojsn = c1.ojsn ∧ o.dest = .stream ∧ o.bytes.take 3 = le 1 6 ++ le 1 1 ++ le 1 st.code ∧ o.cells ≤ 16 := by
  have ho : (s.givenCom b k src code target body).s.origin (s.givenEntry src code target body) = s.givenOrigin src code target body := origin_given g hb
  have hlc : b.sec = s.sec := by obtain ⟨r, w, se, em, q, d, hbf, hq⟩ := hb.form; rw [hbf]
  exact mgmt_acks rfl g.short hfit (by rw [ho]; show Origin.permits _ b.sec.otp.lc _ = true; rw [hlc]; exact g.permit) (by rw [ho]; exact hc)

theorem cal_command {e : Entry} (h : e.kind = .mgmtCmd) (c : Com) : c.cal e = c.mgmt e := by
  unfold Com.cal
  rw [h]

theorem workOf_command {e : Entry} (h : e.kind = .mgmtCmd) (k : Key) : workOf e k = .entry :=
  if_neg (by rintro ⟨hp, -⟩; rw [h] at hp; cases hp)

/-- The tasks of CAL and CMD run a command and do nothing else (R110). -/
theorem runTask_command (s b : State) {k : Key} (hk : k = .sys 0 ∨ k = .sys 3) {e : Entry} (h : e.kind = .mgmtCmd) :
    (b.comOf (s.taskOf k e)).runTask (s.taskOf k e) = (b.comOf (s.taskOf k e)).mgmt e := by
  unfold State.taskOf
  rw [workOf_command h]
  unfold Com.runTask
  rcases hk with rfl | rfl
  · exact cal_command h _
  · exact if_neg (by rw [h]; decide)

/-- A command under the CAL or the CMD key commits: what it changes itself is in `u`. -/
theorem given_commanded (g : s.Given src code target body) {u : State} (hfit : CmdFits code target body) (h11 : code ≠ 0x11)
    (hk : k = .sys 0 ∨ k = .sys 3) (hkey : keysOf s.cfg (s.givenEntry src code target body) = [k]) {st : Status}
    (hu : u.erg.outq = s.erg.outq ∧ u.boot.restartDue = false)
    (hrun : ∀ b, b = s.moved b → ∃ c1, (s.givenCom b k src code target body).command (s.givenEntry src code target body)
      (s.givenOrigin src code target body) (givenCmd code target body) = (st, c1) ∧ c1.s = u.moved b ∧ c1.outs = [] ∧ c1.wait = none ∧ c1.ojsn = s.seq.nextJsn) :
    Commanded s u (s.giveCommand src code target body) src code target body st.code [] := by
  refine given_commits g hkey (by rw [(given_code s src code target body hfit.short).1]; exact h11) (by rcases hk with rfl | rfl <;> rfl) (fun b hb => ?_) hu
  obtain ⟨c1, hc, hs, houts, hwait, hj⟩ := hrun b (queued_moved g hb hfit.short h11)
  obtain ⟨o, hm, h6, ho, hd, hby, hce⟩ := mgmt_given g hb hfit hc
  refine ⟨_, o, (runTask_command s b hk rfl).trans hm, hwait, by rw [houts], h6, ho.trans hj, hd, hby, hce, by simp, hs⟩

end

/-- A length of the table makes a command of the unit well formed. -/
theorem cmdFits_unit {code : Nat} {body : Bytes} (hc : code < 65536) (hl : cmdLenOk code body.length = some true) (h : 4 < code) (h40 : code ≠ 0x40) :
    CmdFits code 0 body := by
  refine ⟨hc, by decide, hl, ?_, ?_⟩
  · unfold rosterBad givenCmd
    simp
    omega
  · unfold cmdSlotV
    simp [bit]
    omega

theorem seqTakes_holder {s : State} (h : s.seqTakes = true) : s.seq.holder = true := by
  unfold State.seqTakes at h
  simp only [Bool.and_eq_true] at h
  exact h.1.1.2

end Sys2Proof.Machine
end

section
/-! SUPPORT. The unit's own commands, each by what its task does (R68, R241, R242, R301, R483, R517). -/
namespace Sys2Proof.Machine

section
variable {s : State} {src : Nat}

/-! ### CLOSE_NOW -/

theorem keysOf_closeNow (s : State) (src : Nat) : keysOf s.cfg (s.givenEntry src 0x10 0 []) = [.sys 0] := by
  have hc := (given_code s src 0x10 0 [] (by decide)).2
  have ek : (s.givenEntry src 0x10 0 []).kind = .mgmtCmd := rfl
  have es : (s.givenEntry src 0x10 0 []).src.slotV = false := rfl
  have ec : (s.givenEntry src 0x10 0 []).cls = .normal := rfl
  unfold keysOf
  rw [ek]
  simp [es, ec, hc]

theorem cmdCloseNow_busy {c : Com} {e : Entry} (h : c.s.ctx.closeNow ≠ none) : c.cmdCloseNow e = (.closeBusy, c) :=
  if_pos (.inr (Option.isSome_iff_ne_none.2 h))

theorem cmdCloseNow_ok {c : Com} {e : Entry} (h : c.s.ctx.closeNow = none) (h2 : c.s.ctx.closesOpenAt e.jsn < 2) :
    c.cmdCloseNow e = (.ok, c.ctx fun k => { k with closeNow := some { jsn := e.jsn, instant := c.s.closeInstantFor e } }) :=
  if_neg (by rw [h]; simp; omega)

theorem closeNow_commanded (g : s.Given src 0x10 0 []) (hopen : s.ctx.closesOpenAt s.seq.nextJsn < 2) (hn : s.ctx.closeNow = none) :
    Commanded s (s.withCtx fun k => { k with closeNow := some { jsn := s.seq.nextJsn, instant := s.closeInstantFor (s.givenEntry src 0x10 0 []) } })
      (s.giveCommand src 0x10 0 []) src 0x10 0 [] 0 [] := by
  refine given_commanded g (cmdFits_unit (by decide) rfl (by decide) (by decide)) (by decide) (.inl rfl) (keysOf_closeNow s src) (st := .ok)
    ⟨rfl, g.quiet.stays⟩ fun b hb => ?_
  have hnone : b.ctx.closeNow = none := by rw [hb]; exact hn
  have hop : b.ctx.closesOpenAt s.seq.nextJsn < 2 := by rw [hb]; exact hopen
  refine ⟨_, cmdCloseNow_ok hnone hop, ?_, rfl, rfl, rfl⟩
  show ({ b with ctx := { b.ctx with closeNow := some { jsn := s.seq.nextJsn, instant := b.closeInstantFor (s.givenEntry src 0x10 0 []) } } } : State) = _
  conv_lhs => rw [hb]
  rfl

theorem closeNow_busy (g : s.Given src 0x10 0 []) (hn : s.ctx.closeNow ≠ none) :
    Commanded s s (s.giveCommand src 0x10 0 []) src 0x10 0 [] 9 [] := by
  refine given_commanded g (cmdFits_unit (by decide) rfl (by decide) (by decide)) (by decide) (.inl rfl) (keysOf_closeNow s src) (st := .closeBusy)
    ⟨rfl, g.quiet.stays⟩ fun b hb => ?_
  exact ⟨_, cmdCloseNow_busy (by show b.ctx.closeNow ≠ none; rw [hb]; exact hn), hb, rfl, rfl, rfl⟩

/-- The close instant by how the command's stamp is flagged (R241). -/
theorem closeInstantFor_sure {e : Entry} (hu : e.flags.timeUnsure = false) (hr : e.flags.regressed = false) :
    s.closeInstantFor e = some (minuteAtOrAfter s.cfg (e.stamp + second)) := by
  unfold State.closeInstantFor
  rw [if_neg (by simp [hu]), if_neg (by simp [hr])]

theorem closeInstantFor_unsure {e : Entry} (hu : e.flags.timeUnsure = true) : s.closeInstantFor e = none := if_pos hu

/-! ### CKPT_NOW, TIME_SET, KEY_ROLL and HOLD_END -/

/-- A command under the CMD key. -/
theorem cmd_commanded {code : Nat} {body : Bytes} (g : s.Given src code 0 body) {u : State} {st : Status} (hc : 0x11 < code) (hc2 : code < 65536)
    (hl : cmdLenOk code body.length = some true) (h30 : code ≠ 0x30) (h40 : code ≠ 0x40) (hu : u.erg.outq = s.erg.outq ∧ u.boot.restartDue = false)
    (hrun : ∀ b, b = s.moved b → ∃ c1, (s.givenCom b (.sys 3) src code 0 body).command (s.givenEntry src code 0 body) (s.givenOrigin src code 0 body)
      (givenCmd code 0 body) = (st, c1) ∧ c1.s = u.moved b ∧ c1.outs = [] ∧ c1.wait = none ∧ c1.ojsn = s.seq.nextJsn) :
    Commanded s u (s.giveCommand src code 0 body) src code 0 body st.code [] :=
  given_commanded g (cmdFits_unit hc2 hl (by omega) h40) (by omega) (.inr rfl) (keysOf_cmd s src code body hc2 (by omega) h30 (by omega)) hu hrun

theorem cmdCkptNow_commanded (g : s.Given src 0x12 0 []) :
    Commanded s { s with seq := { s.seq with ckptReq := true } } (s.giveCommand src 0x12 0 []) src 0x12 0 [] 0 [] := by
  refine cmd_commanded g (st := .ok) (by decide) (by decide) rfl (by decide) (by decide) ⟨rfl, g.quiet.stays⟩ fun b hb => ⟨_, rfl, ?_, rfl, rfl, rfl⟩
  show (if b.seq.holder then { b with seq := { b.seq with ckptReq := true } } else b) = _
  have hh : b.seq.holder = true := by
    have h := seqTakes_holder g.quiet.takes
    rw [hb]
    exact h
  rw [if_pos hh]
  conv_lhs => rw [hb]
  rfl

/-- Without a hold HOLD_END changes nothing. -/
theorem holdEnd_commanded (g : s.Given src 0x13 0 []) : Commanded s s (s.giveCommand src 0x13 0 []) src 0x13 0 [] 0 [] := by
  refine cmd_commanded g (st := .ok) (by decide) (by decide) rfl (by decide) (by decide) ⟨rfl, g.quiet.stays⟩ fun b hb => ⟨_, rfl, ?_, rfl, rfl, rfl⟩
  show (if b.seq.holder then b.endHold none else b) = _
  have hh : b.seq.hold = none := by rw [hb]; exact g.quiet.hold
  have he : b.endHold none = b := by
    unfold State.endHold
    rw [hh]
  rw [he, ite_self]
  exact hb

/-- A step that waits to be taken (R483). -/
def Tim.stepBy (x : Tim) (o : Origin) (delta : Int) : Tim :=
  { x with pend := some { delta := delta, source := if o.code = 0 then 1 else if o.code = 1 then 3 else 2 } }

theorem cmdTimeSet_ok {c : Com} {o : Origin} {body : Bytes} (ho : o ≠ .maint ∨ c.s.sec.otp.lc = .open_)
    (hd : ((fld 0 8 body : Int) - c.stamp).natAbs < 2 ^ 35 * second) (hh : c.s.seq.holder = true) :
    c.cmdTimeSet o body = (.ok, { c with s := { c.s with tim := c.s.tim.stepBy o ((fld 0 8 body : Int) - c.stamp) } }) := by
  unfold Com.cmdTimeSet
  extract_lets delta src
  rw [if_neg (by rintro ⟨h1, h2⟩; exact ho.elim (· h1) h2), if_neg (Nat.not_le.2 hd)]
  have hu : (if c.s.seq.holder then c.s.setTim fun x => { x with pend := some { delta := delta, source := src } } else c.s) =
      { c.s with tim := c.s.tim.stepBy o delta } := by
    rw [if_pos hh]
    cases o <;> rfl
  exact congrArg (fun z => (Status.ok, { c with s := z })) hu

theorem timeSet_commanded {time : Nat} (g : s.Given src 0x20 0 (le 8 time))
    (ho : s.givenOrigin src 0x20 0 (le 8 time) ≠ .maint ∨ s.sec.otp.lc = .open_) (ht : time < 2 ^ 64)
    (hd : ((time : Int) - s.givenStamp src 0x20 0 (le 8 time)).natAbs < 2 ^ 35 * 2 ^ 28) :
    Commanded s { s with tim := { s.tim with pend := some { delta := (time : Int) - s.givenStamp src 0x20 0 (le 8 time), source :=
        if (s.givenOrigin src 0x20 0 (le 8 time)).code = 0 then 1 else if (s.givenOrigin src 0x20 0 (le 8 time)).code = 1 then 3 else 2 } } }
      (s.giveCommand src 0x20 0 (le 8 time)) src 0x20 0 (le 8 time) 0 [] := by
  have hf : fld 0 8 (le 8 time) = time := by rw [fld_le]; omega
  refine cmd_commanded g (st := .ok) (by decide) (by decide) (by rw [le_length]; rfl) (by decide) (by decide) ⟨rfl, g.quiet.stays⟩ fun b hb => ?_
  have hlc : b.sec = s.sec := by rw [hb]; rfl
  have hh : b.seq.holder = true := by
    have h := seqTakes_holder g.quiet.takes
    rw [hb]
    exact h
  have hcom := cmdTimeSet_ok (c := s.givenCom b (.sys 3) src 0x20 0 (le 8 time)) (body := le 8 time)
    (by rw [← hlc] at ho; exact ho) (by rw [hf]; exact hd) hh
  rw [hf] at hcom
  refine ⟨_, hcom, ?_, rfl, rfl, rfl⟩
  show ({ b with tim := b.tim.stepBy (s.givenOrigin src 0x20 0 (le 8 time)) ((time : Int) - s.givenStamp src 0x20 0 (le 8 time)) } : State) = _
  conv_lhs => rw [hb]
  rfl

theorem keyRoll_ok {c : Com} {body : Bytes} (h : fld 0 1 body = 4) (hg : c.s.ctx.sigGen < 65535) :
    c.keyRoll body = (.ok, c.ctx fun k => { k with sigGen := k.sigGen + 1, sigHist := k.sigHist ++ [(c.jsn, k.sigGen + 1)] }) := by
  unfold Com.keyRoll
  rw [if_neg (by omega), if_neg (by omega)]

theorem keyRoll_bad {c : Com} {body : Bytes} (h : fld 0 1 body ≠ 4) : c.keyRoll body = (.badParam, c) := if_pos h

theorem keyRoll_purpose {p : Nat} (h : p < 256) : fld 0 1 (le 1 p ++ le 3 0) = p := by
  rw [fld_le_append]
  omega

theorem keyRoll_commanded {p : Nat} (g : s.Given src 0xF00 0 (le 1 p ++ le 3 0)) (h : p = 4) (hg : s.ctx.sigGen < 65535) :
    Commanded s (s.withCtx fun k => { k with sigGen := k.sigGen + 1, sigHist := k.sigHist ++ [(s.seq.nextJsn, k.sigGen + 1)] })
      (s.giveCommand src 0xF00 0 (le 1 p ++ le 3 0)) src 0xF00 0 (le 1 p ++ le 3 0) 0 [] := by
  refine cmd_commanded g (st := .ok) (by decide) (by decide) rfl (by decide) (by decide) ⟨rfl, g.quiet.stays⟩ fun b hb => ?_
  refine ⟨_, keyRoll_ok ((keyRoll_purpose (by omega)).trans h) (by show b.ctx.sigGen < 65535; rw [hb]; exact hg), ?_, rfl, rfl, rfl⟩
  show ({ b with ctx := { b.ctx with sigGen := b.ctx.sigGen + 1, sigHist := b.ctx.sigHist ++ [(s.seq.nextJsn, b.ctx.sigGen + 1)] } } : State) = _
  conv_lhs => rw [hb]
  rfl

theorem keyRoll_refused {p : Nat} (g : s.Given src 0xF00 0 (le 1 p ++ le 3 0)) (hp : p < 256) (h : p ≠ 4) :
    Commanded s s (s.giveCommand src 0xF00 0 (le 1 p ++ le 3 0)) src 0xF00 0 (le 1 p ++ le 3 0) 2 [] :=
  cmd_commanded g (st := .badParam) (by decide) (by decide) rfl (by decide) (by decide) ⟨rfl, g.quiet.stays⟩ fun b hb =>
    ⟨_, keyRoll_bad fun h4 => h ((keyRoll_purpose hp).symm.trans h4), hb, rfl, rfl, rfl⟩

/-! ### METER_SET -/

/-- METER_SET's body (R460). -/
def meterBody (sel p0 p1 p2 p3 : Nat) : Bytes := le 1 sel ++ le 1 p0 ++ le 1 p1 ++ le 1 p2 ++ le 1 p3 ++ le 3 0

theorem keysOf_meterSet (s : State) (src : Nat) (body : Bytes) : keysOf s.cfg (s.givenEntry src 0x30 0 body) = [.sys 1] := by
  have hc := (given_code s src 0x30 0 body (by decide)).2
  have ek : (s.givenEntry src 0x30 0 body).kind = .mgmtCmd := rfl
  have es : (s.givenEntry src 0x30 0 body).src.slotV = false := rfl
  have ec : (s.givenEntry src 0x30 0 body).cls = .normal := rfl
  generalize s.givenEntry src 0x30 0 body = e at *
  unfold keysOf
  rw [ek]
  simp [es, ec, hc]

theorem feederFences_none {c : Com} {j : Nat} (hf : ∀ f ∈ c.s.ctx.fences, f.jsn ≤ c.s.ctx.feeder.lastJsn) : c.feederFences j = c := by
  unfold Com.feederFences
  rw [List.filter_eq_nil_iff.2 fun f hm => by
    have hle := hf f hm
    simp only [Bool.and_eq_true, decide_eq_true_eq]
    omega]
  rfl

/-- Where the feeder has met every fence, its task runs a command and takes its JSN (R131). -/
theorem feederTask_command {c : Com} {e : Entry} (h : e.kind = .mgmtCmd) (hf : ∀ f ∈ c.s.ctx.fences, f.jsn ≤ c.s.ctx.feeder.lastJsn) :
    c.feederTask e = (c.mgmt e).feeder fun a => { a with lastJsn := c.jsn } := by
  unfold Com.feederTask
  simp only [feederFences_none hf, h]

theorem runTask_feeder (s b : State) {e : Entry} (h : e.kind = .mgmtCmd) :
    (b.comOf (s.taskOf (.sys 1) e)).runTask (s.taskOf (.sys 1) e) = (b.comOf (s.taskOf (.sys 1) e)).feederTask e := by
  unfold State.taskOf
  rw [workOf_command h]
  rfl

theorem meterBody_fields {sel p0 p1 p2 p3 : Nat} (hs : sel < 256) (h0 : p0 < 256) (h1 : p1 < 256) (h2 : p2 < 256) (h3 : p3 < 256) :
    fld 0 1 (meterBody sel p0 p1 p2 p3) = sel ∧
      (List.range 4).map (fun n => fld (1 + n) 1 (meterBody sel p0 p1 p2 p3)) = [p0, p1, p2, p3] := by
  unfold meterBody
  simp only [List.append_assoc]
  refine ⟨by rw [fld_le_append]; omega, ?_⟩
  simp [List.range_succ, fld_append_right]
  omega

theorem cmdMeterSet_ok {c : Com} {sel p0 p1 p2 p3 : Nat} (hr : c.s.cfg.role ≠ .head) (hs : sel < 256) (h0 : p0 ≤ 4) (h1 : p1 ≤ 4) (h2 : p2 ≤ 4)
    (h3 : p3 ≤ 4) (hd : decimation (sel % 8) = decimation (sel / 8 % 8)) :
    c.cmdMeterSet (meterBody sel p0 p1 p2 p3) = (.ok, { c with s := c.s.putSel sel [p0, p1, p2, p3] }) := by
  obtain ⟨fs, fp⟩ := meterBody_fields hs (show p0 < 256 by omega) (show p1 < 256 by omega) (show p2 < 256 by omega) (show p3 < 256 by omega)
  unfold Com.cmdMeterSet
  simp only [fs, fp]
  rw [if_neg hr, if_neg (by simp [bits, hd]; omega)]
  rfl

theorem cmdMeterSet_bad {c : Com} {sel p0 p1 p2 p3 : Nat} (hr : c.s.cfg.role ≠ .head) (hs : sel < 256) (h0 : p0 < 256) (h1 : p1 < 256) (h2 : p2 < 256)
    (h3 : p3 < 256) (hd : decimation (sel % 8) ≠ decimation (sel / 8 % 8) ∨ 4 < p0 ∨ 4 < p1 ∨ 4 < p2 ∨ 4 < p3) :
    c.cmdMeterSet (meterBody sel p0 p1 p2 p3) = (.badParam, c) := by
  obtain ⟨fs, fp⟩ := meterBody_fields hs h0 h1 h2 h3
  unfold Com.cmdMeterSet
  simp only [fs, fp]
  rw [if_neg hr, if_pos (by simpa [bits] using hd)]

theorem meterSet_commanded {body : Bytes} (g : s.Given src 0x30 0 body) (hl : body.length = 8)
    (hf : ∀ f ∈ s.ctx.fences, f.jsn ≤ s.ctx.feeder.lastJsn) {st : Status} {u : State} (hu : u.erg.outq = s.erg.outq ∧ u.boot.restartDue = false)
    (hrun : ∀ b, b = s.moved b → (s.givenCom b (.sys 1) src 0x30 0 body).cmdMeterSet body =
      (st, { s.givenCom b (.sys 1) src 0x30 0 body with s := u.moved b })) :
    Commanded s (u.withCtx fun k => { k with feeder := { k.feeder with lastJsn := s.seq.nextJsn } }) (s.giveCommand src 0x30 0 body) src 0x30 0 body st.code [] := by
  refine given_commits g (keysOf_meterSet s src body) (by rw [(given_code s src 0x30 0 body (by decide)).1]; decide) rfl (fun b hb => ?_) hu
  have hm := queued_moved g hb (by decide) (by decide)
  obtain ⟨o, he, h6, ho, hd, hby, hce⟩ := mgmt_given g hb (cmdFits_unit (by decide) (by rw [hl]; rfl) (by decide) (by decide)) (hrun b hm)
  have hfb : ∀ f ∈ b.ctx.fences, f.jsn ≤ b.ctx.feeder.lastJsn := by rw [hm]; exact hf
  have hfe := (runTask_feeder s b (e := s.givenEntry src 0x30 0 body) rfl).trans (feederTask_command rfl hfb)
  exact ⟨_, o, hfe.trans (congrArg (Com.feeder · _) he), rfl, rfl, h6, ho, hd, hby, hce, by simp, rfl⟩

theorem putSel_moved (s b : State) (sel : Nat) (pga : List Nat) : (s.moved b).putSel sel pga = (s.putSel sel pga).moved b := rfl

theorem putSel_frame (s : State) (sel : Nat) (pga : List Nat) : (s.putSel sel pga).erg = s.erg ∧ (s.putSel sel pga).boot = s.boot := ⟨rfl, rfl⟩

theorem meterSet_ok {sel p0 p1 p2 p3 : Nat} (g : s.Given src 0x30 0 (meterBody sel p0 p1 p2 p3)) (hr : s.cfg.role ≠ .head) (hs : sel < 256)
    (hf : ∀ f ∈ s.ctx.fences, f.jsn ≤ s.ctx.feeder.lastJsn) (hd : decimation (sel % 8) = decimation (sel / 8 % 8))
    (h0 : p0 ≤ 4) (h1 : p1 ≤ 4) (h2 : p2 ≤ 4) (h3 : p3 ≤ 4) :
    Commanded s ((s.putSel sel [p0, p1, p2, p3]).withCtx fun k => { k with feeder := { k.feeder with lastJsn := s.seq.nextJsn } })
      (s.giveCommand src 0x30 0 (meterBody sel p0 p1 p2 p3)) src 0x30 0 (meterBody sel p0 p1 p2 p3) 0 [] := by
  refine meterSet_commanded g rfl hf (st := .ok) ⟨congrArg Erg.outq (putSel_frame s _ _).1, g.quiet.stays⟩ fun b hb => ?_
  rw [cmdMeterSet_ok (c := s.givenCom b (.sys 1) src 0x30 0 (meterBody sel p0 p1 p2 p3)) (by show b.cfg.role ≠ _; rw [hb]; exact hr) hs h0 h1 h2 h3 hd,
    ← putSel_moved, ← hb]
  rfl

theorem meterSet_refused {sel p0 p1 p2 p3 : Nat} (g : s.Given src 0x30 0 (meterBody sel p0 p1 p2 p3)) (hr : s.cfg.role ≠ .head) (hs : sel < 256)
    (hf : ∀ f ∈ s.ctx.fences, f.jsn ≤ s.ctx.feeder.lastJsn) (h0 : p0 < 256) (h1 : p1 < 256) (h2 : p2 < 256) (h3 : p3 < 256)
    (hd : decimation (sel % 8) ≠ decimation (sel / 8 % 8) ∨ 4 < p0 ∨ 4 < p1 ∨ 4 < p2 ∨ 4 < p3) :
    Commanded s (s.withCtx fun k => { k with feeder := { k.feeder with lastJsn := s.seq.nextJsn } })
      (s.giveCommand src 0x30 0 (meterBody sel p0 p1 p2 p3)) src 0x30 0 (meterBody sel p0 p1 p2 p3) 2 [] := by
  refine meterSet_commanded g rfl hf (st := .badParam) ⟨rfl, g.quiet.stays⟩ fun b hb => ?_
  rw [cmdMeterSet_bad (c := s.givenCom b (.sys 1) src 0x30 0 (meterBody sel p0 p1 p2 p3)) (by show b.cfg.role ≠ _; rw [hb]; exact hr) hs h0 h1 h2 h3 hd, ← hb]
  rfl

end

end Sys2Proof.Machine
end

section
/-! SUPPORT. A given command on its way from its ring to its key's queue, in a boundary hold or out of one (R27, R33, R51, R110). -/
namespace Sys2Proof.Machine

/-! ### One packet passes a free ring -/

section
variable {s : State} {n : Nat} {i : Input}

/-- The state once the packet of an input has passed a free ring. -/
def State.passedInput (s : State) (n : Nat) (i : Input) : State :=
  (s.offer n i).setRing n { (s.offer n i).ring n with r := (s.ring n).w + (i.words.length + 1), remain := 0, staleT := (s.offer n i).t, staleFired := false }

theorem offer_free (hn : n < s.rings.length) (f : s.RingFree n i.words.length) :
    s.offer n i = { s with rings := (s.offer n i).rings, wram := (s.offer n i).wram } ∧ (∀ k, k ≠ n → (s.offer n i).ring k = s.ring k) ∧
      (s.offer n i).rings.length = s.rings.length ∧ ((s.offer n i).ring n).vis = (s.ring n).w + (i.words.length + 1) := by
  have e : s.offer n i = _ := ringPacket_free hn i.kind.code i.words f
  have hset (k : Nat) : (s.offer n i).ring k = if k = n then (s.ring n).passed s.t i.words.length else s.ring k := by
    rw [e]
    exact State.ring_setRing (s := s) hn _ k
  refine ⟨by rw [e], fun k hk => by rw [hset, if_neg hk], by rw [e]; simp, ?_⟩
  rw [hset, if_pos rfl]
  rfl

theorem offer_wf (hn : n < s.rings.length) (f : s.RingFree n i.words.length) (w : Memory.wf s.wram = true) : Memory.wf (s.offer n i).wram = true := by
  have e : s.offer n i = _ := ringPacket_free hn i.kind.code i.words f
  rw [e]
  exact ramPutWord_wf (putRun_wf _ w _ _) _ _

theorem setRing_frame {a : State} (h : a = { s with rings := a.rings, wram := a.wram }) (r : Ring) :
    a.setRing n r = { s with rings := (a.setRing n r).rings, wram := (a.setRing n r).wram } := by
  conv_lhs => unfold State.setRing; rw [h]
  rfl

theorem passedInput_form (hn : n < s.rings.length) (f : s.RingFree n i.words.length) :
    s.passedInput n i = { s with rings := (s.passedInput n i).rings, wram := (s.passedInput n i).wram } ∧
      (∀ k, k ≠ n → (s.passedInput n i).ring k = s.ring k) ∧ (s.passedInput n i).rings.length = s.rings.length ∧
      (s.passedInput n i).ring n =
        { (s.offer n i).ring n with r := (s.ring n).w + (i.words.length + 1), remain := 0, staleT := (s.offer n i).t, staleFired := false } := by
  obtain ⟨ho, hr, hl, -⟩ := offer_free hn f
  have hn1 : n < (s.offer n i).rings.length := by rw [hl]; exact hn
  unfold State.passedInput
  refine ⟨setRing_frame ho _, fun k hk => ?_, by simp [State.setRing, hl], ring_of_set hn1 _⟩
  rw [State.ring_setRing hn1, if_neg hk, hr k hk]

/-- The sequencer takes the one packet of a ring that was free, and no more, where it journals the input it stands for. -/
theorem takeItems_passed (hw : Memory.wf s.wram = true) (hl : s.rings.length = 16) (hn : n = 0 ∨ n = 15) (f : s.RingFree n i.words.length)
    (hlen : i.words.length < 65536) (ht : s.takesFrom n = true)
    (hj : (s.passedInput n i).takeItem n (.packet false (i.kind.code % 256) i.words) = (s.passedInput n i).journalInput i) (m : Nat) :
    State.takeItems n (m + 1) (s.offer n i) = (s.passedInput n i).journalInput i := by
  have hnl : n < s.rings.length := by omega
  obtain ⟨ho, hr, hol, hvis⟩ := offer_free hnl f
  obtain ⟨hp, hpr, hpl, hpn⟩ := passedInput_form hnl f
  have h1 : (s.offer n i).takesFrom n = true := by
    rw [← ht]
    unfold State.takesFrom State.seqTakes State.stageFull State.stageUnits
    rw [hr 12 (by omega), ho]
    rfl
  have h2 : (s.offer n i).ringTake n = (.packet false (i.kind.code % 256) i.words, s.passedInput n i) :=
    ringTake_passed (ty := i.kind.code) hnl hw f hlen rfl
  rw [State.takeItems, if_pos h1, h2]
  dsimp only
  rw [hj]
  cases m with
  | zero => rfl
  | succ m =>
    have hpw : Memory.wf (s.passedInput n i).wram = true := offer_wf hnl f hw
    obtain ⟨_, _, _, _, _, _, -, -, hx, -⟩ := append_form (s.passedInput n i) i.kind i.cls i.src i.stamp ((s.passedInput n i).inputFlags i.stamp) i.payload
    have hun : ((s.passedInput n i).journalInput i).ring n = (s.passedInput n i).ring n := (hx hpw (by omega)).1 n (by omega)
    rw [State.takeItems]
    split
    · rw [ringTake_empty (by rw [hun, hpn]; simp only [hvis]; omega)]
    · rfl

end

/-! ### The command's entry in its key's queue -/

section
variable {s u : State} {src code target : Nat} {body : Bytes}

/-- The input a command comes as, and the ring it comes on. -/
def State.givenInput (s : State) (src code target : Nat) (body : Bytes) : Input := (s.cmdInput src code target body).2

/-- A given command's input is journaled as its entry. -/
theorem journal_given (hu : u = { s with rings := u.rings, wram := u.wram }) :
    u.journalInput (s.givenInput src code target body) = u.append .mgmtCmd .normal (cmdSrc target) (s.givenStamp src code target body)
      (s.inputFlags (s.givenStamp src code target body)) (mgmtPayload src (cmdBytes code target body)) ∧
      u.entryOf .mgmtCmd .normal (cmdSrc target) (s.givenStamp src code target body) (s.inputFlags (s.givenStamp src code target body))
        (mgmtPayload src (cmdBytes code target body)) = s.givenEntry src code target body := by
  have hi := (cmdInput_form s src code target body).1
  unfold State.givenInput State.journalInput
  rw [hi]
  constructor
  · show u.append _ _ _ _ (u.inputFlags _) _ = _
    rw [inputFlags_congr (s := s) (by rw [hu]) (by rw [hu]) (by rw [hu])]
  · rw [hu]
    rfl

/-- The one task of a command, where nothing waited before it. -/
def State.onlyTask (s : State) (k : Key) (e : Entry) : KeyQ := { key := k, owner := homeGrain k, tasks := [s.taskOf k e] }

/-- A command that the sequencer journals at once is dispatched to its key, whose queue is worked off up to it. -/
theorem giveCommand_taken {k : Key} (hq : s.erg.toDispatch = []) (hks : s.erg.keys = []) (hr : s.bitOf rErgCtl 0 = true)
    (hu : u = { s with rings := u.rings, wram := u.wram })
    (ht : State.takeItems (s.givenRing src code target body)
        (((s.offer (s.givenRing src code target body) (s.givenInput src code target body)).ring (s.givenRing src code target body)).cnt + 1)
        (s.offer (s.givenRing src code target body) (s.givenInput src code target body)) = u.journalInput (s.givenInput src code target body))
    (hk : keysOf s.cfg (s.givenEntry src code target body) = [k]) :
    ∃ d b, s.giveCommand src code target body = State.workKey k s.seq.nextJsn 6 b ∧
      b = { u.journalInput (s.givenInput src code target body) with
              erg := { s.erg with keys := [s.onlyTask k (s.givenEntry src code target body)], toDispatch := [],
                                  dispatched := max s.erg.dispatched s.seq.nextJsn, poolFull := false, dunes := d } } := by
  obtain ⟨hja, hje⟩ := journal_given (src := src) (code := code) (target := target) (body := body) hu
  obtain ⟨r, w, se, em, rp, q, ha, hq1, -, -⟩ := append_form u .mgmtCmd .normal (cmdSrc target) (s.givenStamp src code target body)
    (s.inputFlags (s.givenStamp src code target body)) (mgmtPayload src (cmdBytes code target body))
  rw [← hja, hje] at ha
  rw [hje] at hq1
  have hi : s.cmdInput src code target body = (s.givenRing src code target body, s.givenInput src code target body) := rfl
  have hip : (s.givenInput src code target body).payload = mgmtPayload src (cmdBytes code target body) := by
    unfold State.givenInput
    rw [(cmdInput_form s src code target body).1]
  generalize hu1 : u.journalInput (s.givenInput src code target body) = u1 at *
  obtain ⟨e, he⟩ : ∃ e, e = s.givenEntry src code target body := ⟨_, rfl⟩
  have ek : e.kind = .mgmtCmd := by rw [he]; rfl
  have ep : e.payload = mgmtPayload src (cmdBytes code target body) := by rw [he]; rfl
  have ej : e.jsn = s.seq.nextJsn := by rw [he]; rfl
  rw [← he] at ha hq1 hk ⊢
  obtain ⟨d, hd⟩ := dispatch_quiet (s := u1) (e := e) (k := k) (by rw [ha, hu]; simp [hq]) (by rw [ha, hu]; exact hks) (by rw [ha, hu]; exact hr)
    (by rw [ek]; decide) (by rw [ha, hu]; exact hk)
  have hb : u1.dispatchAll = { u1 with erg := { s.erg with keys := [s.onlyTask k e], toDispatch := [], dispatched := max s.erg.dispatched s.seq.nextJsn,
                                                           poolFull := false, dunes := d } } := by
    rw [hd, ha, hu, ← ej]
    rfl
  have hj : u1.dispatchAll.seq.journal = s.seq.journal ++ [e] := by rw [hb, ha, hq1, hu]
  refine ⟨d, u1.dispatchAll, ?_, hb⟩
  unfold State.giveCommand
  rw [hi]
  dsimp only
  rw [ht, hj, List.drop_left]
  simp only [List.find?_cons, ek, ep, hip, beq_self_eq_true, Bool.and_self]
  have hc : u1.dispatchAll.cfg = s.cfg := by rw [hb, ha, hu]
  have htu : u1.dispatchAll.tasksUsed = 1 := by
    unfold State.tasksUsed
    rw [hb]
    simp [State.onlyTask]
  rw [hc, hk, List.foldl_cons, List.foldl_nil, ej, htu]

end

end Sys2Proof.Machine
end

section
/-! SUPPORT. HOLD_END in a boundary hold (R26, R52), and the unit's own commands together. -/
namespace Sys2Proof.Machine

/-! ### What the end of a hold journals -/

/-- From `a` to `b` entries were journaled: the journal grew, and the commit's own fields are as they were. -/
structure Journals (a b : State) : Prop where
  keys    : b.erg.keys = a.erg.keys
  outq    : b.erg.outq = a.erg.outq
  boot    : b.boot = a.boot
  hold    : b.seq.hold = a.seq.hold
  journal : ∃ l, b.seq.journal = a.seq.journal ++ l

theorem Journals.refl (a : State) : Journals a a := ⟨rfl, rfl, rfl, rfl, [], (List.append_nil _).symm⟩

theorem Journals.trans {a b c : State} (h : Journals a b) (h' : Journals b c) : Journals a c := by
  obtain ⟨k, o, bo, ho, l, hl⟩ := h
  obtain ⟨k', o', bo', ho', l', hl'⟩ := h'
  exact ⟨k'.trans k, o'.trans o, bo'.trans bo, ho'.trans ho, l ++ l', by rw [hl', hl, List.append_assoc]⟩

theorem append_journals (a : State) (kind : Kind) (cls : EClass) (src : Src) (stamp : Nat) (flags : EFlags) (payload : Bytes) :
    Journals a (a.append kind cls src stamp flags payload) := by
  obtain ⟨_, _, _, _, _, q, h, hq, -⟩ := append_form a kind cls src stamp flags payload
  rw [h]
  exact ⟨rfl, rfl, rfl, by rw [hq], _, by rw [hq]⟩

theorem foldl_journals {α : Type} {f : State → α → State} (h : ∀ a x, Journals a (f a x)) (l : List α) (a : State) : Journals a (l.foldl f a) := by
  induction l generalizing a with
  | nil => exact .refl a
  | cons x l ih => exact (h a x).trans (ih (f a x))

theorem journalHeld_journals (a : State) (x : HeldIn) : Journals a (a.journalHeld x) := by
  unfold State.journalHeld
  split
  · exact .refl a
  · split
    · exact .refl a
    · dsimp only
      split
      · exact append_journals ..
      · exact append_journals ..

theorem journalBoundary_journals (a : State) (T : Nat) (held : Bool) (b : Kind × Nat) : Journals a (a.journalBoundary T held b) := by
  obtain ⟨k, subj⟩ := b
  by_cases hk : k = .bndPeriod
  · subst hk
    rcases Nat.lt_or_ge (a.ctx.nextPer - a.ctx.epoch) 2 with h | h
    · rw [journalBoundary_period a T held h subj]
      exact append_journals ..
    · rw [journalBoundary_heldPeriod a T held h subj, State.irq_eq]
      exact ⟨rfl, rfl, rfl, rfl, [], (List.append_nil _).symm⟩
  · rw [journalBoundary_other a T held hk subj]
    exact append_journals ..

theorem journalBoundaries_journals (a : State) (T : Nat) (held : Bool) : Journals a (a.journalBoundaries T held) := by
  obtain ⟨k, o, b, h, l⟩ := foldl_journals (f := fun a b => a.journalBoundary T held b) (fun a b => journalBoundary_journals a T held b)
    (boundariesAt a.cfg a.closeInstant (secOf T)) a
  exact ⟨k, o, b, h, l⟩

/-- The end of a hold journals what it kept, and no hold is left. -/
theorem endHold_journals {a : State} {h : Hold} (hh : a.seq.hold = some h) : Journals { a with seq := { a.seq with hold := none } } (a.endHold none) := by
  unfold State.endHold
  rw [hh]
  dsimp only
  refine Journals.trans ?_ (foldl_journals (fun a x => journalHeld_journals a x) _ _)
  split
  · exact .refl _
  · exact journalBoundaries_journals _ _ _

/-! ### HOLD_END in a hold -/

/-- HOLD_END is journaled at once, in a hold too (R26, R52). -/
theorem takeInput_holdEnd {u : State} {h : Hold} {n : Nat} {l : Word} {ws : List Word} (hh : u.seq.hold = some h) (hk : bits 23 16 l.toNat = 0x30)
    (he : isHoldEnd l ws = true) :
    u.takeInput n l ws = u.journalHeld { ring := n, stamp := (ws.getD 0 0).toNat + (ws.getD 1 0).toNat * 4294967296, pkt := l :: ws } := by
  unfold State.takeInput
  rw [hh]
  dsimp only
  rw [if_neg (by rw [hk]; decide), if_pos (.inr he)]

section
variable {s s0 : State} {h : Hold} {src : Nat}

/-- A given command's input reads back from its words. -/
theorem givenInput_words {code target : Nat} {body : Bytes} (g : s.Given src code target body) :
    Input.ofWords .mgmtCmd (s.givenInput src code target body).words = s.givenInput src code target body ∧
      packetTrunc false (s.givenInput src code target body).words = false ∧ (s.givenInput src code target body).words.length < 65536 ∧
      (s.givenInput src code target body).words.length = 4 + (16 + body.length + 3) / 4 := by
  have hi : s.givenInput src code target body = _ := (cmdInput_form s src code target body).1
  have hp : (s.givenInput src code target body).payload.length = 16 + body.length := by rw [hi, mgmtPayload_length]
  have hs := g.short
  have hst : (s.givenInput src code target body).stamp < 2 ^ 64 := g.stamps
  have hsrc : (s.givenInput src code target body).src = cmdSrc target := by rw [hi]
  have hw := Input.words_length (s.givenInput src code target body)
  rw [hp] at hw
  refine ⟨Input.ofWords_words _ .mgmtCmd (by rw [hi]) hst (by omega) ?_ ?_ ?_ ?_, Input.words_whole _ (by omega), by omega, hw⟩
  · rw [hsrc]
    unfold cmdSrc bits
    intro h
    simp only at h ⊢
    rw [if_pos h]
    omega
  · rw [hsrc]
    unfold cmdSrc
    intro h
    simp only at h ⊢
    rw [h]
    rfl
  · rw [hsrc]
    exact Nat.zero_lt_succ 7
  · rw [hsrc]
    rfl

/-- In a hold too the sequencer journals HOLD_END as it takes it. -/
theorem takeItem_holdEnd {u : State} {n : Nat} (g : s0.Given src 0x13 0 []) (hh : u.seq.hold = some h) :
    u.takeItem n (.packet false ((s0.givenInput src 0x13 0 []).kind.code % 256) (s0.givenInput src 0x13 0 []).words) =
      u.journalInput (s0.givenInput src 0x13 0 []) := by
  obtain ⟨hw, htr, -, -⟩ := givenInput_words g
  have hi : s0.givenInput src 0x13 0 [] = _ := (cmdInput_form s0 src 0x13 0 []).1
  have hk : (s0.givenInput src 0x13 0 []).kind.code % 256 = 0x30 := by rw [hi]; rfl
  have hp : (s0.givenInput src 0x13 0 []).payload = mgmtPayload src (cmdBytes 0x13 0 []) := by rw [hi]
  have hl := lengthWord_kind_cut false (s0.givenInput src 0x13 0 []).words.length (ty := 0x30) (by decide)
  have h13 : fld 8 2 (mgmtPayload src (cmdBytes 0x13 0 [])) = 0x13 := (given_code s0 src 0x13 0 [] (by decide)).1
  have he : isHoldEnd (lengthWord false 0x30 (s0.givenInput src 0x13 0 []).words.length) (s0.givenInput src 0x13 0 []).words = true := by
    unfold isHoldEnd
    rw [hl.1, hw, hp, h13]
    rfl
  rw [hk]
  show State.takeInput _ _ _ _ = _
  rw [takeInput_holdEnd hh hl.1 he, journalHeld_whole (by decide) rfl htr, hw]

/-- HOLD_END given in a hold is journaled and queued as one given outside it. -/
theorem holdEnd_queued (g : s0.Given src 0x13 0 []) (hs : s = { s0 with seq := { s0.seq with hold := some h } }) :
    ∃ b, s.giveCommand src 0x13 0 [] = State.workKey (.sys 3) s.seq.nextJsn 6 b ∧ b.erg.keys = [s.onlyTask (.sys 3) (s.givenEntry src 0x13 0 [])] ∧
      b.seq.journal = s.seq.journal ++ [s.givenEntry src 0x13 0 []] ∧ b.seq.hold = some h ∧ b.seq.holder = true ∧ b.sec = s.sec ∧ b.arb = s.arb ∧
      b.erg.outq = s.erg.outq ∧ b.boot = s.boot := by
  obtain ⟨-, hw, -, hl⟩ := g.inv
  obtain ⟨-, -, hlen, hlen4⟩ := givenInput_words g
  have hring := (cmdInput_form s0 src 0x13 0 []).2
  have hi : s.givenInput src 0x13 0 [] = s0.givenInput src 0x13 0 [] := by rw [hs]; rfl
  have hf : s0.RingFree (s0.givenRing src 0x13 0 []) (s0.givenInput src 0x13 0 []).words.length := by rw [hlen4]; exact g.ring
  obtain ⟨en, held, opn, pend, idle, empty, fits⟩ := hf
  have hf' : s.RingFree (s.givenRing src 0x13 0 []) (s.givenInput src 0x13 0 []).words.length := by
    rw [hi, hs]
    exact ⟨en, held, opn, pend, idle, empty, fits⟩
  have hsl : s.rings.length = 16 := by rw [hs]; exact hl
  obtain ⟨hu, -, -, -⟩ := passedInput_form (s := s) (i := s.givenInput src 0x13 0 []) (by rw [hsl, hs]; show s0.givenRing src 0x13 0 [] < 16; omega) hf'
  have ht := takeItems_passed (s := s) (n := s.givenRing src 0x13 0 []) (i := s.givenInput src 0x13 0 []) (by rw [hs]; exact hw) hsl (by rw [hs]; exact hring)
    hf' (by rw [hi]; exact hlen) (by rw [hs]; exact g.takes) (by rw [hi]; exact takeItem_holdEnd g (h := h) (by rw [← hi, hu, hs]))
    ((s.offer (s.givenRing src 0x13 0 []) (s.givenInput src 0x13 0 [])).ring (s.givenRing src 0x13 0 [])).cnt
  obtain ⟨d, b, hg, hb⟩ := giveCommand_taken (s := s) (by rw [hs]; exact g.quiet.queue) (by rw [hs]; exact g.quiet.keys) (by rw [hs]; exact g.quiet.run) hu ht
    (keysOf_cmd s src 0x13 [] (by decide) (by decide) (by decide) (by decide))
  obtain ⟨hja, hje⟩ := journal_given (src := src) (code := 0x13) (target := 0) (body := []) hu
  obtain ⟨r, w, se, em, rp, q, ha, hq, -, -⟩ := append_form (s.passedInput (s.givenRing src 0x13 0 []) (s.givenInput src 0x13 0 [])) .mgmtCmd .normal
    (cmdSrc 0) (s.givenStamp src 0x13 0 []) (s.inputFlags (s.givenStamp src 0x13 0 [])) (mgmtPayload src (cmdBytes 0x13 0 []))
  rw [hja, ha, hje] at hb
  rw [hje, hu] at hq
  have hhold : s.seq.hold = some h := by rw [hs]
  have hholder : s.seq.holder = true := by rw [hs]; exact seqTakes_holder g.quiet.takes
  refine ⟨b, hg, by rw [hb], by rw [hb, hq], by rw [hb, hq]; exact hhold, by rw [hb, hq]; exact hholder, ?_, ?_, by rw [hb], ?_⟩
  all_goals rw [hb, hu]

/-- HOLD_END in a hold commits with what ends the hold. -/
theorem holdEnd_inHold (g : s0.Given src 0x13 0 []) (hs : s = { s0 with seq := { s0.seq with hold := some h } }) :
    (s.giveCommand src 0x13 0 []).seq.hold = none ∧
      ∃ l, (s.giveCommand src 0x13 0 []).seq.journal = s.seq.journal ++ s.givenEntry src 0x13 0 [] :: l := by
  obtain ⟨b, hg, hkeys, hjournal, hhold, hholder, hsec, harb, houtq, hboot⟩ := holdEnd_queued g hs
  obtain ⟨c, hc⟩ : ∃ c, c = b.comOf (s.taskOf (.sys 3) (s.givenEntry src 0x13 0 [])) := ⟨_, rfl⟩
  have hcs : c.s = b := by rw [hc]; rfl
  have horg : c.s.origin (s.givenEntry src 0x13 0 []) = s.givenOrigin src 0x13 0 [] := by
    rw [hcs]
    exact origin_journaled hjournal (fun x hx => by rw [List.mem_singleton.1 hx]; exact ⟨nofun, le_refl _⟩) g.wide (by rw [hs]; exact g.known)
  have hper : (s.givenOrigin src 0x13 0 []).permits s.sec.otp.lc 0x13 = true := by rw [hs]; exact g.permit
  obtain ⟨o, hm, -, -, -, -, hcells⟩ := mgmt_acks (c := c) (st := .ok) (c1 := { c with s := if c.s.seq.holder then c.s.endHold none else c.s })
    (e := s.givenEntry src 0x13 0 []) rfl (by decide) (cmdFits_unit (by decide) rfl (by decide) (by decide)) (by rw [horg, hcs, hsec]; exact hper) rfl
  rw [hcs, if_pos hholder] at hm
  have hrun : c.runTask (s.taskOf (.sys 3) (s.givenEntry src 0x13 0 [])) = { c with s := b.endHold none, outs := c.outs ++ [o] } := by
    rw [hc, runTask_command s b (.inr rfl) rfl, ← hc, hm]
  obtain ⟨ek, eo, eb, eh, l, el⟩ := endHold_journals hhold
  have hroom : Com.roomForOuts { c with s := b.endHold none, outs := c.outs ++ [o] } = true := by
    have houts : c.outs ++ [o] = [o] := by rw [hc]; rfl
    have hused : s0.cellsUsed ≤ 60000 := g.quiet.cells
    have hq : (b.endHold none).cellsUsed = s0.cellsUsed := by
      unfold State.cellsUsed
      rw [eo, show b.erg.outq = s0.erg.outq by rw [houtq, hs]]
    unfold Com.roomForOuts
    simp only [houts, hq, List.map_cons, List.map_nil, List.foldl_cons, List.foldl_nil, decide_eq_true_eq]
    omega
  have hstays : (b.endHold none).boot.restartDue = false := by
    have h0 : b.boot.restartDue = false := by rw [hboot, hs]; exact g.quiet.stays
    rw [eb]
    exact h0
  have hflips : b.arb.flips = [] := by rw [harb, hs]; exact g.quiet.clean
  obtain ⟨d, hd⟩ := workKey_commits (b := b) (k := .sys 3) (x := s.taskOf (.sys 3) (s.givenEntry src 0x13 0 []))
    (c := { c with s := b.endHold none, outs := c.outs ++ [o] }) hkeys 4 (by rw [← hc]; exact hrun.symm) (by rw [hc]; rfl) hroom rfl hflips ek hstays
  have hjsn : (s.taskOf (.sys 3) (s.givenEntry src 0x13 0 [])).jsn = s.seq.nextJsn := rfl
  rw [hjsn] at hd
  have hseq : (s.giveCommand src 0x13 0 []).seq = (b.endHold none).seq := by rw [hg, hd]
  rw [hseq, eh, el]
  exact ⟨rfl, l, by show b.seq.journal ++ l = _; rw [hjournal, List.append_assoc]; rfl⟩

end

/-- Settles O34: each command by what its task does, HOLD_END in a hold by what ends it. -/
theorem unitCommandsTakeEffect : Obligations.UnitCommandsTakeEffect := by
  refine ⟨fun src st s g hst hopen => ⟨_, rfl, fun hn hsure => ?_, fun hn hun => ?_, closeNow_busy g⟩, fun src s g => ⟨_, rfl, cmdCkptNow_commanded g⟩,
    fun src time st s o g hst ho hperm ht hd => ?_, fun src sel p0 p1 p2 p3 body s hbody g hr hsel h0 h1 h2 h3 hf => ?_,
    fun src p s g hp => ⟨_, rfl, keyRoll_commanded g, keyRoll_refused g hp⟩, fun src s g => ⟨_, rfl, holdEnd_commanded g⟩, fun src s s0 h g hs => ?_⟩
  · subst hst
    have hinst := closeInstantFor_sure (s := s) (e := s.givenEntry src 0x10 0 []) (congrArg Prod.fst hsure) (congrArg Prod.snd hsure)
    have hcom := closeNow_commanded g hopen hn
    rw [hinst] at hcom
    exact hcom
  · subst hst
    have hinst := closeInstantFor_unsure (s := s) (e := s.givenEntry src 0x10 0 []) hun
    have hcom := closeNow_commanded g hopen hn
    rw [hinst] at hcom
    exact hcom
  · rw [hst] at hd ⊢
    rw [ho] at hperm ⊢
    exact ⟨_, rfl, timeSet_commanded g hperm ht hd⟩
  · subst hbody
    exact ⟨_, rfl, fun hd a0 a1 a2 a3 => meterSet_ok g hr hsel hf hd a0 a1 a2 a3, fun hd => meterSet_refused g hr hsel hf h0 h1 h2 h3 hd⟩
  · obtain ⟨hnone, l, hl⟩ := holdEnd_inHold g hs
    exact ⟨_, _, l, rfl, hnone, hl, rfl, rfl⟩

end Sys2Proof.Machine
end

section
/-! SUPPORT. A packet's way into a ring depends on that ring alone (R78 to R90). -/
namespace Sys2Proof.Machine

/-- Two states whose ring `n` is the same now. -/
structure SameRing (n : Nat) (a b : State) : Prop where
  ring   : a.ring n = b.ring n
  now    : a.t = b.t
  left   : n < a.rings.length
  right  : n < b.rings.length

section
variable {n : Nat} {a b : State}

theorem SameRing.setRing (h : SameRing n a b) (r : Ring) : SameRing n (a.setRing n r) (b.setRing n r) :=
  ⟨by rw [ring_of_set h.left, ring_of_set h.right], h.now, by simpa [State.setRing] using h.left, by simpa [State.setRing] using h.right⟩

theorem SameRing.putWord (h : SameRing n a b) (r : Ring) (p : Nat) (v : Word) : SameRing n (a.putRingWord r p v) (b.putRingWord r p v) :=
  ⟨h.ring, h.now, h.left, h.right⟩

theorem SameRing.opened (h : SameRing n a b) (reg : Bool) (op : RingOp) : SameRing n (a.opened n reg op) (b.opened n reg op) := by
  cases op
  case open_ =>
    unfold State.opened
    rw [h.ring]
    exact h.setRing _
  all_goals exact h

theorem completed_ring (s : State) (reg : Bool) (x : Reply) : (s.completed reg x).rings = s.rings ∧ (s.completed reg x).t = s.t := by
  unfold State.completed
  split <;> exact ⟨rfl, rfl⟩

theorem SameRing.completed (h : SameRing n a b) (reg : Bool) (x : Reply) : SameRing n (a.completed reg x) (b.completed reg x) := by
  obtain ⟨ha, hat⟩ := completed_ring a reg x
  obtain ⟨hb, hbt⟩ := completed_ring b reg x
  exact ⟨by unfold State.ring; rw [ha, hb]; exact h.ring, by rw [hat, hbt]; exact h.now, by rw [ha]; exact h.left, by rw [hb]; exact h.right⟩

/-- A producer's write on a ring that drops nothing comes to the same. -/
theorem SameRing.op (hd : ringDrops n = false) (h : SameRing n a b) (op : RingOp) :
    (a.ringOp n op).1 = (b.ringOp n op).1 ∧ SameRing n (a.ringOp n op).2 (b.ringOp n op).2 := by
  have wadi_id (s : State) : s.wadi n = s := by
    unfold State.wadi
    simp only [hd, Bool.false_and]
    rfl
  cases op
  case open_ =>
    unfold State.ringOp State.ringOpen
    simp only [wadi_id, h.ring, hd, Bool.false_eq_true, if_false]
    split
    · exact ⟨rfl, h⟩
    · split
      · exact ⟨rfl, h⟩
      · split
        · exact ⟨rfl, h⟩
        · exact ⟨rfl, h.setRing _⟩
  case push v =>
    unfold State.ringOp State.ringPush
    simp only [h.ring, hd, Bool.false_eq_true, if_false]
    split
    · exact ⟨rfl, h⟩
    · split
      · exact ⟨rfl, h⟩
      · exact ⟨rfl, h.setRing _⟩
      · split
        · exact ⟨rfl, h.setRing _⟩
        · split
          · exact ⟨rfl, h⟩
          · exact ⟨rfl, (h.putWord ..).setRing _⟩
  case close ty =>
    unfold State.ringOp State.ringClose
    simp only [h.ring, h.now]
    split
    · exact ⟨rfl, h⟩
    · split
      · exact ⟨rfl, h⟩
      · exact ⟨rfl, h.setRing _⟩
      · exact ⟨rfl, (h.putWord ..).setRing _⟩

theorem SameRing.feed (hd : ringDrops n = false) (k : Nat) (h : SameRing n a b) : SameRing n (State.ringFeed n k a) (State.ringFeed n k b) := by
  induction k generalizing a b with
  | zero => exact h
  | succ k ih =>
    unfold State.ringFeed
    simp only [h.ring]
    split
    · exact h
    · rename_i reg op rest _
      obtain ⟨hres, hst⟩ := h.op hd op
      generalize a.ringOp n op = ra at *
      generalize b.ringOp n op = rb at *
      obtain ⟨pa, sa⟩ := ra
      obtain ⟨pb, sb⟩ := rb
      dsimp only at hres hst
      subst hres
      cases pa
      case stalled => exact h
      case refused =>
        dsimp only
        split
        · exact h
        · rw [hst.ring]
          exact ih ((hst.setRing _).completed _ _)
      case done =>
        have ho := hst.opened reg op
        dsimp only
        rw [ho.ring]
        exact ih ((ho.setRing _).completed _ _)

theorem SameRing.packet (hd : ringDrops n = false) (h : SameRing n a b) (ty : Nat) (ws : List Word) :
    SameRing n (a.ringPacket n ty ws) (b.ringPacket n ty ws) := by
  unfold State.ringPacket
  simp only [h.ring]
  split
  · unfold State.ringDrain
    have hs := h.setRing { b.ring n with waiting := (b.ring n).waiting ++ (packetOps ty ws).map fun o => (false, o) }
    rw [hs.ring]
    exact hs.feed hd _
  · exact h

end

/-! ### Whether the sequencer goes on -/

/-- The state with an entry in its journal, before the entry's packet goes to Q12. -/
def State.noted (s : State) (e : Entry) : State :=
  { s with seq := { s.seq with journal := s.seq.journal ++ [e], nextJsn := s.seq.nextJsn + 1, lastDur := s.seq.durSince s.t,
                               stallFired := s.seq.stallKept, lastCkpt := s.seq.countFrom e.kind e.jsn e.stamp },
           erg := { s.erg with toDispatch := s.erg.toDispatch ++ [e] }, ctx := s.ctx.note e }

section
variable {a b : State} (kind : Kind) (cls : EClass) (src : Src) (stamp : Nat) (flags : EFlags) (payload : Bytes)

/-- What of an entry's journaling the sequencer asks for before it goes on. -/
theorem append_takes (s : State) : ∃ e, e = s.entryOf kind cls src stamp flags payload ∧
    (s.append kind cls src stamp flags payload).regs = s.regs ∧ (s.append kind cls src stamp flags payload).seq.holder = s.seq.holder ∧
    (s.append kind cls src stamp flags payload).med = s.med ∧
    (s.append kind cls src stamp flags payload).ring 12 = ((s.noted e).ringPacket 12 1 (toWs e.bytes)).ring 12 := by
  obtain ⟨_, _, _, _, _, q, h, hq, -⟩ := append_form s kind cls src stamp flags payload
  have hr : s.append kind cls src stamp flags payload =
      State.replicate ((s.noted (s.entryOf kind cls src stamp flags payload)).ringPacket 12 1 (toWs (s.entryOf kind cls src stamp flags payload).bytes))
        (s.entryOf kind cls src stamp flags payload) := rfl
  refine ⟨_, rfl, by rw [h], by rw [h, hq], by rw [h], ?_⟩
  rw [hr, replicate_frame]
  rfl

/-- The sequencer goes on alike after an entry, where Q12 was alike before it. -/
theorem append_seqTakes (hb : b = { a with rings := b.rings, wram := b.wram }) (h12 : b.ring 12 = a.ring 12) (hal : 12 < a.rings.length)
    (hbl : 12 < b.rings.length) : (b.append kind cls src stamp flags payload).seqTakes = (a.append kind cls src stamp flags payload).seqTakes := by
  obtain ⟨ea, hea, rega, holda, meda, ringa⟩ := append_takes kind cls src stamp flags payload a
  obtain ⟨eb, heb, regb, holdb, medb, ringb⟩ := append_takes kind cls src stamp flags payload b
  have he : eb = ea := by
    rw [heb, hea, hb]
    rfl
  have hsame : SameRing 12 (b.noted ea) (a.noted ea) := ⟨h12, by rw [hb]; rfl, hbl, hal⟩
  have hring := (hsame.packet rfl 1 (toWs ea.bytes)).ring
  rw [he, hring, ← ringa] at ringb
  have hregs : (b.append kind cls src stamp flags payload).regs = (a.append kind cls src stamp flags payload).regs := by rw [regb, rega, hb]
  have hmed : (b.append kind cls src stamp flags payload).med = (a.append kind cls src stamp flags payload).med := by rw [medb, meda, hb]
  have hhold : (b.append kind cls src stamp flags payload).seq.holder = (a.append kind cls src stamp flags payload).seq.holder := by rw [holdb, holda, hb]
  unfold State.seqTakes State.stageFull State.stageUnits State.bitOf State.reg
  rw [ringb, hregs, hmed, hhold]

end

end Sys2Proof.Machine
end

section
/-! SUPPORT. A command that waits for a draw (R43, R110, R750): its entry, the draw it asks for, and its commit. -/
namespace Sys2Proof.Machine

/-! ### From the command's entry to its draw -/

/-- A given command waits in its key's queue, and since `s` the entries `l` were journaled: what the commands that use a draw ask of the state then. -/
structure Drawing (s b : State) (k : Key) (x : Task) (l : List Entry) : Prop where
  journal : b.seq.journal = s.seq.journal ++ l
  next    : b.seq.nextJsn = s.seq.nextJsn + l.length
  holder  : b.seq.holder = s.seq.holder
  keys    : b.erg.keys = [{ key := k, owner := homeGrain k, tasks := [x] }]
  queue   : b.erg.toDispatch = []
  passed  : s.seq.nextJsn ≤ b.erg.dispatched
  outq    : b.erg.outq = s.erg.outq
  images  : b.ctx.images = s.ctx.images
  regs    : b.regs = s.regs
  med     : b.med = s.med
  sysKey  : b.sysKey = s.sysKey
  otp     : b.sec.otp = s.sec.otp
  arb     : b.arb = s.arb
  boot    : b.boot = s.boot

theorem note_images (c : Ctx) (e : Entry) : (c.note e).images = c.images := by
  unfold Ctx.note
  dsimp only
  cases e.kind
  case supRestore => dsimp only; split <;> rfl
  case closeCursor => dsimp only; split <;> rfl
  all_goals rfl

section
variable {s u b : State} {src code target : Nat} {body : Bytes} {k : Key}

/-- Outside a hold the sequencer journals a given command as it takes it. -/
theorem takeItem_given {n : Nat} (g : s.Given src code target body) (hh : u.seq.hold = none) :
    u.takeItem n (.packet false ((s.givenInput src code target body).kind.code % 256) (s.givenInput src code target body).words) =
      u.journalInput (s.givenInput src code target body) := by
  obtain ⟨hw, htr, -, -⟩ := givenInput_words g
  have hk : (s.givenInput src code target body).kind.code % 256 = 0x30 := by
    unfold State.givenInput
    rw [(cmdInput_form s src code target body).1]
    rfl
  rw [hk]
  show State.takeInput _ _ _ _ = _
  rw [takeInput_noHold hh, journalHeld_whole (by decide) rfl htr, hw]

theorem given_drawing (g : s.Given src code target body) (hk : keysOf s.cfg (s.givenEntry src code target body) = [k]) :
    ∃ b, s.giveCommand src code target body = State.workKey k s.seq.nextJsn 6 b ∧
      Drawing s b k (s.taskOf k (s.givenEntry src code target body)) [s.givenEntry src code target body] ∧ b.sec = s.sec ∧
      b.seqTakes = (s.journalInput (s.givenInput src code target body)).seqTakes := by
  obtain ⟨-, hw, -, hl⟩ := g.inv
  obtain ⟨-, -, hlen, hlen4⟩ := givenInput_words g
  have hring := (cmdInput_form s src code target body).2
  have hf : s.RingFree (s.givenRing src code target body) (s.givenInput src code target body).words.length := by rw [hlen4]; exact g.ring
  obtain ⟨hu, hur, hul, -⟩ := passedInput_form (by omega) hf
  have ht := takeItems_passed hw hl hring hf hlen g.takes (takeItem_given g (by rw [hu]; exact g.quiet.hold))
    ((s.offer (s.givenRing src code target body) (s.givenInput src code target body)).ring (s.givenRing src code target body)).cnt
  obtain ⟨d, b, hg, hb⟩ := giveCommand_taken g.quiet.queue g.quiet.keys g.quiet.run hu ht hk
  have h12 := hur 12 (by omega)
  generalize s.passedInput (s.givenRing src code target body) (s.givenInput src code target body) = u at *
  obtain ⟨hja, hje⟩ := journal_given (src := src) (code := code) (target := target) (body := body) hu
  obtain ⟨hsa, -⟩ := journal_given (s := s) (u := s) (src := src) (code := code) (target := target) (body := body) rfl
  have htakes : b.seqTakes = (u.journalInput (s.givenInput src code target body)).seqTakes := by rw [hb]; rfl
  have hsame := append_seqTakes .mgmtCmd .normal (cmdSrc target) (s.givenStamp src code target body) (s.inputFlags (s.givenStamp src code target body))
    (mgmtPayload src (cmdBytes code target body)) hu h12 (by omega) (by omega)
  rw [← hja, ← hsa] at hsame
  obtain ⟨r, w, se, em, rp, q, ha, hq, -, -⟩ := append_form u .mgmtCmd .normal (cmdSrc target) (s.givenStamp src code target body)
    (s.inputFlags (s.givenStamp src code target body)) (mgmtPayload src (cmdBytes code target body))
  rw [hja, ha, hje] at hb
  rw [hje, hu] at hq
  refine ⟨b, hg, ⟨by rw [hb, hq], by rw [hb, hq]; rfl, by rw [hb, hq], by rw [hb]; rfl, by rw [hb], by rw [hb]; exact le_max_right _ _, by rw [hb], ?_, ?_, ?_, ?_,
    ?_, ?_, ?_⟩, ?_, htakes.trans hsame⟩
  · rw [hb, hu]
    exact note_images _ _
  all_goals rw [hb, hu]

/-- A journaled draw resumes the one task there is. -/
theorem dispatch_draw {d : Entry} {x : Task} (hq : s.erg.toDispatch = [d]) (hks : s.erg.keys = [{ key := k, owner := homeGrain k, tasks := [x] }])
    (hr : s.bitOf rErgCtl 0 = true) (hd : d.kind = .drbgDraw) (hk : drawKey (fld 0 4 d.payload) = some k) :
    ∃ dn, s.dispatchAll =
      { s with erg := { s.erg with
          keys := [{ key := k, owner := homeGrain k, tasks := [{ x with draws := x.draws ++ [(d.jsn, d.payload.drop 4)], phase := .committing }] }],
          toDispatch := [], dispatched := max s.erg.dispatched d.jsn, dunes := dn } } := by
  unfold State.dispatchAll
  rw [hq]
  show ∃ dn, State.dispatchN 0 s.dispatchOne = _
  unfold State.dispatchOne
  have hu : s.tasksUsed = 1 := by unfold State.tasksUsed; rw [hks]; rfl
  have hko : keysOf s.cfg d = [] := by unfold keysOf; rw [hd]
  simp only [hq, hr, hu, hko, Bool.true_and]
  rw [if_pos (by decide)]
  have he : ({ s with erg := { s.erg with toDispatch := [] } } : State).dispatchEntry d =
      { s with erg := { s.erg with
          keys := [{ key := k, owner := homeGrain k, tasks := [{ x with draws := x.draws ++ [(d.jsn, d.payload.drop 4)], phase := .committing }] }],
          toDispatch := [], dispatched := max s.erg.dispatched d.jsn } } := by
    unfold State.dispatchEntry
    rw [if_pos hd]
    unfold State.deliverDraw State.headTask State.keyQ State.setHead
    simp only [hk, hks]
    simp
  rw [he]
  exact noteIdle_form s _

/-- The task's draw is journaled and resumes it. -/
theorem drawing_draws {x : Task} {e : Entry} {tag m : Nat} (h : Drawing s b k x [e]) (hr : s.bitOf rErgCtl 0 = true) (hsec : b.sec = s.sec)
    (hc : s.sec.calls + 1 < 65536) (ht : tag < 2 ^ 32) (hk : drawKey tag = some k) :
    ∃ d : Entry, d.kind = .drbgDraw ∧ d.jsn = s.seq.nextJsn + 1 ∧ d.payload = le 4 tag ++ fit m (s.wrapJ (Config.drbg s.sec.drbg (m - 8))) ∧
      Drawing s (b.journalDraw tag m).dispatchAll k { x with draws := x.draws ++ [(d.jsn, d.payload.drop 4)], phase := .committing } [e, d] := by
  have hdr : b.drawn = { b with sec := { s.sec with drbg := s.sec.drbg + 1, calls := s.sec.calls + 1 } } := by
    rw [drawn_few (by rw [hsec]; exact hc), hsec]
  have hdata : fit m (b.wrapJ (Config.drbg b.sec.drbg (m - 8))) = fit m (s.wrapJ (Config.drbg s.sec.drbg (m - 8))) := by
    unfold State.wrapJ State.sys
    rw [hsec, h.sysKey]
  have hj := journalDraw_eq b tag m
  rw [hdata] at hj
  generalize hpay : le 4 tag ++ fit m (s.wrapJ (Config.drbg s.sec.drbg (m - 8))) = pay at *
  have hfld : fld 0 4 pay = tag := by
    rw [← hpay, fld_le_append]
    omega
  generalize (if bits 30 24 tag = 0x42 then ({ slot := bits 16 0 tag, slotV := true } : Src) else {}) = src at hj
  generalize b.drawn.dev = stamp at hj
  generalize b.drawn.inputFlags stamp = fl at hj
  obtain ⟨r, w, se, em, rp, q, ha, hq, -, -⟩ := append_form b.drawn .drbgDraw .normal src stamp fl pay
  obtain ⟨d, hd⟩ : ∃ d, d = b.drawn.entryOf .drbgDraw .normal src stamp fl pay := ⟨_, rfl⟩
  have hkind : d.kind = .drbgDraw := by rw [hd]; rfl
  have hjsn : d.jsn = s.seq.nextJsn + 1 := by rw [hd, hdr]; exact h.next
  have hdp : d.payload = pay := by rw [hd]; rfl
  rw [← hd] at ha hq
  rw [hj, ha]
  rw [hdr] at hq ⊢
  obtain ⟨dn, hdis⟩ := dispatch_draw (d := d) (x := x) (k := k)
    (s := { b with sec := { s.sec with drbg := s.sec.drbg + 1, calls := s.sec.calls + 1 }, seq := q, erg := { b.erg with toDispatch := b.erg.toDispatch ++ [d] },
                   ctx := b.ctx.note d, rings := r, wram := w, sef := se, emitted := em, reply := rp })
    (by simp [h.queue]) h.keys (by unfold State.bitOf State.reg at hr ⊢; rw [h.regs]; exact hr) hkind (by rw [hdp, hfld]; exact hk)
  refine ⟨d, hkind, hjsn, hdp, ?_⟩
  rw [hdis]
  refine ⟨?_, ?_, ?_, rfl, rfl, ?_, h.outq, (note_images _ _).trans h.images, h.regs, h.med, h.sysKey, rfl, h.arb, h.boot⟩
  · rw [hq]
    show b.seq.journal ++ [d] = _
    rw [h.journal, List.append_assoc]
    rfl
  · rw [hq]
    show b.seq.nextJsn + 1 = _
    rw [h.next]
    rfl
  · rw [hq]
    exact h.holder
  · exact le_trans h.passed (le_max_left _ _)

/-! ### The commit -/

/-- CMD and READOUT run a command as it is (R110). -/
theorem runTask_mgmt {c : Com} {x : Task} (hk : x.key = .sys 3 ∨ x.key = .sys 6) (hw : x.work = .entry) (he : x.entry.kind = .mgmtCmd) :
    c.runTask x = c.mgmt x.entry := by
  unfold Com.runTask
  rcases hk with hk | hk
  · simp only [hk, hw]
    rw [if_neg (by rw [he]; decide)]
  · simp only [hk, hw]

/-- A key whose one task waits for a draw is given it, and goes on. -/
theorem workKey_draws {x : Task} {o tag m : Nat} (hks : b.erg.keys = [{ key := k, owner := o, tasks := [x] }]) (hw : ((b.comOf x).runTask x).wait = some (.draw tag m))
    (hs : b.drawsServed = true) (ht : b.seqTakes = true) (n : Nat) :
    State.workKey k x.jsn (n + 1) b = State.workKey k x.jsn n (b.journalDraw tag m).dispatchAll := by
  have hh : b.headTask k = some x := by
    unfold State.headTask State.keyQ
    rw [hks]
    simp
  have hwf : b.waitsFor k = some (.draw tag m) := by
    unfold State.waitsFor
    rw [hh]
    exact hw
  rw [State.workKey, hh]
  simp only [if_neg (Nat.lt_irrefl _), hwf, hs, ht, Bool.and_self, if_true]

/-- The task of a given command as its draw resumes it. -/
def State.drawnTask (s : State) (k : Key) (e d : Entry) : Task :=
  { s.taskOf k e with draws := [(d.jsn, d.payload.drop 4)], phase := .committing }

/-- Once its entry, and perhaps its draw, is journaled, a given command runs and its acknowledgement is handed over last. -/
theorem drawing_acks {x : Task} {l : List Entry} (g : s.Given src code target body) (h : Drawing s b k x l)
    (hl : ∀ y ∈ l, y.kind ≠ .seifFrame ∧ s.seq.nextJsn ≤ y.jsn) (hfit : CmdFits code target body) {c c1 : Com} (hcs : c.s = b)
    (hc : c.command (s.givenEntry src code target body) (s.givenOrigin src code target body) (givenCmd code target body) = (.ok, c1)) :
    ∃ o : Output, c.mgmt (s.givenEntry src code target body) = { c1 with outs := c1.outs ++ [o] } ∧ o.rtype = 6 ∧ o.ojsn = c1.ojsn ∧ o.cells ≤ 16 := by
  have ho : c.s.origin (s.givenEntry src code target body) = s.givenOrigin src code target body := by
    rw [hcs]
    exact origin_journaled h.journal hl g.wide g.known
  obtain ⟨o, hm, h6, hoj, -, -, hce⟩ := mgmt_acks (c := c) (c1 := c1) (st := .ok) (e := s.givenEntry src code target body) rfl g.short hfit
    (by rw [ho, hcs, h.otp]; exact g.permit) (by rw [ho]; exact hc)
  exact ⟨o, hm, h6, hoj, hce⟩

/-- A given command that uses one draw: it waits for it, takes it, and commits. -/
theorem drawing_commits (g : s.Given src code target body) (hk : k = .sys 3 ∨ k = .sys 6)
    (hkey : keysOf s.cfg (s.givenEntry src code target body) = [k]) (hfit : CmdFits code target body)
    (hserved : s.drawsServed = true) (htakes : (s.journalInput (s.givenInput src code target body)).seqTakes = true) (hcalls : s.sec.calls + 1 < 65536)
    {tag m : Nat} (ht : tag < 2 ^ 32) (htag : drawKey tag = some k) {P : Entry → Com → Prop}
    (hwait : ∀ b, Drawing s b k (s.taskOf k (s.givenEntry src code target body)) [s.givenEntry src code target body] →
      (s.givenCom b k src code target body).command (s.givenEntry src code target body) (s.givenOrigin src code target body) (givenCmd code target body) =
        (.ok, { s.givenCom b k src code target body with wait := some (.draw tag m) }))
    (hrun : ∀ b d c, Drawing s b k (s.drawnTask k (s.givenEntry src code target body) d) [s.givenEntry src code target body, d] → d.jsn = s.seq.nextJsn + 1 →
      c = b.comOf (s.drawnTask k (s.givenEntry src code target body) d) →
      ∃ c1, c.command (s.givenEntry src code target body) (s.givenOrigin src code target body) (givenCmd code target body) = (.ok, c1) ∧
        c1.wait = none ∧ c1.ojsn = d.jsn ∧ (c1.outs.map Output.cells).foldl (· + ·) 0 ≤ 4096 ∧
        c1.s = { b with ctx := c1.s.ctx, regs := c1.s.regs } ∧ P d c1) :
    ∃ d c1 a, d.kind = .drbgDraw ∧ d.jsn = s.seq.nextJsn + 1 ∧ d.payload = le 4 tag ++ fit m (s.wrapJ (Config.drbg s.sec.drbg (m - 8))) ∧ P d c1 ∧
      (s.giveCommand src code target body).seq.journal = s.seq.journal ++ [s.givenEntry src code target body, d] ∧
      (s.giveCommand src code target body).erg.outq = s.erg.outq ++ c1.outs ++ [a] ∧ a.rtype = 6 ∧ a.ojsn = d.jsn ∧
      (s.giveCommand src code target body).erg.keys = [] ∧ (s.giveCommand src code target body).regs = c1.s.regs ∧
      (s.giveCommand src code target body).ctx = c1.s.ctx := by
  obtain ⟨b, hg, hb, hsec, hseq⟩ := given_drawing g hkey
  have hfirst : ∀ y ∈ [s.givenEntry src code target body], y.kind ≠ .seifFrame ∧ s.seq.nextJsn ≤ y.jsn := fun y hy => by
    rw [List.mem_singleton.1 hy]
    exact ⟨nofun, le_refl _⟩
  have hwork : (s.taskOf k (s.givenEntry src code target body)).work = .entry :=
    workOf_command (e := s.givenEntry src code target body) rfl k
  obtain ⟨o0, hm0, -, -, -⟩ := drawing_acks g hb hfirst hfit (c := s.givenCom b k src code target body) rfl (hwait b hb)
  have hw0 : ((b.comOf (s.taskOf k (s.givenEntry src code target body))).runTask (s.taskOf k (s.givenEntry src code target body))).wait = some (.draw tag m) := by
    rw [runTask_mgmt hk hwork rfl]
    exact congrArg Com.wait hm0
  have hserves : b.drawsServed = true := by
    unfold State.drawsServed State.bitOf State.reg at hserved ⊢
    simp only [Bool.and_eq_true] at hserved
    have hone : b.tasksUsed = 1 := by unfold State.tasksUsed; rw [hb.keys]; rfl
    rw [hb.regs, hb.holder, hone, hserved.1.1, hserved.1.2]
    rfl
  have hgo := workKey_draws hb.keys hw0 hserves (hseq.trans htakes) 5
  obtain ⟨d, hdk, hdj, hdp, hd⟩ := drawing_draws (m := m) hb g.quiet.run hsec hcalls ht htag
  generalize (b.journalDraw tag m).dispatchAll = b2 at hgo hd
  obtain ⟨c, hcd⟩ : ∃ c, c = b2.comOf (s.drawnTask k (s.givenEntry src code target body) d) := ⟨_, rfl⟩
  obtain ⟨c1, hc, hcw, hcj, hcells, hcs, hp⟩ := hrun b2 d c hd hdj hcd
  have hboth : ∀ y ∈ [s.givenEntry src code target body, d], y.kind ≠ .seifFrame ∧ s.seq.nextJsn ≤ y.jsn := fun y hy => by
    rcases List.mem_cons.1 hy with rfl | hy
    · exact ⟨nofun, le_refl _⟩
    · rw [List.mem_singleton.1 hy, hdk, hdj]
      exact ⟨nofun, by omega⟩
  obtain ⟨a, hm, h6, haj, hac⟩ := drawing_acks g hd hboth hfit (by rw [hcd]; rfl) hc
  have hrt : c.runTask (s.drawnTask k (s.givenEntry src code target body) d) = { c1 with outs := c1.outs ++ [a] } :=
    (runTask_mgmt hk hwork rfl).trans hm
  have houtq : c1.s.erg.outq = s.erg.outq := by rw [hcs]; exact hd.outq
  have hroom : Com.roomForOuts { c1 with outs := c1.outs ++ [a] } = true := by
    have hused : c1.s.cellsUsed = s.cellsUsed := by unfold State.cellsUsed; rw [houtq]
    have hq := g.quiet.cells
    unfold Com.roomForOuts
    simp only [hused, List.map_append, List.foldl_append, List.map_cons, List.map_nil, List.foldl_cons, List.foldl_nil, decide_eq_true_eq]
    omega
  obtain ⟨dn, hw⟩ := workKey_commits (b := b2) (k := k) (c := { c1 with outs := c1.outs ++ [a] }) hd.keys 3 (by rw [← hrt, hcd]; rfl) hcw hroom
    (by rcases hk with rfl | rfl <;> rfl) (by rw [hd.arb]; exact g.quiet.clean) (by show c1.s.erg.keys = _; rw [hcs])
    (by show c1.s.boot.restartDue = false; rw [hcs]; show b2.boot.restartDue = false; rw [hd.boot]; exact g.quiet.stays)
  have ht : s.giveCommand src code target body =
      { c1.s with erg := { c1.s.erg with outq := c1.s.erg.outq ++ (c1.outs ++ [a]), keys := [], poolFull := false, dunes := dn } } := by
    rw [hg]
    exact hgo.trans hw
  rw [ht]
  refine ⟨d, c1, a, hdk, hdj, hdp, hp, ?_, ?_, h6, haj.trans hcj, rfl, rfl, rfl⟩
  · show c1.s.seq.journal = _
    rw [hcs]
    exact hd.journal
  · show c1.s.erg.outq ++ (c1.outs ++ [a]) = _
    rw [houtq, List.append_assoc]

end

end Sys2Proof.Machine
end

section
/-! SUPPORT. READOUT and FW_DECLARE as they run (R257, R437). -/
namespace Sys2Proof.Machine

section
variable {s b : State} {src : Nat}

theorem useDraw_none {c : Com} {tag n : Nat} {f : Com → Bytes → Com} (h : c.draws = []) : c.useDraw tag n f = { c with wait := some (.draw tag n) } := by
  unfold Com.useDraw
  rw [h]

/-- A commit whose task has received draw `w` under JSN `j`: its outputs stand under the later JSN (R43). -/
def Com.withDraw (c : Com) (j : Nat) : Com :=
  { c with ojsn := max c.ojsn j, dep := max c.dep j, draws := [], outs := c.outs.map fun o => { o with ojsn := max o.ojsn j, dep := max o.dep j } }

theorem useDraw_one {c : Com} {tag n j : Nat} {w : Bytes} {f : Com → Bytes → Com} (h : c.draws = [(j, w)]) : c.useDraw tag n f = f (c.withDraw j) w := by
  unfold Com.useDraw
  rw [h]
  rfl

/-! ### FW_DECLARE -/

/-- FW_DECLARE's body (R460). -/
def declareBody (image blocks length mask : Nat) (digest : Bytes) : Bytes :=
  le 2 image ++ le 2 blocks ++ le 4 length ++ fit 32 digest ++ le 2 mask ++ le 2 0

/-- The image that FW_DECLARE enters, with its wrapped key (R437). -/
def declaredImage (image blocks length mask : Nat) (digest key : Bytes) : EpImage :=
  { image := image, blocks := blocks, length := length, digest := fit 32 digest, classMask := mask, key := key }

theorem declareBody_fields {image blocks length mask : Nat} {digest : Bytes} (hi : image < 65536) (hb : blocks ≤ 4096) (hl : length ≤ blocks * 128)
    (hm : mask < 65536) :
    fld 0 2 (declareBody image blocks length mask digest) = image ∧ fld 2 2 (declareBody image blocks length mask digest) = blocks ∧
      fld 4 4 (declareBody image blocks length mask digest) = length ∧ sub 8 32 (declareBody image blocks length mask digest) = fit 32 digest ∧
      fld 40 2 (declareBody image blocks length mask digest) = mask ∧ (declareBody image blocks length mask digest).length = 44 := by
  unfold declareBody
  simp only [List.append_assoc]
  refine ⟨?_, ?_, ?_, ?_, ?_, by simp⟩
  · rw [fld_le_append]
    omega
  · simp [fld_append_right]
    omega
  · simp [fld_append_right]
    omega
  · simp only [sub_append_right _ _ _ _ (show (le 2 _).length ≤ 8 by simp), sub_append_right _ _ _ _ (show (le 2 _).length ≤ 8 - 2 by simp),
      sub_append_right _ _ _ _ (show (le 4 _).length ≤ 8 - 2 - 2 by simp), le_length]
    exact sub_append_left _ _ _ (fit_length 32 digest)
  · simp [fld_append_right]
    omega

/-- FW_DECLARE of a new image with room for it uses a draw and enters the image (R437, R567). -/
theorem fwDeclare_draws {c : Com} {image blocks length mask : Nat} {digest : Bytes} (hi : image < 65536) (h0 : 0 < blocks) (hb : blocks ≤ 4096)
    (hl0 : (blocks - 1) * 128 < length) (hl : length ≤ blocks * 128) (hm : mask < 65536) (hnew : c.s.ctx.images.find? (fun m => m.image == image) = none)
    (hfew : c.s.ctx.images.length < 16) (hroom : (c.s.ctx.images.map fun m => m.blocks).foldl (· + ·) 0 + blocks ≤ c.s.med.caps.getD 3 0 * 8192) :
    c.fwDeclare (declareBody image blocks length mask digest) =
      (.ok, c.useDraw (0xC3000000 + image) 24 fun c1 w => c1.ctx fun k =>
        { k with images := k.images ++ [declaredImage image blocks length mask digest w] }) := by
  obtain ⟨f0, f2, f4, f8, f40, -⟩ := declareBody_fields (digest := digest) hi hb hl hm
  have hnone : c.s.ctx.image image = none := hnew
  unfold Com.fwDeclare
  simp only [f0, f2, f4, f8, f40]
  rw [if_neg (by omega), if_neg (by rw [hnone]; simp; omega)]
  rfl

/-! ### READOUT -/

theorem keysOf_readout (s : State) (src : Nat) : keysOf s.cfg (s.givenEntry src 0x11 0 []) = [.sys 6] := by
  have hc := (given_code s src 0x11 0 [] (by decide)).2
  have ek : (s.givenEntry src 0x11 0 []).kind = .mgmtCmd := rfl
  have es : (s.givenEntry src 0x11 0 []).src.slotV = false := rfl
  have ec : (s.givenEntry src 0x11 0 []).cls = .normal := rfl
  generalize s.givenEntry src 0x11 0 [] = e at *
  unfold keysOf
  rw [ek]
  simp [es, ec, hc]

/-- The feeder's fences change its own part of the context and nothing else of a commit. -/
theorem feederFences_frame (c : Com) (j : Nat) : ∃ k, c.feederFences j = { c with s := { c.s with ctx := k } } := by
  have one (c : Com) (f : Fence) : ∃ k, c.feederFence f = { c with s := { c.s with ctx := k } } := by
    unfold Com.feederFence
    cases f.kind
    all_goals exact ⟨_, rfl⟩
  unfold Com.feederFences
  generalize c.s.ctx.fences.filter _ = l
  induction l generalizing c with
  | nil => exact ⟨c.s.ctx, rfl⟩
  | cons f l ih =>
    obtain ⟨k, hk⟩ := one c f
    obtain ⟨k', hk'⟩ := ih (c.feederFence f)
    exact ⟨k', by rw [List.foldl_cons, hk', hk]⟩

theorem readoutBody_length (cfg : RunCfg) (active unsure : Bool) (reason period closed stamp src gen : Nat) (x : FeederCap) (digest : Bytes) :
    (readoutBody cfg active unsure reason period closed stamp src gen x digest).length = 336 := by
  unfold readoutBody
  simp [List.length_flatMap]

theorem signWith_length (s : State) (gen : Nat) (seed : Bytes) (idx : Nat) (m : Bytes) : (s.signWith gen seed idx m).length = 64 := by
  unfold State.signWith
  exact fit_length _ _

/-- Where only READOUT's own task waits, the commit watermark stands at its JSN (R132). -/
theorem readout_cwmPast {x : Task} {l : List Entry} (h : Drawing s b k x l) (hw : x.work = .entry) (hj : x.jsn = s.seq.nextJsn) (he : x.entry.kind = .mgmtCmd)
    (hc : cmdCode x.entry = 0x11) : b.cwmPast s.seq.nextJsn = true := by
  have hbnd : x.boundary = true := by
    unfold Task.boundary
    simp [hw, he, hc]
  unfold State.cwmPast State.lowestJsn
  rw [h.keys]
  simp [h.passed, hbnd, hj]

/-- READOUT at the commit watermark asks for its draw (R257, R750). -/
theorem cmdReadout_waits {c : Com} (h : c.s.cwmPast c.jsn = true) (hd : c.draws = []) :
    c.cmdReadout = (.ok, { c with wait := some (.draw 0xC4000000 40) }) := by
  unfold Com.cmdReadout
  rw [if_neg (by simp [h]), useDraw_none hd]

/-- READOUT with its draw hands over one signed readout record (R257). -/
theorem cmdReadout_runs {c : Com} {j : Nat} {w : Bytes} (h : c.s.cwmPast c.jsn = true) (hd : c.draws = [(j, w)]) (ho : c.outs = []) :
    ∃ c1 r, c.cmdReadout = (.ok, c1) ∧ c1.wait = c.wait ∧ c1.ojsn = max c.ojsn j ∧ c1.outs = [r] ∧ r.rtype = 3 ∧ r.ojsn = max c.ojsn j ∧ r.cells ≤ 16 ∧
      c1.s = { c.s with ctx := c1.s.ctx, regs := (c.s.count rCphSigcnt 1).regs } := by
  obtain ⟨k, hk⟩ := feederFences_frame (c.withDraw j) (c.jsn + 1)
  have houts : (c.withDraw j).outs = [] := by
    unfold Com.withDraw
    rw [ho]
    rfl
  unfold Com.cmdReadout
  rw [if_neg (by simp [h]), useDraw_one hd]
  extract_lets c2 x gen body
  have hb : body.length = 336 := readoutBody_length ..
  generalize hsig : State.signWith _ _ _ _ body = sig
  have hs : sig.length = 64 := by rw [← hsig]; exact signWith_length ..
  have hc2 : c2 = { c.withDraw j with s := { c.s with ctx := k } } := hk
  clear_value body gen x c2
  clear hsig
  subst hc2
  refine ⟨_, { ojsn := max c.ojsn j, dep := max c.dep j, key := c.key, idx := c.base + 0, rtype := 3, bytes := body ++ sig, dest := .stream }, rfl, rfl, rfl, ?_,
    rfl, rfl, ?_, rfl⟩
  · show (c.withDraw j).outs ++ [{ ojsn := max c.ojsn j, dep := max c.dep j, key := c.key, idx := c.base + (c.withDraw j).outs.length, rtype := 3,
                                   bytes := body ++ sig, dest := .stream }] = _
    rw [houts]
    rfl
  · unfold Output.cells ceilDiv
    simp only [List.length_append, hb, hs]
    decide

end

/-- READOUT, from its command to its commit. -/
theorem readout_commits {s : State} {src : Nat} (g : s.Given src 0x11 0 []) (hserved : s.drawsServed = true)
    (htakes : (s.journalInput (s.givenInput src 0x11 0 [])).seqTakes = true) (hcalls : s.sec.calls + 1 < 65536) :
    ∃ d r a, d.kind = .drbgDraw ∧ d.jsn = s.seq.nextJsn + 1 ∧ d.payload = le 4 0xC4000000 ++ fit 40 (s.wrapJ (Config.drbg s.sec.drbg 32)) ∧
      (s.giveCommand src 0x11 0 []).seq.journal = s.seq.journal ++ [s.givenEntry src 0x11 0 [], d] ∧
      (s.giveCommand src 0x11 0 []).erg.outq = s.erg.outq ++ [r, a] ∧ r.rtype = 3 ∧ r.ojsn = d.jsn ∧ a.rtype = 6 ∧ a.ojsn = d.jsn ∧
      (s.giveCommand src 0x11 0 []).erg.keys = [] ∧ (s.giveCommand src 0x11 0 []).regs = (s.count rCphSigcnt 1).regs := by
  have hcode : cmdCode (s.givenEntry src 0x11 0 []) = 0x11 := (given_code s src 0x11 0 [] (by decide)).2
  have hwork : workOf (s.givenEntry src 0x11 0 []) (.sys 6) = .entry := workOf_command rfl _
  obtain ⟨d, c1, a, hdk, hdj, hdp, ⟨r, hr, h3, hrj, hregs⟩, hj, ho, h6, haj, hks, hreg, -⟩ := drawing_commits g (.inr rfl) (keysOf_readout s src)
    (cmdFits_unit (by decide) rfl (by decide) (by decide)) hserved htakes hcalls (tag := 0xC4000000) (m := 40) (by decide) rfl
    (P := fun d c1 => ∃ r, c1.outs = [r] ∧ r.rtype = 3 ∧ r.ojsn = d.jsn ∧ c1.s.regs = (s.count rCphSigcnt 1).regs)
    (fun b hb => cmdReadout_waits (readout_cwmPast hb hwork rfl rfl hcode) rfl)
    (fun b d c hb hdj hc => by
      obtain ⟨c1, r, hrun, hw, hoj, hout, h3, hrj, hce, hs⟩ := cmdReadout_runs (c := c) (j := d.jsn) (w := d.payload.drop 4)
        (by rw [hc]; exact readout_cwmPast hb hwork rfl rfl hcode) (by rw [hc]; rfl) (by rw [hc]; rfl)
      have hmax : max c.ojsn d.jsn = d.jsn := by
        have : c.ojsn = s.seq.nextJsn := by rw [hc]; rfl
        omega
      have hcs : c.s = b := by rw [hc]; rfl
      refine ⟨c1, hrun, by rw [hw, hc]; rfl, hoj.trans hmax, by rw [hout]; simp; omega, by rw [hs, hcs], r, hout, h3, hrj.trans hmax, ?_⟩
      rw [hs]
      unfold State.count State.setReg State.reg
      rw [hcs, hb.regs])
  exact ⟨d, r, a, hdk, hdj, hdp, hj, by rw [ho, hr, List.append_assoc]; rfl, h3, hrj, h6, haj, hks, hreg.trans hregs⟩

/-- FW_DECLARE, from its command to its commit. -/
theorem fwDeclare_commits {s : State} {src image blocks length mask : Nat} {digest : Bytes} (g : s.Given src 0x41 0 (declareBody image blocks length mask digest))
    (hi : image < 65536) (h0 : 0 < blocks) (hb : blocks ≤ 4096) (hl0 : (blocks - 1) * 128 < length) (hl : length ≤ blocks * 128) (hm : mask < 65536)
    (hnew : s.ctx.image image = none) (hfew : s.ctx.images.length < 16)
    (hroom : (s.ctx.images.map fun m => m.blocks).foldl (· + ·) 0 + blocks ≤ s.med.caps.getD 3 0 * 8192) (hserved : s.drawsServed = true)
    (htakes : (s.journalInput (s.givenInput src 0x41 0 (declareBody image blocks length mask digest))).seqTakes = true) (hcalls : s.sec.calls + 1 < 65536) :
    ∃ t d a, t = s.giveCommand src 0x41 0 (declareBody image blocks length mask digest) ∧ d.kind = .drbgDraw ∧ d.jsn = s.seq.nextJsn + 1 ∧
      t.seq.journal = s.seq.journal ++ [s.givenEntry src 0x41 0 (declareBody image blocks length mask digest), d] ∧
      t.ctx.images = s.ctx.images ++ [declaredImage image blocks length mask digest (d.payload.drop 4)] ∧
      t.erg.outq = s.erg.outq ++ [a] ∧ a.rtype = 6 ∧ a.ojsn = d.jsn ∧ t.erg.keys = [] ∧ t.regs = s.regs := by
  obtain ⟨-, -, -, -, -, hlen⟩ := declareBody_fields (digest := digest) hi hb hl hm
  have hdraws {x : Task} {l : List Entry} {b : State} (h : Drawing s b (.sys 3) x l) := fwDeclare_draws (c := b.comOf x) (digest := digest) hi h0 hb hl0 hl hm
    (by show b.ctx.images.find? _ = none; rw [h.images]; exact hnew) (by show b.ctx.images.length < 16; rw [h.images]; exact hfew)
    (by show (b.ctx.images.map _).foldl _ _ + _ ≤ b.med.caps.getD 3 0 * 8192; rw [h.images, h.med]; exact hroom)
  obtain ⟨d, c1, a, hdk, hdj, -, ⟨himg, hout, hregs⟩, hj, ho, h6, haj, hks, hreg, hctx⟩ := drawing_commits g (.inl rfl)
    (keysOf_cmd s src 0x41 _ (by decide) (by decide) (by decide) (by decide)) (cmdFits_unit (by decide) (by rw [hlen]; rfl) (by decide) (by decide))
    hserved htakes hcalls (tag := 0xC3000000 + image) (m := 24) (by omega) (by unfold drawKey bits; rw [if_neg (by omega), if_pos (by omega)])
    (P := fun d c1 => c1.s.ctx.images = s.ctx.images ++ [declaredImage image blocks length mask digest (d.payload.drop 4)] ∧ c1.outs = [] ∧ c1.s.regs = s.regs)
    (fun b hb => (hdraws hb).trans (congrArg (Prod.mk _) (useDraw_none rfl)))
    (fun b d c hb hdj hc => by
      have hrun := (hdraws hb).trans (congrArg (Prod.mk _) (useDraw_one (j := d.jsn) (w := d.payload.drop 4) rfl))
      rw [← hc] at hrun
      refine ⟨_, hrun, by rw [hc]; rfl, ?_, by rw [hc]; exact Nat.zero_le _, by rw [hc]; rfl, ?_, by rw [hc]; rfl, by rw [hc]; exact hb.regs⟩
      · show max c.ojsn d.jsn = d.jsn
        have : c.ojsn = s.seq.nextJsn := by rw [hc]; rfl
        omega
      · rw [hc]
        show b.ctx.images ++ _ = _
        rw [hb.images])
  exact ⟨_, d, a, rfl, hdk, hdj, hj, by rw [hctx]; exact himg, by rw [ho, hout, List.append_nil], h6, haj, hks, hreg.trans hregs⟩

/-- Settles O36: each command journals its entry, then the draw it waits for, and commits under the draw's JSN. -/
theorem drawingCommandsWaitForTheirDraw : Obligations.DrawingCommandsWaitForTheirDraw := by
  refine ⟨fun src s s1 g hserved hs1 htakes hcalls => ?_,
    fun src image blocks length mask digest body s s1 hbody g hi h0 hb hl0 hl hm hnew hfew hroom hserved hs1 htakes hcalls => ?_⟩
  · rw [hs1] at htakes
    obtain ⟨d, r, a, hdk, hdj, hdp, hj, ho, h3, hrj, h6, haj, hks, hregs⟩ := readout_commits g hserved htakes hcalls
    refine ⟨_, _, d, r, a, rfl, hj, rfl, hdk, hdj, hdp, ho, h3, h6, hrj, haj, hks, ?_, fun x hx => ?_⟩
    · rw [State.reg_of_regs hregs, State.reg_count g.inv.1]
    · rw [State.reg_of_regs hregs, State.reg_count_other g.inv.1 _ (by simpa using hx)]
  · subst hbody
    rw [hs1] at htakes
    obtain ⟨t, d, a, ht, hdk, hdj, hj, himg, ho, h6, haj, hks, hregs⟩ := fwDeclare_commits g hi h0 hb hl0 hl hm hnew hfew hroom hserved htakes hcalls
    subst ht
    exact ⟨_, _, d, a, rfl, hj, rfl, hdk, hdj, himg, ho, h6, haj, hks, hregs⟩

end Sys2Proof.Machine
end

section
/-! SUPPORT. One write at a ring that finds what it needs, or does not: what it does to the ring and its words (R78 to R92). -/
namespace Sys2Proof.Machine

/-- The state with ring `n` and working RAM replaced: all that a write at a ring changes. -/
def State.ringAs (s : State) (n : Nat) (r : Ring) (m : List (Nat × Byte)) : State := { s with rings := s.rings.set n r, wram := m }

section
variable {s : State} {n : Nat}

@[simp] theorem State.ringAs_wram (r : Ring) (m : List (Nat × Byte)) : (s.ringAs n r m).wram = m := rfl

@[simp] theorem State.ringAs_ringAs (r q : Ring) (m m' : List (Nat × Byte)) : (s.ringAs n r m).ringAs n q m' = s.ringAs n q m' := by
  simp [State.ringAs]

theorem State.ringAs_setRing (r q : Ring) (m : List (Nat × Byte)) : (s.ringAs n r m).setRing n q = s.ringAs n q m := by
  simp [State.ringAs, State.setRing]

theorem State.ringAs_rings_length (r : Ring) (m : List (Nat × Byte)) : (s.ringAs n r m).rings.length = s.rings.length := List.length_set ..

theorem State.ringAs_ring (hn : n < s.rings.length) (r : Ring) (m : List (Nat × Byte)) : (s.ringAs n r m).ring n = r := ring_of_set hn r

/-- Rings read the same whether or not a flag is then set. -/
theorem State.ringAs_irq_ring (hn : n < s.rings.length) (r : Ring) (m : List (Nat × Byte)) (a b k : Nat) :
    ((s.ringAs n r m).irq a b).ring k = if k = n then r else s.ring k := by
  unfold State.ring
  rw [State.irq_rings]
  exact State.ring_setRing hn r k

/-- A ring that is enabled is one of the rings there are. -/
theorem ring_lt_of_en {r : Ring} (hr : s.ring n = r) (h : r.en = true) : n < s.rings.length := by
  subst hr
  by_contra hn
  unfold State.ring at h
  rw [List.getD_eq_default _ _ (by omega)] at h
  cases h

theorem State.ringAs_self {r : Ring} (hr : s.ring n = r) (hn : n < s.rings.length) : s.ringAs n r s.wram = s := by
  have : s.rings.set n r = s.rings := by
    rw [← hr]
    unfold State.ring
    rw [List.getD_eq_getElem _ _ hn, List.set_getElem_self]
  unfold State.ringAs
  rw [this]

/-! ### Markers -/

section
variable {r : Ring} (hr : s.ring n = r)
include hr

theorem wadi_unwritable (h : r.held = true ∨ r.freeWords = 0) : s.wadi n = s := by
  unfold State.wadi
  rw [hr]
  rcases h with h | h <;> simp [h]

theorem wadi_due (hd : ringDrops n = true) (he : r.en = true) (hp : 0 < r.pend) (ho : r.opn = .closed) (hf : 0 < r.freeWords) (hh : r.held = false) :
    s.wadi n = (s.ringAs n (Ring.show { r with w := r.w + 1, pend := 0, dropCnt := satAdd 0xFFFFFFFF r.dropCnt r.pend } s.t)
      (ramPutWord s.wram (r.addr r.w) (BitVec.ofNat 32 (0xE0000000 + min r.pend 0xFFFFFF)))).irq rQfIrq (16 + n) := by
  unfold State.wadi
  rw [hr]
  simp only [hd, he, hp, ho, hf, hh]
  rfl

/-! ### Opens -/

theorem ringOpen_reserves (hw : s.wadi n = s) (he : r.en = true) (ho : r.opn = .closed) (hh : r.held = false) (hf : 0 < r.freeWords) :
    s.ringOp n .open_ = (.done, s.ringAs n { r with opn := .opened r.w 0 false, w := r.w + 1 } s.wram) := by
  show s.ringOpen n = _
  unfold State.ringOpen
  simp [hw, hr, he, ho, hh, Nat.ne_of_gt hf]
  rfl

theorem ringOpen_drops (hd : ringDrops n = true) (he : r.en = true) (ho : r.opn = .closed) (h : r.held = true ∨ r.freeWords = 0) :
    s.ringOp n .open_ = (.done, s.ringAs n { r with opn := .dropped, pend := r.pend + 1 } s.wram) := by
  show s.ringOpen n = _
  unfold State.ringOpen
  rw [wadi_unwritable hr h]
  simp [hr, hd, he, ho, h]
  rfl

theorem ringOpen_waits (hd : ringDrops n = false) (he : r.en = true) (ho : r.opn = .closed) (hf : r.freeWords = 0) :
    s.ringOp n .open_ = (.stalled, s) := by
  show s.ringOpen n = _
  unfold State.ringOpen
  simp [wadi_unwritable hr (.inr hf), hr, hd, he, ho, hf]

/-! ### Pushes and closes -/

theorem ringPush_dropped (v : Word) (he : r.en = true) (ho : r.opn = .dropped) :
    s.ringOp n (.push v) = (.done, s.ringAs n { r with pend := r.pend + 1 } s.wram) := by
  show s.ringPush n v = _
  unfold State.ringPush
  simp [hr, he, ho]
  rfl

variable {pos k : Nat} {cut : Bool} (v : Word) (he : r.en = true) (ho : r.opn = .opened pos k cut)
include he ho

/-- A push that fits its packet and finds a word stores it; on a ring with the drop policy only while nothing of the packet was dropped. -/
theorem ringPush_stores (hc : cut = false ∨ ringDrops n = false) (hk : k + 2 ≤ r.size - 1) (hf : 0 < r.freeWords) :
    s.ringOp n (.push v) = (.done, s.ringAs n { r with opn := .opened pos (k + 1) cut, w := r.w + 1 } (ramPutWord s.wram (r.addr r.w) v)) := by
  show s.ringPush n v = _
  unfold State.ringPush
  rcases hc with hc | hc
  all_goals simp [hr, he, ho, hc, Nat.not_lt.mpr hk, Nat.ne_of_gt hf]
  all_goals rfl

theorem ringPush_cuts (hd : ringDrops n = true) (h : cut = true ∨ r.freeWords = 0 ∨ r.size - 1 < k + 2) :
    s.ringOp n (.push v) = (.done, s.ringAs n { r with opn := .opened pos k true, pend := r.pend + 1 } s.wram) := by
  show s.ringPush n v = _
  unfold State.ringPush
  rcases h with h | h | h
  all_goals simp [hr, he, ho, hd, h]
  all_goals rfl

theorem ringPush_waits (hd : ringDrops n = false) (hk : k + 2 ≤ r.size - 1) (hf : r.freeWords = 0) :
    s.ringOp n (.push v) = (.stalled, s) := by
  show s.ringPush n v = _
  unfold State.ringPush
  simp [hr, he, ho, hd, Nat.not_lt.mpr hk, hf]

theorem ringClose_shows (ty : Nat) :
    s.ringOp n (.close ty) = (.done, s.ringAs n (Ring.show { r with opn := .closed } s.t) (ramPutWord s.wram (r.addr pos) (lengthWord cut ty k))) := by
  show s.ringClose n ty = _
  unfold State.ringClose
  simp [hr, he, ho]
  rfl

end

end

end Sys2Proof.Machine
end

section
/-! SUPPORT. Packets one behind another in a ring: offered in order, they are taken in order (R80, R81, R84 to R86). -/
namespace Sys2Proof.Machine

/-! ### A run of words -/

theorem State.ringRun_congr {s t : State} {r q : Ring} {p k : Nat} (h : ∀ i, i < k → t.ringWord q (p + i) = s.ringWord r (p + i)) :
    t.ringRun q p k = s.ringRun r p k := by
  induction k generalizing p with
  | zero => rfl
  | succ k ih =>
    have h0 : t.ringWord q p = s.ringWord r p := h 0 (by omega)
    unfold State.ringRun
    rw [h0, ih fun i hi => by rw [Nat.add_assoc, Nat.add_comm 1]; exact h (i + 1) (by omega)]

theorem State.ringRun_add (s : State) (r : Ring) (p a b : Nat) : s.ringRun r p (a + b) = s.ringRun r p a ++ s.ringRun r (p + a) b := by
  induction a generalizing p with
  | zero => rw [Nat.zero_add]; rfl
  | succ a ih =>
    rw [Nat.succ_add, State.ringRun, State.ringRun, ih (p + 1), Nat.add_assoc, Nat.add_comm 1, List.cons_append]

@[simp] theorem State.ringRun_length (s : State) (r : Ring) (p k : Nat) : (s.ringRun r p k).length = k := by
  induction k generalizing p with
  | zero => rfl
  | succ k ih => simp [State.ringRun, ih]

/-! ### A packet offered to a ring with room -/

/-- A ring that a packet of `k` payload words can join at once, behind what it holds (R84, R89, R92). -/
structure State.RingRoom (s : State) (n k : Nat) : Prop where
  en   : (s.ring n).en = true
  held : (s.ring n).held = false
  opn  : (s.ring n).opn = .closed
  pend : (s.ring n).pend = 0
  idle : (s.ring n).waiting = []
  room : k + 1 ≤ (s.ring n).freeWords
  fits : k + 2 ≤ (s.ring n).size

/-- A ring once a packet of `k` payload words has joined it. -/
def Ring.joined (r : Ring) (now k : Nat) : Ring :=
  { r with opn := .closed, w := r.w + (k + 1), vis := r.w + (k + 1), staleT := if r.cnt = 0 then now else r.staleT, byReg := false, waiting := [] }

/-- Working RAM once a packet has joined a ring. -/
def Ring.joinedRam (r : Ring) (m : List (Nat × Byte)) (ty : Nat) (ws : List Word) : List (Nat × Byte) :=
  ramPutWord (putRun r m (r.w + 1) ws) (r.addr r.w) (lengthWord false ty ws.length)

section
variable {s : State} {n : Nat}

/-- The pushes of a packet's payload words, waiting as a hardware producer's. -/
def pushes (ws : List Word) : List (Bool × RingOp) := ws.map fun v => (false, .push v)

@[simp] theorem pushes_length (ws : List Word) : (pushes ws).length = ws.length := List.length_map ..

theorem packetOps_waiting (ty : Nat) (ws : List Word) :
    (packetOps ty ws).map (fun o => (false, o)) = (false, .open_) :: (pushes ws ++ [(false, .close ty)]) := by
  simp [packetOps, pushes]

/-- A ring that nothing waits at, once a packet is offered to it. -/
def Ring.offered (r : Ring) (ty : Nat) (ws : List Word) : Ring := { r with waiting := (false, .open_) :: (pushes ws ++ [(false, .close ty)]) }

/-- The ring once that packet's open has completed. -/
def Ring.begun (r : Ring) (ty : Nat) (ws : List Word) : Ring :=
  { r with opn := .opened r.w 0 false, w := r.w + 1, byReg := false, waiting := pushes ws ++ [(false, .close ty)] }

/-- The ring once that packet's payload words are stored. -/
def Ring.filled (r : Ring) (ty : Nat) (ws : List Word) : Ring :=
  { r with opn := .opened r.w (0 + ws.length) false, w := r.w + 1 + ws.length, byReg := false, waiting := [(false, .close ty)] }

/-- A write waiting at the front of a ring completes and leaves the list. -/
theorem ringFeed_front {r q : Ring} {m : List (Nat × Byte)} {op : RingOp} {rest : List (Bool × RingOp)} (k : Nat) (hr : s.ring n = r)
    (hn : n < s.rings.length) (hw : r.waiting = (false, op) :: rest) (h : s.ringOp n op = (.done, s.ringAs n q m)) :
    State.ringFeed n (k + 1) s =
      State.ringFeed n k (s.ringAs n { q with byReg := if op = .open_ then false else q.byReg, waiting := rest } m) := by
  rw [ringFeed_done (hr ▸ hw) h]
  cases op <;> simp [State.opened, State.ringAs_ring hn, State.ringAs_setRing]

/-- The payload words of a packet, waiting at a ring with room, are stored one behind another. -/
theorem ringFeed_pushes (m : Nat) {r : Ring} {ws : List Word} {rest : List (Bool × RingOp)} {pos st : Nat}
    (hr : s.ring n = r) (hn : n < s.rings.length) (he : r.en = true) (ho : r.opn = .opened pos st false)
    (hw : r.waiting = pushes ws ++ rest) (hroom : ws.length ≤ r.freeWords) (hfit : st + ws.length + 2 ≤ r.size) :
    State.ringFeed n (ws.length + m) s = State.ringFeed n m
      (s.ringAs n { r with opn := .opened pos (st + ws.length) false, w := r.w + ws.length, waiting := rest } (putRun r s.wram r.w ws)) := by
  induction ws generalizing s r st with
  | nil =>
    have hq : ({ r with opn := .opened pos (st + 0) false, w := r.w + 0, waiting := rest } : Ring) = r := by
      rw [Nat.add_zero, Nat.add_zero, ← ho, show rest = r.waiting from hw.symm]
    rw [List.length_nil, Nat.zero_add, hq]
    exact congrArg _ (State.ringAs_self hr hn).symm
  | cons v ws ih =>
    simp only [List.length_cons] at hroom hfit ⊢
    obtain ⟨q, hq⟩ : ∃ q, q = { r with opn := .opened pos (st + 1) false, w := r.w + 1, waiting := pushes ws ++ rest } := ⟨_, rfl⟩
    obtain ⟨hqe, hqo, hqw, hqp, hqf, hqs⟩ : q.en = true ∧ q.opn = .opened pos (st + 1) false ∧ q.waiting = pushes ws ++ rest ∧
        q.w = r.w + 1 ∧ r.freeWords ≤ q.freeWords + 1 ∧ q.size = r.size := by
      subst hq
      refine ⟨he, rfl, rfl, rfl, ?_, rfl⟩
      show r.size - (r.w - r.r) ≤ r.size - (r.w + 1 - r.r) + 1
      omega
    have hstep : State.ringFeed n (ws.length + m + 1) s = State.ringFeed n (ws.length + m) (s.ringAs n q (ramPutWord s.wram (r.addr r.w) v)) := by
      rw [hq]
      exact ringFeed_front _ hr hn hw (ringPush_stores hr v he ho (.inl rfl) (by omega) (by omega))
    rw [Nat.succ_add, hstep, ih (State.ringAs_ring hn _ _) (by rw [State.ringAs_rings_length]; exact hn) hqe hqo hqw (by omega) (by omega),
      State.ringAs_ringAs, putRun_congr (r := r) (q := q) (by rw [hq]) (by rw [hq]), hqp, hq, Nat.add_comm ws.length 1, ← Nat.add_assoc, ← Nat.add_assoc]
    rfl

/-- A packet offered to a ring with room joins what the ring holds, and nothing else changes. -/
theorem ringPacket_joins {ty : Nat} {ws : List Word} (f : s.RingRoom n ws.length) :
    s.ringPacket n ty ws = s.ringAs n ((s.ring n).joined s.t ws.length) ((s.ring n).joinedRam s.wram ty ws) := by
  obtain ⟨en, held, opn, pend, idle, room, fits⟩ := f
  have hn : n < s.rings.length := ring_lt_of_en rfl en
  generalize hr : s.ring n = r at en held opn pend idle room fits ⊢
  have hn' {q : Ring} {m : List (Nat × Byte)} : n < (s.ringAs n q m).rings.length := by rw [State.ringAs_rings_length]; exact hn
  have hr0 := State.ringAs_ring hn (r.offered ty ws) s.wram
  have hr1 := State.ringAs_ring hn (r.begun ty ws) s.wram
  have hr2 := State.ringAs_ring hn (r.filled ty ws) (putRun r s.wram (r.w + 1) ws)
  have hroom : ws.length ≤ (r.begun ty ws).freeWords := by
    unfold Ring.freeWords at room ⊢
    show _ ≤ r.size - (r.w + 1 - r.r)
    omega
  calc s.ringPacket n ty ws
    _ = State.ringFeed n (ws.length + 1 + 1) (s.ringAs n (r.offered ty ws) s.wram) := by
      unfold State.ringPacket State.ringDrain
      rw [hr]
      dsimp only
      rw [if_pos en, idle, List.nil_append, packetOps_waiting]
      refine (congrArg (fun q : Ring => State.ringFeed n q.waiting.length _) hr0).trans ?_
      rw [Ring.offered, List.length_cons, List.length_append, pushes_length]
      rfl
    _ = State.ringFeed n (ws.length + 1) (s.ringAs n (r.begun ty ws) s.wram) :=
      (ringFeed_front _ hr0 hn' rfl (ringOpen_reserves hr0 (wadi_none (by rw [hr0]; exact pend)) en opn held
        (Nat.lt_of_lt_of_le (Nat.succ_pos _) room))).trans (congrArg _ (State.ringAs_ringAs ..))
    _ = State.ringFeed n 1 (s.ringAs n (r.filled ty ws) (putRun r s.wram (r.w + 1) ws)) := by
      rw [ringFeed_pushes 1 hr1 hn' en rfl rfl hroom (by rw [Nat.zero_add]; exact fits), State.ringAs_ringAs, putRun_congr (r := r) (by rfl) (by rfl)]
      rfl
    _ = s.ringAs n (r.joined s.t ws.length) (r.joinedRam s.wram ty ws) := by
      rw [ringFeed_front 0 hr2 hn' rfl (ringClose_shows hr2 en rfl ty), State.ringAs_ringAs, Nat.zero_add]
      unfold Ring.joined
      rw [Nat.add_comm ws.length 1, ← Nat.add_assoc]
      rfl

end

/-! ### What a ring holds -/

/-- The words of packets one behind another (R80). -/
def packetWords (ps : List (Nat × List Word)) : List Word := ps.flatMap fun p => lengthWord false p.1 p.2.length :: p.2

theorem packetWords_length (ps : List (Nat × List Word)) : (packetWords ps).length = (ps.map fun p => p.2.length + 1).sum := by
  simp [packetWords, List.length_flatMap]

/-- An enabled ring, closed, that carries these packets in its words, next to be read first, and nothing else. -/
structure Ring.Carries (r : Ring) (s : State) (ps : List (Nat × List Word)) : Prop where
  en     : r.en = true
  held   : r.held = false
  opn    : r.opn = .closed
  pend   : r.pend = 0
  idle   : r.waiting = []
  fresh  : r.remain = 0
  shown  : r.vis = r.w
  filled : r.w = r.r + (packetWords ps).length
  words  : s.ringRun r r.r (packetWords ps).length = packetWords ps

section
variable {s : State} {n : Nat}

/-- What a packet's joining leaves in a ring's words: those held before as they were, and behind them the length word and the payload. -/
theorem joinedRam_run {r q : Ring} {ty k : Nat} {ws : List Word} (hwf : Memory.wf s.wram = true) (hqb : q.base = r.base) (hqs : q.sizeLog2 = r.sizeLog2)
    (hk : r.w = r.r + k) (hroom : k + ws.length + 1 ≤ r.size) :
    (s.ringAs n q (r.joinedRam s.wram ty ws)).ringRun q r.r (k + (ws.length + 1)) = s.ringRun r r.r k ++ lengthWord false ty ws.length :: ws := by
  have haddr (p : Nat) : q.addr p = r.addr p := by unfold Ring.addr Ring.size; rw [hqb, hqs]
  have hwf1 := putRun_wf r hwf (r.w + 1) ws
  rw [State.ringRun_add, ← hk]
  congr 1
  · refine State.ringRun_congr fun i hi => ?_
    unfold State.ringWord
    rw [haddr, State.ringAs_wram, Ring.joinedRam, ramWord_put_other hwf1 _ (addr_apart r (r.r + i) r.w (by omega) (by omega)),
      putRun_word_other r hwf _ _ _ (by omega) (by omega)]
  · unfold State.ringRun
    congr 1
    · unfold State.ringWord
      rw [haddr]
      exact ramWord_put hwf1 _ _
    · refine ringRun_putRun q _ hwf _ _ (by unfold Ring.size; rw [hqs]; exact Nat.le_trans (by omega) hroom) fun i hi => ?_
      rw [haddr, putRun_congr hqb hqs, State.ringAs_wram, Ring.joinedRam]
      exact ramWord_put_other hwf1 _ (Or.symm (addr_apart r r.w (r.w + 1 + i) (by omega) (by omega)))

theorem packetWords_snoc (ps : List (Nat × List Word)) (p : Nat × List Word) :
    packetWords (ps ++ [p]) = packetWords ps ++ lengthWord false p.1 p.2.length :: p.2 := by simp [packetWords]

/-- A packet offered to a ring that it still fits stands behind those the ring carries. -/
theorem Ring.Carries.offer {ps : List (Nat × List Word)} (hwf : Memory.wf s.wram = true) (h : (s.ring n).Carries s ps) (p : Nat × List Word)
    (hfit : p.2.length + 2 ≤ (s.ring n).size) (hroom : (packetWords ps).length + (p.2.length + 1) ≤ (s.ring n).size) :
    Memory.wf (s.ringPacket n p.1 p.2).wram = true ∧ ((s.ringPacket n p.1 p.2).ring n).Carries (s.ringPacket n p.1 p.2) (ps ++ [p]) ∧
      ((s.ringPacket n p.1 p.2).ring n).size = (s.ring n).size := by
  obtain ⟨en, held, opn, pend, idle, fresh, shown, filled, words⟩ := h
  have hlen : (packetWords (ps ++ [p])).length = (packetWords ps).length + (p.2.length + 1) := by rw [packetWords_snoc, List.length_append]; rfl
  rw [ringPacket_joins (ty := p.1) (ws := p.2) ⟨en, held, opn, pend, idle, by unfold Ring.freeWords; omega, hfit⟩,
    State.ringAs_ring (ring_lt_of_en rfl en)]
  refine ⟨ramPutWord_wf (putRun_wf _ hwf _ _) _ _, ⟨en, held, rfl, pend, rfl, fresh, rfl, ?_, ?_⟩, rfl⟩
  · show (s.ring n).w + (p.2.length + 1) = (s.ring n).r + _
    omega
  · rw [hlen, packetWords_snoc]
    exact (joinedRam_run hwf (by rfl) (by rfl) filled hroom).trans (congrArg (· ++ _) words)

/-- The consumer of a ring takes the first of the packets the ring carries, and the others stay. -/
theorem Ring.Carries.take {ps : List (Nat × List Word)} {p : Nat × List Word} (h : (s.ring n).Carries s (p :: ps)) (hs : p.2.length < 65536) :
    (s.ringTake n).1 = .packet false (p.1 % 256) p.2 ∧ ((s.ringTake n).2.ring n).Carries (s.ringTake n).2 ps := by
  obtain ⟨en, held, opn, pend, idle, fresh, shown, filled, words⟩ := h
  have hsplit : packetWords (p :: ps) = lengthWord false p.1 p.2.length :: (p.2 ++ packetWords ps) := by simp [packetWords]
  rw [hsplit, List.length_cons, List.length_append] at words filled
  rw [State.ringRun, State.ringRun_add, List.cons.injEq] at words
  obtain ⟨hfirst, hrest⟩ := words
  obtain ⟨hpay, hmore⟩ := List.append_inj hrest (State.ringRun_length ..)
  obtain ⟨h13, hcut, hty, hl⟩ := lengthWord_fields p.1 p.2.length hs
  have hpeek : s.ringPeek n = .packet false (p.1 % 256) p.2 := by
    unfold State.ringPeek
    simp only [fresh, Nat.add_zero, hfirst, h13, hcut, hty, hl, hpay, en]
    rw [if_pos (by simp; omega), if_neg (by decide)]
  have htake : s.ringTake n = (.packet false (p.1 % 256) p.2, s.setRing n
      { s.ring n with r := (s.ring n).r + (p.2.length + 1), remain := 0, staleT := s.t, staleFired := false }) := by
    unfold State.ringTake
    rw [hpeek]
    simp only [fresh, Nat.add_zero, Item.len]
  rw [htake]
  refine ⟨rfl, ?_⟩
  rw [ring_of_set (ring_lt_of_en rfl en)]
  refine ⟨en, held, opn, pend, idle, rfl, shown, ?_, ?_⟩
  · rw [filled]
    show _ = (s.ring n).r + (p.2.length + 1) + _
    omega
  · rw [Nat.add_assoc, Nat.add_comm 1] at hmore
    exact (State.ringRun_congr fun _ _ => by rfl).trans hmore

/-- A ring that carries nothing gives its consumer nothing. -/
theorem Ring.Carries.idle_of_nil (h : (s.ring n).Carries s []) : s.ringTake n = (.idle, s) :=
  ringTake_empty (by rw [h.shown, h.filled, h.fresh]; exact Nat.le_refl _)

theorem Ring.Carries.takes {ps : List (Nat × List Word)} (h : (s.ring n).Carries s ps) (hs : ∀ p ∈ ps, p.2.length < 65536) :
    ringTakes n ps.length s = ps.map (fun p => Item.packet false (p.1 % 256) p.2) ∧
      ringTakes n (ps.length + 1) s = ps.map (fun p => Item.packet false (p.1 % 256) p.2) ++ [.idle] := by
  induction ps generalizing s with
  | nil => exact ⟨rfl, by rw [List.length_nil, ringTakes, h.idle_of_nil]; rfl⟩
  | cons p ps ih =>
    obtain ⟨hitem, hcarries⟩ := h.take (hs p List.mem_cons_self)
    obtain ⟨hall, hend⟩ := ih hcarries fun q hq => hs q (List.mem_cons_of_mem p hq)
    rw [List.length_cons, ringTakes, hitem, hall, ringTakes, hitem, hend]
    exact ⟨rfl, rfl⟩

/-- Packets offered one after another that all fit stand in the ring in that order. -/
theorem Ring.Carries.offers {ps qs : List (Nat × List Word)} (hwf : Memory.wf s.wram = true) (h : (s.ring n).Carries s qs)
    (hfit : ∀ p ∈ ps, p.2.length + 2 ≤ (s.ring n).size) (hroom : (packetWords (qs ++ ps)).length ≤ (s.ring n).size) :
    ((ps.foldl (fun a p => a.ringPacket n p.1 p.2) s).ring n).Carries (ps.foldl (fun a p => a.ringPacket n p.1 p.2) s) (qs ++ ps) := by
  induction ps generalizing s qs with
  | nil => rwa [List.append_nil]
  | cons p ps ih =>
    have hfirst : (packetWords qs).length + (p.2.length + 1) ≤ (s.ring n).size := by
      simp only [packetWords_length, List.map_append, List.map_cons, List.sum_append, List.sum_cons] at hroom ⊢
      omega
    rw [List.append_cons] at hroom ⊢
    obtain ⟨hwf1, h1, hsize⟩ := h.offer hwf p (hfit p List.mem_cons_self) hfirst
    exact ih hwf1 h1 (fun q hq => hsize ▸ hfit q (List.mem_cons_of_mem p hq)) (hsize ▸ hroom)

end

/-- Settles O12: the packets offered are carried in order, and the packets carried are taken in order. -/
theorem ringDeliversPacket : Obligations.RingDeliversPacket := by
  intro n s t r ps hinv hr en opn pend held idle fresh shown empty hlen hsum ht
  obtain ⟨-, hwf, -, -⟩ := hinv
  subst hr ht
  have hnone : (s.ring n).Carries s [] := ⟨en, held, opn, pend, idle, fresh, shown, empty.symm, rfl⟩
  rw [← List.sum_eq_foldl, ← packetWords_length] at hsum
  exact (hnone.offers hwf (fun p hp => (hlen p hp).1) hsum).takes fun p hp => (hlen p hp).2

end Sys2Proof.Machine
end

section
/-! SUPPORT. The ring commands at a producer's port, at the consumer's, and at the registers (R77 to R79, R84 to R98, R107). -/
namespace Sys2Proof.Machine

/-! ### A write at a producer's port (R78, R79) -/

section
variable {s : State} {n : Nat} {r : Ring} {reg : Bool} (hr : s.ring n = r) (he : r.en = true)
include hr he

theorem ringPort_open_done {q : Ring} {m : List (Nat × Byte)} (ho : r.opn = .closed) (hw : r.waiting = [])
    (h : s.ringOp n .open_ = (.done, s.ringAs n q m)) : s.ringPort n reg .open_ = (.done, s.ringAs n { q with byReg := reg } m) := by
  unfold State.ringPort
  simp [hr, he, Ring.mine, ho, hw, h, State.opened, State.ringAs_ring (ring_lt_of_en hr he), State.ringAs_setRing]

/-- An open that finds no word on a stall-policy ring, or another source's packet, waits. -/
theorem ringPort_open_waits (hw : r.waiting = []) (h : r.opn = .closed ∧ s.ringOp n .open_ = (.stalled, s) ∨ r.opn ≠ .closed ∧ r.byReg ≠ reg) :
    s.ringPort n reg .open_ = (.stalled, s.ringAs n { r with waiting := [(reg, .open_)] } s.wram) := by
  unfold State.ringPort
  rcases h with ⟨ho, h⟩ | ⟨ho, hb⟩
  · simp [hr, he, Ring.mine, ho, hw, h, putWait]
    rfl
  · simp [hr, he, Ring.mine, ho, hb, hw]
    rfl

section
variable (ho : r.opn ≠ .closed) (hb : r.byReg = reg)
include ho hb

theorem ringPort_push_done {v : Word} {s1 : State} (hw : ∀ o ∈ r.waiting.head?, o.1 ≠ reg) (h : s.ringOp n (.push v) = (.done, s1)) :
    s.ringPort n reg (.push v) = (.done, s1) := by
  unfold State.ringPort
  cases hl : r.waiting with
  | nil => simp [hr, he, Ring.mine, ho, hb, h, hl, State.opened]
  | cons o l =>
    have hfront : o.1 ≠ reg := hw o (by rw [hl]; rfl)
    simp [hr, he, Ring.mine, ho, hb, h, hl, hfront, State.opened]

theorem ringPort_push_waits {v : Word} (hw : r.waiting = []) (h : s.ringOp n (.push v) = (.stalled, s)) :
    s.ringPort n reg (.push v) = (.stalled, s.ringAs n { r with waiting := [(reg, .push v)] } s.wram) := by
  unfold State.ringPort
  simp [hr, he, Ring.mine, ho, hb, hw, h, putWait]
  rfl

theorem ringPort_close_done {ty : Nat} {q : Ring} {m : List (Nat × Byte)} (hw : r.waiting = [])
    (h : s.ringOp n (.close ty) = (.done, s.ringAs n q m)) (hq : q.waiting = []) : s.ringPort n reg (.close ty) = (.done, s.ringAs n q m) := by
  have hdrain : (s.ringAs n q m).ringDrain n = s.ringAs n q m := ringDrain_idle (by rw [State.ringAs_ring (ring_lt_of_en hr he), hq])
  unfold State.ringPort
  simp [hr, he, Ring.mine, ho, hb, hw, h, hdrain]

end

end

section
variable {s : State} {p : Port} {n : Nat} {reg : Bool} {op : RingOp} {q : Ring} {m : List (Nat × Byte)}

/-- What a producer's write comes to is what its port answers (R11, R78). -/
theorem portWrite_done (hp : writesAs p n reg) (h : s.ringPort n reg op = (.done, s.ringAs n q m)) :
    s.portWrite p n op = { s with wram := m, reply := s.told p .done, rings := s.rings.set n q } := by
  rcases hp with ⟨rfl, rfl⟩ | ⟨rfl, hg, rfl⟩
  · simp [State.portWrite, h]
    rfl
  · simp [State.portWrite, hg, h]
    rfl

theorem portWrite_waits (hp : writesAs p n reg) (h : s.ringPort n reg op = (.stalled, s.ringAs n q s.wram)) :
    s.portWrite p n op = { s with reply := s.told p .waiting, rings := s.rings.set n q } := by
  rcases hp with ⟨rfl, rfl⟩ | ⟨rfl, hg, rfl⟩
  · simp [State.portWrite, h]
    rfl
  · simp [State.portWrite, hg, h]
    rfl

end

section
variable (s : State) (p : Port) (ring : Fin 16) (v : Word)

theorem exec_qfOpen : exec (.qfOpen p ring) s = .next (s.portWrite p ring .open_) := rfl
theorem exec_qfPush : exec (.qfPush p ring v) s = .next (s.portWrite p ring (.push v)) := rfl
theorem exec_qfClose : exec (.qfClose p ring v) s = .next (s.portWrite p ring (.close (bits 23 16 v.toNat))) := rfl
theorem exec_qfPop_owner : exec (.qfPop .owner ring) s = .next ((s.ringPop ring).2.answer .dev (.data (s.ringPop ring).1)) := rfl
theorem exec_qfDrop : exec (.qfDrop p ring) s = .next (s.portDrop p ring) := rfl

end

/-- A read of a ring with a visible word returns it and moves the read position (R95). -/
theorem ringPop_visible {s : State} {n : Nat} {r : Ring} (hr : s.ring n = r) (he : r.en = true) (hv : r.r < r.vis) :
    s.ringPop n = (s.ringWord r r.r, s.setRing n
      { r with r := r.r + 1, staleT := s.t, staleFired := false,
               remain := if r.remain = 0 then (if bits 31 28 (s.ringWord r r.r).toNat = 13 then bits 15 0 (s.ringWord r r.r).toNat else 0) else r.remain - 1 }) := by
  unfold State.ringPop
  simp [hr, he, hv]

/-- The length word that a close writes carries the TYPE of its value (R84). -/
theorem lengthWord_of_close (cut : Bool) (v k : Nat) :
    lengthWord cut (bits 23 16 v) k = BitVec.ofNat 32 (0xD0000000 + (if cut then 2 ^ 27 else 0) + bits 23 16 v * 65536 + k % 65536) := by
  have hty : bits 23 16 v < 256 := Nat.mod_lt _ (by decide)
  unfold lengthWord flag
  rw [Nat.mod_eq_of_lt hty]

/-- Settles O6: each command by the one write or read it makes. -/
theorem ringCommandsMoveOnePacket : Obligations.RingCommandsMoveOnePacket := by
  refine ⟨fun p reg ring s r hp hr he ho hw hpend hh hf => ?_, fun p reg ring v s r pos k hp hinv hr he ho hb hw hk hf => ?_,
    fun p reg ring v s r pos k cut hp hinv hr he ho hb hw => ?_, fun ring s r hr he hv => ?_, fun ring s r hr he hrem => ?_⟩
  · have hop := ringOpen_reserves hr (wadi_none (hr ▸ hpend)) he ho hh hf
    rw [exec_qfOpen, portWrite_done hp (ringPort_open_done hr he ho hw hop)]
  · obtain ⟨-, hwf, -, -⟩ := hinv
    have hop := ringPush_stores hr v he ho (.inl rfl) hk hf
    rw [exec_qfPush, portWrite_done hp (ringPort_push_done hr he (by simp [ho]) hb hw hop)]
    exact ⟨_, rfl, ramWord_put hwf _ _, rfl, fun a ha => ramPutWord_outside hwf _ _ a ha⟩
  · obtain ⟨-, hwf, -, -⟩ := hinv
    have hop := ringClose_shows hr he ho (bits 23 16 v.toNat)
    rw [exec_qfClose, portWrite_done hp (ringPort_close_done hr he (by simp [ho]) hb hw hop hw)]
    exact ⟨_, rfl, (ramWord_put hwf _ _).trans (lengthWord_of_close cut v.toNat k), rfl, fun a ha => ramPutWord_outside hwf _ _ a ha⟩
  · have hpop := ringPop_visible hr he hv
    rw [exec_qfPop_owner, hpop]
    refine ⟨_, rfl, fun h => ?_, fun h => if_pos h⟩
    rw [if_neg (Nat.ne_of_gt h)]
    omega
  · rw [exec_qfDrop]
    show Host.Outcome.next (s.ringDropRest ring) = _
    unfold State.ringDropRest
    rw [hr, if_pos (by simp [he, hrem])]
    rfl

/-- Settles O8: nothing visible, or no ring enabled, is nothing to pop. -/
theorem emptyRingReadsIdle : Obligations.EmptyRingReadsIdle := by
  intro ring s h
  have hpop : s.ringPop ring = (0xF0000000#32, s) := by
    unfold State.ringPop
    rcases h with h | h <;> simp [h]
  rw [exec_qfPop_owner, hpop]
  rfl

/-- Settles O9, by who makes the access and which side of the ring it is made at. -/
theorem ringRegisterRights : Obligations.RingRegisterRights := by
  refine fun w ring v s => ⟨fun hw => ?_, fun hw hg => ?_, fun hw => ?_⟩
  · have hport (op : RingOp) : s.portWrite (.reg w) ring op = s.busErr w := if_pos hw
    have hdrop : s.portDrop (.reg w) ring = s.busErr w := if_pos hw
    exact ⟨congrArg _ (hport _), congrArg _ (hport _), congrArg _ (hport _), if_pos hw, congrArg _ hdrop⟩
  · subst hw
    have hport (op : RingOp) : s.portWrite (.reg .dev) ring op = s.answer .dev .done := by
      unfold State.portWrite
      simp [hg]
    exact ⟨congrArg _ (hport _), congrArg _ (hport _), congrArg _ (hport _)⟩
  · subst hw
    exact ⟨rfl, rfl⟩

/-! ### Full rings (R77 to R79, R87 to R92, R97, R98) -/

theorem exec_wadiMarkerWrite (s : State) (ring : Fin 16) : exec (.wadiMarkerWrite ring) s = .next (s.wadi ring) := rfl

/-- A marker that is due: the ring with its word, and the flag of the ring's drops. -/
theorem wadi_marks {s : State} {n : Nat} {r : Ring} (hinv : s.Inv) (hn : n < 16) (hr : s.ring n = r) (hd : ringDrops n = true) (he : r.en = true)
    (hp : 0 < r.pend) (ho : r.opn = .closed) (hf : 0 < r.freeWords) (hh : r.held = false) :
    (s.wadi n).ringWord r r.w = BitVec.ofNat 32 (0xE0000000 + min r.pend 0xFFFFFF) ∧
      (s.wadi n).ring n = { r with w := r.w + 1, vis := r.w + 1, pend := 0, dropCnt := min 0xFFFFFFFF (r.dropCnt + r.pend),
                                   staleT := if r.cnt = 0 then s.t else r.staleT } ∧
      (s.wadi n).bitOf rQfIrq (16 + n) = true ∧ SameRegs s (s.wadi n) [rQfIrq] ∧ SameRings s (s.wadi n) [n] ∧
      s.wadi n = { s with regs := (s.wadi n).regs, wram := (s.wadi n).wram, rings := (s.wadi n).rings } ∧
      ∀ a, a < r.addr r.w ∨ r.addr r.w + 3 < a → sget ramDefault (s.wadi n).wram a = sget ramDefault s.wram a := by
  obtain ⟨hregs, hwf, -, -⟩ := hinv
  have hnl := ring_lt_of_en hr he
  rw [wadi_due hr hd he hp ho hf hh, satAdd_eq_min]
  generalize hm : ramPutWord s.wram (r.addr r.w) _ = m
  generalize hq : Ring.show _ s.t = q
  refine ⟨?_, ?_, State.irq_set (s := s.ringAs n q m) hregs (by omega), fun a ha => ?_, fun k hk => ?_, ?_, fun a ha => ?_⟩
  · unfold State.ringWord
    rw [State.irq_wram, State.ringAs_wram, ← hm]
    exact ramWord_put hwf _ _
  · rw [State.ringAs_irq_ring hnl, if_pos rfl, ← hq]
    rfl
  · exact State.reg_irq_other (s := s.ringAs n q m) hregs _ (by simpa using ha)
  · rw [State.ringAs_irq_ring hnl, if_neg (by simpa using hk)]
  · conv_lhs => rw [State.irq_eq]
    rw [State.irq_wram, State.irq_rings]
    rfl
  · rw [State.irq_wram, State.ringAs_wram, ← hm]
    exact ramPutWord_outside hwf _ _ a ha

/-- Nothing captured waits for Q0: handing it on does nothing. -/
theorem evDrain_none {s : State} (h : ∀ e, s.tim.evq.getD e [] = []) (e k : Nat) : State.evDrain e k s = s := by
  cases k with
  | zero => rfl
  | succ k =>
    unfold State.evDrain
    rw [h e]

/-- A word freed on a stall-policy ring completes what waits there, and on Q0 hands on what the capture inputs hold, here nothing. -/
theorem exec_ringStallRelease {s : State} {ring : Fin 16} (hd : ringDrops ring = false) (hev : ring.val = 0 → ∀ e, (s.ringDrain ring).tim.evq.getD e [] = []) :
    exec (.ringStallRelease ring) s = .next (s.ringDrain ring) := by
  show execRingStallRelease ring s = _
  unfold execRingStallRelease
  rw [if_neg (by simp [hd])]
  dsimp only
  split
  · rename_i h0
    have hfold (l : List Nat) : l.foldl (fun a e => State.evDrain e 8 a) (s.ringDrain ring) = s.ringDrain ring := by
      induction l with
      | nil => rfl
      | cons e l ih => rw [List.foldl_cons, evDrain_none (hev h0), ih]
    rw [hfold]
  · rfl

theorem rings_any_eq_false {s : State} {f : Ring → Bool} (h : ∀ k, f (s.ring k) = false) : s.rings.any f = false := by
  rw [List.any_eq_false]
  intro x hx
  obtain ⟨k, hk, rfl⟩ := List.getElem_of_mem hx
  have := h k
  unfold State.ring at this
  rw [List.getD_eq_getElem _ _ hk] at this
  simp [this]

/-- A push that waits alone, of device code or not, completes when a word is free; device code's write ends with it. -/
theorem ringDrain_push {s : State} {n : Nat} {r q : Ring} {reg : Bool} {v : Word} {m : List (Nat × Byte)} (hr : s.ring n = r) (hn : n < s.rings.length)
    (hw : r.waiting = [(reg, .push v)]) (h : s.ringOp n (.push v) = (.done, s.ringAs n q m))
    (hothers : ∀ k, k ≠ n → ∀ o ∈ (s.ring k).waiting, o.1 = false) :
    s.ringDrain n = { s with wram := m, reply := if reg = true ∧ s.reply.dev = .waiting then { s.reply with dev := .done } else s.reply,
                             rings := s.rings.set n { q with waiting := [] } } := by
  have hring (k : Nat) : (s.ringAs n { q with waiting := [] } m).ring k = if k = n then { q with waiting := [] } else s.ring k :=
    State.ring_setRing (s := s) hn _ k
  have hnone : (s.ringAs n { q with waiting := [] } m).rings.any (fun x => x.waiting.any fun o => o.1) = false := by
    refine rings_any_eq_false fun k => ?_
    rw [hring]
    split
    · rfl
    · rename_i hk
      simpa using hothers k hk
  unfold State.ringDrain
  rw [hr, hw]
  show State.ringFeed n 1 s = _
  unfold State.ringFeed
  rw [hr]
  simp only [hw, h]
  rw [show (s.ringAs n q m).opened n reg (.push v) = s.ringAs n q m from rfl, State.ringAs_ring hn, State.ringAs_setRing]
  unfold State.ringFeed State.completed
  rw [hnone]
  by_cases hreg : reg = true ∧ s.reply.dev = .waiting
  · rw [if_pos (by show (reg && decide (s.reply.dev = .waiting) && true) = true; simpa using hreg), if_pos hreg]
    rfl
  · rw [if_neg (by show ¬ (reg && decide (s.reply.dev = .waiting) && true) = true; simpa using hreg), if_neg hreg]
    rfl

theorem exec_ringStale_fires {s : State} {ring : Fin 16} (hu : s.fld (rQfStale ring) 23 0 ≠ 0) (hc : 0 < (s.ring ring).cnt)
    (hf : (s.ring ring).staleFired = false) {s1 : State} (h1 : s1 = s.until ((s.ring ring).staleT + usU (s.fld (rQfStale ring) 23 0))) :
    exec (.ringStale ring) s =
      .next (((s1.setRing ring { s1.ring ring with staleFired := true }).irq rQfIrq ring).event 0x45 ring) := by
  subst h1
  exact if_pos ⟨hu, hc, hf⟩

theorem exec_ringStale_rests {s : State} {ring : Fin 16}
    (h : s.fld (rQfStale ring) 23 0 = 0 ∨ (s.ring ring).cnt = 0 ∨ (s.ring ring).staleFired = true) : exec (.ringStale ring) s = .next s := by
  refine if_neg fun ⟨hu, hc, hf⟩ => ?_
  rcases h with h | h | h
  · exact hu h
  · exact Nat.ne_of_gt hc h
  · rw [hf] at h
    cases h

/-- Settles O7: each write by what it finds at the ring, then the marker, the write that waited and the stale timer. -/
theorem fullRingDropsOrStalls : Obligations.FullRingDropsOrStalls := by
  refine ⟨fun p reg ring s r hp hr hd he ho hw hfull => ?_, fun p reg ring v s r hp hr he ho hb hw => ?_,
    fun p reg ring v s r pos k cut hp hr hd he ho hb hw hfull => ?_, fun p reg ring s r hp hr hd he hw h => ?_,
    fun p reg ring v s r pos k cut hp hr hd he ho hb hw hk hf => ?_, fun ring s r hinv hr hd he hpend ho hf hh => ?_,
    fun ring reg v s r pos k cut hinv hr hd hev he ho hk hf hw hothers => ?_, fun ring s s1 hinv hu hc hfired h1 => ?_,
    fun ring s h => exec_ringStale_rests h⟩
  · rw [exec_qfOpen, portWrite_done hp (ringPort_open_done hr he ho hw (ringOpen_drops hr hd he ho hfull))]
  · rw [exec_qfPush, portWrite_done hp (ringPort_push_done hr he (by simp [ho]) hb hw (ringPush_dropped hr v he ho))]
  · rw [exec_qfPush, portWrite_done hp (ringPort_push_done hr he (by simp [ho]) hb hw (ringPush_cuts hr v he ho hd hfull))]
  · rw [exec_qfOpen, portWrite_waits hp (ringPort_open_waits hr he hw (h.imp_left fun ⟨ho, hf⟩ => ⟨ho, ringOpen_waits hr hd he ho hf⟩))]
  · rw [exec_qfPush, portWrite_waits hp (ringPort_push_waits hr he (by simp [ho]) hb hw (ringPush_waits hr v he ho hd hk hf))]
  · rw [exec_wadiMarkerWrite]
    exact ⟨_, rfl, wadi_marks hinv ring.isLt hr hd he hpend ho hf hh⟩
  · obtain ⟨-, hwf, -, -⟩ := hinv
    have hdrain := ringDrain_push hr (ring_lt_of_en hr he) hw (ringPush_stores hr v he ho (.inr hd) hk hf) hothers
    rw [exec_ringStallRelease hd (fun h0 => by rw [hdrain]; exact hev h0), hdrain]
    exact ⟨_, rfl, ramWord_put hwf _ _, rfl, fun a ha => ramPutWord_outside hwf _ _ a ha⟩
  · obtain ⟨hregs, -, -, -⟩ := hinv
    rw [exec_ringStale_fires hu hc hfired h1]
    replace hregs : swf regReset (s1.setRing ring { s1.ring ring with staleFired := true }).regs = true := by
      show swf regReset s1.regs = true
      rw [h1, State.until_regs]
      exact hregs
    refine ⟨_, rfl, State.irq_set hregs (by omega), fun a ha => State.reg_irq_other hregs _ (by simpa using ha), ?_⟩
    conv_lhs => rw [State.irq_eq]
    rfl

end Sys2Proof.Machine
end

section
/-! SUPPORT. A supply entry goes through Q0 into the journal at once (R53, R654, R659). -/
namespace Sys2Proof.Machine

/-- The input a supply entry is made of, as the words of its packet carry it. -/
def State.supplyInput (s : State) (k : Kind) (payload : Bytes) : Input := { kind := k, stamp := s.dev % 2 ^ 64, payload := payload }

/-- A packet carries 64 bits of a stamp (R82). -/
theorem supplyInput_words (s : State) (k : Kind) (payload : Bytes) :
    ({ kind := k, stamp := s.dev, payload := payload } : Input).words = (s.supplyInput k payload).words := by
  have hlo : BitVec.ofNat 32 s.dev = BitVec.ofNat 32 (s.dev % 2 ^ 64) := by apply BitVec.eq_of_toNat_eq; simp
  have hhi : BitVec.ofNat 32 (s.dev / 4294967296) = BitVec.ofNat 32 (s.dev % 2 ^ 64 / 4294967296) := by
    apply BitVec.eq_of_toNat_eq
    rw [BitVec.toNat_ofNat, BitVec.toNat_ofNat]
    omega
  exact congrArg₂ (fun a b => a :: b :: _) hlo hhi

section
variable {s : State} {k : Kind} {payload : Bytes}

theorem offer_supplyInput : s.offer 0 { kind := k, stamp := s.dev, payload := payload } = s.offer 0 (s.supplyInput k payload) := by
  unfold State.offer
  rw [supplyInput_words]
  rfl

/-- The packet of a supply entry, taken from Q0 outside a hold, is journaled as the input it was made of. -/
theorem takeInput_supply {u : State} {i : Input} (hi : i = s.supplyInput k payload) (hh : u.seq.hold = none) (hk : Kind.ofCode k.code = some k)
    (hp : payload.length ≤ 2048) : u.takeInput 0 (lengthWord false (k.code % 256) i.words.length) i.words = u.journalInput i := by
  have hc : k.code % 256 = k.code := by cases k <;> rfl
  have hlt : k.code < 256 := by rw [← hc]; exact Nat.mod_lt _ (by decide)
  have hread : Input.ofWords k i.words = i := by
    subst hi
    exact Input.ofWords_words (s.supplyInput k payload) k rfl (Nat.mod_lt _ (by decide)) (by show payload.length < 4096; omega)
      (fun h => by cases h) (fun _ => rfl) (by show 0 < 8; decide) rfl
  rw [takeInput_noHold hh, hc, journalHeld_whole hlt hk (Input.words_whole i (by rw [hi]; exact hp)), hread]

/-- With nothing before it on a free Q0, a supply entry is journaled at once. -/
theorem journalSupply_passes {i : Input} (hi : i = s.supplyInput k payload) (hw : Memory.wf s.wram = true) (hl : s.rings.length = 16)
    (f : s.RingFree 0 i.words.length) (ht : s.seqTakes = true) (hu : s.tasksUsed < 32768) (hh : s.seq.hold = none)
    (hk : Kind.ofCode k.code = some k) (hp : payload.length ≤ 2048) : s.journalSupply k payload = (s.passedInput 0 i).journalInput i := by
  have hlen : i.words.length < 65536 := by rw [Input.words_length, hi]; show 4 + (payload.length + 3) / 4 < _; omega
  have h0 : 0 < s.rings.length := by omega
  obtain ⟨ho, hr, -, hvis⟩ := offer_free h0 f
  obtain ⟨hp1, -, hpl, hpn⟩ := passedInput_form h0 f
  have htakes : ((s.offer 0 i).seqTakes && decide ((s.offer 0 i).tasksUsed < poolSize)) = true := by
    have h : (s.offer 0 i).seqTakes = s.seqTakes ∧ (s.offer 0 i).tasksUsed = s.tasksUsed := by
      unfold State.seqTakes State.stageFull State.stageUnits State.tasksUsed
      rw [hr 12 (by decide), ho]
      exact ⟨rfl, rfl⟩
    rw [h.1, h.2, ht]
    exact decide_eq_true hu
  have htake : (s.offer 0 i).ringTake 0 = (.packet false (k.code % 256) i.words, s.passedInput 0 i) := by
    have : k = i.kind := by rw [hi]; rfl
    subst this
    exact ringTake_passed h0 hw f hlen rfl
  obtain ⟨_, _, _, _, _, _, -, -, hx, -⟩ := append_form (s.passedInput 0 i) i.kind i.cls i.src i.stamp ((s.passedInput 0 i).inputFlags i.stamp) i.payload
  have hring : ((s.passedInput 0 i).journalInput i).ring 0 = (s.passedInput 0 i).ring 0 := (hx (offer_wf h0 f hw) (by omega)).1 0 (by decide)
  have hidle : ((s.passedInput 0 i).journalInput i).ringDrain 0 = (s.passedInput 0 i).journalInput i := by
    have hjoined : (s.offer 0 i).ring 0 = (s.ring 0).passed s.t i.words.length := by
      unfold State.offer
      rw [ringPacket_free h0 _ _ f]
      exact ring_of_set h0 _
    refine ringDrain_idle ?_
    rw [hring, hpn, hjoined]
    rfl
  unfold State.journalSupply
  rw [offer_supplyInput, ← hi]
  dsimp only
  rw [State.drainQ0, if_pos htakes, htake]
  dsimp only
  rw [takeInput_supply hi (by rw [hp1]; exact hh) hk hp, hidle]
  generalize ((s.offer 0 i).ring 0).w - ((s.offer 0 i).ring 0).r = m
  cases m with
  | zero => rfl
  | succ m =>
    rw [State.drainQ0]
    split
    · rw [ringTake_empty (by rw [hring, hpn]; simp only [hvis]; omega)]
    · rfl

/-- What a supply entry changes: the journal and the dispatcher get the entry, its packet goes to Q12 and, on a triad's driver, over the chain. -/
theorem journalSupply_form (hinv : s.Inv) (f : s.RingFree 0 (4 + (payload.length + 3) / 4)) (ht : s.seqTakes = true) (hu : s.tasksUsed < 32768) (hh : s.seq.hold = none) (hk : Kind.ofCode k.code = some k) (hp : payload.length ≤ 2048) :
    ∃ e q c rings w sef em rp, s.journalSupply k payload =
        { s with seq := q, erg := { s.erg with toDispatch := s.erg.toDispatch ++ [e] }, ctx := c, rings := rings, wram := w, sef := sef, emitted := em, reply := rp } ∧
      q = { s.seq with journal := s.seq.journal ++ [e], nextJsn := s.seq.nextJsn + 1, lastDur := q.lastDur, stallFired := q.stallFired, lastCkpt := q.lastCkpt } ∧
      e.kind = k ∧ e.jsn = s.seq.nextJsn ∧ e.stamp = s.dev % 2 ^ 64 ∧ e.payload = payload := by
  obtain ⟨-, hw, -, hl⟩ := hinv
  obtain ⟨i, hi⟩ : ∃ i, i = s.supplyInput k payload := ⟨_, rfl⟩
  have hwords : i.words.length = 4 + (payload.length + 3) / 4 := by rw [Input.words_length, hi]; rfl
  rw [← hwords] at f
  rw [journalSupply_passes hi hw hl f ht hu hh hk hp]
  obtain ⟨hp1, -, -, -⟩ := passedInput_form (by omega) f
  obtain ⟨u, r1, w1, hu1, hpass⟩ : ∃ u r1 w1, u = { s with rings := r1, wram := w1 } ∧ s.passedInput 0 i = u := ⟨_, _, _, hp1, rfl⟩
  rw [hpass]
  obtain ⟨r, w, se, em, rp, q, h, hq, -, -⟩ := append_form u i.kind i.cls i.src i.stamp (u.inputFlags i.stamp) i.payload
  have hj : u.journalInput i = _ := h
  subst hu1
  exact ⟨_, q, _, r, w, se, em, rp, hj, hq, by rw [hi]; rfl, rfl, by rw [hi]; rfl, by rw [hi]; rfl⟩

end

end Sys2Proof.Machine
end

section
/-! SUPPORT. The steps of the supply-warning sequence, and what ends it (R92, R652 to R659). -/
namespace Sys2Proof.Machine

/-! ### A bit that hardware writes -/

theorem bit_eq_testBit (k v : Nat) : bit k v = v.testBit k := by
  rw [Nat.testBit_eq_decide_div_mod_eq]
  unfold bit
  by_cases h : v / 2 ^ k % 2 = 1 <;> simp [h]

/-- Writing bit `k` changes that bit alone. -/
theorem bit_setBits (k n v : Nat) (b : Bool) : bit n (setBits k k v (if b then 1 else 0)) = if n = k then b else bit n v := by
  have hp : 0 < 2 ^ k := Nat.two_pow_pos k
  have hparts : setBits k k v (if b then 1 else 0) = 2 ^ k * (2 * (v / 2 ^ k / 2) + if b then 1 else 0) + v % 2 ^ k := by
    have hq := Nat.div_add_mod (v / 2 ^ k) 2
    have hv : v = v / 2 ^ k % 2 * 2 ^ k + (2 ^ k * (2 * (v / 2 ^ k / 2)) + v % 2 ^ k) := by
      conv_lhs => rw [← Nat.div_add_mod v (2 ^ k), ← hq]
      ring
    have hx : (if b then 1 else 0) % 2 = if b then 1 else 0 := by cases b <;> rfl
    unfold setBits bits
    rw [show k + 1 - k = 1 by omega, Nat.pow_one, hx]
    calc v - v / 2 ^ k % 2 * 2 ^ k + (if b then 1 else 0) * 2 ^ k
      _ = 2 ^ k * (2 * (v / 2 ^ k / 2)) + v % 2 ^ k + (if b then 1 else 0) * 2 ^ k := by
        rw [Nat.sub_eq_of_eq_add (hv.trans (Nat.add_comm _ _))]
      _ = _ := by ring
  rw [bit_eq_testBit, bit_eq_testBit, hparts, Nat.testBit_two_pow_mul_add _ (Nat.mod_lt _ hp)]
  rcases Nat.lt_trichotomy n k with h | h | h
  · rw [if_pos h, if_neg (Nat.ne_of_lt h), Nat.testBit_mod_two_pow]
    simp [h]
  · subst h
    rw [if_neg (Nat.lt_irrefl _), if_pos rfl, Nat.sub_self]
    cases b <;> simp
  · obtain ⟨m, rfl⟩ : ∃ m, n = k + 1 + m := ⟨n - k - 1, by omega⟩
    rw [if_neg (by omega), if_neg (show ¬ k + 1 + m = k by omega), show k + 1 + m - k = m + 1 by omega, Nat.testBit_succ]
    have hhalf : (2 * (v / 2 ^ k / 2) + if b then 1 else 0) / 2 = v / 2 ^ (k + 1) := by
      rw [Nat.pow_succ, ← Nat.div_div_eq_div_mul]
      cases b
      · simp
      · simp only [if_true]
        omega
    rw [hhalf, Nat.testBit_div_two_pow, Nat.add_comm m]

theorem State.bitOf_setBit {s : State} (h : swf regReset s.regs = true) (a k n : Nat) (b : Bool) (hn : n < 32) :
    (s.setBit a k b).bitOf a n = if n = k then b else s.bitOf a n := by
  unfold State.bitOf State.setBit
  rw [State.reg_setReg h, if_pos rfl, bit_eq_testBit, Nat.testBit_mod_two_pow, ← bit_eq_testBit, bit_setBits]
  simp [hn]

/-! ### The rings that a warning holds (R92) -/

/-- An ingress ring that a warning holds, if it is enabled. -/
def State.holdRing (s : State) (n : Nat) : State := if (s.ring n).en then s.setRing n { s.ring n with held := true } else s

theorem holdRing_ring (s : State) (n m : Nat) :
    (s.holdRing n).ring m = if m = n && (s.ring m).en then { s.ring m with held := true } else s.ring m := by
  unfold State.holdRing
  split
  · rename_i he
    rw [State.ring_setRing (ring_lt_of_en rfl he)]
    by_cases h : m = n
    · subst h
      simp [he]
    · simp [h]
  · rename_i he
    by_cases h : m = n
    · subst h
      simp [he]
    · simp [h]

theorem holdRings_ring (l : List Nat) (s : State) (m : Nat) :
    (l.foldl State.holdRing s).ring m = if l.contains m && (s.ring m).en then { s.ring m with held := true } else s.ring m := by
  induction l generalizing s with
  | nil => rfl
  | cons n l ih =>
    rw [List.foldl_cons, ih, holdRing_ring, List.contains_cons]
    cases he : (s.ring m).en
    · simp [he]
    · by_cases hm : m = n <;> simp [hm, he]

theorem holdRings_form (l : List Nat) (s : State) : ∃ rs, l.foldl State.holdRing s = { s with rings := rs } := by
  induction l generalizing s with
  | nil => exact ⟨s.rings, rfl⟩
  | cons n l ih =>
    obtain ⟨r1, h1⟩ : ∃ rs, s.holdRing n = { s with rings := rs } := by
      unfold State.holdRing
      split
      · exact ⟨_, rfl⟩
      · exact ⟨s.rings, rfl⟩
    obtain ⟨rs, h⟩ := ih (s.holdRing n)
    rw [h1] at h
    exact ⟨rs, by rw [List.foldl_cons, h1, h]⟩

/-! ### The sequence (R652 to R657) -/

/-- The unit once a warning has begun the sequence: the warning's flags, and when and by what it came. -/
def State.khamBegin (s : State) (pfail : Bool) : State :=
  { s with pow := { s.pow with warn := true, pfail := s.pow.pfail || pfail, kham := some { from_ := s.t, pfail := pfail } } }

section
variable {s : State} {dt : Nat} {pfail : Bool}

theorem exec_supplyWarning_again {steps : Fin 7} (h : s.pow.kham ≠ none ∨ s.bitOf rJsqCtl 0 = false) :
    exec (.supplyWarning dt pfail steps) s =
      .next { s.advance dt with pow := { (s.advance dt).pow with warn := true, pfail := s.pow.pfail || pfail } } := by
  refine if_pos ?_
  show (s.pow.kham.isSome || !s.bitOf rJsqCtl 0) = true
  rcases h with h | h
  · rw [Option.isSome_iff_ne_none.mpr h, Bool.true_or]
  · rw [h, Bool.not_false, Bool.or_true]

section
variable (hk : s.pow.kham = none) (hr : s.bitOf rJsqCtl 0 = true)
include hk hr

theorem exec_supplyWarning_first (steps : Fin 7) :
    exec (.supplyWarning dt pfail steps) s =
      .next ((List.range steps.val).foldl (fun a n => a.khamStep pfail (n + 1)) ((s.advance dt).khamBegin pfail)) := by
  refine if_neg ?_
  show ¬ (s.pow.kham.isSome || !s.bitOf rJsqCtl 0) = true
  simp [hk, hr]

/-- One step more of the sequence follows from the state that one step fewer leaves. -/
theorem exec_supplyWarning_next {m n : Fin 7} (h : n.val = m.val + 1) {u : State} (hu : exec (.supplyWarning dt pfail m) s = .next u) :
    exec (.supplyWarning dt pfail n) s = .next (u.khamStep pfail n.val) := by
  rw [exec_supplyWarning_first hk hr] at hu ⊢
  rw [h, List.range_succ, List.foldl_append, Host.Outcome.next.inj hu]
  rfl

end

/-! ### Steps 1 and 2 -/

/-- What step 1 sets beside the rings: KHAMSIN, the end of power-line transmission and SYS_IRQ.WARN. -/
def State.khamSet (s : State) : State :=
  ({ s with seq := { s.seq with khamsin := true }, med := { s.med with khamsin := s.med.run },
            plc := { s.plc with phases := s.plc.phases.map fun p => { p with txEnd := min p.txEnd p.count, sending := [] } } } : State).irq rSysIrq 0

theorem khamHold_eq (s : State) : s.khamHold = (heldRings.foldl State.holdRing s).khamSet := by
  unfold State.khamHold
  generalize hs : heldRings.foldl _ s = s1
  rw [show heldRings.foldl State.holdRing s = s1 from hs]
  rfl

/-- The unit after step 1 of a sequence that a warning has just begun, with the rings that the step leaves. -/
def State.khamHeld (s : State) (pfail : Bool) (rs : List Ring) : State :=
  { s with rings := rs, seq := { s.seq with khamsin := true }, med := { s.med with khamsin := s.med.run },
           plc := { s.plc with phases := s.plc.phases.map fun p => { p with txEnd := min p.txEnd p.count, sending := [] } },
           pow := { s.pow with warn := true, pfail := s.pow.pfail || pfail, kham := some { from_ := s.t, pfail := pfail, step := 1 } } }

theorem setKham_irq (s : State) (a k : Nat) (f : Khamsin → Khamsin) : (s.irq a k).setKham f = (s.setKham f).irq a k := by
  have hb : (s.setKham f).bitOf a k = s.bitOf a k := rfl
  unfold State.irq
  rw [hb]
  split <;> rfl

theorem khamStep_one (s : State) (pfail : Bool) : ∃ rs : List Ring,
    (∀ n, rs.getD n {} = if heldRings.contains n && (s.ring n).en then { s.ring n with held := true } else s.ring n) ∧
    (s.khamBegin pfail).khamStep pfail 1 = (s.khamHeld pfail rs).irq rSysIrq 0 := by
  obtain ⟨rs, h⟩ := holdRings_form heldRings (s.khamBegin pfail)
  refine ⟨rs, fun n => ?_, ?_⟩
  · have hring := holdRings_ring heldRings (s.khamBegin pfail) n
    rw [h] at hring
    exact hring
  · show (s.khamBegin pfail).khamHold.setKham _ = _
    rw [khamHold_eq, h, State.khamSet, setKham_irq]
    rfl

theorem setKham_setKham (s : State) (f g : Khamsin → Khamsin) : (s.setKham f).setKham g = s.setKham fun k => g (f k) := by
  show { s with pow := { s.pow with kham := (s.pow.kham.map f).map g } } = _
  rw [Option.map_map]
  rfl

theorem stageFull_of_seqTakes (h : s.seqTakes = true) : s.stageFull = false := by
  unfold State.seqTakes at h
  simp only [Bool.and_eq_true, Bool.not_eq_true'] at h
  exact h.2

/-- The SUP_WARN just journaled is the last of the journal. -/
theorem filter_getLast_snoc {l : List Entry} {e : Entry} {f : Entry → Bool} (h : f e = true) : ((l ++ [e]).filter f).getLast? = some e := by
  rw [List.filter_append, List.filter_cons_of_pos h, List.filter_nil, List.getLast?_append]
  rfl

/-- Where nothing is staged, step 2 journals SUP_WARN at once and notes its JSN and stamp. -/
theorem khamStep_two (hinv : s.Inv) (f : s.RingFree 0 5) (ht : s.seqTakes = true) (hu : s.tasksUsed < 32768) (hh : s.seq.hold = none) :
    ∃ e q c rings w sef em rp, s.khamStep pfail 2 =
        ({ s with seq := q, erg := { s.erg with toDispatch := s.erg.toDispatch ++ [e] }, ctx := c, rings := rings, wram := w, sef := sef, emitted := em,
                  reply := rp } : State).setKham (fun k => { k with warn := some (e.jsn, e.stamp), step := 2 }) ∧
      q = { s.seq with journal := s.seq.journal ++ [e], nextJsn := s.seq.nextJsn + 1, lastDur := q.lastDur, stallFired := q.stallFired, lastCkpt := q.lastCkpt } ∧
      e.kind = .supWarn ∧ e.jsn = s.seq.nextJsn ∧ e.stamp = s.dev % 2 ^ 64 ∧ e.payload = [if pfail then 1 else 0] := by
  obtain ⟨e, q, c, rings, w, sef, em, rp, h, hq, hkind, hjsn, hstamp, hpay⟩ := journalSupply_form (k := .supWarn) (payload := [if pfail then 1 else 0])
    hinv (by rw [List.length_singleton]; exact f) ht hu hh rfl (by show 1 ≤ 2048; decide)
  refine ⟨e, q, c, rings, w, sef, em, rp, ?_, hq, hkind, hjsn, hstamp, hpay⟩
  have hlast : ((s.journalSupply .supWarn [if pfail then 1 else 0]).seq.journal.filter fun x => x.kind == .supWarn && decide (s.seq.nextJsn ≤ x.jsn)).getLast? =
      some e := by
    rw [h]
    show (q.journal.filter _).getLast? = _
    rw [hq]
    exact filter_getLast_snoc (by rw [hkind, hjsn]; simp)
  show (s.khamJournal pfail).setKham _ = _
  unfold State.khamJournal
  rw [stageFull_of_seqTakes ht]
  simp only [Bool.false_eq_true, if_false, hlast]
  rw [setKham_setKham, h]

end

/-! ### Steps 4, 5 and 6 -/

theorem setKham_some {s : State} {k : Khamsin} (h : s.pow.kham = some k) (f : Khamsin → Khamsin) :
    s.setKham f = { s with pow := { s.pow with kham := some (f k) } } := by
  unfold State.setKham State.setPow
  dsimp only
  rw [h, Option.map_some]

/-- The outage record as step 4 writes it: stamp and JSN of the warning, and ORDERLY (R655). -/
def State.outage (s : State) (st j : Nat) (orderly : Bool) : State :=
  ((((s.setReg rOasOutageLo (st % 2 ^ 32)).setReg rOasOutageHi (st / 2 ^ 32)).setReg rOasOutjsnLo (j % 2 ^ 32)).setReg rOasOutjsnHi (j / 2 ^ 32)).setBit rOasPwr 3 orderly

theorem State.outage_form (s : State) (st j : Nat) (orderly : Bool) : ∃ m, s.outage st j orderly = { s with regs := m } := by
  have hset (m : List (Nat × Word)) (a v : Nat) : ∃ m', ({ s with regs := m } : State).setReg a v = { s with regs := m' } := ⟨_, rfl⟩
  obtain ⟨m1, h1⟩ := hset s.regs rOasOutageLo (st % 2 ^ 32)
  obtain ⟨m2, h2⟩ := hset m1 rOasOutageHi (st / 2 ^ 32)
  obtain ⟨m3, h3⟩ := hset m2 rOasOutjsnLo (j % 2 ^ 32)
  obtain ⟨m4, h4⟩ := hset m3 rOasOutjsnHi (j / 2 ^ 32)
  unfold State.outage State.setBit
  rw [h1, h2, h3, h4]
  exact hset m4 rOasPwr _

section
variable {s : State} {k : Khamsin} {j st : Nat}

theorem khamRecord_locked (h : s.locked = true) : s.khamRecord = s := if_pos h

theorem khamRecord_open (h : s.locked = false) (hk : s.pow.kham = some k) (hw : k.warn = some (j, st)) :
    s.khamRecord = s.outage st j (decide (j ≤ s.seq.durable)) := by
  unfold State.khamRecord
  rw [h, if_neg (by decide), hk]
  simp only [hw]
  rfl

section
variable (hregs : swf regReset s.regs = true) (ok : Bool)
include hregs

theorem outage_reg {a : Nat} (ha : a ≠ rOasPwr) : (s.outage st j ok).reg a =
    if a = rOasOutjsnHi then j / 2 ^ 32 % 2 ^ 32 else if a = rOasOutjsnLo then j % 2 ^ 32 % 2 ^ 32
    else if a = rOasOutageHi then st / 2 ^ 32 % 2 ^ 32 else if a = rOasOutageLo then st % 2 ^ 32 % 2 ^ 32 else s.reg a := by
  have h1 := State.setReg_wf hregs rOasOutageLo (st % 2 ^ 32)
  have h2 := State.setReg_wf h1 rOasOutageHi (st / 2 ^ 32)
  have h3 := State.setReg_wf h2 rOasOutjsnLo (j % 2 ^ 32)
  have h4 := State.setReg_wf h3 rOasOutjsnHi (j / 2 ^ 32)
  unfold State.outage State.setBit
  rw [State.reg_setReg_other h4 _ ha, State.reg_setReg h3, State.reg_setReg h2, State.reg_setReg h1, State.reg_setReg hregs]

theorem outage_regs : (s.outage st j ok).reg rOasOutageLo = st % 4294967296 ∧ (s.outage st j ok).reg rOasOutageHi = st / 4294967296 % 4294967296 ∧
    (s.outage st j ok).reg rOasOutjsnLo = j % 4294967296 ∧ (s.outage st j ok).reg rOasOutjsnHi = j / 4294967296 % 4294967296 ∧
    SameRegs s (s.outage st j ok) [rOasOutageLo, rOasOutageHi, rOasOutjsnLo, rOasOutjsnHi, rOasPwr] := by
  refine ⟨?_, ?_, ?_, ?_, fun a ha => ?_⟩
  · rw [outage_reg hregs ok (by decide), if_neg (by decide), if_neg (by decide), if_neg (by decide), if_pos rfl]
    exact Nat.mod_mod _ _
  · rw [outage_reg hregs ok (by decide), if_neg (by decide), if_neg (by decide), if_pos rfl]
    rfl
  · rw [outage_reg hregs ok (by decide), if_neg (by decide), if_pos rfl]
    exact Nat.mod_mod _ _
  · rw [outage_reg hregs ok (by decide), if_pos rfl]
    rfl
  · simp only [List.mem_cons, List.not_mem_nil, or_false, not_or] at ha
    obtain ⟨h1, h2, h3, h4, h5⟩ := ha
    rw [outage_reg hregs ok h5, if_neg h4, if_neg h3, if_neg h2, if_neg h1]

theorem outage_pwr {n : Nat} (hn : n < 32) : (s.outage st j ok).bitOf rOasPwr n = if n = 3 then ok else s.bitOf rOasPwr n := by
  have h1 := State.setReg_wf hregs rOasOutageLo (st % 2 ^ 32)
  have h2 := State.setReg_wf h1 rOasOutageHi (st / 2 ^ 32)
  have h3 := State.setReg_wf h2 rOasOutjsnLo (j % 2 ^ 32)
  have h4 := State.setReg_wf h3 rOasOutjsnHi (j / 2 ^ 32)
  unfold State.outage
  rw [State.bitOf_setBit h4 _ _ _ _ hn]
  unfold State.bitOf
  rw [State.reg_setReg_other h3 _ (by decide), State.reg_setReg_other h2 _ (by decide), State.reg_setReg_other h1 _ (by decide),
    State.reg_setReg_other hregs _ (by decide)]

/-- What step 4 leaves where the bridge is open. -/
theorem khamStep_four {pfail : Bool} (h : s.locked = false) (hk : s.pow.kham = some k) (hw : k.warn = some (j, st)) :
    ∃ t : State, s.khamStep pfail 4 = t ∧ t.reg rOasOutageLo = st % 4294967296 ∧ t.reg rOasOutageHi = st / 4294967296 % 4294967296 ∧
      t.reg rOasOutjsnLo = j % 4294967296 ∧ t.reg rOasOutjsnHi = j / 4294967296 % 4294967296 ∧
      t.bitOf rOasPwr 3 = decide (j ≤ s.seq.durable) ∧ (∀ n, n ≠ 3 → n < 32 → t.bitOf rOasPwr n = s.bitOf rOasPwr n) ∧
      SameRegs s t [rOasOutageLo, rOasOutageHi, rOasOutjsnLo, rOasOutjsnHi, rOasPwr] ∧
      t = { s with regs := t.regs, pow := { s.pow with kham := some { k with step := 4 } } } := by
  obtain ⟨hlo, hhi, hjlo, hjhi, hsame⟩ := outage_regs (st := st) (j := j) hregs (decide (j ≤ s.seq.durable))
  have hpwr {n : Nat} := outage_pwr (st := st) (j := j) (n := n) hregs (decide (j ≤ s.seq.durable))
  obtain ⟨m, hm⟩ := s.outage_form st j (decide (j ≤ s.seq.durable))
  have hstep : s.khamStep pfail 4 = (s.outage st j (decide (j ≤ s.seq.durable))).setKham fun k => { k with step := 4 } := by
    show s.khamRecord.setKham _ = _
    rw [khamRecord_open h hk hw]
  rw [hstep]
  generalize s.outage st j (decide (j ≤ s.seq.durable)) = x at *
  rw [setKham_some (k := k) (by rw [hm]; exact hk)]
  exact ⟨_, rfl, hlo, hhi, hjlo, hjhi, hpwr (by decide), fun n hn hlt => (hpwr hlt).trans (if_neg hn), hsame, by rw [hm]⟩

end

end

end Sys2Proof.Machine
end

section
/-! SUPPORT. The last gasps, the end of a dip, and the statement on the supply warning (R656, R657, R659). -/
namespace Sys2Proof.Machine

/-! ### What sending a gasp leaves -/

section
variable (s : State)

theorem ringDrain_pow (n : Nat) : (s.ringDrain n).pow = s.pow := by
  have h := ringFeed_frame s n (s.ring n).waiting.length
  unfold State.ringDrain
  rw [h]

theorem q6Drain_pow (k : Nat) : (State.q6Drain k s).pow = s.pow := by
  induction k generalizing s with
  | zero => rfl
  | succ k ih =>
    rw [State.q6Drain]
    split
    · split
      · rename_i h
        have htake : (s.ringTake 6).2.pow = s.pow := by rw [ringTake_frame]
        rw [h] at htake
        rw [ih, ringDrain_pow]
        exact htake
      · rfl
    · rfl

theorem sendDgram_pow (dst : Option (Nat × Nat)) (b : Bytes) : (s.sendDgram dst b).pow = s.pow := by
  unfold State.sendDgram
  rw [q6Drain_pow, State.ringPacket_pow]

theorem u2hNext_pow : s.u2hNext.2.pow = s.pow := by
  unfold State.u2hNext
  dsimp only
  split
  · rw [State.irq_pow, State.count_pow]
  · rfl

theorem sendBatch_pow (diag : Bool) (first count session : Nat) (body : Bytes) : (s.sendBatch diag first count session body).pow = s.pow :=
  (sendDgram_pow _ _ _).trans (u2hNext_pow s)

theorem logRecord_pow (b : Bytes) : (s.logRecord b).pow = s.pow := by
  unfold State.logRecord
  dsimp only
  split
  · rfl
  · split
    · rfl
    · rw [State.irq_pow]

theorem closeFold_pow : s.closeFold.pow = s.pow := by
  unfold State.closeFold
  split
  · rfl
  · dsimp only
    split
    · rfl
    · exact logRecord_pow _ _

/-- A gasp's record moves the log, the diagnostic stream and what is sent; the supplies are as before. -/
theorem gaspRecord_pow (cls arg : Nat) (data : Bytes) : (s.gaspRecord cls arg data).pow = s.pow := by
  unfold State.gaspRecord
  dsimp only
  rw [sendBatch_pow]
  show (if s.bitOf rEvrCtl 0 = true then _ else s).pow = s.pow
  split
  · rw [logRecord_pow, closeFold_pow]
  · rfl

end

/-! ### Steps 5 and 6 -/

section
variable {s : State} {k : Khamsin} {pfail : Bool}

theorem khamStep_five_silent (hk : s.pow.kham = some k) (h : s.bitOf rSysGasp 0 = false ∨ s.netTx = false) :
    s.khamStep pfail 5 = { s with pow := { s.pow with kham := some { k with step := 5 } } } := by
  have hnet : s.khamNet = s := by
    refine if_neg ?_
    rcases h with h | h <;> simp [h]
  show s.khamNet.setKham _ = _
  rw [hnet, setKham_some hk]

theorem khamStep_five_gasps {j st : Nat} {v : State} (hk : s.pow.kham = some k) (hw : k.warn = some (j, st)) (hg : s.bitOf rSysGasp 0 = true)
    (hn : s.netTx = true) (hv : v = s.gaspRecord 0x70 (if k.pfail then 1 else 0) (le 8 j ++ le 8 s.seq.durable)) :
    s.khamStep pfail 5 = { v with pow := { v.pow with kham := some { k with net := true, step := 5 } } } := by
  have hnet : s.khamNet = v.setKham fun x => { x with net := true } := by
    unfold State.khamNet
    rw [hg, hn, if_pos (by rfl), hk]
    simp only [hw]
    rw [← hv]
  have hvk : v.pow.kham = some k := by rw [hv, gaspRecord_pow, hk]
  show s.khamNet.setKham _ = _
  rw [hnet, setKham_setKham, setKham_some hvk]

theorem khamStep_six_silent (hk : s.pow.kham = some k) (h : s.fld rSysGasp 2 1 = 0) :
    s.khamStep pfail 6 = { s with pow := { s.pow with kham := some { k with step := 6 } } } := by
  have hradio : s.khamRadio = s := by
    unfold State.khamRadio State.gaspChans
    rw [h]
    rfl
  show s.khamRadio.setKham _ = _
  rw [hradio, setKham_some hk]

end

/-! ### The rings that a dip's end releases (R92, R659) -/

/-- An ingress ring released, with the marker that is due on it. -/
def State.releaseRing (s : State) (n : Nat) : State := (s.setRing n { s.ring n with held := false }).wadi n

/-- What a marker's writing comes to: nothing, or one word of an enabled ring, which stays held as it was, and a flag. -/
theorem wadi_cases (s : State) (n : Nat) :
    s.wadi n = s ∨ n < s.rings.length ∧ ∃ q m, q.held = (s.ring n).held ∧ s.wadi n = (s.ringAs n q m).irq rQfIrq (16 + n) := by
  unfold State.wadi
  dsimp only
  split
  · rename_i h
    simp only [Bool.and_eq_true] at h
    obtain ⟨⟨⟨⟨⟨-, he⟩, -⟩, -⟩, -⟩, -⟩ := h
    refine .inr ⟨ring_lt_of_en rfl he, _, _, ?_, rfl⟩
    rfl
  · exact .inl rfl

theorem wadi_held (s : State) (n m : Nat) : ((s.wadi n).ring m).held = (s.ring m).held := by
  rcases wadi_cases s n with h | ⟨hn, q, w, hq, h⟩
  · rw [h]
  · rw [h, State.ringAs_irq_ring hn]
    split
    · rename_i hm
      rw [hq, hm]
    · rfl

theorem releaseRing_held (s : State) (n m : Nat) (h : m = n ∨ (s.ring m).held = false) : ((s.releaseRing n).ring m).held = false := by
  unfold State.releaseRing
  rw [wadi_held]
  by_cases hn : n < s.rings.length
  · rw [State.ring_setRing hn]
    split
    · rfl
    · rename_i hm
      exact h.resolve_left hm
  · have hsame : s.setRing n { s.ring n with held := false } = s := by
      unfold State.setRing
      rw [List.set_eq_of_length_le (by omega)]
    rw [hsame]
    rcases h with rfl | h
    · unfold State.ring
      rw [List.getD_eq_default _ _ (by omega)]
    · exact h

theorem releaseRings_held (l : List Nat) (s : State) (m : Nat) (h : m ∈ l ∨ (s.ring m).held = false) :
    ((l.foldl State.releaseRing s).ring m).held = false := by
  induction l generalizing s with
  | nil => exact h.resolve_left List.not_mem_nil
  | cons n l ih =>
    refine ih _ ?_
    rcases h with h | h
    · rcases List.mem_cons.mp h with rfl | h
      · exact .inr (releaseRing_held _ _ _ (.inl rfl))
      · exact .inl h
    · exact .inr (releaseRing_held _ _ _ (.inr h))

/-- Releasing a ring changes rings, their words and QF_IRQ. -/
theorem releaseRing_form (s : State) (n : Nat) : ∃ m rs w, s.releaseRing n = { s with regs := m, rings := rs, wram := w } := by
  unfold State.releaseRing
  rcases wadi_cases (s.setRing n { s.ring n with held := false }) n with h | ⟨-, q, w, -, h⟩
  · exact ⟨s.regs, _, s.wram, h⟩
  · rw [h, State.irq_eq]
    exact ⟨_, _, _, rfl⟩

theorem releaseRing_regs {s : State} (hregs : swf regReset s.regs = true) (n : Nat) :
    swf regReset (s.releaseRing n).regs = true ∧ SameRegs s (s.releaseRing n) [rQfIrq] := by
  unfold State.releaseRing
  rcases wadi_cases (s.setRing n { s.ring n with held := false }) n with h | ⟨-, q, w, -, h⟩
  · rw [h]
    exact ⟨hregs, fun _ _ => rfl⟩
  · rw [h]
    generalize hx : State.ringAs _ n q w = x
    have hxr : x.regs = s.regs := by rw [← hx]; rfl
    have hxwf : swf regReset x.regs = true := by rw [hxr]; exact hregs
    refine ⟨State.irq_wf hxwf _ _, fun a ha => (State.reg_irq_other hxwf _ (by simpa using ha)).trans (State.reg_of_regs hxr a)⟩

theorem releaseRings_form (l : List Nat) {s : State} (h : swf regReset s.regs = true) :
    (∃ m rs w, l.foldl State.releaseRing s = { s with regs := m, rings := rs, wram := w }) ∧ SameRegs s (l.foldl State.releaseRing s) [rQfIrq] := by
  induction l generalizing s with
  | nil => exact ⟨⟨s.regs, s.rings, s.wram, rfl⟩, fun _ _ => rfl⟩
  | cons n l ih =>
    obtain ⟨hwf, hone⟩ := releaseRing_regs h n
    obtain ⟨⟨m, rs, w, hl⟩, hrest⟩ := ih hwf
    obtain ⟨m1, rs1, w1, h1⟩ := releaseRing_form s n
    refine ⟨⟨m, rs, w, ?_⟩, fun a ha => (hrest a ha).trans (hone a ha)⟩
    rw [List.foldl_cons, hl, h1]

/-! ### The end of a dip (R659) -/

/-- The unit as a dip ends: the bridge unlocked and the warning gone. -/
def State.dipOver (s : State) : State := { s with locked := false, pow := { s.pow with warn := false, pfail := false } }

/-- The unit once the sequence is over: KHAMSIN cleared and the reserve renewed. -/
def State.khamOver (s : State) : State :=
  { s with seq := { s.seq with khamsin := false }, med := { s.med with khamsin := false, nand := s.med.nand.renewReserve (s.med.slcPrefix ≠ 0) },
           pow := { s.pow with kham := none } }

/-- The dip journaled and shown, `us` microseconds long. -/
def State.dipShown (s : State) (us : Nat) : State := ((s.journalSupply .supDip (le 4 us)).setReg rSysDip us).irq rSysIrq 1

section
variable {s : State} {dt : Nat}

theorem exec_dipEnd_idle (h : s.pow.phase = .off ∨ s.pow.warn = false) : exec (.dipEnd dt) s = .next (s.advance dt) := if_pos h

section
variable (hp : s.pow.phase ≠ .off) (hw : s.pow.warn = true)
include hp hw

theorem exec_dipEnd_noSequence (hk : s.pow.kham = none) : exec (.dipEnd dt) s = .next (s.advance dt).dipOver := by
  show execDipEnd dt s = _
  unfold execDipEnd
  extract_lets s1 p s2
  have hrun : ¬ (s1.pow.phase = .off ∨ s1.pow.warn = false) := not_or.mpr ⟨hp, by simp [s1, hw]⟩
  have hk1 : s1.pow.kham = none := hk
  rw [if_neg hrun, hk1]
  rfl

/-- With no gasp sent, the dip's end journals it, releases the rings and ends the sequence. -/
theorem exec_dipEnd_sequence {k : Khamsin} {us : Nat} (hk : s.pow.kham = some k) (hn : k.net = false) (hc : k.chans = [])
    (hus : us = min (((s.advance dt).t - k.from_) * 1000000 / second) (2 ^ 32 - 1)) :
    exec (.dipEnd dt) s = .next (heldRings.foldl State.releaseRing ((s.advance dt).dipOver.dipShown us)).khamOver := by
  show execDipEnd dt s = _
  unfold execDipEnd
  extract_lets s1 p s2
  have hrun : ¬ (s1.pow.phase = .off ∨ s1.pow.warn = false) := not_or.mpr ⟨hp, by simp [s1, hw]⟩
  have hk1 : s1.pow.kham = some k := hk
  rw [if_neg hrun, hk1]
  dsimp -zeta only
  extract_lets us' s3 s4 s5 s6
  have h3 : s3 = (s.advance dt).dipOver.dipShown us := by rw [hus]; rfl
  have h4 : s4 = s3 := if_neg (by simp [hn])
  have h5 : s5 = s4 := by
    show k.chans.foldl _ s4 = s4
    rw [hc]
    rfl
  have h6 : s6 = heldRings.foldl State.releaseRing s5 := rfl
  rw [h5, h4, h3] at h6
  exact congrArg (fun x : State => Host.Outcome.next x.khamOver) h6

end

/-- A dip that is journaled at once: its entry, its length in SYS_DIP, and SYS_IRQ.DIP. -/
theorem dipShown_adds {us : Nat} (hinv : s.Inv) (f : s.RingFree 0 5) (ht : s.seqTakes = true) (hu : s.tasksUsed < 32768) (hh : s.seq.hold = none)
    (hus : us < 2 ^ 32) :
    ∃ (e : Entry) (x : State), s.dipShown us = x ∧ x.seq.journal = s.seq.journal ++ [e] ∧ x.seq.nextJsn = s.seq.nextJsn + 1 ∧ e.kind = .supDip ∧ e.jsn = s.seq.nextJsn ∧
      e.stamp = s.dev % 2 ^ 64 ∧ e.payload = le 4 us ∧ swf regReset x.regs = true ∧ x.reg rSysDip = us ∧ x.bitOf rSysIrq 1 = true ∧
      x.locked = s.locked ∧ x.pow = s.pow ∧ x.med = s.med := by
  obtain ⟨e, q, c, rings, w, sef, em, rp, hj, hq, hkind, hjsn, hstamp, hpay⟩ := journalSupply_form (k := .supDip) (payload := le 4 us)
    hinv (by rw [le_length]; exact f) ht hu hh rfl (by rw [le_length]; decide)
  unfold State.dipShown
  generalize s.journalSupply .supDip (le 4 us) = y at hj
  have hregs : swf regReset y.regs = true := by rw [hj]; exact hinv.1
  have hregs1 := State.setReg_wf hregs rSysDip us
  refine ⟨e, _, rfl, ?_, ?_, hkind, hjsn, hstamp, hpay, State.irq_wf hregs1 _ _, ?_, State.irq_set hregs1 (by decide), ?_, ?_, ?_⟩
  · rw [State.irq_seq, State.setReg_seq, hj]
    exact congrArg Seq.journal hq
  · rw [State.irq_seq, State.setReg_seq, hj]
    exact congrArg Seq.nextJsn hq
  · rw [State.reg_irq_other hregs1 _ (by decide), State.reg_setReg hregs, if_pos rfl, Nat.mod_eq_of_lt hus]
  · rw [State.irq_locked, State.setReg_locked, hj]
  · rw [State.irq_pow, State.setReg_pow, hj]
  · rw [State.irq_med, State.setReg_med, hj]

/-- What a dip's end leaves where the dip is journaled at once. -/
theorem dipEnd_leaves {us : Nat} (hinv : s.Inv) (f : s.RingFree 0 5) (ht : s.seqTakes = true) (hu : s.tasksUsed < 32768) (hh : s.seq.hold = none)
    (hus : us < 2 ^ 32) :
    ∃ (t : State) (e : Entry), (heldRings.foldl State.releaseRing (s.dipOver.dipShown us)).khamOver = t ∧ t.seq.journal = s.seq.journal ++ [e] ∧
      t.seq.nextJsn = s.seq.nextJsn + 1 ∧ e.kind = .supDip ∧ e.jsn = s.seq.nextJsn ∧ e.stamp = s.dev % 2 ^ 64 ∧ e.payload = le 4 us ∧
      t.reg rSysDip = us ∧ t.bitOf rSysIrq 1 = true ∧ t.locked = false ∧ t.pow = { s.pow with warn := false, pfail := false, kham := none } ∧
      t.seq.khamsin = false ∧ t.med = { s.med with khamsin := false, nand := s.med.nand.renewReserve (s.med.slcPrefix ≠ 0) } ∧
      ∀ n ∈ heldRings, (t.ring n).held = false := by
  obtain ⟨e, x, hx, hj, hn, hkind, hjsn, hstamp, hpay, hregs, hdip, hirq, hlock, hpow, hmed⟩ := dipShown_adds (s := s.dipOver) hinv
    ⟨f.en, f.held, f.opn, f.pend, f.idle, f.empty, f.fits⟩ ht hu hh hus
  rw [hx]
  obtain ⟨⟨m, rs, w, hrel⟩, hsame⟩ := releaseRings_form heldRings hregs
  have hheld (n : Nat) (hm : n ∈ heldRings) := releaseRings_held heldRings x n (.inl hm)
  generalize heldRings.foldl State.releaseRing x = y at *
  have hirq' : y.bitOf rSysIrq 1 = true := by
    unfold State.bitOf at hirq ⊢
    rw [hsame rSysIrq (by decide)]
    exact hirq
  refine ⟨_, e, rfl, ?_, ?_, hkind, hjsn, hstamp, hpay, (hsame rSysDip (by decide)).trans hdip, hirq', ?_, ?_, rfl, ?_, hheld⟩
  all_goals unfold State.khamOver
  all_goals rw [hrel]
  · exact hj
  · exact hn
  · exact hlock
  · rw [hpow]
    rfl
  · rw [hmed]
    rfl

end

end Sys2Proof.Machine
end

section
/-! SUPPORT. The statement on the supply warning and its end (R92, R651 to R659). -/
namespace Sys2Proof.Machine

/-- An empty ring of 16 words or more is free for the five payload words of a supply entry (R82). -/
theorem ringFree_five {s : State} {n : Nat} {r : Ring} (hr : s.ring n = r) (he : r.en = true) (ho : r.opn = .closed) (hp : r.pend = 0) (hh : r.held = false)
    (hw : r.waiting = []) (hm : r.remain = 0) (hv : r.vis = r.w) (hrd : r.r = r.w) (hs : 16 ≤ r.size) : s.RingFree n 5 := by
  subst hr
  exact ⟨he, hh, ho, hp, hw, ⟨hrd, hv, hm⟩, by omega⟩

theorem ringFree_of_ring_eq {s t : State} {n k : Nat} (h : t.ring n = s.ring n) (f : s.RingFree n k) : t.RingFree n k := by
  obtain ⟨en, held, opn, pend, idle, empty, fits⟩ := f
  rw [← h] at en held opn pend idle empty fits
  exact ⟨en, held, opn, pend, idle, empty, fits⟩

section
variable {s : State} {dt : Nat} {pfail : Bool}

/-- What step 1 leaves, from the state of the warning on. -/
theorem exec_supplyWarning_one (hk : s.pow.kham = none) (hr : s.bitOf rJsqCtl 0 = true) : ∃ rs : List Ring,
    (∀ n, rs.getD n {} = if heldRings.contains n && (s.ring n).en then { s.ring n with held := true } else s.ring n) ∧
    exec (.supplyWarning dt pfail 1) s = .next (((s.advance dt).khamHeld pfail rs).irq rSysIrq 0) := by
  obtain ⟨rs, hring, hstep⟩ := khamStep_one (s.advance dt) pfail
  refine ⟨rs, hring, ?_⟩
  rw [exec_supplyWarning_first hk hr]
  exact congrArg _ hstep

theorem bitOf_of_seqTakes (h : s.seqTakes = true) : s.bitOf rJsqCtl 0 = true := by
  unfold State.seqTakes at h
  simp only [Bool.and_eq_true] at h
  obtain ⟨⟨⟨hrun, -⟩, -⟩, -⟩ := h
  exact hrun

theorem khamStep_four_locked {k : Khamsin} (h : s.locked = true) (hk : s.pow.kham = some k) :
    s.khamStep pfail 4 = { s with pow := { s.pow with kham := some { k with step := 4 } } } := by
  show s.khamRecord.setKham _ = _
  rw [khamRecord_locked h, setKham_some hk]

theorem khamHeld_ring {rs : List Ring} {n : Nat} {r : Ring} (h : rs.getD n {} = r) : ((s.khamHeld pfail rs).irq rSysIrq 0).ring n = r := by
  unfold State.ring
  rw [State.irq_rings]
  exact h

/-- Step 1 leaves the sequencer as ready to take from Q0 as it was. -/
theorem khamHeld_takes {rs : List Ring} (hinv : s.Inv) (h12 : rs.getD 12 {} = s.ring 12) (ht : s.seqTakes = true) :
    (((s.advance dt).khamHeld pfail rs).irq rSysIrq 0).seqTakes = true := by
  have hreg : (((s.advance dt).khamHeld pfail rs).irq rSysIrq 0).reg rJsqCtl = s.reg rJsqCtl :=
    State.reg_irq_other (s := (s.advance dt).khamHeld pfail rs) hinv.1 _ (by decide)
  have hring := khamHeld_ring (s := s.advance dt) (pfail := pfail) h12
  rw [← ht]
  unfold State.seqTakes State.stageFull State.stageUnits State.bitOf
  rw [hreg, hring, State.irq_seq, State.irq_med]
  rfl

/-- Step 1 holds the ingress rings, sets KHAMSIN and SYS_IRQ.WARN and ends power-line transmission. -/
theorem supplyWarning_one (hinv : s.Inv) (hk : s.pow.kham = none) (hr : s.bitOf rJsqCtl 0 = true) :
    ∃ t : State, exec (.supplyWarning dt pfail 1) s = .next t ∧
      t.pow = { s.pow with warn := true, pfail := s.pow.pfail || pfail, kham := some { from_ := (s.advance dt).t, pfail := pfail, step := 1 } } ∧
      (∀ n, t.ring n = if heldRings.contains n && (s.ring n).en then { s.ring n with held := true } else s.ring n) ∧
      t.bitOf rSysIrq 0 = true ∧ SameRegs s t [rSysIrq] ∧
      t = { s.advance dt with
              regs := t.regs, rings := t.rings, pow := t.pow, seq := { (s.advance dt).seq with khamsin := true },
              med := { (s.advance dt).med with khamsin := (s.advance dt).med.run },
              plc := { (s.advance dt).plc with phases := (s.advance dt).plc.phases.map fun p => { p with txEnd := min p.txEnd p.count, sending := [] } } } := by
  obtain ⟨hregs, -, -, -⟩ := hinv
  obtain ⟨rs, hring, hone⟩ := exec_supplyWarning_one (dt := dt) (pfail := pfail) hk hr
  rw [hone]
  refine ⟨_, rfl, State.irq_pow .., fun n => khamHeld_ring (hring n), State.irq_set (s := (s.advance dt).khamHeld pfail rs) hregs (by decide),
    fun a ha => State.reg_irq_other (s := (s.advance dt).khamHeld pfail rs) hregs _ (by simpa using ha), ?_⟩
  rw [State.irq_rings, State.irq_pow]
  conv_lhs => rw [State.irq_eq]
  rfl

/-- Step 2 journals SUP_WARN, where the sequencer takes inputs, outside a hold and with nothing on Q0. -/
theorem supplyWarning_two (hinv : s.Inv) (hk : s.pow.kham = none) (f : s.RingFree 0 5) (ht : s.seqTakes = true) (hu : s.tasksUsed < 32768)
    (hh : s.seq.hold = none) :
    ∃ (t : State) (e : Entry), exec (.supplyWarning dt pfail 2) s = .next t ∧ t.seq.journal = s.seq.journal ++ [e] ∧ t.seq.nextJsn = s.seq.nextJsn + 1 ∧
      e.kind = .supWarn ∧ e.jsn = s.seq.nextJsn ∧ e.stamp = (s.advance dt).dev % 2 ^ 64 ∧ e.payload = [if pfail then 1 else 0] ∧
      t.pow.kham = some { from_ := (s.advance dt).t, pfail := pfail, warn := some (e.jsn, e.stamp), step := 2 } ∧ t.seq.khamsin = true ∧
      t.erg.toDispatch = s.erg.toDispatch ++ [e] ∧ t.med = { s.med with khamsin := s.med.run } ∧ t.oas = (s.advance dt).oas ∧ t.obox = s.obox := by
  have hrun : s.bitOf rJsqCtl 0 = true := bitOf_of_seqTakes ht
  obtain ⟨rs, hring, hone⟩ := exec_supplyWarning_one (dt := dt) (pfail := pfail) hk hrun
  have hunheld (n : Nat) (hn : heldRings.contains n = false) : rs.getD n {} = s.ring n := by rw [hring, hn, Bool.false_and, if_neg (by decide)]
  have hinv1 := ((exec_keeps (Keeps.refl s)).next_keeps _ hone).inv hinv
  have ht1 := khamHeld_takes (dt := dt) (pfail := pfail) hinv (hunheld 12 rfl) ht
  have hr1 := khamHeld_ring (s := s.advance dt) (pfail := pfail) (hunheld 0 rfl)
  obtain ⟨e, q, c, rings, w, sef, em, rp, hstep, hq, hkind, hjsn, hstamp, hpay⟩ := khamStep_two (pfail := pfail) hinv1 (ringFree_of_ring_eq hr1 f) ht1
    (by unfold State.tasksUsed; rw [State.irq_erg]; exact hu) (by rw [State.irq_seq]; exact hh)
  rw [State.irq_seq] at hq hjsn
  rw [State.irq_dev] at hstamp
  rw [exec_supplyWarning_next hk hrun (by rfl) hone]
  refine ⟨_, e, congrArg _ hstep, ?_, ?_, hkind, hjsn, hstamp, hpay, ?_, ?_, ?_, ?_, ?_, ?_⟩
  · exact congrArg Seq.journal hq
  · exact congrArg Seq.nextJsn hq
  · show (State.pow _).kham.map _ = _
    rw [State.irq_pow]
    rfl
  · exact congrArg Seq.khamsin hq
  · show (State.erg _).toDispatch ++ [e] = _
    rw [State.irq_erg]
    rfl
  · exact State.irq_med ..
  · exact State.irq_oas ..
  · exact State.irq_obox ..

end

/-- Settles O57: the warning by its steps, one by one, and the dip's end by whether a sequence runs. -/
theorem supplyWarningAndDip : Obligations.SupplyWarningAndDip := by
  refine ⟨fun dt pfail steps s s1 h1 h => ?_, fun dt pfail s s1 hinv h1 hk hr => ?_,
    fun dt pfail s s1 r hinv h1 hk ht hu hh hr he ho hp hd hw hm hv hrd hs => ?_,
    fun dt j st pfail s u k hinv hk hr hu huk hkw => ⟨fun hl => ?_, fun hl => ?_⟩,
    fun dt pfail s u k hk hr => ⟨fun hu huk h => ?_, fun j st v hu huk hkw hg hn hv => ?_, fun hu huk h => ?_⟩,
    fun dt s s1 h1 => ⟨?_, fun h => ?_, fun hp hw hk => ?_,
      fun k us r hinv hp hw hk hkn hkc hus ht hu hh hr he ho hpend hd hwait hm hv hrd hs => ?_⟩⟩
  · rw [exec_supplyWarning_again h, h1]
  · subst h1
    exact supplyWarning_one hinv hk hr
  · subst h1
    exact supplyWarning_two hinv hk (ringFree_five hr he ho hp hd hw hm hv hrd hs) ht hu hh
  · rw [exec_supplyWarning_next hk hr (by rfl) hu]
    exact congrArg _ (khamStep_four_locked hl huk)
  · rw [exec_supplyWarning_next hk hr (by rfl) hu]
    have hregs : swf regReset u.regs = true := (((exec_keeps (Keeps.refl s)).next_keeps u hu).inv hinv).1
    obtain ⟨t, ht, hfacts⟩ := khamStep_four (pfail := pfail) hregs hl huk hkw
    exact ⟨t, congrArg _ ht, hfacts⟩
  · rw [exec_supplyWarning_next hk hr (by rfl) hu]
    exact congrArg _ (khamStep_five_silent huk h)
  · rw [exec_supplyWarning_next hk hr (by rfl) hu]
    exact congrArg _ (khamStep_five_gasps huk hkw hg hn hv)
  · rw [exec_supplyWarning_next hk hr (by rfl) hu]
    exact congrArg _ (khamStep_six_silent huk h)
  · rw [h1]
    rfl
  · rw [h1, exec_dipEnd_idle h]
  · rw [h1, exec_dipEnd_noSequence hp hw hk]
    rfl
  · subst h1
    rw [Nat.min_comm] at hus
    have f := ringFree_five hr he ho hpend hd hwait hm hv hrd hs
    obtain ⟨t, e, hend, hfacts⟩ := dipEnd_leaves (s := s.advance dt) hinv (ringFree_of_ring_eq (s := s) (t := s.advance dt) rfl f) ht hu hh
      (Nat.lt_of_le_of_lt (hus ▸ Nat.min_le_right ..) (by decide))
    rw [exec_dipEnd_sequence hp hw hk hkn hkc hus, hend]
    exact ⟨t, e, rfl, hfacts⟩

end Sys2Proof.Machine
end

section
/-! SUPPORT. The FIFOs of the task keys as dispatch changes them (R108, R110, R112, R113, R117). -/
namespace Sys2Proof.Machine

/-! ### Finding a key's FIFO -/

section
variable {s t : State} {k : Key}

/-- With the FIFO of one key changed, that key finds it changed and every other key finds what it found. -/
theorem keyQ_mapped {f : KeyQ → KeyQ} (ht : t.erg.keys = s.erg.keys.map fun q => if q.key == k then f q else q) (hf : ∀ q, (f q).key = q.key) (k' : Key) :
    t.keyQ k' = if k' = k then (s.keyQ k).map f else s.keyQ k' := by
  unfold State.keyQ
  rw [ht, List.find?_map]
  have hp : ((fun q : KeyQ => q.key == k') ∘ fun q => if q.key == k then f q else q) = fun q => q.key == k' := by
    funext q
    simp only [Function.comp]
    split
    · rw [hf]
    · rfl
  rw [hp]
  split
  case isTrue h =>
    subst h
    exact Option.map_congr fun q hq => if_pos (List.find?_some (p := fun q : KeyQ => q.key == k') hq)
  case isFalse h =>
    have hid : ∀ q, s.erg.keys.find? (fun q => q.key == k') = some q → (if q.key == k then f q else q) = q := fun q hq =>
      if_neg fun hk => h ((eq_of_beq (List.find?_some (p := fun q : KeyQ => q.key == k') hq)).symm.trans (eq_of_beq hk))
    cases hq : s.erg.keys.find? fun q => q.key == k' with
    | none => rfl
    | some q => exact congrArg some (hid q hq)

theorem headTask_eq (s : State) (k : Key) : s.headTask k = (s.keyQ k).bind fun q => q.tasks.head? := by
  unfold State.headTask
  cases s.keyQ k <;> rfl

theorem keyQ_setHead (x : Task) (k' : Key) : (s.setHead k x).keyQ k' = if k' = k then (s.keyQ k).map fun q => { q with tasks := x :: q.tasks.drop 1 } else s.keyQ k' :=
  keyQ_mapped (f := fun q => { q with tasks := x :: q.tasks.drop 1 }) rfl (fun _ => rfl) k'

theorem headTask_setHead {x : Task} (y : Task) (h : s.headTask k = some x) : (s.setHead k y).headTask k = some y := by
  rw [headTask_eq] at h
  obtain ⟨q, hq, -⟩ := Option.bind_eq_some_iff.1 h
  rw [headTask_eq, keyQ_setHead, if_pos rfl, hq]
  rfl

/-! ### Queueing a task -/

theorem enqueue_frame (s : State) (x : Task) : s.enqueue x = { s with erg := { s.erg with keys := (s.enqueue x).erg.keys } } := by
  unfold State.enqueue
  extract_lets
  split <;> rfl

/-- A task queued under a key with a FIFO joins its end. -/
theorem keyQ_enqueue_some {x : Task} {q : KeyQ} (h : s.keyQ x.key = some q) (k' : Key) :
    (s.enqueue x).keyQ k' = if k' = x.key then some { q with tasks := q.tasks ++ [{ x with since := s.t }] } else s.keyQ k' := by
  rw [keyQ_mapped (s := s) (k := x.key) (f := fun q => { q with tasks := q.tasks ++ [{ x with since := s.t }] })
    (by unfold State.enqueue; simp only [h]) (fun _ => rfl), h]
  rfl

/-- A task queued under a key with no FIFO begins one, of the key's home grain. -/
theorem keyQ_enqueue_none {x : Task} (h : s.keyQ x.key = none) (k' : Key) :
    (s.enqueue x).keyQ k' = if k' = x.key then some { key := x.key, owner := homeGrain x.key, tasks := [{ x with since := s.t }] } else s.keyQ k' := by
  have hk : (s.enqueue x).erg.keys = s.erg.keys ++ [{ key := x.key, owner := homeGrain x.key, tasks := [{ x with since := s.t }] }] := by
    unfold State.enqueue
    simp only [h]
  unfold State.keyQ at h ⊢
  rw [hk, List.find?_append]
  split
  case isTrue hx => rw [hx, h]; simp
  case isFalse hx =>
    have hb : (x.key == k') = false := beq_eq_false_iff_ne.2 (Ne.symm hx)
    simp [hb]

/-- Noting how full the pool is moves that note and ERG_IRQ.POOL. -/
theorem poolCheck_form (s : State) : ∃ m f, s.poolCheck = { s with regs := m, erg := { s.erg with poolFull := f } } ∧
    (swf regReset s.regs = true → SameRegs s s.poolCheck [rErgIrq]) := by
  unfold State.poolCheck
  extract_lets full _ s1
  split
  · refine ⟨(s1.irq rErgIrq 0).regs, full, State.irq_eq s1 _ _, fun hs a ha => ?_⟩
    exact State.reg_irq_other (s := s1) hs _ (by simpa using ha)
  · exact ⟨s.regs, full, rfl, fun _ a _ => rfl⟩

/-! ### Taking an entry -/

variable {e : Entry} {r : List Entry}

/-- The entry taken, before its tasks are queued. -/
def State.taken (s : State) (e : Entry) (r : List Entry) : State := { s with erg := { s.erg with toDispatch := r, dispatched := max s.erg.dispatched e.jsn } }

theorem exec_taskDispatch (hq : s.erg.toDispatch = e :: r) (hr : s.bitOf rErgCtl 0 = true) (hu : s.tasksUsed + (keysOf s.cfg e).length ≤ poolSize) :
    exec .taskDispatch s = .next (State.noteIdle s (({ s with erg := { s.erg with toDispatch := r } } : State).dispatchEntry e)) := by
  show Host.Outcome.next s.dispatchOne = _
  unfold State.dispatchOne
  rw [hq]
  simp only [hr, Bool.true_and, decide_eq_true_eq]
  rw [if_pos hu]

/-- The task of an entry under a key, when it is queued. -/
def Entry.task (e : Entry) (k : Key) : Task := { jsn := e.jsn, key := k, entry := e, work := workOf e k }

theorem dispatchEntry_one (he : e.kind ≠ .drbgDraw) (hk : keysOf s.cfg e = [k]) :
    ({ s with erg := { s.erg with toDispatch := r } } : State).dispatchEntry e = ((s.taken e r).enqueue (e.task k)).poolCheck := by
  unfold State.dispatchEntry
  simp only [if_neg he, hk]
  rfl

theorem dispatchEntry_draw {x : Task} (he : e.kind = .drbgDraw) (hk : drawKey (fld 0 4 e.payload) = some k) (hx : s.headTask k = some x) :
    ({ s with erg := { s.erg with toDispatch := r } } : State).dispatchEntry e =
      (s.taken e r).setHead k { x with draws := x.draws ++ [(e.jsn, e.payload.drop 4)], phase := .committing } := by
  have hx' : (s.taken e r).headTask k = some x := hx
  unfold State.dispatchEntry
  rw [if_pos he]
  show (s.taken e r).deliverDraw e = _
  unfold State.deliverDraw
  simp only [hk, hx']

end

/-- Settles O24: an entry with one key by whether the key has a FIFO, a draw by the task its tag names. -/
theorem dispatchQueuesUnderKey : Obligations.DispatchQueuesUnderKey := by
  refine ⟨fun s e r k hinv hq he hk hr hu => ?_, fun s e r k x hq he hk hx hr hu => ?_⟩
  · rw [exec_taskDispatch hq hr (by rw [hk]; exact hu), dispatchEntry_one he hk]
    obtain ⟨m, f, hpool, hregs⟩ := poolCheck_form ((s.taken e r).enqueue (e.task k))
    obtain ⟨d, hd⟩ := noteIdle_form s ((s.taken e r).enqueue (e.task k)).poolCheck
    have hfind : ∀ k', (State.noteIdle s ((s.taken e r).enqueue (e.task k)).poolCheck).keyQ k' = ((s.taken e r).enqueue (e.task k)).keyQ k' := by
      intro k'
      rw [hd, hpool]
      rfl
    refine ⟨_, { e.task k with since := s.t }, rfl, ?_, ?_, rfl, rfl, rfl, rfl, rfl, rfl, fun hn => ?_, fun q hs => ?_, fun k' hk' => ?_, ?_, ?_⟩
    · rw [hd, hpool, enqueue_frame]
      rfl
    · rw [hd, hpool, enqueue_frame]
      rfl
    · rw [hfind, keyQ_enqueue_none (s := s.taken e r) (x := e.task k) hn]
      exact if_pos rfl
    · rw [hfind, keyQ_enqueue_some (s := s.taken e r) (x := e.task k) hs]
      exact if_pos rfl
    · rw [hfind]
      cases hs : s.keyQ k with
      | none => exact (keyQ_enqueue_none (s := s.taken e r) (x := e.task k) hs k').trans (if_neg hk')
      | some q => exact (keyQ_enqueue_some (s := s.taken e r) (x := e.task k) hs k').trans (if_neg hk')
    · intro a ha
      have hwf : swf regReset ((s.taken e r).enqueue (e.task k)).regs = true := by rw [enqueue_frame]; exact hinv.1
      rw [hd]
      refine (hregs hwf a ha).trans ?_
      rw [enqueue_frame]
      rfl
    · rw [hd, hpool, enqueue_frame]
      rfl
  · have hkeys : keysOf s.cfg e = [] := by unfold keysOf; rw [he]
    rw [exec_taskDispatch hq hr (by rw [hkeys]; exact hu), dispatchEntry_draw he hk hx]
    obtain ⟨d, hd⟩ := noteIdle_form s ((s.taken e r).setHead k { x with draws := x.draws ++ [(e.jsn, e.payload.drop 4)], phase := .committing })
    refine ⟨_, rfl, ?_, fun k' hk' => ?_, ?_⟩
    · rw [hd]
      exact headTask_setHead (s := s.taken e r) _ hx
    · rw [hd]
      exact (keyQ_setHead (s := s.taken e r) _ k').trans (if_neg hk')
    · rw [hd]
      rfl

end Sys2Proof.Machine
end

section
/-! SUPPORT. A grain starts a task, asks for its cipher, and takes a victim's FIFO (R114, R115, R119 to R123, R128, R142). -/
namespace Sys2Proof.Machine

/-! ### The request to a cipher lane -/

/-- The rings after a packet depend on the rings before it, and on nothing else but the time. -/
theorem ringPacket_rings_congr {n : Nat} (hd : ringDrops n = false) {a b : State} (hr : a.rings = b.rings) (ht : a.t = b.t) (hn : n < a.rings.length)
    (ha : Memory.wf a.wram = true) (hb : Memory.wf b.wram = true) (ty : Nat) (ws : List Word) :
    (a.ringPacket n ty ws).rings = (b.ringPacket n ty ws).rings := by
  have hab : ∀ m, a.ring m = b.ring m := fun m => by unfold State.ring; rw [hr]
  have oa := ringPacket_only hd hn ha ty ws
  have ob := ringPacket_only hd (hr ▸ hn) hb ty ws
  have hsame : ∀ m, (a.ringPacket n ty ws).ring m = (b.ringPacket n ty ws).ring m := by
    intro m
    by_cases hm : m = n
    · rw [hm]
      exact (SameRing.packet hd ⟨hab n, ht, hn, hr ▸ hn⟩ ty ws).ring
    · rw [oa.rings m (by simpa using hm), ob.rings m (by simpa using hm), hab]
  refine List.ext_getElem (by rw [oa.len, ob.len, hr]) fun m h1 h2 => ?_
  have := hsame m
  unfold State.ring at this
  rwa [List.getD_eq_getElem _ _ h1, List.getD_eq_getElem _ _ h2] at this

theorem putWram_wf {s : State} (h : Memory.wf s.wram = true) (a : Nat) (b : Bytes) : Memory.wf (s.putWram a b).wram = true :=
  foldl_ramPut_wf _ _ _ h

/-! ### Starting a task -/

section
variable {g : Fin 64} {s : State} {k : Key} {x : Task}

/-- A started task is marked, and its key pinned. -/
def State.marked (s : State) (k : Key) (x : Task) (ph : Phase) : State :=
  { s with erg := { s.erg with keys := s.erg.keys.map fun q => if q.key == k then q.mark x.jsn ph else q } }

/-- The cipher's request of a started task. -/
def State.asked (s : State) (g : Nat) (k : Key) (x : Task) : State := match k with | .slot i => s.micRequest g i x | _ => s

theorem duneWorks_iff (d : Nat) : s.duneWorks d = true ↔ (s.dune d).pwr = .awake ∧ (s.dune d).leaving = false := by
  unfold State.duneWorks
  simp

theorem exec_taskStart (hp : (s.dune (g.val / 8)).pwr = .awake) (hl : (s.dune (g.val / 8)).leaving = false) (hr : s.bitOf rErgCtl 0 = true)
    (hn : s.nextStart g = some (k, x)) : exec (.taskStart g) s = .next (State.noteIdle s (s.startTask g.val k x)) := by
  show execTaskStart g s = _
  unfold execTaskStart
  rw [if_pos ⟨(duneWorks_iff _).2 ⟨hp, hl⟩, hr⟩, hn]

theorem startTask_plain (h : x.entry.sequenced = false ∨ x.work ≠ .entry) : s.startTask g k x = s.marked k x .committing := by
  have hc : (x.entry.sequenced && x.work == .entry && s.bitOf rCphCtl 0) = false := by
    rcases h with h | h
    · simp [h]
    · simp [h]
  unfold State.startTask
  simp only [hc]
  cases k <;> rfl

theorem startTask_cipher (h : x.entry.sequenced = true) (hw : x.work = .entry) (hc : s.bitOf rCphCtl 0 = true) :
    s.startTask g k x = (s.marked k x .waitCipher).asked g k x := by
  unfold State.startTask
  simp only [h, hw, hc]
  cases k <;> rfl

/-- The request's packet, which marking the task does not change. -/
theorem micRequest_eq (s : State) (g i : Nat) (k : Key) (x : Task) : ∃ b ws, s.micRequest g i x = (s.putWram (grainBuf g) b).ringPacket 10 2 ws ∧
    ∀ ph, (s.marked k x ph).micRequest g i x = ((s.marked k x ph).putWram (grainBuf g) b).ringPacket 10 2 ws := ⟨_, _, rfl, fun _ => rfl⟩

theorem asked_form (hw : Memory.wf s.wram = true) (hl : s.rings.length = 16) :
    (s.asked g k x).regs = s.regs ∧ SameRings s (s.asked g k x) [10] ∧
      s.asked g k x = { s with rings := (s.asked g k x).rings, wram := (s.asked g k x).wram, reply := (s.asked g k x).reply } := by
  cases k with
  | slot i =>
    obtain ⟨b, ws, hreq, -⟩ := micRequest_eq s g i (.slot i) x
    obtain ⟨hframe, hregs, hrings, -⟩ := ringPacket_only (n := 10) rfl (s := s.putWram (grainBuf g) b) (hl.symm ▸ by decide : 10 < s.rings.length)
      (putWram_wf hw _ _) 2 ws
    show (s.micRequest g i x).regs = _ ∧ SameRings s (s.micRequest g i x) _ ∧
      s.micRequest g i x = { s with rings := (s.micRequest g i x).rings, wram := (s.micRequest g i x).wram, reply := (s.micRequest g i x).reply }
    rw [hreq]
    refine ⟨hregs, hrings, ?_⟩
    unfold RingFrame at hframe
    rw [hregs] at hframe
    exact hframe
  | group i => exact ⟨rfl, fun _ _ => rfl, rfl⟩
  | sys i => exact ⟨rfl, fun _ _ => rfl, rfl⟩

/-- What marking a task moves is nothing that the request to its cipher lane reads. -/
theorem micRequest_marked (hw : Memory.wf s.wram = true) (hl : s.rings.length = 16) (ph : Phase) (i : Nat) :
    ((s.marked k x ph).micRequest g i x).rings = (s.micRequest g i x).rings := by
  obtain ⟨b, ws, hreq, hmarked⟩ := micRequest_eq s g i k x
  rw [hreq, hmarked]
  exact ringPacket_rings_congr (n := 10) (a := (s.marked k x ph).putWram (grainBuf g) b) (b := s.putWram (grainBuf g) b) rfl rfl rfl
    (hl.symm ▸ by decide : 10 < s.rings.length) (putWram_wf hw _ _) (putWram_wf hw _ _) _ _

theorem exec_taskStart_leaving (h : (s.dune (g.val / 8)).leaving = true) : exec (.taskStart g) s = .next s :=
  if_neg fun hw => Bool.noConfusion (h.symm.trans ((duneWorks_iff _).1 hw.1).2)

/-! ### Barchan moves -/

theorem exec_barchanMove {v : Nat} {q : KeyQ} (hp : (s.dune (g.val / 8)).pwr = .awake) (hl : (s.dune (g.val / 8)).leaving = false) (hr : s.bitOf rErgCtl 0 = true)
    (hi : s.grainIdle g = true) (hv : s.victim g = some v) (hq : s.stealKey v = some q) :
    exec (.barchanMove g) s = .next (State.noteIdle s
      (({ s with erg := { s.erg with keys := (s.erg.keys.filter fun x => x.key ≠ q.key) ++ [{ q with owner := g.val }] } } : State).count rErgStealcnt 1)) := by
  show execBarchanMove g s = _
  unfold execBarchanMove
  rw [if_pos ⟨(duneWorks_iff _).2 ⟨hp, hl⟩, hr, hi⟩, hv]
  simp only [hq]

theorem exec_barchanMove_leaving (h : (s.dune (g.val / 8)).leaving = true) : exec (.barchanMove g) s = .next s :=
  if_neg fun hw => Bool.noConfusion (h.symm.trans ((duneWorks_iff _).1 hw.1).2)

end

/-- Settles O25: a task by whether it needs the cipher, a move by the FIFO it takes, and a dune on its way to NAP. -/
theorem tasksStartAndMoveWhole : Obligations.TasksStartAndMoveWhole := by
  refine ⟨fun g s k x hp hl hr hn => ⟨fun h => ?_, fun h hw hc hinv => ?_⟩, fun g s v q hinv hp hl hr hi hv hq => ?_,
    fun g s h => ⟨exec_taskStart_leaving h, exec_barchanMove_leaving h⟩⟩
  · rw [exec_taskStart hp hl hr hn, startTask_plain h]
    obtain ⟨d, hd⟩ := noteIdle_form s (s.marked k x .committing)
    exact ⟨_, rfl, by rw [hd]; rfl, by rw [hd]; rfl⟩
  · obtain ⟨-, hwram, -, hlen⟩ := hinv
    rw [exec_taskStart hp hl hr hn, startTask_cipher h hw hc]
    obtain ⟨hregs, hrings, hform⟩ := asked_form (g := g) (k := k) (x := x) (s := s.marked k x .waitCipher) hwram hlen
    obtain ⟨d, hd⟩ := noteIdle_form s ((s.marked k x .waitCipher).asked g k x)
    refine ⟨_, rfl, ?_, ?_, ?_, fun i hk => ?_, ?_⟩
    · rw [hd, hform]
      rfl
    · rw [hd]
      exact hregs
    · rw [hd]
      exact hrings
    · subst hk
      rw [hd]
      exact micRequest_marked hwram hlen _ _
    · rw [hd, hform]
      rfl
  · rw [exec_barchanMove hp hl hr hi hv hq]
    generalize hm : ({ s with erg := { s.erg with keys := (s.erg.keys.filter fun x => x.key ≠ q.key) ++ [{ q with owner := g.val }] } } : State) = m
    have hregs : m.regs = s.regs := by rw [← hm]
    have hreg : ∀ a, m.reg a = s.reg a := fun a => by unfold State.reg; rw [hregs]
    have hwf : swf regReset m.regs = true := hregs ▸ hinv.1
    obtain ⟨d, hd⟩ := noteIdle_form s (m.count rErgStealcnt 1)
    rw [hd]
    refine ⟨_, rfl, ?_, ?_, fun a ha => ?_, ?_⟩
    · rw [← hm]
      rfl
    · exact (State.reg_count hwf _ _).trans (by rw [hreg])
    · exact (State.reg_count_other hwf _ (by simpa using ha)).trans (hreg a)
    · rw [← hm]
      rfl

end Sys2Proof.Machine
end

section
/-! SUPPORT. Dunes fall asleep and wake (R140, R141, R142, R647, R650). -/
namespace Sys2Proof.Machine

theorem atLeast1_eq_max (n : Nat) : atLeast1 n = max 1 n := by
  unfold atLeast1
  split <;> omega

section
variable {s : State}

theorem exec_duneNap {d : Fin 8} (hp : (s.dune d).pwr = .awake) (hi : s.duneIdle d = true) (hk : s.dunePinned d = false)
    (ha : min 8 (max 1 (s.fld rErgPwr 3 0)) < s.awakeCount) (hu : s.fld rErgPwr 23 8 ≠ 0) {s1 : State}
    (h1 : s1 = s.until ((s.dune d).idleSince + usU (s.fld rErgPwr 23 8))) :
    exec (.duneNap d) s = .next (s1.setDune d { s1.dune d with pwr := .nap, since := s1.t, leaving := false }) := by
  subst h1
  exact if_pos ⟨hp, hi, hk, by rw [atLeast1_eq_max]; exact ha, hu⟩

theorem exec_duneDeep {d : Fin 8} (hp : (s.dune d).pwr = .nap) (hd : s.fld rErgPwr 31 24 ≠ 0) (hu : s.fld rErgPwr 23 8 ≠ 0) {s1 : State}
    (h1 : s1 = s.until ((s.dune d).since + msU (s.fld rErgPwr 31 24))) :
    exec (.duneDeep d) s = .next (s1.setDune d { s1.dune d with pwr := .deep, since := s1.t }) := by
  subst h1
  exact if_pos ⟨hp, hd, hu⟩

theorem exec_duneWake {d due : Nat} (ha : s.awakeCount < s.erg.maxAwake) (hr : s.bitOf rErgCtl 0 = true) (hn : s.nextDuneWake = some (d, due)) {s2 : State}
    (h2 : s2 = (s.until (max due s.wakeFrom)).advance (usU (if (s.dune d).pwr = .nap then 2 else 30))) :
    exec .duneWake s = .next (s2.setDune d { pwr := .awake, since := s2.t, idleSince := s2.t, wakes := (s2.dune d).wakes + 1 }) := by
  show execDuneWake s = _
  unfold execDuneWake
  rw [if_pos ⟨ha, hr⟩, hn, h2]

/-- No dune wakes beyond the governor's limit. -/
theorem exec_duneWake_limit (h : s.erg.maxAwake ≤ s.awakeCount) : exec .duneWake s = .next s := if_neg fun hw => Nat.not_lt.2 h hw.1

end

/-- Settles O26: each command under its own conditions, and waking at the governor's limit. -/
theorem dunesSleepAndWake : Obligations.DunesSleepAndWake :=
  ⟨fun _ _ _ hp hi hk ha hu h1 => exec_duneNap hp hi hk ha hu h1, fun _ _ _ hp hd hu h1 => exec_duneDeep hp hd hu h1,
    fun _ _ _ _ _ ha hr hn h1 h2 => exec_duneWake ha hr hn (by rw [h2, h1]; rfl), fun _ h => exec_duneWake_limit h⟩

end Sys2Proof.Machine
end

section
/-! SUPPORT. The gate of a key reaches its oldest task: what the turn leaves when the task commits, and when it waits (R111, R126, R127, R132, R445). -/
namespace Sys2Proof.Machine

/-! ### An event among a commit's outputs (R589, R592) -/

/-- An event's record, from its class, its flags byte, its argument and what follows them. -/
def eventBytes (cls sev arg : Nat) (rest : Bytes) : Bytes := le 1 8 ++ (le 1 40 ++ (le 1 cls ++ (le 1 sev ++ (le 4 arg ++ rest))))

/-- The output that hands over an event. -/
def Com.eventOut (c : Com) (bytes : Bytes) : Output := { ojsn := c.ojsn, dep := c.dep, key := c.key, idx := c.base + c.outs.length, rtype := 8, bytes := bytes }

/-- An event without a slot or data adds one output and counts itself. -/
theorem event_form (c : Com) (cls arg : Nat) : ∃ sev rest, rest.length = 32 ∧
    c.event cls arg = { c with outs := c.outs ++ [c.eventOut (eventBytes cls sev arg rest)], eidx := c.eidx + 1 } := by
  refine ⟨1 + flag 1 c.flags.timeUnsure + flag 2 c.flags.regressed + Config.severity cls % 4 * 8 + flag 5 (!c.s.sealed),
    le 4 (c.s.cfg.sysaddr % 2 ^ 18 + c.origin % 32 * 2 ^ 18) ++ (le 4 (subjWord none c.eidx) ++ (le 8 c.stamp ++ (le 8 c.jsn ++
      c.s.tag (eventBody cls arg c.s.cfg.sysaddr c.origin (subjWord none c.eidx) c.stamp c.jsn c.flags.timeUnsure c.flags.regressed (!c.s.sealed) [])))),
    by simp [tag_length], ?_⟩
  unfold Com.event Com.sealed Com.out Com.eventOut
  dsimp only
  congr 4

section
variable {cls sev arg : Nat} {rest : Bytes}

theorem eventBytes_class : ((eventBytes cls sev arg rest).drop 2).take 1 = le 1 cls := by
  unfold eventBytes
  simp [le]

theorem eventBytes_arg : ((eventBytes cls sev arg rest).drop 4).take 4 = le 4 arg := by
  unfold eventBytes
  simp [le]

theorem eventBytes_head : (eventBytes cls sev arg rest).take 4 = le 1 8 ++ le 1 40 ++ le 1 cls ++ ((eventBytes cls sev arg rest).drop 3).take 1 := by
  unfold eventBytes
  simp [le]

/-- An event's output takes one cell. -/
theorem eventOut_cells (c : Com) (h : rest.length = 32) : (c.eventOut (eventBytes cls sev arg rest)).cells = 1 := by
  unfold Output.cells Com.eventOut eventBytes ceilDiv
  simp [h]

end

/-! ### A turn -/

section
variable {s : State} {k : Key} {x : Task} {c : Com}

/-- What a commit leaves once its outputs are handed over and its task has left its FIFO. -/
def State.committed (s : State) (k : Key) (c : Com) : State := (State.noteIdle s (c.finish.dropHead k).poolCheck).leaveDunes

theorem committed_form (s : State) (k : Key) (c : Com) : ∃ m f d, s.committed k c =
      { c.s with regs := m, erg := { c.s.erg with outq := c.s.erg.outq ++ c.outs, keys := (c.s.dropHead k).erg.keys, poolFull := f, dunes := d } } ∧
    (swf regReset c.s.regs = true → SameRegs c.s (s.committed k c) [rErgIrq]) := by
  obtain ⟨m, f, hpool, hregs⟩ := poolCheck_form (c.finish.dropHead k)
  obtain ⟨d, hidle⟩ := noteIdle_form s (c.finish.dropHead k).poolCheck
  obtain ⟨d', hleave⟩ := leaveDunes_form (State.noteIdle s (c.finish.dropHead k).poolCheck)
  unfold State.committed
  refine ⟨m, f, d', ?_, fun hs a ha => ?_⟩
  · rw [hleave, hidle, hpool]
    rfl
  · rw [hleave, hidle]
    exact hregs hs a ha

theorem scrubKey_clean (h : s.arb.flips = []) (k : Key) : s.scrubKey k = s := by
  unfold State.scrubKey State.scrub
  rw [h]
  cases k <;> rfl

section
variable (hx : s.headTask k = some x) (hp : x.phase = .committing ∨ x.phase = .waitDraw) (hs : s.scrubKey k = s) (hf : s.faulted k = false)
  (ha : s.afterIngest x = false)
include hx hp

theorem turn_eq : s.turn k = s.commitHead k := by
  unfold State.turn State.atGate
  rw [hx]
  rcases hp with h | h
  · simp [h]
  · simp [h]

include hs hf ha

/-- The gate runs the oldest task, and does as the run says. -/
theorem turn_runs (hc : c = (s.comOf x).runTask x) : s.turn k = match c.wait with
    | some (.draw _ _) => s.setHead k { x with phase := .waitDraw }
    | some _ => s.setHead k { x with phase := .committing }
    | none => if c.roomForOuts then (s.committed k c).afterCommit else s.setHead k { x with phase := .committing } := by
  rw [turn_eq hx hp]
  unfold State.commitHead State.committed
  rw [hx]
  simp only [hs, hf, ha, Bool.or_self, ← hc]
  rfl

theorem turn_commits (hc : c = (s.comOf x).runTask x) (hw : c.wait = none) (hr : c.roomForOuts = true) (hd : c.s.boot.restartDue = false) :
    s.turn k = s.committed k c := by
  obtain ⟨m, f, d, hform, -⟩ := committed_form s k c
  rw [turn_runs hx hp hs hf ha hc, hw]
  simp only [hr, if_true]
  have hboot : (s.committed k c).boot.restartDue = false := by rw [hform]; exact hd
  unfold State.afterCommit
  rw [hboot]
  rfl

end

/-- What a search finds it finds among those that pass a test, if it passes itself. -/
theorem find?_filter_of_find? {α : Type} {l : List α} {p r : α → Bool} {a : α} (h : l.find? p = some a) (hr : r a = true) : (l.filter r).find? p = some a := by
  induction l with
  | nil => cases h
  | cons y ys ih =>
    cases hy : p y with
    | true =>
      rw [List.find?_cons_of_pos hy] at h
      cases h
      rw [List.filter_cons_of_pos hr, List.find?_cons_of_pos hy]
    | false =>
      rw [List.find?_cons_of_neg (by simp [hy])] at h
      cases hry : r y with
      | true => rw [List.filter_cons_of_pos hry, List.find?_cons_of_neg (by simp [hy]), ih h]
      | false => rw [List.filter_cons_of_neg (by simp [hry]), ih h]

/-- Every other key with a task keeps its FIFO as a task leaves. -/
theorem keyQ_dropHead_other {t : State} {k' : Key} {q : KeyQ} (ht : t.erg.keys = (s.dropHead k).erg.keys) (hk : k' ≠ k) (hq : s.keyQ k' = some q)
    (hne : q.tasks ≠ []) : t.keyQ k' = some q := by
  have hm := keyQ_mapped (s := s) (k := k)
    (t := { s with erg := { s.erg with keys := s.erg.keys.map fun q =>
      if q.key == k then { q with tasks := q.tasks.drop 1, pinned := (q.tasks.drop 1).any fun t => t.phase ≠ .queued } else q } })
    (f := fun q => { q with tasks := q.tasks.drop 1, pinned := (q.tasks.drop 1).any fun t => t.phase ≠ .queued }) rfl (fun _ => rfl) k'
  rw [if_neg hk, hq] at hm
  unfold State.keyQ
  rw [ht]
  exact find?_filter_of_find? hm (by simpa using hne)

end

/-! ### The NOTE task -/

/-- A RING_LOSS or orphan entry is one event: its class and its argument. -/
def Task.noteClass (x : Task) : Nat × Nat := if x.entry.kind = .ringLoss then (0x04, fld 0 4 x.entry.payload) else (0x01, x.entry.frame.src)

theorem runTask_note {s : State} {x : Task} (hk : x.key = .sys 4) (hw : x.work = .entry) (he : x.entry.kind = .ringLoss ∨ x.entry.cls = .orphan) :
    (s.comOf x).runTask x = (s.comOf x).event x.noteClass.1 x.noteClass.2 := by
  unfold Com.runTask
  rw [hk, hw]
  show (s.comOf x).noteTask x.entry = _
  unfold Com.noteTask Task.noteClass
  by_cases h : x.entry.kind = .ringLoss
  · rw [if_pos h, h]
  · rw [if_neg h, he.resolve_left h]
    split
    · contradiction
    · rfl

/-- The commit of a RING_LOSS or orphan entry: its event joins the release queue. -/
theorem note_commits {s : State} {x : Task} (hx : s.headTask (.sys 4) = some x) (hk : x.key = .sys 4) (hp : x.phase = .committing) (hw : x.work = .entry)
    (he : x.entry.kind = .ringLoss ∨ x.entry.cls = .orphan) (ha : s.afterIngest x = false) (hcells : s.cellsUsed + 4 ≤ 65536)
    (hd : s.boot.restartDue = false) : ∃ sev rest,
      exec (.commitTurn (.sys 4)) s = .next (s.committed (.sys 4)
        { s.comOf x with outs := [(s.comOf x).eventOut (eventBytes x.noteClass.1 sev x.noteClass.2 rest)], eidx := 1 }) := by
  obtain ⟨sev, rest, hlen, hev⟩ := event_form (s.comOf x) x.noteClass.1 x.noteClass.2
  refine ⟨sev, rest, congrArg Host.Outcome.next ?_⟩
  refine turn_commits hx (.inl hp) rfl rfl ha ((runTask_note hk hw he).trans hev).symm rfl ?_ hd
  have hone := eventOut_cells (s.comOf x) (cls := x.noteClass.1) (sev := sev) (arg := x.noteClass.2) hlen
  unfold Com.roomForOuts
  simp only [List.map_cons, List.map_nil, List.foldl_cons, List.foldl_nil, hone, decide_eq_true_eq]
  show s.cellsUsed + _ ≤ _
  omega

/-- Settles O27: the turn of a NOTE task by its one event, the turn of any task by what its run waits for. -/
theorem commitTurnHandsOver : Obligations.CommitTurnHandsOver := by
  refine ⟨fun s x hx hk hp hw he hdr ha hcells hd hinv => ?_, fun k s x c hx hp hfl hf ha hc => ⟨fun hw hr hd => ?_, fun hw hr => ?_, fun tag n hw => ?_, fun hw => ?_⟩⟩
  · obtain ⟨sev, rest, hexec⟩ := note_commits hx hk hp hw he ha hcells hd
    obtain ⟨m, f, d, hform, hregs⟩ := committed_form s (.sys 4)
      { s.comOf x with outs := [(s.comOf x).eventOut (eventBytes x.noteClass.1 sev x.noteClass.2 rest)], eidx := 1 }
    refine ⟨_, (s.comOf x).eventOut (eventBytes x.noteClass.1 sev x.noteClass.2 rest), hexec, ?_, rfl, rfl, hk, ?_, rfl, rfl, fun h => ?_, fun h => ?_,
      fun k' q hk' hq hne => ?_, hregs hinv.1, ?_, ?_, ?_, ?_⟩
    · rw [hform]
      rfl
    · show (match x.work with | .child _ _ n => (n + 1) * 65536 | _ => 0) + 0 = 0
      rw [hw]
    · have hn : x.noteClass = (0x04, fld 0 4 x.entry.payload) := if_pos h
      rw [hn]
      exact ⟨eventBytes_head, eventBytes_arg⟩
    · have hn : x.noteClass = (0x01, x.entry.frame.src) := if_neg h
      rw [hn]
      exact ⟨eventBytes_class, eventBytes_arg⟩
    · exact keyQ_dropHead_other (s := s) (by rw [hform]; rfl) hk' hq hne
    all_goals rw [hform]; rfl
  · obtain ⟨m, f, d, hform, -⟩ := committed_form s k c
    refine ⟨_, congrArg Host.Outcome.next (turn_commits hx hp (scrubKey_clean hfl k) hf ha hc hw hr hd), ?_⟩
    rw [hform]
    exact ⟨rfl, rfl, rfl, rfl, rfl, rfl⟩
  all_goals
    refine congrArg Host.Outcome.next ((turn_runs hx hp (scrubKey_clean hfl k) hf ha hc).trans ?_)
  · simp [hw, hr]
  · rw [hw]
  · rcases hw with hw | hw
    · rw [hw]
    · rw [hw]

end Sys2Proof.Machine
end

section
/-! SUPPORT. Requests to the cipher lanes and engines, from the ring to the result (R115, R524, R525, R527, R530 to R535, R537). -/
namespace Sys2Proof.Machine

/-! ### Placing a request -/

section
variable {s s1 s2 : State} {cut : Bool} {op : Nat} {ws : List Word} {r : CphReq}

theorem onLane_iff : r.onLane = true ↔ 1 ≤ r.op ∧ r.op ≤ 11 ∧ r.op ≠ 8 ∧ r.op ≠ 9 ∧ r.op ≠ 10 := by
  unfold CphReq.onLane CphReq.onEcc
  simp only [Bool.and_eq_true, Bool.not_eq_true', Bool.or_eq_false_iff, decide_eq_true_eq, beq_eq_false_iff_ne, and_assoc]

theorem onEcc_iff : r.onEcc = true ↔ r.op = 9 ∨ r.op = 10 := by
  unfold CphReq.onEcc
  simp only [Bool.or_eq_true, beq_iff_eq]

theorem exec_cipherRequest (hr : s.bitOf rCphCtl 0 = true) (ht : s.ringTake 10 = (.packet cut op ws, s1)) (h2 : s2 = s1.ringDrain 10) (hq : r = { op := op, ws := ws }) :
    exec .cipherRequest s = .next (if r.onLane then s2.placeLane r else if r.onEcc then s2.placeEcc r
      else if op = 8 then s2.finishReq r 18 { status := 0, out := fit 32 (Config.sha256 (s2.wramBytes (r.word 4) (r.aadLen + r.msgLen))) }
      else s2.postResult r 5 0 0 [] 0) := by
  show execCipherRequest s = _
  unfold execCipherRequest
  rw [if_pos hr, ht, h2, hq]
  simp only [apply_ite Host.Outcome.next]

/-- The message that gives way: the most urgent number above the request's own, of a lane that suspends none. -/
structure GivesWay (x : Sec) (p : Nat) (l : List Nat) (k : Nat) (r : CphReq) (st : LaneStep) : Prop where
  run   : (x.lane k).run = some (r, st)
  susp  : (x.lane k).susp = none
  above : p < r.prio
  most  : ∀ j ∈ l, ∀ r' st', (x.lane j).run = some (r', st') → (x.lane j).susp = none → r'.prio ≤ r.prio

/-- How far the search for the lane that gives way has come. -/
def Searched (x : Sec) (p : Nat) (l : List Nat) : Option Nat → Prop
  | some k => ∃ r st, GivesWay x p l k r st
  | none => ∀ j ∈ l, ∀ r' st', (x.lane j).run = some (r', st') → (x.lane j).susp = none → r'.prio ≤ p

/-- One more lane in the search. -/
def searchStep (x : Sec) (p : Nat) (m : Option Nat) (k : Nat) : Option Nat :=
  match (x.lane k).run, (x.lane k).susp with
  | some (r, _), none =>
    if p < r.prio then (match m with
      | none => some k
      | some j => match (x.lane j).run with | some (q, _) => if q.prio < r.prio then some k else some j | none => some k) else m
  | _, _ => m

/-- A lane with nothing to give way is passed over. -/
theorem Searched.pass {x : Sec} {p k : Nat} {l : List Nat} {m : Option Nat} (h : Searched x p l m)
    (hk : ∀ r' st', (x.lane k).run = some (r', st') → (x.lane k).susp = none → r'.prio ≤ p) : Searched x p (l ++ [k]) m := by
  cases m with
  | none => exact List.forall_mem_append.2 ⟨h, List.forall_mem_singleton.2 hk⟩
  | some i =>
    obtain ⟨q, qst, hrun, hsusp, habove, hmost⟩ := h
    exact ⟨q, qst, hrun, hsusp, habove,
      List.forall_mem_append.2 ⟨hmost, List.forall_mem_singleton.2 fun r' st' hr hs => (hk r' st' hr hs).trans (Nat.le_of_lt habove)⟩⟩

theorem searched_step {x : Sec} {p : Nat} {l : List Nat} {m : Option Nat} (h : Searched x p l m) (k : Nat) : Searched x p (l ++ [k]) (searchStep x p m k) := by
  unfold searchStep
  split
  case h_2 hno => exact h.pass fun r' st' hr hs => (hno r' st' hr hs).elim
  case h_1 r st hrun hsusp =>
    have hlane : ∀ r' st', (x.lane k).run = some (r', st') → (x.lane k).susp = none → r'.prio ≤ r.prio := by
      intro r' st' h' _
      rw [hrun] at h'
      cases h'
      exact Nat.le_refl _
    split
    case isFalse hbelow => exact h.pass fun r' st' hr hs => (hlane r' st' hr hs).trans (Nat.not_lt.1 hbelow)
    case isTrue habove =>
      have hpick : (∀ j ∈ l, ∀ r' st', (x.lane j).run = some (r', st') → (x.lane j).susp = none → r'.prio ≤ r.prio) → Searched x p (l ++ [k]) (some k) :=
        fun hmost => ⟨r, st, hrun, hsusp, habove, List.forall_mem_append.2 ⟨hmost, List.forall_mem_singleton.2 hlane⟩⟩
      cases m with
      | none => exact hpick fun j hj r' st' hr hs => (h j hj r' st' hr hs).trans (Nat.le_of_lt habove)
      | some i =>
        obtain ⟨q, qst, hq, hqs, hqa, hmost⟩ := h
        dsimp only
        rw [hq]
        dsimp only
        split
        case isTrue hlt => exact hpick fun j hj r' st' hr hs => (hmost j hj r' st' hr hs).trans (Nat.le_of_lt hlt)
        case isFalse hge =>
          exact ⟨q, qst, hq, hqs, hqa,
            List.forall_mem_append.2 ⟨hmost, List.forall_mem_singleton.2 fun r' st' hr hs => (hlane r' st' hr hs).trans (Nat.not_lt.1 hge)⟩⟩

theorem suspendable_searched (x : Sec) (p : Nat) : Searched x p (List.range 16) (x.suspendable p) := by
  show Searched x p (List.range 16) ((List.range 16).foldl (searchStep x p) none)
  generalize List.range 16 = l
  induction l using List.reverseRecOn with
  | nil => exact fun j hj => nomatch hj
  | append_singleton l k ih =>
    rw [List.foldl_append]
    exact searched_step ih k

end

/-! ### Results -/

section
variable {s : State} {r : CphReq} {lane : Fin 16} {st : LaneStep}

theorem exec_unwrapComplete (hl : (s.sec.lane lane).run = some (r, st)) (hu : r.unwraps = true) (hs : st ≠ .running) :
    exec (.unwrapComplete lane) s = .next (match s.reqKey r with
      | .key _ => s.setSec fun x => { x with lanes := x.lanes.set lane.val { x.lane lane.val with run := some (r, .running) } }
      | .unwrapFail => ((s.irq rCphIrq 2).finishReq r lane.val { status := 3 }).nextOnLane lane.val
      | .noKey => (s.finishReq r lane.val { status := 4 }).nextOnLane lane.val) := by
  show execUnwrapComplete lane s = _
  unfold execUnwrapComplete
  rw [hl]
  simp only [hu, Bool.true_and, decide_eq_true hs, if_true]
  cases s.reqKey r <;> rfl

theorem exec_laneComplete {key : Nat} (hl : (s.sec.lane lane).run = some (r, .running)) (hk : s.reqKey r = .key key) :
    exec (.laneComplete lane) s = .next (((s.laneResult r key).2.finishReq r lane.val (s.laneResult r key).1).nextOnLane lane.val) := by
  show execLaneComplete lane s = _
  unfold execLaneComplete
  rw [hl]
  simp only [hk]
  rw [if_neg (by simp)]

theorem exec_eccComplete {e : Fin 2} (h : s.sec.ecc.getD e none = some r) :
    exec (.eccComplete e) s = .next (((s.eccResult r).2.finishReq r (16 + e.val) (s.eccResult r).1).nextOnEcc e.val) := by
  show execEccComplete e s = _
  unfold execEccComplete
  rw [h]

theorem laneResult_open (ho : r.op = 2) (ha : r.aadLen = 0) (key : Nat) :
    s.laneResult r key = match Config.ccmOpen key (s.reqNonce r false) [] (s.wramBytes (r.word 4) r.msgLen) with
      | some p => ({ status := 0, cnt := r.word 3, nonce := s.reqNonce r false, out := p, blocks := ccmBlocks 0 (r.msgLen - 8) }, s)
      | none => ({ status := 1, cnt := r.word 3, nonce := s.reqNonce r false, blocks := ccmBlocks 0 (r.msgLen - 8) }, (s.count rCphAuthcnt 1).irq rCphIrq 1) := by
  unfold State.laneResult
  rw [ho, ha]
  simp only [Nat.zero_add, List.take_zero, List.drop_zero] <;> rfl

theorem laneResult_exhausted (ho : r.op = 1) (hk : r.ksrc ≠ 0) (hb : bit 20 (r.word 0) = false)
    (hl : s.reg rKeySlotlim + (if bit 18 (r.word 0) then 8 else 0) < r.word 3) (key : Nat) :
    s.laneResult r key = ({ status := 2 }, (s.count rCphExhcnt 1).irq rCphIrq 0) := by
  unfold State.laneResult
  rw [ho]
  exact if_pos ⟨hl, hk, hb⟩

theorem eccResult_verify (ho : r.op = 10) {ok : Bool}
    (hok : ok = Config.ecdsaVerify ((s.wramBytes (r.word 4) 160).take 64) (((s.wramBytes (r.word 4) 160).drop 64).take 32) ((s.wramBytes (r.word 4) 160).drop 96)) :
    s.eccResult r = ({ status := if ok then 0 else 1 }, if ok then s else (s.count rCphAuthcnt 1).irq rCphIrq 1) := by
  unfold State.eccResult
  rw [if_neg (by rw [ho]; decide)]
  simp only [← hok]
  cases ok <;> rfl

theorem eccResult_sign (ho : r.op = 9) {seed : Bytes} (hk : s.sysKey.isSome = true) (hu : Config.kwUnwrap (jkek s.sys) (r.wrapped 40) = some seed) :
    s.eccResult r =
      ({ status := 0, cnt := r.word 3,
         out := fit 64 (signFrom (sigk s.sys (bits 17 0 (r.word 2)) (bits 31 16 (r.word 1))) (s.wramBytes (r.word 4) 32) seed (r.word 3) 255 0) }, s.count rCphSigcnt 1) := by
  unfold State.eccResult
  rw [if_pos ho, if_neg (by rw [← Option.not_isSome, hk]; decide), hu]

end

theorem exec_cipherResult {s s1 : State} {cut : Bool} {ty : Nat} {ws : List Word} (h : s.ringTake 11 = (.packet cut ty ws, s1)) :
    exec .cipherResult s = .next { s1 with erg := { s1.erg with keys := s1.erg.keys.map fun q =>
      { q with tasks := q.tasks.map fun x => if x.phase = .waitCipher ∧ x.jsn % 65536 = (ws.getD 0 0).toNat % 65536 then { x with phase := .committing } else x } } } := by
  have hb : bits 15 0 (ws.getD 0 0).toNat = (ws.getD 0 0).toNat % 65536 := by simp [bits]
  show execCipherResult s = _
  unfold execCipherResult
  rw [h]
  simp only [hb]

/-- Settles O29: a request by the operation and by who is idle, a result by the status it ends with. -/
theorem cipherRequestIsPlaced : Obligations.CipherRequestIsPlaced := by
  refine ⟨fun s s1 s2 cut op ws r hr ht h2 hq => ?_, fun x p k hk => ?_, fun lane s r st hl hu hs => ?_, fun lane s r key hl hk => ⟨fun ho ha => ?_, fun ho hs hb hx => ?_⟩,
    fun e s r he => ⟨fun ho ok hok => ?_, fun ho seed out hk hu hout => ?_⟩, fun s s1 cut ty ws tag h ht => by rw [exec_cipherResult h, ht]⟩
  · rw [exec_cipherRequest hr ht h2 hq]
    have hop : r.op = op := by rw [hq]
    refine ⟨fun h1 h11 h8 h9 h10 => ?_, fun h => ?_, fun h => ?_, fun h => ?_⟩
    · rw [if_pos (onLane_iff.2 (by rw [hop]; exact ⟨h1, h11, h8, h9, h10⟩))]
      unfold State.placeLane
      refine ⟨fun k hk => ?_, fun hn => ⟨fun k hk => ?_, fun hk => ?_⟩⟩
      · rw [hk]
        rfl
      · rw [hn, hk]
        rfl
      · rw [hn, hk]
        rfl
    · rw [if_neg (by rw [onLane_iff, hop]; omega), if_pos (onEcc_iff.2 (by rw [hop]; exact h))]
      unfold State.placeEcc
      refine ⟨fun k hk => ?_, fun hn => ?_⟩
      · rw [hk]
        rfl
      · rw [hn]
        rfl
    · rw [if_neg (by rw [onLane_iff, hop]; omega), if_neg (by rw [onEcc_iff, hop]; omega), if_pos h]
    · rw [if_neg (by rw [onLane_iff, hop]; omega), if_neg (by rw [onEcc_iff, hop]; omega), if_neg (by omega)]
  · have h := suspendable_searched x p
    rw [hk] at h
    obtain ⟨r, st, hrun, hsusp, habove, hmost⟩ := h
    exact ⟨r, st, hrun, hsusp, habove, fun j hj => hmost j (List.mem_range.2 hj)⟩
  · rw [exec_unwrapComplete hl hu hs]
    refine ⟨fun key h => ?_, fun h => ?_, fun h => ?_⟩
    all_goals
      rw [h]
      rfl
  · rw [exec_laneComplete hl hk, laneResult_open ho ha]
    cases Config.ccmOpen key (s.reqNonce r false) [] (s.wramBytes (r.word 4) r.msgLen) <;> rfl
  · rw [exec_laneComplete hl hk, laneResult_exhausted ho hs hb hx]
    rfl
  · rw [exec_eccComplete he, eccResult_verify ho hok]
    cases ok <;> rfl
  · rw [exec_eccComplete he, eccResult_sign ho hk hu, hout]
    rfl

end Sys2Proof.Machine
end

section
/-! SUPPORT. Fields of a register that hardware writes, and what a reset of the main domain and a record in the log leave (R14, R592 to R594, R644). -/
namespace Sys2Proof.Machine

/-! ### Fields -/

theorem testBit_bits (hi lo v i : Nat) : (bits hi lo v).testBit i = (decide (i < hi + 1 - lo) && v.testBit (i + lo)) := by
  unfold bits
  rw [Nat.testBit_mod_two_pow, Nat.testBit_div_two_pow]

/-- Writing a field changes its bits alone. -/
theorem testBit_setBits {hi lo : Nat} (h : lo ≤ hi) (v x n : Nat) :
    (setBits hi lo v x).testBit n = if lo ≤ n ∧ n ≤ hi then x.testBit (n - lo) else v.testBit n := by
  obtain ⟨w, hw⟩ : ∃ w, w = hi + 1 - lo := ⟨_, rfl⟩
  have hparts : setBits hi lo v x = 2 ^ lo * (2 ^ w * (v / 2 ^ lo / 2 ^ w) + x % 2 ^ w) + v % 2 ^ lo := by
    have hv : v = v / 2 ^ lo % 2 ^ w * 2 ^ lo + (2 ^ lo * (2 ^ w * (v / 2 ^ lo / 2 ^ w)) + v % 2 ^ lo) := by
      conv_lhs => rw [← Nat.div_add_mod v (2 ^ lo), ← Nat.div_add_mod (v / 2 ^ lo) (2 ^ w)]
      ring
    unfold setBits bits
    rw [← hw, Nat.sub_eq_of_eq_add (hv.trans (Nat.add_comm _ _))]
    ring
  rw [hparts, Nat.testBit_two_pow_mul_add _ (Nat.mod_lt _ (Nat.two_pow_pos _)), Nat.testBit_two_pow_mul_add _ (Nat.mod_lt _ (Nat.two_pow_pos _))]
  rcases Nat.lt_or_ge n lo with hn | hn
  · rw [if_pos hn, if_neg (by omega), Nat.testBit_mod_two_pow]
    simp [hn]
  · rw [if_neg (Nat.not_lt.2 hn)]
    by_cases hn2 : n ≤ hi
    · rw [if_pos (by omega), if_pos ⟨hn, hn2⟩, Nat.testBit_mod_two_pow]
      simp [show n - lo < w by omega]
    · rw [if_neg (by omega), if_neg (by omega), Nat.testBit_div_two_pow, Nat.testBit_div_two_pow]
      congr 1
      omega

section
variable {s : State} (hs : swf regReset s.regs = true)
include hs

theorem State.setFld_testBit (a : Nat) {hi lo : Nat} (h : lo ≤ hi) (v n : Nat) :
    ((s.setFld a hi lo v).reg a).testBit n = (decide (n < 32) && if lo ≤ n ∧ n ≤ hi then v.testBit (n - lo) else (s.reg a).testBit n) := by
  unfold State.setFld
  rw [State.reg_setReg hs, if_pos rfl, Nat.testBit_mod_two_pow, testBit_setBits h]

theorem State.fld_setFld_same (a : Nat) {hi lo : Nat} (h : lo ≤ hi) (h32 : hi < 32) (v : Nat) : (s.setFld a hi lo v).fld a hi lo = v % 2 ^ (hi + 1 - lo) := by
  refine Nat.eq_of_testBit_eq fun i => ?_
  unfold State.fld
  rw [testBit_bits, State.setFld_testBit hs a h, Nat.testBit_mod_two_pow]
  by_cases hi' : i < hi + 1 - lo
  · simp [hi', show i + lo < 32 by omega, show i + lo ≤ hi by omega]
  · simp [hi']

theorem State.fld_setFld_other (a : Nat) {hi lo hi' lo' : Nat} (h : lo ≤ hi) (h32 : hi' < 32) (hd : hi' < lo ∨ hi < lo') (v : Nat) :
    (s.setFld a hi lo v).fld a hi' lo' = s.fld a hi' lo' := by
  refine Nat.eq_of_testBit_eq fun i => ?_
  unfold State.fld
  rw [testBit_bits, testBit_bits, State.setFld_testBit hs a h]
  by_cases hi' : i < hi' + 1 - lo'
  · simp [hi', show i + lo' < 32 by omega, show ¬ (lo ≤ i + lo' ∧ i + lo' ≤ hi) by omega]
  · simp [hi']

theorem State.fld_setBit_other (a : Nat) {k hi lo : Nat} (h32 : hi < 32) (hd : hi < k ∨ k < lo) (b : Bool) : (s.setBit a k b).fld a hi lo = s.fld a hi lo :=
  State.fld_setFld_other hs a (Nat.le_refl k) h32 hd _

theorem State.setBit_wf (a k : Nat) (b : Bool) : swf regReset (s.setBit a k b).regs = true := State.setReg_wf hs _ _

theorem State.reg_setBit_other {a b : Nat} (k : Nat) (v : Bool) (n : b ≠ a) : (s.setBit a k v).reg b = s.reg b := State.reg_setReg_other hs _ n

end

/-! ### A reset of the main domain -/

theorem sget_filter {β : Type} (d : Nat → β) (f : Nat → Bool) (m : List (Nat × β)) (k : Nat) :
    sget d (m.filter fun p => f p.1) k = if f k then sget d m k else d k := by
  induction m with
  | nil => exact (ite_self _).symm
  | cons p r ih =>
    obtain ⟨a, b⟩ := p
    cases hf : f a with
    | true =>
      rw [List.filter_cons_of_pos (by exact hf)]
      by_cases ha : a = k
      · subst ha
        simp [sget, hf]
      · simp only [sget, if_neg ha, ih]
    | false =>
      rw [List.filter_cons_of_neg (by simp [hf]), ih]
      by_cases ha : a = k
      · subst ha
        simp [hf]
      · simp only [sget, if_neg ha]

section
variable {s : State} (hs : swf regReset s.regs = true)
include hs

/-- Registers after a reset of the main domain: the cause, the Oasis's as they were, every other at its reset value. -/
theorem mainReset_reg (ph : RunPhase) (cause a : Nat) :
    (s.mainReset ph cause).reg a = if a = rSysRstcause then cause % 2 ^ 32 else if inOas a then s.reg a else (regReset a).toNat := by
  unfold State.reg State.mainReset
  simp only
  rw [sget_sput regReset (swf_filter regReset hs _), sget_filter regReset inOas]
  by_cases ha : a = rSysRstcause
  · simp [ha]
  · rw [if_neg ha, if_neg ha]
    split <;> rfl

theorem mainReset_wf (ph : RunPhase) (cause : Nat) : swf regReset (s.mainReset ph cause).regs = true := swf_sput _ (swf_filter _ hs _) _ _

end

/-! ### Records in the log -/

/-- From `s` to `t` records were logged: only the log, the diagnostic stream and EVR_IRQ may differ. -/
structure LogOnly (s t : State) : Prop where
  frame : t = { s with evr := t.evr, net := t.net, regs := t.regs }
  wf    : swf regReset s.regs = true → swf regReset t.regs = true
  regs  : swf regReset s.regs = true → SameRegs s t [rEvrIrq]

theorem LogOnly.same {s t : State} (h : t = { s with evr := t.evr, net := t.net }) : LogOnly s t :=
  have hr : t.regs = s.regs := by rw [h]
  ⟨by rw [hr]; exact h, fun hs => hr ▸ hs, fun _ a _ => by unfold State.reg; rw [hr]⟩

theorem LogOnly.trans {a b c : State} (h : LogOnly a b) (k : LogOnly b c) : LogOnly a c := by
  refine ⟨?_, fun hs => k.wf (h.wf hs), fun hs x hx => (k.regs (h.wf hs) x hx).trans (h.regs hs x hx)⟩
  have hk := k.frame
  rw [h.frame] at hk
  exact hk

theorem LogOnly.irq (s : State) : LogOnly s (s.irq rEvrIrq 0) := by
  refine ⟨?_, fun hs => State.irq_wf hs _ _, fun hs a ha => State.reg_irq_other hs _ (by simpa using ha)⟩
  rw [State.irq_evr, State.irq_net]
  exact State.irq_eq ..

section
variable (s : State)

theorem logRecord_only (b : Bytes) : LogOnly s (s.logRecord b) := by
  unfold State.logRecord
  dsimp only
  split
  · exact .same rfl
  · split
    · exact .same rfl
    · exact LogOnly.trans (.same rfl) (LogOnly.irq _)

theorem closeFold_only : LogOnly s s.closeFold := by
  unfold State.closeFold
  split
  · exact .same rfl
  · dsimp only
    split
    · exact .same rfl
    · exact (LogOnly.trans (.same rfl) (logRecord_only _ _)).trans (.same rfl)

theorem recordEvent_only (cls : Nat) (b : Bytes) : LogOnly s (s.recordEvent cls b) := by
  have hfresh : LogOnly s ((s.closeFold.logRecord b).diagRecord 8 b) := ((closeFold_only s).trans (logRecord_only _ _)).trans (.same rfl)
  have hfold : LogOnly s (let s1 := (s.closeFold.logRecord b).diagRecord 8 b
      if s.evr.repeatS = 0 then s1
      else { s1 with evr := { s1.evr with fold := some { cls := cls, subj := fld 12 4 b % 2 ^ 18, start := s.t, last := s.t, count := 0 } } }) := by
    dsimp only
    split
    · exact hfresh
    · exact hfresh.trans (.same rfl)
  unfold State.recordEvent
  dsimp only at hfold ⊢
  split
  · split
    · exact .same rfl
    · exact hfold
  · exact hfold

theorem eventNow_only (cls arg : Nat) : LogOnly s (s.eventNow cls arg) := by
  unfold State.eventNow
  split
  · exact recordEvent_only _ _ _
  · exact .same rfl

end

end Sys2Proof.Machine
end

section
/-! SUPPORT. Resets of the main domain, clocks that lose lock, and the Oasis supply (R643, R645, R648, R651, R663 to R669). -/
namespace Sys2Proof.Machine

/-! ### Resets -/

section
variable {dt : Nat} {s s1 : State}

theorem exec_powerOn_again (h : s.pow.phase ≠ .off) : exec (.powerOn dt) s = .next (s.advance dt) := if_neg h

theorem exec_powerOn_off (h : s.pow.phase = .off) : exec (.powerOn dt) s =
    .next ((({ s.advance dt with locked := false, pow := { s.pow with phase := .rom, rails := true, warn := false, pfail := false,
                                                                      vbatAt := if s.pow.rails then s.pow.vbatAt else (s.advance dt).t } } : State).setBit
      rOasPwr 0 false).setBit rSysClk 0 true) := if_pos h

theorem exec_resetNAssert : exec (.resetNAssert dt) s = .next ((s.advance dt).mainReset .off 1) := rfl

/-- A supply that falls below V_RESET: the reset, and the Oasis on VBAT with PWRON_CTL to be held for OFF_MS. -/
def State.supplyLost (s : State) (off : Nat) : State :=
  (({ s with locked := true } : State).mainReset .off 2).setPow fun p => { p with rails := false, warn := true, pwronAt := if off = 0 then none else some (s.t + msU off) }

/-- OAS_PWR once the Oasis is on VBAT: SRC, and HOLD when PWRON_CTL is held. -/
def State.onBattery (s : State) (off : Nat) : State := if off = 0 then s.setBit rOasPwr 0 true else (s.setBit rOasPwr 0 true).setBit rOasPwr 2 true

theorem exec_supplyReset {off : Nat} (hs : swf regReset s.regs = true) (ho : off = min 10000 (s.fld rOasPwr 29 16)) :
    exec (.supplyReset dt) s = .next (((s.advance dt).supplyLost off).onBattery off) := by
  have hreg : (({ s.advance dt with locked := true } : State).mainReset .off 2).reg rOasPwr = s.reg rOasPwr := by
    rw [mainReset_reg (by exact hs), if_neg (by decide), if_pos (by decide)]
    rfl
  show execSupplyReset dt s = _
  unfold execSupplyReset
  dsimp only
  unfold State.fld at ho ⊢
  rw [hreg, ← ho]
  rfl

theorem onBattery_form (s : State) (off : Nat) : ∃ m, s.onBattery off = { s with regs := m } := by
  unfold State.onBattery
  split <;> exact ⟨_, rfl⟩

section
variable (hs : swf regReset s.regs = true) (off : Nat)
include hs

theorem onBattery_reg_other {a : Nat} (ha : a ≠ rOasPwr) : (s.onBattery off).reg a = s.reg a := by
  unfold State.onBattery
  split
  · exact State.reg_setBit_other hs _ _ ha
  · rw [State.reg_setBit_other (State.setBit_wf hs _ _ _) _ _ ha, State.reg_setBit_other hs _ _ ha]

theorem onBattery_pwr : (s.onBattery off).bitOf rOasPwr 0 = true ∧ (s.onBattery off).bitOf rOasPwr 2 = (if off = 0 then s.bitOf rOasPwr 2 else true) ∧
    (s.onBattery off).fld rOasPwr 29 16 = s.fld rOasPwr 29 16 := by
  have hw := State.setBit_wf hs rOasPwr 0 true
  unfold State.onBattery
  split
  · refine ⟨?_, ?_, State.fld_setBit_other hs _ (by decide) (by decide) _⟩
    · rw [State.bitOf_setBit hs _ _ _ _ (by decide), if_pos rfl]
    · rw [State.bitOf_setBit hs _ _ _ _ (by decide), if_neg (by decide)]
  · refine ⟨?_, ?_, ?_⟩
    · rw [State.bitOf_setBit hw _ _ _ _ (by decide), if_neg (by decide), State.bitOf_setBit hs _ _ _ _ (by decide), if_pos rfl]
    · rw [State.bitOf_setBit hw _ _ _ _ (by decide), if_pos rfl]
    · rw [State.fld_setBit_other hw _ (by decide) (by decide), State.fld_setBit_other hs _ (by decide) (by decide)]

end

end

/-! ### PWRON_CTL and the Oasis -/

section
variable {dt : Nat} {s : State}

theorem pwronFree_eq (s : State) : s.pwronFree = ({ s with pow := { s.pow with pwronAt := none } } : State).setBit rOasPwr 2 false := rfl

theorem exec_pwronHoldEnd {d : Nat} (h : s.pow.pwronAt = some d) :
    exec .pwronHoldEnd s = .next (({ s.until d with pow := { s.pow with pwronAt := none } } : State).setBit rOasPwr 2 false) := by
  show execPwronHoldEnd s = _
  unfold execPwronHoldEnd
  rw [h]
  show Host.Outcome.next ((({ s.until d with pow := { (s.until d).pow with pwronAt := none } } : State)).setBit rOasPwr 2 false) = _
  rw [State.until_pow]

theorem exec_pwronHoldEnd_none (h : s.pow.pwronAt = none) : exec .pwronHoldEnd s = .next s := by
  show execPwronHoldEnd s = _
  unfold execPwronHoldEnd
  rw [h]

theorem exec_vbatLatch (h : s.bitOf rOasPwr 0 = true) : exec (.vbatLatch dt) s = .next ((s.advance dt).setBit rOasStat 0 true).pwronFree :=
  congrArg Host.Outcome.next (if_pos h)

theorem exec_vbatLatch_vio (h : s.bitOf rOasPwr 0 = false) : exec (.vbatLatch dt) s = .next (s.advance dt) :=
  congrArg Host.Outcome.next (if_neg (by rw [show (s.advance dt).onVbat = false from h]; decide))

/-- The Oasis at its reset values. -/
def State.oasCleared (s : State) : State :=
  { s with regs := s.regs.filter (fun p => !(inOas p.1)), latch := s.latch.filter (fun p => !(inOas p.1)), oas := {} }

theorem exec_oasisReset (h : s.bitOf rOasPwr 0 = true) : exec (.oasisReset dt) s = .next (s.advance dt).oasCleared.pwronFree :=
  congrArg Host.Outcome.next (if_pos h)

theorem exec_oasisReset_vio (h : s.bitOf rOasPwr 0 = false) : exec (.oasisReset dt) s = .next (s.advance dt) :=
  congrArg Host.Outcome.next (if_neg (by rw [show (s.advance dt).onVbat = false from h]; decide))

theorem oasCleared_reg (s : State) (a : Nat) : s.oasCleared.reg a = if inOas a then (regReset a).toNat else s.reg a := by
  unfold State.reg State.oasCleared
  simp only
  rw [sget_filter regReset fun a => !(inOas a)]
  cases inOas a <;> rfl

theorem exec_vbatMeasure_off {mv : Fin 4096} (h : s.bitOf rOasPwr 0 = true) : exec (.vbatMeasure mv) s = .next s := if_pos h

/-- VBAT as it was measured. -/
def State.vbatRead (s : State) (mv : Nat) : State := ({ s with pow := { s.pow with vbatAt := s.t } } : State).setReg rOasVbat mv

theorem exec_vbatMeasure {mv : Fin 4096} (h : s.bitOf rOasPwr 0 = false) : exec (.vbatMeasure mv) s =
    .next (if mv.val < 2200 then ((((s.until (s.pow.vbatAt + 64 * second)).vbatRead mv).setBit rOasPwr 1 true).irq rSysIrq 2).event 0x72 mv.val
      else (s.until (s.pow.vbatAt + 64 * second)).vbatRead mv) := if_neg (by rw [show s.onVbat = false from h]; decide)

end

/-! ### Clocks -/

section
variable {dt : Nat} {n : Fin 4} {s : State}

/-- A clock's lock is lost: it shows, and CLK_FAULT is raised. -/
def State.unlocked (s : State) (n : Nat) : State :=
  (({ s with pow := { s.pow with locks := s.pow.locks.set n false } } : State).setBit rSysClk (5 + n) true).irq rSysIrq 4

theorem exec_pllUnlock_again (h : s.pow.locks.getD n.val false = false) : exec (.pllUnlock dt n) s = .next (s.advance dt) := if_pos h

/-- One Seif link without its clock. -/
def State.linkDown (s : State) (l : Nat) : State := if (s.link l).up then (s.setLink l fun x => { dis := x.dis }).irq rSefIrq 2 else s

/-- What a lost lock does beyond showing. -/
def State.clockLost (s : State) : Nat → State
  | 0 => (s.eventNow 0x74 0).mainReset .rom 6
  | 1 => (((s.event 0x74 1).setNet fun x => { x with ports := x.ports.map fun p => { p with up := false } }).linkDown 0).linkDown 1
  | 2 => ((s.event 0x74 2).payTrain).txStop
  | _ => s.event 0x74 3

theorem exec_pllUnlock (h : s.pow.locks.getD n.val false = true) : exec (.pllUnlock dt n) s = .next (((s.advance dt).unlocked n).clockLost n) := by
  show execPllUnlock dt n s = _
  unfold execPllUnlock
  have hl : (s.advance dt).pow.locks.getD n.val false = true := h
  simp only [hl]
  obtain ⟨n, hn⟩ := n
  match n, hn with
  | 0, _ => rfl
  | 1, _ => rfl
  | 2, _ => rfl
  | 3, _ => rfl

theorem exec_pllRelock : exec (.pllRelock dt n) s =
    .next (if s.pow.plls.getD n.val false then { s.advance dt with pow := { s.pow with locks := s.pow.locks.set n.val true } } else s.advance dt) := rfl

theorem unlocked_form (s : State) (n : Nat) : ∃ m, s.unlocked n = { s with regs := m, pow := { s.pow with locks := s.pow.locks.set n false } } :=
  ⟨_, State.irq_eq ..⟩

section
variable (hs : swf regReset s.regs = true)
include hs

theorem unlocked_wf (n : Nat) : swf regReset (s.unlocked n).regs = true := State.irq_wf (State.setBit_wf (by exact hs) _ _ _) _ _

theorem unlocked_regs (n : Nat) : SameRegs s (s.unlocked n) [rSysClk, rSysIrq] := by
  intro a ha
  obtain ⟨hclk, hirq⟩ : a ≠ rSysClk ∧ a ≠ rSysIrq := by simpa using ha
  unfold State.unlocked
  rw [State.reg_irq_other (State.setBit_wf (by exact hs) _ _ _) _ hirq, State.reg_setBit_other (by exact hs) _ _ hclk]
  rfl

theorem unlocked_shows {n : Nat} (hn : n < 4) : (s.unlocked n).bitOf rSysClk (5 + n) = true ∧ (s.unlocked n).bitOf rSysIrq 4 = true := by
  have hw : swf regReset ((({ s with pow := { s.pow with locks := s.pow.locks.set n false } } : State).setBit rSysClk (5 + n) true)).regs = true :=
    State.setBit_wf (by exact hs) _ _ _
  refine ⟨?_, State.irq_set hw (by decide)⟩
  unfold State.bitOf State.unlocked
  rw [State.reg_irq_other hw _ (by decide)]
  show State.bitOf (State.setBit _ _ _ _) _ _ = true
  rw [State.bitOf_setBit (by exact hs) _ _ _ _ (by omega), if_pos rfl]

end

/-! ### The Seif links without PLL_B -/

end

/-- A link that was up is down, all but its disable forgotten. -/
def SefLink.downed (x : SefLink) : SefLink := if x.up then { dis := x.dis } else x

section
variable {s : State} {l : Nat} {x : SefLink} (h : s.sef.links[l]? = some x)
include h

theorem link_of_getElem? : s.link l = x := by
  unfold State.link
  rw [List.getD_eq_getElem?_getD, h]
  rfl

theorem setLink_of_getElem? (f : SefLink → SefLink) : s.setLink l f = { s with sef := { s.sef with links := s.sef.links.set l (f x) } } := by
  unfold State.setLink State.setSef
  dsimp only
  rw [h]

theorem linkDown_up (hu : x.up = true) :
    s.linkDown l = ({ s with sef := { s.sef with links := s.sef.links.set l x.downed } } : State).irq rSefIrq 2 := by
  unfold State.linkDown SefLink.downed
  rw [link_of_getElem? h, if_pos hu, setLink_of_getElem? h, if_pos hu]

theorem linkDown_rest (hu : x.up = false) : s.linkDown l = s := if_neg (by rw [link_of_getElem? h, hu]; decide)

theorem linkDown_form : ∃ m, s.linkDown l = { s with regs := m, sef := { s.sef with links := s.sef.links.set l x.downed } } := by
  cases hu : x.up with
  | true =>
    rw [linkDown_up h hu]
    exact ⟨_, State.irq_eq ..⟩
  | false =>
    obtain ⟨hl, hx⟩ := List.getElem?_eq_some_iff.1 h
    have hself : s.sef.links.set l x.downed = s.sef.links := by
      unfold SefLink.downed
      rw [hu, if_neg (by decide), ← hx, List.set_getElem_self]
    rw [linkDown_rest h hu, hself]
    exact ⟨s.regs, rfl⟩

theorem linkDown_regs (hs : swf regReset s.regs = true) : swf regReset (s.linkDown l).regs = true ∧ SameRegs s (s.linkDown l) [rSefIrq] ∧
    ((x.up = true ∨ s.bitOf rSefIrq 2 = true) → (s.linkDown l).bitOf rSefIrq 2 = true) := by
  cases hu : x.up with
  | true =>
    rw [linkDown_up h hu]
    exact ⟨State.irq_wf (by exact hs) _ _, fun a ha => State.reg_irq_other (by exact hs) _ (by simpa using ha), fun _ => State.irq_set (by exact hs) (by decide)⟩
  | false =>
    rw [linkDown_rest h hu]
    exact ⟨hs, fun _ _ => rfl, fun hb => hb.resolve_left (by decide)⟩

end

/-- Both links without their clock. -/
theorem linksDown {s : State} {a b : SefLink} (h : s.sef.links = [a, b]) (hs : swf regReset s.regs = true) :
    ∃ m, (s.linkDown 0).linkDown 1 = { s with regs := m, sef := { s.sef with links := [a.downed, b.downed] } } ∧
      SameRegs s ((s.linkDown 0).linkDown 1) [rSefIrq] ∧ (a.up = true ∨ b.up = true → ((s.linkDown 0).linkDown 1).bitOf rSefIrq 2 = true) := by
  have h0 : s.sef.links[0]? = some a := by rw [h]; rfl
  obtain ⟨m, hm⟩ := linkDown_form h0
  obtain ⟨hw, hregs, hbit⟩ := linkDown_regs h0 hs
  have h1 : (s.linkDown 0).sef.links[1]? = some b := by rw [hm, h]; rfl
  obtain ⟨m', hm'⟩ := linkDown_form h1
  obtain ⟨-, hregs', hbit'⟩ := linkDown_regs h1 hw
  refine ⟨m', ?_, fun r hr => (hregs' r hr).trans (hregs r hr), fun hu => hbit' (hu.symm.imp_right fun ha => hbit (.inl ha))⟩
  rw [hm', hm, h]
  rfl

/-! ### The radio synthesizer -/

theorem charge_form (s : State) (cost : Nat) : ∃ m b, s.charge cost = { s with regs := m, rad := { s.rad with budget := b, budgetAt := s.t } } := by
  unfold State.charge
  extract_lets b0 s1
  split
  · exact ⟨_, _, State.irq_eq ..⟩
  · exact ⟨s.regs, _, rfl⟩

/-- Charging what a train has sent leaves the acknowledgements, what was sent and the time. -/
theorem payTrain_kept (s : State) : s.payTrain.rad.acks = s.rad.acks ∧ s.payTrain.emitted = s.emitted ∧ s.payTrain.t = s.t := by
  unfold State.payTrain
  split
  · split
    · extract_lets k
      obtain ⟨m, b, h⟩ := charge_form s ((k - _) * s.txCost _)
      rw [h]
      exact ⟨rfl, rfl, rfl⟩
    · exact ⟨rfl, rfl, rfl⟩
  · exact ⟨rfl, rfl, rfl⟩

theorem txStop_radio (s : State) : s.txStop.rad.xch = none ∧ s.txStop.rad.cutAt = some s.t ∧ s.txStop.rad.acks = s.rad.acks ∧ s.txStop.emitted = s.emitted :=
  ⟨rfl, rfl, rfl, rfl⟩

end Sys2Proof.Machine
end

section
/-! SUPPORT. The thermal governor, and the statement on resets, clocks and supplies (R142, R588, R671). -/
namespace Sys2Proof.Machine

/-! ### What the governor may move -/

/-- From `s` to `t` the governor acted: the engine array's limit and dunes, its own clocks, two interrupt registers and Q14. -/
structure Governed (s t : State) : Prop where
  frame : t = { s with erg := t.erg, pow := t.pow, regs := t.regs, rings := t.rings, wram := t.wram, reply := t.reply }
  inv   : s.Inv → t.Inv
  regs  : s.Inv → SameRegs s t [rSysIrq, rErgIrq]
  rings : s.Inv → SameRings s t [14]

section
variable {s t : State}

theorem Governed.same (h : t = { s with erg := t.erg, pow := t.pow }) : Governed s t := by
  have hr : t.regs = s.regs := by rw [h]
  have hg : t.rings = s.rings := by rw [h]
  refine ⟨?_, fun hs => ?_, fun _ a _ => by unfold State.reg; rw [hr], fun _ n _ => by unfold State.ring; rw [hg]⟩
  · rw [h]
  · rw [h]
    exact hs

theorem Governed.trans {u : State} (h : Governed s t) (k : Governed t u) : Governed s u := by
  refine ⟨?_, fun hs => k.inv (h.inv hs), fun hs a ha => (k.regs (h.inv hs) a ha).trans (h.regs hs a ha),
    fun hs n hn => (k.rings (h.inv hs) n hn).trans (h.rings hs n hn)⟩
  have hk := k.frame
  rw [h.frame] at hk
  exact hk

theorem Governed.irq {a : Nat} (ha : a = rSysIrq ∨ a = rErgIrq) (k : Nat) : Governed s (s.irq a k) := by
  refine ⟨?_, (State.irq_keeps (Keeps.refl s)).inv, fun hs b hb => State.reg_irq_other hs.1 _ ?_, fun _ n _ => by unfold State.ring; rw [State.irq_rings]⟩
  · rw [State.irq_erg, State.irq_pow, State.irq_rings, State.irq_wram, State.irq_reply]
    exact State.irq_eq ..
  · rintro rfl
    rcases ha with rfl | rfl <;> simp at hb

theorem Governed.event (cls arg : Nat) : Governed s (s.event cls arg) := by
  refine ⟨?_, (State.event_keeps (Keeps.refl s)).inv, fun hs a _ => ?_, fun hs => (event_only hs cls arg none []).rings⟩
  · have h := event_frame s cls arg none []
    rw [State.event_erg, State.event_pow, event_regs]
    exact h
  · unfold State.reg
    rw [event_regs]

end

/-! ### Changing the limit -/

section
variable (s : State) (n : Nat)

theorem setDune_foldl_form {α : Type} (l : List α) (f : State → α → State) (hf : ∀ a x, ∃ d, f a x = { a with erg := { a.erg with dunes := d } }) (s : State) :
    ∃ d, l.foldl f s = { s with erg := { s.erg with dunes := d } } := by
  induction l generalizing s with
  | nil => exact ⟨s.erg.dunes, rfl⟩
  | cons x l ih =>
    obtain ⟨d, h⟩ := hf s x
    rw [List.foldl_cons, h]
    exact ih _

theorem stayDunes_form : ∃ d, s.stayDunes = { s with erg := { s.erg with dunes := d } } := setDune_foldl_form _ _ (fun _ _ => ⟨_, rfl⟩) s

theorem napExcess_form (k : Nat) : ∃ d, State.napExcess k s = { s with erg := { s.erg with dunes := d } } := by
  induction k generalizing s with
  | zero => exact ⟨s.erg.dunes, rfl⟩
  | succ k ih =>
    unfold State.napExcess
    split
    · split
      · exact ih _
      · exact ⟨s.erg.dunes, rfl⟩
    · exact ⟨s.erg.dunes, rfl⟩

/-- The dunes under a new limit. -/
theorem limitDunes_form : ∃ d, (State.napExcess 8 ({ s with erg := { s.erg with maxAwake := n } } : State).stayDunes).leaveDunes =
    { s with erg := { s.erg with maxAwake := n, dunes := d } } := by
  obtain ⟨d1, h1⟩ := stayDunes_form { s with erg := { s.erg with maxAwake := n } }
  obtain ⟨d2, h2⟩ := napExcess_form ({ s with erg := { s.erg with maxAwake := n } } : State).stayDunes 8
  obtain ⟨d3, h3⟩ := leaveDunes_form (State.napExcess 8 ({ s with erg := { s.erg with maxAwake := n } } : State).stayDunes)
  refine ⟨d3, ?_⟩
  rw [h3, h2, h1]

theorem setMaxAwake_governs (tj : Int) : Governed s (s.setMaxAwake n tj) ∧ (s.setMaxAwake n tj).erg.maxAwake = n ∧ (s.setMaxAwake n tj).pow = s.pow := by
  unfold State.setMaxAwake
  split
  case isTrue h => exact ⟨.same rfl, h.symm, rfl⟩
  case isFalse h =>
    obtain ⟨d, hd⟩ := limitDunes_form s n
    dsimp only
    rw [hd]
    have hlim : Governed s { s with erg := { s.erg with maxAwake := n, dunes := d } } := .same rfl
    refine ⟨?_, ?_, ?_⟩
    · split
      · exact (hlim.trans (.irq (.inr rfl) 2)).trans (.event _ _)
      · exact hlim.trans (.event _ _)
    · rw [State.event_erg]
      split
      · rw [State.irq_erg]
      · rfl
    · rw [State.event_pow]
      split
      · rw [State.irq_pow]
      · rfl

end

/-! ### A reading -/

/-- The hours of operation at a temperature. -/
def Med.hoursAt (m : Med) (tj : Int) : Med :=
  if m.run then { m with nand := { m.nand with temph := m.nand.temph.set (hoursBin (tj.fdiv 4)) (m.nand.temph.getD (hoursBin (tj.fdiv 4)) 0 + 1) } } else m

/-- The temperature as it was read. -/
def State.tjRead (s : State) (tj : Int) : State :=
  { ({ s with pow := { s.pow with thermAt := s.t } } : State).setFld rSysTherm 25 16 (tj % 1024).toNat with med := s.med.hoursAt tj }

/-- What the governor does with a temperature read. -/
def State.govern (s : State) (tj : Int) : State :=
  if 500 ≤ tj then ((s.setPow fun p => { p with lowAt := s.t, highAt := s.t }).setMaxAwake 1 tj).irq rSysIrq 3
  else if 4 * s.tHi ≤ tj then
    if s.pow.lowAt + msU 100 ≤ s.t then
      ((s.setPow fun p => { p with highAt := s.t }).setPow fun p => { p with lowAt := s.t }).setMaxAwake (max 1 (s.erg.maxAwake - 1)) tj
    else s.setPow fun p => { p with highAt := s.t }
  else if tj < 4 * (s.tHi - 5) then
    if s.pow.highAt + second ≤ s.t then
      ((s.setPow fun p => { p with lowAt := s.t }).setPow fun p => { p with highAt := s.t }).setMaxAwake (min 8 (s.erg.maxAwake + 1)) tj
    else s.setPow fun p => { p with lowAt := s.t }
  else s.setPow fun p => { p with lowAt := s.t, highAt := s.t }

section
variable {s : State} {tj : Int}

theorem exec_thermalGovernor_off (h : s.pow.phase = .off) : exec (.thermalGovernor tj) s = .next s := if_pos h

theorem tjRead_eq (s : State) (tj : Int) : ((s.setPow fun p => { p with thermAt := s.t }).setFld rSysTherm 25 16 (tj % 1024).toNat).setMed (fun m =>
    if m.run then { m with nand := { m.nand with temph := m.nand.temph.set (hoursBin (tj.fdiv 4)) (m.nand.temph.getD (hoursBin (tj.fdiv 4)) 0 + 1) } } else m) =
      s.tjRead tj := rfl

theorem exec_thermalGovernor (h : s.pow.phase ≠ .off) : exec (.thermalGovernor tj) s = .next (((s.until (s.pow.thermAt + msU 10)).tjRead tj).govern tj) := by
  show execThermalGovernor tj s = _
  unfold execThermalGovernor
  rw [if_neg h]
  dsimp only
  rw [tjRead_eq]
  generalize (s.until (s.pow.thermAt + msU 10)).tjRead tj = u
  unfold State.govern
  by_cases hcrit : 500 ≤ tj
  · rw [if_pos hcrit, if_pos hcrit]
  rw [if_neg hcrit, if_neg hcrit]
  by_cases hhot : 4 * u.tHi ≤ tj
  · rw [if_pos (decide_eq_true hhot), if_pos hhot]
  rw [if_neg (by simpa using hhot), if_neg hhot]
  by_cases hcool : tj < 4 * (u.tHi - 5)
  · rw [if_pos (decide_eq_true hcool), if_pos hcool]
  · rw [if_neg (by simpa using hcool), if_neg hcool]

theorem govern_governs (s : State) (tj : Int) : Governed s (s.govern tj) := by
  unfold State.govern
  split
  · exact (Governed.trans (.same rfl) (setMaxAwake_governs _ _ tj).1).trans (.irq (.inl rfl) 3)
  · split
    · split
      · exact Governed.trans (.same rfl) (setMaxAwake_governs _ _ tj).1
      · exact .same rfl
    · split
      · split
        · exact Governed.trans (.same rfl) (setMaxAwake_governs _ _ tj).1
        · exact .same rfl
      · exact .same rfl

/-- At 125 °C one dune stays awake, and the over-temperature is raised. -/
theorem govern_critical (hs : s.Inv) (h : 500 ≤ tj) : (s.govern tj).erg.maxAwake = 1 ∧ (s.govern tj).bitOf rSysIrq 3 = true := by
  obtain ⟨hg, hn, -⟩ := setMaxAwake_governs (s.setPow fun p => { p with lowAt := s.t, highAt := s.t }) 1 tj
  unfold State.govern
  rw [if_pos h]
  exact ⟨by rw [State.irq_erg, hn], State.irq_set (hg.inv hs).1 (by decide)⟩

theorem govern_hot (h : tj < 500) (hh : 4 * s.tHi ≤ tj) :
    (s.govern tj).erg.maxAwake = (if s.pow.lowAt + msU 100 ≤ s.t then max 1 (s.erg.maxAwake - 1) else s.erg.maxAwake) ∧ (s.govern tj).pow.highAt = s.t := by
  unfold State.govern
  rw [if_neg (by omega), if_pos hh]
  split
  · obtain ⟨-, hn, hp⟩ := setMaxAwake_governs ((s.setPow fun p => { p with highAt := s.t }).setPow fun p => { p with lowAt := s.t }) (max 1 (s.erg.maxAwake - 1)) tj
    exact ⟨hn, by rw [hp]; rfl⟩
  · exact ⟨rfl, rfl⟩

theorem govern_cool (h : tj < 500) (hc : tj < 4 * (s.tHi - 5)) :
    (s.govern tj).erg.maxAwake = (if s.pow.highAt + second ≤ s.t then min 8 (s.erg.maxAwake + 1) else s.erg.maxAwake) ∧ (s.govern tj).pow.lowAt = s.t := by
  unfold State.govern
  rw [if_neg (by omega), if_neg (by omega), if_pos hc]
  split
  · obtain ⟨-, hn, hp⟩ := setMaxAwake_governs ((s.setPow fun p => { p with lowAt := s.t }).setPow fun p => { p with highAt := s.t }) (min 8 (s.erg.maxAwake + 1)) tj
    exact ⟨hn, by rw [hp]; rfl⟩
  · exact ⟨rfl, rfl⟩

theorem govern_between (h : tj < 500) (hc : 4 * (s.tHi - 5) ≤ tj) (hh : tj < 4 * s.tHi) :
    (s.govern tj).erg.maxAwake = s.erg.maxAwake ∧ (s.govern tj).pow.lowAt = s.t ∧ (s.govern tj).pow.highAt = s.t := by
  unfold State.govern
  rw [if_neg (by omega), if_neg (by omega), if_neg (by omega)]
  exact ⟨rfl, rfl, rfl⟩

/-- What a reading leaves of the units it does not serve. -/
theorem tjRead_govern_kept (s : State) (tj : Int) : ((s.tjRead tj).govern tj).seq = s.seq ∧ ((s.tjRead tj).govern tj).ctx = s.ctx ∧
    ((s.tjRead tj).govern tj).obox = s.obox ∧ ((s.tjRead tj).govern tj).emitted = s.emitted := by
  rw [(govern_governs (s.tjRead tj) tj).frame]
  exact ⟨rfl, rfl, rfl, rfl⟩

section
variable (hs : s.Inv)
include hs

theorem tjRead_inv : (s.tjRead tj).Inv := ⟨State.setReg_wf (by exact hs.1) _ _, hs.2⟩

theorem tjRead_regs : SameRegs s (s.tjRead tj) [rSysTherm] := fun a ha => State.reg_setReg_other (by exact hs.1) _ (by simpa using ha)

theorem tjRead_therm : (s.tjRead tj).fld rSysTherm 25 16 = (tj % 1024).toNat ∧ (s.tjRead tj).fld rSysTherm 7 0 = s.fld rSysTherm 7 0 := by
  refine ⟨(State.fld_setFld_same (by exact hs.1) rSysTherm (by decide) (by decide) _).trans (Nat.mod_eq_of_lt ?_),
    State.fld_setFld_other (by exact hs.1) rSysTherm (by decide) (by decide) (by decide) _⟩
  show _ < 1024
  omega

theorem tjRead_tHi : (s.tjRead tj).tHi = s.tHi := by
  unfold State.tHi
  rw [(tjRead_therm hs).2]

end

end

/-! ### The statement -/

section
variable {dt : Nat} {s : State}

/-- What both resets leave (R14, R105). -/
theorem mainReset_leaves (hs : swf regReset s.regs = true) (cause : Nat) (hc : cause < 2 ^ 32) : (s.mainReset .off cause).reg rSysRstcause = cause ∧
    (∀ a, inOas a = true → (s.mainReset .off cause).reg a = s.reg a) ∧ (∀ a, inOas a = false → a ≠ rSysRstcause → (s.mainReset .off cause).reg a = (regReset a).toNat) ∧
    (s.mainReset .off cause).med.nand.units = s.med.nand.units ∧ (s.mainReset .off cause).med.nand.ckpts = s.med.nand.ckpts := by
  have hnand : (s.mainReset .off cause).med.nand = s.nandKept := rfl
  refine ⟨?_, fun a ha => ?_, fun a ha hne => ?_, ?_, ?_⟩
  · rw [mainReset_reg hs, if_pos rfl, Nat.mod_eq_of_lt hc]
  · rw [mainReset_reg hs, if_neg (by rintro rfl; exact absurd ha (by decide)), if_pos ha]
  · rw [mainReset_reg hs, if_neg hne, if_neg (by rw [ha]; decide)]
  all_goals
    rw [hnand]
    unfold State.nandKept
    split <;> rfl

/-- What the supply's reset leaves of the registers and the media. -/
theorem supplyReset_leaves {t : State} (hs : swf regReset s.regs = true) {off : Nat} (ht : t = (s.supplyLost off).onBattery off) : t.reg rSysRstcause = 2 ∧
    (∀ a, inOas a = true → a ≠ rOasPwr → t.reg a = s.reg a) ∧ (∀ a, inOas a = false → a ≠ rSysRstcause → t.reg a = (regReset a).toNat) ∧
    t.med.nand.units = s.med.nand.units ∧ t.med.nand.ckpts = s.med.nand.ckpts ∧
    t.bitOf rOasPwr 0 = true ∧ t.fld rOasPwr 29 16 = s.fld rOasPwr 29 16 ∧ t.bitOf rOasPwr 2 = (if off = 0 then s.bitOf rOasPwr 2 else true) := by
  subst ht
  obtain ⟨hcause, hoas, hother, hunits, hckpts⟩ := mainReset_leaves (s := { s with locked := true }) hs 2 (by decide)
  have hreg : ∀ a, (s.supplyLost off).reg a = (({ s with locked := true } : State).mainReset .off 2).reg a := fun _ => rfl
  have hw : swf regReset (s.supplyLost off).regs = true := mainReset_wf (s := { s with locked := true }) hs .off 2
  obtain ⟨hsrc, hhold, hoff⟩ := onBattery_pwr hw off
  have hpwr : (s.supplyLost off).reg rOasPwr = s.reg rOasPwr := hoas _ (by decide)
  obtain ⟨m, hm⟩ := onBattery_form (s.supplyLost off) off
  refine ⟨?_, fun a ha hne => ?_, fun a ha hne => ?_, ?_, ?_, hsrc, ?_, ?_⟩
  · rw [onBattery_reg_other hw _ (by decide), hreg, hcause]
  · rw [onBattery_reg_other hw _ hne, hreg, hoas a ha]
    rfl
  · rw [onBattery_reg_other hw _ (by rintro rfl; exact absurd ha (by decide)), hreg, hother a ha hne]
  · rw [hm]
    exact hunits
  · rw [hm]
    exact hckpts
  · rw [hoff]
    unfold State.fld
    rw [hpwr]
  · rw [hhold]
    unfold State.bitOf
    rw [hpwr]

/-- No register that PLL_A's event and its showing move lies in the OAS block. -/
theorem inOas_clear {a : Nat} (h : inOas a = true) : a ≠ rSysRstcause ∧ a ∉ [rEvrIrq] ∧ a ∉ [rSysClk, rSysIrq] := by
  unfold inOas at h
  simp only [Bool.and_eq_true, decide_eq_true_eq] at h
  simp only [rSysRstcause, rEvrIrq, rSysClk, rSysIrq, List.mem_cons, List.not_mem_nil, or_false]
  omega

/-- PLL_A's loss: the reset, whose cause is 6. -/
theorem clockLost_pllA (hs : swf regReset s.regs = true) : ((s.unlocked 0).clockLost 0).reg rSysRstcause = 6 ∧
    (∀ a, inOas a = true → ((s.unlocked 0).clockLost 0).reg a = s.reg a) ∧ ((s.unlocked 0).clockLost 0).nor = s.nor ∧ ((s.unlocked 0).clockLost 0).locked = s.locked := by
  have hw := unlocked_wf hs 0
  have hlog := eventNow_only (s.unlocked 0) 0x74 0
  obtain ⟨m, hm⟩ := unlocked_form s 0
  have hlost : (s.unlocked 0).clockLost 0 = ((s.unlocked 0).eventNow 0x74 0).mainReset .rom 6 := rfl
  rw [hlost]
  refine ⟨?_, fun a ha => ?_, ?_, ?_⟩
  · rw [mainReset_reg (hlog.wf hw), if_pos rfl]
    rfl
  · obtain ⟨hcause, hevr, hsys⟩ := inOas_clear ha
    rw [mainReset_reg (hlog.wf hw), if_neg hcause, if_pos ha, hlog.regs hw a hevr, unlocked_regs hs 0 a hsys]
  · show State.nor (State.eventNow _ _ _) = _
    rw [hlog.frame, hm]
  · show State.locked (State.eventNow _ _ _) = _
    rw [hlog.frame, hm]

/-- PLL_B's loss: ports and links down, shown, raised and recorded. -/
theorem clockLost_pllB (hinv : s.Inv) {a b : SefLink} (h : s.sef.links = [a, b]) {t : State} (ht : t = (s.unlocked 1).clockLost 1) :
    t.pow.locks = s.pow.locks.set 1 false ∧ t.net.ports = s.net.ports.map (fun p => { p with up := false }) ∧ t.sef.links = [a.downed, b.downed] ∧
      t.bitOf rSysClk 6 = true ∧ t.bitOf rSysIrq 4 = true ∧ (a.up = true ∨ b.up = true → t.bitOf rSefIrq 2 = true) ∧ SameRegs s t [rSysClk, rSysIrq, rSefIrq] ∧
      SameRings s t [14] ∧ t.seq = s.seq ∧ t.ctx = s.ctx := by
  obtain ⟨m, hm⟩ := unlocked_form s 1
  obtain ⟨hclk, hirq⟩ := unlocked_shows hinv.1 (n := 1) (by decide)
  have hu : (s.unlocked 1).Inv := by
    have hw := unlocked_wf hinv.1 1
    rw [hm] at hw ⊢
    exact ⟨hw, hinv.2⟩
  have he := event_only hu 0x74 1 none []
  generalize hq : (((s.unlocked 1).event 0x74 1).setNet fun x => { x with ports := x.ports.map fun p => { p with up := false } }) = q
  have hqr : q.regs = (s.unlocked 1).regs := by rw [← hq]; exact he.regs
  have hqreg : ∀ r, q.reg r = (s.unlocked 1).reg r := fun r => by unfold State.reg; rw [hqr]
  have hql : q.sef.links = [a, b] := by
    rw [← hq]
    show (State.sef (State.event _ _ _)).links = _
    rw [State.event_sef, hm]
    exact h
  have hqw : swf regReset q.regs = true := hqr ▸ hu.1
  obtain ⟨m', hform, hregs, hbit⟩ := linksDown hql hqw
  have ht' : t = (q.linkDown 0).linkDown 1 := by rw [ht, ← hq]; rfl
  have hreg : ∀ r, r ≠ rSefIrq → t.reg r = (s.unlocked 1).reg r := fun r hr => by rw [ht', hregs r (by simpa using hr), hqreg]
  rw [← ht'] at hform hbit
  refine ⟨?_, ?_, by rw [hform], ?_, ?_, hbit, fun r hr => ?_, fun n hn => ?_, ?_, ?_⟩
  · rw [hform, ← hq]
    show (State.pow (State.event _ _ _)).locks = _
    rw [State.event_pow, hm]
  · rw [hform, ← hq]
    show List.map _ (State.net (State.event _ _ _)).ports = _
    rw [State.event_net, hm]
  · unfold State.bitOf
    rw [hreg _ (by decide)]
    exact hclk
  · unfold State.bitOf
    rw [hreg _ (by decide)]
    exact hirq
  · obtain ⟨h1, h2, h3⟩ : r ≠ rSysClk ∧ r ≠ rSysIrq ∧ r ≠ rSefIrq := by simpa using hr
    rw [hreg r h3]
    exact unlocked_regs hinv.1 1 r (by simp [h1, h2])
  · rw [hform, ← hq]
    exact (he.rings n hn).trans (by rw [hm]; rfl)
  · rw [hform, ← hq]
    show State.seq (State.event _ _ _) = _
    rw [State.event_seq, hm]
  · rw [hform, ← hq]
    show State.ctx (State.event _ _ _) = _
    rw [State.event_ctx, hm]

/-- The radio synthesizer's loss: the exchange ends, and nothing more leaves. -/
theorem clockLost_radio (s : State) : (s.clockLost 2).rad.xch = none ∧ (s.clockLost 2).rad.cutAt = some s.t ∧ (s.clockLost 2).rad.acks = s.rad.acks ∧
    (s.clockLost 2).emitted = s.emitted := by
  obtain ⟨hacks, hsent, ht⟩ := payTrain_kept (s.event 0x74 2)
  obtain ⟨hx, hc, ha, he⟩ := txStop_radio (s.event 0x74 2).payTrain
  refine ⟨hx, hc.trans ?_, ha.trans (hacks.trans ?_), he.trans (hsent.trans ?_)⟩
  · rw [ht, State.event_t]
  · rw [State.event_rad]
  · rw [State.event_emitted]

/-- VBAT below 1.80 V while it feeds the Oasis. -/
theorem vbatLatch_leaves (hs : swf regReset s.regs = true) (h : s.bitOf rOasPwr 0 = true) {t : State} (ht : t = (s.setBit rOasStat 0 true).pwronFree) :
    t.bitOf rOasStat 0 = true ∧ t.bitOf rOasPwr 2 = false ∧ t.bitOf rOasPwr 0 = true ∧ SameRegs s t [rOasStat, rOasPwr] := by
  subst ht
  have hw := State.setBit_wf hs rOasStat 0 true
  have hpwr : ∀ n, (s.setBit rOasStat 0 true).bitOf rOasPwr n = s.bitOf rOasPwr n := fun n => by
    unfold State.bitOf
    rw [State.reg_setBit_other hs _ _ (by decide)]
  have hbit : ∀ n < 32, (s.setBit rOasStat 0 true).pwronFree.bitOf rOasPwr n = if n = 2 then false else s.bitOf rOasPwr n := fun n hn => by
    rw [pwronFree_eq, State.bitOf_setBit (by exact hw) _ _ _ _ hn, ← hpwr]
    rfl
  have hreg : ∀ a, a ≠ rOasPwr → (s.setBit rOasStat 0 true).pwronFree.reg a = (s.setBit rOasStat 0 true).reg a := fun a ha => by
    rw [pwronFree_eq, State.reg_setBit_other (by exact hw) _ _ ha]
    rfl
  refine ⟨?_, by rw [hbit 2 (by decide)]; rfl, by rw [hbit 0 (by decide)]; exact h, fun a ha => ?_⟩
  · unfold State.bitOf
    rw [hreg _ (by decide)]
    exact (State.bitOf_setBit hs rOasStat 0 0 true (by decide)).trans (if_pos rfl)
  · obtain ⟨hstat, hp⟩ : a ≠ rOasStat ∧ a ≠ rOasPwr := by simpa using ha
    rw [hreg a hp, State.reg_setBit_other hs _ _ hstat]

/-- The Oasis at its reset values, PWRON_CTL among them. -/
theorem oasisReset_leaves (hs : swf regReset s.regs = true) (a : Nat) : s.oasCleared.pwronFree.reg a = if inOas a then (regReset a).toNat else s.reg a := by
  have hw : swf regReset s.oasCleared.regs = true := swf_filter _ hs _
  have hpwr : s.oasCleared.reg rOasPwr = (regReset rOasPwr).toNat := (oasCleared_reg s _).trans (if_pos (by decide))
  by_cases ha : a = rOasPwr
  · subst ha
    rw [pwronFree_eq, if_pos (by decide)]
    unfold State.setBit
    rw [State.reg_setReg (by exact hw), if_pos rfl]
    show setBits 2 2 (s.oasCleared.reg rOasPwr) _ % _ = _
    rw [hpwr]
    decide
  · rw [pwronFree_eq, State.reg_setBit_other (by exact hw) _ _ ha]
    exact oasCleared_reg s a

end

/-- Settles O58: power, the two resets, each clock, PWRON_CTL, VBAT and the governor, each by its own lemmas above. -/
theorem resetsClocksAndSupplies : Obligations.ResetsClocksAndSupplies := by
  refine ⟨fun dt s s1 h1 => ⟨fun h => by rw [h1]; exact exec_powerOn_again h, fun h => by rw [h1]; exact exec_powerOn_off h⟩,
    fun c dt off s s1 hinv h1 hoff hc => ?_, fun dt n s s1 h1 => ⟨fun h => by rw [h1]; exact exec_pllUnlock_again h, fun hinv hn hl => ?_, fun a b hinv hn hl hab => ?_,
      fun hn hl => ?_, fun hn hl => ?_, fun h => ?_, fun h => ?_⟩,
    fun s d h => exec_pwronHoldEnd h, fun s h => exec_pwronHoldEnd_none h,
    fun dt s s1 h1 => ⟨by rw [h1]; rfl, fun h => by rw [h1]; exact ⟨exec_vbatLatch_vio h, exec_oasisReset_vio h⟩, fun hinv h => ⟨?_, ?_⟩⟩,
    fun mv s s1 h1 => ⟨exec_vbatMeasure_off, fun h hm => ?_, fun h hm => ?_⟩,
    fun tj hi s s1 v hinv h1 hv hhi => ⟨exec_thermalGovernor_off, fun h => ?_⟩⟩
  · subst h1
    have hs : swf regReset (s.advance dt).regs = true := hinv.1
    rcases hc with rfl | rfl
    · obtain ⟨hcause, hoas, hother, hunits, hckpts⟩ := mainReset_leaves hs 1 (by decide)
      exact ⟨_, exec_resetNAssert, rfl, by rw [hcause, if_pos rfl], fun a ha _ => hoas a ha, hother, rfl, rfl, rfl, rfl, rfl, rfl, rfl, rfl, rfl, rfl, rfl, rfl, rfl,
        rfl, rfl, rfl, rfl, hunits, hckpts, rfl, rfl, fun _ => ⟨hoas _ (by decide), rfl, rfl, rfl⟩, nofun⟩
    · obtain ⟨m, hm⟩ := onBattery_form ((s.advance dt).supplyLost off) off
      obtain ⟨hcause, hoas, hother, hunits, hckpts, hsrc, hoff', hhold⟩ := supplyReset_leaves hs (off := off) rfl
      have hat : (((s.advance dt).supplyLost off).onBattery off).pow.pwronAt = if off = 0 then none else some ((s.advance dt).t + msU off) := by
        rw [hm]
        rfl
      refine ⟨_, exec_supplyReset hinv.1 hoff, ?_, by rw [hcause, if_neg nofun], hoas, hother, ?_, ?_, ?_, ?_, ?_, ?_, ?_, ?_, ?_, ?_, ?_, ?_, ?_, ?_, ?_, ?_, ?_, hunits,
        hckpts, ?_, ?_, nofun, fun _ => ⟨?_, ?_, hsrc, hoff', fun h0 => ⟨hat.trans (if_neg h0), hhold.trans (if_neg h0)⟩,
          fun h0 => ⟨hat.trans (if_pos h0), hhold.trans (if_pos h0)⟩⟩⟩
      all_goals
        rw [hm]
        rfl
  · subst h1 hn
    obtain ⟨hcause, hoas, hnor, hlocked⟩ := clockLost_pllA (s := s.advance dt) hinv.1
    exact ⟨_, exec_pllUnlock hl, rfl, hcause, hoas, rfl, rfl, rfl, rfl, hnor, hlocked⟩
  · subst h1 hn
    exact ⟨_, exec_pllUnlock hl, clockLost_pllB (s := s.advance dt) hinv hab rfl⟩
  · subst h1 hn
    obtain ⟨hx, hc, ha, he⟩ := clockLost_radio ((s.advance dt).unlocked 2)
    obtain ⟨m, hm⟩ := unlocked_form (s.advance dt) 2
    exact ⟨_, exec_pllUnlock hl, rfl, hx, hc.trans (by rw [hm]), ha.trans (by rw [hm]; rfl), he.trans (by rw [hm]; rfl)⟩
  · subst h1 hn
    exact exec_pllUnlock hl
  · rw [exec_pllRelock, h, h1]
    rfl
  · rw [exec_pllRelock, h, h1]
    rfl
  · subst h1
    obtain ⟨hstat, hhold, hsrc, hregs⟩ := vbatLatch_leaves (s := s.advance dt) hinv.1 h rfl
    exact ⟨_, exec_vbatLatch h, hstat, hhold, hsrc, hregs, rfl⟩
  · subst h1
    have hreg := oasisReset_leaves (s := s.advance dt) hinv.1
    exact ⟨_, exec_oasisReset h, fun a ha => by rw [hreg, if_pos ha], fun a ha => by rw [hreg, ha]; rfl, rfl, rfl⟩
  · rw [exec_vbatMeasure h, if_neg (by omega), h1]
    rfl
  · rw [exec_vbatMeasure h, if_pos hm, h1]
    rfl
  · have hthi : s1.tHi = hi := by rw [hhi, hv, h1]; unfold State.tHi State.fld State.reg; rw [State.until_regs]
    have hfld : ∀ a b c, s1.fld a b c = s.fld a b c := fun a b c => by unfold State.fld State.reg; rw [h1, State.until_regs]
    have hs1 : s1.Inv := by rw [h1]; exact (State.until_keeps (Keeps.refl s)).inv hinv
    rw [exec_thermalGovernor h, ← h1]
    have hread : (s1.tjRead tj).Inv := tjRead_inv hs1
    obtain ⟨htj, hthr⟩ := tjRead_therm (tj := tj) hs1
    have hg := govern_governs (s1.tjRead tj) tj
    have hregs := hg.regs hread
    have hfield : ∀ hi lo, (((s1.tjRead tj).govern tj).fld rSysTherm hi lo) = (s1.tjRead tj).fld rSysTherm hi lo := fun hi lo => by
      unfold State.fld
      rw [hregs _ (by decide)]
    have hmed : ((s1.tjRead tj).govern tj).med = s.med.hoursAt tj := by
      rw [hg.frame, h1]
      show Med.hoursAt (State.med (s.until _)) tj = _
      rw [State.until_med]
    obtain ⟨hkseq, hkctx, hkobox, hkem⟩ := tjRead_govern_kept s1 tj
    have hpow : s1.pow = s.pow := by rw [h1, State.until_pow]
    have herg : s1.erg = s.erg := by rw [h1, State.until_erg]
    have hrt := tjRead_tHi (tj := tj) hs1
    rw [hthi] at hrt
    refine ⟨_, rfl, by rw [hfield, htj], by rw [hfield, hthr, hfld, hv], fun a ha => ?_, fun n hn => ?_, ?_, ?_, ?_, ?_, fun hrun => ?_, fun hrun => ?_,
      fun hc => govern_critical hread hc, fun hlt hhot => ?_, fun hlt hcool => ?_, fun hlt hlo hhi' => ?_⟩
    · have hs1r : s1.reg a = s.reg a := by unfold State.reg; rw [h1, State.until_regs]
      simp only [List.mem_cons, List.not_mem_nil, or_false, not_or] at ha
      rw [hregs a (by simp [ha]), tjRead_regs hs1 a (by simp [ha]), hs1r]
    · have hs1g : s1.ring n = s.ring n := by unfold State.ring; rw [h1, State.until_rings]
      exact (hg.rings hread n hn).trans hs1g
    · rw [hkseq, h1, State.until_seq]
    · rw [hkctx, h1, State.until_ctx]
    · rw [hkobox, h1, State.until_obox]
    · rw [hkem, h1, State.until_emitted]
    · rw [hmed]
      unfold Med.hoursAt
      rw [if_pos hrun]
    · rw [hmed]
      unfold Med.hoursAt
      rw [if_neg (by rw [hrun]; decide)]
    · rw [← hpow, ← herg]
      exact govern_hot hlt (by rw [hrt]; exact hhot)
    · rw [← hpow, ← herg]
      rw [show (268435456 : Nat) = second from rfl]
      exact govern_cool hlt (by rw [hrt]; exact hcool)
    · rw [← herg]
      exact govern_between hlt (by rw [hrt]; exact hlo) (by rw [hrt]; exact hhi')

end Sys2Proof.Machine
end

section
/-! SUPPORT. A balance close: what the close of each cell leaves, and the group once all that are due are closed (R280, R290). -/
namespace Sys2Proof.Machine

/-! ### Room in the release queue (R118) -/

/-- Cells of some outputs. -/
def cellsOf (l : List Output) : Nat := (l.map Output.cells).sum

theorem cellsOf_append (l m : List Output) : cellsOf (l ++ m) = cellsOf l + cellsOf m := by
  unfold cellsOf
  rw [List.map_append, List.sum_append]

theorem roomForOuts_iff (c : Com) : c.roomForOuts = true ↔ c.s.cellsUsed + cellsOf c.outs ≤ 65536 := by
  unfold Com.roomForOuts cellsOf
  rw [decide_eq_true_iff, List.sum_eq_foldl]

/-- The output that hands over bytes of a record type. -/
def Com.output (c : Com) (rtype : Nat) (bytes : Bytes) : Output :=
  { ojsn := c.ojsn, dep := c.dep, key := c.key, idx := c.base + c.outs.length, rtype := rtype, bytes := bytes }

/-! ### A group's aggregate state -/

theorem group_group (k : Ctx) (g : Nat) : (k.group g).group = g := by
  unfold Ctx.group
  cases h : k.groups.find? fun a => a.group == g with
  | none => rfl
  | some a => simpa using List.find?_some h

theorem group_setGroup (k : Ctx) (a : GroupAgg) (g : Nat) : (k.setGroup a).group g = if g = a.group then a else k.group g := by
  unfold Ctx.group Ctx.setGroup
  have hlow : (fun x : GroupAgg => decide (decide (x.group < a.group) = true ∧ (x.group == g) = true)) = fun x => decide (g < a.group) && x.group == g := by
    funext x
    by_cases h : x.group = g
    · simp [h]
    · simp [h]
  have hhigh : (fun x : GroupAgg => decide (decide (a.group < x.group) = true ∧ (x.group == g) = true)) = fun x => decide (a.group < g) && x.group == g := by
    funext x
    by_cases h : x.group = g
    · simp [h]
    · simp [h]
  rw [List.find?_append, List.find?_cons, List.find?_filter, List.find?_filter, hlow, hhigh]
  have hno : k.groups.find? (fun _ => false) = none := List.find?_eq_none.2 (by simp)
  rcases Nat.lt_trichotomy g a.group with h | rfl | h
  · simp [h, h.ne, beq_eq_false_iff_ne.2 h.ne', Nat.lt_asymm h, hno]
  · simp [hno]
  · simp [h, h.ne', beq_eq_false_iff_ne.2 h.ne, Nat.lt_asymm h, hno]

/-! ### A cell's result (R281 to R290) -/

/-- A balance result up to the instant of its close. -/
def balHead (fl sys g kind unit len score run start stamp : Nat) : Bytes :=
  le 1 4 ++ le 1 1 ++ le 2 fl ++ le 4 sys ++ le 2 g ++ le 1 kind ++ le 1 unit ++ le 2 len ++ le 1 score ++ le 1 run ++ le 8 start ++ le 8 stamp

section
variable (fl sys g kind unit len score run start stamp : Nat) (rest : Bytes)

theorem balHead_type : (balHead fl sys g kind unit len score run start stamp ++ rest).take 2 = le 1 4 ++ le 1 1 := by
  unfold balHead
  simp [le]

theorem balHead_group : ((balHead fl sys g kind unit len score run start stamp ++ rest).drop 8).take 2 = le 2 g := by
  unfold balHead
  simp [le]

theorem balHead_start : ((balHead fl sys g kind unit len score run start stamp ++ rest).drop 16).take 8 = le 8 start := by
  unfold balHead
  simp [le]

theorem balHead_stamp : ((balHead fl sys g kind unit len score run start stamp ++ rest).drop 24).take 8 = le 8 stamp := by
  unfold balHead
  simp [le]

theorem balHead_length : (balHead fl sys g kind unit len score run start stamp).length = 32 := by
  unfold balHead
  simp

end

/-- The output of a cell's result: its type, its group, its start and the instant of the close. -/
structure BalResult (c : Com) (g : Nat) (t0 : Int) (o : Output) : Prop where
  rtype : o.rtype = 4
  ojsn  : o.ojsn = c.ojsn
  key   : o.key = c.key
  head  : o.bytes.take 2 = le 1 4 ++ le 1 1
  group : (o.bytes.drop 8).take 2 = le 2 g
  start : (o.bytes.drop 16).take 8 = le 8 (secOfStd c.s.cfg t0 * second)
  stamp : (o.bytes.drop 24).take 8 = le 8 c.stamp
  cells : o.cells ≤ 4

/-- From `c` to `d` the cells `l` of group `g` closed, one result for each in order, with the alarms between them. -/
structure CellsClosed (c d : Com) (g : Nat) (l : List Int) : Prop where
  frame : d = { c with s := { c.s with ctx := { c.s.ctx with groups := d.s.ctx.groups } }, outs := d.outs, eidx := d.eidx }
  other : ∀ g', g' ≠ g → d.s.ctx.group g' = c.s.ctx.group g'
  cells : (d.s.ctx.group g).cells = (c.s.ctx.group g).cells.filter fun y => !l.contains y.t0
  outs  : ∃ O, d.outs = c.outs ++ O ∧ (∀ o ∈ O, (o.rtype = 8 ∧ o.ojsn = c.ojsn ∧ o.key = c.key) ∨ ∃ t0, BalResult c g t0 o) ∧
    (O.filter fun o => o.rtype == 4).map (fun o => (o.bytes.drop 16).take 8) = l.map (fun t0 => le 8 (secOfStd c.s.cfg t0 * second)) ∧ cellsOf O ≤ 5 * l.length

theorem CellsClosed.nil (c : Com) (g : Nat) : CellsClosed c c g [] := by
  refine ⟨rfl, fun _ _ => rfl, ?_, [], ?_, nofun, rfl, Nat.le_refl _⟩
  · simp
  · simp

theorem CellsClosed.append {c d e : Com} {g : Nat} {l m : List Int} (h : CellsClosed c d g l) (k : CellsClosed d e g m) : CellsClosed c e g (l ++ m) := by
  obtain ⟨O, hO, hall, hstarts, hcells⟩ := h.outs
  obtain ⟨P, hP, pall, pstarts, pcells⟩ := k.outs
  have hcfg : d.s.cfg = c.s.cfg := by rw [h.frame]
  have hoj : d.ojsn = c.ojsn := by rw [h.frame]
  have hkey : d.key = c.key := by rw [h.frame]
  have hst : d.stamp = c.stamp := by rw [h.frame]
  refine ⟨?_, fun g' hg => (k.other g' hg).trans (h.other g' hg), ?_, O ++ P, ?_, fun o ho => ?_, ?_, ?_⟩
  · have hk := k.frame
    rw [h.frame] at hk
    exact hk
  · rw [k.cells, h.cells, List.filter_filter]
    congr 1
    funext y
    simp [Bool.and_comm]
  · rw [hP, hO, List.append_assoc]
  · rcases List.mem_append.1 ho with ho | ho
    · exact hall o ho
    · rcases pall o ho with ⟨hr, h1, h2⟩ | ⟨t0, r⟩
      · exact .inl ⟨hr, h1.trans hoj, h2.trans hkey⟩
      · exact .inr ⟨t0, r.rtype, r.ojsn.trans hoj, r.key.trans hkey, r.head, r.group, hcfg ▸ r.start, hst ▸ r.stamp, r.cells⟩
  · rw [List.filter_append, List.map_append, List.map_append, hstarts, pstarts, hcfg]
  · rw [cellsOf_append, List.length_append]
    omega

/-- A group without its cell at `t0`, its run of alarms as the close left it. -/
def GroupAgg.without (a : GroupAgg) (t0 : Int) (run : Nat) : GroupAgg := { a with cells := a.cells.filter fun y => y.t0 ≠ t0, run := run }

theorem without_cells {c : Com} {g : Nat} {t0 : Int} {run : Nat} {d : Com} (hd : d = c.ctx fun k => k.setGroup ((k.group g).without t0 run)) :
    (∀ g', g' ≠ g → d.s.ctx.group g' = c.s.ctx.group g') ∧ (d.s.ctx.group g).cells = (c.s.ctx.group g).cells.filter fun y => y.t0 ≠ t0 := by
  have hg : ∀ g', d.s.ctx.group g' = if g' = g then (c.s.ctx.group g).without t0 run else c.s.ctx.group g' := fun g' => by
    rw [hd]
    show (c.s.ctx.setGroup _).group g' = _
    rw [group_setGroup]
    show (if g' = (c.s.ctx.group g).group then _ else _) = _
    rw [group_group]
  refine ⟨fun g' h => by rw [hg, if_neg h], ?_⟩
  rw [hg, if_pos rfl]
  rfl

/-- A cell is dropped, an alarm raised where there is one, and the result handed over. -/
theorem closed_cell {c : Com} {g : Nat} {t0 : Int} {alarm : Bool} {arg run : Nat} {body : Bytes} (fl sys kind unit len score : Nat)
    (hb : body.take 32 = balHead fl sys g kind unit len score run (secOfStd c.s.cfg t0 * second) c.stamp) (hl : body.length ≤ 232) :
    CellsClosed c ((if alarm then (c.ctx fun k => k.setGroup ((k.group g).without t0 run)).event 0x0E arg
      else c.ctx fun k => k.setGroup ((k.group g).without t0 run)).sealed 4 body) g [t0] := by
  generalize hd : (c.ctx fun k => k.setGroup ((k.group g).without t0 run)) = d
  obtain ⟨hother, hcells⟩ := without_cells hd.symm
  have hdf : d = { c with s := { c.s with ctx := { c.s.ctx with groups := d.s.ctx.groups } } } := by rw [← hd]; rfl
  obtain ⟨sev, rest, hlen, hev⟩ := event_form d 0x0E arg
  have hres : ∀ (o : Output) (tag : Bytes), tag.length = 8 → o.rtype = 4 → o.ojsn = c.ojsn → o.key = c.key → o.bytes = body ++ tag → BalResult c g t0 o :=
    fun o tag htag hr ho hk hby => by
      rw [← List.take_append_drop 32 body, hb, List.append_assoc] at hby
      refine ⟨hr, ho, hk, ?_, ?_, ?_, ?_, ?_⟩
      · rw [hby, balHead_type]
      · rw [hby, balHead_group]
      · rw [hby, balHead_start]
      · rw [hby, balHead_stamp]
      · unfold Output.cells ceilDiv
        rw [hby]
        simp [balHead_length, htag]
        omega
  have hdo : d.outs = c.outs := by rw [hdf]
  have hdoj : d.ojsn = c.ojsn := by rw [hdf]
  have hdk : d.key = c.key := by rw [hdf]
  obtain ⟨ev, n, hform, hall, hnone, hfew⟩ : ∃ ev n, (if alarm then d.event 0x0E arg else d) = { d with outs := c.outs ++ ev, eidx := n } ∧
      (∀ o ∈ ev, o.rtype = 8 ∧ o.ojsn = c.ojsn ∧ o.key = c.key) ∧ (ev.filter fun o => o.rtype == 4) = [] ∧ cellsOf ev ≤ 1 := by
    cases alarm with
    | false => exact ⟨[], d.eidx, by simp [← hdo], nofun, rfl, by decide⟩
    | true =>
      refine ⟨[d.eventOut (eventBytes 0x0E sev arg rest)], d.eidx + 1, by rw [if_pos rfl, hev, hdo], by simp [Com.eventOut, hdoj, hdk], rfl, ?_⟩
      simp [cellsOf, eventOut_cells d hlen]
  rw [hform]
  have hlast : BalResult c g t0 (Com.output { d with outs := c.outs ++ ev, eidx := n } 4 (body ++ State.tag d.s body)) :=
    hres _ _ (tag_length _ _) rfl hdoj hdk rfl
  refine ⟨?_, hother, hcells.trans (by simp), ev ++ [_], List.append_assoc .., fun o ho => ?_, ?_, ?_⟩
  · rw [hdf]
    rfl
  · rcases List.mem_append.1 ho with ho | ho
    · exact .inl (hall o ho)
    · exact .inr ⟨t0, List.mem_singleton.1 ho ▸ hlast⟩
  · rw [List.filter_append, hnone]
    exact congrArg (fun x => [x]) hlast.start
  · rw [cellsOf_append]
    show _ ≤ 1 + 4
    exact Nat.add_le_add hfew hlast.cells

theorem closeCell_closes (c : Com) (g : Nat) (e : BalGroup) (held : Bool) (t0 : Int) : CellsClosed c (c.closeCell g e held t0) g [t0] := by
  unfold Com.closeCell
  extract_lets x run0 secs loss residual ppm phRes fs pC pD start stop outage tstep phs
  split
  extract_lets
  split
  extract_lets
  rename_i score _ _ fl body _
  refine closed_cell fl (c.s.cfg.sysaddr % 2 ^ 18) e.kind (if e.kind = 1 ∨ e.kind = 4 then 1 else 3) e.len score ?_ ?_
  · have hstart : secOfStd c.s.cfg t0 * second = start := rfl
    rw [hstart]
    unfold balHead
    simp [body, le]
  · simp [body, phs, List.length_flatMap, leI]

/-- The close of several cells. -/
theorem closeCells_closes (c : Com) (g : Nat) (e : BalGroup) (held : Bool) (l : List Int) :
    CellsClosed c (l.foldl (fun a t0 => a.closeCell g e held t0) c) g l := by
  induction l generalizing c with
  | nil => exact .nil c g
  | cons t0 l ih => exact (closeCell_closes c g e held t0).append (ih _)

/-! ### The group's turn -/

section
variable {s : State} {x : Task} {g : Fin 4096} (hk : x.key = .group g) (hw : x.work = .entry)

theorem exec_balanceClose_turn (hx : s.headTask (.group g) = some x) (he : x.entry.kind = .bndBalance) :
    exec (.balanceClose g) s = .next (s.turn (.group g)) := by
  show execBalanceClose g s = _
  unfold execBalanceClose State.headIs
  rw [hx]
  simp [he]

include hk hw

/-- Before the commit watermark a group's task waits (R132). -/
theorem runTask_balance_waits (h : s.cwmPast x.jsn = false) : (s.comOf x).runTask x = { s.comOf x with wait := some .watermark } := by
  unfold Com.runTask
  rw [hk, hw]
  exact if_neg (by rw [show (s.comOf x).s = s from rfl, h]; decide)

/-- At the commit watermark every cell that is due closes (R280). -/
theorem runTask_balance {e : BalGroup} (hg : s.cfg.group g = some e) (h : s.cwmPast x.jsn = true) : ∃ d, CellsClosed (s.comOf x) d g (s.cellsToClose e g x.jsn x.entry.stamp) ∧
    (s.comOf x).runTask x = d.ctx fun k => { k with snaps := k.snaps.filter fun y => !(y.fence == x.jsn && y.group == g.val) } := by
  refine ⟨_, closeCells_closes (s.comOf x) g e x.entry.flags.held _, ?_⟩
  unfold Com.runTask
  rw [hk, hw]
  refine (if_pos h).trans ?_
  show Com.balanceClose _ _ _ = _
  unfold Com.balanceClose
  rw [show (s.comOf x).s.cfg.group g = some e from hg]
  rfl

end

/-- A balance close that finds room: the cells that are due closed, the results handed over, and the group's notes of this boundary gone. -/
theorem exec_balanceClose {s : State} {x : Task} {g : Fin 4096} {e : BalGroup} (hx : s.headTask (.group g) = some x) (hk : x.key = .group g) (hw : x.work = .entry)
    (hp : x.phase = .committing) (he : x.entry.kind = .bndBalance) (hg : s.cfg.group g = some e) (hm : s.cwmPast x.jsn = true) (ha : s.afterIngest x = false)
    (hcells : s.cellsUsed ≤ 60000) (hd : s.boot.restartDue = false) (hl : (s.cellsToClose e g x.jsn x.entry.stamp).length ≤ 256) :
    ∃ d, CellsClosed (s.comOf x) d g (s.cellsToClose e g x.jsn x.entry.stamp) ∧ exec (.balanceClose g) s = .next (s.committed (.group g)
      (d.ctx fun k => { k with snaps := k.snaps.filter fun y => !(y.fence == x.jsn && y.group == g.val) })) := by
  obtain ⟨d, hc, hrun⟩ := runTask_balance (s := s) hk hw hg hm
  refine ⟨d, hc, (exec_balanceClose_turn hx he).trans (congrArg Host.Outcome.next (turn_commits hx (.inl hp) rfl rfl ha hrun.symm ?_ ?_ ?_))⟩
  · rw [hc.frame]
    rfl
  · obtain ⟨O, hO, -, -, hfew⟩ := hc.outs
    have hused : d.s.cellsUsed = s.cellsUsed := by rw [hc.frame]; rfl
    have houts : (s.comOf x).outs = [] := rfl
    refine (roomForOuts_iff _).2 ?_
    show d.s.cellsUsed + cellsOf d.outs ≤ 65536
    rw [hused, hO, houts, List.nil_append]
    omega
  · show d.s.boot.restartDue = false
    rw [hc.frame]
    exact hd

end Sys2Proof.Machine
end

section
/-! SUPPORT. A step of the close sweep: its draw, the records it signs, and what it leaves (R242, R245 to R247, R251). -/
namespace Sys2Proof.Machine

/-! ### The step's draw -/

/-- The close sweep has started: shown by BIL_IRQ where it had not (R245). -/
def State.sweepShown (s : State) (started : Bool) : State := if started then s else s.irq rBilIrq 0

section
variable {s : State} {x : Close} {r : List Close} (hc : s.ctx.closes = x :: r) (ht : s.seqTakes = true) (ha : s.atGate (.sys 6) = true)
  (hh : s.headIs (.sys 6) (fun t => t.work == .sweep x.subj) = true) (hm : s.cwmPast x.jsn = true)
include hc ht ha hh hm

theorem exec_closeSweepStep_draw (hn : x.draw = none) (hd : s.drawsServed = true) : ∃ data, exec .closeSweepStep s = .next
      (((s.journalDraw (0xC1000000 + x.cursor / 256) 40).sweepShown x.started).setCtx fun k =>
        { k with closes := { x with draw := some (s.seq.nextJsn, data), started := true } :: r }) ∧
    data = match (s.journalDraw (0xC1000000 + x.cursor / 256) 40).seq.journal.getLast? with | some e => e.payload.drop 4 | none => [] := by
  refine ⟨_, ?_, rfl⟩
  show execCloseSweepStep s = _
  unfold execCloseSweepStep
  rw [hc]
  dsimp only
  rw [if_pos (by simp [ht, ha, hh, hm]), hn]
  exact if_pos hd

theorem exec_closeSweepStep_sign {j : Nat} {w : Bytes} (hn : x.draw = some (j, w)) :
    exec .closeSweepStep s = .next ((s.closeStep x (s.unwrapJ w)).getD s) := by
  show execCloseSweepStep s = _
  unfold execCloseSweepStep
  rw [hc]
  dsimp only
  rw [if_pos (by simp [ht, ha, hh, hm]), hn]

end

theorem sweepShown_form (s : State) (b : Bool) : ∃ m, s.sweepShown b = { s with regs := m } ∧
    (swf regReset s.regs = true → (b = false → (s.sweepShown b).bitOf rBilIrq 0 = true) ∧ SameRegs s (s.sweepShown b) [rBilIrq]) := by
  unfold State.sweepShown
  cases b with
  | true => exact ⟨s.regs, rfl, fun _ => ⟨nofun, fun _ _ => rfl⟩⟩
  | false => exact ⟨_, State.irq_eq .., fun hs => ⟨fun _ => State.irq_set hs (by decide), fun a ha => State.reg_irq_other hs 0 (by simpa using ha)⟩⟩

/-- A draw journals its entry and keeps the release queue and the registers (R36, R43). -/
theorem drawn_journal (s : State) (tag : Nat) (h : s.sec.calls + 1 < 65536) {b : State} (hb : b = s.journalDraw tag 40) :
    ∃ e, b.seq.journal = s.seq.journal ++ [e] ∧ e.kind = .drbgDraw ∧ e.jsn = s.seq.nextJsn ∧
      e.payload = le 4 tag ++ fit 40 (s.wrapJ (Config.drbg s.sec.drbg 32)) ∧ b.erg.outq = s.erg.outq ∧ b.regs = s.regs := by
  rw [journalDraw_eq] at hb
  have hdr := drawn_few h
  generalize hpay : le 4 tag ++ fit 40 (s.wrapJ (Config.drbg s.sec.drbg 32)) = pay at hb
  generalize (if bits 30 24 tag = 0x42 then { slot := bits 16 0 tag, slotV := true } else {} : Src) = src at hb
  obtain ⟨_, _, _, _, _, q, hform, hq, -⟩ := append_form s.drawn .drbgDraw .normal src s.drawn.dev (s.drawn.inputFlags s.drawn.dev) pay
  have hbf := hb.trans hform
  refine ⟨s.drawn.entryOf .drbgDraw .normal src s.drawn.dev (s.drawn.inputFlags s.drawn.dev) pay, ?_, rfl, ?_, rfl, ?_, ?_⟩
  · rw [hbf]
    show q.journal = _
    rw [hq]
    show s.drawn.seq.journal ++ _ = _
    rw [hdr]
  · show s.drawn.seq.nextJsn = _
    rw [hdr]
  · rw [hbf]
    show s.drawn.erg.outq = _
    rw [hdr]
  · rw [hbf]
    show s.drawn.regs = _
    rw [hdr]

end Sys2Proof.Machine
end

section
/-! SUPPORT. A step of the close sweep with its draw: the records it signs, the readout of the last step, and the CLOSE_CURSOR (R245 to R247, R251, R254). -/
namespace Sys2Proof.Machine

/-! ### A slot that the sweep finds quiet -/

section
variable {c : Com} {i : Nat}

theorem applyFences_none {j : Nat} (h : ∀ f ∈ c.s.ctx.fences, f.bnd = true → f.jsn < j → f.jsn ≤ (c.slot i).lastJsn) : c.applyFences i j = c := by
  have hnone : c.s.ctx.fences.filter (fun f => f.bnd && decide ((c.slot i).lastJsn < f.jsn) && decide (f.jsn < j)) = [] := by
    refine List.filter_eq_nil_iff.2 fun f hf hp => ?_
    simp only [Bool.and_eq_true, decide_eq_true_eq] at hp
    obtain ⟨⟨hb, hlt⟩, hj⟩ := hp
    exact Nat.not_lt.2 (h f hf hb hj) hlt
  unfold Com.applyFences
  simp only [hnone]
  rfl

theorem releaseParks_none {s : State} (h : ∀ p ∈ s.erg.spilled, p.slot ≠ i) : s.releaseParks i = s := by
  have hnone : s.erg.spilled.filter (fun p => p.slot == i && !((s.slot i).parks.any fun q => q.seq == p.seq && q.entry.jsn == p.jsn)) = [] :=
    List.filter_eq_nil_iff.2 fun p hp => by simp [h p hp]
  unfold State.releaseParks
  rw [hnone]
  rfl

end

/-- The signed record of slot `i` in a close, where its stage entry holds one (R247, R251). -/
def State.closeRec (s : State) (x : Close) (gen : Nat) (seed : Bytes) (i : Nat) : Option Bytes :=
  (s.ctx.stage.find? fun g => g.epoch == x.subj && g.slot == i).bind fun g => g.body.map fun b =>
    overwrite b 120 (le 4 gen) ++ s.signWith gen seed i (overwrite b 120 (le 4 gen))

/-- A slot the sweep finds at the BND_PERIOD, with nothing of its own on the media. -/
def State.quietSlot (s : State) (x : Close) (i : Nat) : Prop :=
  (∀ f ∈ s.ctx.fences, f.bnd = true → f.jsn ≤ x.jsn → f.jsn ≤ (s.slot i).lastJsn) ∧ ∀ p ∈ s.erg.spilled, p.slot ≠ i

section
variable {c : Com} {x : Close} {i : Nat} (gen closed : Nat) (seed recs : Bytes) (h : c.s.quietSlot x i)
include h

theorem sweepSlot_quiet : Com.sweepSlot x gen seed (c, closed, recs) i = match c.s.closeRec x gen seed i with
    | some r => ((c.upd fun s => s.count rCphSigcnt 1).out 2 r, closed + 1, recs ++ r)
    | none => (c, closed, recs) := by
  obtain ⟨hf, hp⟩ := h
  have hc1 : (c.applyFences i (x.jsn + 1)).upd (fun s => s.releaseParks i) = c := by
    rw [applyFences_none fun f hm hb hj => hf f hm hb (Nat.lt_succ_iff.1 hj)]
    exact congrArg (fun s => { c with s := s }) (releaseParks_none hp)
  unfold Com.sweepSlot State.closeRec
  simp only [hc1]
  generalize c.s.ctx.stage.find? (fun g => g.epoch == x.subj && g.slot == i) = found
  rcases found with _ | ⟨_, _, _ | b⟩
  · rfl
  · rfl
  · rfl

end

/-! ### The slots of a step -/

/-- From `c` to `d` the records `R` were signed and handed over, and counted. -/
structure Signed (c d : Com) (R : List Bytes) : Prop where
  frame : d = { c with s := { c.s with regs := d.s.regs }, outs := d.outs }
  wf    : swf regReset d.s.regs = true
  regs  : SameRegs c.s d.s [rCphSigcnt]
  count : d.s.reg rCphSigcnt = min 4294967295 (c.s.reg rCphSigcnt + R.length)
  outs  : ∃ O, d.outs = c.outs ++ O ∧ O.map (·.bytes) = R ∧ ∀ o ∈ O, o.rtype = 2 ∧ o.ojsn = c.ojsn ∧ o.key = c.key ∧ o.dep = c.dep

theorem Signed.nil {c : Com} (h : swf regReset c.s.regs = true) : Signed c c [] := by
  have hlt := c.s.reg_lt rCphSigcnt
  refine ⟨rfl, h, fun _ _ => rfl, ?_, [], by simp, rfl, nofun⟩
  simp only [List.length_nil]
  omega

theorem Signed.one {c : Com} (h : swf regReset c.s.regs = true) (r : Bytes) : Signed c ((c.upd fun s => s.count rCphSigcnt 1).out 2 r) [r] :=
  ⟨rfl, State.count_wf h _ _, fun a ha => State.reg_count_other h _ (by simpa using ha), State.reg_count h _ _, [_], rfl, rfl,
    fun o ho => by rw [List.mem_singleton.1 ho]; exact ⟨rfl, rfl, rfl, rfl⟩⟩

theorem Signed.append {c d e : Com} {Q R : List Bytes} (h : Signed c d Q) (k : Signed d e R) : Signed c e (Q ++ R) := by
  obtain ⟨O, hO, hQ, hall⟩ := h.outs
  obtain ⟨P, hP, hR, pall⟩ := k.outs
  refine ⟨?_, k.wf, fun a ha => (k.regs a ha).trans (h.regs a ha), ?_, O ++ P, by rw [hP, hO, List.append_assoc], by rw [List.map_append, hQ, hR], fun o ho => ?_⟩
  · have hk := k.frame
    rw [h.frame] at hk
    exact hk
  · rw [k.count, h.count, List.length_append]
    omega
  · rcases List.mem_append.1 ho with ho | ho
    · exact hall o ho
    · have hp := pall o ho
      rw [h.frame] at hp
      exact hp

/-- The slots of a step signed in turn. -/
theorem sweepSlots_signed {x : Close} (gen : Nat) (seed : Bytes) (L : List Nat) {c : Com} (hw : swf regReset c.s.regs = true)
    (hq : ∀ i ∈ L, c.s.quietSlot x i) (closed : Nat) (recs : Bytes) : ∃ d, Signed c d (L.filterMap (c.s.closeRec x gen seed)) ∧
      L.foldl (Com.sweepSlot x gen seed) (c, closed, recs) =
        (d, closed + (L.filterMap (c.s.closeRec x gen seed)).length, recs ++ (L.filterMap (c.s.closeRec x gen seed)).flatten) := by
  induction L generalizing c closed recs with
  | nil => exact ⟨c, .nil hw, by simp⟩
  | cons i L ih =>
    rw [List.foldl_cons, sweepSlot_quiet gen closed seed recs (hq i List.mem_cons_self)]
    cases hr : c.s.closeRec x gen seed i with
    | none =>
      obtain ⟨d, hd, he⟩ := ih hw (fun k hk => hq k (List.mem_cons_of_mem _ hk)) closed recs
      rw [List.filterMap_cons_none hr]
      exact ⟨d, hd, he⟩
    | some r =>
      have hone := Signed.one hw r
      have hsame : State.closeRec (((c.upd fun s => s.count rCphSigcnt 1).out 2 r).s) x gen seed = c.s.closeRec x gen seed := rfl
      obtain ⟨d, hd, he⟩ := ih hone.wf (fun k hk => hq k (List.mem_cons_of_mem _ hk)) (closed + 1) (recs ++ r)
      rw [hsame] at hd he
      rw [List.filterMap_cons_some hr]
      refine ⟨d, hone.append hd, he.trans ?_⟩
      simp [Nat.add_assoc, Nat.add_comm 1]

end Sys2Proof.Machine
end

section
/-! SUPPORT. What a sweep step does as a whole, and with its CLOSE_CURSOR (R245, R246, R254, R280). -/
namespace Sys2Proof.Machine

/-! ### The step's commit -/

theorem State.bitOf_irq_lower {s : State} (h : swf regReset s.regs = true) {a k n : Nat} (hn : n < k) (hk : n < 32) : (s.irq a k).bitOf a n = s.bitOf a n := by
  unfold State.irq
  split
  · rfl
  · unfold State.bitOf
    rw [State.reg_setReg h, if_pos rfl, bit_eq_testBit, bit_eq_testBit, Nat.testBit_mod_two_pow, Nat.add_comm, Nat.testBit_two_pow_add_gt hn]
    simp [hk]

/-- The context with the feeder's own part replaced. -/
def Ctx.feederAt (k : Ctx) (f : FeederAgg) (l m : List FeederCap) : Ctx := { k with feeder := f, caps := l, readCaps := m }

theorem feederFences_form (c : Com) (j : Nat) : ∃ f l m, c.feederFences j = c.ctx fun k => k.feederAt f l m := by
  have one (c : Com) (f : Fence) : ∃ a l m, c.feederFence f = c.ctx fun k => k.feederAt a l m := by
    unfold Com.feederFence
    cases f.kind
    all_goals exact ⟨_, _, _, rfl⟩
  unfold Com.feederFences
  generalize c.s.ctx.fences.filter _ = l
  induction l generalizing c with
  | nil => exact ⟨c.s.ctx.feeder, c.s.ctx.caps, c.s.ctx.readCaps, rfl⟩
  | cons f l ih =>
    obtain ⟨a, p, q, hone⟩ := one c f
    obtain ⟨a', p', q', hrest⟩ := ih (c.feederFence f)
    refine ⟨a', p', q', ?_⟩
    rw [List.foldl_cons, hrest, hone]
    rfl

/-- From `c` to `e` a sweep step: the context is `k`, the outputs' bytes `B` and types `T`, and `n` records signed. -/
structure Swept (c e : Com) (x : Close) (k : Ctx) (B : List Bytes) (T : List Nat) (n : Nat) : Prop where
  same  : e.ojsn = c.ojsn ∧ e.key = c.key ∧ e.dep = c.dep
  frame : e.s = { c.s with regs := e.s.regs, ctx := k }
  wf    : swf regReset e.s.regs = true
  regs  : SameRegs c.s e.s [rBilIrq, rCphSigcnt]
  count : e.s.reg rCphSigcnt = min 4294967295 (c.s.reg rCphSigcnt + n)
  shown : x.started = false → e.s.bitOf rBilIrq 0 = true
  outs  : ∃ O, e.outs = c.outs ++ O ∧ O.map (·.bytes) = B ∧ O.map (·.rtype) = T ∧ ∀ o ∈ O, o.ojsn = c.ojsn ∧ o.key = c.key ∧ o.dep = c.dep

theorem Signed.shown {c d : Com} {R : List Bytes} (h : Signed c d R) (x : Close) :
    Swept c (d.upd fun s => s.sweepShown x.started) x c.s.ctx R (R.map fun _ => 2) R.length := by
  obtain ⟨m, hform, hbits⟩ := sweepShown_form d.s x.started
  obtain ⟨hbit, hsame⟩ := hbits h.wf
  obtain ⟨O, hO, hR, hall⟩ := h.outs
  have hs : (d.upd fun s => s.sweepShown x.started).s = d.s.sweepShown x.started := rfl
  refine ⟨?_, ?_, ?_, fun a ha => ?_, ?_, hbit, O, hO, hR, ?_, fun o ho => (hall o ho).2⟩
  · rw [h.frame]
    exact ⟨rfl, rfl, rfl⟩
  · rw [hs, hform, h.frame]
  · rw [hs]
    unfold State.sweepShown
    split
    · exact h.wf
    · exact State.irq_wf h.wf _ _
  · rw [hs]
    simp only [List.mem_cons, List.not_mem_nil, or_false, not_or] at ha
    rw [hsame a (by simp [ha]), h.regs a (by simp [ha])]
  · rw [hs, hsame _ (by decide), h.count]
  · rw [← hR, List.map_map]
    exact List.map_congr_left fun o ho => (hall o ho).1

section
variable {c u : Com} {x : Close} {k : Ctx} {B : List Bytes} {T : List Nat} {n : Nat} (h : Swept c u x k B T n)
include h

theorem Swept.ctx (f : Ctx → Ctx) : Swept c (u.ctx f) x (f k) B T n := by
  refine ⟨h.same, ?_, h.wf, h.regs, h.count, h.shown, h.outs⟩
  show { u.s with ctx := f u.s.ctx } = { c.s with regs := u.s.regs, ctx := f k }
  rw [h.frame]

/-- An output more. -/
theorem Swept.out (ty : Nat) (p : Bytes) : Swept c (u.out ty p) x k (B ++ [p]) (T ++ [ty]) n := by
  obtain ⟨O, hO, hB, hT, hall⟩ := h.outs
  refine ⟨h.same, h.frame, h.wf, h.regs, h.count, h.shown, O ++ [u.output ty p], ?_, ?_, ?_, fun o hm => ?_⟩
  · rw [← List.append_assoc, ← hO]
    rfl
  · rw [List.map_append, hB]
    rfl
  · rw [List.map_append, hT]
    rfl
  · rcases List.mem_append.1 hm with hm | hm
    · exact hall o hm
    · rw [List.mem_singleton.1 hm]
      exact h.same

/-- The step's own entry and instant in place of the boundary's, for the event that follows. -/
theorem Swept.under (j t : Nat) : Swept c { u with jsn := j, stamp := t } x k B T n := ⟨h.same, h.frame, h.wf, h.regs, h.count, h.shown, h.outs⟩

theorem Swept.event (cls arg : Nat) : ∃ sev rest, rest.length = 32 ∧ (u.event cls arg).s = u.s ∧
    Swept c (u.event cls arg) x k (B ++ [eventBytes cls sev arg rest]) (T ++ [8]) n := by
  obtain ⟨sev, rest, hrest, hev⟩ := event_form u cls arg
  refine ⟨sev, rest, hrest, by rw [hev], ?_⟩
  rw [hev]
  have ho := h.out 8 (eventBytes cls sev arg rest)
  exact ⟨ho.same, ho.frame, ho.wf, ho.regs, ho.count, ho.shown, ho.outs⟩

/-- A signature more is counted. -/
theorem Swept.counted : Swept c (u.upd fun s => s.count rCphSigcnt 1) x k B T (n + 1) := by
  refine ⟨h.same, ?_, State.count_wf h.wf _ _, fun a ha => ?_, ?_, fun hs => ?_, h.outs⟩
  · show u.s.count rCphSigcnt 1 = { c.s with regs := (u.s.count rCphSigcnt 1).regs, ctx := k }
    generalize hm : (u.s.count rCphSigcnt 1).regs = m
    have hc : u.s.count rCphSigcnt 1 = { u.s with regs := (u.s.count rCphSigcnt 1).regs } := rfl
    rw [hc, hm, h.frame]
  · exact (State.reg_count_other h.wf 1 fun e => ha (by simp [e])).trans (h.regs a ha)
  · refine (State.reg_count h.wf _ _).trans ?_
    rw [h.count]
    omega
  · refine Eq.trans ?_ (h.shown hs)
    unfold State.bitOf
    exact congrArg (bit 0) (State.reg_count_other h.wf 1 (by decide))

/-- The end of the close is shown. -/
theorem Swept.ended : Swept c (u.upd fun s => s.irq rBilIrq 1) x k B T n := by
  refine ⟨h.same, ?_, State.irq_wf h.wf _ _, fun a ha => ?_, ?_, fun hs => ?_, h.outs⟩
  · show u.s.irq rBilIrq 1 = { c.s with regs := (u.s.irq rBilIrq 1).regs, ctx := k }
    generalize hm : (u.s.irq rBilIrq 1).regs = m
    rw [State.irq_eq, hm, h.frame]
  · exact (State.reg_irq_other h.wf 1 fun e => ha (by simp [e])).trans (h.regs a ha)
  · exact (State.reg_irq_other h.wf 1 (by decide)).trans h.count
  · exact (State.bitOf_irq_lower h.wf (by decide) (by decide)).trans (h.shown hs)

end

theorem upd_sweepShown (c : Com) (b : Bool) : (if b = true then c else c.upd fun s => s.irq rBilIrq 0) = c.upd fun s => s.sweepShown b := by
  unfold State.sweepShown
  cases b with
  | false => rfl
  | true => rfl

/-- The context once a step's slots are signed and more are left. -/
def Ctx.sweptOn (k : Ctx) (x : Close) (R : List Bytes) : Ctx :=
  { k with closes := k.closes.map fun y => if y.subj == x.subj then
      { y with cursor := x.cursor + 256, closed := x.closed + R.length, recs := x.recs ++ R.flatten, started := true, draw := none } else y }

/-- The context once the last step has ended the close. -/
def Ctx.sweptLast (k : Ctx) (x : Close) (R : List Bytes) : Ctx :=
  { k with epoch := x.subj + 1, closes := k.closes.filter fun y => y.subj ≠ x.subj, closeLast := x.closed + R.length, lastRo := max k.lastRo x.jsn,
           stage := k.stage.filter fun g => g.epoch ≠ x.subj, caps := k.caps.filter fun f => f.period ≠ x.subj }

section
variable {k : Ctx} {x : Close} {r : List Close} {R : List Bytes} (h : k.closes = x :: r) (hr : ∀ y ∈ r, y.subj ≠ x.subj)
include h hr

theorem closes_sweptOn : (k.sweptOn x R).closes =
    { x with cursor := x.cursor + 256, closed := x.closed + R.length, recs := x.recs ++ R.flatten, started := true, draw := none } :: r := by
  unfold Ctx.sweptOn
  rw [h]
  dsimp only
  rw [List.map_cons, if_pos (by simp), List.map_congr_left fun y hy => if_neg (by simpa using hr y hy), List.map_id']

theorem closes_sweptLast : (k.sweptLast x R).closes = r := by
  unfold Ctx.sweptLast
  rw [h]
  dsimp only
  rw [List.filter_cons_of_neg (by simp), List.filter_eq_self.2 fun y hy => by simpa using hr y hy]

end

section
variable {c : Com} {x : Close} {seed : Bytes} {R : List Bytes} (hw : swf regReset c.s.regs = true) (hq : ∀ i ∈ c.s.sweepSlots x.cursor, c.s.quietSlot x i)
  (hR : R = (c.s.sweepSlots x.cursor).filterMap (c.s.closeRec x (c.s.ctx.sigGenAt x.jsn) seed)) (cj cs : Nat)
include hw hq hR

theorem sweepStep_goes_on (hn : x.cursor + 256 < slotCount) :
    Swept c (c.sweepStep x seed cj cs) x (c.s.ctx.sweptOn x R) R (R.map fun _ => 2) R.length := by
  obtain ⟨d, hd, hfold⟩ := sweepSlots_signed (c.s.ctx.sigGenAt x.jsn) seed (c.s.sweepSlots x.cursor) hw hq x.closed x.recs
  rw [← hR] at hd hfold
  have hstep : c.sweepStep x seed cj cs = (d.upd fun s => s.sweepShown x.started).ctx fun k => k.sweptOn x R := by
    unfold Com.sweepStep
    simp only [hfold, if_pos hn, upd_sweepShown]
    rfl
  rw [hstep]
  exact (hd.shown x).ctx fun k => k.sweptOn x R

/-- The last step adds the readout and the event of the close (R246, R254). -/
theorem sweepStep_ends (hn : slotCount ≤ x.cursor + 256) : ∃ f l m p q sev rest, p.length = 400 ∧ p.take 2 = le 1 3 ++ le 1 1 ∧ q = eventBytes 0x0D sev x.subj rest ∧
    rest.length = 32 ∧ Swept c (c.sweepStep x seed cj cs) x ((c.s.ctx.feederAt f l m).sweptLast x R) (R ++ [p, q])
      (R.map (fun _ => 2) ++ [3, 8]) (R.length + 1) ∧ (c.sweepStep x seed cj cs).s.bitOf rBilIrq 1 = true := by
  obtain ⟨d, hd, hfold⟩ := sweepSlots_signed (c.s.ctx.sigGenAt x.jsn) seed (c.s.sweepSlots x.cursor) hw hq x.closed x.recs
  rw [← hR] at hd hfold
  have hsw := hd.shown x
  generalize hu : (d.upd fun s => s.sweepShown x.started) = u at hsw
  obtain ⟨f, l, m, hfen⟩ := feederFences_form u (x.jsn + 1)
  have hfed : Swept c (u.feederFences (x.jsn + 1)) x (c.s.ctx.feederAt f l m) R (R.map fun _ => 2) R.length := by
    rw [hfen]
    exact hsw.ctx fun k => k.feederAt f l m
  obtain ⟨p, v, hlen, hp, hv, hstep⟩ : ∃ p v, p.length = 400 ∧ p.take 2 = le 1 3 ++ le 1 1 ∧
      Swept c v x ((c.s.ctx.feederAt f l m).sweptLast x R) (R ++ [p]) (R.map (fun _ => 2) ++ [3]) (R.length + 1) ∧
      c.sweepStep x seed cj cs = (v.upd fun s => s.irq rBilIrq 1).event 0x0D x.subj := by
    unfold Com.sweepStep
    simp only [hfold, if_neg (Nat.not_lt.2 hn), upd_sweepShown, hu]
    refine ⟨_, _, ?_, ?_, ((hfed.counted.out 3 _).ctx fun k => k.sweptLast x R).under cj cs, rfl⟩
    · rw [List.length_append, readoutBody_length, signWith_length]
    · unfold readoutBody
      simp [le]
  obtain ⟨sev, rest, hrest, hsame, hev⟩ := hv.ended.event 0x0D x.subj
  refine ⟨f, l, m, p, _, sev, rest, hlen, hp, rfl, hrest, ?_, ?_⟩
  · rw [hstep, show R ++ [p, eventBytes 0x0D sev x.subj rest] = (R ++ [p]) ++ [eventBytes 0x0D sev x.subj rest] by simp, List.append_cons (R.map _)]
    exact hev
  · rw [hstep, hsame]
    exact State.irq_set hv.wf (by decide)

end

/-! ### The step with its CLOSE_CURSOR -/

theorem scrub_foldl_clean {s : State} (h : s.arb.flips = []) (L : List Nat) : L.foldl State.scrub s = s := by
  induction L with
  | nil => rfl
  | cons i L ih =>
    have hone : s.scrub i = s := scrubKey_clean h (.slot i)
    rw [List.foldl_cons, hone, ih]

theorem note_closeCursor (k : Ctx) {e : Entry} (h : e.kind = .closeCursor) : ∃ b l, k.note e = { k with began := b, closeEnds := l } := by
  unfold Ctx.note
  rw [h]
  dsimp only
  split
  · exact ⟨_, _, rfl⟩
  · exact ⟨_, _, rfl⟩

theorem endSweep_form (s : State) (n : Nat) : ∃ ks, s.endSweep n = { s with erg := { s.erg with keys := ks } } := by
  unfold State.endSweep
  split
  · split
    · exact ⟨_, rfl⟩
    · exact ⟨s.erg.keys, rfl⟩
  · exact ⟨s.erg.keys, rfl⟩

/-- What follows the entry: the task, the pool and the dunes. -/
theorem swept_tidies (w : State) (n : Nat) : ∃ z, z = ((w.endSweep n).poolCheck).leaveDunes ∧
    z = { w with regs := z.regs, erg := { w.erg with keys := z.erg.keys, poolFull := z.erg.poolFull, dunes := z.erg.dunes } } ∧
    (swf regReset w.regs = true → SameRegs w z [rErgIrq]) := by
  obtain ⟨ks, hend⟩ := endSweep_form w n
  obtain ⟨m, f, hpool, hregs⟩ := poolCheck_form (w.endSweep n)
  obtain ⟨d, hleave⟩ := leaveDunes_form (w.endSweep n).poolCheck
  refine ⟨_, rfl, ?_, fun hw a ha => ?_⟩
  · rw [hleave, hpool, hend]
  · rw [hleave]
    rw [hend] at hregs ⊢
    exact hregs hw a ha

/-- An entry of the unit's own is journaled: the release queue and the registers stay. -/
theorem journaled_own (s : State) (kind : Kind) (payload : Bytes) {w : State} (hw : w = s.journalOwn kind payload) : ∃ y : Entry, y.kind = kind ∧ y.payload = payload ∧
    w.seq.journal = s.seq.journal ++ [y] ∧ y.jsn = s.seq.nextJsn ∧ w.erg.outq = s.erg.outq ∧ w.ctx = s.ctx.note y ∧ w.regs = s.regs := by
  obtain ⟨_, _, _, _, _, q, hform, hq, -⟩ := append_form s kind .normal {} s.dev (s.inputFlags s.dev) payload
  have hwf := hw.trans hform
  refine ⟨s.entryOf kind .normal {} s.dev (s.inputFlags s.dev) payload, rfl, rfl, ?_, rfl, ?_, ?_, ?_⟩
  · rw [hwf]
    show q.journal = _
    rw [hq]
  · rw [hwf]
  · rw [hwf]
  · rw [hwf]

/-- Cells of outputs of these bytes. -/
theorem cellsOf_bytes (l : List Output) : cellsOf l = ((l.map (·.bytes)).map fun b => ceilDiv (16 + b.length) 64).sum := by
  unfold cellsOf
  rw [List.map_map]
  rfl

/-- A step whose outputs find room: they join the release queue, the CLOSE_CURSOR is journaled, and the context is as the commit leaves it but for its note
of that entry. -/
theorem closeStep_done {s : State} {x : Close} {seed : Bytes} (hfl : s.arb.flips = []) (hf : ∀ i ∈ s.sweepSlots x.cursor, (s.slot i).fault = false)
    {e : Com} {k : Ctx} {B : List Bytes} {T : List Nat} {n : Nat} (he : e = (s.sweepCom x s.seq.nextJsn).sweepStep x seed s.seq.nextJsn s.dev)
    (hs : Swept (s.sweepCom x s.seq.nextJsn) e x k B T n) (hroom : s.cellsUsed + (B.map fun b => ceilDiv (16 + b.length) 64).sum ≤ 65536) (hh : k.heldPers = []) :
    ∃ t y O b l, s.closeStep x seed = some t ∧ t.seq.journal = s.seq.journal ++ [y] ∧ y.kind = .closeCursor ∧ y.jsn = s.seq.nextJsn ∧
      y.payload = le 4 x.subj ++ le 4 (x.cursor + 256) ∧ t.erg.outq = s.erg.outq ++ O ∧ (∀ o ∈ O, o.ojsn = y.jsn ∧ o.key = .sys 6 ∧ o.dep = (s.sweepCom x s.seq.nextJsn).dep) ∧
      O.map (·.bytes) = B ∧ O.map (·.rtype) = T ∧ t.ctx = { k with began := b, closeEnds := l } ∧ SameRegs e.s t [rErgIrq] ∧
      SameRegs s t [rBilIrq, rCphSigcnt, rErgIrq] ∧ t.reg rCphSigcnt = min 4294967295 (s.reg rCphSigcnt + n) ∧ (x.started = false → t.bitOf rBilIrq 0 = true) := by
  obtain ⟨O, hO, hB, hT, hall⟩ := hs.outs
  have hO' : e.outs = O := hO
  have hroom' : e.roomForOuts = true := by
    refine (roomForOuts_iff e).2 ?_
    have hused : e.s.cellsUsed = s.cellsUsed := by rw [hs.frame]; rfl
    rw [hused, hO', cellsOf_bytes, hB]
    exact hroom
  obtain ⟨w, hw⟩ : ∃ w, w = e.finish.journalOwn .closeCursor (le 4 x.subj ++ le 4 (x.cursor + 256)) := ⟨_, rfl⟩
  obtain ⟨y, hk, hpay, hj, hjsn, houtq, hctx, hregs⟩ := journaled_own e.finish .closeCursor (le 4 x.subj ++ le 4 (x.cursor + 256)) hw
  obtain ⟨b, l, hnote⟩ := note_closeCursor e.finish.ctx hk
  obtain ⟨z, hz, hze, hzregs⟩ := swept_tidies w x.subj
  have hseq : e.finish.seq = s.seq := by show e.s.seq = _; rw [hs.frame]; rfl
  have hk' : e.finish.ctx = k := by show e.s.ctx = _; rw [hs.frame]
  have hheld : z.ctx.heldPers = [] := by rw [hze, hctx, hnote, hk']; exact hh
  have hsame : SameRegs e.s z [rErgIrq] := fun a ha => (hzregs (by rw [hregs]; exact hs.wf) a ha).trans (State.reg_of_regs hregs a)
  refine ⟨z, y, O, b, l, ?_, ?_, hk, by rw [hjsn, hseq], hpay, ?_, fun o ho => ?_, hB, hT, ?_, hsame, fun a ha => ?_, (hsame _ (by decide)).trans hs.count, fun h => ?_⟩
  · unfold State.closeStep
    rw [scrub_foldl_clean hfl]
    dsimp only
    rw [if_neg (by simpa using hf), ← he, if_pos hroom', ← hw, ← hz]
    unfold State.releaseHeldPeriod
    rw [hheld]
  · rw [hze]
    show w.seq.journal = _
    rw [hj, hseq]
  · rw [hze]
    show w.erg.outq = _
    rw [houtq]
    show e.s.erg.outq ++ e.outs = _
    rw [hs.frame, hO']
    rfl
  · rw [hjsn, hseq]
    exact hall o ho
  · rw [hze, hctx, hnote, hk']
  · simp only [List.mem_cons, List.not_mem_nil, or_false, not_or] at ha
    exact (hsame a (by simp [ha])).trans (hs.regs a (by simp [ha]))
  · unfold State.bitOf
    rw [hsame _ (by decide)]
    exact hs.shown h

/-! ### Room for a step's outputs -/

theorem closeRec_length {s : State} {x : Close} {gen i : Nat} {seed r : Bytes} (hb : ∀ g ∈ s.ctx.stage, ∀ b, g.body = some b → b.length ≤ 1024)
    (h : s.closeRec x gen seed i = some r) : r.length ≤ 1092 := by
  unfold State.closeRec at h
  obtain ⟨g, hg, h⟩ := Option.bind_eq_some_iff.1 h
  obtain ⟨b, hbody, rfl⟩ := Option.map_eq_some_iff.1 h
  have hlen := hb g (List.mem_of_find?_eq_some hg) b hbody
  unfold overwrite
  simp only [List.length_append, List.length_take, List.length_drop, le_length, signWith_length]
  omega

/-- Each record takes at most 18 cells. -/
theorem closeRecs_cells {s : State} {x : Close} {gen : Nat} {seed : Bytes} (hb : ∀ g ∈ s.ctx.stage, ∀ b, g.body = some b → b.length ≤ 1024) (L : List Nat) :
    (((L.filterMap (s.closeRec x gen seed)).map fun b => ceilDiv (16 + b.length) 64).sum) ≤ L.length * 18 := by
  have hle := List.sum_le_card_nsmul ((L.filterMap (s.closeRec x gen seed)).map fun b => ceilDiv (16 + b.length) 64) 18 fun n hn => by
    obtain ⟨r, hr, rfl⟩ := List.mem_map.1 hn
    obtain ⟨i, -, hi⟩ := List.mem_filterMap.1 hr
    have hlen := closeRec_length hb hi
    unfold ceilDiv
    omega
  rw [List.length_map, smul_eq_mul] at hle
  exact hle.trans (Nat.mul_le_mul_right _ (List.length_filterMap_le ..))

theorem eventBytes_length {cls sev arg : Nat} {rest : Bytes} (h : rest.length = 32) : (eventBytes cls sev arg rest).length = 40 := by
  unfold eventBytes
  simp [h]

/-- The readout and the event of the last step take 8 cells more. -/
theorem lastRecs_cells (R : List Bytes) {p q : Bytes} (hp : p.length = 400) (hq : q.length = 40) :
    ((R ++ [p, q]).map fun b => ceilDiv (16 + b.length) 64).sum ≤ (R.map fun b => ceilDiv (16 + b.length) 64).sum + 8 := by
  simp [ceilDiv, hp, hq]

/-! ### The statement -/

/-- Settles O42: the draw's entry, the step's commit with its CLOSE_CURSOR, and the group's turn at and below the commit watermark. -/
theorem closesSweepAndScore : Obligations.ClosesSweepAndScore := by
  refine ⟨fun s x r hinv hc ht ha hh hm hn hd hfew => ?_,
    fun s x r j gen w L R hinv hc ht ha hh hm hn hheld hcells hfl hr hL hfew hb hslots hsp hgen hR => ?_,
    fun g s x e l hinv hx hk hw hp he hg hm ha hcells hd _ hl hfew => ?_,
    fun g s x hx hk hw hp he hm ha => ?_⟩
  · obtain ⟨data, hexec, hdata⟩ := exec_closeSweepStep_draw hc ht ha hh hm hn hd
    generalize hb : s.journalDraw (0xC1000000 + x.cursor / 256) 40 = b at hexec hdata
    obtain ⟨e, hj, hk, hjsn, hpay, houtq, hregs⟩ := drawn_journal s (0xC1000000 + x.cursor / 256) hfew hb.symm
    obtain ⟨m, hform, hshown⟩ := sweepShown_form b x.started
    obtain ⟨hbit, hsame⟩ := hshown (hregs ▸ hinv.1)
    have hdata' : data = e.payload.drop 4 := by rw [hdata, hj, List.getLast?_concat]
    refine ⟨_, e, hexec, ?_, hk, hjsn, hpay, ?_, ?_, hbit, fun a ha => ?_⟩
    · rw [hform]
      exact hj
    · rw [hjsn, ← hdata']
      rfl
    · rw [hform]
      exact houtq
    · refine (hsame a ha).trans ?_
      unfold State.reg
      rw [hregs]
  · have hexec := exec_closeSweepStep_sign hc ht ha hh hm hn
    subst hL hgen
    have hR' : R = (s.sweepSlots x.cursor).filterMap (s.closeRec x (s.ctx.sigGenAt x.jsn) (s.unwrapJ w)) := hR
    have hq : ∀ i ∈ s.sweepSlots x.cursor, s.quietSlot x i := fun i hi => ⟨(hslots i hi).2, fun p hp e => hsp p hp (e ▸ hi)⟩
    have hroom := closeRecs_cells (x := x) (gen := s.ctx.sigGenAt x.jsn) (seed := s.unwrapJ w) hb (s.sweepSlots x.cursor)
    rw [← hR'] at hroom
    have hdep : (s.sweepCom x s.seq.nextJsn).dep = max x.jsn j := by
      unfold State.sweepCom
      rw [hn]
    by_cases hlast : x.cursor + 256 < slotCount
    · have hsw := sweepStep_goes_on (c := s.sweepCom x s.seq.nextJsn) hinv.1 hq hR' s.seq.nextJsn s.dev hlast
      obtain ⟨t, y, O, b, l, hstep, hj, hk, hjsn, hpay, hout, hall, hbytes, htypes, hctx, -, hsame, hcount, hshown⟩ :=
        closeStep_done hfl (fun i hi => (hslots i hi).1) rfl hsw (by omega) hheld
      rw [hstep] at hexec
      refine ⟨t, y, O, hexec, hj, hk, hjsn, hpay, hout, hdep ▸ hall, hshown, hsame, by rw [hctx]; rfl, fun _ => ⟨?_, hbytes, fun o ho => ?_, hcount⟩,
        fun h => absurd hlast (Nat.not_lt.2 h)⟩
      · rw [hctx]
        exact closes_sweptOn hc hr
      · have htype : o.rtype ∈ O.map (·.rtype) := List.mem_map_of_mem ho
        rw [htypes] at htype
        exact (List.mem_map.1 htype).choose_spec.2.symm
    · obtain ⟨f, cl, rl, p, q, sev, rest, hp, hphead, rfl, hrest, hsw, hend⟩ :=
        sweepStep_ends (c := s.sweepCom x s.seq.nextJsn) hinv.1 hq hR' s.seq.nextJsn s.dev (Nat.not_lt.1 hlast)
      have htwo := lastRecs_cells R hp (eventBytes_length (cls := 0x0D) (sev := sev) (arg := x.subj) hrest)
      obtain ⟨t, y, O, b, l, hstep, hj, hk, hjsn, hpay, hout, hall, hbytes, htypes, hctx, hregs, hsame, hcount, hshown⟩ :=
        closeStep_done hfl (fun i hi => (hslots i hi).1) rfl hsw (by omega) hheld
      rw [hstep] at hexec
      refine ⟨t, y, O, hexec, hj, hk, hjsn, hpay, hout, hdep ▸ hall, hshown, hsame, by rw [hctx]; rfl, fun h => absurd h hlast,
        fun _ => ⟨?_, by rw [hctx]; rfl, by rw [hctx]; rfl, ?_, fun g hg => ?_, p, _, hbytes, htypes, hphead, eventBytes_class, eventBytes_arg, hcount⟩⟩
      · rw [hctx]
        exact closes_sweptLast (R := R) hc hr
      · unfold State.bitOf
        rw [hregs _ (by decide)]
        exact hend
      · rw [hctx] at hg
        simpa using (List.mem_filter.1 hg).2
  · subst hl
    obtain ⟨d, hc, hexec⟩ := exec_balanceClose hx hk hw hp he hg hm ha hcells hd hfew
    obtain ⟨O, hO, hall, hstarts, -⟩ := hc.outs
    obtain ⟨m, f, u, hform, hregs⟩ := committed_form s (.group g) (d.ctx fun k => { k with snaps := k.snaps.filter fun y => !(y.fence == x.jsn && y.group == g.val) })
    have hds : d.s = { s with ctx := { s.ctx with groups := d.s.ctx.groups } } := by rw [hc.frame]; rfl
    refine ⟨_, O, hexec, ?_, fun o ho => ?_, hstarts, fun o ho h4 => ?_, ?_, fun g' hg' => ?_, fun a ha' => ?_, ?_, ?_⟩
    · rw [hform]
      show d.s.erg.outq ++ d.outs = _
      rw [hO, hds]
      rfl
    · rcases hall o ho with ⟨hr, hj, hkey⟩ | ⟨t0, r⟩
      · exact ⟨.inr hr, hj, hkey.trans hk⟩
      · exact ⟨.inl r.rtype, r.ojsn, r.key.trans hk⟩
    · rcases hall o ho with ⟨hr, -⟩ | ⟨t0, r⟩
      · rw [h4] at hr
        cases hr
      · exact ⟨r.head, r.group, r.stamp⟩
    · rw [hform]
      exact hc.cells
    · rw [hform]
      exact hc.other g' hg'
    · have hd' : d.s.regs = s.regs := by rw [hds]
      have hsame := hregs (by show swf regReset d.s.regs = true; rw [hd']; exact hinv.1) a ha'
      refine hsame.trans ?_
      show d.s.reg a = s.reg a
      unfold State.reg
      rw [hd']
    · rw [hform]
      show d.s.seq = _
      rw [hds]
    · rw [hform]
      show d.s.ctx.slots = _
      rw [hds]
  · rw [exec_balanceClose_turn hx he, turn_runs hx (.inl hp) rfl rfl ha rfl, runTask_balance_waits hk hw hm]
    show Host.Outcome.next (s.setHead _ { x with phase := .committing }) = _
    rw [← hp]

end Sys2Proof.Machine
end

section
/-! SUPPORT. The arbiter's quota window and the clear of ARB_LATMAX (R176, R180, R182, R183). -/
namespace Sys2Proof.Machine

/-- The quota window after the next begins: it starts with the grants that waited for it, if it is the one they waited for (R176, R180). -/
theorem Arb.roll_succ {a : Arb} {w : Nat} (h : a.window ≤ w) :
    a.roll (w + 1) = { a with window := w + 1, rad := if w = a.window then a.nrad else 0, plc := if w = a.window then a.nplc else 0,
                              banks := if w = a.window then a.nbanks else [], nrad := 0, nplc := 0, nbanks := [] } := by
  unfold Arb.roll
  rw [if_pos (Nat.lt_succ_of_le h)]
  simp

/-- Settles O28: the window's end by the window that its counts waited for, the clear by the one register it writes. -/
theorem arbiterWindowAndClear : Obligations.ArbiterWindowAndClear := by
  unfold Obligations.ArbiterWindowAndClear
  refine ⟨?_, ?_⟩
  · rintro s s1 w hw rfl
    have hle : s.arb.window ≤ w := hw ▸ Nat.le_max_left _ _
    show execArbWindowEnd s = _
    unfold execArbWindowEnd
    dsimp only
    rw [← hw, State.until_arb, Arb.roll_succ hle]
    rfl
  · rintro w s ⟨hregs, -⟩
    have hclear := State.reg_setReg hregs rArbLatmax 0
    exact ⟨(s.setReg rArbLatmax 0).answer w .done, rfl, hclear rArbLatmax, by cases w <;> rfl,
      fun a ha => State.reg_setReg_other hregs 0 (by simpa using ha), rfl⟩

end Sys2Proof.Machine
end

section
/-! SUPPORT. Frames of the radio on air: whitening is its own inverse, and a frame sent is the frame received (R332, R333, R352). -/
namespace Sys2Proof.Machine

/-! ### Bits and bytes -/

theorem bytesBitsL_cons (b : Byte) (bs : Bytes) : bytesBitsL (b :: bs) = (List.range 8).map (fun i => b.getLsbD i) ++ bytesBitsL bs := rfl

@[simp] theorem bytesBitsL_length (bs : Bytes) : (bytesBitsL bs).length = 8 * bs.length := by
  induction bs with
  | nil => rfl
  | cons b bs ih => rw [bytesBitsL_cons, List.length_append, ih]; simp; omega

@[simp] theorem bitsBytes_length (n : Nat) (l : List Bool) : (bitsBytes n l).length = n := by
  induction n generalizing l with
  | zero => rfl
  | succ n ih => simp [bitsBytes, ih]

/-- The number that bits spell has these bits. -/
theorem bitsVal_testBit (l : List Bool) (i : Nat) : (bitsVal l).testBit i = l.getD i false := by
  induction l generalizing i with
  | nil => simp [bitsVal]
  | cons b l ih =>
    cases i with
    | zero => cases b <;> simp [bitsVal, Nat.testBit_zero, Nat.add_mod]
    | succ i =>
      have hhalf : ((if b then 1 else 0) + 2 * bitsVal l) / 2 = bitsVal l := by split <;> omega
      rw [bitsVal, Nat.testBit_succ, hhalf, ih]
      rfl

/-- Eight bits are the bits of the byte they spell. -/
theorem byteBits_ofVal {l : List Bool} (h : l.length = 8) : (List.range 8).map (fun i => (BitVec.ofNat 8 (bitsVal l)).getLsbD i) = l := by
  refine List.ext_getElem (by simp [h]) fun i hi _ => ?_
  have hi8 : i < 8 := by simpa using hi
  rw [List.getElem_map, List.getElem_range, BitVec.getLsbD_ofNat, bitsVal_testBit, List.getD_eq_getElem _ _ (by omega)]
  simp [hi8]

/-- A byte is spelt by its bits. -/
theorem ofVal_byteBits (b : Byte) : BitVec.ofNat 8 (bitsVal ((List.range 8).map fun i => b.getLsbD i)) = b := by
  refine BitVec.eq_of_getLsbD_eq fun i hi => ?_
  rw [BitVec.getLsbD_ofNat, bitsVal_testBit, List.getD_eq_getElem _ _ (by simpa using hi)]
  simp [hi]

theorem bytesBitsL_bitsBytes (n : Nat) (l : List Bool) (h : l.length = 8 * n) : bytesBitsL (bitsBytes n l) = l := by
  induction n generalizing l with
  | zero => exact (List.eq_nil_of_length_eq_zero h).symm
  | succ n ih =>
    rw [bitsBytes, bytesBitsL_cons, byteBits_ofVal (by rw [List.length_take]; omega), ih _ (by rw [List.length_drop]; omega), List.take_append_drop]

theorem bitsBytes_bytesBitsL (bs : Bytes) : bitsBytes bs.length (bytesBitsL bs) = bs := by
  induction bs with
  | nil => rfl
  | cons b bs ih =>
    rw [bytesBitsL_cons, List.length_cons, bitsBytes, List.take_append_of_le_length (by simp), List.take_of_length_le (by simp), ofVal_byteBits,
      List.drop_append_of_le_length (by simp), List.drop_eq_nil_of_le (by simp), List.nil_append, ih]

/-! ### Whitening -/

@[simp] theorem pn9_length (n : Nat) (l : List Bool) : (pn9 n l).length = n := by
  induction n generalizing l with
  | zero => rfl
  | succ n ih => simp [pn9, ih]

/-- Adding a sequence twice takes it off again. -/
theorem zipWith_xor_twice (l p : List Bool) (h : l.length ≤ p.length) :
    List.zipWith (fun x y => x != y) (List.zipWith (fun x y => x != y) l p) p = l := by
  induction l generalizing p with
  | nil => simp
  | cons a l ih =>
    cases p with
    | nil => simp at h
    | cons b p => simp [ih p (by simpa using h)]

@[simp] theorem whiten_length (b : Bytes) : (whiten b).length = b.length := bitsBytes_length _ _

/-- Whitening a PSDU twice leaves it as it was. -/
theorem whiten_whiten (b : Bytes) : whiten (whiten b) = b := by
  have hbits : bytesBitsL (whiten b) = List.zipWith (fun x y => x != y) (bytesBitsL b) (pn9 (8 * b.length) (List.replicate 9 true)) :=
    bytesBitsL_bitsBytes _ _ (by simp)
  rw [whiten, hbits, whiten_length, zipWith_xor_twice _ _ (by simp), bitsBytes_bytesBitsL]

/-! ### The frame on air -/

theorem radFcs_length (fcs4 : Bool) (b : Bytes) : (radFcs fcs4 b).length = if fcs4 then 4 else 2 := by
  cases fcs4
  · exact le_length 2 _
  · exact le_length 4 _

/-- A frame with its FCS behind it, whitened or not, is received as the frame. -/
theorem psduFrame_sent (fcs4 dw : Bool) (frame : Bytes) :
    psduFrame fcs4 dw (if dw then whiten (frame ++ radFcs fcs4 frame) else frame ++ radFcs fcs4 frame) = some frame := by
  have hplain : (if dw then whiten (if dw then whiten (frame ++ radFcs fcs4 frame) else frame ++ radFcs fcs4 frame)
      else (if dw then whiten (frame ++ radFcs fcs4 frame) else frame ++ radFcs fcs4 frame)) = frame ++ radFcs fcs4 frame := by
    cases dw
    · rfl
    · exact whiten_whiten _
  unfold psduFrame
  rw [hplain]
  simp only [List.length_append, radFcs_length, Nat.add_sub_cancel, List.drop_left, List.take_left, if_true]

/-- What a frame on air is made of (R332, R333). -/
theorem airFrame_fields {s : State} {ch air pre at_ : Nat} {frame : Bytes} {x : AirFrame} (hx : x = s.airFrame ch air pre at_ frame) :
    x.chan = ch % 4096 ∧ x.mode = ch / 4096 ∧ x.hz = s.reg rRadBase + ch % 4096 * s.fld rRadSpacing 18 0 ∧
    x.pre = pre ∧ x.phr.modeSwitch = false ∧ x.phr.len = frame.length + (if s.bitOf rRadPhy 13 then 4 else 2) ∧ x.stop = at_ + air ∧
    psduFrame x.phr.fcs4 x.phr.dw x.psdu = some frame := by
  subst hx
  refine ⟨rfl, rfl, rfl, rfl, rfl, ?_, rfl, psduFrame_sent _ _ _⟩
  show (frame ++ radFcs _ frame).length = _
  rw [List.length_append, radFcs_length]

/-! ### The seen caches -/

/-- 60 s after its insertion the oldest entry of a seen cache is no longer in force (R368). -/
theorem seenLive_expired {x : Seen} {r : List Seen} {t due : Nat} (h : due = x.at_ + 60 * second) :
    seenLive (x :: r) (max t due) = r.filter fun y => decide (max t due < y.at_ + 60 * second) := by
  unfold seenLive
  rw [List.filter_cons_of_neg]
  simp
  omega

end Sys2Proof.Machine
end

section
/-! SUPPORT. The acknowledgement that waits alone, at its instant (R343 to R347, R371, R376). -/
namespace Sys2Proof.Machine

/-- What is left of the state once no acknowledgement waits. -/
def State.noAcks (s : State) : State := { s with rad := { s.rad with acks := [] } }

section
variable {s : State} {a : PendAck}

/-- The radio may transmit as before time passed. -/
theorem until_radTx (d : Nat) : (s.until d).noAcks.radTx = s.radTx := by
  have hregs : (s.until d).noAcks.regs = s.regs := State.until_regs s d
  have hsef : (s.until d).noAcks.sef = s.sef := State.until_sef s d
  unfold State.radTx State.bitOf State.reg
  rw [hregs, hsef]

theorem payTrain_idle (h : s.rad.xch = none) : s.payTrain = s := by
  unfold State.payTrain
  rw [h]

theorem retrain_idle (h : s.rad.xch = none) : s.retrain = s := by
  unfold State.retrain
  rw [h]

theorem ackLost_idle (h : s.rad.xch = none) : s.ackLost a = s := by
  unfold State.ackLost
  rw [h]

/-- The one acknowledgement that waits is taken up at its instant. -/
theorem ackTaken (ha : s.rad.acks = [a]) (hx : s.rad.xch = none) :
    ((s.until a.due).setRad fun r => { r with acks := r.acks.erase a }).payTrain = (s.until a.due).noAcks := by
  have hrad : (s.until a.due).rad = s.rad := State.until_rad s _
  rw [payTrain_idle (by show (s.until a.due).rad.xch = none; rw [hrad, hx])]
  unfold State.setRad State.noAcks
  dsimp only
  rw [hrad, ha, List.erase_cons_head]

theorem ackFrame_length (dpend : Bool) : (ackFrame a dpend).length = if a.join.isSome then ackLen + 11 else ackLen := by
  unfold ackFrame ackLen
  cases a.join <;> simp

/-- Charging a transmission moves the budget, and of the registers at most RAD_IRQ (R371, R373). -/
theorem charge_spends (cost : Nat) : s.charge cost =
    { s with regs := (s.charge cost).regs, rad := { s.rad with budget := s.budgetAt s.t - cost, budgetAt := s.t } } := by
  unfold State.charge
  dsimp only
  split
  · rw [State.irq_eq]
    rfl
  · rfl

theorem charge_regs (hs : swf regReset s.regs = true) (cost : Nat) : SameRegs s (s.charge cost) [rRadIrq] := by
  intro b hb
  have hne : b ≠ rRadIrq := by simpa using hb
  unfold State.charge
  dsimp only
  split
  · exact State.reg_irq_other (s := s.setRad _) hs 0 hne
  · rfl

/-- The transmissions of the last 20 s, which the transmitter remembers. -/
def State.recentTxs (s : State) : List TxSpan := s.rad.txs.filter fun y => decide (s.t ≤ y.from_ + y.count * y.period + y.air + 20 * second)

/-- A charged transmission is emitted and remembered. -/
theorem noteTx_emit {u : State} {m : List (Nat × Word)} {b k : Nat} (h : u = { s with regs := m, rad := { s.rad with budget := b, budgetAt := k } })
    (e : Emission) (x : TxSpan) : (u.emit e).noteTx x =
      { s with regs := m, emitted := s.emitted ++ [e], rad := { s.rad with budget := b, budgetAt := k, txs := s.recentTxs ++ [x] } } := by
  subst h
  rfl

/-- No transmission ends or begins an exchange. -/
theorem noteTx_emit_xch {u : State} {m : List (Nat × Word)} {b k : Nat} (h : u = { s with regs := m, rad := { s.rad with budget := b, budgetAt := k } })
    (e : Emission) (x : TxSpan) : ((u.emit e).noteTx x).rad.xch = s.rad.xch := by
  subst h
  rfl

theorem radSendAt_xch (ch air pre at_ : Nat) (frame : Bytes) : (s.radSendAt ch air pre at_ frame).rad.xch = s.rad.xch :=
  noteTx_emit_xch (charge_spends _) _ _

/-- What sending a frame changes (R371). -/
theorem radSendAt_form (ch air pre at_ : Nat) (frame : Bytes) : s.radSendAt ch air pre at_ frame =
    { s with regs := (s.charge (s.txCost air)).regs, emitted := s.emitted ++ [.radio (s.airFrame ch air pre at_ frame)],
             rad := { s.rad with budget := s.budgetAt s.t - s.txCost air, budgetAt := s.t, txs := s.recentTxs ++ [{ from_ := s.t, air := air }] } } :=
  noteTx_emit (charge_spends _) _ _

/-- The first poll of an endpoint whose join an acknowledgement accepts is planned a second later (R376). -/
def State.ackJoin (s : State) (a : PendAck) (ch : Nat) : State :=
  match a.join, a.slot with
  | some _, some i => if a.verd = 0 then s.setPoll i { s.poll i with joinAt := some (s.t + second, ch) } else s
  | _, _ => s

theorem setPoll_xch (i : Nat) (p : PollEnt) : (s.setPoll i p).rad.xch = s.rad.xch := rfl

theorem ackJoin_xch (ch : Nat) : (s.ackJoin a ch).rad.xch = s.rad.xch := by
  unfold State.ackJoin
  split
  · split
    · exact setPoll_xch _ _
    · rfl
  · rfl

/-- Without an exchange: the acknowledgement is not sent without the token, or is missed, or goes out (R346, R347). -/
theorem radioAckSend_alone (ha : s.rad.acks = [a]) (hx : s.rad.xch = none) {u : State} (hu : u = (s.until a.due).noAcks) :
    execRadioAckSend s =
      if u.radTx = false then .next u
      else if u.ackGoes a = false then .next ((u.count rRadAckmiss 1).irq rRadIrq 1)
      else .next ((u.radSendAt (u.fld (rRadRxch a.chan) 11 0 + a.mode * 4096) (u.ackTime a) (u.fld rRadPhy 12 8) (u.ackBall u.t)
        (ackFrame a (match a.slot with | some i => u.downWaits i | none => false))).ackJoin a (u.fld (rRadRxch a.chan) 11 0 + a.mode * 4096)) := by
  have hux : u.rad.xch = none := by
    rw [hu]
    show (s.until a.due).rad.xch = none
    rw [State.until_rad, hx]
  have hfirst : firstAck s.rad.acks = some a := by rw [ha]; rfl
  unfold execRadioAckSend
  rw [hfirst]
  dsimp only
  rw [ackTaken ha hx, ← hu]
  split
  · rw [ackLost_idle hux]
  · split
    · rw [ackLost_idle (by rw [State.irq_rad]; exact hux)]
    · generalize u.fld (rRadRxch a.chan) 11 0 + a.mode * 4096 = ch
      generalize ackFrame a _ = frame
      have hsx : (u.radSendAt ch (u.ackTime a) (u.fld rRadPhy 12 8) (u.ackBall u.t) frame).rad.xch = none := (radSendAt_xch ..).trans hux
      generalize u.radSendAt ch (u.ackTime a) (u.fld rRadPhy 12 8) (u.ackBall u.t) frame = v at *
      rw [retrain_idle hsx]
      have hvx : (v.ackJoin a ch).rad.xch = none := (ackJoin_xch ch).trans hsx
      show (match (v.ackJoin a ch).rad.xch with | some x => _ | none => Host.Outcome.next (v.ackJoin a ch)) = _
      rw [hvx]

/-! ### What decides whether it goes -/

theorem txSpans_idle (h : s.rad.xch = none) : s.txSpans = s.rad.txs := by
  unfold State.txSpans
  rw [h]

theorem noAcks_txBusy (hx : s.rad.xch = none) (p q : Nat) : s.noAcks.txBusy p q = s.txBusy p q := by
  unfold State.txBusy
  rw [txSpans_idle hx, txSpans_idle (s := s.noAcks) hx]
  rfl

theorem until_fld (d k hi lo : Nat) : (s.until d).fld k hi lo = s.fld k hi lo := by
  unfold State.fld State.reg
  rw [State.until_regs]

theorem until_ackAir (d m n : Nat) : (s.until d).ackAir m n = s.ackAir m n := by
  unfold State.ackAir State.txFcs State.bitOf State.reg
  rw [until_fld, State.until_regs]

/-- The acknowledgement's airtime is that of its bytes. -/
theorem ackTime_due (d : Nat) (dpend : Bool) : (s.until d).noAcks.ackTime a = s.ackAir a.mode (ackFrame a dpend).length := by
  rw [ackFrame_length, ← until_ackAir d]
  rfl

/-- An acknowledgement goes out when the transmitter is not busy and the budget pays (R346). -/
theorem ackGoes_due {s1 : State} (hx : s.rad.xch = none) (hs1 : s1 = s.until a.due) {air : Nat} (hair : s1.noAcks.ackTime a = air) :
    s1.noAcks.ackGoes a = (s.radTx && !s1.txBusy (s1.t - s1.paLead) (s1.t + air) && s1.ackPays (s1.txCost air)) := by
  have hx1 : s1.rad.xch = none := by rw [hs1, State.until_rad, hx]
  have htx : s1.noAcks.radTx = s.radTx := by rw [hs1]; exact until_radTx _
  unfold State.ackGoes
  rw [hair, htx, noAcks_txBusy hx1]
  rfl

/-! ### An acknowledgement that is missed -/

/-- A missed acknowledgement is counted and flagged, and nothing else changes (R346). -/
theorem ackMissed {u : State} (hs : swf regReset u.regs = true) :
    ((u.count rRadAckmiss 1).irq rRadIrq 1).reg rRadAckmiss = min 4294967295 (u.reg rRadAckmiss + 1) ∧
    ((u.count rRadAckmiss 1).irq rRadIrq 1).bitOf rRadIrq 1 = true ∧
    SameRegs u ((u.count rRadAckmiss 1).irq rRadIrq 1) [rRadAckmiss, rRadIrq] ∧
    (u.count rRadAckmiss 1).irq rRadIrq 1 = { u with regs := ((u.count rRadAckmiss 1).irq rRadIrq 1).regs } := by
  have hc := State.count_wf hs rRadAckmiss 1
  refine ⟨?_, State.irq_set hc (by decide), fun b hb => ?_, ?_⟩
  · rw [State.reg_irq_other hc 1 (by decide), State.reg_count hs]
  · simp only [List.mem_cons, List.not_mem_nil, or_false, not_or] at hb
    rw [State.reg_irq_other hc 1 hb.2, State.reg_count_other hs 1 hb.1]
  · rw [State.irq_eq]
    rfl

/-! ### An acknowledgement that goes out -/

/-- The first poll of a joined endpoint moves the poll table only. -/
theorem ackJoin_form (ch : Nat) : s.ackJoin a ch = { s with rad := { s.rad with polls := (s.ackJoin a ch).rad.polls } } := by
  unfold State.ackJoin
  split
  · split <;> rfl
  · rfl

/-- An acknowledgement that accepts no join plans no poll. -/
theorem ackJoin_none (h : a.join = none ∨ a.verd ≠ 0) (ch : Nat) : s.ackJoin a ch = s := by
  unfold State.ackJoin
  split
  · rename_i hj _
    rw [hj] at h
    rw [if_neg (h.resolve_left (by simp))]
  · rfl

/-- An acknowledgement that accepts a join plans the first poll a second later. -/
theorem ackJoin_accepts {i : Nat} (hj : a.join ≠ none) (hv : a.verd = 0) (hi : a.slot = some i) {w : State} (hp : s.rad.polls = w.rad.polls)
    (ht : s.t = w.t) (ch : Nat) : (s.ackJoin a ch).rad.polls = (w.setPoll i { w.poll i with joinAt := some (w.t + second, ch) }).rad.polls := by
  obtain ⟨j, hj⟩ := Option.ne_none_iff_exists'.1 hj
  unfold State.ackJoin State.setPoll State.poll
  rw [hj, hi]
  simp only [hv, if_true]
  generalize second = n
  rw [hp, ht]

theorem sent_rad {u v : State} {m : List (Nat × Word)} {em : List Emission} {b k : Nat} {l : List TxSpan}
    (h : v = { u with regs := m, emitted := em, rad := { u.rad with budget := b, budgetAt := k, txs := l } }) :
    v.t = u.t ∧ v.rad.polls = u.rad.polls := by
  subst h
  exact ⟨rfl, rfl⟩

theorem sent_form {u v t : State} {m : List (Nat × Word)} {em : List Emission} {b k : Nat} {l : List TxSpan} {ps : List (Nat × PollEnt)}
    (h : v = { u with regs := m, emitted := em, rad := { u.rad with budget := b, budgetAt := k, txs := l } })
    (hj : t = { v with rad := { v.rad with polls := ps } }) :
    t = { u with regs := t.regs, emitted := t.emitted, rad := { u.rad with polls := t.rad.polls, budget := b, budgetAt := k, txs := t.rad.txs } } ∧
    t.regs = m ∧ t.emitted = em ∧ t.rad.txs = l := by
  subst h
  subst hj
  exact ⟨rfl, rfl, rfl, rfl⟩

/-- What an acknowledgement that goes out leaves (R343, R344, R371, R376). -/
theorem ackSent {u : State} (hs : swf regReset u.regs = true) (ch air pre at_ : Nat) (frame : Bytes) {t : State}
    (ht : t = (u.radSendAt ch air pre at_ frame).ackJoin a ch) :
    t.emitted = u.emitted ++ [.radio (u.airFrame ch air pre at_ frame)] ∧ SameRegs u t [rRadIrq] ∧
    t.rad.txs = u.recentTxs ++ [{ from_ := u.t, air := air }] ∧ (a.join = none ∨ a.verd ≠ 0 → t.rad.polls = u.rad.polls) ∧
    (∀ i, a.join ≠ none → a.verd = 0 → a.slot = some i → t.rad.polls = (u.setPoll i { u.poll i with joinAt := some (u.t + second, ch) }).rad.polls) ∧
    t = { u with regs := t.regs, emitted := t.emitted, rad := { u.rad with polls := t.rad.polls, budget := u.budgetAt u.t - u.txCost air, budgetAt := u.t,
                                                                           txs := t.rad.txs } } := by
  have hform := radSendAt_form (s := u) ch air pre at_ frame
  have hregs := charge_regs (s := u) hs (u.txCost air)
  generalize u.radSendAt ch air pre at_ frame = v at *
  generalize u.airFrame ch air pre at_ frame = x at *
  generalize u.budgetAt u.t - u.txCost air = b at *
  generalize u.recentTxs ++ [_] = l at *
  obtain ⟨hnow, hp⟩ := sent_rad hform
  obtain ⟨hall, hr, he, hl⟩ := sent_form hform (ht.trans (ackJoin_form ch))
  refine ⟨he, fun c hc => ?_, hl, fun h => ?_, fun i h1 h2 h3 => ?_, hall⟩
  · unfold State.reg
    rw [hr]
    exact hregs c hc
  · rw [ht, ackJoin_none h]
    exact hp
  · rw [ht]
    exact ackJoin_accepts h1 h2 h3 hp hnow ch

/-! ### The acknowledgement at its instant -/

section
variable {s1 : State} {dpend : Bool} {air ch : Nat} {frame : Bytes} (hinv : s.Inv) (ha : s.rad.acks = [a]) (hx : s.rad.xch = none) (hs1 : s1 = s.until a.due)
  (hch : ch = s.fld (rRadRxch a.chan) 11 0 + a.mode * 4096) (hdp : dpend = match a.slot with | some i => s.downWaits i | none => false)
  (hfr : frame = ackFrame a dpend) (hair : air = s.ackAir a.mode frame.length)

include ha hx hs1

/-- Without the token, or with TX_INH, it is not sent (R375). -/
theorem radioAckSend_inhibited (htx : s.radTx = false) : execRadioAckSend s = .next s1.noAcks := by
  rw [radioAckSend_alone ha hx (u := s1.noAcks) (by rw [hs1]), if_pos (by rw [hs1, until_radTx, htx])]

include hinv hfr hair

/-- While the transmitter is busy or the budget empty, it is not sent and counted (R346). -/
theorem radioAckSend_missed (htx : s.radTx = true) (hno : s1.txBusy (s1.t - s1.paLead) (s1.t + air) = true ∨ s1.ackPays (s1.txCost air) = false) :
    ∃ t, execRadioAckSend s = .next t ∧ t.reg rRadAckmiss = min 4294967295 (s.reg rRadAckmiss + 1) ∧ t.bitOf rRadIrq 1 = true ∧
      SameRegs s t [rRadAckmiss, rRadIrq] ∧ t = { s1 with regs := t.regs, rad := { s1.rad with acks := [] } } := by
  have hregs : s1.noAcks.regs = s.regs := by rw [hs1]; exact State.until_regs s _
  have htime : s1.noAcks.ackTime a = air := by rw [hs1, hair, hfr]; exact ackTime_due _ _
  have hgo : s1.noAcks.ackGoes a = false := by
    rw [ackGoes_due hx hs1 htime]
    rcases hno with h | h <;> simp [h]
  have hsame (b : Nat) : s1.noAcks.reg b = s.reg b := by unfold State.reg; rw [hregs]
  obtain ⟨hcount, hirq, hother, hform⟩ := ackMissed (u := s1.noAcks) (by rw [hregs]; exact hinv.1)
  refine ⟨_, ?_, by rw [hcount, hsame], hirq, fun b hb => (hother b hb).trans (hsame b), hform⟩
  rw [radioAckSend_alone ha hx (u := s1.noAcks) (by rw [hs1]), if_neg (by rw [hs1, until_radTx, htx]; decide), if_pos hgo]

include hch hdp

/-- Else it goes out, is charged and remembered, and an accepted join gets its first poll (R343, R344, R371, R376). -/
theorem radioAckSend_sent (htx : s.radTx = true) (hfree : s1.txBusy (s1.t - s1.paLead) (s1.t + air) = false) (hpays : s1.ackPays (s1.txCost air) = true) :
    ∃ t, execRadioAckSend s = .next t ∧ t.emitted = s.emitted ++ [.radio (s1.airFrame ch air (s.fld rRadPhy 12 8) (s1.ackBall s1.t) frame)] ∧ SameRegs s t [rRadIrq] ∧
      (∃ l, t.rad.txs = l ++ [{ from_ := s1.t, air := air }] ∧ ∀ x ∈ l, x ∈ s.rad.txs) ∧ (a.join = none ∨ a.verd ≠ 0 → t.rad.polls = s.rad.polls) ∧
      (∀ i, a.join ≠ none → a.verd = 0 → a.slot = some i → t.rad.polls = (s1.setPoll i { s.poll i with joinAt := some (s1.t + second, ch) }).rad.polls) ∧
      t = { s1 with regs := t.regs, emitted := t.emitted, rad := { s1.rad with acks := [], polls := t.rad.polls, budget := s1.budgetAt s1.t - s1.txCost air,
                                                                               budgetAt := s1.t, txs := t.rad.txs } } := by
  have hrad : s1.rad = s.rad := by rw [hs1]; exact State.until_rad s _
  have hregs : s1.noAcks.regs = s.regs := by rw [hs1]; exact State.until_regs s _
  have hem : s1.emitted = s.emitted := by rw [hs1]; exact State.until_emitted s _
  have hfld (k hi lo : Nat) : s1.noAcks.fld k hi lo = s.fld k hi lo := by rw [hs1]; exact until_fld _ _ _ _
  have htime : s1.noAcks.ackTime a = air := by rw [hs1, hair, hfr]; exact ackTime_due _ _
  have hgo : s1.noAcks.ackGoes a = true := by rw [ackGoes_due hx hs1 htime, htx, hfree, hpays]; rfl
  have hdown : ackFrame a (match a.slot with | some i => s1.noAcks.downWaits i | none => false) = frame := by
    have hw (i : Nat) : s1.noAcks.downWaits i = s.downWaits i := by
      show (s1.rad.downs.any fun d => d.slot == i) = _
      rw [hrad]
      rfl
    rw [hfr, hdp]
    congr 1
    split <;> simp [hw]
  have hrun := radioAckSend_alone ha hx (u := s1.noAcks) (by rw [hs1])
  rw [if_neg (by rw [hs1, until_radTx, htx]; decide), if_neg (by rw [hgo]; decide), hdown, htime, hfld, hfld, ← hch] at hrun
  obtain ⟨hemit, hother, htxs, hkeep, hjoin, hform⟩ :=
    ackSent (u := s1.noAcks) (by rw [hregs]; exact hinv.1) (a := a) ch air (s.fld rRadPhy 12 8) (s1.noAcks.ackBall s1.noAcks.t) frame rfl
  refine ⟨_, hrun, ?_, fun b hb => ?_, ⟨s1.noAcks.recentTxs, htxs, fun x hmem => ?_⟩, fun h => ?_, fun i h1 h2 h3 => ?_, hform⟩
  · rw [hemit, ← hem]
    rfl
  · rw [hother b hb]
    unfold State.reg
    rw [hregs]
  · rw [← hrad]
    exact List.mem_of_mem_filter hmem
  · rw [hkeep h, ← hrad]
    rfl
  · rw [hjoin i h1 h2 h3]
    unfold State.poll
    rw [← hrad]
    rfl

end

end

end Sys2Proof.Machine
end

section
/-! SUPPORT. A packet offered to a ring: what it leaves there depends on the rings alone, and of the registers it moves QF_IRQ at most (R78 to R93). -/
namespace Sys2Proof.Machine

/-! ### Registers, in canonical form or not -/

/-- Writing a key leaves every other key as it was. -/
theorem sget_sput_ne {β : Type} [DecidableEq β] (d : Nat → β) (m : List (Nat × β)) {k j : Nat} (v : β) (h : j ≠ k) : sget d (sput d m k v) j = sget d m j := by
  induction m with
  | nil =>
    unfold sput
    split
    · rfl
    · simp [sget, h.symm]
  | cons p m ih =>
    obtain ⟨a, b⟩ := p
    unfold sput
    split
    · split
      · rfl
      · simp [sget, h.symm]
    · split
      · rename_i hka
        subst hka
        split <;> simp [sget, h.symm]
      · simp only [sget, ih]

theorem SameRegs.refl (s : State) (l : List Nat) : SameRegs s s l := fun _ _ => rfl

theorem SameRegs.trans {a b c : State} {l : List Nat} (h : SameRegs a b l) (k : SameRegs b c l) : SameRegs a c l := fun x hx => (k x hx).trans (h x hx)

theorem SameRegs.weaken {a b : State} {l r : List Nat} (h : SameRegs a b l) (hs : l ⊆ r) : SameRegs a b r := fun x hx => h x fun hl => hx (hs hl)

/-- States with the same registers differ in no register. -/
theorem SameRegs.of_regs {a b : State} (h : b.regs = a.regs) (l : List Nat) : SameRegs a b l := fun _ _ => by unfold State.reg; rw [h]

section
variable (s : State) {a : Nat} {l : List Nat} (h : a ∈ l)
include h

theorem setReg_sameRegs (v : Nat) : SameRegs s (s.setReg a v) l := fun x hx => by
  have hne : x ≠ a := fun e => hx (e ▸ h)
  unfold State.reg State.setReg
  rw [sget_sput_ne _ _ _ hne]

theorem irq_sameRegs (k : Nat) : SameRegs s (s.irq a k) l := by
  unfold State.irq
  split
  · exact .refl s l
  · exact setReg_sameRegs s h _

end

/-! ### What a packet does to the registers -/

section
variable (s : State) (n : Nat)

theorem wadi_sameRegs : SameRegs s (s.wadi n) [rQfIrq] := by
  unfold State.wadi
  dsimp only
  split
  · exact SameRegs.trans (b := (s.putRingWord _ _ _).setRing n _) (.of_regs rfl _) (irq_sameRegs _ (by simp) _)
  · exact .refl s _

theorem ringOp_sameRegs (op : RingOp) : SameRegs s (s.ringOp n op).2 [rQfIrq] := by
  cases op with
  | open_ =>
    have hw := wadi_sameRegs s n
    simp only [State.ringOp, State.ringOpen]
    generalize s.wadi n = v at *
    repeat' split
    all_goals exact hw
  | push v =>
    simp only [State.ringOp, State.ringPush]
    repeat' split
    all_goals exact .of_regs rfl _
  | close ty =>
    simp only [State.ringOp, State.ringClose]
    repeat' split
    all_goals exact .of_regs rfl _

theorem opened_completed_regs (v : State) (reg : Bool) (op : RingOp) (r : Reply) (w : Ring) :
    ((v.opened n reg op).setRing n w |>.completed reg r).regs = v.regs ∧ ((v.setRing n w).completed reg r).regs = v.regs := by
  unfold State.completed
  refine ⟨?_, ?_⟩
  · split <;> cases op <;> rfl
  · split <;> rfl

theorem ringFeed_sameRegs (k : Nat) : SameRegs s (State.ringFeed n k s) [rQfIrq] := by
  induction k generalizing s with
  | zero => exact .refl s _
  | succ k ih =>
    unfold State.ringFeed
    dsimp only
    split
    · exact .refl s _
    · rename_i reg op rest _
      have hop := ringOp_sameRegs s n op
      generalize s.ringOp n op = r at *
      obtain ⟨res, v⟩ := r
      cases res with
      | stalled => exact .refl s _
      | refused =>
        dsimp only
        split
        · exact .refl s _
        · exact hop.trans (.trans (.of_regs (opened_completed_regs n v reg op .busError _).2 _) (ih _))
      | done => exact hop.trans (.trans (.of_regs (opened_completed_regs n v reg op .done _).1 _) (ih _))

/-- Offering a packet to a ring moves no register but QF_IRQ. -/
theorem ringPacket_sameRegs (ty : Nat) (ws : List Word) : SameRegs s (s.ringPacket n ty ws) [rQfIrq] := by
  unfold State.ringPacket
  dsimp only
  split
  · exact SameRegs.trans (b := s.setRing n _) (.of_regs rfl _) (ringFeed_sameRegs _ n _)
  · exact .refl s _

end

/-! ### Rings alike -/

/-- Two states whose rings, with the words in them, are the same now. -/
structure RingsAlike (a b : State) : Prop where
  rings : a.rings = b.rings
  wram  : a.wram = b.wram
  now   : a.t = b.t

namespace RingsAlike
variable {a b : State} (h : RingsAlike a b) (n : Nat)
include h

theorem ring : a.ring n = b.ring n := by
  unfold State.ring
  rw [h.rings]

theorem setRing (r : Ring) : RingsAlike (a.setRing n r) (b.setRing n r) :=
  ⟨by unfold State.setRing; rw [h.rings], h.wram, h.now⟩

theorem putWord (r : Ring) (p : Nat) (v : Word) : RingsAlike (a.putRingWord r p v) (b.putRingWord r p v) :=
  ⟨h.rings, by unfold State.putRingWord; rw [h.wram], h.now⟩

theorem irq (r k : Nat) : RingsAlike (a.irq r k) (b.irq r k) :=
  ⟨by rw [State.irq_rings, State.irq_rings, h.rings], by rw [State.irq_wram, State.irq_wram, h.wram], by rw [State.irq_t, State.irq_t, h.now]⟩

theorem wadi : RingsAlike (a.wadi n) (b.wadi n) := by
  unfold State.wadi
  simp only [h.ring n, h.now]
  split
  · exact ((h.putWord ..).setRing ..).irq ..
  · exact h

theorem opened (reg : Bool) (op : RingOp) : RingsAlike (a.opened n reg op) (b.opened n reg op) := by
  cases op
  case open_ =>
    unfold State.opened
    rw [h.ring n]
    exact h.setRing ..
  all_goals exact h

theorem completed (reg : Bool) (x : Reply) : RingsAlike (a.completed reg x) (b.completed reg x) := by
  have one (s : State) : RingsAlike (s.completed reg x) s := by
    unfold State.completed
    split <;> exact ⟨rfl, rfl, rfl⟩
  exact ⟨(one a).rings.trans (h.rings.trans (one b).rings.symm), (one a).wram.trans (h.wram.trans (one b).wram.symm),
    (one a).now.trans (h.now.trans (one b).now.symm)⟩

/-- A producer's write comes to the same. -/
theorem op (op : RingOp) : (a.ringOp n op).1 = (b.ringOp n op).1 ∧ RingsAlike (a.ringOp n op).2 (b.ringOp n op).2 := by
  cases op
  case open_ =>
    have hw := h.wadi n
    unfold State.ringOp State.ringOpen
    generalize a.wadi n = u at *
    generalize b.wadi n = v at *
    simp only [hw.ring n]
    split
    · exact ⟨rfl, hw⟩
    · split
      · exact ⟨rfl, hw⟩
      · split
        · split <;> exact ⟨rfl, hw.setRing ..⟩
        · split
          · exact ⟨rfl, hw⟩
          · exact ⟨rfl, hw.setRing ..⟩
  case push v =>
    unfold State.ringOp State.ringPush
    simp only [h.ring n]
    split
    · exact ⟨rfl, h⟩
    · split
      · exact ⟨rfl, h⟩
      · exact ⟨rfl, h.setRing ..⟩
      · split
        · split
          · exact ⟨rfl, h.setRing ..⟩
          · exact ⟨rfl, (h.putWord ..).setRing ..⟩
        · split
          · exact ⟨rfl, h.setRing ..⟩
          · split
            · exact ⟨rfl, h⟩
            · exact ⟨rfl, (h.putWord ..).setRing ..⟩
  case close ty =>
    unfold State.ringOp State.ringClose
    simp only [h.ring n, h.now]
    split
    · exact ⟨rfl, h⟩
    · split
      · exact ⟨rfl, h⟩
      · exact ⟨rfl, h.setRing ..⟩
      · exact ⟨rfl, (h.putWord ..).setRing ..⟩

omit h in
theorem feed (k : Nat) (h : RingsAlike a b) : RingsAlike (State.ringFeed n k a) (State.ringFeed n k b) := by
  induction k generalizing a b with
  | zero => exact h
  | succ k ih =>
    unfold State.ringFeed
    simp only [h.ring n]
    split
    · exact h
    · rename_i reg op rest _
      obtain ⟨hres, hst⟩ := h.op n op
      generalize a.ringOp n op = ra at *
      generalize b.ringOp n op = rb at *
      obtain ⟨pa, sa⟩ := ra
      obtain ⟨pb, sb⟩ := rb
      dsimp only at hres hst
      subst hres
      cases pa with
      | stalled => exact h
      | refused =>
        dsimp only
        split
        · exact h
        · rw [hst.ring n]
          exact ih ((hst.setRing ..).completed ..)
      | done =>
        have ho := hst.opened n reg op
        dsimp only
        rw [ho.ring n]
        exact ih ((ho.setRing ..).completed ..)

/-- A packet offered to rings that are alike leaves them alike. -/
theorem packet (ty : Nat) (ws : List Word) : RingsAlike (a.ringPacket n ty ws) (b.ringPacket n ty ws) := by
  unfold State.ringPacket
  simp only [h.ring n]
  split
  · have hs := h.setRing n { b.ring n with waiting := (b.ring n).waiting ++ (packetOps ty ws).map fun o => (false, o) }
    unfold State.ringDrain
    rw [hs.ring n]
    exact hs.feed ..
  · exact h

end RingsAlike

end Sys2Proof.Machine
end

section
/-! SUPPORT. A DATA frame received outside an exchange: its verdict, its packet on Q1 and the acknowledgement that waits (R166, R168, R344, R352, R353). -/
namespace Sys2Proof.Machine

/-! ### What an arbitration changes -/

/-- From `s` to `w` only the arbiter moved: its counts and flags, its quotas, and the free value it drew. -/
structure ArbOnly (s w : State) : Prop where
  form : w = { s with regs := w.regs, freeCtr := w.freeCtr, arb := w.arb }
  regs : SameRegs s w [rArbDupcnt, rArbOrphcnt, rArbBusycnt, rArbMaskcnt, rArbLatmax, rArbIrq]

theorem ArbOnly.refl (s : State) : ArbOnly s s := ⟨rfl, .refl s _⟩

theorem ArbOnly.trans {a b c : State} (h : ArbOnly a b) (k : ArbOnly b c) : ArbOnly a c :=
  ⟨by rw [k.form, h.form], h.regs.trans k.regs⟩

section
variable (s : State)

theorem count_arbOnly {r : Nat} (h : r ∈ [rArbDupcnt, rArbOrphcnt, rArbBusycnt, rArbMaskcnt, rArbLatmax, rArbIrq]) (n : Nat) : ArbOnly s (s.count r n) :=
  ⟨rfl, setReg_sameRegs s h _⟩

theorem masked_arbOnly (b : Bool) (x y : Arb) :
    ArbOnly s (if b then ({ s with freeCtr := s.freeCtr + 1, arb := x } : State).count rArbMaskcnt 1 else { s with freeCtr := s.freeCtr + 1, arb := y }) := by
  cases b
  · exact ⟨rfl, .of_regs rfl _⟩
  · exact ArbOnly.trans (b := { s with freeCtr := s.freeCtr + 1, arb := x }) ⟨rfl, .of_regs rfl _⟩ (count_arbOnly _ (by simp) 1)

theorem latmax_arbOnly (ns : Nat) : ArbOnly s (if s.fld rArbLatmax 15 0 < ns then s.setFld rArbLatmax 15 0 ns else s) := by
  split
  · exact ⟨rfl, setReg_sameRegs s (by simp) _⟩
  · exact .refl s

theorem late_arbOnly (ns : Nat) (b : Bool) : ArbOnly s (if 200 < ns ∧ b = false then s.irq rArbIrq 2 else s) := by
  split
  · exact ⟨by rw [State.irq_eq], irq_sameRegs s (by simp) _⟩
  · exact .refl s

/-- A grant moves the arbiter only (R176, R179 to R182). -/
theorem arbGrant_arbOnly (plc lookup : Bool) (i : Nat) : ArbOnly s (s.arbGrant plc lookup i) := by
  unfold State.arbGrant State.free
  dsimp only
  generalize Config.freeValue s.freeCtr % _ + _ = ns
  have hgrant := masked_arbOnly s ((s.arb.roll (windowAt s.t)).masks plc (i % 16)) ((s.arb.roll (windowAt s.t)).grantNext plc (i % 16))
    ((s.arb.roll (windowAt s.t)).grant plc (i % 16))
  exact (hgrant.trans (latmax_arbOnly _ ns)).trans (late_arbOnly _ ns _)

/-- Writing a slot under its lock bit writes the slot: the lock bit is given back at once (R171). -/
theorem lockedWrite_eq (i : Nat) (x : Slot) : s.lockedWrite i x = s.setSlot i x := by
  unfold State.lockedWrite State.dropLock
  show ({ s.setSlot i x with arb := { s.arb with locks := (i :: s.arb.locks).erase i } } : State) = _
  rw [List.erase_cons_head]
  rfl

theorem scrub_clean (h : s.arb.flips = []) (i : Nat) : s.scrub i = s := scrubKey_clean h (.slot i)

end

/-! ### The verdict of a DATA frame -/

section
variable {s : State} {f : Frame}

theorem shortSlot_none (h : f.src = 0 ∨ 131072 < f.src) : shortSlot f.src = none := by
  unfold shortSlot slotCount
  rw [if_neg (by omega)]

theorem shortSlot_some (h0 : 0 < f.src) (h1 : f.src ≤ 131072) : shortSlot f.src = some (f.src - 1) := by
  unfold shortSlot slotCount
  rw [if_pos (by omega)]

/-- What the verdict `v` writes to the slot of the frame: an accepted frame's sequence enters the window (R168). -/
def State.heard (s : State) (f : Frame) (v : Nat) : State := if v = 0 then s.setSlot (f.src - 1) (dupCheck (s.slot (f.src - 1)) f.seq).2 else s

/-- A case of the verdict on a DATA frame: the frame's slot and the state of the slot decide it (R149, R159, R166, R168). -/
inductive DataVerdict (s : State) (f : Frame) : Nat → EClass → Option Nat → Prop where
  | stranger (h : f.src = 0 ∨ 131072 < f.src) : DataVerdict s f 3 .orphan none
  | faulted (h0 : 0 < f.src) (h1 : f.src ≤ 131072) (hf : (s.slot (f.src - 1)).fault = true) : DataVerdict s f 2 .busy (some (f.src - 1))
  | gone (h0 : 0 < f.src) (h1 : f.src ≤ 131072) (hf : (s.slot (f.src - 1)).fault = false)
      (hs : (s.slot (f.src - 1)).state = .free ∨ (s.slot (f.src - 1)).state = .decom) : DataVerdict s f 3 .orphan (some (f.src - 1))
  | fresh (h0 : 0 < f.src) (h1 : f.src ≤ 131072) (hf : (s.slot (f.src - 1)).fault = false) (hs : (s.slot (f.src - 1)).state ≠ .free)
      (hd : (s.slot (f.src - 1)).state ≠ .decom) (hn : (dupCheck (s.slot (f.src - 1)) f.seq).1 = true) : DataVerdict s f 0 .normal (some (f.src - 1))
  | again (h0 : 0 < f.src) (h1 : f.src ≤ 131072) (hf : (s.slot (f.src - 1)).fault = false) (hs : (s.slot (f.src - 1)).state ≠ .free)
      (hd : (s.slot (f.src - 1)).state ≠ .decom) (hn : (dupCheck (s.slot (f.src - 1)) f.seq).1 = false) : DataVerdict s f 1 .dup (some (f.src - 1))

theorem isData_of_ftype (h : f.ftype = 2) : f.isData = true ∧ f.isJoin = false := by
  unfold Frame.isData Frame.isJoin
  rw [h]
  exact ⟨rfl, rfl⟩

/-- The slot of a DATA frame decides its verdict, and only an accepted frame writes the slot. -/
theorem judgeOpen_data (hd : f.ftype = 2) (hfl : s.arb.flips = []) {v : Nat} {c : EClass} {sl : Option Nat} (h : DataVerdict s f v c sl) :
    (s.judgeOpen f).1 = ⟨v, c, sl⟩ ∧ ArbOnly (s.heard f v) (s.judgeOpen f).2 := by
  obtain ⟨hdata, hjoin⟩ := isData_of_ftype hd
  unfold State.judgeOpen
  rw [if_neg (by simp [hjoin])]
  cases h with
  | stranger h =>
    rw [shortSlot_none h]
    exact ⟨rfl, count_arbOnly s (by simp) 1⟩
  | faulted h0 h1 hf =>
    simp only [shortSlot_some h0 h1, scrub_clean s hfl, hf, if_true]
    exact ⟨rfl, count_arbOnly s (by simp) 1⟩
  | gone h0 h1 hf hs =>
    simp only [shortSlot_some h0 h1, scrub_clean s hfl, hf, Bool.false_eq_true, if_false, hs, if_true]
    exact ⟨rfl, count_arbOnly s (by simp) 1⟩
  | fresh h0 h1 hf hs hd hn =>
    simp only [shortSlot_some h0 h1, scrub_clean s hfl, hf, Bool.false_eq_true, if_false, hs, hd, or_self, hdata, if_true, State.judgeSlot, isFirstJoin, hjoin,
      Bool.false_and, hn, lockedWrite_eq]
    exact ⟨trivial, .refl _⟩
  | again h0 h1 hf hs hd hn =>
    simp only [shortSlot_some h0 h1, scrub_clean s hfl, hf, Bool.false_eq_true, if_false, hs, hd, or_self, hdata, if_true, State.judgeSlot, isFirstJoin, hjoin,
      Bool.false_and, hn]
    exact ⟨trivial, count_arbOnly s (by simp) 1⟩

/-- A DATA frame's verdict while the arbiter serves and Q1 has room (R166). -/
theorem judge_data (hd : f.ftype = 2) (hfl : s.arb.flips = []) (hserves : s.serves 1 = true) {v : Nat} {c : EClass} {sl : Option Nat} (h : DataVerdict s f v c sl) :
    ∃ w, s.judge false f = (⟨v, c, sl⟩, w) ∧ ArbOnly (s.heard f v) w := by
  obtain ⟨hverdict, hmoved⟩ := judgeOpen_data hd hfl h
  refine ⟨_, ?_, hmoved.trans (arbGrant_arbOnly (s.judgeOpen f).2 false f.isJoin (sl.getD 0))⟩
  unfold State.judge
  simp only [Bool.false_eq_true, if_false, hserves, if_true, hverdict, (isData_of_ftype hd).1, Bool.true_or]

/-- Without an arbiter that serves, or without room on Q1, a frame is BUSY and touches nothing (R166). -/
theorem judge_busy (h : s.serves 1 = false) : s.judge false f = (⟨2, .busy, none⟩, s) := by
  unfold State.judge
  simp only [Bool.false_eq_true, if_false, h]

end

/-! ### The descriptor -/

/-- The descriptor carries the verdict in bits 26 to 24 (R353). -/
theorem radDesc_verdict (rssi : Int) {chan mode v : Nat} (fcs4 dw : Bool) (hc : chan < 8) (hm : mode < 8) (hv : v < 8) :
    bits 26 24 (radDesc rssi chan mode fcs4 dw v false false) = v := by
  have hlow : (rssi % 256).toNat < 256 := by omega
  have hmargin : (min 255 (max 0 (4 * (rssi - modeSens mode)))).toNat < 256 := by omega
  unfold radDesc
  generalize (rssi % 256).toNat = p at *
  generalize (min 255 (max 0 (4 * (rssi - modeSens mode)))).toNat = q at *
  have hf : flag 22 fcs4 + flag 23 dw ≤ 12582912 := by cases fcs4 <;> cases dw <;> decide
  unfold bits
  simp only [show flag 28 false = 0 from rfl, show flag 29 false = 0 from rfl]
  omega

/-! ### A frame taken outside an exchange -/

/-- The acknowledgement of a DATA frame outside an exchange (R344). -/
def State.dataAck (s : State) (r : RxInfo) (f : Frame) (v : Nat) (sl : Option Nat) : PendAck :=
  { chan := r.chan, mode := r.mode, ended := s.t, due := s.t + usU 400, dst := f.src, slot := sl, seq := f.seq.toNat, verd := v,
    cont := (v == 0 || v == 1) && f.more && (match sl with | some i => decide (1 < atLeast1 (s.radClass (s.slot i).cls).maxF) | none => false) }

section
variable {s : State} {f : Frame} {r : RxInfo}

/-- Outside an exchange a DATA frame is judged and opened on Q1, and its acknowledgement waits if one is asked for. -/
theorem radTake_data (hd : f.ftype = 2) (hx : s.rad.xch = none) {v : Nat} {c : EClass} {sl : Option Nat} {w u : State} (hj : s.judge false f = (⟨v, c, sl⟩, w))
    (hu : u = w.offerFrame false ⟨v, c, sl⟩ s.dev r.chan (radDesc r.rssi r.chan r.mode r.fcs4 r.dw v false false) f.bytes) (hux : u.rad.xch = none) :
    s.radTake r f false = if f.ackreq then u.setRad fun q => { q with acks := q.acks ++ [s.dataAck r f v sl] } else u := by
  obtain ⟨hdata, hjoin⟩ := isData_of_ftype hd
  unfold State.radTake
  simp only [hx, hj, Bool.false_and, ← hu, hux, hdata, hjoin, Bool.not_false, Bool.and_true, Bool.true_or, Bool.false_eq_true, if_false, Bool.true_and,
    Option.isSome_none]
  rfl

/-- The input that carries a received frame (R30, R353). -/
def frameInput (stamp chan desc : Nat) (c : EClass) (sl : Option Nat) (bytes : Bytes) : Input :=
  { kind := .radFrame, stamp := stamp, cls := c, src := { slot := sl.getD 0, slotV := sl.isSome, chan := chan }, payload := le 4 desc ++ bytes }

/-- The registers that a frame's verdict and its packet may move. -/
def heardRegs : List Nat := [rArbDupcnt, rArbOrphcnt, rArbBusycnt, rArbMaskcnt, rArbLatmax, rArbIrq, rQfIrq]

/-- A judged frame offered on Q1: its packet meets the rings as they were, and nothing else moves but the arbiter and the frame's slot. -/
theorem offered_heard {v : Nat} {w : State} (hw : ArbOnly (s.heard f v) w) (i : Input) :
    (w.offer 1 i).rings = (s.offer 1 i).rings ∧ (w.offer 1 i).wram = (s.offer 1 i).wram ∧
    (w.offer 1 i).ctx = (if v = 0 then (s.setSlot (f.src - 1) (dupCheck (s.slot (f.src - 1)) f.seq).2).ctx else s.ctx) ∧ (w.offer 1 i).rad = s.rad ∧
    SameRegs s (w.offer 1 i) heardRegs ∧ (w.offer 1 i).seq = s.seq ∧ (w.offer 1 i).emitted = s.emitted ∧ (w.offer 1 i).t = s.t := by
  obtain ⟨hform, hregs⟩ := hw
  have hslot : s.heard f v = { s with ctx := if v = 0 then (s.setSlot (f.src - 1) (dupCheck (s.slot (f.src - 1)) f.seq).2).ctx else s.ctx } := by
    unfold State.heard
    split <;> rfl
  generalize (if v = 0 then (s.setSlot (f.src - 1) (dupCheck (s.slot (f.src - 1)) f.seq).2).ctx else s.ctx) = k at *
  rw [hslot] at hform hregs
  have halike : RingsAlike w s := ⟨by rw [hform], by rw [hform], by rw [hform]⟩
  have hpacket := halike.packet 1 i.kind.code i.words
  have hsame : SameRegs s w heardRegs := (SameRegs.of_regs (b := { s with ctx := k }) rfl heardRegs).trans (hregs.weaken (by simp [heardRegs]))
  unfold State.offer
  refine ⟨hpacket.rings, hpacket.wram, ?_, ?_, hsame.trans (.weaken (ringPacket_sameRegs w 1 _ _) (by simp [heardRegs])), ?_, ?_, ?_⟩
  · rw [State.ringPacket_ctx, hform]
  · rw [State.ringPacket_rad, hform]
  · rw [State.ringPacket_seq, hform]
  · rw [State.ringPacket_emitted, hform]
  · rw [State.ringPacket_t, hform]

/-- What a DATA frame received outside an exchange leaves, by its verdict. -/
structure Heard (s t : State) (r : RxInfo) (f : Frame) (v : Nat) (c : EClass) (sl : Option Nat) : Prop where
  packet : ∃ desc, bits 26 24 desc = v ∧ t.rings = (s.offer 1 (frameInput s.dev r.chan desc c sl f.bytes)).rings ∧
    t.wram = (s.offer 1 (frameInput s.dev r.chan desc c sl f.bytes)).wram
  slot : t.ctx = if v = 0 then (s.setSlot (f.src - 1) (dupCheck (s.slot (f.src - 1)) f.seq).2).ctx else s.ctx
  silent : f.ackreq = false → t.rad = s.rad
  acked : f.ackreq = true → t.rad = { s.rad with acks := s.rad.acks ++ [s.dataAck r f v sl] }
  regs : SameRegs s t heardRegs
  rest : t.seq = s.seq ∧ t.emitted = s.emitted ∧ t.t = s.t

theorem radTake_heard (hd : f.ftype = 2) (hx : s.rad.xch = none) {v : Nat} {c : EClass} {sl : Option Nat} {w : State} (hj : s.judge false f = (⟨v, c, sl⟩, w))
    (hw : ArbOnly (s.heard f v) w) (hchan : r.chan < 8) (hmode : r.mode < 8) (hv : v < 8) : Heard s (s.radTake r f false) r f v c sl := by
  obtain ⟨desc, hdesc⟩ : ∃ desc, desc = radDesc r.rssi r.chan r.mode r.fcs4 r.dw v false false := ⟨_, rfl⟩
  obtain ⟨u, hu⟩ : ∃ u, u = w.offer 1 (frameInput s.dev r.chan desc c sl f.bytes) := ⟨_, rfl⟩
  obtain ⟨hrings, hwram, hctx, hrad, hregs, hrest⟩ := offered_heard hw (frameInput s.dev r.chan desc c sl f.bytes)
  rw [← hu] at hrings hwram hctx hrad hregs hrest
  have hrun := radTake_data hd hx hj (r := r) (u := u) (by rw [hu, hdesc]; rfl) (by rw [hrad, hx])
  have hpacket : ∃ desc, bits 26 24 desc = v ∧ u.rings = (s.offer 1 (frameInput s.dev r.chan desc c sl f.bytes)).rings ∧
      u.wram = (s.offer 1 (frameInput s.dev r.chan desc c sl f.bytes)).wram :=
    ⟨desc, by rw [hdesc]; exact radDesc_verdict _ _ _ hchan hmode hv, hrings, hwram⟩
  cases hack : f.ackreq with
  | false =>
    rw [hack, if_neg (by decide)] at hrun
    rw [hrun]
    exact ⟨hpacket, hctx, fun _ => hrad, fun h => absurd (hack.symm.trans h) (by decide), hregs, hrest⟩
  | true =>
    rw [hack, if_pos rfl] at hrun
    rw [hrun]
    refine ⟨hpacket, hctx, fun h => absurd (hack.symm.trans h) (by decide), fun _ => ?_, hregs, hrest⟩
    unfold State.setRad
    rw [hrad]

end

/-! ### The command -/

/-- How a frame came on a receive channel of the mode set for it. -/
def State.rxAs (s : State) (chan : Fin 8) (rssi : Int) (fcs4 dw : Bool) (start : Nat) : RxInfo :=
  { chan := chan, mode := s.fld (rRadRxch chan) 14 12, rssi := rssi, fcs4 := fcs4, dw := dw, start := start }

/-- The checks of a DATA frame lead to its verdict on the token's holder (R352). -/
theorem radCheck_data {s : State} {r : RxInfo} {bytes : Bytes} (n : Nat) (hok : radioFrameOk (radioFrame bytes) = true) (hd : (radioFrame bytes).ftype = 2)
    (hh : s.seq.holder = true) : State.radCheck (n + 1) s r false bytes = s.radTake r (radioFrame bytes) false := by
  unfold State.radCheck
  simp only [hok, Bool.true_eq_false, if_false, hh, hd, Nat.reduceEqDiff]

section
variable {dt : Nat} {chan : Fin 8} {rssi : Int} {sw f4 dw : Bool} {psdu : Bytes} {s s1 : State} {start : Nat} (hs1 : s1 = s.advance dt)
  (hstart : start = s1.t - octets (s.fld (rRadRxch chan) 14 12) (8 + psdu.length))
include hs1 hstart

/-- The command by what its receiver hears of the frame (R327, R332, R334). -/
theorem radioFrameReceive_eq : execRadioFrameReceive dt chan rssi sw f4 dw psdu s =
    if s.bitOf rRadCtl 0 && s.bitOf (rRadRxch chan) 15 then
      if s1.blind start (start + 1) || (match s.rad.cutAt with | some c => decide (start ≤ c) | none => false) then .next s1
      else if s1.blind start s1.t then .next (s1.count rRadRxabort 1)
      else if sw ∨ psdu.length < 11 ∨ 511 < psdu.length then .next (s1.count rRadBadfrm 1)
      else match psduFrame f4 dw psdu with
        | none => .next (s1.count rRadFcserr 1)
        | some b => .next (State.radCheck 64 s1 (s.rxAs chan rssi f4 dw start) false b)
    else .next s1 := by
  subst hs1
  subst hstart
  rfl

/-- A channel that is off hears nothing, nor one whose receivers were blind when the frame began (R327). -/
theorem radioFrameReceive_deaf (h : s.bitOf rRadCtl 0 = false ∨ s.bitOf (rRadRxch chan) 15 = false ∨ s1.blind start (start + 1) = true) :
    execRadioFrameReceive dt chan rssi sw f4 dw psdu s = .next s1 := by
  rw [radioFrameReceive_eq hs1 hstart]
  rcases h with h | h | h <;> simp [h]

variable (hctl : s.bitOf rRadCtl 0 = true) (hrx : s.bitOf (rRadRxch chan) 15 = true) (hbegan : s1.blind start (start + 1) = false)
  (hcut : ∀ c, s.rad.cutAt = some c → c < start)
include hctl hrx hbegan hcut

/-- A frame that began on a channel that hears it, by what becomes of it. -/
theorem radioFrameReceive_begun : execRadioFrameReceive dt chan rssi sw f4 dw psdu s =
    if s1.blind start s1.t then .next (s1.count rRadRxabort 1)
    else if sw ∨ psdu.length < 11 ∨ 511 < psdu.length then .next (s1.count rRadBadfrm 1)
    else match psduFrame f4 dw psdu with
      | none => .next (s1.count rRadFcserr 1)
      | some b => .next (State.radCheck 64 s1 (s.rxAs chan rssi f4 dw start) false b) := by
  have hwhole : (match s.rad.cutAt with | some c => decide (start ≤ c) | none => false) = false := by
    cases hc : s.rad.cutAt with
    | none => rfl
    | some c => exact decide_eq_false (Nat.not_le_of_lt (hcut c hc))
  rw [radioFrameReceive_eq hs1 hstart, hctl, hrx, hbegan, hwhole]
  rfl

variable (hheard : s1.blind start s1.t = false) (hsw : sw = false) (hmin : 11 ≤ psdu.length) (hmax : psdu.length ≤ 511)
include hheard hsw hmin hmax

theorem radioFrameReceive_whole : execRadioFrameReceive dt chan rssi sw f4 dw psdu s =
    match psduFrame f4 dw psdu with
    | none => .next (s1.count rRadFcserr 1)
    | some b => .next (State.radCheck 64 s1 (s.rxAs chan rssi f4 dw start) false b) := by
  rw [radioFrameReceive_begun hs1 hstart hctl hrx hbegan hcut, hheard, if_neg (by decide), if_neg (by rw [hsw]; simp; omega)]

/-- A DATA frame outside an exchange is opened on Q1 with its verdict: BUSY when Q1 has no room, else by its slot (R166, R344, R352, R353). -/
theorem radioFrameReceive_data {bytes : Bytes} {f : Frame} {v : Nat} {c : EClass} {sl : Option Nat} (hpsdu : psduFrame f4 dw psdu = some bytes)
    (hf : f = radioFrame bytes) (hok : radioFrameOk f = true) (hd : f.ftype = 2) (hh : s.seq.holder = true) (hx : s.rad.xch = none) (hfl : s.arb.flips = [])
    (hv : s1.serves 1 = false ∧ v = 2 ∧ c = .busy ∧ sl = none ∨ s1.serves 1 = true ∧ DataVerdict s1 f v c sl) :
    ∃ r t, execRadioFrameReceive dt chan rssi sw f4 dw psdu s = .next t ∧ r.chan = chan.val ∧ Heard s1 t r f v c sl := by
  subst hf
  have hx1 : s1.rad.xch = none := by rw [hs1]; exact hx
  have hfl1 : s1.arb.flips = [] := by rw [hs1]; exact hfl
  have hmode : s.fld (rRadRxch chan) 14 12 < 8 := Nat.mod_lt _ (by decide)
  have hrun := radioFrameReceive_whole (rssi := rssi) (f4 := f4) (dw := dw) hs1 hstart hctl hrx hbegan hcut hheard hsw hmin hmax
  rw [hpsdu] at hrun
  refine ⟨s.rxAs chan rssi f4 dw start, _, hrun, rfl, ?_⟩
  rw [radCheck_data 63 hok hd (by rw [hs1]; exact hh)]
  rcases hv with ⟨hserves, rfl, rfl, rfl⟩ | ⟨hserves, hv⟩
  · exact radTake_heard hd hx1 (judge_busy hserves) (.refl _) chan.isLt hmode (by decide)
  · obtain ⟨w, hj, hw⟩ := judge_data hd hfl1 hserves hv
    exact radTake_heard hd hx1 hj hw chan.isLt hmode (by cases hv <;> decide)

end

end Sys2Proof.Machine
end

section
/-! SUPPORT. The statement on the radio's reception and its acknowledgements (R166, R327, R332, R334, R343 to R347, R352, R368). -/
namespace Sys2Proof.Machine

/-- A seen-cache entry of the radio goes 60 s after its insertion (R368). -/
theorem radioSeen_expires {s : State} {x : Seen} {r : List Seen} (h : s.rad.seen = x :: r) : execCaravanCacheExpiry false s =
    .next { s.until (x.at_ + 60 * second) with rad := { (s.until (x.at_ + 60 * second)).rad with
      seen := r.filter fun y => decide ((s.until (x.at_ + 60 * second)).t < y.at_ + 60 * second) } } := by
  unfold execCaravanCacheExpiry
  simp only [Bool.false_eq_true, if_false, h, State.until_rad, State.until_t, seenLive_expired rfl]

/-- A seen-cache entry of the power line goes 60 s after its insertion (R368). -/
theorem plcSeen_expires {s : State} {x : Seen} {r : List Seen} (h : s.plc.seen = x :: r) : execCaravanCacheExpiry true s =
    .next { s.until (x.at_ + 60 * second) with plc := { (s.until (x.at_ + 60 * second)).plc with
      seen := r.filter fun y => decide ((s.until (x.at_ + 60 * second)).t < y.at_ + 60 * second) } } := by
  unfold execCaravanCacheExpiry
  simp only [if_true, h, State.until_plc, State.until_t, seenLive_expired rfl]

/-- Settles O48: a reception by what the channel hears of it, a DATA frame by its verdict, an acknowledgement by what keeps it from going out. -/
theorem radioReceivesAndAcknowledges : Obligations.RadioReceivesAndAcknowledges := by
  unfold Obligations.RadioReceivesAndAcknowledges
  refine ⟨?_, ?_, ?_, ?_, ?_, ?_⟩
  · intro dt chan rssi sw f4 dw psdu s s1 start hs1 hstart
    refine ⟨radioFrameReceive_deaf hs1 hstart, fun hctl hrx hbegan hcut => ⟨fun h => ?_, fun h hbad => ?_, fun h hsw hmin hmax hnone => ?_, ?_⟩⟩
    · refine (radioFrameReceive_begun hs1 hstart hctl hrx hbegan hcut).trans ?_
      rw [h, if_pos rfl]
    · refine (radioFrameReceive_begun hs1 hstart hctl hrx hbegan hcut).trans ?_
      rw [h, if_neg (by decide), if_pos hbad]
    · refine (radioFrameReceive_whole hs1 hstart hctl hrx hbegan hcut h hsw hmin hmax).trans ?_
      rw [hnone]
    · intro bytes f v c sl h hsw hmin hmax hpsdu hf hok hd hh hx hfl hcase
      have hslot (i : Nat) : s.slot i = s1.slot i := by rw [hs1]; rfl
      simp only [hslot] at hcase ⊢
      have hv : s1.serves 1 = false ∧ v = 2 ∧ c = .busy ∧ sl = none ∨ s1.serves 1 = true ∧ DataVerdict s1 f v c sl := by
        rcases hcase with hno | ⟨hs, hsrc, rfl, rfl, rfl⟩ | ⟨hs, h0, h1, hfault, rfl, rfl, rfl⟩ | ⟨hs, h0, h1, hfault, hgone, rfl, rfl, rfl⟩ |
          ⟨hs, h0, h1, hfree, hdecom, hfault, rfl, ⟨hnew, rfl, rfl⟩ | ⟨hold, rfl, rfl⟩⟩
        · exact .inl hno
        · exact .inr ⟨hs, .stranger hsrc⟩
        · exact .inr ⟨hs, .faulted h0 h1 hfault⟩
        · exact .inr ⟨hs, .gone h0 h1 hfault hgone⟩
        · exact .inr ⟨hs, .fresh h0 h1 hfault hfree hdecom hnew⟩
        · exact .inr ⟨hs, .again h0 h1 hfault hfree hdecom hold⟩
      obtain ⟨r, t, hrun, hchan, heard⟩ := radioFrameReceive_data hs1 hstart hctl hrx hbegan hcut h hsw hmin hmax hpsdu hf hok hd hh hx hfl hv
      obtain ⟨desc, hdesc, hrings, hwram⟩ := heard.packet
      obtain ⟨hseq, hem, hnow⟩ := heard.rest
      subst hf
      rw [hchan] at hrings hwram
      refine ⟨t, desc, hrun, hrings, hwram, hdesc, heard.slot, heard.silent, fun hack => ⟨_, heard.acked hack, rfl, rfl, rfl, rfl, rfl, hchan⟩, ?_, ?_, ?_, hnow⟩
      · exact (SameRegs.of_regs (by rw [hs1]; rfl) _).trans heard.regs
      · rw [hseq, hs1]
        rfl
      · rw [hem, hs1]
        rfl
  · intro s s1 a dpend air ch frame hinv ha hx hs1 hch hdp hfr hair
    exact ⟨radioAckSend_inhibited ha hx hs1, radioAckSend_missed hinv ha hx hs1 hfr hair, radioAckSend_sent hinv ha hx hs1 hch hdp hfr hair⟩
  · intro s ch air pre at_ frame x hx
    exact airFrame_fields hx
  · intro s h
    show execRadioAckSend s = .next s
    unfold execRadioAckSend
    rw [h]
    rfl
  · intro s s1 x r h hs1
    subst hs1
    exact radioSeen_expires h
  · intro s s1 x r h hs1
    subst hs1
    exact plcSeen_expires h

end Sys2Proof.Machine
end

section
/-! SUPPORT. A command of a slot on a quiet unit: its target, its task key, and what is left when the slot's task runs it (R110, R126, R131, R460). -/
namespace Sys2Proof.Machine

section
variable {s : State} {src code target i : Nat} {body : Bytes}

/-! ### The target -/

theorem slotTarget_eq (hi : i < 131072) : slotTarget i = i + 131072 := by
  unfold slotTarget
  omega

theorem target_slot (hi : i < 131072) : bits 16 0 (i + 131072) = i := by
  unfold bits
  omega

theorem target_slotV (hi : i < 131072) : bit 17 (i + 131072) = true := by
  unfold bit
  have : (i + 131072) / 2 ^ 17 = 1 := by omega
  rw [this]
  rfl

theorem cmdSrc_slot (hi : i < 131072) : cmdSrc (i + 131072) = { slot := i, slotV := true } := by
  unfold cmdSrc
  rw [target_slotV hi, target_slot hi]
  rfl

/-- A command of a slot is a task of that slot (R110). -/
theorem keysOf_slotCmd (s : State) (src code : Nat) (hi : i < 131072) (body : Bytes) :
    keysOf s.cfg (s.givenEntry src code (i + 131072) body) = [.slot i] := by
  have hsrc : (s.givenEntry src code (i + 131072) body).src = { slot := i, slotV := true, origin := s.seq.pos } :=
    congrArg (fun x : Src => { x with origin := s.seq.pos }) (cmdSrc_slot hi)
  have hkind : (s.givenEntry src code (i + 131072) body).kind = .mgmtCmd := rfl
  have hcls : (s.givenEntry src code (i + 131072) body).cls = .normal := rfl
  unfold keysOf
  rw [hkind, hsrc, hcls]
  rfl

/-- A command of a slot by its length and its reserved bits is well formed. -/
theorem cmdFits_slot (hi : i < 131072) (hcode : code < 65536) (hl : cmdLenOk code body.length = some true) (hv : cmdSlotV code = true)
    (hr : rosterBad (givenCmd code (i + 131072) body) = false) : CmdFits code (i + 131072) body :=
  ⟨hcode, by omega, hl, hr, by rw [hv]; exact target_slotV hi⟩

/-! ### The task -/

/-- Where the slot has met every fence and has no record on the media, its task runs a command and takes its JSN (R126, R131). -/
theorem slotTask_command {c d : Com} {t : Task} (hkind : t.entry.kind = .mgmtCmd) (hwork : t.work = .entry)
    (hf : ∀ f ∈ c.s.ctx.fences, f.bnd = true → f.jsn ≤ (c.slot i).lastJsn) (hd : c.mgmt t.entry = d) (hsp : ∀ r ∈ d.s.erg.spilled, r.slot ≠ i) :
    c.slotTask i t = d.upd fun s => s.stampSlot i t.jsn := by
  have hrel : ∀ x : Slot, (d.setSlot i x).upd (fun s => s.releaseParks i) = d.upd fun s => s.setSlot i x := fun x => by
    unfold Com.setSlot Com.upd
    simp only [lockedWrite_eq]
    exact congrArg (fun s => { d with s := s }) (releaseParks_none (s := d.s.setSlot i x) hsp)
  have hfence : c.applyFences i t.jsn = c := applyFences_none fun f hm hb _ => hf f hm hb
  have hnoframe : ((Kind.mgmtCmd == Kind.radFrame) || (Kind.mgmtCmd == Kind.plcFrame)) = false := rfl
  unfold Com.slotTask
  simp only [hkind, hwork, hnoframe, Bool.false_and, Bool.false_eq_true, if_false, if_true, hfence, hd]
  exact hrel _

/-- A command leaves the registers of its effect. -/
theorem Commanded.regs {u t : State} {st : Nat} {outs : List Output} (h : Commanded s u t src code target body st outs) : t.regs = u.regs := by
  obtain ⟨_, _, -, -, -, -, -, -, -, -, -, -, -, -, -, -, -, ht⟩ := h
  exact (congrArg State.regs ht).trans rfl

theorem runTask_slot (s b : State) (i : Nat) (e : Entry) :
    (b.comOf (s.taskOf (.slot i) e)).runTask (s.taskOf (.slot i) e) = (b.comOf (s.taskOf (.slot i) e)).slotTask i (s.taskOf (.slot i) e) := by
  unfold Com.runTask
  rfl

/-- What is left when a command of a fenced slot runs: its effect `u`, with the slot at the command's JSN, and its outputs. -/
theorem slot_commanded (g : s.Given src code target body) (hkey : keysOf s.cfg (s.givenEntry src code target body) = [.slot i])
    (hfit : CmdFits code target body) (h11 : code ≠ 0x11)
    (hf : s.Fenced i) (hfault : (s.slot i).fault = false) (hsp : ∀ r ∈ s.erg.spilled, r.slot ≠ i) {u : State} {st : Status} {outs : List Output}
    (hu : u.erg = s.erg ∧ u.boot = s.boot) (hcells : (outs.map Output.cells).foldl (· + ·) 0 ≤ 4096)
    (hrun : ∀ b, ∃ c1, (s.givenCom (s.moved b) (.slot i) src code target body).command (s.givenEntry src code target body)
      (s.givenOrigin src code target body) (givenCmd code target body) = (st, c1) ∧ c1.s = u.moved b ∧ c1.outs = outs ∧ c1.wait = none ∧
      c1.ojsn = s.seq.nextJsn) :
    Commanded s (u.stampSlot i s.seq.nextJsn) (s.giveCommand src code target body) src code target body st.code outs := by
  obtain ⟨herg, hboot⟩ := hu
  refine given_commits g hkey (by rw [(given_code s src code target body hfit.short).1]; exact h11) hfault (fun b hb => ?_)
    ⟨congrArg Erg.outq herg, by show u.boot.restartDue = false; rw [hboot]; exact g.quiet.stays⟩
  have hm := queued_moved g hb hfit.short h11
  obtain ⟨c1, hc, hs, houts, hwait, hj⟩ := hrun b
  rw [← hm] at hc
  obtain ⟨o, he, h6, ho, hd, hby, hce⟩ := mgmt_given g hb hfit hc
  have hfb : ∀ f ∈ b.ctx.fences, f.bnd = true → f.jsn ≤ (b.slot i).lastJsn := by rw [hm]; exact hf
  have hsb : ∀ r ∈ c1.s.erg.spilled, r.slot ≠ i := by rw [hs]; show ∀ r ∈ u.erg.spilled, _; rw [herg]; exact hsp
  have htask := (runTask_slot s b i (s.givenEntry src code target body)).trans
    (slotTask_command (i := i) (t := s.taskOf (.slot i) (s.givenEntry src code target body)) rfl
      (workOf_command (e := s.givenEntry src code target body) rfl (.slot i)) hfb he hsb)
  refine ⟨_, o, htask, hwait, by rw [← houts]; rfl, h6, ho.trans hj, hd, hby, hce, hcells, ?_⟩
  show c1.s.stampSlot i s.seq.nextJsn = _
  rw [hs]
  rfl

end

end Sys2Proof.Machine
end

section
/-! SUPPORT. The roster commands ROSTER_ADD, ROSTER_SET and ROSTER_DECOM, each by what its slot's task does (R156, R157, R191, R429, R459). -/
namespace Sys2Proof.Machine

section
variable {s : State} {src : Nat} {i : Fin 131072}

/-! ### ROSTER_ADD -/

/-- ROSTER_ADD's body (R460). -/
def rosterBody (eui cls med grp : Nat) (wkey : Bytes) : Bytes := be 8 eui ++ le 1 cls ++ le 1 med ++ le 2 grp ++ fit 24 wkey

theorem fldB_be_append {n v : Nat} (b : Bytes) : fldB 0 n (be n v ++ b) = v % 256 ^ n := by
  unfold fldB
  rw [sub_append_left _ _ _ (be_length n v)]
  unfold beVal be
  rw [List.reverse_reverse, leVal_le]

theorem rosterBody_fields {eui cls med grp : Nat} {wkey : Bytes} (he : eui < 2 ^ 64) (hc : cls < 256) (hm : med < 256) (hg : grp < 65536) :
    fldB 0 8 (rosterBody eui cls med grp wkey) = eui ∧ fld 8 1 (rosterBody eui cls med grp wkey) = cls ∧
      fld 9 1 (rosterBody eui cls med grp wkey) = med ∧ fld 10 2 (rosterBody eui cls med grp wkey) = grp ∧
      sub 12 24 (rosterBody eui cls med grp wkey) = fit 24 wkey := by
  unfold rosterBody
  simp only [List.append_assoc]
  refine ⟨?_, ?_, ?_, ?_, ?_⟩
  · rw [fldB_be_append]
    omega
  · simp [fld_append_right]
    omega
  · simp [fld_append_right]
    omega
  · simp [fld_append_right]
    omega
  · simp only [sub_append_right, be_length, le_length, Nat.reduceLeDiff, Nat.reduceSub]
    simpa using sub_append_left (fit 24 wkey) [] 24 (fit_length 24 wkey)

theorem rosterBody_length (eui cls med grp : Nat) (wkey : Bytes) : (rosterBody eui cls med grp wkey).length = 36 := by
  simp [rosterBody]

/-- The slot that ROSTER_ADD makes (R155 to R157). -/
def rosterSlot (i eui cls med grp : Nat) (wkey : Bytes) (last : Nat) : Slot :=
  { state := .rostered, medium := med, group := grp % 4096, member := bit 12 grp, ref := bit 13 grp, short := i + 1, cls := cls, eui := eui,
    wkey := fit 24 wkey, lastJsn := last }

theorem bits_group (grp : Nat) : bits 11 0 grp = grp % 4096 := by
  unfold bits
  omega

section
variable {c : Com} {n eui cls med grp : Nat} {wkey : Bytes} (hc : cls < 16) (hm : med < 3) (hg : grp < 2 ^ 14) (he : eui < 2 ^ 64)
  (hfree : (c.slot n).state = .free) (hpool : c.s.inPool n = false) (hnew : c.s.findEui eui = none)
include hc hm hg he hfree hpool hnew

theorem rosterAdd_placed (hfault : (c.slot n).fault = false) (hidx : c.s.idxPlaces eui = true) :
    c.rosterAdd n (rosterBody eui cls med grp wkey) =
      (.ok, c.upd fun s => s.poolNote ((s.setSlot n (rosterSlot n eui cls med grp wkey (c.slot n).lastJsn)).idxAdd eui n)) := by
  obtain ⟨fe, fc, fm, fg, fw⟩ := rosterBody_fields (wkey := wkey) he (show cls < 256 by omega) (show med < 256 by omega) (show grp < 65536 by omega)
  unfold Com.rosterAdd
  simp only [fe, fc, fm, fg, fw, hfault, bits_group, lockedWrite_eq]
  rw [if_neg (by omega), if_neg (by simp [hfree]), if_neg (by simp [hpool]), if_neg (by simp [hnew]), if_neg (by simp [hidx])]
  rfl

theorem rosterAdd_indexFull (hidx : c.s.idxPlaces eui = false) : c.rosterAdd n (rosterBody eui cls med grp wkey) = (.indexFull, c) := by
  obtain ⟨fe, fc, fm, fg, fw⟩ := rosterBody_fields (wkey := wkey) he (show cls < 256 by omega) (show med < 256 by omega) (show grp < 65536 by omega)
  unfold Com.rosterAdd
  simp only [fe, fc, fm, fg]
  rw [if_neg (by omega), if_neg (by simp [hfree]), if_neg (by simp [hpool]), if_neg (by simp [hnew]), if_pos hidx]

end

/-- Entering an EUI-64 moves the index only. -/
theorem idxAdd_form (s : State) (e n : Nat) :
    s.idxAdd e n = { s with arb := { s.arb with index := (idxInsert s.cfg.hashKey idxMoves s.arb.index e n).getD s.arb.index } } := by
  unfold State.idxAdd
  cases idxInsert s.cfg.hashKey idxMoves s.arb.index e n <;> rfl

theorem idxAdd_moved (s b : State) (e n : Nat) : (s.moved b).idxAdd e n = (s.idxAdd e n).moved b := by
  rw [idxAdd_form, idxAdd_form]
  rfl

theorem poolNote_form (s0 s : State) : ∃ r, s0.poolNote s = { s with regs := r } := by
  unfold State.poolNote
  split
  · exact ⟨_, State.irq_eq _ _ _⟩
  · exact ⟨_, rfl⟩

theorem irq_moved (s b : State) (a k : Nat) : (s.moved b).irq a k = (s.irq a k).moved b := by
  by_cases h : s.bitOf a k = true
  · exact (if_pos h).trans (congrArg (State.moved · b) (if_pos h).symm)
  · exact (if_neg h).trans (congrArg (State.moved · b) (if_neg h : s.irq a k = _).symm)

theorem poolNote_moved (s0 s b : State) : (s0.moved b).poolNote (s.moved b) = (s0.poolNote s).moved b := by
  have hfree : (s0.moved b).poolFree = s0.poolFree ∧ (s.moved b).poolFree = s.poolFree := ⟨rfl, rfl⟩
  unfold State.poolNote
  rw [hfree.1, hfree.2]
  split
  · exact irq_moved s b _ _
  · rfl

theorem command_rosterAdd (c : Com) (e : Entry) (o : Origin) (body : Bytes) :
    c.command e o (givenCmd 0x01 (i + 131072) body) = c.rosterAdd i body :=
  congrArg (c.rosterAdd · body) (target_slot i.isLt)

section
variable {eui cls med grp : Nat} {wkey : Bytes} (hc : cls < 16) (hm : med < 3) (hg : grp < 2 ^ 14) (he : eui < 2 ^ 64)
include hc hm hg he

theorem cmdFits_rosterAdd : CmdFits 0x01 (i + 131072) (rosterBody eui cls med grp wkey) := by
  obtain ⟨-, fc, fm, fg, -⟩ := rosterBody_fields (wkey := wkey) he (show cls < 256 by omega) (show med < 256 by omega) (show grp < 65536 by omega)
  refine cmdFits_slot i.isLt (by decide) (by rw [rosterBody_length]; rfl) rfl ?_
  unfold rosterBad givenCmd
  simp only [fc, fm, fg]
  simp
  omega

variable (g : s.Given src 0x01 (i + 131072) (rosterBody eui cls med grp wkey)) (hf : s.Fenced i) (hsp : ∀ r ∈ s.erg.spilled, r.slot ≠ i)
  (hfree : (s.slot i).state = .free) (hfault : (s.slot i).fault = false) (hpool : s.inPool i = false) (hnew : s.findEui eui = none)
include g hf hsp hfree hfault hpool hnew

theorem rosterAdd_commanded (hidx : s.idxPlaces eui = true) :
    Commanded s ((s.poolNote ((s.setSlot i (rosterSlot i eui cls med grp wkey (s.slot i).lastJsn)).idxAdd eui i)).stampSlot i s.seq.nextJsn)
      (s.giveCommand src 0x01 (i + 131072) (rosterBody eui cls med grp wkey)) src 0x01 (i + 131072) (rosterBody eui cls med grp wkey) 0 [] := by
  refine slot_commanded g (keysOf_slotCmd s src _ i.isLt _) (cmdFits_rosterAdd hc hm hg he) (by decide) hf hfault hsp (st := .ok) ?_ (by simp) fun b => ?_
  · obtain ⟨r, hr⟩ := poolNote_form s ((s.setSlot i (rosterSlot i eui cls med grp wkey (s.slot i).lastJsn)).idxAdd eui i)
    rw [hr, idxAdd_form]
    exact ⟨rfl, rfl⟩
  rw [command_rosterAdd]
  refine ⟨_, rosterAdd_placed (c := s.givenCom (s.moved b) _ _ _ _ _) hc hm hg he hfree hpool hnew hfault hidx, ?_, rfl, rfl, rfl⟩
  show (s.moved b).poolNote (((s.setSlot i (rosterSlot i eui cls med grp wkey (s.slot i).lastJsn)).moved b).idxAdd eui i) = _
  rw [idxAdd_moved, poolNote_moved]

theorem rosterAdd_refused (hidx : s.idxPlaces eui = false) :
    Commanded s (s.stampSlot i s.seq.nextJsn) (s.giveCommand src 0x01 (i + 131072) (rosterBody eui cls med grp wkey)) src 0x01 (i + 131072)
      (rosterBody eui cls med grp wkey) 8 [] := by
  refine slot_commanded g (keysOf_slotCmd s src _ i.isLt _) (cmdFits_rosterAdd hc hm hg he) (by decide) hf hfault hsp (st := .indexFull) ⟨rfl, rfl⟩
    (by simp) fun b => ?_
  rw [command_rosterAdd]
  exact ⟨_, rosterAdd_indexFull (c := s.givenCom (s.moved b) _ _ _ _ _) hc hm hg he hfree hpool hnew hidx, rfl, rfl, rfl, rfl⟩

end

/-! ### ROSTER_SET -/

/-- ROSTER_SET's body (R460). -/
def setBody (cls grp : Nat) : Bytes := le 1 cls ++ le 1 0 ++ le 2 grp

theorem setBody_fields {cls grp : Nat} (hc : cls < 256) (hg : grp < 65536) : fld 0 1 (setBody cls grp) = cls ∧ fld 2 2 (setBody cls grp) = grp := by
  unfold setBody
  simp only [List.append_assoc]
  refine ⟨by rw [fld_le_append]; omega, ?_⟩
  simp [fld_append_right]
  omega

theorem command_rosterSet (c : Com) (e : Entry) (o : Origin) (body : Bytes) :
    c.command e o (givenCmd 0x04 (i + 131072) body) = c.rosterSet i body :=
  congrArg (c.rosterSet · body) (target_slot i.isLt)

theorem rosterSet_ok {c : Com} {n cls grp : Nat} (hc : cls < 16) (hg : grp < 2 ^ 14)
    (hst : (c.slot n).state = .rostered ∨ (c.slot n).state = .joining ∨ (c.slot n).state = .active) :
    c.rosterSet n (setBody cls grp) =
      (.ok, c.upd fun s => s.setSlot n { c.slot n with cls := cls, group := grp % 4096, member := bit 12 grp, ref := bit 13 grp }) := by
  obtain ⟨fc, fg⟩ := setBody_fields (show cls < 256 by omega) (show grp < 65536 by omega)
  unfold Com.rosterSet Com.setSlot
  simp only [fc, fg, bits_group, lockedWrite_eq]
  rw [if_neg (by omega), if_pos hst]

theorem cmdFits_rosterSet {cls grp : Nat} (hc : cls < 16) (hg : grp < 2 ^ 14) : CmdFits 0x04 (i + 131072) (setBody cls grp) := by
  obtain ⟨fc, fg⟩ := setBody_fields (show cls < 256 by omega) (show grp < 65536 by omega)
  refine cmdFits_slot i.isLt (by decide) (by simp [setBody, cmdLenOk]) rfl ?_
  unfold rosterBad givenCmd
  simp only [fc, fg]
  simp
  omega

theorem rosterSet_commanded {cls grp : Nat} (g : s.Given src 0x04 (i + 131072) (setBody cls grp)) (hf : s.Fenced i) (hc : cls < 16) (hg : grp < 2 ^ 14)
    (hst : (s.slot i).state = .rostered ∨ (s.slot i).state = .joining ∨ (s.slot i).state = .active) (hfault : (s.slot i).fault = false)
    (hsp : ∀ r ∈ s.erg.spilled, r.slot ≠ i) :
    Commanded s ((s.setSlot i { s.slot i with cls := cls, group := grp % 4096, member := bit 12 grp, ref := bit 13 grp }).stampSlot i s.seq.nextJsn)
      (s.giveCommand src 0x04 (i + 131072) (setBody cls grp)) src 0x04 (i + 131072) (setBody cls grp) 0 [] := by
  refine slot_commanded g (keysOf_slotCmd s src _ i.isLt _) (cmdFits_rosterSet hc hg) (by decide) hf hfault hsp (st := .ok) ⟨rfl, rfl⟩ (by simp) fun b => ?_
  rw [command_rosterSet]
  exact ⟨_, rosterSet_ok (c := s.givenCom (s.moved b) _ _ _ _ _) hc hg hst, rfl, rfl, rfl, rfl⟩

/-! ### ROSTER_DECOM -/

theorem command_rosterDecom (c : Com) (e : Entry) (o : Origin) (body : Bytes) :
    c.command e o (givenCmd 0x02 (i + 131072) body) = c.rosterDecom i :=
  congrArg c.rosterDecom (target_slot i.isLt)

/-- A slot without pushes shows none (R426, R429). -/
theorem cancelPushes_none {c : Com} {n : Nat} (h : c.s.ctx.pushesOf n = []) (m : Nat) :
    Com.cancelPushes m c n = c.upd fun s => s.setSlot n { c.slot n with pushId := 0, pushKind := 0, pushAtt := 0, pushActive := false } := by
  have hcur : c.s.ctx.current n = none := by
    have hnone := List.filter_eq_nil_iff.1 h
    exact List.find?_eq_none.2 fun p hp => by simp [hnone p hp]
  have hshow : c.showPush n = c.upd fun s => s.setSlot n { c.slot n with pushId := 0, pushKind := 0, pushAtt := 0, pushActive := false } := by
    unfold Com.showPush Com.setSlot
    simp only [hcur, lockedWrite_eq]
  unfold Com.cancelPushes
  cases m with
  | zero => exact hshow
  | succ m =>
    simp only [h]
    exact hshow

/-- The state once slot `n` is decommissioned (R156). -/
def State.decommed (s : State) (n : Nat) : State := s.setSlot n { s.slot n with state := .decom, decomEpoch := s.ctx.epoch }

theorem rosterDecom_ok {c : Com} {n : Nat} (hst : (c.slot n).state = .rostered ∨ (c.slot n).state = .joining ∨ (c.slot n).state = .active)
    (hp : c.s.ctx.pushesOf n = []) :
    c.rosterDecom n = (.ok, c.upd fun s => (s.decommed n).setSlot n { (s.decommed n).slot n with pushId := 0, pushKind := 0, pushAtt := 0, pushActive := false }) := by
  have hset : c.setSlot n { c.slot n with state := .decom, decomEpoch := c.s.ctx.epoch } = c.upd fun s => s.decommed n := by
    unfold Com.setSlot
    simp only [lockedWrite_eq]
    rfl
  unfold Com.rosterDecom
  simp only [hset]
  rw [if_pos hst, cancelPushes_none (c := c.upd fun s => s.decommed n) hp]
  rfl

theorem rosterDecom_commanded (g : s.Given src 0x02 (i + 131072) []) (hf : s.Fenced i)
    (hst : (s.slot i).state = .rostered ∨ (s.slot i).state = .joining ∨ (s.slot i).state = .active) (hfault : (s.slot i).fault = false)
    (hp : s.ctx.pushesOf i = []) (hsp : ∀ r ∈ s.erg.spilled, r.slot ≠ i) :
    Commanded s (((s.decommed i).setSlot i { (s.decommed i).slot i with pushId := 0, pushKind := 0, pushAtt := 0, pushActive := false }).stampSlot i s.seq.nextJsn)
      (s.giveCommand src 0x02 (i + 131072) []) src 0x02 (i + 131072) [] 0 [] := by
  refine slot_commanded g (keysOf_slotCmd s src _ i.isLt _) (cmdFits_slot i.isLt (by decide) rfl rfl rfl) (by decide) hf hfault hsp (st := .ok) ⟨rfl, rfl⟩ (by simp)
    fun b => ?_
  rw [command_rosterDecom]
  exact ⟨_, rosterDecom_ok (c := s.givenCom (s.moved b) _ _ _ _ _) hst hp, rfl, rfl, rfl, rfl⟩

end

end Sys2Proof.Machine
end

section
/-! SUPPORT. ROSTER_RELEASE: the retractions of what the slot still parks, and the slot cleared (R136, R137, R156, R158). -/
namespace Sys2Proof.Machine

/-! ### Ordering a list -/

section
variable {α : Type} (lt : α → α → Bool)

theorem insertBy_perm (x : α) (l : List α) : (insertBy lt x l).Perm (x :: l) := by
  induction l with
  | nil => exact .refl _
  | cons y r ih =>
    unfold insertBy
    split
    · exact .refl _
    · exact (ih.cons y).trans (.swap x y r)

theorem sortBy_perm (l : List α) : (sortBy lt l).Perm l := by
  induction l using List.reverseRecOn with
  | nil => exact .refl _
  | append_singleton l x ih =>
    have hsnoc : sortBy lt (l ++ [x]) = insertBy lt x (sortBy lt l) := by simp [sortBy]
    rw [hsnoc]
    exact (insertBy_perm lt x _).trans ((ih.cons x).trans (List.perm_append_singleton x l).symm)

end

/-! ### Retracting parked frames' mirage records -/

/-- The mirage records of parked frames are retracted, in their order (R137). -/
def Com.retractAll (c : Com) (ps : List Park) : Com := ps.foldl (fun a p => a.retract p.mirage) c

/-- From `c` to `d` `n` retractions were handed over and counted. -/
structure Retracted (c d : Com) (n : Nat) : Prop where
  frame : d = { c with s := { c.s with regs := d.s.regs }, outs := d.outs }
  regs  : SameRegs c.s d.s [rErgRetcnt]
  outs  : ∃ O, d.outs = c.outs ++ O ∧ O.length = n ∧ ∀ o ∈ O, o.rtype = 7 ∧ o.ojsn = c.ojsn ∧ o.cells = 1

theorem Retracted.nil (c : Com) : Retracted c c 0 := ⟨rfl, .refl _ _, [], by simp, rfl, nofun⟩

theorem Retracted.append {c d e : Com} {m n : Nat} (h : Retracted c d m) (k : Retracted d e n) : Retracted c e (m + n) := by
  obtain ⟨O, hO, hm, hall⟩ := h.outs
  obtain ⟨P, hP, hn, pall⟩ := k.outs
  have hj : d.ojsn = c.ojsn := by rw [h.frame]
  refine ⟨by rw [k.frame, h.frame], h.regs.trans k.regs, O ++ P, by rw [hP, hO, List.append_assoc], by rw [List.length_append, hm, hn], fun o ho => ?_⟩
  rcases List.mem_append.1 ho with ho | ho
  · exact hall o ho
  · rw [← hj]
    exact pall o ho

theorem retraction_length (m : Bytes) : (retraction m).length ≤ 24 := by
  simp [retraction]
  omega

theorem Retracted.one (c : Com) (m : Bytes) : Retracted c (c.retract (some m)) 1 := by
  refine ⟨rfl, setReg_sameRegs c.s (by simp) _, [_], rfl, rfl, fun o ho => ?_⟩
  rw [List.mem_singleton.1 ho]
  refine ⟨rfl, rfl, ?_⟩
  have hlen := retraction_length m
  unfold Output.cells ceilDiv
  simp only [List.length_append, tag_length]
  omega

/-- Each parked frame with a mirage record gives one retraction (R136, R137). -/
theorem retractAll_retracted (c : Com) (ps : List Park) : Retracted c (c.retractAll ps) (ps.filter fun p => p.mirage.isSome).length := by
  induction ps generalizing c with
  | nil => exact .nil c
  | cons p ps ih =>
    obtain ⟨q, e, _ | m⟩ := p
    · exact ih c
    · have h := (Retracted.one c m).append (ih (c.retract (some m)))
      rw [Nat.add_comm] at h
      exact h

/-- A commit whose state has moved on. -/
def Com.moved (c : Com) (b : State) : Com := { c with s := c.s.moved b }

theorem retract_moved (c : Com) (b : State) (m : Option Bytes) : (c.moved b).retract m = (c.retract m).moved b := by
  cases m <;> rfl

theorem retractAll_moved (c : Com) (b : State) (ps : List Park) : (c.moved b).retractAll ps = (c.retractAll ps).moved b := by
  induction ps generalizing c with
  | nil => rfl
  | cons p ps ih =>
    show ((c.moved b).retract p.mirage).retractAll ps = _
    rw [retract_moved, ih]
    rfl

/-! ### The command -/

section
variable {s : State} {src : Nat} {i : Fin 131072}

theorem command_rosterRelease (c : Com) (e : Entry) (o : Origin) (body : Bytes) :
    c.command e o (givenCmd 0x03 (i + 131072) body) = c.rosterRelease i :=
  congrArg c.rosterRelease (target_slot i.isLt)

/-- The state once slot `n` is freed (R156, R158). -/
def State.released (s : State) (n : Nat) : State := (s.idxDrop n).setSlot n { lastJsn := (s.slot n).lastJsn }

/-- The retractions of what a slot still parks. -/
def Com.retractParks (c : Com) (n : Nat) : Com := c.retractAll ((c.slot n).parksFrom (c.slot n).next)

theorem retractParks_retracted (c : Com) (n : Nat) : Retracted c (c.retractParks n) ((c.slot n).parks.filter fun p => p.mirage.isSome).length := by
  have hlen : (((c.slot n).parksFrom (c.slot n).next).filter fun p => p.mirage.isSome).length = ((c.slot n).parks.filter fun p => p.mirage.isSome).length :=
    ((sortBy_perm _ _).filter _).length_eq
  rw [← hlen]
  exact retractAll_retracted c _

theorem rosterRelease_ok {c : Com} {n : Nat} (hst : (c.slot n).state = .decom) (hfault : (c.slot n).fault = false) (hep : (c.slot n).decomEpoch < c.s.ctx.epoch) :
    c.rosterRelease n = (.ok, (c.retractParks n).upd fun s => s.released n) := by
  have hslot : (c.retractParks n).s.slot n = c.slot n := by rw [(retractParks_retracted c n).frame]; rfl
  unfold Com.rosterRelease Com.setSlot State.released Com.upd
  simp only [hslot, lockedWrite_eq]
  rw [if_neg (not_not.2 hst), if_neg (by omega), hfault]
  rfl

theorem rosterRelease_early {c : Com} {n : Nat} (hst : (c.slot n).state = .decom) (hep : c.s.ctx.epoch ≤ (c.slot n).decomEpoch) :
    c.rosterRelease n = (.notClosed, c) := by
  unfold Com.rosterRelease
  rw [if_neg (not_not.2 hst), if_pos hep]

section
variable (g : s.Given src 0x03 (i + 131072) []) (hf : s.Fenced i) (hst : (s.slot i).state = .decom) (hfault : (s.slot i).fault = false)
  (hsp : ∀ r ∈ s.erg.spilled, r.slot ≠ i)
include g hf hst hfault hsp

theorem rosterRelease_commanded (hparks : (s.slot i).parks.length ≤ 1024) (hep : (s.slot i).decomEpoch < s.ctx.epoch) : ∃ r outs,
    Commanded s ((({ (s.idxDrop i) with regs := r } : State).setSlot i { lastJsn := (s.slot i).lastJsn }).stampSlot i s.seq.nextJsn)
      (s.giveCommand src 0x03 (i + 131072) []) src 0x03 (i + 131072) [] 0 outs ∧ SameRegs s (s.giveCommand src 0x03 (i + 131072) []) [rErgRetcnt] ∧
      outs.length = ((s.slot i).parks.filter fun p => p.mirage.isSome).length ∧ ∀ o ∈ outs, o.rtype = 7 ∧ o.ojsn = s.seq.nextJsn := by
  have hret := retractParks_retracted (s.givenCom s (.slot i) src 0x03 (i + 131072) []) i
  generalize hd : (s.givenCom s (.slot i) src 0x03 (i + 131072) []).retractParks i = d at hret
  obtain ⟨hframe, hregs, O, hO, hlen, hall⟩ := hret
  have houts : d.outs = O := hO
  have hcells : (O.map Output.cells).foldl (· + ·) 0 ≤ 4096 := by
    have hone : O.map Output.cells = List.replicate O.length 1 := List.eq_replicate_iff.2 ⟨by simp, by simpa using fun o ho => (hall o ho).2.2⟩
    have hle : O.length ≤ (s.slot i).parks.length := by rw [hlen]; exact List.length_filter_le _ _
    rw [hone, ← List.sum_eq_foldl, List.sum_replicate]
    simp
    omega
  have hcom : Commanded s ((({ (s.idxDrop i) with regs := d.s.regs } : State).setSlot i { lastJsn := (s.slot i).lastJsn }).stampSlot i s.seq.nextJsn)
      (s.giveCommand src 0x03 (i + 131072) []) src 0x03 (i + 131072) [] 0 O := by
    refine slot_commanded g (keysOf_slotCmd s src _ i.isLt _) (cmdFits_slot i.isLt (by decide) rfl rfl rfl) (by decide) hf hfault hsp (st := .ok) ⟨rfl, rfl⟩ hcells
      fun b => ?_
    rw [command_rosterRelease]
    have hmove : (s.givenCom (s.moved b) (.slot i) src 0x03 (i + 131072) []).retractParks i = d.moved b := by
      rw [← hd]
      exact retractAll_moved (s.givenCom s (.slot i) src 0x03 (i + 131072) []) b _
    refine ⟨_, rosterRelease_ok (c := s.givenCom (s.moved b) _ _ _ _ _) hst hfault hep, ?_⟩
    rw [hmove, hframe, houts]
    exact ⟨rfl, rfl, rfl, rfl⟩
  refine ⟨_, _, hcom, ?_, hlen, fun o ho => ?_⟩
  · exact hregs.trans (.of_regs hcom.regs _)
  · obtain ⟨htype, hjsn, -⟩ := hall o ho
    exact ⟨htype, hjsn⟩

theorem rosterRelease_refused (hep : s.ctx.epoch ≤ (s.slot i).decomEpoch) :
    Commanded s (s.stampSlot i s.seq.nextJsn) (s.giveCommand src 0x03 (i + 131072) []) src 0x03 (i + 131072) [] 7 [] := by
  refine slot_commanded g (keysOf_slotCmd s src _ i.isLt _) (cmdFits_slot i.isLt (by decide) rfl rfl rfl) (by decide) hf hfault hsp (st := .notClosed) ⟨rfl, rfl⟩
    (by simp) fun b => ?_
  rw [command_rosterRelease]
  exact ⟨_, rosterRelease_early (c := s.givenCom (s.moved b) _ _ _ _ _) hst hep, rfl, rfl, rfl, rfl⟩

end

end

/-! ### The obligation -/

/-- Settles O33: each command is the one task of its slot, whose commit changes that slot and hands over its outputs and the acknowledgement. -/
theorem rosterCommandsChangeOneSlot : Obligations.RosterCommandsChangeOneSlot := by
  unfold Obligations.RosterCommandsChangeOneSlot
  have hgive : ∀ (s : State) (src code : Nat) (i : Fin 131072) (body : Bytes), s.giveCommand src code (slotTarget i) body = s.giveCommand src code (i + 131072) body :=
    fun s src code i body => by rw [slotTarget_eq i.isLt]
  refine ⟨?_, ?_, ?_, ?_⟩
  · rintro src i eui cls med grp wkey body s g hf hc hm hg he hfree hfault hpool hnew hsp rfl
    exact ⟨_, congrArg Host.Outcome.next (hgive s src 0x01 i _), rosterAdd_commanded hc hm hg he g hf hsp hfree hfault hpool hnew,
      rosterAdd_refused hc hm hg he g hf hsp hfree hfault hpool hnew⟩
  · intro src i cls grp s g hf hc hg hst hfault hsp
    exact ⟨_, congrArg Host.Outcome.next (hgive s src 0x04 i _), rosterSet_commanded g hf hc hg hst hfault hsp⟩
  · intro src i s g hf hst hfault hp hsp
    exact ⟨_, _, congrArg Host.Outcome.next (hgive s src 0x02 i _), rfl, rosterDecom_commanded g hf hst hfault hp hsp⟩
  · intro src i s g hf hst hfault hparks hsp
    exact ⟨_, congrArg Host.Outcome.next (hgive s src 0x03 i _), rosterRelease_commanded g hf hst hfault hsp hparks, rosterRelease_refused g hf hst hfault hsp⟩

end Sys2Proof.Machine
end

section
/-! SUPPORT. What the feeder front end can change at all: itself, Q9, its registers and FREE's rate (R300, R308, R313, R323, R478). -/
namespace Sys2Proof.Machine

/-! ### One ring (R79, R89, R91) -/

/-- From `s` to `t` no other ring has changed and of working RAM only the words of ring `n`, which lies where it lay. -/
structure RingKept (n : Nat) (s t : State) : Prop where
  rings : SameRings s t [n]
  place : (t.ring n).base = (s.ring n).base ∧ (t.ring n).sizeLog2 = (s.ring n).sizeLog2
  ram   : SameRam s t [n]

namespace RingKept
variable {n : Nat} {s t : State}

/-- Where neither the rings nor working RAM change. -/
theorem of_same (hq : t.rings = s.rings) (hw : t.wram = s.wram) : RingKept n s t := by
  have hring : ∀ m, t.ring m = s.ring m := fun m => by unfold State.ring; rw [hq]
  exact ⟨fun m _ => hring m, by rw [hring]; exact ⟨rfl, rfl⟩, fun _ _ => by rw [hw]⟩

theorem refl (n : Nat) (s : State) : RingKept n s s := of_same rfl rfl

theorem trans {u : State} (h : RingKept n s t) (k : RingKept n t u) : RingKept n s u := by
  refine ⟨fun m hm => (k.rings m hm).trans (h.rings m hm), ⟨k.place.1.trans h.place.1, k.place.2.trans h.place.2⟩, fun a ha => ?_⟩
  rw [k.ram a, h.ram a ha]
  simpa [Ring.holds, Ring.size, h.place] using ha

theorem set {r : Ring} (hb : r.base = (s.ring n).base) (hs : r.sizeLog2 = (s.ring n).sizeLog2) : RingKept n s (s.setRing n r) := by
  refine ⟨fun m hm => ?_, ?_, fun _ _ => rfl⟩
  · have hne : n ≠ m := fun e => hm (by simp [e])
    simp [State.ring, State.setRing, List.getElem?_set_ne hne]
  · by_cases hn : n < s.rings.length
    · rw [State.ring_setRing hn, if_pos rfl]
      exact ⟨hb, hs⟩
    · unfold State.setRing
      rw [List.set_eq_of_length_le (Nat.le_of_not_lt hn)]
      exact ⟨rfl, rfl⟩

theorem put (p : Nat) (v : Word) : RingKept n s (s.putRingWord (s.ring n) p v) := by
  refine ⟨fun _ _ => rfl, ⟨rfl, rfl⟩, fun a ha => ?_⟩
  have hin : p % (s.ring n).size < (s.ring n).size := Nat.mod_lt _ (Nat.two_pow_pos _)
  have hout := ha n (by simp)
  unfold Ring.holds at hout
  have hne : ∀ k < 4, a ≠ (s.ring n).addr p + k := fun k hk => by unfold Ring.addr; omega
  unfold State.putRingWord ramPutWord ramPut
  rw [sget_sput_ne _ _ _ (hne 3 (by omega)), sget_sput_ne _ _ _ (hne 2 (by omega)), sget_sput_ne _ _ _ (hne 1 (by omega)),
    sget_sput_ne _ _ _ (show a ≠ (s.ring n).addr p from hne 0 (by omega))]

theorem putSet (p : Nat) (v : Word) {r : Ring} (hb : r.base = (s.ring n).base) (hs : r.sizeLog2 = (s.ring n).sizeLog2) :
    RingKept n s ((s.putRingWord (s.ring n) p v).setRing n r) := (put p v).trans (set hb hs)

theorem wadi (n : Nat) (s : State) : RingKept n s (s.wadi n) := by
  unfold State.wadi
  extract_lets r s1 r1
  split
  · have hput : RingKept n s (s1.setRing n r1) := putSet _ _ rfl rfl
    exact hput.trans (of_same (State.irq_rings _ _ _) (State.irq_wram _ _ _))
  · exact refl n s

/-- A producer's write changes the ring's own words only. -/
theorem op (n : Nat) (s : State) (o : RingOp) : RingKept n s (s.ringOp n o).2 := by
  cases o with
  | open_ =>
    have hwadi := wadi n s
    simp only [State.ringOp, State.ringOpen]
    repeat' split
    all_goals first | exact hwadi | exact hwadi.trans (set rfl rfl)
  | push v =>
    simp only [State.ringOp, State.ringPush]
    repeat' split
    all_goals first | exact refl n s | exact set rfl rfl | exact putSet _ _ rfl rfl
  | close ty =>
    simp only [State.ringOp, State.ringClose]
    repeat' split
    all_goals first | exact refl n s | exact set rfl rfl | exact putSet _ _ rfl rfl

theorem opened (n : Nat) (s : State) (reg : Bool) (o : RingOp) : RingKept n s (s.opened n reg o) := by
  cases o with
  | open_ => exact set rfl rfl
  | push v => exact refl n s
  | close ty => exact refl n s

theorem completed (n : Nat) (s : State) (reg : Bool) (r : Reply) : RingKept n s (s.completed reg r) := by
  unfold State.completed
  split <;> exact of_same rfl rfl

theorem feed (n k : Nat) (s : State) : RingKept n s (State.ringFeed n k s) := by
  induction k generalizing s with
  | zero => exact refl n s
  | succ k ih =>
    unfold State.ringFeed
    extract_lets
    split
    · exact refl n s
    · rename_i reg o rest _
      have hop := op n s o
      have hnext : ∀ u r, RingKept n s u → RingKept n s (State.ringFeed n k ((u.setRing n { u.ring n with waiting := rest }).completed reg r)) :=
        fun u r hu =>
          have hrest : RingKept n u (u.setRing n { u.ring n with waiting := rest }) := set rfl rfl
          hu.trans (hrest.trans ((completed n _ reg r).trans (ih _)))
      split
      · exact refl n s
      · next u e =>
        rw [e] at hop
        split
        · exact refl n s
        · exact hnext _ _ hop
      · next u e =>
        rw [e] at hop
        exact hnext _ _ (hop.trans (opened n u reg o))

/-- A packet offered to a ring changes that ring and its words, as far as rings and working RAM go. -/
theorem packet (n : Nat) (s : State) (ty : Nat) (ws : List Word) : RingKept n s (s.ringPacket n ty ws) := by
  unfold State.ringPacket
  extract_lets r
  split
  · have hset : RingKept n s (s.setRing n { r with waiting := r.waiting ++ (packetOps ty ws).map fun o => (false, o) }) := set rfl rfl
    exact hset.trans (feed n _ _)
  · exact refl n s

end RingKept

/-! ### Folds -/

/-- What every step of a fold does, the fold does, for a relation that is reflexive and transitive. -/
theorem foldl_related {α : Type} {R : State → State → Prop} (hrefl : ∀ s, R s s) (htrans : ∀ {a b c}, R a b → R b c → R a c) {f : State → α → State} {l : List α}
    (h : ∀ a, ∀ x ∈ l, R a (f a x)) (s : State) : R s (l.foldl f s) := by
  induction l generalizing s with
  | nil => exact hrefl s
  | cons x l ih => exact htrans (h s x (by simp)) (ih (fun a y hy => h a y (by simp [hy])) _)

/-! ### A flag among the flags of a register -/

/-- A flag that hardware sets leaves every other flag of its register as it was. -/
theorem State.bitOf_irq {s : State} (h : swf regReset s.regs = true) (a k : Nat) {n : Nat} (hn : n < 32) :
    (s.irq a k).bitOf a n = if n = k then true else s.bitOf a n := by
  by_cases hb : s.bitOf a k = true
  · have hsame : s.irq a k = s := if_pos hb
    rw [hsame]
    split
    · next e => rw [e, hb]
    · rfl
  · have hclear : bits k k (s.reg a) = 0 := by
      unfold State.bitOf bit at hb
      unfold bits
      rw [show k + 1 - k = 1 by omega]
      simpa using hb
    have hset : s.irq a k = s.setBit a k true := by
      unfold State.irq State.setBit setBits
      rw [if_neg hb, hclear]
      simp
    rw [hset, State.bitOf_setBit h a k n true hn]

/-! ### What the front end may change -/

/-- The registers that the front end writes: its flags and its count of losses, the last block's values, FREE's rate, and the rings' flags. -/
def feRegs : List Nat := [rMtrIrq, rMtrLostcnt, rTimRate, rQfIrq] ++ (List.range 7).map rMtrRms ++ (List.range 3).map rMtrPinst

/-- The state with what the front end may change taken from `t`. -/
def State.feMoved (s t : State) : State :=
  { s with t := t.t, dev := t.dev, devSub := t.devSub, oas := { s.oas with raw := t.oas.raw }, regs := t.regs, rings := t.rings, wram := t.wram, reply := t.reply, fe := t.fe,
           tim := { s.tim with mains := t.tim.mains } }

/-- From `s` to `t` only what the front end may change has changed; a flag of its own that was set is still set. -/
structure FeMoves (s t : State) : Prop where
  form  : t = s.feMoved t
  regs  : SameRegs s t feRegs
  q9    : RingKept 9 s t
  keeps : s.Inv → t.Inv
  flags : s.Inv → ∀ k < 32, s.bitOf rMtrIrq k = true → t.bitOf rMtrIrq k = true

theorem inv_of_same {s t : State} (hr : t.regs = s.regs) (hq : t.rings = s.rings) (hw : t.wram = s.wram) (hc : t.code = s.code) (i : s.Inv) : t.Inv := by
  unfold State.Inv
  rw [hr, hq, hw, hc]
  exact i

namespace FeMoves
variable {s t u : State}

theorem trans (h : FeMoves s t) (k : FeMoves t u) : FeMoves s u where
  form := k.form.trans (by rw [h.form]; rfl)
  regs := h.regs.trans k.regs
  q9 := h.q9.trans k.q9
  keeps i := k.keeps (h.keeps i)
  flags i n hn hb := k.flags (h.keeps i) n hn (h.flags i n hn hb)

/-- What no register, ring or byte of working RAM sees. -/
theorem of_same (h : t = s.feMoved t) (hr : t.regs = s.regs) (hq : t.rings = s.rings) (hw : t.wram = s.wram) : FeMoves s t where
  form := h
  regs := .of_regs hr _
  q9 := .of_same hq hw
  keeps := inv_of_same hr hq hw (by rw [h]; rfl)
  flags _ k _ hb := by
    unfold State.bitOf
    rw [State.reg_of_regs hr]
    exact hb

theorem refl (s : State) : FeMoves s s := .of_same rfl rfl rfl rfl

theorem setFe (s : State) (f : FrontEnd → FrontEnd) : FeMoves s (s.setFe f) := .of_same rfl rfl rfl rfl

theorem setMains (s : State) (m : Option (Nat × Nat)) : FeMoves s (s.setTim fun x => { x with mains := m }) := .of_same rfl rfl rfl rfl

theorem untilDue (s : State) (d : Nat) : FeMoves s (s.until d) := by
  refine .of_same ?_ (State.until_regs s d) (State.until_rings s d) (State.until_wram s d)
  unfold State.until
  split <;> rfl

/-- A register of the front end that is not its flags. -/
theorem setReg (s : State) {a : Nat} (ha : a ∈ feRegs) (hne : a ≠ rMtrIrq) (v : Nat) : FeMoves s (s.setReg a v) where
  form := rfl
  regs := setReg_sameRegs s ha v
  q9 := .of_same rfl rfl
  keeps := (State.setReg_keeps (Keeps.refl s)).inv
  flags i k _ hb := by
    unfold State.bitOf
    rw [State.reg_setReg_other i.1 v (Ne.symm hne)]
    exact hb

theorem irq (s : State) (k : Nat) : FeMoves s (s.irq rMtrIrq k) where
  form := by rw [State.irq_eq]; rfl
  regs := irq_sameRegs s (by simp [feRegs]) k
  q9 := .of_same (State.irq_rings _ _ _) (State.irq_wram _ _ _)
  keeps := (State.irq_keeps (Keeps.refl s)).inv
  flags i n hn hb := by
    rw [State.bitOf_irq i.1 rMtrIrq k hn, hb, ite_self]

theorem offer (s : State) (x : Input) : FeMoves s (s.offer 9 x) where
  form := by
    have h : RingFrame s (s.offer 9 x) := s.ringPacket_frame 9 _ _
    unfold RingFrame at h
    rw [h]
    rfl
  regs := (ringPacket_sameRegs s 9 _ _).weaken (by simp [feRegs])
  q9 := .packet 9 s _ _
  keeps := (State.offer_keeps (Keeps.refl s)).inv
  flags _ k _ hb := by
    unfold State.bitOf State.offer
    rw [ringPacket_sameRegs s 9 _ _ rMtrIrq (by decide)]
    exact hb

theorem foldl {α : Type} {f : State → α → State} {l : List α} (h : ∀ a, ∀ x ∈ l, FeMoves a (f a x)) (s : State) : FeMoves s (l.foldl f s) :=
  foldl_related refl trans h s

end FeMoves
end Sys2Proof.Machine
end

section
/-! SUPPORT. What the front end's operations leave alone, each in its turn (R302 to R313). -/
namespace Sys2Proof.Machine

namespace FeMoves
variable (s : State)

theorem ite {s a b : State} {c : Prop} [Decidable c] (ha : FeMoves s a) (hb : FeMoves s b) : FeMoves s (if c then a else b) := by
  split
  · exact ha
  · exact hb

/-! ### Delivery and FREE's rate (R308, R313, R478) -/

theorem feLost : FeMoves s s.feLost := (setReg s (by simp [feRegs]) (by decide) _).trans (irq _ 0)

theorem feOffer (l : List FePkt) : FeMoves s (State.feOffer l s).2 := by
  induction l generalizing s with
  | nil => exact refl s
  | cons p r ih =>
    unfold State.feOffer
    split
    · exact (offer s _).trans (ih _)
    · exact refl s

theorem feDrain : FeMoves s s.feDrain := by
  unfold State.feDrain
  have hheld := feOffer s s.fe.held
  generalize State.feOffer s.fe.held s = r at hheld ⊢
  obtain ⟨h, s1⟩ := r
  exact hheld.trans ((feOffer s1 s1.fe.events).trans (setFe _ _))

theorem feBlock (p : FePkt) : FeMoves s (s.feBlock p) := by
  unfold State.feBlock
  dsimp only
  exact ite (refl s) ((feDrain s).trans (ite (offer _ _) (ite (setFe _ _) ((feLost _).trans (setFe _ _)))))

theorem feEvent (ty ph : Nat) (dp v1 v2 : Int) (instant bseq : Nat) : FeMoves s (s.feEvent ty ph dp v1 v2 instant bseq) := by
  unfold State.feEvent State.feEventPkt
  exact ite (refl s) (ite (offer _ _) (ite (setFe _ _) (feLost s)))

theorem setRate (adj : Int) : FeMoves s (s.setRate adj) := setReg s (by simp [feRegs]) (by decide) _

theorem mainsCycle : FeMoves s s.mainsCycle := by
  unfold State.mainsCycle
  split
  · split
    · exact setMains s _
    · exact (setMains s _).trans (setRate _ _)
  · exact refl s

theorem mainsLost : FeMoves s s.mainsLost := ite ((setMains s _).trans (setRate _ _)) (refl s)

theorem showBlock (b : FeBlk) (len : Nat) : FeMoves s (s.showBlock b len) := by
  have hrms : ∀ n ∈ List.range 7, rMtrRms n ∈ feRegs := fun n hn => List.mem_append_left _ (List.mem_append_right _ (List.mem_map_of_mem hn))
  have hpinst : ∀ n ∈ List.range 3, rMtrPinst n ∈ feRegs := fun n hn => List.mem_append_right _ (List.mem_map_of_mem hn)
  unfold State.showBlock
  exact trans (foldl (fun a n hn => setReg a (hrms n hn) (by unfold rMtrRms rMtrIrq; omega) _) s)
    (foldl (fun a n hn => setReg a (hpinst n hn) (by unfold rMtrPinst rMtrIrq; omega) _) _)

end FeMoves
end Sys2Proof.Machine
end

section
/-! SUPPORT. The crossings of a sample: the cycle that each completes, the phases that they leave, and whether every phase is lost (R302, R303, R309, R310). -/
namespace Sys2Proof.Machine

/-! ### Phases -/

section
variable (s : State) {p q : Nat} (x : FePhase)

theorem fePhase_of_phases {a b : State} (h : b.fe.phases = a.fe.phases) (q : Nat) : b.fePhase q = a.fePhase q := by
  unfold State.fePhase
  rw [h]

theorem fePhase_setFePhase_ne (h : q ≠ p) : (s.setFePhase p x).fePhase q = s.fePhase q := by
  simp [State.fePhase, State.setFePhase, State.setFe, List.getElem?_set_ne h.symm]

theorem fePhase_setFePhase (h : p < s.fe.phases.length) : (s.setFePhase p x).fePhase p = x := by
  simp [State.fePhase, State.setFePhase, State.setFe, h]

theorem setFePhase_count : (s.setFePhase p x).fe.phases.length = s.fe.phases.length := List.length_set ..

theorem setFePhase_out (h : ¬ p < s.fe.phases.length) : (s.setFePhase p x).fe.phases = s.fe.phases := List.set_eq_of_length_le (Nat.le_of_not_lt h)

variable {x} in
theorem setFePhase_rev (h : x.rev = (s.fePhase p).rev) (q : Nat) : ((s.setFePhase p x).fePhase q).rev = (s.fePhase q).rev := by
  by_cases hq : q = p
  · subst hq
    by_cases hl : q < s.fe.phases.length
    · rw [fePhase_setFePhase s x hl, h]
    · rw [fePhase_of_phases (setFePhase_out s x hl)]
  · rw [fePhase_setFePhase_ne s x hq]

end

/-! ### What an event and FREE's rate leave of the front end -/

theorem feLost_fe (s : State) : s.feLost.fe = s.fe := by
  unfold State.feLost
  rw [State.irq_fe, State.count_fe]

theorem offer_fe (s : State) (n : Nat) (x : Input) : (s.offer n x).fe = s.fe := State.ringPacket_fe ..

theorem feEvent_fe (s : State) (ty ph : Nat) (dp v1 v2 : Int) (instant bseq : Nat) :
    (s.feEvent ty ph dp v1 v2 instant bseq).fe = { s.fe with events := (s.feEvent ty ph dp v1 v2 instant bseq).fe.events } := by
  unfold State.feEvent State.feEventPkt
  split
  · rfl
  · split
    · rw [offer_fe]
    · split
      · rfl
      · rw [feLost_fe]

theorem mainsCycle_fe (s : State) : s.mainsCycle.fe = s.fe := by
  unfold State.mainsCycle
  split
  · split <;> rfl
  · rfl

theorem mainsLost_fe (s : State) : s.mainsLost.fe = s.fe := by
  unfold State.mainsLost
  split <;> rfl

/-! ### What the crossings may change -/

/-- The front end with what its crossings may change taken from `g`. -/
def FrontEnd.crossed (f g : FrontEnd) : FrontEnd :=
  { f with phases := g.phases, conds := g.conds, noZc := g.noZc, cyclesIn := g.cyclesIn, freq := g.freq, events := g.events }

/-- From `a` to `b` crossings were taken: the reversal of each phase is as it was, and if the front end has come to count every phase as lost its flag says so. -/
structure Crossing (a b : State) : Prop where
  moves : FeMoves a b
  form  : b.fe = a.fe.crossed b.fe
  count : b.fe.phases.length = a.fe.phases.length
  rev   : ∀ q, (b.fePhase q).rev = (a.fePhase q).rev
  lost  : a.Inv → a.fe.noZc = false → b.fe.noZc = true → b.bitOf rMtrIrq 4 = true

namespace Crossing
variable {a b c : State}

theorem trans (h : Crossing a b) (k : Crossing b c) : Crossing a c where
  moves := h.moves.trans k.moves
  form := k.form.trans (by rw [h.form]; rfl)
  count := k.count.trans h.count
  rev q := (k.rev q).trans (h.rev q)
  lost i ha hc := by
    cases hb : b.fe.noZc
    · exact k.lost (h.moves.keeps i) hb hc
    · exact k.moves.flags (h.moves.keeps i) 4 (by omega) (h.lost i ha hb)

/-- Where the phases stay as they are and the front end does not come to count them as lost. -/
theorem of_phases (hm : FeMoves a b) (hf : b.fe = a.fe.crossed b.fe) (hp : b.fe.phases = a.fe.phases) (hz : b.fe.noZc = true → a.fe.noZc = true) : Crossing a b where
  moves := hm
  form := hf
  count := congrArg List.length hp
  rev q := by rw [fePhase_of_phases hp]
  lost _ ha hb := by rw [hz hb] at ha; cases ha

theorem of_fe (hm : FeMoves a b) (hf : b.fe = a.fe) : Crossing a b :=
  .of_phases hm (by rw [hf]; rfl) (by rw [hf]) (by rw [hf]; exact id)

theorem refl (s : State) : Crossing s s := .of_fe (.refl s) rfl

theorem setPhase (s : State) {p : Nat} {x : FePhase} (h : x.rev = (s.fePhase p).rev) : Crossing s (s.setFePhase p x) where
  moves := .setFe s _
  form := rfl
  count := setFePhase_count s x
  rev := setFePhase_rev s h
  lost _ ha hb := by rw [show s.fe.noZc = true from hb] at ha; cases ha

theorem holds (s : State) (c : Nat) (on : Bool) : Crossing s (s.feHolds c on) := .of_phases (.setFe s _) rfl rfl id

theorem event (s : State) (ty ph : Nat) (dp v1 v2 : Int) (instant bseq : Nat) : Crossing s (s.feEvent ty ph dp v1 v2 instant bseq) := by
  have hfe := feEvent_fe s ty ph dp v1 v2 instant bseq
  exact .of_phases (.feEvent ..) (by rw [hfe]; rfl) (by rw [hfe]) (by rw [hfe]; exact id)

end Crossing

/-! ### A cycle (R302, R303, R309, R310) -/

/-- Whether the cycle that phase `p` completes shows it present: its RMS voltage (R303). -/
def State.cycleOk (s : State) (p : Nat) : Bool :=
  decide (s.fld rMtrVnom 19 0 * s.fld rMtrVnom 29 20 ≤ rmsOf (s.fePhase p).acc.v2 (s.fePhase p).acc.n vUnit * 1000)

/-- The mean power of the cycle that phase `p` completes (R309). -/
def State.cyclePower (s : State) (p : Nat) : Int := (s.fePhase p).acc.p.tdiv (((s.fePhase p).acc.n : Int) * (pUnit : Int) * 1000000)

/-- The phase after step watch has the cycle, and the step it emits, if any (R309). -/
def State.cycleWatch (s : State) (p start : Nat) : FePhase × Option (StepCand × Int × Int) :=
  if s.cycleOk p then stepWatch s (s.fePhase p) (s.cyclePower p) (s.fePhase p).acc.uns start else ({ s.fePhase p with cycles := [], cand := none }, none)

/-- The phase once its cycle is counted (R302, R303). -/
def State.cycledPhase (s : State) (p start : Nat) : FePhase :=
  let x := (s.cycleWatch p start).1
  { x with present := s.cycleOk p, whole := x.whole && s.cycleOk p, done := x.done + 1 }

/-- The event of a step (R309, R312). -/
def State.stepSent (s : State) (p : Nat) : Option (StepCand × Int × Int) → State
  | some (c, dp, mean) => (s.irq rMtrIrq 3).feEvent 1 p dp (meanI c.pre) mean c.instant c.bseq
  | none => s

/-- What a cycle of the reference phase adds (R303, R310, R478). -/
def State.refCycle (s : State) (p m m0 : Nat) (a : FeAcc) : State :=
  if s.fe.refPhase = some p then ((s.setFe fun f => { f with cyclesIn := f.cyclesIn + 1, freq := 1000 * 1024000 / (m - m0) }).feJudge a).mainsCycle else s

theorem feCycle_eq (s : State) (p m m0 start stamp : Nat) : s.feCycle p m m0 start stamp =
    ((((s.setFePhase p (s.cycledPhase p start)).feHolds p (s.cycleOk p && decide (s.cyclePower p ≤ -(s.fld rMtrRev 15 0 : Int)))).feZc stamp).stepSent p
      (s.cycleWatch p start).2).refCycle p m m0 (s.fePhase p).acc := rfl

/-- Step watch keeps the cycles of a phase, newest first, and its candidate, and leaves the rest of it; nothing is kept over an unsettled cycle (R300, R309). -/
theorem stepWatch_phase (s : State) (x : FePhase) (pc : Int) (uns : Bool) (start : Nat) :
    (stepWatch s x pc uns start).1 = { x with cycles := if uns then [] else (pc :: x.cycles).take 101, cand := (stepWatch s x pc uns start).1.cand } ∧
      (uns = true → (stepWatch s x pc uns start).1.cand = none) := by
  cases uns with
  | true => exact ⟨rfl, fun _ => rfl⟩
  | false =>
    refine ⟨?_, nofun⟩
    unfold stepWatch
    dsimp only
    rw [if_neg (by decide)]
    split
    · split
      · rfl
      · split <;> rfl
    · split <;> rfl

theorem cycledPhase_eq (s : State) (p start : Nat) : s.cycledPhase p start =
    { s.fePhase p with
      cycles := if s.cycleOk p = true ∧ (s.fePhase p).acc.uns = false then (s.cyclePower p :: (s.fePhase p).cycles).take 101 else []
      cand := (s.cycledPhase p start).cand, present := s.cycleOk p, whole := (s.fePhase p).whole && s.cycleOk p, done := (s.fePhase p).done + 1 } := by
  unfold State.cycledPhase State.cycleWatch
  cases s.cycleOk p with
  | false => rfl
  | true =>
    simp only [if_true]
    rw [(stepWatch_phase s (s.fePhase p) (s.cyclePower p) (s.fePhase p).acc.uns start).1]
    cases (s.fePhase p).acc.uns <;> rfl

theorem cycledPhase_cand (s : State) (p start : Nat) (h : s.cycleOk p = false ∨ (s.fePhase p).acc.uns = true) : (s.cycledPhase p start).cand = none := by
  unfold State.cycledPhase State.cycleWatch
  cases hok : s.cycleOk p with
  | false => rfl
  | true => exact (stepWatch_phase ..).2 (h.resolve_left (by simp [hok]))

theorem stepSent_phases (s : State) (p : Nat) (o : Option (StepCand × Int × Int)) : (s.stepSent p o).fe.phases = s.fe.phases := by
  cases o with
  | none => rfl
  | some o => rw [State.stepSent, feEvent_fe, State.irq_fe]

theorem refCycle_phases (s : State) (p m m0 : Nat) (a : FeAcc) : (s.refCycle p m m0 a).fe.phases = s.fe.phases := by
  unfold State.refCycle
  split
  · rw [mainsCycle_fe]
    rfl
  · rfl

theorem feHolds_phases (s : State) (c : Nat) (on : Bool) : (s.feHolds c on).fe.phases = s.fe.phases := rfl

theorem feZc_phases (s : State) (stamp : Nat) : (s.feZc stamp).fe.phases = s.fe.phases := by
  unfold State.feZc
  split
  · rw [mainsLost_fe, feEvent_fe]
    simp only [feHolds_phases, State.irq_fe]
    rfl
  · split
    · rw [feEvent_fe]
      rfl
    · rfl

/-- A counted cycle changes its own phase only. -/
theorem feCycle_phases (s : State) (p m m0 start stamp : Nat) : (s.feCycle p m m0 start stamp).fe.phases = s.fe.phases.set p (s.cycledPhase p start) := by
  rw [feCycle_eq, refCycle_phases, stepSent_phases, feZc_phases]
  rfl

namespace Crossing
variable (s : State)

/-- All phases lost, or one back (R303). -/
theorem zc (stamp : Nat) : Crossing s (s.feZc stamp) := by
  unfold State.feZc
  split
  · have hlost : Crossing s ((s.setFe fun f => { f with noZc := true }).irq rMtrIrq 4) :=
      { moves := (FeMoves.setFe s _).trans (.irq _ 4)
        form := by rw [State.irq_fe]; rfl
        count := by rw [State.irq_fe]; rfl
        rev := fun q => by rw [fePhase_of_phases (a := s) (by rw [State.irq_fe]; rfl)]
        lost := fun i _ _ => State.irq_set (by exact i.1) (by omega) }
    exact hlost.trans ((holds _ 3 false).trans ((holds _ 4 false).trans ((event ..).trans (of_fe (.mainsLost _) (mainsLost_fe _)))))
  · split
    · have hback : Crossing s (s.setFe fun f => { f with noZc := false }) := of_phases (.setFe s _) rfl rfl nofun
      exact hback.trans (event ..)
    · exact refl s

theorem stepSent (p : Nat) (o : Option (StepCand × Int × Int)) : Crossing s (s.stepSent p o) := by
  cases o with
  | none => exact refl s
  | some o => exact (of_fe (.irq s 3) (State.irq_fe ..)).trans (event ..)

theorem refCycle (p m m0 : Nat) (a : FeAcc) : Crossing s (s.refCycle p m m0 a) := by
  unfold State.refCycle
  split
  · have hcount : Crossing s (s.setFe fun f => { f with cyclesIn := f.cyclesIn + 1, freq := 1000 * 1024000 / (m - m0) }) := of_phases (.setFe s _) rfl rfl id
    exact hcount.trans ((holds ..).trans ((holds ..).trans (of_fe (.mainsCycle _) (mainsCycle_fe _))))
  · exact refl s

theorem cycle (p m m0 start stamp : Nat) : Crossing s (s.feCycle p m m0 start stamp) := by
  rw [feCycle_eq]
  exact (setPhase s (by rw [cycledPhase_eq])).trans ((holds ..).trans ((zc ..).trans ((stepSent ..).trans (refCycle ..))))

theorem rise (stamp p : Nat) : Crossing s (s.feRise stamp p) := by
  unfold State.feRise
  dsimp only
  split
  · have hcycle : Crossing s (match (s.fePhase p).rise with
        | some (m0, start) => if riseOk (s.fe.mcyc - m0) = true then s.feCycle p s.fe.mcyc m0 start stamp else s
        | none => s) := by
      split
      · split
        · exact cycle ..
        · exact refl s
      · exact refl s
    exact hcycle.trans (setPhase _ rfl)
  · split
    · exact setPhase s rfl
    · exact refl s

theorem missing (p : Nat) : Crossing s (s.feMissing p) := by
  unfold State.feMissing
  dsimp only
  split
  · split
    · refine trans (setPhase s ?_) (holds ..)
      rfl
    · exact refl s
  · exact refl s

end Crossing

/-! ### The phases in turn (R302) -/

/-- What a sample's crossings do with one phase. -/
def State.feTurn (s : State) (stamp p : Nat) : State := (s.feRise stamp p).feMissing p

theorem feCross_eq (s : State) (stamp : Nat) : s.feCross stamp = ((List.range 3).foldl (fun a p => a.feTurn stamp p) s).feZc stamp := rfl

theorem feRise_other (s : State) (stamp : Nat) {p q : Nat} (h : q ≠ p) : (s.feRise stamp p).fePhase q = s.fePhase q := by
  unfold State.feRise
  dsimp only
  split
  · rw [fePhase_setFePhase_ne _ _ h]
    split
    · split
      · exact (fePhase_of_phases (feCycle_phases ..) q).trans (fePhase_setFePhase_ne s _ h)
      · rfl
    · rfl
  · split
    · exact fePhase_setFePhase_ne s _ h
    · rfl

theorem feTurn_other (s : State) (stamp : Nat) {p q : Nat} (h : q ≠ p) : (s.feTurn stamp p).fePhase q = s.fePhase q := by
  rw [← feRise_other s stamp h]
  unfold State.feTurn State.feMissing
  dsimp only
  split
  · split
    · exact fePhase_setFePhase_ne _ _ h
    · rfl
  · rfl

theorem Crossing.turn (s : State) (stamp p : Nat) : Crossing s (s.feTurn stamp p) := (rise s stamp p).trans (missing _ p)

theorem Crossing.turns (s : State) (stamp : Nat) (l : List Nat) : Crossing s (l.foldl (fun a p => a.feTurn stamp p) s) :=
  foldl_related refl trans (fun a p _ => turn a stamp p) s

theorem feTurns_other (s : State) (stamp : Nat) {q : Nat} {l : List Nat} (h : q ∉ l) : (l.foldl (fun a p => a.feTurn stamp p) s).fePhase q = s.fePhase q :=
  foldl_related (R := fun a b => b.fePhase q = a.fePhase q) (fun _ => rfl) (fun h k => k.trans h) (fun a _ hp => feTurn_other a stamp fun e => h (e ▸ hp)) s

theorem Crossing.cross (s : State) (stamp : Nat) : Crossing s (s.feCross stamp) := (turns s stamp _).trans (zc _ stamp)

/-- One of the numbers below `n`, among those before and after it. -/
theorem range_split {n c : Nat} (h : c < n) : ∃ l r, List.range n = l ++ c :: r ∧ c ∉ l ∧ c ∉ r := by
  obtain ⟨l, r, hlr⟩ := List.append_of_mem (List.mem_range.mpr h)
  have hnodup := List.nodup_range (n := n)
  rw [hlr, List.nodup_middle, List.nodup_cons, List.mem_append, not_or] at hnodup
  exact ⟨l, r, hlr, hnodup.1⟩

/-- A sample's crossings come to each phase once, as the sample found it, and leave it as its turn did. -/
theorem feCross_turn (s : State) (stamp : Nat) {p : Nat} (hp : p < 3) : ∃ b, Crossing s b ∧ b.fePhase p = s.fePhase p ∧
    Crossing (b.feTurn stamp p) (s.feCross stamp) ∧ (s.feCross stamp).fePhase p = (b.feTurn stamp p).fePhase p := by
  obtain ⟨l, r, hlr, hl, hr⟩ := range_split hp
  refine ⟨l.foldl (fun a p => a.feTurn stamp p) s, .turns s stamp l, feTurns_other s stamp hl, ?_⟩
  rw [feCross_eq, hlr, List.foldl_append, List.foldl_cons]
  exact ⟨(Crossing.turns _ stamp r).trans (.zc _ stamp), (fePhase_of_phases (feZc_phases ..) p).trans (feTurns_other _ stamp hr)⟩

end Sys2Proof.Machine
end

section
/-! SUPPORT. The end of a block, and what a sample adds to the block it belongs to (R301, R304 to R308, R310). -/
namespace Sys2Proof.Machine

/-! ### Registers that the front end reads -/

section
variable {s t : State} (h : FeMoves s t) {a : Nat} (ha : a ∉ feRegs)
include h ha

theorem FeMoves.fld (hi lo : Nat) : t.fld a hi lo = s.fld a hi lo := by
  unfold State.fld
  rw [h.regs a ha]

theorem FeMoves.bitOf (k : Nat) : t.bitOf a k = s.bitOf a k := by
  unfold State.bitOf
  rw [h.regs a ha]

end

theorem FeMoves.switchDue {s t : State} (h : FeMoves s t) (hact : t.fe.act = s.fe.act) : t.switchDue = s.switchDue := by
  have hsel : t.feSel = s.feSel := by
    unfold State.feSel
    rw [h.fld (by decide)]
    refine congrArg _ (List.map_congr_left fun n hn => h.fld ?_ 18 16)
    revert n
    decide
  unfold State.switchDue
  rw [hsel, hact]

/-! ### A sample passes (R300, R302, R310) -/

/-- From `x` to `y` a phase has taken no cycle: what the block, the cycle in progress and the tamper conditions hold of it may have changed, and a step
candidate may be gone. -/
def PhasePassed (x y : FePhase) : Prop := y = { x with whole := y.whole, cand := y.cand, acc := y.acc, rev := y.rev } ∧ (x.cand = none → y.cand = none)

theorem PhasePassed.refl (x : FePhase) : PhasePassed x x := ⟨rfl, id⟩

theorem PhasePassed.trans {x y z : FePhase} (h : PhasePassed x y) (k : PhasePassed y z) : PhasePassed x z :=
  ⟨k.1.trans (by rw [h.1]), fun hx => k.2 (h.2 hx)⟩

/-- From `a` to `b` part of a sample's work was done that is no crossing. -/
structure Passing (a b : State) : Prop where
  moves : FeMoves a b
  mcyc  : b.fe.mcyc = a.fe.mcyc
  noZc  : b.fe.noZc = a.fe.noZc
  count : b.fe.phases.length = a.fe.phases.length
  phase : ∀ q, PhasePassed (a.fePhase q) (b.fePhase q)
  settled : a.switchDue = false → b.switchDue = false ∧ b.fe.unsettled = a.fe.unsettled

namespace Passing
variable {a b c : State}

theorem trans (h : Passing a b) (k : Passing b c) : Passing a c where
  moves := h.moves.trans k.moves
  mcyc := k.mcyc.trans h.mcyc
  noZc := k.noZc.trans h.noZc
  count := k.count.trans h.count
  phase q := (h.phase q).trans (k.phase q)
  settled hs := by
    obtain ⟨hb, hu⟩ := h.settled hs
    obtain ⟨hc, hv⟩ := k.settled hb
    exact ⟨hc, hv.trans hu⟩

/-- Where the settling and the responses in use stay as they are. -/
theorem of_act (hm : FeMoves a b) (hact : b.fe.act = a.fe.act) (hu : b.fe.unsettled = a.fe.unsettled) (hcyc : b.fe.mcyc = a.fe.mcyc) (hz : b.fe.noZc = a.fe.noZc)
    (hcount : b.fe.phases.length = a.fe.phases.length) (hp : ∀ q, PhasePassed (a.fePhase q) (b.fePhase q)) : Passing a b where
  moves := hm
  mcyc := hcyc
  noZc := hz
  count := hcount
  phase := hp
  settled hs := ⟨(hm.switchDue hact).trans hs, hu⟩

end Passing

/-! ### Delivery (R308, R313) -/

theorem feOffer_fe (l : List FePkt) (s : State) : (State.feOffer l s).2.fe = s.fe := by
  induction l generalizing s with
  | nil => rfl
  | cons p r ih =>
    unfold State.feOffer
    split
    · rw [ih, offer_fe]
    · rfl

theorem feDrain_fe (s : State) : s.feDrain.fe = { s.fe with held := s.feDrain.fe.held, events := s.feDrain.fe.events } := by
  unfold State.feDrain
  have hheld := feOffer_fe s.fe.held s
  generalize State.feOffer s.fe.held s = r at hheld ⊢
  obtain ⟨h, s1⟩ := r
  dsimp only at hheld ⊢
  unfold State.setFe
  rw [feOffer_fe, hheld]

theorem feBlock_fe (s : State) (p : FePkt) : (s.feBlock p).fe = { s.fe with held := (s.feBlock p).fe.held, events := (s.feBlock p).fe.events, gap := (s.feBlock p).fe.gap } := by
  have hdrain := feDrain_fe s
  unfold State.feBlock
  dsimp only
  generalize s.feDrain = d at hdrain ⊢
  split
  · rfl
  · split
    · rw [offer_fe, hdrain]
    · split
      · unfold State.setFe
        dsimp only
        rw [hdrain]
      · unfold State.setFe
        dsimp only
        rw [feLost_fe, hdrain]

theorem foldl_setReg_form (g v : Nat → Nat) (l : List Nat) (s : State) :
    l.foldl (fun a n => a.setReg (g n) (v n)) s = { s with regs := (l.foldl (fun a n => a.setReg (g n) (v n)) s).regs } := by
  induction l generalizing s with
  | nil => rfl
  | cons n l ih =>
    rw [List.foldl_cons, ih]
    rfl

/-- The last block's values go to registers only. -/
theorem showBlock_form (s : State) (b : FeBlk) (len : Nat) : s.showBlock b len = { s with regs := (s.showBlock b len).regs } := by
  unfold State.showBlock
  dsimp only
  rw [foldl_setReg_form (fun n => rMtrPinst n), foldl_setReg_form (fun n => rMtrRms n)]

theorem showBlock_fe (s : State) (b : FeBlk) (len : Nat) : (s.showBlock b len).fe = s.fe := by rw [showBlock_form]

/-! ### The end of a block (R301, R304) -/

/-- The block that ends, as it goes to Q9 (R306). -/
def State.blockPkt (s : State) (stop : Nat) (short : Bool) : FePkt :=
  { kind := .mtrBlock, stamp := s.fe.start, payload := s.blockPayload (stop - s.fe.start) short }

/-- The block in progress is reported (R308). -/
def State.blockSent (s : State) (stop : Nat) (short : Bool) : State := (s.setFe fun x => { x with gap := false }).feBlock (s.blockPkt stop short)

/-- A phase at the start of a block (R306). -/
def FePhase.atStart (x : FePhase) : FePhase := { x with whole := x.present }

/-- A phase without its step candidate (R300). -/
def FePhase.unwatched (x : FePhase) : FePhase := { x with cand := none }

/-- The next block starts with the present sample, its energies from the fractions that the block `b` leaves (R304, R305). -/
def FrontEnd.nextBlock (x : FrontEnd) (b : FeBlk) (stamp : Nat) : FrontEnd :=
  { x with start := stamp, cyclesIn := 0, bseq := (x.bseq + 1) % 2 ^ 32, cut := none, past := ((x.bseq, x.blkUnsettled) :: x.past).take 256,
           blk := { e := b.e.map fun v => v.tmod (eUnit : Int) }, blkUnsettled := x.unsettled, ovr := b.ovr,
           phases := x.phases.map .atStart }

theorem blockSent_fe (s : State) (stop : Nat) (short : Bool) : (s.blockSent stop short).fe =
    { s.fe with held := (s.blockSent stop short).fe.held, events := (s.blockSent stop short).fe.events, gap := (s.blockSent stop short).fe.gap } :=
  (feBlock_fe (s.setFe fun x => { x with gap := false }) (s.blockPkt stop short)).trans rfl

theorem endBlock_eq (s : State) (stop stamp : Nat) (short : Bool) : s.endBlock stop stamp short =
    (((s.blockSent stop short).setFe fun x => x.nextBlock s.fe.blk stamp).showBlock s.fe.blk (stop - s.fe.start)).feSwitch := rfl

section
variable {a b : State} {f : FePhase → FePhase} (h : b.fe.phases = a.fe.phases.map f) (q : Nat)
include h

/-- A phase after a change made to each. -/
theorem fePhase_map : b.fePhase q = if q < a.fe.phases.length then f (a.fePhase q) else a.fePhase q := by
  unfold State.fePhase
  rw [h, List.getD_eq_getElem?_getD, List.getD_eq_getElem?_getD, List.getElem?_map]
  split
  · next hq => simp [hq]
  · next hq => simp [hq]

theorem PhasePassed.of_map (hf : ∀ x, PhasePassed x (f x)) : PhasePassed (a.fePhase q) (b.fePhase q) := by
  rw [fePhase_map h]
  split
  · exact hf _
  · exact .refl _

theorem rev_of_map (hf : ∀ x, (f x).rev = x.rev) : (b.fePhase q).rev = (a.fePhase q).rev := by
  rw [fePhase_map h]
  split
  · exact hf _
  · rfl

end

theorem Passing.switch (s : State) : Passing s s.feSwitch := by
  unfold State.feSwitch
  split
  · next h =>
    exact { moves := .setFe s _, mcyc := rfl, noZc := rfl, count := List.length_map _
            phase := fun q => .of_map (f := .unwatched) rfl q fun x => ⟨rfl, fun _ => rfl⟩
            settled := fun hs => by rw [h] at hs; cases hs }
  · exact .of_act (.refl s) rfl rfl rfl rfl rfl fun q => .refl _


/-- A block that ends leaves the phases, the cycles and the settling as they are, but for a switch that waits (R301). -/
theorem Passing.endBlock (s : State) (stop stamp : Nat) (short : Bool) : Passing s (s.endBlock stop stamp short) := by
  have hsent : Passing s (s.blockSent stop short) := by
    have hfe := blockSent_fe s stop short
    exact .of_act ((FeMoves.setFe s _).trans (.feBlock _ _)) (by rw [hfe]) (by rw [hfe]) (by rw [hfe]) (by rw [hfe]) (by rw [hfe]) fun q => by
      rw [fePhase_of_phases (by rw [hfe])]
      exact .refl _
  rw [endBlock_eq]
  generalize s.blockSent stop short = u at hsent ⊢
  have hnext : Passing u (u.setFe fun x => x.nextBlock s.fe.blk stamp) :=
    .of_act (.setFe u _) rfl rfl rfl rfl (List.length_map _) fun q => .of_map (f := .atStart) rfl q fun x => ⟨rfl, id⟩
  generalize (u.setFe fun x => x.nextBlock s.fe.blk stamp) = v at hnext ⊢
  have hshow : Passing v (v.showBlock s.fe.blk (stop - s.fe.start)) := by
    have hfe := showBlock_fe v s.fe.blk (stop - s.fe.start)
    exact .of_act (.showBlock v _ _) (by rw [hfe]) (by rw [hfe]) (by rw [hfe]) (by rw [hfe]) (by rw [hfe]) fun q => by
      rw [fePhase_of_phases (congrArg FrontEnd.phases hfe)]
      exact .refl _
  exact hsent.trans (hnext.trans (hshow.trans (.switch _)))

theorem Passing.edge (s : State) (stamp : Nat) : Passing s (s.feEdge stamp) := by
  unfold State.feEdge
  split
  · exact .of_act (.setFe s _) rfl rfl rfl rfl (List.length_map _) fun q => .of_map (f := .atStart) rfl q fun x => ⟨rfl, id⟩
  · split
    · exact endBlock s _ stamp _
    · exact .of_act (.refl s) rfl rfl rfl rfl rfl fun q => .refl _

/-! ### The tamper conditions that are set (R310) -/

/-- What is set stays set where the reversed phases, bypass and the missing neutral stay as they are. -/
theorem condSet_of_same {a b : State} (hp : ∀ q, (b.fePhase q).rev = (a.fePhase q).rev) (hb : b.fe.byp = a.fe.byp) (hn : b.fe.neu = a.fe.neu) (c : Nat) :
    b.condSet c = a.condSet c := by
  unfold State.condSet
  rw [hp, hb, hn]

theorem Crossing.condSet {a b : State} (h : Crossing a b) (c : Nat) : b.condSet c = a.condSet c :=
  condSet_of_same h.rev (by rw [h.form]; rfl) (by rw [h.form]; rfl) c

theorem condSet_of_map {a b : State} {f : FePhase → FePhase} (hp : b.fe.phases = a.fe.phases.map f ∧ b.fe.byp = a.fe.byp ∧ b.fe.neu = a.fe.neu)
    (hf : ∀ x, (f x).rev = x.rev) (c : Nat) : b.condSet c = a.condSet c := by
  obtain ⟨hphases, hbyp, hneu⟩ := hp
  exact condSet_of_same (fun q => rev_of_map hphases q hf) hbyp hneu c

theorem condSet_of_fe {a b : State} (h : b.fe.phases = a.fe.phases ∧ b.fe.byp = a.fe.byp ∧ b.fe.neu = a.fe.neu) (c : Nat) : b.condSet c = a.condSet c := by
  obtain ⟨hphases, hbyp, hneu⟩ := h
  exact condSet_of_same (fun q => congrArg _ (fePhase_of_phases hphases q)) hbyp hneu c

theorem feSwitch_condSet (s : State) (c : Nat) : s.feSwitch.condSet c = s.condSet c := by
  unfold State.feSwitch
  split
  · refine condSet_of_map (f := .unwatched) ⟨?_, ?_, ?_⟩ (fun x => rfl) c <;> rfl
  · rfl

theorem endBlock_condSet (s : State) (stop stamp : Nat) (short : Bool) (c : Nat) : (s.endBlock stop stamp short).condSet c = s.condSet c := by
  have hsent : (s.blockSent stop short).condSet c = s.condSet c := condSet_of_fe (by rw [blockSent_fe]; exact ⟨rfl, rfl, rfl⟩) c
  rw [endBlock_eq, feSwitch_condSet, ← hsent]
  refine condSet_of_map (f := .atStart) ?_ (fun x => rfl) c
  rw [showBlock_fe]
  exact ⟨rfl, rfl, rfl⟩

theorem feEdge_condSet (s : State) (stamp c : Nat) : (s.feEdge stamp).condSet c = s.condSet c := by
  unfold State.feEdge
  split
  · refine condSet_of_map (f := .atStart) ⟨?_, ?_, ?_⟩ (fun x => rfl) c <;> rfl
  · split
    · exact endBlock_condSet ..
    · rfl

/-! ### What a sample adds (R305 to R307, R310) -/

/-- The front end with what a sample adds to the block it belongs to taken from `g`. -/
def FrontEnd.rested (f g : FrontEnd) : FrontEnd :=
  { f with blk := g.blk, blkUnsettled := g.blkUnsettled, events := g.events, phases := g.phases, byp := g.byp, neu := g.neu, conds := g.conds }

/-- From `a` to `b` a sample was added to the block in progress. -/
structure Resting (a b : State) : Prop extends Passing a b where
  form : b.fe = a.fe.rested b.fe

namespace Resting
variable {a b c : State}

theorem trans (h : Resting a b) (k : Resting b c) : Resting a c :=
  ⟨h.toPassing.trans k.toPassing, k.form.trans (by rw [h.form]; rfl)⟩

theorem of_form (hm : FeMoves a b) (hf : b.fe = a.fe.rested b.fe) (hcount : b.fe.phases.length = a.fe.phases.length)
    (hp : ∀ q, PhasePassed (a.fePhase q) (b.fePhase q)) : Resting a b :=
  ⟨.of_act hm (by rw [hf]; rfl) (by rw [hf]; rfl) (by rw [hf]; rfl) (by rw [hf]; rfl) hcount hp, hf⟩

theorem of_phases (hm : FeMoves a b) (hf : b.fe = a.fe.rested b.fe) (hp : b.fe.phases = a.fe.phases) : Resting a b :=
  .of_form hm hf (congrArg List.length hp) fun q => by
    rw [fePhase_of_phases hp]
    exact .refl _

theorem refl (s : State) : Resting s s := .of_phases (.refl s) rfl rfl

theorem irq (s : State) (k : Nat) : Resting s (s.irq rMtrIrq k) := .of_phases (.irq s k) (by rw [State.irq_fe]; rfl) (by rw [State.irq_fe])

theorem event (s : State) (ty ph : Nat) (dp v1 v2 : Int) (instant bseq : Nat) : Resting s (s.feEvent ty ph dp v1 v2 instant bseq) := by
  have hfe := feEvent_fe s ty ph dp v1 v2 instant bseq
  exact .of_phases (.feEvent ..) (by rw [hfe]; rfl) (by rw [hfe])

end Resting

/-- A channel's first sample at full scale in a block (R307, R312). -/
def State.overAt (a : State) (stamp n : Nat) : State :=
  ((a.setFe fun f => { f with blk := { f.blk with ovr := f.blk.ovr ++ [n] } }).irq rMtrIrq 1).feEvent 8 3 0 n 0 stamp a.fe.bseq

theorem overAt_fe (a : State) (stamp n : Nat) : (a.overAt stamp n).fe =
    { a.fe with blk := { a.fe.blk with ovr := a.fe.blk.ovr ++ [n] }, events := (a.overAt stamp n).fe.events } := by
  have hfe := feEvent_fe ((a.setFe fun f => { f with blk := { f.blk with ovr := f.blk.ovr ++ [n] } }).irq rMtrIrq 1) 8 3 0 n 0 stamp a.fe.bseq
  rw [State.irq_fe] at hfe
  exact hfe

theorem overAt_rests (a : State) (stamp n : Nat) : Resting a (a.overAt stamp n) ∧ ∀ c, (a.overAt stamp n).condSet c = a.condSet c := by
  have hmoves : FeMoves a (a.overAt stamp n) := (FeMoves.setFe a _).trans ((FeMoves.irq _ 1).trans (.feEvent ..))
  have hfe := overAt_fe a stamp n
  exact ⟨.of_phases hmoves (by rw [hfe]; rfl) (by rw [hfe]), condSet_of_fe (by rw [hfe]; exact ⟨rfl, rfl, rfl⟩)⟩

/-- Full scale changes the block in progress and the events only (R307, R312). -/
theorem feOver_rests (s : State) (x : FeSample) (stamp : Nat) : Resting s (s.feOver x stamp) ∧ ∀ c, (s.feOver x stamp).condSet c = s.condSet c := by
  refine foldl_related (R := fun a b => Resting a b ∧ ∀ c, b.condSet c = a.condSet c) (fun s => ⟨.refl s, fun _ => rfl⟩)
    (fun h k => ⟨h.1.trans k.1, fun c => (k.2 c).trans (h.2 c)⟩) (fun a n _ => ?_) s
  split
  · exact overAt_rests a stamp n
  · exact ⟨.refl a, fun _ => rfl⟩

/-- A phase after the sample has joined its cycle's sums (R302). -/
theorem feAdd_phase (s : State) (q : Nat) : ∃ a, s.feAdd.fePhase q = { s.fePhase q with acc := a } := by
  unfold State.feAdd State.fePhase State.setFe
  simp only [List.getD_eq_getElem?_getD, List.getElem?_map, List.getElem?_zipIdx]
  cases s.fe.phases[q]? with
  | none => exact ⟨{}, rfl⟩
  | some x => exact ⟨_, rfl⟩

theorem feAdd_rests (s : State) : Resting s s.feAdd := by
  have hmoves : FeMoves s s.feAdd := by
    unfold State.feAdd
    exact .setFe s _
  refine .of_form hmoves rfl (by simp [State.feAdd, State.setFe]) fun q => ?_
  obtain ⟨a, h⟩ := feAdd_phase s q
  rw [h]
  exact ⟨rfl, id⟩

theorem feAdd_condSet (s : State) (c : Nat) : s.feAdd.condSet c = s.condSet c := by
  refine condSet_of_same (fun q => ?_) ?_ ?_ c
  · obtain ⟨a, h⟩ := feAdd_phase s q
    rw [h]
  · rfl
  · rfl

/-! ### A condition's timer (R300, R310) -/

/-- A condition as the front end holds it. -/
def State.cond (s : State) (c : Nat) : FeCond := s.fe.conds.getD c {}

/-- A condition's timer is put at `n`. -/
def State.condRun (s : State) (c n : Nat) : State := s.setFe fun f => { f with conds := f.conds.set c { f.conds.getD c {} with run := n } }

/-- A condition that has differed from what is set for its persistence time sets or clears. -/
def State.condFlip (s : State) (c : Nat) : State := ((s.condRun c 0).putCond c (s.cond c).holds).irq rMtrIrq 2

/-- The value of a condition's event: the mean power of a reversed phase's last cycle (R312). -/
def State.condVal (s : State) (c : Nat) : Int := if c < 3 then (s.fePhase c).cycles.headD 0 else 0

/-- The event of a condition's transition (R312). -/
def State.condSent (s : State) (stamp c : Nat) : State :=
  (s.condFlip c).feEvent (condEvent c (s.cond c).holds) (if c < 3 then c else 3) 0 (s.condVal c) 0 stamp s.fe.bseq

theorem feCond_flips {s : State} (stamp : Nat) {c : Nat} (hon : s.condOn c = true) (hset : (s.cond c).holds = !s.condSet c) (hs : s.fe.unsettled = false)
    (hrun : s.condSecs c * 1024000 ≤ (s.cond c).run + s.feDec) : s.feCond stamp c = s.condSent stamp c := by
  unfold State.feCond
  dsimp only
  change (if s.condOn c = false ∨ (s.cond c).holds = s.condSet c then _ else if _ then _ else if (s.cond c).run + s.feDec < _ then _ else s.condSent stamp c) = _
  rw [if_neg (by rw [hon, hset]; simp), if_neg (by rw [hs]; decide), if_neg (by omega)]

/-- All that a condition's timer can come to. -/
theorem feCond_cases (s : State) (stamp c : Nat) : (∃ n, s.feCond stamp c = s.condRun c n) ∨ s.feCond stamp c = s ∨ s.feCond stamp c = s.condSent stamp c := by
  unfold State.feCond
  dsimp only
  split
  · exact .inl ⟨_, rfl⟩
  · split
    · exact .inr (.inl rfl)
    · split
      · exact .inl ⟨_, rfl⟩
      · exact .inr (.inr rfl)

section
variable (s : State) (c : Nat)

theorem condRun_run : ((s.condRun c 0).cond c).run = 0 := by
  by_cases h : c < s.fe.conds.length <;> simp [State.cond, State.condRun, State.setFe, h]

variable {c} in
theorem condRun_other {q : Nat} (h : q ≠ c) (n : Nat) : (s.condRun c n).cond q = s.cond q := by
  simp [State.cond, State.condRun, State.setFe, List.getElem?_set_ne h.symm]

theorem cond_of_conds {a b : State} (h : b.fe.conds = a.fe.conds) (q : Nat) : b.cond q = a.cond q := by
  unfold State.cond
  rw [h]

/-- A phase changed without a cycle. -/
theorem PhasePassed.setFePhase {p : Nat} {x : FePhase} (h : PhasePassed (s.fePhase p) x) (q : Nat) : PhasePassed (s.fePhase q) ((s.setFePhase p x).fePhase q) := by
  by_cases hq : q = p
  · subst hq
    by_cases hl : q < s.fe.phases.length
    · rw [fePhase_setFePhase s x hl]
      exact h
    · rw [fePhase_of_phases (setFePhase_out s x hl)]
      exact .refl _
  · rw [fePhase_setFePhase_ne s x hq]
    exact .refl _

theorem putCond_conds (on : Bool) : (s.putCond c on).fe.conds = s.fe.conds := by
  unfold State.putCond
  split
  · rfl
  · split <;> rfl

theorem putCond_rests (on : Bool) : Resting s (s.putCond c on) := by
  unfold State.putCond
  split
  · exact .of_form (.setFe s _) rfl (setFePhase_count s _) (.setFePhase s ⟨rfl, id⟩)
  · split <;> exact .of_phases (.setFe s _) rfl rfl

variable {c}

theorem putCond_condSet (h : s.fe.phases.length = 3) (on : Bool) : (s.putCond c on).condSet c = on := by
  unfold State.putCond State.condSet
  split
  · next hc => rw [fePhase_setFePhase s _ (by omega)]
  · split <;> rfl

/-- Setting one condition leaves the others as they are. -/
theorem putCond_other {q : Nat} (hc : c < 5) (hq : q < 5) (h : q ≠ c) (on : Bool) : (s.putCond c on).condSet q = s.condSet q := by
  unfold State.putCond State.condSet
  by_cases hc3 : c < 3
  · rw [if_pos hc3, fePhase_setFePhase_ne s _ h]
    rfl
  · rw [if_neg hc3]
    by_cases hq3 : q < 3
    · rw [if_pos hq3, if_pos hq3]
      split <;> rfl
    · rw [if_neg hq3, if_neg hq3]
      by_cases hc4 : c = 3
      · rw [if_pos hc4, if_neg (by omega), if_neg (by omega)]
        rfl
      · rw [if_neg hc4, if_pos (by omega), if_pos (by omega)]
        rfl

variable (c)

theorem condFlip_fe : (s.condFlip c).fe = ((s.condRun c 0).putCond c (s.cond c).holds).fe := State.irq_fe ..

theorem condFlip_sets (q : Nat) : (s.condFlip c).condSet q = ((s.condRun c 0).putCond c (s.cond c).holds).condSet q :=
  condSet_of_fe (by rw [condFlip_fe]; exact ⟨rfl, rfl, rfl⟩) q

theorem condRun_rests (n : Nat) : Resting s (s.condRun c n) := .of_phases (.setFe s _) rfl rfl

theorem condFlip_rests : Resting s (s.condFlip c) :=
  (condRun_rests s c 0).trans ((putCond_rests _ c _).trans (.irq _ 2))

theorem condSent_rests (stamp : Nat) : Resting s (s.condSent stamp c) := (condFlip_rests s c).trans (.event ..)

theorem condSent_conds (stamp : Nat) : (s.condSent stamp c).fe.conds = (s.condFlip c).fe.conds := by
  unfold State.condSent
  rw [feEvent_fe]

theorem condSent_condSet (stamp q : Nat) : (s.condSent stamp c).condSet q = (s.condFlip c).condSet q := by
  refine condSet_of_fe ?_ q
  unfold State.condSent
  rw [feEvent_fe]
  exact ⟨rfl, rfl, rfl⟩

theorem condFlip_run : ((s.condFlip c).cond c).run = 0 := by
  rw [cond_of_conds (a := s.condRun c 0) (by rw [condFlip_fe, putCond_conds]), condRun_run]

variable {c}

theorem condFlip_condSet (h : s.fe.phases.length = 3) : (s.condFlip c).condSet c = (s.cond c).holds := by
  rw [condFlip_sets, putCond_condSet (s.condRun c 0) h]

theorem condFlip_other {q : Nat} (hc : c < 5) (hq : q < 5) (h : q ≠ c) : (s.condFlip c).condSet q = s.condSet q ∧ (s.condFlip c).cond q = s.cond q := by
  constructor
  · rw [condFlip_sets, putCond_other _ hc hq h]
    rfl
  · rw [cond_of_conds (a := s.condRun c 0) (by rw [condFlip_fe, putCond_conds]), condRun_other s h]

theorem feCond_rests (stamp : Nat) : Resting s (s.feCond stamp c) := by
  obtain ⟨n, h⟩ | h | h := feCond_cases s stamp c
  all_goals rw [h]
  · exact condRun_rests s c n
  · exact .refl s
  · exact condSent_rests s c stamp

/-- A condition's timer leaves the other conditions as they are. -/
theorem feCond_other (stamp : Nat) {q : Nat} (hc : c < 5) (hq : q < 5) (h : q ≠ c) :
    (s.feCond stamp c).condSet q = s.condSet q ∧ (s.feCond stamp c).cond q = s.cond q := by
  obtain ⟨n, hn⟩ | hn | hn := feCond_cases s stamp c
  all_goals rw [hn]
  · exact ⟨rfl, condRun_other s h n⟩
  · exact ⟨rfl, rfl⟩
  · rw [condSent_condSet, cond_of_conds (condSent_conds ..)]
    exact condFlip_other s hc hq h

end

/-- The conditions' timers at a sample, in turn. -/
def State.feConds (s : State) (stamp : Nat) (l : List Nat) : State := l.foldl (fun a c => a.feCond stamp c) s

theorem feConds_rests (s : State) (stamp : Nat) (l : List Nat) : Resting s (s.feConds stamp l) :=
  foldl_related .refl .trans (fun a _ _ => feCond_rests a stamp) s

theorem feConds_other (s : State) (stamp : Nat) {l : List Nat} {q : Nat} (hl : ∀ c ∈ l, c < 5) (hq : q < 5) (h : q ∉ l) :
    (s.feConds stamp l).condSet q = s.condSet q ∧ (s.feConds stamp l).cond q = s.cond q :=
  foldl_related (R := fun a b => b.condSet q = a.condSet q ∧ b.cond q = a.cond q) (fun _ => ⟨rfl, rfl⟩) (fun h k => ⟨k.1.trans h.1, k.2.trans h.2⟩)
    (fun a c hc => feCond_other a stamp (hl c hc) hq fun e => h (e ▸ hc)) s

theorem feRest_rests (s : State) (x : FeSample) (stamp : Nat) : Resting s (s.feRest x stamp) :=
  (feOver_rests s x stamp).1.trans ((feAdd_rests _).trans (feConds_rests _ stamp _))

/-- A sample comes to each condition once, as the sums found it, and leaves it as its timer did. -/
theorem feConds_turn (s : State) (stamp : Nat) {c : Nat} (hc : c < 5) : ∃ b, Resting s b ∧ b.condSet c = s.condSet c ∧ b.cond c = s.cond c ∧
    Resting (b.feCond stamp c) (s.feConds stamp (List.range 5)) ∧ (s.feConds stamp (List.range 5)).condSet c = (b.feCond stamp c).condSet c ∧
      (s.feConds stamp (List.range 5)).cond c = (b.feCond stamp c).cond c := by
  obtain ⟨l, r, hlr, hl, hr⟩ := range_split hc
  have hlt : ∀ q ∈ l ++ c :: r, q < 5 := fun q hq => List.mem_range.mp (hlr ▸ hq)
  obtain ⟨hset, hcond⟩ := feConds_other s stamp (fun q hq => hlt q (by simp [hq])) hc hl
  refine ⟨s.feConds stamp l, feConds_rests s stamp l, hset, hcond, ?_⟩
  have hsplit : s.feConds stamp (List.range 5) = ((s.feConds stamp l).feCond stamp c).feConds stamp r := by
    rw [hlr]
    unfold State.feConds
    rw [List.foldl_append, List.foldl_cons]
  rw [hsplit]
  exact ⟨feConds_rests _ stamp r, feConds_other _ stamp (fun q hq => hlt q (by simp [hq])) hc hr⟩

end Sys2Proof.Machine
end

section
/-! SUPPORT. A sample as a whole, and the samples of a command (R294 to R310). -/
namespace Sys2Proof.Machine

/-! ### One sample -/

section
variable (s : State) (x : FeSample)

/-- The sample's time has passed and the sample has left the chain (R294, R298, R305). -/
def State.feIn : State := s.feClock.feTake x

theorem feIn_moves : FeMoves s (s.feIn x) := by
  have hclock : FeMoves s s.feClock := by
    unfold State.feClock
    exact (FeMoves.untilDue s _).trans (.setFe _ _)
  unfold State.feIn State.feTake
  exact hclock.trans (.setFe _ _)

theorem feIn_fe : (s.feIn x).fe = { s.fe with mcyc := s.fe.mcyc + s.feDec, unsettled := s.fe.unsettled && decide (s.fe.mcyc + s.feDec < s.fe.settleM),
                                              raw := (s.feIn x).fe.raw, sig := (s.feIn x).fe.sig } := by
  have hclock : s.feClock.fe = { s.fe with mcyc := s.fe.mcyc + s.feDec, unsettled := s.fe.unsettled && decide (s.fe.mcyc + s.feDec < s.fe.settleM) } := by
    unfold State.feClock State.setFe
    dsimp only
    rw [State.until_fe]
  unfold State.feIn State.feTake State.setFe
  dsimp only
  rw [hclock]

theorem feIn_phase (q : Nat) : (s.feIn x).fePhase q = s.fePhase q := fePhase_of_phases (by rw [feIn_fe]) q

theorem feIn_condSet (c : Nat) : (s.feIn x).condSet c = s.condSet c := condSet_of_fe (by rw [feIn_fe]; exact ⟨rfl, rfl, rfl⟩) c

variable {s} in
theorem feSample_run (h : s.fe.run = true) :
    s.feSample x = (((s.feIn x).feCross (s.feIn x).feStamp).feEdge (s.feIn x).feStamp).feRest x (s.feIn x).feStamp := if_pos h

variable {s} in
/-- After the crossings the block in progress ends if it is due, and the sample joins the block it belongs to. -/
theorem feSample_passes (h : s.fe.run = true) : Passing ((s.feIn x).feCross (s.feIn x).feStamp) (s.feSample x) := by
  rw [feSample_run x h]
  exact (Passing.edge _ _).trans (feRest_rests _ x _).toPassing

variable {s} in
theorem feSample_idle (h : s.fe.run = false) : s.feSample x = s := if_neg (by rw [h]; decide)

theorem feSample_moves : FeMoves s (s.feSample x) := by
  cases h : s.fe.run with
  | false =>
    rw [feSample_idle x h]
    exact .refl s
  | true =>
    exact (feIn_moves s x).trans ((Crossing.cross _ _).moves.trans (feSample_passes x h).moves)

end

/-! ### The samples of a command -/

theorem feRun_moves (stop : State → State → Bool) (xs : List FeSample) (s : State) : FeMoves s (s.feRun stop xs) := by
  induction xs generalizing s with
  | nil => exact .refl s
  | cons x r ih =>
    have hx := feSample_moves s x
    unfold State.feRun
    dsimp only
    split
    · exact hx
    · exact hx.trans (ih _)

theorem feRun_idle (stop : State → State → Bool) (xs : List FeSample) {s : State} (h : s.fe.run = false) : s.feRun stop xs = s := by
  induction xs with
  | nil => rfl
  | cons x r ih =>
    unfold State.feRun
    dsimp only
    rw [feSample_idle x h]
    split
    · rfl
    · exact ih

/-- A command ends with its first sample when that brings about what it names. -/
theorem feRun_first {stop : State → State → Bool} {x : FeSample} {s : State} (xs : List FeSample) (h : stop s (s.feSample x) = true) :
    s.feRun stop (x :: xs) = s.feSample x := if_pos h

/-- Each command of the front end hands it samples, until what it names. -/
theorem exec_feeder {xs : List FeSample} {p : Fin 3} {q : Fin 5} {c : Instr}
    (hc : c ∈ [.feederBlockEnd xs, .feederCycle p xs, .noZc xs, .tamperCondition q xs, .settlingEnd xs]) (s : State) : ∃ stop, exec c s = .next (s.feRun stop xs) := by
  simp only [List.mem_cons, List.not_mem_nil, or_false] at hc
  rcases hc with rfl | rfl | rfl | rfl | rfl
  all_goals exact ⟨_, rfl⟩

section
variable {s : State} {x : FeSample} (xs : List FeSample)

theorem exec_feederBlockEnd (h : s.fe.bseq ≠ (s.feSample x).fe.bseq) : exec (.feederBlockEnd (x :: xs)) s = .next (s.feSample x) :=
  congrArg Host.Outcome.next (feRun_first xs (decide_eq_true h))

theorem exec_feederCycle {p : Fin 3} (h : (s.fePhase p).done ≠ ((s.feSample x).fePhase p).done) : exec (.feederCycle p (x :: xs)) s = .next (s.feSample x) :=
  congrArg Host.Outcome.next (feRun_first xs (decide_eq_true h))

theorem exec_tamperCondition {c : Fin 5} (h : s.condSet c ≠ (s.feSample x).condSet c) : exec (.tamperCondition c (x :: xs)) s = .next (s.feSample x) :=
  congrArg Host.Outcome.next (feRun_first xs (decide_eq_true h))

theorem exec_noZc (ha : s.fe.noZc = false) (hb : (s.feSample x).fe.noZc = true) : exec (.noZc (x :: xs)) s = .next (s.feSample x) :=
  congrArg Host.Outcome.next (feRun_first xs (by rw [ha, hb]; rfl))

theorem exec_settlingEnd (ha : s.fe.unsettled = true) (hb : (s.feSample x).fe.unsettled = false) : exec (.settlingEnd (x :: xs)) s = .next (s.feSample x) :=
  congrArg Host.Outcome.next (feRun_first xs (by rw [ha, hb]; rfl))

end

/-! ### Settling ends (R300), and every phase is lost (R303) -/

theorem settlingEnd_settles {x : FeSample} (xs : List FeSample) {s : State} (hrun : s.fe.run = true) (hu : s.fe.unsettled = true)
    (hm : s.fe.settleM ≤ s.fe.mcyc + s.feDec) (hsw : s.switchDue = false) :
    ∃ t, exec (.settlingEnd (x :: xs)) s = .next t ∧ t.fe.unsettled = false ∧ t.fe.mcyc = s.fe.mcyc + s.feDec := by
  have hin := feIn_fe s x
  have hcross := Crossing.cross (s.feIn x) (s.feIn x).feStamp
  have hpass := feSample_passes x hrun
  have hswitch : ((s.feIn x).feCross (s.feIn x).feStamp).switchDue = false := by
    refine Eq.trans (((feIn_moves s x).trans hcross.moves).switchDue ?_) hsw
    rw [hcross.form, hin]
    rfl
  have hsettled : (s.feSample x).fe.unsettled = false := by
    rw [(hpass.settled hswitch).2, hcross.form, hin]
    show (s.fe.unsettled && decide (s.fe.mcyc + s.feDec < s.fe.settleM)) = false
    rw [decide_eq_false (by omega), Bool.and_false]
  refine ⟨s.feSample x, exec_settlingEnd xs hu hsettled, hsettled, ?_⟩
  rw [hpass.mcyc, hcross.form, hin]
  rfl

theorem feHolds_noZc (s : State) (c : Nat) (on : Bool) : (s.feHolds c on).fe.noZc = s.fe.noZc := rfl

theorem feZc_lost {s : State} (stamp : Nat) (href : s.fe.refPhase = none) : (s.feZc stamp).fe.noZc = true := by
  unfold State.feZc
  rw [href]
  cases hz : s.fe.noZc with
  | true => exact hz
  | false =>
    rw [if_pos (by decide), mainsLost_fe, feEvent_fe]
    simp only [feHolds_noZc, State.irq_fe]
    rfl

/-- No phase is left present: the front end counts them as lost, and its flag says so. -/
theorem feCross_lost {s : State} {stamp : Nat} (i : s.Inv) (hz : s.fe.noZc = false)
    (href : ((List.range 3).foldl (fun a p => (a.feRise stamp p).feMissing p) s).fe.refPhase = none) :
    (s.feCross stamp).fe.noZc = true ∧ (s.feCross stamp).bitOf rMtrIrq 4 = true := by
  have hzc : (s.feCross stamp).fe.noZc = true := by
    unfold State.feCross
    exact feZc_lost stamp href
  exact ⟨hzc, (Crossing.cross s stamp).lost i hz hzc⟩

theorem noZc_counted {x : FeSample} (xs : List FeSample) {s : State} (i : s.Inv) (hrun : s.fe.run = true) (hz : s.fe.noZc = false)
    (href : ((List.range 3).foldl (fun a p => (a.feRise (s.feIn x).feStamp p).feMissing p) (s.feIn x)).fe.refPhase = none) :
    ∃ t, exec (.noZc (x :: xs)) s = .next t ∧ t.fe.noZc = true ∧ t.bitOf rMtrIrq 4 = true := by
  have hin := (feIn_moves s x).keeps i
  obtain ⟨hlost, hflag⟩ := feCross_lost hin (by rw [feIn_fe]; exact hz) href
  have hpass := feSample_passes x hrun
  have hzc : (s.feSample x).fe.noZc = true := hpass.noZc.trans hlost
  exact ⟨s.feSample x, exec_noZc xs hz hzc, hzc, hpass.moves.flags ((Crossing.cross _ _).moves.keeps hin) 4 (by omega) hflag⟩

end Sys2Proof.Machine
end

section
/-! SUPPORT. A cycle that a sample completes, a step that it finds, and a tamper condition that it sets or clears (R302, R303, R309, R310). -/
namespace Sys2Proof.Machine

/-! ### Step watch (R309) -/

/-- Step watch reads its register fields and which block the cycle began in. -/
theorem stepWatch_congr {a b : State} (h0 : ∀ hi lo, b.fld rMtrStep0 hi lo = a.fld rMtrStep0 hi lo) (h1 : ∀ hi lo, b.fld rMtrStep1 hi lo = a.fld rMtrStep1 hi lo)
    (hs : b.fe.start = a.fe.start) (hb : b.fe.bseq = a.fe.bseq) (x : FePhase) (pc : Int) (uns : Bool) (start : Nat) :
    stepWatch b x pc uns start = stepWatch a x pc uns start := by
  unfold stepWatch
  simp only [h0, h1, hs, hb]

/-- The cycle that fills the post window decides on the candidate. -/
theorem stepWatch_decides {s : State} {x : FePhase} {c : StepCand} {pc : Int} (start : Nat) (hc : x.cand = some c)
    (hn : c.post.length + 1 = windowCyc (s.fld rMtrStep0 31 24)) {dp : Int} (hdp : dp = (meanDiff (c.post ++ [pc]) c.pre).tdiv ((c.post.length + 1) * c.pre.length)) :
    stepWatch s x pc false start = ({ x with cycles := (pc :: x.cycles).take 101, cand := none },
      if (s.fld rMtrStep1 15 0 : Int) < (c.post ++ [pc]).foldl max pc - (c.post ++ [pc]).foldl min pc ∨ dp.natAbs < s.fld rMtrStep0 15 0 then none
      else some (c, dp, meanI (c.post ++ [pc]))) := by
  have hlen : (c.post ++ [pc]).length = c.post.length + 1 := List.length_append
  unfold stepWatch
  rw [hc]
  dsimp only
  rw [if_neg (by decide), if_neg (by omega), hlen]
  push_cast
  rw [← hdp]
  split <;> rfl

/-! ### A cycle completes (R302, R303) -/

theorem feNow_voltage (s : State) {p : Nat} (hp : p < 3) : s.feNow p = (s.fe.sig.map fun y => y.getD p 0).headD 0 := if_pos (.inl hp)

/-- The front end as a phase's turn finds it reads what the sample found. -/
theorem Crossing.reads {a b : State} (h : Crossing a b) {p : Nat} (hp : b.fePhase p = a.fePhase p) (start : Nat) :
    b.cycleOk p = a.cycleOk p ∧ b.cyclePower p = a.cyclePower p ∧ b.cycleWatch p start = a.cycleWatch p start := by
  have hok : b.cycleOk p = a.cycleOk p := by
    unfold State.cycleOk
    rw [hp, h.moves.fld (by decide), h.moves.fld (by decide)]
  have hpower : b.cyclePower p = a.cyclePower p := by
    unfold State.cyclePower
    rw [hp]
  have hwatch := stepWatch_congr (fun hi lo => h.moves.fld (a := rMtrStep0) (by decide) hi lo) (fun hi lo => h.moves.fld (a := rMtrStep1) (by decide) hi lo)
    (by rw [h.form]; rfl) (by rw [h.form]; rfl)
  refine ⟨hok, hpower, ?_⟩
  unfold State.cycleWatch
  rw [hok, hpower, hp, hwatch]

/-- A step that step watch emits sets its flag (R309). -/
theorem feCycle_step {s : State} (i : s.Inv) {p start : Nat} (m m0 stamp : Nat) (h : (s.cycleWatch p start).2 ≠ none) :
    (s.feCycle p m m0 start stamp).bitOf rMtrIrq 3 = true := by
  rw [feCycle_eq]
  have hzc : Crossing s (((s.setFePhase p (s.cycledPhase p start)).feHolds p (s.cycleOk p && decide (s.cyclePower p ≤ -(s.fld rMtrRev 15 0 : Int)))).feZc stamp) :=
    (Crossing.setPhase s (by rw [cycledPhase_eq])).trans ((Crossing.holds ..).trans (.zc ..))
  generalize (((s.setFePhase p (s.cycledPhase p start)).feHolds p _).feZc stamp) = u at hzc ⊢
  have iu := hzc.moves.keeps i
  obtain ⟨o, ho⟩ := Option.ne_none_iff_exists'.mp h
  rw [ho]
  have hirq := FeMoves.irq u 3
  have hsent : FeMoves (u.irq rMtrIrq 3) (u.stepSent p (some o)) := .feEvent ..
  exact (hsent.trans (Crossing.refCycle ..).moves).flags (hirq.keeps iu) 3 (by omega) (State.irq_set iu.1 (by omega))

section
variable {b : State} {p m0 start : Nat} (stamp : Nat) (harmed : (b.fePhase p).armed = true) (hv : 0 ≤ b.feNow p) (hrise : (b.fePhase p).rise = some (m0, start))
  (hok : riseOk (b.fe.mcyc - m0) = true)
include harmed hv hrise hok

/-- A rising crossing in the accepted period counts a cycle, and the next begins (R302). -/
theorem feRise_cycle : b.feRise stamp p = (b.feCycle p b.fe.mcyc m0 start stamp).setFePhase p
    { (b.feCycle p b.fe.mcyc m0 start stamp).fePhase p with rise := some (b.fe.mcyc, stamp), armed := false, acc := {} } := by
  unfold State.feRise
  dsimp only
  rw [if_pos ⟨harmed, hv⟩, hrise]
  dsimp only
  rw [if_pos hok]

/-- The phase after the turn that counts its cycle. -/
theorem feTurn_cycle (hp : p < b.fe.phases.length) : b.feTurn stamp p = b.feRise stamp p ∧
    (b.feTurn stamp p).fePhase p = { b.cycledPhase p start with rise := some (b.fe.mcyc, stamp), armed := false, acc := {} } := by
  have hcycle := Crossing.cycle b p b.fe.mcyc m0 start stamp
  have hcycled : (b.feCycle p b.fe.mcyc m0 start stamp).fePhase p = b.cycledPhase p start := by
    rw [← fePhase_setFePhase b (b.cycledPhase p start) hp]
    exact fePhase_of_phases (feCycle_phases ..) p
  have hphase : (b.feRise stamp p).fePhase p = { b.cycledPhase p start with rise := some (b.fe.mcyc, stamp), armed := false, acc := {} } := by
    rw [feRise_cycle stamp harmed hv hrise hok, fePhase_setFePhase _ _ (by rw [hcycle.count]; exact hp), hcycled]
  have hmcyc : (b.feRise stamp p).fe.mcyc = b.fe.mcyc := by
    rw [(Crossing.rise b stamp p).form]
    rfl
  have hturn : b.feTurn stamp p = b.feRise stamp p := by
    unfold State.feTurn State.feMissing
    rw [hphase]
    dsimp only
    rw [hmcyc, Nat.sub_self, if_neg (by decide)]
  exact ⟨hturn, by rw [hturn, hphase]⟩

end

section
variable {a : State} {p m0 start : Nat} (stamp : Nat) (hp : p < 3) (hlen : a.fe.phases.length = 3) (harmed : (a.fePhase p).armed = true) (hv : 0 ≤ a.feNow p)
  (hrise : (a.fePhase p).rise = some (m0, start)) (hok : riseOk (a.fe.mcyc - m0) = true)
include hp hlen harmed hv hrise hok

/-- The crossings of a sample that completes a phase's cycle leave the phase with that cycle counted, and a step found in it sets its flag. -/
theorem feCross_cycle : (a.feCross stamp).fePhase p = { a.cycledPhase p start with rise := some (a.fe.mcyc, stamp), armed := false, acc := {} } ∧
    (a.Inv → (a.cycleWatch p start).2 ≠ none → (a.feCross stamp).bitOf rMtrIrq 3 = true) := by
  obtain ⟨b, hb, hbp, hcross, hphase⟩ := feCross_turn a stamp hp
  obtain ⟨hbok, -, hbwatch⟩ := hb.reads hbp start
  have hmcyc : b.fe.mcyc = a.fe.mcyc := by rw [hb.form]; rfl
  have hnow : b.feNow p = a.feNow p := by
    rw [feNow_voltage b hp, feNow_voltage a hp, hb.form]
    rfl
  rw [← hbp] at harmed hrise
  rw [← hnow] at hv
  rw [← hmcyc] at hok
  obtain ⟨hturn, hcycled⟩ := feTurn_cycle stamp harmed hv hrise hok (by rw [hb.count, hlen]; exact hp)
  have hsame : b.cycledPhase p start = a.cycledPhase p start := by
    unfold State.cycledPhase
    rw [hbwatch, hbok]
  refine ⟨by rw [hphase, hcycled, hsame, hmcyc], fun i hstep => ?_⟩
  have ib := hb.moves.keeps i
  have hflag := feCycle_step ib b.fe.mcyc m0 stamp (by rw [hbwatch]; exact hstep)
  have hset : FeMoves (b.feCycle p b.fe.mcyc m0 start stamp) (b.feTurn stamp p) := by
    rw [hturn, feRise_cycle stamp harmed hv hrise hok]
    exact .setFe _ _
  exact (hset.trans hcross.moves).flags ((Crossing.cycle ..).moves.keeps ib) 3 (by omega) hflag

end

/-- What a phase is once its cycle is counted and the next begins. -/
structure FePhase.Counted (x y : FePhase) (ok : Bool) (pc : Int) (rise : Nat × Nat) : Prop where
  done    : y.done = x.done + 1
  present : y.present = ok
  rise    : y.rise = some rise
  armed   : y.armed = false
  dropped : ok = false ∨ x.acc.uns = true → y.cycles = [] ∧ y.cand = none
  kept    : ok = true → x.acc.uns = false → y.cycles = (pc :: x.cycles).take 101

theorem cycledPhase_counted (s : State) (p start : Nat) (rise : Nat × Nat) {y : FePhase}
    (h : PhasePassed { s.cycledPhase p start with rise := some rise, armed := false, acc := {} } y) : (s.fePhase p).Counted y (s.cycleOk p) (s.cyclePower p) rise := by
  obtain ⟨hform, hcand⟩ := h
  have hcycled := cycledPhase_eq s p start
  have hcycles : y.cycles = if s.cycleOk p = true ∧ (s.fePhase p).acc.uns = false then (s.cyclePower p :: (s.fePhase p).cycles).take 101 else [] := by
    rw [hform, hcycled]
  refine ⟨by rw [hform, hcycled], by rw [hform, hcycled], by rw [hform], by rw [hform], fun hdrop => ⟨?_, hcand (cycledPhase_cand s p start hdrop)⟩, fun hok huns => ?_⟩
  · rw [hcycles]
    exact if_neg fun hand => hdrop.elim (fun e => by rw [hand.1] at e; cases e) (fun e => by rw [hand.2] at e; cases e)
  · rw [hcycles]
    exact if_pos ⟨hok, huns⟩

section
variable {s : State} {x : FeSample}

theorem feIn_cycle (p : Nat) : (s.feIn x).cycleOk p = s.cycleOk p ∧ (s.feIn x).cyclePower p = s.cyclePower p := by
  have hfound := feIn_phase s x p
  have hmoves := feIn_moves s x
  unfold State.cycleOk State.cyclePower
  rw [hfound, hmoves.fld (by decide), hmoves.fld (by decide)]
  exact ⟨rfl, rfl⟩

/-- A cycle that a sample completes, as the command that waits for it leaves it (R302, R303, R309). -/
theorem feederCycle_counts {p : Fin 3} (xs : List FeSample) {m0 start : Nat} (hrun : s.fe.run = true) (hlen : s.fe.phases.length = 3)
    (harmed : (s.fePhase p).armed = true) (hv : 0 ≤ (s.feIn x).feNow p) (hrise : (s.fePhase p).rise = some (m0, start)) (hok : riseOk ((s.feIn x).fe.mcyc - m0) = true) :
    ∃ t, exec (.feederCycle p (x :: xs)) s = .next t ∧
      (s.fePhase p).Counted (t.fePhase p) (s.cycleOk p) (s.cyclePower p) ((s.feIn x).fe.mcyc, (s.feIn x).feStamp) ∧
      (s.Inv → ((s.feIn x).cycleWatch p start).2 ≠ none → t.bitOf rMtrIrq 3 = true) := by
  have hin := feIn_moves s x
  have hfound := feIn_phase s x p
  obtain ⟨hsameok, hsamepower⟩ := feIn_cycle (s := s) (x := x) p
  have hcount : (s.feIn x).fe.phases.length = 3 := by rw [feIn_fe]; exact hlen
  have hpass := feSample_passes x hrun
  rw [← hfound] at harmed hrise
  obtain ⟨hphase, hflag⟩ := feCross_cycle (s.feIn x).feStamp p.isLt hcount harmed hv hrise hok
  have hlater := hpass.phase p
  rw [hphase] at hlater
  have hcounted := cycledPhase_counted _ _ _ _ hlater
  rw [hfound, hsameok, hsamepower] at hcounted
  refine ⟨s.feSample x, exec_feederCycle xs (by rw [hcounted.done]; omega), hcounted, fun i hstep => ?_⟩
  exact hpass.moves.flags ((Crossing.cross _ _).moves.keeps (hin.keeps i)) 3 (by omega) (hflag (hin.keeps i) hstep)

end

/-! ### A tamper condition (R310) -/

/-- What sets or clears a condition, but its event. -/
theorem condFlip_form (s : State) (c : Nat) : s.condFlip c =
    { s with regs := (s.condFlip c).regs, fe := { s.fe with phases := (s.condFlip c).fe.phases, byp := (s.condFlip c).fe.byp, neu := (s.condFlip c).fe.neu,
                                                            conds := (s.condFlip c).fe.conds } } := by
  have hput : ∀ (a : State) (on : Bool), a.putCond c on = { a with fe := { a.fe with phases := (a.putCond c on).fe.phases, byp := (a.putCond c on).fe.byp,
                                                                                     neu := (a.putCond c on).fe.neu } } := fun a on => by
    unfold State.putCond
    split
    · rfl
    · split <;> rfl
  unfold State.condFlip
  rw [State.irq_eq, hput]
  rfl

theorem condFlip_regs (s : State) (c : Nat) : SameRegs s (s.condFlip c) [rMtrIrq] := by
  have hput : ((s.condRun c 0).putCond c (s.cond c).holds).regs = s.regs := by
    unfold State.putCond
    split
    · rfl
    · split <;> rfl
  exact SameRegs.trans (.of_regs hput _) (irq_sameRegs _ (by simp) 2)

theorem condFlip_flag {s : State} (i : s.Inv) (c : Nat) : (s.condFlip c).bitOf rMtrIrq 2 = true :=
  State.irq_set (((condRun_rests s c 0).trans (putCond_rests _ c _)).moves.keeps i).1 (by omega)

theorem FeMoves.condOn {a b : State} (h : FeMoves a b) (c : Nat) : b.condOn c = a.condOn c := by
  have hctl : ∀ k, b.bitOf rMtrCtl k = a.bitOf rMtrCtl k := h.bitOf (by decide)
  have hfld : ∀ r ∈ [rMtrCtl, rMtrRev, rMtrByp, rMtrNeu], ∀ hi lo, b.fld r hi lo = a.fld r hi lo := fun r hr hi lo => by
    refine h.fld ?_ hi lo
    revert r
    decide
  unfold State.condOn
  simp only [hctl, hfld rMtrCtl (by simp), hfld rMtrRev (by simp), hfld rMtrByp (by simp), hfld rMtrNeu (by simp)]

theorem FeMoves.condSecs {a b : State} (h : FeMoves a b) (c : Nat) : b.condSecs c = a.condSecs c := by
  unfold State.condSecs
  rw [h.fld (a := rMtrRev) (by decide), h.fld (a := rMtrByp) (by decide), h.fld (a := rMtrNeu) (by decide)]

/-- A sample at which a condition has differed from what is set for its persistence time sets or clears it. -/
theorem feConds_flips {s : State} (stamp : Nat) {c : Nat} (hc : c < 5) (i : s.Inv) (hlen : s.fe.phases.length = 3) (hon : s.condOn c = true)
    (hset : (s.cond c).holds = !s.condSet c) (hs : s.fe.unsettled = false) (hrun : s.condSecs c * 1024000 ≤ (s.cond c).run + s.feDec) :
    (s.feConds stamp (List.range 5)).condSet c = (s.cond c).holds ∧ ((s.feConds stamp (List.range 5)).cond c).run = 0 ∧
      (s.feConds stamp (List.range 5)).bitOf rMtrIrq 2 = true := by
  obtain ⟨b, hb, hbset, hbcond, hlater, htset, htcond⟩ := feConds_turn s stamp hc
  have ib := hb.moves.keeps i
  have hunsettled : b.fe.unsettled = false := by rw [hb.form]; exact hs
  have hdec : b.feDec = s.feDec := by
    unfold State.feDec
    rw [hb.form]
    rfl
  have hflips : b.feCond stamp c = b.condSent stamp c := by
    refine feCond_flips stamp ?_ ?_ hunsettled ?_
    · rw [hb.moves.condOn, hon]
    · rw [hbcond, hbset, hset]
    · rw [hb.moves.condSecs, hbcond, hdec]
      exact hrun
  have hsent : FeMoves (b.condFlip c) (b.condSent stamp c) := .feEvent ..
  rw [hflips] at hlater htset htcond
  refine ⟨?_, ?_, (hsent.trans hlater.moves).flags ((condFlip_rests b c).moves.keeps ib) 2 (by omega) (condFlip_flag ib c)⟩
  · rw [htset, condSent_condSet, condFlip_condSet b (by rw [hb.count, hlen]), hbcond]
  · rw [htcond, cond_of_conds (condSent_conds ..), condFlip_run]

section
variable (s : State) (x : FeSample)

/-- The state in which the conditions' timers find a sample: its crossings are taken, the block in progress has ended if it was due, and the sums have it. -/
def State.feSummed : State := ((((s.feIn x).feCross (s.feIn x).feStamp).feEdge (s.feIn x).feStamp).feOver x (s.feIn x).feStamp).feAdd

variable {s} in
theorem feSample_conds (h : s.fe.run = true) : s.feSample x = (s.feSummed x).feConds (s.feIn x).feStamp (List.range 5) := feSample_run x h

theorem feSummed_moves : FeMoves s (s.feSummed x) :=
  (feIn_moves s x).trans ((Crossing.cross _ _).moves.trans ((Passing.edge _ _).moves.trans ((feOver_rests _ x _).1.moves.trans (feAdd_rests _).moves)))

theorem feSummed_condSet (c : Nat) : (s.feSummed x).condSet c = s.condSet c := by
  unfold State.feSummed
  rw [feAdd_condSet, (feOver_rests _ x _).2, feEdge_condSet, (Crossing.cross _ _).condSet, feIn_condSet]

theorem feSummed_count : (s.feSummed x).fe.phases.length = s.fe.phases.length := by
  unfold State.feSummed
  rw [(feAdd_rests _).count, (feOver_rests _ x _).1.count, (Passing.edge _ _).count, (Crossing.cross _ _).count, feIn_fe]

end

/-- The command that waits for a tamper condition ends with the sample that sets or clears it (R310). -/
theorem tamperCondition_flips {c : Fin 5} {x : FeSample} (xs : List FeSample) {s : State} (i : s.Inv) (hrun : s.fe.run = true) (hlen : s.fe.phases.length = 3)
    (hon : (s.feSummed x).condOn c = true) (hs : (s.feSummed x).fe.unsettled = false) (hset : ((s.feSummed x).cond c).holds = !s.condSet c)
    (htime : s.condSecs c * 1024000 ≤ ((s.feSummed x).cond c).run + (s.feSummed x).feDec) :
    ∃ t, exec (.tamperCondition c (x :: xs)) s = .next t ∧ t.condSet c = ((s.feSummed x).cond c).holds ∧ (t.cond c).run = 0 ∧ t.bitOf rMtrIrq 2 = true := by
  have hmoves := feSummed_moves s x
  have hflips := feConds_flips (s.feIn x).feStamp c.isLt (hmoves.keeps i) (by rw [feSummed_count, hlen]) hon (by rw [feSummed_condSet, hset]) hs
    (by rw [hmoves.condSecs]; exact htime)
  rw [← feSample_conds x hrun] at hflips
  refine ⟨s.feSample x, exec_tamperCondition xs ?_, hflips⟩
  rw [hflips.1, hset]
  cases s.condSet c <;> decide

/-- At such a sample the condition's own timer sets or clears it, and sends its event (R310, R312). -/
theorem feSummed_flips {c : Fin 5} {x : FeSample} {s : State} (stamp : Nat) (hlen : s.fe.phases.length = 3)
    (hon : (s.feSummed x).condOn c = true) (hs : (s.feSummed x).fe.unsettled = false) (hset : ((s.feSummed x).cond c).holds = !s.condSet c)
    (htime : s.condSecs c * 1024000 ≤ ((s.feSummed x).cond c).run + (s.feSummed x).feDec) :
    (s.feSummed x).feCond stamp c = (s.feSummed x).condSent stamp c ∧ ((s.feSummed x).condFlip c).condSet c = ((s.feSummed x).cond c).holds ∧
      ∀ q : Fin 5, q ≠ c → ((s.feSummed x).condFlip c).condSet q = (s.feSummed x).condSet q := by
  refine ⟨feCond_flips stamp hon ?_ hs ?_, condFlip_condSet _ (by rw [feSummed_count, hlen]), fun q hq => ?_⟩
  · rw [feSummed_condSet, hset]
  · rw [(feSummed_moves s x).condSecs]
    exact htime
  · exact (condFlip_other _ c.isLt q.isLt fun e => hq (Fin.ext e)).1

end Sys2Proof.Machine
end

section
/-! SUPPORT. A block that is due, and what becomes of it and of an event at Q9 (R304 to R308, R312, R313). -/
namespace Sys2Proof.Machine

/-! ### What the front end loses (R308, R313) -/

theorem feLost_counts {s : State} (i : s.Inv) : s.feLost.reg rMtrLostcnt = min 4294967295 (s.reg rMtrLostcnt + 1) ∧ s.feLost.bitOf rMtrIrq 0 = true := by
  have hcount : (s.count rMtrLostcnt 1).reg rMtrLostcnt = min 4294967295 (s.reg rMtrLostcnt + 1) := by
    have hlt := s.reg_lt rMtrLostcnt
    unfold State.count satAdd
    rw [State.reg_setReg i.1, if_pos rfl]
    split <;> omega
  have hwf := State.setReg_wf i.1 rMtrLostcnt (satAdd 0xFFFFFFFF (s.reg rMtrLostcnt) 1)
  exact ⟨(State.reg_irq_other hwf 0 (by decide)).trans hcount, State.irq_set hwf (by omega)⟩

/-! ### An event (R312, R313) -/

/-- The event of an instant as it goes to Q9 (R312). -/
def State.eventPkt (s : State) (ty ph : Nat) (dp v1 v2 : Int) (instant bseq : Nat) : FePkt :=
  { kind := .mtrEvent, stamp := instant,
    payload := le 1 1 ++ le 1 ty ++ le 1 ph ++ le 1 (flag 0 (s.feUnsettledIn bseq)) ++ leI 4 dp ++ leI 4 v1 ++ leI 4 v2 ++ le 4 bseq ++ le 4 0 }

section
variable {s : State} {p : FePkt} (hh : s.seq.holder = true)
include hh

theorem feEventPkt_offered (he : s.fe.events = []) (hr : (s.ring 9).roomFor (p.input.words.length + 1) = true) : s.feEventPkt p = s.offer 9 p.input := by
  unfold State.feEventPkt
  rw [if_neg (by rw [hh]; decide), if_pos (by rw [he, hr]; rfl)]

variable (hr : (s.ring 9).roomFor (p.input.words.length + 1) = false)
include hr

theorem feEventPkt_held (hl : s.fe.events.length < 16) : s.feEventPkt p = { s with fe := { s.fe with events := s.fe.events ++ [p] } } := by
  unfold State.feEventPkt
  rw [if_neg (by rw [hh]; decide), if_neg (by rw [hr, Bool.and_false]; decide), if_pos hl]
  rfl

theorem feEventPkt_lost (hl : 16 ≤ s.fe.events.length) : s.feEventPkt p = s.feLost := by
  unfold State.feEventPkt
  rw [if_neg (by rw [hh]; decide), if_neg (by rw [hr, Bool.and_false]; decide), if_neg (by omega)]

end

/-! ### A block at Q9 (R308) -/

section
variable {s : State}

/-- Where Q9 takes nothing that is held, offering it changes nothing. -/
theorem feDrain_same (hh : State.feOffer s.fe.held s = (s.fe.held, s)) (he : State.feOffer s.fe.events s = (s.fe.events, s)) : s.feDrain = s := by
  unfold State.feDrain
  rw [hh]
  dsimp only
  rw [he]
  rfl

theorem feDrain_empty (hh : s.fe.held = []) (he : s.fe.events = []) : s.feDrain = s :=
  feDrain_same (by rw [hh]; rfl) (by rw [he]; rfl)

theorem feDrain_full (hr : ∀ k, 0 < k → (s.ring 9).roomFor k = false) : s.feDrain = s := by
  have hoffer : ∀ l, State.feOffer l s = (l, s) := fun l => by
    cases l with
    | nil => rfl
    | cons p r => exact if_neg (by rw [hr _ (by omega)]; decide)
  exact feDrain_same (hoffer _) (hoffer _)

variable {p : FePkt} (hh : s.seq.holder = true)
include hh

theorem feBlock_offered (hd : s.fe.held = []) (he : s.fe.events = []) (hr : (s.ring 9).roomFor (p.input.words.length + 1) = true) : s.feBlock p = s.offer 9 p.input := by
  unfold State.feBlock
  rw [if_neg (by rw [hh]; decide), feDrain_empty hd he]
  exact if_pos (by rw [hd, hr]; rfl)

variable (hr : ∀ k, 0 < k → (s.ring 9).roomFor k = false)
include hr

theorem feBlock_held (hl : s.fe.held.length < 8) : s.feBlock p = s.setFe fun x => { x with held := x.held ++ [p] } := by
  unfold State.feBlock
  rw [if_neg (by rw [hh]; decide), feDrain_full hr]
  dsimp only
  rw [if_neg (by rw [hr _ (by omega), Bool.and_false]; decide), if_pos hl]

theorem feBlock_lost (hl : 8 ≤ s.fe.held.length) : s.feBlock p = s.feLost.setFe fun x => { x with gap := true } := by
  unfold State.feBlock
  rw [if_neg (by rw [hh]; decide), feDrain_full hr]
  dsimp only
  rw [if_neg (by rw [hr _ (by omega), Bool.and_false]; decide), if_neg (by omega)]

end

/-! ### The block's content (R305 to R307) -/

theorem leI_length (n : Nat) (v : Int) : (leI n v).length = n := le_length ..

theorem blockPayload_length (s : State) (len : Nat) (short : Bool) : (s.blockPayload len short).length = 96 := by
  simp [State.blockPayload, leI_length]

theorem blockFlags_lt (s : State) (short : Bool) : s.blockFlags short < 256 := by
  have hflag : ∀ k b, flag k b ≤ 2 ^ k := fun k b => by cases b <;> simp [flag]
  have h0 := hflag 0 s.fe.blkUnsettled
  have h1 := hflag 1 short
  have h2 := hflag 2 s.fe.noZc
  have h3 := hflag 3 (!s.fe.blk.ovr.isEmpty)
  have h4 := hflag 4 s.fe.gap
  unfold State.blockFlags
  omega

/-- One of several fields of one width. -/
theorem take_drop_flatMap_range {f : Nat → Bytes} {w : Nat} (hf : ∀ j, (f j).length = w) {n k : Nat} (hk : k < n) (rest : Bytes) :
    (((List.range n).flatMap f ++ rest).drop (w * k)).take w = f k := by
  obtain ⟨m, rfl⟩ := Nat.exists_eq_add_of_lt hk
  have hlen : ((List.range k).flatMap f).length = w * k := by simp [List.length_flatMap, hf, Nat.mul_comm]
  have hsplit : List.range (k + m + 1) = List.range k ++ k :: (List.range m).map (k + 1 + ·) := by
    rw [show k + m + 1 = k + 1 + m by omega, List.range_add, List.range_succ, List.append_assoc, List.singleton_append]
  rw [hsplit, List.flatMap_append, List.flatMap_cons, List.append_assoc, ← hlen, List.drop_left, List.append_assoc, ← hf k, List.take_left]

/-- An MTR_BLOCK's flags, BSEQ, LEN and energies where R306 has them. -/
theorem blockPayload_fields (s : State) (len : Nat) (short : Bool) :
    fld 1 1 (s.blockPayload len short) = s.blockFlags short ∧ fld 4 4 (s.blockPayload len short) = s.fe.bseq % 2 ^ 32 ∧
    fld 8 4 (s.blockPayload len short) = len % 2 ^ 32 ∧
    ∀ k < 6, ((s.blockPayload len short).drop (16 + 8 * k)).take 8 = leI 8 ((s.fe.blk.e.getD k 0).tdiv (eUnit : Int)) := by
  have hflags := blockFlags_lt s short
  have hhead : (le 1 1 ++ le 1 (s.blockFlags short) ++ le 1 (min 50 s.fe.cyclesIn) ++ le 1 s.blockPhases ++ le 4 s.fe.bseq ++ le 4 len ++
    le 4 (if s.fe.noZc then 0 else s.fe.freq)).length = 16 := by simp
  unfold State.blockPayload
  refine ⟨?_, ?_, ?_, fun k hk => ?_⟩
  · simp [List.append_assoc, fld_append_right, Nat.mod_eq_of_lt hflags]
  · simp [List.append_assoc, fld_append_right]
  · simp [List.append_assoc, fld_append_right]
  · rw [List.append_assoc, List.append_assoc, ← List.drop_drop, ← hhead, List.drop_left]
    exact take_drop_flatMap_range (f := fun k => leI 8 ((s.fe.blk.e.getD k 0).tdiv (eUnit : Int))) (fun _ => leI_length ..) hk _

/-! ### The next block (R303 to R305) -/

theorem feSwitch_form (s : State) : s.feSwitch =
    { s with fe := { s.fe with act := s.feSwitch.fe.act, unsettled := s.feSwitch.fe.unsettled, blkUnsettled := s.feSwitch.fe.blkUnsettled,
                               settleM := s.feSwitch.fe.settleM, phases := s.feSwitch.fe.phases } } := by
  unfold State.feSwitch
  split <;> rfl

theorem showBlock_regs (s : State) (b : FeBlk) (len : Nat) : SameRegs s (s.showBlock b len) ((List.range 7).map rMtrRms ++ (List.range 3).map rMtrPinst) := by
  have hfold : ∀ (g v : Nat → Nat) (l : List Nat) (r : List Nat), (∀ n ∈ l, g n ∈ r) → ∀ s : State, SameRegs s (l.foldl (fun a n => a.setReg (g n) (v n)) s) r :=
    fun g v l r hg s => foldl_related (R := fun a b => SameRegs a b r) (fun s => .refl s r) .trans (fun a n hn => setReg_sameRegs a (hg n hn) _) s
  unfold State.showBlock
  exact (hfold rMtrRms _ _ _ (fun n hn => List.mem_append_left _ (List.mem_map_of_mem hn)) s).trans
    (hfold rMtrPinst _ _ _ (fun n hn => List.mem_append_right _ (List.mem_map_of_mem hn)) _)

section
variable (s : State) (stop stamp : Nat) (short : Bool)

/-- What the end of a block leaves at Q9 and in the holding buffer is what the block's delivery left. -/
theorem endBlock_sent : (s.endBlock stop stamp short).rings = (s.blockSent stop short).rings ∧ (s.endBlock stop stamp short).wram = (s.blockSent stop short).wram ∧
    (s.endBlock stop stamp short).fe.held = (s.blockSent stop short).fe.held ∧ (s.endBlock stop stamp short).fe.gap = (s.blockSent stop short).fe.gap := by
  rw [endBlock_eq, feSwitch_form, showBlock_form]
  exact ⟨rfl, rfl, rfl, rfl⟩

theorem endBlock_regs : SameRegs (s.blockSent stop short) (s.endBlock stop stamp short) ((List.range 7).map rMtrRms ++ (List.range 3).map rMtrPinst) := by
  rw [endBlock_eq]
  intro a ha
  have hswitch : ∀ v : State, v.feSwitch.reg a = v.reg a := fun v => by rw [feSwitch_form]; rfl
  rw [hswitch, showBlock_regs _ _ _ a ha]
  rfl

/-- The next block starts with the present sample, under the next BSEQ, from the fractions carried. -/
theorem endBlock_starts : (s.endBlock stop stamp short).fe.start = stamp ∧ (s.endBlock stop stamp short).fe.bseq = (s.fe.bseq + 1) % 2 ^ 32 ∧
    (s.endBlock stop stamp short).fe.cyclesIn = 0 ∧ (s.endBlock stop stamp short).fe.blk.e = s.fe.blk.e.map fun v => v.tmod (eUnit : Int) := by
  have hbseq : (s.blockSent stop short).fe.bseq = s.fe.bseq := by rw [blockSent_fe]
  rw [endBlock_eq, feSwitch_form, showBlock_form, ← hbseq]
  exact ⟨rfl, rfl, rfl, rfl⟩

variable {s stop short} (hh : s.seq.holder = true)
include hh

/-- With nothing held and room at Q9 the block goes there (R308). -/
theorem endBlock_offered (hd : s.fe.held = []) (he : s.fe.events = []) (hr : (s.ring 9).roomFor ((s.blockPkt stop short).input.words.length + 1) = true) :
    (s.endBlock stop stamp short).rings = (s.offer 9 (s.blockPkt stop short).input).rings ∧
      (s.endBlock stop stamp short).wram = (s.offer 9 (s.blockPkt stop short).input).wram ∧
      (s.endBlock stop stamp short).fe.held = [] ∧ (s.endBlock stop stamp short).fe.gap = false := by
  obtain ⟨hrings, hwram, hheld, hgap⟩ := endBlock_sent s stop stamp short
  have halike : RingsAlike (s.setFe fun x => { x with gap := false }) s := ⟨rfl, rfl, rfl⟩
  have hpacket := halike.packet 9 (s.blockPkt stop short).input.kind.code (s.blockPkt stop short).input.words
  rw [hrings, hwram, hheld, hgap]
  unfold State.blockSent
  rw [feBlock_offered (s := s.setFe fun x => { x with gap := false }) hh hd he hr, offer_fe]
  exact ⟨hpacket.rings, hpacket.wram, hd, rfl⟩

variable (hr : ∀ k, 0 < k → (s.ring 9).roomFor k = false)
include hr

/-- Without room at Q9 the block waits in the holding buffer, if that has room. -/
theorem endBlock_held (hl : s.fe.held.length < 8) : (s.endBlock stop stamp short).rings = s.rings ∧
    (s.endBlock stop stamp short).fe.held = s.fe.held ++ [s.blockPkt stop short] := by
  obtain ⟨hrings, -, hheld, -⟩ := endBlock_sent s stop stamp short
  rw [hrings, hheld]
  unfold State.blockSent
  rw [feBlock_held (s := s.setFe fun x => { x with gap := false }) hh hr hl]
  exact ⟨rfl, rfl⟩

/-- Without room in either the block is dropped and counted. -/
theorem endBlock_lost (i : s.Inv) (hl : 8 ≤ s.fe.held.length) : (s.endBlock stop stamp short).rings = s.rings ∧ (s.endBlock stop stamp short).fe.held = s.fe.held ∧
    (s.endBlock stop stamp short).fe.gap = true ∧ (s.endBlock stop stamp short).reg rMtrLostcnt = min 4294967295 (s.reg rMtrLostcnt + 1) ∧
      (s.endBlock stop stamp short).bitOf rMtrIrq 0 = true := by
  obtain ⟨hrings, -, hheld, hgap⟩ := endBlock_sent s stop stamp short
  have hregs := endBlock_regs s stop stamp short
  have hcounts := feLost_counts (s := s.setFe fun x => { x with gap := false }) i
  have hkept := congrArg FrontEnd.held (feLost_fe (s.setFe fun x => { x with gap := false }))
  unfold State.bitOf
  rw [hrings, hheld, hgap, hregs rMtrLostcnt (by decide), hregs rMtrIrq (by decide)]
  unfold State.blockSent
  rw [feBlock_lost (s := s.setFe fun x => { x with gap := false }) hh hr hl]
  exact ⟨State.irq_rings .., hkept, rfl, hcounts⟩

end

/-- The command that waits for the end of a block ends with the sample before which a block is due (R304). -/
theorem feederBlockEnd_ends {x : FeSample} (xs : List FeSample) {s s2 : State} {stop : Nat} {short : Bool} (hrun : s.fe.run = true)
    (h2 : s2 = (s.feIn x).feCross (s.feIn x).feStamp) (hfresh : s2.fe.fresh = false) (hdue : s2.blockDue (s.feIn x).feStamp = some (stop, short)) :
    exec (.feederBlockEnd (x :: xs)) s = .next ((s2.endBlock stop (s.feIn x).feStamp short).feRest x (s.feIn x).feStamp) := by
  have hedge : s2.feEdge (s.feIn x).feStamp = s2.endBlock stop (s.feIn x).feStamp short := by
    unfold State.feEdge
    rw [if_neg (by rw [hfresh]; decide), hdue]
  have hbseq : s2.fe.bseq = s.fe.bseq := by
    rw [h2, (Crossing.cross _ _).form, feIn_fe]
    rfl
  have hsample : s.feSample x = (s2.endBlock stop (s.feIn x).feStamp short).feRest x (s.feIn x).feStamp := by rw [feSample_run x hrun, ← h2, hedge]
  have hnext : (s.feSample x).fe.bseq = (s.fe.bseq + 1) % 2 ^ 32 := by
    rw [hsample, (feRest_rests ..).form, ← hbseq]
    exact (endBlock_starts s2 stop _ short).2.1
  rw [exec_feederBlockEnd xs (by rw [hnext]; omega), hsample]

end Sys2Proof.Machine
end

section
/-! SUPPORT. The statement on the feeder front end (R300 to R313). -/
namespace Sys2Proof.Machine

/-- Settles O38: the frame by what each of the front end's operations may change; each sample by its crossings, the end of the block that is due, the sums and the
conditions' timers, each phase and each condition in its one turn. -/
theorem feederReportsBlocksStepsAndTamper : Obligations.FeederReportsBlocksStepsAndTamper := by
  unfold Obligations.FeederReportsBlocksStepsAndTamper
  refine ⟨?frame, ?block, ?cycle, ?step, ?tamper, ?settling, ?noZc, ?event⟩
  case frame =>
    intro xs p q s c _ hc
    obtain ⟨stop, hexec⟩ := exec_feeder hc s
    have hmoves := feRun_moves stop xs s
    exact ⟨_, hexec, fun h => feRun_idle stop xs h, hmoves.q9.rings, hmoves.q9.ram, hmoves.regs, hmoves.form⟩
  case block =>
    intro x xs s s1 s2 st stop short hrun h1 hst h2 hfresh hdue
    change s1 = s.feIn x at h1
    subst h1 hst
    obtain ⟨hflags, hno, hlen, henergy⟩ := blockPayload_fields s2 (stop - s2.fe.start) short
    obtain ⟨hstart, hbseq, hcycles, he⟩ := endBlock_starts s2 stop (s.feIn x).feStamp short
    refine ⟨s2.endBlock stop (s.feIn x).feStamp short, s2.blockPkt stop short, feederBlockEnd_ends xs hrun h2 hfresh hdue, rfl, rfl, blockPayload_length .., hflags, hno, hlen,
      henergy, hstart, hbseq, hcycles, he, endBlock_offered _, endBlock_held _, fun hh hroom hl i => endBlock_lost _ hh hroom ?_ hl⟩
    exact h2 ▸ (Crossing.cross _ _).moves.keeps ((feIn_moves s x).keeps i)
  case cycle =>
    intro p x xs s s1 st m0 start a ok pc hrun hlen h1 hst harmed hv hrise hperiod ha hok hpc
    change s1 = s.feIn x at h1
    subst h1 hst ha
    have hok' : s.cycleOk p = ok := hok.symm
    have hpc' : s.cyclePower p = pc := hpc.symm
    obtain ⟨t, hexec, hcounted, hstep⟩ := feederCycle_counts xs hrun hlen harmed hv hrise hperiod
    rw [hok', hpc'] at hcounted
    refine ⟨t, hexec, hcounted.done, hcounted.present, hcounted.rise, hcounted.armed, hcounted.dropped, hcounted.kept, fun h hfound i => hstep i ?_⟩
    obtain ⟨hsameok, hsamepower⟩ := feIn_cycle (s := s) (x := x) p
    unfold State.cycleWatch
    rw [hsameok, hsamepower, feIn_phase, hok', hpc', if_pos h]
    exact hfound
  case step =>
    intro s x c pc dp start hc hn hdp
    exact stepWatch_decides start hc hn hdp
  case tamper =>
    intro c x xs s s1 s3 st on i hrun hlen h1 hst h3 hon hs hholds hset htime
    change s1 = s.feIn x at h1
    subst h1 hst
    change s3 = s.feSummed x at h3
    subst h3 hholds
    obtain ⟨t, hexec, hcond, hrun0, hflag⟩ := tamperCondition_flips xs i hrun hlen hon hs hset htime
    obtain ⟨hsent, hown, hother⟩ := feSummed_flips (s.feIn x).feStamp hlen hon hs hset htime
    exact ⟨t, hexec, hcond, hrun0, hflag, (s.feSummed x).condFlip c, (s.feSummed x).condVal c, hsent, fun h => if_neg (by omega), hown, hother, condFlip_regs _ _,
      condFlip_form _ _⟩
  case settling =>
    intro x xs s hrun hu hm hsw
    exact settlingEnd_settles xs hrun hu hm hsw
  case noZc =>
    intro x xs s s1 st i hrun hz h1 hst href
    change s1 = s.feIn x at h1
    subst h1 hst
    exact noZc_counted xs i hrun hz href
  case event =>
    intro s ty ph instant bseq dp v1 v2 hh
    refine ⟨s.eventPkt ty ph dp v1 v2 instant bseq, rfl, rfl, rfl, feEventPkt_offered hh, feEventPkt_held hh, fun hr hl i => ?_⟩
    have hlost : s.feEvent ty ph dp v1 v2 instant bseq = s.feLost := feEventPkt_lost hh hr hl
    rw [hlost]
    exact ⟨(feLost_counts i).1, feLost_fe s⟩

end Sys2Proof.Machine
end

section
/-! SUPPORT. What polls and exchanges read of a state once time has passed, and a charged transmission (R355, R357, R371, R375). -/
namespace Sys2Proof.Machine

section
variable {s u : State}

theorem radClass_of_cfg (h : u.cfg = s.cfg) (c : Nat) : u.radClass c = s.radClass c := by
  unfold State.radClass
  rw [h]

theorem slot_of_ctx (h : u.ctx = s.ctx) (i : Nat) : u.slot i = s.slot i := by
  unfold State.slot
  rw [h]

/-- The class of a slot is a matter of the context and the configuration. -/
theorem slotClass_of_ctx (hx : u.ctx = s.ctx) (hc : u.cfg = s.cfg) (i : Nat) : u.radClass (u.slot i).cls = s.radClass (s.slot i).cls := by
  rw [slot_of_ctx hx, radClass_of_cfg hc]

theorem poll_of_rad (h : u.rad = s.rad) (i : Nat) : u.poll i = s.poll i := by
  unfold State.poll
  rw [h]

theorem bitOf_of_regs (h : u.regs = s.regs) (a k : Nat) : u.bitOf a k = s.bitOf a k := by
  unfold State.bitOf
  rw [State.reg_of_regs h]

theorem fld_of_regs (h : u.regs = s.regs) (a hi lo : Nat) : u.fld a hi lo = s.fld a hi lo := by
  unfold State.fld
  rw [State.reg_of_regs h]

theorem radTx_of_regs (hr : u.regs = s.regs) (hs : u.sef = s.sef) : u.radTx = s.radTx := by
  unfold State.radTx
  rw [bitOf_of_regs hr, bitOf_of_regs hr, hs]

theorem pollAir_of_regs (h : u.regs = s.regs) (rc : RadClass) (own : Bool) : u.pollAir rc own = s.pollAir rc own := by
  unfold State.pollAir State.frameAir State.txFcs
  rw [bitOf_of_regs h, fld_of_regs h]

/-- Charging a transmission moves of the registers at most RAD_IRQ (R373). -/
theorem charge_sameRegs (s : State) (cost : Nat) : SameRegs s (s.charge cost) [rRadIrq] := by
  unfold State.charge
  dsimp only
  split
  · exact SameRegs.trans (b := s.setRad _) (.of_regs rfl _) (irq_sameRegs _ (by simp) _)
  · exact .of_regs rfl _

/-- A counter advances, a flag sets, and nothing else changes. -/
theorem counted_flagged (hs : swf regReset u.regs = true) {a b k : Nat} (hne : a ≠ b) (hk : k < 32) :
    ((u.count a 1).irq b k).reg a = min 4294967295 (u.reg a + 1) ∧ ((u.count a 1).irq b k).bitOf b k = true ∧
    SameRegs u ((u.count a 1).irq b k) [a, b] ∧ (u.count a 1).irq b k = { u with regs := ((u.count a 1).irq b k).regs } := by
  have hc := State.count_wf hs a 1
  refine ⟨?_, State.irq_set hc hk, (setReg_sameRegs u (by simp) _).trans (irq_sameRegs _ (by simp) k), ?_⟩
  · rw [State.reg_irq_other hc k hne, State.reg_count hs]
  · rw [State.irq_eq]
    rfl

end

end Sys2Proof.Machine
end

section
/-! SUPPORT. The train of a planned poll: it begins at its instant, or the poll is deferred by one wake (R355, R357, R360, R371 to R373). -/
namespace Sys2Proof.Machine

/-- The exchange that the train of a planned poll opens. -/
def Plan.exchange (p : Plan) (i maxF from_ per air n end_ : Nat) : Exchange :=
  { slot := i, full := false, wake := p.w, due := end_, from_ := from_, period := per, air := air, count := n, maxF := atLeast1 maxF }

/-- What a train of a planned poll puts on the air. -/
def Exchange.trainOnAir (x : Exchange) (rc : RadClass) : Emission :=
  if rc.form then .train (rc.txCh + rc.txMode * 4096) x.slot x.from_ x.period x.count x.due else .preamble (rc.txCh + rc.txMode * 4096) x.from_ x.due

/-- The state with an exchange in progress. -/
def State.inExchange (s : State) (x : Exchange) : State := { s with rad := { s.rad with xch := some x } }

/-- The train of a planned poll begins: it is charged, emitted, and its exchange runs. -/
def State.trainBegins (s : State) (rc : RadClass) (x : Exchange) : State :=
  ((s.charge (x.count * s.txCost x.air)).emit (x.trainOnAir rc)).inExchange x

/-- What a charged transmission that opens an exchange leaves. -/
theorem emit_inExchange {s u : State} {m : List (Nat × Word)} {b k : Nat} (h : u = { s with regs := m, rad := { s.rad with budget := b, budgetAt := k } })
    (e : Emission) (x : Exchange) : (u.emit e).inExchange x =
      { s with regs := m, emitted := s.emitted ++ [e], rad := { s.rad with xch := some x, budget := b, budgetAt := k } } := by
  subst h
  rfl

/-- What is left once a transmission has opened an exchange. -/
theorem opened_form {s t : State} {m : List (Nat × Word)} {em : List Emission} {b k : Nat} {x : Exchange}
    (h : t = { s with regs := m, emitted := em, rad := { s.rad with xch := some x, budget := b, budgetAt := k } }) :
    t.rad.xch = some x ∧ t.emitted = em ∧ t.rad.budget = b ∧
    t = { s with regs := t.regs, emitted := t.emitted, rad := { s.rad with xch := some x, budget := t.rad.budget, budgetAt := k } } := by
  subst h
  exact ⟨rfl, rfl, rfl, rfl⟩

theorem emit_inExchange_regs (s : State) (e : Emission) (x : Exchange) : ((s.emit e).inExchange x).regs = s.regs := rfl

theorem trainBegins_form (s : State) (rc : RadClass) (x : Exchange) : s.trainBegins rc x =
    { s with regs := (s.charge (x.count * s.txCost x.air)).regs, emitted := s.emitted ++ [x.trainOnAir rc],
             rad := { s.rad with xch := some x, budget := s.budgetAt s.t - x.count * s.txCost x.air, budgetAt := s.t } } :=
  emit_inExchange (charge_spends _) _ _

theorem trainBegins_sameRegs (s : State) (rc : RadClass) (x : Exchange) : SameRegs s (s.trainBegins rc x) [rRadIrq] :=
  (charge_sameRegs s _).trans (.of_regs (emit_inExchange_regs _ _ _) _)

section
variable {i : Fin 131072} {s s1 : State} {p : Plan} {rc : RadClass}

/-- A slot that no planned poll is due for is left alone (R355, R365). -/
theorem wakeTrainStart_idle (h : s.radTx = false ∨ s.pollable i = false ∨ s.planPoll i = none) : execWakeTrainStart i s = .next s := by
  unfold execWakeTrainStart
  rcases h with h | h | h
  · rw [h]
    rfl
  · rw [h, Bool.and_false]
    rfl
  · rw [h]
    split <;> rfl

variable (htx : s.radTx = true) (hpoll : s.pollable i = true) (hfull : s.wantsFull i = false) (hjoin : (s.poll i).joinAt = none) (hp : s.planPoll i = some p)
  (hs1 : s1 = s.untilDev ((p.tp - p.g) * 32768)) (hrc : rc = s.radClass (s.slot i).cls)
include htx hpoll hfull hjoin hp hs1 hrc

/-- A planned poll at its instant: an exchange that runs, a busy transmitter, a train that goes first or too little budget defers it; else its train begins. -/
theorem wakeTrainStart_planned {per air n end_ : Nat} (htrain : s1.planTrain rc p = (per, air, n)) (hend : end_ = s1.t + trainEnd rc false per air n) :
    execWakeTrainStart i s =
      if s.rad.xch.isSome || s1.txBusy (s1.t - s1.paLead) end_ || s1.overlapped i p s1.dev (s1.dev + (end_ - s1.t)) ||
          !s1.txPays (n * s1.txCost air + s1.exchangeCost i rc.form) then .next (s1.defer i p.w)
      else .next (s1.trainBegins rc (p.exchange i rc.maxF s1.t per air n end_)) := by
  have hrad : s1.rad = s.rad := by rw [hs1, State.untilDev_rad]
  have hclass : s1.radClass (s1.slot i).cls = rc := by
    rw [hrc, hs1]
    exact slotClass_of_ctx (State.untilDev_ctx s _) (State.untilDev_cfg s _) i
  unfold execWakeTrainStart
  rw [htx, hpoll, hfull, hjoin, hp]
  simp only [Bool.and_self, Bool.not_false, Option.isNone_none, if_true, ← hs1, hclass, htrain, hrad, ← hend]
  rfl

/-- While another exchange runs, the poll is deferred to its slot's next wake and counted (R373). -/
theorem wakeTrainStart_deferred (hx : s.rad.xch.isSome = true) : execWakeTrainStart i s =
    .next ((s1.count rRadDefercnt 1).setPoll i { s.poll i with next := some (p.w + (s.slot i).wakeS * 8192) }) := by
  rw [wakeTrainStart_planned htx hpoll hfull hjoin hp hs1 hrc rfl rfl, hx]
  simp only [Bool.true_or, if_true]
  unfold State.defer
  rw [poll_of_rad (s := s) (by rw [hs1, State.untilDev_rad]), slot_of_ctx (s := s) (by rw [hs1, State.untilDev_ctx])]

/-- With the radio free, nothing that goes first and the budget to pay for it, the train begins (R348, R357, R360, R371, R372). -/
theorem wakeTrainStart_begins {per air n end_ : Nat} (hx : s.rad.xch = none) (htrain : s1.planTrain rc p = (per, air, n))
    (hend : end_ = s1.t + trainEnd rc false per air n) (hfree : s1.txBusy (s1.t - s1.paLead) end_ = false)
    (hfirst : s1.overlapped i p s1.dev (s1.dev + (end_ - s1.t)) = false) (hpays : s1.txPays (n * s1.txCost air + s1.exchangeCost i rc.form) = true) :
    execWakeTrainStart i s = .next (s1.trainBegins rc (p.exchange i rc.maxF s1.t per air n end_)) := by
  rw [wakeTrainStart_planned htx hpoll hfull hjoin hp hs1 hrc htrain hend, hx, hfree, hfirst, hpays]
  rfl

end

end Sys2Proof.Machine
end

section
/-! SUPPORT. The recovery full train begins at the first free instant (R363, R366, R371, R372). -/
namespace Sys2Proof.Machine

section
variable {s : State}

/-- A full train that begins runs to its end, or is cut at the frame that finds too little budget (R372). -/
theorem retrain_full {x : Exchange} (hfull : x.full = true) (hstep : x.step = .train) (hwhole : x.aborted = false) (hnew : x.paid = 0) :
    ∃ y, (s.inExchange x).retrain = s.inExchange y ∧ y.slot = x.slot ∧ y.full = true ∧ y.step = .train ∧ y.from_ = x.from_ ∧ y.period = x.period ∧
      y.count ≤ x.count ∧ (y.aborted = false → y.count = x.count) := by
  have hx : (s.inExchange x).rad.xch = some x := rfl
  unfold State.retrain
  rw [hx]
  dsimp only
  rw [if_pos ⟨hfull, hstep, hwhole⟩, hnew, Nat.zero_add]
  split
  · rename_i hcut
    exact ⟨_, rfl, rfl, hfull, hstep, rfl, rfl, Nat.le_of_lt hcut, fun h => nomatch h⟩
  · exact ⟨_, rfl, rfl, hfull, hstep, rfl, rfl, Nat.le_refl _, fun _ => rfl⟩

theorem fullTrainStart_none (h : (s.ctx.slots.map (·.1)).filter s.wantsFull = []) : execFullTrainStart s = .next s := by
  unfold execFullTrainStart
  rw [h]
  rfl

/-- The exchange that a recovery full train opens. -/
def State.fullExchange (s : State) (i : Nat) (rc : RadClass) (per air n : Nat) : Exchange :=
  { slot := i, full := true, wake := (s.nextWake i).getD (s.dev / 32768), due := s.t + trainEnd rc true per air n, from_ := s.t, period := per, air := air,
    count := n, maxF := atLeast1 rc.maxF }

/-- The one slot that waits for a full train gets it when the radio is free and the budget pays for its first frame. -/
theorem fullTrainStart_one {i air per n : Nat} {rc : RadClass} (h : (s.ctx.slots.map (·.1)).filter s.wantsFull = [i]) (htx : s.radTx = true)
    (hx : s.rad.xch = none) (hrc : rc = s.radClass (s.slot i).cls) (hair : air = s.frameAir rc.txMode wakeLen)
    (hper : per = msU rc.listenFt - air - s.ackAir rc.txMode ackLen) (hpos : 0 < per) (hn : n = trainFrames ((s.slot i).wakeS * second * 11 / 10) air per)
    (hfree : s.txBusy (s.t - s.paLead) (s.t + air) = false) (hpays : s.txPays (s.txCost air) = true) :
    execFullTrainStart s =
      .next ((((s.inExchange (s.fullExchange i rc per air n)).retrain).count rRadFtcnt 1).irq rRadIrq 2) := by
  have hone : sortBy (fun (a b : Nat × Nat) => decide (a.1 < b.1) || (decide (a.1 = b.1) && decide (a.2 < b.2))) [((s.poll i).lastMiss, i)] =
      [((s.poll i).lastMiss, i)] := rfl
  unfold execFullTrainStart
  rw [h, List.map_singleton, hone]
  simp only [← hrc, ← hair, ← hper, ← hn, htx, hx, hfree, hpays, hpos]
  rfl

end

end Sys2Proof.Machine
end

section
/-! SUPPORT. The POLL of a planned poll (R337, R348, R360, R371). -/
namespace Sys2Proof.Machine

section
variable {s : State} {x : Exchange}

/-- A POLL to the slot of an exchange that names its end. -/
def State.pollTo (s : State) (slot at_ : Nat) (rc : RadClass) : Bytes :=
  pollFrame (slot + 1) at_ (wph slot (s.slot slot).wakeS) (atLeast1 rc.maxF) rc.pollDiv (s.downWaits slot)

/-- The POLL of an exchange has gone out at an instant: its answer is expected to start within 3 ms of its end (R348, R349). -/
def Exchange.polledAt (x : Exchange) (end_ at_ maxF : Nat) : Exchange :=
  { x with step := .polled, due := end_ + usU 3000, pt := at_ % 4294967296, ptAt := at_, maxF := atLeast1 maxF }

/-- A frame sent in an exchange: what sending it changes, and how the exchange goes on. -/
theorem sent_inExchange {u v : State} {m : List (Nat × Word)} {em : List Emission} {b k : Nat} {l : List TxSpan}
    (h : v = { u with regs := m, emitted := em, rad := { u.rad with budget := b, budgetAt := k, txs := l } }) (x : Exchange) :
    v.inExchange x = { u with regs := m, emitted := em, rad := { u.rad with budget := b, budgetAt := k, txs := l, xch := some x } } := by
  subst h
  rfl

/-- What sending the POLL changes: it is emitted, charged and remembered, and its answer expected. -/
theorem sendPoll_form {rc : RadClass} {at_ : Nat} (ch air : Nat) (hrc : rc = s.radClass (s.slot x.slot).cls) (hat : at_ = (s.dev + air) / 32768) :
    s.sendPoll x ch air =
      { s with regs := (s.charge (s.txCost air)).regs,
               emitted := s.emitted ++ [.radio (s.airFrame ch air (if rc.form || x.full then s.fld rRadPhy 7 0 else 0) s.t (s.pollTo x.slot at_ rc))],
               rad := { s.rad with budget := s.budgetAt s.t - s.txCost air, budgetAt := s.t, txs := s.recentTxs ++ [{ from_ := s.t, air := air }],
                                   xch := some (x.polledAt (s.t + air) at_ rc.maxF) } } := by
  rw [← sent_inExchange (radSendAt_form ch air _ s.t _), hat, hrc]
  rfl

theorem payTrain_planned (hx : s.rad.xch = some x) (hfull : x.full = false) : s.payTrain = s := by
  unfold State.payTrain
  rw [hx]
  simp [hfull]

/-- The train of an exchange has ended: it is among what the transmitter has sent. -/
def State.trainEnded (s : State) (x : Exchange) : State := (s.noteTx x.span).setRad fun r => { r with xch := none }

theorem trainEnded_form (s : State) (x : Exchange) :
    s.trainEnded x = { s with rad := { s.rad with txs := s.recentTxs ++ [x.span], xch := none } } := rfl

/-- What is left once the POLL has followed its train. -/
theorem polled_form {u v t : State} {m : List (Nat × Word)} {em : List Emission} {b k : Nat} {l l' : List TxSpan} {o : Option Exchange} {y : Exchange}
    (hv : v = { u with rad := { u.rad with txs := l', xch := o } })
    (h : t = { v with regs := m, emitted := em, rad := { v.rad with budget := b, budgetAt := k, txs := l, xch := some y } }) :
    t.regs = m ∧ t.emitted = em ∧ t.rad.txs = l ∧ t.rad.xch = some y ∧
    t = { u with regs := t.regs, emitted := t.emitted, rad := { u.rad with xch := t.rad.xch, budget := t.rad.budget, budgetAt := k, txs := t.rad.txs } } := by
  subst hv
  subst h
  exact ⟨rfl, rfl, rfl, rfl, rfl⟩

/-- The POLL after a train (R337, R348, R360): what it says, when its answer is due, and what it leaves. -/
theorem pollAfterTrain {u t : State} {rc : RadClass} {at_ : Nat} (ch air : Nat) (hfull : x.full = false) (hrc : rc = u.radClass (u.slot x.slot).cls)
    (hat : at_ = (u.dev + air) / 32768) (ht : t = (u.trainEnded x).sendPoll x ch air) :
    t.emitted = u.emitted ++ [.radio (u.airFrame ch air (if rc.form then u.fld rRadPhy 7 0 else 0) u.t (u.pollTo x.slot at_ rc))] ∧
    (∃ l, t.rad.txs = l ++ [{ from_ := u.t, air := air }]) ∧ t.rad.xch = some (x.polledAt (u.t + air) at_ rc.maxF) ∧ SameRegs u t [rRadIrq] ∧
    t = { u with regs := t.regs, emitted := t.emitted, rad := { u.rad with xch := t.rad.xch, budget := t.rad.budget, budgetAt := u.t, txs := t.rad.txs } } := by
  have hsent := sendPoll_form (s := u.trainEnded x) ch air (rc := rc) (x := x) (at_ := at_) hrc hat
  rw [hfull, Bool.or_false, ← ht] at hsent
  obtain ⟨hregs, hemit, htxs, hxch, hform⟩ := polled_form (trainEnded_form u x) hsent
  refine ⟨hemit, ⟨_, htxs⟩, hxch, fun a ha => ?_, hform⟩
  rw [State.reg_of_regs hregs]
  exact charge_sameRegs (u.trainEnded x) _ a ha

/-- The train of a planned poll ends with the POLL (R348). -/
theorem pollSend_planned {s1 : State} {rc : RadClass} {air : Nat} (hx : s.rad.xch = some x) (hstep : x.step = .train) (hfull : x.full = false)
    (hwhole : x.aborted = false) (htx : s.radTx = true) (hs1 : s1 = s.until x.due) (hrc : rc = s.radClass (s.slot x.slot).cls) (hair : air = s.pollAir rc rc.form) :
    execPollSend s = .next ((s1.trainEnded x).sendPoll x (rc.txCh + rc.txMode * 4096) air) := by
  have hx1 : s1.rad.xch = some x := by rw [hs1, State.until_rad, hx]
  have hclass : s1.radClass (s1.slot x.slot).cls = rc := by
    rw [hrc, hs1]
    exact slotClass_of_ctx (State.until_ctx s _) (State.until_cfg s _) x.slot
  have htx1 : (s1.trainEnded x).radTx = true := by
    rw [← htx, hs1]
    exact radTx_of_regs (State.until_regs s _) (State.until_sef s _)
  have hair1 : (s1.trainEnded x).pollAir rc rc.form = air := by
    rw [hair, hs1]
    exact pollAir_of_regs (State.until_regs s _) _ _
  unfold execPollSend
  rw [hx]
  simp only [hstep, if_true, ← hs1, payTrain_planned hx1 hfull, hclass, hfull, hwhole, Bool.false_eq_true, if_false, Bool.or_false]
  show (if (s1.trainEnded x).radTx = true then Host.Outcome.next ((s1.trainEnded x).sendPoll x _ ((s1.trainEnded x).pollAir rc rc.form)) else _) = _
  rw [if_pos htx1, hair1]

end

end Sys2Proof.Machine
end

section
/-! SUPPORT. The end of an exchange that waits in vain (R349, R350, R362, R363). -/
namespace Sys2Proof.Machine

section
variable {s : State} {x : Exchange}

theorem exchangeTimeout_polled (hx : s.rad.xch = some x) (hstep : x.step = .polled) : execExchangeTimeout s = .next ((s.until x.due).xchMiss x) := by
  unfold execExchangeTimeout
  rw [hx]
  dsimp only
  rw [hstep]

theorem exchangeTimeout_cont (hx : s.rad.xch = some x) (hstep : x.step = .cont) (hack : x.acked = true) :
    execExchangeTimeout s = .next ((s.until x.due).xchDone x) := by
  unfold execExchangeTimeout
  rw [hx]
  dsimp only
  rw [hstep]
  dsimp only
  rw [if_pos hack]

/-- A miss is counted, the next wake planned, and the notice offered (R362, R363). -/
theorem xchMiss_form {s1 s2 s3 : State}
    (hs2 : s2 = s1.setPoll x.slot (if x.full then { s1.poll x.slot with ftMiss := (s1.poll x.slot).ftMiss + 1, lastMiss := s1.t }
      else { s1.poll x.slot with miss := (s1.poll x.slot).miss + 1, lastMiss := s1.t }))
    (hs3 : s3 = s2.setPoll x.slot { s2.poll x.slot with next := some (wakeAfter x.slot (s1.slot x.slot).wakeS x.wake) }) :
    s1.xchMiss x = ({ s3 with rad := { s3.rad with xch := none } } : State).notice false x.slot (if x.full then 2 else 1) 0 (x.wake % 4294967296) := by
  subst hs3 hs2
  rfl

end

/-- Settles O49: a planned poll by what keeps its train from beginning, a full train by what its budget pays for, the POLL by what sending it changes,
an exchange that waits in vain by its step. -/
theorem pollsRunTheirExchange : Obligations.PollsRunTheirExchange := by
  unfold Obligations.PollsRunTheirExchange
  refine ⟨?idle, ?planned, ?full, ?noneWaits, ?poll, ?timeout, ?noExchange⟩
  case idle =>
    intro i s h
    exact wakeTrainStart_idle h
  case planned =>
    intro i s s1 p rc htx hpoll hfull hjoin hp hs1 hrc
    refine ⟨wakeTrainStart_deferred htx hpoll hfull hjoin hp hs1 hrc, fun per air n end_ hx htrain hend hfree hfirst hpays => ?_⟩
    have hregs : SameRegs s s1 [rRadIrq] := .of_regs (by rw [hs1, State.untilDev_regs]) _
    have hemitted : s1.emitted = s.emitted := by rw [hs1, State.untilDev_emitted]
    obtain ⟨hopen, hemit, hbudget, hform⟩ := opened_form (trainBegins_form s1 rc (p.exchange i rc.maxF s1.t per air n end_))
    have hother := trainBegins_sameRegs s1 rc (p.exchange i rc.maxF s1.t per air n end_)
    refine ⟨_, _, wakeTrainStart_begins htx hpoll hfull hjoin hp hs1 hrc hx htrain hend hfree hfirst hpays, hopen, rfl, rfl, rfl, rfl, rfl, rfl, rfl, rfl, rfl,
      atLeast1_eq_max _, ?_, hbudget, hregs.trans hother, hform⟩
    rw [hemit, hemitted]
    rfl
  case full =>
    intro s i air per n rc hinv hone htx hx hrc hair hper hpos hn hfree hpays
    have hrun := fullTrainStart_one hone htx hx hrc hair hper hpos hn hfree hpays
    obtain ⟨y, hy, hslot, hfull, hstep, hfrom, hperiod, hle, hwhole⟩ :=
      retrain_full (s := s) (x := s.fullExchange i rc per air n) rfl rfl rfl rfl
    rw [hy] at hrun
    obtain ⟨hcount, hflag, hother, hform⟩ := counted_flagged (u := s.inExchange y) hinv.1 (a := rRadFtcnt) (b := rRadIrq) (k := 2)
      (by decide) (by decide)
    refine ⟨_, y, hrun, ?_, hslot, hfull, hstep, hfrom, hperiod, hle, hwhole, hcount, hflag, hother, hform⟩
    rw [hform]
    rfl
  case noneWaits =>
    intro s h
    exact fullTrainStart_none h
  case poll =>
    intro s s1 x rc air at_ hx hstep hfull hwhole htx hs1 hrc hair hat
    have hrun := pollSend_planned hx hstep hfull hwhole htx hs1 hrc hair
    have hslot (i : Nat) : s1.slot i = s.slot i := slot_of_ctx (by rw [hs1, State.until_ctx]) i
    have hclass : rc = s1.radClass (s1.slot x.slot).cls := by
      rw [hrc, hs1]
      exact (slotClass_of_ctx (State.until_ctx s _) (State.until_cfg s _) x.slot).symm
    have hwaits : s1.downWaits x.slot = s.downWaits x.slot := by
      unfold State.downWaits
      rw [hs1, State.until_rad]
    obtain ⟨hemit, htxs, hxch, hother, hform⟩ := pollAfterTrain (rc.txCh + rc.txMode * 4096) air hfull hclass hat rfl
    refine ⟨_, hrun, ?_, htxs, ?_, (SameRegs.of_regs (by rw [hs1, State.until_regs]) _).trans hother, hform⟩
    · rw [hemit, fld_of_regs (s := s) (by rw [hs1, State.until_regs]), State.pollTo, hslot, hwaits, atLeast1_eq_max,
        show s1.emitted = s.emitted by rw [hs1, State.until_emitted]]
      rfl
    · rw [hxch, Exchange.polledAt, atLeast1_eq_max]
  case timeout =>
    intro s s1 s2 s3 x hx hs1
    have hslot : s.slot x.slot = s1.slot x.slot := (slot_of_ctx (by rw [hs1, State.until_ctx]) _).symm
    have hpoll : s.poll x.slot = s1.poll x.slot := (poll_of_rad (by rw [hs1, State.until_rad]) _).symm
    rw [hslot, hpoll]
    refine ⟨fun hstep hs2 hs3 => ?_, fun hstep hack hs3 => ?_⟩
    · show execExchangeTimeout s = _
      rw [exchangeTimeout_polled hx hstep, ← hs1, xchMiss_form hs2 hs3]
    · show execExchangeTimeout s = _
      rw [exchangeTimeout_cont hx hstep hack, ← hs1, hs3]
      rfl
  case noExchange =>
    intro s h
    show execExchangeTimeout s = .next s
    unfold execExchangeTimeout
    rw [h]

end Sys2Proof.Machine
end

section
/-! SUPPORT. What leave to transmit on the power line rests on, and a phase as it is read and written (R384, R413). -/
namespace Sys2Proof.Machine

section
variable {s u : State} {p : Nat} {x y : PlcPhase}

theorem plcTx_of_regs (hr : u.regs = s.regs) (hs : u.sef = s.sef) (hq : u.seq = s.seq) : u.plcTx = s.plcTx := by
  unfold State.plcTx
  simp only [State.bitOf, State.reg_of_regs hr, hs, hq]

theorem phase_of_get (h : s.plc.phases[p]? = some x) : s.phase p = x := by
  unfold State.phase
  rw [List.getD_eq_getElem?_getD, h]
  rfl

theorem phase_setPhase (h : p < s.plc.phases.length) (x : PlcPhase) : (s.setPhase p x).phase p = x :=
  phase_of_get (by simp [State.setPhase, State.setPlc, h])

theorem setPhase_setPhase (s : State) (p : Nat) (x y : PlcPhase) : (s.setPhase p x).setPhase p y = s.setPhase p y := by
  simp [State.setPhase, State.setPlc]

end

end Sys2Proof.Machine
end

section
/-! SUPPORT. The contender of a phase waits, or goes out at its crossing (R386, R392, R398, R400 to R403, R408, R413, R414). -/
namespace Sys2Proof.Machine

section
variable {s : State} {p : Nat} {f : PlcTx} {x y : PlcPhase}

/-- The symbols of a frame begin with the preamble's first (R392). -/
theorem plcFrameSlots_cons (mpdu : Bytes) : plcFrameSlots mpdu = 0 :: (plcFrameSlots mpdu).tail := rfl

/-- The symbol of this crossing leaves the coupler in its window (R386, R414). -/
theorem plcSymbol_sends {k : Fin 4} {rest : List (Fin 4)} (hx : s.phase p = x) (hk : x.sending = k :: rest) (htx : s.plcTx = true) :
    s.plcSymbol p = (s.setPhase p { x with sending := rest }).emit (.pulse (s.plcWindow p k ((x.pred <|> x.crossing).getD s.dev))) := by
  unfold State.plcSymbol
  rw [hx]
  dsimp only
  rw [hk]
  dsimp only
  rw [if_pos htx]

/-- The symbols of a frame or short ACK leave from this crossing on, the first of them now (R392). -/
def State.plcOnAir (s : State) (p : Nat) (z : PlcPhase) : State := ((s.setPhase p z).emit (.plc p z.sending)).plcSymbol p

theorem plcOnAir_form {z : PlcPhase} {k : Fin 4} {rest : List (Fin 4)} (hp : p < s.plc.phases.length) (hz : z.sending = k :: rest) (htx : s.plcTx = true) :
    s.plcOnAir p z =
      { s with plc := { s.plc with phases := s.plc.phases.set p { z with sending := rest } },
               emitted := s.emitted ++ [.plc p (k :: rest), .pulse (s.plcWindow p k ((z.pred <|> z.crossing).getD s.dev))] } := by
  have hphase : ((s.setPhase p z).emit (.plc p z.sending)).phase p = z := phase_setPhase hp z
  have htx' : ((s.setPhase p z).emit (.plc p z.sending)).plcTx = true := htx
  unfold State.plcOnAir
  rw [plcSymbol_sends hphase hz htx']
  simp only [State.setPhase, State.setPlc, State.emit, List.set_set, List.append_assoc, List.singleton_append, hz]
  rfl

/-- The frame leaves the queue, or waits there for its short acknowledgement (R402). -/
def PlcTx.leaves (f : PlcTx) (X : Nat) (q : List PlcTx) : List PlcTx :=
  if f.ackreq then q.map fun g => if g = f then { f with sentX := some X } else g else q.erase f

/-- A DOWN that goes out for the first time is no longer held, and its end-to-end acknowledgement is awaited (R408). -/
def State.downGoes (s : State) (f : PlcTx) (end_ : Nat) : State :=
  match f.down with
  | some (slot, push, dcnt) =>
    if f.tries = 0 then
      s.setPlc fun y => { y with downs := y.downs.filter fun d => d.slot ≠ slot,
                                 sent := (y.sent.filter fun d => d.slot ≠ slot) ++ [{ slot := slot, push := push, dcnt := dcnt, since := end_ }] }
    else s
  | none => s

theorem downGoes_form (f : PlcTx) (end_ : Nat) :
    s.downGoes f end_ = { s with plc := { s.plc with downs := (s.downGoes f end_).plc.downs, sent := (s.downGoes f end_).plc.sent } } := by
  unfold State.downGoes
  split
  · split <;> rfl
  · rfl

theorem downGoes_again (h : f.down = none ∨ f.tries ≠ 0) (end_ : Nat) : s.downGoes f end_ = s := by
  unfold State.downGoes
  split
  · rename_i hd
    rw [if_neg (h.resolve_left (by rw [hd]; simp))]
  · rfl

theorem downGoes_first {i push d : Nat} (h : f.down = some (i, push, d)) (h0 : f.tries = 0) (end_ : Nat) :
    (s.downGoes f end_).plc.downs = s.plc.downs.filter (fun h => h.slot ≠ i) ∧
    (s.downGoes f end_).plc.sent = s.plc.sent.filter (fun h => h.slot ≠ i) ++ [{ slot := i, push := push, dcnt := d, since := end_ }] := by
  unfold State.downGoes
  rw [h]
  dsimp only
  rw [if_pos h0]
  exact ⟨rfl, rfl⟩

/-- The bytes of a frame as it goes out: a BEACON's TIME is that of its last symbol (R403). -/
def PlcTx.bytesAt (f : PlcTx) (time : Nat) : Bytes := if f.beacon then f.mpdu.take 15 ++ le 8 time ++ f.mpdu.drop 23 else f.mpdu

/-- A frame that goes out at a crossing of its phase: its symbols leave, the queue has it no longer or awaits its short ACK, a DOWN is held no longer. -/
def State.plcGoes (s : State) (p : Nat) (f : PlcTx) (y : PlcPhase) (n : Nat) (slots : List (Fin 4)) : State :=
  ((s.plcOnAir p { y with txEnd := y.count + n - 1, cr := y.count + n - 1 + 64, sending := slots }).setPlc fun z =>
    { z with txq := f.leaves (y.count + n - 1) z.txq }).downGoes f (s.t + (n - 1) * y.half)

theorem plcOnAir_setPhase (z : PlcPhase) : (s.setPhase p y).plcOnAir p z = s.plcOnAir p z := by
  unfold State.plcOnAir
  rw [setPhase_setPhase]

theorem plcSend_eq (hp : p < s.plc.phases.length) : (s.setPhase p y).plcSend p f =
    s.plcGoes p f y (plcHalves f.mpdu) (plcFrameSlots (f.bytesAt (y.crossing.getD s.dev + (plcHalves f.mpdu - 1) * y.half))) := by
  unfold State.plcGoes
  rw [← plcOnAir_setPhase (y := y)]
  unfold State.plcSend
  rw [phase_setPhase hp]
  rfl

/-- What is left of a frame that has gone out. -/
theorem gone_form {v t : State} {l : List PlcPhase} {em : List Emission} {X end_ : Nat} (hv : v = { s with plc := { s.plc with phases := l }, emitted := em })
    (ht : t = (v.setPlc fun z => { z with txq := f.leaves X z.txq }).downGoes f end_) :
    t.emitted = em ∧ t.plc.phases = l ∧ t.plc.txq = f.leaves X s.plc.txq ∧ (f.down = none ∨ f.tries ≠ 0 → t.plc.sent = s.plc.sent ∧ t.plc.downs = s.plc.downs) ∧
    (∀ i p d, f.down = some (i, p, d) → f.tries = 0 → t.plc.downs = s.plc.downs.filter (fun h => h.slot ≠ i) ∧
      t.plc.sent = s.plc.sent.filter (fun h => h.slot ≠ i) ++ [{ slot := i, push := p, dcnt := d, since := end_ }]) ∧
    t = { s with emitted := t.emitted, plc := { s.plc with phases := t.plc.phases, txq := t.plc.txq, sent := t.plc.sent, downs := t.plc.downs } } := by
  have hform := ht.trans (downGoes_form f end_)
  have hagain (h : f.down = none ∨ f.tries ≠ 0) := ht.trans (downGoes_again h end_)
  have hfirst {i push d : Nat} (h : f.down = some (i, push, d)) (h0 : f.tries = 0) :=
    downGoes_first (s := v.setPlc fun z => { z with txq := f.leaves X z.txq }) h h0 end_
  rw [← ht] at hform hfirst
  subst hv
  refine ⟨by rw [hform]; rfl, by rw [hform]; rfl, by rw [hform]; rfl, fun h => ?_, fun i p d h h0 => hfirst h h0, ?_⟩
  · rw [hagain h]
    exact ⟨rfl, rfl⟩
  · generalize t.plc.downs = ds at hform
    generalize t.plc.sent = sn at hform
    subst hform
    rfl

/-- The contention start of a phase is at its latest crossing, and the phase is free to send on (R384, R400, R413). -/
def State.contends (s : State) (p : Nat) (f : PlcTx) (r : Nat) (y : PlcPhase) : Bool :=
  s.plcTx && s.phaseOn p && y.locked && y.sending.isEmpty && decide (y.cr + 8 * f.prio + r = y.count)

theorem contends_iff {r : Nat} : s.contends p f r y = true ↔
    s.plcTx = true ∧ s.phaseOn p = true ∧ y.locked = true ∧ y.sending = [] ∧ y.count = y.cr + 8 * f.prio + r := by
  unfold State.contends
  simp only [Bool.and_eq_true, List.isEmpty_iff, decide_eq_true_eq, and_assoc, eq_comm (a := y.count)]

theorem plcContend_eq (phase : Fin 3) (r : Fin 8) : execPlcContend phase r s =
    match s.contender phase with
    | none => .next s
    | some f =>
      if s.contends phase f r (s.phase phase).rollCr then .next ((s.setPhase phase (s.phase phase).rollCr).plcSend phase f)
      else .next (s.setPhase phase (s.phase phase).rollCr) := rfl

section
variable {phase : Fin 3} {r : Fin 8}

/-- With nothing to send, no contention takes place. -/
theorem plcContend_none (h : s.contender phase = none) : execPlcContend phase r s = .next s := by
  rw [plcContend_eq, h]

variable (hget : s.plc.phases[phase.val]? = some x) (hf : s.contender phase = some f)
include hget hf

/-- The contender of a phase waits until its phase is free and its crossing comes. -/
theorem plcContend_waits
    (h : s.plcTx = false ∨ s.phaseOn phase = false ∨ x.locked = false ∨ x.sending ≠ [] ∨ x.count ≠ x.rollCr.cr + 8 * f.prio + r.val) :
    execPlcContend phase r s = .next (s.setPhase phase x.rollCr) := by
  have hno : ¬ s.contends phase f r x.rollCr = true := fun hc => by
    obtain ⟨htx, hon, hlock, hfree, hcount⟩ := contends_iff.1 hc
    rcases h with h | h | h | h | h
    · exact Bool.false_ne_true (h.symm.trans htx)
    · exact Bool.false_ne_true (h.symm.trans hon)
    · exact Bool.false_ne_true (h.symm.trans hlock)
    · exact h hfree
    · exact h hcount
  rw [plcContend_eq, hf, phase_of_get hget]
  dsimp only
  rw [if_neg hno]

/-- At its crossing the contender of a free phase goes out. -/
theorem plcContend_goes (htx : s.plcTx = true) (hon : s.phaseOn phase = true) (hlock : x.locked = true) (hfree : x.sending = [])
    (hcount : x.count = x.rollCr.cr + 8 * f.prio + r.val) : execPlcContend phase r s =
      .next (s.plcGoes phase f x.rollCr (plcHalves f.mpdu) (plcFrameSlots (f.bytesAt (x.crossing.getD s.dev + (plcHalves f.mpdu - 1) * x.half)))) := by
  have hgo : s.contends phase f r x.rollCr = true := contends_iff.2 ⟨htx, hon, hlock, hfree, hcount⟩
  rw [plcContend_eq, hf, phase_of_get hget]
  dsimp only
  rw [if_pos hgo, plcSend_eq (List.getElem?_eq_some_iff.1 hget).1]
  rfl

end

end

end Sys2Proof.Machine
end

section
/-! SUPPORT. A frame whose short acknowledgement does not come (R402). -/
namespace Sys2Proof.Machine

section
variable {s : State} {phase : Fin 3} {f : PlcTx}

/-- No valid short ACK of a frame sent on a phase came by X + 63. -/
def State.shortAckDue (s : State) (p : Nat) (f : PlcTx) : Bool :=
  f.phase == p && (match f.sentX with | some X => decide (X + 63 ≤ (s.phase p).count) | none => false)

theorem shortAckDue_iff {p : Nat} : s.shortAckDue p f = true ↔ f.phase = p ∧ ∃ X, f.sentX = some X ∧ X + 63 ≤ (s.phase p).count := by
  unfold State.shortAckDue
  cases f.sentX <;> simp

theorem plcAckTimeout_eq : execPlcAckTimeout phase s =
    match s.plc.txq.find? (s.shortAckDue phase) with
    | none => .next s
    | some f =>
      if f.tries < s.fld rPlcRxcfg 10 8 then
        .next ((s.setPlc fun y => { y with txq := y.txq.map fun g => if g = f then { f with sentX := none, tries := f.tries + 1 } else g }).count
          rPlcRetrycnt 1)
      else .next (s.setPlc fun y => { y with txq := y.txq.erase f }) := rfl

theorem plcAckTimeout_none (h : ∀ f ∈ s.plc.txq, f.sentX = none) : execPlcAckTimeout phase s = .next s := by
  have hfind : s.plc.txq.find? (s.shortAckDue phase) = none := by
    refine List.find?_eq_none.2 fun f hf hdue => ?_
    obtain ⟨-, X, hX, -⟩ := shortAckDue_iff.1 hdue
    rw [h f hf] at hX
    cases hX
  rw [plcAckTimeout_eq, hfind]

section
variable {X : Nat} {before after : List PlcTx} (hq : s.plc.txq = before ++ f :: after)
  (hb : ∀ g ∈ before, g.phase ≠ phase.val ∨ ∀ Y, g.sentX = some Y → (s.phase phase).count < Y + 63) (hp : f.phase = phase.val) (hX : f.sentX = some X)
  (hdue : X + 63 ≤ (s.phase phase).count)
include hb hp hX hdue

theorem notDue_before : (∀ g ∈ before, s.shortAckDue phase g = false) ∧ f ∉ before := by
  have hno : ∀ g ∈ before, s.shortAckDue phase g = false := fun g hg => by
    refine Bool.eq_false_iff.2 fun hd => ?_
    obtain ⟨hgp, Y, hY, hle⟩ := shortAckDue_iff.1 hd
    exact absurd ((hb g hg).resolve_left (fun h => h hgp) Y hY) (by omega)
  have hyes : s.shortAckDue phase f = true := shortAckDue_iff.2 ⟨hp, X, hX, hdue⟩
  exact ⟨hno, fun hmem => by rw [hno f hmem] at hyes; cases hyes⟩

include hq

/-- The first frame of the phase whose time is up is sent again, counted, or given up. -/
theorem plcAckTimeout_first : execPlcAckTimeout phase s =
    if f.tries < s.fld rPlcRxcfg 10 8 then
      .next ((s.setPlc fun y => { y with txq := y.txq.map fun g => if g = f then { f with sentX := none, tries := f.tries + 1 } else g }).count rPlcRetrycnt 1)
    else .next { s with plc := { s.plc with txq := before ++ after } } := by
  obtain ⟨hno, hmem⟩ := notDue_before hb hp hX hdue
  have hfind : s.plc.txq.find? (s.shortAckDue phase) = some f :=
    List.find?_eq_some_iff_append.2 ⟨shortAckDue_iff.2 ⟨hp, X, hX, hdue⟩, before, after, hq, fun g hg => by rw [hno g hg]; rfl⟩
  have herase : s.plc.txq.erase f = before ++ after := by rw [hq, List.erase_append_right _ hmem, List.erase_cons_head]
  rw [plcAckTimeout_eq, hfind, ← herase]
  rfl

end

end

end Sys2Proof.Machine
end

section
/-! SUPPORT. The beacon period (R401, R403, R413). -/
namespace Sys2Proof.Machine

/-- Without a route in it, the link layer of a frame is 15 bytes (R394). -/
theorem plcHead_unrouted_length {fc : Nat} (h : bit 11 fc = false) (dst src nxt hop : Nat) (route : List Nat) : (plcHead fc dst src nxt hop route).length = 15 := by
  unfold plcHead
  rw [h]
  simp

/-- A BEACON whose TIME is still to be written (R403). -/
def beaconTx (hop hyst seq : Nat) : PlcTx :=
  { phase := 0, prio := 2, ackreq := false, beacon := true,
    mpdu := plcHead (8 + 256) 0xFFFFFF 0 0xFFFFFF hop [] ++ (le 8 0 ++ le 1 0 ++ le 1 hyst ++ le 2 seq) }

theorem beaconTx_length (hop hyst seq : Nat) : (beaconTx hop hyst seq).mpdu.length = 27 := by
  unfold beaconTx
  simp [plcHead_unrouted_length (show bit 11 (8 + 256) = false by decide)]

/-- A BEACON ends in its number. -/
theorem beaconTx_seq (hop hyst seq : Nat) : (beaconTx hop hyst seq).mpdu.drop 25 = le 2 seq := by
  unfold beaconTx
  rw [← List.append_assoc]
  exact List.drop_left' (by simp [plcHead_unrouted_length (show bit 11 (8 + 256) = false by decide)])

section
variable {s : State}

theorem plcBeacon_off (h : s.bitOf rPlcCtl 0 = false) : execPlcBeacon s = .next s := by
  unfold execPlcBeacon
  rw [h]
  rfl

/-- The next beacon period ends at an instant. -/
def State.nextBeacon (s : State) (b : Nat) : State := s.setPlc fun y => { y with beaconAt := b }

theorem nextBeacon_plcTx (s : State) (b : Nat) : (s.nextBeacon b).plcTx = s.plcTx := rfl

theorem nextBeacon_fld (s : State) (b a hi lo : Nat) : (s.nextBeacon b).fld a hi lo = s.fld a hi lo := rfl

/-- The number of the next BEACON. -/
def State.nextBseq (s : State) : Nat := (s.fld rPlcBeacon 31 16 + 1) % 65536

/-- A BEACON is queued on every locked phase, under the next number. -/
def State.beaconQueued (s : State) : State :=
  (s.setFld rPlcBeacon 31 16 s.nextBseq).plcQueue ((List.range 3).filter fun p => (s.phase p).locked)
    (beaconTx ((s.setFld rPlcBeacon 31 16 s.nextBseq).fld rPlcRxcfg 14 12) ((s.setFld rPlcBeacon 31 16 s.nextBseq).fld rPlcBeacon 15 12) s.nextBseq)

/-- At the end of a period the next one begins, and the unit that drives queues its BEACON (R403, R413). -/
theorem plcBeacon_due {s1 : State} {b : Nat} (h : s.bitOf rPlcCtl 0 = true) (hs1 : s1 = s.until s.plc.beaconAt)
    (hb : b = s1.t + s1.fld rPlcBeacon 11 0 * second) :
    execPlcBeacon s = if s.plcTx then .next (s1.nextBeacon b).beaconQueued else .next (s1.nextBeacon b) := by
  have htx : (s1.nextBeacon b).plcTx = s.plcTx := by
    rw [nextBeacon_plcTx, hs1]
    exact plcTx_of_regs (State.until_regs s _) (State.until_sef s _) (State.until_seq s _)
  rw [← htx]
  unfold execPlcBeacon
  rw [h, if_pos rfl]
  simp only [← hs1, ← hb]
  rfl

/-- What queueing a BEACON changes: its number, and an entry for each locked phase. -/
theorem beaconQueued_form (s : State) : s.beaconQueued =
    { s with regs := s.beaconQueued.regs, plc := { s.plc with txq := s.beaconQueued.plc.txq } } := rfl

theorem beaconQueued_regs (s : State) : s.beaconQueued.regs = (s.setFld rPlcBeacon 31 16 s.nextBseq).regs := rfl

theorem beaconQueued_txq (s : State) : ∃ q : List PlcTx, s.beaconQueued.plc.txq = s.plc.txq ++ q ∧
    q.map (·.phase) = (List.range 3).filter (fun p => (s.phase p).locked) ∧
    ∀ f ∈ q, f.beacon = true ∧ f.prio = 2 ∧ f.ackreq = false ∧ f.mpdu.length = 27 ∧ f.mpdu.drop 25 = le 2 s.nextBseq := by
  refine ⟨_, rfl, List.map_map.trans (List.map_id _), fun f hf => ?_⟩
  obtain ⟨p, -, rfl⟩ := List.mem_map.1 hf
  exact ⟨rfl, rfl, rfl, beaconTx_length _ _ _, beaconTx_seq _ _ _⟩

/-- BSEQ counts the BEACONs, and no other field of a register moves. -/
theorem beaconQueued_bseq (hs : swf regReset s.regs = true) : s.beaconQueued.fld rPlcBeacon 31 16 = s.nextBseq ∧
    s.beaconQueued.fld rPlcBeacon 15 0 = s.fld rPlcBeacon 15 0 ∧ SameRegs s s.beaconQueued [rPlcBeacon] := by
  have hregs := beaconQueued_regs s
  refine ⟨?_, ?_, fun a ha => ?_⟩
  · rw [fld_of_regs hregs, State.fld_setFld_same hs _ (by decide) (by decide)]
    exact Nat.mod_mod _ _
  · rw [fld_of_regs hregs, State.fld_setFld_other hs _ (by decide) (by decide) (by decide)]
  · rw [State.reg_of_regs hregs]
    exact setReg_sameRegs s (by simp) _ a ha

/-- What the unit that drives leaves at the end of a beacon period. -/
theorem beaconQueued_leaves {s1 t : State} {b : Nat} (hinv : s.Inv) (hs1 : s1 = s.until s.plc.beaconAt) (ht : t = (s1.nextBeacon b).beaconQueued) :
    t.fld rPlcBeacon 31 16 = (s.fld rPlcBeacon 31 16 + 1) % 65536 ∧ t.fld rPlcBeacon 15 0 = s.fld rPlcBeacon 15 0 ∧ SameRegs s t [rPlcBeacon] ∧
    (∃ q : List PlcTx, t.plc.txq = s.plc.txq ++ q ∧ q.map (·.phase) = (List.range 3).filter (fun p => (s.phase p).locked) ∧
      ∀ f ∈ q, f.beacon = true ∧ f.prio = 2 ∧ f.ackreq = false ∧ f.mpdu.length = 27 ∧ f.mpdu.drop 25 = le 2 ((s.fld rPlcBeacon 31 16 + 1) % 65536)) ∧
    t = { s1 with regs := t.regs, plc := { s1.plc with beaconAt := b, txq := t.plc.txq } } := by
  subst ht
  have hregs : s1.regs = s.regs := by rw [hs1, State.until_regs]
  have hplc : s1.plc = s.plc := by rw [hs1, State.until_plc]
  have hsame (a hi lo : Nat) : (s1.nextBeacon b).fld a hi lo = s.fld a hi lo := (nextBeacon_fld s1 b a hi lo).trans (fld_of_regs hregs a hi lo)
  have hnext : (s1.nextBeacon b).nextBseq = (s.fld rPlcBeacon 31 16 + 1) % 65536 := by
    unfold State.nextBseq
    rw [hsame]
  have hphase (p : Nat) : (s1.nextBeacon b).phase p = s.phase p := by
    show s1.plc.phases.getD p {} = _
    rw [hplc]
    rfl
  have hwf : swf regReset (s1.nextBeacon b).regs = true := by
    show swf regReset s1.regs = true
    rw [hregs]
    exact hinv.1
  obtain ⟨hseq, hkept, hother⟩ := beaconQueued_bseq hwf
  obtain ⟨q, hq, hphases, hframes⟩ := beaconQueued_txq (s1.nextBeacon b)
  rw [hnext] at hseq hframes
  simp only [hphase] at hphases
  refine ⟨hseq, hkept.trans (hsame _ _ _), (SameRegs.of_regs hregs _).trans hother, ⟨q, ?_, hphases, hframes⟩, beaconQueued_form _⟩
  rw [hq, ← hplc]
  rfl

end

end Sys2Proof.Machine
end

section
/-! SUPPORT. DOWN frames whose acknowledgement or whose turn does not come (R374, R408). -/
namespace Sys2Proof.Machine

/-- Of two DOWN frames the one held longer, the earlier in the list when equal. -/
def olderDown (m : Option HeldDown) (d : HeldDown) : Option HeldDown :=
  match m with
  | none => some d
  | some b => if d.since < b.since then some d else some b

theorem oldestDown_eq (l : List HeldDown) : oldestDown l = l.foldl olderDown none := rfl

/-- The DOWN found to be held longest is one of those looked at. -/
theorem foldl_olderDown_mem {l : List HeldDown} {m : Option HeldDown} {b : HeldDown} (h : l.foldl olderDown m = some b) : b ∈ l ∨ m = some b := by
  induction l generalizing m with
  | nil => exact .inr h
  | cons d l ih =>
    rcases ih h with hl | hd
    · exact .inl (List.mem_cons_of_mem _ hl)
    · unfold olderDown at hd
      split at hd
      · exact .inl (Option.some.inj hd ▸ List.mem_cons_self)
      · split at hd
        · exact .inl (Option.some.inj hd ▸ List.mem_cons_self)
        · exact .inr hd

/-- A DOWN held no longer does not take the place of the one held longest. -/
theorem foldl_olderDown_keeps {l : List HeldDown} {d : HeldDown} (h : ∀ x ∈ l, d.since ≤ x.since) : l.foldl olderDown (some d) = some d := by
  induction l with
  | nil => rfl
  | cons x l ih =>
    have hx : olderDown (some d) x = some d := if_neg (Nat.not_lt.2 (h x List.mem_cons_self))
    rw [List.foldl_cons, hx, ih fun y hy => h y (List.mem_cons_of_mem _ hy)]

/-- The first of those held longest is the oldest. -/
theorem oldestDown_first {before after : List HeldDown} {d : HeldDown} (hb : ∀ x ∈ before, d.since < x.since) (ha : ∀ x ∈ after, d.since ≤ x.since) :
    oldestDown (before ++ d :: after) = some d := by
  have hd : olderDown (before.foldl olderDown none) d = some d := by
    generalize hm : before.foldl olderDown none = m
    cases m with
    | none => rfl
    | some b => exact if_pos (hb b ((foldl_olderDown_mem hm).resolve_right (by simp)))
  rw [oldestDown_eq, List.foldl_append, List.foldl_cons, hd, foldl_olderDown_keeps ha]

section
variable {s : State}

theorem plcDownNoack_none (h : s.plc.sent = []) : execPlcDownNoack s = .next s := by
  unfold execPlcDownNoack
  rw [h]

/-- Without its end-to-end acknowledgement within 60 s the first DOWN sent is given up with a notice. -/
theorem plcDownNoack_first {d : SentDown} {r : List SentDown} (h : s.plc.sent = d :: r) : execPlcDownNoack s =
    .next (((s.until (d.since + 60 * second)).setPlc fun y => { y with sent := r }).notice true d.slot 3 d.push 0) := by
  unfold execPlcDownNoack
  rw [h]

theorem plcDownExpired_none (h : s.plc.downs = []) : execPlcDownExpired s = .next s := by
  unfold execPlcDownExpired
  rw [h]
  rfl

/-- Whether a queued frame stays when the DOWN of a slot is replaced or dropped: it is another's, or it has been sent (R374). -/
def PlcTx.staysFor (f : PlcTx) (i : Nat) : Bool := match f.down with | some (k, _, _) => k ≠ i || f.sentX.isSome | none => true

/-- The DOWN held longest is dropped with a notice once it has waited PLC_DNWAIT.HOURS. -/
theorem plcDownExpired_oldest {s1 : State} {d : HeldDown} {before after : List HeldDown} (h : s.plc.downs = before ++ d :: after)
    (hb : ∀ x ∈ before, d.since < x.since) (ha : ∀ x ∈ after, d.since ≤ x.since) (hs1 : s1 = s.until (d.since + s.fld rPlcDnwait 9 0 * 3600 * second)) :
    execPlcDownExpired s =
      .next ((s1.setPlc fun y => { y with downs := before ++ after, txq := y.txq.filter fun f => f.staysFor d.slot }).notice true d.slot 4 d.push 0) := by
  have hmem : d ∉ before := fun hd => Nat.lt_irrefl _ (hb d hd)
  have herase : s1.plc.downs.erase d = before ++ after := by
    rw [hs1, State.until_plc, h, List.erase_append_right _ hmem, List.erase_cons_head]
  unfold execPlcDownExpired
  rw [h, oldestDown_first hb ha, ← herase]
  dsimp only
  rw [← hs1]
  rfl

end

end Sys2Proof.Machine
end

section
/-! SUPPORT. The packets of Q4: a DOWN held and source-routed, a CARAVAN flooded, a REQ routed (R367, R374, R395, R401, R406, R408, R409). -/
namespace Sys2Proof.Machine

section
variable {s : State} {cut : Bool} {ty : Nat} {ws : List Word} (hctl : s.bitOf rPlcCtl 0 = true) (hpk : s.ringPeek 4 = .packet cut ty ws)
include hctl hpk

theorem plcPacket_own : s.plcPacket ty = (some ws, s) := by
  unfold State.plcPacket
  rw [hctl, hpk]
  simp

/-- A packet of no TYPE of R374 is discarded and counted, whichever command meets it. -/
theorem plcPacket_unknown (h1 : ty ≠ 1) (h2 : ty ≠ 2) (h3 : ty ≠ 3) {k : Nat} (hk : ty ≠ k) :
    s.plcPacket k = (none, (s.ringTake 4).2.count rPlcBadfrm 1) := by
  unfold State.plcPacket
  rw [hctl, hpk]
  simp [h1, h2, h3, hk]

theorem plcTx_unknown (h1 : ty ≠ 1) (h2 : ty ≠ 2) (h3 : ty ≠ 3) :
    execPlcTxDown s = .next ((s.ringTake 4).2.count rPlcBadfrm 1) ∧ execPlcTxCaravan s = .next ((s.ringTake 4).2.count rPlcBadfrm 1) ∧
    execPlcTxReq s = .next ((s.ringTake 4).2.count rPlcBadfrm 1) := by
  refine ⟨?_, ?_, ?_⟩
  · unfold execPlcTxDown
    rw [plcPacket_unknown hctl hpk h1 h2 h3 h1]
  · unfold execPlcTxCaravan
    rw [plcPacket_unknown hctl hpk h1 h2 h3 h2]
  · unfold execPlcTxReq
    rw [plcPacket_unknown hctl hpk h1 h2 h3 h3]

end

/-! ### A DOWN -/

/-- Without the DOWN of a slot that waits, and its frames that have not been sent (R374). -/
def State.withoutDown (s : State) (i : Nat) (rest : List HeldDown) : State :=
  s.setPlc fun y => { y with downs := rest, txq := y.txq.filter fun f => f.staysFor i }

/-- A DOWN of Q4 as a frame on the power line, its source route written (R394, R406). -/
def downTx (u : State) (i push : Nat) (b : Bytes) (relays : List Nat) : PlcTx :=
  { phase := 0, prio := 1, ackreq := bit 5 (fld 0 2 b), seq := fld 8 4 b, down := some (i, push, fld 8 4 b),
    mpdu := plcDown u (fld 0 2 b) (fld 2 3 b) (fld 5 3 b) relays (b.drop 8) }

/-- A DOWN is held for its slot, and its frame queued on the slot's phases. -/
def State.holdDown (u : State) (i push : Nat) (b : Bytes) (relays : List Nat) : State :=
  (u.setPlc fun y => { y with downs := y.downs ++ [{ slot := i, push := push, frame := b, since := u.t }] }).plcQueue (u.slotPhases i) (downTx u i push b relays)

section
variable {s : State} {cut : Bool} {ws : List Word} (hctl : s.bitOf rPlcCtl 0 = true) (hpk : s.ringPeek 4 = .packet cut 1 ws) {i push : Nat}
  (hi : i = bits 16 0 (ws.getD 0 0).toNat) (hpush : push = bits 15 0 (ws.getD 1 0).toNat) {rest : List HeldDown}
  (hrest : rest = s.plc.downs.filter fun d => d.slot ≠ i) {u : State} (hu : u = (s.ringTake 4).2.withoutDown i rest)
include hctl hpk hi hpush hrest hu

/-- What becomes of a DOWN of Q4: it waits there while 4,096 are held, is dropped when it has no route, else is held and queued. -/
theorem plcTxDown_cases : execPlcTxDown s =
    if downMax ≤ rest.length then .next (s.irq rPlcIrq 3)
    else match u.route i with
      | none => .next (u.routeFail i push)
      | some relays =>
        .next (if rest.length + 1 = downMax then (u.holdDown i push (ofWs (ws.drop 2)) relays).irq rPlcIrq 3 else u.holdDown i push (ofWs (ws.drop 2)) relays) := by
  unfold execPlcTxDown
  rw [plcPacket_own hctl hpk]
  subst hu hrest hi hpush
  rfl

/-- While 4,096 DOWN frames of other slots are held, the packet waits in Q4. -/
theorem plcTxDown_full (hfull : 4096 ≤ rest.length) : execPlcTxDown s = .next (s.irq rPlcIrq 3) :=
  (plcTxDown_cases hctl hpk hi hpush hrest hu).trans (if_pos hfull)

variable (hroom : rest.length < 4096)
include hroom

/-- A DOWN with no route to its slot is dropped with a notice. -/
theorem plcTxDown_unrouted (hroute : u.route i = none) : execPlcTxDown s = .next (u.routeFail i push) := by
  have hnot : ¬ downMax ≤ rest.length := Nat.not_le.2 hroom
  rw [plcTxDown_cases hctl hpk hi hpush hrest hu, if_neg hnot, hroute]

/-- A DOWN with a route is held and queued; the 4,096th sets DOWN_FULL. -/
theorem plcTxDown_held {relays : List Nat} (hroute : u.route i = some relays) : execPlcTxDown s =
    .next (if rest.length = 4095 then (u.holdDown i push (ofWs (ws.drop 2)) relays).irq rPlcIrq 3 else u.holdDown i push (ofWs (ws.drop 2)) relays) := by
  have hnot : ¬ downMax ≤ rest.length := Nat.not_le.2 hroom
  have hlast : (rest.length + 1 = downMax) = (rest.length = 4095) := propext ⟨Nat.succ.inj, congrArg Nat.succ⟩
  rw [plcTxDown_cases hctl hpk hi hpush hrest hu, if_neg hnot, hroute]
  simp only [hlast]

end

/-! ### A CARAVAN and a REQ -/

/-- A CARAVAN from the coordinator on the power line (R367, R401). -/
def caravanTx (hop cid ttl : Nat) (inner : Bytes) : PlcTx :=
  { phase := 0, prio := 3, ackreq := false, mpdu := plcHead (7 + 256) 0xFFFFFF 0 0xFFFFFF hop [] ++ (le 3 0 ++ le 2 cid ++ le 1 ttl ++ inner) }

theorem caravanTx_body (hop cid ttl : Nat) (inner : Bytes) : (caravanTx hop cid ttl inner).mpdu.drop 15 = le 3 0 ++ le 2 cid ++ le 1 ttl ++ inner :=
  List.drop_left' (plcHead_unrouted_length (by decide) _ _ _ _ _)

/-- The caravan of a CID is under way: the coordinator has seen it (R369). -/
def State.seesCaravan (s : State) (cid now : Nat) : State := s.setPlc fun y => { y with cid := cid, seen := seenInsert y.seen 0 cid now }

/-- A REQ to a slot, its source route written (R395, R401, R406). -/
def reqTx (u : State) (i : Nat) (relays : List Nat) : PlcTx :=
  { phase := 0, prio := 1, ackreq := true, mpdu := plcDown u (9 + 256 + 32) (i + 1) 0 relays (le 1 32 ++ le 3 0) }

theorem reqTx_mpdu (u : State) (i : Nat) (relays : List Nat) : (reqTx u i relays).mpdu =
    plcHead (if relays.isEmpty then 297 else 2345) (i + 1) 0 (relays.headD (i + 1)) (u.fld rPlcRxcfg 14 12) relays ++ le 1 32 ++ le 3 0 :=
  (List.append_assoc _ _ _).symm

section
variable {s : State} {cut : Bool} {ws : List Word} (hctl : s.bitOf rPlcCtl 0 = true) {s1 : State} (hs1 : s1 = (s.ringTake 4).2)
include hctl hs1

/-- A CARAVAN of Q4 is flooded on every locked phase, or waits there for leave to transmit (R401, R413). -/
theorem plcTxCaravan_cases (hpk : s.ringPeek 4 = .packet cut 2 ws) {cid : Nat} (hcid : cid = (s.plc.cid + 1) % 65536) : execPlcTxCaravan s =
    if s.plcTx then
      .next ((s1.seesCaravan cid s.t).plcQueue ((List.range 3).filter fun p => (s1.phase p).locked)
        (caravanTx (s1.fld rPlcRxcfg 14 12) cid (bits 2 0 (ws.getD 0 0).toNat) (ofWs (ws.drop 1))))
    else .next s := by
  unfold execPlcTxCaravan
  rw [plcPacket_own hctl hpk]
  subst hs1 hcid
  rfl

/-- A REQ of Q4 is queued on the phases of its slot, or dropped when it has no route. -/
theorem plcTxReq_cases (hpk : s.ringPeek 4 = .packet cut 3 ws) {i : Nat} (hi : i = bits 16 0 (ws.getD 0 0).toNat) : execPlcTxReq s =
    match s1.route i with
    | none => .next (s1.routeFail i 0)
    | some relays => .next (s1.plcQueue (s1.slotPhases i) (reqTx s1 i relays)) := by
  unfold execPlcTxReq
  rw [plcPacket_own hctl hpk]
  subst hs1 hi
  rfl

end

/-- Settles O52: a contender by what its phase lets it do, each timeout by what has run out first, each packet of Q4 by its TYPE and its route. -/
theorem powerLineTransmission : Obligations.PowerLineTransmission := by
  unfold Obligations.PowerLineTransmission
  refine ⟨?contend, ?idle, ?window, ?shortAck, ?noShortAck, ?noBeacon, ?beacon, ?downNoack, ?downExpired, ?noneSent, ?noneHeld, ?packet⟩
  case contend =>
    intro phase r s x y f hget hy hf
    subst hy
    refine ⟨plcContend_waits hget hf, fun n mpdu htx hon hlock hfree hcount hn hmpdu => ?_⟩
    have hrun := plcContend_goes hget hf htx hon hlock hfree hcount
    rw [show plcHalves f.mpdu = n from hn.symm, show f.bytesAt _ = mpdu from hmpdu.symm] at hrun
    have hair := plcOnAir_form (s := s) (p := phase) (z := { x.rollCr with txEnd := x.count + n - 1, cr := x.count + n - 1 + 64, sending := plcFrameSlots mpdu })
      (List.getElem?_eq_some_iff.1 hget).1 (plcFrameSlots_cons mpdu) htx
    obtain ⟨hemit, hphases, htxq, hagain, hfirst, hform⟩ := gone_form hair (f := f) (X := x.count + n - 1) (end_ := s.t + (n - 1) * x.half) rfl
    exact ⟨_, _, _, _, hrun, plcFrameSlots_cons mpdu, hemit, rfl, hphases, htxq, hagain, hfirst, hform⟩
  case idle =>
    intro phase r s h
    exact plcContend_none h
  case window =>
    intro phase k s X lead width w hw hlead hwidth
    subst hw hlead hwidth
    exact ⟨rfl, rfl, rfl, rfl, rfl, rfl, rfl, rfl, rfl⟩
  case shortAck =>
    intro phase s f X before after hq hb hp hX hdue
    have hrun := plcAckTimeout_first hq hb hp hX hdue
    exact ⟨fun h => hrun.trans (if_pos h), fun h => hrun.trans (if_neg (Nat.not_lt.2 h))⟩
  case noShortAck =>
    intro phase s h
    exact plcAckTimeout_none h
  case noBeacon =>
    intro s h
    exact plcBeacon_off h
  case beacon =>
    intro s s1 hinv hctl hs1
    have hregs : s1.regs = s.regs := by rw [hs1, State.until_regs]
    generalize hb : s1.t + s.fld rPlcBeacon 11 0 * 268435456 = b
    have hrun := plcBeacon_due (b := b) hctl hs1 (by rw [fld_of_regs hregs]; exact hb.symm)
    refine ⟨fun h => ?_, fun h => ?_⟩
    · rw [h] at hrun
      exact hrun
    · rw [h] at hrun
      exact ⟨_, hrun, beaconQueued_leaves hinv hs1 rfl⟩
  case downNoack =>
    intro s s1 d r h hs1
    show execPlcDownNoack s = _
    rw [plcDownNoack_first h, hs1]
    rfl
  case downExpired =>
    intro s s1 d before after h hb ha hs1
    exact plcDownExpired_oldest h hb ha hs1
  case noneSent =>
    intro s h
    exact plcDownNoack_none h
  case noneHeld =>
    intro s h
    exact plcDownExpired_none h
  case packet =>
    intro s s1 cut ty i ws hctl hpk hs1 hi
    refine ⟨fun u rest b hty hrest hb hu => ?_, fun cid hty hcid => ?_, fun hty => ?_, fun h1 h2 h3 => ?_⟩
    · subst hty
      have hu' : u = (s.ringTake 4).2.withoutDown i rest := by
        rw [hu, hs1]
        rfl
      refine ⟨plcTxDown_full hctl hpk hi rfl hrest hu', plcTxDown_unrouted hctl hpk hi rfl hrest hu', fun relays hroom hroute => ?_⟩
      refine ⟨_, u.holdDown i (bits 15 0 (ws.getD 1 0).toNat) b relays, downTx u i _ b relays, ?_, ?_, rfl, rfl, rfl, rfl, rfl, rfl, rfl, rfl⟩
      · rw [hb]
        exact plcTxDown_held hctl hpk hi rfl hrest hu' hroom hroute
      · rw [hu]
        rfl
    · subst hty
      have hrun := plcTxCaravan_cases hctl hs1 hpk hcid
      refine ⟨fun h => by rw [h] at hrun; exact hrun, fun h => ?_⟩
      rw [h] at hrun
      exact ⟨_, _, hrun, rfl, rfl, rfl, caravanTx_body _ _ _ _⟩
    · subst hty
      have hrun := plcTxReq_cases hctl hs1 hpk hi
      refine ⟨fun h => by rw [h] at hrun; exact hrun, fun relays h => ?_⟩
      rw [h] at hrun
      exact ⟨_, _, hrun, rfl, rfl, rfl, reqTx_mpdu _ _ _⟩
    · subst hs1
      exact plcTx_unknown hctl hpk h1 h2 h3

end Sys2Proof.Machine
end

section
/-! SUPPORT. The Viterbi decoder over a line without noise: it finds the bits whose code was sent (R388, R390). -/
namespace Sys2Proof.Machine

/-- What a receiver hears of a slot sent over a line without noise: energy in that slot alone. -/
def clearPulse (k : Fin 4) : PulseEnergy :=
  { e0 := if k = 0 then 1 else 0, e1 := if k = 1 then 1 else 0, e2 := if k = 2 then 1 else 0, e3 := if k = 3 then 1 else 0 }

theorem slotEnergy_clearPulse (k j : Fin 4) : slotEnergy (clearPulse k) j = if j = k then 1 else 0 := by
  revert k j
  decide

theorem slotEnergy_clearPulse_le (k j : Fin 4) : slotEnergy (clearPulse k) j ≤ 1 := by
  rw [slotEnergy_clearPulse]
  split <;> decide

/-- The encoder's window: its state and the bit that enters it (R390). -/
def convWindow (st : Nat) (b : Bool) : Nat := st + (if b then 64 else 0)

/-- The encoder's state after the bits of a field. -/
def convState (st : Nat) (l : List Bool) : Nat := l.foldl (fun st b => convWindow st b / 2) st

/-- Both generators tap the newest bit, so the two branches out of a state send different symbols. -/
theorem convSlot_branches {st : Nat} (h : st < 64) {b c : Bool} (hne : b ≠ c) : convSlot (convWindow st b) ≠ convSlot (convWindow st c) := by
  have hflip : ∀ x : Fin 64, convSlot (convWindow x true) ≠ convSlot (convWindow x false) := by decide
  cases b <;> cases c
  · exact absurd rfl hne
  · exact (hflip ⟨st, h⟩).symm
  · exact hflip ⟨st, h⟩
  · exact absurd rfl hne

/-- The path into state `m` that comes from state `p`. -/
def branchFrom (ps : List ConvPath) (e : PulseEnergy) (m p : Nat) : ConvPath :=
  (ps.getD p none).map fun x => (x.1 + slotEnergy e (convSlot (convWindow p (decide (32 ≤ m)))), decide (32 ≤ m) :: x.2)

theorem viterbiStep_getD (ps : List ConvPath) (e : PulseEnergy) {m : Nat} (h : m < 64) :
    (viterbiStep ps e).getD m none = betterPath (branchFrom ps e m (2 * m % 64)) (branchFrom ps e m (2 * m % 64 + 1)) := by
  unfold viterbiStep branchFrom convWindow
  simp [List.getD_eq_getElem?_getD, h]

theorem betterPath_mem {a b : ConvPath} {x : Nat × List Bool} (h : betterPath a b = some x) : a = some x ∨ b = some x := by
  unfold betterPath at h
  split at h
  · split at h
    · exact .inr h
    · exact .inl h
  · exact .inl h
  · exact .inr h

theorem betterPath_first {b : ConvPath} {x : Nat × List Bool} (h : ∀ y, b = some y → y.1 < x.1) : betterPath (some x) b = some x := by
  cases b with
  | none => rfl
  | some y => exact if_neg (Nat.lt_asymm (h y rfl))

theorem betterPath_second {a : ConvPath} {x : Nat × List Bool} (h : ∀ y, a = some y → y.1 < x.1) : betterPath a (some x) = some x := by
  cases a with
  | none => rfl
  | some y => exact if_pos (h y rfl)

/-- After `n` symbols the path of the bits sent stands in the encoder's state with all the energy there was, and every other path has less. -/
structure Leads (ps : List ConvPath) (st n : Nat) (bs : List Bool) : Prop where
  sent  : ps.getD st none = some (n, bs)
  other : ∀ m < 64, m ≠ st → ∀ x, ps.getD m none = some x → x.1 < n

section
variable {ps : List ConvPath} {st n : Nat} {bs : List Bool} (h : Leads ps st n bs) {b : Bool}
include h

/-- A branch that leaves the path of the bits sent, or never was on it, misses energy. -/
theorem Leads.branch_lt {m p : Nat} (hp : p < 64) (hoff : p = st → decide (32 ≤ m) ≠ b) {x : Nat × List Bool}
    (hx : branchFrom ps (clearPulse (convSlot (convWindow st b))) m p = some x) : x.1 < n + 1 := by
  obtain ⟨y, hy, rfl⟩ := Option.map_eq_some_iff.1 hx
  by_cases hst : p = st
  · subst hst
    rw [h.sent, Option.some_inj] at hy
    subst hy
    rw [slotEnergy_clearPulse, if_neg (convSlot_branches hp (hoff rfl))]
    exact Nat.lt_succ_self n
  · have hlt := h.other p hp hst y hy
    have hle := slotEnergy_clearPulse_le (convSlot (convWindow st b)) (convSlot (convWindow p (decide (32 ≤ m))))
    dsimp only
    omega

/-- The branch of the next bit sent gains the symbol's energy. -/
theorem Leads.branch_sent {m : Nat} (hb : decide (32 ≤ m) = b) :
    branchFrom ps (clearPulse (convSlot (convWindow st b))) m st = some (n + 1, b :: bs) := by
  unfold branchFrom
  rw [h.sent, hb, Option.map_some, slotEnergy_clearPulse, if_pos rfl]

/-- One more symbol keeps the path of the bits sent ahead. -/
theorem Leads.step (hst : st < 64) (b : Bool) :
    Leads (viterbiStep ps (clearPulse (convSlot (convWindow st b)))) (convWindow st b / 2) (n + 1) (b :: bs) := by
  have hnew : decide (32 ≤ convWindow st b / 2) = b := by
    cases b <;> simp [convWindow] <;> omega
  have hinto (m : Nat) (hm : m < 64) (c : Bool) (hc : decide (32 ≤ m) = c) : (st = 2 * m % 64 ∨ st = 2 * m % 64 + 1) ↔ m = convWindow st c / 2 := by
    subst hc
    unfold convWindow
    by_cases h32 : 32 ≤ m <;> simp [h32] <;> omega
  refine ⟨?_, fun m hm hne x hx => ?_⟩
  · have hlt : convWindow st b / 2 < 64 := by unfold convWindow; split <;> omega
    rw [viterbiStep_getD _ _ hlt]
    rcases (hinto _ hlt b hnew).2 rfl with hfirst | hsecond
    · rw [← hfirst, h.branch_sent hnew]
      exact betterPath_first fun y hy => h.branch_lt (by omega) (fun e => absurd e (by omega)) hy
    · rw [← hsecond, h.branch_sent hnew]
      exact betterPath_second fun y hy => h.branch_lt (by omega) (fun e => absurd e (by omega)) hy
  · rw [viterbiStep_getD _ _ hm] at hx
    have hoff (p : Nat) (hp : p = 2 * m % 64 ∨ p = 2 * m % 64 + 1) (hps : p = st) : decide (32 ≤ m) ≠ b := fun hb =>
      hne ((hinto m hm b hb).1 (hps ▸ hp))
    rcases betterPath_mem hx with hx | hx
    · exact h.branch_lt (by omega) (hoff _ (.inl rfl)) hx
    · exact h.branch_lt (by omega) (hoff _ (.inr rfl)) hx

end

theorem Leads.all {ps : List ConvPath} {st n : Nat} {bs : List Bool} (h : Leads ps st n bs) (hst : st < 64) (l : List Bool) :
    ∃ k, Leads (((convFrom st l).map clearPulse).foldl viterbiStep ps) (convState st l) k (l.reverse ++ bs) := by
  induction l generalizing ps st n bs with
  | nil => exact ⟨n, h⟩
  | cons b l ih =>
    have hnext : convWindow st b / 2 < 64 := by unfold convWindow; split <;> omega
    obtain ⟨k, hk⟩ := ih (h.step hst b) hnext
    exact ⟨k, by rw [List.reverse_cons, List.append_assoc]; exact hk⟩

/-- Over a line without noise the decoder gives the bits that were sent, when their tail brought the encoder back to state 0 (R390). -/
theorem viterbi_clear {l : List Bool} (h : convState 0 l = 0) : viterbi ((convFrom 0 l).map clearPulse) = l := by
  have hstart : Leads ((some (0, []) : ConvPath) :: List.replicate 63 none) 0 0 [] := by
    refine ⟨rfl, fun m hm hne x hx => ?_⟩
    obtain ⟨k, rfl⟩ := Nat.exists_eq_succ_of_ne_zero hne
    rw [List.getD_cons_succ, List.getD_replicate _ (by omega)] at hx
    cases hx
  obtain ⟨k, hk⟩ := hstart.all (by decide) l
  rw [h] at hk
  unfold viterbi
  rw [hk.sent]
  simp

end Sys2Proof.Machine
end

section
/-! SUPPORT. A DATA frame of a slot whose fault bit is set counts in ARB_BUSYCNT on the power line too (R166, R183, R399). -/
namespace Sys2Proof.Machine

theorem sameRegs_ite {s u : State} {l : List Nat} (c : Prop) [Decidable c] (h : SameRegs s u l) : SameRegs s (if c then u else s) l := by
  split
  · exact h
  · exact .refl s l

/-- The registers an arbiter's grant may move (R179 to R182). -/
def grantRegs : List Nat := [rArbMaskcnt, rArbLatmax, rArbIrq]

theorem arbGrant_sameRegs (s : State) (plc lookup : Bool) (i : Nat) : SameRegs s (s.arbGrant plc lookup i) grantRegs := by
  have hmask (b : Bool) (x y : Arb) : SameRegs s
      (if b then ({ s with freeCtr := s.freeCtr + 1, arb := x } : State).count rArbMaskcnt 1 else { s with freeCtr := s.freeCtr + 1, arb := y }) grantRegs := by
    cases b
    · exact .of_regs rfl _
    · exact SameRegs.trans (b := { s with freeCtr := s.freeCtr + 1, arb := x }) (.of_regs rfl _) (setReg_sameRegs _ (by simp [grantRegs]) _)
  exact ((hmask _ _ _).trans (sameRegs_ite _ (setReg_sameRegs _ (by simp [grantRegs]) _))).trans (sameRegs_ite _ (irq_sameRegs _ (by simp [grantRegs]) _))

section
variable {s : State} {f : Frame}

theorem serves_of_rings {u : State} (h : RingsAlike s u) (hr : s.regs = u.regs) (n : Nat) : s.serves n = u.serves n := by
  unfold State.serves State.ringOpens State.bitOf
  rw [(h.wadi n).ring n, State.reg_of_regs hr]

/-- A DATA frame of a faulted slot is BUSY (R166). -/
theorem judgeOpen_faulted (hd : f.ftype = 2) (hfl : s.arb.flips = []) (h0 : 0 < f.src) (h1 : f.src ≤ 131072) (hf : (s.slot (f.src - 1)).fault = true) :
    s.judgeOpen f = s.judgeBusy (f.src - 1) := by
  unfold State.judgeOpen
  rw [if_neg (by simp [(isData_of_ftype hd).2])]
  simp only [shortSlot_some h0 h1, scrub_clean s hfl, hf, if_true]

theorem judge_faulted (hd : f.ftype = 2) (hfl : s.arb.flips = []) (hserves : s.serves 3 = true) (h0 : 0 < f.src) (h1 : f.src ≤ 131072)
    (hf : (s.slot (f.src - 1)).fault = true) : (s.judge true f).2 = (s.count rArbBusycnt 1).arbGrant true f.isJoin (f.src - 1) := by
  unfold State.judge
  simp only [if_true, hserves, judgeOpen_faulted hd hfl h0 h1 hf, (isData_of_ftype hd).1, Bool.true_or]
  rfl

theorem endToEnd_regs (r : PlcRx) (j : Judged) : (s.endToEnd r f j).regs = s.regs := by
  unfold State.endToEnd
  split <;> rfl

/-- Past its verdict a DATA frame taken from the power line moves no register but QF_IRQ. -/
theorem plcTake_sameRegs (hd : f.ftype = 2) (r : PlcRx) : SameRegs (s.judge true f).2 (s.plcTake r f false) [rQfIrq] := by
  rcases hj : s.judge true f with ⟨⟨v, c, sl⟩, w⟩
  have hoffer (stamp chan desc : Nat) : SameRegs w (w.offerFrame true ⟨v, c, sl⟩ stamp chan desc f.bytes) [rQfIrq] := ringPacket_sameRegs w 3 _ _
  refine (hoffer ((s.phase r.p).crossing.getD s.dev) r.phase (plcDesc r.qual r.err r.phase f.relays.length v false)).trans (.of_regs ?_ _)
  unfold State.plcTake
  simp only [hj, hd, Nat.reduceEqDiff, Bool.false_eq_true, if_false]
  split
  · exact endToEnd_regs ..
  · exact endToEnd_regs ..

/-- A DATA frame for the coordinator is taken by the token's holder (R395, R399). -/
theorem plcCheck_data (n : Nat) (r : PlcRx) (hok : plcTypeOk f = true) (hh : s.seq.holder = true) (hd : f.ftype = 2) (hnxt : fld 8 3 f.bytes = 0) :
    State.plcCheck (n + 1) s r false f = s.plcTake r f false := by
  unfold State.plcCheck
  simp only [hok, hh, hd, hnxt, Bool.true_eq_false, Nat.reduceEqDiff, if_false, true_or, or_true, and_self, if_true]

/-- The verdict on a faulted slot's frame counts in ARB_BUSYCNT (R166, R183). -/
theorem plcTake_counts_busy (hs : swf regReset s.regs = true) (r : PlcRx) (hd : f.ftype = 2) (hfl : s.arb.flips = []) (hserves : s.serves 3 = true)
    (h0 : 0 < f.src) (h1 : f.src ≤ 131072) (hf : (s.slot (f.src - 1)).fault = true) :
    (s.plcTake r f false).reg rArbBusycnt = min 4294967295 (s.reg rArbBusycnt + 1) := by
  rw [plcTake_sameRegs hd r rArbBusycnt (by decide), judge_faulted hd hfl hserves h0 h1 hf, arbGrant_sameRegs _ true f.isJoin _ rArbBusycnt (by decide),
    State.reg_count hs]

end

/-- A frame that a locked phase received whole and for the first time goes to the checks; besides the time that passed only the channel has changed
(R389, R393, R411). -/
theorem plcFrameReceive_checks {s : State} {dt : Nat} {phase : Fin 3} {heard : List PulseEnergy} {x : PlcPhase} {len : Nat}
    (hget : s.plc.phases[phase.val]? = some x) (hon : s.phaseOn phase = true) (hlock : x.locked = true) (hlen : (plcDecode heard).len = some len)
    (hquiet : x.txEnd = 0) (hfcs : (plcDecode heard).mpdu.drop (len - 4) = le 4 (crc32 ((plcDecode heard).mpdu.take (len - 4)))) (hfirst : s.plc.lastRx = none) :
    ∃ (plc : Plc) (r : PlcRx), execPlcFrameReceive dt phase heard s =
      .next (State.plcCheck 16 { s.advance dt with plc := plc } r false (plcFrame ((plcDecode heard).mpdu.take (len - 4)))) := by
  have hphase : (s.advance dt).phase phase = x := phase_of_get hget
  have hgo : ((s.advance dt).phaseOn phase && x.locked) = true := by
    rw [hlock, Bool.and_true]
    exact hon
  have hlast (y : PlcPhase) : ((s.advance dt).setPhase phase y).plc.lastRx = none := hfirst
  unfold execPlcFrameReceive
  dsimp only
  rw [hphase, if_pos hgo, hlen]
  dsimp only
  rw [if_neg (by omega), if_neg (not_not.2 hfcs), hlast, if_neg Bool.false_ne_true]
  exact ⟨_, _, rfl⟩

/-- A DATA frame for the coordinator from a slot whose fault bit is set counts as one BUSY verdict (R166, R183, R399). -/
theorem plcFrameReceive_counts_busy {s : State} {dt : Nat} {phase : Fin 3} {heard : List PulseEnergy} {x : PlcPhase} {len : Nat} {f : Frame}
    (hs : swf regReset s.regs = true) (hget : s.plc.phases[phase.val]? = some x) (hon : s.phaseOn phase = true) (hlock : x.locked = true)
    (hlen : (plcDecode heard).len = some len) (hquiet : x.txEnd = 0)
    (hfcs : (plcDecode heard).mpdu.drop (len - 4) = le 4 (crc32 ((plcDecode heard).mpdu.take (len - 4)))) (hfirst : s.plc.lastRx = none)
    (hframe : f = plcFrame ((plcDecode heard).mpdu.take (len - 4))) (hok : plcTypeOk f = true) (hd : f.ftype = 2) (hnxt : fld 8 3 f.bytes = 0)
    (hh : s.seq.holder = true) (hfl : s.arb.flips = []) (hserves : (s.advance dt).serves 3 = true) (h0 : 0 < f.src) (h1 : f.src ≤ 131072)
    (hf : (s.slot (f.src - 1)).fault = true) :
    ∃ t, execPlcFrameReceive dt phase heard s = .next t ∧ t.reg rArbBusycnt = min 4294967295 (s.reg rArbBusycnt + 1) := by
  obtain ⟨plc, r, hrun⟩ := plcFrameReceive_checks (dt := dt) hget hon hlock hlen hquiet hfcs hfirst
  have hserved : ({ s.advance dt with plc := plc } : State).serves 3 = true :=
    (serves_of_rings (s := { s.advance dt with plc := plc }) (u := s.advance dt) ⟨rfl, rfl, rfl⟩ rfl 3).trans hserves
  have htake := plcCheck_data (s := { s.advance dt with plc := plc }) 15 r hok hh hd hnxt
  rw [← hframe] at hrun
  exact ⟨_, hrun.trans (congrArg _ htake), plcTake_counts_busy (s := { s.advance dt with plc := plc }) hs r hd hfl hserved h0 h1 hf⟩

end Sys2Proof.Machine
end

section
/-! SUPPORT. The counterexample to the statement on reception: a DATA frame of a slot that is at fault (R166). -/
namespace Sys2Proof.Machine

/-- What was heard of a frame's PHR (R393). -/
def heardPhr (es : List PulseEnergy) : List PulseEnergy := es.take 22 ++ List.replicate (22 - es.length) ({} : PulseEnergy)

/-- What was heard of the bits of a body of `len` bytes and its tail, in coded order (R391, R393). -/
def heardBody (len : Nat) (es : List PulseEnergy) : List PulseEnergy :=
  (blocks480 (deinterBlock {}) 8 ((es.drop 22).take (nPad len) ++ List.replicate (nPad len - (es.length - 22)) ({} : PulseEnergy))).take (8 * len + 6)

/-- What the decoder makes of symbols whose two fields decode to these bits (R390, R391, R393). -/
theorem plcDecode_fields {es : List PulseEnergy} {phr body : List Bool} {len : Nat} (hphr : viterbi (heardPhr es) = phr)
    (hlen : phrLen (bitsVal (phr.take 16)) = some len) (hbody : viterbi (heardBody len es) = body) :
    (plcDecode es).len = some len ∧ (plcDecode es).mpdu = bitsBytes len body := by
  unfold heardPhr at hphr
  unfold plcDecode
  dsimp only
  rw [hphr, hlen]
  exact ⟨rfl, by rw [← hbody]; rfl⟩

/-- A DATA frame from short address 1 to the coordinator, sequence and MIC 0, without its FCS (R394, R395). -/
def faultedFrame : Bytes := plcHead 18 0 1 0 0 [] ++ le 12 0

/-- The bits of the frame's PHR, with the tail (R390, R393). -/
def faultedPhr : List Bool := numBits 16 (plcPhr 31) ++ List.replicate 6 false

/-- The bits of the frame's body and FCS, with the tail (R390, R393). -/
def faultedBody : List Bool := bytesBitsL (faultedFrame ++ le 4 (crc32 faultedFrame)) ++ List.replicate 6 false

/-- The frame as it is heard from the PHR on, over a line without noise. -/
def faultedHeard : List PulseEnergy := ((plcFrameSlots faultedFrame).drop 12).map clearPulse

/-- A phase that is locked. -/
def lockedPhase : PlcPhase := { locked := true }

/-- The holder of the token with the channel on, an arbiter that serves, room on Q3, and slot 0 active and at fault. -/
def faultedUnit : State :=
  (({ State.reset with
      rings := List.replicate 16 { en := true, sizeLog2 := 12 }, seq := { holder := true }, plc := { phases := [lockedPhase, {}, {}] },
      ctx := { slots := [(0, { state := .active, fault := true })] } } : State).setReg rPlcCtl 5).setReg rArbCtl 1

theorem faultedHeard_phr : viterbi (heardPhr faultedHeard) = faultedPhr := by
  have hcode : heardPhr faultedHeard = (convFrom 0 faultedPhr).map clearPulse := by decide +kernel
  rw [hcode]
  exact viterbi_clear (by decide +kernel)

theorem faultedHeard_body : viterbi (heardBody 31 faultedHeard) = faultedBody := by
  have hcode : heardBody 31 faultedHeard = (convFrom 0 faultedBody).map clearPulse := by decide +kernel
  rw [hcode]
  exact viterbi_clear (by decide +kernel)

theorem faultedHeard_len : (plcDecode faultedHeard).len = some 31 := (plcDecode_fields faultedHeard_phr (by decide +kernel) faultedHeard_body).1

theorem faultedHeard_mpdu : (plcDecode faultedHeard).mpdu = faultedFrame ++ le 4 (crc32 faultedFrame) := by
  rw [(plcDecode_fields faultedHeard_phr (by decide +kernel) faultedHeard_body).2]
  decide +kernel

theorem faultedHeard_bytes : faultedFrame = (plcDecode faultedHeard).mpdu.take (31 - 4) := by
  rw [faultedHeard_mpdu]
  decide +kernel

theorem faultedHeard_fcs : (plcDecode faultedHeard).mpdu.drop (31 - 4) = le 4 (crc32 faultedFrame) := by
  rw [faultedHeard_mpdu]
  decide +kernel

theorem faultedFrame_checks : plcTypeOk (plcFrame faultedFrame) = true ∧ (plcFrame faultedFrame).ftype = 2 ∧ fld 8 3 faultedFrame = 0 ∧
    (plcFrame faultedFrame).relays = [] ∧ (plcFrame faultedFrame).src = 1 := by decide +kernel

/-- The unit is in a stored form that a run keeps. -/
theorem faultedUnit_inv : faultedUnit.Inv := by
  unfold State.Inv
  decide +kernel

theorem faultedUnit_receives : faultedUnit.phaseOn 0 = true ∧ (faultedUnit.advance 0).serves 3 = true ∧ (faultedUnit.slot 0).fault = true ∧
    faultedUnit.coincident 0 = false ∧ faultedUnit.reg rArbBusycnt = 0 := by decide +kernel

/-- The faulted slot's frame counts. -/
theorem faultedUnit_counts : ∃ t, execPlcFrameReceive 0 0 faultedHeard faultedUnit = .next t ∧ t.reg rArbBusycnt = 1 := by
  obtain ⟨hok, hd, hnxt, -, hsrc⟩ := faultedFrame_checks
  obtain ⟨hon, hserves, hfault, -, hzero⟩ := faultedUnit_receives
  obtain ⟨t, hrun, hcount⟩ := plcFrameReceive_counts_busy (s := faultedUnit) (dt := 0) (phase := 0) (x := lockedPhase) (f := plcFrame faultedFrame)
    faultedUnit_inv.1 rfl hon rfl faultedHeard_len rfl (by rw [← faultedHeard_bytes]; exact faultedHeard_fcs) rfl (by rw [← faultedHeard_bytes]) hok hd hnxt
    rfl rfl hserves (by rw [hsrc]; decide) (by rw [hsrc]; decide) (by rw [hsrc]; exact hfault)
  exact ⟨t, hrun, by rw [hcount, hzero]; rfl⟩

/-- Refutes O51: a DATA frame of a slot whose fault bit is set gets BUSY and counts in ARB_BUSYCNT (R166, R183), a register that the statement says a received
frame leaves as it was. -/
theorem not_powerLineCrossingsAndReception : ¬ Obligations.PowerLineCrossingsAndReception := by
  unfold Obligations.PowerLineCrossingsAndReception
  intro h
  obtain ⟨-, -, -, -, hreceive, -⟩ := h
  obtain ⟨hok, hd, hnxt, hrelays, hsrc⟩ := faultedFrame_checks
  obtain ⟨hon, hserves, hfault, hapart, hzero⟩ := faultedUnit_receives
  obtain ⟨-, -, hwhole⟩ := hreceive 0 0 faultedHeard faultedUnit _ _ lockedPhase _ rfl rfl rfl rfl
  obtain ⟨-, -, -, hdata⟩ := hwhole 31 faultedFrame hon rfl faultedHeard_len faultedHeard_bytes
  have hbusy : (faultedUnit.advance 0).serves 3 = true ∧ 0 < (plcFrame faultedFrame).src ∧ (plcFrame faultedFrame).src ≤ 131072 ∧
      (faultedUnit.slot ((plcFrame faultedFrame).src - 1)).fault = true ∧ 2 = 2 ∧ EClass.busy = .busy ∧ some 0 = some ((plcFrame faultedFrame).src - 1) := by
    rw [hsrc]
    exact ⟨hserves, by decide, by decide, hfault, rfl, rfl, rfl⟩
  obtain ⟨t, -, -, hrun, -, -, -, -, -, -, -, -, -, -, -, -, hregs, -⟩ := hdata (plcFrame faultedFrame) 0 2 .busy (some 0) (.inl rfl) faultedHeard_fcs
    (fun _ hl => nomatch hl) rfl rfl rfl hok hd hnxt hrelays (if_neg fun e => Bool.false_ne_true (hapart.symm.trans e)).symm (.inr (.inr (.inl hbusy)))
  have hkept : t.reg rArbBusycnt = faultedUnit.reg rArbBusycnt := hregs rArbBusycnt (by decide)
  obtain ⟨t', hrun', hcount⟩ := faultedUnit_counts
  have heq : t = t' := Host.Outcome.next.inj (hrun.symm.trans hrun')
  rw [heq, hcount, hzero] at hkept
  exact absurd hkept (by decide)

end Sys2Proof.Machine
end

section
/-! SUPPORT. PUSH: a push joins its slot's queue behind those already there, or is refused (R419, R424, R425). -/
namespace Sys2Proof.Machine

/-- PUSH's body (R460). -/
def pushBody (id att dt : Nat) (payload : Bytes) : Bytes := le 2 id ++ le 1 att ++ le 1 dt ++ payload

theorem pushBody_fields {id att dt : Nat} {payload : Bytes} (hid : id < 65536) (hdt : dt < 256) :
    fld 0 2 (pushBody id att dt payload) = id ∧ fld 2 1 (pushBody id att dt payload) = att % 256 ∧ fld 3 1 (pushBody id att dt payload) = dt ∧
      (pushBody id att dt payload).drop 4 = payload ∧ (pushBody id att dt payload).length = 4 + payload.length := by
  unfold pushBody
  simp only [List.append_assoc]
  refine ⟨?_, ?_, ?_, ?_, ?_⟩
  · rw [fld_le_append]
    omega
  · simp [fld_append_right]
  · simp [fld_append_right]
    omega
  · simp [le]
  · simp
    omega

/-- The push that PUSH enters into the queue of slot `i` (R424). -/
def enteredPush (i id att dt : Nat) (payload : Bytes) (jsn stamp : Nat) : Push :=
  { slot := i, id := id, maxAtt := att, dtype := dt, body := payload, cmdJsn := jsn, cmdStamp := stamp }

/-- A context with one more push. -/
def Ctx.addPush (k : Ctx) (p : Push) : Ctx := { k with pushes := k.pushes ++ [p] }

/-- Every check of R425 passes for a push other than REKEY, and the slot's queue holds a push already. -/
structure State.PushJoins (s : State) (i att dt : Nat) (payload : Bytes) : Prop where
  active : (s.slot i).state = .active
  kind   : dt ≠ 4
  len    : downLen dt = some (payload.length + 4)
  tries  : 0 < att ∧ att ≤ 7
  body   : downBodyOk dt payload = true
  ready  : dt = 5 ∨ dt = 7 ∨ dt = 8 → (s.ctx.images.any fun m => m.image == Machine.fld 0 2 payload && m.state == .ready) = true
  behind : s.ctx.pushesOf i ≠ []
  room   : (s.ctx.pushesOf i).length < 4
  table  : s.ctx.pushes.length < 8192

theorem State.PushJoins.moved {s : State} {i att dt : Nat} {payload : Bytes} (h : s.PushJoins i att dt payload) (b : State) :
    (s.moved b).PushJoins i att dt payload :=
  ⟨h.active, h.kind, h.len, h.tries, h.body, h.ready, h.behind, h.room, h.table⟩

section
variable {c : Com} {i id att dt : Nat} {payload : Bytes} (h0 : 0 < id) (hid : id < 0xF000) (hdt : dt < 256)
include h0 hid hdt

theorem cmdPush_joins (h : c.s.PushJoins i att dt payload) :
    c.cmdPush i (pushBody id att dt payload) = (0, c.ctx fun k => k.addPush (enteredPush i id att dt payload c.jsn c.stamp)) := by
  obtain ⟨fi, fa, fd, fp, -⟩ := pushBody_fields (att := att) (payload := payload) (show id < 65536 by omega) hdt
  obtain ⟨hactive, hkind, hlen, ⟨ha0, ha7⟩, hbody, hready, hbehind, hroom, htable⟩ := h
  have hchecks : ¬ (downLen dt ≠ some (payload.length + 4) ∨ att = 0 ∨ 7 < att ∨ downBodyOk dt payload = false ∨
      ((dt = 5 ∨ dt = 7 ∨ dt = 8) ∧ (c.s.ctx.images.any fun m => m.image == fld 0 2 payload && m.state == .ready) = false)) := by
    rintro (h | h | h | h | ⟨hk, h⟩)
    · exact h hlen
    · omega
    · omega
    · simp [hbody] at h
    · simp [hready hk] at h
  unfold Com.cmdPush
  simp only [fi, fa, fd, fp, Nat.mod_eq_of_lt (show att < 256 by omega)]
  rw [if_neg (by omega), if_neg (not_not.2 (show (c.slot i).state = .active from hactive)), if_neg hchecks, if_neg (by omega), if_neg (by omega), if_neg hkind]
  rfl

theorem cmdPush_notActive (h : (c.slot i).state ≠ .active) : c.cmdPush i (pushBody id att dt payload) = (10, c) := by
  obtain ⟨fi, -⟩ := pushBody_fields (att := att) (payload := payload) (show id < 65536 by omega) hdt
  unfold Com.cmdPush
  simp only [fi]
  rw [if_neg (by omega), if_pos h]

end

theorem command_push {i : Fin 131072} (c : Com) (e : Entry) (o : Origin) (body : Bytes) :
    c.command e o (givenCmd 0x40 (i + 131072) body) = (Status.ofCode (c.cmdPush i body).1, (c.cmdPush i body).2) :=
  congrArg (fun n => (Status.ofCode (c.cmdPush n body).1, (c.cmdPush n body).2)) (target_slot i.isLt)

theorem cmdFits_push {i : Fin 131072} {id att dt : Nat} {payload : Bytes} (hid : id < 65536) (hdt : dt < 256) :
    CmdFits 0x40 (i + 131072) (pushBody id att dt payload) := by
  obtain ⟨-, -, -, -, hl⟩ := pushBody_fields (att := att) (payload := payload) hid hdt
  exact cmdFits_slot i.isLt (by decide) (by rw [hl]; simp [cmdLenOk]) rfl rfl

section
variable {s : State} {src id att dt : Nat} {i : Fin 131072} {payload : Bytes} (g : s.Given src 0x40 (i + 131072) (pushBody id att dt payload))
  (hf : s.Fenced i) (hfault : (s.slot i).fault = false) (hsp : ∀ r ∈ s.erg.spilled, r.slot ≠ i) (h0 : 0 < id) (hid : id < 0xF000) (hdt : dt < 256)
include g hf hfault hsp h0 hid hdt

theorem push_joins (h : s.PushJoins i att dt payload) :
    Commanded s ((s.withCtx fun k => k.addPush (enteredPush i id att dt payload s.seq.nextJsn
        (s.givenStamp src 0x40 (i + 131072) (pushBody id att dt payload)))).stampSlot i s.seq.nextJsn)
      (s.giveCommand src 0x40 (i + 131072) (pushBody id att dt payload)) src 0x40 (i + 131072) (pushBody id att dt payload) 0 [] := by
  refine slot_commanded g (keysOf_slotCmd s src _ i.isLt _) (cmdFits_push (by omega) hdt) (by decide) hf hfault hsp (st := .ok) ⟨rfl, rfl⟩ (by simp)
    fun b => ?_
  rw [command_push, cmdPush_joins (c := s.givenCom (s.moved b) _ _ _ _ _) h0 hid hdt (h.moved b)]
  exact ⟨_, rfl, rfl, rfl, rfl, rfl⟩

theorem push_notActive (h : (s.slot i).state ≠ .active) :
    Commanded s (s.stampSlot i s.seq.nextJsn) (s.giveCommand src 0x40 (i + 131072) (pushBody id att dt payload)) src 0x40 (i + 131072)
      (pushBody id att dt payload) 10 [] := by
  refine slot_commanded g (keysOf_slotCmd s src _ i.isLt _) (cmdFits_push (by omega) hdt) (by decide) hf hfault hsp (st := .notActive) ⟨rfl, rfl⟩ (by simp)
    fun b => ?_
  rw [command_push, cmdPush_notActive (c := s.givenCom (s.moved b) _ _ _ _ _) h0 hid hdt h]
  exact ⟨_, rfl, rfl, rfl, rfl, rfl⟩

end

end Sys2Proof.Machine
end

section
/-! SUPPORT. Endpoint images: a block loaded, a range sent, an image deleted, and a block pumped (R437, R438). -/
namespace Sys2Proof.Machine

/-! ### A command under the CMD key -/

/-- A command under the CMD key that hands over outputs before its acknowledgement. -/
theorem cmd_commanded_outs {s : State} {src code : Nat} {body : Bytes} (g : s.Given src code 0 body) {u : State} {st : Status} {outs : List Output} (hc : 0x11 < code)
    (hc2 : code < 65536) (hl : cmdLenOk code body.length = some true) (h30 : code ≠ 0x30) (h40 : code ≠ 0x40)
    (hu : u.erg.outq = s.erg.outq ∧ u.boot.restartDue = false) (hcells : (outs.map Output.cells).foldl (· + ·) 0 ≤ 4096)
    (hrun : ∀ b, ∃ c1, (s.givenCom (s.moved b) (.sys 3) src code 0 body).command (s.givenEntry src code 0 body) (s.givenOrigin src code 0 body)
      (givenCmd code 0 body) = (st, c1) ∧ c1.s = u.moved b ∧ c1.outs = outs ∧ c1.wait = none ∧ c1.ojsn = s.seq.nextJsn) :
    Commanded s u (s.giveCommand src code 0 body) src code 0 body st.code outs := by
  refine given_commits g (keysOf_cmd s src code body hc2 (by omega) h30 (by omega)) (by rw [(given_code s src code 0 body hc2).1]; omega) rfl
    (fun b hb => ?_) hu
  obtain ⟨c1, hrun, hs, houts, hwait, hj⟩ := hrun b
  rw [← queued_moved g hb hc2 (by omega)] at hrun
  obtain ⟨o, hm, h6, ho, hd, hby, hce⟩ := mgmt_given g hb (cmdFits_unit hc2 hl (by omega) h40) hrun
  exact ⟨_, o, (runTask_command s b (.inr rfl) rfl).trans hm, hwait, by rw [← houts], h6, ho.trans hj, hd, hby, hce, hcells, hs⟩

/-! ### FW_LOAD -/

/-- FW_LOAD's body (R460). -/
def loadBody (image block : Nat) (data : Bytes) : Bytes := le 2 image ++ le 2 block ++ fit 128 data

theorem loadBody_fields {image block : Nat} {data : Bytes} (hi : image < 65536) (hb : block < 65536) :
    fld 0 2 (loadBody image block data) = image ∧ fld 2 2 (loadBody image block data) = block ∧
      sub 4 128 (loadBody image block data) = fit 128 data ∧ (loadBody image block data).length = 132 := by
  unfold loadBody
  simp only [List.append_assoc]
  refine ⟨?_, ?_, ?_, by simp⟩
  · rw [fld_le_append]
    omega
  · simp [fld_append_right]
    omega
  · simp only [sub_append_right, le_length, Nat.reduceLeDiff, Nat.reduceSub]
    simpa using sub_append_left (fit 128 data) [] 128 (fit_length 128 data)

/-- An image with one more block (R437). -/
def EpImage.loaded (m : EpImage) (block : Nat) (data : Bytes) : EpImage := { m with data := m.data ++ [(block, fit 128 data)] }

/-- A context in which image `n` is `m`. -/
def Ctx.putImage (k : Ctx) (n : Nat) (m : EpImage) : Ctx := { k with images := k.images.map fun x => if x.image == n then m else x }

/-- Whether an image holds all its blocks. -/
def EpImage.whole (m : EpImage) : Bool := decide (m.data.length = m.blocks)

/-- Whether an image's content has its digest. -/
def EpImage.good (m : EpImage) : Bool := Config.sha256 m.content == m.digest

/-- An image as a load leaves it: a whole one is READY or FAILED by its digest (R437). -/
def EpImage.judged (m : EpImage) : EpImage := if m.whole then { m with state := if m.good then .ready else .failed } else m

theorem loaded_whole {m : EpImage} {block : Nat} {data : Bytes} : (m.loaded block data).whole = decide (m.data.length + 1 = m.blocks) := by
  simp [EpImage.whole, EpImage.loaded]

section
variable {c : Com} {image block : Nat} {data : Bytes} {m : EpImage} (hi : image < 65536) (hb : block < 65536) (hm : c.s.ctx.image image = some m)
  (hblk : block < m.blocks) (hnew : (m.data.any fun p => p.1 == block) = false)
include hi hb hm hblk hnew

/-- A new block is stored, and an event follows where the image is whole and its digest wrong (R437). -/
theorem fwLoad_stores :
    c.fwLoad (loadBody image block data) = (.ok,
      if (m.loaded block data).whole && !(m.loaded block data).good then
        (c.ctx fun k => k.putImage image (m.loaded block data).judged).event 0x14 image
      else c.ctx fun k => k.putImage image (m.loaded block data).judged) := by
  obtain ⟨f0, f2, f4, -⟩ := loadBody_fields (data := data) hi hb
  unfold Com.fwLoad
  simp only [f0, f2, f4, hm]
  rw [if_neg (by omega), if_neg (by simp [hnew])]
  rfl

theorem fwLoad_part (hpart : m.data.length + 1 ≠ m.blocks) :
    c.fwLoad (loadBody image block data) = (.ok, c.ctx fun k => k.putImage image (m.loaded block data)) := by
  rw [fwLoad_stores hi hb hm hblk hnew]
  simp [EpImage.judged, loaded_whole, hpart]

variable (hfull : m.data.length + 1 = m.blocks)
include hfull

theorem fwLoad_ready (hdigest : Config.sha256 (m.loaded block data).content = m.digest) :
    c.fwLoad (loadBody image block data) = (.ok, c.ctx fun k => k.putImage image { m.loaded block data with state := .ready }) := by
  have hgood : (m.loaded block data).good = true := beq_iff_eq.2 hdigest
  rw [fwLoad_stores hi hb hm hblk hnew]
  simp [EpImage.judged, loaded_whole, hfull, hgood]

theorem fwLoad_failed (hdigest : Config.sha256 (m.loaded block data).content ≠ m.digest) :
    c.fwLoad (loadBody image block data) =
      (.ok, (c.ctx fun k => k.putImage image { m.loaded block data with state := .failed }).event 0x14 image) := by
  have hbad : (m.loaded block data).good = false := beq_eq_false_iff_ne.2 hdigest
  rw [fwLoad_stores hi hb hm hblk hnew]
  simp [EpImage.judged, loaded_whole, hfull, hbad]

end

section
variable {s : State} {src : Nat}

section
variable {image block : Nat} {data : Bytes} {m : EpImage} (g : s.Given src 0x42 0 (loadBody image block data)) (hi : image < 65536) (hb : block < 65536)
  (hm : s.ctx.image image = some m) (hblk : block < m.blocks) (hnew : (m.data.any fun p => p.1 == block) = false)
include g hi hb hm hblk hnew

theorem fwLoad_part_commanded (hpart : m.data.length + 1 ≠ m.blocks) :
    Commanded s (s.withCtx fun k => k.putImage image (m.loaded block data)) (s.giveCommand src 0x42 0 (loadBody image block data)) src 0x42 0
      (loadBody image block data) 0 [] := by
  obtain ⟨-, -, -, hl⟩ := loadBody_fields (data := data) hi hb
  refine cmd_commanded_outs g (st := .ok) (by decide) (by decide) (by rw [hl]; rfl) (by decide) (by decide) ⟨rfl, g.quiet.stays⟩ (by simp) fun b => ?_
  exact ⟨_, fwLoad_part (c := s.givenCom (s.moved b) _ _ _ _ _) hi hb hm hblk hnew hpart, rfl, rfl, rfl, rfl⟩

variable (hfull : m.data.length + 1 = m.blocks)
include hfull

theorem fwLoad_ready_commanded (hgood : Config.sha256 (m.loaded block data).content = m.digest) :
    Commanded s (s.withCtx fun k => k.putImage image { m.loaded block data with state := .ready }) (s.giveCommand src 0x42 0 (loadBody image block data))
      src 0x42 0 (loadBody image block data) 0 [] := by
  obtain ⟨-, -, -, hl⟩ := loadBody_fields (data := data) hi hb
  refine cmd_commanded_outs g (st := .ok) (by decide) (by decide) (by rw [hl]; rfl) (by decide) (by decide) ⟨rfl, g.quiet.stays⟩ (by simp) fun b => ?_
  exact ⟨_, fwLoad_ready (c := s.givenCom (s.moved b) _ _ _ _ _) hi hb hm hblk hnew hfull hgood, rfl, rfl, rfl, rfl⟩

theorem fwLoad_failed_commanded (hbad : Config.sha256 (m.loaded block data).content ≠ m.digest) :
    ∃ o, o.rtype = 8 ∧ o.ojsn = s.seq.nextJsn ∧ (o.bytes.drop 2).take 1 = le 1 0x14 ∧ (o.bytes.drop 4).take 4 = le 4 image ∧
      Commanded s (s.withCtx fun k => k.putImage image { m.loaded block data with state := .failed }) (s.giveCommand src 0x42 0 (loadBody image block data))
        src 0x42 0 (loadBody image block data) 0 [o] := by
  obtain ⟨-, -, -, hl⟩ := loadBody_fields (data := data) hi hb
  obtain ⟨c, hc⟩ : ∃ c, c = (s.givenCom s (.sys 3) src 0x42 0 (loadBody image block data)).ctx fun k =>
      k.putImage image { m.loaded block data with state := .failed } := ⟨_, rfl⟩
  obtain ⟨sev, rest, hrest, hevent⟩ := event_form c 0x14 image
  refine ⟨c.eventOut (eventBytes 0x14 sev image rest), rfl, by rw [hc]; rfl, eventBytes_class, eventBytes_arg, ?_⟩
  refine cmd_commanded_outs g (st := .ok) (by decide) (by decide) (by rw [hl]; rfl) (by decide) (by decide) ⟨rfl, g.quiet.stays⟩
    (by simp [eventOut_cells c hrest]) fun b => ?_
  have hrun := fwLoad_failed (c := s.givenCom (s.moved b) (.sys 3) src 0x42 0 (loadBody image block data)) hi hb hm hblk hnew hfull hbad
  have hmove : ((s.givenCom (s.moved b) (.sys 3) src 0x42 0 (loadBody image block data)).ctx fun k =>
      k.putImage image { m.loaded block data with state := .failed }).event 0x14 image = (c.event 0x14 image).moved b := by rw [hc]; rfl
  rw [hmove, hevent] at hrun
  exact ⟨_, hrun, by rw [hc]; rfl, by rw [hc]; rfl, by rw [hc]; rfl, by rw [hc]; rfl⟩

end

/-! ### FW_SEND -/

/-- FW_SEND's body, from the range that it hands over (R438, R460). -/
def Pump.sendBody (p : Pump) : Bytes := le 2 p.image ++ le 1 p.round ++ le 1 p.medium ++ le 2 p.first ++ le 2 p.last ++ le 1 p.ttl ++ le 3 0

/-- A range that FW_SEND may hand over, of an image with `n` blocks (R438). -/
structure Pump.Fits (p : Pump) (n : Nat) : Prop where
  image  : p.image < 65536
  round  : p.round < 256
  medium : p.medium ≤ 1
  order  : p.first ≤ p.last
  blocks : p.last < n
  last   : p.last < 65536
  ttl    : p.ttl ≤ 7

theorem Pump.sendBody_fields {p : Pump} {n : Nat} (h : p.Fits n) :
    fld 0 2 p.sendBody = p.image ∧ fld 2 1 p.sendBody = p.round ∧ fld 3 1 p.sendBody = p.medium ∧ fld 4 2 p.sendBody = p.first ∧
      fld 6 2 p.sendBody = p.last ∧ fld 8 1 p.sendBody = p.ttl := by
  obtain ⟨hi, hr, hm, ho, -, hl, ht⟩ := h
  unfold Pump.sendBody
  simp only [List.append_assoc]
  refine ⟨?_, ?_, ?_, ?_, ?_, ?_⟩
  · rw [fld_le_append]
    omega
  all_goals
    simp [fld_append_right]
    omega

/-- The ranges that wait at a medium's pump. -/
def Ctx.pumpsOf (k : Ctx) (medium : Nat) : List Pump := k.pumps.filter fun q => q.medium == medium

section
variable {c : Com} {p : Pump} {m : EpImage} (hp : p.Fits m.blocks) (hm : c.s.ctx.image p.image = some m) (hready : m.state = .ready)
include hp hm hready

/-- A range of a READY image goes to a pump that holds fewer than 4 (R438). -/
theorem fwSend_ok (hroom : (c.s.ctx.pumpsOf p.medium).length < 4) :
    c.fwSend p.sendBody = (.ok, c.ctx fun k => { k with pumps := k.pumps ++ [p] }) := by
  obtain ⟨f0, f2, f3, f4, f6, f8⟩ := Pump.sendBody_fields hp
  obtain ⟨-, -, hmed, ho, hl, -, ht⟩ := hp
  unfold Ctx.pumpsOf at hroom
  unfold Com.fwSend
  simp only [f0, f2, f3, f4, f6, f8, hm]
  rw [if_neg (by simp [hready]; omega), if_neg (by omega)]

theorem fwSend_busy (hfull : 4 ≤ (c.s.ctx.pumpsOf p.medium).length) : c.fwSend p.sendBody = (.pumpBusy, c) := by
  obtain ⟨f0, f2, f3, f4, f6, f8⟩ := Pump.sendBody_fields hp
  obtain ⟨-, -, hmed, ho, hl, -, ht⟩ := hp
  unfold Ctx.pumpsOf at hfull
  unfold Com.fwSend
  simp only [f0, f2, f3, f4, f6, f8, hm]
  rw [if_neg (by simp [hready]; omega), if_pos hfull]

end

section
variable {p : Pump} {m : EpImage} (g : s.Given src 0x43 0 p.sendBody) (hp : p.Fits m.blocks) (hm : s.ctx.image p.image = some m) (hready : m.state = .ready)
include g hp hm hready

theorem fwSend_commanded (hroom : (s.ctx.pumpsOf p.medium).length < 4) :
    Commanded s (s.withCtx fun k => { k with pumps := k.pumps ++ [p] }) (s.giveCommand src 0x43 0 p.sendBody) src 0x43 0 p.sendBody 0 [] := by
  refine cmd_commanded_outs g (st := .ok) (by decide) (by decide) rfl (by decide) (by decide) ⟨rfl, g.quiet.stays⟩ (by simp) fun b => ?_
  exact ⟨_, fwSend_ok (c := s.givenCom (s.moved b) _ _ _ _ _) hp hm hready hroom, rfl, rfl, rfl, rfl⟩

theorem fwSend_refused (hfull : 4 ≤ (s.ctx.pumpsOf p.medium).length) :
    Commanded s s (s.giveCommand src 0x43 0 p.sendBody) src 0x43 0 p.sendBody 15 [] := by
  refine cmd_commanded_outs g (st := .pumpBusy) (by decide) (by decide) rfl (by decide) (by decide) ⟨rfl, g.quiet.stays⟩ (by simp) fun b => ?_
  exact ⟨_, fwSend_busy (c := s.givenCom (s.moved b) _ _ _ _ _) hp hm hready hfull, rfl, rfl, rfl, rfl⟩

end

/-! ### FW_DELETE -/

/-- FW_DELETE's body (R460). -/
def deleteBody (image : Nat) : Bytes := le 2 image ++ le 2 0

theorem deleteBody_image {image : Nat} (hi : image < 65536) : fld 0 2 (deleteBody image) = image := by
  unfold deleteBody
  rw [fld_le_append]
  omega

/-- Whether a push names an image: FW_OFFER, FW_CHECK and FW_ACTIVATE do (R419). -/
def Ctx.imageNamed (k : Ctx) (n : Nat) : Bool := k.pushes.any fun p => (p.dtype == 5 || p.dtype == 7 || p.dtype == 8) && fld 0 2 p.body == n

/-- A context without an image and its ranges. -/
def Ctx.dropImage (k : Ctx) (n : Nat) : Ctx := { k with images := k.images.filter fun x => x.image ≠ n, pumps := k.pumps.filter fun q => q.image ≠ n }

section
variable {c : Com} {image : Nat} {m : EpImage} (hi : image < 65536) (hm : c.s.ctx.image image = some m)
include hi hm

theorem fwDelete_ok (hfree : c.s.ctx.imageNamed image = false) : c.fwDelete (deleteBody image) = (.ok, c.ctx fun k => k.dropImage image) := by
  unfold Ctx.imageNamed at hfree
  unfold Com.fwDelete
  simp only [deleteBody_image hi, hm]
  rw [if_neg (by simp), if_neg (by rw [hfree]; decide)]
  rfl

theorem fwDelete_named (hnamed : c.s.ctx.imageNamed image = true) : c.fwDelete (deleteBody image) = (.badState, c) := by
  unfold Ctx.imageNamed at hnamed
  unfold Com.fwDelete
  simp only [deleteBody_image hi, hm]
  rw [if_neg (by simp), if_pos hnamed]

end

section
variable {image : Nat} {m : EpImage} (g : s.Given src 0x44 0 (deleteBody image)) (hi : image < 65536) (hm : s.ctx.image image = some m)
include g hi hm

theorem fwDelete_commanded (hfree : s.ctx.imageNamed image = false) :
    Commanded s (s.withCtx fun k => k.dropImage image) (s.giveCommand src 0x44 0 (deleteBody image)) src 0x44 0 (deleteBody image) 0 [] := by
  refine cmd_commanded_outs g (st := .ok) (by decide) (by decide) rfl (by decide) (by decide) ⟨rfl, g.quiet.stays⟩ (by simp) fun b => ?_
  exact ⟨_, fwDelete_ok (c := s.givenCom (s.moved b) _ _ _ _ _) hi hm hfree, rfl, rfl, rfl, rfl⟩

theorem fwDelete_refused (hnamed : s.ctx.imageNamed image = true) :
    Commanded s s (s.giveCommand src 0x44 0 (deleteBody image)) src 0x44 0 (deleteBody image) 16 [] := by
  refine cmd_commanded_outs g (st := .badState) (by decide) (by decide) rfl (by decide) (by decide) ⟨rfl, g.quiet.stays⟩ (by simp) fun b => ?_
  exact ⟨_, fwDelete_named (c := s.givenCom (s.moved b) _ _ _ _ _) hi hm hnamed, rfl, rfl, rfl, rfl⟩

end

end

/-! ### The block pump -/

/-- The ranges that wait once the oldest range `p` of its medium has queued a block (R438). -/
def Ctx.pumpsPast (k : Ctx) (p : Pump) : List Pump :=
  if p.last ≤ p.first then k.pumps.erase p else { p with first := p.first + 1 } :: k.pumps.erase p

/-- With room in its MAC's ring, a pump's oldest range queues its next block there and moves on by one block (R438). -/
theorem fwBlockPump_queues {plc : Bool} {s : State} {p : Pump} {m : EpImage} {ring : Nat} {ws : List Word}
    (hp : s.ctx.pumps.find? (fun q => q.medium == (if plc then 1 else 0)) = some p) (hm : s.ctx.image p.image = some m)
    (hring : ring = if plc then 4 else 2) (hws : ws = s.blockPacket p m) (hdrv : s.sef.driver = true) (hen : (s.ring ring).en = true)
    (hst : (s.ring ring).stalled = false) (hroom : ws.length + 1 ≤ (s.ring ring).freeWords) :
    execFwBlockPump plc s = .next { s.ringPacket ring 2 ws with ctx := { s.ctx with pumps := s.ctx.pumpsPast p } } := by
  subst hring hws
  unfold execFwBlockPump
  simp only [hp, hm, hdrv, hen, hst, hroom, State.ringPacket_ctx]
  rfl

/-! ### The obligation -/

/-- Settles O35: PUSH by its slot's one task, the image commands by the CMD task, and the pump by the room in its MAC's ring. -/
theorem pushAndImageCommands : Obligations.PushAndImageCommands := by
  unfold Obligations.PushAndImageCommands
  refine ⟨?_, ?_, ?_, ?_, fun plc s p m ring ws => fwBlockPump_queues⟩
  · rintro src i id att dt payload body s rfl g hf h0 hid hfault hdt hsp
    have hgive : s.giveCommand src 0x40 (slotTarget i) (pushBody id att dt payload) = s.giveCommand src 0x40 (i + 131072) (pushBody id att dt payload) := by
      rw [slotTarget_eq i.isLt]
    exact ⟨_, congrArg Host.Outcome.next hgive, fun hactive hkind hlen ha0 ha7 hbody hready hbehind hroom htable =>
        push_joins g hf hfault hsp h0 hid hdt ⟨hactive, hkind, hlen, ⟨ha0, ha7⟩, hbody, hready, hbehind, hroom, htable⟩,
      push_notActive g hf hfault hsp h0 hid hdt⟩
  · rintro src image block data body content s m rfl g hi hb hm hblk hnew rfl
    exact ⟨_, rfl, fwLoad_part_commanded g hi hb hm hblk hnew, fwLoad_ready_commanded g hi hb hm hblk hnew, fwLoad_failed_commanded g hi hb hm hblk hnew⟩
  · rintro src image round med first last ttl body s m rfl g hi hr hmed ho hblk hl ht hm hready
    have hfit : (⟨image, round, med, first, last, ttl⟩ : Pump).Fits m.blocks := ⟨hi, hr, hmed, ho, hblk, hl, ht⟩
    exact ⟨_, rfl, fwSend_commanded g hfit hm hready, fwSend_refused g hfit hm hready⟩
  · intro src image s m g hi hm
    exact ⟨_, rfl, fwDelete_commanded g hi hm, fwDelete_refused g hi hm⟩

end Sys2Proof.Machine
end

section
/-! SUPPORT. Entry into the release stream: the order of the release queue, and what an output leaves as it enters (R445 to R449, R551). -/
namespace Sys2Proof.Machine

/-! ### The order of a sorted list -/

section
variable {α : Type} {lt : α → α → Bool}

/-- A list without an element that stands before one it follows. -/
def Sorted (lt : α → α → Bool) (l : List α) : Prop := l.Pairwise fun a b => lt b a = false

/-- An order in which what stands before a third stands before a second, or the second before the third (its negation is transitive). -/
def SplitsOrder (lt : α → α → Bool) : Prop := ∀ a b c, lt a c = true → lt a b = true ∨ lt b c = true

/-- No element stands both before and after another. -/
def AsymOrder (lt : α → α → Bool) : Prop := ∀ a b, lt a b = true → lt b a = false

theorem insertBy_sorted (hsplit : SplitsOrder lt) (hasym : AsymOrder lt) (x : α) {l : List α} (h : Sorted lt l) : Sorted lt (insertBy lt x l) := by
  induction l with
  | nil => exact List.pairwise_singleton _ _
  | cons y r ih =>
    obtain ⟨hy, hr⟩ := List.pairwise_cons.1 h
    unfold insertBy
    split
    · rename_i hxy
      refine List.pairwise_cons.2 ⟨fun z hz => ?_, h⟩
      rcases List.mem_cons.1 hz with rfl | hz
      · exact hasym _ _ hxy
      · by_contra hzx
        rcases hsplit z y x (by simpa using hzx) with hzy | hyx
        · rw [hy z hz] at hzy; cases hzy
        · rw [hasym _ _ hxy] at hyx; cases hyx
    · rename_i hxy
      refine List.pairwise_cons.2 ⟨fun z hz => ?_, ih hr⟩
      rcases List.mem_cons.1 ((insertBy_perm lt x r).mem_iff.1 hz) with rfl | hz
      · simpa using hxy
      · exact hy z hz

theorem sortBy_sorted (hsplit : SplitsOrder lt) (hasym : AsymOrder lt) (l : List α) : Sorted lt (sortBy lt l) := by
  induction l using List.reverseRecOn with
  | nil => exact List.Pairwise.nil
  | append_singleton l x ih =>
    have hsnoc : sortBy lt (l ++ [x]) = insertBy lt x (sortBy lt l) := by simp [sortBy]
    rw [hsnoc]
    exact insertBy_sorted hsplit hasym x ih

end

theorem outBefore_iff (a b : Output) : outBefore a b = true ↔
    a.ojsn < b.ojsn ∨ a.ojsn = b.ojsn ∧ (keyNum a.key < keyNum b.key ∨ keyNum a.key = keyNum b.key ∧ a.idx < b.idx) := by
  simp [outBefore, lexLt]

theorem outBefore_splits : SplitsOrder outBefore := by
  intro a b c
  simp only [outBefore_iff]
  omega

theorem outBefore_asym : AsymOrder outBefore := by
  intro a b
  rw [← Bool.not_eq_true (outBefore b a)]
  simp only [outBefore_iff]
  omega

/-! ### The output that may enter (R64, R446) -/

section
variable {s : State} {o : Output}

/-- The first numbered output is the first in stream order of those that the commit watermark has reached. -/
theorem numbered_head {v : Nat} {r : List (Nat × Output)} (h : s.numbered = (v, o) :: r) : o ∈ s.erg.outq ∧ o.ojsn ≤ s.cwm ∧
    ∀ p ∈ s.erg.outq, p.ojsn ≤ s.cwm → outBefore p o = false := by
  have hsorted := (sortBy_sorted outBefore_splits outBefore_asym s.erg.outq).filter fun o => decide (o.ojsn ≤ s.cwm)
  have hmem : ∀ p, p ∈ s.outOrder.filter (fun o => decide (o.ojsn ≤ s.cwm)) ↔ p ∈ s.erg.outq ∧ p.ojsn ≤ s.cwm := fun p => by
    simp [State.outOrder, (sortBy_perm outBefore s.erg.outq).mem_iff]
  unfold State.numbered at h
  cases hl : s.outOrder.filter fun o => decide (o.ojsn ≤ s.cwm) with
  | nil =>
    rw [hl] at h
    cases h
  | cons a l =>
    rw [hl] at h hmem
    unfold State.outOrder at hl
    rw [hl] at hsorted
    rw [List.zipIdx_cons, List.map_cons] at h
    obtain ⟨rfl, -⟩ := Prod.mk.inj (List.cons.inj h).1 |>.symm
    cases (List.cons.inj h).1
    obtain ⟨hq, hw⟩ := (hmem _).1 List.mem_cons_self
    refine ⟨hq, hw, fun p hp hpw => ?_⟩
    rcases List.mem_cons.1 ((hmem p).2 ⟨hp, hpw⟩) with rfl | hpl
    · by_contra hb
      exact hb (outBefore_asym _ _ (by simpa using hb))
    · exact (List.pairwise_cons.1 hsorted).1 p hpl

/-- What may enter is durable, and first in stream order of all that the commit watermark has reached. -/
theorem nextRelease_some (h : s.nextRelease = some o) : o ∈ s.erg.outq ∧ o.ojsn ≤ s.seq.durable ∧ o.dep ≤ s.seq.durable ∧ o.ojsn ≤ s.cwm ∧
    ∀ p ∈ s.erg.outq, p.ojsn ≤ s.cwm → outBefore p o = false := by
  unfold State.nextRelease at h
  cases hn : s.numbered with
  | nil =>
    rw [hn] at h
    cases h
  | cons x r =>
    obtain ⟨v, o'⟩ := x
    rw [hn] at h
    simp only [List.head?_cons, Bool.and_eq_true, decide_eq_true_eq] at h
    split at h
    · rename_i hok
      cases h
      obtain ⟨⟨⟨-, hj⟩, hd⟩, -⟩ := hok
      obtain ⟨hq, hw, hfirst⟩ := numbered_head hn
      exact ⟨hq, hj, hd, hw, hfirst⟩
    · cases h

/-! ### What an output leaves as it enters (R375, R413, R447 to R449, R497) -/

/-- An output has left the release queue: the votes on its VSN are done with, and the next one counts. -/
def State.outputLeft (s : State) (o : Output) : State :=
  { s with erg := { s.erg with outq := s.erg.outq.erase o },
           sef := { s.sef with votes := s.sef.votes.filter fun v => v ≠ s.ctx.nextVsn,
                               peerVotes := s.sef.peerVotes.filter (fun v => v.vsn ≠ s.ctx.nextVsn),
                               unsent := if s.triad && decide (s.sef.digestFrom ≤ s.ctx.nextVsn)
                                         then s.sef.unsent ++ [(s.ctx.nextVsn, o.digest)] else s.sef.unsent },
           ctx := { s.ctx with nextVsn := s.ctx.nextVsn + 1 } }

theorem enterOutput_eq : s.enterOutput o = match o.dest with
    | .stream =>
      { s.outputLeft o with
        ctx := { s.ctx with nextRsn := s.ctx.nextRsn + 1, nextVsn := s.ctx.nextVsn + 1 }
        obox := if s.ctx.nextRsn < s.ctx.acked then s.obox else s.obox ++ [{ rsn := s.ctx.nextRsn, rtype := o.rtype, bytes := o.bytes }] }
    | .down => if s.sef.driver then (s.outputLeft o).ringPacket o.rtype 1 (toWs o.bytes) else s.outputLeft o
    | .ctl => (s.outputLeft o).ctlRelease o.rtype (fld 0 8 o.bytes) := rfl

theorem enterOutput_stream (hd : o.dest = .stream) : (s.enterOutput o).erg.outq = s.erg.outq.erase o ∧
    (s.enterOutput o).obox = (if s.ctx.nextRsn < s.ctx.acked then s.obox else s.obox ++ [{ rsn := s.ctx.nextRsn, rtype := o.rtype, bytes := o.bytes }]) ∧
    s.enterOutput o = { s with erg := { s.erg with outq := s.erg.outq.erase o }, sef := (s.enterOutput o).sef, obox := (s.enterOutput o).obox,
                               ctx := { s.ctx with nextRsn := s.ctx.nextRsn + 1, nextVsn := s.ctx.nextVsn + 1 } } := by
  rw [enterOutput_eq, hd]
  exact ⟨rfl, rfl, rfl⟩

/-! ### What waits for a release, and what the log takes of it (R551, R592) -/

theorem logRecord_sec (b : Bytes) : (s.logRecord b).sec = s.sec := by
  unfold State.logRecord
  dsimp only
  split
  · rfl
  · split
    · rfl
    · exact State.irq_sec _ _ _

theorem closeFold_sec : s.closeFold.sec = s.sec := by
  unfold State.closeFold
  split
  · rfl
  · extract_lets
    split
    · rfl
    · exact logRecord_sec _

theorem logReleased_sec (b : Bytes) : (s.logReleased b).sec = s.sec := by
  unfold State.logReleased
  split
  · exact (logRecord_sec b).trans closeFold_sec
  · rfl

theorem ctlRelease_sec (n at_ : Nat) : (s.ctlRelease n at_).sec = s.sec := by
  unfold State.ctlRelease
  extract_lets
  split
  · exact (State.event_sec _ _ _ _ _).trans (State.irq_sec _ _ _)
  · rfl

theorem enterOutput_sec : (s.enterOutput o).sec = s.sec := by
  rw [enterOutput_eq]
  split
  · rfl
  · split
    · exact State.ringPacket_sec _ _ _ _
    · rfl
  · exact ctlRelease_sec _ _

/-- What is released: the output enters, and an event's record goes to the log. -/
def State.letOut (s : State) (o : Output) : State := if o.dest = .stream ∧ o.rtype = 8 then (s.enterOutput o).logReleased o.bytes else s.enterOutput o

theorem letOut_sec : (s.letOut o).sec = s.sec := by
  unfold State.letOut
  split
  · exact (logReleased_sec _).trans enterOutput_sec
  · exact enterOutput_sec

theorem letOut_plain (h : o.rtype ≠ 8 ∨ s.bitOf rEvrCtl 0 = false) (hd : o.dest = .stream) : s.letOut o = s.enterOutput o := by
  unfold State.letOut
  split
  · rename_i h8
    have hoff : (s.enterOutput o).bitOf rEvrCtl 0 = false := by
      obtain ⟨-, -, hform⟩ := enterOutput_stream (s := s) hd
      rw [hform]
      exact h.resolve_left (fun h => h h8.2)
    unfold State.logReleased
    rw [if_neg (by simp [hoff])]
  · rfl

/-! ### RELEASE_ENTER -/

section
variable (h : s.nextRelease = some o)
include h

theorem exec_releaseEnter_full (hd : o.dest = .stream) (hf : s.oboxFull = true) : exec .releaseEnter s = .next (s.irq rNetIrq 1) := by
  show execReleaseEnter s = _
  unfold execReleaseEnter
  rw [h]
  exact if_pos ⟨hd, hf⟩

variable (hroom : o.dest = .stream → s.oboxFull = false)
include hroom

theorem exec_releaseEnter_releases (hp : s.sec.lcPend = none) : exec .releaseEnter s = .next (s.letOut o) := by
  have hsec : (if o.dest = .stream ∧ o.rtype = 8 then (s.enterOutput o).logReleased o.bytes else s.enterOutput o).sec = s.sec := letOut_sec
  show execReleaseEnter s = _
  unfold execReleaseEnter
  rw [h]
  dsimp only
  rw [if_neg (fun hc => by rw [hroom hc.1] at hc; cases hc.2), hsec, hp]
  rfl

/-- The acknowledgement that a life-cycle transition waits for lets it run (R551). -/
theorem exec_releaseEnter_transition {p : LcPend} (hp : s.sec.lcPend = some p) (hc : o.dest = .stream ∧ o.rtype = 6 ∧ o.ojsn = p.ack) :
    exec .releaseEnter s = .next ((s.letOut o).transitionWhen p.dst) := by
  have hsec : (if o.dest = .stream ∧ o.rtype = 8 then (s.enterOutput o).logReleased o.bytes else s.enterOutput o).sec = s.sec := letOut_sec
  show execReleaseEnter s = _
  unfold execReleaseEnter
  rw [h]
  dsimp only
  rw [if_neg (fun hc => by rw [hroom hc.1] at hc; cases hc.2), hsec, hp]
  exact if_pos hc

end

end

/-- Settles O39: what may enter by the order of the release queue, and what enters by its destination and its record type. -/
theorem onlyTheFirstDurableOutputEnters : Obligations.OnlyTheFirstDurableOutputEnters := by
  unfold Obligations.OnlyTheFirstDurableOutputEnters
  refine ⟨fun s o h => nextRelease_some h, fun s o h hd hf hlog hp => ?_, fun s o h hd hf h8 hon hp => ?_, fun s o h hd hp => ?_,
    fun s o h hd hf => exec_releaseEnter_full h hd hf, fun s o p h hd h6 hf hp hack => ?_, fun s h => ?_⟩
  · obtain ⟨hq, hobox, hform⟩ := enterOutput_stream (s := s) hd
    refine ⟨s.enterOutput o, ?_, hq, hobox, ?_⟩
    · rw [exec_releaseEnter_releases h (fun _ => hf) hp, letOut_plain hlog hd]
    · rw [hq]
      exact hform
  · obtain ⟨-, hobox, hform⟩ := enterOutput_stream (s := s) hd
    refine ⟨s.enterOutput o, ?_, by rw [hobox, h8], hform⟩
    rw [exec_releaseEnter_releases h (fun _ => hf) hp]
    exact congrArg Host.Outcome.next (if_pos ⟨hd, h8⟩)
  · have hrun : exec .releaseEnter s = .next (s.enterOutput o) := by
      rw [exec_releaseEnter_releases h (fun hc => absurd hc hd) hp]
      exact congrArg Host.Outcome.next (if_neg fun hc => hd hc.1)
    rw [hrun, enterOutput_eq]
    refine ⟨s.outputLeft o, rfl, fun hdn hdrv => ?_, fun hdn hdrv => ?_, fun hc => by rw [hc]⟩
    · rw [hdn, hdrv]
      rfl
    · rw [hdn, hdrv]
      rfl
  · obtain ⟨-, -, hform⟩ := enterOutput_stream (s := s) hd
    refine ⟨s.enterOutput o, ?_, by rw [hform], enterOutput_sec⟩
    rw [exec_releaseEnter_transition h (fun _ => hf) hp ⟨hd, h6, hack⟩, letOut_plain (.inl (by omega)) hd]
  · show execReleaseEnter s = _
    unfold execReleaseEnter
    rw [h]

end Sys2Proof.Machine
end

section
/-! SUPPORT. Batches: what the device port's sending leaves, the window of each stream, its timer, and the BACK of a durable batch (R442, R450 to R455, R464, R518). -/
namespace Sys2Proof.Machine

/-! ### What leaves through Q6 (R442, R453, R466) -/

/-- From `s` to `t` only the rings with their words, QF_IRQ, an answer that waits on a ring and what was sent may differ. -/
structure SendsOut (s t : State) : Prop where
  form : t = { s with regs := t.regs, rings := t.rings, wram := t.wram, reply := t.reply, emitted := t.emitted }
  regs : SameRegs s t [rQfIrq]

theorem SendsOut.refl (s : State) : SendsOut s s := ⟨rfl, .refl s _⟩

theorem SendsOut.trans {a b c : State} (h : SendsOut a b) (k : SendsOut b c) : SendsOut a c := by
  refine ⟨?_, h.regs.trans k.regs⟩
  rw [k.form, h.form]

theorem SendsOut.of_ring {s t : State} (h : RingFrame s t) (k : SameRegs s t [rQfIrq]) : SendsOut s t := by
  refine ⟨?_, k⟩
  unfold RingFrame at h
  rw [h]

theorem emit_sendsOut (s : State) (e : Emission) : SendsOut s (s.emit e) := ⟨rfl, .of_regs rfl _⟩

theorem q6Drain_sendsOut (k : Nat) (s : State) : SendsOut s (State.q6Drain k s) := by
  induction k generalizing s with
  | zero => exact .refl s
  | succ k ih =>
    unfold State.q6Drain
    split
    · have htake : SendsOut s (s.ringTake 6).2 := ⟨by rw [ringTake_frame], .of_regs (ringTake_regs s 6) _⟩
      split
      · rename_i h
        rw [h] at htake
        exact (htake.trans (emit_sendsOut _ _)).trans ((SendsOut.of_ring (ringFeed_frame _ _ _) (ringFeed_sameRegs _ _ _)).trans (ih _))
      · exact .refl s
    · exact .refl s

theorem sendDgram_sendsOut (s : State) (dst : Option (Nat × Nat)) (b : Bytes) : SendsOut s (s.sendDgram dst b) :=
  (SendsOut.of_ring (s.ringPacket_frame _ _ _) (ringPacket_sameRegs s _ _ _)).trans (q6Drain_sendsOut _ _)

/-! ### A BATCH (R450, R451, R518) -/

/-- From `s` to `t` U2H's counter may differ too, with what counts a generation's end. -/
structure SendsBatch (s t : State) : Prop where
  form : t = { s with regs := t.regs, rings := t.rings, wram := t.wram, reply := t.reply, emitted := t.emitted,
                      sec := { s.sec with u2hGen := t.sec.u2hGen, u2hCtr := t.sec.u2hCtr, u2hMark := t.sec.u2hMark } }
  regs : SameRegs s t [rQfIrq, rCphExhcnt, rCphIrq]

theorem u2hNext_sendsBatch (s : State) : SendsBatch s s.u2hNext.2 := by
  unfold State.u2hNext
  dsimp only
  split
  · refine ⟨?_, ?_⟩
    · rw [State.irq_eq]
      rfl
    · exact ((SameRegs.of_regs rfl _).trans (setReg_sameRegs _ (by simp) _)).trans (irq_sameRegs _ (by simp) _)
  · exact ⟨rfl, .of_regs rfl _⟩

theorem sendBatch_sendsBatch (s : State) (diag : Bool) (first count session : Nat) (body : Bytes) :
    SendsBatch s (s.sendBatch diag first count session body) := by
  have hnext := u2hNext_sendsBatch s
  have hsend : SendsOut s.u2hNext.2 (s.sendBatch diag first count session body) := sendDgram_sendsOut _ _ _
  refine ⟨?_, hnext.regs.trans (hsend.regs.weaken (by simp))⟩
  rw [hsend.form, hnext.form]

/-! ### BATCH_SEND (R453, R455) -/

section
variable {s : State} {n k from_ : Nat} {body : Bytes}

/-- The state that counts a resend (R453). -/
def State.resend (s : State) (again : Bool) : State := if again then s.count rNetRetx 1 else s

theorem resend_form (again : Bool) : s.resend again = { s with regs := (s.resend again).regs } := by
  unfold State.resend
  split <;> rfl

theorem reg_resend (h : swf regReset s.regs = true) (again : Bool) :
    (s.resend again).reg rNetRetx = if again then min 4294967295 (s.reg rNetRetx + 1) else s.reg rNetRetx := by
  unfold State.resend
  split
  · exact State.reg_count h _ _
  · rfl

/-- The release stream's window with a batch more in flight. -/
def State.batchGone (s : State) (from_ k : Nat) : State :=
  s.setNet fun x => { x with sentTo := from_ + k, sentMax := max x.sentMax (from_ + k), rtoFrom := if x.sent.isEmpty then s.t else x.rtoFrom,
                             sent := x.sent ++ [{ first := from_, count := k }] }

/-- The diagnostic stream's window with a batch more in flight. -/
def State.diagGone (s : State) (from_ k : Nat) : State :=
  s.setNet fun x => { x with diagSent := from_ + k, diagMax := max x.diagMax (from_ + k), rtoDiag := if x.sentDiag.isEmpty then s.t else x.rtoDiag,
                             sentDiag := x.sentDiag ++ [{ first := from_, count := k }] }

section
variable (htx : s.netTx = true) (hkey : s.sysKey.isSome = true) (hk : 0 < k)
include htx hkey hk

theorem exec_batchSend (hfrom : from_ = max s.net.sentTo s.ctx.acked)
    (hpack : packBatch (min n 255) [] ((s.obox.filter fun r => decide (from_ ≤ r.rsn)).map fun r => (r.rtype, r.bytes)) = (k, body))
    (hwin : s.net.sent.length < s.fld rNetWin 8 0) :
    exec (.batchSend false n) s = .next (((s.resend (decide (from_ < s.net.sentMax))).batchGone from_ k).sendBatch false from_ k 0 body) := by
  subst hfrom
  show execBatchSend false n s = _
  unfold execBatchSend
  rw [if_pos (by simp [htx, hkey]), if_neg (by simp)]
  dsimp only
  rw [hpack]
  dsimp only
  rw [if_neg (by omega)]
  unfold State.resend
  by_cases h : max s.net.sentTo s.ctx.acked < s.net.sentMax
  · simp only [h, if_true, decide_true]
    rfl
  · simp only [h, if_false, decide_false]
    rfl

theorem exec_batchSend_diag (hfrom : from_ = max s.net.diagSent s.net.diagAck)
    (hpack : packBatch (min n 255) [] ((s.net.diag.filter fun r => decide (from_ ≤ r.esn)).map fun r => (r.rtype, r.bytes)) = (k, body))
    (hwin : s.net.sentDiag.length < s.fld rNetWin 8 0) :
    exec (.batchSend true n) s = .next (((s.resend (decide (from_ < s.net.diagMax))).diagGone from_ k).sendBatch true from_ k s.net.session body) := by
  subst hfrom
  show execBatchSend true n s = _
  unfold execBatchSend
  rw [if_pos (by simp [htx, hkey]), if_pos rfl]
  dsimp only
  rw [hpack]
  dsimp only
  rw [if_neg (by omega)]
  unfold State.resend
  by_cases h : max s.net.diagSent s.net.diagAck < s.net.diagMax
  · simp only [h, if_true, decide_true]
    rfl
  · simp only [h, if_false, decide_false]
    rfl

end

/-- With the window full nothing is sent. -/
theorem exec_batchSend_full {diag : Bool} (htx : s.netTx = true) (hwin : s.fld rNetWin 8 0 ≤ if diag then s.net.sentDiag.length else s.net.sent.length) :
    exec (.batchSend diag n) s = .next s := by
  show execBatchSend diag n s = _
  unfold execBatchSend
  cases hkey : s.sysKey.isSome with
  | false => rw [if_neg (by simp)]
  | true =>
    rw [if_pos (by simp [htx])]
    cases diag with
    | false => exact if_pos (Or.inr hwin)
    | true => exact if_pos (Or.inr hwin)

end

/-! ### BATCH_RTO and HEAD_BACK_SEND (R453, R464) -/

section
variable {s s1 : State}

theorem exec_batchRto (h : s.net.sent ≠ []) (h1 : s1 = s.until (s.net.rtoFrom + s.fld rNetWin 31 16 * 268435456 / 1000)) :
    exec (.batchRto false) s = .next { s1 with net := { s1.net with sentTo := s.ctx.acked, sent := [], rtoFrom := s1.t } } := by
  have hack : s1.ctx.acked = s.ctx.acked := by rw [h1, State.until_ctx]
  show execBatchRto false s = _
  unfold execBatchRto
  dsimp only
  rw [if_neg (by simp), if_neg (by simp [h])]
  subst h1
  rw [← hack]
  rfl

theorem exec_batchRto_diag (h : s.net.sentDiag ≠ []) (h1 : s1 = s.until (s.net.rtoDiag + s.fld rNetWin 31 16 * 268435456 / 1000)) :
    exec (.batchRto true) s = .next { s1 with net := { s1.net with diagSent := s.net.diagAck, sentDiag := [], rtoDiag := s1.t } } := by
  have hack : s1.net.diagAck = s.net.diagAck := by rw [h1, State.until_net]
  show execBatchRto true s = _
  unfold execBatchRto
  dsimp only
  rw [if_pos rfl, if_neg (by simp [h])]
  subst h1
  rw [← hack]
  rfl

/-- The counter of the next BACK to a unit. -/
def Net.backNext (n : Net) (sysaddr : Nat) : Nat := match n.backCtr.find? fun x => x.1 == sysaddr with | some x => x.2 + 1 | none => 1

/-- The header of an owed BACK. -/
def BackPend.dgram (b : BackPend) (ctr : Nat) : Dgram :=
  { dtype := 2, stream := if b.diag then 1 else 0, sysaddr := b.sysaddr, keyId := keyIdOf 2 0, ctr := ctr, first := b.first,
    session := if b.diag then b.session else 0 }

/-- The state that owes a BACK no more. -/
def State.backPaid (s : State) (b : BackPend) : State :=
  s.setNet fun n => { n with backs := n.backs.erase b, backCtr := (n.backCtr.filter fun x => x.1 ≠ b.sysaddr) ++ [(b.sysaddr, s.net.backNext b.sysaddr)] }

theorem exec_headBackSend {b : BackPend} {a : Nat × Nat} (h : (s.net.backs.find? fun b => decide (b.jsn ≤ s.seq.durable)) = some b)
    (htx : s.netTx = true) (ha : b.dst = some a) : exec .headBackSend s =
      .next ((s.backPaid b).sendDgram (some a) (sealDgram (h2u s.sys b.sysaddr 0) (b.dgram (s.net.backNext b.sysaddr)) [])) := by
  show execHeadBackSend s = _
  unfold execHeadBackSend
  rw [h]
  dsimp only
  rw [if_pos htx, ha]
  rfl

theorem exec_headBackSend_none (h : ∀ b ∈ s.net.backs, s.seq.durable < b.jsn) : exec .headBackSend s = .next s := by
  have hnone : (s.net.backs.find? fun b => decide (b.jsn ≤ s.seq.durable)) = none :=
    List.find?_eq_none.2 fun b hb => by simpa using h b hb
  show execHeadBackSend s = _
  unfold execHeadBackSend
  rw [hnone]

end

/-- Settles O40: the batch of each stream, a full window, each stream's timer, and the BACK of the first durable batch. -/
theorem batchesGoOutWithinTheWindow : Obligations.BatchesGoOutWithinTheWindow := by
  unfold Obligations.BatchesGoOutWithinTheWindow
  refine ⟨fun n k from_ body s hinv htx hkey hfrom hpack hk hwin => ?_, fun diag n s htx hwin => exec_batchSend_full htx hwin,
    fun n k from_ body s htx hkey hfrom hpack hk hwin => ?_, fun s s1 h h1 => exec_batchRto h h1, fun s s1 h h1 => exec_batchRto_diag h h1,
    fun s b a h htx ha => ?_, fun s h => exec_headBackSend_none h⟩
  · have hsent := sendBatch_sendsBatch ((s.resend (decide (from_ < s.net.sentMax))).batchGone from_ k) false from_ k 0 body
    have hre := resend_form (s := s) (decide (from_ < s.net.sentMax))
    refine ⟨_, exec_batchSend htx hkey hk hfrom hpack hwin, ?_, ?_, ?_, ?_, ?_⟩
    · rw [hsent.form, hre]
      rfl
    · rw [hsent.form, hre]
      rfl
    · rw [hsent.form, hre]
      rfl
    · rw [hsent.regs rNetRetx (by decide)]
      show (s.resend _).reg rNetRetx = _
      rw [reg_resend hinv.1]
      simp only [decide_eq_true_eq]
    · rw [hsent.form, hre]
      rfl
  · have hsent := sendBatch_sendsBatch ((s.resend (decide (from_ < s.net.diagMax))).diagGone from_ k) true from_ k s.net.session body
    have hre := resend_form (s := s) (decide (from_ < s.net.diagMax))
    refine ⟨_, exec_batchSend_diag htx hkey hk hfrom hpack hwin, ?_, ?_, ?_, ?_, ?_⟩
    all_goals
      rw [hsent.form, hre]
      rfl
  · refine ⟨s.backPaid b, b.dgram (s.net.backNext b.sysaddr), exec_headBackSend h htx ha, rfl, rfl, rfl, fun hd => ?_, fun hd => ?_, rfl, rfl⟩
    · exact ⟨if_neg (by simp [hd]), if_neg (by simp [hd])⟩
    · exact ⟨if_pos hd, if_pos hd⟩

end Sys2Proof.Machine
end

section
/-! SUPPORT. The bridge and its ports: what the bridge learns, where a frame goes, an idle egress, a port's link and the ageing of addresses (R439 to R441). -/
namespace Sys2Proof.Machine

/-! ### Ports -/

section
variable {s : State} {n : Nat} {p : NetPort}

theorem setPort_of_some (h : s.net.ports[n]? = some p) (f : NetPort → NetPort) :
    s.setPort n f = { s with net := { s.net with ports := s.net.ports.set n (f p) } } := by
  unfold State.setPort State.setNet
  dsimp only
  rw [h]

theorem ports_set_self (h : s.net.ports[n]? = some p) (q : NetPort) : (s.net.ports.set n q)[n]? = some q :=
  List.getElem?_set_self (List.getElem?_eq_some_iff.1 h).1

/-! ### An idle egress (R440, R466) -/

/-- A port as a frame of `len` bytes begins on it. -/
def NetPort.begun (p : NetPort) (now len : Nat) : NetPort :=
  { p with queue := (p.queue.filter fun x => decide (now < x.1)) ++ [(now, len + 4)], busyTo := now + p.frameTime len }

/-- The state in which a frame has begun on a port. -/
def State.begun (s : State) (n : Nat) (p : NetPort) (f : EthFrame) : State :=
  { s with net := { s.net with ports := s.net.ports.set n (p.begun s.t f.bytes.length) }, emitted := s.emitted ++ [.eth n f.ok f.bytes] }

theorem egress_idle (h : s.net.ports[n]? = some p) (hpaused : p.pausedUntil ≤ s.t) (hbusy : p.busyTo ≤ s.t) (f : EthFrame) :
    s.egress n f = s.begun n p f := by
  have hp : s.portPaused n = false := by
    unfold State.portPaused
    rw [h]
    exact decide_eq_false (Nat.not_lt.2 hpaused)
  have hb : decide (s.t < p.busyTo) = false := decide_eq_false (Nat.not_lt.2 hbusy)
  have hat : p.startAt s.t = s.t := Nat.max_eq_left hbusy
  unfold State.egress
  rw [h]
  dsimp only
  rw [hp, hb, hat, if_neg (by simp), if_neg (by simp), setPort_of_some h]
  rfl

end

/-! ### Learning (R440) -/

section
variable {s : State} {mac port : Nat}

/-- The addresses in use but one. -/
def State.liveBut (s : State) (mac : Nat) : List BridgeEnt := s.bridgeLive.filter fun e => e.mac ≠ mac

theorem learn_eq (hg : isGroup mac = false) (hroom : (s.liveBut mac).length < 1024) :
    s.learn mac port = { s with net := { s.net with table := s.liveBut mac ++ [{ mac := mac, port := port, at_ := s.t }] } } := by
  unfold State.liveBut at *
  unfold State.learn
  dsimp only
  rw [if_neg (by simpa [hg] using hroom)]
  rfl

theorem learn_form (s : State) (mac port : Nat) : s.learn mac port = { s with net := { s.net with table := (s.learn mac port).net.table } } := by
  unfold State.learn
  dsimp only
  split <;> rfl

/-- The table with a new address holds nothing that has aged. -/
theorem bridgeLive_learnt {t : State} (ht : t.t = s.t) (htable : t.net.table = s.liveBut mac ++ [{ mac := mac, port := port, at_ := s.t }]) :
    t.bridgeLive = t.net.table := by
  unfold State.bridgeLive
  rw [htable, ht, List.filter_eq_self]
  intro e he
  rcases List.mem_append.1 he with he | he
  · exact (List.mem_filter.1 (List.mem_filter.1 he).1).2
  · obtain rfl := List.mem_singleton.1 he
    refine decide_eq_true ?_
    show s.t < s.t + 300 * second
    unfold second
    omega

/-- Learning an address leaves what is known of another. -/
theorem learn_find_other {dst : Nat} (h : mac ≠ dst) :
    (s.learn mac port).bridgeLive.find? (fun e => e.mac == dst) = s.bridgeLive.find? fun e => e.mac == dst := by
  by_cases hl : isGroup mac = true ∨ 1024 ≤ (s.liveBut mac).length
  · have hsame : s.learn mac port = s := if_pos hl
    rw [hsame]
  · obtain ⟨hg, hroom⟩ := not_or.1 hl
    have hlearn := learn_eq (s := s) (mac := mac) (port := port) (by simpa using hg) (by omega)
    rw [bridgeLive_learnt (s := s) (mac := mac) (port := port) (by rw [hlearn]) (by rw [hlearn]), hlearn]
    unfold State.liveBut
    have hnew : ([{ mac := mac, port := port, at_ := s.t }] : List BridgeEnt).find? (fun e => e.mac == dst) = none := by simp [h]
    rw [List.find?_append, hnew, Option.or_none, List.find?_filter]
    refine congrArg (List.find? · s.bridgeLive) (funext fun e => ?_)
    by_cases he : e.mac = dst
    · simp [he, h.symm]
    · simp [he]

theorem find_unknown {dst : Nat} (h : ∀ e ∈ s.net.table, e.mac ≠ dst) : s.bridgeLive.find? (fun e => e.mac == dst) = none :=
  List.find?_eq_none.2 fun e he => by simpa using h e (List.mem_filter.1 he).1

end

/-! ### Forwarding (R440, R443, R480) -/

section
variable {s : State} {port : Fin 2} {dst : Nat} {e : BridgeEnt}

theorem bridgePorts_flood (hup : s.portUp (1 - port.val) = true) (h : isGroup dst = true ∨ s.bridgeLive.find? (fun e => e.mac == dst) = none) :
    s.bridgePorts port.val dst = [1 - port.val, 2] := by
  have hall : (List.range 3).filter (fun n => n ≠ port.val && (n == 2 || s.portUp n)) = [1 - port.val, 2] := by
    obtain rfl | rfl : port = 0 ∨ port = 1 := by omega
    · have hup1 : s.portUp 1 = true := hup
      simp [List.range_succ, List.filter, hup1]
    · have hup0 : s.portUp 0 = true := hup
      simp [List.range_succ, List.filter, hup0]
  unfold State.bridgePorts
  dsimp only
  rw [hall]
  rcases h with h | h
  · rw [if_pos h]
  · rw [h]
    split <;> rfl

theorem bridgePorts_across (hup : s.portUp (1 - port.val) = true) (hg : isGroup dst = false) (h : s.bridgeLive.find? (fun e => e.mac == dst) = some e)
    (he : e.port = 1 - port.val) (hmac : dst ≠ s.mac) : s.bridgePorts port.val dst = [1 - port.val] := by
  unfold State.bridgePorts
  dsimp only
  rw [if_neg (by simp [hg]), h]
  dsimp only
  rw [he]
  have hm : (dst == s.mac) = false := beq_eq_false_iff_ne.2 hmac
  obtain rfl | rfl : port = 0 ∨ port = 1 := by omega
  · have hup1 : s.portUp 1 = true := hup
    simp [List.range_succ, List.filter, hup1, hm]
  · have hup0 : s.portUp 0 = true := hup
    simp [List.range_succ, List.filter, hup0, hm]

theorem bridgePorts_device (hg : isGroup dst = false) (h : s.bridgeLive.find? (fun e => e.mac == dst) = some e) (he : e.port = 2) :
    s.bridgePorts port.val dst = [2] := by
  unfold State.bridgePorts
  dsimp only
  rw [if_neg (by simp [hg]), h]
  dsimp only
  rw [he]
  obtain rfl | rfl : port = 0 ∨ port = 1 := by omega
  · cases h1 : s.portUp 1 <;> simp [List.range_succ, List.filter, h1]
  · cases h0 : s.portUp 0 <;> simp [List.range_succ, List.filter, h0]

/-- A frame with a valid FCS is given to the device port. -/
def State.devGiven (s : State) (f : EthFrame) : State :=
  { s with net := { s.net with devIn := s.net.devIn ++ if f.ok then [(s.dev, f.bytes)] else [] } }

theorem devGiven_eq (s : State) (f : EthFrame) : (if f.ok then s.setNet fun x => { x with devIn := x.devIn ++ [(s.dev, f.bytes)] } else s) = s.devGiven f := by
  unfold State.devGiven
  cases f.ok with
  | true => rfl
  | false => simp

theorem transparent_off (h : s.bitOf rTimCtl 2 = false) (ingress wait : Nat) (b : Bytes) : s.transparent ingress wait b = (b, s) := by
  unfold State.transparent
  rw [h]
  rfl

theorem forward_device {f : EthFrame} (h : s.bridgePorts port.val (ethDst f.bytes) = [2]) : s.forward port.val f = s.devGiven f := by
  unfold State.forward
  rw [h, List.foldl_cons, List.foldl_nil, if_pos rfl, devGiven_eq]

section
variable {f : EthFrame} {p : NetPort} (hone : s.bitOf rTimCtl 2 = false) (hp : s.net.ports[1 - port.val]? = some p) (hpaused : p.pausedUntil ≤ s.t)
  (hbusy : p.busyTo ≤ s.t)
include hone hp hpaused hbusy

theorem forward_across (h : s.bridgePorts port.val (ethDst f.bytes) = [1 - port.val]) : s.forward port.val f = s.begun (1 - port.val) p f := by
  unfold State.forward
  rw [h, List.foldl_cons, List.foldl_nil, if_neg (by omega)]
  dsimp only
  rw [transparent_off hone]
  exact egress_idle hp hpaused hbusy f

theorem forward_flood (h : s.bridgePorts port.val (ethDst f.bytes) = [1 - port.val, 2]) :
    s.forward port.val f = (s.begun (1 - port.val) p f).devGiven f := by
  unfold State.forward
  rw [h, List.foldl_cons, List.foldl_cons, List.foldl_nil, if_neg (show ¬ 1 - port.val = 2 by omega)]
  dsimp only
  rw [transparent_off hone]
  have hgo : s.egress (1 - port.val) { f with bytes := f.bytes } = s.begun (1 - port.val) p f := egress_idle hp hpaused hbusy f
  rw [hgo, if_pos rfl, devGiven_eq]

end

end

end Sys2Proof.Machine
end

section
/-! SUPPORT. A frame on a port, a port's link, the ageing of addresses, and PAUSE in both directions (R439, R440, R465, R466). -/
namespace Sys2Proof.Machine

/-! ### BRIDGE_FRAME -/

section
variable {s s1 : State} {dt : Nat} {port : Fin 2} {ok : Bool} {frame : Bytes}

/-- The state that has learned a frame's source, if its FCS is valid. -/
def State.learnt (s : State) (ok : Bool) (mac port : Nat) : State := if ok then s.learn mac port else s

theorem learnt_form (s : State) (ok : Bool) (mac port : Nat) : s.learnt ok mac port = { s with net := { s.net with table := (s.learnt ok mac port).net.table } } := by
  unfold State.learnt
  split
  · exact learn_form s mac port
  · rfl

theorem learnt_find_other {mac dst : Nat} (h : mac ≠ dst) (port : Nat) :
    (s.learnt ok mac port).bridgeLive.find? (fun e => e.mac == dst) = s.bridgeLive.find? fun e => e.mac == dst := by
  unfold State.learnt
  split
  · exact learn_find_other h
  · rfl

section
variable (h1 : s1 = s.advance dt)
include h1

theorem exec_bridgeFrame_shut (h : s1.portUp port = false) : exec (.bridgeFrame dt port ok frame) s = .next s1 := by
  subst h1
  exact if_neg (by simp [h])

variable (h : s1.portUp port = true)
include h

theorem exec_bridgeFrame_long (hlen : 1518 < frame.length) : exec (.bridgeFrame dt port ok frame) s = .next (s1.count rNetBrdrop 1) := by
  subst h1
  exact (if_pos h).trans (if_pos (by omega))

variable (hlen : frame.length ≤ 1518)
include hlen

theorem exec_bridgeFrame : exec (.bridgeFrame dt port ok frame) s =
    .next ((s1.learnt ok (ethSrc frame) port.val).forward port.val { ok := ok, bytes := frame }) := by
  subst h1
  exact (if_pos h).trans (if_neg (by omega))

theorem exec_bridgeFrame_device {T : List BridgeEnt} {e : BridgeEnt} (hok : ok = true) (hsrc : isGroup (ethSrc frame) = false)
    (hdst : isGroup (ethDst frame) = false) (hT : T = s1.liveBut (ethSrc frame) ++ [{ mac := ethSrc frame, port := port, at_ := s1.t }])
    (hroom : T.length ≤ 1024) (hfind : T.find? (fun e => e.mac == ethDst frame) = some e) (he : e.port = 2) :
    exec (.bridgeFrame dt port ok frame) s = .next { s1 with net := { s1.net with table := T, devIn := s1.net.devIn ++ [(s1.dev, frame)] } } := by
  have hlearn := learn_eq (s := s1) (port := port.val) hsrc (by simp [hT] at hroom; omega)
  rw [← hT] at hlearn
  have hlive : (s1.learn (ethSrc frame) port.val).bridgeLive = T := by
    rw [bridgeLive_learnt (s := s1) (mac := ethSrc frame) (port := port.val) (by rw [hlearn]) (by rw [hlearn]; exact hT), hlearn]
  rw [exec_bridgeFrame h1 h hlen, hok]
  show Host.Outcome.next ((s1.learn (ethSrc frame) port.val).forward port.val _) = _
  rw [forward_device (bridgePorts_device hdst (by rw [hlive]; exact hfind) he), hlearn]
  rfl

section
variable {p : NetPort} (hup : s1.portUp (1 - port.val) = true) (hp : s1.net.ports[1 - port.val]? = some p) (hpaused : p.pausedUntil ≤ s1.t)
  (hbusy : p.busyTo ≤ s1.t) (hone : s1.bitOf rTimCtl 2 = false)
include hup hp hpaused hbusy hone

theorem exec_bridgeFrame_flood (hdst : isGroup (ethDst frame) = true ∨ ethSrc frame ≠ ethDst frame ∧ ∀ e ∈ s1.net.table, e.mac ≠ ethDst frame) :
    exec (.bridgeFrame dt port ok frame) s =
      .next (((s1.learnt ok (ethSrc frame) port.val).begun (1 - port.val) p { ok := ok, bytes := frame }).devGiven { ok := ok, bytes := frame }) := by
  have hform := learnt_form s1 ok (ethSrc frame) port.val
  rw [exec_bridgeFrame h1 h hlen, forward_flood (by rw [hform]; exact hone) (by rw [hform]; exact hp) (by rw [hform]; exact hpaused)
    (by rw [hform]; exact hbusy) (bridgePorts_flood (by rw [hform]; exact hup) ?_)]
  refine hdst.imp_right fun hu => ?_
  rw [learnt_find_other hu.1]
  exact find_unknown hu.2

theorem exec_bridgeFrame_across {e : BridgeEnt} (hdst : isGroup (ethDst frame) = false) (hne : ethSrc frame ≠ ethDst frame) (hmac : ethDst frame ≠ s1.mac)
    (hfind : s1.bridgeLive.find? (fun e => e.mac == ethDst frame) = some e) (he : e.port = 1 - port.val) :
    exec (.bridgeFrame dt port ok frame) s =
      .next ((s1.learnt ok (ethSrc frame) port.val).begun (1 - port.val) p { ok := ok, bytes := frame }) := by
  have hform := learnt_form s1 ok (ethSrc frame) port.val
  rw [exec_bridgeFrame h1 h hlen, forward_across (by rw [hform]; exact hone) (by rw [hform]; exact hp) (by rw [hform]; exact hpaused)
    (by rw [hform]; exact hbusy) (bridgePorts_across (by rw [hform]; exact hup) hdst ?_ he (by rw [hform]; exact hmac))]
  rw [learnt_find_other hne]
  exact hfind

end

end

end

/-! ### A port's link, and ageing (R439, R440) -/

section
variable {s s1 : State} {dt : Nat} {port : Fin 2} {p : NetPort}

/-- A port as its PHY reports its link: with the link down nothing waits on it. -/
def NetPort.linked (p : NetPort) (up slow : Bool) : NetPort :=
  { p with up := up, slow := slow, held := if up then p.held else [], pausedUntil := if up then p.pausedUntil else 0 }

theorem exec_portLinkChange {up slow now : Bool} (h1 : s1 = s.advance dt) (hp : s.net.ports[port.val]? = some p)
    (hnow : now = (up && s.pow.locks.getD 1 false)) {u : State}
    (hu : u = { s1 with net := { s1.net with ports := s1.net.ports.set port (p.linked now slow) } }) :
    exec (.portLinkChange dt port up slow) s = .next (if p.up = now then u else u.irq rNetIrq 0) := by
  have hp1 : (s.advance dt).net.ports[port.val]? = some p := hp
  subst hu h1 hnow
  show execPortLinkChange dt port up slow s = _
  unfold execPortLinkChange
  dsimp only
  rw [setPort_of_some hp1, hp1]
  rfl

/-- A fold that each element leaves where it is. -/
theorem foldl_unmoved {α β : Type} {g : β → α → β} {b : β} {l : List α} (h : ∀ x ∈ l, g b x = b) : l.foldl g b = b := by
  induction l with
  | nil => rfl
  | cons x l ih =>
    rw [List.foldl_cons, h x List.mem_cons_self]
    exact ih fun y hy => h y (List.mem_cons_of_mem _ hy)

theorem exec_bridgeAgeing {e : BridgeEnt} {r : List BridgeEnt} (htable : s.net.table = e :: r) (hold : ∀ x ∈ r, e.at_ ≤ x.at_)
    (h1 : s1 = s.until (e.at_ + 300 * second)) : exec .bridgeAgeing s = .next { s1 with net := { s1.net with table := r } } := by
  have htable1 : s1.net.table = e :: r := by rw [h1, State.until_net, htable]
  show execBridgeAgeing s = _
  unfold execBridgeAgeing
  rw [htable, List.foldl_cons, foldl_unmoved fun x hx => if_neg (Nat.not_lt.2 (hold x hx))]
  dsimp only
  rw [← h1]
  unfold State.setNet
  dsimp only
  rw [htable1, List.erase_cons_head]

end

/-! ### PAUSE sent (R465) -/

section
variable {s s1 : State}

/-- Whether Q5 is full enough for a PAUSE, or still is for the next (R465). -/
def State.q5Full (s : State) : Bool :=
  if s.net.pausing then decide (s.fld rNetPause 15 8 * (s.ring 5).size < ((s.ring 5).w - (s.ring 5).r) * 100)
  else (s.ring 5).en && decide (s.fld rNetPause 7 0 * (s.ring 5).size ≤ ((s.ring 5).w - (s.ring 5).r) * 100)

theorem exec_pauseSend (s : State) : exec .pauseSend s =
    if s.bitOf rNetCtl 6 && s.q12Stalled && s.q5Full then
      .next (((if s.net.pausing then s.until (s.net.lastPause + msU 16) else s.irq rNetIrq 3).setNet fun n =>
        { n with pausing := true, lastPause := (if s.net.pausing then s.until (s.net.lastPause + msU 16) else s.irq rNetIrq 3).t }).sendPause 0xFFFF)
    else if s.net.pausing then .next ((s.setNet fun n => { n with pausing := false }).sendPause 0) else .next s := rfl

/-- Ports A and B in use. -/
def State.portsUp (s : State) : List Nat := (List.range 2).filter s.portUp

theorem foldl_emit {α : Type} (f : α → Emission) (l : List α) (s : State) :
    l.foldl (fun a n => a.emit (f n)) s = { s with emitted := s.emitted ++ l.map f } := by
  induction l generalizing s with
  | nil => simp
  | cons x l ih =>
    rw [List.foldl_cons, ih]
    simp [State.emit]

theorem sendPause_eq (s : State) (quanta : Nat) : s.sendPause quanta =
    ({ s with emitted := s.emitted ++ s.portsUp.map fun n => Emission.eth n true (s.pauseFrame quanta) } : State).count rNetPausecnt s.portsUp.length := by
  unfold State.sendPause
  dsimp only
  rw [foldl_emit]
  rfl

/-- What PAUSE frames are made of, and the ports they go out on, rest on four registers and the ports' links. -/
theorem portsUp_congr {t : State} (h : SameRegs s t [rNetIrq, rNetPausecnt]) (hp : t.net.ports = s.net.ports) : t.portsUp = s.portsUp := by
  unfold State.portsUp State.portUp State.bitOf
  rw [h rNetCtl (by decide), hp]

theorem pauseFrame_congr {t : State} (h : SameRegs s t [rNetIrq, rNetPausecnt]) (quanta : Nat) : t.pauseFrame quanta = s.pauseFrame quanta := by
  unfold State.pauseFrame State.mac State.fld
  rw [h rNetMachi (by decide), h rNetMaclo (by decide)]

/-- PAUSE frames from a state that differs from `s` in flags and the pause itself. -/
theorem sendPause_leaves {u : State} (quanta : Nat) (hr : SameRegs s u [rNetIrq]) (hp : u.net.ports = s.net.ports)
    (he : u.emitted = s.emitted) : (u.sendPause quanta).emitted = s.emitted ++ s.portsUp.map (fun n => Emission.eth n true (s.pauseFrame quanta)) ∧
    (swf regReset u.regs = true → (u.sendPause quanta).reg rNetPausecnt = min 4294967295 (s.reg rNetPausecnt + s.portsUp.length)) ∧ SameRegs u (u.sendPause quanta) [rNetPausecnt] ∧
    u.sendPause quanta = { u with regs := (u.sendPause quanta).regs, emitted := (u.sendPause quanta).emitted } := by
  have hr2 : SameRegs s u [rNetIrq, rNetPausecnt] := hr.weaken (by simp)
  rw [sendPause_eq, portsUp_congr hr2 hp, pauseFrame_congr hr2]
  refine ⟨?_, fun hwf => ?_, ?_, rfl⟩
  · show u.emitted ++ _ = _
    rw [he]
  · have hcount : u.reg rNetPausecnt = s.reg rNetPausecnt := hr _ (by decide)
    rw [← hcount]
    exact State.reg_count hwf rNetPausecnt s.portsUp.length
  · exact SameRegs.trans (b := ({ u with emitted := _ } : State)) (.of_regs rfl _) (setReg_sameRegs _ (by simp) _)

theorem q5Full_begins (hp : s.net.pausing = false) (hen : (s.ring 5).en = true)
    (hfull : s.fld rNetPause 7 0 * (s.ring 5).size ≤ ((s.ring 5).w - (s.ring 5).r) * 100) : s.q5Full = true := by
  unfold State.q5Full
  simp [hp, hen, hfull]

theorem q5Full_goes_on (hp : s.net.pausing = true) : s.q5Full = decide (s.fld rNetPause 15 8 * (s.ring 5).size < ((s.ring 5).w - (s.ring 5).r) * 100) := if_pos hp

/-- The state in which a PAUSE has been given out. -/
def State.pauseGiven (s : State) : State := s.setNet fun n => { n with pausing := true, lastPause := s.t }

section
variable (hctl : s.bitOf rNetCtl 6 = true) (hstall : s.q12Stalled = true) (hfull : s.q5Full = true)
include hctl hstall hfull

theorem exec_pauseSend_first (hp : s.net.pausing = false) : exec .pauseSend s = .next ((s.irq rNetIrq 3).pauseGiven.sendPause 0xFFFF) := by
  rw [exec_pauseSend, if_pos (by simp [hctl, hstall, hfull])]
  simp only [hp, Bool.false_eq_true, if_false]
  rfl

theorem exec_pauseSend_again (hp : s.net.pausing = true) (h1 : s1 = s.until (s.net.lastPause + msU 16)) :
    exec .pauseSend s = .next (s1.pauseGiven.sendPause 0xFFFF) := by
  rw [exec_pauseSend, if_pos (by simp [hctl, hstall, hfull]), h1]
  simp only [hp, if_true]
  rfl

end

section
variable (h : s.bitOf rNetCtl 6 = false ∨ s.q12Stalled = false ∨ s.q5Full = false)
include h

theorem exec_pauseSend_end (hp : s.net.pausing = true) : exec .pauseSend s = .next ((s.setNet fun n => { n with pausing := false }).sendPause 0) := by
  rw [exec_pauseSend, if_neg (by rcases h with h | h | h <;> simp [h]), if_pos hp]

theorem exec_pauseSend_none (hp : s.net.pausing = false) : exec .pauseSend s = .next s := by
  rw [exec_pauseSend, if_neg (by rcases h with h | h | h <;> simp [h]), if_neg (by simp [hp])]

end

end

/-! ### PAUSE received (R466) -/

section
variable {s s1 : State} {dt : Nat} {port : Fin 2} {p : NetPort}

section
variable {quanta : Fin 65536} (h1 : s1 = s.advance dt)
include h1

theorem exec_pauseReceive_ignored (h : s.bitOf rNetCtl 7 = false ∨ s.portUp port = false) : exec (.pauseReceive dt port quanta) s = .next s1 := by
  subst h1
  have h' : (s.advance dt).bitOf rNetCtl 7 = false ∨ (s.advance dt).portUp port = false := h
  exact if_neg (by rcases h' with h | h <;> simp [h])

variable (hctl : s.bitOf rNetCtl 7 = true) (hup : s.portUp port = true)
include hctl hup

theorem exec_pauseReceive_end (hq : quanta.val = 0) : exec (.pauseReceive dt port quanta) s = .next (s1.resume port) := by
  subst h1
  have hon : ((s.advance dt).bitOf rNetCtl 7 && (s.advance dt).portUp port.val) = true := by
    show (s.bitOf rNetCtl 7 && s.portUp port) = true
    simp [hctl, hup]
  exact (if_pos hon).trans (if_pos hq)

theorem exec_pauseReceive (hq : quanta.val ≠ 0) (hp : s.net.ports[port.val]? = some p) : exec (.pauseReceive dt port quanta) s =
    .next { s1 with net := { s1.net with ports := s1.net.ports.set port { p with pausedUntil :=
      s1.t + quanta.val * 512 * 268435456 / (if p.slow then 100000000 else 1000000000) } } } := by
  have hp1 : (s.advance dt).net.ports[port.val]? = some p := hp
  subst h1
  have hon : ((s.advance dt).bitOf rNetCtl 7 && (s.advance dt).portUp port.val) = true := by
    show (s.bitOf rNetCtl 7 && s.portUp port) = true
    simp [hctl, hup]
  refine (if_pos hon).trans ((if_neg hq).trans ?_)
  rw [hp1]
  dsimp only
  rw [setPort_of_some hp1]
  rfl

end

/-- A port whose pause has run out. -/
def State.unpaused (s : State) (n : Nat) (p : NetPort) : State :=
  { s with net := { s.net with ports := s.net.ports.set n { p with pausedUntil := 0, held := [] } } }

/-- The end of a port's pause on a unit that does not transmit itself: what waited on the port goes out in order. -/
theorem resume_inert {n : Nat} (hp : s.net.ports[n]? = some p) {v : State} (hv : v = p.held.foldl (fun a f => a.egress n f) (s.unpaused n p))
    (htx : v.netTx = false) : s.resume n = v := by
  unfold State.resume
  rw [hp]
  dsimp only
  rw [setPort_of_some hp]
  show State.q6Drain (63 + 1) (p.held.foldl (fun a f => a.egress n f) (s.unpaused n p)) = v
  rw [← hv]
  unfold State.q6Drain
  rw [if_neg (by simp [htx])]

section
variable (hp : s.net.ports[port.val]? = some p) (hlate : s.t < p.pausedUntil) (h1 : s1 = s.until p.pausedUntil)
include hp hlate h1

theorem exec_pauseExpiry : exec (.pauseExpiry port) s = .next (s1.resume port.val) := by
  show execPauseExpiry port s = _
  unfold execPauseExpiry
  rw [hp, h1]
  exact if_pos hlate

variable (htx : s.netTx = false)
include htx

theorem exec_pauseExpiry_idle (hheld : p.held = []) : exec (.pauseExpiry port) s =
    .next { s1 with net := { s1.net with ports := s1.net.ports.set port.val { p with pausedUntil := 0 } } } := by
  have hp1 : s1.net.ports[port.val]? = some p := by rw [h1, State.until_net, hp]
  have htx1 : (s1.unpaused port.val p).netTx = false := by
    rw [h1, State.until_eq]
    exact htx
  rw [exec_pauseExpiry hp hlate h1, resume_inert hp1 (by rw [hheld]; rfl) htx1]
  unfold State.unpaused
  rw [← hheld]

theorem exec_pauseExpiry_one {f : EthFrame} (hheld : p.held = [f]) (hbusy : p.busyTo ≤ s1.t) : exec (.pauseExpiry port) s =
    .next ((s1.unpaused port.val p).begun port.val { p with pausedUntil := 0, held := [] } f) := by
  have hp1 : s1.net.ports[port.val]? = some p := by rw [h1, State.until_net, hp]
  have hgo : (s1.unpaused port.val p).egress port.val f = (s1.unpaused port.val p).begun port.val { p with pausedUntil := 0, held := [] } f :=
    egress_idle (s := s1.unpaused port.val p) (p := { p with pausedUntil := 0, held := [] }) (ports_set_self hp1 _) (Nat.zero_le _) hbusy f
  have htx1 : ((s1.unpaused port.val p).begun port.val { p with pausedUntil := 0, held := [] } f).netTx = false := by
    rw [h1, State.until_eq]
    exact htx
  rw [exec_pauseExpiry hp hlate h1, resume_inert hp1 (by rw [hheld, List.foldl_cons, List.foldl_nil, hgo]) htx1]

end

end

end Sys2Proof.Machine
end

section
/-! SUPPORT. What the device port takes, MDIO, duplicate address detection, and the statement on the ports (R439 to R443, R465, R466, R469). -/
namespace Sys2Proof.Machine

/-! ### The device port (R443) -/

section
variable {s : State} {stamp : Nat} {b : Bytes}

theorem exec_devicePortReceive {s1 : State} {r : List (Nat × Bytes)} (hin : s.net.devIn = (stamp, b) :: r)
    (h1 : s1 = { s with net := { s.net with devIn := r } }) : exec .devicePortReceive s = .next (s1.deviceIn stamp b) := by
  subst h1
  show execDevicePortReceive s = _
  unfold execDevicePortReceive
  rw [hin]
  rfl

theorem deviceIn_other (h : s.acceptsMac (ethDst b) = false) : s.deviceIn stamp b = s := if_neg (by simp [h])

section
variable (h : s.acceptsMac (ethDst b) = true)
include h

theorem deviceIn_arp (hty : ethType b = 0x0806) (hon : s.bitOf rNetCtl 5 = true) (hop : fldB 20 2 b = 1) (hip : sub 38 4 b = s.ip4) :
    s.deviceIn stamp b = s.devSend (ethFrame (ethSrc b) s.mac 0x0806 (arp 2 s.mac s.ip4 (fldB 22 6 b) (sub 28 4 b))) := by
  unfold State.deviceIn
  rw [if_pos h, hty]
  exact if_pos ⟨hon, hop, hip⟩

theorem deviceIn_ip4 (hty : ethType b = 0x0800) : s.deviceIn stamp b = s.ip4In stamp b := by
  unfold State.deviceIn
  rw [if_pos h, hty]
  rfl

end

/-- An IPv4 packet to the unit's address, with the DF bit, no options and a valid header checksum, that carries UDP without a checksum. -/
theorem ip4In_udp {p body : Bytes} (hon : s.bitOf rNetCtl 5 = true) (hp : p = b.drop 14) (hver : fldB 0 1 p = 0x45) (hfrag : fldB 6 2 p = 0x4000)
    (hproto : fldB 9 1 p = 17) (hsum : fold16 (sum16 (p.take 20)) = 65535) (hip : sub 16 4 p = s.ip4) (hbody : body = (p.take (fldB 2 2 p)).drop 20)
    (hchk : fldB 6 2 body = 0) : s.ip4In stamp b = s.udpIn stamp (fldB 12 4 p) body := by
  subst hp hbody
  unfold State.ip4In
  dsimp only
  rw [if_neg (by simp [hon, hver, hfrag, hproto, hsum]), if_neg (by simp [hip]), if_neg (by simp [hchk])]

theorem ip4In_off (hoff : s.bitOf rNetCtl 5 = false) : s.ip4In stamp b = s.count rNetRxdrop 1 := by
  unfold State.ip4In
  exact if_pos (Or.inl hoff)

theorem udpIn_own {src : Nat} {u : Bytes} (hport : fldB 2 2 u = s.fld rNetUdp 15 0) (hrole : s.cfg.role ≠ .head) :
    s.udpIn stamp src u = s.offer 5 { kind := .netPkt, stamp := stamp, payload := (u.take (fldB 4 2 u)).drop 8 } := by
  unfold State.udpIn
  dsimp only
  rw [if_pos hport, if_neg (fun h => hrole h.2.2)]

section
variable (h : s.acceptsMac (ethDst b) = true) (hty : ethType b = 0x0800)
include h hty

theorem deviceIn_udp {p body : Bytes} (hon : s.bitOf rNetCtl 5 = true) (hp : p = b.drop 14) (hver : fldB 0 1 p = 0x45) (hfrag : fldB 6 2 p = 0x4000)
    (hproto : fldB 9 1 p = 17) (hsum : fold16 (sum16 (p.take 20)) = 65535) (hip : sub 16 4 p = s.ip4) (hbody : body = (p.take (fldB 2 2 p)).drop 20)
    (hchk : fldB 6 2 body = 0) (hport : fldB 2 2 body = s.fld rNetUdp 15 0) (hrole : s.cfg.role ≠ .head) :
    s.deviceIn stamp b = s.offer 5 { kind := .netPkt, stamp := stamp, payload := (body.take (fldB 4 2 body)).drop 8 } := by
  rw [deviceIn_ip4 h hty, ip4In_udp hon hp hver hfrag hproto hsum hip hbody hchk, udpIn_own hport hrole]

theorem deviceIn_ip4_off (hoff : s.bitOf rNetCtl 5 = false) : s.deviceIn stamp b = s.count rNetRxdrop 1 := by
  rw [deviceIn_ip4 h hty, ip4In_off hoff]

end

end

/-! ### MDIO (R469, R553) -/

section
variable {s s1 : State} {w : Who} {v : Word}

/-- A write with GO leaves every lower bit as the write gave it. -/
theorem bits_go {hi lo : Nat} (h : hi < 31) : bits hi lo (v ||| 0x80000000#32).toNat = bits hi lo v.toNat := by
  refine Nat.eq_of_testBit_eq fun i => ?_
  rw [testBit_bits, testBit_bits, BitVec.toNat_or, Nat.testBit_or]
  by_cases hi' : i < hi + 1 - lo
  · have hgo : (0x80000000#32).toNat.testBit (i + lo) = false := by
      show (2 ^ 31).testBit (i + lo) = false
      exact Nat.testBit_two_pow_of_ne (by omega)
    rw [hgo, Bool.or_false]
  · simp [hi']

theorem bit_go {k : Nat} (h : k < 31) : bit k (v ||| 0x80000000#32).toNat = bit k v.toNat := by
  have hgo : (0x80000000#32).toNat.testBit k = false := by
    show (2 ^ 31).testBit k = false
    exact Nat.testBit_two_pow_of_ne (by omega)
  rw [bit_eq_testBit, bit_eq_testBit, BitVec.toNat_or, Nat.testBit_or, hgo, Bool.or_false]

theorem bit_go_set : bit 31 (v ||| 0x80000000#32).toNat = true := by
  have hgo : (0x80000000#32).toNat.testBit 31 = true := by
    show (2 ^ 31).testBit 31 = true
    exact Nat.testBit_two_pow_self
  rw [bit_eq_testBit, BitVec.toNat_or, Nat.testBit_or, hgo, Bool.or_true]

/-- The clause 22 frame that a write with GO starts. -/
def mdioFrame (v : Word) (now : Nat) : Mdio := { write := bit 26 v.toNat, phyad := bits 25 21 v.toNat, regad := bits 20 16 v.toNat, data := bits 15 0 v.toNat, start := now }

theorem exec_mdioGo (hw : w ≠ .seif) (hidle : s.net.mdio = none) : exec (.mdioGo w v) s =
    .next (((s.setReg rNetMdio (bits 26 0 v.toNat + 2147483648)).setNet fun n => { n with mdio := some (mdioFrame v s.t) }).answer w .done) := by
  have hgo : s.mdioWrite (v ||| 0x80000000#32) = (s.setReg rNetMdio (bits 26 0 v.toNat + 2147483648)).setNet fun n => { n with mdio := some (mdioFrame v s.t) } := by
    unfold State.mdioWrite mdioFrame
    dsimp only
    rw [hidle, bit_go_set, bits_go (by omega), bits_go (by omega), bits_go (by omega), bits_go (by omega), bit_go (by omega)]
    rfl
  show execMdioGo w v s = _
  unfold execMdioGo
  rw [if_neg hw, hgo]

theorem State.bitOf_setFld_other (hs : swf regReset s.regs = true) (a : Nat) {hi lo n : Nat} (h : lo ≤ hi) (hn : n < 32) (hd : n < lo ∨ hi < n) (x : Nat) :
    (s.setFld a hi lo x).bitOf a n = s.bitOf a n := by
  unfold State.bitOf
  rw [bit_eq_testBit, bit_eq_testBit, State.setFld_testBit hs a h, if_neg (by omega)]
  simp [hn]

/-- The state whose clause 22 frame has ended. -/
def State.mdioIdle (s : State) : State := (s.setNet fun n => { n with mdio := none }).setBit rNetMdio 31 false

theorem exec_mdioFrameDone {dt : Nat} {data : Fin 65536} {m : Mdio} (h1 : s1 = s.advance dt) (hm : s.net.mdio = some m) :
    exec (.mdioFrameDone dt data) s = .next (if m.write then s1.mdioIdle else s1.mdioIdle.setFld rNetMdio 15 0 data.val) := by
  have hm1 : (s.advance dt).net.mdio = some m := hm
  subst h1
  show execMdioFrameDone dt data s = _
  unfold execMdioFrameDone
  dsimp only
  rw [hm1]
  rfl

theorem mdioIdle_reads (hs : swf regReset s.regs = true) : s.mdioIdle.bitOf rNetMdio 31 = false ∧ s.mdioIdle.fld rNetMdio 15 0 = s.fld rNetMdio 15 0 ∧
    s.mdioIdle.fld rNetMdio 30 16 = s.fld rNetMdio 30 16 ∧ SameRegs s s.mdioIdle [rNetMdio] := by
  have hset : swf regReset (s.setNet fun n => { n with mdio := none }).regs = true := hs
  refine ⟨?_, ?_, ?_, ?_⟩
  · unfold State.mdioIdle
    rw [State.bitOf_setBit hset _ _ _ _ (by omega), if_pos rfl]
  · exact State.fld_setBit_other hset _ (by omega) (by omega) _
  · exact State.fld_setBit_other hset _ (by omega) (by omega) _
  · exact SameRegs.trans (b := s.setNet fun n => { n with mdio := none }) (.of_regs rfl _) (setReg_sameRegs _ (by simp) _)

end

end Sys2Proof.Machine
end

section
/-! SUPPORT. The statement on the ports, the device port and MDIO (R439 to R443, R465, R466, R469, R553). -/
namespace Sys2Proof.Machine

section
variable {s s1 : State} {dt : Nat} {port : Fin 2} {p : NetPort}

/-- What a frame leaves that goes to every other port, when one of them is idle: it has begun there, and the device port has it. -/
theorem flooded_leaves (h1 : s1 = s.advance dt) (ok : Bool) (frame : Bytes) {t : State}
    (ht : t = ((s1.learnt ok (ethSrc frame) port.val).begun (1 - port.val) p { ok := ok, bytes := frame }).devGiven { ok := ok, bytes := frame }) :
    t.net.devIn = s.net.devIn ++ (if ok then [(s1.dev, frame)] else []) ∧ t.emitted = s.emitted ++ [.eth (1 - port.val) ok frame] ∧
    t = { s1 with net := { s1.net with table := t.net.table, ports := t.net.ports, devIn := t.net.devIn }, emitted := t.emitted } ∧
    (s1.learnt ok (ethSrc frame) port.val).begun (1 - port.val) p { ok := ok, bytes := frame } = { t with net := { t.net with devIn := s.net.devIn } } := by
  have hform := learnt_form s1 ok (ethSrc frame) port.val
  generalize (s1.learnt ok (ethSrc frame) port.val).net.table = T at hform
  rw [hform] at ht ⊢
  subst ht h1
  exact ⟨rfl, rfl, rfl, rfl⟩

/-- A PHY's report moves the port, and NET_IRQ.LINK when the link changes. -/
theorem portLinkChange_leaves {up slow now : Bool} (hinv : s.Inv) (h1 : s1 = s.advance dt) (hp : s.net.ports[port.val]? = some p)
    (hnow : now = (up && s.pow.locks.getD 1 false)) : ∃ t, exec (.portLinkChange dt port up slow) s = .next t ∧
      t.net.ports = s.net.ports.set port (p.linked now slow) ∧ (p.up ≠ now → t.bitOf rNetIrq 0 = true ∧ SameRegs s t [rNetIrq]) ∧
      (p.up = now → t.regs = s.regs) ∧ t = { s1 with regs := t.regs, net := { s1.net with ports := t.net.ports } } := by
  have h : exec (.portLinkChange dt port up slow) s = _ := exec_portLinkChange h1 hp hnow rfl
  subst h1
  by_cases heq : p.up = now
  · rw [if_pos heq] at h
    exact ⟨_, h, rfl, fun hne => absurd heq hne, fun _ => rfl, rfl⟩
  · rw [if_neg heq] at h
    refine ⟨_, h, by rw [State.irq_net]; rfl, fun _ => ⟨State.irq_set (by exact hinv.1) (by decide), irq_sameRegs _ (by simp) _⟩, fun h => absurd h heq, ?_⟩
    rw [State.irq_eq]

section
variable (hinv : s.Inv) (hctl : s.bitOf rNetCtl 6 = true) (hstall : s.q12Stalled = true) (hfull : s.q5Full = true)
include hinv hctl hstall hfull

theorem pauseSend_first_leaves (hp : s.net.pausing = false) : ∃ t, exec .pauseSend s = .next t ∧
    t.emitted = s.emitted ++ s.portsUp.map (fun n => Emission.eth n true (s.pauseFrame 0xFFFF)) ∧ t.bitOf rNetIrq 3 = true ∧
    t.reg rNetPausecnt = min 4294967295 (s.reg rNetPausecnt + s.portsUp.length) ∧ SameRegs s t [rNetIrq, rNetPausecnt] ∧
    t = { s with regs := t.regs, emitted := t.emitted, net := { s.net with pausing := true, lastPause := s.t } } := by
  obtain ⟨hsent, hcount, hregs, hform⟩ := sendPause_leaves (s := s) (u := (s.irq rNetIrq 3).pauseGiven) 0xFFFF
    (irq_sameRegs s (by simp) 3) (by rw [State.irq_eq]; rfl) (State.irq_emitted s _ _)
  refine ⟨_, exec_pauseSend_first hctl hstall hfull hp, hsent, ?_, hcount (State.irq_wf hinv.1 _ _), ?_, ?_⟩
  · unfold State.bitOf
    rw [hregs rNetIrq (by decide)]
    exact State.irq_set hinv.1 (by omega)
  · exact (irq_sameRegs s (l := [rNetIrq, rNetPausecnt]) (by simp) 3).trans (hregs.weaken (by simp))
  · rw [hform, State.irq_eq]
    rfl

theorem pauseSend_again_leaves (hp : s.net.pausing = true) (h1 : s1 = s.until (s.net.lastPause + msU 16)) : ∃ t, exec .pauseSend s = .next t ∧
    t.emitted = s.emitted ++ s.portsUp.map (fun n => Emission.eth n true (s.pauseFrame 0xFFFF)) ∧
    t.reg rNetPausecnt = min 4294967295 (s.reg rNetPausecnt + s.portsUp.length) ∧ SameRegs s t [rNetPausecnt] ∧
    t = { s1 with regs := t.regs, emitted := t.emitted, net := { s1.net with pausing := true, lastPause := s1.t } } := by
  have hregs1 : s1.regs = s.regs := by rw [h1, State.until_regs]
  obtain ⟨hsent, hcount, hregs, hform⟩ := sendPause_leaves (s := s) (u := s1.pauseGiven) 0xFFFF
    (.of_regs hregs1 _) (by rw [h1, State.until_eq]; rfl) (by rw [h1, State.until_eq]; rfl)
  exact ⟨_, exec_pauseSend_again hctl hstall hfull hp h1, hsent, hcount (by rw [h1, State.until_eq]; exact hinv.1),
    (SameRegs.of_regs hregs1 _).trans hregs, hform⟩

end

/-- The end of a clause 22 frame clears GO; a read returns its data (R469). -/
theorem mdioFrameDone_leaves {data : Fin 65536} {m : Mdio} (hinv : s.Inv) (h1 : s1 = s.advance dt) (hm : s.net.mdio = some m) :
    ∃ t, exec (.mdioFrameDone dt data) s = .next t ∧ t.bitOf rNetMdio 31 = false ∧ (m.write = false → t.fld rNetMdio 15 0 = data) ∧
      (m.write = true → t.fld rNetMdio 15 0 = s.fld rNetMdio 15 0) ∧ t.fld rNetMdio 30 16 = s.fld rNetMdio 30 16 ∧ SameRegs s t [rNetMdio] ∧
      t = { s1 with regs := t.regs, net := { s1.net with mdio := none } } := by
  have hs1 : swf regReset s1.regs = true := by rw [h1]; exact hinv.1
  have hs2 : swf regReset s1.mdioIdle.regs = true := State.setBit_wf (by exact hs1) _ _ _
  obtain ⟨hgo, hlow, hhigh, hregs⟩ := mdioIdle_reads hs1
  have h := exec_mdioFrameDone (data := data) h1 hm
  subst h1
  cases hw : m.write with
  | true =>
    rw [hw, if_pos rfl] at h
    exact ⟨_, h, hgo, fun hc => absurd hc (by simp), fun _ => hlow, hhigh, hregs, rfl⟩
  | false =>
    rw [hw, if_neg (by simp)] at h
    refine ⟨_, h, ?_, fun _ => ?_, fun hc => absurd hc (by simp), ?_, hregs.trans (setReg_sameRegs _ (by simp) _), rfl⟩
    · exact (State.bitOf_setFld_other hs2 _ (by omega) (by omega) (by omega) _).trans hgo
    · rw [State.fld_setFld_same hs2 _ (by omega) (by omega)]
      exact Nat.mod_eq_of_lt data.isLt
    · rw [State.fld_setFld_other hs2 _ (by omega) (by omega) (by omega)]
      exact hhigh

end

/-- Settles O47: each command by its own conditions, a frame by the ports that the bridge finds for it. -/
theorem bridgeAndPausePorts : Obligations.BridgeAndPausePorts := by
  unfold Obligations.BridgeAndPausePorts
  refine ⟨fun dt port ok frame s s1 h1 => ⟨exec_bridgeFrame_shut h1, exec_bridgeFrame_long h1, ?_, ?_⟩,
    fun dt port up slow s s1 p now hinv h1 hp hnow => portLinkChange_leaves hinv h1 hp hnow, fun s s1 e r ht ho h1 => exec_bridgeAgeing ht ho h1,
    fun s hinv hctl hstall => ⟨fun hp hen hfull => pauseSend_first_leaves hinv hctl hstall (q5Full_begins hp hen hfull) hp, fun s1 hp hfull h1 => ?_⟩,
    fun s h => ⟨fun hp => ?_, fun hp => ?_⟩,
    fun dt port quanta s s1 p h1 hp => ⟨exec_pauseReceive_ignored h1, exec_pauseReceive_end h1, fun hctl hup hq => exec_pauseReceive h1 hctl hup hq hp⟩,
    fun port s s1 p f hp hlate h1 htx => ⟨exec_pauseExpiry_idle hp hlate h1 htx, fun hheld hbusy => ?_⟩, fun s s1 stamp b r hin h1 => ?_, fun s h => ?_,
    fun v s => rfl, fun w v s hinv hw hidle => ?_, fun dt data s s1 m hinv h1 hm => mdioFrameDone_leaves hinv h1 hm, fun s hinv hdad => ?_,
    fun ok s h => if_neg h⟩
  · intro T e hup hlen hok hsrc hdst hT hroom hfind he
    exact exec_bridgeFrame_device h1 hup hlen hok hsrc hdst hT hroom hfind he
  · intro p hup hlen hother hp hpaused hbusy hone
    have hone1 : s1.bitOf rTimCtl 2 = false := by rw [h1]; exact hone
    obtain ⟨hdev, hsent, hform, hacross⟩ := flooded_leaves (port := port) (p := p) h1 ok frame rfl
    refine ⟨_, fun hdst => ⟨exec_bridgeFrame_flood h1 hup hlen hother hp hpaused hbusy hone1 ?_, hdev⟩, fun e hdst hne hmac hfind he => ?_, hsent, hform⟩
    · rw [h1]
      exact hdst
    · rw [← hacross]
      exact exec_bridgeFrame_across h1 hup hlen hother hp hpaused hbusy hone1 hdst hne (by rw [h1]; exact hmac) hfind he
  · exact pauseSend_again_leaves hinv hctl hstall ((q5Full_goes_on hp).trans (decide_eq_true hfull)) hp h1
  · exact exec_pauseSend_none (h.imp_right (Or.imp_right fun hq => absurd hp (by simp [hq.1]))) hp
  · obtain ⟨hsent, -, -, hform⟩ := sendPause_leaves (s := s) (u := s.setNet fun n => { n with pausing := false }) 0 (.refl s _) rfl rfl
    refine ⟨_, exec_pauseSend_end (h.imp_right (Or.imp_right fun hq => ?_)) hp, hsent, hform⟩
    exact (q5Full_goes_on hp).trans (decide_eq_false (Nat.not_lt.2 hq.2))
  · have hp1 : s1.net.ports[port.val]? = some p := by rw [h1, State.until_net, hp]
    refine ⟨_, exec_pauseExpiry_one hp hlate h1 htx hheld hbusy, ?_, rfl, _, ports_set_self (ports_set_self hp1 _) _, rfl, rfl⟩
    show s1.emitted ++ _ = _
    rw [h1, State.until_emitted]
  · subst h1
    have hgo := exec_devicePortReceive hin rfl
    refine ⟨fun h => hgo.trans ?_, fun h hty hon hop hip => hgo.trans ?_,
      fun p body h hty hon hp hver hfrag hproto hsum hip hbody hchk hport hrole => hgo.trans ?_, fun h hty hoff => hgo.trans ?_⟩
    · exact congrArg _ (deviceIn_other h)
    · exact congrArg _ (deviceIn_arp h hty hon hop hip)
    · exact congrArg _ (deviceIn_udp (s := { s with net := { s.net with devIn := r } }) h hty hon hp hver hfrag hproto hsum hip hbody hchk hport hrole)
    · exact congrArg _ (deviceIn_ip4_off h hty hoff)
  · show execDevicePortReceive s = _
    unfold execDevicePortReceive
    rw [h]
  · refine ⟨_, exec_mdioGo hw hidle, ?_, setReg_sameRegs s (by simp) _, rfl⟩
    have hlow : bits 26 0 v.toNat < 2 ^ 27 := Nat.mod_lt _ (by decide)
    show (s.setReg rNetMdio _).reg rNetMdio = _
    rw [State.reg_setReg hinv.1, if_pos rfl, Nat.mod_eq_of_lt (by omega)]
  · refine ⟨(if_pos hdad).trans (if_pos rfl), _, (if_pos hdad).trans (if_neg (by simp)), State.irq_set (by exact hinv.1) (by decide),
      irq_sameRegs _ (by simp) _, ?_⟩
    rw [State.irq_eq]
    rfl

end Sys2Proof.Machine
end
